-- ==== Sys2Proof/Word.lean ====
section
/-! DEFINITION. The word types of the block: registers, bytes, and the two bit-exact time formats. -/

namespace Sys2Proof

/-- A 32-bit register (R27). -/
abbrev Word := BitVec 32

/-- One byte of memory or of a frame. -/
abbrev Byte := BitVec 8

/-- A PC64 value: a phase count in units of 2⁻¹⁶ ns that wraps (Table 03-1). -/
abbrev PC64 := BitVec 64

/-- The 80-bit phase of the master time counter, in units of 2⁻¹⁶ ns (R44). -/
abbrev Phase := BitVec 80

end Sys2Proof
end

