-- ==== Sys2Proof/Syntax.lean ====
section
/-! DEFINITION. The commands of the block: one constructor for each row of spec/opcode_table.json. A row
that is a register write carries the requester and the value written; a row that is an event carries
the facts of the environment that the event brings (log entry 4). -/

namespace Sys2Proof

/-- A Boulevard requester: a hart or the host (R27, R47). -/
inductive Requester where
  | hart (h : Fin 6)
  | host
  deriving DecidableEq, Repr

/-- The width of a register access (R27). -/
inductive AccSize where
  | b8 | b16 | b32 | b64
  deriving DecidableEq, Repr

/-- The Boulevard's traffic classes, highest priority first (Table 01-4). -/
inductive BlvClass where
  | key | ctrl | data | bulk
  deriving DecidableEq, Repr

/-- What the environment brings to a register write: whether PERST_N is asserted (DIE.PWR_CTRL), the samples that a
running capture has taken (SNP.CTRL, resets), and words 0, 1, 2 and 4 of the descriptors that a host ring's TAIL
gives (log entry 4). -/
structure WriteFacts where
  perst : Bool
  taken : List Byte
  descs : List (Word × Word × Word × Word)
  deriving DecidableEq, Repr


/-- A cycle of a source island in which a selected event had occurrences or its condition held (R351,
R353): its PC64 on the die's replica, and for each instance concerned (0xFF for an event without
instances) the occurrences or rises. -/
structure PmcCycle where
  pc : BitVec 64
  insts : List (Nat × Nat)
  deriving DecidableEq, Repr

/-- What a margin review measures of one powered island (R390): its slack in ps, its ring-oscillator frequency
in 0.1 MHz, and the slowdown since the factory in 0.01 %. -/
structure IslMeas where
  die : Nat
  isl : Nat
  slack : Nat
  rosc : Nat
  drift : Int
  deriving DecidableEq, Repr

/-- What a HELLO frame says of its sender (R400): the version range, the feature mask, the mode, depth and
slot, and the clock identity. -/
structure AskHello where
  vmin : Nat
  vmax : Nat
  feats : Nat
  mode : Nat
  depth : Nat
  slot : Fin 4
  id : BitVec 64
  deriving DecidableEq, Repr

/-- A PTP reference sample (R23, R70, R268): `t1` and `t4` are the upstream's times in 2⁻¹⁶ ns of T96
after corrections, `t2` and `t3` the Port die's stamps; a P2P sample carries the mean link delay. -/
inductive PtpSample where
  | e2e (t1 : Int) (t2 t3 : BitVec 64) (t4 : Int)
  | p2p (t1 : Int) (t2 : BitVec 64) (delay : Int)
  deriving DecidableEq, Repr

/-- What one channel in SYNC measures at an epoch (R148): code phase in 2⁻¹⁶ chip, whole code periods
since the subframe or page part began, the accumulated carrier in 2⁻¹⁶ cycle, the observed Doppler
in 0.01 Hz, and the C/N0, PLI and noise power of the last second. -/
structure Meas where
  ch : Fin 80
  code : Nat
  ms : Nat
  car : Int
  dopp : Int
  cn0 : Nat
  pli : Nat
  noise : Nat
  deriving DecidableEq, Repr

/-- A frame that reaches a port (R177, R181): its bytes without FCS, whether the FCS is right, the
observation of its start at the balls, the instant its last byte was received and checked, and whether
the packet tiles it is written to pass their check when they are read, and the FEC codewords corrected
and uncorrectable on the port since its previous frame. -/
structure RxFrame where
  bytes : List Byte
  fcsOk : Bool
  seen : BitVec 64
  eof : BitVec 64
  tileOk : Bool
  fecCorr : Nat
  fecUncorr : Nat
  deriving DecidableEq, Repr

/-- The commands, in the order of spec/opcode_table.json. -/
inductive Instr where
  /-- REG_WRITE (R28). A write to a register that has no row of its own, handled by its access code. -/
  | regWrite (r : Requester) (adr : Nat) (size : AccSize) (v : BitVec 64) (env : WriteFacts)
  /-- UNMAPPED_ACCESS (R25). An access to an unmapped page reads 0 or is discarded, and DIE.UNMAP_CNT increments. -/
  | unmappedAccess (r : Requester) (die : Fin 8) (page : Fin 0x2000) (wr : Bool)
  /-- POWERED_OFF_ACCESS (R18). An access to a page whose domain is off reads 0 or is discarded, and BLV.OFF_CNT increments. -/
  | poweredOffAccess (r : Requester) (die : Fin 8) (page : Fin 0x2000) (wr : Bool)
  /-- PAGE_ENABLE (R38). A write of 1 to PAGE_CTRL.EN enables a block, or is discarded when features are not acknowledged. -/
  | pageEnable (r : Requester) (die : Fin 8) (page : Fin 0x2000)
  /-- PAGE_DISABLE (R28). Clearing PAGE_CTRL.EN stops the block at its next operation boundary and keeps its configuration. -/
  | pageDisable (r : Requester) (die : Fin 8) (page : Fin 0x2000)
  /-- SOFT_RESET (R28). A write of 1 to PAGE_CTRL.SRST starts a block soft reset. -/
  | softReset (r : Requester) (die : Fin 8) (page : Fin 0x2000)
  /-- SOFT_RESET_DONE (R28). The block soft reset completes within 10 µs and SRST clears. -/
  | softResetDone (die : Fin 8) (page : Fin 0x2000)
  /-- PAGE_LOCK (R41). A write of 1 to PAGE_CTRL.LOCK freezes the page's rwl registers. -/
  | pageLock (r : Requester) (die : Fin 8) (page : Fin 0x2000)
  /-- INT_FORCE (R34). A write to INT_FORCE sets INT_RAW bits as if the events had occurred, and records them as forced. -/
  | intForce (r : Requester) (die : Fin 8) (page : Fin 0x2000) (v : Word)
  /-- FEAT_COMMIT (R36). A write of FEAT_CTRL.COMMIT starts applying DEV_FEAT_ACK0–3 to every page. -/
  | featCommit (r : Requester)
  /-- FEAT_COMMIT_DONE (R36). The commit completes, powered pages set FEAT_ACKED and COMMITTED is set. -/
  | featCommitDone
  /-- DOUBT_MESSAGE (R32). A die sends INT_SUM, DOUBT_SUM and its source vector to the Hub on a change. -/
  | doubtMessage (die : Fin 8)
  /-- DOUBT_MESSAGE_RESEND (R32). Every 1 ms each die resends its doubt message. -/
  | doubtMessageResend (die : Fin 8)
  /-- BLV_TRANSFER (R16). A Boulevard transfer is granted and delivered between dies. -/
  | blvTransfer (dst : Fin 8) (waiting : List (Fin 8 × BlvClass)) (read : Bool) (crcFails : Nat) (latPs : Nat)
  /-- ISL_XING (R14). A crossing handshake that has not completed within 1,000 ns raises ISL_XING. -/
  | islXing (die : Fin 8) (toIsl : Fin 8)
  /-- ISL_MONITOR_JUDGE (R13). Over each 1 ms the island monitors judge voltage and temperature spread against their limits. -/
  | islMonitorJudge (die : Fin 8) (mv : List Nat) (temp : List Int) (neighbours : List (Fin 8 × Fin 8)) (xlat : Nat) (spread : Nat)
  /-- LANE_EXCHANGE (R66). At each 10 µs boundary a replica exchanges a two-way mark and steers its phase or rate. -/
  | laneExchange (lane : Fin 6) (marks : Option (Int × Int × Int × Int))
  /-- TLANE_FAULT (R21). A replica that misses two consecutive exchanges raises TLANE_FAULT. -/
  | tlaneFault (lane : Fin 6)
  /-- TIME_SNAPSHOT (R47). A read of TIME_SEC_LO takes the requester's snapshot of T96, PC64 and MONO. -/
  | timeSnapshot (r : Requester) (die : Fin 8) (wide : Bool)
  /-- TAI_SECOND (R49). At each TAI second boundary the timebase writes the anchor. -/
  | taiSecond
  /-- UTC_OFFSET_WRITE (R53). A software write of TBE.UTC_OFFSET sets the TAI−UTC offset, or is discarded when UTC_SRC = 1. -/
  | utcOffsetWrite (r : Requester) (v : Word)
  /-- LEAP_SCHED_WRITE (R54). A write of LEAP_SCHED_HI that sets VALID is checked, and then accepted or refused with LEAP_REJ. -/
  | leapSchedWrite (r : Requester) (v : Word)
  /-- LEAP_APPLIED (R55). At TAI_SEC the offset changes by one, VALID clears and a LEAP_APPLIED record is written. -/
  | leapApplied
  /-- SMEAR_START (R58). At W_s the timebase samples SMEAR.EN and starts the smear window. -/
  | smearStart
  /-- SMEAR_END (R58). At W_e, or at a change of the schedule, the smear ends. -/
  | smearEnd
  /-- STEP_REQUEST (R61). A write of TBE.STEP_CTRL.GO requests a software step, which is accepted and set pending, or refused. -/
  | stepRequest (r : Requester) (v : Word)
  /-- TIMESCALE_STEP (R62). At S the master counter and every replica apply the pending step and the anchor is rewritten. -/
  | timescaleStep
  /-- TBE_STEP_END (R64). Doubt TBE_STEP falls 2 s after a step larger than 1 µs. -/
  | tbeStepEnd
  /-- SERVO_UPDATE (R77). Every 62.5 ms the discipline engine absorbs samples, updates slots, votes, chooses a primary and steers. -/
  | servoUpdate (temp : Int) (heat : Nat) (osc : Option (Int × Nat))
  /-- PTP_SAMPLE_RX (R23). A PTP reference sample reaches the discipline engine, or is discarded when late. -/
  | ptpSampleRx (slot : Fin 2) (sample : PtpSample) (acc : Option Nat)
  /-- EXT_PPS_EDGE (R70). An EXT PPS edge is stamped and judged as a valid edge or ignored. -/
  | extPpsEdge (input : Fin 2) (at' : PC64) (falling : Bool)
  /-- EXT_FREQ_COUNT (R70). An EXT reciprocal frequency count completes and is judged against ±10 ppm. -/
  | extFreqCount (input : Fin 2) (ppt : Int)
  /-- SLOT_LOST (R69). A slot with no valid sample within its loss time becomes LOST. -/
  | slotLost (k : Fin 6)
  /-- SLOT_RELEASE (R75). A write of REF.SLOT_CMD.RELEASE admits a HELD slot at the next servo update. -/
  | slotRelease (r : Requester) (v : Word)
  /-- BIAS_CLR (R96). A write of REF.SLOT_CMD.BIAS_CLR clears a slot's bias. -/
  | biasClr (r : Requester) (v : Word)
  /-- HISTORY_STORE (R99). Every 60 s while LOCKED the engine stores the frequency part and the resonator temperature. -/
  | historyStore
  /-- MODEL_REFIT (R99). Each hour the holdover model is refitted, and HOLD_READY is set at 24 h. -/
  | modelRefit
  /-- OVN_SETTLED (R103). The platform has stayed within the band for SETTLE_CFG.TIME and SETTLED rises. -/
  | ovnSettled (temp : Int)
  /-- OVN_UNSETTLED (R103). The platform temperature leaves 4 × BAND and SETTLED falls. -/
  | ovnUnsettled (temp : Int)
  /-- OVN_RANGE (R104). The heater stays at a limit for 10 s and OVN_RANGE is raised. -/
  | ovnRange (atLimit : Bool)
  /-- OVN_FAULT (R104). The heater draws no current, or too much, and is switched off. -/
  | ovnFault
  /-- OSC_LOST (R108). OSC_PRESENT falls and an active OSC_IN is left for the resonator or the backup. -/
  | oscLost
  /-- OSC_RESTORED (R106). OSC_PRESENT rises. -/
  | oscRestored
  /-- MEAS_VALID (R106). After 100 s of comparison MEAS_VALID rises. -/
  | measValid (ppt : Int) (sig : Nat)
  /-- OVN_RETRY (R107). A write of OVN.CTRL.RETRY, or of FSRC, requests a switch to the preferred source. -/
  | ovnRetry (r : Requester) (v : Word)
  /-- SRC_SWITCH (R109). The synthesizer changes source and the discipline engine corrects the frequency part. -/
  | srcSwitch
  /-- BACKUP_ENTER (R111). The synthesizer moves onto the backup oscillator and FREF_NONE is raised. -/
  | backupEnter (stopped : Bool)
  /-- TUNE_STEP (R113). Every 60 s in CENTRE the OSC_TUNE code is stepped when the conditions hold. -/
  | tuneStep
  /-- GF_WARMUP_END (R120). The 2 ms warm-up of domain GF ends and samples flow. -/
  | gfWarmupEnd
  /-- PLL_UNLOCK (R120). The RF synthesizer loses lock, RF_PLL is raised and samples are withheld. -/
  | pllUnlock (taken : List Byte)
  /-- AGC_UPDATE (R121). Every 1 ms the AGC adjusts the front-end gain. -/
  | agcUpdate (outer : Fin 257) (clip : Fin 257) (ma : Nat) (mv : Nat)
  /-- AGC_RAIL (R121). The gain has stood at a rail for 100 ms and AGC_RAIL is raised. -/
  | agcRail
  /-- ANT_SHORT (R124). The bias current stays at or above 55 mA for 1 ms and the bias is turned off. -/
  | antShort
  /-- ANT_RETRY (R124). After ANT_CFG.RETRY seconds the bias ramps again. -/
  | antRetry
  /-- ANT_OK (R124). The bias has stayed on for 1 s without tripping and ANT_SHORT clears. -/
  | antOk
  /-- ANT_OPEN (R125). The bias current stays below OPEN_MA for 100 ms and ANT_OPEN is raised. -/
  | antOpen (ma : Nat)
  /-- ACQ_PUSH (R126). A write of ACQ.CTRL.PUSH queues a job, or is discarded when the queue is full. -/
  | acqPush (r : Requester) (v : Word)
  /-- ACQ_FLUSH (R133). A write of ACQ.CTRL.FLUSH empties the queue and abandons the running job. -/
  | acqFlush (r : Requester) (v : Word)
  /-- ACQ_JOB_START (R126). The bank starts the next queued or sweep job and begins its capture. -/
  | acqJobStart
  /-- ACQ_CAPTURE_DONE (R129). A job's capture of T × N ms completes. -/
  | acqCaptureDone
  /-- ACQ_PASS_DONE (R127). A correlation pass over the capture completes. -/
  | acqPassDone (stat : Nat) (dopp : Int) (code : Nat) (cn0 : Nat)
  /-- ACQ_RES_READ (R131). A read of ACQ.RES0 removes the oldest result and latches it. -/
  | acqResRead (r : Requester)
  /-- SCH_PULLIN_END (R137). PULLIN_MS passes and the channel enters LOCK, or returns to IDLE after the limit. -/
  | schPullinEnd (ch : Fin 64) (pliOk : Bool)
  /-- SCH_BIT_SYNC (R140). A channel takes bit sync or secondary-code sync and enters SYNC. -/
  | schBitSync (ch : Fin 64)
  /-- SCH_LOST (R139). PLI_OK or CN0_OK has been 0 for LOSS_MS and the channel goes to IDLE. -/
  | schLost (ch : Fin 64)
  /-- SCH_SLIP (R139). PLI recovers within LOSS_MS after a drop of 20 ms or more, and a slip is counted. -/
  | schSlip (ch : Fin 64)
  /-- CH_RELEASE (R136). A write of the channel CTRL.RELEASE sends the channel to IDLE. -/
  | chRelease (r : Requester) (ch : Fin 80) (v : Word)
  /-- TRK_PROMOTE_GO (R141). A write of TRK.PROMOTE.GO reserves the destination and sets the move pending. -/
  | trkPromoteGo (r : Requester) (v : Word)
  /-- TRK_MOVE (R141). At the source's boundary the channel state is copied, or the move is refused. -/
  | trkMove (pc : PC64) (car : Word) (code : Word)
  /-- TCH_BOUNDARY (R142). A timing channel reaches a dump boundary and applies any committed update. -/
  | tchBoundary (ch : Fin 16) (pc : PC64) (edge : Bool) (phase : Word)
  /-- TCH_DUMP (R142). A dump completes 2 µs after its boundary and is written to the ring. -/
  | tchDump (ch : Fin 16) (taps : List (Int × Int)) (noise : Int × Int)
  /-- TCH_DUMP_READ (R142). A read of word 0 of a dump slot sets its READ flag. -/
  | tchDumpRead (r : Requester) (ch : Fin 16) (slot : Fin 8)
  /-- TCH_COMMIT (R143). A write of TCH CTRL.COMMIT stages an NCO update for the next boundary. -/
  | tchCommit (r : Requester) (ch : Fin 16) (v : Word)
  /-- TCH_STALE (R143). No commit has come for STALE_MS intervals and STALE rises. -/
  | tchStale (ch : Fin 16)
  /-- SHAPE_CHECK (R146). Each second the correlation-shape monitor judges the tap shape. -/
  | shapeCheck (ch : Fin 16) (dev : Nat) (pair : Fin 5)
  /-- TRK_EPOCH (R147). At each TAI second boundary of the Radio's replica every channel is measured. -/
  | trkEpoch (meas : List Meas)
  /-- NAV_SUBFRAME (R149). An LNAV subframe of bits completes, and sync, polarity and parity are judged. -/
  | navSubframe (ch : Fin 80) (first : PC64) (inverted : Bool) (preamble : Bool) (words : List (Nat × Bool))
  /-- INAV_PAGE (R150). An I/NAV page part completes, and it is decoded and checked. -/
  | inavPage (ch : Fin 80) (first : PC64) (odd : Bool) (bits : List Nat) (crcOk : Bool) (tailOk : Bool) (corrected : Nat)
  /-- NAV_RD_IDX_WRITE (R151). A write of NAV.RD_IDX frees ring slots. -/
  | navRdIdxWrite (r : Requester) (v : Word)
  /-- SOL_SUBMIT (R152). A write of NAV.SOL_CMD.SUBMIT accepts or refuses a timing solution. -/
  | solSubmit (r : Requester) (v : Word)
  /-- POS_SIG_WRITE (R153). A write of NAV.POS_SIG puts the surveyed position in force or withdraws it. -/
  | posSigWrite (r : Requester) (v : Word)
  /-- INT_VIEW_RX (R155). The Radio receives the Timebase's view at a servo update. -/
  | intViewRx
  /-- VIEW_STALE (R155). The view has aged past 250 ms and every solution is withheld. -/
  | viewStale
  /-- INT_SECOND_CHECK (R159). Each second the AGC_JUMP and NOISE_JUMP checks run against their baselines. -/
  | intSecondCheck
  /-- EXCL_EXPIRE (R157). An exclusion ends EXCL_SEC after its last failed check. -/
  | exclExpire (sys : Fin 4) (prn : Nat)
  /-- EXCL_SET (R157). A write of INT.EXCL_CMD.SET excludes a signal. -/
  | exclSet (r : Requester) (v : Word)
  /-- EXCL_CLR (R157). A write of INT.EXCL_CMD.CLR ends a signal's exclusion. -/
  | exclClr (r : Requester) (v : Word)
  /-- FORCE_SUSPECT (R161). A write of INT.CTRL.FORCE_SUSPECT raises the FORCED cause. -/
  | forceSuspect (r : Requester) (v : Word)
  /-- INT_CLEAR (R163). A write of INT.CTRL.CLEAR ends FORCED and completes a manual clear. -/
  | intClear (r : Requester) (v : Word)
  /-- SUSPECT_CLEARED (R163). No cause has stood for CLEAR_SEC seconds and SUSPECT clears. -/
  | suspectCleared
  /-- SNP_ARM (R165). A write of SNP.CTRL.ARM arms a manual capture, or refuses it. -/
  | snpArm (r : Requester) (v : Word)
  /-- SNP_AUTO_ARM (R165). The SNP block arms a periodic capture by itself. -/
  | snpAutoArm
  /-- SNP_WINDOW_OPEN (R166). At target − 2.1 ms the capture window opens and GF turns on. -/
  | snpWindowOpen
  /-- SNP_CAPTURE_START (R166). The first sample at or after the target starts the capture. -/
  | snpCaptureStart (late : Nat)
  /-- SNP_CAPTURE_END (R166). After the last sample the capture ends and the window closes. -/
  | snpCaptureEnd (samples : List Byte)
  /-- SNP_CANCEL (R167). A write of SNP.CTRL.CANCEL disarms an armed capture or ends a running one as BAD. -/
  | snpCancel (r : Requester) (v : Word) (taken : List Byte)
  /-- SNP_HOLD (R167). A write of SNP.CTRL.HOLD sets HOLD on a slot. -/
  | snpHold (r : Requester) (v : Word)
  /-- SNP_RELEASE (R167). A write of SNP.CTRL.RELEASE clears HOLD on a slot. -/
  | snpRelease (r : Requester) (v : Word)
  /-- LINK_UP (R172). MAC.STAT.LINK rises on a port. -/
  | linkUp (d : Fin 4) (i : Fin 8)
  /-- LINK_DOWN (R172). LINK falls and every held frame of the port is discarded. -/
  | linkDown (d : Fin 4) (i : Fin 8) (block : Bool) (fec : Bool) (localFault : Bool)
  /-- SDS_PLL_UNLOCK (R173). A SerDes PLL loses lock and raises SDS_PLL. -/
  | sdsPllUnlock (d : Fin 4) (q : Fin 2) (h : Bool)
  /-- MM_TRANSACTION (R175). A write of SDS.MM_CMD.GO starts an I2C transaction to a module. -/
  | mmTransaction (r : Requester) (d : Fin 4) (q : Fin 2) (v : Word)
  /-- MM_DONE (R175). An I2C transaction ends, successfully or with NACK or timeout. -/
  | mmDone (d : Fin 4) (q : Fin 2) (how : Fin 3) (data : BitVec 64)
  /-- MOD_IN (R176). A module is inserted and PRES_N goes low. -/
  | modIn (d : Fin 4) (q : Fin 2)
  /-- MOD_OUT (R176). A module is removed and PRES_N goes high. -/
  | modOut (d : Fin 4) (q : Fin 2)
  /-- MOD_INT (R176). A module asserts its interrupt line. -/
  | modInt (d : Fin 4) (q : Fin 2) (low : Bool)
  /-- FRAME_RX (R201). A received frame is stamped, checked and classified. -/
  | frameRx (d : Fin 4) (i : Fin 8) (x : RxFrame)
  /-- PAUSE_END (R178). The pause time ends and transmission resumes. -/
  | pauseEnd (d : Fin 4) (i : Fin 8)
  /-- TSU_CAL_RUN (R182). A write of TSU.CAL_CTRL.RUN requests a calibration-ring measurement. -/
  | tsuCalRun (r : Requester) (d : Fin 4) (i : Fin 8)
  /-- TSU_CAL_DONE (R182). A serializer measurement completes and CAL_OK rises. -/
  | tsuCalDone (d : Fin 4) (i : Fin 8) (ser : Nat)
  /-- TSU_CAL (R182). LINK = 1 and CAL_OK = 0 have held together for 10 ms and TSU_CAL is raised. -/
  | tsuCal (d : Fin 4) (i : Fin 8)
  /-- BOOKING (R183). A booking request is granted at a launch instant, or refused. -/
  | booking (d : Fin 4) (i : Fin 8) (grid : Nat)
  /-- UNTIMED_SUBMIT (R186). An untimed frame is submitted for a port, or discarded when the port has no link. -/
  | untimedSubmit (d : Fin 4) (i : Fin 8) (frame : List Byte)
  /-- UNTIMED_LAUNCH (R186). An untimed frame starts in a gap between bookings. -/
  | untimedLaunch (d : Fin 4) (i : Fin 8)
  /-- STARVE (R186). An untimed frame has waited STARVE ns and asks for a booking. -/
  | starve (d : Fin 4) (i : Fin 8)
  /-- HOLD_ENQUEUE (R187). A booked frame enters the hold queue. -/
  | holdEnqueue (d : Fin 4) (i : Fin 8)
  /-- LCH_RELEASE (R187). At R the launch unit releases a held frame into the MAC, or drops it on a tile failure. -/
  | lchRelease (d : Fin 4) (i : Fin 8) (tileOk : Bool)
  /-- LATE (R188). A booked frame misses R − 50 ns, or cannot start at R, and its late policy applies. -/
  | late (d : Fin 4) (i : Fin 8) (grid : Nat)
  /-- TSU_DEPARTURE (R192). The TSU measures a booked frame's departure against L. -/
  | tsuDeparture (d : Fin 4) (i : Fin 8) (dev : Int)
  /-- LAUNCH_DEV_END (R192). HOLD_MS passes without a deviation and LAUNCH_DEV falls. -/
  | launchDevEnd (d : Fin 4) (i : Fin 8)
  /-- LCH_LATE (R191). The late frames of the last second are judged against LATE_LIMIT. -/
  | lchLate (d : Fin 4)
  /-- SW_FRAME_SUBMIT (R197). A software frame with its launch word is submitted to the launch unit. -/
  | swFrameSubmit (ring : Fin 16) (w0 : Word) (w1 : Word) (w2 : Word) (w3 : Word) (frame : List Byte)
  /-- ANS_TAB_READ (R200). TAB_CMD.GO with RW = 0 reads an address or VLAN entry into TAB_DATA. -/
  | ansTabRead (r : Requester) (d : Fin 4) (idx : Fin 128) (addr : Bool)
  /-- ANS_TAB_WRITE (R200). TAB_CMD.GO with RW = 1 starts writing an entry, or is refused. -/
  | ansTabWrite (r : Requester) (d : Fin 4) (idx : Fin 128) (addr : Bool)
  /-- ANS_TAB_DONE (R200). A table write completes and applies to frames classified after it. -/
  | ansTabDone (d : Fin 4)
  /-- ANS_LANE_TAKE (R209). A lane takes a request, charges its source, books and builds the answer. -/
  | ansLaneTake (d : Fin 4) (grid : Nat) (tileOk : Bool) (tblOk : Bool)
  /-- NTS_SIV_DONE (R236). The SIV engine finishes the cookie and authenticator work for an NTS answer. -/
  | ntsSivDone (d : Fin 4) (grid : Nat) (tileOk : Bool)
  /-- SERVICE_VIEW_RX (R211). A Port die receives the service view. -/
  | serviceViewRx (d : Fin 4)
  /-- ANS_VIEW (R211). The view becomes older than 250 ms, VIEW_STALE is set and ANS_VIEW is raised. -/
  | ansView (d : Fin 4)
  /-- SAFE_LINE_CHANGE (R212). The safe-state line changes and the engines reach the new form. -/
  | safeLineChange (d : Fin 4) (driven : Bool)
  /-- TBL_FLUSH (R226). A write of TBL.CTRL.FLUSH invalidates the rate table and draws a new secret. -/
  | tblFlush (r : Requester) (d : Fin 4)
  /-- FLUSH_DONE (R226). A flush of the rate table completes. -/
  | flushDone (d : Fin 4)
  /-- SCRUB (R225). The scrubber reads the next rate or session tile and checks it. -/
  | scrub (d : Fin 4) (ses : Bool) (ok : Bool)
  /-- TBL_TILE_END (R225). TBL_TILE or SES_TILE falls 1 s after it was raised. -/
  | tblTileEnd (d : Fin 4) (ses : Bool)
  /-- SECRET_RETRY (R227). A table without a secret asks again for one every 1 ms. -/
  | secretRetry (d : Fin 4)
  /-- PFX_READ (R220). TBL.PFX_CMD.GO with RW = 0 reads a prefix entry. -/
  | pfxRead (r : Requester) (d : Fin 4) (idx : Fin 8)
  /-- PFX_WRITE (R220). TBL.PFX_CMD.GO with RW = 1 writes a prefix entry. -/
  | pfxWrite (r : Requester) (d : Fin 4) (idx : Fin 8)
  /-- MINT (R231). A write of KEY.MINT_CMD.GO starts minting cookies, or is refused. -/
  | mint (r : Requester)
  /-- MINT_DONE (R231). A mint completes, its cookies are written and DONE is set. -/
  | mintDone
  /-- KEY_GEN (R240). The key island generates a master key on its period, or at once when none is active. -/
  | keyGen
  /-- ROTATE (R240). A write of KEY.CTRL.ROTATE generates a key, or is discarded. -/
  | rotate (r : Requester)
  /-- KEY_ACTIVATE (R241). At A a staged key becomes active and the oldest keys are erased. -/
  | keyActivate
  /-- PURGE (R242). A write of KEY.CTRL.PURGE erases every key and generates a new active key. -/
  | purge (r : Requester)
  /-- CROSSING_RX (R243). A Port die receives a Crossing transfer and stores or refuses it. -/
  | crossingRx (d : Fin 4) (ok : Bool)
  /-- CROSSING_RESEND (R243). The key island resends an unacknowledged Crossing transfer after 10 µs. -/
  | crossingResend (t : Fin 20)
  /-- KEY_DIST (R244). A die or link lacks the active key more than 1 s after A and KEY_DIST is raised. -/
  | keyDist
  /-- NTS_KEYS (R244). KEYS_READY has been 0 for 10 ms with PdE on and NTS_KEYS is raised. -/
  | ntsKeys (d : Fin 4)
  /-- KEY_UPSTREAM (R245). No key has arrived in time from the upstream link and KEY_UPSTREAM is raised. -/
  | keyUpstream
  /-- DRBG_FAIL (R246). An entropy health test fails and the DRBG stops. -/
  | drbgFail
  /-- DRBG_RECOVER (R246). After 1,024 good samples the DRBG restarts and postponed generation runs. -/
  | drbgRecover
  /-- INST_READ (R249). PTE.INST_CMD.GO with RW = 0 reads an instance entry. -/
  | instRead (r : Requester) (d : Fin 4) (n : Fin 32)
  /-- INST_WRITE (R249). PTE.INST_CMD.GO with RW = 1 stores an instance entry, or refuses it. -/
  | instWrite (r : Requester) (d : Fin 4) (n : Fin 32)
  /-- PTP_SYNC_DUE (R253). An instance's or session's Sync falls due and is booked. -/
  | ptpSyncDue (d : Fin 4) (n : Fin 32) (ses : Option (Fin 4096)) (grid : Nat)
  /-- PTP_ANNOUNCE_DUE (R253). An Announce falls due and is built and launched untimed. -/
  | ptpAnnounceDue (d : Fin 4) (n : Fin 32) (ses : Option (Fin 4096))
  /-- FOREIGN_TIMEOUT (R262). No better master has been heard for ANN_TIMEOUT intervals and a PASSIVE instance serves again. -/
  | foreignTimeout (d : Fin 4) (n : Fin 32)
  /-- PDELAY_REQ_DUE (R256). The initiator sends a Pdelay_Req every 2^LOG_DREQ s. -/
  | pdelayReqDue (d : Fin 4) (i : Fin 8) (grid : Nat)
  /-- PDELAY_LOST (R256). A Pdelay_Req draws no match within 1 s and counts as lost. -/
  | pdelayLost (d : Fin 4) (i : Fin 8)
  /-- SESSION_EXPIRE (R265). A granted type expires when MONO passes its expiry. -/
  | sessionExpire (d : Fin 4) (k : Fin 4096)
  /-- SES_READ (R264). TBL.SES_CMD.GO with RW = 0 reads a session entry. -/
  | sesRead (r : Requester) (d : Fin 4) (idx : Fin 4096)
  /-- SES_WRITE (R264). TBL.SES_CMD.GO with RW = 1 writes a session entry. -/
  | sesWrite (r : Requester) (d : Fin 4) (idx : Fin 4096)
  /-- RX_DELAY_REQ_DUE (R268). A reference port sends its next Delay_Req at a randomized interval. -/
  | rxDelayReqDue (d : Fin 4) (r : Fin 2) (grid : Nat)
  /-- RX_MASTER_LOSS (R267). The followed master's Announce stops for 3 intervals and a loss marker is sent. -/
  | rxMasterLoss (d : Fin 4) (r : Fin 2)
  /-- RX_UNI_RENEW (R268). A reference port renews a grant at half its duration, or repeats a denied request. -/
  | rxUniRenew (d : Fin 4) (r : Fin 2) (k : Fin 3) (mac : Nat)
  /-- SA_READ (R272). PTE.SA_CMD.GO with RW = 0 reads a security entry. -/
  | saRead (r : Requester) (d : Fin 4) (idx : Fin 16)
  /-- SA_WRITE (R272). PTE.SA_CMD.GO with RW = 1 writes a security entry. -/
  | saWrite (r : Requester) (d : Fin 4) (idx : Fin 16)
  /-- BR_ENABLE (R270). An enable of a bridge pair is accepted, or refused. -/
  | brEnable (r : Requester) (d : Fin 4) (n : Fin 4) (v : Word)
  /-- PTP_AUTH_END (R273). PTP_AUTH falls 1 s after the last dropped message. -/
  | ptpAuthEnd (d : Fin 4)
  /-- OUTPUT_START (R279). A periodic output or synthesizer starts at its start boundary. -/
  | outputStart (ch : Fin 14)
  /-- OUTPUT_EDGE (R276). An output or synthesizer places an edge on its grid. -/
  | outputEdge (ch : Fin 14)
  /-- OUTPUT_REALIGN (R281). At Q after a step the outputs move to the grid of the new scale. -/
  | outputRealign
  /-- TOD_MESSAGE (R284). A TOD transmitter starts its message OFFSET ms after the second. -/
  | todMessage (k : Fin 2)
  /-- CUE_PUSH (R285). A write of MCK.CUE_CMD.PUSH queues a cue entry, or refuses it. -/
  | cuePush (r : Requester)
  /-- CUE_CANCEL (R289). A write of CUE_CMD.CANCEL frees one entry, or refuses. -/
  | cueCancel (r : Requester) (h : BitVec 16)
  /-- CUE_FLUSH (R289). A write of CUE_CMD.FLUSH frees every unfired entry. -/
  | cueFlush (r : Requester)
  /-- CUE_FIRED (R286). An EDGE or MARK entry fires at its target. -/
  | cueFired
  /-- CUE_FRAME_DISPATCH (R287). At target − FRAME_LEAD a FRAME entry's buffer is sent to the Port dies. -/
  | cueFrameDispatch
  /-- CUE_FRAME_COMPLETE (R287). A port's completion of a cue frame is counted. -/
  | cueFrameComplete
  /-- CUE_FRAME_LOST (R287). A port with no completion by target + 10 µs counts as LOST. -/
  | cueFrameLost
  /-- FRM_BUF_WRITE (R288). A write to the frame buffer window loads a buffer, or is discarded while it is pending. -/
  | frmBufWrite (r : Requester) (k : Fin 384) (v : Word)
  /-- CAP_EDGE (R290). A capture input edge is stamped into its FIFO. -/
  | capEdge (n : Fin 8) (at' : PC64) (falling : Bool)
  /-- CAP_READ (R291). A read of MCK.CAP_E0 removes the oldest stamp and latches it. -/
  | capRead (r : Requester)
  /-- TOUT_FAULT (R292). A TOUT ball differs from its driven level for 1 µs. -/
  | toutFault (n : Fin 8)
  /-- TOUT_FAULT_CLEAR (R292). A TOUT fault bit clears after 1 ms of agreement. -/
  | toutFaultClear (n : Fin 8)
  /-- TDC_ARM (R298). A write of TDC.CTRL.ARM arms a measurement, or is refused. -/
  | tdcArm (r : Requester)
  /-- TDC_DISARM (R298). A write of TDC.CTRL.DISARM ends the armed window with no result. -/
  | tdcDisarm (r : Requester)
  /-- TDC_FLUSH (R308). A write of TDC.CTRL.FLUSH empties the result FIFO. -/
  | tdcFlush (r : Requester)
  /-- TDC_GATE_EDGE (R298). An edge on TDC_GATE arms or ends a measurement. -/
  | tdcGateEdge (high : Bool)
  /-- TDC_EDGE (R299). A channel edge is taken as start, stop, stamp or count edge. -/
  | tdcEdge (ch : Fin 10) (at' : PC64) (falling : Bool)
  /-- TDC_TIMEOUT (R301). A stop has no edge by s + TIMEOUT and gives a TIMEOUT result. -/
  | tdcTimeout
  /-- TDC_REARM (R298). The unit re-arms itself 20 ns after a completion. -/
  | tdcRearm
  /-- TDC_RES_READ (R308). A read of TDC.RES0 removes the oldest result and latches it. -/
  | tdcResRead (r : Requester)
  /-- HF_CFG_WRITE (R296). A write of TDC.HF_CFG restarts the prescalers. -/
  | hfCfgWrite (r : Requester) (v : Word)
  /-- TDC_CAL_OK (R309). Self-calibration completes and CAL_OK rises. -/
  | tdcCalOk
  /-- CAL_LOST (R309). A delay line leaves its correctable range and CAL_OK falls. -/
  | calLost
  /-- RING_GO (R311). A write of TDC.RING_CMD.GO requests a software ring measurement. -/
  | ringGo (r : Requester) (lane : Fin 64)
  /-- RING_DONE (R310). A calibration-ring measurement completes and is delivered to its requester. -/
  | ringDoneCmd (lane : Option (Fin 36)) (ps : Nat)
  /-- SET_LEN_WRITE (R316). A write of PKE.SET_LEN0/1 changes and zeroes free slot sets. -/
  | setLenWrite (r : Requester) (hi : Bool) (v : Word)
  /-- SLOT_CLAIM (R319). SLOT_CMD OP CLAIM takes free slots for the requester. -/
  | slotClaim (r : Requester) (first : Fin 4096) (count : Fin 256) (ctx : Fin 8)
  /-- SLOT_RELEASE_CMD (R319). SLOT_CMD OP RELEASE frees the requester's slots. -/
  | slotReleaseCmd (r : Requester) (first : Fin 4096) (count : Fin 256) (ctx : Fin 8)
  /-- SLOT_REVOKE (R320). SLOT_CMD OP REVOKE frees slots whoever owns them, aborting jobs that name them. -/
  | slotRevoke (r : Requester) (first : Fin 4096) (count : Fin 256)
  /-- SLOT_QUERY (R319). SLOT_CMD OP QUERY shows the owner of a slot. -/
  | slotQuery (r : Requester) (first : Fin 4096) (count : Fin 256)
  /-- SLOT_DONE (R319). A slot ownership change completes after zeroing. -/
  | slotDone (r : Requester)
  /-- JOB_GO (R321). A write of PKEL.JOB_CMD.GO starts copying a job block. -/
  | jobGo (r : Requester) (l : Fin 16) (ctx : Fin 8)
  /-- JOB_COPIED (R322). A job block is copied and accepted with a ticket, or refused. -/
  | jobCopied (r : Requester) (l : Fin 16)
  /-- PKE_CMD_DONE (R326). A lane completes one command of a job. -/
  | pkeCmdDone (l : Fin 16) (mid : Bool)
  /-- JOB_ABORT (R331). A write of JOB_CMD.ABORT aborts the named job. -/
  | jobAbort (r : Requester) (l : Fin 16) (ctx : Fin 8) (ticket : BitVec 8)
  /-- SELFTEST_DONE (R334). A lane's self-test ends and the lane becomes ready or fails. -/
  | selftestDone (l : Fin 16) (pass : Bool)
  /-- HART_INSTRUCTION (R337). A hart executes one instruction. -/
  | hartInstruction (h : Fin 6) (cycles : Nat) (readErr : Bool) (env : WriteFacts)
  /-- HART_RUN (R339). HART_CTRL.RUN starts a halted hart at its START address. -/
  | hartRun (r : Requester) (harts : BitVec 6)
  /-- HART_HALT (R339). HART_CTRL.HALT requests a hart to stop at its next instruction boundary. -/
  | hartHalt (r : Requester) (harts : BitVec 6)
  /-- HART_RESTART (R339). HART_CTRL.RESTART resets a hart's state and starts it at START. -/
  | hartRestart (r : Requester) (harts : BitVec 6)
  /-- HART_HALTED (R339). A requested halt completes. -/
  | hartHalted (h : Fin 6)
  /-- DOORBELL (R346). A write of CPU.DBh stores a message and sets DB_PEND[h]. -/
  | doorbell (r : Requester) (h : Fin 6) (msg : Word)
  /-- MTIMER (R344). MTIME reaches a hart's MTIMECMP and MTIP rises. -/
  | mtimer (h : Fin 6)
  /-- KICK (R348). A write of KICK restarts the writer's watchdog. -/
  | kick (h : Fin 6)
  /-- APP_WDT (R347). An application hart's watchdog expires and acts by its ACTION. -/
  | appWdt (h : Fin 4)
  /-- KEEPER_WDT (R348). A keeper hart's watchdog reaches stage 1. -/
  | keeperWdt (h : Fin 2)
  /-- KEEPER_WDT_GRACE (R348). GRACE_MS passes after stage 1 without a kick and a GUARD reset follows. -/
  | keeperWdtGrace (h : Fin 2)
  /-- PMC_COUNT (R353). A source island passes its accumulated event count to the PMC at a handshake. -/
  | pmcCount (die : Fin 8) (evt : Fin 4096) (cycles : List PmcCycle)
  /-- CNT_WRITE (R354). A write of PMC.CNTn replaces the counter's value. -/
  | cntWrite (r : Requester) (die : Fin 8) (n : Fin 32) (v : Word)
  /-- CLR_ALL (R354). A write of PMC.CTRL.CLR_ALL zeroes every counter and OVF. -/
  | clrAll (r : Requester) (die : Fin 8)
  /-- ARM_AT (R355). A write of PMC.CTRL.ARM_AT holds the enabled counters for START_AT. -/
  | armAt (r : Requester) (die : Fin 8)
  /-- PMC_START (R355). START_AT is reached and the armed counters start together. -/
  | pmcStart (die : Fin 8)
  /-- CNT_EVEN_READ (R357). A read of an even counter latches its chained neighbour for the requester. -/
  | cntEvenRead (r : Requester) (die : Fin 8) (n : Fin 16)
  /-- REC_STAGE (R368). A record is staged in its source's buffer, replacing or losing records when full. -/
  | recStage (die : Fin 8) (page : Fin 512) (code : Fin 4096) (sev : Fin 4) (a0 : Word) (a1 : Word) (cont : Option (Word × Word))
  /-- REC_WRITE (R369). The writer takes the next staged record and writes it to the store. -/
  | recWrite
  /-- REPEATED (R367). A coalescing run closes after COAL_WIN and a REPEATED record is staged. -/
  | repeated (src : Fin 14)
  /-- SW_RECORD (R365). A write of REC.SW_CMD.GO stages a software record, or refuses it. -/
  | swRecord (r : Requester) (code : BitVec 8) (sev : Fin 4)
  /-- REC_CLEAR (R370). A write of REC.CTRL.CLEAR starts erasing records up to CLR_SEV. -/
  | recClear (r : Requester) (sev : Fin 4)
  /-- REC_CLEARED (R370). A clear completes and a REC_CLEARED record is written. -/
  | recCleared
  /-- DOUBT_CHANGE (R377). A change of a doubt source reaches the SAF and is acted on by its policy. -/
  | doubtChange
  /-- DEGRADE_EXIT (R383). DEG_MS passes after the last DEGRADE source falls and DEGRADE ends. -/
  | degradeExit
  /-- SAF_DIE_LOST (R378). A die's doubt message has not arrived for 3 ms. -/
  | safDieLost (die : Fin 8)
  /-- READY (R381). SETTLE.SEC passes with no SAFE source and READY rises, ending safe state under AUTO. -/
  | ready
  /-- RELEASE (R381). A write of SAF.CTRL.RELEASE ends safe state, or is refused. -/
  | release (r : Requester)
  /-- FORCE (R379). A write of SAF.CTRL.FORCE raises SAF_FORCE. -/
  | force (r : Requester)
  /-- UNFORCE (R381). A write of SAF.CTRL.UNFORCE ends SAF_FORCE. -/
  | unforce (r : Requester)
  /-- SAF_POLICY_WRITE (R376). A write of SAF.POLICY takes effect at once for standing sources. -/
  | safPolicyWrite (r : Requester) (k : Fin 4) (v : Word)
  /-- SAF_AUTO_WRITE (R381). A write that sets SAF.CFG.AUTO while READY stands ends safe state. -/
  | safAutoWrite (r : Requester) (v : Word)
  /-- ESCALATE (R382). A SAFE source stands for ESC.SEC and a GUARD reset is taken. -/
  | escalate
  /-- AGE_TILE (R386). The tile failures of the last second are judged against TILE_LIMIT. -/
  | ageTile (d : Fin 4)
  /-- AGE_VOLT (R387). An island supply stands outside its range for 100 µs. -/
  | ageVolt (die : Fin 8) (isl : Fin 8) (mv : Nat)
  /-- AGE_TEMP (R387). An island temperature stands above TJ_LIMIT for 1 ms. -/
  | ageTemp (die : Fin 8) (isl : Fin 8) (temp : Int)
  /-- CANARY (R388). Every 1 ms the canary slack is measured and a failure steps its AVS rail. -/
  | canary (die : Fin 8) (slacks : List (Fin 8 × Nat × Nat))
  /-- MARGIN_REVIEW (R389). A margin review starts on its period, at the first commit, or at AGE.CTRL.REVIEW. -/
  | marginReview (r : Option Requester)
  /-- REVIEW_MEASURE (R390). After each 1 ms wait the review measures slack and plans the next AVS step. -/
  | reviewMeasure (isls : List IslMeas)
  /-- REVIEW_DONE (R394). The review ends, writes its record and clears BUSY. -/
  | reviewDone
  /-- LINK_TRAIN (R399). An Askair link advances one training state as its condition is met. -/
  | linkTrain (k : Fin 4)
  /-- HELLO_RX (R400). A HELLO is received and the link's version and features are agreed, or refused. -/
  | helloRx (k : Fin 4) (h : AskHello)
  /-- HELLO_RETRY (R399). A refused link offers HELLO again every 1 s. -/
  | helloRetry (k : Fin 4)
  /-- RETRAIN (R399). A write of ASK.CTRL.RETRAIN returns the link to DOWN. -/
  | retrain (r : Requester) (k : Fin 4)
  /-- MARK_TX (R403). The parent launches a MARK at each millisecond boundary. -/
  | markTx (k : Fin 4)
  /-- MARK_RX (R404). A child receives a MARK and forms an ASKU sample. -/
  | markRx (k : Fin 4) (crcOk : Bool) (seq : BitVec 16) (body : List Byte) (seen : BitVec 64) (ppt : Int)
  /-- ECHO_TX (R403). The child launches its ECHO at t3. -/
  | echoTx (k : Fin 4)
  /-- ECHO_RX (R403). The parent stamps an ECHO's arrival t4. -/
  | echoRx (k : Fin 4) (c : Fin 4) (crcOk : Bool) (body : List Byte) (seen : BitVec 64)
  /-- MARK_MISS (R405). An expected mark gives no sample and is counted missed. -/
  | markMiss (k : Fin 4)
  /-- STEP_RX (R407). A child receives a STEP frame and requests the same step. -/
  | stepRx (k : Fin 4) (crcOk : Bool) (body : List Byte)
  /-- PUB_GO (R408). A write of ASK.CTRL.PUB_GO sends OWN_PUB as AGREE. -/
  | pubGo (r : Requester) (k : Fin 4)
  /-- AGREE_RX (R408). The peer's public value arrives in PEER_PUB. -/
  | agreeRx (k : Fin 4) (c : Fin 4) (crcOk : Bool) (body : List Byte)
  /-- LK_GO (R408). A write of ASK.CTRL.LK_GO installs the link key in the key island. -/
  | lkGo (r : Requester) (k : Fin 4)
  /-- KEY_CHECK_RX (R408). The peer's KEY_CHECK arrives and is compared, setting KEYS or CHK_FAIL. -/
  | keyCheckRx (k : Fin 4) (c : Fin 4) (crcOk : Bool) (body : List Byte)
  /-- KEY_FRAME_RX (R409). A KEY frame arrives and is unwrapped and handled, or discarded. -/
  | keyFrameRx (k : Fin 4) (crcOk : Bool) (seq : BitVec 16) (body : List Byte)
  /-- MB_TX_GO (R411). A write of ASK.MB_TX_CMD.GO queues a mailbox message, or refuses it. -/
  | mbTxGo (r : Requester) (k : Fin 4) (len : Fin 512) (dest : Fin 4)
  /-- MB_RX (R411). A mailbox message arrives in the receive queue. -/
  | mbRx (k : Fin 4) (c : Fin 4) (crcOk : Bool) (msg : List Byte)
  /-- MB_POP (R411). A write of MB_RX_STAT.POP removes the shown message. -/
  | mbPop (r : Requester) (k : Fin 4)
  /-- PCIE_LINK_UP (R416). The PCIe link comes up. -/
  | pcieLinkUp (gen : Fin 5) (width : Fin 5) (bme : Bool) (msix : Bool) (fmask : Bool)
  /-- PCIE_LINK_DOWN (R416). The PCIe link is lost and every host ring stops with ERR 4. -/
  | pcieLinkDown
  /-- MSIX_SEND (R417). A vector's pending level rises and its message is sent or held in the PBA. -/
  | msixSend (v : Fin 64)
  /-- EOI (R418). A write of HIF.EOI resends a vector whose level is still 1. -/
  | eoi (r : Requester) (v : Fin 64)
  /-- HDB (R420). A hart's write of HIF.HDB stores its message for the host. -/
  | hdb (r : Requester) (msg : BitVec 24)
  /-- CON_DATA_WRITE (R435). A write of HIF.CON_DATA queues a byte for CON_TX. -/
  | conDataWrite (r : Requester) (b : Byte)
  /-- CON_DATA_READ (R435). A read of HIF.CON_DATA removes the oldest received byte. -/
  | conDataRead (r : Requester)
  /-- RING_ENABLE (R427). A write setting RINGn_CFG.EN enables a ring, or refuses its configuration. -/
  | ringEnable (r : Requester) (n : Fin 16) (v : Word)
  /-- RING_DISABLE (R427). Clearing RINGn_CFG.EN stops the taking of descriptors. -/
  | ringDisable (r : Requester) (n : Fin 16) (v : Word)
  /-- RING_TAIL_WRITE (R421). A write of RINGn_TAIL gives descriptors to the device. -/
  | ringTailWrite (r : Requester) (n : Fin 16) (tail : BitVec 12) (descs : List (Word × Word × Word × Word))
  /-- RING_DESC_DONE (R421). A descriptor's work completes and is written back. -/
  | ringDescDone (n : Fin 16) (ok : Bool)
  /-- RING_REPORT (R426). A ring reports after COUNT completions or USEC µs. -/
  | ringReport (n : Fin 16)
  /-- BOOT_ROM_START (R428). Hart 0 runs the boot ROM and tries the boot sources in order. -/
  | bootRomStart
  /-- IMAGE_CHECK (R430). A loaded image is checked and accepted or rejected with a code. -/
  | imageCheck (image : List Byte) (media : Bool)
  /-- NETBOOT_RETRY (R432). A DHCP or TFTP retry timer expires during network boot. -/
  | netbootRetry (tftp : Bool)
  /-- LOAD_GO (R433). A write of BOOT.CTRL.LOAD_GO starts a host load. -/
  | loadGo (r : Requester)
  /-- COMMIT_RB (R431). A write of BOOT.CTRL.COMMIT_RB raises the anti-rollback counter. -/
  | commitRb (r : Requester)
  /-- REVOKE (R431). A write of BOOT.CTRL.REVOKE blows a key slot's revoke fuse, or is refused. -/
  | revoke (r : Requester) (key : Fin 4)
  /-- BOOT_FAIL (R434). Every boot source has failed and the ROM waits. -/
  | bootFail
  /-- COLD_RESET (R438). PWRGOOD rises or falls and a COLD reset is taken. -/
  | coldReset (rise : Bool) (bootSel : Fin 4) (roleSel : Bool) (testEn : Bool)
  /-- PIN_RESET (R451). RESET_N is driven low and a PIN reset is taken. -/
  | pinReset (bootSel : Fin 4) (roleSel : Bool) (testEn : Bool) (low : Nat)
  /-- WARM_RESET (R452). A write of DIE.RST_CTRL.WARM takes a WARM reset. -/
  | warmReset (r : Requester)
  /-- ISLAND_RESET (R452). A write of DIE.RST_CTRL.ISLAND, or PERST_N, resets one island, or is refused. -/
  | islandReset (src : Option Requester) (die : Fin 8) (isl : Fin 16) (taken : List (BitVec 8))
  /-- RESET_RELEASE (R450). The internal reset is released after its delay. -/
  | resetRelease
  /-- DOM_REQ_WRITE (R441). A write of DIE.DOM_REQ turns switched domains off or starts turning them on. -/
  | domReqWrite (r : Requester) (v : Word)
  /-- DOMAIN_ON (R441). A switched domain finishes turning on and its pages return at cold values. -/
  | domainOn (dom : Fin 15)
  /-- PWR_REQUEST (R444). A write of DIE.PWR_CTRL.GO requests a power state, or is refused. -/
  | pwrRequest (r : Requester) (v : Word) (perst : Bool)
  /-- PWR_ENTER (R445). Entry to a power state completes and STATE changes. -/
  | pwrEnter
  /-- PWR_WAKE (R446). An enabled wake source stands and exit from the state begins. -/
  | pwrWake (perst : Bool) (con : Bool) (ask : Bool)
  /-- PWR_EXIT (R447). Exit from a power state completes. -/
  | pwrExit
  /-- AVS_WRITE (R439). The device writes a rail setpoint over AVSBus. -/
  | avsWrite
  /-- AVS_STATUS (R440). 10 µs after a write the rail status is read and the write retried or failed. -/
  | avsStatus (good : Bool)
  /-- TST_UNLOCK (R484). A write of TST.UNLOCK advances or completes the unlock sequence. -/
  | tstUnlock (r : Requester) (die : Fin 8) (v : Word)
  /-- RELOCK (R485). A write of TST.CTRL.RELOCK locks the page and stops every perturbation. -/
  | relock (r : Requester) (die : Fin 8)
  /-- DOUBT_INJ_WRITE (R488). A write of TST.DOUBT_INJ forces a DOUBT_RAW bit. -/
  | doubtInjWrite (r : Requester) (die : Fin 8) (v : Word)
  /-- TILE_INJ_ARM (R489). A write of TST.TILE_INJ.ARM arms tile-bit inversions. -/
  | tileInjArm (r : Requester) (d : Fin 4) (v : Word)
  /-- RST_WARM (R492). A write of TST.CTRL.RST_WARM requests a WARM reset with cause TEST. -/
  | rstWarm (r : Requester) (die : Fin 8)
  /-- RST_ISLAND (R492). A write of TST.CTRL.RST_ISLAND requests an ISLAND reset with cause TEST. -/
  | rstIsland (r : Requester) (page : Fin 8) (die : Fin 8) (isl : Fin 16) (taken : List (BitVec 8))
  /-- BACKPRESSURE_PERIOD (R487). At each PERIOD_US a back-pressured port is held occupied for BUSY_NS. -/
  | backpressurePeriod (d : Fin 4)
  /-- TAP_INSTRUCTION (R495). A TAP instruction takes effect and hands the balls to the boundary register or the core. -/
  | tapInstruction (code : Option (BitVec 8))
  /-- ASK_BLOCK_LOCK_LOST (R399). An Askair link loses Clause 49 block lock and returns to DOWN to train again. -/
  | askBlockLockLost (k : Fin 4)
  /-- REMOTE_FAULT (R172). A port receives remote fault, or stops receiving it, and REMOTE_FAULT and the port's timed-ready state change. -/
  | remoteFault (d : Fin 4) (i : Fin 8) (on : Bool)
  /-- SIGNAL_DETECT (R173). Signal detect rises on a SerDes lane and receive adaptation runs. -/
  | signalDetect (d : Fin 4) (i : Fin 8) (eye : Fin 256)
  /-- SDS_PLL_LOCK (R173). A SerDes quad PLL regains lock and doubt SDS_PLL falls. -/
  | sdsPllLock (d : Fin 4) (q : Fin 2) (h : Bool)
  /-- PLL_LOCK_RETURN (R120). The RF synthesizer regains lock, RF_PLL falls and samples flow again. -/
  | pllLockReturn
  /-- ANT_OPEN_CLEAR (R125). The antenna bias current holds at or above OPEN_MA for 100 ms and ANT_OPEN clears. -/
  | antOpenClear (ma : Nat)
  /-- SIV_CROSS_END (R243). Doubt SIV_CROSS falls 1 s after a refused Crossing transfer raised it. -/
  | sivCrossEnd (d : Fin 4)
  /-- AGE_LIMIT_CLEAR (R387). An island supply or temperature has stood within its limit for 1 s and AGE_VOLT or AGE_TEMP clears. -/
  | ageLimitClear (die : Fin 8) (volt : Bool)
  /-- CON_RX_BYTE (R435). A byte arrives on CON_RX and enters the console receive FIFO. -/
  | conRxByte (b : Byte)
  /-- MSIX_MASK_CLEAR (R417). The host clears a vector's Mask bit or the Function Mask and a pending vector's message is sent from the PBA. -/
  | msixMaskClear (v : Option (Fin 64))
  /-- FUSE_WRITE_DONE (R431). A COMMIT_RB or REVOKE fuse write completes within 2 ms, BOOT.CTRL.BUSY falls and its INT_RAW bit is set. -/
  | fuseWriteDone
  deriving DecidableEq, Repr

end Sys2Proof
end

