-- ==== Sys2Proof/WellFormed.lean ====
section
/-! DEFINITION. The commands whose operands have the form that the spec gives them. The type of a command fixes most
of it; what is left are addresses, and the lengths of what an event brings. -/

namespace Sys2Proof

/-- A register access lies in BAR0 and is aligned to its width (R6, R27). -/
def wordForm (adr : Nat) (size : AccSize) : Bool :=
  decide (adr < 0x10000000) &&
    match size with
    | .b8 => true
    | .b16 => adr % 2 == 0
    | .b32 => adr % 4 == 0
    | .b64 => adr % 8 == 0

/-- A command has the form of its row: an aligned address (R27), at most four failed CRCs (R17), eight islands (R13),
ten words of 30 bits (R149), a PRN below 64 (R157), instance numbers of eight bits (R353), and frames of their length (R398,
R411). -/
def Instr.wellFormed (i : Instr) : Bool :=
  match i with
  | .regWrite _ adr size _ _ => wordForm adr size
  | .unmappedAccess _ _ _ _ => true
  | .poweredOffAccess _ _ _ _ => true
  | .pageEnable _ _ _ => true
  | .pageDisable _ _ _ => true
  | .softReset _ _ _ => true
  | .softResetDone _ _ => true
  | .pageLock _ _ _ => true
  | .intForce _ _ _ _ => true
  | .featCommit _ => true
  | .featCommitDone => true
  | .doubtMessage _ => true
  | .doubtMessageResend _ => true
  | .blvTransfer _ _ _ crcFails _ => decide (crcFails ≤ 4)
  | .islXing _ _ => true
  | .islMonitorJudge _ mv temp _ _ _ => decide (mv.length = 8) && decide (temp.length = 8)
  | .laneExchange _ _ => true
  | .tlaneFault _ => true
  | .timeSnapshot _ _ _ => true
  | .taiSecond => true
  | .utcOffsetWrite _ _ => true
  | .leapSchedWrite _ _ => true
  | .leapApplied => true
  | .smearStart => true
  | .smearEnd => true
  | .stepRequest _ _ => true
  | .timescaleStep => true
  | .tbeStepEnd => true
  | .servoUpdate _ _ _ => true
  | .ptpSampleRx _ _ _ => true
  | .extPpsEdge _ _ _ => true
  | .extFreqCount _ _ => true
  | .slotLost _ => true
  | .slotRelease _ _ => true
  | .biasClr _ _ => true
  | .historyStore => true
  | .modelRefit => true
  | .ovnSettled _ => true
  | .ovnUnsettled _ => true
  | .ovnRange _ => true
  | .ovnFault => true
  | .oscLost => true
  | .oscRestored => true
  | .measValid _ _ => true
  | .ovnRetry _ _ => true
  | .srcSwitch => true
  | .backupEnter _ => true
  | .tuneStep => true
  | .gfWarmupEnd => true
  | .pllUnlock _ => true
  | .agcUpdate _ _ _ _ => true
  | .agcRail => true
  | .antShort => true
  | .antRetry => true
  | .antOk => true
  | .antOpen _ => true
  | .acqPush _ _ => true
  | .acqFlush _ _ => true
  | .acqJobStart => true
  | .acqCaptureDone => true
  | .acqPassDone _ _ _ _ => true
  | .acqResRead _ => true
  | .schPullinEnd _ _ => true
  | .schBitSync _ => true
  | .schLost _ => true
  | .schSlip _ => true
  | .chRelease _ _ _ => true
  | .trkPromoteGo _ _ => true
  | .trkMove _ _ _ => true
  | .tchBoundary _ _ _ _ => true
  | .tchDump _ _ _ => true
  | .tchDumpRead _ _ _ => true
  | .tchCommit _ _ _ => true
  | .tchStale _ => true
  | .shapeCheck _ _ _ => true
  | .trkEpoch _ => true
  | .navSubframe _ _ _ _ words => decide (words.length = 10) && words.all fun w => decide (w.1 < 0x40000000)
  | .inavPage _ _ _ _ _ _ _ => true
  | .navRdIdxWrite _ _ => true
  | .solSubmit _ _ => true
  | .posSigWrite _ _ => true
  | .intViewRx => true
  | .viewStale => true
  | .intSecondCheck => true
  | .exclExpire _ prn => decide (prn < 64)
  | .exclSet _ _ => true
  | .exclClr _ _ => true
  | .forceSuspect _ _ => true
  | .intClear _ _ => true
  | .suspectCleared => true
  | .snpArm _ _ => true
  | .snpAutoArm => true
  | .snpWindowOpen => true
  | .snpCaptureStart _ => true
  | .snpCaptureEnd _ => true
  | .snpCancel _ _ _ => true
  | .snpHold _ _ => true
  | .snpRelease _ _ => true
  | .linkUp _ _ => true
  | .linkDown _ _ _ _ _ => true
  | .sdsPllUnlock _ _ _ => true
  | .mmTransaction _ _ _ _ => true
  | .mmDone _ _ _ _ => true
  | .modIn _ _ => true
  | .modOut _ _ => true
  | .modInt _ _ _ => true
  | .frameRx _ _ _ => true
  | .pauseEnd _ _ => true
  | .tsuCalRun _ _ _ => true
  | .tsuCalDone _ _ _ => true
  | .tsuCal _ _ => true
  | .booking _ _ _ => true
  | .untimedSubmit _ _ _ => true
  | .untimedLaunch _ _ => true
  | .starve _ _ => true
  | .holdEnqueue _ _ => true
  | .lchRelease _ _ _ => true
  | .late _ _ _ => true
  | .tsuDeparture _ _ _ => true
  | .launchDevEnd _ _ => true
  | .lchLate _ => true
  | .swFrameSubmit _ _ _ _ _ _ => true
  | .ansTabRead _ _ _ _ => true
  | .ansTabWrite _ _ _ _ => true
  | .ansTabDone _ => true
  | .ansLaneTake _ _ _ _ => true
  | .ntsSivDone _ _ _ => true
  | .serviceViewRx _ => true
  | .ansView _ => true
  | .safeLineChange _ _ => true
  | .tblFlush _ _ => true
  | .flushDone _ => true
  | .scrub _ _ _ => true
  | .tblTileEnd _ _ => true
  | .secretRetry _ => true
  | .pfxRead _ _ _ => true
  | .pfxWrite _ _ _ => true
  | .mint _ => true
  | .mintDone => true
  | .keyGen => true
  | .rotate _ => true
  | .keyActivate => true
  | .purge _ => true
  | .crossingRx _ _ => true
  | .crossingResend _ => true
  | .keyDist => true
  | .ntsKeys _ => true
  | .keyUpstream => true
  | .drbgFail => true
  | .drbgRecover => true
  | .instRead _ _ _ => true
  | .instWrite _ _ _ => true
  | .ptpSyncDue _ _ _ _ => true
  | .ptpAnnounceDue _ _ _ => true
  | .foreignTimeout _ _ => true
  | .pdelayReqDue _ _ _ => true
  | .pdelayLost _ _ => true
  | .sessionExpire _ _ => true
  | .sesRead _ _ _ => true
  | .sesWrite _ _ _ => true
  | .rxDelayReqDue _ _ _ => true
  | .rxMasterLoss _ _ => true
  | .rxUniRenew _ _ _ _ => true
  | .saRead _ _ _ => true
  | .saWrite _ _ _ => true
  | .brEnable _ _ _ _ => true
  | .ptpAuthEnd _ => true
  | .outputStart _ => true
  | .outputEdge _ => true
  | .outputRealign => true
  | .todMessage _ => true
  | .cuePush _ => true
  | .cueCancel _ _ => true
  | .cueFlush _ => true
  | .cueFired => true
  | .cueFrameDispatch => true
  | .cueFrameComplete => true
  | .cueFrameLost => true
  | .frmBufWrite _ _ _ => true
  | .capEdge _ _ _ => true
  | .capRead _ => true
  | .toutFault _ => true
  | .toutFaultClear _ => true
  | .tdcArm _ => true
  | .tdcDisarm _ => true
  | .tdcFlush _ => true
  | .tdcGateEdge _ => true
  | .tdcEdge _ _ _ => true
  | .tdcTimeout => true
  | .tdcRearm => true
  | .tdcResRead _ => true
  | .hfCfgWrite _ _ => true
  | .tdcCalOk => true
  | .calLost => true
  | .ringGo _ _ => true
  | .ringDoneCmd _ _ => true
  | .setLenWrite _ _ _ => true
  | .slotClaim _ _ _ _ => true
  | .slotReleaseCmd _ _ _ _ => true
  | .slotRevoke _ _ _ => true
  | .slotQuery _ _ _ => true
  | .slotDone _ => true
  | .jobGo _ _ _ => true
  | .jobCopied _ _ => true
  | .pkeCmdDone _ _ => true
  | .jobAbort _ _ _ _ => true
  | .selftestDone _ _ => true
  | .hartInstruction _ _ _ _ => true
  | .hartRun _ _ => true
  | .hartHalt _ _ => true
  | .hartRestart _ _ => true
  | .hartHalted _ => true
  | .doorbell _ _ _ => true
  | .mtimer _ => true
  | .kick _ => true
  | .appWdt _ => true
  | .keeperWdt _ => true
  | .keeperWdtGrace _ => true
  | .pmcCount _ _ cycles => cycles.all fun c => c.insts.all fun x => decide (x.1 < 256)
  | .cntWrite _ _ _ _ => true
  | .clrAll _ _ => true
  | .armAt _ _ => true
  | .pmcStart _ => true
  | .cntEvenRead _ _ _ => true
  | .recStage _ _ _ _ _ _ _ => true
  | .recWrite => true
  | .repeated _ => true
  | .swRecord _ _ _ => true
  | .recClear _ _ => true
  | .recCleared => true
  | .doubtChange => true
  | .degradeExit => true
  | .safDieLost _ => true
  | .ready => true
  | .release _ => true
  | .force _ => true
  | .unforce _ => true
  | .safPolicyWrite _ _ _ => true
  | .safAutoWrite _ _ => true
  | .escalate => true
  | .ageTile _ => true
  | .ageVolt _ _ _ => true
  | .ageTemp _ _ _ => true
  | .canary _ slacks => decide (slacks.length ≤ 8)
  | .marginReview _ => true
  | .reviewMeasure _ => true
  | .reviewDone => true
  | .linkTrain _ => true
  | .helloRx _ _ => true
  | .helloRetry _ => true
  | .retrain _ _ => true
  | .markTx _ => true
  | .markRx _ _ _ _ _ _ => true
  | .echoTx _ => true
  | .echoRx _ _ _ _ _ => true
  | .markMiss _ => true
  | .stepRx _ _ body => decide (body.length = 20)
  | .pubGo _ _ => true
  | .agreeRx _ _ _ body => decide (body.length = 32)
  | .lkGo _ _ => true
  | .keyCheckRx _ _ _ body => decide (body.length = 16)
  | .keyFrameRx _ _ _ _ => true
  | .mbTxGo _ _ _ _ => true
  | .mbRx _ _ _ msg => decide (msg.length ≤ 256)
  | .mbPop _ _ => true
  | .pcieLinkUp _ _ _ _ _ => true
  | .pcieLinkDown => true
  | .msixSend _ => true
  | .eoi _ _ => true
  | .hdb _ _ => true
  | .conDataWrite _ _ => true
  | .conDataRead _ => true
  | .ringEnable _ _ _ => true
  | .ringDisable _ _ _ => true
  | .ringTailWrite _ _ _ _ => true
  | .ringDescDone _ _ => true
  | .ringReport _ => true
  | .bootRomStart => true
  | .imageCheck _ _ => true
  | .netbootRetry _ => true
  | .loadGo _ => true
  | .commitRb _ => true
  | .revoke _ _ => true
  | .bootFail => true
  | .coldReset _ _ _ _ => true
  | .pinReset _ _ _ _ => true
  | .warmReset _ => true
  | .islandReset _ _ _ _ => true
  | .resetRelease => true
  | .domReqWrite _ _ => true
  | .domainOn _ => true
  | .pwrRequest _ _ _ => true
  | .pwrEnter => true
  | .pwrWake _ _ _ => true
  | .pwrExit => true
  | .avsWrite => true
  | .avsStatus _ => true
  | .tstUnlock _ _ _ => true
  | .relock _ _ => true
  | .doubtInjWrite _ _ _ => true
  | .tileInjArm _ _ _ => true
  | .rstWarm _ _ => true
  | .rstIsland _ _ _ _ _ => true
  | .backpressurePeriod _ => true
  | .tapInstruction _ => true
  | .askBlockLockLost _ => true
  | .remoteFault _ _ _ => true
  | .signalDetect _ _ _ => true
  | .sdsPllLock _ _ _ => true
  | .pllLockReturn => true
  | .antOpenClear _ => true
  | .sivCrossEnd _ => true
  | .ageLimitClear _ _ => true
  | .conRxByte _ => true
  | .msixMaskClear _ => true
  | .fuseWriteDone => true

end Sys2Proof
end

