-- ==== Sys2Proof/Decode.lean ====
section
/-! DEFINITION. Commands by their word. No row of spec/opcode_table.json gives its command any bits: a command reaches
the block as a register write, a frame or an event, and no word spells one. -/

namespace Sys2Proof

/-- The command that a word spells by the table's bits: none, since the table gives no row a bit. -/
def decodeTableWord (_nbits _w : Nat) : Option Instr := none

end Sys2Proof
end

