-- ==== Sys2Proof/Config.lean ====
section
/-! DEFINITION. What one part fixes and what the spec leaves open, as constants without a body: no proof
can see their values, so a statement that holds, holds whatever they are. -/

namespace Sys2Proof.Config

/-- A word of the part's OTP: `otp n` is the value a register whose cold value is "OTP" takes.
The spec gives no value (log entry 2). -/
opaque otp : Nat → Nat

/-- PAGE_FEAT of a page of a given block type: the spec says that each bit is given by the block's
chapter and no chapter gives one (log entry 2). -/
opaque pageFeat : Nat → BitVec 32

/-- A fresh value the spec leaves open: `free k n` is the `n`-th such value drawn, in the role `k`
(log entry 3). -/
opaque free : Nat → Nat → Nat

/-- The set of a rate key under a secret: `rateHash secret v6 key`. The spec does not disclose the function
(R219). -/
opaque rateHash : Nat → Bool → Nat → Nat

/-- The set of a session key under a secret: `sesHash secret port slot l2 address` (R264, under the terms of
R219). -/
opaque sesHash : Nat → Nat → Nat → Bool → Nat → Nat

/-- What a modular command returns for a modulus that is even, 0 or 1: `pkeOther op length m a b`, determined
by its inputs alone and not otherwise specified (R330). -/
opaque pkeOther : Nat → Nat → Nat → Nat → Nat → Nat

/-- The factory serializer delay of a port in ps, adjusted by its OTP temperature coefficient to a temperature in
°C: `serDelay port temp` (R391). Both are constants of the part. -/
opaque serDelay : Nat → Int → Int

/-- The constants K_TX and K_RX of a port in units of 2⁻¹⁶: `trimK port rx` (R391). -/
opaque trimK : Nat → Bool → Int

/-- A byte of the boot ROM (Table 16-3). -/
opaque bootRom : Nat → BitVec 8

end Sys2Proof.Config
end

