-- ==== Sys2Proof/Machine/Sparse.lean ====
section
/-! DEFINITION. Sparse storage as plain data: a list of key and value pairs with strictly rising keys,
so that equal contents are equal lists; and the small list operations every block shares. -/

namespace Sys2Proof.Machine

/-- The value stored at a key, none where the list has no entry. -/
def amGet? {α : Type} (k : Nat) : List (Nat × α) → Option α
  | [] => none
  | (j, v) :: t => if k = j then some v else amGet? k t

/-- Store a value at a key, keeping the keys strictly rising. -/
def amSet {α : Type} (k : Nat) (v : α) : List (Nat × α) → List (Nat × α)
  | [] => [(k, v)]
  | (j, w) :: t =>
    if k < j then (k, v) :: (j, w) :: t
    else if k = j then (k, v) :: t
    else (j, w) :: amSet k v t

/-- Remove the entry of a key. -/
def amErase {α : Type} (k : Nat) : List (Nat × α) → List (Nat × α)
  | [] => []
  | (j, w) :: t => if k = j then amErase k t else (j, w) :: amErase k t

/-- Store a byte in a list of cells; a byte 0, which an unlisted address reads as, is not listed. -/
def cellSet (a : Nat) (b : BitVec 8) (m : List (Nat × BitVec 8)) : List (Nat × BitVec 8) :=
  if b = 0 then amErase a m else amSet a b m

/-- Every key of the list is above `lo`, and the keys rise strictly. -/
def amAbove {α : Type} (lo : Nat) : List (Nat × α) → Bool
  | [] => true
  | (j, _) :: t => decide (lo < j) && amAbove j t

/-- The keys rise strictly: the canonical form of sparse storage. -/
def amWf {α : Type} : List (Nat × α) → Bool
  | [] => true
  | (j, _) :: t => amAbove j t

/-- Change the element at an index; an index past the end changes nothing. -/
def upd {α : Type} (l : List α) (i : Nat) (f : α → α) : List α :=
  l.modify i f

/-- The element at an index, or a default past the end. -/
def ix {α : Type} (l : List α) (i : Nat) (d : α) : α := l.getD i d

/-- `ofBool b` is the bit a flag stands for. -/
def ofBool (b : Bool) : Nat := if b then 1 else 0

/-- A field of `w` bits read as a two's complement number. -/
def signed (w n : Nat) : Int := if n < 2 ^ (w - 1) then n else (n : Int) - 2 ^ w

/-- An integer as the `w`-bit two's complement pattern that stands for it modulo `2 ^ w`. -/
def unsign (w : Nat) (i : Int) : Nat := (i % (2 ^ w : Int)).toNat

/-- An integer limited to the range of a `w`-bit two's complement field. -/
def satS (w : Nat) (i : Int) : Int :=
  if i < -(2 ^ (w - 1) : Int) then -(2 ^ (w - 1) : Int)
  else if i > 2 ^ (w - 1) - 1 then 2 ^ (w - 1) - 1 else i

/-- A natural number limited to a `w`-bit field. -/
def satU (w : Nat) (n : Nat) : Nat := min n (2 ^ w - 1)

/-- Bit `i` of a number. -/
def bitOf (n i : Nat) : Bool := n.testBit i

/-- A number with bit `i` set to `b`. -/
def setBit (n i : Nat) (b : Bool) : Nat :=
  if b then n ||| (1 <<< i) else n ^^^ (n &&& (1 <<< i))

/-- A value that the registers code as 0 and the rules treat as `d` ("0 is treated as d"). -/
def orD (n d : Nat) : Nat := if n = 0 then d else n

/-- Integer division rounded to nearest, ties up. -/
def divRound (a b : Int) : Int := (2 * a + b) / (2 * b)

/-- The little-endian bytes of a number. -/
def bytesLE : Nat → Nat → List Byte
  | 0, _ => []
  | k + 1, n => BitVec.ofNat 8 n :: bytesLE k (n / 256)

/-- The big-endian bytes of a number. -/
def bytesBE (k n : Nat) : List Byte := (bytesLE k n).reverse

/-- The number that little-endian bytes spell. -/
def natLE : List Byte → Nat
  | [] => 0
  | b :: t => b.toNat + 256 * natLE t

/-- The number that big-endian bytes spell. -/
def natBE (l : List Byte) : Nat := natLE l.reverse

/-- `k` bytes of a list from an offset, short where the list ends. -/
def slice (l : List Byte) (off k : Nat) : List Byte := (l.drop off).take k

/-- Overwrite bytes of a list from an offset; bytes past its end are dropped. -/
def patch (l : List Byte) (off : Nat) (b : List Byte) : List Byte :=
  l.take off ++ (b.take (l.length - off)) ++ l.drop (off + b.length)

end Sys2Proof.Machine
end

