-- ==== Sys2Proof/Machine/HubBlocks.lean ====
section
/-! DEFINITION. What the Askair links, the time-interval unit, the public-key engine, the harts, the host
interface and the power controller hold beyond their registers, as plain data. -/

namespace Sys2Proof.Machine

/-! ### Askair links (spec/20) -/

/-- One end across a link: the child of a slot, or slot 0 of a point-to-point link (R397–R409): whether it is
UP, its clock identity and depth, the state it last showed (flags, servo state, UNC), the public values
of the agreement, the link key, whether KEYS stands, the SEQ of the next KEY frame each way, the IDs of
the keys it has taken, the KEY frame that can be sent again with its resends, the T4 and SEQ of the mark it
answered last, and a KEY_CHECK that came before this end had its link key. -/
structure AskPeer where
  up : Bool
  id : Nat
  depth : Nat
  flags : Nat
  servo : Nat
  unc : Nat
  own : List Byte
  pub : List Byte
  pend : Bool
  key : Option (List Byte)
  keys : Bool
  failed : Bool
  keyTx : Nat
  keyRx : Nat
  has : List Nat
  again : Option (Nat × Nat × List Byte)
  t4 : Option (Nat × Nat)
  check : Option (List Byte)
  deriving DecidableEq, Repr

/-- A mark as its child holds it until its T4 arrives: its SEQ, t1 in 2⁻¹⁶ ns of T96, t2 and t3 as P, and
its scale generation. -/
structure MarkSeen where
  seq : Nat
  t1 : Nat
  t2 : Nat
  t3 : Nat
  gen : Nat
  deriving DecidableEq, Repr

/-- A frame a link sends: TYPE, DEST, SRC, SEQ and payload (R402). -/
structure AskFrame where
  type : Nat
  dest : Nat
  src : Nat
  seq : Nat
  body : List Byte
  deriving DecidableEq, Repr

/-- An Askair link: its peers by slot, whether it has been UP since its configuration was last written, the
SEQ of the next frame of each type, the latest mark sent (t1 in 2⁻¹⁶ ns of T96 and SEQ) or, at a child, the
ECHO that waits (its t3 and SEQ), the marks a child holds, the consecutive missed marks, the mailbox
queues (slot and message), the frames it sent last, whether the peer's HELLO has been accepted and the
link is shared, the serializer delay the ring measured in CAL, and the MONO of a refusal. -/
structure AskLink where
  peers : List AskPeer
  beenUp : Bool
  seqs : List (Nat × Nat)
  markAt : Option (Nat × Nat)
  seen : List MarkSeen
  missed : Nat
  txq : List (Nat × List Byte)
  rxq : List (Nat × List Byte)
  sent : List AskFrame
  accepted : Bool
  shared : Bool
  ser : Option Nat
  refused : Option Nat
  deriving DecidableEq, Repr

/-! ### The time-interval unit (spec/14) -/

/-- The settings a measurement runs under (R307): CFG, STOP_MASK, EDGE, HF_CFG, TIMEOUT, FREQ_GATE and the
channel offsets. -/
structure TdcSet where
  cfg : Nat
  stop : Nat
  edge : Nat
  hf : Nat
  timeout : Nat
  gate : Nat
  ofs : List Nat
  deriving DecidableEq, Repr

/-- A stop channel of a measurement (R299, R300): its taken edge, the edges held until the start arrives,
ORDER and TIMEOUT. -/
structure TdcStop where
  ch : Nat
  e : Option PC64
  held : List PC64
  order : Bool
  late : Bool
  deriving DecidableEq, Repr

/-- A measurement that takes edges: the stamp of its start or edge 0, its stops, and for FREQUENCY the edges
counted and the last one. -/
structure TdcRun where
  start : Option PC64
  stops : List TdcStop
  n : Nat
  last : PC64
  deriving DecidableEq, Repr

/-- The mean of a stop channel as it gathers (R302): its count, sum, COINCIDENT and ORDER. -/
structure TdcMean where
  ch : Nat
  n : Nat
  sum : Int
  coinc : Bool
  order : Bool
  deriving DecidableEq, Repr

/-- The time-interval unit: the settings in force, the measurement that takes edges, the P of the arming, a
re-arming that waits since a PC64, the level of TDC_GATE, each channel's last taken edge, the prescaler
counts, the measurement count, the result FIFO, a result lost since the last stored, and the average that
gathers: measurements done, means and the last start. -/
structure Tdc where
  set : TdcSet
  run : Option TdcRun
  armedAt : Nat
  rearm : Option Nat
  gateHigh : Bool
  last : List (Option PC64)
  pre : List Nat
  seq : Nat
  fifo : List (List Nat)
  lost : Bool
  done : Nat
  means : List TdcMean
  lastStart : PC64
  deriving DecidableEq, Repr

/-! ### The public-key engine (spec/15) -/

/-- A job a lane has accepted (R322–R333): its ticket, owner code, the address of its block (a core-view
address, or an offset in the mailbox for a host context), its commands and I/O words, the I/O words
that completed STOREs have written, the two modulus contexts with their lengths, the commands and cycles
completed, its cycle count, its suspensions, and the sources its present command has read. -/
structure PkeJob where
  ticket : Nat
  owner : Nat
  addr : Nat
  cmds : List Nat
  io : List Nat
  stored : List Nat
  mods : List (Option (Nat × Nat))
  done : Nat
  cycles : Nat
  total : Nat
  yields : Nat
  a : Nat
  b : Nat
  deriving DecidableEq, Repr

/-- A lane: its running, suspended and queued jobs, its next ticket, the copies in progress by requester
(requester, address, owner), and whether its self-test runs. -/
structure PkeLane where
  run : Option PkeJob
  susp : Option PkeJob
  queue : List PkeJob
  next : Nat
  copies : List (Nat × Nat × Nat)
  test : Bool
  deriving DecidableEq, Repr

/-- A slot operation in progress (R319): its requester, OP, first slot, count, the owner it gives and the
owner that FIRST had. -/
structure SlotOp where
  q : Nat
  op : Nat
  first : Nat
  count : Nat
  owner : Nat
  old : Nat
  deriving DecidableEq, Repr

/-- The public-key engine: owners and values of slots that are not free and not 0, slot operations in
progress, lanes, and the PKE mailbox of BAR2 by byte. -/
structure Pke where
  owners : List (Nat × Nat)
  vals : List (Nat × Nat)
  ops : List SlotOp
  lanes : List PkeLane
  mail : List (Nat × BitVec 8)
  deriving DecidableEq, Repr

/-! ### The harts (spec/16) -/

/-- A hart (R337–R348): whether it runs, its program counter, integer registers x1 to x31, whether it is in machine mode, the
CSRs of Table 16-2 and of the machine mode of the privileged specification (log entry 18), its
reservation (address and bytes), whether a halt is requested, MTIMECMP and MSIP of the core-local
block, and its watchdog: the MONO from which it counts, the MONO of its expiry (stage 1 of a keeper) and
whether it holds WDOG_APP. -/
structure Hart where
  run : Bool
  pc : BitVec 64
  xs : Vector (BitVec 64) 31
  machine : Bool
  mstatus : BitVec 64
  mie : BitVec 64
  mtvec : BitVec 64
  mscratch : BitVec 64
  mepc : BitVec 64
  mcause : BitVec 64
  mtval : BitVec 64
  mcounteren : BitVec 64
  mcycle : BitVec 64
  minstret : BitVec 64
  pmpcfg : List (BitVec 8)
  pmpaddr : List (BitVec 64)
  resv : Option (Nat × Nat)
  halting : Bool
  cmp : BitVec 64
  msip : Bool
  kicked : Nat
  expired : Option Nat
  warned : Bool
  deriving DecidableEq, Repr

/-! ### The host interface and the boot ROM (spec/21) -/

/-- The endpoint and the console: the vectors' levels as last judged, the PBA, the Mask bits and the Function
Mask (R417), the vectors whose messages the last command sent, the console FIFOs with the MONO at which
the oldest byte began to leave (R435), and what the last command wrote to host memory. -/
structure Hif where
  level : Nat
  pba : Nat
  masked : Nat
  fmask : Bool
  sent : List Nat
  tx : List Byte
  txFrom : Nat
  rx : List Byte
  out : List (Nat × List Byte)
  deriving DecidableEq, Repr

/-- Where the boot ROM stands (R428–R434): not running, trying its sources, waiting for a host load, loading one,
failed, or done with an image running. -/
inductive BootPhase where
  | off | trying | waiting | loading | failed | done
  deriving DecidableEq, Repr

/-- The boot ROM: its phase, the sources it still has to try (0 QSPI A, 1 QSPI B, 2 network, 3 host), the network's
DHCP back-off in s, TFTP tries and timer start, and the fuse write that runs (0: the counter; 1 + k: the
revocation of key slot k). -/
structure Boot where
  phase : BootPhase
  srcs : List Nat
  dhcp : Nat
  tftp : Nat
  netAt : Nat
  fuse : Option Nat
  deriving DecidableEq, Repr

end Sys2Proof.Machine
end

