-- ==== Sys2Proof/Machine/Blocks.lean ====
section
/-! DEFINITION. What the blocks hold beyond their registers, one structure per block, as plain data. -/

namespace Sys2Proof.Machine

/-! ### Time (spec/03) -/

/-- The master time counter: `p` is P (R44), `sub` its fraction in 2⁻⁴⁸ ns (R46), `tOfs` what must be
added to P to give T96, in 2⁻¹⁶ ns (R45). -/
structure Clock where
  p : Phase
  sub : BitVec 32
  tOfs : Int
  deriving DecidableEq, Repr

/-- A requester's snapshot of the three readings (R47): T96 in units of 2⁻¹⁶ ns, PC64, and MONO. -/
structure Snap where
  t96 : Nat
  pc : PC64
  mono : Nat
  deriving DecidableEq, Repr

/-- A local time replica (R66, R67): its mode, the counts of consecutive good, missed, far and near
exchanges, its ALIGN condition and its phase less the master's, in 2⁻¹⁶ ns. -/
structure Replica where
  locked : Bool
  good : Nat
  miss : Nat
  far : Nat
  near : Nat
  align : Bool
  ofs : Int
  deriving DecidableEq, Repr

/-- The timebase's own state: the pending step (R61–R63), the signed size of the last one (R62), the
instants at which TBE_STEP falls (R64) and the smear window in force (R58, R59). -/
structure TimeBase where
  stepAbs : Bool
  stepVal : Int
  stepBy : Nat
  lastStep : Int
  stepUntil : Nat
  smearOn : Bool
  smearStart : Nat
  smearDir : Bool
  replicas : List Replica
  deriving DecidableEq, Repr

/-! ### The recorder (spec/18) -/

/-- A record without its SEQ (Table 18-1): SRC, CODE, MONO, SEC, NS word, ARG0, ARG1. -/
structure Recd where
  src : Nat
  code : Nat
  mono : Nat
  sec : Nat
  ns : Nat
  a0 : Nat
  a1 : Nat
  deriving DecidableEq, Repr

/-- A staging entry: one record, or a pair whose second half has arguments of its own (R363). -/
structure RecEntry where
  r : Recd
  cont : Option (Nat × Nat)
  deriving DecidableEq, Repr

/-- The open run of a staging buffer (R367): the record, further occurrences, the SRC and times of the
last occurrence. -/
structure RecRun where
  e : RecEntry
  count : Nat
  last : Recd
  deriving DecidableEq, Repr

/-- A staging buffer (R367, R368): waiting entries, the open run and the tally of lost records. -/
structure StageBuf where
  q : List RecEntry
  run : Option RecRun
  lost : Nat
  lostMask : Nat
  lostSrc : Nat
  deriving DecidableEq, Repr

/-- A slot of the store that holds a record (R360). -/
structure RecSlot where
  seq : Nat
  r : Recd
  deriving DecidableEq, Repr

/-- The recorder: 14 staging buffers (dies 0–2 and 4–7, then harts 0–5 and the host), the store by
slot, the recent index by entry, the writer's round robin, the clear in progress, and the RESET record that the
writer writes before any other (R373). -/
structure Recorder where
  bufs : List StageBuf
  store : List (Nat × RecSlot)
  index : List (Nat × (Nat × Nat))
  next : Nat
  clearing : Option (Nat × Nat)
  first : Option RecEntry
  deriving DecidableEq, Repr

/-! ### The fabric (spec/01) -/

/-- The switch output towards a die (R15): how long each class has waited, in consecutive grants to
higher classes, and the source each class was last granted from. -/
structure SwOut where
  waited : List Nat
  lastSrc : List Nat
  deriving DecidableEq, Repr

/-- A transfer granted and delivered, or discarded, last at a switch output. -/
structure Delivered where
  src : Nat
  cls : Nat
  ok : Bool
  deriving DecidableEq, Repr

/-- The Boulevard and the doubt messages the Hub last received from each die (R32): INT_SUM,
DOUBT_SUM and source vector. -/
structure Fabric where
  outs : List SwOut
  last : List (Option Delivered)
  msgInt : List Nat
  msgDoubt : List Nat
  msgVec : List Nat
  stall : List Bool
  deriving DecidableEq, Repr

/-! ### The safe-state controller (spec/19) -/

/-- What the SAF holds beside its registers: each die's last source vector and the MONO of its last
message (R378), the dies lost, when safe state and DEGRADE were entered, when the last DEGRADE source
and the last SAFE source fell (R381, R383), and the start of each source's escalation count (R382). -/
structure Safe where
  vec : List Nat
  lastMsg : List Nat
  lost : Nat
  since : Nat
  degSince : Nat
  degFell : Option Nat
  settleFrom : Option Nat
  esc : List (Nat × Nat)
  deriving DecidableEq, Repr

/-! ### The discipline engine (spec/04) -/

/-- A reference slot (R69–R76, R95–R97). Offsets are in 2⁻¹⁶ ns, `y` and `sy` in ppt, times in MONO ns.
`since` is the enable, `alive` the last valid sample or edge of the loss rule, `qualFrom` the start of
the gapless run, `fresh` the offsets and
delays that wait for the next update, `est` says that the estimator
holds values, `edge` the last valid PPS edge, `base` and `held` the accepted and held-back delays
with the held-back offsets, `quarFrom` the entry to QUARANTINE with θ_before, σ_before and UNC of
then, `voted` and `marked` the causes of SUSPECT, `gone` the upstream loss marker, `rel` a release
that waits (2 with BIAS_CLR), `acc` the accuracy its source declares in ns. -/
structure Slot where
  since : Nat
  alive : Option Nat
  sampled : Option Nat
  qualFrom : Option Nat
  fresh : List (Int × Option Int)
  est : Bool
  x : Int
  y : Int
  sx : Nat
  sy : Nat
  b : Int
  ub : Nat
  prop : Int
  edge : Option PC64
  base : List Int
  held : List (Int × Int)
  quarFrom : Option (Nat × Int × Nat × Option Nat)
  quarHold : Bool
  dis : Nat
  voted : Bool
  marked : Bool
  gone : Bool
  rel : Nat
  bclr : Bool
  acc : Option Nat
  count : Option Int
  deriving DecidableEq, Repr

/-- Why the engine asked for, or waits to ask for, a step: row 3, rows 10 and 11, or R88. -/
inductive StepWant where
  | acquire | recover | handover
  deriving DecidableEq, Repr

/-- The view of the Timebase that a servo update sends to each Port die and to the Radio (R211, R155).
`unc` is none while unknown; `refAt` is the P of the last update in ACQUIRE or LOCKED, and `at'` the T96 at
which the view was formed; `smearOn` to `smearDir` are the smear window in force. -/
structure View where
  state : Nat
  primary : Nat
  lastPrimary : Nat
  unc : Option Nat
  refAt : Option Nat
  timeSet : Bool
  utc : Nat
  leapLo : Nat
  leapHi : Nat
  smear : Bool
  smearOn : Bool
  smearStart : Nat
  smearDir : Bool
  at' : Nat
  degrade : Bool
  askStratum : Nat
  askRefid : Nat
  freq : Nat
  slot0 : Nat
  slot0Delay : Nat
  slot0Acc : Nat
  deriving DecidableEq, Repr

/-- The servo (R77–R100). `e` and `h` are in 2⁻¹⁶ ns, `freq` and `fh` in 2⁻¹⁶ ppt, `unc` in 2⁻¹⁶ ns
(none: unknown), `th` and `temp` in 0.001 °C; `uncBase` is UNC at `uncFrom`, `entry` the MONO of the
entry to HOLDOVER or SUSPECT, `tInt` the integral of |T − T_h| since `uncFrom` in 0.001 °C × ns,
`hist` the discipline history as (MONO, frequency part in ppt, temperature, primary), `rvBound` the bound
of the last reviewed fit (R392; 0: none). -/
structure Servo where
  slots : List Slot
  e : Int
  h : Int
  been : Bool
  inCnt : Nat
  outCnt : Nat
  tau : Nat
  tick : Nat
  handed : Bool
  decided : Bool
  tied : Bool
  force : Nat
  selPrev : Nat
  last : Nat
  freq : Int
  fh : Int
  th : Int
  temp : Int
  unc : Option Nat
  uncBase : Option Nat
  uncFrom : Nat
  entry : Nat
  syH : Nat
  tInt : Nat
  want : Option StepWant
  mine : Option StepWant
  upd : Nat
  refAt : Option Nat
  lockNs : Nat
  stored : Nat
  refits : Nat
  hist : List (Nat × Int × Int × Nat)
  rvBound : Nat
  view : View
  deriving DecidableEq, Repr

/-! ### The oven and the source of frequency (spec/05) -/

/-- What the oven and the synthesizer hold beside their registers: the heater is off after OVN_FAULT,
the resonator has stopped, a switch that has been requested (to OSC_IN, and whether the correction of
R109 is valid), a move to the backup oscillator that is due, and the MONO of heater start and of the
last minute of R113. -/
structure Oven where
  heaterOff : Bool
  stopped : Bool
  req : Option (Bool × Bool)
  toBackup : Bool
  heatFrom : Nat
  minute : Nat
  deriving DecidableEq, Repr

/-! ### Outputs, cues and capture (spec/13) -/

/-- A periodic output: a synthesizer, a TOUT or a CLKOUT (R279–R281). `want` says that it is armed;
`start` is the T96 of its start boundary on the scale whose T96 − P is `ofs`; `live` says that the
boundary has passed, `ran` that an edge has; `rise` and `fall` are the P of its last rising edge and
of the end of the pulse that edge began. -/
structure OutRun where
  want : Bool
  start : Nat
  ofs : Int
  live : Bool
  ran : Bool
  high : Bool
  rise : Nat
  fall : Nat
  deriving DecidableEq, Repr

/-- A cue entry (R285–R289): its slot and generation, CUE_DATA0, target, CUE_DATA3 and 4, and for a
FRAME entry whether it has been dispatched and the ports that have not completed. -/
structure CueEnt where
  slot : Nat
  gen : Nat
  d0 : Nat
  target : PC64
  d3 : Nat
  d4 : Nat
  sent : Bool
  wait : Nat
  deriving DecidableEq, Repr

/-- A stamp of a capture input (R290). -/
structure CapStamp where
  falling : Bool
  lost : Bool
  tset : Bool
  scale : Nat
  pc : PC64
  t96 : Nat
  deriving DecidableEq, Repr

/-- A capture input: its FIFO, oldest first, its last stamped edge, and whether stamps were dropped
since the last one stored (R290, R291). -/
structure CapIn where
  fifo : List CapStamp
  last : Option PC64
  lost : Bool
  deriving DecidableEq, Repr

/-- What the MCK holds beside its registers: the channels (synthesizers 0–3, then TOUT0–7, then
CLKOUT0–1), the scale its outputs leave and the P of Q while a step waits for re-alignment (R281), the
levels of TOUTs in CUE mode and the ends of their pulses, the cue queue in order, the generation of
each cue slot, the frame buffers by byte and their lengths, the completions of cue frames on their way
from the Port dies (slot, generation, port, status), the capture inputs, the TOD transmitters'
counts, last start and last message. -/
structure Mck where
  outs : List OutRun
  realign : Option Nat
  oldOfs : Int
  cueLvl : List Bool
  cueFall : List (Option PC64)
  cues : List CueEnt
  gens : List (Nat × Nat)
  frm : List (Nat × Byte)
  frmLen : List (Nat × Nat)
  cueDone : List (Nat × Nat × Nat × Nat)
  caps : List CapIn
  todSeq : List Nat
  todAt : List Nat
  todMsg : List (List Byte)
  deriving DecidableEq, Repr

/-! ### The radio (spec/06 to spec/08) -/

/-- A queued or running acquisition job: JOB0–JOB3, and whether the sweep made it (R126, R134). -/
structure AcqJob where
  w0 : Nat
  w1 : Nat
  w2 : Nat
  w3 : Nat
  auto : Bool
  deriving DecidableEq, Repr

/-- The running job (R127–R130): T, N, the passes it takes and has done, the PC64 of the capture's first
sample, whether the capture is complete, whether it verifies, whether a FLUSH abandons it, DSC.FREQ
in force, and the first search's peak as statistic in 1/16, Doppler in 0.1 Hz, code phase and C/N0. -/
structure AcqRun where
  job : AcqJob
  t : Nat
  n : Nat
  passes : Nat
  done : Nat
  pc : PC64
  captured : Bool
  verify : Bool
  abort : Bool
  freq : Int
  peak : Nat × Int × Nat × Nat
  deriving DecidableEq, Repr

/-- A dump that waits to be written: its SEQ, B_k, the flags of word 0, the words in force and the
carrier phase (Table 07-3). -/
structure DumpHead where
  seq : Nat
  b : PC64
  late : Bool
  epoch : Bool
  edge : Bool
  car : Nat
  code : Nat
  phase : Nat
  deriving DecidableEq, Repr

/-- A tracking channel that is not IDLE. States are those of Table 07-2; `from'` is the MONO of entry,
`syncFrom` of entry to SYNC, `slip` marks the next measurement. A timing channel adds its interval
(SEQ, B_k and flags), the dump that waits, the dumps written, the intervals without a commit, the
staged commit (rates, steps and FOR_SEQ) and the seconds out of shape. `pre` is the first bit edge of
the last good preamble, `even` an even page part, `fails` consecutive failed subframes or pages. -/
structure Chan where
  sys : Nat
  prn : Nat
  st : Nat
  from' : Nat
  syncFrom : Nat
  slip : Bool
  seq : Nat
  b : Option PC64
  edge : Bool
  late : Bool
  epoch : Bool
  phase : Nat
  dump : Option DumpHead
  dumps : Nat
  quiet : Nat
  commit : Option (Nat × Nat × Nat × Nat × Nat)
  badSec : Nat
  pre : Option PC64
  even : Option (List Nat × PC64)
  fails : Nat
  deriving DecidableEq, Repr

/-- The integrity monitor (R154–R164): excluded signals with the MONO of their last failed check, the
view with the MONO of its arrival, the 60 s histories of gain and noise (newest first) and the frozen
baselines, the consecutive counts, the history of TIME_STEP as (epoch, x_0), since when no cause has
stood, and the NAV checks of the running 6 s interval. -/
structure Monitor where
  excl : List (Nat × Nat × Nat)
  view : Option (View × Nat)
  agc : List Nat
  noise : List Nat
  agcBase : Option Nat
  noiseBase : Option Nat
  flat : Nat
  pred : Nat
  step : Nat
  hist : List (Nat × Int)
  scale : Nat
  quietFrom : Option Nat
  navAt : Nat
  navSeen : List Nat
  navBad : List Nat
  deriving DecidableEq, Repr

/-- A snapshot capture that is armed or running: slot, length in ms, target, periodic or manual, the
slot's state before, and the PC64 of the first sample once it has begun (R165–R167). -/
structure SnapArm where
  slot : Nat
  len : Nat
  target : PC64
  auto : Bool
  was : Nat
  first : Option PC64
  deriving DecidableEq, Repr

/-- What the Radio die holds beside its registers. -/
structure Radio where
  gfFrom : Nat
  window : Bool
  biasOn : Bool
  biasFrom : Nat
  shortAt : Nat
  rail : Option Nat
  agcHeld : Bool
  gainSum : Nat
  gainN : Nat
  jobs : List AcqJob
  run : Option AcqRun
  results : List (List Nat)
  sweep : Nat
  chans : List (Nat × Chan)
  move : Option (Nat × Nat × Bool)
  navSeq : Nat
  solved : Option Nat
  pos : Option (Nat × Nat × Nat × Nat)
  mon : Monitor
  arm : Option SnapArm
  nextSec : Nat
  store : List (Nat × Byte)
  deriving DecidableEq, Repr

/-! ### Power and reset (spec/22) -/

/-- A setpoint the device writes over AVSBus (R439, R440): the rail, the setpoint in mV, the writes that
failed, the MONO from which the next write may go out, and that of the write whose status has not been read yet. -/
structure AvsJob where
  rail : Nat
  mv : Nat
  tries : Nat
  due : Nat
  sent : Option Nat
  deriving DecidableEq, Repr

/-- The power controller: the switched domains that are on, and those held in retention, as bits in the order
of `domHC` and its fellows (R441, R443); the domains that turn on; the state being entered (R445) and whether
an exit runs (R447); the wake sources that rose during an entry (R449); the setpoints on their way; and the resets held until their release, as (kind, die,
island, MONO) (R450). -/
structure Power where
  on : Nat
  ret : Nat
  turning : Nat
  entering : Option Nat
  exiting : Bool
  woken : Nat
  avs : List AvsJob
  held : List (Nat × Nat × Nat × Nat)
  deriving DecidableEq, Repr

/-! ### Ageing (spec/19) -/

/-- The plan of one AVS rail in a review (R390): the steps it has been raised, whether it was lowered and waits
for the measurement after, and whether its planning has ended. -/
structure RailPlan where
  steps : Nat
  lowered : Bool
  settled : Bool
  deriving DecidableEq, Repr

/-- A margin review that runs (R389–R394): the MONO of its next measurement, the plans of the rails, the last
slack of each island as (die, island, ps), whether planning has ended, the ports that still calibrate,
the largest trim, the dies with a trim at its limit, and whether an island's results were discarded. -/
structure Review where
  due : Nat
  rails : List RailPlan
  slacks : List (Nat × Nat × Nat)
  planned : Bool
  ports : List Nat
  trimMax : Nat
  short : Nat
  lost : List (Nat × Nat)
  deriving DecidableEq, Repr

/-- The ageing monitors: the MONO from which the next review is counted, whether the review of the first commit
has run, the review that runs, and the MONO of each die's last canary failure. -/
structure Age where
  start : Nat
  first : Bool
  run : Option Review
  canary : List (Option Nat)
  deriving DecidableEq, Repr


end Sys2Proof.Machine
end

