-- ==== Sys2Proof/Machine/PortBlocks.lean ====
section
/-! DEFINITION. What the Port dies, the key island and the Hub's frame paths hold beyond their registers,
as plain data (spec/09 to spec/12). Times called P are counts of the master time counter as the die's
replica reads it; a PC64 is such a count modulo 2⁶⁴. -/

namespace Sys2Proof.Machine

/-! ### Frames and their builders -/

/-- An NTP request as queued (R207): its receive stamp, source MAC address, VLAN ID (0 untagged) with the
PCP of the port's VLAN entry, IP version and addresses, source port, UDP payload, kind, and whether its
packet tile is spoilt. -/
structure NtpReq where
  stamp : PC64
  mac : Nat
  vid : Nat
  pcp : Nat
  v6 : Bool
  src : Nat
  dst : Nat
  sport : Nat
  body : List Byte
  nts : Bool
  bad : Bool
  deriving DecidableEq, Repr

/-- The head of an NTP answer as its form gave it (Table 10-5): bytes 0–15, and the phase count of the
update that the reference timestamp names, none where that timestamp is 0. -/
structure NtpHead where
  bytes : List Byte
  ref : Option Nat
  deriving DecidableEq, Repr

/-- What an NTS answer carries (R233–R237): the AEAD ID and keys of the request's cookie, its Unique
Identifier, the number of new cookies, and the cookie fields once minted. -/
structure NtsWork where
  aead : Nat
  c2s : List Byte
  s2c : List Byte
  uid : List Byte
  k : Nat
  cookies : List Byte
  deriving DecidableEq, Repr

/-- Where a PTP message goes: MAC address, VLAN with PCP, the transport (0 L2, 1 IPv4, 2 IPv6), the IP
addresses, and whether it is a peer-delay message to a multicast address. -/
structure PtpTo where
  mac : Nat
  vid : Nat
  pcp : Nat
  l3 : Nat
  src : Nat
  dst : Nat
  peer : Bool
  deriving DecidableEq, Repr

/-- What a launch instant L writes into a PTP message (Table 12-5): nothing; L as originTimestamp with
FRAC(L) in correctionField; L as originTimestamp alone; the turnaround L − t2 added to the request's
correctionField; the receipt t2 as requestReceiptTimestamp. -/
inductive PtpTime where
  | none | originFrac | origin
  | turn (cf : Nat) (t2 : Nat)
  | receipt (cf : Nat) (t2 : Nat)
  deriving DecidableEq, Repr

/-- A PTP message to be launched: its bytes before any time or TLV of R272 is written, what L writes, where
it goes, whether it is of 802.1AS, its security entry, and the reference that sends it as a Delay_Req. -/
structure PtpMsg where
  msg : List Byte
  time : PtpTime
  dest : PtpTo
  as : Bool
  sa : Option Nat
  ref : Option Nat
  deriving DecidableEq, Repr

/-- The launch word of a software or cue frame (Table 09-4) with the ring it came from, or none for a cue
frame with its slot, generation and the place of its stamp (R287), and its frame without FCS. -/
structure SoftFrame where
  ring : Option Nat
  slot : Nat
  gen : Nat
  mode : Nat
  noRestamp : Bool
  csum : Bool
  ptpOfs : Nat
  udpOfs : Nat
  t : PC64
  tag : Nat
  stampAt : Option Nat
  frame : List Byte
  deriving DecidableEq, Repr

/-- Who builds a booked frame, with all it needs to build it for a launch instant (R188, R194, R197). A
bridged frame carries t_in and the link delay to add; an untimed frame that has starved is finished. -/
inductive Builder where
  | answer (q : NtpReq) (h : NtpHead)
  | nts (q : NtpReq) (h : NtpHead) (w : NtsWork)
  | ptp (m : PtpMsg)
  | bridge (frame : List Byte) (tin : PC64) (link : Nat) (event : Bool) (sa : Option Nat)
  | soft (f : SoftFrame)
  | plain (frame : List Byte)
  deriving DecidableEq, Repr

/-- A booking that has been granted and not yet released (R183–R189): its number, builder, length with
FCS, lead in 2⁻¹⁶ ns, L and the end of its occupancy as P, the frame once built and the P from which its
builder hands it over, and whether it is in the hold queue, late, restamped, or spoilt in its tile. -/
structure Booking where
  no : Nat
  by' : Builder
  len : Nat
  lead : Nat
  l : Nat
  stop : Nat
  frame : Option (List Byte)
  ready : Nat
  held : Bool
  late : Bool
  again : Bool
  bad : Bool
  deriving DecidableEq, Repr

/-- A booking request that waits to be granted (R183): its builder, length, earliest instant as P, and
whether it is AT. -/
structure Ask where
  by' : Builder
  len : Nat
  e : Nat
  at' : Bool
  deriving DecidableEq, Repr

/-- An untimed frame that waits for a gap (R186): the frame, since when in MONO ns, the ring of a
software frame with its tag, and the instant of the starved booking it has. -/
structure Untimed where
  frame : List Byte
  since : Nat
  soft : Option (Nat × Nat)
  booked : Bool
  deriving DecidableEq, Repr

/-- A departed frame: the bytes without FCS and L as P, none for an untimed frame. -/
structure Sent where
  frame : List Byte
  l : Option Nat
  deriving DecidableEq, Repr

/-- A port of a Port die: bookings in launch order, waiting booking requests and the source last granted
(0 ANS, 1 PTE, 2 bridge pairs, 3 cue queue, 4 software), untimed frames, the occupancies on the wire of
frames that have left the queue, the deficit idle count, released frames that have not departed, the frame sent last, the end of a
pause in MONO, a calibration that runs, since when LINK = 1 and CAL_OK = 0 hold together, the last
deviation, and the request queue. -/
structure Port where
  books : List Booking
  asks : List Ask
  lastAsk : Nat
  untimed : List Untimed
  occ : List (Nat × Nat)
  deficit : Nat
  out : List Booking
  sent : Option Sent
  pause : Option Nat
  cal : Bool
  uncalFrom : Option Nat
  devAt : Nat
  queue : List NtpReq
  deriving DecidableEq, Repr

/-! ### Tables of a Port die -/

/-- A rate entry (R219, R221): its key, tokens in 2⁻⁸, MONO of the latest lookup and of the latest KoD. -/
structure RateEnt where
  v6 : Bool
  key : Nat
  tokens : Nat
  last : Nat
  kod : Option Nat
  deriving DecidableEq, Repr

/-- A master key in a SIV key store or the keystore (R239): its ID, bytes, state (1 staged, 2 active,
3 retained) and activation instant. -/
structure MasterKey where
  id : Nat
  key : List Byte
  st : Nat
  at' : PC64
  deriving DecidableEq, Repr

/-- A granted type of a session (Table 12-7): interval, duration in s, expiry in MONO µs. -/
structure Grant where
  on : Bool
  log : Int
  dur : Nat
  exp : Nat
  deriving DecidableEq, Repr

/-- A session entry (Table 12-7). -/
structure Session where
  static : Bool
  v6 : Bool
  l2 : Bool
  slot : Nat
  port : Nat
  vid : Nat
  mac : Nat
  pid : Nat
  addr : Nat
  seqSync : Nat
  seqAnn : Nat
  seqSig : Nat
  ann : Grant
  sync : Grant
  dresp : Grant
  nextSync : Nat
  nextAnn : Nat
  sent : Nat
  deriving DecidableEq, Repr

/-- A foreign master (R262, R267): its port identity, dataset (priority1, clockClass, clockAccuracy,
offsetScaledLogVariance, priority2, grandmaster identity), logMessageInterval, the UTC word of RXx_UTC,
the MONO of its latest Announce, whether it is qualified, and its MAC and IP address. -/
structure Foreign where
  pid : Nat
  data : List Nat
  log : Int
  utc : Nat
  last : Nat
  qual : Bool
  mac : Nat
  ip : Nat
  deriving DecidableEq, Repr

/-- What an instance holds beside its entry: its sequence counters for Sync and Announce, the T96 of the latest due Sync and Announce, the foreign masters it hears, whether it sees a
better one, the MONO until which the better one last heard counts, and whether it has yielded. -/
structure Inst where
  seqSync : Nat
  seqAnn : Nat
  lastSync : Nat
  lastAnn : Nat
  foreign : List Foreign
  better : Bool
  until' : Nat
  passive : Bool
  deriving DecidableEq, Repr

/-- A Pdelay_Req that has departed (R256): its sequenceId, t1 as P, its MONO, the responses it drew, and a
two-step response that waits for its follow-up: t2 of the responder and t4, in 2⁻¹⁶ ns, with its
correctionField. -/
structure PdelayReq where
  seq : Nat
  t1 : Nat
  at' : Nat
  got : Nat
  resp : Option (Int × Int × Int)
  deriving DecidableEq, Repr

/-- The peer-delay initiator of a port (R256): the next sequenceId, the requests in flight, oldest first, the
mean d in 2⁻¹⁶ ns and the lost requests in a row. -/
structure Pdelay where
  seq : Nat
  reqs : List PdelayReq
  d : Option Int
  lost : Nat
  deriving DecidableEq, Repr

/-- A reference port (R266–R269): the masters it hears, the identity of the one it follows, a two-step Sync
that waits for its Follow_Up (sequenceId, t2 as P, correction), the latest complete Sync (t1 in 2⁻¹⁶ ns
and t2), the Delay_Req in flight (sequenceId and t3 as P) with the Sync it completes, the next
sequenceIds, the logMessageInterval of the latest Delay_Resp, and for each unicast grant (Announce,
Sync, Delay_Resp) the MONO at which it was granted or refused and its duration in ns (0 refused). -/
structure RefPort where
  masters : List Foreign
  follow : Option Nat
  wait : Option (Nat × Nat × Int)
  sync : Option (Int × Nat)
  dreq : Option (Nat × Nat × Int × Nat)
  seqReq : Nat
  seqSig : Nat
  log : Option Int
  grants : List (Option (Nat × Nat))
  deriving DecidableEq, Repr

/-- The PTP engine of a die: the instance table and what the instances hold, the security table with its
keys, the initiators by port, the reference ports, and when a REQUIRE instance or reference last dropped
a message. -/
structure Ptp where
  insts : List (Nat × List Nat)
  run : List (Nat × Inst)
  sas : List (Nat × (List Nat × List Byte))
  pdelay : List (Nat × Pdelay)
  refs : List RefPort
  authAt : Nat
  deriving DecidableEq, Repr

/-- Work in the SIV engine of a die: an answer, by its port and booking, or a NAK. -/
inductive SivJob where
  | answer (port : Nat) (no : Nat)
  | nak (port : Nat) (q : NtpReq)
  deriving DecidableEq, Repr

/-- A tile injection that is armed on a die (R489): the kind and the inversions left. -/
structure TileInj where
  kind : Nat
  left : Nat
  deriving DecidableEq, Repr

/-- A Port die: its ports, the service view with the MONO of its arrival, the safe-state line as the
engines have taken it, the leap it has applied itself (TAI_SEC, DIR and the scale generation of then), the
port served last, the work in the SIV engine, the next booking number, the MONO
of late frames and of slow-path frames of the last second, the address and VLAN tables, a table write
that runs, the prefix list with its pending write, the rate table by set and way with its spoilt tiles,
the secrets, the scrubbers' places, when the tile doubts rose, the sessions and their spoilt tiles, the
SIV key store, the Crossing's sequence number, whether the nonce generator is seeded and its count, when
KEYS_READY fell, the PTP engine, the bridge pairs accepted, the PLLs that have lost lock, the tile
failures of the last second, and the trim of the margin review that waits. -/
structure PortDie where
  ports : List Port
  view : Option (View × Nat)
  safe : Bool
  leapDone : Option (Nat × Bool × Nat)
  rr : Nat
  siv : List SivJob
  bookNo : Nat
  lates : List Nat
  slow : List Nat
  addr : List (Nat × List Nat)
  vlan : List (Nat × Nat)
  tabWait : Option (Bool × Nat × List Nat)
  pfx : List (Nat × List Nat)
  rate : List (Nat × RateEnt)
  rateBad : List Nat
  rateKey : Option Nat
  sesKey : Option Nat
  flushing : Bool
  scrub : Nat
  sesScrub : Nat
  tileAt : Nat
  sesTileAt : Nat
  ses : List (Nat × Session)
  sesBad : List Nat
  keys : List MasterKey
  crossSeq : Nat
  crossAt : Nat
  seeded : Bool
  nonces : Nat
  lackFrom : Option Nat
  ptp : Ptp
  pllLost : Nat
  mmRst : List Nat
  tiles : List Nat
  inj : Option TileInj
  trims : List (Nat × Nat)
  deriving DecidableEq, Repr

/-! ### The key island (spec/11) -/

/-- A Crossing transfer on its way to a die (R243): the die, its sequence number, the keys it carries, and
the times it has been sent again. -/
structure CrossMsg where
  die : Nat
  seq : Nat
  keys : List MasterKey
  tries : Nat
  deriving DecidableEq, Repr

/-- A mint that runs (R231): the address of its block, the AEAD ID, COUNT and the keys read from it. -/
structure MintJob where
  addr : Nat
  aead : Nat
  count : Nat
  c2s : List Byte
  s2c : List Byte
  deriving DecidableEq, Repr

/-- The key island: the keys it holds, oldest first, the MONO of the last generation, a postponed
generation, the transfers that wait to be received, the next sequence number per die, a mint that runs,
and for R245 the MONO since when the upstream link is up, that of the last key it brought, and the period
it announces in minutes. -/
structure KeyIsland where
  keys : List MasterKey
  genAt : Nat
  postponed : Bool
  cross : List CrossMsg
  seq : List Nat
  mint : Option MintJob
  upFrom : Option Nat
  upKeyAt : Option Nat
  upPeriod : Nat
  deriving DecidableEq, Repr

/-! ### The Hub's frame paths (spec/21) -/

/-- A slow-path frame on its way to a ring (R205, R422). -/
structure SlowFrame where
  port : Nat
  uncal : Bool
  cls : Nat
  stamp : PC64
  frame : List Byte
  deriving DecidableEq, Repr

/-- A descriptor as its owner gave it (Table 21-2): LEN, OWN, ADDR and word 4. -/
structure Desc where
  len : Nat
  own : Bool
  addr : Nat
  w4 : Nat
  deriving DecidableEq, Repr

/-- The work of a descriptor that the device has taken: a slow-path frame to be written, a software frame by
its TAG with its completion (status and L) once it has returned, one that is refused as BAD_WORD, or an
export with the words it will report once it is done. -/
inductive RingWork where
  | rx (f : SlowFrame)
  | tx (tag : Nat) (done : Option (Nat × Nat))
  | bad
  deriving DecidableEq, Repr

/-- A DMA ring (R421–R427): descriptors given and not yet taken, descriptors taken in order with their work,
descriptors completed since the last report and the MONO of the first of them. -/
structure Ring where
  given : List Desc
  work : List (Desc × RingWork)
  unrep : Nat
  since : Nat
  deriving DecidableEq, Repr

end Sys2Proof.Machine
end

