-- ==== Sys2Proof/Machine/Cold.lean ====
section
/-! DEFINITION. What every block holds after a COLD reset, or after its domain has been powered: the cold values of
what lies beyond the registers (log entry 1). -/

namespace Sys2Proof.Machine

/-! ### Time, records and the fabric -/

/-- A replica that has just been powered: acquiring, with nothing counted (R66). -/
def Replica.cold : Replica := ⟨false, 0, 0, 0, 0, false, 0⟩

/-- An empty staging buffer. -/
def StageBuf.empty : StageBuf := ⟨[], none, 0, 0, 0⟩

/-- The timebase at a COLD reset: no step is pending and every replica acquires. -/
def TimeBase.cold : TimeBase :=
  { stepAbs := false, stepVal := 0, stepBy := 0, lastStep := 0, stepUntil := 0, smearOn := false, smearStart := 0
    smearDir := false, replicas := List.replicate 6 Replica.cold }

/-- The Boulevard with nothing on its way. -/
def Fabric.cold : Fabric :=
  { outs := List.replicate 8 ⟨[0, 0, 0, 0], [7, 7, 7, 7]⟩, last := List.replicate 8 none
    msgInt := List.replicate 8 0, msgDoubt := List.replicate 8 0, msgVec := List.replicate 8 0
    stall := List.replicate 8 false }

/-! ### The servo and the oven -/

/-- A slot that has just been enabled, or was never used (R69). -/
def Slot.cold : Slot :=
  { since := 0, alive := none, sampled := none, qualFrom := none, fresh := [], est := false, x := 0
    y := 0, sx := 0, sy := 0, b := 0, ub := 0, prop := 0, edge := none, base := [], held := []
    quarFrom := none, quarHold := false, dis := 0, voted := false, marked := false, gone := false
    rel := 0, bclr := false, acc := none, count := none }

/-- The offset of the in-package resonator as the engine loads it, in ppt (R98). -/
def otpFreq : Int := signed 32 (Config.otp 1 % 0x100000000)

/-- The oven's setpoint in 0.001 °C (R104). -/
def otpSetpoint : Nat := Config.otp 5 % 0x40000

/-- A view that nothing has filled. -/
def View.cold : View :=
  { state := 0, primary := 7, lastPrimary := 7, unc := none, refAt := none, timeSet := false, utc := 0, leapLo := 0
    leapHi := 0, smear := false, smearOn := false, smearStart := 0, smearDir := false, at' := 0, degrade := false
    askStratum := 0, askRefid := 0, freq := 0, slot0 := 0, slot0Delay := 0, slot0Acc := 0 }

/-- The servo in FREERUN on its factory model. -/
def Servo.cold : Servo :=
  { slots := List.replicate 6 Slot.cold, e := 0, h := 0, been := false, inCnt := 0, outCnt := 0, tau := 1, tick := 0
    handed := false, decided := false, tied := false, force := 7, selPrev := 7, last := 7
    freq := otpFreq * 65536, fh := otpFreq * 65536, th := otpSetpoint, temp := otpSetpoint
    unc := none, uncBase := none, uncFrom := 0, entry := 0, syH := 0, tInt := 0, want := none, mine := none, upd := 0
    refAt := none, lockNs := 0, stored := 0, refits := 0, hist := [], rvBound := 0, view := View.cold }

/-- The oven as its warm-up starts. -/
def Oven.cold : Oven :=
  { heaterOff := false, stopped := false, req := none, toBackup := false, heatFrom := 0, minute := 0 }

/-! ### Outputs, time intervals and links -/

/-- A capture input with nothing captured. -/
def CapIn.empty : CapIn := ⟨[], none, false⟩

/-- An output at rest. -/
def OutRun.cold : OutRun :=
  { want := false, start := 0, ofs := 0, live := false, ran := false, high := false, rise := 0, fall := 0 }

/-- Outputs, queue, buffers and FIFOs with nothing in them. -/
def Mck.cold : Mck :=
  { outs := List.replicate 14 OutRun.cold, realign := none, oldOfs := 0, cueLvl := List.replicate 8 false
    cueFall := List.replicate 8 none, cues := [], gens := [], frm := [], frmLen := [], cueDone := []
    caps := List.replicate 8 CapIn.empty, todSeq := [0, 0], todAt := [0, 0], todMsg := [[], []] }

/-- The time-interval unit at rest, with the cold settings. -/
def Tdc.cold : Tdc :=
  { set := ⟨0x10000, 0x2, 0x5555, 0x303, 0x3E8, 0x3E8, List.replicate 10 0⟩, run := none, armedAt := 0, rearm := none
    gateHigh := false, last := List.replicate 10 none, pre := [0, 0], seq := 0, fifo := [], lost := false, done := 0
    means := [], lastStart := 0 }

/-- A peer of which nothing is known. -/
def AskPeer.cold : AskPeer :=
  { up := false, id := 0, depth := 7, flags := 0, servo := 0, unc := 0xFFFFFFFF, own := [], pub := []
    pend := false, key := none, keys := false, failed := false, keyTx := 0, keyRx := 0, has := []
    again := none, t4 := none, check := none }

/-- A link that has just left reset. -/
def AskLink.cold : AskLink :=
  { peers := List.replicate 4 AskPeer.cold, beenUp := false, seqs := [], markAt := none, seen := []
    missed := 0, txq := [], rxq := [], sent := []
    accepted := false, shared := false, ser := none, refused := none }

/-! ### The radio -/

/-- A monitor with no cause standing. -/
def Monitor.cold : Monitor :=
  { excl := [], view := none, agc := [], noise := [], agcBase := none, noiseBase := none, flat := 0, pred := 0, step := 0
    hist := [], scale := 0, quietFrom := some 0, navAt := 0, navSeen := [], navBad := [] }

/-- A Radio die whose domains have just been powered. -/
def Radio.cold : Radio :=
  { gfFrom := 0, window := false, biasOn := false, biasFrom := 0, shortAt := 0, rail := none, agcHeld := false
    gainSum := 0, gainN := 0, jobs := [], run := none, results := [], sweep := 0, chans := [], move := none, navSeq := 0
    solved := none, pos := none, mon := Monitor.cold, arm := none, nextSec := 0, store := [] }

/-! ### Port dies and the key island -/

/-- A port that holds nothing. -/
def Port.cold : Port :=
  { books := [], asks := [], lastAsk := 0, untimed := [], occ := [], deficit := 0, out := []
    sent := none, pause := none, cal := false, uncalFrom := none, devAt := 0, queue := [] }

/-- A reference port that hears nothing. -/
def RefPort.cold : RefPort :=
  { masters := [], follow := none, wait := none, sync := none, dreq := none
    seqReq := 0, seqSig := 0, log := none, grants := [none, none, none] }

/-- A PTP engine with empty tables. -/
def Ptp.cold : Ptp :=
  { insts := [], run := [], sas := [], pdelay := [], refs := [RefPort.cold, RefPort.cold], authAt := 0 }

/-- A Port die whose domains have just been powered. -/
def PortDie.cold : PortDie :=
  { ports := List.replicate 8 Port.cold, view := none, safe := true, leapDone := none, rr := 7, siv := [], bookNo := 0
    lates := [], slow := [], addr := [], vlan := [], tabWait := none, pfx := [], rate := []
    rateBad := [], rateKey := none, sesKey := none, flushing := false, scrub := 0, sesScrub := 0
    tileAt := 0, sesTileAt := 0, ses := [], sesBad := [], keys := [], crossSeq := 0, crossAt := 0
    seeded := false, nonces := 0, lackFrom := none, ptp := Ptp.cold, pllLost := 0, mmRst := [0, 0]
    tiles := [], inj := none, trims := [] }

/-- A key island without keys. -/
def KeyIsland.cold : KeyIsland :=
  { keys := [], genAt := 0, postponed := false, cross := [], seq := [0, 0, 0, 0], mint := none, upFrom := none
    upKeyAt := none, upPeriod := 0 }

/-! ### The Hub -/

/-- A lane that holds nothing. -/
def PkeLane.cold : PkeLane := ⟨none, none, [], 0, [], true⟩

/-- The public-key engine with every slot free and 0 (R336). -/
def Pke.cold : Pke := { owners := [], vals := [], ops := [], lanes := List.replicate 16 PkeLane.cold, mail := [] }

/-- A hart at reset: halted, machine mode, mstatus 0x2_0000_1800 (UXL = 64, MPP = M), everything else 0 but MTIMECMP
(Table 16-4; log entry 18). -/
def Hart.cold : Hart :=
  ⟨false, 0, Vector.replicate 31 0, true, 0x200001800, 0, 0, 0, 0, 0, 0, 0, 0, 0, List.replicate 16 0,
    List.replicate 16 0, none, false, 0xFFFFFFFFFFFFFFFF, false, 0, none, false⟩

/-- A ring at rest. -/
def Ring.cold : Ring := ⟨[], [], 0, 0⟩

/-- The host interface with its link down: every vector masked, no message pending, empty FIFOs. -/
def Hif.cold : Hif :=
  { level := 0, pba := 0, masked := 2 ^ 64 - 1, fmask := false, sent := [], tx := [], txFrom := 0, rx := [], out := [] }

/-- The ROM that has not begun. -/
def Boot.cold : Boot := ⟨.off, [], 4, 0, 0, none⟩

/-- The ageing monitors before their first review. -/
def Age.cold : Age := ⟨0, false, none, List.replicate 8 none⟩

/-- Every switched domain that DIE.DOM_REQ names is on; GF is off (R441). -/
def Power.cold : Power :=
  { on := 0x7FFF, ret := 0, turning := 0, entering := none, exiting := false, woken := 0, avs := [], held := [] }

end Sys2Proof.Machine
end

