-- ==== Sys2Proof/Machine/Regs.lean ====
section
/-! DEFINITION. The names of the registers and of their fields, as the register summaries and field
tables of spec/01 to spec/25 give them: a register is its offset in its page (R6), a field its
register, its lowest bit and its width. -/

namespace Sys2Proof.Machine

/-- A field of a register: the register's offset, the field's lowest bit and its width in bits. -/
structure Fld where
  off : Nat
  lo : Nat
  w : Nat
  deriving DecidableEq, Repr

/-! ### BLV -/
abbrev rBLV_CFG : Nat := 0x040
abbrev rBLV_STAT : Nat := 0x044
abbrev rBLV_LAT : Nat := 0x048
abbrev rBLV_LAT_MAX : Nat := 0x04C
abbrev rBLV_RETRY_CNT : Nat := 0x050
abbrev rBLV_FAIL_CNT : Nat := 0x054
abbrev rBLV_OFF_CNT : Nat := 0x058
abbrev rBLV_STALL_CNT : Nat := 0x05C
abbrev fBLV_CFG_GUARD : Fld := ⟨rBLV_CFG, 0, 4⟩
abbrev fBLV_CFG_LINK_EN : Fld := ⟨rBLV_CFG, 4, 1⟩
abbrev fBLV_STAT_LINK_UP : Fld := ⟨rBLV_STAT, 0, 1⟩
abbrev fBLV_STAT_RD_ERR : Fld := ⟨rBLV_STAT, 1, 1⟩
abbrev fBLV_LAT_PS : Fld := ⟨rBLV_LAT, 0, 16⟩
abbrev fBLV_LAT_MAX_PS : Fld := ⟨rBLV_LAT_MAX, 0, 16⟩

/-! ### ISL -/
abbrev rISL_COUNT : Nat := 0x040
abbrev rISL_DV_LIMIT : Nat := 0x044
abbrev rISL_DT_LIMIT : Nat := 0x048
abbrev rISL_TEMP_SPREAD : Nat := 0x04C
abbrev rISL_MON (k : Nat) : Nat := 0x050 + 0x4 * k
abbrev rISL_XLAT_MAX : Nat := 0x070
abbrev fISL_COUNT_N : Fld := ⟨rISL_COUNT, 0, 4⟩
abbrev fISL_DV_LIMIT_MV : Fld := ⟨rISL_DV_LIMIT, 0, 8⟩
abbrev fISL_DT_LIMIT_C : Fld := ⟨rISL_DT_LIMIT, 0, 8⟩
abbrev fISL_TEMP_SPREAD_C : Fld := ⟨rISL_TEMP_SPREAD, 0, 8⟩
abbrev fISL_MON_MV (k : Nat) : Fld := ⟨rISL_MON k, 0, 12⟩
abbrev fISL_MON_TEMP (k : Nat) : Fld := ⟨rISL_MON k, 16, 8⟩
abbrev fISL_MON_PRESENT (k : Nat) : Fld := ⟨rISL_MON k, 24, 1⟩
abbrev fISL_XLAT_MAX_DNS : Fld := ⟨rISL_XLAT_MAX, 0, 8⟩

/-! ### the common header -/
abbrev rPAGE_ID : Nat := 0x000
abbrev rPAGE_FEAT : Nat := 0x004
abbrev rPAGE_CTRL : Nat := 0x008
abbrev rPAGE_STAT : Nat := 0x00C
abbrev rINT_RAW : Nat := 0x010
abbrev rINT_EN : Nat := 0x014
abbrev rINT_STAT : Nat := 0x018
abbrev rINT_FORCE : Nat := 0x01C
abbrev rDOUBT_RAW : Nat := 0x020
abbrev rDOUBT_EN : Nat := 0x024
abbrev rEVT_EN : Nat := 0x028
abbrev fPAGE_ID_TYPE : Fld := ⟨rPAGE_ID, 24, 8⟩
abbrev fPAGE_ID_INST : Fld := ⟨rPAGE_ID, 16, 8⟩
abbrev fPAGE_ID_MAJOR : Fld := ⟨rPAGE_ID, 8, 8⟩
abbrev fPAGE_ID_MINOR : Fld := ⟨rPAGE_ID, 0, 8⟩
abbrev fPAGE_CTRL_EN : Fld := ⟨rPAGE_CTRL, 0, 1⟩
abbrev fPAGE_CTRL_SRST : Fld := ⟨rPAGE_CTRL, 1, 1⟩
abbrev fPAGE_CTRL_LOCK : Fld := ⟨rPAGE_CTRL, 4, 1⟩
abbrev fPAGE_CTRL_FEAT_ACKED : Fld := ⟨rPAGE_CTRL, 8, 1⟩
abbrev fPAGE_STAT_READY : Fld := ⟨rPAGE_STAT, 0, 1⟩
abbrev fPAGE_STAT_BUSY : Fld := ⟨rPAGE_STAT, 1, 1⟩
abbrev fPAGE_STAT_DOUBT : Fld := ⟨rPAGE_STAT, 2, 1⟩
abbrev fPAGE_STAT_TILE_ERR : Fld := ⟨rPAGE_STAT, 3, 1⟩
abbrev fINT_RAW_BLK : Fld := ⟨rINT_RAW, 0, 30⟩
abbrev fINT_RAW_TILE : Fld := ⟨rINT_RAW, 30, 1⟩
abbrev fINT_RAW_LOCKED_WR : Fld := ⟨rINT_RAW, 31, 1⟩

/-! ### DIE -/
abbrev rDIE_DIE_ID : Nat := 0x040
abbrev rDIE_DOM_ON : Nat := 0x044
abbrev rDIE_INT_SUM : Nat := 0x048
abbrev rDIE_DOUBT_SUM : Nat := 0x04C
abbrev rDIE_UNMAP_CNT : Nat := 0x050
abbrev rDIE_LOCK_VIOL_CNT : Nat := 0x054
abbrev rDIE_BAD_ACC_CNT : Nat := 0x058
abbrev rDIE_DEV_FEAT (k : Nat) : Nat := 0x080 + 0x4 * k
abbrev rDIE_DEV_FEAT_ACK (k : Nat) : Nat := 0x090 + 0x4 * k
abbrev rDIE_FEAT_CTRL : Nat := 0x0A0
abbrev rDIE_DEV_INT : Nat := 0x0A4
abbrev rDIE_DEV_DOUBT : Nat := 0x0A8
abbrev rDIE_PWR_CTRL : Nat := 0x0C0
abbrev rDIE_PWR_STAT : Nat := 0x0C4
abbrev rDIE_DOM_REQ : Nat := 0x0C8
abbrev rDIE_LIGHT_RET : Nat := 0x0CC
abbrev rDIE_WAKE_CFG : Nat := 0x0D0
abbrev rDIE_WAKE_AT_LO : Nat := 0x0D4
abbrev rDIE_WAKE_AT_HI : Nat := 0x0D8
abbrev rDIE_RST_CTRL : Nat := 0x0DC
abbrev rDIE_RST_CAUSE : Nat := 0x0E0
abbrev rDIE_AVS_STAT : Nat := 0x0E4
abbrev rDIE_AVS_ERR_CNT : Nat := 0x0E8
abbrev fDIE_DIE_ID_ID : Fld := ⟨rDIE_DIE_ID, 0, 3⟩
abbrev fDIE_DIE_ID_STEP : Fld := ⟨rDIE_DIE_ID, 8, 8⟩
abbrev fDIE_DOM_ON_ON : Fld := ⟨rDIE_DOM_ON, 0, 4⟩
abbrev fDIE_INT_SUM_SUM : Fld := ⟨rDIE_INT_SUM, 0, 21⟩
abbrev fDIE_DOUBT_SUM_SUM : Fld := ⟨rDIE_DOUBT_SUM, 0, 21⟩
abbrev fDIE_FEAT_CTRL_COMMIT : Fld := ⟨rDIE_FEAT_CTRL, 0, 1⟩
abbrev fDIE_FEAT_CTRL_COMMITTED : Fld := ⟨rDIE_FEAT_CTRL, 1, 1⟩
abbrev fDIE_DEV_INT_DIE : Fld := ⟨rDIE_DEV_INT, 0, 8⟩
abbrev fDIE_DEV_DOUBT_DIE : Fld := ⟨rDIE_DEV_DOUBT, 0, 8⟩
abbrev fDIE_PWR_CTRL_REQ : Fld := ⟨rDIE_PWR_CTRL, 0, 2⟩
abbrev fDIE_PWR_CTRL_GO : Fld := ⟨rDIE_PWR_CTRL, 31, 1⟩
abbrev fDIE_PWR_STAT_STATE : Fld := ⟨rDIE_PWR_STAT, 0, 2⟩
abbrev fDIE_PWR_STAT_BUSY : Fld := ⟨rDIE_PWR_STAT, 2, 1⟩
abbrev fDIE_PWR_STAT_ERR : Fld := ⟨rDIE_PWR_STAT, 4, 3⟩
abbrev fDIE_PWR_STAT_LAST_WAKE : Fld := ⟨rDIE_PWR_STAT, 8, 5⟩
abbrev fDIE_DOM_REQ_PORT : Fld := ⟨rDIE_DOM_REQ, 0, 12⟩
abbrev fDIE_DOM_REQ_HC : Fld := ⟨rDIE_DOM_REQ, 12, 1⟩
abbrev fDIE_DOM_REQ_HK : Fld := ⟨rDIE_DOM_REQ, 13, 1⟩
abbrev fDIE_DOM_REQ_GB : Fld := ⟨rDIE_DOM_REQ, 14, 1⟩
abbrev fDIE_LIGHT_RET_DOM : Fld := ⟨rDIE_LIGHT_RET, 0, 15⟩
abbrev fDIE_WAKE_CFG_SRC : Fld := ⟨rDIE_WAKE_CFG, 0, 5⟩
abbrev fDIE_RST_CTRL_WARM : Fld := ⟨rDIE_RST_CTRL, 0, 1⟩
abbrev fDIE_RST_CTRL_ISLAND : Fld := ⟨rDIE_RST_CTRL, 1, 1⟩
abbrev fDIE_RST_CTRL_ISL_DIE : Fld := ⟨rDIE_RST_CTRL, 4, 3⟩
abbrev fDIE_RST_CTRL_ISL : Fld := ⟨rDIE_RST_CTRL, 8, 4⟩
abbrev fDIE_RST_CTRL_ERR : Fld := ⟨rDIE_RST_CTRL, 12, 2⟩
abbrev fDIE_RST_CAUSE_KIND : Fld := ⟨rDIE_RST_CAUSE, 0, 4⟩
abbrev fDIE_RST_CAUSE_CAUSE : Fld := ⟨rDIE_RST_CAUSE, 8, 8⟩
abbrev fDIE_RST_CAUSE_DIE : Fld := ⟨rDIE_RST_CAUSE, 16, 3⟩
abbrev fDIE_RST_CAUSE_ISL : Fld := ⟨rDIE_RST_CAUSE, 24, 4⟩
abbrev fDIE_AVS_STAT_FAIL : Fld := ⟨rDIE_AVS_STAT, 0, 5⟩
abbrev fDIE_AVS_STAT_UNCONF : Fld := ⟨rDIE_AVS_STAT, 8, 5⟩

/-! ### TBE -/
abbrev rTBE_CFG : Nat := 0x040
abbrev rTBE_STAT : Nat := 0x044
abbrev rTBE_TIME_SEC_LO : Nat := 0x048
abbrev rTBE_TIME_SEC_HI : Nat := 0x04C
abbrev rTBE_TIME_NS : Nat := 0x050
abbrev rTBE_TIME_FRAC : Nat := 0x054
abbrev rTBE_PC64_LO : Nat := 0x058
abbrev rTBE_PC64_HI : Nat := 0x05C
abbrev rTBE_MONO_LO : Nat := 0x060
abbrev rTBE_MONO_HI : Nat := 0x064
abbrev rTBE_RATE_LO : Nat := 0x068
abbrev rTBE_RATE_HI : Nat := 0x06C
abbrev rTBE_PULL : Nat := 0x070
abbrev rTBE_SLEW_LIMIT : Nat := 0x074
abbrev rTBE_CLAMP_CNT : Nat := 0x078
abbrev rTBE_ANCHOR_GEN : Nat := 0x07C
abbrev rTBE_ANCHOR_PC_LO : Nat := 0x080
abbrev rTBE_ANCHOR_PC_HI : Nat := 0x084
abbrev rTBE_ANCHOR_SEC_LO : Nat := 0x088
abbrev rTBE_ANCHOR_SEC_HI : Nat := 0x08C
abbrev rTBE_ANCHOR_NS : Nat := 0x090
abbrev rTBE_ANCHOR_FRAC : Nat := 0x094
abbrev rTBE_UTC_OFFSET : Nat := 0x098
abbrev rTBE_LEAP_SCHED : Nat := 0x09C
abbrev rTBE_LEAP_SCHED_HI : Nat := 0x0A0
abbrev rTBE_SMEAR : Nat := 0x0A4
abbrev rTBE_SMEAR_NOW : Nat := 0x0A8
abbrev rTBE_NTP_ERA : Nat := 0x0AC
abbrev rTBE_STEP_SEC_LO : Nat := 0x0B0
abbrev rTBE_STEP_SEC_HI : Nat := 0x0B4
abbrev rTBE_STEP_NS : Nat := 0x0B8
abbrev rTBE_STEP_FRAC : Nat := 0x0BC
abbrev rTBE_STEP_CTRL : Nat := 0x0C0
abbrev rTBE_STEP_AT_LO : Nat := 0x0C4
abbrev rTBE_STEP_AT_HI : Nat := 0x0C8
abbrev rTBE_STEP_CNT : Nat := 0x0CC
abbrev rTBE_RPL_CFG : Nat := 0x0D0
abbrev rTBE_LANE (k : Nat) : Nat := 0x0E0 + 0x4 * k
abbrev fTBE_CFG_UTC_SRC : Fld := ⟨rTBE_CFG, 0, 1⟩
abbrev fTBE_CFG_SW_STEP_EN : Fld := ⟨rTBE_CFG, 1, 1⟩
abbrev fTBE_STAT_TIME_SET : Fld := ⟨rTBE_STAT, 0, 1⟩
abbrev fTBE_STAT_LEAP_DAY : Fld := ⟨rTBE_STAT, 1, 1⟩
abbrev fTBE_STAT_SMEARING : Fld := ⟨rTBE_STAT, 2, 1⟩
abbrev fTBE_STAT_STEP_PEND : Fld := ⟨rTBE_STAT, 3, 1⟩
abbrev fTBE_TIME_SEC_HI_SEC : Fld := ⟨rTBE_TIME_SEC_HI, 0, 16⟩
abbrev fTBE_TIME_NS_NS : Fld := ⟨rTBE_TIME_NS, 0, 30⟩
abbrev fTBE_TIME_FRAC_FRAC : Fld := ⟨rTBE_TIME_FRAC, 0, 16⟩
abbrev fTBE_SLEW_LIMIT_PPB : Fld := ⟨rTBE_SLEW_LIMIT, 0, 17⟩
abbrev fTBE_ANCHOR_GEN_SCALE : Fld := ⟨rTBE_ANCHOR_GEN, 0, 4⟩
abbrev fTBE_ANCHOR_GEN_UPD : Fld := ⟨rTBE_ANCHOR_GEN, 4, 28⟩
abbrev fTBE_ANCHOR_SEC_HI_SEC : Fld := ⟨rTBE_ANCHOR_SEC_HI, 0, 16⟩
abbrev fTBE_ANCHOR_NS_NS : Fld := ⟨rTBE_ANCHOR_NS, 0, 30⟩
abbrev fTBE_ANCHOR_FRAC_FRAC : Fld := ⟨rTBE_ANCHOR_FRAC, 0, 16⟩
abbrev fTBE_UTC_OFFSET_SEC : Fld := ⟨rTBE_UTC_OFFSET, 0, 16⟩
abbrev fTBE_UTC_OFFSET_VALID : Fld := ⟨rTBE_UTC_OFFSET, 31, 1⟩
abbrev fTBE_LEAP_SCHED_HI_TAI_SEC : Fld := ⟨rTBE_LEAP_SCHED_HI, 0, 16⟩
abbrev fTBE_LEAP_SCHED_HI_DIR : Fld := ⟨rTBE_LEAP_SCHED_HI, 16, 1⟩
abbrev fTBE_LEAP_SCHED_HI_VALID : Fld := ⟨rTBE_LEAP_SCHED_HI, 31, 1⟩
abbrev fTBE_SMEAR_EN : Fld := ⟨rTBE_SMEAR, 0, 1⟩
abbrev fTBE_SMEAR_NOW_NS : Fld := ⟨rTBE_SMEAR_NOW, 0, 30⟩
abbrev fTBE_NTP_ERA_ERA : Fld := ⟨rTBE_NTP_ERA, 0, 8⟩
abbrev fTBE_STEP_SEC_HI_SEC : Fld := ⟨rTBE_STEP_SEC_HI, 0, 16⟩
abbrev fTBE_STEP_NS_NS : Fld := ⟨rTBE_STEP_NS, 0, 30⟩
abbrev fTBE_STEP_FRAC_FRAC : Fld := ⟨rTBE_STEP_FRAC, 0, 16⟩
abbrev fTBE_STEP_CTRL_GO : Fld := ⟨rTBE_STEP_CTRL, 0, 1⟩
abbrev fTBE_STEP_CTRL_MODE : Fld := ⟨rTBE_STEP_CTRL, 1, 1⟩
abbrev fTBE_STEP_CTRL_SIGN : Fld := ⟨rTBE_STEP_CTRL, 2, 1⟩
abbrev fTBE_STEP_CTRL_PEND : Fld := ⟨rTBE_STEP_CTRL, 8, 1⟩
abbrev fTBE_STEP_CTRL_REFUSED : Fld := ⟨rTBE_STEP_CTRL, 9, 1⟩
abbrev fTBE_STEP_CTRL_BY_DSC : Fld := ⟨rTBE_STEP_CTRL, 10, 1⟩
abbrev fTBE_RPL_CFG_BW : Fld := ⟨rTBE_RPL_CFG, 0, 2⟩
abbrev fTBE_RPL_CFG_ALIGN_LIMIT : Fld := ⟨rTBE_RPL_CFG, 8, 8⟩
abbrev fTBE_RPL_CFG_RESYNC : Fld := ⟨rTBE_RPL_CFG, 16, 8⟩
abbrev fTBE_LANE_ERR (k : Nat) : Fld := ⟨rTBE_LANE k, 0, 16⟩
abbrev fTBE_LANE_DLY (k : Nat) : Fld := ⟨rTBE_LANE k, 16, 12⟩
abbrev fTBE_LANE_LOCKED (k : Nat) : Fld := ⟨rTBE_LANE k, 30, 1⟩
abbrev fTBE_LANE_ALIGN (k : Nat) : Fld := ⟨rTBE_LANE k, 31, 1⟩

/-! ### LTR -/
abbrev rLTR_CFG : Nat := 0x040
abbrev rLTR_STAT : Nat := 0x044
abbrev rLTR_ASYM : Nat := 0x048
abbrev rLTR_LANE_DLY : Nat := 0x04C
abbrev rLTR_ERR : Nat := 0x050
abbrev rLTR_ERR_MAX : Nat := 0x054
abbrev rLTR_RATE_TRIM : Nat := 0x058
abbrev rLTR_MISS_CNT : Nat := 0x05C
abbrev rLTR_RESYNC_CNT : Nat := 0x060
abbrev rLTR_TIME_SEC_LO : Nat := 0x064
abbrev rLTR_TIME_SEC_HI : Nat := 0x068
abbrev rLTR_TIME_NS : Nat := 0x06C
abbrev rLTR_TIME_FRAC : Nat := 0x070
abbrev rLTR_PC64_LO : Nat := 0x074
abbrev rLTR_PC64_HI : Nat := 0x078
abbrev fLTR_CFG_BW : Fld := ⟨rLTR_CFG, 0, 2⟩
abbrev fLTR_CFG_ALIGN_LIMIT : Fld := ⟨rLTR_CFG, 8, 8⟩
abbrev fLTR_CFG_RESYNC : Fld := ⟨rLTR_CFG, 16, 8⟩
abbrev fLTR_STAT_LOCKED : Fld := ⟨rLTR_STAT, 0, 1⟩
abbrev fLTR_STAT_ACQ : Fld := ⟨rLTR_STAT, 1, 1⟩
abbrev fLTR_STAT_SCALE : Fld := ⟨rLTR_STAT, 4, 4⟩
abbrev fLTR_ASYM_PS : Fld := ⟨rLTR_ASYM, 0, 16⟩
abbrev fLTR_LANE_DLY_PS : Fld := ⟨rLTR_LANE_DLY, 0, 16⟩
abbrev fLTR_ERR_PS : Fld := ⟨rLTR_ERR, 0, 16⟩
abbrev fLTR_ERR_MAX_PS : Fld := ⟨rLTR_ERR_MAX, 0, 16⟩
abbrev fLTR_TIME_SEC_HI_SEC : Fld := ⟨rLTR_TIME_SEC_HI, 0, 16⟩
abbrev fLTR_TIME_NS_NS : Fld := ⟨rLTR_TIME_NS, 0, 30⟩
abbrev fLTR_TIME_FRAC_FRAC : Fld := ⟨rLTR_TIME_FRAC, 0, 16⟩

/-! ### DSC -/
abbrev rDSC_CFG : Nat := 0x040
abbrev rDSC_STAT : Nat := 0x044
abbrev rDSC_CTRL : Nat := 0x048
abbrev rDSC_LOOP : Nat := 0x04C
abbrev rDSC_LOCK_THRESH : Nat := 0x050
abbrev rDSC_AGREE_LIMIT : Nat := 0x054
abbrev rDSC_HANDOVER_SLEW : Nat := 0x058
abbrev rDSC_HANDOVER_OFS : Nat := 0x05C
abbrev rDSC_ACQ_SLEW : Nat := 0x060
abbrev rDSC_STEP_THRESH : Nat := 0x064
abbrev rDSC_HOLD_LIMIT : Nat := 0x068
abbrev rDSC_UNC : Nat := 0x06C
abbrev rDSC_PATHCHG_THRESH : Nat := 0x070
abbrev rDSC_QUARANTINE : Nat := 0x074
abbrev rDSC_READMIT_MARGIN : Nat := 0x078
abbrev rDSC_AGE_BOUND : Nat := 0x07C
abbrev rDSC_FREQ : Nat := 0x080
abbrev rDSC_FREQ_SIG : Nat := 0x084
abbrev rDSC_PHASE_ERR : Nat := 0x088
abbrev rDSC_HOLD_TIME : Nat := 0x08C
abbrev rDSC_MODEL_FREQ : Nat := 0x090
abbrev rDSC_MODEL_AGE : Nat := 0x094
abbrev rDSC_MODEL_TCOEF : Nat := 0x098
abbrev rDSC_MODEL_STAT : Nat := 0x09C
abbrev rDSC_HANDOVER_CNT : Nat := 0x0A0
abbrev rDSC_PATHCHG_CNT : Nat := 0x0A4
abbrev fDSC_CFG_STEP_EN : Fld := ⟨rDSC_CFG, 0, 1⟩
abbrev fDSC_CFG_REVERT : Fld := ⟨rDSC_CFG, 1, 1⟩
abbrev fDSC_CFG_READMIT : Fld := ⟨rDSC_CFG, 2, 1⟩
abbrev fDSC_CFG_FREQ_ENS : Fld := ⟨rDSC_CFG, 3, 1⟩
abbrev fDSC_STAT_STATE : Fld := ⟨rDSC_STAT, 0, 3⟩
abbrev fDSC_STAT_PRIMARY : Fld := ⟨rDSC_STAT, 4, 3⟩
abbrev fDSC_STAT_HOLD_READY : Fld := ⟨rDSC_STAT, 8, 1⟩
abbrev fDSC_STAT_QUAR : Fld := ⟨rDSC_STAT, 9, 1⟩
abbrev fDSC_STAT_HELD : Fld := ⟨rDSC_STAT, 10, 1⟩
abbrev fDSC_STAT_HO_SLEW : Fld := ⟨rDSC_STAT, 11, 1⟩
abbrev fDSC_CTRL_FREERUN : Fld := ⟨rDSC_CTRL, 0, 1⟩
abbrev fDSC_CTRL_HOLD : Fld := ⟨rDSC_CTRL, 1, 1⟩
abbrev fDSC_CTRL_SEL : Fld := ⟨rDSC_CTRL, 4, 3⟩
abbrev fDSC_LOOP_ACQ_TAU : Fld := ⟨rDSC_LOOP, 0, 8⟩
abbrev fDSC_LOOP_LOCK_TAU : Fld := ⟨rDSC_LOOP, 8, 16⟩
abbrev fDSC_LOCK_THRESH_ENTER : Fld := ⟨rDSC_LOCK_THRESH, 0, 16⟩
abbrev fDSC_LOCK_THRESH_EXIT : Fld := ⟨rDSC_LOCK_THRESH, 16, 16⟩
abbrev fDSC_AGREE_LIMIT_NS : Fld := ⟨rDSC_AGREE_LIMIT, 0, 16⟩
abbrev fDSC_AGREE_LIMIT_UPD : Fld := ⟨rDSC_AGREE_LIMIT, 16, 8⟩
abbrev fDSC_HANDOVER_SLEW_RATE : Fld := ⟨rDSC_HANDOVER_SLEW, 0, 16⟩
abbrev fDSC_HANDOVER_SLEW_MODE : Fld := ⟨rDSC_HANDOVER_SLEW, 16, 1⟩
abbrev fDSC_ACQ_SLEW_NS_S : Fld := ⟨rDSC_ACQ_SLEW, 0, 16⟩
abbrev fDSC_PATHCHG_THRESH_NS : Fld := ⟨rDSC_PATHCHG_THRESH, 0, 16⟩
abbrev fDSC_PATHCHG_THRESH_CONFIRM : Fld := ⟨rDSC_PATHCHG_THRESH, 16, 4⟩
abbrev fDSC_QUARANTINE_SEC : Fld := ⟨rDSC_QUARANTINE, 0, 16⟩
abbrev fDSC_QUARANTINE_POLICY : Fld := ⟨rDSC_QUARANTINE, 16, 1⟩
abbrev fDSC_READMIT_MARGIN_NS : Fld := ⟨rDSC_READMIT_MARGIN, 0, 16⟩
abbrev fDSC_AGE_BOUND_MPPB_D : Fld := ⟨rDSC_AGE_BOUND, 0, 16⟩
abbrev fDSC_FREQ_SIG_PPT : Fld := ⟨rDSC_FREQ_SIG, 0, 16⟩
abbrev fDSC_MODEL_AGE_RATE : Fld := ⟨rDSC_MODEL_AGE, 0, 16⟩
abbrev fDSC_MODEL_AGE_BOUND : Fld := ⟨rDSC_MODEL_AGE, 16, 16⟩
abbrev fDSC_MODEL_TCOEF_TCOEF : Fld := ⟨rDSC_MODEL_TCOEF, 0, 16⟩
abbrev fDSC_MODEL_TCOEF_TRES : Fld := ⟨rDSC_MODEL_TCOEF, 16, 16⟩
abbrev fDSC_MODEL_STAT_SRC : Fld := ⟨rDSC_MODEL_STAT, 0, 2⟩
abbrev fDSC_MODEL_STAT_LOCK_HOURS : Fld := ⟨rDSC_MODEL_STAT, 8, 16⟩
abbrev fDSC_MODEL_STAT_HOLD_READY : Fld := ⟨rDSC_MODEL_STAT, 24, 1⟩

/-! ### REF -/
abbrev rREF_EXT_CFG : Nat := 0x040
abbrev rREF_LATE_CNT : Nat := 0x044
abbrev rREF_SLOT_CMD : Nat := 0x048
abbrev rREF_OUTLIER_CNT : Nat := 0x04C
abbrev rREF_SLOT_CFG (k : Nat) : Nat := 0x080 + 0x20 * k
abbrev rREF_SLOT_DELAY (k : Nat) : Nat := 0x084 + 0x20 * k
abbrev rREF_SLOT_ACC (k : Nat) : Nat := 0x088 + 0x20 * k
abbrev rREF_SLOT_STAT (k : Nat) : Nat := 0x08C + 0x20 * k
abbrev rREF_SLOT_OFS (k : Nat) : Nat := 0x090 + 0x20 * k
abbrev rREF_SLOT_FOFS (k : Nat) : Nat := 0x094 + 0x20 * k
abbrev rREF_SLOT_SIG (k : Nat) : Nat := 0x098 + 0x20 * k
abbrev rREF_SLOT_BIAS (k : Nat) : Nat := 0x09C + 0x20 * k
abbrev fREF_EXT_CFG_PPS_POL0 : Fld := ⟨rREF_EXT_CFG, 0, 1⟩
abbrev fREF_EXT_CFG_PPS_POL1 : Fld := ⟨rREF_EXT_CFG, 8, 1⟩
abbrev fREF_EXT_CFG_FREQ_SEL0 : Fld := ⟨rREF_EXT_CFG, 1, 3⟩
abbrev fREF_EXT_CFG_FREQ_SEL1 : Fld := ⟨rREF_EXT_CFG, 9, 3⟩
abbrev fREF_LATE_CNT_PTPA : Fld := ⟨rREF_LATE_CNT, 0, 16⟩
abbrev fREF_LATE_CNT_PTPB : Fld := ⟨rREF_LATE_CNT, 16, 16⟩
abbrev fREF_SLOT_CMD_RELEASE : Fld := ⟨rREF_SLOT_CMD, 0, 6⟩
abbrev fREF_SLOT_CMD_BIAS_CLR : Fld := ⟨rREF_SLOT_CMD, 8, 6⟩
abbrev fREF_OUTLIER_CNT_PTPA : Fld := ⟨rREF_OUTLIER_CNT, 0, 16⟩
abbrev fREF_OUTLIER_CNT_PTPB : Fld := ⟨rREF_OUTLIER_CNT, 16, 16⟩
abbrev fREF_SLOT_CFG_EN (k : Nat) : Fld := ⟨rREF_SLOT_CFG k, 0, 1⟩
abbrev fREF_SLOT_CFG_PRIO (k : Nat) : Fld := ⟨rREF_SLOT_CFG k, 1, 3⟩
abbrev fREF_SLOT_CFG_ENS_EN (k : Nat) : Fld := ⟨rREF_SLOT_CFG k, 4, 1⟩
abbrev fREF_SLOT_CFG_QUAL (k : Nat) : Fld := ⟨rREF_SLOT_CFG k, 8, 8⟩
abbrev fREF_SLOT_CFG_ACC_SRC (k : Nat) : Fld := ⟨rREF_SLOT_CFG k, 16, 1⟩
abbrev fREF_SLOT_ACC_NS (k : Nat) : Fld := ⟨rREF_SLOT_ACC k, 0, 16⟩
abbrev fREF_SLOT_STAT_STATE (k : Nat) : Fld := ⟨rREF_SLOT_STAT k, 0, 3⟩
abbrev fREF_SLOT_STAT_PRIMARY (k : Nat) : Fld := ⟨rREF_SLOT_STAT k, 3, 1⟩
abbrev fREF_SLOT_STAT_TOD (k : Nat) : Fld := ⟨rREF_SLOT_STAT k, 4, 1⟩
abbrev fREF_SLOT_STAT_QUAL_LEFT (k : Nat) : Fld := ⟨rREF_SLOT_STAT k, 8, 8⟩
abbrev fREF_SLOT_STAT_WEIGHT (k : Nat) : Fld := ⟨rREF_SLOT_STAT k, 16, 8⟩
abbrev fREF_SLOT_SIG_SX (k : Nat) : Fld := ⟨rREF_SLOT_SIG k, 0, 16⟩
abbrev fREF_SLOT_SIG_SY (k : Nat) : Fld := ⟨rREF_SLOT_SIG k, 16, 16⟩

/-! ### OVN -/
abbrev rOVN_CFG : Nat := 0x040
abbrev rOVN_STAT : Nat := 0x044
abbrev rOVN_CTRL : Nat := 0x048
abbrev rOVN_SETPOINT : Nat := 0x04C
abbrev rOVN_TEMP : Nat := 0x050
abbrev rOVN_HEAT : Nat := 0x054
abbrev rOVN_SETTLE_CFG : Nat := 0x058
abbrev rOVN_OSC_MEAS : Nat := 0x05C
abbrev rOVN_XCMP_SIG : Nat := 0x060
abbrev rOVN_TUNE : Nat := 0x064
abbrev rOVN_TUNE_CFG : Nat := 0x068
abbrev rOVN_SWITCH_CNT : Nat := 0x06C
abbrev rOVN_WARM_TIME : Nat := 0x070
abbrev rOVN_CHAR : Nat := 0x074
abbrev fOVN_CFG_FSRC : Fld := ⟨rOVN_CFG, 0, 1⟩
abbrev fOVN_CFG_OSC_RATE : Fld := ⟨rOVN_CFG, 1, 3⟩
abbrev fOVN_CFG_FALLBACK : Fld := ⟨rOVN_CFG, 4, 1⟩
abbrev fOVN_CFG_AUTO_RETURN : Fld := ⟨rOVN_CFG, 5, 1⟩
abbrev fOVN_CFG_TUNE_MODE : Fld := ⟨rOVN_CFG, 6, 2⟩
abbrev fOVN_STAT_SETTLED : Fld := ⟨rOVN_STAT, 0, 1⟩
abbrev fOVN_STAT_ACTIVE_SRC : Fld := ⟨rOVN_STAT, 1, 1⟩
abbrev fOVN_STAT_OSC_PRESENT : Fld := ⟨rOVN_STAT, 2, 1⟩
abbrev fOVN_STAT_MEAS_VALID : Fld := ⟨rOVN_STAT, 3, 1⟩
abbrev fOVN_STAT_BACKUP : Fld := ⟨rOVN_STAT, 4, 1⟩
abbrev fOVN_STAT_UNCAL : Fld := ⟨rOVN_STAT, 5, 1⟩
abbrev fOVN_CTRL_RETRY : Fld := ⟨rOVN_CTRL, 0, 1⟩
abbrev fOVN_SETPOINT_MC : Fld := ⟨rOVN_SETPOINT, 0, 18⟩
abbrev fOVN_TEMP_MC : Fld := ⟨rOVN_TEMP, 0, 24⟩
abbrev fOVN_HEAT_MW : Fld := ⟨rOVN_HEAT, 0, 12⟩
abbrev fOVN_SETTLE_CFG_BAND : Fld := ⟨rOVN_SETTLE_CFG, 0, 8⟩
abbrev fOVN_SETTLE_CFG_TIME : Fld := ⟨rOVN_SETTLE_CFG, 8, 16⟩
abbrev fOVN_XCMP_SIG_PPT : Fld := ⟨rOVN_XCMP_SIG, 0, 16⟩
abbrev fOVN_TUNE_CODE : Fld := ⟨rOVN_TUNE, 0, 16⟩
abbrev fOVN_TUNE_CFG_GAIN : Fld := ⟨rOVN_TUNE_CFG, 0, 16⟩
abbrev fOVN_TUNE_CFG_CENTRE_PPT : Fld := ⟨rOVN_TUNE_CFG, 16, 16⟩
abbrev fOVN_WARM_TIME_SEC : Fld := ⟨rOVN_WARM_TIME, 0, 16⟩
abbrev fOVN_CHAR_ID : Fld := ⟨rOVN_CHAR, 0, 16⟩
abbrev fOVN_CHAR_VER : Fld := ⟨rOVN_CHAR, 16, 8⟩

/-! ### GRX -/
abbrev rGRX_CFG : Nat := 0x040
abbrev rGRX_STAT : Nat := 0x044
abbrev rGRX_ANT_CFG : Nat := 0x048
abbrev rGRX_ANT_STAT : Nat := 0x04C
abbrev rGRX_ANT_MEAS : Nat := 0x050
abbrev rGRX_AGC_CFG : Nat := 0x054
abbrev rGRX_AGC : Nat := 0x058
abbrev rGRX_SHORT_CNT : Nat := 0x05C
abbrev fGRX_CFG_FE_EN : Fld := ⟨rGRX_CFG, 0, 1⟩
abbrev fGRX_CFG_BW : Fld := ⟨rGRX_CFG, 1, 2⟩
abbrev fGRX_STAT_GF_ON : Fld := ⟨rGRX_STAT, 0, 1⟩
abbrev fGRX_STAT_PLL_LOCK : Fld := ⟨rGRX_STAT, 1, 1⟩
abbrev fGRX_STAT_WARMUP : Fld := ⟨rGRX_STAT, 2, 1⟩
abbrev fGRX_ANT_CFG_MODE : Fld := ⟨rGRX_ANT_CFG, 0, 2⟩
abbrev fGRX_ANT_CFG_VSEL : Fld := ⟨rGRX_ANT_CFG, 2, 1⟩
abbrev fGRX_ANT_CFG_RETRY : Fld := ⟨rGRX_ANT_CFG, 8, 8⟩
abbrev fGRX_ANT_CFG_OPEN_MA : Fld := ⟨rGRX_ANT_CFG, 16, 8⟩
abbrev fGRX_ANT_STAT_STATE : Fld := ⟨rGRX_ANT_STAT, 0, 2⟩
abbrev fGRX_ANT_STAT_RAMP : Fld := ⟨rGRX_ANT_STAT, 2, 1⟩
abbrev fGRX_ANT_MEAS_MA : Fld := ⟨rGRX_ANT_MEAS, 0, 8⟩
abbrev fGRX_ANT_MEAS_MV : Fld := ⟨rGRX_ANT_MEAS, 8, 16⟩
abbrev fGRX_AGC_CFG_TARGET : Fld := ⟨rGRX_AGC_CFG, 0, 8⟩
abbrev fGRX_AGC_CFG_FREEZE : Fld := ⟨rGRX_AGC_CFG, 8, 1⟩
abbrev fGRX_AGC_CFG_GAIN_SET : Fld := ⟨rGRX_AGC_CFG, 16, 7⟩
abbrev fGRX_AGC_GAIN : Fld := ⟨rGRX_AGC, 0, 7⟩
abbrev fGRX_AGC_OUTER : Fld := ⟨rGRX_AGC, 8, 8⟩
abbrev fGRX_AGC_CLIP : Fld := ⟨rGRX_AGC, 16, 8⟩

/-! ### ACQ -/
abbrev rACQ_CFG : Nat := 0x040
abbrev rACQ_STAT : Nat := 0x044
abbrev rACQ_CTRL : Nat := 0x048
abbrev rACQ_AUTO_CFG : Nat := 0x04C
abbrev rACQ_THRESH : Nat := 0x050
abbrev rACQ_JOB (k : Nat) : Nat := 0x054 + 0x4 * k
abbrev rACQ_RES (k : Nat) : Nat := 0x064 + 0x4 * k
abbrev rACQ_DROP_CNT : Nat := 0x078
abbrev rACQ_JOB_CNT : Nat := 0x07C
abbrev rACQ_DET_CNT : Nat := 0x080
abbrev fACQ_CFG_AUTO_EN : Fld := ⟨rACQ_CFG, 0, 1⟩
abbrev fACQ_CFG_AUTO_ASSIGN : Fld := ⟨rACQ_CFG, 1, 1⟩
abbrev fACQ_CFG_CLK_COMP : Fld := ⟨rACQ_CFG, 2, 1⟩
abbrev fACQ_CFG_VERIFY : Fld := ⟨rACQ_CFG, 3, 1⟩
abbrev fACQ_STAT_BUSY : Fld := ⟨rACQ_STAT, 0, 1⟩
abbrev fACQ_STAT_AUTO_ACTIVE : Fld := ⟨rACQ_STAT, 1, 1⟩
abbrev fACQ_STAT_JOBQ : Fld := ⟨rACQ_STAT, 8, 5⟩
abbrev fACQ_STAT_RES_LVL : Fld := ⟨rACQ_STAT, 16, 7⟩
abbrev fACQ_CTRL_PUSH : Fld := ⟨rACQ_CTRL, 0, 1⟩
abbrev fACQ_CTRL_FLUSH : Fld := ⟨rACQ_CTRL, 1, 1⟩
abbrev fACQ_AUTO_CFG_SYS_EN : Fld := ⟨rACQ_AUTO_CFG, 0, 3⟩
abbrev fACQ_AUTO_CFG_NCOH_CA : Fld := ⟨rACQ_AUTO_CFG, 8, 8⟩
abbrev fACQ_AUTO_CFG_NCOH_E1 : Fld := ⟨rACQ_AUTO_CFG, 16, 8⟩
abbrev fACQ_AUTO_CFG_DOPP_KHZ : Fld := ⟨rACQ_AUTO_CFG, 24, 8⟩
abbrev fACQ_THRESH_DET : Fld := ⟨rACQ_THRESH, 0, 8⟩
abbrev fACQ_THRESH_VER : Fld := ⟨rACQ_THRESH, 8, 8⟩
abbrev fACQ_JOB0_SYS : Fld := ⟨rACQ_JOB 0, 0, 2⟩
abbrev fACQ_JOB0_PRN : Fld := ⟨rACQ_JOB 0, 8, 8⟩
abbrev fACQ_JOB0_SRC : Fld := ⟨rACQ_JOB 0, 16, 1⟩
abbrev fACQ_JOB0_WINDOW : Fld := ⟨rACQ_JOB 0, 17, 1⟩
abbrev fACQ_JOB0_USE_UNC : Fld := ⟨rACQ_JOB 0, 18, 1⟩
abbrev fACQ_JOB0_TCOH : Fld := ⟨rACQ_JOB 0, 20, 4⟩
abbrev fACQ_JOB0_NCOH : Fld := ⟨rACQ_JOB 0, 24, 7⟩
abbrev fACQ_JOB2_DOPP_R : Fld := ⟨rACQ_JOB 2, 0, 16⟩
abbrev fACQ_JOB2_CODE_W : Fld := ⟨rACQ_JOB 2, 16, 16⟩
abbrev fACQ_JOB3_CODE_C : Fld := ⟨rACQ_JOB 3, 0, 23⟩
abbrev fACQ_RES0_SYS : Fld := ⟨rACQ_RES 0, 0, 2⟩
abbrev fACQ_RES0_PRN : Fld := ⟨rACQ_RES 0, 8, 8⟩
abbrev fACQ_RES0_DET : Fld := ⟨rACQ_RES 0, 16, 1⟩
abbrev fACQ_RES0_VERIFIED : Fld := ⟨rACQ_RES 0, 17, 1⟩
abbrev fACQ_RES0_DUP : Fld := ⟨rACQ_RES 0, 18, 1⟩
abbrev fACQ_RES0_NOCH : Fld := ⟨rACQ_RES 0, 19, 1⟩
abbrev fACQ_RES0_REFUSED : Fld := ⟨rACQ_RES 0, 20, 1⟩
abbrev fACQ_RES0_AUTO : Fld := ⟨rACQ_RES 0, 21, 1⟩
abbrev fACQ_RES0_CH : Fld := ⟨rACQ_RES 0, 24, 6⟩
abbrev fACQ_RES0_ASSIGNED : Fld := ⟨rACQ_RES 0, 30, 1⟩
abbrev fACQ_RES2_CODE : Fld := ⟨rACQ_RES 2, 0, 23⟩
abbrev fACQ_RES2_CN0 : Fld := ⟨rACQ_RES 2, 24, 8⟩

/-! ### TRK -/
abbrev rTRK_CFG : Nat := 0x040
abbrev rTRK_LOOP : Nat := 0x044
abbrev rTRK_LOCK : Nat := 0x048
abbrev rTRK_SHAPE : Nat := 0x04C
abbrev rTRK_PROMOTE : Nat := 0x050
abbrev rTRK_PROMOTE_STAT : Nat := 0x054
abbrev rTRK_ACTIVE_LO : Nat := 0x058
abbrev rTRK_ACTIVE_HI : Nat := 0x05C
abbrev rTRK_ACTIVE_T : Nat := 0x060
abbrev rTRK_EPOCH_SEQ : Nat := 0x064
abbrev rTRK_EPOCH_PC_LO : Nat := 0x068
abbrev rTRK_EPOCH_PC_HI : Nat := 0x06C
abbrev rTRK_LOST_CNT : Nat := 0x070
abbrev rTRK_PROMOTE_CNT : Nat := 0x074
abbrev fTRK_CFG_SHAPE_EN : Fld := ⟨rTRK_CFG, 0, 1⟩
abbrev fTRK_CFG_STALE_MS : Fld := ⟨rTRK_CFG, 8, 8⟩
abbrev fTRK_LOOP_PLL_BW : Fld := ⟨rTRK_LOOP, 0, 8⟩
abbrev fTRK_LOOP_FLL_BW : Fld := ⟨rTRK_LOOP, 8, 8⟩
abbrev fTRK_LOOP_DLL_BW : Fld := ⟨rTRK_LOOP, 16, 8⟩
abbrev fTRK_LOOP_PULLIN_MS : Fld := ⟨rTRK_LOOP, 24, 8⟩
abbrev fTRK_LOCK_PLI_MIN : Fld := ⟨rTRK_LOCK, 0, 8⟩
abbrev fTRK_LOCK_CN0_MIN : Fld := ⟨rTRK_LOCK, 8, 8⟩
abbrev fTRK_LOCK_LOSS_MS : Fld := ⟨rTRK_LOCK, 16, 8⟩
abbrev fTRK_SHAPE_LIMIT : Fld := ⟨rTRK_SHAPE, 0, 16⟩
abbrev fTRK_SHAPE_SEC : Fld := ⟨rTRK_SHAPE, 16, 8⟩
abbrev fTRK_PROMOTE_SRC : Fld := ⟨rTRK_PROMOTE, 0, 7⟩
abbrev fTRK_PROMOTE_DST : Fld := ⟨rTRK_PROMOTE, 8, 7⟩
abbrev fTRK_PROMOTE_DIR : Fld := ⟨rTRK_PROMOTE, 16, 1⟩
abbrev fTRK_PROMOTE_GO : Fld := ⟨rTRK_PROMOTE, 31, 1⟩
abbrev fTRK_PROMOTE_STAT_PEND : Fld := ⟨rTRK_PROMOTE_STAT, 0, 1⟩
abbrev fTRK_PROMOTE_STAT_REJ : Fld := ⟨rTRK_PROMOTE_STAT, 1, 1⟩
abbrev fTRK_PROMOTE_STAT_REASON : Fld := ⟨rTRK_PROMOTE_STAT, 4, 3⟩
abbrev fTRK_ACTIVE_T_CH : Fld := ⟨rTRK_ACTIVE_T, 0, 16⟩

/-! ### SCH -/
abbrev rSCH_STAT : Nat := 0x040
abbrev rSCH_ID : Nat := 0x044
abbrev rSCH_CTRL : Nat := 0x048
abbrev rSCH_DOPP : Nat := 0x04C
abbrev rSCH_NOISE : Nat := 0x050
abbrev rSCH_MEAS_CODE : Nat := 0x070
abbrev rSCH_MEAS_MS : Nat := 0x074
abbrev rSCH_MEAS_CAR_LO : Nat := 0x078
abbrev rSCH_MEAS_CAR_HI : Nat := 0x07C
abbrev rSCH_MEAS_DOPP : Nat := 0x080
abbrev rSCH_MEAS_STAT : Nat := 0x084
abbrev rSCH_SLIP_CNT : Nat := 0x088
abbrev fSCH_STAT_STATE : Fld := ⟨rSCH_STAT, 0, 3⟩
abbrev fSCH_STAT_PLI_OK : Fld := ⟨rSCH_STAT, 3, 1⟩
abbrev fSCH_STAT_CN0_OK : Fld := ⟨rSCH_STAT, 4, 1⟩
abbrev fSCH_STAT_INV : Fld := ⟨rSCH_STAT, 5, 1⟩
abbrev fSCH_STAT_SC_SYNC : Fld := ⟨rSCH_STAT, 6, 1⟩
abbrev fSCH_STAT_NAVSYNC : Fld := ⟨rSCH_STAT, 7, 1⟩
abbrev fSCH_STAT_CN0 : Fld := ⟨rSCH_STAT, 8, 8⟩
abbrev fSCH_STAT_PLI : Fld := ⟨rSCH_STAT, 16, 8⟩
abbrev fSCH_STAT_SHAPE : Fld := ⟨rSCH_STAT, 24, 1⟩
abbrev fSCH_STAT_STALE : Fld := ⟨rSCH_STAT, 25, 1⟩
abbrev fSCH_ID_SYS : Fld := ⟨rSCH_ID, 0, 2⟩
abbrev fSCH_ID_PRN : Fld := ⟨rSCH_ID, 8, 8⟩
abbrev fSCH_ID_HOLDS : Fld := ⟨rSCH_ID, 16, 1⟩
abbrev fSCH_ID_RESERVED : Fld := ⟨rSCH_ID, 17, 1⟩
abbrev fSCH_CTRL_RELEASE : Fld := ⟨rSCH_CTRL, 0, 1⟩
abbrev fSCH_CTRL_COMMIT : Fld := ⟨rSCH_CTRL, 1, 1⟩
abbrev fSCH_CTRL_FOR_SEQ : Fld := ⟨rSCH_CTRL, 16, 16⟩
abbrev fSCH_MEAS_CODE_CODE : Fld := ⟨rSCH_MEAS_CODE, 0, 28⟩
abbrev fSCH_MEAS_MS_MS : Fld := ⟨rSCH_MEAS_MS, 0, 16⟩
abbrev fSCH_MEAS_MS_VALID : Fld := ⟨rSCH_MEAS_MS, 31, 1⟩
abbrev fSCH_MEAS_STAT_VALID : Fld := ⟨rSCH_MEAS_STAT, 0, 1⟩
abbrev fSCH_MEAS_STAT_SLIP : Fld := ⟨rSCH_MEAS_STAT, 1, 1⟩
abbrev fSCH_MEAS_STAT_SHAPE : Fld := ⟨rSCH_MEAS_STAT, 2, 1⟩
abbrev fSCH_MEAS_STAT_CN0 : Fld := ⟨rSCH_MEAS_STAT, 8, 8⟩
abbrev fSCH_MEAS_STAT_LOCK_SEC : Fld := ⟨rSCH_MEAS_STAT, 16, 8⟩
abbrev fSCH_MEAS_STAT_EPOCH : Fld := ⟨rSCH_MEAS_STAT, 24, 8⟩

/-! ### TCH -/
abbrev rTCH_STAT : Nat := 0x040
abbrev rTCH_ID : Nat := 0x044
abbrev rTCH_CTRL : Nat := 0x048
abbrev rTCH_CAR_FCW : Nat := 0x04C
abbrev rTCH_CODE_FCW : Nat := 0x050
abbrev rTCH_CAR_DPH : Nat := 0x054
abbrev rTCH_CODE_DPH : Nat := 0x058
abbrev rTCH_CAR_NOW : Nat := 0x05C
abbrev rTCH_CODE_NOW : Nat := 0x060
abbrev rTCH_DUMP_SEQ : Nat := 0x064
abbrev rTCH_SHAPE_DEV : Nat := 0x068
abbrev rTCH_MEAS_CODE : Nat := 0x070
abbrev rTCH_MEAS_MS : Nat := 0x074
abbrev rTCH_MEAS_CAR_LO : Nat := 0x078
abbrev rTCH_MEAS_CAR_HI : Nat := 0x07C
abbrev rTCH_MEAS_DOPP : Nat := 0x080
abbrev rTCH_MEAS_STAT : Nat := 0x084
abbrev rTCH_SLIP_CNT : Nat := 0x088
abbrev rTCH_OVR_CNT : Nat := 0x08C
abbrev rTCH_LATE_CNT : Nat := 0x090
abbrev fTCH_STAT_STATE : Fld := ⟨rTCH_STAT, 0, 3⟩
abbrev fTCH_STAT_PLI_OK : Fld := ⟨rTCH_STAT, 3, 1⟩
abbrev fTCH_STAT_CN0_OK : Fld := ⟨rTCH_STAT, 4, 1⟩
abbrev fTCH_STAT_INV : Fld := ⟨rTCH_STAT, 5, 1⟩
abbrev fTCH_STAT_SC_SYNC : Fld := ⟨rTCH_STAT, 6, 1⟩
abbrev fTCH_STAT_NAVSYNC : Fld := ⟨rTCH_STAT, 7, 1⟩
abbrev fTCH_STAT_CN0 : Fld := ⟨rTCH_STAT, 8, 8⟩
abbrev fTCH_STAT_PLI : Fld := ⟨rTCH_STAT, 16, 8⟩
abbrev fTCH_STAT_SHAPE : Fld := ⟨rTCH_STAT, 24, 1⟩
abbrev fTCH_STAT_STALE : Fld := ⟨rTCH_STAT, 25, 1⟩
abbrev fTCH_ID_SYS : Fld := ⟨rTCH_ID, 0, 2⟩
abbrev fTCH_ID_PRN : Fld := ⟨rTCH_ID, 8, 8⟩
abbrev fTCH_ID_HOLDS : Fld := ⟨rTCH_ID, 16, 1⟩
abbrev fTCH_ID_RESERVED : Fld := ⟨rTCH_ID, 17, 1⟩
abbrev fTCH_CTRL_RELEASE : Fld := ⟨rTCH_CTRL, 0, 1⟩
abbrev fTCH_CTRL_COMMIT : Fld := ⟨rTCH_CTRL, 1, 1⟩
abbrev fTCH_CTRL_FOR_SEQ : Fld := ⟨rTCH_CTRL, 16, 16⟩
abbrev fTCH_CAR_DPH_STEP : Fld := ⟨rTCH_CAR_DPH, 0, 16⟩
abbrev fTCH_DUMP_SEQ_SEQ : Fld := ⟨rTCH_DUMP_SEQ, 0, 16⟩
abbrev fTCH_SHAPE_DEV_DEV : Fld := ⟨rTCH_SHAPE_DEV, 0, 16⟩
abbrev fTCH_SHAPE_DEV_PAIR : Fld := ⟨rTCH_SHAPE_DEV, 16, 3⟩
abbrev fTCH_MEAS_CODE_CODE : Fld := ⟨rTCH_MEAS_CODE, 0, 28⟩
abbrev fTCH_MEAS_MS_MS : Fld := ⟨rTCH_MEAS_MS, 0, 16⟩
abbrev fTCH_MEAS_MS_VALID : Fld := ⟨rTCH_MEAS_MS, 31, 1⟩
abbrev fTCH_MEAS_STAT_VALID : Fld := ⟨rTCH_MEAS_STAT, 0, 1⟩
abbrev fTCH_MEAS_STAT_SLIP : Fld := ⟨rTCH_MEAS_STAT, 1, 1⟩
abbrev fTCH_MEAS_STAT_SHAPE : Fld := ⟨rTCH_MEAS_STAT, 2, 1⟩
abbrev fTCH_MEAS_STAT_CN0 : Fld := ⟨rTCH_MEAS_STAT, 8, 8⟩
abbrev fTCH_MEAS_STAT_LOCK_SEC : Fld := ⟨rTCH_MEAS_STAT, 16, 8⟩
abbrev fTCH_MEAS_STAT_EPOCH : Fld := ⟨rTCH_MEAS_STAT, 24, 8⟩

/-! ### NAV -/
abbrev rNAV_CFG : Nat := 0x040
abbrev rNAV_STAT : Nat := 0x044
abbrev rNAV_RD_IDX : Nat := 0x048
abbrev rNAV_WR_IDX : Nat := 0x04C
abbrev rNAV_DROP_CNT : Nat := 0x050
abbrev rNAV_PAR_FAIL_CNT : Nat := 0x054
abbrev rNAV_CRC_FAIL_CNT : Nat := 0x058
abbrev rNAV_SOL_EPOCH : Nat := 0x060
abbrev rNAV_SOL_SEC_LO : Nat := 0x064
abbrev rNAV_SOL_SEC_HI : Nat := 0x068
abbrev rNAV_SOL_NS : Nat := 0x06C
abbrev rNAV_SOL_FRAC : Nat := 0x070
abbrev rNAV_SOL_QUAL : Nat := 0x074
abbrev rNAV_SOL_CMD : Nat := 0x078
abbrev rNAV_SOL_STAT : Nat := 0x07C
abbrev rNAV_SOL_ACC_CNT : Nat := 0x080
abbrev rNAV_SOL_REJ_CNT : Nat := 0x084
abbrev rNAV_POS_X : Nat := 0x088
abbrev rNAV_POS_Y : Nat := 0x08C
abbrev rNAV_POS_Z : Nat := 0x090
abbrev rNAV_POS_SIG : Nat := 0x094
abbrev rNAV_SOL_RES (k : Nat) : Nat := 0x0C0 + 0x4 * k
abbrev fNAV_CFG_LNAV_EN : Fld := ⟨rNAV_CFG, 0, 1⟩
abbrev fNAV_CFG_INAV_EN : Fld := ⟨rNAV_CFG, 1, 1⟩
abbrev fNAV_CFG_KEEP_BAD : Fld := ⟨rNAV_CFG, 2, 1⟩
abbrev fNAV_STAT_LVL : Fld := ⟨rNAV_STAT, 0, 6⟩
abbrev fNAV_RD_IDX_IDX : Fld := ⟨rNAV_RD_IDX, 0, 6⟩
abbrev fNAV_WR_IDX_IDX : Fld := ⟨rNAV_WR_IDX, 0, 6⟩
abbrev fNAV_SOL_SEC_HI_SEC : Fld := ⟨rNAV_SOL_SEC_HI, 0, 16⟩
abbrev fNAV_SOL_NS_NS : Fld := ⟨rNAV_SOL_NS, 0, 30⟩
abbrev fNAV_SOL_FRAC_FRAC : Fld := ⟨rNAV_SOL_FRAC, 0, 16⟩
abbrev fNAV_SOL_QUAL_SIG : Fld := ⟨rNAV_SOL_QUAL, 0, 16⟩
abbrev fNAV_SOL_QUAL_NSAT : Fld := ⟨rNAV_SOL_QUAL, 16, 5⟩
abbrev fNAV_SOL_QUAL_MODE : Fld := ⟨rNAV_SOL_QUAL, 24, 1⟩
abbrev fNAV_SOL_CMD_SUBMIT : Fld := ⟨rNAV_SOL_CMD, 0, 1⟩
abbrev fNAV_SOL_STAT_ACCEPTED : Fld := ⟨rNAV_SOL_STAT, 0, 1⟩
abbrev fNAV_SOL_STAT_REFUSED : Fld := ⟨rNAV_SOL_STAT, 1, 1⟩
abbrev fNAV_SOL_STAT_REASON : Fld := ⟨rNAV_SOL_STAT, 4, 3⟩
abbrev fNAV_POS_SIG_CM : Fld := ⟨rNAV_POS_SIG, 0, 16⟩
abbrev fNAV_POS_SIG_VALID : Fld := ⟨rNAV_POS_SIG, 31, 1⟩
abbrev fNAV_SOL_RES_CH (k : Nat) : Fld := ⟨rNAV_SOL_RES k, 0, 7⟩
abbrev fNAV_SOL_RES_USED (k : Nat) : Fld := ⟨rNAV_SOL_RES k, 7, 1⟩
abbrev fNAV_SOL_RES_RES (k : Nat) : Fld := ⟨rNAV_SOL_RES k, 8, 24⟩

/-! ### INT -/
abbrev rINTM_CFG : Nat := 0x040
abbrev rINTM_STAT : Nat := 0x044
abbrev rINTM_CTRL : Nat := 0x048
abbrev rINTM_CN0_CHK : Nat := 0x04C
abbrev rINTM_RF_CHK : Nat := 0x050
abbrev rINTM_DOPP_LIMIT : Nat := 0x054
abbrev rINTM_RES_LIMIT : Nat := 0x058
abbrev rINTM_TIME_CHK : Nat := 0x05C
abbrev rINTM_NAV_CHK : Nat := 0x060
abbrev rINTM_EXCL_CFG : Nat := 0x064
abbrev rINTM_EXCL_LO : Nat := 0x068
abbrev rINTM_EXCL_HI : Nat := 0x06C
abbrev rINTM_EXCL_T : Nat := 0x070
abbrev rINTM_EXCL_CMD : Nat := 0x074
abbrev rINTM_CAUSE : Nat := 0x078
abbrev rINTM_CAUSE_SEEN : Nat := 0x07C
abbrev rINTM_TIME_OFS : Nat := 0x080
abbrev rINTM_VIEW : Nat := 0x084
abbrev rINTM_WITHHELD_CNT : Nat := 0x088
abbrev rINTM_EXCL_CNT : Nat := 0x08C
abbrev rINTM_SUSPECT_CNT : Nat := 0x090
abbrev rINTM_DPRED (k : Nat) : Nat := 0x0C0 + 0x4 * k
abbrev fINTM_CFG_SHAPE_EXCL : Fld := ⟨rINTM_CFG, 0, 1⟩
abbrev fINTM_CFG_CLEAR_MANUAL : Fld := ⟨rINTM_CFG, 1, 1⟩
abbrev fINTM_CFG_RES_EN : Fld := ⟨rINTM_CFG, 2, 1⟩
abbrev fINTM_CFG_DOPP_EN : Fld := ⟨rINTM_CFG, 3, 1⟩
abbrev fINTM_CFG_NAV_EN : Fld := ⟨rINTM_CFG, 4, 1⟩
abbrev fINTM_CFG_CN0_EN : Fld := ⟨rINTM_CFG, 5, 1⟩
abbrev fINTM_CFG_RF_EN : Fld := ⟨rINTM_CFG, 6, 1⟩
abbrev fINTM_CFG_TIME_EN : Fld := ⟨rINTM_CFG, 7, 1⟩
abbrev fINTM_STAT_SUSPECT : Fld := ⟨rINTM_STAT, 0, 1⟩
abbrev fINTM_STAT_JAM_IND : Fld := ⟨rINTM_STAT, 1, 1⟩
abbrev fINTM_STAT_SPOOF_IND : Fld := ⟨rINTM_STAT, 2, 1⟩
abbrev fINTM_STAT_VIEW_STALE : Fld := ⟨rINTM_STAT, 3, 1⟩
abbrev fINTM_STAT_N_EXCL : Fld := ⟨rINTM_STAT, 8, 7⟩
abbrev fINTM_STAT_CLEAR_LEFT : Fld := ⟨rINTM_STAT, 16, 16⟩
abbrev fINTM_CTRL_FORCE_SUSPECT : Fld := ⟨rINTM_CTRL, 0, 1⟩
abbrev fINTM_CTRL_CLEAR : Fld := ⟨rINTM_CTRL, 1, 1⟩
abbrev fINTM_CN0_CHK_MINSAT : Fld := ⟨rINTM_CN0_CHK, 0, 8⟩
abbrev fINTM_CN0_CHK_SPREAD : Fld := ⟨rINTM_CN0_CHK, 8, 8⟩
abbrev fINTM_CN0_CHK_SEC : Fld := ⟨rINTM_CN0_CHK, 16, 8⟩
abbrev fINTM_RF_CHK_AGC_JUMP : Fld := ⟨rINTM_RF_CHK, 0, 8⟩
abbrev fINTM_RF_CHK_NOISE_JUMP : Fld := ⟨rINTM_RF_CHK, 8, 8⟩
abbrev fINTM_DOPP_LIMIT_CHZ : Fld := ⟨rINTM_DOPP_LIMIT, 0, 16⟩
abbrev fINTM_RES_LIMIT_DNS : Fld := ⟨rINTM_RES_LIMIT, 0, 16⟩
abbrev fINTM_TIME_CHK_MARGIN : Fld := ⟨rINTM_TIME_CHK, 0, 16⟩
abbrev fINTM_TIME_CHK_STEP : Fld := ⟨rINTM_TIME_CHK, 16, 8⟩
abbrev fINTM_TIME_CHK_PRED_N : Fld := ⟨rINTM_TIME_CHK, 24, 4⟩
abbrev fINTM_TIME_CHK_STEP_N : Fld := ⟨rINTM_TIME_CHK, 28, 4⟩
abbrev fINTM_NAV_CHK_GPS_MIN : Fld := ⟨rINTM_NAV_CHK, 0, 8⟩
abbrev fINTM_NAV_CHK_GPS_MAX : Fld := ⟨rINTM_NAV_CHK, 8, 8⟩
abbrev fINTM_NAV_CHK_QZS_MIN : Fld := ⟨rINTM_NAV_CHK, 16, 8⟩
abbrev fINTM_NAV_CHK_QZS_MAX : Fld := ⟨rINTM_NAV_CHK, 24, 8⟩
abbrev fINTM_EXCL_CFG_EXCL_SEC : Fld := ⟨rINTM_EXCL_CFG, 0, 8⟩
abbrev fINTM_EXCL_CFG_EXCL_MAX : Fld := ⟨rINTM_EXCL_CFG, 8, 8⟩
abbrev fINTM_EXCL_CFG_NAV_MAJ : Fld := ⟨rINTM_EXCL_CFG, 16, 4⟩
abbrev fINTM_EXCL_CFG_CLEAR_SEC : Fld := ⟨rINTM_EXCL_CFG, 20, 12⟩
abbrev fINTM_EXCL_T_CH : Fld := ⟨rINTM_EXCL_T, 0, 16⟩
abbrev fINTM_EXCL_CMD_SYS : Fld := ⟨rINTM_EXCL_CMD, 0, 2⟩
abbrev fINTM_EXCL_CMD_PRN : Fld := ⟨rINTM_EXCL_CMD, 8, 8⟩
abbrev fINTM_EXCL_CMD_SET : Fld := ⟨rINTM_EXCL_CMD, 16, 1⟩
abbrev fINTM_EXCL_CMD_CLR : Fld := ⟨rINTM_EXCL_CMD, 17, 1⟩
abbrev fINTM_CAUSE_CAUSE : Fld := ⟨rINTM_CAUSE, 0, 8⟩
abbrev fINTM_CAUSE_SEEN_CAUSE : Fld := ⟨rINTM_CAUSE_SEEN, 0, 8⟩
abbrev fINTM_VIEW_AGE_MS : Fld := ⟨rINTM_VIEW, 0, 16⟩
abbrev fINTM_DPRED_CHZ (k : Nat) : Fld := ⟨rINTM_DPRED k, 0, 24⟩
abbrev fINTM_DPRED_EPOCH (k : Nat) : Fld := ⟨rINTM_DPRED k, 24, 7⟩
abbrev fINTM_DPRED_VALID (k : Nat) : Fld := ⟨rINTM_DPRED k, 31, 1⟩

/-! ### SNP -/
abbrev rSNP_CFG : Nat := 0x040
abbrev rSNP_STAT : Nat := 0x044
abbrev rSNP_CTRL : Nat := 0x048
abbrev rSNP_AT_LO : Nat := 0x04C
abbrev rSNP_AT_HI : Nat := 0x050
abbrev rSNP_ARM_CFG : Nat := 0x054
abbrev rSNP_PERIOD : Nat := 0x058
abbrev rSNP_OFF_SEL : Nat := 0x05C
abbrev rSNP_CAP_CNT : Nat := 0x060
abbrev rSNP_SKIP_CNT : Nat := 0x064
abbrev rSNP_SLOT_STAT (k : Nat) : Nat := 0x080 + 0x20 * k
abbrev rSNP_SLOT_PC_LO (k : Nat) : Nat := 0x084 + 0x20 * k
abbrev rSNP_SLOT_PC_HI (k : Nat) : Nat := 0x088 + 0x20 * k
abbrev rSNP_SLOT_SEC_LO (k : Nat) : Nat := 0x08C + 0x20 * k
abbrev rSNP_SLOT_SEC_HI (k : Nat) : Nat := 0x090 + 0x20 * k
abbrev rSNP_SLOT_NS (k : Nat) : Nat := 0x094 + 0x20 * k
abbrev rSNP_SLOT_FREQ (k : Nat) : Nat := 0x098 + 0x20 * k
abbrev rSNP_SLOT_RF (k : Nat) : Nat := 0x09C + 0x20 * k
abbrev fSNP_CFG_AGC_HOLD : Fld := ⟨rSNP_CFG, 0, 1⟩
abbrev fSNP_CFG_AUTO : Fld := ⟨rSNP_CFG, 1, 1⟩
abbrev fSNP_CFG_LEN_MS : Fld := ⟨rSNP_CFG, 8, 7⟩
abbrev fSNP_STAT_ARMED : Fld := ⟨rSNP_STAT, 0, 1⟩
abbrev fSNP_STAT_CAPTURING : Fld := ⟨rSNP_STAT, 1, 1⟩
abbrev fSNP_STAT_NEXT_SLOT : Fld := ⟨rSNP_STAT, 2, 1⟩
abbrev fSNP_STAT_REASON : Fld := ⟨rSNP_STAT, 8, 3⟩
abbrev fSNP_CTRL_ARM : Fld := ⟨rSNP_CTRL, 0, 1⟩
abbrev fSNP_CTRL_CANCEL : Fld := ⟨rSNP_CTRL, 1, 1⟩
abbrev fSNP_CTRL_HOLD : Fld := ⟨rSNP_CTRL, 4, 2⟩
abbrev fSNP_CTRL_RELEASE : Fld := ⟨rSNP_CTRL, 8, 2⟩
abbrev fSNP_ARM_CFG_SLOT : Fld := ⟨rSNP_ARM_CFG, 0, 1⟩
abbrev fSNP_ARM_CFG_LEN_MS : Fld := ⟨rSNP_ARM_CFG, 8, 7⟩
abbrev fSNP_PERIOD_SEC : Fld := ⟨rSNP_PERIOD, 0, 16⟩
abbrev fSNP_PERIOD_PHASE_MS : Fld := ⟨rSNP_PERIOD, 16, 10⟩
abbrev fSNP_OFF_SEL_SLOT : Fld := ⟨rSNP_OFF_SEL, 0, 1⟩
abbrev fSNP_SLOT_STAT_STATE (k : Nat) : Fld := ⟨rSNP_SLOT_STAT k, 0, 2⟩
abbrev fSNP_SLOT_STAT_BAD (k : Nat) : Fld := ⟨rSNP_SLOT_STAT k, 2, 1⟩
abbrev fSNP_SLOT_STAT_HOLD (k : Nat) : Fld := ⟨rSNP_SLOT_STAT k, 3, 1⟩
abbrev fSNP_SLOT_STAT_IN_USE (k : Nat) : Fld := ⟨rSNP_SLOT_STAT k, 4, 1⟩
abbrev fSNP_SLOT_STAT_LEN_MS (k : Nat) : Fld := ⟨rSNP_SLOT_STAT k, 8, 7⟩
abbrev fSNP_SLOT_STAT_GEN (k : Nat) : Fld := ⟨rSNP_SLOT_STAT k, 16, 16⟩
abbrev fSNP_SLOT_SEC_HI_SEC (k : Nat) : Fld := ⟨rSNP_SLOT_SEC_HI k, 0, 16⟩
abbrev fSNP_SLOT_SEC_HI_SCALE (k : Nat) : Fld := ⟨rSNP_SLOT_SEC_HI k, 16, 4⟩
abbrev fSNP_SLOT_NS_NS (k : Nat) : Fld := ⟨rSNP_SLOT_NS k, 0, 30⟩
abbrev fSNP_SLOT_RF_GAIN (k : Nat) : Fld := ⟨rSNP_SLOT_RF k, 0, 7⟩
abbrev fSNP_SLOT_RF_CLIP (k : Nat) : Fld := ⟨rSNP_SLOT_RF k, 8, 8⟩
abbrev fSNP_SLOT_RF_BW (k : Nat) : Fld := ⟨rSNP_SLOT_RF k, 16, 2⟩
abbrev fSNP_SLOT_RF_ANT (k : Nat) : Fld := ⟨rSNP_SLOT_RF k, 18, 2⟩
abbrev fSNP_SLOT_RF_WARM (k : Nat) : Fld := ⟨rSNP_SLOT_RF k, 20, 1⟩

/-! ### SDS -/
abbrev rSDS_PLL_STAT : Nat := 0x040
abbrev rSDS_LANE_CFG (k : Nat) : Nat := 0x044 + 0x4 * k
abbrev rSDS_LANE_TXEQ (k : Nat) : Nat := 0x054 + 0x4 * k
abbrev rSDS_LANE_STAT (k : Nat) : Nat := 0x064 + 0x4 * k
abbrev rSDS_MM_CFG : Nat := 0x080
abbrev rSDS_MM_CMD : Nat := 0x084
abbrev rSDS_MM_DATA0 : Nat := 0x088
abbrev rSDS_MM_DATA1 : Nat := 0x08C
abbrev rSDS_MM_STAT : Nat := 0x090
abbrev rSDS_MM_CTRL : Nat := 0x094
abbrev rSDS_MM_NACK_CNT : Nat := 0x098
abbrev fSDS_PLL_STAT_H_LOCK : Fld := ⟨rSDS_PLL_STAT, 0, 1⟩
abbrev fSDS_PLL_STAT_L_LOCK : Fld := ⟨rSDS_PLL_STAT, 1, 1⟩
abbrev fSDS_LANE_CFG_TX_POL (k : Nat) : Fld := ⟨rSDS_LANE_CFG k, 0, 1⟩
abbrev fSDS_LANE_CFG_RX_POL (k : Nat) : Fld := ⟨rSDS_LANE_CFG k, 1, 1⟩
abbrev fSDS_LANE_CFG_TX_DIS (k : Nat) : Fld := ⟨rSDS_LANE_CFG k, 2, 1⟩
abbrev fSDS_LANE_CFG_ADAPT_FREEZE (k : Nat) : Fld := ⟨rSDS_LANE_CFG k, 3, 1⟩
abbrev fSDS_LANE_TXEQ_PRE (k : Nat) : Fld := ⟨rSDS_LANE_TXEQ k, 0, 6⟩
abbrev fSDS_LANE_TXEQ_MAIN (k : Nat) : Fld := ⟨rSDS_LANE_TXEQ k, 8, 6⟩
abbrev fSDS_LANE_TXEQ_POST (k : Nat) : Fld := ⟨rSDS_LANE_TXEQ k, 16, 6⟩
abbrev fSDS_LANE_STAT_SIG_DET (k : Nat) : Fld := ⟨rSDS_LANE_STAT k, 0, 1⟩
abbrev fSDS_LANE_STAT_CDR_LOCK (k : Nat) : Fld := ⟨rSDS_LANE_STAT k, 1, 1⟩
abbrev fSDS_LANE_STAT_ADAPT_DONE (k : Nat) : Fld := ⟨rSDS_LANE_STAT k, 2, 1⟩
abbrev fSDS_LANE_STAT_EYE (k : Nat) : Fld := ⟨rSDS_LANE_STAT k, 8, 8⟩
abbrev fSDS_MM_CFG_FAST : Fld := ⟨rSDS_MM_CFG, 0, 1⟩
abbrev fSDS_MM_CFG_DEV : Fld := ⟨rSDS_MM_CFG, 8, 7⟩
abbrev fSDS_MM_CMD_SEL : Fld := ⟨rSDS_MM_CMD, 0, 2⟩
abbrev fSDS_MM_CMD_RW : Fld := ⟨rSDS_MM_CMD, 2, 1⟩
abbrev fSDS_MM_CMD_OFS : Fld := ⟨rSDS_MM_CMD, 8, 8⟩
abbrev fSDS_MM_CMD_LEN : Fld := ⟨rSDS_MM_CMD, 16, 4⟩
abbrev fSDS_MM_CMD_GO : Fld := ⟨rSDS_MM_CMD, 31, 1⟩
abbrev fSDS_MM_STAT_BUSY : Fld := ⟨rSDS_MM_STAT, 0, 1⟩
abbrev fSDS_MM_STAT_NACK : Fld := ⟨rSDS_MM_STAT, 1, 1⟩
abbrev fSDS_MM_STAT_TIMEOUT : Fld := ⟨rSDS_MM_STAT, 2, 1⟩
abbrev fSDS_MM_STAT_PRES : Fld := ⟨rSDS_MM_STAT, 3, 1⟩
abbrev fSDS_MM_STAT_MINT : Fld := ⟨rSDS_MM_STAT, 4, 1⟩
abbrev fSDS_MM_CTRL_RST : Fld := ⟨rSDS_MM_CTRL, 0, 1⟩
abbrev fSDS_MM_CTRL_LPM : Fld := ⟨rSDS_MM_CTRL, 1, 1⟩

/-! ### MAC -/
abbrev rMAC_CFG : Nat := 0x040
abbrev rMAC_STAT : Nat := 0x044
abbrev rMAC_ADDR_LO : Nat := 0x048
abbrev rMAC_ADDR_HI : Nat := 0x04C
abbrev rMAC_LINK_DOWN_CNT : Nat := 0x050
abbrev rMAC_RX_FRAMES_LO : Nat := 0x054
abbrev rMAC_RX_FRAMES_HI : Nat := 0x058
abbrev rMAC_TX_FRAMES_LO : Nat := 0x05C
abbrev rMAC_TX_FRAMES_HI : Nat := 0x060
abbrev rMAC_RX_FCS_ERR : Nat := 0x064
abbrev rMAC_RX_LEN_ERR : Nat := 0x068
abbrev rMAC_RX_PAUSE : Nat := 0x06C
abbrev rMAC_FEC_CORR : Nat := 0x070
abbrev rMAC_FEC_UNCORR : Nat := 0x074
abbrev fMAC_CFG_MODE : Fld := ⟨rMAC_CFG, 0, 2⟩
abbrev fMAC_CFG_FEC : Fld := ⟨rMAC_CFG, 2, 1⟩
abbrev fMAC_CFG_AN37 : Fld := ⟨rMAC_CFG, 3, 1⟩
abbrev fMAC_CFG_PAUSE_RX : Fld := ⟨rMAC_CFG, 4, 1⟩
abbrev fMAC_CFG_MAX_LEN : Fld := ⟨rMAC_CFG, 16, 14⟩
abbrev fMAC_STAT_LINK : Fld := ⟨rMAC_STAT, 0, 1⟩
abbrev fMAC_STAT_BLOCK_LOCK : Fld := ⟨rMAC_STAT, 1, 1⟩
abbrev fMAC_STAT_FEC_LOCK : Fld := ⟨rMAC_STAT, 2, 1⟩
abbrev fMAC_STAT_LOCAL_FAULT : Fld := ⟨rMAC_STAT, 3, 1⟩
abbrev fMAC_STAT_REMOTE_FAULT : Fld := ⟨rMAC_STAT, 4, 1⟩
abbrev fMAC_STAT_AN_DONE : Fld := ⟨rMAC_STAT, 5, 1⟩
abbrev fMAC_STAT_PAUSED : Fld := ⟨rMAC_STAT, 6, 1⟩
abbrev fMAC_ADDR_HI_ADDR : Fld := ⟨rMAC_ADDR_HI, 0, 16⟩

/-! ### TSU -/
abbrev rTSU_CFG : Nat := 0x040
abbrev rTSU_STAT : Nat := 0x044
abbrev rTSU_LAUNCH_TOL : Nat := 0x048
abbrev rTSU_TX_DLY : Nat := 0x04C
abbrev rTSU_RX_DLY : Nat := 0x050
abbrev rTSU_EXT_TX_DLY : Nat := 0x054
abbrev rTSU_EXT_RX_DLY : Nat := 0x058
abbrev rTSU_AGE_TRIM : Nat := 0x05C
abbrev rTSU_CAL_CTRL : Nat := 0x060
abbrev rTSU_CAL_SER : Nat := 0x064
abbrev rTSU_DEV_LAST : Nat := 0x068
abbrev rTSU_DEV_MAX : Nat := 0x06C
abbrev rTSU_DEV_CNT : Nat := 0x070
abbrev rTSU_TIMED_CNT : Nat := 0x074
abbrev fTSU_CFG_DEV_CHK : Fld := ⟨rTSU_CFG, 0, 1⟩
abbrev fTSU_STAT_CAL_OK : Fld := ⟨rTSU_STAT, 0, 1⟩
abbrev fTSU_STAT_GRID_OK : Fld := ⟨rTSU_STAT, 1, 1⟩
abbrev fTSU_STAT_DEV : Fld := ⟨rTSU_STAT, 2, 1⟩
abbrev fTSU_LAUNCH_TOL_TOL : Fld := ⟨rTSU_LAUNCH_TOL, 0, 16⟩
abbrev fTSU_LAUNCH_TOL_HOLD_MS : Fld := ⟨rTSU_LAUNCH_TOL, 16, 16⟩
abbrev fTSU_TX_DLY_PS : Fld := ⟨rTSU_TX_DLY, 0, 24⟩
abbrev fTSU_RX_DLY_PS : Fld := ⟨rTSU_RX_DLY, 0, 24⟩
abbrev fTSU_AGE_TRIM_TX : Fld := ⟨rTSU_AGE_TRIM, 0, 16⟩
abbrev fTSU_AGE_TRIM_RX : Fld := ⟨rTSU_AGE_TRIM, 16, 16⟩
abbrev fTSU_CAL_CTRL_RUN : Fld := ⟨rTSU_CAL_CTRL, 0, 1⟩
abbrev fTSU_CAL_SER_PS : Fld := ⟨rTSU_CAL_SER, 0, 16⟩

/-! ### LCH -/
abbrev rLCH_LATE_POLICY : Nat := 0x040
abbrev rLCH_MAX_HOLD : Nat := 0x044
abbrev rLCH_BRIDGE_LEAD : Nat := 0x048
abbrev rLCH_SW_LEAD : Nat := 0x04C
abbrev rLCH_STARVE : Nat := 0x050
abbrev rLCH_LATE_LIMIT : Nat := 0x054
abbrev rLCH_STAT : Nat := 0x058
abbrev rLCH_HOLD_LVL : Nat := 0x05C
abbrev rLCH_HOLD_MAX : Nat := 0x060
abbrev rLCH_LATE_CNT : Nat := 0x064
abbrev rLCH_RESTAMP_CNT : Nat := 0x068
abbrev rLCH_LATE_DROP_CNT : Nat := 0x06C
abbrev rLCH_BOOK_REJ_CNT : Nat := 0x070
abbrev rLCH_LINK_DROP_CNT : Nat := 0x074
abbrev rLCH_REPLICA_DROP_CNT : Nat := 0x078
abbrev rLCH_TILE_DROP_CNT : Nat := 0x07C
abbrev rLCH_BR_FWD_CNT : Nat := 0x080
abbrev rLCH_BR_DROP_CNT : Nat := 0x084
abbrev rLCH_SW_REJ_CNT : Nat := 0x088
abbrev fLCH_LATE_POLICY_NTP : Fld := ⟨rLCH_LATE_POLICY, 0, 1⟩
abbrev fLCH_LATE_POLICY_NTS : Fld := ⟨rLCH_LATE_POLICY, 1, 1⟩
abbrev fLCH_LATE_POLICY_PTP : Fld := ⟨rLCH_LATE_POLICY, 2, 1⟩
abbrev fLCH_LATE_POLICY_BRIDGE : Fld := ⟨rLCH_LATE_POLICY, 3, 1⟩
abbrev fLCH_LATE_POLICY_SW : Fld := ⟨rLCH_LATE_POLICY, 4, 1⟩
abbrev fLCH_MAX_HOLD_NS : Fld := ⟨rLCH_MAX_HOLD, 0, 16⟩
abbrev fLCH_BRIDGE_LEAD_NS : Fld := ⟨rLCH_BRIDGE_LEAD, 0, 16⟩
abbrev fLCH_SW_LEAD_NS : Fld := ⟨rLCH_SW_LEAD, 0, 16⟩
abbrev fLCH_STARVE_NS : Fld := ⟨rLCH_STARVE, 0, 16⟩
abbrev fLCH_LATE_LIMIT_CNT : Fld := ⟨rLCH_LATE_LIMIT, 0, 16⟩
abbrev fLCH_STAT_TIMED_OK : Fld := ⟨rLCH_STAT, 0, 8⟩
abbrev fLCH_STAT_REPLICA_OK : Fld := ⟨rLCH_STAT, 8, 1⟩
abbrev fLCH_HOLD_LVL_CNT : Fld := ⟨rLCH_HOLD_LVL, 0, 13⟩
abbrev fLCH_HOLD_MAX_CNT : Fld := ⟨rLCH_HOLD_MAX, 0, 13⟩

/-! ### ANS -/
abbrev rANS_CFG : Nat := 0x040
abbrev rANS_STAT : Nat := 0x044
abbrev rANS_LAUNCH_LEAD : Nat := 0x048
abbrev rANS_STRATUM : Nat := 0x04C
abbrev rANS_NTP_CFG : Nat := 0x050
abbrev rANS_ROOT_DELAY : Nat := 0x054
abbrev rANS_DISP_ADD : Nat := 0x058
abbrev rANS_ALARM_REFID : Nat := 0x05C
abbrev rANS_REFID (k : Nat) : Nat := 0x060 + 0x4 * k
abbrev rANS_Q_CFG : Nat := 0x078
abbrev rANS_SLOW_LIMIT : Nat := 0x07C
abbrev rANS_TAB_CMD : Nat := 0x080
abbrev rANS_TAB_DATA (k : Nat) : Nat := 0x084 + 0x4 * k
abbrev rANS_Q_MAX : Nat := 0x098
abbrev rANS_PLAIN_LO : Nat := 0x0C0
abbrev rANS_PLAIN_HI : Nat := 0x0C4
abbrev rANS_NTSA_LO : Nat := 0x0C8
abbrev rANS_NTSA_HI : Nat := 0x0CC
abbrev rANS_ALARM_CNT : Nat := 0x0D0
abbrev rANS_SILENT_CNT : Nat := 0x0D4
abbrev rANS_KOD_CNT : Nat := 0x0D8
abbrev rANS_RATE_DROP_CNT : Nat := 0x0DC
abbrev rANS_BAD_CNT : Nat := 0x0E0
abbrev rANS_NOADDR_CNT : Nat := 0x0E4
abbrev rANS_OVF_CNT : Nat := 0x0E8
abbrev rANS_AGE_DROP_CNT : Nat := 0x0EC
abbrev rANS_BOOK_REJ_CNT : Nat := 0x0F0
abbrev rANS_SLOW_CNT : Nat := 0x0F4
abbrev rANS_SLOW_DROP_CNT : Nat := 0x0F8
abbrev rANS_ARP_CNT : Nat := 0x0FC
abbrev rANS_ND_CNT : Nat := 0x100
abbrev rANS_ECHO_CNT : Nat := 0x104
abbrev rANS_NTS_OFF_CNT : Nat := 0x108
abbrev rANS_UNCAL_CNT : Nat := 0x10C
abbrev rANS_OFF_CNT : Nat := 0x110
abbrev fANS_CFG_SAFE_MODE : Fld := ⟨rANS_CFG, 0, 1⟩
abbrev fANS_CFG_ECHO : Fld := ⟨rANS_CFG, 1, 1⟩
abbrev fANS_CFG_MCAST_SLOW : Fld := ⟨rANS_CFG, 2, 1⟩
abbrev fANS_CFG_SLOW_OTHER : Fld := ⟨rANS_CFG, 3, 1⟩
abbrev fANS_CFG_CTRL_SLOW : Fld := ⟨rANS_CFG, 4, 1⟩
abbrev fANS_CFG_V3 : Fld := ⟨rANS_CFG, 5, 1⟩
abbrev fANS_STAT_FORM : Fld := ⟨rANS_STAT, 0, 2⟩
abbrev fANS_STAT_SAFE_LINE : Fld := ⟨rANS_STAT, 2, 1⟩
abbrev fANS_STAT_VIEW_STALE : Fld := ⟨rANS_STAT, 3, 1⟩
abbrev fANS_STAT_PRIMARY : Fld := ⟨rANS_STAT, 4, 3⟩
abbrev fANS_LAUNCH_LEAD_PLAIN : Fld := ⟨rANS_LAUNCH_LEAD, 0, 16⟩
abbrev fANS_LAUNCH_LEAD_NTS : Fld := ⟨rANS_LAUNCH_LEAD, 16, 16⟩
abbrev fANS_STRATUM_SLOTk : Fld := ⟨rANS_STRATUM, 0, 24⟩
abbrev fANS_STRATUM_HOLD_ADD : Fld := ⟨rANS_STRATUM, 24, 4⟩
abbrev fANS_STRATUM_DEG_ADD : Fld := ⟨rANS_STRATUM, 28, 4⟩
abbrev fANS_NTP_CFG_PRECISION : Fld := ⟨rANS_NTP_CFG, 0, 8⟩
abbrev fANS_NTP_CFG_TTL : Fld := ⟨rANS_NTP_CFG, 8, 8⟩
abbrev fANS_NTP_CFG_DSCP : Fld := ⟨rANS_NTP_CFG, 16, 6⟩
abbrev fANS_Q_CFG_MAX_AGE : Fld := ⟨rANS_Q_CFG, 0, 16⟩
abbrev fANS_SLOW_LIMIT_FPS : Fld := ⟨rANS_SLOW_LIMIT, 0, 24⟩
abbrev fANS_TAB_CMD_IDX : Fld := ⟨rANS_TAB_CMD, 0, 7⟩
abbrev fANS_TAB_CMD_TABLE : Fld := ⟨rANS_TAB_CMD, 8, 1⟩
abbrev fANS_TAB_CMD_RW : Fld := ⟨rANS_TAB_CMD, 9, 1⟩
abbrev fANS_TAB_CMD_BUSY : Fld := ⟨rANS_TAB_CMD, 16, 1⟩
abbrev fANS_TAB_CMD_GO : Fld := ⟨rANS_TAB_CMD, 31, 1⟩
abbrev fANS_TAB_CMD_ERR : Fld := ⟨rANS_TAB_CMD, 17, 1⟩
abbrev fANS_TAB_DATA4_VIDX : Fld := ⟨rANS_TAB_DATA 4, 0, 3⟩
abbrev fANS_TAB_DATA4_UNTAGGED : Fld := ⟨rANS_TAB_DATA 4, 3, 1⟩
abbrev fANS_TAB_DATA4_V6 : Fld := ⟨rANS_TAB_DATA 4, 4, 1⟩
abbrev fANS_TAB_DATA4_SVC : Fld := ⟨rANS_TAB_DATA 4, 16, 5⟩
abbrev fANS_TAB_DATA4_VALID : Fld := ⟨rANS_TAB_DATA 4, 31, 1⟩
abbrev fANS_Q_MAX_LVL : Fld := ⟨rANS_Q_MAX, 0, 10⟩
abbrev fANS_Q_MAX_PORT : Fld := ⟨rANS_Q_MAX, 16, 3⟩

/-! ### TBL -/
abbrev rTBL_CFG : Nat := 0x040
abbrev rTBL_STAT : Nat := 0x044
abbrev rTBL_CTRL : Nat := 0x048
abbrev rTBL_CLASS (k : Nat) : Nat := 0x04C + 0x4 * k
abbrev rTBL_KOD : Nat := 0x05C
abbrev rTBL_SCRUB : Nat := 0x060
abbrev rTBL_PFX_CMD : Nat := 0x064
abbrev rTBL_PFX_ADDR (k : Nat) : Nat := 0x068 + 0x4 * k
abbrev rTBL_PFX_CFG : Nat := 0x078
abbrev rTBL_USED : Nat := 0x07C
abbrev rTBL_EVICT_CNT : Nat := 0x080
abbrev rTBL_TILE_INV_CNT : Nat := 0x084
abbrev rTBL_SCRUB_PASS_CNT : Nat := 0x088
abbrev rTBL_SES_CFG : Nat := 0x100
abbrev rTBL_SES_STAT : Nat := 0x104
abbrev rTBL_SES_CMD : Nat := 0x108
abbrev rTBL_SES_GRANT_CNT : Nat := 0x10C
abbrev rTBL_SES_DENY_CNT : Nat := 0x110
abbrev rTBL_SES_EXPIRE_CNT : Nat := 0x114
abbrev rTBL_SES_CANCEL_CNT : Nat := 0x118
abbrev rTBL_SES_TILE_CNT : Nat := 0x11C
abbrev rTBL_SES_DATA (k : Nat) : Nat := 0x180 + 0x4 * k
abbrev fTBL_CFG_RATE_EN : Fld := ⟨rTBL_CFG, 0, 1⟩
abbrev fTBL_STAT_KEY_READY : Fld := ⟨rTBL_STAT, 0, 1⟩
abbrev fTBL_STAT_FLUSHING : Fld := ⟨rTBL_STAT, 1, 1⟩
abbrev fTBL_CTRL_FLUSH : Fld := ⟨rTBL_CTRL, 0, 1⟩
abbrev fTBL_CLASS_RATE (k : Nat) : Fld := ⟨rTBL_CLASS k, 0, 16⟩
abbrev fTBL_CLASS_BURST (k : Nat) : Fld := ⟨rTBL_CLASS k, 16, 12⟩
abbrev fTBL_CLASS_ACTION (k : Nat) : Fld := ⟨rTBL_CLASS k, 28, 1⟩
abbrev fTBL_KOD_GAP_MS : Fld := ⟨rTBL_KOD, 0, 16⟩
abbrev fTBL_KOD_POLL : Fld := ⟨rTBL_KOD, 16, 5⟩
abbrev fTBL_SCRUB_INTERVAL : Fld := ⟨rTBL_SCRUB, 0, 16⟩
abbrev fTBL_PFX_CMD_IDX : Fld := ⟨rTBL_PFX_CMD, 0, 3⟩
abbrev fTBL_PFX_CMD_RW : Fld := ⟨rTBL_PFX_CMD, 8, 1⟩
abbrev fTBL_PFX_CMD_GO : Fld := ⟨rTBL_PFX_CMD, 31, 1⟩
abbrev fTBL_PFX_CFG_LEN : Fld := ⟨rTBL_PFX_CFG, 0, 8⟩
abbrev fTBL_PFX_CFG_V6 : Fld := ⟨rTBL_PFX_CFG, 8, 1⟩
abbrev fTBL_PFX_CFG_CLASS : Fld := ⟨rTBL_PFX_CFG, 9, 2⟩
abbrev fTBL_PFX_CFG_VALID : Fld := ⟨rTBL_PFX_CFG, 31, 1⟩
abbrev fTBL_USED_CNT : Fld := ⟨rTBL_USED, 0, 17⟩
abbrev fTBL_SES_CFG_SCRUB_EN : Fld := ⟨rTBL_SES_CFG, 0, 1⟩
abbrev fTBL_SES_STAT_USED : Fld := ⟨rTBL_SES_STAT, 0, 13⟩
abbrev fTBL_SES_CMD_IDX : Fld := ⟨rTBL_SES_CMD, 0, 12⟩
abbrev fTBL_SES_CMD_RW : Fld := ⟨rTBL_SES_CMD, 16, 1⟩
abbrev fTBL_SES_CMD_BUSY : Fld := ⟨rTBL_SES_CMD, 24, 1⟩
abbrev fTBL_SES_CMD_GO : Fld := ⟨rTBL_SES_CMD, 31, 1⟩

/-! ### KEY -/
abbrev rKEY_CFG : Nat := 0x040
abbrev rKEY_STAT : Nat := 0x044
abbrev rKEY_CTRL : Nat := 0x048
abbrev rKEY_ROT_CFG : Nat := 0x04C
abbrev rKEY_RETAIN : Nat := 0x050
abbrev rKEY_CUR_ID : Nat := 0x054
abbrev rKEY_STAGED_ID : Nat := 0x058
abbrev rKEY_ACT_AT_LO : Nat := 0x05C
abbrev rKEY_ACT_AT_HI : Nat := 0x060
abbrev rKEY_NEXT_GEN : Nat := 0x064
abbrev rKEY_DIST_STAT : Nat := 0x068
abbrev rKEY_MINT_PTR : Nat := 0x06C
abbrev rKEY_MINT_CMD : Nat := 0x070
abbrev rKEY_GEN_CNT : Nat := 0x074
abbrev rKEY_MINT_CNT : Nat := 0x078
abbrev rKEY_DIST_FAIL_CNT : Nat := 0x07C
abbrev rKEY_DRBG_FAIL_CNT : Nat := 0x080
abbrev fKEY_CFG_SRC : Fld := ⟨rKEY_CFG, 0, 1⟩
abbrev fKEY_CFG_ROT_EN : Fld := ⟨rKEY_CFG, 1, 1⟩
abbrev fKEY_CFG_AEAD_EN : Fld := ⟨rKEY_CFG, 4, 3⟩
abbrev fKEY_STAT_N_KEYS : Fld := ⟨rKEY_STAT, 0, 3⟩
abbrev fKEY_STAT_STAGED : Fld := ⟨rKEY_STAT, 3, 1⟩
abbrev fKEY_STAT_DRBG_OK : Fld := ⟨rKEY_STAT, 4, 1⟩
abbrev fKEY_STAT_ACTIVE : Fld := ⟨rKEY_STAT, 5, 1⟩
abbrev fKEY_CTRL_ROTATE : Fld := ⟨rKEY_CTRL, 0, 1⟩
abbrev fKEY_CTRL_PURGE : Fld := ⟨rKEY_CTRL, 1, 1⟩
abbrev fKEY_ROT_CFG_PERIOD_MIN : Fld := ⟨rKEY_ROT_CFG, 0, 16⟩
abbrev fKEY_ROT_CFG_ACT_DELAY : Fld := ⟨rKEY_ROT_CFG, 16, 8⟩
abbrev fKEY_RETAIN_COUNT : Fld := ⟨rKEY_RETAIN, 0, 3⟩
abbrev fKEY_DIST_STAT_DIE : Fld := ⟨rKEY_DIST_STAT, 0, 4⟩
abbrev fKEY_DIST_STAT_LINK : Fld := ⟨rKEY_DIST_STAT, 8, 4⟩
abbrev fKEY_MINT_PTR_ADDR : Fld := ⟨rKEY_MINT_PTR, 6, 26⟩
abbrev fKEY_MINT_CMD_GO : Fld := ⟨rKEY_MINT_CMD, 0, 1⟩
abbrev fKEY_MINT_CMD_BUSY : Fld := ⟨rKEY_MINT_CMD, 8, 1⟩
abbrev fKEY_MINT_CMD_DONE : Fld := ⟨rKEY_MINT_CMD, 9, 1⟩
abbrev fKEY_MINT_CMD_ERR : Fld := ⟨rKEY_MINT_CMD, 10, 1⟩
abbrev fKEY_MINT_CMD_CODE : Fld := ⟨rKEY_MINT_CMD, 12, 3⟩

/-! ### SIV -/
abbrev rSIV_CFG : Nat := 0x040
abbrev rSIV_STAT : Nat := 0x044
abbrev rSIV_CUR_ID : Nat := 0x048
abbrev rSIV_KID (k : Nat) : Nat := 0x04C + 0x4 * k
abbrev rSIV_NOKEY_CNT : Nat := 0x060
abbrev rSIV_FORMAT_CNT : Nat := 0x064
abbrev rSIV_COOKIE_KEY_CNT : Nat := 0x068
abbrev rSIV_COOKIE_AUTH_CNT : Nat := 0x06C
abbrev rSIV_AUTH_FAIL_CNT : Nat := 0x070
abbrev rSIV_NAK_CNT : Nat := 0x074
abbrev rSIV_PH_IGN_CNT : Nat := 0x078
abbrev rSIV_CROSS_ERR_CNT : Nat := 0x07C
abbrev rSIV_COOKIES_LO : Nat := 0x080
abbrev rSIV_COOKIES_HI : Nat := 0x084
abbrev fSIV_CFG_NAK_COOKIE : Fld := ⟨rSIV_CFG, 0, 1⟩
abbrev fSIV_CFG_NAK_AUTH : Fld := ⟨rSIV_CFG, 1, 1⟩
abbrev fSIV_CFG_MAX_PH : Fld := ⟨rSIV_CFG, 2, 3⟩
abbrev fSIV_CFG_ENC_EF : Fld := ⟨rSIV_CFG, 8, 1⟩
abbrev fSIV_STAT_KEYS_READY : Fld := ⟨rSIV_STAT, 0, 1⟩
abbrev fSIV_STAT_N_KEYS : Fld := ⟨rSIV_STAT, 1, 3⟩
abbrev fSIV_STAT_CROSS_UP : Fld := ⟨rSIV_STAT, 4, 1⟩
abbrev fSIV_STAT_KSTATE : Fld := ⟨rSIV_STAT, 15, 10⟩

/-! ### PTE -/
abbrev rPTE_CFG : Nat := 0x040
abbrev rPTE_STAT : Nat := 0x044
abbrev rPTE_CLOCK_ID_LO : Nat := 0x048
abbrev rPTE_CLOCK_ID_HI : Nat := 0x04C
abbrev rPTE_CLASS : Nat := 0x050
abbrev rPTE_TSRC : Nat := 0x054
abbrev rPTE_IP_CFG : Nat := 0x058
abbrev rPTE_UNC_SPEC : Nat := 0x05C
abbrev rPTE_LEAD : Nat := 0x060
abbrev rPTE_INST_CMD : Nat := 0x064
abbrev rPTE_INST_DATA (k : Nat) : Nat := 0x068 + 0x4 * k
abbrev rPTE_INST_ACT : Nat := 0x078
abbrev rPTE_INST_PASSIVE : Nat := 0x07C
abbrev rPTE_BR_CFG (k : Nat) : Nat := 0x080 + 0x4 * k
abbrev rPTE_BR_STAT : Nat := 0x090
abbrev rPTE_ASCAP : Nat := 0x094
abbrev rPTE_PDLY (k : Nat) : Nat := 0x0C0 + 0x4 * k
abbrev rPTE_RX_CFG (k : Nat) : Nat := 0x100 + 0x40 * k
abbrev rPTE_RX_UNI (k : Nat) : Nat := 0x104 + 0x40 * k
abbrev rPTE_RX_DURATION (k : Nat) : Nat := 0x108 + 0x40 * k
abbrev rPTE_RX_MADDR0 (k : Nat) : Nat := 0x10C + 0x40 * k
abbrev rPTE_RX_MADDR1 (k : Nat) : Nat := 0x110 + 0x40 * k
abbrev rPTE_RX_MADDR2 (k : Nat) : Nat := 0x114 + 0x40 * k
abbrev rPTE_RX_MADDR3 (k : Nat) : Nat := 0x118 + 0x40 * k
abbrev rPTE_RX_STAT (k : Nat) : Nat := 0x11C + 0x40 * k
abbrev rPTE_RX_MASTER_LO (k : Nat) : Nat := 0x120 + 0x40 * k
abbrev rPTE_RX_MASTER_HI (k : Nat) : Nat := 0x124 + 0x40 * k
abbrev rPTE_RX_MASTER_Q (k : Nat) : Nat := 0x128 + 0x40 * k
abbrev rPTE_RX_DELAY (k : Nat) : Nat := 0x12C + 0x40 * k
abbrev rPTE_RX_MS (k : Nat) : Nat := 0x130 + 0x40 * k
abbrev rPTE_RX_SM (k : Nat) : Nat := 0x134 + 0x40 * k
abbrev rPTE_RX_UTC (k : Nat) : Nat := 0x138 + 0x40 * k
abbrev rPTE_RX_SAMPLE_CNT (k : Nat) : Nat := 0x13C + 0x40 * k
abbrev rPTE_SA_CMD : Nat := 0x180
abbrev rPTE_SA_DATA0 : Nat := 0x184
abbrev rPTE_SA_DATA1 : Nat := 0x188
abbrev rPTE_SA_KEY (k : Nat) : Nat := 0x190 + 0x4 * k
abbrev rPTE_EV_TX_CNT : Nat := 0x1C0
abbrev rPTE_DRESP_CNT : Nat := 0x1C4
abbrev rPTE_PRESP_CNT : Nat := 0x1C8
abbrev rPTE_BAD_CNT : Nat := 0x1CC
abbrev rPTE_UNCAL_CNT : Nat := 0x1D0
abbrev rPTE_BOOK_REJ_CNT : Nat := 0x1D4
abbrev rPTE_FOREIGN_CNT : Nat := 0x1D8
abbrev rPTE_NOGRANT_CNT : Nat := 0x1DC
abbrev rPTE_AUTH_FAIL_CNT : Nat := 0x1E0
abbrev rPTE_AUTH_MISS_CNT : Nat := 0x1E4
abbrev rPTE_OVF_CNT : Nat := 0x1E8
abbrev rPTE_TC_FWD_CNT : Nat := 0x1EC
abbrev rPTE_TC_NOLD_CNT : Nat := 0x1F0
abbrev fPTE_CFG_SAFE_MODE : Fld := ⟨rPTE_CFG, 0, 1⟩
abbrev fPTE_CFG_V6_SCOPE : Fld := ⟨rPTE_CFG, 8, 4⟩
abbrev fPTE_STAT_FORM : Fld := ⟨rPTE_STAT, 0, 2⟩
abbrev fPTE_STAT_SAFE_LINE : Fld := ⟨rPTE_STAT, 2, 1⟩
abbrev fPTE_STAT_VIEW_STALE : Fld := ⟨rPTE_STAT, 3, 1⟩
abbrev fPTE_CLASS_LOCKED : Fld := ⟨rPTE_CLASS, 0, 8⟩
abbrev fPTE_CLASS_HOLD : Fld := ⟨rPTE_CLASS, 8, 8⟩
abbrev fPTE_CLASS_OUT_SPEC : Fld := ⟨rPTE_CLASS, 16, 8⟩
abbrev fPTE_CLASS_FREE : Fld := ⟨rPTE_CLASS, 24, 8⟩
abbrev fPTE_TSRC_GNSS : Fld := ⟨rPTE_TSRC, 0, 8⟩
abbrev fPTE_TSRC_EXT : Fld := ⟨rPTE_TSRC, 8, 8⟩
abbrev fPTE_TSRC_PTP : Fld := ⟨rPTE_TSRC, 16, 8⟩
abbrev fPTE_TSRC_ASKU : Fld := ⟨rPTE_TSRC, 24, 8⟩
abbrev fPTE_IP_CFG_DSCP_EV : Fld := ⟨rPTE_IP_CFG, 0, 6⟩
abbrev fPTE_IP_CFG_DSCP_GEN : Fld := ⟨rPTE_IP_CFG, 8, 6⟩
abbrev fPTE_IP_CFG_TTL : Fld := ⟨rPTE_IP_CFG, 16, 8⟩
abbrev fPTE_LEAD_NS : Fld := ⟨rPTE_LEAD, 0, 16⟩
abbrev fPTE_INST_CMD_IDX : Fld := ⟨rPTE_INST_CMD, 0, 5⟩
abbrev fPTE_INST_CMD_RW : Fld := ⟨rPTE_INST_CMD, 8, 1⟩
abbrev fPTE_INST_CMD_ERR : Fld := ⟨rPTE_INST_CMD, 12, 3⟩
abbrev fPTE_INST_CMD_BUSY : Fld := ⟨rPTE_INST_CMD, 16, 1⟩
abbrev fPTE_INST_CMD_GO : Fld := ⟨rPTE_INST_CMD, 31, 1⟩
abbrev fPTE_BR_CFG_EN (k : Nat) : Fld := ⟨rPTE_BR_CFG k, 0, 1⟩
abbrev fPTE_BR_CFG_PORT_A (k : Nat) : Fld := ⟨rPTE_BR_CFG k, 1, 5⟩
abbrev fPTE_BR_CFG_PORT_B (k : Nat) : Fld := ⟨rPTE_BR_CFG k, 6, 5⟩
abbrev fPTE_BR_CFG_TC_MODE (k : Nat) : Fld := ⟨rPTE_BR_CFG k, 11, 1⟩
abbrev fPTE_BR_CFG_AUTH_RECOMPUTE (k : Nat) : Fld := ⟨rPTE_BR_CFG k, 12, 1⟩
abbrev fPTE_BR_CFG_SA (k : Nat) : Fld := ⟨rPTE_BR_CFG k, 16, 4⟩
abbrev fPTE_BR_STAT_ON : Fld := ⟨rPTE_BR_STAT, 0, 4⟩
abbrev fPTE_BR_STAT_REFUSED : Fld := ⟨rPTE_BR_STAT, 4, 4⟩
abbrev fPTE_BR_STAT_MODE_MISMATCH : Fld := ⟨rPTE_BR_STAT, 8, 4⟩
abbrev fPTE_ASCAP_PORT : Fld := ⟨rPTE_ASCAP, 0, 8⟩
abbrev fPTE_PDLY_PS (k : Nat) : Fld := ⟨rPTE_PDLY k, 0, 31⟩
abbrev fPTE_PDLY_VALID (k : Nat) : Fld := ⟨rPTE_PDLY k, 31, 1⟩
abbrev fPTE_RX_CFG_EN (k : Nat) : Fld := ⟨rPTE_RX_CFG k, 0, 1⟩
abbrev fPTE_RX_CFG_PORT (k : Nat) : Fld := ⟨rPTE_RX_CFG k, 1, 3⟩
abbrev fPTE_RX_CFG_PROFILE (k : Nat) : Fld := ⟨rPTE_RX_CFG k, 4, 3⟩
abbrev fPTE_RX_CFG_TRANSPORT (k : Nat) : Fld := ⟨rPTE_RX_CFG k, 8, 2⟩
abbrev fPTE_RX_CFG_UNI (k : Nat) : Fld := ⟨rPTE_RX_CFG k, 10, 1⟩
abbrev fPTE_RX_CFG_AUTH (k : Nat) : Fld := ⟨rPTE_RX_CFG k, 12, 2⟩
abbrev fPTE_RX_CFG_ADDR (k : Nat) : Fld := ⟨rPTE_RX_CFG k, 16, 4⟩
abbrev fPTE_RX_CFG_DOMAIN (k : Nat) : Fld := ⟨rPTE_RX_CFG k, 20, 8⟩
abbrev fPTE_RX_CFG_SA (k : Nat) : Fld := ⟨rPTE_RX_CFG k, 28, 4⟩
abbrev fPTE_RX_UNI_LOG_ANN (k : Nat) : Fld := ⟨rPTE_RX_UNI k, 0, 8⟩
abbrev fPTE_RX_UNI_LOG_SYNC (k : Nat) : Fld := ⟨rPTE_RX_UNI k, 8, 8⟩
abbrev fPTE_RX_UNI_LOG_DRESP (k : Nat) : Fld := ⟨rPTE_RX_UNI k, 16, 8⟩
abbrev fPTE_RX_UNI_MAX_CLASS (k : Nat) : Fld := ⟨rPTE_RX_UNI k, 24, 8⟩
abbrev fPTE_RX_DURATION_SEC (k : Nat) : Fld := ⟨rPTE_RX_DURATION k, 0, 16⟩
abbrev fPTE_RX_STAT_STATE (k : Nat) : Fld := ⟨rPTE_RX_STAT k, 0, 2⟩
abbrev fPTE_RX_STAT_GRANTED (k : Nat) : Fld := ⟨rPTE_RX_STAT k, 4, 3⟩
abbrev fPTE_RX_MASTER_Q_PORT (k : Nat) : Fld := ⟨rPTE_RX_MASTER_Q k, 0, 16⟩
abbrev fPTE_RX_MASTER_Q_CLASS (k : Nat) : Fld := ⟨rPTE_RX_MASTER_Q k, 16, 8⟩
abbrev fPTE_RX_MASTER_Q_ACC (k : Nat) : Fld := ⟨rPTE_RX_MASTER_Q k, 24, 8⟩
abbrev fPTE_RX_UTC_OFFSET (k : Nat) : Fld := ⟨rPTE_RX_UTC k, 0, 16⟩
abbrev fPTE_RX_UTC_VALID (k : Nat) : Fld := ⟨rPTE_RX_UTC k, 16, 1⟩
abbrev fPTE_RX_UTC_LEAP61 (k : Nat) : Fld := ⟨rPTE_RX_UTC k, 17, 1⟩
abbrev fPTE_RX_UTC_LEAP59 (k : Nat) : Fld := ⟨rPTE_RX_UTC k, 18, 1⟩
abbrev fPTE_RX_UTC_PTP_TS (k : Nat) : Fld := ⟨rPTE_RX_UTC k, 19, 1⟩
abbrev fPTE_SA_CMD_IDX : Fld := ⟨rPTE_SA_CMD, 0, 4⟩
abbrev fPTE_SA_CMD_RW : Fld := ⟨rPTE_SA_CMD, 8, 1⟩
abbrev fPTE_SA_CMD_BUSY : Fld := ⟨rPTE_SA_CMD, 16, 1⟩
abbrev fPTE_SA_CMD_GO : Fld := ⟨rPTE_SA_CMD, 31, 1⟩
abbrev fPTE_SA_DATA1_SPP : Fld := ⟨rPTE_SA_DATA1, 0, 8⟩
abbrev fPTE_SA_DATA1_CF_ZERO : Fld := ⟨rPTE_SA_DATA1, 8, 1⟩
abbrev fPTE_SA_DATA1_VALID : Fld := ⟨rPTE_SA_DATA1, 31, 1⟩

/-! ### MCK -/
abbrev rMCK_STAT : Nat := 0x040
abbrev rMCK_CUE_CFG : Nat := 0x044
abbrev rMCK_CUE_CMD : Nat := 0x048
abbrev rMCK_CUE_DATA (k : Nat) : Nat := 0x04C + 0x4 * k
abbrev rMCK_CUE_STAT : Nat := 0x060
abbrev rMCK_FRM_SEL : Nat := 0x064
abbrev rMCK_FRM_LEN : Nat := 0x068
abbrev rMCK_CAP_CFG : Nat := 0x06C
abbrev rMCK_CAP_SEL : Nat := 0x070
abbrev rMCK_CAP_LVL0 : Nat := 0x074
abbrev rMCK_CAP_LVL1 : Nat := 0x078
abbrev rMCK_TOD_CFG : Nat := 0x07C
abbrev rMCK_MCS_CFG (k : Nat) : Nat := 0x080 + 0x4 * k
abbrev rMCK_MCS_NUM (k : Nat) : Nat := 0x090 + 0x4 * k
abbrev rMCK_MCS_PHASE (k : Nat) : Nat := 0x0A0 + 0x4 * k
abbrev rMCK_CLKOUT_CFG : Nat := 0x0B0
abbrev rMCK_CAP_E (k : Nat) : Nat := 0x0C0 + 0x4 * k
abbrev rMCK_CUE_FIRE_CNT : Nat := 0x0E0
abbrev rMCK_CUE_REJ_CNT : Nat := 0x0E4
abbrev rMCK_FRM_OK_CNT : Nat := 0x0E8
abbrev rMCK_FRM_FAIL_CNT : Nat := 0x0EC
abbrev rMCK_CAP_OVF_CNT : Nat := 0x0F0
abbrev rMCK_CAP_MISS_CNT : Nat := 0x0F4
abbrev rMCK_TOD_CNT : Nat := 0x0F8
abbrev rMCK_SKIP_CNT : Nat := 0x0FC
abbrev rMCK_TOUT_CFG (k : Nat) : Nat := 0x100 + 0x10 * k
abbrev rMCK_TOUT_RATE (k : Nat) : Nat := 0x104 + 0x10 * k
abbrev rMCK_TOUT_PHASE (k : Nat) : Nat := 0x108 + 0x10 * k
abbrev rMCK_TOUT_WIDTH (k : Nat) : Nat := 0x10C + 0x10 * k
abbrev fMCK_STAT_SAFE : Fld := ⟨rMCK_STAT, 0, 1⟩
abbrev fMCK_STAT_TIME_OK : Fld := ⟨rMCK_STAT, 1, 1⟩
abbrev fMCK_STAT_QUAL_OK : Fld := ⟨rMCK_STAT, 2, 1⟩
abbrev fMCK_STAT_MCS_RUN : Fld := ⟨rMCK_STAT, 4, 4⟩
abbrev fMCK_STAT_MCS_REFUSED : Fld := ⟨rMCK_STAT, 8, 4⟩
abbrev fMCK_STAT_TOUT_REFUSED : Fld := ⟨rMCK_STAT, 16, 8⟩
abbrev fMCK_STAT_TOUT_FAULT : Fld := ⟨rMCK_STAT, 24, 8⟩
abbrev fMCK_CUE_CFG_FRAME_LEAD : Fld := ⟨rMCK_CUE_CFG, 0, 16⟩
abbrev fMCK_CUE_CFG_SAFE_KEEP : Fld := ⟨rMCK_CUE_CFG, 16, 1⟩
abbrev fMCK_CUE_CMD_PUSH : Fld := ⟨rMCK_CUE_CMD, 0, 1⟩
abbrev fMCK_CUE_CMD_CANCEL : Fld := ⟨rMCK_CUE_CMD, 1, 1⟩
abbrev fMCK_CUE_CMD_FLUSH : Fld := ⟨rMCK_CUE_CMD, 2, 1⟩
abbrev fMCK_CUE_CMD_ERR : Fld := ⟨rMCK_CUE_CMD, 4, 4⟩
abbrev fMCK_CUE_CMD_HANDLE : Fld := ⟨rMCK_CUE_CMD, 16, 16⟩
abbrev fMCK_CUE_DATA0_TYPE : Fld := ⟨rMCK_CUE_DATA 0, 0, 2⟩
abbrev fMCK_CUE_DATA0_OUT : Fld := ⟨rMCK_CUE_DATA 0, 2, 3⟩
abbrev fMCK_CUE_DATA0_ACTION : Fld := ⟨rMCK_CUE_DATA 0, 5, 3⟩
abbrev fMCK_CUE_DATA0_ALIGN : Fld := ⟨rMCK_CUE_DATA 0, 8, 1⟩
abbrev fMCK_CUE_DATA0_MCS_IDX : Fld := ⟨rMCK_CUE_DATA 0, 9, 2⟩
abbrev fMCK_CUE_DATA0_IRQ : Fld := ⟨rMCK_CUE_DATA 0, 11, 1⟩
abbrev fMCK_CUE_DATA0_REC : Fld := ⟨rMCK_CUE_DATA 0, 12, 1⟩
abbrev fMCK_CUE_DATA0_BUF : Fld := ⟨rMCK_CUE_DATA 0, 16, 5⟩
abbrev fMCK_CUE_DATA0_STAMP : Fld := ⟨rMCK_CUE_DATA 0, 21, 1⟩
abbrev fMCK_CUE_DATA4_TS_OFS : Fld := ⟨rMCK_CUE_DATA 4, 0, 11⟩
abbrev fMCK_CUE_DATA4_UDP_OFS : Fld := ⟨rMCK_CUE_DATA 4, 16, 11⟩
abbrev fMCK_CUE_STAT_LVL : Fld := ⟨rMCK_CUE_STAT, 0, 9⟩
abbrev fMCK_CUE_STAT_LAST_STATUS : Fld := ⟨rMCK_CUE_STAT, 16, 4⟩
abbrev fMCK_CUE_STAT_LAST_PORT : Fld := ⟨rMCK_CUE_STAT, 24, 5⟩
abbrev fMCK_FRM_SEL_BUF : Fld := ⟨rMCK_FRM_SEL, 0, 5⟩
abbrev fMCK_FRM_LEN_LEN : Fld := ⟨rMCK_FRM_LEN, 0, 11⟩
abbrev fMCK_CAP_CFG_EDGE : Fld := ⟨rMCK_CAP_CFG, 0, 16⟩
abbrev fMCK_CAP_CFG_THRESH : Fld := ⟨rMCK_CAP_CFG, 16, 7⟩
abbrev fMCK_CAP_SEL_N : Fld := ⟨rMCK_CAP_SEL, 0, 3⟩
abbrev fMCK_CAP_LVL0_LVL : Fld := ⟨rMCK_CAP_LVL0, 0, 7⟩
abbrev fMCK_CAP_LVL0_LVL2 : Fld := ⟨rMCK_CAP_LVL0, 8, 7⟩
abbrev fMCK_CAP_LVL0_LVL3 : Fld := ⟨rMCK_CAP_LVL0, 16, 7⟩
abbrev fMCK_CAP_LVL0_LVL4 : Fld := ⟨rMCK_CAP_LVL0, 24, 7⟩
abbrev fMCK_CAP_LVL1_LVL : Fld := ⟨rMCK_CAP_LVL1, 0, 7⟩
abbrev fMCK_CAP_LVL1_LVL2 : Fld := ⟨rMCK_CAP_LVL1, 8, 7⟩
abbrev fMCK_CAP_LVL1_LVL3 : Fld := ⟨rMCK_CAP_LVL1, 16, 7⟩
abbrev fMCK_CAP_LVL1_LVL4 : Fld := ⟨rMCK_CAP_LVL1, 24, 7⟩
abbrev fMCK_TOD_CFG_BAUD0 : Fld := ⟨rMCK_TOD_CFG, 0, 3⟩
abbrev fMCK_TOD_CFG_BAUD1 : Fld := ⟨rMCK_TOD_CFG, 16, 3⟩
abbrev fMCK_TOD_CFG_EN0 : Fld := ⟨rMCK_TOD_CFG, 3, 1⟩
abbrev fMCK_TOD_CFG_EN1 : Fld := ⟨rMCK_TOD_CFG, 19, 1⟩
abbrev fMCK_TOD_CFG_SAFE_STOP0 : Fld := ⟨rMCK_TOD_CFG, 4, 1⟩
abbrev fMCK_TOD_CFG_SAFE_STOP1 : Fld := ⟨rMCK_TOD_CFG, 20, 1⟩
abbrev fMCK_TOD_CFG_OFFSET0 : Fld := ⟨rMCK_TOD_CFG, 5, 10⟩
abbrev fMCK_TOD_CFG_OFFSET1 : Fld := ⟨rMCK_TOD_CFG, 21, 10⟩
abbrev fMCK_MCS_CFG_EN (k : Nat) : Fld := ⟨rMCK_MCS_CFG k, 0, 1⟩
abbrev fMCK_MCS_CFG_GATE (k : Nat) : Fld := ⟨rMCK_MCS_CFG k, 1, 2⟩
abbrev fMCK_MCS_CFG_NUM_HI (k : Nat) : Fld := ⟨rMCK_MCS_CFG k, 8, 8⟩
abbrev fMCK_MCS_CFG_DEN (k : Nat) : Fld := ⟨rMCK_MCS_CFG k, 16, 12⟩
abbrev fMCK_CLKOUT_CFG_SRC0 : Fld := ⟨rMCK_CLKOUT_CFG, 0, 3⟩
abbrev fMCK_CLKOUT_CFG_SRC1 : Fld := ⟨rMCK_CLKOUT_CFG, 16, 3⟩
abbrev fMCK_CLKOUT_CFG_RAW_RATE0 : Fld := ⟨rMCK_CLKOUT_CFG, 3, 3⟩
abbrev fMCK_CLKOUT_CFG_RAW_RATE1 : Fld := ⟨rMCK_CLKOUT_CFG, 19, 3⟩
abbrev fMCK_CLKOUT_CFG_SAFE0 : Fld := ⟨rMCK_CLKOUT_CFG, 6, 1⟩
abbrev fMCK_CLKOUT_CFG_SAFE1 : Fld := ⟨rMCK_CLKOUT_CFG, 22, 1⟩
abbrev fMCK_CLKOUT_CFG_GATE0 : Fld := ⟨rMCK_CLKOUT_CFG, 7, 2⟩
abbrev fMCK_CLKOUT_CFG_GATE1 : Fld := ⟨rMCK_CLKOUT_CFG, 23, 2⟩
abbrev fMCK_CAP_E0_VALID : Fld := ⟨rMCK_CAP_E 0, 0, 1⟩
abbrev fMCK_CAP_E0_EDGE : Fld := ⟨rMCK_CAP_E 0, 1, 1⟩
abbrev fMCK_CAP_E0_LOST : Fld := ⟨rMCK_CAP_E 0, 2, 1⟩
abbrev fMCK_CAP_E0_TSET : Fld := ⟨rMCK_CAP_E 0, 3, 1⟩
abbrev fMCK_CAP_E0_SCALE : Fld := ⟨rMCK_CAP_E 0, 4, 4⟩
abbrev fMCK_CAP_E0_INPUT : Fld := ⟨rMCK_CAP_E 0, 8, 3⟩
abbrev fMCK_CAP_E4_SEC : Fld := ⟨rMCK_CAP_E 4, 0, 16⟩
abbrev fMCK_CAP_E4_FRAC : Fld := ⟨rMCK_CAP_E 4, 16, 16⟩
abbrev fMCK_CAP_E5_NS : Fld := ⟨rMCK_CAP_E 5, 0, 30⟩
abbrev fMCK_TOUT_CFG_MODE (k : Nat) : Fld := ⟨rMCK_TOUT_CFG k, 0, 3⟩
abbrev fMCK_TOUT_CFG_POL (k : Nat) : Fld := ⟨rMCK_TOUT_CFG k, 3, 1⟩
abbrev fMCK_TOUT_CFG_LEVEL (k : Nat) : Fld := ⟨rMCK_TOUT_CFG k, 4, 1⟩
abbrev fMCK_TOUT_CFG_MCS_IDX (k : Nat) : Fld := ⟨rMCK_TOUT_CFG k, 5, 2⟩
abbrev fMCK_TOUT_CFG_GATE (k : Nat) : Fld := ⟨rMCK_TOUT_CFG k, 7, 2⟩
abbrev fMCK_TOUT_CFG_SAFE (k : Nat) : Fld := ⟨rMCK_TOUT_CFG k, 9, 2⟩
abbrev fMCK_TOUT_RATE_NUM (k : Nat) : Fld := ⟨rMCK_TOUT_RATE k, 0, 20⟩
abbrev fMCK_TOUT_RATE_DEN (k : Nat) : Fld := ⟨rMCK_TOUT_RATE k, 20, 12⟩

/-! ### TDC -/
abbrev rTDC_CFG : Nat := 0x040
abbrev rTDC_STAT : Nat := 0x044
abbrev rTDC_CTRL : Nat := 0x048
abbrev rTDC_STOP_MASK : Nat := 0x04C
abbrev rTDC_EDGE : Nat := 0x050
abbrev rTDC_HF_CFG : Nat := 0x054
abbrev rTDC_TIMEOUT : Nat := 0x058
abbrev rTDC_FREQ_GATE : Nat := 0x05C
abbrev rTDC_RING_CMD : Nat := 0x060
abbrev rTDC_RING_RES : Nat := 0x064
abbrev rTDC_CH_OFS (k : Nat) : Nat := 0x080 + 0x4 * k
abbrev rTDC_RES (k : Nat) : Nat := 0x0C0 + 0x4 * k
abbrev rTDC_MEAS_CNT : Nat := 0x0E0
abbrev rTDC_ORDER_CNT : Nat := 0x0E4
abbrev rTDC_COINC_CNT : Nat := 0x0E8
abbrev rTDC_TIMEOUT_CNT : Nat := 0x0EC
abbrev rTDC_MISS_CNT : Nat := 0x0F0
abbrev rTDC_OVF_CNT : Nat := 0x0F4
abbrev fTDC_CFG_MODE : Fld := ⟨rTDC_CFG, 0, 2⟩
abbrev fTDC_CFG_ARM : Fld := ⟨rTDC_CFG, 2, 2⟩
abbrev fTDC_CFG_GATE_POL : Fld := ⟨rTDC_CFG, 4, 1⟩
abbrev fTDC_CFG_REPEAT : Fld := ⟨rTDC_CFG, 5, 1⟩
abbrev fTDC_CFG_SIGNED : Fld := ⟨rTDC_CFG, 6, 1⟩
abbrev fTDC_CFG_START_CH : Fld := ⟨rTDC_CFG, 8, 4⟩
abbrev fTDC_CFG_AVG_LOG2 : Fld := ⟨rTDC_CFG, 12, 4⟩
abbrev fTDC_CFG_THRESH : Fld := ⟨rTDC_CFG, 16, 9⟩
abbrev fTDC_STAT_ARMED : Fld := ⟨rTDC_STAT, 0, 1⟩
abbrev fTDC_STAT_BUSY : Fld := ⟨rTDC_STAT, 1, 1⟩
abbrev fTDC_STAT_CAL_OK : Fld := ⟨rTDC_STAT, 2, 1⟩
abbrev fTDC_STAT_ERR : Fld := ⟨rTDC_STAT, 4, 3⟩
abbrev fTDC_STAT_LVL : Fld := ⟨rTDC_STAT, 16, 9⟩
abbrev fTDC_CTRL_ARM : Fld := ⟨rTDC_CTRL, 0, 1⟩
abbrev fTDC_CTRL_DISARM : Fld := ⟨rTDC_CTRL, 1, 1⟩
abbrev fTDC_CTRL_FLUSH : Fld := ⟨rTDC_CTRL, 2, 1⟩
abbrev fTDC_STOP_MASK_CH : Fld := ⟨rTDC_STOP_MASK, 0, 10⟩
abbrev fTDC_EDGE_CAP : Fld := ⟨rTDC_EDGE, 0, 16⟩
abbrev fTDC_HF_CFG_P0 : Fld := ⟨rTDC_HF_CFG, 0, 4⟩
abbrev fTDC_HF_CFG_P1 : Fld := ⟨rTDC_HF_CFG, 8, 4⟩
abbrev fTDC_HF_CFG_EN0 : Fld := ⟨rTDC_HF_CFG, 4, 1⟩
abbrev fTDC_HF_CFG_EN1 : Fld := ⟨rTDC_HF_CFG, 12, 1⟩
abbrev fTDC_TIMEOUT_US : Fld := ⟨rTDC_TIMEOUT, 0, 24⟩
abbrev fTDC_FREQ_GATE_MS : Fld := ⟨rTDC_FREQ_GATE, 0, 16⟩
abbrev fTDC_RING_CMD_LANE : Fld := ⟨rTDC_RING_CMD, 0, 6⟩
abbrev fTDC_RING_CMD_BUSY : Fld := ⟨rTDC_RING_CMD, 8, 1⟩
abbrev fTDC_RING_CMD_ERR : Fld := ⟨rTDC_RING_CMD, 10, 2⟩
abbrev fTDC_RING_CMD_GO : Fld := ⟨rTDC_RING_CMD, 31, 1⟩
abbrev fTDC_RING_RES_PS : Fld := ⟨rTDC_RING_RES, 0, 16⟩
abbrev fTDC_RING_RES_LANE : Fld := ⟨rTDC_RING_RES, 16, 6⟩
abbrev fTDC_RES0_VALID : Fld := ⟨rTDC_RES 0, 0, 1⟩
abbrev fTDC_RES0_KIND : Fld := ⟨rTDC_RES 0, 1, 2⟩
abbrev fTDC_RES0_CH : Fld := ⟨rTDC_RES 0, 3, 4⟩
abbrev fTDC_RES0_COINCIDENT : Fld := ⟨rTDC_RES 0, 7, 1⟩
abbrev fTDC_RES0_ORDER : Fld := ⟨rTDC_RES 0, 8, 1⟩
abbrev fTDC_RES0_TIMEOUT : Fld := ⟨rTDC_RES 0, 9, 1⟩
abbrev fTDC_RES0_LOST : Fld := ⟨rTDC_RES 0, 10, 1⟩
abbrev fTDC_RES0_AVG : Fld := ⟨rTDC_RES 0, 11, 1⟩
abbrev fTDC_RES0_SCALE : Fld := ⟨rTDC_RES 0, 12, 4⟩
abbrev fTDC_RES0_UNCAL : Fld := ⟨rTDC_RES 0, 16, 1⟩
abbrev fTDC_RES0_SEQ : Fld := ⟨rTDC_RES 0, 17, 15⟩

/-! ### PKE -/
abbrev rPKE_CFG : Nat := 0x040
abbrev rPKE_STAT : Nat := 0x044
abbrev rPKE_YIELD_CFG : Nat := 0x048
abbrev rPKE_SET_LEN0 : Nat := 0x04C
abbrev rPKE_SET_LEN1 : Nat := 0x050
abbrev rPKE_SLOT_CMD : Nat := 0x054
abbrev rPKE_SLOT_STAT : Nat := 0x058
abbrev rPKE_JOB_CNT : Nat := 0x05C
abbrev rPKE_ABORT_CNT : Nat := 0x060
abbrev rPKE_REFUSE_CNT : Nat := 0x064
abbrev rPKE_YIELD_CNT : Nat := 0x068
abbrev rPKE_WIPE_CNT : Nat := 0x06C
abbrev fPKE_CFG_HOST_EN : Fld := ⟨rPKE_CFG, 0, 1⟩
abbrev fPKE_STAT_LANE_BUSY : Fld := ⟨rPKE_STAT, 0, 16⟩
abbrev fPKE_STAT_SLOT_BUSY : Fld := ⟨rPKE_STAT, 16, 1⟩
abbrev fPKE_YIELD_CFG_SHORT : Fld := ⟨rPKE_YIELD_CFG, 0, 24⟩
abbrev fPKE_YIELD_CFG_YIELD_EN : Fld := ⟨rPKE_YIELD_CFG, 31, 1⟩
abbrev fPKE_SET_LEN0_LEN : Fld := ⟨rPKE_SET_LEN0, 0, 24⟩
abbrev fPKE_SET_LEN1_LEN : Fld := ⟨rPKE_SET_LEN1, 0, 24⟩
abbrev fPKE_SLOT_CMD_FIRST : Fld := ⟨rPKE_SLOT_CMD, 0, 12⟩
abbrev fPKE_SLOT_CMD_COUNT : Fld := ⟨rPKE_SLOT_CMD, 12, 8⟩
abbrev fPKE_SLOT_CMD_OP : Fld := ⟨rPKE_SLOT_CMD, 20, 3⟩
abbrev fPKE_SLOT_CMD_CTX : Fld := ⟨rPKE_SLOT_CMD, 24, 3⟩
abbrev fPKE_SLOT_CMD_GO : Fld := ⟨rPKE_SLOT_CMD, 31, 1⟩
abbrev fPKE_SLOT_STAT_BUSY : Fld := ⟨rPKE_SLOT_STAT, 0, 1⟩
abbrev fPKE_SLOT_STAT_DONE : Fld := ⟨rPKE_SLOT_STAT, 1, 1⟩
abbrev fPKE_SLOT_STAT_ERR : Fld := ⟨rPKE_SLOT_STAT, 2, 3⟩
abbrev fPKE_SLOT_STAT_OWNER : Fld := ⟨rPKE_SLOT_STAT, 8, 4⟩

/-! ### PKEL -/
abbrev rPKEL_JOB_PTR : Nat := 0x040
abbrev rPKEL_JOB_CMD : Nat := 0x044
abbrev rPKEL_STAT : Nat := 0x048
abbrev rPKEL_LAST : Nat := 0x04C
abbrev rPKEL_LAST_CYC : Nat := 0x050
abbrev rPKEL_JOB_CNT : Nat := 0x054
abbrev fPKEL_JOB_PTR_ADDR : Fld := ⟨rPKEL_JOB_PTR, 6, 26⟩
abbrev fPKEL_JOB_CMD_GO : Fld := ⟨rPKEL_JOB_CMD, 0, 1⟩
abbrev fPKEL_JOB_CMD_ABORT : Fld := ⟨rPKEL_JOB_CMD, 1, 1⟩
abbrev fPKEL_JOB_CMD_CTX : Fld := ⟨rPKEL_JOB_CMD, 4, 3⟩
abbrev fPKEL_JOB_CMD_BUSY : Fld := ⟨rPKEL_JOB_CMD, 8, 1⟩
abbrev fPKEL_JOB_CMD_ERR : Fld := ⟨rPKEL_JOB_CMD, 12, 4⟩
abbrev fPKEL_JOB_CMD_TICKET : Fld := ⟨rPKEL_JOB_CMD, 16, 8⟩
abbrev fPKEL_STAT_JOBS : Fld := ⟨rPKEL_STAT, 0, 3⟩
abbrev fPKEL_STAT_RUN : Fld := ⟨rPKEL_STAT, 3, 1⟩
abbrev fPKEL_STAT_SUSP : Fld := ⟨rPKEL_STAT, 4, 1⟩
abbrev fPKEL_STAT_READY : Fld := ⟨rPKEL_STAT, 5, 1⟩
abbrev fPKEL_STAT_RUN_TICKET : Fld := ⟨rPKEL_STAT, 8, 8⟩
abbrev fPKEL_STAT_SUSP_TICKET : Fld := ⟨rPKEL_STAT, 16, 8⟩
abbrev fPKEL_LAST_TICKET : Fld := ⟨rPKEL_LAST, 0, 8⟩
abbrev fPKEL_LAST_DONE : Fld := ⟨rPKEL_LAST, 8, 1⟩
abbrev fPKEL_LAST_ABORTED : Fld := ⟨rPKEL_LAST, 9, 1⟩
abbrev fPKEL_LAST_CAUSE : Fld := ⟨rPKEL_LAST, 10, 3⟩
abbrev fPKEL_LAST_ANY : Fld := ⟨rPKEL_LAST, 13, 1⟩
abbrev fPKEL_LAST_LAST_IDX : Fld := ⟨rPKEL_LAST, 16, 8⟩
abbrev fPKEL_LAST_YIELDS : Fld := ⟨rPKEL_LAST, 24, 8⟩

/-! ### CPU -/
abbrev rCPU_HART_STAT : Nat := 0x040
abbrev rCPU_HART_CTRL : Nat := 0x044
abbrev rCPU_SHARED : Nat := 0x048
abbrev rCPU_CLK_CFG : Nat := 0x04C
abbrev rCPU_REG (k : Nat) : Nat := 0x050 + 0x4 * (k - 2)
abbrev rCPU_START (k : Nat) : Nat := 0x060 + 0x4 * k
abbrev rCPU_APP_WR : Nat := 0x078
abbrev rCPU_ROUTE (k : Nat) : Nat := 0x080 + 0x4 * k
abbrev rCPU_DB (k : Nat) : Nat := 0x0A0 + 0x4 * k
abbrev rCPU_DB_PEND : Nat := 0x0B8
abbrev rCPU_WDT_CFG (k : Nat) : Nat := 0x0C0 + 0x4 * k
abbrev rCPU_WDT_GUARD : Nat := 0x0D8
abbrev rCPU_WDT_STAT : Nat := 0x0DC
abbrev rCPU_WDT_EXP_CNT : Nat := 0x0E0
abbrev rCPU_DENY_CNT : Nat := 0x0E4
abbrev rCPU_DB_OVR_CNT : Nat := 0x0E8
abbrev rCPU_LAST_DENY : Nat := 0x0EC
abbrev fCPU_HART_STAT_RUN : Fld := ⟨rCPU_HART_STAT, 0, 6⟩
abbrev fCPU_HART_STAT_HALTED : Fld := ⟨rCPU_HART_STAT, 8, 6⟩
abbrev fCPU_HART_CTRL_RUN : Fld := ⟨rCPU_HART_CTRL, 0, 6⟩
abbrev fCPU_HART_CTRL_HALT : Fld := ⟨rCPU_HART_CTRL, 8, 6⟩
abbrev fCPU_HART_CTRL_RESTART : Fld := ⟨rCPU_HART_CTRL, 16, 6⟩
abbrev fCPU_SHARED_BASE : Fld := ⟨rCPU_SHARED, 0, 8⟩
abbrev fCPU_REG_BASE (k : Nat) : Fld := ⟨rCPU_REG k, 0, 8⟩
abbrev fCPU_SHARED_SIZE : Fld := ⟨rCPU_SHARED, 8, 8⟩
abbrev fCPU_REG_SIZE (k : Nat) : Fld := ⟨rCPU_REG k, 8, 8⟩
abbrev fCPU_CLK_CFG_DIV0 : Fld := ⟨rCPU_CLK_CFG, 0, 2⟩
abbrev fCPU_CLK_CFG_DIV1 : Fld := ⟨rCPU_CLK_CFG, 8, 2⟩
abbrev fCPU_START_PC (k : Nat) : Fld := ⟨rCPU_START k, 2, 30⟩
abbrev fCPU_APP_WR_DIE (j : Nat) : Fld := ⟨rCPU_APP_WR, 0 + 8 * j, 8⟩
abbrev fCPU_ROUTE_DIE (k : Nat) : Fld := ⟨rCPU_ROUTE k, 0, 8⟩
abbrev fCPU_ROUTE_DB (k : Nat) : Fld := ⟨rCPU_ROUTE k, 8, 1⟩
abbrev fCPU_ROUTE_WDT (k : Nat) : Fld := ⟨rCPU_ROUTE k, 9, 1⟩
abbrev fCPU_DB_PEND_PEND : Fld := ⟨rCPU_DB_PEND, 0, 6⟩
abbrev fCPU_WDT_CFG_TIMEOUT_MS (k : Nat) : Fld := ⟨rCPU_WDT_CFG k, 0, 16⟩
abbrev fCPU_WDT_CFG_EN (k : Nat) : Fld := ⟨rCPU_WDT_CFG k, 16, 1⟩
abbrev fCPU_WDT_CFG_ACTION (k : Nat) : Fld := ⟨rCPU_WDT_CFG k, 17, 2⟩
abbrev fCPU_WDT_GUARD_GRACE_MS : Fld := ⟨rCPU_WDT_GUARD, 0, 16⟩
abbrev fCPU_WDT_STAT_EXPIRED : Fld := ⟨rCPU_WDT_STAT, 0, 6⟩
abbrev fCPU_LAST_DENY_HART : Fld := ⟨rCPU_LAST_DENY, 0, 3⟩
abbrev fCPU_LAST_DENY_KIND : Fld := ⟨rCPU_LAST_DENY, 3, 2⟩

/-! ### PMC -/
abbrev rPMC_CTRL : Nat := 0x040
abbrev rPMC_START_AT_LO : Nat := 0x044
abbrev rPMC_START_AT_HI : Nat := 0x048
abbrev rPMC_OVF : Nat := 0x04C
abbrev rPMC_OVF_IRQ : Nat := 0x050
abbrev rPMC_OVF_PC_LO : Nat := 0x054
abbrev rPMC_OVF_PC_HI : Nat := 0x058
abbrev rPMC_OVF_STAMP : Nat := 0x05C
abbrev rPMC_USER_MASK : Nat := 0x060
abbrev rPMC_USER_EN : Nat := 0x064
abbrev rPMC_HOST_USER_EN : Nat := 0x068
abbrev rPMC_CTL (k : Nat) : Nat := 0x080 + 0x4 * k
abbrev rPMC_CNT (k : Nat) : Nat := 0x100 + 0x4 * k
abbrev fPMC_CTRL_FREEZE : Fld := ⟨rPMC_CTRL, 0, 1⟩
abbrev fPMC_CTRL_CLR_ALL : Fld := ⟨rPMC_CTRL, 1, 1⟩
abbrev fPMC_CTRL_ARM_AT : Fld := ⟨rPMC_CTRL, 2, 1⟩
abbrev fPMC_CTRL_ARMED : Fld := ⟨rPMC_CTRL, 3, 1⟩
abbrev fPMC_OVF_STAMP_IDX : Fld := ⟨rPMC_OVF_STAMP, 0, 5⟩
abbrev fPMC_OVF_STAMP_VALID : Fld := ⟨rPMC_OVF_STAMP, 8, 1⟩
abbrev fPMC_OVF_STAMP_MULTI : Fld := ⟨rPMC_OVF_STAMP, 9, 1⟩
abbrev fPMC_USER_EN_HART : Fld := ⟨rPMC_USER_EN, 0, 6⟩
abbrev fPMC_HOST_USER_EN_EN : Fld := ⟨rPMC_HOST_USER_EN, 0, 1⟩
abbrev fPMC_CTL_EVT (k : Nat) : Fld := ⟨rPMC_CTL k, 0, 12⟩
abbrev fPMC_CTL_MODE (k : Nat) : Fld := ⟨rPMC_CTL k, 12, 1⟩
abbrev fPMC_CTL_EN (k : Nat) : Fld := ⟨rPMC_CTL k, 13, 1⟩
abbrev fPMC_CTL_CHAIN (k : Nat) : Fld := ⟨rPMC_CTL k, 14, 1⟩
abbrev fPMC_CTL_INST (k : Nat) : Fld := ⟨rPMC_CTL k, 16, 8⟩
abbrev fPMC_CTL_NOEVT (k : Nat) : Fld := ⟨rPMC_CTL k, 24, 1⟩

/-! ### REC -/
abbrev rREC_CFG : Nat := 0x040
abbrev rREC_STAT : Nat := 0x044
abbrev rREC_CTRL : Nat := 0x048
abbrev rREC_HEAD_SEQ : Nat := 0x04C
abbrev rREC_USED : Nat := 0x050
abbrev rREC_SEV_CNT (k : Nat) : Nat := 0x054 + 0x4 * k
abbrev rREC_DROP_CNT (k : Nat) : Nat := 0x064 + 0x4 * k
abbrev rREC_FILTER_CNT : Nat := 0x074
abbrev rREC_COAL_CNT : Nat := 0x078
abbrev rREC_LAST_SLOT : Nat := 0x07C
abbrev rREC_SW_CMD : Nat := 0x080
abbrev rREC_SW_ARG0 : Nat := 0x084
abbrev rREC_SW_ARG1 : Nat := 0x088
abbrev fREC_CFG_MIN_SEV : Fld := ⟨rREC_CFG, 0, 2⟩
abbrev fREC_CFG_COAL_EN : Fld := ⟨rREC_CFG, 2, 1⟩
abbrev fREC_CFG_COAL_WIN : Fld := ⟨rREC_CFG, 16, 16⟩
abbrev fREC_STAT_EMPTY : Fld := ⟨rREC_STAT, 0, 1⟩
abbrev fREC_STAT_FULL : Fld := ⟨rREC_STAT, 1, 1⟩
abbrev fREC_STAT_CLEARING : Fld := ⟨rREC_STAT, 2, 1⟩
abbrev fREC_CTRL_CLEAR : Fld := ⟨rREC_CTRL, 0, 1⟩
abbrev fREC_CTRL_CLR_SEV : Fld := ⟨rREC_CTRL, 4, 2⟩
abbrev fREC_USED_CNT : Fld := ⟨rREC_USED, 0, 19⟩
abbrev fREC_SEV_CNT_CNT (k : Nat) : Fld := ⟨rREC_SEV_CNT k, 0, 19⟩
abbrev fREC_LAST_SLOT_SLOT : Fld := ⟨rREC_LAST_SLOT, 0, 18⟩
abbrev fREC_SW_CMD_CODE : Fld := ⟨rREC_SW_CMD, 0, 8⟩
abbrev fREC_SW_CMD_SEV : Fld := ⟨rREC_SW_CMD, 8, 2⟩
abbrev fREC_SW_CMD_ERR : Fld := ⟨rREC_SW_CMD, 12, 2⟩
abbrev fREC_SW_CMD_GO : Fld := ⟨rREC_SW_CMD, 31, 1⟩

/-! ### SAF -/
abbrev rSAF_CFG : Nat := 0x040
abbrev rSAF_STAT : Nat := 0x044
abbrev rSAF_CTRL : Nat := 0x048
abbrev rSAF_SETTLE : Nat := 0x04C
abbrev rSAF_POLICY (k : Nat) : Nat := 0x050 + 0x4 * k
abbrev rSAF_ACTIVE_LO : Nat := 0x060
abbrev rSAF_ACTIVE_HI : Nat := 0x064
abbrev rSAF_SEEN_LO : Nat := 0x068
abbrev rSAF_SEEN_HI : Nat := 0x06C
abbrev rSAF_ESC : Nat := 0x070
abbrev rSAF_ESC_MASK_LO : Nat := 0x074
abbrev rSAF_ESC_MASK_HI : Nat := 0x078
abbrev rSAF_SETTLE_LEFT : Nat := 0x07C
abbrev rSAF_DIE_SEEN : Nat := 0x080
abbrev rSAF_ENTRY_CNT : Nat := 0x084
abbrev rSAF_WARN_CNT : Nat := 0x088
abbrev rSAF_ESC_CNT : Nat := 0x08C
abbrev fSAF_CFG_AUTO : Fld := ⟨rSAF_CFG, 0, 1⟩
abbrev fSAF_CFG_ALARM_DEG : Fld := ⟨rSAF_CFG, 1, 1⟩
abbrev fSAF_STAT_SAFE : Fld := ⟨rSAF_STAT, 0, 1⟩
abbrev fSAF_STAT_DEGRADE : Fld := ⟨rSAF_STAT, 1, 1⟩
abbrev fSAF_STAT_SETTLING : Fld := ⟨rSAF_STAT, 2, 1⟩
abbrev fSAF_STAT_READY : Fld := ⟨rSAF_STAT, 3, 1⟩
abbrev fSAF_STAT_ENTRY : Fld := ⟨rSAF_STAT, 4, 4⟩
abbrev fSAF_STAT_SRC : Fld := ⟨rSAF_STAT, 8, 6⟩
abbrev fSAF_CTRL_RELEASE : Fld := ⟨rSAF_CTRL, 0, 1⟩
abbrev fSAF_CTRL_FORCE : Fld := ⟨rSAF_CTRL, 1, 1⟩
abbrev fSAF_CTRL_UNFORCE : Fld := ⟨rSAF_CTRL, 2, 1⟩
abbrev fSAF_SETTLE_SEC : Fld := ⟨rSAF_SETTLE, 0, 16⟩
abbrev fSAF_SETTLE_DEG_MS : Fld := ⟨rSAF_SETTLE, 16, 16⟩
abbrev fSAF_ESC_SEC : Fld := ⟨rSAF_ESC, 0, 16⟩
abbrev fSAF_ESC_MAX : Fld := ⟨rSAF_ESC, 16, 4⟩
abbrev fSAF_SETTLE_LEFT_SEC : Fld := ⟨rSAF_SETTLE_LEFT, 0, 16⟩
abbrev fSAF_DIE_SEEN_DIE : Fld := ⟨rSAF_DIE_SEEN, 0, 8⟩
abbrev fSAF_ESC_CNT_CNT : Fld := ⟨rSAF_ESC_CNT, 0, 4⟩

/-! ### AGE -/
abbrev rAGE_STAT : Nat := 0x040
abbrev rAGE_LIMITS : Nat := 0x044
abbrev rAGE_TILE_CNT : Nat := 0x048
abbrev rAGE_REVIEW_GEN : Nat := 0x04C
abbrev rAGE_ISL (k : Nat) : Nat := 0x050 + 0x4 * k
abbrev rAGE_DRIFT (k : Nat) : Nat := 0x070 + 0x4 * k
abbrev rAGE_REVIEW_CFG : Nat := 0x100
abbrev rAGE_SLACK_CFG : Nat := 0x104
abbrev rAGE_TRIM_CFG : Nat := 0x108
abbrev rAGE_CTRL : Nat := 0x10C
abbrev rAGE_REVIEW_STAT : Nat := 0x110
abbrev rAGE_NEXT_REVIEW : Nat := 0x114
abbrev rAGE_REVIEW_CNT : Nat := 0x118
abbrev rAGE_EMERG_CNT : Nat := 0x11C
abbrev rAGE_AVS (k : Nat) : Nat := 0x120 + 0x4 * k
abbrev fAGE_STAT_MARGIN : Fld := ⟨rAGE_STAT, 0, 1⟩
abbrev fAGE_STAT_CANARY : Fld := ⟨rAGE_STAT, 1, 1⟩
abbrev fAGE_STAT_TILE : Fld := ⟨rAGE_STAT, 2, 1⟩
abbrev fAGE_STAT_TEMP : Fld := ⟨rAGE_STAT, 3, 1⟩
abbrev fAGE_STAT_VOLT : Fld := ⟨rAGE_STAT, 4, 1⟩
abbrev fAGE_STAT_CANARY_ISL : Fld := ⟨rAGE_STAT, 8, 8⟩
abbrev fAGE_LIMITS_TJ_LIMIT : Fld := ⟨rAGE_LIMITS, 0, 8⟩
abbrev fAGE_LIMITS_TILE_LIMIT : Fld := ⟨rAGE_LIMITS, 16, 16⟩
abbrev fAGE_ISL_SLACK (k : Nat) : Fld := ⟨rAGE_ISL k, 0, 8⟩
abbrev fAGE_ISL_ROSC (k : Nat) : Fld := ⟨rAGE_ISL k, 8, 16⟩
abbrev fAGE_ISL_PRESENT (k : Nat) : Fld := ⟨rAGE_ISL k, 24, 1⟩
abbrev fAGE_DRIFT_DRIFT (k : Nat) : Fld := ⟨rAGE_DRIFT k, 0, 16⟩
abbrev fAGE_REVIEW_CFG_PERIOD_H : Fld := ⟨rAGE_REVIEW_CFG, 0, 8⟩
abbrev fAGE_REVIEW_CFG_MODEL_DAYS : Fld := ⟨rAGE_REVIEW_CFG, 8, 8⟩
abbrev fAGE_REVIEW_CFG_MAX_STEPS : Fld := ⟨rAGE_REVIEW_CFG, 16, 4⟩
abbrev fAGE_SLACK_CFG_TGT : Fld := ⟨rAGE_SLACK_CFG, 0, 8⟩
abbrev fAGE_SLACK_CFG_HYST : Fld := ⟨rAGE_SLACK_CFG, 8, 8⟩
abbrev fAGE_SLACK_CFG_FLOOR : Fld := ⟨rAGE_SLACK_CFG, 16, 8⟩
abbrev fAGE_TRIM_CFG_LIMIT : Fld := ⟨rAGE_TRIM_CFG, 0, 16⟩
abbrev fAGE_CTRL_REVIEW : Fld := ⟨rAGE_CTRL, 0, 1⟩
abbrev fAGE_REVIEW_STAT_BUSY : Fld := ⟨rAGE_REVIEW_STAT, 0, 1⟩
abbrev fAGE_REVIEW_STAT_PARTIAL : Fld := ⟨rAGE_REVIEW_STAT, 1, 1⟩
abbrev fAGE_REVIEW_STAT_MODEL_SKIP : Fld := ⟨rAGE_REVIEW_STAT, 2, 1⟩
abbrev fAGE_REVIEW_STAT_MARGIN : Fld := ⟨rAGE_REVIEW_STAT, 3, 1⟩
abbrev fAGE_AVS_MV (k : Nat) : Fld := ⟨rAGE_AVS k, 0, 10⟩

/-! ### ASK -/
abbrev rASK_CFG : Nat := 0x040
abbrev rASK_STAT : Nat := 0x044
abbrev rASK_CTRL : Nat := 0x048
abbrev rASK_LK_PTR : Nat := 0x04C
abbrev rASK_AGREE_STAT : Nat := 0x050
abbrev rASK_PEER_ID_LO : Nat := 0x054
abbrev rASK_PEER_ID_HI : Nat := 0x058
abbrev rASK_PEER_STAT : Nat := 0x05C
abbrev rASK_PEER_UNC : Nat := 0x060
abbrev rASK_TX_DLY : Nat := 0x064
abbrev rASK_RX_DLY : Nat := 0x068
abbrev rASK_EXT_TX_DLY : Nat := 0x06C
abbrev rASK_EXT_RX_DLY : Nat := 0x070
abbrev rASK_DELAY : Nat := 0x074
abbrev rASK_OFS : Nat := 0x078
abbrev rASK_MARK_CNT : Nat := 0x07C
abbrev rASK_MISS_CNT : Nat := 0x080
abbrev rASK_CRC_CNT : Nat := 0x084
abbrev rASK_TRAIN_CNT : Nat := 0x088
abbrev rASK_MB_TX_CMD : Nat := 0x08C
abbrev rASK_MB_RX_STAT : Nat := 0x090
abbrev rASK_OWN_PUB (k : Nat) : Nat := 0x0A0 + 0x4 * k
abbrev rASK_PEER_PUB (k : Nat) : Nat := 0x0C0 + 0x4 * k
abbrev fASK_CFG_MODE : Fld := ⟨rASK_CFG, 0, 2⟩
abbrev fASK_CFG_SLOT : Fld := ⟨rASK_CFG, 2, 2⟩
abbrev fASK_CFG_VER_MAX : Fld := ⟨rASK_CFG, 4, 4⟩
abbrev fASK_CFG_FEAT : Fld := ⟨rASK_CFG, 8, 4⟩
abbrev fASK_CFG_FOLLOW_STEP : Fld := ⟨rASK_CFG, 12, 1⟩
abbrev fASK_STAT_STATE : Fld := ⟨rASK_STAT, 0, 3⟩
abbrev fASK_STAT_KEYS : Fld := ⟨rASK_STAT, 3, 1⟩
abbrev fASK_STAT_VER : Fld := ⟨rASK_STAT, 4, 4⟩
abbrev fASK_STAT_FEAT : Fld := ⟨rASK_STAT, 8, 4⟩
abbrev fASK_STAT_PEER_DEPTH : Fld := ⟨rASK_STAT, 12, 3⟩
abbrev fASK_STAT_ERR : Fld := ⟨rASK_STAT, 16, 4⟩
abbrev fASK_STAT_CHILDREN : Fld := ⟨rASK_STAT, 20, 4⟩
abbrev fASK_CTRL_RETRAIN : Fld := ⟨rASK_CTRL, 0, 1⟩
abbrev fASK_CTRL_PUB_GO : Fld := ⟨rASK_CTRL, 1, 1⟩
abbrev fASK_CTRL_LK_GO : Fld := ⟨rASK_CTRL, 2, 1⟩
abbrev fASK_LK_PTR_CHILD : Fld := ⟨rASK_LK_PTR, 0, 2⟩
abbrev fASK_LK_PTR_ADDR : Fld := ⟨rASK_LK_PTR, 6, 26⟩
abbrev fASK_AGREE_STAT_CHILD : Fld := ⟨rASK_AGREE_STAT, 0, 2⟩
abbrev fASK_AGREE_STAT_PEND : Fld := ⟨rASK_AGREE_STAT, 2, 1⟩
abbrev fASK_AGREE_STAT_CHK_FAIL : Fld := ⟨rASK_AGREE_STAT, 3, 1⟩
abbrev fASK_PEER_STAT_SERVO : Fld := ⟨rASK_PEER_STAT, 0, 3⟩
abbrev fASK_PEER_STAT_SAFE : Fld := ⟨rASK_PEER_STAT, 3, 1⟩
abbrev fASK_PEER_STAT_DEGRADE : Fld := ⟨rASK_PEER_STAT, 4, 1⟩
abbrev fASK_PEER_STAT_TIME_SET : Fld := ⟨rASK_PEER_STAT, 5, 1⟩
abbrev fASK_TX_DLY_PS : Fld := ⟨rASK_TX_DLY, 0, 24⟩
abbrev fASK_RX_DLY_PS : Fld := ⟨rASK_RX_DLY, 0, 24⟩
abbrev fASK_MB_TX_CMD_LEN : Fld := ⟨rASK_MB_TX_CMD, 0, 9⟩
abbrev fASK_MB_TX_CMD_DEST : Fld := ⟨rASK_MB_TX_CMD, 12, 2⟩
abbrev fASK_MB_TX_CMD_LVL : Fld := ⟨rASK_MB_TX_CMD, 16, 5⟩
abbrev fASK_MB_TX_CMD_ERR : Fld := ⟨rASK_MB_TX_CMD, 24, 1⟩
abbrev fASK_MB_TX_CMD_GO : Fld := ⟨rASK_MB_TX_CMD, 31, 1⟩
abbrev fASK_MB_RX_STAT_LEN : Fld := ⟨rASK_MB_RX_STAT, 0, 9⟩
abbrev fASK_MB_RX_STAT_SRC : Fld := ⟨rASK_MB_RX_STAT, 12, 2⟩
abbrev fASK_MB_RX_STAT_LVL : Fld := ⟨rASK_MB_RX_STAT, 16, 5⟩
abbrev fASK_MB_RX_STAT_VALID : Fld := ⟨rASK_MB_RX_STAT, 24, 1⟩
abbrev fASK_MB_RX_STAT_POP : Fld := ⟨rASK_MB_RX_STAT, 31, 1⟩

/-! ### HIF -/
abbrev rHIF_STAT : Nat := 0x040
abbrev rHIF_PCI_ID : Nat := 0x044
abbrev rHIF_INTN_MASK : Nat := 0x048
abbrev rHIF_SRC_PEND : Nat := 0x04C
abbrev rHIF_VMAP (k : Nat) : Nat := 0x050 + 0x4 * k
abbrev rHIF_EOI : Nat := 0x070
abbrev rHIF_HDB : Nat := 0x074
abbrev rHIF_HDB_OVR_CNT : Nat := 0x078
abbrev rHIF_NOROUTE_CNT : Nat := 0x07C
abbrev rHIF_CON_DATA : Nat := 0x080
abbrev rHIF_CON_STAT : Nat := 0x084
abbrev rHIF_RING_CFG (k : Nat) : Nat := 0x100 + 0x20 * k
abbrev rHIF_RING_BASE_LO (k : Nat) : Nat := 0x104 + 0x20 * k
abbrev rHIF_RING_BASE_HI (k : Nat) : Nat := 0x108 + 0x20 * k
abbrev rHIF_RING_HEAD (k : Nat) : Nat := 0x10C + 0x20 * k
abbrev rHIF_RING_TAIL (k : Nat) : Nat := 0x110 + 0x20 * k
abbrev rHIF_RING_COAL (k : Nat) : Nat := 0x114 + 0x20 * k
abbrev rHIF_RING_STAT (k : Nat) : Nat := 0x118 + 0x20 * k
abbrev rHIF_RING_DROP (k : Nat) : Nat := 0x11C + 0x20 * k
abbrev fHIF_STAT_LINK_UP : Fld := ⟨rHIF_STAT, 0, 1⟩
abbrev fHIF_STAT_GEN : Fld := ⟨rHIF_STAT, 1, 3⟩
abbrev fHIF_STAT_WIDTH : Fld := ⟨rHIF_STAT, 4, 3⟩
abbrev fHIF_STAT_BME : Fld := ⟨rHIF_STAT, 7, 1⟩
abbrev fHIF_STAT_MSIX_EN : Fld := ⟨rHIF_STAT, 8, 1⟩
abbrev fHIF_PCI_ID_VID : Fld := ⟨rHIF_PCI_ID, 0, 16⟩
abbrev fHIF_PCI_ID_DID : Fld := ⟨rHIF_PCI_ID, 16, 16⟩
abbrev fHIF_VMAP_VEC (k j : Nat) : Fld := ⟨rHIF_VMAP k, 0 + 8 * j, 6⟩
abbrev fHIF_VMAP_EN (k j : Nat) : Fld := ⟨rHIF_VMAP k, 7 + 8 * j, 1⟩
abbrev fHIF_EOI_VEC : Fld := ⟨rHIF_EOI, 0, 6⟩
abbrev fHIF_HDB_MSG : Fld := ⟨rHIF_HDB, 0, 24⟩
abbrev fHIF_HDB_HART : Fld := ⟨rHIF_HDB, 24, 3⟩
abbrev fHIF_CON_DATA_BYTE : Fld := ⟨rHIF_CON_DATA, 0, 8⟩
abbrev fHIF_CON_STAT_TX_LVL : Fld := ⟨rHIF_CON_STAT, 0, 7⟩
abbrev fHIF_CON_STAT_RX_LVL : Fld := ⟨rHIF_CON_STAT, 8, 7⟩
abbrev fHIF_RING_CFG_EN (k : Nat) : Fld := ⟨rHIF_RING_CFG k, 0, 1⟩
abbrev fHIF_RING_CFG_TYPE (k : Nat) : Fld := ⟨rHIF_RING_CFG k, 1, 3⟩
abbrev fHIF_RING_CFG_OWNER (k : Nat) : Fld := ⟨rHIF_RING_CFG k, 4, 1⟩
abbrev fHIF_RING_CFG_LOG2_SIZE (k : Nat) : Fld := ⟨rHIF_RING_CFG k, 8, 4⟩
abbrev fHIF_RING_CFG_DIE (k : Nat) : Fld := ⟨rHIF_RING_CFG k, 12, 4⟩
abbrev fHIF_RING_CFG_CLASS (k : Nat) : Fld := ⟨rHIF_RING_CFG k, 16, 4⟩
abbrev fHIF_RING_HEAD_IDX (k : Nat) : Fld := ⟨rHIF_RING_HEAD k, 0, 12⟩
abbrev fHIF_RING_TAIL_IDX (k : Nat) : Fld := ⟨rHIF_RING_TAIL k, 0, 12⟩
abbrev fHIF_RING_COAL_COUNT (k : Nat) : Fld := ⟨rHIF_RING_COAL k, 0, 8⟩
abbrev fHIF_RING_COAL_USEC (k : Nat) : Fld := ⟨rHIF_RING_COAL k, 8, 16⟩
abbrev fHIF_RING_STAT_RUN (k : Nat) : Fld := ⟨rHIF_RING_STAT k, 0, 1⟩
abbrev fHIF_RING_STAT_ERR (k : Nat) : Fld := ⟨rHIF_RING_STAT k, 1, 3⟩

/-! ### BOOT -/
abbrev rBOOT_STAT : Nat := 0x040
abbrev rBOOT_TRY_LOG : Nat := 0x044
abbrev rBOOT_IMG_INFO : Nat := 0x048
abbrev rBOOT_IMG_VER : Nat := 0x04C
abbrev rBOOT_OTP_STAT : Nat := 0x050
abbrev rBOOT_CTRL : Nat := 0x054
abbrev rBOOT_LOAD_ADDR_LO : Nat := 0x058
abbrev rBOOT_LOAD_ADDR_HI : Nat := 0x05C
abbrev rBOOT_LOAD_LEN : Nat := 0x060
abbrev fBOOT_STAT_STRAP : Fld := ⟨rBOOT_STAT, 0, 2⟩
abbrev fBOOT_STAT_SRC : Fld := ⟨rBOOT_STAT, 2, 2⟩
abbrev fBOOT_STAT_OK : Fld := ⟨rBOOT_STAT, 4, 1⟩
abbrev fBOOT_STAT_FAILED : Fld := ⟨rBOOT_STAT, 5, 1⟩
abbrev fBOOT_TRY_LOG_A : Fld := ⟨rBOOT_TRY_LOG, 0, 4⟩
abbrev fBOOT_TRY_LOG_B : Fld := ⟨rBOOT_TRY_LOG, 4, 4⟩
abbrev fBOOT_TRY_LOG_NET : Fld := ⟨rBOOT_TRY_LOG, 8, 4⟩
abbrev fBOOT_TRY_LOG_HOST : Fld := ⟨rBOOT_TRY_LOG, 12, 4⟩
abbrev fBOOT_IMG_INFO_ROLLBACK : Fld := ⟨rBOOT_IMG_INFO, 0, 7⟩
abbrev fBOOT_IMG_INFO_KEY_IDX : Fld := ⟨rBOOT_IMG_INFO, 8, 2⟩
abbrev fBOOT_OTP_STAT_RB_CNT : Fld := ⟨rBOOT_OTP_STAT, 0, 7⟩
abbrev fBOOT_OTP_STAT_REVOKED : Fld := ⟨rBOOT_OTP_STAT, 8, 4⟩
abbrev fBOOT_CTRL_LOAD_GO : Fld := ⟨rBOOT_CTRL, 0, 1⟩
abbrev fBOOT_CTRL_COMMIT_RB : Fld := ⟨rBOOT_CTRL, 1, 1⟩
abbrev fBOOT_CTRL_REVOKE : Fld := ⟨rBOOT_CTRL, 2, 1⟩
abbrev fBOOT_CTRL_KEY : Fld := ⟨rBOOT_CTRL, 4, 2⟩
abbrev fBOOT_CTRL_BUSY : Fld := ⟨rBOOT_CTRL, 8, 1⟩
abbrev fBOOT_CTRL_CTRL_ERR : Fld := ⟨rBOOT_CTRL, 9, 1⟩
abbrev fBOOT_LOAD_LEN_LEN : Fld := ⟨rBOOT_LOAD_LEN, 0, 24⟩

/-! ### TST -/
abbrev rTST_UNLOCK : Nat := 0x040
abbrev rTST_STAT : Nat := 0x044
abbrev rTST_CTRL : Nat := 0x048
abbrev rTST_DOUBT_INJ : Nat := 0x04C
abbrev rTST_XING_DLY : Nat := 0x050
abbrev rTST_INJ_CNT : Nat := 0x054
abbrev rTST_ANS_DLY : Nat := 0x080
abbrev rTST_BP_CFG : Nat := 0x084
abbrev rTST_BP_PORTS : Nat := 0x088
abbrev rTST_JITTER : Nat := 0x08C
abbrev rTST_JIT_PORTS : Nat := 0x090
abbrev rTST_TILE_INJ : Nat := 0x094
abbrev rTST_LOOP : Nat := 0x098
abbrev rTST_TDC_OFS (k : Nat) : Nat := 0x0A0 + 0x4 * k
abbrev rTST_RING_OFS : Nat := 0x0C8
abbrev rTST_ASK_LOOP : Nat := 0x0CC
abbrev fTST_UNLOCK_KEY : Fld := ⟨rTST_UNLOCK, 0, 16⟩
abbrev fTST_STAT_UNLOCKED : Fld := ⟨rTST_STAT, 0, 1⟩
abbrev fTST_STAT_INJ_NOP : Fld := ⟨rTST_STAT, 1, 1⟩
abbrev fTST_STAT_ACTIVE : Fld := ⟨rTST_STAT, 8, 8⟩
abbrev fTST_CTRL_RELOCK : Fld := ⟨rTST_CTRL, 0, 1⟩
abbrev fTST_CTRL_RST_WARM : Fld := ⟨rTST_CTRL, 1, 1⟩
abbrev fTST_CTRL_RST_ISLAND : Fld := ⟨rTST_CTRL, 2, 1⟩
abbrev fTST_CTRL_RST_DIE : Fld := ⟨rTST_CTRL, 4, 3⟩
abbrev fTST_CTRL_RST_ISL : Fld := ⟨rTST_CTRL, 8, 4⟩
abbrev fTST_DOUBT_INJ_PAGE : Fld := ⟨rTST_DOUBT_INJ, 0, 9⟩
abbrev fTST_DOUBT_INJ_BIT : Fld := ⟨rTST_DOUBT_INJ, 16, 5⟩
abbrev fTST_DOUBT_INJ_EN : Fld := ⟨rTST_DOUBT_INJ, 31, 1⟩
abbrev fTST_XING_DLY_ISL : Fld := ⟨rTST_XING_DLY, 0, 4⟩
abbrev fTST_XING_DLY_NS : Fld := ⟨rTST_XING_DLY, 16, 12⟩
abbrev fTST_XING_DLY_EN : Fld := ⟨rTST_XING_DLY, 31, 1⟩
abbrev fTST_ANS_DLY_PRE : Fld := ⟨rTST_ANS_DLY, 0, 16⟩
abbrev fTST_ANS_DLY_POST : Fld := ⟨rTST_ANS_DLY, 16, 16⟩
abbrev fTST_BP_CFG_BUSY_NS : Fld := ⟨rTST_BP_CFG, 0, 16⟩
abbrev fTST_BP_CFG_PERIOD_US : Fld := ⟨rTST_BP_CFG, 16, 12⟩
abbrev fTST_BP_PORTS_PORT : Fld := ⟨rTST_BP_PORTS, 0, 8⟩
abbrev fTST_JIT_PORTS_PORT : Fld := ⟨rTST_JIT_PORTS, 0, 8⟩
abbrev fTST_JITTER_AMP_PS : Fld := ⟨rTST_JITTER, 0, 16⟩
abbrev fTST_JITTER_OFS_PS : Fld := ⟨rTST_JITTER, 16, 16⟩
abbrev fTST_TILE_INJ_KIND : Fld := ⟨rTST_TILE_INJ, 0, 2⟩
abbrev fTST_TILE_INJ_BIT : Fld := ⟨rTST_TILE_INJ, 2, 11⟩
abbrev fTST_TILE_INJ_COUNT : Fld := ⟨rTST_TILE_INJ, 16, 8⟩
abbrev fTST_TILE_INJ_ARMED : Fld := ⟨rTST_TILE_INJ, 30, 1⟩
abbrev fTST_TILE_INJ_ARM : Fld := ⟨rTST_TILE_INJ, 31, 1⟩
abbrev fTST_LOOP_MODE : Fld := ⟨rTST_LOOP, 0, 16⟩
abbrev fTST_ASK_LOOP_LINK : Fld := ⟨rTST_ASK_LOOP, 0, 4⟩

end Sys2Proof.Machine
end

