-- ==== Sys2Proof/Machine/RegTable.lean ====
section
/-! DEFINITION. The register table: for each kind of page, one row per register (or array of equal
registers) with the bits each access code of Table 02-2 covers, the cold value and the Kept letters
(R28, R30), as the summaries and field tables of spec/01 to spec/25 give them. -/

namespace Sys2Proof.Machine

/-- One row of a register summary: `n` registers at `off`, `off + stride`, … with one layout.
`w1s` holds the bits that read back after a write of 1; a trigger that reads 0 is in no mask.
`kept` codes the Kept letters: bit 0 P, 1 W, 2 G, 3 I, 4 L, 5 V, 6 K. `only` is 0 for a register on
every page of its kind, 1 for the Hub's, 2 for the Timebase's and 3 for the Port dies' alone.
`anyBit` says that a write of 1 to any bit clears the whole register. -/
structure RegRow where
  off : Nat
  n : Nat
  stride : Nat
  rw : Nat
  rwl : Nat
  w1c : Nat
  w1s : Nat
  cold : Nat
  kept : Nat
  only : Nat
  anyBit : Bool
  deriving DecidableEq, Repr

/-- The registers of a BLV page. -/
def rowsBLV : List RegRow :=
  [⟨0x40, 1, 0x4, 0, 0x1F, 0, 0, 0x1F, 24, 0, false⟩,
   ⟨0x44, 1, 0x4, 0, 0, 0, 0, 0, 0, 0, false⟩,
   ⟨0x48, 1, 0x4, 0, 0, 0, 0, 0, 0, 0, false⟩,
   ⟨0x4C, 1, 0x4, 0, 0, 0xFFFF, 0, 0, 0, 0, true⟩,
   ⟨0x50, 1, 0x4, 0, 0, 0xFFFFFFFF, 0, 0, 0, 0, false⟩,
   ⟨0x54, 1, 0x4, 0, 0, 0xFFFFFFFF, 0, 0, 0, 0, false⟩,
   ⟨0x58, 1, 0x4, 0, 0, 0xFFFFFFFF, 0, 0, 0, 0, false⟩,
   ⟨0x5C, 1, 0x4, 0, 0, 0xFFFFFFFF, 0, 0, 0, 0, false⟩]

/-- The registers of a ISL page. -/
def rowsISL : List RegRow :=
  [⟨0x40, 1, 0x4, 0, 0, 0, 0, 0, 127, 0, false⟩,
   ⟨0x44, 1, 0x4, 0, 0xFF, 0, 0, 0xA0, 24, 0, false⟩,
   ⟨0x48, 1, 0x4, 0, 0xFF, 0, 0, 0x2D, 24, 0, false⟩,
   ⟨0x4C, 1, 0x4, 0, 0, 0, 0, 0, 0, 2, false⟩,
   ⟨0x50, 8, 0x4, 0, 0, 0, 0, 0, 0, 0, false⟩,
   ⟨0x70, 1, 0x4, 0, 0, 0xFF, 0, 0, 0, 0, false⟩]

/-- The registers of the common header (Table 02-3). -/
def rowsHDR : List RegRow :=
  [⟨0, 1, 0x4, 0, 0, 0, 0, 0x100, 127, 0, false⟩,
   ⟨0x4, 1, 0x4, 0, 0, 0, 0, 0, 127, 0, false⟩,
   ⟨0x8, 1, 0x4, 0x1, 0, 0, 0x12, 0, 24, 0, false⟩,
   ⟨0xC, 1, 0x4, 0, 0, 0, 0, 0, 0, 0, false⟩,
   ⟨0x10, 1, 0x4, 0, 0, 0xFFFFFFFF, 0, 0, 0, 0, false⟩,
   ⟨0x14, 1, 0x4, 0xFFFFFFFF, 0, 0, 0, 0, 24, 0, false⟩,
   ⟨0x18, 1, 0x4, 0, 0, 0, 0, 0, 0, 0, false⟩,
   ⟨0x1C, 1, 0x4, 0, 0, 0, 0, 0, 0, 0, false⟩,
   ⟨0x20, 1, 0x4, 0, 0, 0, 0, 0, 0, 0, false⟩,
   ⟨0x24, 1, 0x4, 0, 0xFFFFFFFF, 0, 0, 0, 24, 0, false⟩,
   ⟨0x28, 1, 0x4, 0xFFFFFFFF, 0, 0, 0, 0, 24, 0, false⟩]

/-- The registers of a DIE page. -/
def rowsDIE : List RegRow :=
  [⟨0x40, 1, 0x4, 0, 0, 0, 0, 0xB000, 127, 0, false⟩,
   ⟨0x44, 1, 0x4, 0, 0, 0, 0, 0, 0, 0, false⟩,
   ⟨0x48, 1, 0x4, 0, 0, 0, 0, 0, 0, 0, false⟩,
   ⟨0x4C, 1, 0x4, 0, 0, 0, 0, 0, 0, 0, false⟩,
   ⟨0x50, 1, 0x4, 0, 0, 0xFFFFFFFF, 0, 0, 0, 0, false⟩,
   ⟨0x54, 1, 0x4, 0, 0, 0xFFFFFFFF, 0, 0, 0, 0, false⟩,
   ⟨0x58, 1, 0x4, 0, 0, 0xFFFFFFFF, 0, 0, 0, 0, false⟩,
   ⟨0x80, 1, 0x4, 0, 0, 0, 0, 0x1FFFF, 127, 1, false⟩,
   ⟨0x84, 3, 0x4, 0, 0, 0, 0, 0, 127, 1, false⟩,
   ⟨0x90, 4, 0x4, 0, 0xFFFFFFFF, 0, 0, 0, 122, 1, false⟩,
   ⟨0xA0, 1, 0x4, 0, 0, 0, 0x1, 0, 122, 1, false⟩,
   ⟨0xA4, 1, 0x4, 0, 0, 0, 0, 0, 0, 1, false⟩,
   ⟨0xA8, 1, 0x4, 0, 0, 0, 0, 0, 0, 1, false⟩,
   ⟨0xC0, 1, 0x4, 0x3, 0, 0, 0, 0, 0, 1, false⟩,
   ⟨0xC4, 1, 0x4, 0, 0, 0, 0, 0, 112, 1, false⟩,
   ⟨0xC8, 1, 0x4, 0x7FFF, 0, 0, 0, 0x7FFF, 120, 1, false⟩] ++
  [⟨0xCC, 1, 0x4, 0x7FFF, 0, 0, 0, 0, 120, 1, false⟩,
   ⟨0xD0, 1, 0x4, 0x1F, 0, 0, 0, 0x5, 120, 1, false⟩,
   ⟨0xD4, 1, 0x4, 0xFFFFFFFF, 0, 0, 0, 0, 120, 1, false⟩,
   ⟨0xD8, 1, 0x4, 0xFFFFFFFF, 0, 0, 0, 0, 120, 1, false⟩,
   ⟨0xDC, 1, 0x4, 0xF70, 0, 0, 0, 0, 0, 1, false⟩,
   ⟨0xE0, 1, 0x4, 0, 0, 0, 0, 0, 127, 1, false⟩,
   ⟨0xE4, 1, 0x4, 0, 0, 0, 0, 0, 0, 1, false⟩,
   ⟨0xE8, 1, 0x4, 0, 0, 0xFFFFFFFF, 0, 0, 0, 1, false⟩]

/-- The registers of a TBE page. -/
def rowsTBE : List RegRow :=
  [⟨0x40, 1, 0x4, 0, 0x3, 0, 0, 0, 24, 0, false⟩,
   ⟨0x44, 1, 0x4, 0, 0, 0, 0, 0, 127, 0, false⟩,
   ⟨0x48, 1, 0x4, 0, 0, 0, 0, 0, 127, 0, false⟩,
   ⟨0x4C, 1, 0x4, 0, 0, 0, 0, 0, 127, 0, false⟩,
   ⟨0x50, 1, 0x4, 0, 0, 0, 0, 0, 127, 0, false⟩,
   ⟨0x54, 1, 0x4, 0, 0, 0, 0, 0, 127, 0, false⟩,
   ⟨0x58, 1, 0x4, 0, 0, 0, 0, 0, 127, 0, false⟩,
   ⟨0x5C, 1, 0x4, 0, 0, 0, 0, 0, 127, 0, false⟩,
   ⟨0x60, 1, 0x4, 0, 0, 0, 0, 0, 127, 0, false⟩,
   ⟨0x64, 1, 0x4, 0, 0, 0, 0, 0, 127, 0, false⟩,
   ⟨0x68, 1, 0x4, 0, 0, 0, 0, 0, 127, 0, false⟩,
   ⟨0x6C, 1, 0x4, 0, 0, 0, 0, 0xA000, 127, 0, false⟩,
   ⟨0x70, 1, 0x4, 0, 0, 0, 0, 0, 0, 0, false⟩,
   ⟨0x74, 1, 0x4, 0, 0x1FFFF, 0, 0, 0x3E8, 24, 0, false⟩,
   ⟨0x78, 1, 0x4, 0, 0, 0xFFFFFFFF, 0, 0, 0, 0, false⟩,
   ⟨0x7C, 1, 0x4, 0, 0, 0, 0, 0, 127, 0, false⟩] ++
  [⟨0x80, 1, 0x4, 0, 0, 0, 0, 0, 127, 0, false⟩,
   ⟨0x84, 1, 0x4, 0, 0, 0, 0, 0, 127, 0, false⟩,
   ⟨0x88, 1, 0x4, 0, 0, 0, 0, 0, 127, 0, false⟩,
   ⟨0x8C, 1, 0x4, 0, 0, 0, 0, 0, 127, 0, false⟩,
   ⟨0x90, 1, 0x4, 0, 0, 0, 0, 0, 127, 0, false⟩,
   ⟨0x94, 1, 0x4, 0, 0, 0, 0, 0, 127, 0, false⟩,
   ⟨0x98, 1, 0x4, 0x8000FFFF, 0, 0, 0, 0, 127, 0, false⟩,
   ⟨0x9C, 1, 0x4, 0xFFFFFFFF, 0, 0, 0, 0, 127, 0, false⟩,
   ⟨0xA0, 1, 0x4, 0x8001FFFF, 0, 0, 0, 0, 127, 0, false⟩,
   ⟨0xA4, 1, 0x4, 0x1, 0, 0, 0, 0, 127, 0, false⟩,
   ⟨0xA8, 1, 0x4, 0, 0, 0, 0, 0, 0, 0, false⟩,
   ⟨0xAC, 1, 0x4, 0, 0, 0, 0, 0, 127, 0, false⟩,
   ⟨0xB0, 1, 0x4, 0xFFFFFFFF, 0, 0, 0, 0, 24, 0, false⟩,
   ⟨0xB4, 1, 0x4, 0xFFFF, 0, 0, 0, 0, 24, 0, false⟩,
   ⟨0xB8, 1, 0x4, 0x3FFFFFFF, 0, 0, 0, 0, 24, 0, false⟩,
   ⟨0xBC, 1, 0x4, 0xFFFF, 0, 0, 0, 0, 24, 0, false⟩] ++
  [⟨0xC0, 1, 0x4, 0x6, 0, 0, 0, 0, 122, 0, false⟩,
   ⟨0xC4, 1, 0x4, 0, 0, 0, 0, 0, 122, 0, false⟩,
   ⟨0xC8, 1, 0x4, 0, 0, 0, 0, 0, 122, 0, false⟩,
   ⟨0xCC, 1, 0x4, 0, 0, 0xFFFFFFFF, 0, 0, 127, 0, false⟩,
   ⟨0xD0, 1, 0x4, 0, 0xFFFF03, 0, 0, 0xA1901, 24, 0, false⟩,
   ⟨0xE0, 6, 0x4, 0, 0, 0, 0, 0, 0, 0, false⟩]

/-- The registers of a LTR page. -/
def rowsLTR : List RegRow :=
  [⟨0x40, 1, 0x4, 0, 0xFFFF03, 0, 0, 0xA1901, 24, 0, false⟩,
   ⟨0x44, 1, 0x4, 0, 0, 0, 0, 0, 0, 0, false⟩,
   ⟨0x48, 1, 0x4, 0xFFFF, 0, 0, 0, 0, 24, 0, false⟩,
   ⟨0x4C, 1, 0x4, 0, 0, 0, 0, 0, 0, 0, false⟩,
   ⟨0x50, 1, 0x4, 0, 0, 0, 0, 0, 0, 0, false⟩,
   ⟨0x54, 1, 0x4, 0, 0, 0xFFFF, 0, 0, 0, 0, true⟩,
   ⟨0x58, 1, 0x4, 0, 0, 0, 0, 0, 0, 0, false⟩,
   ⟨0x5C, 1, 0x4, 0, 0, 0xFFFFFFFF, 0, 0, 0, 0, false⟩,
   ⟨0x60, 1, 0x4, 0, 0, 0xFFFFFFFF, 0, 0, 0, 0, false⟩,
   ⟨0x64, 1, 0x4, 0, 0, 0, 0, 0, 0, 0, false⟩,
   ⟨0x68, 1, 0x4, 0, 0, 0, 0, 0, 0, 0, false⟩,
   ⟨0x6C, 1, 0x4, 0, 0, 0, 0, 0, 0, 0, false⟩,
   ⟨0x70, 1, 0x4, 0, 0, 0, 0, 0, 0, 0, false⟩,
   ⟨0x74, 1, 0x4, 0, 0, 0, 0, 0, 0, 0, false⟩,
   ⟨0x78, 1, 0x4, 0, 0, 0, 0, 0, 0, 0, false⟩]

/-- The registers of a DSC page. -/
def rowsDSC : List RegRow :=
  [⟨0x40, 1, 0x4, 0, 0xF, 0, 0, 0xA, 120, 0, false⟩,
   ⟨0x44, 1, 0x4, 0, 0, 0, 0, 0x70, 127, 0, false⟩,
   ⟨0x48, 1, 0x4, 0x73, 0, 0, 0, 0x70, 120, 0, false⟩,
   ⟨0x4C, 1, 0x4, 0, 0xFFFFFF, 0, 0, 0x6402, 120, 0, false⟩,
   ⟨0x50, 1, 0x4, 0, 0xFFFFFFFF, 0, 0, 0x1F40032, 120, 0, false⟩,
   ⟨0x54, 1, 0x4, 0, 0xFFFFFF, 0, 0, 0x100064, 120, 0, false⟩,
   ⟨0x58, 1, 0x4, 0, 0x1FFFF, 0, 0, 0xA, 120, 0, false⟩,
   ⟨0x5C, 1, 0x4, 0, 0, 0, 0, 0, 0, 0, false⟩,
   ⟨0x60, 1, 0x4, 0, 0xFFFF, 0, 0, 0x64, 120, 0, false⟩,
   ⟨0x64, 1, 0x4, 0, 0xFFFFFFFF, 0, 0, 0xF4240, 120, 0, false⟩,
   ⟨0x68, 1, 0x4, 0, 0xFFFFFFFF, 0, 0, 0x3E8, 120, 0, false⟩,
   ⟨0x6C, 1, 0x4, 0, 0, 0, 0, 0xFFFFFFFF, 127, 0, false⟩,
   ⟨0x70, 1, 0x4, 0, 0xFFFFF, 0, 0, 0x40032, 120, 0, false⟩,
   ⟨0x74, 1, 0x4, 0, 0x1FFFF, 0, 0, 0x3C, 120, 0, false⟩,
   ⟨0x78, 1, 0x4, 0, 0xFFFF, 0, 0, 0x32, 120, 0, false⟩,
   ⟨0x7C, 1, 0x4, 0, 0xFFFF, 0, 0, 0x1388, 120, 0, false⟩] ++
  [⟨0x80, 1, 0x4, 0, 0, 0, 0, 0, 0, 0, false⟩,
   ⟨0x84, 1, 0x4, 0, 0, 0, 0, 0, 0, 0, false⟩,
   ⟨0x88, 1, 0x4, 0, 0, 0, 0, 0, 0, 0, false⟩,
   ⟨0x8C, 1, 0x4, 0, 0, 0, 0, 0, 127, 0, false⟩,
   ⟨0x90, 1, 0x4, 0, 0, 0, 0, 0, 127, 0, false⟩,
   ⟨0x94, 1, 0x4, 0, 0, 0, 0, 0x13880000, 127, 0, false⟩,
   ⟨0x98, 1, 0x4, 0, 0, 0, 0, 0, 127, 0, false⟩,
   ⟨0x9C, 1, 0x4, 0, 0, 0, 0, 0, 127, 0, false⟩,
   ⟨0xA0, 1, 0x4, 0, 0, 0xFFFFFFFF, 0, 0, 0, 0, false⟩,
   ⟨0xA4, 1, 0x4, 0, 0, 0xFFFFFFFF, 0, 0, 0, 0, false⟩]

/-- The registers of a REF page. -/
def rowsREF : List RegRow :=
  [⟨0x40, 1, 0x4, 0, 0xF0F, 0, 0, 0, 120, 0, false⟩,
   ⟨0x44, 1, 0x4, 0, 0, 0xFFFFFFFF, 0, 0, 0, 0, false⟩,
   ⟨0x48, 1, 0x4, 0, 0, 0, 0, 0, 0, 0, false⟩,
   ⟨0x4C, 1, 0x4, 0, 0, 0xFFFFFFFF, 0, 0, 0, 0, false⟩,
   ⟨0x80, 1, 0x20, 0, 0x1FF1F, 0, 0, 0x3C10, 120, 0, false⟩,
   ⟨0xA0, 1, 0x20, 0, 0x1FF1F, 0, 0, 0xA12, 120, 0, false⟩,
   ⟨0xC0, 1, 0x20, 0, 0x1FF1F, 0, 0, 0xA14, 120, 0, false⟩,
   ⟨0xE0, 1, 0x20, 0, 0x1FF1F, 0, 0, 0xA16, 120, 0, false⟩,
   ⟨0x100, 1, 0x20, 0, 0x1FF1F, 0, 0, 0xA18, 120, 0, false⟩,
   ⟨0x120, 1, 0x20, 0, 0x1FF1F, 0, 0, 0x51A, 120, 0, false⟩,
   ⟨0x84, 6, 0x20, 0, 0xFFFFFFFF, 0, 0, 0, 120, 0, false⟩,
   ⟨0x88, 1, 0x20, 0, 0xFFFF, 0, 0, 0x14, 120, 0, false⟩,
   ⟨0xA8, 2, 0x20, 0, 0xFFFF, 0, 0, 0x64, 120, 0, false⟩,
   ⟨0xE8, 2, 0x20, 0, 0xFFFF, 0, 0, 0xFA, 120, 0, false⟩,
   ⟨0x128, 1, 0x20, 0, 0xFFFF, 0, 0, 0x32, 120, 0, false⟩,
   ⟨0x8C, 1, 0x20, 0, 0, 0, 0, 0x10, 0, 0, false⟩] ++
  [⟨0xAC, 2, 0x20, 0, 0, 0, 0, 0, 0, 0, false⟩,
   ⟨0xEC, 3, 0x20, 0, 0, 0, 0, 0x10, 0, 0, false⟩,
   ⟨0x90, 6, 0x20, 0, 0, 0, 0, 0, 0, 0, false⟩,
   ⟨0x94, 6, 0x20, 0, 0, 0, 0, 0, 0, 0, false⟩,
   ⟨0x98, 6, 0x20, 0, 0, 0, 0, 0, 0, 0, false⟩,
   ⟨0x9C, 6, 0x20, 0, 0, 0, 0, 0, 120, 0, false⟩]

/-- The registers of a OVN page. -/
def rowsOVN : List RegRow :=
  [⟨0x40, 1, 0x4, 0, 0xFF, 0, 0, 0x10, 127, 0, false⟩,
   ⟨0x44, 1, 0x4, 0, 0, 0, 0, 0, 0, 0, false⟩,
   ⟨0x48, 1, 0x4, 0, 0, 0, 0, 0, 0, 0, false⟩,
   ⟨0x4C, 1, 0x4, 0, 0, 0, 0, 0, 127, 0, false⟩,
   ⟨0x50, 1, 0x4, 0, 0, 0, 0, 0, 0, 0, false⟩,
   ⟨0x54, 1, 0x4, 0, 0, 0, 0, 0, 0, 0, false⟩,
   ⟨0x58, 1, 0x4, 0, 0xFFFFFF, 0, 0, 0x1E05, 120, 0, false⟩,
   ⟨0x5C, 1, 0x4, 0, 0, 0, 0, 0, 0, 0, false⟩,
   ⟨0x60, 1, 0x4, 0, 0, 0, 0, 0, 0, 0, false⟩,
   ⟨0x64, 1, 0x4, 0xFFFF, 0, 0, 0, 0x8000, 127, 0, false⟩,
   ⟨0x68, 1, 0x4, 0, 0xFFFFFFFF, 0, 0, 0x640000, 127, 0, false⟩,
   ⟨0x6C, 1, 0x4, 0, 0, 0xFFFFFFFF, 0, 0, 0, 0, false⟩,
   ⟨0x70, 1, 0x4, 0, 0, 0, 0, 0, 0, 0, false⟩,
   ⟨0x74, 1, 0x4, 0, 0, 0, 0, 0, 127, 0, false⟩]

/-- The registers of a GRX page. -/
def rowsGRX : List RegRow :=
  [⟨0x40, 1, 0x4, 0, 0x7, 0, 0, 0x4, 24, 0, false⟩,
   ⟨0x44, 1, 0x4, 0, 0, 0, 0, 0, 0, 0, false⟩,
   ⟨0x48, 1, 0x4, 0, 0xFFFF07, 0, 0, 0x20500, 24, 0, false⟩,
   ⟨0x4C, 1, 0x4, 0, 0, 0, 0, 0, 0, 0, false⟩,
   ⟨0x50, 1, 0x4, 0, 0, 0, 0, 0, 0, 0, false⟩,
   ⟨0x54, 1, 0x4, 0, 0x7F01FF, 0, 0, 0x40004D, 24, 0, false⟩,
   ⟨0x58, 1, 0x4, 0, 0, 0, 0, 0, 0, 0, false⟩,
   ⟨0x5C, 1, 0x4, 0, 0, 0xFFFFFFFF, 0, 0, 0, 0, false⟩]

/-- The registers of a ACQ page. -/
def rowsACQ : List RegRow :=
  [⟨0x40, 1, 0x4, 0, 0xF, 0, 0, 0xE, 24, 0, false⟩,
   ⟨0x44, 1, 0x4, 0, 0, 0, 0, 0, 0, 0, false⟩,
   ⟨0x48, 1, 0x4, 0, 0, 0, 0, 0, 0, 0, false⟩,
   ⟨0x4C, 1, 0x4, 0, 0xFFFFFF07, 0, 0, 0xA020401, 24, 0, false⟩,
   ⟨0x50, 1, 0x4, 0, 0xFFFF, 0, 0, 0x6050, 24, 0, false⟩,
   ⟨0x54, 1, 0x4, 0x7FF7FF03, 0, 0, 0, 0x4100000, 24, 0, false⟩,
   ⟨0x58, 1, 0x4, 0xFFFFFFFF, 0, 0, 0, 0, 24, 0, false⟩,
   ⟨0x5C, 1, 0x4, 0xFFFFFFFF, 0, 0, 0, 0x1388, 24, 0, false⟩,
   ⟨0x60, 1, 0x4, 0x7FFFFF, 0, 0, 0, 0, 24, 0, false⟩,
   ⟨0x64, 5, 0x4, 0, 0, 0, 0, 0, 0, 0, false⟩,
   ⟨0x78, 1, 0x4, 0, 0, 0xFFFFFFFF, 0, 0, 0, 0, false⟩,
   ⟨0x7C, 1, 0x4, 0, 0, 0xFFFFFFFF, 0, 0, 0, 0, false⟩,
   ⟨0x80, 1, 0x4, 0, 0, 0xFFFFFFFF, 0, 0, 0, 0, false⟩]

/-- The registers of a TRK page. -/
def rowsTRK : List RegRow :=
  [⟨0x40, 1, 0x4, 0, 0xFF01, 0, 0, 0x6401, 24, 0, false⟩,
   ⟨0x44, 1, 0x4, 0, 0xFFFFFFFF, 0, 0, 0x32326496, 24, 0, false⟩,
   ⟨0x48, 1, 0x4, 0, 0xFFFFFF, 0, 0, 0x6464CD, 24, 0, false⟩,
   ⟨0x4C, 1, 0x4, 0, 0xFFFFFF, 0, 0, 0x2051F, 24, 0, false⟩,
   ⟨0x50, 1, 0x4, 0x17F7F, 0, 0, 0, 0, 0, 0, false⟩,
   ⟨0x54, 1, 0x4, 0, 0, 0, 0, 0, 0, 0, false⟩,
   ⟨0x58, 1, 0x4, 0, 0, 0, 0, 0, 0, 0, false⟩,
   ⟨0x5C, 1, 0x4, 0, 0, 0, 0, 0, 0, 0, false⟩,
   ⟨0x60, 1, 0x4, 0, 0, 0, 0, 0, 0, 0, false⟩,
   ⟨0x64, 1, 0x4, 0, 0, 0, 0, 0, 0, 0, false⟩,
   ⟨0x68, 1, 0x4, 0, 0, 0, 0, 0, 0, 0, false⟩,
   ⟨0x6C, 1, 0x4, 0, 0, 0, 0, 0, 0, 0, false⟩,
   ⟨0x70, 1, 0x4, 0, 0, 0xFFFFFFFF, 0, 0, 0, 0, false⟩,
   ⟨0x74, 1, 0x4, 0, 0, 0xFFFFFFFF, 0, 0, 0, 0, false⟩]

/-- The registers of a SCH page. -/
def rowsSCH : List RegRow :=
  [⟨0x40, 1, 0x4, 0, 0, 0, 0, 0, 0, 0, false⟩,
   ⟨0x44, 1, 0x4, 0, 0, 0, 0, 0, 0, 0, false⟩,
   ⟨0x48, 1, 0x4, 0, 0, 0, 0, 0, 0, 0, false⟩,
   ⟨0x4C, 1, 0x4, 0, 0, 0, 0, 0, 0, 0, false⟩,
   ⟨0x50, 1, 0x4, 0, 0, 0, 0, 0, 0, 0, false⟩,
   ⟨0x70, 1, 0x4, 0, 0, 0, 0, 0, 0, 0, false⟩,
   ⟨0x74, 1, 0x4, 0, 0, 0, 0, 0, 0, 0, false⟩,
   ⟨0x78, 1, 0x4, 0, 0, 0, 0, 0, 0, 0, false⟩,
   ⟨0x7C, 1, 0x4, 0, 0, 0, 0, 0, 0, 0, false⟩,
   ⟨0x80, 1, 0x4, 0, 0, 0, 0, 0, 0, 0, false⟩,
   ⟨0x84, 1, 0x4, 0, 0, 0, 0, 0, 0, 0, false⟩,
   ⟨0x88, 1, 0x4, 0, 0, 0xFFFFFFFF, 0, 0, 0, 0, false⟩]

/-- The registers of a TCH page. -/
def rowsTCH : List RegRow :=
  [⟨0x40, 1, 0x4, 0, 0, 0, 0, 0, 0, 0, false⟩,
   ⟨0x44, 1, 0x4, 0, 0, 0, 0, 0, 0, 0, false⟩,
   ⟨0x48, 1, 0x4, 0, 0, 0, 0, 0, 0, 0, false⟩,
   ⟨0x4C, 1, 0x4, 0xFFFFFFFF, 0, 0, 0, 0, 0, 0, false⟩,
   ⟨0x50, 1, 0x4, 0xFFFFFFFF, 0, 0, 0, 0, 0, 0, false⟩,
   ⟨0x54, 1, 0x4, 0xFFFF, 0, 0, 0, 0, 0, 0, false⟩,
   ⟨0x58, 1, 0x4, 0xFFFFFFFF, 0, 0, 0, 0, 0, 0, false⟩,
   ⟨0x5C, 1, 0x4, 0, 0, 0, 0, 0, 0, 0, false⟩,
   ⟨0x60, 1, 0x4, 0, 0, 0, 0, 0, 0, 0, false⟩,
   ⟨0x64, 1, 0x4, 0, 0, 0, 0, 0, 0, 0, false⟩,
   ⟨0x68, 1, 0x4, 0, 0, 0, 0, 0, 0, 0, false⟩,
   ⟨0x70, 1, 0x4, 0, 0, 0, 0, 0, 0, 0, false⟩,
   ⟨0x74, 1, 0x4, 0, 0, 0, 0, 0, 0, 0, false⟩,
   ⟨0x78, 1, 0x4, 0, 0, 0, 0, 0, 0, 0, false⟩,
   ⟨0x7C, 1, 0x4, 0, 0, 0, 0, 0, 0, 0, false⟩,
   ⟨0x80, 1, 0x4, 0, 0, 0, 0, 0, 0, 0, false⟩] ++
  [⟨0x84, 1, 0x4, 0, 0, 0, 0, 0, 0, 0, false⟩,
   ⟨0x88, 1, 0x4, 0, 0, 0xFFFFFFFF, 0, 0, 0, 0, false⟩,
   ⟨0x8C, 1, 0x4, 0, 0, 0xFFFFFFFF, 0, 0, 0, 0, false⟩,
   ⟨0x90, 1, 0x4, 0, 0, 0xFFFFFFFF, 0, 0, 0, 0, false⟩,
   ⟨0x400, 256, 0x4, 0, 0, 0, 0, 0, 0, 0, false⟩]

/-- The registers of a NAV page. -/
def rowsNAV : List RegRow :=
  [⟨0x40, 1, 0x4, 0, 0x7, 0, 0, 0x7, 24, 0, false⟩,
   ⟨0x44, 1, 0x4, 0, 0, 0, 0, 0, 0, 0, false⟩,
   ⟨0x48, 1, 0x4, 0x3F, 0, 0, 0, 0, 0, 0, false⟩,
   ⟨0x4C, 1, 0x4, 0, 0, 0, 0, 0, 0, 0, false⟩,
   ⟨0x50, 1, 0x4, 0, 0, 0xFFFFFFFF, 0, 0, 0, 0, false⟩,
   ⟨0x54, 1, 0x4, 0, 0, 0xFFFFFFFF, 0, 0, 0, 0, false⟩,
   ⟨0x58, 1, 0x4, 0, 0, 0xFFFFFFFF, 0, 0, 0, 0, false⟩,
   ⟨0x60, 1, 0x4, 0xFFFFFFFF, 0, 0, 0, 0, 0, 0, false⟩,
   ⟨0x64, 1, 0x4, 0xFFFFFFFF, 0, 0, 0, 0, 0, 0, false⟩,
   ⟨0x68, 1, 0x4, 0xFFFF, 0, 0, 0, 0, 0, 0, false⟩,
   ⟨0x6C, 1, 0x4, 0x3FFFFFFF, 0, 0, 0, 0, 0, 0, false⟩,
   ⟨0x70, 1, 0x4, 0xFFFF, 0, 0, 0, 0, 0, 0, false⟩,
   ⟨0x74, 1, 0x4, 0x11FFFFF, 0, 0, 0, 0, 0, 0, false⟩,
   ⟨0x78, 1, 0x4, 0, 0, 0, 0, 0, 0, 0, false⟩,
   ⟨0x7C, 1, 0x4, 0, 0, 0, 0, 0, 0, 0, false⟩,
   ⟨0x80, 1, 0x4, 0, 0, 0xFFFFFFFF, 0, 0, 0, 0, false⟩] ++
  [⟨0x84, 1, 0x4, 0, 0, 0xFFFFFFFF, 0, 0, 0, 0, false⟩,
   ⟨0x88, 1, 0x4, 0xFFFFFFFF, 0, 0, 0, 0, 24, 0, false⟩,
   ⟨0x8C, 1, 0x4, 0xFFFFFFFF, 0, 0, 0, 0, 24, 0, false⟩,
   ⟨0x90, 1, 0x4, 0xFFFFFFFF, 0, 0, 0, 0, 24, 0, false⟩,
   ⟨0x94, 1, 0x4, 0x8000FFFF, 0, 0, 0, 0, 24, 0, false⟩,
   ⟨0xC0, 16, 0x4, 0xFFFFFFFF, 0, 0, 0, 0, 0, 0, false⟩,
   ⟨0x400, 768, 0x4, 0, 0, 0, 0, 0, 0, 0, false⟩]

/-- The registers of a INT page. -/
def rowsINT : List RegRow :=
  [⟨0x40, 1, 0x4, 0, 0xFF, 0, 0, 0xFD, 24, 0, false⟩,
   ⟨0x44, 1, 0x4, 0, 0, 0, 0, 0, 0, 0, false⟩,
   ⟨0x48, 1, 0x4, 0, 0, 0, 0, 0, 0, 0, false⟩,
   ⟨0x4C, 1, 0x4, 0, 0xFFFFFF, 0, 0, 0xA0806, 24, 0, false⟩,
   ⟨0x50, 1, 0x4, 0, 0xFFFF, 0, 0, 0xC06, 24, 0, false⟩,
   ⟨0x54, 1, 0x4, 0, 0xFFFF, 0, 0, 0xC8, 24, 0, false⟩,
   ⟨0x58, 1, 0x4, 0, 0xFFFF, 0, 0, 0x12C, 24, 0, false⟩,
   ⟨0x5C, 1, 0x4, 0, 0xFFFFFFFF, 0, 0, 0x331E0064, 24, 0, false⟩,
   ⟨0x60, 1, 0x4, 0, 0xFFFFFFFF, 0, 0, 0x91645F3C, 24, 0, false⟩,
   ⟨0x64, 1, 0x4, 0, 0xFFFFFFFF, 0, 0, 0x12C3043C, 24, 0, false⟩,
   ⟨0x68, 1, 0x4, 0, 0, 0, 0, 0, 0, 0, false⟩,
   ⟨0x6C, 1, 0x4, 0, 0, 0, 0, 0, 0, 0, false⟩,
   ⟨0x70, 1, 0x4, 0, 0, 0, 0, 0, 0, 0, false⟩,
   ⟨0x74, 1, 0x4, 0xFF03, 0, 0, 0, 0, 0, 0, false⟩,
   ⟨0x78, 1, 0x4, 0, 0, 0, 0, 0, 0, 0, false⟩,
   ⟨0x7C, 1, 0x4, 0, 0, 0xFF, 0, 0, 0, 0, false⟩] ++
  [⟨0x80, 1, 0x4, 0, 0, 0, 0, 0, 0, 0, false⟩,
   ⟨0x84, 1, 0x4, 0, 0, 0, 0, 0xFFFF, 0, 0, false⟩,
   ⟨0x88, 1, 0x4, 0, 0, 0xFFFFFFFF, 0, 0, 0, 0, false⟩,
   ⟨0x8C, 1, 0x4, 0, 0, 0xFFFFFFFF, 0, 0, 0, 0, false⟩,
   ⟨0x90, 1, 0x4, 0, 0, 0xFFFFFFFF, 0, 0, 0, 0, false⟩,
   ⟨0xC0, 16, 0x4, 0xFFFFFFFF, 0, 0, 0, 0, 0, 0, false⟩]

/-- The registers of a SNP page. -/
def rowsSNP : List RegRow :=
  [⟨0x40, 1, 0x4, 0, 0x7F03, 0, 0, 0xA01, 24, 0, false⟩,
   ⟨0x44, 1, 0x4, 0, 0, 0, 0, 0, 0, 0, false⟩,
   ⟨0x48, 1, 0x4, 0, 0, 0, 0, 0, 0, 0, false⟩,
   ⟨0x4C, 1, 0x4, 0xFFFFFFFF, 0, 0, 0, 0, 0, 0, false⟩,
   ⟨0x50, 1, 0x4, 0xFFFFFFFF, 0, 0, 0, 0, 0, 0, false⟩,
   ⟨0x54, 1, 0x4, 0x7F01, 0, 0, 0, 0xA00, 0, 0, false⟩,
   ⟨0x58, 1, 0x4, 0, 0x3FFFFFF, 0, 0, 0x3C, 24, 0, false⟩,
   ⟨0x5C, 1, 0x4, 0x1, 0, 0, 0, 0, 0, 0, false⟩,
   ⟨0x60, 1, 0x4, 0, 0, 0xFFFFFFFF, 0, 0, 0, 0, false⟩,
   ⟨0x64, 1, 0x4, 0, 0, 0xFFFFFFFF, 0, 0, 0, 0, false⟩,
   ⟨0x80, 2, 0x20, 0, 0, 0, 0, 0, 0, 0, false⟩,
   ⟨0x84, 2, 0x20, 0, 0, 0, 0, 0, 0, 0, false⟩,
   ⟨0x88, 2, 0x20, 0, 0, 0, 0, 0, 0, 0, false⟩,
   ⟨0x8C, 2, 0x20, 0, 0, 0, 0, 0, 0, 0, false⟩,
   ⟨0x90, 2, 0x20, 0, 0, 0, 0, 0, 0, 0, false⟩,
   ⟨0x94, 2, 0x20, 0, 0, 0, 0, 0, 0, 0, false⟩] ++
  [⟨0x98, 2, 0x20, 0, 0, 0, 0, 0, 0, 0, false⟩,
   ⟨0x9C, 2, 0x20, 0, 0, 0, 0, 0, 0, 0, false⟩]

/-- The registers of a SDS page. -/
def rowsSDS : List RegRow :=
  [⟨0x40, 1, 0x4, 0, 0, 0, 0, 0, 0, 0, false⟩,
   ⟨0x44, 4, 0x4, 0, 0xF, 0, 0, 0, 24, 0, false⟩,
   ⟨0x54, 4, 0x4, 0, 0x3F3F3F, 0, 0, 0x83000, 24, 0, false⟩,
   ⟨0x64, 4, 0x4, 0, 0, 0, 0, 0, 0, 0, false⟩,
   ⟨0x80, 1, 0x4, 0, 0x7F01, 0, 0, 0x5000, 24, 0, false⟩,
   ⟨0x84, 1, 0x4, 0xFFF07, 0, 0, 0, 0x10000, 0, 0, false⟩,
   ⟨0x88, 1, 0x4, 0xFFFFFFFF, 0, 0, 0, 0, 0, 0, false⟩,
   ⟨0x8C, 1, 0x4, 0xFFFFFFFF, 0, 0, 0, 0, 0, 0, false⟩,
   ⟨0x90, 1, 0x4, 0, 0, 0, 0, 0, 0, 0, false⟩,
   ⟨0x94, 1, 0x4, 0x3, 0, 0, 0, 0x2, 24, 0, false⟩,
   ⟨0x98, 1, 0x4, 0, 0, 0xFFFFFFFF, 0, 0, 0, 0, false⟩]

/-- The registers of a MAC page. -/
def rowsMAC : List RegRow :=
  [⟨0x40, 1, 0x4, 0, 0x3FFF001F, 0, 0, 0x5F20000, 24, 0, false⟩,
   ⟨0x44, 1, 0x4, 0, 0, 0, 0, 0, 0, 0, false⟩,
   ⟨0x48, 1, 0x4, 0, 0xFFFFFFFF, 0, 0, 0, 24, 0, false⟩,
   ⟨0x4C, 1, 0x4, 0, 0xFFFF, 0, 0, 0, 24, 0, false⟩,
   ⟨0x50, 1, 0x4, 0, 0, 0xFFFFFFFF, 0, 0, 0, 0, false⟩,
   ⟨0x54, 1, 0x4, 0, 0, 0, 0, 0, 0, 0, false⟩,
   ⟨0x58, 1, 0x4, 0, 0, 0, 0, 0, 0, 0, false⟩,
   ⟨0x5C, 1, 0x4, 0, 0, 0, 0, 0, 0, 0, false⟩,
   ⟨0x60, 1, 0x4, 0, 0, 0, 0, 0, 0, 0, false⟩,
   ⟨0x64, 1, 0x4, 0, 0, 0xFFFFFFFF, 0, 0, 0, 0, false⟩,
   ⟨0x68, 1, 0x4, 0, 0, 0xFFFFFFFF, 0, 0, 0, 0, false⟩,
   ⟨0x6C, 1, 0x4, 0, 0, 0xFFFFFFFF, 0, 0, 0, 0, false⟩,
   ⟨0x70, 1, 0x4, 0, 0, 0xFFFFFFFF, 0, 0, 0, 0, false⟩,
   ⟨0x74, 1, 0x4, 0, 0, 0xFFFFFFFF, 0, 0, 0, 0, false⟩]

/-- The registers of a TSU page. -/
def rowsTSU : List RegRow :=
  [⟨0x40, 1, 0x4, 0, 0x1, 0, 0, 0x1, 24, 0, false⟩,
   ⟨0x44, 1, 0x4, 0, 0, 0, 0, 0, 0, 0, false⟩,
   ⟨0x48, 1, 0x4, 0, 0xFFFFFFFF, 0, 0, 0x3E807D0, 24, 0, false⟩,
   ⟨0x4C, 1, 0x4, 0, 0, 0, 0, 0, 0, 0, false⟩,
   ⟨0x50, 1, 0x4, 0, 0, 0, 0, 0, 0, 0, false⟩,
   ⟨0x54, 1, 0x4, 0, 0xFFFFFFFF, 0, 0, 0, 24, 0, false⟩,
   ⟨0x58, 1, 0x4, 0, 0xFFFFFFFF, 0, 0, 0, 24, 0, false⟩,
   ⟨0x5C, 1, 0x4, 0, 0, 0, 0, 0, 0, 0, false⟩,
   ⟨0x60, 1, 0x4, 0, 0, 0, 0, 0, 0, 0, false⟩,
   ⟨0x64, 1, 0x4, 0, 0, 0, 0, 0, 0, 0, false⟩,
   ⟨0x68, 1, 0x4, 0, 0, 0, 0, 0, 0, 0, false⟩,
   ⟨0x6C, 1, 0x4, 0, 0, 0xFFFFFFFF, 0, 0, 0, 0, true⟩,
   ⟨0x70, 1, 0x4, 0, 0, 0xFFFFFFFF, 0, 0, 0, 0, false⟩,
   ⟨0x74, 1, 0x4, 0, 0, 0xFFFFFFFF, 0, 0, 0, 0, false⟩]

/-- The registers of a LCH page. -/
def rowsLCH : List RegRow :=
  [⟨0x40, 1, 0x4, 0, 0x1F, 0, 0, 0x1F, 24, 0, false⟩,
   ⟨0x44, 1, 0x4, 0, 0xFFFF, 0, 0, 0x2710, 24, 0, false⟩,
   ⟨0x48, 1, 0x4, 0, 0xFFFF, 0, 0, 0x3E8, 24, 0, false⟩,
   ⟨0x4C, 1, 0x4, 0, 0xFFFF, 0, 0, 0x7D0, 24, 0, false⟩,
   ⟨0x50, 1, 0x4, 0, 0xFFFF, 0, 0, 0x4E20, 24, 0, false⟩,
   ⟨0x54, 1, 0x4, 0, 0xFFFF, 0, 0, 0x64, 24, 0, false⟩,
   ⟨0x58, 1, 0x4, 0, 0, 0, 0, 0, 0, 0, false⟩,
   ⟨0x5C, 1, 0x4, 0, 0, 0, 0, 0, 0, 0, false⟩,
   ⟨0x60, 1, 0x4, 0, 0, 0x1FFF, 0, 0, 0, 0, true⟩,
   ⟨0x64, 1, 0x4, 0, 0, 0xFFFFFFFF, 0, 0, 0, 0, false⟩,
   ⟨0x68, 1, 0x4, 0, 0, 0xFFFFFFFF, 0, 0, 0, 0, false⟩,
   ⟨0x6C, 1, 0x4, 0, 0, 0xFFFFFFFF, 0, 0, 0, 0, false⟩,
   ⟨0x70, 1, 0x4, 0, 0, 0xFFFFFFFF, 0, 0, 0, 0, false⟩,
   ⟨0x74, 1, 0x4, 0, 0, 0xFFFFFFFF, 0, 0, 0, 0, false⟩,
   ⟨0x78, 1, 0x4, 0, 0, 0xFFFFFFFF, 0, 0, 0, 0, false⟩,
   ⟨0x7C, 1, 0x4, 0, 0, 0xFFFFFFFF, 0, 0, 0, 0, false⟩] ++
  [⟨0x80, 1, 0x4, 0, 0, 0xFFFFFFFF, 0, 0, 0, 0, false⟩,
   ⟨0x84, 1, 0x4, 0, 0, 0xFFFFFFFF, 0, 0, 0, 0, false⟩,
   ⟨0x88, 1, 0x4, 0, 0, 0xFFFFFFFF, 0, 0, 0, 0, false⟩]

/-- The registers of a ANS page. -/
def rowsANS : List RegRow :=
  [⟨0x40, 1, 0x4, 0, 0x3F, 0, 0, 0x22, 24, 0, false⟩,
   ⟨0x44, 1, 0x4, 0, 0, 0, 0, 0x7B, 0, 0, false⟩,
   ⟨0x48, 1, 0x4, 0, 0xFFFFFFFF, 0, 0, 0x89805DC, 24, 0, false⟩,
   ⟨0x4C, 1, 0x4, 0, 0xFFFFFFFF, 0, 0, 0x10022111, 24, 0, false⟩,
   ⟨0x50, 1, 0x4, 0, 0x3FFFFF, 0, 0, 0x2E40E2, 24, 0, false⟩,
   ⟨0x54, 1, 0x4, 0xFFFFFFFF, 0, 0, 0, 0, 24, 0, false⟩,
   ⟨0x58, 1, 0x4, 0xFFFFFFFF, 0, 0, 0, 0, 24, 0, false⟩,
   ⟨0x5C, 1, 0x4, 0, 0xFFFFFFFF, 0, 0, 0x494E4954, 24, 0, false⟩,
   ⟨0x60, 1, 0x4, 0, 0xFFFFFFFF, 0, 0, 0x474E5353, 24, 0, false⟩,
   ⟨0x64, 2, 0x4, 0, 0xFFFFFFFF, 0, 0, 0x50505300, 24, 0, false⟩,
   ⟨0x6C, 2, 0x4, 0, 0xFFFFFFFF, 0, 0, 0x50545000, 24, 0, false⟩,
   ⟨0x74, 1, 0x4, 0, 0xFFFFFFFF, 0, 0, 0, 24, 0, false⟩,
   ⟨0x78, 1, 0x4, 0, 0xFFFF, 0, 0, 0x4E20, 24, 0, false⟩,
   ⟨0x7C, 1, 0x4, 0, 0xFFFFFF, 0, 0, 0x30D40, 24, 0, false⟩,
   ⟨0x80, 1, 0x4, 0x37F, 0, 0, 0, 0, 0, 0, false⟩,
   ⟨0x84, 5, 0x4, 0xFFFFFFFF, 0, 0, 0, 0, 0, 0, false⟩] ++
  [⟨0x98, 1, 0x4, 0, 0, 0x703FF, 0, 0, 0, 0, true⟩,
   ⟨0xC0, 1, 0x4, 0, 0, 0, 0, 0, 0, 0, false⟩,
   ⟨0xC4, 1, 0x4, 0, 0, 0, 0, 0, 0, 0, false⟩,
   ⟨0xC8, 1, 0x4, 0, 0, 0, 0, 0, 0, 0, false⟩,
   ⟨0xCC, 1, 0x4, 0, 0, 0, 0, 0, 0, 0, false⟩,
   ⟨0xD0, 1, 0x4, 0, 0, 0xFFFFFFFF, 0, 0, 0, 0, false⟩,
   ⟨0xD4, 1, 0x4, 0, 0, 0xFFFFFFFF, 0, 0, 0, 0, false⟩,
   ⟨0xD8, 1, 0x4, 0, 0, 0xFFFFFFFF, 0, 0, 0, 0, false⟩,
   ⟨0xDC, 1, 0x4, 0, 0, 0xFFFFFFFF, 0, 0, 0, 0, false⟩,
   ⟨0xE0, 1, 0x4, 0, 0, 0xFFFFFFFF, 0, 0, 0, 0, false⟩,
   ⟨0xE4, 1, 0x4, 0, 0, 0xFFFFFFFF, 0, 0, 0, 0, false⟩,
   ⟨0xE8, 1, 0x4, 0, 0, 0xFFFFFFFF, 0, 0, 0, 0, false⟩,
   ⟨0xEC, 1, 0x4, 0, 0, 0xFFFFFFFF, 0, 0, 0, 0, false⟩,
   ⟨0xF0, 1, 0x4, 0, 0, 0xFFFFFFFF, 0, 0, 0, 0, false⟩,
   ⟨0xF4, 1, 0x4, 0, 0, 0xFFFFFFFF, 0, 0, 0, 0, false⟩,
   ⟨0xF8, 1, 0x4, 0, 0, 0xFFFFFFFF, 0, 0, 0, 0, false⟩] ++
  [⟨0xFC, 1, 0x4, 0, 0, 0xFFFFFFFF, 0, 0, 0, 0, false⟩,
   ⟨0x100, 1, 0x4, 0, 0, 0xFFFFFFFF, 0, 0, 0, 0, false⟩,
   ⟨0x104, 1, 0x4, 0, 0, 0xFFFFFFFF, 0, 0, 0, 0, false⟩,
   ⟨0x108, 1, 0x4, 0, 0, 0xFFFFFFFF, 0, 0, 0, 0, false⟩,
   ⟨0x10C, 1, 0x4, 0, 0, 0xFFFFFFFF, 0, 0, 0, 0, false⟩,
   ⟨0x110, 1, 0x4, 0, 0, 0xFFFFFFFF, 0, 0, 0, 0, false⟩]

/-- The registers of a TBL page. -/
def rowsTBL : List RegRow :=
  [⟨0x40, 1, 0x4, 0, 0x1, 0, 0, 0x1, 24, 0, false⟩,
   ⟨0x44, 1, 0x4, 0, 0, 0, 0, 0, 0, 0, false⟩,
   ⟨0x48, 1, 0x4, 0, 0, 0, 0, 0, 0, 0, false⟩,
   ⟨0x4C, 1, 0x4, 0, 0x1FFFFFFF, 0, 0, 0x10400010, 24, 0, false⟩,
   ⟨0x50, 1, 0x4, 0, 0x1FFFFFFF, 0, 0, 0x11000040, 24, 0, false⟩,
   ⟨0x54, 1, 0x4, 0, 0x1FFFFFFF, 0, 0, 0, 24, 0, false⟩,
   ⟨0x58, 1, 0x4, 0, 0x1FFFFFFF, 0, 0, 0x40001, 24, 0, false⟩,
   ⟨0x5C, 1, 0x4, 0, 0x1FFFFF, 0, 0, 0xA03E8, 24, 0, false⟩,
   ⟨0x60, 1, 0x4, 0, 0xFFFF, 0, 0, 0x400, 24, 0, false⟩,
   ⟨0x64, 1, 0x4, 0x107, 0, 0, 0, 0, 0, 0, false⟩,
   ⟨0x68, 4, 0x4, 0xFFFFFFFF, 0, 0, 0, 0, 0, 0, false⟩,
   ⟨0x78, 1, 0x4, 0x800007FF, 0, 0, 0, 0, 0, 0, false⟩,
   ⟨0x7C, 1, 0x4, 0, 0, 0, 0, 0, 0, 0, false⟩,
   ⟨0x80, 1, 0x4, 0, 0, 0xFFFFFFFF, 0, 0, 0, 0, false⟩,
   ⟨0x84, 1, 0x4, 0, 0, 0xFFFFFFFF, 0, 0, 0, 0, false⟩,
   ⟨0x88, 1, 0x4, 0, 0, 0xFFFFFFFF, 0, 0, 0, 0, false⟩] ++
  [⟨0x100, 1, 0x4, 0, 0x1, 0, 0, 0x1, 24, 0, false⟩,
   ⟨0x104, 1, 0x4, 0, 0, 0, 0, 0, 0, 0, false⟩,
   ⟨0x108, 1, 0x4, 0x10FFF, 0, 0, 0, 0, 0, 0, false⟩,
   ⟨0x10C, 1, 0x4, 0, 0, 0xFFFFFFFF, 0, 0, 0, 0, false⟩,
   ⟨0x110, 1, 0x4, 0, 0, 0xFFFFFFFF, 0, 0, 0, 0, false⟩,
   ⟨0x114, 1, 0x4, 0, 0, 0xFFFFFFFF, 0, 0, 0, 0, false⟩,
   ⟨0x118, 1, 0x4, 0, 0, 0xFFFFFFFF, 0, 0, 0, 0, false⟩,
   ⟨0x11C, 1, 0x4, 0, 0, 0xFFFFFFFF, 0, 0, 0, 0, false⟩,
   ⟨0x180, 32, 0x4, 0xFFFFFFFF, 0, 0, 0, 0, 0, 0, false⟩]

/-- The registers of a KEY page. -/
def rowsKEY : List RegRow :=
  [⟨0x40, 1, 0x4, 0, 0x73, 0, 0, 0x72, 24, 0, false⟩,
   ⟨0x44, 1, 0x4, 0, 0, 0, 0, 0, 0, 0, false⟩,
   ⟨0x48, 1, 0x4, 0, 0, 0, 0, 0, 0, 0, false⟩,
   ⟨0x4C, 1, 0x4, 0, 0xFFFFFF, 0, 0, 0x1E02D0, 24, 0, false⟩,
   ⟨0x50, 1, 0x4, 0, 0x7, 0, 0, 0x4, 24, 0, false⟩,
   ⟨0x54, 1, 0x4, 0, 0, 0, 0, 0, 30, 0, false⟩,
   ⟨0x58, 1, 0x4, 0, 0, 0, 0, 0, 30, 0, false⟩,
   ⟨0x5C, 1, 0x4, 0, 0, 0, 0, 0, 30, 0, false⟩,
   ⟨0x60, 1, 0x4, 0, 0, 0, 0, 0, 30, 0, false⟩,
   ⟨0x64, 1, 0x4, 0, 0, 0, 0, 0, 0, 0, false⟩,
   ⟨0x68, 1, 0x4, 0, 0, 0, 0, 0, 0, 0, false⟩,
   ⟨0x6C, 1, 0x4, 0xFFFFFFC0, 0, 0, 0, 0, 0, 0, false⟩,
   ⟨0x70, 1, 0x4, 0, 0, 0, 0, 0, 0, 0, false⟩,
   ⟨0x74, 1, 0x4, 0, 0, 0xFFFFFFFF, 0, 0, 0, 0, false⟩,
   ⟨0x78, 1, 0x4, 0, 0, 0xFFFFFFFF, 0, 0, 0, 0, false⟩,
   ⟨0x7C, 1, 0x4, 0, 0, 0xFFFFFFFF, 0, 0, 0, 0, false⟩] ++
  [⟨0x80, 1, 0x4, 0, 0, 0xFFFFFFFF, 0, 0, 0, 0, false⟩]

/-- The registers of a SIV page. -/
def rowsSIV : List RegRow :=
  [⟨0x40, 1, 0x4, 0, 0x11F, 0, 0, 0x11F, 24, 0, false⟩,
   ⟨0x44, 1, 0x4, 0, 0, 0, 0, 0, 0, 0, false⟩,
   ⟨0x48, 1, 0x4, 0, 0, 0, 0, 0, 0, 0, false⟩,
   ⟨0x4C, 5, 0x4, 0, 0, 0, 0, 0, 0, 0, false⟩,
   ⟨0x60, 1, 0x4, 0, 0, 0xFFFFFFFF, 0, 0, 0, 0, false⟩,
   ⟨0x64, 1, 0x4, 0, 0, 0xFFFFFFFF, 0, 0, 0, 0, false⟩,
   ⟨0x68, 1, 0x4, 0, 0, 0xFFFFFFFF, 0, 0, 0, 0, false⟩,
   ⟨0x6C, 1, 0x4, 0, 0, 0xFFFFFFFF, 0, 0, 0, 0, false⟩,
   ⟨0x70, 1, 0x4, 0, 0, 0xFFFFFFFF, 0, 0, 0, 0, false⟩,
   ⟨0x74, 1, 0x4, 0, 0, 0xFFFFFFFF, 0, 0, 0, 0, false⟩,
   ⟨0x78, 1, 0x4, 0, 0, 0xFFFFFFFF, 0, 0, 0, 0, false⟩,
   ⟨0x7C, 1, 0x4, 0, 0, 0xFFFFFFFF, 0, 0, 0, 0, false⟩,
   ⟨0x80, 1, 0x4, 0, 0, 0, 0, 0, 0, 0, false⟩,
   ⟨0x84, 1, 0x4, 0, 0, 0, 0, 0, 0, 0, false⟩]

/-- The registers of a PTE page. -/
def rowsPTE : List RegRow :=
  [⟨0x40, 1, 0x4, 0, 0xF01, 0, 0, 0xE00, 24, 0, false⟩,
   ⟨0x44, 1, 0x4, 0, 0, 0, 0, 0xB, 0, 0, false⟩,
   ⟨0x48, 1, 0x4, 0, 0xFFFFFFFF, 0, 0, 0, 24, 0, false⟩,
   ⟨0x4C, 1, 0x4, 0, 0xFFFFFFFF, 0, 0, 0, 24, 0, false⟩,
   ⟨0x50, 1, 0x4, 0, 0xFFFFFFFF, 0, 0, 0xF8BB0706, 24, 0, false⟩,
   ⟨0x54, 1, 0x4, 0, 0xFFFFFFFF, 0, 0, 0x40401020, 24, 0, false⟩,
   ⟨0x58, 1, 0x4, 0, 0xFF3F3F, 0, 0, 0x402E2E, 24, 0, false⟩,
   ⟨0x5C, 1, 0x4, 0, 0xFFFFFFFF, 0, 0, 0x3E8, 24, 0, false⟩,
   ⟨0x60, 1, 0x4, 0, 0xFFFF, 0, 0, 0x5DC, 24, 0, false⟩,
   ⟨0x64, 1, 0x4, 0x11F, 0, 0, 0, 0, 0, 0, false⟩,
   ⟨0x68, 4, 0x4, 0xFFFFFFFF, 0, 0, 0, 0, 0, 0, false⟩,
   ⟨0x78, 1, 0x4, 0, 0, 0, 0, 0, 0, 0, false⟩,
   ⟨0x7C, 1, 0x4, 0, 0, 0, 0, 0, 0, 0, false⟩,
   ⟨0x80, 4, 0x4, 0, 0xF1FFF, 0, 0, 0, 24, 0, false⟩,
   ⟨0x90, 1, 0x4, 0, 0, 0, 0, 0, 0, 0, false⟩,
   ⟨0x94, 1, 0x4, 0, 0, 0, 0, 0, 0, 0, false⟩] ++
  [⟨0xC0, 8, 0x4, 0, 0, 0, 0, 0, 0, 0, false⟩,
   ⟨0x100, 2, 0x40, 0, 0xFFFF377F, 0, 0, 0, 24, 0, false⟩,
   ⟨0x104, 2, 0x40, 0, 0xFFFFFFFF, 0, 0, 0x7000001, 24, 0, false⟩,
   ⟨0x108, 2, 0x40, 0, 0xFFFF, 0, 0, 0x12C, 24, 0, false⟩,
   ⟨0x10C, 2, 0x40, 0, 0xFFFFFFFF, 0, 0, 0, 24, 0, false⟩,
   ⟨0x110, 2, 0x40, 0, 0xFFFFFFFF, 0, 0, 0, 24, 0, false⟩,
   ⟨0x114, 2, 0x40, 0, 0xFFFFFFFF, 0, 0, 0, 24, 0, false⟩,
   ⟨0x118, 2, 0x40, 0, 0xFFFFFFFF, 0, 0, 0, 24, 0, false⟩,
   ⟨0x11C, 2, 0x40, 0, 0, 0, 0, 0, 0, 0, false⟩,
   ⟨0x120, 2, 0x40, 0, 0, 0, 0, 0, 0, 0, false⟩,
   ⟨0x124, 2, 0x40, 0, 0, 0, 0, 0, 0, 0, false⟩,
   ⟨0x128, 2, 0x40, 0, 0, 0, 0, 0, 0, 0, false⟩,
   ⟨0x12C, 2, 0x40, 0, 0, 0, 0, 0, 0, 0, false⟩,
   ⟨0x130, 2, 0x40, 0, 0, 0, 0, 0, 0, 0, false⟩,
   ⟨0x134, 2, 0x40, 0, 0, 0, 0, 0, 0, 0, false⟩,
   ⟨0x138, 2, 0x40, 0, 0, 0, 0, 0, 0, 0, false⟩] ++
  [⟨0x13C, 2, 0x40, 0, 0, 0xFFFFFFFF, 0, 0, 0, 0, false⟩,
   ⟨0x180, 1, 0x4, 0x10F, 0, 0, 0, 0, 0, 0, false⟩,
   ⟨0x184, 1, 0x4, 0xFFFFFFFF, 0, 0, 0, 0, 0, 0, false⟩,
   ⟨0x188, 1, 0x4, 0x800001FF, 0, 0, 0, 0, 0, 0, false⟩,
   ⟨0x190, 8, 0x4, 0, 0, 0, 0, 0, 0, 0, false⟩,
   ⟨0x1C0, 1, 0x4, 0, 0, 0xFFFFFFFF, 0, 0, 0, 0, false⟩,
   ⟨0x1C4, 1, 0x4, 0, 0, 0xFFFFFFFF, 0, 0, 0, 0, false⟩,
   ⟨0x1C8, 1, 0x4, 0, 0, 0xFFFFFFFF, 0, 0, 0, 0, false⟩,
   ⟨0x1CC, 1, 0x4, 0, 0, 0xFFFFFFFF, 0, 0, 0, 0, false⟩,
   ⟨0x1D0, 1, 0x4, 0, 0, 0xFFFFFFFF, 0, 0, 0, 0, false⟩,
   ⟨0x1D4, 1, 0x4, 0, 0, 0xFFFFFFFF, 0, 0, 0, 0, false⟩,
   ⟨0x1D8, 1, 0x4, 0, 0, 0xFFFFFFFF, 0, 0, 0, 0, false⟩,
   ⟨0x1DC, 1, 0x4, 0, 0, 0xFFFFFFFF, 0, 0, 0, 0, false⟩,
   ⟨0x1E0, 1, 0x4, 0, 0, 0xFFFFFFFF, 0, 0, 0, 0, false⟩,
   ⟨0x1E4, 1, 0x4, 0, 0, 0xFFFFFFFF, 0, 0, 0, 0, false⟩,
   ⟨0x1E8, 1, 0x4, 0, 0, 0xFFFFFFFF, 0, 0, 0, 0, false⟩] ++
  [⟨0x1EC, 1, 0x4, 0, 0, 0xFFFFFFFF, 0, 0, 0, 0, false⟩,
   ⟨0x1F0, 1, 0x4, 0, 0, 0xFFFFFFFF, 0, 0, 0, 0, false⟩]

/-- The registers of a MCK page. -/
def rowsMCK : List RegRow :=
  [⟨0x40, 1, 0x4, 0, 0, 0, 0, 0, 0, 0, false⟩,
   ⟨0x44, 1, 0x4, 0, 0x1FFFF, 0, 0, 0x14, 122, 0, false⟩,
   ⟨0x48, 1, 0x4, 0xFFFF0000, 0, 0, 0, 0, 0, 0, false⟩,
   ⟨0x4C, 1, 0x4, 0x3F1FFF, 0, 0, 0, 0, 0, 0, false⟩,
   ⟨0x50, 3, 0x4, 0xFFFFFFFF, 0, 0, 0, 0, 0, 0, false⟩,
   ⟨0x5C, 1, 0x4, 0x7FF07FF, 0, 0, 0, 0, 0, 0, false⟩,
   ⟨0x60, 1, 0x4, 0, 0, 0, 0, 0, 0, 0, false⟩,
   ⟨0x64, 1, 0x4, 0x1F, 0, 0, 0, 0, 122, 0, false⟩,
   ⟨0x68, 1, 0x4, 0x7FF, 0, 0, 0, 0, 122, 0, false⟩,
   ⟨0x6C, 1, 0x4, 0, 0x7FFFFF, 0, 0, 0x200000, 122, 0, false⟩,
   ⟨0x70, 1, 0x4, 0x7, 0, 0, 0, 0, 0, 0, false⟩,
   ⟨0x74, 1, 0x4, 0, 0, 0, 0, 0, 0, 0, false⟩,
   ⟨0x78, 1, 0x4, 0, 0, 0, 0, 0, 0, 0, false⟩,
   ⟨0x7C, 1, 0x4, 0, 0x7FFF7FFF, 0, 0, 0x1440144, 122, 0, false⟩,
   ⟨0x80, 4, 0x4, 0, 0xFFFFF07, 0, 0, 0x10000, 122, 0, false⟩,
   ⟨0x90, 4, 0x4, 0, 0xFFFFFFFF, 0, 0, 0, 122, 0, false⟩] ++
  [⟨0xA0, 4, 0x4, 0, 0xFFFFFFFF, 0, 0, 0, 122, 0, false⟩,
   ⟨0xB0, 1, 0x4, 0, 0x1FF01FF, 0, 0, 0, 122, 0, false⟩,
   ⟨0xC0, 6, 0x4, 0, 0, 0, 0, 0, 0, 0, false⟩,
   ⟨0xE0, 1, 0x4, 0, 0, 0xFFFFFFFF, 0, 0, 0, 0, false⟩,
   ⟨0xE4, 1, 0x4, 0, 0, 0xFFFFFFFF, 0, 0, 0, 0, false⟩,
   ⟨0xE8, 1, 0x4, 0, 0, 0xFFFFFFFF, 0, 0, 0, 0, false⟩,
   ⟨0xEC, 1, 0x4, 0, 0, 0xFFFFFFFF, 0, 0, 0, 0, false⟩,
   ⟨0xF0, 1, 0x4, 0, 0, 0xFFFFFFFF, 0, 0, 0, 0, false⟩,
   ⟨0xF4, 1, 0x4, 0, 0, 0xFFFFFFFF, 0, 0, 0, 0, false⟩,
   ⟨0xF8, 1, 0x4, 0, 0, 0xFFFFFFFF, 0, 0, 0, 0, false⟩,
   ⟨0xFC, 1, 0x4, 0, 0, 0xFFFFFFFF, 0, 0, 0, 0, false⟩,
   ⟨0x100, 8, 0x10, 0, 0x7FF, 0, 0, 0, 122, 0, false⟩,
   ⟨0x104, 8, 0x10, 0, 0xFFFFFFFF, 0, 0, 0x100001, 122, 0, false⟩,
   ⟨0x108, 8, 0x10, 0, 0xFFFFFFFF, 0, 0, 0, 122, 0, false⟩,
   ⟨0x10C, 8, 0x10, 0, 0xFFFFFFFF, 0, 0, 0x5F5E100, 122, 0, false⟩]

/-- The registers of a TDC page. -/
def rowsTDC : List RegRow :=
  [⟨0x40, 1, 0x4, 0, 0x1FFFF7F, 0, 0, 0x10000, 120, 0, false⟩,
   ⟨0x44, 1, 0x4, 0, 0, 0, 0, 0, 0, 0, false⟩,
   ⟨0x48, 1, 0x4, 0, 0, 0, 0, 0, 0, 0, false⟩,
   ⟨0x4C, 1, 0x4, 0, 0x3FF, 0, 0, 0x2, 120, 0, false⟩,
   ⟨0x50, 1, 0x4, 0, 0xFFFF, 0, 0, 0x5555, 120, 0, false⟩,
   ⟨0x54, 1, 0x4, 0, 0x1F1F, 0, 0, 0x303, 120, 0, false⟩,
   ⟨0x58, 1, 0x4, 0, 0xFFFFFF, 0, 0, 0x3E8, 120, 0, false⟩,
   ⟨0x5C, 1, 0x4, 0, 0xFFFF, 0, 0, 0x3E8, 120, 0, false⟩,
   ⟨0x60, 1, 0x4, 0x3F, 0, 0, 0, 0, 0, 0, false⟩,
   ⟨0x64, 1, 0x4, 0, 0, 0, 0, 0, 0, 0, false⟩,
   ⟨0x80, 10, 0x4, 0, 0xFFFFFFFF, 0, 0, 0, 120, 0, false⟩,
   ⟨0xC0, 6, 0x4, 0, 0, 0, 0, 0, 0, 0, false⟩,
   ⟨0xE0, 1, 0x4, 0, 0, 0xFFFFFFFF, 0, 0, 0, 0, false⟩,
   ⟨0xE4, 1, 0x4, 0, 0, 0xFFFFFFFF, 0, 0, 0, 0, false⟩,
   ⟨0xE8, 1, 0x4, 0, 0, 0xFFFFFFFF, 0, 0, 0, 0, false⟩,
   ⟨0xEC, 1, 0x4, 0, 0, 0xFFFFFFFF, 0, 0, 0, 0, false⟩] ++
  [⟨0xF0, 1, 0x4, 0, 0, 0xFFFFFFFF, 0, 0, 0, 0, false⟩,
   ⟨0xF4, 1, 0x4, 0, 0, 0xFFFFFFFF, 0, 0, 0, 0, false⟩]

/-- The registers of a PKE page. -/
def rowsPKE : List RegRow :=
  [⟨0x40, 1, 0x4, 0, 0x1, 0, 0, 0x1, 24, 0, false⟩,
   ⟨0x44, 1, 0x4, 0, 0, 0, 0, 0, 0, 0, false⟩,
   ⟨0x48, 1, 0x4, 0, 0x80FFFFFF, 0, 0, 0x80004E20, 24, 0, false⟩,
   ⟨0x4C, 1, 0x4, 0, 0xFFFFFF, 0, 0, 0, 24, 0, false⟩,
   ⟨0x50, 1, 0x4, 0, 0xFFFFFF, 0, 0, 0xF52240, 24, 0, false⟩,
   ⟨0x54, 1, 0x4, 0x77FFFFF, 0, 0, 0, 0x1000, 0, 0, false⟩,
   ⟨0x58, 1, 0x4, 0, 0, 0, 0, 0, 0, 0, false⟩,
   ⟨0x5C, 1, 0x4, 0, 0, 0xFFFFFFFF, 0, 0, 0, 0, false⟩,
   ⟨0x60, 1, 0x4, 0, 0, 0xFFFFFFFF, 0, 0, 0, 0, false⟩,
   ⟨0x64, 1, 0x4, 0, 0, 0xFFFFFFFF, 0, 0, 0, 0, false⟩,
   ⟨0x68, 1, 0x4, 0, 0, 0xFFFFFFFF, 0, 0, 0, 0, false⟩,
   ⟨0x6C, 1, 0x4, 0, 0, 0xFFFFFFFF, 0, 0, 0, 0, false⟩]

/-- The registers of a PKEL page. -/
def rowsPKEL : List RegRow :=
  [⟨0x40, 1, 0x4, 0xFFFFFFC0, 0, 0, 0, 0, 0, 0, false⟩,
   ⟨0x44, 1, 0x4, 0xFF0070, 0, 0, 0, 0, 0, 0, false⟩,
   ⟨0x48, 1, 0x4, 0, 0, 0, 0, 0, 0, 0, false⟩,
   ⟨0x4C, 1, 0x4, 0, 0, 0, 0, 0, 0, 0, false⟩,
   ⟨0x50, 1, 0x4, 0, 0, 0, 0, 0, 0, 0, false⟩,
   ⟨0x54, 1, 0x4, 0, 0, 0xFFFFFFFF, 0, 0, 0, 0, false⟩]

/-- The registers of a CPU page. -/
def rowsCPU : List RegRow :=
  [⟨0x40, 1, 0x4, 0, 0, 0, 0, 0x3E01, 0, 0, false⟩,
   ⟨0x44, 1, 0x4, 0, 0, 0, 0x3F3F3F, 0, 0, 0, false⟩,
   ⟨0x48, 1, 0x4, 0, 0xFFFF, 0, 0, 0, 24, 0, false⟩,
   ⟨0x4C, 1, 0x4, 0, 0x303, 0, 0, 0, 24, 0, false⟩,
   ⟨0x50, 4, 0x4, 0, 0xFFFF, 0, 0, 0, 24, 0, false⟩,
   ⟨0x60, 6, 0x4, 0, 0xFFFFFFFC, 0, 0, 0, 24, 0, false⟩,
   ⟨0x78, 1, 0x4, 0, 0xFFFFFFFF, 0, 0, 0, 24, 0, false⟩,
   ⟨0x80, 6, 0x4, 0x3FF, 0, 0, 0, 0, 24, 0, false⟩,
   ⟨0xA0, 6, 0x4, 0xFFFFFFFF, 0, 0, 0, 0, 0, 0, false⟩,
   ⟨0xB8, 1, 0x4, 0, 0, 0x3F, 0, 0, 0, 0, false⟩,
   ⟨0xC0, 2, 0x4, 0, 0x7FFFF, 0, 0, 0x107D0, 24, 0, false⟩,
   ⟨0xC8, 4, 0x4, 0, 0x7FFFF, 0, 0, 0x3E8, 24, 0, false⟩,
   ⟨0xD8, 1, 0x4, 0, 0xFFFF, 0, 0, 0x3E8, 24, 0, false⟩,
   ⟨0xDC, 1, 0x4, 0, 0, 0, 0, 0, 0, 0, false⟩,
   ⟨0xE0, 1, 0x4, 0, 0, 0xFFFFFFFF, 0, 0, 0, 0, false⟩,
   ⟨0xE4, 1, 0x4, 0, 0, 0xFFFFFFFF, 0, 0, 0, 0, false⟩] ++
  [⟨0xE8, 1, 0x4, 0, 0, 0xFFFFFFFF, 0, 0, 0, 0, false⟩,
   ⟨0xEC, 1, 0x4, 0, 0, 0, 0, 0, 0, 0, false⟩]

/-- The registers of a PMC page. -/
def rowsPMC : List RegRow :=
  [⟨0x40, 1, 0x4, 0x1, 0, 0, 0, 0, 24, 0, false⟩,
   ⟨0x44, 1, 0x4, 0xFFFFFFFF, 0, 0, 0, 0, 24, 0, false⟩,
   ⟨0x48, 1, 0x4, 0xFFFFFFFF, 0, 0, 0, 0, 24, 0, false⟩,
   ⟨0x4C, 1, 0x4, 0, 0, 0xFFFFFFFF, 0, 0, 16, 0, false⟩,
   ⟨0x50, 1, 0x4, 0xFFFFFFFF, 0, 0, 0, 0, 24, 0, false⟩,
   ⟨0x54, 1, 0x4, 0, 0, 0, 0, 0, 16, 0, false⟩,
   ⟨0x58, 1, 0x4, 0, 0, 0, 0, 0, 16, 0, false⟩,
   ⟨0x5C, 1, 0x4, 0, 0, 0x100, 0, 0, 16, 0, false⟩,
   ⟨0x60, 1, 0x4, 0, 0xFFFFFFFF, 0, 0, 0, 24, 0, false⟩,
   ⟨0x64, 1, 0x4, 0, 0x3F, 0, 0, 0, 24, 1, false⟩,
   ⟨0x68, 1, 0x4, 0, 0x1, 0, 0, 0, 24, 1, false⟩,
   ⟨0x80, 32, 0x4, 0xFF7FFF, 0, 0, 0, 0xFF0000, 24, 0, false⟩,
   ⟨0x100, 32, 0x4, 0xFFFFFFFF, 0, 0, 0, 0, 16, 0, false⟩]

/-- The registers of a REC page. -/
def rowsREC : List RegRow :=
  [⟨0x40, 1, 0x4, 0, 0xFFFF0007, 0, 0, 0x640004, 120, 0, false⟩,
   ⟨0x44, 1, 0x4, 0, 0, 0, 0, 0x1, 0, 0, false⟩,
   ⟨0x48, 1, 0x4, 0x30, 0, 0, 0, 0x30, 0, 0, false⟩,
   ⟨0x4C, 1, 0x4, 0, 0, 0, 0, 0xFFFFFFFF, 127, 0, false⟩,
   ⟨0x50, 1, 0x4, 0, 0, 0, 0, 0, 127, 0, false⟩,
   ⟨0x54, 4, 0x4, 0, 0, 0, 0, 0, 127, 0, false⟩,
   ⟨0x64, 4, 0x4, 0, 0, 0xFFFFFFFF, 0, 0, 127, 0, false⟩,
   ⟨0x74, 1, 0x4, 0, 0, 0xFFFFFFFF, 0, 0, 127, 0, false⟩,
   ⟨0x78, 1, 0x4, 0, 0, 0xFFFFFFFF, 0, 0, 127, 0, false⟩,
   ⟨0x7C, 1, 0x4, 0, 0, 0, 0, 0, 127, 0, false⟩,
   ⟨0x80, 1, 0x4, 0x3FF, 0, 0, 0, 0x100, 0, 0, false⟩,
   ⟨0x84, 1, 0x4, 0xFFFFFFFF, 0, 0, 0, 0, 0, 0, false⟩,
   ⟨0x88, 1, 0x4, 0xFFFFFFFF, 0, 0, 0, 0, 0, 0, false⟩]

/-- The registers of a SAF page. -/
def rowsSAF : List RegRow :=
  [⟨0x40, 1, 0x4, 0, 0x3, 0, 0, 0, 122, 0, false⟩,
   ⟨0x44, 1, 0x4, 0, 0, 0, 0, 0x1, 122, 0, false⟩,
   ⟨0x48, 1, 0x4, 0, 0, 0, 0, 0, 0, 0, false⟩,
   ⟨0x4C, 1, 0x4, 0, 0xFFFFFFFF, 0, 0, 0x3E8000A, 122, 0, false⟩,
   ⟨0x50, 1, 0x4, 0, 0xFFFFFFFF, 0, 0, 0xA556D655, 122, 0, false⟩,
   ⟨0x54, 1, 0x4, 0, 0xFFFFFFFF, 0, 0, 0x59A6BD6D, 122, 0, false⟩,
   ⟨0x58, 1, 0x4, 0, 0xFFFFFFFF, 0, 0, 0x56555556, 122, 0, false⟩,
   ⟨0x5C, 1, 0x4, 0, 0xFFFFFFFF, 0, 0, 0xF6E6555, 122, 0, false⟩,
   ⟨0x60, 1, 0x4, 0, 0, 0, 0, 0, 0, 0, false⟩,
   ⟨0x64, 1, 0x4, 0, 0, 0, 0, 0, 0, 0, false⟩,
   ⟨0x68, 1, 0x4, 0, 0, 0xFFFFFFFF, 0, 0, 0, 0, false⟩,
   ⟨0x6C, 1, 0x4, 0, 0, 0xFFFFFFFF, 0, 0, 0, 0, false⟩,
   ⟨0x70, 1, 0x4, 0, 0xFFFFF, 0, 0, 0x3001E, 122, 0, false⟩,
   ⟨0x74, 1, 0x4, 0, 0xFFFFFFFF, 0, 0, 0, 122, 0, false⟩,
   ⟨0x78, 1, 0x4, 0, 0xFFFFFFFF, 0, 0, 0x10000000, 122, 0, false⟩,
   ⟨0x7C, 1, 0x4, 0, 0, 0, 0, 0, 0, 0, false⟩] ++
  [⟨0x80, 1, 0x4, 0, 0, 0, 0, 0, 0, 0, false⟩,
   ⟨0x84, 1, 0x4, 0, 0, 0xFFFFFFFF, 0, 0, 0, 0, false⟩,
   ⟨0x88, 1, 0x4, 0, 0, 0xFFFFFFFF, 0, 0, 0, 0, false⟩,
   ⟨0x8C, 1, 0x4, 0, 0, 0, 0, 0, 127, 0, false⟩]

/-- The registers of a AGE page. -/
def rowsAGE : List RegRow :=
  [⟨0x40, 1, 0x4, 0, 0, 0, 0, 0, 0, 0, false⟩,
   ⟨0x44, 1, 0x4, 0, 0xFFFF00FF, 0, 0, 0xA0069, 120, 0, false⟩,
   ⟨0x48, 1, 0x4, 0, 0, 0xFFFFFFFF, 0, 0, 0, 0, false⟩,
   ⟨0x4C, 1, 0x4, 0, 0, 0, 0, 0, 127, 0, false⟩,
   ⟨0x50, 8, 0x4, 0, 0, 0, 0, 0, 0, 0, false⟩,
   ⟨0x70, 8, 0x4, 0, 0, 0, 0, 0, 127, 0, false⟩,
   ⟨0x100, 1, 0x4, 0, 0xFFFFF, 0, 0, 0x40718, 120, 1, false⟩,
   ⟨0x104, 1, 0x4, 0, 0xFFFFFF, 0, 0, 0x141E3C, 120, 1, false⟩,
   ⟨0x108, 1, 0x4, 0, 0xFFFF, 0, 0, 0xC8, 120, 1, false⟩,
   ⟨0x10C, 1, 0x4, 0, 0, 0, 0, 0, 0, 1, false⟩,
   ⟨0x110, 1, 0x4, 0, 0, 0, 0, 0, 0, 1, false⟩,
   ⟨0x114, 1, 0x4, 0, 0, 0, 0, 0, 0, 1, false⟩,
   ⟨0x118, 1, 0x4, 0, 0, 0xFFFFFFFF, 0, 0, 0, 1, false⟩,
   ⟨0x11C, 1, 0x4, 0, 0, 0xFFFFFFFF, 0, 0, 0, 1, false⟩,
   ⟨0x120, 5, 0x4, 0, 0, 0, 0, 0, 127, 1, false⟩]

/-- The registers of a ASK page. -/
def rowsASK : List RegRow :=
  [⟨0x40, 1, 0x4, 0, 0x1FFF, 0, 0, 0x1F20, 122, 0, false⟩,
   ⟨0x44, 1, 0x4, 0, 0, 0, 0, 0x7000, 0, 0, false⟩,
   ⟨0x48, 1, 0x4, 0, 0, 0, 0, 0, 0, 0, false⟩,
   ⟨0x4C, 1, 0x4, 0xFFFFFFC3, 0, 0, 0, 0, 0, 0, false⟩,
   ⟨0x50, 1, 0x4, 0, 0, 0, 0, 0, 0, 0, false⟩,
   ⟨0x54, 1, 0x4, 0, 0, 0, 0, 0, 0, 0, false⟩,
   ⟨0x58, 1, 0x4, 0, 0, 0, 0, 0, 0, 0, false⟩,
   ⟨0x5C, 1, 0x4, 0, 0, 0, 0, 0, 0, 0, false⟩,
   ⟨0x60, 1, 0x4, 0, 0, 0, 0, 0xFFFFFFFF, 0, 0, false⟩,
   ⟨0x64, 1, 0x4, 0, 0, 0, 0, 0, 0, 0, false⟩,
   ⟨0x68, 1, 0x4, 0, 0, 0, 0, 0, 0, 0, false⟩,
   ⟨0x6C, 1, 0x4, 0, 0xFFFFFFFF, 0, 0, 0, 122, 0, false⟩,
   ⟨0x70, 1, 0x4, 0, 0xFFFFFFFF, 0, 0, 0, 122, 0, false⟩,
   ⟨0x74, 1, 0x4, 0, 0, 0, 0, 0, 0, 0, false⟩,
   ⟨0x78, 1, 0x4, 0, 0, 0, 0, 0, 0, 0, false⟩,
   ⟨0x7C, 1, 0x4, 0, 0, 0xFFFFFFFF, 0, 0, 0, 0, false⟩] ++
  [⟨0x80, 1, 0x4, 0, 0, 0xFFFFFFFF, 0, 0, 0, 0, false⟩,
   ⟨0x84, 1, 0x4, 0, 0, 0xFFFFFFFF, 0, 0, 0, 0, false⟩,
   ⟨0x88, 1, 0x4, 0, 0, 0xFFFFFFFF, 0, 0, 0, 0, false⟩,
   ⟨0x8C, 1, 0x4, 0x31FF, 0, 0, 0, 0x1, 0, 0, false⟩,
   ⟨0x90, 1, 0x4, 0, 0, 0, 0, 0, 0, 0, false⟩,
   ⟨0xA0, 8, 0x4, 0xFFFFFFFF, 0, 0, 0, 0, 0, 0, false⟩,
   ⟨0xC0, 8, 0x4, 0, 0, 0, 0, 0, 0, 0, false⟩,
   ⟨0x400, 64, 0x4, 0xFFFFFFFF, 0, 0, 0, 0, 0, 0, false⟩,
   ⟨0x800, 64, 0x4, 0, 0, 0, 0, 0, 0, 0, false⟩]

/-- The registers of a HIF page. -/
def rowsHIF : List RegRow :=
  [⟨0x40, 1, 0x4, 0, 0, 0, 0, 0, 0, 0, false⟩,
   ⟨0x44, 1, 0x4, 0, 0, 0, 0, 0x80320000, 127, 0, false⟩,
   ⟨0x48, 1, 0x4, 0xFFFFFFFF, 0, 0, 0, 0, 16, 0, false⟩,
   ⟨0x4C, 1, 0x4, 0, 0, 0, 0, 0, 0, 0, false⟩,
   ⟨0x50, 8, 0x4, 0xBFBFBFBF, 0, 0, 0, 0, 16, 0, false⟩,
   ⟨0x70, 1, 0x4, 0, 0, 0, 0, 0, 0, 0, false⟩,
   ⟨0x74, 1, 0x4, 0xFFFFFF, 0, 0, 0, 0, 0, 0, false⟩,
   ⟨0x78, 1, 0x4, 0, 0, 0xFFFFFFFF, 0, 0, 0, 0, false⟩,
   ⟨0x7C, 1, 0x4, 0, 0, 0xFFFFFFFF, 0, 0, 0, 0, false⟩,
   ⟨0x80, 1, 0x4, 0xFF, 0, 0, 0, 0, 0, 0, false⟩,
   ⟨0x84, 1, 0x4, 0, 0, 0, 0, 0, 0, 0, false⟩,
   ⟨0x100, 16, 0x20, 0xFFF1F, 0, 0, 0, 0x800, 16, 0, false⟩,
   ⟨0x104, 16, 0x20, 0xFFFFFFFF, 0, 0, 0, 0, 16, 0, false⟩,
   ⟨0x108, 16, 0x20, 0xFFFFFFFF, 0, 0, 0, 0, 16, 0, false⟩,
   ⟨0x10C, 16, 0x20, 0, 0, 0, 0, 0, 0, 0, false⟩,
   ⟨0x110, 16, 0x20, 0xFFF, 0, 0, 0, 0, 0, 0, false⟩] ++
  [⟨0x114, 16, 0x20, 0xFFFFFF, 0, 0, 0, 0x1, 16, 0, false⟩,
   ⟨0x118, 16, 0x20, 0, 0, 0, 0, 0, 0, 0, false⟩,
   ⟨0x11C, 16, 0x20, 0, 0, 0xFFFFFFFF, 0, 0, 0, 0, false⟩]

/-- The registers of a BOOT page. -/
def rowsBOOT : List RegRow :=
  [⟨0x40, 1, 0x4, 0, 0, 0, 0, 0, 0, 0, false⟩,
   ⟨0x44, 1, 0x4, 0, 0, 0, 0, 0, 0, 0, false⟩,
   ⟨0x48, 1, 0x4, 0, 0, 0, 0, 0, 0, 0, false⟩,
   ⟨0x4C, 1, 0x4, 0, 0, 0, 0, 0, 0, 0, false⟩,
   ⟨0x50, 1, 0x4, 0, 0, 0, 0, 0, 127, 0, false⟩,
   ⟨0x54, 1, 0x4, 0, 0, 0, 0x30, 0, 0, 0, false⟩,
   ⟨0x58, 1, 0x4, 0xFFFFFFFF, 0, 0, 0, 0, 0, 0, false⟩,
   ⟨0x5C, 1, 0x4, 0xFFFFFFFF, 0, 0, 0, 0, 0, 0, false⟩,
   ⟨0x60, 1, 0x4, 0xFFFFFF, 0, 0, 0, 0, 0, 0, false⟩]

/-- The registers of a TST page. -/
def rowsTST : List RegRow :=
  [⟨0x40, 1, 0x4, 0, 0, 0, 0, 0, 0, 0, false⟩,
   ⟨0x44, 1, 0x4, 0, 0, 0, 0, 0, 24, 0, false⟩,
   ⟨0x48, 1, 0x4, 0xF70, 0, 0, 0, 0, 24, 0, false⟩,
   ⟨0x4C, 1, 0x4, 0x801F01FF, 0, 0, 0, 0, 24, 0, false⟩,
   ⟨0x50, 1, 0x4, 0x8FFF000F, 0, 0, 0, 0, 24, 0, false⟩,
   ⟨0x54, 1, 0x4, 0, 0, 0xFFFFFFFF, 0, 0, 0, 0, false⟩,
   ⟨0x80, 1, 0x4, 0xFFFFFFFF, 0, 0, 0, 0, 24, 3, false⟩,
   ⟨0x84, 1, 0x4, 0xFFFFFFF, 0, 0, 0, 0x10000, 24, 3, false⟩,
   ⟨0x88, 1, 0x4, 0xFF, 0, 0, 0, 0, 24, 3, false⟩,
   ⟨0x8C, 1, 0x4, 0xFFFFFFFF, 0, 0, 0, 0, 24, 3, false⟩,
   ⟨0x90, 1, 0x4, 0xFF, 0, 0, 0, 0, 24, 3, false⟩,
   ⟨0x94, 1, 0x4, 0xFF1FFF, 0, 0, 0, 0x10000, 24, 3, false⟩,
   ⟨0x98, 1, 0x4, 0xFFFF, 0, 0, 0, 0, 24, 3, false⟩,
   ⟨0xA0, 10, 0x4, 0xFFFFFFFF, 0, 0, 0, 0, 24, 2, false⟩,
   ⟨0xC8, 1, 0x4, 0xFFFFFFFF, 0, 0, 0, 0, 24, 2, false⟩,
   ⟨0xCC, 1, 0x4, 0xF, 0, 0, 0, 0, 24, 2, false⟩]

end Sys2Proof.Machine
end

