-- ==== Sys2Proof/Machine/Pages.lean ====
section
/-! DEFINITION. The pages of the device: which page numbers each die implements (Table 02-1), the block
type, instance, boot enable, switched domain and cold header values of each, and from these the cold
value and the Kept letters of every register. -/

namespace Sys2Proof.Machine

/-- The kinds of register page (Table 02-1, Table 02-9); the TRK type has three kinds of page and
the PKE type two. -/
inductive PageKind where
  | die | isl | blv | pmc | age | tst
  | sds | mac | tsu | lch | ans | siv | pte | tbl | ltr
  | tbe | dsc | ref | ovn | mck | tdc | ask | saf
  | grx | acq | trk | sch | tch | nav | int | snp
  | cpu | recd | pke | pkel | key | hif | boot
  deriving DecidableEq, Repr

/-- A page of a die (R6). -/
structure Pg where
  die : Nat
  page : Nat
  deriving DecidableEq, Repr

/-- The BAR0 address of a register of a page (R6). -/
def Pg.adr (p : Pg) (off : Nat) : Nat := p.die * 0x2000000 + p.page * 0x1000 + off

/-- The page that holds a BAR0 address, or one of its per-requester copies. -/
def pgOf (a : Nat) : Pg := ⟨a / 0x2000000 % 8, a % 0x2000000 / 0x1000⟩

/-- The offset of a BAR0 address in its page. -/
def offOf (a : Nat) : Nat := a % 0x1000

abbrev pHubDie : Pg := ⟨0, 0x000⟩
abbrev pCPU : Pg := ⟨0, 0x010⟩
abbrev pREC : Pg := ⟨0, 0x030⟩
abbrev pPKE : Pg := ⟨0, 0x060⟩
abbrev pPKEL (l : Nat) : Pg := ⟨0, 0x061 + l⟩
abbrev pKEY : Pg := ⟨0, 0x080⟩
abbrev pHIF : Pg := ⟨0, 0x090⟩
abbrev pBOOT : Pg := ⟨0, 0x0A0⟩
abbrev pTBE : Pg := ⟨1, 0x010⟩
abbrev pDSC : Pg := ⟨1, 0x020⟩
abbrev pREF : Pg := ⟨1, 0x030⟩
abbrev pOVN : Pg := ⟨1, 0x040⟩
abbrev pMCK : Pg := ⟨1, 0x050⟩
abbrev pTDC : Pg := ⟨1, 0x060⟩
abbrev pASK (k : Nat) : Pg := ⟨1, 0x070 + k⟩
abbrev pSAF : Pg := ⟨1, 0x078⟩
abbrev pGRX : Pg := ⟨2, 0x010⟩
abbrev pACQ : Pg := ⟨2, 0x020⟩
abbrev pTRK : Pg := ⟨2, 0x030⟩
abbrev pNAV : Pg := ⟨2, 0x040⟩
abbrev pINT : Pg := ⟨2, 0x050⟩
abbrev pSNP : Pg := ⟨2, 0x060⟩
abbrev pSCH (c : Nat) : Pg := ⟨2, 0x100 + c⟩
abbrev pTCH (c : Nat) : Pg := ⟨2, 0x140 + c⟩
abbrev pSDS (d q : Nat) : Pg := ⟨4 + d, 0x010 + q⟩
abbrev pMAC (d i : Nat) : Pg := ⟨4 + d, 0x020 + i⟩
abbrev pTSU (d i : Nat) : Pg := ⟨4 + d, 0x030 + i⟩
abbrev pANS (d : Nat) : Pg := ⟨4 + d, 0x040⟩
abbrev pLCH (d : Nat) : Pg := ⟨4 + d, 0x050⟩
abbrev pSIV (d : Nat) : Pg := ⟨4 + d, 0x060⟩
abbrev pPTE (d : Nat) : Pg := ⟨4 + d, 0x070⟩
abbrev pTBL (d : Nat) : Pg := ⟨4 + d, 0x080⟩
abbrev pLTR (d : Nat) : Pg := ⟨4 + d, 0x0C0⟩
abbrev pDIE (die : Nat) : Pg := ⟨die, 0x000⟩
abbrev pISL (die : Nat) : Pg := ⟨die, 0x001⟩
abbrev pBLV (die : Nat) : Pg := ⟨die, 0x0B0⟩
abbrev pTST (die : Nat) : Pg := ⟨die, 0x0F0⟩

/-- The PMC page of a die (Table 02-1). -/
def pPMC (die : Nat) : Pg := ⟨die, if die = 0 then 0x020 else if die < 3 then 0x080 else 0x090⟩

/-- The AGE page of a die (Table 02-1). -/
def pAGE (die : Nat) : Pg := ⟨die, if die = 0 then 0x050 else if die < 3 then 0x090 else 0x0A0⟩

/-- The register-bearing dies; the Resonator, die 3, has none (R3). -/
def dieHasRegs (die : Nat) : Bool := die < 8 && die != 3

/-- A die is a Port die (Table 00-2). -/
def isPortDie (die : Nat) : Bool := 4 ≤ die && die < 8

/-- Table 02-1: the kind of page a page number of a die is, none for an unmapped page (R25). -/
def pageKind (p : Pg) : Option PageKind :=
  if !dieHasRegs p.die then none
  else if p.page = 0x000 then some .die
  else if p.page = 0x001 then some .isl
  else if p.page = 0x0B0 then some .blv
  else if p.page = 0x0F0 then some .tst
  else if p = pPMC p.die then some .pmc
  else if p = pAGE p.die then some .age
  else if p.die = 0 then
    if p.page = 0x010 then some .cpu
    else if p.page = 0x030 then some .recd
    else if p.page = 0x060 then some .pke
    else if 0x061 ≤ p.page ∧ p.page ≤ 0x070 then some .pkel
    else if p.page = 0x080 then some .key
    else if p.page = 0x090 then some .hif
    else if p.page = 0x0A0 then some .boot
    else none
  else if p.die = 1 then
    if p.page = 0x010 then some .tbe
    else if p.page = 0x020 then some .dsc
    else if p.page = 0x030 then some .ref
    else if p.page = 0x040 then some .ovn
    else if p.page = 0x050 then some .mck
    else if p.page = 0x060 then some .tdc
    else if 0x070 ≤ p.page ∧ p.page ≤ 0x073 then some .ask
    else if p.page = 0x078 then some .saf
    else none
  else if p.die = 2 then
    if p.page = 0x010 then some .grx
    else if p.page = 0x020 then some .acq
    else if p.page = 0x030 then some .trk
    else if p.page = 0x040 then some .nav
    else if p.page = 0x050 then some .int
    else if p.page = 0x060 then some .snp
    else if 0x100 ≤ p.page ∧ p.page ≤ 0x13F then some .sch
    else if 0x140 ≤ p.page ∧ p.page ≤ 0x14F then some .tch
    else none
  else
    if 0x010 ≤ p.page ∧ p.page ≤ 0x011 then some .sds
    else if 0x020 ≤ p.page ∧ p.page ≤ 0x027 then some .mac
    else if 0x030 ≤ p.page ∧ p.page ≤ 0x037 then some .tsu
    else if p.page = 0x040 then some .ans
    else if p.page = 0x050 then some .lch
    else if p.page = 0x060 then some .siv
    else if p.page = 0x070 then some .pte
    else if p.page = 0x080 then some .tbl
    else if p.page = 0x0C0 then some .ltr
    else none

/-- Table 02-9: the block type code of a kind of page (R496). -/
def typeCode : PageKind → Nat
  | .die => 0x01 | .isl => 0x02 | .blv => 0x03 | .pmc => 0x04 | .age => 0x05 | .tst => 0x4F
  | .sds => 0x10 | .mac => 0x11 | .tsu => 0x12 | .lch => 0x13 | .ans => 0x14 | .siv => 0x15
  | .pte => 0x16 | .tbl => 0x17 | .ltr => 0x18
  | .tbe => 0x20 | .dsc => 0x21 | .ref => 0x22 | .ovn => 0x23 | .mck => 0x24 | .tdc => 0x25
  | .ask => 0x26 | .saf => 0x27
  | .grx => 0x30 | .acq => 0x31 | .trk => 0x32 | .sch => 0x32 | .tch => 0x32 | .nav => 0x33
  | .int => 0x34 | .snp => 0x35
  | .cpu => 0x40 | .recd => 0x41 | .pke => 0x42 | .pkel => 0x42 | .key => 0x43 | .hif => 0x44
  | .boot => 0x45

/-- PAGE_ID.INST of a page (Table 02-4). -/
def pageInst (k : PageKind) (p : Pg) : Nat :=
  match k with
  | .die => p.die
  | .mac => p.page - 0x020
  | .tsu => p.page - 0x030
  | .sds => p.page - 0x010
  | .pkel => p.page - 0x061
  | .pke => 0xFF
  | .ask => p.page - 0x070
  | .sch => p.page - 0x100
  | .tch => p.page - 0x100
  | .trk => 0xFF
  | _ => 0

/-- Table 02-7: the pages whose EN is 1 from reset (R38). -/
def bootEnabled : PageKind → Bool
  | .die | .isl | .blv | .cpu | .recd | .pke | .pkel | .key | .hif | .boot | .tbe | .ovn | .saf => true
  | _ => false

/-- The switched domains, in the bit order of DIE.DOM_REQ: bit `3d + j` is PdA, PdB, PdE of Port die
`d`, then HC, HK, GB; GF, which DOM_REQ does not name, comes last (R441). -/
abbrev domHC : Nat := 12
abbrev domHK : Nat := 13
abbrev domGB : Nat := 14
abbrev domGF : Nat := 15

/-- R26: the switched domain a page lies in, none for an always-on page. -/
def pageDomain (k : PageKind) (p : Pg) : Option Nat :=
  let d := p.die - 4
  match k with
  | .cpu | .recd => some domHC
  | .pke | .pkel | .key => some domHK
  | .grx | .acq | .trk | .sch | .tch | .nav | .int | .snp => some domGB
  | .sds => some (3 * d + (p.page - 0x010))
  | .mac => some (3 * d + (p.page - 0x020) / 4)
  | .tsu => some (3 * d + (p.page - 0x030) / 4)
  | .ans | .lch | .siv | .pte | .tbl => some (3 * d + 2)
  | _ => none

/-- The island of its die that holds a page (Table 01-1). -/
def pageIsland (k : PageKind) (p : Pg) : Nat :=
  match k with
  | .cpu => 1 | .recd => 4 | .pke | .pkel | .key => 2 | .hif | .boot => 3
  | .tbe => 0 | .dsc | .ref => 1 | .mck => 2 | .tdc => 3 | .ask => 4 | .saf => 5 | .ovn => 6
  | .grx => 0 | .acq => 1 | .trk | .sch | .tch => 2 | .nav | .int | .snp => 3
  | .sds => p.page - 0x010
  | .mac => (p.page - 0x020) / 4
  | .tsu => (p.page - 0x030) / 4
  | .ans | .siv | .pte | .tbl => 2
  | .lch | .ltr => 3
  | .die | .isl | .blv | .pmc | .age | .tst =>
    if p.die = 0 then (match k with | .pmc => 4 | _ => 5) else if p.die = 1 then 7 else 4

/-- The cold value of EVT_EN, as each page's chapter gives it; 0 where it names no event. -/
def evtCold (k : PageKind) (die : Nat) : Nat :=
  match k with
  | .tbe => 0xFE | .ltr => 0x07 | .dsc => 0xFF | .ref => 0x3F | .ovn => 0x5F | .grx => 0x1F
  | .acq => 0x1C | .trk => 0x06 | .sch => 0x02 | .tch => 0x1C | .nav => 0x2A | .int => 0x37
  | .snp => 0x0A | .sds => 0x2C | .mac => 0x03 | .tsu => 0x05 | .lch => 0x4000001A
  | .ans => 0x4000003C | .tbl => 0x40020000 | .key => 0xEF | .siv => 0x4000001E
  | .pte => 0x400001EE | .mck => 0x16C | .tdc => 0x66 | .pke => 0x0C | .pkel => 0x16
  | .cpu => 0x0F | .saf => 0x60 | .age => 0x1B | .ask => 0x19F | .hif => 0x1E0000 | .boot => 0x07
  | .die => if die = 0 then 0x06 else 0
  | .pmc | .recd | .tst | .isl | .blv => 0

/-- The DOUBT_RAW bits a page implements; its DOUBT_EN starts with exactly these set (Table 02-4). -/
def doubtImpl (k : PageKind) (die : Nat) : Nat :=
  match k with
  | .tbe => 0x1F | .ltr => 0x03 | .dsc => 0x7F | .ref => 0x3F | .ovn => 0x3F | .grx => 0x0F
  | .int => 0x07 | .sds => 0x01 | .tsu => 0x03 | .lch => 0x01 | .ans => 0x01 | .tbl => 0x101
  | .key => 0x0F | .siv => 0x03 | .pte => 0x03 | .mck => 0x01 | .tdc => 0x01 | .pkel => 0x01
  | .cpu => 0x03 | .saf => 0x03 | .age => 0x1F | .ask => 0x03 | .blv => 0x01
  | .isl => if die = 1 then 0x07 else 0x0D
  | _ => 0

/-- The rows of a kind of page beyond the common header. -/
def kindRows : PageKind → List RegRow
  | .die => rowsDIE | .isl => rowsISL | .blv => rowsBLV | .pmc => rowsPMC | .age => rowsAGE
  | .tst => rowsTST | .sds => rowsSDS | .mac => rowsMAC | .tsu => rowsTSU | .lch => rowsLCH
  | .ans => rowsANS | .siv => rowsSIV | .pte => rowsPTE | .tbl => rowsTBL | .ltr => rowsLTR
  | .tbe => rowsTBE | .dsc => rowsDSC | .ref => rowsREF | .ovn => rowsOVN | .mck => rowsMCK
  | .tdc => rowsTDC | .ask => rowsASK | .saf => rowsSAF | .grx => rowsGRX | .acq => rowsACQ
  | .trk => rowsTRK | .sch => rowsSCH | .tch => rowsTCH | .nav => rowsNAV | .int => rowsINT
  | .snp => rowsSNP | .cpu => rowsCPU | .recd => rowsREC | .pke => rowsPKE | .pkel => rowsPKEL
  | .key => rowsKEY | .hif => rowsHIF | .boot => rowsBOOT

/-- A row lists an offset. -/
def RegRow.hits (r : RegRow) (off : Nat) : Bool :=
  r.off ≤ off && (off - r.off) % r.stride == 0 && (off - r.off) / r.stride < r.n

/-- A register exists on a page of this die (the summaries' "(Hub)", "(Port)", "(Timebase)"). -/
def RegRow.onDie (r : RegRow) (die : Nat) : Bool :=
  r.only == 0 || (r.only == 1 && die == 0) || (r.only == 2 && die == 1) ||
    (r.only == 3 && isPortDie die)

/-- The row of a register of a page, none at an offset the page does not implement. -/
def rowOf (k : PageKind) (p : Pg) (off : Nat) : Option RegRow :=
  (if off < 0x40 then rowsHDR else kindRows k).find? fun r => r.hits off && r.onDie p.die

/-- The islands each die has (R11 of ISL.COUNT, Table 01-12). -/
def islCount (die : Nat) : Nat := if die = 0 then 6 else if die = 1 then 8 else 5

/-- The cold value of the registers whose summary says "per page", "per die" or "OTP". -/
def coldSpecial (k : PageKind) (p : Pg) (off : Nat) (base : Nat) : Nat :=
  if off = rPAGE_ID then
    typeCode k * 0x1000000 + pageInst k p * 0x10000 + 0x100
  else if off = rPAGE_FEAT then (Config.pageFeat (typeCode k)).toNat
  else if off = rPAGE_CTRL then if bootEnabled k then 1 else 0
  else if off = rDOUBT_EN then doubtImpl k p.die
  else if off = rEVT_EN then evtCold k p.die
  else match k with
    | .die => if off = rDIE_DIE_ID then 0xB000 + p.die else base
    | .isl =>
      if off = rISL_COUNT then islCount p.die
      else if rISL_MON 0 ≤ off ∧ off ≤ rISL_MON 7 then
        if (off - rISL_MON 0) / 4 < islCount p.die then 0x1000000 else 0
      else base
    | .age =>
      if rAGE_ISL 0 ≤ off ∧ off ≤ rAGE_ISL 7 then
        if (off - rAGE_ISL 0) / 4 < islCount p.die then base + 0x1000000 else 0
      else if p.die = 0 ∧ rAGE_AVS 0 ≤ off ∧ off ≤ rAGE_AVS 4 then
        base + Config.otp (10 + (off - rAGE_AVS 0) / 4) % 1024
      else base
    | .dsc =>
      if off = rDSC_MODEL_FREQ then Config.otp 1 % 0x100000000
      else if off = rDSC_MODEL_AGE then base + Config.otp 2 % 0x10000
      else if off = rDSC_MODEL_TCOEF then Config.otp 3 % 0x10000 + Config.otp 4 % 0x10000 * 0x10000
      else base
    | .ovn =>
      if off = rOVN_SETPOINT then Config.otp 5 % 0x40000
      else if off = rOVN_CHAR then Config.otp 6 % 0x10000 + Config.otp 7 % 0x100 * 0x10000
      else base
    | .hif => if off = rHIF_PCI_ID then base + Config.otp 8 % 0x10000 else base
    | .boot =>
      if off = rBOOT_OTP_STAT then Config.otp 9 % 65 + Config.otp 20 % 16 * 0x100 else base
    | _ => base

/-- The cold value of the register at a BAR0 address (R30), with every strap sampled 0; 0 where
there is no register. -/
def coldAt (a : Nat) : Word :=
  match pageKind (pgOf a) with
  | none => 0
  | some k =>
    match rowOf k (pgOf a) (offOf a) with
    | none => 0
    | some r => BitVec.ofNat 32 (coldSpecial k (pgOf a) (offOf a) r.cold)

/-- The Kept letters the header registers of a page take from its rwl registers (R455). -/
def headerKept (k : PageKind) (p : Pg) : Nat :=
  match k with
  | .mck | .saf | .ask => 0b1111010
  | .dsc | .ref | .ovn | .tdc | .recd | .age => 0b1111000
  | .die => if p.die = 0 then 0b1111010 else 0b0011000
  | _ => 0b0011000

/-- The Kept letters of the register at a BAR0 address, coded as in `RegRow.kept` (R30, R455). -/
def keptAt (a : Nat) : Nat :=
  match pageKind (pgOf a) with
  | none => 0
  | some k =>
    let off := offOf a
    if off = rPAGE_CTRL ∨ off = rINT_EN ∨ off = rDOUBT_EN ∨ off = rEVT_EN then
      headerKept k (pgOf a)
    else
      match rowOf k (pgOf a) off with
      | none => 0
      | some r => r.kept

end Sys2Proof.Machine
end

