-- ==== Sys2Proof/Machine/State.lean ====
section
/-! DEFINITION. The state of the block, its faults and refusals, and the state right after reset. -/

namespace Sys2Proof.Machine

/-- Why the block stops. -/
inductive Fault where
  /-- REG_WRITE raises it for an address outside the 256 MiB of BAR0, which is no register address of
  the device (R3, R6, R413). Safe: the machine stops where the spec gives no access. -/
  | outsideBar0 (adr : Nat)
  deriving DecidableEq, Repr

/-- Why a command has no meaning. -/
inductive Refusal where
  /-- A row whose meaning has not been written yet; only the dispatch raises it. Safe. -/
  | notModelled (mnemonic : String)
  /-- REG_WRITE raises it for a 32- or 64-bit write at an address that is not a multiple of its width: R27 says
  that accesses must be naturally aligned and gives no effect of one that is not. Safe. -/
  | misaligned (adr : Nat)
  deriving DecidableEq, Repr

/-- The straps sampled at COLD and PIN resets (R463). -/
structure Straps where
  bootSel : Nat
  roleSel : Bool
  testEn : Bool
  deriving DecidableEq, Repr

/-- The state of the block. `regs` lists the registers that do not hold their cold value, by BAR0
address (R6), addresses rising; an unlisted register reads as its cold value. `lastRead` is the data
of the last read a command made; `cntLatch` holds the upper words of counters that a requester has read
(R357), `unlock` by die the requester and MONO of a first unlock value (R484), `tap` the instruction of the test access
port (R494); `free` counts the free values drawn (log entry 3); `pending` is the
queue of commands that wait, first in first out. -/
structure State where
  regs : List (Nat × Word)
  clk : Clock
  snapTbe : List Snap
  snapLtr : List (List Snap)
  lastRead : BitVec 64
  free : Nat
  straps : Straps
  tb : TimeBase
  recd : Recorder
  fab : Fabric
  saf : Safe
  pwr : Power
  dsc : Servo
  oven : Oven
  mck : Mck
  rad : Radio
  ports : List PortDie
  kisl : KeyIsland
  links : List AskLink
  core : List Host.Cell
  tdc : Tdc
  pke : Pke
  rings : List Ring
  harts : List Hart
  age : Age
  hif : Hif
  boot : Boot
  cntLatch : List (Nat × Word)
  unlock : List (Nat × (Nat × Nat))
  tap : Nat
  pending : List Instr
  deriving DecidableEq, Repr

/-! ### Reset (R30, R338, R379, R450; log entries 1 and 24) -/

/-- The registers that do not hold their cold value when a COLD reset is released, by BAR0 address: the conditions
that stand (TIME_SET and UTC not valid, no replica locked, the servo in FREERUN with its uncertainty above the limit, the oven
not warm), what the entry to safe state has left (R379), the Askair modes under ROLE_SEL 0 and the links to the key
island. -/
def coldRegs : List (Nat × Word) :=
  [(0x2010020, 0xD), (0x2020020, 0x5), (0x2040020, 0x1), (0x2050010, 0x8), (0x2050040, 0x1),
   (0x2070040, 0x1F22), (0x2071040, 0x1F22), (0x2072040, 0x1F22), (0x2073040, 0x1F22),
   (0x2078010, 0x1), (0x2078084, 0x1), (0x8060044, 0x10), (0x80C0020, 0x1), (0xA060044, 0x10), (0xA0C0020, 0x1),
   (0xC060044, 0x10), (0xC0C0020, 0x1), (0xE060044, 0x10), (0xE0C0020, 0x1)]

/-- A record of a COLD reset: the time is not set. -/
def coldRecord (src code a0 a1 : Nat) : Recd := ⟨src, code, 0, 0, 0x40000000, a0, a1⟩

/-- SAFE_ENTER with cause POWERUP (R379). -/
def coldEnter : Recd := coldRecord 0x2780 0xC140 0 0

/-- The staging buffer of the Timebase die at a COLD reset: CUE_FLUSH of the cue queue, then SAFE_ENTER. -/
def coldStaged : StageBuf :=
  { q := [⟨coldRecord 0x2500 0x4003 8 0, none⟩, ⟨coldEnter, none⟩], run := some ⟨⟨coldEnter, none⟩, 0, coldEnter⟩, lost := 0
    lostMask := 0, lostSrc := 0 }

/-- The recorder at a COLD reset: an empty store, and the RESET record that is written first (R373). -/
def coldRecorder : Recorder :=
  { bufs := StageBuf.empty :: coldStaged :: List.replicate 12 StageBuf.empty, store := [], index := [], next := 0
    clearing := none, first := some ⟨coldRecord 0 0x8105 0 0xFFFFFFFF, none⟩ }

/-- The setpoints that the boot ROM writes after a COLD reset (R439). -/
def coldSetpoints : List AvsJob := (List.range 5).map fun n => ⟨n, Config.otp (10 + n) % 1024, 0, 0, none⟩

/-- The block while a COLD reset is held (R450): the release comes 1 ms after PWRGOOD. -/
def State.cold : State :=
  { regs := (0x10040, 0x3F00) :: coldRegs, clk := ⟨0, 0, 0⟩, snapTbe := List.replicate 7 ⟨0, 0, 0⟩
    snapLtr := List.replicate 4 (List.replicate 7 ⟨0, 0, 0⟩), lastRead := 0, free := 0, straps := ⟨0, false, false⟩
    tb := TimeBase.cold, recd := coldRecorder, fab := Fabric.cold
    saf := { vec := List.replicate 8 0, lastMsg := List.replicate 8 0, lost := 0, since := 0, degSince := 0
             degFell := none, settleFrom := none, esc := [] }
    pwr := { Power.cold with avs := coldSetpoints, held := [(0, 0, 0, 1000000)] }
    dsc := Servo.cold, oven := Oven.cold, mck := Mck.cold, rad := Radio.cold
    ports := List.replicate 4 { PortDie.cold with lackFrom := some 0 }
    kisl := KeyIsland.cold, links := List.replicate 4 AskLink.cold
    core := [], tdc := Tdc.cold, pke := Pke.cold, rings := List.replicate 16 Ring.cold
    harts := List.replicate 6 Hart.cold, age := Age.cold, hif := Hif.cold, boot := Boot.cold, cntLatch := []
    unlock := [], tap := 2, pending := [] }

/-- The block right after a COLD reset is released, with every strap sampled 0: hart 0 starts in the boot ROM
(R338). -/
def State.reset : State :=
  { State.cold with
    regs := coldRegs
    pwr := { Power.cold with avs := coldSetpoints }
    harts := { Hart.cold with run := true } :: List.replicate 5 Hart.cold }

end Sys2Proof.Machine
end

