-- ==== Sys2Proof/Machine/Ops.lean ====
section
/-! DEFINITION. The operations every block shares: registers and fields, counters, time, access to a
page, interrupt and doubt bits with the records they write, and the staging of records. -/

namespace Sys2Proof.Machine

/-! ### Registers -/

/-- The stored value of the register at a BAR0 address (R28, R30). -/
def rdA (s : State) (a : Nat) : Word := (amGet? a s.regs).getD (coldAt a)

/-- Store a value in the register at a BAR0 address; a register at its cold value is not listed. -/
def wrA (s : State) (a : Nat) (v : Word) : State :=
  { s with regs := if v = coldAt a then amErase a s.regs else amSet a v s.regs }

/-- The stored value of a register of a page. -/
def rd (s : State) (p : Pg) (off : Nat) : Word := rdA s (p.adr off)

/-- The stored value of a register of a page, as a number. -/
def rdN (s : State) (p : Pg) (off : Nat) : Nat := (rd s p off).toNat

/-- Store a value in a register of a page. -/
def wr (s : State) (p : Pg) (off : Nat) (v : Word) : State := wrA s (p.adr off) v

/-- Store a number, modulo 2³², in a register of a page. -/
def wrN (s : State) (p : Pg) (off : Nat) (v : Nat) : State := wr s p off (BitVec.ofNat 32 v)

/-- The key of a requester's own copy of a register that is kept per requester (R47): the copies of
requester `q` lie above BAR0's 2²⁸ bytes. -/
def bank (q : Nat) (p : Pg) (off : Nat) : Nat := p.adr off + (q + 1) * 0x10000000

/-- A requester's own copy of a register. -/
def rdB (s : State) (q : Nat) (p : Pg) (off : Nat) : Nat := (rdA s (bank q p off)).toNat

/-- Store a number in a requester's own copy of a register. -/
def wrB (s : State) (q : Nat) (p : Pg) (off v : Nat) : State :=
  wrA s (bank q p off) (BitVec.ofNat 32 v)

/-- The field of a number. -/
def Fld.of (f : Fld) (n : Nat) : Nat := n / 2 ^ f.lo % 2 ^ f.w

/-- A number with a field replaced. -/
def Fld.into (f : Fld) (n v : Nat) : Nat := n - f.of n * 2 ^ f.lo + v % 2 ^ f.w * 2 ^ f.lo

/-- The value of a field. -/
def get (s : State) (p : Pg) (f : Fld) : Nat := f.of (rdN s p f.off)

/-- The value of a signed field. -/
def getS (s : State) (p : Pg) (f : Fld) : Int := signed f.w (get s p f)

/-- A one-bit field. -/
def flag (s : State) (p : Pg) (f : Fld) : Bool := get s p f != 0

/-- Replace a field. -/
def put (s : State) (p : Pg) (f : Fld) (v : Nat) : State := wrN s p f.off (f.into (rdN s p f.off) v)

/-- Replace a field of a requester's own copy of a register. -/
def putQ (s : State) (q : Nat) (p : Pg) (f : Fld) (v : Nat) : State :=
  wrB s q p f.off (f.into (rdB s q p f.off) v)

/-- A field of a requester's own copy of a register. -/
def getQ (s : State) (q : Nat) (p : Pg) (f : Fld) : Nat := f.of (rdB s q p f.off)

/-- Replace a one-bit field. -/
def putB (s : State) (p : Pg) (f : Fld) (b : Bool) : State := put s p f (ofBool b)

/-- Replace a signed field, saturating. -/
def putS (s : State) (p : Pg) (f : Fld) (i : Int) : State := put s p f (unsign f.w (satS f.w i))

/-- Add to a 32-bit counter that saturates. -/
def bumpBy (s : State) (p : Pg) (off k : Nat) : State :=
  wrN s p off (min (rdN s p off + k) 0xFFFFFFFF)

/-- Increment a 32-bit counter that saturates. -/
def bump (s : State) (p : Pg) (off : Nat) : State := bumpBy s p off 1

/-- Increment a counter field that saturates. -/
def bumpF (s : State) (p : Pg) (f : Fld) : State := put s p f (min (get s p f + 1) (2 ^ f.w - 1))

/-- A 64-bit number held in two registers, low word first. -/
def rd64 (s : State) (p : Pg) (lo hi : Nat) : Nat := rdN s p lo + rdN s p hi * 0x100000000

/-- Store a 64-bit number in two registers, low word first. -/
def wr64 (s : State) (p : Pg) (lo hi v : Nat) : State :=
  wrN (wrN s p lo v) p hi (v / 0x100000000)

/-- Add to a 64-bit counter held in two registers. -/
def add64 (s : State) (p : Pg) (lo hi k : Nat) : State := wr64 s p lo hi (rd64 s p lo hi + k)

/-- Keep the larger of a stored maximum and a new value. -/
def maxF (s : State) (p : Pg) (f : Fld) (v : Nat) : State := put s p f (max (get s p f) (satU f.w v))

/-- The data a command's read returns to its requester. -/
def reply (s : State) (v : Nat) : State := { s with lastRead := BitVec.ofNat 64 v }

/-! ### Free values -/

/-- The next value the spec leaves open, in role `k`, and the state that has drawn it (log entry 3). -/
def freeVal (s : State) (k : Nat) : Nat := Config.free k s.free

/-- A free value has been drawn. -/
def drawn (s : State) : State := { s with free := s.free + 1 }

/-! ### Time (R44–R48) -/

/-- PC64 is P[63:0] (R44). -/
def pcNow (s : State) : PC64 := s.clk.p.truncate 64

/-- MONO is P[79:16] (R44). -/
def mono (s : State) : Nat := s.clk.p.toNat / 65536

/-- T96 as a count of 2⁻¹⁶ ns since its origin (R45). -/
def t96 (s : State) : Nat :=
  (((s.clk.p.toNat : Int) + s.clk.tOfs) % ((2 ^ 48 * 1000000000 * 65536 : Nat) : Int)).toNat

/-- One second in units of 2⁻¹⁶ ns. -/
abbrev secU : Nat := 65536000000000

/-- T96 SEC. -/
def t96Sec (t : Nat) : Nat := t / secU

/-- T96 NS. -/
def t96Ns (t : Nat) : Nat := t / 65536 % 1000000000

/-- T96 FRAC. -/
def t96Frac (t : Nat) : Nat := t % 65536

/-- T96 in 2⁻¹⁶ ns from its three parts. -/
def t96Of (sec ns frac : Nat) : Nat := (sec * 1000000000 + ns) * 65536 + frac

/-- The signed 64-bit difference `target − now` of R48. -/
def pcDiff (target from' : PC64) : Int := (target - from').toInt

/-- The instant a command happens at has come: the clock stands at P `t`, or beyond it already
(log entry 5). -/
def advP (s : State) (t : Nat) : State :=
  if s.clk.p.toNat < t then { s with clk := { s.clk with p := BitVec.ofNat 80 t } } else s

/-- The clock has reached the PC64 instant `t`, where it lies ahead (R48). -/
def advPc (s : State) (t : PC64) : State :=
  if pcDiff t (pcNow s) > 0 then advP s (s.clk.p.toNat + (pcDiff t (pcNow s)).toNat) else s

/-- The clock has reached a MONO count of nanoseconds. -/
def advMono (s : State) (ns : Nat) : State := advP s (ns * 65536)

/-- The clock has reached a T96 instant. -/
def advT96 (s : State) (t : Nat) : State := advP s ((t : Int) - s.clk.tOfs).toNat

/-- The PC64 at which a replica-bearing die stands: the master's phase plus the replica's error. -/
def pcAt (s : State) (die : Nat) : PC64 :=
  let lane := if die = 0 then 0 else if die = 2 then 1 else die - 2
  if die = 1 then pcNow s
  else pcNow s + BitVec.ofInt 64 (ix s.tb.replicas lane Replica.cold).ofs

/-- The scale generation (R49). -/
def scaleGen (s : State) : Nat := get s pTBE fTBE_ANCHOR_GEN_SCALE

/-- T96 has been set since the COLD reset (R61). -/
def timeSet (s : State) : Bool := flag s pTBE fTBE_STAT_TIME_SET

/-- The acknowledged feature bits in force: DEV_FEAT_ACK0 once COMMITTED (R35, R36). -/
def feat (s : State) (n : Nat) : Bool :=
  flag s pHubDie fDIE_FEAT_CTRL_COMMITTED && bitOf (rdN s pHubDie (rDIE_DEV_FEAT_ACK 0)) n

/-- The device is held in a reset other than ISLAND (R450). -/
def inReset (s : State) : Bool := s.pwr.held.any fun h => h.1 < 4

/-! ### Pages and domains (R18, R26) -/

/-- A switched domain is on. -/
def domOn (s : State) (d : Nat) : Bool := bitOf s.pwr.on d

/-- A page is powered: it lies in no switched domain or its domain is on. -/
def pageOn (s : State) (p : Pg) : Bool :=
  match pageKind p with
  | none => false
  | some k => match pageDomain k p with
    | none => true
    | some d => domOn s d

/-- A page lies in a domain held in retention (R443). -/
def pageRetained (s : State) (p : Pg) : Bool :=
  match pageKind p with
  | none => false
  | some k => match pageDomain k p with
    | none => false
    | some d => bitOf s.pwr.ret d

/-- A page is enabled (R28), and its clocks run: those of a domain in retention are stopped (R443). -/
def pageEn (s : State) (p : Pg) : Bool := flag s p fPAGE_CTRL_EN && !pageRetained s p

/-- A page is locked (R41). -/
def pageLocked (s : State) (p : Pg) : Bool := flag s p fPAGE_CTRL_LOCK

/-! ### Records (R361–R368) -/

/-- The staging buffer of a die's records. -/
def dieBuf (die : Nat) : Nat := if die < 3 then die else die - 1

/-- The requester's number in record codes and in CPU.LAST_DENY (R365). -/
def reqCode : Requester → Nat
  | .hart h => h.val
  | .host => 6

/-- The staging buffer of a requester's software records. -/
def reqBuf (r : Requester) : Nat := 7 + reqCode r

/-- The requester is an application hart (harts 2–5). -/
def isApp : Requester → Bool
  | .hart h => 2 ≤ h.val
  | .host => false

/-- The requester is a keeper hart (harts 0 and 1). -/
def isKeeper : Requester → Bool
  | .hart h => h.val < 2
  | .host => false

/-- A record of a page with the times of now (R361): MONO, SEC, NS with UNSET, and the scale. -/
def mkRec (s : State) (p : Pg) (code sev : Nat) (forced : Bool) (a0 a1 : Nat) : Recd :=
  let t := t96 s
  { src := p.die * 0x2000 + p.page * 0x10 + scaleGen s
    code := sev * 0x4000 + ofBool forced * 0x2000 + code
    mono := mono s
    sec := t96Sec t % 0x100000000
    ns := t96Ns t + ofBool (!timeSet s) * 0x40000000
    a0 := a0 % 0x100000000
    a1 := a1 % 0x100000000 }

/-- The severity of a CODE halfword (Table 18-2). -/
def codeSev (code : Nat) : Nat := code / 0x4000 % 4

/-- Records an entry stands for: a pair is two (R368). -/
def RecEntry.size (e : RecEntry) : Nat := if e.cont.isSome then 2 else 1

/-- The severity of an entry: that of its first record. -/
def RecEntry.sev (e : RecEntry) : Nat := codeSev e.r.code

/-- Count an entry as lost in its buffer (R368). -/
def StageBuf.lose (b : StageBuf) (e : RecEntry) : StageBuf :=
  { b with lost := b.lost + e.size, lostMask := b.lostMask ||| (1 <<< e.sev), lostSrc := e.r.src }

/-- The lowest severity among waiting entries not above `sev`. -/
def lowestSev (q : List RecEntry) (sev : Nat) : Option Nat :=
  [0, 1, 2, 3].find? fun v => v ≤ sev && q.any fun e => e.sev == v

/-- The recorder counts a lost entry: DROP_CNT of its severity and INT_RAW[4] (R368); a software record
that is lost ends with ERR 1 (R365). -/
def countLost (s : State) (e : RecEntry) : State :=
  let s1 := bumpBy s pREC (rREC_DROP_CNT e.sev) e.size
  let s2 := wrN s1 pREC rINT_RAW (setBit (rdN s1 pREC rINT_RAW) 4 true)
  let code := e.r.code % 0x1000
  if 0x800 ≤ code then putQ s2 (code / 0x100 - 8) pREC fREC_SW_CMD_ERR 1 else s2

/-- Change one staging buffer. -/
def updBuf (s : State) (i : Nat) (f : StageBuf → StageBuf) : State :=
  { s with recd := { s.recd with bufs := upd s.recd.bufs i f } }

/-- The staging buffer of a source. -/
def bufOf (s : State) (i : Nat) : StageBuf := ix s.recd.bufs i StageBuf.empty

/-- An entry joins a buffer's queue; a full buffer gives up its oldest waiting entry of the lowest
severity not above the newcomer's, or loses the newcomer (R368). -/
def pushEntry (s : State) (i : Nat) (e : RecEntry) : State :=
  let b := bufOf s i
  if b.q.length < 64 then updBuf s i fun b => { b with q := b.q ++ [e] }
  else match lowestSev b.q e.sev with
    | none => countLost (updBuf s i fun b => b.lose e) e
    | some v =>
      match b.q.find? fun x => x.sev == v with
      | none => s
      | some x =>
        countLost (updBuf s i fun b =>
          { (b.lose x) with q := b.q.eraseP (fun y => y.sev == v) ++ [e] }) x

/-- The REPEATED record of a run that closes (R367). -/
def RecRun.repeated (r : RecRun) : RecEntry :=
  ⟨{ r.last with code := r.e.sev * 0x4000 + 0x110, a0 := r.count, a1 := r.e.r.code }, none⟩

/-- Close a buffer's open run; with repeats it stages a REPEATED record (R367). -/
def closeRun (s : State) (i : Nat) : State :=
  match (bufOf s i).run with
  | none => s
  | some r =>
    let s1 := updBuf s i fun b => { b with run := none }
    if r.count = 0 then s1 else pushEntry s1 i r.repeated

/-- Two entries are identical for coalescing: SRC, CODE and arguments (R367). -/
def RecEntry.same (a b : RecEntry) : Bool :=
  a.r.src == b.r.src && a.r.code == b.r.code && a.r.a0 == b.r.a0 && a.r.a1 == b.r.a1 &&
    a.cont == b.cont

/-- COAL_WIN in ns (R367). -/
def coalWin (s : State) : Nat := orD (get s pREC fREC_CFG_COAL_WIN) 1 * 1000

/-- Stage an entry from source `i` (R364, R367, R368). `always` marks the records R364 never filters. -/
def stage (s : State) (i : Nat) (always : Bool) (e : RecEntry) : State :=
  if e.sev < get s pREC fREC_CFG_MIN_SEV && !always then bumpBy s pREC rREC_FILTER_CNT e.size
  else if !flag s pREC fREC_CFG_COAL_EN then pushEntry (closeRun s i) i e
  else match (bufOf s i).run with
    | none => updBuf (pushEntry s i e) i fun b => { b with run := some ⟨e, 0, e.r⟩ }
    | some r =>
      if r.e.same e && e.r.mono ≤ r.last.mono + coalWin s then
        bump (updBuf s i fun b => { b with run := some { r with count := r.count + 1, last := e.r } })
          pREC rREC_COAL_CNT
      else
        updBuf (pushEntry (closeRun s i) i e) i fun b => { b with run := some ⟨e, 0, e.r⟩ }

/-- A named record of a page (Table 18-3). -/
def record (s : State) (p : Pg) (code sev a0 a1 : Nat) : State :=
  stage s (dieBuf p.die) false ⟨mkRec s p code sev false a0 a1, none⟩

/-- A named record whose arguments need 128 bits, written as a pair (R363). -/
def recordPair (s : State) (p : Pg) (code sev a0 a1 b0 b1 : Nat) : State :=
  stage s (dieBuf p.die) false ⟨mkRec s p code sev false a0 a1, some (b0 % 0x100000000, b1 % 0x100000000)⟩

/-! ### Interrupt bits (R34) -/

/-- The record of an INT_RAW bit that rose (Table 18-3). -/
def intRecord (s : State) (p : Pg) (bit : Nat) (forced : Bool) : State :=
  stage s (dieBuf p.die) false
    ⟨mkRec s p bit (if 30 ≤ bit then 2 else 1) forced (rdN s p rINT_RAW) 0, none⟩

/-- Set an INT_RAW bit; its rise writes a record where EVT_EN has the bit (R34). -/
def raiseBy (s : State) (p : Pg) (bit : Nat) (forced : Bool) : State :=
  let raw := rdN s p rINT_RAW
  if bitOf raw bit then s
  else
    let s1 := wrN s p rINT_RAW (setBit raw bit true)
    if bitOf (rdN s p rEVT_EN) bit then intRecord s1 p bit forced else s1

/-- An event of a page: its INT_RAW bit is set (R34). -/
def raise (s : State) (p : Pg) (bit : Nat) : State := raiseBy s p bit false

/-- Raise a bit where a condition holds. -/
def raiseIf (s : State) (c : Bool) (p : Pg) (bit : Nat) : State := if c then raise s p bit else s

/-! ### Doubt (R30–R34, R488) -/

/-- Perturbations of a die act: its TST page is unlocked and enabled (R483). -/
def perturbed (s : State) (die : Nat) : Bool :=
  flag s (pTST die) fTST_STAT_UNLOCKED && pageEn s (pTST die)

/-- The DOUBT_RAW bit a die's TST page injects into one of its pages (R488). -/
def injected (s : State) (p : Pg) : Nat :=
  let t := pTST p.die
  let b := get s t fTST_DOUBT_INJ_BIT
  match pageKind p with
  | none => 0
  | some k =>
    if perturbed s p.die && flag s t fTST_DOUBT_INJ_EN &&
        get s t fTST_DOUBT_INJ_PAGE == p.page && bitOf (doubtImpl k p.die) b then 1 <<< b
    else 0

/-- DOUBT_RAW as it reads: the conditions that stand, or are injected. -/
def doubtRaw (s : State) (p : Pg) : Nat := rdN s p rDOUBT_RAW ||| injected s p

/-- DOUBT_RAW AND DOUBT_EN. -/
def doubtOn (s : State) (p : Pg) : Nat := doubtRaw s p &&& rdN s p rDOUBT_EN

/-- PAGE_STAT.DOUBT. -/
def pageDoubt (s : State) (p : Pg) : Bool := doubtOn s p != 0

/-- A condition stands on a page. -/
def doubts (s : State) (p : Pg) (bit : Nat) : Bool := bitOf (rdN s p rDOUBT_RAW) bit

/-- After a change, write DOUBT_SET or DOUBT_CLEAR where PAGE_STAT.DOUBT of the page differs (R34). -/
def noteDoubt (before s : State) (p : Pg) (forced : Bool) : State :=
  if pageDoubt before p = pageDoubt s p then s
  else if pageDoubt s p then
    stage s (dieBuf p.die) false ⟨mkRec s p 0x020 2 forced (doubtOn s p) 0, none⟩
  else
    stage s (dieBuf p.die) false ⟨mkRec s p 0x021 1 forced (doubtOn s p) 0, none⟩

/-- A doubt condition of a page stands or falls. -/
def doubt (s : State) (p : Pg) (bit : Nat) (b : Bool) : State :=
  noteDoubt s (wrN s p rDOUBT_RAW (setBit (rdN s p rDOUBT_RAW) bit b)) p false

/-! ### Denied writes (R342) -/

/-- A denied access: CPU.DENY_CNT, INT_RAW[2] and LAST_DENY (R342). -/
def deny (s : State) (r : Requester) (kind : Nat) : State :=
  let s1 := bump s pCPU rCPU_DENY_CNT
  let s2 := put (put s1 pCPU fCPU_LAST_DENY_HART (reqCode r)) pCPU fCPU_LAST_DENY_KIND kind
  raise s2 pCPU 2

/-- R342: a write of an application hart to this page is discarded. `dbOk` marks the writes to the CPU
page that R346 permits. -/
def appDenied (s : State) (r : Requester) (p : Pg) (dbOk : Bool) : Bool :=
  match r with
  | .host => false
  | .hart h =>
    isApp r &&
      ((pageKind p == some .saf || pageKind p == some .boot || pageKind p == some .tst) ||
        (pageKind p == some .cpu && !dbOk) ||
        !bitOf (get s pCPU (fCPU_APP_WR_DIE (h.val - 2))) p.die)

/-- The kind of a denied page write in LAST_DENY (Table 16-7). -/
def denyKind (p : Pg) : Nat := if p = pCPU then 2 else 1

/-- A register access of a requester: unmapped pages read 0 or discard and count (R25), powered-off
pages likewise (R18), a retained domain discards writes (R443), and an application hart's write is
denied by R342. What is left acts as `f`. -/
def access (s : State) (r : Requester) (p : Pg) (isWr dbOk : Bool) (f : State → State) : State :=
  if p.die = 3 then (if isWr then s else reply s 0)
  else match pageKind p with
    | none =>
      let s1 := bump s (pDIE p.die) rDIE_UNMAP_CNT
      if isWr then s1 else reply s1 0
    | some _ =>
      if !pageOn s p then
        let s1 := bump s (pBLV p.die) rBLV_OFF_CNT
        if isWr then s1 else reply s1 0
      else if isWr && pageRetained s p then bump s (pBLV p.die) rBLV_OFF_CNT
      else if isWr && appDenied s r p dbOk then deny s r (denyKind p)
      else f s

/-- A register write of a requester to a page. -/
def onWrite (s : State) (r : Requester) (p : Pg) (f : State → State) : State :=
  access s r p true false f

/-- A register read of a requester from a page. -/
def onRead (s : State) (r : Requester) (p : Pg) (f : State → State) : State :=
  access s r p false false f

/-- A discarded write to a locked register: DIE.LOCK_VIOL_CNT and INT_RAW[31] (R41). -/
def lockViol (s : State) (p : Pg) : State :=
  raise (bump s (pDIE p.die) rDIE_LOCK_VIOL_CNT) p 31

/-! ### The doubt sources and the sums of a die (R31, R32, R375) -/

/-- Table 19-1: the number of a doubt source. -/
def doubtSource (k : PageKind) (bit : Nat) : Option Nat :=
  match k with
  | .tbe => some (0 + bit) | .dsc => some (5 + bit) | .ref => some 12 | .ovn => some (13 + bit)
  | .mck => some 19 | .tdc => some 20 | .isl => some (21 + bit) | .ltr => some (25 + bit)
  | .blv => some 27 | .sds => some 28 | .tsu => some (29 + bit) | .lch => some 31
  | .ans => some 32 | .tbl => some (if bit = 0 then 33 else 34) | .siv => some (35 + bit)
  | .pte => some (37 + bit) | .key => some (39 + bit) | .pkel => some 43 | .cpu => some (44 + bit)
  | .grx => some (46 + bit) | .int => some (50 + bit) | .age => some (53 + bit)
  | .ask => some (58 + bit) | .saf => some (60 + bit)
  | _ => none

/-- The source vector bits of one page (R32). -/
def pageVec (s : State) (p : Pg) : Nat :=
  match pageKind p with
  | none => 0
  | some k =>
    (List.range 17).foldl (fun v b =>
      if bitOf (doubtOn s p) b then
        match doubtSource k b with
        | some n => v ||| (1 <<< n)
        | none => v
      else v) 0

/-- The pages of a die whose register at `off` is listed, and so may differ from cold. -/
def listedPages (s : State) (die off : Nat) : List Pg :=
  (s.regs.filter fun e => (pgOf e.1).die == die && offOf e.1 == off).map fun e => pgOf e.1

/-- The pages of a die that may show a doubt. -/
def doubtPages (s : State) (die : Nat) : List Pg :=
  ⟨die, get s (pTST die) fTST_DOUBT_INJ_PAGE⟩ :: listedPages s die rDOUBT_RAW

/-- DIE.INT_SUM (R31). -/
def intSum (s : State) (die : Nat) : Nat :=
  (listedPages s die rINT_RAW).foldl (fun v p =>
    if pageOn s p && (rdN s p rINT_RAW &&& rdN s p rINT_EN) != 0 then v ||| (1 <<< (p.page / 16))
    else v) 0

/-- DIE.DOUBT_SUM (R31). -/
def doubtSum (s : State) (die : Nat) : Nat :=
  (doubtPages s die).foldl (fun v p =>
    if pageOn s p && pageDoubt s p then v ||| (1 <<< (p.page / 16)) else v) 0

/-- The source vector of a die's doubt message (R32). -/
def srcVec (s : State) (die : Nat) : Nat :=
  (doubtPages s die).foldl (fun v p => if pageOn s p then v ||| pageVec s p else v) 0

end Sys2Proof.Machine
end

