-- ==== Sys2Proof/Machine/Operands.lean ====
section
/-! DEFINITION. The forms that commands carry and blocks send: fields in network byte order, checksums
and the codes that stand for an accuracy, a variance or a time. -/

namespace Sys2Proof.Machine

/-! ### Checksums -/

/-- One bit step of a CRC-16 with polynomial 0x1021. -/
def crc16Step (c : Nat) : Nat :=
  if bitOf c 15 then (c * 2 % 0x10000) ^^^ 0x1021 else c * 2 % 0x10000

/-- CRC-16, polynomial 0x1021, initial value 0xFFFF, no reflection (Table 13-1). -/
def crc16 (l : List Byte) : Nat :=
  l.foldl (fun c b =>
    let x := c ^^^ (b.toNat * 0x100)
    (List.range 8).foldl (fun c _ => crc16Step c) x) 0xFFFF

/-- One bit step of the reflected CRC-32 of IEEE 802.3. -/
def crc32Step (c : Nat) : Nat := if c % 2 = 1 then (c / 2) ^^^ 0xEDB88320 else c / 2

/-- CRC-32 of IEEE 802.3. -/
def crc32 (l : List Byte) : Nat :=
  (l.foldl (fun c b => (List.range 8).foldl (fun c _ => crc32Step c) (c ^^^ b.toNat)) 0xFFFFFFFF)
    ^^^ 0xFFFFFFFF

/-- The ones' complement sum of 16-bit words, big-endian, as the Internet checksum folds it. -/
def onesSum : List Byte → Nat
  | a :: b :: t => a.toNat * 256 + b.toNat + onesSum t
  | [a] => a.toNat * 256
  | [] => 0

/-- Fold the carries of a ones' complement sum into 16 bits. -/
def fold16 (n : Nat) : Nat :=
  let a := n % 0x10000 + n / 0x10000
  let b := a % 0x10000 + a / 0x10000
  b % 0x10000 + b / 0x10000

/-- The Internet checksum of bytes. -/
def inetSum (l : List Byte) : Nat := 0xFFFF - fold16 (onesSum l)

/-! ### Codes -/

/-- The bounds in ps that the clockAccuracy codes 0x17 to 0x30 stand for (R260). -/
def accBounds : List Nat :=
  [1, 3, 10, 25, 100, 250, 1000, 2500, 10000, 25000, 100000, 250000, 1000000, 2500000, 10000000,
   25000000] ++
  [100000000, 250000000, 1000000000, 2500000000, 10000000000, 25000000000, 100000000000,
   250000000000, 1000000000000, 10000000000000]

/-- clockAccuracy of a UNC in ns, none while unknown (R260). -/
def clockAccuracy (unc : Option Nat) : Nat :=
  match unc with
  | none => 0xFE
  | some u =>
    match accBounds.findIdx? fun b => u * 1000 ≤ b with
    | some i => 0x17 + i
    | none => 0x31

/-- The upper bound in ns of a clockAccuracy code, rounded up; none where the code declares nothing
(R91, R260). -/
def accuracyNs (code : Nat) : Option Nat :=
  if 0x17 ≤ code ∧ code ≤ 0x30 then some ((ix accBounds (code - 0x17) 0 + 999) / 1000) else none

/-- A register that reads 0xFFFF_FFFF for an unknown value (R90). -/
def knownOf (n : Nat) : Option Nat := if n = 0xFFFFFFFF then none else some n

/-- The largest number whose square does not exceed `n`, by bisection from the bit `2 ^ k`. -/
def isqrtAux (n : Nat) : Nat → Nat → Nat
  | 0, r => r
  | k + 1, r => if (r + 2 ^ k) * (r + 2 ^ k) ≤ n then isqrtAux n k (r + 2 ^ k) else isqrtAux n k r

/-- The integer square root. -/
def isqrt (n : Nat) : Nat := isqrtAux n (n.log2 / 2 + 1) 0

end Sys2Proof.Machine
end

