-- ==== Sys2Proof/Machine/AskBase.lean ====
section
/-! DEFINITION. The Askair links as every block sees them: their peers, their state, the frames they send, and
the STEP frame of a step that is requested (R395–R407). -/

namespace Sys2Proof.Machine

/-- A link. -/
def link (s : State) (k : Nat) : AskLink := ix s.links k AskLink.cold

/-- Change a link. -/
def updLink (s : State) (k : Nat) (f : AskLink → AskLink) : State := { s with links := upd s.links k f }

/-- The peer of a slot. -/
def peer (s : State) (k c : Nat) : AskPeer := ix (link s k).peers c AskPeer.cold

/-- Change a peer. -/
def updPeer (s : State) (k c : Nat) (f : AskPeer → AskPeer) : State :=
  updLink s k fun x => { x with peers := upd x.peers c f }

/-- ASK.CFG.MODE: 0 OFF, 1 UPSTREAM, 2 DOWNSTREAM, 3 SHARED. -/
def askMode (s : State) (k : Nat) : Nat := get s (pASK k) fASK_CFG_MODE

/-- ASK.STAT.STATE. -/
def askState (s : State) (k : Nat) : Nat := get s (pASK k) fASK_STAT_STATE

/-- A link is UP. -/
def askUp (s : State) (k : Nat) : Bool := askState s k == 5

/-- A link faces children. -/
def askDown (s : State) (k : Nat) : Bool := decide (2 ≤ askMode s k)

/-- The upstream link that trains: the lowest-numbered one in UPSTREAM mode (R395). -/
def upLink (s : State) : Option Nat := (List.range 4).find? fun k => askMode s k == 1

/-- A feature is agreed on a link: 0 KEYS, 1 STEP, 2 MBOX, 3 SHARED (R400). -/
def askFeat (s : State) (k f : Nat) : Bool := askUp s k && bitOf (get s (pASK k) fASK_STAT_FEAT) f

/-- The slot a link's own frames name as their source (R402): a child's on a SHARED link, else 0xFF. -/
def askSrc (s : State) (k : Nat) : Nat := if askMode s k = 1 then get s (pASK k) fASK_CFG_SLOT else 0xFF

/-- The frames a link has sent since its last command are forgotten. -/
def clearSent (s : State) (k : Nat) : State := updLink s k fun x => { x with sent := [] }

/-- A link sends a frame of a type with the next SEQ of that type (R402). -/
def sendAsk (s : State) (k type dest : Nat) (body : List Byte) : State :=
  let q := (amGet? type (link s k).seqs).getD 0
  let f : AskFrame := ⟨type, dest, askSrc s k, q, body⟩
  updLink s k fun x => { x with seqs := amSet type ((q + 1) % 65536) x.seqs, sent := x.sent ++ [f] }

/-- The features a version defines (R400). -/
def verFeats (v : Nat) : Nat := if v = 1 then 4 else 15

/-- A step is requested for the phase `at'`: every downstream link with STEP agreed sends a STEP frame ahead of
it (R407), with the signed step, S on the old scale and the new scale generation (Table 20-3). -/
def sendStep (s : State) (abs : Bool) (val : Int) (at' : Nat) : State :=
  let t := ((at' : Int) + s.clk.tOfs).toNat
  let d := if abs then val - (t : Int) else val
  let body := bytesBE 8 (unsign 64 d) ++ bytesBE 6 (t96Sec t) ++ bytesBE 4 (t96Ns t) ++ bytesBE 2 (t96Frac t) ++
    bytesBE 1 ((scaleGen s + 1) % 16) ++ bytesBE 3 0
  (List.range 4).foldl (fun s k => if askDown s k && askFeat s k 1 then sendAsk s k 4 0xFF body else s) s

end Sys2Proof.Machine
end

