-- ==== Sys2Proof/Machine/Timebase.lean ====
section
/-! DEFINITION. Time formats and the timebase (spec/03): snapshots, UTC and leap seconds, the smear, the
request and the application of a step, and the local time replicas. -/

namespace Sys2Proof.Machine

/-! ### Snapshots (R47) -/

/-- The three readings at one instant of a phase. -/
def snapOf (s : State) (ofs : Int) : Snap :=
  { t96 := ((t96 s : Int) + ofs).toNat
    pc := pcNow s + BitVec.ofInt 64 ofs
    mono := ((s.clk.p.toNat : Int) + ofs).toNat / 65536 }

/-- A snapshot with nothing read yet. -/
def Snap.zero : Snap := ⟨0, 0, 0⟩

/-- TIME_SNAPSHOT (R47): a read of TIME_SEC_LO of the TBE page, or of a Port die's LTR page, takes the
requester's snapshot and returns SEC[31:0], or SEC[47:0] in one 64-bit access. -/
def execTimeSnapshot (r : Requester) (die : Fin 8) (wide : Bool) (s : State) :
    Host.Outcome State Fault Refusal :=
  let answer (sn : Snap) := t96Sec sn.t96 % (if wide then 0x1000000000000 else 0x100000000)
  if die.val = 1 then
    .next (onRead s r pTBE fun s =>
      let sn := snapOf s 0
      reply { s with snapTbe := s.snapTbe.set (reqCode r) sn } (answer sn))
  else if isPortDie die then
    .next (onRead s r (pLTR (die.val - 4)) fun s =>
      let sn := snapOf s (ix s.tb.replicas (die.val - 2) Replica.cold).ofs
      reply { s with snapLtr := upd s.snapLtr (die.val - 4) fun l => l.set (reqCode r) sn } (answer sn))
  else .next s

/-! ### UTC, leap seconds and the NTP era (R51–R57) -/

/-- TAI−UTC in seconds (R53). -/
def utcOfs (s : State) : Int := getS s pTBE fTBE_UTC_OFFSET_SEC

/-- The offset has been set (R53). -/
def utcValid (s : State) : Bool := flag s pTBE fTBE_UTC_OFFSET_VALID

/-- A schedule is in force (R54). -/
def leapValid (s : State) : Bool := flag s pTBE fTBE_LEAP_SCHED_HI_VALID

/-- The schedule deletes a second; otherwise it inserts one (R54). -/
def leapDel (s : State) : Bool := flag s pTBE fTBE_LEAP_SCHED_HI_DIR

/-- TAI_SEC of the schedule (R54). -/
def leapSec (s : State) : Nat :=
  rdN s pTBE rTBE_LEAP_SCHED + get s pTBE fTBE_LEAP_SCHED_HI_TAI_SEC * 0x100000000

/-- Seconds from 1900-01-01 to 1970-01-01 (R51). -/
abbrev ntpEpoch : Int := 2208988800

/-- TBE.NTP_ERA follows the current time, and a change of era sets INT_RAW[7]; it reads 0 while TIME_SET
is 0 (R52). -/
def refreshEra (s : State) : State :=
  let era := if timeSet s then (((t96Sec (t96 s) : Int) - utcOfs s + ntpEpoch) / 2 ^ 32).toNat % 256 else 0
  if era = get s pTBE fTBE_NTP_ERA_ERA then s
  else raise (put s pTBE fTBE_NTP_ERA_ERA era) pTBE 7

/-- LEAP_DAY: a schedule stands and now lies in the last UTC day before TAI_SEC (R57). -/
def refreshLeapDay (s : State) : State :=
  let day := if leapDel s then 86399 else 86401
  let sec := t96Sec (t96 s)
  putB s pTBE fTBE_STAT_LEAP_DAY
    (leapValid s && decide (leapSec s ≤ sec + day) && decide (sec < leapSec s))

/-- A write of UTC_OFFSET, LEAP_SCHED or LEAP_SCHED_HI while UTC_SRC = 1 is discarded and counted (R53). -/
def utcDiscard (s : State) : State := bump s (pDIE 1) rDIE_LOCK_VIOL_CNT

/-- The source of the offset and the schedule is the upstream link (R53). -/
def utcSrcLink (s : State) : Bool := flag s pTBE fTBE_CFG_UTC_SRC

/-- The offset takes a value with its VALID bit; UTC_UNSET stands while VALID = 0 (R53). -/
def setUtcOfs (s : State) (sec : Nat) (valid : Bool) : State :=
  let s1 := putB (put s pTBE fTBE_UTC_OFFSET_SEC sec) pTBE fTBE_UTC_OFFSET_VALID valid
  refreshEra (doubt s1 pTBE 2 (!valid))

/-- UTC_OFFSET_WRITE (R53). -/
def execUtcOffsetWrite (r : Requester) (v : Word) (s : State) : Host.Outcome State Fault Refusal :=
  .next (onWrite s r pTBE fun s =>
    if utcSrcLink s then utcDiscard s
    else setUtcOfs s (fTBE_UTC_OFFSET_SEC.of v.toNat) (fTBE_UTC_OFFSET_VALID.of v.toNat == 1))

/-! ### The smear (R58, R59) -/

/-- The start of the smear window of a schedule. -/
def smearFrom (leap : Nat) (del : Bool) : Nat := if del then leap - 43199 else leap - 43201

/-- The length of the smear window in seconds. -/
def smearLen (del : Bool) : Nat := if del then 86399 else 86401

/-- σ in ns at a T96 instant of the window that began at `w` (R58). -/
def smearNs (t w : Nat) (del : Bool) : Nat := (t - w * secU) * 1000000000 / (smearLen del * secU)

/-- TBE.SMEAR_NOW shows σ, 0 outside a window. -/
def refreshSmear (s : State) : State :=
  put s pTBE fTBE_SMEAR_NOW_NS
    (if s.tb.smearOn then smearNs (t96 s) s.tb.smearStart s.tb.smearDir else 0)

/-- The smear begins: STAT.SMEARING and INT_RAW[5]. -/
def beginSmear (s : State) : State :=
  let s1 := { s with tb := { s.tb with
    smearOn := true, smearStart := smearFrom (leapSec s) (leapDel s), smearDir := leapDel s } }
  raise (refreshSmear (putB s1 pTBE fTBE_STAT_SMEARING true)) pTBE 5

/-- The smear ends: SMEARING and SMEAR_NOW return to 0 and INT_RAW[6] is set. -/
def endSmear (s : State) : State :=
  if s.tb.smearOn then
    let s1 := { s with tb := { s.tb with smearOn := false } }
    raise (refreshSmear (putB s1 pTBE fTBE_STAT_SMEARING false)) pTBE 6
  else s

/-- SMEAR_START (R58, R59): at W_s SMEAR.EN is sampled; with feature bit 2 and a valid schedule the
window starts. -/
def execSmearStart (s : State) : Host.Outcome State Fault Refusal :=
  let w := smearFrom (leapSec s) (leapDel s)
  if leapValid s && !s.tb.smearOn && decide (t96 s ≤ w * secU) then
    let s1 := advT96 s (w * secU)
    .next (if feat s1 2 && flag s1 pTBE fTBE_SMEAR_EN then beginSmear s1 else s1)
  else .next s

/-- SMEAR_END (R58): at W_e the smear ends. -/
def execSmearEnd (s : State) : Host.Outcome State Fault Refusal :=
  if s.tb.smearOn then
    .next (endSmear (advT96 s ((s.tb.smearStart + smearLen s.tb.smearDir) * secU)))
  else .next s

/-! ### The leap schedule (R54, R55) -/

/-- R54 refuses a software schedule: U unknown, TAI_SEC not the first second of a UTC day under the new
offset, or TAI_SEC less than 2 s after now. -/
def leapRefused (s : State) (sec : Nat) (del : Bool) : Bool :=
  let u := if del then utcOfs s - 1 else utcOfs s + 1
  !utcValid s || ((sec : Int) - u) % 86400 != 0 || decide (sec * secU < t96 s + 2 * secU)

/-- LEAP_SCHED_WRITE (R54): a write of LEAP_SCHED_HI. One that sets VALID is checked and may be refused;
any rewrite of the schedule ends a smear in progress (R59). -/
def execLeapSchedWrite (r : Requester) (v : Word) (s : State) : Host.Outcome State Fault Refusal :=
  .next (onWrite s r pTBE fun s =>
    if utcSrcLink s then utcDiscard s
    else
      let hi := fTBE_LEAP_SCHED_HI_TAI_SEC.of v.toNat
      let del := fTBE_LEAP_SCHED_HI_DIR.of v.toNat == 1
      let want := fTBE_LEAP_SCHED_HI_VALID.of v.toNat == 1
      let sec := rdN s pTBE rTBE_LEAP_SCHED + hi * 0x100000000
      let bad := want && leapRefused s sec del
      let s1 := endSmear s
      let s2 := wrN s1 pTBE rTBE_LEAP_SCHED_HI
        (hi + ofBool del * 0x10000 + ofBool (want && !bad) * 0x80000000)
      refreshLeapDay (raiseIf s2 bad pTBE 4))

/-- The leap is applied: the offset changes by one, VALID clears, INT_RAW[3] is set and a LEAP_APPLIED
record is written (R55). -/
def applyLeap (s : State) : State :=
  let u := unsign 16 (if leapDel s then utcOfs s - 1 else utcOfs s + 1)
  let sec := leapSec s
  let s1 := put s pTBE fTBE_UTC_OFFSET_SEC u
  let s2 := raise (putB s1 pTBE fTBE_LEAP_SCHED_HI_VALID false) pTBE 3
  refreshEra (refreshLeapDay (record s2 pTBE 0x102 1 u sec))

/-- LEAP_APPLIED (R55): TAI second TAI_SEC has come. -/
def execLeapApplied (s : State) : Host.Outcome State Fault Refusal :=
  if leapValid s then .next (applyLeap (advT96 s (leapSec s * secU))) else .next s

/-! ### Anchors and steps (R49, R60–R65) -/

/-- The anchor takes (PC64, T96) of now; ANCHOR_GEN.UPD increments when it is complete (R49). -/
def writeAnchor (s : State) : State :=
  let t := t96 s
  let s1 := wr64 s pTBE rTBE_ANCHOR_PC_LO rTBE_ANCHOR_PC_HI (pcNow s).toNat
  let s2 := wrN s1 pTBE rTBE_ANCHOR_SEC_LO (t96Sec t)
  let s3 := wrN s2 pTBE rTBE_ANCHOR_SEC_HI (t96Sec t / 0x100000000 % 0x10000)
  let s4 := wrN (wrN s3 pTBE rTBE_ANCHOR_NS (t96Ns t)) pTBE rTBE_ANCHOR_FRAC (t96Frac t)
  put s4 pTBE fTBE_ANCHOR_GEN_UPD (get s4 pTBE fTBE_ANCHOR_GEN_UPD + 1)

/-- The anchor's PC64. -/
def anchorPc (s : State) : PC64 := BitVec.ofNat 64 (rd64 s pTBE rTBE_ANCHOR_PC_LO rTBE_ANCHOR_PC_HI)

/-- The anchor's T96 in 2⁻¹⁶ ns. -/
def anchorT96 (s : State) : Nat :=
  t96Of (rdN s pTBE rTBE_ANCHOR_SEC_LO + rdN s pTBE rTBE_ANCHOR_SEC_HI * 0x100000000)
    (rdN s pTBE rTBE_ANCHOR_NS) (rdN s pTBE rTBE_ANCHOR_FRAC)

/-- The T96 of a PC64 instant under the scale in force (R45, R50): the master's own reading plus the
signed difference of R48. -/
def t96OfPc (s : State) (pc : PC64) : Nat := ((t96 s : Int) + pcDiff pc (pcNow s)).toNat

/-- The PC64 of a T96 instant under the scale in force (R50). -/
def pcOfT96 (s : State) (t : Nat) : PC64 := pcNow s + BitVec.ofInt 64 ((t : Int) - (t96 s : Int))

/-- A step waits for S (R63). -/
def stepPending (s : State) : Bool := flag s pTBE fTBE_STEP_CTRL_PEND

/-- S: the first exchange boundary of the time lanes at least 20 µs after now; boundaries fall where
MONO is a whole multiple of 10,000 ns (R62). The phase P of that boundary. -/
def stepInstant (s : State) : Nat :=
  (s.clk.p.toNat + 20000 * 65536 + (655360000 - 1)) / 655360000 * 655360000

/-- The value in STEP_SEC, STEP_NS and STEP_FRAC, in 2⁻¹⁶ ns. -/
def stepRegs (s : State) : Nat :=
  t96Of (rdN s pTBE rTBE_STEP_SEC_LO + get s pTBE fTBE_STEP_SEC_HI_SEC * 0x100000000)
    (get s pTBE fTBE_STEP_NS_NS) (get s pTBE fTBE_STEP_FRAC_FRAC)

/-- The record of a step request, accepted or refused (R61, Table 18-3). -/
def stepRecord (s : State) : State :=
  record s pTBE 0x101 1 (rdN s pTBE rTBE_STEP_CTRL) (rdN s pTBE rTBE_STEP_NS)

/-- A refused request: REFUSED, INT_RAW[2], and the record of R61 (log entry 7). -/
def refuseStep (s : State) : State :=
  stepRecord (raise (putB s pTBE fTBE_STEP_CTRL_REFUSED true) pTBE 2)

/-- A request is accepted: the step is pending for the phase S (R62), and passes down the tree (R407). `by'` is 0 for software, 1 for the
discipline engine, 2 for the upstream link. -/
def acceptStepAt (s : State) (by' : Nat) (abs : Bool) (val : Int) (at' : Nat) : State :=
  let s1 := { s with tb := { s.tb with stepAbs := abs, stepVal := val, stepBy := by' } }
  let s2 := putB (putB s1 pTBE fTBE_STEP_CTRL_PEND true) pTBE fTBE_STEP_CTRL_REFUSED false
  let s3 := putB (putB s2 pTBE fTBE_STEP_CTRL_BY_DSC (by' == 1)) pTBE fTBE_STAT_STEP_PEND true
  stepRecord (sendStep (wr64 s3 pTBE rTBE_STEP_AT_LO rTBE_STEP_AT_HI at') abs val at')

/-- A request of software or of the discipline engine is accepted, for S of R62. -/
def acceptStep (s : State) (by' : Nat) (abs : Bool) (val : Int) : State :=
  acceptStepAt s by' abs val (stepInstant s)

/-- A request of the upstream link for the first lane boundary at or after the phase `t`, refused only while a
step is pending (R63, R407). -/
def requestUpStep (s : State) (val : Int) (t : Nat) : State :=
  if stepPending s then refuseStep s else acceptStepAt s 2 false val ((t + 655359999) / 655360000 * 655360000)

/-- A request of the discipline engine, refused only while a step is pending
(R60, R63). -/
def requestStep (s : State) (by' : Nat) (abs : Bool) (val : Int) : State :=
  if stepPending s then refuseStep s else acceptStep s by' abs val

/-- The servo is in FREERUN or HOLDOVER, where software may step (R60). -/
def servoLetsStep (s : State) : Bool :=
  get s pDSC fDSC_STAT_STATE == 0 || get s pDSC fDSC_STAT_STATE == 3

/-- A software step is refused (R60, R61, R63 and the limit of STEP_NS). -/
def swStepRefused (s : State) (abs : Bool) : Bool :=
  stepPending s || !flag s pTBE fTBE_CFG_SW_STEP_EN || !servoLetsStep s || (!abs && !timeSet s) ||
    decide (999999999 < get s pTBE fTBE_STEP_NS_NS)

/-- STEP_REQUEST (R60, R61): a write of STEP_CTRL with GO. -/
def execStepRequest (r : Requester) (v : Word) (s : State) : Host.Outcome State Fault Refusal :=
  .next (onWrite s r pTBE fun s =>
    let s1 := put (put s pTBE fTBE_STEP_CTRL_MODE (fTBE_STEP_CTRL_MODE.of v.toNat))
      pTBE fTBE_STEP_CTRL_SIGN (fTBE_STEP_CTRL_SIGN.of v.toNat)
    if fTBE_STEP_CTRL_GO.of v.toNat = 0 then s1
    else
      let abs := fTBE_STEP_CTRL_MODE.of v.toNat == 1
      let back := fTBE_STEP_CTRL_SIGN.of v.toNat == 1
      let val : Int := if !abs && back then -(stepRegs s1 : Int) else stepRegs s1
      if swStepRefused s1 abs then refuseStep s1 else acceptStep s1 0 abs val)

/-- The signed step in 2⁻¹⁶ ns that the pending request makes of T96 at S (R61). -/
def stepSize (s : State) : Int :=
  if s.tb.stepAbs then s.tb.stepVal - (t96 s : Int) else s.tb.stepVal

/-- Every replica's scale generation follows the step (R62). -/
def showScale (s : State) : State :=
  [0, 1, 2, 3].foldl (fun s d => put s (pLTR d) fLTR_STAT_SCALE (scaleGen s)) s

/-- TIME_SET and TIME_UNSET at an ABSOLUTE step (R61). -/
def markTimeSet (s : State) : State := doubt (putB s pTBE fTBE_STAT_TIME_SET true) pTBE 0 false

/-- TBE_STEP stands for 2 s after a step of more than 1 µs, the first ABSOLUTE one excepted (R64). -/
def stepDoubt (s : State) (d : Int) (first : Bool) : State :=
  if first || d.natAbs ≤ 65536000 then s
  else doubt { s with tb := { s.tb with stepUntil := mono s + 2000000000 } } pTBE 1 true

/-- A step judged against the leap schedule and the smear window on the new scale (R58, R64). -/
def stepLeaps (s : State) (old : Nat) : State :=
  let new := t96 s
  let cross := leapValid s && decide (old < leapSec s * secU) && decide (leapSec s * secU ≤ new)
  let s1 := if cross then applyLeap s else s
  let inWin := decide (s1.tb.smearStart * secU ≤ new) &&
    decide (new < (s1.tb.smearStart + smearLen s1.tb.smearDir) * secU)
  refreshEra (refreshLeapDay (refreshSmear (if s1.tb.smearOn && !inWin then endSmear s1 else s1)))

/-- At S the timebase applies the pending step: the offset between T96 and P changes, TIME_SET, the
anchor, the scale generation, STEP_CNT, INT_RAW[1] and the TIMESCALE_STEP pair follow (R62). -/
def applyStep (s : State) : State :=
  let at' : PC64 := BitVec.ofNat 64 (rd64 s pTBE rTBE_STEP_AT_LO rTBE_STEP_AT_HI)
  let s0 := advPc s at'
  let d := stepSize s0
  let old := t96 s0
  let first := s0.tb.stepAbs && !timeSet s0
  let s1 := { s0 with clk := { s0.clk with tOfs := s0.clk.tOfs + d }, tb := { s0.tb with lastStep := d } }
  let s2 := if s0.tb.stepAbs then markTimeSet s1 else s1
  let s3 := put (writeAnchor s2) pTBE fTBE_ANCHOR_GEN_SCALE (scaleGen s2 + 1)
  let s4 := putB (putB s3 pTBE fTBE_STEP_CTRL_PEND false) pTBE fTBE_STAT_STEP_PEND false
  let s5 := raise (bump (showScale s4) pTBE rTBE_STEP_CNT) pTBE 1
  let u := unsign 64 d
  let s6 := recordPair s5 pTBE 0x100 2 u (u / 0x100000000) at'.toNat (at'.toNat / 0x100000000)
  stepLeaps (stepDoubt s6 d first) old

/-- TBE_STEP_END (R64): TBE_STEP falls 2 s after the step that raised it. -/
def execTbeStepEnd (s : State) : Host.Outcome State Fault Refusal :=
  if doubts s pTBE 1 then .next (doubt (advMono s s.tb.stepUntil) pTBE 1 false) else .next s

/-- The TAI second boundary that comes next, or now when it stands on one that has no anchor yet. -/
def nextSecond (s : State) : Nat :=
  let k := t96Sec (t96 s)
  if t96 s = k * secU ∧ anchorT96 s ≠ t96 s then k * secU else (k + 1) * secU

/-- At a TAI second boundary the timebase writes the anchor, sets INT_RAW[0], and shows the era, the
leap day and the smear of now (R49, R52, R57, R58). -/
def tickSecond (s : State) : State :=
  let s1 := advT96 s (nextSecond s)
  refreshSmear (refreshLeapDay (refreshEra (raise (writeAnchor s1) pTBE 0)))

/-- One cycle of the 1.6 GHz clock: the master counter adds TBE.RATE, in 2⁻⁴⁸ ns, to P (R46). -/
def clockCycle (c : Clock) (rate : Nat) : Clock :=
  let sum := c.p.toNat * 0x100000000 + c.sub.toNat + rate
  { c with p := BitVec.ofNat 80 (sum / 0x100000000), sub := BitVec.ofNat 32 sum }

/-- The block with no command waiting: one cycle passes, unless a COLD reset is held, which holds P at 0 (log entry
5). -/
def idleCycle (s : State) : State :=
  if s.pwr.held.any fun h => h.1 == 0 then s
  else { s with clk := clockCycle s.clk (rd64 s pTBE rTBE_RATE_LO rTBE_RATE_HI) }

/-! ### Local time replicas (R66, R67, R20, R21) -/

/-- The die a time lane serves: lane 0 the Hub, 1 the Radio, 2–5 the Port dies. -/
def laneDie (lane : Nat) : Nat := if lane = 0 then 0 else if lane = 1 then 2 else lane + 2

/-- The replica on a lane. -/
def replica (s : State) (lane : Nat) : Replica := ix s.tb.replicas lane Replica.cold

/-- Change the replica on a lane. -/
def updReplica (s : State) (lane : Nat) (f : Replica → Replica) : State :=
  { s with tb := { s.tb with replicas := upd s.tb.replicas lane f } }

/-- RESYNC of a replica, in ps; 0 is treated as 1 ns. -/
def resyncPs (s : State) (lane : Nat) : Nat :=
  1000 * orD (if lane < 2 then get s pTBE fTBE_RPL_CFG_RESYNC
    else get s (pLTR (lane - 2)) fLTR_CFG_RESYNC) 1

/-- ALIGN_LIMIT of a replica, in ps. -/
def alignPs (s : State) (lane : Nat) : Nat :=
  10 * (if lane < 2 then get s pTBE fTBE_RPL_CFG_ALIGN_LIMIT
    else get s (pLTR (lane - 2)) fLTR_CFG_ALIGN_LIMIT)

/-- The asymmetry trim of a lane in ps: LTR.ASYM, or the OTP trim of the Hub's or the Radio's lane (R68). -/
def laneTrim (s : State) (lane : Nat) : Int :=
  if lane < 2 then signed 16 (Config.otp (30 + lane) % 0x10000)
  else getS s (pLTR (lane - 2)) fLTR_ASYM_PS

/-- The doubts of the replicas: LTR_UNLOCK and LTR_ALIGN on a Port die's LTR page, RPL_UNLOCK and
RPL_ALIGN on the TBE page for the Hub's and the Radio's together (R67). -/
def replicaDoubts (s : State) (lane : Nat) : State :=
  let r := replica s lane
  if lane < 2 then
    let a := replica s 0
    let b := replica s 1
    doubt (doubt s pTBE 3 (!a.locked || !b.locked)) pTBE 4 (a.align || b.align)
  else doubt (doubt s (pLTR (lane - 2)) 0 (!r.locked)) (pLTR (lane - 2)) 1 r.align

/-- What the lane and LTR registers show of a replica (Tables 03-5, 03-7). -/
def showReplica (s : State) (lane : Nat) : State :=
  let r := replica s lane
  let s1 := putB (putB s pTBE (fTBE_LANE_LOCKED lane) r.locked) pTBE (fTBE_LANE_ALIGN lane) r.align
  if lane < 2 then s1
  else putB (putB s1 (pLTR (lane - 2)) fLTR_STAT_LOCKED r.locked) (pLTR (lane - 2)) fLTR_STAT_ACQ (!r.locked)

/-- The measured error and delay are shown; a LOCKED Port replica keeps the largest |θ| (Table 03-7). -/
def showExchange (s : State) (lane : Nat) (theta d : Int) : State :=
  let s1 := putS s pTBE (fTBE_LANE_ERR lane) theta
  let s2 := put s1 pTBE (fTBE_LANE_DLY lane) (satU 12 (d / 10).toNat)
  if lane < 2 then s2
  else
    let p := pLTR (lane - 2)
    let s3 := put (putS s2 p fLTR_ERR_PS theta) p fLTR_LANE_DLY_PS (satU 16 d.toNat)
    let s4 := if (replica s lane).locked then maxF s3 p fLTR_ERR_MAX_PS theta.natAbs else s3
    drawn (wrN s4 p rLTR_RATE_TRIM (freeVal s4 1))

/-- The ALIGN condition: raised by four consecutive exchanges beyond ALIGN_LIMIT, held until four
consecutive ones lie within it (R67). -/
def Replica.judgeAlign (r : Replica) (beyond : Bool) : Replica :=
  if beyond then { r with far := r.far + 1, near := 0, align := r.align || decide (4 ≤ r.far + 1) }
  else { r with near := r.near + 1, far := 0, align := r.align && decide (r.near + 1 < 4) }

/-- A replica leaves LOCKED and acquires again: INT_RAW[1] and [2] of a Port die's LTR page, and
RESYNC_CNT (R66). -/
def resync (s : State) (lane : Nat) : State :=
  let s1 := updReplica s lane fun r => { r with locked := false, good := 0, ofs := 0 }
  if lane < 2 then s1
  else
    let p := pLTR (lane - 2)
    raise (raise (bump s1 p rLTR_RESYNC_CNT) p 1) p 2

/-- A replica that acquires sets its phase from the master, and becomes LOCKED after 16 consecutive
exchanges with |θ| < 100 ps (R66). -/
def acquire (s : State) (lane : Nat) (theta : Int) : State :=
  let g := if theta.natAbs < 100 then (replica s lane).good + 1 else 0
  let s1 := updReplica s lane fun r => { r with good := g, locked := decide (16 ≤ g), ofs := 0 }
  raiseIf s1 (decide (16 ≤ g) && decide (2 ≤ lane)) (pLTR (lane - 2)) 0

/-- A LOCKED replica corrects only its rate: its phase error is what the exchange measured (R66). -/
def steer (s : State) (lane : Nat) (theta : Int) : State :=
  updReplica s lane fun r => { r with ofs := divRound (theta * 65536) 1000 }

/-- One complete exchange with error θ and delay d in ps (R66, R67); it ends a TLANE_FAULT (R21). -/
def exchange (s : State) (lane : Nat) (theta d : Int) : State :=
  let s1 := showExchange s lane theta d
  let s2 := updReplica s1 lane fun r =>
    { r.judgeAlign (decide (alignPs s lane < theta.natAbs)) with miss := 0 }
  let s3 := if (replica s lane).locked then
      (if resyncPs s lane < theta.natAbs then resync s2 lane else steer s2 lane theta)
    else acquire s2 lane theta
  doubt (replicaDoubts (showReplica s3 lane) lane) (pISL (laneDie lane)) 3 false

/-- An exchange that did not come is counted (R21, Table 03-7). -/
def missExchange (s : State) (lane : Nat) : State :=
  let s1 := updReplica s lane fun r => { r with miss := r.miss + 1 }
  if lane < 2 then s1 else bump s1 (pLTR (lane - 2)) rLTR_MISS_CNT

/-- TLANE_FAULT (R21): a replica that has missed two consecutive exchanges raises TLANE_FAULT on its
die's ISL page and goes on at its last steered rate. -/
def execTlaneFault (lane : Fin 6) (s : State) : Host.Outcome State Fault Refusal :=
  if 2 ≤ (replica s lane).miss then .next (doubt s (pISL (laneDie lane)) 3 true) else .next s

end Sys2Proof.Machine
end

