-- ==== Sys2Proof/Machine/Mck.lean ====
section
/-! DEFINITION. Outputs, TOD messages and capture (spec/13): the grid of a periodic output, its gate, its
start, its edges and its re-alignment after a step, the TOUT readback, and the capture FIFOs. -/

namespace Sys2Proof.Machine

/-! ### Channels -/

/-- A channel with nothing running. -/
def OutRun.off : OutRun := ⟨false, 0, 0, false, false, false, 0, 0⟩

/-- A channel: 0–3 the synthesizers, 4–11 TOUT0–7, 12–13 CLKOUT0–1. -/
def outRun (s : State) (ch : Nat) : OutRun := ix s.mck.outs ch OutRun.off

/-- Change a channel. -/
def updOut (s : State) (ch : Nat) (f : OutRun → OutRun) : State :=
  { s with mck := { s.mck with outs := upd s.mck.outs ch f } }

/-- TOUTn_CFG.MODE; 5–7 are treated as 0. -/
def toutMode (s : State) (n : Nat) : Nat :=
  let m := get s pMCK (fMCK_TOUT_CFG_MODE n)
  if 4 < m then 0 else m

/-- CLKOUT_CFG.SRCk; 6 and 7 are treated as 0. -/
def clkSrc (s : State) (k : Nat) : Nat :=
  let v := get s pMCK (if k = 0 then fMCK_CLKOUT_CFG_SRC0 else fMCK_CLKOUT_CFG_SRC1)
  if 5 < v then 0 else v

/-- The synthesizer a channel is, or follows: none for a channel on a grid of its own or on none. -/
def followed (s : State) (ch : Nat) : Option Nat :=
  if ch < 4 then none
  else if ch < 12 then
    if toutMode s (ch - 4) = 3 then some (get s pMCK (fMCK_TOUT_CFG_MCS_IDX (ch - 4))) else none
  else
    let v := clkSrc s (ch - 12)
    if 1 ≤ v ∧ v ≤ 4 then some (v - 1) else none

/-- NUM of a channel's grid (R276). -/
def gridNum (s : State) (ch : Nat) : Nat :=
  if ch < 4 then rdN s pMCK (rMCK_MCS_NUM ch) + get s pMCK (fMCK_MCS_CFG_NUM_HI ch) * 0x100000000
  else get s pMCK (fMCK_TOUT_RATE_NUM (ch - 4))

/-- DEN of a channel's grid. -/
def gridDen (s : State) (ch : Nat) : Nat :=
  if ch < 4 then get s pMCK (fMCK_MCS_CFG_DEN ch) else get s pMCK (fMCK_TOUT_RATE_DEN (ch - 4))

/-- PHASE of a channel's grid in ps. -/
def gridPhase (s : State) (ch : Nat) : Int :=
  signed 32 (rdN s pMCK (if ch < 4 then rMCK_MCS_PHASE ch else rMCK_TOUT_PHASE (ch - 4)))

/-- The T96, in 2⁻¹⁶ ns, of grid edge `k`: k × DEN/NUM s + PHASE (R276), at the unit at or below it. -/
def gridEdge (s : State) (ch : Nat) (k : Int) : Int :=
  let num : Int := gridNum s ch
  (k * (gridDen s ch : Int) * (secU : Int) * 125 + gridPhase s ch * 8192 * num) / (num * 125)

/-- The number of the first grid edge at or after a T96 instant. -/
def gridIndex (s : State) (ch : Nat) (t : Int) : Int :=
  let den : Int := (gridDen s ch : Int) * (secU : Int) * 125
  let a := (t * 125 - gridPhase s ch * 8192) * (gridNum s ch : Int)
  (a + den - 1) / den

/-- The first grid edge at or after a T96 instant. -/
def gridAfter (s : State) (ch : Nat) (t : Int) : Int := gridEdge s ch (gridIndex s ch t)

/-- The period of a grid in 2⁻¹⁶ ns. -/
def gridPeriod (s : State) (ch : Nat) : Nat := gridDen s ch * secU / max 1 (gridNum s ch)

/-- R277 refuses a synthesizer's rate. -/
def mcsRefused (s : State) (m : Nat) : Bool :=
  let num := gridNum s m
  let den := gridDen s m
  num == 0 || den == 0 || decide (num < 8000 * den) || decide (100000000 * den < num) ||
    (den != 1 && !feat s 5)

/-- R277 refuses a TOUT's rate. -/
def toutRefused (s : State) (n : Nat) : Bool :=
  let num := gridNum s (n + 4)
  let den := gridDen s (n + 4)
  let m := get s pMCK (fMCK_TOUT_CFG_MCS_IDX n)
  if toutMode s n = 2 then
    num == 0 || den == 0 || decide (1000000 * den < num) || (den != 1 && !feat s 5)
  else toutMode s n == 3 && decide (25000000 * gridDen s m < gridNum s m)

/-- A channel whose rate is refused now. -/
def outRefused (s : State) (ch : Nat) : Bool :=
  if ch < 4 then flag s pMCK (fMCK_MCS_CFG_EN ch) && mcsRefused s ch
  else ch < 12 && toutRefused s (ch - 4)

/-- The gate a code selects is open (R280); 3 is treated as 0. -/
def gateOpen (s : State) (g : Nat) : Bool :=
  if g = 2 then true
  else if g = 1 then timeSet s && get s pDSC fDSC_STAT_STATE != 0 && !bitOf (doubtRaw s pDSC) 2
  else timeSet s

/-- The GATE code of a channel. -/
def outGate (s : State) (ch : Nat) : Nat :=
  if ch < 4 then get s pMCK (fMCK_MCS_CFG_GATE ch)
  else if ch < 12 then get s pMCK (fMCK_TOUT_CFG_GATE (ch - 4))
  else get s pMCK (if ch = 12 then fMCK_CLKOUT_CFG_GATE0 else fMCK_CLKOUT_CFG_GATE1)

/-- Safe state is signalled to MCK (R293). -/
def mckSafe (s : State) : Bool := flag s pMCK fMCK_STAT_SAFE

/-- Safe state holds a channel at its SAFE level: every TOUT and CLKOUT but those set to CONTINUE. -/
def safeHolds (s : State) (ch : Nat) : Bool :=
  mckSafe s && decide (4 ≤ ch) &&
    (if ch < 12 then get s pMCK (fMCK_TOUT_CFG_SAFE (ch - 4)) != 2
     else get s pMCK (if ch = 12 then fMCK_CLKOUT_CFG_SAFE0 else fMCK_CLKOUT_CFG_SAFE1) == 0)

/-- The configuration asks for a periodic signal on a channel. -/
def outAsked (s : State) (ch : Nat) : Bool :=
  if ch < 4 then flag s pMCK (fMCK_MCS_CFG_EN ch)
  else if ch < 12 then toutMode s (ch - 4) == 2 || toutMode s (ch - 4) == 3
  else clkSrc s (ch - 12) != 0

/-- A channel is to run: asked for, on an enabled page, not refused, its gate open, and not held by safe
state (R275–R280, R293). -/
def outArmed (s : State) (ch : Nat) : Bool :=
  pageEn s pMCK && outAsked s ch && !outRefused s ch && gateOpen s (outGate s ch) && !safeHolds s ch

/-- The T96 − P of the scale the outputs follow: the old scale until Q (R281). -/
def outOfs (s : State) : Int := if s.mck.realign.isSome then s.mck.oldOfs else s.clk.tOfs

/-- The start boundary of a start asked for now: the first TAI second boundary at least 10 µs ahead
(R279). -/
def startBoundary (s : State) : Nat :=
  (((s.clk.p.toNat : Int) + outOfs s).toNat + 655360000 + (secU - 1)) / secU * secU

/-- A channel starts, or starts again, under R279: it waits for its start boundary. -/
def startOut (s : State) (ch : Nat) : State :=
  updOut s ch fun o => { o with want := true, start := startBoundary s, ofs := outOfs s, live := false }

/-- A channel stops; a pulse or half-cycle in progress ends at its own instant (R280). -/
def stopOut (s : State) (ch : Nat) : State :=
  let s1 := updOut s ch fun o => { o with want := false, live := false, ran := false }
  if ch < 4 then put s1 pMCK fMCK_STAT_MCS_RUN (setBit (get s1 pMCK fMCK_STAT_MCS_RUN) ch false) else s1

/-- Bring one channel to what its configuration, gate and the safe state ask for. -/
def refreshOut (s : State) (ch : Nat) : State :=
  if outArmed s ch then (if (outRun s ch).want then s else startOut s ch)
  else if (outRun s ch).want then stopOut s ch else s

/-- The gates are shown and every channel follows its own (R280). -/
def refreshGates (s : State) : State :=
  let s1 := putB (putB s pMCK fMCK_STAT_TIME_OK (gateOpen s 0)) pMCK fMCK_STAT_QUAL_OK (gateOpen s 1)
  (List.range 14).foldl refreshOut s1

/-- The refusals of R277 are judged again: bits follow their causes, and a new one sets INT_RAW[6]. -/
def refreshRefusals (s : State) : State :=
  let m := (List.range 4).foldl (fun v i => setBit v i (outRefused s i)) 0
  let t := (List.range 8).foldl (fun v i => setBit v i (outRefused s (i + 4))) 0
  let was := get s pMCK fMCK_STAT_MCS_REFUSED + get s pMCK fMCK_STAT_TOUT_REFUSED * 16
  let s1 := put (put s pMCK fMCK_STAT_MCS_REFUSED m) pMCK fMCK_STAT_TOUT_REFUSED t
  raiseIf s1 ((m + t * 16) &&& (0xFFF ^^^ was) != 0) pMCK 6

/-- A write of a channel's CFG, RATE or PHASE register: refusals, then a start under R279. -/
def outWritten (s : State) (ch : Nat) : State :=
  let s1 := refreshRefusals s
  refreshGates (if (outRun s1 ch).want && outArmed s1 ch then startOut s1 ch else s1)

/-! ### Starts, edges and re-alignment -/

/-- OUTPUT_START (R279): a channel reaches its start boundary. -/
def execOutputStart (ch : Fin 14) (s : State) : Host.Outcome State Fault Refusal :=
  let s1 := refreshGates s
  let o := outRun s1 ch
  if o.want && !o.live then
    .next (updOut (advP s1 ((o.start : Int) - o.ofs).toNat) ch fun o => { o with live := true })
  else .next s1

/-- The width in 2⁻¹⁶ ns that a WIDTH in ns is applied as: at least 2 ns high and 2 ns low (R278). -/
def appliedWidth (ns period : Nat) : Nat :=
  let w := max 131072 (ns * 65536)
  if period < w + 131072 then period - 131072 else w

/-- How long a channel's signal stays high: WIDTH for a pulse, half the period for a synthesizer. -/
def highFor (s : State) (ch : Nat) : Nat :=
  if ch < 4 then gridPeriod s ch / 2
  else appliedWidth (rdN s pMCK (rMCK_TOUT_WIDTH (ch - 4))) (gridPeriod s ch)

/-- The P of the next rising edge of a channel that runs: the first grid edge at or after its start
boundary and after its last edge. -/
def nextRise (s : State) (ch : Nat) : Int :=
  let o := outRun s ch
  let from' := max (o.start : Int) (if o.ran then (o.rise : Int) + o.ofs + 1 else 0)
  gridAfter s ch from' - o.ofs

/-- A rising edge is placed. -/
def riseOut (s : State) (ch : Nat) : State :=
  let p := (nextRise s ch).toNat
  let s1 := updOut (advP s p) ch fun o =>
    { o with ran := true, high := true, rise := p, fall := p + highFor s ch }
  if ch < 4 then put s1 pMCK fMCK_STAT_MCS_RUN (setBit (get s1 pMCK fMCK_STAT_MCS_RUN) ch true) else s1

/-- A falling edge is placed. -/
def fallOut (s : State) (ch : Nat) : State :=
  updOut (advP s (outRun s ch).fall) ch fun o => { o with high := false }

/-- A channel that is on a grid of its own: a synthesizer, or a TOUT in PULSE mode. -/
def ownGrid (s : State) (ch : Nat) : Bool :=
  ch < 4 || (ch < 12 && toutMode s (ch - 4) == 2)

/-- OUTPUT_EDGE (R276): a channel places its next edge. A pulse or half-cycle that has begun ends, even
where the channel has stopped since (R280); otherwise the next grid edge rises. -/
def execOutputEdge (ch : Fin 14) (s : State) : Host.Outcome State Fault Refusal :=
  let o := outRun s ch
  if o.high then .next (fallOut s ch)
  else if o.want && o.live && ownGrid s ch then .next (riseOut s ch)
  else .next s

/-- The level of a synthesizer's square wave. -/
def mcsHigh (s : State) (m : Nat) : Bool := (outRun s m).high

/-- The level of a TOUT in CUE mode: as its last entry left it, low once its pulse has ended (R286). -/
def cueLevel (s : State) (n : Nat) : Bool :=
  ix s.mck.cueLvl n false &&
    match ix s.mck.cueFall n none with
    | some t => decide (0 < pcDiff t (pcNow s))
    | none => true

/-- The level of a TOUT ball, after POL (R275, R293). -/
def toutLevel (s : State) (n : Nat) : Bool :=
  let pol := flag s pMCK (fMCK_TOUT_CFG_POL n)
  if safeHolds s (n + 4) then get s pMCK (fMCK_TOUT_CFG_SAFE n) == 1
  else if !pageEn s pMCK then pol
  else match toutMode s n with
    | 1 => flag s pMCK (fMCK_TOUT_CFG_LEVEL n)
    | 2 => (outRun s (n + 4)).high != pol
    | 3 =>
      let o := outRun s (n + 4)
      (o.want && o.live && mcsHigh s (get s pMCK (fMCK_TOUT_CFG_MCS_IDX n))) != pol
    | 4 => cueLevel s n
    | _ => pol

/-- MCK sees a step (R281): its outputs keep the grid of the old scale until Q, the first TAI second
boundary of the new scale after S. -/
def mckStep (s : State) (old : Int) : State :=
  let q := ((t96 s / secU + 1) * secU : Nat)
  { s with mck := { s.mck with
    oldOfs := if s.mck.realign.isSome then s.mck.oldOfs else old
    realign := some ((q : Int) - s.clk.tOfs).toNat } }

/-- One channel at Q: it follows the grid of the new scale, and the first new edge is omitted where it
lies less than half a period after the last old one (R281). -/
def realignOut (s : State) (ch : Nat) : State :=
  let o := outRun s ch
  let new := s.clk.tOfs
  if !o.want then s
  else if !o.live then
    let t := ((o.start : Int) - o.ofs + new).toNat
    updOut s ch fun o => { o with start := (t + (secU - 1)) / secU * secU, ofs := new }
  else
    let q := t96 s
    let s1 := updOut s ch fun o => { o with start := q, ofs := new }
    if o.ran && ownGrid s ch then
      let first := gridAfter s ch q
      if first - new - (o.rise : Int) < (gridPeriod s ch : Int) / 2 then
        bump (updOut s1 ch fun o => { o with start := (first + 1).toNat }) pMCK rMCK_SKIP_CNT
      else s1
    else s1

/-- OUTPUT_REALIGN (R281): at Q the outputs move to the grid of the new scale. -/
def execOutputRealign (s : State) : Host.Outcome State Fault Refusal :=
  match s.mck.realign with
  | none => .next s
  | some q =>
    let s1 := advP s q
    let s2 := (List.range 14).foldl realignOut s1
    .next { s2 with mck := { s2.mck with realign := none } }

/-! ### TOD messages (R284) -/

/-- The baud rate a code selects. -/
def todBaud (code : Nat) : Nat :=
  ix [9600, 19200, 38400, 57600, 115200, 230400, 460800, 921600] code 115200

/-- The offset in ms that is used: the largest that lets the message end before 1,000 ms. -/
def todOffset (ofs baud : Nat) : Nat :=
  if 1000 * baud ≤ ofs * baud + 320000 then (1000 * baud - 320000 - 1) / baud else ofs

/-- TOD_CFG.EN of a transmitter. -/
def todEn (s : State) (k : Nat) : Bool :=
  flag s pMCK (if k = 0 then fMCK_TOD_CFG_EN0 else fMCK_TOD_CFG_EN1)

/-- SAFE_STOP stops a transmitter in safe state (R293). -/
def todStopped (s : State) (k : Nat) : Bool :=
  mckSafe s && flag s pMCK (if k = 0 then fMCK_TOD_CFG_SAFE_STOP0 else fMCK_TOD_CFG_SAFE_STOP1)

/-- The P of the next start bit of a transmitter: OFFSET ms after a TAI second boundary, past its last
start (R284). -/
def todNext (s : State) (k : Nat) : Nat :=
  let baud := todBaud (get s pMCK (if k = 0 then fMCK_TOD_CFG_BAUD0 else fMCK_TOD_CFG_BAUD1))
  let ofs := todOffset (get s pMCK (if k = 0 then fMCK_TOD_CFG_OFFSET0 else fMCK_TOD_CFG_OFFSET1)) baud
  let past := ((max s.clk.p.toNat (ix s.mck.todAt k 0 + 1) : Nat) : Int) + outOfs s
  let d : Int := (ofs * 1000000 * 65536 : Nat)
  (((past - d + (secU - 1)) / secU) * secU + d - outOfs s).toNat

/-- The bytes 0–29 of a TOD message (Table 13-1). -/
def todBody (s : State) (k : Nat) : List Byte :=
  let hi := rdN s pTBE rTBE_LEAP_SCHED_HI
  let flags := ofBool (utcValid s) + ofBool (flag s pTBE fTBE_STAT_LEAP_DAY) * 2 +
    fTBE_LEAP_SCHED_HI_DIR.of hi * 4 + ofBool (timeSet s) * 8 + ofBool (mckSafe s) * 16
  let unc := rdN s pDSC rDSC_UNC
  let free := get s pDSC fDSC_STAT_STATE == 0
  bytesBE 2 0x474C ++ bytesBE 2 0x0120 ++ bytesBE 6 (t96Sec (t96 s)) ++
    bytesBE 2 (get s pTBE fTBE_UTC_OFFSET_SEC) ++ bytesBE 1 flags ++
    bytesBE 1 (get s pDSC fDSC_STAT_STATE + get s pDSC fDSC_STAT_PRIMARY * 16) ++
    bytesBE 1 (scaleGen s) ++
    bytesBE 1 (clockAccuracy (if free then none else knownOf unc)) ++ bytesBE 4 unc ++
    bytesBE 4 (if leapValid s then rdN s pTBE rTBE_LEAP_SCHED else 0) ++
    bytesBE 2 (ix s.mck.todSeq k 0) ++ bytesBE 4 0

/-- A TOD message with its CRC. -/
def todMessage (s : State) (k : Nat) : List Byte :=
  let b := todBody s k
  b ++ bytesBE 2 (crc16 b)

/-- TOD_MESSAGE (R284): a transmitter starts its message. -/
def execTodMessage (k : Fin 2) (s : State) : Host.Outcome State Fault Refusal :=
  if pageEn s pMCK && todEn s k && !todStopped s k then
    let s1 := advP s (todNext s k)
    let s2 := { s1 with mck := { s1.mck with
      todMsg := s1.mck.todMsg.set k (todMessage s1 k)
      todAt := s1.mck.todAt.set k s1.clk.p.toNat
      todSeq := s1.mck.todSeq.set k ((ix s1.mck.todSeq k 0 + 1) % 65536) } }
    .next (bump s2 pMCK rMCK_TOD_CNT)
  else .next s

/-! ### TOUT readback (R292) -/

/-- TOUT_FAULT (R292): a TOUT ball has differed from its driven level for 1 µs. -/
def execToutFault (n : Fin 8) (s : State) : Host.Outcome State Fault Refusal :=
  let s1 := put s pMCK fMCK_STAT_TOUT_FAULT (setBit (get s pMCK fMCK_STAT_TOUT_FAULT) n true)
  .next (doubt (raise s1 pMCK 8) pMCK 0 true)

/-- TOUT_FAULT_CLEAR (R292): a ball has agreed for 1 ms, so its bit clears; the doubt stands while any
bit is set. -/
def execToutFaultClear (n : Fin 8) (s : State) : Host.Outcome State Fault Refusal :=
  let v := setBit (get s pMCK fMCK_STAT_TOUT_FAULT) n false
  let s1 := put s pMCK fMCK_STAT_TOUT_FAULT v
  .next (doubt s1 pMCK 0 (v != 0))

/-! ### Capture (R290, R291) -/

/-- A capture input. -/
def capIn (s : State) (n : Nat) : CapIn := ix s.mck.caps n CapIn.empty

/-- CAP_LVL shows how many entries a FIFO holds. -/
def showCapLvl (s : State) (n : Nat) : State :=
  let off := if n < 4 then rMCK_CAP_LVL0 else rMCK_CAP_LVL1
  put s pMCK ⟨off, 8 * (n % 4), 7⟩ (capIn s n).fifo.length

/-- Change a capture input. -/
def updCap (s : State) (n : Nat) (f : CapIn → CapIn) : State :=
  showCapLvl { s with mck := { s.mck with caps := upd s.mck.caps n f } } n

/-- CAP_CFG.EDGE of an input selects an edge. -/
def capSelects (s : State) (n : Nat) (falling : Bool) : Bool :=
  bitOf (get s pMCK fMCK_CAP_CFG_EDGE) (2 * n + ofBool falling)

/-- CAP_CFG.THRESH; 0 is treated as 1. -/
def capThresh (s : State) : Nat := orD (get s pMCK fMCK_CAP_CFG_THRESH) 1

/-- Store a stamp, or drop it where the FIFO is full (R291). -/
def capPush (s : State) (n : Nat) (e : CapStamp) : State :=
  let c := capIn s n
  if c.fifo.length < 64 then
    let s1 := updCap s n fun c =>
      { fifo := c.fifo ++ [{ e with lost := c.lost }], last := some e.pc, lost := false }
    raiseIf s1 (c.fifo.length + 1 == capThresh s) pMCK 4
  else
    let s1 := updCap s n fun c => { c with last := some e.pc, lost := true }
    raise (bump s1 pMCK rMCK_CAP_OVF_CNT) pMCK 5

/-- CAP_EDGE (R290): an edge at a capture input is stamped with an LSB of 2⁻¹⁰ ns, unless it follows the
previous stamped edge of the input within 20 ns. -/
def execCapEdge (n : Fin 8) (at' : PC64) (falling : Bool) (s : State) :
    Host.Outcome State Fault Refusal :=
  let s1 := advPc s at'
  if !(pageEn s1 pMCK && capSelects s1 n falling) then .next s1
  else
    let pc : PC64 := BitVec.ofNat 64 (at'.toNat / 64 * 64)
    let near := match (capIn s1 n).last with
      | none => false
      | some l => decide (pcDiff pc l < 20 * 65536)
    if near then .next (bump s1 pMCK rMCK_CAP_MISS_CNT)
    else .next (capPush s1 n ⟨falling, false, timeSet s1, scaleGen s1, pc, t96OfPc s1 pc⟩)

/-- A stamp as CAP_E0 to CAP_E5 show it. -/
def capWords (n : Nat) (e : CapStamp) : List Nat :=
  [1 + ofBool e.falling * 2 + ofBool e.lost * 4 + ofBool e.tset * 8 + e.scale * 16 + n * 256,
   e.pc.toNat % 0x100000000, e.pc.toNat / 0x100000000, t96Sec e.t96 % 0x100000000,
   t96Sec e.t96 / 0x100000000 % 0x10000 + t96Frac e.t96 * 0x10000, t96Ns e.t96]

/-- Latch words into a requester's copies of consecutive registers. -/
def latch (s : State) (q : Nat) (p : Pg) (off : Nat) : List Nat → State
  | [] => s
  | w :: t => latch (wrB s q p off w) q p (off + 4) t

/-- CAP_READ (R291): a read of CAP_E0 removes the oldest stamp of the requester's selected FIFO and
latches it; an empty FIFO returns VALID = 0. -/
def execCapRead (r : Requester) (s : State) : Host.Outcome State Fault Refusal :=
  .next (onRead s r pMCK fun s =>
    let q := reqCode r
    let n := getQ s q pMCK fMCK_CAP_SEL_N
    match (capIn s n).fifo with
    | [] => reply (wrB s q pMCK (rMCK_CAP_E 0) 0) 0
    | e :: rest =>
      let s1 := updCap s n fun c => { c with fifo := rest }
      let w := capWords n e
      reply (latch s1 q pMCK (rMCK_CAP_E 0) w) (ix w 0 0))

end Sys2Proof.Machine
end

