-- ==== Sys2Proof/Machine/Discipline.lean ====
section
/-! DEFINITION. The discipline engine (spec/04): reference slots and their samples, the servo update, the
hand-over between primaries, steering, uncertainty, and the holdover model. -/

namespace Sys2Proof.Machine

/-! ### Slots -/

/-- A reference slot. -/
def slot (s : State) (k : Nat) : Slot := ix s.dsc.slots k Slot.cold

/-- Change a slot. -/
def updSlot (s : State) (k : Nat) (f : Slot → Slot) : State :=
  { s with dsc := { s.dsc with slots := upd s.dsc.slots k f } }

/-- Change the servo. -/
def updServo (s : State) (f : Servo → Servo) : State := { s with dsc := f s.dsc }

/-- SLOTk_CFG.EN. -/
def slotEn (s : State) (k : Nat) : Bool := flag s pREF (fREF_SLOT_CFG_EN k)

/-- SLOTk_STAT.STATE: 0 OFF, 1 LOST, 2 QUALIFY, 3 ACTIVE, 4 QUARANTINE, 5 SUSPECT, 6 HELD (Table 04-2). -/
def slotState (s : State) (k : Nat) : Nat := get s pREF (fREF_SLOT_STAT_STATE k)

/-- A slot is EXT0 or EXT1. -/
def isExt (k : Nat) : Bool := k == 1 || k == 2

/-- A slot is PTPA or PTPB. -/
def isPtp (k : Nat) : Bool := k == 3 || k == 4

/-- The loss time of a slot in ns (Table 04-1). -/
def lossNs (k : Nat) : Nat :=
  if k = 5 then 10000000 else if isPtp k then 4000000000 else 2000000000

/-- The loss condition of Table 04-1: no valid sample in the loss time, or the upstream master lost. -/
def slotLost (s : State) (k : Nat) : Bool :=
  let x := slot s k
  x.gone || decide (x.alive.getD x.since + lossNs k ≤ mono s)

/-- A slot takes a state; a change sets its INT_RAW bit, and REF_LOST stands while an enabled slot is
LOST (R76). -/
def setSlot (s : State) (k st : Nat) : State :=
  let s1 := if slotState s k = st then s else raise (put s pREF (fREF_SLOT_STAT_STATE k) st) pREF k
  doubt s1 pREF k (st == 1 && slotEn s k)

/-- A slot enters LOST: no last valid edge, no qualification and no quarantine in progress (R70, R75,
R97). -/
def loseSlot (s : State) (k : Nat) : State :=
  setSlot (updSlot s k fun x =>
    { x with edge := none, qualFrom := none, sampled := none, quarFrom := none, held := [] }) k 1

/-- The engine takes samples of a slot: both pages enabled, the slot enabled, and the synthesizer not on
the backup oscillator (R69, R83, R111). -/
def taking (s : State) (k : Nat) : Bool :=
  pageEn s pDSC && pageEn s pREF && slotEn s k && !flag s pOVN fOVN_STAT_BACKUP

/-- SLOTk_DELAY in 2⁻¹⁶ ns (R70). -/
def slotDelay (s : State) (k : Nat) : Int := signed 32 (rdN s pREF (rREF_SLOT_DELAY k)) * 8192 / 125

/-- A valid sample arrives: it counts for loss, starts or continues the gapless run of R75, and waits
for the next update (R72). -/
def slotSample (s : State) (k : Nat) (x : Int) (d : Option Int) : State :=
  let m := mono s
  updSlot s k fun v =>
    let run := match v.sampled with
      | none => some m
      | some t => if t + 2000000000 ≤ m then some m else v.qualFrom
    { v with alive := some m, sampled := some m, gone := false, fresh := v.fresh ++ [(x, d)]
             qualFrom := if run.isSome then run else some m }

/-- An offset reduced into [−0.5 s, +0.5 s) (R70). -/
def reduceSec (x : Int) : Int := (x + (secU : Int) / 2) % (secU : Int) - (secU : Int) / 2

/-- PTP_SAMPLE_RX (R23, R70, R72): a PTP sample reaches the engine; one that comes more than 10 ms after
its t4 is discarded and counted. -/
def execPtpSampleRx (k : Fin 2) (sample : PtpSample) (acc : Option Nat) (s : State) :
    Host.Outcome State Fault Refusal :=
  let n := 3 + k.val
  if !taking s n then .next s
  else
    let p := match sample with
      | .e2e t1 t2 t3 t4 =>
        let a := (t96OfPc s t2 : Int) - t1
        let b := t4 - (t96OfPc s t3 : Int)
        (t4, -((a - b) / 2), (a + b) / 2)
      | .p2p t1 t2 d => ((t96OfPc s t2 : Int), t1 + d - (t96OfPc s t2 : Int), d)
    if p.1 + 10000000 * 65536 < (t96 s : Int) then
      .next (bumpF s pREF (if k = 0 then fREF_LATE_CNT_PTPA else fREF_LATE_CNT_PTPB))
    else
      .next (updSlot (slotSample s n (p.2.1 + slotDelay s n) (some p.2.2)) n fun v => { v with acc := acc })

/-- The edge REF.EXT_CFG.PPS_POL selects. -/
def extPol (s : State) (input : Nat) : Bool :=
  flag s pREF (if input = 0 then fREF_EXT_CFG_PPS_POL0 else fREF_EXT_CFG_PPS_POL1)

/-- EXT_PPS_EDGE (R70, R114): an edge stamped with an LSB of 2⁻¹⁰ ns is valid within 1 µs of one second
after the last valid edge; the first edge taken only becomes the last valid edge. -/
def execExtPpsEdge (input : Fin 2) (at' : PC64) (falling : Bool) (s : State) :
    Host.Outcome State Fault Refusal :=
  let k := input.val + 1
  let s1 := advPc s at'
  if !taking s1 k || extPol s1 input != falling then .next s1
  else
    let pc : PC64 := BitVec.ofNat 64 (at'.toNat / 64 * 64)
    match (slot s1 k).edge with
    | none => .next (updSlot s1 k fun v => { v with edge := some pc, alive := some (mono s1) })
    | some e =>
      if (pcDiff pc e - (secU : Int)).natAbs ≤ 65536000 then
        let x := reduceSec (slotDelay s1 k - (t96OfPc s1 pc : Int))
        .next (updSlot (slotSample s1 k x none) k fun v => { v with edge := some pc })
      else .next s1

/-- REF.EXT_CFG.FREQ_SEL; 5–7 are treated as 0. -/
def extFreqSel (s : State) (input : Nat) : Nat :=
  let v := get s pREF (if input = 0 then fREF_EXT_CFG_FREQ_SEL0 else fREF_EXT_CFG_FREQ_SEL1)
  if 4 < v then 0 else v

/-- EXT_FREQ_COUNT (R70, R114): a reciprocal count, as the reference's frequency relative to the output
in ppt, is valid within ±10 ppm of the selected rate and gives y_k. -/
def execExtFreqCount (input : Fin 2) (ppt : Int) (s : State) : Host.Outcome State Fault Refusal :=
  let k := input.val + 1
  if taking s k && extFreqSel s input != 0 && decide (ppt.natAbs ≤ 10000000) then
    .next (updSlot s k fun v => { v with count := some ppt })
  else .next s

/-- SLOT_LOST (R69): the loss time of an enabled slot runs out with no valid sample. -/
def execSlotLost (k : Fin 6) (s : State) : Host.Outcome State Fault Refusal :=
  if pageEn s pDSC && slotEn s k && slotState s k != 1 then
    let x := slot s k
    let s1 := if x.gone then s else advMono s (x.alive.getD x.since + lossNs k)
    .next (if slotLost s1 k then loseSlot s1 k else s1)
  else .next s

/-- A write of REF.SLOT_CMD: RELEASE of a HELD slot waits for the next update, with or without BIAS_CLR;
BIAS_CLR of a slot that is not HELD acts at the next update (R75, R96). -/
def slotCmd (s : State) (v : Nat) : State :=
  (List.range 6).foldl (fun s k =>
    let rel := bitOf (fREF_SLOT_CMD_RELEASE.of v) k
    let clr := bitOf (fREF_SLOT_CMD_BIAS_CLR.of v) k
    if slotState s k = 6 then
      (if rel then updSlot s k fun x => { x with rel := if clr then 2 else 1 } else s)
    else if clr then updSlot s k fun x => { x with bclr := true }
    else s) s

/-- SLOT_RELEASE (R75): a write of REF.SLOT_CMD with RELEASE bits. -/
def execSlotRelease (r : Requester) (v : Word) (s : State) : Host.Outcome State Fault Refusal :=
  .next (onWrite s r pREF fun s => slotCmd s v.toNat)

/-- BIAS_CLR (R96): a write of REF.SLOT_CMD with BIAS_CLR bits. -/
def execBiasClr (r : Requester) (v : Word) (s : State) : Host.Outcome State Fault Refusal :=
  .next (onWrite s r pREF fun s => slotCmd s v.toNat)

/-! ### Step 1: samples, the estimator and path changes (R72, R95) -/

/-- The corrected phase x_k − b_k of a slot. -/
def offK (s : State) (k : Nat) : Int := (slot s k).x - (slot s k).b

/-- The estimator's four values after an update. The spec gives no filter, so they are free values
(log entry 3); an EXT offset lies in [−0.5 s, +0.5 s), and a valid frequency count gives y_k. -/
def estimate (s : State) (k : Nat) : State :=
  let x := signed 64 (freeVal s 10 % 2 ^ 64)
  let y := signed 32 (freeVal s 11 % 2 ^ 32)
  let s1 := updSlot s k fun v =>
    { v with est := true, x := if isExt k then reduceSec x else x, y := v.count.getD y
             sx := freeVal s 12 % 2 ^ 32, sy := freeVal s 13 % 2 ^ 16, count := none }
  drawn s1

/-- The mean of a list of delays. -/
def meanOf (l : List Int) : Int := l.foldl (· + ·) 0 / (max 1 l.length : Nat)

/-- PATHCHG_THRESH.CONFIRM; 0 is treated as 1. -/
def confirmN (s : State) : Nat := orD (get s pDSC fDSC_PATHCHG_THRESH_CONFIRM) 1

/-- A PTP slot enters QUARANTINE: θ_before and σ_before are recorded, the baseline becomes the mean of
the held-back delays, PATHCHG_CNT and INT_RAW[2] (R95). -/
def enterQuarantine (s : State) (k : Nat) : State :=
  let v := slot s k
  let rebased := updSlot s k fun v => { v with base := [meanOf (v.held.map (·.2))], held := [], est := false }
  if v.quarFrom.isSome then rebased
  else
    let s1 := updSlot rebased k fun x =>
      { x with quarFrom := some (mono s, v.x - v.b, v.sx, s.dsc.unc), quarHold := false }
    raise (bump s1 pDSC rDSC_PATHCHG_CNT) pDSC 2

/-- Count held-back samples that are discarded (R95). -/
def countOutliers (s : State) (k n : Nat) : State :=
  let f := if k = 3 then fREF_OUTLIER_CNT_PTPA else fREF_OUTLIER_CNT_PTPB
  put s pREF f (min (get s pREF f + n) 0xFFFF)

/-- One PTP sample is accepted, or held back where its delay leaves the baseline (R95). The answer says
whether the estimator takes it. -/
def absorbPtp (s : State) (k : Nat) (x d : Int) : State × Bool :=
  let v := slot s k
  let far := decide (get s pDSC fDSC_PATHCHG_THRESH_NS * 65536 < (d - meanOf v.base).natAbs)
  if !v.base.isEmpty && far then
    let s1 := updSlot s k fun v => { v with held := v.held ++ [(x, d)] }
    if confirmN s ≤ v.held.length + 1 then (enterQuarantine s1 k, true) else (s1, false)
  else
    let s1 := if v.held.isEmpty then s else countOutliers s k v.held.length
    (updSlot s1 k fun v => { v with held := [], base := (d :: v.base).take 64 }, true)

/-- absorb_samples of one slot: every waiting sample is used, and a running estimator updates (R72). -/
def absorb (s : State) (k : Nat) : State :=
  if !slotEn s k then updSlot s k fun v => { v with fresh := [], est := false, count := none }
  else
    let r := (slot s k).fresh.foldl (fun (a : State × Bool) (e : Int × Option Int) =>
      match e.2 with
      | none => (a.1, true)
      | some d =>
        let b := absorbPtp a.1 k e.1 d
        (b.1, a.2 || b.2)) (s, false)
    let s1 := updSlot r.1 k fun v => { v with fresh := [] }
    if r.2 || (slot s1 k).est then estimate s1 k else s1

/-! ### Step 2: slot states (R74, R75, R93, R96) -/

/-- ACC_k in 2⁻¹⁶ ns with the bias uncertainty (R91). -/
def accK (s : State) (k : Nat) : Nat :=
  let own := get s pREF (fREF_SLOT_ACC_NS k)
  let a := if flag s pREF (fREF_SLOT_CFG_ACC_SRC k) then own else (slot s k).acc.getD own
  a * 65536 + (slot s k).ub

/-- The admission test of R93; an unknown UNC passes every test. -/
def admits (s : State) (k : Nat) : Bool :=
  match s.dsc.unc with
  | none => true
  | some u =>
    decide ((offK s k).natAbs ≤ u + accK s k + get s pDSC fDSC_READMIT_MARGIN_NS * 65536)

/-- A slot takes the admission test: ACTIVE, or under STRICT HELD with INT_RAW[4] (R93). -/
def takeIn (s : State) (k : Nat) : State :=
  if admits s k || flag s pDSC fDSC_CFG_READMIT then setSlot s k 3
  else setSlot (raise (updSlot s k fun v => { v with prop := v.b, rel := 0 }) pDSC 4) k 6

/-- QUAL of a slot in s; 0 is treated as 1. -/
def qualSec (s : State) (k : Nat) : Nat := orD (get s pREF (fREF_SLOT_CFG_QUAL k)) 1

/-- A slot has delivered samples without a gap for QUAL seconds, EXT slots know the time of day (R73),
and the oven lets slots in (R98, R103). -/
def qualified (s : State) (k : Nat) : Bool :=
  let v := slot s k
  let run := match v.qualFrom, v.sampled with
    | some q, some t => decide (q + qualSec s k * 1000000000 ≤ mono s) && decide (mono s < t + 2000000000)
    | _, _ => false
  run && (!isExt k || timeSet s) &&
    (flag s pOVN fOVN_STAT_SETTLED || flag s pOVN fOVN_STAT_ACTIVE_SRC)

/-- The outcome of a quarantine (R96): J, the bias uncertainty, INT_RAW[3], and ACCEPT_AFTER or HOLD. -/
def endQuarantine (s : State) (k : Nat) (before : Int) (sBefore : Nat) (unc0 : Option Nat) : State :=
  let v := slot s k
  let j := v.x - v.b - before
  let grow := if v.quarHold then (s.dsc.unc.getD 0) - (unc0.getD 0) else 0
  let ub := 2 * isqrt (sBefore * sBefore + v.sx * v.sx) + grow
  let s1 := raise (updSlot s k fun v => { v with quarFrom := none, ub := ub }) pDSC 3
  if flag s pDSC fDSC_QUARANTINE_POLICY then
    setSlot (updSlot s1 k fun v => { v with prop := v.b + j, rel := 0 }) k 6
  else takeIn (updSlot s1 k fun v => { v with b := v.b + j }) k

/-- A slot that awaits release takes it: the proposed bias, or none with BIAS_CLR (R75, R96). -/
def releaseSlot (s : State) (k : Nat) : State :=
  setSlot (updSlot s k fun v =>
    if v.rel = 2 then { v with b := 0, ub := 0, rel := 0 } else { v with b := v.prop, rel := 0 }) k 3

/-- A slot stands in QUALIFY, and takes the admission test once it is qualified (R75). -/
def qualify (s : State) (k : Nat) : State :=
  let m := mono s
  let back := slotState s k == 5
  let s1 := updSlot s k fun v =>
    let gap := match v.sampled with
      | none => true
      | some t => decide (t + 2000000000 ≤ m)
    { v with qualFrom := if gap then none else if back then some m else v.qualFrom }
  let s2 := setSlot s1 k 2
  if qualified s2 k then takeIn s2 k else s2

/-- A slot that is in QUARANTINE, and ends it after QUARANTINE.SEC (R96). -/
def quarantine (s : State) (k : Nat) (t : Nat) (before : Int) (sBefore : Nat) (unc0 : Option Nat) :
    State :=
  let s1 := updSlot s k fun v =>
    { v with quarHold := v.quarHold || get s pDSC fDSC_STAT_STATE == 3 }
  if t + orD (get s pDSC fDSC_QUARANTINE_SEC) 1 * 1000000000 ≤ mono s then
    endQuarantine s1 k before sBefore unc0
  else setSlot s1 k 4

/-- A BIAS_CLR that waits acts on a slot that is not HELD (R96). -/
def applyBiasClr (s : State) (k : Nat) : State :=
  let v := slot s k
  if v.bclr then
    updSlot s k fun v =>
      if slotState s k = 6 then { v with bclr := false } else { v with b := 0, ub := 0, bclr := false }
  else s

/-- update_slot_state of one slot, in the precedence of Table 04-2. -/
def updateSlot (s : State) (k : Nat) : State :=
  let s1 := applyBiasClr s k
  let v := slot s1 k
  if !slotEn s1 k then
    setSlot (updSlot s1 k fun v => { Slot.cold with b := v.b, ub := v.ub, prop := v.prop }) k 0
  else if slotLost s1 k then loseSlot s1 k
  else if v.voted || v.marked then
    setSlot (updSlot s1 k fun v => { v with quarFrom := none, held := [] }) k 5
  else match v.quarFrom with
    | some (t, before, sBefore, unc0) => quarantine s1 k t before sBefore unc0
    | none =>
      if slotState s1 k = 6 then (if v.rel != 0 then releaseSlot s1 k else s1)
      else if slotState s1 k = 3 then s1
      else qualify s1 k

/-! ### Step 3: the vote (R80, R81) -/

/-- Two slots disagree under R80. -/
def disagree (s : State) (a b : Nat) : Bool :=
  let d := (offK s a - offK s b).natAbs
  let lim := get s pDSC fDSC_AGREE_LIMIT_NS * 65536
  let sa := (slot s a).sx
  let sb := (slot s b).sx
  decide (lim < d) && decide (9 * (sa * sa + sb * sb) < (d - lim) * (d - lim))

/-- The slots that are ACTIVE. -/
def actives (s : State) : List Nat := (List.range 6).filter fun k => slotState s k == 3

/-- The order of R78: priority, then the smallest σ_x, then the index. -/
def ranksBefore (s : State) (a b : Nat) : Bool :=
  let pa := get s pREF (fREF_SLOT_CFG_PRIO a)
  let pb := get s pREF (fREF_SLOT_CFG_PRIO b)
  let sa := (slot s a).sx
  let sb := (slot s b).sx
  pa < pb || (pa == pb && (sa < sb || (sa == sb && a < b)))

/-- The best of some slots under R78. -/
def bestSlot (s : State) : List Nat → Nat
  | [] => 7
  | a :: t =>
    let b := bestSlot s t
    if b = 7 ∨ ranksBefore s a b then a else b

/-- The outcome of a vote (Table 04-3): every disagreeing slot, or the primary, becomes SUSPECT, or the
servo is to enter SUSPECT. -/
def tallyVote (s : State) (p : Nat) (act d : List Nat) : State :=
  let a := 1 + act.length - d.length
  let agreeAll := d.all fun x => d.all fun y => x == y || !disagree s x y
  let s0 := act.foldl (fun s k => updSlot s k fun v => { v with dis := 0 }) s
  if d.length < a then
    updServo (d.foldl (fun s k => setSlot (updSlot s k fun v => { v with voted := true }) k 5) s0)
      fun v => { v with decided := true }
  else if a < d.length && agreeAll then
    updServo (setSlot (updSlot s0 p fun v => { v with voted := true }) p 5)
      fun v => { v with decided := true, force := bestSlot s d }
  else updServo s0 fun v => { v with tied := true }

/-- A slot that is no longer compared has no consecutive disagreements; one made SUSPECT by vote is
freed once it agrees with the primary again (R80, R81). -/
def judgeSlot (s : State) (p k : Nat) (judged : Bool) : State :=
  updSlot s k fun v =>
    if judged && slotState s k == 3 && k != p then
      { v with dis := if disagree s k p then v.dis + 1 else 0 }
    else { v with dis := 0, voted := v.voted && !(judged && k != p && v.est && !disagree s k p) }

/-- vote(): each ACTIVE slot is compared with the primary (R80). -/
def vote (s : State) (p : Nat) : State :=
  let judged := p != 7 && slotState s p == 3
  let s0 := updServo s fun v => { v with decided := false, tied := false, force := 7 }
  let s1 := (List.range 6).foldl (fun s k => judgeSlot s p k judged) s0
  let act := (actives s1).filter fun k => k != p
  let need := orD (get s pDSC fDSC_AGREE_LIMIT_UPD) 1
  if judged && act.any (fun k => decide (need ≤ (slot s1 k).dis)) then
    tallyVote s1 p act (act.filter fun k => (slot s1 k).dis != 0)
  else s1

/-! ### Step 4: the primary, the hand-over and the ensemble (R78, R79, R87) -/

/-- DSC.CTRL.SEL; 6 is treated as 7. -/
def selSlot (s : State) : Nat :=
  let v := get s pDSC fDSC_CTRL_SEL
  if v = 6 then 7 else v

/-- choose_primary() (R78). -/
def choosePrimary (s : State) (p : Nat) : Nat :=
  let act := actives s
  let sel := selSlot s
  if act.contains sel then sel
  else if act.contains s.dsc.force then s.dsc.force
  else if !flag s pDSC fDSC_CFG_REVERT && act.contains p && s.dsc.selPrev == sel then p
  else bestSlot s act

/-- The engine asks for a step, or waits while one is pending (R86). An ABSOLUTE step names the
reference's time at S. -/
def askStep (s : State) (w : StepWant) (amt : Int) : State :=
  if stepPending s then raise (updServo s fun v => { v with want := some w }) pDSC 7
  else
    let val := if timeSet s then amt else (stepInstant s : Int) + s.clk.tOfs + amt
    requestStep (updServo s fun v => { v with want := none, mine := some w }) 1 (!timeSet s) val

/-- DSC.STEP_THRESH is exceeded. -/
def overStep (s : State) (amt : Int) : Bool := decide (rdN s pDSC rDSC_STEP_THRESH * 65536 < amt.natAbs)

/-- The step an entry to ACQUIRE or a hand-over calls for is asked for when its condition holds
(Table 04-5, R88). -/
def tryStep (s : State) (w : StepWant) (q : Nat) : State :=
  let drop := updServo s fun v => { v with want := none }
  if q = 7 then drop
  else match w with
    | .acquire => if !timeSet s || overStep s (offK s q) then askStep s w (offK s q) else drop
    | .recover =>
      let e := offK s q - s.dsc.h
      if flag s pDSC fDSC_CFG_STEP_EN && overStep s e then askStep s w e else drop
    | .handover =>
      if flag s pDSC fDSC_CFG_STEP_EN && overStep s s.dsc.h then askStep s w s.dsc.h else drop

/-- The Allemande from the followed slot to `q`: h takes what keeps the output still (R87, R88). -/
def allemande (s : State) (q : Nat) : State :=
  let s1 := updServo s fun v => { v with h := offK s q - v.e, handed := true }
  tryStep (raise (bump s1 pDSC rDSC_HANDOVER_CNT) pDSC 1) .handover q

/-- The ensemble set E (R79). -/
def ensembleSet (s : State) (q : Nat) : List Nat :=
  if q = 7 then []
  else if flag s pDSC fDSC_CFG_FREQ_ENS then
    (actives s).filter fun k => k == q || flag s pREF (fREF_SLOT_CFG_ENS_EN k)
  else [q]

/-- σ_y² of a slot, never 0. -/
def varY (s : State) (k : Nat) : Nat := max 1 ((slot s k).sy * (slot s k).sy)

/-- The product of the variances of a set but one: a weight of R79 up to the common factor. -/
def rawWeight (s : State) (e : List Nat) (k : Nat) : Nat :=
  (e.filter (· != k)).foldl (fun a j => a * varY s j) 1

/-- y_ens as a fraction (R79). -/
def ensembleY (s : State) (e : List Nat) : Int × Nat :=
  (e.foldl (fun a k => a + (rawWeight s e k : Int) * (slot s k).y) 0,
   max 1 (e.foldl (fun a k => a + rawWeight s e k) 0))

/-- The shown weight of a slot outside the primary, in 1/256 to nearest (R79). -/
def shownWeight (s : State) (e : List Nat) (k : Nat) : Nat :=
  if e.contains k then
    (divRound ((rawWeight s e k : Int) * 256) ((ensembleY s e).2 : Int)).toNat
  else 0

/-- The weights and the primary are shown; the shown weights of E sum to 256, which an 8-bit field
holds as 0 where one slot has all of it (R79). -/
def showWeights (s : State) (q : Nat) (e : List Nat) : State :=
  let others := (e.filter (· != q)).foldl (fun a k => a + shownWeight s e k) 0
  (List.range 6).foldl (fun s k =>
    let w := if k = q then 256 - others else shownWeight s e k
    putB (put s pREF (fREF_SLOT_STAT_WEIGHT k) w) pREF (fREF_SLOT_STAT_PRIMARY k) (k == q)) s

/-! ### Step 5: servo transitions (Table 04-5) -/

/-- DSC.STAT.STATE: 0 FREERUN, 1 ACQUIRE, 2 LOCKED, 3 HOLDOVER, 4 SUSPECT. -/
def servoState (s : State) : Nat := get s pDSC fDSC_STAT_STATE

/-- The servo takes a state; a change sets INT_RAW[0]. -/
def setServo (s : State) (st : Nat) : State :=
  if servoState s = st then s else raise (put s pDSC fDSC_STAT_STATE st) pDSC 0

/-- The model takes over: f_h and T_h are those of now (R84). -/
def onModel (s : State) : State :=
  updServo s fun v => { v with fh := v.freq, th := v.temp, entry := mono s }

/-- The servo enters FREERUN: h = 0 and UNC unknown (rows 1 and 8). -/
def toFreerun (s : State) : State :=
  onModel (updServo (setServo s 0) fun v =>
    { v with h := 0, been := false, unc := none, uncBase := none, want := none })

/-- σ_y of the slot followed at the entry to HOLDOVER or SUSPECT, as FREQ_SIG shows it. -/
def entrySigma (s : State) : Nat := get s pDSC fDSC_FREQ_SIG_PPT

/-- The servo enters HOLDOVER or SUSPECT: UNC_h is UNC at entry, and HOLD_TIME starts (rows 2, 6, 7). -/
def toHold (s : State) (st : Nat) : State :=
  onModel (updServo (setServo s st) fun v =>
    { v with uncBase := v.unc, uncFrom := mono s, entry := mono s, syH := entrySigma s, tInt := 0
             want := none })

/-- The servo enters ACQUIRE from FREERUN, SUSPECT or HOLDOVER: h = 0 (rows 3, 10, 11). -/
def toAcquire (s : State) (q : Nat) (w : StepWant) : State :=
  tryStep (updServo (setServo s 1) fun v => { v with h := 0, inCnt := 0, outCnt := 0 }) w q

/-- The servo enters LOCKED: τ starts at ACQ_TAU (row 4, R85), and FREF_UNCAL ends (R110). -/
def toLocked (s : State) : State :=
  let s1 := updServo (setServo s 2) fun v =>
    { v with been := true, tau := orD (get s pDSC fDSC_LOOP_ACQ_TAU) 1, tick := 0, inCnt := 0 }
  doubt (putB s1 pOVN fOVN_STAT_UNCAL false) pOVN 5 false

/-- LOCK_THRESH.EXIT; below ENTER it is treated as ENTER. -/
def exitThresh (s : State) : Nat :=
  max (get s pDSC fDSC_LOCK_THRESH_EXIT) (get s pDSC fDSC_LOCK_THRESH_ENTER)

/-- The counts of consecutive updates within ENTER and beyond EXIT (rows 4 and 5). -/
def countLock (s : State) (q : Nat) : State :=
  let e := (offK s q - s.dsc.h).natAbs
  let st := servoState s
  updServo s fun v =>
    { v with
      inCnt := if st = 1 ∧ q ≠ 7 ∧ e ≤ get s pDSC fDSC_LOCK_THRESH_ENTER * 65536 then v.inCnt + 1 else 0
      outCnt := if st = 2 ∧ q ≠ 7 ∧ exitThresh s * 65536 < e then v.outCnt + 1 else 0 }

/-- servo_transition(): the first row of Table 04-5 whose condition holds. -/
def servoTransition (s0 : State) (q : Nat) : State :=
  let s := countLock s0 q
  let st := servoState s
  let hold := flag s pDSC fDSC_CTRL_HOLD
  if flag s pDSC fDSC_CTRL_FREERUN then (if st = 0 then s else toFreerun s)
  else if hold && (st == 1 || st == 2 || st == 4) then
    (if st = 4 then setServo s 3 else toHold s 3)
  else if st = 0 && q != 7 then toAcquire s q .acquire
  else if st = 1 && decide (16 ≤ s.dsc.inCnt) then toLocked s
  else if st = 2 && decide (16 ≤ s.dsc.outCnt) then
    updServo (setServo s 1) fun v => { v with outCnt := 0 }
  else if (st = 1 || st = 2) && s.dsc.tied then toHold s 4
  else if (st = 2 || (st = 1 && s.dsc.been)) && q == 7 then toHold s 3
  else if st = 1 && q == 7 then toFreerun s
  else if st = 4 && (actives s).isEmpty then setServo s 3
  else if st = 4 && (s.dsc.decided || (actives s).contains (selSlot s)) then toAcquire s q .recover
  else if st = 3 && q != 7 && !hold then toAcquire s q .recover
  else s

/-! ### Step 6: steering (R46, R84, R85, R88) -/

/-- The increment per cycle for a frequency part in 2⁻¹⁶ ppt and a pull part in ppt (R46). -/
def rateOf (freq pull : Int) : Nat :=
  (0xA00000000000 + divRound (0xA00000000000 * (freq + pull * 65536)) (65536 * 1000000000000)).toNat

/-- TBE.RATE takes the two parts; the pull part is clamped to SLEW_LIMIT and a clamp counted (R46). -/
def setRate (s : State) (pull : Int) : State :=
  let lim : Int := get s pTBE fTBE_SLEW_LIMIT_PPB * 1000
  let cl := if pull < -lim then -lim else if lim < pull then lim else pull
  let s1 := if cl = pull then s else bump s pTBE rTBE_CLAMP_CNT
  let s2 := wr64 s1 pTBE rTBE_RATE_LO rTBE_RATE_HI (rateOf s.dsc.freq cl)
  let s3 := wrN s2 pTBE rTBE_PULL (unsign 32 cl)
  wrN s3 pDSC rDSC_FREQ (unsign 32 (satS 32 (divRound s.dsc.freq 65536)))

/-- The frequency part of the holdover model now (R84): f_h + a·t + c·(T − T_h). -/
def modelFreq (s : State) : Int :=
  let t : Int := (mono s : Int) - s.dsc.entry
  let a := getS s pDSC fDSC_MODEL_AGE_RATE
  let c := getS s pDSC fDSC_MODEL_TCOEF_TCOEF
  s.dsc.fh + a * t * 65536 / 86400000000000 + c * (s.dsc.temp - s.dsc.th) * 65536 / 1000

/-- h moves toward 0 under SLEW, except at the update that set it and while a step of h waits (R88). -/
def slewH (s : State) : State :=
  let step : Int := get s pDSC fDSC_HANDOVER_SLEW_RATE * 4096
  if flag s pDSC fDSC_HANDOVER_SLEW_MODE || s.dsc.handed || s.dsc.mine == some .handover ||
      s.dsc.want == some .handover then s
  else updServo s fun v =>
    { v with h := if v.h.natAbs ≤ step.natAbs then 0 else if v.h < 0 then v.h + step else v.h - step }

/-- τ of this update in s (R85). -/
def nextTau (s : State) : State :=
  let acq := orD (get s pDSC fDSC_LOOP_ACQ_TAU) 1
  let lock := max acq (get s pDSC fDSC_LOOP_LOCK_TAU)
  if servoState s = 2 then
    updServo s fun v =>
      { v with tick := v.tick + 1
               tau := min lock (if (v.tick + 1) % 16 = 0 then v.tau * 2 else v.tau) }
  else updServo s fun v => { v with tau := acq }

/-- The pull part e/τ in ppt, clamped to ACQ_SLEW in ACQUIRE (R84). -/
def pullOf (s : State) : Int :=
  let p := s.dsc.e * 1000 / (65536 * (max 1 s.dsc.tau : Nat) : Int)
  let lim : Int := get s pDSC fDSC_ACQ_SLEW_NS_S * 1000
  if servoState s = 1 then (if p < -lim then -lim else if lim < p then lim else p) else p

/-- steer(): the loop in ACQUIRE and LOCKED with EN = 1, the model otherwise (R83, R84). -/
def steerServo (s0 : State) (q : Nat) (en : Bool) : State :=
  let s := match s0.dsc.want with
    | some w => if stepPending s0 then s0 else tryStep s0 w q
    | none => s0
  if en && (servoState s == 1 || servoState s == 2) then
    let s1 := nextTau (slewH s)
    let s2 := if q = 7 then s1 else updServo s1 fun v => { v with e := offK s1 q - v.h }
    let y := ensembleY s2 (ensembleSet s2 q)
    let s3 := updServo s2 fun v =>
      { v with freq := v.freq + y.1 * 1024 / ((y.2 : Int) * (max 1 v.tau : Nat)) }
    setRate s3 (pullOf s3)
  else setRate (updServo s fun v => { v with freq := modelFreq s }) 0

/-! ### Step 7: uncertainty (R90, R92) -/

/-- UNC in HOLDOVER and SUSPECT from its value at `uncFrom` (R90): σ_y and ageing grow it, and the
temperature integral with C_T. -/
def holdUnc (s : State) : Option Nat :=
  match s.dsc.uncBase with
  | none => none
  | some u =>
    let ready := flag s pDSC fDSC_MODEL_STAT_HOLD_READY
    let t := mono s - s.dsc.entry
    let tb := s.dsc.uncFrom - s.dsc.entry
    let f := 2 * s.dsc.syH + (if ready then 0 else 500)
    let a := if ready then get s pDSC fDSC_MODEL_AGE_BOUND else get s pDSC fDSC_AGE_BOUND_MPPB_D
    some (u + f * (t - tb) * 65536 / 1000000000000 +
      a * (t * t - tb * tb) * 65536 / (2 * 86400000000000 * 1000000000000) +
      get s pDSC fDSC_MODEL_TCOEF_TRES * s.dsc.tInt * 65536 / 1000000000000000)

/-- DSC.UNC as it reads: the nearest ns, 0xFFFF_FFFF while unknown (R90). -/
def uncReg (u : Option Nat) : Nat :=
  match u with
  | none => 0xFFFFFFFF
  | some u => min ((u + 32768) / 65536) 0xFFFFFFFE

/-- UNC exceeds HOLD_LIMIT; an unknown UNC counts as above it (R92). -/
def uncOver (s : State) : Bool :=
  match s.dsc.unc with
  | none => true
  | some u => decide (rdN s pDSC rDSC_HOLD_LIMIT * 65536 < u)

/-- UNC is stored and shown; UNC_LIMIT follows it, and its rise sets INT_RAW[6] (R90, R92). -/
def showUnc (s : State) (u : Option Nat) : State :=
  let s1 := wrN (updServo s fun v => { v with unc := u }) pDSC rDSC_UNC (uncReg u)
  let above := uncOver s1
  doubt (raiseIf s1 (above && !doubts s1 pDSC 2) pDSC 6) pDSC 2 above

/-- update_unc() (R90). -/
def updateUnc (s : State) (q : Nat) : State :=
  let st := servoState s
  let dt := mono s - s.dsc.upd
  let s1 := updServo s fun v => { v with tInt := v.tInt + (v.temp - v.th).natAbs * dt }
  if st = 0 then showUnc s1 none
  else if st = 1 ∨ st = 2 then
    (if q = 7 then s1 else showUnc s1 (some (accK s q + (offK s q).natAbs + 2 * (slot s q).sx)))
  else showUnc s1 (holdUnc s1)

/-! ### The whole update -/

/-- What the DSC and REF pages show of the servo and the slots after an update. -/
def showServo (s : State) (q : Nat) : State :=
  let st := servoState s
  let any := fun c => (List.range 6).any fun k => slotState s k == c
  let s1 := put s pDSC fDSC_STAT_PRIMARY q
  let s2 := putB (putB s1 pDSC fDSC_STAT_QUAR (any 4)) pDSC fDSC_STAT_HELD (any 6)
  let s3 := putB s2 pDSC fDSC_STAT_HO_SLEW (s.dsc.h != 0 && !flag s pDSC fDSC_HANDOVER_SLEW_MODE)
  let s4 := wrN s3 pDSC rDSC_HANDOVER_OFS (unsign 32 (satS 32 (s.dsc.h * 125 / 8192)))
  let s5 := wrN s4 pDSC rDSC_PHASE_ERR (unsign 32 (satS 32 (s.dsc.e * 125 / 8192)))
  wrN s5 pDSC rDSC_HOLD_TIME
    (if st = 3 ∨ st = 4 then (mono s - s.dsc.entry) / 1000000000 else 0)

/-- The DSC doubts follow the servo and the slots (R76, R80, R93, R95). -/
def dscDoubts (s : State) : State :=
  let st := servoState s
  let any := fun c => (List.range 6).any fun k => slotState s k == c
  let voted := (List.range 6).any fun k => slotState s k == 5 && (slot s k).voted
  let s1 := doubt (doubt s pDSC 0 (st == 0)) pDSC 1 (st == 3)
  let s2 := doubt (doubt s1 pDSC 3 (st == 4)) pDSC 4 (st == 4 || voted)
  doubt (doubt s2 pDSC 5 (any 4)) pDSC 6 (any 6)

/-- QUAL_LEFT of a slot (R69, R73). -/
def qualLeft (s : State) (k : Nat) : Nat :=
  if slotState s k != 2 then 0
  else if isExt k && !timeSet s then 0
  else match (slot s k).qualFrom with
    | none => qualSec s k
    | some q => (q + qualSec s k * 1000000000 - mono s + 999999999) / 1000000000

/-- What the REF page shows of a slot's estimator. -/
def showSlot (s : State) (k : Nat) : State :=
  let v := slot s k
  let s1 := put s pREF (fREF_SLOT_STAT_QUAL_LEFT k) (qualLeft s k)
  let s2 := wrN s1 pREF (rREF_SLOT_OFS k) (unsign 32 (satS 32 (v.x * 125 / 8192)))
  let s3 := wrN s2 pREF (rREF_SLOT_FOFS k) (unsign 32 (satS 32 v.y))
  let s4 := put s3 pREF (fREF_SLOT_SIG_SX k) (satU 16 (v.sx * 100 / 65536))
  let s5 := put s4 pREF (fREF_SLOT_SIG_SY k) (satU 16 v.sy)
  let b := if slotState s k = 6 then v.prop else v.b
  wrN s5 pREF (rREF_SLOT_BIAS k) (unsign 32 (satS 32 (b * 125 / 8192)))

/-- The service view and the Radio's view that the Timebase sends at an update (R211, R155). -/
def viewNow (s : State) (q : Nat) : View :=
  { state := servoState s, primary := q, lastPrimary := s.dsc.last
    unc := knownOf (rdN s pDSC rDSC_UNC), refAt := s.dsc.refAt, timeSet := timeSet s
    utc := rdN s pTBE rTBE_UTC_OFFSET, leapLo := rdN s pTBE rTBE_LEAP_SCHED
    leapHi := rdN s pTBE rTBE_LEAP_SCHED_HI, smear := flag s pTBE fTBE_SMEAR_EN
    smearOn := s.tb.smearOn, smearStart := s.tb.smearStart, smearDir := s.tb.smearDir
    at' := t96 s
    degrade := flag s pSAF fSAF_STAT_DEGRADE
    askStratum := s.dsc.view.askStratum, askRefid := s.dsc.view.askRefid
    freq := rdN s pDSC rDSC_FREQ, slot0 := slotState s 0
    slot0Delay := rdN s pREF (rREF_SLOT_DELAY 0), slot0Acc := get s pREF (fREF_SLOT_ACC_NS 0) }

/-- σ_y of y_ens: the root of the inverse of the summed inverse variances (R79). -/
def ensembleSig (s : State) (e : List Nat) : Nat :=
  isqrt (e.foldl (fun a k => a * varY s k) 1 / (ensembleY s e).2)

/-- Steps 1 to 5 of an update, which run only with EN = 1 (R77, R83). `p` is the primary so far; the
answer holds the new one. -/
def judgeUpdate (s : State) (p : Nat) : State × Nat :=
  let s1 := (List.range 6).foldl absorb s
  let s2 := (List.range 6).foldl updateSlot s1
  let s3 := vote s2 p
  let q := choosePrimary s3 p
  let s4 := updServo s3 fun v => { v with selPrev := selSlot s3, handed := false }
  let st := servoState s4
  let s5 := if q ≠ p ∧ q ≠ 7 ∧ p ≠ 7 ∧ (st = 1 ∨ st = 2) then allemande s4 q else s4
  let e := ensembleSet s5 q
  let s6 := showWeights s5 q e
  let s7 := if q = 7 then s6 else put s6 pDSC fDSC_FREQ_SIG_PPT (satU 16 (ensembleSig s6 e))
  (servoTransition s7 q, q)

/-- The next instant of the 62.5 ms grid of servo updates, aligned to TAI second boundaries (R72). -/
def nextUpdate (s : State) : Nat :=
  let g := secU / 16
  let t := t96 s
  if t % g = 0 ∧ s.dsc.upd ≠ mono s then t else (t / g + 1) * g

/-- One servo update (R77), at the instant the clock stands at. -/
def servoUpdate (s : State) (temp : Int) : State :=
  let en := pageEn s pDSC
  let p := get s pDSC fDSC_STAT_PRIMARY
  let s0 := updServo s fun v => { v with temp := temp }
  let locked := servoState s == 2
  let r := if en then judgeUpdate s0 p else (s0, p)
  let q := r.2
  let s2 := updateUnc (steerServo r.1 q en) q
  let st := servoState s2
  let s3 := updServo s2 fun v =>
    { v with last := if q = 7 then v.last else q
             refAt := if st = 1 ∨ st = 2 then some s.clk.p.toNat else v.refAt
             lockNs := if locked then v.lockNs + (mono s - v.upd) else v.lockNs
             upd := mono s }
  let s4 := dscDoubts (showServo ((List.range 6).foldl showSlot s3) q)
  refreshGates (updServo s4 fun v => { v with view := viewNow s4 q })

/-- The platform temperature and heater power are shown, and the running comparison of OSC_IN with the
resonator while it is valid (Table 05-3). -/
def showOven (s : State) (temp : Int) (heat : Nat) (osc : Option (Int × Nat)) : State :=
  let s1 := put (put s pOVN fOVN_TEMP_MC (unsign 24 (satS 24 temp))) pOVN fOVN_HEAT_MW (satU 12 heat)
  match osc with
  | some (ppt, sig) =>
    if flag s pOVN fOVN_STAT_MEAS_VALID then
      put (wrN s1 pOVN rOVN_OSC_MEAS (unsign 32 (satS 32 ppt))) pOVN fOVN_XCMP_SIG_PPT (satU 16 sig)
    else s1
  | none => s1

/-- SERVO_UPDATE (R72, R77): every 62.5 ms the engine runs one update. The command carries what the
oven's sensors and the comparison with OSC_IN read at that instant. -/
def execServoUpdate (temp : Int) (heat : Nat) (osc : Option (Int × Nat)) (s : State) :
    Host.Outcome State Fault Refusal :=
  .next (servoUpdate (showOven (advT96 s (nextUpdate s)) temp heat osc) temp)

/-! ### Steps, stops and the model (R71, R83, R86, R99, R100) -/

/-- A step of `d` 2⁻¹⁶ ns shifts every slot's estimate and every waiting sample; the engine's own step of
h ends h, and a step not its own in HOLDOVER adds its magnitude to UNC (R71, R86, R88). -/
def dscStep (s : State) (d : Int) : State :=
  let shift := fun k (x : Int) => if isExt k then reduceSec (x - d) else x - d
  let moved := if s.tb.stepBy = 2 then [0, 1, 2, 3, 4] else [0, 1, 2, 3, 4, 5]
  let s1 := moved.foldl (fun s k => updSlot s k fun v =>
    { v with x := shift k v.x
             fresh := v.fresh.map fun e => (shift k e.1, e.2)
             held := v.held.map fun e => (shift k e.1, e.2)
             quarFrom := v.quarFrom.map fun q => (q.1, q.2.1 - d, q.2.2) }) s
  let own := s.dsc.mine
  let s2 := updServo s1 fun v =>
    { v with e := v.e - d, mine := none, h := if own = some .handover then 0 else v.h }
  if own = none ∧ servoState s = 3 then
    updServo s2 fun v =>
      { v with uncBase := (holdUnc s).map (· + d.natAbs), uncFrom := mono s, tInt := 0 }
  else s2

/-- The engine stops (R83): a servo that is, or has been, LOCKED enters HOLDOVER; any other state is
kept. -/
def dscStop (s : State) : State :=
  let st := servoState s
  if st = 2 ∨ (st = 1 ∧ s.dsc.been = true) then dscDoubts (toHold s 3)
  else if st = 4 then dscDoubts (setServo s 3)
  else if st = 1 then onModel s
  else s

/-- HISTORY_STORE (R99): every 60 s while LOCKED the frequency part and the resonator temperature are
stored, with the primary of then; the history reaches back 30 days, the longest a review uses (R392). -/
def execHistoryStore (s : State) : Host.Outcome State Fault Refusal :=
  if servoState s = 2 then
    let s1 := advMono s (s.dsc.stored + 60000000000)
    let m := mono s1
    .next (updServo s1 fun v =>
      { v with stored := m
               hist := (v.hist.filter fun e => decide (m ≤ e.1 + 30 * 86400000000000)) ++
                 [(m, v.freq / 65536, v.temp, v.last)] })
  else .next s

/-- The stored points that `f` takes, as time in s and frequency part in ppt corrected for temperature by
TCOEF (R99). -/
def histPoints (s : State) (f : Nat × Int × Int × Nat → Bool) : List (Int × Int) :=
  (s.dsc.hist.filter f).map fun e =>
    ((e.1 / 1000000000 : Nat), e.2.1 - getS s pDSC fDSC_MODEL_TCOEF_TCOEF * (e.2.2.1 - s.dsc.th) / 1000)

/-- n·Σab − Σa·Σb over a list of pairs. -/
def covar (l : List (Int × Int)) : Int :=
  (l.length : Int) * l.foldl (fun a e => a + e.1 * e.2) 0 -
    l.foldl (fun a e => a + e.1) 0 * l.foldl (fun a e => a + e.2) 0

/-- The refitted ageing rate in 0.001 ppb/day and its bound, three standard errors of the slope but
never below 0.05 ppb/day (R99). -/
def fitAge (l : List (Int × Int)) : Option (Int × Nat) :=
  let xx := covar (l.map fun e => (e.1, e.1))
  let xy := covar l
  let yy := covar (l.map fun e => (e.2, e.2))
  if l.length < 3 ∨ xx ≤ 0 then none
  else
    let v := 9 * 86400 * 86400 * (yy * xx - xy * xy) / (((l.length : Int) - 2) * xx * xx)
    some (divRound (xy * 86400) xx, max 50 (isqrt v.toNat))

/-- The learned values go into the model registers, BOUND never below a reviewed bound (R392); the spec gives
no method for the temperature residual, so it is a free value (R99, log entry 3). -/
def refitModel (s : State) : State :=
  let m := mono s
  match fitAge (histPoints s fun e => decide (m ≤ e.1 + 86400000000000)) with
  | none => s
  | some (rate, bound) =>
    let s1 := put (putS s pDSC fDSC_MODEL_AGE_RATE rate) pDSC fDSC_MODEL_AGE_BOUND (satU 16 (max bound s.dsc.rvBound))
    drawn (put s1 pDSC fDSC_MODEL_TCOEF_TRES (freeVal s 14 % 65536))

/-- MODEL_REFIT (R99): at each whole hour of LOCKED time LOCK_HOURS counts on; at 24 HOLD_READY, SRC =
LEARNED and INT_RAW[5] are set, and from then on the learned values are used. -/
def execModelRefit (s : State) : Host.Outcome State Fault Refusal :=
  let hours := s.dsc.lockNs / 3600000000000
  if hours ≤ s.dsc.refits then .next s
  else
    let s1 := put (updServo s fun v => { v with refits := hours }) pDSC fDSC_MODEL_STAT_LOCK_HOURS
      (satU 16 hours)
    let ready := flag s pDSC fDSC_MODEL_STAT_HOLD_READY
    let s2 := if 24 ≤ hours ∧ ready = false then
        raise (put (putB (putB s1 pDSC fDSC_MODEL_STAT_HOLD_READY true) pDSC fDSC_STAT_HOLD_READY true)
          pDSC fDSC_MODEL_STAT_SRC (if get s1 pDSC fDSC_MODEL_STAT_SRC = 2 then 2 else 1)) pDSC 5
      else s1
    .next (if flag s2 pDSC fDSC_MODEL_STAT_HOLD_READY then refitModel s2 else s2)

/-- The model reloads at a change of source (R100). -/
def reloadModel (s : State) : State :=
  let s1 := put (wrN s pDSC rDSC_MODEL_FREQ 0) pDSC fDSC_MODEL_TCOEF_TCOEF 0
  let s2 := put (put s1 pDSC fDSC_MODEL_AGE_RATE 0) pDSC fDSC_MODEL_AGE_BOUND
    (get s pDSC fDSC_AGE_BOUND_MPPB_D)
  let s3 := put (put s2 pDSC fDSC_MODEL_STAT_LOCK_HOURS 0) pDSC fDSC_MODEL_STAT_SRC 3
  let s4 := putB (putB s3 pDSC fDSC_MODEL_STAT_HOLD_READY false) pDSC fDSC_STAT_HOLD_READY false
  updServo s4 fun v => { v with lockNs := 0, refits := 0, hist := [], rvBound := 0 }

/-- A change of active source (R109): the frequency part, and f_h in HOLDOVER and SUSPECT, take the
correction; the model reloads, and UNC goes on from its value at the switch. -/
def sourceSwitched (s : State) (ppt : Int) : State :=
  let st := servoState s
  let s1 := updServo s fun v => { v with freq := v.freq + ppt * 65536, fh := v.fh + ppt * 65536 }
  let s2 := if st = 3 ∨ st = 4 then
      updServo s1 fun v =>
        { v with uncBase := holdUnc s, uncFrom := mono s, tInt := 0
                 syH := max v.syH (get s pOVN fOVN_XCMP_SIG_PPT) }
    else s1
  let s3 := reloadModel s2
  setRate s3 (signed 32 (rdN s3 pTBE rTBE_PULL))

/-- A write of SLOTk_CFG took effect: an enable starts the slot afresh, and REF_LOST follows (R69, R76). -/
def slotCfgWritten (s : State) (k : Nat) (wasEn : Bool) : State :=
  if slotEn s k && !wasEn then
    let s1 := updSlot s k fun v => { Slot.cold with since := mono s, b := v.b, ub := v.ub }
    doubt s1 pREF k false
  else if wasEn && !slotEn s k then doubt s pREF k false
  else s

end Sys2Proof.Machine
end

