-- ==== Sys2Proof/Machine/CoreMem.lean ====
section
/-! DEFINITION. The core memory: core SRAM and the DMA buffers by core-view address (Table 16-3), and the
regions of the harts in core SRAM (R341). -/

namespace Sys2Proof.Machine

/-- What a byte of core memory that nothing has written reads as (log entry 17). -/
abbrev coreFill : Byte := 0

/-- A byte of core memory. -/
def coreByte (s : State) (a : Nat) : Byte := (amGet? a s.core).getD coreFill

/-- A reservation that a store to an address breaks (R340). -/
def unreserve (a : Nat) (h : Hart) : Hart :=
  match h.resv with
  | some (b, n) => if b ≤ a ∧ a < b + n then { h with resv := none } else h
  | none => h

/-- Store a byte in core memory; every reservation that covers it is lost. -/
def putCore (s : State) (a : Nat) (b : Byte) : State :=
  { s with core := cellSet a b s.core, harts := s.harts.map (unreserve a) }

/-- Bytes of core memory. -/
def readCore (s : State) (a n : Nat) : List Byte := (List.range n).map fun k => coreByte s (a + k)

/-- Store bytes in core memory. -/
def writeCore (s : State) (a : Nat) : List Byte → State
  | [] => s
  | b :: t => writeCore (putCore s a b) (a + 1) t

/-- Core SRAM and the DMA buffers have lost their contents: their power, or a PIN reset. -/
def coreLost (s : State) : State := { s with core := [] }

/-- The canonical form of core memory: addresses rise strictly and no cell holds the fill. -/
def Memory.wf (m : List Host.Cell) : Bool := amWf m && m.all fun c => c.2 != coreFill

/-- Bytes lie within core SRAM. -/
def inSram (a n : Nat) : Bool := decide (0x10000000 ≤ a) && decide (a + n ≤ 0x10800000)

/-- Bytes lie within the DMA buffers. -/
def inDma (a n : Nat) : Bool := decide (0x20000000 ≤ a) && decide (a + n ≤ 0x20400000)

/-- A 64 KiB unit of core SRAM lies in the region of a REG or SHARED register, cut at 8 MiB. -/
def unitIn (s : State) (off u : Nat) : Bool :=
  let w := rdN s pCPU off
  decide (w % 256 ≤ u) && decide (u < w % 256 + w / 256 % 256) && decide (u < 128)

/-- R341: bytes of core SRAM lie in the region of a hart or the shared region; a keeper's region is the whole
of it. -/
def hartSram (s : State) (h a n : Nat) : Bool :=
  inSram a n &&
    (decide (h < 2) ||
      let u := (a - 0x10000000) / 65536
      let v := (a + n - 1 - 0x10000000) / 65536
      (List.range (v + 1 - u)).all fun k => unitIn s (rCPU_REG h) (u + k) || unitIn s rCPU_SHARED (u + k))

end Sys2Proof.Machine
end

