-- ==== Sys2Proof/Machine/Crypto.lean ====
section
/-! DEFINITION. The ciphers that the spec names: AES (FIPS 197), CMAC (SP 800-38B), AES-SIV (RFC 5297) and
GMAC (SP 800-38D). PRESUMED: the spec names them and does not define them (log entry 11). -/

namespace Sys2Proof.Machine

/-! ### AES -/

/-- Multiplication by x in GF(2⁸) under the polynomial of AES. -/
def gfTwice (a : Nat) : Nat := if a < 128 then a * 2 else (a * 2 - 256) ^^^ 0x1B

/-- Multiplication in GF(2⁸). -/
def gfMul (a b : Nat) : Nat :=
  ((List.range 8).foldl (fun (r : Nat × Nat) i =>
    (if bitOf b i then r.1 ^^^ r.2 else r.1, gfTwice r.2)) (0, a)).1

/-- The inverse in GF(2⁸), 0 for 0: the 254th power. -/
def gfInv (a : Nat) : Nat :=
  let a2 := gfMul a a
  let a4 := gfMul a2 a2
  let a8 := gfMul a4 a4
  let a16 := gfMul a8 a8
  let a32 := gfMul a16 a16
  let a64 := gfMul a32 a32
  let a128 := gfMul a64 a64
  gfMul (gfMul (gfMul a2 a4) (gfMul a8 a16)) (gfMul (gfMul a32 a64) a128)

/-- A byte rotated left. -/
def rotl8 (a k : Nat) : Nat := (a <<< k ||| a >>> (8 - k)) % 256

/-- The S-box of AES. -/
def aesSub (a : Nat) : Nat :=
  let b := gfInv a
  b ^^^ rotl8 b 1 ^^^ rotl8 b 2 ^^^ rotl8 b 3 ^^^ rotl8 b 4 ^^^ 0x63

/-- The bytes of a number, most significant first. -/
def octetsOf (k n : Nat) : List Nat := (List.range k).map fun i => n / 256 ^ (k - 1 - i) % 256

/-- The number that bytes spell, most significant first. -/
def ofOctets (l : List Nat) : Nat := l.foldl (fun n b => n * 256 + b) 0

/-- Two words of the same length, bit by bit. -/
def xorL (a b : List Nat) : List Nat := List.zipWith (· ^^^ ·) a b

/-- The next word of the key schedule: `ws` holds the words so far, newest first. -/
def nextKeyWord (nk : Nat) (ws : List (List Nat)) : List Nat :=
  let i := ws.length
  let t := ws.headD []
  let back := ix ws (nk - 1) []
  let rcon := (List.range (i / nk - 1)).foldl (fun r _ => gfTwice r) 1
  if i % nk = 0 then
    let r := (t.drop 1 ++ t.take 1).map aesSub
    xorL back (xorL r [rcon, 0, 0, 0])
  else if 6 < nk ∧ i % nk = 4 then xorL back (t.map aesSub)
  else xorL back t

/-- The words of the key schedule, oldest first; the key is `4 * nk` bytes. -/
def keyWords (nk : Nat) (key : List Nat) : List (List Nat) :=
  let first := (List.range nk).map fun i => (key.drop (4 * i)).take 4
  ((List.range (4 * (nk + 7) - nk)).foldl (fun ws _ => nextKeyWord nk ws :: ws) first.reverse).reverse

/-- Row `r` of the state is shifted left by `r`; the state is held column by column. -/
def shiftRows (st : List Nat) : List Nat :=
  (List.range 16).map fun i => ix st ((i + 4 * (i % 4)) % 16) 0

/-- One column is mixed. -/
def mixColumn (c : List Nat) : List Nat :=
  (List.range 4).map fun i =>
    let at' (k : Nat) := ix c ((i + k) % 4) 0
    gfTwice (at' 0) ^^^ (gfTwice (at' 1) ^^^ at' 1) ^^^ at' 2 ^^^ at' 3

/-- Every column is mixed. -/
def mixColumns (st : List Nat) : List Nat :=
  (List.range 4).flatMap fun c => mixColumn ((st.drop (4 * c)).take 4)

/-- One block through AES with a key of 16, 24 or 32 bytes. -/
def aesBlock (key : List Byte) (block : Nat) : Nat :=
  let nk := key.length / 4
  let ws := keyWords nk (key.map BitVec.toNat)
  let roundKey (r : Nat) := ((ws.drop (4 * r)).take 4).flatten
  let rounds := nk + 6
  let st0 := xorL (octetsOf 16 block) (roundKey 0)
  let st1 := (List.range (rounds - 1)).foldl (fun st r =>
    xorL (mixColumns (shiftRows (st.map aesSub))) (roundKey (r + 1))) st0
  ofOctets (xorL (shiftRows (st1.map aesSub)) (roundKey rounds))

/-! ### CMAC and SIV -/

/-- Doubling in GF(2¹²⁸) as CMAC and S2V use it. -/
def dbl128 (a : Nat) : Nat :=
  if a < 2 ^ 127 then a * 2 else (a * 2 - 2 ^ 128) ^^^ 0x87

/-- The 16-byte blocks of a message of `n` bytes; the last one may be short. -/
def blocks16 (n : Nat) (m : List Byte) : List (List Byte) :=
  (List.range ((n + 15) / 16)).map fun i => (m.drop (16 * i)).take 16

/-- A short block padded with one bit and zeros. -/
def padBlock (l : List Byte) : Nat := natBE (l ++ [128] ++ List.replicate (15 - l.length) 0)

/-- AES-CMAC of a message. -/
def cmac (key : List Byte) (m : List Byte) : Nat :=
  let k1 := dbl128 (aesBlock key 0)
  let bs := blocks16 m.length m
  let last := bs.getLastD []
  let tail := if last.length = 16 then natBE last ^^^ k1 else padBlock last ^^^ dbl128 k1
  aesBlock key ((bs.dropLast.foldl (fun c b => aesBlock key (c ^^^ natBE b)) 0) ^^^ tail)

/-- S2V of associated data and a plaintext (RFC 5297). -/
def s2v (key : List Byte) (ad : List (List Byte)) (m : List Byte) : Nat :=
  let d := ad.foldl (fun d a => dbl128 d ^^^ cmac key a) (cmac key (List.replicate 16 0))
  if 16 ≤ m.length then
    let tail := natBE (m.drop (m.length - 16)) ^^^ d
    cmac key (m.take (m.length - 16) ++ bytesBE 16 tail)
  else cmac key (bytesBE 16 (dbl128 d ^^^ padBlock m))

/-- The key stream of the counter mode from a block. -/
def ctrXor (key : List Byte) (iv : Nat) (m : List Byte) : List Byte :=
  ((blocks16 m.length m).zipIdx.map fun b =>
    List.zipWith (· ^^^ ·) b.1 (bytesBE 16 (aesBlock key ((iv + b.2) % 2 ^ 128)))).flatten

/-- The counter block of SIV: bits 63 and 31 are cleared. -/
def sivCounter (v : Nat) : Nat := setBit (setBit v 63 false) 31 false

/-- AES-SIV: the synthetic IV followed by the ciphertext. The key is the CMAC key, then the CTR key. -/
def sivSeal (key : List Byte) (ad : List (List Byte)) (m : List Byte) : List Byte :=
  let h := key.length / 2
  let v := s2v (key.take h) ad m
  bytesBE 16 v ++ ctrXor (key.drop h) (sivCounter v) m

/-- AES-SIV: the plaintext, none where the synthetic IV fails. -/
def sivOpen (key : List Byte) (ad : List (List Byte)) (c : List Byte) : Option (List Byte) :=
  let h := key.length / 2
  let v := natBE (c.take 16)
  let m := ctrXor (key.drop h) (sivCounter v) (c.drop 16)
  if 16 ≤ c.length ∧ s2v (key.take h) ad m = v then some m else none

/-! ### GMAC -/

/-- Multiplication in GF(2¹²⁸) as GHASH uses it: bit 127 of a block is its first bit. -/
def ghashMul (a b : Nat) : Nat :=
  ((List.range 128).foldl (fun (r : Nat × Nat) i =>
    (if bitOf a (127 - i) then r.1 ^^^ r.2 else r.1,
     if r.2 % 2 = 1 then (r.2 / 2) ^^^ (0xE1 <<< 120) else r.2 / 2)) (0, b)).1

/-- GMAC over a message with a 12-byte initialization vector. -/
def gmac (key : List Byte) (iv : List Byte) (m : List Byte) : Nat :=
  let h := aesBlock key 0
  let s := (blocks16 m.length m).foldl (fun y b =>
    ghashMul (y ^^^ natBE (b ++ List.replicate (16 - b.length) 0)) h) 0
  ghashMul (s ^^^ (m.length * 8 * 2 ^ 64)) h ^^^ aesBlock key (natBE iv * 2 ^ 32 + 1)

end Sys2Proof.Machine
end

