-- ==== Sys2Proof/Machine/Frames.lean ====
section
/-! DEFINITION. Frames as bytes (without FCS): fields in network byte order, Ethernet, VLAN, IPv4, IPv6 and
UDP headers read from a received frame and written into a built one, and their checksums. -/

namespace Sys2Proof.Machine

/-! ### Fields -/

/-- A big-endian field of `k` bytes. -/
def be (l : List Byte) (off k : Nat) : Nat := natBE (slice l off k)

/-- One byte. -/
def u8 (l : List Byte) (off : Nat) : Nat := be l off 1

/-- A number written as `k` big-endian bytes. -/
def put8 (k n : Nat) : List Byte := bytesBE k n

/-! ### Ethernet -/

/-- The head of a frame: addresses, VLAN ID (0 untagged or priority-tagged), EtherType and where the
payload begins. -/
structure Eth where
  dst : Nat
  src : Nat
  vid : Nat
  ty : Nat
  off : Nat
  deriving DecidableEq, Repr

/-- The head of a frame, with its 802.1Q tag. -/
def ethOf (l : List Byte) : Eth :=
  if be l 12 2 = 0x8100 then ⟨be l 0 6, be l 6 6, be l 14 2 % 0x1000, be l 16 2, 18⟩
  else ⟨be l 0 6, be l 6 6, 0, be l 12 2, 14⟩

/-- The broadcast MAC address. -/
abbrev macAll : Nat := 0xFFFFFFFFFFFF

/-- A group MAC address. -/
def macGroup (a : Nat) : Bool := bitOf a 40

/-- The head of a frame that is sent: a tag with PCP and DEI 0 only for a non-zero VID (Table 10-6). -/
def ethHead (dst src vid pcp ty : Nat) : List Byte :=
  put8 6 dst ++ put8 6 src ++ (if vid = 0 then [] else put8 2 0x8100 ++ put8 2 (pcp * 0x2000 + vid)) ++
    put8 2 ty

/-- A frame padded to 60 bytes, the least a frame holds without its FCS. -/
def padded (l : List Byte) : List Byte := l ++ List.replicate (60 - l.length) 0

/-! ### IP -/

/-- The head of an IP packet: version 6, addresses, the upper-layer protocol, the offset and length of
its payload, the hop limit, and whether it has IPv4 options or a fragment, or an extension header. -/
structure IpHead where
  v6 : Bool
  src : Nat
  dst : Nat
  proto : Nat
  off : Nat
  len : Nat
  hop : Nat
  odd : Bool
  deriving DecidableEq, Repr

/-- The IPv6 extension headers that can stand before the upper layer. -/
def isExtHead (n : Nat) : Bool := [0, 43, 44, 50, 51, 60, 135, 139, 140].contains n

/-- The head of the IP packet at an offset, none for a frame of another EtherType. -/
def ipOf (l : List Byte) (e : Eth) : Option IpHead :=
  let o := e.off
  if e.ty = 0x0800 then
    let ihl := u8 l o % 16 * 4
    let frag := be l (o + 6) 2
    some { v6 := false, src := be l (o + 12) 4, dst := be l (o + 16) 4, proto := u8 l (o + 9)
           off := o + ihl, len := be l (o + 2) 2 - ihl, hop := u8 l (o + 8)
           odd := decide (20 < ihl) || decide (frag % 0x4000 ≠ 0) }
  else if e.ty = 0x86DD then
    some { v6 := true, src := be l (o + 8) 16, dst := be l (o + 24) 16, proto := u8 l (o + 6)
           off := o + 40, len := be l (o + 4) 2, hop := u8 l (o + 7), odd := isExtHead (u8 l (o + 6)) }
  else none

/-- An IPv4 packet is a fragment: MF = 1 or an offset (Table 10-1 row 4). -/
def ipFrag (l : List Byte) (e : Eth) : Bool :=
  e.ty == 0x0800 && be l (e.off + 6) 2 % 0x4000 != 0

/-- The header checksum of an IPv4 packet is right. -/
def ip4Ok (l : List Byte) (e : Eth) : Bool :=
  fold16 (onesSum (slice l e.off (u8 l e.off % 16 * 4))) == 0xFFFF

/-- The pseudo-header sum of RFC 768 and RFC 8200. -/
def pseudoSum (v6 : Bool) (src dst proto len : Nat) : Nat :=
  if v6 then onesSum (put8 16 src ++ put8 16 dst ++ put8 4 len ++ put8 4 proto)
  else onesSum (put8 4 src ++ put8 4 dst ++ put8 2 proto ++ put8 2 len)

/-- The checksum of an upper-layer message whose own checksum field is 0. -/
def upperSum (v6 : Bool) (src dst proto : Nat) (m : List Byte) : Nat :=
  0xFFFF - fold16 (pseudoSum v6 src dst proto m.length + onesSum m)

/-- An upper-layer message of a received packet with its checksum sums to 0xFFFF. -/
def upperOk (h : IpHead) (m : List Byte) : Bool :=
  fold16 (pseudoSum h.v6 h.src h.dst h.proto m.length + onesSum m) == 0xFFFF

/-- The upper-layer bytes of a received packet. -/
def upperOf (l : List Byte) (h : IpHead) : List Byte := slice l h.off h.len

/-- A received datagram's UDP checksum is right: over IPv4 zero is accepted, over IPv6 it is wrong
(R201). -/
def udpOk (l : List Byte) (h : IpHead) : Bool :=
  let n := be l (h.off + 4) 2
  if be l (h.off + 6) 2 = 0 then !h.v6 else upperOk h (slice l h.off n)

/-- An IP address is multicast. -/
def ipMulticast (v6 : Bool) (a : Nat) : Bool :=
  if v6 then a / 2 ^ 120 == 0xFF else a / 0x10000000 == 0xE

/-- An IP address is multicast or broadcast. -/
def ipGroup (v6 : Bool) (a : Nat) : Bool := ipMulticast v6 a || (!v6 && a == 0xFFFFFFFF)

/-- An IP address is unspecified. -/
def ipZero (a : Nat) : Bool := a == 0

/-- An IP address is a loopback address. -/
def ipLoop (v6 : Bool) (a : Nat) : Bool := if v6 then a == 1 else a / 0x1000000 == 127

/-- An IPv4 or IPv6 packet around an upper-layer message, with DF = 1 and identification 0 (Table 10-6). -/
def ipPacket (v6 : Bool) (dscp ttl src dst proto : Nat) (m : List Byte) : List Byte :=
  if v6 then
    put8 4 (6 * 0x10000000 + dscp * 4 * 0x100000) ++ put8 2 m.length ++ put8 1 proto ++ put8 1 ttl ++
      put8 16 src ++ put8 16 dst ++ m
  else
    let a := put8 1 0x45 ++ put8 1 (dscp * 4) ++ put8 2 (20 + m.length) ++ put8 2 0 ++ put8 2 0x4000 ++
      put8 1 ttl ++ put8 1 proto
    let b := put8 4 src ++ put8 4 dst
    a ++ put8 2 (inetSum (a ++ b)) ++ b ++ m

/-- A UDP datagram with its checksum computed; 0x0000 is sent as 0xFFFF. -/
def udpDatagram (v6 : Bool) (src dst sport dport : Nat) (m : List Byte) : List Byte :=
  let head := put8 2 sport ++ put8 2 dport ++ put8 2 (8 + m.length)
  let c := upperSum v6 src dst 17 (head ++ put8 2 0 ++ m)
  head ++ put8 2 (if c = 0 then 0xFFFF else c) ++ m

/-- The EtherType of an IP version. -/
def ipType (v6 : Bool) : Nat := if v6 then 0x86DD else 0x0800

/-- A UDP frame. -/
def udpFrame (dstMac srcMac vid pcp : Nat) (v6 : Bool) (dscp ttl src dst sport dport : Nat)
    (m : List Byte) : List Byte :=
  padded (ethHead dstMac srcMac vid pcp (ipType v6) ++
    ipPacket v6 dscp ttl src dst 17 (udpDatagram v6 src dst sport dport m))

/-- R195: the UDP checksum after the datagram at `udp` has changed from `old` to `new`, corrected as RFC 1624
sets out: over IPv4 0x0000 stays, a result of 0x0000 is sent as 0xFFFF. -/
def fixUdp (old new : List Byte) (v6 : Bool) (udp : Nat) : List Byte :=
  let c := be old (udp + 6) 2
  if !v6 ∧ c = 0 then new
  else
    let body := fun (l : List Byte) => onesSum (l.drop udp) - c
    let k := fold16 ((0xFFFF - c) + (0xFFFF - fold16 (body old)) + body new)
    patch new (udp + 6) (put8 2 (if 0xFFFF - k = 0 then 0xFFFF else 0xFFFF - k))

end Sys2Proof.Machine
end

