-- ==== Sys2Proof/Machine/Links.lean ====
section
/-! DEFINITION. The master keys the Askair links carry (R408, R409). -/

namespace Sys2Proof.Machine

/-! ### Keys on a link (R408, R409) -/

/-- A KEY frame is sent to a child with the SEQ of its own count, and kept for a resend. -/
def sendKeyFrame (s : State) (k c id : Nat) (body : Nat → List Byte) : State :=
  let q := (peer s k c).keyTx
  let f : AskFrame := ⟨7, c, askSrc s k, q % 65536, body q⟩
  let s1 := updLink s k fun x => { x with sent := x.sent ++ [f] }
  updPeer s1 k c fun p => { p with keyTx := q + 1, has := id :: p.has.filter (· != id), again := some (0, id, body q) }

/-- The payload of an ADD frame (Table 20-3), its key wrapped under the link key with the associated data of
R409: link number, child slot and SEQ. -/
def keyBody (s : State) (k c : Nat) (lk : List Byte) (mk : MasterKey) (q : Nat) : List Byte :=
  let t := t96OfPc s mk.at'
  put8 1 0 ++ put8 1 mk.st ++ put8 2 (get s pKEY fKEY_ROT_CFG_PERIOD_MIN) ++ put8 4 mk.id ++
    put8 6 (t96Sec t) ++ put8 4 (t96Ns t) ++ put8 1 (scaleGen s) ++ put8 1 0 ++
    sivSeal lk [put8 1 k ++ put8 1 c ++ put8 2 (q % 65536)] mk.key

/-- The children of a link that hold a link key with KEYS = 1. -/
def keyPeers (s : State) (k : Nat) : List Nat :=
  if askDown s k then (List.range 4).filter fun c => (peer s k c).keys else []

/-- A key is sent to one child. -/
def sendKeyTo (s : State) (k c : Nat) (mk : MasterKey) : State :=
  match (peer s k c).key with
  | none => s
  | some lk => sendKeyFrame s k c mk.id (keyBody s k c lk mk)

/-- A key is sent to every downstream child with KEYS = 1. -/
def sendKeyDown (s : State) (mk : MasterKey) : State :=
  (List.range 4).foldl (fun s k => (keyPeers s k).foldl (fun s c => sendKeyTo s k c mk) s) s

/-- The payload of a PURGE frame: OP 1, and 32 zero bytes in place of a key, wrapped as R409 says of each
KEY frame. -/
def purgeBody (k c : Nat) (lk : List Byte) (q : Nat) : List Byte :=
  put8 1 1 ++ List.replicate 19 0 ++
    sivSeal lk [put8 1 k ++ put8 1 c ++ put8 2 (q % 65536)] (List.replicate 32 0)

/-- PURGE is sent to every downstream child with KEYS = 1. -/
def sendPurgeDown (s : State) : State :=
  (List.range 4).foldl (fun s k => (keyPeers s k).foldl (fun s c =>
    match (peer s k c).key with
    | none => s
    | some lk => updPeer (sendKeyFrame s k c 0 (purgeBody k c lk)) k c fun p => { p with has := [] }) s) s

end Sys2Proof.Machine
end

