-- ==== Sys2Proof/Machine/Book.lean ====
section
/-! DEFINITION. The launch unit's operations (spec/09): a Port die's clock, the readiness of its ports,
bookings and their refusals, untimed frames, completions, and what a lost link does. -/

namespace Sys2Proof.Machine

/-! ### Port dies and their ports -/

/-- A Port die's own state, by the die's number less 4. -/
def pd (s : State) (d : Nat) : PortDie := ix s.ports d PortDie.cold

/-- Change a Port die's own state. -/
def updPd (s : State) (d : Nat) (f : PortDie → PortDie) : State := { s with ports := upd s.ports d f }

/-- A port of a die. -/
def port (s : State) (d i : Nat) : Port := ix (pd s d).ports i Port.cold

/-- Change a port. -/
def updPort (s : State) (d i : Nat) (f : Port → Port) : State :=
  updPd s d fun x => { x with ports := upd x.ports i f }

/-- The phase count the die's replica reads now. -/
def nowP (s : State) (d : Nat) : Nat := ((s.clk.p.toNat : Int) + (replica s (2 + d)).ofs).toNat

/-- The die's replica has reached a phase count. -/
def advDie (s : State) (d n : Nat) : State := advP s ((n : Int) - (replica s (2 + d)).ofs).toNat

/-- The phase count that a PC64 target stands for on the die (R48). -/
def pOf (s : State) (d : Nat) (pc : PC64) : Nat :=
  ((nowP s d : Int) + pcDiff pc (BitVec.ofNat 64 (nowP s d))).toNat

/-- The T96 of a phase count of the die, in 2⁻¹⁶ ns, on the scale in force (R65). -/
def t96At (s : State) (n : Nat) : Nat := ((n : Int) + s.clk.tOfs).toNat

/-- Picoseconds in 2⁻¹⁶ ns. -/
def psUnits (i : Int) : Int := i * 8192 / 125

/-- The die's replica is LOCKED. -/
def replicaOk (s : State) (d : Nat) : Bool := (replica s (2 + d)).locked

/-- A port's mode (Table 09-1). -/
def portMode (s : State) (d i : Nat) : Nat := get s (pMAC d i) fMAC_CFG_MODE

/-- MAC.STAT.LINK of a port, whose domain is on and not in retention (R443). -/
def linkUp (s : State) (d i : Nat) : Bool :=
  pageOn s (pMAC d i) && !pageRetained s (pMAC d i) && flag s (pMAC d i) fMAC_STAT_LINK

/-- FEC runs on a port: FEC = 1 outside mode 1 (Table 09-1). -/
def fecOn (s : State) (d i : Nat) : Bool := flag s (pMAC d i) fMAC_CFG_FEC && decide (1 < portMode s d i)

/-- TSU.STAT.CAL_OK; it reads 0 while the TSU page is disabled (R182). -/
def calOk (s : State) (d i : Nat) : Bool :=
  pageOn s (pTSU d i) && pageEn s (pTSU d i) && flag s (pTSU d i) fTSU_STAT_CAL_OK

/-- The loopback mode of a port (R491). -/
def loopMode (s : State) (d i : Nat) : Nat :=
  if perturbed s (4 + d) then get s (pTST (4 + d)) fTST_LOOP_MODE / 4 ^ i % 4 else 0

/-- The launch unit works: powered and enabled. -/
def lchOn (s : State) (d : Nat) : Bool := pageOn s (pLCH d) && pageEn s (pLCH d)

/-- A port is timed-ready (R185, R491). -/
def timedReady (s : State) (d i : Nat) : Bool :=
  decide (portMode s d i ≠ 0) && linkUp s d i && !flag s (pMAC d i) fMAC_STAT_REMOTE_FAULT &&
    calOk s d i && lchOn s d && feat s 1 && loopMode s d i != 3

/-- LCH.STAT shows the timed-ready ports and the replica. -/
def showTimed (s : State) (d : Nat) : State :=
  let v := (List.range 8).foldl (fun v i => setBit v i (timedReady s d i)) 0
  putB (put s (pLCH d) fLCH_STAT_TIMED_OK v) (pLCH d) fLCH_STAT_REPLICA_OK (replicaOk s d)

/-- The station address of a port. -/
def stationMac (s : State) (d i : Nat) : Nat :=
  get s (pMAC d i) fMAC_ADDR_HI_ADDR * 0x100000000 + rdN s (pMAC d i) rMAC_ADDR_LO

/-! ### Tiles (R384–R386, R489) -/

/-- A tile failure of a die is counted (R386). -/
def tileFail (s : State) (d : Nat) : State :=
  let m := mono s
  let s1 := bump s (pAGE (4 + d)) rAGE_TILE_CNT
  updPd s1 d fun x => { x with tiles := m :: (x.tiles.filter fun t => m < t + 1000000000) }

/-- The die writes `n` tiles of a kind; an armed injection inverts a bit of them as far as it reaches
(R489). The answer says whether one of them is spoilt. -/
def writeTiles (s : State) (d kind n : Nat) : State × Bool :=
  match (pd s d).inj with
  | none => (s, false)
  | some j =>
    if j.kind ≠ kind ∨ n = 0 ∨ perturbed s (4 + d) = false then (s, false)
    else
      let k := min n j.left
      let s1 := bumpBy s (pTST (4 + d)) rTST_INJ_CNT k
      let s2 := updPd s1 d fun x => { x with inj := if j.left ≤ n then none else some { j with left := j.left - n } }
      (if j.left ≤ n then putB s2 (pTST (4 + d)) fTST_TILE_INJ_ARMED false else s2, true)

/-- The packet tiles of 256 bytes a frame takes. -/
def packetTiles (l : List Byte) : Nat := (l.length + 255) / 256

/-! ### The wire (R183, R184) -/

/-- The time of `n` octets on the wire in 2⁻¹⁶ ns, rounded up. -/
def octets (mode n : Nat) : Nat :=
  if mode = 1 then n * 524288 else if mode = 2 then (n * 524288 + 9) / 10 else (n * 524288 + 24) / 25

/-- The spacing of the start grid in 2⁻¹⁶ ns, rounded up (Table 09-1). -/
def gridStep (mode : Nat) : Nat := if mode = 1 then 1048576 else if mode = 2 then 209716 else 83887

/-- The inter-packet gap after `n` octets and the deficit idle count after it: 12 octets in mode 1, else as
Clause 46 counts it (R184). -/
def gapAfter (mode deficit n : Nat) : Nat × Nat :=
  let r := n % 4
  if mode = 1 ∨ r = 0 then (12, deficit)
  else if deficit + r ≤ 3 then (12 - r, deficit + r)
  else (16 - r, deficit + r - 4)

/-- The end of the occupancy of a frame of `len` bytes with FCS that starts at `l`, and the deficit. -/
def occupancy (s : State) (d i l len : Nat) : Nat × Nat :=
  let g := gapAfter (portMode s d i) (port s d i).deficit (8 + len)
  (l + octets (portMode s d i) (8 + len + g.1), g.2)

/-- The wait from an instant to the first grid position at or after it: the grid's phase is a fact of the
line, which the command brings; with FEC the grid is irregular (R184, log entry 10). -/
def gridWait (s : State) (d i grid : Nat) : Nat :=
  if fecOn s d i then grid else min grid (gridStep (portMode s d i) - 1)

/-- The end of the port's latest occupancy (R183). -/
def busyEnd (s : State) (d i : Nat) : Nat :=
  let p := port s d i
  p.occ.foldl (fun m o => max m o.2) (p.books.foldl (fun m b => max m b.stop) 0)

/-- An interval overlaps an occupancy of the port. -/
def busyIn (s : State) (d i l stop : Nat) : Bool :=
  let p := port s d i
  (p.occ.any fun o => decide (o.1 < stop) && decide (l < o.2)) ||
    p.books.any fun b => decide (b.l < stop) && decide (l < b.stop)

/-- LCH.MAX_HOLD and its fellows in 2⁻¹⁶ ns. -/
def lchNs (s : State) (d : Nat) (f : Fld) : Nat := get s (pLCH d) f * 65536

/-- R − L of a port: TX_DLY and EXT_TX_DLY in 2⁻¹⁶ ns (R179). -/
def txDly (s : State) (d i : Nat) : Int :=
  psUnits ((get s (pTSU d i) fTSU_TX_DLY_PS : Int) + signed 32 (rdN s (pTSU d i) rTSU_EXT_TX_DLY))

/-- RX_DLY and EXT_RX_DLY of a port in 2⁻¹⁶ ns (R179). -/
def rxDly (s : State) (d i : Nat) : Int :=
  psUnits ((get s (pTSU d i) fTSU_RX_DLY_PS : Int) + signed 32 (rdN s (pTSU d i) rTSU_EXT_RX_DLY))

/-- The release point R = L − TX_DLY − EXT_TX_DLY (R179). -/
def releaseAt (s : State) (d i l : Nat) : Nat := ((l : Int) - txDly s d i).toNat

/-- The class of LATE_POLICY of a builder (R189): its bit, none for a frame that is always dropped. -/
def Builder.policy : Builder → Option Nat
  | .answer _ _ => some 0
  | .nts _ _ _ => some 1
  | .ptp _ => some 2
  | .bridge _ _ _ _ _ => some 3
  | .soft f => if f.ring.isSome && !f.noRestamp then some 4 else none
  | .plain _ => none

/-! ### Completions (R198, R287) -/

/-- Change a DMA ring. -/
def updRing (s : State) (n : Nat) (f : Ring → Ring) : State := { s with rings := upd s.rings n f }

/-- A ring takes descriptors of a type: it is enabled and runs, and a host ring has Bus Master Enable (R421,
R427). -/
def ringTakes (s : State) (n ty : Nat) : Bool :=
  flag s pHIF (fHIF_RING_CFG_EN n) && flag s pHIF (fHIF_RING_STAT_RUN n) && get s pHIF (fHIF_RING_CFG_TYPE n) == ty &&
    (flag s pHIF (fHIF_RING_CFG_OWNER n) || flag s pHIF fHIF_STAT_BME)

/-- The completion of a software frame reaches the descriptor that carried it: the oldest of its TAG that
has none (R198, R423). -/
def ringDone (s : State) (n tag status l : Nat) : State :=
  let rec put : List (Desc × RingWork) → List (Desc × RingWork)
    | [] => []
    | (d, .tx t none) :: r => if t = tag then (d, .tx t (some (status, l))) :: r else (d, .tx t none) :: put r
    | x :: r => x :: put r
  updRing s n fun r => { r with work := put r.work }

/-- A software frame ends with its completion on the way to its ring; a cue frame's is on the way to the
cue queue. -/
def completeSoft (s : State) (d i : Nat) (f : SoftFrame) (status l : Nat) : State :=
  match f.ring with
  | some n => ringDone s n f.tag status l
  | none => { s with mck := { s.mck with cueDone := s.mck.cueDone ++ [(f.slot, f.gen, 8 * d + i, status)] } }

/-- The frame of a builder ends with a status: only software and cue frames report it. -/
def complete (s : State) (d i : Nat) (by' : Builder) (status l : Nat) : State :=
  match by' with
  | .soft f => completeSoft s d i f status l
  | _ => s

/-! ### Bookings (R183, R185) -/

/-- R185 and Table 09-5: why a booking is refused; 0 where it is granted. `now` is the instant the builder
reads. -/
def bookWhy (s : State) (d i now e grid : Nat) (at' : Bool) (len : Nat) : Nat :=
  let w := gridWait s d i grid
  let l := (if at' then e else max e (busyEnd s d i)) + w
  if !timedReady s d i || !replicaOk s d then 6
  else if at' ∧ e < now + lchNs s d fLCH_SW_LEAD_NS then 3
  else if 512 ≤ (port s d i).books.length then 5
  else if now + lchNs s d fLCH_MAX_HOLD_NS < l then 4
  else if at' && busyIn s d i l (occupancy s d i l len).1 then 5
  else 0

/-- The refusal falls under R185: all but too soon an instant and an occupied position. -/
def refusedR185 (s : State) (d i why : Nat) : Bool :=
  why == 6 || why == 4 || (why == 5 && decide (512 ≤ (port s d i).books.length))

/-- A refused booking: the counts of R185, R196 and R198, and the completion of a software or cue
frame. -/
def refuseBook (s : State) (d i : Nat) (by' : Builder) (why : Nat) : State :=
  let p := pLCH d
  let s1 := if refusedR185 s d i why then raise (bump s p rLCH_BOOK_REJ_CNT) p 2 else s
  match by' with
  | .bridge _ _ _ _ _ => bump s1 p rLCH_BR_DROP_CNT
  | .soft f => completeSoft (raise (bump s1 p rLCH_SW_REJ_CNT) p 5) d i f why 0
  | _ => s1

/-- Put a booking into launch order. -/
def insertBook (b : Booking) : List Booking → List Booking
  | [] => [b]
  | x :: t => if b.l < x.l then b :: x :: t else x :: insertBook b t

/-- A booking is granted at L (R183, R184). -/
def grantBook (s : State) (d i e grid : Nat) (at' : Bool) (by' : Builder) (len lead : Nat) (again : Bool) :
    State × Booking :=
  let l := (if at' then e else max e (busyEnd s d i)) + gridWait s d i grid
  let o := occupancy s d i l len
  let b : Booking := ⟨(pd s d).bookNo, by', len, lead, l, o.1, none, 0, false, false, again, false⟩
  let s1 := updPd s d fun x => { x with bookNo := x.bookNo + 1 }
  (updPort s1 d i fun p => { p with books := insertBook b p.books, deficit := o.2 }, b)

/-- A booking request is judged: granted, or refused with its code (R183, R185). -/
def book (s : State) (d i now e grid : Nat) (at' : Bool) (by' : Builder) (len lead : Nat) :
    State × Option Booking :=
  let why := bookWhy s d i now e grid at' len
  if why = 0 then
    let r := grantBook s d i e grid at' by' len lead false
    (r.1, some r.2)
  else (refuseBook s d i by' why, none)

/-- Change a booking by its number. -/
def updBook (s : State) (d i no : Nat) (f : Booking → Booking) : State :=
  updPort s d i fun p => { p with books := p.books.map fun b => if b.no = no then f b else b }

/-- A booking is no longer of its port. -/
def dropBook (s : State) (d i no : Nat) : State :=
  updPort s d i fun p => { p with books := p.books.filter fun b => b.no != no }

/-- The frames held on the die, shown in HOLD_LVL and HOLD_MAX. -/
def showHold (s : State) (d : Nat) : State :=
  let n := (pd s d).ports.foldl (fun n p => n + (p.books.filter fun b => b.held).length) 0
  maxF (put s (pLCH d) fLCH_HOLD_LVL_CNT (min n 4096)) (pLCH d) fLCH_HOLD_MAX_CNT n

/-- The finished frame of a booking is written to its packet tiles; its builder hands it over `post` ns
later. -/
def finishBook (s : State) (d i no : Nat) (frame : List Byte) (post : Nat) : State :=
  let t := writeTiles s d 0 (packetTiles frame)
  let at' := nowP s d + post * 65536
  updBook t.1 d i no fun b => { b with frame := some frame, ready := at', bad := b.bad || t.2 }

/-- The wire stays occupied from `l` to `stop` by a frame, or by idle in its place, whose booking leaves
the queue; occupancies that have ended are forgotten. -/
def keepWire (s : State) (d i l stop : Nat) : State :=
  let n := nowP s d
  updPort s d i fun p => { p with occ := (l, stop) :: p.occ.filter fun o => decide (n < o.2) }

/-! ### Untimed frames (R186) -/

/-- An untimed frame is submitted for a port, or discarded where the port has no mode or link or the launch
unit is disabled. -/
def untimed (s : State) (d i : Nat) (frame : List Byte) (soft : Option (Nat × Nat)) : State :=
  if portMode s d i = 0 ∨ linkUp s d i = false ∨ lchOn s d = false then
    let s1 := bump s (pLCH d) rLCH_LINK_DROP_CNT
    match soft with
    | none => s1
    | some (n, tag) => ringDone s1 n tag 8 0
  else
    let m := mono s
    updPort s d i fun p => { p with untimed := p.untimed ++ [⟨frame, m, soft, false⟩] }

/-- A frame leaves the port. -/
def emit (s : State) (d i : Nat) (frame : List Byte) (l : Option Nat) : State :=
  let s1 := updPort s d i fun p => { p with sent := some ⟨frame, l⟩ }
  add64 s1 (pMAC d i) rMAC_TX_FRAMES_LO rMAC_TX_FRAMES_HI 1

/-- The waiting untimed frame at the head of a port's queue leaves it. -/
def popUntimed (s : State) (d i : Nat) : State :=
  updPort s d i fun p => { p with untimed := p.untimed.drop 1 }

/-! ### Link losses (R190) -/

/-- One held frame is discarded for want of LINK. -/
def linkDrop (s : State) (d i : Nat) (b : Booking) : State :=
  complete (raise (bump s (pLCH d) rLCH_LINK_DROP_CNT) (pLCH d) 3) d i b.by' 8 b.l

/-- One waiting untimed frame is discarded for want of LINK. -/
def linkDropUntimed (s : State) (d : Nat) (u : Untimed) : State :=
  let s1 := raise (bump s (pLCH d) rLCH_LINK_DROP_CNT) (pLCH d) 3
  match u.soft with
  | none => s1
  | some (n, tag) => ringDone s1 n tag 8 0

/-- LINK_FLUSH (R190): every frame held for a port is discarded, with the bookings, the untimed frames
and the requests that wait. A starved frame's booking is discarded with the frame. -/
def flushPort (s : State) (d i : Nat) : State :=
  let p := port s d i
  let real := p.books.filter fun b => match b.by' with
    | .plain _ => false
    | _ => true
  let s1 := real.foldl (fun s b => linkDrop s d i b) s
  let s2 := p.asks.foldl (fun s a =>
    match a.by' with
    | .plain _ => s
    | b => complete (raise (bump s (pLCH d) rLCH_LINK_DROP_CNT) (pLCH d) 3) d i b 8 0) s1
  let s3 := p.untimed.foldl (fun s u => linkDropUntimed s d u) s2
  showHold (updPort s3 d i fun p =>
    { p with books := [], asks := [], untimed := [], occ := [], deficit := 0 }) d

end Sys2Proof.Machine
end

