-- ==== Sys2Proof/Machine/Ntp.lean ====
section
/-! DEFINITION. A Port die's view of the time (R211), the forms of its answers (R212, R258), NTP time, and
the fields of a plain answer and of a Kiss-o'-Death (spec/10). -/

namespace Sys2Proof.Machine

/-! ### The service view (R211) -/

/-- The die's view is stale: older than 250 ms, or absent. -/
def dieStale (s : State) (d : Nat) : Bool :=
  match (pd s d).view with
  | none => true
  | some v => decide (v.2 + 250000000 < mono s)

/-- The view a die has; before the first one it holds TIME_SET = 0 and nothing else. -/
def dieView (s : State) (d : Nat) : View :=
  match (pd s d).view with
  | some v => v.1
  | none =>
    { state := 0, primary := 7, lastPrimary := 7, unc := none, refAt := none, timeSet := false, utc := 0
      leapLo := 0, leapHi := 0, smear := false, smearOn := false, smearStart := 0, smearDir := false
      at' := 0, degrade := false, askStratum := 0, askRefid := 0, freq := 0, slot0 := 0
      slot0Delay := 0, slot0Acc := 0 }

/-- The servo state that the engines act on: a stale view acts as HOLDOVER unless it shows FREERUN. -/
def dieServo (s : State) (d : Nat) : Nat :=
  let v := dieView s d
  if dieStale s d ∧ v.state ≠ 0 then 3 else v.state

/-- UNC as the engines take it, in 10⁻⁹ ns: it grows by 1 ns for each second of a stale view. -/
def dieUnc (s : State) (d : Nat) : Option Nat :=
  match (pd s d).view with
  | none => none
  | some v => v.1.unc.map fun u =>
      u * 1000000000 + (if dieStale s d then mono s - v.2 else 0)

/-- The slot whose fields an answer carries: the primary, or the last primary in HOLDOVER, in SUSPECT and
where there is no primary; 7 where the view shows neither (R213, R214). -/
def dieSlot (s : State) (d : Nat) : Nat :=
  let v := dieView s d
  let held := dieServo s d == 3 || dieServo s d == 4
  if held && !dieStale s d then v.lastPrimary
  else if v.primary ≠ 7 then v.primary else v.lastPrimary

/-- U in the view. -/
def viewU (v : View) : Int := signed 16 (fTBE_UTC_OFFSET_SEC.of v.utc)

/-- UTC_OFFSET.VALID in the view. -/
def viewUtcOk (v : View) : Bool := fTBE_UTC_OFFSET_VALID.of v.utc == 1

/-- A schedule stands in the view. -/
def viewLeapOn (v : View) : Bool := fTBE_LEAP_SCHED_HI_VALID.of v.leapHi == 1

/-- TAI_SEC of the view's schedule. -/
def viewLeapSec (v : View) : Nat := v.leapLo + fTBE_LEAP_SCHED_HI_TAI_SEC.of v.leapHi * 0x100000000

/-- The view's schedule deletes a second. -/
def viewLeapDel (v : View) : Bool := fTBE_LEAP_SCHED_HI_DIR.of v.leapHi == 1

/-- The offset after a leap from the offset before it, and back. -/
def leapNext (del : Bool) (u : Int) : Int := if del then u - 1 else u + 1

/-- The offset before a leap from the offset after it. -/
def leapPrev (del : Bool) (u : Int) : Int := if del then u + 1 else u - 1

/-- The leap that a timestamp of the die may lie before or after: TAI_SEC, DIR and U before it. It stands in
the view, or the die has applied it itself on the scale in force (R55, R211). -/
def dieLeap (s : State) (d : Nat) : Option (Nat × Bool × Int) :=
  let v := dieView s d
  if viewLeapOn v then some (viewLeapSec v, viewLeapDel v, viewU v)
  else match (pd s d).leapDone with
    | some l => if l.2.2 = scaleGen s then some (l.1, l.2.1, leapPrev l.2.1 (viewU v)) else none
    | none => none

/-- The smear window a timestamp of the die may lie in: W_s, DIR and U before the leap (R58, R59). -/
def dieSmear (s : State) (d : Nat) : Option (Nat × Bool × Int) :=
  let v := dieView s d
  if v.smearOn then
    let leap := v.smearStart + (if v.smearDir then 43199 else 43201)
    let before := viewLeapOn v && viewLeapSec v == leap
    some (v.smearStart, v.smearDir, if before then viewU v else leapPrev v.smearDir (viewU v))
  else
    let w := smearFrom (viewLeapSec v) (viewLeapDel v)
    if viewLeapOn v && v.smear && feat s 2 && decide (v.at' < w * secU) then
      some (w, viewLeapDel v, viewU v)
    else none

/-- A T96 instant lies in a smear window. -/
def inSmear (w : Nat × Bool × Int) (t : Nat) : Bool :=
  decide (w.1 * secU ≤ t) && decide (t < (w.1 + smearLen w.2.1) * secU)

/-- A T96 instant lies in the last UTC day before the view's leap (R57). -/
def inLeapDay (v : View) (t : Nat) : Bool :=
  viewLeapOn v && decide (viewLeapSec v ≤ t96Sec t + (if viewLeapDel v then 86399 else 86401)) &&
    decide (t96Sec t < viewLeapSec v)

/-! ### NTP time (R51, R56, R58) -/

/-- The offset that R51 takes for a T96 instant: during the second before an insertion it is already the
offset after it (R56). -/
def ntpU (s : State) (d t : Nat) : Int :=
  match dieLeap s d with
  | none => viewU (dieView s d)
  | some l =>
    if l.1 ≤ t96Sec t ∨ (l.2.1 = false ∧ t96Sec t + 1 = l.1) then leapNext l.2.1 l.2.2 else l.2.2

/-- The 64-bit NTP timestamp of a T96 instant with the offset U (R51). -/
def ntpOf (u : Int) (t : Nat) : Nat :=
  unsign 64 (divRound (((t : Int) + (ntpEpoch - u) * secU) * 4294967296) secU)

/-- The smeared NTP timestamp of a T96 instant of a window (R58), rounded once (log entry 12). -/
def ntpSmeared (w : Nat × Bool × Int) (t : Nat) : Nat :=
  let len : Int := smearLen w.2.1
  let base := ((t : Int) + (ntpEpoch - w.2.2) * secU) * len
  let sigma : Int := (t : Int) - w.1 * secU
  unsign 64 (divRound ((if w.2.1 then base + sigma else base - sigma) * 4294967296) (len * secU))

/-- The NTP timestamp of a phase count of the die, with the scale in force (R218). -/
def ntpAt (s : State) (d n : Nat) : Nat :=
  let t := t96At s n
  match dieSmear s d with
  | some w => if inSmear w t then ntpSmeared w t else ntpOf (ntpU s d t) t
  | none => ntpOf (ntpU s d t) t

/-! ### Forms (R212, R258) -/

/-- The form of an NTP answer: 0 NORMAL, 1 DEGRADED, 2 ALARM, 3 SILENT (Table 10-4). -/
def ansForm (s : State) (d : Nat) : Nat :=
  let v := dieView s d
  if !v.timeSet || !viewUtcOk v then 3
  else if (pd s d).safe then (if flag s (pANS d) fANS_CFG_SAFE_MODE then 3 else 2)
  else if dieServo s d = 0 then 2
  else if v.degrade then 1
  else 0

/-- The form of the die's PTP engine: 0 SERVE, 1 SERVE with DEGRADE, 2 CLASS248, 3 QUIET (Table 12-5a). -/
def pteForm (s : State) (d : Nat) : Nat :=
  let v := dieView s d
  if !v.timeSet then 3
  else if (pd s d).safe then (if flag s (pPTE d) fPTE_CFG_SAFE_MODE then 2 else 3)
  else if v.degrade then 1
  else 0

/-- An enabled instance: bit EN of its entry (Table 12-11). -/
def instOn (s : State) (d n : Nat) : Bool :=
  match amGet? n (pd s d).ptp.insts with
  | some e => ix e 0 0 % 2 == 1
  | none => false

/-- What an instance holds beside its entry. -/
def Inst.cold : Inst :=
  { seqSync := 0, seqAnn := 0, lastSync := 0, lastAnn := 0, foreign := [], better := false
    until' := 0, passive := false }

/-- What an instance holds. -/
def instRun (s : State) (d n : Nat) : Inst := (amGet? n (pd s d).ptp.run).getD Inst.cold

/-- A field shows a form; a change sets an INT_RAW bit. -/
def showForm (s : State) (p : Pg) (f : Fld) (form bit : Nat) : State :=
  if get s p f = form then s else raise (put s p f form) p bit

/-- The ANS and PTE pages show the forms, the line and the view of now. -/
def showForms (s : State) (d : Nat) : State :=
  if !pageOn s (pANS d) then s
  else
    let a := pANS d
    let p := pPTE d
    let safe := (pd s d).safe
    let s1 := showForm (putB s a fANS_STAT_SAFE_LINE safe) a fANS_STAT_FORM (ansForm s d) 4
    let s2 := showForm (putB s1 p fPTE_STAT_SAFE_LINE safe) p fPTE_STAT_FORM (pteForm s d) 7
    let act := (List.range 32).foldl (fun v n =>
      setBit v n (instOn s d n && !(instRun s d n).passive && pteForm s d != 3)) 0
    let pas := (List.range 32).foldl (fun v n => setBit v n (instOn s d n && (instRun s d n).passive)) 0
    let s3 := wrN (wrN s2 p rPTE_INST_ACT act) p rPTE_INST_PASSIVE pas
    put s3 a fANS_STAT_PRIMARY (dieView s d).primary

/-- VIEW_STALE of both pages, and doubt ANS_VIEW while the ANS page is enabled (R211). -/
def showStale (s : State) (d : Nat) (b : Bool) : State :=
  let s1 := putB (putB s (pANS d) fANS_STAT_VIEW_STALE b) (pPTE d) fPTE_STAT_VIEW_STALE b
  doubt s1 (pANS d) 0 (b && pageEn s (pANS d))

/-- The leap that a new view shows as applied, which the die has applied itself at TAI_SEC. -/
def leapNow (s : State) (d : Nat) (v : View) : Option (Nat × Bool × Nat) :=
  let o := dieView s d
  if viewLeapOn o && !viewLeapOn v && decide (viewLeapSec o ≤ t96Sec (t96 s)) &&
      viewU v == leapNext (viewLeapDel o) (viewU o) then
    some (viewLeapSec o, viewLeapDel o, scaleGen s)
  else (pd s d).leapDone

/-- SERVICE_VIEW_RX (R211): the die takes the view of the latest servo update. -/
def execServiceViewRx (d : Fin 4) (s : State) : Host.Outcome State Fault Refusal :=
  if pageOn s (pANS d) then
    let v := s.dsc.view
    let done := leapNow s d v
    let m := mono s
    let s1 := updPd s d fun x => { x with view := some (v, m), leapDone := done }
    .next (showForms (showStale s1 d false) d)
  else .next s

/-- ANS_VIEW (R211): the view has become older than 250 ms. -/
def execAnsView (d : Fin 4) (s : State) : Host.Outcome State Fault Refusal :=
  match (pd s d).view with
  | none => .next s
  | some v =>
    if flag s (pANS d) fANS_STAT_VIEW_STALE || !pageOn s (pANS d) then .next s
    else
      let s1 := advMono s (v.2 + 250000001)
      .next (showForms (showStale (raise s1 (pANS d) 5) d true) d)

/-- SAFE_LINE_CHANGE (R212, R258): the engines of a die take the safe-state line, which signals safe state
also where nothing drives it. -/
def execSafeLineChange (d : Fin 4) (driven : Bool) (s : State) : Host.Outcome State Fault Refusal :=
  if pageOn s (pANS d) then
    let b := !driven || flag s pSAF fSAF_STAT_SAFE
    .next (showForms (updPd s d fun x => { x with safe := b }) d)
  else .next s

/-! ### The fields of an answer (R213–R218) -/

/-- The stratum of an answer in NORMAL or DEGRADED form (R213, Table 10-5). -/
def ansStratum (s : State) (d form : Nat) : Nat :=
  let k := dieSlot s d
  let v := dieView s d
  if k = 7 then 15
  else
    let f := rdN s (pANS d) rANS_STRATUM / 16 ^ k % 16
    let base := if f ≠ 0 then f else if k = 5 then v.askStratum else 1
    let held := dieServo s d == 3 || dieServo s d == 4
    min 15 (base + (if held then get s (pANS d) fANS_STRATUM_HOLD_ADD else 0) +
      (if form = 1 then get s (pANS d) fANS_STRATUM_DEG_ADD else 0))

/-- The reference ID of an answer in NORMAL or DEGRADED form (R214). -/
def ansRefid (s : State) (d : Nat) : Nat :=
  let k := dieSlot s d
  if k = 7 then rdN s (pANS d) rANS_ALARM_REFID
  else
    let id := rdN s (pANS d) (rANS_REFID k)
    if k = 5 ∧ id = 0 then (dieView s d).askRefid else id

/-- The root dispersion in 2⁻¹⁶ s (R215). -/
def rootDisp (s : State) (d : Nat) : Nat :=
  match dieUnc s d with
  | none => 0xFFFFFFFF
  | some u =>
    let a := (u + rdN s (pANS d) rANS_DISP_ADD * 1000000000) * 65536
    min 0xFFFFFFFF (max 1 ((a + (10 ^ 18 - 1)) / 10 ^ 18))

/-- The leap indicator for a T96 instant (R216). -/
def ansLeap (s : State) (d t : Nat) : Nat :=
  let v := dieView s d
  let w := smearFrom (viewLeapSec v) (viewLeapDel v)
  let smeared := match dieSmear s d with
    | some x => inSmear x t
    | none => false
  if !inLeapDay v t || smeared || (feat s 2 && v.smear && decide (t < w * secU)) then 0
  else if viewLeapDel v then 2 else 1

/-- Byte 0: LI, the request's VN and mode 4. -/
def ntpByte0 (q : NtpReq) (li : Nat) : List Byte := put8 1 (li * 64 + u8 q.body 0 / 8 % 8 * 8 + 4)

/-- The head of an answer to a request in a form, for the T96 of its L (Table 10-5, R217). -/
def ntpHead (s : State) (d : Nat) (q : NtpReq) (form t : Nat) : NtpHead :=
  let prec := put8 1 (get s (pANS d) fANS_NTP_CFG_PRECISION)
  let poll := slice q.body 2 1
  if form = 2 then
    { bytes := ntpByte0 q 3 ++ put8 1 16 ++ poll ++ prec ++ put8 4 0 ++ put8 4 0xFFFFFFFF ++
        put8 4 (rdN s (pANS d) rANS_ALARM_REFID)
      ref := none }
  else
    { bytes := ntpByte0 q (ansLeap s d t) ++ put8 1 (ansStratum s d form) ++ poll ++ prec ++
        put8 4 (rdN s (pANS d) rANS_ROOT_DELAY) ++ put8 4 (rootDisp s d) ++ put8 4 (ansRefid s d)
      ref := (dieView s d).refAt }

/-- The 48 bytes of an answer that leaves at L, a phase count (R218, Table 10-6). -/
def ntpBody (s : State) (d : Nat) (q : NtpReq) (h : NtpHead) (l : Nat) : List Byte :=
  h.bytes ++ (match h.ref with
    | some r => put8 8 (ntpAt s d r)
    | none => put8 8 0) ++ slice q.body 40 8 ++
    put8 8 (ntpAt s d (pOf s d q.stamp)) ++ put8 8 (ntpAt s d l)

/-- A frame that answers a request with a UDP payload (Table 10-6). -/
def ntpFrame (s : State) (d i : Nat) (q : NtpReq) (m : List Byte) : List Byte :=
  udpFrame q.mac (stationMac s d i) q.vid q.pcp q.v6 (get s (pANS d) fANS_NTP_CFG_DSCP)
    (orD (get s (pANS d) fANS_NTP_CFG_TTL) 1) q.dst q.src 123 q.sport m

/-- The UDP payload of a Kiss-o'-Death with a reference ID (R223, R235). -/
def kodBody (s : State) (d : Nat) (q : NtpReq) (refid : Nat) : List Byte :=
  ntpByte0 q 3 ++ put8 1 0 ++ put8 1 (max (u8 q.body 2) (get s (pTBL d) fTBL_KOD_POLL)) ++
    put8 1 (get s (pANS d) fANS_NTP_CFG_PRECISION) ++ put8 8 0 ++ put8 4 refid ++ put8 8 0 ++
    slice q.body 40 8 ++ put8 16 0

/-- The length on the wire, FCS included, of a UDP payload of `n` bytes to a request's sender. -/
def ntpLen (q : NtpReq) (n : Nat) : Nat :=
  max 64 (14 + (if q.vid = 0 then 0 else 4) + (if q.v6 then 40 else 20) + 8 + n + 4)

end Sys2Proof.Machine
end

