-- ==== Sys2Proof/Machine/Nts.lean ====
section
/-! DEFINITION. Network Time Security at a Port die (spec/11): extension fields, cookies, the checks of an
NTS request, and the extension fields of its answer. -/

namespace Sys2Proof.Machine

/-! ### Extension fields (RFC 7822, log entry 13) -/

/-- An extension field: its type, where it stands, and its length with its header. -/
structure ExtField where
  ty : Nat
  off : Nat
  len : Nat
  deriving DecidableEq, Repr

/-- The chain of extension fields from an offset to the end of the bytes, none where it is not well formed:
each length is a multiple of 4, at least `least`, and the last field ends with the bytes. -/
def extChain (l : List Byte) (least : Nat) : Nat → Nat → Option (List ExtField)
  | 0, off => if off = l.length then some [] else none
  | n + 1, off =>
    if off = l.length then some []
    else
      let len := be l (off + 2) 2
      if l.length < off + 4 ∨ len < least ∨ len % 4 ≠ 0 ∨ l.length < off + len then none
      else (extChain l least n (off + len)).map fun t => ⟨be l off 2, off, len⟩ :: t

/-- The extension fields of an NTP payload. -/
def ntpExts (l : List Byte) : Option (List ExtField) := extChain l 16 (l.length / 16) 48

/-- The body of a field. -/
def ExtField.body (f : ExtField) (l : List Byte) : List Byte := slice l (f.off + 4) (f.len - 4)

/-- A payload is an NTS request: a well-formed chain with a cookie (Table 10-2 row 8). -/
def isNts (l : List Byte) : Bool :=
  match ntpExts l with
  | none => false
  | some fs => fs.any fun f => f.ty == 0x0204

/-! ### Cookies (R232, Tables 11-1 and 11-3) -/

/-- The length of a C2S or S2C key under an AEAD ID. -/
def keyLen (aead : Nat) : Nat := if aead = 16 then 48 else if aead = 17 then 64 else 32

/-- The length of a cookie under an AEAD ID. -/
def cookieLen (aead : Nat) : Nat := if aead = 16 then 136 else if aead = 17 then 168 else 104

/-- An AEAD ID of Table 11-1. -/
def aeadOk (aead : Nat) : Bool := [15, 16, 17].contains aead

/-- A cookie under a master key with a nonce. -/
def makeCookie (mk : MasterKey) (nonce aead : Nat) (c2s s2c : List Byte) : List Byte :=
  let id := put8 4 mk.id
  let n := put8 16 nonce
  id ++ n ++ sivSeal mk.key [id, n] (put8 2 aead ++ c2s ++ s2c) ++ [0, 0]

/-- The AEAD ID and keys in a cookie, none where it fails row 4 of Table 11-4. -/
def openCookie (mk : MasterKey) (c : List Byte) : Option (Nat × List Byte × List Byte) :=
  match sivOpen mk.key [slice c 0 4, slice c 4 16] (slice c 20 (c.length - 22)) with
  | none => none
  | some m =>
    let aead := be m 0 2
    let k := keyLen aead
    if aeadOk aead ∧ c.length = cookieLen aead ∧ be c (c.length - 2) 2 = 0 then
      some (aead, slice m 2 k, slice m (2 + k) k)
    else none

/-- The key a die mints under: the newest one it holds whose activation instant has passed (R239). -/
def mintKey (s : State) (d : Nat) : Option MasterKey :=
  ((pd s d).keys.filter fun k => decide (pcDiff k.at' (BitVec.ofNat 64 (nowP s d)) ≤ 0)).getLast?

/-- The die's nonce generator can serve: seeded, and not due for a reseed that cannot come (R232, R246). -/
def nonceOk (s : State) (d : Nat) : Bool :=
  (pd s d).seeded && (decide ((pd s d).nonces < 4294967296) || flag s pKEY fKEY_STAT_DRBG_OK)

/-- The die draws a nonce of 16 bytes, a free value (log entry 3); after 2³² nonces the generator has been
reseeded. -/
def drawNonce (s : State) (d : Nat) : State × Nat :=
  (drawn (updPd s d fun x =>
    { x with nonces := if x.nonces < 4294967296 then x.nonces + 1 else 1 }), freeVal s 30 % 2 ^ 128)

/-! ### The checks of a request (Table 11-4) -/

/-- The parts of an NTS request: the Unique Identifier, the cookie, the length of its field, where the
authenticator stands, its nonce and ciphertext, and the lengths of the placeholders outside it. -/
structure NtsParts where
  uid : List Byte
  cookie : List Byte
  cookieField : Nat
  auth : Nat
  nonce : List Byte
  ct : List Byte
  places : List Nat
  deriving DecidableEq, Repr

/-- A length rounded up to a multiple of 4. -/
def pad4 (n : Nat) : Nat := (n + 3) / 4 * 4

/-- Row 2 of Table 11-4: the parts of a well-formed request. -/
def ntsParts (l : List Byte) : Option NtsParts :=
  match ntpExts l with
  | none => none
  | some fs =>
    let places := (fs.filter fun f => f.ty == 0x0304).map ExtField.len
    match fs.find? (fun f => f.ty == 0x0104), fs.filter (fun f => f.ty == 0x0204), fs.getLast? with
    | some u, [c], some a =>
      let n := be l (a.off + 4) 2
      let m := be l (a.off + 6) 2
      let uid := u.body l
      if a.ty = 0x0404 ∧ (fs.filter fun f => f.ty == 0x0404).length = 1 ∧
          32 ≤ uid.length ∧ uid.length ≤ 256 ∧ [104, 136, 168].contains (c.len - 4) ∧
          16 ≤ n ∧ n ≤ 64 ∧ 16 ≤ m ∧ m ≤ 1024 ∧ 8 + pad4 n + pad4 m ≤ a.len then
        some { uid := uid, cookie := c.body l, cookieField := c.len, auth := a.off
               nonce := slice l (a.off + 8) n, ct := slice l (a.off + 8 + pad4 n) m, places := places }
      else none
    | _, _, _ => none

/-- What Table 11-4 makes of a request: rows 1 to 5, or the work for an answer with the number of
placeholders that are ignored. -/
inductive NtsVerdict where
  | noKey | format | cookieKey | cookieAuth | authFail
  | ok (w : NtsWork) (ignored : Nat)
  deriving DecidableEq, Repr

/-- The placeholders in the plaintext of an authenticator (R233). -/
def innerPlaces (m : List Byte) : List Nat :=
  match extChain m 4 (m.length / 4) 0 with
  | none => []
  | some fs => (fs.filter fun f => f.ty == 0x0304).map ExtField.len

/-- Table 11-4 and R234 for the body of a request at a die; a disabled SIV page has no key ready (log entry 15). -/
def ntsJudge (s : State) (d : Nat) (l : List Byte) : NtsVerdict :=
  if !pageEn s (pSIV d) || !flag s (pSIV d) fSIV_STAT_KEYS_READY || !nonceOk s d then .noKey
  else match ntsParts l with
    | none => .format
    | some p =>
      match (pd s d).keys.find? fun k => k.id == be p.cookie 0 4 with
      | none => .cookieKey
      | some mk =>
        match openCookie mk p.cookie with
        | none => .cookieAuth
        | some (aead, c2s, s2c) =>
          match sivOpen c2s [l.take p.auth, p.nonce] p.ct with
          | none => .authFail
          | some m =>
            if m ≠ [] ∧ !flag s (pSIV d) fSIV_CFG_ENC_EF then .format
            else
              let all := p.places ++ innerPlaces m
              let n := (all.filter fun x => x == p.cookieField).length
              .ok { aead := aead, c2s := c2s, s2c := s2c, uid := p.uid, cookies := []
                    k := 1 + min n (get s (pSIV d) fSIV_CFG_MAX_PH) } (all.length - n)

/-! ### The answer (R235–R237, Table 11-5) -/

/-- An extension field. -/
def extField (ty : Nat) (body : List Byte) : List Byte := put8 2 ty ++ put8 2 (body.length + 4) ++ body

/-- The length of the UDP payload of an answer with its cookies. -/
def ntsLen (w : NtsWork) : Nat := 48 + 4 + w.uid.length + 40 + w.k * (cookieLen w.aead + 4)

/-- The lead of an answer with k cookies, in ns (R237). -/
def ntsLead (s : State) (d k : Nat) : Nat := get s (pANS d) fANS_LAUNCH_LEAD_NTS + 120 * (k - 1)

/-- `k` cookie fields are minted under a key (R234, R236). -/
def mintFields (d : Nat) (mk : MasterKey) (w : NtsWork) : Nat → State → State × List Byte
  | 0, s => (s, [])
  | k + 1, s =>
    let r := drawNonce s d
    let c := extField 0x0204 (makeCookie mk r.2 w.aead w.c2s w.s2c)
    let t := mintFields d mk w k r.1
    (t.1, c ++ t.2)

/-- The payload of an answer that leaves at L: header, identifier and authenticator with a fresh nonce
(Table 11-5). -/
def ntsBody (s : State) (d : Nat) (q : NtpReq) (h : NtpHead) (w : NtsWork) (l nonce : Nat) : List Byte :=
  let clear := ntpBody s d q h l ++ extField 0x0104 w.uid
  let n := put8 16 nonce
  let ct := sivSeal w.s2c [clear, n] w.cookies
  clear ++ extField 0x0404 (put8 2 16 ++ put8 2 ct.length ++ n ++ ct)

/-- The payload of an NTS NAK (R235). -/
def nakBody (s : State) (d : Nat) (q : NtpReq) : List Byte :=
  kodBody s d q 0x4E54534E ++ (match ntsParts q.body with
    | some p => extField 0x0104 p.uid
    | none => [])

end Sys2Proof.Machine
end

