-- ==== Sys2Proof/Machine/Keys.lean ====
section
/-! DEFINITION. The key island (R229–R231, R239–R247): master keys, their activation and erasure, the
Crossing to the Port dies and the links, minting for NTS-KE, and the random bit generator. -/

namespace Sys2Proof.Machine

/-! ### What the registers show -/

/-- Change the key island. -/
def updKisl (s : State) (f : KeyIsland → KeyIsland) : State := { s with kisl := f s.kisl }

/-- The active key: the newest in state 2. -/
def activeKey (s : State) : Option MasterKey := (s.kisl.keys.filter fun k => k.st == 2).getLast?

/-- The staged key. -/
def stagedKey (s : State) : Option MasterKey := (s.kisl.keys.filter fun k => k.st == 1).getLast?

/-- The key island serves: HK is on. -/
def keyOn (s : State) : Bool := pageOn s pKEY

/-- The DRBG runs (R246). -/
def drbgOk (s : State) : Bool := flag s pKEY fKEY_STAT_DRBG_OK

/-- KEY.CFG.SRC = UPSTREAM. -/
def keyUpstream (s : State) : Bool := flag s pKEY fKEY_CFG_SRC

/-- PdE of a Port die is on. -/
def pdeIsOn (s : State) (d : Nat) : Bool := domOn s (3 * d + 2)

/-- A die holds a key. -/
def dieHas (s : State) (d id : Nat) : Bool := (pd s d).keys.any fun k => k.id == id

/-- Every child of a downstream link that is UP holds a key. -/
def linkHas (s : State) (k id : Nat) : Bool :=
  askDown s k && askUp s k && (List.range 4).all fun c => !(peer s k c).up || (peer s k c).has.contains id

/-- A downstream link is up and has a child without the key. -/
def linkLacks (s : State) (k id : Nat) : Bool := askDown s k && askUp s k && !linkHas s k id

/-- An instant given as a PC64 lies at least a second back. -/
def secondPast (s : State) (at' : PC64) : Bool := decide (pcDiff at' (pcNow s) ≤ -secU)

/-- KEY_DIST stands (R244): a die with PdE on or an up downstream link lacks the active key more than 1 s
after A. -/
def distStands (s : State) : Bool :=
  match activeKey s with
  | none => false
  | some k => secondPast s k.at' &&
      (((List.range 4).any fun d => pdeIsOn s d && !dieHas s d k.id) || (List.range 4).any fun j => linkLacks s j k.id)

/-- NTS_KEYS stands on a die (R244). -/
def ntsKeysStands (s : State) (d : Nat) : Bool :=
  pdeIsOn s d &&
    ((match (pd s d).lackFrom with
      | none => false
      | some t => decide (t + 10000000 ≤ mono s)) ||
    match activeKey s with
      | none => false
      | some k => secondPast s k.at' && !dieHas s d k.id)

/-- NTS_KEYS falls where it no longer stands. -/
def easeNtsKeys (s : State) (d : Nat) : State :=
  if doubts s (pSIV d) 0 && !ntsKeysStands s d then doubt s (pSIV d) 0 false else s

/-- The registers and doubts that follow the keystore and what the dies and links hold. -/
def showKeys (s : State) : State :=
  let a := activeKey s
  let g := stagedKey s
  let p := pKEY
  let s1 := put s p fKEY_STAT_N_KEYS s.kisl.keys.length
  let s2 := putB (putB s1 p fKEY_STAT_STAGED g.isSome) p fKEY_STAT_ACTIVE a.isSome
  let s3 := wrN (wrN s2 p rKEY_CUR_ID ((a.map MasterKey.id).getD 0)) p rKEY_STAGED_ID ((g.map MasterKey.id).getD 0)
  let at' := match g, a with
    | some k, _ => k.at'.toNat
    | none, some k => k.at'.toNat
    | none, none => 0
  let s4 := wr64 s3 p rKEY_ACT_AT_LO rKEY_ACT_AT_HI at'
  let id := match g, a with
    | some k, _ => some k.id
    | none, some k => some k.id
    | none, none => none
  let dies := (List.range 4).foldl (fun v d => setBit v d (id.any (dieHas s d))) 0
  let links := (List.range 4).foldl (fun v k => setBit v k (id.any (linkHas s k))) 0
  let s5 := put (put s4 p fKEY_DIST_STAT_DIE dies) p fKEY_DIST_STAT_LINK links
  let s6 := doubt s5 p 1 (feat s 0 && a.isNone)
  let s7 := if doubts s6 p 2 && !distStands s6 then doubt s6 p 2 false else s6
  (List.range 4).foldl easeNtsKeys s7

/-- KEY.NEXT_GEN as it reads (Table 11-9). -/
def nextGen (s : State) : Nat :=
  if keyUpstream s || !flag s pKEY fKEY_CFG_ROT_EN then 0
  else (s.kisl.genAt + get s pKEY fKEY_ROT_CFG_PERIOD_MIN * 60000000000 - mono s) / 1000000000

/-- SIV.STAT, CUR_ID and KIDn of a die. -/
def showSiv (s : State) (d : Nat) : State :=
  let p := pSIV d
  let ks := (pd s d).keys
  let s1 := put s p fSIV_STAT_N_KEYS ks.length
  let v := (List.range 5).foldl (fun v n => v + (ks[n]?.map MasterKey.st).getD 0 * 4 ^ n) 0
  let s2 := put s1 p fSIV_STAT_KSTATE v
  let cur := (ks.filter fun k => k.st == 2).getLast?
  let s3 := wrN s2 p rSIV_CUR_ID ((cur.map MasterKey.id).getD 0)
  (List.range 5).foldl (fun s n => wrN s p (rSIV_KID n) ((ks[n]?.map MasterKey.id).getD 0)) s3

/-- KEYS_READY of a die rises or falls (R244). -/
def keysReady (s : State) (d : Nat) (b : Bool) : State :=
  let p := pSIV d
  let was := flag s p fSIV_STAT_KEYS_READY
  let m := mono s
  let s1 := putB s p fSIV_STAT_KEYS_READY b
  let s2 := updPd s1 d fun x =>
    { x with lackFrom := if b then none else if x.lackFrom.isNone then some m else x.lackFrom }
  easeNtsKeys (raiseIf s2 (was && !b) p 4) d

/-! ### The Crossing (R243, R244) -/

/-- A transfer with keys is on its way to a die. -/
def crossSend (s : State) (d : Nat) (ks : List MasterKey) : State :=
  let q := ix s.kisl.seq d 0
  updKisl s fun x => { x with seq := x.seq.set d (q + 1), cross := x.cross ++ [⟨d, q, ks, 0⟩] }

/-- Every key the island holds is sent to a die with PdE on. -/
def crossAll (s : State) (d : Nat) : State :=
  if pdeIsOn s d && keyOn s && s.kisl.keys ≠ [] then crossSend s d s.kisl.keys else s

/-- A die stores a key of a transfer. -/
def storeKey (s : State) (d : Nat) (k : MasterKey) : State :=
  if dieHas s d k.id then s
  else raise (updPd s d fun x => { x with keys := x.keys ++ [k] }) (pSIV d) 0

/-- A key in the state that the island's keys give it. -/
def stateAs (ks : List MasterKey) (k : MasterKey) : MasterKey :=
  match ks.find? fun j => j.id == k.id with
  | some j => { k with st := j.st }
  | none => k

/-- After its store has changed, a die's keys take the states the island gives them. -/
def dieStates (s : State) (d : Nat) : State :=
  showSiv (updPd s d fun x => { x with keys := x.keys.map (stateAs s.kisl.keys) }) d

/-- CROSSING_RX (R243, R244): the oldest transfer for a die arrives. `ok` says that its synthetic IV is right
and its sequence number is the next one; a refused transfer stays to be sent again. -/
def execCrossingRx (d : Fin 4) (ok : Bool) (s : State) : Host.Outcome State Fault Refusal :=
  match s.kisl.cross.find? (fun m => m.die == d.val) with
  | none => .next s
  | some m =>
    if !pdeIsOn s d then .next s
    else if !ok || m.seq != (pd s d).crossSeq then
      let t := mono s
      let s1 := updPd (raise (bump s (pSIV d) rSIV_CROSS_ERR_CNT) (pSIV d) 3) d fun x => { x with crossAt := t }
      .next (doubt s1 (pSIV d) 1 true)
    else
      let s1 := updKisl s fun x => { x with cross := x.cross.eraseP fun y => y.die == d.val }
      let s2 := updPd s1 d fun x => { x with crossSeq := x.crossSeq + 1 }
      let s3 := dieStates (m.keys.foldl (fun s k => storeKey s d k) s2) d
      let all := s3.kisl.keys.all fun k => dieHas s3 d k.id
      .next (showKeys (if all && (pd s3 d).keys ≠ [] then keysReady s3 d true else s3))

/-- A transfer is given up after three resends; the numbers of those that wait behind it close up. -/
def crossGiveUp (s : State) (d : Nat) : State :=
  let s1 := updKisl s fun x =>
    { x with
      cross := (x.cross.eraseP fun y => y.die == d).map fun y => if y.die = d then { y with seq := y.seq - 1 } else y
      seq := x.seq.modify d (· - 1) }
  raise (bump s1 pKEY rKEY_DIST_FAIL_CNT) pKEY 3

/-- A KEY frame that a child has not acknowledged is sent again, up to three times (R409). -/
def resendKeyFrame (s : State) (k c : Nat) : State :=
  match (peer s k c).again with
  | none => s
  | some (n, id, body) =>
    if n < 3 then
      let q := (peer s k c).keyTx - 1
      let s1 := updLink s k fun x => { x with sent := x.sent ++ [⟨7, c, askSrc s k, q % 65536, body⟩] }
      updPeer s1 k c fun p => { p with again := some (n + 1, id, body) }
    else
      let s1 := updPeer s k c fun p => { p with again := none, has := p.has.filter (· != id) }
      showKeys (raise (bump s1 pKEY rKEY_DIST_FAIL_CNT) pKEY 3)

/-- CROSSING_RESEND (R243, R409): 10 µs have passed without an acknowledgement from a die (targets 0–3) or from
the child of a link (4 + 4k + c). -/
def execCrossingResend (t : Fin 20) (s : State) : Host.Outcome State Fault Refusal :=
  if t.val < 4 then
    match s.kisl.cross.find? (fun m => m.die == t.val) with
    | none => .next s
    | some m =>
      .next (if m.tries < 3 then
          updKisl s fun x => { x with cross := x.cross.map fun y =>
            if y.die = t.val ∧ y.seq = m.seq then { y with tries := y.tries + 1 } else y }
        else crossGiveUp s t)
  else .next (resendKeyFrame s ((t.val - 4) / 4) ((t.val - 4) % 4))

/-- SIV_CROSS_END (R243): SIV_CROSS falls 1 s after the transfer that raised it. -/
def execSivCrossEnd (d : Fin 4) (s : State) : Host.Outcome State Fault Refusal :=
  if doubts s (pSIV d) 1 then .next (doubt (advMono s ((pd s d).crossAt + 1000000000)) (pSIV d) 1 false)
  else .next s

/-- A fresh Crossing key is derived as a die's PdE turns on; the die's nonce generator is reseeded where the
DRBG runs, and every key is sent (R232, R243, R244). -/
def crossUp (s : State) (d : Nat) : State :=
  let ok := drbgOk s && keyOn s
  let m := mono s
  let s1 := updKisl s fun x =>
    { x with seq := x.seq.set d 0, cross := x.cross.filter fun y => y.die != d }
  let s2 := updPd s1 d fun x =>
    { x with keys := [], crossSeq := 0, seeded := ok, nonces := 0, lackFrom := some m }
  showKeys (crossAll (putB (showSiv s2 d) (pSIV d) fSIV_STAT_CROSS_UP (keyOn s)) d)

/-- A die's SIV key store is emptied (R244). -/
def emptySiv (s : State) (d : Nat) : State :=
  let s1 := updKisl s fun x =>
    { x with seq := x.seq.set d (pd s d).crossSeq, cross := x.cross.filter fun y => y.die != d }
  keysReady (showSiv (updPd s1 d fun x => { x with keys := [] }) d) d false

/-- An ISLAND reset of Port island 2: the store is emptied and every key sent again (R244). -/
def refillSiv (s : State) (d : Nat) : State := showKeys (crossAll (emptySiv s d) d)

/-! ### Activation and erasure (R241) -/

/-- A key is erased from a die. -/
def dieErase (s : State) (d id : Nat) : State :=
  if dieHas s d id then
    let s1 := showSiv (updPd s d fun x => { x with keys := x.keys.filter fun k => k.id != id }) d
    let s2 := raise s1 (pSIV d) 2
    if (pd s2 d).keys = [] then keysReady s2 d false else s2
  else s

/-- The oldest key is erased everywhere. -/
def eraseOldest (s : State) : State :=
  match s.kisl.keys with
  | [] => s
  | k :: t =>
    let s1 := raise (updKisl s fun x => { x with keys := t }) pKEY 2
    (List.range 4).foldl (fun s d => dieErase s d k.id) s1

/-- The oldest keys are erased until RETAIN.COUNT remain. -/
def trimKeys (s : State) : State :=
  (List.range (s.kisl.keys.length - get s pKEY fKEY_RETAIN_COUNT)).foldl (fun s _ => eraseOldest s) s

/-- A key becomes active on a die that holds it. -/
def dieActivate (s : State) (d id : Nat) : State :=
  if dieHas s d id then raise (dieStates s d) (pSIV d) 1 else dieStates s d

/-- A key becomes active: the keys before it are retained, the oldest are erased. -/
def activate (s : State) (id : Nat) : State :=
  let s1 := raise (updKisl s fun x => { x with keys := x.keys.map fun k =>
    if k.id = id then { k with st := 2 } else if k.st = 2 then { k with st := 3 } else k }) pKEY 1
  let s2 := (List.range 4).foldl (fun s d => dieActivate s d id) s1
  showKeys (trimKeys s2)

/-- KEY_ACTIVATE (R241): at A the staged key becomes active. -/
def execKeyActivate (s : State) : Host.Outcome State Fault Refusal :=
  match stagedKey s with
  | none => .next s
  | some k => if keyOn s then .next (activate (advPc s k.at') k.id) else .next s

/-! ### Generation (R239, R240) -/

/-- A key joins the keystore and is sent to every die with PdE on and to the links; one whose A has been
reached is active at once. -/
def addKey (s : State) (k : MasterKey) (now : Bool) : State :=
  let s1 := updKisl s fun x => { x with keys := x.keys ++ [{ k with st := 1 }] }
  let s2 := if now then activate s1 k.id else showKeys s1
  match s2.kisl.keys.find? (fun x => x.id == k.id) with
  | none => s2
  | some j =>
    let s3 := (List.range 4).foldl (fun s d => if pdeIsOn s d then crossSend s d [j] else s) s2
    showKeys (sendKeyDown s3 j)

/-- KEY_GEN's effect: the DRBG draws a key, a free value, with the next ID, or a drawn one while the keystore is
empty (R239). -/
def generate (s : State) : State :=
  let key := bytesBE 32 (freeVal s 33)
  let id := match s.kisl.keys.getLast? with
    | none => freeVal s 37 % 2 ^ 32
    | some k => (k.id + 1) % 2 ^ 32
  let now := (activeKey s).isNone
  let a := if now then pcNow s else pcNow s + BitVec.ofNat 64 (orD (get s pKEY fKEY_ROT_CFG_ACT_DELAY) 1 * secU)
  let m := mono s
  let s1 := updKisl (drawn s) fun x => { x with genAt := m, postponed := false }
  addKey (raise (bump s1 pKEY rKEY_GEN_CNT) pKEY 0) ⟨id, key, 1, a⟩ now

/-- The key island may generate keys of its own (R240). -/
def mayGenerate (s : State) : Bool := keyOn s && !keyUpstream s && feat s 0 && pageEn s pKEY

/-- A key is generated at once while no key is active; DRBG_OK = 0 postpones it. -/
def generateIfNone (s : State) : State :=
  if mayGenerate s && (activeKey s).isNone then
    (if drbgOk s then generate s else updKisl s fun x => { x with postponed := true })
  else s

/-- KEY_GEN (R240): a key is generated at once when none is active, else on its period. -/
def execKeyGen (s : State) : Host.Outcome State Fault Refusal :=
  if !mayGenerate s then .next s
  else if (activeKey s).isNone then .next (generateIfNone s)
  else if !flag s pKEY fKEY_CFG_ROT_EN || (stagedKey s).isSome then .next s
  else
    let s1 := advMono s (s.kisl.genAt + get s pKEY fKEY_ROT_CFG_PERIOD_MIN * 60000000000)
    .next (if drbgOk s1 then generate s1 else updKisl s1 fun x => { x with postponed := true })

/-- ROTATE (R240–R242, R246): discarded while a key is staged, under SRC = UPSTREAM, with the DRBG stopped or
without feature bit 0. -/
def rotate (s : State) : State :=
  if keyUpstream s || !drbgOk s || (stagedKey s).isSome || !feat s 0 then s else generate s

/-- ROTATE: a write of KEY.CTRL.ROTATE. -/
def execRotate (r : Requester) (s : State) : Host.Outcome State Fault Refusal :=
  .next (onWrite s r pKEY rotate)

/-- Every key is erased on the island and on every die. -/
def eraseAll (s : State) : State :=
  (List.range s.kisl.keys.length).foldl (fun s _ => eraseOldest s)
    (updKisl s fun x => { x with cross := [] , seq := (List.range 4).map fun d => (pd s d).crossSeq })

/-- PURGE (R242, R246). -/
def purge (s : State) : State :=
  if keyUpstream s || !drbgOk s then s
  else
    let s1 := sendPurgeDown (eraseAll s)
    showKeys (if feat s 0 then generate s1 else s1)

/-- PURGE: a write of KEY.CTRL.PURGE. -/
def execPurge (r : Requester) (s : State) : Host.Outcome State Fault Refusal :=
  .next (onWrite s r pKEY purge)

/-! ### Doubts (R244, R245) -/

/-- A second after a key's activation, a die or link that still lacks it raises KEY_DIST. -/
def distDoubt (s : State) (k : MasterKey) : State :=
  let s1 := advPc s (k.at' + BitVec.ofNat 64 secU)
  if distStands s1 then doubt s1 pKEY 2 true else s

/-- KEY_DIST (R244): 1 s after A a die or link lacks the active key. -/
def execKeyDist (s : State) : Host.Outcome State Fault Refusal :=
  match activeKey s with
  | none => .next s
  | some k => .next (distDoubt s k)

/-- NTS_KEYS (R244): KEYS_READY has been 0 for 10 ms with PdE on, or the die has lacked the active key for 1 s
after A. -/
def execNtsKeys (d : Fin 4) (s : State) : Host.Outcome State Fault Refusal :=
  let s1 := match (pd s d).lackFrom, activeKey s with
    | some t, _ => advMono s (t + 10000000)
    | none, some k => advPc s (k.at' + BitVec.ofNat 64 secU)
    | none, none => s
  if ntsKeysStands s1 d then .next (doubt s1 (pSIV d) 0 true) else .next s

/-- The MONO at which KEY_UPSTREAM is due (R245): 60 s after the upstream link is up, or the announced period
and 1 h after the last key. -/
def upDue (s : State) : Option Nat :=
  match s.kisl.upKeyAt, s.kisl.upFrom with
  | some t, _ => some (t + (s.kisl.upPeriod * 60 + 3600) * 1000000000)
  | none, some t => some (t + 60000000000)
  | none, none => none

/-- KEY_UPSTREAM (R245). -/
def execKeyUpstream (s : State) : Host.Outcome State Fault Refusal :=
  match upDue s with
  | none => .next s
  | some t => if keyUpstream s && keyOn s then .next (doubt (advMono s t) pKEY 3 true) else .next s

/-! ### The random bit generator (R246) -/

/-- DRBG_FAIL (R246): a health test fails and the DRBG stops. -/
def execDrbgFail (s : State) : Host.Outcome State Fault Refusal :=
  if keyOn s then
    .next (raise (bump (doubt (putB s pKEY fKEY_STAT_DRBG_OK false) pKEY 0 true) pKEY rKEY_DRBG_FAIL_CNT) pKEY 6)
  else .next s

/-- A die whose nonce generator waits for a seed receives it. -/
def reseed (s : State) (d : Nat) : State :=
  if pdeIsOn s d && !(pd s d).seeded then updPd s d fun x => { x with seeded := true, nonces := 0 } else s

/-- DRBG_RECOVER (R246): after 1,024 good samples the DRBG restarts and a postponed generation runs. -/
def execDrbgRecover (s : State) : Host.Outcome State Fault Refusal :=
  if keyOn s && !drbgOk s then
    let s1 := doubt (putB s pKEY fKEY_STAT_DRBG_OK true) pKEY 0 false
    let s2 := (List.range 4).foldl reseed s1
    .next (if s.kisl.postponed && mayGenerate s2 then generate s2 else s2)
  else .next s

/-! ### Minting for NTS-KE (R231) -/

/-- The bit of AEAD_EN of an AEAD ID. -/
def aeadOffered (s : State) (aead : Nat) : Bool := aeadOk aead && bitOf (get s pKEY fKEY_CFG_AEAD_EN) (aead - 15)

/-- Why a mint is refused, the lowest code that applies to a block that can be read; 0 where it runs. -/
def mintWhy (s : State) (h a : Nat) : Nat :=
  if !hartSram s h a 2048 then 4
  else if !aeadOffered s (natLE (readCore s a 2)) then 1
  else if coreByte s (a + 2) % 16 = 0 ∨ 8 < coreByte s (a + 2) % 16 then 2
  else if (activeKey s).isNone then 3
  else if flag s pKEY fKEY_MINT_CMD_BUSY then 5
  else 0

/-- The key bytes of a mint block are overwritten with 0; under an ID that Table 11-1 does not list, all the
bytes that a key can take. -/
def wipeKeys (s : State) (a : Nat) : State :=
  let id := natLE (readCore s a 2)
  writeCore s (a + 16) (List.replicate (2 * (if aeadOk id then keyLen id else 64)) 0)

/-- A mint starts: the key bytes are read and overwritten. -/
def startMint (s : State) (a : Nat) : State :=
  let id := natLE (readCore s a 2)
  let n := keyLen id
  let j : MintJob := ⟨a, id, (coreByte s (a + 2)).toNat % 16, readCore s (a + 16) n, readCore s (a + 16 + n) n⟩
  let s1 := putB (put (wipeKeys s a) pKEY fKEY_MINT_CMD_CODE 0) pKEY fKEY_MINT_CMD_ERR false
  updKisl (putB s1 pKEY fKEY_MINT_CMD_BUSY true) fun x => { x with mint := some j }

/-- A mint is refused with its code. -/
def refuseMint (s : State) (a why : Nat) : State :=
  let s1 := if why = 4 then s else wipeKeys s a
  raise (put (putB s1 pKEY fKEY_MINT_CMD_ERR true) pKEY fKEY_MINT_CMD_CODE why) pKEY 5

/-- MINT (R231): a write of KEY.MINT_CMD.GO by a hart; the host's is discarded. -/
def execMint (r : Requester) (s : State) : Host.Outcome State Fault Refusal :=
  match r with
  | .host => .next s
  | .hart h =>
    .next (onWrite s r pKEY fun s =>
      let a := get s pKEY fKEY_MINT_PTR_ADDR * 64
      let s1 := putB s pKEY fKEY_MINT_CMD_DONE false
      let why := mintWhy s1 h a
      if why = 0 then startMint s1 a else refuseMint s1 a why)

/-- `n` cookies of a mint, back to back, their nonces free values. -/
def mintCookies (j : MintJob) (mk : MasterKey) : Nat → State → State × List Byte
  | 0, s => (s, [])
  | n + 1, s =>
    let c := makeCookie mk (freeVal s 38 % 2 ^ 128) j.aead j.c2s j.s2c
    let r := mintCookies j mk n (drawn s)
    (r.1, c ++ r.2)

/-- MINT_DONE (R231): the cookies are written and DONE is set. -/
def execMintDone (s : State) : Host.Outcome State Fault Refusal :=
  match s.kisl.mint, activeKey s with
  | some j, some mk =>
    if pageRetained s pKEY then .next s else
    let r := mintCookies j mk j.count s
    let s1 := writeCore r.1 (j.addr + 256) r.2
    let s2 := updKisl s1 fun x => { x with mint := none }
    let s3 := putB (putB s2 pKEY fKEY_MINT_CMD_BUSY false) pKEY fKEY_MINT_CMD_DONE true
    .next (raise (bumpBy s3 pKEY rKEY_MINT_CNT j.count) pKEY 4)
  | _, _ => .next s

/-! ### Keys across resets and power (R247) -/

/-- A pending mint ends with no cookie and no DONE. -/
def dropMint (s : State) : State :=
  putB (updKisl s fun x => { x with mint := none }) pKEY fKEY_MINT_CMD_BUSY false

/-- The keystore and every SIV key store are erased, with the link keys (Table 11-6, R412). -/
def keysLost (s : State) : State :=
  let s1 := (List.range 4).foldl emptySiv (updKisl s fun x => { x with keys := [], mint := none, postponed := false })
  showKeys ((List.range 4).foldl (fun s k =>
    let s2 := (List.range 4).foldl (fun s c => updPeer s k c fun p => { p with key := none, keys := false, has := [] }) s
    putB s2 (pASK k) fASK_STAT_KEYS false) s1)

/-! ### Keys from upstream (R245) -/

/-- A key arrives from the upstream link. -/
def takeUpKey (s : State) (k : MasterKey) (period : Nat) : State :=
  let m := mono s
  let s1 := doubt (updKisl s fun x => { x with upKeyAt := some m, upPeriod := period }) pKEY 3 false
  let s2 := raise s1 pKEY 7
  if s2.kisl.keys.any fun x => x.id == k.id then s2
  else if k.st = 3 then
    let s3 := updKisl s2 fun x => { x with keys := x.keys ++ [k] }
    let s4 := (List.range 4).foldl (fun s d => if pdeIsOn s d then crossSend s d [k] else s) s3
    showKeys (sendKeyDown s4 k)
  else addKey s2 k (decide (pcDiff k.at' (pcNow s2) ≤ 0))

/-- A PURGE arrives from the upstream link: every key is erased here and below. -/
def takeUpPurge (s : State) : State := showKeys (sendPurgeDown (eraseAll s))

end Sys2Proof.Machine
end

