-- ==== Sys2Proof/Machine/Ask.lean ====
section
/-! DEFINITION. The Askair links: training, marks and echoes, steps, the agreement of link keys, KEY frames and
the mailbox (spec/20). -/

namespace Sys2Proof.Machine

/-! ### What a link shows -/

/-- The child the PEER registers show: that of LK_PTR on a SHARED link, else slot 0. -/
def shownPeer (s : State) (k : Nat) : Nat := if askMode s k = 3 then get s (pASK k) fASK_LK_PTR_CHILD else 0

/-- The slot a frame from slot `c` belongs to: point to point there is one. -/
def slotOf (s : State) (k c : Nat) : Nat := if askMode s k = 3 then c else 0

/-- The PEER registers, KEYS and CHILDREN show the peers; ASK_UPSTREAM and ASK_LINK follow (R410). -/
def showAsk (s : State) (k : Nat) : State :=
  let p := pASK k
  let x := peer s k (shownPeer s k)
  let s1 := wrN (wrN s p rASK_PEER_ID_LO (x.id % 0x100000000)) p rASK_PEER_ID_HI (x.id / 0x100000000)
  let s2 := wrN s1 p rASK_PEER_STAT (x.servo % 8 + x.flags % 8 * 8)
  let s3 := putB (put (wrN s2 p rASK_PEER_UNC x.unc) p fASK_STAT_PEER_DEPTH x.depth) p fASK_STAT_KEYS x.keys
  let kids := if askMode s k = 3 then
      (List.range 4).foldl (fun m c => setBit m c ((peer s k c).up && askUp s k)) 0 else 0
  let s4 := put s3 p fASK_STAT_CHILDREN kids
  let up := askUp s k
  let s5 := doubt s4 p 0 (pageEn s p && up && askMode s k == 1 && decide (x.flags % 4 ≠ 0))
  doubt s5 p 1 (pageEn s p && !up && (askMode s k == 1 || (askDown s k && (link s k).beenUp)))

/-- A link returns to DOWN, or to OFF where it is unused (R399): the peers, the agreement and the training are
forgotten. A departure from UP sets INT_RAW[1] and counts in TRAIN_CNT. -/
def askLeave (s : State) (k : Nat) : State :=
  let p := pASK k
  let was := askUp s k
  let s1 := updLink s k fun x => { x with
    peers := List.replicate 4 AskPeer.cold, markAt := none, seen := [], missed := 0, accepted := false, ser := none
    refused := none }
  let s2 := put s1 p fASK_STAT_STATE (if pageEn s p && askMode s k != 0 then 1 else 0)
  let s3 := put (put s2 p fASK_STAT_VER 0) p fASK_STAT_FEAT 0
  let s4 := if was then raise (bump s3 p rASK_TRAIN_CNT) p 1 else s3
  let s5 := if askMode s k = 1 then updKisl s4 fun x => { x with upFrom := none } else s4
  showAsk s5 k

/-! ### Training (R395–R401) -/

/-- The depth of the device (R397); 7 while it is unrooted. -/
def askDepth (s : State) : Nat :=
  match upLink s with
  | none => 0
  | some k =>
    let d := (peer s k 0).depth
    if askUp s k && decide (d < 7) then d + 1 else 7

/-- The children the device serves over all its links (R397). -/
def askChildren (s : State) : Nat :=
  (List.range 4).foldl (fun n k =>
    if !askUp s k || !askDown s k then n
    else if askMode s k = 3 then n + (List.range 4).countP fun c => (peer s k c).up
    else n + 1) 0

/-- The highest version offered; 0 in VER_MAX counts as 1 (R400). -/
def askVerMax (s : State) (k : Nat) : Nat := max 1 (min 2 (get s (pASK k) fASK_CFG_VER_MAX))

/-- The highest version both ranges hold, 0 where there is none (R400). -/
def askVer (s : State) (k : Nat) (h : AskHello) : Nat :=
  let v := min (askVerMax s k) h.vmax
  if v < max 1 h.vmin then 0 else v

/-- The features agreed with a HELLO (R400). -/
def askAgreed (s : State) (k : Nat) (h : AskHello) : Nat :=
  get s (pASK k) fASK_CFG_FEAT &&& (h.feats &&& verFeats (askVer s k h))

/-- The device's own clock identity: PTE.CLOCK_ID of its Port die 0 (R400). -/
def ownClock (s : State) : Nat := rd64 s (pPTE 0) rPTE_CLOCK_ID_LO rPTE_CLOCK_ID_HI

/-- The reasons of R401 that a link has without a HELLO: its feature bit, and a second UPSTREAM link. -/
def ownWhy (s : State) (k : Nat) : Nat :=
  let m := askMode s k
  if (m = 1 ∧ feat s 11 = false) ∨ (2 ≤ m ∧ feat s 10 = false) then 1
  else if m = 1 ∧ upLink s ≠ some k then 2
  else 0

/-- The first code of R401 that applies to a HELLO; 0 where it is accepted. -/
def helloWhy (s : State) (k : Nat) (h : AskHello) : Nat :=
  let m := askMode s k
  let c := slotOf s k h.slot
  if ownWhy s k ≠ 0 then ownWhy s k
  else if (m = 1 ∧ h.mode = 1) ∨ (m ≠ 1 ∧ h.mode ≠ 1) then 2
  else if askVer s k h = 0 then 3
  else if 5 ≤ (if m = 1 then h.depth else askDepth s) + 1 then 4
  else if 2 ≤ m ∧ 4 ≤ askChildren s then 5
  else if ((m = 3 ∨ h.mode = 3) ∧ bitOf (askAgreed s k h) 3 = false) ∨ (m = 3 ∧ (peer s k c).up = true) then 6
  else if h.id.toNat = ownClock s ∧ h.id ≠ 0 then 7
  else 0

/-- A link is refused: ERR, INT_RAW[2], and DOWN where it was not UP with another child (R399, R401). -/
def askRefuse (s : State) (k why : Nat) : State :=
  let p := pASK k
  let now := mono s
  let s1 := raise (put s p fASK_STAT_ERR why) p 2
  if askUp s k then s1
  else updLink (put s1 p fASK_STAT_STATE 1) k fun x => { x with refused := some now, accepted := false }

/-- The HELLO a link sends: version range, mask, mode, depth, slot and clock identity (R400). The spec does not
give their places in the 24 bytes (log entry 20). -/
def helloBody (s : State) (k : Nat) : List Byte :=
  bytesBE 1 1 ++ bytesBE 1 (askVerMax s k) ++ bytesBE 1 (get s (pASK k) fASK_CFG_FEAT) ++ bytesBE 1 (askMode s k) ++
    bytesBE 1 (askDepth s) ++ bytesBE 1 (get s (pASK k) fASK_CFG_SLOT) ++ bytesBE 8 (ownClock s) ++ bytesBE 10 0

/-- A link sends HELLO. -/
def sendHello (s : State) (k : Nat) : State := sendAsk s k 1 0xFF (helloBody s k)

/-- A link comes UP (R399): INT_RAW[0], and ERR is cleared. -/
def askRise (s : State) (k : Nat) : State :=
  let p := pASK k
  let now := mono s
  let s1 := put (put s p fASK_STAT_STATE 5) p fASK_STAT_ERR 0
  let s2 := updLink s1 k fun x => { x with beenUp := true, missed := 0, refused := none }
  let s3 := if askMode s k = 1 then updKisl s2 fun x => { x with upFrom := some now } else s2
  showAsk (raise s3 p 0) k

/-- TST.ASK_LOOP holds the link in ALIGN (R491). -/
def askLooped (s : State) (k : Nat) : Bool :=
  perturbed s 1 && bitOf (get s (pTST 1) fTST_ASK_LOOP_LINK) k

/-- LINK_TRAIN (R399, Table 20-2): the condition that ends the link's present state is met: signal is detected, the
block is locked, both ends have accepted HELLO, or the ring has measured the serializer delay. -/
def execLinkTrain (k : Fin 4) (s0 : State) : Host.Outcome State Fault Refusal :=
  let s := clearSent s0 k
  let p := pASK k
  match askState s k with
  | 1 =>
    if (link s k).refused.isSome then .next s
    else if ownWhy s k ≠ 0 then .next (askRefuse s k (ownWhy s k))
    else .next (put s p fASK_STAT_STATE 2)
  | 2 => if askLooped s k then .next s else .next (sendHello (put s p fASK_STAT_STATE 3) k)
  | 3 => if (link s k).accepted then .next (put s p fASK_STAT_STATE 4) else .next s
  | 4 => if (link s k).ser.isSome then .next (askRise s k) else .next s
  | _ => .next s

/-- HELLO_RX (R400, R401): a HELLO arrives in HELLO, at a refused link that offers again, or from a further child
of a SHARED link. -/
def execHelloRx (k : Fin 4) (h : AskHello) (s0 : State) : Host.Outcome State Fault Refusal :=
  let s := clearSent s0 k
  let p := pASK k
  let open' := askState s k == 3 || (askState s k == 1 && (link s k).refused.isSome) || (askUp s k && askMode s k == 3)
  if !open' then .next s
  else
    let why := helloWhy s k h
    if why ≠ 0 then .next (askRefuse s k why)
    else
      let c := slotOf s k h.slot
      let s1 := put (put s p fASK_STAT_VER (askVer s k h)) p fASK_STAT_FEAT (askAgreed s k h)
      let s2 := updPeer s1 k c fun x => { x with up := true, id := h.id.toNat, depth := h.depth }
      let s3 := updLink s2 k fun x => { x with accepted := true, refused := none, shared := h.mode == 3 || askMode s k == 3 }
      .next (showAsk (if askState s k = 1 then put (sendHello s3 k) p fASK_STAT_STATE 3 else s3) k)

/-- HELLO_RETRY (R399): a refused link offers HELLO again 1 s later; one that lacks its feature bit, or is a second
UPSTREAM link, is refused again. -/
def execHelloRetry (k : Fin 4) (s0 : State) : Host.Outcome State Fault Refusal :=
  let s := clearSent s0 k
  match (link s k).refused with
  | none => .next s
  | some t =>
    let s1 := advMono s (t + 1000000000)
    if ownWhy s1 k ≠ 0 then .next (askRefuse s1 k (ownWhy s1 k))
    else
      let now := mono s1
      .next (sendHello (updLink s1 k fun x => { x with refused := some now }) k)

/-- RETRAIN (R399): a write of CTRL.RETRAIN. -/
def execRetrain (r : Requester) (k : Fin 4) (s : State) : Host.Outcome State Fault Refusal :=
  .next (onWrite s r (pASK k) fun s => askLeave s k)

/-- ASK_BLOCK_LOCK_LOST (R399): block lock is lost after it was reached. -/
def execAskBlockLockLost (k : Fin 4) (s : State) : Host.Outcome State Fault Refusal :=
  if 3 ≤ askState s k then .next (askLeave s k) else .next s

/-- The ring has measured a link's serializer delay in ps (R310): TX_DLY and RX_DLY are formed with the factory
constants (log entry 2). -/
def askCalDone (s : State) (k ps : Nat) : State :=
  if askState s k = 4 then
    let p := pASK k
    let s1 := put s p fASK_TX_DLY_PS (Config.otp (8192 + 2 * k) + ps)
    updLink (put s1 p fASK_RX_DLY_PS (Config.otp (8193 + 2 * k) + ps)) k fun x => { x with ser := some ps }
  else s

/-- CFG as stored: VER_MAX above 2 is 2 (Table 20-7). -/
def askCfgStored (v : Nat) : Nat :=
  let w := v % 0x2000
  if w / 16 % 16 > 2 then w - (w / 16 % 16 - 2) * 16 else w

/-- A write of CFG stores it, and the link starts again (R399). -/
def askCfgWrite (s : State) (k v : Nat) : State :=
  askLeave (updLink (wrN s (pASK k) rASK_CFG (askCfgStored v)) k fun x => { x with beenUp := false }) k

/-! ### Marks and echoes (R403–R406, R410) -/

/-- The peer's flags (bit 0 SAFE, 1 DEGRADE, 2 TIME_SET), servo state and UNC; a change of SAFE sets
INT_RAW[8] (R410). -/
def peerSays (s : State) (k c flags servo unc : Nat) : State :=
  let was := (peer s k c).flags
  let s1 := updPeer s k c fun x => { x with flags := flags, servo := servo, unc := unc }
  raiseIf s1 (was % 2 != flags % 2) (pASK k) 8

/-- The flags of this device: SAFE and DEGRADE. -/
def ownFlags (s : State) : Nat := ofBool (flag s pSAF fSAF_STAT_SAFE) + ofBool (flag s pSAF fSAF_STAT_DEGRADE) * 2

/-- Form ALARM or SILENT, in which answers carry stratum 16 and the alarm's reference ID. -/
def ownAlarm (s : State) : Bool := decide (2 ≤ ansForm s 0)

/-- The stratum the device's own answers carry in their present form (R213, R406). -/
def ownStratum (s : State) : Nat := if ownAlarm s then 16 else ansStratum s 0 (ansForm s 0)

/-- The reference ID they carry (R214, R406). -/
def ownRefid (s : State) : Nat := if ownAlarm s then rdN s (pANS 0) rANS_ALARM_REFID else ansRefid s 0

/-- TIME_OK: the sender is rooted, its time is set and its servo is not in FREERUN. -/
def timeOk (s : State) : Bool := decide (askDepth s < 7) && timeSet s && servoState s != 0

/-- The MARK payload of a t1 in 2⁻¹⁶ ns, with the T4 and ESEQ of a child (Table 20-4). -/
def markBody (s : State) (t1 : Nat) (t4 : Option (Nat × Nat)) : List Byte :=
  let fl := ofBool (timeOk s) + ownFlags s * 2 + ofBool (utcValid s) * 8 + ofBool (leapValid s) * 16 + ofBool (leapDel s) * 32
  let t := t4.getD (0xFFFFFFFFFFFFFFFF, 0)
  bytesBE 6 (t96Sec t1) ++ bytesBE 2 (t96Ns t1 / 1000000) ++ bytesBE 1 fl ++ bytesBE 1 (servoState s + scaleGen s * 16) ++
    bytesBE 1 (askDepth s) ++ bytesBE 1 (ownStratum s) ++ bytesBE 2 (get s pTBE fTBE_UTC_OFFSET_SEC) ++
    bytesBE 6 (leapSec s) ++ bytesBE 4 (rdN s pDSC rDSC_UNC) ++ bytesBE 4 (ownRefid s) ++
    bytesBE 4 (rdN s pDSC rDSC_FREQ) ++ bytesBE 8 t.1 ++ bytesBE 2 t.2 ++ bytesBE 6 0

/-- A millisecond in 2⁻¹⁶ ns. -/
abbrev msU : Nat := 65536000000

/-- MARK_TX (R403): the parent launches a MARK at the next millisecond boundary of its T96. A SHARED link sends each
child its own, since each carries the T4 of one echo (log entry 20). -/
def execMarkTx (k : Fin 4) (s0 : State) : Host.Outcome State Fault Refusal :=
  let s := clearSent s0 k
  if !askUp s k || !askDown s k then .next s
  else
    let now := t96 s
    let fresh := match (link s k).markAt with
      | none => true
      | some m => decide (m.1 < now)
    let t1 := if now % msU = 0 ∧ fresh = true then now else (now / msU + 1) * msU
    let s1 := advT96 s t1
    let seq := (amGet? 2 (link s1 k).seqs).getD 0
    let kids := (List.range 4).filter fun c => (peer s1 k c).up
    let s2 := kids.foldl (fun s c =>
      let s' := updLink s k fun x => { x with seqs := amSet 2 seq x.seqs }
      updPeer (sendAsk s' k 2 (if askMode s k = 3 then c else 0xFF) (markBody s t1 (peer s k c).t4)) k c
        fun x => { x with t4 := none }) s1
    .next (updLink s2 k fun x => { x with markAt := some (t1, seq) })

/-- A mark gives no sample: MISS_CNT; the tenth in a row returns the link to DOWN (R399, R405). -/
def markMissed (s : State) (k : Nat) : State :=
  let s1 := updLink (bump s (pASK k) rASK_MISS_CNT) k fun x => { x with missed := x.missed + 1 }
  if 10 ≤ (link s1 k).missed then askLeave s1 k else s1

/-- RX_DLY and EXT_RX_DLY of a link in 2⁻¹⁶ ns (R403). -/
def askRx (s : State) (k : Nat) : Int :=
  ((get s (pASK k) fASK_RX_DLY_PS : Int) + signed 32 (rdN s (pASK k) rASK_EXT_RX_DLY)) * 8192 / 125

/-- The time from t2 to t3 of a child, in 2⁻¹⁶ ns (R403). -/
def echoWait (s : State) (k : Nat) (shared : Bool) : Nat :=
  (if shared then 250000 * get s (pASK k) fASK_CFG_SLOT + 100000 else 20000) * 65536

/-- The upstream's time of day, taken by a worker with UTC_SRC = 1 where it differs (R406). -/
def takeUtc (s : State) (b : List Byte) : State :=
  if !flag s pTBE fTBE_CFG_UTC_SRC then s
  else
    let fl := be b 8 1
    let sec := be b 12 2
    let s1 := if sec ≠ get s pTBE fTBE_UTC_OFFSET_SEC ∨ bitOf fl 3 ≠ utcValid s then setUtcOfs s sec (bitOf fl 3) else s
    if be b 14 6 ≠ leapSec s1 ∨ bitOf fl 4 ≠ leapValid s1 ∨ bitOf fl 5 ≠ leapDel s1 then
      let s2 := wrN (endSmear s1) pTBE rTBE_LEAP_SCHED (be b 16 4)
      let hi := be b 14 2 + ofBool (bitOf fl 5) * 0x10000 + ofBool (bitOf fl 4) * 0x80000000
      refreshLeapDay (wrN s2 pTBE rTBE_LEAP_SCHED_HI hi)
    else s1

/-- What a mark says of the parent beside its time (R405, R406, R410): its state, depth, time of day, stratum and
reference ID, and the accuracy of the ASKU slot (R91). -/
def takeMark (s : State) (k : Nat) (b : List Byte) : State :=
  let fl := be b 8 1
  let servo := be b 9 1 % 8
  let unc := be b 20 4
  let s1 := peerSays s k 0 (fl / 2 % 4 + fl % 2 * 4) servo unc
  let s2 := updPeer s1 k 0 fun x => { x with depth := be b 10 1 }
  let s3 := updSlot (takeUtc s2 b) 5 fun v => { v with
    marked := servo == 4, acc := if unc = 0xFFFFFFFF then none else some (unc + 1) }
  showAsk (updServo s3 fun v => { v with view := { v.view with
    askStratum := min 15 (be b 11 1 + 1), askRefid := be b 24 4 } }) k

/-- A sample of the ASKU slot (R404): D and θ in 2⁻¹⁶ ns, and the slot's frequency in ppt. -/
def askSample (s : State) (k : Nat) (d θ : Int) (y : Int) : State :=
  let p := pASK k
  let s1 := wrN s p rASK_DELAY (unsign 32 (divRound (d * 1000) 65536))
  let s2 := wrN s1 p rASK_OFS (unsign 32 (satS 32 (divRound (θ * 1000) 65536)))
  let s3 := updLink s2 k fun x => { x with missed := 0 }
  if taking s3 5 then updSlot (slotSample s3 5 (-θ) none) 5 fun v => { v with count := some y } else s3

/-- The mark that a T4 answers, with its D and θ (R404). -/
def askAnswer (s : State) (k t4 eseq gen : Nat) : Option (Int × Int) :=
  match (link s k).seen.find? fun m => m.seq == eseq with
  | none => none
  | some m =>
    if m.gen ≠ gen ∨ t4 = 0xFFFFFFFFFFFFFFFF then none
    else
      let up : Int := (t96OfPc s (BitVec.ofNat 64 m.t2) : Int) - m.t1
      let down : Int := (m.t1 : Int) + t4 - t96OfPc s (BitVec.ofNat 64 m.t3)
      some ((up + down) / 2, (up - down) / 2)

/-- MARK_RX (R403–R406): a MARK with its header SEQ and payload, whose start was observed at the balls at `seen`, and
the line clock counted over the same millisecond, in ppt. -/
def execMarkRx (k : Fin 4) (crcOk : Bool) (seq : BitVec 16) (body : List Byte) (seen : BitVec 64) (ppt : Int)
    (s0 : State) : Host.Outcome State Fault Refusal :=
  let s := clearSent s0 k
  let p := pASK k
  if !askUp s k || askMode s k != 1 then .next s
  else if !crcOk then .next (markMissed (bump s p rASK_CRC_CNT) k)
  else
    let t2 := (seen.toNat : Int) - askRx s k
    let t2p : BitVec 64 := BitVec.ofInt 64 t2
    let t3 : BitVec 64 := t2p + BitVec.ofNat 64 (echoWait s k (link s k).shared)
    let t1 := t96Of (be body 0 6) (be body 6 2 * 1000000) 0
    let gen := be body 9 1 / 16
    let s1 := takeMark (bump s p rASK_MARK_CNT) k body
    let got := askAnswer s1 k (be body 32 8) (be body 40 2) gen
    let m : MarkSeen := ⟨seq.toNat, t1, t2p.toNat, t3.toNat, gen⟩
    let s2 := updLink s1 k fun x => { x with seen := (m :: x.seen).take 4, markAt := some (t3.toNat, seq.toNat) }
    match bitOf (be body 8 1) 0, got with
    | true, some (d, θ) => .next (askSample s2 k d θ (ppt + signed 32 (be body 28 4)))
    | _, _ => .next (markMissed s2 k)

/-- MARK_MISS (R405): an expected mark has not come, and so gives no sample. -/
def execMarkMiss (k : Fin 4) (s : State) : Host.Outcome State Fault Refusal :=
  if askUp s k && askMode s k == 1 then .next (markMissed s k) else .next s

/-- ECHO_TX (R403): the child launches its ECHO at t3. -/
def execEchoTx (k : Fin 4) (s0 : State) : Host.Outcome State Fault Refusal :=
  let s := clearSent s0 k
  match (link s k).markAt with
  | none => .next s
  | some (t3, seq) =>
    if askUp s k && askMode s k == 1 then
      let s1 := advPc s (BitVec.ofNat 64 t3)
      let fl := ownFlags s1 + ofBool (peer s1 k 0).keys * 4 + ofBool (timeSet s1) * 8
      let body := bytesBE 2 seq ++ bytesBE 1 fl ++ bytesBE 1 (servoState s1) ++ bytesBE 4 (rdN s1 pDSC rDSC_UNC) ++ bytesBE 4 0
      .next (updLink (sendAsk s1 k 3 0xFF body) k fun x => { x with markAt := none })
    else .next s

/-- The stamp of an ECHO that answers the last MARK, kept as its distance from that MARK's launch. -/
def takeEcho (s : State) (k n echoed : Nat) (seen : BitVec 64) : State :=
  match (link s k).markAt with
  | none => s
  | some (t1, seq) =>
    if echoed = seq ∧ (peer s k n).up = true then
      let t4 : Int := t96OfPc s (BitVec.ofInt 64 ((seen.toNat : Int) - askRx s k))
      updPeer s k n fun x => { x with t4 := some (unsign 64 (t4 - t1), seq) }
    else s

/-- ECHO_RX (R403, R410): the ECHO of a child arrives, observed at the balls at `seen`; its t4 − t1 goes into the next
mark. -/
def execEchoRx (k c : Fin 4) (crcOk : Bool) (body : List Byte) (seen : BitVec 64) (s0 : State) :
    Host.Outcome State Fault Refusal :=
  let s := clearSent s0 k
  let p := pASK k
  if !askUp s k || !askDown s k then .next s
  else if !crcOk then .next (bump s p rASK_CRC_CNT)
  else
    let n := slotOf s k c
    let fl := be body 2 1
    let s1 := showAsk (peerSays s k n (fl % 4 + fl / 8 % 2 * 4) (be body 3 1 % 8) (be body 4 4)) k
    .next (takeEcho s1 k n (be body 0 2) seen)

/-! ### Steps (R407) -/

/-- STEP_RX (R407): a child that follows steps requests the same step for S. -/
def execStepRx (k : Fin 4) (crcOk : Bool) (body : List Byte) (s0 : State) : Host.Outcome State Fault Refusal :=
  let s := clearSent s0 k
  let p := pASK k
  if !askUp s k || askMode s k != 1 then .next s
  else if !crcOk then .next (bump s p rASK_CRC_CNT)
  else if askFeat s k 1 && flag s p fASK_CFG_FOLLOW_STEP then
    let at' : Int := (t96Of (be body 8 6) (be body 14 4) (be body 18 2) : Int) - s.clk.tOfs
    .next (requestUpStep s (signed 64 (be body 0 8)) (max at'.toNat s.clk.p.toNat))
  else .next s

/-! ### The agreement of link keys (R408) -/

/-- OWN_PUB or PEER_PUB as bytes, byte 4n in [7:0] of word n. -/
def pubBytes (s : State) (k : Nat) (off : Nat → Nat) : List Byte :=
  (List.range 8).flatMap fun n => bytesLE 4 (rdN s (pASK k) (off n))

/-- The slot that a write of CTRL acts on: the child of LK_PTR on a SHARED link. -/
def ctrlSlot (s : State) (k : Nat) : Nat := if askMode s k = 3 then get s (pASK k) fASK_LK_PTR_CHILD else 0

/-- The DEST of a frame to a slot (R402). -/
def destOf (s : State) (k c : Nat) : Nat := if askMode s k = 3 then c else 0xFF

/-- PUB_GO on a link with KEYS agreed: OWN_PUB is sent as AGREE, and the sequence starts again. -/
def pubSend (s : State) (k : Nat) : State :=
  if askFeat s k 0 then
    let c := ctrlSlot s k
    let b := pubBytes s k rASK_OWN_PUB
    let s1 := sendAsk s k 5 (destOf s k c) b
    let s2 := updPeer s1 k c fun x => { x with own := b, keys := false, key := none, check := none, failed := false }
    showAsk (putB s2 (pASK k) fASK_AGREE_STAT_CHK_FAIL false) k
  else s

/-- PUB_GO (R408): a write of CTRL.PUB_GO. -/
def execPubGo (r : Requester) (k : Fin 4) (s : State) : Host.Outcome State Fault Refusal :=
  .next (onWrite (clearSent s k) r (pASK k) fun s => pubSend s k)

/-- AGREE_RX (R408): the peer's public value arrives. -/
def execAgreeRx (k c : Fin 4) (crcOk : Bool) (body : List Byte) (s : State) : Host.Outcome State Fault Refusal :=
  let p := pASK k
  if !askFeat s k 0 then .next s
  else if !crcOk then .next (bump s p rASK_CRC_CNT)
  else
    let n := slotOf s k c
    let b := body.take 32 ++ List.replicate (32 - body.length) 0
    let s1 := (List.range 8).foldl (fun s i => wrN s p (rASK_PEER_PUB i) (natLE (slice b (4 * i) 4))) s
    let s2 := updPeer s1 k n fun x => { x with pub := b, pend := true }
    .next (raise (putB (put s2 p fASK_AGREE_STAT_CHILD n) p fASK_AGREE_STAT_PEND true) p 5)

/-- The KEY_CHECK of a link key: AES-CMAC of "ASKAIR", the upstream end's public value and the downstream
end's (R408). The upstream end is the child's parent. -/
def keyCheck (s : State) (k c : Nat) (key : List Byte) : List Byte :=
  let x := peer s k c
  let head : List Byte := [0x41, 0x53, 0x4B, 0x41, 0x49, 0x52]
  bytesBE 16 (cmac key (head ++ (if askDown s k then x.own ++ x.pub else x.pub ++ x.own)))

/-- The two checks are compared (R408): KEYS rises, and a parent sends every key it holds (R409); or CHK_FAIL. -/
def compareChecks (s : State) (k c : Nat) : State :=
  let x := peer s k c
  match x.key, x.check with
  | some key, some chk =>
    let p := pASK k
    if chk = keyCheck s k c key then
      let s1 := updPeer s k c fun x => { x with keys := true, check := none }
      let s2 := raise (showAsk s1 k) p 3
      if askDown s k then showKeys (s2.kisl.keys.foldl (fun s mk => sendKeyTo s k c mk) s2) else s2
    else
      let s1 := updPeer s k c fun x => { x with keys := false, check := none, failed := true }
      raise (showAsk (putB s1 p fASK_AGREE_STAT_CHK_FAIL true) k) p 4
  | _, _ => s

/-- LK_GO of a keeper hart: the key island reads the block, overwrites it and installs the key, and KEY_CHECK is
sent. -/
def lkInstall (s : State) (r : Requester) (k : Nat) : State :=
  let a := get s (pASK k) fASK_LK_PTR_ADDR * 64
  if !isKeeper r || !keyOn s || !askFeat s k 0 || !inSram a 64 then s
  else
    let c := ctrlSlot s k
    let key := readCore s a 32
    let s1 := putB (writeCore s a (List.replicate 64 0)) (pASK k) fASK_AGREE_STAT_PEND false
    let s2 := updPeer s1 k c fun x => { x with
      key := some key, keys := false, pend := false, keyTx := 0, keyRx := 0, has := [], again := none }
    compareChecks (sendAsk (showAsk s2 k) k 6 (destOf s k c) (keyCheck s2 k c key)) k c

/-- LK_GO (R408): a write of CTRL.LK_GO; one of an application hart or the host is discarded. -/
def execLkGo (r : Requester) (k : Fin 4) (s : State) : Host.Outcome State Fault Refusal :=
  .next (onWrite (clearSent s k) r (pASK k) fun s => lkInstall s r k)

/-- KEY_CHECK_RX (R408): the peer's check arrives; it waits where this end has no link key yet. -/
def execKeyCheckRx (k c : Fin 4) (crcOk : Bool) (body : List Byte) (s0 : State) : Host.Outcome State Fault Refusal :=
  let s := clearSent s0 k
  if !askFeat s k 0 then .next s
  else if !crcOk then .next (bump s (pASK k) rASK_CRC_CNT)
  else
    let n := slotOf s k c
    .next (compareChecks (updPeer s k n fun x => { x with check := some (body.take 16) }) k n)

/-! ### KEY frames (R409) -/

/-- A KEY frame that has been unwrapped is handled by a worker with SRC = UPSTREAM. -/
def takeKeyFrame (s : State) (b key : List Byte) : State :=
  if !keyUpstream s || !keyOn s then s
  else if be b 0 1 = 1 then takeUpPurge s
  else
    let at' := pcOfT96 s (t96Of (be b 8 6) (be b 14 4) 0)
    takeUpKey s ⟨be b 4 4, key, be b 1 1, at'⟩ (be b 2 2)

/-- KEY_FRAME_RX (R409): a KEY frame is unwrapped and handled, or discarded with INT_RAW[7] where its synthetic IV
fails or its SEQ is not the next one. -/
def execKeyFrameRx (k : Fin 4) (crcOk : Bool) (seq : BitVec 16) (body : List Byte) (s0 : State) :
    Host.Outcome State Fault Refusal :=
  let s := clearSent s0 k
  let p := pASK k
  if !askUp s k || askMode s k != 1 || !(peer s k 0).keys then .next s
  else if !crcOk then .next (bump s p rASK_CRC_CNT)
  else match (peer s k 0).key with
    | none => .next s
    | some lk =>
      let ad := [bytesBE 1 k.val ++ bytesBE 1 (get s p fASK_CFG_SLOT) ++ bytesBE 2 seq.toNat]
      match sivOpen lk ad (slice body 20 48) with
      | none => .next (raise s p 7)
      | some key =>
        if seq.toNat ≠ (peer s k 0).keyRx % 65536 then .next (raise s p 7)
        else .next (takeKeyFrame (updPeer s k 0 fun x => { x with keyRx := x.keyRx + 1 }) body key)

/-! ### The mailbox (R411) -/

/-- The bytes of the TX window. -/
def mbWindow (s : State) (k n : Nat) : List Byte :=
  ((List.range 64).flatMap fun i => bytesLE 4 (rdN s (pASK k) (0x400 + 4 * i))).take n

/-- MB_TX_CMD.LVL shows the queue. -/
def showMbTx (s : State) (k : Nat) : State := put s (pASK k) fASK_MB_TX_CMD_LVL (link s k).txq.length

/-- Messages leave while the receiver has room: how many is the receiver's doing, a free value (log entry 3). -/
def mbLeave (s : State) (k : Nat) : State :=
  if askFeat s k 2 then
    let n := freeVal s 40 % ((link s k).txq.length + 1)
    let out := (link s k).txq.take n
    let s1 := out.foldl (fun s m => sendAsk s k 8 (destOf s k m.1) m.2) (drawn s)
    showMbTx (updLink s1 k fun x => { x with txq := x.txq.drop n }) k
  else s

/-- LEN as stored: 0 is treated as 1 when used, above 256 is 256. -/
def mbLen (v : Nat) : Nat := min v 256

/-- A write of MB_TX_CMD with GO: the window is copied into the queue, or the GO is refused. -/
def mbGo (s : State) (k len dest : Nat) : State :=
  let p := pASK k
  let s1 := put (put s p fASK_MB_TX_CMD_LEN (mbLen len)) p fASK_MB_TX_CMD_DEST dest
  if 16 ≤ (link s1 k).txq.length then putB s1 p fASK_MB_TX_CMD_ERR true
  else
    let m := mbWindow s1 k (max 1 (mbLen len))
    let s2 := updLink (putB s1 p fASK_MB_TX_CMD_ERR false) k fun x => { x with txq := x.txq ++ [(dest, m)] }
    mbLeave (showMbTx s2 k) k

/-- MB_TX_GO (R411): a write of MB_TX_CMD.GO. -/
def execMbTxGo (r : Requester) (k : Fin 4) (len : Fin 512) (dest : Fin 4) (s : State) : Host.Outcome State Fault Refusal :=
  .next (onWrite (clearSent s k) r (pASK k) fun s => mbGo s k len dest)

/-- The RX window and MB_RX_STAT show the oldest message; `new` sets INT_RAW[6]. -/
def showMbRx (s : State) (k : Nat) (new : Bool) : State :=
  let p := pASK k
  let q := (link s k).rxq
  match q with
  | [] => wrN s p rASK_MB_RX_STAT 0
  | m :: _ =>
    let s1 := (List.range 64).foldl (fun s i => wrN s p (0x800 + 4 * i) (natLE (slice m.2 (4 * i) 4))) s
    let s2 := wrN s1 p rASK_MB_RX_STAT (m.2.length + m.1 * 0x1000 + q.length * 0x10000 + 0x1000000)
    raiseIf s2 new p 6

/-- MB_RX (R411): a message arrives; the sender sends only where the queue has room. -/
def execMbRx (k c : Fin 4) (crcOk : Bool) (msg : List Byte) (s : State) : Host.Outcome State Fault Refusal :=
  if !askFeat s k 2 then .next s
  else if !crcOk then .next (bump s (pASK k) rASK_CRC_CNT)
  else if 16 ≤ (link s k).rxq.length ∨ msg = [] then .next s
  else
    let first := (link s k).rxq = []
    .next (showMbRx (updLink s k fun x => { x with rxq := x.rxq ++ [(slotOf s k c, msg.take 256)] }) k (decide first))

/-- POP removes the message shown. -/
def mbTake (s : State) (k : Nat) : State := showMbRx (updLink s k fun x => { x with rxq := x.rxq.drop 1 }) k true

/-- MB_POP (R411): a write of MB_RX_STAT.POP. -/
def execMbPop (r : Requester) (k : Fin 4) (s : State) : Host.Outcome State Fault Refusal :=
  .next (onWrite s r (pASK k) fun s => mbTake s k)

/-! ### The page and its resets (R412) -/

/-- A write of ASK.CTRL: RETRAIN, PUB_GO and LK_GO. -/
def askCtrl (s : State) (r : Requester) (k v : Nat) : State :=
  let s1 := if bitOf v 0 then askLeave s k else s
  let s2 := if bitOf v 1 then pubSend s1 k else s1
  if bitOf v 2 then lkInstall s2 r k else s2

/-- The link key of every peer is erased, and KEYS falls. -/
def linkKeysErased (s : State) (k : Nat) : State :=
  showAsk ((List.range 4).foldl (fun s c => updPeer s k c fun x => { x with key := none, keys := false, has := [], again := none, check := none }) s) k

/-- The page is enabled or disabled. -/
def askEnabled (s : State) (k : Nat) : State := askLeave s k

/-- PIN, GUARD, and an ISLAND reset of Timebase island 4: every link retrains. -/
def askReset (s : State) : State :=
  (List.range 4).foldl (fun s k => askLeave (updLink s k fun x => { x with beenUp := false, txq := [], rxq := [], seqs := [], sent := [] }) k) s

end Sys2Proof.Machine
end

