-- ==== Sys2Proof/Machine/Served.lean ====
section
/-! DEFINITION. The address and VLAN tables of a Port die (R199, R200), and the MAC and IP addresses a port
takes and answers from. -/

namespace Sys2Proof.Machine

/-! ### Entries (R199) -/

/-- The five words of an address entry; an entry that was never written is 0. -/
def addrEntry (s : State) (d k : Nat) : List Nat := (amGet? k (pd s d).addr).getD [0, 0, 0, 0, 0]

/-- The word of a VLAN entry. -/
def vlanEntry (s : State) (d k : Nat) : Nat := (amGet? k (pd s d).vlan).getD 0

/-- A VLAN entry is in force: VALID, and its VID is neither 0 nor 0xFFF. -/
def vlanOk (w : Nat) : Bool := bitOf w 31 && w % 0x1000 != 0 && w % 0x1000 != 0xFFF

/-- The IP address in five words of a table (Table 10-8): the version bit and address words. -/
def wordsIp (v6 : Bool) (e : List Nat) : Nat :=
  if v6 then (e.take 4).foldl (fun n w => n * 0x100000000 + w) 0 else ix e 0 0

/-- The VLAN ID an address entry of port `i` is served on, none where the entry is not in force. -/
def entryVid (s : State) (d i : Nat) (e : List Nat) : Option Nat :=
  let w := ix e 4 0
  if !bitOf w 31 then none
  else if bitOf w 3 then some 0
  else
    let v := vlanEntry s d (8 * i + w % 8)
    if vlanOk v then some (v % 0x1000) else none

/-- An address entry of port `i` serves an IP address on a VLAN. -/
def entryServes (s : State) (d i k : Nat) (v6 : Bool) (a vid : Nat) : Bool :=
  let e := addrEntry s d (16 * i + k)
  bitOf (ix e 4 0) 4 == v6 && wordsIp v6 e == a && entryVid s d i e == some vid

/-- Some entry of the port that serves the address on the VLAN has a service: 0 NTP, 1 NTS, 2 PTP,
3 neighbour offload, 4 echo. -/
def served (s : State) (d i : Nat) (v6 : Bool) (a vid svc : Nat) : Bool :=
  (List.range 16).any fun k =>
    entryServes s d i k v6 a vid && bitOf (ix (addrEntry s d (16 * i + k)) 4 0) (16 + svc)

/-- Some entry of the port serves the address on the VLAN, whatever its services. -/
def servedAny (s : State) (d i : Nat) (v6 : Bool) (a vid : Nat) : Bool :=
  (List.range 16).any fun k => entryServes s d i k v6 a vid

/-- An address is served by some entry of the die (Table 10-2 row 6). -/
def servedOnDie (s : State) (d : Nat) (v6 : Bool) (a : Nat) : Bool :=
  (List.range 128).any fun k =>
    let e := addrEntry s d k
    bitOf (ix e 4 0) 31 && bitOf (ix e 4 0) 4 == v6 && wordsIp v6 e == a

/-- The PCP of the port's VLAN entry for a VID, 0 where there is none. -/
def vlanPcp (s : State) (d i vid : Nat) : Nat :=
  match (List.range 8).find? fun k =>
      vlanOk (vlanEntry s d (8 * i + k)) && vlanEntry s d (8 * i + k) % 0x1000 == vid with
  | some k => vlanEntry s d (8 * i + k) / 0x1000 % 8
  | none => 0

/-- The solicited-node multicast MAC address of an IPv6 address. -/
def solicitedMac (a : Nat) : Nat := 0x3333FF000000 + a % 0x1000000

/-- A MAC address is the solicited-node address of an IPv6 address the port serves. -/
def solicits (s : State) (d i mac : Nat) : Bool :=
  (List.range 16).any fun k =>
    let e := addrEntry s d (16 * i + k)
    bitOf (ix e 4 0) 31 && bitOf (ix e 4 0) 4 && solicitedMac (wordsIp true e) == mac

/-! ### Table commands (R200) -/

/-- The command fields of a write of ANS.TAB_CMD are stored. -/
def tabFields (s : State) (d idx : Nat) (addr rw : Bool) : State :=
  let p := pANS d
  putB (putB (put s p fANS_TAB_CMD_IDX idx) p fANS_TAB_CMD_TABLE addr) p fANS_TAB_CMD_RW rw

/-- A GO is refused: TABLE = 0 with an IDX above 63. -/
def tabRefused (idx : Nat) (addr : Bool) : Bool := !addr && decide (63 < idx)

/-- A GO of ANS.TAB_CMD runs `f` unless it is discarded or refused. -/
def tabGo (r : Requester) (d idx : Nat) (addr rw : Bool) (f : State → State) (s : State) : State :=
  onWrite s r (pANS d) fun s =>
    let p := pANS d
    let s1 := tabFields s d idx addr rw
    if flag s p fANS_TAB_CMD_BUSY then s1
    else if tabRefused idx addr then putB s1 p fANS_TAB_CMD_ERR true
    else f (putB s1 p fANS_TAB_CMD_ERR false)

/-- ANS_TAB_READ (R200): an entry is read into TAB_DATA. -/
def execAnsTabRead (r : Requester) (d : Fin 4) (idx : Fin 128) (addr : Bool) (s : State) :
    Host.Outcome State Fault Refusal :=
  .next (tabGo r d idx addr false (fun s =>
    let e := if addr then addrEntry s d idx else [vlanEntry s d idx, 0, 0, 0, 0]
    (List.range 5).foldl (fun s k => wrN s (pANS d) (rANS_TAB_DATA k) (ix e k 0)) s) s)

/-- ANS_TAB_WRITE (R200): a write of an entry begins. -/
def execAnsTabWrite (r : Requester) (d : Fin 4) (idx : Fin 128) (addr : Bool) (s : State) :
    Host.Outcome State Fault Refusal :=
  .next (tabGo r d idx addr true (fun s =>
    let e := (List.range (if addr then 5 else 1)).map fun k => rdN s (pANS d) (rANS_TAB_DATA k)
    let s1 := putB s (pANS d) fANS_TAB_CMD_BUSY true
    updPd s1 d fun x => { x with tabWait := some (addr, idx.val, e) }) s)

/-- ANS_TAB_DONE (R200): the write of an entry completes; frames classified from now on meet it. -/
def execAnsTabDone (d : Fin 4) (s : State) : Host.Outcome State Fault Refusal :=
  match (pd s d).tabWait with
  | none => .next s
  | some (addr, idx, e) =>
    let s1 := putB s (pANS d) fANS_TAB_CMD_BUSY false
    .next (updPd s1 d fun x =>
      if addr then { x with tabWait := none, addr := amSet idx e x.addr }
      else { x with tabWait := none, vlan := amSet idx (ix e 0 0) x.vlan })

end Sys2Proof.Machine
end

