-- ==== Sys2Proof/Machine/PtpBuild.lean ====
section
/-! DEFINITION. The messages of the PTP engine (spec/12): instance and security entries, headers and bodies,
the quality an Announce carries, the times that a launch instant writes, and the frames around them. -/

namespace Sys2Proof.Machine

/-! ### Entries (Table 12-11, R272) -/

/-- An instance entry: its four words. -/
abbrev InstEntry := List Nat

/-- Bits of a word of an entry. -/
def entryBits (e : List Nat) (w lo n : Nat) : Nat := ix e w 0 / 2 ^ lo % 2 ^ n

/-- The entry of an instance. -/
def instEntry (s : State) (d n : Nat) : InstEntry := (amGet? n (pd s d).ptp.insts).getD [0, 0, 0, 0]

/-- PROFILE, TRANSPORT and DOMAIN of an entry. -/
def iProfile (e : InstEntry) : Nat := entryBits e 0 1 3
/-- TRANSPORT: 0 L2, 1 IPv4, 2 IPv6. -/
def iTransport (e : InstEntry) : Nat := entryBits e 0 4 2
/-- DOMAIN. -/
def iDomain (e : InstEntry) : Nat := entryBits e 0 20 8
/-- AUTH. -/
def iAuth (e : InstEntry) : Nat := entryBits e 0 10 2
/-- SA. -/
def iSa (e : InstEntry) : Nat := entryBits e 0 12 4
/-- ADDR. -/
def iAddr (e : InstEntry) : Nat := entryBits e 0 16 4
/-- A profile of IEEE 802.1AS. -/
def iAs (e : InstEntry) : Bool := iProfile e == 4
/-- TWO_STEP, which is 1 under 802.1AS (Table 12-1). -/
def iTwoStep (e : InstEntry) : Bool := iAs e || entryBits e 0 6 1 == 1
/-- A profile with the peer-to-peer delay mechanism (Table 12-1). -/
def iP2p (e : InstEntry) : Bool := iProfile e == 1 || iAs e
/-- LOG_SYNC, LOG_ANN and LOG_DREQ for k = 0 to 2, each within −7 to +4 (R250). -/
def iLog (e : InstEntry) (k : Nat) : Int := max (-7) (min 4 (signed 8 (entryBits e 1 (8 * k) 8)))
/-- ANN_TIMEOUT; 0 is treated as 3. -/
def iAnnTimeout (e : InstEntry) : Nat := orD (entryBits e 1 24 4) 3

/-- majorSdoId of a profile (Table 12-1). -/
def majorSdo (profile : Nat) : Nat := if profile = 4 then 1 else 0

/-- The port an instance serves (R248). -/
def instPort (n : Nat) : Nat := n / 4

/-- Change what an instance holds. -/
def updInst (s : State) (d n : Nat) (f : Inst → Inst) : State :=
  let v := f (instRun s d n)
  updPd s d fun x => { x with ptp := { x.ptp with run := amSet n v x.ptp.run } }

/-- A security entry: SA_DATA0, SA_DATA1 and the key. -/
def saEntry (s : State) (d k : Nat) : List Nat × List Byte :=
  (amGet? k (pd s d).ptp.sas).getD ([0, 0], List.replicate 32 0)

/-- A security entry is in force. -/
def saOk (s : State) (d k : Nat) : Bool := bitOf (ix (saEntry s d k).1 1 0) 31

/-- The security entry an instance sends under, none with AUTH = 0 (R273). -/
def instSa (e : InstEntry) : Option Nat := if iAuth e = 0 then none else some (iSa e)

/-! ### The AUTHENTICATION TLV (R272) -/

/-- PTE.CLOCK_ID. -/
def clockId (s : State) (d : Nat) : Nat := rd64 s (pPTE d) rPTE_CLOCK_ID_LO rPTE_CLOCK_ID_HI

/-- The port identity of a port: CLOCK_ID and the device port plus 1 (Table 12-4). -/
def portId (s : State) (d i : Nat) : Nat := clockId s d * 0x10000 + (8 * d + i + 1)

/-- The GMAC initialization vector of a message. -/
def ptpIv (m : List Byte) : List Byte :=
  slice m 20 8 ++ slice m 30 2 ++ put8 1 (u8 m 0 % 16) ++ slice m 4 1

/-- The ICV over a message from its first byte to the end of keyID. -/
def ptpIcv (e : List Nat × List Byte) (m : List Byte) : List Byte :=
  let cover := if bitOf (ix e.1 1 0) 8 then patch m 8 (put8 8 0) else m
  put8 16 (gmac e.2 (ptpIv m) cover)

/-- A message with the TLV of a security entry. -/
def withTlv (e : List Nat × List Byte) (m : List Byte) : List Byte :=
  let m1 := patch m 2 (put8 2 (m.length + 26)) ++ put8 2 0x8009 ++ put8 2 22 ++
    put8 1 (ix e.1 1 0 % 256) ++ put8 1 0 ++ put8 4 (ix e.1 0 0)
  m1 ++ ptpIcv e m1

/-- A message as it is sent, with the TLV of its security entry where it has one. -/
def sealPtp (s : State) (d : Nat) (sa : Option Nat) (m : List Byte) : List Byte :=
  match sa with
  | none => m
  | some k => withTlv (saEntry s d k) m

/-- A received message ends with an AUTHENTICATION TLV. -/
def hasTlv (m : List Byte) : Bool :=
  decide (60 ≤ m.length) && be m (m.length - 26) 2 == 0x8009 && be m (m.length - 24) 2 == 22

/-- The TLV of a received message verifies under an entry (R273). -/
def tlvOk (e : List Nat × List Byte) (m : List Byte) : Bool :=
  let o := m.length - 26
  bitOf (ix e.1 1 0) 31 && u8 m (o + 4) == ix e.1 1 0 % 256 && u8 m (o + 5) == 0 &&
    be m (o + 6) 4 == ix e.1 0 0 && ptpIcv e (m.take (m.length - 16)) == m.drop (m.length - 16)

/-! ### Headers and times (Tables 12-4 and 12-5) -/

/-- A PTP timestamp: seconds and nanoseconds of a T96. -/
def ptpStamp (t : Nat) : List Byte := put8 6 (t96Sec t) ++ put8 4 (t96Ns t)

/-- controlField of a messageType (Table 12-4). -/
def controlOf (as : Bool) (type : Nat) : Nat :=
  if as then 0 else if type = 0 then 0 else if type = 1 then 1 else if type = 8 then 2
  else if type = 9 then 3 else 5

/-- twoStepFlag and unicastFlag in flagField. -/
def ptpFlags (two uni : Bool) : Nat := ofBool two * 0x0200 + ofBool uni * 0x0400

/-- A message: the common header and a body. -/
def ptpMessage (s : State) (d i type : Nat) (as : Bool) (domain flags : Nat) (cf : Int) (seq : Nat)
    (log : Int) (body : List Byte) : List Byte :=
  put8 1 (ofBool as * 16 + type) ++ put8 1 0x12 ++ put8 2 (34 + body.length) ++ put8 1 domain ++
    put8 1 0 ++ put8 2 flags ++ put8 8 (unsign 64 cf) ++ put8 4 0 ++ put8 10 (portId s d i) ++
    put8 2 seq ++ put8 1 (controlOf as type) ++ put8 1 (unsign 8 log) ++ body

/-- The times that L writes into a message (Table 12-5). -/
def writePtpTime (s : State) (m : List Byte) (k : PtpTime) (l : Nat) : List Byte :=
  let t := t96At s l
  match k with
  | .none => m
  | .originFrac => patch (patch m 34 (ptpStamp t)) 8 (put8 8 (t96Frac t))
  | .origin => patch m 34 (ptpStamp t)
  | .turn cf t2 => patch m 8 (put8 8 (unsign 64 (signed 64 cf + ((l : Int) - t2))))
  | .receipt _ t2 => patch m 34 (ptpStamp (t96At s t2))

/-! ### Addresses and frames (R252) -/

/-- The VLAN and PCP of an address entry of a port. -/
def entryTag (s : State) (d i k : Nat) : Nat × Nat :=
  let v := (entryVid s d i (addrEntry s d (16 * i + k))).getD 0
  (v, if v = 0 then 0 else vlanPcp s d i v)

/-- The IP address of an address entry of a port for a transport. -/
def entryIp (s : State) (d i k l3 : Nat) : Nat :=
  if l3 = 0 then 0 else wordsIp (l3 == 2) (addrEntry s d (16 * i + k))

/-- The MAC and IP address of Table 12-3 for a transport. -/
def ptpGroup (s : State) (d l3 : Nat) (peer : Bool) : Nat × Nat :=
  if l3 = 0 then (if peer then 0x0180C200000E else 0x011B19000000, 0)
  else if l3 = 1 then
    (if peer then (0x01005E00006B, 0xE000006B) else (0x01005E000181, 0xE0000181))
  else if peer then (0x33330000006B, 0xFF02 * 2 ^ 112 + 0x6B)
  else (0x333300000181, (0xFF00 + get s (pPTE d) fPTE_CFG_V6_SCOPE) * 2 ^ 112 + 0x181)

/-- Where a port sends a multicast message through an address entry; under 802.1AS every message goes to
the peer-delay address. -/
def toGroup (s : State) (d i entry l3 : Nat) (as peer : Bool) : PtpTo :=
  let g := ptpGroup s d l3 (as || peer)
  let t := entryTag s d i entry
  { mac := g.1, vid := t.1, pcp := t.2, l3 := l3, src := entryIp s d i entry l3, dst := g.2
    peer := as || peer }

/-- The frame around a message (R252, Table 12-10). -/
def ptpFrame (s : State) (d i : Nat) (dest : PtpTo) (m : List Byte) : List Byte :=
  if dest.l3 = 0 then padded (ethHead dest.mac (stationMac s d i) dest.vid dest.pcp 0x88F7 ++ m)
  else
    let event := u8 m 0 % 16 < 4
    let port := if event then 319 else 320
    let dscp := get s (pPTE d) (if event then fPTE_IP_CFG_DSCP_EV else fPTE_IP_CFG_DSCP_GEN)
    let ttl := if dest.peer then 1 else orD (get s (pPTE d) fPTE_IP_CFG_TTL) 1
    udpFrame dest.mac (stationMac s d i) dest.vid dest.pcp (dest.l3 == 2) dscp ttl dest.src dest.dst port port m

/-- The finished frame of a message that leaves at L (R257, R273). -/
def ptpFinish (s : State) (d i : Nat) (m : PtpMsg) (l : Nat) : List Byte :=
  ptpFrame s d i m.dest (sealPtp s d m.sa (writePtpTime s m.msg m.time l))

/-- The length of its frame, FCS included. -/
def ptpLen (s : State) (d i : Nat) (m : PtpMsg) : Nat := (ptpFinish s d i m 0).length + 4

/-! ### Quality (R259–R261) -/

/-- UNC in 10⁻⁹ ns is at most UNC_SPEC; an unknown UNC is above it. -/
def inSpec (s : State) (d : Nat) : Bool :=
  match dieUnc s d with
  | none => false
  | some u => decide (u ≤ rdN s (pPTE d) rPTE_UNC_SPEC * 1000000000)

/-- clockAccuracy of a UNC in 10⁻⁹ ns: the smallest code whose bound is at least UNC (R260). -/
def ptpAccuracy (u : Nat) : Nat :=
  match accBounds.findIdx? fun b => u ≤ (if b = 3 then 2500000 else b * 1000000) with
  | some i => 0x17 + i
  | none => 0x31

/-- The smallest n with a ≤ b · 2ⁿ: ⌈log2 (a / b)⌉ for positive a and b. -/
def ceilLog2 (a b : Nat) : Int :=
  let fits (n : Int) : Bool := if 0 ≤ n then a ≤ b * 2 ^ n.toNat else a * 2 ^ (-n).toNat ≤ b
  let k : Int := (a.log2 : Int) - b.log2
  if fits (k - 1) then k - 1 else if fits k then k else k + 1

/-- offsetScaledLogVariance of a UNC in 10⁻⁹ ns, so in 10⁻¹⁸ s, with σ = UNC / 2 (R261). -/
def ptpVariance (u : Nat) : Nat :=
  if u = 0 then 0
  else (max 0 (min 0xFFFE (0x8000 + ceilLog2 (u ^ 512) ((2 * 10 ^ 18) ^ 512)))).toNat

/-- The quality an Announce carries: clockClass, clockAccuracy, offsetScaledLogVariance, timeTraceable and
frequencyTraceable as flags, and timeSource (R258, R259). -/
structure Quality where
  cls : Nat
  acc : Nat
  var : Nat
  flags : Nat
  src : Nat
  deriving DecidableEq, Repr

/-- timeSource of a slot (R259). -/
def slotSource (s : State) (d k : Nat) : Nat :=
  let p := pPTE d
  if k = 7 then 0xA0
  else get s p (if k = 0 then fPTE_TSRC_GNSS else if k < 3 then fPTE_TSRC_EXT
    else if k < 5 then fPTE_TSRC_PTP else fPTE_TSRC_ASKU)

/-- The quality in SERVE (Table 12-6). -/
def serveQuality (s : State) (d : Nat) : Quality :=
  let p := pPTE d
  let st := dieServo s d
  let unc := dieUnc s d
  let deg := (dieView s d).degrade
  if st = 0 then ⟨get s p fPTE_CLASS_FREE, 0xFE, 0xFFFF, 0, 0xA0⟩
  else
    let acc := unc.elim 0xFE ptpAccuracy
    let var := unc.elim 0xFFFF ptpVariance
    let src := slotSource s d (dieSlot s d)
    if !inSpec s d then ⟨get s p fPTE_CLASS_OUT_SPEC, acc, var, 0, src⟩
    else if deg then ⟨get s p fPTE_CLASS_OUT_SPEC, acc, var, 0x20, src⟩
    else ⟨get s p (if st = 2 then fPTE_CLASS_LOCKED else fPTE_CLASS_HOLD), acc, var, 0x30, src⟩

/-- The quality in the die's form (R258). -/
def ptpQuality (s : State) (d : Nat) : Quality :=
  if pteForm s d = 2 then ⟨248, 0xFE, 0xFFFF, 0, 0xA0⟩ else serveQuality s d

/-- The dataset an instance compares with a foreign one (R262). -/
def ownData (s : State) (d n : Nat) : List Nat :=
  let e := instEntry s d n
  let q := ptpQuality s d
  [entryBits e 2 0 8, q.cls, q.acc, q.var, entryBits e 2 8 8, clockId s d]

/-- U in force at a T96 for PTP, which is never smeared. -/
def ptpU (s : State) (d t : Nat) : Int :=
  match dieLeap s d with
  | none => viewU (dieView s d)
  | some l => if l.1 ≤ t96Sec t then leapNext l.2.1 l.2.2 else l.2.2

/-- The flags of an Announce built at a T96 (R259). -/
def announceFlags (s : State) (d t : Nat) (uni : Bool) : Nat :=
  let v := dieView s d
  let day := inLeapDay v t
  ofBool uni * 0x0400 + ofBool (day && !viewLeapDel v) * 1 + ofBool (day && viewLeapDel v) * 2 +
    ofBool (viewUtcOk v) * 4 + 8 + (ptpQuality s d).flags

/-! ### The messages of an instance -/

/-- An Announce of an instance, built at a phase count (Table 12-5). -/
def announceMsg (s : State) (d n seq : Nat) (log : Int) (uni : Bool) (now : Nat) : List Byte :=
  let e := instEntry s d n
  let q := ptpQuality s d
  let t := t96At s now
  let body := ptpStamp t ++ put8 2 (unsign 16 (ptpU s d t)) ++ put8 1 0 ++ put8 1 (entryBits e 2 0 8) ++
    put8 1 q.cls ++ put8 1 q.acc ++ put8 2 q.var ++ put8 1 (entryBits e 2 8 8) ++
    put8 8 (clockId s d) ++ put8 2 0 ++ put8 1 q.src
  let tlv := if iAs e then put8 2 8 ++ put8 2 8 ++ put8 8 (clockId s d) else []
  ptpMessage s d (instPort n) 11 (iAs e) (iDomain e) (announceFlags s d t uni) 0 seq log (body ++ tlv)

/-- A Sync of an instance before its time is written (R254). -/
def syncMsg (s : State) (d n seq : Nat) (log : Int) (uni : Bool) (dest : PtpTo) : PtpMsg :=
  let e := instEntry s d n
  { msg := ptpMessage s d (instPort n) 0 (iAs e) (iDomain e) (ptpFlags (iTwoStep e) uni) 0 seq log
      (put8 10 0)
    time := if iTwoStep e then .origin else .originFrac
    dest := dest, as := iAs e, sa := instSa e, ref := none }

/-- The Follow_Up information TLV of 802.1AS (R254). -/
def followTlv (s : State) : List Byte :=
  put8 2 3 ++ put8 2 28 ++ put8 3 0x0080C2 ++ put8 3 1 ++ put8 4 0 ++ put8 2 (scaleGen s) ++
    put8 12 (unsign 96 s.tb.lastStep) ++ put8 4 0

/-- A message of another type with the header fields of one that departed. -/
def followHead (m : List Byte) (as : Bool) (type : Nat) (cf : Int) (body : List Byte) : List Byte :=
  let flags := be m 6 2 - (be m 6 2 / 0x0200 % 2) * 0x0200
  put8 1 (u8 m 0 / 16 * 16 + type) ++ slice m 1 1 ++ put8 2 (34 + body.length) ++ slice m 4 2 ++
    put8 2 flags ++ put8 8 (unsign 64 cf) ++ slice m 16 16 ++ put8 1 (controlOf as type) ++
    slice m 33 1 ++ body

/-- The Follow_Up of a two-step Sync that departed at L (R254, Table 12-5). -/
def followUp (s : State) (m : PtpMsg) (l : Nat) : List Byte :=
  let t := t96At s l
  followHead m.msg m.as 8 (t96Frac t) (ptpStamp t ++ if m.as then followTlv s else [])

/-- The Pdelay_Resp_Follow_Up of a two-step Pdelay_Resp that departed at L (Table 12-5). -/
def respFollowUp (s : State) (m : PtpMsg) (cf t2 l : Nat) : List Byte :=
  let t := t96At s l
  followHead m.msg m.as 10 (signed 64 cf + (t96Frac t : Int) - t96Frac (t96At s t2))
    (ptpStamp t ++ slice m.msg 44 10)

/-- A Delay_Req or Pdelay_Req: both carry L as origin; the body of a Pdelay_Req has 10 reserved bytes. -/
def requestMsg (s : State) (d i type : Nat) (as : Bool) (domain seq : Nat) (uni : Bool) (dest : PtpTo)
    (sa ref : Option Nat) : PtpMsg :=
  { msg := ptpMessage s d i type as domain (ptpFlags false uni) 0 seq 0x7F
      (put8 10 0 ++ if type = 2 then put8 10 0 else [])
    time := .originFrac, dest := dest, as := as, sa := sa, ref := ref }

end Sys2Proof.Machine
end

