-- ==== Sys2Proof/Machine/Launch.lean ====
section
/-! DEFINITION. Ports, timestamps and scheduled launch (spec/09): links, SerDes PLLs, module management,
calibration, booking, release, late frames, launch deviation, and frames from software. -/

namespace Sys2Proof.Machine

/-! ### Perturbations (Table 25-1) -/

/-- The hold of each built answer before it is handed over, in ns. -/
def postDelay (s : State) (d : Nat) : Nat :=
  if perturbed s (4 + d) then get s (pTST (4 + d)) fTST_ANS_DLY_POST else 0

/-- The delay in ns of a crossing into an island of a Port die. -/
def xingDelay (s : State) (d isl : Nat) : Nat :=
  let t := pTST (4 + d)
  if perturbed s (4 + d) && flag s t fTST_XING_DLY_EN && get s t fTST_XING_DLY_ISL == isl then get s t fTST_XING_DLY_NS else 0

/-- The offset in ps of every calibration-ring result. -/
def ringOfs (s : State) : Int := if perturbed s 1 then signed 32 (rdN s (pTST 1) rTST_RING_OFS) else 0

/-- Launch jitter δ of a port in ps: OFS plus a free u within ±AMP (R490). -/
def jitter (s : State) (d i : Nat) : State × Int :=
  let t := pTST (4 + d)
  if perturbed s (4 + d) && bitOf (get s t fTST_JIT_PORTS_PORT) i then
    let amp := get s t fTST_JITTER_AMP_PS
    (drawn s, getS s t fTST_JITTER_OFS_PS + ((freeVal s 31 % (2 * amp + 1) : Nat) : Int) - amp)
  else (s, 0)

/-! ### Calibration (R180, R182) -/

/-- The factory constant of a port's path in ps for its mode and FEC, from OTP. -/
def otpDelay (s : State) (d i : Nat) (rx : Bool) : Nat :=
  Config.otp (4096 + (8 * d + i) * 16 + portMode s d i * 4 + ofBool (fecOn s d i) * 2 + ofBool rx)

/-- A trim in force: a new AGE_TRIM waits for the next TAI second boundary, and until then the one it
replaced holds (R180). -/
def trimOf (s : State) (d i : Nat) (f : Fld) : Int :=
  match (pd s d).trims.find? fun t => t.1 == i with
  | some t => signed 16 (f.of t.2)
  | none => getS s (pTSU d i) f

/-- TX_DLY and RX_DLY are formed from the factory constant, AGE_TRIM and CAL_SER (R180). -/
def formDelays (s : State) (d i : Nat) : State :=
  let p := pTSU d i
  if portMode s d i = 0 then s
  else
    let ser : Int := get s p fTSU_CAL_SER_PS
    let s1 := put s p fTSU_TX_DLY_PS
      ((otpDelay s d i false : Int) + trimOf s d i fTSU_AGE_TRIM_TX + ser).toNat
    put s1 p fTSU_RX_DLY_PS ((otpDelay s d i true : Int) + trimOf s d i fTSU_AGE_TRIM_RX + ser).toNat

/-- The condition LINK = 1 and CAL_OK = 0 with EN = 1 begins or ends; with it doubt TSU_CAL ends. -/
def watchCal (s : State) (d i : Nat) : State :=
  let waits := linkUp s d i && pageEn s (pTSU d i) && !calOk s d i
  let m := mono s
  if waits then updPort s d i fun p => { p with uncalFrom := some (p.uncalFrom.getD m) }
  else doubt (updPort s d i fun p => { p with uncalFrom := none }) (pTSU d i) 1 false

/-- CAL_OK falls, with INT_RAW[2] where it stood. -/
def dropCal (s : State) (d i : Nat) : State :=
  let p := pTSU d i
  raiseIf (putB s p fTSU_STAT_CAL_OK false) (flag s p fTSU_STAT_CAL_OK) p 2

/-- A calibration begins, where the TSU page is enabled (R182). -/
def startCal (s : State) (d i : Nat) : State :=
  if pageOn s (pTSU d i) && pageEn s (pTSU d i) then
    showTimed (watchCal (updPort (dropCal s d i) d i fun p => { p with cal := true }) d i) d
  else s

/-- TSU_CAL_RUN (R182): a write of TSU.CAL_CTRL with RUN. -/
def execTsuCalRun (r : Requester) (d : Fin 4) (i : Fin 8) (s : State) :
    Host.Outcome State Fault Refusal :=
  .next (onWrite s r (pTSU d i) fun s => startCal s d i)

/-- A port's calibration ends with a serializer delay of `ser` ps. -/
def calDone (s : State) (d i ser : Nat) : State :=
  if (port s d i).cal && pageEn s (pTSU d i) then
    let p := pTSU d i
    let s1 := put (updPort s d i fun p => { p with cal := false }) p fTSU_CAL_SER_PS
      (satU 16 ((ser : Int) + ringOfs s).toNat)
    let s2 := raise (putB (formDelays s1 d i) p fTSU_STAT_CAL_OK true) p 1
    showTimed (watchCal s2 d i) d
  else s

/-- TSU_CAL (R182): LINK = 1 and CAL_OK = 0 have held together for 10 ms. -/
def execTsuCal (d : Fin 4) (i : Fin 8) (s : State) : Host.Outcome State Fault Refusal :=
  match (port s d i).uncalFrom with
  | some t => .next (doubt (advMono s (t + 10000000)) (pTSU d i) 1 true)
  | none => .next s

/-! ### 802.1AS capability (R256) -/

/-- The enabled 802.1AS instance of a port. -/
def asInst (s : State) (d i : Nat) : Option Nat :=
  (List.range 4).map (fun k => 4 * i + k) |>.find? fun n => instOn s d n && iAs (instEntry s d n)

/-- The 802.1AS instance of a port is asCapable. -/
def asCapable (s : State) (d i : Nat) : Bool :=
  match asInst s d i with
  | none => false
  | some n =>
    flag s (pPTE d) (fPTE_PDLY_VALID i) &&
      decide (get s (pPTE d) (fPTE_PDLY_PS i) ≤ orD (entryBits (instEntry s d n) 2 16 16) 800 * 1000)

/-- PTE.ASCAP shows the ports that are asCapable; a change sets INT_RAW[8]. -/
def showAscap (s : State) (d : Nat) : State :=
  let v := (List.range 8).foldl (fun v i => setBit v i (asCapable s d i)) 0
  if get s (pPTE d) fPTE_ASCAP_PORT = v then s else raise (put s (pPTE d) fPTE_ASCAP_PORT v) (pPTE d) 8

/-- The initiator of a port. -/
def pdelayOf (s : State) (d i : Nat) : Pdelay := (amGet? i (pd s d).ptp.pdelay).getD ⟨0, [], none, 0⟩

/-- Change the initiator of a port. -/
def updPdelay (s : State) (d i : Nat) (f : Pdelay → Pdelay) : State :=
  let v := f (pdelayOf s d i)
  updPd s d fun x => { x with ptp := { x.ptp with pdelay := amSet i v x.ptp.pdelay } }

/-- PDLYi.VALID falls, and the next matched exchange loads d directly (R256). -/
def dropPdelay (s : State) (d i : Nat) : State :=
  let s1 := updPdelay s d i fun p => { p with reqs := [], d := none, lost := 0 }
  showAscap (putB s1 (pPTE d) (fPTE_PDLY_VALID i) false) d

/-! ### Links (R172, R173, R190) -/

/-- LINK of a port falls (R172, R190, R256). -/
def linkFall (s : State) (d i : Nat) : State :=
  let p := pMAC d i
  let s1 := raise (bump (putB s p fMAC_STAT_LINK false) p rMAC_LINK_DOWN_CNT) p 1
  let s2 := putB (putB s1 p fMAC_STAT_REMOTE_FAULT false) p fMAC_STAT_PAUSED false
  let s3 := putB (updPort s2 d i fun p => { p with pause := none }) (pTSU d i) fTSU_STAT_GRID_OK false
  showTimed (watchCal (dropPdelay (flushPort s3 d i) d i) d i) d

/-- What the PCS of a port shows (R172). -/
def showPcs (s : State) (d i : Nat) (block fec lf an : Bool) : State :=
  let p := pMAC d i
  putB (putB (putB (putB s p fMAC_STAT_BLOCK_LOCK block) p fMAC_STAT_FEC_LOCK fec)
    p fMAC_STAT_LOCAL_FAULT lf) p fMAC_STAT_AN_DONE an

/-- The PLL that serves a port of a mode has lost lock: bit 0 PLL L, bit 1 PLL H of quad 0, then quad 1. -/
def pllDown (s : State) (d i : Nat) : Bool :=
  bitOf (pd s d).pllLost (2 * (i / 4) + ofBool (portMode s d i == 3))

/-- LINK_UP (R172): all that LINK needs holds on a port. -/
def execLinkUp (d : Fin 4) (i : Fin 8) (s : State) : Host.Outcome State Fault Refusal :=
  let p := pMAC d i
  if pageOn s p && decide (portMode s d i ≠ 0) && !flag s p fMAC_STAT_LINK && !pllDown s d i then
    let an := portMode s d i == 1 && flag s p fMAC_CFG_AN37
    let s1 := showPcs s d i true (fecOn s d i) false an
    let s2 := raise (putB s1 p fMAC_STAT_LINK true) p 0
    .next (startCal (showTimed (watchCal (putB s2 (pTSU d i) fTSU_STAT_GRID_OK true) d i) d) d i)
  else .next s

/-- LINK_DOWN (R172): something that LINK needs has gone; the operands are what the PCS shows. -/
def execLinkDown (d : Fin 4) (i : Fin 8) (block fec localFault : Bool) (s : State) :
    Host.Outcome State Fault Refusal :=
  if linkUp s d i then
    let an := flag s (pMAC d i) fMAC_STAT_AN_DONE && block
    .next (linkFall (showPcs s d i block (fec && fecOn s d i) localFault an) d i)
  else .next s

/-- REMOTE_FAULT (R172): a port receives remote fault, or stops receiving it. -/
def execRemoteFault (d : Fin 4) (i : Fin 8) (on : Bool) (s : State) : Host.Outcome State Fault Refusal :=
  if pageOn s (pMAC d i) && decide (portMode s d i ≠ 0) then
    .next (showTimed (putB s (pMAC d i) fMAC_STAT_REMOTE_FAULT on) d)
  else .next s

/-- The doubt SDS_PLL of a quad stands while one of its PLLs has lost lock. -/
def pllDoubt (s : State) (d q : Nat) : State :=
  doubt s (pSDS d q) 0 ((pd s d).pllLost / 4 ^ q % 4 != 0)

/-- SDS_PLL_UNLOCK (R173): PLL H or L of a quad loses lock, and every lane it serves loses link. -/
def execSdsPllUnlock (d : Fin 4) (q : Fin 2) (h : Bool) (s : State) : Host.Outcome State Fault Refusal :=
  let p := pSDS d q
  if pageOn s p then
    let s1 := putB s p (if h then fSDS_PLL_STAT_H_LOCK else fSDS_PLL_STAT_L_LOCK) false
    let s2 := updPd (raise s1 p 5) d fun x =>
      { x with pllLost := setBit x.pllLost (2 * q.val + ofBool h) true }
    let s3 := pllDoubt s2 d q
    .next ((List.range 4).foldl (fun s k =>
      let i := 4 * q.val + k
      if linkUp s d i && (portMode s d i == 3) == h then
        linkFall (showPcs s d i false false true false) d i
      else s) s3)
  else .next s

/-- SDS_PLL_LOCK (R173): a PLL locks, and its part of SDS_PLL falls. -/
def execSdsPllLock (d : Fin 4) (q : Fin 2) (h : Bool) (s : State) : Host.Outcome State Fault Refusal :=
  let p := pSDS d q
  if pageOn s p then
    let s1 := putB s p (if h then fSDS_PLL_STAT_H_LOCK else fSDS_PLL_STAT_L_LOCK) true
    .next (pllDoubt (updPd s1 d fun x =>
      { x with pllLost := setBit x.pllLost (2 * q.val + ofBool h) false }) d q)
  else .next s

/-- SIGNAL_DETECT (R173): signal detect rises on a lane; adaptation runs unless it is frozen. -/
def execSignalDetect (d : Fin 4) (i : Fin 8) (eye : Fin 256) (s : State) :
    Host.Outcome State Fault Refusal :=
  let p := pSDS d (i.val / 4)
  let k := i.val % 4
  if pageOn s p then
    let s1 := putB (putB s p (fSDS_LANE_STAT_SIG_DET k) true) p (fSDS_LANE_STAT_CDR_LOCK k) true
    let s2 := if flag s p (fSDS_LANE_CFG_ADAPT_FREEZE k) then s1
      else putB s1 p (fSDS_LANE_STAT_ADAPT_DONE k) true
    .next (put s2 p (fSDS_LANE_STAT_EYE k) eye)
  else .next s

/-! ### Module management (R175, R176) -/

/-- A transaction of a quad ends with NACK or by timeout. -/
def mmFail (s : State) (d q : Nat) (timeout : Bool) : State :=
  let p := pSDS d q
  let s1 := putB s p fSDS_MM_STAT_BUSY false
  let s2 := putB s1 p (if timeout then fSDS_MM_STAT_TIMEOUT else fSDS_MM_STAT_NACK) true
  raise (bump s2 p rSDS_MM_NACK_CNT) p 1

/-- LEN of a transaction: 0 is treated as 1, above 8 as 8. -/
def mmLen (s : State) (d q : Nat) : Nat := min 8 (orD (get s (pSDS d q) fSDS_MM_CMD_LEN) 1)

/-- MM_TRANSACTION (R175): a write of SDS.MM_CMD with GO. -/
def execMmTransaction (r : Requester) (d : Fin 4) (q : Fin 2) (v : Word) (s : State) :
    Host.Outcome State Fault Refusal :=
  .next (onWrite s r (pSDS d q) fun s =>
    let p := pSDS d q
    if flag s p fSDS_MM_STAT_BUSY then raise s p 1
    else
      let s1 := put (put s p fSDS_MM_CMD_SEL (fSDS_MM_CMD_SEL.of v.toNat))
        p fSDS_MM_CMD_RW (fSDS_MM_CMD_RW.of v.toNat)
      let s2 := put (put s1 p fSDS_MM_CMD_OFS (fSDS_MM_CMD_OFS.of v.toNat))
        p fSDS_MM_CMD_LEN (fSDS_MM_CMD_LEN.of v.toNat)
      let s3 := putB (putB s2 p fSDS_MM_STAT_NACK false) p fSDS_MM_STAT_TIMEOUT false
      putB s3 p fSDS_MM_STAT_BUSY true)

/-- MM_DONE (R175): a transaction ends: 0 done, 1 NACK, 2 timeout. A read brings its bytes, byte 0 lowest. -/
def execMmDone (d : Fin 4) (q : Fin 2) (how : Fin 3) (data : BitVec 64) (s : State) :
    Host.Outcome State Fault Refusal :=
  let p := pSDS d q
  if !flag s p fSDS_MM_STAT_BUSY then .next s
  else if how.val ≠ 0 then .next (mmFail s d q (how == 2))
  else
    let n := 256 ^ mmLen s d q
    let old := rd64 s p rSDS_MM_DATA0 rSDS_MM_DATA1
    let s1 := if flag s p fSDS_MM_CMD_RW then s
      else wr64 s p rSDS_MM_DATA0 rSDS_MM_DATA1 (old / n * n + data.toNat % n)
    .next (raise (putB s1 p fSDS_MM_STAT_BUSY false) p 0)

/-- MOD_IN (R176): a module is inserted. -/
def execModIn (d : Fin 4) (q : Fin 2) (s : State) : Host.Outcome State Fault Refusal :=
  let p := pSDS d q
  if pageOn s p && !flag s p fSDS_MM_STAT_PRES then .next (raise (putB s p fSDS_MM_STAT_PRES true) p 2)
  else .next s

/-- MOD_OUT (R176): the module is removed, which ends a running transaction with NACK (R175). -/
def execModOut (d : Fin 4) (q : Fin 2) (s : State) : Host.Outcome State Fault Refusal :=
  let p := pSDS d q
  if pageOn s p && flag s p fSDS_MM_STAT_PRES then
    let s1 := raise (putB s p fSDS_MM_STAT_PRES false) p 3
    .next (if flag s1 p fSDS_MM_STAT_BUSY then mmFail s1 d q false else s1)
  else .next s

/-- MOD_INT (R176): INT_N goes low, or high again; MM_STAT.MINT follows it. -/
def execModInt (d : Fin 4) (q : Fin 2) (low : Bool) (s : State) : Host.Outcome State Fault Refusal :=
  let p := pSDS d q
  if pageOn s p then
    .next (raiseIf (putB s p fSDS_MM_STAT_MINT low) (low && !flag s p fSDS_MM_STAT_MINT) p 4)
  else .next s

/-! ### What the launch unit writes (R194, R195, R197) -/

/-- A correctionField with a residence added: the largest value stays, and is not exceeded (R194). -/
def addResidence (cf : Nat) (r : Int) : Nat :=
  if cf = 0x7FFFFFFFFFFFFFFF then cf
  else unsign 64 (min 0x7FFFFFFFFFFFFFFF (signed 64 cf + r))

/-- A residence is added to the correctionField of the PTP header at an offset. -/
def addCf (l : List Byte) (ptp : Nat) (r : Int) : List Byte :=
  patch l (ptp + 8) (put8 8 (addResidence (be l (ptp + 8) 8) r))

/-- Where the PTP header of a frame begins (Table 10-1 row 1). -/
def ptpAt (l : List Byte) : Option Nat :=
  let e := ethOf l
  if e.ty = 0x88F7 then some e.off
  else match ipOf l e with
    | none => none
    | some h =>
      if h.proto = 17 ∧ ipFrag l e = false ∧ (be l (h.off + 2) 2 = 319 ∨ be l (h.off + 2) 2 = 320) then
        some (h.off + 8)
      else none

/-- The UDP checksum of a frame follows a change of its datagram at `udp` (R195). -/
def fixFrame (old new : List Byte) (udp : Nat) : List Byte :=
  fixUdp old new ((ethOf old).ty == 0x86DD) udp

/-- The finished frame of a software or cue frame for L (R197). -/
def softFinish (s : State) (d : Nat) (f : SoftFrame) (l : Nat) : List Byte :=
  let t := t96At s l
  let new :=
    if f.mode = 2 then addCf f.frame f.ptpOfs ((l : Int) - pOf s d f.t)
    else if f.mode = 3 then
      addCf (patch f.frame (f.ptpOfs + 34) (ptpStamp t)) f.ptpOfs (t96Frac t)
    else match f.stampAt with
      | some o => patch f.frame o (ptpStamp t)
      | none => f.frame
  if f.csum ∧ f.udpOfs ≠ 0 then fixFrame f.frame new f.udpOfs else new

/-- A bridged frame for L: an event message receives its residence and the link delay, and the pair's
AUTHENTICATION TLV is computed again (R194, R271, R274). -/
def bridgeFinish (s : State) (d : Nat) (frame : List Byte) (tin : PC64) (link : Nat) (event : Bool)
    (sa : Option Nat) (l : Nat) : List Byte :=
  match event, ptpAt frame with
  | true, some o =>
    let n := be frame (o + 2) 2
    let m1 := addCf frame o ((l : Int) - pOf s d tin + link)
    let m2 := match sa with
      | none => m1
      | some k =>
        let m := slice m1 o n
        patch m1 (o + n - 16) (ptpIcv (saEntry s d k) (m.take (n - 16)))
    if (ethOf frame).ty = 0x88F7 then m2 else fixFrame frame m2 (o - 8)
  | _, _ => frame

/-- The frame of a builder for L; an NTS answer is built by the SIV engine. -/
def buildFor (s : State) (d i : Nat) (by' : Builder) (l : Nat) : Option (List Byte) :=
  match by' with
  | .answer q h => some (ntpFrame s d i q (ntpBody s d q h l))
  | .nts _ _ _ => none
  | .ptp m => some (ptpFinish s d i m l)
  | .bridge f t k e sa => some (bridgeFinish s d f t k e sa l)
  | .soft f => some (softFinish s d f l)
  | .plain f => some f

/-- A granted booking is filled where its builder needs nothing but L. -/
def fillBook (s : State) (d i : Nat) (b : Booking) : State :=
  match buildFor s d i b.by' b.l with
  | none => s
  | some f =>
    let post := match b.by' with
      | .answer _ _ => postDelay s d + xingDelay s d 3
      | .ptp _ => xingDelay s d 3
      | .bridge _ _ _ _ _ => xingDelay s d 3
      | _ => 0
    finishBook s d i b.no f post

/-- An NTS answer is encrypted for L with its minted cookies and a fresh nonce (R236, R237). -/
def fillNts (s : State) (d i : Nat) (b : Booking) (q : NtpReq) (h : NtpHead) (w : NtsWork) : State :=
  let r := drawNonce s d
  finishBook r.1 d i b.no (ntpFrame r.1 d i q (ntsBody r.1 d q h w b.l r.2)) (postDelay s d + xingDelay s d 3)

/-! ### Booking (R183) -/

/-- The place of a builder in the round robin: ANS lanes, PTE, bridge pairs, cue queue, software. -/
def Builder.source : Builder → Nat
  | .answer _ _ => 0 | .nts _ _ _ => 0 | .ptp _ => 1 | .bridge _ _ _ _ _ => 2
  | .soft f => if f.ring.isNone then 3 else 4
  | .plain _ => 4

/-- The source that is granted next, of those that wait. -/
def nextSource (p : Port) : Option Nat :=
  ((List.range 5).map fun k => (p.lastAsk + 1 + k) % 5).find? fun n =>
    p.asks.any fun a => Builder.source a.by' == n

/-- The lead of a waiting request's builder in 2⁻¹⁶ ns, which a restamp takes again. -/
def askLead (s : State) (d : Nat) : Builder → Nat
  | .bridge _ _ _ _ _ => lchNs s d fLCH_BRIDGE_LEAD_NS
  | .ptp _ => get s (pPTE d) fPTE_LEAD_NS * 65536
  | _ => lchNs s d fLCH_SW_LEAD_NS

/-- A starved frame whose booking is refused keeps its place, and asks again after STARVE (R186). -/
def unstarve (s : State) (d i : Nat) : State :=
  let m := mono s
  updPort s d i fun p =>
    match p.untimed with
    | u :: t => { p with untimed := { u with booked := false, since := m } :: t }
    | [] => p

/-- One waiting request is judged. -/
def grantAsk (s : State) (d i grid : Nat) (a : Ask) : State :=
  let r := book s d i (nowP s d) a.e grid a.at' a.by' a.len (askLead s d a.by')
  match r.2 with
  | some b => fillBook r.1 d i b
  | none =>
    match a.by' with
    | .plain _ => unstarve r.1 d i
    | .ptp _ => bump r.1 (pPTE d) rPTE_BOOK_REJ_CNT
    | _ => r.1

/-- BOOKING (R183, R185): the next waiting request of a port is granted a launch instant, or refused. `grid`
is the wait to the next grid position (log entry 10). -/
def execBooking (d : Fin 4) (i : Fin 8) (grid : Nat) (s : State) : Host.Outcome State Fault Refusal :=
  match nextSource (port s d i) with
  | none => .next s
  | some n =>
    match (port s d i).asks.find? fun a => Builder.source a.by' == n with
    | none => .next s
    | some a =>
      let s1 := updPort s d i fun p =>
        { p with asks := p.asks.eraseP fun x => Builder.source x.by' == n, lastAsk := n }
      .next (grantAsk s1 d i grid a)

/-- A request joins those that wait. -/
def addAsk (s : State) (d i : Nat) (a : Ask) : State :=
  updPort s d i fun p => { p with asks := p.asks ++ [a] }

/-- The frame that a launch word and a frame spell (Table 09-4). -/
def softOf (ring : Nat) (w0 w1 w2 w3 : Word) (frame : List Byte) : SoftFrame :=
  let w := w0.toNat
  { ring := some ring, slot := 0, gen := 0, mode := w / 0x100 % 4, noRestamp := bitOf w 10
    csum := bitOf w 11, ptpOfs := w / 0x10000 % 256, udpOfs := w / 0x1000000
    t := BitVec.ofNat 64 (w1.toNat + w2.toNat * 0x100000000), tag := w3.toNat, stampAt := none, frame := frame }

/-- A software or cue frame asks for its booking, or is refused (R197). -/
def submitSoft (s : State) (d i : Nat) (f : SoftFrame) : State :=
  let lead := nowP s d + lchNs s d fLCH_SW_LEAD_NS
  let at' := pOf s d f.t
  if f.mode = 2 ∧ nowP s d < at' then
    completeSoft (raise (bump s (pLCH d) rLCH_SW_REJ_CNT) (pLCH d) 5) d i f 7 0
  else
    let e := if f.mode = 1 then at' else if f.mode = 3 ∧ f.t ≠ 0 then max lead at' else lead
    addAsk s d i ⟨.soft f, f.frame.length + 4, e, f.mode == 1⟩

/-- The ring's next descriptor is taken for a frame (R423). -/
def takeDesc (s : State) (n : Nat) (w : RingWork) : State :=
  updRing s n fun r =>
    match r.given with
    | [] => r
    | d :: t => { r with given := t, work := r.work ++ [(d, w)] }

/-- SW_FRAME_SUBMIT (R197, R198, R423): a software frame with its launch word, from a ring. A reserved bit of
the launch word ends the descriptor with BAD_WORD and launches nothing. Without a descriptor there is no frame. -/
def execSwFrameSubmit (ring : Fin 16) (w0 w1 w2 w3 : Word) (frame : List Byte) (s : State) :
    Host.Outcome State Fault Refusal :=
  let w := w0.toNat
  let f := softOf ring w0 w1 w2 w3 frame
  let d := w % 32 / 8
  let i := w % 8
  if !ringTakes s ring 1 || (ix s.rings ring ⟨[], [], 0, 0⟩).given = [] then .next s
  else if w &&& 0xF0E0 ≠ 0 then .next (takeDesc s ring .bad)
  else
    let s1 := takeDesc s ring (.tx f.tag none)
    .next (if f.mode = 0 then untimed s1 d i frame (some (ring.val, f.tag)) else submitSoft s1 d i f)

/-! ### Untimed frames (R186) -/

/-- UNTIMED_SUBMIT (R186): an untimed frame is submitted for a port. -/
def execUntimedSubmit (d : Fin 4) (i : Fin 8) (frame : List Byte) (s : State) :
    Host.Outcome State Fault Refusal :=
  .next (untimed s d i frame none)

/-- The instants at which an untimed frame may start: now, and the ends of the occupancies on the wire. -/
def startChoices (s : State) (d i : Nat) : List Nat :=
  let n := nowP s d
  n :: ((port s d i).occ.filter fun o => decide (n < o.2)).map Prod.snd

/-- The first instant at which the frame at the head of a port's queue fits before the next booking. -/
def untimedStart (s : State) (d i len : Nat) : Option Nat :=
  (startChoices s d i).foldl (fun r t =>
    if busyIn s d i t (occupancy s d i t len).1 then r
    else some (min t (r.getD t))) none

/-- A software frame of the untimed kind has been launched. -/
def untimedDone (s : State) (soft : Option (Nat × Nat)) (status l : Nat) : State :=
  match soft with
  | none => s
  | some (n, tag) => ringDone s n tag status l

/-- UNTIMED_LAUNCH (R186): the oldest untimed frame of a port starts in a gap between bookings. -/
def execUntimedLaunch (d : Fin 4) (i : Fin 8) (s : State) : Host.Outcome State Fault Refusal :=
  match (port s d i).untimed with
  | [] => .next s
  | u :: _ =>
    if u.booked || (port s d i).pause.isSome || !linkUp s d i then .next s
    else match untimedStart s d i (u.frame.length + 4) with
      | none => .next s
      | some t =>
        let o := occupancy s d i t (u.frame.length + 4)
        let s1 := keepWire (popUntimed (advDie s d t) d i) d i t o.1
        let s2 := updPort s1 d i fun p => { p with deficit := o.2 }
        .next (untimedDone (emit s2 d i u.frame none) u.soft 0 t)

/-- STARVE (R186): the oldest untimed frame has waited STARVE ns and asks for a booking with E = now. -/
def execStarve (d : Fin 4) (i : Fin 8) (s : State) : Host.Outcome State Fault Refusal :=
  match (port s d i).untimed with
  | [] => .next s
  | u :: t =>
    if u.booked then .next s
    else
      let s1 := advMono s (u.since + get s (pLCH d) fLCH_STARVE_NS)
      let s2 := updPort s1 d i fun p => { p with untimed := { u with booked := true } :: t }
      .next (addAsk s2 d i ⟨.plain u.frame, u.frame.length + 4, nowP s2 d, false⟩)

/-! ### The hold queue and release (R187) -/

/-- HOLD_ENQUEUE (R187): the next finished frame of a port enters the hold queue, in time for R − 50 ns. -/
def execHoldEnqueue (d : Fin 4) (i : Fin 8) (s : State) : Host.Outcome State Fault Refusal :=
  match (port s d i).books.find? fun b => b.frame.isSome && !b.held && !b.late with
  | none => .next s
  | some b =>
    let s1 := advDie s d b.ready
    if releaseAt s d i b.l < nowP s1 d + 50 * 65536 then .next s1
    else .next (showHold (updBook s1 d i b.no fun x => { x with held := true }) d)

/-- The counters of a released frame. -/
def countLaunch (s : State) (d : Nat) (b : Booking) : State :=
  match b.by' with
  | .answer _ _ => add64 s (pANS d) rANS_PLAIN_LO rANS_PLAIN_HI 1
  | .nts _ _ _ => add64 s (pANS d) rANS_NTSA_LO rANS_NTSA_HI 1
  | .ptp m =>
    let s1 := bump s (pPTE d) rPTE_EV_TX_CNT
    if u8 m.msg 0 % 16 = 3 then bump s1 (pPTE d) rPTE_PRESP_CNT else s1
  | .bridge f _ _ _ _ =>
    let s1 := bump s (pLCH d) rLCH_BR_FWD_CNT
    if (ptpAt f).isSome then bump s1 (pPTE d) rPTE_TC_FWD_CNT else s1
  | .soft _ => s
  | .plain _ => s

/-- A booking leaves the queue without launch; the wire stays idle in its place. -/
def abandon (s : State) (d i : Nat) (b : Booking) (status : Nat) : State :=
  showHold (complete (keepWire (dropBook s d i b.no) d i b.l b.stop) d i b.by' status b.l) d

/-- A frame is released into the MAC, to depart at L. -/
def launch (s : State) (d i : Nat) (b : Booking) (frame : List Byte) : State :=
  let s1 := keepWire (dropBook s d i b.no) d i b.l b.stop
  let s2 := match b.by' with
    | .plain _ =>
      untimedDone (popUntimed s1 d i) ((port s1 d i).untimed.head?.bind Untimed.soft) 0 b.l
    | _ => updPort s1 d i fun p => { p with out := p.out ++ [b] }
  let s3 := emit (countLaunch s2 d b) d i frame (some b.l)
  showHold (complete s3 d i b.by' (ofBool b.again) b.l) d

/-- Frames whose release falls while the replica is not LOCKED are dropped; untimed frames are not (R190). -/
def replicaDrop (s : State) (d i : Nat) (b : Booking) : State :=
  match b.by' with
  | .plain _ => s
  | _ => abandon (raise (bump s (pLCH d) rLCH_REPLICA_DROP_CNT) (pLCH d) 4) d i b 10

/-- A builder's frame is untimed at heart: a starved one. -/
def Builder.isPlain : Builder → Bool
  | .plain _ => true
  | _ => false

/-- A cue frame. -/
def Builder.isCue : Builder → Bool
  | .soft f => f.ring.isNone
  | _ => false

/-- At R the frame of a booking is released, or dropped (R187, R190); a cue frame is dropped once the die's
safe-state line signals safe state (R293). -/
def release (s : State) (d i : Nat) (b : Booking) (frame : List Byte) (tileOk : Bool) : State :=
  if b.by'.isCue && (pd s d).safe then abandon s d i b 14
  else if !replicaOk s d && !b.by'.isPlain then replicaDrop s d i b
  else if (port s d i).pause.isSome then s
  else if !tileOk || b.bad then
    abandon (tileFail (raise (bump s (pLCH d) rLCH_TILE_DROP_CNT) (pLCH d) 30) d) d i b 9
  else launch s d i b frame

/-- LCH_RELEASE (R187): the release point of the first held frame of a port has come. -/
def execLchRelease (d : Fin 4) (i : Fin 8) (tileOk : Bool) (s : State) :
    Host.Outcome State Fault Refusal :=
  match (port s d i).books.find? fun b => b.held && !b.late with
  | none => .next s
  | some b =>
    match b.frame with
    | none => .next s
    | some f => .next (release (advDie s d (releaseAt s d i b.l)) d i b f tileOk)

/-! ### Late frames (R188, R189, R191) -/

/-- A late frame is dropped (R188). -/
def lateDrop (s : State) (d i : Nat) (b : Booking) : State :=
  abandon (raise (bump s (pLCH d) rLCH_LATE_DROP_CNT) (pLCH d) 1) d i b 2

/-- The frame of a restamped booking is built again for its new L. -/
def refill (s : State) (d i : Nat) (b : Booking) : State :=
  match b.by' with
  | .nts q h w => fillNts s d i b q h w
  | _ => fillBook s d i b

/-- A late frame returns to its builder, which books again with a fresh E and rewrites every time (R188). A
refused booking drops it. -/
def restamp (s : State) (d i grid : Nat) (b : Booking) : State :=
  let now := nowP s d
  let s1 := showHold (keepWire (dropBook s d i b.no) d i b.l b.stop) d
  let why := bookWhy s1 d i now (now + b.lead) grid false b.len
  if why = 0 then
    let r := grantBook s1 d i (now + b.lead) grid false b.by' b.len b.lead true
    refill (bump r.1 (pLCH d) rLCH_RESTAMP_CNT) d i r.2
  else
    let s2 := raise (bump s1 (pLCH d) rLCH_BOOK_REJ_CNT) (pLCH d) 2
    let s3 := match b.by' with
      | .bridge _ _ _ _ _ => bump s2 (pLCH d) rLCH_BR_DROP_CNT
      | _ => s2
    complete (raise (bump s3 (pLCH d) rLCH_LATE_DROP_CNT) (pLCH d) 1) d i b.by' 2 b.l

/-- LATE_POLICY lets a late frame be stamped again (R188, R189). -/
def mayRestamp (s : State) (d : Nat) (b : Booking) : Bool :=
  match b.by'.policy with
  | none => false
  | some k => !b.again && bitOf (rdN s (pLCH d) rLCH_LATE_POLICY) k

/-- A late frame is counted, and dropped or returned to its builder; one that is not built yet returns when it
arrives. -/
def lateFrame (s : State) (d i grid : Nat) (b : Booking) : State :=
  let m := mono s
  let s1 := raise (bump s (pLCH d) rLCH_LATE_CNT) (pLCH d) 0
  let s2 := updPd s1 d fun x => { x with lates := m :: x.lates.filter fun t => decide (m < t + 1000000000) }
  if !mayRestamp s2 d b then lateDrop s2 d i b
  else if b.frame.isSome then restamp s2 d i grid b
  else updBook s2 d i b.no fun x => { x with late := true }

/-- A booking is late when its time comes: not held by R − 50 ns, or held while the port is paused at R. -/
def lateSoon (p : Port) (b : Booking) : Bool := !b.late && (!b.held || p.pause.isSome)

/-- LATE (R188): a booked frame has missed R − 50 ns, or cannot start at R. -/
def execLate (d : Fin 4) (i : Fin 8) (grid : Nat) (s : State) : Host.Outcome State Fault Refusal :=
  match (port s d i).books.find? (lateSoon (port s d i)) with
  | none => .next s
  | some b =>
    let r := releaseAt s d i b.l
    let s1 := advDie s d (if b.held then r else r - 50 * 65536)
    .next (if b.held && !replicaOk s1 d && !b.by'.isPlain then replicaDrop s1 d i b
      else lateFrame s1 d i grid b)

/-- LCH_LATE (R191): the late frames of the last second are judged against LATE_LIMIT. -/
def execLchLate (d : Fin 4) (s : State) : Host.Outcome State Fault Refusal :=
  let m := mono s
  let now := (pd s d).lates.filter fun t => decide (m < t + 1000000000)
  let s1 := updPd s d fun x => { x with lates := now }
  .next (doubt s1 (pLCH d) 0 (decide (get s (pLCH d) fLCH_LATE_LIMIT_CNT < now.length)))

/-- PAUSE_END (R178): the pause time of a port ends. -/
def execPauseEnd (d : Fin 4) (i : Fin 8) (s : State) : Host.Outcome State Fault Refusal :=
  match (port s d i).pause with
  | none => .next s
  | some t =>
    let s1 := updPort (advMono s t) d i fun p => { p with pause := none }
    .next (putB s1 (pMAC d i) fMAC_STAT_PAUSED false)

/-! ### Departure (R192, R254, R256) -/

/-- LAUNCH_DEV (R192): a deviation of `dev` ps beyond TOL. -/
def launchDev (s : State) (d i : Nat) (dev : Int) : State :=
  let p := pTSU d i
  let s1 := wrN s p rTSU_DEV_LAST (unsign 32 (satS 32 dev))
  let s2 := wrN s1 p rTSU_DEV_MAX (max (rdN s1 p rTSU_DEV_MAX) (satU 32 dev.natAbs))
  let s3 := raise (bump s2 p rTSU_DEV_CNT) p 0
  let m := mono s
  doubt (updPort (putB s3 p fTSU_STAT_DEV true) d i fun x => { x with devAt := m }) p 0 true

/-- The TSU measures a departure, where it checks deviations (R192). -/
def measureTx (s : State) (d i : Nat) (dev : Int) : State :=
  let p := pTSU d i
  if !flag s p fTSU_CFG_DEV_CHK || !pageEn s p then s
  else
    let s1 := bump s p rTSU_TIMED_CNT
    if orD (get s p fTSU_LAUNCH_TOL_TOL) 1 < dev.natAbs then launchDev s1 d i dev else s1

/-- What a PTP message that has departed at L leads to: a Follow_Up, a Pdelay_Resp_Follow_Up, a Pdelay_Req or
Delay_Req in flight. -/
def ptpDeparted (s : State) (d i : Nat) (m : PtpMsg) (l : Nat) : State :=
  let type := u8 m.msg 0 % 16
  let seq := be m.msg 30 2
  let send (b : List Byte) : State :=
    untimed s d i (ptpFrame s d i m.dest (sealPtp s d m.sa b)) none
  match m.time with
  | .origin => if pteForm s d = 3 then s else send (followUp s m l)
  | .receipt cf t2 => if pteForm s d = 3 then s else send (respFollowUp s m cf t2 l)
  | _ =>
    if type = 2 then
      let now := mono s
      updPdelay s d i fun p => { p with reqs := p.reqs ++ [⟨seq, l, now, 0, none⟩] }
    else
      match m.ref with
      | none => s
      | some r => updPd s d fun x => { x with ptp := { x.ptp with refs := upd x.ptp.refs r fun f =>
          { f with dreq := f.sync.map fun y => (seq, l, y.1, y.2) } } }

/-- TSU_DEPARTURE (R192): the oldest released frame of a port departs, `dev` ps after L beside the launch
jitter. -/
def execTsuDeparture (d : Fin 4) (i : Fin 8) (dev : Int) (s : State) :
    Host.Outcome State Fault Refusal :=
  match (port s d i).out with
  | [] => .next s
  | b :: t =>
    let s1 := updPort (advDie s d b.l) d i fun p => { p with out := t }
    let j := jitter s1 d i
    let s2 := measureTx j.1 d i (dev + j.2)
    .next (match b.by' with
      | .ptp m => ptpDeparted s2 d i m b.l
      | _ => s2)

/-- LAUNCH_DEV_END (R192): HOLD_MS has passed without a further deviation. -/
def execLaunchDevEnd (d : Fin 4) (i : Fin 8) (s : State) : Host.Outcome State Fault Refusal :=
  let p := pTSU d i
  if doubts s p 0 then
    let s1 := advMono s ((port s d i).devAt + orD (get s p fTSU_LAUNCH_TOL_HOLD_MS) 1 * 1000000)
    .next (doubt (putB s1 p fTSU_STAT_DEV false) p 0 false)
  else .next s

/-! ### The time lanes of a Port die (R66, R190) -/

/-- Frames whose release point has passed while the die's replica is not LOCKED are dropped (R190). -/
def replicaDrops (s : State) (d : Nat) : State :=
  if replicaOk s d then s
  else (List.range 8).foldl (fun s i =>
    let n := nowP s d
    ((port s d i).books.filter fun b => decide (releaseAt s d i b.l ≤ n)).foldl
      (fun s b => replicaDrop s d i b) s) s

/-- LANE_EXCHANGE (R66): at a 10 µs boundary the replica on a lane exchanges a two-way mark with the
master, of times t1 to t4 in ps, or misses it. The trim of the lane is added to θ (log entry 8). In KEEP the
replicas of the Port and Radio dies are stopped (Table 22-2). -/
def execLaneExchange (lane : Fin 6) (marks : Option (Int × Int × Int × Int)) (s : State) :
    Host.Outcome State Fault Refusal :=
  if get s pHubDie fDIE_PWR_STAT_STATE = 3 ∧ lane.val ≠ 0 then .next s else
  let s0 := if lane.val < 2 then s else replicaDrops s (lane.val - 2)
  let s1 := match marks with
    | none => missExchange s0 lane
    | some (t1, t2, t3, t4) =>
      exchange s0 lane (((t1 - t2) + (t4 - t3)) / 2 + laneTrim s lane) (((t2 - t1) + (t4 - t3)) / 2)
  .next (if lane.val < 2 then s1 else showTimed s1 (lane.val - 2))

end Sys2Proof.Machine
end

