-- ==== Sys2Proof/Machine/Sweep.lean ====
section
/-! DEFINITION. Registers that return to their cold values at resets, state exits and soft resets (R30, R448, R455,
R456), and the records of the doubts that such a return changes (R34). -/

namespace Sys2Proof.Machine

/-- The registers that `drop` names return to their cold values. -/
def sweep (s : State) (drop : Nat → Bool) : State := { s with regs := s.regs.filter fun e => !drop e.1 }

/-- A counter that software only reads; it stores a value of its own, and so restarts where a status register that
follows a condition does not. -/
def roCounter (k : PageKind) (off : Nat) : Bool :=
  match k with
  | .mac => off == rMAC_RX_FRAMES_LO || off == rMAC_RX_FRAMES_HI || off == rMAC_TX_FRAMES_LO || off == rMAC_TX_FRAMES_HI
  | .ans => off == rANS_PLAIN_LO || off == rANS_PLAIN_HI || off == rANS_NTSA_LO || off == rANS_NTSA_HI
  | .siv => off == rSIV_COOKIES_LO || off == rSIV_COOKIES_HI
  | _ => false

/-- A register follows the state of its block, and holds nothing of its own (R30): a status register, a word of a ring
or mailbox, or a ring's TAIL. -/
def follows (a : Nat) : Bool :=
  let off := offOf a
  match pageKind (pgOf a) with
  | none => false
  | some k =>
    match rowOf k (pgOf a) off with
    | none => true
    | some r =>
      (decide (a < 0x10000000) && r.rw == 0 && r.rwl == 0 && r.w1c == 0 && r.w1s == 0 && r.kept == 0 && !roCounter k off) ||
        (k == .hif && (List.range 16).any fun n => off == rHIF_RING_TAIL n)

/-- The code of the register at an address holds a letter (R30, R455). -/
def keeps (a letter : Nat) : Bool := bitOf (keptAt a) letter

/-- A reset or state exit of a letter: registers whose code lacks it return to cold; those that follow their block
stay with it, unless `wipe` says that the block has lost its state. -/
def sweepLetter (s : State) (letter : Nat) (wipe : Pg → Bool) : State :=
  sweep s fun a => !keeps a letter && (wipe (pgOf a) || !follows a)

/-- Every register of a page that no letter keeps returns to its cold value. -/
def wipePage (s : State) (p : Pg) : State := sweep s fun a => pgOf a == p && keptAt a == 0

/-- Every register of the pages of a switched domain returns to its cold value (R441); REC's are held in AO, and
TSU.AGE_TRIM shows the trim that the AGE page has given. -/
def wipeDomain (s : State) (dom : Nat) : State :=
  sweep s fun a =>
    let p := pgOf a
    match pageKind p with
    | none => false
    | some k => pageDomain k p == some dom && k != .recd && !(k == .tsu && offOf a == rTSU_AGE_TRIM)

/-- The pages on which a doubt may stand. -/
def doubtful (s : State) : List Pg := (s.regs.filter fun e => offOf e.1 == rDOUBT_RAW).map fun e => pgOf e.1

/-- Where PAGE_STAT.DOUBT of a page differs from before, a record says so (R34). -/
def noteAll (before s : State) : State :=
  (doubtful before ++ doubtful s).eraseDups.foldl (fun s p => noteDoubt before s p false) s

end Sys2Proof.Machine
end

