-- ==== Sys2Proof/Machine/Tst.lean ====
section
/-! DEFINITION. The TST page of each die and the test access port (spec/25): unlocking, perturbations and what
they do as they begin and end, and boundary scan. -/

namespace Sys2Proof.Machine

/-! ### What follows a change of a page's perturbations -/

/-- TST.STAT.ACTIVE: the perturbations that act (Table 25-4). -/
def tstActive (s : State) (die : Nat) : Nat :=
  let t := pTST die
  let ofs := (List.range 10).any fun k => rdN s t (rTST_TDC_OFS k) != 0
  let bits := [rdN s t rTST_ANS_DLY != 0, flag s t fTST_XING_DLY_EN,
    get s t fTST_BP_CFG_BUSY_NS != 0 && get s t fTST_BP_PORTS_PORT != 0, get s t fTST_JIT_PORTS_PORT != 0,
    ofs || rdN s t rTST_RING_OFS != 0, flag s t fTST_DOUBT_INJ_EN, flag s t fTST_TILE_INJ_ARMED,
    get s t fTST_LOOP_MODE != 0 || get s t fTST_ASK_LOOP_LINK != 0]
  if perturbed s die then (List.range 8).foldl (fun m k => m + ofBool (ix bits k false) * 2 ^ k) 0 else 0

/-- The page whose doubt a die's TST page may inject. -/
def injPage (s : State) (die : Nat) : Pg := ⟨die, get s (pTST die) fTST_DOUBT_INJ_PAGE⟩

/-- A page does not implement the DOUBT_RAW bit that DOUBT_INJ names (R488). -/
def injNop (s : State) (die : Nat) : Bool :=
  flag s (pTST die) fTST_DOUBT_INJ_EN &&
    match pageKind (injPage s die) with
    | none => true
    | some k => !bitOf (doubtImpl k die) (get s (pTST die) fTST_DOUBT_INJ_BIT)

/-- A change of ACTIVE sets INT_RAW[0] and writes a TEST_PERTURB record, whatever EVT_EN holds (R486). -/
def showActiveTst (s : State) (die : Nat) : State :=
  let t := pTST die
  let old := get s t fTST_STAT_ACTIVE
  let new := tstActive s die
  if old = new then s else record (raise (put s t fTST_STAT_ACTIVE new) t 0) t 0x158 2 new old

/-- A port whose loopback mode has changed drops LINK (R491). -/
def loopFollow (before s : State) (d : Nat) : State :=
  (List.range 8).foldl (fun s i => if loopMode before d i != loopMode s d i && linkUp s d i then linkFall s d i else s) s

/-- What a change of a die's TST page brings about at once: the injected doubt, ACTIVE and the loopbacks (R486,
R488, R491). -/
def tstFollow (before s : State) (die : Nat) : State :=
  let s1 := [injPage before die, injPage s die].eraseDups.foldl (fun s p => noteDoubt before s p true) s
  let s2 := showActiveTst (putB s1 (pTST die) fTST_STAT_INJ_NOP (injNop s1 die)) die
  if die = 1 then (List.range 4).foldl (fun s k => if askLooped before k != askLooped s k then askLeave s k else s) s2
  else if isPortDie die then showTimed (loopFollow before s2 (die - 4)) (die - 4)
  else s2

/-! ### Unlocking and locking (R483–R485) -/

/-- A page locks again: every perturbation stops and the configuration returns to its cold values (R485). -/
def tstLock (s : State) (die : Nat) : State :=
  let t := pTST die
  let s1 := sweep s fun a => pgOf a == t && decide (0x40 ≤ offOf a) && offOf a != rTST_STAT && offOf a != rTST_INJ_CNT
  let s2 := putB s1 t fTST_STAT_UNLOCKED false
  tstFollow s (if isPortDie die then updPd s2 (die - 4) fun x => { x with inj := none } else s2) die

/-- Every page that is unlocked locks again, and a first value of an unlock is forgotten. -/
def tstLockAll (s : State) : State :=
  (List.range 8).foldl (fun s die => if flag s (pTST die) fTST_STAT_UNLOCKED then tstLock s die else s)
    { s with unlock := [] }

/-- A write of TST.UNLOCK (R484): 0x7E57 is kept as the first value, and 0x0A11 from the same requester within 1 ms
unlocks the page where TEST_EN was sampled as 1; otherwise the sequence is counted. -/
def tstUnlock (s : State) (r : Requester) (die key : Nat) : State :=
  let first := amGet? die s.unlock
  let now := mono s
  let s1 := { s with unlock := amErase die s.unlock }
  if key = 0x7E57 then { s with unlock := amSet die (reqCode r, now) s.unlock }
  else if key = 0x0A11 && first.any fun f => f.1 == reqCode r && decide (now ≤ f.2 + 1000000) then
    (if s.straps.testEn then tstFollow s (putB s1 (pTST die) fTST_STAT_UNLOCKED true) die
     else bump s1 (pDIE die) rDIE_LOCK_VIOL_CNT)
  else s1

/-- TST_UNLOCK (R484): a write of TST.UNLOCK. -/
def execTstUnlock (r : Requester) (die : Fin 8) (v : Word) (s : State) : Host.Outcome State Fault Refusal :=
  .next (onWrite s r (pTST die) fun s => tstUnlock s r die (v.toNat % 0x10000))

/-- A write to a register of the page other than UNLOCK: discarded and counted while the page is locked (R483),
else followed by what it changes. -/
def tstWrite (s : State) (die : Nat) (f : State → State) : State :=
  if flag s (pTST die) fTST_STAT_UNLOCKED then tstFollow s (f s) die
  else bump s (pDIE die) rDIE_LOCK_VIOL_CNT

/-- RELOCK (R485): a write of TST.CTRL.RELOCK. -/
def execRelock (r : Requester) (die : Fin 8) (s : State) : Host.Outcome State Fault Refusal :=
  .next (onWrite s r (pTST die) fun s => tstWrite s die fun s => tstLock s die)

/-! ### Perturbations -/

/-- DOUBT_INJ_WRITE (R488): a write of TST.DOUBT_INJ. -/
def execDoubtInjWrite (r : Requester) (die : Fin 8) (v : Word) (s : State) : Host.Outcome State Fault Refusal :=
  .next (onWrite s r (pTST die) fun s => tstWrite s die fun s =>
    wrN s (pTST die) rTST_DOUBT_INJ (v.toNat &&& 0x801F01FF))

/-- A write of TST.TILE_INJ (R489): the fields are stored, BIT within its limit, and ARM arms COUNT inversions. -/
def tileInj (s : State) (die v : Nat) : State :=
  let t := pTST die
  let kind := if v % 4 = 3 then 0 else v % 4
  let bit := min (fTST_TILE_INJ_BIT.of v) (if kind = 0 then 2063 else 511)
  let count := fTST_TILE_INJ_COUNT.of v
  let s1 := put (put (put s t fTST_TILE_INJ_KIND v) t fTST_TILE_INJ_BIT bit) t fTST_TILE_INJ_COUNT count
  if bitOf v 31 then
    updPd (putB s1 t fTST_TILE_INJ_ARMED true) (die - 4) fun x => { x with inj := some ⟨kind, orD count 1⟩ }
  else s1

/-- TILE_INJ_ARM (R489): a write of TST.TILE_INJ on a Port die. -/
def execTileInjArm (r : Requester) (d : Fin 4) (v : Word) (s : State) : Host.Outcome State Fault Refusal :=
  .next (onWrite s r (pTST (4 + d)) fun s => tstWrite s (4 + d) fun s => tileInj s (4 + d) v.toNat)

/-- BUSY_NS as stored: no more than the period less 100 ns. -/
def bpStored (v : Nat) : Nat :=
  let period := orD (fTST_BP_CFG_PERIOD_US.of v) 1
  fTST_BP_CFG_BUSY_NS.into (v % 0x10000000) (min (fTST_BP_CFG_BUSY_NS.of v) (period * 1000 - 100))

/-- JITTER as stored: each part within 2,000 ps. -/
def jitterStored (v : Nat) : Nat :=
  let ofs := signed 16 (v / 0x10000 % 0x10000)
  min (v % 0x10000) 2000 + unsign 16 (max (-2000) (min ofs 2000)) * 0x10000

/-- What a write of one of the other registers of the page stores. -/
def tstStored (off v : Nat) : Nat :=
  if off = rTST_BP_CFG then bpStored v
  else if off = rTST_JITTER then jitterStored v
  else v

/-- BACKPRESSURE_PERIOD (R487, Table 25-1): at the start of a period every selected port of a die is held occupied
for BUSY_NS, as if booked. -/
def execBackpressurePeriod (d : Fin 4) (s : State) : Host.Outcome State Fault Refusal :=
  let t := pTST (4 + d)
  let busy := get s t fTST_BP_CFG_BUSY_NS * 65536
  let now := nowP s d
  if perturbed s (4 + d) && busy != 0 then
    .next ((List.range 8).foldl (fun s i =>
      if bitOf (get s t fTST_BP_PORTS_PORT) i then keepWire s d i now (now + busy) else s) s)
  else .next s

/-! ### Boundary scan (R494, R495) -/

/-- The instructions that hand the balls to the boundary register: EXTEST, CLAMP, HIGHZ, EXTEST_PULSE and
EXTEST_TRAIN (R495). -/
def tapDrives (code : Nat) : Bool := code == 0 || code == 4 || code == 5 || code == 6 || code == 7

/-- The instruction that a code selects: every unlisted one is BYPASS, 0xFF (R494). -/
def tapCode (code : Nat) : Nat := if code ≤ 7 ∧ code ≠ 3 then code else 0xFF

/-- TAP_INSTRUCTION (R494, R495): an instruction takes effect, or a TAP reset selects IDCODE (none). -/
def execTapInstruction (code : Option (BitVec 8)) (s : State) : Host.Outcome State Fault Refusal :=
  let c := match code with
    | none => 2
    | some v => tapCode v.toNat
  .next { s with tap := c }

end Sys2Proof.Machine
end

