-- ==== Sys2Proof/Machine/Flags.lean ====
section
/-! DEFINITION. What a write stores: the access codes of Table 02-2 bit by bit, and the values that a register
stores otherwise than written, as the field tables of spec/01 to spec/25 say. -/

namespace Sys2Proof.Machine

/-! ### The access codes (R28) -/

/-- The bits of a register that a write may change in each way. -/
structure WMask where
  rw : Nat
  w1c : Nat
  w1s : Nat
  anyBit : Bool

/-- What a register holds after a write: rw bits take the value, w1c bits written 1 clear (all of them where any 1
clears the register), w1s bits written 1 set; all others stay. -/
def wmerge (m : WMask) (old v : Nat) : Nat :=
  let kept := old - (old &&& m.rw) + (v &&& m.rw)
  let hit := if m.anyBit then (if v &&& m.w1c = 0 then 0 else m.w1c) else v &&& m.w1c
  let cleared := kept - (kept &&& hit)
  cleared ||| (v &&& m.w1s)

/-- A field held within limits. -/
def Fld.clamp (f : Fld) (lo hi v : Nat) : Nat := f.into v (max lo (min (f.of v) hi))

/-! ### Values stored otherwise than written -/

/-- TXEQ: MAIN is reduced where the three taps exceed 63 (Table 09-7). -/
def txeqStored (f g h : Fld) (v : Nat) : Nat :=
  if 63 < f.of v + g.of v + h.of v then g.into v (63 - f.of v - h.of v) else v

/-- PFX_CFG.LEN: at most 32 for IPv4 and 64 for IPv6 (Table 10-11). -/
def pfxStored (v : Nat) : Nat :=
  fTBL_PFX_CFG_LEN.clamp 0 (if fTBL_PFX_CFG_V6.of v = 1 then 64 else 32) v

/-- SCRUB.INTERVAL: 1–63 are stored as 64 (Table 10-11). -/
def scrubStored (v : Nat) : Nat :=
  let n := fTBL_SCRUB_INTERVAL.of v
  if n ≠ 0 ∧ n < 64 then fTBL_SCRUB_INTERVAL.into v 64 else v

/-- The offset lies in an array of `n` registers that starts at `off 0` in steps of 4. -/
def inArr (off0 n off : Nat) : Bool := decide (off0 ≤ off) && decide (off < off0 + 4 * n)

/-- The value a register stores for the value of a write, on Port pages. -/
def storedPort (s : State) (k : PageKind) (p : Pg) (off v : Nat) : Nat :=
  match k with
  | .sds =>
    match (List.range 4).find? fun n => off == rSDS_LANE_TXEQ n with
    | some n => txeqStored (fSDS_LANE_TXEQ_PRE n) (fSDS_LANE_TXEQ_MAIN n) (fSDS_LANE_TXEQ_POST n) v
    | none => v
  | .mac => if off = rMAC_CFG then fMAC_CFG_MAX_LEN.clamp 1518 9216 v else v
  | .lch =>
    if off = rLCH_MAX_HOLD then fLCH_MAX_HOLD_NS.clamp 2200 0xFFFF v
    else if off = rLCH_BRIDGE_LEAD then
      fLCH_BRIDGE_LEAD_NS.into v (min (max 600 (fLCH_BRIDGE_LEAD_NS.of v)) (get s p fLCH_MAX_HOLD_NS))
    else if off = rLCH_SW_LEAD then fLCH_SW_LEAD_NS.clamp 600 0xFFFF v
    else if off = rLCH_STARVE then fLCH_STARVE_NS.clamp 1000 0xFFFF v
    else v
  | .ans =>
    if off = rANS_LAUNCH_LEAD then
      fANS_LAUNCH_LEAD_PLAIN.clamp 600 0xFFFF (fANS_LAUNCH_LEAD_NTS.clamp 600 0xFFFF v)
    else v
  | .tbl =>
    if off = rTBL_KOD then fTBL_KOD_POLL.clamp 0 17 v
    else if off = rTBL_SCRUB then scrubStored v
    else if off = rTBL_PFX_CFG then pfxStored v
    else v
  | .pte => if off = rPTE_LEAD then fPTE_LEAD_NS.clamp 600 0xFFFF v else v
  | _ => v

/-- The value a register stores for the value of a write, on the Timebase and the Radio. -/
def storedTime (k : PageKind) (off v : Nat) : Nat :=
  match k with
  | .tbe => if off = rTBE_SLEW_LIMIT then fTBE_SLEW_LIMIT_PPB.clamp 0 100000 v else v
  | .mck =>
    if off = rMCK_CUE_CFG then fMCK_CUE_CFG_FRAME_LEAD.clamp 10 1000 v
    else if off = rMCK_CAP_CFG then fMCK_CAP_CFG_THRESH.clamp 0 64 v
    else if off = rMCK_TOD_CFG then fMCK_TOD_CFG_OFFSET0.clamp 0 999 (fMCK_TOD_CFG_OFFSET1.clamp 0 999 v)
    else v
  | .tdc => if off = rTDC_CFG then fTDC_CFG_AVG_LOG2.clamp 0 10 v else v
  | .acq => if off = rACQ_JOB 0 then fACQ_JOB0_NCOH.clamp 0 64 v else v
  | .snp => if off = rSNP_PERIOD then fSNP_PERIOD_PHASE_MS.clamp 0 999 v else v
  | _ => v

/-- The value a register stores for the value of a write, on the Hub and on the pages of every die. -/
def storedHub (k : PageKind) (off v : Nat) : Nat :=
  match k with
  | .isl =>
    if off = rISL_DV_LIMIT then min v 160 else if off = rISL_DT_LIMIT then min v 45 else v
  | .key =>
    if off = rKEY_ROT_CFG then fKEY_ROT_CFG_PERIOD_MIN.clamp 10 0xFFFF v
    else if off = rKEY_RETAIN then fKEY_RETAIN_COUNT.clamp 2 4 v
    else v
  | .cpu =>
    if off = rCPU_SHARED || inArr (rCPU_REG 2) 4 off then (if 127 < v % 256 then v - v % 256 + 127 else v) else v
  | .age =>
    if off = rAGE_LIMITS then fAGE_LIMITS_TJ_LIMIT.clamp 0 105 v
    else if off = rAGE_REVIEW_CFG then fAGE_REVIEW_CFG_MODEL_DAYS.clamp 0 30 v
    else v
  | .hif => if (List.range 16).any fun n => off == rHIF_RING_BASE_LO n then v / 32 * 32 else v
  | .tst => tstStored off v
  | _ => v

/-- The value a register stores for the value of a write. -/
def storedAs (s : State) (k : PageKind) (p : Pg) (off v : Nat) : Nat :=
  storedPort s k p off (storedTime k off (storedHub k off v))

end Sys2Proof.Machine
end

