-- ==== Sys2Proof/Machine/Cpu.lean ====
section
/-! DEFINITION. The control processors' page: starting and stopping harts, doorbells, the machine timer and
the watchdogs (spec/16). What a hart's instruction does is in Hart. -/

namespace Sys2Proof.Machine

/-- A hart. -/
def hart (s : State) (h : Nat) : Hart := ix s.harts h Hart.cold

/-- Change a hart. -/
def updHart (s : State) (h : Nat) (f : Hart → Hart) : State := { s with harts := upd s.harts h f }

/-- The harts for which a property holds, as a mask. -/
def hartMask (s : State) (f : Hart → Bool) : Nat :=
  (List.range 6).foldl (fun m h => m + ofBool (f (hart s h)) * 2 ^ h) 0

/-- HART_STAT, WDT_STAT and the page's doubts show the harts as they are. -/
def showHarts (s : State) : State :=
  let run := hartMask s fun x => x.run
  let s1 := put (put s pCPU fCPU_HART_STAT_RUN run) pCPU fCPU_HART_STAT_HALTED (63 - run)
  let s2 := put s1 pCPU fCPU_WDT_STAT_EXPIRED (hartMask s fun x => x.expired.isSome)
  let s3 := doubt s2 pCPU 0 ((hart s 0).expired.isSome || (hart s 1).expired.isSome)
  doubt s3 pCPU 1 ((List.range 4).any fun k => (hart s (k + 2)).warned)

/-- The start address of a hart. -/
def startPc (s : State) (h : Nat) : BitVec 64 := BitVec.ofNat 64 (get s pCPU (fCPU_START_PC h) * 4)

/-- A hart starts at an address: its watchdog counts from TIMEOUT, and an application hart's expiry ends
(R347). A keeper's stage 1 stands: a restart alone cancels nothing (R348). -/
def hartStart (s : State) (h : Nat) (pc : BitVec 64) : State :=
  let now := mono s
  updHart s h fun x =>
    let y := { x with run := true, pc := pc, halting := false, kicked := now }
    if h < 2 then y else { y with expired := none, warned := false }

/-- The architectural state of a hart is reset (R339): mode M, mstatus, mie, mip, the PMP entries off and the
integer registers 0. -/
def hartArch (s : State) (h : Nat) : State :=
  updHart s h fun x => { x with machine := true, mstatus := Hart.cold.mstatus, mie := 0, msip := false, resv := none,
                                xs := Vector.replicate 31 0, pmpcfg := List.replicate 16 0 }

/-- RESTART of a hart (R339). -/
def restartHart (s : State) (h : Nat) : State := hartStart (hartArch s h) h (startPc s h)

/-- A hart halts at once. -/
def haltHart (s : State) (h : Nat) : State := updHart s h fun x => { x with run := false, halting := false, resv := none }

/-- The requester may act on a hart through HART_CTRL (R339): the host and keepers on harts 2–5, a keeper on
the other keeper. -/
def mayAct (r : Requester) (h : Nat) : Bool :=
  match r with
  | .host => decide (2 ≤ h)
  | .hart g => isKeeper r && (decide (2 ≤ h) || g.val != h)

/-- HART_CTRL acts on one hart (R339): HALT wins over RUN and RESTART, RESTART over RUN. -/
def hartAct (s : State) (run halt restart : Nat) (h : Nat) : State :=
  if bitOf halt h then updHart s h fun x => if x.run then { x with halting := true } else x
  else if bitOf restart h then restartHart s h
  else if bitOf run h && !(hart s h).run then hartStart s h (startPc s h)
  else s

/-- A write of HART_CTRL (R339). A bit the requester may not write is discarded, and the write is counted
once in DENY_CNT. -/
def hartCtrl (s : State) (r : Requester) (run halt restart : Nat) : State :=
  let may := (List.range 6).filter fun h => mayAct r h
  let s1 := showHarts (may.foldl (fun s h => hartAct s run halt restart h) s)
  if (List.range 6).any fun h => (bitOf run h || bitOf halt h || bitOf restart h) && !mayAct r h
  then deny s1 r 2 else s1

/-- HART_RUN (R339): a write of HART_CTRL.RUN. -/
def execHartRun (r : Requester) (harts : BitVec 6) (s : State) : Host.Outcome State Fault Refusal :=
  .next (onWrite s r pCPU fun s => hartCtrl s r harts.toNat 0 0)

/-- HART_HALT (R339): a write of HART_CTRL.HALT. -/
def execHartHalt (r : Requester) (harts : BitVec 6) (s : State) : Host.Outcome State Fault Refusal :=
  .next (onWrite s r pCPU fun s => hartCtrl s r 0 harts.toNat 0)

/-- HART_RESTART (R339): a write of HART_CTRL.RESTART. -/
def execHartRestart (r : Requester) (harts : BitVec 6) (s : State) : Host.Outcome State Fault Refusal :=
  .next (onWrite s r pCPU fun s => hartCtrl s r 0 0 harts.toNat)

/-! ### Doorbells (R346) -/

/-- A requester is a given hart. -/
def isHart (r : Requester) (h : Nat) : Bool :=
  match r with
  | .hart g => g.val == h
  | .host => false

/-- A doorbell's message is stored and its pending bit set. -/
def doorbell (s : State) (h : Nat) (msg : Word) : State :=
  let full := bitOf (get s pCPU fCPU_DB_PEND_PEND) h
  let s1 := wr s pCPU (rCPU_DB h) msg
  let s2 := put s1 pCPU fCPU_DB_PEND_PEND (setBit (get s1 pCPU fCPU_DB_PEND_PEND) h true)
  if full then raise (bump s2 pCPU rCPU_DB_OVR_CNT) pCPU 4 else s2

/-- DOORBELL (R346): a write of CPU.DBh by the host or another hart; hart h's own is discarded. -/
def execDoorbell (r : Requester) (h : Fin 6) (msg : Word) (s : State) : Host.Outcome State Fault Refusal :=
  .next (access s r pCPU true (!isHart r h) fun s => if isHart r h then s else doorbell s h msg)

/-- A write of DB_PEND (R346, R349): w1c by the host and the keepers, and by an application hart for its own
bit; other bits it writes are denied. -/
def dbPendWrite (s : State) (r : Requester) (v : Nat) : State :=
  let mine := match r with
    | .hart h => if isApp r then 2 ^ h.val else 63
    | .host => 63
  let cleared := get s pCPU fCPU_DB_PEND_PEND
  let s1 := put s pCPU fCPU_DB_PEND_PEND (cleared - (cleared &&& (v &&& mine)))
  if v % 64 &&& (63 - mine) ≠ 0 then deny s1 r 2 else s1

/-! ### The machine timer (R344) -/

/-- MTIMER (R344): MTIME, the MONO of the Hub's replica, reaches the MTIMECMP of a hart, and from then on its MTIP
is 1. -/
def execMtimer (h : Fin 6) (s : State) : Host.Outcome State Fault Refusal :=
  .next (advP s (((hart s h).cmp.toNat : Int) * 65536 - (ix s.tb.replicas 0 Replica.cold).ofs).toNat)

/-! ### Watchdogs (R347, R348) -/

/-- A watchdog's TIMEOUT in ns. -/
def wdtNs (s : State) (h : Nat) : Nat := orD (get s pCPU (fCPU_WDT_CFG_TIMEOUT_MS h)) 1 * 1000000

/-- A watchdog counts: its hart runs, it is enabled and has not expired. -/
def wdtCounts (s : State) (h : Nat) : Bool :=
  (hart s h).run && flag s pCPU (fCPU_WDT_CFG_EN h) && (hart s h).expired.isNone

/-- A kick (R347, R348): the count starts again, and the expiry and its doubt end. -/
def kickHart (s : State) (h : Nat) : State :=
  let now := mono s
  showHarts (updHart s h fun x => { x with kicked := now, expired := none, warned := false })

/-- KICK (R348): hart h writes KICK in the core-local block. -/
def execKick (h : Fin 6) (s : State) : Host.Outcome State Fault Refusal := .next (kickHart s h)

/-- What an expiry of application hart h does (R347). -/
def appExpire (s : State) (h : Nat) : State :=
  let now := mono s
  let s1 := raise (bump s pCPU rCPU_WDT_EXP_CNT) pCPU 1
  let s2 := updHart s1 h fun x => { x with expired := some now }
  match get s pCPU (fCPU_WDT_CFG_ACTION h) with
  | 1 => showHarts (restartHart s2 h)
  | 2 => showHarts (updHart s2 h fun x => { x with warned := true, halting := true })
  | _ => showHarts (updHart s2 h fun x => { x with warned := true })

/-- APP_WDT (R347): the watchdog of application hart 2 + k expires. -/
def execAppWdt (k : Fin 4) (s : State) : Host.Outcome State Fault Refusal :=
  let h := k.val + 2
  if domOn s domHC && wdtCounts s h then .next (appExpire (advMono s ((hart s h).kicked + wdtNs s h)) h)
  else .next s

/-- KEEPER_WDT (R348): stage 1 of a keeper's watchdog. The other keeper is warned whatever its ROUTE.WDT
holds: `hartMeip` reads the expiry. -/
def execKeeperWdt (h : Fin 2) (s : State) : Host.Outcome State Fault Refusal :=
  if wdtCounts s h then
    let s1 := advMono s ((hart s h).kicked + wdtNs s h)
    let now := mono s1
    .next (raise (showHarts (updHart (bump s1 pCPU rCPU_WDT_EXP_CNT) h fun x => { x with expired := some now })) pCPU 0)
  else .next s

/-- The MONO at which stage 2 of a keeper's watchdog falls (R348). -/
def graceAt (s : State) (h : Nat) : Option Nat :=
  (hart s h).expired.map fun t => t + orD (get s pCPU fCPU_WDT_GUARD_GRACE_MS) 1 * 1000000

/-! ### Interrupts (R345) -/

/-- MEIP of a hart (R345). -/
def hartMeip (s : State) (h : Nat) : Bool :=
  let dev := get s pHubDie fDIE_DEV_INT_DIE
  let app := (List.range 4).any fun k => (hart s (k + 2)).expired.isSome
  decide (dev &&& get s pCPU (fCPU_ROUTE_DIE h) ≠ 0) ||
    (bitOf (get s pCPU fCPU_DB_PEND_PEND) h && flag s pCPU (fCPU_ROUTE_DB h)) ||
    (decide (h < 2) && ((app && flag s pCPU (fCPU_ROUTE_WDT h)) || (hart s (1 - h)).expired.isSome))

/-! ### Resets and power (R338, R349) -/

/-- An ISLAND reset of Hub island 1: harts 2–5 halt and their watchdogs stop. -/
def appHartsStop (s : State) : State :=
  showHarts ([2, 3, 4, 5].foldl (fun s h => updHart s h fun x => { x with run := false, halting := false, expired := none, warned := false, resv := none }) s)

/-- An ISLAND reset of Hub island 0: harts 0 and 1 restart, and a pending stage 2 is cancelled. -/
def keeperRestart (s : State) : State :=
  showHarts ([0, 1].foldl (fun s h => restartHart (updHart s h fun x => { x with expired := none }) h) s)

/-- Domain HC has been turned off: harts 2–5 keep nothing (R18, R349). -/
def appHartsLost (s : State) : State :=
  showHarts ([2, 3, 4, 5].foldl (fun s h => updHart s h fun _ => Hart.cold) s)

/-- COLD, PIN, WARM and GUARD resets (R338): every hart is held. -/
def hartsReset (s : State) : State := showHarts { s with harts := List.replicate 6 Hart.cold }

/-- Hart 0 starts in the boot ROM (R338). -/
def hartsBoot (s : State) : State := showHarts (hartStart s 0 0)

/-- VIGIL and KEEP: all six harts stop (R349). -/
def hartsStop (s : State) : State :=
  showHarts { s with harts := s.harts.map fun x => { x with run := false, halting := false, resv := none } }

end Sys2Proof.Machine
end

