-- ==== Sys2Proof/Machine/Sha.lean ====
section
/-! DEFINITION. SHA-256 (FIPS 180-4) and the verification of an ECDSA P-256 signature (FIPS 186-5), which the boot ROM
uses (R430; log entry 11). -/

namespace Sys2Proof.Machine

/-- The constants of the SHA-256 rounds. -/
def shaK : List Nat :=
  [0x428a2f98, 0x71374491, 0xb5c0fbcf, 0xe9b5dba5, 0x3956c25b, 0x59f111f1, 0x923f82a4, 0xab1c5ed5] ++
  [0xd807aa98, 0x12835b01, 0x243185be, 0x550c7dc3, 0x72be5d74, 0x80deb1fe, 0x9bdc06a7, 0xc19bf174] ++
  [0xe49b69c1, 0xefbe4786, 0x0fc19dc6, 0x240ca1cc, 0x2de92c6f, 0x4a7484aa, 0x5cb0a9dc, 0x76f988da] ++
  [0x983e5152, 0xa831c66d, 0xb00327c8, 0xbf597fc7, 0xc6e00bf3, 0xd5a79147, 0x06ca6351, 0x14292967] ++
  [0x27b70a85, 0x2e1b2138, 0x4d2c6dfc, 0x53380d13, 0x650a7354, 0x766a0abb, 0x81c2c92e, 0x92722c85] ++
  [0xa2bfe8a1, 0xa81a664b, 0xc24b8b70, 0xc76c51a3, 0xd192e819, 0xd6990624, 0xf40e3585, 0x106aa070] ++
  [0x19a4c116, 0x1e376c08, 0x2748774c, 0x34b0bcb5, 0x391c0cb3, 0x4ed8aa4a, 0x5b9cca4f, 0x682e6ff3] ++
  [0x748f82ee, 0x78a5636f, 0x84c87814, 0x8cc70208, 0x90befffa, 0xa4506ceb, 0xbef9a3f7, 0xc67178f2]

/-- The initial hash value of SHA-256. -/
def shaInit : List Nat :=
  [0x6a09e667, 0xbb67ae85, 0x3c6ef372, 0xa54ff53a, 0x510e527f, 0x9b05688c, 0x1f83d9ab, 0x5be0cd19]

/-- A 32-bit word rotated right. -/
def rotr (x k : Nat) : Nat := (x >>> k ||| x <<< (32 - k)) % 0x100000000

/-- The message schedule: 64 words, the newest first, from the 16 of a block in the same order. -/
def shaSchedule : Nat → List Nat → List Nat
  | 0, w => w
  | k + 1, w =>
    let a := ix w 14 0
    let b := ix w 1 0
    let s0 := rotr a 7 ^^^ rotr a 18 ^^^ a >>> 3
    let s1 := rotr b 17 ^^^ rotr b 19 ^^^ b >>> 10
    shaSchedule k ((ix w 15 0 + s0 + ix w 6 0 + s1) % 0x100000000 :: w)

/-- One round on the working variables a to h. -/
def shaRound (v : List Nat) (kw : Nat) : List Nat :=
  let g (i : Nat) : Nat := ix v i 0
  let e := g 4
  let a := g 0
  let t1 := g 7 + (rotr e 6 ^^^ rotr e 11 ^^^ rotr e 25) + (e &&& g 5 ^^^ (0xFFFFFFFF - e) &&& g 6) + kw
  let t2 := (rotr a 2 ^^^ rotr a 13 ^^^ rotr a 22) + (a &&& g 1 ^^^ a &&& g 2 ^^^ g 1 &&& g 2)
  [(t1 + t2) % 0x100000000, a, g 1, g 2, (g 3 + t1) % 0x100000000, e, g 5, g 6]

/-- Big-endian 32-bit words of bytes. -/
def words32 (k : Nat) (l : List Byte) : List Nat := (List.range k).map fun i => natBE (slice l (4 * i) 4)

/-- One block of 64 bytes. -/
def shaBlock (h : List Nat) (block : List Byte) : List Nat :=
  let w := (shaSchedule 48 (words32 16 block).reverse).reverse
  let v := (List.zipWith (· + ·) shaK w).foldl shaRound h
  List.zipWith (fun a b => (a + b) % 0x100000000) h v

/-- The blocks of a padded message. -/
def shaBlocks : Nat → List Byte → List Nat → List Nat
  | 0, _, h => h
  | k + 1, l, h => shaBlocks k (l.drop 64) (shaBlock h (l.take 64))

/-- SHA-256 of bytes, as a number. -/
def sha256 (m : List Byte) : Nat :=
  let pad := (119 - m.length % 64) % 64
  let l := m ++ [0x80#8] ++ List.replicate pad 0 ++ bytesBE 8 (m.length * 8)
  (shaBlocks (l.length / 64) l shaInit).foldl (fun n w => n * 0x100000000 + w) 0

/-! ### P-256 -/

/-- The prime of the field. -/
abbrev p256P : Nat := 2 ^ 256 - 2 ^ 224 + 2 ^ 192 + 2 ^ 96 - 1

/-- The order of the base point. -/
abbrev p256N : Nat := 0xFFFFFFFF00000000FFFFFFFFFFFFFFFFBCE6FAADA7179E84F3B9CAC2FC632551

/-- The coefficient b of the curve. -/
abbrev p256B : Nat := 0x5AC635D8AA3A93E7B3EBBD55769886BC651D06B0CC53B0F63BCE3C3E27D2604B

/-- The base point. -/
def p256G : Option (Nat × Nat) :=
  some (0x6B17D1F2E12C4247F8BCE6E563A440F277037D812DEB33A0F4A13945D898C296,
    0x4FE342E2FE1A7F9B8EE7EB4A7C0F9E162BCE33576B315ECECBB6406837BF51F5)

/-- a to the power e modulo m, where e has at most k bits. -/
def powM (m a : Nat) : Nat → Nat → Nat
  | 0, _ => 1
  | k + 1, e =>
    let h := powM m a k (e / 2)
    let q := h * h % m
    if e % 2 = 1 then q * a % m else q

/-- The inverse modulo a prime of at most 256 bits. -/
def invM (m a : Nat) : Nat := powM m (a % m) 256 (m - 2)

/-- The sum of two points; none is the point at infinity. -/
def ecAdd : Option (Nat × Nat) → Option (Nat × Nat) → Option (Nat × Nat)
  | none, b => b
  | a, none => a
  | some (x1, y1), some (x2, y2) =>
    if x1 = x2 ∧ (y1 + y2) % p256P = 0 then none
    else
      let m := if x1 = x2 then (3 * x1 * x1 + (p256P - 3)) * invM p256P (2 * y1) % p256P
        else (y2 + (p256P - y1)) * invM p256P (x2 + (p256P - x1)) % p256P
      let x := (m * m + 2 * p256P - x1 - x2) % p256P
      some (x, (m * (x1 + (p256P - x)) + (p256P - y1)) % p256P)

/-- A multiple of a point, by a number of at most k bits. -/
def ecMul (q : Option (Nat × Nat)) : Nat → Nat → Option (Nat × Nat)
  | 0, _ => none
  | k + 1, e =>
    let h := ecMul q k (e / 2)
    let d := ecAdd h h
    if e % 2 = 1 then ecAdd d q else d

/-- Coordinates name a point of the curve. -/
def onCurve (x y : Nat) : Bool :=
  decide (x < p256P) && decide (y < p256P) &&
    (y * y % p256P == (x * x % p256P * x + (p256P - 3) * x + p256B) % p256P)

/-- A signature (r, s) verifies under a key over a hash. -/
def ecdsaOk (x y r s hash : Nat) : Bool :=
  if r = 0 ∨ s = 0 ∨ p256N ≤ r ∨ p256N ≤ s ∨ onCurve x y = false then false
  else
    let w := invM p256N s
    match ecAdd (ecMul p256G 256 (hash * w % p256N)) (ecMul (some (x, y)) 256 (r * w % p256N)) with
    | none => false
    | some (x1, _) => x1 % p256N == r

end Sys2Proof.Machine
end

