-- ==== Sys2Proof/Machine/Boot.lean ====
section
/-! DEFINITION. The boot ROM: its sources, the checks of an image, host load, and the fuses (spec/21, R428–R434). What
the ROM does through registers of the port it boots from are hart 0's register accesses; what it prints on
CON_TX is left out, since its form is not given (log entry 22). -/

namespace Sys2Proof.Machine

/-- Change where the boot ROM stands. -/
def updBoot (s : State) (f : Boot → Boot) : State := { s with boot := f s.boot }

/-- The sources of BOOT_SEL, in order: 0 QSPI image A, 1 QSPI image B, 2 the network, 3 the host (R428). -/
def bootSources : Nat → List Nat
  | 0 => [0, 1]
  | 1 => [3]
  | 2 => [2]
  | _ => [0, 1, 2]

/-! ### The image (R429, R430) -/

/-- An integer of a header, little-endian. -/
def hdrN (h : List Byte) (off k : Nat) : Nat := natLE (slice h off k)

/-- The segments of a header: destination and length. -/
def hdrSegs (h : List Byte) : List (Nat × Nat) :=
  (List.range (hdrN h 0x14 4)).map fun k => (hdrN h (0x20 + 16 * k) 4, hdrN h (0x24 + 16 * k) 4)

/-- Two segments share no byte. -/
def segsApart (a b : Nat × Nat) : Bool := decide (a.1 + a.2 ≤ b.1) || decide (b.1 + b.2 ≤ a.1)

/-- No two segments of a list overlap. -/
def segsDisjoint : List (Nat × Nat) → Bool
  | [] => true
  | a :: t => t.all (segsApart a) && segsDisjoint t

/-- The reserved bytes of a header: offset and count. -/
def hdrReserved : List (Nat × Nat) :=
  [(0x1C, 4), (0xA8, 8), (0xD0, 0x30), (0x180, 0x80)] ++ (List.range 8).map fun k => (0x28 + 16 * k, 8)

/-- An entry lies in a segment and is word aligned. -/
def entryOk (segs : List (Nat × Nat)) (e : Nat) : Bool :=
  e % 4 == 0 && segs.any fun g => decide (g.1 ≤ e) && decide (e < g.1 + g.2)

/-- Check 2: the header. -/
def hdrOk (h : List Byte) : Bool :=
  let n := hdrN h 0x14 4
  let segs := hdrSegs h
  hdrN h 4 4 == 1 && decide (1 ≤ n) && decide (n ≤ 8) &&
    (segs.foldl (fun a g => a + g.2) 0 == hdrN h 8 4) && (segs.all fun g => inSram g.1 g.2) && segsDisjoint segs &&
    entryOk segs (hdrN h 0xA0 4) && entryOk segs (hdrN h 0xA4 4) &&
    hdrReserved.all fun r => (slice h r.1 r.2).all fun b => b == 0

/-- The key hash of an OTP key slot: eight words, the first the most significant (log entry 2). -/
def otpKeyHash (k : Nat) : Nat :=
  (List.range 8).foldl (fun n i => n * 0x100000000 + Config.otp (40 + 8 * k + i) % 0x100000000) 0

/-- Check 3: the key. -/
def keyOk (s : State) (h : List Byte) : Bool :=
  let k := hdrN h 0x10 4
  decide (k < 4) && (sha256 (slice h 0x100 64) == otpKeyHash k) && !bitOf (get s pBOOT fBOOT_OTP_STAT_REVOKED) k

/-- Check 4: the signature. -/
def sigOk (h : List Byte) : Bool :=
  let n (off : Nat) : Nat := natBE (slice h off 32)
  ecdsaOk (n 0x100) (n 0x120) (n 0x140) (n 0x160) (sha256 (slice h 0 0x140))

/-- Check 6: ROLLBACK against the OTP counter. -/
def rollbackOk (s : State) (h : List Byte) : Bool :=
  decide (get s pBOOT fBOOT_OTP_STAT_RB_CNT ≤ hdrN h 0xC 4) && decide (hdrN h 0xC 4 ≤ 64)

/-- The header of the bytes a source gave; bytes it did not give are 0. -/
def hdrOf (image : List Byte) : List Byte := image.take 512 ++ List.replicate (512 - image.length) 0

/-- The payload of the bytes a source gave. -/
def payloadOf (image : List Byte) : List Byte := slice image 512 (hdrN (hdrOf image) 8 4)

/-- The code of the first check that fails; 0 where the image is accepted (R430). -/
def imageCode (s : State) (image : List Byte) (media : Bool) : Nat :=
  let h := hdrOf image
  if hdrN h 0 4 ≠ 0x32334C47 then 1
  else if !hdrOk h then 2
  else if !keyOk s h then 3
  else if !sigOk h then 4
  else if sha256 (payloadOf image) ≠ natBE (slice h 0xB0 32) then 5
  else if !rollbackOk s h then 6
  else if !media then 7
  else 0

/-- The segments of a payload are written to their destinations. -/
def loadSegs : List (Nat × Nat) → List Byte → State → State
  | [], _, s => s
  | (dest, len) :: t, p, s => loadSegs t (p.drop len) (writeCore s dest (p.take len))

/-- The ranges an attempt wrote are zeroed. -/
def zeroSegs (s : State) (segs : List (Nat × Nat)) : State :=
  segs.foldl (fun s g => writeCore s g.1 (List.replicate g.2 0)) s

/-- The last code of a source in TRY_LOG. -/
def logTry (s : State) (src code : Nat) : State := put s pBOOT ⟨rBOOT_TRY_LOG, 4 * src, 4⟩ code

/-- An image is accepted: START0 and START1, what BOOT shows, the BOOT_DONE record, and the keepers start (R338,
R430). -/
def acceptImage (s : State) (src : Nat) (image : List Byte) : State :=
  let h := hdrOf image
  let s1 := logTry (loadSegs (hdrSegs h) (payloadOf image) s) src 0
  let e0 := hdrN h 0xA0 4
  let e1 := hdrN h 0xA4 4
  let s2 := put (put s1 pCPU (fCPU_START_PC 0) (e0 / 4)) pCPU (fCPU_START_PC 1) (e1 / 4)
  let s3 := put (put s2 pBOOT fBOOT_IMG_INFO_ROLLBACK (hdrN h 0xC 4)) pBOOT fBOOT_IMG_INFO_KEY_IDX (hdrN h 0x10 4)
  let s4 := wrN s3 pBOOT rBOOT_IMG_VER (hdrN h 0x18 4)
  let s5 := putB (put (putB s4 pBOOT fBOOT_STAT_OK true) pBOOT fBOOT_STAT_SRC src) pBOOT fBOOT_STAT_FAILED false
  let s6 := record s5 pBOOT 0x150 1 (hdrN h 0x18 4) (hdrN h 0xC 4)
  let s7 := updBoot (putB s6 pBOOT fBOOT_CTRL_BUSY false) fun b => { b with phase := .done, srcs := [] }
  showHarts (hartStart (hartStart s7 0 (BitVec.ofNat 64 e0)) 1 (BitVec.ofNat 64 e1))

/-- An image is rejected with a code: what the attempt wrote is zeroed, and the next source is tried. The network
does not give up (R432), and a failed host load leaves LOAD_GO writable (R433). -/
def rejectImage (s : State) (src : Nat) (image : List Byte) (code : Nat) : State :=
  let s1 := logTry (if 5 ≤ code then zeroSegs s (hdrSegs (hdrOf image)) else s) src code
  let now := mono s1
  if src = 3 then
    updBoot (putB (putB s1 pBOOT fBOOT_STAT_FAILED true) pBOOT fBOOT_CTRL_BUSY (s1.boot.fuse.isSome)) fun b =>
      { b with phase := .waiting }
  else if src = 2 then updBoot s1 fun b => { b with dhcp := 4, tftp := 0, netAt := now }
  else updBoot s1 fun b => { b with srcs := b.srcs.drop 1, netAt := now }

/-- The source whose image the ROM reads now. -/
def bootSource (s : State) : Option Nat :=
  match s.boot.phase with
  | .trying => s.boot.srcs.head?
  | .loading => if flag s pHIF fHIF_STAT_BME then some 3 else none
  | _ => none

/-- The bytes the source is read for: a host load reads LOAD_LEN bytes (R433). -/
def imageRead (s : State) (src : Nat) (image : List Byte) : List Byte :=
  if src = 3 then image.take (get s pBOOT fBOOT_LOAD_LEN_LEN) else image

/-- IMAGE_CHECK (R430): the image the source gave is checked. `media` is false where a read, DMA or transfer error
occurred. -/
def execImageCheck (image : List Byte) (media : Bool) (s : State) : Host.Outcome State Fault Refusal :=
  match bootSource s with
  | none => .next s
  | some src =>
    let l := imageRead s src image
    let code := imageCode s l media
    .next (if code = 0 then acceptImage s src l else rejectImage s src l code)

/-! ### The ROM (R68, R335, R428, R432–R434) -/

/-- A kept trim of a Port die's lane, from OTP (R68). -/
def bootTrims (s : State) : State :=
  (List.range 4).foldl (fun s d => put s (pLTR d) fLTR_ASYM_PS (Config.otp (32 + d))) s

/-- BOOT_ROM_START (R428): hart 0 runs the boot ROM, which loads the lane trims, kicks the keeper watchdogs and tries
the sources of the sampled BOOT_SEL. -/
def execBootRomStart (s : State) : Host.Outcome State Fault Refusal :=
  if s.boot.phase = .off && (hart s 0).run then
    let s1 := kickHart (kickHart (bootTrims s) 0) 1
    let now := mono s1
    let srcs := bootSources (get s1 pBOOT fBOOT_STAT_STRAP)
    .next (updBoot s1 fun b => { b with phase := if srcs = [3] then .waiting else .trying, srcs := srcs, dhcp := 4, tftp := 0, netAt := now })
  else .next s

/-- NETBOOT_RETRY (R432): a retry timer of the network boot expires. DHCP backs off from 4 s, doubling to 64 s; TFTP
waits 1 s, five times, and then DHCP starts again. -/
def execNetbootRetry (tftp : Bool) (s : State) : Host.Outcome State Fault Refusal :=
  if s.boot.phase = .trying && s.boot.srcs.head? == some 2 then
    let s1 := advMono s (s.boot.netAt + (if tftp then 1 else s.boot.dhcp) * 1000000000)
    let now := mono s1
    .next (updBoot s1 fun b =>
      if !tftp then { b with dhcp := min (2 * b.dhcp) 64, netAt := now }
      else if b.tftp < 5 then { b with tftp := b.tftp + 1, netAt := now }
      else { b with dhcp := 4, tftp := 0, netAt := now })
  else .next s

/-- BOOT_FAIL (R434): every source has failed; the ROM waits, and accepts a host load. -/
def execBootFail (s : State) : Host.Outcome State Fault Refusal :=
  if s.boot.phase = .trying && s.boot.srcs.isEmpty then
    let s1 := record s pBOOT 0x151 3 (rdN s pBOOT rBOOT_TRY_LOG) 0
    .next (updBoot (putB s1 pBOOT fBOOT_STAT_FAILED true) fun b => { b with phase := .failed })
  else .next s

/-! ### BOOT.CTRL (R431, R433) -/

/-- LOAD_GO starts a host load where the ROM waits for one. -/
def loadGo (s : State) : State :=
  if s.boot.phase = .waiting || s.boot.phase = .failed then
    updBoot (putB s pBOOT fBOOT_CTRL_BUSY true) fun b => { b with phase := .loading }
  else s

/-- A fuse write starts. -/
def startFuse (s : State) (f : Nat) : State :=
  updBoot (putB s pBOOT fBOOT_CTRL_BUSY true) fun b => { b with fuse := some f }

/-- COMMIT_RB raises the counter to the running image's ROLLBACK, when that is higher. -/
def commitRb (s : State) : State :=
  if s.boot.fuse.isNone && decide (get s pBOOT fBOOT_OTP_STAT_RB_CNT < get s pBOOT fBOOT_IMG_INFO_ROLLBACK)
  then startFuse s 0 else s

/-- REVOKE of a key slot; one that would leave no slot is refused with CTRL_ERR. -/
def revokeKey (s : State) (k : Nat) : State :=
  if get s pBOOT fBOOT_OTP_STAT_REVOKED ||| 2 ^ k = 15 then raise (putB s pBOOT fBOOT_CTRL_CTRL_ERR true) pBOOT 2
  else if s.boot.fuse.isNone then startFuse s (1 + k)
  else s

/-- A write of BOOT.CTRL: COMMIT_RB and REVOKE are the keepers' (R431). -/
def bootCtrl (s0 : State) (r : Requester) (v : Nat) : State :=
  let s := putB s0 pBOOT fBOOT_CTRL_CTRL_ERR false
  let s1 := if bitOf v 0 then loadGo s else s
  if !bitOf v 1 && !bitOf v 2 then s1
  else if isKeeper r then
    let s2 := if bitOf v 1 then commitRb s1 else s1
    if bitOf v 2 then revokeKey s2 (v / 16 % 4) else s2
  else deny s1 r 1

/-- LOAD_GO (R433). -/
def execLoadGo (r : Requester) (s : State) : Host.Outcome State Fault Refusal :=
  .next (onWrite s r pBOOT fun s => bootCtrl s r 1)

/-- COMMIT_RB (R431). -/
def execCommitRb (r : Requester) (s : State) : Host.Outcome State Fault Refusal :=
  .next (onWrite s r pBOOT fun s => bootCtrl s r 2)

/-- REVOKE (R431). -/
def execRevoke (r : Requester) (key : Fin 4) (s : State) : Host.Outcome State Fault Refusal :=
  .next (onWrite s r pBOOT fun s => bootCtrl s r (4 + 16 * key.val))

/-- FUSE_WRITE_DONE (R431): the fuse is blown, BUSY falls unless a host load runs, and its INT_RAW bit is set. -/
def execFuseWriteDone (s : State) : Host.Outcome State Fault Refusal :=
  match s.boot.fuse with
  | none => .next s
  | some f =>
    let s1 := updBoot (putB s pBOOT fBOOT_CTRL_BUSY (s.boot.phase == .loading)) fun b => { b with fuse := none }
    if f = 0 then
      .next (raise (put s1 pBOOT fBOOT_OTP_STAT_RB_CNT (max (get s pBOOT fBOOT_OTP_STAT_RB_CNT) (get s pBOOT fBOOT_IMG_INFO_ROLLBACK))) pBOOT 0)
    else .next (raise (put s1 pBOOT fBOOT_OTP_STAT_REVOKED (get s pBOOT fBOOT_OTP_STAT_REVOKED ||| 2 ^ (f - 1))) pBOOT 1)

end Sys2Proof.Machine
end

