-- ==== Sys2Proof/Machine/Cue.lean ====
section
/-! DEFINITION. The cue queue and the frame buffers of MCK (R285–R289, R293). -/

namespace Sys2Proof.Machine

/-! ### Entries -/

/-- CUE_DATA0.TYPE: 0 EDGE, 1 FRAME, 2 MARK, 3 refused. -/
def CueEnt.type (e : CueEnt) : Nat := e.d0 % 4
/-- CUE_DATA0.OUT. -/
def CueEnt.out (e : CueEnt) : Nat := e.d0 / 4 % 8
/-- CUE_DATA0.ACTION; 4–7 are treated as 0. -/
def CueEnt.action (e : CueEnt) : Nat := if e.d0 / 32 % 8 < 4 then e.d0 / 32 % 8 else 0
/-- CUE_DATA0.ALIGN. -/
def CueEnt.align (e : CueEnt) : Bool := bitOf e.d0 8
/-- CUE_DATA0.MCS_IDX. -/
def CueEnt.mcs (e : CueEnt) : Nat := e.d0 / 512 % 4
/-- CUE_DATA0.BUF. -/
def CueEnt.buf (e : CueEnt) : Nat := e.d0 / 65536 % 32
/-- CUE_DATA0.STAMP. -/
def CueEnt.stamp (e : CueEnt) : Bool := bitOf e.d0 21
/-- The handle of an entry (R285). -/
def CueEnt.handle (e : CueEnt) : Nat := e.slot + e.gen * 256

/-- The entries of the queue, shown in CUE_STAT.LVL. -/
def setCues (s : State) (l : List CueEnt) : State :=
  put { s with mck := { s.mck with cues := l } } pMCK fMCK_CUE_STAT_LVL l.length

/-- An entry joins the queue behind the entries whose targets come before or with its own. -/
def insertCue (now : PC64) (e : CueEnt) : List CueEnt → List CueEnt
  | [] => [e]
  | x :: t =>
    if pcDiff e.target now < pcDiff x.target now then e :: x :: t else x :: insertCue now e t

/-- A synthesizer runs. -/
def mcsRuns (s : State) (m : Nat) : Bool := bitOf (get s pMCK fMCK_STAT_MCS_RUN) m

/-- The first rising edge of a running synthesizer at or after an instant (R286). -/
def alignTo (s : State) (m : Nat) (t : PC64) : PC64 :=
  if mcsRuns s m then
    let at' : Int := (s.clk.p.toNat : Int) + pcDiff t (pcNow s)
    let edge := gridAfter s m (at' + (outRun s m).ofs) - (outRun s m).ofs
    t + BitVec.ofInt 64 (edge - at')
  else t

/-! ### Frame buffers (R288) -/

/-- The bytes of a frame buffer, as long as its FRM_LEN says. -/
def frmBytes (s : State) (buf : Nat) : List Byte :=
  (List.range ((amGet? buf s.mck.frmLen).getD 0)).map fun k => (amGet? (buf * 1536 + k) s.mck.frm).getD 0

/-- A pending FRAME entry names the buffer. -/
def bufPending (s : State) (buf : Nat) : Bool := s.mck.cues.any fun e => e.type == 1 && e.buf == buf

/-- A write to the selected buffer, discarded while a pending FRAME entry names it. -/
def bufWrite (s : State) (f : State → Nat → State) : State :=
  let b := get s pMCK fMCK_FRM_SEL_BUF
  if bufPending s b then raise s pMCK 7 else f s b

/-- A word of the window is written; byte 0 of the word is its bits [31:24]. -/
def frmWord (s : State) (k v : Nat) : State :=
  bufWrite s fun s b =>
    { s with mck := { s.mck with
      frm := (List.range 4).foldl (fun m j =>
        cellSet (b * 1536 + 4 * k + j) (BitVec.ofNat 8 (v / 256 ^ (3 - j))) m) s.mck.frm } }

/-- A write of FRM_LEN: above 1,518 is stored as 1,518. -/
def frmLenWrite (s : State) (v : Nat) : State :=
  bufWrite s fun s b =>
    let n := min (v % 2048) 1518
    put { s with mck := { s.mck with frmLen := amSet b n s.mck.frmLen } } pMCK fMCK_FRM_LEN_LEN n

/-- A write of FRM_SEL: FRM_LEN shows the length of the buffer selected. -/
def frmSelWrite (s : State) (v : Nat) : State :=
  put (put s pMCK fMCK_FRM_SEL_BUF v) pMCK fMCK_FRM_LEN_LEN ((amGet? (v % 32) s.mck.frmLen).getD 0)

/-- FRM_BUF_WRITE (R288): a write of word `k` of the window at 0x800. -/
def execFrmBufWrite (r : Requester) (k : Fin 384) (v : Word) (s : State) : Host.Outcome State Fault Refusal :=
  .next (onWrite s r pMCK fun s => frmWord s k v.toNat)

/-! ### Pushing (R285) -/

/-- The reasons of Table 13-2 that refuse a push, with their codes. -/
def pushReasons (s : State) (e : CueEnt) : List (Nat × Bool) :=
  let frame := e.type == 1
  let least : Int := if frame then (get s pMCK fMCK_CUE_CFG_FRAME_LEAD * 65536000 : Nat) else 13107200
  [(1, decide (256 ≤ s.mck.cues.length)),
   (2, decide (pcDiff e.target (pcNow s) < least)),
   (3, frame && !(feat s 1 && feat s 6)),
   (4, e.type == 3 || (e.type == 0 && toutMode s e.out != 4) || (e.align && !mcsRuns s e.mcs)),
   (5, frame && (e.d3 == 0 || decide ((frmBytes s e.buf).length < 60) ||
      (e.stamp && decide ((frmBytes s e.buf).length < e.d4 % 2048 + 10)))),
   (6, mckSafe s && !flag s pMCK fMCK_CUE_CFG_SAFE_KEEP)]

/-- The lowest code that applies, 0 for none. -/
def lowestCode (l : List (Nat × Bool)) : Nat := ((l.find? fun x => x.2).map Prod.fst).getD 0

/-- A refusal of a push or cancel, shown to its requester. -/
def cueRefuse (s : State) (q why : Nat) : State :=
  raise (bump (putQ s q pMCK fMCK_CUE_CMD_ERR why) pMCK rMCK_CUE_REJ_CNT) pMCK 1

/-- The lowest slot that holds no entry. -/
def freeSlot (s : State) : Nat :=
  ((List.range 256).find? fun k => !s.mck.cues.any fun e => e.slot == k).getD 0

/-- The entry a requester's CUE_DATA spell; a FRAME with ALIGN takes its aligned target. -/
def cueOf (s : State) (q : Nat) : CueEnt :=
  let w := fun k => rdB s q pMCK (rMCK_CUE_DATA k)
  let slot := freeSlot s
  let e : CueEnt :=
    { slot := slot, gen := (amGet? slot s.mck.gens).getD 0, d0 := w 0
      target := BitVec.ofNat 64 (w 1 + w 2 * 0x100000000), d3 := w 3, d4 := w 4, sent := false, wait := 0 }
  if e.type = 1 ∧ e.align then { e with target := alignTo s e.mcs e.target } else e

/-- A push of a requester. -/
def cuePush (s : State) (q : Nat) : State :=
  let e := cueOf s q
  let why := lowestCode (pushReasons s e)
  if why ≠ 0 then cueRefuse s q why
  else
    let s1 := setCues s (insertCue (pcNow s) e s.mck.cues)
    let s2 := { s1 with mck := { s1.mck with gens := amSet e.slot ((e.gen + 1) % 256) s1.mck.gens } }
    putQ (putQ s2 q pMCK fMCK_CUE_CMD_ERR 0) q pMCK fMCK_CUE_CMD_HANDLE e.handle

/-- CUE_PUSH (R285): a write of CUE_CMD.PUSH. -/
def execCuePush (r : Requester) (s : State) : Host.Outcome State Fault Refusal :=
  .next (onWrite s r pMCK fun s => cuePush s (reqCode r))

/-! ### Cancelling and flushing (R289) -/

/-- The entry a handle names is removed. -/
def dropCue (s : State) (h : Nat) : State := setCues s (s.mck.cues.filter fun e => e.handle != h)

/-- A cancel of a requester. -/
def cueCancel (s : State) (q h : Nat) : State :=
  let s1 := putQ s q pMCK fMCK_CUE_CMD_HANDLE h
  match s1.mck.cues.find? fun e => e.handle == h with
  | none => cueRefuse s1 q 7
  | some e => if e.sent then cueRefuse s1 q 8 else putQ (dropCue s1 h) q pMCK fMCK_CUE_CMD_ERR 0

/-- CUE_CANCEL (R289): a write of CUE_CMD.CANCEL with a handle. -/
def execCueCancel (r : Requester) (h : BitVec 16) (s : State) : Host.Outcome State Fault Refusal :=
  .next (onWrite s r pMCK fun s => cueCancel s (reqCode r) h.toNat)

/-- Every entry not yet fired or dispatched is freed. -/
def cueFlush (s : State) : State := raise (setCues s (s.mck.cues.filter CueEnt.sent)) pMCK 3

/-- CUE_FLUSH (R289): a write of CUE_CMD.FLUSH. -/
def execCueFlush (r : Requester) (s : State) : Host.Outcome State Fault Refusal :=
  .next (onWrite s r pMCK cueFlush)

/-! ### Firing (R286) -/

/-- The instant an EDGE or MARK entry fires at. -/
def fireAt (s : State) (e : CueEnt) : PC64 := if e.align then alignTo s e.mcs e.target else e.target

/-- The entry that fires next: the earliest, and among equal instants the one pushed first. -/
def nextFire (s : State) : Option CueEnt :=
  s.mck.cues.foldl (fun b e =>
    if e.type = 1 then b
    else match b with
      | none => some e
      | some x => if pcDiff (fireAt s e) (pcNow s) < pcDiff (fireAt s x) (pcNow s) then some e else some x) none

/-- A TOUT in CUE mode takes a level, or a pulse that ends at an instant. -/
def setCueLvl (s : State) (n : Nat) (v : Bool) (fall : Option PC64) : State :=
  { s with mck := { s.mck with cueLvl := s.mck.cueLvl.set n v, cueFall := s.mck.cueFall.set n fall } }

/-- The action of an EDGE entry; without effect where its TOUT has left CUE mode. -/
def cueAct (s : State) (e : CueEnt) : State :=
  if e.type ≠ 0 ∨ toutMode s e.out ≠ 4 then s
  else match e.action with
    | 0 => setCueLvl s e.out false none
    | 1 => setCueLvl s e.out true none
    | 2 => setCueLvl s e.out (!cueLevel s e.out) none
    | _ => setCueLvl s e.out true (some (pcNow s + BitVec.ofNat 64 (max 131072 (e.d3 * 65536))))

/-- An entry fires. -/
def fireCue (s : State) (e : CueEnt) : State :=
  let s1 := bump (cueAct s e) pMCK rMCK_CUE_FIRE_CNT
  let s2 := raiseIf s1 (bitOf e.d0 11) pMCK 0
  let s3 := if bitOf e.d0 12 then record s2 pMCK 0x103 1 e.handle (e.target.toNat % 0x100000000) else s2
  dropCue s3 e.handle

/-- CUE_FIRED (R286): the next EDGE or MARK entry fires at its instant. -/
def execCueFired (s : State) : Host.Outcome State Fault Refusal :=
  match nextFire s with
  | none => .next s
  | some e => if pageEn s pMCK then .next (fireCue (advPc s (fireAt s e)) e) else .next s

/-! ### Frames (R287) -/

/-- Change an entry. -/
def updCue (s : State) (h : Nat) (f : CueEnt → CueEnt) : State :=
  { s with mck := { s.mck with cues := s.mck.cues.map fun e => if e.handle = h then f e else e } }

/-- The software frame that a Port die submits on a port for a cue. -/
def cueFrame (s : State) (e : CueEnt) : SoftFrame :=
  let udp := e.d4 / 65536 % 2048
  { ring := none, slot := e.slot, gen := e.gen, mode := 1, noRestamp := true, csum := e.stamp, ptpOfs := 0
    udpOfs := udp, t := e.target, tag := 0, stampAt := if e.stamp then some (e.d4 % 2048) else none
    frame := frmBytes s e.buf }

/-- CUE_FRAME_DISPATCH (R287): at target − FRAME_LEAD the buffer of the earliest FRAME entry is sent to the
Port dies, and each submits it on the ports named. A die that is off takes nothing. -/
def execCueFrameDispatch (s : State) : Host.Outcome State Fault Refusal :=
  match s.mck.cues.find? fun e => e.type == 1 && !e.sent with
  | none => .next s
  | some e =>
    if pageEn s pMCK then
      let s1 := advPc s (e.target - BitVec.ofNat 64 (get s pMCK fMCK_CUE_CFG_FRAME_LEAD * 65536000))
      let f := cueFrame s1 e
      let s2 := updCue s1 e.handle fun e => { e with sent := true, wait := e.d3 }
      .next ((List.range 32).foldl (fun s p =>
        if bitOf e.d3 p && pageOn s (pLCH (p / 8)) then submitSoft s (p / 8) (p % 8) f else s) s2)
    else .next s

/-- A port's completion of a cue frame is counted; the entry is freed with its last port. -/
def cueComplete (s : State) (e : CueEnt) (port status : Nat) : State :=
  let p := pMCK
  let s1 := if status = 0 then bump s p rMCK_FRM_OK_CNT
    else raise (put (put (bump s p rMCK_FRM_FAIL_CNT) p fMCK_CUE_STAT_LAST_STATUS status)
      p fMCK_CUE_STAT_LAST_PORT port) p 2
  let w := setBit e.wait port false
  if w = 0 then dropCue s1 e.handle else updCue s1 e.handle fun e => { e with wait := w }

/-- CUE_FRAME_COMPLETE (R287): the next completion reaches the cue queue; one whose port has counted already
finds nothing. -/
def execCueFrameComplete (s : State) : Host.Outcome State Fault Refusal :=
  match s.mck.cueDone with
  | [] => .next s
  | (slot, gen, port, status) :: t =>
    let s1 := { s with mck := { s.mck with cueDone := t } }
    match s1.mck.cues.find? fun e => e.slot == slot && e.gen == gen && e.sent && bitOf e.wait port with
    | none => .next s1
    | some e => .next (cueComplete s1 e port status)

/-- CUE_FRAME_LOST (R287): at target + 10 µs a port of the earliest dispatched entry without a completion counts
as LOST. -/
def execCueFrameLost (s : State) : Host.Outcome State Fault Refusal :=
  match s.mck.cues.find? fun e => e.type == 1 && e.sent with
  | none => .next s
  | some e =>
    match (List.range 32).find? fun p => bitOf e.wait p with
    | none => .next s
    | some p => .next (cueComplete (advPc s (e.target + BitVec.ofNat 64 655360000)) e p 15)

/-! ### Safe state (R293) -/

/-- Safe state reaches MCK, or leaves it: held outputs go to their SAFE level with their pulses cut, the
queue is flushed with SAFE_KEEP = 0, and outputs start again at its end. -/
def mckSafeLine (s : State) (b : Bool) : State :=
  if mckSafe s = b then s
  else
    let s1 := putB s pMCK fMCK_STAT_SAFE b
    let s2 := if b then
        (List.range 8).foldl (fun s n =>
          if safeHolds s (n + 4) && (ix s.mck.cueFall n none).isSome then setCueLvl s n false none else s) s1
      else s1
    let s3 := if b && !flag s pMCK fMCK_CUE_CFG_SAFE_KEEP then cueFlush s2 else s2
    refreshGates s3

end Sys2Proof.Machine
end

