-- ==== Sys2Proof/Machine/Age.lean ====
section
/-! DEFINITION. Tile failure rates, the supply and temperature monitors, the canaries and the margin review
(spec/19, R386–R394). -/

namespace Sys2Proof.Machine

/-! ### Tile failures (R386) -/

/-- AGE_TILE (R386): the failures of the last second are judged against TILE_LIMIT. -/
def execAgeTile (d : Fin 4) (s : State) : Host.Outcome State Fault Refusal :=
  let p := pAGE (4 + d)
  if !pageEn s p then .next s
  else
    let now := mono s
    let bad := decide ((pd s d).tiles.countP (fun t => now < t + 1000000000) > orD (get s p fAGE_LIMITS_TILE_LIMIT) 1)
    let s1 := doubt (putB s p fAGE_STAT_TILE bad) p 2 bad
    .next (raiseIf s1 (bad && !doubts s p 2) p 3)

/-! ### Supply and temperature (R387) -/

/-- The AVS rail of an island: 0 for CORE_H, 1–4 for P0–P3 (Table 22-1). Hub island 4 lies in the always-on
domain (R360). -/
def avsRail (die isl : Nat) : Option Nat :=
  if die = 0 then (if isl = 4 then none else some 0)
  else if 4 ≤ die then some (die - 3) else none

/-- The setpoint of an AVS rail in mV. -/
def avsMv (s : State) (rail : Nat) : Nat := get s (pAGE 0) (fAGE_AVS_MV rail)

/-- The range of an island's supply in mV (Table 24-2): the AVS rails about their setpoint, the always-on
islands on VDD_AO (log entry 19), the others on their core rail. -/
def islRange (s : State) (die isl : Nat) : Nat × Nat :=
  match avsRail die isl with
  | some r => (avsMv s r - 50, avsMv s r + 20)
  | none =>
    if die = 0 ∨ (die = 1 ∧ (isl = 0 ∨ isl = 5 ∨ isl = 6)) then (843, 927) else (746, 824)

/-- AGE_VOLT (R387): an island supply has stood at `mv` outside its range for 100 µs. -/
def execAgeVolt (die isl : Fin 8) (mv : Nat) (s : State) : Host.Outcome State Fault Refusal :=
  let p := pAGE die
  let r := islRange s die isl
  if dieHasRegs die && decide (isl.val < islCount die) && pageEn s p && (decide (mv < r.1) || decide (r.2 < mv)) then
    .next (doubt (putB s p fAGE_STAT_VOLT true) p 4 true)
  else .next s

/-- AGE_TEMP (R387): an island temperature has stood above TJ_LIMIT for 1 ms. -/
def execAgeTemp (die isl : Fin 8) (temp : Int) (s : State) : Host.Outcome State Fault Refusal :=
  let p := pAGE die
  if dieHasRegs die && decide (isl.val < islCount die) && pageEn s p && decide ((get s p fAGE_LIMITS_TJ_LIMIT : Int) < temp) then
    .next (raiseIf (doubt (putB s p fAGE_STAT_TEMP true) p 3 true) (!doubts s p 3) p 4)
  else .next s

/-- AGE_LIMIT_CLEAR (R387): what raised AGE_VOLT, or AGE_TEMP, has stood within its limit for 1 s. -/
def execAgeLimitClear (die : Fin 8) (volt : Bool) (s : State) : Host.Outcome State Fault Refusal :=
  let p := pAGE die
  if !dieHasRegs die then .next s
  else if volt then .next (doubt (putB s p fAGE_STAT_VOLT false) p 4 false)
  else .next (doubt (putB s p fAGE_STAT_TEMP false) p 3 false)

/-! ### AVS setpoints (R388, R390, R439) -/

/-- A rail takes a new setpoint: AGE.AVSn, an AVS_SET record (0 review, 1 emergency) and a write over AVSBus. -/
def avsSet (s : State) (rail mv why : Nat) : State :=
  let s1 := put s (pAGE 0) (fAGE_AVS_MV rail) mv
  let s2 := record s1 (pAGE 0) 0x149 1 (rail + mv * 0x10000) why
  let now := mono s2
  { s2 with pwr := { s2.pwr with avs := s2.pwr.avs ++ [⟨rail, mv, 0, now, none⟩] } }

/-! ### Canaries (R388) -/

/-- The rails a canary failure steps up: each AVS rail of a failing island, once. -/
def failRails (die : Nat) (isls : List Nat) : List Nat := (isls.filterMap fun i => avsRail die i).eraseDups

/-- An emergency step of a rail: 5 mV up to 880 mV. -/
def emergStep (s : State) (rail : Nat) : State :=
  let mv := avsMv s rail
  if mv + 5 ≤ 880 then bump (avsSet s rail (mv + 5) 1) (pAGE 0) rAGE_EMERG_CNT else s

/-- CANARY (R388): the 1 ms measurement of a die's islands, each as (island, slack in ps, ring-oscillator
frequency in 0.1 MHz). -/
def execCanary (die : Fin 8) (slacks : List (Fin 8 × Nat × Nat)) (s : State) : Host.Outcome State Fault Refusal :=
  let p := pAGE die
  if !dieHasRegs die || !pageEn s p then .next s
  else
    let l := slacks.filter fun m => decide (m.1.val < islCount die)
    let s1 := l.foldl (fun s m => put (put s p (fAGE_ISL_SLACK m.1) (satU 8 m.2.1)) p (fAGE_ISL_ROSC m.1) (satU 16 m.2.2)) s
    let bad := (l.filter fun m => m.2.1 == 0).map fun m => m.1.val
    let s2 := put s1 p fAGE_STAT_CANARY_ISL (bad.foldl (fun v i => setBit v i true) 0)
    let now := mono s
    if bad = [] then
      let above := match ix s.age.canary die none with
        | none => true
        | some t => decide (t + 1000000000 ≤ now)
      if above then .next (doubt (putB s2 p fAGE_STAT_CANARY false) p 1 false) else .next s2
    else
      let s3 := { s2 with age := { s2.age with canary := upd s2.age.canary die fun _ => some now } }
      let s4 := raise (doubt (putB s3 p fAGE_STAT_CANARY true) p 1 true) p 1
      .next (if feat s4 15 then (failRails die bad).foldl emergStep s4 else s4)

/-! ### The margin review (R389–R394) -/

/-- Change the review that runs. -/
def updReview (s : State) (f : Review → Review) : State := { s with age := { s.age with run := s.age.run.map f } }

/-- The MONO at which the next scheduled review falls (R389). -/
def reviewAt (s : State) : Nat := s.age.start + orD (get s (pAGE 0) fAGE_REVIEW_CFG_PERIOD_H) 1 * 3600000000000

/-- NEXT_REVIEW as it reads. -/
def nextReview (s : State) : Nat := if feat s 15 then (reviewAt s - mono s + 999999999) / 1000000000 else 0

/-- A review starts: BUSY, and the first measurement after 10 ms. -/
def reviewStart (s : State) : State :=
  let p := pAGE 0
  let now := mono s
  let r : Review := ⟨now + 10000000, List.replicate 5 ⟨0, false, false⟩, [], false, [], 0, 0, []⟩
  let s1 := [fAGE_REVIEW_STAT_PARTIAL, fAGE_REVIEW_STAT_MODEL_SKIP, fAGE_REVIEW_STAT_MARGIN].foldl (fun s f => putB s p f false) s
  putB { s1 with age := { s1.age with start := now, first := true, run := some r } } p fAGE_REVIEW_STAT_BUSY true

/-- The review can start: feature bit 15 and none running (R389). It runs whatever EN of the AGE page holds, since
the first commit comes before the page can be enabled (DEDUCED, log entry 23). -/
def reviewFree (s : State) : Bool := feat s 15 && s.age.run.isNone

/-- MARGIN_REVIEW (R389): a write of AGE.CTRL.REVIEW by a requester, or the review of the first commit or of
the period. -/
def execMarginReview (r : Option Requester) (s : State) : Host.Outcome State Fault Refusal :=
  match r with
  | some r => .next (onWrite s r (pAGE 0) fun s => if reviewFree s then reviewStart s else s)
  | none =>
    if !reviewFree s then .next s
    else if s.age.first then .next (reviewStart (advMono s (reviewAt s)))
    else .next (reviewStart s)

/-- One AVS rail is planned from the smallest slack of its islands (R390). -/
def planRail (s : State) (rail : Nat) (slack : Option Nat) : State :=
  let p := pAGE 0
  let tgt := get s p fAGE_SLACK_CFG_TGT
  let mv := avsMv s rail
  match s.age.run.map fun r => ix r.rails rail ⟨0, false, true⟩, slack with
  | some pl, some w =>
    let set (s : State) (mv : Nat) (pl : RailPlan) : State :=
      raise (updReview (avsSet s rail mv 0) fun r => { r with rails := upd r.rails rail fun _ => pl }) p 2
    let settle : State := updReview s fun r => { r with rails := upd r.rails rail fun _ => { pl with settled := true } }
    if pl.settled then s
    else if pl.lowered then (if w < tgt then set s (mv + 5) { pl with settled := true } else settle)
    else if w < tgt then
      if pl.steps < get s p fAGE_REVIEW_CFG_MAX_STEPS ∧ mv + 5 ≤ 880 then set s (mv + 5) { pl with steps := pl.steps + 1 }
      else settle
    else if w > tgt + get s p fAGE_SLACK_CFG_HYST ∧ pl.steps = 0 then set s (mv - 5) { pl with lowered := true }
    else settle
  | _, _ => updReview s fun r => { r with rails := upd r.rails rail fun x => { x with settled := true } }

/-- The smallest slack measured on a rail's islands. -/
def railSlack (l : List (Nat × Nat × Nat)) (rail : Nat) : Option Nat :=
  ((l.filter fun m => avsRail m.1 m.2.1 == some rail).map fun m => m.2.2).min?

/-- The first port that can calibrate does, and the others wait (R391). -/
def reviewCal (s : State) : List Nat → State
  | [] => updReview s fun r => { r with ports := [] }
  | n :: t =>
    let s1 := updReview (startCal s (n / 8) (n % 8)) fun r => { r with ports := n :: t }
    if (port s1 (n / 8) (n % 8)).cal then s1 else reviewCal s t

/-- Ports whose domain has gone off calibrate no more. -/
def reviewPortsGone (s : State) : State :=
  match s.age.run with
  | none => s
  | some r =>
    match r.ports with
    | [] => s
    | n :: t => if (port s (n / 8) (n % 8)).cal then s else reviewCal s t

/-- The ports with LINK = 1, in order (R391). -/
def linkedPorts (s : State) : List Nat := (List.range 32).filter fun n => linkUp s (n / 8) (n % 8)

/-- REVIEW_MEASURE (R390): the review measures the powered islands, and plans the next step of each rail; once
every rail is planned the ports calibrate one at a time (R391). -/
def execReviewMeasure (isls : List IslMeas) (s : State) : Host.Outcome State Fault Refusal :=
  match s.age.run with
  | none => .next s
  | some r =>
    if r.planned then .next s
    else
      let l := isls.filter fun m => dieHasRegs m.die && decide (m.isl < islCount m.die) && !r.lost.contains (m.die, m.isl)
      let s1 := l.foldl (fun s m =>
        let p := pAGE m.die
        putS (put (put s p (fAGE_ISL_SLACK m.isl) (satU 8 m.slack)) p (fAGE_ISL_ROSC m.isl) (satU 16 m.rosc))
          p (fAGE_DRIFT_DRIFT m.isl) m.drift) (advMono s r.due)
      let m := l.map fun x => (x.die, x.isl, x.slack)
      let due := mono s1 + 1000000
      let s2 := updReview s1 fun r => { r with slacks := m, due := due }
      let s3 := (List.range 5).foldl (fun s k => planRail s k (railSlack m k)) s2
      match s3.age.run with
      | none => .next s3
      | some r3 =>
        if r3.rails.all fun x => x.settled then
          let ports := linkedPorts s3
          .next (reviewCal (updReview s3 fun r => { r with planned := true }) ports)
        else .next s3

/-- A drift is held to the limit of TRIM_CFG. -/
def trimClip (lim t : Int) : Int := max (-lim) (min lim t)

/-- The trim of a port from its new CAL_SER (R391); it takes effect at the next TAI second (R180). -/
def reviewTrim (s : State) (d i : Nat) : State :=
  let p := pTSU d i
  let n := 8 * d + i
  let temp := getS s ⟨4 + d, 0x001⟩ (fISL_MON_TEMP (i / 4))
  let drift : Int := (get s p fTSU_CAL_SER_PS : Int) - Config.serDelay n temp
  let lim : Int := get s (pAGE 0) fAGE_TRIM_CFG_LIMIT
  let tx := divRound (Config.trimK n false * drift) 65536
  let rx := divRound (Config.trimK n true * drift) 65536
  let above := decide (trimClip lim tx ≠ tx) || decide (trimClip lim rx ≠ rx)
  let old := rdN s p rTSU_AGE_TRIM
  let s1 := putS (putS s p fTSU_AGE_TRIM_TX (trimClip lim tx)) p fTSU_AGE_TRIM_RX (trimClip lim rx)
  let s2 := updPd s1 d fun x => { x with trims := if x.trims.any fun t => t.1 == i then x.trims else (i, old) :: x.trims }
  updReview s2 fun r => { r with
    trimMax := max r.trimMax (max (trimClip lim tx).natAbs (trimClip lim rx).natAbs)
    short := if above then setBit r.short (4 + d) true else r.short }

/-- A calibration that the review waits for has completed: the port takes its trim and the next one
calibrates. -/
def reviewCalDone (s : State) (d i : Nat) : State :=
  match s.age.run with
  | none => s
  | some r =>
    if r.ports.head? == some (8 * d + i) then
      reviewCal (reviewTrim s d i) (r.ports.drop 1)
    else s

/-- At a TAI second the waiting trims of a die take effect (R180). -/
def trimsTake (s : State) (d : Nat) : State :=
  let l := (pd s d).trims
  l.foldl (fun s t => formDelays s d t.1) (updPd s d fun x => { x with trims := [] })

/-- The holdover model is refitted (R392), or the review skips it. -/
def reviewModel (s : State) : State :=
  let days := max 1 (min 30 (get s (pAGE 0) fAGE_REVIEW_CFG_MODEL_DAYS))
  let now := mono s
  let good (e : Nat × Int × Int × Nat) : Bool := decide (e.2.2.2 < 3)
  let skip := putB s (pAGE 0) fAGE_REVIEW_STAT_MODEL_SKIP true
  -- a point stands for a minute of LOCKED time: 48 h are 2,880 of them
  if servoState s ≠ 2 ∨ s.dsc.hist.countP good < 2880 then skip
  else match fitAge (histPoints s fun e => good e && decide (now ≤ e.1 + days * 86400000000000)) with
    | none => skip
    | some (rate, bound) =>
      let b := max bound (get s pDSC fDSC_MODEL_AGE_BOUND)
      let s1 := put (putS s pDSC fDSC_MODEL_AGE_RATE rate) pDSC fDSC_MODEL_AGE_BOUND (satU 16 b)
      put (updServo s1 fun v => { v with rvBound := b }) pDSC fDSC_MODEL_STAT_SRC 2

/-- The review finds a die short of headroom (R393). -/
def dieShort (s : State) (r : Review) (die : Nat) : Bool :=
  let p := pAGE 0
  (r.slacks.any fun m => m.1 == die && decide (m.2.2 < get s p fAGE_SLACK_CFG_FLOOR)) ||
    (r.slacks.any fun m => m.1 == die && match avsRail m.1 m.2.1 with
      | some k => decide (880 ≤ avsMv s k) && decide (m.2.2 < get s p fAGE_SLACK_CFG_TGT)
      | none => false) ||
    bitOf r.short die ||
    (die == 1 && decide (get s pDSC fDSC_MODEL_AGE_BOUND > get s pDSC fDSC_AGE_BOUND_MPPB_D))

/-- The worst slack of a review with its die and island. -/
def worstSlack (r : Review) : Nat × Nat × Nat :=
  r.slacks.foldl (fun b m => if m.2.2 < b.1 then (m.2.2, m.1, m.2.1) else b) (255, 0, 0)

/-- REVIEW_DONE (R394): the review ends. -/
def execReviewDone (s : State) : Host.Outcome State Fault Refusal :=
  match s.age.run with
  | none => .next s
  | some r =>
    if !r.planned || r.ports ≠ [] then .next s
    else
      let p := pAGE 0
      let s1 := reviewModel s
      let dies := [0, 1, 2, 4, 5, 6, 7].filter fun d => r.slacks.any fun m => m.1 == d
      let s2 := dies.foldl (fun s d =>
        let b := dieShort s r d
        bump (doubt (putB s (pAGE d) fAGE_STAT_MARGIN b) (pAGE d) 0 b) (pAGE d) rAGE_REVIEW_GEN) s1
      let bad := dies.any fun d => dieShort s2 r d
      let s3 := putB s2 p fAGE_REVIEW_STAT_MARGIN bad
      let w := worstSlack r
      let s4 := putB { s3 with age := { s3.age with run := none } } p fAGE_REVIEW_STAT_BUSY false
      let s5 := recordPair s4 p 0x148 (if bad then 2 else 1) (w.1 % 256 + w.2.1 * 0x100 + w.2.2 * 0x1000)
        (rdN s4 pDSC rDSC_MODEL_AGE) r.trimMax (rdN s3 p rAGE_REVIEW_STAT)
      .next (raise (bump s5 p rAGE_REVIEW_CNT) p 0)

/-- An ISLAND reset of a measured island during a review discards its results (R394). -/
def reviewIslandLost (s : State) (die isl : Nat) : State :=
  match s.age.run with
  | none => s
  | some r =>
    if r.slacks.any fun m => m.1 == die && m.2.1 == isl then
      putB (updReview s fun r => { r with
        slacks := r.slacks.filter fun m => !(m.1 == die && m.2.1 == isl), lost := (die, isl) :: r.lost })
        (pAGE 0) fAGE_REVIEW_STAT_PARTIAL true
    else s

/-- PIN, WARM and GUARD: the review timer restarts and a review that runs ends. -/
def ageReset (s : State) : State :=
  let now := mono s
  { s with age := { s.age with start := now, run := none, canary := List.replicate 8 none } }

end Sys2Proof.Machine
end

