-- ==== Sys2Proof/Machine/Track.lean ====
section
/-! DEFINITION. Tracking channels (spec/07): the survey channels' states, the moves between channel
classes, the dumps and updates of timing channels, and the measurement epochs. -/

namespace Sys2Proof.Machine

/-! ### Channels (R136) -/

/-- The page of a channel by its number: survey channels 0–63, timing channels 64–79. -/
def pCH (c : Nat) : Pg := ⟨2, 0x100 + c⟩

/-- A channel that is not IDLE. -/
def chan? (s : State) (c : Nat) : Option Chan := amGet? c s.rad.chans

/-- Change the Radio's own state. -/
def updRad (s : State) (f : Radio → Radio) : State := { s with rad := f s.rad }

/-- Change a channel that is not IDLE. -/
def updChan (s : State) (c : Nat) (f : Chan → Chan) : State :=
  match chan? s c with
  | none => s
  | some x => updRad s fun r => { r with chans := amSet c (f x) r.chans }

/-- A channel's bit in TRK.ACTIVE_LO, ACTIVE_HI or ACTIVE_T. -/
def showActive (s : State) (c : Nat) (b : Bool) : State :=
  if c < 32 then wrN s pTRK rTRK_ACTIVE_LO (setBit (rdN s pTRK rTRK_ACTIVE_LO) c b)
  else if c < 64 then wrN s pTRK rTRK_ACTIVE_HI (setBit (rdN s pTRK rTRK_ACTIVE_HI) (c - 32) b)
  else wrN s pTRK rTRK_ACTIVE_T (setBit (rdN s pTRK rTRK_ACTIVE_T) (c - 64) b)

/-- A signal is excluded (R157). -/
def isExcluded (s : State) (sys prn : Nat) : Bool :=
  s.rad.mon.excl.any fun e => e.1 == sys && e.2.1 == prn

/-- INT.EXCL_LO, EXCL_HI and EXCL_T show the channels that hold an excluded signal (R157). -/
def showExcl (s : State) : State :=
  let on := (s.rad.chans.filter fun e => isExcluded s e.2.sys e.2.prn).map (·.1)
  let v := on.foldl (fun v c => setBit v c true) 0
  let s1 := wrN (wrN s pINT rINTM_EXCL_LO v) pINT rINTM_EXCL_HI (v / 0x100000000)
  put (wrN s1 pINT rINTM_EXCL_T (v / 0x10000000000000000)) pINT fINTM_STAT_N_EXCL
    (satU 7 s.rad.mon.excl.length)

/-- A channel takes up a signal. -/
def openChan (s : State) (c : Nat) (x : Chan) : State :=
  let s1 := updRad s fun r => { r with chans := amSet c x r.chans }
  let s2 := wrN s1 (pCH c) rSCH_ID (x.sys + x.prn * 0x100 + 0x10000)
  showExcl (showActive (put s2 (pCH c) fSCH_STAT_STATE x.st) c true)

/-- A channel goes to IDLE. -/
def idleChan (s : State) (c : Nat) : State :=
  let s1 := updRad s fun r => { r with chans := amErase c r.chans }
  let s2 := wrN s1 (pCH c) rSCH_STAT 0
  showExcl (showActive (putB s2 (pCH c) fSCH_ID_HOLDS false) c false)

/-- A channel's state. -/
def chanSt (s : State) (c : Nat) : Nat :=
  match chan? s c with
  | none => 0
  | some x => x.st

/-- A channel enters a state now. -/
def setChanSt (s : State) (c st : Nat) : State :=
  put (updChan s c fun x => { x with st := st, from' := mono s }) (pCH c) fSCH_STAT_STATE st

/-- A survey channel is reserved by a pending demotion. -/
def reserved (s : State) (c : Nat) : Bool :=
  match s.rad.move with
  | some (_, dst, _) => dst == c
  | none => false

/-- A channel that has just taken a signal. -/
def Chan.fresh (sys prn st now : Nat) : Chan :=
  { sys := sys, prn := prn, st := st, from' := now, syncFrom := now, slip := false, seq := 0
    b := none, edge := false, late := false, epoch := false, phase := 0, dump := none, dumps := 0
    quiet := 0, commit := none, badSec := 0, pre := none, even := none, fails := 0 }

/-! ### Survey channels (R137–R140) -/

/-- PULLIN_MS in ns; 0 is treated as 1. -/
def pullinNs (s : State) : Nat := orD (get s pTRK fTRK_LOOP_PULLIN_MS) 1 * 10000000

/-- SCH_PULLIN_END (R137): PULLIN_MS has passed; with PLI_OK the channel enters LOCK, and without it the
channel returns to IDLE at PULLIN_MS + 1,000 ms. -/
def execSchPullinEnd (ch : Fin 64) (pliOk : Bool) (s : State) : Host.Outcome State Fault Refusal :=
  match chan? s ch with
  | none => .next s
  | some x =>
    if x.st ≠ 1 then .next s
    else if pliOk then
      .next (setChanSt (putB (advMono s (x.from' + pullinNs s)) (pCH ch) fSCH_STAT_PLI_OK true) ch 2)
    else .next (idleChan (advMono s (x.from' + pullinNs s + 1000000000)) ch)

/-- SCH_BIT_SYNC (R140): bit sync or secondary-code sync is taken and the channel enters SYNC. -/
def execSchBitSync (ch : Fin 64) (s : State) : Host.Outcome State Fault Refusal :=
  match chan? s ch with
  | none => .next s
  | some x =>
    if x.st ≠ 2 then .next s
    else
      let s1 := setChanSt s ch 3
      let s2 := updChan s1 ch fun x => { x with syncFrom := mono s }
      let s3 := if x.sys = 1 then
          putB (putB s2 (pCH ch) fSCH_STAT_SC_SYNC true) (pCH ch) fSCH_STAT_INV false
        else s2
      .next (raise s3 (pCH ch) 0)

/-- SCH_LOST (R139): PLI_OK or CN0_OK has been 0 for LOSS_MS. -/
def execSchLost (ch : Fin 64) (s : State) : Host.Outcome State Fault Refusal :=
  if chanSt s ch = 2 ∨ chanSt s ch = 3 then
    .next (bump (raise (idleChan s ch) (pCH ch) 1) pTRK rTRK_LOST_CNT)
  else .next s

/-- SCH_SLIP (R139): PLI recovers within LOSS_MS after a drop of 20 ms or longer. -/
def execSchSlip (ch : Fin 64) (s : State) : Host.Outcome State Fault Refusal :=
  if chanSt s ch = 2 ∨ chanSt s ch = 3 then
    let s1 := updChan s ch fun x => { x with slip := true }
    .next (bump (raise s1 (pCH ch) 2) (pCH ch) rSCH_SLIP_CNT)
  else .next s

/-! ### Releases, commits and moves (R136, R141, R143) -/

/-- A write of a channel's CTRL: RELEASE sends the channel to IDLE; COMMIT on a timing channel stages
the update for the next boundary and ends STALE (R136, R143). -/
def chanCtrl (s : State) (c : Nat) (v : Nat) : State :=
  if fSCH_CTRL_RELEASE.of v = 1 then idleChan s c
  else if 64 ≤ c ∧ fTCH_CTRL_COMMIT.of v = 1 then
    let p := pCH c
    let m := (rdN s p rTCH_CAR_FCW, rdN s p rTCH_CODE_FCW, get s p fTCH_CAR_DPH_STEP,
      rdN s p rTCH_CODE_DPH, fTCH_CTRL_FOR_SEQ.of v)
    let s1 := updChan s c fun x => { x with quiet := 0, commit := some m }
    putB s1 p fTCH_STAT_STALE false
  else s

/-- CH_RELEASE (R136): a write of a channel's CTRL. -/
def execChRelease (r : Requester) (ch : Fin 80) (v : Word) (s : State) :
    Host.Outcome State Fault Refusal :=
  .next (onWrite s r (pCH ch) fun s => chanCtrl s ch v.toNat)

/-- TCH_COMMIT (R143): a write of a timing channel's CTRL. -/
def execTchCommit (r : Requester) (ch : Fin 16) (v : Word) (s : State) :
    Host.Outcome State Fault Refusal :=
  .next (onWrite s r (pTCH ch) fun s => chanCtrl s (64 + ch.val) v.toNat)

/-- R141 refuses a move, with the lowest reason code that applies. -/
def moveRefusal (s : State) (src dst : Nat) (demote : Bool) : Nat :=
  let dstOk := if demote then dst < 64 else 64 ≤ dst && dst < 80
  let srcOk := if demote then 64 ≤ src && src < 80 && chanSt s src != 0 else src < 64 && chanSt s src == 3
  if !dstOk || chanSt s dst != 0 then 1
  else if !pageEn s (pCH dst) then 2
  else if !srcOk then 3
  else if s.rad.move.isSome then 4
  else 0

/-- A refused move: REJ, its reason and INT_RAW[2]. -/
def rejectMove (s : State) (reason : Nat) : State :=
  raise (put (putB s pTRK fTRK_PROMOTE_STAT_REJ true) pTRK fTRK_PROMOTE_STAT_REASON reason) pTRK 2

/-- TRK_PROMOTE_GO (R141): a write of TRK.PROMOTE; GO reserves DST and sets the move pending. -/
def execTrkPromoteGo (r : Requester) (v : Word) (s : State) : Host.Outcome State Fault Refusal :=
  .next (onWrite s r pTRK fun s =>
    let n := v.toNat
    let src := fTRK_PROMOTE_SRC.of n
    let dst := fTRK_PROMOTE_DST.of n
    let dir := fTRK_PROMOTE_DIR.of n
    let s1 := wrN s pTRK rTRK_PROMOTE (src + dst * 0x100 + dir * 0x10000)
    if fTRK_PROMOTE_GO.of n = 0 then s1
    else
      let s2 := put (putB s1 pTRK fTRK_PROMOTE_STAT_REJ false) pTRK fTRK_PROMOTE_STAT_REASON 0
      let why := moveRefusal s src dst (dir == 1)
      if why ≠ 0 then rejectMove s2 why
      else
        let s3 := updRad s2 fun x => { x with move := some (src, dst, dir == 1) }
        let s4 := putB s3 pTRK fTRK_PROMOTE_STAT_PEND true
        if dir = 1 then putB s4 (pCH dst) fSCH_ID_RESERVED true else s4)

/-- The reservation of a move ends. -/
def endMove (s : State) (dst : Nat) : State :=
  let s1 := putB (updRad s fun r => { r with move := none }) pTRK fTRK_PROMOTE_STAT_PEND false
  if dst < 64 then putB s1 (pCH dst) fSCH_ID_RESERVED false else s1

/-- The channel state is copied to DST, which goes on without a gap; SRC goes to IDLE. A promoted
channel starts interval 0 at the boundary with the rates of the loops (R141). -/
def copyChan (s : State) (src dst : Nat) (x : Chan) (pc : PC64) (car code : Word) : State :=
  let keep := rdN s (pCH src) rSCH_STAT
  let y := { Chan.fresh x.sys x.prn 3 (mono s) with
    syncFrom := x.syncFrom, slip := x.slip, b := if 64 ≤ dst then some pc else none
    pre := x.pre, even := x.even, fails := x.fails }
  let s1 := openChan (idleChan s src) dst y
  let s2 := put (wrN s1 (pCH dst) rSCH_STAT (keep % 0x1000000)) (pCH dst) fSCH_STAT_STATE 3
  if 64 ≤ dst then
    wr (wr s2 (pCH dst) rTCH_CAR_NOW car) (pCH dst) rTCH_CODE_NOW code
  else s2

/-- TRK_MOVE (R141): SRC reaches its next dump or code-epoch boundary; the move is made, or refused where
SRC is IDLE by then. -/
def execTrkMove (pc : PC64) (car code : Word) (s : State) : Host.Outcome State Fault Refusal :=
  match s.rad.move with
  | none => .next s
  | some (src, dst, _) =>
    match chan? s src with
    | none => .next (rejectMove (endMove s dst) 5)
    | some x =>
      let s1 := copyChan (endMove (advPc s pc) dst) src dst x pc car code
      .next (bump (raise s1 pTRK 1) pTRK rTRK_PROMOTE_CNT)

/-! ### Timing channels (R142–R146) -/

/-- A staged update takes effect at a boundary that starts interval `k` (R143). -/
def applyCommit (s : State) (c k : Nat) (m : Nat × Nat × Nat × Nat × Nat) : State :=
  let p := pCH c
  let s1 := wrN (wrN s p rTCH_CAR_NOW m.1) p rTCH_CODE_NOW m.2.1
  let s2 := wrN (wrN s1 p rTCH_CAR_DPH 0) p rTCH_CODE_DPH 0
  let ahead := (k + 0x10000 - m.2.2.2.2 % 0x10000) % 0x10000
  let late := decide (2 < ahead) && decide (ahead < 0x8000)
  let s3 := updChan s2 c fun x => { x with commit := none, late := late }
  if late then bump (raise s3 p 3) p rTCH_LATE_CNT else s3

/-- TCH_BOUNDARY (R142, R143): a dump boundary of a timing channel. The interval that ends gives a dump;
the next one starts, with a committed update if one has reached the channel. -/
def execTchBoundary (ch : Fin 16) (pc : PC64) (edge : Bool) (phase : Word) (s : State) :
    Host.Outcome State Fault Refusal :=
  let c := 64 + ch.val
  match chan? s c with
  | none => .next s
  | some x =>
    let p := pCH c
    let s0 := advPc s pc
    let head := x.b.map fun b =>
      (⟨x.seq, b, x.late, x.epoch, x.edge, rdN s p rTCH_CAR_NOW, rdN s p rTCH_CODE_NOW, x.phase⟩ : DumpHead)
    let k := if x.b.isSome then (x.seq + 1) % 0x10000 else 0
    let s1 := updChan s0 c fun x =>
      { x with dump := head, seq := k, b := some pc, edge := edge, late := false, epoch := false
               phase := phase.toNat, quiet := if x.commit.isSome then 0 else x.quiet + 1 }
    match x.commit with
    | none => .next s1
    | some m => .next (applyCommit s1 c k m)

/-- The magnitude of a tap in 2⁻¹⁶. -/
def tapMag (t : Int × Int) : Nat := isqrt ((t.1 * t.1 + t.2 * t.2).toNat * 0x100000000)

/-- DISC in 2⁻¹⁶ from the eleven taps; 0 where |P| = 0 (R145). -/
def tapDisc (taps : List (Int × Int)) : Int :=
  let m := fun i => (tapMag (ix taps i (0, 0)) : Int)
  if m 5 = 0 then 0
  else divRound ((2 * (m 4 - m 6) - (m 3 - m 7)) * 65536) (2 * m 5)

/-- The 32 words of a dump (Table 07-3). -/
def dumpWords (h : DumpHead) (taps : List (Int × Int)) (noise : Int × Int) : List Nat :=
  let flat := ((List.range 11).map fun i => ix taps i (0, 0)) ++ [noise]
  [h.seq + ofBool h.late * 0x20000 + ofBool h.epoch * 0x40000 + ofBool h.edge * 0x80000,
   h.b.toNat % 0x100000000, h.b.toNat / 0x100000000, h.car, h.code, h.phase] ++
  flat.flatMap (fun t => [unsign 32 (satS 24 t.1), unsign 32 (satS 24 t.2)]) ++
  [unsign 32 (satS 32 (tapDisc taps)), 0]

/-- Write words to consecutive registers of a page. -/
def wrWords (s : State) (p : Pg) (off : Nat) : List Nat → State
  | [] => s
  | w :: t => wrWords (wrN s p off w) p (off + 4) t

/-- The offset of a dump slot's word 0. -/
def dumpSlot (k : Nat) : Nat := 0x400 + 0x80 * (k % 8)

/-- TCH_DUMP (R142): 2.0 µs after its boundary a dump is complete and is written to slot k mod 8; one
that overwrites an unread dump is counted. -/
def execTchDump (ch : Fin 16) (taps : List (Int × Int)) (noise : Int × Int) (s : State) :
    Host.Outcome State Fault Refusal :=
  let c := 64 + ch.val
  let p := pCH c
  match chan? s c with
  | none => .next s
  | some x =>
    match x.dump with
    | none => .next s
    | some h =>
      let s0 := match x.b with
        | none => s
        | some b => advPc s (b + BitVec.ofNat 64 (2000 * 65536))
      let unread := decide (8 ≤ x.dumps) && !bitOf (rdN s p (dumpSlot h.seq)) 16
      let s1 := wrWords s0 p (dumpSlot h.seq) (dumpWords h taps noise)
      let s2 := updChan s1 c fun x => { x with dump := none, dumps := x.dumps + 1 }
      let s3 := raise (wrN s2 p rTCH_DUMP_SEQ h.seq) p 0
      .next (if unread then bump (raise s3 p 4) p rTCH_OVR_CNT else s3)

/-- TCH_DUMP_READ (R142): a read of word 0 of a slot returns it and sets its READ flag. -/
def execTchDumpRead (r : Requester) (ch : Fin 16) (slot : Fin 8) (s : State) :
    Host.Outcome State Fault Refusal :=
  .next (onRead s r (pTCH ch) fun s =>
    let w := rdN s (pTCH ch) (dumpSlot slot)
    reply (wrN s (pTCH ch) (dumpSlot slot) (setBit w 16 true)) w)

/-- TCH_STALE (R143): STALE_MS consecutive intervals have passed without a commit; 0 is treated as 1. -/
def execTchStale (ch : Fin 16) (s : State) : Host.Outcome State Fault Refusal :=
  match chan? s (64 + ch.val) with
  | none => .next s
  | some x =>
    if orD (get s pTRK fTRK_CFG_STALE_MS) 1 ≤ x.quiet then
      .next (putB s (pTCH ch) fTCH_STAT_STALE true)
    else .next s

/-- SHAPE_CHECK (R146): each second the monitor shows the largest |Δ_j| and its pair; SHAPE rises after
SHAPE.SEC consecutive seconds beyond LIMIT and clears after one within it. -/
def execShapeCheck (ch : Fin 16) (dev : Nat) (pair : Fin 5) (s : State) :
    Host.Outcome State Fault Refusal :=
  let c := 64 + ch.val
  let p := pCH c
  match chan? s c with
  | none => .next s
  | some x =>
    if !flag s pTRK fTRK_CFG_SHAPE_EN then .next s
    else
      let s1 := wrN s p rTCH_SHAPE_DEV (satU 16 dev + pair.val * 0x10000)
      if get s pTRK fTRK_SHAPE_LIMIT < dev then
        let n := x.badSec + 1
        let s2 := updChan s1 c fun x => { x with badSec := n }
        if orD (get s pTRK fTRK_SHAPE_SEC) 1 ≤ n then
          .next (raiseIf (putB s2 p fTCH_STAT_SHAPE true) (!flag s p fTCH_STAT_SHAPE) p 2)
        else .next s2
      else
        .next (putB (updChan s1 c fun x => { x with badSec := 0 }) p fTCH_STAT_SHAPE false)

/-! ### Measurement epochs (R147, R148) -/

/-- A channel's quality indications of the last second; CN0_OK falling on a timing channel sets its
INT_RAW[1] (R139). -/
def showQuality (s : State) (c : Nat) (m : Meas) : State :=
  let p := pCH c
  let was := flag s p fSCH_STAT_CN0_OK
  let ok := decide (get s pTRK fTRK_LOCK_CN0_MIN ≤ m.cn0)
  let s1 := put (put s p fSCH_STAT_CN0 (satU 8 m.cn0)) p fSCH_STAT_PLI (satU 8 m.pli)
  let s2 := putB s1 p fSCH_STAT_PLI_OK (decide (get s pTRK fTRK_LOCK_PLI_MIN ≤ m.pli))
  let s3 := putB s2 p fSCH_STAT_CN0_OK ok
  if c < 64 then wrN (wrN s3 p rSCH_DOPP (unsign 32 (satS 32 m.dopp))) p rSCH_NOISE m.noise
  else raiseIf s3 (was && !ok) p 1

/-- A channel in SYNC writes its MEAS registers (R148). -/
def measure (s : State) (c seq : Nat) (x : Chan) (m : Meas) : State :=
  let p := pCH c
  let nav := flag s p fSCH_STAT_NAVSYNC
  let car := unsign 64 m.car
  let s1 := wrN s p rSCH_MEAS_CODE (m.code % 0x10000000)
  let s2 := wrN s1 p rSCH_MEAS_MS (m.ms % 0x10000 + ofBool nav * 0x80000000)
  let s3 := wr64 s2 p rSCH_MEAS_CAR_LO rSCH_MEAS_CAR_HI car
  let s4 := wrN s3 p rSCH_MEAS_DOPP (unsign 32 (satS 32 m.dopp))
  let sec := satU 8 ((mono s - x.syncFrom) / 1000000000)
  wrN s4 p rSCH_MEAS_STAT
    (1 + ofBool x.slip * 2 + ofBool (decide (64 ≤ c) && flag s p fTCH_STAT_SHAPE) * 4 +
      satU 8 m.cn0 * 0x100 + sec * 0x10000 + seq % 256 * 0x1000000)

/-- One channel at an epoch: measured in SYNC, else VALID = 0. -/
def epochChan (s : State) (seq : Nat) (meas : List Meas) (c : Nat) : State :=
  match chan? s c with
  | none => putB s (pCH c) fSCH_MEAS_STAT_VALID false
  | some x =>
    match meas.find? fun m => m.ch.val == c with
    | none => putB s (pCH c) fSCH_MEAS_STAT_VALID false
    | some m =>
      let s1 := showQuality s c m
      let s2 := if x.st = 3 then measure s1 c seq x m else putB s1 (pCH c) fSCH_MEAS_STAT_VALID false
      updChan s2 c fun x => { x with slip := false, epoch := true }

/-- The channels an epoch visits: those that hold a signal, and those measured before. -/
def epochChans (s : State) : List Nat :=
  (List.range 80).filter fun c => (chan? s c).isSome || flag s (pCH c) fSCH_MEAS_STAT_VALID

/-- TRK_EPOCH (R147): at a TAI second boundary of the Radio's replica every channel is measured at that
instant. The command carries what the channels measure. -/
def execTrkEpoch (meas : List Meas) (s : State) : Host.Outcome State Fault Refusal :=
  if pageEn s pTRK then
    let t := t96 s
    let last := BitVec.ofNat 64 (rd64 s pTRK rTRK_EPOCH_PC_LO rTRK_EPOCH_PC_HI)
    let at' := if t % secU = 0 ∧ pcOfT96 s t ≠ last then t else (t / secU + 1) * secU
    let s0 := advT96 s at'
    let seq := (rdN s0 pTRK rTRK_EPOCH_SEQ + 1) % 0x100000000
    let s1 := wrN s0 pTRK rTRK_EPOCH_SEQ seq
    let s2 := wr64 s1 pTRK rTRK_EPOCH_PC_LO rTRK_EPOCH_PC_HI (pcOfT96 s0 at').toNat
    .next ((epochChans s2).foldl (fun s c => epochChan s seq meas c) (raise s2 pTRK 0))
  else .next s

end Sys2Proof.Machine
end

