-- ==== Sys2Proof/Machine/Monitor.lean ====
section
/-! DEFINITION. The causes, the indications and the exclusions of the integrity monitor (spec/08). -/

namespace Sys2Proof.Machine

/-- Change the monitor's own state. -/
def updMon (s : State) (f : Monitor → Monitor) : State :=
  updRad s fun r => { r with mon := f r.mon }

/-- A cause stands (R161). -/
def causeOn (s : State) (i : Nat) : Bool := bitOf (rdN s pINT rINTM_CAUSE) i

/-- SUSPECT stands. -/
def suspect (s : State) : Bool := flag s pINT fINTM_STAT_SUSPECT

/-- JAM_IND and SPOOF_IND follow their causes; each rise sets its INT_RAW bit, and the doubts follow
(R162). -/
def showInd (s : State) : State :=
  let jam := causeOn s 2
  let spoof := causeOn s 0 || causeOn s 4 || causeOn s 5 || causeOn s 6 || (causeOn s 1 && !jam)
  let s1 := raiseIf s (jam && !flag s pINT fINTM_STAT_JAM_IND) pINT 4
  let s2 := raiseIf s1 (spoof && !flag s pINT fINTM_STAT_SPOOF_IND) pINT 5
  let s3 := putB (putB s2 pINT fINTM_STAT_JAM_IND jam) pINT fINTM_STAT_SPOOF_IND spoof
  doubt (doubt s3 pINT 1 jam) pINT 2 spoof

/-- CLEAR_SEC; 0 is treated as 1. -/
def clearSec (s : State) : Nat := orD (get s pINT fINTM_EXCL_CFG_CLEAR_SEC) 1

/-- CLEAR_LEFT shows the seconds of R163 that are left while SUSPECT stands. -/
def showClearLeft (s : State) : State :=
  let left := match s.rad.mon.quietFrom with
    | none => clearSec s
    | some t => clearSec s - (mono s - t) / 1000000000
  put s pINT fINTM_STAT_CLEAR_LEFT (if suspect s then left else 0)

/-- The count of R163 has reached 0. -/
def clearDue (s : State) : Bool :=
  match s.rad.mon.quietFrom with
  | none => false
  | some t => decide (t + clearSec s * 1000000000 ≤ mono s)

/-- SUSPECT is marked in the GNSS slot of the discipline engine (R161, Table 04-2). -/
def markSlot (s : State) (b : Bool) : State := updSlot s 0 fun v => { v with marked := b }

/-- A cause rises (R161). -/
def causeRises (s : State) : State :=
  let s1 := raise (bump (putB s pINT fINTM_STAT_SUSPECT true) pINT rINTM_SUSPECT_CNT) pINT 1
  markSlot (doubt s1 pINT 0 true) true

/-- A cause stands or not from now on (R161–R163). -/
def setCause (s : State) (i : Nat) (b : Bool) : State :=
  if causeOn s i = b then s
  else
    let c := setBit (rdN s pINT rINTM_CAUSE) i b
    let s1 := wrN s pINT rINTM_CAUSE c
    let s2 := if b then
        causeRises (wrN s1 pINT rINTM_CAUSE_SEEN (setBit (rdN s pINT rINTM_CAUSE_SEEN) i true))
      else s1
    let now := mono s
    showClearLeft (showInd (updMon s2 fun m => { m with quietFrom := if c = 0 then some now else none }))

/-- SUSPECT clears: INT_RAW[2], and the doubt falls (R163). -/
def clearSuspect (s : State) : State :=
  let s1 := raise (putB s pINT fINTM_STAT_SUSPECT false) pINT 2
  showClearLeft (markSlot (doubt s1 pINT 0 false) false)

/-- More than EXCL_MAX signals are excluded at once (Table 08-1). -/
def judgeManyExcl (s : State) : State :=
  setCause s 6 (decide (get s pINT fINTM_EXCL_CFG_EXCL_MAX < s.rad.mon.excl.length))

/-- A signal fails a check, or software excludes it: a new exclusion sets INT_RAW[0] and counts (R157). -/
def exclude (s : State) (sys prn : Nat) : State :=
  let was := isExcluded s sys prn
  let m := mono s
  let s1 := updMon s fun x =>
    { x with excl := (x.excl.filter fun e => !(e.1 == sys && e.2.1 == prn)) ++ [(sys, prn, m)] }
  if was then s1 else showExcl (bump (raise s1 pINT 0) pINT rINTM_EXCL_CNT)

/-- An exclusion ends (R157). -/
def endExclusion (s : State) (sys prn : Nat) : State :=
  showExcl (updMon s fun x =>
    { x with excl := x.excl.filter fun e => !(e.1 == sys && e.2.1 == prn) })

end Sys2Proof.Machine
end

