-- ==== Sys2Proof/Machine/GnssRadio.lean ====
section
/-! DEFINITION. The front end, the antenna bias and the acquisition bank (spec/06). -/

namespace Sys2Proof.Machine

/-! ### Domain GF and the front end (R120, R121) -/

/-- GF is to be on: FE_EN = 1 or a capture window is open, in a powered GB (R120). -/
def gfWanted (s : State) : Bool :=
  domOn s domGB && ((pageEn s pGRX && flag s pGRX fGRX_CFG_FE_EN) || s.rad.window)

/-- GF is on. -/
def gfOn (s : State) : Bool := flag s pGRX fGRX_STAT_GF_ON

/-- The front end delivers samples: on, warmed up and locked. -/
def samplesFlow (s : State) : Bool :=
  gfOn s && !flag s pGRX fGRX_STAT_WARMUP && flag s pGRX fGRX_STAT_PLL_LOCK

/-- Set a switched domain's power. -/
def setDom (s : State) (d : Nat) (b : Bool) : State :=
  { s with pwr := { s.pwr with on := setBit s.pwr.on d b } }

/-- ANT_CFG.MODE; 3 is treated as 0. -/
def antMode (s : State) : Nat :=
  let m := get s pGRX fGRX_ANT_CFG_MODE
  if m = 3 then 0 else m

/-- The bias is asked for: ALWAYS, or FOLLOW while GF is on (R123). -/
def biasWanted (s : State) : Bool := antMode s == 2 || (antMode s == 1 && gfOn s)

/-- The bias ramps over 200 µs (R123). -/
def biasUp (s : State) : State :=
  let s1 := updRad s fun r => { r with biasOn := true, biasFrom := mono s }
  putB (put s1 pGRX fGRX_ANT_STAT_STATE 1) pGRX fGRX_ANT_STAT_RAMP true

/-- The bias goes off. -/
def biasDown (s : State) : State :=
  let s1 := updRad s fun r => { r with biasOn := false }
  putB (put s1 pGRX fGRX_ANT_STAT_STATE 0) pGRX fGRX_ANT_STAT_RAMP false

/-- The bias follows its mode; one that tripped waits for its retry (R123, R124). ANT_OPEN falls when MODE
becomes OFF (R125). -/
def biasFollow (s : State) : State :=
  let s0 := if antMode s = 0 then doubt s pGRX 1 false else s
  if biasWanted s0 then
    (if s0.rad.biasOn || get s0 pGRX fGRX_ANT_STAT_STATE == 2 then s0 else biasUp s0)
  else if s0.rad.biasOn || get s0 pGRX fGRX_ANT_STAT_STATE == 2 then biasDown s0
  else s0

/-- A write of ANT_CFG took effect: with RETRY = 0 it ends a tripped bias's wait (R124). -/
def antCfgWritten (s : State) (retryWas : Nat) : State :=
  if get s pGRX fGRX_ANT_STAT_STATE = 2 ∧ retryWas = 0 then biasFollow (biasDown s) else biasFollow s

/-- GF turns on: a 2 ms warm-up follows (R120), and the baselines start afresh (R159). -/
def gfUp (s : State) : State :=
  let s1 := updRad (setDom s domGF true) fun r =>
    { r with gfFrom := mono s, gainSum := 0, gainN := 0, rail := none
             mon := { r.mon with agc := [], noise := [], agcBase := none, noiseBase := none } }
  let s2 := setCause (setCause s1 1 false) 2 false
  biasFollow (putB (putB s2 pGRX fGRX_STAT_GF_ON true) pGRX fGRX_STAT_WARMUP true)

/-- GF turns off: the doubts of the front end fall with it. -/
def gfDown (s : State) : State :=
  let s1 := put (setDom s domGF false) pGRX ⟨rGRX_STAT, 0, 3⟩ 0
  biasFollow (doubt (doubt s1 pGRX 2 false) pGRX 3 false)

/-- GF follows what is asked of it (R120). -/
def gfFollow (s : State) : State :=
  if gfWanted s && !gfOn s then gfUp s
  else if !gfWanted s && gfOn s then gfDown s
  else s

/-- GF_WARMUP_END (R120): 2 ms after GF turned on, the synthesizers are locked and samples flow. -/
def execGfWarmupEnd (s : State) : Host.Outcome State Fault Refusal :=
  if gfOn s && flag s pGRX fGRX_STAT_WARMUP then
    let s1 := advMono s (s.rad.gfFrom + 2000000)
    .next (putB (putB s1 pGRX fGRX_STAT_WARMUP false) pGRX fGRX_STAT_PLL_LOCK true)
  else .next s

/-- PLL_LOCK_RETURN (R120): lock returns, RF_PLL falls and samples flow again. -/
def execPllLockReturn (s : State) : Host.Outcome State Fault Refusal :=
  if gfOn s && !flag s pGRX fGRX_STAT_PLL_LOCK then
    .next (doubt (putB s pGRX fGRX_STAT_PLL_LOCK true) pGRX 2 false)
  else .next s

/-- The gain of an AGC update: frozen, unchanged on target, else a free step towards the target, for the
spec gives the direction but not the size (R121, log entry 3). -/
def agcGain (s : State) (outer : Nat) : Nat :=
  let g := get s pGRX fGRX_AGC_GAIN
  let target := get s pGRX fGRX_AGC_CFG_TARGET
  if flag s pGRX fGRX_AGC_CFG_FREEZE then get s pGRX fGRX_AGC_CFG_GAIN_SET
  else if s.rad.agcHeld then g
  else if outer < target then min 127 (g + 1 + freeVal s 20 % 127)
  else if target < outer then g - (1 + freeVal s 20 % 127)
  else g

/-- AGC_UPDATE (R121): every 1 ms the gain is adjusted and the antenna readings are shown; AGC_RAIL falls
when the gain leaves its rail. -/
def execAgcUpdate (outer clip : Fin 257) (ma mv : Nat) (s : State) :
    Host.Outcome State Fault Refusal :=
  let s0 := wrN s pGRX rGRX_ANT_MEAS (satU 8 ma + satU 16 mv * 0x100)
  let s1 := if s.rad.biasFrom + 200000 ≤ mono s then putB s0 pGRX fGRX_ANT_STAT_RAMP false else s0
  if gfOn s && pageEn s pGRX then
    let g := agcGain s1 outer
    let s2 := drawn (wrN s1 pGRX rGRX_AGC (g + satU 8 outer * 0x100 + satU 8 clip * 0x10000))
    let railed := g == 0 || g == 127
    let s3 := updRad s2 fun r =>
      { r with gainSum := r.gainSum + g, gainN := r.gainN + 1
               rail := if railed then some (r.rail.getD (mono s)) else none }
    .next (if railed then s3 else doubt s3 pGRX 3 false)
  else .next s1

/-- AGC_RAIL (R121): the gain has stood at a rail for 100 ms. -/
def execAgcRail (s : State) : Host.Outcome State Fault Refusal :=
  match s.rad.rail with
  | none => .next s
  | some t =>
    if gfOn s && !doubts s pGRX 3 then
      .next (doubt (raise (advMono s (t + 100000000)) pGRX 4) pGRX 3 true)
    else .next s

/-! ### Antenna bias (R123–R125) -/

/-- ANT_SHORT (R124): the current has stood at or above 55 mA for 1 ms; the bias is turned off. -/
def execAntShort (s : State) : Host.Outcome State Fault Refusal :=
  if s.rad.biasOn then
    let s1 := updRad (biasDown s) fun r => { r with shortAt := mono s }
    let s2 := bump (raise (put s1 pGRX fGRX_ANT_STAT_STATE 2) pGRX 0) pGRX rGRX_SHORT_CNT
    .next (doubt (doubt s2 pGRX 1 false) pGRX 0 true)
  else .next s

/-- ANT_RETRY (R124): RETRY seconds after a trip the bias ramps again. -/
def execAntRetry (s : State) : Host.Outcome State Fault Refusal :=
  let n := get s pGRX fGRX_ANT_CFG_RETRY
  if get s pGRX fGRX_ANT_STAT_STATE = 2 ∧ n ≠ 0 ∧ biasWanted s = true then
    .next (biasUp (advMono s (s.rad.shortAt + n * 1000000000)))
  else .next s

/-- ANT_OK (R124): the bias has stayed on for 1 s without tripping, and ANT_SHORT clears. -/
def execAntOk (s : State) : Host.Outcome State Fault Refusal :=
  if s.rad.biasOn && doubts s pGRX 0 then
    .next (raise (doubt (advMono s (s.rad.biasFrom + 1000000000)) pGRX 0 false) pGRX 2)
  else .next s

/-- ANT_OPEN (R125): the current has stayed below OPEN_MA for 100 ms; the bias stays on. -/
def execAntOpen (ma : Nat) (s : State) : Host.Outcome State Fault Refusal :=
  if s.rad.biasOn && decide (ma < get s pGRX fGRX_ANT_CFG_OPEN_MA) then
    .next (doubt (raise (put s pGRX fGRX_ANT_STAT_STATE 3) pGRX 1) pGRX 1 true)
  else .next s

/-- ANT_OPEN_CLEAR (R125): the current has held at or above OPEN_MA for 100 ms. -/
def execAntOpenClear (ma : Nat) (s : State) : Host.Outcome State Fault Refusal :=
  if s.rad.biasOn && decide (get s pGRX fGRX_ANT_CFG_OPEN_MA ≤ ma) && doubts s pGRX 1 then
    .next (doubt (put s pGRX fGRX_ANT_STAT_STATE 1) pGRX 1 false)
  else .next s

/-! ### Acquisition jobs (R119, R126–R128, R132) -/

/-- A field of a job word. -/
def jobSys (j : AcqJob) : Nat := fACQ_JOB0_SYS.of j.w0

/-- The PRN a job names. -/
def jobPrn (j : AcqJob) : Nat := fACQ_JOB0_PRN.of j.w0

/-- A job searches the snapshot buffer. -/
def jobOffline (j : AcqJob) : Bool := fACQ_JOB0_SRC.of j.w0 == 1

/-- T of a job in ms. -/
def jobT (j : AcqJob) : Nat := fACQ_JOB0_TCOH.of j.w0

/-- N of a job; 0 is treated as 1 (R127). -/
def jobN (j : AcqJob) : Nat := orD (fACQ_JOB0_NCOH.of j.w0) 1

/-- A PRN of Table 06-2 in a system. -/
def prnServed (sys prn : Nat) : Bool :=
  if sys = 0 then 1 ≤ prn && prn ≤ 32
  else if sys = 1 then 1 ≤ prn && prn ≤ 36
  else sys == 2 && 193 ≤ prn && prn ≤ 202

/-- A system's feature is acknowledged (R119). -/
def sysServed (s : State) (sys : Nat) : Bool :=
  if sys = 1 then feat s 8 else if sys = 2 then feat s 9 else true

/-- The snapshot slot offline jobs read. -/
def offSlot (s : State) : Nat := get s pSNP fSNP_OFF_SEL_SLOT

/-- R132 refuses a job when it becomes due. -/
def jobRefused (s : State) (j : AcqJob) : Bool :=
  let t := jobT j
  let k := offSlot s
  !prnServed (jobSys j) (jobPrn j) || !sysServed s (jobSys j) ||
    (if jobSys j = 1 then t != 4 else t < 1 || 10 < t) || decide (128 < t * jobN j) ||
    (if jobOffline j then
      get s pSNP (fSNP_SLOT_STAT_STATE k) != 3 || flag s pSNP (fSNP_SLOT_STAT_BAD k) ||
        decide (get s pSNP (fSNP_SLOT_STAT_LEN_MS k) < t * jobN j)
    else !gfOn s || flag s pOVN fOVN_STAT_BACKUP)

/-- The source is known only to ±3 ppm: OVN_WARM on the resonator, or in the snapshot's header (R118,
R169). -/
def jobWarm (s : State) (j : AcqJob) : Bool :=
  if jobOffline j then flag s pSNP (fSNP_SLOT_RF_WARM (offSlot s))
  else doubts s pOVN 0 && !flag s pOVN fOVN_STAT_ACTIVE_SRC

/-- DSC.FREQ in ppt as a job uses it (R118, R169). -/
def jobFreq (s : State) (j : AcqJob) : Int :=
  signed 32 (if jobOffline j then rdN s pSNP (rSNP_SLOT_FREQ (offSlot s)) else rdN s pDSC rDSC_FREQ)

/-- The Doppler bins D of a job: 2·⌈R/B⌉ + 1 with B = 500 Hz / T (R127). -/
def jobBins (s : State) (j : AcqJob) : Nat :=
  let r := fACQ_JOB2_DOPP_R.of j.w2 + (if jobWarm s j then 4727 else 0)
  2 * ((r * jobT j + 499) / 500) + 1

/-- The code bins of a full search. -/
def fullBins (sys : Nat) : Nat := if sys = 1 then 16368 else 2046

/-- The code bins C of a job: full, or the window widened by UNC (R127, R128). -/
def jobCodeBins (s : State) (j : AcqJob) : Nat :=
  let full := fullBins (jobSys j)
  let unc := rdN s pDSC rDSC_UNC
  if fACQ_JOB0_WINDOW.of j.w0 = 0 then full
  else if fACQ_JOB0_USE_UNC.of j.w0 = 1 ∧ unc = 0xFFFFFFFF then full
  else
    let w := fACQ_JOB2_CODE_W.of j.w2 * 1000000 +
      (if fACQ_JOB0_USE_UNC.of j.w0 = 1 then unc * 16368 else 0)
    let m := if jobSys j = 1 then 4 else 2
    min full (2 * ((m * w + 15999999) / 16000000) + 1)

/-- The passes P of a job: ⌈D / ⌊16,384 / C⌋⌉ (R127). -/
def jobPasses (s : State) (j : AcqJob) : Nat :=
  let per := max 1 (16384 / jobCodeBins s j)
  (jobBins s j + per - 1) / per

/-! ### Results (R131) -/

/-- A result enters the FIFO of 64, or is dropped. -/
def pushResult (s : State) (w : List Nat) : State :=
  if s.rad.results.length < 64 then
    let s1 := updRad s fun r => { r with results := r.results ++ [w] }
    put s1 pACQ fACQ_STAT_RES_LVL s1.rad.results.length
  else raise (bump s pACQ rACQ_DROP_CNT) pACQ 3

/-- A job ends with its result. -/
def endJob (s : State) (w : List Nat) : State :=
  raise (bump (pushResult s w) pACQ rACQ_JOB_CNT) pACQ 1

/-- The head of a result: system, PRN and AUTO. -/
def resHead (j : AcqJob) : Nat := jobSys j + jobPrn j * 0x100 + ofBool j.auto * 0x200000

/-- A channel of either class holds a signal (R136). -/
def held (s : State) (sys prn : Nat) : Bool :=
  s.rad.chans.any fun e => e.2.sys == sys && e.2.prn == prn

/-- The lowest free survey channel (R131, R136). -/
def freeSurvey (s : State) : Option Nat :=
  (List.range 64).find? fun c =>
    pageEn s pTRK && pageEn s (pSCH c) && (chan? s c).isNone && !reserved s c

/-- The source's shift of every carrier in 0.1 Hz: 0.001 575 42 Hz × DSC.FREQ (R118). -/
def clockShift (freq : Int) : Int := freq * 157542 / 10000000

/-- A hand-over: the survey channel takes the signal and enters PULLIN at the observed Doppler (R137). -/
def handOver (s : State) (c sys prn : Nat) (dopp : Int) : State :=
  wrN (openChan s c (Chan.fresh sys prn 1 (mono s))) (pSCH c) rSCH_DOPP (unsign 32 (satS 32 (dopp * 10)))

/-- The running job ends: nothing runs, and a snapshot slot is no longer in use. -/
def clearRun (s : State) : State :=
  let s1 := match s.rad.run with
    | some x => if jobOffline x.job then putB s pSNP (fSNP_SLOT_STAT_IN_USE (offSlot s)) false else s
    | none => s
  let s2 := updRad s1 fun r => { r with run := none }
  putB (putB s2 pACQ fACQ_STAT_BUSY false) pACQ fACQ_STAT_AUTO_ACTIVE false

/-- ACQ_RESULT (R131): the job ends and writes its result; with AUTO_ASSIGN a verified live detection is
handed to the lowest free survey channel. -/
def acqResult (s : State) (x : AcqRun) (det ver : Bool) (dopp : Int) (code cn0 : Nat) : State :=
  let sys := jobSys x.job
  let prn := jobPrn x.job
  let dup := det && held s sys prn
  let want := det && ver && !dup && flag s pACQ fACQ_CFG_AUTO_ASSIGN && !jobOffline x.job
  let ch := if want then freeSurvey s else none
  let comp := if flag s pACQ fACQ_CFG_CLK_COMP then clockShift x.freq else 0
  let w0 := resHead x.job + ofBool det * 0x10000 + ofBool ver * 0x20000 + ofBool dup * 0x40000 +
    ofBool (want && ch.isNone) * 0x80000 + ch.getD 0 * 0x1000000 + ofBool ch.isSome * 0x40000000
  let s1 := clearRun s
  let s2 := match ch with
    | some c => handOver s1 c sys prn dopp
    | none => s1
  let s3 := if det && ver then bump s2 pACQ rACQ_DET_CNT else s2
  endJob (raiseIf s3 det pACQ 0)
    [w0, unsign 32 (satS 32 (dopp - comp)), code % 0x800000 + satU 8 cn0 * 0x1000000,
     x.pc.toNat % 0x100000000, x.pc.toNat / 0x100000000]

/-- A refused job's result (R132). -/
def refuseJob (s : State) (j : AcqJob) : State := endJob s [resHead j + 0x100000, 0, 0, 0, 0]

/-! ### The queue and the sweep (R126, R133, R134) -/

/-- ACQ.STAT.JOBQ shows the queue. -/
def showJobq (s : State) : State := put s pACQ fACQ_STAT_JOBQ s.rad.jobs.length

/-- PUSH queues JOB0–JOB3, or is discarded where 16 jobs wait (R126). -/
def pushJob (s : State) : State :=
  if s.rad.jobs.length < 16 then
    let j : AcqJob := ⟨rdN s pACQ (rACQ_JOB 0), rdN s pACQ (rACQ_JOB 1), rdN s pACQ (rACQ_JOB 2),
      rdN s pACQ (rACQ_JOB 3), false⟩
    showJobq (updRad s fun r => { r with jobs := r.jobs ++ [j] })
  else raise s pACQ 4

/-- FLUSH empties the queue and abandons the running job at its next pass boundary (R133). -/
def flushJobs (s : State) : State :=
  showJobq (updRad s fun r =>
    { r with jobs := [], run := r.run.map fun x => { x with abort := true } })

/-- A write of ACQ.CTRL. -/
def acqCtrl (s : State) (v : Nat) : State :=
  let s1 := if fACQ_CTRL_FLUSH.of v = 1 then flushJobs s else s
  if fACQ_CTRL_PUSH.of v = 1 then pushJob s1 else s1

/-- ACQ_PUSH (R126): a write of ACQ.CTRL with PUSH. -/
def execAcqPush (r : Requester) (v : Word) (s : State) : Host.Outcome State Fault Refusal :=
  .next (onWrite s r pACQ fun s => acqCtrl s v.toNat)

/-- ACQ_FLUSH (R133): a write of ACQ.CTRL with FLUSH. -/
def execAcqFlush (r : Requester) (v : Word) (s : State) : Host.Outcome State Fault Refusal :=
  .next (onWrite s r pACQ fun s => acqCtrl s v.toNat)

/-- The signal at a place of the sweep: GPS 1–32, Galileo 1–36, QZSS 193–202 (R134). -/
def sweepAt (i : Nat) : Nat × Nat :=
  if i < 32 then (0, i + 1) else if i < 68 then (1, i - 31) else (2, i + 125)

/-- The sweep takes a signal: its system enabled and acknowledged, its PRN held by no channel. -/
def sweepTakes (s : State) (i : Nat) : Bool :=
  let g := sweepAt i
  bitOf (get s pACQ fACQ_AUTO_CFG_SYS_EN) g.1 && sysServed s g.1 && !held s g.1 g.2

/-- The job the sweep makes of a signal (R134). -/
def sweepJob (s : State) (i : Nat) : AcqJob :=
  let g := sweepAt i
  let n := orD (if g.1 = 1 then get s pACQ fACQ_AUTO_CFG_NCOH_E1 else get s pACQ fACQ_AUTO_CFG_NCOH_CA) 1
  let t := if g.1 = 1 then 4 else 1
  ⟨g.1 + g.2 * 0x100 + t * 0x100000 + min n 64 * 0x1000000, 0,
   get s pACQ fACQ_AUTO_CFG_DOPP_KHZ * 1000, 0, true⟩

/-- The next place of the sweep from the current one, and whether the sweep wrapped to find it. -/
def sweepNext (s : State) : Option (Nat × Bool) :=
  match (List.range 78).find? fun i => s.rad.sweep ≤ i && sweepTakes s i with
  | some i => some (i, false)
  | none =>
    match (List.range 78).find? fun i => sweepTakes s i with
    | some i => some (i, true)
    | none => none

/-- A job starts its capture, or a search of the snapshot buffer its load (R129, R169). -/
def startJob (s : State) (j : AcqJob) : State :=
  let k := offSlot s
  let pc := if jobOffline j then
      BitVec.ofNat 64 (rd64 s pSNP (rSNP_SLOT_PC_LO k) (rSNP_SLOT_PC_HI k))
    else pcAt s 2
  let x : AcqRun := ⟨j, jobT j, jobN j, jobPasses s j, 0, pc, false, false, false, jobFreq s j, (0, 0, 0, 0)⟩
  let s1 := updRad s fun r => { r with run := some x }
  let s2 := putB (putB s1 pACQ fACQ_STAT_BUSY true) pACQ fACQ_STAT_AUTO_ACTIVE j.auto
  if jobOffline j then putB s2 pSNP (fSNP_SLOT_STAT_IN_USE k) true else s2

/-- A live job waits for the end of warm-up (R126). -/
def jobWaits (s : State) (j : AcqJob) : Bool :=
  !jobOffline j && gfOn s && flag s pGRX fGRX_STAT_WARMUP

/-- The bank takes a queued job: it starts, waits or is refused. -/
def takeJob (s : State) (j : AcqJob) (rest : List AcqJob) : State :=
  if jobWaits s j then s
  else
    let s1 := showJobq (updRad s fun r => { r with jobs := rest })
    if jobRefused s1 j then refuseJob s1 j else startJob s1 j

/-- The bank takes the sweep's next job; the end of a sweep sets INT_RAW[2] (R134). -/
def takeSweep (s : State) : State :=
  match sweepNext s with
  | none => s
  | some (i, wrapped) =>
    let j := sweepJob s i
    if jobWaits s j then s
    else
      let s1 := updRad (raiseIf s wrapped pACQ 2) fun r => { r with sweep := i + 1 }
      if jobRefused s1 j then refuseJob s1 j else startJob s1 j

/-- ACQ_JOB_START (R126, R134): an idle bank starts the next queued job, or with AUTO_EN and an empty
queue the next sweep job. -/
def execAcqJobStart (s : State) : Host.Outcome State Fault Refusal :=
  if !pageEn s pACQ || s.rad.run.isSome then .next s
  else match s.rad.jobs with
    | j :: rest => .next (takeJob s j rest)
    | [] => .next (if flag s pACQ fACQ_CFG_AUTO_EN then takeSweep s else s)

/-- Change the running job. -/
def updRun (s : State) (x : AcqRun) : State := updRad s fun r => { r with run := some x }

/-- ACQ_CAPTURE_DONE (R129, R169): the capture of T × N ms, or the load of 0.125 ms for each of them, is
complete. -/
def execAcqCaptureDone (s : State) : Host.Outcome State Fault Refusal :=
  match s.rad.run with
  | none => .next s
  | some x =>
    if x.captured then .next s
    else
      let ns := x.t * x.n * (if jobOffline x.job then 125000 else 1000000)
      let s1 := if jobOffline x.job then s else advPc s (x.pc + BitVec.ofNat 64 (ns * 65536))
      .next (updRun s1 { x with captured := true })

/-- A detection goes on to its verification: a fresh capture with N doubled and one pass (R130, R169). -/
def startVerify (s : State) (x : AcqRun) (peak : Nat × Int × Nat × Nat) : State :=
  let lim := if jobOffline x.job then
      get s pSNP (fSNP_SLOT_STAT_LEN_MS (offSlot s)) / max 1 x.t
    else 128 / max 1 x.t
  updRun s { x with
    n := min (2 * x.n) lim, passes := 1, done := 0, captured := false, verify := true, peak := peak
    pc := if jobOffline x.job then x.pc else pcAt s 2 }

/-- The last pass of a search or of a verification judges the statistic (R130). -/
def judgeJob (s : State) (x : AcqRun) (stat : Nat) (dopp : Int) (code cn0 : Nat) : State :=
  if x.verify then
    acqResult s x true (decide (get s pACQ fACQ_THRESH_VER ≤ stat)) dopp code cn0
  else
    let det := decide (get s pACQ fACQ_THRESH_DET ≤ stat)
    if det && flag s pACQ fACQ_CFG_VERIFY then startVerify s x (stat, dopp, code, cn0)
    else acqResult s x det false dopp code cn0

/-- ACQ_PASS_DONE (R127, R130): a pass completes. The command carries the statistic in 1/16 of the cells
searched so far, and the peak's observed Doppler, code phase and C/N0. A flushed job ends here. -/
def execAcqPassDone (stat : Nat) (dopp : Int) (code cn0 : Nat) (s : State) :
    Host.Outcome State Fault Refusal :=
  match s.rad.run with
  | none => .next s
  | some x =>
    if !x.captured then .next s
    else
      let s1 := advP s (s.clk.p.toNat + (8184 * x.t * x.n + 2000) * 65536)
      if x.abort then .next (clearRun s1)
      else if x.done + 1 < x.passes then .next (updRun s1 { x with done := x.done + 1 })
      else .next (judgeJob s1 x stat dopp code cn0)

/-- ACQ_RES_READ (R131): a read of RES0 removes the oldest result and latches it; an empty FIFO returns
0. -/
def execAcqResRead (r : Requester) (s : State) : Host.Outcome State Fault Refusal :=
  .next (onRead s r pACQ fun s =>
    match s.rad.results with
    | [] => reply (wrWords s pACQ (rACQ_RES 0) [0, 0, 0, 0, 0]) 0
    | w :: rest =>
      let s1 := updRad s fun r => { r with results := rest }
      let s2 := put s1 pACQ fACQ_STAT_RES_LVL rest.length
      reply (wrWords s2 pACQ (rACQ_RES 0) w) (ix w 0 0))

end Sys2Proof.Machine
end

