-- ==== Sys2Proof/Machine/Pke.lean ====
section
/-! DEFINITION. The public-key engine (R314–R336): slot sets, owners, jobs, commands, yielding and aborts. -/

namespace Sys2Proof.Machine

/-! ### Slots (R315–R318) -/

/-- Change the engine. -/
def updPke (s : State) (f : Pke → Pke) : State := { s with pke := f s.pke }

/-- The slot lengths in bits by their code (Table 15-12). -/
def lenOfCode (c : Nat) : Nat := ix [256, 384, 512, 768, 1024, 2048, 3072, 4096] c 256

/-- The length of a slot set's slots in bits. -/
def setLen (s : State) (k : Nat) : Nat :=
  lenOfCode ((if k < 8 then rdN s pPKE rPKE_SET_LEN0 / 8 ^ k else rdN s pPKE rPKE_SET_LEN1 / 8 ^ (k - 8)) % 8)

/-- The length of a slot in bits. -/
def slotLen (s : State) (n : Nat) : Nat := setLen s (n / 256)

/-- A slot exists. -/
def slotExists (s : State) (n : Nat) : Bool := decide (n % 256 < 65536 / slotLen s n)

/-- The owner code of a slot (R318). -/
def slotOwner (s : State) (n : Nat) : Nat := (amGet? n s.pke.owners).getD 0

/-- The value of a slot. -/
def slotVal (s : State) (n : Nat) : Nat := (amGet? n s.pke.vals).getD 0

/-- A slot operation in progress has a slot in its range. -/
def slotInOp (s : State) (n : Nat) : Bool :=
  s.pke.ops.any fun o => decide (o.first ≤ n) && decide (n < o.first + o.count)

/-- A slot is free: without owner, and in no operation. -/
def slotFree (s : State) (n : Nat) : Bool := slotOwner s n == 0 && !slotInOp s n

/-- A slot belongs to an owner, and is in no operation. -/
def slotOwned (s : State) (n o : Nat) : Bool := slotOwner s n == o && !slotInOp s n

/-- A value is written to a slot; 0 is not listed. -/
def putSlot (s : State) (n v : Nat) : State :=
  updPke s fun x => { x with vals := if v = 0 then amErase n x.vals else amSet n v x.vals }

/-- A slot is zeroed and takes an owner. -/
def giveSlot (s : State) (n o : Nat) : State :=
  updPke (putSlot s n 0) fun x => { x with owners := if o = 0 then amErase n x.owners else amSet n o x.owners }

/-- The owner code of a requester: a hart's, or that of the host context named. -/
def ownerOf (r : Requester) (ctx : Nat) : Nat :=
  match r with
  | .hart h => h.val + 1
  | .host => 8 + ctx

/-! ### Commands (R324, R326, R330) -/

/-- OP of a command word. -/
def cmdOp (w : Nat) : Nat := w / 2 ^ 60 % 16
/-- MSEL of a command word. -/
def cmdSel (w : Nat) : Nat := w / 2 ^ 59 % 2
/-- DST of a command word. -/
def cmdDst (w : Nat) : Nat := w / 2 ^ 36 % 4096
/-- A of a command word. -/
def cmdA (w : Nat) : Nat := w / 2 ^ 24 % 4096
/-- B of a command word. -/
def cmdB (w : Nat) : Nat := w / 4096 % 4096
/-- IOFS of a command word. -/
def cmdIo (w : Nat) : Nat := w % 4096

/-- A command uses its A field. -/
def usesA (op : Nat) : Bool := [1, 2, 3, 4, 5, 6, 7, 8, 11].contains op
/-- A command uses its B field. -/
def usesB (op : Nat) : Bool := [2, 3, 4, 7].contains op
/-- A command uses its DST field. -/
def usesDst (op : Nat) : Bool := [2, 3, 4, 5, 6, 7, 8, 9, 10].contains op
/-- A command is modular: it takes m from a context. -/
def isModular (op : Nat) : Bool := [2, 3, 4, 5, 6, 7].contains op

/-- The slots a command names. -/
def cmdSlots (w : Nat) : List Nat :=
  (if usesDst (cmdOp w) then [cmdDst w] else []) ++ (if usesA (cmdOp w) then [cmdA w] else []) ++
    (if usesB (cmdOp w) then [cmdB w] else [])

/-- The length of a command: that of DST, or of A for SETMOD and STORE. -/
def cmdLen (s : State) (w : Nat) : Nat :=
  slotLen s (if cmdOp w = 1 ∨ cmdOp w = 11 then cmdA w else cmdDst w)

/-- The cycles of MMUL. -/
def mulCyc (l : Nat) : Nat := ((l + 127) / 128) * ((l + 127) / 128) + 4

/-- The cycles of MEXP with an exponent of `e` bits. -/
def expCyc (l e : Nat) : Nat := 15 * mulCyc l + 16 + e / 4 * (5 * mulCyc l + 16 * ((l + 127) / 128) + 4)

/-- The cycles of a command (R326, Table 15-6). -/
def cmdCyc (s : State) (w : Nat) : Nat :=
  let l := cmdLen s w
  let h := (l + 127) / 128
  match cmdOp w with
  | 1 => 14 * mulCyc l + 24
  | 2 => h + 2
  | 3 => h + 2
  | 4 => mulCyc l
  | 5 => mulCyc l
  | 6 => expCyc l l + h + 2
  | 7 => expCyc l (slotLen s (cmdB w))
  | 8 => h + 1
  | 9 => h
  | _ => l / 64 + 2

/-- `a ^ e mod m` over the lowest `k` bits of `e`. -/
def powMod (m a e : Nat) : Nat → Nat
  | 0 => 1 % m
  | k + 1 =>
    let r := powMod m a (e / 2) k
    if e % 2 = 1 then r * r * a % m else r * r % m

/-- The result of a modular command (Table 15-5); for a modulus that is even, 0 or 1 a value that its inputs
alone determine (R330). -/
def modular (op len m a b eLen : Nat) : Nat :=
  if m % 2 = 0 ∨ m < 3 then Config.pkeOther op len m a b % 2 ^ len
  else match op with
    | 2 => (a + b) % m
    | 3 => (a % m + m - b % m) % m
    | 4 => a * b % m
    | 5 => a * a % m
    | 6 => powMod m a (m - 2) len
    | _ => powMod m a b eLen

/-! ### Lanes -/

/-- A lane. -/
def lane (s : State) (l : Nat) : PkeLane := ix s.pke.lanes l PkeLane.cold

/-- Change a lane. -/
def updLane (s : State) (l : Nat) (f : PkeLane → PkeLane) : State :=
  updPke s fun x => { x with lanes := upd x.lanes l f }

/-- The jobs a lane holds. -/
def PkeLane.jobs (x : PkeLane) : List PkeJob := x.run.toList ++ x.susp.toList ++ x.queue

/-- A lane's STAT and LANE_BUSY. -/
def showLane (s : State) (l : Nat) : State :=
  let p := pPKEL l
  let x := lane s l
  let s1 := put s p fPKEL_STAT_JOBS x.jobs.length
  let s2 := putB (putB s1 p fPKEL_STAT_RUN x.run.isSome) p fPKEL_STAT_SUSP x.susp.isSome
  let s3 := put s2 p fPKEL_STAT_RUN_TICKET ((x.run.map PkeJob.ticket).getD 0)
  let s4 := put s3 p fPKEL_STAT_SUSP_TICKET ((x.susp.map PkeJob.ticket).getD 0)
  put s4 pPKE fPKE_STAT_LANE_BUSY (setBit (get s4 pPKE fPKE_STAT_LANE_BUSY) l x.run.isSome)

/-- The engine runs on a lane. -/
def laneRuns (s : State) (l : Nat) : Bool := pageOn s pPKE && pageEn s pPKE && pageEn s (pPKEL l)

/-- The sources of a job's present command are read (R325). -/
def readSources (s : State) (j : PkeJob) : PkeJob :=
  let w := ix j.cmds j.done 0
  { j with a := slotVal s (cmdA w), b := slotVal s (cmdB w) }

/-- A job is short (R328). -/
def jobShort (s : State) (j : PkeJob) : Bool := decide (j.total ≤ get s pPKE fPKE_YIELD_CFG_SHORT)

/-- A job starts: its first command reads its sources. -/
def runJob (s : State) (l : Nat) (j : PkeJob) : State :=
  let j' := readSources s j
  updLane s l fun x => { x with run := some j', queue := x.queue.filter fun y => y.ticket != j.ticket }

/-- An idle lane takes its next job: a queued short one before a suspended job goes on, else the oldest
(R323, R328). -/
def nextJob (s : State) (l : Nat) : State :=
  let x := lane s l
  showLane (match x.run, x.susp with
    | some _, _ => s
    | none, none =>
      match x.queue with
      | [] => s
      | j :: _ => runJob s l j
    | none, some j =>
      match x.queue.find? fun y => jobShort s y with
      | some y => runJob s l y
      | none => updLane s l fun x => { x with run := some j, susp := none }) l

/-! ### The end of a job (R332, R333) -/

/-- Where the words of an owner's block lie: the mailbox for a host context, else core memory. -/
def writeBlock (s : State) (owner a v : Nat) : State :=
  let b := bytesLE 8 v
  if 8 ≤ owner then
    updPke s fun x => { x with mail := (List.range 8).foldl (fun m k => cellSet (a + k) (b.getD k 0) m) x.mail }
  else writeCore s a b

/-- A word of 64 bits of an owner's block. -/
def blockWord (s : State) (owner a : Nat) : Nat :=
  natLE ((List.range 8).map fun k =>
    if 8 ≤ owner then (amGet? (a + k) s.pke.mail).getD 0 else coreByte s (a + k))

/-- The status word of a job (Table 15-8). -/
def statusWord (j : PkeJob) (cause : Nat) : Nat :=
  ofBool (cause == 0) + ofBool (cause != 0) * 2 + cause * 4 + ofBool (j.done != 0) * 32 + (j.done - 1) % 256 * 256 +
    j.ticket * 65536 + min j.yields 255 * 2 ^ 24 + j.cycles % 2 ^ 32 * 2 ^ 32

/-- LAST of a job's end. -/
def showLast (s : State) (l : Nat) (j : PkeJob) (cause : Nat) : State :=
  let v := j.ticket + ofBool (cause == 0) * 0x100 + ofBool (cause != 0) * 0x200 + cause * 0x400 +
    ofBool (j.done != 0) * 0x2000 + (j.done - 1) % 256 * 0x10000 + min j.yields 255 * 0x1000000
  wrN (wrN s (pPKEL l) rPKEL_LAST v) (pPKEL l) rPKEL_LAST_CYC (j.cycles % 2 ^ 32)

/-- A job ends: stored words and the status word are written back, and the counts follow. -/
def endPkeJob (s : State) (l : Nat) (j : PkeJob) (cause : Nat) : State :=
  let base := j.addr + 64 + 8 * j.cmds.length
  let s1 := j.stored.foldl (fun s k => writeBlock s j.owner (base + 8 * k) (ix j.io k 0)) s
  let s2 := showLast (writeBlock s1 j.owner (j.addr + 8) (statusWord j cause)) l j cause
  let s3 := bump (bump s2 (pPKEL l) rPKEL_JOB_CNT) pPKE rPKE_JOB_CNT
  if cause = 0 then raise s3 (pPKEL l) 0 else raise (bump s3 pPKE rPKE_ABORT_CNT) (pPKEL l) 1

/-- A job of a lane is aborted with a cause (R331, R332). -/
def abortJob (s : State) (l cause : Nat) (j : PkeJob) : State :=
  let t := j.ticket
  let s1 := updLane s l fun x =>
    { x with run := x.run.filter fun y => y.ticket != t, susp := x.susp.filter fun y => y.ticket != t
             queue := x.queue.filter fun y => y.ticket != t }
  endPkeJob s1 l j cause

/-- Every job of a lane is aborted with a cause. -/
def abortLane (s : State) (cause l : Nat) : State :=
  showLane ((lane s l).jobs.foldl (fun s j => abortJob s l cause j) s) l

/-- Every job that names a slot of a range is aborted as REVOKED (R320). -/
def abortNaming (s : State) (first count : Nat) : State :=
  (List.range 16).foldl (fun s l =>
    let hit := (lane s l).jobs.filter fun j => j.cmds.any fun w =>
      (cmdSlots w).any fun n => decide (first ≤ n) && decide (n < first + count)
    nextJob (hit.foldl (fun s j => abortJob s l 2 j) s) l) s

/-! ### Changes of owner (R319, R320) -/

/-- A code of R319 applies; where several do, the lowest is shown. -/
def slotWhy (s : State) (r : Requester) (op first count ctx : Nat) : Nat :=
  let q := reqCode r
  let l := (List.range count).map fun k => first + k
  let real := l.filter fun n => slotExists s n && n / 256 == first / 256
  let host := match r with
    | .host => true
    | .hart _ => false
  if op = 1 ∧ (real.any fun n => !slotFree s n) then 1
  else if op = 2 ∧ (real.any fun n => !slotOwned s n (ownerOf r ctx)) then 2
  else if op = 3 ∧ isKeeper r = false then 3
  else if real.length ≠ count then 4
  else if s.pke.ops.any fun o => o.q == q then 5
  else if host && !flag s pPKE fPKE_CFG_HOST_EN then 6
  else if op = 0 ∨ 4 < op then 7
  else 0

/-- The fields of SLOT_CMD are stored for their requester. -/
def slotFields (s : State) (q op first count ctx : Nat) : State :=
  wrB s q pPKE rPKE_SLOT_CMD (first + count % 256 * 0x1000 + op * 0x100000 + ctx * 0x1000000)

/-- SLOT_STAT of a requester. -/
def slotStat (s : State) (q busy done err owner : Nat) : State :=
  wrB s q pPKE rPKE_SLOT_STAT (busy + done * 2 + err * 4 + owner * 0x100)

/-- SLOT_BUSY shows whether an operation is in progress. -/
def showSlotBusy (s : State) : State := putB s pPKE fPKE_STAT_SLOT_BUSY (s.pke.ops ≠ [])

/-- A slot operation begins, or is refused. -/
def slotGo (s : State) (r : Requester) (op first count ctx : Nat) : State :=
  let q := reqCode r
  let why := slotWhy s r op first count ctx
  let s0 := slotFields s q op first count ctx
  if why ≠ 0 then
    let busy := ofBool (s.pke.ops.any fun o => o.q == q)
    raise (slotStat s0 q busy 0 why 0) pPKE 1
  else if op = 4 then raise (slotStat s0 q 0 1 0 (slotOwner s first)) pPKE 0
  else
    let s1 := if op = 1 then s0 else abortNaming s0 first count
    let o : SlotOp := ⟨q, op, first, count, if op = 1 then ownerOf r ctx else 0, slotOwner s first⟩
    showSlotBusy (slotStat (updPke s1 fun x => { x with ops := x.ops ++ [o] }) q 1 0 0 0)

/-- COUNT as SLOT_CMD codes it: 0 means 256. -/
def slotCount (n : Nat) : Nat := orD n 256

/-- SLOT_CLAIM (R319): SLOT_CMD with OP CLAIM and GO. -/
def execSlotClaim (r : Requester) (first : Fin 4096) (count : Fin 256) (ctx : Fin 8) (s : State) :
    Host.Outcome State Fault Refusal :=
  .next (onWrite s r pPKE fun s => slotGo s r 1 first (slotCount count) ctx)

/-- SLOT_RELEASE_CMD (R319, R320): SLOT_CMD with OP RELEASE and GO. -/
def execSlotReleaseCmd (r : Requester) (first : Fin 4096) (count : Fin 256) (ctx : Fin 8) (s : State) :
    Host.Outcome State Fault Refusal :=
  .next (onWrite s r pPKE fun s => slotGo s r 2 first (slotCount count) ctx)

/-- SLOT_REVOKE (R319, R320): SLOT_CMD with OP REVOKE and GO. -/
def execSlotRevoke (r : Requester) (first : Fin 4096) (count : Fin 256) (s : State) :
    Host.Outcome State Fault Refusal :=
  .next (onWrite s r pPKE fun s => slotGo s r 3 first (slotCount count) 0)

/-- SLOT_QUERY (R319): SLOT_CMD with OP QUERY and GO. -/
def execSlotQuery (r : Requester) (first : Fin 4096) (count : Fin 256) (s : State) :
    Host.Outcome State Fault Refusal :=
  .next (onWrite s r pPKE fun s => slotGo s r 4 first (slotCount count) 0)

/-- SLOT_DONE (R319, R320): a requester's slot operation completes; its slots are zeroed and change owner. -/
def execSlotDone (r : Requester) (s : State) : Host.Outcome State Fault Refusal :=
  let q := reqCode r
  match s.pke.ops.find? fun o => o.q == q with
  | none => .next s
  | some o =>
    let s1 := updPke s fun x => { x with ops := x.ops.filter fun y => y.q != q }
    let s2 := (List.range o.count).foldl (fun s k => giveSlot s (o.first + k) o.owner) s1
    let s3 := showSlotBusy (slotStat (bumpBy s2 pPKE rPKE_WIPE_CNT o.count) q 0 1 0 0)
    let s4 := raise s3 pPKE 0
    .next (if o.op = 3 then
        record (raise s4 pPKE 2) pPKE 0x104 2 (o.first + o.count % 256 * 0x1000) o.old
      else s4)

/-- Every slot of a set is free. -/
def setFree (s : State) (k : Nat) : Bool :=
  (s.pke.owners.all fun e => e.1 / 256 != k) && s.pke.ops.all fun o => o.first / 256 != k

/-- A set is zeroed. -/
def wipeSet (s : State) (k : Nat) : State :=
  updPke s fun x => { x with vals := x.vals.filter fun e => e.1 / 256 != k }

/-- A write of SET_LEN0 or SET_LEN1: the sets whose slots are free take their new lengths (R316). -/
def setLens (s : State) (hi : Bool) (v : Nat) : State :=
  let off := if hi then rPKE_SET_LEN1 else rPKE_SET_LEN0
  (List.range 8).foldl (fun s j =>
    let k := if hi then 8 + j else j
    let f : Fld := ⟨off, 3 * j, 3⟩
    let w := v / 8 ^ j % 8
    if get s pPKE f = w then s
    else if setFree s k then wipeSet (put s pPKE f w) k
    else raise s pPKE 3) s

/-- SET_LEN_WRITE (R316): a write of PKE.SET_LEN0 or SET_LEN1. -/
def execSetLenWrite (r : Requester) (hi : Bool) (v : Word) (s : State) : Host.Outcome State Fault Refusal :=
  .next (onWrite s r pPKE fun s => if pageLocked s pPKE then lockViol s pPKE else setLens s hi v.toNat)

/-! ### Submitting a job (R321, R322) -/

/-- N of a block. -/
def blockN (s : State) (o a : Nat) : Nat := blockWord s o a % 512
/-- IO_WORDS of a block. -/
def blockIo (s : State) (o a : Nat) : Nat := blockWord s o a / 65536 % 512
/-- The commands of a block. -/
def blockCmds (s : State) (o a : Nat) : List Nat :=
  (List.range (blockN s o a)).map fun k => blockWord s o (a + 64 + 8 * k)

/-- A block lies wholly within its submitter's memory: a hart's region, or the area of a host context. -/
def blockFits (s : State) (o a : Nat) : Bool :=
  let inside := fun n => if 8 ≤ o then decide (a % 0x8000 + n ≤ 0x8000) && decide (a / 0x8000 + 8 = o)
    else hartSram s (o - 1) a n
  inside 64 && inside (64 + 8 * blockN s o a + 8 * blockIo s o a)

/-- A command word has a bad opcode or a field it does not use that is not 0 (code 4). -/
def badWord (w : Nat) : Bool :=
  let op := cmdOp w
  op == 0 || decide (11 < op) || w / 2 ^ 48 % 2 ^ 11 != 0 ||
    (!(op == 1 || isModular op) && cmdSel w != 0) || (!usesDst op && cmdDst w != 0) || (!usesA op && cmdA w != 0) ||
    (!usesB op && cmdB w != 0) || (!(op == 10 || op == 11) && cmdIo w != 0)

/-- The context lengths after the first `k` commands: that of the latest SETMOD of each context. -/
def modLen (s : State) (l : List Nat) (sel : Nat) : Option Nat :=
  ((l.filter fun w => cmdOp w == 1 && cmdSel w == sel).getLast?).map fun w => slotLen s (cmdA w)

/-- A command's lengths differ where Table 15-5 requires them equal (code 7). -/
def badLens (s : State) (before : List Nat) (w : Nat) : Bool :=
  let op := cmdOp w
  let d := slotLen s (cmdDst w)
  ((isModular op || op == 8) && slotLen s (cmdA w) != d) || ([2, 3, 4].contains op && slotLen s (cmdB w) != d) ||
    (isModular op && (modLen s before (cmdSel w)).any fun n => n != d)

/-- Some command of a block meets a condition on itself and the commands before it. -/
def anyCmd (l : List Nat) (f : List Nat → Nat → Bool) : Bool :=
  (List.range l.length).any fun k => f (l.take k) (ix l k 0)

/-- The reasons of Table 15-3 that lie in the block and the slots it names, with their codes. -/
def blockReasons (s : State) (o a : Nat) : List (Nat × Bool) :=
  let l := blockCmds s o a
  let io := blockIo s o a
  [(3, blockN s o a == 0 || decide (256 < blockN s o a) || decide (512 < io)),
   (4, l.any badWord),
   (5, l.any fun w => (cmdSlots w).any fun n => !slotExists s n),
   (6, l.any fun w => (cmdSlots w).any fun n => !slotOwned s n o),
   (7, anyCmd l (badLens s)),
   (8, anyCmd l fun before w => isModular (cmdOp w) && (modLen s before (cmdSel w)).isNone),
   (9, l.any fun w => (cmdOp w == 10 || cmdOp w == 11) && decide (io < cmdIo w + cmdLen s w / 64))]

/-- The first reason that applies, 0 for none. -/
def firstCode (l : List (Nat × Bool)) : Nat := ((l.find? fun x => x.2).map Prod.fst).getD 0

/-- The lane holds four jobs (code 1), or the block does not fit (code 2), or the block is refused. -/
def jobWhy (s : State) (l o a : Nat) : Nat :=
  if 4 ≤ (lane s l).jobs.length then 1
  else if !blockFits s o a then 2
  else firstCode (blockReasons s o a)

/-- A job is refused with a code. -/
def refusePkeJob (s : State) (l q why : Nat) : State :=
  raise (bump (putQ s q (pPKEL l) fPKEL_JOB_CMD_ERR why) pPKE rPKE_REFUSE_CNT) (pPKEL l) 2

/-- The address a submission names: a core-view address, or for the host its offset in the mailbox area of its
context. -/
def jobAddr (s : State) (l q o : Nat) : Nat :=
  let a := rdB s q (pPKEL l) rPKEL_JOB_PTR / 64 * 64
  if 8 ≤ o then (o - 8) * 0x8000 + a % 0x8000 else a

/-- The host's pointer names an offset beyond its context's area. -/
def hostBeyond (s : State) (l q o : Nat) : Bool :=
  decide (8 ≤ o) && decide (0x8000 ≤ rdB s q (pPKEL l) rPKEL_JOB_PTR / 64 * 64)

/-- Why a GO is refused before any copy: the first code that applies (codes 10, 11, 12 among them). -/
def goWhy (s : State) (r : Requester) (l o : Nat) : Nat :=
  let q := reqCode r
  let host := decide (8 ≤ o)
  let late := if (lane s l).copies.any fun c => c.1 == q then 10
    else if host && !flag s pPKE fPKE_CFG_HOST_EN then 11
    else if !pageEn s (pPKEL l) || !flag s (pPKEL l) fPKEL_STAT_READY then 12 else 0
  if 4 ≤ (lane s l).jobs.length then 1
  else if hostBeyond s l q o || !blockFits s o (jobAddr s l q o) then 2
  else if late = 0 then 0
  else orD (jobWhy s l o (jobAddr s l q o)) late

/-- JOB_GO (R321, R322): a write of PKEL.JOB_CMD with GO starts the copy of a job block, or is refused. -/
def execJobGo (r : Requester) (l : Fin 16) (ctx : Fin 8) (s : State) : Host.Outcome State Fault Refusal :=
  .next (onWrite s r (pPKEL l) fun s =>
    let q := reqCode r
    let o := ownerOf r ctx
    let s1 := putQ s q (pPKEL l) fPKEL_JOB_CMD_CTX ctx
    let why := goWhy s1 r l o
    if why ≠ 0 then refusePkeJob s1 l q why
    else
      let a := jobAddr s1 l q o
      updLane (putQ s1 q (pPKEL l) fPKEL_JOB_CMD_BUSY 1) l fun x => { x with copies := x.copies ++ [(q, a, o)] })

/-- The job a block spells, with a ticket. -/
def jobOf (s : State) (o a ticket : Nat) : PkeJob :=
  let l := blockCmds s o a
  let base := a + 64 + 8 * l.length
  { ticket := ticket, owner := o, addr := a, cmds := l
    io := (List.range (blockIo s o a)).map fun k => blockWord s o (base + 8 * k)
    stored := [], mods := [none, none], done := 0, cycles := 0
    total := l.foldl (fun n w => n + cmdCyc s w) 0, yields := 0, a := 0, b := 0 }

/-- JOB_COPIED (R322): a requester's block has been copied to a lane, and is accepted with the lane's next
ticket, or refused. -/
def execJobCopied (r : Requester) (l : Fin 16) (s : State) : Host.Outcome State Fault Refusal :=
  let q := reqCode r
  match (lane s l).copies.find? fun c => c.1 == q with
  | none => .next s
  | some (_, a, o) =>
    let s1 := updLane s l fun x => { x with copies := x.copies.filter fun c => c.1 != q }
    let s2 := putQ s1 q (pPKEL l) fPKEL_JOB_CMD_BUSY 0
    let why := jobWhy s2 l o a
    if why ≠ 0 then .next (refusePkeJob s2 l q why)
    else
      let t := (lane s2 l).next
      let j := jobOf s2 o a t
      let s3 := updLane s2 l fun x => { x with next := (t + 1) % 256, queue := x.queue ++ [j] }
      .next (nextJob (putQ (putQ s3 q (pPKEL l) fPKEL_JOB_CMD_ERR 0) q (pPKEL l) fPKEL_JOB_CMD_TICKET t) l)

/-! ### Running (R323–R330) -/

/-- What the present command of a job leaves: the slot it writes with its value, and the job with its contexts
and I/O words. -/
def cmdEffect (s : State) (j : PkeJob) : Option (Nat × Nat) × PkeJob :=
  let w := ix j.cmds j.done 0
  let op := cmdOp w
  let len := cmdLen s w
  let k := len / 64
  if op = 1 then (none, { j with mods := j.mods.set (cmdSel w) (some (j.a, len)) })
  else if isModular op then
    let m := ((ix j.mods (cmdSel w) none).map Prod.fst).getD 0
    (some (cmdDst w, modular op len m j.a j.b (slotLen s (cmdB w))), j)
  else if op = 8 then (some (cmdDst w, j.a), j)
  else if op = 9 then (some (cmdDst w, 0), j)
  else if op = 10 then
    (some (cmdDst w, (List.range k).foldl (fun n i => n + ix j.io (cmdIo w + i) 0 * 2 ^ (64 * i)) 0), j)
  else
    let ws := (List.range k).map fun i => (cmdIo w + i, j.a / 2 ^ (64 * i) % 2 ^ 64)
    (none, { j with io := ws.foldl (fun l x => l.set x.1 x.2) j.io
                    stored := j.stored.filter (fun i => !(ws.any fun x => x.1 == i)) ++ ws.map Prod.fst })

/-- A long job is suspended for a queued short one (R328). -/
def suspend (s : State) (l : Nat) (j : PkeJob) : State :=
  let s1 := updLane s l fun x => { x with run := none, susp := some { j with yields := j.yields + 1 } }
  nextJob (raise (bump s1 pPKE rPKE_YIELD_CNT) (pPKEL l) 3) l

/-- A yield point of a running job yields: it is long, yielding is enabled, no other job is suspended and a
short one is queued. -/
def yields (s : State) (l : Nat) (j : PkeJob) : Bool :=
  flag s pPKE fPKE_YIELD_CFG_YIELD_EN && !jobShort s j && (lane s l).susp.isNone &&
    (lane s l).queue.any fun y => jobShort s y

/-- The present command of a job completes. -/
def stepJob (s : State) (l : Nat) (j : PkeJob) : State :=
  let e := cmdEffect s j
  let s1 := match e.1 with
    | none => s
    | some (n, v) => putSlot s n v
  let j1 := { e.2 with done := j.done + 1, cycles := j.cycles + cmdCyc s (ix j.cmds j.done 0) }
  if j.cmds.length ≤ j1.done then
    nextJob (endPkeJob (updLane s1 l fun x => { x with run := none }) l j1 0) l
  else
    let j2 := readSources s1 j1
    let s2 := updLane s1 l fun x => { x with run := some j2 }
    if yields s2 l j2 then suspend s2 l j2 else s2

/-- PKE_CMD_DONE (R326, R328): the running job of a lane completes one command. `mid` says that a yield point
within the running MEXP or MINV came first; where a short job is queued the job is suspended there. -/
def execPkeCmdDone (l : Fin 16) (mid : Bool) (s : State) : Host.Outcome State Fault Refusal :=
  match (lane s l).run with
  | none => .next s
  | some j =>
    let op := cmdOp (ix j.cmds j.done 0)
    if !laneRuns s l then .next s
    else if mid && (op == 6 || op == 7) && yields s l j then .next (suspend s l j)
    else .next (stepJob s l j)

/-! ### Aborts, self-test, resets (R331, R334, R336) -/

/-- JOB_ABORT (R331): a write of JOB_CMD.ABORT with TICKET, by the job's owner or a keeper hart. -/
def execJobAbort (r : Requester) (l : Fin 16) (ctx : Fin 8) (ticket : BitVec 8) (s : State) :
    Host.Outcome State Fault Refusal :=
  .next (onWrite s r (pPKEL l) fun s =>
    let s1 := putQ s (reqCode r) (pPKEL l) fPKEL_JOB_CMD_CTX ctx
    match (lane s1 l).jobs.find? fun j => j.ticket == ticket.toNat with
    | none => s1
    | some j =>
      if isKeeper r || j.owner == ownerOf r ctx then nextJob (abortJob s1 l 1 j) l else s1)

/-- READY of a lane. -/
def laneReady (s : State) (l : Nat) (b : Bool) : State :=
  putB (putB s (pPKEL l) fPKEL_STAT_READY b) (pPKEL l) fPAGE_STAT_READY b

/-- A lane's self-test starts. -/
def startTest (s : State) (l : Nat) : State :=
  doubt (laneReady (updLane s l fun x => { x with test := true }) l false) (pPKEL l) 0 false

/-- SELFTEST_DONE (R334): a lane's self-test ends, and the lane is ready or fails. -/
def execSelftestDone (l : Fin 16) (pass : Bool) (s : State) : Host.Outcome State Fault Refusal :=
  if (lane s l).test && laneRuns s l then
    let s1 := updLane s l fun x => { x with test := false }
    .next (if pass then laneReady s1 l true else doubt (raise s1 (pPKEL l) 4) (pPKEL l) 0 true)
  else .next s

/-- A lane page is enabled or disabled. -/
def laneEnabled (s : State) (l : Nat) (on : Bool) : State :=
  if on then startTest s l else laneReady (abortLane s 3 l) l false

/-- The control page is disabled: every job of every lane is aborted. -/
def pkeDisabled (s : State) : State := (List.range 16).foldl (fun s l => abortLane s 3 l) s

/-- Every slot is zeroed and free, every queue empty, with no status written. -/
def pkeLost (s : State) : State :=
  let s1 := updPke s fun x =>
    { x with owners := [], vals := [], ops := []
             lanes := x.lanes.map fun y => { y with run := none, susp := none, queue := [], copies := [] } }
  (List.range 16).foldl (fun s l => startTest (showLane s l) l) (showSlotBusy s1)

/-- An ISLAND reset of Hub island 2 (R336): jobs are aborted with cause RESET, slots zeroed and freed, and the
self-tests run again. -/
def pkeIslandReset (s : State) : State :=
  pkeLost ((List.range 16).foldl (fun s l => abortLane s 4 l) s)

end Sys2Proof.Machine
end

