-- ==== Sys2Proof/Machine/Tables.lean ====
section
/-! DEFINITION. The table engine of a Port die (TBL): the rate table with its classes and prefixes
(R219–R227), the storage of the session table (R264), the secrets and the scrubbers. -/

namespace Sys2Proof.Machine

/-! ### Secrets (R219, R227) -/

/-- The key island can supply a secret: HK is on and DRBG_OK = 1. -/
def islandSecret (s : State) : Bool := pageOn s pKEY && flag s pKEY fKEY_STAT_DRBG_OK

/-- A table draws a secret, a free value: from the key island, else from the die's nonce generator while that
is seeded and below its reseed limit, else none. -/
def drawSecret (s : State) (d : Nat) : State × Option Nat :=
  let x := pd s d
  if islandSecret s then (drawn s, some (freeVal s 32 % 2 ^ 64))
  else if x.seeded && decide (x.nonces < 4294967296) then
    (drawn (updPd s d fun x => { x with nonces := x.nonces + 1 }), some (freeVal s 32 % 2 ^ 64))
  else (s, none)

/-- TBL.STAT.KEY_READY: both tables hold a secret. -/
def showReady (s : State) (d : Nat) : State :=
  putB s (pTBL d) fTBL_STAT_KEY_READY ((pd s d).rateKey.isSome && (pd s d).sesKey.isSome)

/-- The rate table takes a new secret where one can be drawn, and keeps its old one where not. -/
def newRateKey (s : State) (d : Nat) : State :=
  let r := drawSecret s d
  showReady (updPd r.1 d fun x => { x with rateKey := if r.2.isSome then r.2 else x.rateKey }) d

/-- The session table takes a new secret where one can be drawn. -/
def newSesKey (s : State) (d : Nat) : State :=
  let r := drawSecret s d
  showReady (updPd r.1 d fun x => { x with sesKey := if r.2.isSome then r.2 else x.sesKey }) d

/-- SECRET_RETRY (R227): every 1 ms a table without a secret asks for one again. -/
def execSecretRetry (d : Fin 4) (s : State) : Host.Outcome State Fault Refusal :=
  if pageOn s (pTBL d) && pageEn s (pTBL d) then
    let s1 := if (pd s d).rateKey.isNone then newRateKey s d else s
    .next (if (pd s1 d).sesKey.isNone then newSesKey s1 d else s1)
  else .next s

/-! ### The rate table (R219–R226) -/

/-- TBL.USED shows the valid rate entries. -/
def showUsed (s : State) (d : Nat) : State := put s (pTBL d) fTBL_USED_CNT (pd s d).rate.length

/-- Every entry is invalidated and a new secret drawn (R226). -/
def rateFlush (s : State) (d : Nat) : State :=
  let s1 := updPd s d fun x => { x with rate := [], rateBad := [], flushing := true }
  newRateKey (showUsed (putB s1 (pTBL d) fTBL_STAT_FLUSHING true) d) d

/-- TBL_FLUSH (R226): a write of TBL.CTRL with FLUSH. -/
def execTblFlush (r : Requester) (d : Fin 4) (s : State) : Host.Outcome State Fault Refusal :=
  .next (onWrite s r (pTBL d) fun s => rateFlush s d)

/-- FLUSH_DONE (R226): a flush completes. -/
def execFlushDone (d : Fin 4) (s : State) : Host.Outcome State Fault Refusal :=
  if (pd s d).flushing then
    let s1 := updPd s d fun x => { x with flushing := false }
    .next (raise (putB s1 (pTBL d) fTBL_STAT_FLUSHING false) (pTBL d) 1)
  else .next s

/-- The words of a prefix entry: PFX_ADDR0–3 and PFX_CFG. -/
def pfxEntry (s : State) (d k : Nat) : List Nat := (amGet? k (pd s d).pfx).getD [0, 0, 0, 0, 0]

/-- The length of a prefix, no longer than 32 or 64. -/
def pfxLen (e : List Nat) : Nat := min (ix e 4 0 % 256) (if bitOf (ix e 4 0) 8 then 64 else 32)

/-- A prefix contains a source. -/
def pfxHolds (e : List Nat) (v6 : Bool) (src : Nat) : Bool :=
  let w := if v6 then 128 else 32
  bitOf (ix e 4 0) 31 && bitOf (ix e 4 0) 8 == v6 &&
    src / 2 ^ (w - pfxLen e) == wordsIp v6 e / 2 ^ (w - pfxLen e)

/-- The class of a source: that of the longest prefix that contains it, ties to the lower index (R220). -/
def rateClass (s : State) (d : Nat) (v6 : Bool) (src : Nat) : Nat :=
  let best := (List.range 8).foldl (fun (b : Option Nat) k =>
    let e := pfxEntry s d k
    if !pfxHolds e v6 src then b
    else match b with
      | none => some k
      | some j => if pfxLen (pfxEntry s d j) < pfxLen e then some k else b) none
  match best with
  | none => 0
  | some k => ix (pfxEntry s d k) 4 0 / 512 % 4

/-- The key of a source: an IPv4 address, or the /64 prefix of an IPv6 address (R219). -/
def rateKeyOf (v6 : Bool) (src : Nat) : Nat := if v6 then src / 2 ^ 64 else src

/-- BURST of a class in 2⁻⁸ token; 0 is treated as 1. -/
def classBurst (s : State) (d c : Nat) : Nat := orD (get s (pTBL d) (fTBL_CLASS_BURST c)) 1 * 256

/-- The tokens of an entry refilled to now under a class (R221 step 1). -/
def refillTokens (s : State) (d c : Nat) (e : RateEnt) : Nat :=
  min (classBurst s d c)
    (e.tokens + (mono s - e.last) * get s (pTBL d) (fTBL_CLASS_RATE c) * 256 / 1000000000)

/-- The class of an entry's source: an IPv6 key stands for any address of its prefix. -/
def entClass (s : State) (d : Nat) (e : RateEnt) : Nat :=
  rateClass s d e.v6 (if e.v6 then e.key * 2 ^ 64 else e.key)

/-- An entry is written: its tile's check is computed again, or inverted by an injection (R385, R489). -/
def putEnt (s : State) (d k : Nat) (e : RateEnt) : State :=
  let t := writeTiles s d 1 1
  showUsed (updPd t.1 d fun x =>
    { x with rate := amSet k e x.rate
             rateBad := if t.2 then (k / 2) :: x.rateBad.filter (· != k / 2)
               else x.rateBad.filter (· != k / 2) }) d

/-- A rate tile fails its check: both of its entries go (R225). -/
def rateTileFail (s : State) (d t : Nat) : State :=
  let m := mono s
  let s1 := updPd s d fun x =>
    { x with rate := amErase (2 * t) (amErase (2 * t + 1) x.rate)
             rateBad := x.rateBad.filter (· != t), tileAt := m }
  let s2 := raise (bump s1 (pTBL d) rTBL_TILE_INV_CNT) (pTBL d) 30
  showUsed (tileFail (doubt s2 (pTBL d) 0 true) d) d

/-- The way of a set that a new entry takes: a free one, else the fullest, ties to the oldest LAST (R224). -/
def victim (s : State) (d set : Nat) : Nat × Bool :=
  let ways := (List.range 4).map fun w => 4 * set + w
  match ways.find? fun k => (amGet? k (pd s d).rate).isNone with
  | some k => (k, false)
  | none =>
    let full (k : Nat) : Nat × Nat :=
      match amGet? k (pd s d).rate with
      | some e => (refillTokens s d (entClass s d e) e, e.last)
      | none => (0, 0)
    (ways.foldl (fun b k =>
      if (full b).1 < (full k).1 ∨ ((full b).1 = (full k).1 ∧ (full k).2 < (full b).2) then k else b)
      (4 * set), true)

/-- What a lookup answers: pass, over the limit, or over the limit with a KoD allowed (R221, R222). -/
inductive RateVerdict where
  | pass | above | kod
  deriving DecidableEq, Repr

/-- The rate limit does not apply to a source: RATE_EN = 0, the page disabled, a flush, no secret, or an
exempt class (R220, R226, R227). -/
def rateFree (s : State) (d c : Nat) : Bool :=
  !flag s (pTBL d) fTBL_CFG_RATE_EN || !pageEn s (pTBL d) || (pd s d).flushing ||
    (pd s d).rateKey.isNone || get s (pTBL d) (fTBL_CLASS_RATE c) == 0

/-- The tiles of a set are read; those that fail their check go (R225). `ok` says that the tile of the
source's entry reads back right where nothing has been injected. -/
def readSet (s : State) (d set : Nat) (hit : Option Nat) (ok : Bool) : State :=
  [2 * set, 2 * set + 1].foldl (fun s t =>
    if (pd s d).rateBad.contains t || (!ok && hit.any fun k => k / 2 == t) then rateTileFail s d t
    else s) s

/-- RATE_LOOKUP (R221–R224): a source is charged one request. -/
def rateLookup (s : State) (d : Nat) (v6 : Bool) (src : Nat) (nts ok : Bool) : State × RateVerdict :=
  let c := rateClass s d v6 src
  if rateFree s d c then (s, .pass)
  else
    let key := rateKeyOf v6 src
    let set := Config.rateHash ((pd s d).rateKey.getD 0) v6 key % 16384
    let find (s : State) : Option Nat := ((List.range 4).map fun w => 4 * set + w).find? fun k =>
      (amGet? k (pd s d).rate).any fun e => e.v6 == v6 && e.key == key
    let s1 := readSet s d set (find s) ok
    let m := mono s
    match find s1 with
    | none =>
      let v := victim s1 d set
      let s2 := if v.2 then bump s1 (pTBL d) rTBL_EVICT_CNT else s1
      (putEnt s2 d v.1 ⟨v6, key, classBurst s d c - 256, m, none⟩, .pass)
    | some k =>
      match amGet? k (pd s1 d).rate with
      | none => (s1, .pass)
      | some e =>
        let t := refillTokens s1 d c e
        if 256 ≤ t then (putEnt s1 d k { e with tokens := t - 256, last := m }, .pass)
        else
          let gap := orD (get s (pTBL d) fTBL_KOD_GAP_MS) 1 * 1000000
          let may := !nts && flag s (pTBL d) (fTBL_CLASS_ACTION c) &&
            e.kod.all fun a => decide (a + gap ≤ m)
          (putEnt s1 d k { e with tokens := t, last := m, kod := if may then some m else e.kod },
            if may then .kod else .above)

/-! ### Prefixes (R220) -/

/-- The fields IDX and RW of a write of PFX_CMD are stored. -/
def pfxFields (s : State) (d idx : Nat) (rw : Bool) : State :=
  putB (put s (pTBL d) fTBL_PFX_CMD_IDX idx) (pTBL d) fTBL_PFX_CMD_RW rw

/-- PFX_READ (R220): a prefix entry is read into PFX_ADDR and PFX_CFG. -/
def execPfxRead (r : Requester) (d : Fin 4) (idx : Fin 8) (s : State) : Host.Outcome State Fault Refusal :=
  .next (onWrite s r (pTBL d) fun s =>
    let e := pfxEntry s d idx
    let s1 := (List.range 4).foldl (fun s k => wrN s (pTBL d) (rTBL_PFX_ADDR k) (ix e k 0))
      (pfxFields s d idx false)
    wrN s1 (pTBL d) rTBL_PFX_CFG (ix e 4 0))

/-- PFX_WRITE (R220): a prefix entry is written, for lookups that start from now on (log entry 14). -/
def execPfxWrite (r : Requester) (d : Fin 4) (idx : Fin 8) (s : State) : Host.Outcome State Fault Refusal :=
  .next (onWrite s r (pTBL d) fun s =>
    let e := (List.range 4).map (fun k => rdN s (pTBL d) (rTBL_PFX_ADDR k)) ++ [rdN s (pTBL d) rTBL_PFX_CFG]
    updPd (pfxFields s d idx true) d fun x => { x with pfx := amSet idx.val e x.pfx })

/-! ### The session table (R264, Table 12-7) -/

/-- A type that is not granted. -/
def Grant.none : Grant := ⟨false, 0, 0, 0⟩

/-- The 12 bytes of a grant. -/
def Grant.bytes (g : Grant) : List Byte :=
  put8 1 (unsign 8 g.log) ++ put8 1 (ofBool g.on) ++ put8 4 g.dur ++ put8 6 g.exp

/-- A grant from its bytes. -/
def grantOf (l : List Byte) (o : Nat) : Grant :=
  ⟨u8 l (o + 1) % 2 == 1, signed 8 (u8 l o), be l (o + 2) 4, be l (o + 6) 6⟩

/-- Bytes 0–61 and 64–125 of an entry, each half closed by its tile check. -/
def Session.bytes (e : Session) : List Byte :=
  let flags := 1 + ofBool e.static * 2 + ofBool e.v6 * 4 + ofBool e.l2 * 8 + e.slot * 16 + e.port * 64
  let addr := if e.v6 then put8 16 e.addr else put8 4 e.addr ++ put8 12 0
  let a := put8 2 flags ++ put8 2 e.vid ++ put8 6 e.mac ++ put8 10 e.pid ++ addr ++ put8 2 e.seqSync ++
    put8 2 e.seqAnn ++ put8 2 e.seqSig ++ put8 20 0
  let b := e.ann.bytes ++ e.sync.bytes ++ e.dresp.bytes ++ put8 8 e.nextSync ++ put8 8 e.nextAnn ++
    put8 4 e.sent ++ put8 6 0
  a ++ put8 2 (crc16 a) ++ b ++ put8 2 (crc16 b)

/-- An entry from 128 bytes, none where VALID = 0. -/
def sessionOf (l : List Byte) : Option Session :=
  let f := be l 0 2
  if f % 2 = 0 then none
  else
    let v6 := bitOf f 2
    some { static := bitOf f 1, v6 := v6, l2 := bitOf f 3, slot := f / 16 % 4, port := f / 64 % 8
           vid := be l 2 2, mac := be l 4 6, pid := be l 10 10
           addr := if v6 then be l 20 16 else be l 20 4
           seqSync := be l 36 2, seqAnn := be l 38 2, seqSig := be l 40 2
           ann := grantOf l 64, sync := grantOf l 76, dresp := grantOf l 88
           nextSync := be l 100 8, nextAnn := be l 108 8, sent := be l 116 4 }

/-- TBL.SES_STAT.USED shows the valid sessions; an emptied table draws a new secret (R264). -/
def showSessions (s : State) (d : Nat) : State := put s (pTBL d) fTBL_SES_STAT_USED (pd s d).ses.length

/-- A session is written: two tiles (R264, R489). -/
def putSes (s : State) (d k : Nat) (e : Session) : State :=
  let t := writeTiles s d 2 2
  showSessions (updPd t.1 d fun x =>
    { x with ses := amSet k e x.ses
             sesBad := if t.2 then k :: x.sesBad.filter (· != k) else x.sesBad.filter (· != k) }) d

/-- An entry is freed; the table draws a new secret when it becomes empty (R264). -/
def freeSes (s : State) (d k : Nat) : State :=
  let had := (amGet? k (pd s d).ses).isSome
  let s1 := showSessions (updPd s d fun x =>
    { x with ses := amErase k x.ses, sesBad := x.sesBad.filter (· != k) }) d
  if had && (pd s1 d).ses.isEmpty then newSesKey s1 d else s1

/-- A session tile fails its check: the whole entry goes (R264). -/
def sesTileFail (s : State) (d k : Nat) : State :=
  let m := mono s
  let s1 := updPd s d fun x => { x with sesTileAt := m }
  let s2 := raise (bump (freeSes s1 d k) (pTBL d) rTBL_SES_TILE_CNT) (pTBL d) 17
  tileFail (doubt s2 (pTBL d) 8 true) d

/-- A session is read for use: one whose tile fails is gone. -/
def useSes (s : State) (d k : Nat) : State × Option Session :=
  if (pd s d).sesBad.contains k then (sesTileFail s d k, none) else (s, amGet? k (pd s d).ses)

/-- The session table is emptied and draws a new secret: an enable of the TBL page (R264). -/
def sesEmpty (s : State) (d : Nat) : State :=
  newSesKey (showSessions (updPd s d fun x => { x with ses := [], sesBad := [], sesScrub := 0 }) d) d

/-- The set of a partner: on L2 its MAC address, on UDP its IP address. -/
def sesSet (s : State) (d port slot : Nat) (l2 : Bool) (a : Nat) : Nat :=
  Config.sesHash ((pd s d).sesKey.getD 0) port slot l2 a % 1024

/-- The entry of a partner in its set. -/
def sesFind (s : State) (d port slot : Nat) (l2 v6 : Bool) (a : Nat) : Option Nat :=
  let set := sesSet s d port slot l2 a
  ((List.range 4).map fun w => 4 * set + w).find? fun k =>
    (amGet? k (pd s d).ses).any fun e =>
      e.port == port && e.slot == slot && e.l2 == l2 &&
        (if l2 then e.mac == a else e.addr == a && e.v6 == v6)

/-- A free way of a partner's set. -/
def sesFree (s : State) (d port slot : Nat) (l2 : Bool) (a : Nat) : Option Nat :=
  let set := sesSet s d port slot l2 a
  ((List.range 4).map fun w => 4 * set + w).find? fun k => (amGet? k (pd s d).ses).isNone

/-- The fields IDX and RW of a write of SES_CMD are stored. -/
def sesFields (s : State) (d idx : Nat) (rw : Bool) : State :=
  putB (put s (pTBL d) fTBL_SES_CMD_IDX idx) (pTBL d) fTBL_SES_CMD_RW rw

/-- SES_READ (R264): an entry is read into SES_DATA. -/
def execSesRead (r : Requester) (d : Fin 4) (idx : Fin 4096) (s : State) :
    Host.Outcome State Fault Refusal :=
  .next (onWrite s r (pTBL d) fun s =>
    let b := match amGet? idx.val (pd s d).ses with
      | some e => e.bytes
      | none => List.replicate 128 0
    (List.range 32).foldl (fun s k => wrN s (pTBL d) (rTBL_SES_DATA k) (be b (4 * k) 4))
      (sesFields s d idx false))

/-- SES_WRITE (R264): an entry is written from SES_DATA, whatever its way held. -/
def execSesWrite (r : Requester) (d : Fin 4) (idx : Fin 4096) (s : State) :
    Host.Outcome State Fault Refusal :=
  .next (onWrite s r (pTBL d) fun s =>
    let b := (List.range 32).flatMap fun k => put8 4 (rdN s (pTBL d) (rTBL_SES_DATA k))
    let s1 := sesFields s d idx true
    match sessionOf b with
    | some e => putSes s1 d idx e
    | none => freeSes s1 d idx)

/-! ### Scrubbers (R225, R264) -/

/-- The rate scrubber reads its next tile. -/
def scrubRate (s : State) (d : Nat) (ok : Bool) : State :=
  let t := (pd s d).scrub
  let s1 := if !ok || (pd s d).rateBad.contains t then rateTileFail s d t else s
  if t + 1 < 32768 then updPd s1 d fun x => { x with scrub := t + 1 }
  else raise (bump (updPd s1 d fun x => { x with scrub := 0 }) (pTBL d) rTBL_SCRUB_PASS_CNT) (pTBL d) 0

/-- The session scrubber reads its next tile. -/
def scrubSes (s : State) (d : Nat) (ok : Bool) : State :=
  let t := (pd s d).sesScrub
  let s1 := if !ok || (pd s d).sesBad.contains (t / 2) then sesTileFail s d (t / 2) else s
  updPd s1 d fun x => { x with sesScrub := (t + 1) % 8192 }

/-- SCRUB (R225, R264): a scrubber reads the next rate or session tile and checks it; `ok` says that it reads
back right where nothing has been injected. -/
def execScrub (d : Fin 4) (ses ok : Bool) (s : State) : Host.Outcome State Fault Refusal :=
  let p := pTBL d
  if !pageOn s p || !pageEn s p || get s p fTBL_SCRUB_INTERVAL = 0 then .next s
  else if ses then .next (if flag s p fTBL_SES_CFG_SCRUB_EN then scrubSes s d ok else s)
  else .next (scrubRate s d ok)

/-- TBL_TILE_END (R225, R264): TBL_TILE or SES_TILE falls 1 s after it was raised. -/
def execTblTileEnd (d : Fin 4) (ses : Bool) (s : State) : Host.Outcome State Fault Refusal :=
  let bit := if ses then 8 else 0
  if doubts s (pTBL d) bit then
    let at' := if ses then (pd s d).sesTileAt else (pd s d).tileAt
    .next (doubt (advMono s (at' + 1000000000)) (pTBL d) bit false)
  else .next s

/-- An enable of the TBL page empties both tables, and the walks begin again (R219, R225, R264). -/
def tblEnabled (s : State) (d : Nat) : State :=
  sesEmpty (rateFlush (updPd s d fun x => { x with scrub := 0 }) d) d

end Sys2Proof.Machine
end

