-- ==== Sys2Proof/Machine/Answer.lean ====
section
/-! DEFINITION. The answer lanes and the SIV engine of a Port die: a request is taken, charged, booked and
answered (R207–R237). -/

namespace Sys2Proof.Machine

/-! ### Taking a request (R207–R209) -/

/-- The port whose queue a lane serves next, in round robin. -/
def nextQueue (s : State) (d : Nat) : Option Nat :=
  ((List.range 8).map fun k => ((pd s d).rr + 1 + k) % 8).find? fun i =>
    !(port s d i).queue.isEmpty

/-- The pre-booking delay of a lane in ns (Table 25-1). -/
def preDelay (s : State) (d : Nat) : Nat :=
  if perturbed s (4 + d) then get s (pTST (4 + d)) fTST_ANS_DLY_PRE else 0

/-- A request is older than MAX_AGE when a lane takes it (R208). -/
def tooOld (s : State) (d : Nat) (q : NtpReq) : Bool :=
  decide (((orD (get s (pANS d) fANS_Q_CFG_MAX_AGE) 1 * 65536 : Nat) : Int) <
    pcDiff (BitVec.ofNat 64 (nowP s d)) q.stamp)

/-- A spoilt packet tile of a request: the frame is dropped and INT_RAW[30] of the reader's page set
(R384). -/
def tileDrop (s : State) (d : Nat) (p : Pg) : State := tileFail (raise s p 30) d

/-- A booking for an answer: E = now + lead (R209, R237). On grant `f` completes it. -/
def bookAnswer (s : State) (d i grid lead len : Nat) (by' : Nat → Builder)
    (f : State → Booking → State) : State :=
  let now := nowP s d
  let r := book s d i now (now + lead * 65536) grid false (by' 0) len (lead * 65536)
  match r.2 with
  | none => bump r.1 (pANS d) rANS_BOOK_REJ_CNT
  | some b =>
    let b' : Booking := { b with by' := by' b.l }
    f (updBook r.1 d i b.no fun _ => b') b'

/-- Answers in ALARM form are counted. -/
def countForm (s : State) (d form : Nat) : State :=
  if form = 2 then bump s (pANS d) rANS_ALARM_CNT else s

/-- A plain answer is booked and built (R209). -/
def answerPlain (s : State) (d i grid form : Nat) (q : NtpReq) : State :=
  bookAnswer s d i grid (get s (pANS d) fANS_LAUNCH_LEAD_PLAIN) (ntpLen q 48)
    (fun l => .answer q (ntpHead s d q form (t96At s l)))
    fun s b => fillBook (countForm s d form) d i b

/-- A Kiss-o'-Death is launched untimed (R222, R223). -/
def sendKod (s : State) (d i : Nat) (q : NtpReq) : State :=
  untimed (bump s (pANS d) rANS_KOD_CNT) d i (ntpFrame s d i q (kodBody s d q 0x52415445)) none

/-- A plain request within its lane (R209, R222). -/
def servePlain (s : State) (d i grid form : Nat) (q : NtpReq) (tblOk : Bool) : State :=
  let r := rateLookup s d q.v6 q.src false tblOk
  match r.2 with
  | .pass => answerPlain r.1 d i grid form q
  | .kod => sendKod r.1 d i q
  | .above => bump r.1 (pANS d) rANS_RATE_DROP_CNT

/-- A failed cookie or authenticator: a NAK is on its way where the configuration asks for one. -/
def maybeNak (s : State) (d i : Nat) (q : NtpReq) (f : Fld) : State :=
  if flag s (pSIV d) f then updPd s d fun x => { x with siv := x.siv ++ [.nak i q] } else s

/-- An NTS request that is answered: booked, and handed to the SIV engine (R233, R237). -/
def answerNts (s : State) (d i grid form : Nat) (q : NtpReq) (w : NtsWork) : State :=
  bookAnswer s d i grid (ntsLead s d w.k) (ntpLen q (ntsLen w))
    (fun l => .nts q (ntpHead s d q form (t96At s l)) w)
    fun s b => updPd (countForm s d form) d fun x => { x with siv := x.siv ++ [.answer i b.no] }

/-- An NTS request within its lane (R233). -/
def serveNts (s : State) (d i grid form : Nat) (q : NtpReq) (tblOk : Bool) : State :=
  let r := rateLookup s d q.v6 q.src true tblOk
  let p := pSIV d
  match r.2 with
  | .pass =>
    match ntsJudge r.1 d q.body with
    | .noKey => bump r.1 p rSIV_NOKEY_CNT
    | .format => bump r.1 p rSIV_FORMAT_CNT
    | .cookieKey => maybeNak (bump r.1 p rSIV_COOKIE_KEY_CNT) d i q fSIV_CFG_NAK_COOKIE
    | .cookieAuth => maybeNak (bump r.1 p rSIV_COOKIE_AUTH_CNT) d i q fSIV_CFG_NAK_COOKIE
    | .authFail => maybeNak (bump r.1 p rSIV_AUTH_FAIL_CNT) d i q fSIV_CFG_NAK_AUTH
    | .ok w n => answerNts (bumpBy r.1 p rSIV_PH_IGN_CNT n) d i grid form q w
  | _ => bump r.1 (pANS d) rANS_RATE_DROP_CNT

/-- A request that a lane has taken (R208, R209, R233). -/
def serve (s : State) (d i grid : Nat) (q : NtpReq) (tileOk tblOk : Bool) : State :=
  if !tileOk || q.bad then tileDrop s d (pANS d)
  else if tooOld s d q then bump s (pANS d) rANS_AGE_DROP_CNT
  else
    let form := ansForm s d
    if form = 3 then bump s (pANS d) rANS_SILENT_CNT
    else
      let s1 := advDie s d (nowP s d + preDelay s d * 65536)
      if q.nts then serveNts s1 d i grid form q tblOk else servePlain s1 d i grid form q tblOk

/-- ANS_LANE_TAKE (R209): a lane takes the next request of the eight queues. `grid` is the wait to the next
grid position (log entry 10); `tileOk` and `tblOk` say that the packet tile and the table tile it reads
pass their checks. -/
def execAnsLaneTake (d : Fin 4) (grid : Nat) (tileOk tblOk : Bool) (s : State) :
    Host.Outcome State Fault Refusal :=
  match nextQueue s d with
  | none => .next s
  | some i =>
    match (port s d i).queue with
    | [] => .next s
    | q :: t =>
      let s1 := updPort s d i fun p => { p with queue := t }
      .next (serve (updPd s1 d fun x => { x with rr := i }) d i grid q tileOk tblOk)

/-! ### The SIV engine (R235, R236) -/

/-- An NTS NAK is launched untimed (R235). -/
def sendNak (s : State) (d i : Nat) (q : NtpReq) : State :=
  let s1 := raise (bump s (pSIV d) rSIV_NAK_CNT) (pSIV d) 5
  untimed s1 d i (ntpFrame s1 d i q (nakBody s1 d q)) none

/-- The cookies of an answer are minted (R234). -/
def mintFor (s : State) (d i : Nat) (b : Booking) (q : NtpReq) (h : NtpHead) (w : NtsWork)
    (mk : MasterKey) : State × Booking :=
  let r := mintFields d mk w w.k s
  let b' : Booking := { b with by' := .nts q h { w with cookies := r.2 } }
  (updBook (add64 r.1 (pSIV d) rSIV_COOKIES_LO rSIV_COOKIES_HI w.k) d i b.no fun _ => b', b')

/-- The work for an answer is finished: its frame is built for its L, or for a new one where it is late (R188,
R236). -/
def finishNts (s : State) (d i grid : Nat) (b : Booking) : State :=
  match b.by', mintKey s d with
  | .nts q h w, some mk =>
    let r := mintFor s d i b q h w mk
    if b.late then restamp r.1 d i grid r.2
    else match r.2.by' with
      | .nts q h w => fillNts r.1 d i r.2 q h w
      | _ => r.1
  | _, _ => abandon (bump s (pSIV d) rSIV_NOKEY_CNT) d i b 0

/-- NTS_SIV_DONE (R236): the SIV engine finishes its oldest work. A frame whose booking is gone is
discarded. -/
def execNtsSivDone (d : Fin 4) (grid : Nat) (tileOk : Bool) (s : State) :
    Host.Outcome State Fault Refusal :=
  match (pd s d).siv with
  | [] => .next s
  | .nak i q :: t =>
    let s1 := updPd s d fun x => { x with siv := t }
    .next (if tileOk then sendNak s1 d i q else tileDrop s1 d (pSIV d))
  | .answer i no :: t =>
    let s1 := updPd s d fun x => { x with siv := t }
    match (port s1 d i).books.find? fun b => b.no == no with
    | none => .next s1
    | some b =>
      .next (if tileOk then finishNts s1 d i grid b
        else abandon (tileDrop s1 d (pSIV d)) d i b 0)

end Sys2Proof.Machine
end

