-- ==== Sys2Proof/Machine/Ptp.lean ====
section
/-! DEFINITION. The PTP engine of a Port die (spec/12): instances, due messages, foreign masters, peer delay,
sessions, reference ports, bridge pairs and security entries. -/

namespace Sys2Proof.Machine

/-- The PTP engine works: powered and enabled. -/
def pteOn (s : State) (d : Nat) : Bool := pageOn s (pPTE d) && pageEn s (pPTE d)

/-- An instance sends: enabled, the engine neither QUIET nor the instance PASSIVE (R258). -/
def instSends (s : State) (d n : Nat) : Bool :=
  pteOn s d && instOn s d n && pteForm s d != 3 && !(instRun s d n).passive

/-! ### Security entries (R272) -/

/-- The fields IDX and RW of a write of SA_CMD are stored. -/
def saFields (s : State) (d idx : Nat) (rw : Bool) : State :=
  putB (put s (pPTE d) fPTE_SA_CMD_IDX idx) (pPTE d) fPTE_SA_CMD_RW rw

/-- SA_READ (R272): a read returns SA_DATA only. -/
def execSaRead (r : Requester) (d : Fin 4) (idx : Fin 16) (s : State) : Host.Outcome State Fault Refusal :=
  .next (onWrite s r (pPTE d) fun s =>
    let e := (saEntry s d idx).1
    wrN (wrN (saFields s d idx false) (pPTE d) rPTE_SA_DATA0 (ix e 0 0)) (pPTE d) rPTE_SA_DATA1 (ix e 1 0))

/-- SA_WRITE (R272): a security entry takes SA_DATA and SA_KEY. -/
def execSaWrite (r : Requester) (d : Fin 4) (idx : Fin 16) (s : State) : Host.Outcome State Fault Refusal :=
  .next (onWrite s r (pPTE d) fun s =>
    let e := [rdN s (pPTE d) rPTE_SA_DATA0, rdN s (pPTE d) rPTE_SA_DATA1]
    let k := (List.range 8).flatMap fun j => put8 4 (rdN s (pPTE d) (rPTE_SA_KEY j))
    updPd (saFields s d idx true) d fun x =>
      { x with ptp := { x.ptp with sas := amSet idx.val (e, k) x.ptp.sas } })

/-! ### Reference ports: configuration (R266) -/

/-- A reference port is enabled: feature bit 1, and bit 3 for unicast reception. -/
def refOn (s : State) (d r : Nat) : Bool :=
  let p := pPTE d
  pteOn s d && flag s p (fPTE_RX_CFG_EN r) && feat s 1 && (!flag s p (fPTE_RX_CFG_UNI r) || feat s 3)

/-- The port of a reference. -/
def refPortNo (s : State) (d r : Nat) : Nat := get s (pPTE d) (fPTE_RX_CFG_PORT r)

/-- The profile of a reference. -/
def refProfile (s : State) (d r : Nat) : Nat := get s (pPTE d) (fPTE_RX_CFG_PROFILE r)

/-- A reference with the peer-to-peer delay mechanism. -/
def refP2p (s : State) (d r : Nat) : Bool := refProfile s d r == 1 || refProfile s d r == 4

/-- A reference of a port in a domain and majorSdoId. -/
def refFor (s : State) (d i sdo domain : Nat) : Option Nat :=
  [0, 1].find? fun r => refOn s d r && refPortNo s d r == i &&
    get s (pPTE d) (fPTE_RX_CFG_DOMAIN r) == domain && majorSdo (refProfile s d r) == sdo

/-- The security entry of a reference, none with AUTH = 0. -/
def refSa (s : State) (d r : Nat) : Option Nat :=
  if get s (pPTE d) (fPTE_RX_CFG_AUTH r) = 0 then none else some (get s (pPTE d) (fPTE_RX_CFG_SA r))

/-- What a reference port holds. -/
def refOf (s : State) (d r : Nat) : RefPort := ix (pd s d).ptp.refs r RefPort.cold

/-- Change a reference port. -/
def updRef (s : State) (d r : Nat) (f : RefPort → RefPort) : State :=
  updPd s d fun x => { x with ptp := { x.ptp with refs := upd x.ptp.refs r f } }

/-! ### Sessions (R263–R265) -/

/-- MONO in µs. -/
def monoUs (s : State) : Nat := mono s / 1000

/-- A type of a session is in force. -/
def grantLive (s : State) (e : Session) (g : Grant) : Bool := g.on && (e.static || decide (monoUs s < g.exp))

/-- Where a message to a session goes. -/
def toSession (s : State) (d n : Nat) (e : Session) : PtpTo :=
  let i := instPort n
  let l3 := if e.l2 then 0 else if e.v6 then 2 else 1
  { mac := e.mac, vid := e.vid, pcp := if e.vid = 0 then 0 else vlanPcp s d i e.vid, l3 := l3
    src := entryIp s d i (iAddr (instEntry s d n)) l3, dst := e.addr, peer := false }

/-- A TLV. -/
def tlv (ty : Nat) (body : List Byte) : List Byte := put8 2 ty ++ put8 2 body.length ++ body

/-- A Signaling message to a port identity with its TLVs. -/
def signalMsg (s : State) (d i : Nat) (as : Bool) (domain seq target : Nat) (tlvs : List Byte) : List Byte :=
  ptpMessage s d i 12 as domain (ptpFlags false true) 0 seq 0x7F (put8 10 target ++ tlvs)

/-- A Signaling message of an instance is launched untimed. -/
def sendSignal (s : State) (d n : Nat) (dest : PtpTo) (seq target : Nat) (tlvs : List Byte) : State :=
  let e := instEntry s d n
  let i := instPort n
  let m := signalMsg s d i (iAs e) (iDomain e) seq target tlvs
  untimed s d i (ptpFrame s d i dest (sealPtp s d (instSa e) m)) none

/-- The types of a session with their messageTypes (Announce, Sync, Delay_Resp). -/
def Session.types (e : Session) : List (Nat × Grant) := [(11, e.ann), (0, e.sync), (9, e.dresp)]

/-- A session with the grant of a messageType replaced. -/
def Session.setGrant (e : Session) (type : Nat) (g : Grant) : Session :=
  if type = 11 then { e with ann := g } else if type = 0 then { e with sync := g } else { e with dresp := g }

/-- The grant of a messageType. -/
def Session.grant (e : Session) (type : Nat) : Grant :=
  if type = 11 then e.ann else if type = 0 then e.sync else e.dresp

/-- No type of a session is granted. -/
def Session.idle (e : Session) : Bool := !e.ann.on && !e.sync.on && !e.dresp.on

/-- A session is stored again, or freed once no type of it is granted; a STATIC one stays (R265). -/
def keepSes (s : State) (d k : Nat) (e : Session) : State :=
  if e.idle && !e.static then freeSes s d k else putSes s d k e

/-- A CANCEL for each granted type of a session (R265). -/
def cancelTlvs (e : Session) : List Byte :=
  (e.types.filter fun t => t.2.on).flatMap fun t => tlv 6 (put8 1 (t.1 * 16) ++ put8 1 0)

/-- An instance stops: its sessions draw their CANCELs and are freed; STATIC entries stay (R265). -/
def instStop (s : State) (d n : Nat) : State :=
  let held := (pd s d).ses.filter fun e =>
    4 * e.2.port + e.2.slot == n && !e.2.static && !(pd s d).sesBad.contains e.1
  held.foldl (fun s e =>
    let s1 := if e.2.idle || !pageEn s (pTBL d) then s
      else sendSignal s d n (toSession s d n e.2) e.2.seqSig e.2.pid (cancelTlvs e.2)
    freeSes s1 d e.1) s

/-- SESSION_EXPIRE (R265): MONO passes the first expiry of a session. -/
def execSessionExpire (d : Fin 4) (k : Fin 4096) (s : State) : Host.Outcome State Fault Refusal :=
  match amGet? k.val (pd s d).ses with
  | none => .next s
  | some e =>
    let due := (e.types.filter fun t => t.2.on).map fun t => t.2.exp
    match e.static, due.min? with
    | false, some t =>
      let s1 := advMono s ((t + 1) * 1000)
      let gone := e.types.filter fun t => t.2.on && decide (t.2.exp < monoUs s1)
      let e' := gone.foldl (fun e t => e.setGrant t.1 { t.2 with on := false }) e
      .next (keepSes (bumpBy s1 (pTBL d) rTBL_SES_EXPIRE_CNT gone.length) d k e')
    | _, _ => .next s

/-! ### Instances (R248, R249) -/

/-- The transports of a profile (Table 12-1). -/
def transportOk (profile l3 : Nat) : Bool :=
  if profile < 2 then decide (l3 < 3) else if profile = 2 then l3 == 1 || l3 == 2
  else if profile = 3 then l3 == 1 else l3 == 0

/-- An address entry of a port is valid, serves PTP and is of the transport's IP version (R249 code 6). -/
def addrForPtp (s : State) (d i k l3 : Nat) : Bool :=
  let w := ix (addrEntry s d (16 * i + k)) 4 0
  bitOf w 31 && bitOf w 18 && bitOf w 4 == (l3 == 2)

/-- R249: why an entry that sets EN is refused for instance `n`; 0 where it is stored. -/
def instWhy (s : State) (d n : Nat) (e : InstEntry) : Nat :=
  let i := instPort n
  let others := ((List.range 4).map fun k => 4 * i + k).filter fun m => m != n && instOn s d m
  let sdo := majorSdo (iProfile e)
  if clockId s d = 0 then 1
  else if 5 ≤ iProfile e ∨ (iProfile e = 4 ∧ feat s 4 = false) ∨ feat s 1 = false then 2
  else if !transportOk (iProfile e) (iTransport e) then 3
  else if (others.any fun m => iDomain (instEntry s d m) == iDomain e &&
      majorSdo (iProfile (instEntry s d m)) == sdo) || (refFor s d i sdo (iDomain e)).isSome then 4
  else if iAs e && others.any fun m => iAs (instEntry s d m) then 5
  else if iTransport e ≠ 0 ∧ addrForPtp s d i (iAddr e) (iTransport e) = false then 6
  else if iAuth e ≠ 0 ∧ (feat s 12 = false ∨ saOk s d (iSa e) = false) then 7
  else 0

/-- The doubt PTP_FOREIGN: an instance without YIELD sees a qualified better master (R262). -/
def foreignDoubt (s : State) (d : Nat) : State :=
  doubt s (pPTE d) 0 ((List.range 32).any fun n =>
    instOn s d n && (instRun s d n).better && entryBits (instEntry s d n) 0 9 1 == 0)

/-- The fields IDX and RW of a write of INST_CMD are stored. -/
def instFields (s : State) (d idx : Nat) (rw : Bool) : State :=
  putB (put s (pPTE d) fPTE_INST_CMD_IDX idx) (pPTE d) fPTE_INST_CMD_RW rw

/-- INST_READ (R249): an instance entry is read into INST_DATA. -/
def execInstRead (r : Requester) (d : Fin 4) (n : Fin 32) (s : State) : Host.Outcome State Fault Refusal :=
  .next (onWrite s r (pPTE d) fun s =>
    let e := instEntry s d n
    (List.range 4).foldl (fun s k => wrN s (pPTE d) (rPTE_INST_DATA k) (ix e k 0)) (instFields s d n false))

/-- An entry is stored: a running instance stops, and begins again where EN is set. -/
def storeInst (s : State) (d n : Nat) (e : InstEntry) : State :=
  let s1 := if instOn s d n then instStop s d n else s
  let s2 := updPd s1 d fun x => { x with ptp := { x.ptp with
    insts := amSet n e x.ptp.insts, run := amErase n x.ptp.run } }
  foreignDoubt (showForms (showAscap s2 d) d) d

/-- INST_WRITE (R249): an instance entry is stored from INST_DATA, or refused with its code. -/
def execInstWrite (r : Requester) (d : Fin 4) (n : Fin 32) (s : State) :
    Host.Outcome State Fault Refusal :=
  .next (onWrite s r (pPTE d) fun s =>
    let e := (List.range 4).map fun k => rdN s (pPTE d) (rPTE_INST_DATA k)
    let why := if ix e 0 0 % 2 = 1 then instWhy s d n e else 0
    let s1 := put (instFields s d n true) (pPTE d) fPTE_INST_CMD_ERR why
    if why = 0 then storeInst s1 d n e else s1)

/-! ### Due messages (R253, R254) -/

/-- 2^log s in 2⁻¹⁶ ns. -/
def logSec (log : Int) : Nat := if 0 ≤ log then secU * 2 ^ log.toNat else secU / 2 ^ (-log).toNat

/-- The first instant of a grid of T96 at or after `t`. -/
def gridNext (t : Nat) (log : Int) (ofs : Nat) : Nat :=
  let g := logSec log
  if t ≤ ofs then ofs else (t - ofs + g - 1) / g * g + ofs

/-- The first instant of a grid at or after `t`, other than the one served last. -/
def gridDue (t : Nat) (log : Int) (ofs last : Nat) : Nat :=
  let a := gridNext t log ofs
  if a = last then gridNext (a + 1) log ofs else a

/-- A session that an instance serves now. -/
def servedSes (s : State) (d n k : Nat) : State × Option Session :=
  if !pageEn s (pTBL d) then (s, none)
  else
    let r := useSes s d k
    (r.1, r.2.bind fun e => if 4 * e.port + e.slot = n then some e else none)

/-- An instance may send Sync and Announce: under 802.1AS only while asCapable (R256). -/
def instServes (s : State) (d n : Nat) : Bool :=
  instSends s d n && (!iAs (instEntry s d n) || asCapable s d (instPort n))

/-- A PTP message is booked and built (R183, R257). On refusal it is counted. -/
def bookPtp (s : State) (d i grid e : Nat) (m : PtpMsg) : State × Bool :=
  let r := book s d i (nowP s d) e grid false (.ptp m) (ptpLen s d i m) (get s (pPTE d) fPTE_LEAD_NS * 65536)
  match r.2 with
  | some b => (fillBook r.1 d i b, true)
  | none => (bump r.1 (pPTE d) rPTE_BOOK_REJ_CNT, false)

/-- PTE.LEAD in 2⁻¹⁶ ns. -/
def pteLead (s : State) (d : Nat) : Nat := get s (pPTE d) fPTE_LEAD_NS * 65536

/-- The phase count of the die for a T96 on the scale in force. -/
def pOfT96 (s : State) (t : Nat) : Nat := ((t : Int) - s.clk.tOfs).toNat

/-- A multicast Sync of an instance is booked for its due instant (R253). -/
def syncDue (s : State) (d n grid : Nat) : State :=
  let e := instEntry s d n
  let v := instRun s d n
  let due := gridDue (t96 s + pteLead s d) (iLog e 0) (n * 500 * 65536) v.lastSync
  let s1 := advT96 s (due - pteLead s d)
  let m := syncMsg s1 d n v.seqSync (iLog e 0) false
    (toGroup s1 d (instPort n) (iAddr e) (iTransport e) (iAs e) false)
  let r := bookPtp s1 d (instPort n) grid (pOfT96 s1 due) m
  updInst r.1 d n fun v =>
    { v with lastSync := due, seqSync := if r.2 then (v.seqSync + 1) % 65536 else v.seqSync }

/-- A session's Sync is booked for its due instant. -/
def sesSyncDue (s : State) (d n k grid : Nat) (e : Session) : State :=
  let ofs := k * 64 * 65536
  let last := t96At s (pOf s d (BitVec.ofNat 64 e.nextSync))
  let a := gridNext (t96 s + pteLead s d) e.sync.log ofs
  let due := if a < last ∧ last ≤ a + logSec e.sync.log then last else a
  let s1 := advT96 s (due - pteLead s d)
  let m := syncMsg s1 d n e.seqSync e.sync.log true (toSession s1 d n e)
  let r := bookPtp s1 d (instPort n) grid (pOfT96 s1 due) m
  let next := pOfT96 s1 (gridNext (due + 1) e.sync.log ofs)
  putSes r.1 d k { e with
    nextSync := next % 2 ^ 64, seqSync := if r.2 then (e.seqSync + 1) % 65536 else e.seqSync }

/-- PTP_SYNC_DUE (R253): a Sync of an instance, or of one of its sessions, falls due and is booked. -/
def execPtpSyncDue (d : Fin 4) (n : Fin 32) (ses : Option (Fin 4096)) (grid : Nat) (s : State) :
    Host.Outcome State Fault Refusal :=
  if !instServes s d n then .next s
  else match ses with
    | none =>
      .next (if entryBits (instEntry s d n) 0 7 1 = 1 then syncDue s d n grid else s)
    | some k =>
      let r := servedSes s d n k
      match r.2 with
      | some e => .next (if grantLive r.1 e e.sync then sesSyncDue r.1 d n k grid e else r.1)
      | none => .next r.1

/-- An Announce is built and launched untimed. -/
def sendAnnounce (s : State) (d n seq : Nat) (log : Int) (uni : Bool) (dest : PtpTo) : State :=
  let e := instEntry s d n
  let i := instPort n
  let m := announceMsg s d n seq log uni (nowP s d)
  untimed s d i (ptpFrame s d i dest (sealPtp s d (instSa e) m)) none

/-- The Announce offset: that of Sync raised by 100 µs. -/
abbrev annRaise : Nat := 100000 * 65536

/-- PTP_ANNOUNCE_DUE (R253): an Announce of an instance or a session falls due. -/
def execPtpAnnounceDue (d : Fin 4) (n : Fin 32) (ses : Option (Fin 4096)) (s : State) :
    Host.Outcome State Fault Refusal :=
  if !instServes s d n then .next s
  else
    let e := instEntry s d n
    match ses with
    | none =>
      if entryBits e 0 7 1 = 0 then .next s
      else
        let v := instRun s d n
        let due := gridDue (t96 s) (iLog e 1) (n * 500 * 65536 + annRaise) v.lastAnn
        let s1 := sendAnnounce (advT96 s due) d n v.seqAnn (iLog e 1) false
          (toGroup s d (instPort n) (iAddr e) (iTransport e) (iAs e) false)
        .next (updInst s1 d n fun v => { v with lastAnn := due, seqAnn := (v.seqAnn + 1) % 65536 })
    | some k =>
      let r := servedSes s d n k
      match r.2 with
      | none => .next r.1
      | some g =>
        if !grantLive r.1 g g.ann then .next r.1
        else
          let ofs := k.val * 64 * 65536 + annRaise
          let last := t96At r.1 (pOf r.1 d (BitVec.ofNat 64 g.nextAnn))
          let a := gridNext (t96 r.1) g.ann.log ofs
          let due := if a < last ∧ last ≤ a + logSec g.ann.log then last else a
          let s1 := sendAnnounce (advT96 r.1 due) d n g.seqAnn g.ann.log true (toSession r.1 d n g)
          .next (putSes s1 d k { g with
            nextAnn := pOfT96 s1 (gridNext (due + 1) g.ann.log ofs) % 2 ^ 64
            seqAnn := (g.seqAnn + 1) % 65536 })

/-! ### Foreign masters (R262) -/

/-- One dataset is better than another: the first field that differs is lower. -/
def betterData : List Nat → List Nat → Bool
  | a :: s, b :: t => if a = b then betterData s t else decide (a < b)
  | _, _ => false

/-- The announce interval of a foreign master in ns. -/
def Foreign.interval (f : Foreign) : Nat := logSec f.log / 65536

/-- An Announce of a master joins those heard; a second one within four of its intervals qualifies it. -/
def hear (l : List Foreign) (f : Foreign) : List Foreign :=
  match l.find? fun x => x.pid == f.pid with
  | none => l ++ [f]
  | some o =>
    let ok := decide (f.last ≤ o.last + 4 * f.interval)
    l.map fun x => if x.pid = f.pid then { f with qual := ok } else x

/-- A foreign master is qualified and has been heard within `k` of its intervals. -/
def Foreign.live (f : Foreign) (k now : Nat) : Bool := f.qual && decide (now < f.last + k * f.interval)

/-- An instance judges the masters it hears (R262). -/
def judgeForeign (s : State) (d n : Nat) : State :=
  let e := instEntry s d n
  let v := instRun s d n
  let own := ownData s d n
  let k := iAnnTimeout e
  let now := mono s
  let best := v.foreign.filter fun f => f.live k now && betterData f.data own
  let yes := !best.isEmpty
  let yield := entryBits e 0 9 1 == 1
  let rose := yes && !v.better
  let til := best.foldl (fun t f => max t (f.last + k * f.interval)) v.until'
  let s1 := if rose then raise (bump s (pPTE d) rPTE_FOREIGN_CNT) (pPTE d) 0 else s
  let s2 := raiseIf s1 (yes && yield && !v.passive) (pPTE d) 1
  let s3 := updInst s2 d n fun v =>
    { v with better := yes, until' := til, passive := v.passive || (yes && yield) }
  showForms (foreignDoubt s3 d) d

/-- FOREIGN_TIMEOUT (R262): no better master has been heard for ANN_TIMEOUT of its intervals. -/
def execForeignTimeout (d : Fin 4) (n : Fin 32) (s : State) : Host.Outcome State Fault Refusal :=
  let v := instRun s d n
  if instOn s d n && (v.better || v.passive) then
    let s1 := advMono s v.until'
    let k := iAnnTimeout (instEntry s d n)
    let now := mono s1
    let s2 := updInst s1 d n fun v =>
      { v with passive := false, better := false
               foreign := v.foreign.filter fun f => decide (now < f.last + k * f.interval) }
    .next (judgeForeign s2 d n)
  else .next s

/-! ### Peer delay (R256) -/

/-- What runs the initiator of a port: a P2P or 802.1AS instance, a reference with that mechanism, or a P2P
bridge pair in domain 0; as (802.1AS, domain, where to, security entry). -/
def initiator (s : State) (d i : Nat) : Option (Bool × Nat × PtpTo × Option Nat) :=
  let inst := ((List.range 4).map fun k => 4 * i + k).find? fun n =>
    instOn s d n && iP2p (instEntry s d n)
  let ref := [0, 1].find? fun r => refOn s d r && refPortNo s d r == i && refP2p s d r
  let pair := (List.range 4).find? fun n =>
    bitOf (get s (pPTE d) fPTE_BR_STAT_ON) n && flag s (pPTE d) (fPTE_BR_CFG_TC_MODE n) &&
      (get s (pPTE d) (fPTE_BR_CFG_PORT_A n) == 8 * d + i || get s (pPTE d) (fPTE_BR_CFG_PORT_B n) == 8 * d + i)
  match inst, ref, pair with
  | some n, _, _ =>
    let e := instEntry s d n
    some (iAs e, iDomain e, toGroup s d i (iAddr e) (iTransport e) (iAs e) true, instSa e)
  | none, some r, _ =>
    let as := refProfile s d r == 4
    some (as, get s (pPTE d) (fPTE_RX_CFG_DOMAIN r), toGroup s d i (get s (pPTE d) (fPTE_RX_CFG_ADDR r))
      (get s (pPTE d) (fPTE_RX_CFG_TRANSPORT r)) as true, refSa s d r)
  | none, none, some _ =>
    some (false, 0, { mac := 0x0180C200000E, vid := 0, pcp := 0, l3 := 0, src := 0, dst := 0, peer := true }, none)
  | none, none, none => none

/-- PDELAY_REQ_DUE (R256): the initiator of a port sends its next Pdelay_Req, booked with E = now + LEAD. -/
def execPdelayReqDue (d : Fin 4) (i : Fin 8) (grid : Nat) (s : State) : Host.Outcome State Fault Refusal :=
  if !pteOn s d || pteForm s d == 3 then .next s
  else match initiator s d i with
    | none => .next s
    | some (as, domain, dest, sa) =>
      let m := requestMsg s d i 2 as domain (pdelayOf s d i).seq false dest sa none
      let r := bookPtp s d i grid (nowP s d + pteLead s d) m
      .next (if r.2 then updPdelay r.1 d i fun p => { p with seq := (p.seq + 1) % 65536 } else r.1)

/-- PTE.PDLY shows the mean link delay in ps. -/
def showPdly (s : State) (d i : Nat) : State :=
  match (pdelayOf s d i).d with
  | none => s
  | some m =>
    let s1 := put s (pPTE d) (fPTE_PDLY_PS i) (min (2 ^ 31 - 1) (m * 125 / 8192).toNat)
    showAscap (putB s1 (pPTE d) (fPTE_PDLY_VALID i) true) d

/-- A matched exchange gives a link delay (R256). -/
def loadPdelay (s : State) (d i : Nat) (delay : Int) : State :=
  showPdly (updPdelay s d i fun p =>
    { p with d := some (match p.d with
        | none => delay
        | some m => m + (delay - m) / 8)
             lost := 0 }) d i

/-- PDELAY_LOST (R256): the oldest request in flight is 1 s old; with no match, or more than one response, it
is lost, and three lost in a row clear PDLYi.VALID. -/
def execPdelayLost (d : Fin 4) (i : Fin 8) (s : State) : Host.Outcome State Fault Refusal :=
  match (pdelayOf s d i).reqs with
  | [] => .next s
  | r :: t =>
    let s1 := advMono s (r.at' + 1000000000)
    let lost := if r.got = 1 ∧ r.resp.isNone then 0 else (pdelayOf s d i).lost + 1
    let s2 := updPdelay s1 d i fun p =>
      { p with reqs := t, lost := if r.got = 1 ∧ r.resp.isNone then p.lost else lost }
    .next (if 3 ≤ lost then dropPdelay s2 d i else s2)

/-- PTP_AUTH_END (R273): PTP_AUTH falls 1 s after the last dropped message. -/
def execPtpAuthEnd (d : Fin 4) (s : State) : Host.Outcome State Fault Refusal :=
  if doubts s (pPTE d) 1 then
    .next (doubt (advMono s ((pd s d).ptp.authAt + 1000000000)) (pPTE d) 1 false)
  else .next s

/-! ### Reference ports (R267–R269) -/

/-- RXx_STAT.STATE takes a value; a change sets INT_RAW[2] or [3]. -/
def refState (s : State) (d r st : Nat) : State :=
  if get s (pPTE d) (fPTE_RX_STAT_STATE r) = st then s
  else raise (put s (pPTE d) (fPTE_RX_STAT_STATE r) st) (pPTE d) (2 + r)

/-- The loss marker that places the slot LOST at the next update (R267). -/
def lossMark (s : State) (r : Nat) : State := updSlot s (3 + r) fun x => { x with gone := true }

/-- The master a reference would follow: the best qualified one with ptpTimescale = 1 and a clockClass of at
most MAX_CLASS. -/
def bestMaster (s : State) (d r : Nat) : Option Foreign :=
  let now := mono s
  let top := get s (pPTE d) (fPTE_RX_UNI_MAX_CLASS r)
  let ok := (refOf s d r).masters.filter fun f =>
    f.live 3 now && bitOf f.utc 19 && decide (ix f.data 1 0 ≤ top)
  ok.foldl (fun b f => match b with
    | none => some f
    | some x => if betterData f.data x.data then some f else b) none

/-- The followed master is shown in RXx_MASTER and RXx_UTC. -/
def showMaster (s : State) (d r : Nat) (f : Foreign) : State :=
  let p := pPTE d
  let s1 := wrN (wrN s p (rPTE_RX_MASTER_LO r) (f.pid / 0x10000)) p (rPTE_RX_MASTER_HI r) (f.pid / 2 ^ 48)
  let s2 := put (put s1 p (fPTE_RX_MASTER_Q_PORT r) f.pid) p (fPTE_RX_MASTER_Q_CLASS r) (ix f.data 1 0)
  wrN (put s2 p (fPTE_RX_MASTER_Q_ACC r) (ix f.data 2 0)) p (rPTE_RX_UTC r) f.utc

/-- A reference chooses its master again; a loss or a change sends the loss marker (R267). -/
def refFollow (s : State) (d r : Nat) : State :=
  let old := (refOf s d r).follow
  match bestMaster s d r with
  | some f =>
    if old = some f.pid then showMaster s d r f
    else
      let s1 := updRef s d r fun x => { x with follow := some f.pid, wait := none, sync := none, dreq := none }
      let s2 := if old.isSome then raise (lossMark s1 r) (pPTE d) (2 + r) else s1
      refState (showMaster s2 d r f) d r 2
  | none =>
    if old.isSome then
      let s1 := updRef s d r fun x => { x with follow := none, wait := none, sync := none, dreq := none }
      refState (lossMark s1 r) d r 3
    else s

/-- An enable or disable of a reference (Table 12-10): LISTENING, or DISABLED with the loss marker. -/
def rxCfgWritten (s : State) (d r : Nat) : State :=
  let old := get s (pPTE d) (fPTE_RX_STAT_STATE r)
  if refOn s d r then
    if old = 0 then refState (updRef s d r fun _ => RefPort.cold) d r 1 else s
  else if old = 0 then s
  else
    let s1 := put (updRef s d r fun _ => RefPort.cold) (pPTE d) (fPTE_RX_STAT_GRANTED r) 0
    refState (lossMark s1 r) d r 0

/-- RX_MASTER_LOSS (R267): the followed master's Announce has stopped for 3 of its intervals. -/
def execRxMasterLoss (d : Fin 4) (r : Fin 2) (s : State) : Host.Outcome State Fault Refusal :=
  let x := refOf s d r
  match x.masters.find? fun f => x.follow == some f.pid with
  | none => .next s
  | some f =>
    let s1 := advMono s (f.last + 3 * f.interval)
    let now := mono s1
    .next (refFollow (updRef s1 d r fun x =>
      { x with masters := x.masters.filter fun f => decide (now < f.last + 3 * f.interval) }) d r)

/-- Where a reference sends to: the group of its transport, or its master's address. -/
def refTo (s : State) (d r : Nat) (mac ip : Nat) : PtpTo :=
  let p := pPTE d
  let i := refPortNo s d r
  let l3 := get s p (fPTE_RX_CFG_TRANSPORT r)
  let k := get s p (fPTE_RX_CFG_ADDR r)
  let as := refProfile s d r == 4
  if flag s p (fPTE_RX_CFG_UNI r) then
    let t := entryTag s d i k
    { mac := mac, vid := t.1, pcp := t.2, l3 := l3, src := entryIp s d i k l3, dst := ip, peer := false }
  else toGroup s d i k l3 as false

/-- RX_DELAY_REQ_DUE (R268): a reference port sends its next Delay_Req, booked with E = now + LEAD. -/
def execRxDelayReqDue (d : Fin 4) (r : Fin 2) (grid : Nat) (s : State) :
    Host.Outcome State Fault Refusal :=
  let x := refOf s d r
  match x.masters.find? fun f => x.follow == some f.pid with
  | none => .next s
  | some f =>
    if !refOn s d r || refP2p s d r then .next s
    else
      let p := pPTE d
      let uni := flag s p (fPTE_RX_CFG_UNI r)
      let m := requestMsg s d (refPortNo s d r) 1 false (get s p (fPTE_RX_CFG_DOMAIN r)) x.seqReq uni
        (refTo s d r f.mac f.ip) (refSa s d r) (some r)
      let b := bookPtp s d (refPortNo s d r) grid (nowP s d + pteLead s d) m
      .next (if b.2 then updRef b.1 d r fun x => { x with seqReq := (x.seqReq + 1) % 65536 } else b.1)

/-- The IP address in RXx_MADDR. -/
def refMaddr (s : State) (d r : Nat) : Nat :=
  let p := pPTE d
  wordsIp (get s p (fPTE_RX_CFG_TRANSPORT r) == 2)
    [rdN s p (rPTE_RX_MADDR0 r), rdN s p (rPTE_RX_MADDR1 r), rdN s p (rPTE_RX_MADDR2 r),
      rdN s p (rPTE_RX_MADDR3 r), 0]

/-- The messageType of the grants 0 to 2 of a reference. -/
def refType (k : Nat) : Nat := if k = 0 then 11 else if k = 1 then 0 else 9

/-- The requested interval of a grant. -/
def refLog (s : State) (d r k : Nat) : Nat :=
  get s (pPTE d) (if k = 0 then fPTE_RX_UNI_LOG_ANN r else if k = 1 then fPTE_RX_UNI_LOG_SYNC r
    else fPTE_RX_UNI_LOG_DRESP r)

/-- RX_UNI_RENEW (R268): a reference port requests a grant, renews it at half its duration, or repeats a
denied request after 8 s. `mac` is the address at which the master is reached (log entry 16). -/
def execRxUniRenew (d : Fin 4) (r : Fin 2) (k : Fin 3) (mac : Nat) (s : State) :
    Host.Outcome State Fault Refusal :=
  let p := pPTE d
  if !refOn s d r || !flag s p (fPTE_RX_CFG_UNI r) || (k == 2 && refP2p s d r) then .next s
  else
    let s1 := match ix (refOf s d r).grants k none with
      | none => s
      | some (t, dur) => advMono s (if dur = 0 then t + 8000000000 else t + dur / 2)
    let i := refPortNo s1 d r
    let req := tlv 4 (put8 1 (refType k * 16) ++ put8 1 (refLog s1 d r k) ++
      put8 4 (orD (get s1 p (fPTE_RX_DURATION_SEC r)) 1))
    let m := signalMsg s1 d i (refProfile s1 d r == 4) (get s1 p (fPTE_RX_CFG_DOMAIN r))
      (refOf s1 d r).seqSig (2 ^ 80 - 1) req
    let s2 := untimed s1 d i (ptpFrame s1 d i (refTo s1 d r mac (refMaddr s1 d r))
      (sealPtp s1 d (refSa s1 d r) m)) none
    .next (updRef s2 d r fun x => { x with seqSig := (x.seqSig + 1) % 65536 })

/-! ### Bridge pairs (R270) -/

/-- MODE_MISMATCH of every pair that is on. -/
def showBridges (s : State) (d : Nat) : State :=
  let p := pPTE d
  let v := (List.range 4).foldl (fun v n =>
    setBit v n (bitOf (get s p fPTE_BR_STAT_ON) n &&
      portMode s d (get s p (fPTE_BR_CFG_PORT_A n) % 8) != portMode s d (get s p (fPTE_BR_CFG_PORT_B n) % 8))) 0
  put s p fPTE_BR_STAT_MODE_MISMATCH v

/-- The pairs of the device that are on. -/
def pairsOn (s : State) : Nat :=
  (List.range 4).foldl (fun n d => n + ((List.range 4).filter fun k =>
    bitOf (get s (pPTE d) fPTE_BR_STAT_ON) k).length) 0

/-- A device port is of an enabled pair of the die other than `n`. -/
def inOtherPair (s : State) (d n port : Nat) : Bool :=
  (List.range 4).any fun k => k != n && bitOf (get s (pPTE d) fPTE_BR_STAT_ON) k &&
    (get s (pPTE d) (fPTE_BR_CFG_PORT_A k) == port || get s (pPTE d) (fPTE_BR_CFG_PORT_B k) == port)

/-- R270: an enable is refused. -/
def bridgeRefused (s : State) (d n a b : Nat) : Bool :=
  a / 8 != d || b / 8 != d || a == b || inOtherPair s d n a || inOtherPair s d n b || !feat s 16 ||
    decide (8 ≤ pairsOn s)

/-- The mask of the fields of BR_CFG. -/
abbrev brMask : Nat := 0xF1FFF

/-- BR_ENABLE (R270): a write of PTE.BR_CFGn. An enable is accepted or refused; a write with EN = 0 ends the
pair. -/
def execBrEnable (r : Requester) (d : Fin 4) (n : Fin 4) (v : Word) (s : State) :
    Host.Outcome State Fault Refusal :=
  .next (onWrite s r (pPTE d) fun s =>
    let p := pPTE d
    if pageLocked s p then lockViol s p
    else
      let w := v.toNat &&& brMask
      let s0 := put s p fPTE_BR_STAT_ON (setBit (get s p fPTE_BR_STAT_ON) n false)
      let bad := w % 2 = 1 && bridgeRefused s0 d n (w / 2 % 32) (w / 64 % 32)
      let on := w % 2 = 1 && !bad
      let s1 := wrN s0 p (rPTE_BR_CFG n) w
      let s2 := put s1 p fPTE_BR_STAT_ON (setBit (get s1 p fPTE_BR_STAT_ON) n on)
      let s3 := put s2 p fPTE_BR_STAT_REFUSED (setBit (get s2 p fPTE_BR_STAT_REFUSED) n bad)
      showBridges (raiseIf s3 bad p 6) d)

end Sys2Proof.Machine
end

