-- ==== Sys2Proof/Machine/PtpRx.lean ====
section
/-! DEFINITION. What the PTP engine does with a received message (R251, R255, R256, R262–R274). -/

namespace Sys2Proof.Machine

/-- A received PTP message: the frame's head, IP head, the offset of the PTP header in the frame, the
message, its stamp, and whether the stamp carries UNCAL. -/
structure PtpIn where
  frame : List Byte
  eth : Eth
  ip : Option IpHead
  off : Nat
  m : List Byte
  stamp : PC64
  uncal : Bool
  deriving DecidableEq, Repr

/-- What becomes of a message beside its effect on the engine: nothing more, or the slow path. -/
inductive PtpFate where
  | done | slow
  deriving DecidableEq, Repr

/-- messageType. -/
def PtpIn.type (x : PtpIn) : Nat := u8 x.m 0 % 16
/-- majorSdoId. -/
def PtpIn.sdo (x : PtpIn) : Nat := u8 x.m 0 / 16
/-- domainNumber. -/
def PtpIn.domain (x : PtpIn) : Nat := u8 x.m 4
/-- sequenceId. -/
def PtpIn.seq (x : PtpIn) : Nat := be x.m 30 2
/-- sourcePortIdentity. -/
def PtpIn.pid (x : PtpIn) : Nat := be x.m 20 10
/-- correctionField as it stands. -/
def PtpIn.cf (x : PtpIn) : Nat := be x.m 8 8
/-- twoStepFlag. -/
def PtpIn.two (x : PtpIn) : Bool := bitOf (u8 x.m 6) 1
/-- The timestamp of the body, in 2⁻¹⁶ ns. -/
def PtpIn.time (x : PtpIn) : Int := t96Of (be x.m 34 6) (be x.m 40 4) 0
/-- The message came to a unicast address. -/
def PtpIn.uni (x : PtpIn) : Bool :=
  match x.ip with
  | none => !macGroup x.eth.dst
  | some h => !ipGroup h.v6 h.dst
/-- The transport of the message. -/
def PtpIn.l3 (x : PtpIn) : Nat :=
  match x.ip with
  | none => 0
  | some h => if h.v6 then 2 else 1

/-- The least length of a message of a type, none for a type that IEEE 1588 does not define. -/
def ptpMinLen (type : Nat) : Option Nat :=
  if type = 0 ∨ type = 1 ∨ type = 8 then some 44
  else if type = 2 ∨ type = 3 ∨ type = 9 ∨ type = 10 then some 54
  else if type = 11 then some 64
  else if type = 12 then some 44
  else if type = 13 then some 48
  else none

/-- The message of a frame, with the PTP header at `off`. -/
def ptpIn (frame : List Byte) (off : Nat) (stamp : PC64) (uncal : Bool) : PtpIn :=
  { frame := frame, eth := ethOf frame, ip := ipOf frame (ethOf frame), off := off
    m := slice frame off (be frame (off + 2) 2), stamp := stamp, uncal := uncal }

/-- The form of a message (R251): version 2, and messageLength at least the minimum of its type and no larger
than the frame. -/
def PtpIn.good (x : PtpIn) : Bool :=
  u8 x.frame (x.off + 1) % 16 == 2 && decide (x.off + be x.frame (x.off + 2) 2 ≤ x.frame.length) &&
    (ptpMinLen x.type).any fun n => decide (n ≤ be x.frame (x.off + 2) 2)

/-- The destination of a message is one the port takes PTP on (R251). -/
def ptpDest (s : State) (d i : Nat) (x : PtpIn) : Bool :=
  match x.ip with
  | none => true
  | some h =>
    served s d i h.v6 h.dst x.eth.vid 2 || (ptpGroup s d x.l3 false).2 == h.dst ||
      (ptpGroup s d x.l3 true).2 == h.dst

/-- The enabled instance of the port that takes a message: its domain, majorSdoId and VLAN match. -/
def ptpInst (s : State) (d i : Nat) (x : PtpIn) : Option Nat :=
  ((List.range 4).map fun k => 4 * i + k).find? fun n =>
    let e := instEntry s d n
    instOn s d n && iDomain e == x.domain && majorSdo (iProfile e) == x.sdo &&
      (entryTag s d i (iAddr e)).1 == x.eth.vid

/-- Drop and count in PTE.BAD_CNT. -/
def ptpBad (s : State) (d : Nat) : State := bump s (pPTE d) rPTE_BAD_CNT

/-! ### Authentication (R273) -/

/-- The security entry of a message's TLV, by keyID and SPP. -/
def tlvEntry (s : State) (d : Nat) (m : List Byte) : Option (List Nat × List Byte) :=
  let o := m.length - 26
  ((List.range 16).find? fun k => saOk s d k && ix (saEntry s d k).1 0 0 == be m (o + 6) 4 &&
    ix (saEntry s d k).1 1 0 % 256 == u8 m (o + 4)).map fun k => saEntry s d k

/-- A message that a REQUIRE instance or reference drops raises PTP_AUTH for 1 s. -/
def authDrop (s : State) (d auth : Nat) : State :=
  let m := mono s
  if auth < 2 then s
  else doubt (updPd s d fun x => { x with ptp := { x.ptp with authAt := m } }) (pPTE d) 1 true

/-- A failed verification: AUTH_FAIL_CNT and INT_RAW[5]. -/
def authFail (s : State) (d : Nat) : State := raise (bump s (pPTE d) rPTE_AUTH_FAIL_CNT) (pPTE d) 5

/-- A message is judged under AUTH; the answer says that it is accepted. -/
def authJudge (s : State) (d auth : Nat) (m : List Byte) : State × Bool :=
  if auth = 0 then (s, true)
  else if hasTlv m then
    if (tlvEntry s d m).any fun e => tlvOk e m then (s, true) else (authDrop (authFail s d) d auth, false)
  else if auth = 1 then (s, true)
  else (authDrop (bump s (pPTE d) rPTE_AUTH_MISS_CNT) d auth, false)

/-! ### Answers to a partner -/

/-- Where an answer to a message's sender goes. -/
def toPartner (s : State) (d i n : Nat) (x : PtpIn) : PtpTo :=
  let e := instEntry s d n
  match x.ip with
  | none => { mac := x.eth.src, vid := x.eth.vid, pcp := vlanPcp s d i x.eth.vid, l3 := 0
              src := 0, dst := 0, peer := false }
  | some h =>
    { mac := x.eth.src, vid := x.eth.vid, pcp := vlanPcp s d i x.eth.vid, l3 := x.l3
      src := if ipGroup h.v6 h.dst then entryIp s d i (iAddr e) x.l3 else h.dst
      dst := h.src, peer := false }

/-- The address that keys a partner's session: its MAC on L2, its IP address on UDP. -/
def PtpIn.addr (x : PtpIn) : Nat :=
  match x.ip with
  | none => x.eth.src
  | some h => h.src

/-- The session of a message's sender with an instance, where the table serves sessions. -/
def partnerSes (s : State) (d n : Nat) (x : PtpIn) : State × Option (Nat × Session) :=
  if !pageEn s (pTBL d) then (s, none)
  else match sesFind s d (instPort n) (n % 4) x.ip.isNone (x.l3 == 2) x.addr with
    | none => (s, none)
    | some k =>
      let r := useSes s d k
      (r.1, r.2.map fun e => (k, e))

/-- A Delay_Resp (Table 12-5). -/
def delayResp (s : State) (d n : Nat) (x : PtpIn) (uni : Bool) : List Byte :=
  let e := instEntry s d n
  let t4 := t96At s (pOf s d x.stamp)
  ptpMessage s d (instPort n) 9 (iAs e) (iDomain e) (ptpFlags false uni)
    (signed 64 x.cf - t96Frac t4) x.seq (if uni then 0x7F else iLog e 2)
    (ptpStamp t4 ++ put8 10 x.pid)

/-- A Delay_Req taken by an E2E instance is answered (R255). -/
def answerDelayReq (s : State) (d i n : Nat) (x : PtpIn) : State :=
  let e := instEntry s d n
  let send (s : State) (dest : PtpTo) (uni : Bool) : State :=
    untimed (bump s (pPTE d) rPTE_DRESP_CNT) d i
      (ptpFrame s d i dest (sealPtp s d (instSa e) (delayResp s d n x uni))) none
  if !instSends s d n then s
  else if !x.uni then send s (toGroup s d i (iAddr e) (iTransport e) (iAs e) false) false
  else
    let r := partnerSes s d n x
    match r.2 with
    | none => bump r.1 (pPTE d) rPTE_NOGRANT_CNT
    | some (k, g) =>
      if g.static || grantLive r.1 g g.dresp then
        send (putSes r.1 d k { g with sent := min 0xFFFFFFFF (g.sent + 1) }) (toPartner s d i n x) true
      else bump r.1 (pPTE d) rPTE_NOGRANT_CNT

/-- A Pdelay_Req is answered: a booking is asked for, with E = now + LEAD (R256, Table 12-5). -/
def answerPdelay (s : State) (d i : Nat) (as two : Bool) (domain : Nat) (dest : PtpTo) (sa : Option Nat)
    (x : PtpIn) : State :=
  let t2 := pOf s d x.stamp
  let m : PtpMsg :=
    { msg := ptpMessage s d i 3 as domain (ptpFlags two x.uni) 0 x.seq 0x7F (put8 10 0 ++ put8 10 x.pid)
      time := if two then .receipt x.cf t2 else .turn x.cf t2
      dest := dest, as := as, sa := sa, ref := none }
  addAsk s d i ⟨.ptp m, ptpLen s d i m, nowP s d + pteLead s d, false⟩

/-- A Pdelay_Req taken by a P2P instance. -/
def instPdelay (s : State) (d i n : Nat) (x : PtpIn) : State :=
  let e := instEntry s d n
  if !instSends s d n then s
  else answerPdelay s d i (iAs e) (iTwoStep e) (iDomain e)
    (if x.uni then toPartner s d i n x else toGroup s d i (iAddr e) (iTransport e) (iAs e) true) (instSa e) x

/-! ### Peer-delay responses (R256) -/

/-- A response matches a request in flight: its sequenceId and requestingPortIdentity, within 1 s. -/
def pdelayHit (s : State) (d i : Nat) (x : PtpIn) : Option PdelayReq :=
  if be x.m 44 10 = portId s d i then
    (pdelayOf s d i).reqs.find? fun r => r.seq == x.seq && decide (mono s < r.at' + 1000000000)
  else none

/-- Change a request in flight. -/
def updReq (s : State) (d i seq : Nat) (f : PdelayReq → PdelayReq) : State :=
  updPdelay s d i fun p => { p with reqs := p.reqs.map fun r => if r.seq = seq then f r else r }

/-- A Pdelay_Resp reaches the initiator: a one-step one completes the exchange. -/
def takePdelayResp (s : State) (d i : Nat) (x : PtpIn) : State :=
  match pdelayHit s d i x with
  | none => s
  | some r =>
    let t4 : Int := pOf s d x.stamp
    let s1 := updReq s d i x.seq fun r =>
      { r with got := r.got + 1
               resp := if x.two ∧ r.got = 0 then some (x.time, t4, signed 64 x.cf) else r.resp }
    if r.got ≠ 0 ∨ x.two then s1
    else loadPdelay s1 d i ((t4 - r.t1 - signed 64 x.cf) / 2)

/-- A Pdelay_Resp_Follow_Up completes a two-step exchange. -/
def takePdelayFollow (s : State) (d i : Nat) (x : PtpIn) : State :=
  match pdelayHit s d i x with
  | none => s
  | some r =>
    match r.resp with
    | none => s
    | some (t2, t4, cf) =>
      let turn := x.time - t2 + cf + signed 64 x.cf
      let s1 := updReq s d i x.seq fun r => { r with resp := none }
      if r.got ≠ 1 then s1 else loadPdelay s1 d i ((t4 - r.t1 - turn) / 2)

/-! ### Announce (R262, R267) -/

/-- The foreign master an Announce describes. -/
def foreignOf (s : State) (x : PtpIn) : Foreign :=
  let f := be x.m 6 2
  { pid := x.pid, data := [u8 x.m 47, u8 x.m 48, u8 x.m 49, be x.m 50 2, u8 x.m 52, be x.m 53 8]
    log := signed 8 (u8 x.m 33)
    utc := be x.m 44 2 + f / 4 % 2 * 0x10000 + f % 2 * 0x20000 + f / 2 % 2 * 0x40000 + f / 8 % 2 * 0x80000
    last := mono s, qual := false, mac := x.eth.src, ip := x.ip.elim 0 IpHead.src }

/-- An instance hears an Announce of another clock (R262). -/
def instAnnounce (s : State) (d n : Nat) (x : PtpIn) : State :=
  if x.pid / 0x10000 = clockId s d then s
  else
    let f := foreignOf s x
    judgeForeign (updInst s d n fun v => { v with foreign := hear v.foreign f }) d n

/-- A reference hears an Announce (R267). -/
def refAnnounce (s : State) (d r : Nat) (x : PtpIn) : State :=
  if x.pid / 0x10000 = clockId s d then s
  else
    let f := foreignOf s x
    refFollow (updRef s d r fun v => { v with masters := hear v.masters f }) d r

/-! ### Reference samples (R268, R269) -/

/-- A sample is shown and counted: MS and SM in 2⁻¹⁶ ns. -/
def showSample (s : State) (d r : Nat) (ms sm : Int) : State :=
  let p := pPTE d
  let ps (i : Int) : Int := i * 125 / 8192
  let s1 := wrN s p (rPTE_RX_MS r) (unsign 32 (satS 32 (ps ms)))
  let s2 := wrN s1 p (rPTE_RX_SM r) (unsign 32 (satS 32 (ps sm)))
  bump (wrN s2 p (rPTE_RX_DELAY r) (satU 32 (ps ((ms + sm) / 2)).toNat)) p (rPTE_RX_SAMPLE_CNT r)

/-- A Sync is complete with its origin time t1 after corrections (R268): in E2E it waits for a Delay_Req, in
P2P it is a sample with the mean link delay. -/
def syncDone (s : State) (d i r : Nat) (t1 : Int) (t2 : Nat) : State :=
  let s1 := updRef s d r fun v => { v with sync := some (t1, t2), wait := none }
  if refP2p s d r then
    match flag s (pPTE d) (fPTE_PDLY_VALID i), (pdelayOf s d i).d with
    | true, some k => showSample s1 d r ((t96At s t2 : Int) - t1) k
    | _, _ => s1
  else s1

/-- A Sync of the followed master. -/
def refSync (s : State) (d i r : Nat) (x : PtpIn) : State :=
  let t2 := pOf s d x.stamp
  let c := signed 64 x.cf
  if (refOf s d r).follow ≠ some x.pid then s
  else if x.two then updRef s d r fun v => { v with wait := some (x.seq, t2, c) }
  else syncDone s d i r (x.time + c) t2

/-- A Follow_Up of the followed master. -/
def refFollowUp (s : State) (d i r : Nat) (x : PtpIn) : State :=
  match (refOf s d r).wait with
  | none => s
  | some (seq, t2, c) =>
    if (refOf s d r).follow ≠ some x.pid ∨ seq ≠ x.seq then s
    else syncDone s d i r (x.time + c + signed 64 x.cf) t2

/-- A Delay_Resp that matches the Delay_Req in flight completes a sample (R268). -/
def refDelayResp (s : State) (d i r : Nat) (x : PtpIn) : State :=
  match (refOf s d r).dreq with
  | none => s
  | some (seq, t3, t1, t2) =>
    if seq ≠ x.seq ∨ be x.m 44 10 ≠ portId s d i ∨ (refOf s d r).follow ≠ some x.pid then s
    else
      let t4 := x.time - signed 64 x.cf
      let log := signed 8 (u8 x.m 33)
      let s1 := updRef s d r fun v => { v with dreq := none, log := if log = 0x7F then v.log else some log }
      showSample s1 d r ((t96At s t2 : Int) - t1) (t4 - t96At s t3)

/-- The TLVs of a message from an offset: type, offset of the value and its length; none where they do not
fit. -/
def tlvChain (m : List Byte) : Nat → Nat → Option (List (Nat × Nat × Nat))
  | 0, off => if off = m.length then some [] else none
  | n + 1, off =>
    if off = m.length then some []
    else
      let len := be m (off + 2) 2
      if m.length < off + 4 + len then none
      else (tlvChain m n (off + 4 + len)).map fun t => (be m off 2, off + 4, len) :: t

/-- The TLVs of a Signaling message, without its AUTHENTICATION TLV. -/
def signalTlvs (m : List Byte) : Option (List (Nat × Nat × Nat)) :=
  (tlvChain m (m.length / 4) 44).map fun l => l.filter fun t => t.1 != 0x8009

/-- RXx_STAT.GRANTED shows the grants of a reference. -/
def showGranted (s : State) (d r : Nat) : State :=
  let v := (List.range 3).foldl (fun v k => setBit v k
    ((ix (refOf s d r).grants k none).any fun g => g.2 != 0)) 0
  put s (pPTE d) (fPTE_RX_STAT_GRANTED r) v

/-- A GRANT_UNICAST_TRANSMISSION that answers a reference's request (R268). -/
def refGrants (s : State) (d r : Nat) (x : PtpIn) : State :=
  match signalTlvs x.m with
  | none => s
  | some l =>
    let now := mono s
    let s1 := (l.filter fun t => t.1 == 5).foldl (fun s t =>
      let type := u8 x.m t.2.1 / 16
      let dur := be x.m (t.2.1 + 2) 4 * 1000000000
      [0, 1, 2].foldl (fun s k =>
        if refType k = type then updRef s d r fun v => { v with grants := upd v.grants k fun _ => some (now, dur) }
        else s) s) s
    showGranted s1 d r

/-- A message taken by a reference port. -/
def refTake (s : State) (d i r : Nat) (x : PtpIn) : State × PtpFate :=
  let a := authJudge s d (get s (pPTE d) (fPTE_RX_CFG_AUTH r)) x.m
  if !a.2 then (a.1, .done)
  else
    let s := a.1
    let p2p := refP2p s d r
    let t := x.type
    if t = 0 then (refSync s d i r x, .done)
    else if t = 8 then (refFollowUp s d i r x, .done)
    else if t = 9 then (if p2p then (ptpBad s d, .done) else (refDelayResp s d i r x, .done))
    else if t = 11 then (refAnnounce s d r x, .done)
    else if t = 3 then (if p2p then (takePdelayResp s d i x, .done) else (ptpBad s d, .done))
    else if t = 10 then (if p2p then (takePdelayFollow s d i x, .done) else (ptpBad s d, .done))
    else if t = 2 then
      (if p2p then answerPdelay s d i (refProfile s d r == 4) true x.domain
        (refTo s d r x.eth.src x.addr) (refSa s d r) x else ptpBad s d, .done)
    else if t = 12 ∧ flag s (pPTE d) (fPTE_RX_CFG_UNI r) then (refGrants s d r x, .done)
    else if t = 12 ∨ t = 13 then (s, .slow)
    else (if p2p then ptpBad s d else s, .done)

/-! ### Unicast negotiation (R263) -/

/-- The least grantable interval of a messageType (Table 12-11). -/
def uniMin (e : InstEntry) (type : Nat) : Int :=
  signed 8 (entryBits e 3 (if type = 0 then 0 else if type = 11 then 8 else 16) 8)

/-- The answer to a request: GRANT_UNICAST_TRANSMISSION; a duration of 0 denies. -/
def grantTlv (type log dur : Nat) : List Byte :=
  tlv 5 (put8 1 (type * 16) ++ put8 1 log ++ put8 4 dur ++ put8 1 0 ++ put8 1 (ofBool (dur != 0)))

/-- A request is denied. -/
def denyGrant (s : State) (d : Nat) : State := raise (bump s (pTBL d) rTBL_SES_DENY_CNT) (pPTE d) 4

/-- A session of a new partner. -/
def newSession (n : Nat) (x : PtpIn) : Session :=
  { static := false, v6 := x.l3 == 2, l2 := x.ip.isNone, slot := n % 4, port := instPort n
    vid := x.eth.vid, mac := x.eth.src, pid := x.pid, addr := x.ip.elim 0 IpHead.src
    seqSync := 0, seqAnn := 0, seqSig := 0
    ann := Grant.none, sync := Grant.none, dresp := Grant.none, nextSync := 0, nextAnn := 0, sent := 0 }

/-- A granted type begins, or begins afresh (R265). -/
def grantType (s : State) (d k : Nat) (e : Session) (x : PtpIn) (type log dur : Nat) : State :=
  let g : Grant := ⟨true, signed 8 log, dur, (monoUs s + dur * 1000000) % 2 ^ 48⟩
  bump (putSes s d k { (e.setGrant type g) with mac := x.eth.src, pid := x.pid, vid := x.eth.vid })
    (pTBL d) rTBL_SES_GRANT_CNT

/-- The entry a request can be held in: the partner's own, or a free way of its set. -/
def sesPlace (s : State) (d n : Nat) (x : PtpIn) : State × Option (Nat × Session) :=
  let r := partnerSes s d n x
  match r.2 with
  | some e => (r.1, some e)
  | none =>
    if !pageEn s (pTBL d) || (pd r.1 d).sesKey.isNone then (r.1, none)
    else (r.1, (sesFree r.1 d (instPort n) (n % 4) x.ip.isNone x.addr).map fun k => (k, newSession n x))

/-- One REQUEST_UNICAST_TRANSMISSION is judged (R263). -/
def judgeRequest (s : State) (d n : Nat) (x : PtpIn) (o : Nat) : State × List Byte :=
  let e := instEntry s d n
  let type := u8 x.m o / 16
  let log := u8 x.m (o + 1)
  let dur := min (be x.m (o + 2) 4) (orD (entryBits e 3 24 8) 30 * 10)
  if !([11, 0, 9] : List Nat).contains type || decide (signed 8 log < uniMin e type) then
    (denyGrant s d, grantTlv type log 0)
  else
    let r := sesPlace s d n x
    match r.2 with
    | none => (raise (denyGrant r.1 d) (pTBL d) 16, grantTlv type log 0)
    | some (k, g) => (grantType r.1 d k g x type log dur, grantTlv type log dur)

/-- One CANCEL_UNICAST_TRANSMISSION of the partner (R265). -/
def judgeCancel (s : State) (d n : Nat) (x : PtpIn) (o : Nat) : State × List Byte :=
  let type := u8 x.m o / 16
  let ack := tlv 7 (put8 1 (type * 16) ++ put8 1 0)
  let r := partnerSes s d n x
  match r.2 with
  | none => (r.1, ack)
  | some (k, g) =>
    if g.static || !(g.grant type).on then (r.1, ack)
    else
      let s1 := bump r.1 (pTBL d) rTBL_SES_CANCEL_CNT
      (keepSes s1 d k (g.setGrant type { (g.grant type) with on := false }), ack)

/-- The TLVs of a Signaling message are judged in order; the answer's TLVs follow. -/
def judgeTlvs (d n : Nat) (x : PtpIn) : List (Nat × Nat × Nat) → State → State × List Byte
  | [], s => (s, [])
  | t :: l, s =>
    let r := if t.1 = 4 then judgeRequest s d n x t.2.1
      else if t.1 = 6 then judgeCancel s d n x t.2.1 else (s, [])
    let q := judgeTlvs d n x l r.1
    (q.1, r.2 ++ q.2)

/-- The sequenceId of an answer: the session's; without a session the spec gives none, and it is free. -/
def signalSeq (s : State) (d n : Nat) (x : PtpIn) : State × Nat :=
  let r := partnerSes s d n x
  match r.2 with
  | some (k, g) => (putSes r.1 d k { g with seqSig := (g.seqSig + 1) % 65536 }, g.seqSig)
  | none => (drawn r.1, freeVal r.1 34 % 65536)

/-- UNICAST_SIGNALING (R263): a Signaling message is handled in hardware, or goes to the slow path. -/
def instSignal (s : State) (d i n : Nat) (x : PtpIn) : State × PtpFate :=
  let e := instEntry s d n
  let target := be x.m 34 10
  match signalTlvs x.m with
  | none => (s, .slow)
  | some l =>
    if iP2p e || !feat s 3 || entryBits e 0 8 1 == 0 || !(target == 2 ^ 80 - 1 || target == portId s d i) ||
        !(l.all fun t => [4, 6, 7].contains t.1) then (s, .slow)
    else if 1 < pteForm s d ∨ (instRun s d n).passive then (s, .done)
    else
      let r := judgeTlvs d n x l s
      if r.2 = [] then (r.1, .done)
      else
        let q := signalSeq r.1 d n x
        (sendSignal q.1 d n (toPartner s d i n x) q.2 x.pid r.2, .done)

/-- A message taken by an instance (Table 12-2). -/
def instTake (s : State) (d i n : Nat) (x : PtpIn) : State × PtpFate :=
  let e := instEntry s d n
  let a := authJudge s d (iAuth e) x.m
  if !a.2 then (a.1, .done)
  else
    let s := a.1
    let t := x.type
    let p2p := iP2p e
    if t = 1 then (if p2p then ptpBad s d else answerDelayReq s d i n x, .done)
    else if t = 2 then (if p2p then instPdelay s d i n x else ptpBad s d, .done)
    else if t = 3 then (if p2p then takePdelayResp s d i x else ptpBad s d, .done)
    else if t = 9 then (if p2p then ptpBad s d else s, .done)
    else if t = 10 then (if p2p then takePdelayFollow s d i x else ptpBad s d, .done)
    else if t = 11 then (instAnnounce s d n x, .done)
    else if t = 12 then instSignal s d i n x
    else if t = 13 then (s, .slow)
    else (s, .done)

/-! ### Transparent clocks (R271, R274) -/

/-- The bridge pair of a port that is on, and the other port of the die. -/
def pairOf (s : State) (d i : Nat) : Option (Nat × Nat) :=
  let p := pPTE d
  if !pteOn s d then none
  else ((List.range 4).find? fun n => bitOf (get s p fPTE_BR_STAT_ON) n &&
    (get s p (fPTE_BR_CFG_PORT_A n) == 8 * d + i || get s p (fPTE_BR_CFG_PORT_B n) == 8 * d + i)).map fun n =>
      let a := get s p (fPTE_BR_CFG_PORT_A n)
      (n, (if a = 8 * d + i then get s p (fPTE_BR_CFG_PORT_B n) else a) % 8)

/-- A frame asks for its booking on the other port of a pair, or is dropped (R193, R196). -/
def bridgeFrame (s : State) (d i : Nat) (pair : Nat × Nat) (frame : List Byte) (tin eof : PC64) (link : Nat)
    (event : Bool) (sa : Option Nat) : State :=
  if portMode s d i ≠ portMode s d pair.2 ∨ linkUp s d pair.2 = false then bump s (pLCH d) rLCH_BR_DROP_CNT
  else
    let e := max (pOf s d tin + lchNs s d fLCH_BRIDGE_LEAD_NS) (pOf s d eof + 200 * 65536)
    addAsk s d pair.2 ⟨.bridge frame tin link event sa, frame.length + 4, e, false⟩

/-- A PTP message passes a bridge pair (R271, R274). -/
def bridgePtp (s : State) (d i : Nat) (pair : Nat × Nat) (x : PtpIn) (eof : PC64) : State :=
  let p := pPTE d
  let p2p := flag s p (fPTE_BR_CFG_TC_MODE pair.1)
  let t := x.type
  let k := get s p (fPTE_BR_CFG_SA pair.1)
  let redo := hasTlv x.m && flag s p (fPTE_BR_CFG_AUTH_RECOMPUTE pair.1)
  if redo && !tlvOk (saEntry s d k) x.m then authFail s d
  else
    let sa := if redo then some k else none
    if !p2p then bridgeFrame s d i pair x.frame x.stamp eof 0 (decide (t < 4)) sa
    else if t = 2 then
      (if x.domain = 0 ∧ x.sdo = 0 then
        answerPdelay s d i false true 0
          { mac := 0x0180C200000E, vid := x.eth.vid, pcp := vlanPcp s d i x.eth.vid, l3 := 0, src := 0, dst := 0
            peer := true } none x
      else s)
    else if t = 3 then takePdelayResp s d i x
    else if t = 10 then takePdelayFollow s d i x
    else if t ≠ 0 then bridgeFrame s d i pair x.frame x.stamp eof 0 false sa
    else match flag s p (fPTE_PDLY_VALID i), (pdelayOf s d i).d with
      | true, some m => bridgeFrame s d i pair x.frame x.stamp eof m.toNat true sa
      | _, _ => bridgeFrame (bump s p rPTE_TC_NOLD_CNT) d i pair x.frame x.stamp eof 0 true sa

/-- PTP_MSG_RX (R251, R271): a PTP message on a port is taken by an instance or a reference, forwarded, or
dropped. -/
def ptpReceive (s : State) (d i : Nat) (x : PtpIn) (eof : PC64) (tileOk : Bool) : State × PtpFate :=
  let pair := pairOf s d i
  let fits := pteOn s d && x.good && ptpDest s d i x
  let inst := if fits then ptpInst s d i x else none
  let ref := if fits && inst.isNone then refFor s d i x.sdo x.domain else none
  if pteOn s d && !tileOk then (tileFail (raise s (pPTE d) 30) d, .done)
  else if (inst.isSome || ref.isSome) && x.uncal && decide (x.type < 4) then
    (bump s (pPTE d) rPTE_UNCAL_CNT, .done)
  else match inst, ref, pair with
    | some n, _, _ => instTake s d i n x
    | none, some r, none => refTake s d i r x
    | none, some r, some q =>
      let t := refTake s d i r x
      (bridgePtp t.1 d i q x eof, t.2)
    | none, none, some q => (bridgePtp s d i q x eof, .done)
    | none, none, none => (if pageOn s (pPTE d) then ptpBad s d else s, .done)

end Sys2Proof.Machine
end

