-- ==== Sys2Proof/Machine/Receive.lean ====
section
/-! DEFINITION. A frame is received: the checks of the MAC, the stamp, the classification of Table 10-1,
neighbour offload, request validation, the slow path and bridging (R177, R178, R181, R201–R207). -/

namespace Sys2Proof.Machine

/-! ### The slow path (R205, R422) -/

/-- The class of a slow-path frame (R422): 0 TCP to port 4460, 1 PTP, 2 ARP, ND and ICMP, 3 any other. -/
def slowClass (l : List Byte) : Nat :=
  let e := ethOf l
  if (ptpAt l).isSome then 1
  else if e.ty = 0x0806 then 2
  else match ipOf l e with
    | none => 3
    | some h =>
      if h.proto = 6 ∧ ipFrag l e = false ∧ be l (h.off + 2) 2 = 4460 then 0
      else if h.proto = (if h.v6 then 58 else 1) then 2 else 3

/-- The lowest-numbered enabled SP_RX ring that takes frames of a die and class (R422). -/
def slowRing (s : State) (d cls : Nat) : Option Nat :=
  (List.range 16).find? fun n =>
    ringTakes s n 0 &&
      bitOf (get s pHIF (fHIF_RING_CFG_DIE n)) d && bitOf (get s pHIF (fHIF_RING_CFG_CLASS n)) cls

/-- A slow-path frame reaches the Hub (R422). -/
def routeSlow (s : State) (d : Nat) (f : SlowFrame) : State :=
  match slowRing s d f.cls with
  | none => raise (bump s pHIF rHIF_NOROUTE_CNT) pHIF 20
  | some n =>
    match (ix s.rings n ⟨[], [], 0, 0⟩).given with
    | [] => bump s pHIF (rHIF_RING_DROP n)
    | x :: _ => if x.len < f.frame.length then bump s pHIF (rHIF_RING_DROP n) else takeDesc s n (.rx f)

/-- SLOW_PATH (R205): a frame goes to the Hub, or is dropped beyond SLOW_LIMIT frames in any 1 s. -/
def slowPath (s : State) (d i : Nat) (frame : List Byte) (stamp : PC64) (uncal bad : Bool) : State :=
  if bad then tileDrop s d (pANS d)
  else
    let m := mono s
    let now := (pd s d).slow.filter fun t => decide (m < t + 1000000000)
    if get s (pANS d) fANS_SLOW_LIMIT_FPS ≤ now.length then
      raise (bump s (pANS d) rANS_SLOW_DROP_CNT) (pANS d) 1
    else
      let s1 := updPd s d fun x => { x with slow := m :: now }
      routeSlow (bump s1 (pANS d) rANS_SLOW_CNT) d ⟨8 * d + i, uncal, slowClass frame, stamp, frame⟩

/-! ### Classified frames -/

/-- A frame as the classification sees it: its head, IP head, stamp, UNCAL, and whether its packet tile is
spoilt. -/
structure Classed where
  frame : List Byte
  eth : Eth
  stamp : PC64
  uncal : Bool
  bad : Bool
  deriving DecidableEq, Repr

/-- A classified frame takes the slow path. -/
def toSlow (s : State) (d i : Nat) (x : Classed) : State := slowPath s d i x.frame x.stamp x.uncal x.bad

/-- The tag of an answer to a frame (R203, Table 10-6): the head that leads back to its sender. -/
def backHead (s : State) (d i : Nat) (x : Classed) (ty : Nat) : List Byte :=
  ethHead x.eth.src (stationMac s d i) x.eth.vid (vlanPcp s d i x.eth.vid) ty

/-! ### Neighbour offload (R203, R204) -/

/-- The ANS page is enabled. -/
def ansOn (s : State) (d : Nat) : Bool := pageEn s (pANS d)

/-- An ARP frame (R203, R204). -/
def arpFrame (s : State) (d i : Nat) (x : Classed) : State :=
  let l := x.frame
  let o := x.eth.off
  let sha := be l (o + 8) 6
  let spa := be l (o + 14) 4
  let tpa := be l (o + 24) 4
  if servedAny s d i false spa x.eth.vid && sha != stationMac s d i then
    toSlow (raise s (pANS d) 3) d i x
  else if ansOn s d && be l (o + 6) 2 == 1 && served s d i false tpa x.eth.vid 3 then
    if x.bad then tileDrop s d (pANS d)
    else
      let m := put8 2 1 ++ put8 2 0x0800 ++ put8 1 6 ++ put8 1 4 ++ put8 2 2 ++ put8 6 (stationMac s d i) ++
        put8 4 tpa ++ put8 6 sha ++ put8 4 spa
      untimed (bump s (pANS d) rANS_ARP_CNT) d i (padded (backHead s d i x 0x0806 ++ m)) none
  else toSlow s d i x

/-- The Neighbor Advertisement that answers a solicitation of `target` from `src` (R203). -/
def neighborAdvert (s : State) (d i : Nat) (x : Classed) (target src : Nat) : List Byte :=
  let m := fun c => put8 1 136 ++ put8 1 0 ++ put8 2 c ++ put8 4 0x60000000 ++ put8 16 target ++ put8 1 2 ++
    put8 1 1 ++ put8 6 (stationMac s d i)
  padded (backHead s d i x 0x86DD ++
    ipPacket true 0 255 target src 58 (m (upperSum true target src 58 (m 0))))

/-- A Neighbor Solicitation (R203, R204). -/
def solicitFrame (s : State) (d i : Nat) (x : Classed) (h : IpHead) : State :=
  let target := be x.frame (h.off + 8) 16
  if ipZero h.src then
    toSlow (raiseIf s (servedAny s d i true target x.eth.vid) (pANS d) 2) d i x
  else if ansOn s d && h.hop == 255 && upperOk h (upperOf x.frame h) && served s d i true target x.eth.vid 3 then
    if x.bad then tileDrop s d (pANS d)
    else untimed (bump s (pANS d) rANS_ND_CNT) d i (neighborAdvert s d i x target h.src) none
  else toSlow s d i x

/-- The echo reply to an echo request: its hop limit and DSCP are free values (log entry 3). -/
def echoReply (s : State) (d i : Nat) (x : Classed) (h : IpHead) : List Byte :=
  let rest := (upperOf x.frame h).drop 4
  let m := fun c => put8 1 (if h.v6 then 129 else 0) ++ put8 1 0 ++ put8 2 c ++ rest
  let c := if h.v6 then upperSum true h.dst h.src 58 (m 0) else inetSum (m 0)
  padded (backHead s d i x (ipType h.v6) ++
    ipPacket h.v6 (freeVal s 35 % 64) (freeVal s 36 % 256) h.dst h.src h.proto (m c))

/-- An echo request (R203). -/
def echoFrame (s : State) (d i : Nat) (x : Classed) (h : IpHead) : State :=
  if ansOn s d && flag s (pANS d) fANS_CFG_ECHO && served s d i h.v6 h.dst x.eth.vid 4 then
    if x.bad then tileDrop s d (pANS d)
    else untimed (drawn (bump s (pANS d) rANS_ECHO_CNT)) d i (echoReply s d i x h) none
  else toSlow s d i x

/-! ### Request validation (R206, R207, R499) -/

/-- The greatest level of a request queue, in Q_MAX. -/
def showQueue (s : State) (d i n : Nat) : State :=
  if get s (pANS d) fANS_Q_MAX_LVL < n then put (put s (pANS d) fANS_Q_MAX_LVL n) (pANS d) fANS_Q_MAX_PORT i
  else s

/-- REQUEST_QUEUE (R207, R499): a valid request is queued on its port, or dropped. -/
def queueReq (s : State) (d i : Nat) (q : NtpReq) : State :=
  let n := (port s d i).queue.length
  if !ansOn s d || !feat s 1 then bump s (pANS d) rANS_OFF_CNT
  else if 512 ≤ n then raise (bump s (pANS d) rANS_OVF_CNT) (pANS d) 0
  else showQueue (updPort s d i fun p => { p with queue := p.queue ++ [q] }) d i (n + 1)

/-- Row 6 of Table 10-2: a source or destination that is never answered. -/
def oddPeer (s : State) (d : Nat) (h : IpHead) (sport : Nat) : Bool :=
  sport == 0 || ipGroup h.v6 h.src || ipZero h.src || ipLoop h.v6 h.src || servedOnDie s d h.v6 h.src ||
    ipGroup h.v6 h.dst

/-- The request of a datagram. -/
def reqOf (s : State) (d i : Nat) (x : Classed) (h : IpHead) (body : List Byte) (nts : Bool) : NtpReq :=
  { stamp := x.stamp, mac := x.eth.src, vid := x.eth.vid, pcp := vlanPcp s d i x.eth.vid, v6 := h.v6
    src := h.src, dst := h.dst, sport := be x.frame h.off 2, body := body, nts := nts, bad := x.bad }

/-- A UDP datagram to port 123 (Table 10-2). -/
def ntpFrameRx (s : State) (d i : Nat) (x : Classed) (h : IpHead) : State :=
  let p := pANS d
  let body := slice x.frame (h.off + 8) (be x.frame (h.off + 4) 2 - 8)
  let vn := u8 body 0 / 8 % 8
  let mode := u8 body 0 % 8
  if x.uncal then bump s p rANS_UNCAL_CNT
  else if body.length < 48 then bump s p rANS_BAD_CNT
  else if ¬(vn = 3 ∨ vn = 4) ∨ (vn = 3 ∧ flag s p fANS_CFG_V3 = false) then bump s p rANS_BAD_CNT
  else if mode = 6 ∨ mode = 7 then
    (if flag s p fANS_CFG_CTRL_SLOW then toSlow s d i x else bump s p rANS_BAD_CNT)
  else if mode ≠ 3 ∨ oddPeer s d h (be x.frame h.off 2) then bump s p rANS_BAD_CNT
  else if body.length = 48 then
    (if served s d i h.v6 h.dst x.eth.vid 0 then queueReq s d i (reqOf s d i x h body false)
    else bump s p rANS_NOADDR_CNT)
  else if isNts body then
    (if feat s 0 && served s d i h.v6 h.dst x.eth.vid 1 then queueReq s d i (reqOf s d i x h body true)
    else bump s p rANS_NTS_OFF_CNT)
  else if flag s p fANS_CFG_SLOW_OTHER then toSlow s d i x
  else bump s p rANS_BAD_CNT

/-! ### Classification (R201) -/

/-- The MAC accepts a frame for the engine. -/
def accepts (s : State) (d i dst : Nat) : Bool :=
  dst == stationMac s d i || dst == macAll || solicits s d i dst ||
    ([0, 1, 2].any fun l3 => (ptpGroup s d l3 false).1 == dst || (ptpGroup s d l3 true).1 == dst) ||
    (macGroup dst && flag s (pANS d) fANS_CFG_MCAST_SLOW)

/-- The checks before Table 10-1: a bad IPv4 header checksum, a bad UDP checksum. -/
def badSums (x : Classed) : Bool :=
  match ipOf x.frame x.eth with
  | none => false
  | some h => (!h.v6 && !ip4Ok x.frame x.eth) ||
    (h.proto == 17 && !ipFrag x.frame x.eth && !udpOk x.frame h)

/-- Row 3 of Table 10-1: a unicast address that is not served. -/
def notServed (s : State) (d i : Nat) (x : Classed) (h : IpHead) : Bool :=
  !ipGroup h.v6 h.dst &&
    !(if h.proto = 17 ∧ h.odd = false ∧ be x.frame (h.off + 2) 2 = 123 then
        served s d i h.v6 h.dst x.eth.vid 0 || served s d i h.v6 h.dst x.eth.vid 1
      else servedAny s d i h.v6 h.dst x.eth.vid)

/-- Rows 9 and 10 of Table 10-1. -/
def otherFrame (s : State) (d i : Nat) (x : Classed) (toServed : Bool) : State :=
  if x.eth.dst == stationMac s d i || toServed || flag s (pANS d) fANS_CFG_MCAST_SLOW then toSlow s d i x else s

/-- An IPv4 or IPv6 packet that is no PTP message (rows 3 to 10 of Table 10-1). -/
def ipFrame (s : State) (d i : Nat) (x : Classed) (h : IpHead) : State :=
  let l := x.frame
  let icmp := h.proto == (if h.v6 then 58 else 1)
  if notServed s d i x h then bump s (pANS d) rANS_NOADDR_CNT
  else if h.odd then toSlow s d i x
  else if icmp && h.v6 && u8 l h.off == 135 then solicitFrame s d i x h
  else if icmp && u8 l h.off == (if h.v6 then 128 else 8) then echoFrame s d i x h
  else if h.proto = 17 ∧ be l (h.off + 2) 2 = 123 then ntpFrameRx s d i x h
  else if h.proto = 6 ∧ be l (h.off + 2) 2 = 4460 then toSlow s d i x
  else otherFrame s d i x (servedAny s d i h.v6 h.dst x.eth.vid)

/-- An accepted frame that is no PTP message is classified (Table 10-1). -/
def classify (s : State) (d i : Nat) (x : Classed) : State :=
  if x.eth.ty = 0x0806 then arpFrame s d i x
  else match ipOf x.frame x.eth with
    | none => otherFrame s d i x false
    | some h => ipFrame s d i x h

/-- A PTP message goes to the PTE (row 1), and from there where it sends it. -/
def ptpFrameRx (s : State) (d i : Nat) (x : Classed) (off : Nat) (eof : PC64) : State :=
  let r := ptpReceive s d i (ptpIn x.frame off x.stamp x.uncal) eof (!x.bad)
  match r.2 with
  | .done => r.1
  | .slow => toSlow r.1 d i x

/-- BRIDGE_FORWARD (R193): a frame the device does not take alone is booked on the other port of the pair;
one with a spoilt packet tile is dropped (R384). -/
def forward (s : State) (d i : Nat) (pair : Nat × Nat) (x : Classed) (eof : PC64) : State :=
  if x.bad then bump (tileDrop s d (pLCH d)) (pLCH d) rLCH_TILE_DROP_CNT
  else bridgeFrame s d i pair x.frame x.stamp eof 0 false none

/-- A frame that has passed the MAC is classified, taken or forwarded (R201, R202). -/
def takeFrame (s : State) (d i : Nat) (x : Classed) (eof : PC64) : State :=
  let ok := accepts s d i x.eth.dst
  if ok && badSums x then
    let s1 := bump s (pANS d) rANS_BAD_CNT
    match pairOf s d i with
    | none => s1
    | some q => if x.eth.dst = stationMac s d i then s1 else forward s1 d i q x eof
  else match ptpAt x.frame, pairOf s d i with
    | some o, none => if ok then ptpFrameRx s d i x o eof else s
    | some o, some _ => ptpFrameRx s d i x o eof
    | none, none => if ok then classify s d i x else s
    | none, some q =>
      let s1 := if ok then classify s d i x else s
      if x.eth.dst = stationMac s d i then s1 else forward s1 d i q x eof

/-! ### The MAC (R177, R178) -/

/-- PAUSE_RX (R178): a MAC Control frame is counted and dropped; a PAUSE frame is honoured with
PAUSE_RX = 1. A quantum is 512 bit times. -/
def pauseFrame (s : State) (d i : Nat) (l : List Byte) (off : Nat) : State :=
  let p := pMAC d i
  let s1 := bump s p rMAC_RX_PAUSE
  if flag s p fMAC_CFG_PAUSE_RX && be l off 2 == 1 then
    let mode := portMode s d i
    let ns := be l (off + 2) 2 * 512 / (if mode = 1 then 1 else if mode = 2 then 10 else 25)
    let until' := if ns = 0 then none else some (mono s + ns)
    putB (updPort s1 d i fun x => { x with pause := until' }) p fMAC_STAT_PAUSED (ns != 0)
  else s1

/-- A frame with a right FCS and length: stamped, written to its packet tiles, and handled. -/
def goodFrame (s : State) (d i : Nat) (x : RxFrame) : State :=
  let s1 := add64 s (pMAC d i) rMAC_RX_FRAMES_LO rMAC_RX_FRAMES_HI 1
  let e := ethOf x.bytes
  if e.ty = 0x8808 then pauseFrame s1 d i x.bytes e.off
  else if !pageOn s (pANS d) then s1
  else
    let t := writeTiles s1 d 0 (packetTiles x.bytes)
    let stamp := x.seen - BitVec.ofInt 64 (rxDly s d i)
    takeFrame t.1 d i ⟨x.bytes, e, stamp, !calOk s d i, t.2 || !x.tileOk⟩ x.eof

/-- The FEC codewords that were corrected, or could not be, up to the end of a frame (Table 09-9). -/
def countFec (s : State) (d i : Nat) (x : RxFrame) : State :=
  let p := pMAC d i
  if fecOn s d i then
    raiseIf (bumpBy (bumpBy s p rMAC_FEC_CORR x.fecCorr) p rMAC_FEC_UNCORR x.fecUncorr) (x.fecUncorr != 0) p 2
  else s

/-- FRAME_RX (R201): a frame reaches a port. The MAC drops one with a bad FCS or a length out of bounds. -/
def execFrameRx (d : Fin 4) (i : Fin 8) (x : RxFrame) (s0 : State) : Host.Outcome State Fault Refusal :=
  let p := pMAC d i
  let s := if linkUp s0 d i && pageEn s0 p && loopMode s0 d i != 3 then countFec s0 d i x else s0
  let n := x.bytes.length + 4
  if !linkUp s d i || !pageEn s p || loopMode s d i == 3 then .next s
  else if !x.fcsOk then .next (bump s p rMAC_RX_FCS_ERR)
  else if n < 64 ∨ get s p fMAC_CFG_MAX_LEN < n then .next (bump s p rMAC_RX_LEN_ERR)
  else .next (goodFrame s d i x)

/-! ### The page is disabled (R499) -/

/-- ANS EN is cleared: the requests in the port queues are dropped and counted. -/
def ansDisabled (s : State) (d : Nat) : State :=
  let n := (pd s d).ports.foldl (fun n p => n + p.queue.length) 0
  updPd (bumpBy s (pANS d) rANS_OFF_CNT n) d fun x =>
    { x with ports := x.ports.map fun p => { p with queue := [] } }

end Sys2Proof.Machine
end

