-- ==== Sys2Proof/Machine/Domain.lean ====
section
/-! DEFINITION. The switched domains (spec/22, R441, R457): what each loses as it turns off, and what its pages
rebuild as it comes back. -/

namespace Sys2Proof.Machine

/-- Change the power controller. -/
def updPwr (s : State) (f : Power → Power) : State := { s with pwr := f s.pwr }

/-! ### Turning off -/

/-- A software or cue frame that the die loses completes with status 11 (R198). -/
def resetDrop (s : State) (d i : Nat) : State :=
  let p := port s d i
  let s1 := p.books.foldl (fun s b => complete s d i b.by' 11 b.l) s
  let s2 := p.asks.foldl (fun s a => complete s d i a.by' 11 0) s1
  p.untimed.foldl (fun s u =>
    match u.soft with
    | some (n, tag) => ringDone s n tag 11 0
    | none => s) s2

/-- Port island 3, or PdE, loses every frame the launch unit of a die holds (R198). -/
def loseFrames (s : State) (d : Nat) : State :=
  (List.range 8).foldl (fun s i =>
    updPort (resetDrop s d i) d i fun p => { p with books := [], asks := [], untimed := [], occ := [], deficit := 0 }) s

/-- The port group `g` (0 A, 1 B) of a die loses power: its links fall, and it keeps nothing (R441). -/
def groupOff (s : State) (d g : Nat) : State :=
  let s1 := (List.range 4).foldl (fun s k =>
    let i := 4 * g + k
    let s1 := if flag s (pMAC d i) fMAC_STAT_LINK then linkFall s d i else flushPort s d i
    updPort s1 d i fun _ => Port.cold) s
  reviewPortsGone (updPd s1 d fun x =>
    { x with pllLost := setBit (setBit x.pllLost (2 * g) false) (2 * g + 1) false, mmRst := x.mmRst.set g 0 })

/-- PdE of a die loses power: its frames, tables, keys and PTP engine with it (R441, R457). What its ports, its PLLs and
its AGE and TST pages hold stays. -/
def engineOff (s : State) (d : Nat) : State :=
  let s1 := updPd (loseFrames s d) d fun x =>
    { PortDie.cold with
      ports := x.ports.map fun p =>
        { Port.cold with pause := p.pause, cal := p.cal, uncalFrom := p.uncalFrom, devAt := p.devAt }
      safe := x.safe, pllLost := x.pllLost, mmRst := x.mmRst, tiles := x.tiles, inj := x.inj, trims := x.trims }
  updKisl s1 fun x => { x with cross := x.cross.filter fun y => y.die != d }

/-- HK loses power: every master key, Crossing key and link key, the slots and the jobs (R336, R412, R441). -/
def keysOff (s : State) : State :=
  let s1 := (List.range 4).foldl linkKeysErased (pkeLost (keysLost (dropMint s)))
  (List.range 4).foldl (fun s d => putB s (pSIV d) fSIV_STAT_CROSS_UP false) s1

/-- GB loses power, and GF with it (R120, R441). -/
def radioOff (s : State) : State := markSlot { gfDown s with rad := Radio.cold } false

/-- What a domain loses as it turns off. -/
def domLost (s : State) (dom : Nat) : State :=
  if dom < 12 then (if dom % 3 < 2 then groupOff s (dom / 3) (dom % 3) else engineOff s (dom / 3))
  else if dom = domHC then appHartsLost s
  else if dom = domHK then keysOff s
  else radioOff s

/-- A switched domain turns off: its pages lose every register but those held in AO (R26, R441, R457). -/
def domOff (s : State) (dom : Nat) : State :=
  if domOn s dom then
    let s1 := domLost s dom
    let s2 := updPwr s1 fun x => { x with on := setBit x.on dom false, ret := setBit x.ret dom false }
    noteAll s2 (wipeDomain s2 dom)
  else s

/-- HC goes off once DOM_REQ no longer names it and harts 2–5 have halted (R441). -/
def hcFollow (s : State) : State :=
  if !flag s pHubDie fDIE_DOM_REQ_HC && ([2, 3, 4, 5].all fun h => !(hart s h).run) then domOff s domHC else s

/-! ### Turning on -/

/-- What a domain's pages rebuild as it turns on (R441). -/
def domRebuild (s : State) (dom : Nat) : State :=
  if dom < 12 then
    let d := dom / 3
    if dom % 3 < 2 then
      showTimed ((List.range 4).foldl (fun s k => formDelays s d (4 * (dom % 3) + k)) s) d
    else
      let safe := flag s pSAF fSAF_STAT_SAFE
      showTimed (crossUp (updPd s d fun x => { x with safe := safe }) d) d
  else if dom = domHC then showHarts s
  else if dom = domHK then
    let s1 := (List.range 16).foldl startTest s
    let s2 := (List.range 4).foldl (fun s d => if pdeIsOn s d then crossUp s d else s) s1
    showKeys (generateIfNone (putB s2 pKEY fKEY_CFG_SRC s.straps.roleSel))
  else s

/-- A switched domain turns on, its pages at their cold values (R441). -/
def domUp (s : State) (dom : Nat) : State :=
  let s1 := updPwr (wipeDomain s dom) fun x => { x with on := setBit x.on dom true, turning := setBit x.turning dom false }
  domRebuild s1 dom

/-- DOMAIN_ON (R441): a switched domain finishes turning on. -/
def execDomainOn (dom : Fin 15) (s : State) : Host.Outcome State Fault Refusal :=
  if bitOf s.pwr.turning dom then .next (domUp s dom) else .next s

/-! ### DOM_REQ -/

/-- DIE.DOM_REQ takes a value: domains it drops turn off, domains it adds begin to turn on. In VIGIL and KEEP, and
during an entry or exit, it names what the exit turns on (R441, R447). -/
def domReq (s : State) (v : Nat) : State :=
  let s1 := wrN s pHubDie rDIE_DOM_REQ (v % 0x8000)
  if 2 ≤ get s pHubDie fDIE_PWR_STAT_STATE ∨ s.pwr.exiting = true then s1
  else
    let s2 := (List.range 15).foldl (fun s dom =>
      if bitOf v dom then
        if domOn s dom then s else updPwr s fun x => { x with turning := setBit x.turning dom true }
      else
        let s' := updPwr s fun x => { x with turning := setBit x.turning dom false }
        if dom = domHC then s' else domOff s' dom) s1
    hcFollow s2

/-- DOM_REQ_WRITE (R441): a write of DIE.DOM_REQ by the host or a keeper hart. -/
def execDomReqWrite (r : Requester) (v : Word) (s : State) : Host.Outcome State Fault Refusal :=
  .next (onWrite s r pHubDie fun s => if isApp r then deny s r 1 else domReq s v.toNat)

/-- HART_HALTED (R339): a hart that was asked to halt reaches an instruction boundary. -/
def execHartHalted (h : Fin 6) (s : State) : Host.Outcome State Fault Refusal :=
  if (hart s h).run && (hart s h).halting then .next (hcFollow (raise (showHarts (haltHart s h)) pCPU 3))
  else .next s

end Sys2Proof.Machine
end

