-- ==== Sys2Proof/Machine/HifBase.lean ====
section
/-! DEFINITION. The 32 interrupt sources of the endpoint, the levels of its vectors, and INT_N (R417–R419), as the
blocks that change them see them. -/

namespace Sys2Proof.Machine

/-- HIF.SRC_PEND (R417): the pending sources. -/
def srcPend (s : State) : Nat :=
  let raw := rdN s pHIF rINT_RAW
  get s (pDIE 0) fDIE_DEV_INT_DIE + ofBool (rdN s (pDIE 0) rDIE_DEV_DOUBT ≠ 0) * 0x100 +
    ofBool (bitOf raw 16) * 0x200 + raw % 0x10000 * 0x10000

/-- The level of a vector: the OR of its enabled sources (R417). -/
def vecLevel (s : State) (v : Nat) : Bool :=
  let p := srcPend s
  (List.range 32).any fun n =>
    bitOf p n && flag s pHIF (fHIF_VMAP_EN (n / 4) (n % 4)) && get s pHIF (fHIF_VMAP_VEC (n / 4) (n % 4)) == v

/-- Levels that have fallen are seen as low, and their PBA bits clear. -/
def vecsFall (s : State) : State :=
  let low := (List.range 64).filter fun v => bitOf s.hif.level v && !vecLevel s v
  { s with hif := { s.hif with level := low.foldl (fun m v => setBit m v false) s.hif.level
                               pba := low.foldl (fun m v => setBit m v false) s.hif.pba } }

/-- INT_N is driven low (R419). -/
def intNLow (s : State) : Bool := decide (srcPend s &&& rdN s pHIF rHIF_INTN_MASK ≠ 0)

end Sys2Proof.Machine
end

