-- ==== Sys2Proof/Machine/Fabric.lean ====
section
/-! DEFINITION. Dies, islands and the Boulevard (spec/01) and the doubt messages (spec/02): the meanings
of DOUBT_MESSAGE, DOUBT_MESSAGE_RESEND, BLV_TRANSFER, ISL_XING and ISL_MONITOR_JUDGE. -/

namespace Sys2Proof.Machine

/-! ### Doubt messages (R32, R377, R378) -/

/-- What a die's doubt message carries now: INT_SUM, DOUBT_SUM and the source vector (R32). -/
def doubtMsg (s : State) (die : Nat) : Nat × Nat × Nat := (intSum s die, doubtSum s die, srcVec s die)

/-- The doubt message the Hub last received from a die. -/
def lastDoubtMsg (s : State) (die : Nat) : Nat × Nat × Nat :=
  (ix s.fab.msgInt die 0, ix s.fab.msgDoubt die 0, ix s.fab.msgVec die 0)

/-- The Hub receives a die's message: DEV_INT and DEV_DOUBT show the summaries (R32). -/
def hubTakesMsg (s : State) (die : Nat) (m : Nat × Nat × Nat) : State :=
  let s1 := { s with fab := { s.fab with
    msgInt := s.fab.msgInt.set die m.1
    msgDoubt := s.fab.msgDoubt.set die m.2.1
    msgVec := s.fab.msgVec.set die m.2.2 } }
  let s2 := wrN s1 pHubDie rDIE_DEV_INT (setBit (rdN s1 pHubDie rDIE_DEV_INT) die (m.1 != 0))
  vecsFall (wrN s2 pHubDie rDIE_DEV_DOUBT (setBit (rdN s2 pHubDie rDIE_DEV_DOUBT) die (m.2.1 != 0)))

/-- The Hub forwards the message to the SAF: the die's vector and the time of its message; its bit in
DIE_SEEN is set, and a lost die is found again (R377, R378). The Timebase's pages feed the SAF
directly, and its bit in DIE_SEEN reads 0. -/
def safTakesMsg (s : State) (die : Nat) (m : Nat × Nat × Nat) : State :=
  if die = 1 then s
  else
    let s1 := { s with saf := { s.saf with
      vec := s.saf.vec.set die m.2.2
      lastMsg := s.saf.lastMsg.set die (mono s)
      lost := setBit s.saf.lost die false } }
    let s2 := wrN s1 pSAF rSAF_DIE_SEEN (setBit (rdN s1 pSAF rSAF_DIE_SEEN) die true)
    if s2.saf.lost = 0 then doubt s2 pSAF 0 false else s2

/-- A die sends its doubt message, to the Hub and through it to the SAF. -/
def sendDoubtMsg (s : State) (die : Nat) : State :=
  let m := doubtMsg s die
  safTakesMsg (hubTakesMsg s die m) die m

/-- DOUBT_MESSAGE (R32): on a change of what the message carries the die sends it. -/
def execDoubtMessage (die : Fin 8) (s : State) : Host.Outcome State Fault Refusal :=
  if dieHasRegs die && doubtMsg s die != lastDoubtMsg s die then .next (sendDoubtMsg s die)
  else .next s

/-- DOUBT_MESSAGE_RESEND (R32): every 1 ms the die sends its message whether or not it changed. -/
def execDoubtMessageResend (die : Fin 8) (s : State) : Host.Outcome State Fault Refusal :=
  if dieHasRegs die then .next (sendDoubtMsg s die) else .next s

/-! ### The switch (R15–R17) -/

/-- The priority of a class, 0 the highest (Table 01-4). -/
def BlvClass.prio : BlvClass → Nat
  | .key => 0 | .ctrl => 1 | .data => 2 | .bulk => 3

/-- The classes that have traffic waiting at an output, highest priority first. -/
def waitingClasses (w : List (Fin 8 × BlvClass)) : List Nat :=
  [0, 1, 2, 3].filter fun c => w.any fun x => BlvClass.prio x.2 == c

/-- The class granted (R15): one that has waited through GUARD grants, the highest such first, else the
highest-priority class waiting. -/
def grantClass (o : SwOut) (guard : Nat) (w : List (Fin 8 × BlvClass)) : Option Nat :=
  match (waitingClasses w).find? fun c => ix o.waited c 0 ≥ guard with
  | some c => some c
  | none => (waitingClasses w).head?

/-- The source granted within a class: the next after the last one served, in round robin (R15). -/
def grantSrc (o : SwOut) (c : Nat) (w : List (Fin 8 × BlvClass)) : Option Nat :=
  let srcs := (List.range 8).filter fun d => w.any fun x => BlvClass.prio x.2 == c && x.1.val == d
  match srcs.find? fun d => ix o.lastSrc c 7 < d with
  | some d => some d
  | none => srcs.head?

/-- After a grant of class `c`, every lower class that waits has waited one grant more (R15). -/
def afterGrant (o : SwOut) (c src : Nat) (w : List (Fin 8 × BlvClass)) : SwOut :=
  { waited := (List.range 4).map fun k =>
      if k = c then 0
      else if k > c && (waitingClasses w).contains k then ix o.waited k 0 + 1
      else if (waitingClasses w).contains k then ix o.waited k 0 else 0
    lastSrc := o.lastSrc.set c src }

/-- BLV.CFG.GUARD of the switch, which lies on the Hub; 0 is treated as 1 (Table 01-9). -/
def blvGuard (s : State) : Nat := orD (get s (pBLV 0) fBLV_CFG_GUARD) 1

/-- Up to three retries of a transfer whose link CRC failed are counted (R17). -/
def countRetries (s : State) (src crcFails : Nat) : State :=
  bumpBy s (pBLV src) rBLV_RETRY_CNT (min crcFails 3)

/-- A transfer that failed four times is discarded and raises BLV_FAULT; a discarded CTRL read gives
its requester 0 with the read-error flag (R17). -/
def discardTransfer (s : State) (src : Nat) (read : Bool) : State :=
  let s1 := doubt (bump s (pBLV src) rBLV_FAIL_CNT) (pBLV src) 0 true
  if read then reply (putB s1 (pBLV src) fBLV_STAT_RD_ERR true) 0 else s1

/-- A transfer is delivered; its latency is measured, and BLV_FAULT of the link ends (log entry 6). -/
def deliverTransfer (s : State) (src : Nat) (read : Bool) (latPs : Nat) : State :=
  let s1 := wrN s (pBLV src) rBLV_LAT (satU 16 latPs)
  let s2 := maxF s1 (pBLV src) fBLV_LAT_MAX_PS latPs
  let s3 := putB s2 (pBLV src) fBLV_STAT_LINK_UP true
  let s4 := if read then putB s3 (pBLV src) fBLV_STAT_RD_ERR false else s3
  if doubts s4 (pBLV src) 0 then doubt s4 (pBLV src) 0 false else s4

/-- BLV_TRANSFER (R15–R17): the switch output towards `dst` grants one of the waiting transfers, which
is delivered, or discarded when its link CRC fails four times. `read` says that the granted transfer
is a CTRL read. -/
def execBlvTransfer (dst : Fin 8) (waiting : List (Fin 8 × BlvClass)) (read : Bool) (crcFails latPs : Nat)
    (s : State) : Host.Outcome State Fault Refusal :=
  let o := ix s.fab.outs dst ⟨[], []⟩
  match grantClass o (blvGuard s) waiting with
  | none => .next s
  | some c =>
    match grantSrc o c waiting with
    | none => .next s
    | some src =>
      let ok := decide (crcFails < 4)
      let isRead := read && c == 1
      let s1 := { s with fab := { s.fab with
        outs := s.fab.outs.set dst (afterGrant o c src waiting)
        last := s.fab.last.set dst (some ⟨src, c, ok⟩) } }
      let s2 := countRetries s1 src crcFails
      .next (if ok then deliverTransfer s2 src isRead latPs else discardTransfer s2 src isRead)

/-! ### Crossings and island monitors (R13, R14) -/

/-- ISL_XING (R14): the handshake into an island has not completed within 1,000 ns. The crossing holds
its data, the doubt rises and the stall is counted. -/
def execIslXing (die : Fin 8) (toIsl : Fin 8) (s : State) : Host.Outcome State Fault Refusal :=
  if dieHasRegs die && decide (toIsl.val < islCount die) then
    let s1 := { s with fab := { s.fab with stall := s.fab.stall.set die true } }
    .next (doubt (bump s1 (pBLV die) rBLV_STALL_CNT) (pISL die) 2 true)
  else .next s

/-- The island monitors' readings of a die, shown in ISL.MONn. -/
def showMon (s : State) (die : Nat) (mv : List Nat) (temp : List Int) : State :=
  (List.range (islCount die)).foldl (fun s n =>
    wrN s (pISL die) (rISL_MON n)
      (satU 12 (ix mv n 0) + unsign 8 (satS 8 (ix temp n 0)) * 0x10000 + 0x1000000)) s

/-- A neighbour voltage difference exceeds ISL.DV_LIMIT (R13). -/
def voltApart (s : State) (die : Nat) (mv : List Nat) (nb : List (Fin 8 × Fin 8)) : Bool :=
  nb.any fun x =>
    let a := ix mv x.1 0
    let b := ix mv x.2 0
    get s (pISL die) fISL_DV_LIMIT_MV < (if a < b then b - a else a - b)

/-- ISL_MONITOR_JUDGE (R13): over each 1 ms the monitors of a die show their readings and judge the
voltage differences of the neighbouring islands and, on the Timebase, the temperature spread between
dies; ISL_XING falls when no crossing of the die stalled in that time. -/
def execIslMonitorJudge (die : Fin 8) (mv : List Nat) (temp : List Int)
    (neighbours : List (Fin 8 × Fin 8)) (xlat spread : Nat) (s : State) :
    Host.Outcome State Fault Refusal :=
  if dieHasRegs die then
    let p := pISL die
    let s1 := maxF (showMon s die mv temp) p fISL_XLAT_MAX_DNS xlat
    let s2 := doubt s1 p 0 (voltApart s die mv neighbours)
    let s3 := if die.val = 1 then
        doubt (put s2 p fISL_TEMP_SPREAD_C (satU 8 spread)) p 1 (decide (get s p fISL_DT_LIMIT_C < spread))
      else s2
    let s4 := if ix s.fab.stall die false then s3 else doubt s3 p 2 false
    .next { s4 with fab := { s4.fab with stall := s4.fab.stall.set die false } }
  else .next s

end Sys2Proof.Machine
end

