-- ==== Sys2Proof/Machine/Record.lean ====
section
/-! DEFINITION. The event recorder: staging, the store and its writer, software records and the clear
(spec/18). Staging itself is `stage` of Ops, since every block writes records. -/

namespace Sys2Proof.Machine

/-- Slots of the store (R360). -/
abbrev recSlots : Nat := 262144

/-- REC_STAGE (R368): a record of a page is staged in its die's buffer, under R364 and R367. -/
def execRecStage (die : Fin 8) (page : Fin 512) (code : Fin 4096) (sev : Fin 4) (a0 a1 : Word)
    (cont : Option (Word × Word)) (s : State) : Host.Outcome State Fault Refusal :=
  let p : Pg := ⟨die, page⟩
  match pageKind p with
  | none => .next s
  | some _ =>
    .next (stage s (dieBuf die) false
      ⟨mkRec s p code sev false a0.toNat a1.toNat, cont.map fun c => (c.1.toNat, c.2.toNat)⟩)

/-! ### The store (R362, R369) -/

/-- The severity of the record in a slot. -/
def RecSlot.sev (x : RecSlot) : Nat := codeSev x.r.code

/-- The SEQ after one: 0 follows 0xFFFF_FFFE, and is the first (R362). -/
def nextSeq (n : Nat) : Nat := if n ≥ 0xFFFFFFFE then 0 else n + 1

/-- The lowest-numbered empty slot from `n` on. -/
def lowestEmpty : List (Nat × RecSlot) → Nat → Nat
  | [], n => n
  | (k, _) :: t, n => if k = n then lowestEmpty t (n + 1) else n

/-- One SEQ is older than another (R362). -/
def seqOlder (a b : Nat) : Bool := signed 32 (unsign 32 ((a : Int) - b)) < 0

/-- The slot of the oldest record of a severity. -/
def oldestOf (m : List (Nat × RecSlot)) (v : Nat) : Option (Nat × RecSlot) :=
  m.foldl (fun b x =>
    if x.2.sev != v then b
    else match b with
      | none => some x
      | some y => if seqOlder x.2.seq y.2.seq then some x else b) none

/-- The slot a record of severity `sev` takes (R369): the lowest empty one, or that of the oldest record of the
lowest severity that the store holds, where it is not above. -/
def slotFor (m : List (Nat × RecSlot)) (sev : Nat) : Option Nat :=
  if m.length < recSlots then some (lowestEmpty m 0)
  else match [0, 1, 2, 3].find? fun v => m.any fun x => x.2.sev == v with
    | none => none
    | some v => if v ≤ sev then (oldestOf m v).map fun x => x.1 else none

/-- USED, SEV_CNTn, EMPTY and FULL show the store; reaching FULL sets INT_RAW[1]. -/
def showStore (s : State) : State :=
  let m := s.recd.store
  let was := flag s pREC fREC_STAT_FULL
  let full := decide (m.length ≥ recSlots)
  let s1 := put s pREC fREC_USED_CNT m.length
  let s2 := [0, 1, 2, 3].foldl (fun s v => put s pREC (fREC_SEV_CNT_CNT v) (m.countP fun x => x.2.sev == v)) s1
  let s3 := putB (putB s2 pREC fREC_STAT_EMPTY (m.length == 0)) pREC fREC_STAT_FULL full
  raiseIf s3 (full && !was) pREC 1

/-- Write one record to a slot: the next SEQ, the slot, the recent index, HEAD_SEQ and LAST_SLOT (R369). -/
def writeSlot (s : State) (slot : Nat) (r : Recd) : State :=
  let n := nextSeq (rdN s pREC rREC_HEAD_SEQ)
  let s1 := { s with recd := { s.recd with store := amSet slot ⟨n, r⟩ s.recd.store,
                                           index := amSet (n % 1024) (n, slot) s.recd.index } }
  put (wrN s1 pREC rREC_HEAD_SEQ n) pREC fREC_LAST_SLOT_SLOT slot

/-- The second record of a pair (R363). -/
def contOf (r : Recd) (c : Nat × Nat) : Recd :=
  { r with code := r.code + (1 - r.code / 0x1000 % 2) * 0x1000, a0 := c.1, a1 := c.2 }

/-- An entry that the store has no slot for is dropped (R369). -/
def storeDrop (s : State) (e : RecEntry) : State := raise (bumpBy s pREC (rREC_DROP_CNT e.sev) e.size) pREC 0

/-- The writer writes an entry; a pair takes both its slots before either is written, or neither (R363, R369). -/
def writeEntry (s : State) (e : RecEntry) : State :=
  match slotFor s.recd.store e.sev with
  | none => storeDrop s e
  | some a =>
    match e.cont with
    | none => showStore (writeSlot s a e.r)
    | some c =>
      -- the second slot is chosen as if the first already held this pair's first record
      match slotFor (amSet a ⟨nextSeq (rdN s pREC rREC_HEAD_SEQ), e.r⟩ s.recd.store) e.sev with
      | none => storeDrop s e
      | some b => if a = b then storeDrop s e else showStore (writeSlot (writeSlot s a e.r) b (contOf e.r c))

/-- The highest severity in a mask. -/
def topSev (m : Nat) : Nat := if bitOf m 3 then 3 else if bitOf m 2 then 2 else if bitOf m 1 then 1 else 0

/-- The REC_LOST record of a buffer (R368): the die and page of the last record lost, and the time of now. -/
def lostRecord (s : State) (b : StageBuf) : Recd :=
  let r := mkRec s pREC 0x111 (topSev b.lostMask) false b.lost b.lostMask
  { r with src := b.lostSrc / 16 * 16 + scaleGen s }

/-- The buffer the writer serves next (R366): in round robin from `next`, one whose oldest record is CRITICAL
first. -/
def nextBuf (s : State) : Option Nat :=
  let order := (List.range 14).map fun k => (s.recd.next + k) % 14
  match order.find? fun i => ((bufOf s i).q.head?.map fun e => e.sev == 3) == some true with
  | some i => some i
  | none => order.find? fun i => (bufOf s i).q ≠ []

/-- REC_WRITE (R369): the writer takes the next staged record and writes it; a buffer that lost records
writes REC_LOST first (R368). After a reset the RESET record comes first (R373). Nothing is written during a
clear (R370) or while a reset is held, so that one RESET record names the harshest of causes that meet (R453). -/
def execRecWrite (s : State) : Host.Outcome State Fault Refusal :=
  if inReset s then .next s
  else match s.recd.first, s.recd.clearing, nextBuf s with
  | some e, _, _ => .next (writeEntry { s with recd := { s.recd with first := none } } e)
  | none, none, some i =>
    let b := bufOf s i
    if b.lost > 0 then
      let r := lostRecord s b
      .next (writeEntry (updBuf s i fun b => { b with lost := 0, lostMask := 0 }) ⟨r, none⟩)
    else match b.q with
      | [] => .next s
      | e :: t =>
        let s1 := updBuf s i fun b => { b with q := t }
        .next (writeEntry { s1 with recd := { s1.recd with next := (i + 1) % 14 } } e)
  | _, _, _ => .next s

/-- REPEATED (R367): COAL_WIN passes with no repeat and the open run of a source closes. -/
def execRepeated (src : Fin 14) (s : State) : Host.Outcome State Fault Refusal :=
  match (bufOf s src).run with
  | none => .next s
  | some r => .next (closeRun (advMono s (r.last.mono + coalWin s)) src)

/-! ### Software records (R365) -/

/-- A write of SW_CMD by a requester: the fields are stored, and GO stages the record or refuses it. -/
def swCmd (s : State) (r : Requester) (code sev : Nat) (go : Bool) : State :=
  let q := reqCode r
  let s1 := putQ (putQ s q pREC fREC_SW_CMD_CODE code) q pREC fREC_SW_CMD_SEV sev
  if !go then s1
  else if isApp r && sev % 4 == 3 then raise (putQ s1 q pREC fREC_SW_CMD_ERR 2) pREC 3
  else
    let e := mkRec s1 pREC (0x800 + q * 0x100 + code % 256) (sev % 4) false
      (rdB s1 q pREC rREC_SW_ARG0) (rdB s1 q pREC rREC_SW_ARG1)
    stage (putQ s1 q pREC fREC_SW_CMD_ERR 0) (reqBuf r) false ⟨e, none⟩

/-- SW_RECORD (R365): a write of REC.SW_CMD.GO. -/
def execSwRecord (r : Requester) (code : BitVec 8) (sev : Fin 4) (s : State) : Host.Outcome State Fault Refusal :=
  .next (onWrite s r pREC fun s => swCmd s r code.toNat sev.val true)

/-! ### The clear (R370) -/

/-- A write of REC.CTRL: CLR_SEV is stored and CLEAR starts a clear; an application hart's CLEAR is discarded
and counted. -/
def recCtrl (s : State) (r : Requester) (clear : Bool) (sev : Nat) : State :=
  if clear && isApp r then deny s r 1
  else
    let s1 := put s pREC fREC_CTRL_CLR_SEV sev
    if clear && s.recd.clearing.isNone then
      putB { s1 with recd := { s1.recd with clearing := some (reqCode r, sev) } } pREC fREC_STAT_CLEARING true
    else s1

/-- REC_CLEAR (R370): a write of REC.CTRL with CLEAR. -/
def execRecClear (r : Requester) (sev : Fin 4) (s : State) : Host.Outcome State Fault Refusal :=
  .next (onWrite s r pREC fun s => recCtrl s r true sev.val)

/-- REC_CLEARED (R370): the clear completes and the writer writes its record. -/
def execRecCleared (s : State) : Host.Outcome State Fault Refusal :=
  match s.recd.clearing with
  | none => .next s
  | some (q, sev) =>
    let kept := s.recd.store.filter fun x => decide (x.2.sev > sev)
    let gone := s.recd.store.length - kept.length
    let s1 := showStore { s with recd := { s.recd with store := kept, clearing := none } }
    let s2 := putB s1 pREC fREC_STAT_CLEARING false
    .next (raise (writeEntry s2 ⟨mkRec s2 pREC 0x112 2 false (q + sev * 16) gone, none⟩) pREC 2)

/-- PIN, WARM and GUARD empty the staging buffers uncounted; an ISLAND reset keeps them (Table 18-5). -/
def stagingLost (s : State) : State :=
  { s with recd := { s.recd with bufs := List.replicate 14 StageBuf.empty, next := 0, clearing := none, first := none } }

/-! ### The window (R360, R369) -/

/-- A word of a record as the store shows it (Table 18-1); an empty slot reads SEQ 0xFFFF_FFFF and zeros. -/
def recWord (x : Option RecSlot) (k : Nat) : Nat :=
  match x with
  | none => if k = 0 then 0xFFFFFFFF else 0
  | some y => ix [y.seq, y.r.src + y.r.code * 0x10000, y.r.mono % 0x100000000, y.r.mono / 0x100000000,
      y.r.sec, y.r.ns, y.r.a0, y.r.a1] k 0

/-- A word of the recorder window: the store, then the recent index at byte 0x80_0000. -/
def recWindow (s : State) (off : Nat) : Nat :=
  if off < 0x800000 then recWord (amGet? (off / 32) s.recd.store) (off % 32 / 4)
  else match amGet? ((off - 0x800000) / 8) s.recd.index with
    | none => 0
    | some (n, slot) => if off % 8 < 4 then n else slot + 0x80000000

end Sys2Proof.Machine
end

