-- ==== Sys2Proof/Machine/Snapshot.lean ====
section
/-! DEFINITION. Snapshot captures (spec/08, R165–R168). -/

namespace Sys2Proof.Machine

/-- One sample period of 1/32.736 MHz in 2⁻¹⁶ ns, rounded up. -/
abbrev samplePeriod : Nat := 2001956

/-- The samples, of one byte each, of a millisecond (R117, R165). -/
abbrev samplesPerMs : Nat := 32736

/-- The slot is held or read by an offline job. -/
def slotBusy (s : State) (k : Nat) : Bool :=
  flag s pSNP (fSNP_SLOT_STAT_HOLD k) || flag s pSNP (fSNP_SLOT_STAT_IN_USE k)

/-- The target is too near or has been reached (Table 08-2, reason 2). -/
def targetPassed (s : State) (target : PC64) : Bool :=
  let lead := pcDiff target (pcAt s 2)
  if gfOn s then decide (lead ≤ 0) else decide (lead < 2100000 * 65536)

/-- Table 08-2: the lowest reason to refuse a capture; 0 where it is armed. -/
def armRefusal (s : State) (slot len : Nat) (target : PC64) (auto : Bool) : Nat :=
  if !feat s 7 then 1
  else if !auto && targetPassed s target then 2
  else if (if auto then slotBusy s 0 && slotBusy s 1 else slotBusy s slot) then 3
  else if !auto && flag s pSNP fSNP_CFG_AUTO then 4
  else if len = 0 ∨ 64 < len then 5
  else if s.rad.arm.isSome then 6
  else if flag s pOVN fOVN_STAT_BACKUP then 7
  else 0

/-- A capture is armed, or refused (R165). -/
def armCapture (s : State) (slot len : Nat) (target : PC64) (auto : Bool) : State :=
  let why := armRefusal s slot len target auto
  if why ≠ 0 then
    let s1 := raise (put s pSNP fSNP_STAT_REASON why) pSNP 3
    if auto then bump s1 pSNP rSNP_SKIP_CNT else s1
  else
    let was := get s pSNP (fSNP_SLOT_STAT_STATE slot)
    let s1 := updRad s fun r => { r with arm := some ⟨slot, len, target, auto, was, none⟩ }
    raise (put (putB s1 pSNP fSNP_STAT_ARMED true) pSNP (fSNP_SLOT_STAT_STATE slot) 1) pSNP 2

/-- No capture is armed or running: the window closes and the AGC goes on (R166). -/
def clearArm (s : State) : State :=
  let s1 := updRad s fun r => { r with arm := none, window := false, agcHeld := false }
  gfFollow (putB (putB s1 pSNP fSNP_STAT_ARMED false) pSNP fSNP_STAT_CAPTURING false)

/-- The bytes of a slot of the snapshot buffer from its first. -/
def storeSamples (s : State) (slot : Nat) (l : List Byte) : State :=
  updRad s fun r =>
    { r with store := (l.foldl (fun (a : List (Nat × Byte) × Nat) b =>
        (if b = 0 then amErase a.2 a.1 else amSet a.2 b a.1, a.2 + 1))
        (r.store, slot * 0x200000)).1 }

/-- A running capture ends FULL with the samples taken, BAD where it was spoilt (R166, R167). -/
def endCapture (s : State) (a : SnapArm) (samples : List Byte) (bad : Bool) : State :=
  let l := samples.take (a.len * samplesPerMs)
  let ms := if bad then l.length / samplesPerMs else a.len
  let s1 := storeSamples s a.slot l
  let s2 := put (put s1 pSNP (fSNP_SLOT_STAT_LEN_MS a.slot) ms) pSNP (fSNP_SLOT_STAT_STATE a.slot) 3
  let s3 := putB s2 pSNP (fSNP_SLOT_STAT_BAD a.slot) bad
  let s4 := if a.auto then put s3 pSNP fSNP_STAT_NEXT_SLOT (1 - a.slot) else s3
  raiseIf (raise (bump (clearArm s4) pSNP rSNP_CAP_CNT) pSNP 0) bad pSNP 1

/-- An event ends the capture: one that runs ends bad, with the samples `taken` so far (R167). -/
def spoilCapture (s : State) (taken : List Byte) : State :=
  match s.rad.arm with
  | some a => if a.first.isSome then endCapture s a taken true else s
  | none => s

/-- An armed capture that has not begun is disarmed; its slot keeps what it held (R167). -/
def disarm (s : State) (a : SnapArm) : State :=
  clearArm (put s pSNP (fSNP_SLOT_STAT_STATE a.slot) a.was)

/-- A write of SNP.CTRL. -/
def snpCtrl (s : State) (n : Nat) (taken : List Byte) : State :=
  let hold := fSNP_CTRL_HOLD.of n
  let rel := fSNP_CTRL_RELEASE.of n
  let mark := fun (s : State) (k : Nat) =>
    let s1 := if bitOf hold k then putB s pSNP (fSNP_SLOT_STAT_HOLD k) true else s
    if bitOf rel k then putB s1 pSNP (fSNP_SLOT_STAT_HOLD k) false else s1
  let s1 := mark (mark s 0) 1
  let s2 := if fSNP_CTRL_CANCEL.of n = 1 then
      match s1.rad.arm with
      | none => s1
      | some a => if a.first.isSome then endCapture s1 a taken true else disarm s1 a
    else s1
  if fSNP_CTRL_ARM.of n = 1 then
    armCapture s2 (get s2 pSNP fSNP_ARM_CFG_SLOT) (get s2 pSNP fSNP_ARM_CFG_LEN_MS)
      (BitVec.ofNat 64 (rd64 s2 pSNP rSNP_AT_LO rSNP_AT_HI)) false
  else s2

/-- SNP_ARM (R165): a write of SNP.CTRL with ARM. -/
def execSnpArm (r : Requester) (v : Word) (s : State) : Host.Outcome State Fault Refusal :=
  .next (onWrite s r pSNP fun s => snpCtrl s v.toNat [])

/-- SNP_CANCEL (R167): a write of SNP.CTRL with CANCEL. The command carries the samples a running capture
has taken. -/
def execSnpCancel (r : Requester) (v : Word) (taken : List Byte) (s : State) :
    Host.Outcome State Fault Refusal :=
  .next (onWrite s r pSNP fun s => snpCtrl s v.toNat taken)

/-- SNP_HOLD (R167): a write of SNP.CTRL with HOLD. -/
def execSnpHold (r : Requester) (v : Word) (s : State) : Host.Outcome State Fault Refusal :=
  .next (onWrite s r pSNP fun s => snpCtrl s v.toNat [])

/-- SNP_RELEASE (R167): a write of SNP.CTRL with RELEASE. -/
def execSnpRelease (r : Requester) (v : Word) (s : State) : Host.Outcome State Fault Refusal :=
  .next (onWrite s r pSNP fun s => snpCtrl s v.toNat [])

/-- PERIOD.SEC; 0 is treated as 1. -/
def snpPeriod (s : State) : Nat := orD (get s pSNP fSNP_PERIOD_SEC) 1

/-- The target of the periodic capture of second S, in T96 (R165). -/
def snpTarget (s : State) (sec : Nat) : Nat := sec * secU + get s pSNP fSNP_PERIOD_PHASE_MS * 65536000000

/-- The first S whose target lies at least 10 ms ahead (R165). -/
def snpFirst (s : State) : Nat :=
  let p := snpPeriod s
  let t := t96 s + 10 * 65536000000
  let c := t / secU / p * p
  if t ≤ snpTarget s c then c else c + p

/-- The S of the next periodic capture: the one that follows the last, while the period and the scale
still lead to it. -/
def snpNext (s : State) : Nat :=
  let n := s.rad.nextSec
  let t := snpTarget s n
  if n ≠ 0 ∧ n % snpPeriod s = 0 ∧ t96 s < t ∧ t ≤ t96 s + (snpPeriod s + 1) * secU then n
  else snpFirst s

/-- The slot of the next periodic capture: NEXT_SLOT, or the other where that one is busy. -/
def snpSlot (s : State) : Nat :=
  let k := get s pSNP fSNP_STAT_NEXT_SLOT
  if slotBusy s k then 1 - k else k

/-- A periodic capture is armed or running. -/
def snpAutoBusy (s : State) : Bool := s.rad.arm.any fun a => a.auto

/-- SNP_AUTO_ARM (R165): with AUTO = 1 the block arms the next periodic capture, 1 s before its target or
at the end of the one before. -/
def execSnpAutoArm (s : State) : Host.Outcome State Fault Refusal :=
  if !pageEn s pSNP || !flag s pSNP fSNP_CFG_AUTO || snpAutoBusy s then .next s
  else
    let n := snpNext s
    let t := snpTarget s n
    let s1 := advT96 s (t - secU)
    let s2 := updRad s1 fun r => { r with nextSec := n + snpPeriod s }
    .next (armCapture s2 (snpSlot s2) (get s2 pSNP fSNP_CFG_LEN_MS) (pcOfT96 s2 t) true)

/-- SNP_WINDOW_OPEN (R166): with GF off, 2.1 ms before the target the capture window opens and GF turns
on. -/
def execSnpWindowOpen (s : State) : Host.Outcome State Fault Refusal :=
  match s.rad.arm with
  | none => .next s
  | some a =>
    if a.first.isSome || gfOn s then .next s
    else
      let s1 := advPc s (a.target - BitVec.ofNat 64 (2100000 * 65536))
      .next (gfFollow (updRad s1 fun r => { r with window := true }))

/-- The header of a slot, for a first sample at `pc` (R168). -/
def snapHeader (s : State) (k : Nat) (pc : PC64) : State :=
  let t := t96OfPc s pc
  let s1 := wr64 s pSNP (rSNP_SLOT_PC_LO k) (rSNP_SLOT_PC_HI k) pc.toNat
  let s2 := wrN s1 pSNP (rSNP_SLOT_SEC_LO k) (t96Sec t)
  let s3 := wrN s2 pSNP (rSNP_SLOT_SEC_HI k) (t96Sec t / 0x100000000 % 0x10000 + scaleGen s * 0x10000)
  let s4 := wrN s3 pSNP (rSNP_SLOT_NS k) (t96Ns t)
  let s5 := wrN s4 pSNP (rSNP_SLOT_FREQ k) (s.rad.mon.view.elim 0 fun v => v.1.freq)
  wrN s5 pSNP (rSNP_SLOT_RF k)
    (get s pGRX fGRX_AGC_GAIN + get s pGRX fGRX_AGC_CLIP * 0x100 + get s pGRX fGRX_CFG_BW * 0x10000 +
      get s pGRX fGRX_ANT_STAT_STATE * 0x40000 + ofBool (doubts s pOVN 0) * 0x100000)

/-- SNP_CAPTURE_START (R166, R167): the first sample at or after the target, `late` after it, starts the
capture; a FULL slot is overwritten. -/
def execSnpCaptureStart (late : Nat) (s : State) : Host.Outcome State Fault Refusal :=
  match s.rad.arm with
  | none => .next s
  | some a =>
    if a.first.isSome || !samplesFlow s then .next s
    else
      let at' := a.target + BitVec.ofNat 64 (min late (samplePeriod - 1))
      let s1 := advPc s at'
      let pc := if pcDiff at' (pcNow s1) < 0 then pcNow s1 else at'
      let hold := flag s1 pSNP fSNP_CFG_AGC_HOLD
      let s2 := updRad s1 fun r => { r with arm := some { a with first := some pc }, agcHeld := hold }
      let gen := get s2 pSNP (fSNP_SLOT_STAT_GEN a.slot)
      let s3 := if a.was = 3 then put s2 pSNP (fSNP_SLOT_STAT_GEN a.slot) (gen + 1) else s2
      let s4 := put (put s3 pSNP (fSNP_SLOT_STAT_LEN_MS a.slot) 0) pSNP (fSNP_SLOT_STAT_STATE a.slot) 2
      let s5 := putB (putB s4 pSNP (fSNP_SLOT_STAT_BAD a.slot) false) pSNP fSNP_STAT_ARMED false
      .next (snapHeader (putB s5 pSNP fSNP_STAT_CAPTURING true) a.slot pc)

/-- SNP_CAPTURE_END (R166): after the last sample the capture ends FULL. The command carries the
samples. -/
def execSnpCaptureEnd (samples : List Byte) (s : State) : Host.Outcome State Fault Refusal :=
  match s.rad.arm with
  | none => .next s
  | some a =>
    match a.first with
    | none => .next s
    | some pc =>
      let s1 := advPc s (pc + BitVec.ofNat 64 (a.len * 65536000000))
      .next (endCapture s1 a samples false)

/-- PLL_UNLOCK (R120, R167): the RF synthesizer loses lock; samples are withheld and a running capture
ends bad, with the samples `taken` so far. -/
def execPllUnlock (taken : List Byte) (s : State) : Host.Outcome State Fault Refusal :=
  if gfOn s && flag s pGRX fGRX_STAT_PLL_LOCK then
    let s1 := raise (putB s pGRX fGRX_STAT_PLL_LOCK false) pGRX 3
    .next (spoilCapture (doubt s1 pGRX 2 true) taken)
  else .next s

end Sys2Proof.Machine
end

