-- ==== Sys2Proof/Machine/Hif.lean ====
section
/-! DEFINITION. The PCIe endpoint, its interrupts, the DMA rings and the console (spec/21, R413–R427, R435). -/

namespace Sys2Proof.Machine

/-- Change what the host interface holds. -/
def updHif (s : State) (f : Hif → Hif) : State := { s with hif := f s.hif }

/-- A ring. -/
def ring (s : State) (n : Nat) : Ring := ix s.rings n Ring.cold

/-! ### Rings that stop (R427) -/

/-- An error stops a ring at once: no further descriptor is written back. -/
def ringStop (s : State) (n err : Nat) : State :=
  let s1 := put (putB s pHIF (fHIF_RING_STAT_RUN n) false) pHIF (fHIF_RING_STAT_ERR n) err
  raise (updRing s1 n fun _ => ⟨[], [], 0, 0⟩) pHIF 19

/-- A ring is owned by the harts. -/
def hartRing (s : State) (n : Nat) : Bool := flag s pHIF (fHIF_RING_CFG_OWNER n)

/-! ### The link (R416) -/

/-- PCIE_LINK_UP (R416): the link comes up; or, while it is up, its speed or what the host has set in configuration
space (Bus Master Enable, MSI-X Enable and Function Mask) changes (log entry 21). -/
def execPcieLinkUp (gen width : Fin 5) (bme msix fmask : Bool) (s : State) : Host.Outcome State Fault Refusal :=
  let was := flag s pHIF fHIF_STAT_LINK_UP
  let s1 := put (put (putB s pHIF fHIF_STAT_LINK_UP true) pHIF fHIF_STAT_GEN gen) pHIF fHIF_STAT_WIDTH width
  let s2 := putB (putB s1 pHIF fHIF_STAT_BME bme) pHIF fHIF_STAT_MSIX_EN msix
  .next (raiseIf (updHif s2 fun h => { h with fmask := fmask, sent := [] }) (!was) pHIF 17)

/-- The link is lost: every host ring that runs stops with ERR 4. -/
def linkLost (s : State) : State :=
  if flag s pHIF fHIF_STAT_LINK_UP then
    let s1 := wrN s pHIF rHIF_STAT 0
    let s2 := (List.range 16).foldl (fun s n =>
      if flag s pHIF (fHIF_RING_STAT_RUN n) && !hartRing s n then ringStop s n 4 else s) s1
    raise s2 pHIF 18
  else s

/-- PCIE_LINK_DOWN (R416). -/
def execPcieLinkDown (s : State) : Host.Outcome State Fault Refusal := .next (linkLost s)

/-! ### Messages (R417, R418) -/

/-- A vector is masked by its Mask bit or the Function Mask. -/
def vecMasked (s : State) (v : Nat) : Bool := bitOf s.hif.masked v || s.hif.fmask

/-- A vector's message is sent, or its PBA bit set; none with MSI-X disabled. -/
def vecSend (s : State) (v : Nat) : State :=
  if !flag s pHIF fHIF_STAT_MSIX_EN then s
  else if vecMasked s v then updHif s fun h => { h with pba := setBit h.pba v true }
  else updHif s fun h => { h with sent := h.sent ++ [v] }

/-- MSIX_SEND (R417): the level of a vector rises. -/
def execMsixSend (v : Fin 64) (s0 : State) : Host.Outcome State Fault Refusal :=
  let s := updHif s0 fun h => { h with sent := [] }
  if vecLevel s v && !bitOf s.hif.level v then
    .next (vecSend (updHif s fun h => { h with level := setBit h.level v true }) v)
  else .next s

/-- A write of EOI. -/
def eoiWrite (s : State) (v : Nat) : State := if vecLevel s v then vecSend s v else s

/-- EOI (R418): a vector's message is sent again if its level is still 1. -/
def execEoi (r : Requester) (v : Fin 64) (s : State) : Host.Outcome State Fault Refusal :=
  .next (onWrite (updHif s fun h => { h with sent := [] }) r pHIF fun s => eoiWrite s v)

/-- Pending messages of vectors that are masked no more leave the PBA, and are sent where the level still
stands. -/
def pbaSend (s : State) : State :=
  (List.range 64).foldl (fun s v =>
    if bitOf s.hif.pba v && !vecMasked s v then
      let s1 := updHif s fun h => { h with pba := setBit h.pba v false }
      if vecLevel s v then vecSend s1 v else s1
    else s) s

/-- MSIX_MASK_CLEAR (R417): the host clears a vector's Mask bit, or the Function Mask. -/
def execMsixMaskClear (v : Option (Fin 64)) (s0 : State) : Host.Outcome State Fault Refusal :=
  let s := updHif s0 fun h => { h with sent := [] }
  match v with
  | some v => .next (pbaSend (updHif s fun h => { h with masked := setBit h.masked v false }))
  | none => .next (pbaSend (updHif s fun h => { h with fmask := false }))

/-! ### The hart doorbell and the console (R420, R435) -/

/-- A hart's write of HDB. -/
def hdbWrite (s : State) (r : Requester) (msg : Nat) : State :=
  match r with
  | .host => s
  | .hart h =>
    let full := bitOf (rdN s pHIF rINT_RAW) 16
    let s1 := put (put s pHIF fHIF_HDB_MSG msg) pHIF fHIF_HDB_HART h
    raise (if full then bump s1 pHIF rHIF_HDB_OVR_CNT else s1) pHIF 16

/-- HDB (R420): a write of HIF.HDB; a host's is discarded. -/
def execHdb (r : Requester) (msg : BitVec 24) (s : State) : Host.Outcome State Fault Refusal :=
  .next (onWrite s r pHIF fun s => hdbWrite s r msg.toNat)

/-- CON_STAT shows the FIFOs. -/
def showCon (s : State) : State :=
  put (put s pHIF fHIF_CON_STAT_TX_LVL s.hif.tx.length) pHIF fHIF_CON_STAT_RX_LVL s.hif.rx.length

/-- Bytes that have left CON_TX by now: ten bits each at 115,200 Bd. -/
def conDrain (s : State) : State :=
  let now := mono s
  let n := (now - s.hif.txFrom) * 115200 / 10000000000
  let k := min n s.hif.tx.length
  let last := s.hif.txFrom + (k * 10000000000 + 115199) / 115200
  showCon (updHif s fun h => { h with tx := h.tx.drop k, txFrom := if k < h.tx.length then last else now })

/-- A byte written to CON_DATA: queued, or discarded when the FIFO is full. -/
def conWrite (s0 : State) (b : Byte) : State :=
  let s := conDrain s0
  if s.hif.tx.length < 64 then showCon (updHif s fun h => { h with tx := h.tx ++ [b] }) else s

/-- CON_DATA_WRITE (R435). -/
def execConDataWrite (r : Requester) (b : Byte) (s : State) : Host.Outcome State Fault Refusal :=
  .next (onWrite s r pHIF fun s => conWrite s b)

/-- A read of CON_DATA: the oldest received byte; what an empty FIFO reads as is open (log entry 3). -/
def conRead (s : State) : State × Nat :=
  match s.hif.rx with
  | b :: t => (showCon (updHif s fun h => { h with rx := t }), b.toNat)
  | [] => (drawn s, freeVal s 41 % 256)

/-- CON_DATA_READ (R435). -/
def execConDataRead (r : Requester) (s : State) : Host.Outcome State Fault Refusal :=
  .next (onRead s r pHIF fun s =>
    let a := conRead s
    reply a.1 a.2)

/-- CON_RX_BYTE (R435): a byte arrives; a full FIFO loses it. -/
def execConRxByte (b : Byte) (s : State) : Host.Outcome State Fault Refusal :=
  if s.hif.rx.length < 64 then .next (showCon (updHif s fun h => { h with rx := h.rx ++ [b] })) else .next s

/-! ### Rings (R421–R427) -/

/-- The descriptors of a ring. -/
def ringSize (s : State) (n : Nat) : Nat := 2 ^ get s pHIF (fHIF_RING_CFG_LOG2_SIZE n)

/-- The address of a ring. -/
def ringBase (s : State) (n : Nat) : Nat := rd64 s pHIF (rHIF_RING_BASE_LO n) (rHIF_RING_BASE_HI n)

/-- A write of RINGn_CFG: EN rising enables the ring or is refused with ERR 1; EN falling stops the taking of
descriptors. -/
def ringCfg (s : State) (n v : Nat) : State :=
  let was := flag s pHIF (fHIF_RING_CFG_EN n)
  let s1 := wrN s pHIF (rHIF_RING_CFG n) (v &&& 0xFFF1F)
  let on := bitOf v 0
  if on && !was then
    let size := get s1 pHIF (fHIF_RING_CFG_LOG2_SIZE n)
    if 3 < get s1 pHIF (fHIF_RING_CFG_TYPE n) ∨ size < 4 ∨ 12 < size then ringStop s1 n 1
    else
      let s2 := wrN (wrN s1 pHIF (rHIF_RING_HEAD n) 0) pHIF (rHIF_RING_TAIL n) 0
      let s3 := put (putB s2 pHIF (fHIF_RING_STAT_RUN n) true) pHIF (fHIF_RING_STAT_ERR n) 0
      updRing s3 n fun _ => ⟨[], [], 0, 0⟩
  else if was && !on then
    let s2 := updRing s1 n fun r => { r with given := [] }
    if (ring s2 n).work = [] then putB s2 pHIF (fHIF_RING_STAT_RUN n) false else s2
  else s1

/-- RING_ENABLE (R427): a write of RINGn_CFG with EN = 1. -/
def execRingEnable (r : Requester) (n : Fin 16) (v : Word) (s : State) : Host.Outcome State Fault Refusal :=
  .next (onWrite s r pHIF fun s => ringCfg s n (setBit v.toNat 0 true))

/-- RING_DISABLE (R427): a write of RINGn_CFG with EN = 0. -/
def execRingDisable (r : Requester) (n : Fin 16) (v : Word) (s : State) : Host.Outcome State Fault Refusal :=
  .next (onWrite s r pHIF fun s => ringCfg s n (setBit v.toNat 0 false))

/-- A descriptor of words 0, 1, 2 and 4 (Table 21-2). -/
def descOf (w0 w1 w2 w4 : Nat) : Desc := ⟨w0 % 0x10000, bitOf w0 31, w1 + w2 * 0x100000000, w4⟩

/-- A descriptor of a hart ring, read from the DMA buffers. -/
def hartDesc (s : State) (a : Nat) : Desc :=
  let w (k : Nat) : Nat := natLE (readCore s (a + 4 * k) 4)
  descOf (w 0) (w 1) (w 2) (w 4)

/-- The descriptor indexes a new TAIL gives. -/
def givenIdx (s : State) (n tail : Nat) : List Nat :=
  let size := ringSize s n
  let old := get s pHIF (fHIF_RING_TAIL_IDX n)
  (List.range ((tail % size + size - old % size) % size)).map fun k => (old + k) % size

/-- A write of RINGn_TAIL: a hart ring's descriptors are read from the DMA buffers, a host ring's are what the host's
memory holds; an address of a hart ring outside the region stops it with ERR 3. -/
def ringTail (s : State) (n tail : Nat) (descs : List (Word × Word × Word × Word)) : State :=
  let idx := givenIdx s n tail
  let s1 := put s pHIF (fHIF_RING_TAIL_IDX n) tail
  if !flag s pHIF (fHIF_RING_CFG_EN n) || !flag s pHIF (fHIF_RING_STAT_RUN n) then s1
  else if hartRing s n then
    let at' := idx.map fun k => ringBase s n + 32 * k
    let ds := at'.map fun a => hartDesc s a
    if (at'.any fun a => !inDma a 32) || (ds.any fun d => !inDma d.addr d.len) then ringStop s1 n 3
    else updRing s1 n fun r => { r with given := r.given ++ ds }
  else
    let ds := (descs.take idx.length).map fun w => descOf w.1.toNat w.2.1.toNat w.2.2.1.toNat w.2.2.2.toNat
    updRing s1 n fun r => { r with given := r.given ++ ds }

/-- RING_TAIL_WRITE (R421): a write of RINGn_TAIL. For a host ring `descs` are words 0, 1, 2 and 4 of the descriptors
it gives. -/
def execRingTailWrite (r : Requester) (n : Fin 16) (tail : BitVec 12) (descs : List (Word × Word × Word × Word)) (s : State) :
    Host.Outcome State Fault Refusal :=
  .next (onWrite s r pHIF fun s => ringTail s n tail.toNat descs)

/-- What a descriptor's work leaves: the bytes for its buffer, DONE_LEN, STATUS and words 4–7. -/
structure DescEnd where
  bytes : List Byte
  len : Nat
  status : Nat
  words : List Nat
  deriving DecidableEq, Repr

/-- The two words of a 64-bit value. -/
def words64 (n : Nat) : List Nat := [n % 0x100000000, n / 0x100000000 % 0x100000000]

/-- Whole recorder slots in slot order from one on, empty slots skipped, at most `room` of them: their bytes, and the
slots examined (R424). -/
def exportSlots (s : State) (first room : Nat) : List Byte × Nat :=
  let l := s.recd.store.filter fun x => decide (first ≤ x.1)
  let t := l.take room
  let seen := if room < l.length ∨ (room = l.length ∧ 0 < room) then ((t.getLast?.map fun x => x.1).getD first) + 1 - first
    else recSlots - first
  (t.flatMap fun x => (List.range 8).flatMap fun k => bytesLE 4 (recWord (some x.2) k), seen)

/-- REC_EXP (R424). -/
def recExport (s : State) (d : Desc) : DescEnd :=
  let first := min d.w4 recSlots
  if d.len < 32 then ⟨[], 0, 1, [d.w4, 0, 0, 0]⟩
  else
    let e := exportSlots s first (d.len / 32)
    ⟨e.1, e.1.length, 0, [d.w4, e.2, 0, 0]⟩

/-- A byte of a slot of the snapshot buffer. -/
def snapByte (s : State) (k i : Nat) : Byte := (amGet? (k * 0x200000 + i) s.rad.store).getD 0

/-- The bytes of a snapshot slot's export: its header registers, then its samples (R425). -/
def snapBytes (s : State) (k : Nat) : List Byte :=
  let regs := [rSNP_SLOT_STAT k, rSNP_SLOT_PC_LO k, rSNP_SLOT_PC_HI k, rSNP_SLOT_SEC_LO k, rSNP_SLOT_SEC_HI k,
    rSNP_SLOT_NS k, rSNP_SLOT_FREQ k, rSNP_SLOT_RF k]
  (regs.flatMap fun o => bytesLE 4 (rdN s pSNP o)) ++
    (List.range (get s pSNP (fSNP_SLOT_STAT_LEN_MS k) * 32736)).map fun i => snapByte s k i

/-- SNP_EXP (R425). Nothing overwrites the slot while it is copied, so GEN is the same before and after. -/
def snapExport (s : State) (d : Desc) : DescEnd :=
  let k := d.w4 % 2
  let gen := get s pSNP (fSNP_SLOT_STAT_GEN k)
  let w4 := k + get s pSNP (fSNP_SLOT_STAT_BAD k) * 2
  if d.len < 32 + get s pSNP (fSNP_SLOT_STAT_LEN_MS k) * 32736 then ⟨[], 0, 1, [k, gen, gen, 0]⟩
  else if get s pSNP (fSNP_SLOT_STAT_STATE k) ≠ 3 then ⟨[], 0, 2, [k, gen, gen, 0]⟩
  else
    let b := snapBytes s k
    ⟨b, b.length, 0, [w4, gen, gen, 0]⟩

/-- The end of the oldest descriptor's work, where it has one. -/
def workEnd (d : Desc) : RingWork → Option DescEnd
  | .rx f =>
    some ⟨f.frame, f.frame.length, 0,
      [f.port + ofBool f.uncal * 0x100 + 2 ^ f.cls * 0x10000] ++ words64 f.stamp.toNat ++ [0]⟩
  | .tx tag (some (st, l)) => some ⟨[], d.len, 0, [st] ++ words64 l ++ [tag]⟩
  | .tx _ none => none
  | .bad => some ⟨[], d.len, 4, [0, 0, 0, 0]⟩

/-- The words of a descriptor at its write-back, word 0 with OWN = 0. -/
def descWords (d : Desc) (e : DescEnd) : List Byte :=
  ([d.len, d.addr % 0x100000000, d.addr / 0x100000000, e.len + e.status * 0x10000] ++ e.words).flatMap fun w => bytesLE 4 w

/-- A descriptor is written back: its buffer, its words, HEAD, and the report that COUNT completions make. -/
def writeBack (s : State) (n : Nat) (d : Desc) (e : DescEnd) : State :=
  let head := get s pHIF (fHIF_RING_HEAD_IDX n)
  let a := ringBase s n + 32 * head
  let now := mono s
  let s1 := if hartRing s n then writeCore (writeCore s d.addr e.bytes) a (descWords d e)
    else updHif s fun h => { h with out := [(d.addr, e.bytes), (a, descWords d e)] }
  let s2 := put s1 pHIF (fHIF_RING_HEAD_IDX n) ((head + 1) % ringSize s n)
  let s3 := updRing s2 n fun r => { r with unrep := r.unrep + 1, since := if r.unrep = 0 then now else r.since }
  let s4 := if orD (get s pHIF (fHIF_RING_COAL_COUNT n)) 1 ≤ (ring s3 n).unrep then
      raise (updRing s3 n fun r => { r with unrep := 0 }) pHIF n else s3
  if (ring s4 n).work = [] ∧ flag s4 pHIF (fHIF_RING_CFG_EN n) = false then putB s4 pHIF (fHIF_RING_STAT_RUN n) false else s4

/-- RING_DESC_DONE (R421, R422–R425): the oldest descriptor's work completes and is written back; or a DMA completion
error stops the ring with ERR 2. -/
def execRingDescDone (n : Fin 16) (ok : Bool) (s0 : State) : Host.Outcome State Fault Refusal :=
  let s := updHif s0 fun h => { h with out := [] }
  let r := ring s n
  if !flag s pHIF (fHIF_RING_STAT_RUN n) || (!hartRing s n && !flag s pHIF fHIF_STAT_BME) then .next s
  else match r.work with
    | (d, w) :: t =>
      match workEnd d w with
      | none => .next s
      | some e => if ok then .next (writeBack (updRing s n fun r => { r with work := t }) n d e) else .next (ringStop s n 2)
    | [] =>
      let ty := get s pHIF (fHIF_RING_CFG_TYPE n)
      match r.given with
      | [] => .next s
      | d :: t =>
        if ty < 2 ∨ flag s pHIF (fHIF_RING_CFG_EN n) = false then .next s
        else if !ok then .next (ringStop s n 2)
        else .next (writeBack (updRing s n fun r => { r with given := t }) n d (if ty = 2 then recExport s d else snapExport s d))

/-- RING_REPORT (R426): COAL.USEC µs have passed since the first unreported completion. -/
def execRingReport (n : Fin 16) (s : State) : Host.Outcome State Fault Refusal :=
  let u := get s pHIF (fHIF_RING_COAL_USEC n)
  let r := ring s n
  if u = 0 ∨ r.unrep = 0 then .next s
  else .next (raise (updRing (advMono s (r.since + u * 1000)) n fun r => { r with unrep := 0 }) pHIF n)

/-- The rings stop without completion, and messages and FIFOs are forgotten. -/
def hifReset (s : State) : State := { s with rings := List.replicate 16 Ring.cold, hif := Hif.cold }

end Sys2Proof.Machine
end

