-- ==== Sys2Proof/Machine/Integrity.lean ====
section
/-! DEFINITION. The integrity monitor (spec/08): the view, the checks of a solution, of every second and
of navigation subframes, exclusions, SUSPECT and its clearing. -/

namespace Sys2Proof.Machine

/-! ### The view (R155) -/

/-- INT_VIEW_RX (R155): the Radio receives the Timebase's view at a servo update. -/
def execIntViewRx (s : State) : Host.Outcome State Fault Refusal :=
  if pageOn s pINT then
    let v := s.dsc.view
    let m := mono s
    let s1 := updMon s fun x => { x with view := some (v, m) }
    .next (putB (put s1 pINT fINTM_VIEW_AGE_MS 0) pINT fINTM_STAT_VIEW_STALE false)
  else .next s

/-- INT.VIEW shows the age of the last view received in ms; 0xFFFF where none has been. -/
def showViewAge (s : State) : State :=
  put s pINT fINTM_VIEW_AGE_MS (match s.rad.mon.view with
    | none => 0xFFFF
    | some (_, t) => satU 16 ((mono s - t) / 1000000))

/-- The age of the view exceeds 250 ms. -/
def viewStale (s : State) : Bool :=
  match s.rad.mon.view with
  | none => true
  | some (_, t) => decide (t + 250000000 < mono s)

/-- VIEW_STALE (R155): the view has aged past 250 ms. -/
def execViewStale (s : State) : Host.Outcome State Fault Refusal :=
  if pageOn s pINT then
    let s1 := match s.rad.mon.view with
      | none => s
      | some (_, t) => advMono s (t + 250000001)
    .next (putB (showViewAge s1) pINT fINTM_STAT_VIEW_STALE true)
  else .next s

/-- UNC in ns as the view gives it. -/
def viewUnc (s : State) : Option Nat := s.rad.mon.view.bind fun v => v.1.unc

/-- DSC.FREQ in ppt as the view gives it. -/
def viewFreq (s : State) : Int := s.rad.mon.view.elim 0 fun v => signed 32 v.1.freq

/-- The GNSS slot is ACTIVE in the view. -/
def viewActive (s : State) : Bool := s.rad.mon.view.any fun v => v.1.slot0 == 3

/-! ### Exclusions (R157) -/

/-- EXCL_EXPIRE (R157): an exclusion ends EXCL_SEC after its last failed check; 0 is treated as 1. -/
def execExclExpire (sys : Fin 4) (prn : Nat) (s : State) : Host.Outcome State Fault Refusal :=
  match s.rad.mon.excl.find? fun e => e.1 == sys.val && e.2.1 == prn with
  | none => .next s
  | some e =>
    .next (endExclusion
      (advMono s (e.2.2 + orD (get s pINT fINTM_EXCL_CFG_EXCL_SEC) 1 * 1000000000)) sys prn)

/-- A write of INT.EXCL_CMD: SET excludes the signal, CLR ends its exclusion, and SET wins (R157). -/
def exclCmd (s : State) (n : Nat) : State :=
  let sys := fINTM_EXCL_CMD_SYS.of n
  let prn := fINTM_EXCL_CMD_PRN.of n
  let s1 := wrN s pINT rINTM_EXCL_CMD (sys + prn * 0x100)
  if fINTM_EXCL_CMD_SET.of n = 1 then exclude s1 sys prn
  else if fINTM_EXCL_CMD_CLR.of n = 1 then endExclusion s1 sys prn
  else s1

/-- EXCL_SET (R157): a write of INT.EXCL_CMD with SET. -/
def execExclSet (r : Requester) (v : Word) (s : State) : Host.Outcome State Fault Refusal :=
  .next (onWrite s r pINT fun s => exclCmd s v.toNat)

/-- EXCL_CLR (R157): a write of INT.EXCL_CMD with CLR. -/
def execExclClr (r : Requester) (v : Word) (s : State) : Host.Outcome State Fault Refusal :=
  .next (onWrite s r pINT fun s => exclCmd s v.toNat)

/-! ### Forcing and clearing (R161, R163, R164) -/

/-- A write of INT.CTRL: CLEAR ends FORCED and completes a manual clear whose count has reached 0; with
FORCE_SUSPECT in the same access SUSPECT stays set (R163, R164). -/
def intCtrl (s : State) (n : Nat) : State :=
  let force := fINTM_CTRL_FORCE_SUSPECT.of n == 1
  let s1 := if fINTM_CTRL_CLEAR.of n = 1 ∧ force = false then
      let done := suspect s && flag s pINT fINTM_CFG_CLEAR_MANUAL && clearDue s
      let s2 := setCause s 7 false
      if done then clearSuspect s2 else s2
    else s
  if force then setCause s1 7 true else s1

/-- FORCE_SUSPECT (R161): a write of INT.CTRL with FORCE_SUSPECT. -/
def execForceSuspect (r : Requester) (v : Word) (s : State) : Host.Outcome State Fault Refusal :=
  .next (onWrite s r pINT fun s => intCtrl s v.toNat)

/-- INT_CLEAR (R163): a write of INT.CTRL with CLEAR. -/
def execIntClear (r : Requester) (v : Word) (s : State) : Host.Outcome State Fault Refusal :=
  .next (onWrite s r pINT fun s => intCtrl s v.toNat)

/-- SUSPECT_CLEARED (R163): no cause has stood for CLEAR_SEC consecutive seconds, and SUSPECT clears
unless it waits for a manual CLEAR. -/
def execSuspectCleared (s : State) : Host.Outcome State Fault Refusal :=
  match s.rad.mon.quietFrom with
  | none => .next s
  | some t =>
    if !suspect s || !pageEn s pINT then .next s
    else
      let s1 := showClearLeft (advMono s (t + clearSec s * 1000000000))
      .next (if flag s pINT fINTM_CFG_CLEAR_MANUAL then s1 else clearSuspect s1)

/-! ### The checks of every second (R159) -/

/-- The mean of a history. -/
def histMean (l : List Nat) : Nat := l.foldl (· + ·) 0 / max 1 l.length

/-- Judge a 1 s mean against its baseline: the mean of the 60 s before, or the one frozen while the
cause stands. The answer is the cause and the frozen baseline (R159). `over` and `back` say whether the
mean is beyond the threshold and within half of it. -/
def judgeBase (stands : Bool) (frozen : Option Nat) (hist : List Nat) (m : Nat)
    (above back : Nat → Nat → Bool) : Bool × Option Nat :=
  if hist.length < 60 then (stands, frozen)
  else if stands then
    let b := frozen.getD (histMean hist)
    if back b m then (false, none) else (true, some b)
  else if above (histMean hist) m then (true, some (histMean hist)) else (false, none)

/-- The gain has fallen below the baseline by more than the threshold in 0.5 dB; means are in 1/1024
code. -/
def agcOver (thr b m : Nat) : Bool := decide (m + thr * 1024 < b)

/-- The gain is within half the threshold of the baseline. -/
def agcBack (thr b m : Nat) : Bool := decide (b ≤ m + thr * 512)

/-- The noise lies above the baseline by more than the threshold in 0.25 dB: (m/b)⁴⁰ > 10^thr. -/
def noiseOver (thr b m : Nat) : Bool := decide (b ^ 40 * 10 ^ thr < m ^ 40)

/-- The noise is within half the threshold of the baseline. -/
def noiseBack (thr b m : Nat) : Bool := decide (m ^ 80 ≤ b ^ 80 * 10 ^ thr)

/-- The AGC_JUMP check of the second that ends. -/
def checkAgc (s : State) : State :=
  if !gfOn s || s.rad.gainN = 0 then s
  else
    let m := s.rad.gainSum * 1024 / s.rad.gainN
    let thr := orD (get s pINT fINTM_RF_CHK_AGC_JUMP) 1
    let x := s.rad.mon
    let j := judgeBase (causeOn s 1) x.agcBase x.agc m (agcOver thr) (agcBack thr)
    let on := flag s pINT fINTM_CFG_RF_EN && j.1
    let s1 := updRad s fun r => { r with gainSum := 0, gainN := 0 }
    let s2 := updMon s1 fun y =>
      { y with agcBase := if on then j.2 else none, agc := (m :: y.agc).take 60 }
    setCause s2 1 on

/-- The noise powers of the survey channels in SYNC. -/
def syncNoise (s : State) : List Nat :=
  (s.rad.chans.filter fun e => decide (e.1 < 64) && e.2.st == 3).map fun e => rdN s (pCH e.1) rSCH_NOISE

/-- The NOISE_JUMP check of the second that ends. -/
def checkNoise (s : State) : State :=
  let l := syncNoise s
  if l.length < 2 then s
  else
    let m := histMean l
    let thr := orD (get s pINT fINTM_RF_CHK_NOISE_JUMP) 1
    let x := s.rad.mon
    let j := judgeBase (causeOn s 2) x.noiseBase x.noise m (noiseOver thr) (noiseBack thr)
    let on := flag s pINT fINTM_CFG_RF_EN && j.1
    let s2 := updMon s fun y =>
      { y with noiseBase := if on then j.2 else none, noise := (m :: y.noise).take 60 }
    setCause s2 2 on

/-- The 6 s interval of GPS time that holds an instant (Table 08-1, NAV_MAJ). -/
def navInterval (t : Nat) : Nat := (t - 19 * secU) / (6 * secU)

/-- NAV_MAJ of the interval that ends: NAV fails on at least NAV_MAJ channels and on at least half of
those checked. -/
def judgeNavMaj (s : State) : State :=
  let n := s.rad.mon.navBad.length
  let on := flag s pINT fINTM_CFG_NAV_EN && decide (orD (get s pINT fINTM_EXCL_CFG_NAV_MAJ) 1 ≤ n) &&
    decide (s.rad.mon.navSeen.length ≤ 2 * n)
  setCause (updMon s fun m => { m with navSeen := [], navBad := [] }) 5 on

/-- An interval whose subframes have all completed is judged. -/
def closeNav (s : State) (upTo : Nat) : State :=
  if s.rad.mon.navAt < upTo ∧ s.rad.mon.navSeen ≠ [] then judgeNavMaj s else s

/-- INT_SECOND_CHECK (R159): each second AGC_JUMP and NOISE_JUMP are judged against their baselines, and
with them what else is counted by the second. -/
def execIntSecondCheck (s : State) : Host.Outcome State Fault Refusal :=
  if pageEn s pINT && pageOn s pINT then
    let s1 := checkNoise (checkAgc (showViewAge s))
    let s2 := closeNav s1 (navInterval (t96 s) - 1)
    .next (showClearLeft (judgeManyExcl s2))
  else .next s

/-! ### The NAV check (R158) -/

/-- The travel time of R158 in 2⁻¹⁶ ns, from the TOW count and the first bit edge's T96. -/
def travelTime (tow t : Nat) : Nat :=
  let week : Int := 604800 * secU
  ((((t : Int) - 19 * secU) - ((tow : Int) * 6 - 6) * secU) % week).toNat

/-- The travel time lies in its window, widened on both sides by UNC in ns (R158). -/
def travelOk (s : State) (sys unc travel : Nat) : Bool :=
  let lo := if sys = 2 then get s pINT fINTM_NAV_CHK_QZS_MIN else get s pINT fINTM_NAV_CHK_GPS_MIN
  let hi := if sys = 2 then get s pINT fINTM_NAV_CHK_QZS_MAX else get s pINT fINTM_NAV_CHK_GPS_MAX
  let week : Int := 604800 * secU
  let from' : Int := ((lo : Int) * 1000000 - unc) * 65536
  let to' : Int := ((hi : Int) * 1000000 + unc) * 65536
  -- a window that reaches below 0 takes in travel times just under a week
  decide (from' ≤ travel ∧ (travel : Int) ≤ to') || decide (from' ≤ (travel : Int) - week)

/-- The NAV check of a subframe of channel `c` whose word 2 passes parity (R158). -/
def navCheck (s : State) (c : Nat) (x : Chan) (first : PC64) (word2 : Nat) : State :=
  match viewUnc s with
  | none => s
  | some unc =>
    if !pageEn s pINT || !flag s pINT fINTM_CFG_NAV_EN || !(s.rad.mon.view.any fun v => v.1.timeSet) then s
    else
      let t := t96OfPc s first
      let s1 := closeNav s (navInterval t)
      let bad := !travelOk s1 x.sys unc (travelTime (word2 / 0x2000 % 0x20000) t)
      let s2 := updMon s1 fun m =>
        { m with navAt := navInterval t
                 navSeen := if m.navSeen.contains c then m.navSeen else c :: m.navSeen
                 navBad := if bad && !m.navBad.contains c then c :: m.navBad else m.navBad }
      if bad then exclude s2 x.sys x.prn else s2

/-! ### The checks of a solution (R154, R156, R157, R160, R164) -/

/-- A used entry of a solution: its number, channel, residual in 0.1 ns. -/
structure SolEntry where
  n : Nat
  ch : Nat
  res : Int
  deriving DecidableEq, Repr

/-- The used entries of the solution in the registers. -/
def solEntries (s : State) : List SolEntry :=
  (List.range 16).filterMap fun n =>
    if flag s pNAV (fNAV_SOL_RES_USED n) then
      some ⟨n, get s pNAV (fNAV_SOL_RES_CH n), getS s pNAV (fNAV_SOL_RES_RES n)⟩
    else none

/-- The system and PRN a channel holds, or held last. -/
def signalOf (s : State) (c : Nat) : Nat × Nat :=
  (get s (pCH c) fSCH_ID_SYS, get s (pCH c) fSCH_ID_PRN)

/-- DOPP fails: the observed Doppler lies more than the limit from the prediction and the source's shift;
the comparison is in 10⁻⁸ Hz. -/
def doppFails (s : State) (e : SolEntry) : Bool :=
  let meas := signed 32 (rdN s (pCH e.ch) rSCH_MEAS_DOPP)
  let d := (meas - getS s pINT (fINTM_DPRED_CHZ e.n)) * 1000000 - viewFreq s * 157542
  flag s pINT fINTM_CFG_DOPP_EN && flag s pINT (fINTM_DPRED_VALID e.n) &&
    get s pINT (fINTM_DPRED_EPOCH e.n) == rdN s pNAV rNAV_SOL_EPOCH % 128 &&
    s.rad.mon.view.isSome && decide (get s pINT fINTM_DOPP_LIMIT_CHZ * 1000000 < d.natAbs)

/-- A used entry fails one of the per-satellite checks. -/
def entryFails (s : State) (e : SolEntry) : Bool :=
  (flag s pINT fINTM_CFG_RES_EN && !flag s pNAV fNAV_SOL_QUAL_MODE &&
    decide (get s pINT fINTM_RES_LIMIT_DNS < e.res.natAbs)) ||
  doppFails s e ||
  (flag s pINT fINTM_CFG_SHAPE_EXCL && flag s (pCH e.ch) fSCH_MEAS_STAT_SHAPE)

/-- The checks of one used entry. -/
def checkEntry (s : State) (e : SolEntry) : State :=
  if entryFails s e then exclude s (signalOf s e.ch).1 (signalOf s e.ch).2 else s

/-- The count of consecutive failures, and the cause it makes. -/
def countFail (n : Nat) (fails : Bool) : Nat := if fails then n + 1 else 0

/-- CN0_FLAT of an epoch (Table 08-1). -/
def checkFlat (s : State) (l : List SolEntry) : State :=
  let c := l.map fun e => get s (pCH e.ch) fSCH_MEAS_STAT_CN0
  let hi := c.foldl max 0
  let lo := c.foldl min 255
  let fails := flag s pINT fINTM_CFG_CN0_EN &&
    decide (orD (get s pINT fINTM_CN0_CHK_MINSAT) 2 ≤ l.length) &&
    decide (hi - lo < get s pINT fINTM_CN0_CHK_SPREAD)
  let n := countFail s.rad.mon.flat fails
  setCause (updMon s fun m => { m with flat := n }) 0
    (fails && decide (orD (get s pINT fINTM_CN0_CHK_SEC) 1 ≤ n))

/-- TIME_PRED of a solution; the answer says whether it fails (Table 08-1). -/
def checkPred (s : State) (x0 : Int) : State × Bool :=
  let margin := get s pINT fINTM_TIME_CHK_MARGIN
  let fails := flag s pINT fINTM_CFG_TIME_EN && !viewActive s &&
    (match viewUnc s with
     | none => false
     | some u =>
       let acc := s.rad.mon.view.elim 0 fun v => v.1.slot0Acc
       decide ((u + acc + margin) * 65536 < x0.natAbs))
  let n := countFail s.rad.mon.pred fails
  (setCause (updMon s fun m => { m with pred := n }) 3
    (fails && decide (orD (get s pINT fINTM_TIME_CHK_PRED_N) 1 ≤ n)), fails)

/-- The distance of (e, x) from the least-squares line through a history, as a numerator and its
positive denominator (R160). -/
def lineDist (h : List (Nat × Int)) (e : Nat) (x : Int) : Nat × Nat :=
  let e0 := (h.head?.map (·.1)).getD e
  let p := h.map fun q => ((((q.1 + 0x100000000 - e0) % 0x100000000 : Nat) : Int), q.2)
  let ex : Int := ((e + 0x100000000 - e0) % 0x100000000 : Nat)
  let n : Int := h.length
  let se := p.foldl (fun a q => a + q.1) 0
  let sx := p.foldl (fun a q => a + q.2) 0
  let sxx := n * p.foldl (fun a q => a + q.1 * q.1) 0 - se * se
  let sxy := n * p.foldl (fun a q => a + q.1 * q.2) 0 - se * sx
  ((x * (n * sxx) - (sx * sxx + sxy * (n * ex - se))).natAbs, (n * sxx).natAbs)

/-- TIME_STEP of a solution; the answer says whether it fails (R160). -/
def checkStep (s : State) (x0 : Int) : State × Bool :=
  let runs := flag s pINT fINTM_CFG_TIME_EN && viewActive s
  let h := if runs && s.rad.mon.scale == scaleGen s then s.rad.mon.hist else []
  let e := rdN s pNAV rNAV_SOL_EPOCH
  let d := lineDist h e x0
  let fails := runs && h.length == 16 && decide (get s pINT fINTM_TIME_CHK_STEP * 65536 * d.2 < d.1)
  let n := countFail s.rad.mon.step fails
  let h1 := if fails || !runs then h else (h ++ [(e, x0)]).drop (h.length - 15)
  let g := scaleGen s
  (setCause (updMon s fun m => { m with step := n, hist := h1, scale := g }) 4
    (fails && decide (orD (get s pINT fINTM_TIME_CHK_STEP_N) 1 ≤ n)), fails)

/-- SOL as a count of 2⁻¹⁶ ns. -/
def solT96 (s : State) : Nat :=
  t96Of (rdN s pNAV rNAV_SOL_SEC_LO + get s pNAV fNAV_SOL_SEC_HI_SEC * 0x100000000)
    (get s pNAV fNAV_SOL_NS_NS) (get s pNAV fNAV_SOL_FRAC_FRAC)

/-- The TAI second of the epoch, in 2⁻¹⁶ ns. -/
def epochSecond (s : State) : Nat :=
  let t := t96OfPc s (BitVec.ofNat 64 (rd64 s pTRK rTRK_EPOCH_PC_LO rTRK_EPOCH_PC_HI))
  (t + secU / 2) / secU * secU

/-- x_0 as the monitor forms it, with the delay of its view, shown in INT.TIME_OFS in ps (R156). -/
def solOfs (s : State) : Int :=
  let d := s.rad.mon.view.elim 0 fun v => signed 32 v.1.slot0Delay * 8192 / 125
  (solT96 s : Int) - (epochSecond s : Int) + d

/-- An accepted solution ends withheld (R154). -/
def withhold (s : State) : State := raise (bump s pINT rINTM_WITHHELD_CNT) pINT 3

/-- An accepted solution reaches the discipline engine (R154, R70). -/
def passSolution (s : State) : State :=
  if taking s 0 then
    slotSample s 0 ((solT96 s : Int) - (epochSecond s : Int) + slotDelay s 0) none
  else s

/-- The integrity monitor takes an accepted solution (R154, R164): the view, the satellites, the sky, the
clearing count, then pass or withhold. -/
def checkSolution (s : State) : State :=
  if !pageEn s pINT then withhold s
  else
    let l := solEntries s
    let x0 := solOfs s
    let s1 := wrN s pINT rINTM_TIME_OFS (unsign 32 (satS 32 (divRound (x0 * 125) 8192)))
    let s2 := l.foldl checkEntry (showViewAge s1)
    let p := checkPred (checkFlat s2 l) x0
    let q := checkStep p.1 x0
    let s3 := showClearLeft (judgeManyExcl q.1)
    let hit := l.any fun e => isExcluded s3 (signalOf s3 e.ch).1 (signalOf s3 e.ch).2
    if viewStale s3 || hit || p.2 || q.2 then withhold s3 else passSolution s3

end Sys2Proof.Machine
end

