-- ==== Sys2Proof/Machine/Nav.lean ====
section
/-! DEFINITION. Navigation bits, the record ring, timing solutions and the surveyed position (spec/07). -/

namespace Sys2Proof.Machine

/-! ### The ring (R151) -/

/-- NAV.STAT.LVL: the records that wait. -/
def navLevel (s : State) : Nat :=
  (get s pNAV fNAV_WR_IDX_IDX + 48 - get s pNAV fNAV_RD_IDX_IDX) % 48

/-- NAV.STAT shows the level of the ring. -/
def showNavLevel (s : State) : State := put s pNAV fNAV_STAT_LVL (navLevel s)

/-- A complete record is written to the slot at WR_IDX, which then advances; one that finds the ring full
is dropped (R151). -/
def navRecord (s : State) (w : List Nat) : State :=
  if navLevel s = 47 then raise (bump s pNAV rNAV_DROP_CNT) pNAV 1
  else
    let i := get s pNAV fNAV_WR_IDX_IDX
    let s1 := wrWords s pNAV (0x400 + 0x40 * i) w
    let s2 := updRad s1 fun r => { r with navSeq := (r.navSeq + 1) % 256 }
    raise (showNavLevel (put s2 pNAV fNAV_WR_IDX_IDX ((i + 1) % 48))) pNAV 0

/-- The first three words of a record (Table 07-5). -/
def navHead (s : State) (c : Nat) (x : Chan) (type ok : Bool) (first : PC64) : List Nat :=
  [c + x.sys * 0x100 + ofBool type * 0x400 + ofBool ok * 0x800 + x.prn * 0x10000 +
     s.rad.navSeq * 0x1000000,
   first.toNat % 0x100000000, first.toNat / 0x100000000]

/-- NAV_RD_IDX_WRITE (R151): a write of RD_IDX frees ring slots; a value above 47 is stored as 0. -/
def execNavRdIdxWrite (r : Requester) (v : Word) (s : State) : Host.Outcome State Fault Refusal :=
  .next (onWrite s r pNAV fun s =>
    let i := fNAV_RD_IDX_IDX.of v.toNat
    showNavLevel (wrN s pNAV rNAV_RD_IDX (if 47 < i then 0 else i)))

/-! ### Subframes and pages (R149, R150) -/

/-- Two instants lie a number of milliseconds apart, to within half a bit of 20 ms. -/
def apartMs (a b : PC64) (ms : Nat) : Bool :=
  decide ((pcDiff b a - ms * 1000000 * 65536).natAbs < 10000000 * 65536)

/-- Navigation sync is taken on a channel. -/
def takeNavSync (s : State) (c : Nat) : State :=
  raise (updChan (putB s (pCH c) fSCH_STAT_NAVSYNC true) c fun x => { x with fails := 0 }) pNAV 4

/-- Three consecutive failures end navigation sync; the search starts again. -/
def countNavFail (s : State) (c : Nat) (fails : Nat) : State :=
  if fails < 3 then updChan s c fun x => { x with fails := fails }
  else
    let s1 := updChan s c fun x => { x with fails := 0, pre := none, even := none }
    raise (putB s1 (pCH c) fSCH_STAT_NAVSYNC false) pNAV 5

/-- The subframe search: the second good preamble 300 bits after the first takes sync, with its polarity
(R149). -/
def searchSubframe (s : State) (c : Nat) (x : Chan) (first : PC64) (inverted good : Bool) : State :=
  if !good then s
  else
    let again := match x.pre with
      | none => false
      | some p => apartMs p first 6000
    let s1 := updChan s c fun x => { x with pre := some first }
    if again then takeNavSync (putB s1 (pCH c) fSCH_STAT_INV inverted) c else s1

/-- A subframe of a synchronized channel: failures are counted, and it is recorded (R149, R151). -/
def takeSubframe (s : State) (c : Nat) (x : Chan) (first : PC64) (preamble : Bool)
    (words : List (Nat × Bool)) : State :=
  let bad := (words.filter fun w => !w.2).length
  let s1 := if bad = 0 then s else bumpBy s pNAV rNAV_PAR_FAIL_CNT bad
  let entries := (List.range 10).map fun i =>
    let w := ix words i (0, false)
    w.1 % 0x40000000 + ofBool w.2 * 0x40000000
  let s2 := if bad ≠ 0 ∧ flag s1 pNAV fNAV_CFG_KEEP_BAD = false then s1
    else navRecord s1 (navHead s1 c x false (bad == 0) first ++ entries ++ [0, 0, 0])
  let ok1 := preamble && (ix words 0 (0, false)).2
  countNavFail s2 c (if ok1 then 0 else x.fails + 1)

/-- NAV_SUBFRAME (R149, R158): the 300 bits of an LNAV subframe have come in on a channel in SYNC. The
command carries the first bit's edge, the polarity of the preamble where one matched, and the ten words
as entries of R149 with the result of their parity checks. -/
def execNavSubframe (ch : Fin 80) (first : PC64) (inverted preamble : Bool)
    (words : List (Nat × Bool)) (s : State) : Host.Outcome State Fault Refusal :=
  match chan? s ch with
  | none => .next s
  | some x =>
    if !pageEn s pNAV || !flag s pNAV fNAV_CFG_LNAV_EN || x.st != 3 || x.sys == 1 then .next s
    else
      let ok2 := (ix words 1 (0, false)).2
      let good := preamble && (ix words 0 (0, false)).2 && ok2
      let s1 := if flag s (pCH ch) fSCH_STAT_NAVSYNC then takeSubframe s ch x first preamble words
        else searchSubframe s ch x first inverted good
      .next (if flag s (pCH ch) fSCH_STAT_NAVSYNC && ok2 then
          navCheck s1 ch x first (ix words 1 (0, false)).1
        else s1)

/-- A pair of an even and an odd part: page sync, the CRC and the record (R150, R151). -/
def takePage (s : State) (c : Nat) (x : Chan) (even odd : List Nat) (first : PC64) (crcOk tailOk : Bool)
    (corrected : Nat) : State :=
  let s1 := if flag s (pCH c) fSCH_STAT_NAVSYNC then s else takeNavSync s c
  let fails := match chan? s1 c with
    | none => 0
    | some y => y.fails
  let s2 := if crcOk then s1 else bump s1 pNAV rNAV_CRC_FAIL_CNT
  let part := fun (l : List Nat) => (List.range 4).map fun i => ix l i 0 % 0x100000000
  let tail := ofBool crcOk + ofBool tailOk * 2 + satU 8 corrected * 0x100
  let s3 := if !crcOk ∧ flag s2 pNAV fNAV_CFG_KEEP_BAD = false then s2
    else navRecord s2 (navHead s2 c x true crcOk first ++ part even ++ part odd ++ [tail, 0, 0, 0, 0])
  countNavFail s3 c (if crcOk then 0 else fails + 1)

/-- INAV_PAGE (R150): a page part has come in on a Galileo channel in SYNC and is decoded. The command
carries its first symbol's edge, its 114 bits in four words, and for an odd part the checks of the
page. -/
def execInavPage (ch : Fin 80) (first : PC64) (odd : Bool) (bits : List Nat) (crcOk tailOk : Bool)
    (corrected : Nat) (s : State) : Host.Outcome State Fault Refusal :=
  match chan? s ch with
  | none => .next s
  | some x =>
    if !pageEn s pNAV || !flag s pNAV fNAV_CFG_INAV_EN || x.st != 3 || x.sys != 1 then .next s
    else if !odd then .next (updChan s ch fun y => { y with even := some (bits, first) })
    else
      let s1 := updChan s ch fun y => { y with even := none }
      match x.even with
      | none => .next s1
      | some (e, t) =>
        if apartMs t first 1000 then .next (takePage s1 ch x e bits t crcOk tailOk corrected)
        else .next s1

/-! ### Timing solutions (R152) -/

/-- The epoch's PC64. -/
def epochPc (s : State) : PC64 := BitVec.ofNat 64 (rd64 s pTRK rTRK_EPOCH_PC_LO rTRK_EPOCH_PC_HI)

/-- A used entry names a channel that measured nothing at the epoch. -/
def entryInvalid (s : State) (e : SolEntry) : Bool :=
  decide (80 ≤ e.ch) || !flag s (pCH e.ch) fSCH_MEAS_STAT_VALID

/-- R152 refuses a submission, with the lowest reason code that applies; 0 where it is accepted. -/
def solRefusal (s : State) : Nat :=
  let l := solEntries s
  let survey := flag s pNAV fNAV_SOL_QUAL_MODE
  if rdN s pNAV rNAV_SOL_EPOCH ≠ rdN s pTRK rTRK_EPOCH_SEQ then 1
  else if pcDiff (pcNow s) (epochPc s) ≥ 500000000 * 65536 then 2
  else if s.rad.solved = some (rdN s pNAV rNAV_SOL_EPOCH) then 3
  else if 999999999 < get s pNAV fNAV_SOL_NS_NS ∨ get s pNAV fNAV_SOL_QUAL_SIG = 0 then 4
  else if survey = false ∧ flag s pNAV fNAV_POS_SIG_VALID = false then 5
  else if l.length < (if survey then 4 else 1) then 6
  else if l.any (entryInvalid s) then 7
  else 0

/-- A submission is accepted and goes to the integrity monitor, or is refused (R152, R164). -/
def submitSolution (s : State) : State :=
  let why := solRefusal s
  if why ≠ 0 then
    raise (bump (wrN s pNAV rNAV_SOL_STAT (2 + why * 16)) pNAV rNAV_SOL_REJ_CNT) pNAV 3
  else
    let e := rdN s pNAV rNAV_SOL_EPOCH
    let s1 := updRad (wrN s pNAV rNAV_SOL_STAT 1) fun r => { r with solved := some e }
    checkSolution (raise (bump s1 pNAV rNAV_SOL_ACC_CNT) pNAV 2)

/-- SOL_SUBMIT (R152): a write of NAV.SOL_CMD. -/
def execSolSubmit (r : Requester) (v : Word) (s : State) : Host.Outcome State Fault Refusal :=
  .next (onWrite s r pNAV fun s =>
    if fNAV_SOL_CMD_SUBMIT.of v.toNat = 1 then submitSolution s else s)

/-- POS_SIG_WRITE (R153): a write of NAV.POS_SIG puts the three coordinates in force, or withdraws the
position. -/
def execPosSigWrite (r : Requester) (v : Word) (s : State) : Host.Outcome State Fault Refusal :=
  .next (onWrite s r pNAV fun s =>
    let n := v.toNat
    let sig := fNAV_POS_SIG_CM.of n
    let on := fNAV_POS_SIG_VALID.of n = 1
    let s1 := wrN s pNAV rNAV_POS_SIG (sig + (if on then 0x80000000 else 0))
    let pos := (rdN s pNAV rNAV_POS_X, rdN s pNAV rNAV_POS_Y, rdN s pNAV rNAV_POS_Z, sig)
    updRad s1 fun x => { x with pos := if on then some pos else none })

end Sys2Proof.Machine
end

