-- ==== Sys2Proof/Machine/Osc.lean ====
section
/-! DEFINITION. The oven, the frequency synthesizer and its choice of source (spec/05). -/

namespace Sys2Proof.Machine

/-- Change what the oven and the synthesizer hold. -/
def updOven (s : State) (f : Oven → Oven) : State := { s with oven := f s.oven }

/-- OVN.STAT.SETTLED. -/
def settled (s : State) : Bool := flag s pOVN fOVN_STAT_SETTLED

/-- OSC_IN is the active source. -/
def srcIsOsc (s : State) : Bool := flag s pOVN fOVN_STAT_ACTIVE_SRC

/-- The synthesizer runs on the backup oscillator. -/
def onBackup (s : State) : Bool := flag s pOVN fOVN_STAT_BACKUP

/-- The comparison of OSC_IN with the resonator is valid. -/
def measValid (s : State) : Bool := flag s pOVN fOVN_STAT_MEAS_VALID

/-- FSRC prefers OSC_IN. -/
def prefersOsc (s : State) : Bool := flag s pOVN fOVN_CFG_FSRC

/-- FREF_LOST stands while FSRC = 1 and OSC_IN is not active (R108). -/
def frefLost (s : State) : State := doubt s pOVN 3 (prefersOsc s && (!srcIsOsc s || onBackup s))

/-- A source is available (R107). -/
def srcAvailable (s : State) (osc : Bool) : Bool :=
  if osc then flag s pOVN fOVN_STAT_OSC_PRESENT && measValid s else settled s && !s.oven.stopped

/-- A request to switch to the preferred source: carried out if that source is available, else it
lapses; naming the active source it has no effect (R107). -/
def requestSwitch (s : State) : State :=
  let osc := prefersOsc s
  if (osc != srcIsOsc s || onBackup s) && srcAvailable s osc then
    updOven s fun o => { o with req := some (osc, measValid s), toBackup := false }
  else s

/-- With AUTO_RETURN a preferred source that becomes available is requested (R107). -/
def autoReturn (s : State) (osc : Bool) : State :=
  if flag s pOVN fOVN_CFG_AUTO_RETURN && prefersOsc s == osc then requestSwitch s else s

/-- How far the platform stands from the setpoint, in 0.001 °C. -/
def ovenOff (s : State) (temp : Int) : Nat := (temp - (get s pOVN fOVN_SETPOINT_MC : Int)).natAbs

/-- SETTLE_CFG.BAND in 0.001 °C; 0 is treated as 1. -/
def ovenBand (s : State) : Nat := 10 * orD (get s pOVN fOVN_SETTLE_CFG_BAND) 1

/-- The platform temperature is shown. -/
def showTemp (s : State) (temp : Int) : State := put s pOVN fOVN_TEMP_MC (unsign 24 (satS 24 temp))

/-- OVN_SETTLED (R103): the platform has stayed within the band for SETTLE_CFG.TIME. -/
def execOvnSettled (temp : Int) (s : State) : Host.Outcome State Fault Refusal :=
  if !settled s && decide (ovenOff s temp ≤ ovenBand s) then
    let s1 := putB (showTemp s temp) pOVN fOVN_STAT_SETTLED true
    let s2 := put s1 pOVN fOVN_WARM_TIME_SEC (satU 16 ((mono s - s.oven.heatFrom) / 1000000000))
    .next (autoReturn (doubt (raise s2 pOVN 0) pOVN 0 false) false)
  else .next s

/-- OVN_UNSETTLED (R103): the temperature leaves ±4 × BAND. The comparison with OSC_IN is interrupted
(R106), and OVN_RANGE, judged while SETTLED = 1, falls (R104). -/
def execOvnUnsettled (temp : Int) (s : State) : Host.Outcome State Fault Refusal :=
  if settled s && decide (4 * ovenBand s < ovenOff s temp) then
    let s1 := putB (showTemp s temp) pOVN fOVN_STAT_SETTLED false
    let s2 := putB s1 pOVN fOVN_STAT_MEAS_VALID false
    .next (doubt (doubt (raise s2 pOVN 1) pOVN 0 true) pOVN 1 false)
  else .next s

/-- OVN_RANGE (R104): while SETTLED = 1 the heater has stood at a limit for 10 s, or stands at one no
longer. -/
def execOvnRange (atLimit : Bool) (s : State) : Host.Outcome State Fault Refusal :=
  if settled s then .next (doubt s pOVN 1 atLimit) else .next s

/-- OVN_FAULT (R104): the heater draws no current while driven, or more than its maximum; it is switched
off. -/
def execOvnFault (s : State) : Host.Outcome State Fault Refusal :=
  if s.oven.heaterOff then .next s
  else
    let s1 := put (updOven s fun o => { o with heaterOff := true }) pOVN fOVN_HEAT_MW 0
    .next (doubt s1 pOVN 2 true)

/-- An active OSC_IN that is lost is left for the resonator, or for the backup oscillator (R108). -/
def leaveOsc (s : State) : State :=
  if !srcIsOsc s || onBackup s then s
  else if flag s pOVN fOVN_CFG_FALLBACK && !s.oven.stopped then
    updOven s fun o => { o with req := some (false, measValid s), toBackup := false }
  else updOven s fun o => { o with req := none, toBackup := true }

/-- OSC_LOST (R106, R108): OSC_PRESENT falls. A switch to OSC_IN that was requested lapses. -/
def execOscLost (s : State) : Host.Outcome State Fault Refusal :=
  if flag s pOVN fOVN_STAT_OSC_PRESENT then
    let s0 := match s.oven.req with
      | some (true, _) => updOven s fun o => { o with req := none }
      | _ => s
    let s1 := putB (putB (leaveOsc s0) pOVN fOVN_STAT_OSC_PRESENT false) pOVN fOVN_STAT_MEAS_VALID false
    .next (raise s1 pOVN 3)
  else .next s

/-- OSC_RESTORED (R106, R108): OSC_PRESENT rises. -/
def execOscRestored (s : State) : Host.Outcome State Fault Refusal :=
  if flag s pOVN fOVN_STAT_OSC_PRESENT then .next s
  else .next (raise (putB s pOVN fOVN_STAT_OSC_PRESENT true) pOVN 4)

/-- MEAS_VALID (R106): 100 s of continuous comparison have passed; OSC_MEAS and XCMP_SIG show it. -/
def execMeasValid (ppt : Int) (sig : Nat) (s : State) : Host.Outcome State Fault Refusal :=
  if flag s pOVN fOVN_STAT_OSC_PRESENT && settled s && !measValid s then
    let s1 := wrN (putB s pOVN fOVN_STAT_MEAS_VALID true) pOVN rOVN_OSC_MEAS (unsign 32 (satS 32 ppt))
    .next (autoReturn (put s1 pOVN fOVN_XCMP_SIG_PPT (satU 16 sig)) true)
  else .next s

/-- OVN_RETRY (R107): a write of OVN.CTRL; RETRY requests a switch to the preferred source. -/
def execOvnRetry (r : Requester) (v : Word) (s : State) : Host.Outcome State Fault Refusal :=
  .next (onWrite s r pOVN fun s =>
    if fOVN_CTRL_RETRY.of v.toNat = 1 then requestSwitch s else s)

/-- OVN.OSC_MEAS in ppt. -/
def oscMeas (s : State) : Int := signed 32 (rdN s pOVN rOVN_OSC_MEAS)

/-- The synthesizer takes a source (R109–R111). Off the backup oscillator to the source it left, nothing
is corrected or reloaded; a change to the resonator without a valid comparison is uncalibrated. -/
def switchTo (s : State) (osc valid : Bool) : State :=
  let same := srcIsOsc s == osc
  let s1 := updOven s fun o => { o with req := none, toBackup := false }
  let s2 := doubt (putB s1 pOVN fOVN_STAT_BACKUP false) pOVN 4 false
  if same then frefLost s2
  else
    let s3 := frefLost (raise (bump (putB s2 pOVN fOVN_STAT_ACTIVE_SRC osc) pOVN rOVN_SWITCH_CNT) pOVN 2)
    if osc then sourceSwitched s3 (-(oscMeas s))
    else if valid then sourceSwitched s3 (oscMeas s)
    else doubt (putB (sourceSwitched s3 0) pOVN fOVN_STAT_UNCAL true) pOVN 5 true

/-- SRC_SWITCH (R109): the synthesizer carries out the switch that was requested, and the discipline
engine corrects the frequency part within 1 µs. -/
def execSrcSwitch (s : State) : Host.Outcome State Fault Refusal :=
  match s.oven.req with
  | none => .next s
  | some (osc, valid) => .next (switchTo s osc valid)

/-- The synthesizer moves onto the backup oscillator: FREF_NONE is raised; ACTIVE_SRC keeps showing the
source that was left, and nothing is corrected or reloaded (R111). -/
def enterBackup (s : State) : State :=
  let s1 := putB (updOven s fun o => { o with req := none, toBackup := false }) pOVN fOVN_STAT_BACKUP true
  frefLost (doubt s1 pOVN 4 true)

/-- BACKUP_ENTER (R111): OSC_IN has been lost with no source to take its place, or the resonator stops.
A resonator that stops while it is not the active source only becomes unavailable. -/
def execBackupEnter (stopped : Bool) (s : State) : Host.Outcome State Fault Refusal :=
  let s1 := if stopped then
      putB (updOven s fun o => { o with stopped := true }) pOVN fOVN_STAT_MEAS_VALID false
    else s
  if s1.oven.toBackup || (stopped && !srcIsOsc s && !onBackup s) then .next (enterBackup s1)
  else .next s1

/-- TUNE_CFG.CENTRE_PPT; below |GAIN| it is treated as |GAIN| (R113). -/
def centrePpt (s : State) : Nat :=
  max (get s pOVN fOVN_TUNE_CFG_CENTRE_PPT) (getS s pOVN fOVN_TUNE_CFG_GAIN).natAbs

/-- The sign of a number. -/
def signOf (i : Int) : Int := if i < 0 then -1 else if 0 < i then 1 else 0

/-- The code steps by δ and the frequency part gives up GAIN × δ, or the code stands at a rail (R113). -/
def stepTune (s : State) (d gain : Int) : State :=
  let code : Int := get s pOVN fOVN_TUNE_CODE
  if code + d < 0 ∨ 0xFFFF < code + d then raise s pOVN 6
  else
    let s1 := put s pOVN fOVN_TUNE_CODE (code + d).toNat
    let s2 := updServo s1 fun v => { v with freq := v.freq - gain * d * 65536 }
    raise (setRate s2 (signed 32 (rdN s2 pTBE rTBE_PULL))) pOVN 5

/-- TUNE_STEP (R113): once every 60 s in CENTRE the code is stepped when the four conditions hold. -/
def execTuneStep (s : State) : Host.Outcome State Fault Refusal :=
  if get s pOVN fOVN_CFG_TUNE_MODE = 2 then
    let s1 := advMono s (s.oven.minute + 60000000000)
    let s2 := updOven s1 fun o => { o with minute := mono s1 }
    let gain := getS s2 pOVN fOVN_TUNE_CFG_GAIN
    let freq := signed 32 (rdN s2 pDSC rDSC_FREQ)
    if srcIsOsc s2 && !onBackup s2 && get s2 pDSC fDSC_STAT_STATE == 2 && gain != 0 &&
        decide (centrePpt s2 < freq.natAbs) then
      .next (stepTune s2 (signOf freq * signOf gain) gain)
    else .next s2
  else .next s

end Sys2Proof.Machine
end

