-- ==== Sys2Proof/Machine/Pmc.lean ====
section
/-! DEFINITION. The performance counters of every die (spec/17). -/

namespace Sys2Proof.Machine

/-! ### Table 17-1 -/

/-- The instances of an event on a die: none where the event does not exist there, 0 and 0 where it has no
instances, else the first one and their number. -/
def evtInsts (die evt : Nat) : Option (Nat × Nat) :=
  let port := decide (4 ≤ die)
  let only (b : Bool) (v : Nat × Nat) : Option (Nat × Nat) := if b then some v else none
  match evt with
  | 0x000 | 0x002 => some (0, 0)
  | 0x001 => some (0, 4)
  | 0x003 => some (0, islCount die)
  | 0x100 | 0x101 | 0x102 | 0x200 | 0x201 | 0x300 | 0x301 | 0x302 | 0x303 | 0x304 | 0x305
  | 0x400 | 0x401 | 0x402 | 0x600 | 0x602 => only port (0, 8)
  | 0x500 | 0x501 | 0x601 => only port (0, 0)
  | 0x502 => only port (0, 4)
  | 0x700 | 0x701 => only (die != 1) (0, 0)
  | 0x702 | 0x800 | 0x801 | 0x802 | 0xA00 | 0xA02 | 0xE00 => only (die == 1) (0, 0)
  | 0x900 | 0x903 | 0x904 => only (die == 2) (0, 0)
  | 0x901 | 0x902 => only (die == 2) (64, 16)
  | 0xA01 => only (die == 1) (0, 8)
  | 0xB00 | 0xB01 | 0xB02 => only (die == 0) (0, 16)
  | 0xC00 | 0xC01 | 0xC02 => only (die == 0) (0, 6)
  | 0xD00 => only (die == 0) (0, 0)
  | 0xD01 => only (die == 0) (0, 4)
  | 0xE01 => only (die == 1) (0, 4)
  | 0xF00 => only (die == 0) (0, 16)
  | _ => none

/-- The event exists on the die, with the instance (R350). -/
def evtExists (die evt inst : Nat) : Bool :=
  match evtInsts die evt with
  | none => false
  | some (a, n) => inst == 0xFF || (decide (a ≤ inst) && decide (inst < a + n))

/-- The events of a domain that is off count nothing. -/
def evtOn (s : State) (die evt inst : Nat) : Bool :=
  match evt / 256 with
  | 1 | 2 => domOn s (3 * (die - 4) + inst / 4)
  | 3 | 4 | 5 | 6 => domOn s (3 * (die - 4) + 2)
  | 9 => evt == 0x904 || domOn s domGB
  | 0xB => domOn s domHK
  | 0xC => decide (inst < 2) || domOn s domHC
  | 0xD => domOn s domHC
  | _ => true

/-! ### Counting (R353–R358) -/

/-- A wrap of a counter that OVF_IRQ selects (R358). `seen` says that a lower counter wrapped in this cycle. -/
def ovfStamp (s : State) (p : Pg) (n : Nat) (pc : PC64) (seen : Bool) : State :=
  let s1 := raise s p 0
  if flag s p fPMC_OVF_STAMP_VALID then (if seen then s1 else putB s1 p fPMC_OVF_STAMP_MULTI true)
  else
    let s2 := putB (put s1 p fPMC_OVF_STAMP_IDX n) p fPMC_OVF_STAMP_VALID true
    wr64 s2 p rPMC_OVF_PC_LO rPMC_OVF_PC_HI pc.toNat

/-- Add to a counter; answers the state and whether it wrapped. -/
def cntAdd (s : State) (p : Pg) (n k : Nat) (pc : PC64) (seen : Bool) : State × Bool :=
  let v := rdN s p (rPMC_CNT n) + k
  let s1 := wrN s p (rPMC_CNT n) v
  if v < 2 ^ 32 then (s1, false)
  else
    let s2 := wrN s1 p rPMC_OVF (setBit (rdN s1 p rPMC_OVF) n true)
    (if bitOf (rdN s2 p rPMC_OVF_IRQ) n then ovfStamp s2 p n pc seen else s2, true)

/-- A counter is chained to its even neighbour. -/
def chained (s : State) (p : Pg) (n : Nat) : Bool := n % 2 == 1 && flag s p (fPMC_CTL_CHAIN n)

/-- A counter counts: the page is enabled and neither frozen nor armed, and the counter is enabled. -/
def cntLive (s : State) (p : Pg) (n : Nat) : Bool :=
  pageEn s p && !flag s p fPMC_CTRL_FREEZE && !flag s p fPMC_CTRL_ARMED && flag s p (fPMC_CTL_EN n)

/-- What a counter adds for one cycle of an event (R351). -/
def cntShare (s : State) (p : Pg) (n : Nat) (c : PmcCycle) (evt : Nat) : Nat :=
  let inst := get s p (fPMC_CTL_INST n)
  let hit := c.insts.filter fun x => (inst == 0xFF || x.1 == inst) && evtOn s p.die evt x.1
  if flag s p (fPMC_CTL_MODE n) then ofBool (hit ≠ []) else (hit.map fun x => x.2).foldl (· + ·) 0

/-- One cycle of an event reaches one counter, and by its wrap the one chained to it (R356). -/
def cntCycle (p : Pg) (evt : Nat) (c : PmcCycle) (a : State × Bool) (n : Nat) : State × Bool :=
  let k := cntShare a.1 p n c evt
  if chained a.1 p n || !cntLive a.1 p n || flag a.1 p (fPMC_CTL_NOEVT n) ||
      get a.1 p (fPMC_CTL_EVT n) != evt || k == 0 then a
  else
    let b := cntAdd a.1 p n k c.pc a.2
    if b.2 && n % 2 == 0 && chained b.1 p (n + 1) && cntLive b.1 p (n + 1) then
      let d := cntAdd b.1 p (n + 1) 1 c.pc true
      (d.1, true)
    else (b.1, a.2 || b.2)

/-- PMC_COUNT (R353): a source island passes what it accumulated of one event. -/
def execPmcCount (die : Fin 8) (evt : Fin 4096) (cycles : List PmcCycle) (s : State) :
    Host.Outcome State Fault Refusal :=
  let p := pPMC die
  if dieHasRegs die then
    .next (cycles.foldl (fun s c => ((List.range 32).foldl (cntCycle p evt.val c) (s, false)).1) s)
  else .next s

/-! ### Writes (R354, R355) -/

/-- CNT_WRITE (R354): a write of CNTn replaces the counter's value. -/
def execCntWrite (r : Requester) (die : Fin 8) (n : Fin 32) (v : Word) (s : State) : Host.Outcome State Fault Refusal :=
  .next (onWrite s r (pPMC die) fun s => wr s (pPMC die) (rPMC_CNT n) v)

/-- Every counter and OVF are zero. -/
def clearCounts (s : State) (p : Pg) : State :=
  wrN ((List.range 32).foldl (fun s n => wrN s p (rPMC_CNT n) 0) s) p rPMC_OVF 0

/-- CLR_ALL (R354): a write of CTRL.CLR_ALL. -/
def execClrAll (r : Requester) (die : Fin 8) (s : State) : Host.Outcome State Fault Refusal :=
  .next (onWrite s r (pPMC die) fun s => clearCounts s (pPMC die))

/-- START_AT of a page. -/
def startAt (s : State) (p : Pg) : PC64 := BitVec.ofNat 64 (rd64 s p rPMC_START_AT_LO rPMC_START_AT_HI)

/-- ARM_AT: the enabled counters are held until START_AT, judged on the die's replica (R48, R355). -/
def armPage (s : State) (p : Pg) : State :=
  putB s p fPMC_CTRL_ARMED (pcDiff (startAt s p) (pcAt s p.die) > 0)

/-- ARM_AT (R355): a write of CTRL.ARM_AT. -/
def execArmAt (r : Requester) (die : Fin 8) (s : State) : Host.Outcome State Fault Refusal :=
  .next (onWrite s r (pPMC die) fun s => armPage s (pPMC die))

/-- PMC_START (R355): START_AT is reached and the armed counters start together. -/
def execPmcStart (die : Fin 8) (s : State) : Host.Outcome State Fault Refusal :=
  let p := pPMC die
  if dieHasRegs die && flag s p fPMC_CTRL_ARMED then .next (putB (advPc s (startAt s p)) p fPMC_CTRL_ARMED false)
  else .next s

/-- CTRL as written: FREEZE is stored, CLR_ALL and ARM_AT act. -/
def pmcCtrlWrite (s : State) (p : Pg) (v : Nat) : State :=
  let s1 := put s p fPMC_CTRL_FREEZE v
  let s2 := if bitOf v 1 then clearCounts s1 p else s1
  if bitOf v 2 then armPage s2 p else s2

/-- CTLn as stored (R350, R356): CHAIN only on an odd counter, and NOEVT as the selection is. -/
def ctlStored (s : State) (p : Pg) (n v : Nat) : State :=
  let w := v % 0x1000000 &&& (if n % 2 = 1 then 0xFF7FFF else 0xFF3FFF)
  let no := !evtExists p.die (w % 4096) (w / 0x10000)
  wrN s p (rPMC_CTL n) (w + ofBool no * 0x1000000)

/-- OVF_STAMP as written: a 1 in VALID clears VALID and MULTI (R358). -/
def ovfStampWrite (s : State) (p : Pg) (v : Nat) : State :=
  if bitOf v 8 then putB (putB s p fPMC_OVF_STAMP_VALID false) p fPMC_OVF_STAMP_MULTI false else s

/-! ### Reads (R357, R359) -/

/-- The key of a requester's latch: requester codes 0–6, and 7 for the PMC user page. -/
def latchKey (q die n : Nat) : Nat := q * 0x1000 + die * 32 + n

/-- A read of CNTn by a requester (R357): an even counter with a chained neighbour latches the neighbour; the
next read of the neighbour takes the latch. -/
def cntRead (s : State) (q die n : Nat) : State × Nat :=
  let p := pPMC die
  if n % 2 = 0 then
    let v := rdN s p (rPMC_CNT n)
    if chained s p (n + 1) then
      ({ s with cntLatch := amSet (latchKey q die (n + 1)) (rd s p (rPMC_CNT (n + 1))) s.cntLatch }, v)
    else (s, v)
  else match amGet? (latchKey q die n) s.cntLatch with
    | some w => ({ s with cntLatch := amErase (latchKey q die n) s.cntLatch }, w.toNat)
    | none => (s, rdN s p (rPMC_CNT n))

/-- CNT_EVEN_READ (R357): a read of counter 2n. -/
def execCntEvenRead (r : Requester) (die : Fin 8) (n : Fin 16) (s : State) : Host.Outcome State Fault Refusal :=
  .next (onRead s r (pPMC die) fun s =>
    let a := cntRead s (reqCode r) die (2 * n.val)
    reply a.1 a.2)

/-- A user-mode read of a counter is permitted (R359). -/
def userMayRead (s : State) (h die n : Nat) : Bool :=
  feat s 13 && bitOf (get s (pPMC 0) fPMC_USER_EN_HART) h && bitOf (rdN s (pPMC die) rPMC_USER_MASK) n

/-- A word of the PMC user page of BAR2 (R359). -/
def userPage (s : State) (off : Nat) : State × Nat :=
  let die := off / 0x80 % 8
  let n := off % 0x80 / 4
  if feat s 13 && flag s (pPMC 0) fPMC_HOST_USER_EN_EN && dieHasRegs die && decide (off < 0x400) &&
      bitOf (rdN s (pPMC die) rPMC_USER_MASK) n
  then cntRead s 7 die n else (s, 0)

/-- An ISLAND reset of a PMC island: counts, OVF, the stamp and ARMED are cleared. -/
def pmcIslandReset (s : State) (die : Nat) : State :=
  let p := pPMC die
  let s1 := clearCounts s p
  let s2 := wrN (wr64 s1 p rPMC_OVF_PC_LO rPMC_OVF_PC_HI 0) p rPMC_OVF_STAMP 0
  putB { s2 with cntLatch := s2.cntLatch.filter fun x => x.1 / 32 % 8 != die } p fPMC_CTRL_ARMED false

end Sys2Proof.Machine
end

