-- ==== Sys2Proof/Machine/Safe.lean ====
section
/-! DEFINITION. The safe-state controller (spec/19, R375–R383): what it does when a doubt source changes, the
entry to safe state and its end, DEGRADE and the settling count. -/

namespace Sys2Proof.Machine

/-- The doubt sources the SAF sees (R375, R377): those of the Timebase pages, and the last vectors of the other
dies. -/
def safVec (s : State) : Nat :=
  [0, 2, 4, 5, 6, 7].foldl (fun v d => v ||| ix s.saf.vec d 0) (srcVec s 1)

/-- The policy of a source (R376, Table 19-2); that of SAF_FORCE is 3. -/
def safPolicy (s : State) (n : Nat) : Nat :=
  if n = 61 then 3 else rdN s pSAF (rSAF_POLICY (n / 16)) / 4 ^ (n % 16) % 4

/-- SAF.ACTIVE. -/
def safActive (s : State) : Nat := rd64 s pSAF rSAF_ACTIVE_LO rSAF_ACTIVE_HI

/-- The sources of a mask that have a policy, lowest first. -/
def sourcesOf (s : State) (m pol : Nat) : List Nat :=
  (List.range 62).filter fun n => bitOf m n && safPolicy s n == pol

/-- ALARM_N is asserted (low): in safe state, and in DEGRADE with ALARM_DEG (R379, R383). -/
def alarmAsserted (s : State) : Bool :=
  flag s pSAF fSAF_STAT_SAFE || (flag s pSAF fSAF_STAT_DEGRADE && flag s pSAF fSAF_CFG_ALARM_DEG)

/-! ### Entry and exit (R379, R381) -/

/-- Entry to safe state with a cause (Table 19-6) and, for DOUBT, its source (R379). -/
def safEnter (s : State) (cause src : Nat) : State :=
  if flag s pSAF fSAF_STAT_SAFE then s
  else
    let now := mono s
    let s1 := put (putB s pSAF fSAF_STAT_SAFE true) pSAF fSAF_STAT_ENTRY cause
    let s2 := if cause = 2 then put s1 pSAF fSAF_STAT_SRC src else s1
    let s3 := mckSafeLine { s2 with saf := { s2.saf with since := now, settleFrom := none } } true
    let s4 := bump (raise s3 pSAF 0) pSAF rSAF_ENTRY_CNT
    record s4 pSAF 0x140 3 (cause + src * 256) (rdN s4 pSAF rSAF_ACTIVE_LO)

/-- Safe state ends (R381), by AUTO or by a releaser. -/
def safExit (s : State) (auto : Bool) (who : Nat) : State :=
  let secs := (mono s - s.saf.since) / 1000000000
  let s1 := [fSAF_STAT_SAFE, fSAF_STAT_READY, fSAF_STAT_SETTLING].foldl (fun s f => putB s pSAF f false) s
  let s2 := mckSafeLine { s1 with saf := { s1.saf with settleFrom := none } } false
  let s3 := put (raise s2 pSAF 1) pSAF fSAF_ESC_CNT_CNT 0
  record s3 pSAF 0x141 1 (ofBool auto + who * 2) secs

/-- Safe state ends by AUTO where READY stands (R381). -/
def safAuto (s : State) : State :=
  if flag s pSAF fSAF_STAT_READY && flag s pSAF fSAF_CFG_AUTO then safExit s true 0 else s

/-! ### What standing sources keep up (R381–R383) -/

/-- DEGRADE rises with the first DEGRADE source, and begins to fall with the last (R383). -/
def safDegrade (s : State) (rose : Nat) : State :=
  let now := mono s
  let deg := sourcesOf s (safActive s) 2
  if deg ≠ [] then
    let s1 := { s with saf := { s.saf with degFell := none } }
    if flag s1 pSAF fSAF_STAT_DEGRADE then s1
    else
      let s2 := putB { s1 with saf := { s1.saf with degSince := now } } pSAF fSAF_STAT_DEGRADE true
      record (raise s2 pSAF 2) pSAF 0x142 2 (((sourcesOf s rose 2).head?).getD (deg.headD 0)) (rdN s2 pSAF rSAF_ACTIVE_HI)
  else if flag s pSAF fSAF_STAT_DEGRADE && s.saf.degFell.isNone then { s with saf := { s.saf with degFell := some now } }
  else s

/-- The settling count runs while safe state stands without a SAFE source (R381). -/
def safSettle (s : State) : State :=
  let now := mono s
  if !flag s pSAF fSAF_STAT_SAFE then s
  else if sourcesOf s (safActive s) 3 ≠ [] then
    putB (putB { s with saf := { s.saf with settleFrom := none } } pSAF fSAF_STAT_SETTLING false) pSAF fSAF_STAT_READY false
  else if flag s pSAF fSAF_STAT_READY || s.saf.settleFrom.isSome then s
  else putB { s with saf := { s.saf with settleFrom := some now } } pSAF fSAF_STAT_SETTLING true

/-- The escalation counts: one for each source that stands with policy SAFE and its mask bit, from the moment
all three held (R382). -/
def safEsc (s : State) : State :=
  let now := mono s
  let m := safActive s &&& rd64 s pSAF rSAF_ESC_MASK_LO rSAF_ESC_MASK_HI
  let e := (sourcesOf s m 3).map fun n => (n, ((s.saf.esc.find? fun x => x.1 == n).map fun x => x.2).getD now)
  { s with saf := { s.saf with esc := e } }

/-- Sources rise under their policies: a mask of them, with the entry cause a SAFE source takes (R376,
R379). -/
def safRise (s : State) (rose cause : Nat) : State :=
  let s1 := (sourcesOf s rose 1).foldl (fun s _ => bump (raise s pSAF 6) pSAF rSAF_WARN_CNT) s
  let s2 := safDegrade s1 rose
  let s3 := match sourcesOf s2 rose 3 with
    | n :: _ => safEnter s2 cause n
    | [] => s2
  safEsc (safSettle s3)

/-- The SAF acts on the sources as they stand now: ACTIVE, SEEN, and each rise by its policy (R375–R379). -/
def safEval (s : State) (cause : Nat) : State :=
  let old := safActive s
  let new := safVec s
  let rose := new &&& (old ^^^ (2 ^ 64 - 1))
  let s1 := wr64 s pSAF rSAF_ACTIVE_LO rSAF_ACTIVE_HI new
  let s2 := wr64 s1 pSAF rSAF_SEEN_LO rSAF_SEEN_HI (rd64 s1 pSAF rSAF_SEEN_LO rSAF_SEEN_HI ||| rose)
  safRise s2 rose cause

/-- DOUBT_CHANGE (R377): a change of a doubt source reaches the SAF. -/
def execDoubtChange (s : State) : Host.Outcome State Fault Refusal := .next (safEval s 2)

/-- DEGRADE_EXIT (R383): DEG_MS after the last DEGRADE source fell. -/
def execDegradeExit (s : State) : Host.Outcome State Fault Refusal :=
  match s.saf.degFell with
  | none => .next s
  | some t =>
    let s1 := advMono s (t + orD (get s pSAF fSAF_SETTLE_DEG_MS) 1 * 1000000)
    let ms := (mono s1 - s1.saf.degSince) / 1000000
    let s2 := putB { s1 with saf := { s1.saf with degFell := none } } pSAF fSAF_STAT_DEGRADE false
    .next (record (raise s2 pSAF 3) pSAF 0x143 1 0 ms)

/-- SAF_DIE_LOST (R378): no message of a die for 3 ms, or since the release of a reset; in KEEP the Port and
Radio dies are not judged (R449). -/
def execSafDieLost (die : Fin 8) (s : State) : Host.Outcome State Fault Refusal :=
  let keep := get s (pDIE 0) fDIE_PWR_STAT_STATE == 3 && decide (2 ≤ die.val)
  if !dieHasRegs die || die.val == 1 || keep || bitOf s.saf.lost die then .next s
  else
    let s1 := advMono s (ix s.saf.lastMsg die 0 + 3000000)
    let s2 := wrN { s1 with saf := { s1.saf with lost := setBit s1.saf.lost die true } } pSAF rSAF_DIE_SEEN
      (setBit (rdN s1 pSAF rSAF_DIE_SEEN) die false)
    .next (safEval (doubt s2 pSAF 0 true) 2)

/-- READY (R381): the settling count reaches 0; under AUTO safe state ends at once. -/
def execReady (s : State) : Host.Outcome State Fault Refusal :=
  match s.saf.settleFrom with
  | none => .next s
  | some t =>
    if flag s pSAF fSAF_STAT_SAFE && !flag s pSAF fSAF_STAT_READY then
      let s1 := advMono s (t + orD (get s pSAF fSAF_SETTLE_SEC) 1 * 1000000000)
      let s2 := putB (putB s1 pSAF fSAF_STAT_SETTLING false) pSAF fSAF_STAT_READY true
      .next (safAuto (raise { s2 with saf := { s2.saf with settleFrom := none } } pSAF 4))
    else .next s

/-- SETTLE_LEFT as it reads: seconds left of the settling count. -/
def settleLeft (s : State) : Nat :=
  match s.saf.settleFrom with
  | none => 0
  | some t => (t + orD (get s pSAF fSAF_SETTLE_SEC) 1 * 1000000000 - mono s + 999999999) / 1000000000

/-! ### Writes of the SAF page -/

/-- A write of SAF.CTRL (R379, R381): FORCE before UNFORCE, and a rise before a RELEASE. -/
def safCtrl (s : State) (r : Requester) (rel force unforce : Bool) : State :=
  let s1 :=
    if force then safEval (doubt s pSAF 1 true) 3
    else if unforce then safEval (doubt s pSAF 1 false) 2
    else s
  if !rel then s1
  else if flag s1 pSAF fSAF_STAT_READY then safExit s1 false (reqCode r)
  else raise s1 pSAF 5

/-- RELEASE (R381): a write of CTRL.RELEASE. -/
def execRelease (r : Requester) (s : State) : Host.Outcome State Fault Refusal :=
  .next (onWrite s r pSAF fun s => safCtrl s r true false false)

/-- FORCE (R379): a write of CTRL.FORCE raises SAF_FORCE. -/
def execForce (r : Requester) (s : State) : Host.Outcome State Fault Refusal :=
  .next (onWrite s r pSAF fun s => safCtrl s r false true false)

/-- UNFORCE (R381): a write of CTRL.UNFORCE ends SAF_FORCE. -/
def execUnforce (r : Requester) (s : State) : Host.Outcome State Fault Refusal :=
  .next (onWrite s r pSAF fun s => safCtrl s r false false true)

/-- POLICY3 as stored: source 61 reads 3, sources 62 and 63 read 0. -/
def policyStored (k v : Nat) : Nat := if k = 3 then v % 0x4000000 + 0xC000000 else v

/-- A policy register takes a value at once: a source that stands under a changed policy counts as having risen
under it (R376). -/
def policyWrite (s : State) (k v : Nat) : State :=
  let s1 := wrN s pSAF (rSAF_POLICY k) (policyStored k v)
  let changed := (List.range 62).foldl (fun m n =>
    if bitOf (safActive s) n && safPolicy s n != safPolicy s1 n then m + 2 ^ n else m) 0
  safRise s1 changed 2

/-- SAF_POLICY_WRITE (R376). -/
def execSafPolicyWrite (r : Requester) (k : Fin 4) (v : Word) (s : State) : Host.Outcome State Fault Refusal :=
  .next (onWrite s r pSAF fun s => if pageLocked s pSAF then lockViol s pSAF else policyWrite s k v.toNat)

/-- SAF_AUTO_WRITE (R381): a write of SAF.CFG; one that sets AUTO while READY stands ends safe state. -/
def execSafAutoWrite (r : Requester) (v : Word) (s : State) : Host.Outcome State Fault Refusal :=
  .next (onWrite s r pSAF fun s =>
    if pageLocked s pSAF then lockViol s pSAF else safAuto (wrN s pSAF rSAF_CFG (v.toNat % 4)))

/-- A write of ESC_MASK: the counts follow (R382). -/
def escMaskWrite (s : State) (hi : Bool) (v : Nat) : State :=
  safEsc (wrN s pSAF (if hi then rSAF_ESC_MASK_HI else rSAF_ESC_MASK_LO) v)

/-! ### Resets (R378, R379, R449) -/

/-- A reset that enters safe state: no message counts as arrived, and the 3 ms of each die run from now; safe
state is entered with a cause. -/
def safReset (s : State) (cause : Nat) : State :=
  let now := mono s
  let s1 := { s with saf := { s.saf with
    vec := List.replicate 8 0, lastMsg := List.replicate 8 now, lost := 0, degFell := none, settleFrom := none, esc := [] } }
  let s2 := wrN (wr64 s1 pSAF rSAF_ACTIVE_LO rSAF_ACTIVE_HI 0) pSAF rSAF_DIE_SEEN 0
  safSettle (safEnter (wrN s2 pSAF rSAF_STAT 0) cause 0)

/-- Every reset other than ISLAND cancels the running escalation counts; a source that still stands begins a
new one (R382, R453). -/
def safEscCancel (s : State) : State := safEsc { s with saf := { s.saf with esc := [] } }

/-- Entry to KEEP: the Port and Radio dies' vectors count as zero until they send again (R449). -/
def safKeep (s : State) : State :=
  { s with saf := { s.saf with vec := (List.range 8).map fun d => if 2 ≤ d then 0 else ix s.saf.vec d 0 } }

/-- Exit from KEEP: the Port and Radio dies are judged again from now. -/
def safKeepEnd (s : State) : State :=
  let now := mono s
  { s with saf := { s.saf with lastMsg := (List.range 8).map fun d => if 2 ≤ d then now else ix s.saf.lastMsg d 0 } }

end Sys2Proof.Machine
end

