-- ==== Sys2Proof/Machine/Tdc.lean ====
section
/-! DEFINITION. The time-interval unit (R295–R309): channels, arming, the three modes, averages, results and
self-calibration, and requests to the calibration ring (R311). -/

namespace Sys2Proof.Machine

/-! ### Settings -/

/-- Change the unit. -/
def updTdc (s : State) (f : Tdc → Tdc) : State := { s with tdc := f s.tdc }

/-- The settings the registers hold now. -/
def tdcRegs (s : State) : TdcSet :=
  let p := pTDC
  { cfg := rdN s p rTDC_CFG, stop := get s p fTDC_STOP_MASK_CH, edge := get s p fTDC_EDGE_CAP
    hf := rdN s p rTDC_HF_CFG, timeout := get s p fTDC_TIMEOUT_US, gate := get s p fTDC_FREQ_GATE_MS
    ofs := (List.range 10).map fun k => rdN s p (rTDC_CH_OFS k) }

/-- CFG.MODE; 3 is treated as 0. -/
def TdcSet.mode (c : TdcSet) : Nat := if c.cfg % 4 = 3 then 0 else c.cfg % 4
/-- CFG.ARM; 3 is treated as 0. -/
def TdcSet.arm (c : TdcSet) : Nat := if c.cfg / 4 % 4 = 3 then 0 else c.cfg / 4 % 4
/-- CFG.REPEAT. -/
def TdcSet.again (c : TdcSet) : Bool := bitOf c.cfg 5
/-- CFG.SIGNED. -/
def TdcSet.sign (c : TdcSet) : Bool := bitOf c.cfg 6
/-- CFG.START_CH; 10–15 are treated as 0. -/
def TdcSet.startCh (c : TdcSet) : Nat := if c.cfg / 256 % 16 < 10 then c.cfg / 256 % 16 else 0
/-- CFG.AVG_LOG2, in INTERVAL mode only. -/
def TdcSet.avg (c : TdcSet) : Nat := if c.mode = 0 then c.cfg / 4096 % 16 else 0
/-- The channels of STOP_MASK, ascending. -/
def TdcSet.chans (c : TdcSet) : List Nat := (List.range 10).filter fun k => bitOf c.stop k
/-- TIMEOUT in 2⁻¹⁶ ns. -/
def TdcSet.timeoutU (c : TdcSet) : Nat := orD c.timeout 1 * 65536000
/-- FREQ_GATE in 2⁻¹⁶ ns. -/
def TdcSet.gateU (c : TdcSet) : Nat := orD c.gate 1 * 65536000000

/-- A channel takes edges (R295). -/
def TdcSet.takes (c : TdcSet) (ch : Nat) : Bool :=
  if ch < 8 then c.edge / 4 ^ ch % 4 != 0 else bitOf c.hf (if ch = 8 then 4 else 12)

/-- The channels a measurement names. -/
def TdcSet.named (c : TdcSet) : List Nat :=
  if c.mode = 0 then c.startCh :: c.chans else if c.mode = 1 then c.chans else [c.startCh]

/-- STAT.ARMED: the armed window is open. -/
def tdcArmed (s : State) : Bool := flag s pTDC fTDC_STAT_ARMED

/-- STAT.BUSY: a start or edge 0 has been taken. -/
def tdcBusy (s : State) : Bool := flag s pTDC fTDC_STAT_BUSY

/-- The settings that hold: those in force while armed or busy, else the registers' (R307). -/
def tdcSet (s : State) : TdcSet := if tdcArmed s || tdcBusy s then s.tdc.set else tdcRegs s

/-- The unit's self-calibration holds. -/
def tdcCal (s : State) : Bool := flag s pTDC fTDC_STAT_CAL_OK

/-- TDC_GATE is at its active level. -/
def gateActive (s : State) (c : TdcSet) : Bool := s.tdc.gateHigh != bitOf c.cfg 4

/-! ### Results (R308) -/

/-- A result enters the FIFO, or is dropped where that is full. -/
def tdcPush (s : State) (w : List Nat) : State :=
  let p := pTDC
  if 256 ≤ s.tdc.fifo.length then
    raise (bump (updTdc s fun x => { x with lost := true }) p rTDC_OVF_CNT) p 1
  else
    let w' := (ix w 0 0 + ofBool s.tdc.lost * 0x400) :: w.drop 1
    let s1 := updTdc s fun x => { x with fifo := x.fifo ++ [w'], lost := false }
    let n := s1.tdc.fifo.length
    raiseIf (put s1 p fTDC_STAT_LVL n) (n == min 256 (orD (get s p fTDC_CFG_THRESH) 1)) p 0

/-- RES0 of a result: its kind, channel, flags from bit 7 up, scale generation and SEQ. -/
def tdcHead (s : State) (kind ch flags scale : Nat) : Nat :=
  1 + kind * 2 + ch * 8 + flags * 128 + scale * 0x1000 + ofBool (!tdcCal s) * 0x10000 + s.tdc.seq % 32768 * 0x20000

/-- A 64-bit value as two words, low first. -/
def twoWords (n : Nat) : List Nat := [n % 0x100000000, n / 0x100000000 % 0x100000000]

/-- An INTERVAL result. -/
def intervalWords (s : State) (ch : Nat) (d : Int) (coinc order late avg : Bool) (n : Nat) (start : PC64) :
    List Nat :=
  tdcHead s 0 ch (ofBool coinc + ofBool order * 2 + ofBool late * 4 + ofBool avg * 16) 0 ::
    twoWords (unsign 64 d) ++ [n] ++ twoWords start.toNat

/-! ### Arming (R298, R306) -/

/-- A measurement that has taken no edge. -/
def TdcRun.fresh (c : TdcSet) : TdcRun :=
  { start := none, stops := c.chans.map fun k => ⟨k, none, [], false, false⟩, n := 0, last := 0 }

/-- The means of an average that has gathered nothing. -/
def freshMeans (c : TdcSet) : List TdcMean := c.chans.map fun k => ⟨k, 0, 0, false, false⟩

/-- Why an arming is refused, the first code of Table 14-2 that applies; 0 where it is accepted. -/
def armWhy (s : State) (soft : Bool) : Nat :=
  let c := tdcRegs s
  if c.sign && !feat s 14 then 1
  else if (c.mode < 2 && c.stop == 0) || (c.mode == 0 && decide (8 < c.chans.length)) then 2
  else if c.named.any fun k => !c.takes k then 3
  else if soft && (tdcArmed s || tdcBusy s) then 4
  else if !tdcCal s then 5
  else 0

/-- The unit is armed with the settings the registers hold, and an average starts. -/
def armNow (s : State) : State :=
  let c := tdcRegs s
  let n := s.clk.p.toNat
  let s1 := updTdc s fun x =>
    { x with set := c, run := some (TdcRun.fresh c), armedAt := n, rearm := none, done := 0, means := freshMeans c }
  put (putB s1 pTDC fTDC_STAT_ARMED true) pTDC fTDC_STAT_ERR 0

/-- The unit is armed for the next measurement of the average that gathers (R303). -/
def armOn (s : State) : State :=
  let n := s.clk.p.toNat
  putB (updTdc s fun x => { x with run := some (TdcRun.fresh x.set), armedAt := n, rearm := none }) pTDC
    fTDC_STAT_ARMED true

/-- An arming is judged. -/
def arm (s : State) (soft : Bool) : State :=
  let why := armWhy s soft
  if why = 0 then armNow s else raise (put s pTDC fTDC_STAT_ERR why) pTDC 2

/-- TDC_ARM (R298, R306): a write of CTRL.ARM, which arms under ARM = SOFT. -/
def execTdcArm (r : Requester) (s : State) : Host.Outcome State Fault Refusal :=
  .next (onWrite s r pTDC fun s => if (tdcRegs s).arm = 0 then arm s true else s)

/-! ### Ends of measurements and windows -/

/-- The armed window closes. -/
def closeWindow (s : State) : State :=
  putB (putB (updTdc s fun x => { x with run := none, rearm := none }) pTDC fTDC_STAT_ARMED false)
    pTDC fTDC_STAT_BUSY false

/-- A mean in 2⁻¹⁶ ns, ties away from zero (R302). -/
def tdcMean (sum : Int) (n : Nat) : Int :=
  if sum < 0 then -((2 * -sum + n) / (2 * n)) else (2 * sum + n) / (2 * n)

/-- The average is written: one result per stop channel. -/
def writeMeans (s : State) : State :=
  s.tdc.means.foldl (fun s m =>
    if m.n = 0 then tdcPush s (intervalWords s m.ch 0 m.coinc m.order true true 0 s.tdc.lastStart)
    else tdcPush s (intervalWords s m.ch (tdcMean m.sum m.n) m.coinc m.order false true m.n s.tdc.lastStart)) s

/-- After a completion: the unit waits to re-arm, or the window ends (R298, R303). `more` says that an average
goes on. -/
def afterDone (s : State) (more : Bool) : State :=
  let c := s.tdc.set
  let open' := c.arm != 1 || gateActive s c
  let s1 := putB (updTdc s fun x => { x with run := none }) pTDC fTDC_STAT_BUSY false
  if (more && c.arm != 2 || c.again) && open' then
    let n := s.clk.p.toNat
    updTdc s1 fun x => { x with rearm := some (n + 1310720) }
  else if more && c.arm == 2 then putB s1 pTDC fTDC_STAT_ARMED false
  else closeWindow s1

/-- A measurement is counted. -/
def countMeas (s : State) : State :=
  bump (updTdc s fun x => { x with seq := x.seq + 1 }) pTDC rTDC_MEAS_CNT

/-- A stop enters its mean. -/
def TdcMean.take (m : TdcMean) (start : PC64) (x : TdcStop) : TdcMean :=
  match x.e with
  | none => m
  | some e => { m with n := m.n + 1, sum := m.sum + pcDiff e start, coinc := m.coinc || e == start
                       order := m.order || x.order }

/-- The result of a stop of one measurement. -/
def stopResult (s : State) (start : Option PC64) (x : TdcStop) : State :=
  match start, x.e with
  | some t, some e =>
    tdcPush s (intervalWords s x.ch (pcDiff e t) (e == t) x.order false false 1 t)
  | _, _ => tdcPush s (intervalWords s x.ch 0 false x.order true false 1 (start.getD 0))

/-- The counts that the stops of a measurement add: COINC_CNT and TIMEOUT_CNT. -/
def countStops (s : State) (start : Option PC64) (l : List TdcStop) : State :=
  let c := (l.filter fun x => x.e.isSome && x.e == start).length
  let t := (l.filter fun x => x.e.isNone).length
  bumpBy (bumpBy s pTDC rTDC_COINC_CNT c) pTDC rTDC_TIMEOUT_CNT t

/-- An INTERVAL measurement completes: its results are written, or enter the average. -/
def doneInterval (s : State) (r : TdcRun) : State :=
  let s1 := countStops s r.start r.stops
  let k := s.tdc.set.avg
  if k = 0 then
    afterDone (countMeas (r.stops.foldl (fun s x => stopResult s r.start x) s1)) false
  else
    let t := r.start.getD 0
    let s2 := updTdc s1 fun x =>
      { x with done := x.done + 1, lastStart := t
               means := x.means.map fun m => (r.stops.find? fun y => y.ch == m.ch).elim m fun y => m.take t y }
    if 2 ^ min k 10 ≤ s2.tdc.done then
      let s3 := countMeas (writeMeans s2)
      afterDone (updTdc s3 fun x => { x with done := 0, means := freshMeans x.set }) false
    else afterDone (countMeas s2) true

/-- A FREQUENCY measurement ends with N and T, or with TIMEOUT. -/
def doneFreq (s : State) (r : TdcRun) (ok : Bool) : State :=
  let t := r.start.getD 0
  let d := if ok then (pcDiff r.last t).toNat else 0
  let w := tdcHead s 2 s.tdc.set.startCh (ofBool (!ok) * 4) 0 :: twoWords d ++ [if ok then r.n else 0] ++
    twoWords t.toNat
  let s1 := if ok then s else bump s pTDC rTDC_TIMEOUT_CNT
  afterDone (countMeas (tdcPush s1 w)) false

/-- A partial average of the measurements completed so far is written where an average ends early (R303). -/
def partialMeans (s : State) : State :=
  if s.tdc.set.avg = 0 ∨ s.tdc.done = 0 then s
  else updTdc (writeMeans s) fun x => { x with done := 0, means := freshMeans x.set }

/-- TDC_DISARM (R298, R303): the window ends at once, with no result for the measurement in progress. -/
def tdcDisarm (s : State) : State := closeWindow (partialMeans s)

/-- TDC_DISARM: a write of CTRL.DISARM. -/
def execTdcDisarm (r : Requester) (s : State) : Host.Outcome State Fault Refusal :=
  .next (onWrite s r pTDC fun s => if tdcArmed s || tdcBusy s || s.tdc.done ≠ 0 then tdcDisarm s else s)

/-- FLUSH empties the FIFO and discards a partial average. -/
def tdcFlush (s : State) : State :=
  put (updTdc s fun x => { x with fifo := [], done := 0, means := freshMeans x.set }) pTDC fTDC_STAT_LVL 0

/-- TDC_FLUSH (R308): a write of CTRL.FLUSH. -/
def execTdcFlush (r : Requester) (s : State) : Host.Outcome State Fault Refusal :=
  .next (onWrite s r pTDC tdcFlush)

/-- TDC_REARM (R298, R303): 20 ns after a completion the unit arms itself again. An average that goes on keeps
its settings; the next one, and a repeated measurement, takes those the registers hold. -/
def execTdcRearm (s : State) : Host.Outcome State Fault Refusal :=
  match s.tdc.rearm with
  | none => .next s
  | some t =>
    let s1 := advP s t
    .next (if s1.tdc.set.avg ≠ 0 ∧ s1.tdc.done ≠ 0 then armOn s1 else armNow s1)

/-! ### TDC_GATE (R298) -/

/-- The gate leaves its active level under GATE_LEVEL: stops without an edge give TIMEOUT, a count ends at its
last edge, and a partial average is written (R301, R303, R305). -/
def gateCloses (s : State) : State :=
  let c := s.tdc.set
  match s.tdc.run with
  | none => tdcDisarm s
  | some r =>
    if c.mode = 1 then closeWindow (countMeas s)
    else if c.mode = 2 then closeWindow (doneFreq s r (r.start.isSome && decide (1 ≤ r.n)))
    else if c.avg ≠ 0 ∧ r.start.isNone then tdcDisarm s
    else tdcDisarm (doneInterval s r)

/-- A gate edge under GATE_EDGE arms one measurement, unless one is open (R298). -/
def gateArms (s : State) : State :=
  if s.tdc.run.isSome then s
  else if s.tdc.set.arm = 2 ∧ s.tdc.set.avg ≠ 0 ∧ s.tdc.done ≠ 0 then armOn s
  else arm s false

/-- TDC_GATE_EDGE (R298): the level of TDC_GATE becomes `high`. -/
def execTdcGateEdge (high : Bool) (s : State) : Host.Outcome State Fault Refusal :=
  let s1 := updTdc s fun x => { x with gateHigh := high }
  if !pageEn s pTDC || s.tdc.gateHigh == high then .next s1
  else
    let c := tdcSet s1
    let active := gateActive s1 c
    .next (if c.arm = 1 then
        (if active then (if tdcArmed s1 then s1 else arm s1 false)
        else if tdcArmed s1 then gateCloses s1 else s1)
      else if c.arm = 2 ∧ active then gateArms s1 else s1)

/-- A write of CFG: under GATE_LEVEL the unit arms where the gate is active already. -/
def gateFollow (s : State) : State :=
  let c := tdcRegs s
  if pageEn s pTDC && c.arm == 1 && gateActive s c && !tdcArmed s && !tdcBusy s then arm s false else s

/-! ### Edges (R296, R297, R299–R305) -/

/-- The stamp of an edge: the channel's offsets removed, at the LSB of 2⁻¹⁰ ns (R297, Table 25-1). -/
def tdcStamp (s : State) (c : TdcSet) (ch : Nat) (at' : PC64) : PC64 :=
  let o := psUnits (signed 32 (ix c.ofs ch 0))
  let j := if perturbed s 1 then psUnits (signed 32 (rdN s (pTST 1) (rTST_TDC_OFS ch))) else 0
  let e := at' - BitVec.ofInt 64 o + BitVec.ofInt 64 j
  BitVec.ofNat 64 (e.toNat / 64 * 64)

/-- The prescaler exponent of channel 8 or 9; above 10 is stored as 10. -/
def preExp (c : TdcSet) (ch : Nat) : Nat := c.hf / (if ch = 8 then 1 else 256) % 16

/-- The prescaler of an HF channel counts an edge; the answer says that its output rises (R296). -/
def preCount (s : State) (c : TdcSet) (ch : Nat) : State × Bool :=
  let n := ix s.tdc.pre (ch - 8) 0 + 1
  let full := decide (2 ^ preExp c ch ≤ n)
  (updTdc s fun x => { x with pre := x.pre.set (ch - 8) (if full then 0 else n) }, full)

/-- The stops after the start at `t` has come: edges held before it are judged (R299, R300). The answer counts
the edges discarded. -/
def TdcStop.judge (x : TdcStop) (t : PC64) : TdcStop × Nat :=
  let early := x.held.takeWhile fun e => decide (pcDiff e t ≤ -64)
  ({ x with e := (x.held.drop early.length).head?, held := [], order := x.order || early ≠ [] }, early.length)

/-- ORDER discards are counted (R300). -/
def countOrder (s : State) (n : Nat) : State :=
  if n = 0 then s else raise (bumpBy s pTDC rTDC_ORDER_CNT n) pTDC 3

/-- The measurement goes on with new contents, and completes where every stop has its edge. -/
def setRun (s : State) (r : TdcRun) : State :=
  let s1 := putB (updTdc s fun x => { x with run := some r }) pTDC fTDC_STAT_BUSY r.start.isSome
  if r.start.isSome && (r.stops.all fun x => x.e.isSome) then doneInterval s1 r else s1

/-- An edge of a stop channel in INTERVAL mode (R299, R300). -/
def stopEdge (s : State) (c : TdcSet) (r : TdcRun) (ch : Nat) (e : PC64) : State :=
  match r.stops.find? fun x => x.ch == ch with
  | none => s
  | some x =>
    let with' := fun (y : TdcStop) => { r with stops := r.stops.map fun z => if z.ch = ch then y else z }
    if x.e.isSome then s
    else match r.start with
      | none =>
        if c.sign then (if x.held = [] then setRun s (with' { x with held := [e] }) else s)
        else setRun s (with' { x with held := x.held ++ [e] })
      | some t =>
        if !c.sign && decide (pcDiff e t ≤ -64) then
          setRun (countOrder s 1) (with' { x with order := true })
        else setRun s (with' { x with e := some e })

/-- The start edge of an INTERVAL measurement. -/
def startEdge (s : State) (c : TdcSet) (r : TdcRun) (e : PC64) : State :=
  if c.sign then
    setRun s { r with start := some e, stops := r.stops.map fun x => { x with e := x.held.head?, held := [] } }
  else
    let l := r.stops.map fun x => x.judge e
    setRun (countOrder s (l.foldl (fun n x => n + x.2) 0)) { r with start := some e, stops := l.map Prod.fst }

/-- An edge in INTERVAL mode: the first one of START_CH is the start, and no stop. -/
def intervalEdge (s : State) (c : TdcSet) (r : TdcRun) (ch : Nat) (e : PC64) : State :=
  if ch = c.startCh ∧ r.start.isNone then startEdge s c r e else stopEdge s c r ch e

/-- An edge in TIMESTAMP mode (R304). -/
def stampEdge (s : State) (ch : Nat) (e : PC64) : State :=
  let t := t96OfPc s e
  tdcPush s (tdcHead s 1 ch 0 (scaleGen s) :: twoWords e.toNat ++
    [t96Sec t % 0x100000000, t96Sec t / 0x100000000 % 0x10000 + t96Frac t * 0x10000, t96Ns t])

/-- An edge in FREQUENCY mode (R305). -/
def freqEdge (s : State) (c : TdcSet) (r : TdcRun) (e : PC64) : State :=
  match r.start with
  | none =>
    putB (updTdc s fun x => { x with run := some { r with start := some e, n := 0, last := e } }) pTDC
      fTDC_STAT_BUSY true
  | some t =>
    let r1 := { r with n := r.n + 1, last := e }
    if (c.gateU : Int) ≤ pcDiff e t then doneFreq s r1 true
    else updTdc s fun x => { x with run := some r1 }

/-- A taken edge reaches the measurement that is armed. -/
def useEdge (s : State) (c : TdcSet) (ch : Nat) (e : PC64) : State :=
  match s.tdc.run with
  | none => s
  | some r =>
    if c.mode = 0 then intervalEdge s c r ch e
    else if c.mode = 1 then (if bitOf c.stop ch then stampEdge s ch e else s)
    else if ch = c.startCh then freqEdge s c r e else s

/-- An edge of the selected kind is taken, or missed within 1.6 ns of the last one taken (R296). -/
def takeEdge (s : State) (c : TdcSet) (ch : Nat) (at' : PC64) : State :=
  let near := match ix s.tdc.last ch none with
    | none => false
    | some t => decide (pcDiff at' t * 10 < 1048576)
  if near then bump s pTDC rTDC_MISS_CNT
  else useEdge (updTdc s fun x => { x with last := x.last.set ch (some at') }) c ch (tdcStamp s c ch at')

/-- An edge matches a channel's selection (Table 14-1). -/
def edgeFits (c : TdcSet) (ch : Nat) (falling : Bool) : Bool :=
  if ch < 8 then bitOf (c.edge / 4 ^ ch) (ofBool falling) else c.takes ch && !falling

/-- TDC_EDGE (R299): an edge at the ball of a channel, at PC64 `at'` with the factory delay of the ball
removed. -/
def execTdcEdge (ch : Fin 10) (at' : PC64) (falling : Bool) (s : State) : Host.Outcome State Fault Refusal :=
  let c := tdcSet s
  if !pageEn s pTDC || !edgeFits c ch falling then .next s
  else
    let s1 := advPc s at'
    if ch.val < 8 then .next (takeEdge s1 c ch at')
    else
      let r := preCount s1 c ch
      .next (if r.2 then takeEdge r.1 c ch at' else r.1)

/-! ### Timeouts (R301, R305) -/

/-- The P at which the measurement that is armed times out, none where nothing bounds it. -/
def tdcDue (s : State) (r : TdcRun) : Option Int :=
  let c := s.tdc.set
  match r.start with
  | some t =>
    let p := (s.clk.p.toNat : Int) + pcDiff t (pcNow s)
    if c.mode = 2 then (if r.n = 0 then some (p + c.gateU + c.timeoutU) else none)
    else if c.mode = 0 then some (p + c.timeoutU) else none
  | none => if c.arm = 2 then some ((s.tdc.armedAt + c.timeoutU : Nat) : Int) else none

/-- TDC_TIMEOUT (R301, R305): the time of a measurement, or under GATE_EDGE of a window without a start, runs
out. -/
def execTdcTimeout (s : State) : Host.Outcome State Fault Refusal :=
  match s.tdc.run with
  | none => .next s
  | some r =>
    match tdcDue s r with
    | none => .next s
    | some t =>
      let s1 := advP s t.toNat
      .next (if s.tdc.set.mode = 2 then doneFreq s1 r false
        else if s.tdc.set.mode = 1 then closeWindow (countMeas s1)
        else doneInterval s1 r)

/-! ### Reading results (R308) -/

/-- TDC_RES_READ (R308): a read of RES0 removes the oldest result and latches it for its requester. -/
def execTdcResRead (r : Requester) (s : State) : Host.Outcome State Fault Refusal :=
  .next (onRead s r pTDC fun s =>
    let q := reqCode r
    match s.tdc.fifo with
    | [] => reply (wrB s q pTDC (rTDC_RES 0) 0) 0
    | w :: t =>
      let s1 := put (updTdc s fun x => { x with fifo := t }) pTDC fTDC_STAT_LVL t.length
      let s2 := (List.range 6).foldl (fun s k => wrB s q pTDC (rTDC_RES k) (ix w k 0)) s1
      reply s2 (ix w 0 0))

/-! ### HF_CFG (R296, R307) -/

/-- HF_CFG as a written value is stored: P above 10 as 10. -/
def hfStored (v : Nat) : Nat :=
  min (v % 16) 10 + v / 16 % 2 * 16 + min (v / 256 % 16) 10 * 256 + v / 4096 % 2 * 4096

/-- A measurement in progress on an HF channel ends with TIMEOUT. -/
def hfCut (s : State) : State :=
  match s.tdc.run with
  | none => s
  | some r =>
    let c := s.tdc.set
    if r.start.isNone || c.mode == 1 then s
    else if c.mode = 2 then (if 8 ≤ c.startCh then doneFreq s r false else s)
    else if c.startCh < 8 ∧ (r.stops.all fun x => decide (x.ch < 8) || x.e.isSome) then s
    else doneInterval s r

/-- HF_CFG_WRITE (R296): a write of TDC.HF_CFG restarts the prescalers. -/
def execHfCfgWrite (r : Requester) (v : Word) (s : State) : Host.Outcome State Fault Refusal :=
  .next (onWrite s r pTDC fun s =>
    if pageLocked s pTDC then lockViol s pTDC
    else hfCut (updTdc (wrN s pTDC rTDC_HF_CFG (hfStored v.toNat)) fun x => { x with pre := [0, 0] }))

/-! ### Self-calibration (R309) -/

/-- TDC_CAL_OK (R309): self-calibration completes. -/
def execTdcCalOk (s : State) : Host.Outcome State Fault Refusal :=
  if pageEn s pTDC && !tdcCal s then .next (doubt (putB s pTDC fTDC_STAT_CAL_OK true) pTDC 0 false)
  else .next s

/-- CAL_LOST (R309): a delay line leaves its correctable range. -/
def execCalLost (s : State) : Host.Outcome State Fault Refusal :=
  if pageEn s pTDC && tdcCal s then .next (raise (doubt (putB s pTDC fTDC_STAT_CAL_OK false) pTDC 0 true) pTDC 6)
  else .next s

/-- The page is enabled: calibration starts; or disabled: measurements end and nothing is calibrated. -/
def tdcEnabled (s : State) (on : Bool) : State :=
  let s1 := putB s pTDC fTDC_STAT_CAL_OK false
  if on then gateFollow (doubt s1 pTDC 0 true)
  else doubt (closeWindow (updTdc s1 fun x => { x with done := 0, means := freshMeans x.set })) pTDC 0 false

/-! ### The calibration ring (R311) -/

/-- The lane of a software request can be measured. -/
def ringLaneOk (s : State) (lane : Nat) : Bool :=
  if lane < 32 then
    pageOn s (pMAC (lane / 8) (lane % 8)) && portMode s (lane / 8) (lane % 8) != 0
  else decide (lane < 36)

/-- RING_GO (R311): a write of RING_CMD.GO requests a measurement for software, or is refused. -/
def execRingGo (r : Requester) (lane : Fin 64) (s : State) : Host.Outcome State Fault Refusal :=
  .next (onWrite s r pTDC fun s =>
    let p := pTDC
    if flag s p fTDC_RING_CMD_BUSY then raise (put s p fTDC_RING_CMD_ERR 2) p 5
    else
      let s1 := put s p fTDC_RING_CMD_LANE lane
      if ringLaneOk s lane then putB (put s1 p fTDC_RING_CMD_ERR 0) p fTDC_RING_CMD_BUSY true
      else raise (put s1 p fTDC_RING_CMD_ERR 1) p 5)

/-- A software measurement of the ring completes with `ps`. -/
def ringSoft (s : State) (ps : Nat) : State :=
  let p := pTDC
  if flag s p fTDC_RING_CMD_BUSY then
    let s1 := put s p fTDC_RING_RES_PS (satU 16 ((ps : Int) + ringOfs s).toNat)
    let s2 := put s1 p fTDC_RING_RES_LANE (get s p fTDC_RING_CMD_LANE)
    raise (putB s2 p fTDC_RING_CMD_BUSY false) p 4
  else s

/-- An ISLAND reset of Timebase island 3 (R313): the measurement ends, the FIFO empties, calibration starts
again, and a software ring request is abandoned. -/
def tdcIslandReset (s : State) : State :=
  let s1 := closeWindow (tdcFlush s)
  let s2 := updTdc s1 fun x => { x with pre := [0, 0], last := List.replicate 10 none, lost := false }
  let s3 := if tdcCal s2 then raise (doubt (putB s2 pTDC fTDC_STAT_CAL_OK false) pTDC 0 true) pTDC 6 else s2
  if flag s3 pTDC fTDC_RING_CMD_BUSY then
    raise (put (putB s3 pTDC fTDC_RING_CMD_BUSY false) pTDC fTDC_RING_CMD_ERR 3) pTDC 5
  else s3

end Sys2Proof.Machine
end

