-- ==== Sys2Proof/Machine/Reset.lean ====
section
/-! DEFINITION. Resets (spec/22, R438, R450–R457): what each kind does to every block, the causes that meet, and
the release. -/

namespace Sys2Proof.Machine

/-! ### Straps (R396, R428, R451, R463) -/

/-- BOOT.STAT.STRAP shows BOOT_SEL as sampled. -/
def strapBoot (s : State) : State := put s pBOOT fBOOT_STAT_STRAP s.straps.bootSel

/-- The cold value of KEY.CFG.SRC follows ROLE_SEL. -/
def strapKey (s : State) : State := putB s pKEY fKEY_CFG_SRC s.straps.roleSel

/-- The cold value of ASK.CFG.MODE follows ROLE_SEL: link 0 is UPSTREAM on a worker, every other DOWNSTREAM. -/
def strapAsk (s : State) : State :=
  (List.range 4).foldl (fun s k => put s (pASK k) fASK_CFG_MODE (if k = 0 ∧ s.straps.roleSel = true then 1 else 2)) s

/-! ### PIN, WARM and GUARD -/

/-- The Kept letter of a reset kind: P, W and G for kinds 1 to 3, I for kind 4 (R30). -/
def kindLetter (kind : Nat) : Nat := kind - 1

/-- The pages whose block goes on through a PIN, WARM or GUARD reset, so that the registers that follow it do too:
the timebase, the servo and oven, the safe-state controller, the recorder, the replicas and monitors, the key
island; and through WARM the outputs and the Askair links (R455, R456). -/
def blockRuns (kind : Nat) (p : Pg) : Bool :=
  match pageKind p with
  | some .isl | some .blv | some .tbe | some .ltr | some .ovn | some .dsc | some .saf | some .recd | some .age | some .key => true
  | some .mck | some .ask => kind == 2
  | _ => false

/-- The registers return to their cold values as their letters say; TSU.AGE_TRIM shows what the AGE page holds. -/
def resetRegs (s : State) (kind : Nat) : State :=
  let l := kindLetter kind
  noteAll s (sweep s fun a =>
    let p := pgOf a
    !keeps a l && (!blockRuns kind p || !follows a) && !(pageKind p == some .tsu && offOf a == rTSU_AGE_TRIM))

/-- INT_RAW of every page is cleared again after what the blocks have done. -/
def clearInts (s : State) (die : Nat → Bool) (isl : Option Nat) : State :=
  sweep s fun a =>
    let p := pgOf a
    decide (a < 0x10000000) && offOf a == rINT_RAW && die p.die &&
      match isl, pageKind p with
      | some i, some k => pageIsland k p == i
      | _, _ => true

/-- The servo stops under R83, and every slot is off. A step the engine has asked for stays its own while it is
pending (R63). -/
def resetServo (s : State) : State :=
  let s1 := dscStop s
  let keep := stepPending s1
  let s2 := updServo s1 fun v =>
    { v with slots := List.replicate 6 Slot.cold, force := 7, want := none, mine := if keep then v.mine else none }
  dscDoubts (showServo (putB s2 pTBE fTBE_STAT_STEP_PEND keep) 7)

/-- Outputs, cues and captures: kept by WARM, lost by PIN and GUARD (R294). -/
def resetMck (s : State) (kind : Nat) : State :=
  if kind = 2 then s else refreshGates { s with mck := Mck.cold }

/-- Askair links: kept by WARM, retrained by PIN and GUARD (R412). -/
def resetAsk (s : State) (kind : Nat) : State :=
  if kind = 2 then s else (List.range 4).foldl showAsk (strapAsk (askReset s))

/-- The keystore: erased by PIN; kept by WARM and GUARD, with the generation timer restarted (Table 11-6). -/
def resetKeys (s : State) (kind : Nat) : State :=
  let s1 := strapKey (dropMint s)
  if kind = 1 then showKeys { keysLost s1 with kisl := KeyIsland.cold }
  else
    let now := mono s1
    showKeys (updKisl s1 fun x => { x with genAt := now, postponed := false })

/-- A Port die: every port, table and engine starts again, and its keys are sent again (R244, R457). -/
def resetDie (s : State) (d : Nat) : State :=
  let safe := flag s pSAF fSAF_STAT_SAFE
  showTimed (crossUp (updPd s d fun _ => { PortDie.cold with safe := safe }) d) d

/-- What a PIN, WARM or GUARD reset does beyond the registers (R450, R456, R457). -/
def resetBlocks (s : State) (kind : Nat) : State :=
  let s0 := if kind = 1 then coreLost s else s
  let s1 := { s0 with fab := Fabric.cold, rad := Radio.cold, pke := Pke.cold, boot := Boot.cold, cntLatch := []
                      tdc := { Tdc.cold with gateHigh := s.tdc.gateHigh } }
  let s2 := strapBoot (hartsReset (hifReset (ageReset s1)))
  let s3 := putB s2 (pAGE 0) fAGE_REVIEW_STAT_BUSY false
  let s4 := clearInts (resetKeys (resetAsk (resetMck (resetServo s3) kind) kind) kind) (fun _ => true) none
  let s5 := if kind = 2 then safEscCancel s4 else safReset s4 1
  (List.range 4).foldl resetDie s5

/-- A reset is held until an instant; it abandons a transition and returns the device to RUN (R449, R450). -/
def holdReset (s : State) (kind until' : Nat) : State :=
  updPwr s fun x => { x with on := 0x7FFF, ret := 0, turning := 0, entering := none, exiting := false, woken := 0, avs := []
                             held := [(kind, 0, 0, until')] }

/-- A reset of a kind is taken, unless a harsher one is held (R453). Its RESET record is the first that the writer
writes (R373), and ends with the HEAD_SEQ of before. -/
def takeReset (s : State) (kind cause wait : Nat) : State :=
  if s.pwr.held.any fun h => h.1 < kind then s
  else
    let arg := kind + cause * 0x100
    let e : RecEntry := ⟨mkRec s pHubDie 0x105 (if kind = 3 then 3 else 2) false arg (rdN s pREC rREC_HEAD_SEQ), none⟩
    let s1 := tstLockAll (stagingLost s)
    let s2 := resetBlocks (holdReset (resetRegs s1 kind) kind (mono s + wait)) kind
    wrN { s2 with recd := { s2.recd with first := some e } } pHubDie rDIE_RST_CAUSE arg

/-- PIN_RESET (R450, R451): RESET_N is driven low for `low` ns; the straps are sampled as it rises, and the reset
is released 100 µs later. -/
def execPinReset (bootSel : Fin 4) (roleSel testEn : Bool) (low : Nat) (s : State) : Host.Outcome State Fault Refusal :=
  if s.pwr.held.any fun h => h.1 == 0 then .next s
  else .next (takeReset { s with straps := ⟨bootSel, roleSel, testEn⟩ } 1 1 (low + 100000))

/-- The cause code of a requester: HOST or KEEPER (Table 22-4). -/
def causeOf : Requester → Nat
  | .host => 2
  | .hart _ => 3

/-- WARM_RESET (R452): a write of DIE.RST_CTRL with WARM by the host or a keeper. -/
def execWarmReset (r : Requester) (s : State) : Host.Outcome State Fault Refusal :=
  .next (onWrite s r pHubDie fun s =>
    if isApp r then deny s r 1 else takeReset (put s pHubDie fDIE_RST_CTRL_ERR 0) 2 (causeOf r) 100000)

/-- RST_WARM (R492): a write of TST.CTRL with RST_WARM takes a WARM reset with cause TEST. -/
def execRstWarm (r : Requester) (die : Fin 8) (s : State) : Host.Outcome State Fault Refusal :=
  .next (onWrite s r (pTST die) fun s => tstWrite s die fun s => takeReset (put s pHubDie fDIE_RST_CTRL_ERR 0) 2 7 100000)

/-- KEEPER_WDT_GRACE (R348): the other stage of keeper h's watchdog passes without a kick, and a GUARD reset with
cause WATCHDOG is taken. -/
def execKeeperWdtGrace (h : Fin 2) (s : State) : Host.Outcome State Fault Refusal :=
  match graceAt s h with
  | none => .next s
  | some t => .next (takeReset (advMono s t) 3 4 100000)

/-- The source that escalates first: it and the start of its count. -/
def firstEsc : List (Nat × Nat) → Option (Nat × Nat)
  | [] => none
  | x :: t => match firstEsc t with
    | none => some x
    | some y => some (if y.2 < x.2 then y else x)

/-- ESCALATE (R382): a source has stood for ESC.SEC seconds. The SAFE_ESCALATE record is written before the GUARD
reset with cause SAFE_ESC is taken. -/
def execEscalate (s : State) : Host.Outcome State Fault Refusal :=
  match firstEsc s.saf.esc with
  | none => .next s
  | some (n, t) =>
    if get s pSAF fSAF_ESC_MAX ≤ get s pSAF fSAF_ESC_CNT_CNT then .next s
    else
      let s1 := advMono s (t + orD (get s pSAF fSAF_ESC_SEC) 1 * 1000000000)
      let s2 := raise (bumpF s1 pSAF fSAF_ESC_CNT_CNT) pSAF 7
      let s3 := writeEntry s2 ⟨mkRec s2 pSAF 0x144 3 false n (get s2 pSAF fSAF_ESC_CNT_CNT), none⟩
      .next (takeReset s3 3 5 100000)

/-! ### COLD -/

/-- The state at the start of a COLD reset, before the straps and the fuses show. The queue, the count of free values and
the level of the gate's pin are no state of the reset. -/
def coldBase (s : State) (straps : Straps) (rise : Bool) : State :=
  { State.cold with
    pending := s.pending, free := s.free, straps := straps, tdc := { Tdc.cold with gateHigh := s.tdc.gateHigh }
    pwr := { Power.cold with avs := State.cold.pwr.avs, held := [(0, 0, ofBool (!rise), 1000000)] } }

/-- Everything returns to its start (R438, R450). The fuses of OTP are permanent (R457); the straps are sampled as
PWRGOOD rises; while it is low the reset cannot be released. -/
def coldState (s : State) (straps : Straps) (rise : Bool) : State :=
  let s1 := wr (coldBase s straps rise) pBOOT rBOOT_OTP_STAT (rd s pBOOT rBOOT_OTP_STAT)
  strapBoot (strapKey ((List.range 4).foldl showAsk (strapAsk s1)))

/-- COLD_RESET (R438): PWRGOOD rises, with the straps as sampled, or falls. -/
def execColdReset (rise : Bool) (bootSel : Fin 4) (roleSel testEn : Bool) (s : State) :
    Host.Outcome State Fault Refusal :=
  .next (coldState s (if rise then ⟨bootSel, roleSel, testEn⟩ else s.straps) rise)

/-! ### The release -/

/-- RESET_RELEASE (R450): the internal reset is released after its delay. A reset other than ISLAND starts hart 0 in
the boot ROM (R338), and the 3 ms of SAF_DIE_LOST and the escalation counts run from now (R378, R382). -/
def execResetRelease (s : State) : Host.Outcome State Fault Refusal :=
  match s.pwr.held with
  | [] => .next s
  | (kind, die, isl, t) :: rest =>
    if kind = 0 ∧ isl = 1 then .next s
    else
      let s1 := if kind = 0 then s else advMono s t
      let s2 := updPwr s1 fun x => { x with held := rest }
      let now := mono s2
      let s3 := { s2 with saf := { s2.saf with lastMsg := List.replicate 8 now } }
      if kind = 4 then .next (if die = 1 ∧ isl = 5 then s3 else s2)
      else if kind = 0 then .next (hartsBoot s2)
      else .next (safEscCancel (hartsBoot (if kind = 2 then s2 else s3)))

/-! ### ISLAND resets -/

/-- The registers of an island return to their cold values where their code lacks I; INT_RAW, cleared before the
block acts, stays, and DIE.PWR_STAT goes on showing the power state. -/
def islandRegs (s : State) (die isl : Nat) : State :=
  let on := fun (a : Nat) =>
    let p := pgOf a
    p.die == die && match pageKind p with
      | some k => pageIsland k p == isl
      | none => false
  let s1 := sweep s fun a => on a && !keeps a 3 && !follows a && offOf a != rINT_RAW
  let st := rdN s pHubDie rDIE_PWR_STAT % 8
  noteAll s (if die = 0 ∧ isl = 5 then wrN s1 pHubDie rDIE_PWR_STAT st else s1)

/-- Timebase island 1 (R83): the engine stops, and every enabled slot starts again. -/
def resetDsc (s : State) : State :=
  let s1 := dscStop s
  let s2 := (List.range 6).foldl (fun s k => slotCfgWritten (setSlot s k (ofBool (slotEn s k))) k false) s1
  dscDoubts (showServo s2 7)

/-- Timebase island 2 (R294): the queue and the capture FIFOs are emptied, and periodic outputs restart. -/
def resetOutputs (s : State) : State :=
  let s1 := setCues { s with mck := { s.mck with cueDone := [] } } []
  let s2 := (List.range 8).foldl (fun s n => updCap s n fun _ => CapIn.empty) s1
  (List.range 14).foldl (fun s ch => if (outRun s ch).want then startOut s ch else s) s2

/-- Timebase island 4 (R412): every link retrains without its link key. -/
def resetLinks (s : State) : State := (List.range 4).foldl linkKeysErased (askReset s)

/-- Timebase island 6 (R104): the heater is driven again. -/
def resetOven (s : State) : State :=
  doubt (updOven s fun o => { o with heaterOff := false }) pOVN 2 false

/-- Radio island 0 (R167): a capture that runs ends with the samples taken, and a warm-up follows. -/
def resetFrontEnd (s : State) (taken : List Byte) : State :=
  let s1 := spoilCapture s taken
  if gfOn s1 then gfUp (putB (doubt s1 pGRX 2 false) pGRX fGRX_STAT_PLL_LOCK false) else s1

/-- Radio island 1 (R133): the queue empties and the running job is abandoned; results stay. -/
def resetAcq (s : State) : State := clearRun (showJobq (updRad s fun r => { r with jobs := [] }))

/-- Radio island 2: every channel goes to IDLE and a pending move is dropped. -/
def resetTrk (s : State) : State :=
  let s1 := match s.rad.move with
    | some (_, dst, _) => endMove s dst
    | none => s
  (s1.rad.chans.map (·.1)).foldl idleChan s1

/-- The ring empties, NAVSYNC clears and the solution registers with it. -/
def resetNavBits (s : State) : State :=
  let s1 := wrN (wrN (wrN (wrN s pNAV rNAV_RD_IDX 0) pNAV rNAV_WR_IDX 0) pNAV rNAV_SOL_STAT 0) pNAV rNAV_STAT 0
  let s2 := (s.rad.chans.map (·.1)).foldl (fun s c =>
    updChan (putB s (pCH c) fSCH_STAT_NAVSYNC false) c fun x => { x with pre := none, even := none, fails := 0 }) s1
  updRad s2 fun r => { r with navSeq := 0, solved := none }

/-- Exclusions and SUSPECT end. -/
def resetMonitor (s : State) : State :=
  let now := mono s
  let s3 := updRad s fun r => { r with mon := { Monitor.cold with view := r.mon.view, quietFrom := some now } }
  let s4 := showInd (showExcl (wrN s3 pINT rINTM_CAUSE 0))
  showClearLeft (markSlot (doubt (putB s4 pINT fINTM_STAT_SUSPECT false) pINT 0 false) false)

/-- A capture is disarmed. -/
def resetSnap (s : State) : State :=
  match s.rad.arm with
  | some a => disarm s (if a.first.isSome then { a with was := 0 } else a)
  | none => s

/-- Radio island 3. -/
def resetNav (s : State) : State := resetSnap (resetMonitor (resetNavBits s))

/-- Port islands 0 and 1 (R182): the links fall, and every port calibrates again. -/
def resetGroup (s : State) (d g : Nat) : State :=
  (List.range 4).foldl (fun s k =>
    let i := 4 * g + k
    startCal (if flag s (pMAC d i) fMAC_STAT_LINK then linkFall s d i else s) d i) s

/-- An answer that a lane holds is dropped; its place on the wire stays idle. -/
def dropAnswers (s : State) (d : Nat) : State :=
  let s1 := (pd s d).siv.foldl (fun s j =>
    match j with
    | .answer i no => match (port s d i).books.find? fun b => b.no == no with
      | some b => abandon s d i b 0
      | none => s
    | .nak _ _ => s) s
  updPd s1 d fun x => { x with siv := [] }

/-- Port island 2: the lanes drop what they hold, the rate table is flushed, the PTP engine drops the messages that
wait and restarts its initiators, and the keys are sent again. -/
def resetEngines (s : State) (d : Nat) : State :=
  let s1 := (List.range 8).foldl (fun s i =>
    dropPdelay (updPort s d i fun p => { p with asks := p.asks.filter fun a => Builder.source a.by' != 1 }) d i)
    (dropAnswers s d)
  refillSiv (rateFlush s1 d) d

/-- Port island 3 (R198): the frames the launch unit holds are lost, and its late frames forgotten. -/
def resetLaunch (s : State) (d : Nat) : State :=
  showHold (doubt (updPd (loseFrames s d) d fun x => { x with lates := [] }) (pLCH d) 0 false) d

/-- What an ISLAND reset does beyond the island's registers. `taken` holds the samples of a capture that runs. -/
def islandBlock (s : State) (die isl : Nat) (taken : List Byte) : State :=
  if die = 0 then
    match isl with
    | 0 => keeperRestart s
    | 1 => hcFollow (appHartsStop s)
    | 2 => showKeys (pkeIslandReset (dropMint s))
    | 3 => hifReset (linkLost s)
    | 4 => pmcIslandReset s 0
    | _ => s
  else if die = 1 then
    match isl with
    | 1 => resetDsc s
    | 2 => resetOutputs s
    | 3 => tdcIslandReset s
    | 4 => resetLinks s
    | 5 => safReset s 1
    | 6 => resetOven s
    | 7 => pmcIslandReset s 1
    | _ => s
  else if die = 2 then
    match isl with
    | 0 => resetFrontEnd s taken
    | 1 => resetAcq s
    | 2 => resetTrk s
    | 3 => resetNav s
    | _ => pmcIslandReset s 2
  else
    match isl with
    | 0 => resetGroup s (die - 4) 0
    | 1 => resetGroup s (die - 4) 1
    | 2 => resetEngines s (die - 4)
    | 3 => resetLaunch s (die - 4)
    | _ => pmcIslandReset s die

/-- An ISLAND reset is taken, unless another kind is held (R453): the block, its registers, RST_CAUSE and the RESET
record, and the release 10 µs later. -/
def takeIsland (s : State) (cause die isl : Nat) (taken : List Byte) : State :=
  if inReset s then s
  else
    let arg := 4 + cause * 0x100 + die * 0x10000 + isl * 0x1000000
    let head := rdN s pREC rREC_HEAD_SEQ
    let s1 := islandBlock (clearInts s (fun d => d == die) (some isl)) die isl taken
    let err := get s1 pTDC fTDC_RING_CMD_ERR
    let s2 := islandRegs s1 die isl
    let s3 := if die = 1 ∧ isl = 3 then put s2 pTDC fTDC_RING_CMD_ERR err else s2
    let s4 := reviewIslandLost (wrN s3 pHubDie rDIE_RST_CAUSE arg) die isl
    let at' := mono s4 + 10000
    stage (updPwr s4 fun x => { x with held := x.held ++ [(4, die, isl, at')] }) 0 true
      ⟨mkRec s4 pHubDie 0x105 2 false arg head, none⟩

/-- R452: an island that does not exist draws ERR 1, and Timebase island 0 draws ERR 2. -/
def islandErr (die isl : Nat) : Nat :=
  if !dieHasRegs die || decide (islCount die ≤ isl) then 1 else if die = 1 ∧ isl = 0 then 2 else 0

/-- A request for an ISLAND reset is judged, and taken. -/
def islandRequest (s : State) (cause die isl : Nat) (taken : List Byte) : State :=
  let e := islandErr die isl
  let s1 := put s pHubDie fDIE_RST_CTRL_ERR e
  if e = 0 then takeIsland s1 cause die isl taken else s1

/-- ISLAND_RESET (R416, R452): a write of DIE.RST_CTRL with ISLAND by the host or a keeper; or, with no requester,
PERST_N is asserted and resets Hub island 3. -/
def execIslandReset (src : Option Requester) (die : Fin 8) (isl : Fin 16) (taken : List Byte) (s : State) :
    Host.Outcome State Fault Refusal :=
  match src with
  | none => .next (takeIsland s 6 0 3 taken)
  | some r => .next (onWrite s r pHubDie fun s =>
    if isApp r then deny s r 1
    else
      let s1 := put (put s pHubDie fDIE_RST_CTRL_ISL_DIE die) pHubDie fDIE_RST_CTRL_ISL isl
      islandRequest s1 (causeOf r) die isl taken)

/-- RST_ISLAND (R492): a write of TST.CTRL with RST_ISLAND takes an ISLAND reset with cause TEST. -/
def execRstIsland (r : Requester) (page : Fin 8) (die : Fin 8) (isl : Fin 16) (taken : List Byte) (s : State) :
    Host.Outcome State Fault Refusal :=
  .next (onWrite s r (pTST page) fun s => tstWrite s page fun s =>
    let s1 := put (put s (pTST page) fTST_CTRL_RST_DIE die) (pTST page) fTST_CTRL_RST_ISL isl
    islandRequest s1 7 die isl taken)

end Sys2Proof.Machine
end

