-- ==== Sys2Proof/Machine/Hooks.lean ====
section
/-! DEFINITION. What the enable, the disable and the soft reset of a page do to its block (Table 02-4). -/

namespace Sys2Proof.Machine

/-- A page's number among the ports, links or lanes of its kind. -/
def pageNo (k : PageKind) (p : Pg) : Nat := pageInst k p % 16

/-- A channel page's channel: survey 0–63, timing 64–79. -/
def pageChan (p : Pg) : Nat := p.page - 0x100

/-! ### Enable and disable -/

/-- The TSU page is disabled: CAL_OK reads 0 and TSU_CAL does not stand (R182). -/
def tsuDisabled (s : State) (d i : Nat) : State :=
  showTimed (watchCal (updPort (dropCal s d i) d i fun p => { p with cal := false }) d i) d

/-- Every channel is released (R136). -/
def allChansIdle (s : State) : State := (s.rad.chans.map (·.1)).foldl idleChan s

/-- EN of a page has been set. -/
def pageEnabled (before s : State) (k : PageKind) (p : Pg) : State :=
  let d := p.die - 4
  match k with
  | .mck => refreshGates s
  | .tdc => tdcEnabled s true
  | .ask => askEnabled s (pageNo k p)
  | .grx => gfFollow s
  | .tsu => startCal s d (pageNo k p)
  | .lch => showTimed s d
  | .tbl => tblEnabled s d
  | .ans => showStale s d (flag s p fANS_STAT_VIEW_STALE)
  | .pte => showBridges s d
  | .key => generateIfNone s
  | .pkel => laneEnabled s (pageInst k p) true
  | .tst => tstFollow before s p.die
  | _ => s

/-- EN of a page has been cleared: the block stops at its operation boundary (Table 02-4). -/
def pageDisabled (before s : State) (k : PageKind) (p : Pg) : State :=
  let d := p.die - 4
  match k with
  | .dsc => dscStop s
  | .mck => refreshGates s
  | .tdc => tdcEnabled s false
  | .ask => askEnabled s (pageNo k p)
  | .grx => gfFollow s
  | .acq => flushJobs s
  | .trk => allChansIdle s
  | .sch => idleChan s (pageChan p)
  | .tch => idleChan s (pageChan p)
  | .tsu => tsuDisabled s d (pageNo k p)
  | .lch => showTimed s d
  | .ans => showStale (ansDisabled s d) d (flag s p fANS_STAT_VIEW_STALE)
  | .pte => showBridges s d
  | .pke => pkeDisabled s
  | .pkel => laneEnabled s (pageInst k p) false
  | .tst => tstFollow before s p.die
  | _ => s

/-- A write of EN that changes it acts; a page that has not taken an acknowledgement discards a 1, unless it is
boot-enabled (R38). -/
def setEn (s : State) (p : Pg) (k : PageKind) (v : Bool) : State :=
  let was := flag s p fPAGE_CTRL_EN
  if v == was then s
  else if v && !flag s pHubDie fDIE_FEAT_CTRL_COMMITTED && !bootEnabled k then s
  else
    let s1 := putB s p fPAGE_CTRL_EN v
    noteDoubt s (if v then pageEnabled s s1 k p else pageDisabled s s1 k p) p false

/-! ### Soft reset -/

/-- The registers a soft reset returns to cold: INT_RAW, and those of the block that software only reads or clears,
but for status that follows the block's state and for what every reset keeps. -/
def softRegs (s : State) (p : Pg) (k : PageKind) : State :=
  sweep s fun a => pgOf a == p && (offOf a == rINT_RAW ||
    (decide (0x40 ≤ offOf a) && !follows a && keptAt a != 127 &&
      match rowOf k p (offOf a) with
      | none => false
      | some r => r.rw == 0 && r.rwl == 0 && r.w1s == 0))

/-- The links of the ports of a quad fall. -/
def quadFall (s : State) (d q : Nat) : State :=
  (List.range 4).foldl (fun s k =>
    let i := 4 * q + k
    if flag s (pMAC d i) fMAC_STAT_LINK then linkFall s d i else s) s

/-- The PTP engine drops the messages that wait and restarts its initiators. -/
def resetPte (s : State) (d : Nat) : State :=
  (List.range 8).foldl (fun s i =>
    dropPdelay (updPort s d i fun p => { p with asks := p.asks.filter fun a => Builder.source a.by' != 1 }) d i) s

/-- A soft reset returns the internal state of a page's block to its start, as an ISLAND reset does. -/
def softBlock (s : State) (k : PageKind) (p : Pg) : State :=
  let d := p.die - 4
  match k with
  | .pmc => pmcIslandReset s p.die
  | .age => if p.die = 0 then ageReset s else s
  | .tst => if flag s p fTST_STAT_UNLOCKED then tstLock s p.die else s
  | .dsc => dscStop s
  | .ref => resetDsc s
  | .ovn => resetOven s
  | .mck => resetOutputs s
  | .tdc => tdcIslandReset s
  | .ask => linkKeysErased (askLeave s (pageNo k p)) (pageNo k p)
  | .grx => resetFrontEnd s []
  | .acq => resetAcq s
  | .trk => resetTrk s
  | .sch => idleChan s (pageChan p)
  | .tch => idleChan s (pageChan p)
  | .nav => resetNavBits s
  | .int => resetMonitor s
  | .snp => resetSnap s
  | .sds => quadFall s d (pageNo k p)
  | .mac => if flag s p fMAC_STAT_LINK then linkFall s d (pageNo k p) else s
  | .tsu => startCal s d (pageNo k p)
  | .lch => resetLaunch s d
  | .ans => dropAnswers s d
  | .siv => refillSiv (dropAnswers s d) d
  | .pte => resetPte s d
  | .tbl => sesEmpty (rateFlush s d) d
  | .cpu => appHartsStop s
  | .pke => pkeIslandReset s
  | .pkel => startTest (abortLane s 4 (pageInst k p)) (pageInst k p)
  | .key => dropMint s
  | .hif => (List.range 16).foldl (fun s n => ringStop s n 0) s
  | .die => s
  | .isl => s
  | .blv => s
  | .ltr => s
  | .tbe => s
  | .saf => s
  | .recd => s
  | .boot => s

/-- A write of 1 to SRST: the block and its registers return at once, and SRST shows until it is done. -/
def softReset (s : State) (p : Pg) (k : PageKind) : State :=
  if flag s p fPAGE_CTRL_SRST then s
  else noteDoubt s (putB (softRegs (softBlock s k p) p k) p fPAGE_CTRL_SRST true) p false

/-! ### PAGE_STAT (Table 02-4) -/

/-- The block's own preconditions for READY hold: a replica is LOCKED (R67), a lane has passed its test (R334). -/
def blockReady (s : State) (k : PageKind) (p : Pg) : Bool :=
  match k with
  | .ltr => replicaOk s (p.die - 4)
  | .pkel => flag s p fPKEL_STAT_READY
  | _ => true

/-- PAGE_STAT as it reads. -/
def pageStat (s : State) (k : PageKind) (p : Pg) : Nat :=
  ofBool (pageEn s p && blockReady s k p && !flag s p fPAGE_CTRL_SRST) + ofBool (flag s p fPAGE_CTRL_SRST) * 2 +
    ofBool (pageDoubt s p) * 4 + ofBool (bitOf (rdN s p rINT_RAW) 30) * 8

end Sys2Proof.Machine
end

