-- ==== Sys2Proof/Machine/Power.lean ====
section
/-! DEFINITION. Power states (spec/22, R442–R449) and the AVSBus (R439, R440). -/

namespace Sys2Proof.Machine

/-! ### Requests (R444) -/

/-- DIE.PWR_STAT.STATE: 0 RUN, 1 LIGHT, 2 VIGIL, 3 KEEP. -/
def pwrState (s : State) : Nat := get s pHubDie fDIE_PWR_STAT_STATE

/-- WAKE_AT has been reached (R48, R446). -/
def wakeAtReached (s : State) : Bool :=
  decide (pcDiff (BitVec.ofNat 64 (rd64 s pHubDie rDIE_WAKE_AT_LO rDIE_WAKE_AT_HI)) (pcNow s) ≤ 0)

/-- The wake sources that stand, in the bit order of R446. -/
def wakeStands (s : State) (perst con ask : Bool) : Nat :=
  ofBool (wakeAtReached s) + ofBool (flag s pSAF fSAF_STAT_SAFE) * 2 + ofBool perst * 4 + ofBool con * 8 + ofBool ask * 16

/-- The wake sources enabled by WAKE_CFG. -/
def wakeEn (s : State) : Nat := get s pHubDie fDIE_WAKE_CFG_SRC

/-- R444: the first code that refuses a request; 0 where it is accepted. PERST_N is a fact that the write brings; CON and
ASK are arrivals, which do not go on standing. -/
def pwrErr (s : State) (req : Nat) (perst : Bool) : Nat :=
  if flag s pHubDie fDIE_PWR_STAT_BUSY then 1
  else if pwrState s ≠ 0 ∧ req ≠ 0 then 2
  else if 2 ≤ req ∧ wakeEn s = 0 then 3
  else if req ≠ 0 ∧ wakeEn s &&& wakeStands s perst false false ≠ 0 then 4
  else 0

/-- A request with GO: no effect for the state in force, else refused or begun. -/
def pwrGo (s : State) (req : Nat) (perst : Bool) : State :=
  let p := pHubDie
  let busy := flag s p fDIE_PWR_STAT_BUSY
  if !busy && pwrState s == req then s
  else
    let e := pwrErr s req perst
    let s1 := put s p fDIE_PWR_STAT_ERR e
    if e ≠ 0 then raise s1 p 1
    else
      let s2 := putB s1 p fDIE_PWR_STAT_BUSY true
      if req = 0 then updPwr s2 fun x => { x with exiting := true }
      else
        let s3 := updPwr s2 fun x => { x with entering := some req, woken := 0 }
        if 2 ≤ req then hartsStop s3 else s3

/-- A write of DIE.PWR_CTRL: REQ is stored, and GO requests it. -/
def pwrCtrl (s : State) (v : Nat) (perst : Bool) : State :=
  let req := fDIE_PWR_CTRL_REQ.of v
  let s1 := put s pHubDie fDIE_PWR_CTRL_REQ req
  if bitOf v 31 then pwrGo s1 req perst else s1

/-- PWR_REQUEST (R444): a write of DIE.PWR_CTRL by the host or a keeper hart. -/
def execPwrRequest (r : Requester) (v : Word) (perst : Bool) (s : State) : Host.Outcome State Fault Refusal :=
  .next (onWrite s r pHubDie fun s => if isApp r then deny s r 1 else pwrCtrl s v.toNat perst)

/-! ### Entry (R445) -/

/-- Every port of every die shows whether it is timed-ready, and counts its time without calibration. -/
def showAllPorts (s : State) : State :=
  (List.range 4).foldl (fun s d => showTimed ((List.range 8).foldl (fun s i => watchCal s d i) s) d) s

/-- The domains of LIGHT_RET that are on are held in retention (R443). -/
def enterLight (s : State) : State :=
  showAllPorts (updPwr s fun x => { x with ret := get s pHubDie fDIE_LIGHT_RET_DOM &&& x.on })

/-- Every switched domain turns off, and the endpoint takes its link down; in KEEP core SRAM and the islands of the
Port and Radio dies stop (R445, R449). -/
def enterDeep (s : State) (st : Nat) : State :=
  let s1 := pkeLost (dropMint (tstLockAll s))
  let s2 := (List.range 15).foldl domOff (updPwr s1 fun x => { x with turning := 0 })
  let s3 := linkLost s2
  let s4 := { s3 with rings := List.replicate 16 Ring.cold }
  if st = 3 then safKeep (coreLost s4) else s4

/-- A transition is recorded and shown (R445, R447). -/
def pwrChanged (s : State) (st bit : Nat) : State :=
  let s1 := record s pHubDie 0x106 1 (pwrState s) st
  raise (putB (put s1 pHubDie fDIE_PWR_STAT_STATE st) pHubDie fDIE_PWR_STAT_BUSY false) pHubDie bit

/-! ### Wake and exit (R446–R448) -/

/-- An exit begins: the sources that stand are recorded, the domains of DOM_REQ begin to turn on, and after KEEP
the replicas of the Port and Radio dies acquire. -/
def beginExit (s : State) (srcs : Nat) : State :=
  let deep := decide (2 ≤ pwrState s)
  let want := rdN s pHubDie rDIE_DOM_REQ
  let s1 := putB (put s pHubDie fDIE_PWR_STAT_LAST_WAKE srcs) pHubDie fDIE_PWR_STAT_BUSY true
  let s2 := updPwr s1 fun x => { x with exiting := true, woken := 0, turning := if deep then want else x.turning }
  if pwrState s = 3 then
    [1, 2, 3, 4, 5].foldl (fun s l => replicaDoubts (showReplica (updReplica s l fun _ => Replica.cold) l) l) s2
  else s2

/-- PWR_ENTER (R445): entry completes. A wake source that rose during it begins the exit at once (R449). -/
def execPwrEnter (s : State) : Host.Outcome State Fault Refusal :=
  match s.pwr.entering with
  | none => .next s
  | some st =>
    let s1 := if st = 1 then enterLight s else enterDeep s st
    let woken := s1.pwr.woken
    let s2 := pwrChanged (updPwr s1 fun x => { x with entering := none, woken := 0 }) st 0
    .next (if woken = 0 then s2 else beginExit s2 woken)

/-- PWR_WAKE (R446): an enabled wake source stands. With none of the others, the clock reaches WAKE_AT where that is
enabled. -/
def execPwrWake (perst con ask : Bool) (s : State) : Host.Outcome State Fault Refusal :=
  let now := wakeStands s perst con ask
  if s.pwr.entering.isSome then
    .next (if now &&& wakeEn s = 0 then s else updPwr s fun x => { x with woken := x.woken ||| now })
  else if pwrState s = 0 ∨ flag s pHubDie fDIE_PWR_STAT_BUSY = true then .next s
  else if now &&& wakeEn s ≠ 0 then .next (beginExit s now)
  else if bitOf (wakeEn s) 0 then
    let s1 := advPc s (BitVec.ofNat 64 (rd64 s pHubDie rDIE_WAKE_AT_LO rDIE_WAKE_AT_HI))
    .next (beginExit s1 (wakeStands s1 perst con ask))
  else .next s

/-- The pages that restart with their block at the exit from a state: HIF and BOOT, and after KEEP those of the
islands that had stopped. -/
def restartsAt (st : Nat) (p : Pg) : Bool :=
  decide (2 ≤ st) &&
    match pageKind p with
    | some .hif | some .boot => true
    | some .pmc | some .age | some .isl | some .blv | some .tst => st == 3 && decide (2 ≤ p.die)
    | _ => false

/-- LIGHT ends: the retained domains resume. -/
def leaveLight (s : State) : State := showAllPorts (updPwr s fun x => { x with ret := 0 })

/-- VIGIL or KEEP ends: the domains are on, the endpoint is released and hart 0 starts the boot ROM (R447). -/
def leaveDeep (s : State) (st : Nat) : State :=
  let want := rdN s pHubDie rDIE_DOM_REQ
  let s1 := (List.range 15).foldl (fun s dom => if bitOf want dom && !domOn s dom then domUp s dom else s) s
  let s2 := strapBoot { hifReset s1 with boot := Boot.cold }
  let s3 := hartsBoot (hartsReset (updPwr s2 fun x => { x with turning := 0 }))
  if st = 3 then safKeepEnd s3 else s3

/-- PWR_EXIT (R447, R448): exit completes. Every register whose code lacks the state's letter returns to cold. -/
def execPwrExit (s : State) : Host.Outcome State Fault Refusal :=
  if s.pwr.exiting then
    let st := pwrState s
    let s1 := noteAll s (sweepLetter s (3 + st) (restartsAt st))
    let s2 := updPwr (if st = 1 then leaveLight s1 else leaveDeep s1 st) fun x => { x with exiting := false }
    .next (pwrChanged s2 0 3)
  else .next s

/-! ### AVSBus (R439, R440) -/

/-- AVS_WRITE (R439): the oldest setpoint that waits is written. -/
def execAvsWrite (s : State) : Host.Outcome State Fault Refusal :=
  match s.pwr.avs with
  | [] => .next s
  | j :: t =>
    if j.sent.isSome then .next s
    else
      let s1 := advMono s j.due
      let now := mono s1
      .next (updPwr s1 fun x => { x with avs := { j with sent := some now } :: t })

/-- A bit of AVS_STAT.FAIL and UNCONF of a rail. -/
def avsBits (s : State) (rail : Nat) (b : Bool) : State :=
  let p := pHubDie
  let s1 := put s p fDIE_AVS_STAT_FAIL (setBit (get s p fDIE_AVS_STAT_FAIL) rail b)
  put s1 p fDIE_AVS_STAT_UNCONF (setBit (get s p fDIE_AVS_STAT_UNCONF) rail b)

/-- AVS_STATUS (R440): 10 µs after a write its rail's status is read. A response that is not Good, or none, is retried
three times, 50 µs apart, and then fails. -/
def execAvsStatus (good : Bool) (s : State) : Host.Outcome State Fault Refusal :=
  match s.pwr.avs with
  | [] => .next s
  | j :: t =>
    match j.sent with
    | none => .next s
    | some at' =>
      let s1 := advMono s (at' + 10000)
      if good then .next (updPwr (avsBits s1 j.rail false) fun x => { x with avs := t })
      else if j.tries < 3 then
        .next (updPwr s1 fun x => { x with avs := { j with tries := j.tries + 1, due := at' + 50000, sent := none } :: t })
      else
        let s2 := bump (avsBits s1 j.rail true) pHubDie rDIE_AVS_ERR_CNT
        .next (raise (updPwr s2 fun x => { x with avs := t }) pHubDie 2)

end Sys2Proof.Machine
end

