-- ==== Sys2Proof/Machine/Store.lean ====
section
/-! DEFINITION. What a 32-bit write stores and starts, register by register: the access codes for a register without a
row of its own, and for the others the operation of their row, so that a write by any path acts alike (R28). -/

namespace Sys2Proof.Machine

/-- The state after a row that always answers a next state. -/
def after (f : State → Host.Outcome State Fault Refusal) (s : State) : State :=
  match f s with
  | .next t => t
  | .fault _ => s
  | .refused _ => s

/-- A register of which each requester has a copy (R47, R285, R291, R306, R319, R321, R365). -/
def isBanked (k : PageKind) (off : Nat) : Bool :=
  match k with
  | .recd => off == rREC_SW_CMD || off == rREC_SW_ARG0 || off == rREC_SW_ARG1
  | .mck => inArr (rMCK_CUE_DATA 0) 5 off || off == rMCK_CUE_CMD || off == rMCK_CAP_SEL || inArr (rMCK_CAP_E 0) 6 off
  | .pke => off == rPKE_SLOT_CMD || off == rPKE_SLOT_STAT
  | .pkel => off == rPKEL_JOB_PTR || off == rPKEL_JOB_CMD
  | .tdc => inArr (rTDC_RES 0) 6 off
  | _ => false

/-- The key of a register as a requester sees it. -/
def regKey (q : Nat) (k : PageKind) (p : Pg) (off : Nat) : Nat :=
  if isBanked k off then bank q p off else p.adr off

/-! ### A register without a row of its own -/

/-- A write by the access codes: a locked register is left and counted (R41); an offset without a register, or a
register that is only read, discards the write. -/
def plainWrite (s : State) (r : Requester) (k : PageKind) (p : Pg) (off v : Nat) : State :=
  match rowOf k p off with
  | none => s
  | some row =>
    let a := regKey (reqCode r) k p off
    if row.rwl ≠ 0 ∧ pageLocked s p = true then lockViol s p
    else
      wrA s a (BitVec.ofNat 32
        (wmerge ⟨row.rw ||| row.rwl, row.w1c, row.w1s, row.anyBit⟩ (rdA s a).toNat (storedAs s k p off v)))

/-! ### The common header (Table 02-4) -/

/-- LOCK is set (R41, R42). -/
def lockPage (s : State) (p : Pg) : State := putB s p fPAGE_CTRL_LOCK true

/-- A write of PAGE_CTRL: EN, then SRST, then LOCK. -/
def ctrlWrite (s : State) (k : PageKind) (p : Pg) (v : Nat) : State :=
  let s1 := setEn s p k (bitOf v 0)
  let s2 := if bitOf v 1 then softReset s1 p k else s1
  if bitOf v 4 then lockPage s2 p else s2

/-- A write of INT_FORCE sets INT_RAW bits as their events would, with forced records (R34). -/
def forceInts (s : State) (p : Pg) (v : Nat) : State :=
  (List.range 32).foldl (fun s b => if bitOf v b then raiseBy s p b true else s) s

/-- A write of DOUBT_EN: refused while the page is locked; PAGE_STAT.DOUBT may change (R34, R41). -/
def doubtEnWrite (s : State) (r : Requester) (k : PageKind) (p : Pg) (v : Nat) : State :=
  noteDoubt s (plainWrite s r k p rDOUBT_EN v) p false

/-- A write to the common header. -/
def headerWrite (s : State) (r : Requester) (k : PageKind) (p : Pg) (off v : Nat) : State :=
  if off = rPAGE_CTRL then ctrlWrite s k p v
  else if off = rINT_FORCE then forceInts s p v
  else if off = rDOUBT_EN then doubtEnWrite s r k p v
  else
    let s1 := plainWrite s r k p off v
    if k = .hif then vecsFall s1 else s1

/-! ### The Hub -/

/-- FEAT_CTRL.COMMIT: the commit begins, unless one stands or runs (R36, R37). -/
def commitWrite (s : State) (v : Nat) : State :=
  if bitOf v 0 && !flag s pHubDie fDIE_FEAT_CTRL_COMMITTED then putB s pHubDie fDIE_FEAT_CTRL_COMMIT true else s

/-- A write of DEV_FEAT_ACKn: bits not offered are stored as 0, and none after the commit (Table 02-6). -/
def ackWrite (s : State) (p : Pg) (n v : Nat) : State :=
  if pageLocked s p then lockViol s p
  else if flag s p fDIE_FEAT_CTRL_COMMITTED then s
  else wrN s p (rDIE_DEV_FEAT_ACK n) (if n = 0 then v &&& 0x1FFFF else 0)

/-- A write of RST_CTRL: the fields are stored, and WARM acts before ISLAND (R452). -/
def rstWrite (s : State) (r : Requester) (v : Nat) (taken : List Byte) : State :=
  if isApp r then deny s r 1
  else
    let die := fDIE_RST_CTRL_ISL_DIE.of v
    let isl := fDIE_RST_CTRL_ISL.of v
    let s1 := put (put s pHubDie fDIE_RST_CTRL_ISL_DIE die) pHubDie fDIE_RST_CTRL_ISL isl
    if bitOf v 0 then after (execWarmReset r) s1
    else if bitOf v 1 then after (execIslandReset (some r) (Fin.ofNat 8 die) (Fin.ofNat 16 isl) taken) s1
    else s1

/-- A write to a DIE page. -/
def dieWrite (s : State) (r : Requester) (p : Pg) (off v : Nat) (env : WriteFacts) : State :=
  if p.die ≠ 0 then plainWrite s r .die p off v
  else if off = rDIE_FEAT_CTRL then commitWrite s v
  else if inArr (rDIE_DEV_FEAT_ACK 0) 4 off then ackWrite s p ((off - rDIE_DEV_FEAT_ACK 0) / 4) v
  else if off = rDIE_PWR_CTRL then (if isApp r then deny s r 1 else pwrCtrl s v env.perst)
  else if off = rDIE_DOM_REQ then (if isApp r then deny s r 1 else domReq s v)
  else if off = rDIE_RST_CTRL then rstWrite s r v env.taken
  else plainWrite s r .die p off v

/-- The hart that a number names. -/
def hartOf (n : Nat) : Fin 6 := Fin.ofNat 6 n

/-- A write to the CPU page. START0 and START1 are read-only (R338). -/
def cpuWrite (s : State) (r : Requester) (off v : Nat) : State :=
  if off = rCPU_HART_CTRL then
    hartCtrl s r (fCPU_HART_CTRL_RUN.of v) (fCPU_HART_CTRL_HALT.of v) (fCPU_HART_CTRL_RESTART.of v)
  else if inArr (rCPU_DB 0) 6 off then
    let h := hartOf ((off - rCPU_DB 0) / 4)
    if isHart r h then s else doorbell s h (BitVec.ofNat 32 v)
  else if off = rCPU_DB_PEND then dbPendWrite s r v
  else if off = rCPU_START 0 ∨ off = rCPU_START 1 then s
  else plainWrite s r .cpu pCPU off v

/-- A write to a PMC page (R354–R359). USER_EN and HOST_USER_EN ignore writes without feature bit 13. -/
def pmcWrite (s : State) (r : Requester) (p : Pg) (off v : Nat) : State :=
  if off = rPMC_CTRL then pmcCtrlWrite s p v
  else if inArr (rPMC_CTL 0) 32 off then ctlStored s p ((off - rPMC_CTL 0) / 4) v
  else if off = rPMC_OVF_STAMP then ovfStampWrite s p v
  else if (off = rPMC_USER_EN ∨ off = rPMC_HOST_USER_EN) ∧ feat s 13 = false then s
  else plainWrite s r .pmc p off v

/-- A write to the REC page (R365, R370). -/
def recWrite (s : State) (r : Requester) (off v : Nat) : State :=
  if off = rREC_SW_CMD then swCmd s r (v % 256) (v / 256 % 4) (bitOf v 31)
  else if off = rREC_CTRL then recCtrl s r (bitOf v 0) (fREC_CTRL_CLR_SEV.of v)
  else plainWrite s r .recd pREC off v

/-- A write of SLOT_CMD: with GO the operation that OP names, of which 0 and 5–7 are none (R319). -/
def slotCmdWrite (s : State) (r : Requester) (v : Nat) : State :=
  let first := fPKE_SLOT_CMD_FIRST.of v
  let count := fPKE_SLOT_CMD_COUNT.of v
  let op := fPKE_SLOT_CMD_OP.of v
  let ctx := fPKE_SLOT_CMD_CTX.of v
  if bitOf v 31 then slotGo s r op first (slotCount count) ctx
  else slotFields s (reqCode r) op first count ctx

/-- A write to the PKE control page. -/
def pkeWrite (s : State) (r : Requester) (off v : Nat) : State :=
  if off = rPKE_SET_LEN0 ∨ off = rPKE_SET_LEN1 then
    (if pageLocked s pPKE then lockViol s pPKE else setLens s (off == rPKE_SET_LEN1) v)
  else if off = rPKE_SLOT_CMD then slotCmdWrite s r v
  else plainWrite s r .pke pPKE off v

/-- A write of JOB_CMD: CTX and TICKET are stored; GO submits and ABORT aborts, and both together are refused with
code 10 (R321, R331). -/
def jobCmdWrite (s : State) (r : Requester) (l : Fin 16) (v : Nat) : State :=
  let q := reqCode r
  let ctx := Fin.ofNat 8 (fPKEL_JOB_CMD_CTX.of v)
  let ticket := fPKEL_JOB_CMD_TICKET.of v
  if bitOf v 0 && bitOf v 1 then refusePkeJob (putQ s q (pPKEL l) fPKEL_JOB_CMD_CTX ctx) l q 10
  else if bitOf v 0 then after (execJobGo r l ctx) s
  else if bitOf v 1 then after (execJobAbort r l ctx (BitVec.ofNat 8 ticket)) s
  else putQ (putQ s q (pPKEL l) fPKEL_JOB_CMD_CTX ctx) q (pPKEL l) fPKEL_JOB_CMD_TICKET ticket

/-- A write to a PKE lane page. -/
def pkelWrite (s : State) (r : Requester) (p : Pg) (off v : Nat) : State :=
  if off = rPKEL_JOB_CMD then jobCmdWrite s r (Fin.ofNat 16 (pageInst .pkel p)) v
  else plainWrite s r .pkel p off v

/-- A write to the KEY page. MINT_PTR and MINT_CMD take no write of the host (R231). -/
def keyWrite (s : State) (r : Requester) (off v : Nat) : State :=
  let host := decide (r = .host)
  if off = rKEY_CTRL then
    let s1 := if bitOf v 1 then purge s else s
    if bitOf v 0 then rotate s1 else s1
  else if off = rKEY_MINT_CMD then (if bitOf v 0 then after (execMint r) s else s)
  else if off = rKEY_MINT_PTR && host then s
  else plainWrite s r .key pKEY off v

/-- Vector Control of an MSI-X table entry is its word 3. -/
def msixWrite (s : State) (off v : Nat) : State :=
  let vec := (off - 0x800) / 16
  if off % 16 = 12 then
    let s1 := updHif s fun h => { h with masked := setBit h.masked vec (bitOf v 0) }
    if bitOf v 0 then s1 else pbaSend s1
  else wrN s pHIF off v

/-- A write to the HIF page. -/
def hifWrite (s : State) (r : Requester) (off v : Nat) (env : WriteFacts) : State :=
  if 0x800 ≤ off ∧ off < 0xC00 then msixWrite s off v
  else if off = rHIF_EOI then eoiWrite s (v % 64)
  else if off = rHIF_HDB then hdbWrite s r (v % 0x1000000)
  else if off = rHIF_CON_DATA then conWrite s (BitVec.ofNat 8 v)
  else match (List.range 16).find? fun n => off == rHIF_RING_CFG n || off == rHIF_RING_TAIL n with
    | some n => if off = rHIF_RING_CFG n then ringCfg s n v else ringTail s n (v % 0x1000) env.descs
    | none => vecsFall (plainWrite s r .hif pHIF off v)

/-! ### Pages of every die -/

/-- A write to an AGE page. -/
def ageWrite (s : State) (r : Requester) (p : Pg) (off v : Nat) : State :=
  if off = rAGE_CTRL ∧ p.die = 0 then (if bitOf v 0 && reviewFree s then reviewStart s else s)
  else plainWrite s r .age p off v

/-- A write of TST.CTRL: RELOCK, RST_WARM, RST_ISLAND (R485, R492). -/
def tstCtrl (s : State) (r : Requester) (die v : Nat) (env : WriteFacts) : State :=
  let t := pTST die
  let d := Fin.ofNat 8 die
  let s1 := put (put s t fTST_CTRL_RST_DIE (fTST_CTRL_RST_DIE.of v)) t fTST_CTRL_RST_ISL (fTST_CTRL_RST_ISL.of v)
  if bitOf v 1 then after (execRstWarm r d) s1
  else
    let s2 := if bitOf v 2 then
        after (execRstIsland r d (Fin.ofNat 8 (fTST_CTRL_RST_DIE.of v)) (Fin.ofNat 16 (fTST_CTRL_RST_ISL.of v)) env.taken) s1
      else s1
    if bitOf v 0 then tstLock s2 die else s2

/-- A write to a TST page beyond its header (R483). -/
def tstPageWrite (s : State) (r : Requester) (p : Pg) (off v : Nat) (env : WriteFacts) : State :=
  if off = rTST_UNLOCK then tstUnlock s r p.die (v % 0x10000)
  else if off = rTST_CTRL ∧ flag s p fTST_STAT_UNLOCKED = true then tstCtrl s r p.die v env
  else tstWrite s p.die fun s =>
    if off = rTST_TILE_INJ ∧ isPortDie p.die = true then tileInj s p.die v
    else plainWrite s r .tst p off v

/-! ### The Timebase -/

/-- A write to the TBE page. -/
def tbeWrite (s : State) (r : Requester) (off v : Nat) : State :=
  let w := BitVec.ofNat 32 v
  if off = rTBE_UTC_OFFSET then after (execUtcOffsetWrite r w) s
  else if off = rTBE_LEAP_SCHED_HI then after (execLeapSchedWrite r w) s
  else if off = rTBE_STEP_CTRL then after (execStepRequest r w) s
  else plainWrite s r .tbe pTBE off v

/-- A write to the REF page: a slot's CFG may enable or disable it (R69). -/
def refWrite (s : State) (r : Requester) (off v : Nat) : State :=
  if off = rREF_SLOT_CMD then slotCmd s v
  else match (List.range 6).find? fun k => off == rREF_SLOT_CFG k with
    | some k => slotCfgWritten (plainWrite s r .ref pREF off v) k (slotEn s k)
    | none => plainWrite s r .ref pREF off v

/-- A write to the OVN page: TUNE only in HOLD (R112), and a change of FSRC asks for a switch (R107). -/
def ovnWrite (s : State) (r : Requester) (off v : Nat) : State :=
  if off = rOVN_CTRL then (if bitOf v 0 then requestSwitch s else s)
  else if off = rOVN_TUNE ∧ get s pOVN fOVN_CFG_TUNE_MODE ≠ 1 then s
  else
    let s1 := plainWrite s r .ovn pOVN off v
    if prefersOsc s = prefersOsc s1 then s1 else requestSwitch (frefLost s1)

/-- A write of CUE_CMD: HANDLE is stored; FLUSH acts before CANCEL and CANCEL before PUSH (R285). -/
def cueCmdWrite (s : State) (q v : Nat) : State :=
  let h := fMCK_CUE_CMD_HANDLE.of v
  let s1 := putQ s q pMCK fMCK_CUE_CMD_HANDLE h
  if bitOf v 2 then cueFlush s1
  else if bitOf v 1 then cueCancel s1 q h
  else if bitOf v 0 then cuePush s1 q
  else s1

/-- The channels that an output register configures: 0–3 the synthesizers, 4–11 TOUT, 12–13 CLKOUT. -/
def outChans (off : Nat) : List Nat :=
  if 0x080 ≤ off ∧ off < 0x0B0 then [(off - 0x080) / 4 % 4]
  else if off = rMCK_CLKOUT_CFG then [12, 13]
  else if 0x100 ≤ off ∧ off < 0x180 then [4 + (off - 0x100) / 16]
  else []

/-- A write to the MCK page. -/
def mckWrite (s : State) (r : Requester) (off v : Nat) : State :=
  if off = rMCK_CUE_CMD then cueCmdWrite s (reqCode r) v
  else if off = rMCK_FRM_SEL then frmSelWrite s v
  else if off = rMCK_FRM_LEN then frmLenWrite s v
  else if 0x800 ≤ off ∧ off < 0xE00 then frmWord s ((off - 0x800) / 4) v
  else
    let s1 := plainWrite s r .mck pMCK off v
    if pageLocked s pMCK then s1 else (outChans off).foldl outWritten s1

/-- A write of TDC.CTRL: DISARM acts before ARM, and FLUSH besides (R306, R308). -/
def tdcCtrl (s : State) (r : Requester) (v : Nat) : State :=
  let s1 := if bitOf v 1 then after (execTdcDisarm r) s else if bitOf v 0 then after (execTdcArm r) s else s
  if bitOf v 2 then tdcFlush s1 else s1

/-- A write to the TDC page. -/
def tdcWrite (s : State) (r : Requester) (off v : Nat) : State :=
  if off = rTDC_CTRL then tdcCtrl s r v
  else if off = rTDC_HF_CFG then after (execHfCfgWrite r (BitVec.ofNat 32 v)) s
  else if off = rTDC_RING_CMD then
    (if bitOf v 31 then after (execRingGo r (Fin.ofNat 64 v)) s else put s pTDC fTDC_RING_CMD_LANE v)
  else if off = rTDC_CFG then gateFollow (plainWrite s r .tdc pTDC off v)
  else plainWrite s r .tdc pTDC off v

/-- A write to an ASK page. -/
def askWrite (s : State) (r : Requester) (p : Pg) (off v : Nat) : State :=
  let k := pageNo .ask p
  if off = rASK_CFG then (if pageLocked s p then lockViol s p else askCfgWrite s k v)
  else if off = rASK_CTRL then askCtrl s r k v
  else if off = rASK_LK_PTR then showAsk (plainWrite s r .ask p off v) k
  else if off = rASK_MB_TX_CMD then
    (if bitOf v 31 then mbGo s k (fASK_MB_TX_CMD_LEN.of v) (fASK_MB_TX_CMD_DEST.of v)
     else put (put s p fASK_MB_TX_CMD_LEN (mbLen (fASK_MB_TX_CMD_LEN.of v))) p fASK_MB_TX_CMD_DEST (fASK_MB_TX_CMD_DEST.of v))
  else if off = rASK_MB_RX_STAT then (if bitOf v 31 then mbTake s k else s)
  else plainWrite s r .ask p off v

/-- A write to the SAF page. -/
def safWrite (s : State) (r : Requester) (off v : Nat) : State :=
  let locked := pageLocked s pSAF
  if off = rSAF_CTRL then safCtrl s r (bitOf v 0) (bitOf v 1) (bitOf v 2)
  else if inArr (rSAF_POLICY 0) 4 off then
    (if locked then lockViol s pSAF else policyWrite s ((off - rSAF_POLICY 0) / 4) v)
  else if off = rSAF_CFG then (if locked then lockViol s pSAF else safAuto (wrN s pSAF rSAF_CFG (v % 4)))
  else if off = rSAF_ESC_MASK_LO ∨ off = rSAF_ESC_MASK_HI then
    (if locked then lockViol s pSAF else escMaskWrite s (off == rSAF_ESC_MASK_HI) v)
  else plainWrite s r .saf pSAF off v

/-! ### The Radio -/

/-- A write to the GRX page. -/
def grxWrite (s : State) (r : Requester) (off v : Nat) : State :=
  let s1 := plainWrite s r .grx pGRX off v
  if off = rGRX_CFG then gfFollow s1
  else if off = rGRX_ANT_CFG then antCfgWritten s1 (get s pGRX fGRX_ANT_CFG_RETRY)
  else s1

/-- A write to a channel page. -/
def chanWrite (s : State) (r : Requester) (k : PageKind) (p : Pg) (off v : Nat) : State :=
  if off = rSCH_CTRL then chanCtrl s (pageChan p) v else plainWrite s r k p off v

/-- A write to the NAV page. -/
def navWrite (s : State) (r : Requester) (off v : Nat) : State :=
  let w := BitVec.ofNat 32 v
  if off = rNAV_RD_IDX then after (execNavRdIdxWrite r w) s
  else if off = rNAV_SOL_CMD then (if bitOf v 0 then submitSolution s else s)
  else if off = rNAV_POS_SIG then after (execPosSigWrite r w) s
  else plainWrite s r .nav pNAV off v

/-- A write to the SNP page: AUTO, as it is set, takes its first target anew (R165). -/
def snpWrite (s : State) (r : Requester) (off v : Nat) (taken : List Byte) : State :=
  if off = rSNP_CTRL then snpCtrl s v taken
  else
    let s1 := plainWrite s r .snp pSNP off v
    if flag s1 pSNP fSNP_CFG_AUTO && !flag s pSNP fSNP_CFG_AUTO then updRad s1 fun x => { x with nextSec := 0 } else s1

/-! ### The Port dies -/

/-- A write to an SDS page. -/
def sdsWrite (s : State) (r : Requester) (p : Pg) (off v : Nat) : State :=
  let d := p.die - 4
  let q := pageNo .sds p
  if off = rSDS_MM_CMD ∧ bitOf v 31 = true then after (execMmTransaction r (Fin.ofNat 4 d) (Fin.ofNat 2 q) (BitVec.ofNat 32 v)) s
  else plainWrite s r .sds p off v

/-- A write to a MAC page: a change of mode or FEC ends the link, and what follows the mode is formed anew (R170). -/
def macWrite (s : State) (r : Requester) (p : Pg) (off v : Nat) : State :=
  let d := p.die - 4
  let i := pageNo .mac p
  let s1 := plainWrite s r .mac p off v
  if off ≠ rMAC_CFG then s1
  else
    let same := portMode s d i == portMode s1 d i && flag s p fMAC_CFG_FEC == flag s1 p fMAC_CFG_FEC
    if same then s1
    else
      let s2 := if flag s1 p fMAC_STAT_LINK then linkFall s1 d i else s1
      showBridges (showTimed (formDelays s2 d i) d) d

/-- A write of TAB_CMD (R200). -/
def tabWrite (s : State) (r : Requester) (d v : Nat) : State :=
  let idx := fANS_TAB_CMD_IDX.of v
  let addr := fANS_TAB_CMD_TABLE.of v == 1
  let rw := fANS_TAB_CMD_RW.of v == 1
  if !bitOf v 31 then tabFields s d idx addr rw
  else if rw then after (execAnsTabWrite r (Fin.ofNat 4 d) (Fin.ofNat 128 idx) addr) s
  else after (execAnsTabRead r (Fin.ofNat 4 d) (Fin.ofNat 128 idx) addr) s

/-- A write to a TBL page: the prefix and session commands, and the flush (R220, R226, R264). -/
def tblWrite (s : State) (r : Requester) (p : Pg) (off v : Nat) : State :=
  let d := p.die - 4
  let f := Fin.ofNat 4 d
  if off = rTBL_CTRL then (if bitOf v 0 then rateFlush s d else s)
  else if off = rTBL_PFX_CMD then
    let idx := fTBL_PFX_CMD_IDX.of v
    let rw := fTBL_PFX_CMD_RW.of v == 1
    if !bitOf v 31 then pfxFields s d idx rw
    else if rw then after (execPfxWrite r f (Fin.ofNat 8 idx)) s
    else after (execPfxRead r f (Fin.ofNat 8 idx)) s
  else if off = rTBL_SES_CMD then
    let idx := fTBL_SES_CMD_IDX.of v
    let rw := fTBL_SES_CMD_RW.of v == 1
    if !bitOf v 31 then sesFields s d idx rw
    else if rw then after (execSesWrite r f (Fin.ofNat 4096 idx)) s
    else after (execSesRead r f (Fin.ofNat 4096 idx)) s
  else plainWrite s r .tbl p off v

/-- A write to a PTE page: instances, security entries, bridge pairs and reference ports (R249, R266, R270, R272). -/
def pteWrite (s : State) (r : Requester) (p : Pg) (off v : Nat) : State :=
  let d := p.die - 4
  let f := Fin.ofNat 4 d
  if off = rPTE_INST_CMD then
    let n := fPTE_INST_CMD_IDX.of v
    let rw := fPTE_INST_CMD_RW.of v == 1
    if !bitOf v 31 then instFields s d n rw
    else if rw then after (execInstWrite r f (Fin.ofNat 32 n)) s
    else after (execInstRead r f (Fin.ofNat 32 n)) s
  else if off = rPTE_SA_CMD then
    let n := fPTE_SA_CMD_IDX.of v
    let rw := fPTE_SA_CMD_RW.of v == 1
    if !bitOf v 31 then saFields s d n rw
    else if rw then after (execSaWrite r f (Fin.ofNat 16 n)) s
    else after (execSaRead r f (Fin.ofNat 16 n)) s
  else if inArr (rPTE_SA_KEY 0) 8 off then wrN s p off v
  else if inArr (rPTE_BR_CFG 0) 4 off then
    after (execBrEnable r f (Fin.ofNat 4 ((off - rPTE_BR_CFG 0) / 4)) (BitVec.ofNat 32 v)) s
  else
    let s1 := plainWrite s r .pte p off v
    if pageLocked s p then s1
    else if off = rPTE_RX_CFG 0 then rxCfgWritten s1 d 0
    else if off = rPTE_RX_CFG 1 then rxCfgWritten s1 d 1
    else s1

/-! ### The page -/

/-- A write to a register of a page beyond its header. -/
def blockWrite (s : State) (r : Requester) (k : PageKind) (p : Pg) (off v : Nat) (env : WriteFacts) : State :=
  let w := BitVec.ofNat 32 v
  match k with
  | .die => dieWrite s r p off v env
  | .pmc => pmcWrite s r p off v
  | .age => ageWrite s r p off v
  | .tst => tstPageWrite s r p off v env
  | .sds => sdsWrite s r p off v
  | .mac => macWrite s r p off v
  | .tsu => if off = rTSU_CAL_CTRL then (if bitOf v 0 then startCal s (p.die - 4) (pageNo .tsu p) else s) else plainWrite s r k p off v
  | .ans => if off = rANS_TAB_CMD then tabWrite s r (p.die - 4) v else plainWrite s r k p off v
  | .tbl => tblWrite s r p off v
  | .pte => pteWrite s r p off v
  | .tbe => tbeWrite s r off v
  | .ref => refWrite s r off v
  | .ovn => ovnWrite s r off v
  | .mck => mckWrite s r off v
  | .tdc => tdcWrite s r off v
  | .ask => askWrite s r p off v
  | .saf => safWrite s r off v
  | .grx => grxWrite s r off v
  | .acq => if off = rACQ_CTRL then acqCtrl s v else plainWrite s r k p off v
  | .trk => if off = rTRK_PROMOTE then after (execTrkPromoteGo r w) s else plainWrite s r k p off v
  | .sch => chanWrite s r k p off v
  | .tch => chanWrite s r k p off v
  | .nav => navWrite s r off v
  | .int =>
    if off = rINTM_CTRL then intCtrl s v else if off = rINTM_EXCL_CMD then exclCmd s v else plainWrite s r k p off v
  | .snp => snpWrite s r off v env.taken
  | .cpu => cpuWrite s r off v
  | .recd => recWrite s r off v
  | .pke => pkeWrite s r off v
  | .pkel => pkelWrite s r p off v
  | .key => keyWrite s r off v
  | .hif => hifWrite s r off v env
  | .boot => if off = rBOOT_CTRL then bootCtrl s r v else plainWrite s r k p off v
  | .isl => plainWrite s r k p off v
  | .blv => plainWrite s r k p off v
  | .lch => plainWrite s r k p off v
  | .siv => plainWrite s r k p off v
  | .ltr => plainWrite s r k p off v
  | .dsc => plainWrite s r k p off v

/-- A 32-bit write to a register of a page. -/
def pageWrite (s : State) (r : Requester) (p : Pg) (off v : Nat) (env : WriteFacts) : State :=
  match pageKind p with
  | none => s
  | some k => if off < 0x40 then headerWrite s r k p off v else blockWrite s r k p off v env

/-- A write of the CPU page that R346 permits to an application hart: another hart's doorbell, or its own bit of
DB_PEND. -/
def permitted (r : Requester) (p : Pg) (off : Nat) : Bool :=
  decide (p = pCPU) &&
    (off == rCPU_DB_PEND || (inArr (rCPU_DB 0) 6 off && !isHart r ((off - rCPU_DB 0) / 4)))

/-- A 32-bit write of a requester to an aligned BAR0 address. -/
def storeWord (s : State) (r : Requester) (a v : Nat) (env : WriteFacts) : State :=
  let p := pgOf a
  access s r p true (permitted r p (offOf a)) fun s => pageWrite s r p (offOf a) v env

/-- A narrow write is discarded and counted on the die's DIE page (R27). -/
def narrowWrite (s : State) (r : Requester) (a : Nat) : State :=
  let p := pgOf a
  access s r p true (permitted r p (offOf a / 4 * 4)) fun s => bump s (pDIE p.die) rDIE_BAD_ACC_CNT

end Sys2Proof.Machine
end

