-- ==== Sys2Proof/Machine/Load.lean ====
section
/-! DEFINITION. What a 32-bit read returns and brings about, register by register: the stored value, the conditions and
counts that a register shows as they stand, the snapshots and latches kept per requester, and the reads that remove
what they return (R28, R47). -/

namespace Sys2Proof.Machine

/-! ### Values that follow a condition -/

/-- DIE.DOM_ON (Table 02-6): the switched domains of a die that are on. -/
def domOnShown (s : State) (die : Nat) : Nat :=
  if isPortDie die then s.pwr.on / 2 ^ (3 * (die - 4)) % 8
  else if die = 0 then ofBool (domOn s domHC) + ofBool (domOn s domHK) * 2
  else if die = 2 then ofBool (domOn s domGF) + ofBool (domOn s domGB) * 2
  else 0

/-- A word of a snapshot by its register's place after TIME_SEC_LO (R47). -/
def snapWord (sn : Snap) (n : Nat) : Nat :=
  ix [t96Sec sn.t96, t96Sec sn.t96 / 0x100000000 % 0x10000, t96Ns sn.t96, t96Frac sn.t96, sn.pc.toNat,
    sn.pc.toNat / 0x100000000, sn.mono, sn.mono / 0x100000000] n 0

/-- A requester's snapshot of the TBE page or of a Port die's LTR page. -/
def snapHeld (s : State) (q : Nat) (k : PageKind) (p : Pg) : Snap :=
  if k = .tbe then ix s.snapTbe q Snap.zero else ix (ix s.snapLtr (p.die - 4) []) q Snap.zero

/-- The first register of a page's snapshot. -/
def snapBase (k : PageKind) : Nat := if k = .tbe then rTBE_TIME_SEC_LO else rLTR_TIME_SEC_LO

/-- A register of a page shows a snapshot. -/
def isSnap (k : PageKind) (off : Nat) : Bool :=
  (k == .tbe && inArr rTBE_TIME_SEC_LO 8 off) || (k == .ltr && inArr rLTR_TIME_SEC_LO 6 off)

/-- A 64-bit count of which a read of the low word latches the high word. -/
def isPair (k : PageKind) (off : Nat) : Bool :=
  match k with
  | .mac => off == rMAC_RX_FRAMES_LO || off == rMAC_TX_FRAMES_LO
  | .ans => off == rANS_PLAIN_LO || off == rANS_NTSA_LO
  | .siv => off == rSIV_COOKIES_LO
  | _ => false

/-- The value of a header register as it reads. -/
def headerRead (s : State) (k : PageKind) (p : Pg) (off : Nat) : Nat :=
  if off = rPAGE_CTRL then rdN s p off ||| ofBool (flag s pHubDie fDIE_FEAT_CTRL_COMMITTED) * 0x100
  else if off = rPAGE_STAT then pageStat s k p
  else if off = rINT_STAT then rdN s p rINT_RAW &&& rdN s p rINT_EN
  else if off = rDOUBT_RAW then doubtRaw s p
  else if off = rINT_FORCE then 0
  else rdN s p off

/-- A register that shows a condition or a count as it stands, and no stored value. -/
def liveRead (s : State) (k : PageKind) (p : Pg) (off : Nat) : Option Nat :=
  match k with
  | .die =>
    if off = rDIE_DOM_ON then some (domOnShown s p.die)
    else if off = rDIE_INT_SUM then some (intSum s p.die)
    else if off = rDIE_DOUBT_SUM then some (doubtSum s p.die)
    else none
  | .tbe => if off = rTBE_SMEAR_NOW then some (rdN (refreshSmear s) p off) else none
  | .key => if off = rKEY_NEXT_GEN then some (nextGen s) else none
  | .saf => if off = rSAF_SETTLE_LEFT then some (settleLeft s) else none
  | .age => if off = rAGE_NEXT_REVIEW ∧ p.die = 0 then some (nextReview s) else none
  | .int =>
    if off = rINTM_STAT then some (rdN (showClearLeft s) p off)
    else if off = rINTM_VIEW then some (rdN (showViewAge s) p off)
    else none
  | .hif =>
    if off = rHIF_SRC_PEND then some (srcPend s)
    else if off = rHIF_CON_STAT then some (rdN (conDrain s) p off)
    else if off = 0xC00 then some (s.hif.pba % 0x100000000)
    else if off = 0xC04 then some (s.hif.pba / 0x100000000 % 0x100000000)
    else if 0x800 ≤ off ∧ off < 0xC00 then
      some (if off % 16 = 12 then ofBool (bitOf s.hif.masked ((off - 0x800) / 16)) else rdN s p off)
    else none
  | .pmc => if (off = rPMC_USER_EN ∨ off = rPMC_HOST_USER_EN) ∧ feat s 13 = false then some 0 else none
  | .pte => if inArr (rPTE_SA_KEY 0) 8 off then some 0 else none
  | .mck =>
    if 0x800 ≤ off ∧ off < 0xE00 then
      let b := get s pMCK fMCK_FRM_SEL_BUF * 1536 + (off - 0x800)
      some ((List.range 4).foldl (fun v j => v * 256 + ((amGet? (b + j) s.mck.frm).getD 0).toNat) 0)
    else none
  | _ => none

/-! ### Reads that act -/

/-- The state and the data of a read command. -/
def afterRead (f : State → Host.Outcome State Fault Refusal) (s : State) : State × Nat :=
  let t := after f s
  (t, t.lastRead.toNat)

/-- A read that removes or latches what it returns. -/
def actingRead (s : State) (r : Requester) (k : PageKind) (p : Pg) (off : Nat) : Option (State × Nat) :=
  match k with
  | .tbe => if off = rTBE_TIME_SEC_LO then some (afterRead (execTimeSnapshot r 1 false) s) else none
  | .ltr => if off = rLTR_TIME_SEC_LO then some (afterRead (execTimeSnapshot r (Fin.ofNat 8 p.die) false) s) else none
  | .mck => if off = rMCK_CAP_E 0 then some (afterRead (execCapRead r) s) else none
  | .tdc => if off = rTDC_RES 0 then some (afterRead (execTdcResRead r) s) else none
  | .acq => if off = rACQ_RES 0 then some (afterRead (execAcqResRead r) s) else none
  | .tch =>
    if 0x400 ≤ off ∧ off < 0x800 ∧ off % 0x80 = 0 then
      some (afterRead (execTchDumpRead r (Fin.ofNat 16 (pageChan p - 64)) (Fin.ofNat 8 ((off - 0x400) / 0x80))) s)
    else none
  | .hif => if off = rHIF_CON_DATA then some (conRead s) else none
  | .pmc => if inArr (rPMC_CNT 0) 32 off then some (cntRead s (reqCode r) p.die ((off - rPMC_CNT 0) / 4)) else none
  | _ => none

/-- A read of a register of a page beyond its header. -/
def blockRead (s : State) (r : Requester) (k : PageKind) (p : Pg) (off : Nat) : State × Nat :=
  let q := reqCode r
  match actingRead s r k p off with
  | some x => x
  | none =>
    match liveRead s k p off with
    | some v => (s, v)
    | none =>
      if isSnap k off then (s, snapWord (snapHeld s q k p) ((off - snapBase k) / 4) % 0x100000000)
      else if isPair k off then (wrB s q p (off + 4) (rdN s p (off + 4)), rdN s p off)
      else if 4 ≤ off ∧ isPair k (off - 4) = true then (s, rdB s q p off)
      else (s, (rdA s (regKey q k p off)).toNat)

/-- A 32-bit read of a register of a page. -/
def pageRead (s : State) (r : Requester) (p : Pg) (off : Nat) : State × Nat :=
  match pageKind p with
  | none => (s, 0)
  | some k => if off < 0x40 then (s, headerRead s k p off) else blockRead s r k p off

/-- A 32-bit read of a requester from an aligned BAR0 address; what it returns is the reply. -/
def loadWord (s : State) (r : Requester) (a : Nat) : State :=
  let p := pgOf a
  onRead s r p fun s =>
    let x := pageRead s r p (offOf a)
    reply x.1 x.2

end Sys2Proof.Machine
end

