-- ==== Sys2Proof/Machine/Access.lean ====
section
/-! DEFINITION. Register accesses as commands (spec/02): writes by address and width, accesses to pages that are
unmapped or powered off, the common header's commands, and the feature commit. -/

namespace Sys2Proof.Machine

/-- The page that a command names. -/
def pgArg (die : Fin 8) (page : Fin 0x2000) : Pg := ⟨die, page⟩

/-- The messages of the command before are gone. -/
def quiet (s : State) : State :=
  { s with hif := { s.hif with sent := [] }, links := s.links.map fun x => { x with sent := [] } }

/-- REG_WRITE (R27, R28): a write of a requester to a BAR0 address. A 64-bit write is two 32-bit writes, lower address
first; a narrow one is discarded and counted. -/
def execRegWrite (r : Requester) (adr : Nat) (size : AccSize) (v : BitVec 64) (env : WriteFacts) (s : State) :
    Host.Outcome State Fault Refusal :=
  if 0x10000000 ≤ adr then .fault (.outsideBar0 adr)
  else
    let n := v.toNat
    match size with
    | .b8 => .next (narrowWrite (quiet s) r adr)
    | .b16 => .next (narrowWrite (quiet s) r adr)
    | .b32 => if adr % 4 = 0 then .next (storeWord (quiet s) r adr (n % 0x100000000) env) else .refused (.misaligned adr)
    | .b64 =>
      if adr % 8 = 0 then
        .next (storeWord (storeWord (quiet s) r adr (n % 0x100000000) env) r (adr + 4) (n / 0x100000000) env)
      else .refused (.misaligned adr)

/-- UNMAPPED_ACCESS (R25): an access to a page that does not exist reads 0 or discards the write, and is counted; the
window of the Resonator counts nothing (R3). An access to a page that exists is no such access. -/
def execUnmappedAccess (r : Requester) (die : Fin 8) (page : Fin 0x2000) (wr : Bool) (s : State) :
    Host.Outcome State Fault Refusal :=
  let p := pgArg die page
  if (pageKind p).isNone then .next (access s r p wr false fun s => s) else .next s

/-- POWERED_OFF_ACCESS (R18, R443): an access to a page whose domain is off reads 0 or discards the write, and is
counted; so is a write to one in retention. An access to any other page is no such access. -/
def execPoweredOffAccess (r : Requester) (die : Fin 8) (page : Fin 0x2000) (wr : Bool) (s : State) :
    Host.Outcome State Fault Refusal :=
  let p := pgArg die page
  if (pageKind p).isSome && (!pageOn s p || (wr && pageRetained s p)) then .next (access s r p wr false fun s => s)
  else .next s

/-- A write to the header of a page that a command names. -/
def onHeader (s : State) (r : Requester) (p : Pg) (f : PageKind → State → State) : State :=
  onWrite s r p fun s => match pageKind p with
    | none => s
    | some k => f k s

/-- PAGE_ENABLE (Table 02-4, R38): a write of 1 to EN. -/
def execPageEnable (r : Requester) (die : Fin 8) (page : Fin 0x2000) (s : State) : Host.Outcome State Fault Refusal :=
  let p := pgArg die page
  .next (onHeader s r p fun k s => setEn s p k true)

/-- PAGE_DISABLE (Table 02-4): a write of 0 to EN. -/
def execPageDisable (r : Requester) (die : Fin 8) (page : Fin 0x2000) (s : State) : Host.Outcome State Fault Refusal :=
  let p := pgArg die page
  .next (onHeader s r p fun k s => setEn s p k false)

/-- SOFT_RESET (Table 02-4): a write of 1 to SRST. -/
def execSoftReset (r : Requester) (die : Fin 8) (page : Fin 0x2000) (s : State) : Host.Outcome State Fault Refusal :=
  let p := pgArg die page
  .next (onHeader s r p fun k s => softReset s p k)

/-- SOFT_RESET_DONE (Table 02-4): the soft reset of a page is done and SRST clears itself. -/
def execSoftResetDone (die : Fin 8) (page : Fin 0x2000) (s : State) : Host.Outcome State Fault Refusal :=
  let p := pgArg die page
  if flag s p fPAGE_CTRL_SRST then .next (putB s p fPAGE_CTRL_SRST false) else .next s

/-- PAGE_LOCK (R41): a write of 1 to LOCK. -/
def execPageLock (r : Requester) (die : Fin 8) (page : Fin 0x2000) (s : State) : Host.Outcome State Fault Refusal :=
  let p := pgArg die page
  .next (onHeader s r p fun _ s => lockPage s p)

/-- INT_FORCE (Table 02-4, R34): a write of INT_FORCE. -/
def execIntForce (r : Requester) (die : Fin 8) (page : Fin 0x2000) (v : Word) (s : State) :
    Host.Outcome State Fault Refusal :=
  let p := pgArg die page
  .next (onHeader s r p fun _ s => forceInts s p v.toNat)

/-- FEAT_COMMIT (R36, R37): a write of 1 to FEAT_CTRL.COMMIT. -/
def execFeatCommit (r : Requester) (s : State) : Host.Outcome State Fault Refusal :=
  .next (onWrite s r pHubDie fun s => commitWrite s 1)

/-- FEAT_COMMIT_DONE (R36): the acknowledged features are in force on every powered page: launches, output rates and
the key island follow them at once. -/
def execFeatCommitDone (s : State) : Host.Outcome State Fault Refusal :=
  if flag s pHubDie fDIE_FEAT_CTRL_COMMIT then
    let s1 := putB (putB s pHubDie fDIE_FEAT_CTRL_COMMIT false) pHubDie fDIE_FEAT_CTRL_COMMITTED true
    let s2 := refreshGates (refreshRefusals ((List.range 4).foldl showTimed s1))
    .next (generateIfNone s2)
  else .next s

end Sys2Proof.Machine
end

