-- ==== Sys2Proof/Machine/Rv.lean ====
section
/-! DEFINITION. The instructions of a hart (R337): RV64IMAC with Zicsr and Zifencei, and their encodings, read from
the unprivileged and privileged specifications of RISC-V that R337 names (PRESUMED, log entry 18). -/

namespace Sys2Proof.Machine

/-- The integer operations of I and M. -/
inductive RvOp where
  | add | sub | sll | slt | sltu | xor | srl | sra | or | and
  | mul | mulh | mulhsu | mulhu | div | divu | rem | remu
  deriving DecidableEq, Repr

/-- The conditions of branches. -/
inductive RvCond where
  | eq | ne | lt | ge | ltu | geu
  deriving DecidableEq, Repr

/-- The operations of AMOs. -/
inductive RvAmo where
  | swap | add | xor | and | or | min | max | minu | maxu
  deriving DecidableEq, Repr

/-- How a CSR instruction changes its register. -/
inductive RvCsr where
  | write | set | clear
  deriving DecidableEq, Repr

/-- A decoded instruction: registers by number, immediates sign-extended, sizes in bytes; `w` marks the 32-bit
forms. A CSR source is a register, or an immediate. -/
inductive Rv where
  | lui (rd : Nat) (imm : BitVec 64)
  | auipc (rd : Nat) (imm : BitVec 64)
  | jal (rd : Nat) (imm : BitVec 64)
  | jalr (rd rs1 : Nat) (imm : BitVec 64)
  | branch (c : RvCond) (rs1 rs2 : Nat) (imm : BitVec 64)
  | load (n : Nat) (sgn : Bool) (rd rs1 : Nat) (imm : BitVec 64)
  | store (n rs1 rs2 : Nat) (imm : BitVec 64)
  | alui (op : RvOp) (w : Bool) (rd rs1 : Nat) (imm : BitVec 64)
  | alu (op : RvOp) (w : Bool) (rd rs1 rs2 : Nat)
  | fence
  | ecall
  | ebreak
  | mret
  | wfi
  | csr (op : RvCsr) (rd : Nat) (imm : Bool) (src csr : Nat)
  | lr (n rd rs1 : Nat)
  | sc (n rd rs1 rs2 : Nat)
  | amo (op : RvAmo) (n rd rs1 rs2 : Nat)
  | illegal
  deriving DecidableEq, Repr

/-- Bits `hi` to `lo` of an encoding. -/
def fld (x hi lo : Nat) : Nat := x / 2 ^ lo % 2 ^ (hi + 1 - lo)

/-- A `w`-bit immediate sign-extended. -/
def sx (w v : Nat) : BitVec 64 := (BitVec.ofNat w v).signExtend 64

/-! ### 32-bit encodings -/

/-- The immediates of the formats I, S, B, U and J. -/
def immI (x : Nat) : BitVec 64 := sx 12 (fld x 31 20)
def immS (x : Nat) : BitVec 64 := sx 12 (fld x 31 25 * 32 + fld x 11 7)
def immB (x : Nat) : BitVec 64 :=
  sx 13 (fld x 31 31 * 4096 + fld x 7 7 * 2048 + fld x 30 25 * 32 + fld x 11 8 * 2)
def immU (x : Nat) : BitVec 64 := sx 32 (fld x 31 12 * 4096)
def immJ (x : Nat) : BitVec 64 :=
  sx 21 (fld x 31 31 * 0x100000 + fld x 19 12 * 4096 + fld x 20 20 * 2048 + fld x 30 21 * 2)

/-- The condition of a branch by funct3. -/
def rvCond (f : Nat) : Option RvCond :=
  match f with
  | 0 => some .eq | 1 => some .ne | 4 => some .lt | 5 => some .ge | 6 => some .ltu | 7 => some .geu
  | _ => none

/-- The operation of OP by funct7 and funct3. -/
def rvOp (f7 f3 : Nat) : Option RvOp :=
  match f7, f3 with
  | 0, 0 => some .add | 0, 1 => some .sll | 0, 2 => some .slt | 0, 3 => some .sltu
  | 0, 4 => some .xor | 0, 5 => some .srl | 0, 6 => some .or | 0, 7 => some .and
  | 0x20, 0 => some .sub | 0x20, 5 => some .sra
  | 1, 0 => some .mul | 1, 1 => some .mulh | 1, 2 => some .mulhsu | 1, 3 => some .mulhu
  | 1, 4 => some .div | 1, 5 => some .divu | 1, 6 => some .rem | 1, 7 => some .remu
  | _, _ => none

/-- An operation has a 32-bit form. -/
def RvOp.hasW : RvOp → Bool
  | .add | .sub | .sll | .srl | .sra | .mul | .div | .divu | .rem | .remu => true
  | _ => false

/-- OP-IMM and OP-IMM-32: shifts take 6 and 5 bits of amount. -/
def decodeImm (x : Nat) (w : Bool) : Rv :=
  let rd := fld x 11 7
  let rs1 := fld x 19 15
  let sh := if w then fld x 24 20 else fld x 25 20
  let top := if w then fld x 31 25 else fld x 31 26 * 2
  match fld x 14 12 with
  | 0 => .alui .add w rd rs1 (immI x)
  | 1 => if top = 0 then .alui .sll w rd rs1 (BitVec.ofNat 64 sh) else .illegal
  | 5 =>
    if top = 0 then .alui .srl w rd rs1 (BitVec.ofNat 64 sh)
    else if top = 0x20 then .alui .sra w rd rs1 (BitVec.ofNat 64 sh) else .illegal
  | 2 => if w then .illegal else .alui .slt w rd rs1 (immI x)
  | 3 => if w then .illegal else .alui .sltu w rd rs1 (immI x)
  | 4 => if w then .illegal else .alui .xor w rd rs1 (immI x)
  | 6 => if w then .illegal else .alui .or w rd rs1 (immI x)
  | _ => if w then .illegal else .alui .and w rd rs1 (immI x)

/-- SYSTEM. -/
def decodeSystem (x : Nat) : Rv :=
  let rd := fld x 11 7
  let src := fld x 19 15
  let csr := fld x 31 20
  match fld x 14 12 with
  | 0 =>
    if x = 0x00000073 then .ecall
    else if x = 0x00100073 then .ebreak
    else if x = 0x30200073 then .mret
    else if x = 0x10500073 then .wfi
    else .illegal
  | 1 => .csr .write rd false src csr
  | 2 => .csr .set rd false src csr
  | 3 => .csr .clear rd false src csr
  | 5 => .csr .write rd true src csr
  | 6 => .csr .set rd true src csr
  | 7 => .csr .clear rd true src csr
  | _ => .illegal

/-- The operation of an AMO by funct5. -/
def rvAmo (f : Nat) : Option RvAmo :=
  match f with
  | 0 => some .add | 1 => some .swap | 4 => some .xor | 8 => some .or | 12 => some .and
  | 16 => some .min | 20 => some .max | 24 => some .minu | 28 => some .maxu
  | _ => none

/-- The A extension. -/
def decodeAmo (x : Nat) : Rv :=
  let rd := fld x 11 7
  let rs1 := fld x 19 15
  let rs2 := fld x 24 20
  let f5 := fld x 31 27
  let f3 := fld x 14 12
  let n := if f3 = 2 then 4 else 8
  if f3 ≠ 2 ∧ f3 ≠ 3 then .illegal
  else if f5 = 2 then (if rs2 = 0 then .lr n rd rs1 else .illegal)
  else if f5 = 3 then .sc n rd rs1 rs2
  else match rvAmo f5 with
    | some op => .amo op n rd rs1 rs2
    | none => .illegal

/-- A 32-bit encoding. -/
def decode32 (x : Nat) : Rv :=
  let rd := fld x 11 7
  let rs1 := fld x 19 15
  let rs2 := fld x 24 20
  let f3 := fld x 14 12
  match fld x 6 0 with
  | 0x37 => .lui rd (immU x)
  | 0x17 => .auipc rd (immU x)
  | 0x6F => .jal rd (immJ x)
  | 0x67 => if f3 = 0 then .jalr rd rs1 (immI x) else .illegal
  | 0x63 => match rvCond f3 with
    | some c => .branch c rs1 rs2 (immB x)
    | none => .illegal
  | 0x03 => if f3 = 7 then .illegal else .load (2 ^ (f3 % 4)) (decide (f3 < 4)) rd rs1 (immI x)
  | 0x23 => if 3 < f3 then .illegal else .store (2 ^ f3) rs1 rs2 (immS x)
  | 0x13 => decodeImm x false
  | 0x1B => decodeImm x true
  | 0x33 => match rvOp (fld x 31 25) f3 with
    | some op => .alu op false rd rs1 rs2
    | none => .illegal
  | 0x3B => match rvOp (fld x 31 25) f3 with
    | some op => if op.hasW then .alu op true rd rs1 rs2 else .illegal
    | none => .illegal
  | 0x0F => if f3 = 0 ∨ f3 = 1 then .fence else .illegal
  | 0x2F => decodeAmo x
  | 0x73 => decodeSystem x
  | _ => .illegal

/-! ### 16-bit encodings (the C extension of RV64 without floating point) -/

/-- Quadrant 0. -/
def decodeC0 (x : Nat) : Rv :=
  let rd := 8 + fld x 4 2
  let rs1 := 8 + fld x 9 7
  let uw := fld x 5 5 * 64 + fld x 12 10 * 8 + fld x 6 6 * 4
  let ud := fld x 6 5 * 64 + fld x 12 10 * 8
  match fld x 15 13 with
  | 0 =>
    let u := fld x 10 7 * 64 + fld x 12 11 * 16 + fld x 5 5 * 8 + fld x 6 6 * 4
    if u = 0 then .illegal else .alui .add false rd 2 (BitVec.ofNat 64 u)
  | 2 => .load 4 true rd rs1 (BitVec.ofNat 64 uw)
  | 3 => .load 8 true rd rs1 (BitVec.ofNat 64 ud)
  | 6 => .store 4 rs1 rd (BitVec.ofNat 64 uw)
  | 7 => .store 8 rs1 rd (BitVec.ofNat 64 ud)
  | _ => .illegal

/-- The 6-bit immediate of quadrants 1 and 2. -/
def cImm (x : Nat) : Nat := fld x 12 12 * 32 + fld x 6 2

/-- The register-register and shift forms of quadrant 1. -/
def decodeC1Alu (x : Nat) : Rv :=
  let rd := 8 + fld x 9 7
  let rs2 := 8 + fld x 4 2
  match fld x 11 10 with
  | 0 => .alui .srl false rd rd (BitVec.ofNat 64 (cImm x))
  | 1 => .alui .sra false rd rd (BitVec.ofNat 64 (cImm x))
  | 2 => .alui .and false rd rd (sx 6 (cImm x))
  | _ =>
    match fld x 12 12, fld x 6 5 with
    | 0, 0 => .alu .sub false rd rd rs2
    | 0, 1 => .alu .xor false rd rd rs2
    | 0, 2 => .alu .or false rd rd rs2
    | 0, 3 => .alu .and false rd rd rs2
    | 1, 0 => .alu .sub true rd rd rs2
    | 1, 1 => .alu .add true rd rd rs2
    | _, _ => .illegal

/-- Quadrant 1. -/
def decodeC1 (x : Nat) : Rv :=
  let rd := fld x 11 7
  let rs := 8 + fld x 9 7
  let j := sx 12 (fld x 12 12 * 2048 + fld x 8 8 * 1024 + fld x 10 9 * 256 + fld x 6 6 * 128 + fld x 7 7 * 64 +
    fld x 2 2 * 32 + fld x 11 11 * 16 + fld x 5 3 * 2)
  let b := sx 9 (fld x 12 12 * 256 + fld x 6 5 * 64 + fld x 2 2 * 32 + fld x 11 10 * 8 + fld x 4 3 * 2)
  match fld x 15 13 with
  | 0 => .alui .add false rd rd (sx 6 (cImm x))
  | 1 => if rd = 0 then .illegal else .alui .add true rd rd (sx 6 (cImm x))
  | 2 => .alui .add false rd 0 (sx 6 (cImm x))
  | 3 =>
    if cImm x = 0 then .illegal
    else if rd = 2 then
      .alui .add false 2 2 (sx 10 (fld x 12 12 * 512 + fld x 4 3 * 128 + fld x 5 5 * 64 + fld x 2 2 * 32 + fld x 6 6 * 16))
    else .lui rd (sx 18 (cImm x * 4096))
  | 4 => decodeC1Alu x
  | 5 => .jal 0 j
  | 6 => .branch .eq rs 0 b
  | _ => .branch .ne rs 0 b

/-- Quadrant 2. -/
def decodeC2 (x : Nat) : Rv :=
  let rd := fld x 11 7
  let rs2 := fld x 6 2
  match fld x 15 13 with
  | 0 => .alui .sll false rd rd (BitVec.ofNat 64 (cImm x))
  | 2 =>
    if rd = 0 then .illegal
    else .load 4 true rd 2 (BitVec.ofNat 64 (fld x 3 2 * 64 + fld x 12 12 * 32 + fld x 6 4 * 4))
  | 3 =>
    if rd = 0 then .illegal
    else .load 8 true rd 2 (BitVec.ofNat 64 (fld x 4 2 * 64 + fld x 12 12 * 32 + fld x 6 5 * 8))
  | 4 =>
    if fld x 12 12 = 0 then
      if rs2 = 0 then (if rd = 0 then .illegal else .jalr 0 rd 0) else .alu .add false rd 0 rs2
    else if rs2 = 0 then (if rd = 0 then .ebreak else .jalr 1 rd 0)
    else .alu .add false rd rd rs2
  | 6 => .store 4 2 rs2 (BitVec.ofNat 64 (fld x 8 7 * 64 + fld x 12 9 * 4))
  | 7 => .store 8 2 rs2 (BitVec.ofNat 64 (fld x 9 7 * 64 + fld x 12 10 * 8))
  | _ => .illegal

/-- A 16-bit encoding. -/
def decode16 (x : Nat) : Rv :=
  match x % 4 with
  | 0 => decodeC0 x
  | 1 => decodeC1 x
  | _ => decodeC2 x

/-! ### Integer arithmetic -/

/-- Signed division and remainder, with the results RISC-V gives for 0 and for the overflow. -/
def rvDiv {w : Nat} (a b : BitVec w) : BitVec w := if b = 0 then BitVec.allOnes w else a.sdiv b
def rvRem {w : Nat} (a b : BitVec w) : BitVec w := if b = 0 then a else a.srem b
def rvDivu {w : Nat} (a b : BitVec w) : BitVec w := if b = 0 then BitVec.allOnes w else a / b
def rvRemu {w : Nat} (a b : BitVec w) : BitVec w := if b = 0 then a else a % b

/-- The high half of a product of two integers. -/
def rvHigh (a b : Int) : BitVec 64 := BitVec.ofInt 64 (a * b / 2 ^ 64)

/-- An operation on 64 bits. -/
def RvOp.run64 (op : RvOp) (a b : BitVec 64) : BitVec 64 :=
  let n := b.toNat % 64
  match op with
  | .add => a + b | .sub => a - b | .sll => a <<< n
  | .slt => if a.slt b then 1 else 0 | .sltu => if a.ult b then 1 else 0
  | .xor => a ^^^ b | .srl => a >>> n | .sra => a.sshiftRight n | .or => a ||| b | .and => a &&& b
  | .mul => a * b | .mulh => rvHigh a.toInt b.toInt | .mulhsu => rvHigh a.toInt b.toNat
  | .mulhu => rvHigh a.toNat b.toNat
  | .div => rvDiv a b | .divu => rvDivu a b | .rem => rvRem a b | .remu => rvRemu a b

/-- An operation on 32 bits, its result sign-extended. -/
def RvOp.run32 (op : RvOp) (x y : BitVec 64) : BitVec 64 :=
  let a : BitVec 32 := x.truncate 32
  let b : BitVec 32 := y.truncate 32
  let n := b.toNat % 32
  let r : BitVec 32 := match op with
    | .add => a + b | .sub => a - b | .sll => a <<< n
    | .slt => if a.slt b then 1 else 0 | .sltu => if a.ult b then 1 else 0
    | .xor => a ^^^ b | .srl => a >>> n | .sra => a.sshiftRight n | .or => a ||| b | .and => a &&& b
    | .mul => a * b | .mulh => a * b | .mulhsu => a * b | .mulhu => a * b
    | .div => rvDiv a b | .divu => rvDivu a b | .rem => rvRem a b | .remu => rvRemu a b
  r.signExtend 64

/-- An operation in its 64-bit or 32-bit form. -/
def RvOp.run (op : RvOp) (w : Bool) (a b : BitVec 64) : BitVec 64 := if w then op.run32 a b else op.run64 a b

/-- A branch is taken. -/
def RvCond.holds (c : RvCond) (a b : BitVec 64) : Bool :=
  match c with
  | .eq => a == b | .ne => a != b | .lt => a.slt b | .ge => !a.slt b | .ltu => a.ult b | .geu => !a.ult b

/-- The value that an AMO of `n` bytes stores, from what memory and the register hold. -/
def RvAmo.run (op : RvAmo) (n : Nat) (m r : Nat) : Nat :=
  let w := 8 * n
  let r := r % 2 ^ w
  let lt := if n = 4 then (BitVec.ofNat 32 m).slt (BitVec.ofNat 32 r) else (BitVec.ofNat 64 m).slt (BitVec.ofNat 64 r)
  match op with
  | .swap => r | .add => (m + r) % 2 ^ w | .xor => m ^^^ r | .and => m &&& r | .or => m ||| r
  | .min => if lt then m else r | .max => if lt then r else m | .minu => Nat.min m r | .maxu => Nat.max m r

end Sys2Proof.Machine
end

