-- ==== Sys2Proof/Machine/HartMem.lean ====
section
/-! DEFINITION. What a hart reaches: the core view of Table 16-3, physical memory protection, and the loads, stores and
fetches of a hart (R340–R344, R359). -/

namespace Sys2Proof.Machine

/-- What an access of a hart does. -/
inductive HAcc where
  | fetch | load | store
  deriving DecidableEq, Repr

/-- A region of the core view (Table 16-3). -/
inductive HRegion where
  | rom | coreLocal | sram | dma | regs | windows | none
  deriving DecidableEq, Repr

/-- The region that holds `n` bytes at an address. -/
def regionOf (a n : Nat) : HRegion :=
  if a + n ≤ 0x10000 then .rom
  else if 0x03000000 ≤ a ∧ a + n ≤ 0x03001000 then .coreLocal
  else if inSram a n then .sram
  else if inDma a n then .dma
  else if 0x40000000 ≤ a ∧ a + n ≤ 0x50000000 then .regs
  else if 0x50000000 ≤ a ∧ a + n ≤ 0x54000000 then .windows
  else .none

/-! ### Physical memory protection (R337; the rules of the privileged specification, log entry 18) -/

/-- The A field of a PMP configuration byte: 0 off, 1 TOR, 3 NAPOT. -/
def pmpMode (c : BitVec 8) : Nat := c.toNat / 8 % 4

/-- A PMP entry's configuration. -/
def pmpCfg (x : Hart) (i : Nat) : BitVec 8 := ix x.pmpcfg i 0

/-- PMPADDR as it reads: with a grain of 64 bytes the low bits read 1 in NAPOT and 0 elsewhere. -/
def pmpShown (x : Hart) (i : Nat) : Nat :=
  let a := (ix x.pmpaddr i 0).toNat
  if pmpMode (pmpCfg x i) = 3 then a ||| 7 else a / 16 * 16

/-- The addresses that a PMP entry covers: from, up to. -/
def pmpRange (x : Hart) (i : Nat) : Nat × Nat :=
  let v := (ix x.pmpaddr i 0).toNat
  match pmpMode (pmpCfg x i) with
  | 1 => (if i = 0 then 0 else (ix x.pmpaddr (i - 1) 0).toNat / 16 * 64, v / 16 * 64)
  | 3 =>
    let w := v ||| 7
    let m := w ^^^ (w + 1)
    ((w - (w &&& m)) * 4, (w - (w &&& m)) * 4 + (m + 1) * 4)
  | _ => (0, 0)

/-- An entry covers an access in whole or in part. -/
def pmpHits (x : Hart) (a n i : Nat) : Bool := decide ((pmpRange x i).1 < a + n) && decide (a < (pmpRange x i).2)

/-- An access in a mode passes the lowest entry that covers it, or, where none does, is one of machine mode. -/
def pmpAllows (x : Hart) (k : HAcc) (machine : Bool) (a n : Nat) : Bool :=
  match (List.range 16).find? (pmpHits x a n) with
  | none => machine
  | some i =>
    let c := (pmpCfg x i).toNat
    decide ((pmpRange x i).1 ≤ a) && decide (a + n ≤ (pmpRange x i).2) &&
      ((machine && !bitOf c 7) ||
        match k with
        | .load => bitOf c 0
        | .store => bitOf c 1
        | .fetch => bitOf c 2)

/-- The mode in which an access is judged: MPRV gives loads and stores the mode of MPP. -/
def accMachine (x : Hart) (k : HAcc) : Bool :=
  if k ≠ .fetch ∧ x.machine ∧ x.mstatus.getLsbD 17 then x.mstatus.getLsbD 12 else x.machine

/-! ### Which accesses fault -/

/-- The page of an address of the register region. -/
def coreReg (a : Nat) : Nat := a - 0x40000000

/-- R359: a load of user mode from a PMC page is permitted. -/
def userLoads (s : State) (h a n : Nat) : Bool :=
  let p := pgOf (coreReg a)
  let one (b : Nat) : Bool := inArr (rPMC_CNT 0) 32 (offOf b) && userMayRead s h p.die ((offOf b - rPMC_CNT 0) / 4)
  (pageKind p != some .pmc) || (one (coreReg a / 4 * 4) && (n != 8 || one (coreReg a + 4)))

/-- An access is to core SRAM outside the regions of the hart (R341). -/
def outsideRegion (s : State) (h a n : Nat) : Bool := inSram a n && !hartSram s h a n

/-- An access of a hart takes an access fault (Table 16-3, R341, R343, R359). `atom` marks the accesses of LR, SC and
AMOs (R340), `err` the read error of R17. -/
def accFaults (s : State) (h : Nat) (k : HAcc) (atom err : Bool) (a n : Nat) : Bool :=
  let x := hart s h
  let m := accMachine x k
  !pmpAllows x k m a n ||
    match regionOf a n with
    | .rom => k == .store || h != 0 || atom
    | .coreLocal => k == .fetch || atom
    | .sram => outsideRegion s h a n
    | .dma => k == .fetch
    | .regs => k == .fetch || atom || (k == .load && (err || (!m && !userLoads s h a n)))
    | .windows => k != .load || atom
    | .none => true

/-- A faulting access outside the hart's regions is counted (R341). A read error shows on the BLV page (R17). -/
def noteFault (s : State) (h : Fin 6) (k : HAcc) (err : Bool) (a n : Nat) : State :=
  if outsideRegion s h a n then deny s (.hart h) 0
  else if regionOf a n = .regs ∧ k = .load ∧ err = true then putB s (pBLV 0) fBLV_STAT_RD_ERR true
  else s

/-! ### The core-local block (Table 16-4) -/

/-- MTIME of a hart: MONO of the Hub's replica (R344). -/
def mtime (s : State) : Nat := ((s.clk.p.toNat : Int) + (replica s 0).ofs).toNat / 65536

/-- A byte of the core-local block. -/
def localByte (s : State) (h off : Nat) : Nat :=
  if off < 8 then mtime s / 2 ^ (8 * off) % 256
  else if off < 16 then (hart s h).cmp.toNat / 2 ^ (8 * (off - 8)) % 256
  else if 16 ≤ off ∧ off < 40 ∧ off % 4 = 0 then ofBool (hart s ((off - 16) / 4)).msip
  else 0

/-- A 64-bit word with bytes replaced. -/
def patch64 (w : BitVec 64) (off : Nat) (b : List Byte) : BitVec 64 :=
  BitVec.ofNat 64 (natLE (patch (bytesLE 8 w.toNat) off b))

/-- A store to the core-local block. -/
def localStore (s : State) (h off : Nat) (b : List Byte) : State :=
  if 8 ≤ off ∧ off < 16 then updHart s h fun x => { x with cmp := patch64 x.cmp (off - 8) b }
  else if 16 ≤ off ∧ off < 40 then
    (List.range 6).foldl (fun s g =>
      if off ≤ 16 + 4 * g ∧ 16 + 4 * g < off + b.length then
        updHart s g fun x => { x with msip := bitOf (ix b (16 + 4 * g - off) 0).toNat 0 }
      else s) s
  else if 48 ≤ off ∧ off < 52 then kickHart s h
  else s

/-! ### The register and window regions -/

/-- A word of the windows as a hart reads it (R415, Table 21-1); the PKE mailbox reads 0. -/
def winWord (s : State) (off : Nat) : State × Nat :=
  if off < 0x802000 then (s, recWindow s off)
  else if 0x1000000 ≤ off ∧ off < 0x1400000 then
    (s, natLE ((List.range 4).map fun j => snapByte s ((off - 0x1000000) / 0x200000) (off % 0x200000 + j)))
  else if 0x1840000 ≤ off ∧ off < 0x1841000 then userPage s (off - 0x1840000)
  else (s, 0)

/-- A register word as a hart reads it. -/
def regWord (s : State) (h : Fin 6) (off : Nat) : State × Nat :=
  let t := loadWord s (.hart h) off
  (t, t.lastRead.toNat)

/-- A load of `n` bytes out of words (R27): 64 bits as two words, lower address first; 8 and 16 bits as the addressed
bytes of a word. -/
def wordsLoad (f : State → Nat → State × Nat) (s : State) (off n : Nat) : State × Nat :=
  if n = 8 then
    let x := f s off
    let y := f x.1 (off + 4)
    (y.1, x.2 + y.2 * 0x100000000)
  else
    let x := f s (off / 4 * 4)
    (x.1, x.2 / 2 ^ (8 * (off % 4)) % 2 ^ (8 * n))

/-- A byte that a hart fetches or loads from the boot ROM or core memory. -/
def plainByte (s : State) (a : Nat) : Byte := if a < 0x10000 then Config.bootRom a else coreByte s a

/-- Bytes of the boot ROM or of core memory, as a number. -/
def plainLoad (s : State) (a n : Nat) : Nat := natLE ((List.range n).map fun k => plainByte s (a + k))

/-- A load of `n` bytes that does not fault. -/
def coreLoad (s : State) (h : Fin 6) (a n : Nat) : State × Nat :=
  match regionOf a n with
  | .coreLocal => (s, (List.range n).foldl (fun v k => v + localByte s h (a - 0x03000000 + k) * 2 ^ (8 * k)) 0)
  | .regs => wordsLoad (fun s o => regWord s h o) s (coreReg a) n
  | .windows => wordsLoad winWord s (a - 0x50000000) n
  | _ => (s, plainLoad s a n)

/-- A store of a hart to the register pages (R27, R342): a narrow one is discarded and counted; one of user mode to a
PMC page is discarded and counted in DENY_CNT (R359). -/
def regStore (s : State) (h : Fin 6) (machine : Bool) (off n v : Nat) (env : WriteFacts) : State :=
  let r := Requester.hart h
  if !machine && pageKind (pgOf off) == some .pmc then deny s r 1
  else if n < 4 then narrowWrite s r off
  else if n = 4 then storeWord s r off (v % 0x100000000) env
  else storeWord (storeWord s r off (v % 0x100000000) env) r (off + 4) (v / 0x100000000 % 0x100000000) env

/-- A store of `n` bytes that does not fault. -/
def coreStore (s : State) (h : Fin 6) (machine : Bool) (a n v : Nat) (env : WriteFacts) : State :=
  match regionOf a n with
  | .coreLocal => localStore s h (a - 0x03000000) (bytesLE n v)
  | .regs => regStore s h machine (coreReg a) n v env
  | .sram => writeCore s a (bytesLE n v)
  | .dma => writeCore s a (bytesLE n v)
  | _ => s

end Sys2Proof.Machine
end

