-- ==== Sys2Proof/Machine/Hart.lean ====
section
/-! DEFINITION. HART_INSTRUCTION (R337): a hart executes one instruction. The registers, traps and CSRs that R337 does
not spell out follow the RISC-V specifications that it names (PRESUMED, log entry 18). -/

namespace Sys2Proof.Machine

/-! ### Registers -/

/-- An integer register; x0 reads 0. -/
def getX (x : Hart) (n : Nat) : BitVec 64 := if n = 0 then 0 else x.xs.getD (n - 1) 0

/-- Write an integer register; a write of x0 is discarded. -/
def setX (x : Hart) (n : Nat) (v : BitVec 64) : Hart := if n = 0 then x else { x with xs := x.xs.setIfInBounds (n - 1) v }

/-- A 64-bit field of bits: `v` under the mask, `w` elsewhere. -/
def masked64 (m w v : BitVec 64) : BitVec 64 := (w &&& ~~~m) ||| (v &&& m)

/-- The bits of MSTATUS that can be written: MIE, MPIE, MPP, MPRV and TW. -/
def mstatusMask : BitVec 64 := 0x221888

/-- MSTATUS as a write leaves it: an MPP that names no mode of the hart keeps its value. -/
def mstatusStored (w v : BitVec 64) : BitVec 64 :=
  let mpp := v.toNat / 2048 % 4
  masked64 (if mpp = 0 ∨ mpp = 3 then mstatusMask else mstatusMask &&& ~~~0x1800) w v

/-- A PMP configuration byte as a write leaves it: a locked entry, NA4, and W without R keep what they had. -/
def pmpStored (old new : BitVec 8) : BitVec 8 :=
  let o := old.toNat
  let n := new.toNat
  if bitOf o 7 then old
  else
    let rwx := if n / 2 % 2 = 1 ∧ n % 2 = 0 then o % 8 else n % 8
    let a := if n / 8 % 4 = 2 then o / 8 % 4 else n / 8 % 4
    BitVec.ofNat 8 (rwx + a * 8 + n / 128 * 128)

/-- MIP: MEIP, MTIP and MSIP (R344, R345). -/
def mip (s : State) (h : Nat) : BitVec 64 :=
  BitVec.ofNat 64 (ofBool (hartMeip s h) * 2048 + ofBool (decide ((hart s h).cmp.toNat ≤ mtime s)) * 128 +
    ofBool (hart s h).msip * 8)

/-! ### CSRs (Table 16-2) -/

/-- PMPCFG 2k as eight bytes. -/
def pmpWord (x : Hart) (k : Nat) : BitVec 64 :=
  BitVec.ofNat 64 (natLE ((List.range 8).map fun i => pmpCfg x (8 * k + i)))

/-- A user counter is visible to the hart's mode. -/
def counterSeen (x : Hart) (n : Nat) : Bool := x.machine || x.mcounteren.getLsbD n

/-- The value of a CSR; none where the CSR does not exist or the mode may not read it. -/
def csrRead (s : State) (h n : Nat) : Option (BitVec 64) :=
  let x := hart s h
  if 0xC00 ≤ n ∧ n ≤ 0xC02 then
    if counterSeen x (n - 0xC00) then
      some (if n = 0xC00 then x.mcycle else if n = 0xC01 then BitVec.ofNat 64 (mtime s) else x.minstret)
    else none
  else if !x.machine then none
  else if (0x323 ≤ n ∧ n ≤ 0x33F) ∨ (0xB03 ≤ n ∧ n ≤ 0xB1F) then some 0
  else if 0x3B0 ≤ n ∧ n ≤ 0x3BF then some (BitVec.ofNat 64 (pmpShown x (n - 0x3B0)))
  else match n with
    | 0xF11 => some 0
    | 0xF12 => some 0
    | 0xF13 => some 0xB0
    | 0xF14 => some (BitVec.ofNat 64 h)
    | 0xF15 => some 0
    | 0x300 => some x.mstatus
    | 0x301 => some 0x8000000000101105
    | 0x304 => some x.mie
    | 0x305 => some x.mtvec
    | 0x306 => some x.mcounteren
    | 0x30A => some 0
    | 0x320 => some 0
    | 0x340 => some x.mscratch
    | 0x341 => some x.mepc
    | 0x342 => some x.mcause
    | 0x343 => some x.mtval
    | 0x344 => some (mip s h)
    | 0x3A0 => some (pmpWord x 0)
    | 0x3A2 => some (pmpWord x 1)
    | 0xB00 => some x.mcycle
    | 0xB02 => some x.minstret
    | _ => none

/-- PMPADDR i is locked by its own entry, or by the next where that is a locked TOR. -/
def pmpAddrLocked (x : Hart) (i : Nat) : Bool :=
  bitOf (pmpCfg x i).toNat 7 ||
    (decide (i < 15) && bitOf (pmpCfg x (i + 1)).toNat 7 && pmpMode (pmpCfg x (i + 1)) == 1)

/-- A write of PMPCFG 2k. -/
def pmpWordWrite (x : Hart) (k : Nat) (v : BitVec 64) : Hart :=
  { x with pmpcfg := (List.range 16).map fun i =>
      if i / 8 = k then pmpStored (pmpCfg x i) (BitVec.ofNat 8 (v.toNat / 2 ^ (8 * (i % 8)))) else pmpCfg x i }

/-- A write of a CSR that exists and can be written. -/
def csrWrite (x : Hart) (n : Nat) (v : BitVec 64) : Hart :=
  if 0x3B0 ≤ n ∧ n ≤ 0x3BF then
    if pmpAddrLocked x (n - 0x3B0) then x
    else { x with pmpaddr := upd x.pmpaddr (n - 0x3B0) fun _ => v &&& 0x3FFFFFFFFFFFFF }
  else match n with
    | 0x300 => { x with mstatus := mstatusStored x.mstatus v }
    | 0x304 => { x with mie := v &&& 0x888 }
    | 0x305 => { x with mtvec := v &&& ~~~2 }
    | 0x306 => { x with mcounteren := v &&& 7 }
    | 0x340 => { x with mscratch := v }
    | 0x341 => { x with mepc := v &&& ~~~1 }
    | 0x342 => { x with mcause := v }
    | 0x343 => { x with mtval := v }
    | 0x3A0 => pmpWordWrite x 0 v
    | 0x3A2 => pmpWordWrite x 1 v
    | 0xB00 => { x with mcycle := v }
    | 0xB02 => { x with minstret := v }
    | _ => x

/-- The value that a CSR instruction writes. -/
def RvCsr.run (op : RvCsr) (old src : BitVec 64) : BitVec 64 :=
  match op with
  | .write => src | .set => old ||| src | .clear => old &&& ~~~src

/-! ### Traps -/

/-- A trap of a hart: MEPC, MCAUSE, MTVAL and MSTATUS are saved, and the hart goes on in machine mode at MTVEC, an
interrupt at its vector where MTVEC says so. -/
def takeTrap (irq : Bool) (cause : Nat) (tval : BitVec 64) (x : Hart) : Hart :=
  let st := x.mstatus.toNat
  let kept := masked64 0x1888 x.mstatus
    (BitVec.ofNat 64 (st / 8 % 2 * 128 + ofBool x.machine * 0x1800))
  let base := x.mtvec &&& ~~~3
  { x with mepc := x.pc &&& ~~~1, mcause := BitVec.ofNat 64 (cause + ofBool irq * 2 ^ 63), mtval := tval, mstatus := kept,
           machine := true, pc := if irq && x.mtvec.getLsbD 0 then base + BitVec.ofNat 64 (4 * cause) else base }

/-- MRET: the saved mode and interrupt enable come back, and the hart goes on at MEPC. -/
def takeMret (x : Hart) : Hart :=
  let st := x.mstatus.toNat
  let m := bitOf st 12
  let back := masked64 0x1888 x.mstatus (BitVec.ofNat 64 (st / 128 % 2 * 8 + 128))
  { x with mstatus := if m then back else back &&& ~~~0x20000, machine := m, pc := x.mepc }

/-- The interrupt that a hart takes before its next instruction: MEI before MSI before MTI. -/
def irqOf (s : State) (h : Nat) : Option Nat :=
  let x := hart s h
  let p := x.mie &&& mip s h
  if x.machine && !x.mstatus.getLsbD 3 then none
  else if p.getLsbD 11 then some 11
  else if p.getLsbD 3 then some 3
  else if p.getLsbD 7 then some 7
  else none

/-- A pending interrupt is taken. -/
def takeIrq (s : State) (h : Nat) : State :=
  match irqOf s h with
  | none => s
  | some c => updHart s h (takeTrap true c 0)

/-- An exception of a hart. The instruction does not retire. -/
def except (s : State) (h cycles cause : Nat) (tval : BitVec 64) : State :=
  updHart s h fun x => takeTrap false cause tval { x with mcycle := x.mcycle + BitVec.ofNat 64 cycles }

/-- An exception whose MTVAL the specification leaves to the implementation: a free value. -/
def exceptFree (s : State) (h cycles cause : Nat) : State :=
  except (drawn s) h cycles cause (BitVec.ofNat 64 (freeVal s 42))

/-- An access fault of a hart: its cause is 1, 5 or 7 and MTVAL holds the address (R341, R343). -/
def accessFault (s : State) (h : Fin 6) (cycles : Nat) (k : HAcc) (err : Bool) (a n : Nat) : State :=
  let cause := match k with
    | .fetch => 1
    | .load => 5
    | .store => 7
  except (noteFault s h k err a n) h cycles cause (BitVec.ofNat 64 a)

/-! ### Completing an instruction -/

/-- What an instruction changes in its hart beside its effect, its counters counting. -/
def retire (s : State) (h cycles : Nat) (pc : BitVec 64) (f : Hart → Hart) : State :=
  updHart s h fun x => f { x with pc := pc, mcycle := x.mcycle + BitVec.ofNat 64 cycles, minstret := x.minstret + 1 }

/-- The operands that every instruction has: its hart, its cycles, the read error and what a store carries. -/
structure HartCtx where
  h : Fin 6
  cycles : Nat
  err : Bool
  env : WriteFacts
  pc : BitVec 64
  next : BitVec 64
  deriving DecidableEq, Repr

/-- A load value extended to 64 bits. -/
def extended (n : Nat) (sgn : Bool) (v : Nat) : BitVec 64 := if sgn then BitVec.ofInt 64 (signed (8 * n) v) else BitVec.ofNat 64 v

/-- A load (R340): a misaligned address or a fault, else the value in a register. -/
def hartLoad (s : State) (c : HartCtx) (n : Nat) (sgn : Bool) (rd : Nat) (a : Nat) : State :=
  if a % n ≠ 0 then except s c.h c.cycles 4 (BitVec.ofNat 64 a)
  else if accFaults s c.h .load false c.err a n then accessFault s c.h c.cycles .load c.err a n
  else
    let x := coreLoad s c.h a n
    retire x.1 c.h c.cycles c.next fun y => setX y rd (extended n sgn x.2)

/-- A store (R340, R342): the hart goes on before the store acts, since a store may reset it. -/
def hartStore (s : State) (c : HartCtx) (n a v : Nat) : State :=
  if a % n ≠ 0 then except s c.h c.cycles 6 (BitVec.ofNat 64 a)
  else if accFaults s c.h .store false false a n then accessFault s c.h c.cycles .store false a n
  else
    let m := accMachine (hart s c.h) .store
    coreStore (retire s c.h c.cycles c.next fun y => y) c.h m a n v c.env

/-- LR (R340): a load with a reservation. -/
def hartLr (s : State) (c : HartCtx) (n rd a : Nat) : State :=
  if a % n ≠ 0 then except s c.h c.cycles 4 (BitVec.ofNat 64 a)
  else if accFaults s c.h .load true false a n then accessFault s c.h c.cycles .load false a n
  else retire s c.h c.cycles c.next fun y => setX { y with resv := some (a, n) } rd (extended n true (plainLoad s a n))

/-- The bytes of an SC lie within a reservation. -/
def resvHolds (x : Hart) (a n : Nat) : Bool :=
  match x.resv with
  | some (b, k) => decide (b ≤ a) && decide (a + n ≤ b + k)
  | none => false

/-- SC (R340): it stores where the reservation stands, and answers 0, or 1 where it fails; the reservation ends. -/
def hartSc (s : State) (c : HartCtx) (n rd a v : Nat) : State :=
  if a % n ≠ 0 then except s c.h c.cycles 6 (BitVec.ofNat 64 a)
  else if accFaults s c.h .store true false a n then accessFault s c.h c.cycles .store false a n
  else
    let ok := resvHolds (hart s c.h) a n
    let s1 := retire s c.h c.cycles c.next fun y => setX { y with resv := none } rd (if ok then 0 else 1)
    if ok then writeCore s1 a (bytesLE n v) else s1

/-- An AMO (R340). -/
def hartAmo (s : State) (c : HartCtx) (op : RvAmo) (n rd a v : Nat) : State :=
  if a % n ≠ 0 then except s c.h c.cycles 6 (BitVec.ofNat 64 a)
  else if accFaults s c.h .store true false a n || accFaults s c.h .load true false a n then
    accessFault s c.h c.cycles .store false a n
  else
    let m := plainLoad s a n
    writeCore (retire s c.h c.cycles c.next fun y => setX y rd (extended n true m)) a (bytesLE n (op.run n m v))

/-- A CSR instruction: an illegal one where the CSR does not exist for the mode, or it would write a read-only CSR. -/
def hartCsr (s : State) (c : HartCtx) (op : RvCsr) (rd : Nat) (imm : Bool) (src n : Nat) : State :=
  let x := hart s c.h
  let v := if imm then BitVec.ofNat 64 src else getX x src
  let writes := op == .write || src != 0
  match csrRead s c.h n with
  | none => exceptFree s c.h c.cycles 2
  | some old =>
    if writes && n / 1024 == 3 then exceptFree s c.h c.cycles 2
    else retire s c.h c.cycles c.next fun y => setX (if writes then csrWrite y n (op.run old v) else y) rd old

/-- What one instruction does. -/
def runRv (s : State) (c : HartCtx) (i : Rv) : State :=
  let h := c.h
  let x := hart s h
  let g := getX x
  let go := retire s h c.cycles
  match i with
  | .lui rd imm => go c.next fun y => setX y rd imm
  | .auipc rd imm => go c.next fun y => setX y rd (c.pc + imm)
  | .jal rd imm => go (c.pc + imm) fun y => setX y rd c.next
  | .jalr rd rs1 imm => go ((g rs1 + imm) &&& ~~~1) fun y => setX y rd c.next
  | .branch cd rs1 rs2 imm => go (if cd.holds (g rs1) (g rs2) then c.pc + imm else c.next) fun y => y
  | .load n sgn rd rs1 imm => hartLoad s c n sgn rd (g rs1 + imm).toNat
  | .store n rs1 rs2 imm => hartStore s c n (g rs1 + imm).toNat (g rs2).toNat
  | .alui op w rd rs1 imm => go c.next fun y => setX y rd (op.run w (g rs1) imm)
  | .alu op w rd rs1 rs2 => go c.next fun y => setX y rd (op.run w (g rs1) (g rs2))
  | .fence => go c.next fun y => y
  | .ecall => except s h c.cycles (if x.machine then 11 else 8) 0
  | .ebreak => exceptFree s h c.cycles 3
  | .mret => if x.machine then go c.next takeMret else exceptFree s h c.cycles 2
  | .wfi => if !x.machine && x.mstatus.getLsbD 21 then exceptFree s h c.cycles 2 else go c.next fun y => y
  | .csr op rd imm src n => hartCsr s c op rd imm src n
  | .lr n rd rs1 => hartLr s c n rd (g rs1).toNat
  | .sc n rd rs1 rs2 => hartSc s c n rd (g rs1).toNat (g rs2).toNat
  | .amo op n rd rs1 rs2 => hartAmo s c op n rd (g rs1).toNat (g rs2).toNat
  | .illegal => exceptFree s h c.cycles 2

/-- The instruction at the pc of a hart and its length in bytes, or the address whose fetch faults. -/
def fetchRv (s : State) (h : Nat) : Sum Nat (Rv × Nat) :=
  let a := (hart s h).pc.toNat
  if accFaults s h .fetch false false a 2 then .inl a
  else
    let lo := plainLoad s a 2
    if lo % 4 ≠ 3 then .inr (decode16 lo, 2)
    else if accFaults s h .fetch false false (a + 2) 2 then .inl (a + 2)
    else .inr (decode32 (lo + plainLoad s (a + 2) 2 * 0x10000), 4)

/-- A hart can execute: it runs, no reset is held, and its domain is on and not in retention (R338, R443). -/
def hartRuns (s : State) (h : Nat) : Bool :=
  (hart s h).run && !inReset s && (decide (h < 2) || (domOn s domHC && !pageRetained s pCPU))

/-- HART_INSTRUCTION (R337, R340–R345): a running hart takes a pending interrupt, fetches, and executes one
instruction, or takes its exception. A hart that does not run does nothing. -/
def execHartInstruction (h : Fin 6) (cycles : Nat) (readErr : Bool) (env : WriteFacts) (s : State) :
    Host.Outcome State Fault Refusal :=
  if hartRuns s h then
    let s1 := takeIrq (quiet s) h
    let pc := (hart s1 h).pc
    .next (match fetchRv s1 h with
      | .inl a => accessFault s1 h cycles .fetch false a 2
      | .inr (i, n) => runRv s1 ⟨h, cycles, readErr, env, pc, pc + BitVec.ofNat 64 n⟩ i)
  else .next s

end Sys2Proof.Machine
end

