-- ==== Sys2Proof/Machine/Ring.lean ====
section
/-! DEFINITION. The completions of the calibration ring, which serves the ports, the Askair links, the margin
review and software (R182, R310, R311, R391). -/

namespace Sys2Proof.Machine

/-- A port's serializer delay has been measured; a review that waits for it goes on. -/
def portCalDone (s : State) (d i ser : Nat) : State := reviewCalDone (calDone s d i ser) d i

/-- TSU_CAL_DONE (R182): a port's calibration completes with a serializer delay of `ser` ps. -/
def execTsuCalDone (d : Fin 4) (i : Fin 8) (ser : Nat) (s : State) : Host.Outcome State Fault Refusal :=
  .next (portCalDone s d i ser)

/-- RING_DONE (R311): the ring completes a measurement of `ps`: of a port's lane (0–31), of an Askair lane (32–35), or
for software. -/
def execRingDoneCmd (lane : Option (Fin 36)) (ps : Nat) (s : State) : Host.Outcome State Fault Refusal :=
  match lane with
  | none => .next (ringSoft s ps)
  | some n =>
    if n.val < 32 then .next (portCalDone s (n.val / 8) (n.val % 8) ps) else .next (askCalDone s (n.val - 32) ps)

end Sys2Proof.Machine
end

