-- ==== Sys2Proof/Machine/Scale.lean ====
section
/-! DEFINITION. What a step of the timescale and a TAI second boundary do to the blocks together (spec/03). -/

namespace Sys2Proof.Machine

/-- TIMESCALE_STEP (R62): the pending step is applied at S; the discipline engine (R71, R86), the outputs (R281) and
their gates (R280) take it. -/
def execTimescaleStep (s : State) : Host.Outcome State Fault Refusal :=
  if stepPending s then
    let old := s.clk.tOfs
    let s1 := applyStep s
    .next (refreshGates (mckStep (dscStep s1 s1.tb.lastStep) old))
  else .next s

/-- TAI_SECOND (R49): the clock reaches the next TAI second boundary, the timebase writes the anchor, and trims of the
margin review take effect (R180). -/
def execTaiSecond (s : State) : Host.Outcome State Fault Refusal :=
  .next ([0, 1, 2, 3].foldl trimsTake (tickSecond s))

end Sys2Proof.Machine
end

