-- ==== Sys2Proof/Machine/Dispatch.lean ====
section
/-! DEFINITION. The dispatch of every command to its meaning, one arm per constructor. -/

namespace Sys2Proof.Machine

/-- The effect of a command on everything but the queue. -/
def exec (i : Instr) (s : State) : Host.Outcome State Fault Refusal :=
  match i with
  | .regWrite r adr size v env => Sys2Proof.Machine.execRegWrite r adr size v env s
  | .unmappedAccess r die page wr => Sys2Proof.Machine.execUnmappedAccess r die page wr s
  | .poweredOffAccess r die page wr => Sys2Proof.Machine.execPoweredOffAccess r die page wr s
  | .pageEnable r die page => Sys2Proof.Machine.execPageEnable r die page s
  | .pageDisable r die page => Sys2Proof.Machine.execPageDisable r die page s
  | .softReset r die page => Sys2Proof.Machine.execSoftReset r die page s
  | .softResetDone die page => Sys2Proof.Machine.execSoftResetDone die page s
  | .pageLock r die page => Sys2Proof.Machine.execPageLock r die page s
  | .intForce r die page v => Sys2Proof.Machine.execIntForce r die page v s
  | .featCommit r => Sys2Proof.Machine.execFeatCommit r s
  | .featCommitDone => Sys2Proof.Machine.execFeatCommitDone s
  | .doubtMessage die => Sys2Proof.Machine.execDoubtMessage die s
  | .doubtMessageResend die => Sys2Proof.Machine.execDoubtMessageResend die s
  | .blvTransfer dst waiting read crcFails latPs => Sys2Proof.Machine.execBlvTransfer dst waiting read crcFails latPs s
  | .islXing die toIsl => Sys2Proof.Machine.execIslXing die toIsl s
  | .islMonitorJudge die mv temp neighbours xlat spread => Sys2Proof.Machine.execIslMonitorJudge die mv temp neighbours xlat spread s
  | .laneExchange lane marks => Sys2Proof.Machine.execLaneExchange lane marks s
  | .tlaneFault lane => Sys2Proof.Machine.execTlaneFault lane s
  | .timeSnapshot r die wide => Sys2Proof.Machine.execTimeSnapshot r die wide s
  | .taiSecond => Sys2Proof.Machine.execTaiSecond s
  | .utcOffsetWrite r v => Sys2Proof.Machine.execUtcOffsetWrite r v s
  | .leapSchedWrite r v => Sys2Proof.Machine.execLeapSchedWrite r v s
  | .leapApplied => Sys2Proof.Machine.execLeapApplied s
  | .smearStart => Sys2Proof.Machine.execSmearStart s
  | .smearEnd => Sys2Proof.Machine.execSmearEnd s
  | .stepRequest r v => Sys2Proof.Machine.execStepRequest r v s
  | .timescaleStep => Sys2Proof.Machine.execTimescaleStep s
  | .tbeStepEnd => Sys2Proof.Machine.execTbeStepEnd s
  | .servoUpdate temp heat osc => Sys2Proof.Machine.execServoUpdate temp heat osc s
  | .ptpSampleRx slot sample acc => Sys2Proof.Machine.execPtpSampleRx slot sample acc s
  | .extPpsEdge input at' falling => Sys2Proof.Machine.execExtPpsEdge input at' falling s
  | .extFreqCount input ppt => Sys2Proof.Machine.execExtFreqCount input ppt s
  | .slotLost k => Sys2Proof.Machine.execSlotLost k s
  | .slotRelease r v => Sys2Proof.Machine.execSlotRelease r v s
  | .biasClr r v => Sys2Proof.Machine.execBiasClr r v s
  | .historyStore => Sys2Proof.Machine.execHistoryStore s
  | .modelRefit => Sys2Proof.Machine.execModelRefit s
  | .ovnSettled temp => Sys2Proof.Machine.execOvnSettled temp s
  | .ovnUnsettled temp => Sys2Proof.Machine.execOvnUnsettled temp s
  | .ovnRange atLimit => Sys2Proof.Machine.execOvnRange atLimit s
  | .ovnFault => Sys2Proof.Machine.execOvnFault s
  | .oscLost => Sys2Proof.Machine.execOscLost s
  | .oscRestored => Sys2Proof.Machine.execOscRestored s
  | .measValid ppt sig => Sys2Proof.Machine.execMeasValid ppt sig s
  | .ovnRetry r v => Sys2Proof.Machine.execOvnRetry r v s
  | .srcSwitch => Sys2Proof.Machine.execSrcSwitch s
  | .backupEnter stopped => Sys2Proof.Machine.execBackupEnter stopped s
  | .tuneStep => Sys2Proof.Machine.execTuneStep s
  | .gfWarmupEnd => Sys2Proof.Machine.execGfWarmupEnd s
  | .pllUnlock taken => Sys2Proof.Machine.execPllUnlock taken s
  | .agcUpdate outer clip ma mv => Sys2Proof.Machine.execAgcUpdate outer clip ma mv s
  | .agcRail => Sys2Proof.Machine.execAgcRail s
  | .antShort => Sys2Proof.Machine.execAntShort s
  | .antRetry => Sys2Proof.Machine.execAntRetry s
  | .antOk => Sys2Proof.Machine.execAntOk s
  | .antOpen ma => Sys2Proof.Machine.execAntOpen ma s
  | .acqPush r v => Sys2Proof.Machine.execAcqPush r v s
  | .acqFlush r v => Sys2Proof.Machine.execAcqFlush r v s
  | .acqJobStart => Sys2Proof.Machine.execAcqJobStart s
  | .acqCaptureDone => Sys2Proof.Machine.execAcqCaptureDone s
  | .acqPassDone stat dopp code cn0 => Sys2Proof.Machine.execAcqPassDone stat dopp code cn0 s
  | .acqResRead r => Sys2Proof.Machine.execAcqResRead r s
  | .schPullinEnd ch pliOk => Sys2Proof.Machine.execSchPullinEnd ch pliOk s
  | .schBitSync ch => Sys2Proof.Machine.execSchBitSync ch s
  | .schLost ch => Sys2Proof.Machine.execSchLost ch s
  | .schSlip ch => Sys2Proof.Machine.execSchSlip ch s
  | .chRelease r ch v => Sys2Proof.Machine.execChRelease r ch v s
  | .trkPromoteGo r v => Sys2Proof.Machine.execTrkPromoteGo r v s
  | .trkMove pc car code => Sys2Proof.Machine.execTrkMove pc car code s
  | .tchBoundary ch pc edge phase => Sys2Proof.Machine.execTchBoundary ch pc edge phase s
  | .tchDump ch taps noise => Sys2Proof.Machine.execTchDump ch taps noise s
  | .tchDumpRead r ch slot => Sys2Proof.Machine.execTchDumpRead r ch slot s
  | .tchCommit r ch v => Sys2Proof.Machine.execTchCommit r ch v s
  | .tchStale ch => Sys2Proof.Machine.execTchStale ch s
  | .shapeCheck ch dev pair => Sys2Proof.Machine.execShapeCheck ch dev pair s
  | .trkEpoch meas => Sys2Proof.Machine.execTrkEpoch meas s
  | .navSubframe ch first inverted preamble words => Sys2Proof.Machine.execNavSubframe ch first inverted preamble words s
  | .inavPage ch first odd bits crcOk tailOk corrected => Sys2Proof.Machine.execInavPage ch first odd bits crcOk tailOk corrected s
  | .navRdIdxWrite r v => Sys2Proof.Machine.execNavRdIdxWrite r v s
  | .solSubmit r v => Sys2Proof.Machine.execSolSubmit r v s
  | .posSigWrite r v => Sys2Proof.Machine.execPosSigWrite r v s
  | .intViewRx => Sys2Proof.Machine.execIntViewRx s
  | .viewStale => Sys2Proof.Machine.execViewStale s
  | .intSecondCheck => Sys2Proof.Machine.execIntSecondCheck s
  | .exclExpire sys prn => Sys2Proof.Machine.execExclExpire sys prn s
  | .exclSet r v => Sys2Proof.Machine.execExclSet r v s
  | .exclClr r v => Sys2Proof.Machine.execExclClr r v s
  | .forceSuspect r v => Sys2Proof.Machine.execForceSuspect r v s
  | .intClear r v => Sys2Proof.Machine.execIntClear r v s
  | .suspectCleared => Sys2Proof.Machine.execSuspectCleared s
  | .snpArm r v => Sys2Proof.Machine.execSnpArm r v s
  | .snpAutoArm => Sys2Proof.Machine.execSnpAutoArm s
  | .snpWindowOpen => Sys2Proof.Machine.execSnpWindowOpen s
  | .snpCaptureStart late => Sys2Proof.Machine.execSnpCaptureStart late s
  | .snpCaptureEnd samples => Sys2Proof.Machine.execSnpCaptureEnd samples s
  | .snpCancel r v taken => Sys2Proof.Machine.execSnpCancel r v taken s
  | .snpHold r v => Sys2Proof.Machine.execSnpHold r v s
  | .snpRelease r v => Sys2Proof.Machine.execSnpRelease r v s
  | .linkUp d port => Sys2Proof.Machine.execLinkUp d port s
  | .linkDown d port block fec localFault => Sys2Proof.Machine.execLinkDown d port block fec localFault s
  | .sdsPllUnlock d q h => Sys2Proof.Machine.execSdsPllUnlock d q h s
  | .mmTransaction r d q v => Sys2Proof.Machine.execMmTransaction r d q v s
  | .mmDone d q how data => Sys2Proof.Machine.execMmDone d q how data s
  | .modIn d q => Sys2Proof.Machine.execModIn d q s
  | .modOut d q => Sys2Proof.Machine.execModOut d q s
  | .modInt d q low => Sys2Proof.Machine.execModInt d q low s
  | .frameRx d port x => Sys2Proof.Machine.execFrameRx d port x s
  | .pauseEnd d port => Sys2Proof.Machine.execPauseEnd d port s
  | .tsuCalRun r d port => Sys2Proof.Machine.execTsuCalRun r d port s
  | .tsuCalDone d port ser => Sys2Proof.Machine.execTsuCalDone d port ser s
  | .tsuCal d port => Sys2Proof.Machine.execTsuCal d port s
  | .booking d port grid => Sys2Proof.Machine.execBooking d port grid s
  | .untimedSubmit d port frame => Sys2Proof.Machine.execUntimedSubmit d port frame s
  | .untimedLaunch d port => Sys2Proof.Machine.execUntimedLaunch d port s
  | .starve d port => Sys2Proof.Machine.execStarve d port s
  | .holdEnqueue d port => Sys2Proof.Machine.execHoldEnqueue d port s
  | .lchRelease d port tileOk => Sys2Proof.Machine.execLchRelease d port tileOk s
  | .late d port grid => Sys2Proof.Machine.execLate d port grid s
  | .tsuDeparture d port dev => Sys2Proof.Machine.execTsuDeparture d port dev s
  | .launchDevEnd d port => Sys2Proof.Machine.execLaunchDevEnd d port s
  | .lchLate d => Sys2Proof.Machine.execLchLate d s
  | .swFrameSubmit ring w0 w1 w2 w3 frame => Sys2Proof.Machine.execSwFrameSubmit ring w0 w1 w2 w3 frame s
  | .ansTabRead r d idx addr => Sys2Proof.Machine.execAnsTabRead r d idx addr s
  | .ansTabWrite r d idx addr => Sys2Proof.Machine.execAnsTabWrite r d idx addr s
  | .ansTabDone d => Sys2Proof.Machine.execAnsTabDone d s
  | .ansLaneTake d grid tileOk tblOk => Sys2Proof.Machine.execAnsLaneTake d grid tileOk tblOk s
  | .ntsSivDone d grid tileOk => Sys2Proof.Machine.execNtsSivDone d grid tileOk s
  | .serviceViewRx d => Sys2Proof.Machine.execServiceViewRx d s
  | .ansView d => Sys2Proof.Machine.execAnsView d s
  | .safeLineChange d driven => Sys2Proof.Machine.execSafeLineChange d driven s
  | .tblFlush r d => Sys2Proof.Machine.execTblFlush r d s
  | .flushDone d => Sys2Proof.Machine.execFlushDone d s
  | .scrub d ses ok => Sys2Proof.Machine.execScrub d ses ok s
  | .tblTileEnd d ses => Sys2Proof.Machine.execTblTileEnd d ses s
  | .secretRetry d => Sys2Proof.Machine.execSecretRetry d s
  | .pfxRead r d idx => Sys2Proof.Machine.execPfxRead r d idx s
  | .pfxWrite r d idx => Sys2Proof.Machine.execPfxWrite r d idx s
  | .mint r => Sys2Proof.Machine.execMint r s
  | .mintDone => Sys2Proof.Machine.execMintDone s
  | .keyGen => Sys2Proof.Machine.execKeyGen s
  | .rotate r => Sys2Proof.Machine.execRotate r s
  | .keyActivate => Sys2Proof.Machine.execKeyActivate s
  | .purge r => Sys2Proof.Machine.execPurge r s
  | .crossingRx d ok => Sys2Proof.Machine.execCrossingRx d ok s
  | .crossingResend t => Sys2Proof.Machine.execCrossingResend t s
  | .keyDist => Sys2Proof.Machine.execKeyDist s
  | .ntsKeys d => Sys2Proof.Machine.execNtsKeys d s
  | .keyUpstream => Sys2Proof.Machine.execKeyUpstream s
  | .drbgFail => Sys2Proof.Machine.execDrbgFail s
  | .drbgRecover => Sys2Proof.Machine.execDrbgRecover s
  | .instRead r d n => Sys2Proof.Machine.execInstRead r d n s
  | .instWrite r d n => Sys2Proof.Machine.execInstWrite r d n s
  | .ptpSyncDue d n ses grid => Sys2Proof.Machine.execPtpSyncDue d n ses grid s
  | .ptpAnnounceDue d n ses => Sys2Proof.Machine.execPtpAnnounceDue d n ses s
  | .foreignTimeout d n => Sys2Proof.Machine.execForeignTimeout d n s
  | .pdelayReqDue d port grid => Sys2Proof.Machine.execPdelayReqDue d port grid s
  | .pdelayLost d port => Sys2Proof.Machine.execPdelayLost d port s
  | .sessionExpire d k => Sys2Proof.Machine.execSessionExpire d k s
  | .sesRead r d idx => Sys2Proof.Machine.execSesRead r d idx s
  | .sesWrite r d idx => Sys2Proof.Machine.execSesWrite r d idx s
  | .rxDelayReqDue d r grid => Sys2Proof.Machine.execRxDelayReqDue d r grid s
  | .rxMasterLoss d r => Sys2Proof.Machine.execRxMasterLoss d r s
  | .rxUniRenew d r k mac => Sys2Proof.Machine.execRxUniRenew d r k mac s
  | .saRead r d idx => Sys2Proof.Machine.execSaRead r d idx s
  | .saWrite r d idx => Sys2Proof.Machine.execSaWrite r d idx s
  | .brEnable r d n v => Sys2Proof.Machine.execBrEnable r d n v s
  | .ptpAuthEnd d => Sys2Proof.Machine.execPtpAuthEnd d s
  | .outputStart ch => Sys2Proof.Machine.execOutputStart ch s
  | .outputEdge ch => Sys2Proof.Machine.execOutputEdge ch s
  | .outputRealign => Sys2Proof.Machine.execOutputRealign s
  | .todMessage k => Sys2Proof.Machine.execTodMessage k s
  | .cuePush r => Sys2Proof.Machine.execCuePush r s
  | .cueCancel r h => Sys2Proof.Machine.execCueCancel r h s
  | .cueFlush r => Sys2Proof.Machine.execCueFlush r s
  | .cueFired => Sys2Proof.Machine.execCueFired s
  | .cueFrameDispatch => Sys2Proof.Machine.execCueFrameDispatch s
  | .cueFrameComplete => Sys2Proof.Machine.execCueFrameComplete s
  | .cueFrameLost => Sys2Proof.Machine.execCueFrameLost s
  | .frmBufWrite r k v => Sys2Proof.Machine.execFrmBufWrite r k v s
  | .capEdge n at' falling => Sys2Proof.Machine.execCapEdge n at' falling s
  | .capRead r => Sys2Proof.Machine.execCapRead r s
  | .toutFault n => Sys2Proof.Machine.execToutFault n s
  | .toutFaultClear n => Sys2Proof.Machine.execToutFaultClear n s
  | .tdcArm r => Sys2Proof.Machine.execTdcArm r s
  | .tdcDisarm r => Sys2Proof.Machine.execTdcDisarm r s
  | .tdcFlush r => Sys2Proof.Machine.execTdcFlush r s
  | .tdcGateEdge high => Sys2Proof.Machine.execTdcGateEdge high s
  | .tdcEdge ch at' falling => Sys2Proof.Machine.execTdcEdge ch at' falling s
  | .tdcTimeout => Sys2Proof.Machine.execTdcTimeout s
  | .tdcRearm => Sys2Proof.Machine.execTdcRearm s
  | .tdcResRead r => Sys2Proof.Machine.execTdcResRead r s
  | .hfCfgWrite r v => Sys2Proof.Machine.execHfCfgWrite r v s
  | .tdcCalOk => Sys2Proof.Machine.execTdcCalOk s
  | .calLost => Sys2Proof.Machine.execCalLost s
  | .ringGo r lane => Sys2Proof.Machine.execRingGo r lane s
  | .ringDoneCmd lane ps => Sys2Proof.Machine.execRingDoneCmd lane ps s
  | .setLenWrite r hi v => Sys2Proof.Machine.execSetLenWrite r hi v s
  | .slotClaim r first count ctx => Sys2Proof.Machine.execSlotClaim r first count ctx s
  | .slotReleaseCmd r first count ctx => Sys2Proof.Machine.execSlotReleaseCmd r first count ctx s
  | .slotRevoke r first count => Sys2Proof.Machine.execSlotRevoke r first count s
  | .slotQuery r first count => Sys2Proof.Machine.execSlotQuery r first count s
  | .slotDone r => Sys2Proof.Machine.execSlotDone r s
  | .jobGo r l ctx => Sys2Proof.Machine.execJobGo r l ctx s
  | .jobCopied r l => Sys2Proof.Machine.execJobCopied r l s
  | .pkeCmdDone l mid => Sys2Proof.Machine.execPkeCmdDone l mid s
  | .jobAbort r l ctx ticket => Sys2Proof.Machine.execJobAbort r l ctx ticket s
  | .selftestDone l pass => Sys2Proof.Machine.execSelftestDone l pass s
  | .hartInstruction h cycles readErr env => Sys2Proof.Machine.execHartInstruction h cycles readErr env s
  | .hartRun r harts => Sys2Proof.Machine.execHartRun r harts s
  | .hartHalt r harts => Sys2Proof.Machine.execHartHalt r harts s
  | .hartRestart r harts => Sys2Proof.Machine.execHartRestart r harts s
  | .hartHalted h => Sys2Proof.Machine.execHartHalted h s
  | .doorbell r h msg => Sys2Proof.Machine.execDoorbell r h msg s
  | .mtimer h => Sys2Proof.Machine.execMtimer h s
  | .kick h => Sys2Proof.Machine.execKick h s
  | .appWdt h => Sys2Proof.Machine.execAppWdt h s
  | .keeperWdt h => Sys2Proof.Machine.execKeeperWdt h s
  | .keeperWdtGrace h => Sys2Proof.Machine.execKeeperWdtGrace h s
  | .pmcCount die evt cycles => Sys2Proof.Machine.execPmcCount die evt cycles s
  | .cntWrite r die n v => Sys2Proof.Machine.execCntWrite r die n v s
  | .clrAll r die => Sys2Proof.Machine.execClrAll r die s
  | .armAt r die => Sys2Proof.Machine.execArmAt r die s
  | .pmcStart die => Sys2Proof.Machine.execPmcStart die s
  | .cntEvenRead r die n => Sys2Proof.Machine.execCntEvenRead r die n s
  | .recStage die page code sev a0 a1 cont => Sys2Proof.Machine.execRecStage die page code sev a0 a1 cont s
  | .recWrite => Sys2Proof.Machine.execRecWrite s
  | .repeated src => Sys2Proof.Machine.execRepeated src s
  | .swRecord r code sev => Sys2Proof.Machine.execSwRecord r code sev s
  | .recClear r sev => Sys2Proof.Machine.execRecClear r sev s
  | .recCleared => Sys2Proof.Machine.execRecCleared s
  | .doubtChange => Sys2Proof.Machine.execDoubtChange s
  | .degradeExit => Sys2Proof.Machine.execDegradeExit s
  | .safDieLost die => Sys2Proof.Machine.execSafDieLost die s
  | .ready => Sys2Proof.Machine.execReady s
  | .release r => Sys2Proof.Machine.execRelease r s
  | .force r => Sys2Proof.Machine.execForce r s
  | .unforce r => Sys2Proof.Machine.execUnforce r s
  | .safPolicyWrite r k v => Sys2Proof.Machine.execSafPolicyWrite r k v s
  | .safAutoWrite r v => Sys2Proof.Machine.execSafAutoWrite r v s
  | .escalate => Sys2Proof.Machine.execEscalate s
  | .ageTile d => Sys2Proof.Machine.execAgeTile d s
  | .ageVolt die isl mv => Sys2Proof.Machine.execAgeVolt die isl mv s
  | .ageTemp die isl temp => Sys2Proof.Machine.execAgeTemp die isl temp s
  | .canary die slacks => Sys2Proof.Machine.execCanary die slacks s
  | .marginReview r => Sys2Proof.Machine.execMarginReview r s
  | .reviewMeasure isls => Sys2Proof.Machine.execReviewMeasure isls s
  | .reviewDone => Sys2Proof.Machine.execReviewDone s
  | .linkTrain k => Sys2Proof.Machine.execLinkTrain k s
  | .helloRx k h => Sys2Proof.Machine.execHelloRx k h s
  | .helloRetry k => Sys2Proof.Machine.execHelloRetry k s
  | .retrain r k => Sys2Proof.Machine.execRetrain r k s
  | .markTx k => Sys2Proof.Machine.execMarkTx k s
  | .markRx k crcOk seq body seen ppt => Sys2Proof.Machine.execMarkRx k crcOk seq body seen ppt s
  | .echoTx k => Sys2Proof.Machine.execEchoTx k s
  | .echoRx k c crcOk body seen => Sys2Proof.Machine.execEchoRx k c crcOk body seen s
  | .markMiss k => Sys2Proof.Machine.execMarkMiss k s
  | .stepRx k crcOk body => Sys2Proof.Machine.execStepRx k crcOk body s
  | .pubGo r k => Sys2Proof.Machine.execPubGo r k s
  | .agreeRx k c crcOk body => Sys2Proof.Machine.execAgreeRx k c crcOk body s
  | .lkGo r k => Sys2Proof.Machine.execLkGo r k s
  | .keyCheckRx k c crcOk body => Sys2Proof.Machine.execKeyCheckRx k c crcOk body s
  | .keyFrameRx k crcOk seq body => Sys2Proof.Machine.execKeyFrameRx k crcOk seq body s
  | .mbTxGo r k len dest => Sys2Proof.Machine.execMbTxGo r k len dest s
  | .mbRx k c crcOk msg => Sys2Proof.Machine.execMbRx k c crcOk msg s
  | .mbPop r k => Sys2Proof.Machine.execMbPop r k s
  | .pcieLinkUp gen width bme msix fmask => Sys2Proof.Machine.execPcieLinkUp gen width bme msix fmask s
  | .pcieLinkDown => Sys2Proof.Machine.execPcieLinkDown s
  | .msixSend v => Sys2Proof.Machine.execMsixSend v s
  | .eoi r v => Sys2Proof.Machine.execEoi r v s
  | .hdb r msg => Sys2Proof.Machine.execHdb r msg s
  | .conDataWrite r b => Sys2Proof.Machine.execConDataWrite r b s
  | .conDataRead r => Sys2Proof.Machine.execConDataRead r s
  | .ringEnable r n v => Sys2Proof.Machine.execRingEnable r n v s
  | .ringDisable r n v => Sys2Proof.Machine.execRingDisable r n v s
  | .ringTailWrite r n tail descs => Sys2Proof.Machine.execRingTailWrite r n tail descs s
  | .ringDescDone n ok => Sys2Proof.Machine.execRingDescDone n ok s
  | .ringReport n => Sys2Proof.Machine.execRingReport n s
  | .bootRomStart => Sys2Proof.Machine.execBootRomStart s
  | .imageCheck image media => Sys2Proof.Machine.execImageCheck image media s
  | .netbootRetry tftp => Sys2Proof.Machine.execNetbootRetry tftp s
  | .loadGo r => Sys2Proof.Machine.execLoadGo r s
  | .commitRb r => Sys2Proof.Machine.execCommitRb r s
  | .revoke r key => Sys2Proof.Machine.execRevoke r key s
  | .bootFail => Sys2Proof.Machine.execBootFail s
  | .coldReset rise bootSel roleSel testEn => Sys2Proof.Machine.execColdReset rise bootSel roleSel testEn s
  | .pinReset bootSel roleSel testEn low => Sys2Proof.Machine.execPinReset bootSel roleSel testEn low s
  | .warmReset r => Sys2Proof.Machine.execWarmReset r s
  | .islandReset src die isl taken => Sys2Proof.Machine.execIslandReset src die isl taken s
  | .resetRelease => Sys2Proof.Machine.execResetRelease s
  | .domReqWrite r v => Sys2Proof.Machine.execDomReqWrite r v s
  | .domainOn dom => Sys2Proof.Machine.execDomainOn dom s
  | .pwrRequest r v perst => Sys2Proof.Machine.execPwrRequest r v perst s
  | .pwrEnter => Sys2Proof.Machine.execPwrEnter s
  | .pwrWake perst con ask => Sys2Proof.Machine.execPwrWake perst con ask s
  | .pwrExit => Sys2Proof.Machine.execPwrExit s
  | .avsWrite => Sys2Proof.Machine.execAvsWrite s
  | .avsStatus good => Sys2Proof.Machine.execAvsStatus good s
  | .tstUnlock r die v => Sys2Proof.Machine.execTstUnlock r die v s
  | .relock r die => Sys2Proof.Machine.execRelock r die s
  | .doubtInjWrite r die v => Sys2Proof.Machine.execDoubtInjWrite r die v s
  | .tileInjArm r d v => Sys2Proof.Machine.execTileInjArm r d v s
  | .rstWarm r die => Sys2Proof.Machine.execRstWarm r die s
  | .rstIsland r page die isl taken => Sys2Proof.Machine.execRstIsland r page die isl taken s
  | .backpressurePeriod d => Sys2Proof.Machine.execBackpressurePeriod d s
  | .tapInstruction code => Sys2Proof.Machine.execTapInstruction code s
  | .askBlockLockLost k => Sys2Proof.Machine.execAskBlockLockLost k s
  | .remoteFault d port on => Sys2Proof.Machine.execRemoteFault d port on s
  | .signalDetect d port eye => Sys2Proof.Machine.execSignalDetect d port eye s
  | .sdsPllLock d q h => Sys2Proof.Machine.execSdsPllLock d q h s
  | .pllLockReturn => Sys2Proof.Machine.execPllLockReturn s
  | .antOpenClear ma => Sys2Proof.Machine.execAntOpenClear ma s
  | .sivCrossEnd d => Sys2Proof.Machine.execSivCrossEnd d s
  | .ageLimitClear die volt => Sys2Proof.Machine.execAgeLimitClear die volt s
  | .conRxByte b => Sys2Proof.Machine.execConRxByte b s
  | .msixMaskClear v => Sys2Proof.Machine.execMsixMaskClear v s
  | .fuseWriteDone => Sys2Proof.Machine.execFuseWriteDone s

end Sys2Proof.Machine
end

