-- ==== Sys2Proof/Machine/Step.lean ====
section
/-! DEFINITION. One step of the block: the command at the front of the queue, or, with none waiting, one cycle of the
master clock. -/

namespace Sys2Proof.Machine

/-- A command is put at the front of the queue. -/
def State.push (c : Instr) (s : State) : State := { s with pending := c :: s.pending }

/-- One step: the front command acts on the state with the queue's rest; an empty queue lets the clock run (log
entry 5). -/
def step (s : State) : Host.Outcome State Fault Refusal :=
  match s.pending with
  | [] => .next (idleCycle s)
  | c :: rest => exec c { s with pending := rest }

/-- The state with the command that a word spells put at the front of its queue, unchanged where the word spells
none. -/
def State.withFetchWord (s : State) (nbits w : Nat) : State :=
  match decodeTableWord nbits w with
  | none => s
  | some c => s.push c

end Sys2Proof.Machine
end

