-- ==== Sys2Proof/Safety.lean ====
section
/-! DEFINITION. What claims speak of: the canonical form of the stored registers and of core memory, and a property of
the state that an outcome leaves. -/

namespace Sys2Proof.Machine

/-- The stored registers are in canonical form: addresses rise strictly, and no register at its cold value is
listed. -/
def Registers.wf (m : List (Nat × Word)) : Bool := amWf m && m.all fun e => e.2 != coldAt e.1

/-- A state holds its registers and core memory in canonical form, so that equal contents are equal states. -/
structure Canon (s : State) : Prop where
  regs : Registers.wf s.regs = true
  core : Memory.wf s.core = true

/-- The collections of MCK have their sizes: output channels, TOUTs, capture inputs and TOD transmitters. -/
structure MckSized (m : Mck) : Prop where
  outs : m.outs.length = 14
  caps : m.caps.length = 8
  cueLvl : m.cueLvl.length = 8
  cueFall : m.cueFall.length = 8
  todSeq : m.todSeq.length = 2
  todAt : m.todAt.length = 2
  todMsg : m.todMsg.length = 2

/-- The collections of which the spec fixes the size hold as many elements: requesters, replicas, staging buffers,
reference slots, the collections of MCK, Port dies and their ports, Askair links and their peers, PKE lanes, rings and harts. -/
structure Shaped (s : State) : Prop where
  snapTbe : s.snapTbe.length = 7
  snapLtr : s.snapLtr.map List.length = List.replicate 4 7
  replicas : s.tb.replicas.length = 6
  bufs : s.recd.bufs.length = 14
  slots : s.dsc.slots.length = 6
  mck : MckSized s.mck
  ports : s.ports.map (fun d => d.ports.length) = List.replicate 4 8
  links : s.links.map (fun l => l.peers.length) = List.replicate 4 4
  lanes : s.pke.lanes.length = 16
  rings : s.rings.length = 16
  harts : s.harts.length = 6

/-- A property of the next state, where there is one. -/
def After (P : State → Prop) : Host.Outcome State Fault Refusal → Prop
  | .next t => P t
  | .fault _ => True
  | .refused _ => True

/-- An outcome is a next state, and `P` holds of it. -/
def Answers (o : Host.Outcome State Fault Refusal) (P : State → Prop) : Prop := ∃ t, o = .next t ∧ P t

/-- A read of a page is served: the page exists and its domain is on (R3, R18, R25). -/
def readable (s : State) (p : Pg) : Bool := p.die != 3 && (pageKind p).isSome && pageOn s p

/-- A requester's write to a page acts: the page exists, its domain is on and not in retention, and R342 denies the
requester nothing. -/
def writable (s : State) (r : Requester) (p : Pg) : Bool :=
  readable s p && !pageRetained s p && !appDenied s r p false

/-- An interrupt bit of a page. -/
def intRaw (s : State) (p : Pg) (bit : Nat) : Bool := bitOf (rdN s p rINT_RAW) bit

/-- Every register outside a list of addresses and outside the Recorder's page reads as before. -/
def OtherRegs (s t : State) (l : List Nat) : Prop :=
  ∀ a, a ∉ l → a % 0x10000000 / 0x1000 ≠ 0x30 → rdA t a = rdA s a

/-- Every byte of core memory outside `n` bytes from `a` reads as before. -/
def OtherBytes (s t : State) (a n : Nat) : Prop := ∀ b, b < a ∨ a + n ≤ b → coreByte t b = coreByte s b

/-- A PIN, WARM or GUARD reset has been taken (R450, R456): its cause shows and it is held until an instant; the device
is in RUN with every domain on, no hart runs, the time-interval unit and the key slots hold nothing, the store of the
recorder stays, and core memory is lost by PIN alone. -/
def ResetTaken (s t : State) (kind arg until' : Nat) : Prop :=
  rdN t pHubDie rDIE_RST_CAUSE = arg ∧ t.pwr.held = [(kind, 0, 0, until')] ∧ t.pwr.on = 0x7FFF ∧ t.pwr.ret = 0 ∧
    pwrState t = 0 ∧ t.harts = List.replicate 6 Hart.cold ∧ t.tdc.fifo = [] ∧ t.tdc.run = none ∧ t.pke.owners = [] ∧
    t.pke.vals = [] ∧ t.recd.store = s.recd.store ∧ t.recd.first.isSome = true ∧
    t.core = (if kind = 1 then [] else s.core)

/-- The parts of a state beside its registers, the recorder, the last reply, the count of free values and the queue. -/
inductive Part where
  | clk | snaps | straps | tb | fab | saf | pwr | dsc | oven | mck | rad | ports | kisl
  | links | core | tdc | pke | rings | harts | age | hif | boot | cntLatch | unlock | tap
  deriving DecidableEq, Repr

/-- A part of two states is the same. -/
def Part.same (x : Part) (s t : State) : Prop :=
  match x with
  | .clk => t.clk = s.clk
  | .snaps => t.snapTbe = s.snapTbe ∧ t.snapLtr = s.snapLtr
  | .straps => t.straps = s.straps
  | .tb => t.tb = s.tb
  | .fab => t.fab = s.fab
  | .saf => t.saf = s.saf
  | .pwr => t.pwr = s.pwr
  | .dsc => t.dsc = s.dsc
  | .oven => t.oven = s.oven
  | .mck => t.mck = s.mck
  | .rad => t.rad = s.rad
  | .ports => t.ports = s.ports
  | .kisl => t.kisl = s.kisl
  | .links => t.links = s.links
  | .core => t.core = s.core
  | .tdc => t.tdc = s.tdc
  | .pke => t.pke = s.pke
  | .rings => t.rings = s.rings
  | .harts => t.harts = s.harts
  | .age => t.age = s.age
  | .hif => t.hif = s.hif
  | .boot => t.boot = s.boot
  | .cntLatch => t.cntLatch = s.cntLatch
  | .unlock => t.unlock = s.unlock
  | .tap => t.tap = s.tap

/-- The parts that a command may change, and what its own effect implies for others; every other part it leaves as it
was. All commands may change registers, write records and reply. -/
def mayChange (c : Instr) : List Part :=
  match c with
  | .regWrite .. =>
    [.tb, .fab, .saf, .pwr, .dsc, .oven, .mck, .rad, .ports, .kisl, .links, .core, .tdc, .pke, .rings, .harts,
     .age, .hif, .boot, .cntLatch, .unlock]
  | .unmappedAccess .. | .poweredOffAccess .. | .softResetDone .. | .pageLock .. | .intForce ..
  | .featCommit .. | .tlaneFault .. | .utcOffsetWrite .. | .ovnUnsettled .. | .ovnRange .. | .oscRestored ..
  | .antOpen .. | .tchDumpRead .. | .tchStale .. | .navRdIdxWrite .. | .mmTransaction .. | .mmDone ..
  | .modIn .. | .modOut .. | .modInt .. | .ansTabRead .. | .pfxRead .. | .drbgFail .. | .instRead ..
  | .sesRead .. | .saRead .. | .brEnable .. | .toutFault .. | .toutFaultClear .. | .tdcCalOk .. | .calLost ..
  | .ringGo .. | .doorbell .. | .pmcCount .. | .cntWrite .. | .clrAll .. | .armAt .. | .recStage ..
  | .recWrite .. | .swRecord .. | .recClear .. | .recCleared .. | .ageTile .. | .ageVolt .. | .ageTemp ..
  | .hdb .. | .remoteFault .. | .signalDetect .. | .pllLockReturn .. | .antOpenClear .. | .ageLimitClear .. => []
  | .pageEnable .. | .pageDisable .. =>
    [.pwr, .dsc, .mck, .rad, .ports, .kisl, .links, .core, .tdc, .pke, .rings, .harts]
  | .softReset .. =>
    [.pwr, .dsc, .oven, .mck, .rad, .ports, .kisl, .links, .core, .tdc, .pke, .rings, .harts, .age, .cntLatch]
  | .featCommitDone .. => [.mck, .ports, .kisl, .links]
  | .doubtMessage .. | .doubtMessageResend .. => [.fab, .saf, .hif]
  | .blvTransfer .. | .islXing .. | .islMonitorJudge .. => [.fab]
  | .laneExchange .. => [.tb, .mck, .ports, .rings]
  | .timeSnapshot .. => [.snaps]
  | .taiSecond .. | .pauseEnd .. | .starve .. | .holdEnqueue .. | .foreignTimeout .. | .pdelayLost ..
  | .sessionExpire .. => [.clk, .ports]
  | .leapSchedWrite .. => [.tb]
  | .leapApplied .. | .tbeStepEnd .. | .gfWarmupEnd .. | .agcRail .. | .antOk .. | .viewStale .. | .tsuCal ..
  | .launchDevEnd .. | .ansView .. | .tblTileEnd .. | .keyDist .. | .ntsKeys .. | .keyUpstream ..
  | .ptpAuthEnd .. | .mtimer .. | .pmcStart .. | .repeated .. | .sivCrossEnd .. => [.clk]
  | .smearStart .. | .smearEnd .. => [.clk, .tb]
  | .stepRequest .. | .stepRx .. => [.tb, .links]
  | .timescaleStep .. => [.clk, .tb, .dsc, .mck]
  | .servoUpdate .. => [.clk, .tb, .dsc, .mck, .links]
  | .ptpSampleRx .. | .extFreqCount .. | .slotRelease .. | .biasClr .. | .modelRefit .. => [.dsc]
  | .extPpsEdge .. | .slotLost .. | .historyStore .. | .suspectCleared .. => [.clk, .dsc]
  | .ovnSettled .. | .ovnFault .. | .oscLost .. | .measValid .. | .ovnRetry .. | .backupEnter .. => [.oven]
  | .srcSwitch .. => [.dsc, .oven]
  | .tuneStep .. => [.clk, .dsc, .oven]
  | .pllUnlock .. | .snpArm .. | .snpCancel .. | .snpHold .. | .snpRelease .. => [.pwr, .dsc, .rad]
  | .agcUpdate .. | .antShort .. | .acqPush .. | .acqFlush .. | .acqJobStart .. | .acqResRead ..
  | .schBitSync .. | .schLost .. | .schSlip .. | .chRelease .. | .trkPromoteGo .. | .tchCommit ..
  | .shapeCheck .. | .inavPage .. | .posSigWrite .. | .intViewRx .. | .exclSet .. | .exclClr .. => [.rad]
  | .antRetry .. | .acqCaptureDone .. | .acqPassDone .. | .schPullinEnd .. | .trkMove .. | .tchBoundary ..
  | .tchDump .. | .trkEpoch .. | .exclExpire .. | .snpAutoArm .. | .snpCaptureStart .. => [.clk, .rad]
  | .navSubframe .. | .solSubmit .. | .intSecondCheck .. | .forceSuspect .. | .intClear .. => [.dsc, .rad]
  | .snpWindowOpen .. | .snpCaptureEnd .. => [.clk, .pwr, .dsc, .rad]
  | .linkUp .. | .tsuCalRun .. | .lchLate .. | .ansTabWrite .. | .ansTabDone .. | .serviceViewRx ..
  | .safeLineChange .. | .tblFlush .. | .flushDone .. | .scrub .. | .secretRetry .. | .pfxWrite ..
  | .sesWrite .. | .saWrite .. | .backpressurePeriod .. | .sdsPllLock .. => [.ports]
  | .linkDown .. | .sdsPllUnlock .. | .booking .. | .swFrameSubmit .. | .ntsSivDone .. | .pdelayReqDue ..
  | .rxDelayReqDue .. => [.mck, .ports, .rings]
  | .frameRx .. => [.dsc, .ports, .rings]
  | .tsuCalDone .. => [.ports, .age]
  | .untimedSubmit .. | .instWrite .. => [.ports, .rings]
  | .untimedLaunch .. | .tsuDeparture .. | .ptpAnnounceDue .. | .rxUniRenew .. => [.clk, .ports, .rings]
  | .lchRelease .. | .late .. | .ansLaneTake .. | .ptpSyncDue .. | .cueFrameDispatch .. =>
    [.clk, .mck, .ports, .rings]
  | .mint .. | .mintDone .. => [.kisl, .core, .harts]
  | .keyGen .. => [.clk, .ports, .kisl, .links]
  | .rotate .. | .purge .. | .drbgRecover .. | .keyFrameRx .. => [.ports, .kisl, .links]
  | .keyActivate .. => [.clk, .ports, .kisl]
  | .crossingRx .. => [.ports, .kisl]
  | .crossingResend .. | .linkTrain .. | .retrain .. | .markMiss .. | .askBlockLockLost .. => [.kisl, .links]
  | .rxMasterLoss .. => [.clk, .dsc, .ports]
  | .outputStart .. | .outputEdge .. | .outputRealign .. | .todMessage .. | .cueFired .. | .cueFrameLost ..
  | .capEdge .. => [.clk, .mck]
  | .cuePush .. | .cueCancel .. | .cueFlush .. | .cueFrameComplete .. | .frmBufWrite .. | .capRead .. => [.mck]
  | .tdcArm .. | .tdcDisarm .. | .tdcFlush .. | .tdcGateEdge .. | .tdcResRead .. | .hfCfgWrite .. => [.tdc]
  | .tdcEdge .. | .tdcTimeout .. | .tdcRearm .. => [.clk, .tdc]
  | .ringDoneCmd .. => [.ports, .links, .age]
  | .setLenWrite .. | .slotDone .. | .jobGo .. | .jobCopied .. | .selftestDone .. => [.pke]
  | .slotClaim .. | .slotReleaseCmd .. | .slotRevoke .. | .slotQuery .. | .pkeCmdDone .. | .jobAbort .. =>
    [.core, .pke, .harts]
  | .hartInstruction .. =>
    [.snaps, .tb, .fab, .saf, .pwr, .dsc, .oven, .mck, .rad, .ports, .kisl, .links, .core, .tdc, .pke, .rings,
     .harts, .age, .hif, .boot, .cntLatch, .unlock]
  | .hartRun .. | .hartHalt .. | .hartRestart .. | .kick .. => [.harts]
  | .hartHalted .. | .domReqWrite .. => [.pwr, .dsc, .mck, .rad, .ports, .kisl, .links, .pke, .rings, .harts, .age]
  | .appWdt .. | .keeperWdt .. => [.clk, .harts]
  | .keeperWdtGrace .. | .escalate .. =>
    [.clk, .fab, .saf, .pwr, .dsc, .mck, .rad, .ports, .kisl, .links, .core, .tdc, .pke, .rings, .harts, .age,
     .hif, .boot, .cntLatch, .unlock]
  | .cntEvenRead .. => [.cntLatch]
  | .doubtChange .. | .release .. | .force .. | .unforce .. | .safPolicyWrite .. | .safAutoWrite .. => [.saf, .mck]
  | .degradeExit .. => [.clk, .saf]
  | .safDieLost .. | .ready .. => [.clk, .saf, .mck]
  | .canary .. => [.pwr, .age]
  | .marginReview .. => [.clk, .age]
  | .reviewMeasure .. => [.clk, .pwr, .ports, .age]
  | .reviewDone .. => [.dsc, .age]
  | .helloRx .. | .echoRx .. | .pubGo .. | .agreeRx .. | .keyCheckRx .. | .mbTxGo .. | .mbRx .. | .mbPop .. =>
    [.links]
  | .helloRetry .. | .markTx .. | .echoTx .. => [.clk, .links]
  | .markRx .. => [.tb, .dsc, .kisl, .links]
  | .lkGo .. => [.links, .core, .harts]
  | .pcieLinkUp .. | .msixSend .. | .eoi .. | .conDataWrite .. | .conDataRead .. | .conRxByte ..
  | .msixMaskClear .. => [.hif]
  | .pcieLinkDown .. | .ringEnable .. | .ringDisable .. | .ringTailWrite .. => [.rings]
  | .ringDescDone .. => [.core, .rings, .harts, .hif]
  | .ringReport .. => [.clk, .rings]
  | .bootRomStart .. => [.harts, .boot]
  | .imageCheck .. => [.core, .harts, .boot]
  | .netbootRetry .. => [.clk, .boot]
  | .loadGo .. | .commitRb .. | .revoke .. | .bootFail .. | .fuseWriteDone .. => [.boot]
  | .coldReset .. =>
    [.clk, .snaps, .straps, .tb, .fab, .saf, .pwr, .dsc, .oven, .mck, .rad, .ports, .kisl, .links, .core,
     .tdc, .pke, .rings, .harts, .age, .hif, .boot, .cntLatch, .unlock, .tap]
  | .pinReset .. =>
    [.straps, .fab, .saf, .pwr, .dsc, .mck, .rad, .ports, .kisl, .links, .core, .tdc, .pke, .rings, .harts,
     .age, .hif, .boot, .cntLatch, .unlock]
  | .warmReset .. | .rstWarm .. =>
    [.fab, .saf, .pwr, .dsc, .mck, .rad, .ports, .kisl, .links, .core, .tdc, .pke, .rings, .harts, .age, .hif,
     .boot, .cntLatch, .unlock]
  | .islandReset .. | .rstIsland .. =>
    [.saf, .pwr, .dsc, .oven, .mck, .rad, .ports, .kisl, .links, .core, .tdc, .pke, .rings, .harts, .age,
     .hif, .cntLatch]
  | .resetRelease .. => [.clk, .saf, .pwr, .harts]
  | .domainOn .. => [.pwr, .ports, .kisl, .links, .pke]
  | .pwrRequest .. => [.pwr, .harts]
  | .pwrEnter .. =>
    [.tb, .saf, .pwr, .dsc, .mck, .rad, .ports, .kisl, .links, .core, .pke, .rings, .harts, .age, .unlock]
  | .pwrWake .. => [.clk, .tb, .pwr]
  | .pwrExit .. => [.saf, .pwr, .ports, .kisl, .links, .pke, .rings, .harts, .hif, .boot]
  | .avsWrite .. | .avsStatus .. => [.clk, .pwr]
  | .tstUnlock .. => [.mck, .ports, .kisl, .links, .rings, .unlock]
  | .relock .. | .doubtInjWrite .. | .tileInjArm .. => [.mck, .ports, .kisl, .links, .rings]
  | .tapInstruction .. => [.tap]

/-- The register that an integer operation of a hart writes, and its value; none for other instructions. -/
def rvResult (x : Hart) : Rv → Option (Nat × BitVec 64)
  | .alui op w rd rs1 imm => some (rd, op.run w (getX x rs1) imm)
  | .alu op w rd rs1 rs2 => some (rd, op.run w (getX x rs1) (getX x rs2))
  | .lui rd imm => some (rd, imm)
  | .auipc rd imm => some (rd, x.pc + imm)
  | .fence => some (0, 0)
  | _ => none

end Sys2Proof.Machine
end

