-- ==== Sys2Proof/Certificates/Slice0/Obligations.lean ====
section
/-! DEFINITION. The statements for the provers. Each docstring names the rules of spec/ that its statement rests on; a
clause that rests on a choice of the model names the log entry. -/

section Slice0

open Sys2Proof Sys2Proof.Machine

/-- A step of a state whose queue has a command at its front is that command's effect on the state with the queue's
rest. -/
def Obligations.StepRunsFrontCommand : Prop :=
  ∀ (c : Instr) (q : List Instr) (s : State), step { s with pending := c :: q } = exec c { s with pending := q }

/-- The model's choice (log entry 5): on an empty queue, while no COLD reset is held, a step adds TBE.RATE, in units of
2⁻⁴⁸ ns, to the master counter of 112 bits (P with its fraction, R46), and changes nothing but the clock; while a COLD reset
is held, nothing changes. Whatever the command and the state, a command that answers a next state leaves the queue of
waiting commands as it was. -/
def Obligations.EmptyQueueRunsClock : Prop :=
  (∀ s : State, s.pending = [] → (∀ h ∈ s.pwr.held, h.1 ≠ 0) → Answers (step s) fun t =>
    t.clk.p.toNat * 2 ^ 32 + t.clk.sub.toNat =
      (s.clk.p.toNat * 2 ^ 32 + s.clk.sub.toNat + rd64 s pTBE rTBE_RATE_LO rTBE_RATE_HI) % 2 ^ 112 ∧
    t = { s with clk := t.clk } ∧ t.clk.tOfs = s.clk.tOfs) ∧
  (∀ s : State, s.pending = [] → (∃ h ∈ s.pwr.held, h.1 = 0) → step s = .next s) ∧
  (∀ (c : Instr) (s t : State), exec c s = .next t → t.pending = s.pending)

/-- From every state whose registers and core memory stand in canonical form (addresses rise strictly, and nothing is
listed at the value it reads as when unlisted) and whose collections have the sizes the spec gives them, every step that
answers a next state leaves one of the same kind: equal contents stay equal states. -/
def Obligations.StepKeepsInvariant : Prop :=
  ∀ s t : State, Canon s → Shaped s → step s = .next t → Canon t ∧ Shaped t

/-- The state right after a COLD reset is in canonical form, its collections have their sizes and its queue is empty. -/
def Obligations.ResetMeetsInvariant : Prop :=
  Canon State.reset ∧ Shaped State.reset ∧ State.reset.pending = []

/-- The frame of every row: a command that answers a next state leaves unchanged every part of the state beside the
registers, the recorder, the reply and the count of free values (the clock, the snapshots, core memory, the harts, the key
island, the ports of the Port dies and their tables, the Askair links, the outputs, the radio, the key accelerator, the rings,
the host interface and the others) that mayChange does not name for it. Which parts a row reaches is read from the rules
of its family. -/
def Obligations.CommandFrames : Prop :=
  ∀ (c : Instr) (s t : State), exec c s = .next t → ∀ x, x ∉ mayChange c → x.same s t

/-- After the release of a COLD reset P and T96 are 0; TIME_SET and UTC are not valid and doubts TIME_UNSET and UTC_UNSET
stand; the servo is in FREERUN; SAFE stands with its entry counted; the state is RUN with every domain on; hart 0 alone
runs, in machine mode; the store of the recorder is empty; TDC, PKE slots and keystore hold nothing; no reset is held. -/
def Obligations.ResetValues : Prop :=
  let s := State.reset
  s.clk.p = 0 ∧ t96 s = 0 ∧ timeSet s = false ∧ doubts s pTBE 0 = true ∧ utcValid s = false ∧ doubts s pTBE 2 = true ∧
  get s pDSC fDSC_STAT_STATE = 0 ∧ flag s pSAF fSAF_STAT_SAFE = true ∧ rdN s pSAF rSAF_ENTRY_CNT = 1 ∧
  get s pHubDie fDIE_PWR_STAT_STATE = 0 ∧ s.pwr.on = 0x7FFF ∧ s.pwr.held = [] ∧
  (s.harts.map fun h => h.run) = [true, false, false, false, false, false] ∧
  (s.harts.all fun h => h.machine) = true ∧ s.recd.store = [] ∧ s.tdc.fifo = [] ∧ s.pke.owners = [] ∧
  s.kisl.keys = [] ∧ flag s pHubDie fDIE_FEAT_CTRL_COMMITTED = false

/-- R18, for the row POWERED_OFF_ACCESS and for a 32-bit REG_WRITE: an access to a page whose power domain is off returns
0 or is discarded, increments BLV.OFF_CNT of the die that owns the page (saturating) and changes no other register
outside the Recorder's page; in the window of the Resonator (die 3) an access reads 0 or is discarded, and counts
nothing. -/
def Obligations.PoweredOffAccess : Prop :=
  (∀ (r : Requester) (die : Fin 8) (page : Fin 0x2000) (wr : Bool) (s : State),
    (pageKind ⟨die, page⟩).isSome = true → pageOn s ⟨die, page⟩ = false →
    Answers (exec (.poweredOffAccess r die page wr) s) fun t =>
      rdN t (pBLV die) rBLV_OFF_CNT = min (rdN s (pBLV die) rBLV_OFF_CNT + 1) 0xFFFFFFFF ∧
      OtherRegs s t [(pBLV die).adr rBLV_OFF_CNT] ∧ (wr = false → t.lastRead = 0)) ∧
  (∀ (r : Requester) (die : Fin 8) (page : Fin 0x2000) (off : Fin 0x400) (v : BitVec 64) (env : WriteFacts) (s : State),
    (pageKind ⟨die, page⟩).isSome = true → pageOn s ⟨die, page⟩ = false →
    Answers (exec (.regWrite r (Pg.adr ⟨die, page⟩ (4 * off)) .b32 v env) s) fun t =>
      rdN t (pBLV die) rBLV_OFF_CNT = min (rdN s (pBLV die) rBLV_OFF_CNT + 1) 0xFFFFFFFF ∧
      OtherRegs s t [(pBLV die).adr rBLV_OFF_CNT]) ∧
  (∀ (r : Requester) (page : Fin 0x2000) (wr : Bool) (s : State),
    Answers (exec (.unmappedAccess r 3 page wr) s) fun t => t.regs = s.regs ∧ (wr = false → t.lastRead = 0)) ∧
  (∀ (r : Requester) (page : Fin 0x2000) (off : Fin 0x400) (v : BitVec 64) (env : WriteFacts) (s : State),
    Answers (exec (.regWrite r (Pg.adr ⟨3, page⟩ (4 * off)) .b32 v env) s) fun t => t.regs = s.regs)

/-- R25, for the row UNMAPPED_ACCESS: an access to a page number that Table 02-1 does not list reads 0 or is discarded
and increments DIE.UNMAP_CNT of its die. R443, for POWERED_OFF_ACCESS: a write to a page in retention is discarded and
increments BLV.OFF_CNT. R342: a 32-bit REG_WRITE of an application hart to a page that is present, powered and out of
retention, and that is the SAF, BOOT or TST page or lies on a die whose bit is 0 in the hart's field of CPU.APP_WR, is
discarded: CPU.DENY_CNT increments, INT_RAW[2] of the CPU page is set, and CPU.LAST_DENY names the hart. In each case no
other register outside the Recorder's page changes. -/
def Obligations.AccessesTurnedAway : Prop :=
  (∀ (r : Requester) (die : Fin 8) (page : Fin 0x2000) (wr : Bool) (s : State),
    pageKind ⟨die, page⟩ = none → die.val ≠ 3 →
    Answers (exec (.unmappedAccess r die page wr) s) fun t =>
      rdN t (pDIE die) rDIE_UNMAP_CNT = min (rdN s (pDIE die) rDIE_UNMAP_CNT + 1) 0xFFFFFFFF ∧
      OtherRegs s t [(pDIE die).adr rDIE_UNMAP_CNT] ∧ (wr = false → t.lastRead = 0)) ∧
  (∀ (r : Requester) (die : Fin 8) (page : Fin 0x2000) (s : State),
    (pageKind ⟨die, page⟩).isSome = true → pageOn s ⟨die, page⟩ = true → pageRetained s ⟨die, page⟩ = true →
    Answers (exec (.poweredOffAccess r die page true) s) fun t =>
      rdN t (pBLV die) rBLV_OFF_CNT = min (rdN s (pBLV die) rBLV_OFF_CNT + 1) 0xFFFFFFFF ∧
      OtherRegs s t [(pBLV die).adr rBLV_OFF_CNT]) ∧
  (∀ (h : Fin 6) (die : Fin 8) (page : Fin 0x2000) (off : Fin 0x400) (v : BitVec 64) (env : WriteFacts) (s : State),
    2 ≤ h.val → readable s ⟨die, page⟩ = true → pageRetained s ⟨die, page⟩ = false → (⟨die, page⟩ : Pg) ≠ pCPU →
    ((pageKind ⟨die, page⟩ = some .saf ∨ pageKind ⟨die, page⟩ = some .boot ∨ pageKind ⟨die, page⟩ = some .tst ∨ bitOf (get s pCPU (fCPU_APP_WR_DIE (h.val - 2))) die = false)) →
    Answers (exec (.regWrite (.hart h) (Pg.adr ⟨die, page⟩ (4 * off)) .b32 v env) s) fun t =>
      rdN t pCPU rCPU_DENY_CNT = min (rdN s pCPU rCPU_DENY_CNT + 1) 0xFFFFFFFF ∧ intRaw t pCPU 2 = true ∧
      get t pCPU fCPU_LAST_DENY_HART = h.val ∧
      OtherRegs s t [pCPU.adr rCPU_DENY_CNT, pCPU.adr rINT_RAW, pCPU.adr rCPU_LAST_DENY])

/-- Row REG_WRITE (R27, R28, R41). A 32-bit write at an aligned address completes; a 64-bit one is two 32-bit writes,
lower address first; 8- and 16-bit writes are discarded and increment DIE.BAD_ACC_CNT. A write of INT_EN stores its
value; a write of INT_RAW clears the bits written 1; a write of DOUBT_EN on a locked page is discarded, increments
DIE.LOCK_VIOL_CNT and sets INT_RAW[31]. The row's two stops: an address outside BAR0 faults, and a misaligned 32- or
64-bit write, of which R27 gives no effect, is refused. -/
def Obligations.RegisterWrite : Prop :=
  (∀ (r : Requester) (adr : Nat) (size : AccSize) (v : BitVec 64) (env : WriteFacts) (s : State),
    0x10000000 ≤ adr →
    exec (.regWrite r adr size v env) s = .fault (.outsideBar0 adr)) ∧
  (∀ (r : Requester) (adr : Nat) (v : BitVec 64) (env : WriteFacts) (s : State),
    adr < 0x10000000 → adr % 4 ≠ 0 →
    exec (.regWrite r adr .b32 v env) s = .refused (.misaligned adr)) ∧
  (∀ (r : Requester) (adr : Nat) (v : BitVec 64) (env : WriteFacts) (s : State),
    adr < 0x10000000 → adr % 8 ≠ 0 →
    exec (.regWrite r adr .b64 v env) s = .refused (.misaligned adr)) ∧
  (∀ (r : Requester) (adr : Nat) (v : BitVec 64) (env : WriteFacts) (s : State),
    adr < 0x10000000 → adr % 4 = 0 →
    exec (.regWrite r adr .b32 v env) s = .next (storeWord (quiet s) r adr (v.toNat % 2 ^ 32) env)) ∧
  (∀ (r : Requester) (adr : Nat) (v : BitVec 64) (env : WriteFacts) (s : State),
    adr < 0x10000000 → adr % 8 = 0 →
    exec (.regWrite r adr .b64 v env) s =
      .next (storeWord (storeWord (quiet s) r adr (v.toNat % 2 ^ 32) env) r (adr + 4) (v.toNat / 2 ^ 32) env)) ∧
  (∀ (r : Requester) (die : Fin 8) (page : Fin 0x2000) (off : Fin 0x1000) (size : AccSize) (v : BitVec 64) (env : WriteFacts) (s : State),
    (size = .b8 ∨ size = .b16) → writable s r ⟨die, page⟩ = true →
    Answers (exec (.regWrite r (Pg.adr ⟨die, page⟩ off) size v env) s) fun t =>
      rdN t (pDIE die) rDIE_BAD_ACC_CNT = min (rdN s (pDIE die) rDIE_BAD_ACC_CNT + 1) 0xFFFFFFFF ∧
      OtherRegs s t [(pDIE die).adr rDIE_BAD_ACC_CNT]) ∧
  (∀ (r : Requester) (die : Fin 8) (page : Fin 0x2000) (v : BitVec 64) (env : WriteFacts) (s : State),
    writable s r ⟨die, page⟩ = true →
    Answers (exec (.regWrite r (Pg.adr ⟨die, page⟩ rINT_EN) .b32 v env) s) fun t =>
      rdN t ⟨die, page⟩ rINT_EN = v.toNat % 2 ^ 32 ∧ OtherRegs s t [Pg.adr ⟨die, page⟩ rINT_EN]) ∧
  (∀ (r : Requester) (die : Fin 8) (page : Fin 0x2000) (v : BitVec 64) (env : WriteFacts) (s : State),
    writable s r ⟨die, page⟩ = true →
    Answers (exec (.regWrite r (Pg.adr ⟨die, page⟩ rINT_RAW) .b32 v env) s) fun t =>
      (∀ b : Fin 32, intRaw t ⟨die, page⟩ b = (intRaw s ⟨die, page⟩ b && !v.getLsbD b)) ∧
      OtherRegs s t [Pg.adr ⟨die, page⟩ rINT_RAW]) ∧
  (∀ (r : Requester) (die : Fin 8) (page : Fin 0x2000) (v : BitVec 64) (env : WriteFacts) (s : State),
    writable s r ⟨die, page⟩ = true → pageLocked s ⟨die, page⟩ = true →
    Answers (exec (.regWrite r (Pg.adr ⟨die, page⟩ rDOUBT_EN) .b32 v env) s) fun t =>
      rdN t ⟨die, page⟩ rDOUBT_EN = rdN s ⟨die, page⟩ rDOUBT_EN ∧ intRaw t ⟨die, page⟩ 31 = true ∧
      rdN t (pDIE die) rDIE_LOCK_VIOL_CNT = min (rdN s (pDIE die) rDIE_LOCK_VIOL_CNT + 1) 0xFFFFFFFF)

/-- Rows PAGE_ENABLE, PAGE_DISABLE, SOFT_RESET, SOFT_RESET_DONE, PAGE_LOCK and INT_FORCE, on a page the requester may
write. EN rises once features are committed or on a boot-enabled page, and a write of 1 is otherwise discarded (R38); EN
falls; SRST shows a soft reset until it is done; LOCK is set and stays with EN as it was (R41, R42); INT_FORCE sets the
bits written 1 and leaves the others (R34), where a record that is lost may also set INT_RAW[4] of the Recorder. -/
def Obligations.PageHeaderCommands : Prop :=
  (∀ (r : Requester) (die : Fin 8) (page : Fin 0x2000) (k : PageKind) (s : State),
    writable s r ⟨die, page⟩ = true → pageKind ⟨die, page⟩ = some k →
    (flag s pHubDie fDIE_FEAT_CTRL_COMMITTED = true ∨ bootEnabled k = true) →
    Answers (exec (.pageEnable r die page) s) fun t => flag t ⟨die, page⟩ fPAGE_CTRL_EN = true) ∧
  (∀ (r : Requester) (die : Fin 8) (page : Fin 0x2000) (k : PageKind) (s : State),
    writable s r ⟨die, page⟩ = true → pageKind ⟨die, page⟩ = some k →
    flag s pHubDie fDIE_FEAT_CTRL_COMMITTED = false → bootEnabled k = false →
    exec (.pageEnable r die page) s = .next s) ∧
  (∀ (r : Requester) (die : Fin 8) (page : Fin 0x2000) (s : State),
    writable s r ⟨die, page⟩ = true →
    Answers (exec (.pageDisable r die page) s) fun t => flag t ⟨die, page⟩ fPAGE_CTRL_EN = false) ∧
  (∀ (r : Requester) (die : Fin 8) (page : Fin 0x2000) (s : State),
    writable s r ⟨die, page⟩ = true → flag s ⟨die, page⟩ fPAGE_CTRL_SRST = false →
    Answers (exec (.softReset r die page) s) fun t => flag t ⟨die, page⟩ fPAGE_CTRL_SRST = true) ∧
  (∀ (die : Fin 8) (page : Fin 0x2000) (s : State),
    flag s ⟨die, page⟩ fPAGE_CTRL_SRST = true →
    Answers (exec (.softResetDone die page) s) fun t =>
      flag t ⟨die, page⟩ fPAGE_CTRL_SRST = false ∧ OtherRegs s t [Pg.adr ⟨die, page⟩ rPAGE_CTRL]) ∧
  (∀ (r : Requester) (die : Fin 8) (page : Fin 0x2000) (s : State),
    writable s r ⟨die, page⟩ = true →
    Answers (exec (.pageLock r die page) s) fun t => flag t ⟨die, page⟩ fPAGE_CTRL_LOCK = true ∧
      flag t ⟨die, page⟩ fPAGE_CTRL_EN = flag s ⟨die, page⟩ fPAGE_CTRL_EN ∧
      OtherRegs s t [Pg.adr ⟨die, page⟩ rPAGE_CTRL]) ∧
  (∀ (r : Requester) (die : Fin 8) (page : Fin 0x2000) (v : Word) (s : State),
    writable s r ⟨die, page⟩ = true →
    Answers (exec (.intForce r die page v) s) fun t =>
      (∀ b : Fin 32, v.getLsbD b = true → intRaw t ⟨die, page⟩ b = true) ∧
      (∀ b : Fin 32, b ≠ 4 ∨ (⟨die, page⟩ : Pg) ≠ pREC → v.getLsbD b = false →
        intRaw t ⟨die, page⟩ b = intRaw s ⟨die, page⟩ b) ∧
      OtherRegs s t [Pg.adr ⟨die, page⟩ rINT_RAW])

/-- Rows FEAT_COMMIT, FEAT_COMMIT_DONE, DOUBT_MESSAGE, DOUBT_MESSAGE_RESEND, BLV_TRANSFER, ISL_XING and
ISL_MONITOR_JUDGE. A commit begins once, and ends with COMMITTED; a die's message reaches DEV_INT and DEV_DOUBT of the
Hub; a transfer whose link CRC fails up to three times is delivered with its retries counted, and at a fourth failure it
is discarded, counted and raises BLV_FAULT; a stalled crossing raises ISL_XING; a difference of neighbours beyond
DV_LIMIT raises ISL_VOLT. The clause that a transfer with one source waiting is that source's is R15's. -/
def Obligations.FabricCommands : Prop :=
  (∀ (r : Requester) (s : State),
    writable s r pHubDie = true → flag s pHubDie fDIE_FEAT_CTRL_COMMITTED = false →
    Answers (exec (.featCommit r) s) fun t => flag t pHubDie fDIE_FEAT_CTRL_COMMIT = true ∧
      OtherRegs s t [pHubDie.adr rDIE_FEAT_CTRL]) ∧
  (∀ (r : Requester) (s : State),
    writable s r pHubDie = true → flag s pHubDie fDIE_FEAT_CTRL_COMMITTED = true →
    exec (.featCommit r) s = .next s) ∧
  (∀ (s : State),
    flag s pHubDie fDIE_FEAT_CTRL_COMMIT = true →
    Answers (exec .featCommitDone s) fun t =>
      flag t pHubDie fDIE_FEAT_CTRL_COMMITTED = true ∧ flag t pHubDie fDIE_FEAT_CTRL_COMMIT = false) ∧
  (∀ (die : Fin 8) (s : State),
    dieHasRegs die = true → doubtMsg s die ≠ lastDoubtMsg s die →
    Answers (exec (.doubtMessage die) s) fun t =>
      bitOf (rdN t pHubDie rDIE_DEV_INT) die = (intSum s die != 0) ∧
      bitOf (rdN t pHubDie rDIE_DEV_DOUBT) die = (doubtSum s die != 0)) ∧
  (∀ (die : Fin 8) (s : State),
    dieHasRegs die = true →
    Answers (exec (.doubtMessageResend die) s) fun t =>
      bitOf (rdN t pHubDie rDIE_DEV_INT) die = (intSum s die != 0) ∧
      bitOf (rdN t pHubDie rDIE_DEV_DOUBT) die = (doubtSum s die != 0)) ∧
  (∀ (dst src : Fin 8) (c : BlvClass) (fails lat : Nat) (s : State),
    fails < 4 → src.val ≠ 3 →
    Answers (exec (.blvTransfer dst [(src, c)] false fails lat) s) fun t =>
      rdN t (pBLV src) rBLV_RETRY_CNT = min (rdN s (pBLV src) rBLV_RETRY_CNT + fails) 0xFFFFFFFF ∧
      rdN t (pBLV src) rBLV_FAIL_CNT = rdN s (pBLV src) rBLV_FAIL_CNT ∧
      rdN t (pBLV src) rBLV_LAT = min lat 0xFFFF ∧ doubts t (pBLV src) 0 = false) ∧
  (∀ (dst src : Fin 8) (c : BlvClass) (lat : Nat) (s : State),
    src.val ≠ 3 →
    Answers (exec (.blvTransfer dst [(src, c)] false 4 lat) s) fun t =>
      rdN t (pBLV src) rBLV_RETRY_CNT = min (rdN s (pBLV src) rBLV_RETRY_CNT + 3) 0xFFFFFFFF ∧
      rdN t (pBLV src) rBLV_FAIL_CNT = min (rdN s (pBLV src) rBLV_FAIL_CNT + 1) 0xFFFFFFFF ∧
      doubts t (pBLV src) 0 = true) ∧
  (∀ (die isl : Fin 8) (s : State),
    dieHasRegs die = true → isl.val < islCount die →
    Answers (exec (.islXing die isl) s) fun t => doubts t (pISL die) 2 = true ∧
      rdN t (pBLV die) rBLV_STALL_CNT = min (rdN s (pBLV die) rBLV_STALL_CNT + 1) 0xFFFFFFFF ∧
      OtherRegs s t [(pBLV die).adr rBLV_STALL_CNT, (pISL die).adr rDOUBT_RAW]) ∧
  (∀ (die : Fin 8) (mv : List Nat) (temp : List Int) (nb : List (Fin 8 × Fin 8)) (xlat spread : Nat) (s : State),
    dieHasRegs die = true →
    Answers (exec (.islMonitorJudge die mv temp nb xlat spread) s) fun t =>
      doubts t (pISL die) 0 = voltApart s die mv nb ∧
      (die.val = 1 → doubts t (pISL die) 1 = decide (get s (pISL die) fISL_DT_LIMIT_C < spread)))

/-- Rows UTC_OFFSET_WRITE, LEAP_SCHED_WRITE, LEAP_APPLIED, SMEAR_START and SMEAR_END: a write of UTC_OFFSET stores its
fields, moves UTC_UNSET with VALID, and is discarded and counted while a link owns the offset; a write of LEAP_SCHED_HI
stores its fields and refuses a schedule that is not ahead or not the end of a UTC day; at the leap the offset changes by
one second and VALID falls; the smear's start and end set STAT.SMEARING and INT_RAW[5] and [6]. -/
def Obligations.UtcAndLeap : Prop :=
  (∀ (r : Requester) (v : Word) (s : State),
    writable s r pTBE = true → utcSrcLink s = false →
    Answers (exec (.utcOffsetWrite r v) s) fun t =>
      get t pTBE fTBE_UTC_OFFSET_SEC = fTBE_UTC_OFFSET_SEC.of v.toNat ∧
      flag t pTBE fTBE_UTC_OFFSET_VALID = (fTBE_UTC_OFFSET_VALID.of v.toNat == 1) ∧
      doubts t pTBE 2 = !flag t pTBE fTBE_UTC_OFFSET_VALID ∧ t.clk = s.clk) ∧
  (∀ (r : Requester) (v : Word) (s : State),
    writable s r pTBE = true → utcSrcLink s = true →
    Answers (exec (.utcOffsetWrite r v) s) fun t =>
      rdN t (pDIE 1) rDIE_LOCK_VIOL_CNT = min (rdN s (pDIE 1) rDIE_LOCK_VIOL_CNT + 1) 0xFFFFFFFF ∧
      OtherRegs s t [(pDIE 1).adr rDIE_LOCK_VIOL_CNT]) ∧
  (∀ (r : Requester) (v : Word) (s : State),
    writable s r pTBE = true → utcSrcLink s = false →
    let hi := fTBE_LEAP_SCHED_HI_TAI_SEC.of v.toNat
    let del := fTBE_LEAP_SCHED_HI_DIR.of v.toNat == 1
    let bad := leapRefused s (rdN s pTBE rTBE_LEAP_SCHED + hi * 0x100000000) del
    Answers (exec (.leapSchedWrite r v) s) fun t =>
      get t pTBE fTBE_LEAP_SCHED_HI_TAI_SEC = hi ∧ flag t pTBE fTBE_LEAP_SCHED_HI_DIR = del ∧
      flag t pTBE fTBE_LEAP_SCHED_HI_VALID = (fTBE_LEAP_SCHED_HI_VALID.of v.toNat == 1 && !bad) ∧
      (fTBE_LEAP_SCHED_HI_VALID.of v.toNat = 1 → bad = true → intRaw t pTBE 4 = true)) ∧
  (∀ (s : State),
    leapValid s = true →
    Answers (exec .leapApplied s) fun t =>
      get t pTBE fTBE_UTC_OFFSET_SEC = unsign 16 (if leapDel s then utcOfs s - 1 else utcOfs s + 1) ∧
      flag t pTBE fTBE_LEAP_SCHED_HI_VALID = false ∧ intRaw t pTBE 3 = true) ∧
  (∀ (s : State),
    leapValid s = true → s.tb.smearOn = false → t96 s ≤ smearFrom (leapSec s) (leapDel s) * secU →
    (feat s 2 && flag s pTBE fTBE_SMEAR_EN) = true →
    Answers (exec .smearStart s) fun t =>
      flag t pTBE fTBE_STAT_SMEARING = true ∧ t.tb.smearOn = true ∧ intRaw t pTBE 5 = true) ∧
  (∀ (s : State),
    s.tb.smearOn = true →
    Answers (exec .smearEnd s) fun t =>
      flag t pTBE fTBE_STAT_SMEARING = false ∧ t.tb.smearOn = false ∧ get t pTBE fTBE_SMEAR_NOW_NS = 0 ∧
      intRaw t pTBE 6 = true)

/-- Rows STEP_REQUEST, TIMESCALE_STEP, TBE_STEP_END and TAI_SECOND: a request of software that the servo and CFG permit
waits for a 10 µs boundary at least 20 µs ahead; any other sets REFUSED and INT_RAW[2] (the interrupt is the model's
reading, log entry 7) and leaves the timescale alone; at its instant the step moves T96's offset by its size and leaves P
continuous, changes the scale, counts, and sets the time where it is absolute; doubt STEP ends; at a TAI second the
anchor is written from the same instant. -/
def Obligations.TimescaleSteps : Prop :=
  (∀ (r : Requester) (v : Word) (s : State),
    writable s r pTBE = true → v.getLsbD 0 = true → stepPending s = false →
    flag s pTBE fTBE_CFG_SW_STEP_EN = true → servoLetsStep s = true →
    (fTBE_STEP_CTRL_MODE.of v.toNat = 1 ∨ timeSet s = true) → get s pTBE fTBE_STEP_NS_NS ≤ 999999999 →
    Answers (exec (.stepRequest r v) s) fun t =>
      stepPending t = true ∧ flag t pTBE fTBE_STEP_CTRL_REFUSED = false ∧ flag t pTBE fTBE_STAT_STEP_PEND = true ∧
      rd64 t pTBE rTBE_STEP_AT_LO rTBE_STEP_AT_HI = stepInstant s % 2 ^ 64 ∧
      s.clk.p.toNat + 20000 * 65536 ≤ stepInstant s ∧ stepInstant s % (10000 * 65536) = 0 ∧ t.clk = s.clk) ∧
  (∀ (r : Requester) (v : Word) (s : State),
    writable s r pTBE = true → v.getLsbD 0 = true →
    (stepPending s = true ∨ flag s pTBE fTBE_CFG_SW_STEP_EN = false ∨ servoLetsStep s = false ∨ (fTBE_STEP_CTRL_MODE.of v.toNat = 0 ∧ timeSet s = false)) →
    Answers (exec (.stepRequest r v) s) fun t =>
      flag t pTBE fTBE_STEP_CTRL_REFUSED = true ∧ intRaw t pTBE 2 = true ∧ stepPending t = stepPending s ∧
      t.clk = s.clk ∧ t.tb = s.tb) ∧
  (∀ (s : State),
    stepPending s = true →
    Answers (exec .timescaleStep s) fun t =>
      stepPending t = false ∧
      t.clk.p = (advPc s (BitVec.ofNat 64 (rd64 s pTBE rTBE_STEP_AT_LO rTBE_STEP_AT_HI))).clk.p ∧
      t.clk.tOfs = s.clk.tOfs + t.tb.lastStep ∧ scaleGen t = (scaleGen s + 1) % 16 ∧
      rdN t pTBE rTBE_STEP_CNT = min (rdN s pTBE rTBE_STEP_CNT + 1) 0xFFFFFFFF ∧ intRaw t pTBE 1 = true ∧
      (s.tb.stepAbs = true → timeSet t = true ∧ doubts t pTBE 0 = false)) ∧
  (∀ (s : State),
    doubts s pTBE 1 = true →
    Answers (exec .tbeStepEnd s) fun t => doubts t pTBE 1 = false ∧ OtherRegs s t [pTBE.adr rDOUBT_RAW]) ∧
  (∀ (s : State),
    Answers (exec .taiSecond s) fun t =>
      anchorPc t = pcNow t ∧ scaleGen t = scaleGen s ∧ intRaw t pTBE 0 = true)

/-- R21 for the rows LANE_EXCHANGE and TLANE_FAULT: on a lane whose replica has missed two exchanges in a row, the row
TLANE_FAULT raises the doubt of the replica's die, and leaves every other register outside the Recorder's page, the time
base and the clock as they were; a missed exchange adds one to the misses. -/
def Obligations.TwoMissesRaiseTlaneFault : Prop :=
  (∀ (lane : Fin 6) (s : State),
    2 ≤ (replica s lane).miss →
    Answers (exec (.tlaneFault lane) s) fun t =>
      doubts t (pISL (laneDie lane)) 3 = true ∧ OtherRegs s t [(pISL (laneDie lane)).adr rDOUBT_RAW] ∧
      t.tb = s.tb ∧ t.clk = s.clk) ∧
  (∀ (lane : Fin 6) (s : State),
    Shaped s → get s pHubDie fDIE_PWR_STAT_STATE ≠ 3 →
    Answers (exec (.laneExchange lane none) s) fun t =>
      (replica t lane).miss = (replica s lane).miss + 1 ∧ (replica t lane).ofs = (replica s lane).ofs ∧ t.clk = s.clk)

/-- Rows TIME_SNAPSHOT and LANE_EXCHANGE: a read of TAI_SEC of the Timebase, or of a Port die whose replica has no
error, keeps one instant's T96, PC64 and MONO for its requester and answers the seconds; an exchange that is answered
clears the misses and TLANE_FAULT, whatever the marks. -/
def Obligations.SnapshotsAndLanes : Prop :=
  (∀ (r : Requester) (wide : Bool) (s : State),
    readable s pTBE = true →
    exec (.timeSnapshot r 1 wide) s = .next (reply
      { s with snapTbe := s.snapTbe.set (reqCode r) ⟨t96 s, pcNow s, mono s⟩ }
      (t96 s / secU % (if wide then 2 ^ 48 else 2 ^ 32)))) ∧
  (∀ (r : Requester) (d : Fin 4) (die : Fin 8) (wide : Bool) (s : State),
    die.val = 4 + d.val → readable s (pLTR d) = true → (replica s (2 + d)).ofs = 0 →
    exec (.timeSnapshot r die wide) s = .next (reply
      { s with snapLtr := upd s.snapLtr d fun l => l.set (reqCode r) ⟨t96 s, pcNow s, mono s⟩ }
      (t96 s / secU % (if wide then 2 ^ 48 else 2 ^ 32)))) ∧
  (∀ (lane : Fin 6) (m : Int × Int × Int × Int) (s : State),
    Shaped s → get s pHubDie fDIE_PWR_STAT_STATE ≠ 3 →
    Answers (exec (.laneExchange lane (some m)) s) fun t =>
      (replica t lane).miss = 0 ∧ doubts t (pISL (laneDie lane)) 3 = false ∧ t.clk = s.clk)

/-- Rows LINK_UP, LINK_DOWN, REMOTE_FAULT, SIGNAL_DETECT, SDS_PLL_UNLOCK, SDS_PLL_LOCK and PAUSE_END. LINK and
BLOCK_LOCK rise with INT_RAW[0] and the grid; LINK falls with its count and INT_RAW[1] and every booking is gone; REMOTE_FAULT
shows what is received; a PLL that loses lock shows it, sets INT_RAW[5] and raises SDS_PLL, which falls when no PLL of the
quad is lost. That LINK_UP acts only while the PLL that serves the port has lock is R173's. -/
def Obligations.PortLinks : Prop :=
  (∀ (d : Fin 4) (i : Fin 8) (s : State),
    pageOn s (pMAC d i) = true → portMode s d i ≠ 0 → flag s (pMAC d i) fMAC_STAT_LINK = false →
    pllDown s d i = false →
    Answers (exec (.linkUp d i) s) fun t =>
      flag t (pMAC d i) fMAC_STAT_LINK = true ∧ flag t (pMAC d i) fMAC_STAT_BLOCK_LOCK = true ∧
      flag t (pMAC d i) fMAC_STAT_FEC_LOCK = fecOn s d i ∧ flag t (pMAC d i) fMAC_STAT_LOCAL_FAULT = false ∧
      flag t (pTSU d i) fTSU_STAT_GRID_OK = true ∧ intRaw t (pMAC d i) 0 = true ∧ t.clk = s.clk) ∧
  (∀ (d : Fin 4) (i : Fin 8) (block fec localFault : Bool) (s : State),
    Shaped s → linkUp s d i = true →
    Answers (exec (.linkDown d i block fec localFault) s) fun t =>
      flag t (pMAC d i) fMAC_STAT_LINK = false ∧ flag t (pMAC d i) fMAC_STAT_LOCAL_FAULT = localFault ∧
      flag t (pMAC d i) fMAC_STAT_REMOTE_FAULT = false ∧ flag t (pTSU d i) fTSU_STAT_GRID_OK = false ∧
      rdN t (pMAC d i) rMAC_LINK_DOWN_CNT = min (rdN s (pMAC d i) rMAC_LINK_DOWN_CNT + 1) 0xFFFFFFFF ∧
      intRaw t (pMAC d i) 1 = true ∧ (port t d i).books = [] ∧ (port t d i).untimed = [] ∧ t.clk = s.clk) ∧
  (∀ (d : Fin 4) (i : Fin 8) (on : Bool) (s : State),
    pageOn s (pMAC d i) = true → portMode s d i ≠ 0 →
    Answers (exec (.remoteFault d i on) s) fun t => flag t (pMAC d i) fMAC_STAT_REMOTE_FAULT = on ∧
      flag t (pMAC d i) fMAC_STAT_LINK = flag s (pMAC d i) fMAC_STAT_LINK ∧
      OtherRegs s t [(pMAC d i).adr rMAC_STAT, (pLCH d).adr rLCH_STAT]) ∧
  (∀ (d : Fin 4) (i : Fin 8) (eye : Fin 256) (s : State),
    pageOn s (pSDS d (i.val / 4)) = true →
    Answers (exec (.signalDetect d i eye) s) fun t =>
      flag t (pSDS d (i.val / 4)) (fSDS_LANE_STAT_SIG_DET (i.val % 4)) = true ∧
      flag t (pSDS d (i.val / 4)) (fSDS_LANE_STAT_CDR_LOCK (i.val % 4)) = true ∧
      get t (pSDS d (i.val / 4)) (fSDS_LANE_STAT_EYE (i.val % 4)) = eye ∧
      OtherRegs s t [(pSDS d (i.val / 4)).adr (rSDS_LANE_STAT (i.val % 4))]) ∧
  (∀ (d : Fin 4) (q : Fin 2) (h : Bool) (s : State),
    Shaped s → pageOn s (pSDS d q) = true →
    Answers (exec (.sdsPllUnlock d q h) s) fun t =>
      flag t (pSDS d q) (if h then fSDS_PLL_STAT_H_LOCK else fSDS_PLL_STAT_L_LOCK) = false ∧
      intRaw t (pSDS d q) 5 = true ∧ doubts t (pSDS d q) 0 = true ∧
      (∀ k : Fin 4, (portMode s d (4 * q.val + k) == 3) = h → linkUp t d (4 * q.val + k) = false)) ∧
  (∀ (d : Fin 4) (q : Fin 2) (h : Bool) (s : State),
    Shaped s → pageOn s (pSDS d q) = true → bitOf (pd s d).pllLost (2 * q + ofBool (!h)) = false →
    Answers (exec (.sdsPllLock d q h) s) fun t =>
      flag t (pSDS d q) (if h then fSDS_PLL_STAT_H_LOCK else fSDS_PLL_STAT_L_LOCK) = true ∧
      doubts t (pSDS d q) 0 = false ∧
      OtherRegs s t [(pSDS d q).adr rSDS_PLL_STAT, (pSDS d q).adr rDOUBT_RAW]) ∧
  (∀ (d : Fin 4) (i : Fin 8) (e : Nat) (s : State),
    Shaped s → (port s d i).pause = some e →
    Answers (exec (.pauseEnd d i) s) fun t =>
      (port t d i).pause = none ∧ flag t (pMAC d i) fMAC_STAT_PAUSED = false ∧
      OtherRegs s t [(pMAC d i).adr rMAC_STAT] ∧ (e * 65536 < 2 ^ 80 → e * 65536 ≤ t.clk.p.toNat))

/-- Rows MM_TRANSACTION, MM_DONE, MOD_IN, MOD_OUT and MOD_INT. A transaction holds BUSY from its command to its end; a
write of the command while BUSY only sets INT_RAW[1]; an end without acknowledgement sets NACK or TIMEOUT, counts and sets
INT_RAW[1], a good one sets INT_RAW[0]; PRES and MINT follow the module's pins with INT_RAW[2], [3] and [4]. -/
def Obligations.ModuleManagement : Prop :=
  (∀ (r : Requester) (d : Fin 4) (q : Fin 2) (v : Word) (s : State),
    writable s r (pSDS d q) = true → flag s (pSDS d q) fSDS_MM_STAT_BUSY = false →
    Answers (exec (.mmTransaction r d q v) s) fun t =>
      flag t (pSDS d q) fSDS_MM_STAT_BUSY = true ∧ flag t (pSDS d q) fSDS_MM_STAT_NACK = false ∧
      flag t (pSDS d q) fSDS_MM_STAT_TIMEOUT = false ∧
      get t (pSDS d q) fSDS_MM_CMD_OFS = fSDS_MM_CMD_OFS.of v.toNat ∧
      get t (pSDS d q) fSDS_MM_CMD_LEN = fSDS_MM_CMD_LEN.of v.toNat ∧
      OtherRegs s t [(pSDS d q).adr rSDS_MM_CMD, (pSDS d q).adr rSDS_MM_STAT]) ∧
  (∀ (r : Requester) (d : Fin 4) (q : Fin 2) (v : Word) (s : State),
    writable s r (pSDS d q) = true → flag s (pSDS d q) fSDS_MM_STAT_BUSY = true →
    Answers (exec (.mmTransaction r d q v) s) fun t =>
      intRaw t (pSDS d q) 1 = true ∧ OtherRegs s t [(pSDS d q).adr rINT_RAW]) ∧
  (∀ (d : Fin 4) (q : Fin 2) (data : BitVec 64) (s : State),
    flag s (pSDS d q) fSDS_MM_STAT_BUSY = true →
    Answers (exec (.mmDone d q 0 data) s) fun t =>
      flag t (pSDS d q) fSDS_MM_STAT_BUSY = false ∧ intRaw t (pSDS d q) 0 = true ∧
      (flag s (pSDS d q) fSDS_MM_CMD_RW = false → mmLen s d q = 8 →
        rdN t (pSDS d q) rSDS_MM_DATA0 = data.toNat % 2 ^ 32 ∧ rdN t (pSDS d q) rSDS_MM_DATA1 = data.toNat / 2 ^ 32)) ∧
  (∀ (d : Fin 4) (q : Fin 2) (how : Fin 3) (data : BitVec 64) (s : State),
    flag s (pSDS d q) fSDS_MM_STAT_BUSY = true → how.val ≠ 0 →
    Answers (exec (.mmDone d q how data) s) fun t =>
      flag t (pSDS d q) fSDS_MM_STAT_BUSY = false ∧ intRaw t (pSDS d q) 1 = true ∧
      flag t (pSDS d q) (if how = 2 then fSDS_MM_STAT_TIMEOUT else fSDS_MM_STAT_NACK) = true ∧
      rdN t (pSDS d q) rSDS_MM_NACK_CNT = min (rdN s (pSDS d q) rSDS_MM_NACK_CNT + 1) 0xFFFFFFFF ∧
      OtherRegs s t [(pSDS d q).adr rSDS_MM_STAT, (pSDS d q).adr rSDS_MM_NACK_CNT, (pSDS d q).adr rINT_RAW]) ∧
  (∀ (d : Fin 4) (q : Fin 2) (s : State),
    pageOn s (pSDS d q) = true → flag s (pSDS d q) fSDS_MM_STAT_PRES = false →
    Answers (exec (.modIn d q) s) fun t => flag t (pSDS d q) fSDS_MM_STAT_PRES = true ∧
      intRaw t (pSDS d q) 2 = true ∧ OtherRegs s t [(pSDS d q).adr rSDS_MM_STAT, (pSDS d q).adr rINT_RAW]) ∧
  (∀ (d : Fin 4) (q : Fin 2) (s : State),
    pageOn s (pSDS d q) = true → flag s (pSDS d q) fSDS_MM_STAT_PRES = true →
    Answers (exec (.modOut d q) s) fun t => flag t (pSDS d q) fSDS_MM_STAT_PRES = false ∧
      flag t (pSDS d q) fSDS_MM_STAT_BUSY = false ∧ intRaw t (pSDS d q) 3 = true ∧
      (flag s (pSDS d q) fSDS_MM_STAT_BUSY = true → flag t (pSDS d q) fSDS_MM_STAT_NACK = true)) ∧
  (∀ (d : Fin 4) (q : Fin 2) (low : Bool) (s : State),
    pageOn s (pSDS d q) = true →
    Answers (exec (.modInt d q low) s) fun t => flag t (pSDS d q) fSDS_MM_STAT_MINT = low ∧
      (low = true → flag s (pSDS d q) fSDS_MM_STAT_MINT = false → intRaw t (pSDS d q) 4 = true) ∧
      OtherRegs s t [(pSDS d q).adr rSDS_MM_STAT, (pSDS d q).adr rINT_RAW])

/-- Rows TSU_CAL_RUN, TSU_CAL, TSU_CAL_DONE, TSU_DEPARTURE and LAUNCH_DEV_END. A calibration clears CAL_OK until it is
done, and its end forms TX_DLY from the trim in force and the serializer delay, sets CAL_OK and INT_RAW[1]; doubt TSU_CAL
follows 10 ms with LINK and without calibration; a departure beyond the tolerance sets DEV_LAST, DEV, INT_RAW[0] and
doubt LAUNCH_DEV, which end together. The factory constant in TX_DLY is an opaque value of the model (log entry 2). -/
def Obligations.TimestampUnit : Prop :=
  (∀ (r : Requester) (d : Fin 4) (i : Fin 8) (s : State),
    Shaped s → writable s r (pTSU d i) = true → pageEn s (pTSU d i) = true →
    Answers (exec (.tsuCalRun r d i) s) fun t =>
      (port t d i).cal = true ∧ flag t (pTSU d i) fTSU_STAT_CAL_OK = false ∧
      (flag s (pTSU d i) fTSU_STAT_CAL_OK = true → intRaw t (pTSU d i) 2 = true)) ∧
  (∀ (d : Fin 4) (i : Fin 8) (t0 : Nat) (s : State),
    (port s d i).uncalFrom = some t0 →
    Answers (exec (.tsuCal d i) s) fun t => doubts t (pTSU d i) 1 = true ∧
      OtherRegs s t [(pTSU d i).adr rDOUBT_RAW] ∧ (t0 + 10000000 < 2 ^ 64 → t0 + 10000000 ≤ mono t)) ∧
  (∀ (d : Fin 4) (i : Fin 8) (ser : Nat) (s : State),
    Shaped s → (port s d i).cal = true → pageEn s (pTSU d i) = true → perturbed s 1 = false →
    Answers (exec (.tsuCalDone d i ser) s) fun t =>
      (port t d i).cal = false ∧ flag t (pTSU d i) fTSU_STAT_CAL_OK = true ∧ intRaw t (pTSU d i) 1 = true ∧
      get t (pTSU d i) fTSU_CAL_SER_PS = min ser 0xFFFF ∧
      (portMode s d i ≠ 0 → get t (pTSU d i) fTSU_TX_DLY_PS = ((otpDelay s d i false : Int) +
        trimOf s d i fTSU_AGE_TRIM_TX + (min ser 0xFFFF : Nat)).toNat % 2 ^ fTSU_TX_DLY_PS.w)) ∧
  (∀ (d : Fin 4) (i : Fin 8) (dev : Int) (b : Booking) (l : List Booking) (s : State),
    Shaped s → (port s d i).out = b :: l → b.by' = .plain [] → perturbed s (4 + d) = false →
    pageEn s (pTSU d i) = true → flag s (pTSU d i) fTSU_CFG_DEV_CHK = true →
    orD (get s (pTSU d i) fTSU_LAUNCH_TOL_TOL) 1 < dev.natAbs →
    Answers (exec (.tsuDeparture d i dev) s) fun t =>
      (port t d i).out = l ∧ rdN t (pTSU d i) rTSU_DEV_LAST = unsign 32 (satS 32 dev) ∧
      flag t (pTSU d i) fTSU_STAT_DEV = true ∧ intRaw t (pTSU d i) 0 = true ∧ doubts t (pTSU d i) 0 = true ∧
      rdN t (pTSU d i) rTSU_DEV_CNT = min (rdN s (pTSU d i) rTSU_DEV_CNT + 1) 0xFFFFFFFF ∧
      rdN t (pTSU d i) rTSU_TIMED_CNT = min (rdN s (pTSU d i) rTSU_TIMED_CNT + 1) 0xFFFFFFFF) ∧
  (∀ (d : Fin 4) (i : Fin 8) (s : State),
    doubts s (pTSU d i) 0 = true →
    Answers (exec (.launchDevEnd d i) s) fun t => doubts t (pTSU d i) 0 = false ∧
      flag t (pTSU d i) fTSU_STAT_DEV = false ∧
      OtherRegs s t [(pTSU d i).adr rTSU_STAT, (pTSU d i).adr rDOUBT_RAW])

/-- Rows BOOKING, HOLD_ENQUEUE, LCH_RELEASE, LATE and LCH_LATE. A granted request has its launch instant at the first
grid position not before its earliest instant and the port's occupancies; one that is refused because the port is not
ready counts and sets INT_RAW[2]; a finished frame that makes R − 50 ns is held; at R the MAC sends it, to depart at L; a
late frame that may not be stamped again is counted and dropped with INT_RAW[0] and [1]; LCH_LATE stands while more frames
than LATE_LIMIT were late within a second. -/
def Obligations.BookedLaunch : Prop :=
  (∀ (d : Fin 4) (i : Fin 8) (grid : Nat) (a : Ask) (s : State),
    Shaped s → (port s d i).asks = [a] → bookWhy s d i (nowP s d) a.e grid a.at' a.len = 0 →
    Answers (exec (.booking d i grid) s) fun t =>
      (port t d i).asks = [] ∧ (port t d i).books.length = (port s d i).books.length + 1 ∧
      (∃ b ∈ (port t d i).books, b.by' = a.by' ∧ b.len = a.len ∧
        b.l = (if a.at' then a.e else max a.e (busyEnd s d i)) + gridWait s d i grid) ∧ t.clk = s.clk) ∧
  (∀ (d : Fin 4) (i : Fin 8) (grid : Nat) (a : Ask) (s : State),
    Shaped s → (port s d i).asks = [a] → timedReady s d i = false →
    Answers (exec (.booking d i grid) s) fun t =>
      (port t d i).asks = [] ∧ (port t d i).books = (port s d i).books ∧ intRaw t (pLCH d) 2 = true ∧
      rdN t (pLCH d) rLCH_BOOK_REJ_CNT = min (rdN s (pLCH d) rLCH_BOOK_REJ_CNT + 1) 0xFFFFFFFF) ∧
  (∀ (d : Fin 4) (i : Fin 8) (b : Booking) (s : State),
    Shaped s → ((port s d i).books.find? fun b => b.frame.isSome && !b.held && !b.late) = some b →
    nowP (advDie s d b.ready) d + 50 * 65536 ≤ releaseAt s d i b.l →
    Answers (exec (.holdEnqueue d i) s) fun t =>
      (∃ x ∈ (port t d i).books, x = { b with held := true }) ∧
      (port t d i).books.length = (port s d i).books.length ∧
      OtherRegs s t [(pLCH d).adr rLCH_HOLD_LVL, (pLCH d).adr rLCH_HOLD_MAX]) ∧
  (∀ (d : Fin 4) (i : Fin 8) (b : Booking) (f : List Byte) (s : State),
    Shaped s → ((port s d i).books.find? fun b => b.held && !b.late) = some b → b.frame = some f →
    b.by'.isCue = false → (replicaOk s d = true ∨ b.by'.isPlain = true) → (port s d i).pause = none →
    b.bad = false →
    Answers (exec (.lchRelease d i true) s) fun t =>
      (port t d i).sent = some ⟨f, some b.l⟩ ∧ (∀ x ∈ (port t d i).books, x.no ≠ b.no) ∧
      rd64 t (pMAC d i) rMAC_TX_FRAMES_LO rMAC_TX_FRAMES_HI =
        (rd64 s (pMAC d i) rMAC_TX_FRAMES_LO rMAC_TX_FRAMES_HI + 1) % 2 ^ 64) ∧
  (∀ (d : Fin 4) (i : Fin 8) (grid : Nat) (b : Booking) (s : State),
    Shaped s → (port s d i).books.find? (lateSoon (port s d i)) = some b → b.held = false →
    mayRestamp s d b = false →
    Answers (exec (.late d i grid) s) fun t =>
      (∀ x ∈ (port t d i).books, x.no ≠ b.no) ∧ intRaw t (pLCH d) 0 = true ∧ intRaw t (pLCH d) 1 = true ∧
      rdN t (pLCH d) rLCH_LATE_CNT = min (rdN s (pLCH d) rLCH_LATE_CNT + 1) 0xFFFFFFFF ∧
      rdN t (pLCH d) rLCH_LATE_DROP_CNT = min (rdN s (pLCH d) rLCH_LATE_DROP_CNT + 1) 0xFFFFFFFF) ∧
  (∀ (d : Fin 4) (s : State),
    Shaped s →
    Answers (exec (.lchLate d) s) fun t =>
      (pd t d).lates = (pd s d).lates.filter (fun x => decide (mono s < x + 1000000000)) ∧
      doubts t (pLCH d) 0 = decide (get s (pLCH d) fLCH_LATE_LIMIT_CNT < (pd t d).lates.length) ∧
      OtherRegs s t [(pLCH d).adr rDOUBT_RAW])

/-- Rows UNTIMED_SUBMIT, UNTIMED_LAUNCH, STARVE, SW_FRAME_SUBMIT and FRAME_RX. An untimed frame joins its port's queue, or
is counted as dropped where the port has no mode or link or the launch unit is disabled; it leaves in a gap, or asks for a
booking once it has starved; a software frame joins the untimed queue or asks for its booking with what its launch word
says; a received frame is counted as good, or by its fault, and a PAUSE frame is counted. -/
def Obligations.FramesInAndOut : Prop :=
  (∀ (d : Fin 4) (i : Fin 8) (f : List Byte) (s : State),
    Shaped s → portMode s d i ≠ 0 → linkUp s d i = true → lchOn s d = true →
    Answers (exec (.untimedSubmit d i f) s) fun t =>
      (port t d i).untimed = (port s d i).untimed ++ [⟨f, mono s, none, false⟩] ∧ t.regs = s.regs ∧ t.clk = s.clk) ∧
  (∀ (d : Fin 4) (i : Fin 8) (f : List Byte) (s : State),
    (portMode s d i = 0 ∨ linkUp s d i = false ∨ lchOn s d = false) →
    Answers (exec (.untimedSubmit d i f) s) fun t =>
      rdN t (pLCH d) rLCH_LINK_DROP_CNT = min (rdN s (pLCH d) rLCH_LINK_DROP_CNT + 1) 0xFFFFFFFF ∧
      OtherRegs s t [(pLCH d).adr rLCH_LINK_DROP_CNT] ∧ t.ports = s.ports) ∧
  (∀ (d : Fin 4) (i : Fin 8) (u : Untimed) (l : List Untimed) (x : Nat) (s : State),
    Shaped s → (port s d i).untimed = u :: l → u.booked = false → (port s d i).pause = none →
    linkUp s d i = true → untimedStart s d i (u.frame.length + 4) = some x →
    Answers (exec (.untimedLaunch d i) s) fun t =>
      (port t d i).untimed = l ∧ (port t d i).sent = some ⟨u.frame, none⟩ ∧
      (port t d i).books = (port s d i).books ∧
      OtherRegs s t [(pMAC d i).adr rMAC_TX_FRAMES_LO, (pMAC d i).adr rMAC_TX_FRAMES_HI]) ∧
  (∀ (d : Fin 4) (i : Fin 8) (u : Untimed) (l : List Untimed) (s : State),
    Shaped s → (port s d i).untimed = u :: l → u.booked = false →
    Answers (exec (.starve d i) s) fun t =>
      (port t d i).untimed = { u with booked := true } :: l ∧ t.regs = s.regs ∧
      (port t d i).asks = (port s d i).asks ++ [⟨.plain u.frame, u.frame.length + 4, nowP t d, false⟩]) ∧
  (∀ (ring : Fin 16) (w0 w1 w2 w3 : Word) (f : List Byte) (de : Desc) (l : List Desc) (s : State),
    Shaped s → ringTakes s ring 1 = true → (ix s.rings ring Ring.cold).given = de :: l →
    w0.toNat &&& 0xF0E0 = 0 → w0.toNat / 0x100 % 4 = 1 →
    Answers (exec (.swFrameSubmit ring w0 w1 w2 w3 f) s) fun t =>
      (ix t.rings ring Ring.cold).given = l ∧ t.regs = s.regs ∧
      (ix t.rings ring Ring.cold).work = (ix s.rings ring Ring.cold).work ++ [(de, .tx w3.toNat none)] ∧
      (port t (w0.toNat % 32 / 8) (w0.toNat % 8)).asks = (port s (w0.toNat % 32 / 8) (w0.toNat % 8)).asks ++
        [⟨.soft (softOf ring w0 w1 w2 w3 f), f.length + 4,
          pOf s (w0.toNat % 32 / 8) (BitVec.ofNat 64 (w1.toNat + w2.toNat * 0x100000000)), true⟩]) ∧
  (∀ (ring : Fin 16) (w0 w1 w2 w3 : Word) (f : List Byte) (de : Desc) (l : List Desc) (s : State),
    Shaped s → ringTakes s ring 1 = true → (ix s.rings ring Ring.cold).given = de :: l →
    w0.toNat &&& 0xF0E0 ≠ 0 →
    Answers (exec (.swFrameSubmit ring w0 w1 w2 w3 f) s) fun t =>
      (ix t.rings ring Ring.cold).given = l ∧ t.regs = s.regs ∧ t.ports = s.ports ∧
      (ix t.rings ring Ring.cold).work = (ix s.rings ring Ring.cold).work ++ [(de, .bad)]) ∧
  (∀ (d : Fin 4) (i : Fin 8) (x : RxFrame) (s : State),
    linkUp s d i = true → pageEn s (pMAC d i) = true → loopMode s d i ≠ 3 → fecOn s d i = false →
    x.fcsOk = true → 60 ≤ x.bytes.length → x.bytes.length + 4 ≤ get s (pMAC d i) fMAC_CFG_MAX_LEN →
    Answers (exec (.frameRx d i x) s) fun t =>
      rd64 t (pMAC d i) rMAC_RX_FRAMES_LO rMAC_RX_FRAMES_HI =
        (rd64 s (pMAC d i) rMAC_RX_FRAMES_LO rMAC_RX_FRAMES_HI + 1) % 2 ^ 64 ∧
      rdN t (pMAC d i) rMAC_RX_FCS_ERR = rdN s (pMAC d i) rMAC_RX_FCS_ERR ∧
      rdN t (pMAC d i) rMAC_RX_LEN_ERR = rdN s (pMAC d i) rMAC_RX_LEN_ERR ∧
      ((ethOf x.bytes).ty = 0x8808 →
        rdN t (pMAC d i) rMAC_RX_PAUSE = min (rdN s (pMAC d i) rMAC_RX_PAUSE + 1) 0xFFFFFFFF)) ∧
  (∀ (d : Fin 4) (i : Fin 8) (x : RxFrame) (s : State),
    linkUp s d i = true → pageEn s (pMAC d i) = true → loopMode s d i ≠ 3 → fecOn s d i = false →
    (x.fcsOk = false ∨ x.bytes.length < 60) →
    Answers (exec (.frameRx d i x) s) fun t =>
      rdN t (pMAC d i) (if x.fcsOk then rMAC_RX_LEN_ERR else rMAC_RX_FCS_ERR) =
        min (rdN s (pMAC d i) (if x.fcsOk then rMAC_RX_LEN_ERR else rMAC_RX_FCS_ERR) + 1) 0xFFFFFFFF ∧
      OtherRegs s t [(pMAC d i).adr (if x.fcsOk then rMAC_RX_LEN_ERR else rMAC_RX_FCS_ERR)] ∧ t.ports = s.ports)

/-- Rows PTP_SAMPLE_RX, EXT_PPS_EDGE, EXT_FREQ_COUNT, SLOT_LOST, SLOT_RELEASE and BIAS_CLR. While the engine takes samples
of a slot, a PTP sample adds its offset, with the slot's delay, to those that wait for the next update, and one that comes
more than 10 ms after its t4 is only counted; the first edge becomes the last valid edge; a count within 10 ppm is kept; a
slot whose loss time has run out is LOST, with its interrupt and REF_LOST; the bits of a SLOT_CMD write are kept for the
next update. -/
def Obligations.ReferenceSlots : Prop :=
  (∀ (k : Fin 2) (t1 t4 : Int) (t2 t3 : PC64) (acc : Option Nat) (s : State),
    taking s (3 + k) = true → t4 + 10000000 * 65536 < (t96 s : Int) →
    Answers (exec (.ptpSampleRx k (.e2e t1 t2 t3 t4) acc) s) fun t => t.dsc = s.dsc ∧
      get t pREF (if k = 0 then fREF_LATE_CNT_PTPA else fREF_LATE_CNT_PTPB) =
        min (get s pREF (if k = 0 then fREF_LATE_CNT_PTPA else fREF_LATE_CNT_PTPB) + 1) 0xFFFF ∧
      OtherRegs s t [pREF.adr rREF_LATE_CNT]) ∧
  (∀ (k : Fin 2) (t1 t4 : Int) (t2 t3 : PC64) (acc : Option Nat) (s : State),
    Shaped s → taking s (3 + k) = true → (t96 s : Int) ≤ t4 + 10000000 * 65536 →
    Answers (exec (.ptpSampleRx k (.e2e t1 t2 t3 t4) acc) s) fun t => t.regs = s.regs ∧
      (slot t (3 + k)).acc = acc ∧ (slot t (3 + k)).alive = some (mono s) ∧
      (slot t (3 + k)).fresh = (slot s (3 + k)).fresh ++
        [(-((((t96OfPc s t2 : Int) - t1) - (t4 - (t96OfPc s t3 : Int))) / 2) + slotDelay s (3 + k),
          some ((((t96OfPc s t2 : Int) - t1) + (t4 - (t96OfPc s t3 : Int))) / 2))]) ∧
  (∀ (k : Fin 2) (t1 d : Int) (t2 : PC64) (acc : Option Nat) (s : State),
    Shaped s → taking s (3 + k) = true → (t96 s : Int) ≤ t96OfPc s t2 + 10000000 * 65536 →
    Answers (exec (.ptpSampleRx k (.p2p t1 t2 d) acc) s) fun t => t.regs = s.regs ∧
      (slot t (3 + k)).fresh = (slot s (3 + k)).fresh ++
        [(t1 + d - (t96OfPc s t2 : Int) + slotDelay s (3 + k), some d)]) ∧
  (∀ (input : Fin 2) (at' : PC64) (falling : Bool) (s : State),
    Shaped s → taking s (input + 1) = true → extPol s input = falling → (slot s (input + 1)).edge = none →
    Answers (exec (.extPpsEdge input at' falling) s) fun t => t.regs = s.regs ∧
      (slot t (input + 1)).edge = some (BitVec.ofNat 64 (at'.toNat / 64 * 64)) ∧
      (slot t (input + 1)).fresh = (slot s (input + 1)).fresh ∧ t.clk = (advPc s at').clk) ∧
  (∀ (input : Fin 2) (ppt : Int) (s : State),
    Shaped s → taking s (input + 1) = true → extFreqSel s input ≠ 0 → ppt.natAbs ≤ 10000000 →
    Answers (exec (.extFreqCount input ppt) s) fun t => (slot t (input + 1)).count = some ppt ∧ t.regs = s.regs ∧
      t.clk = s.clk) ∧
  (∀ (k : Fin 6) (s : State),
    pageEn s pDSC = true → slotEn s k = true → slotState s k ≠ 1 → slotLost s k = true →
    Answers (exec (.slotLost k) s) fun t => slotState t k = 1 ∧ doubts t pREF k = true ∧ intRaw t pREF k = true ∧
      OtherRegs s t [pREF.adr (rREF_SLOT_STAT k), pREF.adr rINT_RAW, pREF.adr rDOUBT_RAW] ∧ t.clk = s.clk) ∧
  (∀ (r : Requester) (v : Word) (s : State),
    Shaped s → writable s r pREF = true →
    Answers (exec (.slotRelease r v) s) fun t => t.regs = s.regs ∧ ∀ k : Fin 6, slotState s k = 6 →
      bitOf (fREF_SLOT_CMD_RELEASE.of v.toNat) k = true →
      (slot t k).rel = if bitOf (fREF_SLOT_CMD_BIAS_CLR.of v.toNat) k then 2 else 1) ∧
  (∀ (r : Requester) (v : Word) (s : State),
    Shaped s → writable s r pREF = true →
    Answers (exec (.biasClr r v) s) fun t => t.regs = s.regs ∧ ∀ k : Fin 6, slotState s k ≠ 6 →
      bitOf (fREF_SLOT_CMD_BIAS_CLR.of v.toNat) k = true → (slot t k).bclr = true)

/-- Rows SERVO_UPDATE, HISTORY_STORE and MODEL_REFIT. After an update the doubts FREERUN, HOLDOVER and SUSPECT say the
servo's state, and in FREERUN the uncertainty is unknown and above every limit; with CTRL.FREERUN the servo is in FREERUN;
while the engine is disabled the state stays and the pull part is 0; while LOCKED a history point is stored; LOCK_HOURS
counts whole hours, and at 24 the model is ready. -/
def Obligations.ServoUpdate : Prop :=
  (∀ (temp : Int) (heat : Nat) (osc : Option (Int × Nat)) (s : State),
    Answers (exec (.servoUpdate temp heat osc) s) fun t =>
      doubts t pDSC 0 = decide (servoState t = 0) ∧ doubts t pDSC 1 = decide (servoState t = 3) ∧
      doubts t pDSC 3 = decide (servoState t = 4) ∧ t.dsc.upd = mono t ∧
      (servoState t = 0 → rdN t pDSC rDSC_UNC = 0xFFFFFFFF ∧ doubts t pDSC 2 = true)) ∧
  (∀ (temp : Int) (heat : Nat) (osc : Option (Int × Nat)) (s : State),
    pageEn s pDSC = true → flag s pDSC fDSC_CTRL_FREERUN = true →
    Answers (exec (.servoUpdate temp heat osc) s) fun t => servoState t = 0) ∧
  (∀ (temp : Int) (heat : Nat) (osc : Option (Int × Nat)) (s : State),
    pageEn s pDSC = false →
    Answers (exec (.servoUpdate temp heat osc) s) fun t => servoState t = servoState s ∧ rdN t pTBE rTBE_PULL = 0) ∧
  (∀ (s : State),
    servoState s = 2 →
    Answers (exec .historyStore s) fun t => t.regs = s.regs ∧ t.dsc.stored = mono t ∧
      t.dsc.hist.getLast? = some (mono t, s.dsc.freq / 65536, s.dsc.temp, s.dsc.last)) ∧
  (∀ (s : State),
    s.dsc.refits < s.dsc.lockNs / 3600000000000 →
    Answers (exec .modelRefit s) fun t =>
      t.dsc.refits = s.dsc.lockNs / 3600000000000 ∧
      get t pDSC fDSC_MODEL_STAT_LOCK_HOURS = min (s.dsc.lockNs / 3600000000000) 0xFFFF ∧
      (24 ≤ s.dsc.lockNs / 3600000000000 → flag t pDSC fDSC_MODEL_STAT_HOLD_READY = true ∧
        (flag s pDSC fDSC_MODEL_STAT_HOLD_READY = false → intRaw t pDSC 5 = true)))

/-- Rows OVN_SETTLED, OVN_UNSETTLED, OVN_RANGE, OVN_FAULT, OSC_LOST, OSC_RESTORED and MEAS_VALID: SETTLED and the doubt
OVN_WARM are opposites; a heater fault switches the heater off; OSC_PRESENT follows OSC_IN with its interrupts, and its
loss ends the comparison; the comparison's result is shown with MEAS_VALID. -/
def Obligations.OvenAndOscIn : Prop :=
  (∀ (temp : Int) (s : State),
    settled s = false → ovenOff s temp ≤ ovenBand s →
    Answers (exec (.ovnSettled temp) s) fun t => settled t = true ∧ doubts t pOVN 0 = false ∧ intRaw t pOVN 0 = true ∧
      get t pOVN fOVN_WARM_TIME_SEC = min ((mono s - s.oven.heatFrom) / 1000000000) 0xFFFF ∧
      OtherRegs s t [pOVN.adr rOVN_STAT, pOVN.adr rOVN_TEMP, pOVN.adr rOVN_WARM_TIME, pOVN.adr rINT_RAW,
        pOVN.adr rDOUBT_RAW]) ∧
  (∀ (temp : Int) (s : State),
    settled s = true → 4 * ovenBand s < ovenOff s temp →
    Answers (exec (.ovnUnsettled temp) s) fun t => settled t = false ∧ measValid t = false ∧
      doubts t pOVN 0 = true ∧ doubts t pOVN 1 = false ∧ intRaw t pOVN 1 = true) ∧
  (∀ (lim : Bool) (s : State),
    settled s = true →
    Answers (exec (.ovnRange lim) s) fun t => doubts t pOVN 1 = lim ∧ OtherRegs s t [pOVN.adr rDOUBT_RAW]) ∧
  (∀ (s : State),
    s.oven.heaterOff = false →
    Answers (exec .ovnFault s) fun t => t.oven.heaterOff = true ∧ get t pOVN fOVN_HEAT_MW = 0 ∧
      doubts t pOVN 2 = true ∧ OtherRegs s t [pOVN.adr rOVN_HEAT, pOVN.adr rDOUBT_RAW]) ∧
  (∀ (s : State),
    flag s pOVN fOVN_STAT_OSC_PRESENT = true →
    Answers (exec .oscLost s) fun t => flag t pOVN fOVN_STAT_OSC_PRESENT = false ∧ measValid t = false ∧
      intRaw t pOVN 3 = true ∧ OtherRegs s t [pOVN.adr rOVN_STAT, pOVN.adr rINT_RAW] ∧
      (srcIsOsc s = true → onBackup s = false → s.oven.stopped = false → flag s pOVN fOVN_CFG_FALLBACK = true →
        t.oven.req = some (false, measValid s)) ∧
      (srcIsOsc s = true → onBackup s = false → flag s pOVN fOVN_CFG_FALLBACK = false →
        t.oven.req = none ∧ t.oven.toBackup = true)) ∧
  (∀ (s : State),
    flag s pOVN fOVN_STAT_OSC_PRESENT = false →
    Answers (exec .oscRestored s) fun t => flag t pOVN fOVN_STAT_OSC_PRESENT = true ∧ intRaw t pOVN 4 = true ∧
      OtherRegs s t [pOVN.adr rOVN_STAT, pOVN.adr rINT_RAW] ∧ t.oven = s.oven) ∧
  (∀ (ppt : Int) (sig : Nat) (s : State),
    flag s pOVN fOVN_STAT_OSC_PRESENT = true → settled s = true → measValid s = false →
    Answers (exec (.measValid ppt sig) s) fun t => measValid t = true ∧
      rdN t pOVN rOVN_OSC_MEAS = unsign 32 (satS 32 ppt) ∧ get t pOVN fOVN_XCMP_SIG_PPT = min sig 0xFFFF ∧
      OtherRegs s t [pOVN.adr rOVN_STAT, pOVN.adr rOVN_OSC_MEAS, pOVN.adr rOVN_XCMP_SIG])

/-- Rows OVN_RETRY, SRC_SWITCH, BACKUP_ENTER and TUNE_STEP. A retry asks for the preferred source where it is available;
a switch to the other source shows it, counts, sets INT_RAW[2], ends BACKUP and reloads the model, and one to the resonator
without a valid comparison is uncalibrated; the backup oscillator raises FREF_NONE and keeps showing the source it left;
tuning steps the code by one towards a smaller frequency part. -/
def Obligations.FrequencySource : Prop :=
  (∀ (r : Requester) (v : Word) (s : State),
    writable s r pOVN = true → fOVN_CTRL_RETRY.of v.toNat = 1 → prefersOsc s ≠ srcIsOsc s →
    srcAvailable s (prefersOsc s) = true →
    Answers (exec (.ovnRetry r v) s) fun t => t.oven.req = some (prefersOsc s, measValid s) ∧
      t.oven.toBackup = false ∧ t.regs = s.regs) ∧
  (∀ (osc valid : Bool) (s : State),
    s.oven.req = some (osc, valid) → srcIsOsc s ≠ osc →
    Answers (exec .srcSwitch s) fun t => srcIsOsc t = osc ∧ t.oven.req = none ∧ onBackup t = false ∧
      doubts t pOVN 4 = false ∧ intRaw t pOVN 2 = true ∧
      rdN t pOVN rOVN_SWITCH_CNT = min (rdN s pOVN rOVN_SWITCH_CNT + 1) 0xFFFFFFFF ∧
      get t pDSC fDSC_MODEL_STAT_SRC = 3 ∧ flag t pDSC fDSC_MODEL_STAT_HOLD_READY = false ∧
      (osc = false → valid = false → flag t pOVN fOVN_STAT_UNCAL = true ∧ doubts t pOVN 5 = true)) ∧
  (∀ (s : State),
    s.oven.toBackup = true →
    Answers (exec (.backupEnter false) s) fun t => onBackup t = true ∧ doubts t pOVN 4 = true ∧
      srcIsOsc t = srcIsOsc s ∧ doubts t pOVN 3 = prefersOsc s ∧ t.oven.req = none ∧ t.oven.toBackup = false ∧
      OtherRegs s t [pOVN.adr rOVN_STAT, pOVN.adr rDOUBT_RAW]) ∧
  (∀ (s : State),
    get s pOVN fOVN_CFG_TUNE_MODE = 2 → srcIsOsc s = true → onBackup s = false → servoState s = 2 →
    getS s pOVN fOVN_TUNE_CFG_GAIN ≠ 0 → centrePpt s < (signed 32 (rdN s pDSC rDSC_FREQ)).natAbs →
    0 < get s pOVN fOVN_TUNE_CODE → get s pOVN fOVN_TUNE_CODE < 0xFFFF →
    Answers (exec .tuneStep s) fun t => intRaw t pOVN 5 = true ∧ t.oven.minute = mono t ∧
      (get t pOVN fOVN_TUNE_CODE : Int) = get s pOVN fOVN_TUNE_CODE +
        signOf (signed 32 (rdN s pDSC rDSC_FREQ)) * signOf (getS s pOVN fOVN_TUNE_CFG_GAIN))

/-- Rows GF_WARMUP_END, PLL_LOCK_RETURN, AGC_UPDATE, AGC_RAIL, ANT_SHORT, ANT_RETRY, ANT_OK, ANT_OPEN and
ANT_OPEN_CLEAR: after the warm-up the synthesizers are locked; RF_PLL falls when lock returns; a frozen gain is the
configured one; a gain that stands at a rail sets INT_RAW[4] and its doubt; a short turns the bias off, is counted and
stands until the bias has held; an open antenna is shown, and cleared, with its doubt. -/
def Obligations.RadioFrontEnd : Prop :=
  (∀ (s : State),
    gfOn s = true → flag s pGRX fGRX_STAT_WARMUP = true →
    Answers (exec .gfWarmupEnd s) fun t => flag t pGRX fGRX_STAT_WARMUP = false ∧
      flag t pGRX fGRX_STAT_PLL_LOCK = true ∧ samplesFlow t = true ∧ OtherRegs s t [pGRX.adr rGRX_STAT]) ∧
  (∀ (s : State),
    gfOn s = true → flag s pGRX fGRX_STAT_PLL_LOCK = false →
    Answers (exec .pllLockReturn s) fun t => flag t pGRX fGRX_STAT_PLL_LOCK = true ∧ doubts t pGRX 2 = false ∧
      OtherRegs s t [pGRX.adr rGRX_STAT, pGRX.adr rDOUBT_RAW]) ∧
  (∀ (outer clip : Fin 257) (ma mv : Nat) (s : State),
    gfOn s = true → pageEn s pGRX = true → flag s pGRX fGRX_AGC_CFG_FREEZE = true →
    Answers (exec (.agcUpdate outer clip ma mv) s) fun t =>
      get t pGRX fGRX_AGC_GAIN = get s pGRX fGRX_AGC_CFG_GAIN_SET ∧
      get t pGRX fGRX_AGC_OUTER = min outer.val 255 ∧ get t pGRX fGRX_AGC_CLIP = min clip.val 255 ∧
      get t pGRX fGRX_ANT_MEAS_MA = min ma 255 ∧ get t pGRX fGRX_ANT_MEAS_MV = min mv 0xFFFF ∧
      (0 < get s pGRX fGRX_AGC_CFG_GAIN_SET → get s pGRX fGRX_AGC_CFG_GAIN_SET < 127 →
        doubts t pGRX 3 = false ∧ t.rad.rail = none)) ∧
  (∀ (t0 : Nat) (s : State),
    s.rad.rail = some t0 → gfOn s = true → doubts s pGRX 3 = false →
    Answers (exec .agcRail s) fun t => doubts t pGRX 3 = true ∧ intRaw t pGRX 4 = true ∧
      OtherRegs s t [pGRX.adr rINT_RAW, pGRX.adr rDOUBT_RAW] ∧ (t0 + 100000000 < 2 ^ 64 → t0 + 100000000 ≤ mono t)) ∧
  (∀ (s : State),
    s.rad.biasOn = true →
    Answers (exec .antShort s) fun t => t.rad.biasOn = false ∧ t.rad.shortAt = mono s ∧
      get t pGRX fGRX_ANT_STAT_STATE = 2 ∧ intRaw t pGRX 0 = true ∧ doubts t pGRX 0 = true ∧
      doubts t pGRX 1 = false ∧ rdN t pGRX rGRX_SHORT_CNT = min (rdN s pGRX rGRX_SHORT_CNT + 1) 0xFFFFFFFF) ∧
  (∀ (s : State),
    get s pGRX fGRX_ANT_STAT_STATE = 2 → get s pGRX fGRX_ANT_CFG_RETRY ≠ 0 → biasWanted s = true →
    Answers (exec .antRetry s) fun t => t.rad.biasOn = true ∧ t.rad.biasFrom = mono t ∧
      get t pGRX fGRX_ANT_STAT_STATE = 1 ∧ flag t pGRX fGRX_ANT_STAT_RAMP = true ∧
      OtherRegs s t [pGRX.adr rGRX_ANT_STAT]) ∧
  (∀ (s : State),
    s.rad.biasOn = true → doubts s pGRX 0 = true →
    Answers (exec .antOk s) fun t => doubts t pGRX 0 = false ∧ intRaw t pGRX 2 = true ∧
      OtherRegs s t [pGRX.adr rINT_RAW, pGRX.adr rDOUBT_RAW]) ∧
  (∀ (ma : Nat) (s : State),
    s.rad.biasOn = true → ma < get s pGRX fGRX_ANT_CFG_OPEN_MA →
    Answers (exec (.antOpen ma) s) fun t => doubts t pGRX 1 = true ∧ intRaw t pGRX 1 = true ∧
      get t pGRX fGRX_ANT_STAT_STATE = 3 ∧ t.rad.biasOn = true) ∧
  (∀ (ma : Nat) (s : State),
    s.rad.biasOn = true → get s pGRX fGRX_ANT_CFG_OPEN_MA ≤ ma → doubts s pGRX 1 = true →
    Answers (exec (.antOpenClear ma) s) fun t => doubts t pGRX 1 = false ∧ get t pGRX fGRX_ANT_STAT_STATE = 1 ∧
      OtherRegs s t [pGRX.adr rGRX_ANT_STAT, pGRX.adr rDOUBT_RAW])

/-- Rows ACQ_PUSH, ACQ_FLUSH, ACQ_JOB_START, ACQ_CAPTURE_DONE, ACQ_PASS_DONE and ACQ_RES_READ. A push queues the job
words, or sets INT_RAW[4] where 16 jobs wait; a flush empties the queue and marks the running job; the oldest job starts,
or is refused with a result that says so; a flushed job ends at its next pass, a search below the threshold ends with a
result that is no detection; a read takes the oldest result. -/
def Obligations.AcquisitionJobs : Prop :=
  (∀ (r : Requester) (v : Word) (s : State),
    writable s r pACQ = true → fACQ_CTRL_FLUSH.of v.toNat = 0 → fACQ_CTRL_PUSH.of v.toNat = 1 →
    Answers (exec (.acqPush r v) s) fun t =>
      (s.rad.jobs.length < 16 → t.rad.jobs = s.rad.jobs ++ [⟨rdN s pACQ (rACQ_JOB 0), rdN s pACQ (rACQ_JOB 1),
          rdN s pACQ (rACQ_JOB 2), rdN s pACQ (rACQ_JOB 3), false⟩] ∧
        get t pACQ fACQ_STAT_JOBQ = s.rad.jobs.length + 1 ∧ OtherRegs s t [pACQ.adr rACQ_STAT]) ∧
      (16 ≤ s.rad.jobs.length → t.rad = s.rad ∧ intRaw t pACQ 4 = true ∧ OtherRegs s t [pACQ.adr rINT_RAW])) ∧
  (∀ (r : Requester) (v : Word) (s : State),
    writable s r pACQ = true → fACQ_CTRL_FLUSH.of v.toNat = 1 → fACQ_CTRL_PUSH.of v.toNat = 0 →
    Answers (exec (.acqFlush r v) s) fun t => t.rad.jobs = [] ∧ get t pACQ fACQ_STAT_JOBQ = 0 ∧
      t.rad.run = (s.rad.run.map fun x => { x with abort := true }) ∧ OtherRegs s t [pACQ.adr rACQ_STAT]) ∧
  (∀ (j : AcqJob) (rest : List AcqJob) (s : State),
    pageEn s pACQ = true → s.rad.run = none → s.rad.jobs = j :: rest → jobWaits s j = false →
    jobRefused s j = false →
    Answers (exec .acqJobStart s) fun t => t.rad.jobs = rest ∧ (t.rad.run.map fun x => x.job) = some j ∧
      flag t pACQ fACQ_STAT_BUSY = true ∧ flag t pACQ fACQ_STAT_AUTO_ACTIVE = j.auto ∧ t.rad.results = s.rad.results) ∧
  (∀ (j : AcqJob) (rest : List AcqJob) (s : State),
    pageEn s pACQ = true → s.rad.run = none → s.rad.jobs = j :: rest → jobWaits s j = false →
    jobRefused s j = true → s.rad.results.length < 64 →
    Answers (exec .acqJobStart s) fun t => t.rad.jobs = rest ∧ t.rad.run = none ∧
      t.rad.results = s.rad.results ++ [[resHead j + 0x100000, 0, 0, 0, 0]] ∧
      rdN t pACQ rACQ_JOB_CNT = min (rdN s pACQ rACQ_JOB_CNT + 1) 0xFFFFFFFF ∧ intRaw t pACQ 1 = true) ∧
  (∀ (x : AcqRun) (s : State),
    s.rad.run = some x → x.captured = false →
    Answers (exec .acqCaptureDone s) fun t => t.rad.run = some { x with captured := true } ∧ t.regs = s.regs) ∧
  (∀ (x : AcqRun) (stat : Nat) (dopp : Int) (code cn0 : Nat) (s : State),
    s.rad.run = some x → x.captured = true →
    Answers (exec (.acqPassDone stat dopp code cn0) s) fun t =>
      (x.abort = true → t.rad.run = none ∧ flag t pACQ fACQ_STAT_BUSY = false ∧ t.rad.results = s.rad.results) ∧
      (x.abort = false → x.done + 1 < x.passes → t.rad.run = some { x with done := x.done + 1 }) ∧
      (x.abort = false → x.passes ≤ x.done + 1 → x.verify = false → stat < get s pACQ fACQ_THRESH_DET →
        s.rad.results.length < 64 → t.rad.run = none ∧ t.rad.results.length = s.rad.results.length + 1 ∧
          intRaw t pACQ 1 = true ∧ intRaw t pACQ 0 = intRaw s pACQ 0 ∧
          rdN t pACQ rACQ_JOB_CNT = min (rdN s pACQ rACQ_JOB_CNT + 1) 0xFFFFFFFF)) ∧
  (∀ (r : Requester) (w : List Nat) (rest : List (List Nat)) (s : State),
    readable s pACQ = true → s.rad.results = w :: rest → w.length = 5 →
    Answers (exec (.acqResRead r) s) fun t => t.rad.results = rest ∧ t.lastRead = BitVec.ofNat 64 (ix w 0 0) ∧
      (∀ k : Fin 5, rdN t pACQ (rACQ_RES k) = ix w k 0 % 2 ^ 32))

/-- Rows SNP_ARM, SNP_CANCEL, SNP_HOLD, SNP_RELEASE, SNP_AUTO_ARM, SNP_WINDOW_OPEN, SNP_CAPTURE_START, SNP_CAPTURE_END
and PLL_UNLOCK. A capture is armed for its target with INT_RAW[2], or refused with the lowest reason and INT_RAW[3]; the
window turns the front end on; the first sample shows CAPTURING; the end leaves the slot FULL with its length, counted,
with INT_RAW[0]; a capture that loses lock or is cancelled ends BAD with the samples the command carries. -/
def Obligations.Snapshots : Prop :=
  (∀ (r : Requester) (v : Word) (s : State),
    writable s r pSNP = true → fSNP_CTRL_ARM.of v.toNat = 1 → fSNP_CTRL_CANCEL.of v.toNat = 0 →
    fSNP_CTRL_HOLD.of v.toNat = 0 → fSNP_CTRL_RELEASE.of v.toNat = 0 →
    let slot := get s pSNP fSNP_ARM_CFG_SLOT
    let len := get s pSNP fSNP_ARM_CFG_LEN_MS
    let target : PC64 := BitVec.ofNat 64 (rd64 s pSNP rSNP_AT_LO rSNP_AT_HI)
    Answers (exec (.snpArm r v) s) fun t =>
      (armRefusal s slot len target false = 0 →
        t.rad.arm = some ⟨slot, len, target, false, get s pSNP (fSNP_SLOT_STAT_STATE slot), none⟩ ∧
        flag t pSNP fSNP_STAT_ARMED = true ∧ get t pSNP (fSNP_SLOT_STAT_STATE slot) = 1 ∧ intRaw t pSNP 2 = true) ∧
      (armRefusal s slot len target false ≠ 0 → t.rad = s.rad ∧ intRaw t pSNP 3 = true ∧
        get t pSNP fSNP_STAT_REASON = armRefusal s slot len target false)) ∧
  (∀ (r : Requester) (v : Word) (taken : List Byte) (a : SnapArm) (s : State),
    writable s r pSNP = true → fSNP_CTRL_CANCEL.of v.toNat = 1 → fSNP_CTRL_ARM.of v.toNat = 0 →
    s.rad.arm = some a → a.slot < 2 →
    Answers (exec (.snpCancel r v taken) s) fun t => t.rad.arm = none ∧ flag t pSNP fSNP_STAT_ARMED = false ∧
      flag t pSNP fSNP_STAT_CAPTURING = false ∧
      (a.first = none → a.was < 4 → get t pSNP (fSNP_SLOT_STAT_STATE a.slot) = a.was) ∧
      (a.first ≠ none → get t pSNP (fSNP_SLOT_STAT_STATE a.slot) = 3 ∧
        flag t pSNP (fSNP_SLOT_STAT_BAD a.slot) = true ∧ intRaw t pSNP 1 = true)) ∧
  (∀ (r : Requester) (v : Word) (s : State),
    writable s r pSNP = true → fSNP_CTRL_CANCEL.of v.toNat = 0 → fSNP_CTRL_ARM.of v.toNat = 0 →
    fSNP_CTRL_RELEASE.of v.toNat = 0 →
    Answers (exec (.snpHold r v) s) fun t => t.rad = s.rad ∧ ∀ k : Fin 2,
      flag t pSNP (fSNP_SLOT_STAT_HOLD k) = (flag s pSNP (fSNP_SLOT_STAT_HOLD k) || bitOf (fSNP_CTRL_HOLD.of v.toNat) k)) ∧
  (∀ (r : Requester) (v : Word) (s : State),
    writable s r pSNP = true → fSNP_CTRL_CANCEL.of v.toNat = 0 → fSNP_CTRL_ARM.of v.toNat = 0 →
    fSNP_CTRL_HOLD.of v.toNat = 0 →
    Answers (exec (.snpRelease r v) s) fun t => t.rad = s.rad ∧ ∀ k : Fin 2,
      flag t pSNP (fSNP_SLOT_STAT_HOLD k) =
        (flag s pSNP (fSNP_SLOT_STAT_HOLD k) && !bitOf (fSNP_CTRL_RELEASE.of v.toNat) k)) ∧
  (∀ (s : State),
    pageEn s pSNP = true → flag s pSNP fSNP_CFG_AUTO = true → s.rad.arm = none → feat s 7 = true →
    slotBusy s 0 = false → slotBusy s 1 = false → 0 < get s pSNP fSNP_CFG_LEN_MS →
    get s pSNP fSNP_CFG_LEN_MS ≤ 64 → flag s pOVN fOVN_STAT_BACKUP = false →
    Answers (exec .snpAutoArm s) fun t => (t.rad.arm.map fun a => (a.auto, a.len, a.slot)) =
        some (true, get s pSNP fSNP_CFG_LEN_MS, get s pSNP fSNP_STAT_NEXT_SLOT) ∧
      flag t pSNP fSNP_STAT_ARMED = true ∧ intRaw t pSNP 2 = true) ∧
  (∀ (a : SnapArm) (s : State),
    s.rad.arm = some a → a.first = none → gfOn s = false → domOn s domGB = true →
    Answers (exec .snpWindowOpen s) fun t => t.rad.window = true ∧ gfOn t = true ∧
      flag t pGRX fGRX_STAT_WARMUP = true ∧ domOn t domGF = true ∧ t.rad.arm = some a) ∧
  (∀ (late : Nat) (a : SnapArm) (s : State),
    s.rad.arm = some a → a.first = none → a.slot < 2 → samplesFlow s = true →
    Answers (exec (.snpCaptureStart late) s) fun t => (t.rad.arm.map fun x => x.first.isSome) = some true ∧
      flag t pSNP fSNP_STAT_ARMED = false ∧ flag t pSNP fSNP_STAT_CAPTURING = true ∧
      get t pSNP (fSNP_SLOT_STAT_STATE a.slot) = 2 ∧ flag t pSNP (fSNP_SLOT_STAT_BAD a.slot) = false ∧
      t.rad.agcHeld = flag s pSNP fSNP_CFG_AGC_HOLD) ∧
  (∀ (samples : List Byte) (a : SnapArm) (pc : PC64) (s : State),
    s.rad.arm = some a → a.first = some pc → a.slot < 2 → a.len ≤ 64 →
    Answers (exec (.snpCaptureEnd samples) s) fun t => t.rad.arm = none ∧ flag t pSNP fSNP_STAT_CAPTURING = false ∧
      get t pSNP (fSNP_SLOT_STAT_STATE a.slot) = 3 ∧ flag t pSNP (fSNP_SLOT_STAT_BAD a.slot) = false ∧
      get t pSNP (fSNP_SLOT_STAT_LEN_MS a.slot) = a.len ∧ intRaw t pSNP 0 = true ∧
      rdN t pSNP rSNP_CAP_CNT = min (rdN s pSNP rSNP_CAP_CNT + 1) 0xFFFFFFFF ∧ intRaw t pSNP 1 = intRaw s pSNP 1) ∧
  (∀ (taken : List Byte) (s : State),
    gfOn s = true → flag s pGRX fGRX_STAT_PLL_LOCK = true →
    Answers (exec (.pllUnlock taken) s) fun t => (s.rad.arm = none → flag t pGRX fGRX_STAT_PLL_LOCK = false ∧
        doubts t pGRX 2 = true ∧ intRaw t pGRX 3 = true ∧
        OtherRegs s t [pGRX.adr rGRX_STAT, pGRX.adr rINT_RAW, pGRX.adr rDOUBT_RAW]) ∧
      (∀ a ∈ s.rad.arm, a.first ≠ none → a.slot < 2 → t.rad.arm = none ∧ flag t pSNP (fSNP_SLOT_STAT_BAD a.slot) = true))

/-- Rows SCH_PULLIN_END, SCH_BIT_SYNC, SCH_LOST, SCH_SLIP and CH_RELEASE: a channel in PULLIN enters LOCK, or returns to
IDLE; one in LOCK enters SYNC with INT_RAW[0]; a lost one returns to IDLE and is counted; a slip is counted and marks the
next measurement; a write of RELEASE sends any channel to IDLE. A channel in IDLE holds no signal. -/
def Obligations.SurveyChannels : Prop :=
  (∀ (ch : Fin 64) (x : Chan) (s : State),
    chan? s ch = some x → x.st = 1 →
    Answers (exec (.schPullinEnd ch true) s) fun t => chanSt t ch = 2 ∧ get t (pCH ch) fSCH_STAT_STATE = 2 ∧
      flag t (pCH ch) fSCH_STAT_PLI_OK = true ∧ OtherRegs s t [(pCH ch).adr rSCH_STAT]) ∧
  (∀ (ch : Fin 64) (x : Chan) (s : State),
    chan? s ch = some x → x.st = 1 →
    Answers (exec (.schPullinEnd ch false) s) fun t => chan? t ch = none ∧ rdN t (pCH ch) rSCH_STAT = 0 ∧
      flag t (pCH ch) fSCH_ID_HOLDS = false) ∧
  (∀ (ch : Fin 64) (x : Chan) (s : State),
    chan? s ch = some x → x.st = 2 →
    Answers (exec (.schBitSync ch) s) fun t => chanSt t ch = 3 ∧ get t (pCH ch) fSCH_STAT_STATE = 3 ∧
      intRaw t (pCH ch) 0 = true ∧ (x.sys = 1 → flag t (pCH ch) fSCH_STAT_SC_SYNC = true) ∧
      OtherRegs s t [(pCH ch).adr rSCH_STAT, (pCH ch).adr rINT_RAW]) ∧
  (∀ (ch : Fin 64) (s : State),
    (chanSt s ch = 2 ∨ chanSt s ch = 3) →
    Answers (exec (.schLost ch) s) fun t => chan? t ch = none ∧ intRaw t (pCH ch) 1 = true ∧
      rdN t pTRK rTRK_LOST_CNT = min (rdN s pTRK rTRK_LOST_CNT + 1) 0xFFFFFFFF ∧
      (∀ c : Fin 80, c.val ≠ ch.val → chan? t c = chan? s c)) ∧
  (∀ (ch : Fin 64) (s : State),
    (chanSt s ch = 2 ∨ chanSt s ch = 3) →
    Answers (exec (.schSlip ch) s) fun t => (chan? t ch).map (fun x => x.slip) = some true ∧
      intRaw t (pCH ch) 2 = true ∧
      rdN t (pCH ch) rSCH_SLIP_CNT = min (rdN s (pCH ch) rSCH_SLIP_CNT + 1) 0xFFFFFFFF ∧ chanSt t ch = chanSt s ch ∧
      OtherRegs s t [(pCH ch).adr rSCH_SLIP_CNT, (pCH ch).adr rINT_RAW]) ∧
  (∀ (r : Requester) (ch : Fin 80) (v : Word) (s : State),
    writable s r (pCH ch) = true → fSCH_CTRL_RELEASE.of v.toNat = 1 →
    Answers (exec (.chRelease r ch v) s) fun t => chan? t ch = none ∧ rdN t (pCH ch) rSCH_STAT = 0 ∧
      (∀ c : Fin 80, c ≠ ch → chan? t c = chan? s c))

/-- Rows TRK_PROMOTE_GO, TRK_MOVE, TCH_BOUNDARY, TCH_DUMP, TCH_DUMP_READ, TCH_COMMIT, TCH_STALE, SHAPE_CHECK and
TRK_EPOCH. A move is pending, or refused with its reason and INT_RAW[2]; at the boundary the destination holds the signal
and the source is IDLE; a boundary numbers the next interval; a dump lands in slot k mod 8 of the ring; a read sets READ; a
commit is staged and ends STALE; the shape monitor shows what it finds; an epoch counts, at a TAI second. -/
def Obligations.TimingChannels : Prop :=
  (∀ (r : Requester) (v : Word) (s : State),
    writable s r pTRK = true → fTRK_PROMOTE_GO.of v.toNat = 1 →
    let src := fTRK_PROMOTE_SRC.of v.toNat
    let dst := fTRK_PROMOTE_DST.of v.toNat
    let dem := fTRK_PROMOTE_DIR.of v.toNat == 1
    Answers (exec (.trkPromoteGo r v) s) fun t =>
      (moveRefusal s src dst dem = 0 → t.rad.move = some (src, dst, dem) ∧ flag t pTRK fTRK_PROMOTE_STAT_PEND = true ∧
        flag t pTRK fTRK_PROMOTE_STAT_REJ = false) ∧
      (moveRefusal s src dst dem ≠ 0 → t.rad = s.rad ∧ flag t pTRK fTRK_PROMOTE_STAT_REJ = true ∧
        get t pTRK fTRK_PROMOTE_STAT_REASON = moveRefusal s src dst dem ∧ intRaw t pTRK 2 = true)) ∧
  (∀ (pc : PC64) (car code : Word) (src dst : Fin 80) (b : Bool) (x : Chan) (s : State),
    s.rad.move = some (src.val, dst.val, b) → chan? s src = some x → src ≠ dst →
    Answers (exec (.trkMove pc car code) s) fun t => t.rad.move = none ∧ chan? t src = none ∧
      (chan? t dst).map (fun y => (y.sys, y.prn, y.st)) = some (x.sys, x.prn, 3) ∧
      flag t pTRK fTRK_PROMOTE_STAT_PEND = false ∧ intRaw t pTRK 1 = true ∧
      rdN t pTRK rTRK_PROMOTE_CNT = min (rdN s pTRK rTRK_PROMOTE_CNT + 1) 0xFFFFFFFF ∧
      (64 ≤ dst.val → rdN t (pCH dst) rTCH_CAR_NOW = car.toNat ∧ rdN t (pCH dst) rTCH_CODE_NOW = code.toNat)) ∧
  (∀ (ch : Fin 16) (pc : PC64) (edge : Bool) (phase : Word) (x : Chan) (s : State),
    chan? s (64 + ch) = some x → x.commit = none →
    Answers (exec (.tchBoundary ch pc edge phase) s) fun t =>
      (chan? t (64 + ch)).map (fun y => (y.seq, y.b, y.edge, y.phase, y.quiet)) =
        some (if x.b.isSome then (x.seq + 1) % 0x10000 else 0, some pc, edge, phase.toNat, x.quiet + 1) ∧
      (x.b.isSome = true → (chan? t (64 + ch)).bind (fun y => y.dump.map fun h => (h.seq, some h.b)) =
        some (x.seq, x.b)) ∧ t.regs = s.regs) ∧
  (∀ (ch : Fin 16) (taps : List (Int × Int)) (noise : Int × Int) (x : Chan) (h : DumpHead) (s : State),
    chan? s (64 + ch) = some x → x.dump = some h →
    Answers (exec (.tchDump ch taps noise) s) fun t =>
      (chan? t (64 + ch)).map (fun y => (y.dump, y.dumps)) = some (none, x.dumps + 1) ∧
      rdN t (pCH (64 + ch)) rTCH_DUMP_SEQ = h.seq % 2 ^ 32 ∧ intRaw t (pCH (64 + ch)) 0 = true ∧
      (∀ k : Fin 32, rdN t (pCH (64 + ch)) (dumpSlot h.seq + 4 * k) = ix (dumpWords h taps noise) k 0 % 2 ^ 32)) ∧
  (∀ (r : Requester) (ch : Fin 16) (k : Fin 8) (s : State),
    readable s (pTCH ch) = true →
    Answers (exec (.tchDumpRead r ch k) s) fun t => t.lastRead = BitVec.ofNat 64 (rdN s (pTCH ch) (dumpSlot k)) ∧
      rdN t (pTCH ch) (dumpSlot k) = setBit (rdN s (pTCH ch) (dumpSlot k)) 16 true ∧
      OtherRegs s t [(pTCH ch).adr (dumpSlot k)]) ∧
  (∀ (r : Requester) (ch : Fin 16) (v : Word) (x : Chan) (s : State),
    writable s r (pTCH ch) = true → fSCH_CTRL_RELEASE.of v.toNat = 0 → fTCH_CTRL_COMMIT.of v.toNat = 1 →
    chan? s (64 + ch) = some x →
    Answers (exec (.tchCommit r ch v) s) fun t => flag t (pTCH ch) fTCH_STAT_STALE = false ∧
      (chan? t (64 + ch)).map (fun y => (y.quiet, y.commit)) = some (0, some (rdN s (pTCH ch) rTCH_CAR_FCW,
        rdN s (pTCH ch) rTCH_CODE_FCW, get s (pTCH ch) fTCH_CAR_DPH_STEP, rdN s (pTCH ch) rTCH_CODE_DPH,
        fTCH_CTRL_FOR_SEQ.of v.toNat)) ∧ OtherRegs s t [(pTCH ch).adr rTCH_STAT]) ∧
  (∀ (ch : Fin 16) (x : Chan) (s : State),
    chan? s (64 + ch) = some x → orD (get s pTRK fTRK_CFG_STALE_MS) 1 ≤ x.quiet →
    Answers (exec (.tchStale ch) s) fun t => flag t (pTCH ch) fTCH_STAT_STALE = true ∧
      OtherRegs s t [(pTCH ch).adr rTCH_STAT] ∧ t.rad = s.rad) ∧
  (∀ (ch : Fin 16) (dev : Nat) (pair : Fin 5) (x : Chan) (s : State),
    chan? s (64 + ch) = some x → flag s pTRK fTRK_CFG_SHAPE_EN = true →
    Answers (exec (.shapeCheck ch dev pair) s) fun t =>
      rdN t (pTCH ch) rTCH_SHAPE_DEV = min dev 0xFFFF + pair.val * 0x10000 ∧
      (get s pTRK fTRK_SHAPE_LIMIT < dev → orD (get s pTRK fTRK_SHAPE_SEC) 1 ≤ x.badSec + 1 →
        flag t (pTCH ch) fTCH_STAT_SHAPE = true) ∧
      (dev ≤ get s pTRK fTRK_SHAPE_LIMIT → flag t (pTCH ch) fTCH_STAT_SHAPE = false) ∧
      (chan? t (64 + ch)).map (fun y => y.badSec) = some (if get s pTRK fTRK_SHAPE_LIMIT < dev then x.badSec + 1 else 0)) ∧
  (∀ (meas : List Meas) (s : State),
    pageEn s pTRK = true →
    Answers (exec (.trkEpoch meas) s) fun t => intRaw t pTRK 0 = true ∧
      rdN t pTRK rTRK_EPOCH_SEQ = (rdN s pTRK rTRK_EPOCH_SEQ + 1) % 2 ^ 32 ∧
      (∀ c : Fin 80, chan? s c = none → flag t (pCH c) fSCH_MEAS_STAT_VALID = false))

/-- Rows NAV_SUBFRAME, INAV_PAGE, NAV_RD_IDX_WRITE, SOL_SUBMIT and POS_SIG_WRITE. A subframe whose ten words pass is
written to the ring's next slot, which advances, with INT_RAW[0]; an even page part is kept, and the odd part that follows
takes page sync; a write of RD_IDX frees slots; a submission is accepted once for its epoch, or refused with the lowest
reason that applies; a write of POS_SIG puts the position in force or withdraws it. -/
def Obligations.NavigationData : Prop :=
  (∀ (ch : Fin 80) (first : PC64) (inv : Bool) (words : List (Nat × Bool)) (x : Chan) (s : State),
    chan? s ch = some x → pageEn s pNAV = true → flag s pNAV fNAV_CFG_LNAV_EN = true → x.st = 3 → x.sys ≠ 1 →
    flag s (pCH ch) fSCH_STAT_NAVSYNC = true → words.length = 10 → (∀ w ∈ words, w.2 = true) → navLevel s ≠ 47 →
    get s pNAV fNAV_WR_IDX_IDX < 48 → pageEn s pINT = false →
    Answers (exec (.navSubframe ch first inv true words) s) fun t =>
      get t pNAV fNAV_WR_IDX_IDX = (get s pNAV fNAV_WR_IDX_IDX + 1) % 48 ∧ intRaw t pNAV 0 = true ∧
      rdN t pNAV rNAV_PAR_FAIL_CNT = rdN s pNAV rNAV_PAR_FAIL_CNT ∧
      (∀ k : Fin 10, rdN t pNAV (0x400 + 0x40 * get s pNAV fNAV_WR_IDX_IDX + 12 + 4 * k) =
        (ix words k (0, false)).1 % 0x40000000 + 0x40000000)) ∧
  (∀ (ch : Fin 80) (first : PC64) (odd crc tail : Bool) (bits : List Nat) (cor : Nat) (x : Chan) (s : State),
    chan? s ch = some x → pageEn s pNAV = true → flag s pNAV fNAV_CFG_INAV_EN = true → x.st = 3 → x.sys = 1 →
    Answers (exec (.inavPage ch first odd bits crc tail cor) s) fun t =>
      (odd = false → t.regs = s.regs ∧ (chan? t ch).map (fun y => y.even) = some (some (bits, first))) ∧
      (odd = true → (chan? t ch).map (fun y => y.even) = some none ∧
        ∀ e ∈ x.even, apartMs e.2 first 1000 = true → crc = true →
          (flag s (pCH ch) fSCH_STAT_NAVSYNC = false → intRaw t pNAV 4 = true) ∧
          flag t (pCH ch) fSCH_STAT_NAVSYNC = true ∧ rdN t pNAV rNAV_CRC_FAIL_CNT = rdN s pNAV rNAV_CRC_FAIL_CNT)) ∧
  (∀ (r : Requester) (v : Word) (s : State),
    writable s r pNAV = true →
    Answers (exec (.navRdIdxWrite r v) s) fun t => get t pNAV fNAV_STAT_LVL = navLevel t ∧
      rdN t pNAV rNAV_RD_IDX = (if 47 < fNAV_RD_IDX_IDX.of v.toNat then 0 else fNAV_RD_IDX_IDX.of v.toNat) ∧
      OtherRegs s t [pNAV.adr rNAV_RD_IDX, pNAV.adr rNAV_STAT]) ∧
  (∀ (r : Requester) (v : Word) (s : State),
    writable s r pNAV = true → fNAV_SOL_CMD_SUBMIT.of v.toNat = 1 → solRefusal s ≠ 0 →
    Answers (exec (.solSubmit r v) s) fun t => rdN t pNAV rNAV_SOL_STAT = 2 + solRefusal s * 16 ∧
      rdN t pNAV rNAV_SOL_REJ_CNT = min (rdN s pNAV rNAV_SOL_REJ_CNT + 1) 0xFFFFFFFF ∧ intRaw t pNAV 3 = true ∧
      t.rad = s.rad ∧
      OtherRegs s t [pNAV.adr rNAV_SOL_STAT, pNAV.adr rNAV_SOL_REJ_CNT, pNAV.adr rINT_RAW]) ∧
  (∀ (r : Requester) (v : Word) (s : State),
    writable s r pNAV = true → fNAV_SOL_CMD_SUBMIT.of v.toNat = 1 → solRefusal s = 0 →
    Answers (exec (.solSubmit r v) s) fun t => rdN t pNAV rNAV_SOL_STAT = 1 ∧
      rdN t pNAV rNAV_SOL_ACC_CNT = min (rdN s pNAV rNAV_SOL_ACC_CNT + 1) 0xFFFFFFFF ∧ intRaw t pNAV 2 = true ∧
      t.rad.solved = some (rdN s pNAV rNAV_SOL_EPOCH) ∧
      (pageEn s pINT = false →
        rdN t pINT rINTM_WITHHELD_CNT = min (rdN s pINT rINTM_WITHHELD_CNT + 1) 0xFFFFFFFF ∧ t.dsc = s.dsc)) ∧
  (∀ (r : Requester) (v : Word) (s : State),
    writable s r pNAV = true →
    Answers (exec (.posSigWrite r v) s) fun t =>
      flag t pNAV fNAV_POS_SIG_VALID = (fNAV_POS_SIG_VALID.of v.toNat == 1) ∧
      get t pNAV fNAV_POS_SIG_CM = fNAV_POS_SIG_CM.of v.toNat ∧
      t.rad.pos = (if fNAV_POS_SIG_VALID.of v.toNat = 1 then some (rdN s pNAV rNAV_POS_X, rdN s pNAV rNAV_POS_Y,
        rdN s pNAV rNAV_POS_Z, fNAV_POS_SIG_CM.of v.toNat) else none) ∧ OtherRegs s t [pNAV.adr rNAV_POS_SIG])

/-- Rows INT_VIEW_RX, VIEW_STALE, INT_SECOND_CHECK, EXCL_SET, EXCL_CLR, EXCL_EXPIRE, FORCE_SUSPECT, INT_CLEAR and
SUSPECT_CLEARED. The view is the one the Timebase sent last; an exclusion stands from its command, with INT_RAW[0] and its
count, to its end; more exclusions than EXCL_MAX are a cause; a cause raises SUSPECT, its doubt, its count and INT_RAW[1];
SUSPECT clears with INT_RAW[2], by hand where CLEAR is manual. -/
def Obligations.IntegrityMonitor : Prop :=
  (∀ (s : State),
    pageOn s pINT = true →
    Answers (exec .intViewRx s) fun t => t.rad.mon.view = some (s.dsc.view, mono s) ∧
      get t pINT fINTM_VIEW_AGE_MS = 0 ∧ flag t pINT fINTM_STAT_VIEW_STALE = false ∧
      OtherRegs s t [pINT.adr rINTM_VIEW, pINT.adr rINTM_STAT]) ∧
  (∀ (s : State),
    pageOn s pINT = true →
    Answers (exec .viewStale s) fun t => flag t pINT fINTM_STAT_VIEW_STALE = true ∧
      (s.rad.mon.view = none → get t pINT fINTM_VIEW_AGE_MS = 0xFFFF) ∧
      OtherRegs s t [pINT.adr rINTM_VIEW, pINT.adr rINTM_STAT]) ∧
  (∀ (s : State),
    pageEn s pINT = true → pageOn s pINT = true →
    Answers (exec .intSecondCheck s) fun t =>
      causeOn t 6 = decide (get s pINT fINTM_EXCL_CFG_EXCL_MAX < s.rad.mon.excl.length) ∧ t.rad.mon.excl = s.rad.mon.excl) ∧
  (∀ (sys : Fin 4) (prn : Nat) (s : State),
    isExcluded s sys prn = true →
    Answers (exec (.exclExpire sys prn) s) fun t => isExcluded t sys prn = false ∧
      (∀ y : Fin 4, ∀ p : Fin 64, y ≠ sys ∨ p.val ≠ prn → isExcluded t y p = isExcluded s y p)) ∧
  (∀ (r : Requester) (v : Word) (s : State),
    writable s r pINT = true → fINTM_EXCL_CMD_SET.of v.toNat = 1 →
    Answers (exec (.exclSet r v) s) fun t =>
      isExcluded t (fINTM_EXCL_CMD_SYS.of v.toNat) (fINTM_EXCL_CMD_PRN.of v.toNat) = true ∧
      (isExcluded s (fINTM_EXCL_CMD_SYS.of v.toNat) (fINTM_EXCL_CMD_PRN.of v.toNat) = false →
        intRaw t pINT 0 = true ∧ rdN t pINT rINTM_EXCL_CNT = min (rdN s pINT rINTM_EXCL_CNT + 1) 0xFFFFFFFF)) ∧
  (∀ (r : Requester) (v : Word) (s : State),
    writable s r pINT = true → fINTM_EXCL_CMD_SET.of v.toNat = 0 → fINTM_EXCL_CMD_CLR.of v.toNat = 1 →
    Answers (exec (.exclClr r v) s) fun t =>
      isExcluded t (fINTM_EXCL_CMD_SYS.of v.toNat) (fINTM_EXCL_CMD_PRN.of v.toNat) = false) ∧
  (∀ (r : Requester) (v : Word) (s : State),
    writable s r pINT = true → fINTM_CTRL_FORCE_SUSPECT.of v.toNat = 1 →
    Answers (exec (.forceSuspect r v) s) fun t => causeOn t 7 = true ∧ (causeOn s 7 = false → suspect t = true ∧
      doubts t pINT 0 = true ∧ intRaw t pINT 1 = true ∧ bitOf (rdN t pINT rINTM_CAUSE_SEEN) 7 = true ∧
      rdN t pINT rINTM_SUSPECT_CNT = min (rdN s pINT rINTM_SUSPECT_CNT + 1) 0xFFFFFFFF)) ∧
  (∀ (r : Requester) (v : Word) (s : State),
    writable s r pINT = true → fINTM_CTRL_CLEAR.of v.toNat = 1 → fINTM_CTRL_FORCE_SUSPECT.of v.toNat = 0 →
    Answers (exec (.intClear r v) s) fun t => causeOn t 7 = false ∧
      (suspect s = true → flag s pINT fINTM_CFG_CLEAR_MANUAL = true → clearDue s = true →
        suspect t = false ∧ doubts t pINT 0 = false ∧ intRaw t pINT 2 = true)) ∧
  (∀ (t0 : Nat) (s : State),
    s.rad.mon.quietFrom = some t0 → suspect s = true → pageEn s pINT = true →
    flag s pINT fINTM_CFG_CLEAR_MANUAL = false →
    Answers (exec .suspectCleared s) fun t => suspect t = false ∧ doubts t pINT 0 = false ∧ intRaw t pINT 2 = true ∧
      get t pINT fINTM_STAT_CLEAR_LEFT = 0)

/-- Rows ANS_TAB_READ, ANS_TAB_WRITE, ANS_TAB_DONE, SERVICE_VIEW_RX, ANS_VIEW and SAFE_LINE_CHANGE. A read brings the
entry to TAB_DATA; a write holds BUSY until it is done, and from then on the entry is in force; an index beyond its table
only sets ERR; the die takes the view of the latest servo update, shows when it is stale with INT_RAW[5], and takes the
safe-state line. -/
def Obligations.AnswerTablesAndView : Prop :=
  (∀ (r : Requester) (d : Fin 4) (idx : Fin 128) (s : State),
    writable s r (pANS d) = true → flag s (pANS d) fANS_TAB_CMD_BUSY = false →
    Answers (exec (.ansTabRead r d idx true) s) fun t => flag t (pANS d) fANS_TAB_CMD_ERR = false ∧
      (∀ k : Fin 5, rdN t (pANS d) (rANS_TAB_DATA k) = ix (addrEntry s d idx) k 0 % 2 ^ 32) ∧ t.ports = s.ports) ∧
  (∀ (r : Requester) (d : Fin 4) (idx : Fin 128) (s : State),
    writable s r (pANS d) = true → flag s (pANS d) fANS_TAB_CMD_BUSY = false → idx.val ≤ 63 →
    Answers (exec (.ansTabRead r d idx false) s) fun t => flag t (pANS d) fANS_TAB_CMD_ERR = false ∧
      rdN t (pANS d) (rANS_TAB_DATA 0) = vlanEntry s d idx % 2 ^ 32 ∧ t.ports = s.ports) ∧
  (∀ (r : Requester) (d : Fin 4) (idx : Fin 128) (s : State),
    writable s r (pANS d) = true → flag s (pANS d) fANS_TAB_CMD_BUSY = false → 63 < idx.val →
    Answers (exec (.ansTabRead r d idx false) s) fun t => flag t (pANS d) fANS_TAB_CMD_ERR = true ∧
      OtherRegs s t [(pANS d).adr rANS_TAB_CMD] ∧ t.ports = s.ports) ∧
  (∀ (r : Requester) (d : Fin 4) (idx : Fin 128) (addr : Bool) (s : State),
    Shaped s → writable s r (pANS d) = true → flag s (pANS d) fANS_TAB_CMD_BUSY = false →
    tabRefused idx addr = false →
    Answers (exec (.ansTabWrite r d idx addr) s) fun t => flag t (pANS d) fANS_TAB_CMD_BUSY = true ∧
      flag t (pANS d) fANS_TAB_CMD_ERR = false ∧ (pd t d).tabWait = some (addr, idx.val,
        (List.range (if addr then 5 else 1)).map fun k => rdN s (pANS d) (rANS_TAB_DATA k)) ∧
      OtherRegs s t [(pANS d).adr rANS_TAB_CMD]) ∧
  (∀ (d : Fin 4) (addr : Bool) (idx : Nat) (e : List Nat) (s : State),
    Shaped s → (pd s d).tabWait = some (addr, idx, e) →
    Answers (exec (.ansTabDone d) s) fun t => (pd t d).tabWait = none ∧ flag t (pANS d) fANS_TAB_CMD_BUSY = false ∧
      (addr = true → addrEntry t d idx = e) ∧ (addr = false → vlanEntry t d idx = ix e 0 0) ∧
      OtherRegs s t [(pANS d).adr rANS_TAB_CMD]) ∧
  (∀ (d : Fin 4) (s : State),
    Shaped s → pageOn s (pANS d) = true →
    Answers (exec (.serviceViewRx d) s) fun t => (pd t d).view = some (s.dsc.view, mono s) ∧
      flag t (pANS d) fANS_STAT_VIEW_STALE = false ∧ t.clk = s.clk) ∧
  (∀ (d : Fin 4) (v : View × Nat) (s : State),
    (pd s d).view = some v → flag s (pANS d) fANS_STAT_VIEW_STALE = false → pageOn s (pANS d) = true →
    Answers (exec (.ansView d) s) fun t => flag t (pANS d) fANS_STAT_VIEW_STALE = true ∧ intRaw t (pANS d) 5 = true) ∧
  (∀ (d : Fin 4) (driven : Bool) (s : State),
    Shaped s → pageOn s (pANS d) = true →
    Answers (exec (.safeLineChange d driven) s) fun t =>
      (pd t d).safe = (!driven || flag s pSAF fSAF_STAT_SAFE) ∧ t.clk = s.clk)

/-- Rows ANS_LANE_TAKE and NTS_SIV_DONE. A lane takes the next request of the queues: one that is too old is counted and
dropped; a silent die answers nothing; a plain request that no rate limit holds back is booked and its answer built. The SIV
engine finishes its oldest work: a NAK is counted with INT_RAW[5]; an NTS answer is built for its booking. -/
def Obligations.NtpAnswers : Prop :=
  (∀ (d : Fin 4) (i : Fin 8) (grid : Nat) (tbl : Bool) (q : NtpReq) (l : List NtpReq) (s : State),
    Shaped s → nextQueue s d = some i.val → (port s d i).queue = q :: l → q.bad = false → tooOld s d q = true →
    Answers (exec (.ansLaneTake d grid true tbl) s) fun t => (port t d i).queue = l ∧ (pd t d).rr = i ∧
      rdN t (pANS d) rANS_AGE_DROP_CNT = min (rdN s (pANS d) rANS_AGE_DROP_CNT + 1) 0xFFFFFFFF ∧
      OtherRegs s t [(pANS d).adr rANS_AGE_DROP_CNT]) ∧
  (∀ (d : Fin 4) (i : Fin 8) (grid : Nat) (tbl : Bool) (q : NtpReq) (l : List NtpReq) (s : State),
    Shaped s → nextQueue s d = some i.val → (port s d i).queue = q :: l → q.bad = false → tooOld s d q = false →
    ansForm s d = 3 →
    Answers (exec (.ansLaneTake d grid true tbl) s) fun t => (port t d i).queue = l ∧ (pd t d).rr = i ∧
      rdN t (pANS d) rANS_SILENT_CNT = min (rdN s (pANS d) rANS_SILENT_CNT + 1) 0xFFFFFFFF ∧
      OtherRegs s t [(pANS d).adr rANS_SILENT_CNT]) ∧
  (∀ (d : Fin 4) (i : Fin 8) (grid : Nat) (tbl : Bool) (q : NtpReq) (l : List NtpReq) (s : State),
    Shaped s → nextQueue s d = some i.val → (port s d i).queue = q :: l → q.bad = false → q.nts = false →
    tooOld s d q = false → ansForm s d ≠ 3 → perturbed s (4 + d) = false → (replica s (2 + d)).ofs = 0 →
    rateFree s d (rateClass s d q.v6 q.src) = true →
    bookWhy s d i (nowP s d) (nowP s d + get s (pANS d) fANS_LAUNCH_LEAD_PLAIN * 65536) grid false (ntpLen q 48) = 0 →
    Answers (exec (.ansLaneTake d grid true tbl) s) fun t => (port t d i).queue = l ∧ (pd t d).rr = i ∧
      (port t d i).books.length = (port s d i).books.length + 1 ∧
      (∃ b ∈ (port t d i).books, b.by'.policy = some 0 ∧ b.frame.isSome = true ∧
        nowP s d + get s (pANS d) fANS_LAUNCH_LEAD_PLAIN * 65536 ≤ b.l)) ∧
  (∀ (d : Fin 4) (i : Nat) (grid : Nat) (q : NtpReq) (l : List SivJob) (s : State),
    Shaped s → (pd s d).siv = .nak i q :: l →
    Answers (exec (.ntsSivDone d grid true) s) fun t => (pd t d).siv = l ∧ intRaw t (pSIV d) 5 = true ∧
      rdN t (pSIV d) rSIV_NAK_CNT = min (rdN s (pSIV d) rSIV_NAK_CNT + 1) 0xFFFFFFFF) ∧
  (∀ (d : Fin 4) (i : Fin 8) (grid : Nat) (l : List SivJob) (b : Booking) (q : NtpReq) (h : NtpHead) (w : NtsWork) (mk : MasterKey) (s : State),
    Shaped s → (pd s d).siv = .answer i b.no :: l → ((port s d i).books.find? fun x => x.no == b.no) = some b →
    b.by' = .nts q h w → b.late = false → mintKey s d = some mk →
    Answers (exec (.ntsSivDone d grid true) s) fun t => (pd t d).siv = l ∧
      (∃ x ∈ (port t d i).books, x.no = b.no ∧ x.l = b.l ∧ x.frame.isSome = true ∧ x.by'.policy = some 1))

/-- Rows TBL_FLUSH, FLUSH_DONE, SCRUB, TBL_TILE_END, SECRET_RETRY, PFX_READ, PFX_WRITE, SES_READ and SES_WRITE. A flush
empties the rate table and shows FLUSHING until it is done with INT_RAW[1]; a scrubber goes on to its next tile, and a tile
that fails loses its entries, is counted, and raises TBL_TILE with INT_RAW[30]; the key island gives both tables a secret;
prefix and session entries are read and written whole, at once (log entry 14). -/
def Obligations.DieTables : Prop :=
  (∀ (r : Requester) (d : Fin 4) (s : State),
    Shaped s → writable s r (pTBL d) = true →
    Answers (exec (.tblFlush r d) s) fun t => (pd t d).rate = [] ∧ (pd t d).flushing = true ∧
      flag t (pTBL d) fTBL_STAT_FLUSHING = true ∧ get t (pTBL d) fTBL_USED_CNT = 0 ∧
      OtherRegs s t [(pTBL d).adr rTBL_STAT, (pTBL d).adr rTBL_USED]) ∧
  (∀ (d : Fin 4) (s : State),
    Shaped s → (pd s d).flushing = true →
    Answers (exec (.flushDone d) s) fun t => (pd t d).flushing = false ∧ flag t (pTBL d) fTBL_STAT_FLUSHING = false ∧
      intRaw t (pTBL d) 1 = true ∧ OtherRegs s t [(pTBL d).adr rTBL_STAT, (pTBL d).adr rINT_RAW]) ∧
  (∀ (d : Fin 4) (s : State),
    Shaped s → pageOn s (pTBL d) = true → pageEn s (pTBL d) = true → get s (pTBL d) fTBL_SCRUB_INTERVAL ≠ 0 →
    (pd s d).rateBad.contains (pd s d).scrub = false →
    Answers (exec (.scrub d false true) s) fun t => (pd t d).rate = (pd s d).rate ∧
      ((pd s d).scrub + 1 < 32768 → (pd t d).scrub = (pd s d).scrub + 1 ∧ t.regs = s.regs) ∧
      (32768 ≤ (pd s d).scrub + 1 → (pd t d).scrub = 0 ∧ intRaw t (pTBL d) 0 = true ∧
        rdN t (pTBL d) rTBL_SCRUB_PASS_CNT = min (rdN s (pTBL d) rTBL_SCRUB_PASS_CNT + 1) 0xFFFFFFFF)) ∧
  (∀ (d : Fin 4) (s : State),
    Shaped s → pageOn s (pTBL d) = true → pageEn s (pTBL d) = true → get s (pTBL d) fTBL_SCRUB_INTERVAL ≠ 0 →
    Answers (exec (.scrub d false false) s) fun t => doubts t (pTBL d) 0 = true ∧ intRaw t (pTBL d) 30 = true ∧
      rdN t (pTBL d) rTBL_TILE_INV_CNT = min (rdN s (pTBL d) rTBL_TILE_INV_CNT + 1) 0xFFFFFFFF ∧
      rdN t (pAGE (4 + d)) rAGE_TILE_CNT = min (rdN s (pAGE (4 + d)) rAGE_TILE_CNT + 1) 0xFFFFFFFF ∧
      amGet? (2 * (pd s d).scrub) (pd t d).rate = none ∧ amGet? (2 * (pd s d).scrub + 1) (pd t d).rate = none) ∧
  (∀ (d : Fin 4) (s : State),
    Shaped s → pageOn s (pTBL d) = true → pageEn s (pTBL d) = true → get s (pTBL d) fTBL_SCRUB_INTERVAL ≠ 0 →
    flag s (pTBL d) fTBL_SES_CFG_SCRUB_EN = true →
    Answers (exec (.scrub d true false) s) fun t => doubts t (pTBL d) 8 = true ∧ intRaw t (pTBL d) 17 = true ∧
      amGet? ((pd s d).sesScrub / 2) (pd t d).ses = none ∧ (pd t d).sesScrub = ((pd s d).sesScrub + 1) % 8192) ∧
  (∀ (d : Fin 4) (ses : Bool) (s : State),
    doubts s (pTBL d) (if ses then 8 else 0) = true →
    Answers (exec (.tblTileEnd d ses) s) fun t => doubts t (pTBL d) (if ses then 8 else 0) = false ∧
      OtherRegs s t [(pTBL d).adr rDOUBT_RAW]) ∧
  (∀ (d : Fin 4) (s : State),
    Shaped s → pageOn s (pTBL d) = true → pageEn s (pTBL d) = true → islandSecret s = true →
    Answers (exec (.secretRetry d) s) fun t => (pd t d).rateKey.isSome = true ∧ (pd t d).sesKey.isSome = true ∧
      ((pd s d).sesKey = none → flag t (pTBL d) fTBL_STAT_KEY_READY = true) ∧
      OtherRegs s t [(pTBL d).adr rTBL_STAT]) ∧
  (∀ (r : Requester) (d : Fin 4) (idx : Fin 8) (s : State),
    writable s r (pTBL d) = true →
    Answers (exec (.pfxRead r d idx) s) fun t => rdN t (pTBL d) rTBL_PFX_CFG = ix (pfxEntry s d idx) 4 0 % 2 ^ 32 ∧
      (∀ k : Fin 4, rdN t (pTBL d) (rTBL_PFX_ADDR k) = ix (pfxEntry s d idx) k 0 % 2 ^ 32) ∧ t.ports = s.ports) ∧
  (∀ (r : Requester) (d : Fin 4) (idx : Fin 8) (s : State),
    Shaped s → writable s r (pTBL d) = true →
    Answers (exec (.pfxWrite r d idx) s) fun t => pfxEntry t d idx =
        (List.range 4).map (fun k => rdN s (pTBL d) (rTBL_PFX_ADDR k)) ++ [rdN s (pTBL d) rTBL_PFX_CFG] ∧
      OtherRegs s t [(pTBL d).adr rTBL_PFX_CMD]) ∧
  (∀ (r : Requester) (d : Fin 4) (idx : Fin 4096) (e : Session) (s : State),
    writable s r (pTBL d) = true → amGet? idx.val (pd s d).ses = some e →
    Answers (exec (.sesRead r d idx) s) fun t =>
      (∀ k : Fin 32, rdN t (pTBL d) (rTBL_SES_DATA k) = be e.bytes (4 * k) 4) ∧ t.ports = s.ports) ∧
  (∀ (r : Requester) (d : Fin 4) (idx : Fin 4096) (e : Session) (s : State),
    Shaped s → writable s r (pTBL d) = true →
    sessionOf ((List.range 32).flatMap fun k => put8 4 (rdN s (pTBL d) (rTBL_SES_DATA k))) = some e →
    Answers (exec (.sesWrite r d idx) s) fun t => amGet? idx.val (pd t d).ses = some e ∧ t.clk = s.clk)

/-- Rows KEY_GEN, ROTATE, KEY_ACTIVATE, PURGE, DRBG_FAIL and DRBG_RECOVER. While no key is active a key is generated at
once and is active; a rotation stages a key with the next ID; at its instant the staged key is active and INT_RAW[1] is
set; a purge erases every key and generates one; the DRBG's stop and restart show in DRBG_OK and its doubt. The key bytes
are free values (log entry 3). -/
def Obligations.MasterKeys : Prop :=
  (∀ (s : State),
    mayGenerate s = true → drbgOk s = true → s.kisl.keys = [] → 0 < get s pKEY fKEY_RETAIN_COUNT →
    Answers (exec .keyGen s) fun t => t.kisl.keys.length = 1 ∧ (activeKey t).isSome = true ∧ intRaw t pKEY 0 = true ∧
      intRaw t pKEY 1 = true ∧ rdN t pKEY rKEY_GEN_CNT = min (rdN s pKEY rKEY_GEN_CNT + 1) 0xFFFFFFFF ∧
      flag t pKEY fKEY_STAT_ACTIVE = true ∧ t.kisl.genAt = mono s) ∧
  (∀ (r : Requester) (k : MasterKey) (l : List MasterKey) (s : State),
    writable s r pKEY = true → keyUpstream s = false → drbgOk s = true → feat s 0 = true → stagedKey s = none →
    (activeKey s).isSome = true → s.kisl.keys = l ++ [k] →
    Answers (exec (.rotate r) s) fun t => (stagedKey t).map (fun x => x.id) = some ((k.id + 1) % 2 ^ 32) ∧
      t.kisl.keys.take (l.length + 1) = l ++ [k] ∧ t.kisl.keys.length = l.length + 2 ∧ intRaw t pKEY 0 = true ∧
      flag t pKEY fKEY_STAT_STAGED = true ∧
      rdN t pKEY rKEY_GEN_CNT = min (rdN s pKEY rKEY_GEN_CNT + 1) 0xFFFFFFFF) ∧
  (∀ (k : MasterKey) (l : List MasterKey) (s : State),
    s.kisl.keys = l ++ [k] → k.st = 1 → keyOn s = true → 0 < get s pKEY fKEY_RETAIN_COUNT →
    Answers (exec .keyActivate s) fun t => (activeKey t).map (fun x => x.id) = some k.id ∧ intRaw t pKEY 1 = true ∧
      rdN t pKEY rKEY_CUR_ID = k.id % 2 ^ 32 ∧
      t.kisl.keys.length = min (l.length + 1) (get s pKEY fKEY_RETAIN_COUNT)) ∧
  (∀ (r : Requester) (s : State),
    writable s r pKEY = true → keyUpstream s = false → drbgOk s = true → feat s 0 = true →
    0 < get s pKEY fKEY_RETAIN_COUNT →
    Answers (exec (.purge r) s) fun t => t.kisl.keys.length = 1 ∧ (activeKey t).isSome = true ∧
      rdN t pKEY rKEY_GEN_CNT = min (rdN s pKEY rKEY_GEN_CNT + 1) 0xFFFFFFFF ∧ intRaw t pKEY 0 = true ∧
      (s.kisl.keys ≠ [] → intRaw t pKEY 2 = true)) ∧
  (∀ (s : State),
    keyOn s = true →
    Answers (exec .drbgFail s) fun t => drbgOk t = false ∧ doubts t pKEY 0 = true ∧ intRaw t pKEY 6 = true ∧
      rdN t pKEY rKEY_DRBG_FAIL_CNT = min (rdN s pKEY rKEY_DRBG_FAIL_CNT + 1) 0xFFFFFFFF ∧
      OtherRegs s t [pKEY.adr rKEY_STAT, pKEY.adr rDOUBT_RAW, pKEY.adr rKEY_DRBG_FAIL_CNT, pKEY.adr rINT_RAW]) ∧
  (∀ (s : State),
    keyOn s = true → drbgOk s = false → s.kisl.postponed = false →
    Answers (exec .drbgRecover s) fun t => drbgOk t = true ∧ doubts t pKEY 0 = false ∧ t.kisl = s.kisl ∧
      OtherRegs s t [pKEY.adr rKEY_STAT, pKEY.adr rDOUBT_RAW])

/-- Rows CROSSING_RX, CROSSING_RESEND, SIV_CROSS_END, KEY_DIST, NTS_KEYS and KEY_UPSTREAM. A transfer in its turn stores
every key it carries; one that fails its check is counted, sets INT_RAW[3] and raises SIV_CROSS, which ends; a transfer is
sent again up to three times, and then counted as failed; a die or link that lacks the active key a second after its
activation, a die without keys for 10 ms, and a silent upstream each raise their doubt. Rows MINT and MINT_DONE: the host's
write is discarded; a hart's mint whose block passes every check runs, its key bytes overwritten with 0, and one that fails
sets ERR with the lowest code and INT_RAW[5]; at its end DONE and INT_RAW[4] are set and MINT_CNT grows by the count. -/
def Obligations.KeyTransfersAndMinting : Prop :=
  (∀ (d : Fin 4) (m : CrossMsg) (s : State),
    Shaped s → s.kisl.cross.find? (fun m => m.die == d.val) = some m → pdeIsOn s d = true →
    m.seq = (pd s d).crossSeq →
    Answers (exec (.crossingRx d true) s) fun t => (pd t d).crossSeq = (pd s d).crossSeq + 1 ∧
      (∀ k ∈ m.keys, dieHas t d k.id = true) ∧ t.kisl.cross.length + 1 = s.kisl.cross.length ∧ t.clk = s.clk) ∧
  (∀ (d : Fin 4) (m : CrossMsg) (ok : Bool) (s : State),
    s.kisl.cross.find? (fun m => m.die == d.val) = some m → pdeIsOn s d = true →
    (ok = false ∨ m.seq ≠ (pd s d).crossSeq) →
    Answers (exec (.crossingRx d ok) s) fun t => doubts t (pSIV d) 1 = true ∧ intRaw t (pSIV d) 3 = true ∧
      rdN t (pSIV d) rSIV_CROSS_ERR_CNT = min (rdN s (pSIV d) rSIV_CROSS_ERR_CNT + 1) 0xFFFFFFFF ∧ t.kisl = s.kisl ∧
      OtherRegs s t [(pSIV d).adr rSIV_CROSS_ERR_CNT, (pSIV d).adr rINT_RAW, (pSIV d).adr rDOUBT_RAW]) ∧
  (∀ (i : Fin 20) (m : CrossMsg) (s : State),
    i.val < 4 → s.kisl.cross.find? (fun m => m.die == i.val) = some m →
    Answers (exec (.crossingResend i) s) fun t =>
      (m.tries < 3 → t.regs = s.regs ∧ t.kisl.cross.length = s.kisl.cross.length ∧
        (∃ y ∈ t.kisl.cross, y = { m with tries := m.tries + 1 })) ∧
      (3 ≤ m.tries → intRaw t pKEY 3 = true ∧ t.kisl.cross.length + 1 = s.kisl.cross.length ∧
        rdN t pKEY rKEY_DIST_FAIL_CNT = min (rdN s pKEY rKEY_DIST_FAIL_CNT + 1) 0xFFFFFFFF)) ∧
  (∀ (i : Fin 20) (n id : Nat) (b : List Byte) (s : State),
    Shaped s → 4 ≤ i.val → (peer s ((i.val - 4) / 4) ((i.val - 4) % 4)).again = some (n, id, b) → n < 3 →
    Answers (exec (.crossingResend i) s) fun t =>
      (peer t ((i.val - 4) / 4) ((i.val - 4) % 4)).again = some (n + 1, id, b) ∧
      (link t ((i.val - 4) / 4)).sent.length = (link s ((i.val - 4) / 4)).sent.length + 1 ∧ t.regs = s.regs) ∧
  (∀ (d : Fin 4) (s : State),
    doubts s (pSIV d) 1 = true →
    Answers (exec (.sivCrossEnd d) s) fun t => doubts t (pSIV d) 1 = false ∧ OtherRegs s t [(pSIV d).adr rDOUBT_RAW]) ∧
  (∀ (s : State),
    distStands s = true →
    Answers (exec .keyDist s) fun t => doubts t pKEY 2 = true ∧ OtherRegs s t [pKEY.adr rDOUBT_RAW] ∧ t.clk = s.clk) ∧
  (∀ (d : Fin 4) (t0 : Nat) (s : State),
    pdeIsOn s d = true → (pd s d).lackFrom = some t0 → t0 + 10000000 ≤ mono s →
    Answers (exec (.ntsKeys d) s) fun t => doubts t (pSIV d) 0 = true ∧ OtherRegs s t [(pSIV d).adr rDOUBT_RAW] ∧
      t.clk = s.clk) ∧
  (∀ (due : Nat) (s : State),
    upDue s = some due → keyUpstream s = true → keyOn s = true →
    Answers (exec .keyUpstream s) fun t => doubts t pKEY 3 = true ∧ OtherRegs s t [pKEY.adr rDOUBT_RAW] ∧
      (due < 2 ^ 64 → due ≤ mono t)) ∧
  (∀ (s : State),
    exec (.mint .host) s = .next s) ∧
  (∀ (h : Fin 6) (s : State),
    writable s (.hart h) pKEY = true →
    let a := get s pKEY fKEY_MINT_PTR_ADDR * 64
    let why := mintWhy s h a
    Answers (exec (.mint (.hart h)) s) fun t => flag t pKEY fKEY_MINT_CMD_DONE = false ∧
      (why = 0 → flag t pKEY fKEY_MINT_CMD_BUSY = true ∧ flag t pKEY fKEY_MINT_CMD_ERR = false ∧
        t.kisl.mint.isSome = true ∧
        (∀ i : Fin 32, coreByte t (a + 16 + i) = 0)) ∧
      (why ≠ 0 → flag t pKEY fKEY_MINT_CMD_ERR = true ∧ get t pKEY fKEY_MINT_CMD_CODE = why ∧
        intRaw t pKEY 5 = true ∧ t.kisl = s.kisl)) ∧
  (∀ (j : MintJob) (mk : MasterKey) (s : State),
    s.kisl.mint = some j → activeKey s = some mk → pageRetained s pKEY = false →
    Answers (exec .mintDone s) fun t => t.kisl.mint = none ∧ flag t pKEY fKEY_MINT_CMD_BUSY = false ∧
      flag t pKEY fKEY_MINT_CMD_DONE = true ∧ intRaw t pKEY 4 = true ∧
      rdN t pKEY rKEY_MINT_CNT = min (rdN s pKEY rKEY_MINT_CNT + j.count) 0xFFFFFFFF ∧
      OtherRegs s t [pKEY.adr rKEY_MINT_CMD, pKEY.adr rKEY_MINT_CNT, pKEY.adr rINT_RAW])

/-- Rows INST_READ, INST_WRITE, SA_READ, SA_WRITE, BR_ENABLE and PTP_AUTH_END. An instance entry is read, and stored
unless R249 refuses it with its code; a security entry takes SA_DATA and SA_KEY, and a read returns SA_DATA only; a bridge
pair is on after an enable that R270 does not refuse; PTP_AUTH falls. -/
def Obligations.PtpTables : Prop :=
  (∀ (r : Requester) (d : Fin 4) (n : Fin 32) (s : State),
    writable s r (pPTE d) = true →
    Answers (exec (.instRead r d n) s) fun t =>
      (∀ k : Fin 4, rdN t (pPTE d) (rPTE_INST_DATA k) = ix (instEntry s d n) k 0 % 2 ^ 32) ∧ t.ports = s.ports) ∧
  (∀ (r : Requester) (d : Fin 4) (n : Fin 32) (s : State),
    Shaped s → writable s r (pPTE d) = true →
    let e := (List.range 4).map fun k => rdN s (pPTE d) (rPTE_INST_DATA k)
    let why := if ix e 0 0 % 2 = 1 then instWhy s d n e else 0
    Answers (exec (.instWrite r d n) s) fun t => get t (pPTE d) fPTE_INST_CMD_ERR = why ∧
      (why = 0 → instEntry t d n = e) ∧ (why ≠ 0 → t.ports = s.ports ∧ OtherRegs s t [(pPTE d).adr rPTE_INST_CMD])) ∧
  (∀ (r : Requester) (d : Fin 4) (idx : Fin 16) (s : State),
    writable s r (pPTE d) = true →
    Answers (exec (.saRead r d idx) s) fun t => rdN t (pPTE d) rPTE_SA_DATA0 = ix (saEntry s d idx).1 0 0 % 2 ^ 32 ∧
      rdN t (pPTE d) rPTE_SA_DATA1 = ix (saEntry s d idx).1 1 0 % 2 ^ 32 ∧
      OtherRegs s t [(pPTE d).adr rPTE_SA_CMD, (pPTE d).adr rPTE_SA_DATA0, (pPTE d).adr rPTE_SA_DATA1]) ∧
  (∀ (r : Requester) (d : Fin 4) (idx : Fin 16) (s : State),
    Shaped s → writable s r (pPTE d) = true →
    Answers (exec (.saWrite r d idx) s) fun t => saEntry t d idx =
        ([rdN s (pPTE d) rPTE_SA_DATA0, rdN s (pPTE d) rPTE_SA_DATA1],
          (List.range 8).flatMap fun j => put8 4 (rdN s (pPTE d) (rPTE_SA_KEY j))) ∧
      OtherRegs s t [(pPTE d).adr rPTE_SA_CMD]) ∧
  (∀ (r : Requester) (d : Fin 4) (n : Fin 4) (v : Word) (s : State),
    writable s r (pPTE d) = true → pageLocked s (pPTE d) = false → v.getLsbD 0 = true →
    let s0 := put s (pPTE d) fPTE_BR_STAT_ON (setBit (get s (pPTE d) fPTE_BR_STAT_ON) n false)
    let bad := bridgeRefused s0 d n (v.toNat / 2 % 32) (v.toNat / 64 % 32)
    Answers (exec (.brEnable r d n v) s) fun t =>
      bitOf (get t (pPTE d) fPTE_BR_STAT_ON) n = !bad ∧ bitOf (get t (pPTE d) fPTE_BR_STAT_REFUSED) n = bad ∧
      (bad = true → intRaw t (pPTE d) 6 = true) ∧ rdN t (pPTE d) (rPTE_BR_CFG n) = v.toNat &&& brMask ∧
      OtherRegs s t [(pPTE d).adr (rPTE_BR_CFG n), (pPTE d).adr rPTE_BR_STAT, (pPTE d).adr rINT_RAW]) ∧
  (∀ (d : Fin 4) (s : State),
    doubts s (pPTE d) 1 = true →
    Answers (exec (.ptpAuthEnd d) s) fun t => doubts t (pPTE d) 1 = false ∧ OtherRegs s t [(pPTE d).adr rDOUBT_RAW])

/-- Rows PTP_SYNC_DUE, PTP_ANNOUNCE_DUE, FOREIGN_TIMEOUT, PDELAY_REQ_DUE, PDELAY_LOST, SESSION_EXPIRE, RX_DELAY_REQ_DUE,
RX_MASTER_LOSS and RX_UNI_RENEW. A due Sync is booked for its grid instant, an Announce and a grant request leave untimed,
and a Pdelay_Req and a Delay_Req are booked; each takes its next sequenceId; an instance that hears no better master is no
longer passive; three lost requests in a row clear VALID; an expired session is freed and counted; a reference whose master is
silent shows LOST and its slot is lost. -/
def Obligations.PtpTimers : Prop :=
  (∀ (d : Fin 4) (n : Fin 32) (grid : Nat) (s : State),
    Shaped s → instServes s d n = true → entryBits (instEntry s d n) 0 7 1 = 1 →
    let e := instEntry s d n
    let due := gridDue (t96 s + pteLead s d) (iLog e 0) (n * 500 * 65536) (instRun s d n).lastSync
    let s1 := advT96 s (due - pteLead s d)
    let m := syncMsg s1 d n (instRun s d n).seqSync (iLog e 0) false
      (toGroup s1 d (instPort n) (iAddr e) (iTransport e) (iAs e) false)
    bookWhy s1 d (instPort n) (nowP s1 d) (pOfT96 s1 due) grid false (ptpLen s1 d (instPort n) m) = 0 →
    Answers (exec (.ptpSyncDue d n none grid) s) fun t => (instRun t d n).lastSync = due ∧
      (instRun t d n).seqSync = ((instRun s d n).seqSync + 1) % 65536 ∧
      (∃ b ∈ (port t d (instPort n)).books, b.by' = .ptp m ∧ pOfT96 s1 due ≤ b.l ∧ b.frame.isSome = true)) ∧
  (∀ (d : Fin 4) (n : Fin 32) (s : State),
    Shaped s → instServes s d n = true → entryBits (instEntry s d n) 0 7 1 = 1 → portMode s d (instPort n) ≠ 0 →
    linkUp s d (instPort n) = true → lchOn s d = true →
    Answers (exec (.ptpAnnounceDue d n none) s) fun t =>
      (instRun t d n).seqAnn = ((instRun s d n).seqAnn + 1) % 65536 ∧ t.regs = s.regs ∧
      (port t d (instPort n)).untimed.length = (port s d (instPort n)).untimed.length + 1) ∧
  (∀ (d : Fin 4) (n : Fin 32) (s : State),
    Shaped s → instOn s d n = true → ((instRun s d n).better || (instRun s d n).passive) = true →
    (instRun s d n).foreign = [] →
    Answers (exec (.foreignTimeout d n) s) fun t =>
      (instRun t d n).better = false ∧ (instRun t d n).passive = false) ∧
  (∀ (d : Fin 4) (i : Fin 8) (grid : Nat) (as : Bool) (dom : Nat) (dest : PtpTo) (sa : Option Nat) (s : State),
    Shaped s → pteOn s d = true → pteForm s d ≠ 3 → initiator s d i = some (as, dom, dest, sa) →
    let m := requestMsg s d i 2 as dom (pdelayOf s d i).seq false dest sa none
    bookWhy s d i (nowP s d) (nowP s d + pteLead s d) grid false (ptpLen s d i m) = 0 →
    Answers (exec (.pdelayReqDue d i grid) s) fun t =>
      (pdelayOf t d i).seq = ((pdelayOf s d i).seq + 1) % 65536 ∧ (∃ b ∈ (port t d i).books, b.by' = .ptp m) ∧
      t.clk = s.clk) ∧
  (∀ (d : Fin 4) (i : Fin 8) (x : PdelayReq) (l : List PdelayReq) (s : State),
    Shaped s → (pdelayOf s d i).reqs = x :: l → x.got ≠ 1 →
    Answers (exec (.pdelayLost d i) s) fun t =>
      ((pdelayOf s d i).lost < 2 → (pdelayOf t d i).reqs = l ∧ (pdelayOf t d i).lost = (pdelayOf s d i).lost + 1) ∧
      (2 ≤ (pdelayOf s d i).lost → flag t (pPTE d) (fPTE_PDLY_VALID i) = false ∧ (pdelayOf t d i).d = none)) ∧
  (∀ (d : Fin 4) (k : Fin 4096) (e : Session) (s : State),
    Shaped s → amGet? k.val (pd s d).ses = some e → e.static = false → e.ann.on = true → e.sync.on = false →
    e.dresp.on = false → (e.ann.exp + 1) * 1000 < 2 ^ 64 →
    Answers (exec (.sessionExpire d k) s) fun t => amGet? k.val (pd t d).ses = none ∧
      e.ann.exp < mono t / 1000 ∧
      rdN t (pTBL d) rTBL_SES_EXPIRE_CNT = min (rdN s (pTBL d) rTBL_SES_EXPIRE_CNT + 1) 0xFFFFFFFF) ∧
  (∀ (d : Fin 4) (r : Fin 2) (grid : Nat) (f : Foreign) (s : State),
    Shaped s → (refOf s d r).masters = [f] → (refOf s d r).follow = some f.pid → (pd s d).ptp.refs.length = 2 →
    refOn s d r = true → refP2p s d r = false →
    let i := refPortNo s d r
    let m := requestMsg s d i 1 false (get s (pPTE d) (fPTE_RX_CFG_DOMAIN r)) (refOf s d r).seqReq
      (flag s (pPTE d) (fPTE_RX_CFG_UNI r)) (refTo s d r f.mac f.ip) (refSa s d r) (some r)
    bookWhy s d i (nowP s d) (nowP s d + pteLead s d) grid false (ptpLen s d i m) = 0 →
    Answers (exec (.rxDelayReqDue d r grid) s) fun t =>
      (refOf t d r).seqReq = ((refOf s d r).seqReq + 1) % 65536 ∧ (∃ b ∈ (port t d i).books, b.by' = .ptp m)) ∧
  (∀ (d : Fin 4) (r : Fin 2) (f : Foreign) (s : State),
    Shaped s → (refOf s d r).masters = [f] → (refOf s d r).follow = some f.pid →
    f.last + 3 * f.interval < 2 ^ 64 → (pd s d).ptp.refs.length = 2 →
    Answers (exec (.rxMasterLoss d r) s) fun t => (refOf t d r).follow = none ∧ (refOf t d r).masters = [] ∧
      get t (pPTE d) (fPTE_RX_STAT_STATE r) = 3 ∧ (slot t (3 + r)).gone = true ∧
      (get s (pPTE d) (fPTE_RX_STAT_STATE r) ≠ 3 → intRaw t (pPTE d) (2 + r) = true)) ∧
  (∀ (d : Fin 4) (r : Fin 2) (k : Fin 3) (mac : Nat) (s : State),
    Shaped s → (pd s d).ptp.refs.length = 2 → refOn s d r = true → flag s (pPTE d) (fPTE_RX_CFG_UNI r) = true →
    (k.val ≠ 2 ∨ refP2p s d r = false) → portMode s d (refPortNo s d r) ≠ 0 →
    linkUp s d (refPortNo s d r) = true → lchOn s d = true →
    Answers (exec (.rxUniRenew d r k mac) s) fun t =>
      (refOf t d r).seqSig = ((refOf s d r).seqSig + 1) % 65536 ∧ t.regs = s.regs ∧
      (port t d (refPortNo s d r)).untimed.length = (port s d (refPortNo s d r)).untimed.length + 1)

/-- Rows OUTPUT_START, OUTPUT_EDGE, OUTPUT_REALIGN and TOD_MESSAGE. An armed channel that waits goes live at its start
boundary; a channel whose signal is high falls; a live channel on a grid of its own rises at the next grid edge; at Q every
live channel follows the grid of the new scale; an enabled transmitter that safe state does not stop sends its 32-byte
message and counts it. -/
def Obligations.OutputsRun : Prop :=
  (∀ (ch : Fin 14) (s : State),
    Shaped s → outArmed s ch = true → (outRun s ch).live = false →
    Answers (exec (.outputStart ch) s) fun t => (outRun t ch).live = true ∧ (outRun t ch).want = true ∧
      s.clk.p.toNat ≤ t.clk.p.toNat ∧ ((outRun s ch).want = true → (outRun t ch).start = (outRun s ch).start)) ∧
  (∀ (ch : Fin 14) (s : State),
    Shaped s → (outRun s ch).high = true → (outRun s ch).fall < 2 ^ 80 →
    Answers (exec (.outputEdge ch) s) fun t => (outRun t ch).high = false ∧ t.regs = s.regs ∧
      t.clk.p.toNat = max s.clk.p.toNat (outRun s ch).fall) ∧
  (∀ (ch : Fin 14) (s : State),
    Shaped s → (outRun s ch).high = false → (outRun s ch).want = true → (outRun s ch).live = true →
    ownGrid s ch = true →
    Answers (exec (.outputEdge ch) s) fun t => (outRun t ch).high = true ∧ (outRun t ch).ran = true ∧
      ((outRun t ch).rise : Int) = max (nextRise s ch) 0 ∧
      (outRun t ch).fall = (outRun t ch).rise + highFor s ch ∧ (4 ≤ ch.val → t.regs = s.regs) ∧
      (ch.val < 4 → bitOf (get t pMCK fMCK_STAT_MCS_RUN) ch = true ∧ OtherRegs s t [pMCK.adr rMCK_STAT])) ∧
  (∀ (q : Nat) (s : State),
    Shaped s → s.mck.realign = some q → q < 2 ^ 80 →
    Answers (exec .outputRealign s) fun t => t.mck.realign = none ∧ t.clk.p.toNat = max s.clk.p.toNat q ∧
      t.clk.tOfs = s.clk.tOfs ∧ OtherRegs s t [pMCK.adr rMCK_SKIP_CNT] ∧
      ∀ ch : Fin 14, (outRun s ch).want = true → (outRun t ch).ofs = s.clk.tOfs ∧ (outRun t ch).want = true) ∧
  (∀ (k : Fin 2) (s : State),
    Shaped s → pageEn s pMCK = true → todEn s k = true → todStopped s k = false →
    Answers (exec (.todMessage k) s) fun t => (ix t.mck.todMsg k []).length = 32 ∧
      ix t.mck.todMsg k [] = todMessage (advP s (todNext s k)) k ∧
      ix t.mck.todSeq k 0 = (ix s.mck.todSeq k 0 + 1) % 65536 ∧ t.clk = (advP s (todNext s k)).clk ∧
      rdN t pMCK rMCK_TOD_CNT = min (rdN s pMCK rMCK_TOD_CNT + 1) 0xFFFFFFFF ∧
      OtherRegs s t [pMCK.adr rMCK_TOD_CNT])

/-- Rows CAP_EDGE, CAP_READ, TOUT_FAULT and TOUT_FAULT_CLEAR. A selected edge is stamped with an LSB of 2⁻¹⁰ ns and stored,
or dropped and counted where the FIFO is full, or counted as missed within 20 ns of the one before; a read of CAP_E0 takes
the oldest stamp of the requester's selected FIFO; a ball that differs sets its fault bit, INT_RAW[8] and the doubt, and
one that agrees clears its bit. -/
def Obligations.CapturesAndReadback : Prop :=
  (∀ (n : Fin 8) (at' : PC64) (falling : Bool) (s : State),
    Shaped s → pageEn s pMCK = true → capSelects s n falling = true → (capIn s n).last = none →
    (capIn s n).fifo.length < 64 →
    Answers (exec (.capEdge n at' falling) s) fun t => t.clk = (advPc s at').clk ∧
      ((capIn s n).fifo.length + 1 = capThresh s → intRaw t pMCK 4 = true) ∧
      (capIn t n).fifo.length = (capIn s n).fifo.length + 1 ∧
      (capIn t n).last = some (BitVec.ofNat 64 (at'.toNat / 64 * 64)) ∧
      (capIn t n).fifo.getLast? = some ⟨falling, (capIn s n).lost, timeSet s, scaleGen s,
        BitVec.ofNat 64 (at'.toNat / 64 * 64), t96OfPc (advPc s at') (BitVec.ofNat 64 (at'.toNat / 64 * 64))⟩ ∧
      OtherRegs s t [pMCK.adr rINT_RAW, pMCK.adr rMCK_CAP_LVL0, pMCK.adr rMCK_CAP_LVL1]) ∧
  (∀ (n : Fin 8) (at' : PC64) (falling : Bool) (s : State),
    Shaped s → pageEn s pMCK = true → capSelects s n falling = true → (capIn s n).last = none →
    64 ≤ (capIn s n).fifo.length →
    Answers (exec (.capEdge n at' falling) s) fun t => (capIn t n).fifo = (capIn s n).fifo ∧ (capIn t n).lost = true ∧
      intRaw t pMCK 5 = true ∧ rdN t pMCK rMCK_CAP_OVF_CNT = min (rdN s pMCK rMCK_CAP_OVF_CNT + 1) 0xFFFFFFFF) ∧
  (∀ (n : Fin 8) (at' l : PC64) (falling : Bool) (s : State),
    pageEn s pMCK = true → capSelects s n falling = true → (capIn s n).last = some l →
    pcDiff (BitVec.ofNat 64 (at'.toNat / 64 * 64)) l < 20 * 65536 →
    Answers (exec (.capEdge n at' falling) s) fun t => t.mck = s.mck ∧ OtherRegs s t [pMCK.adr rMCK_CAP_MISS_CNT] ∧
      rdN t pMCK rMCK_CAP_MISS_CNT = min (rdN s pMCK rMCK_CAP_MISS_CNT + 1) 0xFFFFFFFF) ∧
  (∀ (r : Requester) (s : State),
    Shaped s → readable s pMCK = true →
    let q := reqCode r
    let n := getQ s q pMCK fMCK_CAP_SEL_N
    Answers (exec (.capRead r) s) fun t => t.clk = s.clk ∧
      ((capIn s n).fifo = [] → t.lastRead = 0 ∧ rdB t q pMCK (rMCK_CAP_E 0) = 0 ∧ t.mck = s.mck) ∧
      ∀ e ∈ (capIn s n).fifo.head?, (capIn t n).fifo = (capIn s n).fifo.tail ∧
        t.lastRead.toNat = ix (capWords n e) 0 0 % 0x100000000 ∧
        ∀ k : Fin 6, rdB t q pMCK (rMCK_CAP_E k) = ix (capWords n e) k 0 % 0x100000000) ∧
  (∀ (n : Fin 8) (s : State),
    Answers (exec (.toutFault n) s) fun t => bitOf (get t pMCK fMCK_STAT_TOUT_FAULT) n = true ∧ intRaw t pMCK 8 = true ∧
      doubts t pMCK 0 = true ∧ (∀ m : Fin 8, m ≠ n →
        bitOf (get t pMCK fMCK_STAT_TOUT_FAULT) m = bitOf (get s pMCK fMCK_STAT_TOUT_FAULT) m) ∧
      OtherRegs s t [pMCK.adr rMCK_STAT, pMCK.adr rINT_RAW, pMCK.adr rDOUBT_RAW]) ∧
  (∀ (n : Fin 8) (s : State),
    Answers (exec (.toutFaultClear n) s) fun t => bitOf (get t pMCK fMCK_STAT_TOUT_FAULT) n = false ∧
      doubts t pMCK 0 = (get t pMCK fMCK_STAT_TOUT_FAULT != 0) ∧ (∀ m : Fin 8, m ≠ n →
        bitOf (get t pMCK fMCK_STAT_TOUT_FAULT) m = bitOf (get s pMCK fMCK_STAT_TOUT_FAULT) m) ∧
      OtherRegs s t [pMCK.adr rMCK_STAT, pMCK.adr rDOUBT_RAW])

/-- Rows CUE_PUSH, CUE_CANCEL, CUE_FLUSH, CUE_FIRED, CUE_FRAME_DISPATCH, CUE_FRAME_COMPLETE, CUE_FRAME_LOST and
FRM_BUF_WRITE. A push that no reason of Table 13-2 refuses joins the queue and its handle is shown; a refused one is
counted with its code; a cancel removes an entry neither fired nor dispatched, and reports 7 or 8 otherwise; a flush frees
what has not been dispatched; the next entry fires once; a dispatched frame waits for its ports, each counted as good, failed
or lost; a buffer that a pending FRAME entry names is not written. -/
def Obligations.CueQueue : Prop :=
  (∀ (r : Requester) (s : State),
    writable s r pMCK = true →
    let q := reqCode r
    let e := cueOf s q
    let why := lowestCode (pushReasons s e)
    Answers (exec (.cuePush r) s) fun t => t.clk = s.clk ∧ getQ t q pMCK fMCK_CUE_CMD_ERR = why % 16 ∧
      (why = 0 → t.mck.cues.Perm (e :: s.mck.cues) ∧ getQ t q pMCK fMCK_CUE_CMD_HANDLE = e.handle % 65536 ∧
        get t pMCK fMCK_CUE_STAT_LVL = s.mck.cues.length + 1) ∧
      (why ≠ 0 → t.mck = s.mck ∧ intRaw t pMCK 1 = true ∧
        rdN t pMCK rMCK_CUE_REJ_CNT = min (rdN s pMCK rMCK_CUE_REJ_CNT + 1) 0xFFFFFFFF)) ∧
  (∀ (r : Requester) (h : BitVec 16) (s : State),
    writable s r pMCK = true →
    let q := reqCode r
    let e := s.mck.cues.find? fun e => e.handle == h.toNat
    Answers (exec (.cueCancel r h) s) fun t => getQ t q pMCK fMCK_CUE_CMD_HANDLE = h.toNat ∧
      (e = none → getQ t q pMCK fMCK_CUE_CMD_ERR = 7 ∧ t.mck = s.mck) ∧
      (∀ x ∈ e, x.sent = true → getQ t q pMCK fMCK_CUE_CMD_ERR = 8 ∧ t.mck = s.mck) ∧
      (∀ x ∈ e, x.sent = false → getQ t q pMCK fMCK_CUE_CMD_ERR = 0 ∧
        t.mck.cues = s.mck.cues.filter fun y => y.handle != h.toNat) ∧
      ((∀ x ∈ e, x.sent = true) → intRaw t pMCK 1 = true ∧
        rdN t pMCK rMCK_CUE_REJ_CNT = min (rdN s pMCK rMCK_CUE_REJ_CNT + 1) 0xFFFFFFFF)) ∧
  (∀ (r : Requester) (s : State),
    writable s r pMCK = true →
    Answers (exec (.cueFlush r) s) fun t => t.mck.cues = s.mck.cues.filter (fun x => x.sent) ∧ intRaw t pMCK 3 = true ∧
      get t pMCK fMCK_CUE_STAT_LVL = t.mck.cues.length % 512) ∧
  (∀ (e : CueEnt) (s : State),
    pageEn s pMCK = true → nextFire s = some e →
    Answers (exec .cueFired s) fun t => t.clk = (advPc s (fireAt s e)).clk ∧
      t.mck.cues = s.mck.cues.filter (fun y => y.handle != e.handle) ∧ (bitOf e.d0 11 = true → intRaw t pMCK 0 = true) ∧
      rdN t pMCK rMCK_CUE_FIRE_CNT = min (rdN s pMCK rMCK_CUE_FIRE_CNT + 1) 0xFFFFFFFF ∧
      (Shaped s → e.type = 0 → toutMode s e.out = 4 →
        (e.action = 0 → ix t.mck.cueLvl e.out true = false) ∧ (e.action = 1 → ix t.mck.cueLvl e.out false = true) ∧
        (e.action = 3 → ix t.mck.cueLvl e.out false = true ∧ ix t.mck.cueFall e.out none =
          some (pcNow t + BitVec.ofNat 64 (max 131072 (e.d3 * 65536)))))) ∧
  (∀ (e : CueEnt) (s : State),
    pageEn s pMCK = true → s.mck.cues.find? (fun e => e.type == 1 && !e.sent) = some e →
    Answers (exec .cueFrameDispatch s) fun t =>
      (∃ x ∈ t.mck.cues, x = { e with sent := true, wait := e.d3 }) ∧ t.mck.cues.length = s.mck.cues.length ∧
      t.clk = (advPc s (e.target - BitVec.ofNat 64 (get s pMCK fMCK_CUE_CFG_FRAME_LEAD * 65536000))).clk) ∧
  (∀ (slot gen port status : Nat) (l : List (Nat × Nat × Nat × Nat)) (e : CueEnt) (s : State),
    s.mck.cueDone = (slot, gen, port, status) :: l →
    s.mck.cues.find? (fun e => e.slot == slot && e.gen == gen && e.sent && bitOf e.wait port) = some e →
    Answers (exec .cueFrameComplete s) fun t => t.mck.cueDone = l ∧ t.clk = s.clk ∧
      (setBit e.wait port false = 0 → t.mck.cues = s.mck.cues.filter fun y => y.handle != e.handle) ∧
      (status = 0 → rdN t pMCK rMCK_FRM_OK_CNT = min (rdN s pMCK rMCK_FRM_OK_CNT + 1) 0xFFFFFFFF) ∧
      (status ≠ 0 → rdN t pMCK rMCK_FRM_FAIL_CNT = min (rdN s pMCK rMCK_FRM_FAIL_CNT + 1) 0xFFFFFFFF ∧
        intRaw t pMCK 2 = true ∧ get t pMCK fMCK_CUE_STAT_LAST_STATUS = status % 16 ∧
        get t pMCK fMCK_CUE_STAT_LAST_PORT = port % 32)) ∧
  (∀ (e : CueEnt) (p : Nat) (s : State),
    s.mck.cues.find? (fun e => e.type == 1 && e.sent) = some e →
    (List.range 32).find? (fun p => bitOf e.wait p) = some p →
    Answers (exec .cueFrameLost s) fun t => t.clk = (advPc s (e.target + BitVec.ofNat 64 655360000)).clk ∧
      rdN t pMCK rMCK_FRM_FAIL_CNT = min (rdN s pMCK rMCK_FRM_FAIL_CNT + 1) 0xFFFFFFFF ∧ intRaw t pMCK 2 = true ∧
      get t pMCK fMCK_CUE_STAT_LAST_STATUS = 15 ∧ get t pMCK fMCK_CUE_STAT_LAST_PORT = p) ∧
  (∀ (r : Requester) (k : Fin 384) (v : Word) (s : State),
    writable s r pMCK = true →
    let b := get s pMCK fMCK_FRM_SEL_BUF
    Answers (exec (.frmBufWrite r k v) s) fun t =>
      (bufPending s b = false → t.regs = s.regs ∧ (∀ j : Fin 4,
        (amGet? (b * 1536 + 4 * k + j) t.mck.frm).getD 0 = BitVec.ofNat 8 (v.toNat / 256 ^ (3 - j.val))) ∧
        t.mck = { s.mck with frm := t.mck.frm }) ∧
      (bufPending s b = true → t.mck = s.mck ∧ intRaw t pMCK 7 = true))

/-- Rows TDC_ARM, TDC_DISARM, TDC_FLUSH, TDC_REARM, TDC_GATE_EDGE, HF_CFG_WRITE, TDC_CAL_OK and CAL_LOST. Under ARM = SOFT
an arming that no code of Table 14-2 refuses opens the window with the settings the registers hold, a refused one sets ERR and
INT_RAW[2]; a disarm closes it and an average that has gathered writes one result a stop channel; a flush empties the FIFO;
the unit re-arms at its instant; under GATE_LEVEL the gate opens and closes the window; a write of HF_CFG restarts the
prescalers; CAL_OK, its doubt and INT_RAW[6] follow self-calibration. -/
def Obligations.TdcControl : Prop :=
  (∀ (r : Requester) (s : State),
    writable s r pTDC = true →
    let c := tdcRegs s
    let why := armWhy s true
    Answers (exec (.tdcArm r) s) fun t => t.clk = s.clk ∧ (c.arm ≠ 0 → t = s) ∧
      (c.arm = 0 → why = 0 → tdcArmed t = true ∧ t.tdc.set = c ∧ t.tdc.run = some (TdcRun.fresh c) ∧
        get t pTDC fTDC_STAT_ERR = 0 ∧ OtherRegs s t [pTDC.adr rTDC_STAT]) ∧
      (c.arm = 0 → why ≠ 0 → get t pTDC fTDC_STAT_ERR = why ∧ intRaw t pTDC 2 = true ∧ t.tdc = s.tdc)) ∧
  (∀ (r : Requester) (s : State),
    writable s r pTDC = true → (tdcArmed s = true ∨ tdcBusy s = true) → (s.tdc.set.avg = 0 ∨ s.tdc.done = 0) →
    Answers (exec (.tdcDisarm r) s) fun t => tdcArmed t = false ∧ tdcBusy t = false ∧ t.tdc.run = none ∧
      t.tdc.rearm = none ∧ t.tdc.fifo = s.tdc.fifo ∧ OtherRegs s t [pTDC.adr rTDC_STAT]) ∧
  (∀ (r : Requester) (s : State),
    writable s r pTDC = true → s.tdc.set.avg ≠ 0 → s.tdc.done ≠ 0 →
    s.tdc.fifo.length + s.tdc.means.length ≤ 256 →
    Answers (exec (.tdcDisarm r) s) fun t => tdcArmed t = false ∧ tdcBusy t = false ∧ t.tdc.run = none ∧ t.tdc.done = 0 ∧
      t.tdc.fifo.length = s.tdc.fifo.length + s.tdc.means.length ∧ t.tdc.fifo.take s.tdc.fifo.length = s.tdc.fifo) ∧
  (∀ (r : Requester) (s : State),
    writable s r pTDC = true →
    Answers (exec (.tdcFlush r) s) fun t => t.tdc.fifo = [] ∧ t.tdc.done = 0 ∧ get t pTDC fTDC_STAT_LVL = 0 ∧
      t.tdc.run = s.tdc.run ∧ OtherRegs s t [pTDC.adr rTDC_STAT]) ∧
  (∀ (n : Nat) (s : State),
    s.tdc.rearm = some n → n < 2 ^ 80 →
    Answers (exec .tdcRearm s) fun t => tdcArmed t = true ∧ t.clk.p.toNat = max s.clk.p.toNat n ∧ t.tdc.rearm = none ∧
      t.tdc.run = some (TdcRun.fresh t.tdc.set) ∧ t.tdc.armedAt = t.clk.p.toNat ∧
      (s.tdc.set.avg = 0 ∨ s.tdc.done = 0 → t.tdc.set = tdcRegs s) ∧ OtherRegs s t [pTDC.adr rTDC_STAT]) ∧
  (∀ (high : Bool) (s : State),
    pageEn s pTDC = true → s.tdc.gateHigh = !high → tdcArmed s = false → tdcBusy s = false →
    (tdcRegs s).arm = 1 → (high != bitOf (tdcRegs s).cfg 4) = true → armWhy s false = 0 →
    Answers (exec (.tdcGateEdge high) s) fun t => t.tdc.gateHigh = high ∧ tdcArmed t = true ∧ t.tdc.set = tdcRegs s ∧
      t.tdc.run = some (TdcRun.fresh (tdcRegs s)) ∧ OtherRegs s t [pTDC.adr rTDC_STAT]) ∧
  (∀ (high : Bool) (s : State),
    pageEn s pTDC = true → s.tdc.gateHigh = !high → tdcArmed s = true → s.tdc.set.arm = 1 →
    (high == bitOf s.tdc.set.cfg 4) = true →
    Answers (exec (.tdcGateEdge high) s) fun t => t.tdc.gateHigh = high ∧ tdcArmed t = false ∧ tdcBusy t = false ∧
      t.tdc.run = none ∧ t.tdc.rearm = none) ∧
  (∀ (r : Requester) (v : Word) (s : State),
    writable s r pTDC = true →
    Answers (exec (.hfCfgWrite r v) s) fun t =>
      (pageLocked s pTDC = true → t.tdc = s.tdc ∧ intRaw t pTDC 31 = true ∧
        rdN t (pDIE 1) rDIE_LOCK_VIOL_CNT = min (rdN s (pDIE 1) rDIE_LOCK_VIOL_CNT + 1) 0xFFFFFFFF) ∧
      (pageLocked s pTDC = false → t.tdc.pre = [0, 0] ∧ rdN t pTDC rTDC_HF_CFG = hfStored v.toNat)) ∧
  (∀ (s : State),
    pageEn s pTDC = true → tdcCal s = false →
    Answers (exec .tdcCalOk s) fun t => tdcCal t = true ∧ doubts t pTDC 0 = false ∧ t.tdc = s.tdc ∧
      OtherRegs s t [pTDC.adr rTDC_STAT, pTDC.adr rDOUBT_RAW]) ∧
  (∀ (s : State),
    pageEn s pTDC = true → tdcCal s = true →
    Answers (exec .calLost s) fun t => tdcCal t = false ∧ doubts t pTDC 0 = true ∧ intRaw t pTDC 6 = true ∧ t.tdc = s.tdc ∧
      OtherRegs s t [pTDC.adr rTDC_STAT, pTDC.adr rDOUBT_RAW, pTDC.adr rINT_RAW])

/-- Rows TDC_EDGE, TDC_TIMEOUT, TDC_RES_READ, RING_GO and RING_DONE. An edge that its channel selects is taken, but within
1.6 ns of the one before it is missed; in TIMESTAMP mode it gives a result, in INTERVAL mode the first of START_CH is the start
and the stop that completes the measurement gives stop minus start; a measurement whose time runs out is counted with its
stops without an edge; a read of RES0 takes the oldest result; the ring measures one lane for software at a time. -/
def Obligations.TdcMeasures : Prop :=
  (∀ (ch : Fin 10) (at' : PC64) (falling : Bool) (s : State),
    (pageEn s pTDC = false ∨ edgeFits (tdcSet s) ch falling = false) →
    exec (.tdcEdge ch at' falling) s = .next s) ∧
  (∀ (ch : Fin 10) (at' l : PC64) (falling : Bool) (s : State),
    pageEn s pTDC = true → ch.val < 8 → edgeFits (tdcSet s) ch falling = true → ix s.tdc.last ch none = some l →
    pcDiff at' l * 10 < 1048576 →
    Answers (exec (.tdcEdge ch at' falling) s) fun t => t.tdc = s.tdc ∧ t.clk = (advPc s at').clk ∧
      rdN t pTDC rTDC_MISS_CNT = min (rdN s pTDC rTDC_MISS_CNT + 1) 0xFFFFFFFF ∧
      OtherRegs s t [pTDC.adr rTDC_MISS_CNT]) ∧
  (∀ (ch : Fin 10) (at' : PC64) (falling : Bool) (r : TdcRun) (s : State),
    pageEn s pTDC = true → ch.val < 8 → edgeFits (tdcSet s) ch falling = true → ix s.tdc.last ch none = none →
    (tdcSet s).mode = 1 → bitOf (tdcSet s).stop ch = true → s.tdc.run = some r → s.tdc.fifo.length < 256 →
    Answers (exec (.tdcEdge ch at' falling) s) fun t => t.tdc.fifo.length = s.tdc.fifo.length + 1 ∧
      ((t.tdc.fifo.getLast?.getD []).drop 1).take 2 = twoWords (tdcStamp s (tdcSet s) ch at').toNat ∧
      ix (t.tdc.fifo.getLast?.getD []) 0 0 / 2 % 4 = 1 ∧ get t pTDC fTDC_STAT_LVL = t.tdc.fifo.length) ∧
  (∀ (ch : Fin 10) (at' : PC64) (falling : Bool) (s : State),
    pageEn s pTDC = true → ch.val < 8 → edgeFits (tdcSet s) ch falling = true → ix s.tdc.last ch none = none →
    (tdcSet s).mode = 0 → (tdcSet s).chans ≠ [] → (tdcSet s).startCh = ch.val →
    s.tdc.run = some (TdcRun.fresh (tdcSet s)) →
    Answers (exec (.tdcEdge ch at' falling) s) fun t => tdcBusy t = true ∧ t.tdc.fifo = s.tdc.fifo ∧
      (t.tdc.run.bind fun r => r.start) = some (tdcStamp s (tdcSet s) ch at') ∧ OtherRegs s t [pTDC.adr rTDC_STAT]) ∧
  (∀ (ch : Fin 10) (at' t0 : PC64) (falling order late : Bool) (n : Nat) (l : PC64) (s : State),
    pageEn s pTDC = true → tdcBusy s = true → ch.val < 8 → edgeFits s.tdc.set ch falling = true →
    ix s.tdc.last ch none = none → s.tdc.set.mode = 0 → s.tdc.set.avg = 0 → s.tdc.set.startCh ≠ ch.val →
    s.tdc.run = some ⟨some t0, [⟨ch.val, none, [], order, late⟩], n, l⟩ → s.tdc.fifo.length < 256 →
    -64 < pcDiff (tdcStamp s s.tdc.set ch at') t0 →
    Answers (exec (.tdcEdge ch at' falling) s) fun t => t.tdc.fifo.length = s.tdc.fifo.length + 1 ∧
      (t.tdc.fifo.getLast?.getD []).drop 1 =
        twoWords (unsign 64 (pcDiff (tdcStamp s s.tdc.set ch at') t0)) ++ [1] ++ twoWords t0.toNat ∧
      rdN t pTDC rTDC_MEAS_CNT = min (rdN s pTDC rTDC_MEAS_CNT + 1) 0xFFFFFFFF ∧ tdcBusy t = false ∧ t.tdc.run = none) ∧
  (∀ (r : TdcRun) (d : Int) (s : State),
    s.tdc.run = some r → tdcDue s r = some d →
    Answers (exec .tdcTimeout s) fun t => t.clk = (advP s d.toNat).clk ∧ t.tdc.run = none ∧ tdcBusy t = false ∧
      rdN t pTDC rTDC_MEAS_CNT = min (rdN s pTDC rTDC_MEAS_CNT + 1) 0xFFFFFFFF ∧
      (s.tdc.set.mode = 2 → rdN t pTDC rTDC_TIMEOUT_CNT = min (rdN s pTDC rTDC_TIMEOUT_CNT + 1) 0xFFFFFFFF) ∧
      (s.tdc.set.mode = 0 → rdN t pTDC rTDC_TIMEOUT_CNT =
        min (rdN s pTDC rTDC_TIMEOUT_CNT + (r.stops.filter fun x => x.e.isNone).length) 0xFFFFFFFF)) ∧
  (∀ (r : Requester) (s : State),
    readable s pTDC = true →
    let q := reqCode r
    Answers (exec (.tdcResRead r) s) fun t => t.clk = s.clk ∧
      (s.tdc.fifo = [] → t.lastRead = 0 ∧ t.tdc = s.tdc) ∧
      ∀ w ∈ s.tdc.fifo.head?, t.tdc.fifo = s.tdc.fifo.tail ∧ t.lastRead = BitVec.ofNat 64 (ix w 0 0) ∧
        get t pTDC fTDC_STAT_LVL = (s.tdc.fifo.length - 1) % 512 ∧
        ∀ k : Fin 6, rdB t q pTDC (rTDC_RES k) = ix w k 0 % 0x100000000) ∧
  (∀ (r : Requester) (lane : Fin 64) (s : State),
    writable s r pTDC = true →
    Answers (exec (.ringGo r lane) s) fun t => t.tdc = s.tdc ∧
      (flag s pTDC fTDC_RING_CMD_BUSY = true → get t pTDC fTDC_RING_CMD_ERR = 2 ∧ intRaw t pTDC 5 = true) ∧
      (flag s pTDC fTDC_RING_CMD_BUSY = false → get t pTDC fTDC_RING_CMD_LANE = lane ∧
        (ringLaneOk s lane = true → flag t pTDC fTDC_RING_CMD_BUSY = true ∧ get t pTDC fTDC_RING_CMD_ERR = 0) ∧
        (ringLaneOk s lane = false → flag t pTDC fTDC_RING_CMD_BUSY = false ∧ get t pTDC fTDC_RING_CMD_ERR = 1 ∧
          intRaw t pTDC 5 = true)) ∧
      OtherRegs s t [pTDC.adr rTDC_RING_CMD, pTDC.adr rINT_RAW]) ∧
  (∀ (ps : Nat) (s : State),
    flag s pTDC fTDC_RING_CMD_BUSY = true →
    Answers (exec (.ringDoneCmd none ps) s) fun t => flag t pTDC fTDC_RING_CMD_BUSY = false ∧ intRaw t pTDC 4 = true ∧
      get t pTDC fTDC_RING_RES_LANE = get s pTDC fTDC_RING_CMD_LANE ∧
      get t pTDC fTDC_RING_RES_PS = min ((ps : Int) + ringOfs s).toNat 65535 ∧
      OtherRegs s t [pTDC.adr rTDC_RING_CMD, pTDC.adr rTDC_RING_RES, pTDC.adr rINT_RAW]) ∧
  (∀ (n : Fin 36) (d : Fin 4) (i : Fin 8) (ps : Nat) (s : State),
    n.val = 8 * d.val + i.val →
    exec (.ringDoneCmd (some n) ps) s = exec (.tsuCalDone d i ps) s) ∧
  (∀ (n : Fin 36) (k : Fin 4) (ps : Nat) (s : State),
    Shaped s → n.val = 32 + k.val → askState s k = 4 →
    Answers (exec (.ringDoneCmd (some n) ps) s) fun t => (link t k).ser = some ps ∧
      get t (pASK k) fASK_TX_DLY_PS = (Config.otp (8192 + 2 * k) + ps) % 2 ^ fASK_TX_DLY_PS.w ∧
      get t (pASK k) fASK_RX_DLY_PS = (Config.otp (8193 + 2 * k) + ps) % 2 ^ fASK_RX_DLY_PS.w ∧
      OtherRegs s t [(pASK k).adr rASK_TX_DLY, (pASK k).adr rASK_RX_DLY])

/-- Rows SET_LEN_WRITE, SLOT_CLAIM, SLOT_RELEASE_CMD, SLOT_REVOKE, SLOT_QUERY and SLOT_DONE. A set all of whose slots are
free takes a new length and is zeroed, another keeps its own and INT_RAW[3] is set; an operation that no code of R319 refuses
begins, a refused one shows its code; a query answers the owner; a completed operation zeroes its slots, gives them their
owner, counts them and sets INT_RAW[0], a revocation INT_RAW[2] too. -/
def Obligations.PkeSlots : Prop :=
  (∀ (r : Requester) (hi : Bool) (v : Word) (s : State),
    writable s r pPKE = true →
    let off := if hi then rPKE_SET_LEN1 else rPKE_SET_LEN0
    Answers (exec (.setLenWrite r hi v) s) fun t => t.pke.owners = s.pke.owners ∧
      (pageLocked s pPKE = true → t.pke = s.pke ∧ intRaw t pPKE 31 = true ∧ rdN t pPKE off = rdN s pPKE off) ∧
      (pageLocked s pPKE = false → ∀ j : Fin 8,
        let k := if hi then 8 + j.val else j.val
        let old := get s pPKE ⟨off, 3 * j, 3⟩
        let new := v.toNat / 8 ^ j.val % 8
        (setFree s k = true → get t pPKE ⟨off, 3 * j, 3⟩ = new ∧ (old ≠ new → ∀ n : Fin 256, slotVal t (256 * k + n) = 0)) ∧
        (setFree s k = false → get t pPKE ⟨off, 3 * j, 3⟩ = old ∧ (old ≠ new → intRaw t pPKE 3 = true)))) ∧
  (∀ (r : Requester) (first : Fin 4096) (count : Fin 256) (ctx : Fin 8) (s : State),
    writable s r pPKE = true →
    let q := reqCode r
    let n := slotCount count
    let why := slotWhy s r 1 first n ctx
    Answers (exec (.slotClaim r first count ctx) s) fun t =>
      (why = 0 → t.pke.ops = s.pke.ops ++ [⟨q, 1, first, n, ownerOf r ctx, slotOwner s first⟩] ∧
        rdB t q pPKE rPKE_SLOT_STAT = 1 ∧ flag t pPKE fPKE_STAT_SLOT_BUSY = true ∧ t.pke.lanes = s.pke.lanes) ∧
      (why ≠ 0 → t.pke = s.pke ∧ rdB t q pPKE rPKE_SLOT_STAT / 4 = why ∧ intRaw t pPKE 1 = true)) ∧
  (∀ (r : Requester) (first : Fin 4096) (count : Fin 256) (ctx : Fin 8) (s : State),
    writable s r pPKE = true →
    let q := reqCode r
    let n := slotCount count
    let why := slotWhy s r 2 first n ctx
    Answers (exec (.slotReleaseCmd r first count ctx) s) fun t =>
      (why = 0 → t.pke.ops = s.pke.ops ++ [⟨q, 2, first, n, 0, slotOwner s first⟩] ∧ rdB t q pPKE rPKE_SLOT_STAT = 1 ∧
        flag t pPKE fPKE_STAT_SLOT_BUSY = true ∧ t.pke.owners = s.pke.owners) ∧
      (why ≠ 0 → t.pke = s.pke ∧ rdB t q pPKE rPKE_SLOT_STAT / 4 = why ∧ intRaw t pPKE 1 = true)) ∧
  (∀ (r : Requester) (first : Fin 4096) (count : Fin 256) (s : State),
    writable s r pPKE = true →
    let q := reqCode r
    let n := slotCount count
    let why := slotWhy s r 3 first n 0
    Answers (exec (.slotRevoke r first count) s) fun t =>
      (why = 0 → t.pke.ops = s.pke.ops ++ [⟨q, 3, first, n, 0, slotOwner s first⟩] ∧ rdB t q pPKE rPKE_SLOT_STAT = 1 ∧
        flag t pPKE fPKE_STAT_SLOT_BUSY = true ∧ t.pke.owners = s.pke.owners) ∧
      (why ≠ 0 → t.pke = s.pke ∧ rdB t q pPKE rPKE_SLOT_STAT / 4 = why ∧ intRaw t pPKE 1 = true)) ∧
  (∀ (r : Requester) (first : Fin 4096) (count : Fin 256) (s : State),
    writable s r pPKE = true →
    let q := reqCode r
    let why := slotWhy s r 4 first (slotCount count) 0
    Answers (exec (.slotQuery r first count) s) fun t => t.pke = s.pke ∧ t.clk = s.clk ∧
      (why = 0 → slotOwner s first < 16 → rdB t q pPKE rPKE_SLOT_STAT = 2 + slotOwner s first * 256 ∧ intRaw t pPKE 0 = true) ∧
      (why ≠ 0 → rdB t q pPKE rPKE_SLOT_STAT / 4 = why ∧ intRaw t pPKE 1 = true)) ∧
  (∀ (r : Requester) (o : SlotOp) (s : State),
    s.pke.ops.find? (fun o => o.q == reqCode r) = some o →
    Answers (exec (.slotDone r) s) fun t => t.pke.ops = s.pke.ops.filter (fun y => y.q != reqCode r) ∧
      (∀ n : Fin 4096, (o.first ≤ n.val ∧ n.val < o.first + o.count → slotOwner t n = o.owner ∧ slotVal t n = 0) ∧
        (n.val < o.first ∨ o.first + o.count ≤ n.val → slotOwner t n = slotOwner s n ∧ slotVal t n = slotVal s n)) ∧
      rdB t (reqCode r) pPKE rPKE_SLOT_STAT = 2 ∧ intRaw t pPKE 0 = true ∧ (o.op = 3 → intRaw t pPKE 2 = true) ∧
      rdN t pPKE rPKE_WIPE_CNT = min (rdN s pPKE rPKE_WIPE_CNT + o.count) 0xFFFFFFFF)

/-- Rows JOB_GO, JOB_COPIED, PKE_CMD_DONE, JOB_ABORT and SELFTEST_DONE. A GO that no code of Table 15-3 refuses starts the
copy; a copied block is accepted with the lane's next ticket or refused with its code; a completed command writes its result
(a product modulo an odd modulus is a · b mod m) and the last one ends the job; at a yield point a long job makes way for a
queued short one; an abort by the owner or a keeper ends a job; a lane whose self-test passes is ready, and one that fails
shows it. -/
def Obligations.PkeJobs : Prop :=
  (∀ (r : Requester) (l : Fin 16) (ctx : Fin 8) (s : State),
    Shaped s → writable s r (pPKEL l) = true →
    let q := reqCode r
    let o := ownerOf r ctx
    let why := goWhy (putQ s q (pPKEL l) fPKEL_JOB_CMD_CTX ctx) r l o
    Answers (exec (.jobGo r l ctx) s) fun t => t.clk = s.clk ∧
      (why = 0 → getQ t q (pPKEL l) fPKEL_JOB_CMD_BUSY = 1 ∧
        (lane t l).copies = (lane s l).copies ++ [(q, jobAddr s l q o, o)]) ∧
      (why ≠ 0 → t.pke = s.pke ∧ intRaw t (pPKEL l) 2 = true ∧ getQ t q (pPKEL l) fPKEL_JOB_CMD_ERR = why % 16 ∧
        rdN t pPKE rPKE_REFUSE_CNT = min (rdN s pPKE rPKE_REFUSE_CNT + 1) 0xFFFFFFFF)) ∧
  (∀ (r : Requester) (l : Fin 16) (a o : Nat) (s : State),
    Shaped s → (lane s l).copies.find? (fun c => c.1 == reqCode r) = some (reqCode r, a, o) →
    let q := reqCode r
    let s2 := putQ (updLane s l fun x => { x with copies := x.copies.filter fun c => c.1 != q }) q (pPKEL l) fPKEL_JOB_CMD_BUSY 0
    let why := jobWhy s2 l o a
    Answers (exec (.jobCopied r l) s) fun t => getQ t q (pPKEL l) fPKEL_JOB_CMD_BUSY = 0 ∧
      getQ t q (pPKEL l) fPKEL_JOB_CMD_ERR = why % 16 ∧
      (why = 0 → getQ t q (pPKEL l) fPKEL_JOB_CMD_TICKET = (lane s l).next % 256 ∧
        (lane t l).next = ((lane s l).next + 1) % 256 ∧
        ((lane t l).jobs.any fun j => j.ticket == (lane s l).next) = true) ∧
      (why ≠ 0 → (lane t l).jobs = (lane s l).jobs ∧ intRaw t (pPKEL l) 2 = true ∧
        rdN t pPKE rPKE_REFUSE_CNT = min (rdN s pPKE rPKE_REFUSE_CNT + 1) 0xFFFFFFFF)) ∧
  (∀ (l : Fin 16) (j : PkeJob) (s : State),
    Shaped s → laneRuns s l = true → (lane s l).run = some j → j.cmds.length ≤ j.done + 1 →
    Answers (exec (.pkeCmdDone l false) s) fun t => intRaw t (pPKEL l) 0 = true ∧
      rdN t (pPKEL l) rPKEL_JOB_CNT = min (rdN s (pPKEL l) rPKEL_JOB_CNT + 1) 0xFFFFFFFF ∧
      rdN t pPKE rPKE_JOB_CNT = min (rdN s pPKE rPKE_JOB_CNT + 1) 0xFFFFFFFF ∧
      (∀ e ∈ (cmdEffect s j).1, slotVal t e.1 = e.2) ∧ t.clk = s.clk ∧ t.pke.owners = s.pke.owners) ∧
  (∀ (l : Fin 16) (j : PkeJob) (m k : Nat) (s : State),
    Shaped s → laneRuns s l = true → (lane s l).run = some j → flag s pPKE fPKE_YIELD_CFG_YIELD_EN = false →
    j.done + 1 < j.cmds.length → cmdOp (ix j.cmds j.done 0) = 4 →
    ix j.mods (cmdSel (ix j.cmds j.done 0)) none = some (m, k) → m % 2 = 1 → 3 ≤ m →
    Answers (exec (.pkeCmdDone l false) s) fun t =>
      slotVal t (cmdDst (ix j.cmds j.done 0)) = j.a * j.b % m ∧ t.regs = s.regs ∧
      ((lane t l).run.map fun x => (x.ticket, x.done, x.cycles)) =
        some (j.ticket, j.done + 1, j.cycles + cmdCyc s (ix j.cmds j.done 0))) ∧
  (∀ (l : Fin 16) (j : PkeJob) (s : State),
    Shaped s → laneRuns s l = true → (lane s l).run = some j → cmdOp (ix j.cmds j.done 0) = 7 →
    yields s l j = true →
    Answers (exec (.pkeCmdDone l true) s) fun t => (lane t l).susp = some { j with yields := j.yields + 1 } ∧
      ((lane t l).run.any fun x => jobShort s x) = true ∧ intRaw t (pPKEL l) 3 = true ∧
      rdN t pPKE rPKE_YIELD_CNT = min (rdN s pPKE rPKE_YIELD_CNT + 1) 0xFFFFFFFF ∧ t.pke.vals = s.pke.vals) ∧
  (∀ (r : Requester) (l : Fin 16) (ctx : Fin 8) (ticket : BitVec 8) (j : PkeJob) (s : State),
    Shaped s → writable s r (pPKEL l) = true →
    (lane s l).jobs.find? (fun j => j.ticket == ticket.toNat) = some j →
    Answers (exec (.jobAbort r l ctx ticket) s) fun t =>
      ((isKeeper r || j.owner == ownerOf r ctx) = true →
        ((lane t l).jobs.all fun x => x.ticket != ticket.toNat) = true ∧ intRaw t (pPKEL l) 1 = true ∧
        rdN t pPKE rPKE_ABORT_CNT = min (rdN s pPKE rPKE_ABORT_CNT + 1) 0xFFFFFFFF) ∧
      ((isKeeper r || j.owner == ownerOf r ctx) = false → t.pke = s.pke)) ∧
  (∀ (l : Fin 16) (pass : Bool) (s : State),
    Shaped s → (lane s l).test = true → laneRuns s l = true →
    Answers (exec (.selftestDone l pass) s) fun t => (lane t l).test = false ∧
      (pass = true → flag t (pPKEL l) fPKEL_STAT_READY = true) ∧
      (pass = false → intRaw t (pPKEL l) 4 = true ∧ doubts t (pPKEL l) 0 = true))

/-- Rows HART_RUN, HART_HALT, HART_RESTART, HART_HALTED, MTIMER, KICK, APP_WDT and KEEPER_WDT. Each bit of
HART_CTRL that the requester may write acts on its hart, and a write with a bit it may not is counted once in DENY_CNT; a hart
asked to halt halts; at MTIMECMP the time has come; a kick ends an expiry; an application hart's expiry is counted and restarts or halts it as ACTION says; stage 1 of a
keeper is counted and shown. -/
def Obligations.HartControl : Prop :=
  (∀ (r : Requester) (m : BitVec 6) (s : State),
    Shaped s → writable s r pCPU = true →
    Answers (exec (.hartRun r m) s) fun t => (∀ h : Fin 6,
        (bitOf m.toNat h = true → mayAct r h = true → (hart s h).run = false →
          (hart t h).run = true ∧ (hart t h).pc = startPc s h ∧ (hart t h).xs = (hart s h).xs) ∧
        (bitOf m.toNat h = false ∨ mayAct r h = false ∨ (hart s h).run = true → hart t h = hart s h)) ∧
      ((∃ h : Fin 6, bitOf m.toNat h = true ∧ mayAct r h = false) → intRaw t pCPU 2 = true ∧
        rdN t pCPU rCPU_DENY_CNT = min (rdN s pCPU rCPU_DENY_CNT + 1) 0xFFFFFFFF)) ∧
  (∀ (r : Requester) (m : BitVec 6) (s : State),
    Shaped s → writable s r pCPU = true →
    Answers (exec (.hartHalt r m) s) fun t => ∀ h : Fin 6,
        (bitOf m.toNat h = true → mayAct r h = true → (hart s h).run = true →
          hart t h = { hart s h with halting := true }) ∧
        (bitOf m.toNat h = false ∨ mayAct r h = false ∨ (hart s h).run = false → hart t h = hart s h)) ∧
  (∀ (r : Requester) (m : BitVec 6) (s : State),
    Shaped s → writable s r pCPU = true →
    Answers (exec (.hartRestart r m) s) fun t => ∀ h : Fin 6,
        (bitOf m.toNat h = true → mayAct r h = true →
          (hart t h).run = true ∧ (hart t h).pc = startPc s h ∧ (hart t h).machine = true ∧ (hart t h).mie = 0 ∧
          (hart t h).resv = none ∧ ∀ k : Fin 32, getX (hart t h) k = 0) ∧
        (bitOf m.toNat h = false ∨ mayAct r h = false → hart t h = hart s h)) ∧
  (∀ (h : Fin 6) (s : State),
    Shaped s → (hart s h).run = true → (hart s h).halting = true → flag s pHubDie fDIE_DOM_REQ_HC = true →
    Answers (exec (.hartHalted h) s) fun t => (hart t h).run = false ∧ (hart t h).halting = false ∧ intRaw t pCPU 3 = true ∧
      bitOf (get t pCPU fCPU_HART_STAT_RUN) h = false ∧ bitOf (get t pCPU fCPU_HART_STAT_HALTED) h = true ∧
      ∀ g : Fin 6, g ≠ h → hart t g = hart s g) ∧
  (∀ (h : Fin 6) (s : State),
    (((hart s h).cmp.toNat : Int) * 65536 - (replica s 0).ofs).toNat < 2 ^ 80 →
    Answers (exec (.mtimer h) s) fun t => t = { s with clk := t.clk } ∧
      (hart s h).cmp.toNat ≤ mtime t ∧
      (t.clk = s.clk ∨ t.clk.p.toNat = (((hart s h).cmp.toNat : Int) * 65536 - (replica s 0).ofs).toNat)) ∧
  (∀ (h : Fin 6) (s : State),
    Shaped s →
    Answers (exec (.kick h) s) fun t => hart t h = { hart s h with kicked := mono s, expired := none, warned := false } ∧
      bitOf (get t pCPU fCPU_WDT_STAT_EXPIRED) h = false ∧ (∀ g : Fin 6, g ≠ h → hart t g = hart s g) ∧ t.clk = s.clk) ∧
  (∀ (k : Fin 4) (s : State),
    Shaped s → domOn s domHC = true → wdtCounts s (k + 2) = true →
    Answers (exec (.appWdt k) s) fun t => intRaw t pCPU 1 = true ∧
      rdN t pCPU rCPU_WDT_EXP_CNT = min (rdN s pCPU rCPU_WDT_EXP_CNT + 1) 0xFFFFFFFF ∧
      t.clk = (advMono s ((hart s (k + 2)).kicked + wdtNs s (k + 2))).clk ∧
      (get s pCPU (fCPU_WDT_CFG_ACTION (k + 2)) = 1 → (hart t (k + 2)).run = true ∧
        (hart t (k + 2)).pc = startPc s (k + 2) ∧ (hart t (k + 2)).machine = true) ∧
      (get s pCPU (fCPU_WDT_CFG_ACTION (k + 2)) = 2 → (hart t (k + 2)).halting = true ∧ doubts t pCPU 1 = true) ∧
      (get s pCPU (fCPU_WDT_CFG_ACTION (k + 2)) = 0 → doubts t pCPU 1 = true ∧
        bitOf (get t pCPU fCPU_WDT_STAT_EXPIRED) (k + 2) = true)) ∧
  (∀ (h : Fin 2) (s : State),
    Shaped s → wdtCounts s h = true →
    Answers (exec (.keeperWdt h) s) fun t => intRaw t pCPU 0 = true ∧ doubts t pCPU 0 = true ∧
      bitOf (get t pCPU fCPU_WDT_STAT_EXPIRED) h = true ∧ (hart t h).expired = some (mono t) ∧
      rdN t pCPU rCPU_WDT_EXP_CNT = min (rdN s pCPU rCPU_WDT_EXP_CNT + 1) 0xFFFFFFFF ∧
      t.clk = (advMono s ((hart s h).kicked + wdtNs s h)).clk)

/-- Row HART_INSTRUCTION, for a running hart that takes no interrupt and fetches an instruction (the encodings and their
meaning are those of the RISC-V specifications that R337 names, log entry 18; an unwritten byte of core memory reads 0, log
entry 17). A hart that does not run does nothing; an integer operation writes its register and no other, x0 never; a branch
goes where its condition says; a load and a store reach core SRAM and the DMA buffers; a store-conditional stores where the
reservation holds and answers 1 where it does not; an AMO stores its result; each retires. -/
def Obligations.HartComputes : Prop :=
  (∀ (h : Fin 6) (cycles : Nat) (e : Bool) (env : WriteFacts) (s : State),
    hartRuns s h = false →
    exec (.hartInstruction h cycles e env) s = .next s) ∧
  (∀ (h : Fin 6) (cycles : Nat) (e : Bool) (env : WriteFacts) (i : Rv) (n rd : Nat) (v : BitVec 64) (s : State),
    Shaped s → hartRuns s h = true → irqOf s h = none → fetchRv s h = .inr (i, n) →
    rvResult (hart s h) i = some (rd, v) →
    Answers (exec (.hartInstruction h cycles e env) s) fun t =>
      (1 ≤ rd ∧ rd ≤ 31 → getX (hart t h) rd = v) ∧
      (∀ k : Fin 32, k.val ≠ rd ∨ rd = 0 → getX (hart t h) k = getX (hart s h) k) ∧
      (hart t h).pc = (hart s h).pc + BitVec.ofNat 64 n ∧ (hart t h).minstret = (hart s h).minstret + 1 ∧
      (hart t h).mcycle = (hart s h).mcycle + BitVec.ofNat 64 cycles ∧ (hart t h).machine = (hart s h).machine ∧
      (hart t h).mstatus = (hart s h).mstatus ∧ (∀ g : Fin 6, g ≠ h → hart t g = hart s g) ∧ t.regs = s.regs ∧
      t.core = s.core ∧ t.clk = s.clk) ∧
  (∀ (h : Fin 6) (cycles : Nat) (e : Bool) (env : WriteFacts) (c : RvCond) (a b n : Nat) (imm : BitVec 64) (s : State),
    Shaped s → hartRuns s h = true → irqOf s h = none → fetchRv s h = .inr (.branch c a b imm, n) →
    Answers (exec (.hartInstruction h cycles e env) s) fun t =>
      (hart t h).pc = (if c.holds (getX (hart s h) a) (getX (hart s h) b) then (hart s h).pc + imm
        else (hart s h).pc + BitVec.ofNat 64 n) ∧
      (hart t h).xs = (hart s h).xs ∧ (hart t h).minstret = (hart s h).minstret + 1 ∧ t.regs = s.regs ∧ t.core = s.core) ∧
  (∀ (h : Fin 6) (cycles : Nat) (e : Bool) (env : WriteFacts) (k : Nat) (sgn : Bool) (rd rs1 n : Nat) (imm : BitVec 64) (s : State),
    Shaped s → hartRuns s h = true → irqOf s h = none → fetchRv s h = .inr (.load k sgn rd rs1 imm, n) →
    (getX (hart s h) rs1 + imm).toNat % k = 0 →
    accFaults s h .load false e (getX (hart s h) rs1 + imm).toNat k = false →
    (regionOf (getX (hart s h) rs1 + imm).toNat k = .sram ∨ regionOf (getX (hart s h) rs1 + imm).toNat k = .dma) →
    Answers (exec (.hartInstruction h cycles e env) s) fun t =>
      (1 ≤ rd ∧ rd ≤ 31 → getX (hart t h) rd = extended k sgn (plainLoad s (getX (hart s h) rs1 + imm).toNat k)) ∧
      (∀ j : Fin 32, j.val ≠ rd ∨ rd = 0 → getX (hart t h) j = getX (hart s h) j) ∧
      (hart t h).pc = (hart s h).pc + BitVec.ofNat 64 n ∧ t.regs = s.regs ∧ t.core = s.core) ∧
  (∀ (h : Fin 6) (cycles : Nat) (e : Bool) (env : WriteFacts) (k rs1 rs2 n : Nat) (imm : BitVec 64) (s : State),
    Shaped s → hartRuns s h = true → irqOf s h = none → fetchRv s h = .inr (.store k rs1 rs2 imm, n) →
    (getX (hart s h) rs1 + imm).toNat % k = 0 →
    accFaults s h .store false false (getX (hart s h) rs1 + imm).toNat k = false →
    (regionOf (getX (hart s h) rs1 + imm).toNat k = .sram ∨ regionOf (getX (hart s h) rs1 + imm).toNat k = .dma) →
    let a := (getX (hart s h) rs1 + imm).toNat
    Answers (exec (.hartInstruction h cycles e env) s) fun t =>
      (∀ j : Fin 8, j.val < k → coreByte t (a + j) = BitVec.ofNat 8 ((getX (hart s h) rs2).toNat / 256 ^ j.val)) ∧
      OtherBytes s t a k ∧ (hart t h).xs = (hart s h).xs ∧
      (hart t h).pc = (hart s h).pc + BitVec.ofNat 64 n ∧ t.regs = s.regs) ∧
  (∀ (h : Fin 6) (cycles : Nat) (e : Bool) (env : WriteFacts) (k rd rs1 rs2 n : Nat) (s : State),
    Shaped s → hartRuns s h = true → irqOf s h = none → fetchRv s h = .inr (.sc k rd rs1 rs2, n) →
    (getX (hart s h) rs1).toNat % k = 0 →
    accFaults s h .store true false (getX (hart s h) rs1).toNat k = false →
    let a := (getX (hart s h) rs1).toNat
    Answers (exec (.hartInstruction h cycles e env) s) fun t => (hart t h).resv = none ∧ t.regs = s.regs ∧
      (resvHolds (hart s h) a k = true → (1 ≤ rd ∧ rd ≤ 31 → getX (hart t h) rd = 0) ∧
        ∀ j : Fin 8, j.val < k → coreByte t (a + j) = BitVec.ofNat 8 ((getX (hart s h) rs2).toNat / 256 ^ j.val)) ∧
      (resvHolds (hart s h) a k = false → t.core = s.core ∧ (1 ≤ rd ∧ rd ≤ 31 → getX (hart t h) rd = 1))) ∧
  (∀ (h : Fin 6) (cycles : Nat) (e : Bool) (env : WriteFacts) (op : RvAmo) (k rd rs1 rs2 n : Nat) (s : State),
    Shaped s → hartRuns s h = true → irqOf s h = none → fetchRv s h = .inr (.amo op k rd rs1 rs2, n) →
    (getX (hart s h) rs1).toNat % k = 0 →
    accFaults s h .store true false (getX (hart s h) rs1).toNat k = false →
    accFaults s h .load true false (getX (hart s h) rs1).toNat k = false →
    let a := (getX (hart s h) rs1).toNat
    let m := plainLoad s a k
    Answers (exec (.hartInstruction h cycles e env) s) fun t => t.regs = s.regs ∧
      (1 ≤ rd ∧ rd ≤ 31 → getX (hart t h) rd = extended k true m) ∧
      (∀ j : Fin 8, j.val < k →
        coreByte t (a + j) = BitVec.ofNat 8 (op.run k m (getX (hart s h) rs2).toNat / 256 ^ j.val)) ∧
      OtherBytes s t a k)

/-- Row HART_INSTRUCTION again (machine mode and its CSRs as the privileged specification that R337 names has them, log entry
18). A misaligned load, a system call and a faulting fetch take their exception: MEPC, MCAUSE, MTVAL and MSTATUS are saved
and the hart goes on in machine mode at MTVEC, a fetch outside the hart's regions being counted as denied; a pending enabled
interrupt is taken before the next instruction (the model's choice, log entry 18); MRET returns; a CSR instruction reads its
CSR; a store to the register region in machine mode is that hart's register write. -/
def Obligations.HartTraps : Prop :=
  (∀ (h : Fin 6) (cycles : Nat) (e : Bool) (env : WriteFacts) (k : Nat) (sgn : Bool) (rd rs1 n : Nat) (imm : BitVec 64) (s : State),
    Shaped s → hartRuns s h = true → irqOf s h = none → fetchRv s h = .inr (.load k sgn rd rs1 imm, n) →
    (getX (hart s h) rs1 + imm).toNat % k ≠ 0 →
    Answers (exec (.hartInstruction h cycles e env) s) fun t => (hart t h).mcause = 4 ∧
      (hart t h).mtval = getX (hart s h) rs1 + imm ∧ (hart t h).mepc = (hart s h).pc &&& ~~~1 ∧
      (hart t h).pc = (hart s h).mtvec &&& ~~~3 ∧ (hart t h).machine = true ∧ (hart t h).xs = (hart s h).xs ∧
      (hart t h).minstret = (hart s h).minstret ∧ t.regs = s.regs ∧ t.core = s.core) ∧
  (∀ (h : Fin 6) (cycles : Nat) (e : Bool) (env : WriteFacts) (n : Nat) (s : State),
    Shaped s → hartRuns s h = true → irqOf s h = none → fetchRv s h = .inr (.ecall, n) →
    Answers (exec (.hartInstruction h cycles e env) s) fun t =>
      (hart t h).mcause = (if (hart s h).machine then 11 else 8) ∧ (hart t h).mtval = 0 ∧
      (hart t h).mepc = (hart s h).pc &&& ~~~1 ∧ (hart t h).pc = (hart s h).mtvec &&& ~~~3 ∧ (hart t h).machine = true ∧
      (hart t h).mstatus.getLsbD 3 = false ∧ (hart t h).mstatus.getLsbD 7 = (hart s h).mstatus.getLsbD 3 ∧
      (hart t h).mstatus.getLsbD 11 = (hart s h).machine ∧ (hart t h).mstatus.getLsbD 12 = (hart s h).machine ∧
      (hart t h).xs = (hart s h).xs ∧ t.regs = s.regs ∧ t.core = s.core) ∧
  (∀ (h : Fin 6) (cycles : Nat) (e : Bool) (env : WriteFacts) (n : Nat) (s : State),
    Shaped s → hartRuns s h = true → irqOf s h = none → fetchRv s h = .inr (.mret, n) →
    (hart s h).machine = true →
    Answers (exec (.hartInstruction h cycles e env) s) fun t => (hart t h).pc = (hart s h).mepc ∧
      (hart t h).machine = (hart s h).mstatus.getLsbD 12 ∧
      (hart t h).mstatus.getLsbD 3 = (hart s h).mstatus.getLsbD 7 ∧ (hart t h).mstatus.getLsbD 7 = true ∧
      (hart t h).xs = (hart s h).xs ∧ (hart t h).minstret = (hart s h).minstret + 1 ∧ t.regs = s.regs ∧ t.core = s.core) ∧
  (∀ (h : Fin 6) (cycles : Nat) (e : Bool) (env : WriteFacts) (c n rd : Nat) (i : Rv) (v : BitVec 64) (s : State),
    Shaped s → hartRuns s h = true → irqOf s h = some c → fetchRv (takeIrq s h) h = .inr (i, n) →
    rvResult (hart (takeIrq s h) h) i = some (rd, v) →
    Answers (exec (.hartInstruction h cycles e env) s) fun t => (hart t h).mcause = BitVec.ofNat 64 (c + 2 ^ 63) ∧
      (hart t h).mepc = (hart s h).pc &&& ~~~1 ∧ (hart t h).machine = true ∧ (hart t h).mtval = 0 ∧
      (hart t h).pc = ((hart s h).mtvec &&& ~~~3) + (if (hart s h).mtvec.getLsbD 0 then BitVec.ofNat 64 (4 * c) else 0) +
        BitVec.ofNat 64 n ∧
      (hart t h).mstatus.getLsbD 3 = false ∧ (hart t h).mstatus.getLsbD 7 = (hart s h).mstatus.getLsbD 3 ∧
      t.regs = s.regs ∧ t.core = s.core) ∧
  (∀ (h : Fin 6) (cycles : Nat) (e : Bool) (env : WriteFacts) (a : Nat) (s : State),
    Shaped s → hartRuns s h = true → irqOf s h = none → fetchRv s h = .inl a →
    Answers (exec (.hartInstruction h cycles e env) s) fun t => (hart t h).mcause = 1 ∧
      (hart t h).mtval = BitVec.ofNat 64 a ∧ (hart t h).mepc = (hart s h).pc &&& ~~~1 ∧
      (hart t h).pc = (hart s h).mtvec &&& ~~~3 ∧ (hart t h).machine = true ∧ (hart t h).xs = (hart s h).xs ∧
      t.core = s.core ∧ (outsideRegion s h a 2 = false → t.regs = s.regs) ∧
      (outsideRegion s h a 2 = true → intRaw t pCPU 2 = true ∧ get t pCPU fCPU_LAST_DENY_HART = h ∧
        get t pCPU fCPU_LAST_DENY_KIND = 0 ∧ rdN t pCPU rCPU_DENY_CNT = min (rdN s pCPU rCPU_DENY_CNT + 1) 0xFFFFFFFF)) ∧
  (∀ (h : Fin 6) (cycles : Nat) (e : Bool) (env : WriteFacts) (op : RvCsr) (rd src k n : Nat) (imm : Bool) (old : BitVec 64) (s : State),
    Shaped s → hartRuns s h = true → irqOf s h = none → fetchRv s h = .inr (.csr op rd imm src k, n) →
    csrRead s h k = some old → k / 1024 ≠ 3 →
    Answers (exec (.hartInstruction h cycles e env) s) fun t =>
      (1 ≤ rd ∧ rd ≤ 31 → getX (hart t h) rd = old) ∧ (hart t h).pc = (hart s h).pc + BitVec.ofNat 64 n ∧
      (∀ j : Fin 32, j.val ≠ rd ∨ rd = 0 → getX (hart t h) j = getX (hart s h) j) ∧
      (k = 0x340 → op = .write → (hart t h).mscratch = (if imm then BitVec.ofNat 64 src else getX (hart s h) src)) ∧
      (k ≠ 0x340 → (hart t h).mscratch = (hart s h).mscratch) ∧ t.regs = s.regs ∧ t.core = s.core) ∧
  (∀ (h : Fin 6) (cycles : Nat) (e : Bool) (env : WriteFacts) (rs1 rs2 n : Nat) (imm : BitVec 64) (s : State),
    Shaped s → hartRuns s h = true → irqOf s h = none → fetchRv s h = .inr (.store 4 rs1 rs2 imm, n) →
    (getX (hart s h) rs1 + imm).toNat % 4 = 0 →
    accFaults s h .store false false (getX (hart s h) rs1 + imm).toNat 4 = false →
    regionOf (getX (hart s h) rs1 + imm).toNat 4 = .regs → accMachine (hart s h) .store = true →
    exec (.hartInstruction h cycles e env) s =
      .next (storeWord (updHart (quiet s) h fun x => { x with
          pc := (hart s h).pc + BitVec.ofNat 64 n, mcycle := x.mcycle + BitVec.ofNat 64 cycles
          minstret := x.minstret + 1 })
        (.hart h) ((getX (hart s h) rs1 + imm).toNat - 0x40000000) ((getX (hart s h) rs2).toNat % 0x100000000) env))

/-- Rows COLD_RESET, PIN_RESET, WARM_RESET, RST_WARM, KEEPER_WDT_GRACE, ESCALATE, ISLAND_RESET, RST_ISLAND, RESET_RELEASE,
DOM_REQ_WRITE and DOMAIN_ON. A reset that no harsher one holds back is taken with its kind and cause and held for its
time; an ISLAND reset shows its island and is added to those held, an island that does not exist or Timebase island 0 is
refused; at a release hart 0 alone starts at address 0; a domain that DOM_REQ drops turns off, one that it adds turns on when it
is ready. What COLD keeps beside the fuses of OTP (the queue and the count of free values) is the model's own. -/
def Obligations.ResetsAndDomains : Prop :=
  (∀ (rise : Bool) (bootSel : Fin 4) (roleSel testEn : Bool) (s : State),
    Answers (exec (.coldReset rise bootSel roleSel testEn) s) fun t => t.clk = ⟨0, 0, 0⟩ ∧
      t.pwr.held = [(0, 0, if rise then 0 else 1, 1000000)] ∧ t.pwr.on = 0x7FFF ∧ t.recd.store = [] ∧ t.core = [] ∧
      (rise = true → t.straps = ⟨bootSel, roleSel, testEn⟩ ∧ get t pBOOT fBOOT_STAT_STRAP = bootSel) ∧
      rd t pBOOT rBOOT_OTP_STAT = rd s pBOOT rBOOT_OTP_STAT ∧ flag t pSAF fSAF_STAT_SAFE = true ∧
      timeSet t = false ∧ pwrState t = 0 ∧ t.kisl.keys = [] ∧ (t.harts.all fun h => !h.run) = true) ∧
  (∀ (bootSel : Fin 4) (roleSel testEn : Bool) (low : Nat) (s : State),
    (s.pwr.held.any fun h => h.1 == 0) = false →
    Answers (exec (.pinReset bootSel roleSel testEn low) s) fun t =>
      ResetTaken s t 1 0x101 (mono s + (low + 100000)) ∧ t.clk = s.clk ∧ t.straps = ⟨bootSel, roleSel, testEn⟩ ∧
      get t pBOOT fBOOT_STAT_STRAP = bootSel ∧ flag t pSAF fSAF_STAT_SAFE = true ∧ t.kisl.keys = []) ∧
  (∀ (r : Requester) (s : State),
    writable s r pHubDie = true → (s.pwr.held.any fun h => decide (h.1 < 2)) = false →
    Answers (exec (.warmReset r) s) fun t => t.clk = s.clk ∧
      (isApp r = false → ResetTaken s t 2 (2 + causeOf r * 0x100) (mono s + 100000) ∧
        t.mck.outs = s.mck.outs ∧ t.mck.cues = s.mck.cues) ∧
      (isApp r = true → t.harts = s.harts ∧ t.pwr = s.pwr ∧ intRaw t pCPU 2 = true ∧
        rdN t pCPU rCPU_DENY_CNT = min (rdN s pCPU rCPU_DENY_CNT + 1) 0xFFFFFFFF)) ∧
  (∀ (r : Requester) (die : Fin 8) (s : State),
    writable s r (pTST die) = true → (s.pwr.held.any fun h => decide (h.1 < 2)) = false →
    Answers (exec (.rstWarm r die) s) fun t => t.clk = s.clk ∧
      (flag s (pTST die) fTST_STAT_UNLOCKED = true → ResetTaken s t 2 0x702 (mono s + 100000)) ∧
      (flag s (pTST die) fTST_STAT_UNLOCKED = false → t.pwr = s.pwr ∧
        rdN t (pDIE die) rDIE_LOCK_VIOL_CNT = min (rdN s (pDIE die) rDIE_LOCK_VIOL_CNT + 1) 0xFFFFFFFF ∧
        OtherRegs s t [(pDIE die).adr rDIE_LOCK_VIOL_CNT])) ∧
  (∀ (h : Fin 2) (n : Nat) (s : State),
    graceAt s h = some n → (s.pwr.held.any fun h => decide (h.1 < 3)) = false →
    Answers (exec (.keeperWdtGrace h) s) fun t =>
      ResetTaken s t 3 0x403 (mono (advMono s n) + 100000) ∧ t.clk = (advMono s n).clk ∧
      flag t pSAF fSAF_STAT_SAFE = true) ∧
  (∀ (n from' : Nat) (s : State),
    firstEsc s.saf.esc = some (n, from') → get s pSAF fSAF_ESC_CNT_CNT < get s pSAF fSAF_ESC_MAX →
    (s.pwr.held.any fun h => decide (h.1 < 3)) = false →
    let s1 := advMono s (from' + orD (get s pSAF fSAF_ESC_SEC) 1 * 1000000000)
    Answers (exec .escalate s) fun t => rdN t pHubDie rDIE_RST_CAUSE = 0x503 ∧ t.clk = s1.clk ∧
      t.pwr.held = [(3, 0, 0, mono s1 + 100000)] ∧ t.harts = List.replicate 6 Hart.cold ∧
      flag t pSAF fSAF_STAT_SAFE = true ∧ get t pSAF fSAF_ESC_CNT_CNT = get s pSAF fSAF_ESC_CNT_CNT + 1 ∧
      (s.recd.store = [] → t.recd.store.length = 1)) ∧
  (∀ (src : Option Requester) (die : Fin 8) (isl : Fin 16) (taken : List (BitVec 8)) (s : State),
    inReset s = false →
    ((src = none ∧ die = 0 ∧ isl = 3) ∨ (src.any fun r => writable s r pHubDie && !isApp r) = true) →
    let e := if src.isNone then 0 else islandErr die isl
    let cause := if src.isNone then 6 else (src.elim 0 causeOf)
    Answers (exec (.islandReset src die isl taken) s) fun t => t.clk.p = s.clk.p ∧
      (src.isSome = true → e ≠ 0 ∨ die ≠ 0 ∨ isl ≠ 5 → get t pHubDie fDIE_RST_CTRL_ERR = e) ∧
      (e = 0 → rdN t pHubDie rDIE_RST_CAUSE = 4 + cause * 0x100 + die.val * 0x10000 + isl.val * 0x1000000 ∧
        t.pwr.held = s.pwr.held ++ [(4, die.val, isl.val, mono s + 10000)] ∧
        (die = 1 ∧ isl = 3 → t.tdc.fifo = [] ∧ t.tdc.run = none ∧ tdcArmed t = false)) ∧
      (e ≠ 0 → t.pwr = s.pwr ∧ rdN t pHubDie rDIE_RST_CAUSE = rdN s pHubDie rDIE_RST_CAUSE ∧ t.tdc = s.tdc)) ∧
  (∀ (r : Requester) (page die : Fin 8) (isl : Fin 16) (taken : List (BitVec 8)) (s : State),
    writable s r (pTST page) = true → inReset s = false → flag s (pTST page) fTST_STAT_UNLOCKED = true →
    Answers (exec (.rstIsland r page die isl taken) s) fun t =>
      (islandErr die isl = 0 →
        rdN t pHubDie rDIE_RST_CAUSE = 0x704 + die.val * 0x10000 + isl.val * 0x1000000 ∧
        t.pwr.held = s.pwr.held ++ [(4, die.val, isl.val, mono s + 10000)]) ∧
      (islandErr die isl ≠ 0 → t.pwr = s.pwr ∧ get t pHubDie fDIE_RST_CTRL_ERR = islandErr die isl)) ∧
  (∀ (kind die isl u : Nat) (rest : List (Nat × Nat × Nat × Nat)) (s : State),
    Shaped s → s.pwr.held = (kind, die, isl, u) :: rest → (kind = 0 → isl ≠ 1) →
    Answers (exec .resetRelease s) fun t => t.pwr.held = rest ∧
      (kind ≠ 0 → t.clk = (advMono s u).clk) ∧
      (kind = 4 → t.harts = s.harts ∧ t.regs = s.regs) ∧
      (kind ≠ 4 → (hart t 0).run = true ∧ (hart t 0).pc = 0 ∧ ∀ h : Fin 6, h ≠ 0 → hart t h = hart s h)) ∧
  (∀ (r : Requester) (v : Word) (s : State),
    writable s r pHubDie = true → isApp r = false → pwrState s < 2 → s.pwr.exiting = false →
    Answers (exec (.domReqWrite r v) s) fun t => rdN t pHubDie rDIE_DOM_REQ = v.toNat % 0x8000 ∧ t.clk.p = s.clk.p ∧
      ∀ d : Fin 15, (bitOf v.toNat d = true → domOn t d = domOn s d ∧
          (domOn s d = false → bitOf t.pwr.turning d = true)) ∧
        (bitOf v.toNat d = false → (d.val ≠ domHC → domOn t d = false) ∧ bitOf t.pwr.turning d = false)) ∧
  (∀ (dom : Fin 15) (s : State),
    bitOf s.pwr.turning dom = true →
    Answers (exec (.domainOn dom) s) fun t => domOn t dom = true ∧ bitOf t.pwr.turning dom = false ∧ t.clk.p = s.clk.p ∧
      (∀ d : Fin 15, d ≠ dom → domOn t d = domOn s d))

/-- Rows PMC_COUNT, CNT_WRITE, CLR_ALL, ARM_AT, PMC_START and CNT_EVEN_READ. A live counter that selects the event adds its
share modulo 2³² and a wrap sets its OVF bit; a wrap of an even counter carries into the live one chained to it; a write
replaces a count; CLR_ALL zeroes all and OVF; ARM_AT holds the counters until START_AT; a read of an even counter latches its
chained neighbour for the requester. -/
def Obligations.PerformanceCounters : Prop :=
  (∀ (die : Fin 8) (evt : Fin 4096) (c : PmcCycle) (n : Fin 32) (s : State),
    dieHasRegs die = true → chained s (pPMC die) n = false → cntLive s (pPMC die) n = true →
    flag s (pPMC die) (fPMC_CTL_NOEVT n) = false → get s (pPMC die) (fPMC_CTL_EVT n) = evt.val →
    let v := rdN s (pPMC die) (rPMC_CNT n) + cntShare s (pPMC die) n c evt
    Answers (exec (.pmcCount die evt [c]) s) fun t => t.clk = s.clk ∧ rdN t (pPMC die) (rPMC_CNT n) = v % 2 ^ 32 ∧
      (2 ^ 32 ≤ v → bitOf (rdN t (pPMC die) rPMC_OVF) n = true ∧
        (bitOf (rdN s (pPMC die) rPMC_OVF_IRQ) n = true → intRaw t (pPMC die) 0 = true))) ∧
  (∀ (die : Fin 8) (evt : Fin 4096) (c : PmcCycle) (k : Fin 16) (s : State),
    dieHasRegs die = true → cntLive s (pPMC die) (2 * k) = true →
    flag s (pPMC die) (fPMC_CTL_NOEVT (2 * k)) = false → get s (pPMC die) (fPMC_CTL_EVT (2 * k)) = evt.val →
    chained s (pPMC die) (2 * k + 1) = true → cntLive s (pPMC die) (2 * k + 1) = true →
    let v := rdN s (pPMC die) (rPMC_CNT (2 * k)) + cntShare s (pPMC die) (2 * k) c evt
    Answers (exec (.pmcCount die evt [c]) s) fun t =>
      rdN t (pPMC die) (rPMC_CNT (2 * k + 1)) =
        (rdN s (pPMC die) (rPMC_CNT (2 * k + 1)) + if 2 ^ 32 ≤ v then 1 else 0) % 2 ^ 32) ∧
  (∀ (r : Requester) (die : Fin 8) (n : Fin 32) (v : Word) (s : State),
    writable s r (pPMC die) = true →
    Answers (exec (.cntWrite r die n v) s) fun t => rd t (pPMC die) (rPMC_CNT n) = v ∧ t = { s with regs := t.regs } ∧
      OtherRegs s t [(pPMC die).adr (rPMC_CNT n)]) ∧
  (∀ (r : Requester) (die : Fin 8) (s : State),
    writable s r (pPMC die) = true →
    Answers (exec (.clrAll r die) s) fun t => (∀ n : Fin 32, rdN t (pPMC die) (rPMC_CNT n) = 0) ∧
      rdN t (pPMC die) rPMC_OVF = 0 ∧ t = { s with regs := t.regs } ∧
      OtherRegs s t ((pPMC die).adr rPMC_OVF :: (List.range 32).map fun n => (pPMC die).adr (rPMC_CNT n))) ∧
  (∀ (r : Requester) (die : Fin 8) (s : State),
    writable s r (pPMC die) = true →
    Answers (exec (.armAt r die) s) fun t =>
      flag t (pPMC die) fPMC_CTRL_ARMED = decide (pcDiff (startAt s (pPMC die)) (pcAt s die) > 0) ∧
      t = { s with regs := t.regs } ∧ OtherRegs s t [(pPMC die).adr rPMC_CTRL]) ∧
  (∀ (die : Fin 8) (s : State),
    dieHasRegs die = true → flag s (pPMC die) fPMC_CTRL_ARMED = true →
    Answers (exec (.pmcStart die) s) fun t => flag t (pPMC die) fPMC_CTRL_ARMED = false ∧
      t.clk = (advPc s (startAt s (pPMC die))).clk ∧ OtherRegs s t [(pPMC die).adr rPMC_CTRL]) ∧
  (∀ (r : Requester) (die : Fin 8) (n : Fin 16) (s : State),
    readable s (pPMC die) = true →
    Answers (exec (.cntEvenRead r die n) s) fun t => t.lastRead.toNat = rdN s (pPMC die) (rPMC_CNT (2 * n)) ∧
      t.regs = s.regs ∧ (chained s (pPMC die) (2 * n + 1) = true →
        amGet? (latchKey (reqCode r) die (2 * n + 1)) t.cntLatch = some (rd s (pPMC die) (rPMC_CNT (2 * n + 1)))))

/-- Rows REC_STAGE, REC_WRITE, REPEATED, SW_RECORD, REC_CLEAR and REC_CLEARED. A record that the filter passes joins its
die's buffer behind those that wait, one below MIN_SEV is counted, one that repeats the open run within COAL_WIN is
coalesced; the writer stores the next record with the next SEQ; a run that closes with repeats stages REPEATED; software's
records take their own codes, an application hart's CRITICAL one is refused; a clear leaves only records above its severity
and its own record. -/
def Obligations.EventRecorder : Prop :=
  (∀ (die : Fin 8) (page : Fin 512) (code : Fin 4096) (sev : Fin 4) (a0 a1 : Word) (s : State),
    Shaped s → die ≠ 3 → (pageKind ⟨die, page⟩).isSome = true → (bufOf s (dieBuf die)).run = none →
    (bufOf s (dieBuf die)).q.length < 64 →
    let e := mkRec s ⟨die, page⟩ code sev false a0.toNat a1.toNat
    Answers (exec (.recStage die page code sev a0 a1 none) s) fun t => t.clk = s.clk ∧ t.recd.store = s.recd.store ∧
      (get s pREC fREC_CFG_MIN_SEV ≤ sev.val → (bufOf t (dieBuf die)).q = (bufOf s (dieBuf die)).q ++ [⟨e, none⟩] ∧
        t.regs = s.regs) ∧
      (sev.val < get s pREC fREC_CFG_MIN_SEV → t.recd = s.recd ∧
        rdN t pREC rREC_FILTER_CNT = min (rdN s pREC rREC_FILTER_CNT + 1) 0xFFFFFFFF)) ∧
  (∀ (die : Fin 8) (page : Fin 512) (code : Fin 4096) (sev : Fin 4) (a0 a1 : Word) (r : RecRun) (s : State),
    Shaped s → die ≠ 3 → (pageKind ⟨die, page⟩).isSome = true → flag s pREC fREC_CFG_COAL_EN = true →
    get s pREC fREC_CFG_MIN_SEV ≤ sev.val → (bufOf s (dieBuf die)).run = some r →
    r.e.same ⟨mkRec s ⟨die, page⟩ code sev false a0.toNat a1.toNat, none⟩ = true →
    mono s ≤ r.last.mono + coalWin s →
    Answers (exec (.recStage die page code sev a0 a1 none) s) fun t =>
      (bufOf t (dieBuf die)).q = (bufOf s (dieBuf die)).q ∧
      ((bufOf t (dieBuf die)).run.map fun x => x.count) = some (r.count + 1) ∧
      rdN t pREC rREC_COAL_CNT = min (rdN s pREC rREC_COAL_CNT + 1) 0xFFFFFFFF) ∧
  (∀ (i : Nat) (e : RecEntry) (q : List RecEntry) (s : State),
    Shaped s → inReset s = false → s.recd.first = none → s.recd.clearing = none → nextBuf s = some i →
    (bufOf s i).lost = 0 → (bufOf s i).q = e :: q → e.cont = none → s.recd.store.length + 1 < recSlots →
    let n := nextSeq (rdN s pREC rREC_HEAD_SEQ)
    let k := lowestEmpty s.recd.store 0
    Answers (exec .recWrite s) fun t => (bufOf t i).q = q ∧ amGet? k t.recd.store = some ⟨n, e.r⟩ ∧
      rdN t pREC rREC_HEAD_SEQ = n ∧ t.clk = s.clk ∧
      get t pREC fREC_LAST_SLOT_SLOT = k % 2 ^ fREC_LAST_SLOT_SLOT.w ∧ t.recd.next = (i + 1) % 14) ∧
  (∀ (e : RecEntry) (s : State),
    inReset s = false → s.recd.first = some e → e.cont = none → s.recd.store.length + 1 < recSlots →
    Answers (exec .recWrite s) fun t => t.recd.first = none ∧ t.recd.bufs = s.recd.bufs ∧
      amGet? (lowestEmpty s.recd.store 0) t.recd.store = some ⟨nextSeq (rdN s pREC rREC_HEAD_SEQ), e.r⟩) ∧
  (∀ (i : Fin 14) (r : RecRun) (s : State),
    Shaped s → (bufOf s i).run = some r → (bufOf s i).q.length < 64 →
    Answers (exec (.repeated i) s) fun t => (bufOf t i).run = none ∧ t.clk = (advMono s (r.last.mono + coalWin s)).clk ∧
      (bufOf t i).q = (bufOf s i).q ++ (if r.count = 0 then [] else [r.repeated]) ∧ t.regs = s.regs) ∧
  (∀ (r : Requester) (code : BitVec 8) (sev : Fin 4) (s : State),
    Shaped s → writable s r pREC = true → (bufOf s (reqBuf r)).run = none → (bufOf s (reqBuf r)).q.length < 64 →
    let q := reqCode r
    Answers (exec (.swRecord r code sev) s) fun t => getQ t q pREC fREC_SW_CMD_CODE = code.toNat ∧
      getQ t q pREC fREC_SW_CMD_SEV = sev ∧
      (isApp r = true ∧ sev = 3 → getQ t q pREC fREC_SW_CMD_ERR = 2 ∧ intRaw t pREC 3 = true) ∧
      (isApp r = false ∨ sev ≠ 3 → getQ t q pREC fREC_SW_CMD_ERR = 0 ∧ (get s pREC fREC_CFG_MIN_SEV ≤ sev.val →
        ((bufOf t (reqBuf r)).q.getLast?.map fun e => (e.r.code, e.r.a0, e.r.a1)) =
          some (sev.val * 0x4000 + 0x800 + q * 0x100 + code.toNat, rdB s q pREC rREC_SW_ARG0, rdB s q pREC rREC_SW_ARG1)))) ∧
  (∀ (r : Requester) (sev : Fin 4) (s : State),
    writable s r pREC = true →
    Answers (exec (.recClear r sev) s) fun t => t.recd.store = s.recd.store ∧
      (isApp r = true → t.recd.clearing = s.recd.clearing ∧ intRaw t pCPU 2 = true ∧
        rdN t pCPU rCPU_DENY_CNT = min (rdN s pCPU rCPU_DENY_CNT + 1) 0xFFFFFFFF) ∧
      (isApp r = false → get t pREC fREC_CTRL_CLR_SEV = sev ∧ (s.recd.clearing = none →
        t.recd.clearing = some (reqCode r, sev.val) ∧ flag t pREC fREC_STAT_CLEARING = true))) ∧
  (∀ (q sev : Nat) (s : State),
    s.recd.clearing = some (q, sev) →
    Answers (exec .recCleared s) fun t => t.recd.clearing = none ∧ flag t pREC fREC_STAT_CLEARING = false ∧
      intRaw t pREC 2 = true ∧ (∀ x ∈ t.recd.store, sev < x.2.sev ∨ x.2.r.code % 0x1000 = 0x112) ∧
      (s.recd.store.length < recSlots → rdN t pREC rREC_HEAD_SEQ = nextSeq (rdN s pREC rREC_HEAD_SEQ)) ∧ t.clk = s.clk)

/-- Rows DOUBT_CHANGE, DEGRADE_EXIT, SAF_DIE_LOST, READY, RELEASE, FORCE, UNFORCE, SAF_POLICY_WRITE and SAF_AUTO_WRITE.
ACTIVE takes the sources that stand; a SAFE source that rises enters safe state with its cause and is counted, a WARN source
is counted, a DEGRADE source raises DEGRADE; a die that falls silent raises its doubt and leaves DIE_SEEN; at the end of the
settling count READY is set, or under AUTO safe state ends; a release ends it only while READY stands; FORCE and UNFORCE
raise and end SAF_FORCE; a policy takes effect at once. -/
def Obligations.SafeState : Prop :=
  (∀ (s : State),
    let new := safVec s
    let rose := new &&& (safActive s ^^^ (2 ^ 64 - 1))
    Answers (exec .doubtChange s) fun t => safActive t = new % 2 ^ 64 ∧ t.clk = s.clk ∧
      rdN t pSAF rSAF_WARN_CNT = min (rdN s pSAF rSAF_WARN_CNT + (sourcesOf s rose 1).length) 0xFFFFFFFF ∧
      ((∃ n : Fin 62, bitOf rose n = true ∧ safPolicy s n = 2) → flag t pSAF fSAF_STAT_DEGRADE = true) ∧
      ((∃ n : Fin 62, bitOf rose n = true ∧ safPolicy s n = 3) → flag t pSAF fSAF_STAT_SAFE = true ∧
        alarmAsserted t = true ∧ (flag s pSAF fSAF_STAT_SAFE = false → intRaw t pSAF 0 = true ∧
          get t pSAF fSAF_STAT_ENTRY = 2 ∧ t.saf.since = mono s ∧ mckSafe t = true ∧
          rdN t pSAF rSAF_ENTRY_CNT = min (rdN s pSAF rSAF_ENTRY_CNT + 1) 0xFFFFFFFF))) ∧
  (∀ (n : Nat) (s : State),
    s.saf.degFell = some n →
    Answers (exec .degradeExit s) fun t => flag t pSAF fSAF_STAT_DEGRADE = false ∧ intRaw t pSAF 3 = true ∧
      t.saf.degFell = none ∧ t.clk = (advMono s (n + orD (get s pSAF fSAF_SETTLE_DEG_MS) 1 * 1000000)).clk) ∧
  (∀ (die : Fin 8) (s : State),
    dieHasRegs die = true → die ≠ 1 → pwrState s ≠ 3 → bitOf s.saf.lost die = false →
    Answers (exec (.safDieLost die) s) fun t => bitOf t.saf.lost die = true ∧ doubts t pSAF 0 = true ∧
      bitOf (rdN t pSAF rSAF_DIE_SEEN) die = false ∧ t.clk = (advMono s (ix s.saf.lastMsg die 0 + 3000000)).clk) ∧
  (∀ (n : Nat) (s : State),
    s.saf.settleFrom = some n → flag s pSAF fSAF_STAT_SAFE = true → flag s pSAF fSAF_STAT_READY = false →
    Answers (exec .ready s) fun t => intRaw t pSAF 4 = true ∧ flag t pSAF fSAF_STAT_SETTLING = false ∧
      t.clk = (advMono s (n + orD (get s pSAF fSAF_SETTLE_SEC) 1 * 1000000000)).clk ∧
      (flag s pSAF fSAF_CFG_AUTO = false → flag t pSAF fSAF_STAT_READY = true ∧ flag t pSAF fSAF_STAT_SAFE = true) ∧
      (flag s pSAF fSAF_CFG_AUTO = true → flag t pSAF fSAF_STAT_SAFE = false ∧ intRaw t pSAF 1 = true)) ∧
  (∀ (r : Requester) (s : State),
    writable s r pSAF = true →
    Answers (exec (.release r) s) fun t => t.clk = s.clk ∧
      (flag s pSAF fSAF_STAT_READY = true → flag t pSAF fSAF_STAT_SAFE = false ∧ flag t pSAF fSAF_STAT_READY = false ∧
        intRaw t pSAF 1 = true ∧ get t pSAF fSAF_ESC_CNT_CNT = 0 ∧ mckSafe t = false) ∧
      (flag s pSAF fSAF_STAT_READY = false → intRaw t pSAF 5 = true ∧ t.saf = s.saf ∧ OtherRegs s t [pSAF.adr rINT_RAW])) ∧
  (∀ (r : Requester) (s : State),
    writable s r pSAF = true → pageOn s pSAF = true → bitOf (rdN s pSAF rDOUBT_EN) 1 = true →
    bitOf (safActive s) 61 = false →
    Answers (exec (.force r) s) fun t => doubts t pSAF 1 = true ∧ flag t pSAF fSAF_STAT_SAFE = true ∧
      bitOf (safActive t) 61 = true ∧ (flag s pSAF fSAF_STAT_SAFE = false → get t pSAF fSAF_STAT_ENTRY = 3 ∧
        rdN t pSAF rSAF_ENTRY_CNT = min (rdN s pSAF rSAF_ENTRY_CNT + 1) 0xFFFFFFFF)) ∧
  (∀ (r : Requester) (s : State),
    writable s r pSAF = true →
    Answers (exec (.unforce r) s) fun t => doubts t pSAF 1 = false ∧ t.clk = s.clk ∧
      (flag s pSAF fSAF_STAT_SAFE = true → flag t pSAF fSAF_STAT_SAFE = true)) ∧
  (∀ (r : Requester) (k : Fin 4) (v : Word) (s : State),
    writable s r pSAF = true →
    Answers (exec (.safPolicyWrite r k v) s) fun t =>
      (pageLocked s pSAF = true → t.saf = s.saf ∧ intRaw t pSAF 31 = true ∧
        rdN t pSAF (rSAF_POLICY k) = rdN s pSAF (rSAF_POLICY k)) ∧
      (pageLocked s pSAF = false → rdN t pSAF (rSAF_POLICY k) = policyStored k v.toNat ∧
        (∀ j : Fin 4, j ≠ k → rdN t pSAF (rSAF_POLICY j) = rdN s pSAF (rSAF_POLICY j)) ∧
        ((∃ n : Fin 61, bitOf (safActive s) n = true ∧ safPolicy s n ≠ 3 ∧ safPolicy t n = 3) →
          flag t pSAF fSAF_STAT_SAFE = true))) ∧
  (∀ (r : Requester) (v : Word) (s : State),
    writable s r pSAF = true → pageLocked s pSAF = false →
    Answers (exec (.safAutoWrite r v) s) fun t => rdN t pSAF rSAF_CFG = v.toNat % 4 ∧
      (flag s pSAF fSAF_STAT_READY = true ∧ bitOf v.toNat 0 = true → flag t pSAF fSAF_STAT_SAFE = false ∧
        intRaw t pSAF 1 = true) ∧
      (flag s pSAF fSAF_STAT_READY = false ∨ bitOf v.toNat 0 = false →
        t.saf = s.saf ∧ OtherRegs s t [pSAF.adr rSAF_CFG]))

/-- Rows AGE_TILE, AGE_VOLT, AGE_TEMP, AGE_LIMIT_CLEAR, CANARY, MARGIN_REVIEW, REVIEW_MEASURE and REVIEW_DONE. More tile
failures in a second than the limit, a supply outside its range and a temperature above its limit show in STAT and raise their
doubts, and clear; a canary with slack 0 is recorded, raises its doubt and, with feature 15, steps its rail up 5 mV; a review
starts with BUSY, raises a rail short of slack, plans the rails it measured nothing on as they are, and at its end counts
itself. -/
def Obligations.Ageing : Prop :=
  (∀ (d : Fin 4) (s : State),
    pageEn s (pAGE (4 + d)) = true →
    let p := pAGE (4 + d.val)
    let bad := decide ((pd s d).tiles.countP (fun t => mono s < t + 1000000000) > orD (get s p fAGE_LIMITS_TILE_LIMIT) 1)
    Answers (exec (.ageTile d) s) fun t => flag t p fAGE_STAT_TILE = bad ∧ doubts t p 2 = bad ∧ t.clk = s.clk ∧
      (bad = true → doubts s p 2 = false → intRaw t p 3 = true) ∧
      OtherRegs s t [p.adr rAGE_STAT, p.adr rDOUBT_RAW, p.adr rINT_RAW]) ∧
  (∀ (die isl : Fin 8) (mv : Nat) (s : State),
    dieHasRegs die = true → isl.val < islCount die → pageEn s (pAGE die) = true →
    (mv < (islRange s die isl).1 ∨ (islRange s die isl).2 < mv) →
    Answers (exec (.ageVolt die isl mv) s) fun t => flag t (pAGE die) fAGE_STAT_VOLT = true ∧ doubts t (pAGE die) 4 = true ∧
      OtherRegs s t [(pAGE die).adr rAGE_STAT, (pAGE die).adr rDOUBT_RAW]) ∧
  (∀ (die isl : Fin 8) (temp : Int) (s : State),
    dieHasRegs die = true → isl.val < islCount die → pageEn s (pAGE die) = true →
    (get s (pAGE die) fAGE_LIMITS_TJ_LIMIT : Int) < temp →
    Answers (exec (.ageTemp die isl temp) s) fun t => flag t (pAGE die) fAGE_STAT_TEMP = true ∧
      doubts t (pAGE die) 3 = true ∧ (doubts s (pAGE die) 3 = false → intRaw t (pAGE die) 4 = true) ∧
      OtherRegs s t [(pAGE die).adr rAGE_STAT, (pAGE die).adr rDOUBT_RAW, (pAGE die).adr rINT_RAW]) ∧
  (∀ (die : Fin 8) (volt : Bool) (s : State),
    dieHasRegs die = true →
    Answers (exec (.ageLimitClear die volt) s) fun t =>
      flag t (pAGE die) (if volt then fAGE_STAT_VOLT else fAGE_STAT_TEMP) = false ∧
      doubts t (pAGE die) (if volt then 4 else 3) = false ∧
      OtherRegs s t [(pAGE die).adr rAGE_STAT, (pAGE die).adr rDOUBT_RAW]) ∧
  (∀ (die i : Fin 8) (k f : Nat) (s : State),
    dieHasRegs die = true → pageEn s (pAGE die) = true → i.val < islCount die →
    let p := pAGE die
    Answers (exec (.canary die [(i, k, f)]) s) fun t => get t p (fAGE_ISL_SLACK i) = min k 255 ∧
      get t p (fAGE_ISL_ROSC i) = min f 65535 ∧
      (k = 0 → flag t p fAGE_STAT_CANARY = true ∧ doubts t p 1 = true ∧ intRaw t p 1 = true ∧
        get t p fAGE_STAT_CANARY_ISL = 2 ^ i.val ∧ (feat s 15 = true → ∀ rail ∈ avsRail die i, avsMv s rail + 5 ≤ 880 →
          avsMv t rail = avsMv s rail + 5 ∧ t.pwr.avs.length = s.pwr.avs.length + 1)) ∧
      (k ≠ 0 → get t p fAGE_STAT_CANARY_ISL = 0 ∧ t.pwr = s.pwr ∧
        (ix s.age.canary die none = none → flag t p fAGE_STAT_CANARY = false ∧ doubts t p 1 = false))) ∧
  (∀ (r : Requester) (s : State),
    writable s r (pAGE 0) = true → reviewFree s = true →
    Answers (exec (.marginReview (some r)) s) fun t => flag t (pAGE 0) fAGE_REVIEW_STAT_BUSY = true ∧
      (t.age.run.map fun x => (x.planned, x.due)) = some (false, mono s + 10000000) ∧ t.age.start = mono s ∧ t.clk = s.clk) ∧
  (∀ (s : State),
    reviewFree s = true →
    Answers (exec (.marginReview none) s) fun t => flag t (pAGE 0) fAGE_REVIEW_STAT_BUSY = true ∧ t.age.run.isSome = true ∧
      (s.age.first = true → t.clk = (advMono s (reviewAt s)).clk) ∧ (s.age.first = false → t.clk = s.clk)) ∧
  (∀ (r : Review) (s : State),
    s.age.run = some r → r.planned = false →
    Answers (exec (.reviewMeasure []) s) fun t => (t.age.run.map fun x => x.planned) = some true ∧
      t.clk = (advMono s r.due).clk ∧ t.pwr = s.pwr ∧ ∀ k : Fin 5, avsMv t k = avsMv s k) ∧
  (∀ (r : Review) (m : IslMeas) (rail : Nat) (pl : RailPlan) (s : State),
    s.age.run = some r → r.planned = false → r.lost = [] → dieHasRegs m.die = true → m.isl < islCount m.die →
    avsRail m.die m.isl = some rail → r.rails.length = 5 → ix r.rails rail ⟨0, false, true⟩ = pl →
    pl.settled = false → pl.lowered = false → pl.steps < get s (pAGE 0) fAGE_REVIEW_CFG_MAX_STEPS →
    m.slack < get s (pAGE 0) fAGE_SLACK_CFG_TGT → avsMv s rail + 5 ≤ 880 →
    Answers (exec (.reviewMeasure [m]) s) fun t => avsMv t rail = avsMv s rail + 5 ∧ intRaw t (pAGE 0) 2 = true ∧
      t.pwr.avs.length = s.pwr.avs.length + 1 ∧ (t.age.run.map fun x => x.planned) = some false ∧
      get t (pAGE m.die) (fAGE_ISL_SLACK m.isl) = min m.slack 255) ∧
  (∀ (r : Review) (s : State),
    s.age.run = some r → r.planned = true → r.ports = [] →
    Answers (exec .reviewDone s) fun t => t.age.run = none ∧ flag t (pAGE 0) fAGE_REVIEW_STAT_BUSY = false ∧
      rdN t (pAGE 0) rAGE_REVIEW_CNT = min (rdN s (pAGE 0) rAGE_REVIEW_CNT + 1) 0xFFFFFFFF ∧ intRaw t (pAGE 0) 0 = true ∧
      t.clk = s.clk ∧ ∀ d : Fin 8, dieHasRegs d = true → (r.slacks.any fun m => m.1 == d.val) = true →
        rdN t (pAGE d) rAGE_REVIEW_GEN = min (rdN s (pAGE d) rAGE_REVIEW_GEN + 1) 0xFFFFFFFF)

/-- Rows LINK_TRAIN, HELLO_RX, HELLO_RETRY, RETRAIN, ASK_BLOCK_LOCK_LOST, MARK_TX, MARK_RX, MARK_MISS, ECHO_TX and ECHO_RX. A
link passes DOWN, ALIGN, HELLO, CAL and UP as its conditions are met; a HELLO that no code of R401 refuses agrees version and
features, a refused one sets ERR and INT_RAW[2]; a refused link offers HELLO again; a retrain and a lost block lock leave UP;
a parent sends each child a MARK; a MARK whose T4 is known gives a sample, one that fails its check counts as missed, and the
tenth missed in a row takes the link down; a child answers with an ECHO; an ECHO gives the peer's state and the next T4. -/
def Obligations.AskTraining : Prop :=
  (∀ (k : Fin 4) (s : State),
    Shaped s →
    let p := pASK k
    Answers (exec (.linkTrain k) s) fun t => t.clk = s.clk ∧
      (askState s k = 1 → (link s k).refused = none → ownWhy s k = 0 → askState t k = 2) ∧
      (askState s k = 1 → (link s k).refused = none → ownWhy s k ≠ 0 → askState t k = 1 ∧ intRaw t p 2 = true ∧
        get t p fASK_STAT_ERR = ownWhy s k ∧ (link t k).refused = some (mono s)) ∧
      (askState s k = 2 → askLooped s k = false → askState t k = 3 ∧ (link t k).sent.map (fun f => f.type) = [1]) ∧
      (askState s k = 3 → (link s k).accepted = true → askState t k = 4) ∧
      (askState s k = 4 → (link s k).ser.isSome = true → askUp t k = true ∧ intRaw t p 0 = true ∧
        get t p fASK_STAT_ERR = 0 ∧ (link t k).beenUp = true) ∧
      (6 ≤ askState s k → t.regs = s.regs)) ∧
  (∀ (k : Fin 4) (h : AskHello) (s : State),
    Shaped s →
    (askState s k = 3 ∨ (askState s k = 1 ∧ (link s k).refused.isSome = true) ∨ (askUp s k = true ∧ askMode s k = 3)) →
    let p := pASK k
    let why := helloWhy s k h
    let c := slotOf s k h.slot
    Answers (exec (.helloRx k h) s) fun t =>
      (why = 0 → get t p fASK_STAT_VER = askVer s k h % 16 ∧ get t p fASK_STAT_FEAT = askAgreed s k h % 16 ∧
        (link t k).accepted = true ∧ (peer t k c).up = true ∧ (peer t k c).id = h.id.toNat ∧
        (askState s k = 1 → askState t k = 3)) ∧
      (why ≠ 0 → get t p fASK_STAT_ERR = why ∧ intRaw t p 2 = true ∧ (link t k).peers = (link s k).peers ∧
        (askUp s k = false → askState t k = 1))) ∧
  (∀ (k : Fin 4) (n : Nat) (s : State),
    Shaped s → (link s k).refused = some n →
    Answers (exec (.helloRetry k) s) fun t => t.clk = (advMono s (n + 1000000000)).clk ∧
      (link t k).refused = (if ownWhy s k ≠ 0 ∧ askUp s k = true then some n else some (mono t)) ∧
      (ownWhy s k = 0 → (link t k).sent.map (fun f => f.type) = [1] ∧ t.regs = s.regs) ∧
      (ownWhy s k ≠ 0 → intRaw t (pASK k) 2 = true ∧ get t (pASK k) fASK_STAT_ERR = ownWhy s k)) ∧
  (∀ (r : Requester) (k : Fin 4) (s : State),
    Shaped s → writable s r (pASK k) = true →
    Answers (exec (.retrain r k) s) fun t =>
      askState t k = (if pageEn s (pASK k) = true ∧ askMode s k ≠ 0 then 1 else 0) ∧
      (∀ c : Fin 4, peer t k c = AskPeer.cold) ∧ flag t (pASK k) fASK_STAT_KEYS = false ∧ (askUp s k = true →
        intRaw t (pASK k) 1 = true ∧ rdN t (pASK k) rASK_TRAIN_CNT = min (rdN s (pASK k) rASK_TRAIN_CNT + 1) 0xFFFFFFFF)) ∧
  (∀ (k : Fin 4) (s : State),
    Shaped s → 3 ≤ askState s k →
    Answers (exec (.askBlockLockLost k) s) fun t =>
      askState t k = (if pageEn s (pASK k) = true ∧ askMode s k ≠ 0 then 1 else 0) ∧
      (∀ c : Fin 4, peer t k c = AskPeer.cold) ∧ (askUp s k = true →
        intRaw t (pASK k) 1 = true ∧ rdN t (pASK k) rASK_TRAIN_CNT = min (rdN s (pASK k) rASK_TRAIN_CNT + 1) 0xFFFFFFFF)) ∧
  (∀ (k : Fin 4) (s : State),
    Shaped s → askUp s k = true → askDown s k = true →
    Answers (exec (.markTx k) s) fun t => t.regs = s.regs ∧
      ((link t k).sent.map fun f => f.type) = (((List.range 4).filter fun c => (peer s k c).up).map fun _ => 2) ∧
      (∃ m ∈ (link t k).markAt, m.1 % msU = 0 ∧ t96 s ≤ m.1 ∧ m.1 ≤ t96 s + msU ∧
        m.2 = (amGet? 2 (link s k).seqs).getD 0 ∧ t.clk = (advT96 s m.1).clk)) ∧
  (∀ (k : Fin 4) (seq : BitVec 16) (body : List Byte) (seen : BitVec 64) (ppt d o : Int) (s : State),
    Shaped s → askUp s k = true → askMode s k = 1 → bitOf (be body 8 1) 0 = true →
    askAnswer s k (be body 32 8) (be body 40 2) (be body 9 1 / 16) = some (d, o) →
    Answers (exec (.markRx k true seq body seen ppt) s) fun t => (link t k).missed = 0 ∧
      rdN t (pASK k) rASK_DELAY = unsign 32 (divRound (d * 1000) 65536) % 2 ^ 32 ∧
      rdN t (pASK k) rASK_OFS = unsign 32 (satS 32 (divRound (o * 1000) 65536)) % 2 ^ 32 ∧
      rdN t (pASK k) rASK_MARK_CNT = min (rdN s (pASK k) rASK_MARK_CNT + 1) 0xFFFFFFFF ∧
      (peer t k 0).depth = be body 10 1 ∧ ((link t k).markAt.map fun m => m.2) = some seq.toNat) ∧
  (∀ (k : Fin 4) (seq : BitVec 16) (body : List Byte) (seen : BitVec 64) (ppt : Int) (s : State),
    Shaped s → askUp s k = true → askMode s k = 1 →
    Answers (exec (.markRx k false seq body seen ppt) s) fun t =>
      rdN t (pASK k) rASK_CRC_CNT = min (rdN s (pASK k) rASK_CRC_CNT + 1) 0xFFFFFFFF ∧
      rdN t (pASK k) rASK_MISS_CNT = min (rdN s (pASK k) rASK_MISS_CNT + 1) 0xFFFFFFFF ∧
      ((link s k).missed < 9 → askUp t k = true) ∧ (9 ≤ (link s k).missed → askUp t k = false ∧ intRaw t (pASK k) 1 = true)) ∧
  (∀ (k : Fin 4) (s : State),
    Shaped s → askUp s k = true → askMode s k = 1 →
    Answers (exec (.markMiss k) s) fun t =>
      rdN t (pASK k) rASK_MISS_CNT = min (rdN s (pASK k) rASK_MISS_CNT + 1) 0xFFFFFFFF ∧
      ((link s k).missed < 9 → askUp t k = true ∧ (link t k).missed = (link s k).missed + 1) ∧
      (9 ≤ (link s k).missed → askUp t k = false ∧ intRaw t (pASK k) 1 = true)) ∧
  (∀ (k : Fin 4) (t3 seq : Nat) (s : State),
    Shaped s → askUp s k = true → askMode s k = 1 → (link s k).markAt = some (t3, seq) →
    Answers (exec (.echoTx k) s) fun t => (link t k).markAt = none ∧ t.regs = s.regs ∧
      t.clk = (advPc s (BitVec.ofNat 64 t3)).clk ∧
      ((link t k).sent.map fun f => (f.type, f.body.take 2)) = [(3, bytesBE 2 seq)]) ∧
  (∀ (k c : Fin 4) (crcOk : Bool) (body : List Byte) (seen : BitVec 64) (s : State),
    Shaped s → askUp s k = true → askDown s k = true →
    let n := slotOf s k c
    Answers (exec (.echoRx k c crcOk body seen) s) fun t => t.clk = s.clk ∧
      (crcOk = false → rdN t (pASK k) rASK_CRC_CNT = min (rdN s (pASK k) rASK_CRC_CNT + 1) 0xFFFFFFFF ∧
        (link t k).peers = (link s k).peers) ∧
      (crcOk = true → (peer t k n).unc = be body 4 4 ∧ (peer t k n).servo = be body 3 1 % 8 ∧
        (∀ m ∈ (link s k).markAt, m.2 = be body 0 2 → (peer s k n).up = true →
          ((peer t k n).t4.map fun x => x.2) = some m.2) ∧
        ((peer s k n).flags % 2 = 0 ∧ bitOf (be body 2 1) 0 = true → intRaw t (pASK k) 8 = true)))

/-- Rows STEP_RX, PUB_GO, AGREE_RX, LK_GO, KEY_CHECK_RX, KEY_FRAME_RX, MB_TX_GO, MB_RX and MB_POP. A child that follows steps
requests the parent's step; PUB_GO sends the public value and starts the agreement again; a public value that arrives is
shown; a keeper's LK_GO takes the link key from its block and erases the block, any other requester's is discarded; equal
checks raise KEYS, unequal ones CHK_FAIL; a KEY frame that does not unwrap or is out of its turn is discarded with INT_RAW[7];
messages queue on their way out (how many have left at once is a free value, log entry 3) and wait until popped. -/
def Obligations.AskKeysAndMailbox : Prop :=
  (∀ (k : Fin 4) (body : List Byte) (s : State),
    Shaped s → askUp s k = true → askMode s k = 1 → askFeat s k 1 = true →
    flag s (pASK k) fASK_CFG_FOLLOW_STEP = true → stepPending s = false →
    Answers (exec (.stepRx k true body) s) fun t => stepPending t = true ∧ t.tb.stepVal = signed 64 (be body 0 8) ∧
      t.tb.stepAbs = false ∧ t.clk = s.clk ∧ flag t pTBE fTBE_STEP_CTRL_PEND = true) ∧
  (∀ (k : Fin 4) (body : List Byte) (s : State),
    Shaped s → askUp s k = true → askMode s k = 1 →
    Answers (exec (.stepRx k false body) s) fun t => t.tb = s.tb ∧
      rdN t (pASK k) rASK_CRC_CNT = min (rdN s (pASK k) rASK_CRC_CNT + 1) 0xFFFFFFFF ∧
      OtherRegs s t [(pASK k).adr rASK_CRC_CNT]) ∧
  (∀ (r : Requester) (k : Fin 4) (s : State),
    Shaped s → writable s r (pASK k) = true → askFeat s k 0 = true →
    let c := ctrlSlot s k
    Answers (exec (.pubGo r k) s) fun t => (peer t k c).own = pubBytes s k rASK_OWN_PUB ∧ (peer t k c).keys = false ∧
      (peer t k c).key = none ∧ flag t (pASK k) fASK_AGREE_STAT_CHK_FAIL = false ∧
      ((link t k).sent.map fun f => (f.type, f.body)) = [(5, pubBytes s k rASK_OWN_PUB)]) ∧
  (∀ (k c : Fin 4) (body : List Byte) (s : State),
    Shaped s → askFeat s k 0 = true → body.length = 32 →
    let n := slotOf s k c
    Answers (exec (.agreeRx k c true body) s) fun t => (peer t k n).pub = body ∧ (peer t k n).pend = true ∧
      flag t (pASK k) fASK_AGREE_STAT_PEND = true ∧ get t (pASK k) fASK_AGREE_STAT_CHILD = n ∧
      intRaw t (pASK k) 5 = true ∧ (∀ i : Fin 8, rdN t (pASK k) (rASK_PEER_PUB i) = natLE (slice body (4 * i) 4))) ∧
  (∀ (r : Requester) (k : Fin 4) (s : State),
    Shaped s → writable s r (pASK k) = true → keyOn s = true → askFeat s k 0 = true →
    inSram (get s (pASK k) fASK_LK_PTR_ADDR * 64) 64 = true → (peer s k (ctrlSlot s k)).check = none →
    let a := get s (pASK k) fASK_LK_PTR_ADDR * 64
    let c := ctrlSlot s k
    Answers (exec (.lkGo r k) s) fun t =>
      (isKeeper r = true → (peer t k c).key = some (readCore s a 32) ∧ (peer t k c).keys = false ∧
        (∀ i : Fin 64, coreByte t (a + i) = 0) ∧ OtherBytes s t a 64 ∧
        flag t (pASK k) fASK_AGREE_STAT_PEND = false ∧ ((link t k).sent.map fun f => f.type) = [6]) ∧
      (isKeeper r = false → t.regs = s.regs ∧ t.core = s.core ∧ (link t k).peers = (link s k).peers ∧ (link t k).sent = [])) ∧
  (∀ (k c : Fin 4) (body key : List Byte) (s : State),
    Shaped s → askFeat s k 0 = true → (askDown s k = false ∨ s.kisl.keys = []) →
    (peer s k (slotOf s k c)).key = some key →
    let n := slotOf s k c
    let ok := decide (body.take 16 = keyCheck s k n key)
    Answers (exec (.keyCheckRx k c true body) s) fun t => (peer t k n).keys = ok ∧ (peer t k n).check = none ∧
      (ok = true → intRaw t (pASK k) 3 = true) ∧
      (ok = false → intRaw t (pASK k) 4 = true ∧ flag t (pASK k) fASK_AGREE_STAT_CHK_FAIL = true)) ∧
  (∀ (k : Fin 4) (seq : BitVec 16) (body lk : List Byte) (s : State),
    Shaped s → askUp s k = true → askMode s k = 1 → (peer s k 0).keys = true → (peer s k 0).key = some lk →
    let key := sivOpen lk [bytesBE 1 k.val ++ bytesBE 1 (get s (pASK k) fASK_CFG_SLOT) ++ bytesBE 2 seq.toNat] (slice body 20 48)
    Answers (exec (.keyFrameRx k true seq body) s) fun t =>
      (key = none ∨ seq.toNat ≠ (peer s k 0).keyRx % 65536 → intRaw t (pASK k) 7 = true ∧ t.kisl = s.kisl ∧
        (peer t k 0).keyRx = (peer s k 0).keyRx) ∧
      (key.isSome = true ∧ seq.toNat = (peer s k 0).keyRx % 65536 → (peer t k 0).keyRx = (peer s k 0).keyRx + 1 ∧
        (keyUpstream s = true → keyOn s = true → be body 0 1 = 0 → t.kisl.upKeyAt = some (mono s) ∧ intRaw t pKEY 7 = true))) ∧
  (∀ (r : Requester) (k : Fin 4) (len : Fin 512) (dest : Fin 4) (s : State),
    Shaped s → writable s r (pASK k) = true →
    let m := mbWindow s k (max 1 (mbLen len))
    Answers (exec (.mbTxGo r k len dest) s) fun t => get t (pASK k) fASK_MB_TX_CMD_LEN = mbLen len ∧
      (16 ≤ (link s k).txq.length → flag t (pASK k) fASK_MB_TX_CMD_ERR = true ∧ (link t k).txq = (link s k).txq) ∧
      ((link s k).txq.length < 16 → flag t (pASK k) fASK_MB_TX_CMD_ERR = false ∧
        get t (pASK k) fASK_MB_TX_CMD_LVL = (link t k).txq.length ∧
        (askFeat s k 2 = false → (link t k).txq = (link s k).txq ++ [(dest.val, m)] ∧ (link t k).sent = []) ∧
        (link t k).sent.map (fun f => f.body) ++ (link t k).txq.map Prod.snd = (link s k).txq.map Prod.snd ++ [m])) ∧
  (∀ (k c : Fin 4) (msg : List Byte) (s : State),
    Shaped s → askFeat s k 2 = true → (link s k).rxq.length < 16 → msg ≠ [] → msg.length ≤ 256 →
    Answers (exec (.mbRx k c true msg) s) fun t => (link t k).rxq = (link s k).rxq ++ [(slotOf s k c, msg)] ∧
      flag t (pASK k) fASK_MB_RX_STAT_VALID = true ∧ get t (pASK k) fASK_MB_RX_STAT_LVL = (link s k).rxq.length + 1 ∧
      ((link s k).rxq = [] → intRaw t (pASK k) 6 = true ∧ get t (pASK k) fASK_MB_RX_STAT_LEN = msg.length)) ∧
  (∀ (r : Requester) (k : Fin 4) (s : State),
    Shaped s → writable s r (pASK k) = true →
    Answers (exec (.mbPop r k) s) fun t => (link t k).rxq = (link s k).rxq.tail ∧ t.clk = s.clk ∧
      ((link s k).rxq.tail = [] → rdN t (pASK k) rASK_MB_RX_STAT = 0) ∧
      ((link s k).rxq.tail ≠ [] → intRaw t (pASK k) 6 = true))

/-- Rows PCIE_LINK_UP, PCIE_LINK_DOWN, MSIX_SEND, EOI, MSIX_MASK_CLEAR, CON_DATA_WRITE, CON_DATA_READ, CON_RX_BYTE,
RING_ENABLE, RING_DISABLE, RING_TAIL_WRITE, RING_DESC_DONE and RING_REPORT. A link that comes up shows itself; one that is lost stops
the host rings with ERR 4; a vector's message is sent at a rise of its level and after EOI, or held in the PBA while masked; the
console's FIFOs hold 64 bytes; a ring enabled with a legal configuration runs from 0, a
refused one shows ERR 1; a new TAIL gives descriptors; the oldest is written back and HEAD advances; a report sets the ring's
INT_RAW bit. That PCIE_LINK_UP carries the settings of configuration space is the model's own (log entry 21), and so is the value
of an empty console (log entry 3). -/
def Obligations.HostInterface : Prop :=
  (∀ (gen width : Fin 5) (bme msix fmask : Bool) (s : State),
    Answers (exec (.pcieLinkUp gen width bme msix fmask) s) fun t => t.clk = s.clk ∧
      flag t pHIF fHIF_STAT_LINK_UP = true ∧ get t pHIF fHIF_STAT_GEN = gen ∧ get t pHIF fHIF_STAT_WIDTH = width ∧
      flag t pHIF fHIF_STAT_BME = bme ∧ flag t pHIF fHIF_STAT_MSIX_EN = msix ∧ t.hif.fmask = fmask ∧
      (flag s pHIF fHIF_STAT_LINK_UP = false → intRaw t pHIF 17 = true) ∧ t.rings = s.rings ∧ t.core = s.core) ∧
  (∀ (n : Fin 16) (s : State),
    Shaped s → flag s pHIF fHIF_STAT_LINK_UP = true → flag s pHIF (fHIF_RING_STAT_RUN n) = true →
    flag s pHIF (fHIF_RING_CFG_OWNER n) = false →
    Answers (exec .pcieLinkDown s) fun t => flag t pHIF fHIF_STAT_LINK_UP = false ∧ intRaw t pHIF 18 = true ∧
      intRaw t pHIF 19 = true ∧ flag t pHIF (fHIF_RING_STAT_RUN n) = false ∧ get t pHIF (fHIF_RING_STAT_ERR n) = 4 ∧
      ring t n = Ring.cold ∧ t.harts = s.harts ∧ t.clk = s.clk ∧ t.core = s.core) ∧
  (∀ (v : Fin 64) (s : State),
    vecLevel s v = true → bitOf s.hif.level v = false →
    Answers (exec (.msixSend v) s) fun t => t.regs = s.regs ∧ t.clk = s.clk ∧ bitOf t.hif.level v = true ∧
      (flag s pHIF fHIF_STAT_MSIX_EN = false → t.hif.sent = [] ∧ t.hif.pba = s.hif.pba) ∧
      (flag s pHIF fHIF_STAT_MSIX_EN = true → vecMasked s v = true → t.hif.sent = [] ∧ bitOf t.hif.pba v = true) ∧
      (flag s pHIF fHIF_STAT_MSIX_EN = true → vecMasked s v = false → t.hif.sent = [v.val] ∧ t.hif.pba = s.hif.pba)) ∧
  (∀ (r : Requester) (v : Fin 64) (s : State),
    writable s r pHIF = true → vecLevel s v = true → flag s pHIF fHIF_STAT_MSIX_EN = true →
    Answers (exec (.eoi r v) s) fun t => t.regs = s.regs ∧ t.clk = s.clk ∧ t.hif.level = s.hif.level ∧
      (vecMasked s v = false → t.hif.sent = [v.val] ∧ t.hif.pba = s.hif.pba) ∧
      (vecMasked s v = true → t.hif.sent = [] ∧ bitOf t.hif.pba v = true)) ∧
  (∀ (v : Fin 64) (s : State),
    s.hif.pba = 2 ^ v.val → s.hif.fmask = false →
    Answers (exec (.msixMaskClear (some v)) s) fun t => t.regs = s.regs ∧ t.clk = s.clk ∧ vecMasked t v = false ∧
      (flag s pHIF fHIF_STAT_MSIX_EN = true → vecLevel s v = true → t.hif.sent = [v.val]) ∧
      (vecLevel s v = false → t.hif.sent = []) ∧ t.hif.pba = 0) ∧
  (∀ (s : State),
    s.hif.pba = 0 →
    Answers (exec (.msixMaskClear none) s) fun t => t.regs = s.regs ∧ t.clk = s.clk ∧ t.hif.fmask = false ∧ t.hif.sent = [] ∧
      t.hif.pba = 0 ∧ t.hif.masked = s.hif.masked) ∧
  (∀ (r : Requester) (b : BitVec 8) (s : State),
    writable s r pHIF = true → s.hif.tx.length < 64 → s.hif.txFrom = mono s →
    Answers (exec (.conDataWrite r b) s) fun t => t.hif.tx = s.hif.tx ++ [b] ∧ t.hif.rx = s.hif.rx ∧
      get t pHIF fHIF_CON_STAT_TX_LVL = s.hif.tx.length + 1 ∧ t.clk = s.clk) ∧
  (∀ (r : Requester) (b : BitVec 8) (s : State),
    writable s r pHIF = true → s.hif.tx.length = 64 → s.hif.txFrom = mono s →
    Answers (exec (.conDataWrite r b) s) fun t => t.hif.tx = s.hif.tx ∧ t.hif.rx = s.hif.rx ∧ t.clk = s.clk) ∧
  (∀ (r : Requester) (s : State),
    readable s pHIF = true → s.hif.rx ≠ [] →
    Answers (exec (.conDataRead r) s) fun t => t.hif.rx = s.hif.rx.drop 1 ∧ t.lastRead.toNat = (ix s.hif.rx 0 0).toNat ∧
      get t pHIF fHIF_CON_STAT_RX_LVL = s.hif.rx.length - 1 ∧ t.clk = s.clk) ∧
  (∀ (r : Requester) (s : State),
    readable s pHIF = true → s.hif.rx = [] →
    Answers (exec (.conDataRead r) s) fun t => t.hif = s.hif ∧ t.regs = s.regs ∧ t.clk = s.clk) ∧
  (∀ (b : BitVec 8) (s : State),
    Answers (exec (.conRxByte b) s) fun t => t.clk = s.clk ∧
      t.hif.rx = (if s.hif.rx.length < 64 then s.hif.rx ++ [b] else s.hif.rx)) ∧
  (∀ (r : Requester) (n : Fin 16) (v : Word) (s : State),
    Shaped s → writable s r pHIF = true → flag s pHIF (fHIF_RING_CFG_EN n) = false →
    let legal := decide ((fHIF_RING_CFG_TYPE n).of v.toNat ≤ 3 ∧ 4 ≤ (fHIF_RING_CFG_LOG2_SIZE n).of v.toNat ∧
        (fHIF_RING_CFG_LOG2_SIZE n).of v.toNat ≤ 12)
    Answers (exec (.ringEnable r n v) s) fun t => rdN t pHIF (rHIF_RING_CFG n) = setBit v.toNat 0 true &&& 0xFFF1F ∧
      ring t n = Ring.cold ∧ t.clk = s.clk ∧
      (legal = true → flag t pHIF (fHIF_RING_STAT_RUN n) = true ∧ get t pHIF (fHIF_RING_STAT_ERR n) = 0 ∧
        rdN t pHIF (rHIF_RING_HEAD n) = 0 ∧ rdN t pHIF (rHIF_RING_TAIL n) = 0) ∧
      (legal = false → flag t pHIF (fHIF_RING_STAT_RUN n) = false ∧ get t pHIF (fHIF_RING_STAT_ERR n) = 1 ∧
        intRaw t pHIF 19 = true)) ∧
  (∀ (r : Requester) (n : Fin 16) (v : Word) (s : State),
    Shaped s → writable s r pHIF = true → flag s pHIF (fHIF_RING_CFG_EN n) = true →
    Answers (exec (.ringDisable r n v) s) fun t => flag t pHIF (fHIF_RING_CFG_EN n) = false ∧ (ring t n).given = [] ∧
      (ring t n).work = (ring s n).work ∧ t.clk = s.clk ∧
      flag t pHIF (fHIF_RING_STAT_RUN n) = (if (ring s n).work = [] then false else flag s pHIF (fHIF_RING_STAT_RUN n))) ∧
  (∀ (r : Requester) (n : Fin 16) (tail : BitVec 12) (descs : List (Word × Word × Word × Word)) (s : State),
    Shaped s → writable s r pHIF = true → flag s pHIF (fHIF_RING_CFG_EN n) = true →
    flag s pHIF (fHIF_RING_STAT_RUN n) = true → flag s pHIF (fHIF_RING_CFG_OWNER n) = false →
    Answers (exec (.ringTailWrite r n tail descs) s) fun t => get t pHIF (fHIF_RING_TAIL_IDX n) = tail.toNat ∧
      (ring t n).given = (ring s n).given ++ (descs.take (givenIdx s n tail.toNat).length).map (fun w =>
        descOf w.1.toNat w.2.1.toNat w.2.2.1.toNat w.2.2.2.toNat) ∧ t.clk = s.clk ∧
      OtherRegs s t [pHIF.adr (rHIF_RING_TAIL n)]) ∧
  (∀ (n : Fin 16) (d : Desc) (w : RingWork) (rest : List (Desc × RingWork)) (e : DescEnd) (s : State),
    Shaped s → flag s pHIF (fHIF_RING_STAT_RUN n) = true → flag s pHIF (fHIF_RING_CFG_OWNER n) = false →
    flag s pHIF fHIF_STAT_BME = true → (ring s n).work = (d, w) :: rest → workEnd d w = some e →
    let head := get s pHIF (fHIF_RING_HEAD_IDX n)
    let due := orD (get s pHIF (fHIF_RING_COAL_COUNT n)) 1 ≤ (ring s n).unrep + 1
    Answers (exec (.ringDescDone n true) s) fun t => (ring t n).work = rest ∧ (ring t n).given = (ring s n).given ∧
      get t pHIF (fHIF_RING_HEAD_IDX n) = (head + 1) % ringSize s n ∧
      t.hif.out = [(d.addr, e.bytes), (ringBase s n + 32 * head, descWords d e)] ∧
      (due → intRaw t pHIF n = true ∧ (ring t n).unrep = 0) ∧
      (¬ due → intRaw t pHIF n = intRaw s pHIF n ∧ (ring t n).unrep = (ring s n).unrep + 1) ∧
      (rest = [] → flag s pHIF (fHIF_RING_CFG_EN n) = false → flag t pHIF (fHIF_RING_STAT_RUN n) = false) ∧
      t.core = s.core ∧ t.clk = s.clk) ∧
  (∀ (n : Fin 16) (d : Desc) (rest : List Desc) (s : State),
    Shaped s → flag s pHIF (fHIF_RING_STAT_RUN n) = true → flag s pHIF (fHIF_RING_CFG_EN n) = true →
    flag s pHIF (fHIF_RING_CFG_OWNER n) = false → flag s pHIF fHIF_STAT_BME = true →
    get s pHIF (fHIF_RING_CFG_TYPE n) = 2 → (ring s n).work = [] → (ring s n).given = d :: rest →
    let e := recExport s d
    let head := get s pHIF (fHIF_RING_HEAD_IDX n)
    Answers (exec (.ringDescDone n true) s) fun t => (ring t n).given = rest ∧
      get t pHIF (fHIF_RING_HEAD_IDX n) = (head + 1) % ringSize s n ∧ e.status = (if d.len < 32 then 1 else 0) ∧
      t.hif.out = [(d.addr, e.bytes), (ringBase s n + 32 * head, descWords d e)] ∧ t.recd.store = s.recd.store ∧
      t.core = s.core ∧ t.clk = s.clk) ∧
  (∀ (n : Fin 16) (d : Desc) (w : RingWork) (rest : List (Desc × RingWork)) (e : DescEnd) (s : State),
    Shaped s → flag s pHIF (fHIF_RING_STAT_RUN n) = true → flag s pHIF fHIF_STAT_BME = true →
    (ring s n).work = (d, w) :: rest → workEnd d w = some e →
    Answers (exec (.ringDescDone n false) s) fun t => ring t n = Ring.cold ∧ flag t pHIF (fHIF_RING_STAT_RUN n) = false ∧
      get t pHIF (fHIF_RING_STAT_ERR n) = 2 ∧ intRaw t pHIF 19 = true ∧ t.core = s.core ∧ t.hif.out = [] ∧
      OtherRegs s t [pHIF.adr (rHIF_RING_STAT n), pHIF.adr rINT_RAW]) ∧
  (∀ (n : Fin 16) (s : State),
    Shaped s → 0 < get s pHIF (fHIF_RING_COAL_USEC n) → 0 < (ring s n).unrep →
    Answers (exec (.ringReport n) s) fun t => intRaw t pHIF n = true ∧ (ring t n).unrep = 0 ∧
      t.clk = (advMono s ((ring s n).since + get s pHIF (fHIF_RING_COAL_USEC n) * 1000)).clk ∧
      OtherRegs s t [pHIF.adr rINT_RAW])

/-- Rows BOOT_ROM_START, IMAGE_CHECK, NETBOOT_RETRY, LOAD_GO, COMMIT_RB, REVOKE, BOOT_FAIL and FUSE_WRITE_DONE. The ROM tries
the sources of BOOT_SEL; an image that passes every check starts both keepers at its entries with its words loaded and
shown; one that fails is logged with the first failing code and the next source is tried; DHCP backs off; a host load
starts where the ROM waits; a keeper raises the counter and revokes keys, others are denied and counted. Which image is
accepted depends on the key hashes in OTP, which are free values (log entry 2). -/
def Obligations.BootRom : Prop :=
  (∀ (s : State),
    Shaped s → s.boot.phase = .off → (hart s 0).run = true →
    let sel := get s pBOOT fBOOT_STAT_STRAP
    Answers (exec .bootRomStart s) fun t =>
      t.boot.srcs = (if sel = 0 then [0, 1] else if sel = 1 then [3] else if sel = 2 then [2] else [0, 1, 2]) ∧
      t.boot.phase = (if sel = 1 then .waiting else .trying) ∧ t.clk = s.clk ∧ t.core = s.core ∧
      (hart t 0).run = true ∧ (hart t 0).pc = (hart s 0).pc) ∧
  (∀ (image : List (BitVec 8)) (media : Bool) (src : Fin 4) (s : State),
    Shaped s → bootSource s = some src.val →
    let l := imageRead s src image
    let h := hdrOf l
    let code := imageCode s l media
    Answers (exec (.imageCheck image media) s) fun t => get t pBOOT ⟨rBOOT_TRY_LOG, 4 * src.val, 4⟩ = code ∧ t.clk = s.clk ∧
      (code = 0 → t.boot.phase = .done ∧ t.boot.srcs = [] ∧
        flag t pBOOT fBOOT_STAT_OK = true ∧ get t pBOOT fBOOT_STAT_SRC = src ∧ flag t pBOOT fBOOT_STAT_FAILED = false ∧
        rdN t pBOOT rBOOT_IMG_VER = hdrN h 0x18 4 ∧ get t pBOOT fBOOT_IMG_INFO_ROLLBACK = hdrN h 0xC 4 ∧
        get t pCPU (fCPU_START_PC 0) = hdrN h 0xA0 4 / 4 ∧ get t pCPU (fCPU_START_PC 1) = hdrN h 0xA4 4 / 4 ∧
        (hart t 0).run = true ∧ (hart t 0).pc = BitVec.ofNat 64 (hdrN h 0xA0 4) ∧
        (hart t 1).run = true ∧ (hart t 1).pc = BitVec.ofNat 64 (hdrN h 0xA4 4) ∧
        t.core = (loadSegs (hdrSegs h) (payloadOf l) s).core) ∧
      (code ≠ 0 → t.harts = s.harts ∧ (code < 5 → t.core = s.core) ∧
        (src.val < 2 → t.boot.phase = s.boot.phase ∧ t.boot.srcs = s.boot.srcs.drop 1) ∧
        (src = 2 → t.boot.srcs = s.boot.srcs ∧ t.boot.dhcp = 4) ∧
        (src = 3 → t.boot.phase = .waiting ∧ flag t pBOOT fBOOT_STAT_FAILED = true))) ∧
  (∀ (tftp : Bool) (rest : List Nat) (s : State),
    s.boot.phase = .trying → s.boot.srcs = 2 :: rest →
    Answers (exec (.netbootRetry tftp) s) fun t => t.boot.srcs = s.boot.srcs ∧ t.boot.phase = s.boot.phase ∧
      t.clk = (advMono s (s.boot.netAt + (if tftp then 1 else s.boot.dhcp) * 1000000000)).clk ∧ t.boot.netAt = mono t ∧
      (tftp = false → t.boot.dhcp = min (2 * s.boot.dhcp) 64) ∧
      (tftp = true → s.boot.tftp < 5 → t.boot.tftp = s.boot.tftp + 1) ∧
      (tftp = true → 5 ≤ s.boot.tftp → t.boot.tftp = 0 ∧ t.boot.dhcp = 4) ∧ t.regs = s.regs) ∧
  (∀ (r : Requester) (s : State),
    writable s r pBOOT = true → (s.boot.phase = .waiting ∨ s.boot.phase = .failed) →
    Answers (exec (.loadGo r) s) fun t => t.boot.phase = .loading ∧ flag t pBOOT fBOOT_CTRL_BUSY = true ∧ t.core = s.core ∧
      t.clk = s.clk ∧ OtherRegs s t [pBOOT.adr rBOOT_CTRL]) ∧
  (∀ (r : Requester) (s : State),
    writable s r pBOOT = true →
    Answers (exec (.commitRb r) s) fun t => t.clk = s.clk ∧ t.core = s.core ∧
      (isKeeper r = false → t.boot = s.boot ∧ rdN t pCPU rCPU_DENY_CNT = min (rdN s pCPU rCPU_DENY_CNT + 1) 0xFFFFFFFF) ∧
      (isKeeper r = true → s.boot.fuse = none →
        get s pBOOT fBOOT_OTP_STAT_RB_CNT < get s pBOOT fBOOT_IMG_INFO_ROLLBACK →
        t.boot.fuse = some 0 ∧ flag t pBOOT fBOOT_CTRL_BUSY = true) ∧
      (isKeeper r = true → get s pBOOT fBOOT_IMG_INFO_ROLLBACK ≤ get s pBOOT fBOOT_OTP_STAT_RB_CNT → t.boot = s.boot)) ∧
  (∀ (r : Requester) (key : Fin 4) (s : State),
    writable s r pBOOT = true →
    let last := decide (get s pBOOT fBOOT_OTP_STAT_REVOKED ||| 2 ^ key.val = 15)
    Answers (exec (.revoke r key) s) fun t => t.clk = s.clk ∧ t.core = s.core ∧
      (isKeeper r = false → t.boot = s.boot ∧ rdN t pCPU rCPU_DENY_CNT = min (rdN s pCPU rCPU_DENY_CNT + 1) 0xFFFFFFFF) ∧
      (isKeeper r = true → last = true → t.boot = s.boot ∧ flag t pBOOT fBOOT_CTRL_CTRL_ERR = true ∧
        intRaw t pBOOT 2 = true) ∧
      (isKeeper r = true → last = false → s.boot.fuse = none →
        t.boot.fuse = some (1 + key.val) ∧ flag t pBOOT fBOOT_CTRL_BUSY = true ∧ flag t pBOOT fBOOT_CTRL_CTRL_ERR = false)) ∧
  (∀ (s : State),
    s.boot.phase = .trying → s.boot.srcs = [] →
    Answers (exec .bootFail s) fun t => t.boot.phase = .failed ∧ flag t pBOOT fBOOT_STAT_FAILED = true ∧ t.clk = s.clk ∧
      t.core = s.core ∧ OtherRegs s t [pBOOT.adr rBOOT_STAT]) ∧
  (∀ (f : Fin 5) (s : State),
    s.boot.fuse = some f.val →
    Answers (exec .fuseWriteDone s) fun t => t.boot.fuse = none ∧ t.clk = s.clk ∧
      flag t pBOOT fBOOT_CTRL_BUSY = (s.boot.phase == .loading) ∧
      (f = 0 → intRaw t pBOOT 0 = true ∧ get t pBOOT fBOOT_OTP_STAT_RB_CNT =
        max (get s pBOOT fBOOT_OTP_STAT_RB_CNT) (get s pBOOT fBOOT_IMG_INFO_ROLLBACK)) ∧
      (f ≠ 0 → intRaw t pBOOT 1 = true ∧
        get t pBOOT fBOOT_OTP_STAT_REVOKED = get s pBOOT fBOOT_OTP_STAT_REVOKED ||| 2 ^ (f.val - 1)))

/-- Rows PWR_REQUEST, PWR_ENTER, PWR_WAKE, PWR_EXIT, AVS_WRITE and AVS_STATUS. A request that no code of R444 refuses begins,
a refused one shows the first code; an entry stops and drops what R445 says and shows the state; a wake source that
stands begins the exit, or is remembered during an entry; an exit returns to RUN, hart 0 starting at address 0 after VIGIL or KEEP; a
waiting setpoint is written, and read back 10 µs later, retried three times and then shown as failed. -/
def Obligations.PowerStates : Prop :=
  (∀ (r : Requester) (v : Word) (perst : Bool) (s : State),
    writable s r pHubDie = true → bitOf v.toNat 31 = true →
    let req := fDIE_PWR_CTRL_REQ.of v.toNat
    let busy := flag s pHubDie fDIE_PWR_STAT_BUSY
    let e := if busy = true then 1 else if pwrState s ≠ 0 ∧ req ≠ 0 then 2
      else if 2 ≤ req ∧ get s pHubDie fDIE_WAKE_CFG_SRC = 0 then 3
      else if req ≠ 0 ∧ get s pHubDie fDIE_WAKE_CFG_SRC &&& wakeStands s perst false false ≠ 0 then 4 else 0
    Answers (exec (.pwrRequest r v perst) s) fun t => t.clk = s.clk ∧ t.pwr.on = s.pwr.on ∧
      (isApp r = true → t.pwr = s.pwr ∧ rdN t pCPU rCPU_DENY_CNT = min (rdN s pCPU rCPU_DENY_CNT + 1) 0xFFFFFFFF) ∧
      (isApp r = false → busy = false → pwrState s = req → t.pwr = s.pwr ∧ t.harts = s.harts) ∧
      (isApp r = false → busy = true ∨ pwrState s ≠ req → e ≠ 0 →
        t.pwr = s.pwr ∧ get t pHubDie fDIE_PWR_STAT_ERR = e ∧ intRaw t pHubDie 1 = true ∧ t.harts = s.harts) ∧
      (isApp r = false → busy = true ∨ pwrState s ≠ req → e = 0 →
        get t pHubDie fDIE_PWR_STAT_ERR = 0 ∧ flag t pHubDie fDIE_PWR_STAT_BUSY = true ∧
        (req = 0 → t.pwr.exiting = true) ∧ (req ≠ 0 → t.pwr.entering = some req) ∧
        (req < 2 → t.harts = s.harts) ∧ (2 ≤ req → (t.harts.all fun h => !h.run) = true))) ∧
  (∀ (st : Nat) (s : State),
    Shaped s → s.pwr.entering = some st → (1 ≤ st ∧ st ≤ 3) → s.pwr.woken = 0 →
    Answers (exec .pwrEnter s) fun t => t.pwr.entering = none ∧ pwrState t = st ∧ t.clk.p = s.clk.p ∧
      flag t pHubDie fDIE_PWR_STAT_BUSY = false ∧ intRaw t pHubDie 0 = true ∧
      (st = 1 → t.pwr.ret = get s pHubDie fDIE_LIGHT_RET_DOM &&& s.pwr.on ∧ t.pwr.on = s.pwr.on ∧ t.core = s.core) ∧
      (2 ≤ st → (∀ d : Fin 15, domOn t d = false) ∧ t.pwr.turning = 0 ∧ flag t pHIF fHIF_STAT_LINK_UP = false ∧
        t.pke.owners = [] ∧ t.kisl.keys = [] ∧ (∀ n : Fin 16, ring t n = Ring.cold)) ∧
      (st = 2 → t.core = s.core) ∧ (st = 3 → t.core = [])) ∧
  (∀ (perst con ask : Bool) (s : State),
    s.pwr.entering = none → pwrState s ≠ 0 → flag s pHubDie fDIE_PWR_STAT_BUSY = false →
    wakeStands s perst con ask &&& get s pHubDie fDIE_WAKE_CFG_SRC ≠ 0 →
    Answers (exec (.pwrWake perst con ask) s) fun t => t.clk.p = s.clk.p ∧ t.pwr.exiting = true ∧ t.pwr.on = s.pwr.on ∧
      get t pHubDie fDIE_PWR_STAT_LAST_WAKE = wakeStands s perst con ask ∧ flag t pHubDie fDIE_PWR_STAT_BUSY = true ∧
      pwrState t = pwrState s ∧ t.core = s.core ∧
      t.pwr.turning = (if 2 ≤ pwrState s then rdN s pHubDie rDIE_DOM_REQ else s.pwr.turning)) ∧
  (∀ (perst con ask : Bool) (s : State),
    s.pwr.entering.isSome = true → wakeStands s perst con ask &&& get s pHubDie fDIE_WAKE_CFG_SRC ≠ 0 →
    Answers (exec (.pwrWake perst con ask) s) fun t => t.regs = s.regs ∧ t.clk = s.clk ∧
      t.pwr = { s.pwr with woken := s.pwr.woken ||| wakeStands s perst con ask }) ∧
  (∀ (st : Nat) (s : State),
    Shaped s → s.pwr.exiting = true → pwrState s = st → 1 ≤ st →
    Answers (exec .pwrExit s) fun t => t.pwr.exiting = false ∧ pwrState t = 0 ∧ t.clk.p = s.clk.p ∧
      flag t pHubDie fDIE_PWR_STAT_BUSY = false ∧ intRaw t pHubDie 3 = true ∧ t.core = s.core ∧
      (st = 1 → t.pwr.ret = 0 ∧ t.harts = s.harts) ∧
      (2 ≤ st → (hart t 0).run = true ∧ (hart t 0).pc = 0 ∧ t.boot = { Boot.cold with netAt := t.boot.netAt } ∧
        ∀ d : Fin 15, domOn t d = bitOf (rdN s pHubDie rDIE_DOM_REQ) d)) ∧
  (∀ (j : AvsJob) (rest : List AvsJob) (s : State),
    s.pwr.avs = j :: rest → j.sent = none →
    Answers (exec .avsWrite s) fun t => t.regs = s.regs ∧ t.clk = (advMono s j.due).clk ∧
      t.pwr = { s.pwr with avs := { j with sent := some (mono t) } :: rest }) ∧
  (∀ (j : AvsJob) (rest : List AvsJob) (n : Nat) (good : Bool) (s : State),
    s.pwr.avs = j :: rest → j.sent = some n → j.rail < 5 →
    let p := pHubDie
    Answers (exec (.avsStatus good) s) fun t => t.clk = (advMono s (n + 10000)).clk ∧
      (good = true → t.pwr = { s.pwr with avs := rest } ∧
        get t p fDIE_AVS_STAT_FAIL = setBit (get s p fDIE_AVS_STAT_FAIL) j.rail false ∧
        get t p fDIE_AVS_STAT_UNCONF = setBit (get s p fDIE_AVS_STAT_UNCONF) j.rail false ∧
        OtherRegs s t [p.adr rDIE_AVS_STAT]) ∧
      (good = false → j.tries < 3 → t.regs = s.regs ∧
        t.pwr = { s.pwr with avs := { j with tries := j.tries + 1, due := n + 50000, sent := none } :: rest }) ∧
      (good = false → 3 ≤ j.tries → t.pwr = { s.pwr with avs := rest } ∧ intRaw t p 2 = true ∧
        bitOf (get t p fDIE_AVS_STAT_FAIL) j.rail = true ∧ bitOf (get t p fDIE_AVS_STAT_UNCONF) j.rail = true ∧
        rdN t p rDIE_AVS_ERR_CNT = min (rdN s p rDIE_AVS_ERR_CNT + 1) 0xFFFFFFFF))

/-- Rows TST_UNLOCK, RELOCK, DOUBT_INJ_WRITE, TILE_INJ_ARM, BACKPRESSURE_PERIOD and TAP_INSTRUCTION. 0x7E57 and then 0x0A11
from one requester within 1 ms unlock a page where TEST_EN was sampled as 1; any other write discards the first value; a locked page
discards and counts writes; a lock returns the configuration to its cold values; tile inversions are armed with their bit
within its limit; back-pressure holds the selected ports; an unlisted TAP code selects BYPASS. That back-pressure starts at the
event's instant is the model's own (log entry 4). -/
def Obligations.TestAccess : Prop :=
  (∀ (r : Requester) (die : Fin 8) (s : State),
    writable s r (pTST die) = true →
    Answers (exec (.tstUnlock r die 0x7E57) s) fun t => t.regs = s.regs ∧ t.clk = s.clk ∧
      amGet? die.val t.unlock = some (reqCode r, mono s)) ∧
  (∀ (r : Requester) (die : Fin 8) (v : Word) (s : State),
    writable s r (pTST die) = true → v.toNat % 0x10000 ≠ 0x7E57 →
    let first := amGet? die.val s.unlock
    let hit := decide (v.toNat % 0x10000 = 0x0A11) && first.any fun f => f.1 == reqCode r && decide (mono s ≤ f.2 + 1000000)
    Answers (exec (.tstUnlock r die v) s) fun t => t.clk.p = s.clk.p ∧ amGet? die.val t.unlock = none ∧
      (hit = true → s.straps.testEn = true → flag t (pTST die) fTST_STAT_UNLOCKED = true) ∧
      (hit = true → s.straps.testEn = false →
        rdN t (pDIE die) rDIE_LOCK_VIOL_CNT = min (rdN s (pDIE die) rDIE_LOCK_VIOL_CNT + 1) 0xFFFFFFFF ∧
        OtherRegs s t [(pDIE die).adr rDIE_LOCK_VIOL_CNT]) ∧
      (hit = false → t.regs = s.regs)) ∧
  (∀ (r : Requester) (die : Fin 8) (s : State),
    Shaped s → writable s r (pTST die) = true →
    let p := pTST die
    Answers (exec (.relock r die) s) fun t => t.clk.p = s.clk.p ∧ t.core = s.core ∧
      (flag s p fTST_STAT_UNLOCKED = false → OtherRegs s t [(pDIE die).adr rDIE_LOCK_VIOL_CNT] ∧
        rdN t (pDIE die) rDIE_LOCK_VIOL_CNT = min (rdN s (pDIE die) rDIE_LOCK_VIOL_CNT + 1) 0xFFFFFFFF) ∧
      (flag s p fTST_STAT_UNLOCKED = true → flag t p fTST_STAT_UNLOCKED = false ∧ get t p fTST_STAT_ACTIVE = 0 ∧
        rdN t p rTST_DOUBT_INJ = 0 ∧ rdN t p rTST_XING_DLY = (coldAt (p.adr rTST_XING_DLY)).toNat ∧
        flag t p fTST_STAT_INJ_NOP = false)) ∧
  (∀ (r : Requester) (die : Fin 8) (v : Word) (s : State),
    writable s r (pTST die) = true →
    let p := pTST die
    Answers (exec (.doubtInjWrite r die v) s) fun t => t.clk.p = s.clk.p ∧
      (flag s p fTST_STAT_UNLOCKED = false → OtherRegs s t [(pDIE die).adr rDIE_LOCK_VIOL_CNT] ∧
        rdN t (pDIE die) rDIE_LOCK_VIOL_CNT = min (rdN s (pDIE die) rDIE_LOCK_VIOL_CNT + 1) 0xFFFFFFFF) ∧
      (flag s p fTST_STAT_UNLOCKED = true → rdN t p rTST_DOUBT_INJ = v.toNat &&& 0x801F01FF ∧
        (flag s p fPAGE_CTRL_EN = true → bitOf v.toNat 31 = true → bitOf (get t p fTST_STAT_ACTIVE) 5 = true) ∧
        (bitOf v.toNat 31 = false → bitOf (get t p fTST_STAT_ACTIVE) 5 = false))) ∧
  (∀ (r : Requester) (d : Fin 4) (v : Word) (s : State),
    Shaped s → writable s r (pTST (4 + d.val)) = true → flag s (pTST (4 + d.val)) fTST_STAT_UNLOCKED = true →
    let p := pTST (4 + d.val)
    let kind := if v.toNat % 4 = 3 then 0 else v.toNat % 4
    Answers (exec (.tileInjArm r d v) s) fun t => t.clk.p = s.clk.p ∧
      get t p fTST_TILE_INJ_BIT = min (fTST_TILE_INJ_BIT.of v.toNat) (if kind = 0 then 2063 else 511) ∧
      get t p fTST_TILE_INJ_COUNT = fTST_TILE_INJ_COUNT.of v.toNat ∧
      (bitOf v.toNat 31 = true → flag t p fTST_TILE_INJ_ARMED = true ∧
        (pd t d).inj = some ⟨kind, orD (fTST_TILE_INJ_COUNT.of v.toNat) 1⟩) ∧
      (bitOf v.toNat 31 = false → (pd t d).inj = (pd s d).inj)) ∧
  (∀ (d : Fin 4) (s : State),
    Shaped s → perturbed s (4 + d.val) = true → 0 < get s (pTST (4 + d.val)) fTST_BP_CFG_BUSY_NS →
    let busy := get s (pTST (4 + d.val)) fTST_BP_CFG_BUSY_NS * 65536
    Answers (exec (.backpressurePeriod d) s) fun t => t.regs = s.regs ∧ t.clk = s.clk ∧
      ∀ i : Fin 8, (bitOf (get s (pTST (4 + d.val)) fTST_BP_PORTS_PORT) i = true →
          (port t d i).occ = (nowP s d, nowP s d + busy) :: (port s d i).occ.filter (fun o => decide (nowP s d < o.2))) ∧
        (bitOf (get s (pTST (4 + d.val)) fTST_BP_PORTS_PORT) i = false → port t d i = port s d i)) ∧
  (∀ (code : Option (BitVec 8)) (s : State),
    Answers (exec (.tapInstruction code) s) fun t => t = { s with tap := t.tap } ∧ (code = none → t.tap = 2) ∧
      ∀ c : Fin 256, code = some (BitVec.ofNat 8 c) → t.tap = (if c < 8 ∧ c ≠ 3 then c.val else 0xFF))

/-- R346 and R420 for the rows DOORBELL and HDB, and for REG_WRITE of DB_PEND, where the page takes the write (it is powered,
not in retention and R342 denies nothing). A write of CPU.DBh by the host or a hart other than h stores the message and
sets DB_PEND[h]; where DB_PEND[h] was set it also increments DB_OVR_CNT (saturating) and sets INT_RAW[4], and where it was not,
neither changes; nothing else changes outside the Recorder's page. Hart h clears DB_PEND[h] by writing 1 to it and keeps the
message; its own write of DBh is discarded. A hart's write of HIF.HDB stores message and hart number and sets INT_RAW[16], and
where that was set increments HDB_OVR_CNT; the host's is discarded. -/
def Obligations.Doorbells : Prop :=
  (∀ (r : Requester) (h : Fin 6) (msg : Word) (s : State),
    readable s pCPU = true → pageRetained s pCPU = false → appDenied s r pCPU true = false →
    isHart r h = false →
    Answers (exec (.doorbell r h msg) s) fun t => rd t pCPU (rCPU_DB h) = msg ∧
      bitOf (get t pCPU fCPU_DB_PEND_PEND) h = true ∧ t.harts = s.harts ∧
      (bitOf (get s pCPU fCPU_DB_PEND_PEND) h = true → intRaw t pCPU 4 = true ∧
        rdN t pCPU rCPU_DB_OVR_CNT = min (rdN s pCPU rCPU_DB_OVR_CNT + 1) 0xFFFFFFFF) ∧
      (bitOf (get s pCPU fCPU_DB_PEND_PEND) h = false → rdN t pCPU rINT_RAW = rdN s pCPU rINT_RAW ∧
        rdN t pCPU rCPU_DB_OVR_CNT = rdN s pCPU rCPU_DB_OVR_CNT) ∧
      (∀ k : Fin 6, k ≠ h → bitOf (get t pCPU fCPU_DB_PEND_PEND) k = bitOf (get s pCPU fCPU_DB_PEND_PEND) k) ∧
      OtherRegs s t [pCPU.adr (rCPU_DB h), pCPU.adr rCPU_DB_PEND, pCPU.adr rCPU_DB_OVR_CNT, pCPU.adr rINT_RAW]) ∧
  (∀ (h : Fin 6) (msg : Word) (s : State),
    readable s pCPU = true →
    Answers (exec (.doorbell (.hart h) h msg) s) fun t => rd t pCPU (rCPU_DB h) = rd s pCPU (rCPU_DB h) ∧
      rd t pCPU rCPU_DB_PEND = rd s pCPU rCPU_DB_PEND ∧ rd t pCPU rCPU_DB_OVR_CNT = rd s pCPU rCPU_DB_OVR_CNT ∧ t.harts = s.harts) ∧
  (∀ (h : Fin 6) (v : BitVec 64) (env : WriteFacts) (s : State),
    readable s pCPU = true → pageRetained s pCPU = false → appDenied s (.hart h) pCPU true = false →
    bitOf v.toNat h = true →
    Answers (exec (.regWrite (.hart h) (pCPU.adr rCPU_DB_PEND) .b32 v env) s) fun t =>
      bitOf (get t pCPU fCPU_DB_PEND_PEND) h = false ∧ (∀ k : Fin 6, rd t pCPU (rCPU_DB k) = rd s pCPU (rCPU_DB k))) ∧
  (∀ (r : Requester) (msg : BitVec 24) (s : State),
    writable s r pHIF = true →
    Answers (exec (.hdb r msg) s) fun t => t.clk = s.clk ∧ (r = .host → t.regs = s.regs) ∧
      ∀ h : Fin 6, r = .hart h → get t pHIF fHIF_HDB_MSG = msg.toNat ∧ get t pHIF fHIF_HDB_HART = h ∧
        intRaw t pHIF 16 = true ∧ rdN t pHIF rHIF_HDB_OVR_CNT = (if intRaw s pHIF 16 = true
          then min (rdN s pHIF rHIF_HDB_OVR_CNT + 1) 0xFFFFFFFF else rdN s pHIF rHIF_HDB_OVR_CNT))

end Slice0
end

