-- ==== Sys2Proof/Laws/Sparse.lean ====
section
/-! SUPPORT. Laws of sparse storage: what a lookup answers after a store, a removal and a filter, and that each keeps
the canonical form. -/

namespace Sys2Proof.Machine

theorem amGet_set {α : Type} (k j : Nat) (v : α) (m : List (Nat × α)) :
    amGet? j (amSet k v m) = if j = k then some v else amGet? j m := by
  induction m with
  | nil => simp [amSet, amGet?]
  | cons e t ih =>
    obtain ⟨n, w⟩ := e
    simp only [amSet]
    split
    · simp only [amGet?]
    · split
      · next h => subst h; simp only [amGet?]; split <;> rfl
      · next h => simp only [amGet?, ih]; split <;> split <;> simp_all

theorem amGet_erase {α : Type} (k j : Nat) (m : List (Nat × α)) :
    amGet? j (amErase k m) = if j = k then none else amGet? j m := by
  induction m with
  | nil => simp [amErase, amGet?]
  | cons e t ih =>
    obtain ⟨n, w⟩ := e
    simp only [amErase]
    split
    · next h => subst h; rw [ih]; simp only [amGet?]; split <;> rfl
    · next h => simp only [amGet?, ih]; split <;> split <;> simp_all

theorem amGet_filter {α : Type} (f : Nat → Bool) (j : Nat) (m : List (Nat × α)) :
    amGet? j (m.filter fun e => f e.1) = if f j then amGet? j m else none := by
  induction m with
  | nil => simp [amGet?]
  | cons e t ih =>
    obtain ⟨n, w⟩ := e
    by_cases h : f n
    · rw [List.filter_cons_of_pos (by simpa using h)]
      simp only [amGet?, ih]
      split
      · next hj => simp [hj, h]
      · rfl
    · rw [List.filter_cons_of_neg (by simpa using h)]
      rw [ih]
      simp only [amGet?]
      by_cases hj : j = n
      · subst hj; simp [h]
      · simp [hj]

theorem amAbove_mono {α : Type} {a b : Nat} (h : a ≤ b) {m : List (Nat × α)} (hm : amAbove b m = true) :
    amAbove a m = true := by
  cases m with
  | nil => rfl
  | cons e t => simp only [amAbove, Bool.and_eq_true, decide_eq_true_eq] at hm ⊢; exact ⟨by omega, hm.2⟩

theorem amAbove_set {α : Type} {lo k : Nat} (v : α) {m : List (Nat × α)} (h : lo < k) (hm : amAbove lo m = true) :
    amAbove lo (amSet k v m) = true := by
  induction m generalizing lo with
  | nil => simp [amSet, amAbove, h]
  | cons e t ih =>
    obtain ⟨n, w⟩ := e
    simp only [amAbove, Bool.and_eq_true, decide_eq_true_eq] at hm
    simp only [amSet]
    split
    · next hk => simp [amAbove, h, hk, hm.2]
    · split
      · next hk => subst hk; simp [amAbove, h, hm.2]
      · next h1 h2 => simp only [amAbove, Bool.and_eq_true, decide_eq_true_eq]; exact ⟨hm.1, ih (by omega) hm.2⟩

theorem amWf_set {α : Type} (k : Nat) (v : α) {m : List (Nat × α)} (hm : amWf m = true) : amWf (amSet k v m) = true := by
  cases m with
  | nil => simp [amSet, amWf, amAbove]
  | cons e t =>
    obtain ⟨n, w⟩ := e
    simp only [amWf] at hm
    simp only [amSet]
    split
    · next hk => simp [amWf, amAbove, hk, hm]
    · split
      · next hk => subst hk; simpa [amWf] using hm
      · next h1 h2 => simp only [amWf]; exact amAbove_set v (by omega) hm

theorem amAbove_filter {α : Type} {lo : Nat} (f : Nat × α → Bool) {m : List (Nat × α)} (hm : amAbove lo m = true) :
    amAbove lo (m.filter f) = true := by
  induction m generalizing lo with
  | nil => rfl
  | cons e t ih =>
    obtain ⟨n, w⟩ := e
    simp only [amAbove, Bool.and_eq_true, decide_eq_true_eq] at hm
    by_cases h : f (n, w)
    · rw [List.filter_cons_of_pos h]; simp [amAbove, hm.1, ih hm.2]
    · rw [List.filter_cons_of_neg h]; exact ih (amAbove_mono (by omega) hm.2)

theorem amWf_filter {α : Type} (f : Nat × α → Bool) {m : List (Nat × α)} (hm : amWf m = true) :
    amWf (m.filter f) = true := by
  cases m with
  | nil => rfl
  | cons e t =>
    obtain ⟨n, w⟩ := e
    simp only [amWf] at hm
    by_cases h : f (n, w)
    · rw [List.filter_cons_of_pos h]; simp only [amWf]; exact amAbove_filter f hm
    · rw [List.filter_cons_of_neg h]
      cases t with
      | nil => rfl
      | cons e' t' =>
        have := amAbove_filter f hm
        cases hl : (e' :: t').filter f with
        | nil => rfl
        | cons e'' t'' => rw [hl] at this; simp only [amAbove, Bool.and_eq_true] at this; exact this.2

/-- Removing a key is a filter. -/
theorem amErase_eq {α : Type} (k : Nat) (m : List (Nat × α)) : amErase k m = m.filter fun e => e.1 != k := by
  induction m with
  | nil => rfl
  | cons e t ih =>
    obtain ⟨n, w⟩ := e
    simp only [amErase]
    split
    · next h => subst h; rw [List.filter_cons_of_neg (by simp)]; exact ih
    · next h => rw [List.filter_cons_of_pos (by simpa using fun e => h e.symm), ih]

theorem amWf_erase {α : Type} (k : Nat) {m : List (Nat × α)} (hm : amWf m = true) : amWf (amErase k m) = true := by
  rw [amErase_eq]; exact amWf_filter _ hm

/-- Every entry of a list after a store is the entry stored or one of before. -/
theorem mem_amSet {α : Type} {k : Nat} {v : α} {m : List (Nat × α)} {e : Nat × α} (h : e ∈ amSet k v m) :
    e = (k, v) ∨ e ∈ m := by
  induction m with
  | nil => simpa [amSet] using h
  | cons d t ih =>
    obtain ⟨n, w⟩ := d
    simp only [amSet] at h
    split at h
    · simpa using h
    · split at h
      · next hk =>
        subst hk
        rcases List.mem_cons.mp h with h | h
        · exact .inl h
        · exact .inr (List.mem_cons_of_mem _ h)
      · rcases List.mem_cons.mp h with h | h
        · exact .inr (h ▸ List.mem_cons_self)
        · rcases ih h with h | h
          · exact .inl h
          · exact .inr (List.mem_cons_of_mem _ h)

theorem mem_amErase {α : Type} {k : Nat} {m : List (Nat × α)} {e : Nat × α} (h : e ∈ amErase k m) : e ∈ m := by
  rw [amErase_eq] at h; exact (List.mem_filter.mp h).1

end Sys2Proof.Machine
end

