-- ==== Sys2Proof/Laws/Regs.lean ====
section
/-! SUPPORT. Registers and fields: what each reads after a store, and that records, interrupt bits and doubts change
nothing outside the Recorder's page and their own register. -/

namespace Sys2Proof.Machine

/-! ### Stores and reads -/

theorem rdA_wrA (s : State) (a b : Nat) (v : Word) : rdA (wrA s a v) b = if b = a then v else rdA s b := by
  simp only [rdA, wrA]
  by_cases hv : v = coldAt a
  · rw [if_pos hv, amGet_erase]
    by_cases hb : b = a
    · subst hb; simp [hv]
    · simp [hb]
  · rw [if_neg hv, amGet_set]
    by_cases hb : b = a
    · simp [hb]
    · simp [hb]

theorem rdA_wrA_ne (s : State) {a b : Nat} (v : Word) (h : b ≠ a) : rdA (wrA s a v) b = rdA s b := by
  rw [rdA_wrA, if_neg h]

/-- The other fields of a state take no part in what a register reads. -/
@[simp] theorem rdA_mk (s : State) (clk' : Clock) (snapTbe' : List Snap) (snapLtr' : List (List Snap)) (lastRead' :
    BitVec 64) (free' : Nat) (straps' : Straps) (tb' : TimeBase) (recd' : Recorder) (fab' : Fabric) (saf' : Safe)
    (pwr' : Power) (dsc' : Servo) (oven' : Oven) (mck' : Mck) (rad' : Radio) (ports' : List PortDie) (kisl' :
    KeyIsland) (links' : List AskLink) (core' : List Host.Cell) (tdc' : Tdc) (pke' : Pke) (rings' : List Ring)
    (harts' : List Hart) (age' : Age) (hif' : Hif) (boot' : Boot) (cntLatch' : List (Nat × Word))
    (unlock' : List (Nat × (Nat × Nat))) (tap' : Nat) (pending' : List Instr) (a : Nat) :
    rdA ⟨s.regs, clk', snapTbe', snapLtr', lastRead', free', straps', tb', recd', fab', saf', pwr', dsc', oven', mck',
      rad', ports', kisl', links', core', tdc', pke', rings', harts', age', hif', boot', cntLatch', unlock', tap',
      pending'⟩ a = rdA s a := by cases s; rfl

@[simp] theorem rdA_reply (s : State) (v a : Nat) : rdA (reply s v) a = rdA s a := by cases s; rfl

@[simp] theorem rdA_drawn (s : State) (a : Nat) : rdA (drawn s) a = rdA s a := by cases s; rfl

@[simp] theorem lastRead_reply (s : State) (v : Nat) : (reply s v).lastRead = BitVec.ofNat 64 v := by cases s; rfl

theorem rdA_wrN (s : State) (p : Pg) (o v a : Nat) :
    rdA (wrN s p o v) a = if a = p.adr o then BitVec.ofNat 32 v else rdA s a := rdA_wrA s _ a _

theorem rdA_wrN_ne (s : State) (p : Pg) (o v : Nat) {a : Nat} (h : a ≠ p.adr o) : rdA (wrN s p o v) a = rdA s a :=
  rdA_wrA_ne s _ h

theorem rdN_wrN_same (s : State) (p : Pg) (o v : Nat) : rdN (wrN s p o v) p o = v % 2 ^ 32 := by
  simp only [rdN, rd, rdA_wrN, if_true, BitVec.toNat_ofNat]

theorem rdN_wrN_ne (s : State) (p q : Pg) (o o' v : Nat) (h : q.adr o' ≠ p.adr o) :
    rdN (wrN s p o v) q o' = rdN s q o' := by
  simp only [rdN, rd, rdA_wrN_ne s p o v h]

theorem rdA_put_ne (s : State) (p : Pg) (f : Fld) (v : Nat) {a : Nat} (h : a ≠ p.adr f.off) :
    rdA (put s p f v) a = rdA s a := rdA_wrN_ne s p _ _ h

theorem rdA_putB_ne (s : State) (p : Pg) (f : Fld) (b : Bool) {a : Nat} (h : a ≠ p.adr f.off) :
    rdA (putB s p f b) a = rdA s a := rdA_wrN_ne s p _ _ h

theorem rdA_putS_ne (s : State) (p : Pg) (f : Fld) (i : Int) {a : Nat} (h : a ≠ p.adr f.off) :
    rdA (putS s p f i) a = rdA s a := rdA_wrN_ne s p _ _ h

theorem rdA_bumpBy_ne (s : State) (p : Pg) (o k : Nat) {a : Nat} (h : a ≠ p.adr o) :
    rdA (bumpBy s p o k) a = rdA s a := rdA_wrN_ne s p _ _ h

theorem rdA_bump_ne (s : State) (p : Pg) (o : Nat) {a : Nat} (h : a ≠ p.adr o) :
    rdA (bump s p o) a = rdA s a := rdA_wrN_ne s p _ _ h

theorem rdA_bumpF_ne (s : State) (p : Pg) (f : Fld) {a : Nat} (h : a ≠ p.adr f.off) :
    rdA (bumpF s p f) a = rdA s a := rdA_wrN_ne s p _ _ h

theorem rdA_maxF_ne (s : State) (p : Pg) (f : Fld) (v : Nat) {a : Nat} (h : a ≠ p.adr f.off) :
    rdA (maxF s p f v) a = rdA s a := rdA_wrN_ne s p _ _ h

theorem rdA_wrB_ne (s : State) (q : Nat) (p : Pg) (o v : Nat) {a : Nat} (h : a ≠ bank q p o) :
    rdA (wrB s q p o v) a = rdA s a := rdA_wrA_ne s _ h

theorem rdA_putQ_ne (s : State) (q : Nat) (p : Pg) (f : Fld) (v : Nat) {a : Nat} (h : a ≠ bank q p f.off) :
    rdA (putQ s q p f v) a = rdA s a := rdA_wrA_ne s _ h

theorem rdA_wr64_ne (s : State) (p : Pg) (lo hi v : Nat) {a : Nat} (h : a ≠ p.adr lo) (h' : a ≠ p.adr hi) :
    rdA (wr64 s p lo hi v) a = rdA s a := by
  simp only [wr64, rdA_wrN_ne _ p _ _ h', rdA_wrN_ne _ p _ _ h]

/-! ### Fields -/

theorem Fld.of_lt (f : Fld) (n : Nat) : f.of n < 2 ^ f.w := Nat.mod_lt _ (by positivity)

theorem Fld.of_into (f : Fld) (n v : Nat) : f.of (f.into n v) = v % 2 ^ f.w := by
  simp only [Fld.of, Fld.into]
  have h1 : n = n % 2 ^ f.lo + 2 ^ f.lo * (n / 2 ^ f.lo) := (Nat.mod_add_div _ _).symm
  have h2 : n / 2 ^ f.lo = n / 2 ^ f.lo % 2 ^ f.w + 2 ^ f.w * (n / 2 ^ f.lo / 2 ^ f.w) := (Nat.mod_add_div _ _).symm
  generalize n / 2 ^ f.lo % 2 ^ f.w = m at *
  generalize n / 2 ^ f.lo / 2 ^ f.w = q at *
  have h3 : n - m * 2 ^ f.lo + v % 2 ^ f.w * 2 ^ f.lo
      = n % 2 ^ f.lo + 2 ^ f.lo * (v % 2 ^ f.w + 2 ^ f.w * q) := by
    have h4 : n = n % 2 ^ f.lo + 2 ^ f.lo * (m + 2 ^ f.w * q) := by rw [← h2]; exact h1
    have h5 : 2 ^ f.lo * (m + 2 ^ f.w * q) = m * 2 ^ f.lo + 2 ^ f.lo * (2 ^ f.w * q) := by ring
    have h6 : 2 ^ f.lo * (v % 2 ^ f.w + 2 ^ f.w * q) = v % 2 ^ f.w * 2 ^ f.lo + 2 ^ f.lo * (2 ^ f.w * q) := by ring
    rw [h5] at h4; rw [h6]; omega
  rw [h3, Nat.add_mul_div_left _ _ (by positivity), Nat.div_eq_of_lt (Nat.mod_lt _ (by positivity)), Nat.zero_add,
    Nat.add_mul_mod_self_left, Nat.mod_mod]

/-- A field's value does not look at bits from 32 up. -/
theorem Fld.of_mod (f : Fld) (h : f.lo + f.w ≤ 32) (n : Nat) : f.of (n % 2 ^ 32) = f.of n := by
  simp only [Fld.of]
  have : (2 : Nat) ^ 32 = 2 ^ f.lo * (2 ^ f.w * 2 ^ (32 - f.lo - f.w)) := by
    rw [← Nat.pow_add, ← Nat.pow_add]; congr 1; omega
  rw [this, Nat.mod_mul_right_div_self, Nat.mod_mul_right_mod]

theorem get_put_same (s : State) (p : Pg) (f : Fld) (v : Nat) (h : f.lo + f.w ≤ 32) :
    get (put s p f v) p f = v % 2 ^ f.w := by
  simp only [get, put, rdN_wrN_same, Fld.of_mod f h, Fld.of_into]

theorem get_put_ne (s : State) (p q : Pg) (f g : Fld) (v : Nat) (h : q.adr g.off ≠ p.adr f.off) :
    get (put s p f v) q g = get s q g := by
  simp only [get, put, rdN_wrN_ne _ _ _ _ _ _ h]

theorem flag_putB_same (s : State) (p : Pg) (f : Fld) (b : Bool) (h : f.lo + f.w ≤ 32) (hw : f.w = 1) :
    flag (putB s p f b) p f = b := by
  simp only [flag, putB, get_put_same s p f _ h, hw]
  cases b <;> rfl

/-- Fields of one register that share no bit: the lower one keeps its value. -/
theorem Fld.of_into_low (f g : Fld) (n v : Nat) (h : g.lo + g.w ≤ f.lo) : g.of (f.into n v) = g.of n := by
  simp only [Fld.of, Fld.into]
  have hm : ∃ m, n / 2 ^ f.lo % 2 ^ f.w * 2 ^ f.lo ≤ n ∧ n / 2 ^ f.lo % 2 ^ f.w * 2 ^ f.lo = 2 ^ f.lo * m :=
    ⟨_, le_trans (Nat.mul_le_mul_right _ (Nat.mod_le _ _)) (Nat.div_mul_le_self _ _), Nat.mul_comm _ _⟩
  obtain ⟨m, hle, hm⟩ := hm
  have e : (2 : Nat) ^ f.lo = 2 ^ g.lo * (2 ^ g.w * 2 ^ (f.lo - g.lo - g.w)) := by
    rw [← Nat.pow_add, ← Nat.pow_add]; congr 1; omega
  have key : ∀ x k : Nat, (x + 2 ^ f.lo * k) / 2 ^ g.lo % 2 ^ g.w = x / 2 ^ g.lo % 2 ^ g.w := by
    intro x k
    rw [e, Nat.mul_assoc, Nat.add_mul_div_left _ _ (by positivity), Nat.mul_assoc, Nat.add_mul_mod_self_left]
  rw [hm] at hle ⊢
  have h1 := key (n - 2 ^ f.lo * m + v % 2 ^ f.w * 2 ^ f.lo) m
  have h2 := key n (v % 2 ^ f.w)
  rw [← h1, show n - 2 ^ f.lo * m + v % 2 ^ f.w * 2 ^ f.lo + 2 ^ f.lo * m = n + 2 ^ f.lo * (v % 2 ^ f.w) by
    rw [Nat.mul_comm (v % 2 ^ f.w)]; omega, h2]

/-- Fields of one register that share no bit: the higher one keeps its value. -/
theorem Fld.of_into_high (f g : Fld) (n v : Nat) (h : f.lo + f.w ≤ g.lo) : g.of (f.into n v) = g.of n := by
  simp only [Fld.of, Fld.into]
  have e : (2 : Nat) ^ g.lo = 2 ^ (f.lo + f.w) * 2 ^ (g.lo - f.lo - f.w) := by
    rw [← Nat.pow_add]; congr 1; omega
  have hkey : (n - n / 2 ^ f.lo % 2 ^ f.w * 2 ^ f.lo + v % 2 ^ f.w * 2 ^ f.lo) / 2 ^ (f.lo + f.w)
      = n / 2 ^ (f.lo + f.w) := by
    have hw : (0 : Nat) < 2 ^ f.w := by positivity
    have hl : (0 : Nat) < 2 ^ f.lo := by positivity
    have h1 : n = n % 2 ^ f.lo + 2 ^ f.lo * (n / 2 ^ f.lo) := (Nat.mod_add_div _ _).symm
    have h2 : n / 2 ^ f.lo = n / 2 ^ f.lo % 2 ^ f.w + 2 ^ f.w * (n / 2 ^ f.lo / 2 ^ f.w) :=
      (Nat.mod_add_div _ _).symm
    have hd : n / 2 ^ (f.lo + f.w) = n / 2 ^ f.lo / 2 ^ f.w := by rw [Nat.pow_add, Nat.div_div_eq_div_mul]
    rw [hd]
    generalize n / 2 ^ f.lo % 2 ^ f.w = m at *
    generalize n / 2 ^ f.lo / 2 ^ f.w = q at *
    have h4 : n = n % 2 ^ f.lo + 2 ^ f.lo * (m + 2 ^ f.w * q) := by rw [← h2]; exact h1
    have h5 : 2 ^ f.lo * (m + 2 ^ f.w * q) = m * 2 ^ f.lo + 2 ^ f.lo * (2 ^ f.w * q) := by ring
    have hv : v % 2 ^ f.w < 2 ^ f.w := Nat.mod_lt _ hw
    have hr : n % 2 ^ f.lo < 2 ^ f.lo := Nat.mod_lt _ hl
    have h6 : n - m * 2 ^ f.lo + v % 2 ^ f.w * 2 ^ f.lo
        = (n % 2 ^ f.lo + 2 ^ f.lo * (v % 2 ^ f.w)) + 2 ^ (f.lo + f.w) * q := by
      have : 2 ^ (f.lo + f.w) * q = 2 ^ f.lo * (2 ^ f.w * q) := by rw [Nat.pow_add]; ring
      rw [this, Nat.mul_comm (v % 2 ^ f.w)]; rw [h5] at h4; omega
    have hlt : n % 2 ^ f.lo + 2 ^ f.lo * (v % 2 ^ f.w) < 2 ^ (f.lo + f.w) := by
      rw [Nat.pow_add]
      calc n % 2 ^ f.lo + 2 ^ f.lo * (v % 2 ^ f.w) < 2 ^ f.lo * (v % 2 ^ f.w + 1) := by rw [Nat.mul_add]; omega
        _ ≤ 2 ^ f.lo * 2 ^ f.w := Nat.mul_le_mul_left _ hv
    rw [h6, Nat.add_mul_div_left _ _ (by positivity), Nat.div_eq_of_lt hlt, Nat.zero_add]
  rw [e, ← Nat.div_div_eq_div_mul, ← Nat.div_div_eq_div_mul, hkey]

/-- A field keeps its value when another field of its register, with which it shares no bit, is replaced. -/
theorem get_put_apart (s : State) (p : Pg) (f g : Fld) (v : Nat) (ho : g.off = f.off) (hg : g.lo + g.w ≤ 32)
    (h : g.lo + g.w ≤ f.lo ∨ f.lo + f.w ≤ g.lo) : get (put s p f v) p g = get s p g := by
  simp only [get, put, ho, rdN_wrN_same, Fld.of_mod g hg]
  rcases h with h | h
  · exact Fld.of_into_low f g _ v h
  · exact Fld.of_into_high f g _ v h

/-! ### Bits -/

theorem bitOf_setBit (n i j : Nat) (b : Bool) : bitOf (setBit n i b) j = if j = i then b else bitOf n j := by
  have h1 : Nat.testBit 1 (j - i) = decide (j - i = 0) := by
    rcases Nat.eq_zero_or_pos (j - i) with h | h
    · simp [h]
    · rw [Nat.testBit_lt_two_pow (Nat.one_lt_two_pow (by omega))]; simp; omega
  have h2 : (decide (j ≥ i) && decide (j - i = 0)) = decide (j = i) := by
    rw [← Bool.decide_and]; congr 1; simp only [eq_iff_iff]; omega
  cases b
  · simp only [bitOf, setBit, Bool.false_eq_true, if_false, Nat.testBit_xor, Nat.testBit_and, Nat.testBit_shiftLeft, h1,
      h2]
    by_cases h : j = i <;> simp [h]
  · simp only [bitOf, setBit, if_true, Nat.testBit_or, Nat.testBit_shiftLeft, h1, h2]
    by_cases h : j = i <;> simp [h]

/-- A bit below 32 is kept by the width of a register. -/
theorem bitOf_mod (n i : Nat) (h : i < 32) : bitOf (n % 2 ^ 32) i = bitOf n i := by
  simp only [bitOf, Nat.testBit_mod_two_pow, h, decide_true, Bool.true_and]

/-! ### Records (R361–R368) change the Recorder's page alone -/

/-- The registers of the Recorder that a record may change: its INT_RAW, its counts, and SW_CMD. -/
def recOffs : List Nat :=
  [rINT_RAW, rREC_DROP_CNT 0, rREC_DROP_CNT 1, rREC_DROP_CNT 2, rREC_DROP_CNT 3, rREC_COAL_CNT, rREC_FILTER_CNT,
   rREC_SW_CMD]

/-- The address is none of those, nor a requester's copy of one. -/
def offRec (a : Nat) : Bool := !(a % 0x10000000 / 0x1000 == 0x30 && recOffs.contains (a % 0x1000))

theorem ne_rec {a o : Nat} (h : offRec a = true) (ho : recOffs.contains o = true) (hlt : o < 0x1000) :
    a ≠ pREC.adr o := by
  rintro rfl
  have h1 : pREC.adr o % 0x10000000 / 0x1000 = 0x30 := by simp only [Pg.adr]; omega
  have h2 : pREC.adr o % 0x1000 = o := by simp only [Pg.adr]; omega
  simp only [offRec, h1, h2, ho] at h
  exact absurd h (by decide)

theorem ne_bankRec {a o : Nat} (q : Nat) (h : offRec a = true) (ho : recOffs.contains o = true) (hlt : o < 0x1000) :
    a ≠ bank q pREC o := by
  rintro rfl
  have h1 : bank q pREC o % 0x10000000 / 0x1000 = 0x30 := by simp only [bank, Pg.adr]; omega
  have h2 : bank q pREC o % 0x1000 = o := by simp only [bank, Pg.adr]; omega
  simp only [offRec, h1, h2, ho] at h
  exact absurd h (by decide)

theorem offRec_of_page {a : Nat} (h : a % 0x10000000 / 0x1000 ≠ 0x30) : offRec a = true := by
  simp [offRec, h]

theorem rdA_updBuf (s : State) (i : Nat) (f : StageBuf → StageBuf) (a : Nat) : rdA (updBuf s i f) a = rdA s a := by cases s; rfl

theorem RecEntry.sev_lt (e : RecEntry) : e.sev < 4 := Nat.mod_lt _ (by decide)

theorem rdA_countLost (s : State) (e : RecEntry) {a : Nat} (h : offRec a = true) : rdA (countLost s e) a = rdA s a := by
  have h1 : ∀ n < 4, rREC_DROP_CNT n < 0x1000 ∧ recOffs.contains (rREC_DROP_CNT n) = true := by decide
  have h2 := h1 _ e.sev_lt
  simp only [countLost]
  split
  · rw [rdA_putQ_ne _ _ _ _ _ (ne_bankRec _ h (by decide) (by decide)), rdA_wrN_ne _ _ _ _ (ne_rec h (by decide) (by decide)),
      rdA_bumpBy_ne _ _ _ _ (ne_rec h h2.2 h2.1)]
  · rw [rdA_wrN_ne _ _ _ _ (ne_rec h (by decide) (by decide)), rdA_bumpBy_ne _ _ _ _ (ne_rec h h2.2 h2.1)]

theorem rdA_pushEntry (s : State) (i : Nat) (e : RecEntry) {a : Nat} (h : offRec a = true) :
    rdA (pushEntry s i e) a = rdA s a := by
  simp only [pushEntry]
  split
  · rfl
  · split
    · rw [rdA_countLost _ _ h, rdA_updBuf]
    · split
      · rfl
      · rw [rdA_countLost _ _ h, rdA_updBuf]

theorem rdA_closeRun (s : State) (i : Nat) {a : Nat} (h : offRec a = true) : rdA (closeRun s i) a = rdA s a := by
  simp only [closeRun]
  split
  · rfl
  · split
    · rfl
    · rw [rdA_pushEntry _ _ _ h, rdA_updBuf]

/-- A record that is staged changes no register outside the Recorder's page. -/
theorem rdA_stage (s : State) (i : Nat) (always : Bool) (e : RecEntry) {a : Nat} (h : offRec a = true) :
    rdA (stage s i always e) a = rdA s a := by
  have hb : ∀ o k, recOffs.contains o = true → o < 0x1000 → ∀ s : State, rdA (bumpBy s pREC o k) a = rdA s a :=
    fun o k hc ho s => rdA_bumpBy_ne _ _ _ _ (ne_rec h hc ho)
  simp only [stage]
  split
  · exact hb _ _ (by decide) (by decide) _
  · split
    · rw [rdA_pushEntry _ _ _ h, rdA_closeRun _ _ h]
    · split
      · rw [rdA_updBuf, rdA_pushEntry _ _ _ h]
      · split
        · rw [bump, hb _ _ (by decide) (by decide), rdA_updBuf]
        · rw [rdA_updBuf, rdA_pushEntry _ _ _ h, rdA_closeRun _ _ h]

theorem rdA_record (s : State) (p : Pg) (code sev a0 a1 : Nat) {a : Nat} (h : offRec a = true) :
    rdA (record s p code sev a0 a1) a = rdA s a := rdA_stage _ _ _ _ h

theorem rdA_recordPair (s : State) (p : Pg) (code sev a0 a1 b0 b1 : Nat) {a : Nat} (h : offRec a = true) :
    rdA (recordPair s p code sev a0 a1 b0 b1) a = rdA s a := rdA_stage _ _ _ _ h

theorem rdA_intRecord (s : State) (p : Pg) (bit : Nat) (f : Bool) {a : Nat} (h : offRec a = true) :
    rdA (intRecord s p bit f) a = rdA s a := rdA_stage _ _ _ _ h

theorem rdA_noteDoubt (b s : State) (p : Pg) (f : Bool) {a : Nat} (h : offRec a = true) :
    rdA (noteDoubt b s p f) a = rdA s a := by
  simp only [noteDoubt]
  split
  · rfl
  · split <;> exact rdA_stage _ _ _ _ h

/-! ### Interrupt bits (R34) -/

/-- An interrupt bit that rises changes its page's INT_RAW and the Recorder's page alone. -/
theorem rdA_raiseBy_ne (s : State) (p : Pg) (bit : Nat) (f : Bool) {a : Nat} (h : offRec a = true)
    (hp : a ≠ p.adr rINT_RAW) : rdA (raiseBy s p bit f) a = rdA s a := by
  simp only [raiseBy]
  split
  · rfl
  · split
    · rw [rdA_intRecord _ _ _ _ h, rdA_wrN_ne _ _ _ _ hp]
    · rw [rdA_wrN_ne _ _ _ _ hp]

theorem rdA_raise_ne (s : State) (p : Pg) (bit : Nat) {a : Nat} (h : offRec a = true) (hp : a ≠ p.adr rINT_RAW) :
    rdA (raise s p bit) a = rdA s a := rdA_raiseBy_ne s p bit false h hp

theorem rdA_raiseIf_ne (s : State) (c : Bool) (p : Pg) (bit : Nat) {a : Nat} (h : offRec a = true)
    (hp : a ≠ p.adr rINT_RAW) : rdA (raiseIf s c p bit) a = rdA s a := by
  simp only [raiseIf]
  split
  · exact rdA_raise_ne s p bit h hp
  · rfl

/-- The bit reads 1 after its event, on any page but the Recorder's. -/
theorem raiseBy_set (s : State) (p : Pg) (bit : Nat) (f : Bool) (hb : bit < 32)
    (h : offRec (p.adr rINT_RAW) = true) : bitOf (rdN (raiseBy s p bit f) p rINT_RAW) bit = true := by
  simp only [raiseBy]
  split
  · assumption
  · have hw : bitOf (rdN (wrN s p rINT_RAW (setBit (rdN s p rINT_RAW) bit true)) p rINT_RAW) bit = true := by
      rw [rdN_wrN_same, bitOf_mod _ _ hb, bitOf_setBit, if_pos rfl]
    split
    · simp only [rdN, rd, rdA_intRecord _ _ _ _ h] at hw ⊢; exact hw
    · exact hw

theorem raise_set (s : State) (p : Pg) (bit : Nat) (hb : bit < 32) (h : offRec (p.adr rINT_RAW) = true) :
    bitOf (rdN (raise s p bit) p rINT_RAW) bit = true := raiseBy_set s p bit false hb h

/-- The other bits of INT_RAW stay. -/
theorem raise_other (s : State) (p : Pg) (bit j : Nat) (hj : j < 32) (hne : j ≠ bit)
    (h : offRec (p.adr rINT_RAW) = true) : bitOf (rdN (raise s p bit) p rINT_RAW) j = bitOf (rdN s p rINT_RAW) j := by
  simp only [raise, raiseBy]
  split
  · rfl
  · have hw : bitOf (rdN (wrN s p rINT_RAW (setBit (rdN s p rINT_RAW) bit true)) p rINT_RAW) j
        = bitOf (rdN s p rINT_RAW) j := by
      rw [rdN_wrN_same, bitOf_mod _ _ hj, bitOf_setBit, if_neg hne]
    split
    · simp only [rdN, rd, rdA_intRecord _ _ _ _ h] at hw ⊢; exact hw
    · exact hw

/-! ### Doubts (R30) -/

/-- A doubt that stands or falls changes its page's DOUBT_RAW and the Recorder's page alone. -/
theorem rdA_doubt_ne (s : State) (p : Pg) (bit : Nat) (b : Bool) {a : Nat} (h : offRec a = true)
    (hp : a ≠ p.adr rDOUBT_RAW) : rdA (doubt s p bit b) a = rdA s a := by
  rw [doubt, rdA_noteDoubt _ _ _ _ h, rdA_wrN_ne _ _ _ _ hp]

theorem doubts_doubt (s : State) (p : Pg) (bit : Nat) (b : Bool) (hb : bit < 32)
    (h : offRec (p.adr rDOUBT_RAW) = true) : doubts (doubt s p bit b) p bit = b := by
  simp only [doubts, doubt, rdN, rd, rdA_noteDoubt _ _ _ _ h]
  have := rdN_wrN_same s p rDOUBT_RAW (setBit (rdN s p rDOUBT_RAW) bit b)
  simp only [rdN, rd] at this
  rw [this, bitOf_mod _ _ hb, bitOf_setBit, if_pos rfl]

end Sys2Proof.Machine
end

