-- ==== Sys2Proof/Laws/State.lean ====
section
/-! SUPPORT. What each shared operation leaves of the state: a register store changes no field but `regs`; a record, an
interrupt bit and a doubt change none but `regs` and `recd`. One lemma for each operation and field; each is true by
rfl on the fields of the state, and is proved by cases so that simp rewrites with it and the kernel unfolds no store. -/

namespace Sys2Proof.Machine

/-! ### Stores -/

@[simp] theorem wrA_clk (s : State) (a : Nat) (v : Word) : (wrA s a v).clk = s.clk := by cases s; rfl
@[simp] theorem wrA_snapTbe (s : State) (a : Nat) (v : Word) : (wrA s a v).snapTbe = s.snapTbe := by cases s; rfl
@[simp] theorem wrA_snapLtr (s : State) (a : Nat) (v : Word) : (wrA s a v).snapLtr = s.snapLtr := by cases s; rfl
@[simp] theorem wrA_lastRead (s : State) (a : Nat) (v : Word) : (wrA s a v).lastRead = s.lastRead := by cases s; rfl
@[simp] theorem wrA_free (s : State) (a : Nat) (v : Word) : (wrA s a v).free = s.free := by cases s; rfl
@[simp] theorem wrA_straps (s : State) (a : Nat) (v : Word) : (wrA s a v).straps = s.straps := by cases s; rfl
@[simp] theorem wrA_tb (s : State) (a : Nat) (v : Word) : (wrA s a v).tb = s.tb := by cases s; rfl
@[simp] theorem wrA_recd (s : State) (a : Nat) (v : Word) : (wrA s a v).recd = s.recd := by cases s; rfl
@[simp] theorem wrA_fab (s : State) (a : Nat) (v : Word) : (wrA s a v).fab = s.fab := by cases s; rfl
@[simp] theorem wrA_saf (s : State) (a : Nat) (v : Word) : (wrA s a v).saf = s.saf := by cases s; rfl
@[simp] theorem wrA_pwr (s : State) (a : Nat) (v : Word) : (wrA s a v).pwr = s.pwr := by cases s; rfl
@[simp] theorem wrA_dsc (s : State) (a : Nat) (v : Word) : (wrA s a v).dsc = s.dsc := by cases s; rfl
@[simp] theorem wrA_oven (s : State) (a : Nat) (v : Word) : (wrA s a v).oven = s.oven := by cases s; rfl
@[simp] theorem wrA_mck (s : State) (a : Nat) (v : Word) : (wrA s a v).mck = s.mck := by cases s; rfl
@[simp] theorem wrA_rad (s : State) (a : Nat) (v : Word) : (wrA s a v).rad = s.rad := by cases s; rfl
@[simp] theorem wrA_ports (s : State) (a : Nat) (v : Word) : (wrA s a v).ports = s.ports := by cases s; rfl
@[simp] theorem wrA_kisl (s : State) (a : Nat) (v : Word) : (wrA s a v).kisl = s.kisl := by cases s; rfl
@[simp] theorem wrA_links (s : State) (a : Nat) (v : Word) : (wrA s a v).links = s.links := by cases s; rfl
@[simp] theorem wrA_core (s : State) (a : Nat) (v : Word) : (wrA s a v).core = s.core := by cases s; rfl
@[simp] theorem wrA_tdc (s : State) (a : Nat) (v : Word) : (wrA s a v).tdc = s.tdc := by cases s; rfl
@[simp] theorem wrA_pke (s : State) (a : Nat) (v : Word) : (wrA s a v).pke = s.pke := by cases s; rfl
@[simp] theorem wrA_rings (s : State) (a : Nat) (v : Word) : (wrA s a v).rings = s.rings := by cases s; rfl
@[simp] theorem wrA_harts (s : State) (a : Nat) (v : Word) : (wrA s a v).harts = s.harts := by cases s; rfl
@[simp] theorem wrA_age (s : State) (a : Nat) (v : Word) : (wrA s a v).age = s.age := by cases s; rfl
@[simp] theorem wrA_hif (s : State) (a : Nat) (v : Word) : (wrA s a v).hif = s.hif := by cases s; rfl
@[simp] theorem wrA_boot (s : State) (a : Nat) (v : Word) : (wrA s a v).boot = s.boot := by cases s; rfl
@[simp] theorem wrA_cntLatch (s : State) (a : Nat) (v : Word) : (wrA s a v).cntLatch = s.cntLatch := by cases s; rfl
@[simp] theorem wrA_unlock (s : State) (a : Nat) (v : Word) : (wrA s a v).unlock = s.unlock := by cases s; rfl
@[simp] theorem wrA_tap (s : State) (a : Nat) (v : Word) : (wrA s a v).tap = s.tap := by cases s; rfl
@[simp] theorem wrA_pending (s : State) (a : Nat) (v : Word) : (wrA s a v).pending = s.pending := by cases s; rfl

@[simp] theorem wr_clk (s : State) (p : Pg) (o : Nat) (v : Word) : (wr s p o v).clk = s.clk := wrA_clk s _ _
@[simp] theorem wr_snapTbe (s : State) (p : Pg) (o : Nat) (v : Word) : (wr s p o v).snapTbe = s.snapTbe := wrA_snapTbe s _ _
@[simp] theorem wr_snapLtr (s : State) (p : Pg) (o : Nat) (v : Word) : (wr s p o v).snapLtr = s.snapLtr := wrA_snapLtr s _ _
@[simp] theorem wr_lastRead (s : State) (p : Pg) (o : Nat) (v : Word) : (wr s p o v).lastRead = s.lastRead := wrA_lastRead s _ _
@[simp] theorem wr_free (s : State) (p : Pg) (o : Nat) (v : Word) : (wr s p o v).free = s.free := wrA_free s _ _
@[simp] theorem wr_straps (s : State) (p : Pg) (o : Nat) (v : Word) : (wr s p o v).straps = s.straps := wrA_straps s _ _
@[simp] theorem wr_tb (s : State) (p : Pg) (o : Nat) (v : Word) : (wr s p o v).tb = s.tb := wrA_tb s _ _
@[simp] theorem wr_recd (s : State) (p : Pg) (o : Nat) (v : Word) : (wr s p o v).recd = s.recd := wrA_recd s _ _
@[simp] theorem wr_fab (s : State) (p : Pg) (o : Nat) (v : Word) : (wr s p o v).fab = s.fab := wrA_fab s _ _
@[simp] theorem wr_saf (s : State) (p : Pg) (o : Nat) (v : Word) : (wr s p o v).saf = s.saf := wrA_saf s _ _
@[simp] theorem wr_pwr (s : State) (p : Pg) (o : Nat) (v : Word) : (wr s p o v).pwr = s.pwr := wrA_pwr s _ _
@[simp] theorem wr_dsc (s : State) (p : Pg) (o : Nat) (v : Word) : (wr s p o v).dsc = s.dsc := wrA_dsc s _ _
@[simp] theorem wr_oven (s : State) (p : Pg) (o : Nat) (v : Word) : (wr s p o v).oven = s.oven := wrA_oven s _ _
@[simp] theorem wr_mck (s : State) (p : Pg) (o : Nat) (v : Word) : (wr s p o v).mck = s.mck := wrA_mck s _ _
@[simp] theorem wr_rad (s : State) (p : Pg) (o : Nat) (v : Word) : (wr s p o v).rad = s.rad := wrA_rad s _ _
@[simp] theorem wr_ports (s : State) (p : Pg) (o : Nat) (v : Word) : (wr s p o v).ports = s.ports := wrA_ports s _ _
@[simp] theorem wr_kisl (s : State) (p : Pg) (o : Nat) (v : Word) : (wr s p o v).kisl = s.kisl := wrA_kisl s _ _
@[simp] theorem wr_links (s : State) (p : Pg) (o : Nat) (v : Word) : (wr s p o v).links = s.links := wrA_links s _ _
@[simp] theorem wr_core (s : State) (p : Pg) (o : Nat) (v : Word) : (wr s p o v).core = s.core := wrA_core s _ _
@[simp] theorem wr_tdc (s : State) (p : Pg) (o : Nat) (v : Word) : (wr s p o v).tdc = s.tdc := wrA_tdc s _ _
@[simp] theorem wr_pke (s : State) (p : Pg) (o : Nat) (v : Word) : (wr s p o v).pke = s.pke := wrA_pke s _ _
@[simp] theorem wr_rings (s : State) (p : Pg) (o : Nat) (v : Word) : (wr s p o v).rings = s.rings := wrA_rings s _ _
@[simp] theorem wr_harts (s : State) (p : Pg) (o : Nat) (v : Word) : (wr s p o v).harts = s.harts := wrA_harts s _ _
@[simp] theorem wr_age (s : State) (p : Pg) (o : Nat) (v : Word) : (wr s p o v).age = s.age := wrA_age s _ _
@[simp] theorem wr_hif (s : State) (p : Pg) (o : Nat) (v : Word) : (wr s p o v).hif = s.hif := wrA_hif s _ _
@[simp] theorem wr_boot (s : State) (p : Pg) (o : Nat) (v : Word) : (wr s p o v).boot = s.boot := wrA_boot s _ _
@[simp] theorem wr_cntLatch (s : State) (p : Pg) (o : Nat) (v : Word) : (wr s p o v).cntLatch = s.cntLatch := wrA_cntLatch s _ _
@[simp] theorem wr_unlock (s : State) (p : Pg) (o : Nat) (v : Word) : (wr s p o v).unlock = s.unlock := wrA_unlock s _ _
@[simp] theorem wr_tap (s : State) (p : Pg) (o : Nat) (v : Word) : (wr s p o v).tap = s.tap := wrA_tap s _ _
@[simp] theorem wr_pending (s : State) (p : Pg) (o : Nat) (v : Word) : (wr s p o v).pending = s.pending := wrA_pending s _ _

@[simp] theorem wrN_clk (s : State) (p : Pg) (o v : Nat) : (wrN s p o v).clk = s.clk := wr_clk s _ _ _
@[simp] theorem wrN_snapTbe (s : State) (p : Pg) (o v : Nat) : (wrN s p o v).snapTbe = s.snapTbe := wr_snapTbe s _ _ _
@[simp] theorem wrN_snapLtr (s : State) (p : Pg) (o v : Nat) : (wrN s p o v).snapLtr = s.snapLtr := wr_snapLtr s _ _ _
@[simp] theorem wrN_lastRead (s : State) (p : Pg) (o v : Nat) : (wrN s p o v).lastRead = s.lastRead := wr_lastRead s _ _ _
@[simp] theorem wrN_free (s : State) (p : Pg) (o v : Nat) : (wrN s p o v).free = s.free := wr_free s _ _ _
@[simp] theorem wrN_straps (s : State) (p : Pg) (o v : Nat) : (wrN s p o v).straps = s.straps := wr_straps s _ _ _
@[simp] theorem wrN_tb (s : State) (p : Pg) (o v : Nat) : (wrN s p o v).tb = s.tb := wr_tb s _ _ _
@[simp] theorem wrN_recd (s : State) (p : Pg) (o v : Nat) : (wrN s p o v).recd = s.recd := wr_recd s _ _ _
@[simp] theorem wrN_fab (s : State) (p : Pg) (o v : Nat) : (wrN s p o v).fab = s.fab := wr_fab s _ _ _
@[simp] theorem wrN_saf (s : State) (p : Pg) (o v : Nat) : (wrN s p o v).saf = s.saf := wr_saf s _ _ _
@[simp] theorem wrN_pwr (s : State) (p : Pg) (o v : Nat) : (wrN s p o v).pwr = s.pwr := wr_pwr s _ _ _
@[simp] theorem wrN_dsc (s : State) (p : Pg) (o v : Nat) : (wrN s p o v).dsc = s.dsc := wr_dsc s _ _ _
@[simp] theorem wrN_oven (s : State) (p : Pg) (o v : Nat) : (wrN s p o v).oven = s.oven := wr_oven s _ _ _
@[simp] theorem wrN_mck (s : State) (p : Pg) (o v : Nat) : (wrN s p o v).mck = s.mck := wr_mck s _ _ _
@[simp] theorem wrN_rad (s : State) (p : Pg) (o v : Nat) : (wrN s p o v).rad = s.rad := wr_rad s _ _ _
@[simp] theorem wrN_ports (s : State) (p : Pg) (o v : Nat) : (wrN s p o v).ports = s.ports := wr_ports s _ _ _
@[simp] theorem wrN_kisl (s : State) (p : Pg) (o v : Nat) : (wrN s p o v).kisl = s.kisl := wr_kisl s _ _ _
@[simp] theorem wrN_links (s : State) (p : Pg) (o v : Nat) : (wrN s p o v).links = s.links := wr_links s _ _ _
@[simp] theorem wrN_core (s : State) (p : Pg) (o v : Nat) : (wrN s p o v).core = s.core := wr_core s _ _ _
@[simp] theorem wrN_tdc (s : State) (p : Pg) (o v : Nat) : (wrN s p o v).tdc = s.tdc := wr_tdc s _ _ _
@[simp] theorem wrN_pke (s : State) (p : Pg) (o v : Nat) : (wrN s p o v).pke = s.pke := wr_pke s _ _ _
@[simp] theorem wrN_rings (s : State) (p : Pg) (o v : Nat) : (wrN s p o v).rings = s.rings := wr_rings s _ _ _
@[simp] theorem wrN_harts (s : State) (p : Pg) (o v : Nat) : (wrN s p o v).harts = s.harts := wr_harts s _ _ _
@[simp] theorem wrN_age (s : State) (p : Pg) (o v : Nat) : (wrN s p o v).age = s.age := wr_age s _ _ _
@[simp] theorem wrN_hif (s : State) (p : Pg) (o v : Nat) : (wrN s p o v).hif = s.hif := wr_hif s _ _ _
@[simp] theorem wrN_boot (s : State) (p : Pg) (o v : Nat) : (wrN s p o v).boot = s.boot := wr_boot s _ _ _
@[simp] theorem wrN_cntLatch (s : State) (p : Pg) (o v : Nat) : (wrN s p o v).cntLatch = s.cntLatch := wr_cntLatch s _ _ _
@[simp] theorem wrN_unlock (s : State) (p : Pg) (o v : Nat) : (wrN s p o v).unlock = s.unlock := wr_unlock s _ _ _
@[simp] theorem wrN_tap (s : State) (p : Pg) (o v : Nat) : (wrN s p o v).tap = s.tap := wr_tap s _ _ _
@[simp] theorem wrN_pending (s : State) (p : Pg) (o v : Nat) : (wrN s p o v).pending = s.pending := wr_pending s _ _ _

@[simp] theorem wrB_clk (s : State) (q : Nat) (p : Pg) (o v : Nat) : (wrB s q p o v).clk = s.clk := wrA_clk s _ _
@[simp] theorem wrB_snapTbe (s : State) (q : Nat) (p : Pg) (o v : Nat) : (wrB s q p o v).snapTbe = s.snapTbe := wrA_snapTbe s _ _
@[simp] theorem wrB_snapLtr (s : State) (q : Nat) (p : Pg) (o v : Nat) : (wrB s q p o v).snapLtr = s.snapLtr := wrA_snapLtr s _ _
@[simp] theorem wrB_lastRead (s : State) (q : Nat) (p : Pg) (o v : Nat) : (wrB s q p o v).lastRead = s.lastRead := wrA_lastRead s _ _
@[simp] theorem wrB_free (s : State) (q : Nat) (p : Pg) (o v : Nat) : (wrB s q p o v).free = s.free := wrA_free s _ _
@[simp] theorem wrB_straps (s : State) (q : Nat) (p : Pg) (o v : Nat) : (wrB s q p o v).straps = s.straps := wrA_straps s _ _
@[simp] theorem wrB_tb (s : State) (q : Nat) (p : Pg) (o v : Nat) : (wrB s q p o v).tb = s.tb := wrA_tb s _ _
@[simp] theorem wrB_recd (s : State) (q : Nat) (p : Pg) (o v : Nat) : (wrB s q p o v).recd = s.recd := wrA_recd s _ _
@[simp] theorem wrB_fab (s : State) (q : Nat) (p : Pg) (o v : Nat) : (wrB s q p o v).fab = s.fab := wrA_fab s _ _
@[simp] theorem wrB_saf (s : State) (q : Nat) (p : Pg) (o v : Nat) : (wrB s q p o v).saf = s.saf := wrA_saf s _ _
@[simp] theorem wrB_pwr (s : State) (q : Nat) (p : Pg) (o v : Nat) : (wrB s q p o v).pwr = s.pwr := wrA_pwr s _ _
@[simp] theorem wrB_dsc (s : State) (q : Nat) (p : Pg) (o v : Nat) : (wrB s q p o v).dsc = s.dsc := wrA_dsc s _ _
@[simp] theorem wrB_oven (s : State) (q : Nat) (p : Pg) (o v : Nat) : (wrB s q p o v).oven = s.oven := wrA_oven s _ _
@[simp] theorem wrB_mck (s : State) (q : Nat) (p : Pg) (o v : Nat) : (wrB s q p o v).mck = s.mck := wrA_mck s _ _
@[simp] theorem wrB_rad (s : State) (q : Nat) (p : Pg) (o v : Nat) : (wrB s q p o v).rad = s.rad := wrA_rad s _ _
@[simp] theorem wrB_ports (s : State) (q : Nat) (p : Pg) (o v : Nat) : (wrB s q p o v).ports = s.ports := wrA_ports s _ _
@[simp] theorem wrB_kisl (s : State) (q : Nat) (p : Pg) (o v : Nat) : (wrB s q p o v).kisl = s.kisl := wrA_kisl s _ _
@[simp] theorem wrB_links (s : State) (q : Nat) (p : Pg) (o v : Nat) : (wrB s q p o v).links = s.links := wrA_links s _ _
@[simp] theorem wrB_core (s : State) (q : Nat) (p : Pg) (o v : Nat) : (wrB s q p o v).core = s.core := wrA_core s _ _
@[simp] theorem wrB_tdc (s : State) (q : Nat) (p : Pg) (o v : Nat) : (wrB s q p o v).tdc = s.tdc := wrA_tdc s _ _
@[simp] theorem wrB_pke (s : State) (q : Nat) (p : Pg) (o v : Nat) : (wrB s q p o v).pke = s.pke := wrA_pke s _ _
@[simp] theorem wrB_rings (s : State) (q : Nat) (p : Pg) (o v : Nat) : (wrB s q p o v).rings = s.rings := wrA_rings s _ _
@[simp] theorem wrB_harts (s : State) (q : Nat) (p : Pg) (o v : Nat) : (wrB s q p o v).harts = s.harts := wrA_harts s _ _
@[simp] theorem wrB_age (s : State) (q : Nat) (p : Pg) (o v : Nat) : (wrB s q p o v).age = s.age := wrA_age s _ _
@[simp] theorem wrB_hif (s : State) (q : Nat) (p : Pg) (o v : Nat) : (wrB s q p o v).hif = s.hif := wrA_hif s _ _
@[simp] theorem wrB_boot (s : State) (q : Nat) (p : Pg) (o v : Nat) : (wrB s q p o v).boot = s.boot := wrA_boot s _ _
@[simp] theorem wrB_cntLatch (s : State) (q : Nat) (p : Pg) (o v : Nat) : (wrB s q p o v).cntLatch = s.cntLatch := wrA_cntLatch s _ _
@[simp] theorem wrB_unlock (s : State) (q : Nat) (p : Pg) (o v : Nat) : (wrB s q p o v).unlock = s.unlock := wrA_unlock s _ _
@[simp] theorem wrB_tap (s : State) (q : Nat) (p : Pg) (o v : Nat) : (wrB s q p o v).tap = s.tap := wrA_tap s _ _
@[simp] theorem wrB_pending (s : State) (q : Nat) (p : Pg) (o v : Nat) : (wrB s q p o v).pending = s.pending := wrA_pending s _ _

@[simp] theorem put_clk (s : State) (p : Pg) (f : Fld) (v : Nat) : (put s p f v).clk = s.clk := wrN_clk s _ _ _
@[simp] theorem put_snapTbe (s : State) (p : Pg) (f : Fld) (v : Nat) : (put s p f v).snapTbe = s.snapTbe := wrN_snapTbe s _ _ _
@[simp] theorem put_snapLtr (s : State) (p : Pg) (f : Fld) (v : Nat) : (put s p f v).snapLtr = s.snapLtr := wrN_snapLtr s _ _ _
@[simp] theorem put_lastRead (s : State) (p : Pg) (f : Fld) (v : Nat) : (put s p f v).lastRead = s.lastRead := wrN_lastRead s _ _ _
@[simp] theorem put_free (s : State) (p : Pg) (f : Fld) (v : Nat) : (put s p f v).free = s.free := wrN_free s _ _ _
@[simp] theorem put_straps (s : State) (p : Pg) (f : Fld) (v : Nat) : (put s p f v).straps = s.straps := wrN_straps s _ _ _
@[simp] theorem put_tb (s : State) (p : Pg) (f : Fld) (v : Nat) : (put s p f v).tb = s.tb := wrN_tb s _ _ _
@[simp] theorem put_recd (s : State) (p : Pg) (f : Fld) (v : Nat) : (put s p f v).recd = s.recd := wrN_recd s _ _ _
@[simp] theorem put_fab (s : State) (p : Pg) (f : Fld) (v : Nat) : (put s p f v).fab = s.fab := wrN_fab s _ _ _
@[simp] theorem put_saf (s : State) (p : Pg) (f : Fld) (v : Nat) : (put s p f v).saf = s.saf := wrN_saf s _ _ _
@[simp] theorem put_pwr (s : State) (p : Pg) (f : Fld) (v : Nat) : (put s p f v).pwr = s.pwr := wrN_pwr s _ _ _
@[simp] theorem put_dsc (s : State) (p : Pg) (f : Fld) (v : Nat) : (put s p f v).dsc = s.dsc := wrN_dsc s _ _ _
@[simp] theorem put_oven (s : State) (p : Pg) (f : Fld) (v : Nat) : (put s p f v).oven = s.oven := wrN_oven s _ _ _
@[simp] theorem put_mck (s : State) (p : Pg) (f : Fld) (v : Nat) : (put s p f v).mck = s.mck := wrN_mck s _ _ _
@[simp] theorem put_rad (s : State) (p : Pg) (f : Fld) (v : Nat) : (put s p f v).rad = s.rad := wrN_rad s _ _ _
@[simp] theorem put_ports (s : State) (p : Pg) (f : Fld) (v : Nat) : (put s p f v).ports = s.ports := wrN_ports s _ _ _
@[simp] theorem put_kisl (s : State) (p : Pg) (f : Fld) (v : Nat) : (put s p f v).kisl = s.kisl := wrN_kisl s _ _ _
@[simp] theorem put_links (s : State) (p : Pg) (f : Fld) (v : Nat) : (put s p f v).links = s.links := wrN_links s _ _ _
@[simp] theorem put_core (s : State) (p : Pg) (f : Fld) (v : Nat) : (put s p f v).core = s.core := wrN_core s _ _ _
@[simp] theorem put_tdc (s : State) (p : Pg) (f : Fld) (v : Nat) : (put s p f v).tdc = s.tdc := wrN_tdc s _ _ _
@[simp] theorem put_pke (s : State) (p : Pg) (f : Fld) (v : Nat) : (put s p f v).pke = s.pke := wrN_pke s _ _ _
@[simp] theorem put_rings (s : State) (p : Pg) (f : Fld) (v : Nat) : (put s p f v).rings = s.rings := wrN_rings s _ _ _
@[simp] theorem put_harts (s : State) (p : Pg) (f : Fld) (v : Nat) : (put s p f v).harts = s.harts := wrN_harts s _ _ _
@[simp] theorem put_age (s : State) (p : Pg) (f : Fld) (v : Nat) : (put s p f v).age = s.age := wrN_age s _ _ _
@[simp] theorem put_hif (s : State) (p : Pg) (f : Fld) (v : Nat) : (put s p f v).hif = s.hif := wrN_hif s _ _ _
@[simp] theorem put_boot (s : State) (p : Pg) (f : Fld) (v : Nat) : (put s p f v).boot = s.boot := wrN_boot s _ _ _
@[simp] theorem put_cntLatch (s : State) (p : Pg) (f : Fld) (v : Nat) : (put s p f v).cntLatch = s.cntLatch := wrN_cntLatch s _ _ _
@[simp] theorem put_unlock (s : State) (p : Pg) (f : Fld) (v : Nat) : (put s p f v).unlock = s.unlock := wrN_unlock s _ _ _
@[simp] theorem put_tap (s : State) (p : Pg) (f : Fld) (v : Nat) : (put s p f v).tap = s.tap := wrN_tap s _ _ _
@[simp] theorem put_pending (s : State) (p : Pg) (f : Fld) (v : Nat) : (put s p f v).pending = s.pending := wrN_pending s _ _ _

@[simp] theorem putQ_clk (s : State) (q : Nat) (p : Pg) (f : Fld) (v : Nat) : (putQ s q p f v).clk = s.clk := wrB_clk s _ _ _ _
@[simp] theorem putQ_snapTbe (s : State) (q : Nat) (p : Pg) (f : Fld) (v : Nat) : (putQ s q p f v).snapTbe = s.snapTbe := wrB_snapTbe s _ _ _ _
@[simp] theorem putQ_snapLtr (s : State) (q : Nat) (p : Pg) (f : Fld) (v : Nat) : (putQ s q p f v).snapLtr = s.snapLtr := wrB_snapLtr s _ _ _ _
@[simp] theorem putQ_lastRead (s : State) (q : Nat) (p : Pg) (f : Fld) (v : Nat) : (putQ s q p f v).lastRead = s.lastRead := wrB_lastRead s _ _ _ _
@[simp] theorem putQ_free (s : State) (q : Nat) (p : Pg) (f : Fld) (v : Nat) : (putQ s q p f v).free = s.free := wrB_free s _ _ _ _
@[simp] theorem putQ_straps (s : State) (q : Nat) (p : Pg) (f : Fld) (v : Nat) : (putQ s q p f v).straps = s.straps := wrB_straps s _ _ _ _
@[simp] theorem putQ_tb (s : State) (q : Nat) (p : Pg) (f : Fld) (v : Nat) : (putQ s q p f v).tb = s.tb := wrB_tb s _ _ _ _
@[simp] theorem putQ_recd (s : State) (q : Nat) (p : Pg) (f : Fld) (v : Nat) : (putQ s q p f v).recd = s.recd := wrB_recd s _ _ _ _
@[simp] theorem putQ_fab (s : State) (q : Nat) (p : Pg) (f : Fld) (v : Nat) : (putQ s q p f v).fab = s.fab := wrB_fab s _ _ _ _
@[simp] theorem putQ_saf (s : State) (q : Nat) (p : Pg) (f : Fld) (v : Nat) : (putQ s q p f v).saf = s.saf := wrB_saf s _ _ _ _
@[simp] theorem putQ_pwr (s : State) (q : Nat) (p : Pg) (f : Fld) (v : Nat) : (putQ s q p f v).pwr = s.pwr := wrB_pwr s _ _ _ _
@[simp] theorem putQ_dsc (s : State) (q : Nat) (p : Pg) (f : Fld) (v : Nat) : (putQ s q p f v).dsc = s.dsc := wrB_dsc s _ _ _ _
@[simp] theorem putQ_oven (s : State) (q : Nat) (p : Pg) (f : Fld) (v : Nat) : (putQ s q p f v).oven = s.oven := wrB_oven s _ _ _ _
@[simp] theorem putQ_mck (s : State) (q : Nat) (p : Pg) (f : Fld) (v : Nat) : (putQ s q p f v).mck = s.mck := wrB_mck s _ _ _ _
@[simp] theorem putQ_rad (s : State) (q : Nat) (p : Pg) (f : Fld) (v : Nat) : (putQ s q p f v).rad = s.rad := wrB_rad s _ _ _ _
@[simp] theorem putQ_ports (s : State) (q : Nat) (p : Pg) (f : Fld) (v : Nat) : (putQ s q p f v).ports = s.ports := wrB_ports s _ _ _ _
@[simp] theorem putQ_kisl (s : State) (q : Nat) (p : Pg) (f : Fld) (v : Nat) : (putQ s q p f v).kisl = s.kisl := wrB_kisl s _ _ _ _
@[simp] theorem putQ_links (s : State) (q : Nat) (p : Pg) (f : Fld) (v : Nat) : (putQ s q p f v).links = s.links := wrB_links s _ _ _ _
@[simp] theorem putQ_core (s : State) (q : Nat) (p : Pg) (f : Fld) (v : Nat) : (putQ s q p f v).core = s.core := wrB_core s _ _ _ _
@[simp] theorem putQ_tdc (s : State) (q : Nat) (p : Pg) (f : Fld) (v : Nat) : (putQ s q p f v).tdc = s.tdc := wrB_tdc s _ _ _ _
@[simp] theorem putQ_pke (s : State) (q : Nat) (p : Pg) (f : Fld) (v : Nat) : (putQ s q p f v).pke = s.pke := wrB_pke s _ _ _ _
@[simp] theorem putQ_rings (s : State) (q : Nat) (p : Pg) (f : Fld) (v : Nat) : (putQ s q p f v).rings = s.rings := wrB_rings s _ _ _ _
@[simp] theorem putQ_harts (s : State) (q : Nat) (p : Pg) (f : Fld) (v : Nat) : (putQ s q p f v).harts = s.harts := wrB_harts s _ _ _ _
@[simp] theorem putQ_age (s : State) (q : Nat) (p : Pg) (f : Fld) (v : Nat) : (putQ s q p f v).age = s.age := wrB_age s _ _ _ _
@[simp] theorem putQ_hif (s : State) (q : Nat) (p : Pg) (f : Fld) (v : Nat) : (putQ s q p f v).hif = s.hif := wrB_hif s _ _ _ _
@[simp] theorem putQ_boot (s : State) (q : Nat) (p : Pg) (f : Fld) (v : Nat) : (putQ s q p f v).boot = s.boot := wrB_boot s _ _ _ _
@[simp] theorem putQ_cntLatch (s : State) (q : Nat) (p : Pg) (f : Fld) (v : Nat) : (putQ s q p f v).cntLatch = s.cntLatch := wrB_cntLatch s _ _ _ _
@[simp] theorem putQ_unlock (s : State) (q : Nat) (p : Pg) (f : Fld) (v : Nat) : (putQ s q p f v).unlock = s.unlock := wrB_unlock s _ _ _ _
@[simp] theorem putQ_tap (s : State) (q : Nat) (p : Pg) (f : Fld) (v : Nat) : (putQ s q p f v).tap = s.tap := wrB_tap s _ _ _ _
@[simp] theorem putQ_pending (s : State) (q : Nat) (p : Pg) (f : Fld) (v : Nat) : (putQ s q p f v).pending = s.pending := wrB_pending s _ _ _ _

@[simp] theorem putB_clk (s : State) (p : Pg) (f : Fld) (b : Bool) : (putB s p f b).clk = s.clk := put_clk s _ _ _
@[simp] theorem putB_snapTbe (s : State) (p : Pg) (f : Fld) (b : Bool) : (putB s p f b).snapTbe = s.snapTbe := put_snapTbe s _ _ _
@[simp] theorem putB_snapLtr (s : State) (p : Pg) (f : Fld) (b : Bool) : (putB s p f b).snapLtr = s.snapLtr := put_snapLtr s _ _ _
@[simp] theorem putB_lastRead (s : State) (p : Pg) (f : Fld) (b : Bool) : (putB s p f b).lastRead = s.lastRead := put_lastRead s _ _ _
@[simp] theorem putB_free (s : State) (p : Pg) (f : Fld) (b : Bool) : (putB s p f b).free = s.free := put_free s _ _ _
@[simp] theorem putB_straps (s : State) (p : Pg) (f : Fld) (b : Bool) : (putB s p f b).straps = s.straps := put_straps s _ _ _
@[simp] theorem putB_tb (s : State) (p : Pg) (f : Fld) (b : Bool) : (putB s p f b).tb = s.tb := put_tb s _ _ _
@[simp] theorem putB_recd (s : State) (p : Pg) (f : Fld) (b : Bool) : (putB s p f b).recd = s.recd := put_recd s _ _ _
@[simp] theorem putB_fab (s : State) (p : Pg) (f : Fld) (b : Bool) : (putB s p f b).fab = s.fab := put_fab s _ _ _
@[simp] theorem putB_saf (s : State) (p : Pg) (f : Fld) (b : Bool) : (putB s p f b).saf = s.saf := put_saf s _ _ _
@[simp] theorem putB_pwr (s : State) (p : Pg) (f : Fld) (b : Bool) : (putB s p f b).pwr = s.pwr := put_pwr s _ _ _
@[simp] theorem putB_dsc (s : State) (p : Pg) (f : Fld) (b : Bool) : (putB s p f b).dsc = s.dsc := put_dsc s _ _ _
@[simp] theorem putB_oven (s : State) (p : Pg) (f : Fld) (b : Bool) : (putB s p f b).oven = s.oven := put_oven s _ _ _
@[simp] theorem putB_mck (s : State) (p : Pg) (f : Fld) (b : Bool) : (putB s p f b).mck = s.mck := put_mck s _ _ _
@[simp] theorem putB_rad (s : State) (p : Pg) (f : Fld) (b : Bool) : (putB s p f b).rad = s.rad := put_rad s _ _ _
@[simp] theorem putB_ports (s : State) (p : Pg) (f : Fld) (b : Bool) : (putB s p f b).ports = s.ports := put_ports s _ _ _
@[simp] theorem putB_kisl (s : State) (p : Pg) (f : Fld) (b : Bool) : (putB s p f b).kisl = s.kisl := put_kisl s _ _ _
@[simp] theorem putB_links (s : State) (p : Pg) (f : Fld) (b : Bool) : (putB s p f b).links = s.links := put_links s _ _ _
@[simp] theorem putB_core (s : State) (p : Pg) (f : Fld) (b : Bool) : (putB s p f b).core = s.core := put_core s _ _ _
@[simp] theorem putB_tdc (s : State) (p : Pg) (f : Fld) (b : Bool) : (putB s p f b).tdc = s.tdc := put_tdc s _ _ _
@[simp] theorem putB_pke (s : State) (p : Pg) (f : Fld) (b : Bool) : (putB s p f b).pke = s.pke := put_pke s _ _ _
@[simp] theorem putB_rings (s : State) (p : Pg) (f : Fld) (b : Bool) : (putB s p f b).rings = s.rings := put_rings s _ _ _
@[simp] theorem putB_harts (s : State) (p : Pg) (f : Fld) (b : Bool) : (putB s p f b).harts = s.harts := put_harts s _ _ _
@[simp] theorem putB_age (s : State) (p : Pg) (f : Fld) (b : Bool) : (putB s p f b).age = s.age := put_age s _ _ _
@[simp] theorem putB_hif (s : State) (p : Pg) (f : Fld) (b : Bool) : (putB s p f b).hif = s.hif := put_hif s _ _ _
@[simp] theorem putB_boot (s : State) (p : Pg) (f : Fld) (b : Bool) : (putB s p f b).boot = s.boot := put_boot s _ _ _
@[simp] theorem putB_cntLatch (s : State) (p : Pg) (f : Fld) (b : Bool) : (putB s p f b).cntLatch = s.cntLatch := put_cntLatch s _ _ _
@[simp] theorem putB_unlock (s : State) (p : Pg) (f : Fld) (b : Bool) : (putB s p f b).unlock = s.unlock := put_unlock s _ _ _
@[simp] theorem putB_tap (s : State) (p : Pg) (f : Fld) (b : Bool) : (putB s p f b).tap = s.tap := put_tap s _ _ _
@[simp] theorem putB_pending (s : State) (p : Pg) (f : Fld) (b : Bool) : (putB s p f b).pending = s.pending := put_pending s _ _ _

@[simp] theorem putS_clk (s : State) (p : Pg) (f : Fld) (i : Int) : (putS s p f i).clk = s.clk := put_clk s _ _ _
@[simp] theorem putS_snapTbe (s : State) (p : Pg) (f : Fld) (i : Int) : (putS s p f i).snapTbe = s.snapTbe := put_snapTbe s _ _ _
@[simp] theorem putS_snapLtr (s : State) (p : Pg) (f : Fld) (i : Int) : (putS s p f i).snapLtr = s.snapLtr := put_snapLtr s _ _ _
@[simp] theorem putS_lastRead (s : State) (p : Pg) (f : Fld) (i : Int) : (putS s p f i).lastRead = s.lastRead := put_lastRead s _ _ _
@[simp] theorem putS_free (s : State) (p : Pg) (f : Fld) (i : Int) : (putS s p f i).free = s.free := put_free s _ _ _
@[simp] theorem putS_straps (s : State) (p : Pg) (f : Fld) (i : Int) : (putS s p f i).straps = s.straps := put_straps s _ _ _
@[simp] theorem putS_tb (s : State) (p : Pg) (f : Fld) (i : Int) : (putS s p f i).tb = s.tb := put_tb s _ _ _
@[simp] theorem putS_recd (s : State) (p : Pg) (f : Fld) (i : Int) : (putS s p f i).recd = s.recd := put_recd s _ _ _
@[simp] theorem putS_fab (s : State) (p : Pg) (f : Fld) (i : Int) : (putS s p f i).fab = s.fab := put_fab s _ _ _
@[simp] theorem putS_saf (s : State) (p : Pg) (f : Fld) (i : Int) : (putS s p f i).saf = s.saf := put_saf s _ _ _
@[simp] theorem putS_pwr (s : State) (p : Pg) (f : Fld) (i : Int) : (putS s p f i).pwr = s.pwr := put_pwr s _ _ _
@[simp] theorem putS_dsc (s : State) (p : Pg) (f : Fld) (i : Int) : (putS s p f i).dsc = s.dsc := put_dsc s _ _ _
@[simp] theorem putS_oven (s : State) (p : Pg) (f : Fld) (i : Int) : (putS s p f i).oven = s.oven := put_oven s _ _ _
@[simp] theorem putS_mck (s : State) (p : Pg) (f : Fld) (i : Int) : (putS s p f i).mck = s.mck := put_mck s _ _ _
@[simp] theorem putS_rad (s : State) (p : Pg) (f : Fld) (i : Int) : (putS s p f i).rad = s.rad := put_rad s _ _ _
@[simp] theorem putS_ports (s : State) (p : Pg) (f : Fld) (i : Int) : (putS s p f i).ports = s.ports := put_ports s _ _ _
@[simp] theorem putS_kisl (s : State) (p : Pg) (f : Fld) (i : Int) : (putS s p f i).kisl = s.kisl := put_kisl s _ _ _
@[simp] theorem putS_links (s : State) (p : Pg) (f : Fld) (i : Int) : (putS s p f i).links = s.links := put_links s _ _ _
@[simp] theorem putS_core (s : State) (p : Pg) (f : Fld) (i : Int) : (putS s p f i).core = s.core := put_core s _ _ _
@[simp] theorem putS_tdc (s : State) (p : Pg) (f : Fld) (i : Int) : (putS s p f i).tdc = s.tdc := put_tdc s _ _ _
@[simp] theorem putS_pke (s : State) (p : Pg) (f : Fld) (i : Int) : (putS s p f i).pke = s.pke := put_pke s _ _ _
@[simp] theorem putS_rings (s : State) (p : Pg) (f : Fld) (i : Int) : (putS s p f i).rings = s.rings := put_rings s _ _ _
@[simp] theorem putS_harts (s : State) (p : Pg) (f : Fld) (i : Int) : (putS s p f i).harts = s.harts := put_harts s _ _ _
@[simp] theorem putS_age (s : State) (p : Pg) (f : Fld) (i : Int) : (putS s p f i).age = s.age := put_age s _ _ _
@[simp] theorem putS_hif (s : State) (p : Pg) (f : Fld) (i : Int) : (putS s p f i).hif = s.hif := put_hif s _ _ _
@[simp] theorem putS_boot (s : State) (p : Pg) (f : Fld) (i : Int) : (putS s p f i).boot = s.boot := put_boot s _ _ _
@[simp] theorem putS_cntLatch (s : State) (p : Pg) (f : Fld) (i : Int) : (putS s p f i).cntLatch = s.cntLatch := put_cntLatch s _ _ _
@[simp] theorem putS_unlock (s : State) (p : Pg) (f : Fld) (i : Int) : (putS s p f i).unlock = s.unlock := put_unlock s _ _ _
@[simp] theorem putS_tap (s : State) (p : Pg) (f : Fld) (i : Int) : (putS s p f i).tap = s.tap := put_tap s _ _ _
@[simp] theorem putS_pending (s : State) (p : Pg) (f : Fld) (i : Int) : (putS s p f i).pending = s.pending := put_pending s _ _ _

@[simp] theorem bumpBy_clk (s : State) (p : Pg) (o k : Nat) : (bumpBy s p o k).clk = s.clk := wrN_clk s _ _ _
@[simp] theorem bumpBy_snapTbe (s : State) (p : Pg) (o k : Nat) : (bumpBy s p o k).snapTbe = s.snapTbe := wrN_snapTbe s _ _ _
@[simp] theorem bumpBy_snapLtr (s : State) (p : Pg) (o k : Nat) : (bumpBy s p o k).snapLtr = s.snapLtr := wrN_snapLtr s _ _ _
@[simp] theorem bumpBy_lastRead (s : State) (p : Pg) (o k : Nat) : (bumpBy s p o k).lastRead = s.lastRead := wrN_lastRead s _ _ _
@[simp] theorem bumpBy_free (s : State) (p : Pg) (o k : Nat) : (bumpBy s p o k).free = s.free := wrN_free s _ _ _
@[simp] theorem bumpBy_straps (s : State) (p : Pg) (o k : Nat) : (bumpBy s p o k).straps = s.straps := wrN_straps s _ _ _
@[simp] theorem bumpBy_tb (s : State) (p : Pg) (o k : Nat) : (bumpBy s p o k).tb = s.tb := wrN_tb s _ _ _
@[simp] theorem bumpBy_recd (s : State) (p : Pg) (o k : Nat) : (bumpBy s p o k).recd = s.recd := wrN_recd s _ _ _
@[simp] theorem bumpBy_fab (s : State) (p : Pg) (o k : Nat) : (bumpBy s p o k).fab = s.fab := wrN_fab s _ _ _
@[simp] theorem bumpBy_saf (s : State) (p : Pg) (o k : Nat) : (bumpBy s p o k).saf = s.saf := wrN_saf s _ _ _
@[simp] theorem bumpBy_pwr (s : State) (p : Pg) (o k : Nat) : (bumpBy s p o k).pwr = s.pwr := wrN_pwr s _ _ _
@[simp] theorem bumpBy_dsc (s : State) (p : Pg) (o k : Nat) : (bumpBy s p o k).dsc = s.dsc := wrN_dsc s _ _ _
@[simp] theorem bumpBy_oven (s : State) (p : Pg) (o k : Nat) : (bumpBy s p o k).oven = s.oven := wrN_oven s _ _ _
@[simp] theorem bumpBy_mck (s : State) (p : Pg) (o k : Nat) : (bumpBy s p o k).mck = s.mck := wrN_mck s _ _ _
@[simp] theorem bumpBy_rad (s : State) (p : Pg) (o k : Nat) : (bumpBy s p o k).rad = s.rad := wrN_rad s _ _ _
@[simp] theorem bumpBy_ports (s : State) (p : Pg) (o k : Nat) : (bumpBy s p o k).ports = s.ports := wrN_ports s _ _ _
@[simp] theorem bumpBy_kisl (s : State) (p : Pg) (o k : Nat) : (bumpBy s p o k).kisl = s.kisl := wrN_kisl s _ _ _
@[simp] theorem bumpBy_links (s : State) (p : Pg) (o k : Nat) : (bumpBy s p o k).links = s.links := wrN_links s _ _ _
@[simp] theorem bumpBy_core (s : State) (p : Pg) (o k : Nat) : (bumpBy s p o k).core = s.core := wrN_core s _ _ _
@[simp] theorem bumpBy_tdc (s : State) (p : Pg) (o k : Nat) : (bumpBy s p o k).tdc = s.tdc := wrN_tdc s _ _ _
@[simp] theorem bumpBy_pke (s : State) (p : Pg) (o k : Nat) : (bumpBy s p o k).pke = s.pke := wrN_pke s _ _ _
@[simp] theorem bumpBy_rings (s : State) (p : Pg) (o k : Nat) : (bumpBy s p o k).rings = s.rings := wrN_rings s _ _ _
@[simp] theorem bumpBy_harts (s : State) (p : Pg) (o k : Nat) : (bumpBy s p o k).harts = s.harts := wrN_harts s _ _ _
@[simp] theorem bumpBy_age (s : State) (p : Pg) (o k : Nat) : (bumpBy s p o k).age = s.age := wrN_age s _ _ _
@[simp] theorem bumpBy_hif (s : State) (p : Pg) (o k : Nat) : (bumpBy s p o k).hif = s.hif := wrN_hif s _ _ _
@[simp] theorem bumpBy_boot (s : State) (p : Pg) (o k : Nat) : (bumpBy s p o k).boot = s.boot := wrN_boot s _ _ _
@[simp] theorem bumpBy_cntLatch (s : State) (p : Pg) (o k : Nat) : (bumpBy s p o k).cntLatch = s.cntLatch := wrN_cntLatch s _ _ _
@[simp] theorem bumpBy_unlock (s : State) (p : Pg) (o k : Nat) : (bumpBy s p o k).unlock = s.unlock := wrN_unlock s _ _ _
@[simp] theorem bumpBy_tap (s : State) (p : Pg) (o k : Nat) : (bumpBy s p o k).tap = s.tap := wrN_tap s _ _ _
@[simp] theorem bumpBy_pending (s : State) (p : Pg) (o k : Nat) : (bumpBy s p o k).pending = s.pending := wrN_pending s _ _ _

@[simp] theorem bump_clk (s : State) (p : Pg) (o : Nat) : (bump s p o).clk = s.clk := bumpBy_clk s _ _ _
@[simp] theorem bump_snapTbe (s : State) (p : Pg) (o : Nat) : (bump s p o).snapTbe = s.snapTbe := bumpBy_snapTbe s _ _ _
@[simp] theorem bump_snapLtr (s : State) (p : Pg) (o : Nat) : (bump s p o).snapLtr = s.snapLtr := bumpBy_snapLtr s _ _ _
@[simp] theorem bump_lastRead (s : State) (p : Pg) (o : Nat) : (bump s p o).lastRead = s.lastRead := bumpBy_lastRead s _ _ _
@[simp] theorem bump_free (s : State) (p : Pg) (o : Nat) : (bump s p o).free = s.free := bumpBy_free s _ _ _
@[simp] theorem bump_straps (s : State) (p : Pg) (o : Nat) : (bump s p o).straps = s.straps := bumpBy_straps s _ _ _
@[simp] theorem bump_tb (s : State) (p : Pg) (o : Nat) : (bump s p o).tb = s.tb := bumpBy_tb s _ _ _
@[simp] theorem bump_recd (s : State) (p : Pg) (o : Nat) : (bump s p o).recd = s.recd := bumpBy_recd s _ _ _
@[simp] theorem bump_fab (s : State) (p : Pg) (o : Nat) : (bump s p o).fab = s.fab := bumpBy_fab s _ _ _
@[simp] theorem bump_saf (s : State) (p : Pg) (o : Nat) : (bump s p o).saf = s.saf := bumpBy_saf s _ _ _
@[simp] theorem bump_pwr (s : State) (p : Pg) (o : Nat) : (bump s p o).pwr = s.pwr := bumpBy_pwr s _ _ _
@[simp] theorem bump_dsc (s : State) (p : Pg) (o : Nat) : (bump s p o).dsc = s.dsc := bumpBy_dsc s _ _ _
@[simp] theorem bump_oven (s : State) (p : Pg) (o : Nat) : (bump s p o).oven = s.oven := bumpBy_oven s _ _ _
@[simp] theorem bump_mck (s : State) (p : Pg) (o : Nat) : (bump s p o).mck = s.mck := bumpBy_mck s _ _ _
@[simp] theorem bump_rad (s : State) (p : Pg) (o : Nat) : (bump s p o).rad = s.rad := bumpBy_rad s _ _ _
@[simp] theorem bump_ports (s : State) (p : Pg) (o : Nat) : (bump s p o).ports = s.ports := bumpBy_ports s _ _ _
@[simp] theorem bump_kisl (s : State) (p : Pg) (o : Nat) : (bump s p o).kisl = s.kisl := bumpBy_kisl s _ _ _
@[simp] theorem bump_links (s : State) (p : Pg) (o : Nat) : (bump s p o).links = s.links := bumpBy_links s _ _ _
@[simp] theorem bump_core (s : State) (p : Pg) (o : Nat) : (bump s p o).core = s.core := bumpBy_core s _ _ _
@[simp] theorem bump_tdc (s : State) (p : Pg) (o : Nat) : (bump s p o).tdc = s.tdc := bumpBy_tdc s _ _ _
@[simp] theorem bump_pke (s : State) (p : Pg) (o : Nat) : (bump s p o).pke = s.pke := bumpBy_pke s _ _ _
@[simp] theorem bump_rings (s : State) (p : Pg) (o : Nat) : (bump s p o).rings = s.rings := bumpBy_rings s _ _ _
@[simp] theorem bump_harts (s : State) (p : Pg) (o : Nat) : (bump s p o).harts = s.harts := bumpBy_harts s _ _ _
@[simp] theorem bump_age (s : State) (p : Pg) (o : Nat) : (bump s p o).age = s.age := bumpBy_age s _ _ _
@[simp] theorem bump_hif (s : State) (p : Pg) (o : Nat) : (bump s p o).hif = s.hif := bumpBy_hif s _ _ _
@[simp] theorem bump_boot (s : State) (p : Pg) (o : Nat) : (bump s p o).boot = s.boot := bumpBy_boot s _ _ _
@[simp] theorem bump_cntLatch (s : State) (p : Pg) (o : Nat) : (bump s p o).cntLatch = s.cntLatch := bumpBy_cntLatch s _ _ _
@[simp] theorem bump_unlock (s : State) (p : Pg) (o : Nat) : (bump s p o).unlock = s.unlock := bumpBy_unlock s _ _ _
@[simp] theorem bump_tap (s : State) (p : Pg) (o : Nat) : (bump s p o).tap = s.tap := bumpBy_tap s _ _ _
@[simp] theorem bump_pending (s : State) (p : Pg) (o : Nat) : (bump s p o).pending = s.pending := bumpBy_pending s _ _ _

@[simp] theorem bumpF_clk (s : State) (p : Pg) (f : Fld) : (bumpF s p f).clk = s.clk := put_clk s _ _ _
@[simp] theorem bumpF_snapTbe (s : State) (p : Pg) (f : Fld) : (bumpF s p f).snapTbe = s.snapTbe := put_snapTbe s _ _ _
@[simp] theorem bumpF_snapLtr (s : State) (p : Pg) (f : Fld) : (bumpF s p f).snapLtr = s.snapLtr := put_snapLtr s _ _ _
@[simp] theorem bumpF_lastRead (s : State) (p : Pg) (f : Fld) : (bumpF s p f).lastRead = s.lastRead := put_lastRead s _ _ _
@[simp] theorem bumpF_free (s : State) (p : Pg) (f : Fld) : (bumpF s p f).free = s.free := put_free s _ _ _
@[simp] theorem bumpF_straps (s : State) (p : Pg) (f : Fld) : (bumpF s p f).straps = s.straps := put_straps s _ _ _
@[simp] theorem bumpF_tb (s : State) (p : Pg) (f : Fld) : (bumpF s p f).tb = s.tb := put_tb s _ _ _
@[simp] theorem bumpF_recd (s : State) (p : Pg) (f : Fld) : (bumpF s p f).recd = s.recd := put_recd s _ _ _
@[simp] theorem bumpF_fab (s : State) (p : Pg) (f : Fld) : (bumpF s p f).fab = s.fab := put_fab s _ _ _
@[simp] theorem bumpF_saf (s : State) (p : Pg) (f : Fld) : (bumpF s p f).saf = s.saf := put_saf s _ _ _
@[simp] theorem bumpF_pwr (s : State) (p : Pg) (f : Fld) : (bumpF s p f).pwr = s.pwr := put_pwr s _ _ _
@[simp] theorem bumpF_dsc (s : State) (p : Pg) (f : Fld) : (bumpF s p f).dsc = s.dsc := put_dsc s _ _ _
@[simp] theorem bumpF_oven (s : State) (p : Pg) (f : Fld) : (bumpF s p f).oven = s.oven := put_oven s _ _ _
@[simp] theorem bumpF_mck (s : State) (p : Pg) (f : Fld) : (bumpF s p f).mck = s.mck := put_mck s _ _ _
@[simp] theorem bumpF_rad (s : State) (p : Pg) (f : Fld) : (bumpF s p f).rad = s.rad := put_rad s _ _ _
@[simp] theorem bumpF_ports (s : State) (p : Pg) (f : Fld) : (bumpF s p f).ports = s.ports := put_ports s _ _ _
@[simp] theorem bumpF_kisl (s : State) (p : Pg) (f : Fld) : (bumpF s p f).kisl = s.kisl := put_kisl s _ _ _
@[simp] theorem bumpF_links (s : State) (p : Pg) (f : Fld) : (bumpF s p f).links = s.links := put_links s _ _ _
@[simp] theorem bumpF_core (s : State) (p : Pg) (f : Fld) : (bumpF s p f).core = s.core := put_core s _ _ _
@[simp] theorem bumpF_tdc (s : State) (p : Pg) (f : Fld) : (bumpF s p f).tdc = s.tdc := put_tdc s _ _ _
@[simp] theorem bumpF_pke (s : State) (p : Pg) (f : Fld) : (bumpF s p f).pke = s.pke := put_pke s _ _ _
@[simp] theorem bumpF_rings (s : State) (p : Pg) (f : Fld) : (bumpF s p f).rings = s.rings := put_rings s _ _ _
@[simp] theorem bumpF_harts (s : State) (p : Pg) (f : Fld) : (bumpF s p f).harts = s.harts := put_harts s _ _ _
@[simp] theorem bumpF_age (s : State) (p : Pg) (f : Fld) : (bumpF s p f).age = s.age := put_age s _ _ _
@[simp] theorem bumpF_hif (s : State) (p : Pg) (f : Fld) : (bumpF s p f).hif = s.hif := put_hif s _ _ _
@[simp] theorem bumpF_boot (s : State) (p : Pg) (f : Fld) : (bumpF s p f).boot = s.boot := put_boot s _ _ _
@[simp] theorem bumpF_cntLatch (s : State) (p : Pg) (f : Fld) : (bumpF s p f).cntLatch = s.cntLatch := put_cntLatch s _ _ _
@[simp] theorem bumpF_unlock (s : State) (p : Pg) (f : Fld) : (bumpF s p f).unlock = s.unlock := put_unlock s _ _ _
@[simp] theorem bumpF_tap (s : State) (p : Pg) (f : Fld) : (bumpF s p f).tap = s.tap := put_tap s _ _ _
@[simp] theorem bumpF_pending (s : State) (p : Pg) (f : Fld) : (bumpF s p f).pending = s.pending := put_pending s _ _ _

@[simp] theorem maxF_clk (s : State) (p : Pg) (f : Fld) (v : Nat) : (maxF s p f v).clk = s.clk := put_clk s _ _ _
@[simp] theorem maxF_snapTbe (s : State) (p : Pg) (f : Fld) (v : Nat) : (maxF s p f v).snapTbe = s.snapTbe := put_snapTbe s _ _ _
@[simp] theorem maxF_snapLtr (s : State) (p : Pg) (f : Fld) (v : Nat) : (maxF s p f v).snapLtr = s.snapLtr := put_snapLtr s _ _ _
@[simp] theorem maxF_lastRead (s : State) (p : Pg) (f : Fld) (v : Nat) : (maxF s p f v).lastRead = s.lastRead := put_lastRead s _ _ _
@[simp] theorem maxF_free (s : State) (p : Pg) (f : Fld) (v : Nat) : (maxF s p f v).free = s.free := put_free s _ _ _
@[simp] theorem maxF_straps (s : State) (p : Pg) (f : Fld) (v : Nat) : (maxF s p f v).straps = s.straps := put_straps s _ _ _
@[simp] theorem maxF_tb (s : State) (p : Pg) (f : Fld) (v : Nat) : (maxF s p f v).tb = s.tb := put_tb s _ _ _
@[simp] theorem maxF_recd (s : State) (p : Pg) (f : Fld) (v : Nat) : (maxF s p f v).recd = s.recd := put_recd s _ _ _
@[simp] theorem maxF_fab (s : State) (p : Pg) (f : Fld) (v : Nat) : (maxF s p f v).fab = s.fab := put_fab s _ _ _
@[simp] theorem maxF_saf (s : State) (p : Pg) (f : Fld) (v : Nat) : (maxF s p f v).saf = s.saf := put_saf s _ _ _
@[simp] theorem maxF_pwr (s : State) (p : Pg) (f : Fld) (v : Nat) : (maxF s p f v).pwr = s.pwr := put_pwr s _ _ _
@[simp] theorem maxF_dsc (s : State) (p : Pg) (f : Fld) (v : Nat) : (maxF s p f v).dsc = s.dsc := put_dsc s _ _ _
@[simp] theorem maxF_oven (s : State) (p : Pg) (f : Fld) (v : Nat) : (maxF s p f v).oven = s.oven := put_oven s _ _ _
@[simp] theorem maxF_mck (s : State) (p : Pg) (f : Fld) (v : Nat) : (maxF s p f v).mck = s.mck := put_mck s _ _ _
@[simp] theorem maxF_rad (s : State) (p : Pg) (f : Fld) (v : Nat) : (maxF s p f v).rad = s.rad := put_rad s _ _ _
@[simp] theorem maxF_ports (s : State) (p : Pg) (f : Fld) (v : Nat) : (maxF s p f v).ports = s.ports := put_ports s _ _ _
@[simp] theorem maxF_kisl (s : State) (p : Pg) (f : Fld) (v : Nat) : (maxF s p f v).kisl = s.kisl := put_kisl s _ _ _
@[simp] theorem maxF_links (s : State) (p : Pg) (f : Fld) (v : Nat) : (maxF s p f v).links = s.links := put_links s _ _ _
@[simp] theorem maxF_core (s : State) (p : Pg) (f : Fld) (v : Nat) : (maxF s p f v).core = s.core := put_core s _ _ _
@[simp] theorem maxF_tdc (s : State) (p : Pg) (f : Fld) (v : Nat) : (maxF s p f v).tdc = s.tdc := put_tdc s _ _ _
@[simp] theorem maxF_pke (s : State) (p : Pg) (f : Fld) (v : Nat) : (maxF s p f v).pke = s.pke := put_pke s _ _ _
@[simp] theorem maxF_rings (s : State) (p : Pg) (f : Fld) (v : Nat) : (maxF s p f v).rings = s.rings := put_rings s _ _ _
@[simp] theorem maxF_harts (s : State) (p : Pg) (f : Fld) (v : Nat) : (maxF s p f v).harts = s.harts := put_harts s _ _ _
@[simp] theorem maxF_age (s : State) (p : Pg) (f : Fld) (v : Nat) : (maxF s p f v).age = s.age := put_age s _ _ _
@[simp] theorem maxF_hif (s : State) (p : Pg) (f : Fld) (v : Nat) : (maxF s p f v).hif = s.hif := put_hif s _ _ _
@[simp] theorem maxF_boot (s : State) (p : Pg) (f : Fld) (v : Nat) : (maxF s p f v).boot = s.boot := put_boot s _ _ _
@[simp] theorem maxF_cntLatch (s : State) (p : Pg) (f : Fld) (v : Nat) : (maxF s p f v).cntLatch = s.cntLatch := put_cntLatch s _ _ _
@[simp] theorem maxF_unlock (s : State) (p : Pg) (f : Fld) (v : Nat) : (maxF s p f v).unlock = s.unlock := put_unlock s _ _ _
@[simp] theorem maxF_tap (s : State) (p : Pg) (f : Fld) (v : Nat) : (maxF s p f v).tap = s.tap := put_tap s _ _ _
@[simp] theorem maxF_pending (s : State) (p : Pg) (f : Fld) (v : Nat) : (maxF s p f v).pending = s.pending := put_pending s _ _ _

@[simp] theorem wr64_clk (s : State) (p : Pg) (lo hi v : Nat) : (wr64 s p lo hi v).clk = s.clk := (wrN_clk _ _ _ _).trans (wrN_clk _ _ _ _)
@[simp] theorem wr64_snapTbe (s : State) (p : Pg) (lo hi v : Nat) : (wr64 s p lo hi v).snapTbe = s.snapTbe := (wrN_snapTbe _ _ _ _).trans (wrN_snapTbe _ _ _ _)
@[simp] theorem wr64_snapLtr (s : State) (p : Pg) (lo hi v : Nat) : (wr64 s p lo hi v).snapLtr = s.snapLtr := (wrN_snapLtr _ _ _ _).trans (wrN_snapLtr _ _ _ _)
@[simp] theorem wr64_lastRead (s : State) (p : Pg) (lo hi v : Nat) : (wr64 s p lo hi v).lastRead = s.lastRead := (wrN_lastRead _ _ _ _).trans (wrN_lastRead _ _ _ _)
@[simp] theorem wr64_free (s : State) (p : Pg) (lo hi v : Nat) : (wr64 s p lo hi v).free = s.free := (wrN_free _ _ _ _).trans (wrN_free _ _ _ _)
@[simp] theorem wr64_straps (s : State) (p : Pg) (lo hi v : Nat) : (wr64 s p lo hi v).straps = s.straps := (wrN_straps _ _ _ _).trans (wrN_straps _ _ _ _)
@[simp] theorem wr64_tb (s : State) (p : Pg) (lo hi v : Nat) : (wr64 s p lo hi v).tb = s.tb := (wrN_tb _ _ _ _).trans (wrN_tb _ _ _ _)
@[simp] theorem wr64_recd (s : State) (p : Pg) (lo hi v : Nat) : (wr64 s p lo hi v).recd = s.recd := (wrN_recd _ _ _ _).trans (wrN_recd _ _ _ _)
@[simp] theorem wr64_fab (s : State) (p : Pg) (lo hi v : Nat) : (wr64 s p lo hi v).fab = s.fab := (wrN_fab _ _ _ _).trans (wrN_fab _ _ _ _)
@[simp] theorem wr64_saf (s : State) (p : Pg) (lo hi v : Nat) : (wr64 s p lo hi v).saf = s.saf := (wrN_saf _ _ _ _).trans (wrN_saf _ _ _ _)
@[simp] theorem wr64_pwr (s : State) (p : Pg) (lo hi v : Nat) : (wr64 s p lo hi v).pwr = s.pwr := (wrN_pwr _ _ _ _).trans (wrN_pwr _ _ _ _)
@[simp] theorem wr64_dsc (s : State) (p : Pg) (lo hi v : Nat) : (wr64 s p lo hi v).dsc = s.dsc := (wrN_dsc _ _ _ _).trans (wrN_dsc _ _ _ _)
@[simp] theorem wr64_oven (s : State) (p : Pg) (lo hi v : Nat) : (wr64 s p lo hi v).oven = s.oven := (wrN_oven _ _ _ _).trans (wrN_oven _ _ _ _)
@[simp] theorem wr64_mck (s : State) (p : Pg) (lo hi v : Nat) : (wr64 s p lo hi v).mck = s.mck := (wrN_mck _ _ _ _).trans (wrN_mck _ _ _ _)
@[simp] theorem wr64_rad (s : State) (p : Pg) (lo hi v : Nat) : (wr64 s p lo hi v).rad = s.rad := (wrN_rad _ _ _ _).trans (wrN_rad _ _ _ _)
@[simp] theorem wr64_ports (s : State) (p : Pg) (lo hi v : Nat) : (wr64 s p lo hi v).ports = s.ports := (wrN_ports _ _ _ _).trans (wrN_ports _ _ _ _)
@[simp] theorem wr64_kisl (s : State) (p : Pg) (lo hi v : Nat) : (wr64 s p lo hi v).kisl = s.kisl := (wrN_kisl _ _ _ _).trans (wrN_kisl _ _ _ _)
@[simp] theorem wr64_links (s : State) (p : Pg) (lo hi v : Nat) : (wr64 s p lo hi v).links = s.links := (wrN_links _ _ _ _).trans (wrN_links _ _ _ _)
@[simp] theorem wr64_core (s : State) (p : Pg) (lo hi v : Nat) : (wr64 s p lo hi v).core = s.core := (wrN_core _ _ _ _).trans (wrN_core _ _ _ _)
@[simp] theorem wr64_tdc (s : State) (p : Pg) (lo hi v : Nat) : (wr64 s p lo hi v).tdc = s.tdc := (wrN_tdc _ _ _ _).trans (wrN_tdc _ _ _ _)
@[simp] theorem wr64_pke (s : State) (p : Pg) (lo hi v : Nat) : (wr64 s p lo hi v).pke = s.pke := (wrN_pke _ _ _ _).trans (wrN_pke _ _ _ _)
@[simp] theorem wr64_rings (s : State) (p : Pg) (lo hi v : Nat) : (wr64 s p lo hi v).rings = s.rings := (wrN_rings _ _ _ _).trans (wrN_rings _ _ _ _)
@[simp] theorem wr64_harts (s : State) (p : Pg) (lo hi v : Nat) : (wr64 s p lo hi v).harts = s.harts := (wrN_harts _ _ _ _).trans (wrN_harts _ _ _ _)
@[simp] theorem wr64_age (s : State) (p : Pg) (lo hi v : Nat) : (wr64 s p lo hi v).age = s.age := (wrN_age _ _ _ _).trans (wrN_age _ _ _ _)
@[simp] theorem wr64_hif (s : State) (p : Pg) (lo hi v : Nat) : (wr64 s p lo hi v).hif = s.hif := (wrN_hif _ _ _ _).trans (wrN_hif _ _ _ _)
@[simp] theorem wr64_boot (s : State) (p : Pg) (lo hi v : Nat) : (wr64 s p lo hi v).boot = s.boot := (wrN_boot _ _ _ _).trans (wrN_boot _ _ _ _)
@[simp] theorem wr64_cntLatch (s : State) (p : Pg) (lo hi v : Nat) : (wr64 s p lo hi v).cntLatch = s.cntLatch := (wrN_cntLatch _ _ _ _).trans (wrN_cntLatch _ _ _ _)
@[simp] theorem wr64_unlock (s : State) (p : Pg) (lo hi v : Nat) : (wr64 s p lo hi v).unlock = s.unlock := (wrN_unlock _ _ _ _).trans (wrN_unlock _ _ _ _)
@[simp] theorem wr64_tap (s : State) (p : Pg) (lo hi v : Nat) : (wr64 s p lo hi v).tap = s.tap := (wrN_tap _ _ _ _).trans (wrN_tap _ _ _ _)
@[simp] theorem wr64_pending (s : State) (p : Pg) (lo hi v : Nat) : (wr64 s p lo hi v).pending = s.pending := (wrN_pending _ _ _ _).trans (wrN_pending _ _ _ _)

@[simp] theorem reply_regs (s : State) (v : Nat) : (reply s v).regs = s.regs := by cases s; rfl
@[simp] theorem reply_clk (s : State) (v : Nat) : (reply s v).clk = s.clk := by cases s; rfl
@[simp] theorem reply_snapTbe (s : State) (v : Nat) : (reply s v).snapTbe = s.snapTbe := by cases s; rfl
@[simp] theorem reply_snapLtr (s : State) (v : Nat) : (reply s v).snapLtr = s.snapLtr := by cases s; rfl
@[simp] theorem reply_free (s : State) (v : Nat) : (reply s v).free = s.free := by cases s; rfl
@[simp] theorem reply_straps (s : State) (v : Nat) : (reply s v).straps = s.straps := by cases s; rfl
@[simp] theorem reply_tb (s : State) (v : Nat) : (reply s v).tb = s.tb := by cases s; rfl
@[simp] theorem reply_recd (s : State) (v : Nat) : (reply s v).recd = s.recd := by cases s; rfl
@[simp] theorem reply_fab (s : State) (v : Nat) : (reply s v).fab = s.fab := by cases s; rfl
@[simp] theorem reply_saf (s : State) (v : Nat) : (reply s v).saf = s.saf := by cases s; rfl
@[simp] theorem reply_pwr (s : State) (v : Nat) : (reply s v).pwr = s.pwr := by cases s; rfl
@[simp] theorem reply_dsc (s : State) (v : Nat) : (reply s v).dsc = s.dsc := by cases s; rfl
@[simp] theorem reply_oven (s : State) (v : Nat) : (reply s v).oven = s.oven := by cases s; rfl
@[simp] theorem reply_mck (s : State) (v : Nat) : (reply s v).mck = s.mck := by cases s; rfl
@[simp] theorem reply_rad (s : State) (v : Nat) : (reply s v).rad = s.rad := by cases s; rfl
@[simp] theorem reply_ports (s : State) (v : Nat) : (reply s v).ports = s.ports := by cases s; rfl
@[simp] theorem reply_kisl (s : State) (v : Nat) : (reply s v).kisl = s.kisl := by cases s; rfl
@[simp] theorem reply_links (s : State) (v : Nat) : (reply s v).links = s.links := by cases s; rfl
@[simp] theorem reply_core (s : State) (v : Nat) : (reply s v).core = s.core := by cases s; rfl
@[simp] theorem reply_tdc (s : State) (v : Nat) : (reply s v).tdc = s.tdc := by cases s; rfl
@[simp] theorem reply_pke (s : State) (v : Nat) : (reply s v).pke = s.pke := by cases s; rfl
@[simp] theorem reply_rings (s : State) (v : Nat) : (reply s v).rings = s.rings := by cases s; rfl
@[simp] theorem reply_harts (s : State) (v : Nat) : (reply s v).harts = s.harts := by cases s; rfl
@[simp] theorem reply_age (s : State) (v : Nat) : (reply s v).age = s.age := by cases s; rfl
@[simp] theorem reply_hif (s : State) (v : Nat) : (reply s v).hif = s.hif := by cases s; rfl
@[simp] theorem reply_boot (s : State) (v : Nat) : (reply s v).boot = s.boot := by cases s; rfl
@[simp] theorem reply_cntLatch (s : State) (v : Nat) : (reply s v).cntLatch = s.cntLatch := by cases s; rfl
@[simp] theorem reply_unlock (s : State) (v : Nat) : (reply s v).unlock = s.unlock := by cases s; rfl
@[simp] theorem reply_tap (s : State) (v : Nat) : (reply s v).tap = s.tap := by cases s; rfl
@[simp] theorem reply_pending (s : State) (v : Nat) : (reply s v).pending = s.pending := by cases s; rfl

@[simp] theorem drawn_regs (s : State) : (drawn s).regs = s.regs := by cases s; rfl
@[simp] theorem drawn_clk (s : State) : (drawn s).clk = s.clk := by cases s; rfl
@[simp] theorem drawn_snapTbe (s : State) : (drawn s).snapTbe = s.snapTbe := by cases s; rfl
@[simp] theorem drawn_snapLtr (s : State) : (drawn s).snapLtr = s.snapLtr := by cases s; rfl
@[simp] theorem drawn_lastRead (s : State) : (drawn s).lastRead = s.lastRead := by cases s; rfl
@[simp] theorem drawn_straps (s : State) : (drawn s).straps = s.straps := by cases s; rfl
@[simp] theorem drawn_tb (s : State) : (drawn s).tb = s.tb := by cases s; rfl
@[simp] theorem drawn_recd (s : State) : (drawn s).recd = s.recd := by cases s; rfl
@[simp] theorem drawn_fab (s : State) : (drawn s).fab = s.fab := by cases s; rfl
@[simp] theorem drawn_saf (s : State) : (drawn s).saf = s.saf := by cases s; rfl
@[simp] theorem drawn_pwr (s : State) : (drawn s).pwr = s.pwr := by cases s; rfl
@[simp] theorem drawn_dsc (s : State) : (drawn s).dsc = s.dsc := by cases s; rfl
@[simp] theorem drawn_oven (s : State) : (drawn s).oven = s.oven := by cases s; rfl
@[simp] theorem drawn_mck (s : State) : (drawn s).mck = s.mck := by cases s; rfl
@[simp] theorem drawn_rad (s : State) : (drawn s).rad = s.rad := by cases s; rfl
@[simp] theorem drawn_ports (s : State) : (drawn s).ports = s.ports := by cases s; rfl
@[simp] theorem drawn_kisl (s : State) : (drawn s).kisl = s.kisl := by cases s; rfl
@[simp] theorem drawn_links (s : State) : (drawn s).links = s.links := by cases s; rfl
@[simp] theorem drawn_core (s : State) : (drawn s).core = s.core := by cases s; rfl
@[simp] theorem drawn_tdc (s : State) : (drawn s).tdc = s.tdc := by cases s; rfl
@[simp] theorem drawn_pke (s : State) : (drawn s).pke = s.pke := by cases s; rfl
@[simp] theorem drawn_rings (s : State) : (drawn s).rings = s.rings := by cases s; rfl
@[simp] theorem drawn_harts (s : State) : (drawn s).harts = s.harts := by cases s; rfl
@[simp] theorem drawn_age (s : State) : (drawn s).age = s.age := by cases s; rfl
@[simp] theorem drawn_hif (s : State) : (drawn s).hif = s.hif := by cases s; rfl
@[simp] theorem drawn_boot (s : State) : (drawn s).boot = s.boot := by cases s; rfl
@[simp] theorem drawn_cntLatch (s : State) : (drawn s).cntLatch = s.cntLatch := by cases s; rfl
@[simp] theorem drawn_unlock (s : State) : (drawn s).unlock = s.unlock := by cases s; rfl
@[simp] theorem drawn_tap (s : State) : (drawn s).tap = s.tap := by cases s; rfl
@[simp] theorem drawn_pending (s : State) : (drawn s).pending = s.pending := by cases s; rfl

@[simp] theorem updBuf_regs (s : State) (i : Nat) (g : StageBuf → StageBuf) : (updBuf s i g).regs = s.regs := by cases s; rfl
@[simp] theorem updBuf_clk (s : State) (i : Nat) (g : StageBuf → StageBuf) : (updBuf s i g).clk = s.clk := by cases s; rfl
@[simp] theorem updBuf_snapTbe (s : State) (i : Nat) (g : StageBuf → StageBuf) : (updBuf s i g).snapTbe = s.snapTbe := by cases s; rfl
@[simp] theorem updBuf_snapLtr (s : State) (i : Nat) (g : StageBuf → StageBuf) : (updBuf s i g).snapLtr = s.snapLtr := by cases s; rfl
@[simp] theorem updBuf_lastRead (s : State) (i : Nat) (g : StageBuf → StageBuf) : (updBuf s i g).lastRead = s.lastRead := by cases s; rfl
@[simp] theorem updBuf_free (s : State) (i : Nat) (g : StageBuf → StageBuf) : (updBuf s i g).free = s.free := by cases s; rfl
@[simp] theorem updBuf_straps (s : State) (i : Nat) (g : StageBuf → StageBuf) : (updBuf s i g).straps = s.straps := by cases s; rfl
@[simp] theorem updBuf_tb (s : State) (i : Nat) (g : StageBuf → StageBuf) : (updBuf s i g).tb = s.tb := by cases s; rfl
@[simp] theorem updBuf_fab (s : State) (i : Nat) (g : StageBuf → StageBuf) : (updBuf s i g).fab = s.fab := by cases s; rfl
@[simp] theorem updBuf_saf (s : State) (i : Nat) (g : StageBuf → StageBuf) : (updBuf s i g).saf = s.saf := by cases s; rfl
@[simp] theorem updBuf_pwr (s : State) (i : Nat) (g : StageBuf → StageBuf) : (updBuf s i g).pwr = s.pwr := by cases s; rfl
@[simp] theorem updBuf_dsc (s : State) (i : Nat) (g : StageBuf → StageBuf) : (updBuf s i g).dsc = s.dsc := by cases s; rfl
@[simp] theorem updBuf_oven (s : State) (i : Nat) (g : StageBuf → StageBuf) : (updBuf s i g).oven = s.oven := by cases s; rfl
@[simp] theorem updBuf_mck (s : State) (i : Nat) (g : StageBuf → StageBuf) : (updBuf s i g).mck = s.mck := by cases s; rfl
@[simp] theorem updBuf_rad (s : State) (i : Nat) (g : StageBuf → StageBuf) : (updBuf s i g).rad = s.rad := by cases s; rfl
@[simp] theorem updBuf_ports (s : State) (i : Nat) (g : StageBuf → StageBuf) : (updBuf s i g).ports = s.ports := by cases s; rfl
@[simp] theorem updBuf_kisl (s : State) (i : Nat) (g : StageBuf → StageBuf) : (updBuf s i g).kisl = s.kisl := by cases s; rfl
@[simp] theorem updBuf_links (s : State) (i : Nat) (g : StageBuf → StageBuf) : (updBuf s i g).links = s.links := by cases s; rfl
@[simp] theorem updBuf_core (s : State) (i : Nat) (g : StageBuf → StageBuf) : (updBuf s i g).core = s.core := by cases s; rfl
@[simp] theorem updBuf_tdc (s : State) (i : Nat) (g : StageBuf → StageBuf) : (updBuf s i g).tdc = s.tdc := by cases s; rfl
@[simp] theorem updBuf_pke (s : State) (i : Nat) (g : StageBuf → StageBuf) : (updBuf s i g).pke = s.pke := by cases s; rfl
@[simp] theorem updBuf_rings (s : State) (i : Nat) (g : StageBuf → StageBuf) : (updBuf s i g).rings = s.rings := by cases s; rfl
@[simp] theorem updBuf_harts (s : State) (i : Nat) (g : StageBuf → StageBuf) : (updBuf s i g).harts = s.harts := by cases s; rfl
@[simp] theorem updBuf_age (s : State) (i : Nat) (g : StageBuf → StageBuf) : (updBuf s i g).age = s.age := by cases s; rfl
@[simp] theorem updBuf_hif (s : State) (i : Nat) (g : StageBuf → StageBuf) : (updBuf s i g).hif = s.hif := by cases s; rfl
@[simp] theorem updBuf_boot (s : State) (i : Nat) (g : StageBuf → StageBuf) : (updBuf s i g).boot = s.boot := by cases s; rfl
@[simp] theorem updBuf_cntLatch (s : State) (i : Nat) (g : StageBuf → StageBuf) : (updBuf s i g).cntLatch = s.cntLatch := by cases s; rfl
@[simp] theorem updBuf_unlock (s : State) (i : Nat) (g : StageBuf → StageBuf) : (updBuf s i g).unlock = s.unlock := by cases s; rfl
@[simp] theorem updBuf_tap (s : State) (i : Nat) (g : StageBuf → StageBuf) : (updBuf s i g).tap = s.tap := by cases s; rfl
@[simp] theorem updBuf_pending (s : State) (i : Nat) (g : StageBuf → StageBuf) : (updBuf s i g).pending = s.pending := by cases s; rfl

/-! ### Records, interrupt bits and doubts -/

/-- The state but for its registers and the Recorder. -/
def State.besides (s : State) : State := { s with regs := [], recd := coldRecorder }


theorem eq_clk {s t : State} (h : s.besides = t.besides) : s.clk = t.clk :=
  (congrArg State.clk h : s.besides.clk = t.besides.clk)
theorem eq_snapTbe {s t : State} (h : s.besides = t.besides) : s.snapTbe = t.snapTbe :=
  (congrArg State.snapTbe h : s.besides.snapTbe = t.besides.snapTbe)
theorem eq_snapLtr {s t : State} (h : s.besides = t.besides) : s.snapLtr = t.snapLtr :=
  (congrArg State.snapLtr h : s.besides.snapLtr = t.besides.snapLtr)
theorem eq_lastRead {s t : State} (h : s.besides = t.besides) : s.lastRead = t.lastRead :=
  (congrArg State.lastRead h : s.besides.lastRead = t.besides.lastRead)
theorem eq_free {s t : State} (h : s.besides = t.besides) : s.free = t.free :=
  (congrArg State.free h : s.besides.free = t.besides.free)
theorem eq_straps {s t : State} (h : s.besides = t.besides) : s.straps = t.straps :=
  (congrArg State.straps h : s.besides.straps = t.besides.straps)
theorem eq_tb {s t : State} (h : s.besides = t.besides) : s.tb = t.tb :=
  (congrArg State.tb h : s.besides.tb = t.besides.tb)
theorem eq_fab {s t : State} (h : s.besides = t.besides) : s.fab = t.fab :=
  (congrArg State.fab h : s.besides.fab = t.besides.fab)
theorem eq_saf {s t : State} (h : s.besides = t.besides) : s.saf = t.saf :=
  (congrArg State.saf h : s.besides.saf = t.besides.saf)
theorem eq_pwr {s t : State} (h : s.besides = t.besides) : s.pwr = t.pwr :=
  (congrArg State.pwr h : s.besides.pwr = t.besides.pwr)
theorem eq_dsc {s t : State} (h : s.besides = t.besides) : s.dsc = t.dsc :=
  (congrArg State.dsc h : s.besides.dsc = t.besides.dsc)
theorem eq_oven {s t : State} (h : s.besides = t.besides) : s.oven = t.oven :=
  (congrArg State.oven h : s.besides.oven = t.besides.oven)
theorem eq_mck {s t : State} (h : s.besides = t.besides) : s.mck = t.mck :=
  (congrArg State.mck h : s.besides.mck = t.besides.mck)
theorem eq_rad {s t : State} (h : s.besides = t.besides) : s.rad = t.rad :=
  (congrArg State.rad h : s.besides.rad = t.besides.rad)
theorem eq_ports {s t : State} (h : s.besides = t.besides) : s.ports = t.ports :=
  (congrArg State.ports h : s.besides.ports = t.besides.ports)
theorem eq_kisl {s t : State} (h : s.besides = t.besides) : s.kisl = t.kisl :=
  (congrArg State.kisl h : s.besides.kisl = t.besides.kisl)
theorem eq_links {s t : State} (h : s.besides = t.besides) : s.links = t.links :=
  (congrArg State.links h : s.besides.links = t.besides.links)
theorem eq_core {s t : State} (h : s.besides = t.besides) : s.core = t.core :=
  (congrArg State.core h : s.besides.core = t.besides.core)
theorem eq_tdc {s t : State} (h : s.besides = t.besides) : s.tdc = t.tdc :=
  (congrArg State.tdc h : s.besides.tdc = t.besides.tdc)
theorem eq_pke {s t : State} (h : s.besides = t.besides) : s.pke = t.pke :=
  (congrArg State.pke h : s.besides.pke = t.besides.pke)
theorem eq_rings {s t : State} (h : s.besides = t.besides) : s.rings = t.rings :=
  (congrArg State.rings h : s.besides.rings = t.besides.rings)
theorem eq_harts {s t : State} (h : s.besides = t.besides) : s.harts = t.harts :=
  (congrArg State.harts h : s.besides.harts = t.besides.harts)
theorem eq_age {s t : State} (h : s.besides = t.besides) : s.age = t.age :=
  (congrArg State.age h : s.besides.age = t.besides.age)
theorem eq_hif {s t : State} (h : s.besides = t.besides) : s.hif = t.hif :=
  (congrArg State.hif h : s.besides.hif = t.besides.hif)
theorem eq_boot {s t : State} (h : s.besides = t.besides) : s.boot = t.boot :=
  (congrArg State.boot h : s.besides.boot = t.besides.boot)
theorem eq_cntLatch {s t : State} (h : s.besides = t.besides) : s.cntLatch = t.cntLatch :=
  (congrArg State.cntLatch h : s.besides.cntLatch = t.besides.cntLatch)
theorem eq_unlock {s t : State} (h : s.besides = t.besides) : s.unlock = t.unlock :=
  (congrArg State.unlock h : s.besides.unlock = t.besides.unlock)
theorem eq_tap {s t : State} (h : s.besides = t.besides) : s.tap = t.tap :=
  (congrArg State.tap h : s.besides.tap = t.besides.tap)
theorem eq_pending {s t : State} (h : s.besides = t.besides) : s.pending = t.pending :=
  (congrArg State.pending h : s.besides.pending = t.besides.pending)

theorem wrA_besides (s : State) (a : Nat) (v : Word) : (wrA s a v).besides = s.besides := rfl

theorem wrN_besides (s : State) (p : Pg) (o v : Nat) : (wrN s p o v).besides = s.besides := wrA_besides s _ _

theorem updBuf_besides (s : State) (i : Nat) (g : StageBuf → StageBuf) : (updBuf s i g).besides = s.besides := rfl

theorem countLost_besides (s : State) (e : RecEntry) : (countLost s e).besides = s.besides := by
  simp only [countLost]
  split
  · exact (wrA_besides _ _ _).trans ((wrN_besides _ _ _ _).trans (wrN_besides _ _ _ _))
  · exact (wrN_besides _ _ _ _).trans (wrN_besides _ _ _ _)

theorem pushEntry_besides (s : State) (i : Nat) (e : RecEntry) : (pushEntry s i e).besides = s.besides := by
  simp only [pushEntry]
  split
  · rfl
  · split
    · rw [countLost_besides, updBuf_besides]
    · split
      · rfl
      · rw [countLost_besides, updBuf_besides]

theorem closeRun_besides (s : State) (i : Nat) : (closeRun s i).besides = s.besides := by
  simp only [closeRun]
  split
  · rfl
  · split
    · rfl
    · rw [pushEntry_besides, updBuf_besides]

theorem stage_besides (s : State) (i : Nat) (al : Bool) (e : RecEntry) : (stage s i al e).besides = s.besides := by
  simp only [stage]
  split
  · exact wrN_besides _ _ _ _
  · split
    · rw [pushEntry_besides, closeRun_besides]
    · split
      · rw [updBuf_besides, pushEntry_besides]
      · split
        · exact (wrN_besides _ _ _ _).trans (updBuf_besides _ _ _)
        · rw [updBuf_besides, pushEntry_besides, closeRun_besides]

theorem record_besides (s : State) (p : Pg) (code sev a0 a1 : Nat) :
    (record s p code sev a0 a1).besides = s.besides := stage_besides _ _ _ _

theorem recordPair_besides (s : State) (p : Pg) (code sev a0 a1 b0 b1 : Nat) :
    (recordPair s p code sev a0 a1 b0 b1).besides = s.besides := stage_besides _ _ _ _

theorem raiseBy_besides (s : State) (p : Pg) (bit : Nat) (g : Bool) : (raiseBy s p bit g).besides = s.besides := by
  simp only [raiseBy]
  split
  · rfl
  · split
    · exact (stage_besides _ _ _ _).trans (wrN_besides _ _ _ _)
    · exact wrN_besides _ _ _ _

theorem raise_besides (s : State) (p : Pg) (bit : Nat) : (raise s p bit).besides = s.besides := raiseBy_besides _ _ _ _

theorem raiseIf_besides (s : State) (c : Bool) (p : Pg) (bit : Nat) : (raiseIf s c p bit).besides = s.besides := by
  simp only [raiseIf]
  split
  · exact raise_besides _ _ _
  · rfl

theorem noteDoubt_besides (b s : State) (p : Pg) (g : Bool) : (noteDoubt b s p g).besides = s.besides := by
  simp only [noteDoubt]
  split
  · rfl
  · split <;> exact stage_besides _ _ _ _

theorem doubt_besides (s : State) (p : Pg) (bit : Nat) (b : Bool) : (doubt s p bit b).besides = s.besides :=
  (noteDoubt_besides _ _ _ _).trans (wrN_besides _ _ _ _)

theorem deny_besides (s : State) (r : Requester) (k : Nat) : (deny s r k).besides = s.besides :=
  (raise_besides _ _ _).trans ((wrN_besides _ _ _ _).trans ((wrN_besides _ _ _ _).trans (wrN_besides _ _ _ _)))

theorem lockViol_besides (s : State) (p : Pg) : (lockViol s p).besides = s.besides :=
  (raise_besides _ _ _).trans (wrN_besides _ _ _ _)

@[simp] theorem stage_clk (s : State) (i : Nat) (al : Bool) (e : RecEntry) : (stage s i al e).clk = s.clk :=
  eq_clk (stage_besides s i al e)
@[simp] theorem stage_snapTbe (s : State) (i : Nat) (al : Bool) (e : RecEntry) : (stage s i al e).snapTbe = s.snapTbe :=
  eq_snapTbe (stage_besides s i al e)
@[simp] theorem stage_snapLtr (s : State) (i : Nat) (al : Bool) (e : RecEntry) : (stage s i al e).snapLtr = s.snapLtr :=
  eq_snapLtr (stage_besides s i al e)
@[simp] theorem stage_lastRead (s : State) (i : Nat) (al : Bool) (e : RecEntry) : (stage s i al e).lastRead = s.lastRead :=
  eq_lastRead (stage_besides s i al e)
@[simp] theorem stage_free (s : State) (i : Nat) (al : Bool) (e : RecEntry) : (stage s i al e).free = s.free :=
  eq_free (stage_besides s i al e)
@[simp] theorem stage_straps (s : State) (i : Nat) (al : Bool) (e : RecEntry) : (stage s i al e).straps = s.straps :=
  eq_straps (stage_besides s i al e)
@[simp] theorem stage_tb (s : State) (i : Nat) (al : Bool) (e : RecEntry) : (stage s i al e).tb = s.tb :=
  eq_tb (stage_besides s i al e)
@[simp] theorem stage_fab (s : State) (i : Nat) (al : Bool) (e : RecEntry) : (stage s i al e).fab = s.fab :=
  eq_fab (stage_besides s i al e)
@[simp] theorem stage_saf (s : State) (i : Nat) (al : Bool) (e : RecEntry) : (stage s i al e).saf = s.saf :=
  eq_saf (stage_besides s i al e)
@[simp] theorem stage_pwr (s : State) (i : Nat) (al : Bool) (e : RecEntry) : (stage s i al e).pwr = s.pwr :=
  eq_pwr (stage_besides s i al e)
@[simp] theorem stage_dsc (s : State) (i : Nat) (al : Bool) (e : RecEntry) : (stage s i al e).dsc = s.dsc :=
  eq_dsc (stage_besides s i al e)
@[simp] theorem stage_oven (s : State) (i : Nat) (al : Bool) (e : RecEntry) : (stage s i al e).oven = s.oven :=
  eq_oven (stage_besides s i al e)
@[simp] theorem stage_mck (s : State) (i : Nat) (al : Bool) (e : RecEntry) : (stage s i al e).mck = s.mck :=
  eq_mck (stage_besides s i al e)
@[simp] theorem stage_rad (s : State) (i : Nat) (al : Bool) (e : RecEntry) : (stage s i al e).rad = s.rad :=
  eq_rad (stage_besides s i al e)
@[simp] theorem stage_ports (s : State) (i : Nat) (al : Bool) (e : RecEntry) : (stage s i al e).ports = s.ports :=
  eq_ports (stage_besides s i al e)
@[simp] theorem stage_kisl (s : State) (i : Nat) (al : Bool) (e : RecEntry) : (stage s i al e).kisl = s.kisl :=
  eq_kisl (stage_besides s i al e)
@[simp] theorem stage_links (s : State) (i : Nat) (al : Bool) (e : RecEntry) : (stage s i al e).links = s.links :=
  eq_links (stage_besides s i al e)
@[simp] theorem stage_core (s : State) (i : Nat) (al : Bool) (e : RecEntry) : (stage s i al e).core = s.core :=
  eq_core (stage_besides s i al e)
@[simp] theorem stage_tdc (s : State) (i : Nat) (al : Bool) (e : RecEntry) : (stage s i al e).tdc = s.tdc :=
  eq_tdc (stage_besides s i al e)
@[simp] theorem stage_pke (s : State) (i : Nat) (al : Bool) (e : RecEntry) : (stage s i al e).pke = s.pke :=
  eq_pke (stage_besides s i al e)
@[simp] theorem stage_rings (s : State) (i : Nat) (al : Bool) (e : RecEntry) : (stage s i al e).rings = s.rings :=
  eq_rings (stage_besides s i al e)
@[simp] theorem stage_harts (s : State) (i : Nat) (al : Bool) (e : RecEntry) : (stage s i al e).harts = s.harts :=
  eq_harts (stage_besides s i al e)
@[simp] theorem stage_age (s : State) (i : Nat) (al : Bool) (e : RecEntry) : (stage s i al e).age = s.age :=
  eq_age (stage_besides s i al e)
@[simp] theorem stage_hif (s : State) (i : Nat) (al : Bool) (e : RecEntry) : (stage s i al e).hif = s.hif :=
  eq_hif (stage_besides s i al e)
@[simp] theorem stage_boot (s : State) (i : Nat) (al : Bool) (e : RecEntry) : (stage s i al e).boot = s.boot :=
  eq_boot (stage_besides s i al e)
@[simp] theorem stage_cntLatch (s : State) (i : Nat) (al : Bool) (e : RecEntry) : (stage s i al e).cntLatch = s.cntLatch :=
  eq_cntLatch (stage_besides s i al e)
@[simp] theorem stage_unlock (s : State) (i : Nat) (al : Bool) (e : RecEntry) : (stage s i al e).unlock = s.unlock :=
  eq_unlock (stage_besides s i al e)
@[simp] theorem stage_tap (s : State) (i : Nat) (al : Bool) (e : RecEntry) : (stage s i al e).tap = s.tap :=
  eq_tap (stage_besides s i al e)
@[simp] theorem stage_pending (s : State) (i : Nat) (al : Bool) (e : RecEntry) : (stage s i al e).pending = s.pending :=
  eq_pending (stage_besides s i al e)

@[simp] theorem record_clk (s : State) (p : Pg) (code sev a0 a1 : Nat) : (record s p code sev a0 a1).clk = s.clk :=
  eq_clk (record_besides s p code sev a0 a1)
@[simp] theorem record_snapTbe (s : State) (p : Pg) (code sev a0 a1 : Nat) : (record s p code sev a0 a1).snapTbe = s.snapTbe :=
  eq_snapTbe (record_besides s p code sev a0 a1)
@[simp] theorem record_snapLtr (s : State) (p : Pg) (code sev a0 a1 : Nat) : (record s p code sev a0 a1).snapLtr = s.snapLtr :=
  eq_snapLtr (record_besides s p code sev a0 a1)
@[simp] theorem record_lastRead (s : State) (p : Pg) (code sev a0 a1 : Nat) : (record s p code sev a0 a1).lastRead = s.lastRead :=
  eq_lastRead (record_besides s p code sev a0 a1)
@[simp] theorem record_free (s : State) (p : Pg) (code sev a0 a1 : Nat) : (record s p code sev a0 a1).free = s.free :=
  eq_free (record_besides s p code sev a0 a1)
@[simp] theorem record_straps (s : State) (p : Pg) (code sev a0 a1 : Nat) : (record s p code sev a0 a1).straps = s.straps :=
  eq_straps (record_besides s p code sev a0 a1)
@[simp] theorem record_tb (s : State) (p : Pg) (code sev a0 a1 : Nat) : (record s p code sev a0 a1).tb = s.tb :=
  eq_tb (record_besides s p code sev a0 a1)
@[simp] theorem record_fab (s : State) (p : Pg) (code sev a0 a1 : Nat) : (record s p code sev a0 a1).fab = s.fab :=
  eq_fab (record_besides s p code sev a0 a1)
@[simp] theorem record_saf (s : State) (p : Pg) (code sev a0 a1 : Nat) : (record s p code sev a0 a1).saf = s.saf :=
  eq_saf (record_besides s p code sev a0 a1)
@[simp] theorem record_pwr (s : State) (p : Pg) (code sev a0 a1 : Nat) : (record s p code sev a0 a1).pwr = s.pwr :=
  eq_pwr (record_besides s p code sev a0 a1)
@[simp] theorem record_dsc (s : State) (p : Pg) (code sev a0 a1 : Nat) : (record s p code sev a0 a1).dsc = s.dsc :=
  eq_dsc (record_besides s p code sev a0 a1)
@[simp] theorem record_oven (s : State) (p : Pg) (code sev a0 a1 : Nat) : (record s p code sev a0 a1).oven = s.oven :=
  eq_oven (record_besides s p code sev a0 a1)
@[simp] theorem record_mck (s : State) (p : Pg) (code sev a0 a1 : Nat) : (record s p code sev a0 a1).mck = s.mck :=
  eq_mck (record_besides s p code sev a0 a1)
@[simp] theorem record_rad (s : State) (p : Pg) (code sev a0 a1 : Nat) : (record s p code sev a0 a1).rad = s.rad :=
  eq_rad (record_besides s p code sev a0 a1)
@[simp] theorem record_ports (s : State) (p : Pg) (code sev a0 a1 : Nat) : (record s p code sev a0 a1).ports = s.ports :=
  eq_ports (record_besides s p code sev a0 a1)
@[simp] theorem record_kisl (s : State) (p : Pg) (code sev a0 a1 : Nat) : (record s p code sev a0 a1).kisl = s.kisl :=
  eq_kisl (record_besides s p code sev a0 a1)
@[simp] theorem record_links (s : State) (p : Pg) (code sev a0 a1 : Nat) : (record s p code sev a0 a1).links = s.links :=
  eq_links (record_besides s p code sev a0 a1)
@[simp] theorem record_core (s : State) (p : Pg) (code sev a0 a1 : Nat) : (record s p code sev a0 a1).core = s.core :=
  eq_core (record_besides s p code sev a0 a1)
@[simp] theorem record_tdc (s : State) (p : Pg) (code sev a0 a1 : Nat) : (record s p code sev a0 a1).tdc = s.tdc :=
  eq_tdc (record_besides s p code sev a0 a1)
@[simp] theorem record_pke (s : State) (p : Pg) (code sev a0 a1 : Nat) : (record s p code sev a0 a1).pke = s.pke :=
  eq_pke (record_besides s p code sev a0 a1)
@[simp] theorem record_rings (s : State) (p : Pg) (code sev a0 a1 : Nat) : (record s p code sev a0 a1).rings = s.rings :=
  eq_rings (record_besides s p code sev a0 a1)
@[simp] theorem record_harts (s : State) (p : Pg) (code sev a0 a1 : Nat) : (record s p code sev a0 a1).harts = s.harts :=
  eq_harts (record_besides s p code sev a0 a1)
@[simp] theorem record_age (s : State) (p : Pg) (code sev a0 a1 : Nat) : (record s p code sev a0 a1).age = s.age :=
  eq_age (record_besides s p code sev a0 a1)
@[simp] theorem record_hif (s : State) (p : Pg) (code sev a0 a1 : Nat) : (record s p code sev a0 a1).hif = s.hif :=
  eq_hif (record_besides s p code sev a0 a1)
@[simp] theorem record_boot (s : State) (p : Pg) (code sev a0 a1 : Nat) : (record s p code sev a0 a1).boot = s.boot :=
  eq_boot (record_besides s p code sev a0 a1)
@[simp] theorem record_cntLatch (s : State) (p : Pg) (code sev a0 a1 : Nat) : (record s p code sev a0 a1).cntLatch = s.cntLatch :=
  eq_cntLatch (record_besides s p code sev a0 a1)
@[simp] theorem record_unlock (s : State) (p : Pg) (code sev a0 a1 : Nat) : (record s p code sev a0 a1).unlock = s.unlock :=
  eq_unlock (record_besides s p code sev a0 a1)
@[simp] theorem record_tap (s : State) (p : Pg) (code sev a0 a1 : Nat) : (record s p code sev a0 a1).tap = s.tap :=
  eq_tap (record_besides s p code sev a0 a1)
@[simp] theorem record_pending (s : State) (p : Pg) (code sev a0 a1 : Nat) : (record s p code sev a0 a1).pending = s.pending :=
  eq_pending (record_besides s p code sev a0 a1)

@[simp] theorem recordPair_clk (s : State) (p : Pg) (code sev a0 a1 b0 b1 : Nat) : (recordPair s p code sev a0 a1 b0 b1).clk = s.clk :=
  eq_clk (recordPair_besides s p code sev a0 a1 b0 b1)
@[simp] theorem recordPair_snapTbe (s : State) (p : Pg) (code sev a0 a1 b0 b1 : Nat) : (recordPair s p code sev a0 a1 b0 b1).snapTbe = s.snapTbe :=
  eq_snapTbe (recordPair_besides s p code sev a0 a1 b0 b1)
@[simp] theorem recordPair_snapLtr (s : State) (p : Pg) (code sev a0 a1 b0 b1 : Nat) : (recordPair s p code sev a0 a1 b0 b1).snapLtr = s.snapLtr :=
  eq_snapLtr (recordPair_besides s p code sev a0 a1 b0 b1)
@[simp] theorem recordPair_lastRead (s : State) (p : Pg) (code sev a0 a1 b0 b1 : Nat) : (recordPair s p code sev a0 a1 b0 b1).lastRead = s.lastRead :=
  eq_lastRead (recordPair_besides s p code sev a0 a1 b0 b1)
@[simp] theorem recordPair_free (s : State) (p : Pg) (code sev a0 a1 b0 b1 : Nat) : (recordPair s p code sev a0 a1 b0 b1).free = s.free :=
  eq_free (recordPair_besides s p code sev a0 a1 b0 b1)
@[simp] theorem recordPair_straps (s : State) (p : Pg) (code sev a0 a1 b0 b1 : Nat) : (recordPair s p code sev a0 a1 b0 b1).straps = s.straps :=
  eq_straps (recordPair_besides s p code sev a0 a1 b0 b1)
@[simp] theorem recordPair_tb (s : State) (p : Pg) (code sev a0 a1 b0 b1 : Nat) : (recordPair s p code sev a0 a1 b0 b1).tb = s.tb :=
  eq_tb (recordPair_besides s p code sev a0 a1 b0 b1)
@[simp] theorem recordPair_fab (s : State) (p : Pg) (code sev a0 a1 b0 b1 : Nat) : (recordPair s p code sev a0 a1 b0 b1).fab = s.fab :=
  eq_fab (recordPair_besides s p code sev a0 a1 b0 b1)
@[simp] theorem recordPair_saf (s : State) (p : Pg) (code sev a0 a1 b0 b1 : Nat) : (recordPair s p code sev a0 a1 b0 b1).saf = s.saf :=
  eq_saf (recordPair_besides s p code sev a0 a1 b0 b1)
@[simp] theorem recordPair_pwr (s : State) (p : Pg) (code sev a0 a1 b0 b1 : Nat) : (recordPair s p code sev a0 a1 b0 b1).pwr = s.pwr :=
  eq_pwr (recordPair_besides s p code sev a0 a1 b0 b1)
@[simp] theorem recordPair_dsc (s : State) (p : Pg) (code sev a0 a1 b0 b1 : Nat) : (recordPair s p code sev a0 a1 b0 b1).dsc = s.dsc :=
  eq_dsc (recordPair_besides s p code sev a0 a1 b0 b1)
@[simp] theorem recordPair_oven (s : State) (p : Pg) (code sev a0 a1 b0 b1 : Nat) : (recordPair s p code sev a0 a1 b0 b1).oven = s.oven :=
  eq_oven (recordPair_besides s p code sev a0 a1 b0 b1)
@[simp] theorem recordPair_mck (s : State) (p : Pg) (code sev a0 a1 b0 b1 : Nat) : (recordPair s p code sev a0 a1 b0 b1).mck = s.mck :=
  eq_mck (recordPair_besides s p code sev a0 a1 b0 b1)
@[simp] theorem recordPair_rad (s : State) (p : Pg) (code sev a0 a1 b0 b1 : Nat) : (recordPair s p code sev a0 a1 b0 b1).rad = s.rad :=
  eq_rad (recordPair_besides s p code sev a0 a1 b0 b1)
@[simp] theorem recordPair_ports (s : State) (p : Pg) (code sev a0 a1 b0 b1 : Nat) : (recordPair s p code sev a0 a1 b0 b1).ports = s.ports :=
  eq_ports (recordPair_besides s p code sev a0 a1 b0 b1)
@[simp] theorem recordPair_kisl (s : State) (p : Pg) (code sev a0 a1 b0 b1 : Nat) : (recordPair s p code sev a0 a1 b0 b1).kisl = s.kisl :=
  eq_kisl (recordPair_besides s p code sev a0 a1 b0 b1)
@[simp] theorem recordPair_links (s : State) (p : Pg) (code sev a0 a1 b0 b1 : Nat) : (recordPair s p code sev a0 a1 b0 b1).links = s.links :=
  eq_links (recordPair_besides s p code sev a0 a1 b0 b1)
@[simp] theorem recordPair_core (s : State) (p : Pg) (code sev a0 a1 b0 b1 : Nat) : (recordPair s p code sev a0 a1 b0 b1).core = s.core :=
  eq_core (recordPair_besides s p code sev a0 a1 b0 b1)
@[simp] theorem recordPair_tdc (s : State) (p : Pg) (code sev a0 a1 b0 b1 : Nat) : (recordPair s p code sev a0 a1 b0 b1).tdc = s.tdc :=
  eq_tdc (recordPair_besides s p code sev a0 a1 b0 b1)
@[simp] theorem recordPair_pke (s : State) (p : Pg) (code sev a0 a1 b0 b1 : Nat) : (recordPair s p code sev a0 a1 b0 b1).pke = s.pke :=
  eq_pke (recordPair_besides s p code sev a0 a1 b0 b1)
@[simp] theorem recordPair_rings (s : State) (p : Pg) (code sev a0 a1 b0 b1 : Nat) : (recordPair s p code sev a0 a1 b0 b1).rings = s.rings :=
  eq_rings (recordPair_besides s p code sev a0 a1 b0 b1)
@[simp] theorem recordPair_harts (s : State) (p : Pg) (code sev a0 a1 b0 b1 : Nat) : (recordPair s p code sev a0 a1 b0 b1).harts = s.harts :=
  eq_harts (recordPair_besides s p code sev a0 a1 b0 b1)
@[simp] theorem recordPair_age (s : State) (p : Pg) (code sev a0 a1 b0 b1 : Nat) : (recordPair s p code sev a0 a1 b0 b1).age = s.age :=
  eq_age (recordPair_besides s p code sev a0 a1 b0 b1)
@[simp] theorem recordPair_hif (s : State) (p : Pg) (code sev a0 a1 b0 b1 : Nat) : (recordPair s p code sev a0 a1 b0 b1).hif = s.hif :=
  eq_hif (recordPair_besides s p code sev a0 a1 b0 b1)
@[simp] theorem recordPair_boot (s : State) (p : Pg) (code sev a0 a1 b0 b1 : Nat) : (recordPair s p code sev a0 a1 b0 b1).boot = s.boot :=
  eq_boot (recordPair_besides s p code sev a0 a1 b0 b1)
@[simp] theorem recordPair_cntLatch (s : State) (p : Pg) (code sev a0 a1 b0 b1 : Nat) : (recordPair s p code sev a0 a1 b0 b1).cntLatch = s.cntLatch :=
  eq_cntLatch (recordPair_besides s p code sev a0 a1 b0 b1)
@[simp] theorem recordPair_unlock (s : State) (p : Pg) (code sev a0 a1 b0 b1 : Nat) : (recordPair s p code sev a0 a1 b0 b1).unlock = s.unlock :=
  eq_unlock (recordPair_besides s p code sev a0 a1 b0 b1)
@[simp] theorem recordPair_tap (s : State) (p : Pg) (code sev a0 a1 b0 b1 : Nat) : (recordPair s p code sev a0 a1 b0 b1).tap = s.tap :=
  eq_tap (recordPair_besides s p code sev a0 a1 b0 b1)
@[simp] theorem recordPair_pending (s : State) (p : Pg) (code sev a0 a1 b0 b1 : Nat) : (recordPair s p code sev a0 a1 b0 b1).pending = s.pending :=
  eq_pending (recordPair_besides s p code sev a0 a1 b0 b1)

@[simp] theorem raiseBy_clk (s : State) (p : Pg) (bit : Nat) (g : Bool) : (raiseBy s p bit g).clk = s.clk :=
  eq_clk (raiseBy_besides s p bit g)
@[simp] theorem raiseBy_snapTbe (s : State) (p : Pg) (bit : Nat) (g : Bool) : (raiseBy s p bit g).snapTbe = s.snapTbe :=
  eq_snapTbe (raiseBy_besides s p bit g)
@[simp] theorem raiseBy_snapLtr (s : State) (p : Pg) (bit : Nat) (g : Bool) : (raiseBy s p bit g).snapLtr = s.snapLtr :=
  eq_snapLtr (raiseBy_besides s p bit g)
@[simp] theorem raiseBy_lastRead (s : State) (p : Pg) (bit : Nat) (g : Bool) : (raiseBy s p bit g).lastRead = s.lastRead :=
  eq_lastRead (raiseBy_besides s p bit g)
@[simp] theorem raiseBy_free (s : State) (p : Pg) (bit : Nat) (g : Bool) : (raiseBy s p bit g).free = s.free :=
  eq_free (raiseBy_besides s p bit g)
@[simp] theorem raiseBy_straps (s : State) (p : Pg) (bit : Nat) (g : Bool) : (raiseBy s p bit g).straps = s.straps :=
  eq_straps (raiseBy_besides s p bit g)
@[simp] theorem raiseBy_tb (s : State) (p : Pg) (bit : Nat) (g : Bool) : (raiseBy s p bit g).tb = s.tb :=
  eq_tb (raiseBy_besides s p bit g)
@[simp] theorem raiseBy_fab (s : State) (p : Pg) (bit : Nat) (g : Bool) : (raiseBy s p bit g).fab = s.fab :=
  eq_fab (raiseBy_besides s p bit g)
@[simp] theorem raiseBy_saf (s : State) (p : Pg) (bit : Nat) (g : Bool) : (raiseBy s p bit g).saf = s.saf :=
  eq_saf (raiseBy_besides s p bit g)
@[simp] theorem raiseBy_pwr (s : State) (p : Pg) (bit : Nat) (g : Bool) : (raiseBy s p bit g).pwr = s.pwr :=
  eq_pwr (raiseBy_besides s p bit g)
@[simp] theorem raiseBy_dsc (s : State) (p : Pg) (bit : Nat) (g : Bool) : (raiseBy s p bit g).dsc = s.dsc :=
  eq_dsc (raiseBy_besides s p bit g)
@[simp] theorem raiseBy_oven (s : State) (p : Pg) (bit : Nat) (g : Bool) : (raiseBy s p bit g).oven = s.oven :=
  eq_oven (raiseBy_besides s p bit g)
@[simp] theorem raiseBy_mck (s : State) (p : Pg) (bit : Nat) (g : Bool) : (raiseBy s p bit g).mck = s.mck :=
  eq_mck (raiseBy_besides s p bit g)
@[simp] theorem raiseBy_rad (s : State) (p : Pg) (bit : Nat) (g : Bool) : (raiseBy s p bit g).rad = s.rad :=
  eq_rad (raiseBy_besides s p bit g)
@[simp] theorem raiseBy_ports (s : State) (p : Pg) (bit : Nat) (g : Bool) : (raiseBy s p bit g).ports = s.ports :=
  eq_ports (raiseBy_besides s p bit g)
@[simp] theorem raiseBy_kisl (s : State) (p : Pg) (bit : Nat) (g : Bool) : (raiseBy s p bit g).kisl = s.kisl :=
  eq_kisl (raiseBy_besides s p bit g)
@[simp] theorem raiseBy_links (s : State) (p : Pg) (bit : Nat) (g : Bool) : (raiseBy s p bit g).links = s.links :=
  eq_links (raiseBy_besides s p bit g)
@[simp] theorem raiseBy_core (s : State) (p : Pg) (bit : Nat) (g : Bool) : (raiseBy s p bit g).core = s.core :=
  eq_core (raiseBy_besides s p bit g)
@[simp] theorem raiseBy_tdc (s : State) (p : Pg) (bit : Nat) (g : Bool) : (raiseBy s p bit g).tdc = s.tdc :=
  eq_tdc (raiseBy_besides s p bit g)
@[simp] theorem raiseBy_pke (s : State) (p : Pg) (bit : Nat) (g : Bool) : (raiseBy s p bit g).pke = s.pke :=
  eq_pke (raiseBy_besides s p bit g)
@[simp] theorem raiseBy_rings (s : State) (p : Pg) (bit : Nat) (g : Bool) : (raiseBy s p bit g).rings = s.rings :=
  eq_rings (raiseBy_besides s p bit g)
@[simp] theorem raiseBy_harts (s : State) (p : Pg) (bit : Nat) (g : Bool) : (raiseBy s p bit g).harts = s.harts :=
  eq_harts (raiseBy_besides s p bit g)
@[simp] theorem raiseBy_age (s : State) (p : Pg) (bit : Nat) (g : Bool) : (raiseBy s p bit g).age = s.age :=
  eq_age (raiseBy_besides s p bit g)
@[simp] theorem raiseBy_hif (s : State) (p : Pg) (bit : Nat) (g : Bool) : (raiseBy s p bit g).hif = s.hif :=
  eq_hif (raiseBy_besides s p bit g)
@[simp] theorem raiseBy_boot (s : State) (p : Pg) (bit : Nat) (g : Bool) : (raiseBy s p bit g).boot = s.boot :=
  eq_boot (raiseBy_besides s p bit g)
@[simp] theorem raiseBy_cntLatch (s : State) (p : Pg) (bit : Nat) (g : Bool) : (raiseBy s p bit g).cntLatch = s.cntLatch :=
  eq_cntLatch (raiseBy_besides s p bit g)
@[simp] theorem raiseBy_unlock (s : State) (p : Pg) (bit : Nat) (g : Bool) : (raiseBy s p bit g).unlock = s.unlock :=
  eq_unlock (raiseBy_besides s p bit g)
@[simp] theorem raiseBy_tap (s : State) (p : Pg) (bit : Nat) (g : Bool) : (raiseBy s p bit g).tap = s.tap :=
  eq_tap (raiseBy_besides s p bit g)
@[simp] theorem raiseBy_pending (s : State) (p : Pg) (bit : Nat) (g : Bool) : (raiseBy s p bit g).pending = s.pending :=
  eq_pending (raiseBy_besides s p bit g)

@[simp] theorem raise_clk (s : State) (p : Pg) (bit : Nat) : (raise s p bit).clk = s.clk :=
  eq_clk (raise_besides s p bit)
@[simp] theorem raise_snapTbe (s : State) (p : Pg) (bit : Nat) : (raise s p bit).snapTbe = s.snapTbe :=
  eq_snapTbe (raise_besides s p bit)
@[simp] theorem raise_snapLtr (s : State) (p : Pg) (bit : Nat) : (raise s p bit).snapLtr = s.snapLtr :=
  eq_snapLtr (raise_besides s p bit)
@[simp] theorem raise_lastRead (s : State) (p : Pg) (bit : Nat) : (raise s p bit).lastRead = s.lastRead :=
  eq_lastRead (raise_besides s p bit)
@[simp] theorem raise_free (s : State) (p : Pg) (bit : Nat) : (raise s p bit).free = s.free :=
  eq_free (raise_besides s p bit)
@[simp] theorem raise_straps (s : State) (p : Pg) (bit : Nat) : (raise s p bit).straps = s.straps :=
  eq_straps (raise_besides s p bit)
@[simp] theorem raise_tb (s : State) (p : Pg) (bit : Nat) : (raise s p bit).tb = s.tb :=
  eq_tb (raise_besides s p bit)
@[simp] theorem raise_fab (s : State) (p : Pg) (bit : Nat) : (raise s p bit).fab = s.fab :=
  eq_fab (raise_besides s p bit)
@[simp] theorem raise_saf (s : State) (p : Pg) (bit : Nat) : (raise s p bit).saf = s.saf :=
  eq_saf (raise_besides s p bit)
@[simp] theorem raise_pwr (s : State) (p : Pg) (bit : Nat) : (raise s p bit).pwr = s.pwr :=
  eq_pwr (raise_besides s p bit)
@[simp] theorem raise_dsc (s : State) (p : Pg) (bit : Nat) : (raise s p bit).dsc = s.dsc :=
  eq_dsc (raise_besides s p bit)
@[simp] theorem raise_oven (s : State) (p : Pg) (bit : Nat) : (raise s p bit).oven = s.oven :=
  eq_oven (raise_besides s p bit)
@[simp] theorem raise_mck (s : State) (p : Pg) (bit : Nat) : (raise s p bit).mck = s.mck :=
  eq_mck (raise_besides s p bit)
@[simp] theorem raise_rad (s : State) (p : Pg) (bit : Nat) : (raise s p bit).rad = s.rad :=
  eq_rad (raise_besides s p bit)
@[simp] theorem raise_ports (s : State) (p : Pg) (bit : Nat) : (raise s p bit).ports = s.ports :=
  eq_ports (raise_besides s p bit)
@[simp] theorem raise_kisl (s : State) (p : Pg) (bit : Nat) : (raise s p bit).kisl = s.kisl :=
  eq_kisl (raise_besides s p bit)
@[simp] theorem raise_links (s : State) (p : Pg) (bit : Nat) : (raise s p bit).links = s.links :=
  eq_links (raise_besides s p bit)
@[simp] theorem raise_core (s : State) (p : Pg) (bit : Nat) : (raise s p bit).core = s.core :=
  eq_core (raise_besides s p bit)
@[simp] theorem raise_tdc (s : State) (p : Pg) (bit : Nat) : (raise s p bit).tdc = s.tdc :=
  eq_tdc (raise_besides s p bit)
@[simp] theorem raise_pke (s : State) (p : Pg) (bit : Nat) : (raise s p bit).pke = s.pke :=
  eq_pke (raise_besides s p bit)
@[simp] theorem raise_rings (s : State) (p : Pg) (bit : Nat) : (raise s p bit).rings = s.rings :=
  eq_rings (raise_besides s p bit)
@[simp] theorem raise_harts (s : State) (p : Pg) (bit : Nat) : (raise s p bit).harts = s.harts :=
  eq_harts (raise_besides s p bit)
@[simp] theorem raise_age (s : State) (p : Pg) (bit : Nat) : (raise s p bit).age = s.age :=
  eq_age (raise_besides s p bit)
@[simp] theorem raise_hif (s : State) (p : Pg) (bit : Nat) : (raise s p bit).hif = s.hif :=
  eq_hif (raise_besides s p bit)
@[simp] theorem raise_boot (s : State) (p : Pg) (bit : Nat) : (raise s p bit).boot = s.boot :=
  eq_boot (raise_besides s p bit)
@[simp] theorem raise_cntLatch (s : State) (p : Pg) (bit : Nat) : (raise s p bit).cntLatch = s.cntLatch :=
  eq_cntLatch (raise_besides s p bit)
@[simp] theorem raise_unlock (s : State) (p : Pg) (bit : Nat) : (raise s p bit).unlock = s.unlock :=
  eq_unlock (raise_besides s p bit)
@[simp] theorem raise_tap (s : State) (p : Pg) (bit : Nat) : (raise s p bit).tap = s.tap :=
  eq_tap (raise_besides s p bit)
@[simp] theorem raise_pending (s : State) (p : Pg) (bit : Nat) : (raise s p bit).pending = s.pending :=
  eq_pending (raise_besides s p bit)

@[simp] theorem raiseIf_clk (s : State) (c : Bool) (p : Pg) (bit : Nat) : (raiseIf s c p bit).clk = s.clk :=
  eq_clk (raiseIf_besides s c p bit)
@[simp] theorem raiseIf_snapTbe (s : State) (c : Bool) (p : Pg) (bit : Nat) : (raiseIf s c p bit).snapTbe = s.snapTbe :=
  eq_snapTbe (raiseIf_besides s c p bit)
@[simp] theorem raiseIf_snapLtr (s : State) (c : Bool) (p : Pg) (bit : Nat) : (raiseIf s c p bit).snapLtr = s.snapLtr :=
  eq_snapLtr (raiseIf_besides s c p bit)
@[simp] theorem raiseIf_lastRead (s : State) (c : Bool) (p : Pg) (bit : Nat) : (raiseIf s c p bit).lastRead = s.lastRead :=
  eq_lastRead (raiseIf_besides s c p bit)
@[simp] theorem raiseIf_free (s : State) (c : Bool) (p : Pg) (bit : Nat) : (raiseIf s c p bit).free = s.free :=
  eq_free (raiseIf_besides s c p bit)
@[simp] theorem raiseIf_straps (s : State) (c : Bool) (p : Pg) (bit : Nat) : (raiseIf s c p bit).straps = s.straps :=
  eq_straps (raiseIf_besides s c p bit)
@[simp] theorem raiseIf_tb (s : State) (c : Bool) (p : Pg) (bit : Nat) : (raiseIf s c p bit).tb = s.tb :=
  eq_tb (raiseIf_besides s c p bit)
@[simp] theorem raiseIf_fab (s : State) (c : Bool) (p : Pg) (bit : Nat) : (raiseIf s c p bit).fab = s.fab :=
  eq_fab (raiseIf_besides s c p bit)
@[simp] theorem raiseIf_saf (s : State) (c : Bool) (p : Pg) (bit : Nat) : (raiseIf s c p bit).saf = s.saf :=
  eq_saf (raiseIf_besides s c p bit)
@[simp] theorem raiseIf_pwr (s : State) (c : Bool) (p : Pg) (bit : Nat) : (raiseIf s c p bit).pwr = s.pwr :=
  eq_pwr (raiseIf_besides s c p bit)
@[simp] theorem raiseIf_dsc (s : State) (c : Bool) (p : Pg) (bit : Nat) : (raiseIf s c p bit).dsc = s.dsc :=
  eq_dsc (raiseIf_besides s c p bit)
@[simp] theorem raiseIf_oven (s : State) (c : Bool) (p : Pg) (bit : Nat) : (raiseIf s c p bit).oven = s.oven :=
  eq_oven (raiseIf_besides s c p bit)
@[simp] theorem raiseIf_mck (s : State) (c : Bool) (p : Pg) (bit : Nat) : (raiseIf s c p bit).mck = s.mck :=
  eq_mck (raiseIf_besides s c p bit)
@[simp] theorem raiseIf_rad (s : State) (c : Bool) (p : Pg) (bit : Nat) : (raiseIf s c p bit).rad = s.rad :=
  eq_rad (raiseIf_besides s c p bit)
@[simp] theorem raiseIf_ports (s : State) (c : Bool) (p : Pg) (bit : Nat) : (raiseIf s c p bit).ports = s.ports :=
  eq_ports (raiseIf_besides s c p bit)
@[simp] theorem raiseIf_kisl (s : State) (c : Bool) (p : Pg) (bit : Nat) : (raiseIf s c p bit).kisl = s.kisl :=
  eq_kisl (raiseIf_besides s c p bit)
@[simp] theorem raiseIf_links (s : State) (c : Bool) (p : Pg) (bit : Nat) : (raiseIf s c p bit).links = s.links :=
  eq_links (raiseIf_besides s c p bit)
@[simp] theorem raiseIf_core (s : State) (c : Bool) (p : Pg) (bit : Nat) : (raiseIf s c p bit).core = s.core :=
  eq_core (raiseIf_besides s c p bit)
@[simp] theorem raiseIf_tdc (s : State) (c : Bool) (p : Pg) (bit : Nat) : (raiseIf s c p bit).tdc = s.tdc :=
  eq_tdc (raiseIf_besides s c p bit)
@[simp] theorem raiseIf_pke (s : State) (c : Bool) (p : Pg) (bit : Nat) : (raiseIf s c p bit).pke = s.pke :=
  eq_pke (raiseIf_besides s c p bit)
@[simp] theorem raiseIf_rings (s : State) (c : Bool) (p : Pg) (bit : Nat) : (raiseIf s c p bit).rings = s.rings :=
  eq_rings (raiseIf_besides s c p bit)
@[simp] theorem raiseIf_harts (s : State) (c : Bool) (p : Pg) (bit : Nat) : (raiseIf s c p bit).harts = s.harts :=
  eq_harts (raiseIf_besides s c p bit)
@[simp] theorem raiseIf_age (s : State) (c : Bool) (p : Pg) (bit : Nat) : (raiseIf s c p bit).age = s.age :=
  eq_age (raiseIf_besides s c p bit)
@[simp] theorem raiseIf_hif (s : State) (c : Bool) (p : Pg) (bit : Nat) : (raiseIf s c p bit).hif = s.hif :=
  eq_hif (raiseIf_besides s c p bit)
@[simp] theorem raiseIf_boot (s : State) (c : Bool) (p : Pg) (bit : Nat) : (raiseIf s c p bit).boot = s.boot :=
  eq_boot (raiseIf_besides s c p bit)
@[simp] theorem raiseIf_cntLatch (s : State) (c : Bool) (p : Pg) (bit : Nat) : (raiseIf s c p bit).cntLatch = s.cntLatch :=
  eq_cntLatch (raiseIf_besides s c p bit)
@[simp] theorem raiseIf_unlock (s : State) (c : Bool) (p : Pg) (bit : Nat) : (raiseIf s c p bit).unlock = s.unlock :=
  eq_unlock (raiseIf_besides s c p bit)
@[simp] theorem raiseIf_tap (s : State) (c : Bool) (p : Pg) (bit : Nat) : (raiseIf s c p bit).tap = s.tap :=
  eq_tap (raiseIf_besides s c p bit)
@[simp] theorem raiseIf_pending (s : State) (c : Bool) (p : Pg) (bit : Nat) : (raiseIf s c p bit).pending = s.pending :=
  eq_pending (raiseIf_besides s c p bit)

@[simp] theorem noteDoubt_clk (b s : State) (p : Pg) (g : Bool) : (noteDoubt b s p g).clk = s.clk :=
  eq_clk (noteDoubt_besides b s p g)
@[simp] theorem noteDoubt_snapTbe (b s : State) (p : Pg) (g : Bool) : (noteDoubt b s p g).snapTbe = s.snapTbe :=
  eq_snapTbe (noteDoubt_besides b s p g)
@[simp] theorem noteDoubt_snapLtr (b s : State) (p : Pg) (g : Bool) : (noteDoubt b s p g).snapLtr = s.snapLtr :=
  eq_snapLtr (noteDoubt_besides b s p g)
@[simp] theorem noteDoubt_lastRead (b s : State) (p : Pg) (g : Bool) : (noteDoubt b s p g).lastRead = s.lastRead :=
  eq_lastRead (noteDoubt_besides b s p g)
@[simp] theorem noteDoubt_free (b s : State) (p : Pg) (g : Bool) : (noteDoubt b s p g).free = s.free :=
  eq_free (noteDoubt_besides b s p g)
@[simp] theorem noteDoubt_straps (b s : State) (p : Pg) (g : Bool) : (noteDoubt b s p g).straps = s.straps :=
  eq_straps (noteDoubt_besides b s p g)
@[simp] theorem noteDoubt_tb (b s : State) (p : Pg) (g : Bool) : (noteDoubt b s p g).tb = s.tb :=
  eq_tb (noteDoubt_besides b s p g)
@[simp] theorem noteDoubt_fab (b s : State) (p : Pg) (g : Bool) : (noteDoubt b s p g).fab = s.fab :=
  eq_fab (noteDoubt_besides b s p g)
@[simp] theorem noteDoubt_saf (b s : State) (p : Pg) (g : Bool) : (noteDoubt b s p g).saf = s.saf :=
  eq_saf (noteDoubt_besides b s p g)
@[simp] theorem noteDoubt_pwr (b s : State) (p : Pg) (g : Bool) : (noteDoubt b s p g).pwr = s.pwr :=
  eq_pwr (noteDoubt_besides b s p g)
@[simp] theorem noteDoubt_dsc (b s : State) (p : Pg) (g : Bool) : (noteDoubt b s p g).dsc = s.dsc :=
  eq_dsc (noteDoubt_besides b s p g)
@[simp] theorem noteDoubt_oven (b s : State) (p : Pg) (g : Bool) : (noteDoubt b s p g).oven = s.oven :=
  eq_oven (noteDoubt_besides b s p g)
@[simp] theorem noteDoubt_mck (b s : State) (p : Pg) (g : Bool) : (noteDoubt b s p g).mck = s.mck :=
  eq_mck (noteDoubt_besides b s p g)
@[simp] theorem noteDoubt_rad (b s : State) (p : Pg) (g : Bool) : (noteDoubt b s p g).rad = s.rad :=
  eq_rad (noteDoubt_besides b s p g)
@[simp] theorem noteDoubt_ports (b s : State) (p : Pg) (g : Bool) : (noteDoubt b s p g).ports = s.ports :=
  eq_ports (noteDoubt_besides b s p g)
@[simp] theorem noteDoubt_kisl (b s : State) (p : Pg) (g : Bool) : (noteDoubt b s p g).kisl = s.kisl :=
  eq_kisl (noteDoubt_besides b s p g)
@[simp] theorem noteDoubt_links (b s : State) (p : Pg) (g : Bool) : (noteDoubt b s p g).links = s.links :=
  eq_links (noteDoubt_besides b s p g)
@[simp] theorem noteDoubt_core (b s : State) (p : Pg) (g : Bool) : (noteDoubt b s p g).core = s.core :=
  eq_core (noteDoubt_besides b s p g)
@[simp] theorem noteDoubt_tdc (b s : State) (p : Pg) (g : Bool) : (noteDoubt b s p g).tdc = s.tdc :=
  eq_tdc (noteDoubt_besides b s p g)
@[simp] theorem noteDoubt_pke (b s : State) (p : Pg) (g : Bool) : (noteDoubt b s p g).pke = s.pke :=
  eq_pke (noteDoubt_besides b s p g)
@[simp] theorem noteDoubt_rings (b s : State) (p : Pg) (g : Bool) : (noteDoubt b s p g).rings = s.rings :=
  eq_rings (noteDoubt_besides b s p g)
@[simp] theorem noteDoubt_harts (b s : State) (p : Pg) (g : Bool) : (noteDoubt b s p g).harts = s.harts :=
  eq_harts (noteDoubt_besides b s p g)
@[simp] theorem noteDoubt_age (b s : State) (p : Pg) (g : Bool) : (noteDoubt b s p g).age = s.age :=
  eq_age (noteDoubt_besides b s p g)
@[simp] theorem noteDoubt_hif (b s : State) (p : Pg) (g : Bool) : (noteDoubt b s p g).hif = s.hif :=
  eq_hif (noteDoubt_besides b s p g)
@[simp] theorem noteDoubt_boot (b s : State) (p : Pg) (g : Bool) : (noteDoubt b s p g).boot = s.boot :=
  eq_boot (noteDoubt_besides b s p g)
@[simp] theorem noteDoubt_cntLatch (b s : State) (p : Pg) (g : Bool) : (noteDoubt b s p g).cntLatch = s.cntLatch :=
  eq_cntLatch (noteDoubt_besides b s p g)
@[simp] theorem noteDoubt_unlock (b s : State) (p : Pg) (g : Bool) : (noteDoubt b s p g).unlock = s.unlock :=
  eq_unlock (noteDoubt_besides b s p g)
@[simp] theorem noteDoubt_tap (b s : State) (p : Pg) (g : Bool) : (noteDoubt b s p g).tap = s.tap :=
  eq_tap (noteDoubt_besides b s p g)
@[simp] theorem noteDoubt_pending (b s : State) (p : Pg) (g : Bool) : (noteDoubt b s p g).pending = s.pending :=
  eq_pending (noteDoubt_besides b s p g)

@[simp] theorem doubt_clk (s : State) (p : Pg) (bit : Nat) (b : Bool) : (doubt s p bit b).clk = s.clk :=
  eq_clk (doubt_besides s p bit b)
@[simp] theorem doubt_snapTbe (s : State) (p : Pg) (bit : Nat) (b : Bool) : (doubt s p bit b).snapTbe = s.snapTbe :=
  eq_snapTbe (doubt_besides s p bit b)
@[simp] theorem doubt_snapLtr (s : State) (p : Pg) (bit : Nat) (b : Bool) : (doubt s p bit b).snapLtr = s.snapLtr :=
  eq_snapLtr (doubt_besides s p bit b)
@[simp] theorem doubt_lastRead (s : State) (p : Pg) (bit : Nat) (b : Bool) : (doubt s p bit b).lastRead = s.lastRead :=
  eq_lastRead (doubt_besides s p bit b)
@[simp] theorem doubt_free (s : State) (p : Pg) (bit : Nat) (b : Bool) : (doubt s p bit b).free = s.free :=
  eq_free (doubt_besides s p bit b)
@[simp] theorem doubt_straps (s : State) (p : Pg) (bit : Nat) (b : Bool) : (doubt s p bit b).straps = s.straps :=
  eq_straps (doubt_besides s p bit b)
@[simp] theorem doubt_tb (s : State) (p : Pg) (bit : Nat) (b : Bool) : (doubt s p bit b).tb = s.tb :=
  eq_tb (doubt_besides s p bit b)
@[simp] theorem doubt_fab (s : State) (p : Pg) (bit : Nat) (b : Bool) : (doubt s p bit b).fab = s.fab :=
  eq_fab (doubt_besides s p bit b)
@[simp] theorem doubt_saf (s : State) (p : Pg) (bit : Nat) (b : Bool) : (doubt s p bit b).saf = s.saf :=
  eq_saf (doubt_besides s p bit b)
@[simp] theorem doubt_pwr (s : State) (p : Pg) (bit : Nat) (b : Bool) : (doubt s p bit b).pwr = s.pwr :=
  eq_pwr (doubt_besides s p bit b)
@[simp] theorem doubt_dsc (s : State) (p : Pg) (bit : Nat) (b : Bool) : (doubt s p bit b).dsc = s.dsc :=
  eq_dsc (doubt_besides s p bit b)
@[simp] theorem doubt_oven (s : State) (p : Pg) (bit : Nat) (b : Bool) : (doubt s p bit b).oven = s.oven :=
  eq_oven (doubt_besides s p bit b)
@[simp] theorem doubt_mck (s : State) (p : Pg) (bit : Nat) (b : Bool) : (doubt s p bit b).mck = s.mck :=
  eq_mck (doubt_besides s p bit b)
@[simp] theorem doubt_rad (s : State) (p : Pg) (bit : Nat) (b : Bool) : (doubt s p bit b).rad = s.rad :=
  eq_rad (doubt_besides s p bit b)
@[simp] theorem doubt_ports (s : State) (p : Pg) (bit : Nat) (b : Bool) : (doubt s p bit b).ports = s.ports :=
  eq_ports (doubt_besides s p bit b)
@[simp] theorem doubt_kisl (s : State) (p : Pg) (bit : Nat) (b : Bool) : (doubt s p bit b).kisl = s.kisl :=
  eq_kisl (doubt_besides s p bit b)
@[simp] theorem doubt_links (s : State) (p : Pg) (bit : Nat) (b : Bool) : (doubt s p bit b).links = s.links :=
  eq_links (doubt_besides s p bit b)
@[simp] theorem doubt_core (s : State) (p : Pg) (bit : Nat) (b : Bool) : (doubt s p bit b).core = s.core :=
  eq_core (doubt_besides s p bit b)
@[simp] theorem doubt_tdc (s : State) (p : Pg) (bit : Nat) (b : Bool) : (doubt s p bit b).tdc = s.tdc :=
  eq_tdc (doubt_besides s p bit b)
@[simp] theorem doubt_pke (s : State) (p : Pg) (bit : Nat) (b : Bool) : (doubt s p bit b).pke = s.pke :=
  eq_pke (doubt_besides s p bit b)
@[simp] theorem doubt_rings (s : State) (p : Pg) (bit : Nat) (b : Bool) : (doubt s p bit b).rings = s.rings :=
  eq_rings (doubt_besides s p bit b)
@[simp] theorem doubt_harts (s : State) (p : Pg) (bit : Nat) (b : Bool) : (doubt s p bit b).harts = s.harts :=
  eq_harts (doubt_besides s p bit b)
@[simp] theorem doubt_age (s : State) (p : Pg) (bit : Nat) (b : Bool) : (doubt s p bit b).age = s.age :=
  eq_age (doubt_besides s p bit b)
@[simp] theorem doubt_hif (s : State) (p : Pg) (bit : Nat) (b : Bool) : (doubt s p bit b).hif = s.hif :=
  eq_hif (doubt_besides s p bit b)
@[simp] theorem doubt_boot (s : State) (p : Pg) (bit : Nat) (b : Bool) : (doubt s p bit b).boot = s.boot :=
  eq_boot (doubt_besides s p bit b)
@[simp] theorem doubt_cntLatch (s : State) (p : Pg) (bit : Nat) (b : Bool) : (doubt s p bit b).cntLatch = s.cntLatch :=
  eq_cntLatch (doubt_besides s p bit b)
@[simp] theorem doubt_unlock (s : State) (p : Pg) (bit : Nat) (b : Bool) : (doubt s p bit b).unlock = s.unlock :=
  eq_unlock (doubt_besides s p bit b)
@[simp] theorem doubt_tap (s : State) (p : Pg) (bit : Nat) (b : Bool) : (doubt s p bit b).tap = s.tap :=
  eq_tap (doubt_besides s p bit b)
@[simp] theorem doubt_pending (s : State) (p : Pg) (bit : Nat) (b : Bool) : (doubt s p bit b).pending = s.pending :=
  eq_pending (doubt_besides s p bit b)

@[simp] theorem deny_clk (s : State) (r : Requester) (k : Nat) : (deny s r k).clk = s.clk :=
  eq_clk (deny_besides s r k)
@[simp] theorem deny_snapTbe (s : State) (r : Requester) (k : Nat) : (deny s r k).snapTbe = s.snapTbe :=
  eq_snapTbe (deny_besides s r k)
@[simp] theorem deny_snapLtr (s : State) (r : Requester) (k : Nat) : (deny s r k).snapLtr = s.snapLtr :=
  eq_snapLtr (deny_besides s r k)
@[simp] theorem deny_lastRead (s : State) (r : Requester) (k : Nat) : (deny s r k).lastRead = s.lastRead :=
  eq_lastRead (deny_besides s r k)
@[simp] theorem deny_free (s : State) (r : Requester) (k : Nat) : (deny s r k).free = s.free :=
  eq_free (deny_besides s r k)
@[simp] theorem deny_straps (s : State) (r : Requester) (k : Nat) : (deny s r k).straps = s.straps :=
  eq_straps (deny_besides s r k)
@[simp] theorem deny_tb (s : State) (r : Requester) (k : Nat) : (deny s r k).tb = s.tb :=
  eq_tb (deny_besides s r k)
@[simp] theorem deny_fab (s : State) (r : Requester) (k : Nat) : (deny s r k).fab = s.fab :=
  eq_fab (deny_besides s r k)
@[simp] theorem deny_saf (s : State) (r : Requester) (k : Nat) : (deny s r k).saf = s.saf :=
  eq_saf (deny_besides s r k)
@[simp] theorem deny_pwr (s : State) (r : Requester) (k : Nat) : (deny s r k).pwr = s.pwr :=
  eq_pwr (deny_besides s r k)
@[simp] theorem deny_dsc (s : State) (r : Requester) (k : Nat) : (deny s r k).dsc = s.dsc :=
  eq_dsc (deny_besides s r k)
@[simp] theorem deny_oven (s : State) (r : Requester) (k : Nat) : (deny s r k).oven = s.oven :=
  eq_oven (deny_besides s r k)
@[simp] theorem deny_mck (s : State) (r : Requester) (k : Nat) : (deny s r k).mck = s.mck :=
  eq_mck (deny_besides s r k)
@[simp] theorem deny_rad (s : State) (r : Requester) (k : Nat) : (deny s r k).rad = s.rad :=
  eq_rad (deny_besides s r k)
@[simp] theorem deny_ports (s : State) (r : Requester) (k : Nat) : (deny s r k).ports = s.ports :=
  eq_ports (deny_besides s r k)
@[simp] theorem deny_kisl (s : State) (r : Requester) (k : Nat) : (deny s r k).kisl = s.kisl :=
  eq_kisl (deny_besides s r k)
@[simp] theorem deny_links (s : State) (r : Requester) (k : Nat) : (deny s r k).links = s.links :=
  eq_links (deny_besides s r k)
@[simp] theorem deny_core (s : State) (r : Requester) (k : Nat) : (deny s r k).core = s.core :=
  eq_core (deny_besides s r k)
@[simp] theorem deny_tdc (s : State) (r : Requester) (k : Nat) : (deny s r k).tdc = s.tdc :=
  eq_tdc (deny_besides s r k)
@[simp] theorem deny_pke (s : State) (r : Requester) (k : Nat) : (deny s r k).pke = s.pke :=
  eq_pke (deny_besides s r k)
@[simp] theorem deny_rings (s : State) (r : Requester) (k : Nat) : (deny s r k).rings = s.rings :=
  eq_rings (deny_besides s r k)
@[simp] theorem deny_harts (s : State) (r : Requester) (k : Nat) : (deny s r k).harts = s.harts :=
  eq_harts (deny_besides s r k)
@[simp] theorem deny_age (s : State) (r : Requester) (k : Nat) : (deny s r k).age = s.age :=
  eq_age (deny_besides s r k)
@[simp] theorem deny_hif (s : State) (r : Requester) (k : Nat) : (deny s r k).hif = s.hif :=
  eq_hif (deny_besides s r k)
@[simp] theorem deny_boot (s : State) (r : Requester) (k : Nat) : (deny s r k).boot = s.boot :=
  eq_boot (deny_besides s r k)
@[simp] theorem deny_cntLatch (s : State) (r : Requester) (k : Nat) : (deny s r k).cntLatch = s.cntLatch :=
  eq_cntLatch (deny_besides s r k)
@[simp] theorem deny_unlock (s : State) (r : Requester) (k : Nat) : (deny s r k).unlock = s.unlock :=
  eq_unlock (deny_besides s r k)
@[simp] theorem deny_tap (s : State) (r : Requester) (k : Nat) : (deny s r k).tap = s.tap :=
  eq_tap (deny_besides s r k)
@[simp] theorem deny_pending (s : State) (r : Requester) (k : Nat) : (deny s r k).pending = s.pending :=
  eq_pending (deny_besides s r k)

@[simp] theorem lockViol_clk (s : State) (p : Pg) : (lockViol s p).clk = s.clk :=
  eq_clk (lockViol_besides s p)
@[simp] theorem lockViol_snapTbe (s : State) (p : Pg) : (lockViol s p).snapTbe = s.snapTbe :=
  eq_snapTbe (lockViol_besides s p)
@[simp] theorem lockViol_snapLtr (s : State) (p : Pg) : (lockViol s p).snapLtr = s.snapLtr :=
  eq_snapLtr (lockViol_besides s p)
@[simp] theorem lockViol_lastRead (s : State) (p : Pg) : (lockViol s p).lastRead = s.lastRead :=
  eq_lastRead (lockViol_besides s p)
@[simp] theorem lockViol_free (s : State) (p : Pg) : (lockViol s p).free = s.free :=
  eq_free (lockViol_besides s p)
@[simp] theorem lockViol_straps (s : State) (p : Pg) : (lockViol s p).straps = s.straps :=
  eq_straps (lockViol_besides s p)
@[simp] theorem lockViol_tb (s : State) (p : Pg) : (lockViol s p).tb = s.tb :=
  eq_tb (lockViol_besides s p)
@[simp] theorem lockViol_fab (s : State) (p : Pg) : (lockViol s p).fab = s.fab :=
  eq_fab (lockViol_besides s p)
@[simp] theorem lockViol_saf (s : State) (p : Pg) : (lockViol s p).saf = s.saf :=
  eq_saf (lockViol_besides s p)
@[simp] theorem lockViol_pwr (s : State) (p : Pg) : (lockViol s p).pwr = s.pwr :=
  eq_pwr (lockViol_besides s p)
@[simp] theorem lockViol_dsc (s : State) (p : Pg) : (lockViol s p).dsc = s.dsc :=
  eq_dsc (lockViol_besides s p)
@[simp] theorem lockViol_oven (s : State) (p : Pg) : (lockViol s p).oven = s.oven :=
  eq_oven (lockViol_besides s p)
@[simp] theorem lockViol_mck (s : State) (p : Pg) : (lockViol s p).mck = s.mck :=
  eq_mck (lockViol_besides s p)
@[simp] theorem lockViol_rad (s : State) (p : Pg) : (lockViol s p).rad = s.rad :=
  eq_rad (lockViol_besides s p)
@[simp] theorem lockViol_ports (s : State) (p : Pg) : (lockViol s p).ports = s.ports :=
  eq_ports (lockViol_besides s p)
@[simp] theorem lockViol_kisl (s : State) (p : Pg) : (lockViol s p).kisl = s.kisl :=
  eq_kisl (lockViol_besides s p)
@[simp] theorem lockViol_links (s : State) (p : Pg) : (lockViol s p).links = s.links :=
  eq_links (lockViol_besides s p)
@[simp] theorem lockViol_core (s : State) (p : Pg) : (lockViol s p).core = s.core :=
  eq_core (lockViol_besides s p)
@[simp] theorem lockViol_tdc (s : State) (p : Pg) : (lockViol s p).tdc = s.tdc :=
  eq_tdc (lockViol_besides s p)
@[simp] theorem lockViol_pke (s : State) (p : Pg) : (lockViol s p).pke = s.pke :=
  eq_pke (lockViol_besides s p)
@[simp] theorem lockViol_rings (s : State) (p : Pg) : (lockViol s p).rings = s.rings :=
  eq_rings (lockViol_besides s p)
@[simp] theorem lockViol_harts (s : State) (p : Pg) : (lockViol s p).harts = s.harts :=
  eq_harts (lockViol_besides s p)
@[simp] theorem lockViol_age (s : State) (p : Pg) : (lockViol s p).age = s.age :=
  eq_age (lockViol_besides s p)
@[simp] theorem lockViol_hif (s : State) (p : Pg) : (lockViol s p).hif = s.hif :=
  eq_hif (lockViol_besides s p)
@[simp] theorem lockViol_boot (s : State) (p : Pg) : (lockViol s p).boot = s.boot :=
  eq_boot (lockViol_besides s p)
@[simp] theorem lockViol_cntLatch (s : State) (p : Pg) : (lockViol s p).cntLatch = s.cntLatch :=
  eq_cntLatch (lockViol_besides s p)
@[simp] theorem lockViol_unlock (s : State) (p : Pg) : (lockViol s p).unlock = s.unlock :=
  eq_unlock (lockViol_besides s p)
@[simp] theorem lockViol_tap (s : State) (p : Pg) : (lockViol s p).tap = s.tap :=
  eq_tap (lockViol_besides s p)
@[simp] theorem lockViol_pending (s : State) (p : Pg) : (lockViol s p).pending = s.pending :=
  eq_pending (lockViol_besides s p)

end Sys2Proof.Machine
end

