-- ==== Sys2Proof/Laws/Access.lean ====
section
/-! SUPPORT. Accesses to pages: which act, which are counted and discarded, and which are denied. -/

namespace Sys2Proof.Machine

theorem readable_iff (s : State) (p : Pg) :
    readable s p = true ↔ p.die ≠ 3 ∧ (∃ k, pageKind p = some k) ∧ pageOn s p = true := by
  simp only [readable, Bool.and_eq_true, bne_iff_ne, ne_eq, Option.isSome_iff_exists, and_assoc]

/-- A write that acts is what its command does. -/
theorem onWrite_writable {s : State} {r : Requester} {p : Pg} (h : writable s r p = true) (f : State → State) :
    onWrite s r p f = f s := by
  simp only [writable, Bool.and_eq_true, Bool.not_eq_true', readable_iff] at h
  obtain ⟨⟨⟨h3, ⟨k, hk⟩, ho⟩, hr⟩, ha⟩ := h
  simp only [onWrite, access, h3, if_false, hk, ho, hr, ha, Bool.not_true, Bool.and_false, Bool.false_eq_true]

/-- A read that is served is what its command does. -/
theorem onRead_readable {s : State} {r : Requester} {p : Pg} (h : readable s p = true) (f : State → State) :
    onRead s r p f = f s := by
  obtain ⟨h3, ⟨k, hk⟩, ho⟩ := (readable_iff s p).mp h
  simp only [onRead, access, h3, if_false, hk, ho, Bool.not_true, Bool.false_and, Bool.false_eq_true]

/-- A write that R342 denies is counted and discarded. -/
theorem onWrite_denied {s : State} {r : Requester} {p : Pg} (h : readable s p = true) (hr : pageRetained s p = false)
    (ha : appDenied s r p false = true) (f : State → State) : onWrite s r p f = deny s r (denyKind p) := by
  obtain ⟨h3, ⟨k, hk⟩, ho⟩ := (readable_iff s p).mp h
  simp only [onWrite, access, h3, if_false, hk, ho, hr, ha, Bool.not_true, Bool.and_false, Bool.false_eq_true, if_true,
    Bool.and_self]

theorem answers_next (t : State) (P : State → Prop) : Answers (.next t) P ↔ P t :=
  ⟨fun ⟨_, h, hp⟩ => by cases h; exact hp, fun h => ⟨t, rfl, h⟩⟩

end Sys2Proof.Machine
end

