-- ==== Sys2Proof/Laws/Canon.lean ====
section
/-! SUPPORT. Properties that every operation keeps. `Closed` says which changes a property must survive: a register
stored, registers returned to cold, a byte of core memory stored, core memory lost, a COLD reset, and any change of the
other fields that keeps the sizes of the fixed collections. The canonical form, the sizes and the queue are such
properties; the kept_ lemmas of the files beside this one carry each of them through every function of the model. -/

namespace Sys2Proof.Machine

/-- A new size is the old one, or the one the spec fixes. -/
def Fits {α : Type} (fixed new old : α) : Prop := new = old ∨ new = fixed

theorem fits_same {α : Type} (n a : α) : Fits n a a := Or.inl rfl

theorem fits_upd {α : Type} (n : Nat) (l : List α) (i : Nat) (f : α → α) : Fits n (upd l i f).length l.length :=
  Or.inl (List.length_modify ..)

theorem fits_set {α : Type} (n : Nat) (l : List α) (i : Nat) (a : α) : Fits n (l.set i a).length l.length :=
  Or.inl List.length_set

theorem fits_map {α : Type} (n : Nat) (l : List α) (f : α → α) : Fits n (l.map f).length l.length :=
  Or.inl (List.length_map ..)

theorem fits_new {α : Type} (n : α) (a : α) : Fits n n a := Or.inr rfl

theorem fits_replicate {α : Type} (n m : Nat) (a : α) : Fits n (List.replicate n a).length m :=
  Or.inr List.length_replicate

/-- Elements whose own sizes stay, or become the fixed one. -/
theorem fits_upd_map {α : Type} (n k : Nat) (g : α → Nat) (l : List α) (i : Nat) (f : α → α)
    (hf : ∀ x, Fits n (g (f x)) (g x)) (hl : l.map g = List.replicate k n) :
    (upd l i f).map g = List.replicate k n := by
  simp only [upd]
  induction l generalizing i k with
  | nil => simpa using hl
  | cons a t ih =>
    cases k with
    | zero => exact absurd hl (by simp)
    | succ k =>
      rw [List.map_cons, List.replicate_succ, List.cons.injEq] at hl
      cases i with
      | zero =>
        rw [List.modify_zero_cons, List.map_cons, List.replicate_succ, hl.2]
        rcases hf a with h | h
        · rw [h, hl.1]
        · rw [h]
      | succ i => rw [List.modify_succ_cons, List.map_cons, List.replicate_succ, hl.1, ih k i hl.2]

/-- Each collection of MCK keeps its size, or takes the one the spec fixes. -/
structure FitsMck (new old : Mck) : Prop where
  outs : Fits 14 new.outs.length old.outs.length
  caps : Fits 8 new.caps.length old.caps.length
  cueLvl : Fits 8 new.cueLvl.length old.cueLvl.length
  cueFall : Fits 8 new.cueFall.length old.cueFall.length
  todSeq : Fits 2 new.todSeq.length old.todSeq.length
  todAt : Fits 2 new.todAt.length old.todAt.length
  todMsg : Fits 2 new.todMsg.length old.todMsg.length

theorem fitsMck_same (m : Mck) : FitsMck m m :=
  ⟨fits_same _ _, fits_same _ _, fits_same _ _, fits_same _ _, fits_same _ _, fits_same _ _, fits_same _ _⟩

theorem fitsMck_cold (m : Mck) : FitsMck Mck.cold m :=
  ⟨Or.inr rfl, Or.inr rfl, Or.inr rfl, Or.inr rfl, Or.inr rfl, Or.inr rfl, Or.inr rfl⟩

/-- The changes a property must survive, where the parts of a state that `F` names may change: a register stored,
registers returned to cold, a byte of core memory stored, core memory lost, a COLD reset, and any change of the other
fields that keeps the sizes of the fixed collections. -/
structure Closed (F : Part → Prop) (P : State → Prop) : Prop where
  wrA : ∀ s a v, P s → P (wrA s a v)
  sweep : ∀ s drop, P s → P (sweep s drop)
  putCore : F .core → F .harts → ∀ s a b, P s → P (putCore s a b)
  lost : F .core → ∀ s, P s → P (coreLost s)
  cold : (∀ x, F x) → ∀ s straps rise, P s → P (coldBase s straps rise)
  ports : F .ports → ∀ s d f, (∀ x, Fits 8 (f x).ports.length x.ports.length) → P s → P (updPd s d f)
  links : F .links → ∀ s k f, (∀ x, Fits 4 (f x).peers.length x.peers.length) → P s → P (updLink s k f)
  snaps : F .snaps → ∀ s d q w, P s → P { s with snapLtr := upd s.snapLtr d fun l => l.set q w }
  quiet : F .links → F .hif → ∀ s, P s → P (quiet s)
  others : ∀ (s : State) (clk' : Clock) (snapTbe' : List Snap) (lastRead' : BitVec 64) (free' : Nat) (straps' : Straps)
    (tb' : TimeBase) (recd' : Recorder) (fab' : Fabric) (saf' : Safe) (pwr' : Power) (dsc' : Servo) (oven' : Oven)
    (mck' : Mck) (rad' : Radio) (kisl' : KeyIsland) (tdc' : Tdc) (pke' : Pke) (rings' : List Ring) (harts' : List Hart)
    (age' : Age) (hif' : Hif) (boot' : Boot) (cntLatch' : List (Nat × Word)) (unlock' : List (Nat × (Nat × Nat)))
    (tap' : Nat),
    (clk' = s.clk ∨ F .clk) → (snapTbe' = s.snapTbe ∨ F .snaps) → (straps' = s.straps ∨ F .straps) → (tb' = s.tb ∨ F
    .tb) → (fab' = s.fab ∨ F .fab) → (saf' = s.saf ∨ F .saf) → (pwr' = s.pwr ∨ F .pwr) → (dsc' = s.dsc ∨ F .dsc) →
    (oven' = s.oven ∨ F .oven) → (mck' = s.mck ∨ F .mck) → (rad' = s.rad ∨ F .rad) → (kisl' = s.kisl ∨ F .kisl) →
    (tdc' = s.tdc ∨ F .tdc) → (pke' = s.pke ∨ F .pke) → (rings' = s.rings ∨ F .rings) → (harts' = s.harts ∨ F
    .harts) → (age' = s.age ∨ F .age) → (hif' = s.hif ∨ F .hif) → (boot' = s.boot ∨ F .boot) → (cntLatch' =
    s.cntLatch ∨ F .cntLatch) → (unlock' = s.unlock ∨ F .unlock) → (tap' = s.tap ∨ F .tap) →
    Fits 7 snapTbe'.length s.snapTbe.length → Fits 6 tb'.replicas.length s.tb.replicas.length →
    Fits 14 recd'.bufs.length s.recd.bufs.length → Fits 6 dsc'.slots.length s.dsc.slots.length →
    FitsMck mck' s.mck → Fits 16 pke'.lanes.length s.pke.lanes.length →
    Fits 16 rings'.length s.rings.length → Fits 6 harts'.length s.harts.length → P s →
    P ⟨s.regs, clk', snapTbe', s.snapLtr, lastRead', free', straps', tb', recd', fab', saf', pwr', dsc', oven', mck',
      rad', s.ports, kisl', s.links, s.core, tdc', pke', rings', harts', age', hif', boot', cntLatch', unlock', tap',
      s.pending⟩

/-- Every part may change. -/
def anyPart (_ : Part) : Prop := True

/-! ### Sizes of the parts -/

theorem fits_TimeBase {n m : Nat} {stepAbs' : Bool} {stepVal' : Int} {stepBy' : Nat} {lastStep' : Int} {stepUntil'
    : Nat} {smearOn' : Bool} {smearStart' : Nat} {smearDir' : Bool} {replicas' : List Replica} (h : Fits n
    replicas'.length m) : Fits n (⟨stepAbs', stepVal', stepBy', lastStep', stepUntil', smearOn', smearStart',
    smearDir', replicas'⟩ : TimeBase).replicas.length m := h

theorem fits_Recorder {n m : Nat} {bufs' : List StageBuf} {store' : List (Nat × RecSlot)} {index' : List (Nat ×
    (Nat × Nat))} {next' : Nat} {clearing' : Option (Nat × Nat)} {first' : Option RecEntry} (h : Fits n bufs'.length
    m) : Fits n (⟨bufs', store', index', next', clearing', first'⟩ : Recorder).bufs.length m := h

theorem fits_Servo {n m : Nat} {slots' : List Slot} {e' : Int} {h' : Int} {been' : Bool} {inCnt' : Nat} {outCnt' :
    Nat} {tau' : Nat} {tick' : Nat} {handed' : Bool} {decided' : Bool} {tied' : Bool} {force' : Nat} {selPrev' : Nat}
    {last' : Nat} {freq' : Int} {fh' : Int} {th' : Int} {temp' : Int} {unc' : Option Nat} {uncBase' : Option Nat}
    {uncFrom' : Nat} {entry' : Nat} {syH' : Nat} {tInt' : Nat} {want' : Option StepWant} {mine' : Option StepWant}
    {upd' : Nat} {refAt' : Option Nat} {lockNs' : Nat} {stored' : Nat} {refits' : Nat} {hist' : List (Nat × Int × Int
    × Nat)} {rvBound' : Nat} {view' : View} (h : Fits n slots'.length m) : Fits n (⟨slots', e', h', been', inCnt',
    outCnt', tau', tick', handed', decided', tied', force', selPrev', last', freq', fh', th', temp', unc', uncBase',
    uncFrom', entry', syH', tInt', want', mine', upd', refAt', lockNs', stored', refits', hist', rvBound', view'⟩ :
    Servo).slots.length m := h

theorem fits_Pke {n m : Nat} {owners' : List (Nat × Nat)} {vals' : List (Nat × Nat)} {ops' : List SlotOp} {lanes'
    : List PkeLane} {mail' : List (Nat × BitVec 8)} (h : Fits n lanes'.length m) : Fits n (⟨owners', vals', ops',
    lanes', mail'⟩ : Pke).lanes.length m := h

theorem fits_PortDie {n m : Nat} {ports' : List Port} {view' : Option (View × Nat)} {safe' : Bool} {leapDone' :
    Option (Nat × Bool × Nat)} {rr' : Nat} {siv' : List SivJob} {bookNo' : Nat} {lates' : List Nat} {slow' : List Nat}
    {addr' : List (Nat × List Nat)} {vlan' : List (Nat × Nat)} {tabWait' : Option (Bool × Nat × List Nat)} {pfx' :
    List (Nat × List Nat)} {rate' : List (Nat × RateEnt)} {rateBad' : List Nat} {rateKey' : Option Nat} {sesKey' :
    Option Nat} {flushing' : Bool} {scrub' : Nat} {sesScrub' : Nat} {tileAt' : Nat} {sesTileAt' : Nat} {ses' : List
    (Nat × Session)} {sesBad' : List Nat} {keys' : List MasterKey} {crossSeq' : Nat} {crossAt' : Nat} {seeded' : Bool}
    {nonces' : Nat} {lackFrom' : Option Nat} {ptp' : Ptp} {pllLost' : Nat} {mmRst' : List Nat} {tiles' : List Nat}
    {inj' : Option TileInj} {trims' : List (Nat × Nat)} (h : Fits n ports'.length m) : Fits n (⟨ports', view', safe',
    leapDone', rr', siv', bookNo', lates', slow', addr', vlan', tabWait', pfx', rate', rateBad', rateKey', sesKey',
    flushing', scrub', sesScrub', tileAt', sesTileAt', ses', sesBad', keys', crossSeq', crossAt', seeded', nonces',
    lackFrom', ptp', pllLost', mmRst', tiles', inj', trims'⟩ : PortDie).ports.length m := h

theorem fits_AskLink {n m : Nat} {peers' : List AskPeer} {beenUp' : Bool} {seqs' : List (Nat × Nat)} {markAt' :
    Option (Nat × Nat)} {seen' : List MarkSeen} {missed' : Nat} {txq' : List (Nat × List Byte)} {rxq' : List (Nat ×
    List Byte)} {sent' : List AskFrame} {accepted' : Bool} {shared' : Bool} {ser' : Option Nat} {refused' : Option
    Nat} (h : Fits n peers'.length m) : Fits n (⟨peers', beenUp', seqs', markAt', seen', missed', txq', rxq', sent',
    accepted', shared', ser', refused'⟩ : AskLink).peers.length m := h

theorem fits_TimeBase_cold (m : Nat) : Fits 6 TimeBase.cold.replicas.length m := Or.inr rfl

theorem fits_Servo_cold (m : Nat) : Fits 6 Servo.cold.slots.length m := Or.inr rfl

theorem fits_Pke_cold (m : Nat) : Fits 16 Pke.cold.lanes.length m := Or.inr rfl

/-! ### The canonical form -/

/-- Storing a register keeps the canonical form. -/
theorem wrA_canon (s : State) (a : Nat) (v : Word) (h : Canon s) : Canon (wrA s a v) := by
  obtain ⟨hr, hc⟩ := h
  refine ⟨?_, hc⟩
  simp only [Registers.wf, Bool.and_eq_true, List.all_eq_true, bne_iff_ne, ne_eq] at hr ⊢
  simp only [wrA]
  split
  · exact ⟨amWf_erase a hr.1, fun e he => hr.2 e (mem_amErase he)⟩
  · next hv =>
    refine ⟨amWf_set a v hr.1, fun e he => ?_⟩
    rcases mem_amSet he with rfl | he
    · exact hv
    · exact hr.2 e he

/-- Returning registers to their cold values keeps the canonical form. -/
theorem sweep_canon (s : State) (drop : Nat → Bool) (h : Canon s) : Canon (sweep s drop) := by
  obtain ⟨hr, hc⟩ := h
  refine ⟨?_, hc⟩
  simp only [Registers.wf, Bool.and_eq_true, List.all_eq_true, bne_iff_ne, ne_eq] at hr ⊢
  exact ⟨amWf_filter _ hr.1, fun e he => hr.2 e (List.mem_filter.mp he).1⟩

/-- Storing a byte keeps the canonical form of core memory (Memory.wf). -/
theorem cellSet_wf {a : Nat} {b : Byte} {m : List Host.Cell} (h : Memory.wf m = true) :
    Memory.wf (cellSet a b m) = true := by
  simp only [Memory.wf, Bool.and_eq_true, List.all_eq_true, bne_iff_ne, ne_eq] at h ⊢
  simp only [cellSet]
  split
  · exact ⟨amWf_erase a h.1, fun e he => h.2 e (mem_amErase he)⟩
  · next hb =>
    refine ⟨amWf_set a b h.1, fun e he => ?_⟩
    rcases mem_amSet he with rfl | he
    · exact hb
    · exact h.2 e he

theorem cold_canon : Canon State.cold := ⟨by decide, by decide⟩

theorem canon_closed : Closed anyPart Canon where
  wrA := wrA_canon
  sweep := sweep_canon
  putCore _ _ _ _ _ h := ⟨h.regs, cellSet_wf h.core⟩
  lost _ _ h := ⟨h.regs, rfl⟩
  cold _ _ _ _ _ := ⟨cold_canon.regs, cold_canon.core⟩
  ports _ _ _ _ _ h := ⟨h.regs, h.core⟩
  links _ _ _ _ _ h := ⟨h.regs, h.core⟩
  snaps _ _ _ _ _ h := ⟨h.regs, h.core⟩
  quiet _ _ _ h := ⟨h.regs, h.core⟩
  others s := by intros; rename_i h; exact ⟨h.regs, h.core⟩

/-! ### The queue -/

theorem queue_closed (q : List Instr) : Closed anyPart (fun s => s.pending = q) where
  wrA _ _ _ h := h
  sweep _ _ h := h
  putCore _ _ _ _ _ h := h
  lost _ _ h := h
  cold _ _ _ _ h := h
  ports _ _ _ _ _ h := h
  links _ _ _ _ _ h := h
  snaps _ _ _ _ _ h := h
  quiet _ _ _ h := h
  others s := by intros; assumption

/-! ### The sizes -/

theorem fits_get {α : Type} {n a b : α} (h : Fits n a b) (hb : b = n) : a = n := h.elim (fun e => e.trans hb) id

theorem cold_shaped : Shaped State.cold := by
  constructor
  case mck => constructor <;> decide
  all_goals decide

theorem shaped_closed : Closed anyPart Shaped where
  wrA _ _ _ h := ⟨h.1, h.2, h.3, h.4, h.5, h.6, h.7, h.8, h.9, h.10, h.11⟩
  sweep _ _ h := ⟨h.1, h.2, h.3, h.4, h.5, h.6, h.7, h.8, h.9, h.10, h.11⟩
  putCore _ _ s _ _ h := ⟨h.1, h.2, h.3, h.4, h.5, h.6, h.7, h.8, h.9, h.10, (List.length_map ..).trans h.11⟩
  lost _ _ h := ⟨h.1, h.2, h.3, h.4, h.5, h.6, h.7, h.8, h.9, h.10, h.11⟩
  cold _ s _ _ h := ⟨cold_shaped.1, cold_shaped.2, cold_shaped.3, cold_shaped.4, cold_shaped.5, cold_shaped.6,
    cold_shaped.7, cold_shaped.8, cold_shaped.9, cold_shaped.10, cold_shaped.11⟩
  ports _ s d f hf h := ⟨h.1, h.2, h.3, h.4, h.5, h.6, fits_upd_map 8 4 _ _ d f hf h.7, h.8, h.9, h.10, h.11⟩
  links _ s k f hf h := ⟨h.1, h.2, h.3, h.4, h.5, h.6, h.7, fits_upd_map 4 4 _ _ k f hf h.8, h.9, h.10, h.11⟩
  snaps _ s d q w h := ⟨h.1, fits_upd_map 7 4 _ _ d _ (fun l => fits_set 7 l q w) h.2, h.3, h.4, h.5, h.6, h.7, h.8, h.9,
    h.10, h.11⟩
  quiet _ _ s h := ⟨h.1, h.2, h.3, h.4, h.5, h.6, h.7, by rw [← h.8]; exact List.map_map, h.9, h.10, h.11⟩
  others s := by
    intros
    rename_i f1 f2 f3 f4 f5 f6 f7 f8 h
    exact ⟨fits_get f1 h.1, h.2, fits_get f2 h.3, fits_get f3 h.4, fits_get f4 h.5,
      ⟨fits_get f5.outs h.6.outs, fits_get f5.caps h.6.caps, fits_get f5.cueLvl h.6.cueLvl,
        fits_get f5.cueFall h.6.cueFall, fits_get f5.todSeq h.6.todSeq, fits_get f5.todAt h.6.todAt,
        fits_get f5.todMsg h.6.todMsg⟩, h.7, h.8, fits_get f6 h.9, fits_get f7 h.10, fits_get f8 h.11⟩

/-! ### The parts that a command leaves -/

/-- The parts outside `F` stay as they were in a state. -/
def Leaves (F : Part → Prop) (s0 t : State) : Prop := ∀ x, F x ∨ x.same s0 t

theorem leaves_closed (F : Part → Prop) (s0 : State) : Closed F (Leaves F s0) where
  wrA _ _ _ h x := by have := h x; cases x <;> exact this
  sweep _ _ h x := by have := h x; cases x <;> exact this
  putCore hc hh _ _ _ h x := by
    have := h x
    cases x <;> first | exact Or.inl hc | exact Or.inl hh | exact this
  lost hc _ h x := by have := h x; cases x <;> first | exact Or.inl hc | exact this
  cold ha _ _ _ _ x := Or.inl (ha x)
  ports hp _ _ _ _ h x := by have := h x; cases x <;> first | exact Or.inl hp | exact this
  links hl _ _ _ _ h x := by have := h x; cases x <;> first | exact Or.inl hl | exact this
  snaps hs _ _ _ _ h x := by have := h x; cases x <;> first | exact Or.inl hs | exact this
  quiet hl hh _ h x := by have := h x; cases x <;> first | exact Or.inl hl | exact Or.inl hh | exact this
  others s := by
    intro clk' snapTbe' lastRead' free' straps' tb' recd' fab' saf' pwr' dsc' oven' mck' rad' kisl' tdc' pke' rings'
      harts' age' hif' boot' cntLatch' unlock' tap' c1 c2 c3 c4 c5 c6 c7 c8 c9 c10 c11 c12 c13 c14 c15 c16 c17 c18 c19 c20 c21 c22 _ _ _ _ _ _ _ _ h x
    have hx := h x
    cases x
    case clk => exact c1.elim (fun e => hx.imp id fun q => e.trans q) Or.inl
    case snaps => exact c2.elim (fun e => hx.imp id fun q => ⟨e.trans q.1, q.2⟩) Or.inl
    case straps => exact c3.elim (fun e => hx.imp id fun q => e.trans q) Or.inl
    case tb => exact c4.elim (fun e => hx.imp id fun q => e.trans q) Or.inl
    case fab => exact c5.elim (fun e => hx.imp id fun q => e.trans q) Or.inl
    case saf => exact c6.elim (fun e => hx.imp id fun q => e.trans q) Or.inl
    case pwr => exact c7.elim (fun e => hx.imp id fun q => e.trans q) Or.inl
    case dsc => exact c8.elim (fun e => hx.imp id fun q => e.trans q) Or.inl
    case oven => exact c9.elim (fun e => hx.imp id fun q => e.trans q) Or.inl
    case mck => exact c10.elim (fun e => hx.imp id fun q => e.trans q) Or.inl
    case rad => exact c11.elim (fun e => hx.imp id fun q => e.trans q) Or.inl
    case ports => exact hx
    case kisl => exact c12.elim (fun e => hx.imp id fun q => e.trans q) Or.inl
    case links => exact hx
    case core => exact hx
    case tdc => exact c13.elim (fun e => hx.imp id fun q => e.trans q) Or.inl
    case pke => exact c14.elim (fun e => hx.imp id fun q => e.trans q) Or.inl
    case rings => exact c15.elim (fun e => hx.imp id fun q => e.trans q) Or.inl
    case harts => exact c16.elim (fun e => hx.imp id fun q => e.trans q) Or.inl
    case age => exact c17.elim (fun e => hx.imp id fun q => e.trans q) Or.inl
    case hif => exact c18.elim (fun e => hx.imp id fun q => e.trans q) Or.inl
    case boot => exact c19.elim (fun e => hx.imp id fun q => e.trans q) Or.inl
    case cntLatch => exact c20.elim (fun e => hx.imp id fun q => e.trans q) Or.inl
    case unlock => exact c21.elim (fun e => hx.imp id fun q => e.trans q) Or.inl
    case tap => exact c22.elim (fun e => hx.imp id fun q => e.trans q) Or.inl

/-! ### The forms that meanings take -/

variable {F : Part → Prop} {P : State → Prop}

theorem kept_ite (c : Prop) [Decidable c] (s t : State) (hs : P s) (ht : P t) : P (if c then s else t) := by
  split
  · exact hs
  · exact ht

theorem kept_fst_ite {α : Type} (c : Prop) [Decidable c] (a b : State × α) (ha : P a.1) (hb : P b.1) :
    P (if c then a else b).1 := by
  split
  · exact ha
  · exact hb

theorem kept_foldl {α : Type} (l : List α) (g : State → α → State) (s : State) (hg : ∀ s x, P s → P (g s x))
    (h : P s) : P (l.foldl g s) := by
  induction l generalizing s with
  | nil => exact h
  | cons x t ih => exact ih _ (hg s x h)

theorem kept_foldl_fst {α β : Type} (l : List α) (g : State × β → α → State × β) (s : State × β)
    (hg : ∀ s x, P s.1 → P (g s x).1) (h : P s.1) : P (l.foldl g s).1 := by
  induction l generalizing s with
  | nil => exact h
  | cons x t ih => exact ih _ (hg s x h)

theorem after_next {t : State} (h : P t) : After P (.next t) := h

theorem after_fault (r : Fault) : After P (.fault r) := trivial

theorem after_refused (r : Refusal) : After P (.refused r) := trivial

theorem after_ite (c : Prop) [Decidable c] (a b : Host.Outcome State Fault Refusal) (ha : After P a) (hb : After P b) :
    After P (if c then a else b) := by
  split
  · exact ha
  · exact hb

theorem kept_wrA (hP : Closed F P) (s : State) (a : Nat) (v : Word) (h : P s) : P (wrA s a v) := hP.wrA s a v h

theorem kept_sweep (hP : Closed F P) (s : State) (drop : Nat → Bool) (h : P s) : P (sweep s drop) := hP.sweep s drop h

theorem kept_putCore (hP : Closed F P) (hcore : F .core) (hharts : F .harts) (s : State) (a : Nat) (b : Byte) (h : P s) :
    P (putCore s a b) :=
  hP.putCore hcore hharts s a b h

theorem kept_writeCore (hP : Closed F P) (hcore : F .core) (hharts : F .harts) (s : State) (a : Nat) (l : List Byte)
    (h : P s) : P (writeCore s a l) := by
  induction l generalizing s a with
  | nil => exact h
  | cons b t ih => exact ih _ _ (hP.putCore hcore hharts s a b h)

end Sys2Proof.Machine
end

