-- ==== Sys2Proof/Laws/KeptOps.lean ====
section
/-! SUPPORT. A property that survives the changes of Closed survives every function of: shared operations, the Timebase, links, core memory, bookings and NTP. -/

set_option linter.unusedTactic false
set_option linter.unreachableTactic false
set_option linter.unusedVariables false

namespace Sys2Proof.Machine

variable {F : Part → Prop} {P : State → Prop}

/-! ### Ops -/

theorem kept_wr (hP : Closed F P) (s : State) (p : Pg) (off : Nat) (v : Word) (h0 : P s) : P (wr s p off v) := by
  unfold wr
  try dsimp only
  repeat' first
    | with_reducible assumption | with_reducible apply kept_wrA hP | dsimp only

theorem kept_wrN (hP : Closed F P) (s : State) (p : Pg) (off : Nat) (v : Nat) (h0 : P s) : P (wrN s p off v) := by
  unfold wrN
  try dsimp only
  repeat' first
    | with_reducible assumption | with_reducible apply kept_wr hP | dsimp only

theorem kept_wrB (hP : Closed F P) (s : State) (q : Nat) (p : Pg) (off : Nat) (v : Nat) (h0 : P s) : P (wrB s q p
    off v) := by
  unfold wrB
  try dsimp only
  repeat' first
    | with_reducible assumption | with_reducible apply kept_wrA hP | dsimp only

theorem kept_put (hP : Closed F P) (s : State) (p : Pg) (f : Fld) (v : Nat) (h0 : P s) : P (put s p f v) := by
  unfold put
  try dsimp only
  repeat' first
    | with_reducible assumption | with_reducible apply kept_wrN hP | dsimp only

theorem kept_putQ (hP : Closed F P) (s : State) (q : Nat) (p : Pg) (f : Fld) (v : Nat) (h0 : P s) : P (putQ s q p f
    v) := by
  unfold putQ
  try dsimp only
  repeat' first
    | with_reducible assumption | with_reducible apply kept_wrB hP | dsimp only

theorem kept_putB (hP : Closed F P) (s : State) (p : Pg) (f : Fld) (b : Bool) (h0 : P s) : P (putB s p f b) := by
  unfold putB
  try dsimp only
  repeat' first
    | with_reducible assumption | with_reducible apply kept_put hP | dsimp only

theorem kept_putS (hP : Closed F P) (s : State) (p : Pg) (f : Fld) (i : Int) (h0 : P s) : P (putS s p f i) := by
  unfold putS
  try dsimp only
  repeat' first
    | with_reducible assumption | with_reducible apply kept_put hP | dsimp only

theorem kept_bumpBy (hP : Closed F P) (s : State) (p : Pg) (off : Nat) (k : Nat) (h0 : P s) : P (bumpBy s p off k)
    := by
  unfold bumpBy
  try dsimp only
  repeat' first
    | with_reducible assumption | with_reducible apply kept_wrN hP | dsimp only

theorem kept_bump (hP : Closed F P) (s : State) (p : Pg) (off : Nat) (h0 : P s) : P (bump s p off) := by
  unfold bump
  try dsimp only
  repeat' first
    | with_reducible assumption | with_reducible apply kept_bumpBy hP | dsimp only

theorem kept_bumpF (hP : Closed F P) (s : State) (p : Pg) (f : Fld) (h0 : P s) : P (bumpF s p f) := by
  unfold bumpF
  try dsimp only
  repeat' first
    | with_reducible assumption | with_reducible apply kept_put hP | dsimp only

theorem kept_wr64 (hP : Closed F P) (s : State) (p : Pg) (lo : Nat) (hi : Nat) (v : Nat) (h0 : P s) : P (wr64 s p lo
    hi v) := by
  unfold wr64
  try dsimp only
  repeat' first
    | with_reducible assumption | with_reducible apply kept_wrN hP | dsimp only

theorem kept_add64 (hP : Closed F P) (s : State) (p : Pg) (lo : Nat) (hi : Nat) (k : Nat) (h0 : P s) : P (add64 s p
    lo hi k) := by
  unfold add64
  try dsimp only
  repeat' first
    | with_reducible assumption | with_reducible apply kept_wr64 hP | dsimp only

theorem kept_maxF (hP : Closed F P) (s : State) (p : Pg) (f : Fld) (v : Nat) (h0 : P s) : P (maxF s p f v) := by
  unfold maxF
  try dsimp only
  repeat' first
    | with_reducible assumption | with_reducible apply kept_put hP | dsimp only

theorem kept_reply (hP : Closed F P) (s : State) (v : Nat) (h0 : P s) : P (reply s v) := by
  unfold reply
  try dsimp only
  repeat' first
    | with_reducible assumption | with_reducible exact Or.inl rfl | with_reducible apply hP.others
    | with_reducible exact fits_same _ _ | with_reducible exact fits_upd _ _ _ _
    | with_reducible exact fits_set _ _ _ _ | with_reducible exact fits_map _ _ _
    | with_reducible exact fits_replicate _ _ _ | with_reducible exact fitsMck_same _
    | with_reducible exact fun _ => fits_same _ _ | with_reducible exact fun _ => fits_upd _ _ _ _
    | with_reducible exact fun _ => fits_set _ _ _ _ | with_reducible exact fun _ => fits_map _ _ _
    | with_reducible exact fun _ => fits_replicate _ _ _ | dsimp only

theorem kept_drawn (hP : Closed F P) (s : State) (h0 : P s) : P (drawn s) := by
  unfold drawn
  try dsimp only
  repeat' first
    | with_reducible assumption | with_reducible exact Or.inl rfl | with_reducible apply hP.others
    | with_reducible exact fits_same _ _ | with_reducible exact fits_upd _ _ _ _
    | with_reducible exact fits_set _ _ _ _ | with_reducible exact fits_map _ _ _
    | with_reducible exact fits_replicate _ _ _ | with_reducible exact fitsMck_same _
    | with_reducible exact fun _ => fits_same _ _ | with_reducible exact fun _ => fits_upd _ _ _ _
    | with_reducible exact fun _ => fits_set _ _ _ _ | with_reducible exact fun _ => fits_map _ _ _
    | with_reducible exact fun _ => fits_replicate _ _ _ | dsimp only

theorem kept_advP (hP : Closed F P) (hclk : F .clk) (s : State) (t : Nat) (h0 : P s) : P (advP s t) := by
  unfold advP
  try dsimp only
  repeat' first
    | with_reducible assumption | with_reducible apply kept_ite | with_reducible exact Or.inl rfl
    | with_reducible exact Or.inr hclk | with_reducible apply hP.others | with_reducible exact fits_same _ _
    | with_reducible exact fits_upd _ _ _ _ | with_reducible exact fits_set _ _ _ _
    | with_reducible exact fits_map _ _ _ | with_reducible exact fits_replicate _ _ _
    | with_reducible exact fitsMck_same _ | with_reducible exact fun _ => fits_same _ _
    | with_reducible exact fun _ => fits_upd _ _ _ _ | with_reducible exact fun _ => fits_set _ _ _ _
    | with_reducible exact fun _ => fits_map _ _ _ | with_reducible exact fun _ => fits_replicate _ _ _ | dsimp only

theorem kept_advPc (hP : Closed F P) (hclk : F .clk) (s : State) (t : PC64) (h0 : P s) : P (advPc s t) := by
  unfold advPc
  try dsimp only
  repeat' first
    | with_reducible assumption | with_reducible apply kept_advP hP hclk | with_reducible apply kept_ite
    | dsimp only

theorem kept_advMono (hP : Closed F P) (hclk : F .clk) (s : State) (ns : Nat) (h0 : P s) : P (advMono s ns) := by
  unfold advMono
  try dsimp only
  repeat' first
    | with_reducible assumption | with_reducible apply kept_advP hP hclk | dsimp only

theorem kept_advT96 (hP : Closed F P) (hclk : F .clk) (s : State) (t : Nat) (h0 : P s) : P (advT96 s t) := by
  unfold advT96
  try dsimp only
  repeat' first
    | with_reducible assumption | with_reducible apply kept_advP hP hclk | dsimp only

theorem kept_countLost (hP : Closed F P) (s : State) (e : RecEntry) (h0 : P s) : P (countLost s e) := by
  unfold countLost
  try dsimp only
  repeat' first
    | with_reducible assumption | with_reducible apply kept_bumpBy hP | with_reducible apply kept_putQ hP
    | with_reducible apply kept_wrN hP | with_reducible apply kept_ite | dsimp only

theorem kept_updBuf (hP : Closed F P) (s : State) (i : Nat) (f : StageBuf → StageBuf) (h0 : P s) : P (updBuf s i f)
    := by
  unfold updBuf
  try dsimp only
  repeat' first
    | with_reducible assumption | with_reducible exact Or.inl rfl | with_reducible apply hP.others
    | with_reducible exact fits_Recorder (fits_same _ _) | with_reducible exact fits_Recorder (fits_upd _ _ _ _)
    | with_reducible exact fits_Recorder (fits_set _ _ _ _) | with_reducible exact fits_Recorder (fits_map _ _ _)
    | with_reducible exact fits_Recorder (fits_replicate _ _ _) | with_reducible exact fits_same _ _
    | with_reducible exact fits_upd _ _ _ _ | with_reducible exact fits_set _ _ _ _
    | with_reducible exact fits_map _ _ _ | with_reducible exact fits_replicate _ _ _
    | with_reducible exact fitsMck_same _ | with_reducible exact fun _ => fits_Recorder (fits_same _ _)
    | with_reducible exact fun _ => fits_Recorder (fits_upd _ _ _ _)
    | with_reducible exact fun _ => fits_Recorder (fits_set _ _ _ _)
    | with_reducible exact fun _ => fits_Recorder (fits_map _ _ _)
    | with_reducible exact fun _ => fits_Recorder (fits_replicate _ _ _)
    | with_reducible exact fun _ => fits_same _ _ | with_reducible exact fun _ => fits_upd _ _ _ _
    | with_reducible exact fun _ => fits_set _ _ _ _ | with_reducible exact fun _ => fits_map _ _ _
    | with_reducible exact fun _ => fits_replicate _ _ _ | dsimp only

theorem kept_pushEntry (hP : Closed F P) (s : State) (i : Nat) (e : RecEntry) (h0 : P s) : P (pushEntry s i e) := by
  unfold pushEntry
  try dsimp only
  repeat' first
    | with_reducible assumption | with_reducible apply kept_countLost hP | with_reducible apply kept_updBuf hP
    | with_reducible apply kept_ite | split | dsimp only

theorem kept_closeRun (hP : Closed F P) (s : State) (i : Nat) (h0 : P s) : P (closeRun s i) := by
  unfold closeRun
  try dsimp only
  repeat' first
    | with_reducible assumption | with_reducible apply kept_pushEntry hP | with_reducible apply kept_updBuf hP
    | with_reducible apply kept_ite | split | dsimp only

theorem kept_stage (hP : Closed F P) (s : State) (i : Nat) (always : Bool) (e : RecEntry) (h0 : P s) : P (stage s i
    always e) := by
  unfold stage
  try dsimp only
  repeat' first
    | with_reducible assumption | with_reducible apply kept_bump hP | with_reducible apply kept_bumpBy hP
    | with_reducible apply kept_closeRun hP | with_reducible apply kept_pushEntry hP
    | with_reducible apply kept_updBuf hP | with_reducible apply kept_ite | split | dsimp only

theorem kept_record (hP : Closed F P) (s : State) (p : Pg) (code : Nat) (sev : Nat) (a0 : Nat) (a1 : Nat) (h0 : P s)
    : P (record s p code sev a0 a1) := by
  unfold record
  try dsimp only
  repeat' first
    | with_reducible assumption | with_reducible apply kept_stage hP | dsimp only

theorem kept_recordPair (hP : Closed F P) (s : State) (p : Pg) (code : Nat) (sev : Nat) (a0 : Nat) (a1 : Nat) (b0 :
    Nat) (b1 : Nat) (h0 : P s) : P (recordPair s p code sev a0 a1 b0 b1) := by
  unfold recordPair
  try dsimp only
  repeat' first
    | with_reducible assumption | with_reducible apply kept_stage hP | dsimp only

theorem kept_intRecord (hP : Closed F P) (s : State) (p : Pg) (bit : Nat) (forced : Bool) (h0 : P s) : P (intRecord
    s p bit forced) := by
  unfold intRecord
  try dsimp only
  repeat' first
    | with_reducible assumption | with_reducible apply kept_stage hP | with_reducible apply kept_ite | dsimp only

theorem kept_raiseBy (hP : Closed F P) (s : State) (p : Pg) (bit : Nat) (forced : Bool) (h0 : P s) : P (raiseBy s p
    bit forced) := by
  unfold raiseBy
  try dsimp only
  repeat' first
    | with_reducible assumption | with_reducible apply kept_intRecord hP | with_reducible apply kept_wrN hP
    | with_reducible apply kept_ite | dsimp only

theorem kept_raise (hP : Closed F P) (s : State) (p : Pg) (bit : Nat) (h0 : P s) : P (raise s p bit) := by
  unfold raise
  try dsimp only
  repeat' first
    | with_reducible assumption | with_reducible apply kept_raiseBy hP | dsimp only

theorem kept_raiseIf (hP : Closed F P) (s : State) (c : Bool) (p : Pg) (bit : Nat) (h0 : P s) : P (raiseIf s c p
    bit) := by
  unfold raiseIf
  try dsimp only
  repeat' first
    | with_reducible assumption | with_reducible apply kept_raise hP | with_reducible apply kept_ite | dsimp only

theorem kept_noteDoubt (hP : Closed F P) (before : State) (s : State) (p : Pg) (forced : Bool) (h0 : P before) (h1 :
    P s) : P (noteDoubt before s p forced) := by
  unfold noteDoubt
  try dsimp only
  repeat' first
    | with_reducible assumption | with_reducible apply kept_stage hP | with_reducible apply kept_ite | dsimp only

theorem kept_doubt (hP : Closed F P) (s : State) (p : Pg) (bit : Nat) (b : Bool) (h0 : P s) : P (doubt s p bit b) :=
    by
  unfold doubt
  try dsimp only
  repeat' first
    | with_reducible assumption | with_reducible apply kept_noteDoubt hP | with_reducible apply kept_wrN hP
    | dsimp only

theorem kept_deny (hP : Closed F P) (s : State) (r : Requester) (kind : Nat) (h0 : P s) : P (deny s r kind) := by
  unfold deny
  try dsimp only
  repeat' first
    | with_reducible assumption | with_reducible apply kept_bump hP | with_reducible apply kept_put hP
    | with_reducible apply kept_raise hP | dsimp only

theorem kept_access (hP : Closed F P) (s : State) (r : Requester) (p : Pg) (isWr : Bool) (dbOk : Bool) (f : State →
    State) (h0 : P s) (h1 : ∀ y0, P y0 → P (f y0)) : P (access s r p isWr dbOk f) := by
  unfold access
  try dsimp only
  repeat' first
    | with_reducible assumption | with_reducible apply h1 | with_reducible apply kept_bump hP
    | with_reducible apply kept_deny hP | with_reducible apply kept_reply hP | with_reducible apply kept_ite | split
    | dsimp only

theorem kept_onWrite (hP : Closed F P) (s : State) (r : Requester) (p : Pg) (f : State → State) (h0 : P s) (h1 : ∀
    y0, P y0 → P (f y0)) : P (onWrite s r p f) := by
  unfold onWrite
  try dsimp only
  repeat' first
    | with_reducible assumption | with_reducible apply h1 | intro _ | with_reducible apply kept_access hP
    | dsimp only

theorem kept_onRead (hP : Closed F P) (s : State) (r : Requester) (p : Pg) (f : State → State) (h0 : P s) (h1 : ∀
    y0, P y0 → P (f y0)) : P (onRead s r p f) := by
  unfold onRead
  try dsimp only
  repeat' first
    | with_reducible assumption | with_reducible apply h1 | intro _ | with_reducible apply kept_access hP
    | dsimp only

theorem kept_lockViol (hP : Closed F P) (s : State) (p : Pg) (h0 : P s) : P (lockViol s p) := by
  unfold lockViol
  try dsimp only
  repeat' first
    | with_reducible assumption | with_reducible apply kept_bump hP | with_reducible apply kept_raise hP
    | dsimp only

/-! ### Sweep -/

theorem kept_sweepLetter (hP : Closed F P) (s : State) (letter : Nat) (wipe : Pg → Bool) (h0 : P s) : P (sweepLetter
    s letter wipe) := by
  unfold sweepLetter
  try dsimp only
  repeat' first
    | with_reducible assumption | with_reducible apply kept_sweep hP | dsimp only

theorem kept_wipePage (hP : Closed F P) (s : State) (p : Pg) (h0 : P s) : P (wipePage s p) := by
  unfold wipePage
  try dsimp only
  repeat' first
    | with_reducible assumption | with_reducible apply kept_sweep hP | dsimp only

theorem kept_wipeDomain (hP : Closed F P) (s : State) (dom : Nat) (h0 : P s) : P (wipeDomain s dom) := by
  unfold wipeDomain
  try dsimp only
  repeat' first
    | with_reducible assumption | with_reducible apply kept_sweep hP | split | dsimp only

theorem kept_noteAll (hP : Closed F P) (before : State) (s : State) (h0 : P before) (h1 : P s) : P (noteAll before
    s) := by
  unfold noteAll
  try dsimp only
  repeat' first
    | with_reducible assumption | intro _ | with_reducible apply kept_noteDoubt hP | with_reducible apply kept_foldl
    | with_reducible apply kept_foldl_fst | dsimp only

/-! ### AskBase -/

theorem kept_updLink (hP : Closed F P) (hlinks : F .links) (s : State) (k : Nat) (f : AskLink → AskLink)
    (hf : ∀ x, Fits 4 (f x).peers.length x.peers.length) (h : P s) : P (updLink s k f) := hP.links hlinks s k f hf h

theorem kept_updPeer (hP : Closed F P) (hlinks : F .links) (s : State) (k : Nat) (c : Nat) (f : AskPeer → AskPeer)
    (h0 : P s) : P (updPeer s k c f) := by
  unfold updPeer
  try dsimp only
  repeat' first
    | with_reducible assumption | with_reducible apply kept_updLink hP hlinks
    | with_reducible exact fits_AskLink (fits_same _ _) | with_reducible exact fits_AskLink (fits_upd _ _ _ _)
    | with_reducible exact fits_AskLink (fits_set _ _ _ _) | with_reducible exact fits_AskLink (fits_map _ _ _)
    | with_reducible exact fits_AskLink (fits_replicate _ _ _) | with_reducible exact fits_same _ _
    | with_reducible exact fits_upd _ _ _ _ | with_reducible exact fits_set _ _ _ _
    | with_reducible exact fits_map _ _ _ | with_reducible exact fits_replicate _ _ _
    | with_reducible exact fun _ => fits_AskLink (fits_same _ _)
    | with_reducible exact fun _ => fits_AskLink (fits_upd _ _ _ _)
    | with_reducible exact fun _ => fits_AskLink (fits_set _ _ _ _)
    | with_reducible exact fun _ => fits_AskLink (fits_map _ _ _)
    | with_reducible exact fun _ => fits_AskLink (fits_replicate _ _ _)
    | with_reducible exact fun _ => fits_same _ _ | with_reducible exact fun _ => fits_upd _ _ _ _
    | with_reducible exact fun _ => fits_set _ _ _ _ | with_reducible exact fun _ => fits_map _ _ _
    | with_reducible exact fun _ => fits_replicate _ _ _ | dsimp only

theorem kept_clearSent (hP : Closed F P) (hlinks : F .links) (s : State) (k : Nat) (h0 : P s) : P (clearSent s k) :=
    by
  unfold clearSent
  try dsimp only
  repeat' first
    | with_reducible assumption | with_reducible apply kept_updLink hP hlinks
    | with_reducible exact fits_AskLink (fits_same _ _) | with_reducible exact fits_AskLink (fits_upd _ _ _ _)
    | with_reducible exact fits_AskLink (fits_set _ _ _ _) | with_reducible exact fits_AskLink (fits_map _ _ _)
    | with_reducible exact fits_AskLink (fits_replicate _ _ _) | with_reducible exact fits_same _ _
    | with_reducible exact fits_upd _ _ _ _ | with_reducible exact fits_set _ _ _ _
    | with_reducible exact fits_map _ _ _ | with_reducible exact fits_replicate _ _ _
    | with_reducible exact fun _ => fits_AskLink (fits_same _ _)
    | with_reducible exact fun _ => fits_AskLink (fits_upd _ _ _ _)
    | with_reducible exact fun _ => fits_AskLink (fits_set _ _ _ _)
    | with_reducible exact fun _ => fits_AskLink (fits_map _ _ _)
    | with_reducible exact fun _ => fits_AskLink (fits_replicate _ _ _)
    | with_reducible exact fun _ => fits_same _ _ | with_reducible exact fun _ => fits_upd _ _ _ _
    | with_reducible exact fun _ => fits_set _ _ _ _ | with_reducible exact fun _ => fits_map _ _ _
    | with_reducible exact fun _ => fits_replicate _ _ _ | dsimp only

theorem kept_sendAsk (hP : Closed F P) (hlinks : F .links) (s : State) (k : Nat) (type : Nat) (dest : Nat) (body :
    List Byte) (h0 : P s) : P (sendAsk s k type dest body) := by
  unfold sendAsk
  try dsimp only
  repeat' first
    | with_reducible assumption | with_reducible apply kept_updLink hP hlinks
    | with_reducible exact fits_AskLink (fits_same _ _) | with_reducible exact fits_AskLink (fits_upd _ _ _ _)
    | with_reducible exact fits_AskLink (fits_set _ _ _ _) | with_reducible exact fits_AskLink (fits_map _ _ _)
    | with_reducible exact fits_AskLink (fits_replicate _ _ _) | with_reducible exact fits_same _ _
    | with_reducible exact fits_upd _ _ _ _ | with_reducible exact fits_set _ _ _ _
    | with_reducible exact fits_map _ _ _ | with_reducible exact fits_replicate _ _ _
    | with_reducible exact fun _ => fits_AskLink (fits_same _ _)
    | with_reducible exact fun _ => fits_AskLink (fits_upd _ _ _ _)
    | with_reducible exact fun _ => fits_AskLink (fits_set _ _ _ _)
    | with_reducible exact fun _ => fits_AskLink (fits_map _ _ _)
    | with_reducible exact fun _ => fits_AskLink (fits_replicate _ _ _)
    | with_reducible exact fun _ => fits_same _ _ | with_reducible exact fun _ => fits_upd _ _ _ _
    | with_reducible exact fun _ => fits_set _ _ _ _ | with_reducible exact fun _ => fits_map _ _ _
    | with_reducible exact fun _ => fits_replicate _ _ _ | dsimp only

theorem kept_sendStep (hP : Closed F P) (hlinks : F .links) (s : State) (abs : Bool) (val : Int) (at' : Nat) (h0 : P
    s) : P (sendStep s abs val at') := by
  unfold sendStep
  try dsimp only
  repeat' first
    | with_reducible assumption | intro _ | with_reducible apply kept_sendAsk hP hlinks
    | with_reducible apply kept_ite | with_reducible apply kept_foldl | with_reducible apply kept_foldl_fst
    | dsimp only

/-! ### Timebase -/

theorem kept_execTimeSnapshot (hP : Closed F P) (hsnaps : F .snaps) (r : Requester) (die : Fin 8) (wide : Bool) (s :
    State) (h0 : P s) : After P (execTimeSnapshot r die wide s) := by
  unfold execTimeSnapshot
  try dsimp only
  repeat' first
    | with_reducible assumption | intro _ | with_reducible apply kept_onRead hP | with_reducible apply kept_reply hP
    | with_reducible apply kept_ite | with_reducible apply after_next | with_reducible apply after_ite
    | with_reducible exact Or.inl rfl | with_reducible exact Or.inr hsnaps | with_reducible apply hP.others
    | with_reducible apply hP.snaps hsnaps | with_reducible exact fits_same _ _
    | with_reducible exact fits_upd _ _ _ _ | with_reducible exact fits_set _ _ _ _
    | with_reducible exact fits_map _ _ _ | with_reducible exact fits_replicate _ _ _
    | with_reducible exact fitsMck_same _ | with_reducible exact fun _ => fits_same _ _
    | with_reducible exact fun _ => fits_upd _ _ _ _ | with_reducible exact fun _ => fits_set _ _ _ _
    | with_reducible exact fun _ => fits_map _ _ _ | with_reducible exact fun _ => fits_replicate _ _ _ | dsimp only

theorem kept_refreshEra (hP : Closed F P) (s : State) (h0 : P s) : P (refreshEra s) := by
  unfold refreshEra
  try dsimp only
  repeat' first
    | with_reducible assumption | with_reducible apply kept_put hP | with_reducible apply kept_raise hP
    | with_reducible apply kept_ite | dsimp only

theorem kept_refreshLeapDay (hP : Closed F P) (s : State) (h0 : P s) : P (refreshLeapDay s) := by
  unfold refreshLeapDay
  try dsimp only
  repeat' first
    | with_reducible assumption | with_reducible apply kept_putB hP | with_reducible apply kept_ite | dsimp only

theorem kept_utcDiscard (hP : Closed F P) (s : State) (h0 : P s) : P (utcDiscard s) := by
  unfold utcDiscard
  try dsimp only
  repeat' first
    | with_reducible assumption | with_reducible apply kept_bump hP | dsimp only

theorem kept_setUtcOfs (hP : Closed F P) (s : State) (sec : Nat) (valid : Bool) (h0 : P s) : P (setUtcOfs s sec
    valid) := by
  unfold setUtcOfs
  try dsimp only
  repeat' first
    | with_reducible assumption | with_reducible apply kept_doubt hP | with_reducible apply kept_put hP
    | with_reducible apply kept_putB hP | with_reducible apply kept_refreshEra hP | dsimp only

theorem kept_execUtcOffsetWrite (hP : Closed F P) (r : Requester) (v : Word) (s : State) (h0 : P s) : After P
    (execUtcOffsetWrite r v s) := by
  unfold execUtcOffsetWrite
  try dsimp only
  repeat' first
    | with_reducible assumption | intro _ | with_reducible apply kept_onWrite hP
    | with_reducible apply kept_setUtcOfs hP | with_reducible apply kept_utcDiscard hP
    | with_reducible apply kept_ite | with_reducible apply after_next | with_reducible apply after_ite | dsimp only

theorem kept_refreshSmear (hP : Closed F P) (s : State) (h0 : P s) : P (refreshSmear s) := by
  unfold refreshSmear
  try dsimp only
  repeat' first
    | with_reducible assumption | with_reducible apply kept_put hP | with_reducible apply kept_ite | dsimp only

theorem kept_beginSmear (hP : Closed F P) (htb : F .tb) (s : State) (h0 : P s) : P (beginSmear s) := by
  unfold beginSmear
  try dsimp only
  repeat' first
    | with_reducible assumption | with_reducible apply kept_putB hP | with_reducible apply kept_raise hP
    | with_reducible apply kept_refreshSmear hP | with_reducible exact Or.inl rfl | with_reducible exact Or.inr htb
    | with_reducible apply hP.others | with_reducible exact fits_TimeBase (fits_same _ _)
    | with_reducible exact fits_TimeBase (fits_upd _ _ _ _) | with_reducible exact fits_TimeBase (fits_set _ _ _ _)
    | with_reducible exact fits_TimeBase (fits_map _ _ _)
    | with_reducible exact fits_TimeBase (fits_replicate _ _ _) | with_reducible exact fits_same _ _
    | with_reducible exact fits_upd _ _ _ _ | with_reducible exact fits_set _ _ _ _
    | with_reducible exact fits_map _ _ _ | with_reducible exact fits_replicate _ _ _
    | with_reducible exact fitsMck_same _ | with_reducible exact fun _ => fits_TimeBase (fits_same _ _)
    | with_reducible exact fun _ => fits_TimeBase (fits_upd _ _ _ _)
    | with_reducible exact fun _ => fits_TimeBase (fits_set _ _ _ _)
    | with_reducible exact fun _ => fits_TimeBase (fits_map _ _ _)
    | with_reducible exact fun _ => fits_TimeBase (fits_replicate _ _ _)
    | with_reducible exact fun _ => fits_same _ _ | with_reducible exact fun _ => fits_upd _ _ _ _
    | with_reducible exact fun _ => fits_set _ _ _ _ | with_reducible exact fun _ => fits_map _ _ _
    | with_reducible exact fun _ => fits_replicate _ _ _ | dsimp only

theorem kept_endSmear (hP : Closed F P) (htb : F .tb) (s : State) (h0 : P s) : P (endSmear s) := by
  unfold endSmear
  try dsimp only
  repeat' first
    | with_reducible assumption | with_reducible apply kept_putB hP | with_reducible apply kept_raise hP
    | with_reducible apply kept_refreshSmear hP | with_reducible apply kept_ite | with_reducible exact Or.inl rfl
    | with_reducible exact Or.inr htb | with_reducible apply hP.others
    | with_reducible exact fits_TimeBase (fits_same _ _) | with_reducible exact fits_TimeBase (fits_upd _ _ _ _)
    | with_reducible exact fits_TimeBase (fits_set _ _ _ _) | with_reducible exact fits_TimeBase (fits_map _ _ _)
    | with_reducible exact fits_TimeBase (fits_replicate _ _ _) | with_reducible exact fits_same _ _
    | with_reducible exact fits_upd _ _ _ _ | with_reducible exact fits_set _ _ _ _
    | with_reducible exact fits_map _ _ _ | with_reducible exact fits_replicate _ _ _
    | with_reducible exact fitsMck_same _ | with_reducible exact fun _ => fits_TimeBase (fits_same _ _)
    | with_reducible exact fun _ => fits_TimeBase (fits_upd _ _ _ _)
    | with_reducible exact fun _ => fits_TimeBase (fits_set _ _ _ _)
    | with_reducible exact fun _ => fits_TimeBase (fits_map _ _ _)
    | with_reducible exact fun _ => fits_TimeBase (fits_replicate _ _ _)
    | with_reducible exact fun _ => fits_same _ _ | with_reducible exact fun _ => fits_upd _ _ _ _
    | with_reducible exact fun _ => fits_set _ _ _ _ | with_reducible exact fun _ => fits_map _ _ _
    | with_reducible exact fun _ => fits_replicate _ _ _ | dsimp only

theorem kept_execSmearStart (hP : Closed F P) (hclk : F .clk) (htb : F .tb) (s : State) (h0 : P s) : After P
    (execSmearStart s) := by
  unfold execSmearStart
  try dsimp only
  repeat' first
    | with_reducible assumption | with_reducible apply kept_advT96 hP hclk
    | with_reducible apply kept_beginSmear hP htb | with_reducible apply kept_ite | with_reducible apply after_next
    | with_reducible apply after_ite | dsimp only

theorem kept_execSmearEnd (hP : Closed F P) (hclk : F .clk) (htb : F .tb) (s : State) (h0 : P s) : After P
    (execSmearEnd s) := by
  unfold execSmearEnd
  try dsimp only
  repeat' first
    | with_reducible assumption | with_reducible apply kept_advT96 hP hclk
    | with_reducible apply kept_endSmear hP htb | with_reducible apply kept_ite | with_reducible apply after_next
    | with_reducible apply after_ite | dsimp only

theorem kept_execLeapSchedWrite (hP : Closed F P) (htb : F .tb) (r : Requester) (v : Word) (s : State) (h0 : P s) :
    After P (execLeapSchedWrite r v s) := by
  unfold execLeapSchedWrite
  try dsimp only
  repeat' first
    | with_reducible assumption | intro _ | with_reducible apply kept_endSmear hP htb
    | with_reducible apply kept_onWrite hP | with_reducible apply kept_raiseIf hP
    | with_reducible apply kept_refreshLeapDay hP | with_reducible apply kept_utcDiscard hP
    | with_reducible apply kept_wrN hP | with_reducible apply kept_ite | with_reducible apply after_next
    | with_reducible apply after_ite | dsimp only

theorem kept_applyLeap (hP : Closed F P) (s : State) (h0 : P s) : P (applyLeap s) := by
  unfold applyLeap
  try dsimp only
  repeat' first
    | with_reducible assumption | with_reducible apply kept_put hP | with_reducible apply kept_putB hP
    | with_reducible apply kept_raise hP | with_reducible apply kept_record hP
    | with_reducible apply kept_refreshEra hP | with_reducible apply kept_refreshLeapDay hP
    | with_reducible apply kept_ite | dsimp only

theorem kept_execLeapApplied (hP : Closed F P) (hclk : F .clk) (s : State) (h0 : P s) : After P (execLeapApplied s)
    := by
  unfold execLeapApplied
  try dsimp only
  repeat' first
    | with_reducible assumption | with_reducible apply kept_advT96 hP hclk | with_reducible apply kept_applyLeap hP
    | with_reducible apply kept_ite | with_reducible apply after_next | with_reducible apply after_ite | dsimp only

theorem kept_writeAnchor (hP : Closed F P) (s : State) (h0 : P s) : P (writeAnchor s) := by
  unfold writeAnchor
  try dsimp only
  repeat' first
    | with_reducible assumption | with_reducible apply kept_put hP | with_reducible apply kept_wr64 hP
    | with_reducible apply kept_wrN hP | dsimp only

theorem kept_stepRecord (hP : Closed F P) (s : State) (h0 : P s) : P (stepRecord s) := by
  unfold stepRecord
  try dsimp only
  repeat' first
    | with_reducible assumption | with_reducible apply kept_record hP | dsimp only

theorem kept_refuseStep (hP : Closed F P) (s : State) (h0 : P s) : P (refuseStep s) := by
  unfold refuseStep
  try dsimp only
  repeat' first
    | with_reducible assumption | with_reducible apply kept_putB hP | with_reducible apply kept_raise hP
    | with_reducible apply kept_stepRecord hP | dsimp only

theorem kept_acceptStepAt (hP : Closed F P) (htb : F .tb) (hlinks : F .links) (s : State) (by' : Nat) (abs : Bool)
    (val : Int) (at' : Nat) (h0 : P s) : P (acceptStepAt s by' abs val at') := by
  unfold acceptStepAt
  try dsimp only
  repeat' first
    | with_reducible assumption | with_reducible apply kept_putB hP | with_reducible apply kept_sendStep hP hlinks
    | with_reducible apply kept_stepRecord hP | with_reducible apply kept_wr64 hP | with_reducible exact Or.inl rfl
    | with_reducible exact Or.inr htb | with_reducible exact Or.inr hlinks | with_reducible apply hP.others
    | with_reducible exact fits_TimeBase (fits_same _ _) | with_reducible exact fits_TimeBase (fits_upd _ _ _ _)
    | with_reducible exact fits_TimeBase (fits_set _ _ _ _) | with_reducible exact fits_TimeBase (fits_map _ _ _)
    | with_reducible exact fits_TimeBase (fits_replicate _ _ _) | with_reducible exact fits_same _ _
    | with_reducible exact fits_upd _ _ _ _ | with_reducible exact fits_set _ _ _ _
    | with_reducible exact fits_map _ _ _ | with_reducible exact fits_replicate _ _ _
    | with_reducible exact fitsMck_same _ | with_reducible exact fun _ => fits_TimeBase (fits_same _ _)
    | with_reducible exact fun _ => fits_TimeBase (fits_upd _ _ _ _)
    | with_reducible exact fun _ => fits_TimeBase (fits_set _ _ _ _)
    | with_reducible exact fun _ => fits_TimeBase (fits_map _ _ _)
    | with_reducible exact fun _ => fits_TimeBase (fits_replicate _ _ _)
    | with_reducible exact fun _ => fits_same _ _ | with_reducible exact fun _ => fits_upd _ _ _ _
    | with_reducible exact fun _ => fits_set _ _ _ _ | with_reducible exact fun _ => fits_map _ _ _
    | with_reducible exact fun _ => fits_replicate _ _ _ | dsimp only

theorem kept_acceptStep (hP : Closed F P) (htb : F .tb) (hlinks : F .links) (s : State) (by' : Nat) (abs : Bool)
    (val : Int) (h0 : P s) : P (acceptStep s by' abs val) := by
  unfold acceptStep
  try dsimp only
  repeat' first
    | with_reducible assumption | with_reducible apply kept_acceptStepAt hP htb hlinks | dsimp only

theorem kept_requestUpStep (hP : Closed F P) (htb : F .tb) (hlinks : F .links) (s : State) (val : Int) (t : Nat) (h0
    : P s) : P (requestUpStep s val t) := by
  unfold requestUpStep
  try dsimp only
  repeat' first
    | with_reducible assumption | with_reducible apply kept_acceptStepAt hP htb hlinks
    | with_reducible apply kept_refuseStep hP | with_reducible apply kept_ite | dsimp only

theorem kept_requestStep (hP : Closed F P) (htb : F .tb) (hlinks : F .links) (s : State) (by' : Nat) (abs : Bool)
    (val : Int) (h0 : P s) : P (requestStep s by' abs val) := by
  unfold requestStep
  try dsimp only
  repeat' first
    | with_reducible assumption | with_reducible apply kept_acceptStep hP htb hlinks
    | with_reducible apply kept_refuseStep hP | with_reducible apply kept_ite | dsimp only

theorem kept_execStepRequest (hP : Closed F P) (htb : F .tb) (hlinks : F .links) (r : Requester) (v : Word) (s :
    State) (h0 : P s) : After P (execStepRequest r v s) := by
  unfold execStepRequest
  try dsimp only
  repeat' first
    | with_reducible assumption | intro _ | with_reducible apply kept_acceptStep hP htb hlinks
    | with_reducible apply kept_onWrite hP | with_reducible apply kept_put hP
    | with_reducible apply kept_refuseStep hP | with_reducible apply kept_ite | with_reducible apply after_next
    | with_reducible apply after_ite | dsimp only

theorem kept_showScale (hP : Closed F P) (s : State) (h0 : P s) : P (showScale s) := by
  unfold showScale
  try dsimp only
  repeat' first
    | with_reducible assumption | intro _ | with_reducible apply kept_put hP | with_reducible apply kept_foldl
    | with_reducible apply kept_foldl_fst | dsimp only

theorem kept_markTimeSet (hP : Closed F P) (s : State) (h0 : P s) : P (markTimeSet s) := by
  unfold markTimeSet
  try dsimp only
  repeat' first
    | with_reducible assumption | with_reducible apply kept_doubt hP | with_reducible apply kept_putB hP
    | dsimp only

theorem kept_stepDoubt (hP : Closed F P) (htb : F .tb) (s : State) (d : Int) (first : Bool) (h0 : P s) : P
    (stepDoubt s d first) := by
  unfold stepDoubt
  try dsimp only
  repeat' first
    | with_reducible assumption | with_reducible apply kept_doubt hP | with_reducible apply kept_ite
    | with_reducible exact Or.inl rfl | with_reducible exact Or.inr htb | with_reducible apply hP.others
    | with_reducible exact fits_TimeBase (fits_same _ _) | with_reducible exact fits_TimeBase (fits_upd _ _ _ _)
    | with_reducible exact fits_TimeBase (fits_set _ _ _ _) | with_reducible exact fits_TimeBase (fits_map _ _ _)
    | with_reducible exact fits_TimeBase (fits_replicate _ _ _) | with_reducible exact fits_same _ _
    | with_reducible exact fits_upd _ _ _ _ | with_reducible exact fits_set _ _ _ _
    | with_reducible exact fits_map _ _ _ | with_reducible exact fits_replicate _ _ _
    | with_reducible exact fitsMck_same _ | with_reducible exact fun _ => fits_TimeBase (fits_same _ _)
    | with_reducible exact fun _ => fits_TimeBase (fits_upd _ _ _ _)
    | with_reducible exact fun _ => fits_TimeBase (fits_set _ _ _ _)
    | with_reducible exact fun _ => fits_TimeBase (fits_map _ _ _)
    | with_reducible exact fun _ => fits_TimeBase (fits_replicate _ _ _)
    | with_reducible exact fun _ => fits_same _ _ | with_reducible exact fun _ => fits_upd _ _ _ _
    | with_reducible exact fun _ => fits_set _ _ _ _ | with_reducible exact fun _ => fits_map _ _ _
    | with_reducible exact fun _ => fits_replicate _ _ _ | dsimp only

theorem kept_stepLeaps (hP : Closed F P) (htb : F .tb) (s : State) (old : Nat) (h0 : P s) : P (stepLeaps s old) :=
    by
  unfold stepLeaps
  try dsimp only
  repeat' first
    | with_reducible assumption | with_reducible apply kept_applyLeap hP | with_reducible apply kept_endSmear hP htb
    | with_reducible apply kept_refreshEra hP | with_reducible apply kept_refreshLeapDay hP
    | with_reducible apply kept_refreshSmear hP | with_reducible apply kept_ite | dsimp only

theorem kept_applyStep (hP : Closed F P) (hclk : F .clk) (htb : F .tb) (s : State) (h0 : P s) : P (applyStep s) :=
    by
  unfold applyStep
  try dsimp only
  repeat' first
    | with_reducible assumption | with_reducible apply kept_advPc hP hclk | with_reducible apply kept_bump hP
    | with_reducible apply kept_markTimeSet hP | with_reducible apply kept_put hP
    | with_reducible apply kept_putB hP | with_reducible apply kept_raise hP
    | with_reducible apply kept_recordPair hP | with_reducible apply kept_showScale hP
    | with_reducible apply kept_stepDoubt hP htb | with_reducible apply kept_stepLeaps hP htb
    | with_reducible apply kept_writeAnchor hP | with_reducible apply kept_ite | with_reducible exact Or.inl rfl
    | with_reducible exact Or.inr hclk | with_reducible exact Or.inr htb | with_reducible apply hP.others
    | with_reducible exact fits_TimeBase (fits_same _ _) | with_reducible exact fits_TimeBase (fits_upd _ _ _ _)
    | with_reducible exact fits_TimeBase (fits_set _ _ _ _) | with_reducible exact fits_TimeBase (fits_map _ _ _)
    | with_reducible exact fits_TimeBase (fits_replicate _ _ _) | with_reducible exact fits_same _ _
    | with_reducible exact fits_upd _ _ _ _ | with_reducible exact fits_set _ _ _ _
    | with_reducible exact fits_map _ _ _ | with_reducible exact fits_replicate _ _ _
    | with_reducible exact fitsMck_same _ | with_reducible exact fun _ => fits_TimeBase (fits_same _ _)
    | with_reducible exact fun _ => fits_TimeBase (fits_upd _ _ _ _)
    | with_reducible exact fun _ => fits_TimeBase (fits_set _ _ _ _)
    | with_reducible exact fun _ => fits_TimeBase (fits_map _ _ _)
    | with_reducible exact fun _ => fits_TimeBase (fits_replicate _ _ _)
    | with_reducible exact fun _ => fits_same _ _ | with_reducible exact fun _ => fits_upd _ _ _ _
    | with_reducible exact fun _ => fits_set _ _ _ _ | with_reducible exact fun _ => fits_map _ _ _
    | with_reducible exact fun _ => fits_replicate _ _ _ | dsimp only

theorem kept_execTbeStepEnd (hP : Closed F P) (hclk : F .clk) (s : State) (h0 : P s) : After P (execTbeStepEnd s) :=
    by
  unfold execTbeStepEnd
  try dsimp only
  repeat' first
    | with_reducible assumption | with_reducible apply kept_advMono hP hclk | with_reducible apply kept_doubt hP
    | with_reducible apply kept_ite | with_reducible apply after_next | with_reducible apply after_ite | dsimp only

theorem kept_tickSecond (hP : Closed F P) (hclk : F .clk) (s : State) (h0 : P s) : P (tickSecond s) := by
  unfold tickSecond
  try dsimp only
  repeat' first
    | with_reducible assumption | with_reducible apply kept_advT96 hP hclk | with_reducible apply kept_raise hP
    | with_reducible apply kept_refreshEra hP | with_reducible apply kept_refreshLeapDay hP
    | with_reducible apply kept_refreshSmear hP | with_reducible apply kept_writeAnchor hP | dsimp only

theorem kept_idleCycle (hP : Closed F P) (hclk : F .clk) (s : State) (h0 : P s) : P (idleCycle s) := by
  unfold idleCycle
  try dsimp only
  repeat' first
    | with_reducible assumption | with_reducible apply kept_ite | with_reducible exact Or.inl rfl
    | with_reducible exact Or.inr hclk | with_reducible apply hP.others | with_reducible exact fits_same _ _
    | with_reducible exact fits_upd _ _ _ _ | with_reducible exact fits_set _ _ _ _
    | with_reducible exact fits_map _ _ _ | with_reducible exact fits_replicate _ _ _
    | with_reducible exact fitsMck_same _ | with_reducible exact fun _ => fits_same _ _
    | with_reducible exact fun _ => fits_upd _ _ _ _ | with_reducible exact fun _ => fits_set _ _ _ _
    | with_reducible exact fun _ => fits_map _ _ _ | with_reducible exact fun _ => fits_replicate _ _ _ | dsimp only

theorem kept_updReplica (hP : Closed F P) (htb : F .tb) (s : State) (lane : Nat) (f : Replica → Replica) (h0 : P s)
    : P (updReplica s lane f) := by
  unfold updReplica
  try dsimp only
  repeat' first
    | with_reducible assumption | with_reducible exact Or.inl rfl | with_reducible exact Or.inr htb
    | with_reducible apply hP.others | with_reducible exact fits_TimeBase (fits_same _ _)
    | with_reducible exact fits_TimeBase (fits_upd _ _ _ _) | with_reducible exact fits_TimeBase (fits_set _ _ _ _)
    | with_reducible exact fits_TimeBase (fits_map _ _ _)
    | with_reducible exact fits_TimeBase (fits_replicate _ _ _) | with_reducible exact fits_same _ _
    | with_reducible exact fits_upd _ _ _ _ | with_reducible exact fits_set _ _ _ _
    | with_reducible exact fits_map _ _ _ | with_reducible exact fits_replicate _ _ _
    | with_reducible exact fitsMck_same _ | with_reducible exact fun _ => fits_TimeBase (fits_same _ _)
    | with_reducible exact fun _ => fits_TimeBase (fits_upd _ _ _ _)
    | with_reducible exact fun _ => fits_TimeBase (fits_set _ _ _ _)
    | with_reducible exact fun _ => fits_TimeBase (fits_map _ _ _)
    | with_reducible exact fun _ => fits_TimeBase (fits_replicate _ _ _)
    | with_reducible exact fun _ => fits_same _ _ | with_reducible exact fun _ => fits_upd _ _ _ _
    | with_reducible exact fun _ => fits_set _ _ _ _ | with_reducible exact fun _ => fits_map _ _ _
    | with_reducible exact fun _ => fits_replicate _ _ _ | dsimp only

theorem kept_replicaDoubts (hP : Closed F P) (s : State) (lane : Nat) (h0 : P s) : P (replicaDoubts s lane) := by
  unfold replicaDoubts
  try dsimp only
  repeat' first
    | with_reducible assumption | with_reducible apply kept_doubt hP | with_reducible apply kept_ite | dsimp only

theorem kept_showReplica (hP : Closed F P) (s : State) (lane : Nat) (h0 : P s) : P (showReplica s lane) := by
  unfold showReplica
  try dsimp only
  repeat' first
    | with_reducible assumption | with_reducible apply kept_putB hP | with_reducible apply kept_ite | dsimp only

theorem kept_showExchange (hP : Closed F P) (s : State) (lane : Nat) (theta : Int) (d : Int) (h0 : P s) : P
    (showExchange s lane theta d) := by
  unfold showExchange
  try dsimp only
  repeat' first
    | with_reducible assumption | with_reducible apply kept_drawn hP | with_reducible apply kept_maxF hP
    | with_reducible apply kept_put hP | with_reducible apply kept_putS hP | with_reducible apply kept_wrN hP
    | with_reducible apply kept_ite | dsimp only

theorem kept_resync (hP : Closed F P) (htb : F .tb) (s : State) (lane : Nat) (h0 : P s) : P (resync s lane) := by
  unfold resync
  try dsimp only
  repeat' first
    | with_reducible assumption | with_reducible apply kept_bump hP | with_reducible apply kept_raise hP
    | with_reducible apply kept_updReplica hP htb | with_reducible apply kept_ite | dsimp only

theorem kept_acquire (hP : Closed F P) (htb : F .tb) (s : State) (lane : Nat) (theta : Int) (h0 : P s) : P (acquire
    s lane theta) := by
  unfold acquire
  try dsimp only
  repeat' first
    | with_reducible assumption | with_reducible apply kept_raiseIf hP | with_reducible apply kept_updReplica hP htb
    | with_reducible apply kept_ite | dsimp only

theorem kept_steer (hP : Closed F P) (htb : F .tb) (s : State) (lane : Nat) (theta : Int) (h0 : P s) : P (steer s
    lane theta) := by
  unfold steer
  try dsimp only
  repeat' first
    | with_reducible assumption | with_reducible apply kept_updReplica hP htb | dsimp only

theorem kept_exchange (hP : Closed F P) (htb : F .tb) (s : State) (lane : Nat) (theta : Int) (d : Int) (h0 : P s) :
    P (exchange s lane theta d) := by
  unfold exchange
  try dsimp only
  repeat' first
    | with_reducible assumption | with_reducible apply kept_acquire hP htb | with_reducible apply kept_doubt hP
    | with_reducible apply kept_replicaDoubts hP | with_reducible apply kept_resync hP htb
    | with_reducible apply kept_showExchange hP | with_reducible apply kept_showReplica hP
    | with_reducible apply kept_steer hP htb | with_reducible apply kept_updReplica hP htb
    | with_reducible apply kept_ite | dsimp only

theorem kept_missExchange (hP : Closed F P) (htb : F .tb) (s : State) (lane : Nat) (h0 : P s) : P (missExchange s
    lane) := by
  unfold missExchange
  try dsimp only
  repeat' first
    | with_reducible assumption | with_reducible apply kept_bump hP | with_reducible apply kept_updReplica hP htb
    | with_reducible apply kept_ite | dsimp only

theorem kept_execTlaneFault (hP : Closed F P) (lane : Fin 6) (s : State) (h0 : P s) : After P (execTlaneFault lane
    s) := by
  unfold execTlaneFault
  try dsimp only
  repeat' first
    | with_reducible assumption | with_reducible apply kept_doubt hP | with_reducible apply kept_ite
    | with_reducible apply after_next | with_reducible apply after_ite | dsimp only

/-! ### Links -/

theorem kept_sendKeyFrame (hP : Closed F P) (hlinks : F .links) (s : State) (k : Nat) (c : Nat) (id : Nat) (body :
    Nat → List Byte) (h0 : P s) : P (sendKeyFrame s k c id body) := by
  unfold sendKeyFrame
  try dsimp only
  repeat' first
    | with_reducible assumption | with_reducible apply kept_updLink hP hlinks
    | with_reducible apply kept_updPeer hP hlinks | with_reducible exact fits_AskLink (fits_same _ _)
    | with_reducible exact fits_AskLink (fits_upd _ _ _ _) | with_reducible exact fits_AskLink (fits_set _ _ _ _)
    | with_reducible exact fits_AskLink (fits_map _ _ _) | with_reducible exact fits_AskLink (fits_replicate _ _ _)
    | with_reducible exact fits_same _ _ | with_reducible exact fits_upd _ _ _ _
    | with_reducible exact fits_set _ _ _ _ | with_reducible exact fits_map _ _ _
    | with_reducible exact fits_replicate _ _ _ | with_reducible exact fun _ => fits_AskLink (fits_same _ _)
    | with_reducible exact fun _ => fits_AskLink (fits_upd _ _ _ _)
    | with_reducible exact fun _ => fits_AskLink (fits_set _ _ _ _)
    | with_reducible exact fun _ => fits_AskLink (fits_map _ _ _)
    | with_reducible exact fun _ => fits_AskLink (fits_replicate _ _ _)
    | with_reducible exact fun _ => fits_same _ _ | with_reducible exact fun _ => fits_upd _ _ _ _
    | with_reducible exact fun _ => fits_set _ _ _ _ | with_reducible exact fun _ => fits_map _ _ _
    | with_reducible exact fun _ => fits_replicate _ _ _ | dsimp only

theorem kept_sendKeyTo (hP : Closed F P) (hlinks : F .links) (s : State) (k : Nat) (c : Nat) (mk : MasterKey) (h0 :
    P s) : P (sendKeyTo s k c mk) := by
  unfold sendKeyTo
  try dsimp only
  repeat' first
    | with_reducible assumption | with_reducible apply kept_sendKeyFrame hP hlinks | split | dsimp only

theorem kept_sendKeyDown (hP : Closed F P) (hlinks : F .links) (s : State) (mk : MasterKey) (h0 : P s) : P
    (sendKeyDown s mk) := by
  unfold sendKeyDown
  try dsimp only
  repeat' first
    | with_reducible assumption | intro _ | with_reducible apply kept_sendKeyTo hP hlinks
    | with_reducible apply kept_foldl | with_reducible apply kept_foldl_fst | dsimp only

theorem kept_sendPurgeDown (hP : Closed F P) (hlinks : F .links) (s : State) (h0 : P s) : P (sendPurgeDown s) := by
  unfold sendPurgeDown
  try dsimp only
  repeat' first
    | with_reducible assumption | intro _ | with_reducible apply kept_sendKeyFrame hP hlinks
    | with_reducible apply kept_updPeer hP hlinks | with_reducible apply kept_foldl
    | with_reducible apply kept_foldl_fst | split | dsimp only

/-! ### CoreMem -/

theorem kept_coreLost (hP : Closed F P) (hcore : F .core) (s : State) (h : P s) : P (coreLost s) := hP.lost hcore s h

/-! ### Book -/

theorem kept_updPd (hP : Closed F P) (hports : F .ports) (s : State) (d : Nat) (f : PortDie → PortDie)
    (hf : ∀ x, Fits 8 (f x).ports.length x.ports.length) (h : P s) : P (updPd s d f) := hP.ports hports s d f hf h

theorem kept_updPort (hP : Closed F P) (hports : F .ports) (s : State) (d : Nat) (i : Nat) (f : Port → Port) (h0 : P
    s) : P (updPort s d i f) := by
  unfold updPort
  try dsimp only
  repeat' first
    | with_reducible assumption | with_reducible apply kept_updPd hP hports
    | with_reducible exact fits_PortDie (fits_same _ _) | with_reducible exact fits_PortDie (fits_upd _ _ _ _)
    | with_reducible exact fits_PortDie (fits_set _ _ _ _) | with_reducible exact fits_PortDie (fits_map _ _ _)
    | with_reducible exact fits_PortDie (fits_replicate _ _ _) | with_reducible exact fits_same _ _
    | with_reducible exact fits_upd _ _ _ _ | with_reducible exact fits_set _ _ _ _
    | with_reducible exact fits_map _ _ _ | with_reducible exact fits_replicate _ _ _
    | with_reducible exact fun _ => fits_PortDie (fits_same _ _)
    | with_reducible exact fun _ => fits_PortDie (fits_upd _ _ _ _)
    | with_reducible exact fun _ => fits_PortDie (fits_set _ _ _ _)
    | with_reducible exact fun _ => fits_PortDie (fits_map _ _ _)
    | with_reducible exact fun _ => fits_PortDie (fits_replicate _ _ _)
    | with_reducible exact fun _ => fits_same _ _ | with_reducible exact fun _ => fits_upd _ _ _ _
    | with_reducible exact fun _ => fits_set _ _ _ _ | with_reducible exact fun _ => fits_map _ _ _
    | with_reducible exact fun _ => fits_replicate _ _ _ | dsimp only

theorem kept_advDie (hP : Closed F P) (hclk : F .clk) (s : State) (d : Nat) (n : Nat) (h0 : P s) : P (advDie s d n)
    := by
  unfold advDie
  try dsimp only
  repeat' first
    | with_reducible assumption | with_reducible apply kept_advP hP hclk | dsimp only

theorem kept_showTimed (hP : Closed F P) (s : State) (d : Nat) (h0 : P s) : P (showTimed s d) := by
  unfold showTimed
  try dsimp only
  repeat' first
    | with_reducible assumption | intro _ | with_reducible apply kept_put hP | with_reducible apply kept_putB hP
    | with_reducible apply kept_foldl | with_reducible apply kept_foldl_fst | dsimp only

theorem kept_tileFail (hP : Closed F P) (hports : F .ports) (s : State) (d : Nat) (h0 : P s) : P (tileFail s d) :=
    by
  unfold tileFail
  try dsimp only
  repeat' first
    | with_reducible assumption | with_reducible apply kept_bump hP | with_reducible apply kept_updPd hP hports
    | with_reducible exact fits_PortDie (fits_same _ _) | with_reducible exact fits_PortDie (fits_upd _ _ _ _)
    | with_reducible exact fits_PortDie (fits_set _ _ _ _) | with_reducible exact fits_PortDie (fits_map _ _ _)
    | with_reducible exact fits_PortDie (fits_replicate _ _ _) | with_reducible exact fits_same _ _
    | with_reducible exact fits_upd _ _ _ _ | with_reducible exact fits_set _ _ _ _
    | with_reducible exact fits_map _ _ _ | with_reducible exact fits_replicate _ _ _
    | with_reducible exact fun _ => fits_PortDie (fits_same _ _)
    | with_reducible exact fun _ => fits_PortDie (fits_upd _ _ _ _)
    | with_reducible exact fun _ => fits_PortDie (fits_set _ _ _ _)
    | with_reducible exact fun _ => fits_PortDie (fits_map _ _ _)
    | with_reducible exact fun _ => fits_PortDie (fits_replicate _ _ _)
    | with_reducible exact fun _ => fits_same _ _ | with_reducible exact fun _ => fits_upd _ _ _ _
    | with_reducible exact fun _ => fits_set _ _ _ _ | with_reducible exact fun _ => fits_map _ _ _
    | with_reducible exact fun _ => fits_replicate _ _ _ | dsimp only

theorem kept_writeTiles (hP : Closed F P) (hports : F .ports) (s : State) (d : Nat) (kind : Nat) (n : Nat) (h0 : P
    s) : P (writeTiles s d kind n).1 := by
  unfold writeTiles
  try dsimp only
  repeat' first
    | with_reducible assumption | with_reducible apply kept_bumpBy hP | with_reducible apply kept_putB hP
    | with_reducible apply kept_updPd hP hports | with_reducible apply kept_ite | with_reducible apply kept_fst_ite
    | with_reducible exact fits_PortDie (fits_same _ _) | with_reducible exact fits_PortDie (fits_upd _ _ _ _)
    | with_reducible exact fits_PortDie (fits_set _ _ _ _) | with_reducible exact fits_PortDie (fits_map _ _ _)
    | with_reducible exact fits_PortDie (fits_replicate _ _ _) | with_reducible exact fits_same _ _
    | with_reducible exact fits_upd _ _ _ _ | with_reducible exact fits_set _ _ _ _
    | with_reducible exact fits_map _ _ _ | with_reducible exact fits_replicate _ _ _
    | with_reducible exact fun _ => fits_PortDie (fits_same _ _)
    | with_reducible exact fun _ => fits_PortDie (fits_upd _ _ _ _)
    | with_reducible exact fun _ => fits_PortDie (fits_set _ _ _ _)
    | with_reducible exact fun _ => fits_PortDie (fits_map _ _ _)
    | with_reducible exact fun _ => fits_PortDie (fits_replicate _ _ _)
    | with_reducible exact fun _ => fits_same _ _ | with_reducible exact fun _ => fits_upd _ _ _ _
    | with_reducible exact fun _ => fits_set _ _ _ _ | with_reducible exact fun _ => fits_map _ _ _
    | with_reducible exact fun _ => fits_replicate _ _ _ | split | dsimp only

theorem kept_updRing (hP : Closed F P) (hrings : F .rings) (s : State) (n : Nat) (f : Ring → Ring) (h0 : P s) : P
    (updRing s n f) := by
  unfold updRing
  try dsimp only
  repeat' first
    | with_reducible assumption | with_reducible exact Or.inl rfl | with_reducible exact Or.inr hrings
    | with_reducible apply hP.others | with_reducible exact fits_same _ _ | with_reducible exact fits_upd _ _ _ _
    | with_reducible exact fits_set _ _ _ _ | with_reducible exact fits_map _ _ _
    | with_reducible exact fits_replicate _ _ _ | with_reducible exact fitsMck_same _
    | with_reducible exact fun _ => fits_same _ _ | with_reducible exact fun _ => fits_upd _ _ _ _
    | with_reducible exact fun _ => fits_set _ _ _ _ | with_reducible exact fun _ => fits_map _ _ _
    | with_reducible exact fun _ => fits_replicate _ _ _ | dsimp only

theorem kept_ringDone (hP : Closed F P) (hrings : F .rings) (s : State) (n : Nat) (tag : Nat) (status : Nat) (l :
    Nat) (h0 : P s) : P (ringDone s n tag status l) := by
  unfold ringDone
  try dsimp only
  repeat' first
    | with_reducible assumption | with_reducible apply kept_updRing hP hrings | dsimp only

theorem kept_completeSoft (hP : Closed F P) (hmck : F .mck) (hrings : F .rings) (s : State) (d i : Nat) (f : SoftFrame) (status l : Nat) (h : P s) :
    P (completeSoft s d i f status l) := by
  unfold completeSoft
  cases f.ring with
  | none => exact by with_reducible apply hP.others <;> first | exact Or.inl rfl | exact Or.inr (by assumption) | exact h | exact ⟨fits_same _ _, fits_same _ _, fits_same _ _, fits_same _ _, fits_same _ _, fits_same _ _, fits_same _ _⟩ | with_reducible exact fits_same _ _
  | some n => exact kept_ringDone hP hrings _ _ _ _ _ h

theorem kept_complete (hP : Closed F P) (hmck : F .mck) (hrings : F .rings) (s : State) (d : Nat) (i : Nat) (by' :
    Builder) (status : Nat) (l : Nat) (h0 : P s) : P (complete s d i by' status l) := by
  unfold complete
  try dsimp only
  repeat' first
    | with_reducible assumption | with_reducible apply kept_completeSoft hP hmck hrings | split | dsimp only

theorem kept_refuseBook (hP : Closed F P) (hmck : F .mck) (hrings : F .rings) (s : State) (d : Nat) (i : Nat) (by' :
    Builder) (why : Nat) (h0 : P s) : P (refuseBook s d i by' why) := by
  unfold refuseBook
  try dsimp only
  repeat' first
    | with_reducible assumption | with_reducible apply kept_bump hP
    | with_reducible apply kept_completeSoft hP hmck hrings | with_reducible apply kept_raise hP
    | with_reducible apply kept_ite | split | dsimp only

theorem kept_grantBook (hP : Closed F P) (hports : F .ports) (s : State) (d : Nat) (i : Nat) (e : Nat) (grid : Nat)
    (at' : Bool) (by' : Builder) (len : Nat) (lead : Nat) (again : Bool) (h0 : P s) : P (grantBook s d i e grid at' by'
    len lead again).1 := by
  unfold grantBook
  try dsimp only
  repeat' first
    | with_reducible assumption | with_reducible apply kept_updPd hP hports
    | with_reducible apply kept_updPort hP hports | with_reducible apply kept_ite
    | with_reducible apply kept_fst_ite | with_reducible exact fits_PortDie (fits_same _ _)
    | with_reducible exact fits_PortDie (fits_upd _ _ _ _) | with_reducible exact fits_PortDie (fits_set _ _ _ _)
    | with_reducible exact fits_PortDie (fits_map _ _ _) | with_reducible exact fits_PortDie (fits_replicate _ _ _)
    | with_reducible exact fits_same _ _ | with_reducible exact fits_upd _ _ _ _
    | with_reducible exact fits_set _ _ _ _ | with_reducible exact fits_map _ _ _
    | with_reducible exact fits_replicate _ _ _ | with_reducible exact fun _ => fits_PortDie (fits_same _ _)
    | with_reducible exact fun _ => fits_PortDie (fits_upd _ _ _ _)
    | with_reducible exact fun _ => fits_PortDie (fits_set _ _ _ _)
    | with_reducible exact fun _ => fits_PortDie (fits_map _ _ _)
    | with_reducible exact fun _ => fits_PortDie (fits_replicate _ _ _)
    | with_reducible exact fun _ => fits_same _ _ | with_reducible exact fun _ => fits_upd _ _ _ _
    | with_reducible exact fun _ => fits_set _ _ _ _ | with_reducible exact fun _ => fits_map _ _ _
    | with_reducible exact fun _ => fits_replicate _ _ _ | dsimp only

theorem kept_book (hP : Closed F P) (hmck : F .mck) (hports : F .ports) (hrings : F .rings) (s : State) (d : Nat) (i
    : Nat) (now : Nat) (e : Nat) (grid : Nat) (at' : Bool) (by' : Builder) (len : Nat) (lead : Nat) (h0 : P s) : P (book
    s d i now e grid at' by' len lead).1 := by
  unfold book
  try dsimp only
  repeat' first
    | with_reducible assumption | with_reducible apply kept_grantBook hP hports
    | with_reducible apply kept_refuseBook hP hmck hrings | with_reducible apply kept_ite
    | with_reducible apply kept_fst_ite | dsimp only

theorem kept_updBook (hP : Closed F P) (hports : F .ports) (s : State) (d : Nat) (i : Nat) (no : Nat) (f : Booking →
    Booking) (h0 : P s) : P (updBook s d i no f) := by
  unfold updBook
  try dsimp only
  repeat' first
    | with_reducible assumption | with_reducible apply kept_updPort hP hports | with_reducible apply kept_ite
    | with_reducible exact fits_same _ _ | with_reducible exact fits_upd _ _ _ _
    | with_reducible exact fits_set _ _ _ _ | with_reducible exact fits_map _ _ _
    | with_reducible exact fits_replicate _ _ _ | with_reducible exact fun _ => fits_same _ _
    | with_reducible exact fun _ => fits_upd _ _ _ _ | with_reducible exact fun _ => fits_set _ _ _ _
    | with_reducible exact fun _ => fits_map _ _ _ | with_reducible exact fun _ => fits_replicate _ _ _ | dsimp only

theorem kept_dropBook (hP : Closed F P) (hports : F .ports) (s : State) (d : Nat) (i : Nat) (no : Nat) (h0 : P s) :
    P (dropBook s d i no) := by
  unfold dropBook
  try dsimp only
  repeat' first
    | with_reducible assumption | with_reducible apply kept_updPort hP hports | with_reducible exact fits_same _ _
    | with_reducible exact fits_upd _ _ _ _ | with_reducible exact fits_set _ _ _ _
    | with_reducible exact fits_map _ _ _ | with_reducible exact fits_replicate _ _ _
    | with_reducible exact fun _ => fits_same _ _ | with_reducible exact fun _ => fits_upd _ _ _ _
    | with_reducible exact fun _ => fits_set _ _ _ _ | with_reducible exact fun _ => fits_map _ _ _
    | with_reducible exact fun _ => fits_replicate _ _ _ | dsimp only

theorem kept_showHold (hP : Closed F P) (s : State) (d : Nat) (h0 : P s) : P (showHold s d) := by
  unfold showHold
  try dsimp only
  repeat' first
    | with_reducible assumption | intro _ | with_reducible apply kept_maxF hP | with_reducible apply kept_put hP
    | with_reducible apply kept_foldl | with_reducible apply kept_foldl_fst | dsimp only

theorem kept_finishBook (hP : Closed F P) (hports : F .ports) (s : State) (d : Nat) (i : Nat) (no : Nat) (frame :
    List Byte) (post : Nat) (h0 : P s) : P (finishBook s d i no frame post) := by
  unfold finishBook
  try dsimp only
  repeat' first
    | with_reducible assumption | with_reducible apply kept_updBook hP hports
    | with_reducible apply kept_writeTiles hP hports | dsimp only

theorem kept_keepWire (hP : Closed F P) (hports : F .ports) (s : State) (d : Nat) (i : Nat) (l : Nat) (stop : Nat)
    (h0 : P s) : P (keepWire s d i l stop) := by
  unfold keepWire
  try dsimp only
  repeat' first
    | with_reducible assumption | with_reducible apply kept_updPort hP hports | with_reducible exact fits_same _ _
    | with_reducible exact fits_upd _ _ _ _ | with_reducible exact fits_set _ _ _ _
    | with_reducible exact fits_map _ _ _ | with_reducible exact fits_replicate _ _ _
    | with_reducible exact fun _ => fits_same _ _ | with_reducible exact fun _ => fits_upd _ _ _ _
    | with_reducible exact fun _ => fits_set _ _ _ _ | with_reducible exact fun _ => fits_map _ _ _
    | with_reducible exact fun _ => fits_replicate _ _ _ | dsimp only

theorem kept_untimed (hP : Closed F P) (hports : F .ports) (hrings : F .rings) (s : State) (d : Nat) (i : Nat)
    (frame : List Byte) (soft : Option (Nat × Nat)) (h0 : P s) : P (untimed s d i frame soft) := by
  unfold untimed
  try dsimp only
  repeat' first
    | with_reducible assumption | with_reducible apply kept_bump hP | with_reducible apply kept_ringDone hP hrings
    | with_reducible apply kept_updPort hP hports | with_reducible apply kept_ite
    | with_reducible exact fits_same _ _ | with_reducible exact fits_upd _ _ _ _
    | with_reducible exact fits_set _ _ _ _ | with_reducible exact fits_map _ _ _
    | with_reducible exact fits_replicate _ _ _ | with_reducible exact fun _ => fits_same _ _
    | with_reducible exact fun _ => fits_upd _ _ _ _ | with_reducible exact fun _ => fits_set _ _ _ _
    | with_reducible exact fun _ => fits_map _ _ _ | with_reducible exact fun _ => fits_replicate _ _ _ | split
    | dsimp only

theorem kept_emit (hP : Closed F P) (hports : F .ports) (s : State) (d : Nat) (i : Nat) (frame : List Byte) (l :
    Option Nat) (h0 : P s) : P (emit s d i frame l) := by
  unfold emit
  try dsimp only
  repeat' first
    | with_reducible assumption | with_reducible apply kept_add64 hP | with_reducible apply kept_updPort hP hports
    | with_reducible exact fits_same _ _ | with_reducible exact fits_upd _ _ _ _
    | with_reducible exact fits_set _ _ _ _ | with_reducible exact fits_map _ _ _
    | with_reducible exact fits_replicate _ _ _ | with_reducible exact fun _ => fits_same _ _
    | with_reducible exact fun _ => fits_upd _ _ _ _ | with_reducible exact fun _ => fits_set _ _ _ _
    | with_reducible exact fun _ => fits_map _ _ _ | with_reducible exact fun _ => fits_replicate _ _ _ | dsimp only

theorem kept_popUntimed (hP : Closed F P) (hports : F .ports) (s : State) (d : Nat) (i : Nat) (h0 : P s) : P
    (popUntimed s d i) := by
  unfold popUntimed
  try dsimp only
  repeat' first
    | with_reducible assumption | with_reducible apply kept_updPort hP hports | with_reducible exact fits_same _ _
    | with_reducible exact fits_upd _ _ _ _ | with_reducible exact fits_set _ _ _ _
    | with_reducible exact fits_map _ _ _ | with_reducible exact fits_replicate _ _ _
    | with_reducible exact fun _ => fits_same _ _ | with_reducible exact fun _ => fits_upd _ _ _ _
    | with_reducible exact fun _ => fits_set _ _ _ _ | with_reducible exact fun _ => fits_map _ _ _
    | with_reducible exact fun _ => fits_replicate _ _ _ | dsimp only

theorem kept_linkDrop (hP : Closed F P) (hmck : F .mck) (hrings : F .rings) (s : State) (d : Nat) (i : Nat) (b :
    Booking) (h0 : P s) : P (linkDrop s d i b) := by
  unfold linkDrop
  try dsimp only
  repeat' first
    | with_reducible assumption | with_reducible apply kept_bump hP
    | with_reducible apply kept_complete hP hmck hrings | with_reducible apply kept_raise hP | dsimp only

theorem kept_linkDropUntimed (hP : Closed F P) (hrings : F .rings) (s : State) (d : Nat) (u : Untimed) (h0 : P s) :
    P (linkDropUntimed s d u) := by
  unfold linkDropUntimed
  try dsimp only
  repeat' first
    | with_reducible assumption | with_reducible apply kept_bump hP | with_reducible apply kept_raise hP
    | with_reducible apply kept_ringDone hP hrings | split | dsimp only

theorem kept_flushPort (hP : Closed F P) (hmck : F .mck) (hports : F .ports) (hrings : F .rings) (s : State) (d :
    Nat) (i : Nat) (h0 : P s) : P (flushPort s d i) := by
  unfold flushPort
  try dsimp only
  repeat' first
    | with_reducible assumption | intro _ | with_reducible apply kept_bump hP
    | with_reducible apply kept_complete hP hmck hrings | with_reducible apply kept_linkDrop hP hmck hrings
    | with_reducible apply kept_linkDropUntimed hP hrings | with_reducible apply kept_raise hP
    | with_reducible apply kept_showHold hP | with_reducible apply kept_updPort hP hports
    | with_reducible apply kept_foldl | with_reducible apply kept_foldl_fst | with_reducible exact fits_same _ _
    | with_reducible exact fits_upd _ _ _ _ | with_reducible exact fits_set _ _ _ _
    | with_reducible exact fits_map _ _ _ | with_reducible exact fits_replicate _ _ _
    | with_reducible exact fun _ => fits_same _ _ | with_reducible exact fun _ => fits_upd _ _ _ _
    | with_reducible exact fun _ => fits_set _ _ _ _ | with_reducible exact fun _ => fits_map _ _ _
    | with_reducible exact fun _ => fits_replicate _ _ _ | split | dsimp only

/-! ### Ntp -/

theorem kept_showForm (hP : Closed F P) (s : State) (p : Pg) (f : Fld) (form : Nat) (bit : Nat) (h0 : P s) : P
    (showForm s p f form bit) := by
  unfold showForm
  try dsimp only
  repeat' first
    | with_reducible assumption | with_reducible apply kept_put hP | with_reducible apply kept_raise hP
    | with_reducible apply kept_ite | dsimp only

theorem kept_showForms (hP : Closed F P) (s : State) (d : Nat) (h0 : P s) : P (showForms s d) := by
  unfold showForms
  try dsimp only
  repeat' first
    | with_reducible assumption | intro _ | with_reducible apply kept_put hP | with_reducible apply kept_putB hP
    | with_reducible apply kept_showForm hP | with_reducible apply kept_wrN hP | with_reducible apply kept_ite
    | with_reducible apply kept_foldl | with_reducible apply kept_foldl_fst | dsimp only

theorem kept_showStale (hP : Closed F P) (s : State) (d : Nat) (b : Bool) (h0 : P s) : P (showStale s d b) := by
  unfold showStale
  try dsimp only
  repeat' first
    | with_reducible assumption | with_reducible apply kept_doubt hP | with_reducible apply kept_putB hP
    | dsimp only

theorem kept_execServiceViewRx (hP : Closed F P) (hports : F .ports) (d : Fin 4) (s : State) (h0 : P s) : After P
    (execServiceViewRx d s) := by
  unfold execServiceViewRx
  try dsimp only
  repeat' first
    | with_reducible assumption | with_reducible apply kept_showForms hP | with_reducible apply kept_showStale hP
    | with_reducible apply kept_updPd hP hports | with_reducible apply kept_ite | with_reducible apply after_next
    | with_reducible apply after_ite | with_reducible exact fits_PortDie (fits_same _ _)
    | with_reducible exact fits_PortDie (fits_upd _ _ _ _) | with_reducible exact fits_PortDie (fits_set _ _ _ _)
    | with_reducible exact fits_PortDie (fits_map _ _ _) | with_reducible exact fits_PortDie (fits_replicate _ _ _)
    | with_reducible exact fits_same _ _ | with_reducible exact fits_upd _ _ _ _
    | with_reducible exact fits_set _ _ _ _ | with_reducible exact fits_map _ _ _
    | with_reducible exact fits_replicate _ _ _ | with_reducible exact fun _ => fits_PortDie (fits_same _ _)
    | with_reducible exact fun _ => fits_PortDie (fits_upd _ _ _ _)
    | with_reducible exact fun _ => fits_PortDie (fits_set _ _ _ _)
    | with_reducible exact fun _ => fits_PortDie (fits_map _ _ _)
    | with_reducible exact fun _ => fits_PortDie (fits_replicate _ _ _)
    | with_reducible exact fun _ => fits_same _ _ | with_reducible exact fun _ => fits_upd _ _ _ _
    | with_reducible exact fun _ => fits_set _ _ _ _ | with_reducible exact fun _ => fits_map _ _ _
    | with_reducible exact fun _ => fits_replicate _ _ _ | dsimp only

theorem kept_execAnsView (hP : Closed F P) (hclk : F .clk) (d : Fin 4) (s : State) (h0 : P s) : After P (execAnsView
    d s) := by
  unfold execAnsView
  try dsimp only
  repeat' first
    | with_reducible assumption | with_reducible apply kept_advMono hP hclk | with_reducible apply kept_raise hP
    | with_reducible apply kept_showForms hP | with_reducible apply kept_showStale hP
    | with_reducible apply kept_ite | with_reducible apply after_next | with_reducible apply after_ite | split
    | dsimp only

theorem kept_execSafeLineChange (hP : Closed F P) (hports : F .ports) (d : Fin 4) (driven : Bool) (s : State) (h0 :
    P s) : After P (execSafeLineChange d driven s) := by
  unfold execSafeLineChange
  try dsimp only
  repeat' first
    | with_reducible assumption | with_reducible apply kept_showForms hP | with_reducible apply kept_updPd hP hports
    | with_reducible apply kept_ite | with_reducible apply after_next | with_reducible apply after_ite
    | with_reducible exact fits_PortDie (fits_same _ _) | with_reducible exact fits_PortDie (fits_upd _ _ _ _)
    | with_reducible exact fits_PortDie (fits_set _ _ _ _) | with_reducible exact fits_PortDie (fits_map _ _ _)
    | with_reducible exact fits_PortDie (fits_replicate _ _ _) | with_reducible exact fits_same _ _
    | with_reducible exact fits_upd _ _ _ _ | with_reducible exact fits_set _ _ _ _
    | with_reducible exact fits_map _ _ _ | with_reducible exact fits_replicate _ _ _
    | with_reducible exact fun _ => fits_PortDie (fits_same _ _)
    | with_reducible exact fun _ => fits_PortDie (fits_upd _ _ _ _)
    | with_reducible exact fun _ => fits_PortDie (fits_set _ _ _ _)
    | with_reducible exact fun _ => fits_PortDie (fits_map _ _ _)
    | with_reducible exact fun _ => fits_PortDie (fits_replicate _ _ _)
    | with_reducible exact fun _ => fits_same _ _ | with_reducible exact fun _ => fits_upd _ _ _ _
    | with_reducible exact fun _ => fits_set _ _ _ _ | with_reducible exact fun _ => fits_map _ _ _
    | with_reducible exact fun _ => fits_replicate _ _ _ | dsimp only

/-! ### Nts -/

theorem kept_drawNonce (hP : Closed F P) (hports : F .ports) (s : State) (d : Nat) (h0 : P s) : P (drawNonce s d).1
    := by
  unfold drawNonce
  try dsimp only
  repeat' first
    | with_reducible assumption | with_reducible apply kept_drawn hP | with_reducible apply kept_updPd hP hports
    | with_reducible apply kept_ite | with_reducible apply kept_fst_ite
    | with_reducible exact fits_PortDie (fits_same _ _) | with_reducible exact fits_PortDie (fits_upd _ _ _ _)
    | with_reducible exact fits_PortDie (fits_set _ _ _ _) | with_reducible exact fits_PortDie (fits_map _ _ _)
    | with_reducible exact fits_PortDie (fits_replicate _ _ _) | with_reducible exact fits_same _ _
    | with_reducible exact fits_upd _ _ _ _ | with_reducible exact fits_set _ _ _ _
    | with_reducible exact fits_map _ _ _ | with_reducible exact fits_replicate _ _ _
    | with_reducible exact fun _ => fits_PortDie (fits_same _ _)
    | with_reducible exact fun _ => fits_PortDie (fits_upd _ _ _ _)
    | with_reducible exact fun _ => fits_PortDie (fits_set _ _ _ _)
    | with_reducible exact fun _ => fits_PortDie (fits_map _ _ _)
    | with_reducible exact fun _ => fits_PortDie (fits_replicate _ _ _)
    | with_reducible exact fun _ => fits_same _ _ | with_reducible exact fun _ => fits_upd _ _ _ _
    | with_reducible exact fun _ => fits_set _ _ _ _ | with_reducible exact fun _ => fits_map _ _ _
    | with_reducible exact fun _ => fits_replicate _ _ _ | dsimp only

theorem kept_mintFields (hP : Closed F P) (hports : F .ports) (d : Nat) (mk : MasterKey) (w : NtsWork) (k : Nat) (s : State) (h : P s) :
    P (mintFields d mk w k s).1 := by
  induction k generalizing s with
  | zero => exact h
  | succ k ih => exact ih _ (kept_drawNonce hP hports s d h)

end Sys2Proof.Machine
end

