-- ==== Sys2Proof/Laws/KeptKeys.lean ====
section
/-! SUPPORT. A property that survives the changes of Closed survives every function of: the key island, the key accelerator and the master clock. -/

set_option linter.unusedTactic false
set_option linter.unreachableTactic false
set_option linter.unusedVariables false

namespace Sys2Proof.Machine

variable {F : Part → Prop} {P : State → Prop}

/-! ### Keys -/

theorem kept_updKisl (hP : Closed F P) (hkisl : F .kisl) (s : State) (f : KeyIsland → KeyIsland) (h0 : P s) : P
    (updKisl s f) := by
  unfold updKisl
  try dsimp only
  repeat' first
    | with_reducible assumption | with_reducible exact Or.inl rfl | with_reducible exact Or.inr hkisl
    | with_reducible apply hP.others | with_reducible exact fits_same _ _ | with_reducible exact fits_upd _ _ _ _
    | with_reducible exact fits_set _ _ _ _ | with_reducible exact fits_map _ _ _
    | with_reducible exact fits_replicate _ _ _ | with_reducible exact fitsMck_same _
    | with_reducible exact fun _ => fits_same _ _ | with_reducible exact fun _ => fits_upd _ _ _ _
    | with_reducible exact fun _ => fits_set _ _ _ _ | with_reducible exact fun _ => fits_map _ _ _
    | with_reducible exact fun _ => fits_replicate _ _ _ | dsimp only

theorem kept_easeNtsKeys (hP : Closed F P) (s : State) (d : Nat) (h0 : P s) : P (easeNtsKeys s d) := by
  unfold easeNtsKeys
  try dsimp only
  repeat' first
    | with_reducible assumption | with_reducible apply kept_doubt hP | with_reducible apply kept_ite | dsimp only

theorem kept_showKeys (hP : Closed F P) (s : State) (h0 : P s) : P (showKeys s) := by
  unfold showKeys
  try dsimp only
  repeat' first
    | with_reducible assumption | intro _ | with_reducible apply kept_doubt hP
    | with_reducible apply kept_easeNtsKeys hP | with_reducible apply kept_put hP
    | with_reducible apply kept_putB hP | with_reducible apply kept_wr64 hP | with_reducible apply kept_wrN hP
    | with_reducible apply kept_ite | with_reducible apply kept_foldl | with_reducible apply kept_foldl_fst | split
    | dsimp only

theorem kept_showSiv (hP : Closed F P) (s : State) (d : Nat) (h0 : P s) : P (showSiv s d) := by
  unfold showSiv
  try dsimp only
  repeat' first
    | with_reducible assumption | intro _ | with_reducible apply kept_put hP | with_reducible apply kept_wrN hP
    | with_reducible apply kept_foldl | with_reducible apply kept_foldl_fst | dsimp only

theorem kept_keysReady (hP : Closed F P) (hports : F .ports) (s : State) (d : Nat) (b : Bool) (h0 : P s) : P
    (keysReady s d b) := by
  unfold keysReady
  try dsimp only
  repeat' first
    | with_reducible assumption | with_reducible apply kept_easeNtsKeys hP | with_reducible apply kept_putB hP
    | with_reducible apply kept_raiseIf hP | with_reducible apply kept_updPd hP hports
    | with_reducible apply kept_ite | with_reducible exact fits_PortDie (fits_same _ _)
    | with_reducible exact fits_PortDie (fits_upd _ _ _ _) | with_reducible exact fits_PortDie (fits_set _ _ _ _)
    | with_reducible exact fits_PortDie (fits_map _ _ _) | with_reducible exact fits_PortDie (fits_replicate _ _ _)
    | with_reducible exact fits_same _ _ | with_reducible exact fits_upd _ _ _ _
    | with_reducible exact fits_set _ _ _ _ | with_reducible exact fits_map _ _ _
    | with_reducible exact fits_replicate _ _ _ | with_reducible exact fun _ => fits_PortDie (fits_same _ _)
    | with_reducible exact fun _ => fits_PortDie (fits_upd _ _ _ _)
    | with_reducible exact fun _ => fits_PortDie (fits_set _ _ _ _)
    | with_reducible exact fun _ => fits_PortDie (fits_map _ _ _)
    | with_reducible exact fun _ => fits_PortDie (fits_replicate _ _ _)
    | with_reducible exact fun _ => fits_same _ _ | with_reducible exact fun _ => fits_upd _ _ _ _
    | with_reducible exact fun _ => fits_set _ _ _ _ | with_reducible exact fun _ => fits_map _ _ _
    | with_reducible exact fun _ => fits_replicate _ _ _ | dsimp only

theorem kept_crossSend (hP : Closed F P) (hkisl : F .kisl) (s : State) (d : Nat) (ks : List MasterKey) (h0 : P s) :
    P (crossSend s d ks) := by
  unfold crossSend
  try dsimp only
  repeat' first
    | with_reducible assumption | with_reducible apply kept_updKisl hP hkisl | dsimp only

theorem kept_crossAll (hP : Closed F P) (hkisl : F .kisl) (s : State) (d : Nat) (h0 : P s) : P (crossAll s d) := by
  unfold crossAll
  try dsimp only
  repeat' first
    | with_reducible assumption | with_reducible apply kept_crossSend hP hkisl | with_reducible apply kept_ite
    | dsimp only

theorem kept_storeKey (hP : Closed F P) (hports : F .ports) (s : State) (d : Nat) (k : MasterKey) (h0 : P s) : P
    (storeKey s d k) := by
  unfold storeKey
  try dsimp only
  repeat' first
    | with_reducible assumption | with_reducible apply kept_raise hP | with_reducible apply kept_updPd hP hports
    | with_reducible apply kept_ite | with_reducible exact fits_PortDie (fits_same _ _)
    | with_reducible exact fits_PortDie (fits_upd _ _ _ _) | with_reducible exact fits_PortDie (fits_set _ _ _ _)
    | with_reducible exact fits_PortDie (fits_map _ _ _) | with_reducible exact fits_PortDie (fits_replicate _ _ _)
    | with_reducible exact fits_same _ _ | with_reducible exact fits_upd _ _ _ _
    | with_reducible exact fits_set _ _ _ _ | with_reducible exact fits_map _ _ _
    | with_reducible exact fits_replicate _ _ _ | with_reducible exact fun _ => fits_PortDie (fits_same _ _)
    | with_reducible exact fun _ => fits_PortDie (fits_upd _ _ _ _)
    | with_reducible exact fun _ => fits_PortDie (fits_set _ _ _ _)
    | with_reducible exact fun _ => fits_PortDie (fits_map _ _ _)
    | with_reducible exact fun _ => fits_PortDie (fits_replicate _ _ _)
    | with_reducible exact fun _ => fits_same _ _ | with_reducible exact fun _ => fits_upd _ _ _ _
    | with_reducible exact fun _ => fits_set _ _ _ _ | with_reducible exact fun _ => fits_map _ _ _
    | with_reducible exact fun _ => fits_replicate _ _ _ | dsimp only

theorem kept_dieStates (hP : Closed F P) (hports : F .ports) (s : State) (d : Nat) (h0 : P s) : P (dieStates s d) :=
    by
  unfold dieStates
  try dsimp only
  repeat' first
    | with_reducible assumption | with_reducible apply kept_showSiv hP | with_reducible apply kept_updPd hP hports
    | with_reducible exact fits_PortDie (fits_same _ _) | with_reducible exact fits_PortDie (fits_upd _ _ _ _)
    | with_reducible exact fits_PortDie (fits_set _ _ _ _) | with_reducible exact fits_PortDie (fits_map _ _ _)
    | with_reducible exact fits_PortDie (fits_replicate _ _ _) | with_reducible exact fits_same _ _
    | with_reducible exact fits_upd _ _ _ _ | with_reducible exact fits_set _ _ _ _
    | with_reducible exact fits_map _ _ _ | with_reducible exact fits_replicate _ _ _
    | with_reducible exact fun _ => fits_PortDie (fits_same _ _)
    | with_reducible exact fun _ => fits_PortDie (fits_upd _ _ _ _)
    | with_reducible exact fun _ => fits_PortDie (fits_set _ _ _ _)
    | with_reducible exact fun _ => fits_PortDie (fits_map _ _ _)
    | with_reducible exact fun _ => fits_PortDie (fits_replicate _ _ _)
    | with_reducible exact fun _ => fits_same _ _ | with_reducible exact fun _ => fits_upd _ _ _ _
    | with_reducible exact fun _ => fits_set _ _ _ _ | with_reducible exact fun _ => fits_map _ _ _
    | with_reducible exact fun _ => fits_replicate _ _ _ | dsimp only

theorem kept_execCrossingRx (hP : Closed F P) (hports : F .ports) (hkisl : F .kisl) (d : Fin 4) (ok : Bool) (s :
    State) (h0 : P s) : After P (execCrossingRx d ok s) := by
  unfold execCrossingRx
  try dsimp only
  repeat' first
    | with_reducible assumption | intro _ | with_reducible apply kept_bump hP
    | with_reducible apply kept_dieStates hP hports | with_reducible apply kept_doubt hP
    | with_reducible apply kept_keysReady hP hports | with_reducible apply kept_raise hP
    | with_reducible apply kept_showKeys hP | with_reducible apply kept_storeKey hP hports
    | with_reducible apply kept_updKisl hP hkisl | with_reducible apply kept_updPd hP hports
    | with_reducible apply kept_ite | with_reducible apply kept_foldl | with_reducible apply kept_foldl_fst
    | with_reducible apply after_next | with_reducible apply after_ite
    | with_reducible exact fits_PortDie (fits_same _ _) | with_reducible exact fits_PortDie (fits_upd _ _ _ _)
    | with_reducible exact fits_PortDie (fits_set _ _ _ _) | with_reducible exact fits_PortDie (fits_map _ _ _)
    | with_reducible exact fits_PortDie (fits_replicate _ _ _) | with_reducible exact fits_same _ _
    | with_reducible exact fits_upd _ _ _ _ | with_reducible exact fits_set _ _ _ _
    | with_reducible exact fits_map _ _ _ | with_reducible exact fits_replicate _ _ _
    | with_reducible exact fun _ => fits_PortDie (fits_same _ _)
    | with_reducible exact fun _ => fits_PortDie (fits_upd _ _ _ _)
    | with_reducible exact fun _ => fits_PortDie (fits_set _ _ _ _)
    | with_reducible exact fun _ => fits_PortDie (fits_map _ _ _)
    | with_reducible exact fun _ => fits_PortDie (fits_replicate _ _ _)
    | with_reducible exact fun _ => fits_same _ _ | with_reducible exact fun _ => fits_upd _ _ _ _
    | with_reducible exact fun _ => fits_set _ _ _ _ | with_reducible exact fun _ => fits_map _ _ _
    | with_reducible exact fun _ => fits_replicate _ _ _ | split | dsimp only

theorem kept_crossGiveUp (hP : Closed F P) (hkisl : F .kisl) (s : State) (d : Nat) (h0 : P s) : P (crossGiveUp s d)
    := by
  unfold crossGiveUp
  try dsimp only
  repeat' first
    | with_reducible assumption | with_reducible apply kept_bump hP | with_reducible apply kept_raise hP
    | with_reducible apply kept_updKisl hP hkisl | with_reducible apply kept_ite | dsimp only

theorem kept_resendKeyFrame (hP : Closed F P) (hlinks : F .links) (s : State) (k : Nat) (c : Nat) (h0 : P s) : P
    (resendKeyFrame s k c) := by
  unfold resendKeyFrame
  try dsimp only
  repeat' first
    | with_reducible assumption | with_reducible apply kept_bump hP | with_reducible apply kept_raise hP
    | with_reducible apply kept_showKeys hP | with_reducible apply kept_updLink hP hlinks
    | with_reducible apply kept_updPeer hP hlinks | with_reducible apply kept_ite
    | with_reducible exact fits_AskLink (fits_same _ _) | with_reducible exact fits_AskLink (fits_upd _ _ _ _)
    | with_reducible exact fits_AskLink (fits_set _ _ _ _) | with_reducible exact fits_AskLink (fits_map _ _ _)
    | with_reducible exact fits_AskLink (fits_replicate _ _ _) | with_reducible exact fits_same _ _
    | with_reducible exact fits_upd _ _ _ _ | with_reducible exact fits_set _ _ _ _
    | with_reducible exact fits_map _ _ _ | with_reducible exact fits_replicate _ _ _
    | with_reducible exact fun _ => fits_AskLink (fits_same _ _)
    | with_reducible exact fun _ => fits_AskLink (fits_upd _ _ _ _)
    | with_reducible exact fun _ => fits_AskLink (fits_set _ _ _ _)
    | with_reducible exact fun _ => fits_AskLink (fits_map _ _ _)
    | with_reducible exact fun _ => fits_AskLink (fits_replicate _ _ _)
    | with_reducible exact fun _ => fits_same _ _ | with_reducible exact fun _ => fits_upd _ _ _ _
    | with_reducible exact fun _ => fits_set _ _ _ _ | with_reducible exact fun _ => fits_map _ _ _
    | with_reducible exact fun _ => fits_replicate _ _ _ | split | dsimp only

theorem kept_execCrossingResend (hP : Closed F P) (hkisl : F .kisl) (hlinks : F .links) (t : Fin 20) (s : State) (h0
    : P s) : After P (execCrossingResend t s) := by
  unfold execCrossingResend
  try dsimp only
  repeat' first
    | with_reducible assumption | with_reducible apply kept_crossGiveUp hP hkisl
    | with_reducible apply kept_resendKeyFrame hP hlinks | with_reducible apply kept_updKisl hP hkisl
    | with_reducible apply kept_ite | with_reducible apply after_next | with_reducible apply after_ite | split
    | dsimp only

theorem kept_execSivCrossEnd (hP : Closed F P) (hclk : F .clk) (d : Fin 4) (s : State) (h0 : P s) : After P
    (execSivCrossEnd d s) := by
  unfold execSivCrossEnd
  try dsimp only
  repeat' first
    | with_reducible assumption | with_reducible apply kept_advMono hP hclk | with_reducible apply kept_doubt hP
    | with_reducible apply kept_ite | with_reducible apply after_next | with_reducible apply after_ite | dsimp only

theorem kept_crossUp (hP : Closed F P) (hports : F .ports) (hkisl : F .kisl) (s : State) (d : Nat) (h0 : P s) : P
    (crossUp s d) := by
  unfold crossUp
  try dsimp only
  repeat' first
    | with_reducible assumption | with_reducible apply kept_crossAll hP hkisl | with_reducible apply kept_putB hP
    | with_reducible apply kept_showKeys hP | with_reducible apply kept_showSiv hP
    | with_reducible apply kept_updKisl hP hkisl | with_reducible apply kept_updPd hP hports
    | with_reducible exact fits_PortDie (fits_same _ _) | with_reducible exact fits_PortDie (fits_upd _ _ _ _)
    | with_reducible exact fits_PortDie (fits_set _ _ _ _) | with_reducible exact fits_PortDie (fits_map _ _ _)
    | with_reducible exact fits_PortDie (fits_replicate _ _ _) | with_reducible exact fits_same _ _
    | with_reducible exact fits_upd _ _ _ _ | with_reducible exact fits_set _ _ _ _
    | with_reducible exact fits_map _ _ _ | with_reducible exact fits_replicate _ _ _
    | with_reducible exact fun _ => fits_PortDie (fits_same _ _)
    | with_reducible exact fun _ => fits_PortDie (fits_upd _ _ _ _)
    | with_reducible exact fun _ => fits_PortDie (fits_set _ _ _ _)
    | with_reducible exact fun _ => fits_PortDie (fits_map _ _ _)
    | with_reducible exact fun _ => fits_PortDie (fits_replicate _ _ _)
    | with_reducible exact fun _ => fits_same _ _ | with_reducible exact fun _ => fits_upd _ _ _ _
    | with_reducible exact fun _ => fits_set _ _ _ _ | with_reducible exact fun _ => fits_map _ _ _
    | with_reducible exact fun _ => fits_replicate _ _ _ | dsimp only

theorem kept_emptySiv (hP : Closed F P) (hports : F .ports) (hkisl : F .kisl) (s : State) (d : Nat) (h0 : P s) : P
    (emptySiv s d) := by
  unfold emptySiv
  try dsimp only
  repeat' first
    | with_reducible assumption | with_reducible apply kept_keysReady hP hports
    | with_reducible apply kept_showSiv hP | with_reducible apply kept_updKisl hP hkisl
    | with_reducible apply kept_updPd hP hports | with_reducible exact fits_PortDie (fits_same _ _)
    | with_reducible exact fits_PortDie (fits_upd _ _ _ _) | with_reducible exact fits_PortDie (fits_set _ _ _ _)
    | with_reducible exact fits_PortDie (fits_map _ _ _) | with_reducible exact fits_PortDie (fits_replicate _ _ _)
    | with_reducible exact fits_same _ _ | with_reducible exact fits_upd _ _ _ _
    | with_reducible exact fits_set _ _ _ _ | with_reducible exact fits_map _ _ _
    | with_reducible exact fits_replicate _ _ _ | with_reducible exact fun _ => fits_PortDie (fits_same _ _)
    | with_reducible exact fun _ => fits_PortDie (fits_upd _ _ _ _)
    | with_reducible exact fun _ => fits_PortDie (fits_set _ _ _ _)
    | with_reducible exact fun _ => fits_PortDie (fits_map _ _ _)
    | with_reducible exact fun _ => fits_PortDie (fits_replicate _ _ _)
    | with_reducible exact fun _ => fits_same _ _ | with_reducible exact fun _ => fits_upd _ _ _ _
    | with_reducible exact fun _ => fits_set _ _ _ _ | with_reducible exact fun _ => fits_map _ _ _
    | with_reducible exact fun _ => fits_replicate _ _ _ | dsimp only

theorem kept_refillSiv (hP : Closed F P) (hports : F .ports) (hkisl : F .kisl) (s : State) (d : Nat) (h0 : P s) : P
    (refillSiv s d) := by
  unfold refillSiv
  try dsimp only
  repeat' first
    | with_reducible assumption | with_reducible apply kept_crossAll hP hkisl
    | with_reducible apply kept_emptySiv hP hports hkisl | with_reducible apply kept_showKeys hP | dsimp only

theorem kept_dieErase (hP : Closed F P) (hports : F .ports) (s : State) (d : Nat) (id : Nat) (h0 : P s) : P
    (dieErase s d id) := by
  unfold dieErase
  try dsimp only
  repeat' first
    | with_reducible assumption | with_reducible apply kept_keysReady hP hports | with_reducible apply kept_raise hP
    | with_reducible apply kept_showSiv hP | with_reducible apply kept_updPd hP hports
    | with_reducible apply kept_ite | with_reducible exact fits_PortDie (fits_same _ _)
    | with_reducible exact fits_PortDie (fits_upd _ _ _ _) | with_reducible exact fits_PortDie (fits_set _ _ _ _)
    | with_reducible exact fits_PortDie (fits_map _ _ _) | with_reducible exact fits_PortDie (fits_replicate _ _ _)
    | with_reducible exact fits_same _ _ | with_reducible exact fits_upd _ _ _ _
    | with_reducible exact fits_set _ _ _ _ | with_reducible exact fits_map _ _ _
    | with_reducible exact fits_replicate _ _ _ | with_reducible exact fun _ => fits_PortDie (fits_same _ _)
    | with_reducible exact fun _ => fits_PortDie (fits_upd _ _ _ _)
    | with_reducible exact fun _ => fits_PortDie (fits_set _ _ _ _)
    | with_reducible exact fun _ => fits_PortDie (fits_map _ _ _)
    | with_reducible exact fun _ => fits_PortDie (fits_replicate _ _ _)
    | with_reducible exact fun _ => fits_same _ _ | with_reducible exact fun _ => fits_upd _ _ _ _
    | with_reducible exact fun _ => fits_set _ _ _ _ | with_reducible exact fun _ => fits_map _ _ _
    | with_reducible exact fun _ => fits_replicate _ _ _ | dsimp only

theorem kept_eraseOldest (hP : Closed F P) (hports : F .ports) (hkisl : F .kisl) (s : State) (h0 : P s) : P
    (eraseOldest s) := by
  unfold eraseOldest
  try dsimp only
  repeat' first
    | with_reducible assumption | intro _ | with_reducible apply kept_dieErase hP hports
    | with_reducible apply kept_raise hP | with_reducible apply kept_updKisl hP hkisl
    | with_reducible apply kept_foldl | with_reducible apply kept_foldl_fst | split | dsimp only

theorem kept_trimKeys (hP : Closed F P) (hports : F .ports) (hkisl : F .kisl) (s : State) (h0 : P s) : P (trimKeys
    s) := by
  unfold trimKeys
  try dsimp only
  repeat' first
    | with_reducible assumption | intro _ | with_reducible apply kept_eraseOldest hP hports hkisl
    | with_reducible apply kept_foldl | with_reducible apply kept_foldl_fst | dsimp only

theorem kept_dieActivate (hP : Closed F P) (hports : F .ports) (s : State) (d : Nat) (id : Nat) (h0 : P s) : P
    (dieActivate s d id) := by
  unfold dieActivate
  try dsimp only
  repeat' first
    | with_reducible assumption | with_reducible apply kept_dieStates hP hports | with_reducible apply kept_raise hP
    | with_reducible apply kept_ite | dsimp only

theorem kept_activate (hP : Closed F P) (hports : F .ports) (hkisl : F .kisl) (s : State) (id : Nat) (h0 : P s) : P
    (activate s id) := by
  unfold activate
  try dsimp only
  repeat' first
    | with_reducible assumption | intro _ | with_reducible apply kept_dieActivate hP hports
    | with_reducible apply kept_raise hP | with_reducible apply kept_showKeys hP
    | with_reducible apply kept_trimKeys hP hports hkisl | with_reducible apply kept_updKisl hP hkisl
    | with_reducible apply kept_ite | with_reducible apply kept_foldl | with_reducible apply kept_foldl_fst
    | dsimp only

theorem kept_execKeyActivate (hP : Closed F P) (hclk : F .clk) (hports : F .ports) (hkisl : F .kisl) (s : State) (h0
    : P s) : After P (execKeyActivate s) := by
  unfold execKeyActivate
  try dsimp only
  repeat' first
    | with_reducible assumption | with_reducible apply kept_activate hP hports hkisl
    | with_reducible apply kept_advPc hP hclk | with_reducible apply kept_ite | with_reducible apply after_next
    | with_reducible apply after_ite | split | dsimp only

theorem kept_addKey (hP : Closed F P) (hports : F .ports) (hkisl : F .kisl) (hlinks : F .links) (s : State) (k :
    MasterKey) (now : Bool) (h0 : P s) : P (addKey s k now) := by
  unfold addKey
  try dsimp only
  repeat' first
    | with_reducible assumption | intro _ | with_reducible apply kept_activate hP hports hkisl
    | with_reducible apply kept_crossSend hP hkisl | with_reducible apply kept_sendKeyDown hP hlinks
    | with_reducible apply kept_showKeys hP | with_reducible apply kept_updKisl hP hkisl
    | with_reducible apply kept_ite | with_reducible apply kept_foldl | with_reducible apply kept_foldl_fst | split
    | dsimp only

theorem kept_generate (hP : Closed F P) (hports : F .ports) (hkisl : F .kisl) (hlinks : F .links) (s : State) (h0 :
    P s) : P (generate s) := by
  unfold generate
  try dsimp only
  repeat' first
    | with_reducible assumption | with_reducible apply kept_addKey hP hports hkisl hlinks
    | with_reducible apply kept_bump hP | with_reducible apply kept_drawn hP | with_reducible apply kept_raise hP
    | with_reducible apply kept_updKisl hP hkisl | with_reducible apply kept_ite | split | dsimp only

theorem kept_generateIfNone (hP : Closed F P) (hports : F .ports) (hkisl : F .kisl) (hlinks : F .links) (s : State)
    (h0 : P s) : P (generateIfNone s) := by
  unfold generateIfNone
  try dsimp only
  repeat' first
    | with_reducible assumption | with_reducible apply kept_generate hP hports hkisl hlinks
    | with_reducible apply kept_updKisl hP hkisl | with_reducible apply kept_ite | dsimp only

theorem kept_execKeyGen (hP : Closed F P) (hclk : F .clk) (hports : F .ports) (hkisl : F .kisl) (hlinks : F .links)
    (s : State) (h0 : P s) : After P (execKeyGen s) := by
  unfold execKeyGen
  try dsimp only
  repeat' first
    | with_reducible assumption | with_reducible apply kept_advMono hP hclk
    | with_reducible apply kept_generate hP hports hkisl hlinks
    | with_reducible apply kept_generateIfNone hP hports hkisl hlinks | with_reducible apply kept_updKisl hP hkisl
    | with_reducible apply kept_ite | with_reducible apply after_next | with_reducible apply after_ite | dsimp only

theorem kept_rotate (hP : Closed F P) (hports : F .ports) (hkisl : F .kisl) (hlinks : F .links) (s : State) (h0 : P
    s) : P (rotate s) := by
  unfold rotate
  try dsimp only
  repeat' first
    | with_reducible assumption | with_reducible apply kept_generate hP hports hkisl hlinks
    | with_reducible apply kept_ite | dsimp only

theorem kept_execRotate (hP : Closed F P) (hports : F .ports) (hkisl : F .kisl) (hlinks : F .links) (r : Requester)
    (s : State) (h0 : P s) : After P (execRotate r s) := by
  unfold execRotate
  try dsimp only
  repeat' first
    | with_reducible assumption | intro _ | with_reducible apply kept_onWrite hP
    | with_reducible apply kept_rotate hP hports hkisl hlinks | with_reducible apply after_next | dsimp only

theorem kept_eraseAll (hP : Closed F P) (hports : F .ports) (hkisl : F .kisl) (s : State) (h0 : P s) : P (eraseAll
    s) := by
  unfold eraseAll
  try dsimp only
  repeat' first
    | with_reducible assumption | intro _ | with_reducible apply kept_eraseOldest hP hports hkisl
    | with_reducible apply kept_updKisl hP hkisl | with_reducible apply kept_foldl
    | with_reducible apply kept_foldl_fst | dsimp only

theorem kept_purge (hP : Closed F P) (hports : F .ports) (hkisl : F .kisl) (hlinks : F .links) (s : State) (h0 : P
    s) : P (purge s) := by
  unfold purge
  try dsimp only
  repeat' first
    | with_reducible assumption | with_reducible apply kept_eraseAll hP hports hkisl
    | with_reducible apply kept_generate hP hports hkisl hlinks | with_reducible apply kept_sendPurgeDown hP hlinks
    | with_reducible apply kept_showKeys hP | with_reducible apply kept_ite | dsimp only

theorem kept_execPurge (hP : Closed F P) (hports : F .ports) (hkisl : F .kisl) (hlinks : F .links) (r : Requester)
    (s : State) (h0 : P s) : After P (execPurge r s) := by
  unfold execPurge
  try dsimp only
  repeat' first
    | with_reducible assumption | intro _ | with_reducible apply kept_onWrite hP
    | with_reducible apply kept_purge hP hports hkisl hlinks | with_reducible apply after_next | dsimp only

theorem kept_distDoubt (hP : Closed F P) (hclk : F .clk) (s : State) (k : MasterKey) (h0 : P s) : P (distDoubt s k)
    := by
  unfold distDoubt
  try dsimp only
  repeat' first
    | with_reducible assumption | with_reducible apply kept_advPc hP hclk | with_reducible apply kept_doubt hP
    | with_reducible apply kept_ite | dsimp only

theorem kept_execKeyDist (hP : Closed F P) (hclk : F .clk) (s : State) (h0 : P s) : After P (execKeyDist s) := by
  unfold execKeyDist
  try dsimp only
  repeat' first
    | with_reducible assumption | with_reducible apply kept_distDoubt hP hclk | with_reducible apply after_next
    | split | dsimp only

theorem kept_execNtsKeys (hP : Closed F P) (hclk : F .clk) (d : Fin 4) (s : State) (h0 : P s) : After P (execNtsKeys
    d s) := by
  unfold execNtsKeys
  try dsimp only
  repeat' first
    | with_reducible assumption | with_reducible apply kept_advMono hP hclk
    | with_reducible apply kept_advPc hP hclk | with_reducible apply kept_doubt hP | with_reducible apply kept_ite
    | with_reducible apply after_next | with_reducible apply after_ite | split | dsimp only

theorem kept_execKeyUpstream (hP : Closed F P) (hclk : F .clk) (s : State) (h0 : P s) : After P (execKeyUpstream s)
    := by
  unfold execKeyUpstream
  try dsimp only
  repeat' first
    | with_reducible assumption | with_reducible apply kept_advMono hP hclk | with_reducible apply kept_doubt hP
    | with_reducible apply kept_ite | with_reducible apply after_next | with_reducible apply after_ite | split
    | dsimp only

theorem kept_execDrbgFail (hP : Closed F P) (s : State) (h0 : P s) : After P (execDrbgFail s) := by
  unfold execDrbgFail
  try dsimp only
  repeat' first
    | with_reducible assumption | with_reducible apply kept_bump hP | with_reducible apply kept_doubt hP
    | with_reducible apply kept_putB hP | with_reducible apply kept_raise hP | with_reducible apply kept_ite
    | with_reducible apply after_next | with_reducible apply after_ite | dsimp only

theorem kept_reseed (hP : Closed F P) (hports : F .ports) (s : State) (d : Nat) (h0 : P s) : P (reseed s d) := by
  unfold reseed
  try dsimp only
  repeat' first
    | with_reducible assumption | with_reducible apply kept_updPd hP hports | with_reducible apply kept_ite
    | with_reducible exact fits_PortDie (fits_same _ _) | with_reducible exact fits_PortDie (fits_upd _ _ _ _)
    | with_reducible exact fits_PortDie (fits_set _ _ _ _) | with_reducible exact fits_PortDie (fits_map _ _ _)
    | with_reducible exact fits_PortDie (fits_replicate _ _ _) | with_reducible exact fits_same _ _
    | with_reducible exact fits_upd _ _ _ _ | with_reducible exact fits_set _ _ _ _
    | with_reducible exact fits_map _ _ _ | with_reducible exact fits_replicate _ _ _
    | with_reducible exact fun _ => fits_PortDie (fits_same _ _)
    | with_reducible exact fun _ => fits_PortDie (fits_upd _ _ _ _)
    | with_reducible exact fun _ => fits_PortDie (fits_set _ _ _ _)
    | with_reducible exact fun _ => fits_PortDie (fits_map _ _ _)
    | with_reducible exact fun _ => fits_PortDie (fits_replicate _ _ _)
    | with_reducible exact fun _ => fits_same _ _ | with_reducible exact fun _ => fits_upd _ _ _ _
    | with_reducible exact fun _ => fits_set _ _ _ _ | with_reducible exact fun _ => fits_map _ _ _
    | with_reducible exact fun _ => fits_replicate _ _ _ | dsimp only

theorem kept_execDrbgRecover (hP : Closed F P) (hports : F .ports) (hkisl : F .kisl) (hlinks : F .links) (s : State)
    (h0 : P s) : After P (execDrbgRecover s) := by
  unfold execDrbgRecover
  try dsimp only
  repeat' first
    | with_reducible assumption | intro _ | with_reducible apply kept_doubt hP
    | with_reducible apply kept_generate hP hports hkisl hlinks | with_reducible apply kept_putB hP
    | with_reducible apply kept_reseed hP hports | with_reducible apply kept_ite | with_reducible apply kept_foldl
    | with_reducible apply kept_foldl_fst | with_reducible apply after_next | with_reducible apply after_ite
    | dsimp only

theorem kept_wipeKeys (hP : Closed F P) (hcore : F .core) (hharts : F .harts) (s : State) (a : Nat) (h0 : P s) : P
    (wipeKeys s a) := by
  unfold wipeKeys
  try dsimp only
  repeat' first
    | with_reducible assumption | with_reducible apply kept_writeCore hP hcore hharts
    | with_reducible apply kept_ite | dsimp only

theorem kept_startMint (hP : Closed F P) (hkisl : F .kisl) (hcore : F .core) (hharts : F .harts) (s : State) (a :
    Nat) (h0 : P s) : P (startMint s a) := by
  unfold startMint
  try dsimp only
  repeat' first
    | with_reducible assumption | with_reducible apply kept_put hP | with_reducible apply kept_putB hP
    | with_reducible apply kept_updKisl hP hkisl | with_reducible apply kept_wipeKeys hP hcore hharts | dsimp only

theorem kept_refuseMint (hP : Closed F P) (hcore : F .core) (hharts : F .harts) (s : State) (a : Nat) (why : Nat)
    (h0 : P s) : P (refuseMint s a why) := by
  unfold refuseMint
  try dsimp only
  repeat' first
    | with_reducible assumption | with_reducible apply kept_put hP | with_reducible apply kept_putB hP
    | with_reducible apply kept_raise hP | with_reducible apply kept_wipeKeys hP hcore hharts
    | with_reducible apply kept_ite | dsimp only

theorem kept_execMint (hP : Closed F P) (hkisl : F .kisl) (hcore : F .core) (hharts : F .harts) (r : Requester) (s :
    State) (h0 : P s) : After P (execMint r s) := by
  unfold execMint
  try dsimp only
  repeat' first
    | with_reducible assumption | intro _ | with_reducible apply kept_onWrite hP | with_reducible apply kept_putB hP
    | with_reducible apply kept_refuseMint hP hcore hharts
    | with_reducible apply kept_startMint hP hkisl hcore hharts | with_reducible apply kept_ite
    | with_reducible apply after_next | with_reducible apply after_ite | split | dsimp only

theorem kept_mintCookies (hP : Closed F P) (j : MintJob) (mk : MasterKey) (n : Nat) (s : State) (h : P s) :
    P (mintCookies j mk n s).1 := by
  induction n generalizing s with
  | zero => exact h
  | succ n ih => exact ih _ (kept_drawn hP s h)

theorem kept_execMintDone (hP : Closed F P) (hkisl : F .kisl) (hcore : F .core) (hharts : F .harts) (s : State) (h0
    : P s) : After P (execMintDone s) := by
  unfold execMintDone
  try dsimp only
  repeat' first
    | with_reducible assumption | with_reducible apply kept_bumpBy hP | with_reducible apply kept_mintCookies hP
    | with_reducible apply kept_putB hP | with_reducible apply kept_raise hP
    | with_reducible apply kept_updKisl hP hkisl | with_reducible apply kept_writeCore hP hcore hharts
    | with_reducible apply kept_ite | with_reducible apply kept_fst_ite | with_reducible apply after_next
    | with_reducible apply after_ite | split | dsimp only

theorem kept_dropMint (hP : Closed F P) (hkisl : F .kisl) (s : State) (h0 : P s) : P (dropMint s) := by
  unfold dropMint
  try dsimp only
  repeat' first
    | with_reducible assumption | with_reducible apply kept_putB hP | with_reducible apply kept_updKisl hP hkisl
    | dsimp only

theorem kept_keysLost (hP : Closed F P) (hports : F .ports) (hkisl : F .kisl) (hlinks : F .links) (s : State) (h0 :
    P s) : P (keysLost s) := by
  unfold keysLost
  try dsimp only
  repeat' first
    | with_reducible assumption | intro _ | with_reducible apply kept_emptySiv hP hports hkisl
    | with_reducible apply kept_putB hP | with_reducible apply kept_showKeys hP
    | with_reducible apply kept_updKisl hP hkisl | with_reducible apply kept_updPeer hP hlinks
    | with_reducible apply kept_foldl | with_reducible apply kept_foldl_fst | dsimp only

theorem kept_takeUpKey (hP : Closed F P) (hports : F .ports) (hkisl : F .kisl) (hlinks : F .links) (s : State) (k :
    MasterKey) (period : Nat) (h0 : P s) : P (takeUpKey s k period) := by
  unfold takeUpKey
  try dsimp only
  repeat' first
    | with_reducible assumption | intro _ | with_reducible apply kept_addKey hP hports hkisl hlinks
    | with_reducible apply kept_crossSend hP hkisl | with_reducible apply kept_doubt hP
    | with_reducible apply kept_raise hP | with_reducible apply kept_sendKeyDown hP hlinks
    | with_reducible apply kept_showKeys hP | with_reducible apply kept_updKisl hP hkisl
    | with_reducible apply kept_ite | with_reducible apply kept_foldl | with_reducible apply kept_foldl_fst
    | dsimp only

theorem kept_takeUpPurge (hP : Closed F P) (hports : F .ports) (hkisl : F .kisl) (hlinks : F .links) (s : State) (h0
    : P s) : P (takeUpPurge s) := by
  unfold takeUpPurge
  try dsimp only
  repeat' first
    | with_reducible assumption | with_reducible apply kept_eraseAll hP hports hkisl
    | with_reducible apply kept_sendPurgeDown hP hlinks | with_reducible apply kept_showKeys hP | dsimp only

/-! ### Pke -/

theorem kept_updPke (hP : Closed F P) (hpke : F .pke) (s : State) (f : Pke → Pke)
    (hf : ∀ x, Fits 16 (f x).lanes.length x.lanes.length) (h : P s) : P (updPke s f) := by
  unfold updPke
  with_reducible apply hP.others <;> first | exact Or.inl rfl | exact Or.inr (by assumption) | exact h | exact fitsMck_same _ | with_reducible exact fits_same _ _ | exact hf _

theorem kept_putSlot (hP : Closed F P) (hpke : F .pke) (s : State) (n : Nat) (v : Nat) (h0 : P s) : P (putSlot s n
    v) := by
  unfold putSlot
  try dsimp only
  repeat' first
    | with_reducible assumption | with_reducible apply kept_updPke hP hpke | with_reducible apply kept_ite
    | with_reducible exact fits_Pke (fits_same _ _) | with_reducible exact fits_Pke (fits_upd _ _ _ _)
    | with_reducible exact fits_Pke (fits_set _ _ _ _) | with_reducible exact fits_Pke (fits_map _ _ _)
    | with_reducible exact fits_Pke (fits_replicate _ _ _) | with_reducible exact fits_same _ _
    | with_reducible exact fits_upd _ _ _ _ | with_reducible exact fits_set _ _ _ _
    | with_reducible exact fits_map _ _ _ | with_reducible exact fits_replicate _ _ _
    | with_reducible exact fun _ => fits_Pke (fits_same _ _)
    | with_reducible exact fun _ => fits_Pke (fits_upd _ _ _ _)
    | with_reducible exact fun _ => fits_Pke (fits_set _ _ _ _)
    | with_reducible exact fun _ => fits_Pke (fits_map _ _ _)
    | with_reducible exact fun _ => fits_Pke (fits_replicate _ _ _) | with_reducible exact fun _ => fits_same _ _
    | with_reducible exact fun _ => fits_upd _ _ _ _ | with_reducible exact fun _ => fits_set _ _ _ _
    | with_reducible exact fun _ => fits_map _ _ _ | with_reducible exact fun _ => fits_replicate _ _ _ | dsimp only

theorem kept_giveSlot (hP : Closed F P) (hpke : F .pke) (s : State) (n : Nat) (o : Nat) (h0 : P s) : P (giveSlot s n
    o) := by
  unfold giveSlot
  try dsimp only
  repeat' first
    | with_reducible assumption | with_reducible apply kept_putSlot hP hpke
    | with_reducible apply kept_updPke hP hpke | with_reducible apply kept_ite
    | with_reducible exact fits_Pke (fits_same _ _) | with_reducible exact fits_Pke (fits_upd _ _ _ _)
    | with_reducible exact fits_Pke (fits_set _ _ _ _) | with_reducible exact fits_Pke (fits_map _ _ _)
    | with_reducible exact fits_Pke (fits_replicate _ _ _) | with_reducible exact fits_same _ _
    | with_reducible exact fits_upd _ _ _ _ | with_reducible exact fits_set _ _ _ _
    | with_reducible exact fits_map _ _ _ | with_reducible exact fits_replicate _ _ _
    | with_reducible exact fun _ => fits_Pke (fits_same _ _)
    | with_reducible exact fun _ => fits_Pke (fits_upd _ _ _ _)
    | with_reducible exact fun _ => fits_Pke (fits_set _ _ _ _)
    | with_reducible exact fun _ => fits_Pke (fits_map _ _ _)
    | with_reducible exact fun _ => fits_Pke (fits_replicate _ _ _) | with_reducible exact fun _ => fits_same _ _
    | with_reducible exact fun _ => fits_upd _ _ _ _ | with_reducible exact fun _ => fits_set _ _ _ _
    | with_reducible exact fun _ => fits_map _ _ _ | with_reducible exact fun _ => fits_replicate _ _ _ | dsimp only

theorem kept_updLane (hP : Closed F P) (hpke : F .pke) (s : State) (l : Nat) (f : PkeLane → PkeLane) (h0 : P s) : P
    (updLane s l f) := by
  unfold updLane
  try dsimp only
  repeat' first
    | with_reducible assumption | with_reducible apply kept_updPke hP hpke
    | with_reducible exact fits_Pke (fits_same _ _) | with_reducible exact fits_Pke (fits_upd _ _ _ _)
    | with_reducible exact fits_Pke (fits_set _ _ _ _) | with_reducible exact fits_Pke (fits_map _ _ _)
    | with_reducible exact fits_Pke (fits_replicate _ _ _) | with_reducible exact fits_same _ _
    | with_reducible exact fits_upd _ _ _ _ | with_reducible exact fits_set _ _ _ _
    | with_reducible exact fits_map _ _ _ | with_reducible exact fits_replicate _ _ _
    | with_reducible exact fun _ => fits_Pke (fits_same _ _)
    | with_reducible exact fun _ => fits_Pke (fits_upd _ _ _ _)
    | with_reducible exact fun _ => fits_Pke (fits_set _ _ _ _)
    | with_reducible exact fun _ => fits_Pke (fits_map _ _ _)
    | with_reducible exact fun _ => fits_Pke (fits_replicate _ _ _) | with_reducible exact fun _ => fits_same _ _
    | with_reducible exact fun _ => fits_upd _ _ _ _ | with_reducible exact fun _ => fits_set _ _ _ _
    | with_reducible exact fun _ => fits_map _ _ _ | with_reducible exact fun _ => fits_replicate _ _ _ | dsimp only

theorem kept_showLane (hP : Closed F P) (s : State) (l : Nat) (h0 : P s) : P (showLane s l) := by
  unfold showLane
  try dsimp only
  repeat' first
    | with_reducible assumption | with_reducible apply kept_put hP | with_reducible apply kept_putB hP | dsimp only

theorem kept_runJob (hP : Closed F P) (hpke : F .pke) (s : State) (l : Nat) (j : PkeJob) (h0 : P s) : P (runJob s l
    j) := by
  unfold runJob
  try dsimp only
  repeat' first
    | with_reducible assumption | with_reducible apply kept_updLane hP hpke | dsimp only

theorem kept_nextJob (hP : Closed F P) (hpke : F .pke) (s : State) (l : Nat) (h0 : P s) : P (nextJob s l) := by
  unfold nextJob
  try dsimp only
  repeat' first
    | with_reducible assumption | with_reducible apply kept_runJob hP hpke | with_reducible apply kept_showLane hP
    | with_reducible apply kept_updLane hP hpke | split | dsimp only

theorem kept_writeBlock (hP : Closed F P) (hcore : F .core) (hpke : F .pke) (hharts : F .harts) (s : State) (owner :
    Nat) (a : Nat) (v : Nat) (h0 : P s) : P (writeBlock s owner a v) := by
  unfold writeBlock
  try dsimp only
  repeat' first
    | with_reducible assumption | intro _ | with_reducible apply kept_updPke hP hpke
    | with_reducible apply kept_writeCore hP hcore hharts | with_reducible apply kept_ite
    | with_reducible apply kept_foldl | with_reducible apply kept_foldl_fst
    | with_reducible exact fits_Pke (fits_same _ _) | with_reducible exact fits_Pke (fits_upd _ _ _ _)
    | with_reducible exact fits_Pke (fits_set _ _ _ _) | with_reducible exact fits_Pke (fits_map _ _ _)
    | with_reducible exact fits_Pke (fits_replicate _ _ _) | with_reducible exact fits_same _ _
    | with_reducible exact fits_upd _ _ _ _ | with_reducible exact fits_set _ _ _ _
    | with_reducible exact fits_map _ _ _ | with_reducible exact fits_replicate _ _ _
    | with_reducible exact fun _ => fits_Pke (fits_same _ _)
    | with_reducible exact fun _ => fits_Pke (fits_upd _ _ _ _)
    | with_reducible exact fun _ => fits_Pke (fits_set _ _ _ _)
    | with_reducible exact fun _ => fits_Pke (fits_map _ _ _)
    | with_reducible exact fun _ => fits_Pke (fits_replicate _ _ _) | with_reducible exact fun _ => fits_same _ _
    | with_reducible exact fun _ => fits_upd _ _ _ _ | with_reducible exact fun _ => fits_set _ _ _ _
    | with_reducible exact fun _ => fits_map _ _ _ | with_reducible exact fun _ => fits_replicate _ _ _ | dsimp only

theorem kept_showLast (hP : Closed F P) (s : State) (l : Nat) (j : PkeJob) (cause : Nat) (h0 : P s) : P (showLast s
    l j cause) := by
  unfold showLast
  try dsimp only
  repeat' first
    | with_reducible assumption | with_reducible apply kept_wrN hP | dsimp only

theorem kept_endPkeJob (hP : Closed F P) (hcore : F .core) (hpke : F .pke) (hharts : F .harts) (s : State) (l : Nat)
    (j : PkeJob) (cause : Nat) (h0 : P s) : P (endPkeJob s l j cause) := by
  unfold endPkeJob
  try dsimp only
  repeat' first
    | with_reducible assumption | intro _ | with_reducible apply kept_bump hP | with_reducible apply kept_raise hP
    | with_reducible apply kept_showLast hP | with_reducible apply kept_writeBlock hP hcore hpke hharts
    | with_reducible apply kept_ite | with_reducible apply kept_foldl | with_reducible apply kept_foldl_fst
    | dsimp only

theorem kept_abortJob (hP : Closed F P) (hcore : F .core) (hpke : F .pke) (hharts : F .harts) (s : State) (l : Nat)
    (cause : Nat) (j : PkeJob) (h0 : P s) : P (abortJob s l cause j) := by
  unfold abortJob
  try dsimp only
  repeat' first
    | with_reducible assumption | with_reducible apply kept_endPkeJob hP hcore hpke hharts
    | with_reducible apply kept_updLane hP hpke | dsimp only

theorem kept_abortLane (hP : Closed F P) (hcore : F .core) (hpke : F .pke) (hharts : F .harts) (s : State) (cause :
    Nat) (l : Nat) (h0 : P s) : P (abortLane s cause l) := by
  unfold abortLane
  try dsimp only
  repeat' first
    | with_reducible assumption | intro _ | with_reducible apply kept_abortJob hP hcore hpke hharts
    | with_reducible apply kept_showLane hP | with_reducible apply kept_foldl | with_reducible apply kept_foldl_fst
    | dsimp only

theorem kept_abortNaming (hP : Closed F P) (hcore : F .core) (hpke : F .pke) (hharts : F .harts) (s : State) (first
    : Nat) (count : Nat) (h0 : P s) : P (abortNaming s first count) := by
  unfold abortNaming
  try dsimp only
  repeat' first
    | with_reducible assumption | intro _ | with_reducible apply kept_abortJob hP hcore hpke hharts
    | with_reducible apply kept_nextJob hP hpke | with_reducible apply kept_foldl
    | with_reducible apply kept_foldl_fst | dsimp only

theorem kept_slotFields (hP : Closed F P) (s : State) (q : Nat) (op : Nat) (first : Nat) (count : Nat) (ctx : Nat)
    (h0 : P s) : P (slotFields s q op first count ctx) := by
  unfold slotFields
  try dsimp only
  repeat' first
    | with_reducible assumption | with_reducible apply kept_wrB hP | dsimp only

theorem kept_slotStat (hP : Closed F P) (s : State) (q : Nat) (busy : Nat) (done : Nat) (err : Nat) (owner : Nat)
    (h0 : P s) : P (slotStat s q busy done err owner) := by
  unfold slotStat
  try dsimp only
  repeat' first
    | with_reducible assumption | with_reducible apply kept_wrB hP | dsimp only

theorem kept_showSlotBusy (hP : Closed F P) (s : State) (h0 : P s) : P (showSlotBusy s) := by
  unfold showSlotBusy
  try dsimp only
  repeat' first
    | with_reducible assumption | with_reducible apply kept_putB hP | dsimp only

theorem kept_slotGo (hP : Closed F P) (hcore : F .core) (hpke : F .pke) (hharts : F .harts) (s : State) (r :
    Requester) (op : Nat) (first : Nat) (count : Nat) (ctx : Nat) (h0 : P s) : P (slotGo s r op first count ctx) := by
  unfold slotGo
  try dsimp only
  repeat' first
    | with_reducible assumption | with_reducible apply kept_abortNaming hP hcore hpke hharts
    | with_reducible apply kept_raise hP | with_reducible apply kept_showSlotBusy hP
    | with_reducible apply kept_slotFields hP | with_reducible apply kept_slotStat hP
    | with_reducible apply kept_updPke hP hpke | with_reducible apply kept_ite
    | with_reducible exact fits_Pke (fits_same _ _) | with_reducible exact fits_Pke (fits_upd _ _ _ _)
    | with_reducible exact fits_Pke (fits_set _ _ _ _) | with_reducible exact fits_Pke (fits_map _ _ _)
    | with_reducible exact fits_Pke (fits_replicate _ _ _) | with_reducible exact fits_same _ _
    | with_reducible exact fits_upd _ _ _ _ | with_reducible exact fits_set _ _ _ _
    | with_reducible exact fits_map _ _ _ | with_reducible exact fits_replicate _ _ _
    | with_reducible exact fun _ => fits_Pke (fits_same _ _)
    | with_reducible exact fun _ => fits_Pke (fits_upd _ _ _ _)
    | with_reducible exact fun _ => fits_Pke (fits_set _ _ _ _)
    | with_reducible exact fun _ => fits_Pke (fits_map _ _ _)
    | with_reducible exact fun _ => fits_Pke (fits_replicate _ _ _) | with_reducible exact fun _ => fits_same _ _
    | with_reducible exact fun _ => fits_upd _ _ _ _ | with_reducible exact fun _ => fits_set _ _ _ _
    | with_reducible exact fun _ => fits_map _ _ _ | with_reducible exact fun _ => fits_replicate _ _ _ | dsimp only

theorem kept_execSlotClaim (hP : Closed F P) (hcore : F .core) (hpke : F .pke) (hharts : F .harts) (r : Requester)
    (first : Fin 4096) (count : Fin 256) (ctx : Fin 8) (s : State) (h0 : P s) : After P (execSlotClaim r first count ctx
    s) := by
  unfold execSlotClaim
  try dsimp only
  repeat' first
    | with_reducible assumption | intro _ | with_reducible apply kept_onWrite hP
    | with_reducible apply kept_slotGo hP hcore hpke hharts | with_reducible apply after_next | dsimp only

theorem kept_execSlotReleaseCmd (hP : Closed F P) (hcore : F .core) (hpke : F .pke) (hharts : F .harts) (r :
    Requester) (first : Fin 4096) (count : Fin 256) (ctx : Fin 8) (s : State) (h0 : P s) : After P (execSlotReleaseCmd r
    first count ctx s) := by
  unfold execSlotReleaseCmd
  try dsimp only
  repeat' first
    | with_reducible assumption | intro _ | with_reducible apply kept_onWrite hP
    | with_reducible apply kept_slotGo hP hcore hpke hharts | with_reducible apply after_next | dsimp only

theorem kept_execSlotRevoke (hP : Closed F P) (hcore : F .core) (hpke : F .pke) (hharts : F .harts) (r : Requester)
    (first : Fin 4096) (count : Fin 256) (s : State) (h0 : P s) : After P (execSlotRevoke r first count s) := by
  unfold execSlotRevoke
  try dsimp only
  repeat' first
    | with_reducible assumption | intro _ | with_reducible apply kept_onWrite hP
    | with_reducible apply kept_slotGo hP hcore hpke hharts | with_reducible apply after_next | dsimp only

theorem kept_execSlotQuery (hP : Closed F P) (hcore : F .core) (hpke : F .pke) (hharts : F .harts) (r : Requester)
    (first : Fin 4096) (count : Fin 256) (s : State) (h0 : P s) : After P (execSlotQuery r first count s) := by
  unfold execSlotQuery
  try dsimp only
  repeat' first
    | with_reducible assumption | intro _ | with_reducible apply kept_onWrite hP
    | with_reducible apply kept_slotGo hP hcore hpke hharts | with_reducible apply after_next | dsimp only

theorem kept_execSlotDone (hP : Closed F P) (hpke : F .pke) (r : Requester) (s : State) (h0 : P s) : After P
    (execSlotDone r s) := by
  unfold execSlotDone
  try dsimp only
  repeat' first
    | with_reducible assumption | intro _ | with_reducible apply kept_bumpBy hP
    | with_reducible apply kept_giveSlot hP hpke | with_reducible apply kept_raise hP
    | with_reducible apply kept_record hP | with_reducible apply kept_showSlotBusy hP
    | with_reducible apply kept_slotStat hP | with_reducible apply kept_updPke hP hpke
    | with_reducible apply kept_ite | with_reducible apply kept_foldl | with_reducible apply kept_foldl_fst
    | with_reducible apply after_next | with_reducible apply after_ite
    | with_reducible exact fits_Pke (fits_same _ _) | with_reducible exact fits_Pke (fits_upd _ _ _ _)
    | with_reducible exact fits_Pke (fits_set _ _ _ _) | with_reducible exact fits_Pke (fits_map _ _ _)
    | with_reducible exact fits_Pke (fits_replicate _ _ _) | with_reducible exact fits_same _ _
    | with_reducible exact fits_upd _ _ _ _ | with_reducible exact fits_set _ _ _ _
    | with_reducible exact fits_map _ _ _ | with_reducible exact fits_replicate _ _ _
    | with_reducible exact fun _ => fits_Pke (fits_same _ _)
    | with_reducible exact fun _ => fits_Pke (fits_upd _ _ _ _)
    | with_reducible exact fun _ => fits_Pke (fits_set _ _ _ _)
    | with_reducible exact fun _ => fits_Pke (fits_map _ _ _)
    | with_reducible exact fun _ => fits_Pke (fits_replicate _ _ _) | with_reducible exact fun _ => fits_same _ _
    | with_reducible exact fun _ => fits_upd _ _ _ _ | with_reducible exact fun _ => fits_set _ _ _ _
    | with_reducible exact fun _ => fits_map _ _ _ | with_reducible exact fun _ => fits_replicate _ _ _ | split
    | dsimp only

theorem kept_wipeSet (hP : Closed F P) (hpke : F .pke) (s : State) (k : Nat) (h0 : P s) : P (wipeSet s k) := by
  unfold wipeSet
  try dsimp only
  repeat' first
    | with_reducible assumption | with_reducible apply kept_updPke hP hpke
    | with_reducible exact fits_Pke (fits_same _ _) | with_reducible exact fits_Pke (fits_upd _ _ _ _)
    | with_reducible exact fits_Pke (fits_set _ _ _ _) | with_reducible exact fits_Pke (fits_map _ _ _)
    | with_reducible exact fits_Pke (fits_replicate _ _ _) | with_reducible exact fits_same _ _
    | with_reducible exact fits_upd _ _ _ _ | with_reducible exact fits_set _ _ _ _
    | with_reducible exact fits_map _ _ _ | with_reducible exact fits_replicate _ _ _
    | with_reducible exact fun _ => fits_Pke (fits_same _ _)
    | with_reducible exact fun _ => fits_Pke (fits_upd _ _ _ _)
    | with_reducible exact fun _ => fits_Pke (fits_set _ _ _ _)
    | with_reducible exact fun _ => fits_Pke (fits_map _ _ _)
    | with_reducible exact fun _ => fits_Pke (fits_replicate _ _ _) | with_reducible exact fun _ => fits_same _ _
    | with_reducible exact fun _ => fits_upd _ _ _ _ | with_reducible exact fun _ => fits_set _ _ _ _
    | with_reducible exact fun _ => fits_map _ _ _ | with_reducible exact fun _ => fits_replicate _ _ _ | dsimp only

theorem kept_setLens (hP : Closed F P) (hpke : F .pke) (s : State) (hi : Bool) (v : Nat) (h0 : P s) : P (setLens s
    hi v) := by
  unfold setLens
  try dsimp only
  repeat' first
    | with_reducible assumption | intro _ | with_reducible apply kept_put hP | with_reducible apply kept_raise hP
    | with_reducible apply kept_wipeSet hP hpke | with_reducible apply kept_ite | with_reducible apply kept_foldl
    | with_reducible apply kept_foldl_fst | dsimp only

theorem kept_execSetLenWrite (hP : Closed F P) (hpke : F .pke) (r : Requester) (hi : Bool) (v : Word) (s : State)
    (h0 : P s) : After P (execSetLenWrite r hi v s) := by
  unfold execSetLenWrite
  try dsimp only
  repeat' first
    | with_reducible assumption | intro _ | with_reducible apply kept_lockViol hP
    | with_reducible apply kept_onWrite hP | with_reducible apply kept_setLens hP hpke
    | with_reducible apply kept_ite | with_reducible apply after_next | with_reducible apply after_ite | dsimp only

theorem kept_refusePkeJob (hP : Closed F P) (s : State) (l : Nat) (q : Nat) (why : Nat) (h0 : P s) : P (refusePkeJob
    s l q why) := by
  unfold refusePkeJob
  try dsimp only
  repeat' first
    | with_reducible assumption | with_reducible apply kept_bump hP | with_reducible apply kept_putQ hP
    | with_reducible apply kept_raise hP | dsimp only

theorem kept_execJobGo (hP : Closed F P) (hpke : F .pke) (r : Requester) (l : Fin 16) (ctx : Fin 8) (s : State) (h0
    : P s) : After P (execJobGo r l ctx s) := by
  unfold execJobGo
  try dsimp only
  repeat' first
    | with_reducible assumption | intro _ | with_reducible apply kept_onWrite hP | with_reducible apply kept_putQ hP
    | with_reducible apply kept_refusePkeJob hP | with_reducible apply kept_updLane hP hpke
    | with_reducible apply kept_ite | with_reducible apply after_next | with_reducible apply after_ite | dsimp only

theorem kept_execJobCopied (hP : Closed F P) (hpke : F .pke) (r : Requester) (l : Fin 16) (s : State) (h0 : P s) :
    After P (execJobCopied r l s) := by
  unfold execJobCopied
  try dsimp only
  repeat' first
    | with_reducible assumption | with_reducible apply kept_nextJob hP hpke | with_reducible apply kept_putQ hP
    | with_reducible apply kept_refusePkeJob hP | with_reducible apply kept_updLane hP hpke
    | with_reducible apply kept_ite | with_reducible apply after_next | with_reducible apply after_ite | split
    | dsimp only

theorem kept_suspend (hP : Closed F P) (hpke : F .pke) (s : State) (l : Nat) (j : PkeJob) (h0 : P s) : P (suspend s
    l j) := by
  unfold suspend
  try dsimp only
  repeat' first
    | with_reducible assumption | with_reducible apply kept_bump hP | with_reducible apply kept_nextJob hP hpke
    | with_reducible apply kept_raise hP | with_reducible apply kept_updLane hP hpke | dsimp only

theorem kept_stepJob (hP : Closed F P) (hcore : F .core) (hpke : F .pke) (hharts : F .harts) (s : State) (l : Nat)
    (j : PkeJob) (h0 : P s) : P (stepJob s l j) := by
  unfold stepJob
  try dsimp only
  repeat' first
    | with_reducible assumption | with_reducible apply kept_endPkeJob hP hcore hpke hharts
    | with_reducible apply kept_nextJob hP hpke | with_reducible apply kept_putSlot hP hpke
    | with_reducible apply kept_suspend hP hpke | with_reducible apply kept_updLane hP hpke
    | with_reducible apply kept_ite | split | dsimp only

theorem kept_execPkeCmdDone (hP : Closed F P) (hcore : F .core) (hpke : F .pke) (hharts : F .harts) (l : Fin 16)
    (mid : Bool) (s : State) (h0 : P s) : After P (execPkeCmdDone l mid s) := by
  unfold execPkeCmdDone
  try dsimp only
  repeat' first
    | with_reducible assumption | with_reducible apply kept_stepJob hP hcore hpke hharts
    | with_reducible apply kept_suspend hP hpke | with_reducible apply kept_ite | with_reducible apply after_next
    | with_reducible apply after_ite | split | dsimp only

theorem kept_execJobAbort (hP : Closed F P) (hcore : F .core) (hpke : F .pke) (hharts : F .harts) (r : Requester) (l
    : Fin 16) (ctx : Fin 8) (ticket : BitVec 8) (s : State) (h0 : P s) : After P (execJobAbort r l ctx ticket s) := by
  unfold execJobAbort
  try dsimp only
  repeat' first
    | with_reducible assumption | intro _ | with_reducible apply kept_abortJob hP hcore hpke hharts
    | with_reducible apply kept_nextJob hP hpke | with_reducible apply kept_onWrite hP
    | with_reducible apply kept_putQ hP | with_reducible apply kept_ite | with_reducible apply after_next
    | with_reducible apply after_ite | split | dsimp only

theorem kept_laneReady (hP : Closed F P) (s : State) (l : Nat) (b : Bool) (h0 : P s) : P (laneReady s l b) := by
  unfold laneReady
  try dsimp only
  repeat' first
    | with_reducible assumption | with_reducible apply kept_putB hP | dsimp only

theorem kept_startTest (hP : Closed F P) (hpke : F .pke) (s : State) (l : Nat) (h0 : P s) : P (startTest s l) := by
  unfold startTest
  try dsimp only
  repeat' first
    | with_reducible assumption | with_reducible apply kept_doubt hP | with_reducible apply kept_laneReady hP
    | with_reducible apply kept_updLane hP hpke | dsimp only

theorem kept_execSelftestDone (hP : Closed F P) (hpke : F .pke) (l : Fin 16) (pass : Bool) (s : State) (h0 : P s) :
    After P (execSelftestDone l pass s) := by
  unfold execSelftestDone
  try dsimp only
  repeat' first
    | with_reducible assumption | with_reducible apply kept_doubt hP | with_reducible apply kept_laneReady hP
    | with_reducible apply kept_raise hP | with_reducible apply kept_updLane hP hpke | with_reducible apply kept_ite
    | with_reducible apply after_next | with_reducible apply after_ite | dsimp only

theorem kept_laneEnabled (hP : Closed F P) (hcore : F .core) (hpke : F .pke) (hharts : F .harts) (s : State) (l :
    Nat) (on : Bool) (h0 : P s) : P (laneEnabled s l on) := by
  unfold laneEnabled
  try dsimp only
  repeat' first
    | with_reducible assumption | with_reducible apply kept_abortLane hP hcore hpke hharts
    | with_reducible apply kept_laneReady hP | with_reducible apply kept_startTest hP hpke
    | with_reducible apply kept_ite | dsimp only

theorem kept_pkeDisabled (hP : Closed F P) (hcore : F .core) (hpke : F .pke) (hharts : F .harts) (s : State) (h0 : P
    s) : P (pkeDisabled s) := by
  unfold pkeDisabled
  try dsimp only
  repeat' first
    | with_reducible assumption | intro _ | with_reducible apply kept_abortLane hP hcore hpke hharts
    | with_reducible apply kept_foldl | with_reducible apply kept_foldl_fst | dsimp only

theorem kept_pkeLost (hP : Closed F P) (hpke : F .pke) (s : State) (h0 : P s) : P (pkeLost s) := by
  unfold pkeLost
  try dsimp only
  repeat' first
    | with_reducible assumption | intro _ | with_reducible apply kept_showLane hP
    | with_reducible apply kept_showSlotBusy hP | with_reducible apply kept_startTest hP hpke
    | with_reducible apply kept_updPke hP hpke | with_reducible apply kept_foldl
    | with_reducible apply kept_foldl_fst | with_reducible exact fits_Pke (fits_same _ _)
    | with_reducible exact fits_Pke (fits_upd _ _ _ _) | with_reducible exact fits_Pke (fits_set _ _ _ _)
    | with_reducible exact fits_Pke (fits_map _ _ _) | with_reducible exact fits_Pke (fits_replicate _ _ _)
    | with_reducible exact fits_same _ _ | with_reducible exact fits_upd _ _ _ _
    | with_reducible exact fits_set _ _ _ _ | with_reducible exact fits_map _ _ _
    | with_reducible exact fits_replicate _ _ _ | with_reducible exact fun _ => fits_Pke (fits_same _ _)
    | with_reducible exact fun _ => fits_Pke (fits_upd _ _ _ _)
    | with_reducible exact fun _ => fits_Pke (fits_set _ _ _ _)
    | with_reducible exact fun _ => fits_Pke (fits_map _ _ _)
    | with_reducible exact fun _ => fits_Pke (fits_replicate _ _ _) | with_reducible exact fun _ => fits_same _ _
    | with_reducible exact fun _ => fits_upd _ _ _ _ | with_reducible exact fun _ => fits_set _ _ _ _
    | with_reducible exact fun _ => fits_map _ _ _ | with_reducible exact fun _ => fits_replicate _ _ _ | dsimp only

theorem kept_pkeIslandReset (hP : Closed F P) (hcore : F .core) (hpke : F .pke) (hharts : F .harts) (s : State) (h0
    : P s) : P (pkeIslandReset s) := by
  unfold pkeIslandReset
  try dsimp only
  repeat' first
    | with_reducible assumption | intro _ | with_reducible apply kept_abortLane hP hcore hpke hharts
    | with_reducible apply kept_pkeLost hP hpke | with_reducible apply kept_foldl
    | with_reducible apply kept_foldl_fst | dsimp only

/-! ### Mck -/

theorem kept_updOut (hP : Closed F P) (hmck : F .mck) (s : State) (ch : Nat) (f : OutRun → OutRun) (h0 : P s) : P
    (updOut s ch f) := by
  unfold updOut
  try dsimp only
  repeat' first
    | with_reducible assumption | with_reducible exact Or.inr hmck | with_reducible exact Or.inl rfl
    | with_reducible apply hP.others | with_reducible exact fits_same _ _ | with_reducible exact fits_upd _ _ _ _
    | with_reducible exact fits_set _ _ _ _ | with_reducible exact fits_map _ _ _
    | with_reducible exact fits_replicate _ _ _ | with_reducible exact fitsMck_same _
    | with_reducible apply FitsMck.mk | with_reducible exact fun _ => fits_same _ _
    | with_reducible exact fun _ => fits_upd _ _ _ _ | with_reducible exact fun _ => fits_set _ _ _ _
    | with_reducible exact fun _ => fits_map _ _ _ | with_reducible exact fun _ => fits_replicate _ _ _ | dsimp only

theorem kept_startOut (hP : Closed F P) (hmck : F .mck) (s : State) (ch : Nat) (h0 : P s) : P (startOut s ch) := by
  unfold startOut
  try dsimp only
  repeat' first
    | with_reducible assumption | with_reducible apply kept_updOut hP hmck | dsimp only

theorem kept_stopOut (hP : Closed F P) (hmck : F .mck) (s : State) (ch : Nat) (h0 : P s) : P (stopOut s ch) := by
  unfold stopOut
  try dsimp only
  repeat' first
    | with_reducible assumption | with_reducible apply kept_put hP | with_reducible apply kept_updOut hP hmck
    | with_reducible apply kept_ite | dsimp only

theorem kept_refreshOut (hP : Closed F P) (hmck : F .mck) (s : State) (ch : Nat) (h0 : P s) : P (refreshOut s ch) :=
    by
  unfold refreshOut
  try dsimp only
  repeat' first
    | with_reducible assumption | with_reducible apply kept_startOut hP hmck
    | with_reducible apply kept_stopOut hP hmck | with_reducible apply kept_ite | dsimp only

theorem kept_refreshGates (hP : Closed F P) (hmck : F .mck) (s : State) (h0 : P s) : P (refreshGates s) := by
  unfold refreshGates
  try dsimp only
  repeat' first
    | with_reducible assumption | intro _ | with_reducible apply kept_putB hP
    | with_reducible apply kept_refreshOut hP hmck | with_reducible apply kept_foldl
    | with_reducible apply kept_foldl_fst | dsimp only

theorem kept_refreshRefusals (hP : Closed F P) (s : State) (h0 : P s) : P (refreshRefusals s) := by
  unfold refreshRefusals
  try dsimp only
  repeat' first
    | with_reducible assumption | intro _ | with_reducible apply kept_put hP | with_reducible apply kept_raiseIf hP
    | with_reducible apply kept_foldl | with_reducible apply kept_foldl_fst | dsimp only

theorem kept_outWritten (hP : Closed F P) (hmck : F .mck) (s : State) (ch : Nat) (h0 : P s) : P (outWritten s ch) :=
    by
  unfold outWritten
  try dsimp only
  repeat' first
    | with_reducible assumption | with_reducible apply kept_refreshGates hP hmck
    | with_reducible apply kept_refreshRefusals hP | with_reducible apply kept_startOut hP hmck
    | with_reducible apply kept_ite | dsimp only

theorem kept_execOutputStart (hP : Closed F P) (hclk : F .clk) (hmck : F .mck) (ch : Fin 14) (s : State) (h0 : P s)
    : After P (execOutputStart ch s) := by
  unfold execOutputStart
  try dsimp only
  repeat' first
    | with_reducible assumption | with_reducible apply kept_advP hP hclk
    | with_reducible apply kept_refreshGates hP hmck | with_reducible apply kept_updOut hP hmck
    | with_reducible apply kept_ite | with_reducible apply after_next | with_reducible apply after_ite | dsimp only

theorem kept_riseOut (hP : Closed F P) (hclk : F .clk) (hmck : F .mck) (s : State) (ch : Nat) (h0 : P s) : P
    (riseOut s ch) := by
  unfold riseOut
  try dsimp only
  repeat' first
    | with_reducible assumption | with_reducible apply kept_advP hP hclk | with_reducible apply kept_put hP
    | with_reducible apply kept_updOut hP hmck | with_reducible apply kept_ite | dsimp only

theorem kept_fallOut (hP : Closed F P) (hclk : F .clk) (hmck : F .mck) (s : State) (ch : Nat) (h0 : P s) : P
    (fallOut s ch) := by
  unfold fallOut
  try dsimp only
  repeat' first
    | with_reducible assumption | with_reducible apply kept_advP hP hclk | with_reducible apply kept_updOut hP hmck
    | dsimp only

theorem kept_execOutputEdge (hP : Closed F P) (hclk : F .clk) (hmck : F .mck) (ch : Fin 14) (s : State) (h0 : P s) :
    After P (execOutputEdge ch s) := by
  unfold execOutputEdge
  try dsimp only
  repeat' first
    | with_reducible assumption | with_reducible apply kept_fallOut hP hclk hmck
    | with_reducible apply kept_riseOut hP hclk hmck | with_reducible apply kept_ite
    | with_reducible apply after_next | with_reducible apply after_ite | dsimp only

theorem kept_mckStep (hP : Closed F P) (hmck : F .mck) (s : State) (old : Int) (h0 : P s) : P (mckStep s old) := by
  unfold mckStep
  try dsimp only
  repeat' first
    | with_reducible assumption | with_reducible apply kept_ite | with_reducible exact Or.inr hmck
    | with_reducible exact Or.inl rfl | with_reducible apply hP.others | with_reducible exact fits_same _ _
    | with_reducible exact fits_upd _ _ _ _ | with_reducible exact fits_set _ _ _ _
    | with_reducible exact fits_map _ _ _ | with_reducible exact fits_replicate _ _ _
    | with_reducible exact fitsMck_same _ | with_reducible apply FitsMck.mk
    | with_reducible exact fun _ => fits_same _ _ | with_reducible exact fun _ => fits_upd _ _ _ _
    | with_reducible exact fun _ => fits_set _ _ _ _ | with_reducible exact fun _ => fits_map _ _ _
    | with_reducible exact fun _ => fits_replicate _ _ _ | dsimp only

theorem kept_realignOut (hP : Closed F P) (hmck : F .mck) (s : State) (ch : Nat) (h0 : P s) : P (realignOut s ch) :=
    by
  unfold realignOut
  try dsimp only
  repeat' first
    | with_reducible assumption | with_reducible apply kept_bump hP | with_reducible apply kept_updOut hP hmck
    | with_reducible apply kept_ite | dsimp only

theorem kept_execOutputRealign (hP : Closed F P) (hclk : F .clk) (hmck : F .mck) (s : State) (h0 : P s) : After P
    (execOutputRealign s) := by
  unfold execOutputRealign
  try dsimp only
  repeat' first
    | with_reducible assumption | intro _ | with_reducible apply kept_advP hP hclk
    | with_reducible apply kept_realignOut hP hmck | with_reducible apply kept_foldl
    | with_reducible apply kept_foldl_fst | with_reducible apply after_next | with_reducible exact Or.inr hclk
    | with_reducible exact Or.inr hmck | with_reducible exact Or.inl rfl | with_reducible apply hP.others
    | with_reducible exact fits_same _ _ | with_reducible exact fits_upd _ _ _ _
    | with_reducible exact fits_set _ _ _ _ | with_reducible exact fits_map _ _ _
    | with_reducible exact fits_replicate _ _ _ | with_reducible exact fitsMck_same _
    | with_reducible apply FitsMck.mk | with_reducible exact fun _ => fits_same _ _
    | with_reducible exact fun _ => fits_upd _ _ _ _ | with_reducible exact fun _ => fits_set _ _ _ _
    | with_reducible exact fun _ => fits_map _ _ _ | with_reducible exact fun _ => fits_replicate _ _ _ | split
    | dsimp only

theorem kept_execTodMessage (hP : Closed F P) (hclk : F .clk) (hmck : F .mck) (k : Fin 2) (s : State) (h0 : P s) :
    After P (execTodMessage k s) := by
  unfold execTodMessage
  try dsimp only
  repeat' first
    | with_reducible assumption | with_reducible apply kept_advP hP hclk | with_reducible apply kept_bump hP
    | with_reducible apply kept_ite | with_reducible apply after_next | with_reducible apply after_ite
    | with_reducible exact Or.inr hclk | with_reducible exact Or.inr hmck | with_reducible exact Or.inl rfl
    | with_reducible apply hP.others | with_reducible exact fits_same _ _ | with_reducible exact fits_upd _ _ _ _
    | with_reducible exact fits_set _ _ _ _ | with_reducible exact fits_map _ _ _
    | with_reducible exact fits_replicate _ _ _ | with_reducible exact fitsMck_same _
    | with_reducible apply FitsMck.mk | with_reducible exact fun _ => fits_same _ _
    | with_reducible exact fun _ => fits_upd _ _ _ _ | with_reducible exact fun _ => fits_set _ _ _ _
    | with_reducible exact fun _ => fits_map _ _ _ | with_reducible exact fun _ => fits_replicate _ _ _ | dsimp only

theorem kept_execToutFault (hP : Closed F P) (n : Fin 8) (s : State) (h0 : P s) : After P (execToutFault n s) := by
  unfold execToutFault
  try dsimp only
  repeat' first
    | with_reducible assumption | with_reducible apply kept_doubt hP | with_reducible apply kept_put hP
    | with_reducible apply kept_raise hP | with_reducible apply after_next | dsimp only

theorem kept_execToutFaultClear (hP : Closed F P) (n : Fin 8) (s : State) (h0 : P s) : After P (execToutFaultClear n
    s) := by
  unfold execToutFaultClear
  try dsimp only
  repeat' first
    | with_reducible assumption | with_reducible apply kept_doubt hP | with_reducible apply kept_put hP
    | with_reducible apply after_next | dsimp only

theorem kept_showCapLvl (hP : Closed F P) (s : State) (n : Nat) (h0 : P s) : P (showCapLvl s n) := by
  unfold showCapLvl
  try dsimp only
  repeat' first
    | with_reducible assumption | with_reducible apply kept_put hP | with_reducible apply kept_ite | dsimp only

theorem kept_updCap (hP : Closed F P) (hmck : F .mck) (s : State) (n : Nat) (f : CapIn → CapIn) (h0 : P s) : P
    (updCap s n f) := by
  unfold updCap
  try dsimp only
  repeat' first
    | with_reducible assumption | with_reducible apply kept_showCapLvl hP | with_reducible exact Or.inr hmck
    | with_reducible exact Or.inl rfl | with_reducible apply hP.others | with_reducible exact fits_same _ _
    | with_reducible exact fits_upd _ _ _ _ | with_reducible exact fits_set _ _ _ _
    | with_reducible exact fits_map _ _ _ | with_reducible exact fits_replicate _ _ _
    | with_reducible exact fitsMck_same _ | with_reducible apply FitsMck.mk
    | with_reducible exact fun _ => fits_same _ _ | with_reducible exact fun _ => fits_upd _ _ _ _
    | with_reducible exact fun _ => fits_set _ _ _ _ | with_reducible exact fun _ => fits_map _ _ _
    | with_reducible exact fun _ => fits_replicate _ _ _ | dsimp only

theorem kept_capPush (hP : Closed F P) (hmck : F .mck) (s : State) (n : Nat) (e : CapStamp) (h0 : P s) : P (capPush
    s n e) := by
  unfold capPush
  try dsimp only
  repeat' first
    | with_reducible assumption | with_reducible apply kept_bump hP | with_reducible apply kept_raise hP
    | with_reducible apply kept_raiseIf hP | with_reducible apply kept_updCap hP hmck
    | with_reducible apply kept_ite | dsimp only

theorem kept_execCapEdge (hP : Closed F P) (hclk : F .clk) (hmck : F .mck) (n : Fin 8) (at' : PC64) (falling : Bool)
    (s : State) (h0 : P s) : After P (execCapEdge n at' falling s) := by
  unfold execCapEdge
  try dsimp only
  repeat' first
    | with_reducible assumption | with_reducible apply kept_advPc hP hclk | with_reducible apply kept_bump hP
    | with_reducible apply kept_capPush hP hmck | with_reducible apply kept_ite | with_reducible apply after_next
    | with_reducible apply after_ite | split | dsimp only

theorem kept_latch (hP : Closed F P) (s : State) (q : Nat) (p : Pg) (off : Nat) (l : List Nat) (h : P s) :
    P (latch s q p off l) := by
  induction l generalizing s off with
  | nil => exact h
  | cons w t ih => exact ih _ _ (kept_wrB hP s q p off w h)

theorem kept_execCapRead (hP : Closed F P) (hmck : F .mck) (r : Requester) (s : State) (h0 : P s) : After P
    (execCapRead r s) := by
  unfold execCapRead
  try dsimp only
  repeat' first
    | with_reducible assumption | intro _ | with_reducible apply kept_latch hP | with_reducible apply kept_onRead hP
    | with_reducible apply kept_reply hP | with_reducible apply kept_updCap hP hmck
    | with_reducible apply kept_wrB hP | with_reducible apply after_next | split | dsimp only

end Sys2Proof.Machine
end

