-- ==== Sys2Proof/Laws/KeptServo.lean ====
section
/-! SUPPORT. A property that survives the changes of Closed survives every function of: the servo and the Askair links. -/

set_option linter.unusedTactic false
set_option linter.unreachableTactic false
set_option linter.unusedVariables false

namespace Sys2Proof.Machine

variable {F : Part → Prop} {P : State → Prop}

/-! ### Discipline -/

theorem kept_updSlot (hP : Closed F P) (hdsc : F .dsc) (s : State) (k : Nat) (f : Slot → Slot) (h0 : P s) : P
    (updSlot s k f) := by
  unfold updSlot
  try dsimp only
  repeat' first
    | with_reducible assumption | with_reducible exact Or.inr hdsc | with_reducible exact Or.inl rfl
    | with_reducible apply hP.others | with_reducible exact fits_Servo (fits_same _ _)
    | with_reducible exact fits_Servo (fits_upd _ _ _ _) | with_reducible exact fits_Servo (fits_set _ _ _ _)
    | with_reducible exact fits_Servo (fits_map _ _ _) | with_reducible exact fits_Servo (fits_replicate _ _ _)
    | with_reducible exact fits_same _ _ | with_reducible exact fits_upd _ _ _ _
    | with_reducible exact fits_set _ _ _ _ | with_reducible exact fits_map _ _ _
    | with_reducible exact fits_replicate _ _ _ | with_reducible exact fitsMck_same _
    | with_reducible exact fun _ => fits_Servo (fits_same _ _)
    | with_reducible exact fun _ => fits_Servo (fits_upd _ _ _ _)
    | with_reducible exact fun _ => fits_Servo (fits_set _ _ _ _)
    | with_reducible exact fun _ => fits_Servo (fits_map _ _ _)
    | with_reducible exact fun _ => fits_Servo (fits_replicate _ _ _) | with_reducible exact fun _ => fits_same _ _
    | with_reducible exact fun _ => fits_upd _ _ _ _ | with_reducible exact fun _ => fits_set _ _ _ _
    | with_reducible exact fun _ => fits_map _ _ _ | with_reducible exact fun _ => fits_replicate _ _ _ | dsimp only

theorem kept_updServo (hP : Closed F P) (hdsc : F .dsc) (s : State) (f : Servo → Servo)
    (hf : ∀ x, Fits 6 (f x).slots.length x.slots.length) (h : P s) : P (updServo s f) := by
  unfold updServo
  with_reducible apply hP.others <;> first | exact Or.inl rfl | exact Or.inr (by assumption) | exact h | exact fitsMck_same _ | with_reducible exact fits_same _ _ | exact hf _

theorem kept_setSlot (hP : Closed F P) (s : State) (k : Nat) (st : Nat) (h0 : P s) : P (setSlot s k st) := by
  unfold setSlot
  try dsimp only
  repeat' first
    | with_reducible assumption | with_reducible apply kept_doubt hP | with_reducible apply kept_put hP
    | with_reducible apply kept_raise hP | with_reducible apply kept_ite | dsimp only

theorem kept_loseSlot (hP : Closed F P) (hdsc : F .dsc) (s : State) (k : Nat) (h0 : P s) : P (loseSlot s k) := by
  unfold loseSlot
  try dsimp only
  repeat' first
    | with_reducible assumption | with_reducible apply kept_setSlot hP | with_reducible apply kept_updSlot hP hdsc
    | dsimp only

theorem kept_slotSample (hP : Closed F P) (hdsc : F .dsc) (s : State) (k : Nat) (x : Int) (d : Option Int) (h0 : P
    s) : P (slotSample s k x d) := by
  unfold slotSample
  try dsimp only
  repeat' first
    | with_reducible assumption | with_reducible apply kept_updSlot hP hdsc | with_reducible apply kept_ite | split
    | dsimp only

theorem kept_execPtpSampleRx (hP : Closed F P) (hdsc : F .dsc) (k : Fin 2) (sample : PtpSample) (acc : Option Nat)
    (s : State) (h0 : P s) : After P (execPtpSampleRx k sample acc s) := by
  unfold execPtpSampleRx
  try dsimp only
  repeat' first
    | with_reducible assumption | with_reducible apply kept_bumpF hP | with_reducible apply kept_slotSample hP hdsc
    | with_reducible apply kept_updSlot hP hdsc | with_reducible apply kept_ite | with_reducible apply after_next
    | with_reducible apply after_ite | split | dsimp only

theorem kept_execExtPpsEdge (hP : Closed F P) (hclk : F .clk) (hdsc : F .dsc) (input : Fin 2) (at' : PC64) (falling
    : Bool) (s : State) (h0 : P s) : After P (execExtPpsEdge input at' falling s) := by
  unfold execExtPpsEdge
  try dsimp only
  repeat' first
    | with_reducible assumption | with_reducible apply kept_advPc hP hclk
    | with_reducible apply kept_slotSample hP hdsc | with_reducible apply kept_updSlot hP hdsc
    | with_reducible apply kept_ite | with_reducible apply after_next | with_reducible apply after_ite | split
    | dsimp only

theorem kept_execExtFreqCount (hP : Closed F P) (hdsc : F .dsc) (input : Fin 2) (ppt : Int) (s : State) (h0 : P s) :
    After P (execExtFreqCount input ppt s) := by
  unfold execExtFreqCount
  try dsimp only
  repeat' first
    | with_reducible assumption | with_reducible apply kept_updSlot hP hdsc | with_reducible apply kept_ite
    | with_reducible apply after_next | with_reducible apply after_ite | dsimp only

theorem kept_execSlotLost (hP : Closed F P) (hclk : F .clk) (hdsc : F .dsc) (k : Fin 6) (s : State) (h0 : P s) :
    After P (execSlotLost k s) := by
  unfold execSlotLost
  try dsimp only
  repeat' first
    | with_reducible assumption | with_reducible apply kept_advMono hP hclk
    | with_reducible apply kept_loseSlot hP hdsc | with_reducible apply kept_ite | with_reducible apply after_next
    | with_reducible apply after_ite | dsimp only

theorem kept_slotCmd (hP : Closed F P) (hdsc : F .dsc) (s : State) (v : Nat) (h0 : P s) : P (slotCmd s v) := by
  unfold slotCmd
  try dsimp only
  repeat' first
    | with_reducible assumption | intro _ | with_reducible apply kept_updSlot hP hdsc
    | with_reducible apply kept_ite | with_reducible apply kept_foldl | with_reducible apply kept_foldl_fst
    | dsimp only

theorem kept_execSlotRelease (hP : Closed F P) (hdsc : F .dsc) (r : Requester) (v : Word) (s : State) (h0 : P s) :
    After P (execSlotRelease r v s) := by
  unfold execSlotRelease
  try dsimp only
  repeat' first
    | with_reducible assumption | intro _ | with_reducible apply kept_onWrite hP
    | with_reducible apply kept_slotCmd hP hdsc | with_reducible apply after_next | dsimp only

theorem kept_execBiasClr (hP : Closed F P) (hdsc : F .dsc) (r : Requester) (v : Word) (s : State) (h0 : P s) : After
    P (execBiasClr r v s) := by
  unfold execBiasClr
  try dsimp only
  repeat' first
    | with_reducible assumption | intro _ | with_reducible apply kept_onWrite hP
    | with_reducible apply kept_slotCmd hP hdsc | with_reducible apply after_next | dsimp only

theorem kept_estimate (hP : Closed F P) (hdsc : F .dsc) (s : State) (k : Nat) (h0 : P s) : P (estimate s k) := by
  unfold estimate
  try dsimp only
  repeat' first
    | with_reducible assumption | with_reducible apply kept_drawn hP | with_reducible apply kept_updSlot hP hdsc
    | with_reducible apply kept_ite | dsimp only

theorem kept_enterQuarantine (hP : Closed F P) (hdsc : F .dsc) (s : State) (k : Nat) (h0 : P s) : P (enterQuarantine
    s k) := by
  unfold enterQuarantine
  try dsimp only
  repeat' first
    | with_reducible assumption | with_reducible apply kept_bump hP | with_reducible apply kept_raise hP
    | with_reducible apply kept_updSlot hP hdsc | with_reducible apply kept_ite | dsimp only

theorem kept_countOutliers (hP : Closed F P) (s : State) (k : Nat) (n : Nat) (h0 : P s) : P (countOutliers s k n) :=
    by
  unfold countOutliers
  try dsimp only
  repeat' first
    | with_reducible assumption | with_reducible apply kept_put hP | with_reducible apply kept_ite | dsimp only

theorem kept_absorbPtp (hP : Closed F P) (hdsc : F .dsc) (s : State) (k : Nat) (x : Int) (d : Int) (h0 : P s) : P
    (absorbPtp s k x d).1 := by
  unfold absorbPtp
  try dsimp only
  repeat' first
    | with_reducible assumption | with_reducible apply kept_countOutliers hP
    | with_reducible apply kept_enterQuarantine hP hdsc | with_reducible apply kept_updSlot hP hdsc
    | with_reducible apply kept_ite | with_reducible apply kept_fst_ite | dsimp only

theorem kept_absorb (hP : Closed F P) (hdsc : F .dsc) (s : State) (k : Nat) (h0 : P s) : P (absorb s k) := by
  unfold absorb
  try dsimp only
  repeat' first
    | with_reducible assumption | intro _ | with_reducible apply kept_absorbPtp hP hdsc
    | with_reducible apply kept_estimate hP hdsc | with_reducible apply kept_updSlot hP hdsc
    | with_reducible apply kept_ite | with_reducible apply kept_fst_ite | with_reducible apply kept_foldl
    | with_reducible apply kept_foldl_fst | split | dsimp only

theorem kept_takeIn (hP : Closed F P) (hdsc : F .dsc) (s : State) (k : Nat) (h0 : P s) : P (takeIn s k) := by
  unfold takeIn
  try dsimp only
  repeat' first
    | with_reducible assumption | with_reducible apply kept_raise hP | with_reducible apply kept_setSlot hP
    | with_reducible apply kept_updSlot hP hdsc | with_reducible apply kept_ite | dsimp only

theorem kept_endQuarantine (hP : Closed F P) (hdsc : F .dsc) (s : State) (k : Nat) (before : Int) (sBefore : Nat)
    (unc0 : Option Nat) (h0 : P s) : P (endQuarantine s k before sBefore unc0) := by
  unfold endQuarantine
  try dsimp only
  repeat' first
    | with_reducible assumption | with_reducible apply kept_raise hP | with_reducible apply kept_setSlot hP
    | with_reducible apply kept_takeIn hP hdsc | with_reducible apply kept_updSlot hP hdsc
    | with_reducible apply kept_ite | dsimp only

theorem kept_releaseSlot (hP : Closed F P) (hdsc : F .dsc) (s : State) (k : Nat) (h0 : P s) : P (releaseSlot s k) :=
    by
  unfold releaseSlot
  try dsimp only
  repeat' first
    | with_reducible assumption | with_reducible apply kept_setSlot hP | with_reducible apply kept_updSlot hP hdsc
    | with_reducible apply kept_ite | dsimp only

theorem kept_qualify (hP : Closed F P) (hdsc : F .dsc) (s : State) (k : Nat) (h0 : P s) : P (qualify s k) := by
  unfold qualify
  try dsimp only
  repeat' first
    | with_reducible assumption | with_reducible apply kept_setSlot hP | with_reducible apply kept_takeIn hP hdsc
    | with_reducible apply kept_updSlot hP hdsc | with_reducible apply kept_ite | split | dsimp only

theorem kept_quarantine (hP : Closed F P) (hdsc : F .dsc) (s : State) (k : Nat) (t : Nat) (before : Int) (sBefore :
    Nat) (unc0 : Option Nat) (h0 : P s) : P (quarantine s k t before sBefore unc0) := by
  unfold quarantine
  try dsimp only
  repeat' first
    | with_reducible assumption | with_reducible apply kept_endQuarantine hP hdsc
    | with_reducible apply kept_setSlot hP | with_reducible apply kept_updSlot hP hdsc
    | with_reducible apply kept_ite | dsimp only

theorem kept_applyBiasClr (hP : Closed F P) (hdsc : F .dsc) (s : State) (k : Nat) (h0 : P s) : P (applyBiasClr s k)
    := by
  unfold applyBiasClr
  try dsimp only
  repeat' first
    | with_reducible assumption | with_reducible apply kept_updSlot hP hdsc | with_reducible apply kept_ite
    | dsimp only

theorem kept_updateSlot (hP : Closed F P) (hdsc : F .dsc) (s : State) (k : Nat) (h0 : P s) : P (updateSlot s k) :=
    by
  unfold updateSlot
  try dsimp only
  repeat' first
    | with_reducible assumption | with_reducible apply kept_applyBiasClr hP hdsc
    | with_reducible apply kept_loseSlot hP hdsc | with_reducible apply kept_qualify hP hdsc
    | with_reducible apply kept_quarantine hP hdsc | with_reducible apply kept_releaseSlot hP hdsc
    | with_reducible apply kept_setSlot hP | with_reducible apply kept_updSlot hP hdsc
    | with_reducible apply kept_ite | split | dsimp only

theorem kept_tallyVote (hP : Closed F P) (hdsc : F .dsc) (s : State) (p : Nat) (act : List Nat) (d : List Nat) (h0 :
    P s) : P (tallyVote s p act d) := by
  unfold tallyVote
  try dsimp only
  repeat' first
    | with_reducible assumption | intro _ | with_reducible apply kept_setSlot hP
    | with_reducible apply kept_updServo hP hdsc | with_reducible apply kept_updSlot hP hdsc
    | with_reducible apply kept_ite | with_reducible apply kept_foldl | with_reducible apply kept_foldl_fst
    | with_reducible exact fits_Servo (fits_same _ _) | with_reducible exact fits_Servo (fits_upd _ _ _ _)
    | with_reducible exact fits_Servo (fits_set _ _ _ _) | with_reducible exact fits_Servo (fits_map _ _ _)
    | with_reducible exact fits_Servo (fits_replicate _ _ _) | with_reducible exact fits_same _ _
    | with_reducible exact fits_upd _ _ _ _ | with_reducible exact fits_set _ _ _ _
    | with_reducible exact fits_map _ _ _ | with_reducible exact fits_replicate _ _ _
    | with_reducible exact fun _ => fits_Servo (fits_same _ _)
    | with_reducible exact fun _ => fits_Servo (fits_upd _ _ _ _)
    | with_reducible exact fun _ => fits_Servo (fits_set _ _ _ _)
    | with_reducible exact fun _ => fits_Servo (fits_map _ _ _)
    | with_reducible exact fun _ => fits_Servo (fits_replicate _ _ _) | with_reducible exact fun _ => fits_same _ _
    | with_reducible exact fun _ => fits_upd _ _ _ _ | with_reducible exact fun _ => fits_set _ _ _ _
    | with_reducible exact fun _ => fits_map _ _ _ | with_reducible exact fun _ => fits_replicate _ _ _ | dsimp only

theorem kept_judgeSlot (hP : Closed F P) (hdsc : F .dsc) (s : State) (p : Nat) (k : Nat) (judged : Bool) (h0 : P s)
    : P (judgeSlot s p k judged) := by
  unfold judgeSlot
  try dsimp only
  repeat' first
    | with_reducible assumption | with_reducible apply kept_updSlot hP hdsc | with_reducible apply kept_ite
    | dsimp only

theorem kept_vote (hP : Closed F P) (hdsc : F .dsc) (s : State) (p : Nat) (h0 : P s) : P (vote s p) := by
  unfold vote
  try dsimp only
  repeat' first
    | with_reducible assumption | intro _ | with_reducible apply kept_judgeSlot hP hdsc
    | with_reducible apply kept_tallyVote hP hdsc | with_reducible apply kept_updServo hP hdsc
    | with_reducible apply kept_ite | with_reducible apply kept_foldl | with_reducible apply kept_foldl_fst
    | with_reducible exact fits_Servo (fits_same _ _) | with_reducible exact fits_Servo (fits_upd _ _ _ _)
    | with_reducible exact fits_Servo (fits_set _ _ _ _) | with_reducible exact fits_Servo (fits_map _ _ _)
    | with_reducible exact fits_Servo (fits_replicate _ _ _) | with_reducible exact fits_same _ _
    | with_reducible exact fits_upd _ _ _ _ | with_reducible exact fits_set _ _ _ _
    | with_reducible exact fits_map _ _ _ | with_reducible exact fits_replicate _ _ _
    | with_reducible exact fun _ => fits_Servo (fits_same _ _)
    | with_reducible exact fun _ => fits_Servo (fits_upd _ _ _ _)
    | with_reducible exact fun _ => fits_Servo (fits_set _ _ _ _)
    | with_reducible exact fun _ => fits_Servo (fits_map _ _ _)
    | with_reducible exact fun _ => fits_Servo (fits_replicate _ _ _) | with_reducible exact fun _ => fits_same _ _
    | with_reducible exact fun _ => fits_upd _ _ _ _ | with_reducible exact fun _ => fits_set _ _ _ _
    | with_reducible exact fun _ => fits_map _ _ _ | with_reducible exact fun _ => fits_replicate _ _ _ | dsimp only

theorem kept_askStep (hP : Closed F P) (htb : F .tb) (hdsc : F .dsc) (hlinks : F .links) (s : State) (w : StepWant)
    (amt : Int) (h0 : P s) : P (askStep s w amt) := by
  unfold askStep
  try dsimp only
  repeat' first
    | with_reducible assumption | with_reducible apply kept_raise hP
    | with_reducible apply kept_requestStep hP htb hlinks | with_reducible apply kept_updServo hP hdsc
    | with_reducible apply kept_ite | with_reducible exact fits_Servo (fits_same _ _)
    | with_reducible exact fits_Servo (fits_upd _ _ _ _) | with_reducible exact fits_Servo (fits_set _ _ _ _)
    | with_reducible exact fits_Servo (fits_map _ _ _) | with_reducible exact fits_Servo (fits_replicate _ _ _)
    | with_reducible exact fits_same _ _ | with_reducible exact fits_upd _ _ _ _
    | with_reducible exact fits_set _ _ _ _ | with_reducible exact fits_map _ _ _
    | with_reducible exact fits_replicate _ _ _ | with_reducible exact fun _ => fits_Servo (fits_same _ _)
    | with_reducible exact fun _ => fits_Servo (fits_upd _ _ _ _)
    | with_reducible exact fun _ => fits_Servo (fits_set _ _ _ _)
    | with_reducible exact fun _ => fits_Servo (fits_map _ _ _)
    | with_reducible exact fun _ => fits_Servo (fits_replicate _ _ _) | with_reducible exact fun _ => fits_same _ _
    | with_reducible exact fun _ => fits_upd _ _ _ _ | with_reducible exact fun _ => fits_set _ _ _ _
    | with_reducible exact fun _ => fits_map _ _ _ | with_reducible exact fun _ => fits_replicate _ _ _ | dsimp only

theorem kept_tryStep (hP : Closed F P) (htb : F .tb) (hdsc : F .dsc) (hlinks : F .links) (s : State) (w : StepWant)
    (q : Nat) (h0 : P s) : P (tryStep s w q) := by
  unfold tryStep
  try dsimp only
  repeat' first
    | with_reducible assumption | with_reducible apply kept_askStep hP htb hdsc hlinks
    | with_reducible apply kept_updServo hP hdsc | with_reducible apply kept_ite
    | with_reducible exact fits_Servo (fits_same _ _) | with_reducible exact fits_Servo (fits_upd _ _ _ _)
    | with_reducible exact fits_Servo (fits_set _ _ _ _) | with_reducible exact fits_Servo (fits_map _ _ _)
    | with_reducible exact fits_Servo (fits_replicate _ _ _) | with_reducible exact fits_same _ _
    | with_reducible exact fits_upd _ _ _ _ | with_reducible exact fits_set _ _ _ _
    | with_reducible exact fits_map _ _ _ | with_reducible exact fits_replicate _ _ _
    | with_reducible exact fun _ => fits_Servo (fits_same _ _)
    | with_reducible exact fun _ => fits_Servo (fits_upd _ _ _ _)
    | with_reducible exact fun _ => fits_Servo (fits_set _ _ _ _)
    | with_reducible exact fun _ => fits_Servo (fits_map _ _ _)
    | with_reducible exact fun _ => fits_Servo (fits_replicate _ _ _) | with_reducible exact fun _ => fits_same _ _
    | with_reducible exact fun _ => fits_upd _ _ _ _ | with_reducible exact fun _ => fits_set _ _ _ _
    | with_reducible exact fun _ => fits_map _ _ _ | with_reducible exact fun _ => fits_replicate _ _ _ | split
    | dsimp only

theorem kept_allemande (hP : Closed F P) (htb : F .tb) (hdsc : F .dsc) (hlinks : F .links) (s : State) (q : Nat) (h0
    : P s) : P (allemande s q) := by
  unfold allemande
  try dsimp only
  repeat' first
    | with_reducible assumption | with_reducible apply kept_bump hP | with_reducible apply kept_raise hP
    | with_reducible apply kept_tryStep hP htb hdsc hlinks | with_reducible apply kept_updServo hP hdsc
    | with_reducible exact fits_Servo (fits_same _ _) | with_reducible exact fits_Servo (fits_upd _ _ _ _)
    | with_reducible exact fits_Servo (fits_set _ _ _ _) | with_reducible exact fits_Servo (fits_map _ _ _)
    | with_reducible exact fits_Servo (fits_replicate _ _ _) | with_reducible exact fits_same _ _
    | with_reducible exact fits_upd _ _ _ _ | with_reducible exact fits_set _ _ _ _
    | with_reducible exact fits_map _ _ _ | with_reducible exact fits_replicate _ _ _
    | with_reducible exact fun _ => fits_Servo (fits_same _ _)
    | with_reducible exact fun _ => fits_Servo (fits_upd _ _ _ _)
    | with_reducible exact fun _ => fits_Servo (fits_set _ _ _ _)
    | with_reducible exact fun _ => fits_Servo (fits_map _ _ _)
    | with_reducible exact fun _ => fits_Servo (fits_replicate _ _ _) | with_reducible exact fun _ => fits_same _ _
    | with_reducible exact fun _ => fits_upd _ _ _ _ | with_reducible exact fun _ => fits_set _ _ _ _
    | with_reducible exact fun _ => fits_map _ _ _ | with_reducible exact fun _ => fits_replicate _ _ _ | dsimp only

theorem kept_showWeights (hP : Closed F P) (s : State) (q : Nat) (e : List Nat) (h0 : P s) : P (showWeights s q e)
    := by
  unfold showWeights
  try dsimp only
  repeat' first
    | with_reducible assumption | intro _ | with_reducible apply kept_put hP | with_reducible apply kept_putB hP
    | with_reducible apply kept_ite | with_reducible apply kept_foldl | with_reducible apply kept_foldl_fst
    | dsimp only

theorem kept_setServo (hP : Closed F P) (s : State) (st : Nat) (h0 : P s) : P (setServo s st) := by
  unfold setServo
  try dsimp only
  repeat' first
    | with_reducible assumption | with_reducible apply kept_put hP | with_reducible apply kept_raise hP
    | with_reducible apply kept_ite | dsimp only

theorem kept_onModel (hP : Closed F P) (hdsc : F .dsc) (s : State) (h0 : P s) : P (onModel s) := by
  unfold onModel
  try dsimp only
  repeat' first
    | with_reducible assumption | with_reducible apply kept_updServo hP hdsc
    | with_reducible exact fits_Servo (fits_same _ _) | with_reducible exact fits_Servo (fits_upd _ _ _ _)
    | with_reducible exact fits_Servo (fits_set _ _ _ _) | with_reducible exact fits_Servo (fits_map _ _ _)
    | with_reducible exact fits_Servo (fits_replicate _ _ _) | with_reducible exact fits_same _ _
    | with_reducible exact fits_upd _ _ _ _ | with_reducible exact fits_set _ _ _ _
    | with_reducible exact fits_map _ _ _ | with_reducible exact fits_replicate _ _ _
    | with_reducible exact fun _ => fits_Servo (fits_same _ _)
    | with_reducible exact fun _ => fits_Servo (fits_upd _ _ _ _)
    | with_reducible exact fun _ => fits_Servo (fits_set _ _ _ _)
    | with_reducible exact fun _ => fits_Servo (fits_map _ _ _)
    | with_reducible exact fun _ => fits_Servo (fits_replicate _ _ _) | with_reducible exact fun _ => fits_same _ _
    | with_reducible exact fun _ => fits_upd _ _ _ _ | with_reducible exact fun _ => fits_set _ _ _ _
    | with_reducible exact fun _ => fits_map _ _ _ | with_reducible exact fun _ => fits_replicate _ _ _ | dsimp only

theorem kept_toFreerun (hP : Closed F P) (hdsc : F .dsc) (s : State) (h0 : P s) : P (toFreerun s) := by
  unfold toFreerun
  try dsimp only
  repeat' first
    | with_reducible assumption | with_reducible apply kept_onModel hP hdsc | with_reducible apply kept_setServo hP
    | with_reducible apply kept_updServo hP hdsc | with_reducible exact fits_Servo (fits_same _ _)
    | with_reducible exact fits_Servo (fits_upd _ _ _ _) | with_reducible exact fits_Servo (fits_set _ _ _ _)
    | with_reducible exact fits_Servo (fits_map _ _ _) | with_reducible exact fits_Servo (fits_replicate _ _ _)
    | with_reducible exact fits_same _ _ | with_reducible exact fits_upd _ _ _ _
    | with_reducible exact fits_set _ _ _ _ | with_reducible exact fits_map _ _ _
    | with_reducible exact fits_replicate _ _ _ | with_reducible exact fun _ => fits_Servo (fits_same _ _)
    | with_reducible exact fun _ => fits_Servo (fits_upd _ _ _ _)
    | with_reducible exact fun _ => fits_Servo (fits_set _ _ _ _)
    | with_reducible exact fun _ => fits_Servo (fits_map _ _ _)
    | with_reducible exact fun _ => fits_Servo (fits_replicate _ _ _) | with_reducible exact fun _ => fits_same _ _
    | with_reducible exact fun _ => fits_upd _ _ _ _ | with_reducible exact fun _ => fits_set _ _ _ _
    | with_reducible exact fun _ => fits_map _ _ _ | with_reducible exact fun _ => fits_replicate _ _ _ | dsimp only

theorem kept_toHold (hP : Closed F P) (hdsc : F .dsc) (s : State) (st : Nat) (h0 : P s) : P (toHold s st) := by
  unfold toHold
  try dsimp only
  repeat' first
    | with_reducible assumption | with_reducible apply kept_onModel hP hdsc | with_reducible apply kept_setServo hP
    | with_reducible apply kept_updServo hP hdsc | with_reducible exact fits_Servo (fits_same _ _)
    | with_reducible exact fits_Servo (fits_upd _ _ _ _) | with_reducible exact fits_Servo (fits_set _ _ _ _)
    | with_reducible exact fits_Servo (fits_map _ _ _) | with_reducible exact fits_Servo (fits_replicate _ _ _)
    | with_reducible exact fits_same _ _ | with_reducible exact fits_upd _ _ _ _
    | with_reducible exact fits_set _ _ _ _ | with_reducible exact fits_map _ _ _
    | with_reducible exact fits_replicate _ _ _ | with_reducible exact fun _ => fits_Servo (fits_same _ _)
    | with_reducible exact fun _ => fits_Servo (fits_upd _ _ _ _)
    | with_reducible exact fun _ => fits_Servo (fits_set _ _ _ _)
    | with_reducible exact fun _ => fits_Servo (fits_map _ _ _)
    | with_reducible exact fun _ => fits_Servo (fits_replicate _ _ _) | with_reducible exact fun _ => fits_same _ _
    | with_reducible exact fun _ => fits_upd _ _ _ _ | with_reducible exact fun _ => fits_set _ _ _ _
    | with_reducible exact fun _ => fits_map _ _ _ | with_reducible exact fun _ => fits_replicate _ _ _ | dsimp only

theorem kept_toAcquire (hP : Closed F P) (htb : F .tb) (hdsc : F .dsc) (hlinks : F .links) (s : State) (q : Nat) (w
    : StepWant) (h0 : P s) : P (toAcquire s q w) := by
  unfold toAcquire
  try dsimp only
  repeat' first
    | with_reducible assumption | with_reducible apply kept_setServo hP
    | with_reducible apply kept_tryStep hP htb hdsc hlinks | with_reducible apply kept_updServo hP hdsc
    | with_reducible exact fits_Servo (fits_same _ _) | with_reducible exact fits_Servo (fits_upd _ _ _ _)
    | with_reducible exact fits_Servo (fits_set _ _ _ _) | with_reducible exact fits_Servo (fits_map _ _ _)
    | with_reducible exact fits_Servo (fits_replicate _ _ _) | with_reducible exact fits_same _ _
    | with_reducible exact fits_upd _ _ _ _ | with_reducible exact fits_set _ _ _ _
    | with_reducible exact fits_map _ _ _ | with_reducible exact fits_replicate _ _ _
    | with_reducible exact fun _ => fits_Servo (fits_same _ _)
    | with_reducible exact fun _ => fits_Servo (fits_upd _ _ _ _)
    | with_reducible exact fun _ => fits_Servo (fits_set _ _ _ _)
    | with_reducible exact fun _ => fits_Servo (fits_map _ _ _)
    | with_reducible exact fun _ => fits_Servo (fits_replicate _ _ _) | with_reducible exact fun _ => fits_same _ _
    | with_reducible exact fun _ => fits_upd _ _ _ _ | with_reducible exact fun _ => fits_set _ _ _ _
    | with_reducible exact fun _ => fits_map _ _ _ | with_reducible exact fun _ => fits_replicate _ _ _ | dsimp only

theorem kept_toLocked (hP : Closed F P) (hdsc : F .dsc) (s : State) (h0 : P s) : P (toLocked s) := by
  unfold toLocked
  try dsimp only
  repeat' first
    | with_reducible assumption | with_reducible apply kept_doubt hP | with_reducible apply kept_putB hP
    | with_reducible apply kept_setServo hP | with_reducible apply kept_updServo hP hdsc
    | with_reducible exact fits_Servo (fits_same _ _) | with_reducible exact fits_Servo (fits_upd _ _ _ _)
    | with_reducible exact fits_Servo (fits_set _ _ _ _) | with_reducible exact fits_Servo (fits_map _ _ _)
    | with_reducible exact fits_Servo (fits_replicate _ _ _) | with_reducible exact fits_same _ _
    | with_reducible exact fits_upd _ _ _ _ | with_reducible exact fits_set _ _ _ _
    | with_reducible exact fits_map _ _ _ | with_reducible exact fits_replicate _ _ _
    | with_reducible exact fun _ => fits_Servo (fits_same _ _)
    | with_reducible exact fun _ => fits_Servo (fits_upd _ _ _ _)
    | with_reducible exact fun _ => fits_Servo (fits_set _ _ _ _)
    | with_reducible exact fun _ => fits_Servo (fits_map _ _ _)
    | with_reducible exact fun _ => fits_Servo (fits_replicate _ _ _) | with_reducible exact fun _ => fits_same _ _
    | with_reducible exact fun _ => fits_upd _ _ _ _ | with_reducible exact fun _ => fits_set _ _ _ _
    | with_reducible exact fun _ => fits_map _ _ _ | with_reducible exact fun _ => fits_replicate _ _ _ | dsimp only

theorem kept_countLock (hP : Closed F P) (hdsc : F .dsc) (s : State) (q : Nat) (h0 : P s) : P (countLock s q) := by
  unfold countLock
  try dsimp only
  repeat' first
    | with_reducible assumption | with_reducible apply kept_updServo hP hdsc | with_reducible apply kept_ite
    | with_reducible exact fits_Servo (fits_same _ _) | with_reducible exact fits_Servo (fits_upd _ _ _ _)
    | with_reducible exact fits_Servo (fits_set _ _ _ _) | with_reducible exact fits_Servo (fits_map _ _ _)
    | with_reducible exact fits_Servo (fits_replicate _ _ _) | with_reducible exact fits_same _ _
    | with_reducible exact fits_upd _ _ _ _ | with_reducible exact fits_set _ _ _ _
    | with_reducible exact fits_map _ _ _ | with_reducible exact fits_replicate _ _ _
    | with_reducible exact fun _ => fits_Servo (fits_same _ _)
    | with_reducible exact fun _ => fits_Servo (fits_upd _ _ _ _)
    | with_reducible exact fun _ => fits_Servo (fits_set _ _ _ _)
    | with_reducible exact fun _ => fits_Servo (fits_map _ _ _)
    | with_reducible exact fun _ => fits_Servo (fits_replicate _ _ _) | with_reducible exact fun _ => fits_same _ _
    | with_reducible exact fun _ => fits_upd _ _ _ _ | with_reducible exact fun _ => fits_set _ _ _ _
    | with_reducible exact fun _ => fits_map _ _ _ | with_reducible exact fun _ => fits_replicate _ _ _ | dsimp only

theorem kept_servoTransition (hP : Closed F P) (htb : F .tb) (hdsc : F .dsc) (hlinks : F .links) (s0 : State) (q :
    Nat) (h0 : P s0) : P (servoTransition s0 q) := by
  unfold servoTransition
  try dsimp only
  repeat' first
    | with_reducible assumption | with_reducible apply kept_countLock hP hdsc
    | with_reducible apply kept_setServo hP | with_reducible apply kept_toAcquire hP htb hdsc hlinks
    | with_reducible apply kept_toFreerun hP hdsc | with_reducible apply kept_toHold hP hdsc
    | with_reducible apply kept_toLocked hP hdsc | with_reducible apply kept_updServo hP hdsc
    | with_reducible apply kept_ite | with_reducible exact fits_Servo (fits_same _ _)
    | with_reducible exact fits_Servo (fits_upd _ _ _ _) | with_reducible exact fits_Servo (fits_set _ _ _ _)
    | with_reducible exact fits_Servo (fits_map _ _ _) | with_reducible exact fits_Servo (fits_replicate _ _ _)
    | with_reducible exact fits_same _ _ | with_reducible exact fits_upd _ _ _ _
    | with_reducible exact fits_set _ _ _ _ | with_reducible exact fits_map _ _ _
    | with_reducible exact fits_replicate _ _ _ | with_reducible exact fun _ => fits_Servo (fits_same _ _)
    | with_reducible exact fun _ => fits_Servo (fits_upd _ _ _ _)
    | with_reducible exact fun _ => fits_Servo (fits_set _ _ _ _)
    | with_reducible exact fun _ => fits_Servo (fits_map _ _ _)
    | with_reducible exact fun _ => fits_Servo (fits_replicate _ _ _) | with_reducible exact fun _ => fits_same _ _
    | with_reducible exact fun _ => fits_upd _ _ _ _ | with_reducible exact fun _ => fits_set _ _ _ _
    | with_reducible exact fun _ => fits_map _ _ _ | with_reducible exact fun _ => fits_replicate _ _ _ | dsimp only

theorem kept_setRate (hP : Closed F P) (s : State) (pull : Int) (h0 : P s) : P (setRate s pull) := by
  unfold setRate
  try dsimp only
  repeat' first
    | with_reducible assumption | with_reducible apply kept_bump hP | with_reducible apply kept_wr64 hP
    | with_reducible apply kept_wrN hP | with_reducible apply kept_ite | dsimp only

theorem kept_slewH (hP : Closed F P) (hdsc : F .dsc) (s : State) (h0 : P s) : P (slewH s) := by
  unfold slewH
  try dsimp only
  repeat' first
    | with_reducible assumption | with_reducible apply kept_updServo hP hdsc | with_reducible apply kept_ite
    | with_reducible exact fits_Servo (fits_same _ _) | with_reducible exact fits_Servo (fits_upd _ _ _ _)
    | with_reducible exact fits_Servo (fits_set _ _ _ _) | with_reducible exact fits_Servo (fits_map _ _ _)
    | with_reducible exact fits_Servo (fits_replicate _ _ _) | with_reducible exact fits_same _ _
    | with_reducible exact fits_upd _ _ _ _ | with_reducible exact fits_set _ _ _ _
    | with_reducible exact fits_map _ _ _ | with_reducible exact fits_replicate _ _ _
    | with_reducible exact fun _ => fits_Servo (fits_same _ _)
    | with_reducible exact fun _ => fits_Servo (fits_upd _ _ _ _)
    | with_reducible exact fun _ => fits_Servo (fits_set _ _ _ _)
    | with_reducible exact fun _ => fits_Servo (fits_map _ _ _)
    | with_reducible exact fun _ => fits_Servo (fits_replicate _ _ _) | with_reducible exact fun _ => fits_same _ _
    | with_reducible exact fun _ => fits_upd _ _ _ _ | with_reducible exact fun _ => fits_set _ _ _ _
    | with_reducible exact fun _ => fits_map _ _ _ | with_reducible exact fun _ => fits_replicate _ _ _ | dsimp only

theorem kept_nextTau (hP : Closed F P) (hdsc : F .dsc) (s : State) (h0 : P s) : P (nextTau s) := by
  unfold nextTau
  try dsimp only
  repeat' first
    | with_reducible assumption | with_reducible apply kept_updServo hP hdsc | with_reducible apply kept_ite
    | with_reducible exact fits_Servo (fits_same _ _) | with_reducible exact fits_Servo (fits_upd _ _ _ _)
    | with_reducible exact fits_Servo (fits_set _ _ _ _) | with_reducible exact fits_Servo (fits_map _ _ _)
    | with_reducible exact fits_Servo (fits_replicate _ _ _) | with_reducible exact fits_same _ _
    | with_reducible exact fits_upd _ _ _ _ | with_reducible exact fits_set _ _ _ _
    | with_reducible exact fits_map _ _ _ | with_reducible exact fits_replicate _ _ _
    | with_reducible exact fun _ => fits_Servo (fits_same _ _)
    | with_reducible exact fun _ => fits_Servo (fits_upd _ _ _ _)
    | with_reducible exact fun _ => fits_Servo (fits_set _ _ _ _)
    | with_reducible exact fun _ => fits_Servo (fits_map _ _ _)
    | with_reducible exact fun _ => fits_Servo (fits_replicate _ _ _) | with_reducible exact fun _ => fits_same _ _
    | with_reducible exact fun _ => fits_upd _ _ _ _ | with_reducible exact fun _ => fits_set _ _ _ _
    | with_reducible exact fun _ => fits_map _ _ _ | with_reducible exact fun _ => fits_replicate _ _ _ | dsimp only

theorem kept_steerServo (hP : Closed F P) (htb : F .tb) (hdsc : F .dsc) (hlinks : F .links) (s0 : State) (q : Nat)
    (en : Bool) (h0 : P s0) : P (steerServo s0 q en) := by
  unfold steerServo
  try dsimp only
  repeat' first
    | with_reducible assumption | with_reducible apply kept_nextTau hP hdsc | with_reducible apply kept_setRate hP
    | with_reducible apply kept_slewH hP hdsc | with_reducible apply kept_tryStep hP htb hdsc hlinks
    | with_reducible apply kept_updServo hP hdsc | with_reducible apply kept_ite
    | with_reducible exact fits_Servo (fits_same _ _) | with_reducible exact fits_Servo (fits_upd _ _ _ _)
    | with_reducible exact fits_Servo (fits_set _ _ _ _) | with_reducible exact fits_Servo (fits_map _ _ _)
    | with_reducible exact fits_Servo (fits_replicate _ _ _) | with_reducible exact fits_same _ _
    | with_reducible exact fits_upd _ _ _ _ | with_reducible exact fits_set _ _ _ _
    | with_reducible exact fits_map _ _ _ | with_reducible exact fits_replicate _ _ _
    | with_reducible exact fun _ => fits_Servo (fits_same _ _)
    | with_reducible exact fun _ => fits_Servo (fits_upd _ _ _ _)
    | with_reducible exact fun _ => fits_Servo (fits_set _ _ _ _)
    | with_reducible exact fun _ => fits_Servo (fits_map _ _ _)
    | with_reducible exact fun _ => fits_Servo (fits_replicate _ _ _) | with_reducible exact fun _ => fits_same _ _
    | with_reducible exact fun _ => fits_upd _ _ _ _ | with_reducible exact fun _ => fits_set _ _ _ _
    | with_reducible exact fun _ => fits_map _ _ _ | with_reducible exact fun _ => fits_replicate _ _ _ | split
    | dsimp only

theorem kept_showUnc (hP : Closed F P) (hdsc : F .dsc) (s : State) (u : Option Nat) (h0 : P s) : P (showUnc s u) :=
    by
  unfold showUnc
  try dsimp only
  repeat' first
    | with_reducible assumption | with_reducible apply kept_doubt hP | with_reducible apply kept_raiseIf hP
    | with_reducible apply kept_updServo hP hdsc | with_reducible apply kept_wrN hP
    | with_reducible exact fits_Servo (fits_same _ _) | with_reducible exact fits_Servo (fits_upd _ _ _ _)
    | with_reducible exact fits_Servo (fits_set _ _ _ _) | with_reducible exact fits_Servo (fits_map _ _ _)
    | with_reducible exact fits_Servo (fits_replicate _ _ _) | with_reducible exact fits_same _ _
    | with_reducible exact fits_upd _ _ _ _ | with_reducible exact fits_set _ _ _ _
    | with_reducible exact fits_map _ _ _ | with_reducible exact fits_replicate _ _ _
    | with_reducible exact fun _ => fits_Servo (fits_same _ _)
    | with_reducible exact fun _ => fits_Servo (fits_upd _ _ _ _)
    | with_reducible exact fun _ => fits_Servo (fits_set _ _ _ _)
    | with_reducible exact fun _ => fits_Servo (fits_map _ _ _)
    | with_reducible exact fun _ => fits_Servo (fits_replicate _ _ _) | with_reducible exact fun _ => fits_same _ _
    | with_reducible exact fun _ => fits_upd _ _ _ _ | with_reducible exact fun _ => fits_set _ _ _ _
    | with_reducible exact fun _ => fits_map _ _ _ | with_reducible exact fun _ => fits_replicate _ _ _ | dsimp only

theorem kept_updateUnc (hP : Closed F P) (hdsc : F .dsc) (s : State) (q : Nat) (h0 : P s) : P (updateUnc s q) := by
  unfold updateUnc
  try dsimp only
  repeat' first
    | with_reducible assumption | with_reducible apply kept_showUnc hP hdsc
    | with_reducible apply kept_updServo hP hdsc | with_reducible apply kept_ite
    | with_reducible exact fits_Servo (fits_same _ _) | with_reducible exact fits_Servo (fits_upd _ _ _ _)
    | with_reducible exact fits_Servo (fits_set _ _ _ _) | with_reducible exact fits_Servo (fits_map _ _ _)
    | with_reducible exact fits_Servo (fits_replicate _ _ _) | with_reducible exact fits_same _ _
    | with_reducible exact fits_upd _ _ _ _ | with_reducible exact fits_set _ _ _ _
    | with_reducible exact fits_map _ _ _ | with_reducible exact fits_replicate _ _ _
    | with_reducible exact fun _ => fits_Servo (fits_same _ _)
    | with_reducible exact fun _ => fits_Servo (fits_upd _ _ _ _)
    | with_reducible exact fun _ => fits_Servo (fits_set _ _ _ _)
    | with_reducible exact fun _ => fits_Servo (fits_map _ _ _)
    | with_reducible exact fun _ => fits_Servo (fits_replicate _ _ _) | with_reducible exact fun _ => fits_same _ _
    | with_reducible exact fun _ => fits_upd _ _ _ _ | with_reducible exact fun _ => fits_set _ _ _ _
    | with_reducible exact fun _ => fits_map _ _ _ | with_reducible exact fun _ => fits_replicate _ _ _ | dsimp only

theorem kept_showServo (hP : Closed F P) (s : State) (q : Nat) (h0 : P s) : P (showServo s q) := by
  unfold showServo
  try dsimp only
  repeat' first
    | with_reducible assumption | with_reducible apply kept_put hP | with_reducible apply kept_putB hP
    | with_reducible apply kept_wrN hP | with_reducible apply kept_ite | dsimp only

theorem kept_dscDoubts (hP : Closed F P) (s : State) (h0 : P s) : P (dscDoubts s) := by
  unfold dscDoubts
  try dsimp only
  repeat' first
    | with_reducible assumption | with_reducible apply kept_doubt hP | dsimp only

theorem kept_showSlot (hP : Closed F P) (s : State) (k : Nat) (h0 : P s) : P (showSlot s k) := by
  unfold showSlot
  try dsimp only
  repeat' first
    | with_reducible assumption | with_reducible apply kept_put hP | with_reducible apply kept_wrN hP
    | with_reducible apply kept_ite | dsimp only

theorem kept_judgeUpdate (hP : Closed F P) (htb : F .tb) (hdsc : F .dsc) (hlinks : F .links) (s : State) (p : Nat)
    (h0 : P s) : P (judgeUpdate s p).1 := by
  unfold judgeUpdate
  try dsimp only
  repeat' first
    | with_reducible assumption | intro _ | with_reducible apply kept_absorb hP hdsc
    | with_reducible apply kept_allemande hP htb hdsc hlinks | with_reducible apply kept_put hP
    | with_reducible apply kept_servoTransition hP htb hdsc hlinks | with_reducible apply kept_showWeights hP
    | with_reducible apply kept_updServo hP hdsc | with_reducible apply kept_updateSlot hP hdsc
    | with_reducible apply kept_vote hP hdsc | with_reducible apply kept_ite | with_reducible apply kept_fst_ite
    | with_reducible apply kept_foldl | with_reducible apply kept_foldl_fst
    | with_reducible exact fits_Servo (fits_same _ _) | with_reducible exact fits_Servo (fits_upd _ _ _ _)
    | with_reducible exact fits_Servo (fits_set _ _ _ _) | with_reducible exact fits_Servo (fits_map _ _ _)
    | with_reducible exact fits_Servo (fits_replicate _ _ _) | with_reducible exact fits_same _ _
    | with_reducible exact fits_upd _ _ _ _ | with_reducible exact fits_set _ _ _ _
    | with_reducible exact fits_map _ _ _ | with_reducible exact fits_replicate _ _ _
    | with_reducible exact fun _ => fits_Servo (fits_same _ _)
    | with_reducible exact fun _ => fits_Servo (fits_upd _ _ _ _)
    | with_reducible exact fun _ => fits_Servo (fits_set _ _ _ _)
    | with_reducible exact fun _ => fits_Servo (fits_map _ _ _)
    | with_reducible exact fun _ => fits_Servo (fits_replicate _ _ _) | with_reducible exact fun _ => fits_same _ _
    | with_reducible exact fun _ => fits_upd _ _ _ _ | with_reducible exact fun _ => fits_set _ _ _ _
    | with_reducible exact fun _ => fits_map _ _ _ | with_reducible exact fun _ => fits_replicate _ _ _ | dsimp only

theorem kept_servoUpdate (hP : Closed F P) (htb : F .tb) (hdsc : F .dsc) (hmck : F .mck) (hlinks : F .links) (s :
    State) (temp : Int) (h0 : P s) : P (servoUpdate s temp) := by
  unfold servoUpdate
  try dsimp only
  repeat' first
    | with_reducible assumption | intro _ | with_reducible apply kept_dscDoubts hP
    | with_reducible apply kept_judgeUpdate hP htb hdsc hlinks | with_reducible apply kept_refreshGates hP hmck
    | with_reducible apply kept_showServo hP | with_reducible apply kept_showSlot hP
    | with_reducible apply kept_steerServo hP htb hdsc hlinks | with_reducible apply kept_updServo hP hdsc
    | with_reducible apply kept_updateUnc hP hdsc | with_reducible apply kept_ite
    | with_reducible apply kept_fst_ite | with_reducible apply kept_foldl | with_reducible apply kept_foldl_fst
    | with_reducible exact fits_Servo (fits_same _ _) | with_reducible exact fits_Servo (fits_upd _ _ _ _)
    | with_reducible exact fits_Servo (fits_set _ _ _ _) | with_reducible exact fits_Servo (fits_map _ _ _)
    | with_reducible exact fits_Servo (fits_replicate _ _ _) | with_reducible exact fits_same _ _
    | with_reducible exact fits_upd _ _ _ _ | with_reducible exact fits_set _ _ _ _
    | with_reducible exact fits_map _ _ _ | with_reducible exact fits_replicate _ _ _
    | with_reducible exact fun _ => fits_Servo (fits_same _ _)
    | with_reducible exact fun _ => fits_Servo (fits_upd _ _ _ _)
    | with_reducible exact fun _ => fits_Servo (fits_set _ _ _ _)
    | with_reducible exact fun _ => fits_Servo (fits_map _ _ _)
    | with_reducible exact fun _ => fits_Servo (fits_replicate _ _ _) | with_reducible exact fun _ => fits_same _ _
    | with_reducible exact fun _ => fits_upd _ _ _ _ | with_reducible exact fun _ => fits_set _ _ _ _
    | with_reducible exact fun _ => fits_map _ _ _ | with_reducible exact fun _ => fits_replicate _ _ _ | dsimp only

theorem kept_showOven (hP : Closed F P) (s : State) (temp : Int) (heat : Nat) (osc : Option (Int × Nat)) (h0 : P s)
    : P (showOven s temp heat osc) := by
  unfold showOven
  try dsimp only
  repeat' first
    | with_reducible assumption | with_reducible apply kept_put hP | with_reducible apply kept_wrN hP
    | with_reducible apply kept_ite | split | dsimp only

theorem kept_execServoUpdate (hP : Closed F P) (hclk : F .clk) (htb : F .tb) (hdsc : F .dsc) (hmck : F .mck) (hlinks
    : F .links) (temp : Int) (heat : Nat) (osc : Option (Int × Nat)) (s : State) (h0 : P s) : After P (execServoUpdate
    temp heat osc s) := by
  unfold execServoUpdate
  try dsimp only
  repeat' first
    | with_reducible assumption | with_reducible apply kept_advT96 hP hclk
    | with_reducible apply kept_servoUpdate hP htb hdsc hmck hlinks | with_reducible apply kept_showOven hP
    | with_reducible apply after_next | dsimp only

theorem kept_dscStep (hP : Closed F P) (hdsc : F .dsc) (s : State) (d : Int) (h0 : P s) : P (dscStep s d) := by
  unfold dscStep
  try dsimp only
  repeat' first
    | with_reducible assumption | intro _ | with_reducible apply kept_updServo hP hdsc
    | with_reducible apply kept_updSlot hP hdsc | with_reducible apply kept_ite | with_reducible apply kept_foldl
    | with_reducible apply kept_foldl_fst | with_reducible exact fits_Servo (fits_same _ _)
    | with_reducible exact fits_Servo (fits_upd _ _ _ _) | with_reducible exact fits_Servo (fits_set _ _ _ _)
    | with_reducible exact fits_Servo (fits_map _ _ _) | with_reducible exact fits_Servo (fits_replicate _ _ _)
    | with_reducible exact fits_same _ _ | with_reducible exact fits_upd _ _ _ _
    | with_reducible exact fits_set _ _ _ _ | with_reducible exact fits_map _ _ _
    | with_reducible exact fits_replicate _ _ _ | with_reducible exact fun _ => fits_Servo (fits_same _ _)
    | with_reducible exact fun _ => fits_Servo (fits_upd _ _ _ _)
    | with_reducible exact fun _ => fits_Servo (fits_set _ _ _ _)
    | with_reducible exact fun _ => fits_Servo (fits_map _ _ _)
    | with_reducible exact fun _ => fits_Servo (fits_replicate _ _ _) | with_reducible exact fun _ => fits_same _ _
    | with_reducible exact fun _ => fits_upd _ _ _ _ | with_reducible exact fun _ => fits_set _ _ _ _
    | with_reducible exact fun _ => fits_map _ _ _ | with_reducible exact fun _ => fits_replicate _ _ _ | dsimp only

theorem kept_dscStop (hP : Closed F P) (hdsc : F .dsc) (s : State) (h0 : P s) : P (dscStop s) := by
  unfold dscStop
  try dsimp only
  repeat' first
    | with_reducible assumption | with_reducible apply kept_dscDoubts hP | with_reducible apply kept_onModel hP hdsc
    | with_reducible apply kept_setServo hP | with_reducible apply kept_toHold hP hdsc
    | with_reducible apply kept_ite | dsimp only

theorem kept_execHistoryStore (hP : Closed F P) (hclk : F .clk) (hdsc : F .dsc) (s : State) (h0 : P s) : After P
    (execHistoryStore s) := by
  unfold execHistoryStore
  try dsimp only
  repeat' first
    | with_reducible assumption | with_reducible apply kept_advMono hP hclk
    | with_reducible apply kept_updServo hP hdsc | with_reducible apply kept_ite | with_reducible apply after_next
    | with_reducible apply after_ite | with_reducible exact fits_Servo (fits_same _ _)
    | with_reducible exact fits_Servo (fits_upd _ _ _ _) | with_reducible exact fits_Servo (fits_set _ _ _ _)
    | with_reducible exact fits_Servo (fits_map _ _ _) | with_reducible exact fits_Servo (fits_replicate _ _ _)
    | with_reducible exact fits_same _ _ | with_reducible exact fits_upd _ _ _ _
    | with_reducible exact fits_set _ _ _ _ | with_reducible exact fits_map _ _ _
    | with_reducible exact fits_replicate _ _ _ | with_reducible exact fun _ => fits_Servo (fits_same _ _)
    | with_reducible exact fun _ => fits_Servo (fits_upd _ _ _ _)
    | with_reducible exact fun _ => fits_Servo (fits_set _ _ _ _)
    | with_reducible exact fun _ => fits_Servo (fits_map _ _ _)
    | with_reducible exact fun _ => fits_Servo (fits_replicate _ _ _) | with_reducible exact fun _ => fits_same _ _
    | with_reducible exact fun _ => fits_upd _ _ _ _ | with_reducible exact fun _ => fits_set _ _ _ _
    | with_reducible exact fun _ => fits_map _ _ _ | with_reducible exact fun _ => fits_replicate _ _ _ | dsimp only

theorem kept_refitModel (hP : Closed F P) (s : State) (h0 : P s) : P (refitModel s) := by
  unfold refitModel
  try dsimp only
  repeat' first
    | with_reducible assumption | with_reducible apply kept_drawn hP | with_reducible apply kept_put hP
    | with_reducible apply kept_putS hP | split | dsimp only

theorem kept_execModelRefit (hP : Closed F P) (hdsc : F .dsc) (s : State) (h0 : P s) : After P (execModelRefit s) :=
    by
  unfold execModelRefit
  try dsimp only
  repeat' first
    | with_reducible assumption | with_reducible apply kept_put hP | with_reducible apply kept_putB hP
    | with_reducible apply kept_raise hP | with_reducible apply kept_refitModel hP
    | with_reducible apply kept_updServo hP hdsc | with_reducible apply kept_ite | with_reducible apply after_next
    | with_reducible apply after_ite | with_reducible exact fits_Servo (fits_same _ _)
    | with_reducible exact fits_Servo (fits_upd _ _ _ _) | with_reducible exact fits_Servo (fits_set _ _ _ _)
    | with_reducible exact fits_Servo (fits_map _ _ _) | with_reducible exact fits_Servo (fits_replicate _ _ _)
    | with_reducible exact fits_same _ _ | with_reducible exact fits_upd _ _ _ _
    | with_reducible exact fits_set _ _ _ _ | with_reducible exact fits_map _ _ _
    | with_reducible exact fits_replicate _ _ _ | with_reducible exact fun _ => fits_Servo (fits_same _ _)
    | with_reducible exact fun _ => fits_Servo (fits_upd _ _ _ _)
    | with_reducible exact fun _ => fits_Servo (fits_set _ _ _ _)
    | with_reducible exact fun _ => fits_Servo (fits_map _ _ _)
    | with_reducible exact fun _ => fits_Servo (fits_replicate _ _ _) | with_reducible exact fun _ => fits_same _ _
    | with_reducible exact fun _ => fits_upd _ _ _ _ | with_reducible exact fun _ => fits_set _ _ _ _
    | with_reducible exact fun _ => fits_map _ _ _ | with_reducible exact fun _ => fits_replicate _ _ _ | dsimp only

theorem kept_reloadModel (hP : Closed F P) (hdsc : F .dsc) (s : State) (h0 : P s) : P (reloadModel s) := by
  unfold reloadModel
  try dsimp only
  repeat' first
    | with_reducible assumption | with_reducible apply kept_put hP | with_reducible apply kept_putB hP
    | with_reducible apply kept_updServo hP hdsc | with_reducible apply kept_wrN hP
    | with_reducible exact fits_Servo (fits_same _ _) | with_reducible exact fits_Servo (fits_upd _ _ _ _)
    | with_reducible exact fits_Servo (fits_set _ _ _ _) | with_reducible exact fits_Servo (fits_map _ _ _)
    | with_reducible exact fits_Servo (fits_replicate _ _ _) | with_reducible exact fits_same _ _
    | with_reducible exact fits_upd _ _ _ _ | with_reducible exact fits_set _ _ _ _
    | with_reducible exact fits_map _ _ _ | with_reducible exact fits_replicate _ _ _
    | with_reducible exact fun _ => fits_Servo (fits_same _ _)
    | with_reducible exact fun _ => fits_Servo (fits_upd _ _ _ _)
    | with_reducible exact fun _ => fits_Servo (fits_set _ _ _ _)
    | with_reducible exact fun _ => fits_Servo (fits_map _ _ _)
    | with_reducible exact fun _ => fits_Servo (fits_replicate _ _ _) | with_reducible exact fun _ => fits_same _ _
    | with_reducible exact fun _ => fits_upd _ _ _ _ | with_reducible exact fun _ => fits_set _ _ _ _
    | with_reducible exact fun _ => fits_map _ _ _ | with_reducible exact fun _ => fits_replicate _ _ _ | dsimp only

theorem kept_sourceSwitched (hP : Closed F P) (hdsc : F .dsc) (s : State) (ppt : Int) (h0 : P s) : P (sourceSwitched
    s ppt) := by
  unfold sourceSwitched
  try dsimp only
  repeat' first
    | with_reducible assumption | with_reducible apply kept_reloadModel hP hdsc
    | with_reducible apply kept_setRate hP | with_reducible apply kept_updServo hP hdsc
    | with_reducible apply kept_ite | with_reducible exact fits_Servo (fits_same _ _)
    | with_reducible exact fits_Servo (fits_upd _ _ _ _) | with_reducible exact fits_Servo (fits_set _ _ _ _)
    | with_reducible exact fits_Servo (fits_map _ _ _) | with_reducible exact fits_Servo (fits_replicate _ _ _)
    | with_reducible exact fits_same _ _ | with_reducible exact fits_upd _ _ _ _
    | with_reducible exact fits_set _ _ _ _ | with_reducible exact fits_map _ _ _
    | with_reducible exact fits_replicate _ _ _ | with_reducible exact fun _ => fits_Servo (fits_same _ _)
    | with_reducible exact fun _ => fits_Servo (fits_upd _ _ _ _)
    | with_reducible exact fun _ => fits_Servo (fits_set _ _ _ _)
    | with_reducible exact fun _ => fits_Servo (fits_map _ _ _)
    | with_reducible exact fun _ => fits_Servo (fits_replicate _ _ _) | with_reducible exact fun _ => fits_same _ _
    | with_reducible exact fun _ => fits_upd _ _ _ _ | with_reducible exact fun _ => fits_set _ _ _ _
    | with_reducible exact fun _ => fits_map _ _ _ | with_reducible exact fun _ => fits_replicate _ _ _ | dsimp only

theorem kept_slotCfgWritten (hP : Closed F P) (hdsc : F .dsc) (s : State) (k : Nat) (wasEn : Bool) (h0 : P s) : P
    (slotCfgWritten s k wasEn) := by
  unfold slotCfgWritten
  try dsimp only
  repeat' first
    | with_reducible assumption | with_reducible apply kept_doubt hP | with_reducible apply kept_updSlot hP hdsc
    | with_reducible apply kept_ite | dsimp only

/-! ### Ask -/

theorem kept_showAsk (hP : Closed F P) (s : State) (k : Nat) (h0 : P s) : P (showAsk s k) := by
  unfold showAsk
  try dsimp only
  repeat' first
    | with_reducible assumption | intro _ | with_reducible apply kept_doubt hP | with_reducible apply kept_put hP
    | with_reducible apply kept_putB hP | with_reducible apply kept_wrN hP | with_reducible apply kept_ite
    | with_reducible apply kept_foldl | with_reducible apply kept_foldl_fst | dsimp only

theorem kept_askLeave (hP : Closed F P) (hkisl : F .kisl) (hlinks : F .links) (s : State) (k : Nat) (h0 : P s) : P
    (askLeave s k) := by
  unfold askLeave
  try dsimp only
  repeat' first
    | with_reducible assumption | with_reducible apply kept_bump hP | with_reducible apply kept_put hP
    | with_reducible apply kept_raise hP | with_reducible apply kept_showAsk hP
    | with_reducible apply kept_updKisl hP hkisl | with_reducible apply kept_updLink hP hlinks
    | with_reducible apply kept_ite | with_reducible exact fits_AskLink (fits_same _ _)
    | with_reducible exact fits_AskLink (fits_upd _ _ _ _) | with_reducible exact fits_AskLink (fits_set _ _ _ _)
    | with_reducible exact fits_AskLink (fits_map _ _ _) | with_reducible exact fits_AskLink (fits_replicate _ _ _)
    | with_reducible exact fits_same _ _ | with_reducible exact fits_upd _ _ _ _
    | with_reducible exact fits_set _ _ _ _ | with_reducible exact fits_map _ _ _
    | with_reducible exact fits_replicate _ _ _ | with_reducible exact fun _ => fits_AskLink (fits_same _ _)
    | with_reducible exact fun _ => fits_AskLink (fits_upd _ _ _ _)
    | with_reducible exact fun _ => fits_AskLink (fits_set _ _ _ _)
    | with_reducible exact fun _ => fits_AskLink (fits_map _ _ _)
    | with_reducible exact fun _ => fits_AskLink (fits_replicate _ _ _)
    | with_reducible exact fun _ => fits_same _ _ | with_reducible exact fun _ => fits_upd _ _ _ _
    | with_reducible exact fun _ => fits_set _ _ _ _ | with_reducible exact fun _ => fits_map _ _ _
    | with_reducible exact fun _ => fits_replicate _ _ _ | dsimp only

theorem kept_askRefuse (hP : Closed F P) (hlinks : F .links) (s : State) (k : Nat) (why : Nat) (h0 : P s) : P
    (askRefuse s k why) := by
  unfold askRefuse
  try dsimp only
  repeat' first
    | with_reducible assumption | with_reducible apply kept_put hP | with_reducible apply kept_raise hP
    | with_reducible apply kept_updLink hP hlinks | with_reducible apply kept_ite
    | with_reducible exact fits_AskLink (fits_same _ _) | with_reducible exact fits_AskLink (fits_upd _ _ _ _)
    | with_reducible exact fits_AskLink (fits_set _ _ _ _) | with_reducible exact fits_AskLink (fits_map _ _ _)
    | with_reducible exact fits_AskLink (fits_replicate _ _ _) | with_reducible exact fits_same _ _
    | with_reducible exact fits_upd _ _ _ _ | with_reducible exact fits_set _ _ _ _
    | with_reducible exact fits_map _ _ _ | with_reducible exact fits_replicate _ _ _
    | with_reducible exact fun _ => fits_AskLink (fits_same _ _)
    | with_reducible exact fun _ => fits_AskLink (fits_upd _ _ _ _)
    | with_reducible exact fun _ => fits_AskLink (fits_set _ _ _ _)
    | with_reducible exact fun _ => fits_AskLink (fits_map _ _ _)
    | with_reducible exact fun _ => fits_AskLink (fits_replicate _ _ _)
    | with_reducible exact fun _ => fits_same _ _ | with_reducible exact fun _ => fits_upd _ _ _ _
    | with_reducible exact fun _ => fits_set _ _ _ _ | with_reducible exact fun _ => fits_map _ _ _
    | with_reducible exact fun _ => fits_replicate _ _ _ | dsimp only

theorem kept_sendHello (hP : Closed F P) (hlinks : F .links) (s : State) (k : Nat) (h0 : P s) : P (sendHello s k) :=
    by
  unfold sendHello
  try dsimp only
  repeat' first
    | with_reducible assumption | with_reducible apply kept_sendAsk hP hlinks | dsimp only

theorem kept_askRise (hP : Closed F P) (hkisl : F .kisl) (hlinks : F .links) (s : State) (k : Nat) (h0 : P s) : P
    (askRise s k) := by
  unfold askRise
  try dsimp only
  repeat' first
    | with_reducible assumption | with_reducible apply kept_put hP | with_reducible apply kept_raise hP
    | with_reducible apply kept_showAsk hP | with_reducible apply kept_updKisl hP hkisl
    | with_reducible apply kept_updLink hP hlinks | with_reducible apply kept_ite
    | with_reducible exact fits_AskLink (fits_same _ _) | with_reducible exact fits_AskLink (fits_upd _ _ _ _)
    | with_reducible exact fits_AskLink (fits_set _ _ _ _) | with_reducible exact fits_AskLink (fits_map _ _ _)
    | with_reducible exact fits_AskLink (fits_replicate _ _ _) | with_reducible exact fits_same _ _
    | with_reducible exact fits_upd _ _ _ _ | with_reducible exact fits_set _ _ _ _
    | with_reducible exact fits_map _ _ _ | with_reducible exact fits_replicate _ _ _
    | with_reducible exact fun _ => fits_AskLink (fits_same _ _)
    | with_reducible exact fun _ => fits_AskLink (fits_upd _ _ _ _)
    | with_reducible exact fun _ => fits_AskLink (fits_set _ _ _ _)
    | with_reducible exact fun _ => fits_AskLink (fits_map _ _ _)
    | with_reducible exact fun _ => fits_AskLink (fits_replicate _ _ _)
    | with_reducible exact fun _ => fits_same _ _ | with_reducible exact fun _ => fits_upd _ _ _ _
    | with_reducible exact fun _ => fits_set _ _ _ _ | with_reducible exact fun _ => fits_map _ _ _
    | with_reducible exact fun _ => fits_replicate _ _ _ | dsimp only

theorem kept_execLinkTrain (hP : Closed F P) (hkisl : F .kisl) (hlinks : F .links) (k : Fin 4) (s0 : State) (h0 : P
    s0) : After P (execLinkTrain k s0) := by
  unfold execLinkTrain
  try dsimp only
  repeat' first
    | with_reducible assumption | with_reducible apply kept_askRefuse hP hlinks
    | with_reducible apply kept_askRise hP hkisl hlinks | with_reducible apply kept_clearSent hP hlinks
    | with_reducible apply kept_put hP | with_reducible apply kept_sendHello hP hlinks
    | with_reducible apply kept_ite | with_reducible apply after_next | with_reducible apply after_ite | split
    | dsimp only

theorem kept_execHelloRx (hP : Closed F P) (hlinks : F .links) (k : Fin 4) (h : AskHello) (s0 : State) (h0 : P s0) :
    After P (execHelloRx k h s0) := by
  unfold execHelloRx
  try dsimp only
  repeat' first
    | with_reducible assumption | with_reducible apply kept_askRefuse hP hlinks
    | with_reducible apply kept_clearSent hP hlinks | with_reducible apply kept_put hP
    | with_reducible apply kept_sendHello hP hlinks | with_reducible apply kept_showAsk hP
    | with_reducible apply kept_updLink hP hlinks | with_reducible apply kept_updPeer hP hlinks
    | with_reducible apply kept_ite | with_reducible apply after_next | with_reducible apply after_ite
    | with_reducible exact fits_AskLink (fits_same _ _) | with_reducible exact fits_AskLink (fits_upd _ _ _ _)
    | with_reducible exact fits_AskLink (fits_set _ _ _ _) | with_reducible exact fits_AskLink (fits_map _ _ _)
    | with_reducible exact fits_AskLink (fits_replicate _ _ _) | with_reducible exact fits_same _ _
    | with_reducible exact fits_upd _ _ _ _ | with_reducible exact fits_set _ _ _ _
    | with_reducible exact fits_map _ _ _ | with_reducible exact fits_replicate _ _ _
    | with_reducible exact fun _ => fits_AskLink (fits_same _ _)
    | with_reducible exact fun _ => fits_AskLink (fits_upd _ _ _ _)
    | with_reducible exact fun _ => fits_AskLink (fits_set _ _ _ _)
    | with_reducible exact fun _ => fits_AskLink (fits_map _ _ _)
    | with_reducible exact fun _ => fits_AskLink (fits_replicate _ _ _)
    | with_reducible exact fun _ => fits_same _ _ | with_reducible exact fun _ => fits_upd _ _ _ _
    | with_reducible exact fun _ => fits_set _ _ _ _ | with_reducible exact fun _ => fits_map _ _ _
    | with_reducible exact fun _ => fits_replicate _ _ _ | dsimp only

theorem kept_execHelloRetry (hP : Closed F P) (hclk : F .clk) (hlinks : F .links) (k : Fin 4) (s0 : State) (h0 : P
    s0) : After P (execHelloRetry k s0) := by
  unfold execHelloRetry
  try dsimp only
  repeat' first
    | with_reducible assumption | with_reducible apply kept_advMono hP hclk
    | with_reducible apply kept_askRefuse hP hlinks | with_reducible apply kept_clearSent hP hlinks
    | with_reducible apply kept_sendHello hP hlinks | with_reducible apply kept_updLink hP hlinks
    | with_reducible apply kept_ite | with_reducible apply after_next | with_reducible apply after_ite
    | with_reducible exact fits_AskLink (fits_same _ _) | with_reducible exact fits_AskLink (fits_upd _ _ _ _)
    | with_reducible exact fits_AskLink (fits_set _ _ _ _) | with_reducible exact fits_AskLink (fits_map _ _ _)
    | with_reducible exact fits_AskLink (fits_replicate _ _ _) | with_reducible exact fits_same _ _
    | with_reducible exact fits_upd _ _ _ _ | with_reducible exact fits_set _ _ _ _
    | with_reducible exact fits_map _ _ _ | with_reducible exact fits_replicate _ _ _
    | with_reducible exact fun _ => fits_AskLink (fits_same _ _)
    | with_reducible exact fun _ => fits_AskLink (fits_upd _ _ _ _)
    | with_reducible exact fun _ => fits_AskLink (fits_set _ _ _ _)
    | with_reducible exact fun _ => fits_AskLink (fits_map _ _ _)
    | with_reducible exact fun _ => fits_AskLink (fits_replicate _ _ _)
    | with_reducible exact fun _ => fits_same _ _ | with_reducible exact fun _ => fits_upd _ _ _ _
    | with_reducible exact fun _ => fits_set _ _ _ _ | with_reducible exact fun _ => fits_map _ _ _
    | with_reducible exact fun _ => fits_replicate _ _ _ | split | dsimp only

theorem kept_execRetrain (hP : Closed F P) (hkisl : F .kisl) (hlinks : F .links) (r : Requester) (k : Fin 4) (s :
    State) (h0 : P s) : After P (execRetrain r k s) := by
  unfold execRetrain
  try dsimp only
  repeat' first
    | with_reducible assumption | intro _ | with_reducible apply kept_askLeave hP hkisl hlinks
    | with_reducible apply kept_onWrite hP | with_reducible apply after_next | dsimp only

theorem kept_execAskBlockLockLost (hP : Closed F P) (hkisl : F .kisl) (hlinks : F .links) (k : Fin 4) (s : State)
    (h0 : P s) : After P (execAskBlockLockLost k s) := by
  unfold execAskBlockLockLost
  try dsimp only
  repeat' first
    | with_reducible assumption | with_reducible apply kept_askLeave hP hkisl hlinks | with_reducible apply kept_ite
    | with_reducible apply after_next | with_reducible apply after_ite | dsimp only

theorem kept_askCalDone (hP : Closed F P) (hlinks : F .links) (s : State) (k : Nat) (ps : Nat) (h0 : P s) : P
    (askCalDone s k ps) := by
  unfold askCalDone
  try dsimp only
  repeat' first
    | with_reducible assumption | with_reducible apply kept_put hP | with_reducible apply kept_updLink hP hlinks
    | with_reducible apply kept_ite | with_reducible exact fits_AskLink (fits_same _ _)
    | with_reducible exact fits_AskLink (fits_upd _ _ _ _) | with_reducible exact fits_AskLink (fits_set _ _ _ _)
    | with_reducible exact fits_AskLink (fits_map _ _ _) | with_reducible exact fits_AskLink (fits_replicate _ _ _)
    | with_reducible exact fits_same _ _ | with_reducible exact fits_upd _ _ _ _
    | with_reducible exact fits_set _ _ _ _ | with_reducible exact fits_map _ _ _
    | with_reducible exact fits_replicate _ _ _ | with_reducible exact fun _ => fits_AskLink (fits_same _ _)
    | with_reducible exact fun _ => fits_AskLink (fits_upd _ _ _ _)
    | with_reducible exact fun _ => fits_AskLink (fits_set _ _ _ _)
    | with_reducible exact fun _ => fits_AskLink (fits_map _ _ _)
    | with_reducible exact fun _ => fits_AskLink (fits_replicate _ _ _)
    | with_reducible exact fun _ => fits_same _ _ | with_reducible exact fun _ => fits_upd _ _ _ _
    | with_reducible exact fun _ => fits_set _ _ _ _ | with_reducible exact fun _ => fits_map _ _ _
    | with_reducible exact fun _ => fits_replicate _ _ _ | dsimp only

theorem kept_askCfgWrite (hP : Closed F P) (hkisl : F .kisl) (hlinks : F .links) (s : State) (k : Nat) (v : Nat) (h0
    : P s) : P (askCfgWrite s k v) := by
  unfold askCfgWrite
  try dsimp only
  repeat' first
    | with_reducible assumption | with_reducible apply kept_askLeave hP hkisl hlinks
    | with_reducible apply kept_updLink hP hlinks | with_reducible apply kept_wrN hP
    | with_reducible exact fits_AskLink (fits_same _ _) | with_reducible exact fits_AskLink (fits_upd _ _ _ _)
    | with_reducible exact fits_AskLink (fits_set _ _ _ _) | with_reducible exact fits_AskLink (fits_map _ _ _)
    | with_reducible exact fits_AskLink (fits_replicate _ _ _) | with_reducible exact fits_same _ _
    | with_reducible exact fits_upd _ _ _ _ | with_reducible exact fits_set _ _ _ _
    | with_reducible exact fits_map _ _ _ | with_reducible exact fits_replicate _ _ _
    | with_reducible exact fun _ => fits_AskLink (fits_same _ _)
    | with_reducible exact fun _ => fits_AskLink (fits_upd _ _ _ _)
    | with_reducible exact fun _ => fits_AskLink (fits_set _ _ _ _)
    | with_reducible exact fun _ => fits_AskLink (fits_map _ _ _)
    | with_reducible exact fun _ => fits_AskLink (fits_replicate _ _ _)
    | with_reducible exact fun _ => fits_same _ _ | with_reducible exact fun _ => fits_upd _ _ _ _
    | with_reducible exact fun _ => fits_set _ _ _ _ | with_reducible exact fun _ => fits_map _ _ _
    | with_reducible exact fun _ => fits_replicate _ _ _ | dsimp only

theorem kept_peerSays (hP : Closed F P) (hlinks : F .links) (s : State) (k : Nat) (c : Nat) (flags : Nat) (servo :
    Nat) (unc : Nat) (h0 : P s) : P (peerSays s k c flags servo unc) := by
  unfold peerSays
  try dsimp only
  repeat' first
    | with_reducible assumption | with_reducible apply kept_raiseIf hP | with_reducible apply kept_updPeer hP hlinks
    | dsimp only

theorem kept_execMarkTx (hP : Closed F P) (hclk : F .clk) (hlinks : F .links) (k : Fin 4) (s0 : State) (h0 : P s0) :
    After P (execMarkTx k s0) := by
  unfold execMarkTx
  try dsimp only
  repeat' first
    | with_reducible assumption | intro _ | with_reducible apply kept_advT96 hP hclk
    | with_reducible apply kept_clearSent hP hlinks | with_reducible apply kept_sendAsk hP hlinks
    | with_reducible apply kept_updLink hP hlinks | with_reducible apply kept_updPeer hP hlinks
    | with_reducible apply kept_ite | with_reducible apply kept_foldl | with_reducible apply kept_foldl_fst
    | with_reducible apply after_next | with_reducible apply after_ite
    | with_reducible exact fits_AskLink (fits_same _ _) | with_reducible exact fits_AskLink (fits_upd _ _ _ _)
    | with_reducible exact fits_AskLink (fits_set _ _ _ _) | with_reducible exact fits_AskLink (fits_map _ _ _)
    | with_reducible exact fits_AskLink (fits_replicate _ _ _) | with_reducible exact fits_same _ _
    | with_reducible exact fits_upd _ _ _ _ | with_reducible exact fits_set _ _ _ _
    | with_reducible exact fits_map _ _ _ | with_reducible exact fits_replicate _ _ _
    | with_reducible exact fun _ => fits_AskLink (fits_same _ _)
    | with_reducible exact fun _ => fits_AskLink (fits_upd _ _ _ _)
    | with_reducible exact fun _ => fits_AskLink (fits_set _ _ _ _)
    | with_reducible exact fun _ => fits_AskLink (fits_map _ _ _)
    | with_reducible exact fun _ => fits_AskLink (fits_replicate _ _ _)
    | with_reducible exact fun _ => fits_same _ _ | with_reducible exact fun _ => fits_upd _ _ _ _
    | with_reducible exact fun _ => fits_set _ _ _ _ | with_reducible exact fun _ => fits_map _ _ _
    | with_reducible exact fun _ => fits_replicate _ _ _ | split | dsimp only

theorem kept_markMissed (hP : Closed F P) (hkisl : F .kisl) (hlinks : F .links) (s : State) (k : Nat) (h0 : P s) : P
    (markMissed s k) := by
  unfold markMissed
  try dsimp only
  repeat' first
    | with_reducible assumption | with_reducible apply kept_askLeave hP hkisl hlinks
    | with_reducible apply kept_bump hP | with_reducible apply kept_updLink hP hlinks
    | with_reducible apply kept_ite | with_reducible exact fits_AskLink (fits_same _ _)
    | with_reducible exact fits_AskLink (fits_upd _ _ _ _) | with_reducible exact fits_AskLink (fits_set _ _ _ _)
    | with_reducible exact fits_AskLink (fits_map _ _ _) | with_reducible exact fits_AskLink (fits_replicate _ _ _)
    | with_reducible exact fits_same _ _ | with_reducible exact fits_upd _ _ _ _
    | with_reducible exact fits_set _ _ _ _ | with_reducible exact fits_map _ _ _
    | with_reducible exact fits_replicate _ _ _ | with_reducible exact fun _ => fits_AskLink (fits_same _ _)
    | with_reducible exact fun _ => fits_AskLink (fits_upd _ _ _ _)
    | with_reducible exact fun _ => fits_AskLink (fits_set _ _ _ _)
    | with_reducible exact fun _ => fits_AskLink (fits_map _ _ _)
    | with_reducible exact fun _ => fits_AskLink (fits_replicate _ _ _)
    | with_reducible exact fun _ => fits_same _ _ | with_reducible exact fun _ => fits_upd _ _ _ _
    | with_reducible exact fun _ => fits_set _ _ _ _ | with_reducible exact fun _ => fits_map _ _ _
    | with_reducible exact fun _ => fits_replicate _ _ _ | dsimp only

theorem kept_takeUtc (hP : Closed F P) (htb : F .tb) (s : State) (b : List Byte) (h0 : P s) : P (takeUtc s b) := by
  unfold takeUtc
  try dsimp only
  repeat' first
    | with_reducible assumption | with_reducible apply kept_endSmear hP htb
    | with_reducible apply kept_refreshLeapDay hP | with_reducible apply kept_setUtcOfs hP
    | with_reducible apply kept_wrN hP | with_reducible apply kept_ite | dsimp only

theorem kept_takeMark (hP : Closed F P) (htb : F .tb) (hdsc : F .dsc) (hlinks : F .links) (s : State) (k : Nat) (b :
    List Byte) (h0 : P s) : P (takeMark s k b) := by
  unfold takeMark
  try dsimp only
  repeat' first
    | with_reducible assumption | with_reducible apply kept_peerSays hP hlinks
    | with_reducible apply kept_showAsk hP | with_reducible apply kept_takeUtc hP htb
    | with_reducible apply kept_updPeer hP hlinks | with_reducible apply kept_updServo hP hdsc
    | with_reducible apply kept_updSlot hP hdsc | with_reducible apply kept_ite
    | with_reducible exact fits_Servo (fits_same _ _) | with_reducible exact fits_Servo (fits_upd _ _ _ _)
    | with_reducible exact fits_Servo (fits_set _ _ _ _) | with_reducible exact fits_Servo (fits_map _ _ _)
    | with_reducible exact fits_Servo (fits_replicate _ _ _) | with_reducible exact fits_same _ _
    | with_reducible exact fits_upd _ _ _ _ | with_reducible exact fits_set _ _ _ _
    | with_reducible exact fits_map _ _ _ | with_reducible exact fits_replicate _ _ _
    | with_reducible exact fun _ => fits_Servo (fits_same _ _)
    | with_reducible exact fun _ => fits_Servo (fits_upd _ _ _ _)
    | with_reducible exact fun _ => fits_Servo (fits_set _ _ _ _)
    | with_reducible exact fun _ => fits_Servo (fits_map _ _ _)
    | with_reducible exact fun _ => fits_Servo (fits_replicate _ _ _) | with_reducible exact fun _ => fits_same _ _
    | with_reducible exact fun _ => fits_upd _ _ _ _ | with_reducible exact fun _ => fits_set _ _ _ _
    | with_reducible exact fun _ => fits_map _ _ _ | with_reducible exact fun _ => fits_replicate _ _ _ | dsimp only

theorem kept_askSample (hP : Closed F P) (hdsc : F .dsc) (hlinks : F .links) (s : State) (k : Nat) (d : Int) (θ :
    Int) (y : Int) (h0 : P s) : P (askSample s k d θ y) := by
  unfold askSample
  try dsimp only
  repeat' first
    | with_reducible assumption | with_reducible apply kept_slotSample hP hdsc
    | with_reducible apply kept_updLink hP hlinks | with_reducible apply kept_updSlot hP hdsc
    | with_reducible apply kept_wrN hP | with_reducible apply kept_ite
    | with_reducible exact fits_AskLink (fits_same _ _) | with_reducible exact fits_AskLink (fits_upd _ _ _ _)
    | with_reducible exact fits_AskLink (fits_set _ _ _ _) | with_reducible exact fits_AskLink (fits_map _ _ _)
    | with_reducible exact fits_AskLink (fits_replicate _ _ _) | with_reducible exact fits_same _ _
    | with_reducible exact fits_upd _ _ _ _ | with_reducible exact fits_set _ _ _ _
    | with_reducible exact fits_map _ _ _ | with_reducible exact fits_replicate _ _ _
    | with_reducible exact fun _ => fits_AskLink (fits_same _ _)
    | with_reducible exact fun _ => fits_AskLink (fits_upd _ _ _ _)
    | with_reducible exact fun _ => fits_AskLink (fits_set _ _ _ _)
    | with_reducible exact fun _ => fits_AskLink (fits_map _ _ _)
    | with_reducible exact fun _ => fits_AskLink (fits_replicate _ _ _)
    | with_reducible exact fun _ => fits_same _ _ | with_reducible exact fun _ => fits_upd _ _ _ _
    | with_reducible exact fun _ => fits_set _ _ _ _ | with_reducible exact fun _ => fits_map _ _ _
    | with_reducible exact fun _ => fits_replicate _ _ _ | dsimp only

theorem kept_execMarkRx (hP : Closed F P) (htb : F .tb) (hdsc : F .dsc) (hkisl : F .kisl) (hlinks : F .links) (k :
    Fin 4) (crcOk : Bool) (seq : BitVec 16) (body : List Byte) (seen : BitVec 64) (ppt : Int) (s0 : State) (h0 : P s0) :
    After P (execMarkRx k crcOk seq body seen ppt s0) := by
  unfold execMarkRx
  try dsimp only
  repeat' first
    | with_reducible assumption | with_reducible apply kept_askSample hP hdsc hlinks
    | with_reducible apply kept_bump hP | with_reducible apply kept_clearSent hP hlinks
    | with_reducible apply kept_markMissed hP hkisl hlinks | with_reducible apply kept_takeMark hP htb hdsc hlinks
    | with_reducible apply kept_updLink hP hlinks | with_reducible apply kept_ite | with_reducible apply after_next
    | with_reducible apply after_ite | with_reducible exact fits_AskLink (fits_same _ _)
    | with_reducible exact fits_AskLink (fits_upd _ _ _ _) | with_reducible exact fits_AskLink (fits_set _ _ _ _)
    | with_reducible exact fits_AskLink (fits_map _ _ _) | with_reducible exact fits_AskLink (fits_replicate _ _ _)
    | with_reducible exact fits_same _ _ | with_reducible exact fits_upd _ _ _ _
    | with_reducible exact fits_set _ _ _ _ | with_reducible exact fits_map _ _ _
    | with_reducible exact fits_replicate _ _ _ | with_reducible exact fun _ => fits_AskLink (fits_same _ _)
    | with_reducible exact fun _ => fits_AskLink (fits_upd _ _ _ _)
    | with_reducible exact fun _ => fits_AskLink (fits_set _ _ _ _)
    | with_reducible exact fun _ => fits_AskLink (fits_map _ _ _)
    | with_reducible exact fun _ => fits_AskLink (fits_replicate _ _ _)
    | with_reducible exact fun _ => fits_same _ _ | with_reducible exact fun _ => fits_upd _ _ _ _
    | with_reducible exact fun _ => fits_set _ _ _ _ | with_reducible exact fun _ => fits_map _ _ _
    | with_reducible exact fun _ => fits_replicate _ _ _ | split | dsimp only

theorem kept_execMarkMiss (hP : Closed F P) (hkisl : F .kisl) (hlinks : F .links) (k : Fin 4) (s : State) (h0 : P s)
    : After P (execMarkMiss k s) := by
  unfold execMarkMiss
  try dsimp only
  repeat' first
    | with_reducible assumption | with_reducible apply kept_markMissed hP hkisl hlinks
    | with_reducible apply kept_ite | with_reducible apply after_next | with_reducible apply after_ite | dsimp only

theorem kept_execEchoTx (hP : Closed F P) (hclk : F .clk) (hlinks : F .links) (k : Fin 4) (s0 : State) (h0 : P s0) :
    After P (execEchoTx k s0) := by
  unfold execEchoTx
  try dsimp only
  repeat' first
    | with_reducible assumption | with_reducible apply kept_advPc hP hclk
    | with_reducible apply kept_clearSent hP hlinks | with_reducible apply kept_sendAsk hP hlinks
    | with_reducible apply kept_updLink hP hlinks | with_reducible apply kept_ite | with_reducible apply after_next
    | with_reducible apply after_ite | with_reducible exact fits_AskLink (fits_same _ _)
    | with_reducible exact fits_AskLink (fits_upd _ _ _ _) | with_reducible exact fits_AskLink (fits_set _ _ _ _)
    | with_reducible exact fits_AskLink (fits_map _ _ _) | with_reducible exact fits_AskLink (fits_replicate _ _ _)
    | with_reducible exact fits_same _ _ | with_reducible exact fits_upd _ _ _ _
    | with_reducible exact fits_set _ _ _ _ | with_reducible exact fits_map _ _ _
    | with_reducible exact fits_replicate _ _ _ | with_reducible exact fun _ => fits_AskLink (fits_same _ _)
    | with_reducible exact fun _ => fits_AskLink (fits_upd _ _ _ _)
    | with_reducible exact fun _ => fits_AskLink (fits_set _ _ _ _)
    | with_reducible exact fun _ => fits_AskLink (fits_map _ _ _)
    | with_reducible exact fun _ => fits_AskLink (fits_replicate _ _ _)
    | with_reducible exact fun _ => fits_same _ _ | with_reducible exact fun _ => fits_upd _ _ _ _
    | with_reducible exact fun _ => fits_set _ _ _ _ | with_reducible exact fun _ => fits_map _ _ _
    | with_reducible exact fun _ => fits_replicate _ _ _ | split | dsimp only

theorem kept_takeEcho (hP : Closed F P) (hlinks : F .links) (s : State) (k : Nat) (n : Nat) (echoed : Nat) (seen :
    BitVec 64) (h0 : P s) : P (takeEcho s k n echoed seen) := by
  unfold takeEcho
  try dsimp only
  repeat' first
    | with_reducible assumption | with_reducible apply kept_updPeer hP hlinks | with_reducible apply kept_ite
    | split | dsimp only

theorem kept_execEchoRx (hP : Closed F P) (hlinks : F .links) (k : Fin 4) (c : Fin 4) (crcOk : Bool) (body : List
    Byte) (seen : BitVec 64) (s0 : State) (h0 : P s0) : After P (execEchoRx k c crcOk body seen s0) := by
  unfold execEchoRx
  try dsimp only
  repeat' first
    | with_reducible assumption | with_reducible apply kept_bump hP | with_reducible apply kept_clearSent hP hlinks
    | with_reducible apply kept_peerSays hP hlinks | with_reducible apply kept_showAsk hP
    | with_reducible apply kept_takeEcho hP hlinks | with_reducible apply kept_ite | with_reducible apply after_next
    | with_reducible apply after_ite | dsimp only

theorem kept_execStepRx (hP : Closed F P) (htb : F .tb) (hlinks : F .links) (k : Fin 4) (crcOk : Bool) (body : List
    Byte) (s0 : State) (h0 : P s0) : After P (execStepRx k crcOk body s0) := by
  unfold execStepRx
  try dsimp only
  repeat' first
    | with_reducible assumption | with_reducible apply kept_bump hP | with_reducible apply kept_clearSent hP hlinks
    | with_reducible apply kept_requestUpStep hP htb hlinks | with_reducible apply kept_ite
    | with_reducible apply after_next | with_reducible apply after_ite | dsimp only

theorem kept_pubSend (hP : Closed F P) (hlinks : F .links) (s : State) (k : Nat) (h0 : P s) : P (pubSend s k) := by
  unfold pubSend
  try dsimp only
  repeat' first
    | with_reducible assumption | with_reducible apply kept_putB hP | with_reducible apply kept_sendAsk hP hlinks
    | with_reducible apply kept_showAsk hP | with_reducible apply kept_updPeer hP hlinks
    | with_reducible apply kept_ite | dsimp only

theorem kept_execPubGo (hP : Closed F P) (hlinks : F .links) (r : Requester) (k : Fin 4) (s : State) (h0 : P s) :
    After P (execPubGo r k s) := by
  unfold execPubGo
  try dsimp only
  repeat' first
    | with_reducible assumption | intro _ | with_reducible apply kept_clearSent hP hlinks
    | with_reducible apply kept_onWrite hP | with_reducible apply kept_pubSend hP hlinks
    | with_reducible apply after_next | dsimp only

theorem kept_execAgreeRx (hP : Closed F P) (hlinks : F .links) (k : Fin 4) (c : Fin 4) (crcOk : Bool) (body : List
    Byte) (s : State) (h0 : P s) : After P (execAgreeRx k c crcOk body s) := by
  unfold execAgreeRx
  try dsimp only
  repeat' first
    | with_reducible assumption | intro _ | with_reducible apply kept_bump hP | with_reducible apply kept_put hP
    | with_reducible apply kept_putB hP | with_reducible apply kept_raise hP
    | with_reducible apply kept_updPeer hP hlinks | with_reducible apply kept_wrN hP | with_reducible apply kept_ite
    | with_reducible apply kept_foldl | with_reducible apply kept_foldl_fst | with_reducible apply after_next
    | with_reducible apply after_ite | dsimp only

theorem kept_compareChecks (hP : Closed F P) (hlinks : F .links) (s : State) (k : Nat) (c : Nat) (h0 : P s) : P
    (compareChecks s k c) := by
  unfold compareChecks
  try dsimp only
  repeat' first
    | with_reducible assumption | intro _ | with_reducible apply kept_putB hP | with_reducible apply kept_raise hP
    | with_reducible apply kept_sendKeyTo hP hlinks | with_reducible apply kept_showAsk hP
    | with_reducible apply kept_showKeys hP | with_reducible apply kept_updPeer hP hlinks
    | with_reducible apply kept_ite | with_reducible apply kept_foldl | with_reducible apply kept_foldl_fst | split
    | dsimp only

theorem kept_lkInstall (hP : Closed F P) (hlinks : F .links) (hcore : F .core) (hharts : F .harts) (s : State) (r :
    Requester) (k : Nat) (h0 : P s) : P (lkInstall s r k) := by
  unfold lkInstall
  try dsimp only
  repeat' first
    | with_reducible assumption | with_reducible apply kept_compareChecks hP hlinks
    | with_reducible apply kept_putB hP | with_reducible apply kept_sendAsk hP hlinks
    | with_reducible apply kept_showAsk hP | with_reducible apply kept_updPeer hP hlinks
    | with_reducible apply kept_writeCore hP hcore hharts | with_reducible apply kept_ite | dsimp only

theorem kept_execLkGo (hP : Closed F P) (hlinks : F .links) (hcore : F .core) (hharts : F .harts) (r : Requester) (k
    : Fin 4) (s : State) (h0 : P s) : After P (execLkGo r k s) := by
  unfold execLkGo
  try dsimp only
  repeat' first
    | with_reducible assumption | intro _ | with_reducible apply kept_clearSent hP hlinks
    | with_reducible apply kept_lkInstall hP hlinks hcore hharts | with_reducible apply kept_onWrite hP
    | with_reducible apply after_next | dsimp only

theorem kept_execKeyCheckRx (hP : Closed F P) (hlinks : F .links) (k : Fin 4) (c : Fin 4) (crcOk : Bool) (body :
    List Byte) (s0 : State) (h0 : P s0) : After P (execKeyCheckRx k c crcOk body s0) := by
  unfold execKeyCheckRx
  try dsimp only
  repeat' first
    | with_reducible assumption | with_reducible apply kept_bump hP | with_reducible apply kept_clearSent hP hlinks
    | with_reducible apply kept_compareChecks hP hlinks | with_reducible apply kept_updPeer hP hlinks
    | with_reducible apply kept_ite | with_reducible apply after_next | with_reducible apply after_ite | dsimp only

theorem kept_takeKeyFrame (hP : Closed F P) (hports : F .ports) (hkisl : F .kisl) (hlinks : F .links) (s : State) (b
    : List Byte) (key : List Byte) (h0 : P s) : P (takeKeyFrame s b key) := by
  unfold takeKeyFrame
  try dsimp only
  repeat' first
    | with_reducible assumption | with_reducible apply kept_takeUpKey hP hports hkisl hlinks
    | with_reducible apply kept_takeUpPurge hP hports hkisl hlinks | with_reducible apply kept_ite | dsimp only

theorem kept_execKeyFrameRx (hP : Closed F P) (hports : F .ports) (hkisl : F .kisl) (hlinks : F .links) (k : Fin 4)
    (crcOk : Bool) (seq : BitVec 16) (body : List Byte) (s0 : State) (h0 : P s0) : After P (execKeyFrameRx k crcOk seq
    body s0) := by
  unfold execKeyFrameRx
  try dsimp only
  repeat' first
    | with_reducible assumption | with_reducible apply kept_bump hP | with_reducible apply kept_clearSent hP hlinks
    | with_reducible apply kept_raise hP | with_reducible apply kept_takeKeyFrame hP hports hkisl hlinks
    | with_reducible apply kept_updPeer hP hlinks | with_reducible apply kept_ite | with_reducible apply after_next
    | with_reducible apply after_ite | split | dsimp only

theorem kept_showMbTx (hP : Closed F P) (s : State) (k : Nat) (h0 : P s) : P (showMbTx s k) := by
  unfold showMbTx
  try dsimp only
  repeat' first
    | with_reducible assumption | with_reducible apply kept_put hP | dsimp only

theorem kept_mbLeave (hP : Closed F P) (hlinks : F .links) (s : State) (k : Nat) (h0 : P s) : P (mbLeave s k) := by
  unfold mbLeave
  try dsimp only
  repeat' first
    | with_reducible assumption | intro _ | with_reducible apply kept_drawn hP
    | with_reducible apply kept_sendAsk hP hlinks | with_reducible apply kept_showMbTx hP
    | with_reducible apply kept_updLink hP hlinks | with_reducible apply kept_ite | with_reducible apply kept_foldl
    | with_reducible apply kept_foldl_fst | with_reducible exact fits_AskLink (fits_same _ _)
    | with_reducible exact fits_AskLink (fits_upd _ _ _ _) | with_reducible exact fits_AskLink (fits_set _ _ _ _)
    | with_reducible exact fits_AskLink (fits_map _ _ _) | with_reducible exact fits_AskLink (fits_replicate _ _ _)
    | with_reducible exact fits_same _ _ | with_reducible exact fits_upd _ _ _ _
    | with_reducible exact fits_set _ _ _ _ | with_reducible exact fits_map _ _ _
    | with_reducible exact fits_replicate _ _ _ | with_reducible exact fun _ => fits_AskLink (fits_same _ _)
    | with_reducible exact fun _ => fits_AskLink (fits_upd _ _ _ _)
    | with_reducible exact fun _ => fits_AskLink (fits_set _ _ _ _)
    | with_reducible exact fun _ => fits_AskLink (fits_map _ _ _)
    | with_reducible exact fun _ => fits_AskLink (fits_replicate _ _ _)
    | with_reducible exact fun _ => fits_same _ _ | with_reducible exact fun _ => fits_upd _ _ _ _
    | with_reducible exact fun _ => fits_set _ _ _ _ | with_reducible exact fun _ => fits_map _ _ _
    | with_reducible exact fun _ => fits_replicate _ _ _ | dsimp only

theorem kept_mbGo (hP : Closed F P) (hlinks : F .links) (s : State) (k : Nat) (len : Nat) (dest : Nat) (h0 : P s) :
    P (mbGo s k len dest) := by
  unfold mbGo
  try dsimp only
  repeat' first
    | with_reducible assumption | with_reducible apply kept_mbLeave hP hlinks | with_reducible apply kept_put hP
    | with_reducible apply kept_putB hP | with_reducible apply kept_showMbTx hP
    | with_reducible apply kept_updLink hP hlinks | with_reducible apply kept_ite
    | with_reducible exact fits_AskLink (fits_same _ _) | with_reducible exact fits_AskLink (fits_upd _ _ _ _)
    | with_reducible exact fits_AskLink (fits_set _ _ _ _) | with_reducible exact fits_AskLink (fits_map _ _ _)
    | with_reducible exact fits_AskLink (fits_replicate _ _ _) | with_reducible exact fits_same _ _
    | with_reducible exact fits_upd _ _ _ _ | with_reducible exact fits_set _ _ _ _
    | with_reducible exact fits_map _ _ _ | with_reducible exact fits_replicate _ _ _
    | with_reducible exact fun _ => fits_AskLink (fits_same _ _)
    | with_reducible exact fun _ => fits_AskLink (fits_upd _ _ _ _)
    | with_reducible exact fun _ => fits_AskLink (fits_set _ _ _ _)
    | with_reducible exact fun _ => fits_AskLink (fits_map _ _ _)
    | with_reducible exact fun _ => fits_AskLink (fits_replicate _ _ _)
    | with_reducible exact fun _ => fits_same _ _ | with_reducible exact fun _ => fits_upd _ _ _ _
    | with_reducible exact fun _ => fits_set _ _ _ _ | with_reducible exact fun _ => fits_map _ _ _
    | with_reducible exact fun _ => fits_replicate _ _ _ | dsimp only

theorem kept_execMbTxGo (hP : Closed F P) (hlinks : F .links) (r : Requester) (k : Fin 4) (len : Fin 512) (dest :
    Fin 4) (s : State) (h0 : P s) : After P (execMbTxGo r k len dest s) := by
  unfold execMbTxGo
  try dsimp only
  repeat' first
    | with_reducible assumption | intro _ | with_reducible apply kept_clearSent hP hlinks
    | with_reducible apply kept_mbGo hP hlinks | with_reducible apply kept_onWrite hP
    | with_reducible apply after_next | dsimp only

theorem kept_showMbRx (hP : Closed F P) (s : State) (k : Nat) (new : Bool) (h0 : P s) : P (showMbRx s k new) := by
  unfold showMbRx
  try dsimp only
  repeat' first
    | with_reducible assumption | intro _ | with_reducible apply kept_raiseIf hP | with_reducible apply kept_wrN hP
    | with_reducible apply kept_foldl | with_reducible apply kept_foldl_fst | split | dsimp only

theorem kept_execMbRx (hP : Closed F P) (hlinks : F .links) (k : Fin 4) (c : Fin 4) (crcOk : Bool) (msg : List Byte)
    (s : State) (h0 : P s) : After P (execMbRx k c crcOk msg s) := by
  unfold execMbRx
  try dsimp only
  repeat' first
    | with_reducible assumption | with_reducible apply kept_bump hP | with_reducible apply kept_showMbRx hP
    | with_reducible apply kept_updLink hP hlinks | with_reducible apply kept_ite | with_reducible apply after_next
    | with_reducible apply after_ite | with_reducible exact fits_AskLink (fits_same _ _)
    | with_reducible exact fits_AskLink (fits_upd _ _ _ _) | with_reducible exact fits_AskLink (fits_set _ _ _ _)
    | with_reducible exact fits_AskLink (fits_map _ _ _) | with_reducible exact fits_AskLink (fits_replicate _ _ _)
    | with_reducible exact fits_same _ _ | with_reducible exact fits_upd _ _ _ _
    | with_reducible exact fits_set _ _ _ _ | with_reducible exact fits_map _ _ _
    | with_reducible exact fits_replicate _ _ _ | with_reducible exact fun _ => fits_AskLink (fits_same _ _)
    | with_reducible exact fun _ => fits_AskLink (fits_upd _ _ _ _)
    | with_reducible exact fun _ => fits_AskLink (fits_set _ _ _ _)
    | with_reducible exact fun _ => fits_AskLink (fits_map _ _ _)
    | with_reducible exact fun _ => fits_AskLink (fits_replicate _ _ _)
    | with_reducible exact fun _ => fits_same _ _ | with_reducible exact fun _ => fits_upd _ _ _ _
    | with_reducible exact fun _ => fits_set _ _ _ _ | with_reducible exact fun _ => fits_map _ _ _
    | with_reducible exact fun _ => fits_replicate _ _ _ | dsimp only

theorem kept_mbTake (hP : Closed F P) (hlinks : F .links) (s : State) (k : Nat) (h0 : P s) : P (mbTake s k) := by
  unfold mbTake
  try dsimp only
  repeat' first
    | with_reducible assumption | with_reducible apply kept_showMbRx hP
    | with_reducible apply kept_updLink hP hlinks | with_reducible exact fits_AskLink (fits_same _ _)
    | with_reducible exact fits_AskLink (fits_upd _ _ _ _) | with_reducible exact fits_AskLink (fits_set _ _ _ _)
    | with_reducible exact fits_AskLink (fits_map _ _ _) | with_reducible exact fits_AskLink (fits_replicate _ _ _)
    | with_reducible exact fits_same _ _ | with_reducible exact fits_upd _ _ _ _
    | with_reducible exact fits_set _ _ _ _ | with_reducible exact fits_map _ _ _
    | with_reducible exact fits_replicate _ _ _ | with_reducible exact fun _ => fits_AskLink (fits_same _ _)
    | with_reducible exact fun _ => fits_AskLink (fits_upd _ _ _ _)
    | with_reducible exact fun _ => fits_AskLink (fits_set _ _ _ _)
    | with_reducible exact fun _ => fits_AskLink (fits_map _ _ _)
    | with_reducible exact fun _ => fits_AskLink (fits_replicate _ _ _)
    | with_reducible exact fun _ => fits_same _ _ | with_reducible exact fun _ => fits_upd _ _ _ _
    | with_reducible exact fun _ => fits_set _ _ _ _ | with_reducible exact fun _ => fits_map _ _ _
    | with_reducible exact fun _ => fits_replicate _ _ _ | dsimp only

theorem kept_execMbPop (hP : Closed F P) (hlinks : F .links) (r : Requester) (k : Fin 4) (s : State) (h0 : P s) :
    After P (execMbPop r k s) := by
  unfold execMbPop
  try dsimp only
  repeat' first
    | with_reducible assumption | intro _ | with_reducible apply kept_mbTake hP hlinks
    | with_reducible apply kept_onWrite hP | with_reducible apply after_next | dsimp only

theorem kept_askCtrl (hP : Closed F P) (hkisl : F .kisl) (hlinks : F .links) (hcore : F .core) (hharts : F .harts)
    (s : State) (r : Requester) (k : Nat) (v : Nat) (h0 : P s) : P (askCtrl s r k v) := by
  unfold askCtrl
  try dsimp only
  repeat' first
    | with_reducible assumption | with_reducible apply kept_askLeave hP hkisl hlinks
    | with_reducible apply kept_lkInstall hP hlinks hcore hharts | with_reducible apply kept_pubSend hP hlinks
    | with_reducible apply kept_ite | dsimp only

theorem kept_linkKeysErased (hP : Closed F P) (hlinks : F .links) (s : State) (k : Nat) (h0 : P s) : P
    (linkKeysErased s k) := by
  unfold linkKeysErased
  try dsimp only
  repeat' first
    | with_reducible assumption | intro _ | with_reducible apply kept_showAsk hP
    | with_reducible apply kept_updPeer hP hlinks | with_reducible apply kept_foldl
    | with_reducible apply kept_foldl_fst | dsimp only

theorem kept_askEnabled (hP : Closed F P) (hkisl : F .kisl) (hlinks : F .links) (s : State) (k : Nat) (h0 : P s) : P
    (askEnabled s k) := by
  unfold askEnabled
  try dsimp only
  repeat' first
    | with_reducible assumption | with_reducible apply kept_askLeave hP hkisl hlinks | dsimp only

theorem kept_askReset (hP : Closed F P) (hkisl : F .kisl) (hlinks : F .links) (s : State) (h0 : P s) : P (askReset
    s) := by
  unfold askReset
  try dsimp only
  repeat' first
    | with_reducible assumption | intro _ | with_reducible apply kept_askLeave hP hkisl hlinks
    | with_reducible apply kept_updLink hP hlinks | with_reducible apply kept_foldl
    | with_reducible apply kept_foldl_fst | with_reducible exact fits_AskLink (fits_same _ _)
    | with_reducible exact fits_AskLink (fits_upd _ _ _ _) | with_reducible exact fits_AskLink (fits_set _ _ _ _)
    | with_reducible exact fits_AskLink (fits_map _ _ _) | with_reducible exact fits_AskLink (fits_replicate _ _ _)
    | with_reducible exact fits_same _ _ | with_reducible exact fits_upd _ _ _ _
    | with_reducible exact fits_set _ _ _ _ | with_reducible exact fits_map _ _ _
    | with_reducible exact fits_replicate _ _ _ | with_reducible exact fun _ => fits_AskLink (fits_same _ _)
    | with_reducible exact fun _ => fits_AskLink (fits_upd _ _ _ _)
    | with_reducible exact fun _ => fits_AskLink (fits_set _ _ _ _)
    | with_reducible exact fun _ => fits_AskLink (fits_map _ _ _)
    | with_reducible exact fun _ => fits_AskLink (fits_replicate _ _ _)
    | with_reducible exact fun _ => fits_same _ _ | with_reducible exact fun _ => fits_upd _ _ _ _
    | with_reducible exact fun _ => fits_set _ _ _ _ | with_reducible exact fun _ => fits_map _ _ _
    | with_reducible exact fun _ => fits_replicate _ _ _ | dsimp only

end Sys2Proof.Machine
end

