-- ==== Sys2Proof/Laws/KeptLaunch.lean ====
section
/-! SUPPORT. A property that survives the changes of Closed survives every function of: what is served, the launch units, the ageing monitor and the harts' controls. -/

set_option linter.unusedTactic false
set_option linter.unreachableTactic false
set_option linter.unusedVariables false

namespace Sys2Proof.Machine

variable {F : Part → Prop} {P : State → Prop}

/-! ### Served -/

theorem kept_tabFields (hP : Closed F P) (s : State) (d : Nat) (idx : Nat) (addr : Bool) (rw : Bool) (h0 : P s) : P
    (tabFields s d idx addr rw) := by
  unfold tabFields
  try dsimp only
  repeat' first
    | with_reducible assumption | with_reducible apply kept_put hP | with_reducible apply kept_putB hP | dsimp only

theorem kept_tabGo (hP : Closed F P) (r : Requester) (d : Nat) (idx : Nat) (addr : Bool) (rw : Bool) (f : State →
    State) (s : State) (h0 : ∀ y0, P y0 → P (f y0)) (h1 : P s) : P (tabGo r d idx addr rw f s) := by
  unfold tabGo
  try dsimp only
  repeat' first
    | with_reducible assumption | with_reducible apply h0 | intro _ | with_reducible apply kept_onWrite hP
    | with_reducible apply kept_putB hP | with_reducible apply kept_tabFields hP | with_reducible apply kept_ite
    | dsimp only

theorem kept_execAnsTabRead (hP : Closed F P) (r : Requester) (d : Fin 4) (idx : Fin 128) (addr : Bool) (s : State)
    (h0 : P s) : After P (execAnsTabRead r d idx addr s) := by
  unfold execAnsTabRead
  try dsimp only
  repeat' first
    | with_reducible assumption | intro _ | with_reducible apply kept_tabGo hP | with_reducible apply kept_wrN hP
    | with_reducible apply kept_ite | with_reducible apply kept_foldl | with_reducible apply kept_foldl_fst
    | with_reducible apply after_next | with_reducible apply after_ite | dsimp only

theorem kept_execAnsTabWrite (hP : Closed F P) (hports : F .ports) (r : Requester) (d : Fin 4) (idx : Fin 128) (addr
    : Bool) (s : State) (h0 : P s) : After P (execAnsTabWrite r d idx addr s) := by
  unfold execAnsTabWrite
  try dsimp only
  repeat' first
    | with_reducible assumption | intro _ | with_reducible apply kept_putB hP | with_reducible apply kept_tabGo hP
    | with_reducible apply kept_updPd hP hports | with_reducible apply kept_ite | with_reducible apply after_next
    | with_reducible apply after_ite | with_reducible exact fits_PortDie (fits_same _ _)
    | with_reducible exact fits_PortDie (fits_upd _ _ _ _) | with_reducible exact fits_PortDie (fits_set _ _ _ _)
    | with_reducible exact fits_PortDie (fits_map _ _ _) | with_reducible exact fits_PortDie (fits_replicate _ _ _)
    | with_reducible exact fits_same _ _ | with_reducible exact fits_upd _ _ _ _
    | with_reducible exact fits_set _ _ _ _ | with_reducible exact fits_map _ _ _
    | with_reducible exact fits_replicate _ _ _ | with_reducible exact fun _ => fits_PortDie (fits_same _ _)
    | with_reducible exact fun _ => fits_PortDie (fits_upd _ _ _ _)
    | with_reducible exact fun _ => fits_PortDie (fits_set _ _ _ _)
    | with_reducible exact fun _ => fits_PortDie (fits_map _ _ _)
    | with_reducible exact fun _ => fits_PortDie (fits_replicate _ _ _)
    | with_reducible exact fun _ => fits_same _ _ | with_reducible exact fun _ => fits_upd _ _ _ _
    | with_reducible exact fun _ => fits_set _ _ _ _ | with_reducible exact fun _ => fits_map _ _ _
    | with_reducible exact fun _ => fits_replicate _ _ _ | dsimp only

theorem kept_execAnsTabDone (hP : Closed F P) (hports : F .ports) (d : Fin 4) (s : State) (h0 : P s) : After P
    (execAnsTabDone d s) := by
  unfold execAnsTabDone
  try dsimp only
  repeat' first
    | with_reducible assumption | with_reducible apply kept_putB hP | with_reducible apply kept_updPd hP hports
    | with_reducible apply kept_ite | with_reducible apply after_next | with_reducible apply after_ite
    | with_reducible exact fits_PortDie (fits_same _ _) | with_reducible exact fits_PortDie (fits_upd _ _ _ _)
    | with_reducible exact fits_PortDie (fits_set _ _ _ _) | with_reducible exact fits_PortDie (fits_map _ _ _)
    | with_reducible exact fits_PortDie (fits_replicate _ _ _) | with_reducible exact fits_same _ _
    | with_reducible exact fits_upd _ _ _ _ | with_reducible exact fits_set _ _ _ _
    | with_reducible exact fits_map _ _ _ | with_reducible exact fits_replicate _ _ _
    | with_reducible exact fun _ => fits_PortDie (fits_same _ _)
    | with_reducible exact fun _ => fits_PortDie (fits_upd _ _ _ _)
    | with_reducible exact fun _ => fits_PortDie (fits_set _ _ _ _)
    | with_reducible exact fun _ => fits_PortDie (fits_map _ _ _)
    | with_reducible exact fun _ => fits_PortDie (fits_replicate _ _ _)
    | with_reducible exact fun _ => fits_same _ _ | with_reducible exact fun _ => fits_upd _ _ _ _
    | with_reducible exact fun _ => fits_set _ _ _ _ | with_reducible exact fun _ => fits_map _ _ _
    | with_reducible exact fun _ => fits_replicate _ _ _ | split | dsimp only

/-! ### PtpBuild -/

theorem kept_updInst (hP : Closed F P) (hports : F .ports) (s : State) (d : Nat) (n : Nat) (f : Inst → Inst) (h0 : P
    s) : P (updInst s d n f) := by
  unfold updInst
  try dsimp only
  repeat' first
    | with_reducible assumption | with_reducible apply kept_updPd hP hports
    | with_reducible exact fits_PortDie (fits_same _ _) | with_reducible exact fits_PortDie (fits_upd _ _ _ _)
    | with_reducible exact fits_PortDie (fits_set _ _ _ _) | with_reducible exact fits_PortDie (fits_map _ _ _)
    | with_reducible exact fits_PortDie (fits_replicate _ _ _) | with_reducible exact fits_same _ _
    | with_reducible exact fits_upd _ _ _ _ | with_reducible exact fits_set _ _ _ _
    | with_reducible exact fits_map _ _ _ | with_reducible exact fits_replicate _ _ _
    | with_reducible exact fun _ => fits_PortDie (fits_same _ _)
    | with_reducible exact fun _ => fits_PortDie (fits_upd _ _ _ _)
    | with_reducible exact fun _ => fits_PortDie (fits_set _ _ _ _)
    | with_reducible exact fun _ => fits_PortDie (fits_map _ _ _)
    | with_reducible exact fun _ => fits_PortDie (fits_replicate _ _ _)
    | with_reducible exact fun _ => fits_same _ _ | with_reducible exact fun _ => fits_upd _ _ _ _
    | with_reducible exact fun _ => fits_set _ _ _ _ | with_reducible exact fun _ => fits_map _ _ _
    | with_reducible exact fun _ => fits_replicate _ _ _ | dsimp only

/-! ### Launch -/

theorem kept_jitter (hP : Closed F P) (s : State) (d : Nat) (i : Nat) (h0 : P s) : P (jitter s d i).1 := by
  unfold jitter
  try dsimp only
  repeat' first
    | with_reducible assumption | with_reducible apply kept_drawn hP | with_reducible apply kept_ite
    | with_reducible apply kept_fst_ite | dsimp only

theorem kept_formDelays (hP : Closed F P) (s : State) (d : Nat) (i : Nat) (h0 : P s) : P (formDelays s d i) := by
  unfold formDelays
  try dsimp only
  repeat' first
    | with_reducible assumption | with_reducible apply kept_put hP | with_reducible apply kept_ite | dsimp only

theorem kept_watchCal (hP : Closed F P) (hports : F .ports) (s : State) (d : Nat) (i : Nat) (h0 : P s) : P (watchCal
    s d i) := by
  unfold watchCal
  try dsimp only
  repeat' first
    | with_reducible assumption | with_reducible apply kept_doubt hP | with_reducible apply kept_updPort hP hports
    | with_reducible apply kept_ite | with_reducible exact fits_same _ _ | with_reducible exact fits_upd _ _ _ _
    | with_reducible exact fits_set _ _ _ _ | with_reducible exact fits_map _ _ _
    | with_reducible exact fits_replicate _ _ _ | with_reducible exact fun _ => fits_same _ _
    | with_reducible exact fun _ => fits_upd _ _ _ _ | with_reducible exact fun _ => fits_set _ _ _ _
    | with_reducible exact fun _ => fits_map _ _ _ | with_reducible exact fun _ => fits_replicate _ _ _ | dsimp only

theorem kept_dropCal (hP : Closed F P) (s : State) (d : Nat) (i : Nat) (h0 : P s) : P (dropCal s d i) := by
  unfold dropCal
  try dsimp only
  repeat' first
    | with_reducible assumption | with_reducible apply kept_putB hP | with_reducible apply kept_raiseIf hP
    | dsimp only

theorem kept_startCal (hP : Closed F P) (hports : F .ports) (s : State) (d : Nat) (i : Nat) (h0 : P s) : P (startCal
    s d i) := by
  unfold startCal
  try dsimp only
  repeat' first
    | with_reducible assumption | with_reducible apply kept_dropCal hP | with_reducible apply kept_showTimed hP
    | with_reducible apply kept_updPort hP hports | with_reducible apply kept_watchCal hP hports
    | with_reducible apply kept_ite | with_reducible exact fits_same _ _ | with_reducible exact fits_upd _ _ _ _
    | with_reducible exact fits_set _ _ _ _ | with_reducible exact fits_map _ _ _
    | with_reducible exact fits_replicate _ _ _ | with_reducible exact fun _ => fits_same _ _
    | with_reducible exact fun _ => fits_upd _ _ _ _ | with_reducible exact fun _ => fits_set _ _ _ _
    | with_reducible exact fun _ => fits_map _ _ _ | with_reducible exact fun _ => fits_replicate _ _ _ | dsimp only

theorem kept_execTsuCalRun (hP : Closed F P) (hports : F .ports) (r : Requester) (d : Fin 4) (i : Fin 8) (s : State)
    (h0 : P s) : After P (execTsuCalRun r d i s) := by
  unfold execTsuCalRun
  try dsimp only
  repeat' first
    | with_reducible assumption | intro _ | with_reducible apply kept_onWrite hP
    | with_reducible apply kept_startCal hP hports | with_reducible apply after_next | dsimp only

theorem kept_calDone (hP : Closed F P) (hports : F .ports) (s : State) (d : Nat) (i : Nat) (ser : Nat) (h0 : P s) :
    P (calDone s d i ser) := by
  unfold calDone
  try dsimp only
  repeat' first
    | with_reducible assumption | with_reducible apply kept_formDelays hP | with_reducible apply kept_put hP
    | with_reducible apply kept_putB hP | with_reducible apply kept_raise hP
    | with_reducible apply kept_showTimed hP | with_reducible apply kept_updPort hP hports
    | with_reducible apply kept_watchCal hP hports | with_reducible apply kept_ite
    | with_reducible exact fits_same _ _ | with_reducible exact fits_upd _ _ _ _
    | with_reducible exact fits_set _ _ _ _ | with_reducible exact fits_map _ _ _
    | with_reducible exact fits_replicate _ _ _ | with_reducible exact fun _ => fits_same _ _
    | with_reducible exact fun _ => fits_upd _ _ _ _ | with_reducible exact fun _ => fits_set _ _ _ _
    | with_reducible exact fun _ => fits_map _ _ _ | with_reducible exact fun _ => fits_replicate _ _ _ | dsimp only

theorem kept_execTsuCal (hP : Closed F P) (hclk : F .clk) (d : Fin 4) (i : Fin 8) (s : State) (h0 : P s) : After P
    (execTsuCal d i s) := by
  unfold execTsuCal
  try dsimp only
  repeat' first
    | with_reducible assumption | with_reducible apply kept_advMono hP hclk | with_reducible apply kept_doubt hP
    | with_reducible apply after_next | split | dsimp only

theorem kept_showAscap (hP : Closed F P) (s : State) (d : Nat) (h0 : P s) : P (showAscap s d) := by
  unfold showAscap
  try dsimp only
  repeat' first
    | with_reducible assumption | intro _ | with_reducible apply kept_put hP | with_reducible apply kept_raise hP
    | with_reducible apply kept_ite | with_reducible apply kept_foldl | with_reducible apply kept_foldl_fst
    | dsimp only

theorem kept_updPdelay (hP : Closed F P) (hports : F .ports) (s : State) (d : Nat) (i : Nat) (f : Pdelay → Pdelay)
    (h0 : P s) : P (updPdelay s d i f) := by
  unfold updPdelay
  try dsimp only
  repeat' first
    | with_reducible assumption | with_reducible apply kept_updPd hP hports
    | with_reducible exact fits_PortDie (fits_same _ _) | with_reducible exact fits_PortDie (fits_upd _ _ _ _)
    | with_reducible exact fits_PortDie (fits_set _ _ _ _) | with_reducible exact fits_PortDie (fits_map _ _ _)
    | with_reducible exact fits_PortDie (fits_replicate _ _ _) | with_reducible exact fits_same _ _
    | with_reducible exact fits_upd _ _ _ _ | with_reducible exact fits_set _ _ _ _
    | with_reducible exact fits_map _ _ _ | with_reducible exact fits_replicate _ _ _
    | with_reducible exact fun _ => fits_PortDie (fits_same _ _)
    | with_reducible exact fun _ => fits_PortDie (fits_upd _ _ _ _)
    | with_reducible exact fun _ => fits_PortDie (fits_set _ _ _ _)
    | with_reducible exact fun _ => fits_PortDie (fits_map _ _ _)
    | with_reducible exact fun _ => fits_PortDie (fits_replicate _ _ _)
    | with_reducible exact fun _ => fits_same _ _ | with_reducible exact fun _ => fits_upd _ _ _ _
    | with_reducible exact fun _ => fits_set _ _ _ _ | with_reducible exact fun _ => fits_map _ _ _
    | with_reducible exact fun _ => fits_replicate _ _ _ | dsimp only

theorem kept_dropPdelay (hP : Closed F P) (hports : F .ports) (s : State) (d : Nat) (i : Nat) (h0 : P s) : P
    (dropPdelay s d i) := by
  unfold dropPdelay
  try dsimp only
  repeat' first
    | with_reducible assumption | with_reducible apply kept_putB hP | with_reducible apply kept_showAscap hP
    | with_reducible apply kept_updPdelay hP hports | dsimp only

theorem kept_linkFall (hP : Closed F P) (hmck : F .mck) (hports : F .ports) (hrings : F .rings) (s : State) (d :
    Nat) (i : Nat) (h0 : P s) : P (linkFall s d i) := by
  unfold linkFall
  try dsimp only
  repeat' first
    | with_reducible assumption | with_reducible apply kept_bump hP | with_reducible apply kept_dropPdelay hP hports
    | with_reducible apply kept_flushPort hP hmck hports hrings | with_reducible apply kept_putB hP
    | with_reducible apply kept_raise hP | with_reducible apply kept_showTimed hP
    | with_reducible apply kept_updPort hP hports | with_reducible apply kept_watchCal hP hports
    | with_reducible exact fits_same _ _ | with_reducible exact fits_upd _ _ _ _
    | with_reducible exact fits_set _ _ _ _ | with_reducible exact fits_map _ _ _
    | with_reducible exact fits_replicate _ _ _ | with_reducible exact fun _ => fits_same _ _
    | with_reducible exact fun _ => fits_upd _ _ _ _ | with_reducible exact fun _ => fits_set _ _ _ _
    | with_reducible exact fun _ => fits_map _ _ _ | with_reducible exact fun _ => fits_replicate _ _ _ | dsimp only

theorem kept_showPcs (hP : Closed F P) (s : State) (d : Nat) (i : Nat) (block : Bool) (fec : Bool) (lf : Bool) (an :
    Bool) (h0 : P s) : P (showPcs s d i block fec lf an) := by
  unfold showPcs
  try dsimp only
  repeat' first
    | with_reducible assumption | with_reducible apply kept_putB hP | dsimp only

theorem kept_execLinkUp (hP : Closed F P) (hports : F .ports) (d : Fin 4) (i : Fin 8) (s : State) (h0 : P s) : After
    P (execLinkUp d i s) := by
  unfold execLinkUp
  try dsimp only
  repeat' first
    | with_reducible assumption | with_reducible apply kept_putB hP | with_reducible apply kept_raise hP
    | with_reducible apply kept_showPcs hP | with_reducible apply kept_showTimed hP
    | with_reducible apply kept_startCal hP hports | with_reducible apply kept_watchCal hP hports
    | with_reducible apply kept_ite | with_reducible apply after_next | with_reducible apply after_ite | dsimp only

theorem kept_execLinkDown (hP : Closed F P) (hmck : F .mck) (hports : F .ports) (hrings : F .rings) (d : Fin 4) (i :
    Fin 8) (block : Bool) (fec : Bool) (localFault : Bool) (s : State) (h0 : P s) : After P (execLinkDown d i block fec
    localFault s) := by
  unfold execLinkDown
  try dsimp only
  repeat' first
    | with_reducible assumption | with_reducible apply kept_linkFall hP hmck hports hrings
    | with_reducible apply kept_showPcs hP | with_reducible apply kept_ite | with_reducible apply after_next
    | with_reducible apply after_ite | dsimp only

theorem kept_execRemoteFault (hP : Closed F P) (d : Fin 4) (i : Fin 8) (on : Bool) (s : State) (h0 : P s) : After P
    (execRemoteFault d i on s) := by
  unfold execRemoteFault
  try dsimp only
  repeat' first
    | with_reducible assumption | with_reducible apply kept_putB hP | with_reducible apply kept_showTimed hP
    | with_reducible apply kept_ite | with_reducible apply after_next | with_reducible apply after_ite | dsimp only

theorem kept_pllDoubt (hP : Closed F P) (s : State) (d : Nat) (q : Nat) (h0 : P s) : P (pllDoubt s d q) := by
  unfold pllDoubt
  try dsimp only
  repeat' first
    | with_reducible assumption | with_reducible apply kept_doubt hP | dsimp only

theorem kept_execSdsPllUnlock (hP : Closed F P) (hmck : F .mck) (hports : F .ports) (hrings : F .rings) (d : Fin 4)
    (q : Fin 2) (h : Bool) (s : State) (h0 : P s) : After P (execSdsPllUnlock d q h s) := by
  unfold execSdsPllUnlock
  try dsimp only
  repeat' first
    | with_reducible assumption | intro _ | with_reducible apply kept_linkFall hP hmck hports hrings
    | with_reducible apply kept_pllDoubt hP | with_reducible apply kept_putB hP | with_reducible apply kept_raise hP
    | with_reducible apply kept_showPcs hP | with_reducible apply kept_updPd hP hports
    | with_reducible apply kept_ite | with_reducible apply kept_foldl | with_reducible apply kept_foldl_fst
    | with_reducible apply after_next | with_reducible apply after_ite
    | with_reducible exact fits_PortDie (fits_same _ _) | with_reducible exact fits_PortDie (fits_upd _ _ _ _)
    | with_reducible exact fits_PortDie (fits_set _ _ _ _) | with_reducible exact fits_PortDie (fits_map _ _ _)
    | with_reducible exact fits_PortDie (fits_replicate _ _ _) | with_reducible exact fits_same _ _
    | with_reducible exact fits_upd _ _ _ _ | with_reducible exact fits_set _ _ _ _
    | with_reducible exact fits_map _ _ _ | with_reducible exact fits_replicate _ _ _
    | with_reducible exact fun _ => fits_PortDie (fits_same _ _)
    | with_reducible exact fun _ => fits_PortDie (fits_upd _ _ _ _)
    | with_reducible exact fun _ => fits_PortDie (fits_set _ _ _ _)
    | with_reducible exact fun _ => fits_PortDie (fits_map _ _ _)
    | with_reducible exact fun _ => fits_PortDie (fits_replicate _ _ _)
    | with_reducible exact fun _ => fits_same _ _ | with_reducible exact fun _ => fits_upd _ _ _ _
    | with_reducible exact fun _ => fits_set _ _ _ _ | with_reducible exact fun _ => fits_map _ _ _
    | with_reducible exact fun _ => fits_replicate _ _ _ | dsimp only

theorem kept_execSdsPllLock (hP : Closed F P) (hports : F .ports) (d : Fin 4) (q : Fin 2) (h : Bool) (s : State) (h0
    : P s) : After P (execSdsPllLock d q h s) := by
  unfold execSdsPllLock
  try dsimp only
  repeat' first
    | with_reducible assumption | with_reducible apply kept_pllDoubt hP | with_reducible apply kept_putB hP
    | with_reducible apply kept_updPd hP hports | with_reducible apply kept_ite | with_reducible apply after_next
    | with_reducible apply after_ite | with_reducible exact fits_PortDie (fits_same _ _)
    | with_reducible exact fits_PortDie (fits_upd _ _ _ _) | with_reducible exact fits_PortDie (fits_set _ _ _ _)
    | with_reducible exact fits_PortDie (fits_map _ _ _) | with_reducible exact fits_PortDie (fits_replicate _ _ _)
    | with_reducible exact fits_same _ _ | with_reducible exact fits_upd _ _ _ _
    | with_reducible exact fits_set _ _ _ _ | with_reducible exact fits_map _ _ _
    | with_reducible exact fits_replicate _ _ _ | with_reducible exact fun _ => fits_PortDie (fits_same _ _)
    | with_reducible exact fun _ => fits_PortDie (fits_upd _ _ _ _)
    | with_reducible exact fun _ => fits_PortDie (fits_set _ _ _ _)
    | with_reducible exact fun _ => fits_PortDie (fits_map _ _ _)
    | with_reducible exact fun _ => fits_PortDie (fits_replicate _ _ _)
    | with_reducible exact fun _ => fits_same _ _ | with_reducible exact fun _ => fits_upd _ _ _ _
    | with_reducible exact fun _ => fits_set _ _ _ _ | with_reducible exact fun _ => fits_map _ _ _
    | with_reducible exact fun _ => fits_replicate _ _ _ | dsimp only

theorem kept_execSignalDetect (hP : Closed F P) (d : Fin 4) (i : Fin 8) (eye : Fin 256) (s : State) (h0 : P s) :
    After P (execSignalDetect d i eye s) := by
  unfold execSignalDetect
  try dsimp only
  repeat' first
    | with_reducible assumption | with_reducible apply kept_put hP | with_reducible apply kept_putB hP
    | with_reducible apply kept_ite | with_reducible apply after_next | with_reducible apply after_ite | dsimp only

theorem kept_mmFail (hP : Closed F P) (s : State) (d : Nat) (q : Nat) (timeout : Bool) (h0 : P s) : P (mmFail s d q
    timeout) := by
  unfold mmFail
  try dsimp only
  repeat' first
    | with_reducible assumption | with_reducible apply kept_bump hP | with_reducible apply kept_putB hP
    | with_reducible apply kept_raise hP | with_reducible apply kept_ite | dsimp only

theorem kept_execMmTransaction (hP : Closed F P) (r : Requester) (d : Fin 4) (q : Fin 2) (v : Word) (s : State) (h0
    : P s) : After P (execMmTransaction r d q v s) := by
  unfold execMmTransaction
  try dsimp only
  repeat' first
    | with_reducible assumption | intro _ | with_reducible apply kept_onWrite hP | with_reducible apply kept_put hP
    | with_reducible apply kept_putB hP | with_reducible apply kept_raise hP | with_reducible apply kept_ite
    | with_reducible apply after_next | with_reducible apply after_ite | dsimp only

theorem kept_execMmDone (hP : Closed F P) (d : Fin 4) (q : Fin 2) (how : Fin 3) (data : BitVec 64) (s : State) (h0 :
    P s) : After P (execMmDone d q how data s) := by
  unfold execMmDone
  try dsimp only
  repeat' first
    | with_reducible assumption | with_reducible apply kept_mmFail hP | with_reducible apply kept_putB hP
    | with_reducible apply kept_raise hP | with_reducible apply kept_wr64 hP | with_reducible apply kept_ite
    | with_reducible apply after_next | with_reducible apply after_ite | dsimp only

theorem kept_execModIn (hP : Closed F P) (d : Fin 4) (q : Fin 2) (s : State) (h0 : P s) : After P (execModIn d q s)
    := by
  unfold execModIn
  try dsimp only
  repeat' first
    | with_reducible assumption | with_reducible apply kept_putB hP | with_reducible apply kept_raise hP
    | with_reducible apply kept_ite | with_reducible apply after_next | with_reducible apply after_ite | dsimp only

theorem kept_execModOut (hP : Closed F P) (d : Fin 4) (q : Fin 2) (s : State) (h0 : P s) : After P (execModOut d q
    s) := by
  unfold execModOut
  try dsimp only
  repeat' first
    | with_reducible assumption | with_reducible apply kept_mmFail hP | with_reducible apply kept_putB hP
    | with_reducible apply kept_raise hP | with_reducible apply kept_ite | with_reducible apply after_next
    | with_reducible apply after_ite | dsimp only

theorem kept_execModInt (hP : Closed F P) (d : Fin 4) (q : Fin 2) (low : Bool) (s : State) (h0 : P s) : After P
    (execModInt d q low s) := by
  unfold execModInt
  try dsimp only
  repeat' first
    | with_reducible assumption | with_reducible apply kept_putB hP | with_reducible apply kept_raiseIf hP
    | with_reducible apply kept_ite | with_reducible apply after_next | with_reducible apply after_ite | dsimp only

theorem kept_fillBook (hP : Closed F P) (hports : F .ports) (s : State) (d : Nat) (i : Nat) (b : Booking) (h0 : P s)
    : P (fillBook s d i b) := by
  unfold fillBook
  try dsimp only
  repeat' first
    | with_reducible assumption | with_reducible apply kept_finishBook hP hports | split | dsimp only

theorem kept_fillNts (hP : Closed F P) (hports : F .ports) (s : State) (d : Nat) (i : Nat) (b : Booking) (q :
    NtpReq) (h : NtpHead) (w : NtsWork) (h0 : P s) : P (fillNts s d i b q h w) := by
  unfold fillNts
  try dsimp only
  repeat' first
    | with_reducible assumption | with_reducible apply kept_drawNonce hP hports
    | with_reducible apply kept_finishBook hP hports | dsimp only

theorem kept_unstarve (hP : Closed F P) (hports : F .ports) (s : State) (d : Nat) (i : Nat) (h0 : P s) : P (unstarve
    s d i) := by
  unfold unstarve
  try dsimp only
  repeat' first
    | with_reducible assumption | with_reducible apply kept_updPort hP hports | with_reducible exact fits_same _ _
    | with_reducible exact fits_upd _ _ _ _ | with_reducible exact fits_set _ _ _ _
    | with_reducible exact fits_map _ _ _ | with_reducible exact fits_replicate _ _ _
    | with_reducible exact fun _ => fits_same _ _ | with_reducible exact fun _ => fits_upd _ _ _ _
    | with_reducible exact fun _ => fits_set _ _ _ _ | with_reducible exact fun _ => fits_map _ _ _
    | with_reducible exact fun _ => fits_replicate _ _ _ | split | dsimp only

theorem kept_grantAsk (hP : Closed F P) (hmck : F .mck) (hports : F .ports) (hrings : F .rings) (s : State) (d :
    Nat) (i : Nat) (grid : Nat) (a : Ask) (h0 : P s) : P (grantAsk s d i grid a) := by
  unfold grantAsk
  try dsimp only
  repeat' first
    | with_reducible assumption | with_reducible apply kept_book hP hmck hports hrings
    | with_reducible apply kept_bump hP | with_reducible apply kept_fillBook hP hports
    | with_reducible apply kept_unstarve hP hports | split | dsimp only

theorem kept_execBooking (hP : Closed F P) (hmck : F .mck) (hports : F .ports) (hrings : F .rings) (d : Fin 4) (i :
    Fin 8) (grid : Nat) (s : State) (h0 : P s) : After P (execBooking d i grid s) := by
  unfold execBooking
  try dsimp only
  repeat' first
    | with_reducible assumption | with_reducible apply kept_grantAsk hP hmck hports hrings
    | with_reducible apply kept_updPort hP hports | with_reducible apply after_next
    | with_reducible exact fits_same _ _ | with_reducible exact fits_upd _ _ _ _
    | with_reducible exact fits_set _ _ _ _ | with_reducible exact fits_map _ _ _
    | with_reducible exact fits_replicate _ _ _ | with_reducible exact fun _ => fits_same _ _
    | with_reducible exact fun _ => fits_upd _ _ _ _ | with_reducible exact fun _ => fits_set _ _ _ _
    | with_reducible exact fun _ => fits_map _ _ _ | with_reducible exact fun _ => fits_replicate _ _ _ | split
    | dsimp only

theorem kept_addAsk (hP : Closed F P) (hports : F .ports) (s : State) (d : Nat) (i : Nat) (a : Ask) (h0 : P s) : P
    (addAsk s d i a) := by
  unfold addAsk
  try dsimp only
  repeat' first
    | with_reducible assumption | with_reducible apply kept_updPort hP hports | with_reducible exact fits_same _ _
    | with_reducible exact fits_upd _ _ _ _ | with_reducible exact fits_set _ _ _ _
    | with_reducible exact fits_map _ _ _ | with_reducible exact fits_replicate _ _ _
    | with_reducible exact fun _ => fits_same _ _ | with_reducible exact fun _ => fits_upd _ _ _ _
    | with_reducible exact fun _ => fits_set _ _ _ _ | with_reducible exact fun _ => fits_map _ _ _
    | with_reducible exact fun _ => fits_replicate _ _ _ | dsimp only

theorem kept_submitSoft (hP : Closed F P) (hmck : F .mck) (hports : F .ports) (hrings : F .rings) (s : State) (d :
    Nat) (i : Nat) (f : SoftFrame) (h0 : P s) : P (submitSoft s d i f) := by
  unfold submitSoft
  try dsimp only
  repeat' first
    | with_reducible assumption | with_reducible apply kept_addAsk hP hports | with_reducible apply kept_bump hP
    | with_reducible apply kept_completeSoft hP hmck hrings | with_reducible apply kept_raise hP
    | with_reducible apply kept_ite | dsimp only

theorem kept_takeDesc (hP : Closed F P) (hrings : F .rings) (s : State) (n : Nat) (w : RingWork) (h0 : P s) : P
    (takeDesc s n w) := by
  unfold takeDesc
  try dsimp only
  repeat' first
    | with_reducible assumption | with_reducible apply kept_updRing hP hrings | split | dsimp only

theorem kept_execSwFrameSubmit (hP : Closed F P) (hmck : F .mck) (hports : F .ports) (hrings : F .rings) (ring : Fin
    16) (w0 : Word) (w1 : Word) (w2 : Word) (w3 : Word) (frame : List Byte) (s : State) (h0 : P s) : After P
    (execSwFrameSubmit ring w0 w1 w2 w3 frame s) := by
  unfold execSwFrameSubmit
  try dsimp only
  repeat' first
    | with_reducible assumption | with_reducible apply kept_submitSoft hP hmck hports hrings
    | with_reducible apply kept_takeDesc hP hrings | with_reducible apply kept_untimed hP hports hrings
    | with_reducible apply kept_ite | with_reducible apply after_next | with_reducible apply after_ite | dsimp only

theorem kept_execUntimedSubmit (hP : Closed F P) (hports : F .ports) (hrings : F .rings) (d : Fin 4) (i : Fin 8)
    (frame : List Byte) (s : State) (h0 : P s) : After P (execUntimedSubmit d i frame s) := by
  unfold execUntimedSubmit
  try dsimp only
  repeat' first
    | with_reducible assumption | with_reducible apply kept_untimed hP hports hrings
    | with_reducible apply after_next | dsimp only

theorem kept_untimedDone (hP : Closed F P) (hrings : F .rings) (s : State) (soft : Option (Nat × Nat)) (status :
    Nat) (l : Nat) (h0 : P s) : P (untimedDone s soft status l) := by
  unfold untimedDone
  try dsimp only
  repeat' first
    | with_reducible assumption | with_reducible apply kept_ringDone hP hrings | split | dsimp only

theorem kept_execUntimedLaunch (hP : Closed F P) (hclk : F .clk) (hports : F .ports) (hrings : F .rings) (d : Fin 4)
    (i : Fin 8) (s : State) (h0 : P s) : After P (execUntimedLaunch d i s) := by
  unfold execUntimedLaunch
  try dsimp only
  repeat' first
    | with_reducible assumption | with_reducible apply kept_advDie hP hclk
    | with_reducible apply kept_emit hP hports | with_reducible apply kept_keepWire hP hports
    | with_reducible apply kept_popUntimed hP hports | with_reducible apply kept_untimedDone hP hrings
    | with_reducible apply kept_updPort hP hports | with_reducible apply kept_ite | with_reducible apply after_next
    | with_reducible apply after_ite | with_reducible exact fits_same _ _ | with_reducible exact fits_upd _ _ _ _
    | with_reducible exact fits_set _ _ _ _ | with_reducible exact fits_map _ _ _
    | with_reducible exact fits_replicate _ _ _ | with_reducible exact fun _ => fits_same _ _
    | with_reducible exact fun _ => fits_upd _ _ _ _ | with_reducible exact fun _ => fits_set _ _ _ _
    | with_reducible exact fun _ => fits_map _ _ _ | with_reducible exact fun _ => fits_replicate _ _ _ | split
    | dsimp only

theorem kept_execStarve (hP : Closed F P) (hclk : F .clk) (hports : F .ports) (d : Fin 4) (i : Fin 8) (s : State)
    (h0 : P s) : After P (execStarve d i s) := by
  unfold execStarve
  try dsimp only
  repeat' first
    | with_reducible assumption | with_reducible apply kept_addAsk hP hports
    | with_reducible apply kept_advMono hP hclk | with_reducible apply kept_updPort hP hports
    | with_reducible apply kept_ite | with_reducible apply after_next | with_reducible apply after_ite
    | with_reducible exact fits_same _ _ | with_reducible exact fits_upd _ _ _ _
    | with_reducible exact fits_set _ _ _ _ | with_reducible exact fits_map _ _ _
    | with_reducible exact fits_replicate _ _ _ | with_reducible exact fun _ => fits_same _ _
    | with_reducible exact fun _ => fits_upd _ _ _ _ | with_reducible exact fun _ => fits_set _ _ _ _
    | with_reducible exact fun _ => fits_map _ _ _ | with_reducible exact fun _ => fits_replicate _ _ _ | split
    | dsimp only

theorem kept_execHoldEnqueue (hP : Closed F P) (hclk : F .clk) (hports : F .ports) (d : Fin 4) (i : Fin 8) (s :
    State) (h0 : P s) : After P (execHoldEnqueue d i s) := by
  unfold execHoldEnqueue
  try dsimp only
  repeat' first
    | with_reducible assumption | with_reducible apply kept_advDie hP hclk | with_reducible apply kept_showHold hP
    | with_reducible apply kept_updBook hP hports | with_reducible apply kept_ite | with_reducible apply after_next
    | with_reducible apply after_ite | split | dsimp only

theorem kept_countLaunch (hP : Closed F P) (s : State) (d : Nat) (b : Booking) (h0 : P s) : P (countLaunch s d b) :=
    by
  unfold countLaunch
  try dsimp only
  repeat' first
    | with_reducible assumption | with_reducible apply kept_add64 hP | with_reducible apply kept_bump hP
    | with_reducible apply kept_ite | split | dsimp only

theorem kept_abandon (hP : Closed F P) (hmck : F .mck) (hports : F .ports) (hrings : F .rings) (s : State) (d : Nat)
    (i : Nat) (b : Booking) (status : Nat) (h0 : P s) : P (abandon s d i b status) := by
  unfold abandon
  try dsimp only
  repeat' first
    | with_reducible assumption | with_reducible apply kept_complete hP hmck hrings
    | with_reducible apply kept_dropBook hP hports | with_reducible apply kept_keepWire hP hports
    | with_reducible apply kept_showHold hP | dsimp only

theorem kept_launch (hP : Closed F P) (hmck : F .mck) (hports : F .ports) (hrings : F .rings) (s : State) (d : Nat)
    (i : Nat) (b : Booking) (frame : List Byte) (h0 : P s) : P (launch s d i b frame) := by
  unfold launch
  try dsimp only
  repeat' first
    | with_reducible assumption | with_reducible apply kept_complete hP hmck hrings
    | with_reducible apply kept_countLaunch hP | with_reducible apply kept_dropBook hP hports
    | with_reducible apply kept_emit hP hports | with_reducible apply kept_keepWire hP hports
    | with_reducible apply kept_popUntimed hP hports | with_reducible apply kept_showHold hP
    | with_reducible apply kept_untimedDone hP hrings | with_reducible apply kept_updPort hP hports
    | with_reducible exact fits_same _ _ | with_reducible exact fits_upd _ _ _ _
    | with_reducible exact fits_set _ _ _ _ | with_reducible exact fits_map _ _ _
    | with_reducible exact fits_replicate _ _ _ | with_reducible exact fun _ => fits_same _ _
    | with_reducible exact fun _ => fits_upd _ _ _ _ | with_reducible exact fun _ => fits_set _ _ _ _
    | with_reducible exact fun _ => fits_map _ _ _ | with_reducible exact fun _ => fits_replicate _ _ _ | split
    | dsimp only

theorem kept_replicaDrop (hP : Closed F P) (hmck : F .mck) (hports : F .ports) (hrings : F .rings) (s : State) (d :
    Nat) (i : Nat) (b : Booking) (h0 : P s) : P (replicaDrop s d i b) := by
  unfold replicaDrop
  try dsimp only
  repeat' first
    | with_reducible assumption | with_reducible apply kept_abandon hP hmck hports hrings
    | with_reducible apply kept_bump hP | with_reducible apply kept_raise hP | split | dsimp only

theorem kept_release (hP : Closed F P) (hmck : F .mck) (hports : F .ports) (hrings : F .rings) (s : State) (d : Nat)
    (i : Nat) (b : Booking) (frame : List Byte) (tileOk : Bool) (h0 : P s) : P (release s d i b frame tileOk) := by
  unfold release
  try dsimp only
  repeat' first
    | with_reducible assumption | with_reducible apply kept_abandon hP hmck hports hrings
    | with_reducible apply kept_bump hP | with_reducible apply kept_launch hP hmck hports hrings
    | with_reducible apply kept_raise hP | with_reducible apply kept_replicaDrop hP hmck hports hrings
    | with_reducible apply kept_tileFail hP hports | with_reducible apply kept_ite | dsimp only

theorem kept_execLchRelease (hP : Closed F P) (hclk : F .clk) (hmck : F .mck) (hports : F .ports) (hrings : F
    .rings) (d : Fin 4) (i : Fin 8) (tileOk : Bool) (s : State) (h0 : P s) : After P (execLchRelease d i tileOk s) := by
  unfold execLchRelease
  try dsimp only
  repeat' first
    | with_reducible assumption | with_reducible apply kept_advDie hP hclk
    | with_reducible apply kept_release hP hmck hports hrings | with_reducible apply after_next | split | dsimp only

theorem kept_lateDrop (hP : Closed F P) (hmck : F .mck) (hports : F .ports) (hrings : F .rings) (s : State) (d :
    Nat) (i : Nat) (b : Booking) (h0 : P s) : P (lateDrop s d i b) := by
  unfold lateDrop
  try dsimp only
  repeat' first
    | with_reducible assumption | with_reducible apply kept_abandon hP hmck hports hrings
    | with_reducible apply kept_bump hP | with_reducible apply kept_raise hP | dsimp only

theorem kept_refill (hP : Closed F P) (hports : F .ports) (s : State) (d : Nat) (i : Nat) (b : Booking) (h0 : P s) :
    P (refill s d i b) := by
  unfold refill
  try dsimp only
  repeat' first
    | with_reducible assumption | with_reducible apply kept_fillBook hP hports
    | with_reducible apply kept_fillNts hP hports | split | dsimp only

theorem kept_restamp (hP : Closed F P) (hmck : F .mck) (hports : F .ports) (hrings : F .rings) (s : State) (d : Nat)
    (i : Nat) (grid : Nat) (b : Booking) (h0 : P s) : P (restamp s d i grid b) := by
  unfold restamp
  try dsimp only
  repeat' first
    | with_reducible assumption | with_reducible apply kept_bump hP
    | with_reducible apply kept_complete hP hmck hrings | with_reducible apply kept_dropBook hP hports
    | with_reducible apply kept_grantBook hP hports | with_reducible apply kept_keepWire hP hports
    | with_reducible apply kept_raise hP | with_reducible apply kept_refill hP hports
    | with_reducible apply kept_showHold hP | with_reducible apply kept_ite | with_reducible apply kept_fst_ite
    | split | dsimp only

theorem kept_lateFrame (hP : Closed F P) (hmck : F .mck) (hports : F .ports) (hrings : F .rings) (s : State) (d :
    Nat) (i : Nat) (grid : Nat) (b : Booking) (h0 : P s) : P (lateFrame s d i grid b) := by
  unfold lateFrame
  try dsimp only
  repeat' first
    | with_reducible assumption | with_reducible apply kept_bump hP
    | with_reducible apply kept_lateDrop hP hmck hports hrings | with_reducible apply kept_raise hP
    | with_reducible apply kept_restamp hP hmck hports hrings | with_reducible apply kept_updBook hP hports
    | with_reducible apply kept_updPd hP hports | with_reducible apply kept_ite
    | with_reducible exact fits_PortDie (fits_same _ _) | with_reducible exact fits_PortDie (fits_upd _ _ _ _)
    | with_reducible exact fits_PortDie (fits_set _ _ _ _) | with_reducible exact fits_PortDie (fits_map _ _ _)
    | with_reducible exact fits_PortDie (fits_replicate _ _ _) | with_reducible exact fits_same _ _
    | with_reducible exact fits_upd _ _ _ _ | with_reducible exact fits_set _ _ _ _
    | with_reducible exact fits_map _ _ _ | with_reducible exact fits_replicate _ _ _
    | with_reducible exact fun _ => fits_PortDie (fits_same _ _)
    | with_reducible exact fun _ => fits_PortDie (fits_upd _ _ _ _)
    | with_reducible exact fun _ => fits_PortDie (fits_set _ _ _ _)
    | with_reducible exact fun _ => fits_PortDie (fits_map _ _ _)
    | with_reducible exact fun _ => fits_PortDie (fits_replicate _ _ _)
    | with_reducible exact fun _ => fits_same _ _ | with_reducible exact fun _ => fits_upd _ _ _ _
    | with_reducible exact fun _ => fits_set _ _ _ _ | with_reducible exact fun _ => fits_map _ _ _
    | with_reducible exact fun _ => fits_replicate _ _ _ | dsimp only

theorem kept_execLate (hP : Closed F P) (hclk : F .clk) (hmck : F .mck) (hports : F .ports) (hrings : F .rings) (d :
    Fin 4) (i : Fin 8) (grid : Nat) (s : State) (h0 : P s) : After P (execLate d i grid s) := by
  unfold execLate
  try dsimp only
  repeat' first
    | with_reducible assumption | with_reducible apply kept_advDie hP hclk
    | with_reducible apply kept_lateFrame hP hmck hports hrings
    | with_reducible apply kept_replicaDrop hP hmck hports hrings | with_reducible apply kept_ite
    | with_reducible apply after_next | with_reducible apply after_ite | split | dsimp only

theorem kept_execLchLate (hP : Closed F P) (hports : F .ports) (d : Fin 4) (s : State) (h0 : P s) : After P
    (execLchLate d s) := by
  unfold execLchLate
  try dsimp only
  repeat' first
    | with_reducible assumption | with_reducible apply kept_doubt hP | with_reducible apply kept_updPd hP hports
    | with_reducible apply after_next | with_reducible exact fits_PortDie (fits_same _ _)
    | with_reducible exact fits_PortDie (fits_upd _ _ _ _) | with_reducible exact fits_PortDie (fits_set _ _ _ _)
    | with_reducible exact fits_PortDie (fits_map _ _ _) | with_reducible exact fits_PortDie (fits_replicate _ _ _)
    | with_reducible exact fits_same _ _ | with_reducible exact fits_upd _ _ _ _
    | with_reducible exact fits_set _ _ _ _ | with_reducible exact fits_map _ _ _
    | with_reducible exact fits_replicate _ _ _ | with_reducible exact fun _ => fits_PortDie (fits_same _ _)
    | with_reducible exact fun _ => fits_PortDie (fits_upd _ _ _ _)
    | with_reducible exact fun _ => fits_PortDie (fits_set _ _ _ _)
    | with_reducible exact fun _ => fits_PortDie (fits_map _ _ _)
    | with_reducible exact fun _ => fits_PortDie (fits_replicate _ _ _)
    | with_reducible exact fun _ => fits_same _ _ | with_reducible exact fun _ => fits_upd _ _ _ _
    | with_reducible exact fun _ => fits_set _ _ _ _ | with_reducible exact fun _ => fits_map _ _ _
    | with_reducible exact fun _ => fits_replicate _ _ _ | dsimp only

theorem kept_execPauseEnd (hP : Closed F P) (hclk : F .clk) (hports : F .ports) (d : Fin 4) (i : Fin 8) (s : State)
    (h0 : P s) : After P (execPauseEnd d i s) := by
  unfold execPauseEnd
  try dsimp only
  repeat' first
    | with_reducible assumption | with_reducible apply kept_advMono hP hclk | with_reducible apply kept_putB hP
    | with_reducible apply kept_updPort hP hports | with_reducible apply after_next
    | with_reducible exact fits_same _ _ | with_reducible exact fits_upd _ _ _ _
    | with_reducible exact fits_set _ _ _ _ | with_reducible exact fits_map _ _ _
    | with_reducible exact fits_replicate _ _ _ | with_reducible exact fun _ => fits_same _ _
    | with_reducible exact fun _ => fits_upd _ _ _ _ | with_reducible exact fun _ => fits_set _ _ _ _
    | with_reducible exact fun _ => fits_map _ _ _ | with_reducible exact fun _ => fits_replicate _ _ _ | split
    | dsimp only

theorem kept_launchDev (hP : Closed F P) (hports : F .ports) (s : State) (d : Nat) (i : Nat) (dev : Int) (h0 : P s)
    : P (launchDev s d i dev) := by
  unfold launchDev
  try dsimp only
  repeat' first
    | with_reducible assumption | with_reducible apply kept_bump hP | with_reducible apply kept_doubt hP
    | with_reducible apply kept_putB hP | with_reducible apply kept_raise hP
    | with_reducible apply kept_updPort hP hports | with_reducible apply kept_wrN hP
    | with_reducible exact fits_same _ _ | with_reducible exact fits_upd _ _ _ _
    | with_reducible exact fits_set _ _ _ _ | with_reducible exact fits_map _ _ _
    | with_reducible exact fits_replicate _ _ _ | with_reducible exact fun _ => fits_same _ _
    | with_reducible exact fun _ => fits_upd _ _ _ _ | with_reducible exact fun _ => fits_set _ _ _ _
    | with_reducible exact fun _ => fits_map _ _ _ | with_reducible exact fun _ => fits_replicate _ _ _ | dsimp only

theorem kept_measureTx (hP : Closed F P) (hports : F .ports) (s : State) (d : Nat) (i : Nat) (dev : Int) (h0 : P s)
    : P (measureTx s d i dev) := by
  unfold measureTx
  try dsimp only
  repeat' first
    | with_reducible assumption | with_reducible apply kept_bump hP | with_reducible apply kept_launchDev hP hports
    | with_reducible apply kept_ite | dsimp only

theorem kept_ptpDeparted (hP : Closed F P) (hports : F .ports) (hrings : F .rings) (s : State) (d : Nat) (i : Nat)
    (m : PtpMsg) (l : Nat) (h0 : P s) : P (ptpDeparted s d i m l) := by
  unfold ptpDeparted
  try dsimp only
  repeat' first
    | with_reducible assumption | with_reducible apply kept_untimed hP hports hrings
    | with_reducible apply kept_updPd hP hports | with_reducible apply kept_updPdelay hP hports
    | with_reducible apply kept_ite | with_reducible exact fits_PortDie (fits_same _ _)
    | with_reducible exact fits_PortDie (fits_upd _ _ _ _) | with_reducible exact fits_PortDie (fits_set _ _ _ _)
    | with_reducible exact fits_PortDie (fits_map _ _ _) | with_reducible exact fits_PortDie (fits_replicate _ _ _)
    | with_reducible exact fits_same _ _ | with_reducible exact fits_upd _ _ _ _
    | with_reducible exact fits_set _ _ _ _ | with_reducible exact fits_map _ _ _
    | with_reducible exact fits_replicate _ _ _ | with_reducible exact fun _ => fits_PortDie (fits_same _ _)
    | with_reducible exact fun _ => fits_PortDie (fits_upd _ _ _ _)
    | with_reducible exact fun _ => fits_PortDie (fits_set _ _ _ _)
    | with_reducible exact fun _ => fits_PortDie (fits_map _ _ _)
    | with_reducible exact fun _ => fits_PortDie (fits_replicate _ _ _)
    | with_reducible exact fun _ => fits_same _ _ | with_reducible exact fun _ => fits_upd _ _ _ _
    | with_reducible exact fun _ => fits_set _ _ _ _ | with_reducible exact fun _ => fits_map _ _ _
    | with_reducible exact fun _ => fits_replicate _ _ _ | split | dsimp only

theorem kept_execTsuDeparture (hP : Closed F P) (hclk : F .clk) (hports : F .ports) (hrings : F .rings) (d : Fin 4)
    (i : Fin 8) (dev : Int) (s : State) (h0 : P s) : After P (execTsuDeparture d i dev s) := by
  unfold execTsuDeparture
  try dsimp only
  repeat' first
    | with_reducible assumption | with_reducible apply kept_advDie hP hclk | with_reducible apply kept_jitter hP
    | with_reducible apply kept_measureTx hP hports | with_reducible apply kept_ptpDeparted hP hports hrings
    | with_reducible apply kept_updPort hP hports | with_reducible apply after_next
    | with_reducible exact fits_same _ _ | with_reducible exact fits_upd _ _ _ _
    | with_reducible exact fits_set _ _ _ _ | with_reducible exact fits_map _ _ _
    | with_reducible exact fits_replicate _ _ _ | with_reducible exact fun _ => fits_same _ _
    | with_reducible exact fun _ => fits_upd _ _ _ _ | with_reducible exact fun _ => fits_set _ _ _ _
    | with_reducible exact fun _ => fits_map _ _ _ | with_reducible exact fun _ => fits_replicate _ _ _ | split
    | dsimp only

theorem kept_execLaunchDevEnd (hP : Closed F P) (hclk : F .clk) (d : Fin 4) (i : Fin 8) (s : State) (h0 : P s) :
    After P (execLaunchDevEnd d i s) := by
  unfold execLaunchDevEnd
  try dsimp only
  repeat' first
    | with_reducible assumption | with_reducible apply kept_advMono hP hclk | with_reducible apply kept_doubt hP
    | with_reducible apply kept_putB hP | with_reducible apply kept_ite | with_reducible apply after_next
    | with_reducible apply after_ite | dsimp only

theorem kept_replicaDrops (hP : Closed F P) (hmck : F .mck) (hports : F .ports) (hrings : F .rings) (s : State) (d :
    Nat) (h0 : P s) : P (replicaDrops s d) := by
  unfold replicaDrops
  try dsimp only
  repeat' first
    | with_reducible assumption | intro _ | with_reducible apply kept_replicaDrop hP hmck hports hrings
    | with_reducible apply kept_ite | with_reducible apply kept_foldl | with_reducible apply kept_foldl_fst
    | dsimp only

theorem kept_execLaneExchange (hP : Closed F P) (htb : F .tb) (hmck : F .mck) (hports : F .ports) (hrings : F
    .rings) (lane : Fin 6) (marks : Option (Int × Int × Int × Int)) (s : State) (h0 : P s) : After P (execLaneExchange
    lane marks s) := by
  unfold execLaneExchange
  try dsimp only
  repeat' first
    | with_reducible assumption | with_reducible apply kept_exchange hP htb
    | with_reducible apply kept_missExchange hP htb | with_reducible apply kept_replicaDrops hP hmck hports hrings
    | with_reducible apply kept_showTimed hP | with_reducible apply kept_ite | with_reducible apply after_next
    | with_reducible apply after_ite | split | dsimp only

/-! ### Age -/

theorem kept_execAgeTile (hP : Closed F P) (d : Fin 4) (s : State) (h0 : P s) : After P (execAgeTile d s) := by
  unfold execAgeTile
  try dsimp only
  repeat' first
    | with_reducible assumption | with_reducible apply kept_doubt hP | with_reducible apply kept_putB hP
    | with_reducible apply kept_raiseIf hP | with_reducible apply kept_ite | with_reducible apply after_next
    | with_reducible apply after_ite | dsimp only

theorem kept_execAgeVolt (hP : Closed F P) (die : Fin 8) (isl : Fin 8) (mv : Nat) (s : State) (h0 : P s) : After P
    (execAgeVolt die isl mv s) := by
  unfold execAgeVolt
  try dsimp only
  repeat' first
    | with_reducible assumption | with_reducible apply kept_doubt hP | with_reducible apply kept_putB hP
    | with_reducible apply kept_ite | with_reducible apply after_next | with_reducible apply after_ite | dsimp only

theorem kept_execAgeTemp (hP : Closed F P) (die : Fin 8) (isl : Fin 8) (temp : Int) (s : State) (h0 : P s) : After P
    (execAgeTemp die isl temp s) := by
  unfold execAgeTemp
  try dsimp only
  repeat' first
    | with_reducible assumption | with_reducible apply kept_doubt hP | with_reducible apply kept_putB hP
    | with_reducible apply kept_raiseIf hP | with_reducible apply kept_ite | with_reducible apply after_next
    | with_reducible apply after_ite | dsimp only

theorem kept_execAgeLimitClear (hP : Closed F P) (die : Fin 8) (volt : Bool) (s : State) (h0 : P s) : After P
    (execAgeLimitClear die volt s) := by
  unfold execAgeLimitClear
  try dsimp only
  repeat' first
    | with_reducible assumption | with_reducible apply kept_doubt hP | with_reducible apply kept_putB hP
    | with_reducible apply kept_ite | with_reducible apply after_next | with_reducible apply after_ite | dsimp only

theorem kept_avsSet (hP : Closed F P) (hpwr : F .pwr) (s : State) (rail : Nat) (mv : Nat) (why : Nat) (h0 : P s) : P
    (avsSet s rail mv why) := by
  unfold avsSet
  try dsimp only
  repeat' first
    | with_reducible assumption | with_reducible apply kept_put hP | with_reducible apply kept_record hP
    | with_reducible exact Or.inr hpwr | with_reducible exact Or.inl rfl | with_reducible apply hP.others
    | with_reducible exact fits_same _ _ | with_reducible exact fits_upd _ _ _ _
    | with_reducible exact fits_set _ _ _ _ | with_reducible exact fits_map _ _ _
    | with_reducible exact fits_replicate _ _ _ | with_reducible exact fitsMck_same _
    | with_reducible exact fun _ => fits_same _ _ | with_reducible exact fun _ => fits_upd _ _ _ _
    | with_reducible exact fun _ => fits_set _ _ _ _ | with_reducible exact fun _ => fits_map _ _ _
    | with_reducible exact fun _ => fits_replicate _ _ _ | dsimp only

theorem kept_emergStep (hP : Closed F P) (hpwr : F .pwr) (s : State) (rail : Nat) (h0 : P s) : P (emergStep s rail)
    := by
  unfold emergStep
  try dsimp only
  repeat' first
    | with_reducible assumption | with_reducible apply kept_avsSet hP hpwr | with_reducible apply kept_bump hP
    | with_reducible apply kept_ite | dsimp only

theorem kept_execCanary (hP : Closed F P) (hpwr : F .pwr) (hage : F .age) (die : Fin 8) (slacks : List (Fin 8 × Nat
    × Nat)) (s : State) (h0 : P s) : After P (execCanary die slacks s) := by
  unfold execCanary
  try dsimp only
  repeat' first
    | with_reducible assumption | intro _ | with_reducible apply kept_doubt hP
    | with_reducible apply kept_emergStep hP hpwr | with_reducible apply kept_put hP
    | with_reducible apply kept_putB hP | with_reducible apply kept_raise hP | with_reducible apply kept_ite
    | with_reducible apply kept_foldl | with_reducible apply kept_foldl_fst | with_reducible apply after_next
    | with_reducible apply after_ite | with_reducible exact Or.inr hpwr | with_reducible exact Or.inr hage
    | with_reducible exact Or.inl rfl | with_reducible apply hP.others | with_reducible exact fits_same _ _
    | with_reducible exact fits_upd _ _ _ _ | with_reducible exact fits_set _ _ _ _
    | with_reducible exact fits_map _ _ _ | with_reducible exact fits_replicate _ _ _
    | with_reducible exact fitsMck_same _ | with_reducible exact fun _ => fits_same _ _
    | with_reducible exact fun _ => fits_upd _ _ _ _ | with_reducible exact fun _ => fits_set _ _ _ _
    | with_reducible exact fun _ => fits_map _ _ _ | with_reducible exact fun _ => fits_replicate _ _ _ | split
    | dsimp only

theorem kept_updReview (hP : Closed F P) (hage : F .age) (s : State) (f : Review → Review) (h0 : P s) : P (updReview
    s f) := by
  unfold updReview
  try dsimp only
  repeat' first
    | with_reducible assumption | with_reducible exact Or.inr hage | with_reducible exact Or.inl rfl
    | with_reducible apply hP.others | with_reducible exact fits_same _ _ | with_reducible exact fits_upd _ _ _ _
    | with_reducible exact fits_set _ _ _ _ | with_reducible exact fits_map _ _ _
    | with_reducible exact fits_replicate _ _ _ | with_reducible exact fitsMck_same _
    | with_reducible exact fun _ => fits_same _ _ | with_reducible exact fun _ => fits_upd _ _ _ _
    | with_reducible exact fun _ => fits_set _ _ _ _ | with_reducible exact fun _ => fits_map _ _ _
    | with_reducible exact fun _ => fits_replicate _ _ _ | dsimp only

theorem kept_reviewStart (hP : Closed F P) (hage : F .age) (s : State) (h0 : P s) : P (reviewStart s) := by
  unfold reviewStart
  try dsimp only
  repeat' first
    | with_reducible assumption | intro _ | with_reducible apply kept_putB hP | with_reducible apply kept_foldl
    | with_reducible apply kept_foldl_fst | with_reducible exact Or.inr hage | with_reducible exact Or.inl rfl
    | with_reducible apply hP.others | with_reducible exact fits_same _ _ | with_reducible exact fits_upd _ _ _ _
    | with_reducible exact fits_set _ _ _ _ | with_reducible exact fits_map _ _ _
    | with_reducible exact fits_replicate _ _ _ | with_reducible exact fitsMck_same _
    | with_reducible exact fun _ => fits_same _ _ | with_reducible exact fun _ => fits_upd _ _ _ _
    | with_reducible exact fun _ => fits_set _ _ _ _ | with_reducible exact fun _ => fits_map _ _ _
    | with_reducible exact fun _ => fits_replicate _ _ _ | dsimp only

theorem kept_execMarginReview (hP : Closed F P) (hclk : F .clk) (hage : F .age) (r : Option Requester) (s : State)
    (h0 : P s) : After P (execMarginReview r s) := by
  unfold execMarginReview
  try dsimp only
  repeat' first
    | with_reducible assumption | intro _ | with_reducible apply kept_advMono hP hclk
    | with_reducible apply kept_onWrite hP | with_reducible apply kept_reviewStart hP hage
    | with_reducible apply kept_ite | with_reducible apply after_next | with_reducible apply after_ite | split
    | dsimp only

theorem kept_planRail (hP : Closed F P) (hpwr : F .pwr) (hage : F .age) (s : State) (rail : Nat) (slack : Option
    Nat) (h0 : P s) : P (planRail s rail slack) := by
  unfold planRail
  try dsimp only
  repeat' first
    | with_reducible assumption | with_reducible apply kept_avsSet hP hpwr | with_reducible apply kept_raise hP
    | with_reducible apply kept_updReview hP hage | with_reducible apply kept_ite | split | dsimp only

theorem kept_reviewCal (hP : Closed F P) (hports : F .ports) (hage : F .age) (s : State) (l : List Nat) (h : P s) : P (reviewCal s l) := by
  induction l generalizing s with
  | nil => exact kept_updReview hP hage _ _ h
  | cons n t ih =>
    have h1 : ∀ f, P (updReview (startCal s (n / 8) (n % 8)) f) :=
      fun f => kept_updReview hP hage _ f (kept_startCal hP hports _ _ _ h)
    unfold reviewCal
    exact kept_ite _ _ _ (h1 _) (ih _ h)

theorem kept_reviewPortsGone (hP : Closed F P) (hports : F .ports) (hage : F .age) (s : State) (h0 : P s) : P
    (reviewPortsGone s) := by
  unfold reviewPortsGone
  try dsimp only
  repeat' first
    | with_reducible assumption | with_reducible apply kept_reviewCal hP hports hage | with_reducible apply kept_ite
    | split | dsimp only

theorem kept_execReviewMeasure (hP : Closed F P) (hclk : F .clk) (hpwr : F .pwr) (hports : F .ports) (hage : F .age)
    (isls : List IslMeas) (s : State) (h0 : P s) : After P (execReviewMeasure isls s) := by
  unfold execReviewMeasure
  try dsimp only
  repeat' first
    | with_reducible assumption | intro _ | with_reducible apply kept_advMono hP hclk
    | with_reducible apply kept_planRail hP hpwr hage | with_reducible apply kept_put hP
    | with_reducible apply kept_putS hP | with_reducible apply kept_reviewCal hP hports hage
    | with_reducible apply kept_updReview hP hage | with_reducible apply kept_ite | with_reducible apply kept_foldl
    | with_reducible apply kept_foldl_fst | with_reducible apply after_next | with_reducible apply after_ite | split
    | dsimp only

theorem kept_reviewTrim (hP : Closed F P) (hports : F .ports) (hage : F .age) (s : State) (d : Nat) (i : Nat) (h0 :
    P s) : P (reviewTrim s d i) := by
  unfold reviewTrim
  try dsimp only
  repeat' first
    | with_reducible assumption | with_reducible apply kept_putS hP | with_reducible apply kept_updPd hP hports
    | with_reducible apply kept_updReview hP hage | with_reducible apply kept_ite
    | with_reducible exact fits_PortDie (fits_same _ _) | with_reducible exact fits_PortDie (fits_upd _ _ _ _)
    | with_reducible exact fits_PortDie (fits_set _ _ _ _) | with_reducible exact fits_PortDie (fits_map _ _ _)
    | with_reducible exact fits_PortDie (fits_replicate _ _ _) | with_reducible exact fits_same _ _
    | with_reducible exact fits_upd _ _ _ _ | with_reducible exact fits_set _ _ _ _
    | with_reducible exact fits_map _ _ _ | with_reducible exact fits_replicate _ _ _
    | with_reducible exact fun _ => fits_PortDie (fits_same _ _)
    | with_reducible exact fun _ => fits_PortDie (fits_upd _ _ _ _)
    | with_reducible exact fun _ => fits_PortDie (fits_set _ _ _ _)
    | with_reducible exact fun _ => fits_PortDie (fits_map _ _ _)
    | with_reducible exact fun _ => fits_PortDie (fits_replicate _ _ _)
    | with_reducible exact fun _ => fits_same _ _ | with_reducible exact fun _ => fits_upd _ _ _ _
    | with_reducible exact fun _ => fits_set _ _ _ _ | with_reducible exact fun _ => fits_map _ _ _
    | with_reducible exact fun _ => fits_replicate _ _ _ | dsimp only

theorem kept_reviewCalDone (hP : Closed F P) (hports : F .ports) (hage : F .age) (s : State) (d : Nat) (i : Nat) (h0
    : P s) : P (reviewCalDone s d i) := by
  unfold reviewCalDone
  try dsimp only
  repeat' first
    | with_reducible assumption | with_reducible apply kept_reviewCal hP hports hage
    | with_reducible apply kept_reviewTrim hP hports hage | with_reducible apply kept_ite | split | dsimp only

theorem kept_trimsTake (hP : Closed F P) (hports : F .ports) (s : State) (d : Nat) (h0 : P s) : P (trimsTake s d) :=
    by
  unfold trimsTake
  try dsimp only
  repeat' first
    | with_reducible assumption | intro _ | with_reducible apply kept_formDelays hP
    | with_reducible apply kept_updPd hP hports | with_reducible apply kept_foldl
    | with_reducible apply kept_foldl_fst | with_reducible exact fits_PortDie (fits_same _ _)
    | with_reducible exact fits_PortDie (fits_upd _ _ _ _) | with_reducible exact fits_PortDie (fits_set _ _ _ _)
    | with_reducible exact fits_PortDie (fits_map _ _ _) | with_reducible exact fits_PortDie (fits_replicate _ _ _)
    | with_reducible exact fits_same _ _ | with_reducible exact fits_upd _ _ _ _
    | with_reducible exact fits_set _ _ _ _ | with_reducible exact fits_map _ _ _
    | with_reducible exact fits_replicate _ _ _ | with_reducible exact fun _ => fits_PortDie (fits_same _ _)
    | with_reducible exact fun _ => fits_PortDie (fits_upd _ _ _ _)
    | with_reducible exact fun _ => fits_PortDie (fits_set _ _ _ _)
    | with_reducible exact fun _ => fits_PortDie (fits_map _ _ _)
    | with_reducible exact fun _ => fits_PortDie (fits_replicate _ _ _)
    | with_reducible exact fun _ => fits_same _ _ | with_reducible exact fun _ => fits_upd _ _ _ _
    | with_reducible exact fun _ => fits_set _ _ _ _ | with_reducible exact fun _ => fits_map _ _ _
    | with_reducible exact fun _ => fits_replicate _ _ _ | dsimp only

theorem kept_reviewModel (hP : Closed F P) (hdsc : F .dsc) (s : State) (h0 : P s) : P (reviewModel s) := by
  unfold reviewModel
  try dsimp only
  repeat' first
    | with_reducible assumption | with_reducible apply kept_put hP | with_reducible apply kept_putB hP
    | with_reducible apply kept_putS hP | with_reducible apply kept_updServo hP hdsc | with_reducible apply kept_ite
    | with_reducible exact fits_Servo (fits_same _ _) | with_reducible exact fits_Servo (fits_upd _ _ _ _)
    | with_reducible exact fits_Servo (fits_set _ _ _ _) | with_reducible exact fits_Servo (fits_map _ _ _)
    | with_reducible exact fits_Servo (fits_replicate _ _ _) | with_reducible exact fits_same _ _
    | with_reducible exact fits_upd _ _ _ _ | with_reducible exact fits_set _ _ _ _
    | with_reducible exact fits_map _ _ _ | with_reducible exact fits_replicate _ _ _
    | with_reducible exact fun _ => fits_Servo (fits_same _ _)
    | with_reducible exact fun _ => fits_Servo (fits_upd _ _ _ _)
    | with_reducible exact fun _ => fits_Servo (fits_set _ _ _ _)
    | with_reducible exact fun _ => fits_Servo (fits_map _ _ _)
    | with_reducible exact fun _ => fits_Servo (fits_replicate _ _ _) | with_reducible exact fun _ => fits_same _ _
    | with_reducible exact fun _ => fits_upd _ _ _ _ | with_reducible exact fun _ => fits_set _ _ _ _
    | with_reducible exact fun _ => fits_map _ _ _ | with_reducible exact fun _ => fits_replicate _ _ _ | split
    | dsimp only

theorem kept_execReviewDone (hP : Closed F P) (hdsc : F .dsc) (hage : F .age) (s : State) (h0 : P s) : After P
    (execReviewDone s) := by
  unfold execReviewDone
  try dsimp only
  repeat' first
    | with_reducible assumption | intro _ | with_reducible apply kept_bump hP | with_reducible apply kept_doubt hP
    | with_reducible apply kept_putB hP | with_reducible apply kept_raise hP
    | with_reducible apply kept_recordPair hP | with_reducible apply kept_reviewModel hP hdsc
    | with_reducible apply kept_ite | with_reducible apply kept_foldl | with_reducible apply kept_foldl_fst
    | with_reducible apply after_next | with_reducible apply after_ite | with_reducible exact Or.inr hdsc
    | with_reducible exact Or.inr hage | with_reducible exact Or.inl rfl | with_reducible apply hP.others
    | with_reducible exact fits_same _ _ | with_reducible exact fits_upd _ _ _ _
    | with_reducible exact fits_set _ _ _ _ | with_reducible exact fits_map _ _ _
    | with_reducible exact fits_replicate _ _ _ | with_reducible exact fitsMck_same _
    | with_reducible exact fun _ => fits_same _ _ | with_reducible exact fun _ => fits_upd _ _ _ _
    | with_reducible exact fun _ => fits_set _ _ _ _ | with_reducible exact fun _ => fits_map _ _ _
    | with_reducible exact fun _ => fits_replicate _ _ _ | split | dsimp only

theorem kept_reviewIslandLost (hP : Closed F P) (hage : F .age) (s : State) (die : Nat) (isl : Nat) (h0 : P s) : P
    (reviewIslandLost s die isl) := by
  unfold reviewIslandLost
  try dsimp only
  repeat' first
    | with_reducible assumption | with_reducible apply kept_putB hP | with_reducible apply kept_updReview hP hage
    | with_reducible apply kept_ite | split | dsimp only

theorem kept_ageReset (hP : Closed F P) (hage : F .age) (s : State) (h0 : P s) : P (ageReset s) := by
  unfold ageReset
  try dsimp only
  repeat' first
    | with_reducible assumption | with_reducible exact Or.inr hage | with_reducible exact Or.inl rfl
    | with_reducible apply hP.others | with_reducible exact fits_same _ _ | with_reducible exact fits_upd _ _ _ _
    | with_reducible exact fits_set _ _ _ _ | with_reducible exact fits_map _ _ _
    | with_reducible exact fits_replicate _ _ _ | with_reducible exact fitsMck_same _
    | with_reducible exact fun _ => fits_same _ _ | with_reducible exact fun _ => fits_upd _ _ _ _
    | with_reducible exact fun _ => fits_set _ _ _ _ | with_reducible exact fun _ => fits_map _ _ _
    | with_reducible exact fun _ => fits_replicate _ _ _ | dsimp only

/-! ### Cpu -/

theorem kept_updHart (hP : Closed F P) (hharts : F .harts) (s : State) (h : Nat) (f : Hart → Hart) (h0 : P s) : P
    (updHart s h f) := by
  unfold updHart
  try dsimp only
  repeat' first
    | with_reducible assumption | with_reducible exact Or.inr hharts | with_reducible exact Or.inl rfl
    | with_reducible apply hP.others | with_reducible exact fits_same _ _ | with_reducible exact fits_upd _ _ _ _
    | with_reducible exact fits_set _ _ _ _ | with_reducible exact fits_map _ _ _
    | with_reducible exact fits_replicate _ _ _ | with_reducible exact fitsMck_same _
    | with_reducible exact fun _ => fits_same _ _ | with_reducible exact fun _ => fits_upd _ _ _ _
    | with_reducible exact fun _ => fits_set _ _ _ _ | with_reducible exact fun _ => fits_map _ _ _
    | with_reducible exact fun _ => fits_replicate _ _ _ | dsimp only

theorem kept_showHarts (hP : Closed F P) (s : State) (h0 : P s) : P (showHarts s) := by
  unfold showHarts
  try dsimp only
  repeat' first
    | with_reducible assumption | with_reducible apply kept_doubt hP | with_reducible apply kept_put hP | dsimp only

theorem kept_hartStart (hP : Closed F P) (hharts : F .harts) (s : State) (h : Nat) (pc : BitVec 64) (h0 : P s) : P
    (hartStart s h pc) := by
  unfold hartStart
  try dsimp only
  repeat' first
    | with_reducible assumption | with_reducible apply kept_updHart hP hharts | with_reducible apply kept_ite
    | dsimp only

theorem kept_hartArch (hP : Closed F P) (hharts : F .harts) (s : State) (h : Nat) (h0 : P s) : P (hartArch s h) :=
    by
  unfold hartArch
  try dsimp only
  repeat' first
    | with_reducible assumption | with_reducible apply kept_updHart hP hharts | dsimp only

theorem kept_restartHart (hP : Closed F P) (hharts : F .harts) (s : State) (h : Nat) (h0 : P s) : P (restartHart s
    h) := by
  unfold restartHart
  try dsimp only
  repeat' first
    | with_reducible assumption | with_reducible apply kept_hartArch hP hharts
    | with_reducible apply kept_hartStart hP hharts | dsimp only

theorem kept_haltHart (hP : Closed F P) (hharts : F .harts) (s : State) (h : Nat) (h0 : P s) : P (haltHart s h) :=
    by
  unfold haltHart
  try dsimp only
  repeat' first
    | with_reducible assumption | with_reducible apply kept_updHart hP hharts | dsimp only

theorem kept_hartAct (hP : Closed F P) (hharts : F .harts) (s : State) (run : Nat) (halt : Nat) (restart : Nat) (h :
    Nat) (h0 : P s) : P (hartAct s run halt restart h) := by
  unfold hartAct
  try dsimp only
  repeat' first
    | with_reducible assumption | with_reducible apply kept_hartStart hP hharts
    | with_reducible apply kept_restartHart hP hharts | with_reducible apply kept_updHart hP hharts
    | with_reducible apply kept_ite | dsimp only

theorem kept_hartCtrl (hP : Closed F P) (hharts : F .harts) (s : State) (r : Requester) (run : Nat) (halt : Nat)
    (restart : Nat) (h0 : P s) : P (hartCtrl s r run halt restart) := by
  unfold hartCtrl
  try dsimp only
  repeat' first
    | with_reducible assumption | intro _ | with_reducible apply kept_deny hP
    | with_reducible apply kept_hartAct hP hharts | with_reducible apply kept_showHarts hP
    | with_reducible apply kept_ite | with_reducible apply kept_foldl | with_reducible apply kept_foldl_fst
    | dsimp only

theorem kept_execHartRun (hP : Closed F P) (hharts : F .harts) (r : Requester) (harts : BitVec 6) (s : State) (h0 :
    P s) : After P (execHartRun r harts s) := by
  unfold execHartRun
  try dsimp only
  repeat' first
    | with_reducible assumption | intro _ | with_reducible apply kept_hartCtrl hP hharts
    | with_reducible apply kept_onWrite hP | with_reducible apply after_next | dsimp only

theorem kept_execHartHalt (hP : Closed F P) (hharts : F .harts) (r : Requester) (harts : BitVec 6) (s : State) (h0 :
    P s) : After P (execHartHalt r harts s) := by
  unfold execHartHalt
  try dsimp only
  repeat' first
    | with_reducible assumption | intro _ | with_reducible apply kept_hartCtrl hP hharts
    | with_reducible apply kept_onWrite hP | with_reducible apply after_next | dsimp only

theorem kept_execHartRestart (hP : Closed F P) (hharts : F .harts) (r : Requester) (harts : BitVec 6) (s : State)
    (h0 : P s) : After P (execHartRestart r harts s) := by
  unfold execHartRestart
  try dsimp only
  repeat' first
    | with_reducible assumption | intro _ | with_reducible apply kept_hartCtrl hP hharts
    | with_reducible apply kept_onWrite hP | with_reducible apply after_next | dsimp only

theorem kept_doorbell (hP : Closed F P) (s : State) (h : Nat) (msg : Word) (h0 : P s) : P (doorbell s h msg) := by
  unfold doorbell
  try dsimp only
  repeat' first
    | with_reducible assumption | with_reducible apply kept_bump hP | with_reducible apply kept_put hP
    | with_reducible apply kept_raise hP | with_reducible apply kept_wr hP | with_reducible apply kept_ite
    | dsimp only

theorem kept_execDoorbell (hP : Closed F P) (r : Requester) (h : Fin 6) (msg : Word) (s : State) (h0 : P s) : After
    P (execDoorbell r h msg s) := by
  unfold execDoorbell
  try dsimp only
  repeat' first
    | with_reducible assumption | intro _ | with_reducible apply kept_access hP
    | with_reducible apply kept_doorbell hP | with_reducible apply kept_ite | with_reducible apply after_next
    | with_reducible apply after_ite | dsimp only

theorem kept_dbPendWrite (hP : Closed F P) (s : State) (r : Requester) (v : Nat) (h0 : P s) : P (dbPendWrite s r v)
    := by
  unfold dbPendWrite
  try dsimp only
  repeat' first
    | with_reducible assumption | with_reducible apply kept_deny hP | with_reducible apply kept_put hP
    | with_reducible apply kept_ite | split | dsimp only

theorem kept_execMtimer (hP : Closed F P) (hclk : F .clk) (h : Fin 6) (s : State) (h0 : P s) : After P (execMtimer h
    s) := by
  unfold execMtimer
  try dsimp only
  repeat' first
    | with_reducible assumption | with_reducible apply kept_advP hP hclk | with_reducible apply after_next
    | dsimp only

theorem kept_kickHart (hP : Closed F P) (hharts : F .harts) (s : State) (h : Nat) (h0 : P s) : P (kickHart s h) :=
    by
  unfold kickHart
  try dsimp only
  repeat' first
    | with_reducible assumption | with_reducible apply kept_showHarts hP
    | with_reducible apply kept_updHart hP hharts | dsimp only

theorem kept_execKick (hP : Closed F P) (hharts : F .harts) (h : Fin 6) (s : State) (h0 : P s) : After P (execKick h
    s) := by
  unfold execKick
  try dsimp only
  repeat' first
    | with_reducible assumption | with_reducible apply kept_kickHart hP hharts | with_reducible apply after_next
    | dsimp only

theorem kept_appExpire (hP : Closed F P) (hharts : F .harts) (s : State) (h : Nat) (h0 : P s) : P (appExpire s h) :=
    by
  unfold appExpire
  try dsimp only
  repeat' first
    | with_reducible assumption | with_reducible apply kept_bump hP | with_reducible apply kept_raise hP
    | with_reducible apply kept_restartHart hP hharts | with_reducible apply kept_showHarts hP
    | with_reducible apply kept_updHart hP hharts | split | dsimp only

theorem kept_execAppWdt (hP : Closed F P) (hclk : F .clk) (hharts : F .harts) (k : Fin 4) (s : State) (h0 : P s) :
    After P (execAppWdt k s) := by
  unfold execAppWdt
  try dsimp only
  repeat' first
    | with_reducible assumption | with_reducible apply kept_advMono hP hclk
    | with_reducible apply kept_appExpire hP hharts | with_reducible apply kept_ite
    | with_reducible apply after_next | with_reducible apply after_ite | dsimp only

theorem kept_execKeeperWdt (hP : Closed F P) (hclk : F .clk) (hharts : F .harts) (h : Fin 2) (s : State) (h0 : P s)
    : After P (execKeeperWdt h s) := by
  unfold execKeeperWdt
  try dsimp only
  repeat' first
    | with_reducible assumption | with_reducible apply kept_advMono hP hclk | with_reducible apply kept_bump hP
    | with_reducible apply kept_raise hP | with_reducible apply kept_showHarts hP
    | with_reducible apply kept_updHart hP hharts | with_reducible apply kept_ite | with_reducible apply after_next
    | with_reducible apply after_ite | dsimp only

theorem kept_appHartsStop (hP : Closed F P) (hharts : F .harts) (s : State) (h0 : P s) : P (appHartsStop s) := by
  unfold appHartsStop
  try dsimp only
  repeat' first
    | with_reducible assumption | intro _ | with_reducible apply kept_showHarts hP
    | with_reducible apply kept_updHart hP hharts | with_reducible apply kept_foldl
    | with_reducible apply kept_foldl_fst | dsimp only

theorem kept_keeperRestart (hP : Closed F P) (hharts : F .harts) (s : State) (h0 : P s) : P (keeperRestart s) := by
  unfold keeperRestart
  try dsimp only
  repeat' first
    | with_reducible assumption | intro _ | with_reducible apply kept_restartHart hP hharts
    | with_reducible apply kept_showHarts hP | with_reducible apply kept_updHart hP hharts
    | with_reducible apply kept_foldl | with_reducible apply kept_foldl_fst | dsimp only

theorem kept_appHartsLost (hP : Closed F P) (hharts : F .harts) (s : State) (h0 : P s) : P (appHartsLost s) := by
  unfold appHartsLost
  try dsimp only
  repeat' first
    | with_reducible assumption | intro _ | with_reducible apply kept_showHarts hP
    | with_reducible apply kept_updHart hP hharts | with_reducible apply kept_foldl
    | with_reducible apply kept_foldl_fst | dsimp only

theorem kept_hartsReset (hP : Closed F P) (hharts : F .harts) (s : State) (h0 : P s) : P (hartsReset s) := by
  unfold hartsReset
  try dsimp only
  repeat' first
    | with_reducible assumption | with_reducible apply kept_showHarts hP | with_reducible exact Or.inr hharts
    | with_reducible exact Or.inl rfl | with_reducible apply hP.others | with_reducible exact fits_same _ _
    | with_reducible exact fits_upd _ _ _ _ | with_reducible exact fits_set _ _ _ _
    | with_reducible exact fits_map _ _ _ | with_reducible exact fits_replicate _ _ _
    | with_reducible exact fitsMck_same _ | with_reducible exact fun _ => fits_same _ _
    | with_reducible exact fun _ => fits_upd _ _ _ _ | with_reducible exact fun _ => fits_set _ _ _ _
    | with_reducible exact fun _ => fits_map _ _ _ | with_reducible exact fun _ => fits_replicate _ _ _ | dsimp only

theorem kept_hartsBoot (hP : Closed F P) (hharts : F .harts) (s : State) (h0 : P s) : P (hartsBoot s) := by
  unfold hartsBoot
  try dsimp only
  repeat' first
    | with_reducible assumption | with_reducible apply kept_hartStart hP hharts
    | with_reducible apply kept_showHarts hP | dsimp only

theorem kept_hartsStop (hP : Closed F P) (hharts : F .harts) (s : State) (h0 : P s) : P (hartsStop s) := by
  unfold hartsStop
  try dsimp only
  repeat' first
    | with_reducible assumption | with_reducible apply kept_showHarts hP | with_reducible exact Or.inr hharts
    | with_reducible exact Or.inl rfl | with_reducible apply hP.others | with_reducible exact fits_same _ _
    | with_reducible exact fits_upd _ _ _ _ | with_reducible exact fits_set _ _ _ _
    | with_reducible exact fits_map _ _ _ | with_reducible exact fits_replicate _ _ _
    | with_reducible exact fitsMck_same _ | with_reducible exact fun _ => fits_same _ _
    | with_reducible exact fun _ => fits_upd _ _ _ _ | with_reducible exact fun _ => fits_set _ _ _ _
    | with_reducible exact fun _ => fits_map _ _ _ | with_reducible exact fun _ => fits_replicate _ _ _ | dsimp only

end Sys2Proof.Machine
end

