-- ==== Sys2Proof/Laws/KeptRadio.lean ====
section
/-! SUPPORT. A property that survives the changes of Closed survives every function of: tracking, the monitors, the radio and the tables. -/

set_option linter.unusedTactic false
set_option linter.unreachableTactic false
set_option linter.unusedVariables false

namespace Sys2Proof.Machine

variable {F : Part → Prop} {P : State → Prop}

/-! ### Track -/

theorem kept_updRad (hP : Closed F P) (hrad : F .rad) (s : State) (f : Radio → Radio) (h0 : P s) : P (updRad s f) :=
    by
  unfold updRad
  try dsimp only
  repeat' first
    | with_reducible assumption | with_reducible exact Or.inr hrad | with_reducible exact Or.inl rfl
    | with_reducible apply hP.others | with_reducible exact fits_same _ _ | with_reducible exact fits_upd _ _ _ _
    | with_reducible exact fits_set _ _ _ _ | with_reducible exact fits_map _ _ _
    | with_reducible exact fits_replicate _ _ _ | with_reducible exact fitsMck_same _
    | with_reducible exact fun _ => fits_same _ _ | with_reducible exact fun _ => fits_upd _ _ _ _
    | with_reducible exact fun _ => fits_set _ _ _ _ | with_reducible exact fun _ => fits_map _ _ _
    | with_reducible exact fun _ => fits_replicate _ _ _ | dsimp only

theorem kept_updChan (hP : Closed F P) (hrad : F .rad) (s : State) (c : Nat) (f : Chan → Chan) (h0 : P s) : P
    (updChan s c f) := by
  unfold updChan
  try dsimp only
  repeat' first
    | with_reducible assumption | with_reducible apply kept_updRad hP hrad | split | dsimp only

theorem kept_showActive (hP : Closed F P) (s : State) (c : Nat) (b : Bool) (h0 : P s) : P (showActive s c b) := by
  unfold showActive
  try dsimp only
  repeat' first
    | with_reducible assumption | with_reducible apply kept_wrN hP | with_reducible apply kept_ite | dsimp only

theorem kept_showExcl (hP : Closed F P) (s : State) (h0 : P s) : P (showExcl s) := by
  unfold showExcl
  try dsimp only
  repeat' first
    | with_reducible assumption | intro _ | with_reducible apply kept_put hP | with_reducible apply kept_wrN hP
    | with_reducible apply kept_foldl | with_reducible apply kept_foldl_fst | dsimp only

theorem kept_openChan (hP : Closed F P) (hrad : F .rad) (s : State) (c : Nat) (x : Chan) (h0 : P s) : P (openChan s
    c x) := by
  unfold openChan
  try dsimp only
  repeat' first
    | with_reducible assumption | with_reducible apply kept_put hP | with_reducible apply kept_showActive hP
    | with_reducible apply kept_showExcl hP | with_reducible apply kept_updRad hP hrad
    | with_reducible apply kept_wrN hP | dsimp only

theorem kept_idleChan (hP : Closed F P) (hrad : F .rad) (s : State) (c : Nat) (h0 : P s) : P (idleChan s c) := by
  unfold idleChan
  try dsimp only
  repeat' first
    | with_reducible assumption | with_reducible apply kept_putB hP | with_reducible apply kept_showActive hP
    | with_reducible apply kept_showExcl hP | with_reducible apply kept_updRad hP hrad
    | with_reducible apply kept_wrN hP | dsimp only

theorem kept_setChanSt (hP : Closed F P) (hrad : F .rad) (s : State) (c : Nat) (st : Nat) (h0 : P s) : P (setChanSt
    s c st) := by
  unfold setChanSt
  try dsimp only
  repeat' first
    | with_reducible assumption | with_reducible apply kept_put hP | with_reducible apply kept_updChan hP hrad
    | dsimp only

theorem kept_execSchPullinEnd (hP : Closed F P) (hclk : F .clk) (hrad : F .rad) (ch : Fin 64) (pliOk : Bool) (s :
    State) (h0 : P s) : After P (execSchPullinEnd ch pliOk s) := by
  unfold execSchPullinEnd
  try dsimp only
  repeat' first
    | with_reducible assumption | with_reducible apply kept_advMono hP hclk
    | with_reducible apply kept_idleChan hP hrad | with_reducible apply kept_putB hP
    | with_reducible apply kept_setChanSt hP hrad | with_reducible apply kept_ite | with_reducible apply after_next
    | with_reducible apply after_ite | split | dsimp only

theorem kept_execSchBitSync (hP : Closed F P) (hrad : F .rad) (ch : Fin 64) (s : State) (h0 : P s) : After P
    (execSchBitSync ch s) := by
  unfold execSchBitSync
  try dsimp only
  repeat' first
    | with_reducible assumption | with_reducible apply kept_putB hP | with_reducible apply kept_raise hP
    | with_reducible apply kept_setChanSt hP hrad | with_reducible apply kept_updChan hP hrad
    | with_reducible apply kept_ite | with_reducible apply after_next | with_reducible apply after_ite | split
    | dsimp only

theorem kept_execSchLost (hP : Closed F P) (hrad : F .rad) (ch : Fin 64) (s : State) (h0 : P s) : After P
    (execSchLost ch s) := by
  unfold execSchLost
  try dsimp only
  repeat' first
    | with_reducible assumption | with_reducible apply kept_bump hP | with_reducible apply kept_idleChan hP hrad
    | with_reducible apply kept_raise hP | with_reducible apply kept_ite | with_reducible apply after_next
    | with_reducible apply after_ite | dsimp only

theorem kept_execSchSlip (hP : Closed F P) (hrad : F .rad) (ch : Fin 64) (s : State) (h0 : P s) : After P
    (execSchSlip ch s) := by
  unfold execSchSlip
  try dsimp only
  repeat' first
    | with_reducible assumption | with_reducible apply kept_bump hP | with_reducible apply kept_raise hP
    | with_reducible apply kept_updChan hP hrad | with_reducible apply kept_ite | with_reducible apply after_next
    | with_reducible apply after_ite | dsimp only

theorem kept_chanCtrl (hP : Closed F P) (hrad : F .rad) (s : State) (c : Nat) (v : Nat) (h0 : P s) : P (chanCtrl s c
    v) := by
  unfold chanCtrl
  try dsimp only
  repeat' first
    | with_reducible assumption | with_reducible apply kept_idleChan hP hrad | with_reducible apply kept_putB hP
    | with_reducible apply kept_updChan hP hrad | with_reducible apply kept_ite | dsimp only

theorem kept_execChRelease (hP : Closed F P) (hrad : F .rad) (r : Requester) (ch : Fin 80) (v : Word) (s : State)
    (h0 : P s) : After P (execChRelease r ch v s) := by
  unfold execChRelease
  try dsimp only
  repeat' first
    | with_reducible assumption | intro _ | with_reducible apply kept_chanCtrl hP hrad
    | with_reducible apply kept_onWrite hP | with_reducible apply after_next | dsimp only

theorem kept_execTchCommit (hP : Closed F P) (hrad : F .rad) (r : Requester) (ch : Fin 16) (v : Word) (s : State)
    (h0 : P s) : After P (execTchCommit r ch v s) := by
  unfold execTchCommit
  try dsimp only
  repeat' first
    | with_reducible assumption | intro _ | with_reducible apply kept_chanCtrl hP hrad
    | with_reducible apply kept_onWrite hP | with_reducible apply after_next | dsimp only

theorem kept_rejectMove (hP : Closed F P) (s : State) (reason : Nat) (h0 : P s) : P (rejectMove s reason) := by
  unfold rejectMove
  try dsimp only
  repeat' first
    | with_reducible assumption | with_reducible apply kept_put hP | with_reducible apply kept_putB hP
    | with_reducible apply kept_raise hP | dsimp only

theorem kept_execTrkPromoteGo (hP : Closed F P) (hrad : F .rad) (r : Requester) (v : Word) (s : State) (h0 : P s) :
    After P (execTrkPromoteGo r v s) := by
  unfold execTrkPromoteGo
  try dsimp only
  repeat' first
    | with_reducible assumption | intro _ | with_reducible apply kept_onWrite hP | with_reducible apply kept_put hP
    | with_reducible apply kept_putB hP | with_reducible apply kept_rejectMove hP
    | with_reducible apply kept_updRad hP hrad | with_reducible apply kept_wrN hP | with_reducible apply kept_ite
    | with_reducible apply after_next | with_reducible apply after_ite | dsimp only

theorem kept_endMove (hP : Closed F P) (hrad : F .rad) (s : State) (dst : Nat) (h0 : P s) : P (endMove s dst) := by
  unfold endMove
  try dsimp only
  repeat' first
    | with_reducible assumption | with_reducible apply kept_putB hP | with_reducible apply kept_updRad hP hrad
    | with_reducible apply kept_ite | dsimp only

theorem kept_copyChan (hP : Closed F P) (hrad : F .rad) (s : State) (src : Nat) (dst : Nat) (x : Chan) (pc : PC64)
    (car : Word) (code : Word) (h0 : P s) : P (copyChan s src dst x pc car code) := by
  unfold copyChan
  try dsimp only
  repeat' first
    | with_reducible assumption | with_reducible apply kept_idleChan hP hrad
    | with_reducible apply kept_openChan hP hrad | with_reducible apply kept_put hP
    | with_reducible apply kept_wr hP | with_reducible apply kept_wrN hP | with_reducible apply kept_ite
    | dsimp only

theorem kept_execTrkMove (hP : Closed F P) (hclk : F .clk) (hrad : F .rad) (pc : PC64) (car : Word) (code : Word) (s
    : State) (h0 : P s) : After P (execTrkMove pc car code s) := by
  unfold execTrkMove
  try dsimp only
  repeat' first
    | with_reducible assumption | with_reducible apply kept_advPc hP hclk | with_reducible apply kept_bump hP
    | with_reducible apply kept_copyChan hP hrad | with_reducible apply kept_endMove hP hrad
    | with_reducible apply kept_raise hP | with_reducible apply kept_rejectMove hP | with_reducible apply after_next
    | split | dsimp only

theorem kept_applyCommit (hP : Closed F P) (hrad : F .rad) (s : State) (c : Nat) (k : Nat) (m : Nat × Nat × Nat ×
    Nat × Nat) (h0 : P s) : P (applyCommit s c k m) := by
  unfold applyCommit
  try dsimp only
  repeat' first
    | with_reducible assumption | with_reducible apply kept_bump hP | with_reducible apply kept_raise hP
    | with_reducible apply kept_updChan hP hrad | with_reducible apply kept_wrN hP | with_reducible apply kept_ite
    | dsimp only

theorem kept_execTchBoundary (hP : Closed F P) (hclk : F .clk) (hrad : F .rad) (ch : Fin 16) (pc : PC64) (edge :
    Bool) (phase : Word) (s : State) (h0 : P s) : After P (execTchBoundary ch pc edge phase s) := by
  unfold execTchBoundary
  try dsimp only
  repeat' first
    | with_reducible assumption | with_reducible apply kept_advPc hP hclk
    | with_reducible apply kept_applyCommit hP hrad | with_reducible apply kept_updChan hP hrad
    | with_reducible apply kept_ite | with_reducible apply after_next | with_reducible apply after_ite | split
    | dsimp only

theorem kept_wrWords (hP : Closed F P) (s : State) (p : Pg) (off : Nat) (l : List Nat) (h : P s) : P (wrWords s p off l) := by
  induction l generalizing s off with
  | nil => exact h
  | cons w t ih => exact ih _ _ (kept_wrN hP s p off w h)

theorem kept_execTchDump (hP : Closed F P) (hclk : F .clk) (hrad : F .rad) (ch : Fin 16) (taps : List (Int × Int))
    (noise : Int × Int) (s : State) (h0 : P s) : After P (execTchDump ch taps noise s) := by
  unfold execTchDump
  try dsimp only
  repeat' first
    | with_reducible assumption | with_reducible apply kept_advPc hP hclk | with_reducible apply kept_bump hP
    | with_reducible apply kept_raise hP | with_reducible apply kept_updChan hP hrad
    | with_reducible apply kept_wrN hP | with_reducible apply kept_wrWords hP | with_reducible apply kept_ite
    | with_reducible apply after_next | with_reducible apply after_ite | split | dsimp only

theorem kept_execTchDumpRead (hP : Closed F P) (r : Requester) (ch : Fin 16) (slot : Fin 8) (s : State) (h0 : P s) :
    After P (execTchDumpRead r ch slot s) := by
  unfold execTchDumpRead
  try dsimp only
  repeat' first
    | with_reducible assumption | intro _ | with_reducible apply kept_onRead hP | with_reducible apply kept_reply hP
    | with_reducible apply kept_wrN hP | with_reducible apply after_next | dsimp only

theorem kept_execTchStale (hP : Closed F P) (ch : Fin 16) (s : State) (h0 : P s) : After P (execTchStale ch s) := by
  unfold execTchStale
  try dsimp only
  repeat' first
    | with_reducible assumption | with_reducible apply kept_putB hP | with_reducible apply kept_ite
    | with_reducible apply after_next | with_reducible apply after_ite | split | dsimp only

theorem kept_execShapeCheck (hP : Closed F P) (hrad : F .rad) (ch : Fin 16) (dev : Nat) (pair : Fin 5) (s : State)
    (h0 : P s) : After P (execShapeCheck ch dev pair s) := by
  unfold execShapeCheck
  try dsimp only
  repeat' first
    | with_reducible assumption | with_reducible apply kept_putB hP | with_reducible apply kept_raiseIf hP
    | with_reducible apply kept_updChan hP hrad | with_reducible apply kept_wrN hP | with_reducible apply kept_ite
    | with_reducible apply after_next | with_reducible apply after_ite | split | dsimp only

theorem kept_showQuality (hP : Closed F P) (s : State) (c : Nat) (m : Meas) (h0 : P s) : P (showQuality s c m) := by
  unfold showQuality
  try dsimp only
  repeat' first
    | with_reducible assumption | with_reducible apply kept_put hP | with_reducible apply kept_putB hP
    | with_reducible apply kept_raiseIf hP | with_reducible apply kept_wrN hP | with_reducible apply kept_ite
    | dsimp only

theorem kept_measure (hP : Closed F P) (s : State) (c : Nat) (seq : Nat) (x : Chan) (m : Meas) (h0 : P s) : P
    (measure s c seq x m) := by
  unfold measure
  try dsimp only
  repeat' first
    | with_reducible assumption | with_reducible apply kept_wr64 hP | with_reducible apply kept_wrN hP | dsimp only

theorem kept_epochChan (hP : Closed F P) (hrad : F .rad) (s : State) (seq : Nat) (meas : List Meas) (c : Nat) (h0 :
    P s) : P (epochChan s seq meas c) := by
  unfold epochChan
  try dsimp only
  repeat' first
    | with_reducible assumption | with_reducible apply kept_measure hP | with_reducible apply kept_putB hP
    | with_reducible apply kept_showQuality hP | with_reducible apply kept_updChan hP hrad
    | with_reducible apply kept_ite | split | dsimp only

theorem kept_execTrkEpoch (hP : Closed F P) (hclk : F .clk) (hrad : F .rad) (meas : List Meas) (s : State) (h0 : P
    s) : After P (execTrkEpoch meas s) := by
  unfold execTrkEpoch
  try dsimp only
  repeat' first
    | with_reducible assumption | intro _ | with_reducible apply kept_advT96 hP hclk
    | with_reducible apply kept_epochChan hP hrad | with_reducible apply kept_raise hP
    | with_reducible apply kept_wr64 hP | with_reducible apply kept_wrN hP | with_reducible apply kept_ite
    | with_reducible apply kept_foldl | with_reducible apply kept_foldl_fst | with_reducible apply after_next
    | with_reducible apply after_ite | dsimp only

/-! ### Monitor -/

theorem kept_updMon (hP : Closed F P) (hrad : F .rad) (s : State) (f : Monitor → Monitor) (h0 : P s) : P (updMon s
    f) := by
  unfold updMon
  try dsimp only
  repeat' first
    | with_reducible assumption | with_reducible apply kept_updRad hP hrad | dsimp only

theorem kept_showInd (hP : Closed F P) (s : State) (h0 : P s) : P (showInd s) := by
  unfold showInd
  try dsimp only
  repeat' first
    | with_reducible assumption | with_reducible apply kept_doubt hP | with_reducible apply kept_putB hP
    | with_reducible apply kept_raiseIf hP | dsimp only

theorem kept_showClearLeft (hP : Closed F P) (s : State) (h0 : P s) : P (showClearLeft s) := by
  unfold showClearLeft
  try dsimp only
  repeat' first
    | with_reducible assumption | with_reducible apply kept_put hP | with_reducible apply kept_ite | split
    | dsimp only

theorem kept_markSlot (hP : Closed F P) (hdsc : F .dsc) (s : State) (b : Bool) (h0 : P s) : P (markSlot s b) := by
  unfold markSlot
  try dsimp only
  repeat' first
    | with_reducible assumption | with_reducible apply kept_updSlot hP hdsc | dsimp only

theorem kept_causeRises (hP : Closed F P) (hdsc : F .dsc) (s : State) (h0 : P s) : P (causeRises s) := by
  unfold causeRises
  try dsimp only
  repeat' first
    | with_reducible assumption | with_reducible apply kept_bump hP | with_reducible apply kept_doubt hP
    | with_reducible apply kept_markSlot hP hdsc | with_reducible apply kept_putB hP
    | with_reducible apply kept_raise hP | dsimp only

theorem kept_setCause (hP : Closed F P) (hdsc : F .dsc) (hrad : F .rad) (s : State) (i : Nat) (b : Bool) (h0 : P s)
    : P (setCause s i b) := by
  unfold setCause
  try dsimp only
  repeat' first
    | with_reducible assumption | with_reducible apply kept_causeRises hP hdsc
    | with_reducible apply kept_showClearLeft hP | with_reducible apply kept_showInd hP
    | with_reducible apply kept_updMon hP hrad | with_reducible apply kept_wrN hP | with_reducible apply kept_ite
    | dsimp only

theorem kept_clearSuspect (hP : Closed F P) (hdsc : F .dsc) (s : State) (h0 : P s) : P (clearSuspect s) := by
  unfold clearSuspect
  try dsimp only
  repeat' first
    | with_reducible assumption | with_reducible apply kept_doubt hP | with_reducible apply kept_markSlot hP hdsc
    | with_reducible apply kept_putB hP | with_reducible apply kept_raise hP
    | with_reducible apply kept_showClearLeft hP | dsimp only

theorem kept_judgeManyExcl (hP : Closed F P) (hdsc : F .dsc) (hrad : F .rad) (s : State) (h0 : P s) : P
    (judgeManyExcl s) := by
  unfold judgeManyExcl
  try dsimp only
  repeat' first
    | with_reducible assumption | with_reducible apply kept_setCause hP hdsc hrad | dsimp only

theorem kept_exclude (hP : Closed F P) (hrad : F .rad) (s : State) (sys : Nat) (prn : Nat) (h0 : P s) : P (exclude s
    sys prn) := by
  unfold exclude
  try dsimp only
  repeat' first
    | with_reducible assumption | with_reducible apply kept_bump hP | with_reducible apply kept_raise hP
    | with_reducible apply kept_showExcl hP | with_reducible apply kept_updMon hP hrad
    | with_reducible apply kept_ite | dsimp only

theorem kept_endExclusion (hP : Closed F P) (hrad : F .rad) (s : State) (sys : Nat) (prn : Nat) (h0 : P s) : P
    (endExclusion s sys prn) := by
  unfold endExclusion
  try dsimp only
  repeat' first
    | with_reducible assumption | with_reducible apply kept_showExcl hP | with_reducible apply kept_updMon hP hrad
    | dsimp only

/-! ### GnssRadio -/

theorem kept_setDom (hP : Closed F P) (hpwr : F .pwr) (s : State) (d : Nat) (b : Bool) (h0 : P s) : P (setDom s d b)
    := by
  unfold setDom
  try dsimp only
  repeat' first
    | with_reducible assumption | with_reducible exact Or.inr hpwr | with_reducible exact Or.inl rfl
    | with_reducible apply hP.others | with_reducible exact fits_same _ _ | with_reducible exact fits_upd _ _ _ _
    | with_reducible exact fits_set _ _ _ _ | with_reducible exact fits_map _ _ _
    | with_reducible exact fits_replicate _ _ _ | with_reducible exact fitsMck_same _
    | with_reducible exact fun _ => fits_same _ _ | with_reducible exact fun _ => fits_upd _ _ _ _
    | with_reducible exact fun _ => fits_set _ _ _ _ | with_reducible exact fun _ => fits_map _ _ _
    | with_reducible exact fun _ => fits_replicate _ _ _ | dsimp only

theorem kept_biasUp (hP : Closed F P) (hrad : F .rad) (s : State) (h0 : P s) : P (biasUp s) := by
  unfold biasUp
  try dsimp only
  repeat' first
    | with_reducible assumption | with_reducible apply kept_put hP | with_reducible apply kept_putB hP
    | with_reducible apply kept_updRad hP hrad | dsimp only

theorem kept_biasDown (hP : Closed F P) (hrad : F .rad) (s : State) (h0 : P s) : P (biasDown s) := by
  unfold biasDown
  try dsimp only
  repeat' first
    | with_reducible assumption | with_reducible apply kept_put hP | with_reducible apply kept_putB hP
    | with_reducible apply kept_updRad hP hrad | dsimp only

theorem kept_biasFollow (hP : Closed F P) (hrad : F .rad) (s : State) (h0 : P s) : P (biasFollow s) := by
  unfold biasFollow
  try dsimp only
  repeat' first
    | with_reducible assumption | with_reducible apply kept_biasDown hP hrad
    | with_reducible apply kept_biasUp hP hrad | with_reducible apply kept_doubt hP | with_reducible apply kept_ite
    | dsimp only

theorem kept_antCfgWritten (hP : Closed F P) (hrad : F .rad) (s : State) (retryWas : Nat) (h0 : P s) : P
    (antCfgWritten s retryWas) := by
  unfold antCfgWritten
  try dsimp only
  repeat' first
    | with_reducible assumption | with_reducible apply kept_biasDown hP hrad
    | with_reducible apply kept_biasFollow hP hrad | with_reducible apply kept_ite | dsimp only

theorem kept_gfUp (hP : Closed F P) (hpwr : F .pwr) (hdsc : F .dsc) (hrad : F .rad) (s : State) (h0 : P s) : P (gfUp
    s) := by
  unfold gfUp
  try dsimp only
  repeat' first
    | with_reducible assumption | with_reducible apply kept_biasFollow hP hrad | with_reducible apply kept_putB hP
    | with_reducible apply kept_setCause hP hdsc hrad | with_reducible apply kept_setDom hP hpwr
    | with_reducible apply kept_updRad hP hrad | dsimp only

theorem kept_gfDown (hP : Closed F P) (hpwr : F .pwr) (hrad : F .rad) (s : State) (h0 : P s) : P (gfDown s) := by
  unfold gfDown
  try dsimp only
  repeat' first
    | with_reducible assumption | with_reducible apply kept_biasFollow hP hrad | with_reducible apply kept_doubt hP
    | with_reducible apply kept_put hP | with_reducible apply kept_setDom hP hpwr | dsimp only

theorem kept_gfFollow (hP : Closed F P) (hpwr : F .pwr) (hdsc : F .dsc) (hrad : F .rad) (s : State) (h0 : P s) : P
    (gfFollow s) := by
  unfold gfFollow
  try dsimp only
  repeat' first
    | with_reducible assumption | with_reducible apply kept_gfDown hP hpwr hrad
    | with_reducible apply kept_gfUp hP hpwr hdsc hrad | with_reducible apply kept_ite | dsimp only

theorem kept_execGfWarmupEnd (hP : Closed F P) (hclk : F .clk) (s : State) (h0 : P s) : After P (execGfWarmupEnd s)
    := by
  unfold execGfWarmupEnd
  try dsimp only
  repeat' first
    | with_reducible assumption | with_reducible apply kept_advMono hP hclk | with_reducible apply kept_putB hP
    | with_reducible apply kept_ite | with_reducible apply after_next | with_reducible apply after_ite | dsimp only

theorem kept_execPllLockReturn (hP : Closed F P) (s : State) (h0 : P s) : After P (execPllLockReturn s) := by
  unfold execPllLockReturn
  try dsimp only
  repeat' first
    | with_reducible assumption | with_reducible apply kept_doubt hP | with_reducible apply kept_putB hP
    | with_reducible apply kept_ite | with_reducible apply after_next | with_reducible apply after_ite | dsimp only

theorem kept_execAgcUpdate (hP : Closed F P) (hrad : F .rad) (outer : Fin 257) (clip : Fin 257) (ma : Nat) (mv :
    Nat) (s : State) (h0 : P s) : After P (execAgcUpdate outer clip ma mv s) := by
  unfold execAgcUpdate
  try dsimp only
  repeat' first
    | with_reducible assumption | with_reducible apply kept_doubt hP | with_reducible apply kept_drawn hP
    | with_reducible apply kept_putB hP | with_reducible apply kept_updRad hP hrad
    | with_reducible apply kept_wrN hP | with_reducible apply kept_ite | with_reducible apply after_next
    | with_reducible apply after_ite | dsimp only

theorem kept_execAgcRail (hP : Closed F P) (hclk : F .clk) (s : State) (h0 : P s) : After P (execAgcRail s) := by
  unfold execAgcRail
  try dsimp only
  repeat' first
    | with_reducible assumption | with_reducible apply kept_advMono hP hclk | with_reducible apply kept_doubt hP
    | with_reducible apply kept_raise hP | with_reducible apply kept_ite | with_reducible apply after_next
    | with_reducible apply after_ite | split | dsimp only

theorem kept_execAntShort (hP : Closed F P) (hrad : F .rad) (s : State) (h0 : P s) : After P (execAntShort s) := by
  unfold execAntShort
  try dsimp only
  repeat' first
    | with_reducible assumption | with_reducible apply kept_biasDown hP hrad | with_reducible apply kept_bump hP
    | with_reducible apply kept_doubt hP | with_reducible apply kept_put hP | with_reducible apply kept_raise hP
    | with_reducible apply kept_updRad hP hrad | with_reducible apply kept_ite | with_reducible apply after_next
    | with_reducible apply after_ite | dsimp only

theorem kept_execAntRetry (hP : Closed F P) (hclk : F .clk) (hrad : F .rad) (s : State) (h0 : P s) : After P
    (execAntRetry s) := by
  unfold execAntRetry
  try dsimp only
  repeat' first
    | with_reducible assumption | with_reducible apply kept_advMono hP hclk
    | with_reducible apply kept_biasUp hP hrad | with_reducible apply kept_ite | with_reducible apply after_next
    | with_reducible apply after_ite | dsimp only

theorem kept_execAntOk (hP : Closed F P) (hclk : F .clk) (s : State) (h0 : P s) : After P (execAntOk s) := by
  unfold execAntOk
  try dsimp only
  repeat' first
    | with_reducible assumption | with_reducible apply kept_advMono hP hclk | with_reducible apply kept_doubt hP
    | with_reducible apply kept_raise hP | with_reducible apply kept_ite | with_reducible apply after_next
    | with_reducible apply after_ite | dsimp only

theorem kept_execAntOpen (hP : Closed F P) (ma : Nat) (s : State) (h0 : P s) : After P (execAntOpen ma s) := by
  unfold execAntOpen
  try dsimp only
  repeat' first
    | with_reducible assumption | with_reducible apply kept_doubt hP | with_reducible apply kept_put hP
    | with_reducible apply kept_raise hP | with_reducible apply kept_ite | with_reducible apply after_next
    | with_reducible apply after_ite | dsimp only

theorem kept_execAntOpenClear (hP : Closed F P) (ma : Nat) (s : State) (h0 : P s) : After P (execAntOpenClear ma s)
    := by
  unfold execAntOpenClear
  try dsimp only
  repeat' first
    | with_reducible assumption | with_reducible apply kept_doubt hP | with_reducible apply kept_put hP
    | with_reducible apply kept_ite | with_reducible apply after_next | with_reducible apply after_ite | dsimp only

theorem kept_pushResult (hP : Closed F P) (hrad : F .rad) (s : State) (w : List Nat) (h0 : P s) : P (pushResult s w)
    := by
  unfold pushResult
  try dsimp only
  repeat' first
    | with_reducible assumption | with_reducible apply kept_bump hP | with_reducible apply kept_put hP
    | with_reducible apply kept_raise hP | with_reducible apply kept_updRad hP hrad | with_reducible apply kept_ite
    | dsimp only

theorem kept_endJob (hP : Closed F P) (hrad : F .rad) (s : State) (w : List Nat) (h0 : P s) : P (endJob s w) := by
  unfold endJob
  try dsimp only
  repeat' first
    | with_reducible assumption | with_reducible apply kept_bump hP | with_reducible apply kept_pushResult hP hrad
    | with_reducible apply kept_raise hP | dsimp only

theorem kept_handOver (hP : Closed F P) (hrad : F .rad) (s : State) (c : Nat) (sys : Nat) (prn : Nat) (dopp : Int)
    (h0 : P s) : P (handOver s c sys prn dopp) := by
  unfold handOver
  try dsimp only
  repeat' first
    | with_reducible assumption | with_reducible apply kept_openChan hP hrad | with_reducible apply kept_wrN hP
    | dsimp only

theorem kept_clearRun (hP : Closed F P) (hrad : F .rad) (s : State) (h0 : P s) : P (clearRun s) := by
  unfold clearRun
  try dsimp only
  repeat' first
    | with_reducible assumption | with_reducible apply kept_putB hP | with_reducible apply kept_updRad hP hrad
    | with_reducible apply kept_ite | split | dsimp only

theorem kept_acqResult (hP : Closed F P) (hrad : F .rad) (s : State) (x : AcqRun) (det : Bool) (ver : Bool) (dopp :
    Int) (code : Nat) (cn0 : Nat) (h0 : P s) : P (acqResult s x det ver dopp code cn0) := by
  unfold acqResult
  try dsimp only
  repeat' first
    | with_reducible assumption | with_reducible apply kept_bump hP | with_reducible apply kept_clearRun hP hrad
    | with_reducible apply kept_endJob hP hrad | with_reducible apply kept_handOver hP hrad
    | with_reducible apply kept_raiseIf hP | with_reducible apply kept_ite | split | dsimp only

theorem kept_refuseJob (hP : Closed F P) (hrad : F .rad) (s : State) (j : AcqJob) (h0 : P s) : P (refuseJob s j) :=
    by
  unfold refuseJob
  try dsimp only
  repeat' first
    | with_reducible assumption | with_reducible apply kept_endJob hP hrad | dsimp only

theorem kept_showJobq (hP : Closed F P) (s : State) (h0 : P s) : P (showJobq s) := by
  unfold showJobq
  try dsimp only
  repeat' first
    | with_reducible assumption | with_reducible apply kept_put hP | dsimp only

theorem kept_pushJob (hP : Closed F P) (hrad : F .rad) (s : State) (h0 : P s) : P (pushJob s) := by
  unfold pushJob
  try dsimp only
  repeat' first
    | with_reducible assumption | with_reducible apply kept_raise hP | with_reducible apply kept_showJobq hP
    | with_reducible apply kept_updRad hP hrad | with_reducible apply kept_ite | dsimp only

theorem kept_flushJobs (hP : Closed F P) (hrad : F .rad) (s : State) (h0 : P s) : P (flushJobs s) := by
  unfold flushJobs
  try dsimp only
  repeat' first
    | with_reducible assumption | with_reducible apply kept_showJobq hP | with_reducible apply kept_updRad hP hrad
    | dsimp only

theorem kept_acqCtrl (hP : Closed F P) (hrad : F .rad) (s : State) (v : Nat) (h0 : P s) : P (acqCtrl s v) := by
  unfold acqCtrl
  try dsimp only
  repeat' first
    | with_reducible assumption | with_reducible apply kept_flushJobs hP hrad
    | with_reducible apply kept_pushJob hP hrad | with_reducible apply kept_ite | dsimp only

theorem kept_execAcqPush (hP : Closed F P) (hrad : F .rad) (r : Requester) (v : Word) (s : State) (h0 : P s) : After
    P (execAcqPush r v s) := by
  unfold execAcqPush
  try dsimp only
  repeat' first
    | with_reducible assumption | intro _ | with_reducible apply kept_acqCtrl hP hrad
    | with_reducible apply kept_onWrite hP | with_reducible apply after_next | dsimp only

theorem kept_execAcqFlush (hP : Closed F P) (hrad : F .rad) (r : Requester) (v : Word) (s : State) (h0 : P s) :
    After P (execAcqFlush r v s) := by
  unfold execAcqFlush
  try dsimp only
  repeat' first
    | with_reducible assumption | intro _ | with_reducible apply kept_acqCtrl hP hrad
    | with_reducible apply kept_onWrite hP | with_reducible apply after_next | dsimp only

theorem kept_startJob (hP : Closed F P) (hrad : F .rad) (s : State) (j : AcqJob) (h0 : P s) : P (startJob s j) := by
  unfold startJob
  try dsimp only
  repeat' first
    | with_reducible assumption | with_reducible apply kept_putB hP | with_reducible apply kept_updRad hP hrad
    | with_reducible apply kept_ite | dsimp only

theorem kept_takeJob (hP : Closed F P) (hrad : F .rad) (s : State) (j : AcqJob) (rest : List AcqJob) (h0 : P s) : P
    (takeJob s j rest) := by
  unfold takeJob
  try dsimp only
  repeat' first
    | with_reducible assumption | with_reducible apply kept_refuseJob hP hrad
    | with_reducible apply kept_showJobq hP | with_reducible apply kept_startJob hP hrad
    | with_reducible apply kept_updRad hP hrad | with_reducible apply kept_ite | dsimp only

theorem kept_takeSweep (hP : Closed F P) (hrad : F .rad) (s : State) (h0 : P s) : P (takeSweep s) := by
  unfold takeSweep
  try dsimp only
  repeat' first
    | with_reducible assumption | with_reducible apply kept_raiseIf hP | with_reducible apply kept_refuseJob hP hrad
    | with_reducible apply kept_startJob hP hrad | with_reducible apply kept_updRad hP hrad
    | with_reducible apply kept_ite | split | dsimp only

theorem kept_execAcqJobStart (hP : Closed F P) (hrad : F .rad) (s : State) (h0 : P s) : After P (execAcqJobStart s)
    := by
  unfold execAcqJobStart
  try dsimp only
  repeat' first
    | with_reducible assumption | with_reducible apply kept_takeJob hP hrad
    | with_reducible apply kept_takeSweep hP hrad | with_reducible apply kept_ite | with_reducible apply after_next
    | with_reducible apply after_ite | split | dsimp only

theorem kept_updRun (hP : Closed F P) (hrad : F .rad) (s : State) (x : AcqRun) (h0 : P s) : P (updRun s x) := by
  unfold updRun
  try dsimp only
  repeat' first
    | with_reducible assumption | with_reducible apply kept_updRad hP hrad | dsimp only

theorem kept_execAcqCaptureDone (hP : Closed F P) (hclk : F .clk) (hrad : F .rad) (s : State) (h0 : P s) : After P
    (execAcqCaptureDone s) := by
  unfold execAcqCaptureDone
  try dsimp only
  repeat' first
    | with_reducible assumption | with_reducible apply kept_advPc hP hclk | with_reducible apply kept_updRun hP hrad
    | with_reducible apply kept_ite | with_reducible apply after_next | with_reducible apply after_ite | split
    | dsimp only

theorem kept_startVerify (hP : Closed F P) (hrad : F .rad) (s : State) (x : AcqRun) (peak : Nat × Int × Nat × Nat)
    (h0 : P s) : P (startVerify s x peak) := by
  unfold startVerify
  try dsimp only
  repeat' first
    | with_reducible assumption | with_reducible apply kept_updRun hP hrad | with_reducible apply kept_ite
    | dsimp only

theorem kept_judgeJob (hP : Closed F P) (hrad : F .rad) (s : State) (x : AcqRun) (stat : Nat) (dopp : Int) (code :
    Nat) (cn0 : Nat) (h0 : P s) : P (judgeJob s x stat dopp code cn0) := by
  unfold judgeJob
  try dsimp only
  repeat' first
    | with_reducible assumption | with_reducible apply kept_acqResult hP hrad
    | with_reducible apply kept_startVerify hP hrad | with_reducible apply kept_ite | dsimp only

theorem kept_execAcqPassDone (hP : Closed F P) (hclk : F .clk) (hrad : F .rad) (stat : Nat) (dopp : Int) (code :
    Nat) (cn0 : Nat) (s : State) (h0 : P s) : After P (execAcqPassDone stat dopp code cn0 s) := by
  unfold execAcqPassDone
  try dsimp only
  repeat' first
    | with_reducible assumption | with_reducible apply kept_advP hP hclk
    | with_reducible apply kept_clearRun hP hrad | with_reducible apply kept_judgeJob hP hrad
    | with_reducible apply kept_updRun hP hrad | with_reducible apply kept_ite | with_reducible apply after_next
    | with_reducible apply after_ite | split | dsimp only

theorem kept_execAcqResRead (hP : Closed F P) (hrad : F .rad) (r : Requester) (s : State) (h0 : P s) : After P
    (execAcqResRead r s) := by
  unfold execAcqResRead
  try dsimp only
  repeat' first
    | with_reducible assumption | intro _ | with_reducible apply kept_onRead hP | with_reducible apply kept_put hP
    | with_reducible apply kept_reply hP | with_reducible apply kept_updRad hP hrad
    | with_reducible apply kept_wrWords hP | with_reducible apply after_next | split | dsimp only

/-! ### Tables -/

theorem kept_drawSecret (hP : Closed F P) (hports : F .ports) (s : State) (d : Nat) (h0 : P s) : P (drawSecret s
    d).1 := by
  unfold drawSecret
  try dsimp only
  repeat' first
    | with_reducible assumption | with_reducible apply kept_drawn hP | with_reducible apply kept_updPd hP hports
    | with_reducible apply kept_ite | with_reducible apply kept_fst_ite
    | with_reducible exact fits_PortDie (fits_same _ _) | with_reducible exact fits_PortDie (fits_upd _ _ _ _)
    | with_reducible exact fits_PortDie (fits_set _ _ _ _) | with_reducible exact fits_PortDie (fits_map _ _ _)
    | with_reducible exact fits_PortDie (fits_replicate _ _ _) | with_reducible exact fits_same _ _
    | with_reducible exact fits_upd _ _ _ _ | with_reducible exact fits_set _ _ _ _
    | with_reducible exact fits_map _ _ _ | with_reducible exact fits_replicate _ _ _
    | with_reducible exact fun _ => fits_PortDie (fits_same _ _)
    | with_reducible exact fun _ => fits_PortDie (fits_upd _ _ _ _)
    | with_reducible exact fun _ => fits_PortDie (fits_set _ _ _ _)
    | with_reducible exact fun _ => fits_PortDie (fits_map _ _ _)
    | with_reducible exact fun _ => fits_PortDie (fits_replicate _ _ _)
    | with_reducible exact fun _ => fits_same _ _ | with_reducible exact fun _ => fits_upd _ _ _ _
    | with_reducible exact fun _ => fits_set _ _ _ _ | with_reducible exact fun _ => fits_map _ _ _
    | with_reducible exact fun _ => fits_replicate _ _ _ | dsimp only

theorem kept_showReady (hP : Closed F P) (s : State) (d : Nat) (h0 : P s) : P (showReady s d) := by
  unfold showReady
  try dsimp only
  repeat' first
    | with_reducible assumption | with_reducible apply kept_putB hP | dsimp only

theorem kept_newRateKey (hP : Closed F P) (hports : F .ports) (s : State) (d : Nat) (h0 : P s) : P (newRateKey s d)
    := by
  unfold newRateKey
  try dsimp only
  repeat' first
    | with_reducible assumption | with_reducible apply kept_drawSecret hP hports
    | with_reducible apply kept_showReady hP | with_reducible apply kept_updPd hP hports
    | with_reducible apply kept_ite | with_reducible apply kept_fst_ite
    | with_reducible exact fits_PortDie (fits_same _ _) | with_reducible exact fits_PortDie (fits_upd _ _ _ _)
    | with_reducible exact fits_PortDie (fits_set _ _ _ _) | with_reducible exact fits_PortDie (fits_map _ _ _)
    | with_reducible exact fits_PortDie (fits_replicate _ _ _) | with_reducible exact fits_same _ _
    | with_reducible exact fits_upd _ _ _ _ | with_reducible exact fits_set _ _ _ _
    | with_reducible exact fits_map _ _ _ | with_reducible exact fits_replicate _ _ _
    | with_reducible exact fun _ => fits_PortDie (fits_same _ _)
    | with_reducible exact fun _ => fits_PortDie (fits_upd _ _ _ _)
    | with_reducible exact fun _ => fits_PortDie (fits_set _ _ _ _)
    | with_reducible exact fun _ => fits_PortDie (fits_map _ _ _)
    | with_reducible exact fun _ => fits_PortDie (fits_replicate _ _ _)
    | with_reducible exact fun _ => fits_same _ _ | with_reducible exact fun _ => fits_upd _ _ _ _
    | with_reducible exact fun _ => fits_set _ _ _ _ | with_reducible exact fun _ => fits_map _ _ _
    | with_reducible exact fun _ => fits_replicate _ _ _ | dsimp only

theorem kept_newSesKey (hP : Closed F P) (hports : F .ports) (s : State) (d : Nat) (h0 : P s) : P (newSesKey s d) :=
    by
  unfold newSesKey
  try dsimp only
  repeat' first
    | with_reducible assumption | with_reducible apply kept_drawSecret hP hports
    | with_reducible apply kept_showReady hP | with_reducible apply kept_updPd hP hports
    | with_reducible apply kept_ite | with_reducible apply kept_fst_ite
    | with_reducible exact fits_PortDie (fits_same _ _) | with_reducible exact fits_PortDie (fits_upd _ _ _ _)
    | with_reducible exact fits_PortDie (fits_set _ _ _ _) | with_reducible exact fits_PortDie (fits_map _ _ _)
    | with_reducible exact fits_PortDie (fits_replicate _ _ _) | with_reducible exact fits_same _ _
    | with_reducible exact fits_upd _ _ _ _ | with_reducible exact fits_set _ _ _ _
    | with_reducible exact fits_map _ _ _ | with_reducible exact fits_replicate _ _ _
    | with_reducible exact fun _ => fits_PortDie (fits_same _ _)
    | with_reducible exact fun _ => fits_PortDie (fits_upd _ _ _ _)
    | with_reducible exact fun _ => fits_PortDie (fits_set _ _ _ _)
    | with_reducible exact fun _ => fits_PortDie (fits_map _ _ _)
    | with_reducible exact fun _ => fits_PortDie (fits_replicate _ _ _)
    | with_reducible exact fun _ => fits_same _ _ | with_reducible exact fun _ => fits_upd _ _ _ _
    | with_reducible exact fun _ => fits_set _ _ _ _ | with_reducible exact fun _ => fits_map _ _ _
    | with_reducible exact fun _ => fits_replicate _ _ _ | dsimp only

theorem kept_execSecretRetry (hP : Closed F P) (hports : F .ports) (d : Fin 4) (s : State) (h0 : P s) : After P
    (execSecretRetry d s) := by
  unfold execSecretRetry
  try dsimp only
  repeat' first
    | with_reducible assumption | with_reducible apply kept_newRateKey hP hports
    | with_reducible apply kept_newSesKey hP hports | with_reducible apply kept_ite
    | with_reducible apply after_next | with_reducible apply after_ite | dsimp only

theorem kept_showUsed (hP : Closed F P) (s : State) (d : Nat) (h0 : P s) : P (showUsed s d) := by
  unfold showUsed
  try dsimp only
  repeat' first
    | with_reducible assumption | with_reducible apply kept_put hP | dsimp only

theorem kept_rateFlush (hP : Closed F P) (hports : F .ports) (s : State) (d : Nat) (h0 : P s) : P (rateFlush s d) :=
    by
  unfold rateFlush
  try dsimp only
  repeat' first
    | with_reducible assumption | with_reducible apply kept_newRateKey hP hports | with_reducible apply kept_putB hP
    | with_reducible apply kept_showUsed hP | with_reducible apply kept_updPd hP hports
    | with_reducible exact fits_PortDie (fits_same _ _) | with_reducible exact fits_PortDie (fits_upd _ _ _ _)
    | with_reducible exact fits_PortDie (fits_set _ _ _ _) | with_reducible exact fits_PortDie (fits_map _ _ _)
    | with_reducible exact fits_PortDie (fits_replicate _ _ _) | with_reducible exact fits_same _ _
    | with_reducible exact fits_upd _ _ _ _ | with_reducible exact fits_set _ _ _ _
    | with_reducible exact fits_map _ _ _ | with_reducible exact fits_replicate _ _ _
    | with_reducible exact fun _ => fits_PortDie (fits_same _ _)
    | with_reducible exact fun _ => fits_PortDie (fits_upd _ _ _ _)
    | with_reducible exact fun _ => fits_PortDie (fits_set _ _ _ _)
    | with_reducible exact fun _ => fits_PortDie (fits_map _ _ _)
    | with_reducible exact fun _ => fits_PortDie (fits_replicate _ _ _)
    | with_reducible exact fun _ => fits_same _ _ | with_reducible exact fun _ => fits_upd _ _ _ _
    | with_reducible exact fun _ => fits_set _ _ _ _ | with_reducible exact fun _ => fits_map _ _ _
    | with_reducible exact fun _ => fits_replicate _ _ _ | dsimp only

theorem kept_execTblFlush (hP : Closed F P) (hports : F .ports) (r : Requester) (d : Fin 4) (s : State) (h0 : P s) :
    After P (execTblFlush r d s) := by
  unfold execTblFlush
  try dsimp only
  repeat' first
    | with_reducible assumption | intro _ | with_reducible apply kept_onWrite hP
    | with_reducible apply kept_rateFlush hP hports | with_reducible apply after_next | dsimp only

theorem kept_execFlushDone (hP : Closed F P) (hports : F .ports) (d : Fin 4) (s : State) (h0 : P s) : After P
    (execFlushDone d s) := by
  unfold execFlushDone
  try dsimp only
  repeat' first
    | with_reducible assumption | with_reducible apply kept_putB hP | with_reducible apply kept_raise hP
    | with_reducible apply kept_updPd hP hports | with_reducible apply kept_ite | with_reducible apply after_next
    | with_reducible apply after_ite | with_reducible exact fits_PortDie (fits_same _ _)
    | with_reducible exact fits_PortDie (fits_upd _ _ _ _) | with_reducible exact fits_PortDie (fits_set _ _ _ _)
    | with_reducible exact fits_PortDie (fits_map _ _ _) | with_reducible exact fits_PortDie (fits_replicate _ _ _)
    | with_reducible exact fits_same _ _ | with_reducible exact fits_upd _ _ _ _
    | with_reducible exact fits_set _ _ _ _ | with_reducible exact fits_map _ _ _
    | with_reducible exact fits_replicate _ _ _ | with_reducible exact fun _ => fits_PortDie (fits_same _ _)
    | with_reducible exact fun _ => fits_PortDie (fits_upd _ _ _ _)
    | with_reducible exact fun _ => fits_PortDie (fits_set _ _ _ _)
    | with_reducible exact fun _ => fits_PortDie (fits_map _ _ _)
    | with_reducible exact fun _ => fits_PortDie (fits_replicate _ _ _)
    | with_reducible exact fun _ => fits_same _ _ | with_reducible exact fun _ => fits_upd _ _ _ _
    | with_reducible exact fun _ => fits_set _ _ _ _ | with_reducible exact fun _ => fits_map _ _ _
    | with_reducible exact fun _ => fits_replicate _ _ _ | dsimp only

theorem kept_putEnt (hP : Closed F P) (hports : F .ports) (s : State) (d : Nat) (k : Nat) (e : RateEnt) (h0 : P s) :
    P (putEnt s d k e) := by
  unfold putEnt
  try dsimp only
  repeat' first
    | with_reducible assumption | with_reducible apply kept_showUsed hP | with_reducible apply kept_updPd hP hports
    | with_reducible apply kept_writeTiles hP hports | with_reducible apply kept_ite
    | with_reducible apply kept_fst_ite | with_reducible exact fits_PortDie (fits_same _ _)
    | with_reducible exact fits_PortDie (fits_upd _ _ _ _) | with_reducible exact fits_PortDie (fits_set _ _ _ _)
    | with_reducible exact fits_PortDie (fits_map _ _ _) | with_reducible exact fits_PortDie (fits_replicate _ _ _)
    | with_reducible exact fits_same _ _ | with_reducible exact fits_upd _ _ _ _
    | with_reducible exact fits_set _ _ _ _ | with_reducible exact fits_map _ _ _
    | with_reducible exact fits_replicate _ _ _ | with_reducible exact fun _ => fits_PortDie (fits_same _ _)
    | with_reducible exact fun _ => fits_PortDie (fits_upd _ _ _ _)
    | with_reducible exact fun _ => fits_PortDie (fits_set _ _ _ _)
    | with_reducible exact fun _ => fits_PortDie (fits_map _ _ _)
    | with_reducible exact fun _ => fits_PortDie (fits_replicate _ _ _)
    | with_reducible exact fun _ => fits_same _ _ | with_reducible exact fun _ => fits_upd _ _ _ _
    | with_reducible exact fun _ => fits_set _ _ _ _ | with_reducible exact fun _ => fits_map _ _ _
    | with_reducible exact fun _ => fits_replicate _ _ _ | dsimp only

theorem kept_rateTileFail (hP : Closed F P) (hports : F .ports) (s : State) (d : Nat) (t : Nat) (h0 : P s) : P
    (rateTileFail s d t) := by
  unfold rateTileFail
  try dsimp only
  repeat' first
    | with_reducible assumption | with_reducible apply kept_bump hP | with_reducible apply kept_doubt hP
    | with_reducible apply kept_raise hP | with_reducible apply kept_showUsed hP
    | with_reducible apply kept_tileFail hP hports | with_reducible apply kept_updPd hP hports
    | with_reducible exact fits_PortDie (fits_same _ _) | with_reducible exact fits_PortDie (fits_upd _ _ _ _)
    | with_reducible exact fits_PortDie (fits_set _ _ _ _) | with_reducible exact fits_PortDie (fits_map _ _ _)
    | with_reducible exact fits_PortDie (fits_replicate _ _ _) | with_reducible exact fits_same _ _
    | with_reducible exact fits_upd _ _ _ _ | with_reducible exact fits_set _ _ _ _
    | with_reducible exact fits_map _ _ _ | with_reducible exact fits_replicate _ _ _
    | with_reducible exact fun _ => fits_PortDie (fits_same _ _)
    | with_reducible exact fun _ => fits_PortDie (fits_upd _ _ _ _)
    | with_reducible exact fun _ => fits_PortDie (fits_set _ _ _ _)
    | with_reducible exact fun _ => fits_PortDie (fits_map _ _ _)
    | with_reducible exact fun _ => fits_PortDie (fits_replicate _ _ _)
    | with_reducible exact fun _ => fits_same _ _ | with_reducible exact fun _ => fits_upd _ _ _ _
    | with_reducible exact fun _ => fits_set _ _ _ _ | with_reducible exact fun _ => fits_map _ _ _
    | with_reducible exact fun _ => fits_replicate _ _ _ | dsimp only

theorem kept_readSet (hP : Closed F P) (hports : F .ports) (s : State) (d : Nat) (set : Nat) (hit : Option Nat) (ok
    : Bool) (h0 : P s) : P (readSet s d set hit ok) := by
  unfold readSet
  try dsimp only
  repeat' first
    | with_reducible assumption | intro _ | with_reducible apply kept_rateTileFail hP hports
    | with_reducible apply kept_ite | with_reducible apply kept_foldl | with_reducible apply kept_foldl_fst
    | dsimp only

theorem kept_rateLookup (hP : Closed F P) (hports : F .ports) (s : State) (d : Nat) (v6 : Bool) (src : Nat) (nts :
    Bool) (ok : Bool) (h0 : P s) : P (rateLookup s d v6 src nts ok).1 := by
  unfold rateLookup
  try dsimp only
  repeat' first
    | with_reducible assumption | with_reducible apply kept_bump hP | with_reducible apply kept_putEnt hP hports
    | with_reducible apply kept_readSet hP hports | with_reducible apply kept_ite
    | with_reducible apply kept_fst_ite | split | dsimp only

theorem kept_pfxFields (hP : Closed F P) (s : State) (d : Nat) (idx : Nat) (rw : Bool) (h0 : P s) : P (pfxFields s d
    idx rw) := by
  unfold pfxFields
  try dsimp only
  repeat' first
    | with_reducible assumption | with_reducible apply kept_put hP | with_reducible apply kept_putB hP | dsimp only

theorem kept_execPfxRead (hP : Closed F P) (r : Requester) (d : Fin 4) (idx : Fin 8) (s : State) (h0 : P s) : After
    P (execPfxRead r d idx s) := by
  unfold execPfxRead
  try dsimp only
  repeat' first
    | with_reducible assumption | intro _ | with_reducible apply kept_onWrite hP
    | with_reducible apply kept_pfxFields hP | with_reducible apply kept_wrN hP | with_reducible apply kept_foldl
    | with_reducible apply kept_foldl_fst | with_reducible apply after_next | dsimp only

theorem kept_execPfxWrite (hP : Closed F P) (hports : F .ports) (r : Requester) (d : Fin 4) (idx : Fin 8) (s :
    State) (h0 : P s) : After P (execPfxWrite r d idx s) := by
  unfold execPfxWrite
  try dsimp only
  repeat' first
    | with_reducible assumption | intro _ | with_reducible apply kept_onWrite hP
    | with_reducible apply kept_pfxFields hP | with_reducible apply kept_updPd hP hports
    | with_reducible apply after_next | with_reducible exact fits_PortDie (fits_same _ _)
    | with_reducible exact fits_PortDie (fits_upd _ _ _ _) | with_reducible exact fits_PortDie (fits_set _ _ _ _)
    | with_reducible exact fits_PortDie (fits_map _ _ _) | with_reducible exact fits_PortDie (fits_replicate _ _ _)
    | with_reducible exact fits_same _ _ | with_reducible exact fits_upd _ _ _ _
    | with_reducible exact fits_set _ _ _ _ | with_reducible exact fits_map _ _ _
    | with_reducible exact fits_replicate _ _ _ | with_reducible exact fun _ => fits_PortDie (fits_same _ _)
    | with_reducible exact fun _ => fits_PortDie (fits_upd _ _ _ _)
    | with_reducible exact fun _ => fits_PortDie (fits_set _ _ _ _)
    | with_reducible exact fun _ => fits_PortDie (fits_map _ _ _)
    | with_reducible exact fun _ => fits_PortDie (fits_replicate _ _ _)
    | with_reducible exact fun _ => fits_same _ _ | with_reducible exact fun _ => fits_upd _ _ _ _
    | with_reducible exact fun _ => fits_set _ _ _ _ | with_reducible exact fun _ => fits_map _ _ _
    | with_reducible exact fun _ => fits_replicate _ _ _ | dsimp only

theorem kept_showSessions (hP : Closed F P) (s : State) (d : Nat) (h0 : P s) : P (showSessions s d) := by
  unfold showSessions
  try dsimp only
  repeat' first
    | with_reducible assumption | with_reducible apply kept_put hP | dsimp only

theorem kept_putSes (hP : Closed F P) (hports : F .ports) (s : State) (d : Nat) (k : Nat) (e : Session) (h0 : P s) :
    P (putSes s d k e) := by
  unfold putSes
  try dsimp only
  repeat' first
    | with_reducible assumption | with_reducible apply kept_showSessions hP
    | with_reducible apply kept_updPd hP hports | with_reducible apply kept_writeTiles hP hports
    | with_reducible apply kept_ite | with_reducible apply kept_fst_ite
    | with_reducible exact fits_PortDie (fits_same _ _) | with_reducible exact fits_PortDie (fits_upd _ _ _ _)
    | with_reducible exact fits_PortDie (fits_set _ _ _ _) | with_reducible exact fits_PortDie (fits_map _ _ _)
    | with_reducible exact fits_PortDie (fits_replicate _ _ _) | with_reducible exact fits_same _ _
    | with_reducible exact fits_upd _ _ _ _ | with_reducible exact fits_set _ _ _ _
    | with_reducible exact fits_map _ _ _ | with_reducible exact fits_replicate _ _ _
    | with_reducible exact fun _ => fits_PortDie (fits_same _ _)
    | with_reducible exact fun _ => fits_PortDie (fits_upd _ _ _ _)
    | with_reducible exact fun _ => fits_PortDie (fits_set _ _ _ _)
    | with_reducible exact fun _ => fits_PortDie (fits_map _ _ _)
    | with_reducible exact fun _ => fits_PortDie (fits_replicate _ _ _)
    | with_reducible exact fun _ => fits_same _ _ | with_reducible exact fun _ => fits_upd _ _ _ _
    | with_reducible exact fun _ => fits_set _ _ _ _ | with_reducible exact fun _ => fits_map _ _ _
    | with_reducible exact fun _ => fits_replicate _ _ _ | dsimp only

theorem kept_freeSes (hP : Closed F P) (hports : F .ports) (s : State) (d : Nat) (k : Nat) (h0 : P s) : P (freeSes s
    d k) := by
  unfold freeSes
  try dsimp only
  repeat' first
    | with_reducible assumption | with_reducible apply kept_newSesKey hP hports
    | with_reducible apply kept_showSessions hP | with_reducible apply kept_updPd hP hports
    | with_reducible apply kept_ite | with_reducible exact fits_PortDie (fits_same _ _)
    | with_reducible exact fits_PortDie (fits_upd _ _ _ _) | with_reducible exact fits_PortDie (fits_set _ _ _ _)
    | with_reducible exact fits_PortDie (fits_map _ _ _) | with_reducible exact fits_PortDie (fits_replicate _ _ _)
    | with_reducible exact fits_same _ _ | with_reducible exact fits_upd _ _ _ _
    | with_reducible exact fits_set _ _ _ _ | with_reducible exact fits_map _ _ _
    | with_reducible exact fits_replicate _ _ _ | with_reducible exact fun _ => fits_PortDie (fits_same _ _)
    | with_reducible exact fun _ => fits_PortDie (fits_upd _ _ _ _)
    | with_reducible exact fun _ => fits_PortDie (fits_set _ _ _ _)
    | with_reducible exact fun _ => fits_PortDie (fits_map _ _ _)
    | with_reducible exact fun _ => fits_PortDie (fits_replicate _ _ _)
    | with_reducible exact fun _ => fits_same _ _ | with_reducible exact fun _ => fits_upd _ _ _ _
    | with_reducible exact fun _ => fits_set _ _ _ _ | with_reducible exact fun _ => fits_map _ _ _
    | with_reducible exact fun _ => fits_replicate _ _ _ | dsimp only

theorem kept_sesTileFail (hP : Closed F P) (hports : F .ports) (s : State) (d : Nat) (k : Nat) (h0 : P s) : P
    (sesTileFail s d k) := by
  unfold sesTileFail
  try dsimp only
  repeat' first
    | with_reducible assumption | with_reducible apply kept_bump hP | with_reducible apply kept_doubt hP
    | with_reducible apply kept_freeSes hP hports | with_reducible apply kept_raise hP
    | with_reducible apply kept_tileFail hP hports | with_reducible apply kept_updPd hP hports
    | with_reducible exact fits_PortDie (fits_same _ _) | with_reducible exact fits_PortDie (fits_upd _ _ _ _)
    | with_reducible exact fits_PortDie (fits_set _ _ _ _) | with_reducible exact fits_PortDie (fits_map _ _ _)
    | with_reducible exact fits_PortDie (fits_replicate _ _ _) | with_reducible exact fits_same _ _
    | with_reducible exact fits_upd _ _ _ _ | with_reducible exact fits_set _ _ _ _
    | with_reducible exact fits_map _ _ _ | with_reducible exact fits_replicate _ _ _
    | with_reducible exact fun _ => fits_PortDie (fits_same _ _)
    | with_reducible exact fun _ => fits_PortDie (fits_upd _ _ _ _)
    | with_reducible exact fun _ => fits_PortDie (fits_set _ _ _ _)
    | with_reducible exact fun _ => fits_PortDie (fits_map _ _ _)
    | with_reducible exact fun _ => fits_PortDie (fits_replicate _ _ _)
    | with_reducible exact fun _ => fits_same _ _ | with_reducible exact fun _ => fits_upd _ _ _ _
    | with_reducible exact fun _ => fits_set _ _ _ _ | with_reducible exact fun _ => fits_map _ _ _
    | with_reducible exact fun _ => fits_replicate _ _ _ | dsimp only

theorem kept_useSes (hP : Closed F P) (hports : F .ports) (s : State) (d : Nat) (k : Nat) (h0 : P s) : P (useSes s d
    k).1 := by
  unfold useSes
  try dsimp only
  repeat' first
    | with_reducible assumption | with_reducible apply kept_sesTileFail hP hports | with_reducible apply kept_ite
    | with_reducible apply kept_fst_ite | dsimp only

theorem kept_sesEmpty (hP : Closed F P) (hports : F .ports) (s : State) (d : Nat) (h0 : P s) : P (sesEmpty s d) :=
    by
  unfold sesEmpty
  try dsimp only
  repeat' first
    | with_reducible assumption | with_reducible apply kept_newSesKey hP hports
    | with_reducible apply kept_showSessions hP | with_reducible apply kept_updPd hP hports
    | with_reducible exact fits_PortDie (fits_same _ _) | with_reducible exact fits_PortDie (fits_upd _ _ _ _)
    | with_reducible exact fits_PortDie (fits_set _ _ _ _) | with_reducible exact fits_PortDie (fits_map _ _ _)
    | with_reducible exact fits_PortDie (fits_replicate _ _ _) | with_reducible exact fits_same _ _
    | with_reducible exact fits_upd _ _ _ _ | with_reducible exact fits_set _ _ _ _
    | with_reducible exact fits_map _ _ _ | with_reducible exact fits_replicate _ _ _
    | with_reducible exact fun _ => fits_PortDie (fits_same _ _)
    | with_reducible exact fun _ => fits_PortDie (fits_upd _ _ _ _)
    | with_reducible exact fun _ => fits_PortDie (fits_set _ _ _ _)
    | with_reducible exact fun _ => fits_PortDie (fits_map _ _ _)
    | with_reducible exact fun _ => fits_PortDie (fits_replicate _ _ _)
    | with_reducible exact fun _ => fits_same _ _ | with_reducible exact fun _ => fits_upd _ _ _ _
    | with_reducible exact fun _ => fits_set _ _ _ _ | with_reducible exact fun _ => fits_map _ _ _
    | with_reducible exact fun _ => fits_replicate _ _ _ | dsimp only

theorem kept_sesFields (hP : Closed F P) (s : State) (d : Nat) (idx : Nat) (rw : Bool) (h0 : P s) : P (sesFields s d
    idx rw) := by
  unfold sesFields
  try dsimp only
  repeat' first
    | with_reducible assumption | with_reducible apply kept_put hP | with_reducible apply kept_putB hP | dsimp only

theorem kept_execSesRead (hP : Closed F P) (r : Requester) (d : Fin 4) (idx : Fin 4096) (s : State) (h0 : P s) :
    After P (execSesRead r d idx s) := by
  unfold execSesRead
  try dsimp only
  repeat' first
    | with_reducible assumption | intro _ | with_reducible apply kept_onWrite hP
    | with_reducible apply kept_sesFields hP | with_reducible apply kept_wrN hP | with_reducible apply kept_foldl
    | with_reducible apply kept_foldl_fst | with_reducible apply after_next | split | dsimp only

theorem kept_execSesWrite (hP : Closed F P) (hports : F .ports) (r : Requester) (d : Fin 4) (idx : Fin 4096) (s :
    State) (h0 : P s) : After P (execSesWrite r d idx s) := by
  unfold execSesWrite
  try dsimp only
  repeat' first
    | with_reducible assumption | intro _ | with_reducible apply kept_freeSes hP hports
    | with_reducible apply kept_onWrite hP | with_reducible apply kept_putSes hP hports
    | with_reducible apply kept_sesFields hP | with_reducible apply after_next | split | dsimp only

theorem kept_scrubRate (hP : Closed F P) (hports : F .ports) (s : State) (d : Nat) (ok : Bool) (h0 : P s) : P
    (scrubRate s d ok) := by
  unfold scrubRate
  try dsimp only
  repeat' first
    | with_reducible assumption | with_reducible apply kept_bump hP | with_reducible apply kept_raise hP
    | with_reducible apply kept_rateTileFail hP hports | with_reducible apply kept_updPd hP hports
    | with_reducible apply kept_ite | with_reducible exact fits_PortDie (fits_same _ _)
    | with_reducible exact fits_PortDie (fits_upd _ _ _ _) | with_reducible exact fits_PortDie (fits_set _ _ _ _)
    | with_reducible exact fits_PortDie (fits_map _ _ _) | with_reducible exact fits_PortDie (fits_replicate _ _ _)
    | with_reducible exact fits_same _ _ | with_reducible exact fits_upd _ _ _ _
    | with_reducible exact fits_set _ _ _ _ | with_reducible exact fits_map _ _ _
    | with_reducible exact fits_replicate _ _ _ | with_reducible exact fun _ => fits_PortDie (fits_same _ _)
    | with_reducible exact fun _ => fits_PortDie (fits_upd _ _ _ _)
    | with_reducible exact fun _ => fits_PortDie (fits_set _ _ _ _)
    | with_reducible exact fun _ => fits_PortDie (fits_map _ _ _)
    | with_reducible exact fun _ => fits_PortDie (fits_replicate _ _ _)
    | with_reducible exact fun _ => fits_same _ _ | with_reducible exact fun _ => fits_upd _ _ _ _
    | with_reducible exact fun _ => fits_set _ _ _ _ | with_reducible exact fun _ => fits_map _ _ _
    | with_reducible exact fun _ => fits_replicate _ _ _ | dsimp only

theorem kept_scrubSes (hP : Closed F P) (hports : F .ports) (s : State) (d : Nat) (ok : Bool) (h0 : P s) : P
    (scrubSes s d ok) := by
  unfold scrubSes
  try dsimp only
  repeat' first
    | with_reducible assumption | with_reducible apply kept_sesTileFail hP hports
    | with_reducible apply kept_updPd hP hports | with_reducible apply kept_ite
    | with_reducible exact fits_PortDie (fits_same _ _) | with_reducible exact fits_PortDie (fits_upd _ _ _ _)
    | with_reducible exact fits_PortDie (fits_set _ _ _ _) | with_reducible exact fits_PortDie (fits_map _ _ _)
    | with_reducible exact fits_PortDie (fits_replicate _ _ _) | with_reducible exact fits_same _ _
    | with_reducible exact fits_upd _ _ _ _ | with_reducible exact fits_set _ _ _ _
    | with_reducible exact fits_map _ _ _ | with_reducible exact fits_replicate _ _ _
    | with_reducible exact fun _ => fits_PortDie (fits_same _ _)
    | with_reducible exact fun _ => fits_PortDie (fits_upd _ _ _ _)
    | with_reducible exact fun _ => fits_PortDie (fits_set _ _ _ _)
    | with_reducible exact fun _ => fits_PortDie (fits_map _ _ _)
    | with_reducible exact fun _ => fits_PortDie (fits_replicate _ _ _)
    | with_reducible exact fun _ => fits_same _ _ | with_reducible exact fun _ => fits_upd _ _ _ _
    | with_reducible exact fun _ => fits_set _ _ _ _ | with_reducible exact fun _ => fits_map _ _ _
    | with_reducible exact fun _ => fits_replicate _ _ _ | dsimp only

theorem kept_execScrub (hP : Closed F P) (hports : F .ports) (d : Fin 4) (ses : Bool) (ok : Bool) (s : State) (h0 :
    P s) : After P (execScrub d ses ok s) := by
  unfold execScrub
  try dsimp only
  repeat' first
    | with_reducible assumption | with_reducible apply kept_scrubRate hP hports
    | with_reducible apply kept_scrubSes hP hports | with_reducible apply kept_ite | with_reducible apply after_next
    | with_reducible apply after_ite | dsimp only

theorem kept_execTblTileEnd (hP : Closed F P) (hclk : F .clk) (d : Fin 4) (ses : Bool) (s : State) (h0 : P s) :
    After P (execTblTileEnd d ses s) := by
  unfold execTblTileEnd
  try dsimp only
  repeat' first
    | with_reducible assumption | with_reducible apply kept_advMono hP hclk | with_reducible apply kept_doubt hP
    | with_reducible apply kept_ite | with_reducible apply after_next | with_reducible apply after_ite | dsimp only

theorem kept_tblEnabled (hP : Closed F P) (hports : F .ports) (s : State) (d : Nat) (h0 : P s) : P (tblEnabled s d)
    := by
  unfold tblEnabled
  try dsimp only
  repeat' first
    | with_reducible assumption | with_reducible apply kept_rateFlush hP hports
    | with_reducible apply kept_sesEmpty hP hports | with_reducible apply kept_updPd hP hports
    | with_reducible exact fits_PortDie (fits_same _ _) | with_reducible exact fits_PortDie (fits_upd _ _ _ _)
    | with_reducible exact fits_PortDie (fits_set _ _ _ _) | with_reducible exact fits_PortDie (fits_map _ _ _)
    | with_reducible exact fits_PortDie (fits_replicate _ _ _) | with_reducible exact fits_same _ _
    | with_reducible exact fits_upd _ _ _ _ | with_reducible exact fits_set _ _ _ _
    | with_reducible exact fits_map _ _ _ | with_reducible exact fits_replicate _ _ _
    | with_reducible exact fun _ => fits_PortDie (fits_same _ _)
    | with_reducible exact fun _ => fits_PortDie (fits_upd _ _ _ _)
    | with_reducible exact fun _ => fits_PortDie (fits_set _ _ _ _)
    | with_reducible exact fun _ => fits_PortDie (fits_map _ _ _)
    | with_reducible exact fun _ => fits_PortDie (fits_replicate _ _ _)
    | with_reducible exact fun _ => fits_same _ _ | with_reducible exact fun _ => fits_upd _ _ _ _
    | with_reducible exact fun _ => fits_set _ _ _ _ | with_reducible exact fun _ => fits_map _ _ _
    | with_reducible exact fun _ => fits_replicate _ _ _ | dsimp only

end Sys2Proof.Machine
end

