-- ==== Sys2Proof/Laws/KeptPtp.lean ====
section
/-! SUPPORT. A property that survives the changes of Closed survives every function of: PTP, received frames, answers, domains and test pages. -/

set_option linter.unusedTactic false
set_option linter.unreachableTactic false
set_option linter.unusedVariables false

namespace Sys2Proof.Machine

variable {F : Part → Prop} {P : State → Prop}

/-! ### Ptp -/

theorem kept_saFields (hP : Closed F P) (s : State) (d : Nat) (idx : Nat) (rw : Bool) (h0 : P s) : P (saFields s d
    idx rw) := by
  unfold saFields
  try dsimp only
  repeat' first
    | with_reducible assumption | with_reducible apply kept_put hP | with_reducible apply kept_putB hP | dsimp only

theorem kept_execSaRead (hP : Closed F P) (r : Requester) (d : Fin 4) (idx : Fin 16) (s : State) (h0 : P s) : After
    P (execSaRead r d idx s) := by
  unfold execSaRead
  try dsimp only
  repeat' first
    | with_reducible assumption | intro _ | with_reducible apply kept_onWrite hP
    | with_reducible apply kept_saFields hP | with_reducible apply kept_wrN hP | with_reducible apply after_next
    | dsimp only

theorem kept_execSaWrite (hP : Closed F P) (hports : F .ports) (r : Requester) (d : Fin 4) (idx : Fin 16) (s :
    State) (h0 : P s) : After P (execSaWrite r d idx s) := by
  unfold execSaWrite
  try dsimp only
  repeat' first
    | with_reducible assumption | intro _ | with_reducible apply kept_onWrite hP
    | with_reducible apply kept_saFields hP | with_reducible apply kept_updPd hP hports
    | with_reducible apply after_next | with_reducible exact fits_PortDie (fits_same _ _)
    | with_reducible exact fits_PortDie (fits_upd _ _ _ _) | with_reducible exact fits_PortDie (fits_set _ _ _ _)
    | with_reducible exact fits_PortDie (fits_map _ _ _) | with_reducible exact fits_PortDie (fits_replicate _ _ _)
    | with_reducible exact fits_same _ _ | with_reducible exact fits_upd _ _ _ _
    | with_reducible exact fits_set _ _ _ _ | with_reducible exact fits_map _ _ _
    | with_reducible exact fits_replicate _ _ _ | with_reducible exact fun _ => fits_PortDie (fits_same _ _)
    | with_reducible exact fun _ => fits_PortDie (fits_upd _ _ _ _)
    | with_reducible exact fun _ => fits_PortDie (fits_set _ _ _ _)
    | with_reducible exact fun _ => fits_PortDie (fits_map _ _ _)
    | with_reducible exact fun _ => fits_PortDie (fits_replicate _ _ _)
    | with_reducible exact fun _ => fits_same _ _ | with_reducible exact fun _ => fits_upd _ _ _ _
    | with_reducible exact fun _ => fits_set _ _ _ _ | with_reducible exact fun _ => fits_map _ _ _
    | with_reducible exact fun _ => fits_replicate _ _ _ | dsimp only

theorem kept_updRef (hP : Closed F P) (hports : F .ports) (s : State) (d : Nat) (r : Nat) (f : RefPort → RefPort)
    (h0 : P s) : P (updRef s d r f) := by
  unfold updRef
  try dsimp only
  repeat' first
    | with_reducible assumption | with_reducible apply kept_updPd hP hports
    | with_reducible exact fits_PortDie (fits_same _ _) | with_reducible exact fits_PortDie (fits_upd _ _ _ _)
    | with_reducible exact fits_PortDie (fits_set _ _ _ _) | with_reducible exact fits_PortDie (fits_map _ _ _)
    | with_reducible exact fits_PortDie (fits_replicate _ _ _) | with_reducible exact fits_same _ _
    | with_reducible exact fits_upd _ _ _ _ | with_reducible exact fits_set _ _ _ _
    | with_reducible exact fits_map _ _ _ | with_reducible exact fits_replicate _ _ _
    | with_reducible exact fun _ => fits_PortDie (fits_same _ _)
    | with_reducible exact fun _ => fits_PortDie (fits_upd _ _ _ _)
    | with_reducible exact fun _ => fits_PortDie (fits_set _ _ _ _)
    | with_reducible exact fun _ => fits_PortDie (fits_map _ _ _)
    | with_reducible exact fun _ => fits_PortDie (fits_replicate _ _ _)
    | with_reducible exact fun _ => fits_same _ _ | with_reducible exact fun _ => fits_upd _ _ _ _
    | with_reducible exact fun _ => fits_set _ _ _ _ | with_reducible exact fun _ => fits_map _ _ _
    | with_reducible exact fun _ => fits_replicate _ _ _ | dsimp only

theorem kept_sendSignal (hP : Closed F P) (hports : F .ports) (hrings : F .rings) (s : State) (d : Nat) (n : Nat)
    (dest : PtpTo) (seq : Nat) (target : Nat) (tlvs : List Byte) (h0 : P s) : P (sendSignal s d n dest seq target tlvs)
    := by
  unfold sendSignal
  try dsimp only
  repeat' first
    | with_reducible assumption | with_reducible apply kept_untimed hP hports hrings | dsimp only

theorem kept_keepSes (hP : Closed F P) (hports : F .ports) (s : State) (d : Nat) (k : Nat) (e : Session) (h0 : P s)
    : P (keepSes s d k e) := by
  unfold keepSes
  try dsimp only
  repeat' first
    | with_reducible assumption | with_reducible apply kept_freeSes hP hports
    | with_reducible apply kept_putSes hP hports | with_reducible apply kept_ite | dsimp only

theorem kept_instStop (hP : Closed F P) (hports : F .ports) (hrings : F .rings) (s : State) (d : Nat) (n : Nat) (h0
    : P s) : P (instStop s d n) := by
  unfold instStop
  try dsimp only
  repeat' first
    | with_reducible assumption | intro _ | with_reducible apply kept_freeSes hP hports
    | with_reducible apply kept_sendSignal hP hports hrings | with_reducible apply kept_ite
    | with_reducible apply kept_foldl | with_reducible apply kept_foldl_fst | dsimp only

theorem kept_execSessionExpire (hP : Closed F P) (hclk : F .clk) (hports : F .ports) (d : Fin 4) (k : Fin 4096) (s :
    State) (h0 : P s) : After P (execSessionExpire d k s) := by
  unfold execSessionExpire
  try dsimp only
  repeat' first
    | with_reducible assumption | intro _ | with_reducible apply kept_advMono hP hclk
    | with_reducible apply kept_bumpBy hP | with_reducible apply kept_keepSes hP hports
    | with_reducible apply kept_foldl | with_reducible apply kept_foldl_fst | with_reducible apply after_next
    | split | dsimp only

theorem kept_foreignDoubt (hP : Closed F P) (s : State) (d : Nat) (h0 : P s) : P (foreignDoubt s d) := by
  unfold foreignDoubt
  try dsimp only
  repeat' first
    | with_reducible assumption | with_reducible apply kept_doubt hP | dsimp only

theorem kept_instFields (hP : Closed F P) (s : State) (d : Nat) (idx : Nat) (rw : Bool) (h0 : P s) : P (instFields s
    d idx rw) := by
  unfold instFields
  try dsimp only
  repeat' first
    | with_reducible assumption | with_reducible apply kept_put hP | with_reducible apply kept_putB hP | dsimp only

theorem kept_execInstRead (hP : Closed F P) (r : Requester) (d : Fin 4) (n : Fin 32) (s : State) (h0 : P s) : After
    P (execInstRead r d n s) := by
  unfold execInstRead
  try dsimp only
  repeat' first
    | with_reducible assumption | intro _ | with_reducible apply kept_instFields hP
    | with_reducible apply kept_onWrite hP | with_reducible apply kept_wrN hP | with_reducible apply kept_foldl
    | with_reducible apply kept_foldl_fst | with_reducible apply after_next | dsimp only

theorem kept_storeInst (hP : Closed F P) (hports : F .ports) (hrings : F .rings) (s : State) (d : Nat) (n : Nat) (e
    : InstEntry) (h0 : P s) : P (storeInst s d n e) := by
  unfold storeInst
  try dsimp only
  repeat' first
    | with_reducible assumption | with_reducible apply kept_foreignDoubt hP
    | with_reducible apply kept_instStop hP hports hrings | with_reducible apply kept_showAscap hP
    | with_reducible apply kept_showForms hP | with_reducible apply kept_updPd hP hports
    | with_reducible apply kept_ite | with_reducible exact fits_PortDie (fits_same _ _)
    | with_reducible exact fits_PortDie (fits_upd _ _ _ _) | with_reducible exact fits_PortDie (fits_set _ _ _ _)
    | with_reducible exact fits_PortDie (fits_map _ _ _) | with_reducible exact fits_PortDie (fits_replicate _ _ _)
    | with_reducible exact fits_same _ _ | with_reducible exact fits_upd _ _ _ _
    | with_reducible exact fits_set _ _ _ _ | with_reducible exact fits_map _ _ _
    | with_reducible exact fits_replicate _ _ _ | with_reducible exact fun _ => fits_PortDie (fits_same _ _)
    | with_reducible exact fun _ => fits_PortDie (fits_upd _ _ _ _)
    | with_reducible exact fun _ => fits_PortDie (fits_set _ _ _ _)
    | with_reducible exact fun _ => fits_PortDie (fits_map _ _ _)
    | with_reducible exact fun _ => fits_PortDie (fits_replicate _ _ _)
    | with_reducible exact fun _ => fits_same _ _ | with_reducible exact fun _ => fits_upd _ _ _ _
    | with_reducible exact fun _ => fits_set _ _ _ _ | with_reducible exact fun _ => fits_map _ _ _
    | with_reducible exact fun _ => fits_replicate _ _ _ | dsimp only

theorem kept_execInstWrite (hP : Closed F P) (hports : F .ports) (hrings : F .rings) (r : Requester) (d : Fin 4) (n
    : Fin 32) (s : State) (h0 : P s) : After P (execInstWrite r d n s) := by
  unfold execInstWrite
  try dsimp only
  repeat' first
    | with_reducible assumption | intro _ | with_reducible apply kept_instFields hP
    | with_reducible apply kept_onWrite hP | with_reducible apply kept_put hP
    | with_reducible apply kept_storeInst hP hports hrings | with_reducible apply kept_ite
    | with_reducible apply after_next | with_reducible apply after_ite | dsimp only

theorem kept_servedSes (hP : Closed F P) (hports : F .ports) (s : State) (d : Nat) (n : Nat) (k : Nat) (h0 : P s) :
    P (servedSes s d n k).1 := by
  unfold servedSes
  try dsimp only
  repeat' first
    | with_reducible assumption | with_reducible apply kept_useSes hP hports | with_reducible apply kept_ite
    | with_reducible apply kept_fst_ite | dsimp only

theorem kept_bookPtp (hP : Closed F P) (hmck : F .mck) (hports : F .ports) (hrings : F .rings) (s : State) (d : Nat)
    (i : Nat) (grid : Nat) (e : Nat) (m : PtpMsg) (h0 : P s) : P (bookPtp s d i grid e m).1 := by
  unfold bookPtp
  try dsimp only
  repeat' first
    | with_reducible assumption | with_reducible apply kept_book hP hmck hports hrings
    | with_reducible apply kept_bump hP | with_reducible apply kept_fillBook hP hports | split | dsimp only

theorem kept_syncDue (hP : Closed F P) (hclk : F .clk) (hmck : F .mck) (hports : F .ports) (hrings : F .rings) (s :
    State) (d : Nat) (n : Nat) (grid : Nat) (h0 : P s) : P (syncDue s d n grid) := by
  unfold syncDue
  try dsimp only
  repeat' first
    | with_reducible assumption | with_reducible apply kept_advT96 hP hclk
    | with_reducible apply kept_bookPtp hP hmck hports hrings | with_reducible apply kept_updInst hP hports
    | with_reducible apply kept_ite | with_reducible apply kept_fst_ite | dsimp only

theorem kept_sesSyncDue (hP : Closed F P) (hclk : F .clk) (hmck : F .mck) (hports : F .ports) (hrings : F .rings) (s
    : State) (d : Nat) (n : Nat) (k : Nat) (grid : Nat) (e : Session) (h0 : P s) : P (sesSyncDue s d n k grid e) := by
  unfold sesSyncDue
  try dsimp only
  repeat' first
    | with_reducible assumption | with_reducible apply kept_advT96 hP hclk
    | with_reducible apply kept_bookPtp hP hmck hports hrings | with_reducible apply kept_putSes hP hports
    | with_reducible apply kept_ite | with_reducible apply kept_fst_ite | dsimp only

theorem kept_execPtpSyncDue (hP : Closed F P) (hclk : F .clk) (hmck : F .mck) (hports : F .ports) (hrings : F
    .rings) (d : Fin 4) (n : Fin 32) (ses : Option (Fin 4096)) (grid : Nat) (s : State) (h0 : P s) : After P
    (execPtpSyncDue d n ses grid s) := by
  unfold execPtpSyncDue
  try dsimp only
  repeat' first
    | with_reducible assumption | with_reducible apply kept_servedSes hP hports
    | with_reducible apply kept_sesSyncDue hP hclk hmck hports hrings
    | with_reducible apply kept_syncDue hP hclk hmck hports hrings | with_reducible apply kept_ite
    | with_reducible apply kept_fst_ite | with_reducible apply after_next | with_reducible apply after_ite | split
    | dsimp only

theorem kept_sendAnnounce (hP : Closed F P) (hports : F .ports) (hrings : F .rings) (s : State) (d : Nat) (n : Nat)
    (seq : Nat) (log : Int) (uni : Bool) (dest : PtpTo) (h0 : P s) : P (sendAnnounce s d n seq log uni dest) := by
  unfold sendAnnounce
  try dsimp only
  repeat' first
    | with_reducible assumption | with_reducible apply kept_untimed hP hports hrings | dsimp only

theorem kept_execPtpAnnounceDue (hP : Closed F P) (hclk : F .clk) (hports : F .ports) (hrings : F .rings) (d : Fin
    4) (n : Fin 32) (ses : Option (Fin 4096)) (s : State) (h0 : P s) : After P (execPtpAnnounceDue d n ses s) := by
  unfold execPtpAnnounceDue
  try dsimp only
  repeat' first
    | with_reducible assumption | with_reducible apply kept_advT96 hP hclk
    | with_reducible apply kept_putSes hP hports | with_reducible apply kept_sendAnnounce hP hports hrings
    | with_reducible apply kept_servedSes hP hports | with_reducible apply kept_updInst hP hports
    | with_reducible apply kept_ite | with_reducible apply kept_fst_ite | with_reducible apply after_next
    | with_reducible apply after_ite | split | dsimp only

theorem kept_judgeForeign (hP : Closed F P) (hports : F .ports) (s : State) (d : Nat) (n : Nat) (h0 : P s) : P
    (judgeForeign s d n) := by
  unfold judgeForeign
  try dsimp only
  repeat' first
    | with_reducible assumption | intro _ | with_reducible apply kept_bump hP
    | with_reducible apply kept_foreignDoubt hP | with_reducible apply kept_raise hP
    | with_reducible apply kept_raiseIf hP | with_reducible apply kept_showForms hP
    | with_reducible apply kept_updInst hP hports | with_reducible apply kept_ite | with_reducible apply kept_foldl
    | with_reducible apply kept_foldl_fst | dsimp only

theorem kept_execForeignTimeout (hP : Closed F P) (hclk : F .clk) (hports : F .ports) (d : Fin 4) (n : Fin 32) (s :
    State) (h0 : P s) : After P (execForeignTimeout d n s) := by
  unfold execForeignTimeout
  try dsimp only
  repeat' first
    | with_reducible assumption | with_reducible apply kept_advMono hP hclk
    | with_reducible apply kept_judgeForeign hP hports | with_reducible apply kept_updInst hP hports
    | with_reducible apply kept_ite | with_reducible apply after_next | with_reducible apply after_ite | dsimp only

theorem kept_execPdelayReqDue (hP : Closed F P) (hmck : F .mck) (hports : F .ports) (hrings : F .rings) (d : Fin 4)
    (i : Fin 8) (grid : Nat) (s : State) (h0 : P s) : After P (execPdelayReqDue d i grid s) := by
  unfold execPdelayReqDue
  try dsimp only
  repeat' first
    | with_reducible assumption | with_reducible apply kept_bookPtp hP hmck hports hrings
    | with_reducible apply kept_updPdelay hP hports | with_reducible apply kept_ite
    | with_reducible apply kept_fst_ite | with_reducible apply after_next | with_reducible apply after_ite | split
    | dsimp only

theorem kept_showPdly (hP : Closed F P) (s : State) (d : Nat) (i : Nat) (h0 : P s) : P (showPdly s d i) := by
  unfold showPdly
  try dsimp only
  repeat' first
    | with_reducible assumption | with_reducible apply kept_put hP | with_reducible apply kept_putB hP
    | with_reducible apply kept_showAscap hP | split | dsimp only

theorem kept_loadPdelay (hP : Closed F P) (hports : F .ports) (s : State) (d : Nat) (i : Nat) (delay : Int) (h0 : P
    s) : P (loadPdelay s d i delay) := by
  unfold loadPdelay
  try dsimp only
  repeat' first
    | with_reducible assumption | with_reducible apply kept_showPdly hP
    | with_reducible apply kept_updPdelay hP hports | split | dsimp only

theorem kept_execPdelayLost (hP : Closed F P) (hclk : F .clk) (hports : F .ports) (d : Fin 4) (i : Fin 8) (s :
    State) (h0 : P s) : After P (execPdelayLost d i s) := by
  unfold execPdelayLost
  try dsimp only
  repeat' first
    | with_reducible assumption | with_reducible apply kept_advMono hP hclk
    | with_reducible apply kept_dropPdelay hP hports | with_reducible apply kept_updPdelay hP hports
    | with_reducible apply kept_ite | with_reducible apply after_next | with_reducible apply after_ite | split
    | dsimp only

theorem kept_execPtpAuthEnd (hP : Closed F P) (hclk : F .clk) (d : Fin 4) (s : State) (h0 : P s) : After P
    (execPtpAuthEnd d s) := by
  unfold execPtpAuthEnd
  try dsimp only
  repeat' first
    | with_reducible assumption | with_reducible apply kept_advMono hP hclk | with_reducible apply kept_doubt hP
    | with_reducible apply kept_ite | with_reducible apply after_next | with_reducible apply after_ite | dsimp only

theorem kept_refState (hP : Closed F P) (s : State) (d : Nat) (r : Nat) (st : Nat) (h0 : P s) : P (refState s d r
    st) := by
  unfold refState
  try dsimp only
  repeat' first
    | with_reducible assumption | with_reducible apply kept_put hP | with_reducible apply kept_raise hP
    | with_reducible apply kept_ite | dsimp only

theorem kept_lossMark (hP : Closed F P) (hdsc : F .dsc) (s : State) (r : Nat) (h0 : P s) : P (lossMark s r) := by
  unfold lossMark
  try dsimp only
  repeat' first
    | with_reducible assumption | with_reducible apply kept_updSlot hP hdsc | dsimp only

theorem kept_showMaster (hP : Closed F P) (s : State) (d : Nat) (r : Nat) (f : Foreign) (h0 : P s) : P (showMaster s
    d r f) := by
  unfold showMaster
  try dsimp only
  repeat' first
    | with_reducible assumption | with_reducible apply kept_put hP | with_reducible apply kept_wrN hP | dsimp only

theorem kept_refFollow (hP : Closed F P) (hdsc : F .dsc) (hports : F .ports) (s : State) (d : Nat) (r : Nat) (h0 : P
    s) : P (refFollow s d r) := by
  unfold refFollow
  try dsimp only
  repeat' first
    | with_reducible assumption | with_reducible apply kept_lossMark hP hdsc | with_reducible apply kept_raise hP
    | with_reducible apply kept_refState hP | with_reducible apply kept_showMaster hP
    | with_reducible apply kept_updRef hP hports | with_reducible apply kept_ite | split | dsimp only

theorem kept_rxCfgWritten (hP : Closed F P) (hdsc : F .dsc) (hports : F .ports) (s : State) (d : Nat) (r : Nat) (h0
    : P s) : P (rxCfgWritten s d r) := by
  unfold rxCfgWritten
  try dsimp only
  repeat' first
    | with_reducible assumption | with_reducible apply kept_lossMark hP hdsc | with_reducible apply kept_put hP
    | with_reducible apply kept_refState hP | with_reducible apply kept_updRef hP hports
    | with_reducible apply kept_ite | dsimp only

theorem kept_execRxMasterLoss (hP : Closed F P) (hclk : F .clk) (hdsc : F .dsc) (hports : F .ports) (d : Fin 4) (r :
    Fin 2) (s : State) (h0 : P s) : After P (execRxMasterLoss d r s) := by
  unfold execRxMasterLoss
  try dsimp only
  repeat' first
    | with_reducible assumption | with_reducible apply kept_advMono hP hclk
    | with_reducible apply kept_refFollow hP hdsc hports | with_reducible apply kept_updRef hP hports
    | with_reducible apply after_next | split | dsimp only

theorem kept_execRxDelayReqDue (hP : Closed F P) (hmck : F .mck) (hports : F .ports) (hrings : F .rings) (d : Fin 4)
    (r : Fin 2) (grid : Nat) (s : State) (h0 : P s) : After P (execRxDelayReqDue d r grid s) := by
  unfold execRxDelayReqDue
  try dsimp only
  repeat' first
    | with_reducible assumption | with_reducible apply kept_bookPtp hP hmck hports hrings
    | with_reducible apply kept_updRef hP hports | with_reducible apply kept_ite | with_reducible apply kept_fst_ite
    | with_reducible apply after_next | with_reducible apply after_ite | split | dsimp only

theorem kept_execRxUniRenew (hP : Closed F P) (hclk : F .clk) (hports : F .ports) (hrings : F .rings) (d : Fin 4) (r
    : Fin 2) (k : Fin 3) (mac : Nat) (s : State) (h0 : P s) : After P (execRxUniRenew d r k mac s) := by
  unfold execRxUniRenew
  try dsimp only
  repeat' first
    | with_reducible assumption | with_reducible apply kept_advMono hP hclk
    | with_reducible apply kept_untimed hP hports hrings | with_reducible apply kept_updRef hP hports
    | with_reducible apply kept_ite | with_reducible apply after_next | with_reducible apply after_ite | split
    | dsimp only

theorem kept_showBridges (hP : Closed F P) (s : State) (d : Nat) (h0 : P s) : P (showBridges s d) := by
  unfold showBridges
  try dsimp only
  repeat' first
    | with_reducible assumption | intro _ | with_reducible apply kept_put hP | with_reducible apply kept_foldl
    | with_reducible apply kept_foldl_fst | dsimp only

theorem kept_execBrEnable (hP : Closed F P) (r : Requester) (d : Fin 4) (n : Fin 4) (v : Word) (s : State) (h0 : P
    s) : After P (execBrEnable r d n v s) := by
  unfold execBrEnable
  try dsimp only
  repeat' first
    | with_reducible assumption | intro _ | with_reducible apply kept_lockViol hP
    | with_reducible apply kept_onWrite hP | with_reducible apply kept_put hP | with_reducible apply kept_raiseIf hP
    | with_reducible apply kept_showBridges hP | with_reducible apply kept_wrN hP | with_reducible apply kept_ite
    | with_reducible apply after_next | with_reducible apply after_ite | dsimp only

/-! ### PtpRx -/

theorem kept_ptpBad (hP : Closed F P) (s : State) (d : Nat) (h0 : P s) : P (ptpBad s d) := by
  unfold ptpBad
  try dsimp only
  repeat' first
    | with_reducible assumption | with_reducible apply kept_bump hP | dsimp only

theorem kept_authDrop (hP : Closed F P) (hports : F .ports) (s : State) (d : Nat) (auth : Nat) (h0 : P s) : P
    (authDrop s d auth) := by
  unfold authDrop
  try dsimp only
  repeat' first
    | with_reducible assumption | with_reducible apply kept_doubt hP | with_reducible apply kept_updPd hP hports
    | with_reducible apply kept_ite | with_reducible exact fits_PortDie (fits_same _ _)
    | with_reducible exact fits_PortDie (fits_upd _ _ _ _) | with_reducible exact fits_PortDie (fits_set _ _ _ _)
    | with_reducible exact fits_PortDie (fits_map _ _ _) | with_reducible exact fits_PortDie (fits_replicate _ _ _)
    | with_reducible exact fits_same _ _ | with_reducible exact fits_upd _ _ _ _
    | with_reducible exact fits_set _ _ _ _ | with_reducible exact fits_map _ _ _
    | with_reducible exact fits_replicate _ _ _ | with_reducible exact fun _ => fits_PortDie (fits_same _ _)
    | with_reducible exact fun _ => fits_PortDie (fits_upd _ _ _ _)
    | with_reducible exact fun _ => fits_PortDie (fits_set _ _ _ _)
    | with_reducible exact fun _ => fits_PortDie (fits_map _ _ _)
    | with_reducible exact fun _ => fits_PortDie (fits_replicate _ _ _)
    | with_reducible exact fun _ => fits_same _ _ | with_reducible exact fun _ => fits_upd _ _ _ _
    | with_reducible exact fun _ => fits_set _ _ _ _ | with_reducible exact fun _ => fits_map _ _ _
    | with_reducible exact fun _ => fits_replicate _ _ _ | dsimp only

theorem kept_authFail (hP : Closed F P) (s : State) (d : Nat) (h0 : P s) : P (authFail s d) := by
  unfold authFail
  try dsimp only
  repeat' first
    | with_reducible assumption | with_reducible apply kept_bump hP | with_reducible apply kept_raise hP
    | dsimp only

theorem kept_authJudge (hP : Closed F P) (hports : F .ports) (s : State) (d : Nat) (auth : Nat) (m : List Byte) (h0
    : P s) : P (authJudge s d auth m).1 := by
  unfold authJudge
  try dsimp only
  repeat' first
    | with_reducible assumption | with_reducible apply kept_authDrop hP hports
    | with_reducible apply kept_authFail hP | with_reducible apply kept_bump hP | with_reducible apply kept_ite
    | with_reducible apply kept_fst_ite | dsimp only

theorem kept_partnerSes (hP : Closed F P) (hports : F .ports) (s : State) (d : Nat) (n : Nat) (x : PtpIn) (h0 : P s)
    : P (partnerSes s d n x).1 := by
  unfold partnerSes
  try dsimp only
  repeat' first
    | with_reducible assumption | with_reducible apply kept_useSes hP hports | with_reducible apply kept_ite
    | with_reducible apply kept_fst_ite | split | dsimp only

theorem kept_answerDelayReq (hP : Closed F P) (hports : F .ports) (hrings : F .rings) (s : State) (d : Nat) (i :
    Nat) (n : Nat) (x : PtpIn) (h0 : P s) : P (answerDelayReq s d i n x) := by
  unfold answerDelayReq
  try dsimp only
  repeat' first
    | with_reducible assumption | with_reducible apply kept_bump hP | with_reducible apply kept_partnerSes hP hports
    | with_reducible apply kept_putSes hP hports | with_reducible apply kept_untimed hP hports hrings
    | with_reducible apply kept_ite | with_reducible apply kept_fst_ite | split | dsimp only

theorem kept_answerPdelay (hP : Closed F P) (hports : F .ports) (s : State) (d : Nat) (i : Nat) (as : Bool) (two :
    Bool) (domain : Nat) (dest : PtpTo) (sa : Option Nat) (x : PtpIn) (h0 : P s) : P (answerPdelay s d i as two domain
    dest sa x) := by
  unfold answerPdelay
  try dsimp only
  repeat' first
    | with_reducible assumption | with_reducible apply kept_addAsk hP hports | with_reducible apply kept_ite
    | dsimp only

theorem kept_instPdelay (hP : Closed F P) (hports : F .ports) (s : State) (d : Nat) (i : Nat) (n : Nat) (x : PtpIn)
    (h0 : P s) : P (instPdelay s d i n x) := by
  unfold instPdelay
  try dsimp only
  repeat' first
    | with_reducible assumption | with_reducible apply kept_answerPdelay hP hports | with_reducible apply kept_ite
    | dsimp only

theorem kept_updReq (hP : Closed F P) (hports : F .ports) (s : State) (d : Nat) (i : Nat) (seq : Nat) (f : PdelayReq
    → PdelayReq) (h0 : P s) : P (updReq s d i seq f) := by
  unfold updReq
  try dsimp only
  repeat' first
    | with_reducible assumption | with_reducible apply kept_updPdelay hP hports | with_reducible apply kept_ite
    | dsimp only

theorem kept_takePdelayResp (hP : Closed F P) (hports : F .ports) (s : State) (d : Nat) (i : Nat) (x : PtpIn) (h0 :
    P s) : P (takePdelayResp s d i x) := by
  unfold takePdelayResp
  try dsimp only
  repeat' first
    | with_reducible assumption | with_reducible apply kept_loadPdelay hP hports
    | with_reducible apply kept_updReq hP hports | with_reducible apply kept_ite | split | dsimp only

theorem kept_takePdelayFollow (hP : Closed F P) (hports : F .ports) (s : State) (d : Nat) (i : Nat) (x : PtpIn) (h0
    : P s) : P (takePdelayFollow s d i x) := by
  unfold takePdelayFollow
  try dsimp only
  repeat' first
    | with_reducible assumption | with_reducible apply kept_loadPdelay hP hports
    | with_reducible apply kept_updReq hP hports | with_reducible apply kept_ite | split | dsimp only

theorem kept_instAnnounce (hP : Closed F P) (hports : F .ports) (s : State) (d : Nat) (n : Nat) (x : PtpIn) (h0 : P
    s) : P (instAnnounce s d n x) := by
  unfold instAnnounce
  try dsimp only
  repeat' first
    | with_reducible assumption | with_reducible apply kept_judgeForeign hP hports
    | with_reducible apply kept_updInst hP hports | with_reducible apply kept_ite | dsimp only

theorem kept_refAnnounce (hP : Closed F P) (hdsc : F .dsc) (hports : F .ports) (s : State) (d : Nat) (r : Nat) (x :
    PtpIn) (h0 : P s) : P (refAnnounce s d r x) := by
  unfold refAnnounce
  try dsimp only
  repeat' first
    | with_reducible assumption | with_reducible apply kept_refFollow hP hdsc hports
    | with_reducible apply kept_updRef hP hports | with_reducible apply kept_ite | dsimp only

theorem kept_showSample (hP : Closed F P) (s : State) (d : Nat) (r : Nat) (ms : Int) (sm : Int) (h0 : P s) : P
    (showSample s d r ms sm) := by
  unfold showSample
  try dsimp only
  repeat' first
    | with_reducible assumption | with_reducible apply kept_bump hP | with_reducible apply kept_wrN hP | dsimp only

theorem kept_syncDone (hP : Closed F P) (hports : F .ports) (s : State) (d : Nat) (i : Nat) (r : Nat) (t1 : Int) (t2
    : Nat) (h0 : P s) : P (syncDone s d i r t1 t2) := by
  unfold syncDone
  try dsimp only
  repeat' first
    | with_reducible assumption | with_reducible apply kept_showSample hP
    | with_reducible apply kept_updRef hP hports | with_reducible apply kept_ite | split | dsimp only

theorem kept_refSync (hP : Closed F P) (hports : F .ports) (s : State) (d : Nat) (i : Nat) (r : Nat) (x : PtpIn) (h0
    : P s) : P (refSync s d i r x) := by
  unfold refSync
  try dsimp only
  repeat' first
    | with_reducible assumption | with_reducible apply kept_syncDone hP hports
    | with_reducible apply kept_updRef hP hports | with_reducible apply kept_ite | dsimp only

theorem kept_refFollowUp (hP : Closed F P) (hports : F .ports) (s : State) (d : Nat) (i : Nat) (r : Nat) (x : PtpIn)
    (h0 : P s) : P (refFollowUp s d i r x) := by
  unfold refFollowUp
  try dsimp only
  repeat' first
    | with_reducible assumption | with_reducible apply kept_syncDone hP hports | with_reducible apply kept_ite
    | split | dsimp only

theorem kept_refDelayResp (hP : Closed F P) (hports : F .ports) (s : State) (d : Nat) (i : Nat) (r : Nat) (x :
    PtpIn) (h0 : P s) : P (refDelayResp s d i r x) := by
  unfold refDelayResp
  try dsimp only
  repeat' first
    | with_reducible assumption | with_reducible apply kept_showSample hP
    | with_reducible apply kept_updRef hP hports | with_reducible apply kept_ite | split | dsimp only

theorem kept_showGranted (hP : Closed F P) (s : State) (d : Nat) (r : Nat) (h0 : P s) : P (showGranted s d r) := by
  unfold showGranted
  try dsimp only
  repeat' first
    | with_reducible assumption | intro _ | with_reducible apply kept_put hP | with_reducible apply kept_foldl
    | with_reducible apply kept_foldl_fst | dsimp only

theorem kept_refGrants (hP : Closed F P) (hports : F .ports) (s : State) (d : Nat) (r : Nat) (x : PtpIn) (h0 : P s)
    : P (refGrants s d r x) := by
  unfold refGrants
  try dsimp only
  repeat' first
    | with_reducible assumption | intro _ | with_reducible apply kept_showGranted hP
    | with_reducible apply kept_updRef hP hports | with_reducible apply kept_ite | with_reducible apply kept_foldl
    | with_reducible apply kept_foldl_fst | split | dsimp only

theorem kept_refTake (hP : Closed F P) (hdsc : F .dsc) (hports : F .ports) (s : State) (d : Nat) (i : Nat) (r : Nat)
    (x : PtpIn) (h0 : P s) : P (refTake s d i r x).1 := by
  unfold refTake
  try dsimp only
  repeat' first
    | with_reducible assumption | with_reducible apply kept_answerPdelay hP hports
    | with_reducible apply kept_authJudge hP hports | with_reducible apply kept_ptpBad hP
    | with_reducible apply kept_refAnnounce hP hdsc hports | with_reducible apply kept_refDelayResp hP hports
    | with_reducible apply kept_refFollowUp hP hports | with_reducible apply kept_refGrants hP hports
    | with_reducible apply kept_refSync hP hports | with_reducible apply kept_takePdelayFollow hP hports
    | with_reducible apply kept_takePdelayResp hP hports | with_reducible apply kept_ite
    | with_reducible apply kept_fst_ite | dsimp only

theorem kept_denyGrant (hP : Closed F P) (s : State) (d : Nat) (h0 : P s) : P (denyGrant s d) := by
  unfold denyGrant
  try dsimp only
  repeat' first
    | with_reducible assumption | with_reducible apply kept_bump hP | with_reducible apply kept_raise hP
    | dsimp only

theorem kept_grantType (hP : Closed F P) (hports : F .ports) (s : State) (d : Nat) (k : Nat) (e : Session) (x :
    PtpIn) (type : Nat) (log : Nat) (dur : Nat) (h0 : P s) : P (grantType s d k e x type log dur) := by
  unfold grantType
  try dsimp only
  repeat' first
    | with_reducible assumption | with_reducible apply kept_bump hP | with_reducible apply kept_putSes hP hports
    | dsimp only

theorem kept_sesPlace (hP : Closed F P) (hports : F .ports) (s : State) (d : Nat) (n : Nat) (x : PtpIn) (h0 : P s) :
    P (sesPlace s d n x).1 := by
  unfold sesPlace
  try dsimp only
  repeat' first
    | with_reducible assumption | with_reducible apply kept_partnerSes hP hports | with_reducible apply kept_ite
    | with_reducible apply kept_fst_ite | split | dsimp only

theorem kept_judgeRequest (hP : Closed F P) (hports : F .ports) (s : State) (d : Nat) (n : Nat) (x : PtpIn) (o :
    Nat) (h0 : P s) : P (judgeRequest s d n x o).1 := by
  unfold judgeRequest
  try dsimp only
  repeat' first
    | with_reducible assumption | with_reducible apply kept_denyGrant hP
    | with_reducible apply kept_grantType hP hports | with_reducible apply kept_raise hP
    | with_reducible apply kept_sesPlace hP hports | with_reducible apply kept_ite
    | with_reducible apply kept_fst_ite | split | dsimp only

theorem kept_judgeCancel (hP : Closed F P) (hports : F .ports) (s : State) (d : Nat) (n : Nat) (x : PtpIn) (o : Nat)
    (h0 : P s) : P (judgeCancel s d n x o).1 := by
  unfold judgeCancel
  try dsimp only
  repeat' first
    | with_reducible assumption | with_reducible apply kept_bump hP | with_reducible apply kept_keepSes hP hports
    | with_reducible apply kept_partnerSes hP hports | with_reducible apply kept_ite
    | with_reducible apply kept_fst_ite | split | dsimp only

theorem kept_judgeTlvs (hP : Closed F P) (hports : F .ports) (d n : Nat) (x : PtpIn) (l : List (Nat × Nat × Nat)) (s : State) (h : P s) :
    P (judgeTlvs d n x l s).1 := by
  induction l generalizing s with
  | nil => exact h
  | cons t l ih =>
    exact ih _ (kept_fst_ite _ _ _ (kept_judgeRequest hP hports _ _ _ _ _ h)
      (kept_fst_ite _ _ _ (kept_judgeCancel hP hports _ _ _ _ _ h) h))

theorem kept_signalSeq (hP : Closed F P) (hports : F .ports) (s : State) (d : Nat) (n : Nat) (x : PtpIn) (h0 : P s)
    : P (signalSeq s d n x).1 := by
  unfold signalSeq
  try dsimp only
  repeat' first
    | with_reducible assumption | with_reducible apply kept_drawn hP
    | with_reducible apply kept_partnerSes hP hports | with_reducible apply kept_putSes hP hports | split
    | dsimp only

theorem kept_instSignal (hP : Closed F P) (hports : F .ports) (hrings : F .rings) (s : State) (d : Nat) (i : Nat) (n
    : Nat) (x : PtpIn) (h0 : P s) : P (instSignal s d i n x).1 := by
  unfold instSignal
  try dsimp only
  repeat' first
    | with_reducible assumption | with_reducible apply kept_judgeTlvs hP hports
    | with_reducible apply kept_sendSignal hP hports hrings | with_reducible apply kept_signalSeq hP hports
    | with_reducible apply kept_ite | with_reducible apply kept_fst_ite | split | dsimp only

theorem kept_instTake (hP : Closed F P) (hports : F .ports) (hrings : F .rings) (s : State) (d : Nat) (i : Nat) (n :
    Nat) (x : PtpIn) (h0 : P s) : P (instTake s d i n x).1 := by
  unfold instTake
  try dsimp only
  repeat' first
    | with_reducible assumption | with_reducible apply kept_answerDelayReq hP hports hrings
    | with_reducible apply kept_authJudge hP hports | with_reducible apply kept_instAnnounce hP hports
    | with_reducible apply kept_instPdelay hP hports | with_reducible apply kept_instSignal hP hports hrings
    | with_reducible apply kept_ptpBad hP | with_reducible apply kept_takePdelayFollow hP hports
    | with_reducible apply kept_takePdelayResp hP hports | with_reducible apply kept_ite
    | with_reducible apply kept_fst_ite | dsimp only

theorem kept_bridgeFrame (hP : Closed F P) (hports : F .ports) (s : State) (d : Nat) (i : Nat) (pair : Nat × Nat)
    (frame : List Byte) (tin : PC64) (eof : PC64) (link : Nat) (event : Bool) (sa : Option Nat) (h0 : P s) : P
    (bridgeFrame s d i pair frame tin eof link event sa) := by
  unfold bridgeFrame
  try dsimp only
  repeat' first
    | with_reducible assumption | with_reducible apply kept_addAsk hP hports | with_reducible apply kept_bump hP
    | with_reducible apply kept_ite | dsimp only

theorem kept_bridgePtp (hP : Closed F P) (hports : F .ports) (s : State) (d : Nat) (i : Nat) (pair : Nat × Nat) (x :
    PtpIn) (eof : PC64) (h0 : P s) : P (bridgePtp s d i pair x eof) := by
  unfold bridgePtp
  try dsimp only
  repeat' first
    | with_reducible assumption | with_reducible apply kept_answerPdelay hP hports
    | with_reducible apply kept_authFail hP | with_reducible apply kept_bridgeFrame hP hports
    | with_reducible apply kept_bump hP | with_reducible apply kept_takePdelayFollow hP hports
    | with_reducible apply kept_takePdelayResp hP hports | with_reducible apply kept_ite | split | dsimp only

theorem kept_ptpReceive (hP : Closed F P) (hdsc : F .dsc) (hports : F .ports) (hrings : F .rings) (s : State) (d :
    Nat) (i : Nat) (x : PtpIn) (eof : PC64) (tileOk : Bool) (h0 : P s) : P (ptpReceive s d i x eof tileOk).1 := by
  unfold ptpReceive
  try dsimp only
  repeat' first
    | with_reducible assumption | with_reducible apply kept_bridgePtp hP hports | with_reducible apply kept_bump hP
    | with_reducible apply kept_instTake hP hports hrings | with_reducible apply kept_ptpBad hP
    | with_reducible apply kept_raise hP | with_reducible apply kept_refTake hP hdsc hports
    | with_reducible apply kept_tileFail hP hports | with_reducible apply kept_ite
    | with_reducible apply kept_fst_ite | split | dsimp only

/-! ### Answer -/

theorem kept_tileDrop (hP : Closed F P) (hports : F .ports) (s : State) (d : Nat) (p : Pg) (h0 : P s) : P (tileDrop
    s d p) := by
  unfold tileDrop
  try dsimp only
  repeat' first
    | with_reducible assumption | with_reducible apply kept_raise hP | with_reducible apply kept_tileFail hP hports
    | dsimp only

theorem kept_bookAnswer (hP : Closed F P) (hmck : F .mck) (hports : F .ports) (hrings : F .rings) (s : State) (d :
    Nat) (i : Nat) (grid : Nat) (lead : Nat) (len : Nat) (by' : Nat → Builder) (f : State → Booking → State) (h0 : P s)
    (h1 : ∀ y0 y1, P y0 → P (f y0 y1)) : P (bookAnswer s d i grid lead len by' f) := by
  unfold bookAnswer
  try dsimp only
  repeat' first
    | with_reducible assumption | with_reducible apply h1 | with_reducible apply kept_book hP hmck hports hrings
    | with_reducible apply kept_bump hP | with_reducible apply kept_updBook hP hports | split | dsimp only

theorem kept_countForm (hP : Closed F P) (s : State) (d : Nat) (form : Nat) (h0 : P s) : P (countForm s d form) :=
    by
  unfold countForm
  try dsimp only
  repeat' first
    | with_reducible assumption | with_reducible apply kept_bump hP | with_reducible apply kept_ite | dsimp only

theorem kept_answerPlain (hP : Closed F P) (hmck : F .mck) (hports : F .ports) (hrings : F .rings) (s : State) (d :
    Nat) (i : Nat) (grid : Nat) (form : Nat) (q : NtpReq) (h0 : P s) : P (answerPlain s d i grid form q) := by
  unfold answerPlain
  try dsimp only
  repeat' first
    | with_reducible assumption | intro _ | with_reducible apply kept_bookAnswer hP hmck hports hrings
    | with_reducible apply kept_countForm hP | with_reducible apply kept_fillBook hP hports | dsimp only

theorem kept_sendKod (hP : Closed F P) (hports : F .ports) (hrings : F .rings) (s : State) (d : Nat) (i : Nat) (q :
    NtpReq) (h0 : P s) : P (sendKod s d i q) := by
  unfold sendKod
  try dsimp only
  repeat' first
    | with_reducible assumption | with_reducible apply kept_bump hP
    | with_reducible apply kept_untimed hP hports hrings | dsimp only

theorem kept_servePlain (hP : Closed F P) (hmck : F .mck) (hports : F .ports) (hrings : F .rings) (s : State) (d :
    Nat) (i : Nat) (grid : Nat) (form : Nat) (q : NtpReq) (tblOk : Bool) (h0 : P s) : P (servePlain s d i grid form q
    tblOk) := by
  unfold servePlain
  try dsimp only
  repeat' first
    | with_reducible assumption | with_reducible apply kept_answerPlain hP hmck hports hrings
    | with_reducible apply kept_bump hP | with_reducible apply kept_rateLookup hP hports
    | with_reducible apply kept_sendKod hP hports hrings | split | dsimp only

theorem kept_maybeNak (hP : Closed F P) (hports : F .ports) (s : State) (d : Nat) (i : Nat) (q : NtpReq) (f : Fld)
    (h0 : P s) : P (maybeNak s d i q f) := by
  unfold maybeNak
  try dsimp only
  repeat' first
    | with_reducible assumption | with_reducible apply kept_updPd hP hports | with_reducible apply kept_ite
    | with_reducible exact fits_PortDie (fits_same _ _) | with_reducible exact fits_PortDie (fits_upd _ _ _ _)
    | with_reducible exact fits_PortDie (fits_set _ _ _ _) | with_reducible exact fits_PortDie (fits_map _ _ _)
    | with_reducible exact fits_PortDie (fits_replicate _ _ _) | with_reducible exact fits_same _ _
    | with_reducible exact fits_upd _ _ _ _ | with_reducible exact fits_set _ _ _ _
    | with_reducible exact fits_map _ _ _ | with_reducible exact fits_replicate _ _ _
    | with_reducible exact fun _ => fits_PortDie (fits_same _ _)
    | with_reducible exact fun _ => fits_PortDie (fits_upd _ _ _ _)
    | with_reducible exact fun _ => fits_PortDie (fits_set _ _ _ _)
    | with_reducible exact fun _ => fits_PortDie (fits_map _ _ _)
    | with_reducible exact fun _ => fits_PortDie (fits_replicate _ _ _)
    | with_reducible exact fun _ => fits_same _ _ | with_reducible exact fun _ => fits_upd _ _ _ _
    | with_reducible exact fun _ => fits_set _ _ _ _ | with_reducible exact fun _ => fits_map _ _ _
    | with_reducible exact fun _ => fits_replicate _ _ _ | dsimp only

theorem kept_answerNts (hP : Closed F P) (hmck : F .mck) (hports : F .ports) (hrings : F .rings) (s : State) (d :
    Nat) (i : Nat) (grid : Nat) (form : Nat) (q : NtpReq) (w : NtsWork) (h0 : P s) : P (answerNts s d i grid form q w)
    := by
  unfold answerNts
  try dsimp only
  repeat' first
    | with_reducible assumption | intro _ | with_reducible apply kept_bookAnswer hP hmck hports hrings
    | with_reducible apply kept_countForm hP | with_reducible apply kept_updPd hP hports
    | with_reducible exact fits_PortDie (fits_same _ _) | with_reducible exact fits_PortDie (fits_upd _ _ _ _)
    | with_reducible exact fits_PortDie (fits_set _ _ _ _) | with_reducible exact fits_PortDie (fits_map _ _ _)
    | with_reducible exact fits_PortDie (fits_replicate _ _ _) | with_reducible exact fits_same _ _
    | with_reducible exact fits_upd _ _ _ _ | with_reducible exact fits_set _ _ _ _
    | with_reducible exact fits_map _ _ _ | with_reducible exact fits_replicate _ _ _
    | with_reducible exact fun _ => fits_PortDie (fits_same _ _)
    | with_reducible exact fun _ => fits_PortDie (fits_upd _ _ _ _)
    | with_reducible exact fun _ => fits_PortDie (fits_set _ _ _ _)
    | with_reducible exact fun _ => fits_PortDie (fits_map _ _ _)
    | with_reducible exact fun _ => fits_PortDie (fits_replicate _ _ _)
    | with_reducible exact fun _ => fits_same _ _ | with_reducible exact fun _ => fits_upd _ _ _ _
    | with_reducible exact fun _ => fits_set _ _ _ _ | with_reducible exact fun _ => fits_map _ _ _
    | with_reducible exact fun _ => fits_replicate _ _ _ | dsimp only

theorem kept_serveNts (hP : Closed F P) (hmck : F .mck) (hports : F .ports) (hrings : F .rings) (s : State) (d :
    Nat) (i : Nat) (grid : Nat) (form : Nat) (q : NtpReq) (tblOk : Bool) (h0 : P s) : P (serveNts s d i grid form q
    tblOk) := by
  unfold serveNts
  try dsimp only
  repeat' first
    | with_reducible assumption | with_reducible apply kept_answerNts hP hmck hports hrings
    | with_reducible apply kept_bump hP | with_reducible apply kept_bumpBy hP
    | with_reducible apply kept_maybeNak hP hports | with_reducible apply kept_rateLookup hP hports | split
    | dsimp only

theorem kept_serve (hP : Closed F P) (hclk : F .clk) (hmck : F .mck) (hports : F .ports) (hrings : F .rings) (s :
    State) (d : Nat) (i : Nat) (grid : Nat) (q : NtpReq) (tileOk : Bool) (tblOk : Bool) (h0 : P s) : P (serve s d i grid
    q tileOk tblOk) := by
  unfold serve
  try dsimp only
  repeat' first
    | with_reducible assumption | with_reducible apply kept_advDie hP hclk | with_reducible apply kept_bump hP
    | with_reducible apply kept_serveNts hP hmck hports hrings
    | with_reducible apply kept_servePlain hP hmck hports hrings | with_reducible apply kept_tileDrop hP hports
    | with_reducible apply kept_ite | dsimp only

theorem kept_execAnsLaneTake (hP : Closed F P) (hclk : F .clk) (hmck : F .mck) (hports : F .ports) (hrings : F
    .rings) (d : Fin 4) (grid : Nat) (tileOk : Bool) (tblOk : Bool) (s : State) (h0 : P s) : After P (execAnsLaneTake d
    grid tileOk tblOk s) := by
  unfold execAnsLaneTake
  try dsimp only
  repeat' first
    | with_reducible assumption | with_reducible apply kept_serve hP hclk hmck hports hrings
    | with_reducible apply kept_updPd hP hports | with_reducible apply kept_updPort hP hports
    | with_reducible apply after_next | with_reducible exact fits_PortDie (fits_same _ _)
    | with_reducible exact fits_PortDie (fits_upd _ _ _ _) | with_reducible exact fits_PortDie (fits_set _ _ _ _)
    | with_reducible exact fits_PortDie (fits_map _ _ _) | with_reducible exact fits_PortDie (fits_replicate _ _ _)
    | with_reducible exact fits_same _ _ | with_reducible exact fits_upd _ _ _ _
    | with_reducible exact fits_set _ _ _ _ | with_reducible exact fits_map _ _ _
    | with_reducible exact fits_replicate _ _ _ | with_reducible exact fun _ => fits_PortDie (fits_same _ _)
    | with_reducible exact fun _ => fits_PortDie (fits_upd _ _ _ _)
    | with_reducible exact fun _ => fits_PortDie (fits_set _ _ _ _)
    | with_reducible exact fun _ => fits_PortDie (fits_map _ _ _)
    | with_reducible exact fun _ => fits_PortDie (fits_replicate _ _ _)
    | with_reducible exact fun _ => fits_same _ _ | with_reducible exact fun _ => fits_upd _ _ _ _
    | with_reducible exact fun _ => fits_set _ _ _ _ | with_reducible exact fun _ => fits_map _ _ _
    | with_reducible exact fun _ => fits_replicate _ _ _ | split | dsimp only

theorem kept_sendNak (hP : Closed F P) (hports : F .ports) (hrings : F .rings) (s : State) (d : Nat) (i : Nat) (q :
    NtpReq) (h0 : P s) : P (sendNak s d i q) := by
  unfold sendNak
  try dsimp only
  repeat' first
    | with_reducible assumption | with_reducible apply kept_bump hP | with_reducible apply kept_raise hP
    | with_reducible apply kept_untimed hP hports hrings | dsimp only

theorem kept_mintFor (hP : Closed F P) (hports : F .ports) (s : State) (d : Nat) (i : Nat) (b : Booking) (q :
    NtpReq) (h : NtpHead) (w : NtsWork) (mk : MasterKey) (h0 : P s) : P (mintFor s d i b q h w mk).1 := by
  unfold mintFor
  try dsimp only
  repeat' first
    | with_reducible assumption | with_reducible apply kept_add64 hP
    | with_reducible apply kept_mintFields hP hports | with_reducible apply kept_updBook hP hports | dsimp only

theorem kept_finishNts (hP : Closed F P) (hmck : F .mck) (hports : F .ports) (hrings : F .rings) (s : State) (d :
    Nat) (i : Nat) (grid : Nat) (b : Booking) (h0 : P s) : P (finishNts s d i grid b) := by
  unfold finishNts
  try dsimp only
  repeat' first
    | with_reducible assumption | with_reducible apply kept_abandon hP hmck hports hrings
    | with_reducible apply kept_bump hP | with_reducible apply kept_fillNts hP hports
    | with_reducible apply kept_mintFor hP hports | with_reducible apply kept_restamp hP hmck hports hrings
    | with_reducible apply kept_ite | with_reducible apply kept_fst_ite | split | dsimp only

theorem kept_execNtsSivDone (hP : Closed F P) (hmck : F .mck) (hports : F .ports) (hrings : F .rings) (d : Fin 4)
    (grid : Nat) (tileOk : Bool) (s : State) (h0 : P s) : After P (execNtsSivDone d grid tileOk s) := by
  unfold execNtsSivDone
  try dsimp only
  repeat' first
    | with_reducible assumption | with_reducible apply kept_abandon hP hmck hports hrings
    | with_reducible apply kept_finishNts hP hmck hports hrings | with_reducible apply kept_sendNak hP hports hrings
    | with_reducible apply kept_tileDrop hP hports | with_reducible apply kept_updPd hP hports
    | with_reducible apply kept_ite | with_reducible apply after_next | with_reducible apply after_ite
    | with_reducible exact fits_PortDie (fits_same _ _) | with_reducible exact fits_PortDie (fits_upd _ _ _ _)
    | with_reducible exact fits_PortDie (fits_set _ _ _ _) | with_reducible exact fits_PortDie (fits_map _ _ _)
    | with_reducible exact fits_PortDie (fits_replicate _ _ _) | with_reducible exact fits_same _ _
    | with_reducible exact fits_upd _ _ _ _ | with_reducible exact fits_set _ _ _ _
    | with_reducible exact fits_map _ _ _ | with_reducible exact fits_replicate _ _ _
    | with_reducible exact fun _ => fits_PortDie (fits_same _ _)
    | with_reducible exact fun _ => fits_PortDie (fits_upd _ _ _ _)
    | with_reducible exact fun _ => fits_PortDie (fits_set _ _ _ _)
    | with_reducible exact fun _ => fits_PortDie (fits_map _ _ _)
    | with_reducible exact fun _ => fits_PortDie (fits_replicate _ _ _)
    | with_reducible exact fun _ => fits_same _ _ | with_reducible exact fun _ => fits_upd _ _ _ _
    | with_reducible exact fun _ => fits_set _ _ _ _ | with_reducible exact fun _ => fits_map _ _ _
    | with_reducible exact fun _ => fits_replicate _ _ _ | split | dsimp only

/-! ### Receive -/

theorem kept_routeSlow (hP : Closed F P) (hrings : F .rings) (s : State) (d : Nat) (f : SlowFrame) (h0 : P s) : P
    (routeSlow s d f) := by
  unfold routeSlow
  try dsimp only
  repeat' first
    | with_reducible assumption | with_reducible apply kept_bump hP | with_reducible apply kept_raise hP
    | with_reducible apply kept_takeDesc hP hrings | with_reducible apply kept_ite | split | dsimp only

theorem kept_slowPath (hP : Closed F P) (hports : F .ports) (hrings : F .rings) (s : State) (d : Nat) (i : Nat)
    (frame : List Byte) (stamp : PC64) (uncal : Bool) (bad : Bool) (h0 : P s) : P (slowPath s d i frame stamp uncal bad)
    := by
  unfold slowPath
  try dsimp only
  repeat' first
    | with_reducible assumption | with_reducible apply kept_bump hP | with_reducible apply kept_raise hP
    | with_reducible apply kept_routeSlow hP hrings | with_reducible apply kept_tileDrop hP hports
    | with_reducible apply kept_updPd hP hports | with_reducible apply kept_ite
    | with_reducible exact fits_PortDie (fits_same _ _) | with_reducible exact fits_PortDie (fits_upd _ _ _ _)
    | with_reducible exact fits_PortDie (fits_set _ _ _ _) | with_reducible exact fits_PortDie (fits_map _ _ _)
    | with_reducible exact fits_PortDie (fits_replicate _ _ _) | with_reducible exact fits_same _ _
    | with_reducible exact fits_upd _ _ _ _ | with_reducible exact fits_set _ _ _ _
    | with_reducible exact fits_map _ _ _ | with_reducible exact fits_replicate _ _ _
    | with_reducible exact fun _ => fits_PortDie (fits_same _ _)
    | with_reducible exact fun _ => fits_PortDie (fits_upd _ _ _ _)
    | with_reducible exact fun _ => fits_PortDie (fits_set _ _ _ _)
    | with_reducible exact fun _ => fits_PortDie (fits_map _ _ _)
    | with_reducible exact fun _ => fits_PortDie (fits_replicate _ _ _)
    | with_reducible exact fun _ => fits_same _ _ | with_reducible exact fun _ => fits_upd _ _ _ _
    | with_reducible exact fun _ => fits_set _ _ _ _ | with_reducible exact fun _ => fits_map _ _ _
    | with_reducible exact fun _ => fits_replicate _ _ _ | dsimp only

theorem kept_toSlow (hP : Closed F P) (hports : F .ports) (hrings : F .rings) (s : State) (d : Nat) (i : Nat) (x :
    Classed) (h0 : P s) : P (toSlow s d i x) := by
  unfold toSlow
  try dsimp only
  repeat' first
    | with_reducible assumption | with_reducible apply kept_slowPath hP hports hrings | dsimp only

theorem kept_arpFrame (hP : Closed F P) (hports : F .ports) (hrings : F .rings) (s : State) (d : Nat) (i : Nat) (x :
    Classed) (h0 : P s) : P (arpFrame s d i x) := by
  unfold arpFrame
  try dsimp only
  repeat' first
    | with_reducible assumption | with_reducible apply kept_bump hP | with_reducible apply kept_raise hP
    | with_reducible apply kept_tileDrop hP hports | with_reducible apply kept_toSlow hP hports hrings
    | with_reducible apply kept_untimed hP hports hrings | with_reducible apply kept_ite | dsimp only

theorem kept_solicitFrame (hP : Closed F P) (hports : F .ports) (hrings : F .rings) (s : State) (d : Nat) (i : Nat)
    (x : Classed) (h : IpHead) (h0 : P s) : P (solicitFrame s d i x h) := by
  unfold solicitFrame
  try dsimp only
  repeat' first
    | with_reducible assumption | with_reducible apply kept_bump hP | with_reducible apply kept_raiseIf hP
    | with_reducible apply kept_tileDrop hP hports | with_reducible apply kept_toSlow hP hports hrings
    | with_reducible apply kept_untimed hP hports hrings | with_reducible apply kept_ite | dsimp only

theorem kept_echoFrame (hP : Closed F P) (hports : F .ports) (hrings : F .rings) (s : State) (d : Nat) (i : Nat) (x
    : Classed) (h : IpHead) (h0 : P s) : P (echoFrame s d i x h) := by
  unfold echoFrame
  try dsimp only
  repeat' first
    | with_reducible assumption | with_reducible apply kept_bump hP | with_reducible apply kept_drawn hP
    | with_reducible apply kept_tileDrop hP hports | with_reducible apply kept_toSlow hP hports hrings
    | with_reducible apply kept_untimed hP hports hrings | with_reducible apply kept_ite | dsimp only

theorem kept_showQueue (hP : Closed F P) (s : State) (d : Nat) (i : Nat) (n : Nat) (h0 : P s) : P (showQueue s d i
    n) := by
  unfold showQueue
  try dsimp only
  repeat' first
    | with_reducible assumption | with_reducible apply kept_put hP | with_reducible apply kept_ite | dsimp only

theorem kept_queueReq (hP : Closed F P) (hports : F .ports) (s : State) (d : Nat) (i : Nat) (q : NtpReq) (h0 : P s)
    : P (queueReq s d i q) := by
  unfold queueReq
  try dsimp only
  repeat' first
    | with_reducible assumption | with_reducible apply kept_bump hP | with_reducible apply kept_raise hP
    | with_reducible apply kept_showQueue hP | with_reducible apply kept_updPort hP hports
    | with_reducible apply kept_ite | with_reducible exact fits_same _ _ | with_reducible exact fits_upd _ _ _ _
    | with_reducible exact fits_set _ _ _ _ | with_reducible exact fits_map _ _ _
    | with_reducible exact fits_replicate _ _ _ | with_reducible exact fun _ => fits_same _ _
    | with_reducible exact fun _ => fits_upd _ _ _ _ | with_reducible exact fun _ => fits_set _ _ _ _
    | with_reducible exact fun _ => fits_map _ _ _ | with_reducible exact fun _ => fits_replicate _ _ _ | dsimp only

theorem kept_ntpFrameRx (hP : Closed F P) (hports : F .ports) (hrings : F .rings) (s : State) (d : Nat) (i : Nat) (x
    : Classed) (h : IpHead) (h0 : P s) : P (ntpFrameRx s d i x h) := by
  unfold ntpFrameRx
  try dsimp only
  repeat' first
    | with_reducible assumption | with_reducible apply kept_bump hP | with_reducible apply kept_queueReq hP hports
    | with_reducible apply kept_toSlow hP hports hrings | with_reducible apply kept_ite | dsimp only

theorem kept_otherFrame (hP : Closed F P) (hports : F .ports) (hrings : F .rings) (s : State) (d : Nat) (i : Nat) (x
    : Classed) (toServed : Bool) (h0 : P s) : P (otherFrame s d i x toServed) := by
  unfold otherFrame
  try dsimp only
  repeat' first
    | with_reducible assumption | with_reducible apply kept_toSlow hP hports hrings | with_reducible apply kept_ite
    | dsimp only

theorem kept_ipFrame (hP : Closed F P) (hports : F .ports) (hrings : F .rings) (s : State) (d : Nat) (i : Nat) (x :
    Classed) (h : IpHead) (h0 : P s) : P (ipFrame s d i x h) := by
  unfold ipFrame
  try dsimp only
  repeat' first
    | with_reducible assumption | with_reducible apply kept_bump hP
    | with_reducible apply kept_echoFrame hP hports hrings | with_reducible apply kept_ntpFrameRx hP hports hrings
    | with_reducible apply kept_otherFrame hP hports hrings
    | with_reducible apply kept_solicitFrame hP hports hrings | with_reducible apply kept_toSlow hP hports hrings
    | with_reducible apply kept_ite | dsimp only

theorem kept_classify (hP : Closed F P) (hports : F .ports) (hrings : F .rings) (s : State) (d : Nat) (i : Nat) (x :
    Classed) (h0 : P s) : P (classify s d i x) := by
  unfold classify
  try dsimp only
  repeat' first
    | with_reducible assumption | with_reducible apply kept_arpFrame hP hports hrings
    | with_reducible apply kept_ipFrame hP hports hrings | with_reducible apply kept_otherFrame hP hports hrings
    | with_reducible apply kept_ite | split | dsimp only

theorem kept_ptpFrameRx (hP : Closed F P) (hdsc : F .dsc) (hports : F .ports) (hrings : F .rings) (s : State) (d :
    Nat) (i : Nat) (x : Classed) (off : Nat) (eof : PC64) (h0 : P s) : P (ptpFrameRx s d i x off eof) := by
  unfold ptpFrameRx
  try dsimp only
  repeat' first
    | with_reducible assumption | with_reducible apply kept_ptpReceive hP hdsc hports hrings
    | with_reducible apply kept_toSlow hP hports hrings | split | dsimp only

theorem kept_forward (hP : Closed F P) (hports : F .ports) (s : State) (d : Nat) (i : Nat) (pair : Nat × Nat) (x :
    Classed) (eof : PC64) (h0 : P s) : P (forward s d i pair x eof) := by
  unfold forward
  try dsimp only
  repeat' first
    | with_reducible assumption | with_reducible apply kept_bridgeFrame hP hports
    | with_reducible apply kept_bump hP | with_reducible apply kept_tileDrop hP hports
    | with_reducible apply kept_ite | dsimp only

theorem kept_takeFrame (hP : Closed F P) (hdsc : F .dsc) (hports : F .ports) (hrings : F .rings) (s : State) (d :
    Nat) (i : Nat) (x : Classed) (eof : PC64) (h0 : P s) : P (takeFrame s d i x eof) := by
  unfold takeFrame
  try dsimp only
  repeat' first
    | with_reducible assumption | with_reducible apply kept_bump hP
    | with_reducible apply kept_classify hP hports hrings | with_reducible apply kept_forward hP hports
    | with_reducible apply kept_ptpFrameRx hP hdsc hports hrings | with_reducible apply kept_ite | split
    | dsimp only

theorem kept_pauseFrame (hP : Closed F P) (hports : F .ports) (s : State) (d : Nat) (i : Nat) (l : List Byte) (off :
    Nat) (h0 : P s) : P (pauseFrame s d i l off) := by
  unfold pauseFrame
  try dsimp only
  repeat' first
    | with_reducible assumption | with_reducible apply kept_bump hP | with_reducible apply kept_putB hP
    | with_reducible apply kept_updPort hP hports | with_reducible apply kept_ite
    | with_reducible exact fits_same _ _ | with_reducible exact fits_upd _ _ _ _
    | with_reducible exact fits_set _ _ _ _ | with_reducible exact fits_map _ _ _
    | with_reducible exact fits_replicate _ _ _ | with_reducible exact fun _ => fits_same _ _
    | with_reducible exact fun _ => fits_upd _ _ _ _ | with_reducible exact fun _ => fits_set _ _ _ _
    | with_reducible exact fun _ => fits_map _ _ _ | with_reducible exact fun _ => fits_replicate _ _ _ | dsimp only

theorem kept_goodFrame (hP : Closed F P) (hdsc : F .dsc) (hports : F .ports) (hrings : F .rings) (s : State) (d :
    Nat) (i : Nat) (x : RxFrame) (h0 : P s) : P (goodFrame s d i x) := by
  unfold goodFrame
  try dsimp only
  repeat' first
    | with_reducible assumption | with_reducible apply kept_add64 hP
    | with_reducible apply kept_pauseFrame hP hports | with_reducible apply kept_takeFrame hP hdsc hports hrings
    | with_reducible apply kept_writeTiles hP hports | with_reducible apply kept_ite
    | with_reducible apply kept_fst_ite | dsimp only

theorem kept_countFec (hP : Closed F P) (s : State) (d : Nat) (i : Nat) (x : RxFrame) (h0 : P s) : P (countFec s d i
    x) := by
  unfold countFec
  try dsimp only
  repeat' first
    | with_reducible assumption | with_reducible apply kept_bumpBy hP | with_reducible apply kept_raiseIf hP
    | with_reducible apply kept_ite | dsimp only

theorem kept_execFrameRx (hP : Closed F P) (hdsc : F .dsc) (hports : F .ports) (hrings : F .rings) (d : Fin 4) (i :
    Fin 8) (x : RxFrame) (s0 : State) (h0 : P s0) : After P (execFrameRx d i x s0) := by
  unfold execFrameRx
  try dsimp only
  repeat' first
    | with_reducible assumption | with_reducible apply kept_bump hP | with_reducible apply kept_countFec hP
    | with_reducible apply kept_goodFrame hP hdsc hports hrings | with_reducible apply kept_ite
    | with_reducible apply after_next | with_reducible apply after_ite | dsimp only

theorem kept_ansDisabled (hP : Closed F P) (hports : F .ports) (s : State) (d : Nat) (h0 : P s) : P (ansDisabled s
    d) := by
  unfold ansDisabled
  try dsimp only
  repeat' first
    | with_reducible assumption | intro _ | with_reducible apply kept_bumpBy hP
    | with_reducible apply kept_updPd hP hports | with_reducible apply kept_foldl
    | with_reducible apply kept_foldl_fst | with_reducible exact fits_PortDie (fits_same _ _)
    | with_reducible exact fits_PortDie (fits_upd _ _ _ _) | with_reducible exact fits_PortDie (fits_set _ _ _ _)
    | with_reducible exact fits_PortDie (fits_map _ _ _) | with_reducible exact fits_PortDie (fits_replicate _ _ _)
    | with_reducible exact fits_same _ _ | with_reducible exact fits_upd _ _ _ _
    | with_reducible exact fits_set _ _ _ _ | with_reducible exact fits_map _ _ _
    | with_reducible exact fits_replicate _ _ _ | with_reducible exact fun _ => fits_PortDie (fits_same _ _)
    | with_reducible exact fun _ => fits_PortDie (fits_upd _ _ _ _)
    | with_reducible exact fun _ => fits_PortDie (fits_set _ _ _ _)
    | with_reducible exact fun _ => fits_PortDie (fits_map _ _ _)
    | with_reducible exact fun _ => fits_PortDie (fits_replicate _ _ _)
    | with_reducible exact fun _ => fits_same _ _ | with_reducible exact fun _ => fits_upd _ _ _ _
    | with_reducible exact fun _ => fits_set _ _ _ _ | with_reducible exact fun _ => fits_map _ _ _
    | with_reducible exact fun _ => fits_replicate _ _ _ | dsimp only

/-! ### Domain -/

theorem kept_updPwr (hP : Closed F P) (hpwr : F .pwr) (s : State) (f : Power → Power) (h0 : P s) : P (updPwr s f) :=
    by
  unfold updPwr
  try dsimp only
  repeat' first
    | with_reducible assumption | with_reducible exact Or.inr hpwr | with_reducible exact Or.inl rfl
    | with_reducible apply hP.others | with_reducible exact fits_same _ _ | with_reducible exact fits_upd _ _ _ _
    | with_reducible exact fits_set _ _ _ _ | with_reducible exact fits_map _ _ _
    | with_reducible exact fits_replicate _ _ _ | with_reducible exact fitsMck_same _
    | with_reducible exact fun _ => fits_same _ _ | with_reducible exact fun _ => fits_upd _ _ _ _
    | with_reducible exact fun _ => fits_set _ _ _ _ | with_reducible exact fun _ => fits_map _ _ _
    | with_reducible exact fun _ => fits_replicate _ _ _ | dsimp only

theorem kept_resetDrop (hP : Closed F P) (hmck : F .mck) (hrings : F .rings) (s : State) (d : Nat) (i : Nat) (h0 : P
    s) : P (resetDrop s d i) := by
  unfold resetDrop
  try dsimp only
  repeat' first
    | with_reducible assumption | intro _ | with_reducible apply kept_complete hP hmck hrings
    | with_reducible apply kept_ringDone hP hrings | with_reducible apply kept_foldl
    | with_reducible apply kept_foldl_fst | split | dsimp only

theorem kept_loseFrames (hP : Closed F P) (hmck : F .mck) (hports : F .ports) (hrings : F .rings) (s : State) (d :
    Nat) (h0 : P s) : P (loseFrames s d) := by
  unfold loseFrames
  try dsimp only
  repeat' first
    | with_reducible assumption | intro _ | with_reducible apply kept_resetDrop hP hmck hrings
    | with_reducible apply kept_updPort hP hports | with_reducible apply kept_foldl
    | with_reducible apply kept_foldl_fst | with_reducible exact fits_same _ _
    | with_reducible exact fits_upd _ _ _ _ | with_reducible exact fits_set _ _ _ _
    | with_reducible exact fits_map _ _ _ | with_reducible exact fits_replicate _ _ _
    | with_reducible exact fun _ => fits_same _ _ | with_reducible exact fun _ => fits_upd _ _ _ _
    | with_reducible exact fun _ => fits_set _ _ _ _ | with_reducible exact fun _ => fits_map _ _ _
    | with_reducible exact fun _ => fits_replicate _ _ _ | dsimp only

theorem kept_groupOff (hP : Closed F P) (hmck : F .mck) (hports : F .ports) (hrings : F .rings) (hage : F .age) (s :
    State) (d : Nat) (g : Nat) (h0 : P s) : P (groupOff s d g) := by
  unfold groupOff
  try dsimp only
  repeat' first
    | with_reducible assumption | intro _ | with_reducible apply kept_flushPort hP hmck hports hrings
    | with_reducible apply kept_linkFall hP hmck hports hrings
    | with_reducible apply kept_reviewPortsGone hP hports hage | with_reducible apply kept_updPd hP hports
    | with_reducible apply kept_updPort hP hports | with_reducible apply kept_ite | with_reducible apply kept_foldl
    | with_reducible apply kept_foldl_fst | with_reducible exact fits_PortDie (fits_same _ _)
    | with_reducible exact fits_PortDie (fits_upd _ _ _ _) | with_reducible exact fits_PortDie (fits_set _ _ _ _)
    | with_reducible exact fits_PortDie (fits_map _ _ _) | with_reducible exact fits_PortDie (fits_replicate _ _ _)
    | with_reducible exact fits_same _ _ | with_reducible exact fits_upd _ _ _ _
    | with_reducible exact fits_set _ _ _ _ | with_reducible exact fits_map _ _ _
    | with_reducible exact fits_replicate _ _ _ | with_reducible exact fun _ => fits_PortDie (fits_same _ _)
    | with_reducible exact fun _ => fits_PortDie (fits_upd _ _ _ _)
    | with_reducible exact fun _ => fits_PortDie (fits_set _ _ _ _)
    | with_reducible exact fun _ => fits_PortDie (fits_map _ _ _)
    | with_reducible exact fun _ => fits_PortDie (fits_replicate _ _ _)
    | with_reducible exact fun _ => fits_same _ _ | with_reducible exact fun _ => fits_upd _ _ _ _
    | with_reducible exact fun _ => fits_set _ _ _ _ | with_reducible exact fun _ => fits_map _ _ _
    | with_reducible exact fun _ => fits_replicate _ _ _ | dsimp only

theorem kept_engineOff (hP : Closed F P) (hmck : F .mck) (hports : F .ports) (hkisl : F .kisl) (hrings : F .rings)
    (s : State) (d : Nat) (h0 : P s) : P (engineOff s d) := by
  unfold engineOff
  try dsimp only
  repeat' first
    | with_reducible assumption | with_reducible apply kept_loseFrames hP hmck hports hrings
    | with_reducible apply kept_updKisl hP hkisl | with_reducible apply kept_updPd hP hports
    | with_reducible exact fits_PortDie (fits_same _ _) | with_reducible exact fits_PortDie (fits_upd _ _ _ _)
    | with_reducible exact fits_PortDie (fits_set _ _ _ _) | with_reducible exact fits_PortDie (fits_map _ _ _)
    | with_reducible exact fits_PortDie (fits_replicate _ _ _) | with_reducible exact fits_same _ _
    | with_reducible exact fits_upd _ _ _ _ | with_reducible exact fits_set _ _ _ _
    | with_reducible exact fits_map _ _ _ | with_reducible exact fits_replicate _ _ _
    | with_reducible exact fun _ => fits_PortDie (fits_same _ _)
    | with_reducible exact fun _ => fits_PortDie (fits_upd _ _ _ _)
    | with_reducible exact fun _ => fits_PortDie (fits_set _ _ _ _)
    | with_reducible exact fun _ => fits_PortDie (fits_map _ _ _)
    | with_reducible exact fun _ => fits_PortDie (fits_replicate _ _ _)
    | with_reducible exact fun _ => fits_same _ _ | with_reducible exact fun _ => fits_upd _ _ _ _
    | with_reducible exact fun _ => fits_set _ _ _ _ | with_reducible exact fun _ => fits_map _ _ _
    | with_reducible exact fun _ => fits_replicate _ _ _ | dsimp only

theorem kept_keysOff (hP : Closed F P) (hports : F .ports) (hkisl : F .kisl) (hlinks : F .links) (hpke : F .pke) (s
    : State) (h0 : P s) : P (keysOff s) := by
  unfold keysOff
  try dsimp only
  repeat' first
    | with_reducible assumption | intro _ | with_reducible apply kept_dropMint hP hkisl
    | with_reducible apply kept_keysLost hP hports hkisl hlinks | with_reducible apply kept_linkKeysErased hP hlinks
    | with_reducible apply kept_pkeLost hP hpke | with_reducible apply kept_putB hP
    | with_reducible apply kept_foldl | with_reducible apply kept_foldl_fst | dsimp only

theorem kept_radioOff (hP : Closed F P) (hpwr : F .pwr) (hdsc : F .dsc) (hrad : F .rad) (s : State) (h0 : P s) : P
    (radioOff s) := by
  unfold radioOff
  try dsimp only
  repeat' first
    | with_reducible assumption | with_reducible apply kept_gfDown hP hpwr hrad
    | with_reducible apply kept_markSlot hP hdsc | with_reducible exact Or.inr hpwr
    | with_reducible exact Or.inr hdsc | with_reducible exact Or.inr hrad | with_reducible exact Or.inl rfl
    | with_reducible apply hP.others | with_reducible exact fits_same _ _ | with_reducible exact fits_upd _ _ _ _
    | with_reducible exact fits_set _ _ _ _ | with_reducible exact fits_map _ _ _
    | with_reducible exact fits_replicate _ _ _ | with_reducible exact fitsMck_same _
    | with_reducible exact fun _ => fits_same _ _ | with_reducible exact fun _ => fits_upd _ _ _ _
    | with_reducible exact fun _ => fits_set _ _ _ _ | with_reducible exact fun _ => fits_map _ _ _
    | with_reducible exact fun _ => fits_replicate _ _ _ | dsimp only

theorem kept_domLost (hP : Closed F P) (hpwr : F .pwr) (hdsc : F .dsc) (hmck : F .mck) (hrad : F .rad) (hports : F
    .ports) (hkisl : F .kisl) (hlinks : F .links) (hpke : F .pke) (hrings : F .rings) (hharts : F .harts) (hage : F
    .age) (s : State) (dom : Nat) (h0 : P s) : P (domLost s dom) := by
  unfold domLost
  try dsimp only
  repeat' first
    | with_reducible assumption | with_reducible apply kept_appHartsLost hP hharts
    | with_reducible apply kept_engineOff hP hmck hports hkisl hrings
    | with_reducible apply kept_groupOff hP hmck hports hrings hage
    | with_reducible apply kept_keysOff hP hports hkisl hlinks hpke
    | with_reducible apply kept_radioOff hP hpwr hdsc hrad | with_reducible apply kept_ite | dsimp only

theorem kept_domOff (hP : Closed F P) (hpwr : F .pwr) (hdsc : F .dsc) (hmck : F .mck) (hrad : F .rad) (hports : F
    .ports) (hkisl : F .kisl) (hlinks : F .links) (hpke : F .pke) (hrings : F .rings) (hharts : F .harts) (hage : F
    .age) (s : State) (dom : Nat) (h0 : P s) : P (domOff s dom) := by
  unfold domOff
  try dsimp only
  repeat' first
    | with_reducible assumption
    | with_reducible apply kept_domLost hP hpwr hdsc hmck hrad hports hkisl hlinks hpke hrings hharts hage
    | with_reducible apply kept_noteAll hP | with_reducible apply kept_updPwr hP hpwr
    | with_reducible apply kept_wipeDomain hP | with_reducible apply kept_ite | dsimp only

theorem kept_hcFollow (hP : Closed F P) (hpwr : F .pwr) (hdsc : F .dsc) (hmck : F .mck) (hrad : F .rad) (hports : F
    .ports) (hkisl : F .kisl) (hlinks : F .links) (hpke : F .pke) (hrings : F .rings) (hharts : F .harts) (hage : F
    .age) (s : State) (h0 : P s) : P (hcFollow s) := by
  unfold hcFollow
  try dsimp only
  repeat' first
    | with_reducible assumption
    | with_reducible apply kept_domOff hP hpwr hdsc hmck hrad hports hkisl hlinks hpke hrings hharts hage
    | with_reducible apply kept_ite | dsimp only

theorem kept_domRebuild (hP : Closed F P) (hports : F .ports) (hkisl : F .kisl) (hlinks : F .links) (hpke : F .pke)
    (s : State) (dom : Nat) (h0 : P s) : P (domRebuild s dom) := by
  unfold domRebuild
  try dsimp only
  repeat' first
    | with_reducible assumption | intro _ | with_reducible apply kept_crossUp hP hports hkisl
    | with_reducible apply kept_formDelays hP | with_reducible apply kept_generateIfNone hP hports hkisl hlinks
    | with_reducible apply kept_putB hP | with_reducible apply kept_showHarts hP
    | with_reducible apply kept_showKeys hP | with_reducible apply kept_showTimed hP
    | with_reducible apply kept_startTest hP hpke | with_reducible apply kept_updPd hP hports
    | with_reducible apply kept_ite | with_reducible apply kept_foldl | with_reducible apply kept_foldl_fst
    | with_reducible exact fits_PortDie (fits_same _ _) | with_reducible exact fits_PortDie (fits_upd _ _ _ _)
    | with_reducible exact fits_PortDie (fits_set _ _ _ _) | with_reducible exact fits_PortDie (fits_map _ _ _)
    | with_reducible exact fits_PortDie (fits_replicate _ _ _) | with_reducible exact fits_same _ _
    | with_reducible exact fits_upd _ _ _ _ | with_reducible exact fits_set _ _ _ _
    | with_reducible exact fits_map _ _ _ | with_reducible exact fits_replicate _ _ _
    | with_reducible exact fun _ => fits_PortDie (fits_same _ _)
    | with_reducible exact fun _ => fits_PortDie (fits_upd _ _ _ _)
    | with_reducible exact fun _ => fits_PortDie (fits_set _ _ _ _)
    | with_reducible exact fun _ => fits_PortDie (fits_map _ _ _)
    | with_reducible exact fun _ => fits_PortDie (fits_replicate _ _ _)
    | with_reducible exact fun _ => fits_same _ _ | with_reducible exact fun _ => fits_upd _ _ _ _
    | with_reducible exact fun _ => fits_set _ _ _ _ | with_reducible exact fun _ => fits_map _ _ _
    | with_reducible exact fun _ => fits_replicate _ _ _ | dsimp only

theorem kept_domUp (hP : Closed F P) (hpwr : F .pwr) (hports : F .ports) (hkisl : F .kisl) (hlinks : F .links) (hpke
    : F .pke) (s : State) (dom : Nat) (h0 : P s) : P (domUp s dom) := by
  unfold domUp
  try dsimp only
  repeat' first
    | with_reducible assumption | with_reducible apply kept_domRebuild hP hports hkisl hlinks hpke
    | with_reducible apply kept_updPwr hP hpwr | with_reducible apply kept_wipeDomain hP | dsimp only

theorem kept_execDomainOn (hP : Closed F P) (hpwr : F .pwr) (hports : F .ports) (hkisl : F .kisl) (hlinks : F
    .links) (hpke : F .pke) (dom : Fin 15) (s : State) (h0 : P s) : After P (execDomainOn dom s) := by
  unfold execDomainOn
  try dsimp only
  repeat' first
    | with_reducible assumption | with_reducible apply kept_domUp hP hpwr hports hkisl hlinks hpke
    | with_reducible apply kept_ite | with_reducible apply after_next | with_reducible apply after_ite | dsimp only

theorem kept_domReq (hP : Closed F P) (hpwr : F .pwr) (hdsc : F .dsc) (hmck : F .mck) (hrad : F .rad) (hports : F
    .ports) (hkisl : F .kisl) (hlinks : F .links) (hpke : F .pke) (hrings : F .rings) (hharts : F .harts) (hage : F
    .age) (s : State) (v : Nat) (h0 : P s) : P (domReq s v) := by
  unfold domReq
  try dsimp only
  repeat' first
    | with_reducible assumption | intro _
    | with_reducible apply kept_domOff hP hpwr hdsc hmck hrad hports hkisl hlinks hpke hrings hharts hage
    | with_reducible apply kept_hcFollow hP hpwr hdsc hmck hrad hports hkisl hlinks hpke hrings hharts hage
    | with_reducible apply kept_updPwr hP hpwr | with_reducible apply kept_wrN hP | with_reducible apply kept_ite
    | with_reducible apply kept_foldl | with_reducible apply kept_foldl_fst | dsimp only

theorem kept_execDomReqWrite (hP : Closed F P) (hpwr : F .pwr) (hdsc : F .dsc) (hmck : F .mck) (hrad : F .rad)
    (hports : F .ports) (hkisl : F .kisl) (hlinks : F .links) (hpke : F .pke) (hrings : F .rings) (hharts : F .harts)
    (hage : F .age) (r : Requester) (v : Word) (s : State) (h0 : P s) : After P (execDomReqWrite r v s) := by
  unfold execDomReqWrite
  try dsimp only
  repeat' first
    | with_reducible assumption | intro _ | with_reducible apply kept_deny hP
    | with_reducible apply kept_domReq hP hpwr hdsc hmck hrad hports hkisl hlinks hpke hrings hharts hage
    | with_reducible apply kept_onWrite hP | with_reducible apply kept_ite | with_reducible apply after_next
    | with_reducible apply after_ite | dsimp only

theorem kept_execHartHalted (hP : Closed F P) (hpwr : F .pwr) (hdsc : F .dsc) (hmck : F .mck) (hrad : F .rad)
    (hports : F .ports) (hkisl : F .kisl) (hlinks : F .links) (hpke : F .pke) (hrings : F .rings) (hharts : F .harts)
    (hage : F .age) (h : Fin 6) (s : State) (h0 : P s) : After P (execHartHalted h s) := by
  unfold execHartHalted
  try dsimp only
  repeat' first
    | with_reducible assumption | with_reducible apply kept_haltHart hP hharts
    | with_reducible apply kept_hcFollow hP hpwr hdsc hmck hrad hports hkisl hlinks hpke hrings hharts hage
    | with_reducible apply kept_raise hP | with_reducible apply kept_showHarts hP | with_reducible apply kept_ite
    | with_reducible apply after_next | with_reducible apply after_ite | dsimp only

/-! ### Tst -/

theorem kept_showActiveTst (hP : Closed F P) (s : State) (die : Nat) (h0 : P s) : P (showActiveTst s die) := by
  unfold showActiveTst
  try dsimp only
  repeat' first
    | with_reducible assumption | with_reducible apply kept_put hP | with_reducible apply kept_raise hP
    | with_reducible apply kept_record hP | with_reducible apply kept_ite | dsimp only

theorem kept_loopFollow (hP : Closed F P) (hmck : F .mck) (hports : F .ports) (hrings : F .rings) (before : State)
    (s : State) (d : Nat) (h0 : P before) (h1 : P s) : P (loopFollow before s d) := by
  unfold loopFollow
  try dsimp only
  repeat' first
    | with_reducible assumption | intro _ | with_reducible apply kept_linkFall hP hmck hports hrings
    | with_reducible apply kept_ite | with_reducible apply kept_foldl | with_reducible apply kept_foldl_fst
    | dsimp only

theorem kept_tstFollow (hP : Closed F P) (hmck : F .mck) (hports : F .ports) (hkisl : F .kisl) (hlinks : F .links)
    (hrings : F .rings) (before : State) (s : State) (die : Nat) (h0 : P before) (h1 : P s) : P (tstFollow before s die)
    := by
  unfold tstFollow
  try dsimp only
  repeat' first
    | with_reducible assumption | intro _ | with_reducible apply kept_askLeave hP hkisl hlinks
    | with_reducible apply kept_loopFollow hP hmck hports hrings | with_reducible apply kept_noteDoubt hP
    | with_reducible apply kept_putB hP | with_reducible apply kept_showActiveTst hP
    | with_reducible apply kept_showTimed hP | with_reducible apply kept_ite | with_reducible apply kept_foldl
    | with_reducible apply kept_foldl_fst | dsimp only

theorem kept_tstLock (hP : Closed F P) (hmck : F .mck) (hports : F .ports) (hkisl : F .kisl) (hlinks : F .links)
    (hrings : F .rings) (s : State) (die : Nat) (h0 : P s) : P (tstLock s die) := by
  unfold tstLock
  try dsimp only
  repeat' first
    | with_reducible assumption | with_reducible apply kept_putB hP | with_reducible apply kept_sweep hP
    | with_reducible apply kept_tstFollow hP hmck hports hkisl hlinks hrings
    | with_reducible apply kept_updPd hP hports | with_reducible apply kept_ite
    | with_reducible exact fits_PortDie (fits_same _ _) | with_reducible exact fits_PortDie (fits_upd _ _ _ _)
    | with_reducible exact fits_PortDie (fits_set _ _ _ _) | with_reducible exact fits_PortDie (fits_map _ _ _)
    | with_reducible exact fits_PortDie (fits_replicate _ _ _) | with_reducible exact fits_same _ _
    | with_reducible exact fits_upd _ _ _ _ | with_reducible exact fits_set _ _ _ _
    | with_reducible exact fits_map _ _ _ | with_reducible exact fits_replicate _ _ _
    | with_reducible exact fun _ => fits_PortDie (fits_same _ _)
    | with_reducible exact fun _ => fits_PortDie (fits_upd _ _ _ _)
    | with_reducible exact fun _ => fits_PortDie (fits_set _ _ _ _)
    | with_reducible exact fun _ => fits_PortDie (fits_map _ _ _)
    | with_reducible exact fun _ => fits_PortDie (fits_replicate _ _ _)
    | with_reducible exact fun _ => fits_same _ _ | with_reducible exact fun _ => fits_upd _ _ _ _
    | with_reducible exact fun _ => fits_set _ _ _ _ | with_reducible exact fun _ => fits_map _ _ _
    | with_reducible exact fun _ => fits_replicate _ _ _ | dsimp only

theorem kept_tstLockAll (hP : Closed F P) (hmck : F .mck) (hports : F .ports) (hkisl : F .kisl) (hlinks : F .links)
    (hrings : F .rings) (hunlock : F .unlock) (s : State) (h0 : P s) : P (tstLockAll s) := by
  unfold tstLockAll
  try dsimp only
  repeat' first
    | with_reducible assumption | intro _ | with_reducible apply kept_tstLock hP hmck hports hkisl hlinks hrings
    | with_reducible apply kept_ite | with_reducible apply kept_foldl | with_reducible apply kept_foldl_fst
    | with_reducible exact Or.inr hmck | with_reducible exact Or.inr hports | with_reducible exact Or.inr hkisl
    | with_reducible exact Or.inr hlinks | with_reducible exact Or.inr hrings | with_reducible exact Or.inr hunlock
    | with_reducible exact Or.inl rfl | with_reducible apply hP.others | with_reducible exact fits_same _ _
    | with_reducible exact fits_upd _ _ _ _ | with_reducible exact fits_set _ _ _ _
    | with_reducible exact fits_map _ _ _ | with_reducible exact fits_replicate _ _ _
    | with_reducible exact fitsMck_same _ | with_reducible exact fun _ => fits_same _ _
    | with_reducible exact fun _ => fits_upd _ _ _ _ | with_reducible exact fun _ => fits_set _ _ _ _
    | with_reducible exact fun _ => fits_map _ _ _ | with_reducible exact fun _ => fits_replicate _ _ _ | dsimp only

theorem kept_tstUnlock (hP : Closed F P) (hmck : F .mck) (hports : F .ports) (hkisl : F .kisl) (hlinks : F .links)
    (hrings : F .rings) (hunlock : F .unlock) (s : State) (r : Requester) (die : Nat) (key : Nat) (h0 : P s) : P
    (tstUnlock s r die key) := by
  unfold tstUnlock
  try dsimp only
  repeat' first
    | with_reducible assumption | with_reducible apply kept_bump hP | with_reducible apply kept_putB hP
    | with_reducible apply kept_tstFollow hP hmck hports hkisl hlinks hrings | with_reducible apply kept_ite
    | with_reducible exact Or.inr hmck | with_reducible exact Or.inr hports | with_reducible exact Or.inr hkisl
    | with_reducible exact Or.inr hlinks | with_reducible exact Or.inr hrings | with_reducible exact Or.inr hunlock
    | with_reducible exact Or.inl rfl | with_reducible apply hP.others | with_reducible exact fits_same _ _
    | with_reducible exact fits_upd _ _ _ _ | with_reducible exact fits_set _ _ _ _
    | with_reducible exact fits_map _ _ _ | with_reducible exact fits_replicate _ _ _
    | with_reducible exact fitsMck_same _ | with_reducible exact fun _ => fits_same _ _
    | with_reducible exact fun _ => fits_upd _ _ _ _ | with_reducible exact fun _ => fits_set _ _ _ _
    | with_reducible exact fun _ => fits_map _ _ _ | with_reducible exact fun _ => fits_replicate _ _ _ | dsimp only

theorem kept_execTstUnlock (hP : Closed F P) (hmck : F .mck) (hports : F .ports) (hkisl : F .kisl) (hlinks : F
    .links) (hrings : F .rings) (hunlock : F .unlock) (r : Requester) (die : Fin 8) (v : Word) (s : State) (h0 : P s) :
    After P (execTstUnlock r die v s) := by
  unfold execTstUnlock
  try dsimp only
  repeat' first
    | with_reducible assumption | intro _ | with_reducible apply kept_onWrite hP
    | with_reducible apply kept_tstUnlock hP hmck hports hkisl hlinks hrings hunlock
    | with_reducible apply after_next | dsimp only

theorem kept_tstWrite (hP : Closed F P) (hmck : F .mck) (hports : F .ports) (hkisl : F .kisl) (hlinks : F .links)
    (hrings : F .rings) (s : State) (die : Nat) (f : State → State) (h0 : P s) (h1 : ∀ y0, P y0 → P (f y0)) : P
    (tstWrite s die f) := by
  unfold tstWrite
  try dsimp only
  repeat' first
    | with_reducible assumption | with_reducible apply h1 | with_reducible apply kept_bump hP
    | with_reducible apply kept_tstFollow hP hmck hports hkisl hlinks hrings | with_reducible apply kept_ite
    | dsimp only

theorem kept_execRelock (hP : Closed F P) (hmck : F .mck) (hports : F .ports) (hkisl : F .kisl) (hlinks : F .links)
    (hrings : F .rings) (r : Requester) (die : Fin 8) (s : State) (h0 : P s) : After P (execRelock r die s) := by
  unfold execRelock
  try dsimp only
  repeat' first
    | with_reducible assumption | intro _ | with_reducible apply kept_onWrite hP
    | with_reducible apply kept_tstLock hP hmck hports hkisl hlinks hrings
    | with_reducible apply kept_tstWrite hP hmck hports hkisl hlinks hrings | with_reducible apply after_next
    | dsimp only

theorem kept_execDoubtInjWrite (hP : Closed F P) (hmck : F .mck) (hports : F .ports) (hkisl : F .kisl) (hlinks : F
    .links) (hrings : F .rings) (r : Requester) (die : Fin 8) (v : Word) (s : State) (h0 : P s) : After P
    (execDoubtInjWrite r die v s) := by
  unfold execDoubtInjWrite
  try dsimp only
  repeat' first
    | with_reducible assumption | intro _ | with_reducible apply kept_onWrite hP
    | with_reducible apply kept_tstWrite hP hmck hports hkisl hlinks hrings | with_reducible apply kept_wrN hP
    | with_reducible apply after_next | dsimp only

theorem kept_tileInj (hP : Closed F P) (hports : F .ports) (s : State) (die : Nat) (v : Nat) (h0 : P s) : P (tileInj
    s die v) := by
  unfold tileInj
  try dsimp only
  repeat' first
    | with_reducible assumption | with_reducible apply kept_put hP | with_reducible apply kept_putB hP
    | with_reducible apply kept_updPd hP hports | with_reducible apply kept_ite
    | with_reducible exact fits_PortDie (fits_same _ _) | with_reducible exact fits_PortDie (fits_upd _ _ _ _)
    | with_reducible exact fits_PortDie (fits_set _ _ _ _) | with_reducible exact fits_PortDie (fits_map _ _ _)
    | with_reducible exact fits_PortDie (fits_replicate _ _ _) | with_reducible exact fits_same _ _
    | with_reducible exact fits_upd _ _ _ _ | with_reducible exact fits_set _ _ _ _
    | with_reducible exact fits_map _ _ _ | with_reducible exact fits_replicate _ _ _
    | with_reducible exact fun _ => fits_PortDie (fits_same _ _)
    | with_reducible exact fun _ => fits_PortDie (fits_upd _ _ _ _)
    | with_reducible exact fun _ => fits_PortDie (fits_set _ _ _ _)
    | with_reducible exact fun _ => fits_PortDie (fits_map _ _ _)
    | with_reducible exact fun _ => fits_PortDie (fits_replicate _ _ _)
    | with_reducible exact fun _ => fits_same _ _ | with_reducible exact fun _ => fits_upd _ _ _ _
    | with_reducible exact fun _ => fits_set _ _ _ _ | with_reducible exact fun _ => fits_map _ _ _
    | with_reducible exact fun _ => fits_replicate _ _ _ | dsimp only

theorem kept_execTileInjArm (hP : Closed F P) (hmck : F .mck) (hports : F .ports) (hkisl : F .kisl) (hlinks : F
    .links) (hrings : F .rings) (r : Requester) (d : Fin 4) (v : Word) (s : State) (h0 : P s) : After P (execTileInjArm
    r d v s) := by
  unfold execTileInjArm
  try dsimp only
  repeat' first
    | with_reducible assumption | intro _ | with_reducible apply kept_onWrite hP
    | with_reducible apply kept_tileInj hP hports
    | with_reducible apply kept_tstWrite hP hmck hports hkisl hlinks hrings | with_reducible apply after_next
    | dsimp only

theorem kept_execBackpressurePeriod (hP : Closed F P) (hports : F .ports) (d : Fin 4) (s : State) (h0 : P s) : After
    P (execBackpressurePeriod d s) := by
  unfold execBackpressurePeriod
  try dsimp only
  repeat' first
    | with_reducible assumption | intro _ | with_reducible apply kept_keepWire hP hports
    | with_reducible apply kept_ite | with_reducible apply kept_foldl | with_reducible apply kept_foldl_fst
    | with_reducible apply after_next | with_reducible apply after_ite | dsimp only

theorem kept_execTapInstruction (hP : Closed F P) (htap : F .tap) (code : Option (BitVec 8)) (s : State) (h0 : P s)
    : After P (execTapInstruction code s) := by
  unfold execTapInstruction
  try dsimp only
  repeat' first
    | with_reducible assumption | with_reducible apply after_next | with_reducible exact Or.inr htap
    | with_reducible exact Or.inl rfl | with_reducible apply hP.others | with_reducible exact fits_same _ _
    | with_reducible exact fits_upd _ _ _ _ | with_reducible exact fits_set _ _ _ _
    | with_reducible exact fits_map _ _ _ | with_reducible exact fits_replicate _ _ _
    | with_reducible exact fitsMck_same _ | with_reducible exact fun _ => fits_same _ _
    | with_reducible exact fun _ => fits_upd _ _ _ _ | with_reducible exact fun _ => fits_set _ _ _ _
    | with_reducible exact fun _ => fits_map _ _ _ | with_reducible exact fun _ => fits_replicate _ _ _ | split
    | dsimp only

end Sys2Proof.Machine
end

