-- ==== Sys2Proof/Laws/KeptHost.lean ====
section
/-! SUPPORT. A property that survives the changes of Closed survives every function of: the boot ROM, the fabric, the recorder, snapshots, the host interface and navigation. -/

set_option linter.unusedTactic false
set_option linter.unreachableTactic false
set_option linter.unusedVariables false

namespace Sys2Proof.Machine

variable {F : Part → Prop} {P : State → Prop}

/-! ### Boot -/

theorem kept_updBoot (hP : Closed F P) (hboot : F .boot) (s : State) (f : Boot → Boot) (h0 : P s) : P (updBoot s f)
    := by
  unfold updBoot
  try dsimp only
  repeat' first
    | with_reducible assumption | with_reducible exact Or.inr hboot | with_reducible exact Or.inl rfl
    | with_reducible apply hP.others | with_reducible exact fits_same _ _ | with_reducible exact fits_upd _ _ _ _
    | with_reducible exact fits_set _ _ _ _ | with_reducible exact fits_map _ _ _
    | with_reducible exact fits_replicate _ _ _ | with_reducible exact fitsMck_same _
    | with_reducible exact fun _ => fits_same _ _ | with_reducible exact fun _ => fits_upd _ _ _ _
    | with_reducible exact fun _ => fits_set _ _ _ _ | with_reducible exact fun _ => fits_map _ _ _
    | with_reducible exact fun _ => fits_replicate _ _ _ | dsimp only

theorem kept_loadSegs (hP : Closed F P) (hcore : F .core) (hharts : F .harts) (l : List (Nat × Nat)) (p : List Byte) (s : State) (h : P s) : P (loadSegs l p s) := by
  induction l generalizing p s with
  | nil => exact h
  | cons e t ih => exact ih _ _ (kept_writeCore hP hcore hharts _ _ _ h)

theorem kept_zeroSegs (hP : Closed F P) (hcore : F .core) (hharts : F .harts) (s : State) (segs : List (Nat × Nat))
    (h0 : P s) : P (zeroSegs s segs) := by
  unfold zeroSegs
  try dsimp only
  repeat' first
    | with_reducible assumption | intro _ | with_reducible apply kept_writeCore hP hcore hharts
    | with_reducible apply kept_foldl | with_reducible apply kept_foldl_fst | dsimp only

theorem kept_logTry (hP : Closed F P) (s : State) (src : Nat) (code : Nat) (h0 : P s) : P (logTry s src code) := by
  unfold logTry
  try dsimp only
  repeat' first
    | with_reducible assumption | with_reducible apply kept_put hP | dsimp only

theorem kept_acceptImage (hP : Closed F P) (hcore : F .core) (hharts : F .harts) (hboot : F .boot) (s : State) (src
    : Nat) (image : List Byte) (h0 : P s) : P (acceptImage s src image) := by
  unfold acceptImage
  try dsimp only
  repeat' first
    | with_reducible assumption | with_reducible apply kept_hartStart hP hharts
    | with_reducible apply kept_loadSegs hP hcore hharts | with_reducible apply kept_logTry hP
    | with_reducible apply kept_put hP | with_reducible apply kept_putB hP | with_reducible apply kept_record hP
    | with_reducible apply kept_showHarts hP | with_reducible apply kept_updBoot hP hboot
    | with_reducible apply kept_wrN hP | dsimp only

theorem kept_rejectImage (hP : Closed F P) (hcore : F .core) (hharts : F .harts) (hboot : F .boot) (s : State) (src
    : Nat) (image : List Byte) (code : Nat) (h0 : P s) : P (rejectImage s src image code) := by
  unfold rejectImage
  try dsimp only
  repeat' first
    | with_reducible assumption | with_reducible apply kept_logTry hP | with_reducible apply kept_putB hP
    | with_reducible apply kept_updBoot hP hboot | with_reducible apply kept_zeroSegs hP hcore hharts
    | with_reducible apply kept_ite | dsimp only

theorem kept_execImageCheck (hP : Closed F P) (hcore : F .core) (hharts : F .harts) (hboot : F .boot) (image : List
    Byte) (media : Bool) (s : State) (h0 : P s) : After P (execImageCheck image media s) := by
  unfold execImageCheck
  try dsimp only
  repeat' first
    | with_reducible assumption | with_reducible apply kept_acceptImage hP hcore hharts hboot
    | with_reducible apply kept_rejectImage hP hcore hharts hboot | with_reducible apply kept_ite
    | with_reducible apply after_next | with_reducible apply after_ite | split | dsimp only

theorem kept_bootTrims (hP : Closed F P) (s : State) (h0 : P s) : P (bootTrims s) := by
  unfold bootTrims
  try dsimp only
  repeat' first
    | with_reducible assumption | intro _ | with_reducible apply kept_put hP | with_reducible apply kept_foldl
    | with_reducible apply kept_foldl_fst | dsimp only

theorem kept_execBootRomStart (hP : Closed F P) (hharts : F .harts) (hboot : F .boot) (s : State) (h0 : P s) : After
    P (execBootRomStart s) := by
  unfold execBootRomStart
  try dsimp only
  repeat' first
    | with_reducible assumption | with_reducible apply kept_bootTrims hP
    | with_reducible apply kept_kickHart hP hharts | with_reducible apply kept_updBoot hP hboot
    | with_reducible apply kept_ite | with_reducible apply after_next | with_reducible apply after_ite | dsimp only

theorem kept_execNetbootRetry (hP : Closed F P) (hclk : F .clk) (hboot : F .boot) (tftp : Bool) (s : State) (h0 : P
    s) : After P (execNetbootRetry tftp s) := by
  unfold execNetbootRetry
  try dsimp only
  repeat' first
    | with_reducible assumption | with_reducible apply kept_advMono hP hclk
    | with_reducible apply kept_updBoot hP hboot | with_reducible apply kept_ite | with_reducible apply after_next
    | with_reducible apply after_ite | dsimp only

theorem kept_execBootFail (hP : Closed F P) (hboot : F .boot) (s : State) (h0 : P s) : After P (execBootFail s) :=
    by
  unfold execBootFail
  try dsimp only
  repeat' first
    | with_reducible assumption | with_reducible apply kept_putB hP | with_reducible apply kept_record hP
    | with_reducible apply kept_updBoot hP hboot | with_reducible apply kept_ite | with_reducible apply after_next
    | with_reducible apply after_ite | dsimp only

theorem kept_loadGo (hP : Closed F P) (hboot : F .boot) (s : State) (h0 : P s) : P (loadGo s) := by
  unfold loadGo
  try dsimp only
  repeat' first
    | with_reducible assumption | with_reducible apply kept_putB hP | with_reducible apply kept_updBoot hP hboot
    | with_reducible apply kept_ite | dsimp only

theorem kept_startFuse (hP : Closed F P) (hboot : F .boot) (s : State) (f : Nat) (h0 : P s) : P (startFuse s f) :=
    by
  unfold startFuse
  try dsimp only
  repeat' first
    | with_reducible assumption | with_reducible apply kept_putB hP | with_reducible apply kept_updBoot hP hboot
    | dsimp only

theorem kept_commitRb (hP : Closed F P) (hboot : F .boot) (s : State) (h0 : P s) : P (commitRb s) := by
  unfold commitRb
  try dsimp only
  repeat' first
    | with_reducible assumption | with_reducible apply kept_startFuse hP hboot | with_reducible apply kept_ite
    | dsimp only

theorem kept_revokeKey (hP : Closed F P) (hboot : F .boot) (s : State) (k : Nat) (h0 : P s) : P (revokeKey s k) :=
    by
  unfold revokeKey
  try dsimp only
  repeat' first
    | with_reducible assumption | with_reducible apply kept_putB hP | with_reducible apply kept_raise hP
    | with_reducible apply kept_startFuse hP hboot | with_reducible apply kept_ite | dsimp only

theorem kept_bootCtrl (hP : Closed F P) (hboot : F .boot) (s0 : State) (r : Requester) (v : Nat) (h0 : P s0) : P
    (bootCtrl s0 r v) := by
  unfold bootCtrl
  try dsimp only
  repeat' first
    | with_reducible assumption | with_reducible apply kept_commitRb hP hboot | with_reducible apply kept_deny hP
    | with_reducible apply kept_loadGo hP hboot | with_reducible apply kept_putB hP
    | with_reducible apply kept_revokeKey hP hboot | with_reducible apply kept_ite | dsimp only

theorem kept_execLoadGo (hP : Closed F P) (hboot : F .boot) (r : Requester) (s : State) (h0 : P s) : After P
    (execLoadGo r s) := by
  unfold execLoadGo
  try dsimp only
  repeat' first
    | with_reducible assumption | intro _ | with_reducible apply kept_bootCtrl hP hboot
    | with_reducible apply kept_onWrite hP | with_reducible apply after_next | dsimp only

theorem kept_execCommitRb (hP : Closed F P) (hboot : F .boot) (r : Requester) (s : State) (h0 : P s) : After P
    (execCommitRb r s) := by
  unfold execCommitRb
  try dsimp only
  repeat' first
    | with_reducible assumption | intro _ | with_reducible apply kept_bootCtrl hP hboot
    | with_reducible apply kept_onWrite hP | with_reducible apply after_next | dsimp only

theorem kept_execRevoke (hP : Closed F P) (hboot : F .boot) (r : Requester) (key : Fin 4) (s : State) (h0 : P s) :
    After P (execRevoke r key s) := by
  unfold execRevoke
  try dsimp only
  repeat' first
    | with_reducible assumption | intro _ | with_reducible apply kept_bootCtrl hP hboot
    | with_reducible apply kept_onWrite hP | with_reducible apply after_next | dsimp only

theorem kept_execFuseWriteDone (hP : Closed F P) (hboot : F .boot) (s : State) (h0 : P s) : After P
    (execFuseWriteDone s) := by
  unfold execFuseWriteDone
  try dsimp only
  repeat' first
    | with_reducible assumption | with_reducible apply kept_put hP | with_reducible apply kept_putB hP
    | with_reducible apply kept_raise hP | with_reducible apply kept_updBoot hP hboot
    | with_reducible apply kept_ite | with_reducible apply after_next | with_reducible apply after_ite | split
    | dsimp only

/-! ### HifBase -/

theorem kept_vecsFall (hP : Closed F P) (hhif : F .hif) (s : State) (h0 : P s) : P (vecsFall s) := by
  unfold vecsFall
  try dsimp only
  repeat' first
    | with_reducible assumption | intro _ | with_reducible apply kept_foldl | with_reducible apply kept_foldl_fst
    | with_reducible exact Or.inr hhif | with_reducible exact Or.inl rfl | with_reducible apply hP.others
    | with_reducible exact fits_same _ _ | with_reducible exact fits_upd _ _ _ _
    | with_reducible exact fits_set _ _ _ _ | with_reducible exact fits_map _ _ _
    | with_reducible exact fits_replicate _ _ _ | with_reducible exact fitsMck_same _
    | with_reducible exact fun _ => fits_same _ _ | with_reducible exact fun _ => fits_upd _ _ _ _
    | with_reducible exact fun _ => fits_set _ _ _ _ | with_reducible exact fun _ => fits_map _ _ _
    | with_reducible exact fun _ => fits_replicate _ _ _ | dsimp only

/-! ### Fabric -/

theorem kept_hubTakesMsg (hP : Closed F P) (hfab : F .fab) (hhif : F .hif) (s : State) (die : Nat) (m : Nat × Nat ×
    Nat) (h0 : P s) : P (hubTakesMsg s die m) := by
  unfold hubTakesMsg
  try dsimp only
  repeat' first
    | with_reducible assumption | with_reducible apply kept_vecsFall hP hhif | with_reducible apply kept_wrN hP
    | with_reducible exact Or.inr hfab | with_reducible exact Or.inr hhif | with_reducible exact Or.inl rfl
    | with_reducible apply hP.others | with_reducible exact fits_same _ _ | with_reducible exact fits_upd _ _ _ _
    | with_reducible exact fits_set _ _ _ _ | with_reducible exact fits_map _ _ _
    | with_reducible exact fits_replicate _ _ _ | with_reducible exact fitsMck_same _
    | with_reducible exact fun _ => fits_same _ _ | with_reducible exact fun _ => fits_upd _ _ _ _
    | with_reducible exact fun _ => fits_set _ _ _ _ | with_reducible exact fun _ => fits_map _ _ _
    | with_reducible exact fun _ => fits_replicate _ _ _ | dsimp only

theorem kept_safTakesMsg (hP : Closed F P) (hsaf : F .saf) (s : State) (die : Nat) (m : Nat × Nat × Nat) (h0 : P s)
    : P (safTakesMsg s die m) := by
  unfold safTakesMsg
  try dsimp only
  repeat' first
    | with_reducible assumption | with_reducible apply kept_doubt hP | with_reducible apply kept_wrN hP
    | with_reducible apply kept_ite | with_reducible exact Or.inr hsaf | with_reducible exact Or.inl rfl
    | with_reducible apply hP.others | with_reducible exact fits_same _ _ | with_reducible exact fits_upd _ _ _ _
    | with_reducible exact fits_set _ _ _ _ | with_reducible exact fits_map _ _ _
    | with_reducible exact fits_replicate _ _ _ | with_reducible exact fitsMck_same _
    | with_reducible exact fun _ => fits_same _ _ | with_reducible exact fun _ => fits_upd _ _ _ _
    | with_reducible exact fun _ => fits_set _ _ _ _ | with_reducible exact fun _ => fits_map _ _ _
    | with_reducible exact fun _ => fits_replicate _ _ _ | dsimp only

theorem kept_sendDoubtMsg (hP : Closed F P) (hfab : F .fab) (hsaf : F .saf) (hhif : F .hif) (s : State) (die : Nat)
    (h0 : P s) : P (sendDoubtMsg s die) := by
  unfold sendDoubtMsg
  try dsimp only
  repeat' first
    | with_reducible assumption | with_reducible apply kept_hubTakesMsg hP hfab hhif
    | with_reducible apply kept_safTakesMsg hP hsaf | dsimp only

theorem kept_execDoubtMessage (hP : Closed F P) (hfab : F .fab) (hsaf : F .saf) (hhif : F .hif) (die : Fin 8) (s :
    State) (h0 : P s) : After P (execDoubtMessage die s) := by
  unfold execDoubtMessage
  try dsimp only
  repeat' first
    | with_reducible assumption | with_reducible apply kept_sendDoubtMsg hP hfab hsaf hhif
    | with_reducible apply kept_ite | with_reducible apply after_next | with_reducible apply after_ite | dsimp only

theorem kept_execDoubtMessageResend (hP : Closed F P) (hfab : F .fab) (hsaf : F .saf) (hhif : F .hif) (die : Fin 8)
    (s : State) (h0 : P s) : After P (execDoubtMessageResend die s) := by
  unfold execDoubtMessageResend
  try dsimp only
  repeat' first
    | with_reducible assumption | with_reducible apply kept_sendDoubtMsg hP hfab hsaf hhif
    | with_reducible apply kept_ite | with_reducible apply after_next | with_reducible apply after_ite | dsimp only

theorem kept_countRetries (hP : Closed F P) (s : State) (src : Nat) (crcFails : Nat) (h0 : P s) : P (countRetries s
    src crcFails) := by
  unfold countRetries
  try dsimp only
  repeat' first
    | with_reducible assumption | with_reducible apply kept_bumpBy hP | dsimp only

theorem kept_discardTransfer (hP : Closed F P) (s : State) (src : Nat) (read : Bool) (h0 : P s) : P (discardTransfer
    s src read) := by
  unfold discardTransfer
  try dsimp only
  repeat' first
    | with_reducible assumption | with_reducible apply kept_bump hP | with_reducible apply kept_doubt hP
    | with_reducible apply kept_putB hP | with_reducible apply kept_reply hP | with_reducible apply kept_ite
    | dsimp only

theorem kept_deliverTransfer (hP : Closed F P) (s : State) (src : Nat) (read : Bool) (latPs : Nat) (h0 : P s) : P
    (deliverTransfer s src read latPs) := by
  unfold deliverTransfer
  try dsimp only
  repeat' first
    | with_reducible assumption | with_reducible apply kept_doubt hP | with_reducible apply kept_maxF hP
    | with_reducible apply kept_putB hP | with_reducible apply kept_wrN hP | with_reducible apply kept_ite
    | dsimp only

theorem kept_execBlvTransfer (hP : Closed F P) (hfab : F .fab) (dst : Fin 8) (waiting : List (Fin 8 × BlvClass))
    (read : Bool) (crcFails : Nat) (latPs : Nat) (s : State) (h0 : P s) : After P (execBlvTransfer dst waiting read
    crcFails latPs s) := by
  unfold execBlvTransfer
  try dsimp only
  repeat' first
    | with_reducible assumption | with_reducible apply kept_countRetries hP
    | with_reducible apply kept_deliverTransfer hP | with_reducible apply kept_discardTransfer hP
    | with_reducible apply kept_ite | with_reducible apply after_next | with_reducible apply after_ite
    | with_reducible exact Or.inr hfab | with_reducible exact Or.inl rfl | with_reducible apply hP.others
    | with_reducible exact fits_same _ _ | with_reducible exact fits_upd _ _ _ _
    | with_reducible exact fits_set _ _ _ _ | with_reducible exact fits_map _ _ _
    | with_reducible exact fits_replicate _ _ _ | with_reducible exact fitsMck_same _
    | with_reducible exact fun _ => fits_same _ _ | with_reducible exact fun _ => fits_upd _ _ _ _
    | with_reducible exact fun _ => fits_set _ _ _ _ | with_reducible exact fun _ => fits_map _ _ _
    | with_reducible exact fun _ => fits_replicate _ _ _ | split | dsimp only

theorem kept_execIslXing (hP : Closed F P) (hfab : F .fab) (die : Fin 8) (toIsl : Fin 8) (s : State) (h0 : P s) :
    After P (execIslXing die toIsl s) := by
  unfold execIslXing
  try dsimp only
  repeat' first
    | with_reducible assumption | with_reducible apply kept_bump hP | with_reducible apply kept_doubt hP
    | with_reducible apply kept_ite | with_reducible apply after_next | with_reducible apply after_ite
    | with_reducible exact Or.inr hfab | with_reducible exact Or.inl rfl | with_reducible apply hP.others
    | with_reducible exact fits_same _ _ | with_reducible exact fits_upd _ _ _ _
    | with_reducible exact fits_set _ _ _ _ | with_reducible exact fits_map _ _ _
    | with_reducible exact fits_replicate _ _ _ | with_reducible exact fitsMck_same _
    | with_reducible exact fun _ => fits_same _ _ | with_reducible exact fun _ => fits_upd _ _ _ _
    | with_reducible exact fun _ => fits_set _ _ _ _ | with_reducible exact fun _ => fits_map _ _ _
    | with_reducible exact fun _ => fits_replicate _ _ _ | dsimp only

theorem kept_showMon (hP : Closed F P) (s : State) (die : Nat) (mv : List Nat) (temp : List Int) (h0 : P s) : P
    (showMon s die mv temp) := by
  unfold showMon
  try dsimp only
  repeat' first
    | with_reducible assumption | intro _ | with_reducible apply kept_wrN hP | with_reducible apply kept_foldl
    | with_reducible apply kept_foldl_fst | dsimp only

theorem kept_execIslMonitorJudge (hP : Closed F P) (hfab : F .fab) (die : Fin 8) (mv : List Nat) (temp : List Int)
    (neighbours : List (Fin 8 × Fin 8)) (xlat : Nat) (spread : Nat) (s : State) (h0 : P s) : After P
    (execIslMonitorJudge die mv temp neighbours xlat spread s) := by
  unfold execIslMonitorJudge
  try dsimp only
  repeat' first
    | with_reducible assumption | with_reducible apply kept_doubt hP | with_reducible apply kept_maxF hP
    | with_reducible apply kept_put hP | with_reducible apply kept_showMon hP | with_reducible apply kept_ite
    | with_reducible apply after_next | with_reducible apply after_ite | with_reducible exact Or.inr hfab
    | with_reducible exact Or.inl rfl | with_reducible apply hP.others | with_reducible exact fits_same _ _
    | with_reducible exact fits_upd _ _ _ _ | with_reducible exact fits_set _ _ _ _
    | with_reducible exact fits_map _ _ _ | with_reducible exact fits_replicate _ _ _
    | with_reducible exact fitsMck_same _ | with_reducible exact fun _ => fits_same _ _
    | with_reducible exact fun _ => fits_upd _ _ _ _ | with_reducible exact fun _ => fits_set _ _ _ _
    | with_reducible exact fun _ => fits_map _ _ _ | with_reducible exact fun _ => fits_replicate _ _ _ | dsimp only

/-! ### Record -/

theorem kept_execRecStage (hP : Closed F P) (die : Fin 8) (page : Fin 512) (code : Fin 4096) (sev : Fin 4) (a0 :
    Word) (a1 : Word) (cont : Option (Word × Word)) (s : State) (h0 : P s) : After P (execRecStage die page code sev a0
    a1 cont s) := by
  unfold execRecStage
  try dsimp only
  repeat' first
    | with_reducible assumption | with_reducible apply kept_stage hP | with_reducible apply after_next | split
    | dsimp only

theorem kept_showStore (hP : Closed F P) (s : State) (h0 : P s) : P (showStore s) := by
  unfold showStore
  try dsimp only
  repeat' first
    | with_reducible assumption | intro _ | with_reducible apply kept_put hP | with_reducible apply kept_putB hP
    | with_reducible apply kept_raiseIf hP | with_reducible apply kept_foldl | with_reducible apply kept_foldl_fst
    | dsimp only

theorem kept_writeSlot (hP : Closed F P) (s : State) (slot : Nat) (r : Recd) (h0 : P s) : P (writeSlot s slot r) :=
    by
  unfold writeSlot
  try dsimp only
  repeat' first
    | with_reducible assumption | with_reducible apply kept_put hP | with_reducible apply kept_wrN hP
    | with_reducible exact Or.inl rfl | with_reducible apply hP.others
    | with_reducible exact fits_Recorder (fits_same _ _) | with_reducible exact fits_Recorder (fits_upd _ _ _ _)
    | with_reducible exact fits_Recorder (fits_set _ _ _ _) | with_reducible exact fits_Recorder (fits_map _ _ _)
    | with_reducible exact fits_Recorder (fits_replicate _ _ _) | with_reducible exact fits_same _ _
    | with_reducible exact fits_upd _ _ _ _ | with_reducible exact fits_set _ _ _ _
    | with_reducible exact fits_map _ _ _ | with_reducible exact fits_replicate _ _ _
    | with_reducible exact fitsMck_same _ | with_reducible exact fun _ => fits_Recorder (fits_same _ _)
    | with_reducible exact fun _ => fits_Recorder (fits_upd _ _ _ _)
    | with_reducible exact fun _ => fits_Recorder (fits_set _ _ _ _)
    | with_reducible exact fun _ => fits_Recorder (fits_map _ _ _)
    | with_reducible exact fun _ => fits_Recorder (fits_replicate _ _ _)
    | with_reducible exact fun _ => fits_same _ _ | with_reducible exact fun _ => fits_upd _ _ _ _
    | with_reducible exact fun _ => fits_set _ _ _ _ | with_reducible exact fun _ => fits_map _ _ _
    | with_reducible exact fun _ => fits_replicate _ _ _ | dsimp only

theorem kept_storeDrop (hP : Closed F P) (s : State) (e : RecEntry) (h0 : P s) : P (storeDrop s e) := by
  unfold storeDrop
  try dsimp only
  repeat' first
    | with_reducible assumption | with_reducible apply kept_bumpBy hP | with_reducible apply kept_raise hP
    | dsimp only

theorem kept_writeEntry (hP : Closed F P) (s : State) (e : RecEntry) (h0 : P s) : P (writeEntry s e) := by
  unfold writeEntry
  try dsimp only
  repeat' first
    | with_reducible assumption | with_reducible apply kept_showStore hP | with_reducible apply kept_storeDrop hP
    | with_reducible apply kept_writeSlot hP | with_reducible apply kept_ite | split | dsimp only

theorem kept_execRecWrite (hP : Closed F P) (s : State) (h0 : P s) : After P (execRecWrite s) := by
  unfold execRecWrite
  try dsimp only
  repeat' first
    | with_reducible assumption | with_reducible apply kept_updBuf hP | with_reducible apply kept_writeEntry hP
    | with_reducible apply kept_ite | with_reducible apply after_next | with_reducible apply after_ite
    | with_reducible exact Or.inl rfl | with_reducible apply hP.others
    | with_reducible exact fits_Recorder (fits_same _ _) | with_reducible exact fits_Recorder (fits_upd _ _ _ _)
    | with_reducible exact fits_Recorder (fits_set _ _ _ _) | with_reducible exact fits_Recorder (fits_map _ _ _)
    | with_reducible exact fits_Recorder (fits_replicate _ _ _) | with_reducible exact fits_same _ _
    | with_reducible exact fits_upd _ _ _ _ | with_reducible exact fits_set _ _ _ _
    | with_reducible exact fits_map _ _ _ | with_reducible exact fits_replicate _ _ _
    | with_reducible exact fitsMck_same _ | with_reducible exact fun _ => fits_Recorder (fits_same _ _)
    | with_reducible exact fun _ => fits_Recorder (fits_upd _ _ _ _)
    | with_reducible exact fun _ => fits_Recorder (fits_set _ _ _ _)
    | with_reducible exact fun _ => fits_Recorder (fits_map _ _ _)
    | with_reducible exact fun _ => fits_Recorder (fits_replicate _ _ _)
    | with_reducible exact fun _ => fits_same _ _ | with_reducible exact fun _ => fits_upd _ _ _ _
    | with_reducible exact fun _ => fits_set _ _ _ _ | with_reducible exact fun _ => fits_map _ _ _
    | with_reducible exact fun _ => fits_replicate _ _ _ | split | dsimp only

theorem kept_execRepeated (hP : Closed F P) (hclk : F .clk) (src : Fin 14) (s : State) (h0 : P s) : After P
    (execRepeated src s) := by
  unfold execRepeated
  try dsimp only
  repeat' first
    | with_reducible assumption | with_reducible apply kept_advMono hP hclk | with_reducible apply kept_closeRun hP
    | with_reducible apply after_next | split | dsimp only

theorem kept_swCmd (hP : Closed F P) (s : State) (r : Requester) (code : Nat) (sev : Nat) (go : Bool) (h0 : P s) : P
    (swCmd s r code sev go) := by
  unfold swCmd
  try dsimp only
  repeat' first
    | with_reducible assumption | with_reducible apply kept_putQ hP | with_reducible apply kept_raise hP
    | with_reducible apply kept_stage hP | with_reducible apply kept_ite | dsimp only

theorem kept_execSwRecord (hP : Closed F P) (r : Requester) (code : BitVec 8) (sev : Fin 4) (s : State) (h0 : P s) :
    After P (execSwRecord r code sev s) := by
  unfold execSwRecord
  try dsimp only
  repeat' first
    | with_reducible assumption | intro _ | with_reducible apply kept_onWrite hP
    | with_reducible apply kept_swCmd hP | with_reducible apply after_next | dsimp only

theorem kept_recCtrl (hP : Closed F P) (s : State) (r : Requester) (clear : Bool) (sev : Nat) (h0 : P s) : P
    (recCtrl s r clear sev) := by
  unfold recCtrl
  try dsimp only
  repeat' first
    | with_reducible assumption | with_reducible apply kept_deny hP | with_reducible apply kept_put hP
    | with_reducible apply kept_putB hP | with_reducible apply kept_ite | with_reducible exact Or.inl rfl
    | with_reducible apply hP.others | with_reducible exact fits_Recorder (fits_same _ _)
    | with_reducible exact fits_Recorder (fits_upd _ _ _ _) | with_reducible exact fits_Recorder (fits_set _ _ _ _)
    | with_reducible exact fits_Recorder (fits_map _ _ _)
    | with_reducible exact fits_Recorder (fits_replicate _ _ _) | with_reducible exact fits_same _ _
    | with_reducible exact fits_upd _ _ _ _ | with_reducible exact fits_set _ _ _ _
    | with_reducible exact fits_map _ _ _ | with_reducible exact fits_replicate _ _ _
    | with_reducible exact fitsMck_same _ | with_reducible exact fun _ => fits_Recorder (fits_same _ _)
    | with_reducible exact fun _ => fits_Recorder (fits_upd _ _ _ _)
    | with_reducible exact fun _ => fits_Recorder (fits_set _ _ _ _)
    | with_reducible exact fun _ => fits_Recorder (fits_map _ _ _)
    | with_reducible exact fun _ => fits_Recorder (fits_replicate _ _ _)
    | with_reducible exact fun _ => fits_same _ _ | with_reducible exact fun _ => fits_upd _ _ _ _
    | with_reducible exact fun _ => fits_set _ _ _ _ | with_reducible exact fun _ => fits_map _ _ _
    | with_reducible exact fun _ => fits_replicate _ _ _ | dsimp only

theorem kept_execRecClear (hP : Closed F P) (r : Requester) (sev : Fin 4) (s : State) (h0 : P s) : After P
    (execRecClear r sev s) := by
  unfold execRecClear
  try dsimp only
  repeat' first
    | with_reducible assumption | intro _ | with_reducible apply kept_onWrite hP
    | with_reducible apply kept_recCtrl hP | with_reducible apply after_next | dsimp only

theorem kept_execRecCleared (hP : Closed F P) (s : State) (h0 : P s) : After P (execRecCleared s) := by
  unfold execRecCleared
  try dsimp only
  repeat' first
    | with_reducible assumption | with_reducible apply kept_putB hP | with_reducible apply kept_raise hP
    | with_reducible apply kept_showStore hP | with_reducible apply kept_writeEntry hP
    | with_reducible apply after_next | with_reducible exact Or.inl rfl | with_reducible apply hP.others
    | with_reducible exact fits_Recorder (fits_same _ _) | with_reducible exact fits_Recorder (fits_upd _ _ _ _)
    | with_reducible exact fits_Recorder (fits_set _ _ _ _) | with_reducible exact fits_Recorder (fits_map _ _ _)
    | with_reducible exact fits_Recorder (fits_replicate _ _ _) | with_reducible exact fits_same _ _
    | with_reducible exact fits_upd _ _ _ _ | with_reducible exact fits_set _ _ _ _
    | with_reducible exact fits_map _ _ _ | with_reducible exact fits_replicate _ _ _
    | with_reducible exact fitsMck_same _ | with_reducible exact fun _ => fits_Recorder (fits_same _ _)
    | with_reducible exact fun _ => fits_Recorder (fits_upd _ _ _ _)
    | with_reducible exact fun _ => fits_Recorder (fits_set _ _ _ _)
    | with_reducible exact fun _ => fits_Recorder (fits_map _ _ _)
    | with_reducible exact fun _ => fits_Recorder (fits_replicate _ _ _)
    | with_reducible exact fun _ => fits_same _ _ | with_reducible exact fun _ => fits_upd _ _ _ _
    | with_reducible exact fun _ => fits_set _ _ _ _ | with_reducible exact fun _ => fits_map _ _ _
    | with_reducible exact fun _ => fits_replicate _ _ _ | split | dsimp only

theorem kept_stagingLost (hP : Closed F P) (s : State) (h0 : P s) : P (stagingLost s) := by
  unfold stagingLost
  try dsimp only
  repeat' first
    | with_reducible assumption | with_reducible exact Or.inl rfl | with_reducible apply hP.others
    | with_reducible exact fits_Recorder (fits_same _ _) | with_reducible exact fits_Recorder (fits_upd _ _ _ _)
    | with_reducible exact fits_Recorder (fits_set _ _ _ _) | with_reducible exact fits_Recorder (fits_map _ _ _)
    | with_reducible exact fits_Recorder (fits_replicate _ _ _) | with_reducible exact fits_same _ _
    | with_reducible exact fits_upd _ _ _ _ | with_reducible exact fits_set _ _ _ _
    | with_reducible exact fits_map _ _ _ | with_reducible exact fits_replicate _ _ _
    | with_reducible exact fitsMck_same _ | with_reducible exact fun _ => fits_Recorder (fits_same _ _)
    | with_reducible exact fun _ => fits_Recorder (fits_upd _ _ _ _)
    | with_reducible exact fun _ => fits_Recorder (fits_set _ _ _ _)
    | with_reducible exact fun _ => fits_Recorder (fits_map _ _ _)
    | with_reducible exact fun _ => fits_Recorder (fits_replicate _ _ _)
    | with_reducible exact fun _ => fits_same _ _ | with_reducible exact fun _ => fits_upd _ _ _ _
    | with_reducible exact fun _ => fits_set _ _ _ _ | with_reducible exact fun _ => fits_map _ _ _
    | with_reducible exact fun _ => fits_replicate _ _ _ | dsimp only

/-! ### Snapshot -/

theorem kept_armCapture (hP : Closed F P) (hrad : F .rad) (s : State) (slot : Nat) (len : Nat) (target : PC64) (auto
    : Bool) (h0 : P s) : P (armCapture s slot len target auto) := by
  unfold armCapture
  try dsimp only
  repeat' first
    | with_reducible assumption | with_reducible apply kept_bump hP | with_reducible apply kept_put hP
    | with_reducible apply kept_putB hP | with_reducible apply kept_raise hP
    | with_reducible apply kept_updRad hP hrad | with_reducible apply kept_ite | dsimp only

theorem kept_clearArm (hP : Closed F P) (hpwr : F .pwr) (hdsc : F .dsc) (hrad : F .rad) (s : State) (h0 : P s) : P
    (clearArm s) := by
  unfold clearArm
  try dsimp only
  repeat' first
    | with_reducible assumption | with_reducible apply kept_gfFollow hP hpwr hdsc hrad
    | with_reducible apply kept_putB hP | with_reducible apply kept_updRad hP hrad | dsimp only

theorem kept_storeSamples (hP : Closed F P) (hrad : F .rad) (s : State) (slot : Nat) (l : List Byte) (h0 : P s) : P
    (storeSamples s slot l) := by
  unfold storeSamples
  try dsimp only
  repeat' first
    | with_reducible assumption | intro _ | with_reducible apply kept_updRad hP hrad | with_reducible apply kept_ite
    | with_reducible apply kept_foldl | with_reducible apply kept_foldl_fst | dsimp only

theorem kept_endCapture (hP : Closed F P) (hpwr : F .pwr) (hdsc : F .dsc) (hrad : F .rad) (s : State) (a : SnapArm)
    (samples : List Byte) (bad : Bool) (h0 : P s) : P (endCapture s a samples bad) := by
  unfold endCapture
  try dsimp only
  repeat' first
    | with_reducible assumption | with_reducible apply kept_bump hP
    | with_reducible apply kept_clearArm hP hpwr hdsc hrad | with_reducible apply kept_put hP
    | with_reducible apply kept_putB hP | with_reducible apply kept_raise hP | with_reducible apply kept_raiseIf hP
    | with_reducible apply kept_storeSamples hP hrad | with_reducible apply kept_ite | dsimp only

theorem kept_spoilCapture (hP : Closed F P) (hpwr : F .pwr) (hdsc : F .dsc) (hrad : F .rad) (s : State) (taken :
    List Byte) (h0 : P s) : P (spoilCapture s taken) := by
  unfold spoilCapture
  try dsimp only
  repeat' first
    | with_reducible assumption | with_reducible apply kept_endCapture hP hpwr hdsc hrad
    | with_reducible apply kept_ite | split | dsimp only

theorem kept_disarm (hP : Closed F P) (hpwr : F .pwr) (hdsc : F .dsc) (hrad : F .rad) (s : State) (a : SnapArm) (h0
    : P s) : P (disarm s a) := by
  unfold disarm
  try dsimp only
  repeat' first
    | with_reducible assumption | with_reducible apply kept_clearArm hP hpwr hdsc hrad
    | with_reducible apply kept_put hP | dsimp only

theorem kept_snpCtrl (hP : Closed F P) (hpwr : F .pwr) (hdsc : F .dsc) (hrad : F .rad) (s : State) (n : Nat) (taken
    : List Byte) (h0 : P s) : P (snpCtrl s n taken) := by
  unfold snpCtrl
  try dsimp only
  repeat' first
    | with_reducible assumption | with_reducible apply kept_armCapture hP hrad
    | with_reducible apply kept_disarm hP hpwr hdsc hrad | with_reducible apply kept_endCapture hP hpwr hdsc hrad
    | with_reducible apply kept_putB hP | with_reducible apply kept_ite | split | dsimp only

theorem kept_execSnpArm (hP : Closed F P) (hpwr : F .pwr) (hdsc : F .dsc) (hrad : F .rad) (r : Requester) (v : Word)
    (s : State) (h0 : P s) : After P (execSnpArm r v s) := by
  unfold execSnpArm
  try dsimp only
  repeat' first
    | with_reducible assumption | intro _ | with_reducible apply kept_onWrite hP
    | with_reducible apply kept_snpCtrl hP hpwr hdsc hrad | with_reducible apply after_next | dsimp only

theorem kept_execSnpCancel (hP : Closed F P) (hpwr : F .pwr) (hdsc : F .dsc) (hrad : F .rad) (r : Requester) (v :
    Word) (taken : List Byte) (s : State) (h0 : P s) : After P (execSnpCancel r v taken s) := by
  unfold execSnpCancel
  try dsimp only
  repeat' first
    | with_reducible assumption | intro _ | with_reducible apply kept_onWrite hP
    | with_reducible apply kept_snpCtrl hP hpwr hdsc hrad | with_reducible apply after_next | dsimp only

theorem kept_execSnpHold (hP : Closed F P) (hpwr : F .pwr) (hdsc : F .dsc) (hrad : F .rad) (r : Requester) (v :
    Word) (s : State) (h0 : P s) : After P (execSnpHold r v s) := by
  unfold execSnpHold
  try dsimp only
  repeat' first
    | with_reducible assumption | intro _ | with_reducible apply kept_onWrite hP
    | with_reducible apply kept_snpCtrl hP hpwr hdsc hrad | with_reducible apply after_next | dsimp only

theorem kept_execSnpRelease (hP : Closed F P) (hpwr : F .pwr) (hdsc : F .dsc) (hrad : F .rad) (r : Requester) (v :
    Word) (s : State) (h0 : P s) : After P (execSnpRelease r v s) := by
  unfold execSnpRelease
  try dsimp only
  repeat' first
    | with_reducible assumption | intro _ | with_reducible apply kept_onWrite hP
    | with_reducible apply kept_snpCtrl hP hpwr hdsc hrad | with_reducible apply after_next | dsimp only

theorem kept_execSnpAutoArm (hP : Closed F P) (hclk : F .clk) (hrad : F .rad) (s : State) (h0 : P s) : After P
    (execSnpAutoArm s) := by
  unfold execSnpAutoArm
  try dsimp only
  repeat' first
    | with_reducible assumption | with_reducible apply kept_advT96 hP hclk
    | with_reducible apply kept_armCapture hP hrad | with_reducible apply kept_updRad hP hrad
    | with_reducible apply kept_ite | with_reducible apply after_next | with_reducible apply after_ite | dsimp only

theorem kept_execSnpWindowOpen (hP : Closed F P) (hclk : F .clk) (hpwr : F .pwr) (hdsc : F .dsc) (hrad : F .rad) (s
    : State) (h0 : P s) : After P (execSnpWindowOpen s) := by
  unfold execSnpWindowOpen
  try dsimp only
  repeat' first
    | with_reducible assumption | with_reducible apply kept_advPc hP hclk
    | with_reducible apply kept_gfFollow hP hpwr hdsc hrad | with_reducible apply kept_updRad hP hrad
    | with_reducible apply kept_ite | with_reducible apply after_next | with_reducible apply after_ite | split
    | dsimp only

theorem kept_snapHeader (hP : Closed F P) (s : State) (k : Nat) (pc : PC64) (h0 : P s) : P (snapHeader s k pc) := by
  unfold snapHeader
  try dsimp only
  repeat' first
    | with_reducible assumption | with_reducible apply kept_wr64 hP | with_reducible apply kept_wrN hP | dsimp only

theorem kept_execSnpCaptureStart (hP : Closed F P) (hclk : F .clk) (hrad : F .rad) (late : Nat) (s : State) (h0 : P
    s) : After P (execSnpCaptureStart late s) := by
  unfold execSnpCaptureStart
  try dsimp only
  repeat' first
    | with_reducible assumption | with_reducible apply kept_advPc hP hclk | with_reducible apply kept_put hP
    | with_reducible apply kept_putB hP | with_reducible apply kept_snapHeader hP
    | with_reducible apply kept_updRad hP hrad | with_reducible apply kept_ite | with_reducible apply after_next
    | with_reducible apply after_ite | split | dsimp only

theorem kept_execSnpCaptureEnd (hP : Closed F P) (hclk : F .clk) (hpwr : F .pwr) (hdsc : F .dsc) (hrad : F .rad)
    (samples : List Byte) (s : State) (h0 : P s) : After P (execSnpCaptureEnd samples s) := by
  unfold execSnpCaptureEnd
  try dsimp only
  repeat' first
    | with_reducible assumption | with_reducible apply kept_advPc hP hclk
    | with_reducible apply kept_endCapture hP hpwr hdsc hrad | with_reducible apply after_next | split | dsimp only

theorem kept_execPllUnlock (hP : Closed F P) (hpwr : F .pwr) (hdsc : F .dsc) (hrad : F .rad) (taken : List Byte) (s
    : State) (h0 : P s) : After P (execPllUnlock taken s) := by
  unfold execPllUnlock
  try dsimp only
  repeat' first
    | with_reducible assumption | with_reducible apply kept_doubt hP | with_reducible apply kept_putB hP
    | with_reducible apply kept_raise hP | with_reducible apply kept_spoilCapture hP hpwr hdsc hrad
    | with_reducible apply kept_ite | with_reducible apply after_next | with_reducible apply after_ite | dsimp only

/-! ### Hif -/

theorem kept_updHif (hP : Closed F P) (hhif : F .hif) (s : State) (f : Hif → Hif) (h0 : P s) : P (updHif s f) := by
  unfold updHif
  try dsimp only
  repeat' first
    | with_reducible assumption | with_reducible exact Or.inr hhif | with_reducible exact Or.inl rfl
    | with_reducible apply hP.others | with_reducible exact fits_same _ _ | with_reducible exact fits_upd _ _ _ _
    | with_reducible exact fits_set _ _ _ _ | with_reducible exact fits_map _ _ _
    | with_reducible exact fits_replicate _ _ _ | with_reducible exact fitsMck_same _
    | with_reducible exact fun _ => fits_same _ _ | with_reducible exact fun _ => fits_upd _ _ _ _
    | with_reducible exact fun _ => fits_set _ _ _ _ | with_reducible exact fun _ => fits_map _ _ _
    | with_reducible exact fun _ => fits_replicate _ _ _ | dsimp only

theorem kept_ringStop (hP : Closed F P) (hrings : F .rings) (s : State) (n : Nat) (err : Nat) (h0 : P s) : P
    (ringStop s n err) := by
  unfold ringStop
  try dsimp only
  repeat' first
    | with_reducible assumption | with_reducible apply kept_put hP | with_reducible apply kept_putB hP
    | with_reducible apply kept_raise hP | with_reducible apply kept_updRing hP hrings | dsimp only

theorem kept_execPcieLinkUp (hP : Closed F P) (hhif : F .hif) (gen : Fin 5) (width : Fin 5) (bme : Bool) (msix :
    Bool) (fmask : Bool) (s : State) (h0 : P s) : After P (execPcieLinkUp gen width bme msix fmask s) := by
  unfold execPcieLinkUp
  try dsimp only
  repeat' first
    | with_reducible assumption | with_reducible apply kept_put hP | with_reducible apply kept_putB hP
    | with_reducible apply kept_raiseIf hP | with_reducible apply kept_updHif hP hhif
    | with_reducible apply after_next | dsimp only

theorem kept_linkLost (hP : Closed F P) (hrings : F .rings) (s : State) (h0 : P s) : P (linkLost s) := by
  unfold linkLost
  try dsimp only
  repeat' first
    | with_reducible assumption | intro _ | with_reducible apply kept_raise hP
    | with_reducible apply kept_ringStop hP hrings | with_reducible apply kept_wrN hP
    | with_reducible apply kept_ite | with_reducible apply kept_foldl | with_reducible apply kept_foldl_fst
    | dsimp only

theorem kept_execPcieLinkDown (hP : Closed F P) (hrings : F .rings) (s : State) (h0 : P s) : After P
    (execPcieLinkDown s) := by
  unfold execPcieLinkDown
  try dsimp only
  repeat' first
    | with_reducible assumption | with_reducible apply kept_linkLost hP hrings | with_reducible apply after_next
    | dsimp only

theorem kept_vecSend (hP : Closed F P) (hhif : F .hif) (s : State) (v : Nat) (h0 : P s) : P (vecSend s v) := by
  unfold vecSend
  try dsimp only
  repeat' first
    | with_reducible assumption | with_reducible apply kept_updHif hP hhif | with_reducible apply kept_ite
    | dsimp only

theorem kept_execMsixSend (hP : Closed F P) (hhif : F .hif) (v : Fin 64) (s0 : State) (h0 : P s0) : After P
    (execMsixSend v s0) := by
  unfold execMsixSend
  try dsimp only
  repeat' first
    | with_reducible assumption | with_reducible apply kept_updHif hP hhif
    | with_reducible apply kept_vecSend hP hhif | with_reducible apply kept_ite | with_reducible apply after_next
    | with_reducible apply after_ite | dsimp only

theorem kept_eoiWrite (hP : Closed F P) (hhif : F .hif) (s : State) (v : Nat) (h0 : P s) : P (eoiWrite s v) := by
  unfold eoiWrite
  try dsimp only
  repeat' first
    | with_reducible assumption | with_reducible apply kept_vecSend hP hhif | with_reducible apply kept_ite
    | dsimp only

theorem kept_execEoi (hP : Closed F P) (hhif : F .hif) (r : Requester) (v : Fin 64) (s : State) (h0 : P s) : After P
    (execEoi r v s) := by
  unfold execEoi
  try dsimp only
  repeat' first
    | with_reducible assumption | intro _ | with_reducible apply kept_eoiWrite hP hhif
    | with_reducible apply kept_onWrite hP | with_reducible apply kept_updHif hP hhif
    | with_reducible apply after_next | dsimp only

theorem kept_pbaSend (hP : Closed F P) (hhif : F .hif) (s : State) (h0 : P s) : P (pbaSend s) := by
  unfold pbaSend
  try dsimp only
  repeat' first
    | with_reducible assumption | intro _ | with_reducible apply kept_updHif hP hhif
    | with_reducible apply kept_vecSend hP hhif | with_reducible apply kept_ite | with_reducible apply kept_foldl
    | with_reducible apply kept_foldl_fst | dsimp only

theorem kept_execMsixMaskClear (hP : Closed F P) (hhif : F .hif) (v : Option (Fin 64)) (s0 : State) (h0 : P s0) :
    After P (execMsixMaskClear v s0) := by
  unfold execMsixMaskClear
  try dsimp only
  repeat' first
    | with_reducible assumption | with_reducible apply kept_pbaSend hP hhif
    | with_reducible apply kept_updHif hP hhif | with_reducible apply after_next | split | dsimp only

theorem kept_hdbWrite (hP : Closed F P) (s : State) (r : Requester) (msg : Nat) (h0 : P s) : P (hdbWrite s r msg) :=
    by
  unfold hdbWrite
  try dsimp only
  repeat' first
    | with_reducible assumption | with_reducible apply kept_bump hP | with_reducible apply kept_put hP
    | with_reducible apply kept_raise hP | with_reducible apply kept_ite | split | dsimp only

theorem kept_execHdb (hP : Closed F P) (r : Requester) (msg : BitVec 24) (s : State) (h0 : P s) : After P (execHdb r
    msg s) := by
  unfold execHdb
  try dsimp only
  repeat' first
    | with_reducible assumption | intro _ | with_reducible apply kept_hdbWrite hP
    | with_reducible apply kept_onWrite hP | with_reducible apply after_next | dsimp only

theorem kept_showCon (hP : Closed F P) (s : State) (h0 : P s) : P (showCon s) := by
  unfold showCon
  try dsimp only
  repeat' first
    | with_reducible assumption | with_reducible apply kept_put hP | dsimp only

theorem kept_conDrain (hP : Closed F P) (hhif : F .hif) (s : State) (h0 : P s) : P (conDrain s) := by
  unfold conDrain
  try dsimp only
  repeat' first
    | with_reducible assumption | with_reducible apply kept_showCon hP | with_reducible apply kept_updHif hP hhif
    | with_reducible apply kept_ite | dsimp only

theorem kept_conWrite (hP : Closed F P) (hhif : F .hif) (s0 : State) (b : Byte) (h0 : P s0) : P (conWrite s0 b) :=
    by
  unfold conWrite
  try dsimp only
  repeat' first
    | with_reducible assumption | with_reducible apply kept_conDrain hP hhif | with_reducible apply kept_showCon hP
    | with_reducible apply kept_updHif hP hhif | with_reducible apply kept_ite | dsimp only

theorem kept_execConDataWrite (hP : Closed F P) (hhif : F .hif) (r : Requester) (b : Byte) (s : State) (h0 : P s) :
    After P (execConDataWrite r b s) := by
  unfold execConDataWrite
  try dsimp only
  repeat' first
    | with_reducible assumption | intro _ | with_reducible apply kept_conWrite hP hhif
    | with_reducible apply kept_onWrite hP | with_reducible apply after_next | dsimp only

theorem kept_conRead (hP : Closed F P) (hhif : F .hif) (s : State) (h0 : P s) : P (conRead s).1 := by
  unfold conRead
  try dsimp only
  repeat' first
    | with_reducible assumption | with_reducible apply kept_drawn hP | with_reducible apply kept_showCon hP
    | with_reducible apply kept_updHif hP hhif | split | dsimp only

theorem kept_execConDataRead (hP : Closed F P) (hhif : F .hif) (r : Requester) (s : State) (h0 : P s) : After P
    (execConDataRead r s) := by
  unfold execConDataRead
  try dsimp only
  repeat' first
    | with_reducible assumption | intro _ | with_reducible apply kept_conRead hP hhif
    | with_reducible apply kept_onRead hP | with_reducible apply kept_reply hP | with_reducible apply after_next
    | dsimp only

theorem kept_execConRxByte (hP : Closed F P) (hhif : F .hif) (b : Byte) (s : State) (h0 : P s) : After P
    (execConRxByte b s) := by
  unfold execConRxByte
  try dsimp only
  repeat' first
    | with_reducible assumption | with_reducible apply kept_showCon hP | with_reducible apply kept_updHif hP hhif
    | with_reducible apply kept_ite | with_reducible apply after_next | with_reducible apply after_ite | dsimp only

theorem kept_ringCfg (hP : Closed F P) (hrings : F .rings) (s : State) (n : Nat) (v : Nat) (h0 : P s) : P (ringCfg s
    n v) := by
  unfold ringCfg
  try dsimp only
  repeat' first
    | with_reducible assumption | with_reducible apply kept_put hP | with_reducible apply kept_putB hP
    | with_reducible apply kept_ringStop hP hrings | with_reducible apply kept_updRing hP hrings
    | with_reducible apply kept_wrN hP | with_reducible apply kept_ite | dsimp only

theorem kept_execRingEnable (hP : Closed F P) (hrings : F .rings) (r : Requester) (n : Fin 16) (v : Word) (s :
    State) (h0 : P s) : After P (execRingEnable r n v s) := by
  unfold execRingEnable
  try dsimp only
  repeat' first
    | with_reducible assumption | intro _ | with_reducible apply kept_onWrite hP
    | with_reducible apply kept_ringCfg hP hrings | with_reducible apply after_next | dsimp only

theorem kept_execRingDisable (hP : Closed F P) (hrings : F .rings) (r : Requester) (n : Fin 16) (v : Word) (s :
    State) (h0 : P s) : After P (execRingDisable r n v s) := by
  unfold execRingDisable
  try dsimp only
  repeat' first
    | with_reducible assumption | intro _ | with_reducible apply kept_onWrite hP
    | with_reducible apply kept_ringCfg hP hrings | with_reducible apply after_next | dsimp only

theorem kept_ringTail (hP : Closed F P) (hrings : F .rings) (s : State) (n : Nat) (tail : Nat) (descs : List (Word ×
    Word × Word × Word)) (h0 : P s) : P (ringTail s n tail descs) := by
  unfold ringTail
  try dsimp only
  repeat' first
    | with_reducible assumption | with_reducible apply kept_put hP | with_reducible apply kept_ringStop hP hrings
    | with_reducible apply kept_updRing hP hrings | with_reducible apply kept_ite | dsimp only

theorem kept_execRingTailWrite (hP : Closed F P) (hrings : F .rings) (r : Requester) (n : Fin 16) (tail : BitVec 12)
    (descs : List (Word × Word × Word × Word)) (s : State) (h0 : P s) : After P (execRingTailWrite r n tail descs s) :=
    by
  unfold execRingTailWrite
  try dsimp only
  repeat' first
    | with_reducible assumption | intro _ | with_reducible apply kept_onWrite hP
    | with_reducible apply kept_ringTail hP hrings | with_reducible apply after_next | dsimp only

theorem kept_writeBack (hP : Closed F P) (hcore : F .core) (hrings : F .rings) (hharts : F .harts) (hhif : F .hif)
    (s : State) (n : Nat) (d : Desc) (e : DescEnd) (h0 : P s) : P (writeBack s n d e) := by
  unfold writeBack
  try dsimp only
  repeat' first
    | with_reducible assumption | with_reducible apply kept_put hP | with_reducible apply kept_putB hP
    | with_reducible apply kept_raise hP | with_reducible apply kept_updHif hP hhif
    | with_reducible apply kept_updRing hP hrings | with_reducible apply kept_writeCore hP hcore hharts
    | with_reducible apply kept_ite | dsimp only

theorem kept_execRingDescDone (hP : Closed F P) (hcore : F .core) (hrings : F .rings) (hharts : F .harts) (hhif : F
    .hif) (n : Fin 16) (ok : Bool) (s0 : State) (h0 : P s0) : After P (execRingDescDone n ok s0) := by
  unfold execRingDescDone
  try dsimp only
  repeat' first
    | with_reducible assumption | with_reducible apply kept_ringStop hP hrings
    | with_reducible apply kept_updHif hP hhif | with_reducible apply kept_updRing hP hrings
    | with_reducible apply kept_writeBack hP hcore hrings hharts hhif | with_reducible apply kept_ite
    | with_reducible apply after_next | with_reducible apply after_ite | split | dsimp only

theorem kept_execRingReport (hP : Closed F P) (hclk : F .clk) (hrings : F .rings) (n : Fin 16) (s : State) (h0 : P
    s) : After P (execRingReport n s) := by
  unfold execRingReport
  try dsimp only
  repeat' first
    | with_reducible assumption | with_reducible apply kept_advMono hP hclk | with_reducible apply kept_raise hP
    | with_reducible apply kept_updRing hP hrings | with_reducible apply kept_ite | with_reducible apply after_next
    | with_reducible apply after_ite | dsimp only

theorem kept_hifReset (hP : Closed F P) (hrings : F .rings) (hhif : F .hif) (s : State) (h0 : P s) : P (hifReset s)
    := by
  unfold hifReset
  try dsimp only
  repeat' first
    | with_reducible assumption | with_reducible exact Or.inr hrings | with_reducible exact Or.inr hhif
    | with_reducible exact Or.inl rfl | with_reducible apply hP.others | with_reducible exact fits_same _ _
    | with_reducible exact fits_upd _ _ _ _ | with_reducible exact fits_set _ _ _ _
    | with_reducible exact fits_map _ _ _ | with_reducible exact fits_replicate _ _ _
    | with_reducible exact fitsMck_same _ | with_reducible exact fun _ => fits_same _ _
    | with_reducible exact fun _ => fits_upd _ _ _ _ | with_reducible exact fun _ => fits_set _ _ _ _
    | with_reducible exact fun _ => fits_map _ _ _ | with_reducible exact fun _ => fits_replicate _ _ _ | dsimp only

/-! ### Integrity -/

theorem kept_execIntViewRx (hP : Closed F P) (hrad : F .rad) (s : State) (h0 : P s) : After P (execIntViewRx s) :=
    by
  unfold execIntViewRx
  try dsimp only
  repeat' first
    | with_reducible assumption | with_reducible apply kept_put hP | with_reducible apply kept_putB hP
    | with_reducible apply kept_updMon hP hrad | with_reducible apply kept_ite | with_reducible apply after_next
    | with_reducible apply after_ite | dsimp only

theorem kept_showViewAge (hP : Closed F P) (s : State) (h0 : P s) : P (showViewAge s) := by
  unfold showViewAge
  try dsimp only
  repeat' first
    | with_reducible assumption | with_reducible apply kept_put hP | split | dsimp only

theorem kept_execViewStale (hP : Closed F P) (hclk : F .clk) (s : State) (h0 : P s) : After P (execViewStale s) :=
    by
  unfold execViewStale
  try dsimp only
  repeat' first
    | with_reducible assumption | with_reducible apply kept_advMono hP hclk | with_reducible apply kept_putB hP
    | with_reducible apply kept_showViewAge hP | with_reducible apply kept_ite | with_reducible apply after_next
    | with_reducible apply after_ite | split | dsimp only

theorem kept_execExclExpire (hP : Closed F P) (hclk : F .clk) (hrad : F .rad) (sys : Fin 4) (prn : Nat) (s : State)
    (h0 : P s) : After P (execExclExpire sys prn s) := by
  unfold execExclExpire
  try dsimp only
  repeat' first
    | with_reducible assumption | with_reducible apply kept_advMono hP hclk
    | with_reducible apply kept_endExclusion hP hrad | with_reducible apply after_next | split | dsimp only

theorem kept_exclCmd (hP : Closed F P) (hrad : F .rad) (s : State) (n : Nat) (h0 : P s) : P (exclCmd s n) := by
  unfold exclCmd
  try dsimp only
  repeat' first
    | with_reducible assumption | with_reducible apply kept_endExclusion hP hrad
    | with_reducible apply kept_exclude hP hrad | with_reducible apply kept_wrN hP | with_reducible apply kept_ite
    | dsimp only

theorem kept_execExclSet (hP : Closed F P) (hrad : F .rad) (r : Requester) (v : Word) (s : State) (h0 : P s) : After
    P (execExclSet r v s) := by
  unfold execExclSet
  try dsimp only
  repeat' first
    | with_reducible assumption | intro _ | with_reducible apply kept_exclCmd hP hrad
    | with_reducible apply kept_onWrite hP | with_reducible apply after_next | dsimp only

theorem kept_execExclClr (hP : Closed F P) (hrad : F .rad) (r : Requester) (v : Word) (s : State) (h0 : P s) : After
    P (execExclClr r v s) := by
  unfold execExclClr
  try dsimp only
  repeat' first
    | with_reducible assumption | intro _ | with_reducible apply kept_exclCmd hP hrad
    | with_reducible apply kept_onWrite hP | with_reducible apply after_next | dsimp only

theorem kept_intCtrl (hP : Closed F P) (hdsc : F .dsc) (hrad : F .rad) (s : State) (n : Nat) (h0 : P s) : P (intCtrl
    s n) := by
  unfold intCtrl
  try dsimp only
  repeat' first
    | with_reducible assumption | with_reducible apply kept_clearSuspect hP hdsc
    | with_reducible apply kept_setCause hP hdsc hrad | with_reducible apply kept_ite | dsimp only

theorem kept_execForceSuspect (hP : Closed F P) (hdsc : F .dsc) (hrad : F .rad) (r : Requester) (v : Word) (s :
    State) (h0 : P s) : After P (execForceSuspect r v s) := by
  unfold execForceSuspect
  try dsimp only
  repeat' first
    | with_reducible assumption | intro _ | with_reducible apply kept_intCtrl hP hdsc hrad
    | with_reducible apply kept_onWrite hP | with_reducible apply after_next | dsimp only

theorem kept_execIntClear (hP : Closed F P) (hdsc : F .dsc) (hrad : F .rad) (r : Requester) (v : Word) (s : State)
    (h0 : P s) : After P (execIntClear r v s) := by
  unfold execIntClear
  try dsimp only
  repeat' first
    | with_reducible assumption | intro _ | with_reducible apply kept_intCtrl hP hdsc hrad
    | with_reducible apply kept_onWrite hP | with_reducible apply after_next | dsimp only

theorem kept_execSuspectCleared (hP : Closed F P) (hclk : F .clk) (hdsc : F .dsc) (s : State) (h0 : P s) : After P
    (execSuspectCleared s) := by
  unfold execSuspectCleared
  try dsimp only
  repeat' first
    | with_reducible assumption | with_reducible apply kept_advMono hP hclk
    | with_reducible apply kept_clearSuspect hP hdsc | with_reducible apply kept_showClearLeft hP
    | with_reducible apply kept_ite | with_reducible apply after_next | with_reducible apply after_ite | split
    | dsimp only

theorem kept_checkAgc (hP : Closed F P) (hdsc : F .dsc) (hrad : F .rad) (s : State) (h0 : P s) : P (checkAgc s) :=
    by
  unfold checkAgc
  try dsimp only
  repeat' first
    | with_reducible assumption | with_reducible apply kept_setCause hP hdsc hrad
    | with_reducible apply kept_updMon hP hrad | with_reducible apply kept_updRad hP hrad
    | with_reducible apply kept_ite | dsimp only

theorem kept_checkNoise (hP : Closed F P) (hdsc : F .dsc) (hrad : F .rad) (s : State) (h0 : P s) : P (checkNoise s)
    := by
  unfold checkNoise
  try dsimp only
  repeat' first
    | with_reducible assumption | with_reducible apply kept_setCause hP hdsc hrad
    | with_reducible apply kept_updMon hP hrad | with_reducible apply kept_ite | dsimp only

theorem kept_judgeNavMaj (hP : Closed F P) (hdsc : F .dsc) (hrad : F .rad) (s : State) (h0 : P s) : P (judgeNavMaj
    s) := by
  unfold judgeNavMaj
  try dsimp only
  repeat' first
    | with_reducible assumption | with_reducible apply kept_setCause hP hdsc hrad
    | with_reducible apply kept_updMon hP hrad | dsimp only

theorem kept_closeNav (hP : Closed F P) (hdsc : F .dsc) (hrad : F .rad) (s : State) (upTo : Nat) (h0 : P s) : P
    (closeNav s upTo) := by
  unfold closeNav
  try dsimp only
  repeat' first
    | with_reducible assumption | with_reducible apply kept_judgeNavMaj hP hdsc hrad | with_reducible apply kept_ite
    | dsimp only

theorem kept_execIntSecondCheck (hP : Closed F P) (hdsc : F .dsc) (hrad : F .rad) (s : State) (h0 : P s) : After P
    (execIntSecondCheck s) := by
  unfold execIntSecondCheck
  try dsimp only
  repeat' first
    | with_reducible assumption | with_reducible apply kept_checkAgc hP hdsc hrad
    | with_reducible apply kept_checkNoise hP hdsc hrad | with_reducible apply kept_closeNav hP hdsc hrad
    | with_reducible apply kept_judgeManyExcl hP hdsc hrad | with_reducible apply kept_showClearLeft hP
    | with_reducible apply kept_showViewAge hP | with_reducible apply kept_ite | with_reducible apply after_next
    | with_reducible apply after_ite | dsimp only

theorem kept_navCheck (hP : Closed F P) (hdsc : F .dsc) (hrad : F .rad) (s : State) (c : Nat) (x : Chan) (first :
    PC64) (word2 : Nat) (h0 : P s) : P (navCheck s c x first word2) := by
  unfold navCheck
  try dsimp only
  repeat' first
    | with_reducible assumption | with_reducible apply kept_closeNav hP hdsc hrad
    | with_reducible apply kept_exclude hP hrad | with_reducible apply kept_updMon hP hrad
    | with_reducible apply kept_ite | split | dsimp only

theorem kept_checkEntry (hP : Closed F P) (hrad : F .rad) (s : State) (e : SolEntry) (h0 : P s) : P (checkEntry s e)
    := by
  unfold checkEntry
  try dsimp only
  repeat' first
    | with_reducible assumption | with_reducible apply kept_exclude hP hrad | with_reducible apply kept_ite
    | dsimp only

theorem kept_checkFlat (hP : Closed F P) (hdsc : F .dsc) (hrad : F .rad) (s : State) (l : List SolEntry) (h0 : P s)
    : P (checkFlat s l) := by
  unfold checkFlat
  try dsimp only
  repeat' first
    | with_reducible assumption | intro _ | with_reducible apply kept_setCause hP hdsc hrad
    | with_reducible apply kept_updMon hP hrad | with_reducible apply kept_foldl
    | with_reducible apply kept_foldl_fst | dsimp only

theorem kept_checkPred (hP : Closed F P) (hdsc : F .dsc) (hrad : F .rad) (s : State) (x0 : Int) (h0 : P s) : P
    (checkPred s x0).1 := by
  unfold checkPred
  try dsimp only
  repeat' first
    | with_reducible assumption | with_reducible apply kept_setCause hP hdsc hrad
    | with_reducible apply kept_updMon hP hrad | split | dsimp only

theorem kept_checkStep (hP : Closed F P) (hdsc : F .dsc) (hrad : F .rad) (s : State) (x0 : Int) (h0 : P s) : P
    (checkStep s x0).1 := by
  unfold checkStep
  try dsimp only
  repeat' first
    | with_reducible assumption | with_reducible apply kept_setCause hP hdsc hrad
    | with_reducible apply kept_updMon hP hrad | with_reducible apply kept_ite | with_reducible apply kept_fst_ite
    | dsimp only

theorem kept_withhold (hP : Closed F P) (s : State) (h0 : P s) : P (withhold s) := by
  unfold withhold
  try dsimp only
  repeat' first
    | with_reducible assumption | with_reducible apply kept_bump hP | with_reducible apply kept_raise hP
    | dsimp only

theorem kept_passSolution (hP : Closed F P) (hdsc : F .dsc) (s : State) (h0 : P s) : P (passSolution s) := by
  unfold passSolution
  try dsimp only
  repeat' first
    | with_reducible assumption | with_reducible apply kept_slotSample hP hdsc | with_reducible apply kept_ite
    | dsimp only

theorem kept_checkSolution (hP : Closed F P) (hdsc : F .dsc) (hrad : F .rad) (s : State) (h0 : P s) : P
    (checkSolution s) := by
  unfold checkSolution
  try dsimp only
  repeat' first
    | with_reducible assumption | intro _ | with_reducible apply kept_checkEntry hP hrad
    | with_reducible apply kept_checkFlat hP hdsc hrad | with_reducible apply kept_checkPred hP hdsc hrad
    | with_reducible apply kept_checkStep hP hdsc hrad | with_reducible apply kept_judgeManyExcl hP hdsc hrad
    | with_reducible apply kept_passSolution hP hdsc | with_reducible apply kept_showClearLeft hP
    | with_reducible apply kept_showViewAge hP | with_reducible apply kept_withhold hP
    | with_reducible apply kept_wrN hP | with_reducible apply kept_ite | with_reducible apply kept_fst_ite
    | with_reducible apply kept_foldl | with_reducible apply kept_foldl_fst | dsimp only

/-! ### Nav -/

theorem kept_showNavLevel (hP : Closed F P) (s : State) (h0 : P s) : P (showNavLevel s) := by
  unfold showNavLevel
  try dsimp only
  repeat' first
    | with_reducible assumption | with_reducible apply kept_put hP | dsimp only

theorem kept_navRecord (hP : Closed F P) (hrad : F .rad) (s : State) (w : List Nat) (h0 : P s) : P (navRecord s w)
    := by
  unfold navRecord
  try dsimp only
  repeat' first
    | with_reducible assumption | with_reducible apply kept_bump hP | with_reducible apply kept_put hP
    | with_reducible apply kept_raise hP | with_reducible apply kept_showNavLevel hP
    | with_reducible apply kept_updRad hP hrad | with_reducible apply kept_wrWords hP
    | with_reducible apply kept_ite | dsimp only

theorem kept_execNavRdIdxWrite (hP : Closed F P) (r : Requester) (v : Word) (s : State) (h0 : P s) : After P
    (execNavRdIdxWrite r v s) := by
  unfold execNavRdIdxWrite
  try dsimp only
  repeat' first
    | with_reducible assumption | intro _ | with_reducible apply kept_onWrite hP
    | with_reducible apply kept_showNavLevel hP | with_reducible apply kept_wrN hP | with_reducible apply kept_ite
    | with_reducible apply after_next | with_reducible apply after_ite | dsimp only

theorem kept_takeNavSync (hP : Closed F P) (hrad : F .rad) (s : State) (c : Nat) (h0 : P s) : P (takeNavSync s c) :=
    by
  unfold takeNavSync
  try dsimp only
  repeat' first
    | with_reducible assumption | with_reducible apply kept_putB hP | with_reducible apply kept_raise hP
    | with_reducible apply kept_updChan hP hrad | dsimp only

theorem kept_countNavFail (hP : Closed F P) (hrad : F .rad) (s : State) (c : Nat) (fails : Nat) (h0 : P s) : P
    (countNavFail s c fails) := by
  unfold countNavFail
  try dsimp only
  repeat' first
    | with_reducible assumption | with_reducible apply kept_putB hP | with_reducible apply kept_raise hP
    | with_reducible apply kept_updChan hP hrad | with_reducible apply kept_ite | dsimp only

theorem kept_searchSubframe (hP : Closed F P) (hrad : F .rad) (s : State) (c : Nat) (x : Chan) (first : PC64)
    (inverted : Bool) (good : Bool) (h0 : P s) : P (searchSubframe s c x first inverted good) := by
  unfold searchSubframe
  try dsimp only
  repeat' first
    | with_reducible assumption | with_reducible apply kept_putB hP | with_reducible apply kept_takeNavSync hP hrad
    | with_reducible apply kept_updChan hP hrad | with_reducible apply kept_ite | split | dsimp only

theorem kept_takeSubframe (hP : Closed F P) (hrad : F .rad) (s : State) (c : Nat) (x : Chan) (first : PC64)
    (preamble : Bool) (words : List (Nat × Bool)) (h0 : P s) : P (takeSubframe s c x first preamble words) := by
  unfold takeSubframe
  try dsimp only
  repeat' first
    | with_reducible assumption | with_reducible apply kept_bumpBy hP
    | with_reducible apply kept_countNavFail hP hrad | with_reducible apply kept_navRecord hP hrad
    | with_reducible apply kept_ite | dsimp only

theorem kept_execNavSubframe (hP : Closed F P) (hdsc : F .dsc) (hrad : F .rad) (ch : Fin 80) (first : PC64)
    (inverted : Bool) (preamble : Bool) (words : List (Nat × Bool)) (s : State) (h0 : P s) : After P (execNavSubframe ch
    first inverted preamble words s) := by
  unfold execNavSubframe
  try dsimp only
  repeat' first
    | with_reducible assumption | with_reducible apply kept_navCheck hP hdsc hrad
    | with_reducible apply kept_searchSubframe hP hrad | with_reducible apply kept_takeSubframe hP hrad
    | with_reducible apply kept_ite | with_reducible apply after_next | with_reducible apply after_ite | split
    | dsimp only

theorem kept_takePage (hP : Closed F P) (hrad : F .rad) (s : State) (c : Nat) (x : Chan) (even : List Nat) (odd :
    List Nat) (first : PC64) (crcOk : Bool) (tailOk : Bool) (corrected : Nat) (h0 : P s) : P (takePage s c x even odd
    first crcOk tailOk corrected) := by
  unfold takePage
  try dsimp only
  repeat' first
    | with_reducible assumption | with_reducible apply kept_bump hP | with_reducible apply kept_countNavFail hP hrad
    | with_reducible apply kept_navRecord hP hrad | with_reducible apply kept_takeNavSync hP hrad
    | with_reducible apply kept_ite | split | dsimp only

theorem kept_execInavPage (hP : Closed F P) (hrad : F .rad) (ch : Fin 80) (first : PC64) (odd : Bool) (bits : List
    Nat) (crcOk : Bool) (tailOk : Bool) (corrected : Nat) (s : State) (h0 : P s) : After P (execInavPage ch first odd
    bits crcOk tailOk corrected s) := by
  unfold execInavPage
  try dsimp only
  repeat' first
    | with_reducible assumption | with_reducible apply kept_takePage hP hrad
    | with_reducible apply kept_updChan hP hrad | with_reducible apply kept_ite | with_reducible apply after_next
    | with_reducible apply after_ite | split | dsimp only

theorem kept_submitSolution (hP : Closed F P) (hdsc : F .dsc) (hrad : F .rad) (s : State) (h0 : P s) : P
    (submitSolution s) := by
  unfold submitSolution
  try dsimp only
  repeat' first
    | with_reducible assumption | with_reducible apply kept_bump hP
    | with_reducible apply kept_checkSolution hP hdsc hrad | with_reducible apply kept_raise hP
    | with_reducible apply kept_updRad hP hrad | with_reducible apply kept_wrN hP | with_reducible apply kept_ite
    | dsimp only

theorem kept_execSolSubmit (hP : Closed F P) (hdsc : F .dsc) (hrad : F .rad) (r : Requester) (v : Word) (s : State)
    (h0 : P s) : After P (execSolSubmit r v s) := by
  unfold execSolSubmit
  try dsimp only
  repeat' first
    | with_reducible assumption | intro _ | with_reducible apply kept_onWrite hP
    | with_reducible apply kept_submitSolution hP hdsc hrad | with_reducible apply kept_ite
    | with_reducible apply after_next | with_reducible apply after_ite | dsimp only

theorem kept_execPosSigWrite (hP : Closed F P) (hrad : F .rad) (r : Requester) (v : Word) (s : State) (h0 : P s) :
    After P (execPosSigWrite r v s) := by
  unfold execPosSigWrite
  try dsimp only
  repeat' first
    | with_reducible assumption | intro _ | with_reducible apply kept_onWrite hP
    | with_reducible apply kept_updRad hP hrad | with_reducible apply kept_wrN hP | with_reducible apply kept_ite
    | with_reducible apply after_next | with_reducible apply after_ite | dsimp only

end Sys2Proof.Machine
end

