-- ==== Sys2Proof/Laws/KeptOutputs.lean ====
section
/-! SUPPORT. A property that survives the changes of Closed survives every function of: the counters, cues, the safe state, the time-interval unit and the oscillators. -/

set_option linter.unusedTactic false
set_option linter.unreachableTactic false
set_option linter.unusedVariables false

namespace Sys2Proof.Machine

variable {F : Part → Prop} {P : State → Prop}

/-! ### Pmc -/

theorem kept_ovfStamp (hP : Closed F P) (s : State) (p : Pg) (n : Nat) (pc : PC64) (seen : Bool) (h0 : P s) : P
    (ovfStamp s p n pc seen) := by
  unfold ovfStamp
  try dsimp only
  repeat' first
    | with_reducible assumption | with_reducible apply kept_put hP | with_reducible apply kept_putB hP
    | with_reducible apply kept_raise hP | with_reducible apply kept_wr64 hP | with_reducible apply kept_ite
    | dsimp only

theorem kept_cntAdd (hP : Closed F P) (s : State) (p : Pg) (n : Nat) (k : Nat) (pc : PC64) (seen : Bool) (h0 : P s)
    : P (cntAdd s p n k pc seen).1 := by
  unfold cntAdd
  try dsimp only
  repeat' first
    | with_reducible assumption | with_reducible apply kept_ovfStamp hP | with_reducible apply kept_wrN hP
    | with_reducible apply kept_ite | with_reducible apply kept_fst_ite | dsimp only

theorem kept_cntCycle (hP : Closed F P) (p : Pg) (evt : Nat) (c : PmcCycle) (a : State × Bool) (n : Nat) (h0 : P
    a.1) : P (cntCycle p evt c a n).1 := by
  unfold cntCycle
  try dsimp only
  repeat' first
    | with_reducible assumption | with_reducible apply kept_cntAdd hP | with_reducible apply kept_ite
    | with_reducible apply kept_fst_ite | dsimp only

theorem kept_execPmcCount (hP : Closed F P) (die : Fin 8) (evt : Fin 4096) (cycles : List PmcCycle) (s : State) (h0
    : P s) : After P (execPmcCount die evt cycles s) := by
  unfold execPmcCount
  try dsimp only
  repeat' first
    | with_reducible assumption | intro _ | with_reducible apply kept_cntCycle hP | with_reducible apply kept_ite
    | with_reducible apply kept_fst_ite | with_reducible apply kept_foldl | with_reducible apply kept_foldl_fst
    | with_reducible apply after_next | with_reducible apply after_ite | dsimp only

theorem kept_execCntWrite (hP : Closed F P) (r : Requester) (die : Fin 8) (n : Fin 32) (v : Word) (s : State) (h0 :
    P s) : After P (execCntWrite r die n v s) := by
  unfold execCntWrite
  try dsimp only
  repeat' first
    | with_reducible assumption | intro _ | with_reducible apply kept_onWrite hP | with_reducible apply kept_wr hP
    | with_reducible apply after_next | dsimp only

theorem kept_clearCounts (hP : Closed F P) (s : State) (p : Pg) (h0 : P s) : P (clearCounts s p) := by
  unfold clearCounts
  try dsimp only
  repeat' first
    | with_reducible assumption | intro _ | with_reducible apply kept_wrN hP | with_reducible apply kept_foldl
    | with_reducible apply kept_foldl_fst | dsimp only

theorem kept_execClrAll (hP : Closed F P) (r : Requester) (die : Fin 8) (s : State) (h0 : P s) : After P (execClrAll
    r die s) := by
  unfold execClrAll
  try dsimp only
  repeat' first
    | with_reducible assumption | intro _ | with_reducible apply kept_clearCounts hP
    | with_reducible apply kept_onWrite hP | with_reducible apply after_next | dsimp only

theorem kept_armPage (hP : Closed F P) (s : State) (p : Pg) (h0 : P s) : P (armPage s p) := by
  unfold armPage
  try dsimp only
  repeat' first
    | with_reducible assumption | with_reducible apply kept_putB hP | dsimp only

theorem kept_execArmAt (hP : Closed F P) (r : Requester) (die : Fin 8) (s : State) (h0 : P s) : After P (execArmAt r
    die s) := by
  unfold execArmAt
  try dsimp only
  repeat' first
    | with_reducible assumption | intro _ | with_reducible apply kept_armPage hP
    | with_reducible apply kept_onWrite hP | with_reducible apply after_next | dsimp only

theorem kept_execPmcStart (hP : Closed F P) (hclk : F .clk) (die : Fin 8) (s : State) (h0 : P s) : After P
    (execPmcStart die s) := by
  unfold execPmcStart
  try dsimp only
  repeat' first
    | with_reducible assumption | with_reducible apply kept_advPc hP hclk | with_reducible apply kept_putB hP
    | with_reducible apply kept_ite | with_reducible apply after_next | with_reducible apply after_ite | dsimp only

theorem kept_pmcCtrlWrite (hP : Closed F P) (s : State) (p : Pg) (v : Nat) (h0 : P s) : P (pmcCtrlWrite s p v) := by
  unfold pmcCtrlWrite
  try dsimp only
  repeat' first
    | with_reducible assumption | with_reducible apply kept_armPage hP | with_reducible apply kept_clearCounts hP
    | with_reducible apply kept_put hP | with_reducible apply kept_ite | dsimp only

theorem kept_ctlStored (hP : Closed F P) (s : State) (p : Pg) (n : Nat) (v : Nat) (h0 : P s) : P (ctlStored s p n v)
    := by
  unfold ctlStored
  try dsimp only
  repeat' first
    | with_reducible assumption | with_reducible apply kept_wrN hP | with_reducible apply kept_ite | dsimp only

theorem kept_ovfStampWrite (hP : Closed F P) (s : State) (p : Pg) (v : Nat) (h0 : P s) : P (ovfStampWrite s p v) :=
    by
  unfold ovfStampWrite
  try dsimp only
  repeat' first
    | with_reducible assumption | with_reducible apply kept_putB hP | with_reducible apply kept_ite | dsimp only

theorem kept_cntRead (hP : Closed F P) (hcntLatch : F .cntLatch) (s : State) (q die n : Nat) (h : P s) : P (cntRead s q die n).1 := by
  unfold cntRead
  refine kept_fst_ite _ _ _ (kept_fst_ite _ _ _ (by with_reducible apply hP.others <;> first | exact Or.inl rfl | exact Or.inr (by assumption) | exact h | exact fitsMck_same _ | with_reducible exact fits_same _ _) h) ?_
  cases amGet? (latchKey q die n) s.cntLatch with
  | none => exact h
  | some w => exact by with_reducible apply hP.others <;> first | exact Or.inl rfl | exact Or.inr (by assumption) | exact h | exact fitsMck_same _ | with_reducible exact fits_same _ _

theorem kept_execCntEvenRead (hP : Closed F P) (hcntLatch : F .cntLatch) (r : Requester) (die : Fin 8) (n : Fin 16)
    (s : State) (h0 : P s) : After P (execCntEvenRead r die n s) := by
  unfold execCntEvenRead
  try dsimp only
  repeat' first
    | with_reducible assumption | intro _ | with_reducible apply kept_cntRead hP hcntLatch
    | with_reducible apply kept_onRead hP | with_reducible apply kept_reply hP | with_reducible apply after_next
    | dsimp only

theorem kept_userPage (hP : Closed F P) (hcntLatch : F .cntLatch) (s : State) (off : Nat) (h0 : P s) : P (userPage s
    off).1 := by
  unfold userPage
  try dsimp only
  repeat' first
    | with_reducible assumption | with_reducible apply kept_cntRead hP hcntLatch | with_reducible apply kept_ite
    | with_reducible apply kept_fst_ite | dsimp only

theorem kept_pmcIslandReset (hP : Closed F P) (hcntLatch : F .cntLatch) (s : State) (die : Nat) (h0 : P s) : P
    (pmcIslandReset s die) := by
  unfold pmcIslandReset
  try dsimp only
  repeat' first
    | with_reducible assumption | with_reducible apply kept_clearCounts hP | with_reducible apply kept_putB hP
    | with_reducible apply kept_wr64 hP | with_reducible apply kept_wrN hP | with_reducible exact Or.inr hcntLatch
    | with_reducible exact Or.inl rfl | with_reducible apply hP.others | with_reducible exact fits_same _ _
    | with_reducible exact fits_upd _ _ _ _ | with_reducible exact fits_set _ _ _ _
    | with_reducible exact fits_map _ _ _ | with_reducible exact fits_replicate _ _ _
    | with_reducible exact fitsMck_same _ | with_reducible exact fun _ => fits_same _ _
    | with_reducible exact fun _ => fits_upd _ _ _ _ | with_reducible exact fun _ => fits_set _ _ _ _
    | with_reducible exact fun _ => fits_map _ _ _ | with_reducible exact fun _ => fits_replicate _ _ _ | dsimp only

/-! ### Cue -/

theorem kept_setCues (hP : Closed F P) (hmck : F .mck) (s : State) (l : List CueEnt) (h0 : P s) : P (setCues s l) :=
    by
  unfold setCues
  try dsimp only
  repeat' first
    | with_reducible assumption | with_reducible apply kept_put hP | with_reducible exact Or.inr hmck
    | with_reducible exact Or.inl rfl | with_reducible apply hP.others | with_reducible exact fits_same _ _
    | with_reducible exact fits_upd _ _ _ _ | with_reducible exact fits_set _ _ _ _
    | with_reducible exact fits_map _ _ _ | with_reducible exact fits_replicate _ _ _
    | with_reducible exact fitsMck_same _ | with_reducible apply FitsMck.mk
    | with_reducible exact fun _ => fits_same _ _ | with_reducible exact fun _ => fits_upd _ _ _ _
    | with_reducible exact fun _ => fits_set _ _ _ _ | with_reducible exact fun _ => fits_map _ _ _
    | with_reducible exact fun _ => fits_replicate _ _ _ | dsimp only

theorem kept_bufWrite (hP : Closed F P) (s : State) (f : State → Nat → State) (h0 : P s) (h1 : ∀ y0 y1, P y0 → P (f
    y0 y1)) : P (bufWrite s f) := by
  unfold bufWrite
  try dsimp only
  repeat' first
    | with_reducible assumption | with_reducible apply h1 | with_reducible apply kept_raise hP
    | with_reducible apply kept_ite | dsimp only

theorem kept_frmWord (hP : Closed F P) (hmck : F .mck) (s : State) (k : Nat) (v : Nat) (h0 : P s) : P (frmWord s k
    v) := by
  unfold frmWord
  try dsimp only
  repeat' first
    | with_reducible assumption | intro _ | with_reducible apply kept_bufWrite hP | with_reducible apply kept_foldl
    | with_reducible apply kept_foldl_fst | with_reducible exact Or.inr hmck | with_reducible exact Or.inl rfl
    | with_reducible apply hP.others | with_reducible exact fits_same _ _ | with_reducible exact fits_upd _ _ _ _
    | with_reducible exact fits_set _ _ _ _ | with_reducible exact fits_map _ _ _
    | with_reducible exact fits_replicate _ _ _ | with_reducible exact fitsMck_same _
    | with_reducible apply FitsMck.mk | with_reducible exact fun _ => fits_same _ _
    | with_reducible exact fun _ => fits_upd _ _ _ _ | with_reducible exact fun _ => fits_set _ _ _ _
    | with_reducible exact fun _ => fits_map _ _ _ | with_reducible exact fun _ => fits_replicate _ _ _ | dsimp only

theorem kept_frmLenWrite (hP : Closed F P) (hmck : F .mck) (s : State) (v : Nat) (h0 : P s) : P (frmLenWrite s v) :=
    by
  unfold frmLenWrite
  try dsimp only
  repeat' first
    | with_reducible assumption | intro _ | with_reducible apply kept_bufWrite hP | with_reducible apply kept_put hP
    | with_reducible exact Or.inr hmck | with_reducible exact Or.inl rfl | with_reducible apply hP.others
    | with_reducible exact fits_same _ _ | with_reducible exact fits_upd _ _ _ _
    | with_reducible exact fits_set _ _ _ _ | with_reducible exact fits_map _ _ _
    | with_reducible exact fits_replicate _ _ _ | with_reducible exact fitsMck_same _
    | with_reducible apply FitsMck.mk | with_reducible exact fun _ => fits_same _ _
    | with_reducible exact fun _ => fits_upd _ _ _ _ | with_reducible exact fun _ => fits_set _ _ _ _
    | with_reducible exact fun _ => fits_map _ _ _ | with_reducible exact fun _ => fits_replicate _ _ _ | dsimp only

theorem kept_frmSelWrite (hP : Closed F P) (s : State) (v : Nat) (h0 : P s) : P (frmSelWrite s v) := by
  unfold frmSelWrite
  try dsimp only
  repeat' first
    | with_reducible assumption | with_reducible apply kept_put hP | dsimp only

theorem kept_execFrmBufWrite (hP : Closed F P) (hmck : F .mck) (r : Requester) (k : Fin 384) (v : Word) (s : State)
    (h0 : P s) : After P (execFrmBufWrite r k v s) := by
  unfold execFrmBufWrite
  try dsimp only
  repeat' first
    | with_reducible assumption | intro _ | with_reducible apply kept_frmWord hP hmck
    | with_reducible apply kept_onWrite hP | with_reducible apply after_next | dsimp only

theorem kept_cueRefuse (hP : Closed F P) (s : State) (q : Nat) (why : Nat) (h0 : P s) : P (cueRefuse s q why) := by
  unfold cueRefuse
  try dsimp only
  repeat' first
    | with_reducible assumption | with_reducible apply kept_bump hP | with_reducible apply kept_putQ hP
    | with_reducible apply kept_raise hP | dsimp only

theorem kept_cuePush (hP : Closed F P) (hmck : F .mck) (s : State) (q : Nat) (h0 : P s) : P (cuePush s q) := by
  unfold cuePush
  try dsimp only
  repeat' first
    | with_reducible assumption | with_reducible apply kept_cueRefuse hP | with_reducible apply kept_putQ hP
    | with_reducible apply kept_setCues hP hmck | with_reducible apply kept_ite | with_reducible exact Or.inr hmck
    | with_reducible exact Or.inl rfl | with_reducible apply hP.others | with_reducible exact fits_same _ _
    | with_reducible exact fits_upd _ _ _ _ | with_reducible exact fits_set _ _ _ _
    | with_reducible exact fits_map _ _ _ | with_reducible exact fits_replicate _ _ _
    | with_reducible exact fitsMck_same _ | with_reducible apply FitsMck.mk
    | with_reducible exact fun _ => fits_same _ _ | with_reducible exact fun _ => fits_upd _ _ _ _
    | with_reducible exact fun _ => fits_set _ _ _ _ | with_reducible exact fun _ => fits_map _ _ _
    | with_reducible exact fun _ => fits_replicate _ _ _ | dsimp only

theorem kept_execCuePush (hP : Closed F P) (hmck : F .mck) (r : Requester) (s : State) (h0 : P s) : After P
    (execCuePush r s) := by
  unfold execCuePush
  try dsimp only
  repeat' first
    | with_reducible assumption | intro _ | with_reducible apply kept_cuePush hP hmck
    | with_reducible apply kept_onWrite hP | with_reducible apply after_next | dsimp only

theorem kept_dropCue (hP : Closed F P) (hmck : F .mck) (s : State) (h : Nat) (h0 : P s) : P (dropCue s h) := by
  unfold dropCue
  try dsimp only
  repeat' first
    | with_reducible assumption | with_reducible apply kept_setCues hP hmck | dsimp only

theorem kept_cueCancel (hP : Closed F P) (hmck : F .mck) (s : State) (q : Nat) (h : Nat) (h0 : P s) : P (cueCancel s
    q h) := by
  unfold cueCancel
  try dsimp only
  repeat' first
    | with_reducible assumption | with_reducible apply kept_cueRefuse hP | with_reducible apply kept_dropCue hP hmck
    | with_reducible apply kept_putQ hP | with_reducible apply kept_ite | split | dsimp only

theorem kept_execCueCancel (hP : Closed F P) (hmck : F .mck) (r : Requester) (h : BitVec 16) (s : State) (h0 : P s)
    : After P (execCueCancel r h s) := by
  unfold execCueCancel
  try dsimp only
  repeat' first
    | with_reducible assumption | intro _ | with_reducible apply kept_cueCancel hP hmck
    | with_reducible apply kept_onWrite hP | with_reducible apply after_next | dsimp only

theorem kept_cueFlush (hP : Closed F P) (hmck : F .mck) (s : State) (h0 : P s) : P (cueFlush s) := by
  unfold cueFlush
  try dsimp only
  repeat' first
    | with_reducible assumption | with_reducible apply kept_raise hP | with_reducible apply kept_setCues hP hmck
    | dsimp only

theorem kept_execCueFlush (hP : Closed F P) (hmck : F .mck) (r : Requester) (s : State) (h0 : P s) : After P
    (execCueFlush r s) := by
  unfold execCueFlush
  try dsimp only
  repeat' first
    | with_reducible assumption | intro _ | with_reducible apply kept_cueFlush hP hmck
    | with_reducible apply kept_onWrite hP | with_reducible apply after_next | dsimp only

theorem kept_setCueLvl (hP : Closed F P) (hmck : F .mck) (s : State) (n : Nat) (v : Bool) (fall : Option PC64) (h0 :
    P s) : P (setCueLvl s n v fall) := by
  unfold setCueLvl
  try dsimp only
  repeat' first
    | with_reducible assumption | with_reducible exact Or.inr hmck | with_reducible exact Or.inl rfl
    | with_reducible apply hP.others | with_reducible exact fits_same _ _ | with_reducible exact fits_upd _ _ _ _
    | with_reducible exact fits_set _ _ _ _ | with_reducible exact fits_map _ _ _
    | with_reducible exact fits_replicate _ _ _ | with_reducible exact fitsMck_same _
    | with_reducible apply FitsMck.mk | with_reducible exact fun _ => fits_same _ _
    | with_reducible exact fun _ => fits_upd _ _ _ _ | with_reducible exact fun _ => fits_set _ _ _ _
    | with_reducible exact fun _ => fits_map _ _ _ | with_reducible exact fun _ => fits_replicate _ _ _ | dsimp only

theorem kept_cueAct (hP : Closed F P) (hmck : F .mck) (s : State) (e : CueEnt) (h0 : P s) : P (cueAct s e) := by
  unfold cueAct
  try dsimp only
  repeat' first
    | with_reducible assumption | with_reducible apply kept_setCueLvl hP hmck | with_reducible apply kept_ite
    | split | dsimp only

theorem kept_fireCue (hP : Closed F P) (hmck : F .mck) (s : State) (e : CueEnt) (h0 : P s) : P (fireCue s e) := by
  unfold fireCue
  try dsimp only
  repeat' first
    | with_reducible assumption | with_reducible apply kept_bump hP | with_reducible apply kept_cueAct hP hmck
    | with_reducible apply kept_dropCue hP hmck | with_reducible apply kept_raiseIf hP
    | with_reducible apply kept_record hP | with_reducible apply kept_ite | dsimp only

theorem kept_execCueFired (hP : Closed F P) (hclk : F .clk) (hmck : F .mck) (s : State) (h0 : P s) : After P
    (execCueFired s) := by
  unfold execCueFired
  try dsimp only
  repeat' first
    | with_reducible assumption | with_reducible apply kept_advPc hP hclk
    | with_reducible apply kept_fireCue hP hmck | with_reducible apply kept_ite | with_reducible apply after_next
    | with_reducible apply after_ite | split | dsimp only

theorem kept_updCue (hP : Closed F P) (hmck : F .mck) (s : State) (h : Nat) (f : CueEnt → CueEnt) (h0 : P s) : P
    (updCue s h f) := by
  unfold updCue
  try dsimp only
  repeat' first
    | with_reducible assumption | with_reducible apply kept_ite | with_reducible exact Or.inr hmck
    | with_reducible exact Or.inl rfl | with_reducible apply hP.others | with_reducible exact fits_same _ _
    | with_reducible exact fits_upd _ _ _ _ | with_reducible exact fits_set _ _ _ _
    | with_reducible exact fits_map _ _ _ | with_reducible exact fits_replicate _ _ _
    | with_reducible exact fitsMck_same _ | with_reducible apply FitsMck.mk
    | with_reducible exact fun _ => fits_same _ _ | with_reducible exact fun _ => fits_upd _ _ _ _
    | with_reducible exact fun _ => fits_set _ _ _ _ | with_reducible exact fun _ => fits_map _ _ _
    | with_reducible exact fun _ => fits_replicate _ _ _ | dsimp only

theorem kept_execCueFrameDispatch (hP : Closed F P) (hclk : F .clk) (hmck : F .mck) (hports : F .ports) (hrings : F
    .rings) (s : State) (h0 : P s) : After P (execCueFrameDispatch s) := by
  unfold execCueFrameDispatch
  try dsimp only
  repeat' first
    | with_reducible assumption | intro _ | with_reducible apply kept_advPc hP hclk
    | with_reducible apply kept_submitSoft hP hmck hports hrings | with_reducible apply kept_updCue hP hmck
    | with_reducible apply kept_ite | with_reducible apply kept_foldl | with_reducible apply kept_foldl_fst
    | with_reducible apply after_next | with_reducible apply after_ite | split | dsimp only

theorem kept_cueComplete (hP : Closed F P) (hmck : F .mck) (s : State) (e : CueEnt) (port : Nat) (status : Nat) (h0
    : P s) : P (cueComplete s e port status) := by
  unfold cueComplete
  try dsimp only
  repeat' first
    | with_reducible assumption | with_reducible apply kept_bump hP | with_reducible apply kept_dropCue hP hmck
    | with_reducible apply kept_put hP | with_reducible apply kept_raise hP
    | with_reducible apply kept_updCue hP hmck | with_reducible apply kept_ite | dsimp only

theorem kept_execCueFrameComplete (hP : Closed F P) (hmck : F .mck) (s : State) (h0 : P s) : After P
    (execCueFrameComplete s) := by
  unfold execCueFrameComplete
  try dsimp only
  repeat' first
    | with_reducible assumption | with_reducible apply kept_cueComplete hP hmck | with_reducible apply after_next
    | with_reducible exact Or.inr hmck | with_reducible exact Or.inl rfl | with_reducible apply hP.others
    | with_reducible exact fits_same _ _ | with_reducible exact fits_upd _ _ _ _
    | with_reducible exact fits_set _ _ _ _ | with_reducible exact fits_map _ _ _
    | with_reducible exact fits_replicate _ _ _ | with_reducible exact fitsMck_same _
    | with_reducible apply FitsMck.mk | with_reducible exact fun _ => fits_same _ _
    | with_reducible exact fun _ => fits_upd _ _ _ _ | with_reducible exact fun _ => fits_set _ _ _ _
    | with_reducible exact fun _ => fits_map _ _ _ | with_reducible exact fun _ => fits_replicate _ _ _ | split
    | dsimp only

theorem kept_execCueFrameLost (hP : Closed F P) (hclk : F .clk) (hmck : F .mck) (s : State) (h0 : P s) : After P
    (execCueFrameLost s) := by
  unfold execCueFrameLost
  try dsimp only
  repeat' first
    | with_reducible assumption | with_reducible apply kept_advPc hP hclk
    | with_reducible apply kept_cueComplete hP hmck | with_reducible apply after_next | split | dsimp only

theorem kept_mckSafeLine (hP : Closed F P) (hmck : F .mck) (s : State) (b : Bool) (h0 : P s) : P (mckSafeLine s b)
    := by
  unfold mckSafeLine
  try dsimp only
  repeat' first
    | with_reducible assumption | intro _ | with_reducible apply kept_cueFlush hP hmck
    | with_reducible apply kept_putB hP | with_reducible apply kept_refreshGates hP hmck
    | with_reducible apply kept_setCueLvl hP hmck | with_reducible apply kept_ite | with_reducible apply kept_foldl
    | with_reducible apply kept_foldl_fst | dsimp only

/-! ### Safe -/

theorem kept_safEnter (hP : Closed F P) (hsaf : F .saf) (hmck : F .mck) (s : State) (cause : Nat) (src : Nat) (h0 :
    P s) : P (safEnter s cause src) := by
  unfold safEnter
  try dsimp only
  repeat' first
    | with_reducible assumption | with_reducible apply kept_bump hP | with_reducible apply kept_mckSafeLine hP hmck
    | with_reducible apply kept_put hP | with_reducible apply kept_putB hP | with_reducible apply kept_raise hP
    | with_reducible apply kept_record hP | with_reducible apply kept_ite | with_reducible exact Or.inr hsaf
    | with_reducible exact Or.inr hmck | with_reducible exact Or.inl rfl | with_reducible apply hP.others
    | with_reducible exact fits_same _ _ | with_reducible exact fits_upd _ _ _ _
    | with_reducible exact fits_set _ _ _ _ | with_reducible exact fits_map _ _ _
    | with_reducible exact fits_replicate _ _ _ | with_reducible exact fitsMck_same _
    | with_reducible exact fun _ => fits_same _ _ | with_reducible exact fun _ => fits_upd _ _ _ _
    | with_reducible exact fun _ => fits_set _ _ _ _ | with_reducible exact fun _ => fits_map _ _ _
    | with_reducible exact fun _ => fits_replicate _ _ _ | dsimp only

theorem kept_safExit (hP : Closed F P) (hsaf : F .saf) (hmck : F .mck) (s : State) (auto : Bool) (who : Nat) (h0 : P
    s) : P (safExit s auto who) := by
  unfold safExit
  try dsimp only
  repeat' first
    | with_reducible assumption | intro _ | with_reducible apply kept_mckSafeLine hP hmck
    | with_reducible apply kept_put hP | with_reducible apply kept_putB hP | with_reducible apply kept_raise hP
    | with_reducible apply kept_record hP | with_reducible apply kept_foldl | with_reducible apply kept_foldl_fst
    | with_reducible exact Or.inr hsaf | with_reducible exact Or.inr hmck | with_reducible exact Or.inl rfl
    | with_reducible apply hP.others | with_reducible exact fits_same _ _ | with_reducible exact fits_upd _ _ _ _
    | with_reducible exact fits_set _ _ _ _ | with_reducible exact fits_map _ _ _
    | with_reducible exact fits_replicate _ _ _ | with_reducible exact fitsMck_same _
    | with_reducible exact fun _ => fits_same _ _ | with_reducible exact fun _ => fits_upd _ _ _ _
    | with_reducible exact fun _ => fits_set _ _ _ _ | with_reducible exact fun _ => fits_map _ _ _
    | with_reducible exact fun _ => fits_replicate _ _ _ | dsimp only

theorem kept_safAuto (hP : Closed F P) (hsaf : F .saf) (hmck : F .mck) (s : State) (h0 : P s) : P (safAuto s) := by
  unfold safAuto
  try dsimp only
  repeat' first
    | with_reducible assumption | with_reducible apply kept_safExit hP hsaf hmck | with_reducible apply kept_ite
    | dsimp only

theorem kept_safDegrade (hP : Closed F P) (hsaf : F .saf) (s : State) (rose : Nat) (h0 : P s) : P (safDegrade s
    rose) := by
  unfold safDegrade
  try dsimp only
  repeat' first
    | with_reducible assumption | with_reducible apply kept_putB hP | with_reducible apply kept_raise hP
    | with_reducible apply kept_record hP | with_reducible apply kept_ite | with_reducible exact Or.inr hsaf
    | with_reducible exact Or.inl rfl | with_reducible apply hP.others | with_reducible exact fits_same _ _
    | with_reducible exact fits_upd _ _ _ _ | with_reducible exact fits_set _ _ _ _
    | with_reducible exact fits_map _ _ _ | with_reducible exact fits_replicate _ _ _
    | with_reducible exact fitsMck_same _ | with_reducible exact fun _ => fits_same _ _
    | with_reducible exact fun _ => fits_upd _ _ _ _ | with_reducible exact fun _ => fits_set _ _ _ _
    | with_reducible exact fun _ => fits_map _ _ _ | with_reducible exact fun _ => fits_replicate _ _ _ | dsimp only

theorem kept_safSettle (hP : Closed F P) (hsaf : F .saf) (s : State) (h0 : P s) : P (safSettle s) := by
  unfold safSettle
  try dsimp only
  repeat' first
    | with_reducible assumption | with_reducible apply kept_putB hP | with_reducible apply kept_ite
    | with_reducible exact Or.inr hsaf | with_reducible exact Or.inl rfl | with_reducible apply hP.others
    | with_reducible exact fits_same _ _ | with_reducible exact fits_upd _ _ _ _
    | with_reducible exact fits_set _ _ _ _ | with_reducible exact fits_map _ _ _
    | with_reducible exact fits_replicate _ _ _ | with_reducible exact fitsMck_same _
    | with_reducible exact fun _ => fits_same _ _ | with_reducible exact fun _ => fits_upd _ _ _ _
    | with_reducible exact fun _ => fits_set _ _ _ _ | with_reducible exact fun _ => fits_map _ _ _
    | with_reducible exact fun _ => fits_replicate _ _ _ | dsimp only

theorem kept_safEsc (hP : Closed F P) (hsaf : F .saf) (s : State) (h0 : P s) : P (safEsc s) := by
  unfold safEsc
  try dsimp only
  repeat' first
    | with_reducible assumption | with_reducible exact Or.inr hsaf | with_reducible exact Or.inl rfl
    | with_reducible apply hP.others | with_reducible exact fits_same _ _ | with_reducible exact fits_upd _ _ _ _
    | with_reducible exact fits_set _ _ _ _ | with_reducible exact fits_map _ _ _
    | with_reducible exact fits_replicate _ _ _ | with_reducible exact fitsMck_same _
    | with_reducible exact fun _ => fits_same _ _ | with_reducible exact fun _ => fits_upd _ _ _ _
    | with_reducible exact fun _ => fits_set _ _ _ _ | with_reducible exact fun _ => fits_map _ _ _
    | with_reducible exact fun _ => fits_replicate _ _ _ | dsimp only

theorem kept_safRise (hP : Closed F P) (hsaf : F .saf) (hmck : F .mck) (s : State) (rose : Nat) (cause : Nat) (h0 :
    P s) : P (safRise s rose cause) := by
  unfold safRise
  try dsimp only
  repeat' first
    | with_reducible assumption | intro _ | with_reducible apply kept_bump hP | with_reducible apply kept_raise hP
    | with_reducible apply kept_safDegrade hP hsaf | with_reducible apply kept_safEnter hP hsaf hmck
    | with_reducible apply kept_safEsc hP hsaf | with_reducible apply kept_safSettle hP hsaf
    | with_reducible apply kept_foldl | with_reducible apply kept_foldl_fst | split | dsimp only

theorem kept_safEval (hP : Closed F P) (hsaf : F .saf) (hmck : F .mck) (s : State) (cause : Nat) (h0 : P s) : P
    (safEval s cause) := by
  unfold safEval
  try dsimp only
  repeat' first
    | with_reducible assumption | with_reducible apply kept_safRise hP hsaf hmck | with_reducible apply kept_wr64 hP
    | dsimp only

theorem kept_execDoubtChange (hP : Closed F P) (hsaf : F .saf) (hmck : F .mck) (s : State) (h0 : P s) : After P
    (execDoubtChange s) := by
  unfold execDoubtChange
  try dsimp only
  repeat' first
    | with_reducible assumption | with_reducible apply kept_safEval hP hsaf hmck | with_reducible apply after_next
    | dsimp only

theorem kept_execDegradeExit (hP : Closed F P) (hclk : F .clk) (hsaf : F .saf) (s : State) (h0 : P s) : After P
    (execDegradeExit s) := by
  unfold execDegradeExit
  try dsimp only
  repeat' first
    | with_reducible assumption | with_reducible apply kept_advMono hP hclk | with_reducible apply kept_putB hP
    | with_reducible apply kept_raise hP | with_reducible apply kept_record hP | with_reducible apply after_next
    | with_reducible exact Or.inr hclk | with_reducible exact Or.inr hsaf | with_reducible exact Or.inl rfl
    | with_reducible apply hP.others | with_reducible exact fits_same _ _ | with_reducible exact fits_upd _ _ _ _
    | with_reducible exact fits_set _ _ _ _ | with_reducible exact fits_map _ _ _
    | with_reducible exact fits_replicate _ _ _ | with_reducible exact fitsMck_same _
    | with_reducible exact fun _ => fits_same _ _ | with_reducible exact fun _ => fits_upd _ _ _ _
    | with_reducible exact fun _ => fits_set _ _ _ _ | with_reducible exact fun _ => fits_map _ _ _
    | with_reducible exact fun _ => fits_replicate _ _ _ | split | dsimp only

theorem kept_execSafDieLost (hP : Closed F P) (hclk : F .clk) (hsaf : F .saf) (hmck : F .mck) (die : Fin 8) (s :
    State) (h0 : P s) : After P (execSafDieLost die s) := by
  unfold execSafDieLost
  try dsimp only
  repeat' first
    | with_reducible assumption | with_reducible apply kept_advMono hP hclk | with_reducible apply kept_doubt hP
    | with_reducible apply kept_safEval hP hsaf hmck | with_reducible apply kept_wrN hP
    | with_reducible apply kept_ite | with_reducible apply after_next | with_reducible apply after_ite
    | with_reducible exact Or.inr hclk | with_reducible exact Or.inr hsaf | with_reducible exact Or.inr hmck
    | with_reducible exact Or.inl rfl | with_reducible apply hP.others | with_reducible exact fits_same _ _
    | with_reducible exact fits_upd _ _ _ _ | with_reducible exact fits_set _ _ _ _
    | with_reducible exact fits_map _ _ _ | with_reducible exact fits_replicate _ _ _
    | with_reducible exact fitsMck_same _ | with_reducible exact fun _ => fits_same _ _
    | with_reducible exact fun _ => fits_upd _ _ _ _ | with_reducible exact fun _ => fits_set _ _ _ _
    | with_reducible exact fun _ => fits_map _ _ _ | with_reducible exact fun _ => fits_replicate _ _ _ | dsimp only

theorem kept_execReady (hP : Closed F P) (hclk : F .clk) (hsaf : F .saf) (hmck : F .mck) (s : State) (h0 : P s) :
    After P (execReady s) := by
  unfold execReady
  try dsimp only
  repeat' first
    | with_reducible assumption | with_reducible apply kept_advMono hP hclk | with_reducible apply kept_putB hP
    | with_reducible apply kept_raise hP | with_reducible apply kept_safAuto hP hsaf hmck
    | with_reducible apply kept_ite | with_reducible apply after_next | with_reducible apply after_ite
    | with_reducible exact Or.inr hclk | with_reducible exact Or.inr hsaf | with_reducible exact Or.inr hmck
    | with_reducible exact Or.inl rfl | with_reducible apply hP.others | with_reducible exact fits_same _ _
    | with_reducible exact fits_upd _ _ _ _ | with_reducible exact fits_set _ _ _ _
    | with_reducible exact fits_map _ _ _ | with_reducible exact fits_replicate _ _ _
    | with_reducible exact fitsMck_same _ | with_reducible exact fun _ => fits_same _ _
    | with_reducible exact fun _ => fits_upd _ _ _ _ | with_reducible exact fun _ => fits_set _ _ _ _
    | with_reducible exact fun _ => fits_map _ _ _ | with_reducible exact fun _ => fits_replicate _ _ _ | split
    | dsimp only

theorem kept_safCtrl (hP : Closed F P) (hsaf : F .saf) (hmck : F .mck) (s : State) (r : Requester) (rel : Bool)
    (force : Bool) (unforce : Bool) (h0 : P s) : P (safCtrl s r rel force unforce) := by
  unfold safCtrl
  try dsimp only
  repeat' first
    | with_reducible assumption | with_reducible apply kept_doubt hP | with_reducible apply kept_raise hP
    | with_reducible apply kept_safEval hP hsaf hmck | with_reducible apply kept_safExit hP hsaf hmck
    | with_reducible apply kept_ite | dsimp only

theorem kept_execRelease (hP : Closed F P) (hsaf : F .saf) (hmck : F .mck) (r : Requester) (s : State) (h0 : P s) :
    After P (execRelease r s) := by
  unfold execRelease
  try dsimp only
  repeat' first
    | with_reducible assumption | intro _ | with_reducible apply kept_onWrite hP
    | with_reducible apply kept_safCtrl hP hsaf hmck | with_reducible apply after_next | dsimp only

theorem kept_execForce (hP : Closed F P) (hsaf : F .saf) (hmck : F .mck) (r : Requester) (s : State) (h0 : P s) :
    After P (execForce r s) := by
  unfold execForce
  try dsimp only
  repeat' first
    | with_reducible assumption | intro _ | with_reducible apply kept_onWrite hP
    | with_reducible apply kept_safCtrl hP hsaf hmck | with_reducible apply after_next | dsimp only

theorem kept_execUnforce (hP : Closed F P) (hsaf : F .saf) (hmck : F .mck) (r : Requester) (s : State) (h0 : P s) :
    After P (execUnforce r s) := by
  unfold execUnforce
  try dsimp only
  repeat' first
    | with_reducible assumption | intro _ | with_reducible apply kept_onWrite hP
    | with_reducible apply kept_safCtrl hP hsaf hmck | with_reducible apply after_next | dsimp only

theorem kept_policyWrite (hP : Closed F P) (hsaf : F .saf) (hmck : F .mck) (s : State) (k : Nat) (v : Nat) (h0 : P
    s) : P (policyWrite s k v) := by
  unfold policyWrite
  try dsimp only
  repeat' first
    | with_reducible assumption | intro _ | with_reducible apply kept_safRise hP hsaf hmck
    | with_reducible apply kept_wrN hP | with_reducible apply kept_ite | with_reducible apply kept_foldl
    | with_reducible apply kept_foldl_fst | dsimp only

theorem kept_execSafPolicyWrite (hP : Closed F P) (hsaf : F .saf) (hmck : F .mck) (r : Requester) (k : Fin 4) (v :
    Word) (s : State) (h0 : P s) : After P (execSafPolicyWrite r k v s) := by
  unfold execSafPolicyWrite
  try dsimp only
  repeat' first
    | with_reducible assumption | intro _ | with_reducible apply kept_lockViol hP
    | with_reducible apply kept_onWrite hP | with_reducible apply kept_policyWrite hP hsaf hmck
    | with_reducible apply kept_ite | with_reducible apply after_next | with_reducible apply after_ite | dsimp only

theorem kept_execSafAutoWrite (hP : Closed F P) (hsaf : F .saf) (hmck : F .mck) (r : Requester) (v : Word) (s :
    State) (h0 : P s) : After P (execSafAutoWrite r v s) := by
  unfold execSafAutoWrite
  try dsimp only
  repeat' first
    | with_reducible assumption | intro _ | with_reducible apply kept_lockViol hP
    | with_reducible apply kept_onWrite hP | with_reducible apply kept_safAuto hP hsaf hmck
    | with_reducible apply kept_wrN hP | with_reducible apply kept_ite | with_reducible apply after_next
    | with_reducible apply after_ite | dsimp only

theorem kept_escMaskWrite (hP : Closed F P) (hsaf : F .saf) (s : State) (hi : Bool) (v : Nat) (h0 : P s) : P
    (escMaskWrite s hi v) := by
  unfold escMaskWrite
  try dsimp only
  repeat' first
    | with_reducible assumption | with_reducible apply kept_safEsc hP hsaf | with_reducible apply kept_wrN hP
    | with_reducible apply kept_ite | dsimp only

theorem kept_safReset (hP : Closed F P) (hsaf : F .saf) (hmck : F .mck) (s : State) (cause : Nat) (h0 : P s) : P
    (safReset s cause) := by
  unfold safReset
  try dsimp only
  repeat' first
    | with_reducible assumption | with_reducible apply kept_safEnter hP hsaf hmck
    | with_reducible apply kept_safSettle hP hsaf | with_reducible apply kept_wr64 hP
    | with_reducible apply kept_wrN hP | with_reducible exact Or.inr hsaf | with_reducible exact Or.inr hmck
    | with_reducible exact Or.inl rfl | with_reducible apply hP.others | with_reducible exact fits_same _ _
    | with_reducible exact fits_upd _ _ _ _ | with_reducible exact fits_set _ _ _ _
    | with_reducible exact fits_map _ _ _ | with_reducible exact fits_replicate _ _ _
    | with_reducible exact fitsMck_same _ | with_reducible exact fun _ => fits_same _ _
    | with_reducible exact fun _ => fits_upd _ _ _ _ | with_reducible exact fun _ => fits_set _ _ _ _
    | with_reducible exact fun _ => fits_map _ _ _ | with_reducible exact fun _ => fits_replicate _ _ _ | dsimp only

theorem kept_safEscCancel (hP : Closed F P) (hsaf : F .saf) (s : State) (h0 : P s) : P (safEscCancel s) := by
  unfold safEscCancel
  try dsimp only
  repeat' first
    | with_reducible assumption | with_reducible apply kept_safEsc hP hsaf | with_reducible exact Or.inr hsaf
    | with_reducible exact Or.inl rfl | with_reducible apply hP.others | with_reducible exact fits_same _ _
    | with_reducible exact fits_upd _ _ _ _ | with_reducible exact fits_set _ _ _ _
    | with_reducible exact fits_map _ _ _ | with_reducible exact fits_replicate _ _ _
    | with_reducible exact fitsMck_same _ | with_reducible exact fun _ => fits_same _ _
    | with_reducible exact fun _ => fits_upd _ _ _ _ | with_reducible exact fun _ => fits_set _ _ _ _
    | with_reducible exact fun _ => fits_map _ _ _ | with_reducible exact fun _ => fits_replicate _ _ _ | dsimp only

theorem kept_safKeep (hP : Closed F P) (hsaf : F .saf) (s : State) (h0 : P s) : P (safKeep s) := by
  unfold safKeep
  try dsimp only
  repeat' first
    | with_reducible assumption | with_reducible apply kept_ite | with_reducible exact Or.inr hsaf
    | with_reducible exact Or.inl rfl | with_reducible apply hP.others | with_reducible exact fits_same _ _
    | with_reducible exact fits_upd _ _ _ _ | with_reducible exact fits_set _ _ _ _
    | with_reducible exact fits_map _ _ _ | with_reducible exact fits_replicate _ _ _
    | with_reducible exact fitsMck_same _ | with_reducible exact fun _ => fits_same _ _
    | with_reducible exact fun _ => fits_upd _ _ _ _ | with_reducible exact fun _ => fits_set _ _ _ _
    | with_reducible exact fun _ => fits_map _ _ _ | with_reducible exact fun _ => fits_replicate _ _ _ | dsimp only

theorem kept_safKeepEnd (hP : Closed F P) (hsaf : F .saf) (s : State) (h0 : P s) : P (safKeepEnd s) := by
  unfold safKeepEnd
  try dsimp only
  repeat' first
    | with_reducible assumption | with_reducible apply kept_ite | with_reducible exact Or.inr hsaf
    | with_reducible exact Or.inl rfl | with_reducible apply hP.others | with_reducible exact fits_same _ _
    | with_reducible exact fits_upd _ _ _ _ | with_reducible exact fits_set _ _ _ _
    | with_reducible exact fits_map _ _ _ | with_reducible exact fits_replicate _ _ _
    | with_reducible exact fitsMck_same _ | with_reducible exact fun _ => fits_same _ _
    | with_reducible exact fun _ => fits_upd _ _ _ _ | with_reducible exact fun _ => fits_set _ _ _ _
    | with_reducible exact fun _ => fits_map _ _ _ | with_reducible exact fun _ => fits_replicate _ _ _ | dsimp only

/-! ### Tdc -/

theorem kept_updTdc (hP : Closed F P) (htdc : F .tdc) (s : State) (f : Tdc → Tdc) (h0 : P s) : P (updTdc s f) := by
  unfold updTdc
  try dsimp only
  repeat' first
    | with_reducible assumption | with_reducible exact Or.inr htdc | with_reducible exact Or.inl rfl
    | with_reducible apply hP.others | with_reducible exact fits_same _ _ | with_reducible exact fits_upd _ _ _ _
    | with_reducible exact fits_set _ _ _ _ | with_reducible exact fits_map _ _ _
    | with_reducible exact fits_replicate _ _ _ | with_reducible exact fitsMck_same _
    | with_reducible exact fun _ => fits_same _ _ | with_reducible exact fun _ => fits_upd _ _ _ _
    | with_reducible exact fun _ => fits_set _ _ _ _ | with_reducible exact fun _ => fits_map _ _ _
    | with_reducible exact fun _ => fits_replicate _ _ _ | dsimp only

theorem kept_tdcPush (hP : Closed F P) (htdc : F .tdc) (s : State) (w : List Nat) (h0 : P s) : P (tdcPush s w) := by
  unfold tdcPush
  try dsimp only
  repeat' first
    | with_reducible assumption | with_reducible apply kept_bump hP | with_reducible apply kept_put hP
    | with_reducible apply kept_raise hP | with_reducible apply kept_raiseIf hP
    | with_reducible apply kept_updTdc hP htdc | with_reducible apply kept_ite | dsimp only

theorem kept_armNow (hP : Closed F P) (htdc : F .tdc) (s : State) (h0 : P s) : P (armNow s) := by
  unfold armNow
  try dsimp only
  repeat' first
    | with_reducible assumption | with_reducible apply kept_put hP | with_reducible apply kept_putB hP
    | with_reducible apply kept_updTdc hP htdc | dsimp only

theorem kept_armOn (hP : Closed F P) (htdc : F .tdc) (s : State) (h0 : P s) : P (armOn s) := by
  unfold armOn
  try dsimp only
  repeat' first
    | with_reducible assumption | with_reducible apply kept_putB hP | with_reducible apply kept_updTdc hP htdc
    | dsimp only

theorem kept_arm (hP : Closed F P) (htdc : F .tdc) (s : State) (soft : Bool) (h0 : P s) : P (arm s soft) := by
  unfold arm
  try dsimp only
  repeat' first
    | with_reducible assumption | with_reducible apply kept_armNow hP htdc | with_reducible apply kept_put hP
    | with_reducible apply kept_raise hP | with_reducible apply kept_ite | dsimp only

theorem kept_execTdcArm (hP : Closed F P) (htdc : F .tdc) (r : Requester) (s : State) (h0 : P s) : After P
    (execTdcArm r s) := by
  unfold execTdcArm
  try dsimp only
  repeat' first
    | with_reducible assumption | intro _ | with_reducible apply kept_arm hP htdc
    | with_reducible apply kept_onWrite hP | with_reducible apply kept_ite | with_reducible apply after_next
    | with_reducible apply after_ite | dsimp only

theorem kept_closeWindow (hP : Closed F P) (htdc : F .tdc) (s : State) (h0 : P s) : P (closeWindow s) := by
  unfold closeWindow
  try dsimp only
  repeat' first
    | with_reducible assumption | with_reducible apply kept_putB hP | with_reducible apply kept_updTdc hP htdc
    | dsimp only

theorem kept_writeMeans (hP : Closed F P) (htdc : F .tdc) (s : State) (h0 : P s) : P (writeMeans s) := by
  unfold writeMeans
  try dsimp only
  repeat' first
    | with_reducible assumption | intro _ | with_reducible apply kept_tdcPush hP htdc
    | with_reducible apply kept_ite | with_reducible apply kept_foldl | with_reducible apply kept_foldl_fst
    | dsimp only

theorem kept_afterDone (hP : Closed F P) (htdc : F .tdc) (s : State) (more : Bool) (h0 : P s) : P (afterDone s more)
    := by
  unfold afterDone
  try dsimp only
  repeat' first
    | with_reducible assumption | with_reducible apply kept_closeWindow hP htdc | with_reducible apply kept_putB hP
    | with_reducible apply kept_updTdc hP htdc | with_reducible apply kept_ite | dsimp only

theorem kept_countMeas (hP : Closed F P) (htdc : F .tdc) (s : State) (h0 : P s) : P (countMeas s) := by
  unfold countMeas
  try dsimp only
  repeat' first
    | with_reducible assumption | with_reducible apply kept_bump hP | with_reducible apply kept_updTdc hP htdc
    | dsimp only

theorem kept_stopResult (hP : Closed F P) (htdc : F .tdc) (s : State) (start : Option PC64) (x : TdcStop) (h0 : P s)
    : P (stopResult s start x) := by
  unfold stopResult
  try dsimp only
  repeat' first
    | with_reducible assumption | with_reducible apply kept_tdcPush hP htdc | split | dsimp only

theorem kept_countStops (hP : Closed F P) (s : State) (start : Option PC64) (l : List TdcStop) (h0 : P s) : P
    (countStops s start l) := by
  unfold countStops
  try dsimp only
  repeat' first
    | with_reducible assumption | with_reducible apply kept_bumpBy hP | dsimp only

theorem kept_doneInterval (hP : Closed F P) (htdc : F .tdc) (s : State) (r : TdcRun) (h0 : P s) : P (doneInterval s
    r) := by
  unfold doneInterval
  try dsimp only
  repeat' first
    | with_reducible assumption | intro _ | with_reducible apply kept_afterDone hP htdc
    | with_reducible apply kept_countMeas hP htdc | with_reducible apply kept_countStops hP
    | with_reducible apply kept_stopResult hP htdc | with_reducible apply kept_updTdc hP htdc
    | with_reducible apply kept_writeMeans hP htdc | with_reducible apply kept_ite | with_reducible apply kept_foldl
    | with_reducible apply kept_foldl_fst | dsimp only

theorem kept_doneFreq (hP : Closed F P) (htdc : F .tdc) (s : State) (r : TdcRun) (ok : Bool) (h0 : P s) : P
    (doneFreq s r ok) := by
  unfold doneFreq
  try dsimp only
  repeat' first
    | with_reducible assumption | with_reducible apply kept_afterDone hP htdc | with_reducible apply kept_bump hP
    | with_reducible apply kept_countMeas hP htdc | with_reducible apply kept_tdcPush hP htdc
    | with_reducible apply kept_ite | dsimp only

theorem kept_partialMeans (hP : Closed F P) (htdc : F .tdc) (s : State) (h0 : P s) : P (partialMeans s) := by
  unfold partialMeans
  try dsimp only
  repeat' first
    | with_reducible assumption | with_reducible apply kept_updTdc hP htdc
    | with_reducible apply kept_writeMeans hP htdc | with_reducible apply kept_ite | dsimp only

theorem kept_tdcDisarm (hP : Closed F P) (htdc : F .tdc) (s : State) (h0 : P s) : P (tdcDisarm s) := by
  unfold tdcDisarm
  try dsimp only
  repeat' first
    | with_reducible assumption | with_reducible apply kept_closeWindow hP htdc
    | with_reducible apply kept_partialMeans hP htdc | dsimp only

theorem kept_execTdcDisarm (hP : Closed F P) (htdc : F .tdc) (r : Requester) (s : State) (h0 : P s) : After P
    (execTdcDisarm r s) := by
  unfold execTdcDisarm
  try dsimp only
  repeat' first
    | with_reducible assumption | intro _ | with_reducible apply kept_onWrite hP
    | with_reducible apply kept_tdcDisarm hP htdc | with_reducible apply kept_ite | with_reducible apply after_next
    | with_reducible apply after_ite | dsimp only

theorem kept_tdcFlush (hP : Closed F P) (htdc : F .tdc) (s : State) (h0 : P s) : P (tdcFlush s) := by
  unfold tdcFlush
  try dsimp only
  repeat' first
    | with_reducible assumption | with_reducible apply kept_put hP | with_reducible apply kept_updTdc hP htdc
    | dsimp only

theorem kept_execTdcFlush (hP : Closed F P) (htdc : F .tdc) (r : Requester) (s : State) (h0 : P s) : After P
    (execTdcFlush r s) := by
  unfold execTdcFlush
  try dsimp only
  repeat' first
    | with_reducible assumption | intro _ | with_reducible apply kept_onWrite hP
    | with_reducible apply kept_tdcFlush hP htdc | with_reducible apply after_next | dsimp only

theorem kept_execTdcRearm (hP : Closed F P) (hclk : F .clk) (htdc : F .tdc) (s : State) (h0 : P s) : After P
    (execTdcRearm s) := by
  unfold execTdcRearm
  try dsimp only
  repeat' first
    | with_reducible assumption | with_reducible apply kept_advP hP hclk | with_reducible apply kept_armNow hP htdc
    | with_reducible apply kept_armOn hP htdc | with_reducible apply kept_ite | with_reducible apply after_next
    | with_reducible apply after_ite | split | dsimp only

theorem kept_gateCloses (hP : Closed F P) (htdc : F .tdc) (s : State) (h0 : P s) : P (gateCloses s) := by
  unfold gateCloses
  try dsimp only
  repeat' first
    | with_reducible assumption | with_reducible apply kept_closeWindow hP htdc
    | with_reducible apply kept_countMeas hP htdc | with_reducible apply kept_doneFreq hP htdc
    | with_reducible apply kept_doneInterval hP htdc | with_reducible apply kept_tdcDisarm hP htdc
    | with_reducible apply kept_ite | split | dsimp only

theorem kept_gateArms (hP : Closed F P) (htdc : F .tdc) (s : State) (h0 : P s) : P (gateArms s) := by
  unfold gateArms
  try dsimp only
  repeat' first
    | with_reducible assumption | with_reducible apply kept_arm hP htdc | with_reducible apply kept_armOn hP htdc
    | with_reducible apply kept_ite | dsimp only

theorem kept_execTdcGateEdge (hP : Closed F P) (htdc : F .tdc) (high : Bool) (s : State) (h0 : P s) : After P
    (execTdcGateEdge high s) := by
  unfold execTdcGateEdge
  try dsimp only
  repeat' first
    | with_reducible assumption | with_reducible apply kept_arm hP htdc | with_reducible apply kept_gateArms hP htdc
    | with_reducible apply kept_gateCloses hP htdc | with_reducible apply kept_updTdc hP htdc
    | with_reducible apply kept_ite | with_reducible apply after_next | with_reducible apply after_ite | dsimp only

theorem kept_gateFollow (hP : Closed F P) (htdc : F .tdc) (s : State) (h0 : P s) : P (gateFollow s) := by
  unfold gateFollow
  try dsimp only
  repeat' first
    | with_reducible assumption | with_reducible apply kept_arm hP htdc | with_reducible apply kept_ite | dsimp only

theorem kept_preCount (hP : Closed F P) (htdc : F .tdc) (s : State) (c : TdcSet) (ch : Nat) (h0 : P s) : P (preCount
    s c ch).1 := by
  unfold preCount
  try dsimp only
  repeat' first
    | with_reducible assumption | with_reducible apply kept_updTdc hP htdc | with_reducible apply kept_ite
    | with_reducible apply kept_fst_ite | dsimp only

theorem kept_countOrder (hP : Closed F P) (s : State) (n : Nat) (h0 : P s) : P (countOrder s n) := by
  unfold countOrder
  try dsimp only
  repeat' first
    | with_reducible assumption | with_reducible apply kept_bumpBy hP | with_reducible apply kept_raise hP
    | with_reducible apply kept_ite | dsimp only

theorem kept_setRun (hP : Closed F P) (htdc : F .tdc) (s : State) (r : TdcRun) (h0 : P s) : P (setRun s r) := by
  unfold setRun
  try dsimp only
  repeat' first
    | with_reducible assumption | with_reducible apply kept_doneInterval hP htdc | with_reducible apply kept_putB hP
    | with_reducible apply kept_updTdc hP htdc | with_reducible apply kept_ite | dsimp only

theorem kept_stopEdge (hP : Closed F P) (htdc : F .tdc) (s : State) (c : TdcSet) (r : TdcRun) (ch : Nat) (e : PC64)
    (h0 : P s) : P (stopEdge s c r ch e) := by
  unfold stopEdge
  try dsimp only
  repeat' first
    | with_reducible assumption | with_reducible apply kept_countOrder hP | with_reducible apply kept_setRun hP htdc
    | with_reducible apply kept_ite | split | dsimp only

theorem kept_startEdge (hP : Closed F P) (htdc : F .tdc) (s : State) (c : TdcSet) (r : TdcRun) (e : PC64) (h0 : P s)
    : P (startEdge s c r e) := by
  unfold startEdge
  try dsimp only
  repeat' first
    | with_reducible assumption | intro _ | with_reducible apply kept_countOrder hP
    | with_reducible apply kept_setRun hP htdc | with_reducible apply kept_ite | with_reducible apply kept_foldl
    | with_reducible apply kept_foldl_fst | dsimp only

theorem kept_intervalEdge (hP : Closed F P) (htdc : F .tdc) (s : State) (c : TdcSet) (r : TdcRun) (ch : Nat) (e :
    PC64) (h0 : P s) : P (intervalEdge s c r ch e) := by
  unfold intervalEdge
  try dsimp only
  repeat' first
    | with_reducible assumption | with_reducible apply kept_startEdge hP htdc
    | with_reducible apply kept_stopEdge hP htdc | with_reducible apply kept_ite | dsimp only

theorem kept_stampEdge (hP : Closed F P) (htdc : F .tdc) (s : State) (ch : Nat) (e : PC64) (h0 : P s) : P (stampEdge
    s ch e) := by
  unfold stampEdge
  try dsimp only
  repeat' first
    | with_reducible assumption | with_reducible apply kept_tdcPush hP htdc | dsimp only

theorem kept_freqEdge (hP : Closed F P) (htdc : F .tdc) (s : State) (c : TdcSet) (r : TdcRun) (e : PC64) (h0 : P s)
    : P (freqEdge s c r e) := by
  unfold freqEdge
  try dsimp only
  repeat' first
    | with_reducible assumption | with_reducible apply kept_doneFreq hP htdc | with_reducible apply kept_putB hP
    | with_reducible apply kept_updTdc hP htdc | with_reducible apply kept_ite | split | dsimp only

theorem kept_useEdge (hP : Closed F P) (htdc : F .tdc) (s : State) (c : TdcSet) (ch : Nat) (e : PC64) (h0 : P s) : P
    (useEdge s c ch e) := by
  unfold useEdge
  try dsimp only
  repeat' first
    | with_reducible assumption | with_reducible apply kept_freqEdge hP htdc
    | with_reducible apply kept_intervalEdge hP htdc | with_reducible apply kept_stampEdge hP htdc
    | with_reducible apply kept_ite | split | dsimp only

theorem kept_takeEdge (hP : Closed F P) (htdc : F .tdc) (s : State) (c : TdcSet) (ch : Nat) (at' : PC64) (h0 : P s)
    : P (takeEdge s c ch at') := by
  unfold takeEdge
  try dsimp only
  repeat' first
    | with_reducible assumption | with_reducible apply kept_bump hP | with_reducible apply kept_updTdc hP htdc
    | with_reducible apply kept_useEdge hP htdc | with_reducible apply kept_ite | split | dsimp only

theorem kept_execTdcEdge (hP : Closed F P) (hclk : F .clk) (htdc : F .tdc) (ch : Fin 10) (at' : PC64) (falling :
    Bool) (s : State) (h0 : P s) : After P (execTdcEdge ch at' falling s) := by
  unfold execTdcEdge
  try dsimp only
  repeat' first
    | with_reducible assumption | with_reducible apply kept_advPc hP hclk
    | with_reducible apply kept_preCount hP htdc | with_reducible apply kept_takeEdge hP htdc
    | with_reducible apply kept_ite | with_reducible apply kept_fst_ite | with_reducible apply after_next
    | with_reducible apply after_ite | dsimp only

theorem kept_execTdcTimeout (hP : Closed F P) (hclk : F .clk) (htdc : F .tdc) (s : State) (h0 : P s) : After P
    (execTdcTimeout s) := by
  unfold execTdcTimeout
  try dsimp only
  repeat' first
    | with_reducible assumption | with_reducible apply kept_advP hP hclk
    | with_reducible apply kept_closeWindow hP htdc | with_reducible apply kept_countMeas hP htdc
    | with_reducible apply kept_doneFreq hP htdc | with_reducible apply kept_doneInterval hP htdc
    | with_reducible apply kept_ite | with_reducible apply after_next | with_reducible apply after_ite | split
    | dsimp only

theorem kept_execTdcResRead (hP : Closed F P) (htdc : F .tdc) (r : Requester) (s : State) (h0 : P s) : After P
    (execTdcResRead r s) := by
  unfold execTdcResRead
  try dsimp only
  repeat' first
    | with_reducible assumption | intro _ | with_reducible apply kept_onRead hP | with_reducible apply kept_put hP
    | with_reducible apply kept_reply hP | with_reducible apply kept_updTdc hP htdc
    | with_reducible apply kept_wrB hP | with_reducible apply kept_foldl | with_reducible apply kept_foldl_fst
    | with_reducible apply after_next | split | dsimp only

theorem kept_hfCut (hP : Closed F P) (htdc : F .tdc) (s : State) (h0 : P s) : P (hfCut s) := by
  unfold hfCut
  try dsimp only
  repeat' first
    | with_reducible assumption | with_reducible apply kept_doneFreq hP htdc
    | with_reducible apply kept_doneInterval hP htdc | with_reducible apply kept_ite | split | dsimp only

theorem kept_execHfCfgWrite (hP : Closed F P) (htdc : F .tdc) (r : Requester) (v : Word) (s : State) (h0 : P s) :
    After P (execHfCfgWrite r v s) := by
  unfold execHfCfgWrite
  try dsimp only
  repeat' first
    | with_reducible assumption | intro _ | with_reducible apply kept_hfCut hP htdc
    | with_reducible apply kept_lockViol hP | with_reducible apply kept_onWrite hP
    | with_reducible apply kept_updTdc hP htdc | with_reducible apply kept_wrN hP | with_reducible apply kept_ite
    | with_reducible apply after_next | with_reducible apply after_ite | dsimp only

theorem kept_execTdcCalOk (hP : Closed F P) (s : State) (h0 : P s) : After P (execTdcCalOk s) := by
  unfold execTdcCalOk
  try dsimp only
  repeat' first
    | with_reducible assumption | with_reducible apply kept_doubt hP | with_reducible apply kept_putB hP
    | with_reducible apply kept_ite | with_reducible apply after_next | with_reducible apply after_ite | dsimp only

theorem kept_execCalLost (hP : Closed F P) (s : State) (h0 : P s) : After P (execCalLost s) := by
  unfold execCalLost
  try dsimp only
  repeat' first
    | with_reducible assumption | with_reducible apply kept_doubt hP | with_reducible apply kept_putB hP
    | with_reducible apply kept_raise hP | with_reducible apply kept_ite | with_reducible apply after_next
    | with_reducible apply after_ite | dsimp only

theorem kept_tdcEnabled (hP : Closed F P) (htdc : F .tdc) (s : State) (on : Bool) (h0 : P s) : P (tdcEnabled s on)
    := by
  unfold tdcEnabled
  try dsimp only
  repeat' first
    | with_reducible assumption | with_reducible apply kept_closeWindow hP htdc | with_reducible apply kept_doubt hP
    | with_reducible apply kept_gateFollow hP htdc | with_reducible apply kept_putB hP
    | with_reducible apply kept_updTdc hP htdc | with_reducible apply kept_ite | dsimp only

theorem kept_execRingGo (hP : Closed F P) (r : Requester) (lane : Fin 64) (s : State) (h0 : P s) : After P
    (execRingGo r lane s) := by
  unfold execRingGo
  try dsimp only
  repeat' first
    | with_reducible assumption | intro _ | with_reducible apply kept_onWrite hP | with_reducible apply kept_put hP
    | with_reducible apply kept_putB hP | with_reducible apply kept_raise hP | with_reducible apply kept_ite
    | with_reducible apply after_next | with_reducible apply after_ite | dsimp only

theorem kept_ringSoft (hP : Closed F P) (s : State) (ps : Nat) (h0 : P s) : P (ringSoft s ps) := by
  unfold ringSoft
  try dsimp only
  repeat' first
    | with_reducible assumption | with_reducible apply kept_put hP | with_reducible apply kept_putB hP
    | with_reducible apply kept_raise hP | with_reducible apply kept_ite | dsimp only

theorem kept_tdcIslandReset (hP : Closed F P) (htdc : F .tdc) (s : State) (h0 : P s) : P (tdcIslandReset s) := by
  unfold tdcIslandReset
  try dsimp only
  repeat' first
    | with_reducible assumption | with_reducible apply kept_closeWindow hP htdc | with_reducible apply kept_doubt hP
    | with_reducible apply kept_put hP | with_reducible apply kept_putB hP | with_reducible apply kept_raise hP
    | with_reducible apply kept_tdcFlush hP htdc | with_reducible apply kept_updTdc hP htdc
    | with_reducible apply kept_ite | dsimp only

/-! ### Osc -/

theorem kept_updOven (hP : Closed F P) (hoven : F .oven) (s : State) (f : Oven → Oven) (h0 : P s) : P (updOven s f)
    := by
  unfold updOven
  try dsimp only
  repeat' first
    | with_reducible assumption | with_reducible exact Or.inr hoven | with_reducible exact Or.inl rfl
    | with_reducible apply hP.others | with_reducible exact fits_same _ _ | with_reducible exact fits_upd _ _ _ _
    | with_reducible exact fits_set _ _ _ _ | with_reducible exact fits_map _ _ _
    | with_reducible exact fits_replicate _ _ _ | with_reducible exact fitsMck_same _
    | with_reducible exact fun _ => fits_same _ _ | with_reducible exact fun _ => fits_upd _ _ _ _
    | with_reducible exact fun _ => fits_set _ _ _ _ | with_reducible exact fun _ => fits_map _ _ _
    | with_reducible exact fun _ => fits_replicate _ _ _ | dsimp only

theorem kept_frefLost (hP : Closed F P) (s : State) (h0 : P s) : P (frefLost s) := by
  unfold frefLost
  try dsimp only
  repeat' first
    | with_reducible assumption | with_reducible apply kept_doubt hP | dsimp only

theorem kept_requestSwitch (hP : Closed F P) (hoven : F .oven) (s : State) (h0 : P s) : P (requestSwitch s) := by
  unfold requestSwitch
  try dsimp only
  repeat' first
    | with_reducible assumption | with_reducible apply kept_updOven hP hoven | with_reducible apply kept_ite
    | dsimp only

theorem kept_autoReturn (hP : Closed F P) (hoven : F .oven) (s : State) (osc : Bool) (h0 : P s) : P (autoReturn s
    osc) := by
  unfold autoReturn
  try dsimp only
  repeat' first
    | with_reducible assumption | with_reducible apply kept_requestSwitch hP hoven | with_reducible apply kept_ite
    | dsimp only

theorem kept_showTemp (hP : Closed F P) (s : State) (temp : Int) (h0 : P s) : P (showTemp s temp) := by
  unfold showTemp
  try dsimp only
  repeat' first
    | with_reducible assumption | with_reducible apply kept_put hP | dsimp only

theorem kept_execOvnSettled (hP : Closed F P) (hoven : F .oven) (temp : Int) (s : State) (h0 : P s) : After P
    (execOvnSettled temp s) := by
  unfold execOvnSettled
  try dsimp only
  repeat' first
    | with_reducible assumption | with_reducible apply kept_autoReturn hP hoven | with_reducible apply kept_doubt hP
    | with_reducible apply kept_put hP | with_reducible apply kept_putB hP | with_reducible apply kept_raise hP
    | with_reducible apply kept_showTemp hP | with_reducible apply kept_ite | with_reducible apply after_next
    | with_reducible apply after_ite | dsimp only

theorem kept_execOvnUnsettled (hP : Closed F P) (temp : Int) (s : State) (h0 : P s) : After P (execOvnUnsettled temp
    s) := by
  unfold execOvnUnsettled
  try dsimp only
  repeat' first
    | with_reducible assumption | with_reducible apply kept_doubt hP | with_reducible apply kept_putB hP
    | with_reducible apply kept_raise hP | with_reducible apply kept_showTemp hP | with_reducible apply kept_ite
    | with_reducible apply after_next | with_reducible apply after_ite | dsimp only

theorem kept_execOvnRange (hP : Closed F P) (atLimit : Bool) (s : State) (h0 : P s) : After P (execOvnRange atLimit
    s) := by
  unfold execOvnRange
  try dsimp only
  repeat' first
    | with_reducible assumption | with_reducible apply kept_doubt hP | with_reducible apply kept_ite
    | with_reducible apply after_next | with_reducible apply after_ite | dsimp only

theorem kept_execOvnFault (hP : Closed F P) (hoven : F .oven) (s : State) (h0 : P s) : After P (execOvnFault s) :=
    by
  unfold execOvnFault
  try dsimp only
  repeat' first
    | with_reducible assumption | with_reducible apply kept_doubt hP | with_reducible apply kept_put hP
    | with_reducible apply kept_updOven hP hoven | with_reducible apply kept_ite | with_reducible apply after_next
    | with_reducible apply after_ite | dsimp only

theorem kept_leaveOsc (hP : Closed F P) (hoven : F .oven) (s : State) (h0 : P s) : P (leaveOsc s) := by
  unfold leaveOsc
  try dsimp only
  repeat' first
    | with_reducible assumption | with_reducible apply kept_updOven hP hoven | with_reducible apply kept_ite
    | dsimp only

theorem kept_execOscLost (hP : Closed F P) (hoven : F .oven) (s : State) (h0 : P s) : After P (execOscLost s) := by
  unfold execOscLost
  try dsimp only
  repeat' first
    | with_reducible assumption | with_reducible apply kept_leaveOsc hP hoven | with_reducible apply kept_putB hP
    | with_reducible apply kept_raise hP | with_reducible apply kept_updOven hP hoven
    | with_reducible apply kept_ite | with_reducible apply after_next | with_reducible apply after_ite | split
    | dsimp only

theorem kept_execOscRestored (hP : Closed F P) (s : State) (h0 : P s) : After P (execOscRestored s) := by
  unfold execOscRestored
  try dsimp only
  repeat' first
    | with_reducible assumption | with_reducible apply kept_putB hP | with_reducible apply kept_raise hP
    | with_reducible apply kept_ite | with_reducible apply after_next | with_reducible apply after_ite | dsimp only

theorem kept_execMeasValid (hP : Closed F P) (hoven : F .oven) (ppt : Int) (sig : Nat) (s : State) (h0 : P s) :
    After P (execMeasValid ppt sig s) := by
  unfold execMeasValid
  try dsimp only
  repeat' first
    | with_reducible assumption | with_reducible apply kept_autoReturn hP hoven | with_reducible apply kept_put hP
    | with_reducible apply kept_putB hP | with_reducible apply kept_wrN hP | with_reducible apply kept_ite
    | with_reducible apply after_next | with_reducible apply after_ite | dsimp only

theorem kept_execOvnRetry (hP : Closed F P) (hoven : F .oven) (r : Requester) (v : Word) (s : State) (h0 : P s) :
    After P (execOvnRetry r v s) := by
  unfold execOvnRetry
  try dsimp only
  repeat' first
    | with_reducible assumption | intro _ | with_reducible apply kept_onWrite hP
    | with_reducible apply kept_requestSwitch hP hoven | with_reducible apply kept_ite
    | with_reducible apply after_next | with_reducible apply after_ite | dsimp only

theorem kept_switchTo (hP : Closed F P) (hdsc : F .dsc) (hoven : F .oven) (s : State) (osc : Bool) (valid : Bool)
    (h0 : P s) : P (switchTo s osc valid) := by
  unfold switchTo
  try dsimp only
  repeat' first
    | with_reducible assumption | with_reducible apply kept_bump hP | with_reducible apply kept_doubt hP
    | with_reducible apply kept_frefLost hP | with_reducible apply kept_putB hP | with_reducible apply kept_raise hP
    | with_reducible apply kept_sourceSwitched hP hdsc | with_reducible apply kept_updOven hP hoven
    | with_reducible apply kept_ite | dsimp only

theorem kept_execSrcSwitch (hP : Closed F P) (hdsc : F .dsc) (hoven : F .oven) (s : State) (h0 : P s) : After P
    (execSrcSwitch s) := by
  unfold execSrcSwitch
  try dsimp only
  repeat' first
    | with_reducible assumption | with_reducible apply kept_switchTo hP hdsc hoven | with_reducible apply after_next
    | split | dsimp only

theorem kept_enterBackup (hP : Closed F P) (hoven : F .oven) (s : State) (h0 : P s) : P (enterBackup s) := by
  unfold enterBackup
  try dsimp only
  repeat' first
    | with_reducible assumption | with_reducible apply kept_doubt hP | with_reducible apply kept_frefLost hP
    | with_reducible apply kept_putB hP | with_reducible apply kept_updOven hP hoven | dsimp only

theorem kept_execBackupEnter (hP : Closed F P) (hoven : F .oven) (stopped : Bool) (s : State) (h0 : P s) : After P
    (execBackupEnter stopped s) := by
  unfold execBackupEnter
  try dsimp only
  repeat' first
    | with_reducible assumption | with_reducible apply kept_enterBackup hP hoven | with_reducible apply kept_putB hP
    | with_reducible apply kept_updOven hP hoven | with_reducible apply kept_ite | with_reducible apply after_next
    | with_reducible apply after_ite | dsimp only

theorem kept_stepTune (hP : Closed F P) (hdsc : F .dsc) (s : State) (d : Int) (gain : Int) (h0 : P s) : P (stepTune
    s d gain) := by
  unfold stepTune
  try dsimp only
  repeat' first
    | with_reducible assumption | with_reducible apply kept_put hP | with_reducible apply kept_raise hP
    | with_reducible apply kept_setRate hP | with_reducible apply kept_updServo hP hdsc
    | with_reducible apply kept_ite | with_reducible exact fits_Servo (fits_same _ _)
    | with_reducible exact fits_Servo (fits_upd _ _ _ _) | with_reducible exact fits_Servo (fits_set _ _ _ _)
    | with_reducible exact fits_Servo (fits_map _ _ _) | with_reducible exact fits_Servo (fits_replicate _ _ _)
    | with_reducible exact fits_same _ _ | with_reducible exact fits_upd _ _ _ _
    | with_reducible exact fits_set _ _ _ _ | with_reducible exact fits_map _ _ _
    | with_reducible exact fits_replicate _ _ _ | with_reducible exact fun _ => fits_Servo (fits_same _ _)
    | with_reducible exact fun _ => fits_Servo (fits_upd _ _ _ _)
    | with_reducible exact fun _ => fits_Servo (fits_set _ _ _ _)
    | with_reducible exact fun _ => fits_Servo (fits_map _ _ _)
    | with_reducible exact fun _ => fits_Servo (fits_replicate _ _ _) | with_reducible exact fun _ => fits_same _ _
    | with_reducible exact fun _ => fits_upd _ _ _ _ | with_reducible exact fun _ => fits_set _ _ _ _
    | with_reducible exact fun _ => fits_map _ _ _ | with_reducible exact fun _ => fits_replicate _ _ _ | dsimp only

theorem kept_execTuneStep (hP : Closed F P) (hclk : F .clk) (hdsc : F .dsc) (hoven : F .oven) (s : State) (h0 : P s)
    : After P (execTuneStep s) := by
  unfold execTuneStep
  try dsimp only
  repeat' first
    | with_reducible assumption | with_reducible apply kept_advMono hP hclk
    | with_reducible apply kept_stepTune hP hdsc | with_reducible apply kept_updOven hP hoven
    | with_reducible apply kept_ite | with_reducible apply after_next | with_reducible apply after_ite | dsimp only

end Sys2Proof.Machine
end

