-- ==== Sys2Proof/Laws/KeptReset.lean ====
section
/-! SUPPORT. A property that survives the changes of Closed survives every function of: resets, power states, register accesses and the harts. -/

set_option linter.unusedTactic false
set_option linter.unreachableTactic false
set_option linter.unusedVariables false

namespace Sys2Proof.Machine

variable {F : Part → Prop} {P : State → Prop}

/-! ### Reset -/

theorem kept_strapBoot (hP : Closed F P) (s : State) (h0 : P s) : P (strapBoot s) := by
  unfold strapBoot
  try dsimp only
  repeat' first
    | with_reducible assumption | with_reducible apply kept_put hP | dsimp only

theorem kept_strapKey (hP : Closed F P) (s : State) (h0 : P s) : P (strapKey s) := by
  unfold strapKey
  try dsimp only
  repeat' first
    | with_reducible assumption | with_reducible apply kept_putB hP | dsimp only

theorem kept_strapAsk (hP : Closed F P) (s : State) (h0 : P s) : P (strapAsk s) := by
  unfold strapAsk
  try dsimp only
  repeat' first
    | with_reducible assumption | intro _ | with_reducible apply kept_put hP | with_reducible apply kept_ite
    | with_reducible apply kept_foldl | with_reducible apply kept_foldl_fst | dsimp only

theorem kept_resetRegs (hP : Closed F P) (s : State) (kind : Nat) (h0 : P s) : P (resetRegs s kind) := by
  unfold resetRegs
  try dsimp only
  repeat' first
    | with_reducible assumption | with_reducible apply kept_noteAll hP | with_reducible apply kept_sweep hP
    | dsimp only

theorem kept_clearInts (hP : Closed F P) (s : State) (die : Nat → Bool) (isl : Option Nat) (h0 : P s) : P (clearInts
    s die isl) := by
  unfold clearInts
  try dsimp only
  repeat' first
    | with_reducible assumption | with_reducible apply kept_sweep hP | split | dsimp only

theorem kept_resetServo (hP : Closed F P) (hdsc : F .dsc) (s : State) (h0 : P s) : P (resetServo s) := by
  unfold resetServo
  try dsimp only
  repeat' first
    | with_reducible assumption | with_reducible apply kept_dscDoubts hP | with_reducible apply kept_dscStop hP hdsc
    | with_reducible apply kept_putB hP | with_reducible apply kept_showServo hP
    | with_reducible apply kept_updServo hP hdsc | with_reducible apply kept_ite
    | with_reducible exact fits_Servo (fits_same _ _) | with_reducible exact fits_Servo (fits_upd _ _ _ _)
    | with_reducible exact fits_Servo (fits_set _ _ _ _) | with_reducible exact fits_Servo (fits_map _ _ _)
    | with_reducible exact fits_Servo (fits_replicate _ _ _) | with_reducible exact fits_same _ _
    | with_reducible exact fits_upd _ _ _ _ | with_reducible exact fits_set _ _ _ _
    | with_reducible exact fits_map _ _ _ | with_reducible exact fits_replicate _ _ _
    | with_reducible exact fun _ => fits_Servo (fits_same _ _)
    | with_reducible exact fun _ => fits_Servo (fits_upd _ _ _ _)
    | with_reducible exact fun _ => fits_Servo (fits_set _ _ _ _)
    | with_reducible exact fun _ => fits_Servo (fits_map _ _ _)
    | with_reducible exact fun _ => fits_Servo (fits_replicate _ _ _) | with_reducible exact fun _ => fits_same _ _
    | with_reducible exact fun _ => fits_upd _ _ _ _ | with_reducible exact fun _ => fits_set _ _ _ _
    | with_reducible exact fun _ => fits_map _ _ _ | with_reducible exact fun _ => fits_replicate _ _ _ | dsimp only

theorem kept_resetMck (hP : Closed F P) (hmck : F .mck) (s : State) (kind : Nat) (h0 : P s) : P (resetMck s kind) :=
    by
  unfold resetMck
  try dsimp only
  repeat' first
    | with_reducible assumption | with_reducible apply kept_refreshGates hP hmck | with_reducible apply kept_ite
    | with_reducible exact Or.inr hmck | with_reducible exact Or.inl rfl | with_reducible apply hP.others
    | with_reducible exact fits_same _ _ | with_reducible exact fits_upd _ _ _ _
    | with_reducible exact fits_set _ _ _ _ | with_reducible exact fits_map _ _ _
    | with_reducible exact fits_replicate _ _ _ | with_reducible exact fitsMck_same _
    | with_reducible exact fitsMck_cold _ | with_reducible exact fun _ => fits_same _ _
    | with_reducible exact fun _ => fits_upd _ _ _ _ | with_reducible exact fun _ => fits_set _ _ _ _
    | with_reducible exact fun _ => fits_map _ _ _ | with_reducible exact fun _ => fits_replicate _ _ _ | dsimp only

theorem kept_resetAsk (hP : Closed F P) (hkisl : F .kisl) (hlinks : F .links) (s : State) (kind : Nat) (h0 : P s) :
    P (resetAsk s kind) := by
  unfold resetAsk
  try dsimp only
  repeat' first
    | with_reducible assumption | intro _ | with_reducible apply kept_askReset hP hkisl hlinks
    | with_reducible apply kept_showAsk hP | with_reducible apply kept_strapAsk hP | with_reducible apply kept_ite
    | with_reducible apply kept_foldl | with_reducible apply kept_foldl_fst | dsimp only

theorem kept_resetKeys (hP : Closed F P) (hports : F .ports) (hkisl : F .kisl) (hlinks : F .links) (s : State) (kind
    : Nat) (h0 : P s) : P (resetKeys s kind) := by
  unfold resetKeys
  try dsimp only
  repeat' first
    | with_reducible assumption | with_reducible apply kept_dropMint hP hkisl
    | with_reducible apply kept_keysLost hP hports hkisl hlinks | with_reducible apply kept_showKeys hP
    | with_reducible apply kept_strapKey hP | with_reducible apply kept_updKisl hP hkisl
    | with_reducible apply kept_ite | with_reducible exact Or.inr hports | with_reducible exact Or.inr hkisl
    | with_reducible exact Or.inr hlinks | with_reducible exact Or.inl rfl | with_reducible apply hP.others
    | with_reducible exact fits_same _ _ | with_reducible exact fits_upd _ _ _ _
    | with_reducible exact fits_set _ _ _ _ | with_reducible exact fits_map _ _ _
    | with_reducible exact fits_replicate _ _ _ | with_reducible exact fitsMck_same _
    | with_reducible exact fun _ => fits_same _ _ | with_reducible exact fun _ => fits_upd _ _ _ _
    | with_reducible exact fun _ => fits_set _ _ _ _ | with_reducible exact fun _ => fits_map _ _ _
    | with_reducible exact fun _ => fits_replicate _ _ _ | dsimp only

theorem kept_resetDie (hP : Closed F P) (hports : F .ports) (hkisl : F .kisl) (s : State) (d : Nat) (h0 : P s) : P
    (resetDie s d) := by
  unfold resetDie
  try dsimp only
  repeat' first
    | with_reducible assumption | with_reducible apply kept_crossUp hP hports hkisl
    | with_reducible apply kept_showTimed hP | with_reducible apply kept_updPd hP hports
    | with_reducible exact fits_PortDie (fits_same _ _) | with_reducible exact fits_PortDie (fits_upd _ _ _ _)
    | with_reducible exact fits_PortDie (fits_set _ _ _ _) | with_reducible exact fits_PortDie (fits_map _ _ _)
    | with_reducible exact fits_PortDie (fits_replicate _ _ _) | with_reducible exact fits_same _ _
    | with_reducible exact fits_upd _ _ _ _ | with_reducible exact fits_set _ _ _ _
    | with_reducible exact fits_map _ _ _ | with_reducible exact fits_replicate _ _ _
    | with_reducible exact fun _ => fits_PortDie (fits_same _ _)
    | with_reducible exact fun _ => fits_PortDie (fits_upd _ _ _ _)
    | with_reducible exact fun _ => fits_PortDie (fits_set _ _ _ _)
    | with_reducible exact fun _ => fits_PortDie (fits_map _ _ _)
    | with_reducible exact fun _ => fits_PortDie (fits_replicate _ _ _)
    | with_reducible exact fun _ => fits_same _ _ | with_reducible exact fun _ => fits_upd _ _ _ _
    | with_reducible exact fun _ => fits_set _ _ _ _ | with_reducible exact fun _ => fits_map _ _ _
    | with_reducible exact fun _ => fits_replicate _ _ _ | dsimp only

theorem kept_resetBlocks (hP : Closed F P) (hfab : F .fab) (hsaf : F .saf) (hdsc : F .dsc) (hmck : F .mck) (hrad : F
    .rad) (hports : F .ports) (hkisl : F .kisl) (hlinks : F .links) (hcore : F .core) (htdc : F .tdc) (hpke : F .pke)
    (hrings : F .rings) (hharts : F .harts) (hage : F .age) (hhif : F .hif) (hboot : F .boot) (hcntLatch : F .cntLatch)
    (s : State) (kind : Nat) (h0 : P s) : P (resetBlocks s kind) := by
  unfold resetBlocks
  try dsimp only
  repeat' first
    | with_reducible assumption | intro _ | with_reducible apply kept_ageReset hP hage
    | with_reducible apply kept_clearInts hP | with_reducible apply kept_coreLost hP hcore
    | with_reducible apply kept_hartsReset hP hharts | with_reducible apply kept_hifReset hP hrings hhif
    | with_reducible apply kept_putB hP | with_reducible apply kept_resetAsk hP hkisl hlinks
    | with_reducible apply kept_resetDie hP hports hkisl
    | with_reducible apply kept_resetKeys hP hports hkisl hlinks | with_reducible apply kept_resetMck hP hmck
    | with_reducible apply kept_resetServo hP hdsc | with_reducible apply kept_safEscCancel hP hsaf
    | with_reducible apply kept_safReset hP hsaf hmck | with_reducible apply kept_strapBoot hP
    | with_reducible apply kept_ite | with_reducible apply kept_foldl | with_reducible apply kept_foldl_fst
    | with_reducible exact Or.inr hfab | with_reducible exact Or.inr hsaf | with_reducible exact Or.inr hdsc
    | with_reducible exact Or.inr hmck | with_reducible exact Or.inr hrad | with_reducible exact Or.inr hports
    | with_reducible exact Or.inr hkisl | with_reducible exact Or.inr hlinks | with_reducible exact Or.inr hcore
    | with_reducible exact Or.inr htdc | with_reducible exact Or.inr hpke | with_reducible exact Or.inr hrings
    | with_reducible exact Or.inr hharts | with_reducible exact Or.inr hage | with_reducible exact Or.inr hhif
    | with_reducible exact Or.inr hboot | with_reducible exact Or.inr hcntLatch | with_reducible exact Or.inl rfl
    | with_reducible apply hP.others | with_reducible exact fits_same _ _ | with_reducible exact fits_upd _ _ _ _
    | with_reducible exact fits_set _ _ _ _ | with_reducible exact fits_map _ _ _
    | with_reducible exact fits_replicate _ _ _ | with_reducible exact fitsMck_same _
    | with_reducible exact fits_Pke_cold _ | with_reducible exact fun _ => fits_same _ _
    | with_reducible exact fun _ => fits_upd _ _ _ _ | with_reducible exact fun _ => fits_set _ _ _ _
    | with_reducible exact fun _ => fits_map _ _ _ | with_reducible exact fun _ => fits_replicate _ _ _ | dsimp only

theorem kept_holdReset (hP : Closed F P) (hpwr : F .pwr) (s : State) (kind : Nat) (until' : Nat) (h0 : P s) : P
    (holdReset s kind until') := by
  unfold holdReset
  try dsimp only
  repeat' first
    | with_reducible assumption | with_reducible apply kept_updPwr hP hpwr | dsimp only

theorem kept_takeReset (hP : Closed F P) (hfab : F .fab) (hsaf : F .saf) (hpwr : F .pwr) (hdsc : F .dsc) (hmck : F
    .mck) (hrad : F .rad) (hports : F .ports) (hkisl : F .kisl) (hlinks : F .links) (hcore : F .core) (htdc : F .tdc)
    (hpke : F .pke) (hrings : F .rings) (hharts : F .harts) (hage : F .age) (hhif : F .hif) (hboot : F .boot) (hcntLatch
    : F .cntLatch) (hunlock : F .unlock) (s : State) (kind : Nat) (cause : Nat) (wait : Nat) (h0 : P s) : P (takeReset s
    kind cause wait) := by
  unfold takeReset
  try dsimp only
  repeat' first
    | with_reducible assumption | with_reducible apply kept_holdReset hP hpwr
    | with_reducible apply kept_resetBlocks hP hfab hsaf hdsc hmck hrad hports hkisl hlinks hcore htdc hpke hrings hharts hage hhif hboot hcntLatch
    | with_reducible apply kept_resetRegs hP | with_reducible apply kept_stagingLost hP
    | with_reducible apply kept_tstLockAll hP hmck hports hkisl hlinks hrings hunlock
    | with_reducible apply kept_wrN hP | with_reducible apply kept_ite | with_reducible exact Or.inr hfab
    | with_reducible exact Or.inr hsaf | with_reducible exact Or.inr hpwr | with_reducible exact Or.inr hdsc
    | with_reducible exact Or.inr hmck | with_reducible exact Or.inr hrad | with_reducible exact Or.inr hports
    | with_reducible exact Or.inr hkisl | with_reducible exact Or.inr hlinks | with_reducible exact Or.inr hcore
    | with_reducible exact Or.inr htdc | with_reducible exact Or.inr hpke | with_reducible exact Or.inr hrings
    | with_reducible exact Or.inr hharts | with_reducible exact Or.inr hage | with_reducible exact Or.inr hhif
    | with_reducible exact Or.inr hboot | with_reducible exact Or.inr hcntLatch
    | with_reducible exact Or.inr hunlock | with_reducible exact Or.inl rfl | with_reducible apply hP.others
    | with_reducible exact fits_Recorder (fits_same _ _) | with_reducible exact fits_Recorder (fits_upd _ _ _ _)
    | with_reducible exact fits_Recorder (fits_set _ _ _ _) | with_reducible exact fits_Recorder (fits_map _ _ _)
    | with_reducible exact fits_Recorder (fits_replicate _ _ _) | with_reducible exact fits_same _ _
    | with_reducible exact fits_upd _ _ _ _ | with_reducible exact fits_set _ _ _ _
    | with_reducible exact fits_map _ _ _ | with_reducible exact fits_replicate _ _ _
    | with_reducible exact fitsMck_same _ | with_reducible exact fun _ => fits_Recorder (fits_same _ _)
    | with_reducible exact fun _ => fits_Recorder (fits_upd _ _ _ _)
    | with_reducible exact fun _ => fits_Recorder (fits_set _ _ _ _)
    | with_reducible exact fun _ => fits_Recorder (fits_map _ _ _)
    | with_reducible exact fun _ => fits_Recorder (fits_replicate _ _ _)
    | with_reducible exact fun _ => fits_same _ _ | with_reducible exact fun _ => fits_upd _ _ _ _
    | with_reducible exact fun _ => fits_set _ _ _ _ | with_reducible exact fun _ => fits_map _ _ _
    | with_reducible exact fun _ => fits_replicate _ _ _ | dsimp only

theorem kept_execPinReset (hP : Closed F P) (hstraps : F .straps) (hfab : F .fab) (hsaf : F .saf) (hpwr : F .pwr)
    (hdsc : F .dsc) (hmck : F .mck) (hrad : F .rad) (hports : F .ports) (hkisl : F .kisl) (hlinks : F .links) (hcore : F
    .core) (htdc : F .tdc) (hpke : F .pke) (hrings : F .rings) (hharts : F .harts) (hage : F .age) (hhif : F .hif)
    (hboot : F .boot) (hcntLatch : F .cntLatch) (hunlock : F .unlock) (bootSel : Fin 4) (roleSel : Bool) (testEn : Bool)
    (low : Nat) (s : State) (h0 : P s) : After P (execPinReset bootSel roleSel testEn low s) := by
  unfold execPinReset
  try dsimp only
  repeat' first
    | with_reducible assumption
    | with_reducible apply kept_takeReset hP hfab hsaf hpwr hdsc hmck hrad hports hkisl hlinks hcore htdc hpke hrings hharts hage hhif hboot hcntLatch hunlock
    | with_reducible apply kept_ite | with_reducible apply after_next | with_reducible apply after_ite
    | with_reducible exact Or.inr hstraps | with_reducible exact Or.inr hfab | with_reducible exact Or.inr hsaf
    | with_reducible exact Or.inr hpwr | with_reducible exact Or.inr hdsc | with_reducible exact Or.inr hmck
    | with_reducible exact Or.inr hrad | with_reducible exact Or.inr hports | with_reducible exact Or.inr hkisl
    | with_reducible exact Or.inr hlinks | with_reducible exact Or.inr hcore | with_reducible exact Or.inr htdc
    | with_reducible exact Or.inr hpke | with_reducible exact Or.inr hrings | with_reducible exact Or.inr hharts
    | with_reducible exact Or.inr hage | with_reducible exact Or.inr hhif | with_reducible exact Or.inr hboot
    | with_reducible exact Or.inr hcntLatch | with_reducible exact Or.inr hunlock | with_reducible exact Or.inl rfl
    | with_reducible apply hP.others | with_reducible exact fits_same _ _ | with_reducible exact fits_upd _ _ _ _
    | with_reducible exact fits_set _ _ _ _ | with_reducible exact fits_map _ _ _
    | with_reducible exact fits_replicate _ _ _ | with_reducible exact fitsMck_same _
    | with_reducible exact fun _ => fits_same _ _ | with_reducible exact fun _ => fits_upd _ _ _ _
    | with_reducible exact fun _ => fits_set _ _ _ _ | with_reducible exact fun _ => fits_map _ _ _
    | with_reducible exact fun _ => fits_replicate _ _ _ | dsimp only

theorem kept_execWarmReset (hP : Closed F P) (hfab : F .fab) (hsaf : F .saf) (hpwr : F .pwr) (hdsc : F .dsc) (hmck :
    F .mck) (hrad : F .rad) (hports : F .ports) (hkisl : F .kisl) (hlinks : F .links) (hcore : F .core) (htdc : F .tdc)
    (hpke : F .pke) (hrings : F .rings) (hharts : F .harts) (hage : F .age) (hhif : F .hif) (hboot : F .boot) (hcntLatch
    : F .cntLatch) (hunlock : F .unlock) (r : Requester) (s : State) (h0 : P s) : After P (execWarmReset r s) := by
  unfold execWarmReset
  try dsimp only
  repeat' first
    | with_reducible assumption | intro _ | with_reducible apply kept_deny hP | with_reducible apply kept_onWrite hP
    | with_reducible apply kept_put hP
    | with_reducible apply kept_takeReset hP hfab hsaf hpwr hdsc hmck hrad hports hkisl hlinks hcore htdc hpke hrings hharts hage hhif hboot hcntLatch hunlock
    | with_reducible apply kept_ite | with_reducible apply after_next | with_reducible apply after_ite | dsimp only

theorem kept_execRstWarm (hP : Closed F P) (hfab : F .fab) (hsaf : F .saf) (hpwr : F .pwr) (hdsc : F .dsc) (hmck : F
    .mck) (hrad : F .rad) (hports : F .ports) (hkisl : F .kisl) (hlinks : F .links) (hcore : F .core) (htdc : F .tdc)
    (hpke : F .pke) (hrings : F .rings) (hharts : F .harts) (hage : F .age) (hhif : F .hif) (hboot : F .boot) (hcntLatch
    : F .cntLatch) (hunlock : F .unlock) (r : Requester) (die : Fin 8) (s : State) (h0 : P s) : After P (execRstWarm r
    die s) := by
  unfold execRstWarm
  try dsimp only
  repeat' first
    | with_reducible assumption | intro _ | with_reducible apply kept_onWrite hP | with_reducible apply kept_put hP
    | with_reducible apply kept_takeReset hP hfab hsaf hpwr hdsc hmck hrad hports hkisl hlinks hcore htdc hpke hrings hharts hage hhif hboot hcntLatch hunlock
    | with_reducible apply kept_tstWrite hP hmck hports hkisl hlinks hrings | with_reducible apply after_next
    | dsimp only

theorem kept_execKeeperWdtGrace (hP : Closed F P) (hclk : F .clk) (hfab : F .fab) (hsaf : F .saf) (hpwr : F .pwr)
    (hdsc : F .dsc) (hmck : F .mck) (hrad : F .rad) (hports : F .ports) (hkisl : F .kisl) (hlinks : F .links) (hcore : F
    .core) (htdc : F .tdc) (hpke : F .pke) (hrings : F .rings) (hharts : F .harts) (hage : F .age) (hhif : F .hif)
    (hboot : F .boot) (hcntLatch : F .cntLatch) (hunlock : F .unlock) (h : Fin 2) (s : State) (h0 : P s) : After P
    (execKeeperWdtGrace h s) := by
  unfold execKeeperWdtGrace
  try dsimp only
  repeat' first
    | with_reducible assumption | with_reducible apply kept_advMono hP hclk
    | with_reducible apply kept_takeReset hP hfab hsaf hpwr hdsc hmck hrad hports hkisl hlinks hcore htdc hpke hrings hharts hage hhif hboot hcntLatch hunlock
    | with_reducible apply after_next | split | dsimp only

theorem kept_execEscalate (hP : Closed F P) (hclk : F .clk) (hfab : F .fab) (hsaf : F .saf) (hpwr : F .pwr) (hdsc :
    F .dsc) (hmck : F .mck) (hrad : F .rad) (hports : F .ports) (hkisl : F .kisl) (hlinks : F .links) (hcore : F .core)
    (htdc : F .tdc) (hpke : F .pke) (hrings : F .rings) (hharts : F .harts) (hage : F .age) (hhif : F .hif) (hboot : F
    .boot) (hcntLatch : F .cntLatch) (hunlock : F .unlock) (s : State) (h0 : P s) : After P (execEscalate s) := by
  unfold execEscalate
  try dsimp only
  repeat' first
    | with_reducible assumption | with_reducible apply kept_advMono hP hclk | with_reducible apply kept_bumpF hP
    | with_reducible apply kept_raise hP
    | with_reducible apply kept_takeReset hP hfab hsaf hpwr hdsc hmck hrad hports hkisl hlinks hcore htdc hpke hrings hharts hage hhif hboot hcntLatch hunlock
    | with_reducible apply kept_writeEntry hP | with_reducible apply kept_ite | with_reducible apply after_next
    | with_reducible apply after_ite | split | dsimp only

theorem kept_coldBase (hP : Closed F P) (hclk : F .clk) (hsnaps : F .snaps) (hstraps : F .straps) (htb : F .tb) (hfab : F .fab) (hsaf : F .saf) (hpwr : F .pwr) (hdsc : F .dsc) (hoven : F .oven) (hmck : F .mck) (hrad : F .rad) (hports : F .ports) (hkisl : F .kisl) (hlinks : F .links) (hcore : F .core) (htdc : F .tdc) (hpke : F .pke) (hrings : F .rings) (hharts : F .harts) (hage : F .age) (hhif : F .hif) (hboot : F .boot) (hcntLatch : F .cntLatch) (hunlock : F .unlock) (htap : F .tap) (s : State) (straps : Straps) (rise : Bool) (h : P s) :
    P (coldBase s straps rise) :=
  hP.cold (fun x => by cases x <;> assumption) s straps rise h

theorem kept_coldState (hP : Closed F P) (hclk : F .clk) (hsnaps : F .snaps) (hstraps : F .straps) (htb : F .tb)
    (hfab : F .fab) (hsaf : F .saf) (hpwr : F .pwr) (hdsc : F .dsc) (hoven : F .oven) (hmck : F .mck) (hrad : F .rad)
    (hports : F .ports) (hkisl : F .kisl) (hlinks : F .links) (hcore : F .core) (htdc : F .tdc) (hpke : F .pke) (hrings
    : F .rings) (hharts : F .harts) (hage : F .age) (hhif : F .hif) (hboot : F .boot) (hcntLatch : F .cntLatch) (hunlock
    : F .unlock) (htap : F .tap) (s : State) (straps : Straps) (rise : Bool) (h0 : P s) : P (coldState s straps rise) :=
    by
  unfold coldState
  try dsimp only
  repeat' first
    | with_reducible assumption | intro _
    | with_reducible apply kept_coldBase hP hclk hsnaps hstraps htb hfab hsaf hpwr hdsc hoven hmck hrad hports hkisl hlinks hcore htdc hpke hrings hharts hage hhif hboot hcntLatch hunlock htap
    | with_reducible apply kept_showAsk hP | with_reducible apply kept_strapAsk hP
    | with_reducible apply kept_strapBoot hP | with_reducible apply kept_strapKey hP
    | with_reducible apply kept_wr hP | with_reducible apply kept_foldl | with_reducible apply kept_foldl_fst
    | dsimp only

theorem kept_execColdReset (hP : Closed F P) (hclk : F .clk) (hsnaps : F .snaps) (hstraps : F .straps) (htb : F .tb)
    (hfab : F .fab) (hsaf : F .saf) (hpwr : F .pwr) (hdsc : F .dsc) (hoven : F .oven) (hmck : F .mck) (hrad : F .rad)
    (hports : F .ports) (hkisl : F .kisl) (hlinks : F .links) (hcore : F .core) (htdc : F .tdc) (hpke : F .pke) (hrings
    : F .rings) (hharts : F .harts) (hage : F .age) (hhif : F .hif) (hboot : F .boot) (hcntLatch : F .cntLatch) (hunlock
    : F .unlock) (htap : F .tap) (rise : Bool) (bootSel : Fin 4) (roleSel : Bool) (testEn : Bool) (s : State) (h0 : P s)
    : After P (execColdReset rise bootSel roleSel testEn s) := by
  unfold execColdReset
  try dsimp only
  repeat' first
    | with_reducible assumption
    | with_reducible apply kept_coldState hP hclk hsnaps hstraps htb hfab hsaf hpwr hdsc hoven hmck hrad hports hkisl hlinks hcore htdc hpke hrings hharts hage hhif hboot hcntLatch hunlock htap
    | with_reducible apply kept_ite | with_reducible apply after_next | with_reducible apply after_ite | dsimp only

theorem kept_execResetRelease (hP : Closed F P) (hclk : F .clk) (hsaf : F .saf) (hpwr : F .pwr) (hharts : F .harts)
    (s : State) (h0 : P s) : After P (execResetRelease s) := by
  unfold execResetRelease
  try dsimp only
  repeat' first
    | with_reducible assumption | with_reducible apply kept_advMono hP hclk
    | with_reducible apply kept_hartsBoot hP hharts | with_reducible apply kept_safEscCancel hP hsaf
    | with_reducible apply kept_updPwr hP hpwr | with_reducible apply kept_ite | with_reducible apply after_next
    | with_reducible apply after_ite | with_reducible exact Or.inr hclk | with_reducible exact Or.inr hsaf
    | with_reducible exact Or.inr hpwr | with_reducible exact Or.inr hharts | with_reducible exact Or.inl rfl
    | with_reducible apply hP.others | with_reducible exact fits_same _ _ | with_reducible exact fits_upd _ _ _ _
    | with_reducible exact fits_set _ _ _ _ | with_reducible exact fits_map _ _ _
    | with_reducible exact fits_replicate _ _ _ | with_reducible exact fitsMck_same _
    | with_reducible exact fun _ => fits_same _ _ | with_reducible exact fun _ => fits_upd _ _ _ _
    | with_reducible exact fun _ => fits_set _ _ _ _ | with_reducible exact fun _ => fits_map _ _ _
    | with_reducible exact fun _ => fits_replicate _ _ _ | split | dsimp only

theorem kept_islandRegs (hP : Closed F P) (s : State) (die : Nat) (isl : Nat) (h0 : P s) : P (islandRegs s die isl)
    := by
  unfold islandRegs
  try dsimp only
  repeat' first
    | with_reducible assumption | with_reducible apply kept_noteAll hP | with_reducible apply kept_sweep hP
    | with_reducible apply kept_wrN hP | with_reducible apply kept_ite | split | dsimp only

theorem kept_resetDsc (hP : Closed F P) (hdsc : F .dsc) (s : State) (h0 : P s) : P (resetDsc s) := by
  unfold resetDsc
  try dsimp only
  repeat' first
    | with_reducible assumption | intro _ | with_reducible apply kept_dscDoubts hP
    | with_reducible apply kept_dscStop hP hdsc | with_reducible apply kept_setSlot hP
    | with_reducible apply kept_showServo hP | with_reducible apply kept_slotCfgWritten hP hdsc
    | with_reducible apply kept_foldl | with_reducible apply kept_foldl_fst | dsimp only

theorem kept_resetOutputs (hP : Closed F P) (hmck : F .mck) (s : State) (h0 : P s) : P (resetOutputs s) := by
  unfold resetOutputs
  try dsimp only
  repeat' first
    | with_reducible assumption | intro _ | with_reducible apply kept_setCues hP hmck
    | with_reducible apply kept_startOut hP hmck | with_reducible apply kept_updCap hP hmck
    | with_reducible apply kept_ite | with_reducible apply kept_foldl | with_reducible apply kept_foldl_fst
    | with_reducible exact Or.inr hmck | with_reducible exact Or.inl rfl | with_reducible apply hP.others
    | with_reducible exact fits_same _ _ | with_reducible exact fits_upd _ _ _ _
    | with_reducible exact fits_set _ _ _ _ | with_reducible exact fits_map _ _ _
    | with_reducible exact fits_replicate _ _ _ | with_reducible exact fitsMck_same _
    | with_reducible apply FitsMck.mk | with_reducible exact fun _ => fits_same _ _
    | with_reducible exact fun _ => fits_upd _ _ _ _ | with_reducible exact fun _ => fits_set _ _ _ _
    | with_reducible exact fun _ => fits_map _ _ _ | with_reducible exact fun _ => fits_replicate _ _ _ | dsimp only

theorem kept_resetLinks (hP : Closed F P) (hkisl : F .kisl) (hlinks : F .links) (s : State) (h0 : P s) : P
    (resetLinks s) := by
  unfold resetLinks
  try dsimp only
  repeat' first
    | with_reducible assumption | intro _ | with_reducible apply kept_askReset hP hkisl hlinks
    | with_reducible apply kept_linkKeysErased hP hlinks | with_reducible apply kept_foldl
    | with_reducible apply kept_foldl_fst | dsimp only

theorem kept_resetOven (hP : Closed F P) (hoven : F .oven) (s : State) (h0 : P s) : P (resetOven s) := by
  unfold resetOven
  try dsimp only
  repeat' first
    | with_reducible assumption | with_reducible apply kept_doubt hP | with_reducible apply kept_updOven hP hoven
    | dsimp only

theorem kept_resetFrontEnd (hP : Closed F P) (hpwr : F .pwr) (hdsc : F .dsc) (hrad : F .rad) (s : State) (taken :
    List Byte) (h0 : P s) : P (resetFrontEnd s taken) := by
  unfold resetFrontEnd
  try dsimp only
  repeat' first
    | with_reducible assumption | with_reducible apply kept_doubt hP
    | with_reducible apply kept_gfUp hP hpwr hdsc hrad | with_reducible apply kept_putB hP
    | with_reducible apply kept_spoilCapture hP hpwr hdsc hrad | with_reducible apply kept_ite | dsimp only

theorem kept_resetAcq (hP : Closed F P) (hrad : F .rad) (s : State) (h0 : P s) : P (resetAcq s) := by
  unfold resetAcq
  try dsimp only
  repeat' first
    | with_reducible assumption | with_reducible apply kept_clearRun hP hrad | with_reducible apply kept_showJobq hP
    | with_reducible apply kept_updRad hP hrad | dsimp only

theorem kept_resetTrk (hP : Closed F P) (hrad : F .rad) (s : State) (h0 : P s) : P (resetTrk s) := by
  unfold resetTrk
  try dsimp only
  repeat' first
    | with_reducible assumption | intro _ | with_reducible apply kept_endMove hP hrad
    | with_reducible apply kept_idleChan hP hrad | with_reducible apply kept_foldl
    | with_reducible apply kept_foldl_fst | split | dsimp only

theorem kept_resetNavBits (hP : Closed F P) (hrad : F .rad) (s : State) (h0 : P s) : P (resetNavBits s) := by
  unfold resetNavBits
  try dsimp only
  repeat' first
    | with_reducible assumption | intro _ | with_reducible apply kept_putB hP
    | with_reducible apply kept_updChan hP hrad | with_reducible apply kept_updRad hP hrad
    | with_reducible apply kept_wrN hP | with_reducible apply kept_foldl | with_reducible apply kept_foldl_fst
    | dsimp only

theorem kept_resetMonitor (hP : Closed F P) (hdsc : F .dsc) (hrad : F .rad) (s : State) (h0 : P s) : P (resetMonitor
    s) := by
  unfold resetMonitor
  try dsimp only
  repeat' first
    | with_reducible assumption | with_reducible apply kept_doubt hP | with_reducible apply kept_markSlot hP hdsc
    | with_reducible apply kept_putB hP | with_reducible apply kept_showClearLeft hP
    | with_reducible apply kept_showExcl hP | with_reducible apply kept_showInd hP
    | with_reducible apply kept_updRad hP hrad | with_reducible apply kept_wrN hP | dsimp only

theorem kept_resetSnap (hP : Closed F P) (hpwr : F .pwr) (hdsc : F .dsc) (hrad : F .rad) (s : State) (h0 : P s) : P
    (resetSnap s) := by
  unfold resetSnap
  try dsimp only
  repeat' first
    | with_reducible assumption | with_reducible apply kept_disarm hP hpwr hdsc hrad | with_reducible apply kept_ite
    | split | dsimp only

theorem kept_resetNav (hP : Closed F P) (hpwr : F .pwr) (hdsc : F .dsc) (hrad : F .rad) (s : State) (h0 : P s) : P
    (resetNav s) := by
  unfold resetNav
  try dsimp only
  repeat' first
    | with_reducible assumption | with_reducible apply kept_resetMonitor hP hdsc hrad
    | with_reducible apply kept_resetNavBits hP hrad | with_reducible apply kept_resetSnap hP hpwr hdsc hrad
    | dsimp only

theorem kept_resetGroup (hP : Closed F P) (hmck : F .mck) (hports : F .ports) (hrings : F .rings) (s : State) (d :
    Nat) (g : Nat) (h0 : P s) : P (resetGroup s d g) := by
  unfold resetGroup
  try dsimp only
  repeat' first
    | with_reducible assumption | intro _ | with_reducible apply kept_linkFall hP hmck hports hrings
    | with_reducible apply kept_startCal hP hports | with_reducible apply kept_ite | with_reducible apply kept_foldl
    | with_reducible apply kept_foldl_fst | dsimp only

theorem kept_dropAnswers (hP : Closed F P) (hmck : F .mck) (hports : F .ports) (hrings : F .rings) (s : State) (d :
    Nat) (h0 : P s) : P (dropAnswers s d) := by
  unfold dropAnswers
  try dsimp only
  repeat' first
    | with_reducible assumption | intro _ | with_reducible apply kept_abandon hP hmck hports hrings
    | with_reducible apply kept_updPd hP hports | with_reducible apply kept_foldl
    | with_reducible apply kept_foldl_fst | with_reducible exact fits_PortDie (fits_same _ _)
    | with_reducible exact fits_PortDie (fits_upd _ _ _ _) | with_reducible exact fits_PortDie (fits_set _ _ _ _)
    | with_reducible exact fits_PortDie (fits_map _ _ _) | with_reducible exact fits_PortDie (fits_replicate _ _ _)
    | with_reducible exact fits_same _ _ | with_reducible exact fits_upd _ _ _ _
    | with_reducible exact fits_set _ _ _ _ | with_reducible exact fits_map _ _ _
    | with_reducible exact fits_replicate _ _ _ | with_reducible exact fun _ => fits_PortDie (fits_same _ _)
    | with_reducible exact fun _ => fits_PortDie (fits_upd _ _ _ _)
    | with_reducible exact fun _ => fits_PortDie (fits_set _ _ _ _)
    | with_reducible exact fun _ => fits_PortDie (fits_map _ _ _)
    | with_reducible exact fun _ => fits_PortDie (fits_replicate _ _ _)
    | with_reducible exact fun _ => fits_same _ _ | with_reducible exact fun _ => fits_upd _ _ _ _
    | with_reducible exact fun _ => fits_set _ _ _ _ | with_reducible exact fun _ => fits_map _ _ _
    | with_reducible exact fun _ => fits_replicate _ _ _ | split | dsimp only

theorem kept_resetEngines (hP : Closed F P) (hmck : F .mck) (hports : F .ports) (hkisl : F .kisl) (hrings : F
    .rings) (s : State) (d : Nat) (h0 : P s) : P (resetEngines s d) := by
  unfold resetEngines
  try dsimp only
  repeat' first
    | with_reducible assumption | intro _ | with_reducible apply kept_dropAnswers hP hmck hports hrings
    | with_reducible apply kept_dropPdelay hP hports | with_reducible apply kept_rateFlush hP hports
    | with_reducible apply kept_refillSiv hP hports hkisl | with_reducible apply kept_updPort hP hports
    | with_reducible apply kept_foldl | with_reducible apply kept_foldl_fst | with_reducible exact fits_same _ _
    | with_reducible exact fits_upd _ _ _ _ | with_reducible exact fits_set _ _ _ _
    | with_reducible exact fits_map _ _ _ | with_reducible exact fits_replicate _ _ _
    | with_reducible exact fun _ => fits_same _ _ | with_reducible exact fun _ => fits_upd _ _ _ _
    | with_reducible exact fun _ => fits_set _ _ _ _ | with_reducible exact fun _ => fits_map _ _ _
    | with_reducible exact fun _ => fits_replicate _ _ _ | dsimp only

theorem kept_resetLaunch (hP : Closed F P) (hmck : F .mck) (hports : F .ports) (hrings : F .rings) (s : State) (d :
    Nat) (h0 : P s) : P (resetLaunch s d) := by
  unfold resetLaunch
  try dsimp only
  repeat' first
    | with_reducible assumption | with_reducible apply kept_doubt hP
    | with_reducible apply kept_loseFrames hP hmck hports hrings | with_reducible apply kept_showHold hP
    | with_reducible apply kept_updPd hP hports | with_reducible exact fits_PortDie (fits_same _ _)
    | with_reducible exact fits_PortDie (fits_upd _ _ _ _) | with_reducible exact fits_PortDie (fits_set _ _ _ _)
    | with_reducible exact fits_PortDie (fits_map _ _ _) | with_reducible exact fits_PortDie (fits_replicate _ _ _)
    | with_reducible exact fits_same _ _ | with_reducible exact fits_upd _ _ _ _
    | with_reducible exact fits_set _ _ _ _ | with_reducible exact fits_map _ _ _
    | with_reducible exact fits_replicate _ _ _ | with_reducible exact fun _ => fits_PortDie (fits_same _ _)
    | with_reducible exact fun _ => fits_PortDie (fits_upd _ _ _ _)
    | with_reducible exact fun _ => fits_PortDie (fits_set _ _ _ _)
    | with_reducible exact fun _ => fits_PortDie (fits_map _ _ _)
    | with_reducible exact fun _ => fits_PortDie (fits_replicate _ _ _)
    | with_reducible exact fun _ => fits_same _ _ | with_reducible exact fun _ => fits_upd _ _ _ _
    | with_reducible exact fun _ => fits_set _ _ _ _ | with_reducible exact fun _ => fits_map _ _ _
    | with_reducible exact fun _ => fits_replicate _ _ _ | dsimp only

theorem kept_islandBlock (hP : Closed F P) (hsaf : F .saf) (hpwr : F .pwr) (hdsc : F .dsc) (hoven : F .oven) (hmck :
    F .mck) (hrad : F .rad) (hports : F .ports) (hkisl : F .kisl) (hlinks : F .links) (hcore : F .core) (htdc : F .tdc)
    (hpke : F .pke) (hrings : F .rings) (hharts : F .harts) (hage : F .age) (hhif : F .hif) (hcntLatch : F .cntLatch) (s
    : State) (die : Nat) (isl : Nat) (taken : List Byte) (h0 : P s) : P (islandBlock s die isl taken) := by
  unfold islandBlock
  try dsimp only
  repeat' first
    | with_reducible assumption | with_reducible apply kept_appHartsStop hP hharts
    | with_reducible apply kept_dropMint hP hkisl
    | with_reducible apply kept_hcFollow hP hpwr hdsc hmck hrad hports hkisl hlinks hpke hrings hharts hage
    | with_reducible apply kept_hifReset hP hrings hhif | with_reducible apply kept_keeperRestart hP hharts
    | with_reducible apply kept_linkLost hP hrings | with_reducible apply kept_pkeIslandReset hP hcore hpke hharts
    | with_reducible apply kept_pmcIslandReset hP hcntLatch | with_reducible apply kept_resetAcq hP hrad
    | with_reducible apply kept_resetDsc hP hdsc
    | with_reducible apply kept_resetEngines hP hmck hports hkisl hrings
    | with_reducible apply kept_resetFrontEnd hP hpwr hdsc hrad
    | with_reducible apply kept_resetGroup hP hmck hports hrings
    | with_reducible apply kept_resetLaunch hP hmck hports hrings
    | with_reducible apply kept_resetLinks hP hkisl hlinks | with_reducible apply kept_resetNav hP hpwr hdsc hrad
    | with_reducible apply kept_resetOutputs hP hmck | with_reducible apply kept_resetOven hP hoven
    | with_reducible apply kept_resetTrk hP hrad | with_reducible apply kept_safReset hP hsaf hmck
    | with_reducible apply kept_showKeys hP | with_reducible apply kept_tdcIslandReset hP htdc
    | with_reducible apply kept_ite | split | dsimp only

theorem kept_takeIsland (hP : Closed F P) (hsaf : F .saf) (hpwr : F .pwr) (hdsc : F .dsc) (hoven : F .oven) (hmck :
    F .mck) (hrad : F .rad) (hports : F .ports) (hkisl : F .kisl) (hlinks : F .links) (hcore : F .core) (htdc : F .tdc)
    (hpke : F .pke) (hrings : F .rings) (hharts : F .harts) (hage : F .age) (hhif : F .hif) (hcntLatch : F .cntLatch) (s
    : State) (cause : Nat) (die : Nat) (isl : Nat) (taken : List Byte) (h0 : P s) : P (takeIsland s cause die isl taken)
    := by
  unfold takeIsland
  try dsimp only
  repeat' first
    | with_reducible assumption | with_reducible apply kept_clearInts hP
    | with_reducible apply kept_islandBlock hP hsaf hpwr hdsc hoven hmck hrad hports hkisl hlinks hcore htdc hpke hrings hharts hage hhif hcntLatch
    | with_reducible apply kept_islandRegs hP | with_reducible apply kept_put hP
    | with_reducible apply kept_reviewIslandLost hP hage | with_reducible apply kept_stage hP
    | with_reducible apply kept_updPwr hP hpwr | with_reducible apply kept_wrN hP | with_reducible apply kept_ite
    | dsimp only

theorem kept_islandRequest (hP : Closed F P) (hsaf : F .saf) (hpwr : F .pwr) (hdsc : F .dsc) (hoven : F .oven) (hmck
    : F .mck) (hrad : F .rad) (hports : F .ports) (hkisl : F .kisl) (hlinks : F .links) (hcore : F .core) (htdc : F
    .tdc) (hpke : F .pke) (hrings : F .rings) (hharts : F .harts) (hage : F .age) (hhif : F .hif) (hcntLatch : F
    .cntLatch) (s : State) (cause : Nat) (die : Nat) (isl : Nat) (taken : List Byte) (h0 : P s) : P (islandRequest s
    cause die isl taken) := by
  unfold islandRequest
  try dsimp only
  repeat' first
    | with_reducible assumption | with_reducible apply kept_put hP
    | with_reducible apply kept_takeIsland hP hsaf hpwr hdsc hoven hmck hrad hports hkisl hlinks hcore htdc hpke hrings hharts hage hhif hcntLatch
    | with_reducible apply kept_ite | dsimp only

theorem kept_execIslandReset (hP : Closed F P) (hsaf : F .saf) (hpwr : F .pwr) (hdsc : F .dsc) (hoven : F .oven)
    (hmck : F .mck) (hrad : F .rad) (hports : F .ports) (hkisl : F .kisl) (hlinks : F .links) (hcore : F .core) (htdc :
    F .tdc) (hpke : F .pke) (hrings : F .rings) (hharts : F .harts) (hage : F .age) (hhif : F .hif) (hcntLatch : F
    .cntLatch) (src : Option Requester) (die : Fin 8) (isl : Fin 16) (taken : List Byte) (s : State) (h0 : P s) : After
    P (execIslandReset src die isl taken s) := by
  unfold execIslandReset
  try dsimp only
  repeat' first
    | with_reducible assumption | intro _ | with_reducible apply kept_deny hP
    | with_reducible apply kept_islandRequest hP hsaf hpwr hdsc hoven hmck hrad hports hkisl hlinks hcore htdc hpke hrings hharts hage hhif hcntLatch
    | with_reducible apply kept_onWrite hP | with_reducible apply kept_put hP
    | with_reducible apply kept_takeIsland hP hsaf hpwr hdsc hoven hmck hrad hports hkisl hlinks hcore htdc hpke hrings hharts hage hhif hcntLatch
    | with_reducible apply kept_ite | with_reducible apply after_next | with_reducible apply after_ite | split
    | dsimp only

theorem kept_execRstIsland (hP : Closed F P) (hsaf : F .saf) (hpwr : F .pwr) (hdsc : F .dsc) (hoven : F .oven) (hmck
    : F .mck) (hrad : F .rad) (hports : F .ports) (hkisl : F .kisl) (hlinks : F .links) (hcore : F .core) (htdc : F
    .tdc) (hpke : F .pke) (hrings : F .rings) (hharts : F .harts) (hage : F .age) (hhif : F .hif) (hcntLatch : F
    .cntLatch) (r : Requester) (page : Fin 8) (die : Fin 8) (isl : Fin 16) (taken : List Byte) (s : State) (h0 : P s) :
    After P (execRstIsland r page die isl taken s) := by
  unfold execRstIsland
  try dsimp only
  repeat' first
    | with_reducible assumption | intro _
    | with_reducible apply kept_islandRequest hP hsaf hpwr hdsc hoven hmck hrad hports hkisl hlinks hcore htdc hpke hrings hharts hage hhif hcntLatch
    | with_reducible apply kept_onWrite hP | with_reducible apply kept_put hP
    | with_reducible apply kept_tstWrite hP hmck hports hkisl hlinks hrings | with_reducible apply after_next
    | dsimp only

/-! ### Power -/

theorem kept_pwrGo (hP : Closed F P) (hpwr : F .pwr) (hharts : F .harts) (s : State) (req : Nat) (perst : Bool) (h0
    : P s) : P (pwrGo s req perst) := by
  unfold pwrGo
  try dsimp only
  repeat' first
    | with_reducible assumption | with_reducible apply kept_hartsStop hP hharts | with_reducible apply kept_put hP
    | with_reducible apply kept_putB hP | with_reducible apply kept_raise hP
    | with_reducible apply kept_updPwr hP hpwr | with_reducible apply kept_ite | dsimp only

theorem kept_pwrCtrl (hP : Closed F P) (hpwr : F .pwr) (hharts : F .harts) (s : State) (v : Nat) (perst : Bool) (h0
    : P s) : P (pwrCtrl s v perst) := by
  unfold pwrCtrl
  try dsimp only
  repeat' first
    | with_reducible assumption | with_reducible apply kept_put hP | with_reducible apply kept_pwrGo hP hpwr hharts
    | with_reducible apply kept_ite | dsimp only

theorem kept_execPwrRequest (hP : Closed F P) (hpwr : F .pwr) (hharts : F .harts) (r : Requester) (v : Word) (perst
    : Bool) (s : State) (h0 : P s) : After P (execPwrRequest r v perst s) := by
  unfold execPwrRequest
  try dsimp only
  repeat' first
    | with_reducible assumption | intro _ | with_reducible apply kept_deny hP | with_reducible apply kept_onWrite hP
    | with_reducible apply kept_pwrCtrl hP hpwr hharts | with_reducible apply kept_ite
    | with_reducible apply after_next | with_reducible apply after_ite | dsimp only

theorem kept_showAllPorts (hP : Closed F P) (hports : F .ports) (s : State) (h0 : P s) : P (showAllPorts s) := by
  unfold showAllPorts
  try dsimp only
  repeat' first
    | with_reducible assumption | intro _ | with_reducible apply kept_showTimed hP
    | with_reducible apply kept_watchCal hP hports | with_reducible apply kept_foldl
    | with_reducible apply kept_foldl_fst | dsimp only

theorem kept_enterLight (hP : Closed F P) (hpwr : F .pwr) (hports : F .ports) (s : State) (h0 : P s) : P (enterLight
    s) := by
  unfold enterLight
  try dsimp only
  repeat' first
    | with_reducible assumption | with_reducible apply kept_showAllPorts hP hports
    | with_reducible apply kept_updPwr hP hpwr | dsimp only

theorem kept_enterDeep (hP : Closed F P) (hsaf : F .saf) (hpwr : F .pwr) (hdsc : F .dsc) (hmck : F .mck) (hrad : F
    .rad) (hports : F .ports) (hkisl : F .kisl) (hlinks : F .links) (hcore : F .core) (hpke : F .pke) (hrings : F
    .rings) (hharts : F .harts) (hage : F .age) (hunlock : F .unlock) (s : State) (st : Nat) (h0 : P s) : P (enterDeep s
    st) := by
  unfold enterDeep
  try dsimp only
  repeat' first
    | with_reducible assumption | intro _ | with_reducible apply kept_coreLost hP hcore
    | with_reducible apply kept_domOff hP hpwr hdsc hmck hrad hports hkisl hlinks hpke hrings hharts hage
    | with_reducible apply kept_dropMint hP hkisl | with_reducible apply kept_linkLost hP hrings
    | with_reducible apply kept_pkeLost hP hpke | with_reducible apply kept_safKeep hP hsaf
    | with_reducible apply kept_tstLockAll hP hmck hports hkisl hlinks hrings hunlock
    | with_reducible apply kept_updPwr hP hpwr | with_reducible apply kept_ite | with_reducible apply kept_foldl
    | with_reducible apply kept_foldl_fst | with_reducible exact Or.inr hsaf | with_reducible exact Or.inr hpwr
    | with_reducible exact Or.inr hdsc | with_reducible exact Or.inr hmck | with_reducible exact Or.inr hrad
    | with_reducible exact Or.inr hports | with_reducible exact Or.inr hkisl | with_reducible exact Or.inr hlinks
    | with_reducible exact Or.inr hcore | with_reducible exact Or.inr hpke | with_reducible exact Or.inr hrings
    | with_reducible exact Or.inr hharts | with_reducible exact Or.inr hage | with_reducible exact Or.inr hunlock
    | with_reducible exact Or.inl rfl | with_reducible apply hP.others | with_reducible exact fits_same _ _
    | with_reducible exact fits_upd _ _ _ _ | with_reducible exact fits_set _ _ _ _
    | with_reducible exact fits_map _ _ _ | with_reducible exact fits_replicate _ _ _
    | with_reducible exact fitsMck_same _ | with_reducible exact fun _ => fits_same _ _
    | with_reducible exact fun _ => fits_upd _ _ _ _ | with_reducible exact fun _ => fits_set _ _ _ _
    | with_reducible exact fun _ => fits_map _ _ _ | with_reducible exact fun _ => fits_replicate _ _ _ | dsimp only

theorem kept_pwrChanged (hP : Closed F P) (s : State) (st : Nat) (bit : Nat) (h0 : P s) : P (pwrChanged s st bit) :=
    by
  unfold pwrChanged
  try dsimp only
  repeat' first
    | with_reducible assumption | with_reducible apply kept_put hP | with_reducible apply kept_putB hP
    | with_reducible apply kept_raise hP | with_reducible apply kept_record hP | dsimp only

theorem kept_beginExit (hP : Closed F P) (htb : F .tb) (hpwr : F .pwr) (s : State) (srcs : Nat) (h0 : P s) : P
    (beginExit s srcs) := by
  unfold beginExit
  try dsimp only
  repeat' first
    | with_reducible assumption | intro _ | with_reducible apply kept_put hP | with_reducible apply kept_putB hP
    | with_reducible apply kept_replicaDoubts hP | with_reducible apply kept_showReplica hP
    | with_reducible apply kept_updPwr hP hpwr | with_reducible apply kept_updReplica hP htb
    | with_reducible apply kept_ite | with_reducible apply kept_foldl | with_reducible apply kept_foldl_fst
    | dsimp only

theorem kept_execPwrEnter (hP : Closed F P) (htb : F .tb) (hsaf : F .saf) (hpwr : F .pwr) (hdsc : F .dsc) (hmck : F
    .mck) (hrad : F .rad) (hports : F .ports) (hkisl : F .kisl) (hlinks : F .links) (hcore : F .core) (hpke : F .pke)
    (hrings : F .rings) (hharts : F .harts) (hage : F .age) (hunlock : F .unlock) (s : State) (h0 : P s) : After P
    (execPwrEnter s) := by
  unfold execPwrEnter
  try dsimp only
  repeat' first
    | with_reducible assumption | with_reducible apply kept_beginExit hP htb hpwr
    | with_reducible apply kept_enterDeep hP hsaf hpwr hdsc hmck hrad hports hkisl hlinks hcore hpke hrings hharts hage hunlock
    | with_reducible apply kept_enterLight hP hpwr hports | with_reducible apply kept_pwrChanged hP
    | with_reducible apply kept_updPwr hP hpwr | with_reducible apply kept_ite | with_reducible apply after_next
    | with_reducible apply after_ite | split | dsimp only

theorem kept_execPwrWake (hP : Closed F P) (hclk : F .clk) (htb : F .tb) (hpwr : F .pwr) (perst : Bool) (con : Bool)
    (ask : Bool) (s : State) (h0 : P s) : After P (execPwrWake perst con ask s) := by
  unfold execPwrWake
  try dsimp only
  repeat' first
    | with_reducible assumption | with_reducible apply kept_advPc hP hclk
    | with_reducible apply kept_beginExit hP htb hpwr | with_reducible apply kept_updPwr hP hpwr
    | with_reducible apply kept_ite | with_reducible apply after_next | with_reducible apply after_ite | dsimp only

theorem kept_leaveLight (hP : Closed F P) (hpwr : F .pwr) (hports : F .ports) (s : State) (h0 : P s) : P (leaveLight
    s) := by
  unfold leaveLight
  try dsimp only
  repeat' first
    | with_reducible assumption | with_reducible apply kept_showAllPorts hP hports
    | with_reducible apply kept_updPwr hP hpwr | dsimp only

theorem kept_leaveDeep (hP : Closed F P) (hsaf : F .saf) (hpwr : F .pwr) (hports : F .ports) (hkisl : F .kisl)
    (hlinks : F .links) (hpke : F .pke) (hrings : F .rings) (hharts : F .harts) (hhif : F .hif) (hboot : F .boot) (s :
    State) (st : Nat) (h0 : P s) : P (leaveDeep s st) := by
  unfold leaveDeep
  try dsimp only
  repeat' first
    | with_reducible assumption | intro _ | with_reducible apply kept_domUp hP hpwr hports hkisl hlinks hpke
    | with_reducible apply kept_hartsBoot hP hharts | with_reducible apply kept_hartsReset hP hharts
    | with_reducible apply kept_hifReset hP hrings hhif | with_reducible apply kept_safKeepEnd hP hsaf
    | with_reducible apply kept_strapBoot hP | with_reducible apply kept_updPwr hP hpwr
    | with_reducible apply kept_ite | with_reducible apply kept_foldl | with_reducible apply kept_foldl_fst
    | with_reducible exact Or.inr hsaf | with_reducible exact Or.inr hpwr | with_reducible exact Or.inr hports
    | with_reducible exact Or.inr hkisl | with_reducible exact Or.inr hlinks | with_reducible exact Or.inr hpke
    | with_reducible exact Or.inr hrings | with_reducible exact Or.inr hharts | with_reducible exact Or.inr hhif
    | with_reducible exact Or.inr hboot | with_reducible exact Or.inl rfl | with_reducible apply hP.others
    | with_reducible exact fits_same _ _ | with_reducible exact fits_upd _ _ _ _
    | with_reducible exact fits_set _ _ _ _ | with_reducible exact fits_map _ _ _
    | with_reducible exact fits_replicate _ _ _ | with_reducible exact fitsMck_same _
    | with_reducible exact fun _ => fits_same _ _ | with_reducible exact fun _ => fits_upd _ _ _ _
    | with_reducible exact fun _ => fits_set _ _ _ _ | with_reducible exact fun _ => fits_map _ _ _
    | with_reducible exact fun _ => fits_replicate _ _ _ | dsimp only

theorem kept_execPwrExit (hP : Closed F P) (hsaf : F .saf) (hpwr : F .pwr) (hports : F .ports) (hkisl : F .kisl)
    (hlinks : F .links) (hpke : F .pke) (hrings : F .rings) (hharts : F .harts) (hhif : F .hif) (hboot : F .boot) (s :
    State) (h0 : P s) : After P (execPwrExit s) := by
  unfold execPwrExit
  try dsimp only
  repeat' first
    | with_reducible assumption
    | with_reducible apply kept_leaveDeep hP hsaf hpwr hports hkisl hlinks hpke hrings hharts hhif hboot
    | with_reducible apply kept_leaveLight hP hpwr hports | with_reducible apply kept_noteAll hP
    | with_reducible apply kept_pwrChanged hP | with_reducible apply kept_sweepLetter hP
    | with_reducible apply kept_updPwr hP hpwr | with_reducible apply kept_ite | with_reducible apply after_next
    | with_reducible apply after_ite | dsimp only

theorem kept_execAvsWrite (hP : Closed F P) (hclk : F .clk) (hpwr : F .pwr) (s : State) (h0 : P s) : After P
    (execAvsWrite s) := by
  unfold execAvsWrite
  try dsimp only
  repeat' first
    | with_reducible assumption | with_reducible apply kept_advMono hP hclk
    | with_reducible apply kept_updPwr hP hpwr | with_reducible apply kept_ite | with_reducible apply after_next
    | with_reducible apply after_ite | split | dsimp only

theorem kept_avsBits (hP : Closed F P) (s : State) (rail : Nat) (b : Bool) (h0 : P s) : P (avsBits s rail b) := by
  unfold avsBits
  try dsimp only
  repeat' first
    | with_reducible assumption | with_reducible apply kept_put hP | dsimp only

theorem kept_execAvsStatus (hP : Closed F P) (hclk : F .clk) (hpwr : F .pwr) (good : Bool) (s : State) (h0 : P s) :
    After P (execAvsStatus good s) := by
  unfold execAvsStatus
  try dsimp only
  repeat' first
    | with_reducible assumption | with_reducible apply kept_advMono hP hclk | with_reducible apply kept_avsBits hP
    | with_reducible apply kept_bump hP | with_reducible apply kept_raise hP
    | with_reducible apply kept_updPwr hP hpwr | with_reducible apply kept_ite | with_reducible apply after_next
    | with_reducible apply after_ite | split | dsimp only

/-! ### Hooks -/

theorem kept_tsuDisabled (hP : Closed F P) (hports : F .ports) (s : State) (d : Nat) (i : Nat) (h0 : P s) : P
    (tsuDisabled s d i) := by
  unfold tsuDisabled
  try dsimp only
  repeat' first
    | with_reducible assumption | with_reducible apply kept_dropCal hP | with_reducible apply kept_showTimed hP
    | with_reducible apply kept_updPort hP hports | with_reducible apply kept_watchCal hP hports
    | with_reducible exact fits_same _ _ | with_reducible exact fits_upd _ _ _ _
    | with_reducible exact fits_set _ _ _ _ | with_reducible exact fits_map _ _ _
    | with_reducible exact fits_replicate _ _ _ | with_reducible exact fun _ => fits_same _ _
    | with_reducible exact fun _ => fits_upd _ _ _ _ | with_reducible exact fun _ => fits_set _ _ _ _
    | with_reducible exact fun _ => fits_map _ _ _ | with_reducible exact fun _ => fits_replicate _ _ _ | dsimp only

theorem kept_allChansIdle (hP : Closed F P) (hrad : F .rad) (s : State) (h0 : P s) : P (allChansIdle s) := by
  unfold allChansIdle
  try dsimp only
  repeat' first
    | with_reducible assumption | intro _ | with_reducible apply kept_idleChan hP hrad
    | with_reducible apply kept_foldl | with_reducible apply kept_foldl_fst | dsimp only

theorem kept_pageEnabled (hP : Closed F P) (hpwr : F .pwr) (hdsc : F .dsc) (hmck : F .mck) (hrad : F .rad) (hports :
    F .ports) (hkisl : F .kisl) (hlinks : F .links) (hcore : F .core) (htdc : F .tdc) (hpke : F .pke) (hrings : F
    .rings) (hharts : F .harts) (before : State) (s : State) (k : PageKind) (p : Pg) (h0 : P before) (h1 : P s) : P
    (pageEnabled before s k p) := by
  unfold pageEnabled
  try dsimp only
  repeat' first
    | with_reducible assumption | with_reducible apply kept_askEnabled hP hkisl hlinks
    | with_reducible apply kept_generateIfNone hP hports hkisl hlinks
    | with_reducible apply kept_gfFollow hP hpwr hdsc hrad
    | with_reducible apply kept_laneEnabled hP hcore hpke hharts | with_reducible apply kept_refreshGates hP hmck
    | with_reducible apply kept_showBridges hP | with_reducible apply kept_showStale hP
    | with_reducible apply kept_showTimed hP | with_reducible apply kept_startCal hP hports
    | with_reducible apply kept_tblEnabled hP hports | with_reducible apply kept_tdcEnabled hP htdc
    | with_reducible apply kept_tstFollow hP hmck hports hkisl hlinks hrings | split | dsimp only

theorem kept_pageDisabled (hP : Closed F P) (hpwr : F .pwr) (hdsc : F .dsc) (hmck : F .mck) (hrad : F .rad) (hports
    : F .ports) (hkisl : F .kisl) (hlinks : F .links) (hcore : F .core) (htdc : F .tdc) (hpke : F .pke) (hrings : F
    .rings) (hharts : F .harts) (before : State) (s : State) (k : PageKind) (p : Pg) (h0 : P before) (h1 : P s) : P
    (pageDisabled before s k p) := by
  unfold pageDisabled
  try dsimp only
  repeat' first
    | with_reducible assumption | with_reducible apply kept_allChansIdle hP hrad
    | with_reducible apply kept_ansDisabled hP hports | with_reducible apply kept_askEnabled hP hkisl hlinks
    | with_reducible apply kept_dscStop hP hdsc | with_reducible apply kept_flushJobs hP hrad
    | with_reducible apply kept_gfFollow hP hpwr hdsc hrad | with_reducible apply kept_idleChan hP hrad
    | with_reducible apply kept_laneEnabled hP hcore hpke hharts
    | with_reducible apply kept_pkeDisabled hP hcore hpke hharts | with_reducible apply kept_refreshGates hP hmck
    | with_reducible apply kept_showBridges hP | with_reducible apply kept_showStale hP
    | with_reducible apply kept_showTimed hP | with_reducible apply kept_tdcEnabled hP htdc
    | with_reducible apply kept_tstFollow hP hmck hports hkisl hlinks hrings
    | with_reducible apply kept_tsuDisabled hP hports | split | dsimp only

theorem kept_setEn (hP : Closed F P) (hpwr : F .pwr) (hdsc : F .dsc) (hmck : F .mck) (hrad : F .rad) (hports : F
    .ports) (hkisl : F .kisl) (hlinks : F .links) (hcore : F .core) (htdc : F .tdc) (hpke : F .pke) (hrings : F .rings)
    (hharts : F .harts) (s : State) (p : Pg) (k : PageKind) (v : Bool) (h0 : P s) : P (setEn s p k v) := by
  unfold setEn
  try dsimp only
  repeat' first
    | with_reducible assumption | with_reducible apply kept_noteDoubt hP
    | with_reducible apply kept_pageDisabled hP hpwr hdsc hmck hrad hports hkisl hlinks hcore htdc hpke hrings hharts
    | with_reducible apply kept_pageEnabled hP hpwr hdsc hmck hrad hports hkisl hlinks hcore htdc hpke hrings hharts
    | with_reducible apply kept_putB hP | with_reducible apply kept_ite | dsimp only

theorem kept_softRegs (hP : Closed F P) (s : State) (p : Pg) (k : PageKind) (h0 : P s) : P (softRegs s p k) := by
  unfold softRegs
  try dsimp only
  repeat' first
    | with_reducible assumption | with_reducible apply kept_sweep hP | split | dsimp only

theorem kept_quadFall (hP : Closed F P) (hmck : F .mck) (hports : F .ports) (hrings : F .rings) (s : State) (d :
    Nat) (q : Nat) (h0 : P s) : P (quadFall s d q) := by
  unfold quadFall
  try dsimp only
  repeat' first
    | with_reducible assumption | intro _ | with_reducible apply kept_linkFall hP hmck hports hrings
    | with_reducible apply kept_ite | with_reducible apply kept_foldl | with_reducible apply kept_foldl_fst
    | dsimp only

theorem kept_resetPte (hP : Closed F P) (hports : F .ports) (s : State) (d : Nat) (h0 : P s) : P (resetPte s d) :=
    by
  unfold resetPte
  try dsimp only
  repeat' first
    | with_reducible assumption | intro _ | with_reducible apply kept_dropPdelay hP hports
    | with_reducible apply kept_updPort hP hports | with_reducible apply kept_foldl
    | with_reducible apply kept_foldl_fst | with_reducible exact fits_same _ _
    | with_reducible exact fits_upd _ _ _ _ | with_reducible exact fits_set _ _ _ _
    | with_reducible exact fits_map _ _ _ | with_reducible exact fits_replicate _ _ _
    | with_reducible exact fun _ => fits_same _ _ | with_reducible exact fun _ => fits_upd _ _ _ _
    | with_reducible exact fun _ => fits_set _ _ _ _ | with_reducible exact fun _ => fits_map _ _ _
    | with_reducible exact fun _ => fits_replicate _ _ _ | dsimp only

theorem kept_softBlock (hP : Closed F P) (hpwr : F .pwr) (hdsc : F .dsc) (hoven : F .oven) (hmck : F .mck) (hrad : F
    .rad) (hports : F .ports) (hkisl : F .kisl) (hlinks : F .links) (hcore : F .core) (htdc : F .tdc) (hpke : F .pke)
    (hrings : F .rings) (hharts : F .harts) (hage : F .age) (hcntLatch : F .cntLatch) (s : State) (k : PageKind) (p :
    Pg) (h0 : P s) : P (softBlock s k p) := by
  unfold softBlock
  try dsimp only
  repeat' first
    | with_reducible assumption | intro _ | with_reducible apply kept_abortLane hP hcore hpke hharts
    | with_reducible apply kept_ageReset hP hage | with_reducible apply kept_appHartsStop hP hharts
    | with_reducible apply kept_askLeave hP hkisl hlinks
    | with_reducible apply kept_dropAnswers hP hmck hports hrings | with_reducible apply kept_dropMint hP hkisl
    | with_reducible apply kept_dscStop hP hdsc | with_reducible apply kept_idleChan hP hrad
    | with_reducible apply kept_linkFall hP hmck hports hrings | with_reducible apply kept_linkKeysErased hP hlinks
    | with_reducible apply kept_pkeIslandReset hP hcore hpke hharts
    | with_reducible apply kept_pmcIslandReset hP hcntLatch
    | with_reducible apply kept_quadFall hP hmck hports hrings | with_reducible apply kept_rateFlush hP hports
    | with_reducible apply kept_refillSiv hP hports hkisl | with_reducible apply kept_resetAcq hP hrad
    | with_reducible apply kept_resetDsc hP hdsc | with_reducible apply kept_resetFrontEnd hP hpwr hdsc hrad
    | with_reducible apply kept_resetLaunch hP hmck hports hrings
    | with_reducible apply kept_resetMonitor hP hdsc hrad | with_reducible apply kept_resetNavBits hP hrad
    | with_reducible apply kept_resetOutputs hP hmck | with_reducible apply kept_resetOven hP hoven
    | with_reducible apply kept_resetPte hP hports | with_reducible apply kept_resetSnap hP hpwr hdsc hrad
    | with_reducible apply kept_resetTrk hP hrad | with_reducible apply kept_ringStop hP hrings
    | with_reducible apply kept_sesEmpty hP hports | with_reducible apply kept_startCal hP hports
    | with_reducible apply kept_startTest hP hpke | with_reducible apply kept_tdcIslandReset hP htdc
    | with_reducible apply kept_tstLock hP hmck hports hkisl hlinks hrings | with_reducible apply kept_ite
    | with_reducible apply kept_foldl | with_reducible apply kept_foldl_fst | split | dsimp only

theorem kept_softReset (hP : Closed F P) (hpwr : F .pwr) (hdsc : F .dsc) (hoven : F .oven) (hmck : F .mck) (hrad : F
    .rad) (hports : F .ports) (hkisl : F .kisl) (hlinks : F .links) (hcore : F .core) (htdc : F .tdc) (hpke : F .pke)
    (hrings : F .rings) (hharts : F .harts) (hage : F .age) (hcntLatch : F .cntLatch) (s : State) (p : Pg) (k :
    PageKind) (h0 : P s) : P (softReset s p k) := by
  unfold softReset
  try dsimp only
  repeat' first
    | with_reducible assumption | with_reducible apply kept_noteDoubt hP | with_reducible apply kept_putB hP
    | with_reducible apply kept_softBlock hP hpwr hdsc hoven hmck hrad hports hkisl hlinks hcore htdc hpke hrings hharts hage hcntLatch
    | with_reducible apply kept_softRegs hP | with_reducible apply kept_ite | dsimp only

/-! ### Store -/

theorem kept_after (hP : Closed F P) (f : State → Host.Outcome State Fault Refusal) (s : State)
    (hf : ∀ s, P s → After P (f s)) (h : P s) : P (after f s) := by
  have := hf s h
  unfold after
  cases hs : f s with
  | next t => rw [hs] at this; exact this
  | fault r => exact h
  | refused r => exact h

theorem kept_plainWrite (hP : Closed F P) (s : State) (r : Requester) (k : PageKind) (p : Pg) (off : Nat) (v : Nat)
    (h0 : P s) : P (plainWrite s r k p off v) := by
  unfold plainWrite
  try dsimp only
  repeat' first
    | with_reducible assumption | with_reducible apply kept_lockViol hP | with_reducible apply kept_wrA hP
    | with_reducible apply kept_ite | split | dsimp only

theorem kept_lockPage (hP : Closed F P) (s : State) (p : Pg) (h0 : P s) : P (lockPage s p) := by
  unfold lockPage
  try dsimp only
  repeat' first
    | with_reducible assumption | with_reducible apply kept_putB hP | dsimp only

theorem kept_ctrlWrite (hP : Closed F P) (hpwr : F .pwr) (hdsc : F .dsc) (hoven : F .oven) (hmck : F .mck) (hrad : F
    .rad) (hports : F .ports) (hkisl : F .kisl) (hlinks : F .links) (hcore : F .core) (htdc : F .tdc) (hpke : F .pke)
    (hrings : F .rings) (hharts : F .harts) (hage : F .age) (hcntLatch : F .cntLatch) (s : State) (k : PageKind) (p :
    Pg) (v : Nat) (h0 : P s) : P (ctrlWrite s k p v) := by
  unfold ctrlWrite
  try dsimp only
  repeat' first
    | with_reducible assumption | with_reducible apply kept_lockPage hP
    | with_reducible apply kept_setEn hP hpwr hdsc hmck hrad hports hkisl hlinks hcore htdc hpke hrings hharts
    | with_reducible apply kept_softReset hP hpwr hdsc hoven hmck hrad hports hkisl hlinks hcore htdc hpke hrings hharts hage hcntLatch
    | with_reducible apply kept_ite | dsimp only

theorem kept_forceInts (hP : Closed F P) (s : State) (p : Pg) (v : Nat) (h0 : P s) : P (forceInts s p v) := by
  unfold forceInts
  try dsimp only
  repeat' first
    | with_reducible assumption | intro _ | with_reducible apply kept_raiseBy hP | with_reducible apply kept_ite
    | with_reducible apply kept_foldl | with_reducible apply kept_foldl_fst | dsimp only

theorem kept_doubtEnWrite (hP : Closed F P) (s : State) (r : Requester) (k : PageKind) (p : Pg) (v : Nat) (h0 : P s)
    : P (doubtEnWrite s r k p v) := by
  unfold doubtEnWrite
  try dsimp only
  repeat' first
    | with_reducible assumption | with_reducible apply kept_noteDoubt hP | with_reducible apply kept_plainWrite hP
    | dsimp only

theorem kept_headerWrite (hP : Closed F P) (hpwr : F .pwr) (hdsc : F .dsc) (hoven : F .oven) (hmck : F .mck) (hrad :
    F .rad) (hports : F .ports) (hkisl : F .kisl) (hlinks : F .links) (hcore : F .core) (htdc : F .tdc) (hpke : F .pke)
    (hrings : F .rings) (hharts : F .harts) (hage : F .age) (hhif : F .hif) (hcntLatch : F .cntLatch) (s : State) (r :
    Requester) (k : PageKind) (p : Pg) (off : Nat) (v : Nat) (h0 : P s) : P (headerWrite s r k p off v) := by
  unfold headerWrite
  try dsimp only
  repeat' first
    | with_reducible assumption
    | with_reducible apply kept_ctrlWrite hP hpwr hdsc hoven hmck hrad hports hkisl hlinks hcore htdc hpke hrings hharts hage hcntLatch
    | with_reducible apply kept_doubtEnWrite hP | with_reducible apply kept_forceInts hP
    | with_reducible apply kept_plainWrite hP | with_reducible apply kept_vecsFall hP hhif
    | with_reducible apply kept_ite | dsimp only

theorem kept_commitWrite (hP : Closed F P) (s : State) (v : Nat) (h0 : P s) : P (commitWrite s v) := by
  unfold commitWrite
  try dsimp only
  repeat' first
    | with_reducible assumption | with_reducible apply kept_putB hP | with_reducible apply kept_ite | dsimp only

theorem kept_ackWrite (hP : Closed F P) (s : State) (p : Pg) (n : Nat) (v : Nat) (h0 : P s) : P (ackWrite s p n v)
    := by
  unfold ackWrite
  try dsimp only
  repeat' first
    | with_reducible assumption | with_reducible apply kept_lockViol hP | with_reducible apply kept_wrN hP
    | with_reducible apply kept_ite | dsimp only

theorem kept_rstWrite (hP : Closed F P) (hfab : F .fab) (hsaf : F .saf) (hpwr : F .pwr) (hdsc : F .dsc) (hoven : F
    .oven) (hmck : F .mck) (hrad : F .rad) (hports : F .ports) (hkisl : F .kisl) (hlinks : F .links) (hcore : F .core)
    (htdc : F .tdc) (hpke : F .pke) (hrings : F .rings) (hharts : F .harts) (hage : F .age) (hhif : F .hif) (hboot : F
    .boot) (hcntLatch : F .cntLatch) (hunlock : F .unlock) (s : State) (r : Requester) (v : Nat) (taken : List Byte) (h0
    : P s) : P (rstWrite s r v taken) := by
  unfold rstWrite
  try dsimp only
  repeat' first
    | with_reducible assumption | intro _ | with_reducible apply kept_after hP | with_reducible apply kept_deny hP
    | with_reducible apply kept_execIslandReset hP hsaf hpwr hdsc hoven hmck hrad hports hkisl hlinks hcore htdc hpke hrings hharts hage hhif hcntLatch
    | with_reducible apply kept_execWarmReset hP hfab hsaf hpwr hdsc hmck hrad hports hkisl hlinks hcore htdc hpke hrings hharts hage hhif hboot hcntLatch hunlock
    | with_reducible apply kept_put hP | with_reducible apply kept_ite | dsimp only

theorem kept_dieWrite (hP : Closed F P) (hfab : F .fab) (hsaf : F .saf) (hpwr : F .pwr) (hdsc : F .dsc) (hoven : F
    .oven) (hmck : F .mck) (hrad : F .rad) (hports : F .ports) (hkisl : F .kisl) (hlinks : F .links) (hcore : F .core)
    (htdc : F .tdc) (hpke : F .pke) (hrings : F .rings) (hharts : F .harts) (hage : F .age) (hhif : F .hif) (hboot : F
    .boot) (hcntLatch : F .cntLatch) (hunlock : F .unlock) (s : State) (r : Requester) (p : Pg) (off : Nat) (v : Nat)
    (env : WriteFacts) (h0 : P s) : P (dieWrite s r p off v env) := by
  unfold dieWrite
  try dsimp only
  repeat' first
    | with_reducible assumption | with_reducible apply kept_ackWrite hP | with_reducible apply kept_commitWrite hP
    | with_reducible apply kept_deny hP
    | with_reducible apply kept_domReq hP hpwr hdsc hmck hrad hports hkisl hlinks hpke hrings hharts hage
    | with_reducible apply kept_plainWrite hP | with_reducible apply kept_pwrCtrl hP hpwr hharts
    | with_reducible apply kept_rstWrite hP hfab hsaf hpwr hdsc hoven hmck hrad hports hkisl hlinks hcore htdc hpke hrings hharts hage hhif hboot hcntLatch hunlock
    | with_reducible apply kept_ite | dsimp only

theorem kept_cpuWrite (hP : Closed F P) (hharts : F .harts) (s : State) (r : Requester) (off : Nat) (v : Nat) (h0 :
    P s) : P (cpuWrite s r off v) := by
  unfold cpuWrite
  try dsimp only
  repeat' first
    | with_reducible assumption | with_reducible apply kept_dbPendWrite hP | with_reducible apply kept_doorbell hP
    | with_reducible apply kept_hartCtrl hP hharts | with_reducible apply kept_plainWrite hP
    | with_reducible apply kept_ite | dsimp only

theorem kept_pmcWrite (hP : Closed F P) (s : State) (r : Requester) (p : Pg) (off : Nat) (v : Nat) (h0 : P s) : P
    (pmcWrite s r p off v) := by
  unfold pmcWrite
  try dsimp only
  repeat' first
    | with_reducible assumption | with_reducible apply kept_ctlStored hP
    | with_reducible apply kept_ovfStampWrite hP | with_reducible apply kept_plainWrite hP
    | with_reducible apply kept_pmcCtrlWrite hP | with_reducible apply kept_ite | dsimp only

theorem kept_recWrite (hP : Closed F P) (s : State) (r : Requester) (off : Nat) (v : Nat) (h0 : P s) : P (recWrite s
    r off v) := by
  unfold recWrite
  try dsimp only
  repeat' first
    | with_reducible assumption | with_reducible apply kept_plainWrite hP | with_reducible apply kept_recCtrl hP
    | with_reducible apply kept_swCmd hP | with_reducible apply kept_ite | dsimp only

theorem kept_slotCmdWrite (hP : Closed F P) (hcore : F .core) (hpke : F .pke) (hharts : F .harts) (s : State) (r :
    Requester) (v : Nat) (h0 : P s) : P (slotCmdWrite s r v) := by
  unfold slotCmdWrite
  try dsimp only
  repeat' first
    | with_reducible assumption | with_reducible apply kept_slotFields hP
    | with_reducible apply kept_slotGo hP hcore hpke hharts | with_reducible apply kept_ite | dsimp only

theorem kept_pkeWrite (hP : Closed F P) (hcore : F .core) (hpke : F .pke) (hharts : F .harts) (s : State) (r :
    Requester) (off : Nat) (v : Nat) (h0 : P s) : P (pkeWrite s r off v) := by
  unfold pkeWrite
  try dsimp only
  repeat' first
    | with_reducible assumption | with_reducible apply kept_lockViol hP | with_reducible apply kept_plainWrite hP
    | with_reducible apply kept_setLens hP hpke | with_reducible apply kept_slotCmdWrite hP hcore hpke hharts
    | with_reducible apply kept_ite | dsimp only

theorem kept_jobCmdWrite (hP : Closed F P) (hcore : F .core) (hpke : F .pke) (hharts : F .harts) (s : State) (r :
    Requester) (l : Fin 16) (v : Nat) (h0 : P s) : P (jobCmdWrite s r l v) := by
  unfold jobCmdWrite
  try dsimp only
  repeat' first
    | with_reducible assumption | intro _ | with_reducible apply kept_after hP
    | with_reducible apply kept_execJobAbort hP hcore hpke hharts | with_reducible apply kept_execJobGo hP hpke
    | with_reducible apply kept_putQ hP | with_reducible apply kept_refusePkeJob hP | with_reducible apply kept_ite
    | dsimp only

theorem kept_pkelWrite (hP : Closed F P) (hcore : F .core) (hpke : F .pke) (hharts : F .harts) (s : State) (r :
    Requester) (p : Pg) (off : Nat) (v : Nat) (h0 : P s) : P (pkelWrite s r p off v) := by
  unfold pkelWrite
  try dsimp only
  repeat' first
    | with_reducible assumption | with_reducible apply kept_jobCmdWrite hP hcore hpke hharts
    | with_reducible apply kept_plainWrite hP | with_reducible apply kept_ite | dsimp only

theorem kept_keyWrite (hP : Closed F P) (hports : F .ports) (hkisl : F .kisl) (hlinks : F .links) (hcore : F .core)
    (hharts : F .harts) (s : State) (r : Requester) (off : Nat) (v : Nat) (h0 : P s) : P (keyWrite s r off v) := by
  unfold keyWrite
  try dsimp only
  repeat' first
    | with_reducible assumption | intro _ | with_reducible apply kept_after hP
    | with_reducible apply kept_execMint hP hkisl hcore hharts | with_reducible apply kept_plainWrite hP
    | with_reducible apply kept_purge hP hports hkisl hlinks
    | with_reducible apply kept_rotate hP hports hkisl hlinks | with_reducible apply kept_ite | dsimp only

theorem kept_msixWrite (hP : Closed F P) (hhif : F .hif) (s : State) (off : Nat) (v : Nat) (h0 : P s) : P (msixWrite
    s off v) := by
  unfold msixWrite
  try dsimp only
  repeat' first
    | with_reducible assumption | with_reducible apply kept_pbaSend hP hhif
    | with_reducible apply kept_updHif hP hhif | with_reducible apply kept_wrN hP | with_reducible apply kept_ite
    | dsimp only

theorem kept_hifWrite (hP : Closed F P) (hrings : F .rings) (hhif : F .hif) (s : State) (r : Requester) (off : Nat)
    (v : Nat) (env : WriteFacts) (h0 : P s) : P (hifWrite s r off v env) := by
  unfold hifWrite
  try dsimp only
  repeat' first
    | with_reducible assumption | with_reducible apply kept_conWrite hP hhif
    | with_reducible apply kept_eoiWrite hP hhif | with_reducible apply kept_hdbWrite hP
    | with_reducible apply kept_msixWrite hP hhif | with_reducible apply kept_plainWrite hP
    | with_reducible apply kept_ringCfg hP hrings | with_reducible apply kept_ringTail hP hrings
    | with_reducible apply kept_vecsFall hP hhif | with_reducible apply kept_ite | split | dsimp only

theorem kept_ageWrite (hP : Closed F P) (hage : F .age) (s : State) (r : Requester) (p : Pg) (off : Nat) (v : Nat)
    (h0 : P s) : P (ageWrite s r p off v) := by
  unfold ageWrite
  try dsimp only
  repeat' first
    | with_reducible assumption | with_reducible apply kept_plainWrite hP
    | with_reducible apply kept_reviewStart hP hage | with_reducible apply kept_ite | dsimp only

theorem kept_tstCtrl (hP : Closed F P) (hfab : F .fab) (hsaf : F .saf) (hpwr : F .pwr) (hdsc : F .dsc) (hoven : F
    .oven) (hmck : F .mck) (hrad : F .rad) (hports : F .ports) (hkisl : F .kisl) (hlinks : F .links) (hcore : F .core)
    (htdc : F .tdc) (hpke : F .pke) (hrings : F .rings) (hharts : F .harts) (hage : F .age) (hhif : F .hif) (hboot : F
    .boot) (hcntLatch : F .cntLatch) (hunlock : F .unlock) (s : State) (r : Requester) (die : Nat) (v : Nat) (env :
    WriteFacts) (h0 : P s) : P (tstCtrl s r die v env) := by
  unfold tstCtrl
  try dsimp only
  repeat' first
    | with_reducible assumption | intro _ | with_reducible apply kept_after hP
    | with_reducible apply kept_execRstIsland hP hsaf hpwr hdsc hoven hmck hrad hports hkisl hlinks hcore htdc hpke hrings hharts hage hhif hcntLatch
    | with_reducible apply kept_execRstWarm hP hfab hsaf hpwr hdsc hmck hrad hports hkisl hlinks hcore htdc hpke hrings hharts hage hhif hboot hcntLatch hunlock
    | with_reducible apply kept_put hP | with_reducible apply kept_tstLock hP hmck hports hkisl hlinks hrings
    | with_reducible apply kept_ite | dsimp only

theorem kept_tstPageWrite (hP : Closed F P) (hfab : F .fab) (hsaf : F .saf) (hpwr : F .pwr) (hdsc : F .dsc) (hoven :
    F .oven) (hmck : F .mck) (hrad : F .rad) (hports : F .ports) (hkisl : F .kisl) (hlinks : F .links) (hcore : F .core)
    (htdc : F .tdc) (hpke : F .pke) (hrings : F .rings) (hharts : F .harts) (hage : F .age) (hhif : F .hif) (hboot : F
    .boot) (hcntLatch : F .cntLatch) (hunlock : F .unlock) (s : State) (r : Requester) (p : Pg) (off : Nat) (v : Nat)
    (env : WriteFacts) (h0 : P s) : P (tstPageWrite s r p off v env) := by
  unfold tstPageWrite
  try dsimp only
  repeat' first
    | with_reducible assumption | intro _ | with_reducible apply kept_plainWrite hP
    | with_reducible apply kept_tileInj hP hports
    | with_reducible apply kept_tstCtrl hP hfab hsaf hpwr hdsc hoven hmck hrad hports hkisl hlinks hcore htdc hpke hrings hharts hage hhif hboot hcntLatch hunlock
    | with_reducible apply kept_tstUnlock hP hmck hports hkisl hlinks hrings hunlock
    | with_reducible apply kept_tstWrite hP hmck hports hkisl hlinks hrings | with_reducible apply kept_ite
    | dsimp only

theorem kept_tbeWrite (hP : Closed F P) (htb : F .tb) (hlinks : F .links) (s : State) (r : Requester) (off : Nat) (v
    : Nat) (h0 : P s) : P (tbeWrite s r off v) := by
  unfold tbeWrite
  try dsimp only
  repeat' first
    | with_reducible assumption | intro _ | with_reducible apply kept_after hP
    | with_reducible apply kept_execLeapSchedWrite hP htb | with_reducible apply kept_execStepRequest hP htb hlinks
    | with_reducible apply kept_execUtcOffsetWrite hP | with_reducible apply kept_plainWrite hP
    | with_reducible apply kept_ite | dsimp only

theorem kept_refWrite (hP : Closed F P) (hdsc : F .dsc) (s : State) (r : Requester) (off : Nat) (v : Nat) (h0 : P s)
    : P (refWrite s r off v) := by
  unfold refWrite
  try dsimp only
  repeat' first
    | with_reducible assumption | with_reducible apply kept_plainWrite hP
    | with_reducible apply kept_slotCfgWritten hP hdsc | with_reducible apply kept_slotCmd hP hdsc
    | with_reducible apply kept_ite | split | dsimp only

theorem kept_ovnWrite (hP : Closed F P) (hoven : F .oven) (s : State) (r : Requester) (off : Nat) (v : Nat) (h0 : P
    s) : P (ovnWrite s r off v) := by
  unfold ovnWrite
  try dsimp only
  repeat' first
    | with_reducible assumption | with_reducible apply kept_frefLost hP | with_reducible apply kept_plainWrite hP
    | with_reducible apply kept_requestSwitch hP hoven | with_reducible apply kept_ite | dsimp only

theorem kept_cueCmdWrite (hP : Closed F P) (hmck : F .mck) (s : State) (q : Nat) (v : Nat) (h0 : P s) : P
    (cueCmdWrite s q v) := by
  unfold cueCmdWrite
  try dsimp only
  repeat' first
    | with_reducible assumption | with_reducible apply kept_cueCancel hP hmck
    | with_reducible apply kept_cueFlush hP hmck | with_reducible apply kept_cuePush hP hmck
    | with_reducible apply kept_putQ hP | with_reducible apply kept_ite | dsimp only

theorem kept_mckWrite (hP : Closed F P) (hmck : F .mck) (s : State) (r : Requester) (off : Nat) (v : Nat) (h0 : P s)
    : P (mckWrite s r off v) := by
  unfold mckWrite
  try dsimp only
  repeat' first
    | with_reducible assumption | intro _ | with_reducible apply kept_cueCmdWrite hP hmck
    | with_reducible apply kept_frmLenWrite hP hmck | with_reducible apply kept_frmSelWrite hP
    | with_reducible apply kept_frmWord hP hmck | with_reducible apply kept_outWritten hP hmck
    | with_reducible apply kept_plainWrite hP | with_reducible apply kept_ite | with_reducible apply kept_foldl
    | with_reducible apply kept_foldl_fst | dsimp only

theorem kept_tdcCtrl (hP : Closed F P) (htdc : F .tdc) (s : State) (r : Requester) (v : Nat) (h0 : P s) : P (tdcCtrl
    s r v) := by
  unfold tdcCtrl
  try dsimp only
  repeat' first
    | with_reducible assumption | intro _ | with_reducible apply kept_after hP
    | with_reducible apply kept_execTdcArm hP htdc | with_reducible apply kept_execTdcDisarm hP htdc
    | with_reducible apply kept_tdcFlush hP htdc | with_reducible apply kept_ite | dsimp only

theorem kept_tdcWrite (hP : Closed F P) (htdc : F .tdc) (s : State) (r : Requester) (off : Nat) (v : Nat) (h0 : P s)
    : P (tdcWrite s r off v) := by
  unfold tdcWrite
  try dsimp only
  repeat' first
    | with_reducible assumption | intro _ | with_reducible apply kept_after hP
    | with_reducible apply kept_execHfCfgWrite hP htdc | with_reducible apply kept_execRingGo hP
    | with_reducible apply kept_gateFollow hP htdc | with_reducible apply kept_plainWrite hP
    | with_reducible apply kept_put hP | with_reducible apply kept_tdcCtrl hP htdc | with_reducible apply kept_ite
    | dsimp only

theorem kept_askWrite (hP : Closed F P) (hkisl : F .kisl) (hlinks : F .links) (hcore : F .core) (hharts : F .harts)
    (s : State) (r : Requester) (p : Pg) (off : Nat) (v : Nat) (h0 : P s) : P (askWrite s r p off v) := by
  unfold askWrite
  try dsimp only
  repeat' first
    | with_reducible assumption | with_reducible apply kept_askCfgWrite hP hkisl hlinks
    | with_reducible apply kept_askCtrl hP hkisl hlinks hcore hharts | with_reducible apply kept_lockViol hP
    | with_reducible apply kept_mbGo hP hlinks | with_reducible apply kept_mbTake hP hlinks
    | with_reducible apply kept_plainWrite hP | with_reducible apply kept_put hP
    | with_reducible apply kept_showAsk hP | with_reducible apply kept_ite | dsimp only

theorem kept_safWrite (hP : Closed F P) (hsaf : F .saf) (hmck : F .mck) (s : State) (r : Requester) (off : Nat) (v :
    Nat) (h0 : P s) : P (safWrite s r off v) := by
  unfold safWrite
  try dsimp only
  repeat' first
    | with_reducible assumption | with_reducible apply kept_escMaskWrite hP hsaf
    | with_reducible apply kept_lockViol hP | with_reducible apply kept_plainWrite hP
    | with_reducible apply kept_policyWrite hP hsaf hmck | with_reducible apply kept_safAuto hP hsaf hmck
    | with_reducible apply kept_safCtrl hP hsaf hmck | with_reducible apply kept_wrN hP
    | with_reducible apply kept_ite | dsimp only

theorem kept_grxWrite (hP : Closed F P) (hpwr : F .pwr) (hdsc : F .dsc) (hrad : F .rad) (s : State) (r : Requester)
    (off : Nat) (v : Nat) (h0 : P s) : P (grxWrite s r off v) := by
  unfold grxWrite
  try dsimp only
  repeat' first
    | with_reducible assumption | with_reducible apply kept_antCfgWritten hP hrad
    | with_reducible apply kept_gfFollow hP hpwr hdsc hrad | with_reducible apply kept_plainWrite hP
    | with_reducible apply kept_ite | dsimp only

theorem kept_chanWrite (hP : Closed F P) (hrad : F .rad) (s : State) (r : Requester) (k : PageKind) (p : Pg) (off :
    Nat) (v : Nat) (h0 : P s) : P (chanWrite s r k p off v) := by
  unfold chanWrite
  try dsimp only
  repeat' first
    | with_reducible assumption | with_reducible apply kept_chanCtrl hP hrad
    | with_reducible apply kept_plainWrite hP | with_reducible apply kept_ite | dsimp only

theorem kept_navWrite (hP : Closed F P) (hdsc : F .dsc) (hrad : F .rad) (s : State) (r : Requester) (off : Nat) (v :
    Nat) (h0 : P s) : P (navWrite s r off v) := by
  unfold navWrite
  try dsimp only
  repeat' first
    | with_reducible assumption | intro _ | with_reducible apply kept_after hP
    | with_reducible apply kept_execNavRdIdxWrite hP | with_reducible apply kept_execPosSigWrite hP hrad
    | with_reducible apply kept_plainWrite hP | with_reducible apply kept_submitSolution hP hdsc hrad
    | with_reducible apply kept_ite | dsimp only

theorem kept_snpWrite (hP : Closed F P) (hpwr : F .pwr) (hdsc : F .dsc) (hrad : F .rad) (s : State) (r : Requester)
    (off : Nat) (v : Nat) (taken : List Byte) (h0 : P s) : P (snpWrite s r off v taken) := by
  unfold snpWrite
  try dsimp only
  repeat' first
    | with_reducible assumption | with_reducible apply kept_plainWrite hP
    | with_reducible apply kept_snpCtrl hP hpwr hdsc hrad | with_reducible apply kept_updRad hP hrad
    | with_reducible apply kept_ite | dsimp only

theorem kept_sdsWrite (hP : Closed F P) (s : State) (r : Requester) (p : Pg) (off : Nat) (v : Nat) (h0 : P s) : P
    (sdsWrite s r p off v) := by
  unfold sdsWrite
  try dsimp only
  repeat' first
    | with_reducible assumption | intro _ | with_reducible apply kept_after hP
    | with_reducible apply kept_execMmTransaction hP | with_reducible apply kept_plainWrite hP
    | with_reducible apply kept_ite | dsimp only

theorem kept_macWrite (hP : Closed F P) (hmck : F .mck) (hports : F .ports) (hrings : F .rings) (s : State) (r :
    Requester) (p : Pg) (off : Nat) (v : Nat) (h0 : P s) : P (macWrite s r p off v) := by
  unfold macWrite
  try dsimp only
  repeat' first
    | with_reducible assumption | with_reducible apply kept_formDelays hP
    | with_reducible apply kept_linkFall hP hmck hports hrings | with_reducible apply kept_plainWrite hP
    | with_reducible apply kept_showBridges hP | with_reducible apply kept_showTimed hP
    | with_reducible apply kept_ite | dsimp only

theorem kept_tabWrite (hP : Closed F P) (hports : F .ports) (s : State) (r : Requester) (d : Nat) (v : Nat) (h0 : P
    s) : P (tabWrite s r d v) := by
  unfold tabWrite
  try dsimp only
  repeat' first
    | with_reducible assumption | intro _ | with_reducible apply kept_after hP
    | with_reducible apply kept_execAnsTabRead hP | with_reducible apply kept_execAnsTabWrite hP hports
    | with_reducible apply kept_tabFields hP | with_reducible apply kept_ite | dsimp only

theorem kept_tblWrite (hP : Closed F P) (hports : F .ports) (s : State) (r : Requester) (p : Pg) (off : Nat) (v :
    Nat) (h0 : P s) : P (tblWrite s r p off v) := by
  unfold tblWrite
  try dsimp only
  repeat' first
    | with_reducible assumption | intro _ | with_reducible apply kept_after hP
    | with_reducible apply kept_execPfxRead hP | with_reducible apply kept_execPfxWrite hP hports
    | with_reducible apply kept_execSesRead hP | with_reducible apply kept_execSesWrite hP hports
    | with_reducible apply kept_pfxFields hP | with_reducible apply kept_plainWrite hP
    | with_reducible apply kept_rateFlush hP hports | with_reducible apply kept_sesFields hP
    | with_reducible apply kept_ite | dsimp only

theorem kept_pteWrite (hP : Closed F P) (hdsc : F .dsc) (hports : F .ports) (hrings : F .rings) (s : State) (r :
    Requester) (p : Pg) (off : Nat) (v : Nat) (h0 : P s) : P (pteWrite s r p off v) := by
  unfold pteWrite
  try dsimp only
  repeat' first
    | with_reducible assumption | intro _ | with_reducible apply kept_after hP
    | with_reducible apply kept_execBrEnable hP | with_reducible apply kept_execInstRead hP
    | with_reducible apply kept_execInstWrite hP hports hrings | with_reducible apply kept_execSaRead hP
    | with_reducible apply kept_execSaWrite hP hports | with_reducible apply kept_instFields hP
    | with_reducible apply kept_plainWrite hP | with_reducible apply kept_rxCfgWritten hP hdsc hports
    | with_reducible apply kept_saFields hP | with_reducible apply kept_wrN hP | with_reducible apply kept_ite
    | dsimp only

theorem kept_blockWrite (hP : Closed F P) (htb : F .tb) (hfab : F .fab) (hsaf : F .saf) (hpwr : F .pwr) (hdsc : F
    .dsc) (hoven : F .oven) (hmck : F .mck) (hrad : F .rad) (hports : F .ports) (hkisl : F .kisl) (hlinks : F .links)
    (hcore : F .core) (htdc : F .tdc) (hpke : F .pke) (hrings : F .rings) (hharts : F .harts) (hage : F .age) (hhif : F
    .hif) (hboot : F .boot) (hcntLatch : F .cntLatch) (hunlock : F .unlock) (s : State) (r : Requester) (k : PageKind)
    (p : Pg) (off : Nat) (v : Nat) (env : WriteFacts) (h0 : P s) : P (blockWrite s r k p off v env) := by
  unfold blockWrite
  try dsimp only
  repeat' first
    | with_reducible assumption | intro _ | with_reducible apply kept_acqCtrl hP hrad
    | with_reducible apply kept_after hP | with_reducible apply kept_ageWrite hP hage
    | with_reducible apply kept_askWrite hP hkisl hlinks hcore hharts | with_reducible apply kept_bootCtrl hP hboot
    | with_reducible apply kept_chanWrite hP hrad | with_reducible apply kept_cpuWrite hP hharts
    | with_reducible apply kept_dieWrite hP hfab hsaf hpwr hdsc hoven hmck hrad hports hkisl hlinks hcore htdc hpke hrings hharts hage hhif hboot hcntLatch hunlock
    | with_reducible apply kept_exclCmd hP hrad | with_reducible apply kept_execTrkPromoteGo hP hrad
    | with_reducible apply kept_grxWrite hP hpwr hdsc hrad | with_reducible apply kept_hifWrite hP hrings hhif
    | with_reducible apply kept_intCtrl hP hdsc hrad
    | with_reducible apply kept_keyWrite hP hports hkisl hlinks hcore hharts
    | with_reducible apply kept_macWrite hP hmck hports hrings | with_reducible apply kept_mckWrite hP hmck
    | with_reducible apply kept_navWrite hP hdsc hrad | with_reducible apply kept_ovnWrite hP hoven
    | with_reducible apply kept_pkeWrite hP hcore hpke hharts
    | with_reducible apply kept_pkelWrite hP hcore hpke hharts | with_reducible apply kept_plainWrite hP
    | with_reducible apply kept_pmcWrite hP | with_reducible apply kept_pteWrite hP hdsc hports hrings
    | with_reducible apply kept_recWrite hP | with_reducible apply kept_refWrite hP hdsc
    | with_reducible apply kept_safWrite hP hsaf hmck | with_reducible apply kept_sdsWrite hP
    | with_reducible apply kept_snpWrite hP hpwr hdsc hrad | with_reducible apply kept_startCal hP hports
    | with_reducible apply kept_tabWrite hP hports | with_reducible apply kept_tbeWrite hP htb hlinks
    | with_reducible apply kept_tblWrite hP hports | with_reducible apply kept_tdcWrite hP htdc
    | with_reducible apply kept_tstPageWrite hP hfab hsaf hpwr hdsc hoven hmck hrad hports hkisl hlinks hcore htdc hpke hrings hharts hage hhif hboot hcntLatch hunlock
    | with_reducible apply kept_ite | split | dsimp only

theorem kept_pageWrite (hP : Closed F P) (htb : F .tb) (hfab : F .fab) (hsaf : F .saf) (hpwr : F .pwr) (hdsc : F
    .dsc) (hoven : F .oven) (hmck : F .mck) (hrad : F .rad) (hports : F .ports) (hkisl : F .kisl) (hlinks : F .links)
    (hcore : F .core) (htdc : F .tdc) (hpke : F .pke) (hrings : F .rings) (hharts : F .harts) (hage : F .age) (hhif : F
    .hif) (hboot : F .boot) (hcntLatch : F .cntLatch) (hunlock : F .unlock) (s : State) (r : Requester) (p : Pg) (off :
    Nat) (v : Nat) (env : WriteFacts) (h0 : P s) : P (pageWrite s r p off v env) := by
  unfold pageWrite
  try dsimp only
  repeat' first
    | with_reducible assumption
    | with_reducible apply kept_blockWrite hP htb hfab hsaf hpwr hdsc hoven hmck hrad hports hkisl hlinks hcore htdc hpke hrings hharts hage hhif hboot hcntLatch hunlock
    | with_reducible apply kept_headerWrite hP hpwr hdsc hoven hmck hrad hports hkisl hlinks hcore htdc hpke hrings hharts hage hhif hcntLatch
    | with_reducible apply kept_ite | split | dsimp only

theorem kept_storeWord (hP : Closed F P) (htb : F .tb) (hfab : F .fab) (hsaf : F .saf) (hpwr : F .pwr) (hdsc : F
    .dsc) (hoven : F .oven) (hmck : F .mck) (hrad : F .rad) (hports : F .ports) (hkisl : F .kisl) (hlinks : F .links)
    (hcore : F .core) (htdc : F .tdc) (hpke : F .pke) (hrings : F .rings) (hharts : F .harts) (hage : F .age) (hhif : F
    .hif) (hboot : F .boot) (hcntLatch : F .cntLatch) (hunlock : F .unlock) (s : State) (r : Requester) (a : Nat) (v :
    Nat) (env : WriteFacts) (h0 : P s) : P (storeWord s r a v env) := by
  unfold storeWord
  try dsimp only
  repeat' first
    | with_reducible assumption | intro _ | with_reducible apply kept_access hP
    | with_reducible apply kept_pageWrite hP htb hfab hsaf hpwr hdsc hoven hmck hrad hports hkisl hlinks hcore htdc hpke hrings hharts hage hhif hboot hcntLatch hunlock
    | dsimp only

theorem kept_narrowWrite (hP : Closed F P) (s : State) (r : Requester) (a : Nat) (h0 : P s) : P (narrowWrite s r a)
    := by
  unfold narrowWrite
  try dsimp only
  repeat' first
    | with_reducible assumption | intro _ | with_reducible apply kept_access hP | with_reducible apply kept_bump hP
    | dsimp only

/-! ### Load -/

theorem kept_afterRead (hP : Closed F P) (f : State → Host.Outcome State Fault Refusal) (s : State) (h0 : ∀ y0, P y0
    → After P (f y0)) (h1 : P s) : P (afterRead f s).1 := by
  unfold afterRead
  try dsimp only
  repeat' first
    | with_reducible assumption | with_reducible apply h0 | intro _ | with_reducible apply kept_after hP
    | dsimp only

theorem kept_actingRead (hP : Closed F P) (hsnaps : F .snaps) (hmck : F .mck) (hrad : F .rad) (htdc : F .tdc) (hhif : F .hif) (hcntLatch : F .cntLatch) (s : State) (r : Requester) (k : PageKind) (p : Pg) (off : Nat) (h : P s) :
    ∀ x, actingRead s r k p off = some x → P x.1 := by
  intro x hx
  cases k <;> dsimp only [actingRead] at hx
  all_goals first | exact absurd hx.symm (Option.some_ne_none x) | skip
  all_goals
    split at hx
    · injection hx with hx
      rw [← hx]
      with_reducible first
      | exact kept_afterRead hP _ _ (fun s h => kept_execTimeSnapshot hP hsnaps _ _ _ s h) h
      | exact kept_afterRead hP _ _ (fun s h => kept_execCapRead hP hmck _ s h) h
      | exact kept_afterRead hP _ _ (fun s h => kept_execTdcResRead hP htdc _ s h) h
      | exact kept_afterRead hP _ _ (fun s h => kept_execAcqResRead hP hrad _ s h) h
      | exact kept_afterRead hP _ _ (fun s h => kept_execTchDumpRead hP _ _ _ s h) h
      | exact kept_conRead hP hhif s h
      | exact kept_cntRead hP hcntLatch _ _ _ _ h
    · exact absurd hx.symm (Option.some_ne_none x)

theorem kept_blockRead (hP : Closed F P) (hsnaps : F .snaps) (hmck : F .mck) (hrad : F .rad) (htdc : F .tdc) (hhif : F .hif) (hcntLatch : F .cntLatch) (s : State) (r : Requester) (k : PageKind) (p : Pg) (off : Nat) (h : P s) :
    P (blockRead s r k p off).1 := by
  unfold blockRead
  cases ha : actingRead s r k p off with
  | some x => exact kept_actingRead hP hsnaps hmck hrad htdc hhif hcntLatch s r k p off h x ha
  | none =>
    dsimp only
    cases liveRead s k p off with
    | some v => exact h
    | none =>
      exact kept_fst_ite _ _ _ h (kept_fst_ite _ _ _ (kept_wrB hP _ _ _ _ _ h) (kept_fst_ite _ _ _ h h))

theorem kept_pageRead (hP : Closed F P) (hsnaps : F .snaps) (hmck : F .mck) (hrad : F .rad) (htdc : F .tdc) (hhif :
    F .hif) (hcntLatch : F .cntLatch) (s : State) (r : Requester) (p : Pg) (off : Nat) (h0 : P s) : P (pageRead s r p
    off).1 := by
  unfold pageRead
  try dsimp only
  repeat' first
    | with_reducible assumption | with_reducible apply kept_blockRead hP hsnaps hmck hrad htdc hhif hcntLatch
    | with_reducible apply kept_ite | with_reducible apply kept_fst_ite | split | dsimp only

theorem kept_loadWord (hP : Closed F P) (hsnaps : F .snaps) (hmck : F .mck) (hrad : F .rad) (htdc : F .tdc) (hhif :
    F .hif) (hcntLatch : F .cntLatch) (s : State) (r : Requester) (a : Nat) (h0 : P s) : P (loadWord s r a) := by
  unfold loadWord
  try dsimp only
  repeat' first
    | with_reducible assumption | intro _ | with_reducible apply kept_onRead hP
    | with_reducible apply kept_pageRead hP hsnaps hmck hrad htdc hhif hcntLatch
    | with_reducible apply kept_reply hP | dsimp only

/-! ### Access -/

theorem kept_quiet (hP : Closed F P) (hlinks : F .links) (hhif : F .hif) (s : State) (h : P s) : P (quiet s) := hP.quiet hlinks hhif s h

theorem kept_execRegWrite (hP : Closed F P) (htb : F .tb) (hfab : F .fab) (hsaf : F .saf) (hpwr : F .pwr) (hdsc : F
    .dsc) (hoven : F .oven) (hmck : F .mck) (hrad : F .rad) (hports : F .ports) (hkisl : F .kisl) (hlinks : F .links)
    (hcore : F .core) (htdc : F .tdc) (hpke : F .pke) (hrings : F .rings) (hharts : F .harts) (hage : F .age) (hhif : F
    .hif) (hboot : F .boot) (hcntLatch : F .cntLatch) (hunlock : F .unlock) (r : Requester) (adr : Nat) (size : AccSize)
    (v : BitVec 64) (env : WriteFacts) (s : State) (h0 : P s) : After P (execRegWrite r adr size v env s) := by
  unfold execRegWrite
  try dsimp only
  repeat' first
    | with_reducible assumption | with_reducible apply kept_narrowWrite hP
    | with_reducible apply kept_quiet hP hlinks hhif
    | with_reducible apply kept_storeWord hP htb hfab hsaf hpwr hdsc hoven hmck hrad hports hkisl hlinks hcore htdc hpke hrings hharts hage hhif hboot hcntLatch hunlock
    | with_reducible apply kept_ite | with_reducible apply after_next | with_reducible apply after_fault
    | with_reducible apply after_refused | with_reducible apply after_ite | split | dsimp only

theorem kept_execUnmappedAccess (hP : Closed F P) (r : Requester) (die : Fin 8) (page : Fin 8192) (wr : Bool) (s :
    State) (h0 : P s) : After P (execUnmappedAccess r die page wr s) := by
  unfold execUnmappedAccess
  try dsimp only
  repeat' first
    | with_reducible assumption | intro _ | with_reducible apply kept_access hP | with_reducible apply kept_ite
    | with_reducible apply after_next | with_reducible apply after_ite | dsimp only

theorem kept_execPoweredOffAccess (hP : Closed F P) (r : Requester) (die : Fin 8) (page : Fin 8192) (wr : Bool) (s :
    State) (h0 : P s) : After P (execPoweredOffAccess r die page wr s) := by
  unfold execPoweredOffAccess
  try dsimp only
  repeat' first
    | with_reducible assumption | intro _ | with_reducible apply kept_access hP | with_reducible apply kept_ite
    | with_reducible apply after_next | with_reducible apply after_ite | dsimp only

theorem kept_onHeader (hP : Closed F P) (s : State) (r : Requester) (p : Pg) (f : PageKind → State → State) (h0 : P
    s) (h1 : ∀ y0 y1, P y1 → P (f y0 y1)) : P (onHeader s r p f) := by
  unfold onHeader
  try dsimp only
  repeat' first
    | with_reducible assumption | with_reducible apply h1 | intro _ | with_reducible apply kept_onWrite hP | split
    | dsimp only

theorem kept_execPageEnable (hP : Closed F P) (hpwr : F .pwr) (hdsc : F .dsc) (hmck : F .mck) (hrad : F .rad)
    (hports : F .ports) (hkisl : F .kisl) (hlinks : F .links) (hcore : F .core) (htdc : F .tdc) (hpke : F .pke) (hrings
    : F .rings) (hharts : F .harts) (r : Requester) (die : Fin 8) (page : Fin 8192) (s : State) (h0 : P s) : After P
    (execPageEnable r die page s) := by
  unfold execPageEnable
  try dsimp only
  repeat' first
    | with_reducible assumption | intro _ | with_reducible apply kept_onHeader hP
    | with_reducible apply kept_setEn hP hpwr hdsc hmck hrad hports hkisl hlinks hcore htdc hpke hrings hharts
    | with_reducible apply after_next | dsimp only

theorem kept_execPageDisable (hP : Closed F P) (hpwr : F .pwr) (hdsc : F .dsc) (hmck : F .mck) (hrad : F .rad)
    (hports : F .ports) (hkisl : F .kisl) (hlinks : F .links) (hcore : F .core) (htdc : F .tdc) (hpke : F .pke) (hrings
    : F .rings) (hharts : F .harts) (r : Requester) (die : Fin 8) (page : Fin 8192) (s : State) (h0 : P s) : After P
    (execPageDisable r die page s) := by
  unfold execPageDisable
  try dsimp only
  repeat' first
    | with_reducible assumption | intro _ | with_reducible apply kept_onHeader hP
    | with_reducible apply kept_setEn hP hpwr hdsc hmck hrad hports hkisl hlinks hcore htdc hpke hrings hharts
    | with_reducible apply after_next | dsimp only

theorem kept_execSoftReset (hP : Closed F P) (hpwr : F .pwr) (hdsc : F .dsc) (hoven : F .oven) (hmck : F .mck) (hrad
    : F .rad) (hports : F .ports) (hkisl : F .kisl) (hlinks : F .links) (hcore : F .core) (htdc : F .tdc) (hpke : F
    .pke) (hrings : F .rings) (hharts : F .harts) (hage : F .age) (hcntLatch : F .cntLatch) (r : Requester) (die : Fin
    8) (page : Fin 8192) (s : State) (h0 : P s) : After P (execSoftReset r die page s) := by
  unfold execSoftReset
  try dsimp only
  repeat' first
    | with_reducible assumption | intro _ | with_reducible apply kept_onHeader hP
    | with_reducible apply kept_softReset hP hpwr hdsc hoven hmck hrad hports hkisl hlinks hcore htdc hpke hrings hharts hage hcntLatch
    | with_reducible apply after_next | dsimp only

theorem kept_execSoftResetDone (hP : Closed F P) (die : Fin 8) (page : Fin 8192) (s : State) (h0 : P s) : After P
    (execSoftResetDone die page s) := by
  unfold execSoftResetDone
  try dsimp only
  repeat' first
    | with_reducible assumption | with_reducible apply kept_putB hP | with_reducible apply kept_ite
    | with_reducible apply after_next | with_reducible apply after_ite | dsimp only

theorem kept_execPageLock (hP : Closed F P) (r : Requester) (die : Fin 8) (page : Fin 8192) (s : State) (h0 : P s) :
    After P (execPageLock r die page s) := by
  unfold execPageLock
  try dsimp only
  repeat' first
    | with_reducible assumption | intro _ | with_reducible apply kept_lockPage hP
    | with_reducible apply kept_onHeader hP | with_reducible apply after_next | dsimp only

theorem kept_execIntForce (hP : Closed F P) (r : Requester) (die : Fin 8) (page : Fin 8192) (v : Word) (s : State)
    (h0 : P s) : After P (execIntForce r die page v s) := by
  unfold execIntForce
  try dsimp only
  repeat' first
    | with_reducible assumption | intro _ | with_reducible apply kept_forceInts hP
    | with_reducible apply kept_onHeader hP | with_reducible apply after_next | dsimp only

theorem kept_execFeatCommit (hP : Closed F P) (r : Requester) (s : State) (h0 : P s) : After P (execFeatCommit r s)
    := by
  unfold execFeatCommit
  try dsimp only
  repeat' first
    | with_reducible assumption | intro _ | with_reducible apply kept_commitWrite hP
    | with_reducible apply kept_onWrite hP | with_reducible apply after_next | dsimp only

theorem kept_execFeatCommitDone (hP : Closed F P) (hmck : F .mck) (hports : F .ports) (hkisl : F .kisl) (hlinks : F
    .links) (s : State) (h0 : P s) : After P (execFeatCommitDone s) := by
  unfold execFeatCommitDone
  try dsimp only
  repeat' first
    | with_reducible assumption | intro _ | with_reducible apply kept_generateIfNone hP hports hkisl hlinks
    | with_reducible apply kept_putB hP | with_reducible apply kept_refreshGates hP hmck
    | with_reducible apply kept_refreshRefusals hP | with_reducible apply kept_showTimed hP
    | with_reducible apply kept_ite | with_reducible apply kept_foldl | with_reducible apply kept_foldl_fst
    | with_reducible apply after_next | with_reducible apply after_ite | dsimp only

/-! ### HartMem -/

theorem kept_noteFault (hP : Closed F P) (s : State) (h : Fin 6) (k : HAcc) (err : Bool) (a : Nat) (n : Nat) (h0 : P
    s) : P (noteFault s h k err a n) := by
  unfold noteFault
  try dsimp only
  repeat' first
    | with_reducible assumption | with_reducible apply kept_deny hP | with_reducible apply kept_putB hP
    | with_reducible apply kept_ite | dsimp only

theorem kept_localStore (hP : Closed F P) (hharts : F .harts) (s : State) (h : Nat) (off : Nat) (b : List Byte) (h0
    : P s) : P (localStore s h off b) := by
  unfold localStore
  try dsimp only
  repeat' first
    | with_reducible assumption | intro _ | with_reducible apply kept_kickHart hP hharts
    | with_reducible apply kept_updHart hP hharts | with_reducible apply kept_ite | with_reducible apply kept_foldl
    | with_reducible apply kept_foldl_fst | dsimp only

theorem kept_winWord (hP : Closed F P) (hcntLatch : F .cntLatch) (s : State) (off : Nat) (h0 : P s) : P (winWord s
    off).1 := by
  unfold winWord
  try dsimp only
  repeat' first
    | with_reducible assumption | with_reducible apply kept_userPage hP hcntLatch | with_reducible apply kept_ite
    | with_reducible apply kept_fst_ite | dsimp only

theorem kept_regWord (hP : Closed F P) (hsnaps : F .snaps) (hmck : F .mck) (hrad : F .rad) (htdc : F .tdc) (hhif : F
    .hif) (hcntLatch : F .cntLatch) (s : State) (h : Fin 6) (off : Nat) (h0 : P s) : P (regWord s h off).1 := by
  unfold regWord
  try dsimp only
  repeat' first
    | with_reducible assumption | with_reducible apply kept_loadWord hP hsnaps hmck hrad htdc hhif hcntLatch
    | dsimp only

theorem kept_wordsLoad (hP : Closed F P) (f : State → Nat → State × Nat) (s : State) (off : Nat) (n : Nat) (h0 : ∀
    y0 y1, P y0 → P (f y0 y1).1) (h1 : P s) : P (wordsLoad f s off n).1 := by
  unfold wordsLoad
  try dsimp only
  repeat' first
    | with_reducible assumption | with_reducible apply h0 | with_reducible apply kept_ite
    | with_reducible apply kept_fst_ite | dsimp only

theorem kept_coreLoad (hP : Closed F P) (hsnaps : F .snaps) (hmck : F .mck) (hrad : F .rad) (htdc : F .tdc) (hhif :
    F .hif) (hcntLatch : F .cntLatch) (s : State) (h : Fin 6) (a : Nat) (n : Nat) (h0 : P s) : P (coreLoad s h a n).1 :=
    by
  unfold coreLoad
  try dsimp only
  repeat' first
    | with_reducible assumption | intro _
    | with_reducible apply kept_regWord hP hsnaps hmck hrad htdc hhif hcntLatch
    | with_reducible apply kept_winWord hP hcntLatch | with_reducible apply kept_wordsLoad hP
    | with_reducible apply kept_foldl | with_reducible apply kept_foldl_fst | split | dsimp only

theorem kept_regStore (hP : Closed F P) (htb : F .tb) (hfab : F .fab) (hsaf : F .saf) (hpwr : F .pwr) (hdsc : F
    .dsc) (hoven : F .oven) (hmck : F .mck) (hrad : F .rad) (hports : F .ports) (hkisl : F .kisl) (hlinks : F .links)
    (hcore : F .core) (htdc : F .tdc) (hpke : F .pke) (hrings : F .rings) (hharts : F .harts) (hage : F .age) (hhif : F
    .hif) (hboot : F .boot) (hcntLatch : F .cntLatch) (hunlock : F .unlock) (s : State) (h : Fin 6) (machine : Bool)
    (off : Nat) (n : Nat) (v : Nat) (env : WriteFacts) (h0 : P s) : P (regStore s h machine off n v env) := by
  unfold regStore
  try dsimp only
  repeat' first
    | with_reducible assumption | with_reducible apply kept_deny hP | with_reducible apply kept_narrowWrite hP
    | with_reducible apply kept_storeWord hP htb hfab hsaf hpwr hdsc hoven hmck hrad hports hkisl hlinks hcore htdc hpke hrings hharts hage hhif hboot hcntLatch hunlock
    | with_reducible apply kept_ite | dsimp only

theorem kept_coreStore (hP : Closed F P) (htb : F .tb) (hfab : F .fab) (hsaf : F .saf) (hpwr : F .pwr) (hdsc : F
    .dsc) (hoven : F .oven) (hmck : F .mck) (hrad : F .rad) (hports : F .ports) (hkisl : F .kisl) (hlinks : F .links)
    (hcore : F .core) (htdc : F .tdc) (hpke : F .pke) (hrings : F .rings) (hharts : F .harts) (hage : F .age) (hhif : F
    .hif) (hboot : F .boot) (hcntLatch : F .cntLatch) (hunlock : F .unlock) (s : State) (h : Fin 6) (machine : Bool) (a
    : Nat) (n : Nat) (v : Nat) (env : WriteFacts) (h0 : P s) : P (coreStore s h machine a n v env) := by
  unfold coreStore
  try dsimp only
  repeat' first
    | with_reducible assumption | with_reducible apply kept_localStore hP hharts
    | with_reducible apply kept_regStore hP htb hfab hsaf hpwr hdsc hoven hmck hrad hports hkisl hlinks hcore htdc hpke hrings hharts hage hhif hboot hcntLatch hunlock
    | with_reducible apply kept_writeCore hP hcore hharts | split | dsimp only

/-! ### Hart -/

theorem kept_takeIrq (hP : Closed F P) (hharts : F .harts) (s : State) (h : Nat) (h0 : P s) : P (takeIrq s h) := by
  unfold takeIrq
  try dsimp only
  repeat' first
    | with_reducible assumption | with_reducible apply kept_updHart hP hharts | split | dsimp only

theorem kept_except (hP : Closed F P) (hharts : F .harts) (s : State) (h : Nat) (cycles : Nat) (cause : Nat) (tval :
    BitVec 64) (h0 : P s) : P (except s h cycles cause tval) := by
  unfold except
  try dsimp only
  repeat' first
    | with_reducible assumption | with_reducible apply kept_updHart hP hharts | dsimp only

theorem kept_exceptFree (hP : Closed F P) (hharts : F .harts) (s : State) (h : Nat) (cycles : Nat) (cause : Nat) (h0
    : P s) : P (exceptFree s h cycles cause) := by
  unfold exceptFree
  try dsimp only
  repeat' first
    | with_reducible assumption | with_reducible apply kept_drawn hP | with_reducible apply kept_except hP hharts
    | dsimp only

theorem kept_accessFault (hP : Closed F P) (hharts : F .harts) (s : State) (h : Fin 6) (cycles : Nat) (k : HAcc)
    (err : Bool) (a : Nat) (n : Nat) (h0 : P s) : P (accessFault s h cycles k err a n) := by
  unfold accessFault
  try dsimp only
  repeat' first
    | with_reducible assumption | with_reducible apply kept_except hP hharts
    | with_reducible apply kept_noteFault hP | split | dsimp only

theorem kept_retire (hP : Closed F P) (hharts : F .harts) (s : State) (h : Nat) (cycles : Nat) (pc : BitVec 64) (f :
    Hart → Hart) (h0 : P s) : P (retire s h cycles pc f) := by
  unfold retire
  try dsimp only
  repeat' first
    | with_reducible assumption | with_reducible apply kept_updHart hP hharts | dsimp only

theorem kept_hartLoad (hP : Closed F P) (hsnaps : F .snaps) (hmck : F .mck) (hrad : F .rad) (htdc : F .tdc) (hharts
    : F .harts) (hhif : F .hif) (hcntLatch : F .cntLatch) (s : State) (c : HartCtx) (n : Nat) (sgn : Bool) (rd : Nat) (a
    : Nat) (h0 : P s) : P (hartLoad s c n sgn rd a) := by
  unfold hartLoad
  try dsimp only
  repeat' first
    | with_reducible assumption | with_reducible apply kept_accessFault hP hharts
    | with_reducible apply kept_coreLoad hP hsnaps hmck hrad htdc hhif hcntLatch
    | with_reducible apply kept_except hP hharts | with_reducible apply kept_retire hP hharts
    | with_reducible apply kept_ite | with_reducible apply kept_fst_ite | dsimp only

theorem kept_hartStore (hP : Closed F P) (htb : F .tb) (hfab : F .fab) (hsaf : F .saf) (hpwr : F .pwr) (hdsc : F
    .dsc) (hoven : F .oven) (hmck : F .mck) (hrad : F .rad) (hports : F .ports) (hkisl : F .kisl) (hlinks : F .links)
    (hcore : F .core) (htdc : F .tdc) (hpke : F .pke) (hrings : F .rings) (hharts : F .harts) (hage : F .age) (hhif : F
    .hif) (hboot : F .boot) (hcntLatch : F .cntLatch) (hunlock : F .unlock) (s : State) (c : HartCtx) (n : Nat) (a :
    Nat) (v : Nat) (h0 : P s) : P (hartStore s c n a v) := by
  unfold hartStore
  try dsimp only
  repeat' first
    | with_reducible assumption | with_reducible apply kept_accessFault hP hharts
    | with_reducible apply kept_coreStore hP htb hfab hsaf hpwr hdsc hoven hmck hrad hports hkisl hlinks hcore htdc hpke hrings hharts hage hhif hboot hcntLatch hunlock
    | with_reducible apply kept_except hP hharts | with_reducible apply kept_retire hP hharts
    | with_reducible apply kept_ite | dsimp only

theorem kept_hartLr (hP : Closed F P) (hharts : F .harts) (s : State) (c : HartCtx) (n : Nat) (rd : Nat) (a : Nat)
    (h0 : P s) : P (hartLr s c n rd a) := by
  unfold hartLr
  try dsimp only
  repeat' first
    | with_reducible assumption | with_reducible apply kept_accessFault hP hharts
    | with_reducible apply kept_except hP hharts | with_reducible apply kept_retire hP hharts
    | with_reducible apply kept_ite | dsimp only

theorem kept_hartSc (hP : Closed F P) (hcore : F .core) (hharts : F .harts) (s : State) (c : HartCtx) (n : Nat) (rd
    : Nat) (a : Nat) (v : Nat) (h0 : P s) : P (hartSc s c n rd a v) := by
  unfold hartSc
  try dsimp only
  repeat' first
    | with_reducible assumption | with_reducible apply kept_accessFault hP hharts
    | with_reducible apply kept_except hP hharts | with_reducible apply kept_retire hP hharts
    | with_reducible apply kept_writeCore hP hcore hharts | with_reducible apply kept_ite | dsimp only

theorem kept_hartAmo (hP : Closed F P) (hcore : F .core) (hharts : F .harts) (s : State) (c : HartCtx) (op : RvAmo)
    (n : Nat) (rd : Nat) (a : Nat) (v : Nat) (h0 : P s) : P (hartAmo s c op n rd a v) := by
  unfold hartAmo
  try dsimp only
  repeat' first
    | with_reducible assumption | with_reducible apply kept_accessFault hP hharts
    | with_reducible apply kept_except hP hharts | with_reducible apply kept_retire hP hharts
    | with_reducible apply kept_writeCore hP hcore hharts | with_reducible apply kept_ite | dsimp only

theorem kept_hartCsr (hP : Closed F P) (hharts : F .harts) (s : State) (c : HartCtx) (op : RvCsr) (rd : Nat) (imm :
    Bool) (src : Nat) (n : Nat) (h0 : P s) : P (hartCsr s c op rd imm src n) := by
  unfold hartCsr
  try dsimp only
  repeat' first
    | with_reducible assumption | with_reducible apply kept_exceptFree hP hharts
    | with_reducible apply kept_retire hP hharts | with_reducible apply kept_ite | split | dsimp only

theorem kept_runRv (hP : Closed F P) (hsnaps : F .snaps) (htb : F .tb) (hfab : F .fab) (hsaf : F .saf) (hpwr : F
    .pwr) (hdsc : F .dsc) (hoven : F .oven) (hmck : F .mck) (hrad : F .rad) (hports : F .ports) (hkisl : F .kisl)
    (hlinks : F .links) (hcore : F .core) (htdc : F .tdc) (hpke : F .pke) (hrings : F .rings) (hharts : F .harts) (hage
    : F .age) (hhif : F .hif) (hboot : F .boot) (hcntLatch : F .cntLatch) (hunlock : F .unlock) (s : State) (c :
    HartCtx) (i : Rv) (h0 : P s) : P (runRv s c i) := by
  unfold runRv
  try dsimp only
  repeat' first
    | with_reducible assumption | with_reducible apply kept_except hP hharts
    | with_reducible apply kept_exceptFree hP hharts | with_reducible apply kept_hartAmo hP hcore hharts
    | with_reducible apply kept_hartCsr hP hharts
    | with_reducible apply kept_hartLoad hP hsnaps hmck hrad htdc hharts hhif hcntLatch
    | with_reducible apply kept_hartLr hP hharts | with_reducible apply kept_hartSc hP hcore hharts
    | with_reducible apply kept_hartStore hP htb hfab hsaf hpwr hdsc hoven hmck hrad hports hkisl hlinks hcore htdc hpke hrings hharts hage hhif hboot hcntLatch hunlock
    | with_reducible apply kept_retire hP hharts | with_reducible apply kept_ite | split | dsimp only

theorem kept_execHartInstruction (hP : Closed F P) (hsnaps : F .snaps) (htb : F .tb) (hfab : F .fab) (hsaf : F .saf)
    (hpwr : F .pwr) (hdsc : F .dsc) (hoven : F .oven) (hmck : F .mck) (hrad : F .rad) (hports : F .ports) (hkisl : F
    .kisl) (hlinks : F .links) (hcore : F .core) (htdc : F .tdc) (hpke : F .pke) (hrings : F .rings) (hharts : F .harts)
    (hage : F .age) (hhif : F .hif) (hboot : F .boot) (hcntLatch : F .cntLatch) (hunlock : F .unlock) (h : Fin 6)
    (cycles : Nat) (readErr : Bool) (env : WriteFacts) (s : State) (h0 : P s) : After P (execHartInstruction h cycles
    readErr env s) := by
  unfold execHartInstruction
  try dsimp only
  repeat' first
    | with_reducible assumption | with_reducible apply kept_accessFault hP hharts
    | with_reducible apply kept_quiet hP hlinks hhif
    | with_reducible apply kept_runRv hP hsnaps htb hfab hsaf hpwr hdsc hoven hmck hrad hports hkisl hlinks hcore htdc hpke hrings hharts hage hhif hboot hcntLatch hunlock
    | with_reducible apply kept_takeIrq hP hharts | with_reducible apply kept_ite | with_reducible apply after_next
    | with_reducible apply after_ite | split | dsimp only

/-! ### Ring -/

theorem kept_portCalDone (hP : Closed F P) (hports : F .ports) (hage : F .age) (s : State) (d : Nat) (i : Nat) (ser
    : Nat) (h0 : P s) : P (portCalDone s d i ser) := by
  unfold portCalDone
  try dsimp only
  repeat' first
    | with_reducible assumption | with_reducible apply kept_calDone hP hports
    | with_reducible apply kept_reviewCalDone hP hports hage | dsimp only

theorem kept_execTsuCalDone (hP : Closed F P) (hports : F .ports) (hage : F .age) (d : Fin 4) (i : Fin 8) (ser :
    Nat) (s : State) (h0 : P s) : After P (execTsuCalDone d i ser s) := by
  unfold execTsuCalDone
  try dsimp only
  repeat' first
    | with_reducible assumption | with_reducible apply kept_portCalDone hP hports hage
    | with_reducible apply after_next | dsimp only

theorem kept_execRingDoneCmd (hP : Closed F P) (hports : F .ports) (hlinks : F .links) (hage : F .age) (lane :
    Option (Fin 36)) (ps : Nat) (s : State) (h0 : P s) : After P (execRingDoneCmd lane ps s) := by
  unfold execRingDoneCmd
  try dsimp only
  repeat' first
    | with_reducible assumption | with_reducible apply kept_askCalDone hP hlinks
    | with_reducible apply kept_portCalDone hP hports hage | with_reducible apply kept_ringSoft hP
    | with_reducible apply kept_ite | with_reducible apply after_next | with_reducible apply after_ite | split
    | dsimp only

/-! ### Scale -/

theorem kept_execTimescaleStep (hP : Closed F P) (hclk : F .clk) (htb : F .tb) (hdsc : F .dsc) (hmck : F .mck) (s :
    State) (h0 : P s) : After P (execTimescaleStep s) := by
  unfold execTimescaleStep
  try dsimp only
  repeat' first
    | with_reducible assumption | with_reducible apply kept_applyStep hP hclk htb
    | with_reducible apply kept_dscStep hP hdsc | with_reducible apply kept_mckStep hP hmck
    | with_reducible apply kept_refreshGates hP hmck | with_reducible apply kept_ite
    | with_reducible apply after_next | with_reducible apply after_ite | dsimp only

theorem kept_execTaiSecond (hP : Closed F P) (hclk : F .clk) (hports : F .ports) (s : State) (h0 : P s) : After P
    (execTaiSecond s) := by
  unfold execTaiSecond
  try dsimp only
  repeat' first
    | with_reducible assumption | intro _ | with_reducible apply kept_tickSecond hP hclk
    | with_reducible apply kept_trimsTake hP hports | with_reducible apply kept_foldl
    | with_reducible apply kept_foldl_fst | with_reducible apply after_next | dsimp only

end Sys2Proof.Machine
end

