-- ==== Sys2Proof/Laws/Lists.lean ====
section
/-! SUPPORT. Elements of the fixed collections: what each is after one of them changes, where the collections have their
sizes (Shaped). -/

namespace Sys2Proof.Machine

theorem ix_upd_same {α : Type} (l : List α) (i : Nat) (f : α → α) (d : α) (h : i < l.length) :
    ix (upd l i f) i d = f (ix l i d) := by
  simp only [ix, upd, List.getD_eq_getElem?_getD, List.getElem?_modify_eq, List.getElem?_eq_getElem h, Option.map_eq_map,
    Option.map_some, Option.getD_some]

theorem ix_upd_ne {α : Type} (l : List α) (i j : Nat) (f : α → α) (d : α) (h : i ≠ j) : ix (upd l i f) j d = ix l j d := by
  simp only [ix, upd, List.getD_eq_getElem?_getD, List.getElem?_modify_ne _ _ h]

theorem ix_set_same {α : Type} (l : List α) (i : Nat) (a d : α) (h : i < l.length) : ix (l.set i a) i d = a := by
  simp only [ix, List.getD_eq_getElem?_getD, List.getElem?_set_self h, Option.getD_some]

theorem ix_set_ne {α : Type} (l : List α) (i j : Nat) (a d : α) (h : i ≠ j) : ix (l.set i a) j d = ix l j d := by
  simp only [ix, List.getD_eq_getElem?_getD, List.getElem?_set_ne h]

theorem Shaped.ports_length {s : State} (h : Shaped s) : s.ports.length = 4 := by
  have := congrArg List.length h.ports
  simpa using this

theorem Shaped.links_length {s : State} (h : Shaped s) : s.links.length = 4 := by
  have := congrArg List.length h.links
  simpa using this

theorem Shaped.die_ports {s : State} (h : Shaped s) {d : Nat} (hd : d < 4) : (pd s d).ports.length = 8 := by
  have hl : d < s.ports.length := by rw [h.ports_length]; exact hd
  have h1 : (s.ports.map fun x => x.ports.length)[d]'(by simpa using hl) = 8 := by
    simp only [h.ports, List.getElem_replicate]
  simp only [pd, ix, List.getD_eq_getElem?_getD, List.getElem?_eq_getElem hl, Option.getD_some]
  simpa using h1

theorem Shaped.link_peers {s : State} (h : Shaped s) {k : Nat} (hk : k < 4) :
    (ix s.links k AskLink.cold).peers.length = 4 := by
  have hl : k < s.links.length := by rw [h.links_length]; exact hk
  have h1 : (s.links.map fun x => x.peers.length)[k]'(by simpa using hl) = 4 := by
    simp only [h.links, List.getElem_replicate]
  simp only [ix, List.getD_eq_getElem?_getD, List.getElem?_eq_getElem hl, Option.getD_some]
  simpa using h1

/-! ### Ports, links, lanes, rings, harts, slots and outputs -/

theorem pd_updPd_same {s : State} (h : Shaped s) {d : Nat} (hd : d < 4) (f : PortDie → PortDie) :
    pd (updPd s d f) d = f (pd s d) := by
  simp only [pd, updPd]
  exact ix_upd_same _ _ _ _ (by rw [h.ports_length]; exact hd)

theorem pd_updPd_ne (s : State) {d e : Nat} (h : d ≠ e) (f : PortDie → PortDie) : pd (updPd s d f) e = pd s e := by
  simp only [pd, updPd]
  exact ix_upd_ne _ _ _ _ _ h

theorem port_updPort_same {s : State} (h : Shaped s) {d i : Nat} (hd : d < 4) (hi : i < 8) (f : Port → Port) :
    port (updPort s d i f) d i = f (port s d i) := by
  simp only [port, updPort, pd_updPd_same h hd]
  exact ix_upd_same _ _ _ _ (by rw [h.die_ports hd]; exact hi)

end Sys2Proof.Machine
end

