-- ==== Sys2Proof/Tests/Slice0.lean ====
section
/-! SUPPORT. Tests: each check of WellFormed refuses an ill-formed command, small steps on states near reset, and for
every statement with hypotheses a state and operands that meet them. -/

namespace Sys2Proof.Tests

open Sys2Proof Sys2Proof.Machine

set_option Elab.async false

/-! ### Helpers -/

/-- The state after reset. -/
def rs : State := State.reset

/-- Registers of a state replaced. -/
def rg (l : List (Pg × Nat × Nat)) (s : State) : State :=
  l.foldl (fun s e => { s with regs := amSet (e.1.adr e.2.1) (BitVec.ofNat 32 e.2.2) s.regs }) s

/-- Fields of a state replaced. -/
def fl (l : List (Pg × Fld × Nat)) (s : State) : State :=
  l.foldl (fun s e => rg [(e.1, e.2.1.off, e.2.1.into (rdN s e.1 e.2.1.off) e.2.2)] s) s

/-- A write that brings no facts of the environment. -/
def noFacts : WriteFacts := ⟨false, [], []⟩

/-- Port 5 of Port die 2 calibrated and up, its die's replica locked and its view set. -/
def rdy : State :=
  updPd { rg [(pHubDie, rDIE_DEV_FEAT_ACK 0, 0xFFFFFFFF)] (fl [(pHubDie, fDIE_FEAT_CTRL_COMMITTED, 1),
      (pLCH 2, fPAGE_CTRL_EN, 1), (pTSU 2 5, fPAGE_CTRL_EN, 1), (pTSU 2 5, fTSU_STAT_CAL_OK, 1),
      (pMAC 2 5, fPAGE_CTRL_EN, 1), (pMAC 2 5, fMAC_CFG_MODE, 2), (pMAC 2 5, fMAC_STAT_LINK, 1),
      (pPTE 2, fPAGE_CTRL_EN, 1), (pTBL 2, fPAGE_CTRL_EN, 1), (pANS 2, fPAGE_CTRL_EN, 1)] rs) with
    clk := ⟨0xF, 0, 0⟩
    tb := { rs.tb with replicas := upd rs.tb.replicas 4 fun x => { x with locked := true } } } 2 fun x =>
  { x with safe := false, view := some ({ rs.dsc.view with timeSet := true, utc := 0x80000025 }, 0) }

/-- Port die 2 with a master instance. -/
def inst21 (w : State) : State := updPd w 2 fun x => { x with ptp := { x.ptp with insts := [(21, [0x81, 0, 0, 0])] } }

/-- Port die 2 receiving from port 5. -/
def ref0 (w : State) : State := fl [(pPTE 2, fPTE_RX_CFG_EN 0, 1), (pPTE 2, fPTE_RX_CFG_PORT 0, 5)] w

/-- A foreign master. -/
def fm : Foreign := ⟨7, [1, 2, 3, 4, 5, 6], 0, 0x80000, 5, true, 8, 9⟩

/-- A unicast session with a grant of Announce. -/
def ses21 : Session := ⟨false, false, true, 1, 5, 0, 5, 6, 0, 1, 2, 3, ⟨true, 0, 60, 900⟩, Grant.none, Grant.none, 0, 0, 0⟩

/-- The sizes of a state's collections, as a test. -/
def shapedB (s : State) : Bool :=
  s.snapTbe.length == 7 && s.snapLtr.map List.length == List.replicate 4 7 && s.tb.replicas.length == 6 &&
    s.recd.bufs.length == 14 && s.dsc.slots.length == 6 && (s.mck.outs.length == 14 && s.mck.caps.length == 8 &&
    s.mck.cueLvl.length == 8 && s.mck.cueFall.length == 8 && s.mck.todSeq.length == 2 && s.mck.todAt.length == 2 &&
    s.mck.todMsg.length == 2) && s.ports.map (fun d => d.ports.length) == List.replicate 4 8 &&
    s.links.map (fun l => l.peers.length) == List.replicate 4 4 && s.pke.lanes.length == 16 && s.rings.length == 16 &&
    s.harts.length == 6

/-- A state that passes the test has its sizes. -/
theorem shaped_of {s : State} (h : shapedB s = true) : Shaped s := by
  simp only [shapedB, Bool.and_eq_true, beq_iff_eq] at h
  obtain ⟨⟨⟨⟨⟨⟨⟨⟨⟨⟨h1, h2⟩, h3⟩, h4⟩, h5⟩, ⟨⟨⟨⟨⟨⟨m1, m2⟩, m3⟩, m4⟩, m5⟩, m6⟩, m7⟩⟩, h6⟩, h7⟩, h8⟩, h9⟩, h10⟩ := h
  exact ⟨h1, h2, h3, h4, h5, ⟨m1, m2, m3, m4, m5, m6, m7⟩, h6, h7, h8, h9, h10⟩

/-! ### Ill-formed commands are refused (R6, R13, R17, R27, R149, R157, R353, R398, R411) -/

theorem test_misaligned_write_ill_formed : (Instr.regWrite .host 0x10002 .b32 0 noFacts).wellFormed = false := by decide

theorem test_write_outside_bar0_ill_formed : (Instr.regWrite .host 0x10000000 .b32 0 noFacts).wellFormed = false := by
  decide

theorem test_five_crc_failures_ill_formed : (Instr.blvTransfer 0 [(1, .ctrl)] false 5 0).wellFormed = false := by decide

theorem test_seven_islands_ill_formed :
    (Instr.islMonitorJudge 4 (List.replicate 7 800) (List.replicate 8 40) [] 0 0).wellFormed = false := by decide

theorem test_nine_words_ill_formed :
    (Instr.navSubframe 0 0 false true (List.replicate 9 (0, true))).wellFormed = false := by decide

theorem test_wide_word_ill_formed :
    (Instr.navSubframe 0 0 false true (List.replicate 10 (0x40000000, true))).wellFormed = false := by decide

theorem test_prn_64_ill_formed : (Instr.exclExpire 0 64).wellFormed = false := by decide

theorem test_instance_256_ill_formed : (Instr.pmcCount 4 1 [⟨0, [(256, 1)]⟩]).wellFormed = false := by decide

theorem test_short_step_frame_ill_formed : (Instr.stepRx 0 true (List.replicate 19 0)).wellFormed = false := by decide

theorem test_short_agree_frame_ill_formed : (Instr.agreeRx 0 0 true (List.replicate 31 0)).wellFormed = false := by decide

theorem test_long_check_frame_ill_formed : (Instr.keyCheckRx 0 0 true (List.replicate 17 0)).wellFormed = false := by decide

theorem test_long_message_ill_formed : (Instr.mbRx 0 0 true (List.replicate 257 0)).wellFormed = false := by decide +kernel

theorem test_nine_canaries_ill_formed : (Instr.canary 4 (List.replicate 9 (0, 0, 0))).wellFormed = false := by decide

theorem test_aligned_write_well_formed : (Instr.regWrite .host 0x10004 .b32 0 noFacts).wellFormed = true := by decide

/-! ### Small steps -/

/-- What a test asks of the state that a command leaves. -/
def leaves (o : Host.Outcome State Fault Refusal) (q : State → Bool) : Bool :=
  match o with
  | .next t => q t
  | _ => false

/-- After reset a COLD reset's state is left by the release (R450, R338). -/
theorem test_reset_is_cold_released : Machine.execResetRelease State.cold = .next State.reset := by rfl

/-- A cycle of 1.6 GHz is 0.625 ns, 40,960 units of 2⁻¹⁶ ns (R46). -/
theorem test_idle_cycle_adds_rate : leaves (step rs) (fun t => t.clk.p == 40960) = true := by decide +kernel

/-- A step takes the front command and leaves the rest (the queue is first in, first out). -/
theorem test_step_takes_front : leaves (step { rs with pending := [.tapInstruction none, .escalate] })
    (fun t => t.pending == [.escalate] && t.tap == 2) = true := by decide +kernel

/-- R27: a 16-bit write is discarded and counted in DIE.BAD_ACC_CNT. -/
theorem test_narrow_write_counted : leaves (exec (.regWrite .host 0x2010008 .b16 0xFFFF noFacts) rs)
    (fun t => rdN t (pDIE 1) rDIE_BAD_ACC_CNT == 1) = true := by decide +kernel

/-- R34: INT_FORCE sets the bits written 1. -/
theorem test_int_force_sets : leaves (exec (.intForce .host 1 0x10 0x5) rs)
    (fun t => intRaw t pTBE 0 && intRaw t pTBE 2 && !intRaw t pTBE 1) = true := by decide +kernel

/-- Only what lies above BAR0 faults (R3). -/
theorem test_write_outside_bar0_faults :
    exec (.regWrite .host 0x10000000 .b32 0 noFacts) rs = .fault (.outsideBar0 0x10000000) := by rfl

/-- R484: 0x7E57 and then 0x0A11 unlock a page where TEST_EN was sampled as 1. -/
theorem test_unlock_second_value : leaves (exec (.tstUnlock .host 4 0x0A11)
      { rs with straps := ⟨0, false, true⟩, unlock := [(4, (reqCode .host, 0))] })
    (fun t => flag t (pTST 4) fTST_STAT_UNLOCKED) = true := by decide +kernel

/-- R484: without TEST_EN the sequence is counted in DIE.LOCK_VIOL_CNT. -/
theorem test_unlock_without_test_en : leaves (exec (.tstUnlock .host 4 0x0A11)
      { rs with unlock := [(4, (reqCode .host, 0))] })
    (fun t => !flag t (pTST 4) fTST_STAT_UNLOCKED && rdN t (pDIE 4) rDIE_LOCK_VIOL_CNT == 1) = true := by decide +kernel

/-- R494: every unlisted code is BYPASS. -/
theorem test_unlisted_code_is_bypass : leaves (exec (.tapInstruction (some 3)) rs) (fun t => t.tap == 0xFF) = true := by
  decide +kernel

/-- R444: VIGIL with WAKE_CFG 0 is refused with ERR 3. -/
theorem test_vigil_without_wake_refused : leaves (exec (.pwrRequest .host 0x80000002 false) (rg [(pHubDie, rDIE_WAKE_CFG, 0)] rs))
    (fun t => get t pHubDie fDIE_PWR_STAT_ERR == 3 && intRaw t pHubDie 1 && t.pwr.entering == none) = true := by
  decide +kernel

/-- R432: DHCP backs off from 4 s to 8 s. -/
theorem test_dhcp_backs_off : leaves (exec (.netbootRetry false)
      { rs with boot := { rs.boot with phase := .trying, srcs := [2], dhcp := 4 } })
    (fun t => t.boot.dhcp == 8 && t.boot.netAt == 4000000000) = true := by decide +kernel

/-- R430: an image without MAGIC fails check 1. -/
theorem test_image_without_magic : leaves (exec (.imageCheck [0, 0, 0, 0] true)
      { rs with boot := { rs.boot with phase := .trying, srcs := [1, 2] } })
    (fun t => get t pBOOT ⟨rBOOT_TRY_LOG, 4, 4⟩ == 1 && t.boot.srcs == [2]) = true := by decide +kernel

/-- R420: a hart's doorbell stores its message with the hart's number and sets INT_RAW[16]. -/
theorem test_hart_doorbell : leaves (exec (.hdb (.hart 1) 0xABCDEF) rs)
    (fun t => get t pHIF fHIF_HDB_MSG == 0xABCDEF && get t pHIF fHIF_HDB_HART == 1 && intRaw t pHIF 16) = true := by
  decide +kernel

/-- ADDI x1, x0, 5 (0x00500093): bits 31–20 the immediate, 11–7 the destination. -/
theorem test_hart_addi : leaves (exec (.hartInstruction 0 1 false noFacts)
      (updHart { rs with core := [(0x10000000, 0x93), (0x10000002, 0x50)] } 0 fun x => { x with pc := 0x10000000 }))
    (fun t => getX (hart t 0) 1 == 5 && (hart t 0).pc == 0x10000004) = true := by decide +kernel

/-- ECALL (0x00000073) in machine mode traps with cause 11 to mtvec. -/
theorem test_hart_ecall : leaves (exec (.hartInstruction 0 1 false noFacts)
      (updHart { rs with core := [(0x10000000, 0x73)] } 0 fun x => { x with pc := 0x10000000, mtvec := 0x10000100 }))
    (fun t => (hart t 0).mcause == 11 && (hart t 0).mepc == 0x10000000 && (hart t 0).pc == 0x10000100) = true := by
  decide +kernel

/-- At a leap insertion the offset 37 becomes 38 and VALID of the schedule falls (R55). -/
theorem test_leap_insertion : leaves (exec .leapApplied
      (fl [(pTBE, fTBE_LEAP_SCHED_HI_VALID, 1), (pTBE, fTBE_UTC_OFFSET_SEC, 37)] rs))
    (fun t => get t pTBE fTBE_UTC_OFFSET_SEC == 38 && !flag t pTBE fTBE_LEAP_SCHED_HI_VALID) = true := by decide +kernel

/-! ### The algorithms that the spec names, at the vectors of their standards -/

/-- FIPS 197, appendix C.1. -/
theorem test_aes128 : aesBlock ((List.range 16).map fun n => BitVec.ofNat 8 n) 0x00112233445566778899AABBCCDDEEFF =
    0x69C4E0D86A7B0430D8CDB78070B4C55A := by decide +kernel

/-- FIPS 180-4: SHA-256 of "abc". -/
theorem test_sha256_abc : sha256 [0x61, 0x62, 0x63] =
    0xBA7816BF8F01CFEA414140DE5DAE2223B00361A396177A9CB410FF61F20015AD := by decide +kernel

/-! ### Witnesses of the statements' hypotheses -/

theorem canon_rs : Canon rs := ⟨by decide +kernel, by decide +kernel⟩

theorem witness_EmptyQueueRunsClock :
    (∃ s : State, s.pending = [] ∧ (∀ h ∈ s.pwr.held, h.1 ≠ 0)) ∧ (∃ s : State, s.pending = [] ∧ (∃ h ∈ s.pwr.held, h.1 = 0)) ∧
    (∃ (c : Instr) (s t : State), exec c s = .next t) :=
  ⟨⟨rs, by decide +kernel⟩, ⟨{ rs with pwr := { rs.pwr with held := [(0, 0, 0, 1)] } }, by decide +kernel⟩,
    .tapInstruction none, rs, { rs with tap := 2 }, rfl⟩

theorem witness_StepKeepsInvariant : ∃ s t : State, Canon s ∧ Shaped s ∧ step s = .next t :=
  ⟨rs, idleCycle rs, canon_rs, shaped_of (by decide +kernel), rfl⟩

theorem witness_PoweredOffAccess :
    (∃ (die : Fin 8) (page : Fin 0x2000) (s : State), (pageKind ⟨die, page⟩).isSome = true ∧ pageOn s ⟨die, page⟩ =
      false) ∧
    (∃ (die : Fin 8) (page : Fin 0x2000) (s : State), (pageKind ⟨die, page⟩).isSome = true ∧ pageOn s ⟨die, page⟩ =
      false) :=
  ⟨⟨4, 0x10, { rs with pwr := { rs.pwr with on := 0 } }, by decide +kernel⟩,
   ⟨7, 0x10, { rs with pwr := { rs.pwr with on := 0 } }, by decide +kernel⟩⟩

theorem witness_AccessesTurnedAway :
    (∃ (die : Fin 8) (page : Fin 0x2000), pageKind ⟨die, page⟩ = none ∧ die.val ≠ 3) ∧
    (∃ (die : Fin 8) (page : Fin 0x2000) (s : State), (pageKind ⟨die, page⟩).isSome = true ∧ pageOn s ⟨die, page⟩ =
      true ∧ pageRetained s ⟨die, page⟩ = true) ∧
    (∃ (h : Fin 6) (die : Fin 8) (page : Fin 0x2000) (s : State), 2 ≤ h.val ∧ readable s ⟨die, page⟩ = true ∧
      pageRetained s ⟨die, page⟩ = false ∧ (⟨die, page⟩ : Pg) ≠ pCPU ∧ ((pageKind ⟨die, page⟩ = some .saf ∨ pageKind
      ⟨die, page⟩ = some .boot ∨ pageKind ⟨die, page⟩ = some .tst ∨ bitOf (get s pCPU (fCPU_APP_WR_DIE (h.val - 2)))
      die = false))) :=
  ⟨⟨7, 0x1FFF, by decide +kernel⟩,
   ⟨4, 0x10, { rs with pwr := { rs.pwr with ret := 0x7FFF } }, by decide +kernel⟩,
   ⟨5, 7, 0xF0, fl [(pCPU, fCPU_APP_WR_DIE 3, 0xFF)] rs, by decide +kernel⟩⟩

theorem witness_RegisterWrite :
    (∃ (adr : Nat), 0x10000000 ≤ adr) ∧
    (∃ (adr : Nat), adr < 0x10000000 ∧ adr % 4 ≠ 0) ∧
    (∃ (adr : Nat), adr < 0x10000000 ∧ adr % 8 ≠ 0) ∧
    (∃ (adr : Nat), adr < 0x10000000 ∧ adr % 4 = 0) ∧
    (∃ (adr : Nat), adr < 0x10000000 ∧ adr % 8 = 0) ∧
    (∃ (r : Requester) (die : Fin 8) (page : Fin 0x2000) (size : AccSize) (s : State), (size = .b8 ∨ size = .b16) ∧
      writable s r ⟨die, page⟩ = true) ∧
    (∃ (r : Requester) (die : Fin 8) (page : Fin 0x2000) (s : State), writable s r ⟨die, page⟩ = true) ∧
    (∃ (r : Requester) (die : Fin 8) (page : Fin 0x2000) (s : State), writable s r ⟨die, page⟩ = true) ∧
    (∃ (r : Requester) (die : Fin 8) (page : Fin 0x2000) (s : State), writable s r ⟨die, page⟩ = true ∧ pageLocked s
      ⟨die, page⟩ = true) :=
  ⟨⟨0x10000000, by decide +kernel⟩,
   ⟨0xFFFFFFF, by decide +kernel⟩,
   ⟨0xFFFFFFC, by decide +kernel⟩,
   ⟨0xFFFFFFC, by decide +kernel⟩,
   ⟨0xFFFFFF8, by decide +kernel⟩,
   ⟨.host, 1, 0x10, .b16, rs, by decide +kernel⟩,
   ⟨.host, 1, 0x10, rs, by decide +kernel⟩,
   ⟨.host, 1, 0x10, rg [(⟨1, 0x10⟩, rINT_RAW, 0x80000003)] rs, by decide +kernel⟩,
   ⟨.host, 1, 0x10, fl [(⟨1, 0x10⟩, fPAGE_CTRL_LOCK, 1)] rs, by decide +kernel⟩⟩

theorem witness_PageHeaderCommands :
    (∃ (r : Requester) (die : Fin 8) (page : Fin 0x2000) (k : PageKind) (s : State), writable s r ⟨die, page⟩ = true ∧
      pageKind ⟨die, page⟩ = some k ∧ (flag s pHubDie fDIE_FEAT_CTRL_COMMITTED = true ∨ bootEnabled k = true)) ∧
    (∃ (r : Requester) (die : Fin 8) (page : Fin 0x2000) (k : PageKind) (s : State), writable s r ⟨die, page⟩ = true ∧
      pageKind ⟨die, page⟩ = some k ∧ flag s pHubDie fDIE_FEAT_CTRL_COMMITTED = false ∧ bootEnabled k = false) ∧
    (∃ (r : Requester) (die : Fin 8) (page : Fin 0x2000) (s : State), writable s r ⟨die, page⟩ = true) ∧
    (∃ (r : Requester) (die : Fin 8) (page : Fin 0x2000) (s : State), writable s r ⟨die, page⟩ = true ∧ flag s ⟨die,
      page⟩ fPAGE_CTRL_SRST = false) ∧
    (∃ (die : Fin 8) (page : Fin 0x2000) (s : State), flag s ⟨die, page⟩ fPAGE_CTRL_SRST = true) ∧
    (∃ (r : Requester) (die : Fin 8) (page : Fin 0x2000) (s : State), writable s r ⟨die, page⟩ = true) ∧
    (∃ (r : Requester) (die : Fin 8) (page : Fin 0x2000) (s : State), writable s r ⟨die, page⟩ = true) :=
  ⟨⟨.host, 1, 0x20, .dsc, fl [(pHubDie, fDIE_FEAT_CTRL_COMMITTED, 1)] rs, by decide +kernel⟩,
   ⟨.host, 1, 0x20, .dsc, rs, by decide +kernel⟩,
   ⟨.host, 1, 0x10, rs, by decide +kernel⟩,
   ⟨.host, 1, 0x10, rs, by decide +kernel⟩,
   ⟨1, 0x10, fl [(⟨1, 0x10⟩, fPAGE_CTRL_SRST, 1)] rs, by decide +kernel⟩,
   ⟨.host, 1, 0x10, rs, by decide +kernel⟩,
   ⟨.host, 1, 0x10, rs, by decide +kernel⟩⟩

theorem witness_FabricCommands :
    (∃ (r : Requester) (s : State), writable s r pHubDie = true ∧ flag s pHubDie fDIE_FEAT_CTRL_COMMITTED = false) ∧
    (∃ (r : Requester) (s : State), writable s r pHubDie = true ∧ flag s pHubDie fDIE_FEAT_CTRL_COMMITTED = true) ∧
    (∃ (s : State), flag s pHubDie fDIE_FEAT_CTRL_COMMIT = true) ∧
    (∃ (die : Fin 8) (s : State), dieHasRegs die = true ∧ doubtMsg s die ≠ lastDoubtMsg s die) ∧
    (∃ (die : Fin 8), dieHasRegs die = true) ∧
    (∃ (src : Fin 8) (fails : Nat), fails < 4 ∧ src.val ≠ 3) ∧
    (∃ (src : Fin 8), src.val ≠ 3) ∧
    (∃ (die isl : Fin 8), dieHasRegs die = true ∧ isl.val < islCount die) ∧
    (∃ (die : Fin 8), dieHasRegs die = true) :=
  ⟨⟨.host, rs, by decide +kernel⟩,
   ⟨.host, fl [(pHubDie, fDIE_FEAT_CTRL_COMMITTED, 1)] rs, by decide +kernel⟩,
   ⟨fl [(pHubDie, fDIE_FEAT_CTRL_COMMIT, 1)] rs, by decide +kernel⟩,
   ⟨7, rg [(pISL 7, rDOUBT_RAW, 4), (pISL 7, rDOUBT_EN, 4)] rs, by decide +kernel⟩,
   ⟨7, by decide +kernel⟩,
   ⟨7, 3, by decide +kernel⟩,
   ⟨7, by decide +kernel⟩,
   ⟨7, 0, by decide +kernel⟩,
   ⟨1, by decide +kernel⟩⟩

theorem witness_UtcAndLeap :
    (∃ (r : Requester) (s : State), writable s r pTBE = true ∧ utcSrcLink s = false) ∧
    (∃ (r : Requester) (s : State), writable s r pTBE = true ∧ utcSrcLink s = true) ∧
    (∃ (r : Requester) (s : State), writable s r pTBE = true ∧ utcSrcLink s = false) ∧
    (∃ (s : State), leapValid s = true) ∧
    (∃ (s : State), leapValid s = true ∧ s.tb.smearOn = false ∧ t96 s ≤ smearFrom (leapSec s) (leapDel s) * secU ∧
      (feat s 2 && flag s pTBE fTBE_SMEAR_EN) = true) ∧
    (∃ (s : State), s.tb.smearOn = true) :=
  ⟨⟨.host, rs, by decide +kernel⟩,
   ⟨.host, fl [(pTBE, fTBE_CFG_UTC_SRC, 1)] rs, by decide +kernel⟩,
   ⟨.host, rs, by decide +kernel⟩,
   ⟨fl [(pTBE, fTBE_LEAP_SCHED_HI_VALID, 1), (pTBE, fTBE_UTC_OFFSET_SEC, 37)] rs, by decide +kernel⟩,
   ⟨rg [(pHubDie, rDIE_DEV_FEAT_ACK 0, 4), (pTBE, rTBE_LEAP_SCHED, 100000)] (fl [(pTBE, fTBE_LEAP_SCHED_HI_VALID, 1),
     (pTBE, fTBE_SMEAR_EN, 1), (pHubDie, fDIE_FEAT_CTRL_COMMITTED, 1)] rs), by decide +kernel⟩,
   ⟨{ rs with tb := { rs.tb with smearOn := true } }, by decide +kernel⟩⟩

theorem witness_TimescaleSteps :
    (∃ (r : Requester) (v : Word) (s : State), writable s r pTBE = true ∧ v.getLsbD 0 = true ∧ stepPending s = false ∧
      flag s pTBE fTBE_CFG_SW_STEP_EN = true ∧ servoLetsStep s = true ∧ (fTBE_STEP_CTRL_MODE.of v.toNat = 1 ∨ timeSet
      s = true) ∧ get s pTBE fTBE_STEP_NS_NS ≤ 999999999) ∧
    (∃ (r : Requester) (v : Word) (s : State), writable s r pTBE = true ∧ v.getLsbD 0 = true ∧ (stepPending s = true ∨
      flag s pTBE fTBE_CFG_SW_STEP_EN = false ∨ servoLetsStep s = false ∨ (fTBE_STEP_CTRL_MODE.of v.toNat = 0 ∧
      timeSet s = false))) ∧
    (∃ (s : State), stepPending s = true) ∧
    (∃ (s : State), doubts s pTBE 1 = true) :=
  ⟨⟨.host, 3#32, fl [(pTBE, fTBE_CFG_SW_STEP_EN, 1)] rs, by decide +kernel⟩,
   ⟨.host, 1#32, fl [(pTBE, fTBE_CFG_SW_STEP_EN, 0)] rs, by decide +kernel⟩,
   ⟨fl [(pTBE, fTBE_STEP_CTRL_PEND, 1), (pTBE, fTBE_STEP_NS_NS, 77)] rs, by decide +kernel⟩,
   ⟨rg [(pTBE, rDOUBT_RAW, 2)] rs, by decide +kernel⟩⟩

theorem witness_TwoMissesRaiseTlaneFault :
    (∃ (lane : Fin 6) (s : State), 2 ≤ (replica s lane).miss) ∧
    (∃ (s : State), Shaped s ∧ get s pHubDie fDIE_PWR_STAT_STATE ≠ 3) :=
  ⟨⟨2, { rs with tb := { rs.tb with replicas := upd rs.tb.replicas 2 fun x => { x with miss := 2 } } },
    by decide +kernel⟩,
   ⟨rs, shaped_of (by decide +kernel), by decide +kernel⟩⟩

theorem witness_SnapshotsAndLanes :
    (∃ (s : State), readable s pTBE = true) ∧
    (∃ (d : Fin 4) (die : Fin 8) (s : State), die.val = 4 + d.val ∧ readable s (pLTR d) = true ∧ (replica s (2 +
      d)).ofs = 0) ∧
    (∃ (s : State), Shaped s ∧ get s pHubDie fDIE_PWR_STAT_STATE ≠ 3) :=
  ⟨⟨rs, by decide +kernel⟩,
   ⟨3, 7, rs, by decide +kernel⟩,
   ⟨rs, shaped_of (by decide +kernel), by decide +kernel⟩⟩

theorem witness_PortLinks :
    (∃ (d : Fin 4) (i : Fin 8) (s : State), pageOn s (pMAC d i) = true ∧ portMode s d i ≠ 0 ∧ flag s (pMAC d i)
      fMAC_STAT_LINK = false ∧ pllDown s d i = false) ∧
    (∃ (d : Fin 4) (i : Fin 8) (s : State), Shaped s ∧ linkUp s d i = true) ∧
    (∃ (d : Fin 4) (i : Fin 8) (s : State), pageOn s (pMAC d i) = true ∧ portMode s d i ≠ 0) ∧
    (∃ (d : Fin 4) (i : Fin 8) (s : State), pageOn s (pSDS d (i.val / 4)) = true) ∧
    (∃ (d : Fin 4) (q : Fin 2) (s : State), Shaped s ∧ pageOn s (pSDS d q) = true) ∧
    (∃ (d : Fin 4) (q : Fin 2) (h : Bool) (s : State), Shaped s ∧ pageOn s (pSDS d q) = true ∧ bitOf (pd s d).pllLost
      (2 * q + ofBool (!h)) = false) ∧
    (∃ (d : Fin 4) (i : Fin 8) (e : Nat) (s : State), Shaped s ∧ (port s d i).pause = some e) :=
  ⟨⟨1, 3, fl [(pMAC 1 3, fMAC_CFG_MODE, 2)] rs, by decide +kernel⟩,
   ⟨1, 3, fl [(pMAC 1 3, fMAC_CFG_MODE, 2), (pMAC 1 3, fMAC_STAT_LINK, 1)] rs, shaped_of (by decide +kernel),
     by decide +kernel⟩,
   ⟨1, 3, fl [(pMAC 1 3, fMAC_CFG_MODE, 2), (pMAC 1 3, fMAC_STAT_LINK, 1)] rs, by decide +kernel⟩,
   ⟨1, 6, fl [(pSDS 1 1, fSDS_LANE_STAT_EYE 2, 2)] rs, by decide +kernel⟩,
   ⟨2, 1, fl [(pMAC 2 7, fMAC_CFG_MODE, 3), (pMAC 2 7, fMAC_STAT_LINK, 1)] rs, shaped_of (by decide +kernel),
     by decide +kernel⟩,
   ⟨2, 1, true,
     { fl [(pSDS 2 1, fSDS_PLL_STAT_L_LOCK, 1)] rs with ports := upd rs.ports 2 fun x => { x with pllLost := 8 } },
     shaped_of (by decide +kernel), by decide +kernel⟩,
   ⟨1, 0, 5000,
     { fl [(pMAC 1 0, fMAC_STAT_PAUSED, 1)] rs with ports := upd rs.ports 1 fun x => { x with ports := upd x.ports 0 fun y => { y with pause := some 5000 } } },
     shaped_of (by decide +kernel), by decide +kernel⟩⟩

theorem witness_ModuleManagement :
    (∃ (r : Requester) (d : Fin 4) (q : Fin 2) (s : State), writable s r (pSDS d q) = true ∧ flag s (pSDS d q)
      fSDS_MM_STAT_BUSY = false) ∧
    (∃ (r : Requester) (d : Fin 4) (q : Fin 2) (s : State), writable s r (pSDS d q) = true ∧ flag s (pSDS d q)
      fSDS_MM_STAT_BUSY = true) ∧
    (∃ (d : Fin 4) (q : Fin 2) (s : State), flag s (pSDS d q) fSDS_MM_STAT_BUSY = true) ∧
    (∃ (d : Fin 4) (q : Fin 2) (how : Fin 3) (s : State), flag s (pSDS d q) fSDS_MM_STAT_BUSY = true ∧ how.val ≠ 0) ∧
    (∃ (d : Fin 4) (q : Fin 2) (s : State), pageOn s (pSDS d q) = true ∧ flag s (pSDS d q) fSDS_MM_STAT_PRES = false)
      ∧
    (∃ (d : Fin 4) (q : Fin 2) (s : State), pageOn s (pSDS d q) = true ∧ flag s (pSDS d q) fSDS_MM_STAT_PRES = true) ∧
    (∃ (d : Fin 4) (q : Fin 2) (s : State), pageOn s (pSDS d q) = true) :=
  ⟨⟨.host, 1, 1, fl [(pSDS 1 1, fSDS_MM_CMD_OFS, 3)] rs, by decide +kernel⟩,
   ⟨.host, 1, 1, fl [(pSDS 1 1, fSDS_MM_STAT_BUSY, 1)] rs, by decide +kernel⟩,
   ⟨1, 0, fl [(pSDS 1 0, fSDS_MM_STAT_BUSY, 1), (pSDS 1 0, fSDS_MM_CMD_LEN, 9)] rs, by decide +kernel⟩,
   ⟨1, 0, 2, fl [(pSDS 1 0, fSDS_MM_STAT_BUSY, 1), (pSDS 1 0, fSDS_MM_CMD_LEN, 9)] rs, by decide +kernel⟩,
   ⟨1, 0, rg [(pSDS 1 0, rINT_EN, 2)] rs, by decide +kernel⟩,
   ⟨1, 0, fl [(pSDS 1 0, fSDS_MM_STAT_PRES, 1)] rs, by decide +kernel⟩,
   ⟨1, 0, rg [(pSDS 1 0, rINT_EN, 2)] rs, by decide +kernel⟩⟩

theorem witness_TimestampUnit :
    (∃ (r : Requester) (d : Fin 4) (i : Fin 8) (s : State), Shaped s ∧ writable s r (pTSU d i) = true ∧ pageEn s (pTSU
      d i) = true) ∧
    (∃ (d : Fin 4) (i : Fin 8) (t0 : Nat) (s : State), (port s d i).uncalFrom = some t0) ∧
    (∃ (d : Fin 4) (i : Fin 8) (s : State), Shaped s ∧ (port s d i).cal = true ∧ pageEn s (pTSU d i) = true ∧
      perturbed s 1 = false) ∧
    (∃ (d : Fin 4) (i : Fin 8) (dev : Int) (b : Booking) (l : List Booking) (s : State), Shaped s ∧ (port s d i).out =
      b :: l ∧ b.by' = .plain [] ∧ perturbed s (4 + d) = false ∧ pageEn s (pTSU d i) = true ∧ flag s (pTSU d i)
      fTSU_CFG_DEV_CHK = true ∧ orD (get s (pTSU d i) fTSU_LAUNCH_TOL_TOL) 1 < dev.natAbs) ∧
    (∃ (d : Fin 4) (i : Fin 8) (s : State), doubts s (pTSU d i) 0 = true) :=
  ⟨⟨.host, 2, 5, fl [(pTSU 2 5, fPAGE_CTRL_EN, 1), (pTSU 2 5, fTSU_STAT_CAL_OK, 1)] rs, shaped_of (by decide +kernel),
    by decide +kernel⟩,
   ⟨2, 5, 800,
     { rg [(pTSU 2 5, rINT_EN, 1)] rs with ports := upd rs.ports 2 fun x => { x with ports := upd x.ports 5 fun y => { y with uncalFrom := some 800 } } },
     by decide +kernel⟩,
   ⟨2, 5,
     { fl [(pTSU 2 5, fPAGE_CTRL_EN, 1), (pMAC 2 5, fMAC_CFG_MODE, 2)] rs with ports := upd rs.ports 2 fun x => { x with ports := upd x.ports 5 fun y => { y with cal := true } } },
     shaped_of (by decide +kernel), by decide +kernel⟩,
   ⟨2, 5, -90000, ⟨1, .plain [], 64, 0, 9000000, 9900000, none, 0, true, false, false, false⟩, [],
     { fl [(pTSU 2 5, fPAGE_CTRL_EN, 1), (pTSU 2 5, fTSU_CFG_DEV_CHK, 1)] rs with ports := upd rs.ports 2 fun x => { x with ports := upd x.ports 5 fun y => { y with out := [⟨1, .plain [], 64, 0, 9000000, 9900000, none, 0, true, false, false, false⟩] } } },
     shaped_of (by decide +kernel), by decide +kernel⟩,
   ⟨2, 5, rg [(pTSU 2 5, rDOUBT_RAW, 3)] rs, by decide +kernel⟩⟩

theorem witness_BookedLaunch :
    (∃ (d : Fin 4) (i : Fin 8) (grid : Nat) (a : Ask) (s : State), Shaped s ∧ (port s d i).asks = [a] ∧ bookWhy s d i
      (nowP s d) a.e grid a.at' a.len = 0) ∧
    (∃ (d : Fin 4) (i : Fin 8) (a : Ask) (s : State), Shaped s ∧ (port s d i).asks = [a] ∧ timedReady s d i = false) ∧
    (∃ (d : Fin 4) (i : Fin 8) (b : Booking) (s : State), Shaped s ∧ ((port s d i).books.find? fun b => b.frame.isSome
      && !b.held && !b.late) = some b ∧ nowP (advDie s d b.ready) d + 50 * 65536 ≤ releaseAt s d i b.l) ∧
    (∃ (d : Fin 4) (i : Fin 8) (b : Booking) (f : List Byte) (s : State), Shaped s ∧ ((port s d i).books.find? fun b
      => b.held && !b.late) = some b ∧ b.frame = some f ∧ b.by'.isCue = false ∧ (replicaOk s d = true ∨ b.by'.isPlain
      = true) ∧ (port s d i).pause = none ∧ b.bad = false) ∧
    (∃ (d : Fin 4) (i : Fin 8) (b : Booking) (s : State), Shaped s ∧ (port s d i).books.find? (lateSoon (port s d i))
      = some b ∧ b.held = false ∧ mayRestamp s d b = false) ∧
    (∃ (s : State), Shaped s) :=
  ⟨⟨2, 5, 7, ⟨.plain [1], 64, 9000000, false⟩,
    { rg [(pHubDie, rDIE_DEV_FEAT_ACK 0, 2)] (fl [(pHubDie, fDIE_FEAT_CTRL_COMMITTED, 1), (pLCH 2, fPAGE_CTRL_EN, 1), (pTSU 2 5, fPAGE_CTRL_EN, 1), (pTSU 2 5, fTSU_STAT_CAL_OK, 1), (pMAC 2 5, fMAC_CFG_MODE, 2), (pMAC 2 5, fMAC_STAT_LINK, 1)] rs) with ports := upd rs.ports 2 fun x => { x with ports := upd x.ports 5 fun y => { y with asks := [⟨.plain [1], 64, 9000000, false⟩] } }, tb := { rs.tb with replicas := upd rs.tb.replicas 4 fun x => { x with locked := true } } },
    shaped_of (by decide +kernel), by decide +kernel⟩,
   ⟨2, 5, ⟨.bridge [1] 0 0 false none, 64, 9000000, false⟩,
     { rg [(pLCH 2, rINT_EN, 1)] rs with ports := upd rs.ports 2 fun x => { x with ports := upd x.ports 5 fun y => { y with asks := [⟨.bridge [1] 0 0 false none, 64, 9000000, false⟩] } } },
     shaped_of (by decide +kernel), by decide +kernel⟩,
   ⟨2, 5, ⟨1, .plain [7, 8], 64, 0, 90000000, 99000000, some [7, 8], 5, false, false, false, false⟩,
     { rg [(pLCH 2, rINT_EN, 1)] rs with ports := upd rs.ports 2 fun x => { x with ports := upd x.ports 5 fun y => { y with books := [⟨1, .plain [7, 8], 64, 0, 90000000, 99000000, some [7, 8], 5, false, false, false, false⟩] } } },
     shaped_of (by decide +kernel), by decide +kernel⟩,
   ⟨2, 5, ⟨1, .plain [7, 8], 64, 0, 90000000, 99000000, some [7, 8], 5, true, false, false, false⟩, [7, 8],
     { rg [(pLCH 2, rINT_EN, 1), (pMAC 2 5, rMAC_TX_FRAMES_LO, 0xFFFFFFFF)] rs with ports := upd rs.ports 2 fun x => { x with ports := upd x.ports 5 fun y => { y with books := [⟨1, .plain [7, 8], 64, 0, 90000000, 99000000, some [7, 8], 5, true, false, false, false⟩] } } },
     shaped_of (by decide +kernel), by decide +kernel⟩,
   ⟨2, 5, ⟨1, .plain [7, 8], 64, 0, 90000000, 99000000, some [7, 8], 5, false, false, false, false⟩,
     { rg [(pLCH 2, rINT_EN, 1)] rs with ports := upd rs.ports 2 fun x => { x with ports := upd x.ports 5 fun y => { y with books := [⟨1, .plain [7, 8], 64, 0, 90000000, 99000000, some [7, 8], 5, false, false, false, false⟩] } } },
     shaped_of (by decide +kernel), by decide +kernel⟩,
   ⟨{ rg [(pLCH 2, rINT_EN, 1)] rs with ports := upd rs.ports 2 fun x => { x with lates := [0, 5, 7] } }, shaped_of
     (by decide +kernel)⟩⟩

theorem witness_FramesInAndOut :
    (∃ (d : Fin 4) (i : Fin 8) (s : State), Shaped s ∧ portMode s d i ≠ 0 ∧ linkUp s d i = true ∧ lchOn s d = true) ∧
    (∃ (d : Fin 4) (i : Fin 8) (s : State), (portMode s d i = 0 ∨ linkUp s d i = false ∨ lchOn s d = false)) ∧
    (∃ (d : Fin 4) (i : Fin 8) (u : Untimed) (l : List Untimed) (x : Nat) (s : State), Shaped s ∧ (port s d i).untimed
      = u :: l ∧ u.booked = false ∧ (port s d i).pause = none ∧ linkUp s d i = true ∧ untimedStart s d i
      (u.frame.length + 4) = some x) ∧
    (∃ (d : Fin 4) (i : Fin 8) (u : Untimed) (l : List Untimed) (s : State), Shaped s ∧ (port s d i).untimed = u :: l
      ∧ u.booked = false) ∧
    (∃ (ring : Fin 16) (w0 : Word) (de : Desc) (l : List Desc) (s : State), Shaped s ∧ ringTakes s ring 1 = true ∧ (ix
      s.rings ring Ring.cold).given = de :: l ∧ w0.toNat &&& 0xF0E0 = 0 ∧ w0.toNat / 0x100 % 4 = 1) ∧
    (∃ (ring : Fin 16) (w0 : Word) (de : Desc) (l : List Desc) (s : State), Shaped s ∧ ringTakes s ring 1 = true ∧ (ix
      s.rings ring Ring.cold).given = de :: l ∧ w0.toNat &&& 0xF0E0 ≠ 0) ∧
    (∃ (d : Fin 4) (i : Fin 8) (x : RxFrame) (s : State), linkUp s d i = true ∧ pageEn s (pMAC d i) = true ∧ loopMode
      s d i ≠ 3 ∧ fecOn s d i = false ∧ x.fcsOk = true ∧ 60 ≤ x.bytes.length ∧ x.bytes.length + 4 ≤ get s (pMAC d i)
      fMAC_CFG_MAX_LEN) ∧
    (∃ (d : Fin 4) (i : Fin 8) (x : RxFrame) (s : State), linkUp s d i = true ∧ pageEn s (pMAC d i) = true ∧ loopMode
      s d i ≠ 3 ∧ fecOn s d i = false ∧ (x.fcsOk = false ∨ x.bytes.length < 60)) :=
  ⟨⟨2, 5, fl [(pMAC 2 5, fMAC_CFG_MODE, 1), (pMAC 2 5, fMAC_STAT_LINK, 1), (pLCH 2, fPAGE_CTRL_EN, 1)] rs, shaped_of
    (by decide +kernel), by decide +kernel⟩,
   ⟨2, 5, fl [(pMAC 2 5, fMAC_CFG_MODE, 1), (pMAC 2 5, fMAC_STAT_LINK, 1)] rs, by decide +kernel⟩,
   ⟨2, 5, ⟨[1, 2], 0, none, false⟩, [], 0,
     { fl [(pMAC 2 5, fMAC_CFG_MODE, 1), (pMAC 2 5, fMAC_STAT_LINK, 1), (pLCH 2, fPAGE_CTRL_EN, 1)] rs with ports := upd rs.ports 2 fun x => { x with ports := upd x.ports 5 fun y => { y with untimed := [⟨[1, 2], 0, none, false⟩] } } },
     shaped_of (by decide +kernel), by decide +kernel⟩,
   ⟨2, 5, ⟨[1, 2], 0, none, false⟩, [],
     { fl [(pLCH 2, fPAGE_CTRL_EN, 1)] rs with ports := upd rs.ports 2 fun x => { x with ports := upd x.ports 5 fun y => { y with untimed := [⟨[1, 2], 0, none, false⟩] } } },
     shaped_of (by decide +kernel), by decide +kernel⟩,
   ⟨3, 0x115#32, ⟨1, true, 3, 4⟩, [],
     { fl [(pHIF, fHIF_RING_CFG_EN 3, 1), (pHIF, fHIF_RING_CFG_TYPE 3, 1), (pHIF, fHIF_RING_CFG_OWNER 3, 1), (pHIF, fHIF_RING_STAT_RUN 3, 1)] rs with rings := upd rs.rings 3 fun x => { x with given := [⟨1, true, 3, 4⟩] } },
     shaped_of (by decide +kernel), by decide +kernel⟩,
   ⟨3, 0x1020#32, ⟨1, true, 3, 4⟩, [],
     { fl [(pHIF, fHIF_RING_CFG_EN 3, 1), (pHIF, fHIF_RING_CFG_TYPE 3, 1), (pHIF, fHIF_RING_CFG_OWNER 3, 1), (pHIF, fHIF_RING_STAT_RUN 3, 1)] rs with rings := upd rs.rings 3 fun x => { x with given := [⟨1, true, 3, 4⟩] } },
     shaped_of (by decide +kernel), by decide +kernel⟩,
   ⟨2, 5, ⟨[1, 128, 194, 0, 0, 1, 2, 3, 4, 5, 6, 7, 0x88, 8, 0, 1, 0, 9] ++ List.replicate 46 0, true, 0, 0, true, 0,
     0⟩, fl [(pMAC 2 5, fPAGE_CTRL_EN, 1), (pMAC 2 5, fMAC_CFG_PAUSE_RX, 1), (pMAC 2 5, fMAC_CFG_MODE, 1), (pMAC 2 5,
     fMAC_STAT_LINK, 1)] rs, by decide +kernel⟩,
   ⟨2, 5, ⟨[1, 2, 3], true, 0, 0, true, 0, 0⟩, fl [(pMAC 2 5, fPAGE_CTRL_EN, 1), (pMAC 2 5, fMAC_CFG_MODE, 1), (pMAC 2
     5, fMAC_STAT_LINK, 1)] rs, by decide +kernel⟩⟩

theorem witness_ReferenceSlots :
    (∃ (k : Fin 2) (t4 : Int) (s : State), taking s (3 + k) = true ∧ t4 + 10000000 * 65536 < (t96 s : Int)) ∧
    (∃ (k : Fin 2) (t4 : Int) (s : State), Shaped s ∧ taking s (3 + k) = true ∧ (t96 s : Int) ≤ t4 + 10000000 * 65536)
      ∧
    (∃ (k : Fin 2) (t2 : PC64) (s : State), Shaped s ∧ taking s (3 + k) = true ∧ (t96 s : Int) ≤ t96OfPc s t2 +
      10000000 * 65536) ∧
    (∃ (input : Fin 2) (falling : Bool) (s : State), Shaped s ∧ taking s (input + 1) = true ∧ extPol s input = falling
      ∧ (slot s (input + 1)).edge = none) ∧
    (∃ (input : Fin 2) (ppt : Int) (s : State), Shaped s ∧ taking s (input + 1) = true ∧ extFreqSel s input ≠ 0 ∧
      ppt.natAbs ≤ 10000000) ∧
    (∃ (k : Fin 6) (s : State), pageEn s pDSC = true ∧ slotEn s k = true ∧ slotState s k ≠ 1 ∧ slotLost s k = true) ∧
    (∃ (r : Requester) (s : State), Shaped s ∧ writable s r pREF = true) ∧
    (∃ (r : Requester) (s : State), Shaped s ∧ writable s r pREF = true) :=
  ⟨⟨1, 0,
    { fl [(pDSC, fPAGE_CTRL_EN, 1), (pREF, fPAGE_CTRL_EN, 1), (pREF, fREF_SLOT_CFG_EN 4, 1)] rs with clk := ⟨800000000000, 0, 0⟩ },
    by decide +kernel⟩,
   ⟨1, 9,
     { fl [(pDSC, fPAGE_CTRL_EN, 1), (pREF, fPAGE_CTRL_EN, 1), (pREF, fREF_SLOT_CFG_EN 4, 1)] rs with clk := ⟨8000000, 0, 0⟩ },
     shaped_of (by decide +kernel), by decide +kernel⟩,
   ⟨0, 6,
     { fl [(pDSC, fPAGE_CTRL_EN, 1), (pREF, fPAGE_CTRL_EN, 1), (pREF, fREF_SLOT_CFG_EN 3, 1)] rs with clk := ⟨8000, 0, 0⟩ },
     shaped_of (by decide +kernel), by decide +kernel⟩,
   ⟨1, false, fl [(pDSC, fPAGE_CTRL_EN, 1), (pREF, fPAGE_CTRL_EN, 1), (pREF, fREF_SLOT_CFG_EN 2, 1)] rs, shaped_of
     (by decide +kernel), by decide +kernel⟩,
   ⟨1, -44, fl [(pDSC, fPAGE_CTRL_EN, 1), (pREF, fPAGE_CTRL_EN, 1), (pREF, fREF_SLOT_CFG_EN 2, 1), (pREF,
     fREF_EXT_CFG_FREQ_SEL1, 2)] rs, shaped_of (by decide +kernel), by decide +kernel⟩,
   ⟨4,
     { fl [(pDSC, fPAGE_CTRL_EN, 1), (pREF, fPAGE_CTRL_EN, 1), (pREF, fREF_SLOT_CFG_EN 4, 1)] rs with dsc := { rs.dsc with slots := upd rs.dsc.slots 4 fun x => { x with gone := true } } },
     by decide +kernel⟩,
   ⟨.host, fl [(pREF, fREF_SLOT_STAT_STATE 4, 6)] rs, shaped_of (by decide +kernel), by decide +kernel⟩,
   ⟨.host, rs, shaped_of (by decide +kernel), by decide +kernel⟩⟩

theorem witness_ServoUpdate :
    (∃ (s : State), pageEn s pDSC = true ∧ flag s pDSC fDSC_CTRL_FREERUN = true) ∧
    (∃ (s : State), pageEn s pDSC = false) ∧
    (∃ (s : State), servoState s = 2) ∧
    (∃ (s : State), s.dsc.refits < s.dsc.lockNs / 3600000000000) :=
  ⟨⟨fl [(pDSC, fDSC_STAT_STATE, 2), (pDSC, fPAGE_CTRL_EN, 1), (pDSC, fDSC_CTRL_FREERUN, 1)] rs, by decide +kernel⟩,
   ⟨rg [(pTBE, rTBE_PULL, 9)] (fl [(pDSC, fDSC_STAT_STATE, 3)] rs), by decide +kernel⟩,
   ⟨fl [(pDSC, fDSC_STAT_STATE, 2)] rs, by decide +kernel⟩,
   ⟨{ fl [(pDSC, fDSC_STAT_STATE, 2)] rs with dsc := { rs.dsc with lockNs := 86400000000000 } }, by decide +kernel⟩⟩

theorem witness_OvenAndOscIn :
    (∃ (temp : Int) (s : State), settled s = false ∧ ovenOff s temp ≤ ovenBand s) ∧
    (∃ (temp : Int) (s : State), settled s = true ∧ 4 * ovenBand s < ovenOff s temp) ∧
    (∃ (s : State), settled s = true) ∧
    (∃ (s : State), s.oven.heaterOff = false) ∧
    (∃ (s : State), flag s pOVN fOVN_STAT_OSC_PRESENT = true) ∧
    (∃ (s : State), flag s pOVN fOVN_STAT_OSC_PRESENT = false) ∧
    (∃ (s : State), flag s pOVN fOVN_STAT_OSC_PRESENT = true ∧ settled s = true ∧ measValid s = false) :=
  ⟨⟨85000, rg [(pOVN, rOVN_SETPOINT, 85000)] rs, by decide +kernel⟩,
   ⟨80000, fl [(pOVN, fOVN_STAT_SETTLED, 1)] (rg [(pOVN, rOVN_SETPOINT, 85000)] rs), by decide +kernel⟩,
   ⟨fl [(pOVN, fOVN_STAT_SETTLED, 1)] (rg [(pOVN, rOVN_SETPOINT, 85000)] rs), by decide +kernel⟩,
   ⟨rs, by decide +kernel⟩,
   ⟨fl [(pOVN, fOVN_STAT_OSC_PRESENT, 1), (pOVN, fOVN_STAT_ACTIVE_SRC, 1), (pOVN, fOVN_CFG_FALLBACK, 1)] rs,
     by decide +kernel⟩,
   ⟨rs, by decide +kernel⟩,
   ⟨fl [(pOVN, fOVN_STAT_OSC_PRESENT, 1), (pOVN, fOVN_STAT_SETTLED, 1)] rs, by decide +kernel⟩⟩

theorem witness_FrequencySource :
    (∃ (r : Requester) (v : Word) (s : State), writable s r pOVN = true ∧ fOVN_CTRL_RETRY.of v.toNat = 1 ∧ prefersOsc
      s ≠ srcIsOsc s ∧ srcAvailable s (prefersOsc s) = true) ∧
    (∃ (osc valid : Bool) (s : State), s.oven.req = some (osc, valid) ∧ srcIsOsc s ≠ osc) ∧
    (∃ (s : State), s.oven.toBackup = true) ∧
    (∃ (s : State), get s pOVN fOVN_CFG_TUNE_MODE = 2 ∧ srcIsOsc s = true ∧ onBackup s = false ∧ servoState s = 2 ∧
      getS s pOVN fOVN_TUNE_CFG_GAIN ≠ 0 ∧ centrePpt s < (signed 32 (rdN s pDSC rDSC_FREQ)).natAbs ∧ 0 < get s pOVN
      fOVN_TUNE_CODE ∧ get s pOVN fOVN_TUNE_CODE < 0xFFFF) :=
  ⟨⟨.host, 1#32, fl [(pOVN, fOVN_STAT_OSC_PRESENT, 1), (pOVN, fOVN_STAT_MEAS_VALID, 1), (pOVN, fOVN_CFG_FSRC, 1),
    (pOVN, fOVN_STAT_ACTIVE_SRC, 0)] rs, by decide +kernel⟩,
   ⟨false, false,
     { fl [(pOVN, fOVN_STAT_ACTIVE_SRC, 1)] rs with oven := { rs.oven with req := some (false, false) } },
     by decide +kernel⟩,
   ⟨{ fl [(pOVN, fOVN_STAT_ACTIVE_SRC, 1)] rs with oven := { rs.oven with toBackup := true } }, by decide +kernel⟩,
   ⟨rg [(pDSC, rDSC_FREQ, 0xFFF00000)] (fl [(pOVN, fOVN_STAT_ACTIVE_SRC, 1), (pOVN, fOVN_CFG_TUNE_MODE, 2), (pOVN,
     fOVN_TUNE_CFG_GAIN, 5), (pDSC, fDSC_STAT_STATE, 2), (pOVN, fOVN_TUNE_CODE, 0x8000)] rs), by decide +kernel⟩⟩

theorem witness_RadioFrontEnd :
    (∃ (s : State), gfOn s = true ∧ flag s pGRX fGRX_STAT_WARMUP = true) ∧
    (∃ (s : State), gfOn s = true ∧ flag s pGRX fGRX_STAT_PLL_LOCK = false) ∧
    (∃ (s : State), gfOn s = true ∧ pageEn s pGRX = true ∧ flag s pGRX fGRX_AGC_CFG_FREEZE = true) ∧
    (∃ (t0 : Nat) (s : State), s.rad.rail = some t0 ∧ gfOn s = true ∧ doubts s pGRX 3 = false) ∧
    (∃ (s : State), s.rad.biasOn = true) ∧
    (∃ (s : State), get s pGRX fGRX_ANT_STAT_STATE = 2 ∧ get s pGRX fGRX_ANT_CFG_RETRY ≠ 0 ∧ biasWanted s = true) ∧
    (∃ (s : State), s.rad.biasOn = true ∧ doubts s pGRX 0 = true) ∧
    (∃ (ma : Nat) (s : State), s.rad.biasOn = true ∧ ma < get s pGRX fGRX_ANT_CFG_OPEN_MA) ∧
    (∃ (ma : Nat) (s : State), s.rad.biasOn = true ∧ get s pGRX fGRX_ANT_CFG_OPEN_MA ≤ ma ∧ doubts s pGRX 1 = true) :=
  ⟨⟨fl [(pGRX, fGRX_STAT_GF_ON, 1), (pGRX, fGRX_STAT_WARMUP, 1)] rs, by decide +kernel⟩,
   ⟨fl [(pGRX, fGRX_STAT_GF_ON, 1)] rs, by decide +kernel⟩,
   ⟨fl [(pGRX, fPAGE_CTRL_EN, 1), (pGRX, fGRX_STAT_GF_ON, 1), (pGRX, fGRX_AGC_CFG_FREEZE, 1), (pGRX,
     fGRX_AGC_CFG_GAIN_SET, 60)] rs, by decide +kernel⟩,
   ⟨3, { fl [(pGRX, fPAGE_CTRL_EN, 1), (pGRX, fGRX_STAT_GF_ON, 1)] rs with rad := { rs.rad with rail := some 3 } },
     by decide +kernel⟩,
   ⟨{ fl [(pGRX, fPAGE_CTRL_EN, 1), (pGRX, fGRX_STAT_GF_ON, 1)] rs with rad := { rs.rad with biasOn := true } },
     by decide +kernel⟩,
   ⟨fl [(pGRX, fGRX_ANT_STAT_STATE, 2), (pGRX, fGRX_ANT_CFG_RETRY, 3), (pGRX, fGRX_ANT_CFG_MODE, 2)] rs,
     by decide +kernel⟩,
   ⟨{ rg [(pGRX, rDOUBT_RAW, 1)] rs with rad := { rs.rad with biasOn := true } }, by decide +kernel⟩,
   ⟨1, { fl [(pGRX, fGRX_ANT_CFG_OPEN_MA, 5)] rs with rad := { rs.rad with biasOn := true } }, by decide +kernel⟩,
   ⟨9,
     { rg [(pGRX, rDOUBT_RAW, 2)] (fl [(pGRX, fGRX_ANT_CFG_OPEN_MA, 5)] rs) with rad := { rs.rad with biasOn := true } },
     by decide +kernel⟩⟩

theorem witness_AcquisitionJobs :
    (∃ (r : Requester) (v : Word) (s : State), writable s r pACQ = true ∧ fACQ_CTRL_FLUSH.of v.toNat = 0 ∧
      fACQ_CTRL_PUSH.of v.toNat = 1) ∧
    (∃ (r : Requester) (v : Word) (s : State), writable s r pACQ = true ∧ fACQ_CTRL_FLUSH.of v.toNat = 1 ∧
      fACQ_CTRL_PUSH.of v.toNat = 0) ∧
    (∃ (j : AcqJob) (rest : List AcqJob) (s : State), pageEn s pACQ = true ∧ s.rad.run = none ∧ s.rad.jobs = j :: rest
      ∧ jobWaits s j = false ∧ jobRefused s j = false) ∧
    (∃ (j : AcqJob) (rest : List AcqJob) (s : State), pageEn s pACQ = true ∧ s.rad.run = none ∧ s.rad.jobs = j :: rest
      ∧ jobWaits s j = false ∧ jobRefused s j = true ∧ s.rad.results.length < 64) ∧
    (∃ (x : AcqRun) (s : State), s.rad.run = some x ∧ x.captured = false) ∧
    (∃ (x : AcqRun) (s : State), s.rad.run = some x ∧ x.captured = true) ∧
    (∃ (w : List Nat) (rest : List (List Nat)) (s : State), readable s pACQ = true ∧ s.rad.results = w :: rest ∧
      w.length = 5) :=
  ⟨⟨.host, 1#32, rg [(pACQ, rACQ_JOB 0, 0x1110100)] rs, by decide +kernel⟩,
   ⟨.host, 2#32, { fl [(pACQ, fACQ_STAT_JOBQ, 1)] rs with rad := { rs.rad with jobs := [⟨1, 2, 3, 4, false⟩] } },
     by decide +kernel⟩,
   ⟨⟨0x1100100, 0, 0, 0, false⟩, [],
     { fl [(pACQ, fPAGE_CTRL_EN, 1), (pGRX, fGRX_STAT_GF_ON, 1)] rs with rad := { rs.rad with jobs := [⟨0x1100100, 0, 0, 0, false⟩] } },
     by decide +kernel⟩,
   ⟨⟨0x1100000, 0, 0, 0, false⟩, [],
     { fl [(pACQ, fPAGE_CTRL_EN, 1), (pGRX, fGRX_STAT_GF_ON, 1)] rs with rad := { rs.rad with jobs := [⟨0x1100000, 0, 0, 0, false⟩] } },
     by decide +kernel⟩,
   ⟨⟨⟨0x1100100, 0, 0, 0, false⟩, 1, 1, 1, 0, 5000, false, false, false, 0, (0, 0, 0, 0)⟩,
     { fl [(pACQ, fPAGE_CTRL_EN, 1), (pGRX, fGRX_STAT_GF_ON, 1)] rs with rad := { rs.rad with run := some ⟨⟨0x1100100, 0, 0, 0, false⟩, 1, 1, 1, 0, 5000, false, false, false, 0, (0, 0, 0, 0)⟩ } },
     by decide +kernel⟩,
   ⟨⟨⟨0x1100100, 0, 0, 0, false⟩, 1, 1, 1, 0, 5000, true, false, false, 0, (0, 0, 0, 0)⟩,
     { fl [(pACQ, fPAGE_CTRL_EN, 1), (pACQ, fACQ_THRESH_DET, 50), (pGRX, fGRX_STAT_GF_ON, 1)] rs with rad := { rs.rad with run := some ⟨⟨0x1100100, 0, 0, 0, false⟩, 1, 1, 1, 0, 5000, true, false, false, 0, (0, 0, 0, 0)⟩ } },
     by decide +kernel⟩,
   ⟨[1, 2, 3, 4, 5], [],
     { fl [(pACQ, fACQ_STAT_RES_LVL, 1)] rs with rad := { rs.rad with results := [[1, 2, 3, 4, 5]] } },
     by decide +kernel⟩⟩

theorem witness_Snapshots :
    (∃ (r : Requester) (v : Word) (s : State), writable s r pSNP = true ∧ fSNP_CTRL_ARM.of v.toNat = 1 ∧
      fSNP_CTRL_CANCEL.of v.toNat = 0 ∧ fSNP_CTRL_HOLD.of v.toNat = 0 ∧ fSNP_CTRL_RELEASE.of v.toNat = 0) ∧
    (∃ (r : Requester) (v : Word) (a : SnapArm) (s : State), writable s r pSNP = true ∧ fSNP_CTRL_CANCEL.of v.toNat =
      1 ∧ fSNP_CTRL_ARM.of v.toNat = 0 ∧ s.rad.arm = some a ∧ a.slot < 2) ∧
    (∃ (r : Requester) (v : Word) (s : State), writable s r pSNP = true ∧ fSNP_CTRL_CANCEL.of v.toNat = 0 ∧
      fSNP_CTRL_ARM.of v.toNat = 0 ∧ fSNP_CTRL_RELEASE.of v.toNat = 0) ∧
    (∃ (r : Requester) (v : Word) (s : State), writable s r pSNP = true ∧ fSNP_CTRL_CANCEL.of v.toNat = 0 ∧
      fSNP_CTRL_ARM.of v.toNat = 0 ∧ fSNP_CTRL_HOLD.of v.toNat = 0) ∧
    (∃ (s : State), pageEn s pSNP = true ∧ flag s pSNP fSNP_CFG_AUTO = true ∧ s.rad.arm = none ∧ feat s 7 = true ∧
      slotBusy s 0 = false ∧ slotBusy s 1 = false ∧ 0 < get s pSNP fSNP_CFG_LEN_MS ∧ get s pSNP fSNP_CFG_LEN_MS ≤ 64 ∧
      flag s pOVN fOVN_STAT_BACKUP = false) ∧
    (∃ (a : SnapArm) (s : State), s.rad.arm = some a ∧ a.first = none ∧ gfOn s = false ∧ domOn s domGB = true) ∧
    (∃ (a : SnapArm) (s : State), s.rad.arm = some a ∧ a.first = none ∧ a.slot < 2 ∧ samplesFlow s = true) ∧
    (∃ (a : SnapArm) (pc : PC64) (s : State), s.rad.arm = some a ∧ a.first = some pc ∧ a.slot < 2 ∧ a.len ≤ 64) ∧
    (∃ (s : State), gfOn s = true ∧ flag s pGRX fGRX_STAT_PLL_LOCK = true) :=
  ⟨⟨.host, 1#32, rg [(pHubDie, rDIE_DEV_FEAT_ACK 0, 0x80), (pSNP, rSNP_AT_HI, 1)] (fl [(pHubDie,
    fDIE_FEAT_CTRL_COMMITTED, 1), (pSNP, fSNP_ARM_CFG_LEN_MS, 5)] rs), by decide +kernel⟩,
   ⟨.host, 2#32, ⟨1, 5, 9, false, 0, some 9⟩, updRad rs fun r => { r with arm := some ⟨1, 5, 9, false, 0, some 9⟩ },
     by decide +kernel⟩,
   ⟨.host, 0x10#32, rg [(pSNP, rINT_EN, 1)] rs, by decide +kernel⟩,
   ⟨.host, 0x100#32, fl [(pSNP, fSNP_SLOT_STAT_HOLD 0, 1)] rs, by decide +kernel⟩,
   ⟨rg [(pHubDie, rDIE_DEV_FEAT_ACK 0, 0x80)] (fl [(pHubDie, fDIE_FEAT_CTRL_COMMITTED, 1), (pSNP, fSNP_CFG_LEN_MS, 5),
     (pSNP, fSNP_CFG_AUTO, 1), (pSNP, fPAGE_CTRL_EN, 1)] rs), by decide +kernel⟩,
   ⟨⟨1, 5, 9, false, 0, none⟩, updRad rs fun r => { r with arm := some ⟨1, 5, 9, false, 0, none⟩ },
     by decide +kernel⟩,
   ⟨⟨1, 5, 9, false, 0, none⟩, updRad (fl [(pGRX, fGRX_STAT_GF_ON, 1), (pGRX, fGRX_STAT_PLL_LOCK, 1)] rs) fun r =>
     { r with arm := some ⟨1, 5, 9, false, 0, none⟩ }, by decide +kernel⟩,
   ⟨⟨1, 5, 9, false, 0, some 9⟩, 9#64, updRad (fl [(pGRX, fGRX_STAT_GF_ON, 1), (pGRX, fGRX_STAT_PLL_LOCK, 1)] rs) fun
     r => { r with arm := some ⟨1, 5, 9, false, 0, some 9⟩ }, by decide +kernel⟩,
   ⟨updRad (fl [(pGRX, fGRX_STAT_GF_ON, 1), (pGRX, fGRX_STAT_PLL_LOCK, 1)] rs) fun r =>
     { r with arm := some ⟨1, 5, 9, false, 0, some 9⟩ }, by decide +kernel⟩⟩

theorem witness_SurveyChannels :
    (∃ (ch : Fin 64) (x : Chan) (s : State), chan? s ch = some x ∧ x.st = 1) ∧
    (∃ (ch : Fin 64) (x : Chan) (s : State), chan? s ch = some x ∧ x.st = 1) ∧
    (∃ (ch : Fin 64) (x : Chan) (s : State), chan? s ch = some x ∧ x.st = 2) ∧
    (∃ (ch : Fin 64) (s : State), (chanSt s ch = 2 ∨ chanSt s ch = 3)) ∧
    (∃ (ch : Fin 64) (s : State), (chanSt s ch = 2 ∨ chanSt s ch = 3)) ∧
    (∃ (r : Requester) (ch : Fin 80) (v : Word) (s : State), writable s r (pCH ch) = true ∧ fSCH_CTRL_RELEASE.of
      v.toNat = 1) :=
  ⟨⟨4, Chan.fresh 0 5 1 0, updRad rs fun r => { r with chans := [(4, Chan.fresh 0 5 1 0)] }, by decide +kernel⟩,
   ⟨4, Chan.fresh 0 5 1 0, updRad rs fun r => { r with chans := [(4, Chan.fresh 0 5 1 0)] }, by decide +kernel⟩,
   ⟨4, Chan.fresh 1 5 2 0, updRad rs fun r => { r with chans := [(4, Chan.fresh 1 5 2 0)] }, by decide +kernel⟩,
   ⟨4, updRad rs fun r => { r with chans := [(4, Chan.fresh 1 5 2 0)] }, by decide +kernel⟩,
   ⟨4, updRad rs fun r => { r with chans := [(4, Chan.fresh 1 5 2 0)] }, by decide +kernel⟩,
   ⟨.host, 70, 1#32, updRad rs fun r => { r with chans := [(4, Chan.fresh 1 5 2 0), (70, Chan.fresh 1 5 2 0)] },
     by decide +kernel⟩⟩

theorem witness_TimingChannels :
    (∃ (r : Requester) (v : Word) (s : State), writable s r pTRK = true ∧ fTRK_PROMOTE_GO.of v.toNat = 1) ∧
    (∃ (src dst : Fin 80) (b : Bool) (x : Chan) (s : State), s.rad.move = some (src.val, dst.val, b) ∧ chan? s src =
      some x ∧ src ≠ dst) ∧
    (∃ (ch : Fin 16) (x : Chan) (s : State), chan? s (64 + ch) = some x ∧ x.commit = none) ∧
    (∃ (ch : Fin 16) (x : Chan) (h : DumpHead) (s : State), chan? s (64 + ch) = some x ∧ x.dump = some h) ∧
    (∃ (ch : Fin 16) (s : State), readable s (pTCH ch) = true) ∧
    (∃ (r : Requester) (ch : Fin 16) (v : Word) (x : Chan) (s : State), writable s r (pTCH ch) = true ∧
      fSCH_CTRL_RELEASE.of v.toNat = 0 ∧ fTCH_CTRL_COMMIT.of v.toNat = 1 ∧ chan? s (64 + ch) = some x) ∧
    (∃ (ch : Fin 16) (x : Chan) (s : State), chan? s (64 + ch) = some x ∧ orD (get s pTRK fTRK_CFG_STALE_MS) 1 ≤
      x.quiet) ∧
    (∃ (ch : Fin 16) (x : Chan) (s : State), chan? s (64 + ch) = some x ∧ flag s pTRK fTRK_CFG_SHAPE_EN = true) ∧
    (∃ (s : State), pageEn s pTRK = true) :=
  ⟨⟨.host, 0x80004104#32, updRad (fl [(pTCH 1, fPAGE_CTRL_EN, 1)] rs) fun r =>
    { r with chans := [(4, Chan.fresh 1 5 3 0)] }, by decide +kernel⟩,
   ⟨4, 65, false, Chan.fresh 1 5 3 0, updRad (fl [(pTCH 1, fPAGE_CTRL_EN, 1)] rs) fun r =>
     { r with chans := [(4, Chan.fresh 1 5 3 0)], move := some (4, 65, false) }, by decide +kernel⟩,
   ⟨1, { Chan.fresh 1 5 3 0 with b := some 7 }, updRad rs fun r =>
     { r with chans := [(65, { Chan.fresh 1 5 3 0 with b := some 7 })] }, by decide +kernel⟩,
   ⟨1, { Chan.fresh 1 5 3 0 with b := some 7, dump := some ⟨11, 5, false, true, false, 1, 2, 3⟩ }, ⟨11, 5, false,
     true, false, 1, 2, 3⟩, updRad rs fun r =>
     { r with chans := [(65, { Chan.fresh 1 5 3 0 with b := some 7, dump := some ⟨11, 5, false, true, false, 1, 2, 3⟩ })] },
     by decide +kernel⟩,
   ⟨3, rg [(pTCH 3, 0x500, 0x80005)] rs, by decide +kernel⟩,
   ⟨.host, 3, 0x50002#32, Chan.fresh 1 5 3 0, updRad rs fun r => { r with chans := [(67, Chan.fresh 1 5 3 0)] },
     by decide +kernel⟩,
   ⟨3, { Chan.fresh 1 5 3 0 with quiet := 50000 }, updRad rs fun r =>
     { r with chans := [(67, { Chan.fresh 1 5 3 0 with quiet := 50000 })] }, by decide +kernel⟩,
   ⟨3, { Chan.fresh 1 5 3 0 with badSec := 50000 }, updRad (fl [(pTRK, fTRK_CFG_SHAPE_EN, 1)] rs) fun r =>
     { r with chans := [(67, { Chan.fresh 1 5 3 0 with badSec := 50000 })] }, by decide +kernel⟩,
   ⟨updRad (fl [(pTRK, fPAGE_CTRL_EN, 1)] rs) fun r => { r with chans := [(67, Chan.fresh 1 5 3 0)] },
     by decide +kernel⟩⟩

theorem witness_NavigationData :
    (∃ (ch : Fin 80) (words : List (Nat × Bool)) (x : Chan) (s : State), chan? s ch = some x ∧ pageEn s pNAV = true ∧
      flag s pNAV fNAV_CFG_LNAV_EN = true ∧ x.st = 3 ∧ x.sys ≠ 1 ∧ flag s (pCH ch) fSCH_STAT_NAVSYNC = true ∧
      words.length = 10 ∧ (∀ w ∈ words, w.2 = true) ∧ navLevel s ≠ 47 ∧ get s pNAV fNAV_WR_IDX_IDX < 48 ∧ pageEn s
      pINT = false) ∧
    (∃ (ch : Fin 80) (x : Chan) (s : State), chan? s ch = some x ∧ pageEn s pNAV = true ∧ flag s pNAV fNAV_CFG_INAV_EN
      = true ∧ x.st = 3 ∧ x.sys = 1) ∧
    (∃ (r : Requester) (s : State), writable s r pNAV = true) ∧
    (∃ (r : Requester) (v : Word) (s : State), writable s r pNAV = true ∧ fNAV_SOL_CMD_SUBMIT.of v.toNat = 1 ∧
      solRefusal s ≠ 0) ∧
    (∃ (r : Requester) (v : Word) (s : State), writable s r pNAV = true ∧ fNAV_SOL_CMD_SUBMIT.of v.toNat = 1 ∧
      solRefusal s = 0) ∧
    (∃ (r : Requester) (s : State), writable s r pNAV = true) :=
  ⟨⟨4, (List.range 10).map (fun k => (77 + k, true)), Chan.fresh 0 5 3 0, updRad (fl [(pNAV, fPAGE_CTRL_EN, 1), (pNAV,
    fNAV_CFG_LNAV_EN, 1), (pCH 4, fSCH_STAT_NAVSYNC, 1)] rs) fun r => { r with chans := [(4, Chan.fresh 0 5 3 0)] },
    by decide +kernel⟩,
   ⟨4, { Chan.fresh 1 5 3 0 with even := some ([5], 900) }, updRad (fl [(pNAV, fPAGE_CTRL_EN, 1), (pNAV,
     fNAV_CFG_INAV_EN, 1)] rs) fun r =>
     { r with chans := [(4, { Chan.fresh 1 5 3 0 with even := some ([5], 900) })] }, by decide +kernel⟩,
   ⟨.host, fl [(pNAV, fNAV_WR_IDX_IDX, 8)] rs, by decide +kernel⟩,
   ⟨.host, 1#32, rg [(pNAV, rNAV_SOL_EPOCH, 8)] rs, by decide +kernel⟩,
   ⟨.host, 1#32, rg [(pTRK, rTRK_EPOCH_SEQ, 8), (pNAV, rNAV_SOL_EPOCH, 8)] (fl [(pNAV, fNAV_SOL_QUAL_SIG, 8), (pNAV,
     fNAV_POS_SIG_VALID, 1), (pNAV, fNAV_SOL_RES_USED 0, 1), (pNAV, fNAV_SOL_RES_CH 0, 4), (pCH 4,
     fSCH_MEAS_STAT_VALID, 1)] rs), by decide +kernel⟩,
   ⟨.host, rs, by decide +kernel⟩⟩

theorem witness_IntegrityMonitor :
    (∃ (s : State), pageOn s pINT = true) ∧
    (∃ (s : State), pageOn s pINT = true) ∧
    (∃ (s : State), pageEn s pINT = true ∧ pageOn s pINT = true) ∧
    (∃ (sys : Fin 4) (prn : Nat) (s : State), isExcluded s sys prn = true) ∧
    (∃ (r : Requester) (v : Word) (s : State), writable s r pINT = true ∧ fINTM_EXCL_CMD_SET.of v.toNat = 1) ∧
    (∃ (r : Requester) (v : Word) (s : State), writable s r pINT = true ∧ fINTM_EXCL_CMD_SET.of v.toNat = 0 ∧
      fINTM_EXCL_CMD_CLR.of v.toNat = 1) ∧
    (∃ (r : Requester) (v : Word) (s : State), writable s r pINT = true ∧ fINTM_CTRL_FORCE_SUSPECT.of v.toNat = 1) ∧
    (∃ (r : Requester) (v : Word) (s : State), writable s r pINT = true ∧ fINTM_CTRL_CLEAR.of v.toNat = 1 ∧
      fINTM_CTRL_FORCE_SUSPECT.of v.toNat = 0) ∧
    (∃ (t0 : Nat) (s : State), s.rad.mon.quietFrom = some t0 ∧ suspect s = true ∧ pageEn s pINT = true ∧ flag s pINT
      fINTM_CFG_CLEAR_MANUAL = false) :=
  ⟨⟨fl [(pINT, fINTM_VIEW_AGE_MS, 5)] rs, by decide +kernel⟩,
   ⟨fl [(pINT, fINTM_VIEW_AGE_MS, 5)] rs, by decide +kernel⟩,
   ⟨updMon (fl [(pINT, fPAGE_CTRL_EN, 1), (pINT, fINTM_EXCL_CFG_EXCL_MAX, 1)] rs) fun m =>
     { m with excl := [(0, 1, 5), (0, 2, 5)] }, by decide +kernel⟩,
   ⟨0, 2, updMon rs fun m => { m with excl := [(0, 1, 5), (0, 2, 5)] }, by decide +kernel⟩,
   ⟨.host, 0x10501#32, rs, by decide +kernel⟩,
   ⟨.host, 0x20501#32, updMon rs fun m => { m with excl := [(1, 5, 5), (0, 2, 5)] }, by decide +kernel⟩,
   ⟨.host, 1#32, rs, by decide +kernel⟩,
   ⟨.host, 2#32, updMon (fl [(pINT, fINTM_STAT_SUSPECT, 1), (pINT, fINTM_CFG_CLEAR_MANUAL, 1)]
     { rs with clk := ⟨0xFFFFFFFFFFFFFFFF, 0, 0⟩ }) fun m => { m with quietFrom := some 5 }, by decide +kernel⟩,
   ⟨5, updMon (fl [(pINT, fINTM_STAT_SUSPECT, 1), (pINT, fPAGE_CTRL_EN, 1)] rs) fun m =>
     { m with quietFrom := some 5 }, by decide +kernel⟩⟩

theorem witness_AnswerTablesAndView :
    (∃ (r : Requester) (d : Fin 4) (s : State), writable s r (pANS d) = true ∧ flag s (pANS d) fANS_TAB_CMD_BUSY =
      false) ∧
    (∃ (r : Requester) (d : Fin 4) (idx : Fin 128) (s : State), writable s r (pANS d) = true ∧ flag s (pANS d)
      fANS_TAB_CMD_BUSY = false ∧ idx.val ≤ 63) ∧
    (∃ (r : Requester) (d : Fin 4) (idx : Fin 128) (s : State), writable s r (pANS d) = true ∧ flag s (pANS d)
      fANS_TAB_CMD_BUSY = false ∧ 63 < idx.val) ∧
    (∃ (r : Requester) (d : Fin 4) (idx : Fin 128) (addr : Bool) (s : State), Shaped s ∧ writable s r (pANS d) = true
      ∧ flag s (pANS d) fANS_TAB_CMD_BUSY = false ∧ tabRefused idx addr = false) ∧
    (∃ (d : Fin 4) (addr : Bool) (idx : Nat) (e : List Nat) (s : State), Shaped s ∧ (pd s d).tabWait = some (addr,
      idx, e)) ∧
    (∃ (d : Fin 4) (s : State), Shaped s ∧ pageOn s (pANS d) = true) ∧
    (∃ (d : Fin 4) (v : View × Nat) (s : State), (pd s d).view = some v ∧ flag s (pANS d) fANS_STAT_VIEW_STALE = false
      ∧ pageOn s (pANS d) = true) ∧
    (∃ (d : Fin 4) (s : State), Shaped s ∧ pageOn s (pANS d) = true) :=
  ⟨⟨.host, 1, updPd rs 1 fun x => { x with addr := [(9, [1, 2, 3, 4, 5])] }, by decide +kernel⟩,
   ⟨.host, 1, 9, updPd rs 1 fun x => { x with vlan := [(9, 77)] }, by decide +kernel⟩,
   ⟨.host, 1, 64, updPd rs 1 fun x => { x with vlan := [(9, 77)] }, by decide +kernel⟩,
   ⟨.host, 1, 64, true, rg [(pANS 1, rANS_TAB_DATA 2, 5)] rs, shaped_of (by decide +kernel), by decide +kernel⟩,
   ⟨1, true, 64, [1, 2, 3, 4, 5], updPd (fl [(pANS 1, fANS_TAB_CMD_BUSY, 1)] rs) 1 fun x =>
     { x with tabWait := some (true, 64, [1, 2, 3, 4, 5]) }, shaped_of (by decide +kernel), by decide +kernel⟩,
   ⟨1, fl [(pANS 1, fANS_STAT_VIEW_STALE, 1)] rs, shaped_of (by decide +kernel), by decide +kernel⟩,
   ⟨1, (rs.dsc.view, 5), updPd (fl [(pANS 1, fANS_STAT_VIEW_STALE, 0)] rs) 1 fun x =>
     { x with view := some (rs.dsc.view, 5) }, by decide +kernel⟩,
   ⟨1, rs, shaped_of (by decide +kernel), by decide +kernel⟩⟩

theorem witness_NtpAnswers :
    (∃ (d : Fin 4) (i : Fin 8) (q : NtpReq) (l : List NtpReq) (s : State), Shaped s ∧ nextQueue s d = some i.val ∧
      (port s d i).queue = q :: l ∧ q.bad = false ∧ tooOld s d q = true) ∧
    (∃ (d : Fin 4) (i : Fin 8) (q : NtpReq) (l : List NtpReq) (s : State), Shaped s ∧ nextQueue s d = some i.val ∧
      (port s d i).queue = q :: l ∧ q.bad = false ∧ tooOld s d q = false ∧ ansForm s d = 3) ∧
    (∃ (d : Fin 4) (i : Fin 8) (grid : Nat) (q : NtpReq) (l : List NtpReq) (s : State), Shaped s ∧ nextQueue s d =
      some i.val ∧ (port s d i).queue = q :: l ∧ q.bad = false ∧ q.nts = false ∧ tooOld s d q = false ∧ ansForm s d ≠
      3 ∧ perturbed s (4 + d) = false ∧ (replica s (2 + d)).ofs = 0 ∧ rateFree s d (rateClass s d q.v6 q.src) = true ∧
      bookWhy s d i (nowP s d) (nowP s d + get s (pANS d) fANS_LAUNCH_LEAD_PLAIN * 65536) grid false (ntpLen q 48) =
      0) ∧
    (∃ (d : Fin 4) (i : Nat) (q : NtpReq) (l : List SivJob) (s : State), Shaped s ∧ (pd s d).siv = .nak i q :: l) ∧
    (∃ (d : Fin 4) (i : Fin 8) (l : List SivJob) (b : Booking) (q : NtpReq) (h : NtpHead) (w : NtsWork) (mk :
      MasterKey) (s : State), Shaped s ∧ (pd s d).siv = .answer i b.no :: l ∧ ((port s d i).books.find? fun x => x.no
      == b.no) = some b ∧ b.by' = .nts q h w ∧ b.late = false ∧ mintKey s d = some mk) :=
  ⟨⟨1, 3, ⟨5, 6, 0, 0, false, 7, 8, 9, List.replicate 48 0x23, false, false⟩, [], updPort
    { rs with clk := ⟨0xFFFFFFFFFFF, 0, 0⟩ } 1 3 fun x =>
    { x with queue := [⟨5, 6, 0, 0, false, 7, 8, 9, List.replicate 48 0x23, false, false⟩] }, shaped_of
    (by decide +kernel), by decide +kernel⟩,
   ⟨1, 3, ⟨5, 6, 0, 0, false, 7, 8, 9, List.replicate 48 0x23, false, false⟩, [], updPort
     { rs with clk := ⟨0xF, 0, 0⟩ } 1 3 fun x =>
     { x with queue := [⟨5, 6, 0, 0, false, 7, 8, 9, List.replicate 48 0x23, false, false⟩] }, shaped_of
     (by decide +kernel), by decide +kernel⟩,
   ⟨2, 5, 7, ⟨5, 6, 0, 0, false, 7, 8, 9, List.replicate 48 0x23, false, false⟩, [], updPort (updPd
     { rg [(pHubDie, rDIE_DEV_FEAT_ACK 0, 2)] (fl [(pHubDie, fDIE_FEAT_CTRL_COMMITTED, 1), (pLCH 2, fPAGE_CTRL_EN, 1), (pTSU 2 5, fPAGE_CTRL_EN, 1), (pTSU 2 5, fTSU_STAT_CAL_OK, 1), (pMAC 2 5, fMAC_CFG_MODE, 2), (pMAC 2 5, fMAC_STAT_LINK, 1)] rs) with clk := ⟨0xF, 0, 0⟩, tb := { rs.tb with replicas := upd rs.tb.replicas 4 fun x => { x with locked := true } } }
     2 fun x => { x with safe := false, view := some ({ rs.dsc.view with timeSet := true, utc := 0x80000025 }, 0) }) 2
     5 fun x => { x with queue := [⟨5, 6, 0, 0, false, 7, 8, 9, List.replicate 48 0x23, false, false⟩] }, shaped_of
     (by decide +kernel), by decide +kernel⟩,
   ⟨1, 3, ⟨5, 6, 0, 0, false, 7, 8, 9, List.replicate 48 0x23, true, false⟩, [], updPd rs 1 fun x =>
     { x with siv := [.nak 3 ⟨5, 6, 0, 0, false, 7, 8, 9, List.replicate 48 0x23, true, false⟩] }, shaped_of
     (by decide +kernel), by decide +kernel⟩,
   ⟨1, 3, [], ⟨4, .nts ⟨5, 6, 0, 0, false, 7, 8, 9, List.replicate 48 0x23, true, false⟩ ⟨List.replicate 16 0, none⟩
     ⟨15, List.replicate 32 1, List.replicate 32 2, List.replicate 32 3, 1, []⟩, 300, 5, 900000, 999999, none, 0,
     false, false, false, false⟩, ⟨5, 6, 0, 0, false, 7, 8, 9, List.replicate 48 0x23, true, false⟩, ⟨List.replicate
     16 0, none⟩, ⟨15, List.replicate 32 1, List.replicate 32 2, List.replicate 32 3, 1, []⟩, ⟨3, List.replicate 32 7,
     2, 0⟩, updPort (updPd (fl [(pSIV 1, fPAGE_CTRL_EN, 1)] rs) 1 fun x =>
     { x with siv := [.answer 3 4], keys := [⟨3, List.replicate 32 7, 2, 0⟩] }) 1 3 fun x =>
     { x with books := [⟨4, .nts ⟨5, 6, 0, 0, false, 7, 8, 9, List.replicate 48 0x23, true, false⟩ ⟨List.replicate 16 0, none⟩ ⟨15, List.replicate 32 1, List.replicate 32 2, List.replicate 32 3, 1, []⟩, 300, 5, 900000, 999999, none, 0, false, false, false, false⟩] },
     shaped_of (by decide +kernel), by decide +kernel⟩⟩

theorem witness_DieTables :
    (∃ (r : Requester) (d : Fin 4) (s : State), Shaped s ∧ writable s r (pTBL d) = true) ∧
    (∃ (d : Fin 4) (s : State), Shaped s ∧ (pd s d).flushing = true) ∧
    (∃ (d : Fin 4) (s : State), Shaped s ∧ pageOn s (pTBL d) = true ∧ pageEn s (pTBL d) = true ∧ get s (pTBL d)
      fTBL_SCRUB_INTERVAL ≠ 0 ∧ (pd s d).rateBad.contains (pd s d).scrub = false) ∧
    (∃ (d : Fin 4) (s : State), Shaped s ∧ pageOn s (pTBL d) = true ∧ pageEn s (pTBL d) = true ∧ get s (pTBL d)
      fTBL_SCRUB_INTERVAL ≠ 0) ∧
    (∃ (d : Fin 4) (s : State), Shaped s ∧ pageOn s (pTBL d) = true ∧ pageEn s (pTBL d) = true ∧ get s (pTBL d)
      fTBL_SCRUB_INTERVAL ≠ 0 ∧ flag s (pTBL d) fTBL_SES_CFG_SCRUB_EN = true) ∧
    (∃ (d : Fin 4) (ses : Bool) (s : State), doubts s (pTBL d) (if ses then 8 else 0) = true) ∧
    (∃ (d : Fin 4) (s : State), Shaped s ∧ pageOn s (pTBL d) = true ∧ pageEn s (pTBL d) = true ∧ islandSecret s =
      true) ∧
    (∃ (r : Requester) (d : Fin 4) (s : State), writable s r (pTBL d) = true) ∧
    (∃ (r : Requester) (d : Fin 4) (s : State), Shaped s ∧ writable s r (pTBL d) = true) ∧
    (∃ (r : Requester) (d : Fin 4) (idx : Fin 4096) (e : Session) (s : State), writable s r (pTBL d) = true ∧ amGet?
      idx.val (pd s d).ses = some e) ∧
    (∃ (r : Requester) (d : Fin 4) (e : Session) (s : State), Shaped s ∧ writable s r (pTBL d) = true ∧ sessionOf
      ((List.range 32).flatMap fun k => put8 4 (rdN s (pTBL d) (rTBL_SES_DATA k))) = some e) :=
  ⟨⟨.host, 1, updPd (fl [(pTBL 1, fTBL_USED_CNT, 1)] rs) 1 fun x => { x with rate := [(5, ⟨false, 1, 2, 3, none⟩)] },
    shaped_of (by decide +kernel), by decide +kernel⟩,
   ⟨1, updPd (fl [(pTBL 1, fTBL_STAT_FLUSHING, 1)] rs) 1 fun x => { x with flushing := true }, shaped_of
     (by decide +kernel), by decide +kernel⟩,
   ⟨1, updPd (fl [(pTBL 1, fPAGE_CTRL_EN, 1), (pTBL 1, fTBL_SCRUB_INTERVAL, 64)] rs) 1 fun x =>
     { x with scrub := 32767 }, shaped_of (by decide +kernel), by decide +kernel⟩,
   ⟨1, updPd (fl [(pTBL 1, fPAGE_CTRL_EN, 1), (pTBL 1, fTBL_SCRUB_INTERVAL, 64)] rs) 1 fun x =>
     { x with scrub := 2, rate := [(5, ⟨false, 1, 2, 3, none⟩)] }, shaped_of (by decide +kernel), by decide +kernel⟩,
   ⟨1, updPd (fl [(pTBL 1, fPAGE_CTRL_EN, 1), (pTBL 1, fTBL_SCRUB_INTERVAL, 64), (pTBL 1, fTBL_SES_CFG_SCRUB_EN, 1)]
     rs) 1 fun x => { x with sesScrub := 8191 }, shaped_of (by decide +kernel), by decide +kernel⟩,
   ⟨1, true, rg [(pTBL 1, rDOUBT_RAW, 0x101)] rs, by decide +kernel⟩,
   ⟨1, fl [(pTBL 1, fPAGE_CTRL_EN, 1), (pKEY, fKEY_STAT_DRBG_OK, 1)] rs, shaped_of (by decide +kernel),
     by decide +kernel⟩,
   ⟨.host, 1, updPd rs 1 fun x => { x with pfx := [(5, [1, 2, 3, 4, 5])] }, by decide +kernel⟩,
   ⟨.host, 1, rg [(pTBL 1, rTBL_PFX_ADDR 2, 9)] rs, shaped_of (by decide +kernel), by decide +kernel⟩,
   ⟨.host, 1, 5, ⟨true, false, false, 1, 2, 3, 4, 5, 6, 7, 8, 9, Grant.none, Grant.none, Grant.none, 0, 0, 0⟩, updPd
     rs 1 fun x =>
     { x with ses := [(5, ⟨true, false, false, 1, 2, 3, 4, 5, 6, 7, 8, 9, Grant.none, Grant.none, Grant.none, 0, 0, 0⟩)] },
     by decide +kernel⟩,
   ⟨.host, 1, ⟨false, false, false, 0, 0, 5, 0, 0, 0, 0, 0, 0, Grant.none, Grant.none, Grant.none, 0, 0, 0⟩, rg [(pTBL
     1, rTBL_SES_DATA 0, 0x10005)] rs, shaped_of (by decide +kernel), by decide +kernel⟩⟩

theorem witness_MasterKeys :
    (∃ (s : State), mayGenerate s = true ∧ drbgOk s = true ∧ s.kisl.keys = [] ∧ 0 < get s pKEY fKEY_RETAIN_COUNT) ∧
    (∃ (r : Requester) (k : MasterKey) (l : List MasterKey) (s : State), writable s r pKEY = true ∧ keyUpstream s =
      false ∧ drbgOk s = true ∧ feat s 0 = true ∧ stagedKey s = none ∧ (activeKey s).isSome = true ∧ s.kisl.keys = l
      ++ [k]) ∧
    (∃ (k : MasterKey) (l : List MasterKey) (s : State), s.kisl.keys = l ++ [k] ∧ k.st = 1 ∧ keyOn s = true ∧ 0 < get
      s pKEY fKEY_RETAIN_COUNT) ∧
    (∃ (r : Requester) (s : State), writable s r pKEY = true ∧ keyUpstream s = false ∧ drbgOk s = true ∧ feat s 0 =
      true ∧ 0 < get s pKEY fKEY_RETAIN_COUNT) ∧
    (∃ (s : State), keyOn s = true) ∧
    (∃ (s : State), keyOn s = true ∧ drbgOk s = false ∧ s.kisl.postponed = false) :=
  ⟨⟨rg [(pHubDie, rDIE_DEV_FEAT_ACK 0, 1)] (fl [(pHubDie, fDIE_FEAT_CTRL_COMMITTED, 1), (pKEY, fPAGE_CTRL_EN, 1),
    (pKEY, fKEY_STAT_DRBG_OK, 1)] rs), by decide +kernel⟩,
   ⟨.host, ⟨5, [1], 2, 0⟩, [],
     { rg [(pHubDie, rDIE_DEV_FEAT_ACK 0, 1)] (fl [(pHubDie, fDIE_FEAT_CTRL_COMMITTED, 1), (pKEY, fPAGE_CTRL_EN, 1), (pKEY, fKEY_STAT_DRBG_OK, 1)] rs) with kisl := { rs.kisl with keys := [⟨5, [1], 2, 0⟩] } },
     by decide +kernel⟩,
   ⟨⟨6, [1], 1, 70⟩, [⟨3, [1], 3, 0⟩, ⟨4, [1], 3, 0⟩, ⟨5, [1], 2, 0⟩],
     { fl [(pKEY, fKEY_RETAIN_COUNT, 2)] rs with kisl := { rs.kisl with keys := [⟨3, [1], 3, 0⟩, ⟨4, [1], 3, 0⟩, ⟨5, [1], 2, 0⟩, ⟨6, [1], 1, 70⟩] } },
     by decide +kernel⟩,
   ⟨.host,
     { rg [(pHubDie, rDIE_DEV_FEAT_ACK 0, 1)] (fl [(pHubDie, fDIE_FEAT_CTRL_COMMITTED, 1), (pKEY, fPAGE_CTRL_EN, 1), (pKEY, fKEY_STAT_DRBG_OK, 1)] rs) with kisl := { rs.kisl with keys := [⟨5, [1], 2, 0⟩] } },
     by decide +kernel⟩,
   ⟨fl [(pKEY, fKEY_STAT_DRBG_OK, 1)] rs, by decide +kernel⟩,
   ⟨fl [(pKEY, fKEY_STAT_DRBG_OK, 0)] rs, by decide +kernel⟩⟩

theorem witness_KeyTransfersAndMinting :
    (∃ (d : Fin 4) (m : CrossMsg) (s : State), Shaped s ∧ s.kisl.cross.find? (fun m => m.die == d.val) = some m ∧
      pdeIsOn s d = true ∧ m.seq = (pd s d).crossSeq) ∧
    (∃ (d : Fin 4) (m : CrossMsg) (ok : Bool) (s : State), s.kisl.cross.find? (fun m => m.die == d.val) = some m ∧
      pdeIsOn s d = true ∧ (ok = false ∨ m.seq ≠ (pd s d).crossSeq)) ∧
    (∃ (i : Fin 20) (m : CrossMsg) (s : State), i.val < 4 ∧ s.kisl.cross.find? (fun m => m.die == i.val) = some m) ∧
    (∃ (i : Fin 20) (n id : Nat) (b : List Byte) (s : State), Shaped s ∧ 4 ≤ i.val ∧ (peer s ((i.val - 4) / 4) ((i.val
      - 4) % 4)).again = some (n, id, b) ∧ n < 3) ∧
    (∃ (d : Fin 4) (s : State), doubts s (pSIV d) 1 = true) ∧
    (∃ (s : State), distStands s = true) ∧
    (∃ (d : Fin 4) (t0 : Nat) (s : State), pdeIsOn s d = true ∧ (pd s d).lackFrom = some t0 ∧ t0 + 10000000 ≤ mono s)
      ∧
    (∃ (due : Nat) (s : State), upDue s = some due ∧ keyUpstream s = true ∧ keyOn s = true) ∧
    (∃ (h : Fin 6) (s : State), writable s (.hart h) pKEY = true) ∧
    (∃ (j : MintJob) (mk : MasterKey) (s : State), s.kisl.mint = some j ∧ activeKey s = some mk ∧ pageRetained s pKEY
      = false) :=
  ⟨⟨1, ⟨1, 0, [⟨5, [1], 2, 0⟩], 0⟩, { rs with kisl := { rs.kisl with cross := [⟨1, 0, [⟨5, [1], 2, 0⟩], 0⟩] } },
    shaped_of (by decide +kernel), by decide +kernel⟩,
   ⟨1, ⟨1, 0, [⟨5, [1], 2, 0⟩], 0⟩, false,
     { rs with kisl := { rs.kisl with cross := [⟨1, 0, [⟨5, [1], 2, 0⟩], 0⟩] } }, by decide +kernel⟩,
   ⟨1, ⟨1, 0, [⟨5, [1], 2, 0⟩], 3⟩, { rs with kisl := { rs.kisl with cross := [⟨1, 0, [⟨5, [1], 2, 0⟩], 3⟩] } },
     by decide +kernel⟩,
   ⟨9, 1, 5, [1, 2], updPeer rs 1 1 fun p => { p with again := some (1, 5, [1, 2]) }, shaped_of (by decide +kernel),
     by decide +kernel⟩,
   ⟨1, rg [(pSIV 1, rDOUBT_RAW, 3)] rs, by decide +kernel⟩,
   ⟨{ rs with clk := ⟨0xFFFFFFFFFFFF, 0, 0⟩, kisl := { rs.kisl with keys := [⟨5, [1], 2, 0⟩] } }, by decide +kernel⟩,
   ⟨1, 0, { rs with clk := ⟨0xFFFFFFFFFFFF, 0, 0⟩ }, by decide +kernel⟩,
   ⟨60000000005, { fl [(pKEY, fKEY_CFG_SRC, 1)] rs with kisl := { rs.kisl with upFrom := some 5 } },
     by decide +kernel⟩,
   ⟨0,
     { fl [(pKEY, fKEY_MINT_PTR_ADDR, 0x400000), (pKEY, fKEY_CFG_AEAD_EN, 1)] rs with core := [(0x10000000, 15), (0x10000002, 2), (0x10000012, 9)], kisl := { rs.kisl with keys := [⟨5, [1], 2, 0⟩] } },
     by decide +kernel⟩,
   ⟨⟨0x1000000, 15, 1, List.replicate 32 1, List.replicate 32 2⟩, ⟨5, List.replicate 32 1, 2, 0⟩,
     { rs with kisl := { rs.kisl with keys := [⟨5, List.replicate 32 1, 2, 0⟩], mint := some ⟨0x1000000, 15, 1, List.replicate 32 1, List.replicate 32 2⟩ } },
     by decide +kernel⟩⟩

theorem witness_PtpTables :
    (∃ (r : Requester) (d : Fin 4) (s : State), writable s r (pPTE d) = true) ∧
    (∃ (r : Requester) (d : Fin 4) (s : State), Shaped s ∧ writable s r (pPTE d) = true) ∧
    (∃ (r : Requester) (d : Fin 4) (s : State), writable s r (pPTE d) = true) ∧
    (∃ (r : Requester) (d : Fin 4) (s : State), Shaped s ∧ writable s r (pPTE d) = true) ∧
    (∃ (r : Requester) (d : Fin 4) (v : Word) (s : State), writable s r (pPTE d) = true ∧ pageLocked s (pPTE d) =
      false ∧ v.getLsbD 0 = true) ∧
    (∃ (d : Fin 4) (s : State), doubts s (pPTE d) 1 = true) :=
  ⟨⟨.host, 2, inst21 rdy, by decide +kernel⟩,
   ⟨.host, 2, rg [(pPTE 2, rPTE_INST_DATA 1, 6)] rdy, shaped_of (by decide +kernel), by decide +kernel⟩,
   ⟨.host, 2, updPd rdy 2 fun x => { x with ptp := { x.ptp with sas := [(3, ([5, 6], [7]))] } }, by decide +kernel⟩,
   ⟨.host, 2, rg [(pPTE 2, rPTE_SA_KEY 1, 6)] rdy, shaped_of (by decide +kernel), by decide +kernel⟩,
   ⟨.host, 2, 0x4E1#32, rdy, by decide +kernel⟩,
   ⟨2, rg [(pPTE 2, rDOUBT_RAW, 3)] rs, by decide +kernel⟩⟩

theorem witness_PtpTimers :
    (∃ (d : Fin 4) (n : Fin 32) (s : State), Shaped s ∧ instServes s d n = true ∧ entryBits (instEntry s d n) 0 7 1 =
      1) ∧
    (∃ (d : Fin 4) (n : Fin 32) (s : State), Shaped s ∧ instServes s d n = true ∧ entryBits (instEntry s d n) 0 7 1 =
      1 ∧ portMode s d (instPort n) ≠ 0 ∧ linkUp s d (instPort n) = true ∧ lchOn s d = true) ∧
    (∃ (d : Fin 4) (n : Fin 32) (s : State), Shaped s ∧ instOn s d n = true ∧ ((instRun s d n).better || (instRun s d
      n).passive) = true ∧ (instRun s d n).foreign = []) ∧
    (∃ (d : Fin 4) (i : Fin 8) (as : Bool) (dom : Nat) (dest : PtpTo) (sa : Option Nat) (s : State), Shaped s ∧ pteOn
      s d = true ∧ pteForm s d ≠ 3 ∧ initiator s d i = some (as, dom, dest, sa)) ∧
    (∃ (d : Fin 4) (i : Fin 8) (x : PdelayReq) (l : List PdelayReq) (s : State), Shaped s ∧ (pdelayOf s d i).reqs = x
      :: l ∧ x.got ≠ 1) ∧
    (∃ (d : Fin 4) (k : Fin 4096) (e : Session) (s : State), Shaped s ∧ amGet? k.val (pd s d).ses = some e ∧ e.static
      = false ∧ e.ann.on = true ∧ e.sync.on = false ∧ e.dresp.on = false ∧ (e.ann.exp + 1) * 1000 < 2 ^ 64) ∧
    (∃ (d : Fin 4) (r : Fin 2) (f : Foreign) (s : State), Shaped s ∧ (refOf s d r).masters = [f] ∧ (refOf s d
      r).follow = some f.pid ∧ (pd s d).ptp.refs.length = 2 ∧ refOn s d r = true ∧ refP2p s d r = false) ∧
    (∃ (d : Fin 4) (r : Fin 2) (f : Foreign) (s : State), Shaped s ∧ (refOf s d r).masters = [f] ∧ (refOf s d
      r).follow = some f.pid ∧ f.last + 3 * f.interval < 2 ^ 64 ∧ (pd s d).ptp.refs.length = 2) ∧
    (∃ (d : Fin 4) (r : Fin 2) (k : Fin 3) (s : State), Shaped s ∧ (pd s d).ptp.refs.length = 2 ∧ refOn s d r = true ∧
      flag s (pPTE d) (fPTE_RX_CFG_UNI r) = true ∧ (k.val ≠ 2 ∨ refP2p s d r = false) ∧ portMode s d (refPortNo s d r)
      ≠ 0 ∧ linkUp s d (refPortNo s d r) = true ∧ lchOn s d = true) :=
  ⟨⟨2, 21, inst21 rdy, shaped_of (by decide +kernel), by decide +kernel⟩,
   ⟨2, 21, inst21 rdy, shaped_of (by decide +kernel), by decide +kernel⟩,
   ⟨2, 21, updInst (inst21 rdy) 2 21 fun v => { v with passive := true }, shaped_of (by decide +kernel),
     by decide +kernel⟩,
   ⟨2, 5, false, 0, { mac := 0x0180C200000E, vid := 0, pcp := 0, l3 := 0, src := 0, dst := 0, peer := true }, none, fl
     [(pPTE 2, fPTE_BR_STAT_ON, 1), (pPTE 2, fPTE_BR_CFG_TC_MODE 0, 1), (pPTE 2, fPTE_BR_CFG_PORT_A 0, 21)] rdy,
     shaped_of (by decide +kernel), by decide +kernel⟩,
   ⟨2, 5, ⟨1, 2, 3, 0, none⟩, [], updPdelay rdy 2 5 fun p => { p with reqs := [⟨1, 2, 3, 0, none⟩], lost := 2 },
     shaped_of (by decide +kernel), by decide +kernel⟩,
   ⟨2, 5, ses21, updPd rdy 2 fun x => { x with ses := [(5, ses21)] }, shaped_of (by decide +kernel),
     by decide +kernel⟩,
   ⟨2, 0, fm, updRef (ref0 rdy) 2 0 fun x => { x with masters := [fm], follow := some fm.pid }, shaped_of
     (by decide +kernel), by decide +kernel⟩,
   ⟨2, 0, fm, updRef (ref0 rdy) 2 0 fun x => { x with masters := [fm], follow := some fm.pid }, shaped_of
     (by decide +kernel), by decide +kernel⟩,
   ⟨2, 0, 2, fl [(pPTE 2, fPTE_RX_CFG_UNI 0, 1)] (ref0 rdy), shaped_of (by decide +kernel), by decide +kernel⟩⟩

theorem witness_OutputsRun :
    (∃ (ch : Fin 14) (s : State), Shaped s ∧ outArmed s ch = true ∧ (outRun s ch).live = false) ∧
    (∃ (ch : Fin 14) (s : State), Shaped s ∧ (outRun s ch).high = true ∧ (outRun s ch).fall < 2 ^ 80) ∧
    (∃ (ch : Fin 14) (s : State), Shaped s ∧ (outRun s ch).high = false ∧ (outRun s ch).want = true ∧ (outRun s
      ch).live = true ∧ ownGrid s ch = true) ∧
    (∃ (q : Nat) (s : State), Shaped s ∧ s.mck.realign = some q ∧ q < 2 ^ 80) ∧
    (∃ (k : Fin 2) (s : State), Shaped s ∧ pageEn s pMCK = true ∧ todEn s k = true ∧ todStopped s k = false) :=
  ⟨⟨0, rg [(pMCK, rMCK_MCS_NUM 0, 10000000)] (fl [(pMCK, fPAGE_CTRL_EN, 1), (pMCK, fMCK_MCS_CFG_EN 0, 1), (pMCK,
    fMCK_MCS_CFG_DEN 0, 1), (pMCK, fMCK_MCS_CFG_GATE 0, 2)] rs), shaped_of (by decide +kernel), by decide +kernel⟩,
   ⟨5, { rs with mck := { rs.mck with outs := upd rs.mck.outs 5 fun o => { o with high := true, fall := 900 } } },
     shaped_of (by decide +kernel), by decide +kernel⟩,
   ⟨1,
     { rg [(pMCK, rMCK_MCS_NUM 1, 10000000)] (fl [(pMCK, fPAGE_CTRL_EN, 1), (pMCK, fMCK_MCS_CFG_EN 1, 1), (pMCK, fMCK_MCS_CFG_DEN 1, 1), (pMCK, fMCK_MCS_CFG_GATE 1, 2)] rs) with mck := { rs.mck with outs := upd rs.mck.outs 1 fun o => { o with want := true, live := true, start := secU } } },
     shaped_of (by decide +kernel), by decide +kernel⟩,
   ⟨500,
     { rs with clk := ⟨100, 0, 65536⟩, mck := { rs.mck with realign := some 500, outs := upd rs.mck.outs 1 fun o => { o with want := true, live := true, start := secU } } },
     shaped_of (by decide +kernel), by decide +kernel⟩,
   ⟨1, fl [(pMCK, fPAGE_CTRL_EN, 1), (pMCK, fMCK_TOD_CFG_EN1, 1)] rs, shaped_of (by decide +kernel),
     by decide +kernel⟩⟩

theorem witness_CapturesAndReadback :
    (∃ (n : Fin 8) (falling : Bool) (s : State), Shaped s ∧ pageEn s pMCK = true ∧ capSelects s n falling = true ∧
      (capIn s n).last = none ∧ (capIn s n).fifo.length < 64) ∧
    (∃ (n : Fin 8) (falling : Bool) (s : State), Shaped s ∧ pageEn s pMCK = true ∧ capSelects s n falling = true ∧
      (capIn s n).last = none ∧ 64 ≤ (capIn s n).fifo.length) ∧
    (∃ (n : Fin 8) (at' l : PC64) (falling : Bool) (s : State), pageEn s pMCK = true ∧ capSelects s n falling = true ∧
      (capIn s n).last = some l ∧ pcDiff (BitVec.ofNat 64 (at'.toNat / 64 * 64)) l < 20 * 65536) ∧
    (∃ (s : State), Shaped s ∧ readable s pMCK = true) :=
  ⟨⟨6, true, fl [(pMCK, fPAGE_CTRL_EN, 1), (pMCK, fMCK_CAP_CFG_EDGE, 0xFFFF)] rs, shaped_of (by decide +kernel),
    by decide +kernel⟩,
   ⟨0, false,
     { fl [(pMCK, fPAGE_CTRL_EN, 1), (pMCK, fMCK_CAP_CFG_EDGE, 0xFFFF)] rs with mck := { rs.mck with caps := upd rs.mck.caps 0 fun c => { c with fifo := List.replicate 64 ⟨false, false, false, 0, 5, 5⟩ } } },
     shaped_of (by decide +kernel), by decide +kernel⟩,
   ⟨0, 1300000, 640, false,
     { fl [(pMCK, fPAGE_CTRL_EN, 1), (pMCK, fMCK_CAP_CFG_EDGE, 0xFFFF)] rs with mck := { rs.mck with caps := upd rs.mck.caps 0 fun c => { c with last := some 640 } } },
     by decide +kernel⟩,
   ⟨{ fl [(pMCK, fPAGE_CTRL_EN, 1)] (wrB rs 6 pMCK rMCK_CAP_SEL 3) with mck := { rs.mck with caps := upd rs.mck.caps 3 fun c => { c with fifo := [⟨true, false, true, 2, 5 , 7⟩, ⟨true, false, true, 2, 15 , 17⟩] } } },
     shaped_of (by decide +kernel), by decide +kernel⟩⟩

theorem witness_CueQueue :
    (∃ (r : Requester) (s : State), writable s r pMCK = true) ∧
    (∃ (r : Requester) (s : State), writable s r pMCK = true) ∧
    (∃ (r : Requester) (s : State), writable s r pMCK = true) ∧
    (∃ (e : CueEnt) (s : State), pageEn s pMCK = true ∧ nextFire s = some e) ∧
    (∃ (e : CueEnt) (s : State), pageEn s pMCK = true ∧ s.mck.cues.find? (fun e => e.type == 1 && !e.sent) = some e) ∧
    (∃ (slot gen port status : Nat) (l : List (Nat × Nat × Nat × Nat)) (e : CueEnt) (s : State), s.mck.cueDone =
      (slot, gen, port, status) :: l ∧ s.mck.cues.find? (fun e => e.slot == slot && e.gen == gen && e.sent && bitOf
      e.wait port) = some e) ∧
    (∃ (e : CueEnt) (p : Nat) (s : State), s.mck.cues.find? (fun e => e.type == 1 && e.sent) = some e ∧ (List.range
      32).find? (fun p => bitOf e.wait p) = some p) ∧
    (∃ (r : Requester) (s : State), writable s r pMCK = true) :=
  ⟨⟨.hart 1, wrB (wrB (fl [(pMCK, fPAGE_CTRL_EN, 1), (pMCK, fMCK_STAT_SAFE, 0)] rs) 1 pMCK (rMCK_CUE_DATA 0) 2) 1 pMCK
    (rMCK_CUE_DATA 1) 0x20000000, by decide +kernel⟩,
   ⟨.host, { rs with mck := { rs.mck with cues := [⟨3, 2, 2, 99, 0, 0, false, 0⟩, ⟨4, 2, 2, 99, 0, 0, false, 0⟩] } },
     by decide +kernel⟩,
   ⟨.host, { rs with mck := { rs.mck with cues := [⟨3, 2, 1, 99, 0, 0, true, 0⟩, ⟨4, 2, 2, 99, 0, 0, false, 0⟩] } },
     by decide +kernel⟩,
   ⟨⟨3, 2, 0x860, 0x90000, 5, 0, false, 0⟩,
     { fl [(pMCK, fPAGE_CTRL_EN, 1), (pMCK, fMCK_TOUT_CFG_MODE 0, 4)] rs with mck := { rs.mck with cues := [⟨3, 2, 0x860, 0x90000, 5, 0, false, 0⟩] } },
     by decide +kernel⟩,
   ⟨⟨3, 2, 1, 0x90000, 0x2004, 0, false, 0⟩,
     { fl [(pMCK, fPAGE_CTRL_EN, 1)] rs with mck := { rs.mck with cues := [⟨3, 2, 1, 0x90000, 0x2004, 0, false, 0⟩] } },
     by decide +kernel⟩,
   ⟨3, 2, 2, 4, [], ⟨3, 2, 1, 0x90000, 0x2004, 0, true, 4⟩,
     { rs with mck := { rs.mck with cueDone := [(3, 2, 2, 4)], cues := [⟨3, 2, 1, 0x90000, 0x2004, 0, true, 4⟩] } },
     by decide +kernel⟩,
   ⟨⟨3, 2, 1, 0x90000, 0x2004, 0, true, 0x2004⟩, 2,
     { rs with mck := { rs.mck with cues := [⟨3, 2, 1, 0x90000, 0x2004, 0, true, 0x2004⟩] } }, by decide +kernel⟩,
   ⟨.host, rs, by decide +kernel⟩⟩

theorem witness_TdcControl :
    (∃ (r : Requester) (s : State), writable s r pTDC = true) ∧
    (∃ (r : Requester) (s : State), writable s r pTDC = true ∧ (tdcArmed s = true ∨ tdcBusy s = true) ∧ (s.tdc.set.avg
      = 0 ∨ s.tdc.done = 0)) ∧
    (∃ (r : Requester) (s : State), writable s r pTDC = true ∧ s.tdc.set.avg ≠ 0 ∧ s.tdc.done ≠ 0 ∧ s.tdc.fifo.length
      + s.tdc.means.length ≤ 256) ∧
    (∃ (r : Requester) (s : State), writable s r pTDC = true) ∧
    (∃ (n : Nat) (s : State), s.tdc.rearm = some n ∧ n < 2 ^ 80) ∧
    (∃ (high : Bool) (s : State), pageEn s pTDC = true ∧ s.tdc.gateHigh = !high ∧ tdcArmed s = false ∧ tdcBusy s =
      false ∧ (tdcRegs s).arm = 1 ∧ (high != bitOf (tdcRegs s).cfg 4) = true ∧ armWhy s false = 0) ∧
    (∃ (high : Bool) (s : State), pageEn s pTDC = true ∧ s.tdc.gateHigh = !high ∧ tdcArmed s = true ∧ s.tdc.set.arm =
      1 ∧ (high == bitOf s.tdc.set.cfg 4) = true) ∧
    (∃ (r : Requester) (s : State), writable s r pTDC = true) ∧
    (∃ (s : State), pageEn s pTDC = true ∧ tdcCal s = false) ∧
    (∃ (s : State), pageEn s pTDC = true ∧ tdcCal s = true) :=
  ⟨⟨.host, fl [(pTDC, fPAGE_CTRL_EN, 1), (pTDC, fTDC_STAT_CAL_OK, 1)] rs, by decide +kernel⟩,
   ⟨.host, fl [(pTDC, fPAGE_CTRL_EN, 1), (pTDC, fTDC_STAT_ARMED, 1)] rs, by decide +kernel⟩,
   ⟨.host,
     { fl [(pTDC, fPAGE_CTRL_EN, 1), (pTDC, fTDC_STAT_ARMED, 1)] rs with tdc := { rs.tdc with set := { rs.tdc.set with cfg := 0x4000 }, done := 3, means := [⟨2, 3, 600, false, false⟩, ⟨3, 0, 0, false, false⟩] } },
     by decide +kernel⟩,
   ⟨.hart 0, { fl [(pTDC, fTDC_STAT_LVL, 1)] rs with tdc := { rs.tdc with fifo := [[1, 2, 3, 4, 5, 6]] } },
     by decide +kernel⟩,
   ⟨5000000, { rs with tdc := { rs.tdc with rearm := some 5000000 } }, by decide +kernel⟩,
   ⟨true, fl [(pTDC, fPAGE_CTRL_EN, 1), (pTDC, fTDC_STAT_CAL_OK, 1), (pTDC, fTDC_CFG_ARM, 1)] rs, by decide +kernel⟩,
   ⟨false,
     { fl [(pTDC, fPAGE_CTRL_EN, 1), (pTDC, fTDC_STAT_ARMED, 1)] rs with tdc := { rs.tdc with gateHigh := true, set := { rs.tdc.set with cfg := 0x10004 }, run := some ⟨none, [⟨2, none, [], false, false⟩], 0, 0⟩ } },
     by decide +kernel⟩,
   ⟨.host, rs, by decide +kernel⟩,
   ⟨fl [(pTDC, fPAGE_CTRL_EN, 1)] rs, by decide +kernel⟩,
   ⟨fl [(pTDC, fPAGE_CTRL_EN, 1), (pTDC, fTDC_STAT_CAL_OK, 1)] rs, by decide +kernel⟩⟩

theorem witness_TdcMeasures :
    (∃ (ch : Fin 10) (falling : Bool) (s : State), (pageEn s pTDC = false ∨ edgeFits (tdcSet s) ch falling = false)) ∧
    (∃ (ch : Fin 10) (at' l : PC64) (falling : Bool) (s : State), pageEn s pTDC = true ∧ ch.val < 8 ∧ edgeFits (tdcSet
      s) ch falling = true ∧ ix s.tdc.last ch none = some l ∧ pcDiff at' l * 10 < 1048576) ∧
    (∃ (ch : Fin 10) (falling : Bool) (r : TdcRun) (s : State), pageEn s pTDC = true ∧ ch.val < 8 ∧ edgeFits (tdcSet
      s) ch falling = true ∧ ix s.tdc.last ch none = none ∧ (tdcSet s).mode = 1 ∧ bitOf (tdcSet s).stop ch = true ∧
      s.tdc.run = some r ∧ s.tdc.fifo.length < 256) ∧
    (∃ (ch : Fin 10) (falling : Bool) (s : State), pageEn s pTDC = true ∧ ch.val < 8 ∧ edgeFits (tdcSet s) ch falling
      = true ∧ ix s.tdc.last ch none = none ∧ (tdcSet s).mode = 0 ∧ (tdcSet s).chans ≠ [] ∧ (tdcSet s).startCh =
      ch.val ∧ s.tdc.run = some (TdcRun.fresh (tdcSet s))) ∧
    (∃ (ch : Fin 10) (at' t0 : PC64) (falling order late : Bool) (n : Nat) (l : PC64) (s : State), pageEn s pTDC =
      true ∧ tdcBusy s = true ∧ ch.val < 8 ∧ edgeFits s.tdc.set ch falling = true ∧ ix s.tdc.last ch none = none ∧
      s.tdc.set.mode = 0 ∧ s.tdc.set.avg = 0 ∧ s.tdc.set.startCh ≠ ch.val ∧ s.tdc.run = some ⟨some t0, [⟨ch.val, none,
      [], order, late⟩], n, l⟩ ∧ s.tdc.fifo.length < 256 ∧ -64 < pcDiff (tdcStamp s s.tdc.set ch at') t0) ∧
    (∃ (r : TdcRun) (d : Int) (s : State), s.tdc.run = some r ∧ tdcDue s r = some d) ∧
    (∃ (s : State), readable s pTDC = true) ∧
    (∃ (r : Requester) (s : State), writable s r pTDC = true) ∧
    (∃ (s : State), flag s pTDC fTDC_RING_CMD_BUSY = true) ∧
    (∃ (n : Fin 36) (d : Fin 4) (i : Fin 8), n.val = 8 * d.val + i.val) ∧
    (∃ (n : Fin 36) (k : Fin 4) (s : State), Shaped s ∧ n.val = 32 + k.val ∧ askState s k = 4) :=
  ⟨⟨3, true, rs, by decide +kernel⟩,
   ⟨3, 77000, 5000, false,
     { fl [(pTDC, fPAGE_CTRL_EN, 1)] rs with tdc := { rs.tdc with last := rs.tdc.last.set 3 (some 5000) } },
     by decide +kernel⟩,
   ⟨3, false, ⟨none, [⟨3, none, [], false, false⟩], 0, 0⟩,
     { fl [(pTDC, fPAGE_CTRL_EN, 1), (pTDC, fTDC_STAT_ARMED, 1)] rs with tdc := { rs.tdc with set := { rs.tdc.set with cfg := 0x10001, stop := 8 }, run := some ⟨none, [⟨3, none, [], false, false⟩], 0, 0⟩ } },
     by decide +kernel⟩,
   ⟨1, false,
     { fl [(pTDC, fPAGE_CTRL_EN, 1), (pTDC, fTDC_STAT_ARMED, 1)] rs with tdc := { rs.tdc with set := { rs.tdc.set with cfg := 0x10100, stop := 8 }, run := some ⟨none, [⟨3, none, [], false, false⟩], 0, 0⟩ } },
     by decide +kernel⟩,
   ⟨3, 0x50000, 0x40000, false, false, false, 0, 0,
     { fl [(pTDC, fPAGE_CTRL_EN, 1), (pTDC, fTDC_STAT_BUSY, 1)] rs with tdc := { rs.tdc with set := { rs.tdc.set with cfg := 0x10100, stop := 8 }, run := some ⟨some 0x40000, [⟨3, none, [], false, false⟩], 0, 0⟩ } },
     by decide +kernel⟩,
   ⟨⟨some 0x40000, [⟨3, none, [], false, false⟩], 0, 0⟩, 0x40000 + 65536000 * 1000,
     { fl [(pTDC, fPAGE_CTRL_EN, 1), (pTDC, fTDC_STAT_BUSY, 1)] rs with tdc := { rs.tdc with set := { rs.tdc.set with cfg := 0x10100, stop := 8 }, run := some ⟨some 0x40000, [⟨3, none, [], false, false⟩], 0, 0⟩ } },
     by decide +kernel⟩,
   ⟨{ rs with tdc := { rs.tdc with fifo := [[1, 2, 3, 4, 5, 6], [7, 8]] } }, by decide +kernel⟩,
   ⟨.host, rs, by decide +kernel⟩,
   ⟨fl [(pTDC, fTDC_RING_CMD_BUSY, 1), (pTDC, fTDC_RING_CMD_LANE, 9)] rs, by decide +kernel⟩,
   ⟨13, 1, 5, by decide +kernel⟩,
   ⟨34, 2, fl [(pASK 2, fASK_STAT_STATE, 4)] rs, shaped_of (by decide +kernel), by decide +kernel⟩⟩

theorem witness_PkeSlots :
    (∃ (r : Requester) (s : State), writable s r pPKE = true) ∧
    (∃ (r : Requester) (s : State), writable s r pPKE = true) ∧
    (∃ (r : Requester) (s : State), writable s r pPKE = true) ∧
    (∃ (r : Requester) (s : State), writable s r pPKE = true) ∧
    (∃ (r : Requester) (s : State), writable s r pPKE = true) ∧
    (∃ (r : Requester) (o : SlotOp) (s : State), s.pke.ops.find? (fun o => o.q == reqCode r) = some o) :=
  ⟨⟨.host, { rs with pke := { rs.pke with owners := [(2050, 3)], vals := [(2050, 9), (2400, 7)] } },
    by decide +kernel⟩,
   ⟨.host, fl [(pPKE, fPKE_CFG_HOST_EN, 1)] rs, by decide +kernel⟩,
   ⟨.hart 2, { rg [(pCPU, rCPU_APP_WR, 0xFFFFFFFF)] rs with pke := { rs.pke with owners := [(100, 3)] } },
     by decide +kernel⟩,
   ⟨.hart 1, { rs with pke := { rs.pke with owners := [(100, 3)] } }, by decide +kernel⟩,
   ⟨.hart 1, { rs with pke := { rs.pke with owners := [(100, 3)] } }, by decide +kernel⟩,
   ⟨.hart 1, ⟨1, 3, 100, 2, 0, 3⟩,
     { rs with pke := { rs.pke with owners := [(100, 3), (101, 3), (102, 3)], vals := [(100, 77)], ops := [⟨1, 3, 100, 2, 0, 3⟩] } },
     by decide +kernel⟩⟩

theorem witness_PkeJobs :
    (∃ (r : Requester) (l : Fin 16) (s : State), Shaped s ∧ writable s r (pPKEL l) = true) ∧
    (∃ (r : Requester) (l : Fin 16) (a o : Nat) (s : State), Shaped s ∧ (lane s l).copies.find? (fun c => c.1 ==
      reqCode r) = some (reqCode r, a, o)) ∧
    (∃ (l : Fin 16) (j : PkeJob) (s : State), Shaped s ∧ laneRuns s l = true ∧ (lane s l).run = some j ∧ j.cmds.length
      ≤ j.done + 1) ∧
    (∃ (l : Fin 16) (j : PkeJob) (m k : Nat) (s : State), Shaped s ∧ laneRuns s l = true ∧ (lane s l).run = some j ∧
      flag s pPKE fPKE_YIELD_CFG_YIELD_EN = false ∧ j.done + 1 < j.cmds.length ∧ cmdOp (ix j.cmds j.done 0) = 4 ∧ ix
      j.mods (cmdSel (ix j.cmds j.done 0)) none = some (m, k) ∧ m % 2 = 1 ∧ 3 ≤ m) ∧
    (∃ (l : Fin 16) (j : PkeJob) (s : State), Shaped s ∧ laneRuns s l = true ∧ (lane s l).run = some j ∧ cmdOp (ix
      j.cmds j.done 0) = 7 ∧ yields s l j = true) ∧
    (∃ (r : Requester) (l : Fin 16) (ticket : BitVec 8) (j : PkeJob) (s : State), Shaped s ∧ writable s r (pPKEL l) =
      true ∧ (lane s l).jobs.find? (fun j => j.ticket == ticket.toNat) = some j) ∧
    (∃ (l : Fin 16) (s : State), Shaped s ∧ (lane s l).test = true ∧ laneRuns s l = true) :=
  ⟨⟨.hart 0, 3, wrB (fl [(pPKE, fPAGE_CTRL_EN, 1), (pPKEL 3, fPAGE_CTRL_EN, 1), (pPKEL 3, fPKEL_STAT_READY, 1)] rs) 0
    (pPKEL 3) rPKEL_JOB_PTR 0x10000000, shaped_of (by decide +kernel), by decide +kernel⟩,
   ⟨.hart 0, 3, 0x10000000, 1, updLane
     { rs with core := [(0x10000000, 1), (0x10000042, 16), (0x10000047, 0x90)], pke := { rs.pke with owners := [(1, 1)] } }
     3 fun x => { x with copies := [(0, 0x10000000, 1)], next := 255 }, shaped_of (by decide +kernel),
     by decide +kernel⟩,
   ⟨3, ⟨7, 1, 0x10000000, [0x9000001000000000], [], [], [none, none], 0, 0, 8, 0, 0, 0⟩, updLane (fl [(pPKE,
     fPAGE_CTRL_EN, 1), (pPKEL 3, fPAGE_CTRL_EN, 1)]
     { rs with pke := { rs.pke with owners := [(1, 1)], vals := [(1, 5)] } }) 3 fun x =>
     { x with run := some ⟨7, 1, 0x10000000, [0x9000001000000000], [], [], [none, none], 0, 0, 8, 0, 0, 0⟩ },
     shaped_of (by decide +kernel), by decide +kernel⟩,
   ⟨3, ⟨7, 1, 0x10000000, [0x4000001001002000, 0x9000001000000000], [], [], [some (13, 256), none], 0, 0, 8, 0, 5, 4⟩,
     13, 256, updLane (fl [(pPKE, fPAGE_CTRL_EN, 1), (pPKEL 3, fPAGE_CTRL_EN, 1), (pPKE, fPKE_YIELD_CFG_YIELD_EN, 0)]
     rs) 3 fun x =>
     { x with run := some ⟨7, 1, 0x10000000, [0x4000001001002000, 0x9000001000000000], [], [], [some (13, 256), none], 0, 0, 8, 0, 5, 4⟩ },
     shaped_of (by decide +kernel), by decide +kernel⟩,
   ⟨3, ⟨7, 1, 0x10000000, [0x7000001001002000], [], [], [some (13, 256), none], 0, 0, 0xFFFFFFFF, 0, 5, 4⟩, updLane
     (fl [(pPKE, fPAGE_CTRL_EN, 1), (pPKE, fPKE_YIELD_CFG_YIELD_EN, 1), (pPKEL 3, fPAGE_CTRL_EN, 1)] rs) 3 fun x =>
     { x with run := some ⟨7, 1, 0x10000000, [0x7000001001002000], [], [], [some (13, 256), none], 0, 0, 0xFFFFFFFF, 0, 5, 4⟩, queue := [⟨8, 1, 0x10000000, [0x9000001000000000], [], [], [none, none], 0, 0, 0, 0, 5, 4⟩] },
     shaped_of (by decide +kernel), by decide +kernel⟩,
   ⟨.hart 1, 3, 7, ⟨7, 1, 0x10000000, [0x9000001000000000], [], [], [none, none], 0, 0, 8, 0, 0, 0⟩, updLane rs 3 fun
     x => { x with queue := [⟨7, 1, 0x10000000, [0x9000001000000000], [], [], [none, none], 0, 0, 8, 0, 0, 0⟩] },
     shaped_of (by decide +kernel), by decide +kernel⟩,
   ⟨3, updLane (fl [(pPKE, fPAGE_CTRL_EN, 1), (pPKEL 3, fPAGE_CTRL_EN, 1)] rs) 3 fun x => { x with test := true },
     shaped_of (by decide +kernel), by decide +kernel⟩⟩

theorem witness_HartControl :
    (∃ (r : Requester) (s : State), Shaped s ∧ writable s r pCPU = true) ∧
    (∃ (r : Requester) (s : State), Shaped s ∧ writable s r pCPU = true) ∧
    (∃ (r : Requester) (s : State), Shaped s ∧ writable s r pCPU = true) ∧
    (∃ (h : Fin 6) (s : State), Shaped s ∧ (hart s h).run = true ∧ (hart s h).halting = true ∧ flag s pHubDie
      fDIE_DOM_REQ_HC = true) ∧
    (∃ (h : Fin 6) (s : State), (((hart s h).cmp.toNat : Int) * 65536 - (replica s 0).ofs).toNat < 2 ^ 80) ∧
    (∃ (s : State), Shaped s) ∧
    (∃ (k : Fin 4) (s : State), Shaped s ∧ domOn s domHC = true ∧ wdtCounts s (k + 2) = true) ∧
    (∃ (h : Fin 2) (s : State), Shaped s ∧ wdtCounts s h = true) :=
  ⟨⟨.host, rg [(pCPU, rCPU_START 4, 0x10000400)] rs, shaped_of (by decide +kernel), by decide +kernel⟩,
   ⟨.hart 1, updHart rs 4 fun x => { x with run := true }, shaped_of (by decide +kernel), by decide +kernel⟩,
   ⟨.host, updHart rs 4 fun x => { x with run := true, pc := 8, mie := 8 }, shaped_of (by decide +kernel),
     by decide +kernel⟩,
   ⟨4, updHart rs 4 fun x => { x with run := true, halting := true }, shaped_of (by decide +kernel),
     by decide +kernel⟩,
   ⟨2, updHart rs 2 fun x => { x with cmp := 5000 }, by decide +kernel⟩,
   ⟨updHart rs 2 fun x => { x with expired := some 4, warned := true }, shaped_of (by decide +kernel)⟩,
   ⟨1, fl [(pCPU, fCPU_WDT_CFG_EN 3, 1), (pCPU, fCPU_WDT_CFG_ACTION 3, 2)] (updHart rs 3 fun x =>
     { x with run := true }), shaped_of (by decide +kernel), by decide +kernel⟩,
   ⟨0, fl [(pCPU, fCPU_WDT_CFG_EN 0, 1)] rs, shaped_of (by decide +kernel), by decide +kernel⟩⟩

theorem witness_HartComputes :
    (∃ (h : Fin 6) (s : State), hartRuns s h = false) ∧
    (∃ (h : Fin 6) (i : Rv) (n rd : Nat) (v : BitVec 64) (s : State), Shaped s ∧ hartRuns s h = true ∧ irqOf s h =
      none ∧ fetchRv s h = .inr (i, n) ∧ rvResult (hart s h) i = some (rd, v)) ∧
    (∃ (h : Fin 6) (c : RvCond) (a b n : Nat) (imm : BitVec 64) (s : State), Shaped s ∧ hartRuns s h = true ∧ irqOf s
      h = none ∧ fetchRv s h = .inr (.branch c a b imm, n)) ∧
    (∃ (h : Fin 6) (e : Bool) (k : Nat) (sgn : Bool) (rd rs1 n : Nat) (imm : BitVec 64) (s : State), Shaped s ∧
      hartRuns s h = true ∧ irqOf s h = none ∧ fetchRv s h = .inr (.load k sgn rd rs1 imm, n) ∧ (getX (hart s h) rs1 +
      imm).toNat % k = 0 ∧ accFaults s h .load false e (getX (hart s h) rs1 + imm).toNat k = false ∧ (regionOf (getX
      (hart s h) rs1 + imm).toNat k = .sram ∨ regionOf (getX (hart s h) rs1 + imm).toNat k = .dma)) ∧
    (∃ (h : Fin 6) (k rs1 rs2 n : Nat) (imm : BitVec 64) (s : State), Shaped s ∧ hartRuns s h = true ∧ irqOf s h =
      none ∧ fetchRv s h = .inr (.store k rs1 rs2 imm, n) ∧ (getX (hart s h) rs1 + imm).toNat % k = 0 ∧ accFaults s h
      .store false false (getX (hart s h) rs1 + imm).toNat k = false ∧ (regionOf (getX (hart s h) rs1 + imm).toNat k =
      .sram ∨ regionOf (getX (hart s h) rs1 + imm).toNat k = .dma)) ∧
    (∃ (h : Fin 6) (k rd rs1 rs2 n : Nat) (s : State), Shaped s ∧ hartRuns s h = true ∧ irqOf s h = none ∧ fetchRv s h
      = .inr (.sc k rd rs1 rs2, n) ∧ (getX (hart s h) rs1).toNat % k = 0 ∧ accFaults s h .store true false (getX (hart
      s h) rs1).toNat k = false) ∧
    (∃ (h : Fin 6) (op : RvAmo) (k rd rs1 rs2 n : Nat) (s : State), Shaped s ∧ hartRuns s h = true ∧ irqOf s h = none
      ∧ fetchRv s h = .inr (.amo op k rd rs1 rs2, n) ∧ (getX (hart s h) rs1).toNat % k = 0 ∧ accFaults s h .store true
      false (getX (hart s h) rs1).toNat k = false ∧ accFaults s h .load true false (getX (hart s h) rs1).toNat k =
      false) :=
  ⟨⟨4, rs, by decide +kernel⟩,
   ⟨0, .alui .add false 5 6 (-1), 4, 5, 41,
     { (updHart rs 0 fun x => setX { x with pc := 0x10000000 } 6 42) with core := [(0x10000000, 0x93), (0x10000001, 2), (0x10000002, 0xF3), (0x10000003, 0xFF)] },
     shaped_of (by decide +kernel), by decide +kernel⟩,
   ⟨0, .ne, 6, 0, 4, 16,
     { (updHart rs 0 fun x => setX { x with pc := 0x10000000 } 6 42) with core := [(0x10000000, 0x63), (0x10000001, 0x18), (0x10000002, 0x03)] },
     shaped_of (by decide +kernel), by decide +kernel⟩,
   ⟨0, false, 1, true, 5, 6, 4, 0,
     { (updHart rs 0 fun x => setX { x with pc := 0x10000000 } 6 0x20000010) with core := [(0x10000000, 0x83), (0x10000001, 2), (0x10000002, 0x03), (0x20000010, 0x81)] },
     shaped_of (by decide +kernel), by decide +kernel⟩,
   ⟨0, 8, 6, 6, 4, 0,
     { (updHart rs 0 fun x => setX { x with pc := 0x10000000 } 6 0x20000010) with core := [(0x10000000, 0x23), (0x10000001, 0x30), (0x10000002, 0x63), (0x20000010, 0x81)] },
     shaped_of (by decide +kernel), by decide +kernel⟩,
   ⟨0, 4, 5, 6, 6, 4,
     { (updHart rs 0 fun x => setX { x with pc := 0x10000000, resv := some (0x20000010, 4) } 6 0x20000010) with core := [(0x10000000, 0xAF), (0x10000001, 0x22), (0x10000002, 0x63), (0x10000003, 0x18)] },
     shaped_of (by decide +kernel), by decide +kernel⟩,
   ⟨0, .add, 4, 5, 6, 6, 4,
     { (updHart rs 0 fun x => setX { x with pc := 0x10000000 } 6 0x20000010) with core := [(0x10000000, 0xAF), (0x10000001, 0x22), (0x10000002, 0x63), (0x20000010, 3)] },
     shaped_of (by decide +kernel), by decide +kernel⟩⟩

theorem witness_HartTraps :
    (∃ (h : Fin 6) (k : Nat) (sgn : Bool) (rd rs1 n : Nat) (imm : BitVec 64) (s : State), Shaped s ∧ hartRuns s h =
      true ∧ irqOf s h = none ∧ fetchRv s h = .inr (.load k sgn rd rs1 imm, n) ∧ (getX (hart s h) rs1 + imm).toNat % k
      ≠ 0) ∧
    (∃ (h : Fin 6) (n : Nat) (s : State), Shaped s ∧ hartRuns s h = true ∧ irqOf s h = none ∧ fetchRv s h = .inr
      (.ecall, n)) ∧
    (∃ (h : Fin 6) (n : Nat) (s : State), Shaped s ∧ hartRuns s h = true ∧ irqOf s h = none ∧ fetchRv s h = .inr
      (.mret, n) ∧ (hart s h).machine = true) ∧
    (∃ (h : Fin 6) (c n rd : Nat) (i : Rv) (v : BitVec 64) (s : State), Shaped s ∧ hartRuns s h = true ∧ irqOf s h =
      some c ∧ fetchRv (takeIrq s h) h = .inr (i, n) ∧ rvResult (hart (takeIrq s h) h) i = some (rd, v)) ∧
    (∃ (h : Fin 6) (a : Nat) (s : State), Shaped s ∧ hartRuns s h = true ∧ irqOf s h = none ∧ fetchRv s h = .inl a) ∧
    (∃ (h : Fin 6) (op : RvCsr) (rd src k n : Nat) (imm : Bool) (old : BitVec 64) (s : State), Shaped s ∧ hartRuns s h
      = true ∧ irqOf s h = none ∧ fetchRv s h = .inr (.csr op rd imm src k, n) ∧ csrRead s h k = some old ∧ k / 1024 ≠
      3) ∧
    (∃ (h : Fin 6) (rs1 rs2 n : Nat) (imm : BitVec 64) (s : State), Shaped s ∧ hartRuns s h = true ∧ irqOf s h = none
      ∧ fetchRv s h = .inr (.store 4 rs1 rs2 imm, n) ∧ (getX (hart s h) rs1 + imm).toNat % 4 = 0 ∧ accFaults s h
      .store false false (getX (hart s h) rs1 + imm).toNat 4 = false ∧ regionOf (getX (hart s h) rs1 + imm).toNat 4 =
      .regs ∧ accMachine (hart s h) .store = true) :=
  ⟨⟨0, 4, true, 5, 6, 4, 0,
    { (updHart rs 0 fun x => setX { x with pc := 0x10000000 } 6 0x20000011) with core := [(0x10000000, 0x83), (0x10000001, 0x22), (0x10000002, 0x03)] },
    shaped_of (by decide +kernel), by decide +kernel⟩,
   ⟨0, 4,
     { (updHart rs 0 fun x => setX { x with pc := 0x10000000, mstatus := 8 } 6 0x20000011) with core := [(0x10000000, 0x73)] },
     shaped_of (by decide +kernel), by decide +kernel⟩,
   ⟨0, 4,
     { (updHart rs 0 fun x => setX { x with pc := 0x10000000, mepc := 0x10000040 } 6 0x20000011) with core := [(0x10000000, 0x73), (0x10000002, 0x20), (0x10000003, 0x30)] },
     shaped_of (by decide +kernel), by decide +kernel⟩,
   ⟨0, 3, 4, 5, .alui .add false 5 6 (-1), 0x20000010,
     { (updHart rs 0 fun x => setX { x with pc := 0x10000100, mtvec := 0x10000000, mie := 8, msip := true, mstatus := 8 } 6 0x20000011) with core := [(0x10000000, 0x93), (0x10000001, 2), (0x10000002, 0xF3), (0x10000003, 0xFF)] },
     shaped_of (by decide +kernel), by decide +kernel⟩,
   ⟨2, 0x10000000, updHart rs 2 fun x => { x with run := true, pc := 0x10000000 }, shaped_of (by decide +kernel),
     by decide +kernel⟩,
   ⟨0, .write, 5, 6, 0x340, 4, false, 77,
     { (updHart rs 0 fun x => setX { x with pc := 0x10000000, mscratch := 77 } 6 0x20000011) with core := [(0x10000000, 0xF3), (0x10000001, 0x12), (0x10000002, 0x03), (0x10000003, 0x34)] },
     shaped_of (by decide +kernel), by decide +kernel⟩,
   ⟨0, 6, 6, 4, 0,
     { (updHart rs 0 fun x => setX { x with pc := 0x10000000 } 6 0x40001020) with core := [(0x10000000, 0x23), (0x10000001, 0x20), (0x10000002, 0x63)] },
     shaped_of (by decide +kernel), by decide +kernel⟩⟩

theorem witness_ResetsAndDomains :
    (∃ (s : State), (s.pwr.held.any fun h => h.1 == 0) = false) ∧
    (∃ (r : Requester) (s : State), writable s r pHubDie = true ∧ (s.pwr.held.any fun h => decide (h.1 < 2)) = false)
      ∧
    (∃ (r : Requester) (die : Fin 8) (s : State), writable s r (pTST die) = true ∧ (s.pwr.held.any fun h => decide
      (h.1 < 2)) = false) ∧
    (∃ (h : Fin 2) (n : Nat) (s : State), graceAt s h = some n ∧ (s.pwr.held.any fun h => decide (h.1 < 3)) = false) ∧
    (∃ (n from' : Nat) (s : State), firstEsc s.saf.esc = some (n, from') ∧ get s pSAF fSAF_ESC_CNT_CNT < get s pSAF
      fSAF_ESC_MAX ∧ (s.pwr.held.any fun h => decide (h.1 < 3)) = false) ∧
    (∃ (src : Option Requester) (die : Fin 8) (isl : Fin 16) (s : State), inReset s = false ∧ ((src = none ∧ die = 0 ∧
      isl = 3) ∨ (src.any fun r => writable s r pHubDie && !isApp r) = true)) ∧
    (∃ (r : Requester) (page : Fin 8) (s : State), writable s r (pTST page) = true ∧ inReset s = false ∧ flag s (pTST
      page) fTST_STAT_UNLOCKED = true) ∧
    (∃ (kind die isl u : Nat) (rest : List (Nat × Nat × Nat × Nat)) (s : State), Shaped s ∧ s.pwr.held = (kind, die,
      isl, u) :: rest ∧ (kind = 0 → isl ≠ 1)) ∧
    (∃ (r : Requester) (s : State), writable s r pHubDie = true ∧ isApp r = false ∧ pwrState s < 2 ∧ s.pwr.exiting =
      false) ∧
    (∃ (dom : Fin 15) (s : State), bitOf s.pwr.turning dom = true) :=
  ⟨⟨{ rs with core := [(0x10000000, 4)], pwr := { rs.pwr with held := [(4, 1, 3, 7)] } }, by decide +kernel⟩,
   ⟨.hart 1, { rs with core := [(0x10000000, 4)] }, by decide +kernel⟩,
   ⟨.host, 5, fl [(pTST 5, fTST_STAT_UNLOCKED, 1)] rs, by decide +kernel⟩,
   ⟨1, 1000005, fl [(pCPU, fCPU_WDT_GUARD_GRACE_MS, 1)] (updHart rs 1 fun x => { x with expired := some 5 }),
     by decide +kernel⟩,
   ⟨4, 70, fl [(pSAF, fSAF_ESC_MAX, 3)] { rs with saf := { rs.saf with esc := [(9, 100), (4, 70)] } },
     by decide +kernel⟩,
   ⟨some .host, 1, 3, { rs with tdc := { rs.tdc with fifo := [[1]] } }, by decide +kernel⟩,
   ⟨.host, 0, fl [(pTST 0, fTST_STAT_UNLOCKED, 1)] rs, by decide +kernel⟩,
   ⟨2, 0, 0, 100000, [],
     { rs with pwr := { rs.pwr with held := [(2, 0, 0, 100000)] }, harts := List.replicate 6 Hart.cold }, shaped_of
     (by decide +kernel), by decide +kernel⟩,
   ⟨.host, { rs with pwr := { rs.pwr with on := 0x7FF7 } }, by decide +kernel⟩,
   ⟨12, { rs with pwr := { rs.pwr with on := 0x6FFF, turning := 0x1000 } }, by decide +kernel⟩⟩

theorem witness_PerformanceCounters :
    (∃ (die : Fin 8) (evt : Fin 4096) (n : Fin 32) (s : State), dieHasRegs die = true ∧ chained s (pPMC die) n = false
      ∧ cntLive s (pPMC die) n = true ∧ flag s (pPMC die) (fPMC_CTL_NOEVT n) = false ∧ get s (pPMC die) (fPMC_CTL_EVT
      n) = evt.val) ∧
    (∃ (die : Fin 8) (evt : Fin 4096) (k : Fin 16) (s : State), dieHasRegs die = true ∧ cntLive s (pPMC die) (2 * k) =
      true ∧ flag s (pPMC die) (fPMC_CTL_NOEVT (2 * k)) = false ∧ get s (pPMC die) (fPMC_CTL_EVT (2 * k)) = evt.val ∧
      chained s (pPMC die) (2 * k + 1) = true ∧ cntLive s (pPMC die) (2 * k + 1) = true) ∧
    (∃ (r : Requester) (die : Fin 8) (s : State), writable s r (pPMC die) = true) ∧
    (∃ (r : Requester) (die : Fin 8) (s : State), writable s r (pPMC die) = true) ∧
    (∃ (r : Requester) (die : Fin 8) (s : State), writable s r (pPMC die) = true) ∧
    (∃ (die : Fin 8) (s : State), dieHasRegs die = true ∧ flag s (pPMC die) fPMC_CTRL_ARMED = true) ∧
    (∃ (die : Fin 8) (s : State), readable s (pPMC die) = true) :=
  ⟨⟨4, 0x100, 4, fl [(pPMC 4, fPAGE_CTRL_EN, 1), (pPMC 4, fPMC_CTL_EN 4, 1), (pPMC 4, fPMC_CTL_INST 4, 2), (pPMC 4,
    fPMC_CTL_EVT 4, 0x100), (pPMC 4, fPMC_CTL_MODE 4, 0), (pPMC 4, fPMC_CTL_NOEVT 4, 0)] (rg [(pPMC 4, rPMC_CNT 4,
    0xFFFFFFFE), (pPMC 4, rPMC_OVF_IRQ, 16)] rs), by decide +kernel⟩,
   ⟨4, 0x100, 2, fl [(pPMC 4, fPAGE_CTRL_EN, 1), (pPMC 4, fPMC_CTL_EN 4, 1), (pPMC 4, fPMC_CTL_EN 5, 1), (pPMC 4,
     fPMC_CTL_CHAIN 5, 1), (pPMC 4, fPMC_CTL_INST 4, 2), (pPMC 4, fPMC_CTL_EVT 4, 0x100), (pPMC 4, fPMC_CTL_NOEVT 4,
     0)] (rg [(pPMC 4, rPMC_CNT 4, 0xFFFFFFFE), (pPMC 4, rPMC_CNT 5, 8)] rs), by decide +kernel⟩,
   ⟨.hart 1, 2, rs, by decide +kernel⟩,
   ⟨.host, 6, rg [(pPMC 6, rPMC_CNT 3, 8), (pPMC 6, rPMC_OVF, 8)] rs, by decide +kernel⟩,
   ⟨.host, 6, rg [(pPMC 6, rPMC_START_AT_LO, 8)] rs, by decide +kernel⟩,
   ⟨6, fl [(pPMC 6, fPMC_CTRL_ARMED, 1)] (rg [(pPMC 6, rPMC_START_AT_LO, 80000)] rs), by decide +kernel⟩,
   ⟨6, fl [(pPMC 6, fPMC_CTL_CHAIN 11, 1)] (rg [(pPMC 6, rPMC_CNT 10, 80000), (pPMC 6, rPMC_CNT 11, 7)] rs),
     by decide +kernel⟩⟩

theorem witness_EventRecorder :
    (∃ (die : Fin 8) (page : Fin 512) (s : State), Shaped s ∧ die ≠ 3 ∧ (pageKind ⟨die, page⟩).isSome = true ∧ (bufOf
      s (dieBuf die)).run = none ∧ (bufOf s (dieBuf die)).q.length < 64) ∧
    (∃ (die : Fin 8) (page : Fin 512) (code : Fin 4096) (sev : Fin 4) (a0 a1 : Word) (r : RecRun) (s : State), Shaped
      s ∧ die ≠ 3 ∧ (pageKind ⟨die, page⟩).isSome = true ∧ flag s pREC fREC_CFG_COAL_EN = true ∧ get s pREC
      fREC_CFG_MIN_SEV ≤ sev.val ∧ (bufOf s (dieBuf die)).run = some r ∧ r.e.same ⟨mkRec s ⟨die, page⟩ code sev false
      a0.toNat a1.toNat, none⟩ = true ∧ mono s ≤ r.last.mono + coalWin s) ∧
    (∃ (i : Nat) (e : RecEntry) (q : List RecEntry) (s : State), Shaped s ∧ inReset s = false ∧ s.recd.first = none ∧
      s.recd.clearing = none ∧ nextBuf s = some i ∧ (bufOf s i).lost = 0 ∧ (bufOf s i).q = e :: q ∧ e.cont = none ∧
      s.recd.store.length + 1 < recSlots) ∧
    (∃ (e : RecEntry) (s : State), inReset s = false ∧ s.recd.first = some e ∧ e.cont = none ∧ s.recd.store.length + 1
      < recSlots) ∧
    (∃ (i : Fin 14) (r : RecRun) (s : State), Shaped s ∧ (bufOf s i).run = some r ∧ (bufOf s i).q.length < 64) ∧
    (∃ (r : Requester) (s : State), Shaped s ∧ writable s r pREC = true ∧ (bufOf s (reqBuf r)).run = none ∧ (bufOf s
      (reqBuf r)).q.length < 64) ∧
    (∃ (r : Requester) (s : State), writable s r pREC = true) ∧
    (∃ (q sev : Nat) (s : State), s.recd.clearing = some (q, sev)) :=
  ⟨⟨4, 0x20, rs, shaped_of (by decide +kernel), by decide +kernel⟩,
   ⟨4, 0x20, 0x123, 1, 5, 6, ⟨⟨mkRec rs ⟨4, 0x20⟩ 0x123 1 false 5 6, none⟩, 3, mkRec rs ⟨4, 0x20⟩ 0x123 1 false 5 6⟩,
     updBuf (fl [(pREC, fREC_CFG_COAL_EN, 1)] rs) 3 fun b =>
     { b with run := some ⟨⟨mkRec rs ⟨4, 0x20⟩ 0x123 1 false 5 6, none⟩, 3, mkRec rs ⟨4, 0x20⟩ 0x123 1 false 5 6⟩ },
     shaped_of (by decide +kernel), by decide +kernel⟩,
   ⟨1, ⟨coldRecord 0x2500 0x4003 8 0, none⟩, [⟨coldEnter, none⟩], { rs with recd := { rs.recd with first := none } },
     shaped_of (by decide +kernel), by decide +kernel⟩,
   ⟨⟨coldRecord 0 0x8105 0 0xFFFFFFFF, none⟩, rs, by decide +kernel⟩,
   ⟨3, ⟨⟨mkRec rs ⟨4, 0x20⟩ 0x123 1 false 5 6, none⟩, 3, mkRec rs ⟨4, 0x20⟩ 0x123 1 false 5 6⟩, updBuf rs 3 fun b =>
     { b with run := some ⟨⟨mkRec rs ⟨4, 0x20⟩ 0x123 1 false 5 6, none⟩, 3, mkRec rs ⟨4, 0x20⟩ 0x123 1 false 5 6⟩ },
     shaped_of (by decide +kernel), by decide +kernel⟩,
   ⟨.hart 1, wrB rs 1 pREC rREC_SW_ARG0 77, shaped_of (by decide +kernel), by decide +kernel⟩,
   ⟨.hart 1, rs, by decide +kernel⟩,
   ⟨1, 2,
     { rs with recd := { rs.recd with clearing := some (1, 2), store := [(0, ⟨4, coldEnter⟩), (7, ⟨5, coldRecord 0 0x8105 0 9⟩)] } },
     by decide +kernel⟩⟩

theorem witness_SafeState :
    (∃ (n : Nat) (s : State), s.saf.degFell = some n) ∧
    (∃ (die : Fin 8) (s : State), dieHasRegs die = true ∧ die ≠ 1 ∧ pwrState s ≠ 3 ∧ bitOf s.saf.lost die = false) ∧
    (∃ (n : Nat) (s : State), s.saf.settleFrom = some n ∧ flag s pSAF fSAF_STAT_SAFE = true ∧ flag s pSAF
      fSAF_STAT_READY = false) ∧
    (∃ (r : Requester) (s : State), writable s r pSAF = true) ∧
    (∃ (r : Requester) (s : State), writable s r pSAF = true ∧ pageOn s pSAF = true ∧ bitOf (rdN s pSAF rDOUBT_EN) 1 =
      true ∧ bitOf (safActive s) 61 = false) ∧
    (∃ (r : Requester) (s : State), writable s r pSAF = true) ∧
    (∃ (r : Requester) (s : State), writable s r pSAF = true) ∧
    (∃ (r : Requester) (s : State), writable s r pSAF = true ∧ pageLocked s pSAF = false) :=
  ⟨⟨70, fl [(pSAF, fSAF_STAT_DEGRADE, 1)] { rs with saf := { rs.saf with degFell := some 70 } }, by decide +kernel⟩,
   ⟨4, rs, by decide +kernel⟩,
   ⟨70, fl [(pSAF, fSAF_STAT_SETTLING, 1)] { rs with saf := { rs.saf with settleFrom := some 70 } },
     by decide +kernel⟩,
   ⟨.hart 0, fl [(pSAF, fSAF_STAT_READY, 1)] rs, by decide +kernel⟩,
   ⟨.host, rg [(pSAF, rDOUBT_EN, 3)] (fl [(pSAF, fSAF_STAT_SAFE, 0)] rs), by decide +kernel⟩,
   ⟨.host, rg [(pSAF, rDOUBT_RAW, 2)] rs, by decide +kernel⟩,
   ⟨.host, rg [(pSAF, rSAF_ACTIVE_LO, 1)] (fl [(pSAF, fSAF_STAT_SAFE, 0)] rs), by decide +kernel⟩,
   ⟨.host, fl [(pSAF, fSAF_STAT_READY, 1)] rs, by decide +kernel⟩⟩

theorem witness_Ageing :
    (∃ (d : Fin 4) (s : State), pageEn s (pAGE (4 + d)) = true) ∧
    (∃ (die isl : Fin 8) (mv : Nat) (s : State), dieHasRegs die = true ∧ isl.val < islCount die ∧ pageEn s (pAGE die)
      = true ∧ (mv < (islRange s die isl).1 ∨ (islRange s die isl).2 < mv)) ∧
    (∃ (die isl : Fin 8) (temp : Int) (s : State), dieHasRegs die = true ∧ isl.val < islCount die ∧ pageEn s (pAGE
      die) = true ∧ (get s (pAGE die) fAGE_LIMITS_TJ_LIMIT : Int) < temp) ∧
    (∃ (die : Fin 8), dieHasRegs die = true) ∧
    (∃ (die i : Fin 8) (s : State), dieHasRegs die = true ∧ pageEn s (pAGE die) = true ∧ i.val < islCount die) ∧
    (∃ (r : Requester) (s : State), writable s r (pAGE 0) = true ∧ reviewFree s = true) ∧
    (∃ (s : State), reviewFree s = true) ∧
    (∃ (r : Review) (s : State), s.age.run = some r ∧ r.planned = false) ∧
    (∃ (r : Review) (m : IslMeas) (rail : Nat) (pl : RailPlan) (s : State), s.age.run = some r ∧ r.planned = false ∧
      r.lost = [] ∧ dieHasRegs m.die = true ∧ m.isl < islCount m.die ∧ avsRail m.die m.isl = some rail ∧
      r.rails.length = 5 ∧ ix r.rails rail ⟨0, false, true⟩ = pl ∧ pl.settled = false ∧ pl.lowered = false ∧ pl.steps
      < get s (pAGE 0) fAGE_REVIEW_CFG_MAX_STEPS ∧ m.slack < get s (pAGE 0) fAGE_SLACK_CFG_TGT ∧ avsMv s rail + 5 ≤
      880) ∧
    (∃ (r : Review) (s : State), s.age.run = some r ∧ r.planned = true ∧ r.ports = []) :=
  ⟨⟨1, fl [(pAGE 5, fPAGE_CTRL_EN, 1), (pAGE 5, fAGE_LIMITS_TILE_LIMIT, 2)] (updPd rs 1 fun x =>
    { x with tiles := [0, 0, 0] }), by decide +kernel⟩,
   ⟨2, 1, 900, fl [(pAGE 2, fPAGE_CTRL_EN, 1)] rs, by decide +kernel⟩,
   ⟨2, 1, 1900, fl [(pAGE 2, fPAGE_CTRL_EN, 1)] rs, by decide +kernel⟩,
   ⟨2, by decide +kernel⟩,
   ⟨0, 2, rg [(pHubDie, rDIE_DEV_FEAT_ACK 0, 0x8000), (pAGE 0, rAGE_AVS 0, 800)] (fl [(pHubDie,
     fDIE_FEAT_CTRL_COMMITTED, 1), (pAGE 0, fPAGE_CTRL_EN, 1)] rs), by decide +kernel⟩,
   ⟨.host, rg [(pHubDie, rDIE_DEV_FEAT_ACK 0, 0x8000)] (fl [(pHubDie, fDIE_FEAT_CTRL_COMMITTED, 1)] rs),
     by decide +kernel⟩,
   ⟨rg [(pHubDie, rDIE_DEV_FEAT_ACK 0, 0x8000)] (fl [(pHubDie, fDIE_FEAT_CTRL_COMMITTED, 1)] rs), by decide +kernel⟩,
   ⟨⟨500, List.replicate 5 ⟨0, false, false⟩, [], false, [], 0, 0, []⟩,
     { rs with age := { rs.age with run := some ⟨500, List.replicate 5 ⟨0, false, false⟩, [], false, [], 0, 0, []⟩ } },
     by decide +kernel⟩,
   ⟨⟨500, List.replicate 5 ⟨0, false, false⟩, [], false, [], 0, 0, []⟩, ⟨4, 1, 5, 100, 0⟩, 1, ⟨0, false, false⟩,
     { fl [(pAGE 0, fAGE_SLACK_CFG_TGT, 9), (pAGE 0, fAGE_REVIEW_CFG_MAX_STEPS, 3)] (rg [(pAGE 0, rAGE_AVS 1, 800)] rs) with age := { rs.age with run := some ⟨500, List.replicate 5 ⟨0, false, false⟩, [], false, [], 0, 0, []⟩ } },
     by decide +kernel⟩,
   ⟨⟨500, List.replicate 5 ⟨0, false, false⟩, [(4, 1, 5)], true, [], 0, 0, []⟩,
     { rs with age := { rs.age with run := some ⟨500, List.replicate 5 ⟨0, false, false⟩, [(4, 1, 5)], true, [], 0, 0, []⟩ } },
     by decide +kernel⟩⟩

theorem witness_AskTraining :
    (∃ (s : State), Shaped s) ∧
    (∃ (k : Fin 4) (s : State), Shaped s ∧ (askState s k = 3 ∨ (askState s k = 1 ∧ (link s k).refused.isSome = true) ∨
      (askUp s k = true ∧ askMode s k = 3))) ∧
    (∃ (k : Fin 4) (n : Nat) (s : State), Shaped s ∧ (link s k).refused = some n) ∧
    (∃ (r : Requester) (k : Fin 4) (s : State), Shaped s ∧ writable s r (pASK k) = true) ∧
    (∃ (k : Fin 4) (s : State), Shaped s ∧ 3 ≤ askState s k) ∧
    (∃ (k : Fin 4) (s : State), Shaped s ∧ askUp s k = true ∧ askDown s k = true) ∧
    (∃ (k : Fin 4) (body : List Byte) (d o : Int) (s : State), Shaped s ∧ askUp s k = true ∧ askMode s k = 1 ∧ bitOf
      (be body 8 1) 0 = true ∧ askAnswer s k (be body 32 8) (be body 40 2) (be body 9 1 / 16) = some (d, o)) ∧
    (∃ (k : Fin 4) (s : State), Shaped s ∧ askUp s k = true ∧ askMode s k = 1) ∧
    (∃ (k : Fin 4) (s : State), Shaped s ∧ askUp s k = true ∧ askMode s k = 1) ∧
    (∃ (k : Fin 4) (t3 seq : Nat) (s : State), Shaped s ∧ askUp s k = true ∧ askMode s k = 1 ∧ (link s k).markAt =
      some (t3, seq)) ∧
    (∃ (k : Fin 4) (s : State), Shaped s ∧ askUp s k = true ∧ askDown s k = true) :=
  ⟨⟨fl [(pASK 2, fASK_STAT_STATE, 2)] rs, shaped_of (by decide +kernel)⟩,
   ⟨0, fl [(pASK 0, fASK_STAT_STATE, 3), (pASK 0, fASK_CFG_MODE, 1), (pHubDie, fDIE_FEAT_CTRL_COMMITTED, 1)] (rg
     [(pHubDie, rDIE_DEV_FEAT_ACK 0, 0xFFFFFFFF)] rs), shaped_of (by decide +kernel), by decide +kernel⟩,
   ⟨1, 500, fl [(pASK 1, fASK_STAT_STATE, 1)] (updLink rs 1 fun x => { x with refused := some 500 }), shaped_of
     (by decide +kernel), by decide +kernel⟩,
   ⟨.host, 2, fl [(pASK 2, fASK_STAT_STATE, 5), (pASK 2, fPAGE_CTRL_EN, 1)] rs, shaped_of (by decide +kernel),
     by decide +kernel⟩,
   ⟨2, fl [(pASK 2, fASK_STAT_STATE, 5), (pASK 2, fPAGE_CTRL_EN, 1)] rs, shaped_of (by decide +kernel),
     by decide +kernel⟩,
   ⟨2, fl [(pASK 2, fASK_STAT_STATE, 5)] (updPeer rs 2 0 fun x => { x with up := true }), shaped_of
     (by decide +kernel), by decide +kernel⟩,
   ⟨1, List.replicate 8 0 ++ [1] ++ List.replicate 23 0 ++ [0, 0, 0, 0, 0, 0, 0, 9, 0, 4] ++ List.replicate 6 0, -49,
     57, fl [(pASK 1, fASK_STAT_STATE, 5), (pASK 1, fASK_CFG_MODE, 1)] (updLink rs 1 fun x =>
     { x with seen := [⟨4, 1, 10, 116, 0⟩] }), shaped_of (by decide +kernel), by decide +kernel⟩,
   ⟨1, fl [(pASK 1, fASK_STAT_STATE, 5), (pASK 1, fASK_CFG_MODE, 1)] rs, shaped_of (by decide +kernel),
     by decide +kernel⟩,
   ⟨1, fl [(pASK 1, fASK_STAT_STATE, 5), (pASK 1, fASK_CFG_MODE, 1)] (updLink rs 1 fun x => { x with missed := 9 }),
     shaped_of (by decide +kernel), by decide +kernel⟩,
   ⟨1, 700, 3, fl [(pASK 1, fASK_STAT_STATE, 5), (pASK 1, fASK_CFG_MODE, 1)] (updLink rs 1 fun x =>
     { x with markAt := some (700, 3) }), shaped_of (by decide +kernel), by decide +kernel⟩,
   ⟨2, fl [(pASK 2, fASK_STAT_STATE, 5)] (updLink (updPeer rs 2 0 fun x => { x with up := true }) 2 fun x =>
     { x with markAt := some (700, 3) }), shaped_of (by decide +kernel), by decide +kernel⟩⟩

theorem witness_AskKeysAndMailbox :
    (∃ (k : Fin 4) (s : State), Shaped s ∧ askUp s k = true ∧ askMode s k = 1 ∧ askFeat s k 1 = true ∧ flag s (pASK k)
      fASK_CFG_FOLLOW_STEP = true ∧ stepPending s = false) ∧
    (∃ (k : Fin 4) (s : State), Shaped s ∧ askUp s k = true ∧ askMode s k = 1) ∧
    (∃ (r : Requester) (k : Fin 4) (s : State), Shaped s ∧ writable s r (pASK k) = true ∧ askFeat s k 0 = true) ∧
    (∃ (k : Fin 4) (body : List Byte) (s : State), Shaped s ∧ askFeat s k 0 = true ∧ body.length = 32) ∧
    (∃ (r : Requester) (k : Fin 4) (s : State), Shaped s ∧ writable s r (pASK k) = true ∧ keyOn s = true ∧ askFeat s k
      0 = true ∧ inSram (get s (pASK k) fASK_LK_PTR_ADDR * 64) 64 = true ∧ (peer s k (ctrlSlot s k)).check = none) ∧
    (∃ (k c : Fin 4) (key : List Byte) (s : State), Shaped s ∧ askFeat s k 0 = true ∧ (askDown s k = false ∨
      s.kisl.keys = []) ∧ (peer s k (slotOf s k c)).key = some key) ∧
    (∃ (k : Fin 4) (lk : List Byte) (s : State), Shaped s ∧ askUp s k = true ∧ askMode s k = 1 ∧ (peer s k 0).keys =
      true ∧ (peer s k 0).key = some lk) ∧
    (∃ (r : Requester) (k : Fin 4) (s : State), Shaped s ∧ writable s r (pASK k) = true) ∧
    (∃ (k : Fin 4) (msg : List Byte) (s : State), Shaped s ∧ askFeat s k 2 = true ∧ (link s k).rxq.length < 16 ∧ msg ≠
      [] ∧ msg.length ≤ 256) ∧
    (∃ (r : Requester) (k : Fin 4) (s : State), Shaped s ∧ writable s r (pASK k) = true) :=
  ⟨⟨1, fl [(pASK 1, fASK_STAT_STATE, 5), (pASK 1, fASK_STAT_FEAT, 15), (pASK 1, fASK_CFG_MODE, 1), (pASK 1,
    fASK_CFG_FOLLOW_STEP, 1)] rs, shaped_of (by decide +kernel), by decide +kernel⟩,
   ⟨1, fl [(pASK 1, fASK_STAT_STATE, 5), (pASK 1, fASK_CFG_MODE, 1)] rs, shaped_of (by decide +kernel),
     by decide +kernel⟩,
   ⟨.hart 0, 2, fl [(pASK 2, fASK_STAT_STATE, 5), (pASK 2, fASK_STAT_FEAT, 15)] rs, shaped_of (by decide +kernel),
     by decide +kernel⟩,
   ⟨2, List.replicate 31 0 ++ [5], fl [(pASK 2, fASK_STAT_STATE, 5), (pASK 2, fASK_STAT_FEAT, 15)] rs, shaped_of
     (by decide +kernel), by decide +kernel⟩,
   ⟨.hart 1, 2, fl [(pASK 2, fASK_STAT_STATE, 5), (pASK 2, fASK_STAT_FEAT, 15), (pASK 2, fASK_LK_PTR_ADDR, 0x400000)]
     { rs with core := [(0x10000001, 7), (0x10000041, 5)] }, shaped_of (by decide +kernel), by decide +kernel⟩,
   ⟨2, 0, List.replicate 32 1, fl [(pASK 2, fASK_STAT_STATE, 5), (pASK 2, fASK_STAT_FEAT, 15)] (updPeer rs 2 0 fun x
     => { x with key := some (List.replicate 32 1) }), shaped_of (by decide +kernel), by decide +kernel⟩,
   ⟨1, List.replicate 64 1, fl [(pASK 1, fASK_STAT_STATE, 5), (pASK 1, fASK_CFG_MODE, 1)] (updPeer rs 1 0 fun x =>
     { x with keys := true, key := some (List.replicate 64 1) }), shaped_of (by decide +kernel), by decide +kernel⟩,
   ⟨.host, 2, rg [(pASK 2, 0x400, 0x11223344)] rs, shaped_of (by decide +kernel), by decide +kernel⟩,
   ⟨2, [7, 8], fl [(pASK 2, fASK_STAT_STATE, 5), (pASK 2, fASK_STAT_FEAT, 15)] rs, shaped_of (by decide +kernel),
     by decide +kernel⟩,
   ⟨.host, 2, updLink rs 2 fun x => { x with rxq := [(0, [7]), (0, [8])] }, shaped_of (by decide +kernel),
     by decide +kernel⟩⟩

theorem witness_HostInterface :
    (∃ (n : Fin 16) (s : State), Shaped s ∧ flag s pHIF fHIF_STAT_LINK_UP = true ∧ flag s pHIF (fHIF_RING_STAT_RUN n)
      = true ∧ flag s pHIF (fHIF_RING_CFG_OWNER n) = false) ∧
    (∃ (v : Fin 64) (s : State), vecLevel s v = true ∧ bitOf s.hif.level v = false) ∧
    (∃ (r : Requester) (v : Fin 64) (s : State), writable s r pHIF = true ∧ vecLevel s v = true ∧ flag s pHIF
      fHIF_STAT_MSIX_EN = true) ∧
    (∃ (v : Fin 64) (s : State), s.hif.pba = 2 ^ v.val ∧ s.hif.fmask = false) ∧
    (∃ (s : State), s.hif.pba = 0) ∧
    (∃ (r : Requester) (s : State), writable s r pHIF = true ∧ s.hif.tx.length < 64 ∧ s.hif.txFrom = mono s) ∧
    (∃ (r : Requester) (s : State), writable s r pHIF = true ∧ s.hif.tx.length = 64 ∧ s.hif.txFrom = mono s) ∧
    (∃ (s : State), readable s pHIF = true ∧ s.hif.rx ≠ []) ∧
    (∃ (s : State), readable s pHIF = true ∧ s.hif.rx = []) ∧
    (∃ (r : Requester) (n : Fin 16) (s : State), Shaped s ∧ writable s r pHIF = true ∧ flag s pHIF (fHIF_RING_CFG_EN
      n) = false) ∧
    (∃ (r : Requester) (n : Fin 16) (s : State), Shaped s ∧ writable s r pHIF = true ∧ flag s pHIF (fHIF_RING_CFG_EN
      n) = true) ∧
    (∃ (r : Requester) (n : Fin 16) (s : State), Shaped s ∧ writable s r pHIF = true ∧ flag s pHIF (fHIF_RING_CFG_EN
      n) = true ∧ flag s pHIF (fHIF_RING_STAT_RUN n) = true ∧ flag s pHIF (fHIF_RING_CFG_OWNER n) = false) ∧
    (∃ (n : Fin 16) (d : Desc) (w : RingWork) (rest : List (Desc × RingWork)) (e : DescEnd) (s : State), Shaped s ∧
      flag s pHIF (fHIF_RING_STAT_RUN n) = true ∧ flag s pHIF (fHIF_RING_CFG_OWNER n) = false ∧ flag s pHIF
      fHIF_STAT_BME = true ∧ (ring s n).work = (d, w) :: rest ∧ workEnd d w = some e) ∧
    (∃ (n : Fin 16) (d : Desc) (rest : List Desc) (s : State), Shaped s ∧ flag s pHIF (fHIF_RING_STAT_RUN n) = true ∧
      flag s pHIF (fHIF_RING_CFG_EN n) = true ∧ flag s pHIF (fHIF_RING_CFG_OWNER n) = false ∧ flag s pHIF
      fHIF_STAT_BME = true ∧ get s pHIF (fHIF_RING_CFG_TYPE n) = 2 ∧ (ring s n).work = [] ∧ (ring s n).given = d ::
      rest) ∧
    (∃ (n : Fin 16) (d : Desc) (w : RingWork) (rest : List (Desc × RingWork)) (e : DescEnd) (s : State), Shaped s ∧
      flag s pHIF (fHIF_RING_STAT_RUN n) = true ∧ flag s pHIF fHIF_STAT_BME = true ∧ (ring s n).work = (d, w) :: rest
      ∧ workEnd d w = some e) ∧
    (∃ (n : Fin 16) (s : State), Shaped s ∧ 0 < get s pHIF (fHIF_RING_COAL_USEC n) ∧ 0 < (ring s n).unrep) :=
  ⟨⟨15, fl [(pHIF, fHIF_STAT_LINK_UP, 1), (pHIF, fHIF_RING_STAT_RUN 15, 1), (pHIF, fHIF_RING_STAT_RUN 3, 1)] rs,
    shaped_of (by decide +kernel), by decide +kernel⟩,
   ⟨63, fl [(pHIF, fHIF_STAT_MSIX_EN, 1), (pHIF, fHIF_VMAP_EN 4 0, 1), (pHIF, fHIF_VMAP_VEC 4 0, 63)] (rg [(pHIF,
     rINT_RAW, 1)] rs), by decide +kernel⟩,
   ⟨.host, 63, fl [(pHIF, fHIF_STAT_MSIX_EN, 1), (pHIF, fHIF_VMAP_EN 4 0, 1), (pHIF, fHIF_VMAP_VEC 4 0, 63)] (rg
     [(pHIF, rINT_RAW, 1)] rs), by decide +kernel⟩,
   ⟨63,
     { fl [(pHIF, fHIF_STAT_MSIX_EN, 1), (pHIF, fHIF_VMAP_EN 4 0, 1), (pHIF, fHIF_VMAP_VEC 4 0, 63)] (rg [(pHIF, rINT_RAW, 1)] rs) with hif := { rs.hif with pba := 2 ^ 63, masked := 2 ^ 63 } },
     by decide +kernel⟩,
   ⟨rs, by decide +kernel⟩,
   ⟨.host, { rs with hif := { rs.hif with txFrom := mono rs, tx := List.replicate 63 1 } }, by decide +kernel⟩,
   ⟨.host, { rs with hif := { rs.hif with txFrom := mono rs, tx := List.replicate 64 1 } }, by decide +kernel⟩,
   ⟨{ rs with hif := { rs.hif with rx := [7, 8] } }, by decide +kernel⟩,
   ⟨rs, by decide +kernel⟩,
   ⟨.host, 15, rs, shaped_of (by decide +kernel), by decide +kernel⟩,
   ⟨.host, 15, fl [(pHIF, fHIF_RING_CFG_EN 15, 1), (pHIF, fHIF_RING_STAT_RUN 15, 1)] (updRing rs 15 fun x =>
     { x with given := [⟨64, true, 0, 0⟩] }), shaped_of (by decide +kernel), by decide +kernel⟩,
   ⟨.host, 15, fl [(pHIF, fHIF_RING_CFG_EN 15, 1), (pHIF, fHIF_RING_STAT_RUN 15, 1), (pHIF, fHIF_RING_CFG_LOG2_SIZE
     15, 12)] rs, shaped_of (by decide +kernel), by decide +kernel⟩,
   ⟨15, ⟨64, true, 0, 0⟩, .bad, [], ⟨[], 64, 4, [0, 0, 0, 0]⟩, fl [(pHIF, fHIF_RING_CFG_EN 15, 1), (pHIF,
     fHIF_RING_STAT_RUN 15, 1), (pHIF, fHIF_STAT_BME, 1), (pHIF, fHIF_RING_CFG_LOG2_SIZE 15, 4)] (updRing rs 15 fun x
     => { x with work := [(⟨64, true, 0, 0⟩, .bad)] }), shaped_of (by decide +kernel), by decide +kernel⟩,
   ⟨15, ⟨64, true, 0, 0⟩, [], fl [(pHIF, fHIF_RING_CFG_EN 15, 1), (pHIF, fHIF_RING_CFG_TYPE 15, 2), (pHIF,
     fHIF_RING_STAT_RUN 15, 1), (pHIF, fHIF_STAT_BME, 1), (pHIF, fHIF_RING_CFG_LOG2_SIZE 15, 4)] (updRing rs 15 fun x
     => { x with given := [⟨64, true, 0, 0⟩] }), shaped_of (by decide +kernel), by decide +kernel⟩,
   ⟨15, ⟨64, true, 0, 0⟩, .bad, [], ⟨[], 64, 4, [0, 0, 0, 0]⟩, fl [(pHIF, fHIF_RING_CFG_EN 15, 1), (pHIF,
     fHIF_RING_STAT_RUN 15, 1), (pHIF, fHIF_STAT_BME, 1), (pHIF, fHIF_RING_CFG_LOG2_SIZE 15, 4)] (updRing rs 15 fun x
     => { x with work := [(⟨64, true, 0, 0⟩, .bad)] }), shaped_of (by decide +kernel), by decide +kernel⟩,
   ⟨15, fl [(pHIF, fHIF_RING_COAL_USEC 15, 5)] (updRing rs 15 fun x => { x with unrep := 2, since := 100 }), shaped_of
     (by decide +kernel), by decide +kernel⟩⟩

theorem witness_BootRom :
    (∃ (s : State), Shaped s ∧ s.boot.phase = .off ∧ (hart s 0).run = true) ∧
    (∃ (src : Fin 4) (s : State), Shaped s ∧ bootSource s = some src.val) ∧
    (∃ (rest : List Nat) (s : State), s.boot.phase = .trying ∧ s.boot.srcs = 2 :: rest) ∧
    (∃ (r : Requester) (s : State), writable s r pBOOT = true ∧ (s.boot.phase = .waiting ∨ s.boot.phase = .failed)) ∧
    (∃ (r : Requester) (s : State), writable s r pBOOT = true) ∧
    (∃ (r : Requester) (s : State), writable s r pBOOT = true) ∧
    (∃ (s : State), s.boot.phase = .trying ∧ s.boot.srcs = []) ∧
    (∃ (f : Fin 5) (s : State), s.boot.fuse = some f.val) :=
  ⟨⟨fl [(pBOOT, fBOOT_STAT_STRAP, 2)] rs, shaped_of (by decide +kernel), by decide +kernel⟩,
   ⟨2, { rs with boot := { rs.boot with phase := .trying, srcs := [2] } }, shaped_of (by decide +kernel),
     by decide +kernel⟩,
   ⟨[], { rs with boot := { rs.boot with phase := .trying, srcs := [2], tftp := 5 } }, by decide +kernel⟩,
   ⟨.host, { rs with boot := { rs.boot with phase := .failed } }, by decide +kernel⟩,
   ⟨.hart 0, fl [(pBOOT, fBOOT_IMG_INFO_ROLLBACK, 64), (pBOOT, fBOOT_OTP_STAT_RB_CNT, 63)] rs, by decide +kernel⟩,
   ⟨.hart 1, fl [(pBOOT, fBOOT_OTP_STAT_REVOKED, 3)] rs, by decide +kernel⟩,
   ⟨{ rs with boot := { rs.boot with phase := .trying, srcs := [] } }, by decide +kernel⟩,
   ⟨4, { rs with boot := { rs.boot with fuse := some 4 } }, by decide +kernel⟩⟩

theorem witness_PowerStates :
    (∃ (r : Requester) (v : Word) (s : State), writable s r pHubDie = true ∧ bitOf v.toNat 31 = true) ∧
    (∃ (st : Nat) (s : State), Shaped s ∧ s.pwr.entering = some st ∧ (1 ≤ st ∧ st ≤ 3) ∧ s.pwr.woken = 0) ∧
    (∃ (perst con ask : Bool) (s : State), s.pwr.entering = none ∧ pwrState s ≠ 0 ∧ flag s pHubDie fDIE_PWR_STAT_BUSY
      = false ∧ wakeStands s perst con ask &&& get s pHubDie fDIE_WAKE_CFG_SRC ≠ 0) ∧
    (∃ (perst con ask : Bool) (s : State), s.pwr.entering.isSome = true ∧ wakeStands s perst con ask &&& get s pHubDie
      fDIE_WAKE_CFG_SRC ≠ 0) ∧
    (∃ (st : Nat) (s : State), Shaped s ∧ s.pwr.exiting = true ∧ pwrState s = st ∧ 1 ≤ st) ∧
    (∃ (j : AvsJob) (rest : List AvsJob) (s : State), s.pwr.avs = j :: rest ∧ j.sent = none) ∧
    (∃ (j : AvsJob) (rest : List AvsJob) (n : Nat) (s : State), s.pwr.avs = j :: rest ∧ j.sent = some n ∧ j.rail < 5)
      :=
  ⟨⟨.host, 0x80000002, fl [(pHubDie, fDIE_WAKE_CFG_SRC, 8)] rs, by decide +kernel⟩,
   ⟨3,
     { fl [(pHubDie, fDIE_WAKE_CFG_SRC, 8)] rs with core := [(0x10000000, 4)], pwr := { rs.pwr with entering := some 3 } },
     shaped_of (by decide +kernel), by decide +kernel⟩,
   ⟨true, true, false, fl [(pHubDie, fDIE_WAKE_CFG_SRC, 12), (pHubDie, fDIE_PWR_STAT_STATE, 3)]
     { rs with pwr := { rs.pwr with on := 0 } }, by decide +kernel⟩,
   ⟨false, true, false, fl [(pHubDie, fDIE_WAKE_CFG_SRC, 8)] { rs with pwr := { rs.pwr with entering := some 2 } },
     by decide +kernel⟩,
   ⟨2, fl [(pHubDie, fDIE_PWR_STAT_STATE, 2), (pHubDie, fDIE_PWR_STAT_BUSY, 1)]
     { rs with pwr := { rs.pwr with on := 0, exiting := true }, core := [(0x10000000, 4)] }, shaped_of
     (by decide +kernel), by decide +kernel⟩,
   ⟨⟨2, 800, 0, 1000, none⟩, [⟨3, 800, 0, 1000, none⟩],
     { rs with pwr := { rs.pwr with avs := [⟨2, 800, 0, 1000, none⟩, ⟨3, 800, 0, 1000, none⟩] } }, by decide +kernel⟩,
   ⟨⟨4, 800, 3, 0, some 5⟩, [], 5, { rs with pwr := { rs.pwr with avs := [⟨4, 800, 3, 0, some 5⟩] } },
     by decide +kernel⟩⟩

theorem witness_TestAccess :
    (∃ (r : Requester) (die : Fin 8) (s : State), writable s r (pTST die) = true) ∧
    (∃ (r : Requester) (die : Fin 8) (v : Word) (s : State), writable s r (pTST die) = true ∧ v.toNat % 0x10000 ≠
      0x7E57) ∧
    (∃ (r : Requester) (die : Fin 8) (s : State), Shaped s ∧ writable s r (pTST die) = true) ∧
    (∃ (r : Requester) (die : Fin 8) (s : State), writable s r (pTST die) = true) ∧
    (∃ (r : Requester) (d : Fin 4) (s : State), Shaped s ∧ writable s r (pTST (4 + d.val)) = true ∧ flag s (pTST (4 +
      d.val)) fTST_STAT_UNLOCKED = true) ∧
    (∃ (d : Fin 4) (s : State), Shaped s ∧ perturbed s (4 + d.val) = true ∧ 0 < get s (pTST (4 + d.val))
      fTST_BP_CFG_BUSY_NS) :=
  ⟨⟨.hart 1, 7, rs, by decide +kernel⟩,
   ⟨.hart 1, 7, 0x0A11, { rs with straps := ⟨0, true, true⟩, unlock := [(7, (reqCode (.hart 1), mono rs))] },
     by decide +kernel⟩,
   ⟨.host, 4, fl [(pTST 4, fTST_STAT_UNLOCKED, 1), (pTST 4, fPAGE_CTRL_EN, 1)] (rg [(pTST 4, rTST_DOUBT_INJ,
     0x80000100)] rs), shaped_of (by decide +kernel), by decide +kernel⟩,
   ⟨.host, 0, fl [(pTST 0, fTST_STAT_UNLOCKED, 1), (pTST 0, fPAGE_CTRL_EN, 1)] rs, by decide +kernel⟩,
   ⟨.host, 3, fl [(pTST 7, fTST_STAT_UNLOCKED, 1), (pTST 7, fPAGE_CTRL_EN, 1)] rs, shaped_of (by decide +kernel),
     by decide +kernel⟩,
   ⟨3, fl [(pTST 7, fTST_STAT_UNLOCKED, 1), (pTST 7, fPAGE_CTRL_EN, 1), (pTST 7, fTST_BP_CFG_BUSY_NS, 100), (pTST 7,
     fTST_BP_PORTS_PORT, 0x81)] rs, shaped_of (by decide +kernel), by decide +kernel⟩⟩

theorem witness_Doorbells :
    (∃ (r : Requester) (h : Fin 6) (s : State), readable s pCPU = true ∧ pageRetained s pCPU = false ∧ appDenied s r
      pCPU true = false ∧ isHart r h = false) ∧
    (∃ (s : State), readable s pCPU = true) ∧
    (∃ (h : Fin 6) (v : BitVec 64) (s : State), readable s pCPU = true ∧ pageRetained s pCPU = false ∧ appDenied s
      (.hart h) pCPU true = false ∧ bitOf v.toNat h = true) ∧
    (∃ (r : Requester) (s : State), writable s r pHIF = true) :=
  ⟨⟨.hart 1, 4, fl [(pCPU, fCPU_DB_PEND_PEND, 0x10)] rs, by decide +kernel⟩,
   ⟨fl [(pCPU, fCPU_DB_PEND_PEND, 0x10)] rs, by decide +kernel⟩,
   ⟨1, 2, fl [(pCPU, fCPU_DB_PEND_PEND, 0x12)] rs, by decide +kernel⟩,
   ⟨.hart 1, rg [(pHIF, rINT_RAW, 0x10000)] rs, by decide +kernel⟩⟩

end Sys2Proof.Tests
end

section
/-! Accesses that find no powered page (R3, R18): what each does, and a 32-bit REG_WRITE as an access to its page. -/

namespace Sys2Proof.Machine

/-! ### What a counter and a doubt change -/

theorem rdN_bump_same (s : State) (p : Pg) (o : Nat) :
    rdN (bump s p o) p o = min (rdN s p o + 1) 0xFFFFFFFF := by
  rw [bump, bumpBy, rdN_wrN_same]
  omega

theorem otherRegs_bump (s : State) (p : Pg) (o : Nat) : OtherRegs s (bump s p o) [p.adr o] :=
  fun _ ha _ => rdA_bump_ne s p o (by simpa using ha)

theorem otherRegs_doubt (s : State) (p : Pg) (bit : Nat) (b : Bool) :
    OtherRegs s (doubt s p bit b) [p.adr rDOUBT_RAW] :=
  fun _ ha hrec => rdA_doubt_ne s p bit b (offRec_of_page hrec) (by simpa using ha)

@[simp] theorem rdN_reply (s : State) (v : Nat) (p : Pg) (o : Nat) : rdN (reply s v) p o = rdN s p o := by
  rw [rdN, rd, rdA_reply, rdN, rd]

@[simp] theorem quiet_regs (s : State) : (quiet s).regs = s.regs := rfl

/-! ### Pages and addresses -/

theorem pageKind_resonator {p : Pg} (h : p.die = 3) : pageKind p = none := by
  simp [pageKind, dieHasRegs, h]

theorem die_ne_three_of_mapped {p : Pg} (h : (pageKind p).isSome = true) : p.die ≠ 3 := by
  intro h3
  simp [pageKind_resonator h3] at h

theorem pgOf_adr {p : Pg} {o : Nat} (hd : p.die < 8) (hp : p.page < 0x2000) (ho : o < 0x1000) :
    pgOf (p.adr o) = p := by
  obtain ⟨d, n⟩ := p
  simp only at hd hp
  simp only [pgOf, Pg.adr, Pg.mk.injEq]
  omega

/-- A 32-bit REG_WRITE to a register of a page (R27) is an access to that page. -/
theorem exec_regWrite_b32 {p : Pg} {o : Nat} (hd : p.die < 8) (hp : p.page < 0x2000) (ho : o < 0x400)
    (r : Requester) (v : BitVec 64) (env : WriteFacts) (s : State) :
    ∃ dbOk f, exec (.regWrite r (p.adr (4 * o)) .b32 v env) s = .next (access (quiet s) r p true dbOk f) := by
  have hpg : pgOf (p.adr (4 * o)) = p := pgOf_adr hd hp (by omega)
  have hbar : ¬ 0x10000000 ≤ p.adr (4 * o) := by simp only [Pg.adr]; omega
  have halign : p.adr (4 * o) % 4 = 0 := by simp only [Pg.adr]; omega
  simp only [exec, execRegWrite, hbar, halign, if_false, if_true, storeWord, hpg]
  exact ⟨_, _, rfl⟩

/-! ### Accesses turned away -/

/-- R3: the window of the Resonator. -/
theorem access_resonator {p : Pg} (h : p.die = 3) (s : State) (r : Requester) (isWr dbOk : Bool)
    (f : State → State) : access s r p isWr dbOk f = if isWr then s else reply s 0 := by
  simp only [access, h, if_true]

/-- R18: a page whose domain is off. -/
theorem access_off {s : State} {p : Pg} (hmap : (pageKind p).isSome = true) (hoff : pageOn s p = false)
    (r : Requester) (isWr dbOk : Bool) (f : State → State) :
    access s r p isWr dbOk f =
      if isWr then bump s (pBLV p.die) rBLV_OFF_CNT else reply (bump s (pBLV p.die) rBLV_OFF_CNT) 0 := by
  obtain ⟨k, hk⟩ := Option.isSome_iff_exists.mp hmap
  simp only [access, die_ne_three_of_mapped hmap, if_false, hk, hoff, Bool.not_false, if_true]

theorem access_write_off {s : State} {p : Pg} (hmap : (pageKind p).isSome = true) (hoff : pageOn s p = false)
    (r : Requester) (dbOk : Bool) (f : State → State) :
    rdN (access s r p true dbOk f) (pBLV p.die) rBLV_OFF_CNT = min (rdN s (pBLV p.die) rBLV_OFF_CNT + 1) 0xFFFFFFFF ∧
      OtherRegs s (access s r p true dbOk f) [(pBLV p.die).adr rBLV_OFF_CNT] := by
  rw [access_off hmap hoff, if_pos rfl]
  exact ⟨rdN_bump_same _ _ _, otherRegs_bump _ _ _⟩

theorem access_read_off {s : State} {p : Pg} (hmap : (pageKind p).isSome = true) (hoff : pageOn s p = false)
    (r : Requester) (dbOk : Bool) (f : State → State) :
    rdN (access s r p false dbOk f) (pBLV p.die) rBLV_OFF_CNT = min (rdN s (pBLV p.die) rBLV_OFF_CNT + 1) 0xFFFFFFFF ∧
      OtherRegs s (access s r p false dbOk f) [(pBLV p.die).adr rBLV_OFF_CNT] ∧
      (access s r p false dbOk f).lastRead = 0 := by
  rw [access_off hmap hoff, if_neg Bool.false_ne_true]
  refine ⟨?_, fun a ha hrec => ?_, lastRead_reply _ 0⟩
  · rw [rdN_reply, rdN_bump_same]
  · rw [rdA_reply, otherRegs_bump _ _ _ a ha hrec]

/-! ### The rows of R18 and R3 -/

theorem exec_poweredOffAccess {s : State} {die : Fin 8} {page : Fin 0x2000}
    (hmap : (pageKind ⟨die, page⟩).isSome = true) (hoff : pageOn s ⟨die, page⟩ = false) (r : Requester)
    (wr : Bool) :
    exec (.poweredOffAccess r die page wr) s = .next (access s r ⟨die, page⟩ wr false fun s => s) := by
  simp only [exec, execPoweredOffAccess, pgArg, hmap, hoff, Bool.not_false, Bool.true_or, Bool.and_true, if_true]

theorem exec_unmappedAccess_resonator (r : Requester) (page : Fin 0x2000) (wr : Bool) (s : State) :
    exec (.unmappedAccess r 3 page wr) s = .next (if wr then s else reply s 0) := by
  have hmap : pageKind (pgArg 3 page) = none := pageKind_resonator rfl
  simp only [exec, execUnmappedAccess, hmap, Option.isNone_none, if_true]
  rw [access_resonator rfl]

/-- Settles O7: an access to a page that is off ends at the count in BLV.OFF_CNT, and one to the Resonator's window
ends before any count. -/
theorem poweredOffAccess : Obligations.PoweredOffAccess := by
  refine ⟨fun r die page wr s hmap hoff => ?row, fun r die page off v env s hmap hoff => ?write,
    fun r page wr s => ?resonatorRow, fun r page off v env s => ?resonatorWrite⟩
  case row =>
    rw [exec_poweredOffAccess hmap hoff, answers_next]
    cases wr with
    | true =>
      obtain ⟨hcount, hother⟩ := access_write_off hmap hoff r false fun s => s
      exact ⟨hcount, hother, fun h => nomatch h⟩
    | false =>
      obtain ⟨hcount, hother, hzero⟩ := access_read_off hmap hoff r false fun s => s
      exact ⟨hcount, hother, fun _ => hzero⟩
  case write =>
    obtain ⟨dbOk, f, hexec⟩ := exec_regWrite_b32 (p := ⟨die, page⟩) die.2 page.2 off.2 r v env s
    rw [hexec, answers_next]
    exact access_write_off (s := quiet s) hmap hoff r dbOk f
  case resonatorRow =>
    rw [exec_unmappedAccess_resonator, answers_next]
    cases wr with
    | true => exact ⟨rfl, fun h => nomatch h⟩
    | false => exact ⟨reply_regs s 0, fun _ => lastRead_reply s 0⟩
  case resonatorWrite =>
    obtain ⟨dbOk, f, hexec⟩ := exec_regWrite_b32 (p := ⟨3, page⟩) (3 : Fin 8).2 page.2 off.2 r v env s
    rw [hexec, answers_next, access_resonator rfl, if_pos rfl, quiet_regs]

end Sys2Proof.Machine
end

section
/-! Missed exchanges of a time lane (R21): what the row LANE_EXCHANGE without marks does to the replica and the
clock, and the doubt TLANE_FAULT. -/

namespace Sys2Proof.Machine

/-! ### The frames that are dropped and the view of the timed ports leave the time base and the clock -/

/-- The parts that dropping the frames of a Port die may change. -/
def dropParts (x : Part) : Prop := x = .mck ∨ x = .ports ∨ x = .rings

theorem Part.same_refl (x : Part) (s : State) : x.same s s := by
  cases x
  case snaps => exact ⟨rfl, rfl⟩
  all_goals rfl

theorem leaves_refl (F : Part → Prop) (s : State) : Leaves F s s := fun x => .inr (x.same_refl s)

theorem replicaDrops_leaves (s : State) (d : Nat) : Leaves dropParts s (replicaDrops s d) :=
  kept_replicaDrops (leaves_closed dropParts s) (.inl rfl) (.inr (.inl rfl)) (.inr (.inr rfl)) s d (leaves_refl _ s)

@[simp] theorem replicaDrops_tb (s : State) (d : Nat) : (replicaDrops s d).tb = s.tb :=
  (replicaDrops_leaves s d .tb).resolve_left (by simp [dropParts])

@[simp] theorem replicaDrops_clk (s : State) (d : Nat) : (replicaDrops s d).clk = s.clk :=
  (replicaDrops_leaves s d .clk).resolve_left (by simp [dropParts])

@[simp] theorem showTimed_tb (s : State) (d : Nat) : (showTimed s d).tb = s.tb := by
  rw [showTimed, putB_tb, put_tb]

@[simp] theorem showTimed_clk (s : State) (d : Nat) : (showTimed s d).clk = s.clk := by
  rw [showTimed, putB_clk, put_clk]

/-! ### The replica of a lane -/

theorem replica_of_tb {s t : State} (h : t.tb = s.tb) (lane : Nat) : replica t lane = replica s lane := by
  rw [replica, h, replica]

theorem replica_updReplica_same {s : State} {lane : Nat} (h : lane < s.tb.replicas.length) (f : Replica → Replica) :
    replica (updReplica s lane f) lane = f (replica s lane) :=
  ix_upd_same _ _ _ _ h

@[simp] theorem updReplica_clk (s : State) (lane : Nat) (f : Replica → Replica) :
    (updReplica s lane f).clk = s.clk := rfl

@[simp] theorem missExchange_clk (s : State) (lane : Nat) : (missExchange s lane).clk = s.clk := by
  simp only [missExchange]
  split
  · rw [updReplica_clk]
  · rw [bump_clk, updReplica_clk]

theorem replica_missExchange_same {s : State} {lane : Nat} (h : lane < s.tb.replicas.length) :
    replica (missExchange s lane) lane = { replica s lane with miss := (replica s lane).miss + 1 } := by
  simp only [missExchange]
  split
  · rw [replica_updReplica_same h]
  · rw [replica_of_tb (bump_tb _ _ _), replica_updReplica_same h]

/-! ### The rows -/

theorem exec_tlaneFault {s : State} {lane : Fin 6} (h : 2 ≤ (replica s lane).miss) :
    exec (.tlaneFault lane) s = .next (doubt s (pISL (laneDie lane)) 3 true) := by
  simp only [exec, execTlaneFault, h, if_true]

/-- The DOUBT_RAW of a die's ISL page is none of the Recorder's registers. -/
theorem offRec_doubtRaw_isl (die : Nat) : offRec ((pISL die).adr rDOUBT_RAW) = true :=
  offRec_of_page (by simp only [Pg.adr, rDOUBT_RAW]; omega)

/-- R21: a missed exchange outside KEEP counts on the lane's replica, which goes on as it stood, and the clock does
not move. -/
theorem laneExchange_missed {s : State} {lane : Fin 6} (hsize : s.tb.replicas.length = 6)
    (hkeep : get s pHubDie fDIE_PWR_STAT_STATE ≠ 3) :
    Answers (exec (.laneExchange lane none) s) fun t =>
      replica t lane = { replica s lane with miss := (replica s lane).miss + 1 } ∧ t.clk = s.clk := by
  have hlane : lane.val < s.tb.replicas.length := by rw [hsize]; exact lane.2
  simp only [exec, execLaneExchange, hkeep, false_and, if_false, answers_next]
  split
  · exact ⟨replica_missExchange_same hlane, missExchange_clk s lane⟩
  · have hdrop := replicaDrops_tb s (lane.val - 2)
    refine ⟨?_, by rw [showTimed_clk, missExchange_clk, replicaDrops_clk]⟩
    rw [replica_of_tb (showTimed_tb _ _), replica_missExchange_same (by rw [hdrop]; exact hlane),
      replica_of_tb hdrop]

/-- Settles O14: the row TLANE_FAULT is one doubt of the ISL page, and a missed exchange is one miss of the lane's
replica. -/
theorem twoMissesRaiseTlaneFault : Obligations.TwoMissesRaiseTlaneFault := by
  refine ⟨fun lane s hmiss => ?fault, fun lane s hshaped hkeep => ?missed⟩
  case fault =>
    rw [exec_tlaneFault hmiss, answers_next]
    exact ⟨doubts_doubt _ _ _ _ (by decide) (offRec_doubtRaw_isl _), otherRegs_doubt _ _ _ _, doubt_tb _ _ _ _,
      doubt_clk _ _ _ _⟩
  case missed =>
    obtain ⟨t, hexec, hreplica, hclk⟩ := laneExchange_missed hshaped.replicas hkeep
    exact ⟨t, hexec, by rw [hreplica], by rw [hreplica], hclk⟩

end Sys2Proof.Machine
end

section
/-! The step of the block (log entry 5) and a property of the state: one that survives the changes of Closed survives
every command, through the lemma of the command's own meaning. -/

namespace Sys2Proof.Machine

/-- A property that survives the changes of the parts which `mayChange` names for a command survives the command: the
lemma of its meaning asks for parts that the list holds, which `rfl` finds by evaluation. -/
theorem kept_exec {F : Part → Prop} {P : State → Prop} (hP : Closed F P) (c : Instr)
    (m : ∀ {x}, (mayChange c).contains x = true → F x) (s : State) (hs : P s) : After P (exec c s) := by
  cases c with
  | regWrite r adr size v env =>
    exact kept_execRegWrite hP (m rfl) (m rfl) (m rfl) (m rfl) (m rfl) (m rfl) (m rfl) (m rfl) (m rfl) (m rfl)
      (m rfl) (m rfl) (m rfl) (m rfl) (m rfl) (m rfl) (m rfl) (m rfl) (m rfl) (m rfl) (m rfl) r adr size v env s hs
  | unmappedAccess r die page wr => exact kept_execUnmappedAccess hP r die page wr s hs
  | poweredOffAccess r die page wr => exact kept_execPoweredOffAccess hP r die page wr s hs
  | pageEnable r die page =>
    exact kept_execPageEnable hP (m rfl) (m rfl) (m rfl) (m rfl) (m rfl) (m rfl) (m rfl) (m rfl) (m rfl) (m rfl)
      (m rfl) (m rfl) r die page s hs
  | pageDisable r die page =>
    exact kept_execPageDisable hP (m rfl) (m rfl) (m rfl) (m rfl) (m rfl) (m rfl) (m rfl) (m rfl) (m rfl) (m rfl)
      (m rfl) (m rfl) r die page s hs
  | softReset r die page =>
    exact kept_execSoftReset hP (m rfl) (m rfl) (m rfl) (m rfl) (m rfl) (m rfl) (m rfl) (m rfl) (m rfl) (m rfl)
      (m rfl) (m rfl) (m rfl) (m rfl) (m rfl) r die page s hs
  | softResetDone die page => exact kept_execSoftResetDone hP die page s hs
  | pageLock r die page => exact kept_execPageLock hP r die page s hs
  | intForce r die page v => exact kept_execIntForce hP r die page v s hs
  | featCommit r => exact kept_execFeatCommit hP r s hs
  | featCommitDone => exact kept_execFeatCommitDone hP (m rfl) (m rfl) (m rfl) (m rfl) s hs
  | doubtMessage die => exact kept_execDoubtMessage hP (m rfl) (m rfl) (m rfl) die s hs
  | doubtMessageResend die => exact kept_execDoubtMessageResend hP (m rfl) (m rfl) (m rfl) die s hs
  | blvTransfer dst waiting read crcFails latPs =>
    exact kept_execBlvTransfer hP (m rfl) dst waiting read crcFails latPs s hs
  | islXing die toIsl => exact kept_execIslXing hP (m rfl) die toIsl s hs
  | islMonitorJudge die mv temp neighbours xlat spread =>
    exact kept_execIslMonitorJudge hP (m rfl) die mv temp neighbours xlat spread s hs
  | laneExchange lane marks => exact kept_execLaneExchange hP (m rfl) (m rfl) (m rfl) (m rfl) lane marks s hs
  | tlaneFault lane => exact kept_execTlaneFault hP lane s hs
  | timeSnapshot r die wide => exact kept_execTimeSnapshot hP (m rfl) r die wide s hs
  | taiSecond => exact kept_execTaiSecond hP (m rfl) (m rfl) s hs
  | utcOffsetWrite r v => exact kept_execUtcOffsetWrite hP r v s hs
  | leapSchedWrite r v => exact kept_execLeapSchedWrite hP (m rfl) r v s hs
  | leapApplied => exact kept_execLeapApplied hP (m rfl) s hs
  | smearStart => exact kept_execSmearStart hP (m rfl) (m rfl) s hs
  | smearEnd => exact kept_execSmearEnd hP (m rfl) (m rfl) s hs
  | stepRequest r v => exact kept_execStepRequest hP (m rfl) (m rfl) r v s hs
  | timescaleStep => exact kept_execTimescaleStep hP (m rfl) (m rfl) (m rfl) (m rfl) s hs
  | tbeStepEnd => exact kept_execTbeStepEnd hP (m rfl) s hs
  | servoUpdate temp heat osc =>
    exact kept_execServoUpdate hP (m rfl) (m rfl) (m rfl) (m rfl) (m rfl) temp heat osc s hs
  | ptpSampleRx slot sample acc => exact kept_execPtpSampleRx hP (m rfl) slot sample acc s hs
  | extPpsEdge input at' falling => exact kept_execExtPpsEdge hP (m rfl) (m rfl) input at' falling s hs
  | extFreqCount input ppt => exact kept_execExtFreqCount hP (m rfl) input ppt s hs
  | slotLost k => exact kept_execSlotLost hP (m rfl) (m rfl) k s hs
  | slotRelease r v => exact kept_execSlotRelease hP (m rfl) r v s hs
  | biasClr r v => exact kept_execBiasClr hP (m rfl) r v s hs
  | historyStore => exact kept_execHistoryStore hP (m rfl) (m rfl) s hs
  | modelRefit => exact kept_execModelRefit hP (m rfl) s hs
  | ovnSettled temp => exact kept_execOvnSettled hP (m rfl) temp s hs
  | ovnUnsettled temp => exact kept_execOvnUnsettled hP temp s hs
  | ovnRange atLimit => exact kept_execOvnRange hP atLimit s hs
  | ovnFault => exact kept_execOvnFault hP (m rfl) s hs
  | oscLost => exact kept_execOscLost hP (m rfl) s hs
  | oscRestored => exact kept_execOscRestored hP s hs
  | measValid ppt sig => exact kept_execMeasValid hP (m rfl) ppt sig s hs
  | ovnRetry r v => exact kept_execOvnRetry hP (m rfl) r v s hs
  | srcSwitch => exact kept_execSrcSwitch hP (m rfl) (m rfl) s hs
  | backupEnter stopped => exact kept_execBackupEnter hP (m rfl) stopped s hs
  | tuneStep => exact kept_execTuneStep hP (m rfl) (m rfl) (m rfl) s hs
  | gfWarmupEnd => exact kept_execGfWarmupEnd hP (m rfl) s hs
  | pllUnlock taken => exact kept_execPllUnlock hP (m rfl) (m rfl) (m rfl) taken s hs
  | agcUpdate outer clip ma mv => exact kept_execAgcUpdate hP (m rfl) outer clip ma mv s hs
  | agcRail => exact kept_execAgcRail hP (m rfl) s hs
  | antShort => exact kept_execAntShort hP (m rfl) s hs
  | antRetry => exact kept_execAntRetry hP (m rfl) (m rfl) s hs
  | antOk => exact kept_execAntOk hP (m rfl) s hs
  | antOpen ma => exact kept_execAntOpen hP ma s hs
  | acqPush r v => exact kept_execAcqPush hP (m rfl) r v s hs
  | acqFlush r v => exact kept_execAcqFlush hP (m rfl) r v s hs
  | acqJobStart => exact kept_execAcqJobStart hP (m rfl) s hs
  | acqCaptureDone => exact kept_execAcqCaptureDone hP (m rfl) (m rfl) s hs
  | acqPassDone stat dopp code cn0 => exact kept_execAcqPassDone hP (m rfl) (m rfl) stat dopp code cn0 s hs
  | acqResRead r => exact kept_execAcqResRead hP (m rfl) r s hs
  | schPullinEnd ch pliOk => exact kept_execSchPullinEnd hP (m rfl) (m rfl) ch pliOk s hs
  | schBitSync ch => exact kept_execSchBitSync hP (m rfl) ch s hs
  | schLost ch => exact kept_execSchLost hP (m rfl) ch s hs
  | schSlip ch => exact kept_execSchSlip hP (m rfl) ch s hs
  | chRelease r ch v => exact kept_execChRelease hP (m rfl) r ch v s hs
  | trkPromoteGo r v => exact kept_execTrkPromoteGo hP (m rfl) r v s hs
  | trkMove pc car code => exact kept_execTrkMove hP (m rfl) (m rfl) pc car code s hs
  | tchBoundary ch pc edge phase => exact kept_execTchBoundary hP (m rfl) (m rfl) ch pc edge phase s hs
  | tchDump ch taps noise => exact kept_execTchDump hP (m rfl) (m rfl) ch taps noise s hs
  | tchDumpRead r ch slot => exact kept_execTchDumpRead hP r ch slot s hs
  | tchCommit r ch v => exact kept_execTchCommit hP (m rfl) r ch v s hs
  | tchStale ch => exact kept_execTchStale hP ch s hs
  | shapeCheck ch dev pair => exact kept_execShapeCheck hP (m rfl) ch dev pair s hs
  | trkEpoch meas => exact kept_execTrkEpoch hP (m rfl) (m rfl) meas s hs
  | navSubframe ch first inverted preamble words =>
    exact kept_execNavSubframe hP (m rfl) (m rfl) ch first inverted preamble words s hs
  | inavPage ch first odd bits crcOk tailOk corrected =>
    exact kept_execInavPage hP (m rfl) ch first odd bits crcOk tailOk corrected s hs
  | navRdIdxWrite r v => exact kept_execNavRdIdxWrite hP r v s hs
  | solSubmit r v => exact kept_execSolSubmit hP (m rfl) (m rfl) r v s hs
  | posSigWrite r v => exact kept_execPosSigWrite hP (m rfl) r v s hs
  | intViewRx => exact kept_execIntViewRx hP (m rfl) s hs
  | viewStale => exact kept_execViewStale hP (m rfl) s hs
  | intSecondCheck => exact kept_execIntSecondCheck hP (m rfl) (m rfl) s hs
  | exclExpire sys prn => exact kept_execExclExpire hP (m rfl) (m rfl) sys prn s hs
  | exclSet r v => exact kept_execExclSet hP (m rfl) r v s hs
  | exclClr r v => exact kept_execExclClr hP (m rfl) r v s hs
  | forceSuspect r v => exact kept_execForceSuspect hP (m rfl) (m rfl) r v s hs
  | intClear r v => exact kept_execIntClear hP (m rfl) (m rfl) r v s hs
  | suspectCleared => exact kept_execSuspectCleared hP (m rfl) (m rfl) s hs
  | snpArm r v => exact kept_execSnpArm hP (m rfl) (m rfl) (m rfl) r v s hs
  | snpAutoArm => exact kept_execSnpAutoArm hP (m rfl) (m rfl) s hs
  | snpWindowOpen => exact kept_execSnpWindowOpen hP (m rfl) (m rfl) (m rfl) (m rfl) s hs
  | snpCaptureStart late => exact kept_execSnpCaptureStart hP (m rfl) (m rfl) late s hs
  | snpCaptureEnd samples => exact kept_execSnpCaptureEnd hP (m rfl) (m rfl) (m rfl) (m rfl) samples s hs
  | snpCancel r v taken => exact kept_execSnpCancel hP (m rfl) (m rfl) (m rfl) r v taken s hs
  | snpHold r v => exact kept_execSnpHold hP (m rfl) (m rfl) (m rfl) r v s hs
  | snpRelease r v => exact kept_execSnpRelease hP (m rfl) (m rfl) (m rfl) r v s hs
  | linkUp d port => exact kept_execLinkUp hP (m rfl) d port s hs
  | linkDown d port block fec localFault =>
    exact kept_execLinkDown hP (m rfl) (m rfl) (m rfl) d port block fec localFault s hs
  | sdsPllUnlock d q h => exact kept_execSdsPllUnlock hP (m rfl) (m rfl) (m rfl) d q h s hs
  | mmTransaction r d q v => exact kept_execMmTransaction hP r d q v s hs
  | mmDone d q how data => exact kept_execMmDone hP d q how data s hs
  | modIn d q => exact kept_execModIn hP d q s hs
  | modOut d q => exact kept_execModOut hP d q s hs
  | modInt d q low => exact kept_execModInt hP d q low s hs
  | frameRx d port x => exact kept_execFrameRx hP (m rfl) (m rfl) (m rfl) d port x s hs
  | pauseEnd d port => exact kept_execPauseEnd hP (m rfl) (m rfl) d port s hs
  | tsuCalRun r d port => exact kept_execTsuCalRun hP (m rfl) r d port s hs
  | tsuCalDone d port ser => exact kept_execTsuCalDone hP (m rfl) (m rfl) d port ser s hs
  | tsuCal d port => exact kept_execTsuCal hP (m rfl) d port s hs
  | booking d port grid => exact kept_execBooking hP (m rfl) (m rfl) (m rfl) d port grid s hs
  | untimedSubmit d port frame => exact kept_execUntimedSubmit hP (m rfl) (m rfl) d port frame s hs
  | untimedLaunch d port => exact kept_execUntimedLaunch hP (m rfl) (m rfl) (m rfl) d port s hs
  | starve d port => exact kept_execStarve hP (m rfl) (m rfl) d port s hs
  | holdEnqueue d port => exact kept_execHoldEnqueue hP (m rfl) (m rfl) d port s hs
  | lchRelease d port tileOk => exact kept_execLchRelease hP (m rfl) (m rfl) (m rfl) (m rfl) d port tileOk s hs
  | late d port grid => exact kept_execLate hP (m rfl) (m rfl) (m rfl) (m rfl) d port grid s hs
  | tsuDeparture d port dev => exact kept_execTsuDeparture hP (m rfl) (m rfl) (m rfl) d port dev s hs
  | launchDevEnd d port => exact kept_execLaunchDevEnd hP (m rfl) d port s hs
  | lchLate d => exact kept_execLchLate hP (m rfl) d s hs
  | swFrameSubmit ring w0 w1 w2 w3 frame =>
    exact kept_execSwFrameSubmit hP (m rfl) (m rfl) (m rfl) ring w0 w1 w2 w3 frame s hs
  | ansTabRead r d idx addr => exact kept_execAnsTabRead hP r d idx addr s hs
  | ansTabWrite r d idx addr => exact kept_execAnsTabWrite hP (m rfl) r d idx addr s hs
  | ansTabDone d => exact kept_execAnsTabDone hP (m rfl) d s hs
  | ansLaneTake d grid tileOk tblOk =>
    exact kept_execAnsLaneTake hP (m rfl) (m rfl) (m rfl) (m rfl) d grid tileOk tblOk s hs
  | ntsSivDone d grid tileOk => exact kept_execNtsSivDone hP (m rfl) (m rfl) (m rfl) d grid tileOk s hs
  | serviceViewRx d => exact kept_execServiceViewRx hP (m rfl) d s hs
  | ansView d => exact kept_execAnsView hP (m rfl) d s hs
  | safeLineChange d driven => exact kept_execSafeLineChange hP (m rfl) d driven s hs
  | tblFlush r d => exact kept_execTblFlush hP (m rfl) r d s hs
  | flushDone d => exact kept_execFlushDone hP (m rfl) d s hs
  | scrub d ses ok => exact kept_execScrub hP (m rfl) d ses ok s hs
  | tblTileEnd d ses => exact kept_execTblTileEnd hP (m rfl) d ses s hs
  | secretRetry d => exact kept_execSecretRetry hP (m rfl) d s hs
  | pfxRead r d idx => exact kept_execPfxRead hP r d idx s hs
  | pfxWrite r d idx => exact kept_execPfxWrite hP (m rfl) r d idx s hs
  | mint r => exact kept_execMint hP (m rfl) (m rfl) (m rfl) r s hs
  | mintDone => exact kept_execMintDone hP (m rfl) (m rfl) (m rfl) s hs
  | keyGen => exact kept_execKeyGen hP (m rfl) (m rfl) (m rfl) (m rfl) s hs
  | rotate r => exact kept_execRotate hP (m rfl) (m rfl) (m rfl) r s hs
  | keyActivate => exact kept_execKeyActivate hP (m rfl) (m rfl) (m rfl) s hs
  | purge r => exact kept_execPurge hP (m rfl) (m rfl) (m rfl) r s hs
  | crossingRx d ok => exact kept_execCrossingRx hP (m rfl) (m rfl) d ok s hs
  | crossingResend t => exact kept_execCrossingResend hP (m rfl) (m rfl) t s hs
  | keyDist => exact kept_execKeyDist hP (m rfl) s hs
  | ntsKeys d => exact kept_execNtsKeys hP (m rfl) d s hs
  | keyUpstream => exact kept_execKeyUpstream hP (m rfl) s hs
  | drbgFail => exact kept_execDrbgFail hP s hs
  | drbgRecover => exact kept_execDrbgRecover hP (m rfl) (m rfl) (m rfl) s hs
  | instRead r d n => exact kept_execInstRead hP r d n s hs
  | instWrite r d n => exact kept_execInstWrite hP (m rfl) (m rfl) r d n s hs
  | ptpSyncDue d n ses grid => exact kept_execPtpSyncDue hP (m rfl) (m rfl) (m rfl) (m rfl) d n ses grid s hs
  | ptpAnnounceDue d n ses => exact kept_execPtpAnnounceDue hP (m rfl) (m rfl) (m rfl) d n ses s hs
  | foreignTimeout d n => exact kept_execForeignTimeout hP (m rfl) (m rfl) d n s hs
  | pdelayReqDue d port grid => exact kept_execPdelayReqDue hP (m rfl) (m rfl) (m rfl) d port grid s hs
  | pdelayLost d port => exact kept_execPdelayLost hP (m rfl) (m rfl) d port s hs
  | sessionExpire d k => exact kept_execSessionExpire hP (m rfl) (m rfl) d k s hs
  | sesRead r d idx => exact kept_execSesRead hP r d idx s hs
  | sesWrite r d idx => exact kept_execSesWrite hP (m rfl) r d idx s hs
  | rxDelayReqDue d r grid => exact kept_execRxDelayReqDue hP (m rfl) (m rfl) (m rfl) d r grid s hs
  | rxMasterLoss d r => exact kept_execRxMasterLoss hP (m rfl) (m rfl) (m rfl) d r s hs
  | rxUniRenew d r k mac => exact kept_execRxUniRenew hP (m rfl) (m rfl) (m rfl) d r k mac s hs
  | saRead r d idx => exact kept_execSaRead hP r d idx s hs
  | saWrite r d idx => exact kept_execSaWrite hP (m rfl) r d idx s hs
  | brEnable r d n v => exact kept_execBrEnable hP r d n v s hs
  | ptpAuthEnd d => exact kept_execPtpAuthEnd hP (m rfl) d s hs
  | outputStart ch => exact kept_execOutputStart hP (m rfl) (m rfl) ch s hs
  | outputEdge ch => exact kept_execOutputEdge hP (m rfl) (m rfl) ch s hs
  | outputRealign => exact kept_execOutputRealign hP (m rfl) (m rfl) s hs
  | todMessage k => exact kept_execTodMessage hP (m rfl) (m rfl) k s hs
  | cuePush r => exact kept_execCuePush hP (m rfl) r s hs
  | cueCancel r h => exact kept_execCueCancel hP (m rfl) r h s hs
  | cueFlush r => exact kept_execCueFlush hP (m rfl) r s hs
  | cueFired => exact kept_execCueFired hP (m rfl) (m rfl) s hs
  | cueFrameDispatch => exact kept_execCueFrameDispatch hP (m rfl) (m rfl) (m rfl) (m rfl) s hs
  | cueFrameComplete => exact kept_execCueFrameComplete hP (m rfl) s hs
  | cueFrameLost => exact kept_execCueFrameLost hP (m rfl) (m rfl) s hs
  | frmBufWrite r k v => exact kept_execFrmBufWrite hP (m rfl) r k v s hs
  | capEdge n at' falling => exact kept_execCapEdge hP (m rfl) (m rfl) n at' falling s hs
  | capRead r => exact kept_execCapRead hP (m rfl) r s hs
  | toutFault n => exact kept_execToutFault hP n s hs
  | toutFaultClear n => exact kept_execToutFaultClear hP n s hs
  | tdcArm r => exact kept_execTdcArm hP (m rfl) r s hs
  | tdcDisarm r => exact kept_execTdcDisarm hP (m rfl) r s hs
  | tdcFlush r => exact kept_execTdcFlush hP (m rfl) r s hs
  | tdcGateEdge high => exact kept_execTdcGateEdge hP (m rfl) high s hs
  | tdcEdge ch at' falling => exact kept_execTdcEdge hP (m rfl) (m rfl) ch at' falling s hs
  | tdcTimeout => exact kept_execTdcTimeout hP (m rfl) (m rfl) s hs
  | tdcRearm => exact kept_execTdcRearm hP (m rfl) (m rfl) s hs
  | tdcResRead r => exact kept_execTdcResRead hP (m rfl) r s hs
  | hfCfgWrite r v => exact kept_execHfCfgWrite hP (m rfl) r v s hs
  | tdcCalOk => exact kept_execTdcCalOk hP s hs
  | calLost => exact kept_execCalLost hP s hs
  | ringGo r lane => exact kept_execRingGo hP r lane s hs
  | ringDoneCmd lane ps => exact kept_execRingDoneCmd hP (m rfl) (m rfl) (m rfl) lane ps s hs
  | setLenWrite r hi v => exact kept_execSetLenWrite hP (m rfl) r hi v s hs
  | slotClaim r first count ctx => exact kept_execSlotClaim hP (m rfl) (m rfl) (m rfl) r first count ctx s hs
  | slotReleaseCmd r first count ctx => exact kept_execSlotReleaseCmd hP (m rfl) (m rfl) (m rfl) r first count ctx s hs
  | slotRevoke r first count => exact kept_execSlotRevoke hP (m rfl) (m rfl) (m rfl) r first count s hs
  | slotQuery r first count => exact kept_execSlotQuery hP (m rfl) (m rfl) (m rfl) r first count s hs
  | slotDone r => exact kept_execSlotDone hP (m rfl) r s hs
  | jobGo r l ctx => exact kept_execJobGo hP (m rfl) r l ctx s hs
  | jobCopied r l => exact kept_execJobCopied hP (m rfl) r l s hs
  | pkeCmdDone l mid => exact kept_execPkeCmdDone hP (m rfl) (m rfl) (m rfl) l mid s hs
  | jobAbort r l ctx ticket => exact kept_execJobAbort hP (m rfl) (m rfl) (m rfl) r l ctx ticket s hs
  | selftestDone l pass => exact kept_execSelftestDone hP (m rfl) l pass s hs
  | hartInstruction h cycles readErr env =>
    exact kept_execHartInstruction hP (m rfl) (m rfl) (m rfl) (m rfl) (m rfl) (m rfl) (m rfl) (m rfl) (m rfl)
      (m rfl) (m rfl) (m rfl) (m rfl) (m rfl) (m rfl) (m rfl) (m rfl) (m rfl) (m rfl) (m rfl) (m rfl) (m rfl) h cycles
      readErr env s hs
  | hartRun r harts => exact kept_execHartRun hP (m rfl) r harts s hs
  | hartHalt r harts => exact kept_execHartHalt hP (m rfl) r harts s hs
  | hartRestart r harts => exact kept_execHartRestart hP (m rfl) r harts s hs
  | hartHalted h =>
    exact kept_execHartHalted hP (m rfl) (m rfl) (m rfl) (m rfl) (m rfl) (m rfl) (m rfl) (m rfl) (m rfl) (m rfl)
      (m rfl) h s hs
  | doorbell r h msg => exact kept_execDoorbell hP r h msg s hs
  | mtimer h => exact kept_execMtimer hP (m rfl) h s hs
  | kick h => exact kept_execKick hP (m rfl) h s hs
  | appWdt h => exact kept_execAppWdt hP (m rfl) (m rfl) h s hs
  | keeperWdt h => exact kept_execKeeperWdt hP (m rfl) (m rfl) h s hs
  | keeperWdtGrace h =>
    exact kept_execKeeperWdtGrace hP (m rfl) (m rfl) (m rfl) (m rfl) (m rfl) (m rfl) (m rfl) (m rfl) (m rfl) (m rfl)
      (m rfl) (m rfl) (m rfl) (m rfl) (m rfl) (m rfl) (m rfl) (m rfl) (m rfl) (m rfl) h s hs
  | pmcCount die evt cycles => exact kept_execPmcCount hP die evt cycles s hs
  | cntWrite r die n v => exact kept_execCntWrite hP r die n v s hs
  | clrAll r die => exact kept_execClrAll hP r die s hs
  | armAt r die => exact kept_execArmAt hP r die s hs
  | pmcStart die => exact kept_execPmcStart hP (m rfl) die s hs
  | cntEvenRead r die n => exact kept_execCntEvenRead hP (m rfl) r die n s hs
  | recStage die page code sev a0 a1 cont => exact kept_execRecStage hP die page code sev a0 a1 cont s hs
  | recWrite => exact kept_execRecWrite hP s hs
  | repeated src => exact kept_execRepeated hP (m rfl) src s hs
  | swRecord r code sev => exact kept_execSwRecord hP r code sev s hs
  | recClear r sev => exact kept_execRecClear hP r sev s hs
  | recCleared => exact kept_execRecCleared hP s hs
  | doubtChange => exact kept_execDoubtChange hP (m rfl) (m rfl) s hs
  | degradeExit => exact kept_execDegradeExit hP (m rfl) (m rfl) s hs
  | safDieLost die => exact kept_execSafDieLost hP (m rfl) (m rfl) (m rfl) die s hs
  | ready => exact kept_execReady hP (m rfl) (m rfl) (m rfl) s hs
  | release r => exact kept_execRelease hP (m rfl) (m rfl) r s hs
  | force r => exact kept_execForce hP (m rfl) (m rfl) r s hs
  | unforce r => exact kept_execUnforce hP (m rfl) (m rfl) r s hs
  | safPolicyWrite r k v => exact kept_execSafPolicyWrite hP (m rfl) (m rfl) r k v s hs
  | safAutoWrite r v => exact kept_execSafAutoWrite hP (m rfl) (m rfl) r v s hs
  | escalate =>
    exact kept_execEscalate hP (m rfl) (m rfl) (m rfl) (m rfl) (m rfl) (m rfl) (m rfl) (m rfl) (m rfl) (m rfl)
      (m rfl) (m rfl) (m rfl) (m rfl) (m rfl) (m rfl) (m rfl) (m rfl) (m rfl) (m rfl) s hs
  | ageTile d => exact kept_execAgeTile hP d s hs
  | ageVolt die isl mv => exact kept_execAgeVolt hP die isl mv s hs
  | ageTemp die isl temp => exact kept_execAgeTemp hP die isl temp s hs
  | canary die slacks => exact kept_execCanary hP (m rfl) (m rfl) die slacks s hs
  | marginReview r => exact kept_execMarginReview hP (m rfl) (m rfl) r s hs
  | reviewMeasure isls => exact kept_execReviewMeasure hP (m rfl) (m rfl) (m rfl) (m rfl) isls s hs
  | reviewDone => exact kept_execReviewDone hP (m rfl) (m rfl) s hs
  | linkTrain k => exact kept_execLinkTrain hP (m rfl) (m rfl) k s hs
  | helloRx k h => exact kept_execHelloRx hP (m rfl) k h s hs
  | helloRetry k => exact kept_execHelloRetry hP (m rfl) (m rfl) k s hs
  | retrain r k => exact kept_execRetrain hP (m rfl) (m rfl) r k s hs
  | markTx k => exact kept_execMarkTx hP (m rfl) (m rfl) k s hs
  | markRx k crcOk seq body seen ppt =>
    exact kept_execMarkRx hP (m rfl) (m rfl) (m rfl) (m rfl) k crcOk seq body seen ppt s hs
  | echoTx k => exact kept_execEchoTx hP (m rfl) (m rfl) k s hs
  | echoRx k c crcOk body seen => exact kept_execEchoRx hP (m rfl) k c crcOk body seen s hs
  | markMiss k => exact kept_execMarkMiss hP (m rfl) (m rfl) k s hs
  | stepRx k crcOk body => exact kept_execStepRx hP (m rfl) (m rfl) k crcOk body s hs
  | pubGo r k => exact kept_execPubGo hP (m rfl) r k s hs
  | agreeRx k c crcOk body => exact kept_execAgreeRx hP (m rfl) k c crcOk body s hs
  | lkGo r k => exact kept_execLkGo hP (m rfl) (m rfl) (m rfl) r k s hs
  | keyCheckRx k c crcOk body => exact kept_execKeyCheckRx hP (m rfl) k c crcOk body s hs
  | keyFrameRx k crcOk seq body => exact kept_execKeyFrameRx hP (m rfl) (m rfl) (m rfl) k crcOk seq body s hs
  | mbTxGo r k len dest => exact kept_execMbTxGo hP (m rfl) r k len dest s hs
  | mbRx k c crcOk msg => exact kept_execMbRx hP (m rfl) k c crcOk msg s hs
  | mbPop r k => exact kept_execMbPop hP (m rfl) r k s hs
  | pcieLinkUp gen width bme msix fmask => exact kept_execPcieLinkUp hP (m rfl) gen width bme msix fmask s hs
  | pcieLinkDown => exact kept_execPcieLinkDown hP (m rfl) s hs
  | msixSend v => exact kept_execMsixSend hP (m rfl) v s hs
  | eoi r v => exact kept_execEoi hP (m rfl) r v s hs
  | hdb r msg => exact kept_execHdb hP r msg s hs
  | conDataWrite r b => exact kept_execConDataWrite hP (m rfl) r b s hs
  | conDataRead r => exact kept_execConDataRead hP (m rfl) r s hs
  | ringEnable r n v => exact kept_execRingEnable hP (m rfl) r n v s hs
  | ringDisable r n v => exact kept_execRingDisable hP (m rfl) r n v s hs
  | ringTailWrite r n tail descs => exact kept_execRingTailWrite hP (m rfl) r n tail descs s hs
  | ringDescDone n ok => exact kept_execRingDescDone hP (m rfl) (m rfl) (m rfl) (m rfl) n ok s hs
  | ringReport n => exact kept_execRingReport hP (m rfl) (m rfl) n s hs
  | bootRomStart => exact kept_execBootRomStart hP (m rfl) (m rfl) s hs
  | imageCheck image media => exact kept_execImageCheck hP (m rfl) (m rfl) (m rfl) image media s hs
  | netbootRetry tftp => exact kept_execNetbootRetry hP (m rfl) (m rfl) tftp s hs
  | loadGo r => exact kept_execLoadGo hP (m rfl) r s hs
  | commitRb r => exact kept_execCommitRb hP (m rfl) r s hs
  | revoke r key => exact kept_execRevoke hP (m rfl) r key s hs
  | bootFail => exact kept_execBootFail hP (m rfl) s hs
  | coldReset rise bootSel roleSel testEn =>
    exact kept_execColdReset hP (m rfl) (m rfl) (m rfl) (m rfl) (m rfl) (m rfl) (m rfl) (m rfl) (m rfl) (m rfl)
      (m rfl) (m rfl) (m rfl) (m rfl) (m rfl) (m rfl) (m rfl) (m rfl) (m rfl) (m rfl) (m rfl) (m rfl) (m rfl) (m rfl)
      (m rfl) rise bootSel roleSel testEn s hs
  | pinReset bootSel roleSel testEn low =>
    exact kept_execPinReset hP (m rfl) (m rfl) (m rfl) (m rfl) (m rfl) (m rfl) (m rfl) (m rfl) (m rfl) (m rfl)
      (m rfl) (m rfl) (m rfl) (m rfl) (m rfl) (m rfl) (m rfl) (m rfl) (m rfl) (m rfl) bootSel roleSel testEn low s hs
  | warmReset r =>
    exact kept_execWarmReset hP (m rfl) (m rfl) (m rfl) (m rfl) (m rfl) (m rfl) (m rfl) (m rfl) (m rfl) (m rfl)
      (m rfl) (m rfl) (m rfl) (m rfl) (m rfl) (m rfl) (m rfl) (m rfl) (m rfl) r s hs
  | islandReset src die isl taken =>
    exact kept_execIslandReset hP (m rfl) (m rfl) (m rfl) (m rfl) (m rfl) (m rfl) (m rfl) (m rfl) (m rfl) (m rfl)
      (m rfl) (m rfl) (m rfl) (m rfl) (m rfl) (m rfl) (m rfl) src die isl taken s hs
  | resetRelease => exact kept_execResetRelease hP (m rfl) (m rfl) (m rfl) (m rfl) s hs
  | domReqWrite r v =>
    exact kept_execDomReqWrite hP (m rfl) (m rfl) (m rfl) (m rfl) (m rfl) (m rfl) (m rfl) (m rfl) (m rfl) (m rfl)
      (m rfl) r v s hs
  | domainOn dom => exact kept_execDomainOn hP (m rfl) (m rfl) (m rfl) (m rfl) (m rfl) dom s hs
  | pwrRequest r v perst => exact kept_execPwrRequest hP (m rfl) (m rfl) r v perst s hs
  | pwrEnter =>
    exact kept_execPwrEnter hP (m rfl) (m rfl) (m rfl) (m rfl) (m rfl) (m rfl) (m rfl) (m rfl) (m rfl) (m rfl)
      (m rfl) (m rfl) (m rfl) (m rfl) (m rfl) s hs
  | pwrWake perst con ask => exact kept_execPwrWake hP (m rfl) (m rfl) (m rfl) perst con ask s hs
  | pwrExit =>
    exact kept_execPwrExit hP (m rfl) (m rfl) (m rfl) (m rfl) (m rfl) (m rfl) (m rfl) (m rfl) (m rfl) (m rfl) s hs
  | avsWrite => exact kept_execAvsWrite hP (m rfl) (m rfl) s hs
  | avsStatus good => exact kept_execAvsStatus hP (m rfl) (m rfl) good s hs
  | tstUnlock r die v => exact kept_execTstUnlock hP (m rfl) (m rfl) (m rfl) (m rfl) (m rfl) (m rfl) r die v s hs
  | relock r die => exact kept_execRelock hP (m rfl) (m rfl) (m rfl) (m rfl) (m rfl) r die s hs
  | doubtInjWrite r die v => exact kept_execDoubtInjWrite hP (m rfl) (m rfl) (m rfl) (m rfl) (m rfl) r die v s hs
  | tileInjArm r d v => exact kept_execTileInjArm hP (m rfl) (m rfl) (m rfl) (m rfl) (m rfl) r d v s hs
  | rstWarm r die =>
    exact kept_execRstWarm hP (m rfl) (m rfl) (m rfl) (m rfl) (m rfl) (m rfl) (m rfl) (m rfl) (m rfl) (m rfl)
      (m rfl) (m rfl) (m rfl) (m rfl) (m rfl) (m rfl) (m rfl) (m rfl) (m rfl) r die s hs
  | rstIsland r page die isl taken =>
    exact kept_execRstIsland hP (m rfl) (m rfl) (m rfl) (m rfl) (m rfl) (m rfl) (m rfl) (m rfl) (m rfl) (m rfl)
      (m rfl) (m rfl) (m rfl) (m rfl) (m rfl) (m rfl) (m rfl) r page die isl taken s hs
  | backpressurePeriod d => exact kept_execBackpressurePeriod hP (m rfl) d s hs
  | tapInstruction code => exact kept_execTapInstruction hP (m rfl) code s hs
  | askBlockLockLost k => exact kept_execAskBlockLockLost hP (m rfl) (m rfl) k s hs
  | remoteFault d port on => exact kept_execRemoteFault hP d port on s hs
  | signalDetect d port eye => exact kept_execSignalDetect hP d port eye s hs
  | sdsPllLock d q h => exact kept_execSdsPllLock hP (m rfl) d q h s hs
  | pllLockReturn => exact kept_execPllLockReturn hP s hs
  | antOpenClear ma => exact kept_execAntOpenClear hP ma s hs
  | sivCrossEnd d => exact kept_execSivCrossEnd hP (m rfl) d s hs
  | ageLimitClear die volt => exact kept_execAgeLimitClear hP die volt s hs
  | conRxByte b => exact kept_execConRxByte hP (m rfl) b s hs
  | msixMaskClear v => exact kept_execMsixMaskClear hP (m rfl) v s hs
  | fuseWriteDone => exact kept_execFuseWriteDone hP (m rfl) s hs

/-- A command that answers a next state leaves a property that survives it. -/
theorem After.of_next {P : State → Prop} {o : Host.Outcome State Fault Refusal} {t : State} (h : After P o)
    (ho : o = .next t) : P t := by
  subst ho
  exact h

/-- A property that survives every change, and does not speak of the queue, survives every step. -/
theorem kept_step {P : State → Prop} (hP : Closed anyPart P) (hq : ∀ s q, P s → P { s with pending := q }) {s : State}
    (h : P s) : After P (step s) := by
  rw [step]
  split
  · exact kept_idleCycle hP trivial s h
  · next c rest hpending => exact kept_exec hP c (fun _ => trivial) _ (hq s rest h)

theorem canon_pending (s : State) (q : List Instr) (h : Canon s) : Canon { s with pending := q } := ⟨h.regs, h.core⟩

theorem shaped_pending (s : State) (q : List Instr) (h : Shaped s) : Shaped { s with pending := q } :=
  ⟨h.snapTbe, h.snapLtr, h.replicas, h.bufs, h.slots, h.mck, h.ports, h.links, h.lanes, h.rings, h.harts⟩

/-- Settles O3: the canonical form and the sizes both survive the changes of Closed, so they survive a step. -/
theorem stepKeepsInvariant : Obligations.StepKeepsInvariant := fun _ _ hcanon hshaped hstep =>
  ⟨(kept_step canon_closed canon_pending hcanon).of_next hstep,
    (kept_step shaped_closed shaped_pending hshaped).of_next hstep⟩

/-- Settles O5: that the parts outside `mayChange c` stay as they were in a state is a property that survives the
changes of the parts in it, so it survives the command. -/
theorem commandFrames : Obligations.CommandFrames := by
  intro c s t hexec x hx
  have hleaves : Leaves (fun x => x ∈ mayChange c) s t :=
    (kept_exec (leaves_closed _ s) c List.mem_of_elem_eq_true s (leaves_refl _ s)).of_next hexec
  exact (hleaves x).resolve_left hx

end Sys2Proof.Machine
end

section
/-! The state after a COLD reset (R30, R450): its form, and what its registers and blocks read. -/

namespace Sys2Proof.Machine

theorem reset_canon : Canon State.reset := ⟨by decide, by decide⟩

/-- The release of the reset starts a hart, and no collection changes its size. -/
theorem reset_shaped : Shaped State.reset :=
  ⟨cold_shaped.snapTbe, cold_shaped.snapLtr, cold_shaped.replicas, cold_shaped.bufs, cold_shaped.slots, cold_shaped.mck,
    cold_shaped.ports, cold_shaped.links, cold_shaped.lanes, cold_shaped.rings, rfl⟩

/-- Settles O4: the form of the state while the reset is held, and what its release changes. -/
theorem resetMeetsInvariant : Obligations.ResetMeetsInvariant := ⟨reset_canon, reset_shaped, rfl⟩

/-- The conditions and views that stand in registers when a COLD reset is released. -/
theorem reset_registers :
    timeSet State.reset = false ∧ doubts State.reset pTBE 0 = true ∧ utcValid State.reset = false ∧
      doubts State.reset pTBE 2 = true ∧ get State.reset pDSC fDSC_STAT_STATE = 0 ∧
      flag State.reset pSAF fSAF_STAT_SAFE = true ∧ rdN State.reset pSAF rSAF_ENTRY_CNT = 1 ∧
      get State.reset pHubDie fDIE_PWR_STAT_STATE = 0 ∧ flag State.reset pHubDie fDIE_FEAT_CTRL_COMMITTED = false := by
  decide +kernel

/-- Settles O6: the registers by their readings, the fields of the blocks as `State.reset` gives them. -/
theorem resetValues : Obligations.ResetValues := by
  obtain ⟨htime, htimeDoubt, hutc, hutcDoubt, hservo, hsafe, hentry, hstate, hcommitted⟩ := reset_registers
  exact ⟨rfl, by decide, htime, htimeDoubt, hutc, hutcDoubt, hservo, hsafe, hentry, hstate, rfl, rfl, rfl, rfl, rfl, rfl,
    rfl, rfl, hcommitted⟩

end Sys2Proof.Machine
end

section
/-! Accesses that are turned away (R25, R342, R443): the counts, and what a denied write shows of the hart. -/

namespace Sys2Proof.Machine

/-! ### What reads of one register alike say -/

theorem rdN_congr {s t : State} {p : Pg} {o : Nat} (h : rdA t (p.adr o) = rdA s (p.adr o)) : rdN t p o = rdN s p o := by
  rw [rdN, rd, h, rdN, rd]

theorem get_congr {s t : State} {p : Pg} {f : Fld} (h : rdA t (p.adr f.off) = rdA s (p.adr f.off)) :
    get t p f = get s p f := by
  rw [get, rdN_congr h, get]

theorem OtherRegs.refl (s : State) (l : List Nat) : OtherRegs s s l := fun _ _ _ => rfl

theorem OtherRegs.trans {s t u : State} {l : List Nat} (h₁ : OtherRegs s t l) (h₂ : OtherRegs t u l) :
    OtherRegs s u l := fun a ha hrec => (h₂ a ha hrec).trans (h₁ a ha hrec)

theorem OtherRegs.mono {s t : State} {l m : List Nat} (h : OtherRegs s t l) (hlm : l ⊆ m) : OtherRegs s t m :=
  fun a ha hrec => h a (fun hl => ha (hlm hl)) hrec

theorem otherRegs_put (s : State) (p : Pg) (f : Fld) (v : Nat) : OtherRegs s (put s p f v) [p.adr f.off] :=
  fun _ ha _ => rdA_put_ne s p f v (by simpa using ha)

theorem otherRegs_raiseBy (s : State) (p : Pg) (bit : Nat) (forced : Bool) :
    OtherRegs s (raiseBy s p bit forced) [p.adr rINT_RAW] :=
  fun _ ha hrec => rdA_raiseBy_ne s p bit forced (offRec_of_page hrec) (by simpa using ha)

theorem otherRegs_raise (s : State) (p : Pg) (bit : Nat) : OtherRegs s (raise s p bit) [p.adr rINT_RAW] :=
  otherRegs_raiseBy s p bit false

/-! ### Accesses turned away -/

/-- R25: a page that no row of Table 02-1 lists. -/
theorem access_unmapped {p : Pg} (hmap : pageKind p = none) (hdie : p.die ≠ 3) (s : State) (r : Requester)
    (isWr dbOk : Bool) (f : State → State) :
    access s r p isWr dbOk f =
      if isWr then bump s (pDIE p.die) rDIE_UNMAP_CNT else reply (bump s (pDIE p.die) rDIE_UNMAP_CNT) 0 := by
  simp only [access, hdie, if_false, hmap]

/-- R443: a write to a page in retention. -/
theorem access_retained {s : State} {p : Pg} (hmap : (pageKind p).isSome = true) (hon : pageOn s p = true)
    (hret : pageRetained s p = true) (r : Requester) (dbOk : Bool) (f : State → State) :
    access s r p true dbOk f = bump s (pBLV p.die) rBLV_OFF_CNT := by
  obtain ⟨k, hk⟩ := Option.isSome_iff_exists.mp hmap
  simp only [access, die_ne_three_of_mapped hmap, if_false, hk, hon, hret, Bool.not_true, Bool.false_eq_true,
    Bool.and_self, if_true]

/-- R342: a write that is denied. -/
theorem access_denied {s : State} {r : Requester} {p : Pg} {dbOk : Bool} (hread : readable s p = true)
    (hret : pageRetained s p = false) (hden : appDenied s r p dbOk = true) (f : State → State) :
    access s r p true dbOk f = deny s r (denyKind p) := by
  obtain ⟨h3, ⟨k, hk⟩, hon⟩ := (readable_iff s p).mp hread
  simp only [access, h3, if_false, hk, hon, hret, hden, Bool.not_true, Bool.and_false, Bool.false_eq_true, if_true,
    Bool.and_self]

/-- R342: what is denied to an application hart beyond the CPU page. -/
theorem appDenied_hart {s : State} {h : Fin 6} {p : Pg} (happ : 2 ≤ h.val)
    (hden : pageKind p = some .saf ∨ pageKind p = some .boot ∨ pageKind p = some .tst ∨
      bitOf (get s pCPU (fCPU_APP_WR_DIE (h.val - 2))) p.die = false) (dbOk : Bool) :
    appDenied s (.hart h) p dbOk = true := by
  simp only [appDenied, isApp, decide_eq_true happ, Bool.true_and, Bool.or_eq_true, beq_iff_eq, Bool.not_eq_true']
  rcases hden with hsaf | hboot | htst | hbit
  · exact .inl (.inl (.inl (.inl hsaf)))
  · exact .inl (.inl (.inl (.inr hboot)))
  · exact .inl (.inl (.inr htst))
  · exact .inr hbit

/-! ### What a denial shows (R342) -/

/-- The CPU page is not the Recorder's. -/
theorem offRec_cpu (o : Nat) (ho : o < 0x1000) : offRec (pCPU.adr o) = true :=
  offRec_of_page (by simp only [Pg.adr]; omega)

theorem rdN_deny_count (s : State) (r : Requester) (kind : Nat) :
    rdN (deny s r kind) pCPU rCPU_DENY_CNT = min (rdN s pCPU rCPU_DENY_CNT + 1) 0xFFFFFFFF := by
  rw [deny, rdN_congr (rdA_raise_ne _ _ _ (offRec_cpu _ (by decide)) (by decide)),
    rdN_congr (rdA_put_ne _ _ _ _ (by decide)), rdN_congr (rdA_put_ne _ _ _ _ (by decide)), rdN_bump_same]

theorem intRaw_deny (s : State) (r : Requester) (kind : Nat) : intRaw (deny s r kind) pCPU 2 = true :=
  raise_set _ pCPU 2 (by decide) (offRec_cpu _ (by decide))

theorem reqCode_lt (r : Requester) : reqCode r < 8 := by
  cases r with
  | hart h => exact lt_trans h.2 (by decide)
  | host => decide

theorem lastDeny_hart (s : State) (r : Requester) (kind : Nat) :
    get (deny s r kind) pCPU fCPU_LAST_DENY_HART = reqCode r := by
  rw [deny, get_congr (rdA_raise_ne _ _ _ (offRec_cpu _ (by decide)) (by decide)),
    get_put_apart _ pCPU fCPU_LAST_DENY_KIND fCPU_LAST_DENY_HART _ rfl (by decide) (by decide),
    get_put_same _ _ _ _ (by decide)]
  exact Nat.mod_eq_of_lt (reqCode_lt r)

theorem otherRegs_deny (s : State) (r : Requester) (kind : Nat) :
    OtherRegs s (deny s r kind) [pCPU.adr rCPU_DENY_CNT, pCPU.adr rINT_RAW, pCPU.adr rCPU_LAST_DENY] := by
  have hbump := otherRegs_bump s pCPU rCPU_DENY_CNT
  have hhart := otherRegs_put (bump s pCPU rCPU_DENY_CNT) pCPU fCPU_LAST_DENY_HART (reqCode r)
  have hkind := otherRegs_put (put (bump s pCPU rCPU_DENY_CNT) pCPU fCPU_LAST_DENY_HART (reqCode r)) pCPU
    fCPU_LAST_DENY_KIND kind
  have hraise := otherRegs_raise (put (put (bump s pCPU rCPU_DENY_CNT) pCPU fCPU_LAST_DENY_HART (reqCode r)) pCPU
    fCPU_LAST_DENY_KIND kind) pCPU 2
  exact (((hbump.mono (by simp)).trans (hhart.mono (by simp))).trans (hkind.mono (by simp))).trans
    (hraise.mono (by simp))

/-! ### The rows -/

theorem exec_unmappedAccess {die : Fin 8} {page : Fin 0x2000} (hmap : pageKind ⟨die, page⟩ = none) (r : Requester)
    (wr : Bool) (s : State) :
    exec (.unmappedAccess r die page wr) s = .next (access s r ⟨die, page⟩ wr false fun s => s) := by
  simp only [exec, execUnmappedAccess, pgArg, hmap, Option.isNone_none, if_true]

theorem exec_poweredOffAccess_retained {s : State} {die : Fin 8} {page : Fin 0x2000}
    (hmap : (pageKind ⟨die, page⟩).isSome = true) (hret : pageRetained s ⟨die, page⟩ = true) (r : Requester) :
    exec (.poweredOffAccess r die page true) s = .next (access s r ⟨die, page⟩ true false fun s => s) := by
  simp only [exec, execPoweredOffAccess, pgArg, hmap, hret, Bool.and_self, Bool.or_true, if_true]

/-- Settles O8: each access ends at its own count, and a denied one shows its hart besides. -/
theorem accessesTurnedAway : Obligations.AccessesTurnedAway := by
  refine ⟨fun r die page wr s hmap hdie => ?unmapped, fun r die page s hmap hon hret => ?retained,
    fun h die page off v env s happ hread hret _ hden => ?denied⟩
  case unmapped =>
    rw [exec_unmappedAccess hmap, answers_next, access_unmapped hmap hdie]
    cases wr with
    | true => exact ⟨rdN_bump_same _ _ _, otherRegs_bump _ _ _, fun h => nomatch h⟩
    | false =>
      refine ⟨?_, fun a ha hrec => ?_, fun _ => lastRead_reply _ 0⟩
      · rw [if_neg Bool.false_ne_true, rdN_reply, rdN_bump_same]
      · rw [if_neg Bool.false_ne_true, rdA_reply, otherRegs_bump _ _ _ a ha hrec]
  case retained =>
    rw [exec_poweredOffAccess_retained hmap hret, answers_next, access_retained hmap hon hret]
    exact ⟨rdN_bump_same _ _ _, otherRegs_bump _ _ _⟩
  case denied =>
    obtain ⟨dbOk, f, hexec⟩ := exec_regWrite_b32 (p := ⟨die, page⟩) die.2 page.2 off.2 (.hart h) v env s
    have hden' : appDenied (quiet s) (.hart h) ⟨die, page⟩ dbOk = true := appDenied_hart happ hden dbOk
    rw [hexec, answers_next, access_denied (s := quiet s) hread hret hden']
    exact ⟨rdN_deny_count _ _ _, intRaw_deny _ _ _, lastDeny_hart _ _ _, otherRegs_deny _ _ _⟩

end Sys2Proof.Machine
end

section
/-! Interrupt bits beside the records that events write (R34, R368): a record that is lost raises bit 4 of the Recorder
and no other interrupt bit of any page. -/

namespace Sys2Proof.Machine

/-- A register that no record touches. -/
theorem offRec_of_off {o : Nat} (p : Pg) (ho : o < 0x1000) (h : recOffs.contains o = false) :
    offRec (p.adr o) = true := by
  have hoff : p.adr o % 0x1000 = o := by simp only [Pg.adr]; omega
  simp only [offRec, hoff, h, Bool.and_false, Bool.not_false]

/-- A page of the device is the Recorder's, or no record touches its INT_RAW. -/
theorem recorder_or_offRec {p : Pg} (hd : p.die < 8) (hp : p.page < 0x2000) :
    p = pREC ∨ offRec (p.adr rINT_RAW) = true := by
  obtain ⟨d, n⟩ := p
  simp only at hd hp
  refine (eq_or_ne (⟨d, n⟩ : Pg) pREC).imp_right fun hne => offRec_of_page ?_
  simp only [ne_eq, Pg.mk.injEq] at hne
  simp only [Pg.adr, rINT_RAW]
  omega

/-- The interrupt bits of a page read as before, but that bit 4 of the Recorder may have risen. -/
def SameInts (p : Pg) (s t : State) : Prop :=
  ∀ b, b < 32 → intRaw t p b = intRaw s p b ∨ (p = pREC ∧ b = 4 ∧ intRaw t p b = true)

theorem SameInts.of_rdA {p : Pg} {s t : State} (h : rdA t (p.adr rINT_RAW) = rdA s (p.adr rINT_RAW)) :
    SameInts p s t := fun b _ => .inl (by rw [intRaw, rdN_congr h, intRaw])

theorem SameInts.refl (p : Pg) (s : State) : SameInts p s s := .of_rdA rfl

theorem SameInts.trans {p : Pg} {s t u : State} (h₁ : SameInts p s t) (h₂ : SameInts p t u) : SameInts p s u := by
  intro b hb
  rcases h₂ b hb with h | h
  · rw [h]
    exact h₁ b hb
  · exact .inr h

/-- A bit that stands stays. -/
theorem SameInts.keeps {p : Pg} {s t : State} (h : SameInts p s t) {b : Nat} (hb : b < 32)
    (hset : intRaw s p b = true) : intRaw t p b = true := by
  rcases h b hb with hsame | ⟨_, _, hrisen⟩
  · rw [hsame, hset]
  · exact hrisen

/-- A bit other than the Recorder's bit 4 stays as it was. -/
theorem SameInts.same {p : Pg} {s t : State} (h : SameInts p s t) {b : Nat} (hb : b < 32) (hne : b ≠ 4 ∨ p ≠ pREC) :
    intRaw t p b = intRaw s p b := by
  rcases h b hb with hsame | ⟨hp, h4, _⟩
  · exact hsame
  · exact absurd hne (by simp [hp, h4])

section

variable {p : Pg} (hp : p = pREC ∨ offRec (p.adr rINT_RAW) = true)
include hp

theorem sameInts_countLost (s : State) (e : RecEntry) : SameInts p s (countLost s e) := by
  rcases hp with rfl | hoff
  · have hdrop : rdN (bumpBy s pREC (rREC_DROP_CNT e.sev) e.size) pREC rINT_RAW = rdN s pREC rINT_RAW :=
      rdN_congr (rdA_bumpBy_ne _ _ _ _ (by simp only [Pg.adr, rINT_RAW, rREC_DROP_CNT]; omega))
    have hset : ∀ b, b < 32 → intRaw (wrN (bumpBy s pREC (rREC_DROP_CNT e.sev) e.size) pREC rINT_RAW
        (setBit (rdN s pREC rINT_RAW) 4 true)) pREC b = if b = 4 then true else intRaw s pREC b := by
      intro b hb
      rw [intRaw, rdN_wrN_same, bitOf_mod _ _ hb, bitOf_setBit, intRaw]
    have hrisen : SameInts pREC s (wrN (bumpBy s pREC (rREC_DROP_CNT e.sev) e.size) pREC rINT_RAW
        (setBit (rdN s pREC rINT_RAW) 4 true)) := by
      intro b hb
      rcases eq_or_ne b 4 with rfl | hne
      · exact .inr ⟨rfl, rfl, by rw [hset 4 hb, if_pos rfl]⟩
      · exact .inl (by rw [hset b hb, if_neg hne])
    simp only [countLost, hdrop]
    split
    · exact hrisen.trans (.of_rdA (rdA_putQ_ne _ _ _ _ _ (by simp only [bank, Pg.adr, rINT_RAW]; omega)))
    · exact hrisen
  · exact .of_rdA (rdA_countLost s e hoff)

theorem sameInts_pushEntry (s : State) (i : Nat) (e : RecEntry) : SameInts p s (pushEntry s i e) := by
  have hbuf : ∀ f, SameInts p s (updBuf s i f) := fun f => .of_rdA (rdA_updBuf s i f _)
  simp only [pushEntry]
  split
  · exact hbuf _
  · split
    · exact (hbuf _).trans (sameInts_countLost hp _ _)
    · split
      · exact .refl p s
      · exact (hbuf _).trans (sameInts_countLost hp _ _)

theorem sameInts_closeRun (s : State) (i : Nat) : SameInts p s (closeRun s i) := by
  have hbuf : ∀ f, SameInts p s (updBuf s i f) := fun f => .of_rdA (rdA_updBuf s i f _)
  simp only [closeRun]
  split
  · exact .refl p s
  · split
    · exact hbuf _
    · exact (hbuf _).trans (sameInts_pushEntry hp _ _ _)

/-- A record that is staged raises no interrupt bit but the Recorder's bit 4. -/
theorem sameInts_stage (s : State) (i : Nat) (always : Bool) (e : RecEntry) : SameInts p s (stage s i always e) := by
  have hbuf : ∀ s f, SameInts p s (updBuf s i f) := fun s f => .of_rdA (rdA_updBuf s i f _)
  have hcount : ∀ s o k, 0x60 < o → o < 0x100 → SameInts p s (bumpBy s pREC o k) := fun s o k hlo hhi =>
    .of_rdA (rdA_bumpBy_ne _ _ _ _ (by simp only [Pg.adr, rINT_RAW]; omega))
  have hfull : SameInts p s (pushEntry (closeRun s i) i e) :=
    (sameInts_closeRun hp s i).trans (sameInts_pushEntry hp _ _ _)
  simp only [stage]
  split
  · exact hcount s _ _ (by decide) (by decide)
  · split
    · exact hfull
    · split
      · exact (sameInts_pushEntry hp s i e).trans (hbuf _ _)
      · split
        · exact (hbuf s _).trans (hcount _ _ _ (by decide) (by decide))
        · exact hfull.trans (hbuf _ _)

theorem sameInts_noteDoubt (b s : State) (q : Pg) (forced : Bool) : SameInts p s (noteDoubt b s q forced) := by
  simp only [noteDoubt]
  split
  · exact .refl p s
  · split
    · exact sameInts_stage hp _ _ _ _
    · exact sameInts_stage hp _ _ _ _

/-- The event of a bit sets it, and no other but the Recorder's bit 4. -/
theorem intRaw_raiseBy (s : State) (bit : Nat) (forced : Bool) {b : Nat} (hb : b < 32) :
    intRaw (raiseBy s p bit forced) p b = (decide (b = bit) || intRaw s p b) ∨
      (p = pREC ∧ b = 4 ∧ intRaw (raiseBy s p bit forced) p b = true) := by
  by_cases hstood : intRaw s p bit = true
  · rw [show raiseBy s p bit forced = s from by rw [raiseBy]; exact if_pos hstood]
    rcases eq_or_ne b bit with rfl | hne
    · exact .inl (by simp [hstood])
    · exact .inl (by simp [hne])
  · have hset : intRaw (wrN s p rINT_RAW (setBit (rdN s p rINT_RAW) bit true)) p b =
        (decide (b = bit) || intRaw s p b) := by
      rw [intRaw, rdN_wrN_same, bitOf_mod _ _ hb, bitOf_setBit, intRaw]
      split <;> simp [*]
    have hrecord : SameInts p (wrN s p rINT_RAW (setBit (rdN s p rINT_RAW) bit true)) (raiseBy s p bit forced) := by
      rw [raiseBy]
      simp only [show bitOf (rdN s p rINT_RAW) bit = false from Bool.eq_false_iff.mpr hstood, Bool.false_eq_true,
        if_false]
      split
      · exact sameInts_stage hp _ _ _ _
      · exact .refl _ _
    rw [← hset]
    exact hrecord b hb

theorem intRaw_raise_same (s : State) {bit : Nat} (hb : bit < 32) : intRaw (raise s p bit) p bit = true := by
  rcases intRaw_raiseBy hp s bit false hb with h | ⟨_, _, h⟩
  · rw [raise, h, decide_eq_true rfl, Bool.true_or]
  · exact h

end

end Sys2Proof.Machine
end

section
/-! The register write (R27, R28, R41): its stops, its widths, and what it stores in the common header. -/

namespace Sys2Proof.Machine

/-! ### A write that acts -/

/-- The writes to the CPU page that R346 permits are denied no more than the others. -/
theorem appDenied_permitted {s : State} {r : Requester} {p : Pg} (h : appDenied s r p false = false) (dbOk : Bool) :
    appDenied s r p dbOk = false := by
  cases dbOk with
  | false => exact h
  | true =>
    cases r with
    | host => rfl
    | hart n =>
      simp only [appDenied, Bool.and_eq_false_iff, Bool.or_eq_false_iff] at h ⊢
      simp only [Bool.not_true, or_true, and_true]
      exact h.imp_right fun ⟨⟨hkind, _⟩, hdie⟩ => ⟨hkind, hdie⟩

theorem access_writable {s : State} {r : Requester} {p : Pg} (h : writable s r p = true) (dbOk : Bool)
    (f : State → State) : access s r p true dbOk f = f s := by
  simp only [writable, Bool.and_eq_true, Bool.not_eq_true', readable_iff] at h
  obtain ⟨⟨⟨h3, ⟨k, hk⟩, hon⟩, hret⟩, hden⟩ := h
  simp only [access, h3, if_false, hk, hon, hret, appDenied_permitted hden dbOk, Bool.not_true, Bool.and_false,
    Bool.false_eq_true]

theorem pageKind_of_writable {s : State} {r : Requester} {p : Pg} (h : writable s r p = true) :
    ∃ k, pageKind p = some k := by
  simp only [writable, Bool.and_eq_true, readable_iff] at h
  exact h.1.1.2.1

theorem adr_lt_bar0 {p : Pg} {o : Nat} (hd : p.die < 8) (hp : p.page < 0x2000) (ho : o < 0x1000) :
    ¬ 0x10000000 ≤ p.adr o := by
  simp only [Pg.adr]
  omega

theorem offOf_adr (p : Pg) {o : Nat} (ho : o < 0x1000) : offOf (p.adr o) = o := by
  simp only [offOf, Pg.adr]
  omega

/-- R27: a narrow write to a page that the requester may write. -/
theorem exec_regWrite_narrow {s : State} {r : Requester} {p : Pg} {o : Nat} {size : AccSize}
    (hd : p.die < 8) (hp : p.page < 0x2000) (ho : o < 0x1000) (hsize : size = .b8 ∨ size = .b16)
    (hw : writable s r p = true) (v : BitVec 64) (env : WriteFacts) :
    exec (.regWrite r (p.adr o) size v env) s = .next (bump (quiet s) (pDIE p.die) rDIE_BAD_ACC_CNT) := by
  have hnarrow : narrowWrite (quiet s) r (p.adr o) = bump (quiet s) (pDIE p.die) rDIE_BAD_ACC_CNT := by
    rw [narrowWrite, pgOf_adr hd hp ho]
    exact access_writable (s := quiet s) hw _ _
  rcases hsize with rfl | rfl <;> simp only [exec, execRegWrite, adr_lt_bar0 hd hp ho, if_false, hnarrow]

/-- A 32-bit write to the header of a page that the requester may write. -/
theorem exec_regWrite_header {s : State} {r : Requester} {p : Pg} {o : Nat} {k : PageKind}
    (hd : p.die < 8) (hp : p.page < 0x2000) (ho : o < 0x40) (halign : o % 4 = 0) (hk : pageKind p = some k)
    (hw : writable s r p = true) (v : BitVec 64) (env : WriteFacts) :
    exec (.regWrite r (p.adr o) .b32 v env) s = .next (headerWrite (quiet s) r k p o (v.toNat % 2 ^ 32)) := by
  have ho' : o < 0x1000 := by omega
  have hadr : p.adr o % 4 = 0 := by simp only [Pg.adr]; omega
  have hstore : storeWord (quiet s) r (p.adr o) (v.toNat % 2 ^ 32) env =
      headerWrite (quiet s) r k p o (v.toNat % 2 ^ 32) := by
    simp only [storeWord, pgOf_adr hd hp ho', offOf_adr p ho']
    rw [access_writable (s := quiet s) hw]
    simp only [pageWrite, hk, ho, if_true]
  simp only [exec, execRegWrite, adr_lt_bar0 hd hp ho', if_false, hadr, if_true]
  exact congrArg _ hstore

/-! ### The access codes of the header (Table 02-3) -/

theorem rowOf_intRaw (k : PageKind) (p : Pg) :
    rowOf k p rINT_RAW = some ⟨0x10, 1, 0x4, 0, 0, 0xFFFFFFFF, 0, 0, 0, 0, false⟩ := rfl

theorem rowOf_intEn (k : PageKind) (p : Pg) :
    rowOf k p rINT_EN = some ⟨0x14, 1, 0x4, 0xFFFFFFFF, 0, 0, 0, 0, 24, 0, false⟩ := rfl

theorem rowOf_doubtEn (k : PageKind) (p : Pg) :
    rowOf k p rDOUBT_EN = some ⟨0x24, 1, 0x4, 0, 0xFFFFFFFF, 0, 0, 0, 24, 0, false⟩ := rfl

/-- No requester has a copy of INT_RAW or INT_EN of its own. -/
theorem regKey_header (q : Nat) (k : PageKind) (p : Pg) {o : Nat} (ho : o = rINT_RAW ∨ o = rINT_EN) :
    regKey q k p o = p.adr o := by
  rcases ho with rfl | rfl <;> cases k <;> rfl

/-- INT_RAW and INT_EN hold no field that a write clamps. -/
theorem storedAs_header (s : State) (k : PageKind) (p : Pg) (v : Nat) {o : Nat} (ho : o = rINT_RAW ∨ o = rINT_EN) :
    storedAs s k p o v = v := by
  rcases ho with rfl | rfl <;> cases k <;> rfl

theorem wmerge_rw (old : Nat) {v : Nat} (hold : old < 2 ^ 32) (hv : v < 2 ^ 32) :
    wmerge ⟨0xFFFFFFFF, 0, 0, false⟩ old v = v := by
  have hall : ∀ n, n < 2 ^ 32 → n &&& 0xFFFFFFFF = n := fun n hn => Nat.and_two_pow_sub_one_of_lt_two_pow (n := 32) hn
  simp [wmerge, hall old hold, hall v hv]

theorem wmerge_w1c (old : Nat) {v : Nat} (hv : v < 2 ^ 32) :
    wmerge ⟨0, 0xFFFFFFFF, 0, false⟩ old v = old - (old &&& v) := by
  have hall : v &&& 0xFFFFFFFF = v := Nat.and_two_pow_sub_one_of_lt_two_pow (n := 32) hv
  simp [wmerge, hall]

/-- Taking from a number its bits that stand in another clears these. -/
theorem testBit_sub_and {w : Nat} (x y : BitVec w) (b : Nat) :
    (x.toNat - (x.toNat &&& y.toNat)).testBit b = (x.getLsbD b && !y.getLsbD b) := by
  have hdisj : (x &&& ~~~y) &&& (x &&& y) = 0#w := by
    ext i
    simp only [BitVec.getElem_and, BitVec.getElem_not, BitVec.getElem_zero]
    cases x[i] <;> cases y[i] <;> rfl
  have hsum : (x &&& ~~~y) + (x &&& y) = x := by
    rw [BitVec.add_eq_or_of_and_eq_zero _ _ hdisj]
    ext i
    simp only [BitVec.getElem_or, BitVec.getElem_and, BitVec.getElem_not]
    cases x[i] <;> cases y[i] <;> rfl
  have hle : x &&& y ≤ x := by
    rw [BitVec.le_def, BitVec.toNat_and]
    exact Nat.and_le_left
  rw [← BitVec.toNat_and, ← BitVec.toNat_sub_of_le hle, ← eq_sub_of_add_eq hsum, BitVec.testBit_toNat,
    BitVec.getLsbD_and, BitVec.getLsbD_not]
  by_cases hb : b < w
  · simp [hb]
  · simp [hb, BitVec.getLsbD_of_ge x b (by omega)]

/-! ### What a write stores -/

@[simp] theorem rdA_vecsFall (s : State) (a : Nat) : rdA (vecsFall s) a = rdA s a := rfl

/-- A write of INT_RAW or INT_EN stores by its access code and, in the host interface, lets vectors fall. -/
theorem rdA_headerWrite (s : State) (r : Requester) (k : PageKind) (p : Pg) (v a : Nat) {o : Nat}
    (ho : o = rINT_RAW ∨ o = rINT_EN) : rdA (headerWrite s r k p o v) a = rdA (plainWrite s r k p o v) a := by
  have hother : o ≠ rPAGE_CTRL ∧ o ≠ rINT_FORCE ∧ o ≠ rDOUBT_EN := by rcases ho with rfl | rfl <;> decide
  obtain ⟨hctrl, hforce, hdoubt⟩ := hother
  simp only [headerWrite, hctrl, hforce, hdoubt, if_false]
  split <;> simp

theorem plainWrite_intEn (s : State) (r : Requester) (k : PageKind) (p : Pg) {v : Nat} (hv : v < 2 ^ 32) :
    plainWrite s r k p rINT_EN v = wrN s p rINT_EN v := by
  simp only [plainWrite, rowOf_intEn, ne_eq, not_true_eq_false, false_and, if_false, regKey_header _ _ _ (.inr rfl),
    storedAs_header _ _ _ _ (.inr rfl), Nat.or_zero]
  rw [wmerge_rw _ (BitVec.isLt _) hv, wrN, wr]

theorem plainWrite_intRaw (s : State) (r : Requester) (k : PageKind) (p : Pg) {v : Nat} (hv : v < 2 ^ 32) :
    plainWrite s r k p rINT_RAW v = wrN s p rINT_RAW (rdN s p rINT_RAW - (rdN s p rINT_RAW &&& v)) := by
  simp only [plainWrite, rowOf_intRaw, ne_eq, not_true_eq_false, false_and, if_false, regKey_header _ _ _ (.inl rfl),
    storedAs_header _ _ _ _ (.inl rfl), Nat.or_zero]
  rw [wmerge_w1c _ hv, wrN, wr, rdN, rd]

/-- R41: a locked page keeps its DOUBT_EN. -/
theorem plainWrite_doubtEn_locked {s : State} {p : Pg} (hlock : pageLocked s p = true) (r : Requester) (k : PageKind)
    (v : Nat) : plainWrite s r k p rDOUBT_EN v = lockViol s p := by
  simp [plainWrite, rowOf_doubtEn, hlock]

theorem headerWrite_doubtEn_locked {s : State} {p : Pg} (hlock : pageLocked s p = true) (r : Requester) (k : PageKind)
    (v : Nat) : headerWrite s r k p rDOUBT_EN v = noteDoubt s (lockViol s p) p false := by
  rw [← plainWrite_doubtEn_locked hlock r k v]
  rfl

theorem rdA_lockViol_ne (s : State) (p : Pg) {a : Nat} (h : offRec a = true)
    (hcnt : a ≠ (pDIE p.die).adr rDIE_LOCK_VIOL_CNT) (hraw : a ≠ p.adr rINT_RAW) :
    rdA (lockViol s p) a = rdA s a := by
  rw [lockViol, rdA_raise_ne _ _ _ h hraw, rdA_bump_ne _ _ _ hcnt]

theorem rdN_lockViol_count (s : State) (p : Pg) :
    rdN (lockViol s p) (pDIE p.die) rDIE_LOCK_VIOL_CNT =
      min (rdN s (pDIE p.die) rDIE_LOCK_VIOL_CNT + 1) 0xFFFFFFFF := by
  have hne : (pDIE p.die).adr rDIE_LOCK_VIOL_CNT ≠ p.adr rINT_RAW := by
    simp only [Pg.adr, rDIE_LOCK_VIOL_CNT, rINT_RAW]
    omega
  rw [lockViol, rdN_congr (rdA_raise_ne _ _ _ (offRec_of_off _ (by decide) (by decide)) hne), rdN_bump_same]

/-! ### The row -/

theorem exec_regWrite_outside {adr : Nat} (h : 0x10000000 ≤ adr) (r : Requester) (size : AccSize) (v : BitVec 64)
    (env : WriteFacts) (s : State) : exec (.regWrite r adr size v env) s = .fault (.outsideBar0 adr) := by
  simp only [exec, execRegWrite, h, if_true]

theorem exec_regWrite_b32_any {adr : Nat} (h : adr < 0x10000000) (r : Requester) (v : BitVec 64) (env : WriteFacts)
    (s : State) :
    exec (.regWrite r adr .b32 v env) s =
      if adr % 4 = 0 then .next (storeWord (quiet s) r adr (v.toNat % 2 ^ 32) env) else .refused (.misaligned adr) := by
  simp only [exec, execRegWrite, Nat.not_le.mpr h, if_false]
  rfl

theorem exec_regWrite_b64_any {adr : Nat} (h : adr < 0x10000000) (r : Requester) (v : BitVec 64) (env : WriteFacts)
    (s : State) :
    exec (.regWrite r adr .b64 v env) s =
      if adr % 8 = 0 then
        .next (storeWord (storeWord (quiet s) r adr (v.toNat % 2 ^ 32) env) r (adr + 4) (v.toNat / 2 ^ 32) env)
      else .refused (.misaligned adr) := by
  simp only [exec, execRegWrite, Nat.not_le.mpr h, if_false]
  rfl

/-- Settles O9: the stops and the widths are the cases of the row; a header register is stored by the masks of its
access code. -/
theorem registerWrite : Obligations.RegisterWrite := by
  refine ⟨fun r adr size v env s h => exec_regWrite_outside h r size v env s,
    fun r adr v env s h hmis => by rw [exec_regWrite_b32_any h, if_neg hmis],
    fun r adr v env s h hmis => by rw [exec_regWrite_b64_any h, if_neg hmis],
    fun r adr v env s h hal => by rw [exec_regWrite_b32_any h, if_pos hal],
    fun r adr v env s h hal => by rw [exec_regWrite_b64_any h, if_pos hal],
    fun r die page off size v env s hsize hw => ?narrow, fun r die page v env s hw => ?intEn,
    fun r die page v env s hw => ?intRaw, fun r die page v env s hw hlock => ?locked⟩
  case narrow =>
    rw [exec_regWrite_narrow (p := ⟨die, page⟩) die.2 page.2 off.2 hsize hw, answers_next]
    exact ⟨rdN_bump_same _ _ _, otherRegs_bump _ _ _⟩
  case intEn =>
    have hv : v.toNat % 2 ^ 32 < 2 ^ 32 := Nat.mod_lt _ (by decide)
    obtain ⟨k, hk⟩ := pageKind_of_writable hw
    rw [exec_regWrite_header (p := ⟨die, page⟩) die.2 page.2 (by decide) rfl hk hw, answers_next]
    have hread : ∀ a, rdA (headerWrite (quiet s) r k ⟨die, page⟩ rINT_EN (v.toNat % 2 ^ 32)) a =
        rdA (wrN (quiet s) ⟨die, page⟩ rINT_EN (v.toNat % 2 ^ 32)) a := fun a => by
      rw [rdA_headerWrite _ _ _ _ _ _ (.inr rfl), plainWrite_intEn _ _ _ _ hv]
    refine ⟨?_, fun a ha _ => ?_⟩
    · rw [rdN_congr (hread _), rdN_wrN_same, Nat.mod_mod]
    · rw [hread, rdA_wrN_ne _ _ _ _ (by simpa using ha)]
      rfl
  case intRaw =>
    have hv : v.toNat % 2 ^ 32 < 2 ^ 32 := Nat.mod_lt _ (by decide)
    obtain ⟨k, hk⟩ := pageKind_of_writable hw
    rw [exec_regWrite_header (p := ⟨die, page⟩) die.2 page.2 (by decide) rfl hk hw, answers_next]
    have hread : ∀ a, rdA (headerWrite (quiet s) r k ⟨die, page⟩ rINT_RAW (v.toNat % 2 ^ 32)) a =
        rdA (wrN (quiet s) ⟨die, page⟩ rINT_RAW
          (rdN s ⟨die, page⟩ rINT_RAW - (rdN s ⟨die, page⟩ rINT_RAW &&& v.toNat % 2 ^ 32))) a := fun a => by
      rw [rdA_headerWrite _ _ _ _ _ _ (.inl rfl), plainWrite_intRaw _ _ _ _ hv]
      rfl
    refine ⟨fun b => ?_, fun a ha _ => ?_⟩
    · have hclear := testBit_sub_and (rd s ⟨die, page⟩ rINT_RAW) (v.setWidth 32) b
      rw [BitVec.toNat_setWidth, BitVec.getLsbD_setWidth, decide_eq_true b.2, Bool.true_and] at hclear
      rw [intRaw, rdN_congr (hread _), rdN_wrN_same, bitOf_mod _ _ b.2, bitOf, rdN, hclear]
      rfl
    · rw [hread, rdA_wrN_ne _ _ _ _ (by simpa using ha)]
      rfl
  case locked =>
    obtain ⟨k, hk⟩ := pageKind_of_writable hw
    have hpage := recorder_or_offRec (p := ⟨die, page⟩) die.2 page.2
    have hdoubtEn : offRec (Pg.adr ⟨die, page⟩ rDOUBT_EN) = true := offRec_of_off _ (by decide) (by decide)
    have hcount : offRec ((pDIE die).adr rDIE_LOCK_VIOL_CNT) = true := offRec_of_off _ (by decide) (by decide)
    rw [exec_regWrite_header (p := ⟨die, page⟩) die.2 page.2 (by decide) rfl hk hw, answers_next,
      headerWrite_doubtEn_locked (s := quiet s) hlock]
    refine ⟨?_, ?_, ?_⟩
    · rw [rdN_congr (rdA_noteDoubt _ _ _ _ hdoubtEn)]
      refine rdN_congr (rdA_lockViol_ne (quiet s) _ hdoubtEn ?_ ?_) <;>
        simp only [Pg.adr, rDOUBT_EN, rDIE_LOCK_VIOL_CNT, rINT_RAW] <;> omega
    · exact (sameInts_noteDoubt hpage _ _ _ _).keeps (by decide) (intRaw_raise_same hpage _ (by decide))
    · rw [rdN_congr (rdA_noteDoubt _ _ _ _ hcount)]
      exact rdN_lockViol_count (quiet s) ⟨die, page⟩

end Sys2Proof.Machine
end

section
/-! PAGE_CTRL and DIE.FEAT_CTRL beside what enables, disables and the feature commit start (R28, R36, Table 02-4): no
block that a page's enable or disable reaches writes the PAGE_CTRL of a page or FEAT_CTRL. -/

namespace Sys2Proof.Machine

/-- The control registers of this section: PAGE_CTRL, and FEAT_CTRL of a DIE page. -/
inductive CtrlReg where
  | page | feat
  deriving DecidableEq, Repr

/-- Its offset on its page. -/
def CtrlReg.off : CtrlReg → Nat
  | .page => rPAGE_CTRL
  | .feat => rDIE_FEAT_CTRL

/-- The address of a control register on a page. -/
def CtrlReg.adr (c : CtrlReg) (q : Pg) : Nat := q.adr c.off

/-- An offset, or the address of a register, is that of no control register. -/
def offCtrl (o : Nat) : Bool := o % 0x1000 != rPAGE_CTRL && o % 0x1000 != rDIE_FEAT_CTRL

theorem offCtrl_adr (p : Pg) (o : Nat) : offCtrl (p.adr o) = offCtrl o := by
  have h : p.adr o % 0x1000 = o % 0x1000 := by simp only [Pg.adr]; omega
  rw [offCtrl, h, offCtrl]

theorem CtrlReg.adr_ne (c : CtrlReg) (q : Pg) {a : Nat} (h : offCtrl a = true) : c.adr q ≠ a := by
  rintro rfl
  rw [CtrlReg.adr, offCtrl_adr] at h
  cases c <;> exact absurd h (by decide)

theorem CtrlReg.offRec_adr (c : CtrlReg) (q : Pg) : offRec (c.adr q) = true := by
  cases c <;> exact offRec_of_off q (by decide) (by decide)

theorem rdA_ite (c : Prop) [Decidable c] (s t : State) (a : Nat) :
    rdA (if c then s else t) a = if c then rdA s a else rdA t a := by
  split <;> rfl

theorem rdA_foldl {α : Type} {g : State → α → State} {a : Nat} {l : List α}
    (hg : ∀ x ∈ l, ∀ s, rdA (g s x) a = rdA s a) (s : State) : rdA (l.foldl g s) a = rdA s a := by
  induction l generalizing s with
  | nil => rfl
  | cons x t ih =>
    rw [List.foldl_cons, ih fun y hy => hg y (List.mem_cons_of_mem x hy), hg x List.mem_cons_self]

section

variable (c : CtrlReg) (q : Pg)

/-! ### Registers, records, interrupt bits and doubts -/

@[simp] theorem ctrl_wrN (s : State) (p : Pg) {o : Nat} (v : Nat) (h : offCtrl o = true) :
    rdA (wrN s p o v) (c.adr q) = rdA s (c.adr q) :=
  rdA_wrN_ne s p o v (c.adr_ne q ((offCtrl_adr p o).trans h))

@[simp] theorem ctrl_put (s : State) (p : Pg) {f : Fld} (v : Nat) (h : offCtrl f.off = true) :
    rdA (put s p f v) (c.adr q) = rdA s (c.adr q) := ctrl_wrN c q s p _ h

@[simp] theorem ctrl_putB (s : State) (p : Pg) {f : Fld} (b : Bool) (h : offCtrl f.off = true) :
    rdA (putB s p f b) (c.adr q) = rdA s (c.adr q) := ctrl_wrN c q s p _ h

@[simp] theorem ctrl_bumpBy (s : State) (p : Pg) {o : Nat} (k : Nat) (h : offCtrl o = true) :
    rdA (bumpBy s p o k) (c.adr q) = rdA s (c.adr q) := ctrl_wrN c q s p _ h

@[simp] theorem ctrl_bump (s : State) (p : Pg) {o : Nat} (h : offCtrl o = true) :
    rdA (bump s p o) (c.adr q) = rdA s (c.adr q) := ctrl_wrN c q s p _ h

@[simp] theorem ctrl_maxF (s : State) (p : Pg) {f : Fld} (v : Nat) (h : offCtrl f.off = true) :
    rdA (maxF s p f v) (c.adr q) = rdA s (c.adr q) := ctrl_wrN c q s p _ h

@[simp] theorem ctrl_wr64 (s : State) (p : Pg) {lo hi : Nat} (v : Nat) (hlo : offCtrl lo = true)
    (hhi : offCtrl hi = true) : rdA (wr64 s p lo hi v) (c.adr q) = rdA s (c.adr q) := by
  rw [wr64, ctrl_wrN c q _ p _ hhi, ctrl_wrN c q s p _ hlo]

@[simp] theorem ctrl_stage (s : State) (i : Nat) (always : Bool) (e : RecEntry) :
    rdA (stage s i always e) (c.adr q) = rdA s (c.adr q) := rdA_stage s i always e (c.offRec_adr q)

@[simp] theorem ctrl_record (s : State) (p : Pg) (code sev a0 a1 : Nat) :
    rdA (record s p code sev a0 a1) (c.adr q) = rdA s (c.adr q) := ctrl_stage c q _ _ _ _

@[simp] theorem ctrl_raise (s : State) (p : Pg) (bit : Nat) : rdA (raise s p bit) (c.adr q) = rdA s (c.adr q) :=
  rdA_raise_ne s p bit (c.offRec_adr q) (c.adr_ne q (offCtrl_adr p rINT_RAW))

@[simp] theorem ctrl_raiseIf (s : State) (b : Bool) (p : Pg) (bit : Nat) :
    rdA (raiseIf s b p bit) (c.adr q) = rdA s (c.adr q) :=
  rdA_raiseIf_ne s b p bit (c.offRec_adr q) (c.adr_ne q (offCtrl_adr p rINT_RAW))

@[simp] theorem ctrl_noteDoubt (before s : State) (p : Pg) (forced : Bool) :
    rdA (noteDoubt before s p forced) (c.adr q) = rdA s (c.adr q) := rdA_noteDoubt before s p forced (c.offRec_adr q)

@[simp] theorem ctrl_doubt (s : State) (p : Pg) (bit : Nat) (b : Bool) :
    rdA (doubt s p bit b) (c.adr q) = rdA s (c.adr q) :=
  rdA_doubt_ne s p bit b (c.offRec_adr q) (c.adr_ne q (offCtrl_adr p rDOUBT_RAW))

end

/-! ### Changes of a block's state beside the registers -/

@[simp] theorem rdA_updLink (s : State) (k : Nat) (f : AskLink → AskLink) (a : Nat) :
    rdA (updLink s k f) a = rdA s a := by
  cases s; rfl

@[simp] theorem rdA_updPeer (s : State) (k c : Nat) (f : AskPeer → AskPeer) (a : Nat) :
    rdA (updPeer s k c f) a = rdA s a := by
  cases s; rfl

@[simp] theorem rdA_updOut (s : State) (ch : Nat) (f : OutRun → OutRun) (a : Nat) :
    rdA (updOut s ch f) a = rdA s a := by
  cases s; rfl

@[simp] theorem rdA_updServo (s : State) (f : Servo → Servo) (a : Nat) : rdA (updServo s f) a = rdA s a := by
  cases s; rfl

@[simp] theorem rdA_updPd (s : State) (d : Nat) (f : PortDie → PortDie) (a : Nat) :
    rdA (updPd s d f) a = rdA s a := by
  cases s; rfl

@[simp] theorem rdA_updPort (s : State) (d i : Nat) (f : Port → Port) (a : Nat) :
    rdA (updPort s d i f) a = rdA s a := by
  cases s; rfl

@[simp] theorem rdA_updRing (s : State) (n : Nat) (f : Ring → Ring) (a : Nat) : rdA (updRing s n f) a = rdA s a := by
  cases s; rfl

@[simp] theorem rdA_updKisl (s : State) (f : KeyIsland → KeyIsland) (a : Nat) : rdA (updKisl s f) a = rdA s a := by
  cases s; rfl

@[simp] theorem rdA_updRad (s : State) (f : Radio → Radio) (a : Nat) : rdA (updRad s f) a = rdA s a := by
  cases s; rfl

@[simp] theorem rdA_updPke (s : State) (f : Pke → Pke) (a : Nat) : rdA (updPke s f) a = rdA s a := by
  cases s; rfl

@[simp] theorem rdA_updTdc (s : State) (f : Tdc → Tdc) (a : Nat) : rdA (updTdc s f) a = rdA s a := by
  cases s; rfl

@[simp] theorem rdA_setDom (s : State) (d : Nat) (b : Bool) (a : Nat) : rdA (setDom s d b) a = rdA s a := by
  cases s; rfl

@[simp] theorem rdA_writeCore (s : State) (m : Nat) (l : List Byte) (a : Nat) : rdA (writeCore s m l) a = rdA s a := by
  induction l generalizing s m with
  | nil => rfl
  | cons b t ih => exact ih _ _

/-! ### The blocks -/

section

variable (c : CtrlReg) (q : Pg)

/-! #### Outputs (R277, R280) -/

@[simp] theorem ctrl_refreshOut (s : State) (ch : Nat) : rdA (refreshOut s ch) (c.adr q) = rdA s (c.adr q) := by
  simp (disch := decide) [refreshOut, startOut, stopOut, rdA_ite]

@[simp] theorem ctrl_refreshGates (s : State) : rdA (refreshGates s) (c.adr q) = rdA s (c.adr q) := by
  rw [refreshGates, rdA_foldl fun ch _ s => ctrl_refreshOut c q s ch]
  simp (disch := decide)

@[simp] theorem ctrl_refreshRefusals (s : State) : rdA (refreshRefusals s) (c.adr q) = rdA s (c.adr q) := by
  simp (disch := decide) [refreshRefusals]

/-! #### The discipline engine -/

@[simp] theorem ctrl_setServo (s : State) (st : Nat) : rdA (setServo s st) (c.adr q) = rdA s (c.adr q) := by
  simp (disch := decide) [setServo, rdA_ite]

@[simp] theorem ctrl_dscDoubts (s : State) : rdA (dscDoubts s) (c.adr q) = rdA s (c.adr q) := by
  simp [dscDoubts]

@[simp] theorem ctrl_dscStop (s : State) : rdA (dscStop s) (c.adr q) = rdA s (c.adr q) := by
  simp [dscStop, toHold, onModel, rdA_ite]

/-! #### The key island and the Crossing -/

@[simp] theorem ctrl_sendKeyDown (s : State) (mk : MasterKey) :
    rdA (sendKeyDown s mk) (c.adr q) = rdA s (c.adr q) := by
  refine rdA_foldl (fun k _ s => rdA_foldl (fun child _ s => ?_) s) s
  rw [sendKeyTo]
  split
  · rfl
  · simp [sendKeyFrame]

@[simp] theorem ctrl_easeNtsKeys (s : State) (d : Nat) : rdA (easeNtsKeys s d) (c.adr q) = rdA s (c.adr q) := by
  simp [easeNtsKeys, rdA_ite]

@[simp] theorem ctrl_showKeys (s : State) : rdA (showKeys s) (c.adr q) = rdA s (c.adr q) := by
  rw [showKeys, rdA_foldl fun d _ s => ctrl_easeNtsKeys c q s d]
  simp (disch := decide) [rdA_ite]

@[simp] theorem ctrl_showSiv (s : State) (d : Nat) : rdA (showSiv s d) (c.adr q) = rdA s (c.adr q) := by
  have hkid : ∀ n ∈ List.range 5, offCtrl (rSIV_KID n) = true := by decide
  rw [showSiv, rdA_foldl fun n hn s => ctrl_wrN c q s _ _ (hkid n hn)]
  simp (disch := decide)

@[simp] theorem ctrl_keysReady (s : State) (d : Nat) (b : Bool) :
    rdA (keysReady s d b) (c.adr q) = rdA s (c.adr q) := by
  simp (disch := decide) [keysReady]

@[simp] theorem ctrl_crossSend (s : State) (d : Nat) (ks : List MasterKey) :
    rdA (crossSend s d ks) (c.adr q) = rdA s (c.adr q) := by
  simp [crossSend]

@[simp] theorem ctrl_dieStates (s : State) (d : Nat) : rdA (dieStates s d) (c.adr q) = rdA s (c.adr q) := by
  simp [dieStates]

@[simp] theorem ctrl_dieErase (s : State) (d id : Nat) : rdA (dieErase s d id) (c.adr q) = rdA s (c.adr q) := by
  simp [dieErase, rdA_ite]

@[simp] theorem ctrl_eraseOldest (s : State) : rdA (eraseOldest s) (c.adr q) = rdA s (c.adr q) := by
  rw [eraseOldest]
  split
  · rfl
  · rw [rdA_foldl fun d _ s => ctrl_dieErase c q s d _]
    simp

@[simp] theorem ctrl_trimKeys (s : State) : rdA (trimKeys s) (c.adr q) = rdA s (c.adr q) :=
  rdA_foldl (fun _ _ s => ctrl_eraseOldest c q s) s

@[simp] theorem ctrl_dieActivate (s : State) (d id : Nat) :
    rdA (dieActivate s d id) (c.adr q) = rdA s (c.adr q) := by
  simp [dieActivate, rdA_ite]

@[simp] theorem ctrl_activate (s : State) (id : Nat) : rdA (activate s id) (c.adr q) = rdA s (c.adr q) := by
  rw [activate, ctrl_showKeys, ctrl_trimKeys, rdA_foldl fun d _ s => ctrl_dieActivate c q s d id]
  simp

@[simp] theorem ctrl_addKey (s : State) (k : MasterKey) (now : Bool) :
    rdA (addKey s k now) (c.adr q) = rdA s (c.adr q) := by
  have hkept : ∀ s, rdA (if now then activate s k.id else showKeys s) (c.adr q) = rdA s (c.adr q) := fun s => by
    simp [rdA_ite]
  rw [addKey]
  split
  · rw [hkept, rdA_updKisl]
  · rw [ctrl_showKeys, ctrl_sendKeyDown, rdA_foldl fun d _ s => by simp [rdA_ite], hkept, rdA_updKisl]

@[simp] theorem ctrl_generateIfNone (s : State) : rdA (generateIfNone s) (c.adr q) = rdA s (c.adr q) := by
  simp (disch := decide) [generateIfNone, generate, rdA_ite]

/-! #### Askair links -/

@[simp] theorem ctrl_showAsk (s : State) (k : Nat) : rdA (showAsk s k) (c.adr q) = rdA s (c.adr q) := by
  simp (disch := decide) [showAsk]

@[simp] theorem ctrl_askLeave (s : State) (k : Nat) : rdA (askLeave s k) (c.adr q) = rdA s (c.adr q) := by
  simp (disch := decide) [askLeave, rdA_ite]

@[simp] theorem ctrl_askEnabled (s : State) (k : Nat) : rdA (askEnabled s k) (c.adr q) = rdA s (c.adr q) :=
  ctrl_askLeave c q s k

/-! #### The Port dies -/

@[simp] theorem ctrl_showTimed (s : State) (d : Nat) : rdA (showTimed s d) (c.adr q) = rdA s (c.adr q) := by
  simp (disch := decide) [showTimed]

@[simp] theorem ctrl_complete (s : State) (d i : Nat) (b : Builder) (status l : Nat) :
    rdA (complete s d i b status l) (c.adr q) = rdA s (c.adr q) := by
  cases b
  case soft f =>
    simp only [complete, completeSoft]
    split
    · rw [ringDone, rdA_updRing]
    · rw [rdA_mk]
  all_goals rfl

@[simp] theorem ctrl_linkDrop (s : State) (d i : Nat) (b : Booking) :
    rdA (linkDrop s d i b) (c.adr q) = rdA s (c.adr q) := by
  simp (disch := decide) [linkDrop]

@[simp] theorem ctrl_linkDropUntimed (s : State) (d : Nat) (u : Untimed) :
    rdA (linkDropUntimed s d u) (c.adr q) = rdA s (c.adr q) := by
  rw [linkDropUntimed]
  split <;> simp (disch := decide) [ringDone]

@[simp] theorem ctrl_showHold (s : State) (d : Nat) : rdA (showHold s d) (c.adr q) = rdA s (c.adr q) := by
  simp (disch := decide) [showHold]

@[simp] theorem ctrl_flushPort (s : State) (d i : Nat) : rdA (flushPort s d i) (c.adr q) = rdA s (c.adr q) := by
  rw [flushPort, ctrl_showHold, rdA_updPort, rdA_foldl fun u _ s => ctrl_linkDropUntimed c q s d u,
    rdA_foldl fun a _ s => ?ask, rdA_foldl fun b _ s => ctrl_linkDrop c q s d i b]
  case ask =>
    split
    · rfl
    · simp (disch := decide)

@[simp] theorem ctrl_watchCal (s : State) (d i : Nat) : rdA (watchCal s d i) (c.adr q) = rdA s (c.adr q) := by
  simp [watchCal, rdA_ite]

@[simp] theorem ctrl_dropCal (s : State) (d i : Nat) : rdA (dropCal s d i) (c.adr q) = rdA s (c.adr q) := by
  simp (disch := decide) [dropCal]

@[simp] theorem ctrl_startCal (s : State) (d i : Nat) : rdA (startCal s d i) (c.adr q) = rdA s (c.adr q) := by
  simp [startCal, rdA_ite]

@[simp] theorem ctrl_tsuDisabled (s : State) (d i : Nat) : rdA (tsuDisabled s d i) (c.adr q) = rdA s (c.adr q) := by
  simp [tsuDisabled]

theorem ctrl_dropPdelay (s : State) (d : Nat) {i : Nat} (hi : i < 8) :
    rdA (dropPdelay s d i) (c.adr q) = rdA s (c.adr q) := by
  have hoff : offCtrl (fPTE_PDLY_VALID i).off = true := by
    have hall : ∀ n < 8, offCtrl (fPTE_PDLY_VALID n).off = true := by decide
    exact hall i hi
  simp (disch := decide) only [dropPdelay, showAscap, rdA_ite, ctrl_raise, ctrl_put, ite_self]
  rw [ctrl_putB c q _ _ _ hoff]
  rfl

theorem ctrl_linkFall (s : State) (d : Nat) {i : Nat} (hi : i < 8) :
    rdA (linkFall s d i) (c.adr q) = rdA s (c.adr q) := by
  rw [linkFall, ctrl_showTimed, ctrl_watchCal, ctrl_dropPdelay c q _ d hi]
  simp (disch := decide)

@[simp] theorem ctrl_showStale (s : State) (d : Nat) (b : Bool) :
    rdA (showStale s d b) (c.adr q) = rdA s (c.adr q) := by
  simp (disch := decide) [showStale]

@[simp] theorem ctrl_ansDisabled (s : State) (d : Nat) : rdA (ansDisabled s d) (c.adr q) = rdA s (c.adr q) := by
  simp (disch := decide) [ansDisabled]

@[simp] theorem ctrl_drawSecret (s : State) (d : Nat) : rdA (drawSecret s d).1 (c.adr q) = rdA s (c.adr q) := by
  rw [drawSecret]
  split
  · exact rdA_drawn s _
  · split
    · rw [rdA_drawn, rdA_updPd]
    · rfl

@[simp] theorem ctrl_rateFlush (s : State) (d : Nat) : rdA (rateFlush s d) (c.adr q) = rdA s (c.adr q) := by
  simp (disch := decide) [rateFlush, newRateKey, showReady, showUsed]

@[simp] theorem ctrl_sesEmpty (s : State) (d : Nat) : rdA (sesEmpty s d) (c.adr q) = rdA s (c.adr q) := by
  simp (disch := decide) [sesEmpty, newSesKey, showReady, showSessions]

@[simp] theorem ctrl_tblEnabled (s : State) (d : Nat) : rdA (tblEnabled s d) (c.adr q) = rdA s (c.adr q) := by
  simp [tblEnabled]

@[simp] theorem ctrl_showBridges (s : State) (d : Nat) : rdA (showBridges s d) (c.adr q) = rdA s (c.adr q) := by
  simp (disch := decide) [showBridges]

/-! #### The test page -/

@[simp] theorem ctrl_loopFollow (before s : State) (d : Nat) :
    rdA (loopFollow before s d) (c.adr q) = rdA s (c.adr q) := by
  refine rdA_foldl (fun i hi s => ?_) s
  rw [rdA_ite, ctrl_linkFall c q s d (List.mem_range.mp hi), ite_self]

@[simp] theorem ctrl_showActiveTst (s : State) (die : Nat) :
    rdA (showActiveTst s die) (c.adr q) = rdA s (c.adr q) := by
  simp (disch := decide) [showActiveTst, rdA_ite]

@[simp] theorem ctrl_tstFollow (before s : State) (die : Nat) :
    rdA (tstFollow before s die) (c.adr q) = rdA s (c.adr q) := by
  have hnote : ∀ (l : List Pg) (s : State),
      rdA (l.foldl (fun s p => noteDoubt before s p true) s) (c.adr q) = rdA s (c.adr q) := fun l =>
    rdA_foldl fun p _ s => ctrl_noteDoubt c q before s p true
  have hask : ∀ s : State, rdA ((List.range 4).foldl (fun s k =>
      if askLooped before k != askLooped s k then askLeave s k else s) s) (c.adr q) = rdA s (c.adr q) :=
    rdA_foldl fun k _ s => by simp [rdA_ite]
  simp (disch := decide) only [tstFollow, rdA_ite, hask, hnote, ctrl_showTimed, ctrl_loopFollow, ctrl_showActiveTst,
    ctrl_putB, ite_self]

/-! #### The Radio -/

@[simp] theorem ctrl_showExcl (s : State) : rdA (showExcl s) (c.adr q) = rdA s (c.adr q) := by
  simp (disch := decide) [showExcl]

@[simp] theorem ctrl_idleChan (s : State) (n : Nat) : rdA (idleChan s n) (c.adr q) = rdA s (c.adr q) := by
  simp (disch := decide) [idleChan, showActive, rdA_ite]

@[simp] theorem ctrl_allChansIdle (s : State) : rdA (allChansIdle s) (c.adr q) = rdA s (c.adr q) :=
  rdA_foldl (fun n _ s => ctrl_idleChan c q s n) s

@[simp] theorem ctrl_setCause (s : State) (i : Nat) (b : Bool) : rdA (setCause s i b) (c.adr q) = rdA s (c.adr q) := by
  simp (disch := decide) [setCause, showClearLeft, showInd, updMon, causeRises, markSlot, updSlot, rdA_ite]

@[simp] theorem ctrl_biasFollow (s : State) : rdA (biasFollow s) (c.adr q) = rdA s (c.adr q) := by
  simp (disch := decide) [biasFollow, biasUp, biasDown, rdA_ite]

@[simp] theorem ctrl_gfFollow (s : State) : rdA (gfFollow s) (c.adr q) = rdA s (c.adr q) := by
  simp (disch := decide) [gfFollow, gfUp, gfDown, rdA_ite]

@[simp] theorem ctrl_flushJobs (s : State) : rdA (flushJobs s) (c.adr q) = rdA s (c.adr q) := by
  simp (disch := decide) [flushJobs, showJobq]

/-! #### The public-key engine -/

@[simp] theorem ctrl_showLane (s : State) (l : Nat) : rdA (showLane s l) (c.adr q) = rdA s (c.adr q) := by
  simp (disch := decide) [showLane]

@[simp] theorem ctrl_writeBlock (s : State) (owner m v : Nat) :
    rdA (writeBlock s owner m v) (c.adr q) = rdA s (c.adr q) := by
  simp [writeBlock, rdA_ite]

@[simp] theorem ctrl_endPkeJob (s : State) (l : Nat) (j : PkeJob) (cause : Nat) :
    rdA (endPkeJob s l j cause) (c.adr q) = rdA s (c.adr q) := by
  have hstored : ∀ s : State, rdA (j.stored.foldl (fun s k =>
      writeBlock s j.owner (j.addr + 64 + 8 * j.cmds.length + 8 * k) (ix j.io k 0)) s) (c.adr q) = rdA s (c.adr q) :=
    rdA_foldl fun k _ s => ctrl_writeBlock c q s _ _ _
  simp (disch := decide) only [endPkeJob, showLast, rdA_ite, ctrl_raise, ctrl_bump, ctrl_wrN, ctrl_writeBlock, hstored,
    ite_self]

@[simp] theorem ctrl_abortLane (s : State) (cause l : Nat) :
    rdA (abortLane s cause l) (c.adr q) = rdA s (c.adr q) := by
  rw [abortLane, ctrl_showLane]
  exact rdA_foldl (fun j _ s => by rw [abortJob, ctrl_endPkeJob]; rfl) s

@[simp] theorem ctrl_laneEnabled (s : State) (l : Nat) (on : Bool) :
    rdA (laneEnabled s l on) (c.adr q) = rdA s (c.adr q) := by
  simp (disch := decide) [laneEnabled, startTest, laneReady, updLane, rdA_ite]

@[simp] theorem ctrl_pkeDisabled (s : State) : rdA (pkeDisabled s) (c.adr q) = rdA s (c.adr q) :=
  rdA_foldl (fun l _ s => ctrl_abortLane c q s 3 l) s

/-! #### The time-interval unit -/

@[simp] theorem ctrl_gateFollow (s : State) : rdA (gateFollow s) (c.adr q) = rdA s (c.adr q) := by
  simp (disch := decide) [gateFollow, arm, armNow, rdA_ite]

@[simp] theorem ctrl_tdcEnabled (s : State) (on : Bool) : rdA (tdcEnabled s on) (c.adr q) = rdA s (c.adr q) := by
  simp (disch := decide) [tdcEnabled, closeWindow, rdA_ite]

/-! ### The enable and the disable of a page (Table 02-4) -/

theorem ctrl_pageEnabled (before s : State) (k : PageKind) (p : Pg) :
    rdA (pageEnabled before s k p) (c.adr q) = rdA s (c.adr q) := by
  cases k <;> simp [pageEnabled]

theorem ctrl_pageDisabled (before s : State) (k : PageKind) (p : Pg) :
    rdA (pageDisabled before s k p) (c.adr q) = rdA s (c.adr q) := by
  cases k <;> simp [pageDisabled]

end

end Sys2Proof.Machine
end

section
/-! The commands of the common header (Table 02-4, R34, R38, R41, R42): enable, disable, soft reset, lock and forced
interrupts. -/

namespace Sys2Proof.Machine

theorem flag_congr {s t : State} {p : Pg} {f : Fld} (h : rdA t (p.adr f.off) = rdA s (p.adr f.off)) :
    flag t p f = flag s p f := by
  rw [flag, get_congr h, flag]

/-- A field of PAGE_CTRL reads the same where the register does. -/
theorem flag_pageCtrl_congr {s t : State} {p : Pg} {f : Fld} (hf : f.off = rPAGE_CTRL)
    (h : rdA t (CtrlReg.page.adr p) = rdA s (CtrlReg.page.adr p)) : flag t p f = flag s p f :=
  flag_congr (by rw [hf]; exact h)

/-! ### The writes of PAGE_CTRL and INT_FORCE that act -/

theorem onHeader_writable {s : State} {r : Requester} {p : Pg} {k : PageKind} (hw : writable s r p = true)
    (hk : pageKind p = some k) (f : PageKind → State → State) : onHeader s r p f = f k s := by
  rw [onHeader, onWrite_writable hw, hk]

/-- EN follows a write that the page takes: a write of 0, one after the feature commit, or one of a boot-enabled page. -/
theorem flag_setEn {s : State} {k : PageKind} {v : Bool} (p : Pg)
    (htakes : v = true → flag s pHubDie fDIE_FEAT_CTRL_COMMITTED = true ∨ bootEnabled k = true) :
    flag (setEn s p k v) p fPAGE_CTRL_EN = v := by
  have hstored : flag (putB s p fPAGE_CTRL_EN v) p fPAGE_CTRL_EN = v := flag_putB_same _ _ _ _ (by decide) rfl
  have hnot : (v && !flag s pHubDie fDIE_FEAT_CTRL_COMMITTED && !bootEnabled k) = false := by
    cases v with
    | false => rfl
    | true => rcases htakes rfl with h | h <;> simp [h]
  simp only [setEn, hnot, Bool.false_eq_true, if_false]
  split
  · next hwas => exact (beq_iff_eq.mp hwas).symm
  · rw [flag_pageCtrl_congr rfl (ctrl_noteDoubt .page p _ _ p false)]
    split
    · rw [flag_pageCtrl_congr rfl (ctrl_pageEnabled .page p _ _ k p), hstored]
    · rw [flag_pageCtrl_congr rfl (ctrl_pageDisabled .page p _ _ k p), hstored]

/-- R38: a page that has not taken an acknowledgement discards a write of 1 to EN. -/
theorem setEn_discarded {s : State} {k : PageKind} (p : Pg) (hcom : flag s pHubDie fDIE_FEAT_CTRL_COMMITTED = false)
    (hboot : bootEnabled k = false) : setEn s p k true = s := by
  simp [setEn, hcom, hboot]

theorem flag_softReset {s : State} {p : Pg} (k : PageKind) (hidle : flag s p fPAGE_CTRL_SRST = false) :
    flag (softReset s p k) p fPAGE_CTRL_SRST = true := by
  simp only [softReset, hidle, Bool.false_eq_true, if_false]
  rw [flag_pageCtrl_congr rfl (ctrl_noteDoubt .page p _ _ p false)]
  exact flag_putB_same _ _ _ _ (by decide) rfl

theorem otherRegs_putB (s : State) (p : Pg) (f : Fld) (b : Bool) : OtherRegs s (putB s p f b) [p.adr f.off] :=
  otherRegs_put s p f _

/-- R42: EN stays as it was when LOCK is set. -/
theorem flag_en_lockPage (s : State) (p : Pg) : flag (lockPage s p) p fPAGE_CTRL_EN = flag s p fPAGE_CTRL_EN := by
  rw [flag, lockPage, putB, get_put_apart s p fPAGE_CTRL_LOCK fPAGE_CTRL_EN _ rfl (by decide) (by decide), flag]

/-! ### Forced interrupts (R34) -/

/-- The bits of a list that a value has are forced; no other bit rises but the Recorder's bit 4. -/
theorem intRaw_forced {p : Pg} (hp : p = pREC ∨ offRec (p.adr rINT_RAW) = true) (v : Nat) (l : List Nat) (s : State)
    {b : Nat} (hb : b < 32) :
    let t := l.foldl (fun s b => if bitOf v b then raiseBy s p b true else s) s
    intRaw t p b = ((decide (b ∈ l) && bitOf v b) || intRaw s p b) ∨ (p = pREC ∧ b = 4 ∧ intRaw t p b = true) := by
  induction l generalizing s with
  | nil => simp
  | cons x xs ih =>
    rw [List.foldl_cons]
    rcases ih (if bitOf v x then raiseBy s p x true else s) with hrest | hrisen
    · by_cases hx : bitOf v x = true
      · rw [if_pos hx] at hrest ⊢
        rcases intRaw_raiseBy hp s x true hb with hone | ⟨hrec, h4, hone⟩
        · refine .inl (hrest.trans ?_)
          rw [hone]
          rcases eq_or_ne b x with rfl | hne
          · simp [hx]
          · simp [hne]
        · exact .inr ⟨hrec, h4, by rw [hrest, hone, Bool.or_true]⟩
      · rw [if_neg hx] at hrest ⊢
        refine .inl (hrest.trans ?_)
        rcases eq_or_ne b x with rfl | hne
        · simp [hx]
        · simp [hne]
    · exact .inr hrisen

theorem intRaw_forceInts {p : Pg} (hp : p = pREC ∨ offRec (p.adr rINT_RAW) = true) (s : State) (v : Nat) {b : Nat}
    (hb : b < 32) :
    intRaw (forceInts s p v) p b = (bitOf v b || intRaw s p b) ∨
      (p = pREC ∧ b = 4 ∧ intRaw (forceInts s p v) p b = true) := by
  have h := intRaw_forced hp v (List.range 32) s hb
  simp only [List.mem_range, hb, decide_true, Bool.true_and] at h
  exact h

theorem otherRegs_forceInts (s : State) (p : Pg) (v : Nat) : OtherRegs s (forceInts s p v) [p.adr rINT_RAW] := by
  intro a ha hrec
  refine rdA_foldl (fun b _ s => ?_) s
  rw [rdA_ite, otherRegs_raiseBy s p b true a ha hrec, ite_self]

/-! ### The rows -/

section

variable {s : State} {r : Requester} {die : Fin 8} {page : Fin 0x2000} (hw : writable s r ⟨die, page⟩ = true)
include hw

theorem exec_pageEnable {k : PageKind} (hk : pageKind ⟨die, page⟩ = some k) :
    exec (.pageEnable r die page) s = .next (setEn s ⟨die, page⟩ k true) := by
  simp only [exec, execPageEnable, pgArg, onHeader_writable hw hk]

theorem exec_pageDisable {k : PageKind} (hk : pageKind ⟨die, page⟩ = some k) :
    exec (.pageDisable r die page) s = .next (setEn s ⟨die, page⟩ k false) := by
  simp only [exec, execPageDisable, pgArg, onHeader_writable hw hk]

theorem exec_softReset {k : PageKind} (hk : pageKind ⟨die, page⟩ = some k) :
    exec (.softReset r die page) s = .next (softReset s ⟨die, page⟩ k) := by
  simp only [exec, execSoftReset, pgArg, onHeader_writable hw hk]

theorem exec_pageLock : exec (.pageLock r die page) s = .next (lockPage s ⟨die, page⟩) := by
  obtain ⟨k, hk⟩ := pageKind_of_writable hw
  simp only [exec, execPageLock, pgArg, onHeader_writable hw hk]

theorem exec_intForce (v : Word) : exec (.intForce r die page v) s = .next (forceInts s ⟨die, page⟩ v.toNat) := by
  obtain ⟨k, hk⟩ := pageKind_of_writable hw
  simp only [exec, execIntForce, pgArg, onHeader_writable hw hk]

end

theorem exec_softResetDone {s : State} {die : Fin 8} {page : Fin 0x2000}
    (hsrst : flag s ⟨die, page⟩ fPAGE_CTRL_SRST = true) :
    exec (.softResetDone die page) s = .next (putB s ⟨die, page⟩ fPAGE_CTRL_SRST false) := by
  simp only [exec, execSoftResetDone, pgArg, hsrst, if_true]

/-- Settles O10: the fields of PAGE_CTRL read what was stored last, for no block that an enable or a disable reaches
writes a PAGE_CTRL, and the forced bits are raised one by one. -/
theorem pageHeaderCommands : Obligations.PageHeaderCommands := by
  refine ⟨fun r die page k s hw hk htakes => ?enable, fun r die page k s hw hk hcom hboot => ?discarded,
    fun r die page s hw => ?disable, fun r die page s hw hidle => ?softReset, fun die page s hsrst => ?done,
    fun r die page s hw => ?lock, fun r die page v s hw => ?force⟩
  case enable =>
    rw [exec_pageEnable hw hk, answers_next]
    exact flag_setEn _ fun _ => htakes
  case discarded =>
    rw [exec_pageEnable hw hk, setEn_discarded _ hcom hboot]
  case disable =>
    obtain ⟨k, hk⟩ := pageKind_of_writable hw
    rw [exec_pageDisable hw hk, answers_next]
    exact flag_setEn _ fun h => nomatch h
  case softReset =>
    obtain ⟨k, hk⟩ := pageKind_of_writable hw
    rw [exec_softReset hw hk, answers_next]
    exact flag_softReset k hidle
  case done =>
    rw [exec_softResetDone hsrst, answers_next]
    exact ⟨flag_putB_same _ _ _ _ (by decide) rfl, otherRegs_putB _ _ _ _⟩
  case lock =>
    rw [exec_pageLock hw, answers_next]
    exact ⟨flag_putB_same _ _ _ _ (by decide) rfl, flag_en_lockPage s _, otherRegs_putB _ _ _ _⟩
  case force =>
    have hpage := recorder_or_offRec (p := ⟨die, page⟩) die.2 page.2
    rw [exec_intForce hw, answers_next]
    refine ⟨fun b hset => ?_, fun b hne hclear => ?_, otherRegs_forceInts s _ _⟩
    · have hbit : bitOf v.toNat b = true := hset
      rcases intRaw_forceInts hpage s v.toNat b.2 with h | ⟨_, _, h⟩
      · rw [h, hbit, Bool.true_or]
      · exact h
    · have hbit : bitOf v.toNat b = false := hclear
      rcases intRaw_forceInts hpage s v.toNat b.2 with h | ⟨hrec, h4, _⟩
      · rw [h, hbit, Bool.false_or]
      · exact absurd hne (by simp [hrec, Fin.ext_iff, h4])

end Sys2Proof.Machine
end

section
/-! The fabric (R13–R17, R32, R36, R377): the feature commit, the messages of the dies, the transfers of the Boulevard,
crossings and island monitors. -/

namespace Sys2Proof.Machine

theorem Pg.adr_ne (p : Pg) {o o' : Nat} (h : o ≠ o') : p.adr o ≠ p.adr o' := by
  simp only [Pg.adr]
  omega

theorem doubts_congr {s t : State} {p : Pg} (h : rdA t (p.adr rDOUBT_RAW) = rdA s (p.adr rDOUBT_RAW)) (bit : Nat) :
    doubts t p bit = doubts s p bit := by
  rw [doubts, rdN_congr h, doubts]

/-- The other doubts of a page stay. -/
theorem doubts_doubt_ne (s : State) (p : Pg) {bit j : Nat} (b : Bool) (hj : j < 32) (hne : j ≠ bit) :
    doubts (doubt s p bit b) p j = doubts s p j := by
  rw [doubt, doubts_congr (rdA_noteDoubt _ _ _ _ (offRec_of_off p (by decide) (by decide))), doubts, rdN_wrN_same,
    bitOf_mod _ _ hj, bitOf_setBit, if_neg hne, doubts]

theorem doubts_doubt_same (s : State) (p : Pg) {bit : Nat} (b : Bool) (hb : bit < 32) :
    doubts (doubt s p bit b) p bit = b :=
  doubts_doubt s p bit b hb (offRec_of_off p (by decide) (by decide))

/-- Another register of a page stays when a doubt of the page does or does not stand. -/
theorem rdN_doubt_ne (s : State) (p : Pg) (bit : Nat) (b : Bool) {o : Nat} (ho : o < 0x1000)
    (hrec : recOffs.contains o = false) (hne : o ≠ rDOUBT_RAW) : rdN (doubt s p bit b) p o = rdN s p o :=
  rdN_congr (rdA_doubt_ne s p bit b (offRec_of_off p ho hrec) (p.adr_ne hne))

/-! ### The feature commit (R36, R37) -/

theorem commitWrite_begins {s : State} (h : flag s pHubDie fDIE_FEAT_CTRL_COMMITTED = false) :
    commitWrite s 1 = putB s pHubDie fDIE_FEAT_CTRL_COMMIT true := by
  simp [commitWrite, h, bitOf]

theorem commitWrite_stands {s : State} (h : flag s pHubDie fDIE_FEAT_CTRL_COMMITTED = true) : commitWrite s 1 = s := by
  simp [commitWrite, h]

theorem exec_featCommit {s : State} {r : Requester} (hw : writable s r pHubDie = true) :
    exec (.featCommit r) s = .next (commitWrite s 1) := by
  simp only [exec, execFeatCommit, onWrite_writable hw]

/-- The commit ends with COMMITTED in place of COMMIT, and what follows from the features leaves FEAT_CTRL. -/
theorem featCommitDone_ends {s : State} (h : flag s pHubDie fDIE_FEAT_CTRL_COMMIT = true) :
    Answers (exec .featCommitDone s) fun t =>
      rdA t (pHubDie.adr rDIE_FEAT_CTRL) =
        rdA (putB (putB s pHubDie fDIE_FEAT_CTRL_COMMIT false) pHubDie fDIE_FEAT_CTRL_COMMITTED true)
          (pHubDie.adr rDIE_FEAT_CTRL) := by
  simp only [exec, execFeatCommitDone, h, if_true, answers_next]
  have htimed : ∀ s : State, rdA ((List.range 4).foldl showTimed s) (CtrlReg.feat.adr pHubDie) =
      rdA s (CtrlReg.feat.adr pHubDie) := rdA_foldl fun d _ s => ctrl_showTimed .feat pHubDie s d
  exact (ctrl_generateIfNone .feat pHubDie _).trans ((ctrl_refreshGates .feat pHubDie _).trans
    ((ctrl_refreshRefusals .feat pHubDie _).trans (htimed _)))

/-! ### Doubt messages (R32, R377) -/

/-- The registers of the Hub's DIE page stay as the SAF takes a message. -/
theorem rdN_safTakesMsg (s : State) (die : Nat) (m : Nat × Nat × Nat) {o : Nat} (ho : o < 0x1000)
    (hrec : recOffs.contains o = false) : rdN (safTakesMsg s die m) pHubDie o = rdN s pHubDie o := by
  have hseen : pHubDie.adr o ≠ pSAF.adr rSAF_DIE_SEEN := by simp only [Pg.adr, rSAF_DIE_SEEN]; omega
  have hraw : pHubDie.adr o ≠ pSAF.adr rDOUBT_RAW := by simp only [Pg.adr, rDOUBT_RAW]; omega
  simp only [safTakesMsg]
  split
  · rfl
  · split
    · rw [rdN_congr (rdA_doubt_ne _ _ _ _ (offRec_of_off _ ho hrec) hraw), rdN_congr (rdA_wrN_ne _ _ _ _ hseen)]
      rfl
    · rw [rdN_congr (rdA_wrN_ne _ _ _ _ hseen)]
      rfl

/-- The Hub shows the summaries of a die's message in DEV_INT and DEV_DOUBT. -/
theorem hubTakesMsg_shows (s : State) {die : Nat} (hd : die < 8) (m : Nat × Nat × Nat) :
    bitOf (rdN (hubTakesMsg s die m) pHubDie rDIE_DEV_INT) die = (m.1 != 0) ∧
      bitOf (rdN (hubTakesMsg s die m) pHubDie rDIE_DEV_DOUBT) die = (m.2.1 != 0) := by
  have hd' : die < 32 := by omega
  simp only [hubTakesMsg]
  constructor
  · rw [rdN_congr (rdA_vecsFall _ _), rdN_wrN_ne _ _ _ _ _ _ (pHubDie.adr_ne (by decide)), rdN_wrN_same,
      bitOf_mod _ _ hd', bitOf_setBit, if_pos rfl]
  · rw [rdN_congr (rdA_vecsFall _ _), rdN_wrN_same, bitOf_mod _ _ hd', bitOf_setBit, if_pos rfl]

/-- The message that a die sends reaches DEV_INT and DEV_DOUBT of the Hub. -/
theorem sendDoubtMsg_shows (s : State) {die : Nat} (hd : die < 8) :
    bitOf (rdN (sendDoubtMsg s die) pHubDie rDIE_DEV_INT) die = (intSum s die != 0) ∧
      bitOf (rdN (sendDoubtMsg s die) pHubDie rDIE_DEV_DOUBT) die = (doubtSum s die != 0) := by
  rw [sendDoubtMsg, rdN_safTakesMsg _ _ _ (by decide) (by decide), rdN_safTakesMsg _ _ _ (by decide) (by decide)]
  exact hubTakesMsg_shows s hd (doubtMsg s die)

theorem exec_doubtMessage {s : State} {die : Fin 8} (hregs : dieHasRegs die = true)
    (hnew : doubtMsg s die ≠ lastDoubtMsg s die) : exec (.doubtMessage die) s = .next (sendDoubtMsg s die) := by
  simp only [exec, execDoubtMessage, hregs, bne_iff_ne.mpr hnew, Bool.and_self, if_true]

theorem exec_doubtMessageResend {s : State} {die : Fin 8} (hregs : dieHasRegs die = true) :
    exec (.doubtMessageResend die) s = .next (sendDoubtMsg s die) := by
  simp only [exec, execDoubtMessageResend, hregs, if_true]

/-! ### The switch (R15–R17) -/

theorem waitingClasses_single (src : Fin 8) (c : BlvClass) : waitingClasses [(src, c)] = [BlvClass.prio c] := by
  cases c <;> rfl

/-- R15: a class that waits alone is granted. -/
theorem grantClass_single (o : SwOut) (guard : Nat) (src : Fin 8) (c : BlvClass) :
    grantClass o guard [(src, c)] = some (BlvClass.prio c) := by
  simp only [grantClass, waitingClasses_single, List.find?_cons, List.find?_nil, List.head?_cons]
  split
  · next hfound =>
    split at hfound
    · exact hfound.symm
    · exact nomatch hfound
  · rfl

/-- R15: a source that waits alone in its class is granted. -/
theorem grantSrc_single (o : SwOut) (src : Fin 8) (c : BlvClass) :
    grantSrc o (BlvClass.prio c) [(src, c)] = some src.val := by
  have hsrcs : ((List.range 8).filter fun d =>
      [(src, c)].any fun x => BlvClass.prio x.2 == BlvClass.prio c && x.1.val == d) = [src.val] := by
    simp only [List.any_cons, List.any_nil, Bool.or_false, beq_self_eq_true, Bool.true_and]
    revert src
    decide
  simp only [grantSrc, hsrcs, List.find?_cons, List.find?_nil, List.head?_cons]
  split
  · next hfound =>
    split at hfound
    · exact hfound.symm
    · exact nomatch hfound
  · rfl

/-- A transfer that waits alone is delivered, or discarded when its link CRC fails four times. -/
theorem exec_blvTransfer_single (dst src : Fin 8) (c : BlvClass) (fails lat : Nat) (s : State) :
    ∃ fab', exec (.blvTransfer dst [(src, c)] false fails lat) s =
      .next (if fails < 4 then deliverTransfer (countRetries { s with fab := fab' } src fails) src false lat
        else discardTransfer (countRetries { s with fab := fab' } src fails) src false) := by
  simp only [exec, execBlvTransfer, grantClass_single, grantSrc_single, Bool.false_and, decide_eq_true_eq]
  exact ⟨_, rfl⟩

theorem rdN_countRetries_same (s : State) (src fails : Nat) :
    rdN (countRetries s src fails) (pBLV src) rBLV_RETRY_CNT =
      min (rdN s (pBLV src) rBLV_RETRY_CNT + min fails 3) 0xFFFFFFFF := by
  rw [countRetries, bumpBy, rdN_wrN_same]
  omega

theorem rdN_countRetries_ne (s : State) (src fails : Nat) {o : Nat} (h : o ≠ rBLV_RETRY_CNT) :
    rdN (countRetries s src fails) (pBLV src) o = rdN s (pBLV src) o :=
  rdN_congr (rdA_bumpBy_ne s _ _ _ (Pg.adr_ne _ h))

/-- A delivery that ends BLV_FAULT or finds none. -/
theorem deliverTransfer_eq (s : State) (src lat : Nat) :
    let u := putB (maxF (wrN s (pBLV src) rBLV_LAT (satU 16 lat)) (pBLV src) fBLV_LAT_MAX_PS lat) (pBLV src)
      fBLV_STAT_LINK_UP true
    deliverTransfer s src false lat = if doubts u (pBLV src) 0 then doubt u (pBLV src) 0 false else u := by
  simp only [deliverTransfer, Bool.false_eq_true, if_false]

/-- A delivery leaves the counts of its switch port. -/
theorem rdN_deliverTransfer_ne (s : State) (src lat : Nat) {o : Nat} (hlo : rBLV_LAT_MAX < o) (hhi : o < 0x60) :
    rdN (deliverTransfer s src false lat) (pBLV src) o = rdN s (pBLV src) o := by
  have hdistinct : o ≠ rBLV_STAT ∧ o ≠ rBLV_LAT_MAX ∧ o ≠ rBLV_LAT ∧ o ≠ rDOUBT_RAW := by
    simp only [rBLV_STAT, rBLV_LAT_MAX, rBLV_LAT, rDOUBT_RAW] at hlo ⊢
    omega
  obtain ⟨hstat, hmax, hlat, hraw⟩ := hdistinct
  have hstored : rdN (putB (maxF (wrN s (pBLV src) rBLV_LAT (satU 16 lat)) (pBLV src) fBLV_LAT_MAX_PS lat) (pBLV src)
      fBLV_STAT_LINK_UP true) (pBLV src) o = rdN s (pBLV src) o := by
    rw [rdN_congr (rdA_putB_ne _ _ _ _ (Pg.adr_ne _ hstat)), rdN_congr (rdA_maxF_ne _ _ _ _ (Pg.adr_ne _ hmax)),
      rdN_congr (rdA_wrN_ne _ _ _ _ (Pg.adr_ne _ hlat))]
  rw [deliverTransfer_eq]
  split
  · have hne : (pBLV src).adr o ≠ (pBLV src).adr rDOUBT_RAW := Pg.adr_ne _ hraw
    rw [rdN_congr (rdA_doubt_ne _ _ _ _ (offRec_of_page (by simp only [Pg.adr]; omega)) hne), hstored]
  · exact hstored

/-- A delivery shows its latency, and BLV_FAULT does not stand after it (log entry 6). -/
theorem deliverTransfer_shows (s : State) (src lat : Nat) :
    rdN (deliverTransfer s src false lat) (pBLV src) rBLV_LAT = min lat 0xFFFF ∧
      doubts (deliverTransfer s src false lat) (pBLV src) 0 = false := by
  have hlat : rdN (putB (maxF (wrN s (pBLV src) rBLV_LAT (satU 16 lat)) (pBLV src) fBLV_LAT_MAX_PS lat) (pBLV src)
      fBLV_STAT_LINK_UP true) (pBLV src) rBLV_LAT = min lat 0xFFFF := by
    rw [rdN_congr (rdA_putB_ne _ _ _ _ (Pg.adr_ne _ (by decide))),
      rdN_congr (rdA_maxF_ne _ _ _ _ (Pg.adr_ne _ (by decide))), rdN_wrN_same, satU]
    omega
  rw [deliverTransfer_eq]
  split
  · refine ⟨?_, doubts_doubt_same _ _ _ (by decide)⟩
    rw [rdN_doubt_ne _ _ _ _ (by decide) (by decide) (by decide), hlat]
  · next hclear => exact ⟨hlat, Bool.eq_false_iff.mpr hclear⟩

/-- A transfer that is discarded counts as a failure and raises BLV_FAULT. -/
theorem discardTransfer_shows (s : State) (src : Nat) :
    rdN (discardTransfer s src false) (pBLV src) rBLV_RETRY_CNT = rdN s (pBLV src) rBLV_RETRY_CNT ∧
      rdN (discardTransfer s src false) (pBLV src) rBLV_FAIL_CNT =
        min (rdN s (pBLV src) rBLV_FAIL_CNT + 1) 0xFFFFFFFF ∧
      doubts (discardTransfer s src false) (pBLV src) 0 = true := by
  simp only [discardTransfer, Bool.false_eq_true, if_false]
  refine ⟨?_, ?_, doubts_doubt_same _ _ _ (by decide)⟩
  · rw [rdN_doubt_ne _ _ _ _ (by decide) (by decide) (by decide),
      rdN_congr (rdA_bump_ne _ _ _ (Pg.adr_ne _ (by decide)))]
  · rw [rdN_doubt_ne _ _ _ _ (by decide) (by decide) (by decide), rdN_bump_same]

/-! ### Crossings and island monitors (R13, R14) -/

theorem exec_islXing {die isl : Fin 8} (hregs : dieHasRegs die = true) (hisl : isl.val < islCount die) (s : State) :
    ∃ fab', exec (.islXing die isl) s =
      .next (doubt (bump { s with fab := fab' } (pBLV die) rBLV_STALL_CNT) (pISL die) 2 true) := by
  simp only [exec, execIslXing, hregs, decide_eq_true hisl, Bool.and_self, if_true]
  exact ⟨_, rfl⟩

/-- A stalled crossing is counted and raises ISL_XING, and changes no other register. -/
theorem stalledCrossing_shows (s : State) (die : Nat) :
    let t := doubt (bump s (pBLV die) rBLV_STALL_CNT) (pISL die) 2 true
    doubts t (pISL die) 2 = true ∧
      rdN t (pBLV die) rBLV_STALL_CNT = min (rdN s (pBLV die) rBLV_STALL_CNT + 1) 0xFFFFFFFF ∧
      OtherRegs s t [(pBLV die).adr rBLV_STALL_CNT, (pISL die).adr rDOUBT_RAW] := by
  have hne : (pBLV die).adr rBLV_STALL_CNT ≠ (pISL die).adr rDOUBT_RAW := by
    simp only [Pg.adr, rBLV_STALL_CNT, rDOUBT_RAW]
    omega
  refine ⟨doubts_doubt_same _ _ _ (by decide), ?_, ?_⟩
  · rw [rdN_congr (rdA_doubt_ne _ _ _ _ (offRec_of_off _ (by decide) (by decide)) hne), rdN_bump_same]
  · have hbump := otherRegs_bump s (pBLV die) rBLV_STALL_CNT
    have hdoubt := otherRegs_doubt (bump s (pBLV die) rBLV_STALL_CNT) (pISL die) 2 true
    exact (hbump.mono (by simp)).trans (hdoubt.mono (by simp))

/-- The doubts that the monitors of a die judge: ISL_VOLT, and on the Timebase ISL_TEMP. -/
theorem islMonitorJudge_judges {die : Fin 8} (hregs : dieHasRegs die = true) (mv : List Nat) (temp : List Int)
    (nb : List (Fin 8 × Fin 8)) (xlat spread : Nat) (s : State) :
    Answers (exec (.islMonitorJudge die mv temp nb xlat spread) s) fun t =>
      doubts t (pISL die) 0 = voltApart s die mv nb ∧
      (die.val = 1 → doubts t (pISL die) 1 = decide (get s (pISL die) fISL_DT_LIMIT_C < spread)) := by
  simp only [exec, execIslMonitorJudge, hregs, if_true, answers_next]
  generalize maxF (showMon s die mv temp) (pISL die) fISL_XLAT_MAX_DNS xlat = s1
  have hvolt : doubts (doubt s1 (pISL die) 0 (voltApart s die mv nb)) (pISL die) 0 = voltApart s die mv nb :=
    doubts_doubt_same _ _ _ (by decide)
  generalize doubt s1 (pISL die) 0 (voltApart s die mv nb) = s2 at hvolt ⊢
  -- ISL_XING, judged last, leaves the two.
  have hxing : ∀ (s3 : State) (bit : Nat), bit < 2 →
      doubts (if ix s.fab.stall die false then s3 else doubt s3 (pISL die) 2 false) (pISL die) bit =
        doubts s3 (pISL die) bit := by
    intro s3 bit hbit
    split
    · rfl
    · exact doubts_doubt_ne _ _ _ (by omega) (by omega)
  have hspread : doubts (put s2 (pISL die) fISL_TEMP_SPREAD_C (satU 8 spread)) (pISL die) 0 =
      doubts s2 (pISL die) 0 := doubts_congr (rdA_put_ne _ _ _ _ (Pg.adr_ne _ (by decide))) _
  refine ⟨(hxing _ 0 (by decide)).trans ?_, fun hdie => (hxing _ 1 (by decide)).trans ?_⟩
  · split
    · rw [doubts_doubt_ne _ _ _ (by decide) (by decide), hspread, hvolt]
    · exact hvolt
  · rw [if_pos hdie, doubts_doubt_same _ _ _ (by decide)]

/-- Settles O11: each row of the fabric by the lemma on what it shows; the features that a commit puts in force reach
no FEAT_CTRL. -/
theorem fabricCommands : Obligations.FabricCommands := by
  refine ⟨fun r s hw hcom => ?commit, fun r s hw hcom => ?again, fun s hbegun => ?done,
    fun die s hregs hnew => ?message, fun die s hregs => ?resend, fun dst src c fails lat s hfails _ => ?delivered,
    fun dst src c lat s _ => ?discarded, fun die isl s hregs hisl => ?xing,
    fun die mv temp nb xlat spread s hregs => islMonitorJudge_judges hregs mv temp nb xlat spread s⟩
  case commit =>
    rw [exec_featCommit hw, commitWrite_begins hcom, answers_next]
    exact ⟨flag_putB_same _ _ _ _ (by decide) rfl, otherRegs_putB _ _ _ _⟩
  case again =>
    rw [exec_featCommit hw, commitWrite_stands hcom]
  case done =>
    obtain ⟨t, hexec, hread⟩ := featCommitDone_ends hbegun
    refine ⟨t, hexec, ?_, ?_⟩
    · rw [flag_congr hread, flag_putB_same _ _ _ _ (by decide) rfl]
    · rw [flag_congr hread, flag, putB,
        get_put_apart _ pHubDie fDIE_FEAT_CTRL_COMMITTED fDIE_FEAT_CTRL_COMMIT _ rfl (by decide) (by decide)]
      exact flag_putB_same _ _ _ _ (by decide) rfl
  case message =>
    rw [exec_doubtMessage hregs hnew, answers_next]
    exact sendDoubtMsg_shows s die.2
  case resend =>
    rw [exec_doubtMessageResend hregs, answers_next]
    exact sendDoubtMsg_shows s die.2
  case delivered =>
    obtain ⟨fab', hexec⟩ := exec_blvTransfer_single dst src c fails lat s
    obtain ⟨hlat, hfault⟩ := deliverTransfer_shows (countRetries { s with fab := fab' } src fails) src lat
    have hretries : min fails 3 = fails := by omega
    rw [hexec, if_pos hfails, answers_next]
    refine ⟨?_, ?_, hlat, hfault⟩
    · rw [rdN_deliverTransfer_ne _ _ _ (by decide) (by decide), rdN_countRetries_same, hretries]
      rfl
    · rw [rdN_deliverTransfer_ne _ _ _ (by decide) (by decide), rdN_countRetries_ne _ _ _ (by decide)]
      rfl
  case discarded =>
    obtain ⟨fab', hexec⟩ := exec_blvTransfer_single dst src c 4 lat s
    obtain ⟨hretry, hfail, hfault⟩ := discardTransfer_shows (countRetries { s with fab := fab' } src 4) src
    rw [hexec, if_neg (by decide), answers_next]
    refine ⟨?_, ?_, hfault⟩
    · rw [hretry, rdN_countRetries_same]
      rfl
    · rw [hfail, rdN_countRetries_ne _ _ _ (by decide)]
      rfl
  case xing =>
    obtain ⟨fab', hexec⟩ := exec_islXing hregs hisl s
    rw [hexec, answers_next]
    exact stalledCrossing_shows { s with fab := fab' } die

end Sys2Proof.Machine
end

section
/-! The idle cycle of the master clock (R46, log entry 5) and the queue, which no command touches. -/

namespace Sys2Proof.Machine

/-- R46: one cycle adds the rate to the counter of 112 bits that P and its fraction make. -/
theorem clockCycle_counter (c : Clock) (rate : Nat) :
    (clockCycle c rate).p.toNat * 2 ^ 32 + (clockCycle c rate).sub.toNat =
      (c.p.toNat * 2 ^ 32 + c.sub.toNat + rate) % 2 ^ 112 := by
  simp only [clockCycle, BitVec.toNat_ofNat]
  omega

theorem clockCycle_tOfs (c : Clock) (rate : Nat) : (clockCycle c rate).tOfs = c.tOfs := by cases c; rfl

theorem idleCycle_running {s : State} (h : ∀ x ∈ s.pwr.held, x.1 ≠ 0) :
    idleCycle s = { s with clk := clockCycle s.clk (rd64 s pTBE rTBE_RATE_LO rTBE_RATE_HI) } := by
  have hnone : (s.pwr.held.any fun x => x.1 == 0) = false := by
    rw [List.any_eq_false]
    exact fun x hx => by simpa using h x hx
  rw [idleCycle, hnone, if_neg Bool.false_ne_true]

theorem idleCycle_held {s : State} (h : ∃ x ∈ s.pwr.held, x.1 = 0) : idleCycle s = s := by
  rw [idleCycle, if_pos]
  simpa using h

theorem step_of_empty {s : State} (h : s.pending = []) : step s = .next (idleCycle s) := by
  rw [step]
  split
  · rfl
  · next hpending => rw [h] at hpending; cases hpending

/-- The idle cycle moves the counter of the clock, and nothing else. -/
theorem idleCycle_clock {s : State} (h : ∀ x ∈ s.pwr.held, x.1 ≠ 0) :
    ∃ c, idleCycle s = { s with clk := c } ∧ c.tOfs = s.clk.tOfs ∧
      c.p.toNat * 2 ^ 32 + c.sub.toNat =
        (s.clk.p.toNat * 2 ^ 32 + s.clk.sub.toNat + rd64 s pTBE rTBE_RATE_LO rTBE_RATE_HI) % 2 ^ 112 :=
  ⟨_, idleCycle_running h, clockCycle_tOfs _ _, clockCycle_counter _ _⟩

theorem exec_pending {c : Instr} {s t : State} (h : exec c s = .next t) : t.pending = s.pending :=
  (kept_exec (queue_closed s.pending) c (fun _ => trivial) s rfl).of_next h

/-- Settles O2: the idle cycle is one addition to the counter, and the queue survives every change of Closed. -/
theorem emptyQueueRunsClock : Obligations.EmptyQueueRunsClock := by
  refine ⟨fun s hempty hrun => ?cycle, fun s hempty hheld => ?held, fun _ _ _ hexec => exec_pending hexec⟩
  case cycle =>
    obtain ⟨c, hidle, hofs, hcounter⟩ := idleCycle_clock hrun
    rw [step_of_empty hempty, hidle, answers_next]
    exact ⟨hcounter, rfl, hofs⟩
  case held =>
    rw [step_of_empty hempty, idleCycle_held hheld]

end Sys2Proof.Machine
end

section
/-! Snapshots of the time (R47) and the exchanges of a time lane that are answered (R21, R66). -/

namespace Sys2Proof.Machine

/-! ### Snapshots (R47) -/

/-- A phase without an error is the master's. -/
theorem snapOf_zero (s : State) : snapOf s 0 = ⟨t96 s, pcNow s, mono s⟩ := by
  simp [snapOf, mono]

theorem exec_timeSnapshot_tbe {s : State} (h : readable s pTBE = true) (r : Requester) (wide : Bool) :
    exec (.timeSnapshot r 1 wide) s = .next (reply
      { s with snapTbe := s.snapTbe.set (reqCode r) (snapOf s 0) }
      (t96Sec (snapOf s 0).t96 % (if wide then 2 ^ 48 else 2 ^ 32))) := by
  have hdie : ((1 : Fin 8) : Nat) = 1 := rfl
  simp only [exec, execTimeSnapshot, hdie, if_true, onRead_readable h]
  rfl

theorem exec_timeSnapshot_port {s : State} {d : Fin 4} {die : Fin 8} (hdie : die.val = 4 + d.val)
    (h : readable s (pLTR d) = true) (r : Requester) (wide : Bool) :
    exec (.timeSnapshot r die wide) s = .next (reply
      { s with snapLtr := upd s.snapLtr d fun l => l.set (reqCode r) (snapOf s (replica s (2 + d)).ofs) }
      (t96Sec (snapOf s (replica s (2 + d)).ofs).t96 % (if wide then 2 ^ 48 else 2 ^ 32))) := by
  have hnot : die.val ≠ 1 := by omega
  have hport : isPortDie die = true := by simp [isPortDie, hdie]; omega
  have hpage : die.val - 4 = d.val := by omega
  have hlane : die.val - 2 = 2 + d.val := by omega
  simp only [exec, execTimeSnapshot, hnot, hport, hpage, hlane, if_false, if_true, onRead_readable h]
  rfl

/-! ### Exchanges of a time lane (R21, R66) -/

@[simp] theorem showExchange_tb (s : State) (lane : Nat) (theta d : Int) :
    (showExchange s lane theta d).tb = s.tb :=
  (kept_showExchange (leaves_closed (fun _ => False) s) s lane theta d (leaves_refl _ s) .tb).resolve_left id

@[simp] theorem showReplica_tb (s : State) (lane : Nat) : (showReplica s lane).tb = s.tb :=
  (kept_showReplica (leaves_closed (fun _ => False) s) s lane (leaves_refl _ s) .tb).resolve_left id

@[simp] theorem replicaDoubts_tb (s : State) (lane : Nat) : (replicaDoubts s lane).tb = s.tb :=
  (kept_replicaDoubts (leaves_closed (fun _ => False) s) s lane (leaves_refl _ s) .tb).resolve_left id

@[simp] theorem updReplica_count (s : State) (lane : Nat) (f : Replica → Replica) :
    (updReplica s lane f).tb.replicas.length = s.tb.replicas.length := by
  simp only [updReplica, upd, List.length_modify]

section

variable {s : State} {lane : Nat} (h : lane < s.tb.replicas.length)
include h

theorem miss_resync : (replica (resync s lane) lane).miss = (replica s lane).miss := by
  simp only [resync]
  split
  · rw [replica_updReplica_same h]
  · rw [replica_of_tb ((raise_tb _ _ _).trans ((raise_tb _ _ _).trans (bump_tb _ _ _))), replica_updReplica_same h]

theorem miss_acquire (theta : Int) : (replica (acquire s lane theta) lane).miss = (replica s lane).miss := by
  simp only [acquire]
  rw [replica_of_tb (raiseIf_tb _ _ _ _), replica_updReplica_same h]

theorem miss_steer (theta : Int) : (replica (steer s lane theta) lane).miss = (replica s lane).miss := by
  rw [steer, replica_updReplica_same h]

/-- R21: an exchange that is answered leaves no misses and no TLANE_FAULT. -/
theorem exchange_clears (theta d : Int) :
    (replica (exchange s lane theta d) lane).miss = 0 ∧
      doubts (exchange s lane theta d) (pISL (laneDie lane)) 3 = false := by
  refine ⟨?_, doubts_doubt_same _ _ _ (by decide)⟩
  have hshown : lane < (showExchange s lane theta d).tb.replicas.length := by rw [showExchange_tb]; exact h
  simp only [exchange]
  rw [replica_of_tb ((doubt_tb _ _ _ _).trans ((replicaDoubts_tb _ _).trans (showReplica_tb _ _)))]
  split
  · split
    · rw [miss_resync (by rw [updReplica_count]; exact hshown), replica_updReplica_same hshown]
    · rw [miss_steer (by rw [updReplica_count]; exact hshown), replica_updReplica_same hshown]
  · rw [miss_acquire (by rw [updReplica_count]; exact hshown), replica_updReplica_same hshown]

end

/-- What the launch unit shows of its timed ports is no doubt of an ISL page. -/
theorem doubts_showTimed (s : State) (d die bit : Nat) :
    doubts (showTimed s d) (pISL die) bit = doubts s (pISL die) bit := by
  have hne : (pISL die).adr rDOUBT_RAW ≠ (pLCH d).adr rLCH_STAT := by
    simp only [Pg.adr, rDOUBT_RAW, rLCH_STAT]; omega
  rw [showTimed]
  exact doubts_congr ((rdA_putB_ne _ _ _ _ hne).trans (rdA_put_ne _ _ _ _ hne)) bit

theorem laneExchange_answered {s : State} {lane : Fin 6} (hsize : s.tb.replicas.length = 6)
    (hkeep : get s pHubDie fDIE_PWR_STAT_STATE ≠ 3) (m : Int × Int × Int × Int) :
    Answers (exec (.laneExchange lane (some m)) s) fun t =>
      (replica t lane).miss = 0 ∧ doubts t (pISL (laneDie lane)) 3 = false := by
  have hlane : lane.val < s.tb.replicas.length := by rw [hsize]; exact lane.2
  obtain ⟨t1, t2, t3, t4⟩ := m
  simp only [exec, execLaneExchange, hkeep, false_and, if_false, answers_next]
  split
  · exact exchange_clears hlane _ _
  · have hdrop : lane.val < (replicaDrops s (lane.val - 2)).tb.replicas.length := by rw [replicaDrops_tb]; exact hlane
    rw [replica_of_tb (showTimed_tb _ _), doubts_showTimed]
    exact exchange_clears hdrop _ _

/-- Settles O15: a snapshot of a phase without an error is the master's instant; the last act of an exchange is the end
of TLANE_FAULT, and the clock is none of the parts that the row may change. -/
theorem snapshotsAndLanes : Obligations.SnapshotsAndLanes := by
  refine ⟨fun r wide s hread => ?timebase, fun r d die wide s hdie hread hofs => ?port,
    fun lane m s hshaped hkeep => ?answered⟩
  case timebase =>
    rw [exec_timeSnapshot_tbe hread, snapOf_zero, t96Sec]
  case port =>
    rw [exec_timeSnapshot_port hdie hread, hofs, snapOf_zero, t96Sec]
  case answered =>
    obtain ⟨t, hexec, hmiss, hfault⟩ := laneExchange_answered (lane := lane) hshaped.replicas hkeep m
    exact ⟨t, hexec, hmiss, hfault, commandFrames _ _ _ hexec .clk (by simp [mayChange])⟩

end Sys2Proof.Machine
end

section
/-! What the operations of the timebase leave (spec/03): the registers of the TBE page that each moves, the interrupts
that stand, whether the time is set, the clock and the last step. -/

namespace Sys2Proof.Machine

/-! ### Registers and fields -/

theorem flag_put_apart (s : State) (p : Pg) (f g : Fld) (v : Nat) (ho : g.off = f.off) (hg : g.lo + g.w ≤ 32)
    (h : g.lo + g.w ≤ f.lo ∨ f.lo + f.w ≤ g.lo) : flag (put s p f v) p g = flag s p g := by
  rw [flag, get_put_apart s p f g v ho hg h, flag]

theorem flag_putB_apart (s : State) (p : Pg) (f g : Fld) (b : Bool) (ho : g.off = f.off) (hg : g.lo + g.w ≤ 32)
    (h : g.lo + g.w ≤ f.lo ∨ f.lo + f.w ≤ g.lo) : flag (putB s p f b) p g = flag s p g :=
  flag_put_apart s p f g _ ho hg h

theorem rd64_wr64_same (s : State) (p : Pg) {lo hi : Nat} (v : Nat) (h : lo ≠ hi) :
    rd64 (wr64 s p lo hi v) p lo hi = v % 2 ^ 64 := by
  rw [rd64, wr64, rdN_wrN_ne _ _ _ _ _ _ (p.adr_ne h), rdN_wrN_same, rdN_wrN_same]
  omega

/-- No register of the TBE page is the Recorder's. -/
theorem offRec_tbe {o : Nat} (ho : o < 0x1000) : offRec (pTBE.adr o) = true :=
  offRec_of_page (by simp only [Pg.adr]; omega)

/-- The registers of a page of the Radio or of a Port die lie beyond those of the Timebase. -/
theorem tbe_ne_later {p : Pg} (hp : 2 ≤ p.die) (o : Nat) {o' : Nat} (ho : o' < 0x1000) : pTBE.adr o' ≠ p.adr o := by
  simp only [Pg.adr]
  omega

/-! ### What an operation of the timebase leaves -/

/-- From `s` to `t` the TBE page moves only the registers at the offsets `l` and none of its interrupts falls; TIME_SET
and TIME_UNSET, the clock and the last step stay. -/
structure TbeMoves (l : List Nat) (s t : State) : Prop where
  regs : ∀ o, o < 0x1000 → o ∉ l → rdA t (pTBE.adr o) = rdA s (pTBE.adr o)
  ints : ∀ b, b < 32 → intRaw s pTBE b = true → intRaw t pTBE b = true
  timeSet : timeSet t = timeSet s
  timeUnset : doubts t pTBE 0 = doubts s pTBE 0
  clk : t.clk = s.clk
  lastStep : t.tb.lastStep = s.tb.lastStep

namespace TbeMoves

variable {l m : List Nat} {s t u : State}

theorem refl (l : List Nat) (s : State) : TbeMoves l s s :=
  ⟨fun _ _ _ => rfl, fun _ _ h => h, rfl, rfl, rfl, rfl⟩

theorem trans (h₁ : TbeMoves l s t) (h₂ : TbeMoves l t u) : TbeMoves l s u :=
  ⟨fun o ho hl => (h₂.regs o ho hl).trans (h₁.regs o ho hl), fun b hb h => h₂.ints b hb (h₁.ints b hb h),
    h₂.timeSet.trans h₁.timeSet, h₂.timeUnset.trans h₁.timeUnset, h₂.clk.trans h₁.clk,
    h₂.lastStep.trans h₁.lastStep⟩

theorem mono (h : TbeMoves l s t) (hlm : l ⊆ m) : TbeMoves m s t :=
  ⟨fun o ho hm => h.regs o ho fun hl => hm (hlm hl), h.ints, h.timeSet, h.timeUnset, h.clk, h.lastStep⟩

/-- An operation that moves neither INT_RAW nor DOUBT_RAW nor STAT. -/
theorem of_regs (hl : rINT_RAW ∉ l ∧ rDOUBT_RAW ∉ l ∧ rTBE_STAT ∉ l)
    (hregs : ∀ o, o < 0x1000 → o ∉ l → rdA t (pTBE.adr o) = rdA s (pTBE.adr o)) (hclk : t.clk = s.clk)
    (htb : t.tb = s.tb) : TbeMoves l s t := by
  obtain ⟨hint, hdoubt, hstat⟩ := hl
  refine ⟨hregs, fun b _ h => ?_, ?_, doubts_congr (hregs _ (by decide) hdoubt) 0, hclk, by rw [htb]⟩
  · rw [intRaw, rdN_congr (hregs _ (by decide) hint)]
    exact h
  · exact flag_congr (hregs _ (by decide) hstat)

theorem rdN (h : TbeMoves l s t) {o : Nat} (hl : o ∉ l) (ho : o < 0x1000) : rdN t pTBE o = rdN s pTBE o :=
  rdN_congr (h.regs o ho hl)

theorem get (h : TbeMoves l s t) {f : Fld} (hl : f.off ∉ l) (ho : f.off < 0x1000) : get t pTBE f = get s pTBE f :=
  get_congr (h.regs _ ho hl)

theorem flag (h : TbeMoves l s t) {f : Fld} (hl : f.off ∉ l) (ho : f.off < 0x1000) : flag t pTBE f = flag s pTBE f :=
  flag_congr (h.regs _ ho hl)

end TbeMoves

/-! ### Stores, records, interrupts and doubts -/

theorem tbeMoves_put (s : State) (f : Fld) (v : Nat)
    (hf : f.off ≠ rINT_RAW ∧ f.off ≠ rDOUBT_RAW ∧ f.off ≠ rTBE_STAT) : TbeMoves [f.off] s (put s pTBE f v) := by
  obtain ⟨hint, hdoubt, hstat⟩ := hf
  refine .of_regs ⟨by simpa using hint.symm, by simpa using hdoubt.symm, by simpa using hstat.symm⟩
    (fun o _ ho => rdA_put_ne _ _ _ _ (Pg.adr_ne _ (by simpa using ho))) (put_clk _ _ _ _) (put_tb _ _ _ _)

theorem tbeMoves_putB (s : State) (f : Fld) (b : Bool)
    (hf : f.off ≠ rINT_RAW ∧ f.off ≠ rDOUBT_RAW ∧ f.off ≠ rTBE_STAT) : TbeMoves [f.off] s (putB s pTBE f b) :=
  tbeMoves_put s f _ hf

/-- A field of STAT other than TIME_SET. -/
theorem tbeMoves_putB_stat (s : State) (f : Fld) (b : Bool) (hoff : f.off = rTBE_STAT) (hlo : 1 ≤ f.lo) :
    TbeMoves [rTBE_STAT] s (putB s pTBE f b) := by
  have hregs : ∀ o, o ≠ rTBE_STAT → rdA (putB s pTBE f b) (pTBE.adr o) = rdA s (pTBE.adr o) := fun o ho =>
    rdA_putB_ne _ _ _ _ (Pg.adr_ne _ (by rw [hoff]; exact ho))
  refine ⟨fun o _ ho => hregs o (by simpa using ho), fun b _ h => ?_, ?_, doubts_congr (hregs _ (by decide)) 0,
    putB_clk _ _ _ _, by rw [putB_tb]⟩
  · rw [intRaw, rdN_congr (hregs _ (by decide))]
    exact h
  · exact flag_putB_apart s pTBE f fTBE_STAT_TIME_SET b hoff.symm (by decide) (.inl hlo)

theorem tbeMoves_wrN (s : State) (o v : Nat) (ho : o ≠ rINT_RAW ∧ o ≠ rDOUBT_RAW ∧ o ≠ rTBE_STAT) :
    TbeMoves [o] s (wrN s pTBE o v) := by
  obtain ⟨hint, hdoubt, hstat⟩ := ho
  refine .of_regs ⟨by simpa using hint.symm, by simpa using hdoubt.symm, by simpa using hstat.symm⟩
    (fun o' _ ho' => rdA_wrN_ne _ _ _ _ (Pg.adr_ne _ (by simpa using ho'))) (wrN_clk _ _ _ _) (wrN_tb _ _ _ _)

/-- A store in a page of another die than the Hub and the Timebase. -/
theorem tbeMoves_put_later (s : State) {p : Pg} (hp : 2 ≤ p.die) (f : Fld) (v : Nat) : TbeMoves [] s (put s p f v) :=
  .of_regs (by simp) (fun _ ho _ => rdA_put_ne _ _ _ _ (tbe_ne_later hp _ ho)) (put_clk _ _ _ _) (put_tb _ _ _ _)

theorem tbeMoves_raise (s : State) (bit : Nat) : TbeMoves [rINT_RAW] s (raise s pTBE bit) := by
  have hregs : ∀ o, o < 0x1000 → o ≠ rINT_RAW → rdA (raise s pTBE bit) (pTBE.adr o) = rdA s (pTBE.adr o) :=
    fun o ho hne => rdA_raise_ne _ _ _ (offRec_tbe ho) (Pg.adr_ne _ hne)
  refine ⟨fun o ho hne => hregs o ho (by simpa using hne), fun b hb h => ?_,
    flag_congr (hregs _ (by decide) (by decide)), doubts_congr (hregs _ (by decide) (by decide)) 0, raise_clk _ _ _,
    by rw [raise_tb]⟩
  rcases intRaw_raiseBy (p := pTBE) (.inr (offRec_tbe (by decide))) s bit false hb with hrisen | ⟨_, _, hrisen⟩
  · rw [raise, hrisen, h, Bool.or_true]
  · exact hrisen

theorem tbeMoves_record (s : State) (p : Pg) (code sev a0 a1 : Nat) : TbeMoves [] s (record s p code sev a0 a1) :=
  .of_regs (by simp) (fun _ ho _ => rdA_record _ _ _ _ _ _ (offRec_tbe ho)) (record_clk _ _ _ _ _ _)
    (record_tb _ _ _ _ _ _)

theorem tbeMoves_recordPair (s : State) (p : Pg) (code sev a0 a1 b0 b1 : Nat) :
    TbeMoves [] s (recordPair s p code sev a0 a1 b0 b1) :=
  .of_regs (by simp) (fun _ ho _ => rdA_recordPair _ _ _ _ _ _ _ _ (offRec_tbe ho)) (recordPair_clk _ _ _ _ _ _ _ _)
    (recordPair_tb _ _ _ _ _ _ _ _)

/-- A doubt of the page other than TIME_UNSET. -/
theorem tbeMoves_doubt (s : State) {bit : Nat} (b : Bool) (hbit : bit ≠ 0) :
    TbeMoves [rDOUBT_RAW] s (doubt s pTBE bit b) := by
  have hregs : ∀ o, o < 0x1000 → o ≠ rDOUBT_RAW → rdA (doubt s pTBE bit b) (pTBE.adr o) = rdA s (pTBE.adr o) :=
    fun o ho hne => rdA_doubt_ne _ _ _ _ (offRec_tbe ho) (Pg.adr_ne _ hne)
  refine ⟨fun o ho hne => hregs o ho (by simpa using hne), fun c _ h => ?_,
    flag_congr (hregs _ (by decide) (by decide)), doubts_doubt_ne _ _ _ (by decide) hbit.symm, doubt_clk _ _ _ _,
    by rw [doubt_tb]⟩
  rw [intRaw, rdN_congr (hregs _ (by decide) (by decide))]
  exact h

theorem tbeMoves_foldl {α : Type} {l : List Nat} {g : State → α → State} (hg : ∀ s x, TbeMoves l s (g s x))
    (xs : List α) (s : State) : TbeMoves l s (xs.foldl g s) :=
  kept_foldl (P := TbeMoves l s) xs g s (fun t x h => h.trans (hg t x)) (.refl l s)

/-! ### The clock reaches an instant -/

theorem advT96_eq (s : State) (t : Nat) : ∃ c, advT96 s t = { s with clk := c } := by
  simp only [advT96, advP]
  split
  · exact ⟨_, rfl⟩
  · exact ⟨s.clk, rfl⟩

theorem advPc_eq (s : State) (t : PC64) : ∃ p, advPc s t = { s with clk := { s.clk with p := p } } := by
  simp only [advPc, advP]
  split
  · split
    · exact ⟨_, rfl⟩
    · exact ⟨s.clk.p, rfl⟩
  · exact ⟨s.clk.p, rfl⟩

/-! ### Era, leap day and smear -/

theorem tbeMoves_refreshEra (s : State) : TbeMoves [rTBE_NTP_ERA, rINT_RAW] s (refreshEra s) := by
  simp only [refreshEra]
  generalize (if timeSet s = true then _ else _) = era
  have hput := tbeMoves_put s fTBE_NTP_ERA_ERA era (by decide)
  split
  · exact .refl _ s
  · exact (hput.mono (by simp)).trans ((tbeMoves_raise _ 7).mono (by simp))

theorem tbeMoves_refreshLeapDay (s : State) : TbeMoves [rTBE_STAT] s (refreshLeapDay s) :=
  tbeMoves_putB_stat s _ _ rfl (by decide)

theorem tbeMoves_refreshSmear (s : State) : TbeMoves [rTBE_SMEAR_NOW] s (refreshSmear s) :=
  tbeMoves_put s fTBE_SMEAR_NOW_NS _ (by decide)

/-- The smear that ends moves the state of the smear beside the registers. -/
theorem tbeMoves_endSmear (s : State) : TbeMoves [rTBE_STAT, rTBE_SMEAR_NOW, rINT_RAW] s (endSmear s) := by
  simp only [endSmear]
  split
  · have hoff : TbeMoves [rTBE_STAT, rTBE_SMEAR_NOW, rINT_RAW] s { s with tb := { s.tb with smearOn := false } } :=
      ⟨fun _ _ _ => rfl, fun _ _ h => h, rfl, rfl, rfl, rfl⟩
    exact ((hoff.trans ((tbeMoves_putB_stat _ fTBE_STAT_SMEARING _ rfl (by decide)).mono (by simp))).trans
      ((tbeMoves_refreshSmear _).mono (by simp))).trans ((tbeMoves_raise _ 6).mono (by simp))
  · exact .refl _ s

/-- What follows the new offset and the end of the schedule when a leap is applied. -/
theorem tbeMoves_leapRecorded (s : State) (u sec : Nat) :
    TbeMoves [rTBE_STAT, rTBE_NTP_ERA, rINT_RAW] s (refreshEra (refreshLeapDay (record s pTBE 0x102 1 u sec))) :=
  (((tbeMoves_record s _ _ _ _ _).mono (by simp)).trans ((tbeMoves_refreshLeapDay _).mono (by simp))).trans
    ((tbeMoves_refreshEra _).mono (by simp))

theorem tbeMoves_applyLeap (s : State) :
    TbeMoves [rTBE_UTC_OFFSET, rTBE_LEAP_SCHED_HI, rTBE_STAT, rTBE_NTP_ERA, rINT_RAW] s (applyLeap s) :=
  ((((tbeMoves_put s fTBE_UTC_OFFSET_SEC _ (by decide)).mono (by simp)).trans
    ((tbeMoves_putB _ fTBE_LEAP_SCHED_HI_VALID _ (by decide)).mono (by simp))).trans
    ((tbeMoves_raise _ 3).mono (by simp))).trans ((tbeMoves_leapRecorded _ _ _).mono (by simp))

end Sys2Proof.Machine
end

section
/-! UTC, leap seconds and the smear (R53–R59): what the rows show. -/

namespace Sys2Proof.Machine

/-! ### The offset (R53) -/

/-- A write of the offset stores its fields, and UTC_UNSET stands where VALID does not. -/
theorem setUtcOfs_shows (s : State) {sec : Nat} (hsec : sec < 2 ^ 16) (valid : Bool) :
    get (setUtcOfs s sec valid) pTBE fTBE_UTC_OFFSET_SEC = sec ∧
      flag (setUtcOfs s sec valid) pTBE fTBE_UTC_OFFSET_VALID = valid ∧
      doubts (setUtcOfs s sec valid) pTBE 2 = !valid := by
  have hdoubt := tbeMoves_doubt (putB (put s pTBE fTBE_UTC_OFFSET_SEC sec) pTBE fTBE_UTC_OFFSET_VALID valid)
    (!valid) (bit := 2) (by decide)
  have hera := tbeMoves_refreshEra
    (doubt (putB (put s pTBE fTBE_UTC_OFFSET_SEC sec) pTBE fTBE_UTC_OFFSET_VALID valid) pTBE 2 (!valid))
  rw [setUtcOfs]
  refine ⟨?_, ?_, ?_⟩
  · rw [hera.get (by decide) (by decide), hdoubt.get (by decide) (by decide), putB,
      get_put_apart _ _ fTBE_UTC_OFFSET_VALID fTBE_UTC_OFFSET_SEC _ rfl (by decide) (by decide),
      get_put_same _ _ _ _ (by decide)]
    exact Nat.mod_eq_of_lt hsec
  · rw [hera.flag (by decide) (by decide), hdoubt.flag (by decide) (by decide),
      flag_putB_same _ _ _ _ (by decide) rfl]
  · rw [doubts_congr (hera.regs _ (by decide) (by decide)), doubts_doubt_same _ _ _ (by decide)]

/-! ### The schedule (R54) -/

/-- The fields of LEAP_SCHED_HI as a write stores them. -/
theorem leapSchedHi_fields {hi : Nat} (h : hi < 2 ^ 16) (del valid : Bool) :
    let n := (hi + ofBool del * 0x10000 + ofBool valid * 0x80000000) % 2 ^ 32
    fTBE_LEAP_SCHED_HI_TAI_SEC.of n = hi ∧ fTBE_LEAP_SCHED_HI_DIR.of n = ofBool del ∧
      fTBE_LEAP_SCHED_HI_VALID.of n = ofBool valid := by
  have hdel : ofBool del < 2 := by cases del <;> decide
  have hvalid : ofBool valid < 2 := by cases valid <;> decide
  simp only [Fld.of]
  omega

theorem ofBool_ne_zero (b : Bool) : (ofBool b != 0) = b := by cases b <;> rfl

/-- A write of LEAP_SCHED_HI that no link forbids: the fields are stored, VALID where the schedule is not refused. -/
theorem leapSchedHi_shows (s : State) {hi : Nat} (h : hi < 2 ^ 16) (del valid bad : Bool) :
    let t := refreshLeapDay (raiseIf (wrN s pTBE rTBE_LEAP_SCHED_HI
      (hi + ofBool del * 0x10000 + ofBool valid * 0x80000000)) bad pTBE 4)
    get t pTBE fTBE_LEAP_SCHED_HI_TAI_SEC = hi ∧ flag t pTBE fTBE_LEAP_SCHED_HI_DIR = del ∧
      flag t pTBE fTBE_LEAP_SCHED_HI_VALID = valid ∧ (bad = true → intRaw t pTBE 4 = true) := by
  obtain ⟨hhi, hdir, hvalid⟩ := leapSchedHi_fields h del valid
  generalize hi + ofBool del * 0x10000 + ofBool valid * 0x80000000 = n at hhi hdir hvalid ⊢
  have hday := tbeMoves_refreshLeapDay (raiseIf (wrN s pTBE rTBE_LEAP_SCHED_HI n) bad pTBE 4)
  have hword : rdN (refreshLeapDay (raiseIf (wrN s pTBE rTBE_LEAP_SCHED_HI n) bad pTBE 4)) pTBE rTBE_LEAP_SCHED_HI =
      n % 2 ^ 32 := by
    rw [hday.rdN (by decide) (by decide),
      rdN_congr (rdA_raiseIf_ne _ _ _ _ (offRec_tbe (by decide)) (by decide)), rdN_wrN_same]
  refine ⟨by rw [get, hword, hhi], by rw [flag, get, hword, hdir, ofBool_ne_zero],
    by rw [flag, get, hword, hvalid, ofBool_ne_zero], fun hbad => hday.ints 4 (by decide) ?_⟩
  rw [raiseIf, if_pos hbad]
  exact raise_set _ _ _ (by decide) (offRec_tbe (by decide))

/-! ### The leap (R55) -/

theorem unsign_lt (w : Nat) (i : Int) : unsign w i < 2 ^ w := by
  have hpos : (0 : Int) < 2 ^ w := by positivity
  have hlt := Int.emod_lt_of_pos i hpos
  have hnonneg := Int.emod_nonneg i hpos.ne'
  rw [unsign, Int.toNat_lt hnonneg]
  exact_mod_cast hlt

theorem applyLeap_shows (s : State) :
    get (applyLeap s) pTBE fTBE_UTC_OFFSET_SEC = unsign 16 (if leapDel s then utcOfs s - 1 else utcOfs s + 1) ∧
      flag (applyLeap s) pTBE fTBE_LEAP_SCHED_HI_VALID = false ∧ intRaw (applyLeap s) pTBE 3 = true := by
  rw [applyLeap]
  generalize hu : unsign 16 (if leapDel s then utcOfs s - 1 else utcOfs s + 1) = u
  have hlt : u < 2 ^ 16 := hu ▸ unsign_lt 16 _
  have hlast := tbeMoves_leapRecorded
    (raise (putB (put s pTBE fTBE_UTC_OFFSET_SEC u) pTBE fTBE_LEAP_SCHED_HI_VALID false) pTBE 3) u (leapSec s)
  have hraise := tbeMoves_raise (putB (put s pTBE fTBE_UTC_OFFSET_SEC u) pTBE fTBE_LEAP_SCHED_HI_VALID false) 3
  refine ⟨?_, ?_, hlast.ints 3 (by decide) (raise_set _ _ _ (by decide) (offRec_tbe (by decide)))⟩
  · rw [hlast.get (by decide) (by decide), hraise.get (by decide) (by decide), putB,
      get_put_ne _ _ _ _ _ _ (by decide), get_put_same _ _ _ _ (by decide)]
    exact Nat.mod_eq_of_lt hlt
  · rw [hlast.flag (by decide) (by decide), hraise.flag (by decide) (by decide),
      flag_putB_same _ _ _ _ (by decide) rfl]

/-! ### The smear (R58) -/

/-- The smear that begins or ends shows in SMEARING and raises its interrupt. -/
theorem smearing_shows (s : State) (on : Bool) {bit : Nat} (hbit : bit < 32) :
    let t := raise (refreshSmear (putB s pTBE fTBE_STAT_SMEARING on)) pTBE bit
    flag t pTBE fTBE_STAT_SMEARING = on ∧ t.tb = s.tb ∧ intRaw t pTBE bit = true ∧
      (s.tb.smearOn = false → get t pTBE fTBE_SMEAR_NOW_NS = 0) := by
  have hraise := tbeMoves_raise (refreshSmear (putB s pTBE fTBE_STAT_SMEARING on)) bit
  have hsmear := tbeMoves_refreshSmear (putB s pTBE fTBE_STAT_SMEARING on)
  refine ⟨?_, ?_, raise_set _ _ _ hbit (offRec_tbe (by decide)), fun hoff => ?_⟩
  · rw [hraise.flag (by decide) (by decide), hsmear.flag (by decide) (by decide),
      flag_putB_same _ _ _ _ (by decide) rfl]
  · rw [raise_tb, refreshSmear, put_tb, putB_tb]
  · rw [hraise.get (by decide) (by decide), refreshSmear, putB_tb, hoff, if_neg Bool.false_ne_true,
      get_put_same _ _ _ _ (by decide)]
    rfl

theorem beginSmear_shows (s : State) :
    flag (beginSmear s) pTBE fTBE_STAT_SMEARING = true ∧ (beginSmear s).tb.smearOn = true ∧
      intRaw (beginSmear s) pTBE 5 = true := by
  rw [beginSmear]
  generalize hs1 : ({ s with tb := _ } : State) = s1
  obtain ⟨hflag, htb, hint, _⟩ := smearing_shows s1 true (bit := 5) (by decide)
  exact ⟨hflag, by rw [htb, ← hs1], hint⟩

theorem endSmear_shows {s : State} (h : s.tb.smearOn = true) :
    flag (endSmear s) pTBE fTBE_STAT_SMEARING = false ∧ (endSmear s).tb.smearOn = false ∧
      get (endSmear s) pTBE fTBE_SMEAR_NOW_NS = 0 ∧ intRaw (endSmear s) pTBE 6 = true := by
  rw [endSmear, if_pos h]
  obtain ⟨hflag, htb, hint, hnow⟩ := smearing_shows { s with tb := { s.tb with smearOn := false } } false (bit := 6)
    (by decide)
  exact ⟨hflag, by rw [htb], hnow rfl, hint⟩

/-! ### The rows -/

section

variable {s : State} {r : Requester} (hw : writable s r pTBE = true)
include hw

theorem exec_utcOffsetWrite (v : Word) :
    exec (.utcOffsetWrite r v) s = .next (if utcSrcLink s then utcDiscard s
      else setUtcOfs s (fTBE_UTC_OFFSET_SEC.of v.toNat) (fTBE_UTC_OFFSET_VALID.of v.toNat == 1)) := by
  simp only [exec, execUtcOffsetWrite, onWrite_writable hw]

theorem exec_leapSchedWrite (hlink : utcSrcLink s = false) (v : Word) :
    let hi := fTBE_LEAP_SCHED_HI_TAI_SEC.of v.toNat
    let del := fTBE_LEAP_SCHED_HI_DIR.of v.toNat == 1
    let want := fTBE_LEAP_SCHED_HI_VALID.of v.toNat == 1
    let bad := want && leapRefused s (rdN s pTBE rTBE_LEAP_SCHED + hi * 0x100000000) del
    exec (.leapSchedWrite r v) s = .next (refreshLeapDay (raiseIf (wrN (endSmear s) pTBE rTBE_LEAP_SCHED_HI
      (hi + ofBool del * 0x10000 + ofBool (want && !bad) * 0x80000000)) bad pTBE 4)) := by
  simp only [exec, execLeapSchedWrite, onWrite_writable hw, hlink, Bool.false_eq_true, if_false]

end

theorem exec_leapApplied {s : State} (h : leapValid s = true) :
    exec .leapApplied s = .next (applyLeap (advT96 s (leapSec s * secU))) := by
  simp only [exec, execLeapApplied, h, if_true]

theorem exec_smearStart {s : State} (hvalid : leapValid s = true) (hoff : s.tb.smearOn = false)
    (hahead : t96 s ≤ smearFrom (leapSec s) (leapDel s) * secU)
    (hen : (feat s 2 && flag s pTBE fTBE_SMEAR_EN) = true) :
    exec .smearStart s = .next (beginSmear (advT96 s (smearFrom (leapSec s) (leapDel s) * secU))) := by
  obtain ⟨c, hadv⟩ := advT96_eq s (smearFrom (leapSec s) (leapDel s) * secU)
  have hen' : (feat { s with clk := c } 2 && flag { s with clk := c } pTBE fTBE_SMEAR_EN) = true := hen
  simp only [exec, execSmearStart, hvalid, hoff, decide_eq_true hahead, Bool.not_false, Bool.and_self, if_true, hadv,
    hen']

theorem exec_smearEnd {s : State} (h : s.tb.smearOn = true) :
    exec .smearEnd s = .next (endSmear (advT96 s ((s.tb.smearStart + smearLen s.tb.smearDir) * secU))) := by
  simp only [exec, execSmearEnd, h, if_true]

/-- Settles O12: what a row stores is read through the views of era, leap day and smear that follow it, which move
registers of their own. -/
theorem utcAndLeap : Obligations.UtcAndLeap := by
  refine ⟨fun r v s hw hlink => ?offset, fun r v s hw hlink => ?discarded, fun r v s hw hlink => ?schedule,
    fun s hvalid => ?leap, fun s hvalid hoff hahead hen => ?smearStart, fun s hon => ?smearEnd⟩
  case offset =>
    have hexec := exec_utcOffsetWrite hw v
    rw [hlink, if_neg Bool.false_ne_true] at hexec
    obtain ⟨hsec, hvalid, hdoubt⟩ := setUtcOfs_shows s (Fld.of_lt fTBE_UTC_OFFSET_SEC v.toNat)
      (fTBE_UTC_OFFSET_VALID.of v.toNat == 1)
    exact ⟨_, hexec, hsec, hvalid, by rw [hdoubt, hvalid], commandFrames _ _ _ hexec .clk (by simp [mayChange])⟩
  case discarded =>
    rw [exec_utcOffsetWrite hw, if_pos hlink, answers_next]
    exact ⟨rdN_bump_same _ _ _, otherRegs_bump _ _ _⟩
  case schedule =>
    intro hi del bad
    obtain ⟨hsec, hdir, hvalid, hint⟩ := leapSchedHi_shows (endSmear s)
      (Fld.of_lt fTBE_LEAP_SCHED_HI_TAI_SEC v.toNat) del
      (fTBE_LEAP_SCHED_HI_VALID.of v.toNat == 1 && !(fTBE_LEAP_SCHED_HI_VALID.of v.toNat == 1 && bad))
      (fTBE_LEAP_SCHED_HI_VALID.of v.toNat == 1 && bad)
    rw [exec_leapSchedWrite hw hlink, answers_next]
    refine ⟨hsec, hdir, hvalid.trans ?_, fun hwant hbad => hint (by simp [hwant, hbad])⟩
    cases fTBE_LEAP_SCHED_HI_VALID.of v.toNat == 1 <;> simp
  case leap =>
    obtain ⟨c, hadv⟩ := advT96_eq s (leapSec s * secU)
    rw [exec_leapApplied hvalid, hadv, answers_next]
    exact applyLeap_shows { s with clk := c }
  case smearStart =>
    rw [exec_smearStart hvalid hoff hahead hen, answers_next]
    exact beginSmear_shows _
  case smearEnd =>
    obtain ⟨c, hadv⟩ := advT96_eq s ((s.tb.smearStart + smearLen s.tb.smearDir) * secU)
    rw [exec_smearEnd hon, hadv, answers_next]
    exact endSmear_shows hon

end Sys2Proof.Machine
end

section
/-! Steps of the timescale and the TAI second (R49, R60–R65): what the rows show. -/

namespace Sys2Proof.Machine

/-! ### What the blocks that take a step leave of the Timebase -/

theorem tbeMoves_wr64 (s : State) (lo hi v : Nat) (hlo : lo ≠ rINT_RAW ∧ lo ≠ rDOUBT_RAW ∧ lo ≠ rTBE_STAT)
    (hhi : hi ≠ rINT_RAW ∧ hi ≠ rDOUBT_RAW ∧ hi ≠ rTBE_STAT) : TbeMoves [lo, hi] s (wr64 s pTBE lo hi v) :=
  ((tbeMoves_wrN s lo _ hlo).mono (by simp)).trans ((tbeMoves_wrN _ hi _ hhi).mono (by simp))

theorem tbeMoves_sendStep (s : State) (abs : Bool) (val : Int) (at' : Nat) :
    TbeMoves [] s (sendStep s abs val at') := by
  have hleaves := kept_sendStep (leaves_closed (· = .links) s) rfl s abs val at' (leaves_refl _ s)
  refine .of_regs (by simp) (fun o _ _ => rdA_foldl (fun k _ s => ?_) s) ((hleaves .clk).resolve_left (by decide))
    ((hleaves .tb).resolve_left (by decide))
  rw [rdA_ite, sendAsk, rdA_updLink, ite_self]

theorem tbeMoves_showScale (s : State) : TbeMoves [] s (showScale s) :=
  tbeMoves_foldl (fun s d => tbeMoves_put_later s (Nat.le_add_right_of_le (by decide)) _ _) _ s

theorem tbeMoves_stepDoubt (s : State) (d : Int) (first : Bool) : TbeMoves [rDOUBT_RAW] s (stepDoubt s d first) := by
  simp only [stepDoubt]
  split
  · exact .refl _ s
  · have huntil : TbeMoves [rDOUBT_RAW] s { s with tb := { s.tb with stepUntil := mono s + 2000000000 } } :=
      ⟨fun _ _ _ => rfl, fun _ _ h => h, rfl, rfl, rfl, rfl⟩
    exact huntil.trans (tbeMoves_doubt _ true (by decide))

/-- The registers that a step judged against the leap schedule and the smear may move. -/
def leapRegs : List Nat :=
  [rTBE_UTC_OFFSET, rTBE_LEAP_SCHED_HI, rTBE_STAT, rTBE_SMEAR_NOW, rTBE_NTP_ERA, rINT_RAW]

theorem tbeMoves_stepLeaps (s : State) (old : Nat) : TbeMoves leapRegs s (stepLeaps s old) := by
  have hshown : ∀ u, TbeMoves leapRegs u (refreshEra (refreshLeapDay (refreshSmear u))) := fun u =>
    (((tbeMoves_refreshSmear u).mono (by simp [leapRegs])).trans
      ((tbeMoves_refreshLeapDay _).mono (by simp [leapRegs]))).trans ((tbeMoves_refreshEra _).mono (by simp [leapRegs]))
  have hleap : ∀ c : Bool, TbeMoves leapRegs s (if c then applyLeap s else s) := fun c => by
    split
    · exact (tbeMoves_applyLeap s).mono (by simp [leapRegs])
    · exact .refl _ s
  have hsmear : ∀ (c : Bool) u, TbeMoves leapRegs u (if c then endSmear u else u) := fun c u => by
    split
    · exact (tbeMoves_endSmear u).mono (by simp [leapRegs])
    · exact .refl _ u
  simp only [stepLeaps]
  generalize (leapValid s && _ && _) = cross
  have hs1 := hleap cross
  generalize (if cross = true then applyLeap s else s) = s1 at hs1 ⊢
  generalize (s1.tb.smearOn && _) = gone
  exact (hs1.trans (hsmear _ _)).trans (hshown _)

theorem tbeMoves_dscStep (s : State) (d : Int) : TbeMoves [] s (dscStep s d) := by
  have hleaves := kept_dscStep (leaves_closed (· = .dsc) s) rfl s d (leaves_refl _ s)
  refine .of_regs (by simp) (fun o _ _ => ?_) ((hleaves .clk).resolve_left (by decide))
    ((hleaves .tb).resolve_left (by decide))
  simp only [dscStep, rdA_ite, rdA_updServo, ite_self]
  refine rdA_foldl (fun k _ s => ?_) s
  rfl

theorem tbeMoves_mckStep (s : State) (old : Int) : TbeMoves [] s (mckStep s old) :=
  .of_regs (by simp) (fun _ _ _ => rfl) rfl rfl

theorem rdA_refreshOut_tbe (s : State) (ch : Nat) {o : Nat} (ho : o < 0x1000) :
    rdA (refreshOut s ch) (pTBE.adr o) = rdA s (pTBE.adr o) := by
  have hput : ∀ s v, rdA (put s pMCK fMCK_STAT_MCS_RUN v) (pTBE.adr o) = rdA s (pTBE.adr o) := fun s v =>
    rdA_put_ne _ _ _ _ (by simp only [Pg.adr]; omega)
  simp only [refreshOut, startOut, stopOut, rdA_ite, rdA_updOut, hput, ite_self]

theorem tbeMoves_refreshGates (s : State) : TbeMoves [] s (refreshGates s) := by
  have hleaves := kept_refreshGates (leaves_closed (· = .mck) s) rfl s (leaves_refl _ s)
  refine .of_regs (by simp) (fun o ho _ => ?_) ((hleaves .clk).resolve_left (by decide))
    ((hleaves .tb).resolve_left (by decide))
  have hne : pTBE.adr o ≠ pMCK.adr rMCK_STAT := by simp only [Pg.adr]; omega
  rw [refreshGates, rdA_foldl fun ch _ s => rdA_refreshOut_tbe s ch ho, rdA_putB_ne _ _ _ _ hne,
    rdA_putB_ne _ _ _ _ hne]

theorem tbeMoves_formDelays (s : State) (d i : Nat) : TbeMoves [] s (formDelays s d i) := by
  have hput : ∀ s f v, TbeMoves [] s (put s (pTSU d i) f v) := fun s f v =>
    tbeMoves_put_later s (Nat.le_add_right_of_le (by decide)) f v
  simp only [formDelays]
  split
  · exact .refl _ s
  · exact (hput _ _ _).trans (hput _ _ _)

theorem tbeMoves_trimsTake (s : State) (d : Nat) : TbeMoves [] s (trimsTake s d) := by
  have htaken : TbeMoves [] s (updPd s d fun x => { x with trims := [] }) :=
    .of_regs (by simp) (fun _ _ _ => rfl) rfl rfl
  exact htaken.trans (tbeMoves_foldl (fun s (t : Nat × Nat) => tbeMoves_formDelays s d t.1) _ _)

/-! ### The anchor (R49) -/

/-- The registers of the anchor. -/
def anchorRegs : List Nat :=
  [rTBE_ANCHOR_PC_LO, rTBE_ANCHOR_PC_HI, rTBE_ANCHOR_SEC_LO, rTBE_ANCHOR_SEC_HI, rTBE_ANCHOR_NS, rTBE_ANCHOR_FRAC]

/-- The anchor is its registers, and the count of its updates in the register of the scale. -/
theorem writeAnchor_eq (s : State) :
    ∃ u, writeAnchor s = put u pTBE fTBE_ANCHOR_GEN_UPD (get u pTBE fTBE_ANCHOR_GEN_UPD + 1) ∧
      TbeMoves anchorRegs s u ∧
      rd64 u pTBE rTBE_ANCHOR_PC_LO rTBE_ANCHOR_PC_HI = (pcNow s).toNat := by
  have hpc := tbeMoves_wr64 s rTBE_ANCHOR_PC_LO rTBE_ANCHOR_PC_HI (pcNow s).toNat (by decide) (by decide)
  have hread := rd64_wr64_same s pTBE (lo := rTBE_ANCHOR_PC_LO) (hi := rTBE_ANCHOR_PC_HI) (pcNow s).toNat (by decide)
  generalize hs1 : wr64 s pTBE rTBE_ANCHOR_PC_LO rTBE_ANCHOR_PC_HI (pcNow s).toNat = s1 at hpc hread
  have hrest : TbeMoves [rTBE_ANCHOR_SEC_LO, rTBE_ANCHOR_SEC_HI, rTBE_ANCHOR_NS, rTBE_ANCHOR_FRAC] s1
      (wrN (wrN (wrN (wrN s1 pTBE rTBE_ANCHOR_SEC_LO (t96Sec (t96 s))) pTBE rTBE_ANCHOR_SEC_HI
        (t96Sec (t96 s) / 0x100000000 % 0x10000)) pTBE rTBE_ANCHOR_NS (t96Ns (t96 s))) pTBE rTBE_ANCHOR_FRAC
        (t96Frac (t96 s))) :=
    ((((tbeMoves_wrN s1 _ _ (by decide)).mono (by simp)).trans ((tbeMoves_wrN _ _ _ (by decide)).mono (by simp))).trans
      ((tbeMoves_wrN _ _ _ (by decide)).mono (by simp))).trans ((tbeMoves_wrN _ _ _ (by decide)).mono (by simp))
  refine ⟨_, by rw [writeAnchor, hs1], (hpc.mono (by simp [anchorRegs])).trans (hrest.mono (by simp [anchorRegs])), ?_⟩
  rw [rd64, hrest.rdN (by decide) (by decide), hrest.rdN (by decide) (by decide), ← rd64, hread]
  exact Nat.mod_eq_of_lt (pcNow s).isLt

theorem tbeMoves_writeAnchor (s : State) : TbeMoves (rTBE_ANCHOR_GEN :: anchorRegs) s (writeAnchor s) := by
  obtain ⟨u, heq, hmoves, _⟩ := writeAnchor_eq s
  rw [heq]
  exact (hmoves.mono (by simp)).trans ((tbeMoves_put u fTBE_ANCHOR_GEN_UPD _ (by decide)).mono (by simp))

theorem anchorPc_writeAnchor (s : State) : anchorPc (writeAnchor s) = pcNow s := by
  obtain ⟨u, heq, _, hpc⟩ := writeAnchor_eq s
  have hcount := tbeMoves_put u fTBE_ANCHOR_GEN_UPD (get u pTBE fTBE_ANCHOR_GEN_UPD + 1) (by decide)
  rw [heq, anchorPc, rd64, hcount.rdN (by decide) (by decide), hcount.rdN (by decide) (by decide), ← rd64, hpc,
    BitVec.ofNat_toNat, BitVec.setWidth_eq]

theorem scaleGen_writeAnchor (s : State) : scaleGen (writeAnchor s) = scaleGen s := by
  obtain ⟨u, heq, hmoves, _⟩ := writeAnchor_eq s
  rw [heq, scaleGen, get_put_apart u pTBE fTBE_ANCHOR_GEN_UPD fTBE_ANCHOR_GEN_SCALE _ rfl (by decide) (by decide),
    hmoves.get (by decide) (by decide), scaleGen]

/-! ### A step at its instant (R61, R62, R64) -/

/-- At S the offset of T96 moves by the step, and an ABSOLUTE step sets the time. -/
def stepTimed (s : State) : State :=
  let s1 := { s with
    clk := { s.clk with tOfs := s.clk.tOfs + stepSize s }, tb := { s.tb with lastStep := stepSize s } }
  if s.tb.stepAbs then markTimeSet s1 else s1

/-- The anchor, the scale and the count show a step, which is no longer pending. -/
def stepShown (s : State) : State :=
  let s3 := put (writeAnchor s) pTBE fTBE_ANCHOR_GEN_SCALE (scaleGen s + 1)
  bump (showScale (putB (putB s3 pTBE fTBE_STEP_CTRL_PEND false) pTBE fTBE_STAT_STEP_PEND false)) pTBE rTBE_STEP_CNT

/-- A step: its time and its signs, then its interrupt, its record, its doubt and the leaps that it crosses. -/
theorem applyStep_eq (s : State) :
    ∃ u0 u1 b0 b1 d first old, applyStep s = stepLeaps (stepDoubt (recordPair (raise (stepShown (stepTimed
      (advPc s (BitVec.ofNat 64 (rd64 s pTBE rTBE_STEP_AT_LO rTBE_STEP_AT_HI))))) pTBE 1) pTBE 0x100 2 u0 u1 b0 b1)
      d first) old :=
  ⟨_, _, _, _, _, _, _, rfl⟩

theorem markTimeSet_shows (s : State) :
    timeSet (markTimeSet s) = true ∧ doubts (markTimeSet s) pTBE 0 = false ∧ (markTimeSet s).clk = s.clk ∧
      (markTimeSet s).tb = s.tb := by
  have hflag : flag (doubt (putB s pTBE fTBE_STAT_TIME_SET true) pTBE 0 false) pTBE fTBE_STAT_TIME_SET = true := by
    rw [flag_congr (rdA_doubt_ne _ _ _ _ (offRec_tbe (by decide)) (by decide)), flag_putB_same _ _ _ _ (by decide) rfl]
  exact ⟨hflag, doubts_doubt_same _ _ _ (by decide), by rw [markTimeSet, doubt_clk, putB_clk],
    by rw [markTimeSet, doubt_tb, putB_tb]⟩

theorem rdA_markTimeSet_ne (s : State) {o : Nat} (ho : o < 0x1000) (hstat : o ≠ rTBE_STAT) (hdoubt : o ≠ rDOUBT_RAW) :
    rdA (markTimeSet s) (pTBE.adr o) = rdA s (pTBE.adr o) := by
  rw [markTimeSet, rdA_doubt_ne _ _ _ _ (offRec_tbe ho) (Pg.adr_ne _ hdoubt), rdA_putB_ne _ _ _ _ (Pg.adr_ne _ hstat)]

theorem stepTimed_shows (s : State) :
    (stepTimed s).clk.p = s.clk.p ∧ (stepTimed s).clk.tOfs = s.clk.tOfs + (stepTimed s).tb.lastStep ∧
      (s.tb.stepAbs = true → timeSet (stepTimed s) = true ∧ doubts (stepTimed s) pTBE 0 = false) := by
  simp only [stepTimed]
  generalize hd : stepSize s = d
  split
  · obtain ⟨htime, hunset, hclk, htb⟩ := markTimeSet_shows { s with
      clk := { s.clk with tOfs := s.clk.tOfs + d }, tb := { s.tb with lastStep := d } }
    rw [hclk, htb]
    exact ⟨rfl, rfl, fun _ => ⟨htime, hunset⟩⟩
  · next hrel => exact ⟨rfl, rfl, fun habs => absurd habs hrel⟩

theorem rdA_stepTimed_ne (s : State) {o : Nat} (ho : o < 0x1000) (hstat : o ≠ rTBE_STAT) (hdoubt : o ≠ rDOUBT_RAW) :
    rdA (stepTimed s) (pTBE.adr o) = rdA s (pTBE.adr o) := by
  simp only [stepTimed]
  split
  · rw [rdA_markTimeSet_ne _ ho hstat hdoubt, rdA_mk]
  · rw [rdA_mk]

theorem stepShown_shows (s : State) :
    TbeMoves ([rTBE_ANCHOR_GEN, rTBE_STEP_CTRL, rTBE_STAT, rTBE_STEP_CNT] ++ anchorRegs) s (stepShown s) ∧
      stepPending (stepShown s) = false ∧ scaleGen (stepShown s) = (scaleGen s + 1) % 16 ∧
      rdN (stepShown s) pTBE rTBE_STEP_CNT = min (rdN s pTBE rTBE_STEP_CNT + 1) 0xFFFFFFFF := by
  have hanchor := tbeMoves_writeAnchor s
  have hscale := tbeMoves_put (writeAnchor s) fTBE_ANCHOR_GEN_SCALE (scaleGen s + 1) (by decide)
  have hscaled : get (put (writeAnchor s) pTBE fTBE_ANCHOR_GEN_SCALE (scaleGen s + 1)) pTBE fTBE_ANCHOR_GEN_SCALE =
      (scaleGen s + 1) % 16 := get_put_same _ _ _ _ (by decide)
  rw [stepShown]
  generalize put (writeAnchor s) pTBE fTBE_ANCHOR_GEN_SCALE (scaleGen s + 1) = s3 at hscale hscaled ⊢
  have hpend := tbeMoves_putB s3 fTBE_STEP_CTRL_PEND false (by decide)
  have hended : flag (putB s3 pTBE fTBE_STEP_CTRL_PEND false) pTBE fTBE_STEP_CTRL_PEND = false :=
    flag_putB_same _ _ _ _ (by decide) rfl
  generalize putB s3 pTBE fTBE_STEP_CTRL_PEND false = s4 at hpend hended ⊢
  have hstat := tbeMoves_putB_stat s4 fTBE_STAT_STEP_PEND false rfl (by decide)
  have hpages := tbeMoves_showScale (putB s4 pTBE fTBE_STAT_STEP_PEND false)
  have hshown : TbeMoves [rTBE_STAT] s4 (showScale (putB s4 pTBE fTBE_STAT_STEP_PEND false)) :=
    hstat.trans (hpages.mono (by simp))
  generalize showScale (putB s4 pTBE fTBE_STAT_STEP_PEND false) = s5 at hshown ⊢
  have hcount : TbeMoves [rTBE_STEP_CNT] s5 (bump s5 pTBE rTBE_STEP_CNT) := tbeMoves_wrN s5 _ _ (by decide)
  refine ⟨?_, ?_, ?_, ?_⟩
  · exact ((((hanchor.mono (by simp [anchorRegs])).trans (hscale.mono (by simp))).trans (hpend.mono (by simp))).trans
      (hshown.mono (by simp))).trans (hcount.mono (by simp))
  · rw [stepPending, hcount.flag (by decide) (by decide), hshown.flag (by decide) (by decide), hended]
  · rw [scaleGen, hcount.get (by decide) (by decide), hshown.get (by decide) (by decide),
      hpend.get (by decide) (by decide), hscaled]
  · rw [rdN_bump_same, hshown.rdN (by decide) (by decide), hpend.rdN (by decide) (by decide),
      hscale.rdN (by decide) (by decide), hanchor.rdN (by decide) (by decide)]

/-- What follows a step that is shown. -/
theorem stepEnds_shows (s : State) (u0 u1 b0 b1 old : Nat) (d : Int) (first : Bool) :
    let t := stepLeaps (stepDoubt (recordPair (raise s pTBE 1) pTBE 0x100 2 u0 u1 b0 b1) d first) old
    TbeMoves (rDOUBT_RAW :: leapRegs) s t ∧ intRaw t pTBE 1 = true := by
  have hraise := tbeMoves_raise s 1
  have hrest : TbeMoves (rDOUBT_RAW :: leapRegs) (raise s pTBE 1)
      (stepLeaps (stepDoubt (recordPair (raise s pTBE 1) pTBE 0x100 2 u0 u1 b0 b1) d first) old) :=
    (((tbeMoves_recordPair _ _ _ _ _ _ _ _).mono (by simp)).trans ((tbeMoves_stepDoubt _ d first).mono (by simp))).trans
      ((tbeMoves_stepLeaps _ old).mono (by simp))
  exact ⟨(hraise.mono (by simp [leapRegs])).trans hrest,
    hrest.ints 1 (by decide) (raise_set _ _ _ (by decide) (offRec_tbe (by decide)))⟩

theorem applyStep_shows (s : State) :
    stepPending (applyStep s) = false ∧
      (applyStep s).clk.p = (advPc s (BitVec.ofNat 64 (rd64 s pTBE rTBE_STEP_AT_LO rTBE_STEP_AT_HI))).clk.p ∧
      (applyStep s).clk.tOfs = s.clk.tOfs + (applyStep s).tb.lastStep ∧
      scaleGen (applyStep s) = (scaleGen s + 1) % 16 ∧
      rdN (applyStep s) pTBE rTBE_STEP_CNT = min (rdN s pTBE rTBE_STEP_CNT + 1) 0xFFFFFFFF ∧
      intRaw (applyStep s) pTBE 1 = true ∧
      (s.tb.stepAbs = true → timeSet (applyStep s) = true ∧ doubts (applyStep s) pTBE 0 = false) := by
  obtain ⟨u0, u1, b0, b1, d, first, old, heq⟩ := applyStep_eq s
  obtain ⟨p, hadv⟩ := advPc_eq s (BitVec.ofNat 64 (rd64 s pTBE rTBE_STEP_AT_LO rTBE_STEP_AT_HI))
  rw [heq, hadv]
  obtain ⟨hp, hofs, habs⟩ := stepTimed_shows { s with clk := { s.clk with p := p } }
  have hread : ∀ o, o < 0x1000 → o ≠ rTBE_STAT → o ≠ rDOUBT_RAW →
      rdA (stepTimed { s with clk := { s.clk with p := p } }) (pTBE.adr o) = rdA s (pTBE.adr o) :=
    fun o ho hstat hdoubt => rdA_stepTimed_ne { s with clk := { s.clk with p := p } } ho hstat hdoubt
  generalize stepTimed { s with clk := { s.clk with p := p } } = s2 at hp hofs habs hread ⊢
  obtain ⟨hshown, hpend, hscale, hcount⟩ := stepShown_shows s2
  obtain ⟨hends, hint⟩ := stepEnds_shows (stepShown s2) u0 u1 b0 b1 old d first
  refine ⟨?_, ?_, ?_, ?_, ?_, hint, fun h => ?_⟩
  · rw [stepPending, hends.flag (by decide) (by decide), ← stepPending, hpend]
  · rw [hends.clk, hshown.clk, hp]
  · rw [hends.clk, hshown.clk, hends.lastStep, hshown.lastStep, hofs]
  · rw [scaleGen, hends.get (by decide) (by decide), ← scaleGen, hscale, scaleGen,
      get_congr (hread _ (by decide) (by decide) (by decide)), scaleGen]
  · rw [hends.rdN (by decide) (by decide), hcount, rdN_congr (hread _ (by decide) (by decide) (by decide))]
  · rw [hends.timeSet, hends.timeUnset, hshown.timeSet, hshown.timeUnset]
    exact habs h

theorem exec_timescaleStep {s : State} (h : stepPending s = true) :
    exec .timescaleStep s =
      .next (refreshGates (mckStep (dscStep (applyStep s) (applyStep s).tb.lastStep) s.clk.tOfs)) := by
  simp only [exec, execTimescaleStep, h, if_true]

/-- The blocks beside the Timebase take a step. -/
theorem tbeMoves_stepTaken (s : State) (d old : Int) : TbeMoves [] s (refreshGates (mckStep (dscStep s d) old)) :=
  ((tbeMoves_dscStep s d).trans (tbeMoves_mckStep _ old)).trans (tbeMoves_refreshGates _)

/-! ### Requests (R60–R63) -/

/-- A field of STEP_CTRL below PEND takes no part in whether a request is refused. -/
theorem swStepRefused_put (s : State) (f : Fld) (v : Nat) (abs : Bool) (hoff : f.off = rTBE_STEP_CTRL)
    (hlo : f.lo + f.w ≤ 8) : swStepRefused (put s pTBE f v) abs = swStepRefused s abs := by
  have hne : ∀ p o, Pg.adr p o ≠ pTBE.adr rTBE_STEP_CTRL → rdA (put s pTBE f v) (p.adr o) = rdA s (p.adr o) :=
    fun p o h => rdA_put_ne _ _ _ _ (by rw [hoff]; exact h)
  have hpend : stepPending (put s pTBE f v) = stepPending s :=
    flag_put_apart s pTBE f fTBE_STEP_CTRL_PEND v hoff.symm (by decide) (.inr hlo)
  have htime : timeSet (put s pTBE f v) = timeSet s := flag_congr (hne _ _ (by decide))
  rw [swStepRefused, hpend, flag_congr (hne _ _ (by decide)), servoLetsStep, get_congr (hne _ _ (by decide)), htime,
    get_congr (hne _ _ (by decide)), ← servoLetsStep, ← swStepRefused]

theorem exec_stepRequest {s : State} {r : Requester} {v : Word} (hw : writable s r pTBE = true)
    (hgo : v.getLsbD 0 = true) :
    let abs := fTBE_STEP_CTRL_MODE.of v.toNat == 1
    ∃ u val, exec (.stepRequest r v) s =
        .next (if swStepRefused s abs then refuseStep u else acceptStep u 0 abs val) ∧
      stepPending u = stepPending s ∧ u.clk = s.clk ∧ u.tb = s.tb := by
  have hgo' : fTBE_STEP_CTRL_GO.of v.toNat ≠ 0 := by
    have hbit : v.toNat.testBit 0 = true := hgo
    simp only [Nat.testBit_zero, decide_eq_true_eq] at hbit
    simp [Fld.of, hbit]
  simp only [exec, execStepRequest, onWrite_writable hw, hgo', if_false]
  rw [swStepRefused_put _ fTBE_STEP_CTRL_SIGN _ _ rfl (by decide),
    swStepRefused_put _ fTBE_STEP_CTRL_MODE _ _ rfl (by decide)]
  refine ⟨_, _, rfl, ?_, by rw [put_clk, put_clk], by rw [put_tb, put_tb]⟩
  rw [stepPending, flag_put_apart _ _ fTBE_STEP_CTRL_SIGN fTBE_STEP_CTRL_PEND _ rfl (by decide) (by decide),
    flag_put_apart _ _ fTBE_STEP_CTRL_MODE fTBE_STEP_CTRL_PEND _ rfl (by decide) (by decide), stepPending]

/-- R62: S is a lane boundary at least 20 µs ahead. -/
theorem stepInstant_ahead (s : State) :
    s.clk.p.toNat + 20000 * 65536 ≤ stepInstant s ∧ stepInstant s % (10000 * 65536) = 0 := by
  simp only [stepInstant]
  omega

theorem acceptStepAt_shows (s : State) (who : Nat) (abs : Bool) (val : Int) (at' : Nat) :
    let t := acceptStepAt s who abs val at'
    stepPending t = true ∧ flag t pTBE fTBE_STEP_CTRL_REFUSED = false ∧ flag t pTBE fTBE_STAT_STEP_PEND = true ∧
      rd64 t pTBE rTBE_STEP_AT_LO rTBE_STEP_AT_HI = at' % 2 ^ 64 := by
  rw [acceptStepAt]
  generalize ({ s with tb := _ } : State) = s1
  have hpend : flag (putB (putB (putB s1 pTBE fTBE_STEP_CTRL_PEND true) pTBE fTBE_STEP_CTRL_REFUSED false) pTBE
      fTBE_STEP_CTRL_BY_DSC (who == 1)) pTBE fTBE_STEP_CTRL_PEND = true := by
    rw [flag_putB_apart _ _ fTBE_STEP_CTRL_BY_DSC fTBE_STEP_CTRL_PEND _ rfl (by decide) (by decide),
      flag_putB_apart _ _ fTBE_STEP_CTRL_REFUSED fTBE_STEP_CTRL_PEND _ rfl (by decide) (by decide),
      flag_putB_same _ _ _ _ (by decide) rfl]
  have hrefused : flag (putB (putB (putB s1 pTBE fTBE_STEP_CTRL_PEND true) pTBE fTBE_STEP_CTRL_REFUSED false) pTBE
      fTBE_STEP_CTRL_BY_DSC (who == 1)) pTBE fTBE_STEP_CTRL_REFUSED = false := by
    rw [flag_putB_apart _ _ fTBE_STEP_CTRL_BY_DSC fTBE_STEP_CTRL_REFUSED _ rfl (by decide) (by decide),
      flag_putB_same _ _ _ _ (by decide) rfl]
  generalize putB (putB (putB s1 pTBE fTBE_STEP_CTRL_PEND true) pTBE fTBE_STEP_CTRL_REFUSED false) pTBE
    fTBE_STEP_CTRL_BY_DSC (who == 1) = s2 at hpend hrefused ⊢
  have hstat := tbeMoves_putB_stat s2 fTBE_STAT_STEP_PEND true rfl (by decide)
  have hshown : flag (putB s2 pTBE fTBE_STAT_STEP_PEND true) pTBE fTBE_STAT_STEP_PEND = true :=
    flag_putB_same _ _ _ _ (by decide) rfl
  generalize putB s2 pTBE fTBE_STAT_STEP_PEND true = s3 at hstat hshown ⊢
  have hat := tbeMoves_wr64 s3 rTBE_STEP_AT_LO rTBE_STEP_AT_HI at' (by decide) (by decide)
  have hread := rd64_wr64_same s3 pTBE (lo := rTBE_STEP_AT_LO) (hi := rTBE_STEP_AT_HI) at' (by decide)
  generalize wr64 s3 pTBE rTBE_STEP_AT_LO rTBE_STEP_AT_HI at' = s4 at hat hread ⊢
  have hsent : TbeMoves [] s4 (stepRecord (sendStep s4 abs val at')) :=
    (tbeMoves_sendStep s4 abs val at').trans (tbeMoves_record _ _ _ _ _ _)
  refine ⟨?_, ?_, ?_, ?_⟩
  · rw [stepPending, hsent.flag (by decide) (by decide), hat.flag (by decide) (by decide),
      hstat.flag (by decide) (by decide), hpend]
  · rw [hsent.flag (by decide) (by decide), hat.flag (by decide) (by decide), hstat.flag (by decide) (by decide),
      hrefused]
  · rw [hsent.flag (by decide) (by decide), hat.flag (by decide) (by decide), hshown]
  · rw [rd64, hsent.rdN (by decide) (by decide), hsent.rdN (by decide) (by decide), ← rd64, hread]

theorem refuseStep_shows (s : State) :
    flag (refuseStep s) pTBE fTBE_STEP_CTRL_REFUSED = true ∧ intRaw (refuseStep s) pTBE 2 = true ∧
      stepPending (refuseStep s) = stepPending s ∧ (refuseStep s).clk = s.clk ∧ (refuseStep s).tb = s.tb := by
  have hraise := tbeMoves_raise (putB s pTBE fTBE_STEP_CTRL_REFUSED true) 2
  have hrecord : TbeMoves [] (raise (putB s pTBE fTBE_STEP_CTRL_REFUSED true) pTBE 2) (refuseStep s) :=
    tbeMoves_record _ _ _ _ _ _
  refine ⟨?_, hrecord.ints 2 (by decide) (raise_set _ _ _ (by decide) (offRec_tbe (by decide))), ?_,
    by rw [hrecord.clk, hraise.clk, putB_clk], by rw [refuseStep, stepRecord, record_tb, raise_tb, putB_tb]⟩
  · rw [hrecord.flag (by decide) (by decide), hraise.flag (by decide) (by decide),
      flag_putB_same _ _ _ _ (by decide) rfl]
  · rw [stepPending, hrecord.flag (by decide) (by decide), hraise.flag (by decide) (by decide),
      flag_putB_apart _ _ fTBE_STEP_CTRL_REFUSED fTBE_STEP_CTRL_PEND _ rfl (by decide) (by decide), stepPending]

/-! ### The TAI second (R49) -/

/-- What follows the anchor at a TAI second. -/
theorem secondEnds_shows (s : State) :
    let t := [0, 1, 2, 3].foldl trimsTake (refreshSmear (refreshLeapDay (refreshEra (raise s pTBE 0))))
    TbeMoves [rTBE_NTP_ERA, rTBE_STAT, rTBE_SMEAR_NOW, rINT_RAW] s t ∧ intRaw t pTBE 0 = true := by
  have hraise := tbeMoves_raise s 0
  have htrims := tbeMoves_foldl tbeMoves_trimsTake [0, 1, 2, 3]
    (refreshSmear (refreshLeapDay (refreshEra (raise s pTBE 0))))
  have hrest : TbeMoves [rTBE_NTP_ERA, rTBE_STAT, rTBE_SMEAR_NOW, rINT_RAW] (raise s pTBE 0)
      ([0, 1, 2, 3].foldl trimsTake (refreshSmear (refreshLeapDay (refreshEra (raise s pTBE 0))))) :=
    ((((tbeMoves_refreshEra _).mono (by simp)).trans ((tbeMoves_refreshLeapDay _).mono (by simp))).trans
      ((tbeMoves_refreshSmear _).mono (by simp))).trans (htrims.mono (by simp))
  exact ⟨(hraise.mono (by simp)).trans hrest,
    hrest.ints 0 (by decide) (raise_set _ _ _ (by decide) (offRec_tbe (by decide)))⟩

theorem taiSecond_shows (s : State) :
    Answers (exec .taiSecond s) fun t => anchorPc t = pcNow t ∧ scaleGen t = scaleGen s ∧ intRaw t pTBE 0 = true := by
  obtain ⟨c, hadv⟩ := advT96_eq s (nextSecond s)
  simp only [exec, execTaiSecond, tickSecond, hadv, answers_next]
  have hgen : scaleGen { s with clk := c } = scaleGen s := rfl
  generalize ({ s with clk := c } : State) = s1 at hgen ⊢
  have hanchor := tbeMoves_writeAnchor s1
  obtain ⟨hends, hint⟩ := secondEnds_shows (writeAnchor s1)
  refine ⟨?_, ?_, hint⟩
  · rw [anchorPc, rd64, hends.rdN (by decide) (by decide), hends.rdN (by decide) (by decide), ← rd64, ← anchorPc,
      anchorPc_writeAnchor, pcNow, pcNow, hends.clk, hanchor.clk]
  · rw [scaleGen, hends.get (by decide) (by decide), ← scaleGen, scaleGen_writeAnchor, hgen]

/-- Settles O13: a request ends at the registers of STEP_CTRL and STEP_AT, a step at what it moves of the Timebase, which
the other blocks that take it leave. -/
theorem timescaleSteps : Obligations.TimescaleSteps := by
  refine ⟨fun r v s hw hgo hidle hen hservo hmode hns => ?accepted, fun r v s hw hgo hwhy => ?refused,
    fun s hpend => ?step, fun s hdoubt => ?stepEnd, taiSecond_shows⟩
  case accepted =>
    have hok : swStepRefused s (fTBE_STEP_CTRL_MODE.of v.toNat == 1) = false := by
      rcases hmode with hmode | htime
      · simp [swStepRefused, hidle, hen, hservo, hns, hmode]
      · simp [swStepRefused, hidle, hen, hservo, hns, htime]
    obtain ⟨u, val, hexec, _, hclk, _⟩ := exec_stepRequest hw hgo
    have hinstant : stepInstant u = stepInstant s := by rw [stepInstant, hclk, stepInstant]
    rw [hok, if_neg Bool.false_ne_true, acceptStep, hinstant] at hexec
    obtain ⟨hpend, hrefused, hstat, hat⟩ :=
      acceptStepAt_shows u 0 (fTBE_STEP_CTRL_MODE.of v.toNat == 1) val (stepInstant s)
    obtain ⟨hahead, hboundary⟩ := stepInstant_ahead s
    exact ⟨_, hexec, hpend, hrefused, hstat, hat, hahead, hboundary,
      commandFrames _ _ _ hexec .clk (by simp [mayChange])⟩
  case refused =>
    have hbad : swStepRefused s (fTBE_STEP_CTRL_MODE.of v.toNat == 1) = true := by
      rcases hwhy with hpend | hen | hservo | ⟨hmode, htime⟩
      · simp [swStepRefused, hpend]
      · simp [swStepRefused, hen]
      · simp [swStepRefused, hservo]
      · simp [swStepRefused, hmode, htime]
    obtain ⟨u, val, hexec, hpend, hclk, htb⟩ := exec_stepRequest hw hgo
    obtain ⟨hflag, hint, hpend', hclk', htb'⟩ := refuseStep_shows u
    rw [hexec, hbad, if_pos rfl, answers_next]
    exact ⟨hflag, hint, hpend'.trans hpend, hclk'.trans hclk, htb'.trans htb⟩
  case step =>
    have htaken := tbeMoves_stepTaken (applyStep s) (applyStep s).tb.lastStep s.clk.tOfs
    obtain ⟨hended, hp, hofs, hscale, hcount, hint, habs⟩ := applyStep_shows s
    rw [exec_timescaleStep hpend, answers_next]
    refine ⟨?_, ?_, ?_, ?_, ?_, htaken.ints 1 (by decide) hint, fun h => ?_⟩
    · rw [stepPending, htaken.flag (by decide) (by decide), ← stepPending, hended]
    · rw [htaken.clk, hp]
    · rw [htaken.clk, htaken.lastStep, hofs]
    · rw [scaleGen, htaken.get (by decide) (by decide), ← scaleGen, hscale]
    · rw [htaken.rdN (by decide) (by decide), hcount]
    · rw [htaken.timeSet, htaken.timeUnset]
      exact habs h
  case stepEnd =>
    simp only [exec, execTbeStepEnd, hdoubt, if_true, answers_next]
    refine ⟨doubts_doubt_same _ _ _ (by decide), fun a ha hrec => ?_⟩
    rw [otherRegs_doubt _ _ _ _ a ha hrec, advMono, advP]
    split
    · rw [rdA_mk]
    · rfl

end Sys2Proof.Machine
end

section
/-! The reference slots (R69, R70, R75, R76, R96, R114): the samples that wait for the next update, a slot that is lost,
and the bits of a SLOT_CMD write. -/

namespace Sys2Proof.Machine

/-! ### A slot after a change -/

theorem slot_updSlot_same {s : State} {k : Nat} (h : k < s.dsc.slots.length) (f : Slot → Slot) :
    slot (updSlot s k f) k = f (slot s k) := ix_upd_same _ _ _ _ h

theorem slot_updSlot_ne (s : State) {j k : Nat} (h : j ≠ k) (f : Slot → Slot) : slot (updSlot s j f) k = slot s k :=
  ix_upd_ne _ _ _ _ _ h

@[simp] theorem updSlot_regs (s : State) (k : Nat) (f : Slot → Slot) : (updSlot s k f).regs = s.regs := rfl

@[simp] theorem updSlot_count (s : State) (k : Nat) (f : Slot → Slot) :
    (updSlot s k f).dsc.slots.length = s.dsc.slots.length := List.length_modify f s.dsc.slots k

@[simp] theorem rdA_updSlot (s : State) (k : Nat) (f : Slot → Slot) (a : Nat) : rdA (updSlot s k f) a = rdA s a := rfl

/-- R72: a valid sample counts for loss and waits for the next update. -/
theorem slot_slotSample {s : State} {k : Nat} (h : k < s.dsc.slots.length) (x : Int) (d : Option Int) :
    (slot (slotSample s k x d) k).alive = some (mono s) ∧
      (slot (slotSample s k x d) k).fresh = (slot s k).fresh ++ [(x, d)] := by
  rw [slotSample, slot_updSlot_same h]
  exact ⟨rfl, rfl⟩

/-! ### PTP samples (R23, R70, R72, R268) -/

/-- A PTP sample in time joins its slot, whose accuracy is the master's. -/
def takePtp (s : State) (k : Nat) (x d : Int) (acc : Option Nat) : State :=
  updSlot (slotSample s k (x + slotDelay s k) (some d)) k fun v => { v with acc := acc }

theorem takePtp_shows {s : State} (hshaped : Shaped s) (k : Fin 2) (x d : Int) (acc : Option Nat) :
    let t := takePtp s (3 + k) x d acc
    t.regs = s.regs ∧ (slot t (3 + k)).acc = acc ∧ (slot t (3 + k)).alive = some (mono s) ∧
      (slot t (3 + k)).fresh = (slot s (3 + k)).fresh ++ [(x + slotDelay s (3 + k), some d)] := by
  have hk : 3 + k.val < s.dsc.slots.length := by rw [hshaped.slots]; omega
  have hsampled : 3 + k.val < (slotSample s (3 + k) (x + slotDelay s (3 + k)) (some d)).dsc.slots.length := by
    rw [slotSample, updSlot_count]; exact hk
  obtain ⟨halive, hfresh⟩ := slot_slotSample hk (x + slotDelay s (3 + k)) (some d)
  intro t
  have hslot : slot t (3 + k) = _ := slot_updSlot_same hsampled fun v => { v with acc := acc }
  rw [hslot]
  exact ⟨rfl, rfl, halive, hfresh⟩

theorem exec_ptpSampleRx_e2e {k : Fin 2} {s : State} (h : taking s (3 + k) = true) (t1 t4 : Int) (t2 t3 : PC64)
    (acc : Option Nat) :
    exec (.ptpSampleRx k (.e2e t1 t2 t3 t4) acc) s =
      if t4 + 10000000 * 65536 < (t96 s : Int) then
        .next (bumpF s pREF (if k = 0 then fREF_LATE_CNT_PTPA else fREF_LATE_CNT_PTPB))
      else
        .next (takePtp s (3 + k) (-((((t96OfPc s t2 : Int) - t1) - (t4 - (t96OfPc s t3 : Int))) / 2))
          ((((t96OfPc s t2 : Int) - t1) + (t4 - (t96OfPc s t3 : Int))) / 2) acc) := by
  simp only [exec, execPtpSampleRx, h, Bool.not_true, Bool.false_eq_true, if_false]
  rfl

theorem exec_ptpSampleRx_p2p {k : Fin 2} {s : State} (h : taking s (3 + k) = true) (t1 d : Int) (t2 : PC64)
    (acc : Option Nat) :
    exec (.ptpSampleRx k (.p2p t1 t2 d) acc) s =
      if (t96OfPc s t2 : Int) + 10000000 * 65536 < (t96 s : Int) then
        .next (bumpF s pREF (if k = 0 then fREF_LATE_CNT_PTPA else fREF_LATE_CNT_PTPB))
      else .next (takePtp s (3 + k) (t1 + d - (t96OfPc s t2 : Int)) d acc) := by
  simp only [exec, execPtpSampleRx, h, Bool.not_true, Bool.false_eq_true, if_false]
  rfl

/-- A counter field of 16 bits that counts one more. -/
theorem get_bumpF_same {s : State} {p : Pg} {f : Fld} (hw : f.w = 16) (hlo : f.lo ≤ 16) :
    get (bumpF s p f) p f = min (get s p f + 1) 0xFFFF := by
  rw [bumpF, get_put_same _ _ _ _ (by omega), hw]
  omega

/-- The count of the samples of PTPA or PTPB that come late. -/
theorem late_counts (s : State) (k : Fin 2) :
    let f := if k = 0 then fREF_LATE_CNT_PTPA else fREF_LATE_CNT_PTPB
    get (bumpF s pREF f) pREF f = min (get s pREF f + 1) 0xFFFF ∧
      OtherRegs s (bumpF s pREF f) [pREF.adr rREF_LATE_CNT] := by
  obtain rfl | rfl : k = 0 ∨ k = 1 := by omega
  · exact ⟨get_bumpF_same rfl (by decide), otherRegs_put _ _ _ _⟩
  · exact ⟨get_bumpF_same rfl (by decide), otherRegs_put _ _ _ _⟩

/-! ### Edges and counts of an EXT input (R70, R114) -/

/-- The clock that reaches an instant is no part of what an edge is judged by. -/
theorem exec_extPpsEdge_first {input : Fin 2} {s : State} (htake : taking s (input + 1) = true)
    (hedge : (slot s (input + 1)).edge = none) (at' : PC64) :
    exec (.extPpsEdge input at' (extPol s input)) s =
      .next (updSlot (advPc s at') (input + 1) fun v =>
        { v with edge := some (BitVec.ofNat 64 (at'.toNat / 64 * 64)), alive := some (mono (advPc s at')) }) := by
  obtain ⟨p, hadv⟩ := advPc_eq s at'
  have htake' : taking (advPc s at') (input + 1) = true := by rw [hadv]; exact htake
  have hpol : extPol (advPc s at') input = extPol s input := by rw [hadv]; rfl
  have hedge' : (slot (advPc s at') (input + 1)).edge = none := by rw [hadv]; exact hedge
  simp only [exec, execExtPpsEdge, htake', hpol, hedge', Bool.not_true, bne_self_eq_false, Bool.or_self,
    Bool.false_eq_true, if_false]

theorem exec_extFreqCount_kept {input : Fin 2} {ppt : Int} {s : State} (htake : taking s (input + 1) = true)
    (hsel : extFreqSel s input ≠ 0) (hppt : ppt.natAbs ≤ 10000000) :
    exec (.extFreqCount input ppt) s = .next (updSlot s (input + 1) fun v => { v with count := some ppt }) := by
  simp only [exec, execExtFreqCount, htake, bne_iff_ne.mpr hsel, decide_eq_true hppt, Bool.and_self, if_true]

/-! ### Loss (R69, R76) -/

/-- The clock does not go back to an instant that it has passed. -/
theorem advMono_past {s : State} {ns : Nat} (h : ns ≤ mono s) : advMono s ns = s := by
  rw [mono] at h
  rw [advMono, advP, if_neg (by omega)]

theorem exec_slotLost {k : Fin 6} {s : State} (hpage : pageEn s pDSC = true) (hen : slotEn s k = true)
    (hstate : slotState s k ≠ 1) (hlost : slotLost s k = true) :
    exec (.slotLost k) s = .next (loseSlot s k) := by
  have hstay : (if (slot s k).gone then s
      else advMono s ((slot s k).alive.getD (slot s k).since + lossNs k)) = s := by
    simp only [slotLost, Bool.or_eq_true] at hlost
    rcases hlost with hgone | hpast
    · rw [hgone, if_pos rfl]
    · rw [advMono_past (of_decide_eq_true hpast), ite_self]
  simp only [exec, execSlotLost, hpage, hen, bne_iff_ne.mpr hstate, Bool.and_self, if_true, hstay, hlost]

theorem setSlot_lost {s : State} {k : Nat} (hk : k < 6) (hen : slotEn s k = true) (hstate : slotState s k ≠ 1) :
    let t := setSlot s k 1
    slotState t k = 1 ∧ doubts t pREF k = true ∧ intRaw t pREF k = true ∧
      OtherRegs s t [pREF.adr (rREF_SLOT_STAT k), pREF.adr rINT_RAW, pREF.adr rDOUBT_RAW] ∧ t.clk = s.clk := by
  have hrec : ∀ o, o < 0x1000 → offRec (pREF.adr o) = true :=
    fun o ho => offRec_of_page (by simp only [Pg.adr]; omega)
  have hstat : offRec (pREF.adr (rREF_SLOT_STAT k)) = true := hrec _ (by simp only [rREF_SLOT_STAT]; omega)
  have hapart : ∀ o, o < 0x8C → pREF.adr (rREF_SLOT_STAT k) ≠ pREF.adr o :=
    fun o ho => pREF.adr_ne (by simp only [rREF_SLOT_STAT]; omega)
  simp only [setSlot, hstate, if_false, hen, beq_self_eq_true, Bool.and_self]
  refine ⟨?_, doubts_doubt_same _ _ _ (by omega), ?_, ?_, by rw [doubt_clk, raise_clk, put_clk]⟩
  · rw [slotState, get_congr (rdA_doubt_ne _ _ _ _ hstat (hapart _ (by decide))),
      get_congr (rdA_raise_ne _ _ _ hstat (hapart _ (by decide))), get_put_same _ _ _ _ (show 0 + 3 ≤ 32 by decide)]
    rfl
  · rw [intRaw, rdN_congr (rdA_doubt_ne _ _ _ _ (hrec _ (by decide)) (by decide))]
    exact raise_set _ _ _ (by omega) (hrec _ (by decide))
  · exact (((otherRegs_put s pREF (fREF_SLOT_STAT_STATE k) 1).mono (by simp)).trans
      ((otherRegs_raise _ pREF k).mono (by simp))).trans ((otherRegs_doubt _ pREF k true).mono (by simp))

/-! ### The bits of SLOT_CMD (R75, R96) -/

/-- What a write of SLOT_CMD leaves on one slot. -/
def slotBits (s : State) (v k : Nat) : State :=
  let rel := bitOf (fREF_SLOT_CMD_RELEASE.of v) k
  let clr := bitOf (fREF_SLOT_CMD_BIAS_CLR.of v) k
  if slotState s k = 6 then
    (if rel then updSlot s k fun x => { x with rel := if clr then 2 else 1 } else s)
  else if clr then updSlot s k fun x => { x with bclr := true }
  else s

theorem slotCmd_eq (s : State) (v : Nat) : slotCmd s v = (List.range 6).foldl (fun s k => slotBits s v k) s := rfl

/-- The bits of one slot change a slot, which is no other one, and no register. -/
theorem slotBits_leaves (s : State) (v j : Nat) :
    (slotBits s v j).regs = s.regs ∧ (slotBits s v j).dsc.slots.length = s.dsc.slots.length ∧
      ∀ k, j ≠ k → slot (slotBits s v j) k = slot s k := by
  have hupd : ∀ f, (updSlot s j f).regs = s.regs ∧ (updSlot s j f).dsc.slots.length = s.dsc.slots.length ∧
      ∀ k, j ≠ k → slot (updSlot s j f) k = slot s k := fun f =>
    ⟨rfl, updSlot_count s j f, fun k hk => slot_updSlot_ne s hk f⟩
  rw [slotBits]
  split
  · split
    · exact hupd _
    · exact ⟨rfl, rfl, fun _ _ => rfl⟩
  · split
    · exact hupd _
    · exact ⟨rfl, rfl, fun _ _ => rfl⟩

theorem slotBits_foldl_leaves (v : Nat) (l : List Nat) (s : State) :
    let t := l.foldl (fun s k => slotBits s v k) s
    t.regs = s.regs ∧ t.dsc.slots.length = s.dsc.slots.length ∧ ∀ k, k ∉ l → slot t k = slot s k := by
  induction l generalizing s with
  | nil => exact ⟨rfl, rfl, fun _ _ => rfl⟩
  | cons j l ih =>
    obtain ⟨hregs, hcount, hother⟩ := slotBits_leaves s v j
    obtain ⟨hregs', hcount', hother'⟩ := ih (slotBits s v j)
    refine ⟨hregs'.trans hregs, hcount'.trans hcount, fun k hk => ?_⟩
    simp only [List.mem_cons, not_or] at hk
    exact (hother' k hk.2).trans (hother k (Ne.symm hk.1))

theorem slotState_of_regs {s t : State} (h : t.regs = s.regs) (k : Nat) : slotState t k = slotState s k :=
  get_congr (by rw [rdA, h, rdA])

/-- Each slot takes its own bits of a write, at the state that it had at the write. -/
theorem slotCmd_slot {s : State} (hshaped : Shaped s) (v : Nat) {k : Nat} (hk : k < 6) :
    ∃ u, slot u k = slot s k ∧ u.dsc.slots.length = 6 ∧ slotState u k = slotState s k ∧
      slot (slotCmd s v) k = slot (slotBits u v k) k := by
  obtain ⟨l, r, hsplit⟩ := List.append_of_mem (List.mem_range.mpr hk)
  have hnodup : (l ++ k :: r).Nodup := hsplit ▸ List.nodup_range
  rw [List.nodup_middle, List.nodup_cons, List.mem_append, not_or] at hnodup
  obtain ⟨⟨hl, hr⟩, _⟩ := hnodup
  obtain ⟨hregs, hcount, hbefore⟩ := slotBits_foldl_leaves v l s
  refine ⟨l.foldl (fun s k => slotBits s v k) s, hbefore k hl, hcount.trans hshaped.slots,
    slotState_of_regs hregs k, ?_⟩
  rw [slotCmd_eq, hsplit, List.foldl_append, List.foldl_cons]
  exact (slotBits_foldl_leaves v r _).2.2 k hr

theorem slotCmd_regs (s : State) (v : Nat) : (slotCmd s v).regs = s.regs :=
  (slotBits_foldl_leaves v (List.range 6) s).1

theorem slotCmd_release {s : State} (hshaped : Shaped s) {v k : Nat} (hk : k < 6) (hheld : slotState s k = 6)
    (hrel : bitOf (fREF_SLOT_CMD_RELEASE.of v) k = true) :
    (slot (slotCmd s v) k).rel = if bitOf (fREF_SLOT_CMD_BIAS_CLR.of v) k then 2 else 1 := by
  obtain ⟨u, _, hcount, hstate, hslot⟩ := slotCmd_slot hshaped v hk
  rw [hslot, slotBits, hstate, if_pos hheld, if_pos hrel, slot_updSlot_same (by omega)]

theorem slotCmd_biasClr {s : State} (hshaped : Shaped s) {v k : Nat} (hk : k < 6) (hfree : slotState s k ≠ 6)
    (hclr : bitOf (fREF_SLOT_CMD_BIAS_CLR.of v) k = true) : (slot (slotCmd s v) k).bclr = true := by
  obtain ⟨u, _, hcount, hstate, hslot⟩ := slotCmd_slot hshaped v hk
  rw [hslot, slotBits, hstate, if_neg hfree, if_pos hclr, slot_updSlot_same (by omega)]

theorem exec_slotRelease {r : Requester} {s : State} (h : writable s r pREF = true) (v : Word) :
    exec (.slotRelease r v) s = .next (slotCmd s v.toNat) := by
  simp only [exec, execSlotRelease, onWrite_writable h]

theorem exec_biasClr {r : Requester} {s : State} (h : writable s r pREF = true) (v : Word) :
    exec (.biasClr r v) s = .next (slotCmd s v.toNat) := by
  simp only [exec, execBiasClr, onWrite_writable h]

/-! ### The rows -/

/-- Settles O21: a sample, an edge or a count changes its slot alone; a slot that is lost is one whose loss time the
clock has passed already; each slot takes its own bits of SLOT_CMD. -/
theorem referenceSlots : Obligations.ReferenceSlots := by
  refine ⟨fun k t1 t4 t2 t3 acc s htake hlate => ?late, fun k t1 t4 t2 t3 acc s hshaped htake hintime => ?e2e,
    fun k t1 d t2 acc s hshaped htake hintime => ?p2p, fun input at' falling s hshaped htake hpol hedge => ?edge,
    fun input ppt s hshaped htake hsel hppt => ?count, fun k s hpage hen hstate hlost => ?lost,
    fun r v s hshaped hw => ?release, fun r v s hshaped hw => ?biasClr⟩
  case late =>
    rw [exec_ptpSampleRx_e2e htake, if_pos hlate, answers_next]
    exact ⟨bumpF_dsc _ _ _, late_counts s k⟩
  case e2e =>
    rw [exec_ptpSampleRx_e2e htake, if_neg (not_lt.mpr hintime), answers_next]
    exact takePtp_shows hshaped k _ _ acc
  case p2p =>
    rw [exec_ptpSampleRx_p2p htake, if_neg (not_lt.mpr hintime), answers_next]
    obtain ⟨hregs, _, _, hfresh⟩ := takePtp_shows hshaped k (t1 + d - (t96OfPc s t2 : Int)) d acc
    exact ⟨hregs, hfresh⟩
  case edge =>
    obtain ⟨p, hadv⟩ := advPc_eq s at'
    have hk : input.val + 1 < (advPc s at').dsc.slots.length := by rw [hadv, hshaped.slots]; omega
    rw [← hpol, exec_extPpsEdge_first htake hedge, answers_next, slot_updSlot_same hk]
    exact ⟨by rw [updSlot_regs, hadv], rfl, by rw [hadv]; rfl, rfl⟩
  case count =>
    rw [exec_extFreqCount_kept htake hsel hppt, answers_next, slot_updSlot_same (by rw [hshaped.slots]; omega)]
    exact ⟨rfl, rfl, rfl⟩
  case lost =>
    rw [exec_slotLost hpage hen hstate hlost, answers_next, loseSlot]
    exact setSlot_lost (s := updSlot s k _) k.2 hen hstate
  case release =>
    rw [exec_slotRelease hw, answers_next]
    exact ⟨slotCmd_regs s _, fun k hheld hrel => slotCmd_release hshaped k.2 hheld hrel⟩
  case biasClr =>
    rw [exec_biasClr hw, answers_next]
    exact ⟨slotCmd_regs s _, fun k hfree hclr => slotCmd_biasClr hshaped k.2 hfree hclr⟩

end Sys2Proof.Machine
end

section
/-! What the steps of a servo update leave (R77, R83–R90): the register of the engine's requests and that of its
state. -/

namespace Sys2Proof.Machine

/-! ### The register of the requests and that of the state -/

/-- DSC.CTRL or DSC.STAT. -/
inductive ServoReg
  | ctrl
  | stat

/-- The address of one of the two registers. -/
def ServoReg.adr : ServoReg → Nat
  | .ctrl => pDSC.adr rDSC_CTRL
  | .stat => pDSC.adr rDSC_STAT

/-- A register of the Timebase die is neither of the two. -/
def offServo (p : Pg) (o : Nat) : Bool :=
  p.die == 1 && decide (o < 0x1000) && (p.page != 0x20 || (o != rDSC_CTRL && o != rDSC_STAT))

theorem ServoReg.adr_ne (c : ServoReg) {p : Pg} {o : Nat} (h : offServo p o = true) : c.adr ≠ p.adr o := by
  simp only [offServo, Bool.and_eq_true, Bool.or_eq_true, beq_iff_eq, bne_iff_ne, decide_eq_true_eq] at h
  obtain ⟨⟨hdie, ho⟩, hpage⟩ := h
  cases c <;> simp only [ServoReg.adr, Pg.adr, hdie, rDSC_CTRL, rDSC_STAT] at hpage ⊢ <;> omega

theorem ServoReg.adr_ne_ref (c : ServoReg) (o : Nat) : c.adr ≠ pREF.adr o := by
  cases c <;> simp only [ServoReg.adr, Pg.adr, rDSC_CTRL, rDSC_STAT] <;> omega

theorem ServoReg.offRec_adr (c : ServoReg) : offRec c.adr = true := by cases c <;> rfl

section

variable (c : ServoReg)

/-! ### Registers, records, interrupt bits and doubts -/

@[simp] theorem servo_wrN (s : State) {p : Pg} {o : Nat} (v : Nat) (h : offServo p o = true) :
    rdA (wrN s p o v) c.adr = rdA s c.adr := rdA_wrN_ne s p o v (c.adr_ne h)

@[simp] theorem servo_put (s : State) {p : Pg} {f : Fld} (v : Nat) (h : offServo p f.off = true) :
    rdA (put s p f v) c.adr = rdA s c.adr := servo_wrN c s _ h

@[simp] theorem servo_putB (s : State) {p : Pg} {f : Fld} (b : Bool) (h : offServo p f.off = true) :
    rdA (putB s p f b) c.adr = rdA s c.adr := servo_put c s _ h

@[simp] theorem servo_bump (s : State) {p : Pg} {o : Nat} (h : offServo p o = true) :
    rdA (bump s p o) c.adr = rdA s c.adr := servo_wrN c s _ h

@[simp] theorem servo_wr64 (s : State) {p : Pg} {lo hi : Nat} (v : Nat) (hlo : offServo p lo = true)
    (hhi : offServo p hi = true) : rdA (wr64 s p lo hi v) c.adr = rdA s c.adr := by
  rw [wr64, servo_wrN c _ _ hhi, servo_wrN c _ _ hlo]

@[simp] theorem servo_put_ref (s : State) (f : Fld) (v : Nat) : rdA (put s pREF f v) c.adr = rdA s c.adr :=
  rdA_put_ne s pREF f v (c.adr_ne_ref _)

@[simp] theorem servo_putB_ref (s : State) (f : Fld) (b : Bool) : rdA (putB s pREF f b) c.adr = rdA s c.adr :=
  servo_put_ref c s f _

@[simp] theorem servo_record (s : State) (p : Pg) (code sev a0 a1 : Nat) :
    rdA (record s p code sev a0 a1) c.adr = rdA s c.adr := rdA_record _ _ _ _ _ _ c.offRec_adr

@[simp] theorem servo_raise (s : State) {p : Pg} (bit : Nat) (h : offServo p rINT_RAW = true) :
    rdA (raise s p bit) c.adr = rdA s c.adr := rdA_raise_ne s p bit c.offRec_adr (c.adr_ne h)

@[simp] theorem servo_raiseIf (s : State) (b : Bool) {p : Pg} (bit : Nat) (h : offServo p rINT_RAW = true) :
    rdA (raiseIf s b p bit) c.adr = rdA s c.adr := rdA_raiseIf_ne s b p bit c.offRec_adr (c.adr_ne h)

@[simp] theorem servo_doubt (s : State) {p : Pg} (bit : Nat) (b : Bool) (h : offServo p rDOUBT_RAW = true) :
    rdA (doubt s p bit b) c.adr = rdA s c.adr := rdA_doubt_ne s p bit b c.offRec_adr (c.adr_ne h)

/-! ### Steps of the timescale that the engine asks for (R62, R86, R407) -/

@[simp] theorem servo_sendStep (s : State) (abs : Bool) (val : Int) (at' : Nat) :
    rdA (sendStep s abs val at') c.adr = rdA s c.adr :=
  rdA_foldl (fun k _ s => by simp only [sendAsk, rdA_ite, rdA_updLink, ite_self]) s

@[simp] theorem servo_requestStep (s : State) (who : Nat) (abs : Bool) (val : Int) :
    rdA (requestStep s who abs val) c.adr = rdA s c.adr := by
  simp (disch := decide) [requestStep, refuseStep, acceptStep, acceptStepAt, stepRecord, rdA_ite]

@[simp] theorem servo_askStep (s : State) (w : StepWant) (amt : Int) :
    rdA (askStep s w amt) c.adr = rdA s c.adr := by
  simp (disch := decide) [askStep, rdA_ite]

@[simp] theorem servo_tryStep (s : State) (w : StepWant) (q : Nat) : rdA (tryStep s w q) c.adr = rdA s c.adr := by
  cases w <;> simp [tryStep, rdA_ite]

/-! ### Samples and slots (R72, R75, R93–R96) -/

@[simp] theorem servo_setSlot (s : State) (k st : Nat) : rdA (setSlot s k st) c.adr = rdA s c.adr := by
  simp (disch := decide) [setSlot, rdA_ite]

@[simp] theorem servo_loseSlot (s : State) (k : Nat) : rdA (loseSlot s k) c.adr = rdA s c.adr := by
  rw [loseSlot, servo_setSlot, rdA_updSlot]

@[simp] theorem servo_estimate (s : State) (k : Nat) : rdA (estimate s k) c.adr = rdA s c.adr := by
  simp [estimate]

@[simp] theorem servo_enterQuarantine (s : State) (k : Nat) : rdA (enterQuarantine s k) c.adr = rdA s c.adr := by
  simp (disch := decide) [enterQuarantine, rdA_ite]

@[simp] theorem servo_absorbPtp (s : State) (k : Nat) (x d : Int) :
    rdA (absorbPtp s k x d).1 c.adr = rdA s c.adr := by
  simp only [absorbPtp]
  split
  · split
    · simp
    · simp
  · simp [countOutliers, rdA_ite]

@[simp] theorem servo_absorb (s : State) (k : Nat) : rdA (absorb s k) c.adr = rdA s c.adr := by
  simp only [absorb, rdA_ite, servo_estimate, rdA_updSlot, ite_self]
  split
  · rfl
  · refine kept_foldl_fst (P := fun u => rdA u c.adr = rdA s c.adr) _ _ (s, false) (fun a e h => ?_) rfl
    split
    · exact h
    · exact (servo_absorbPtp c a.1 k e.1 _).trans h

@[simp] theorem servo_takeIn (s : State) (k : Nat) : rdA (takeIn s k) c.adr = rdA s c.adr := by
  simp (disch := decide) [takeIn, rdA_ite]

@[simp] theorem servo_endQuarantine (s : State) (k : Nat) (before : Int) (sBefore : Nat) (unc0 : Option Nat) :
    rdA (endQuarantine s k before sBefore unc0) c.adr = rdA s c.adr := by
  simp (disch := decide) [endQuarantine, rdA_ite]

@[simp] theorem servo_quarantine (s : State) (k t : Nat) (before : Int) (sBefore : Nat) (unc0 : Option Nat) :
    rdA (quarantine s k t before sBefore unc0) c.adr = rdA s c.adr := by
  simp [quarantine, rdA_ite]

@[simp] theorem servo_qualify (s : State) (k : Nat) : rdA (qualify s k) c.adr = rdA s c.adr := by
  simp [qualify, rdA_ite]

@[simp] theorem servo_applyBiasClr (s : State) (k : Nat) : rdA (applyBiasClr s k) c.adr = rdA s c.adr := by
  simp [applyBiasClr, rdA_ite]

@[simp] theorem servo_updateSlot (s : State) (k : Nat) : rdA (updateSlot s k) c.adr = rdA s c.adr := by
  simp only [updateSlot]
  split
  · simp
  · split
    · simp
    · split
      · simp
      · split
        · simp
        · simp [releaseSlot, rdA_ite]

/-! ### The vote, the hand-over and the weights (R79, R80, R87) -/

@[simp] theorem servo_tallyVote (s : State) (p : Nat) (act d : List Nat) :
    rdA (tallyVote s p act d) c.adr = rdA s c.adr := by
  have hcleared : ∀ u, rdA (act.foldl (fun s k => updSlot s k fun v => { v with dis := 0 }) u) c.adr = rdA u c.adr :=
    fun u => rdA_foldl (fun k _ s => rdA_updSlot s k _ _) u
  have hvoted : ∀ u, rdA (d.foldl (fun s k => setSlot (updSlot s k fun v => { v with voted := true }) k 5) u) c.adr =
      rdA u c.adr :=
    fun u => rdA_foldl (fun k _ s => by rw [servo_setSlot, rdA_updSlot]) u
  simp only [tallyVote, rdA_ite, rdA_updServo, servo_setSlot, rdA_updSlot, hvoted, hcleared, ite_self]

@[simp] theorem servo_vote (s : State) (p : Nat) : rdA (vote s p) c.adr = rdA s c.adr := by
  have hjudged : ∀ b u, rdA ((List.range 6).foldl (fun s k => judgeSlot s p k b) u) c.adr = rdA u c.adr :=
    fun b u => rdA_foldl (fun k _ s => by rw [judgeSlot, rdA_updSlot]) u
  simp only [vote, rdA_ite, servo_tallyVote, hjudged, rdA_updServo, ite_self]

@[simp] theorem servo_allemande (s : State) (q : Nat) : rdA (allemande s q) c.adr = rdA s c.adr := by
  simp (disch := decide) [allemande]

@[simp] theorem servo_showWeights (s : State) (q : Nat) (e : List Nat) :
    rdA (showWeights s q e) c.adr = rdA s c.adr :=
  rdA_foldl (fun k _ s => by rw [servo_putB_ref, servo_put_ref]) s

/-- Steps 1 to 5 of an update: the last is the transition of the servo, and none before it moves the two registers. -/
theorem judgeUpdate_eq (s : State) (p : Nat) :
    ∃ u q, judgeUpdate s p = (servoTransition u q, q) ∧ ∀ c : ServoReg, rdA u c.adr = rdA s c.adr := by
  refine ⟨_, _, rfl, fun c => ?_⟩
  have habsorbed : ∀ u, rdA ((List.range 6).foldl absorb u) c.adr = rdA u c.adr :=
    fun u => rdA_foldl (fun k _ s => servo_absorb c s k) u
  have hslots : ∀ u, rdA ((List.range 6).foldl updateSlot u) c.adr = rdA u c.adr :=
    fun u => rdA_foldl (fun k _ s => servo_updateSlot c s k) u
  simp (disch := decide) only [rdA_ite, servo_put, servo_showWeights, servo_allemande, rdA_updServo, servo_vote, hslots,
    habsorbed, ite_self]

/-! ### Steering and uncertainty (R46, R84, R88, R90) -/

@[simp] theorem servo_setRate (s : State) (pull : Int) : rdA (setRate s pull) c.adr = rdA s c.adr := by
  simp (disch := decide) [setRate, rdA_ite]

@[simp] theorem servo_slewH (s : State) : rdA (slewH s) c.adr = rdA s c.adr := by
  simp [slewH, rdA_ite]

@[simp] theorem servo_nextTau (s : State) : rdA (nextTau s) c.adr = rdA s c.adr := by
  simp [nextTau, rdA_ite]

@[simp] theorem servo_steerServo (s : State) (q : Nat) (en : Bool) :
    rdA (steerServo s q en) c.adr = rdA s c.adr := by
  simp only [steerServo, rdA_ite, servo_setRate, rdA_updServo, servo_nextTau, servo_slewH, ite_self]
  split
  · simp only [rdA_ite, servo_tryStep, ite_self]
  · rfl

@[simp] theorem servo_showUnc (s : State) (u : Option Nat) : rdA (showUnc s u) c.adr = rdA s c.adr := by
  simp (disch := decide) [showUnc]

@[simp] theorem servo_updateUnc (s : State) (q : Nat) : rdA (updateUnc s q) c.adr = rdA s c.adr := by
  simp [updateUnc, rdA_ite]

end

end Sys2Proof.Machine
end

section
/-! The servo update (R72, R76, R77, R83, R90, R92), the stored history and the refit of the model (R99): what the rows
show. -/

namespace Sys2Proof.Machine

/-! ### Registers of the Timebase and of the engine -/

/-- The address of a register of the TBE or the DSC page. -/
def OnServoPages (a : Nat) : Prop := pTBE.adr 0 ≤ a ∧ a < pREF.adr 0

theorem onServoPages_tbe {o : Nat} (ho : o < 0x1000) : OnServoPages (pTBE.adr o) := by
  simp only [OnServoPages, Pg.adr]
  omega

theorem onServoPages_dsc {o : Nat} (ho : o < 0x1000) : OnServoPages (pDSC.adr o) := by
  simp only [OnServoPages, Pg.adr]
  omega

namespace OnServoPages

variable {a : Nat} (h : OnServoPages a)
include h

theorem offRec_adr : offRec a = true := by
  simp only [OnServoPages, Pg.adr] at h
  exact offRec_of_page (by omega)

theorem ne_ref (o : Nat) : a ≠ pREF.adr o := by
  simp only [OnServoPages, Pg.adr] at h ⊢
  omega

theorem ne_ovn (o : Nat) : a ≠ pOVN.adr o := by
  simp only [OnServoPages, Pg.adr] at h ⊢
  omega

theorem ne_mck (o : Nat) : a ≠ pMCK.adr o := by
  simp only [OnServoPages, Pg.adr] at h ⊢
  omega

/-! ### What is shown after an update (R76, R155, R211, R280) -/

theorem rdA_showSlot (s : State) (k : Nat) : rdA (showSlot s k) a = rdA s a := by
  simp only [showSlot, rdA_wrN_ne _ _ _ _ (h.ne_ref _), rdA_put_ne _ _ _ _ (h.ne_ref _)]

theorem rdA_showSlots (s : State) : rdA ((List.range 6).foldl showSlot s) a = rdA s a :=
  rdA_foldl (fun k _ s => h.rdA_showSlot s k) s

theorem rdA_showOven (s : State) (temp : Int) (heat : Nat) (osc : Option (Int × Nat)) :
    rdA (showOven s temp heat osc) a = rdA s a := by
  cases osc <;>
    simp only [showOven, rdA_ite, rdA_wrN_ne _ _ _ _ (h.ne_ovn _), rdA_put_ne _ _ _ _ (h.ne_ovn _), ite_self]

theorem rdA_refreshGates (s : State) : rdA (refreshGates s) a = rdA s a := by
  have hout : ∀ ch u, rdA (refreshOut u ch) a = rdA u a := fun ch u => by
    simp only [refreshOut, startOut, stopOut, rdA_ite, rdA_updOut, rdA_put_ne _ _ _ _ (h.ne_mck _), ite_self]
  simp only [refreshGates, rdA_foldl fun ch _ u => hout ch u, rdA_putB_ne _ _ _ _ (h.ne_mck _)]

end OnServoPages

/-- What an update shows of the servo: three fields of STAT beside PRIMARY, and three registers. -/
theorem showServo_eq (s : State) (q : Nat) :
    ∃ quar held slew ofs err time, showServo s q = wrN (wrN (wrN (putB (putB (putB (put s pDSC fDSC_STAT_PRIMARY q)
      pDSC fDSC_STAT_QUAR quar) pDSC fDSC_STAT_HELD held) pDSC fDSC_STAT_HO_SLEW slew) pDSC rDSC_HANDOVER_OFS ofs)
      pDSC rDSC_PHASE_ERR err) pDSC rDSC_HOLD_TIME time :=
  ⟨_, _, _, _, _, _, rfl⟩

/-- The state of the servo is the low three bits of its register. -/
theorem servoState_putB (s : State) {f : Fld} (b : Bool) (hoff : f.off = rDSC_STAT) (hlo : 3 ≤ f.lo) :
    servoState (putB s pDSC f b) = servoState s :=
  get_put_apart s pDSC f fDSC_STAT_STATE _ hoff.symm (by decide) (.inl hlo)

theorem servoState_showServo (s : State) (q : Nat) : servoState (showServo s q) = servoState s := by
  obtain ⟨quar, held, slew, ofs, err, time, heq⟩ := showServo_eq s q
  have hreg : ∀ u o v, pDSC.adr rDSC_STAT ≠ pDSC.adr o → servoState (wrN u pDSC o v) = servoState u :=
    fun u o v h => get_congr (rdA_wrN_ne u pDSC o v h)
  rw [heq, hreg _ _ _ (by decide), hreg _ _ _ (by decide), hreg _ _ _ (by decide), servoState_putB _ _ rfl (by decide),
    servoState_putB _ _ rfl (by decide), servoState_putB _ _ rfl (by decide)]
  exact get_put_apart s pDSC fDSC_STAT_PRIMARY fDSC_STAT_STATE q rfl (by decide) (by decide)

/-- The registers of the engine's page that follow the servo and the slots once the uncertainty is known. -/
def viewRegs : List Nat :=
  [pDSC.adr rDSC_STAT, pDSC.adr rDSC_HANDOVER_OFS, pDSC.adr rDSC_PHASE_ERR, pDSC.adr rDSC_HOLD_TIME]

theorem rdA_showServo_ne (s : State) (q : Nat) {a : Nat} (h : a ∉ viewRegs) : rdA (showServo s q) a = rdA s a := by
  simp only [viewRegs, List.mem_cons, List.not_mem_nil, or_false, not_or] at h
  obtain ⟨hstat, hofs, herr, htime⟩ := h
  obtain ⟨quar, held, slew, ofs, err, time, heq⟩ := showServo_eq s q
  rw [heq, rdA_wrN_ne _ _ _ _ htime, rdA_wrN_ne _ _ _ _ herr, rdA_wrN_ne _ _ _ _ hofs, rdA_putB_ne _ _ _ _ hstat,
    rdA_putB_ne _ _ _ _ hstat, rdA_putB_ne _ _ _ _ hstat, rdA_put_ne _ _ _ _ hstat]

/-- The conditions of the engine's page but UNC_LIMIT follow the servo and the slots. -/
theorem dscDoubts_eq (s : State) :
    ∃ path quar held, dscDoubts s = doubt (doubt (doubt (doubt (doubt (doubt s pDSC 0 (servoState s == 0)) pDSC 1
      (servoState s == 3)) pDSC 3 (servoState s == 4)) pDSC 4 path) pDSC 5 quar) pDSC 6 held :=
  ⟨_, _, _, rfl⟩

theorem rdA_dscDoubts_ne (s : State) {a : Nat} (hrec : offRec a = true) (h : a ≠ pDSC.adr rDOUBT_RAW) :
    rdA (dscDoubts s) a = rdA s a := by
  obtain ⟨path, quar, held, heq⟩ := dscDoubts_eq s
  simp only [heq, rdA_doubt_ne _ _ _ _ hrec h]

theorem servoState_dscDoubts (s : State) : servoState (dscDoubts s) = servoState s :=
  get_congr (rdA_dscDoubts_ne s rfl (by decide))

/-- R76, R93: FREERUN, HOLDOVER and SUSPECT stand in their states; UNC_LIMIT is not among the conditions judged. -/
theorem dscDoubts_shows (s : State) :
    let t := dscDoubts s
    doubts t pDSC 0 = decide (servoState s = 0) ∧ doubts t pDSC 1 = decide (servoState s = 3) ∧
      doubts t pDSC 3 = decide (servoState s = 4) ∧ doubts t pDSC 2 = doubts s pDSC 2 := by
  obtain ⟨path, quar, held, heq⟩ := dscDoubts_eq s
  have hapart : ∀ u b i j, j < 32 → j ≠ i → doubts (doubt u pDSC i b) pDSC j = doubts u pDSC j :=
    fun u b i j hj hne => doubts_doubt_ne u pDSC b hj hne
  rw [heq]
  refine ⟨?_, ?_, ?_, ?_⟩
  · simp (disch := decide) only [hapart, doubts_doubt_same]
    rfl
  · simp (disch := decide) only [hapart, doubts_doubt_same]
    rfl
  · simp (disch := decide) only [hapart, doubts_doubt_same]
    rfl
  · simp (disch := decide) only [hapart]

/-! ### The uncertainty and the pull part of an update -/

/-- R90, R92: an unknown uncertainty reads as all ones and is above every limit. -/
theorem showUnc_none (s : State) :
    rdN (showUnc s none) pDSC rDSC_UNC = 0xFFFFFFFF ∧ doubts (showUnc s none) pDSC 2 = true := by
  simp only [showUnc]
  generalize hs1 : wrN (updServo s fun v => { v with unc := none }) pDSC rDSC_UNC (uncReg none) = s1
  have hunc : s1.dsc.unc = none := by rw [← hs1, wrN_dsc, updServo]
  have hover : uncOver s1 = true := by rw [uncOver, hunc]
  refine ⟨?_, by rw [hover, doubts_doubt_same _ _ _ (by decide)]⟩
  rw [rdN_congr (rdA_doubt_ne _ _ _ _ rfl (by decide)), rdN_congr (rdA_raiseIf_ne _ _ _ _ rfl (by decide)), ← hs1,
    rdN_wrN_same]
  rfl

theorem updateUnc_freerun {s : State} (h : servoState s = 0) (q : Nat) :
    ∃ u, updateUnc s q = showUnc u none := by
  simp only [updateUnc, h, if_true]
  exact ⟨_, rfl⟩

theorem rdA_updateUnc_ne (s : State) (q : Nat) {a : Nat} (hrec : offRec a = true) (hunc : a ≠ pDSC.adr rDSC_UNC)
    (hint : a ≠ pDSC.adr rINT_RAW) (hdoubt : a ≠ pDSC.adr rDOUBT_RAW) : rdA (updateUnc s q) a = rdA s a := by
  have hshow : ∀ u v, rdA (showUnc u v) a = rdA u a := fun u v => by
    simp only [showUnc, rdA_doubt_ne _ _ _ _ hrec hdoubt, rdA_raiseIf_ne _ _ _ _ hrec hint, rdA_wrN_ne _ _ _ _ hunc,
      rdA_updServo]
  simp only [updateUnc, rdA_ite, hshow, rdA_updServo, ite_self]

theorem servoState_updateUnc (s : State) (q : Nat) : servoState (updateUnc s q) = servoState s :=
  get_congr (servo_updateUnc .stat s q)

theorem servoState_steerServo (s : State) (q : Nat) (en : Bool) : servoState (steerServo s q en) = servoState s :=
  get_congr (servo_steerServo .stat s q en)

/-- R46: no limit clamps a pull part of 0. -/
theorem rdN_setRate_zero (s : State) : rdN (setRate s 0) pTBE rTBE_PULL = 0 := by
  have hnot : ¬ (0 : Int) < -((get s pTBE fTBE_SLEW_LIMIT_PPB : Int) * 1000) := by omega
  have hlim : ¬ (get s pTBE fTBE_SLEW_LIMIT_PPB : Int) * 1000 < 0 := by omega
  simp only [setRate, hnot, hlim, if_false, if_true]
  rw [rdN_wrN_ne _ _ _ _ _ _ (by decide), rdN_wrN_same]
  rfl

/-- R83, R84: while the engine is disabled the pull part is 0. -/
theorem rdN_steerServo_disabled (s : State) (q : Nat) : rdN (steerServo s q false) pTBE rTBE_PULL = 0 := by
  simp only [steerServo, Bool.false_and, Bool.false_eq_true, if_false]
  exact rdN_setRate_zero _

/-! ### The transition with CTRL.FREERUN (R82) -/

theorem servoState_toFreerun (s : State) : servoState (toFreerun s) = 0 := by
  have hset : servoState (setServo s 0) = 0 := by
    rw [setServo]
    split
    · assumption
    · rw [servoState, get_congr (rdA_raise_ne _ _ _ rfl (by decide)), get_put_same _ _ _ _ (by decide)]
      rfl
  rw [← hset, toFreerun, onModel]
  exact get_congr rfl

theorem servoTransition_freerun {s : State} (h : flag s pDSC fDSC_CTRL_FREERUN = true) (q : Nat) :
    servoState (servoTransition s q) = 0 := by
  have hcounted : flag (countLock s q) pDSC fDSC_CTRL_FREERUN = true := (flag_congr rfl).trans h
  simp only [servoTransition, hcounted, if_true]
  split
  · assumption
  · exact servoState_toFreerun _

/-! ### The whole update (R77) -/

/-- An update up to its judgement: the state it is steered from, and the primary. -/
def updateJudged (s : State) (temp : Int) : State × Nat :=
  let s0 := updServo s fun v => { v with temp := temp }
  if pageEn s pDSC then judgeUpdate s0 (get s pDSC fDSC_STAT_PRIMARY) else (s0, get s pDSC fDSC_STAT_PRIMARY)

/-- What an update shows once the uncertainty is known; `f` and `g` change the servo's state beside the registers. -/
def updateShown (s : State) (q : Nat) (f g : Servo → Servo) : State :=
  refreshGates (updServo (dscDoubts (showServo ((List.range 6).foldl showSlot (updServo s f)) q)) g)

theorem servoUpdate_eq (s : State) (temp : Int) :
    ∃ f g : Servo → Servo, (∀ v, (g (f v)).upd = mono s) ∧ servoUpdate s temp =
      updateShown (updateUnc (steerServo (updateJudged s temp).1 (updateJudged s temp).2 (pageEn s pDSC))
        (updateJudged s temp).2) (updateJudged s temp).2 f g :=
  ⟨_, _, fun _ => rfl, rfl⟩

theorem servoUpdate_clk (s : State) (temp : Int) : (servoUpdate s temp).clk = s.clk :=
  (kept_servoUpdate (leaves_closed (· ≠ .clk) s) (by decide) (by decide) (by decide) (by decide) s temp
    (leaves_refl _ s) .clk).resolve_left (by simp)

section

variable (s : State) (q : Nat) (f g : Servo → Servo)

/-- The last step of an update that moves a register of the engine's page is the one of its conditions. -/
theorem rdA_shown {a : Nat} (h : OnServoPages a) :
    rdA (updateShown s q f g) a = rdA (dscDoubts (showServo ((List.range 6).foldl showSlot (updServo s f)) q)) a := by
  rw [updateShown, h.rdA_refreshGates, rdA_updServo]

theorem servoState_shown : servoState (updateShown s q f g) = servoState s := by
  have hslots : servoState ((List.range 6).foldl showSlot (updServo s f)) = servoState s :=
    get_congr (((onServoPages_dsc (by decide)).rdA_showSlots _).trans (rdA_updServo s f _))
  rw [servoState, get_congr (rdA_shown s q f g (onServoPages_dsc (by decide))), ← servoState, servoState_dscDoubts,
    servoState_showServo, hslots]

theorem doubts_shown :
    let t := updateShown s q f g
    doubts t pDSC 0 = decide (servoState s = 0) ∧ doubts t pDSC 1 = decide (servoState s = 3) ∧
      doubts t pDSC 3 = decide (servoState s = 4) ∧ doubts t pDSC 2 = doubts s pDSC 2 := by
  have hlast := doubts_congr (rdA_shown s q f g (onServoPages_dsc (show rDOUBT_RAW < 0x1000 by decide)))
  have hregs : ∀ o, o < 0x1000 →
      rdA ((List.range 6).foldl showSlot (updServo s f)) (pDSC.adr o) = rdA s (pDSC.adr o) :=
    fun o ho => ((onServoPages_dsc ho).rdA_showSlots _).trans (rdA_updServo s f _)
  generalize (List.range 6).foldl showSlot (updServo s f) = u at hlast hregs
  have hstate : servoState (showServo u q) = servoState s :=
    (servoState_showServo u q).trans (get_congr (hregs _ (by decide)))
  have hlimit : doubts (showServo u q) pDSC 2 = doubts s pDSC 2 :=
    (doubts_congr (rdA_showServo_ne u q (by decide)) 2).trans (doubts_congr (hregs _ (by decide)) 2)
  simp only [hlast]
  rw [← hstate, ← hlimit]
  exact dscDoubts_shows (showServo u q)

/-- A register of the two pages that is neither of the servo's view nor DOUBT_RAW. -/
theorem rdA_shown_ne {a : Nat} (h : OnServoPages a) (hview : a ∉ viewRegs) (hdoubt : a ≠ pDSC.adr rDOUBT_RAW) :
    rdA (updateShown s q f g) a = rdA s a := by
  rw [rdA_shown s q f g h, rdA_dscDoubts_ne _ h.offRec_adr hdoubt, rdA_showServo_ne _ q hview, h.rdA_showSlots,
    rdA_updServo]

theorem shown_dsc : (updateShown s q f g).dsc = g (f s.dsc) := by
  have hview : ∀ u, (dscDoubts (showServo ((List.range 6).foldl showSlot u) q)).dsc = u.dsc := fun u =>
    (kept_dscDoubts (leaves_closed (fun _ => False) u) _ (kept_showServo (leaves_closed _ u) _ q (kept_foldl _ _ _
      (fun t k h => kept_showSlot (leaves_closed _ u) t k h) (leaves_refl _ u))) .dsc).resolve_left id
  have hgates : ∀ u, (refreshGates u).dsc = u.dsc := fun u =>
    (kept_refreshGates (leaves_closed (· = .mck) u) rfl u (leaves_refl _ u) .dsc).resolve_left (by decide)
  rw [updateShown, hgates, updServo, hview, updServo]

end

/-! ### The state that an update is run from -/

/-- The state an update judges: the clock at its instant, and the oven's sensors shown. -/
def updateFrom (s : State) (temp : Int) (heat : Nat) (osc : Option (Int × Nat)) : State :=
  showOven (advT96 s (nextUpdate s)) temp heat osc

theorem exec_servoUpdate (temp : Int) (heat : Nat) (osc : Option (Int × Nat)) (s : State) :
    exec (.servoUpdate temp heat osc) s = .next (servoUpdate (updateFrom s temp heat osc) temp) := rfl

theorem rdA_updateFrom (s : State) (temp : Int) (heat : Nat) (osc : Option (Int × Nat)) {a : Nat}
    (h : OnServoPages a) : rdA (updateFrom s temp heat osc) a = rdA s a := by
  obtain ⟨c, hadv⟩ := advT96_eq s (nextUpdate s)
  rw [updateFrom, h.rdA_showOven, hadv, rdA_mk]

theorem pageEn_updateFrom (s : State) (temp : Int) (heat : Nat) (osc : Option (Int × Nat)) :
    pageEn (updateFrom s temp heat osc) pDSC = pageEn s pDSC := by
  have hclosed := leaves_closed (· = .clk) s
  have hpwr : (updateFrom s temp heat osc).pwr = s.pwr :=
    (kept_showOven hclosed _ temp heat osc (kept_advT96 hclosed rfl s _ (leaves_refl _ s)) .pwr).resolve_left
      (by decide)
  rw [pageEn, flag_congr (rdA_updateFrom s temp heat osc (onServoPages_dsc (by decide))), pageRetained, hpwr]
  rfl

/-- R82: with CTRL.FREERUN the judgement of an enabled engine ends in FREERUN. -/
theorem servoState_judged_freerun {s : State} (hen : pageEn s pDSC = true)
    (hfree : flag s pDSC fDSC_CTRL_FREERUN = true) (temp : Int) : servoState (updateJudged s temp).1 = 0 := by
  obtain ⟨u, q, heq, hregs⟩ :=
    judgeUpdate_eq (updServo s fun v => { v with temp := temp }) (get s pDSC fDSC_STAT_PRIMARY)
  simp only [updateJudged, hen, if_true, heq]
  exact servoTransition_freerun ((flag_congr (hregs .ctrl)).trans hfree) q

theorem servoState_judged_disabled {s : State} (hen : pageEn s pDSC = false) (temp : Int) :
    servoState (updateJudged s temp).1 = servoState s := by
  simp only [updateJudged, hen, Bool.false_eq_true, if_false]
  exact get_congr rfl

/-- The state of the servo after an update is the one that the judgement left. -/
theorem servoState_servoUpdate (s : State) (temp : Int) :
    servoState (servoUpdate s temp) = servoState (updateJudged s temp).1 := by
  obtain ⟨f, g, _, heq⟩ := servoUpdate_eq s temp
  rw [heq, servoState_shown, servoState_updateUnc, servoState_steerServo]

theorem servoUpdate_shows (s : State) (temp : Int) :
    let t := servoUpdate s temp
    doubts t pDSC 0 = decide (servoState t = 0) ∧ doubts t pDSC 1 = decide (servoState t = 3) ∧
      doubts t pDSC 3 = decide (servoState t = 4) ∧ t.dsc.upd = mono t ∧
      (servoState t = 0 → rdN t pDSC rDSC_UNC = 0xFFFFFFFF ∧ doubts t pDSC 2 = true) := by
  have hmono : mono (servoUpdate s temp) = mono s := by rw [mono, servoUpdate_clk, mono]
  obtain ⟨f, g, hupd, heq⟩ := servoUpdate_eq s temp
  intro t
  rw [show mono t = mono s from hmono, show t = _ from heq]
  generalize (updateJudged s temp).2 = q
  generalize steerServo (updateJudged s temp).1 q (pageEn s pDSC) = u
  obtain ⟨hfree, hhold, hsuspect, hlimit⟩ := doubts_shown (updateUnc u q) q f g
  rw [servoState_shown, shown_dsc, hlimit]
  refine ⟨hfree, hhold, hsuspect, hupd _, fun h => ?_⟩
  rw [servoState_updateUnc] at h
  obtain ⟨v, hunc⟩ := updateUnc_freerun h q
  rw [rdN_congr (rdA_shown_ne _ q f g (onServoPages_dsc (by decide)) (by decide) (by decide)), hunc]
  exact showUnc_none v

/-- R83: the update of a disabled engine. -/
theorem servoUpdate_disabled {s : State} (hen : pageEn s pDSC = false) (temp : Int) :
    servoState (servoUpdate s temp) = servoState s ∧ rdN (servoUpdate s temp) pTBE rTBE_PULL = 0 := by
  refine ⟨(servoState_servoUpdate s temp).trans (servoState_judged_disabled hen temp), ?_⟩
  obtain ⟨f, g, _, heq⟩ := servoUpdate_eq s temp
  rw [heq, rdN_congr (rdA_shown_ne _ _ f g (onServoPages_tbe (by decide)) (by decide) (by decide)),
    rdN_congr (rdA_updateUnc_ne _ _ rfl (by decide) (by decide) (by decide)), hen, rdN_steerServo_disabled]

/-! ### The history and the model (R99) -/

theorem advMono_eq (s : State) (ns : Nat) : ∃ c, advMono s ns = { s with clk := c } := by
  rw [advMono, advP]
  split
  · exact ⟨_, rfl⟩
  · exact ⟨s.clk, rfl⟩

theorem historyStore_shows {s : State} (h : servoState s = 2) :
    Answers (exec .historyStore s) fun t => t.regs = s.regs ∧ t.dsc.stored = mono t ∧
      t.dsc.hist.getLast? = some (mono t, s.dsc.freq / 65536, s.dsc.temp, s.dsc.last) := by
  obtain ⟨c, hadv⟩ := advMono_eq s (s.dsc.stored + 60000000000)
  simp only [exec, execHistoryStore, h, if_true, hadv, answers_next]
  exact ⟨rfl, rfl, List.getLast?_concat⟩

/-- The learned values take the registers of the ageing and of the temperature alone. -/
theorem rdA_refitModel_ne (s : State) {a : Nat} (hage : a ≠ pDSC.adr rDSC_MODEL_AGE)
    (htemp : a ≠ pDSC.adr rDSC_MODEL_TCOEF) : rdA (refitModel s) a = rdA s a := by
  simp only [refitModel]
  split
  · rfl
  · rw [rdA_drawn, rdA_put_ne _ _ _ _ htemp, rdA_put_ne _ _ _ _ hage, rdA_putS_ne _ _ _ _ hage]

/-- The hours of LOCKED time that LOCK_HOURS shows. -/
def hoursShown (s : State) (hours : Nat) : State :=
  put (updServo s fun v => { v with refits := hours }) pDSC fDSC_MODEL_STAT_LOCK_HOURS (satU 16 hours)

/-- The model is ready: HOLD_READY in its two places, the source, and the interrupt. -/
def modelReady (s : State) : State :=
  raise (put (putB (putB s pDSC fDSC_MODEL_STAT_HOLD_READY true) pDSC fDSC_STAT_HOLD_READY true)
    pDSC fDSC_MODEL_STAT_SRC (if get s pDSC fDSC_MODEL_STAT_SRC = 2 then 2 else 1)) pDSC 5

/-- The state after the hours are counted and, at 24, the model is ready. -/
def hoursCounted (s : State) (hours : Nat) : State :=
  if 24 ≤ hours ∧ flag s pDSC fDSC_MODEL_STAT_HOLD_READY = false then modelReady (hoursShown s hours)
  else hoursShown s hours

theorem exec_modelRefit {s : State} (h : s.dsc.refits < s.dsc.lockNs / 3600000000000) :
    ∃ t, exec .modelRefit s = .next t ∧ (t = hoursCounted s (s.dsc.lockNs / 3600000000000) ∨
      t = refitModel (hoursCounted s (s.dsc.lockNs / 3600000000000))) := by
  have hexec : exec .modelRefit s =
      .next (if flag (hoursCounted s (s.dsc.lockNs / 3600000000000)) pDSC fDSC_MODEL_STAT_HOLD_READY then
        refitModel (hoursCounted s (s.dsc.lockNs / 3600000000000))
      else hoursCounted s (s.dsc.lockNs / 3600000000000)) := by
    simp only [exec, execModelRefit, not_le.mpr h, if_false]
    rfl
  refine ⟨_, hexec, ?_⟩
  split
  · exact .inr rfl
  · exact .inl rfl

theorem hoursShown_shows (s : State) (hours : Nat) :
    let t := hoursShown s hours
    t.dsc.refits = hours ∧ get t pDSC fDSC_MODEL_STAT_LOCK_HOURS = min hours 0xFFFF ∧
      flag t pDSC fDSC_MODEL_STAT_HOLD_READY = flag s pDSC fDSC_MODEL_STAT_HOLD_READY := by
  refine ⟨by rw [hoursShown, put_dsc, updServo], ?_, ?_⟩
  · rw [hoursShown, get_put_same _ _ _ _ (by decide)]
    show min hours (2 ^ 16 - 1) % 2 ^ 16 = min hours 0xFFFF
    omega
  · exact flag_put_apart _ pDSC fDSC_MODEL_STAT_LOCK_HOURS fDSC_MODEL_STAT_HOLD_READY _ rfl (by decide) (by decide)

theorem modelReady_shows (s : State) :
    let t := modelReady s
    t.dsc = s.dsc ∧ get t pDSC fDSC_MODEL_STAT_LOCK_HOURS = get s pDSC fDSC_MODEL_STAT_LOCK_HOURS ∧
      flag t pDSC fDSC_MODEL_STAT_HOLD_READY = true ∧ intRaw t pDSC 5 = true := by
  have hraise : ∀ u, rdA (raise u pDSC 5) (pDSC.adr rDSC_MODEL_STAT) = rdA u (pDSC.adr rDSC_MODEL_STAT) :=
    fun u => rdA_raise_ne u pDSC 5 rfl (by decide)
  have hstat : ∀ u b, rdA (putB u pDSC fDSC_STAT_HOLD_READY b) (pDSC.adr rDSC_MODEL_STAT) =
      rdA u (pDSC.adr rDSC_MODEL_STAT) := fun u b => rdA_putB_ne _ _ _ _ (by decide)
  refine ⟨by rw [modelReady, raise_dsc, put_dsc, putB_dsc, putB_dsc], ?_, ?_, raise_set _ _ _ (by decide) rfl⟩
  · rw [modelReady, get_congr (hraise _), get_put_apart _ pDSC fDSC_MODEL_STAT_SRC fDSC_MODEL_STAT_LOCK_HOURS _ rfl
      (by decide) (by decide), get_congr (hstat _ _)]
    exact get_put_apart _ pDSC fDSC_MODEL_STAT_HOLD_READY fDSC_MODEL_STAT_LOCK_HOURS _ rfl (by decide) (by decide)
  · rw [modelReady, flag_congr (hraise _), flag_put_apart _ pDSC fDSC_MODEL_STAT_SRC fDSC_MODEL_STAT_HOLD_READY _ rfl
      (by decide) (by decide), flag_congr (hstat _ _)]
    exact flag_putB_same _ _ _ _ (by decide) rfl

theorem hoursCounted_shows (s : State) (hours : Nat) :
    let t := hoursCounted s hours
    t.dsc.refits = hours ∧ get t pDSC fDSC_MODEL_STAT_LOCK_HOURS = min hours 0xFFFF ∧
      (24 ≤ hours → flag t pDSC fDSC_MODEL_STAT_HOLD_READY = true ∧
        (flag s pDSC fDSC_MODEL_STAT_HOLD_READY = false → intRaw t pDSC 5 = true)) := by
  obtain ⟨hrefits, hhours, hready⟩ := hoursShown_shows s hours
  simp only [hoursCounted]
  split
  · obtain ⟨hdsc, hhours', hready', hint⟩ := modelReady_shows (hoursShown s hours)
    exact ⟨by rw [hdsc, hrefits], hhours'.trans hhours, fun _ => ⟨hready', fun _ => hint⟩⟩
  · next hnot =>
    refine ⟨hrefits, hhours, fun hday => ?_⟩
    have hstood : flag s pDSC fDSC_MODEL_STAT_HOLD_READY = true := by simpa [hday] using hnot
    exact ⟨hready.trans hstood, fun hfall => absurd (hstood.symm.trans hfall) (by decide)⟩

@[simp] theorem refitModel_dsc (s : State) : (refitModel s).dsc = s.dsc :=
  (kept_refitModel (leaves_closed (fun _ => False) s) s (leaves_refl _ s) .dsc).resolve_left id

/-- Settles O22: no step of an update but the transition moves the state of the servo, and what an update shows last are
the conditions of that state; the learned values leave what counts the hours. -/
theorem servoUpdateRows : Obligations.ServoUpdate := by
  refine ⟨fun temp heat osc s => ?update, fun temp heat osc s hen hfree => ?freerun,
    fun temp heat osc s hdis => ?disabled, fun s hlocked => historyStore_shows hlocked, fun s hhour => ?refit⟩
  case update =>
    rw [exec_servoUpdate, answers_next]
    exact servoUpdate_shows _ temp
  case freerun =>
    have hfree' : flag (updateFrom s temp heat osc) pDSC fDSC_CTRL_FREERUN = true :=
      (flag_congr (rdA_updateFrom s temp heat osc (onServoPages_dsc (by decide)))).trans hfree
    rw [exec_servoUpdate, answers_next, servoState_servoUpdate]
    exact servoState_judged_freerun ((pageEn_updateFrom s temp heat osc).trans hen) hfree' temp
  case disabled =>
    obtain ⟨hstate, hpull⟩ := servoUpdate_disabled ((pageEn_updateFrom s temp heat osc).trans hdis) temp
    have hfrom : servoState (updateFrom s temp heat osc) = servoState s :=
      get_congr (rdA_updateFrom s temp heat osc (onServoPages_dsc (by decide)))
    rw [exec_servoUpdate, answers_next]
    exact ⟨hstate.trans hfrom, hpull⟩
  case refit =>
    obtain ⟨hrefits, hhours, hready⟩ := hoursCounted_shows s (s.dsc.lockNs / 3600000000000)
    obtain ⟨t, hexec, rfl | rfl⟩ := exec_modelRefit hhour
    · rw [hexec, answers_next]
      exact ⟨hrefits, hhours, hready⟩
    · have hstat := rdA_refitModel_ne (hoursCounted s (s.dsc.lockNs / 3600000000000))
        (a := pDSC.adr rDSC_MODEL_STAT) (by decide) (by decide)
      have hint := rdA_refitModel_ne (hoursCounted s (s.dsc.lockNs / 3600000000000))
        (a := pDSC.adr rINT_RAW) (by decide) (by decide)
      rw [hexec, answers_next, refitModel_dsc, get_congr hstat, flag_congr hstat, intRaw, rdN_congr hint]
      exact ⟨hrefits, hhours, hready⟩

end Sys2Proof.Machine
end

section
/-! What a frame of registers says of the readings: a field, a condition or an interrupt bit whose register the frame
does not name reads as before. Frames of the operations are put together one after the other. -/

namespace Sys2Proof.Machine

/-! ### Frames -/

theorem OtherRegs.of_regs {s t : State} (h : t.regs = s.regs) (l : List Nat) : OtherRegs s t l :=
  fun a _ _ => by rw [rdA, h, rdA]

/-- A frame goes on over an operation that moves some of its registers. -/
theorem OtherRegs.andThen {s t u : State} {l m : List Nat} (h₁ : OtherRegs s t l) (h₂ : OtherRegs t u m) (hml : m ⊆ l) :
    OtherRegs s u l :=
  h₁.trans (h₂.mono hml)

theorem otherRegs_wrN (s : State) (p : Pg) (o v : Nat) : OtherRegs s (wrN s p o v) [p.adr o] :=
  fun _ ha _ => rdA_wrN_ne s p o v (by simpa using ha)

theorem otherRegs_wr64 (s : State) (p : Pg) (lo hi v : Nat) : OtherRegs s (wr64 s p lo hi v) [p.adr lo, p.adr hi] :=
  ((otherRegs_wrN s p lo v).mono (by simp)).andThen (otherRegs_wrN _ p hi _) (by simp)

/-! ### Readings -/

section

variable {s t : State} {l : List Nat} (h : OtherRegs s t l) {p : Pg}
include h

theorem OtherRegs.rdN {o : Nat} (hl : p.adr o ∉ l) (hrec : p.adr o % 0x10000000 / 0x1000 ≠ 0x30) :
    rdN t p o = rdN s p o :=
  rdN_congr (h _ hl hrec)

theorem OtherRegs.get {f : Fld} (hl : p.adr f.off ∉ l) (hrec : p.adr f.off % 0x10000000 / 0x1000 ≠ 0x30) :
    get t p f = get s p f :=
  get_congr (h _ hl hrec)

theorem OtherRegs.flag {f : Fld} (hl : p.adr f.off ∉ l) (hrec : p.adr f.off % 0x10000000 / 0x1000 ≠ 0x30) :
    flag t p f = flag s p f :=
  flag_congr (h _ hl hrec)

theorem OtherRegs.doubts (bit : Nat) (hl : p.adr rDOUBT_RAW ∉ l)
    (hrec : p.adr rDOUBT_RAW % 0x10000000 / 0x1000 ≠ 0x30) : doubts t p bit = doubts s p bit :=
  doubts_congr (h _ hl hrec) bit

theorem OtherRegs.intRaw (bit : Nat) (hl : p.adr rINT_RAW ∉ l) (hrec : p.adr rINT_RAW % 0x10000000 / 0x1000 ≠ 0x30) :
    intRaw t p bit = intRaw s p bit :=
  congrArg (bitOf · bit) (rdN_congr (h _ hl hrec))

end

/-! ### Stores that saturate -/

theorem get_put_satU (s : State) (p : Pg) (f : Fld) (n : Nat) (h : f.lo + f.w ≤ 32) :
    get (put s p f (satU f.w n)) p f = min n (2 ^ f.w - 1) := by
  have hpos : 0 < 2 ^ f.w := by positivity
  rw [get_put_same s p f _ h, satU, Nat.mod_eq_of_lt (by omega)]

theorem rdN_wrN_unsign (s : State) (p : Pg) (o : Nat) (i : Int) :
    rdN (wrN s p o (unsign 32 i)) p o = unsign 32 i := by
  rw [rdN_wrN_same, Nat.mod_eq_of_lt (unsign_lt 32 i)]

end Sys2Proof.Machine
end

section
/-! The oven, and the loss, the return and the comparison of OSC_IN (R103–R108): what the rows show. -/

namespace Sys2Proof.Machine

/-- An interrupt bit of the OVN page stands after its event. -/
theorem intRaw_raise_ovn (s : State) {bit : Nat} (hb : bit < 32) : intRaw (raise s pOVN bit) pOVN bit = true :=
  intRaw_raise_same (.inr rfl) s hb

/-! ### Requests leave the registers (R107, R108) -/

theorem requestSwitch_regs (s : State) : (requestSwitch s).regs = s.regs := by
  simp only [requestSwitch]
  split
  · rfl
  · rfl

theorem autoReturn_regs (s : State) (osc : Bool) : (autoReturn s osc).regs = s.regs := by
  simp only [autoReturn]
  split
  · exact requestSwitch_regs s
  · rfl

theorem otherRegs_autoReturn (s : State) (osc : Bool) (l : List Nat) : OtherRegs s (autoReturn s osc) l :=
  .of_regs (autoReturn_regs s osc) l

theorem leaveOsc_regs (s : State) : (leaveOsc s).regs = s.regs := by
  simp only [leaveOsc]
  split
  · rfl
  · split
    · rfl
    · rfl

/-! ### The oven (R103, R104) -/

/-- The platform settles: its temperature, SETTLED and the time it took to warm up are shown. -/
def ovenWarm (s : State) (temp : Int) : State :=
  put (putB (showTemp s temp) pOVN fOVN_STAT_SETTLED true) pOVN fOVN_WARM_TIME_SEC
    (satU 16 ((mono s - s.oven.heatFrom) / 1000000000))

/-- The platform is no longer settled, and the comparison with OSC_IN is interrupted. -/
def ovenCold (s : State) (temp : Int) : State :=
  putB (putB (showTemp s temp) pOVN fOVN_STAT_SETTLED false) pOVN fOVN_STAT_MEAS_VALID false

theorem exec_ovnSettled {s : State} {temp : Int} (hcold : settled s = false) (hband : ovenOff s temp ≤ ovenBand s) :
    exec (.ovnSettled temp) s =
      .next (autoReturn (doubt (raise (ovenWarm s temp) pOVN 0) pOVN 0 false) false) := by
  simp only [exec, execOvnSettled, hcold, decide_eq_true hband, Bool.not_false, Bool.and_self, if_true, ovenWarm]

theorem exec_ovnUnsettled {s : State} {temp : Int} (hwarm : settled s = true)
    (hband : 4 * ovenBand s < ovenOff s temp) :
    exec (.ovnUnsettled temp) s =
      .next (doubt (doubt (raise (ovenCold s temp) pOVN 1) pOVN 0 true) pOVN 1 false) := by
  simp only [exec, execOvnUnsettled, hwarm, decide_eq_true hband, Bool.and_self, if_true, ovenCold]

theorem exec_ovnRange {s : State} (hwarm : settled s = true) (lim : Bool) :
    exec (.ovnRange lim) s = .next (doubt s pOVN 1 lim) := by
  simp only [exec, execOvnRange, hwarm, if_true]

theorem exec_ovnFault {s : State} (hon : s.oven.heaterOff = false) :
    exec .ovnFault s =
      .next (doubt (put (updOven s fun o => { o with heaterOff := true }) pOVN fOVN_HEAT_MW 0) pOVN 2 true) := by
  simp only [exec, execOvnFault, hon, Bool.false_eq_true, if_false]

theorem ovenWarm_shows (s : State) (temp : Int) :
    settled (ovenWarm s temp) = true ∧
      get (ovenWarm s temp) pOVN fOVN_WARM_TIME_SEC = min ((mono s - s.oven.heatFrom) / 1000000000) 0xFFFF ∧
      OtherRegs s (ovenWarm s temp) [pOVN.adr rOVN_STAT, pOVN.adr rOVN_TEMP, pOVN.adr rOVN_WARM_TIME] := by
  have htime := otherRegs_put (putB (showTemp s temp) pOVN fOVN_STAT_SETTLED true) pOVN fOVN_WARM_TIME_SEC
    (satU 16 ((mono s - s.oven.heatFrom) / 1000000000))
  refine ⟨?_, get_put_satU _ _ fOVN_WARM_TIME_SEC _ (by decide), ?_⟩
  · exact (htime.flag (by decide) (by decide)).trans (flag_putB_same _ _ _ _ (by decide) rfl)
  · have htemp : OtherRegs s (showTemp s temp) [pOVN.adr rOVN_TEMP] := otherRegs_put _ _ _ _
    exact ((htemp.mono (by simp)).andThen (otherRegs_putB _ _ _ _) (by simp)).andThen htime (by simp)

theorem ovenCold_shows (s : State) (temp : Int) :
    settled (ovenCold s temp) = false ∧ measValid (ovenCold s temp) = false := by
  have hapart : settled (ovenCold s temp) = settled (putB (showTemp s temp) pOVN fOVN_STAT_SETTLED false) :=
    flag_putB_apart _ _ _ _ _ rfl (by decide) (by decide)
  exact ⟨hapart.trans (flag_putB_same _ _ _ _ (by decide) rfl), flag_putB_same _ _ _ _ (by decide) rfl⟩

/-- R103: SETTLED rises, with INT_RAW[0], and OVN_WARM falls; a source that becomes available may be requested. -/
theorem ovnSettled_shows {s : State} {temp : Int} (hcold : settled s = false)
    (hband : ovenOff s temp ≤ ovenBand s) :
    Answers (exec (.ovnSettled temp) s) fun t => settled t = true ∧ doubts t pOVN 0 = false ∧ intRaw t pOVN 0 = true ∧
      get t pOVN fOVN_WARM_TIME_SEC = min ((mono s - s.oven.heatFrom) / 1000000000) 0xFFFF ∧
      OtherRegs s t [pOVN.adr rOVN_STAT, pOVN.adr rOVN_TEMP, pOVN.adr rOVN_WARM_TIME, pOVN.adr rINT_RAW,
        pOVN.adr rDOUBT_RAW] := by
  obtain ⟨hsettled, htime, hshown⟩ := ovenWarm_shows s temp
  have hraise := otherRegs_raise (ovenWarm s temp) pOVN 0
  have hdoubt := otherRegs_doubt (raise (ovenWarm s temp) pOVN 0) pOVN 0 false
  have hreturn := otherRegs_autoReturn (doubt (raise (ovenWarm s temp) pOVN 0) pOVN 0 false) false []
  have hends := ((hraise.mono (by simp)).andThen hdoubt (by simp)).andThen
    (l := [pOVN.adr rINT_RAW, pOVN.adr rDOUBT_RAW]) hreturn (by simp)
  rw [exec_ovnSettled hcold hband, answers_next]
  refine ⟨?_, ?_, ?_, ?_, (hshown.mono (by simp)).andThen hends (by simp)⟩
  · exact (hends.flag (by decide) (by decide)).trans hsettled
  · rw [hreturn.doubts 0 (by decide) (by decide), doubts_doubt_same _ _ _ (by decide)]
  · rw [hreturn.intRaw 0 (by decide) (by decide), hdoubt.intRaw 0 (by decide) (by decide),
      intRaw_raise_ovn _ (by decide)]
  · rw [hends.get (by decide) (by decide), htime]

/-- R103, R104, R106: SETTLED falls, with INT_RAW[1]; OVN_WARM stands, and OVN_RANGE is judged no longer. -/
theorem ovnUnsettled_shows {s : State} {temp : Int} (hwarm : settled s = true)
    (hband : 4 * ovenBand s < ovenOff s temp) :
    Answers (exec (.ovnUnsettled temp) s) fun t => settled t = false ∧ measValid t = false ∧
      doubts t pOVN 0 = true ∧ doubts t pOVN 1 = false ∧ intRaw t pOVN 1 = true := by
  obtain ⟨hsettled, hvalid⟩ := ovenCold_shows s temp
  have hraise := otherRegs_raise (ovenCold s temp) pOVN 1
  have hdoubts := ((otherRegs_doubt (raise (ovenCold s temp) pOVN 1) pOVN 0 true).andThen
    (otherRegs_doubt _ pOVN 1 false) (List.Subset.refl _))
  have hends := (hraise.mono (by simp)).andThen (l := [pOVN.adr rINT_RAW, pOVN.adr rDOUBT_RAW]) hdoubts (by simp)
  rw [exec_ovnUnsettled hwarm hband, answers_next]
  refine ⟨?_, ?_, ?_, doubts_doubt_same _ _ _ (by decide), ?_⟩
  · exact (hends.flag (by decide) (by decide)).trans hsettled
  · exact (hends.flag (by decide) (by decide)).trans hvalid
  · rw [doubts_doubt_ne _ _ _ (by decide) (by decide), doubts_doubt_same _ _ _ (by decide)]
  · rw [hdoubts.intRaw 1 (by decide) (by decide), intRaw_raise_ovn _ (by decide)]

/-- R104: the heater is off and draws nothing. -/
theorem ovnFault_shows {s : State} (hon : s.oven.heaterOff = false) :
    Answers (exec .ovnFault s) fun t => t.oven.heaterOff = true ∧ get t pOVN fOVN_HEAT_MW = 0 ∧
      doubts t pOVN 2 = true ∧ OtherRegs s t [pOVN.adr rOVN_HEAT, pOVN.adr rDOUBT_RAW] := by
  have hoff : OtherRegs s (updOven s fun o => { o with heaterOff := true }) [] := .of_regs rfl _
  have hheat := otherRegs_put (updOven s fun o => { o with heaterOff := true }) pOVN fOVN_HEAT_MW 0
  have hdoubt := otherRegs_doubt (put (updOven s fun o => { o with heaterOff := true }) pOVN fOVN_HEAT_MW 0) pOVN 2
    true
  rw [exec_ovnFault hon, answers_next]
  refine ⟨by rw [doubt_oven, put_oven, updOven], ?_, doubts_doubt_same _ _ _ (by decide),
    ((hoff.mono (by simp)).andThen hheat (by simp)).andThen hdoubt (by simp)⟩
  exact (hdoubt.get (by decide) (by decide)).trans (get_put_same _ _ _ _ (by decide))

/-! ### OSC_IN (R106, R108) -/

/-- A switch to OSC_IN that was requested lapses. -/
def dropOscRequest (s : State) : State :=
  match s.oven.req with
  | some (true, _) => updOven s fun o => { o with req := none }
  | _ => s

/-- OSC_IN is shown as lost, and the comparison as ended. -/
def oscGone (s : State) : State :=
  raise (putB (putB s pOVN fOVN_STAT_OSC_PRESENT false) pOVN fOVN_STAT_MEAS_VALID false) pOVN 3

theorem exec_oscLost {s : State} (hpresent : flag s pOVN fOVN_STAT_OSC_PRESENT = true) :
    exec .oscLost s = .next (oscGone (leaveOsc (dropOscRequest s))) := by
  simp only [exec, execOscLost, hpresent, if_true]
  rfl

/-- Of what the oven holds, a request that lapses changes the request alone. -/
theorem dropOscRequest_eq (s : State) :
    ∃ req, dropOscRequest s = { s with oven := { s.oven with req := req } } := by
  simp only [dropOscRequest]
  split
  · exact ⟨none, rfl⟩
  · exact ⟨s.oven.req, rfl⟩

theorem oscGone_shows (s : State) :
    flag (oscGone s) pOVN fOVN_STAT_OSC_PRESENT = false ∧ measValid (oscGone s) = false ∧
      intRaw (oscGone s) pOVN 3 = true ∧ OtherRegs s (oscGone s) [pOVN.adr rOVN_STAT, pOVN.adr rINT_RAW] ∧
      (oscGone s).oven = s.oven := by
  have hraise := otherRegs_raise
    (putB (putB s pOVN fOVN_STAT_OSC_PRESENT false) pOVN fOVN_STAT_MEAS_VALID false) pOVN 3
  have hfalls : flag (putB (putB s pOVN fOVN_STAT_OSC_PRESENT false) pOVN fOVN_STAT_MEAS_VALID false) pOVN
      fOVN_STAT_OSC_PRESENT = flag (putB s pOVN fOVN_STAT_OSC_PRESENT false) pOVN fOVN_STAT_OSC_PRESENT :=
    flag_putB_apart _ _ _ _ _ rfl (by decide) (by decide)
  refine ⟨?_, ?_, intRaw_raise_ovn _ (by decide), ?_, by rw [oscGone, raise_oven, putB_oven, putB_oven]⟩
  · rw [oscGone, hraise.flag (by decide) (by decide), hfalls, flag_putB_same _ _ _ _ (by decide) rfl]
  · exact (hraise.flag (by decide) (by decide)).trans (flag_putB_same _ _ _ _ (by decide) rfl)
  · exact (((otherRegs_putB s _ _ _).mono (by simp)).andThen (otherRegs_putB _ _ _ _) (by simp)).andThen hraise
      (by simp)

/-- R108: an active OSC_IN that is lost is left for the resonator where FALLBACK says so. -/
theorem leaveOsc_fallback {s : State} (hsrc : srcIsOsc s = true) (hback : onBackup s = false)
    (hruns : s.oven.stopped = false) (hfall : flag s pOVN fOVN_CFG_FALLBACK = true) :
    (leaveOsc s).oven.req = some (false, measValid s) := by
  simp only [leaveOsc, hsrc, hback, hruns, hfall, Bool.not_true, Bool.not_false, Bool.or_self, Bool.false_eq_true,
    if_false, Bool.and_self, if_true, updOven]

/-- R108, R111: without FALLBACK it is left for the backup oscillator. -/
theorem leaveOsc_toBackup {s : State} (hsrc : srcIsOsc s = true) (hback : onBackup s = false)
    (hfall : flag s pOVN fOVN_CFG_FALLBACK = false) :
    (leaveOsc s).oven.req = none ∧ (leaveOsc s).oven.toBackup = true := by
  simp only [leaveOsc, hsrc, hback, hfall, Bool.not_true, Bool.or_self, Bool.false_eq_true, if_false, Bool.false_and,
    updOven, and_self]

theorem oscLost_shows {s : State} (hpresent : flag s pOVN fOVN_STAT_OSC_PRESENT = true) :
    Answers (exec .oscLost s) fun t => flag t pOVN fOVN_STAT_OSC_PRESENT = false ∧ measValid t = false ∧
      intRaw t pOVN 3 = true ∧ OtherRegs s t [pOVN.adr rOVN_STAT, pOVN.adr rINT_RAW] ∧
      (srcIsOsc s = true → onBackup s = false → s.oven.stopped = false → flag s pOVN fOVN_CFG_FALLBACK = true →
        t.oven.req = some (false, measValid s)) ∧
      (srcIsOsc s = true → onBackup s = false → flag s pOVN fOVN_CFG_FALLBACK = false →
        t.oven.req = none ∧ t.oven.toBackup = true) := by
  obtain ⟨req, hdrop⟩ := dropOscRequest_eq s
  obtain ⟨hgone, hvalid, hint, hregs, hoven⟩ := oscGone_shows (leaveOsc (dropOscRequest s))
  rw [exec_oscLost hpresent, answers_next, hoven, hdrop]
  rw [hdrop] at hgone hvalid hint hregs
  have hleft : OtherRegs s (leaveOsc { s with oven := { s.oven with req := req } }) [] :=
    .of_regs (leaveOsc_regs _) _
  refine ⟨hgone, hvalid, hint, (hleft.mono (by simp)).andThen hregs (List.Subset.refl _), ?_, ?_⟩
  · exact fun hsrc hback hruns hfall =>
      leaveOsc_fallback (s := { s with oven := { s.oven with req := req } }) hsrc hback hruns hfall
  · exact fun hsrc hback hfall =>
      leaveOsc_toBackup (s := { s with oven := { s.oven with req := req } }) hsrc hback hfall

theorem exec_oscRestored {s : State} (hgone : flag s pOVN fOVN_STAT_OSC_PRESENT = false) :
    exec .oscRestored s = .next (raise (putB s pOVN fOVN_STAT_OSC_PRESENT true) pOVN 4) := by
  simp only [exec, execOscRestored, hgone, Bool.false_eq_true, if_false]

theorem oscRestored_shows {s : State} (hgone : flag s pOVN fOVN_STAT_OSC_PRESENT = false) :
    Answers (exec .oscRestored s) fun t => flag t pOVN fOVN_STAT_OSC_PRESENT = true ∧ intRaw t pOVN 4 = true ∧
      OtherRegs s t [pOVN.adr rOVN_STAT, pOVN.adr rINT_RAW] ∧ t.oven = s.oven := by
  have hstat := otherRegs_putB s pOVN fOVN_STAT_OSC_PRESENT true
  have hraise := otherRegs_raise (putB s pOVN fOVN_STAT_OSC_PRESENT true) pOVN 4
  rw [exec_oscRestored hgone, answers_next]
  refine ⟨?_, intRaw_raise_ovn _ (by decide), (hstat.mono (by simp)).andThen hraise (by simp),
    by rw [raise_oven, putB_oven]⟩
  rw [hraise.flag (by decide) (by decide), flag_putB_same _ _ _ _ (by decide) rfl]

/-! ### The comparison (R106) -/

/-- MEAS_VALID, OSC_MEAS and XCMP_SIG show the result of a comparison. -/
def measShown (s : State) (ppt : Int) (sig : Nat) : State :=
  put (wrN (putB s pOVN fOVN_STAT_MEAS_VALID true) pOVN rOVN_OSC_MEAS (unsign 32 (satS 32 ppt))) pOVN fOVN_XCMP_SIG_PPT
    (satU 16 sig)

theorem exec_measValid {s : State} (hpresent : flag s pOVN fOVN_STAT_OSC_PRESENT = true) (hwarm : settled s = true)
    (hnew : measValid s = false) (ppt : Int) (sig : Nat) :
    exec (.measValid ppt sig) s = .next (autoReturn (measShown s ppt sig) true) := by
  simp only [exec, execMeasValid, hpresent, hwarm, hnew, Bool.not_false, Bool.and_self, if_true, measShown]

theorem measShown_shows (s : State) (ppt : Int) (sig : Nat) :
    measValid (measShown s ppt sig) = true ∧ rdN (measShown s ppt sig) pOVN rOVN_OSC_MEAS = unsign 32 (satS 32 ppt) ∧
      get (measShown s ppt sig) pOVN fOVN_XCMP_SIG_PPT = min sig 0xFFFF ∧
      OtherRegs s (measShown s ppt sig) [pOVN.adr rOVN_STAT, pOVN.adr rOVN_OSC_MEAS, pOVN.adr rOVN_XCMP_SIG] := by
  have hstat := otherRegs_putB s pOVN fOVN_STAT_MEAS_VALID true
  have hmeas := otherRegs_wrN (putB s pOVN fOVN_STAT_MEAS_VALID true) pOVN rOVN_OSC_MEAS (unsign 32 (satS 32 ppt))
  have hsig := otherRegs_put
    (wrN (putB s pOVN fOVN_STAT_MEAS_VALID true) pOVN rOVN_OSC_MEAS (unsign 32 (satS 32 ppt))) pOVN fOVN_XCMP_SIG_PPT
    (satU 16 sig)
  refine ⟨?_, ?_, get_put_satU _ _ fOVN_XCMP_SIG_PPT _ (by decide), ?_⟩
  · rw [measValid, measShown, hsig.flag (by decide) (by decide), hmeas.flag (by decide) (by decide),
      flag_putB_same _ _ _ _ (by decide) rfl]
  · rw [measShown, hsig.rdN (by decide) (by decide), rdN_wrN_unsign]
  · exact ((hstat.mono (by simp)).andThen hmeas (by simp)).andThen hsig (by simp)

/-- Settles O23: each row is a few stores of the OVN page, read back through the frames of what follows them; the
requests that a row may make move no register. -/
theorem ovenAndOscIn : Obligations.OvenAndOscIn := by
  refine ⟨fun temp s hcold hband => ovnSettled_shows hcold hband,
    fun temp s hwarm hband => ovnUnsettled_shows hwarm hband, fun lim s hwarm => ?range,
    fun s hon => ovnFault_shows hon, fun s hpresent => oscLost_shows hpresent,
    fun s hgone => oscRestored_shows hgone, fun ppt sig s hpresent hwarm hnew => ?comparison⟩
  case range =>
    rw [exec_ovnRange hwarm, answers_next]
    exact ⟨doubts_doubt_same _ _ _ (by decide), otherRegs_doubt _ _ _ _⟩
  case comparison =>
    obtain ⟨hvalid, hmeas, hsig, hregs⟩ := measShown_shows s ppt sig
    have hreturn := otherRegs_autoReturn (measShown s ppt sig) true []
    rw [exec_measValid hpresent hwarm hnew, answers_next]
    exact ⟨(hreturn.flag (by decide) (by decide)).trans hvalid, (hreturn.rdN (by decide) (by decide)).trans hmeas,
      (hreturn.get (by decide) (by decide)).trans hsig, hregs.andThen hreturn (by simp)⟩

end Sys2Proof.Machine
end

section
/-! The frequency source (R107, R109–R113): the switch, the backup oscillator and the tuning of OSC_IN. -/

namespace Sys2Proof.Machine

/-! ### The retry (R107) -/

/-- A preferred source that is not the active one, and available, is requested. -/
theorem requestSwitch_available {s : State} (hother : prefersOsc s ≠ srcIsOsc s)
    (havail : srcAvailable s (prefersOsc s) = true) :
    requestSwitch s = updOven s fun o => { o with req := some (prefersOsc s, measValid s), toBackup := false } := by
  simp only [requestSwitch, bne_iff_ne.mpr hother, Bool.true_or, havail, Bool.and_self, if_true]

theorem exec_ovnRetry {r : Requester} {v : Word} {s : State} (hw : writable s r pOVN = true)
    (hretry : fOVN_CTRL_RETRY.of v.toNat = 1) : exec (.ovnRetry r v) s = .next (requestSwitch s) := by
  simp only [exec, execOvnRetry, onWrite_writable hw, hretry, if_true]

/-! ### What a change of source does to the engine (R100, R109) -/

/-- The registers of the rate (R46). -/
def rateRegs : List Nat :=
  [pTBE.adr rTBE_CLAMP_CNT, pTBE.adr rTBE_RATE_LO, pTBE.adr rTBE_RATE_HI, pTBE.adr rTBE_PULL, pDSC.adr rDSC_FREQ]

theorem otherRegs_setRate (s : State) (pull : Int) : OtherRegs s (setRate s pull) rateRegs := by
  simp only [setRate]
  generalize (if pull < -((get s pTBE fTBE_SLEW_LIMIT_PPB : Int) * 1000) then _ else _ : Int) = clamped
  have hcount : OtherRegs s (if clamped = pull then s else bump s pTBE rTBE_CLAMP_CNT) rateRegs := by
    split
    · exact .refl s _
    · exact (otherRegs_bump s _ _).mono (by simp [rateRegs])
  exact ((hcount.andThen (otherRegs_wr64 _ _ _ _ _) (by simp [rateRegs])).andThen (otherRegs_wrN _ _ _ _)
    (by simp [rateRegs])).andThen (otherRegs_wrN _ _ _ _) (by simp [rateRegs])

/-- Of the state beside the registers the rate changes nothing. -/
theorem setRate_leaves (s : State) (pull : Int) : Leaves (fun _ => False) s (setRate s pull) :=
  kept_setRate (leaves_closed _ s) s pull (leaves_refl _ s)

/-- The registers of the holdover model. -/
def modelRegs : List Nat :=
  [pDSC.adr rDSC_MODEL_FREQ, pDSC.adr rDSC_MODEL_TCOEF, pDSC.adr rDSC_MODEL_AGE, pDSC.adr rDSC_MODEL_STAT,
    pDSC.adr rDSC_STAT]

/-- The seeds of the model stand in its registers, and no hour of LOCKED time is counted. -/
def modelSeeded (s : State) (bound : Nat) : State :=
  put (put (put (put (wrN s pDSC rDSC_MODEL_FREQ 0) pDSC fDSC_MODEL_TCOEF_TCOEF 0) pDSC fDSC_MODEL_AGE_RATE 0) pDSC
    fDSC_MODEL_AGE_BOUND bound) pDSC fDSC_MODEL_STAT_LOCK_HOURS 0

/-- The source of the model is its seeds, and it is no longer ready. -/
def modelUnready (s : State) : State :=
  putB (putB (put s pDSC fDSC_MODEL_STAT_SRC 3) pDSC fDSC_MODEL_STAT_HOLD_READY false) pDSC fDSC_STAT_HOLD_READY false

theorem reloadModel_regs (s : State) :
    (reloadModel s).regs = (modelUnready (modelSeeded s (get s pDSC fDSC_AGE_BOUND_MPPB_D))).regs := rfl

theorem otherRegs_modelSeeded (s : State) (bound : Nat) : OtherRegs s (modelSeeded s bound) modelRegs :=
  (((((otherRegs_wrN s _ _ _).mono (by simp [modelRegs])).andThen (otherRegs_put _ _ _ _) (by simp [modelRegs])).andThen
    (otherRegs_put _ _ _ _) (by simp [modelRegs])).andThen (otherRegs_put _ _ _ _) (by simp [modelRegs])).andThen
    (otherRegs_put _ _ _ _) (by simp [modelRegs])

theorem modelUnready_shows (s : State) :
    get (modelUnready s) pDSC fDSC_MODEL_STAT_SRC = 3 ∧ flag (modelUnready s) pDSC fDSC_MODEL_STAT_HOLD_READY = false ∧
      OtherRegs s (modelUnready s) modelRegs := by
  have hsrc := otherRegs_put s pDSC fDSC_MODEL_STAT_SRC 3
  have hmodel := otherRegs_putB (put s pDSC fDSC_MODEL_STAT_SRC 3) pDSC fDSC_MODEL_STAT_HOLD_READY false
  have hstat := otherRegs_putB (putB (put s pDSC fDSC_MODEL_STAT_SRC 3) pDSC fDSC_MODEL_STAT_HOLD_READY false) pDSC
    fDSC_STAT_HOLD_READY false
  have hkept : get (putB (put s pDSC fDSC_MODEL_STAT_SRC 3) pDSC fDSC_MODEL_STAT_HOLD_READY false) pDSC
      fDSC_MODEL_STAT_SRC = get (put s pDSC fDSC_MODEL_STAT_SRC 3) pDSC fDSC_MODEL_STAT_SRC :=
    get_put_apart _ _ _ _ _ rfl (by decide) (by decide)
  refine ⟨?_, ?_, ?_⟩
  · exact (hstat.get (by decide) (by decide)).trans (hkept.trans (get_put_same _ _ _ _ (by decide)))
  · exact (hstat.flag (by decide) (by decide)).trans (flag_putB_same _ _ _ _ (by decide) rfl)
  · exact ((hsrc.mono (by simp [modelRegs])).andThen hmodel (by simp [modelRegs])).andThen hstat (by simp [modelRegs])

/-- R100: the model reloads from the seeds, and is no longer ready. -/
theorem reloadModel_shows (s : State) :
    get (reloadModel s) pDSC fDSC_MODEL_STAT_SRC = 3 ∧ flag (reloadModel s) pDSC fDSC_MODEL_STAT_HOLD_READY = false ∧
      OtherRegs s (reloadModel s) modelRegs := by
  obtain ⟨hsrc, hready, hunready⟩ := modelUnready_shows (modelSeeded s (get s pDSC fDSC_AGE_BOUND_MPPB_D))
  have hlast := OtherRegs.of_regs (reloadModel_regs s) []
  exact ⟨(hlast.get (by decide) (by decide)).trans hsrc, (hlast.flag (by decide) (by decide)).trans hready,
    ((otherRegs_modelSeeded s _).trans hunready).andThen hlast (by simp)⟩

/-- A change of source moves the servo beside the registers, reloads the model and sets the rate. -/
theorem sourceSwitched_eq (s : State) (ppt : Int) :
    ∃ u pull, sourceSwitched s ppt = setRate (reloadModel u) pull ∧ u.regs = s.regs := by
  simp only [sourceSwitched]
  refine ⟨_, _, rfl, ?_⟩
  split
  · rfl
  · rfl

@[simp] theorem sourceSwitched_oven (s : State) (ppt : Int) : (sourceSwitched s ppt).oven = s.oven :=
  (kept_sourceSwitched (leaves_closed (· = .dsc) s) rfl s ppt (leaves_refl _ s) .oven).resolve_left (by decide)

theorem sourceSwitched_shows (s : State) (ppt : Int) :
    get (sourceSwitched s ppt) pDSC fDSC_MODEL_STAT_SRC = 3 ∧
      flag (sourceSwitched s ppt) pDSC fDSC_MODEL_STAT_HOLD_READY = false ∧
      OtherRegs s (sourceSwitched s ppt) (modelRegs ++ rateRegs) := by
  obtain ⟨u, pull, heq, hregs⟩ := sourceSwitched_eq s ppt
  obtain ⟨hsrc, hready, hmodel⟩ := reloadModel_shows u
  have hrate := otherRegs_setRate (reloadModel u) pull
  rw [heq]
  refine ⟨(hrate.get (by decide) (by decide)).trans hsrc, (hrate.flag (by decide) (by decide)).trans hready, ?_⟩
  exact ((OtherRegs.of_regs hregs _).andThen hmodel (by simp)).andThen hrate (by simp)

/-! ### The switch (R109–R111) -/

/-- No request stands any more. -/
def requestDone (s : State) : State := updOven s fun o => { o with req := none, toBackup := false }

/-- The synthesizer moves onto the backup oscillator or off it: BACKUP and FREF_NONE say so. -/
def backupSet (s : State) (b : Bool) : State :=
  doubt (putB (requestDone s) pOVN fOVN_STAT_BACKUP b) pOVN 4 b

/-- The switch is counted and raises its interrupt; FREF_LOST follows the source. -/
def switchCounted (s : State) : State := frefLost (raise (bump s pOVN rOVN_SWITCH_CNT) pOVN 2)

/-- Another source than the one shown is taken. -/
def sourceTaken (s : State) (osc : Bool) : State := switchCounted (putB (backupSet s false) pOVN fOVN_STAT_ACTIVE_SRC osc)

/-- R110: the source is not calibrated. -/
def uncalibrated (s : State) : State := doubt (putB s pOVN fOVN_STAT_UNCAL true) pOVN 5 true

theorem switchTo_other {s : State} {osc : Bool} (h : srcIsOsc s ≠ osc) (valid : Bool) :
    switchTo s osc valid =
      if osc then sourceSwitched (sourceTaken s osc) (-(oscMeas s))
      else if valid then sourceSwitched (sourceTaken s osc) (oscMeas s)
      else uncalibrated (sourceSwitched (sourceTaken s osc) 0) := by
  simp only [switchTo, beq_eq_false_iff_ne.mpr h, Bool.false_eq_true, if_false, sourceTaken, switchCounted, backupSet,
    requestDone, uncalibrated]

theorem exec_srcSwitch {s : State} {osc valid : Bool} (h : s.oven.req = some (osc, valid)) :
    exec .srcSwitch s = .next (switchTo s osc valid) := by
  simp only [exec, execSrcSwitch, h]

theorem backupSet_shows (s : State) (b : Bool) :
    let t := backupSet s b
    onBackup t = b ∧ doubts t pOVN 4 = b ∧ srcIsOsc t = srcIsOsc s ∧
      t.oven = { s.oven with req := none, toBackup := false } ∧
      OtherRegs s t [pOVN.adr rOVN_STAT, pOVN.adr rDOUBT_RAW] := by
  have hoven : OtherRegs s (requestDone s) [] := .of_regs rfl _
  have hstat := otherRegs_putB (requestDone s) pOVN fOVN_STAT_BACKUP b
  have hdoubt := otherRegs_doubt (putB (requestDone s) pOVN fOVN_STAT_BACKUP b) pOVN 4 b
  have hsrc : srcIsOsc (putB (requestDone s) pOVN fOVN_STAT_BACKUP b) = srcIsOsc (requestDone s) :=
    flag_putB_apart _ _ _ _ _ rfl (by decide) (by decide)
  refine ⟨?_, doubts_doubt_same _ _ _ (by decide), ?_, by rw [backupSet, doubt_oven, putB_oven, requestDone, updOven],
    ((hoven.mono (by simp)).andThen hstat (by simp)).andThen hdoubt (by simp)⟩
  · exact (hdoubt.flag (by decide) (by decide)).trans (flag_putB_same _ _ _ _ (by decide) rfl)
  · exact (hdoubt.flag (by decide) (by decide)).trans (hsrc.trans (hoven.flag (by decide) (by decide)))

theorem otherRegs_frefLost (s : State) : OtherRegs s (frefLost s) [pOVN.adr rDOUBT_RAW] := otherRegs_doubt _ _ _ _

theorem switchCounted_shows (s : State) :
    let t := switchCounted s
    OtherRegs s t [pOVN.adr rOVN_SWITCH_CNT, pOVN.adr rINT_RAW, pOVN.adr rDOUBT_RAW] ∧ t.oven = s.oven ∧
      doubts t pOVN 4 = doubts s pOVN 4 ∧ intRaw t pOVN 2 = true ∧
      rdN t pOVN rOVN_SWITCH_CNT = min (rdN s pOVN rOVN_SWITCH_CNT + 1) 0xFFFFFFFF := by
  have hcount := otherRegs_bump s pOVN rOVN_SWITCH_CNT
  have hraise := otherRegs_raise (bump s pOVN rOVN_SWITCH_CNT) pOVN 2
  have hlost := otherRegs_frefLost (raise (bump s pOVN rOVN_SWITCH_CNT) pOVN 2)
  refine ⟨((hcount.mono (by simp)).andThen hraise (by simp)).andThen hlost (by simp), ?_, ?_, ?_, ?_⟩
  · rw [switchCounted, frefLost, doubt_oven, raise_oven, bump_oven]
  · rw [switchCounted, frefLost, doubts_doubt_ne _ _ _ (by decide) (by decide), hraise.doubts 4 (by decide) (by decide),
      hcount.doubts 4 (by decide) (by decide)]
  · exact (hlost.intRaw 2 (by decide) (by decide)).trans (intRaw_raise_ovn _ (by decide))
  · rw [switchCounted, hlost.rdN (by decide) (by decide), hraise.rdN (by decide) (by decide), rdN_bump_same]

theorem sourceTaken_shows (s : State) (osc : Bool) :
    let t := sourceTaken s osc
    srcIsOsc t = osc ∧ t.oven.req = none ∧ onBackup t = false ∧ doubts t pOVN 4 = false ∧ intRaw t pOVN 2 = true ∧
      rdN t pOVN rOVN_SWITCH_CNT = min (rdN s pOVN rOVN_SWITCH_CNT + 1) 0xFFFFFFFF := by
  obtain ⟨hback, hnone, _, hreq, hoff⟩ := backupSet_shows s false
  have hsrc := otherRegs_putB (backupSet s false) pOVN fOVN_STAT_ACTIVE_SRC osc
  have hshown : srcIsOsc (putB (backupSet s false) pOVN fOVN_STAT_ACTIVE_SRC osc) = osc :=
    flag_putB_same _ _ _ _ (by decide) rfl
  have hstays : onBackup (putB (backupSet s false) pOVN fOVN_STAT_ACTIVE_SRC osc) = onBackup (backupSet s false) :=
    flag_putB_apart _ _ _ _ _ rfl (by decide) (by decide)
  obtain ⟨hregs, hoven, hdoubt, hint, hcount⟩ :=
    switchCounted_shows (putB (backupSet s false) pOVN fOVN_STAT_ACTIVE_SRC osc)
  refine ⟨(hregs.flag (by decide) (by decide)).trans hshown, ?_, ?_, ?_, hint, ?_⟩
  · rw [sourceTaken, hoven, putB_oven, hreq]
  · exact (hregs.flag (by decide) (by decide)).trans (hstays.trans hback)
  · rw [sourceTaken, hdoubt, hsrc.doubts 4 (by decide) (by decide), hnone]
  · rw [sourceTaken, hcount, hsrc.rdN (by decide) (by decide), hoff.rdN (by decide) (by decide)]

/-- What a switch to another source shows, whether or not it is calibrated. -/
def SwitchShown (s : State) (osc : Bool) (t : State) : Prop :=
  srcIsOsc t = osc ∧ t.oven.req = none ∧ onBackup t = false ∧ doubts t pOVN 4 = false ∧ intRaw t pOVN 2 = true ∧
    rdN t pOVN rOVN_SWITCH_CNT = min (rdN s pOVN rOVN_SWITCH_CNT + 1) 0xFFFFFFFF ∧
    get t pDSC fDSC_MODEL_STAT_SRC = 3 ∧ flag t pDSC fDSC_MODEL_STAT_HOLD_READY = false

theorem switchShown_sourceSwitched (s : State) (osc : Bool) (ppt : Int) :
    SwitchShown s osc (sourceSwitched (sourceTaken s osc) ppt) := by
  obtain ⟨hsrc, hreq, hback, hnone, hint, hcount⟩ := sourceTaken_shows s osc
  obtain ⟨hthree, hready, hregs⟩ := sourceSwitched_shows (sourceTaken s osc) ppt
  exact ⟨(hregs.flag (by decide) (by decide)).trans hsrc, by rw [sourceSwitched_oven, hreq],
    (hregs.flag (by decide) (by decide)).trans hback, (hregs.doubts 4 (by decide) (by decide)).trans hnone,
    (hregs.intRaw 2 (by decide) (by decide)).trans hint, (hregs.rdN (by decide) (by decide)).trans hcount, hthree, hready⟩

/-- UNCAL and its condition are neither of the other signs of a switch. -/
theorem switchShown_uncalibrated {s t : State} {osc : Bool} (h : SwitchShown s osc t) :
    SwitchShown s osc (uncalibrated t) ∧ flag (uncalibrated t) pOVN fOVN_STAT_UNCAL = true ∧
      doubts (uncalibrated t) pOVN 5 = true := by
  obtain ⟨hsrc, hreq, hback, hnone, hint, hcount, hthree, hready⟩ := h
  have hstat := otherRegs_putB t pOVN fOVN_STAT_UNCAL true
  have hdoubt := otherRegs_doubt (putB t pOVN fOVN_STAT_UNCAL true) pOVN 5 true
  have hends := (hstat.mono (by simp)).andThen (l := [pOVN.adr rOVN_STAT, pOVN.adr rDOUBT_RAW]) hdoubt (by simp)
  have hapart : ∀ f : Fld, f.off = rOVN_STAT → f.lo + f.w ≤ 5 →
      flag (uncalibrated t) pOVN f = flag t pOVN f := fun f hoff hlo =>
    (hdoubt.flag (by rw [hoff]; decide) (by rw [hoff]; decide)).trans
      (flag_putB_apart _ _ _ _ _ hoff (by omega) (.inl hlo))
  refine ⟨⟨(hapart _ rfl (by decide)).trans hsrc, ?_, (hapart _ rfl (by decide)).trans hback, ?_,
    (hends.intRaw 2 (by decide) (by decide)).trans hint, (hends.rdN (by decide) (by decide)).trans hcount,
    (hends.get (by decide) (by decide)).trans hthree, (hends.flag (by decide) (by decide)).trans hready⟩, ?_,
    doubts_doubt_same _ _ _ (by decide)⟩
  · rw [uncalibrated, doubt_oven, putB_oven, hreq]
  · rw [uncalibrated, doubts_doubt_ne _ _ _ (by decide) (by decide), hstat.doubts 4 (by decide) (by decide),
      hnone]
  · exact (hdoubt.flag (by decide) (by decide)).trans (flag_putB_same _ _ _ _ (by decide) rfl)

/-- R109, R110: a switch shows its source, and one to the resonator without a valid comparison is uncalibrated. -/
theorem switchTo_shows {s : State} {osc : Bool} (h : srcIsOsc s ≠ osc) (valid : Bool) :
    SwitchShown s osc (switchTo s osc valid) ∧ (osc = false → valid = false →
      flag (switchTo s osc valid) pOVN fOVN_STAT_UNCAL = true ∧ doubts (switchTo s osc valid) pOVN 5 = true) := by
  have hshown := switchShown_sourceSwitched s osc
  rw [switchTo_other h]
  split
  · next hosc => exact ⟨hshown _, fun hres => absurd (hosc.symm.trans hres) (by decide)⟩
  · split
    · next hvalid => exact ⟨hshown _, fun _ hinvalid => absurd (hvalid.symm.trans hinvalid) (by decide)⟩
    · obtain ⟨hshown', huncal⟩ := switchShown_uncalibrated (hshown 0)
      exact ⟨hshown', fun _ _ => huncal⟩

/-! ### The backup oscillator (R111) -/

theorem exec_backupEnter_lost {s : State} (h : s.oven.toBackup = true) :
    exec (.backupEnter false) s = .next (enterBackup s) := by
  simp only [exec, execBackupEnter, Bool.false_eq_true, if_false, h, Bool.true_or, if_true]

theorem enterBackup_shows (s : State) :
    let t := enterBackup s
    onBackup t = true ∧ doubts t pOVN 4 = true ∧ srcIsOsc t = srcIsOsc s ∧ doubts t pOVN 3 = prefersOsc s ∧
      t.oven.req = none ∧ t.oven.toBackup = false ∧ OtherRegs s t [pOVN.adr rOVN_STAT, pOVN.adr rDOUBT_RAW] := by
  obtain ⟨hback, hnone, hsrc, hoven, hregs⟩ := backupSet_shows s true
  have hlost := otherRegs_frefLost (backupSet s true)
  have hprefers : prefersOsc (backupSet s true) = prefersOsc s := hregs.flag (by decide) (by decide)
  intro t
  rw [show t = frefLost (backupSet s true) from rfl]
  refine ⟨(hlost.flag (by decide) (by decide)).trans hback, ?_, (hlost.flag (by decide) (by decide)).trans hsrc, ?_, ?_,
    ?_, hregs.andThen hlost (by simp)⟩
  · rw [frefLost, doubts_doubt_ne _ _ _ (by decide) (by decide), hnone]
  · rw [frefLost, doubts_doubt_same _ _ _ (by decide), hback, hprefers, Bool.or_true, Bool.and_true]
  · rw [frefLost, doubt_oven, hoven]
  · rw [frefLost, doubt_oven, hoven]

/-! ### Tuning (R113) -/

theorem abs_signOf_le (i : Int) : |signOf i| ≤ 1 := by
  simp only [signOf]
  split
  · decide
  · split
    · decide
    · decide

theorem abs_signOf_mul_le (i j : Int) : |signOf i * signOf j| ≤ 1 := by
  rw [abs_mul]
  exact mul_le_one₀ (abs_signOf_le i) (abs_nonneg _) (abs_signOf_le j)

/-- The code steps where it stays within its range. -/
theorem stepTune_shows {s : State} {d : Int} (hlo : 0 ≤ (get s pOVN fOVN_TUNE_CODE : Int) + d)
    (hhi : (get s pOVN fOVN_TUNE_CODE : Int) + d ≤ 0xFFFF) (gain : Int) :
    intRaw (stepTune s d gain) pOVN 5 = true ∧ (stepTune s d gain).clk = s.clk ∧ (stepTune s d gain).oven = s.oven ∧
      (get (stepTune s d gain) pOVN fOVN_TUNE_CODE : Int) = get s pOVN fOVN_TUNE_CODE + d := by
  have hin : ¬ ((get s pOVN fOVN_TUNE_CODE : Int) + d < 0 ∨ 0xFFFF < (get s pOVN fOVN_TUNE_CODE : Int) + d) := by omega
  have hcode : get (put s pOVN fOVN_TUNE_CODE ((get s pOVN fOVN_TUNE_CODE : Int) + d).toNat) pOVN fOVN_TUNE_CODE =
      ((get s pOVN fOVN_TUNE_CODE : Int) + d).toNat % 2 ^ 16 := get_put_same _ _ _ _ (by decide)
  simp only [stepTune, hin, if_false]
  generalize hs1 : put s pOVN fOVN_TUNE_CODE ((get s pOVN fOVN_TUNE_CODE : Int) + d).toNat = s1 at hcode ⊢
  generalize hs2 : updServo s1 (fun v => { v with freq := v.freq - gain * d * 65536 }) = s2
  have hleaves := setRate_leaves s2 (signed 32 (rdN s2 pTBE rTBE_PULL))
  have hrate := otherRegs_setRate s2 (signed 32 (rdN s2 pTBE rTBE_PULL))
  generalize setRate s2 (signed 32 (rdN s2 pTBE rTBE_PULL)) = s3 at hleaves hrate ⊢
  have hclk : s3.clk = s2.clk := (hleaves .clk).resolve_left id
  have hoven : s3.oven = s2.oven := (hleaves .oven).resolve_left id
  have hservo : OtherRegs s1 s2 [] := .of_regs (by rw [← hs2, updServo]) _
  refine ⟨intRaw_raise_ovn _ (by decide), ?_, ?_, ?_⟩
  · rw [raise_clk, hclk, ← hs2, updServo, ← hs1, put_clk]
  · rw [raise_oven, hoven, ← hs2, updServo, ← hs1, put_oven]
  · rw [(otherRegs_raise s3 pOVN 5).get (by decide) (by decide), hrate.get (by decide) (by decide),
      hservo.get (by decide) (by decide), hcode]
    omega

/-- The state that a step of the code is run from: the minute has come, and the next one begins. -/
def tuneFrom (s : State) (c : Clock) : State :=
  updOven { s with clk := c } fun o => { o with minute := mono { s with clk := c } }

theorem exec_tuneStep {s : State} (hmode : get s pOVN fOVN_CFG_TUNE_MODE = 2) (hsrc : srcIsOsc s = true)
    (hback : onBackup s = false) (hlocked : servoState s = 2) (hgain : getS s pOVN fOVN_TUNE_CFG_GAIN ≠ 0)
    (hfar : centrePpt s < (signed 32 (rdN s pDSC rDSC_FREQ)).natAbs) :
    ∃ c, exec .tuneStep s = .next (stepTune (tuneFrom s c)
      (signOf (signed 32 (rdN s pDSC rDSC_FREQ)) * signOf (getS s pOVN fOVN_TUNE_CFG_GAIN))
      (getS s pOVN fOVN_TUNE_CFG_GAIN)) := by
  obtain ⟨c, hadv⟩ := advMono_eq s (s.oven.minute + 60000000000)
  have hsrc' : srcIsOsc (tuneFrom s c) = true := hsrc
  have hback' : onBackup (tuneFrom s c) = false := hback
  have hlocked' : get (tuneFrom s c) pDSC fDSC_STAT_STATE = 2 := hlocked
  have hgain' : getS (tuneFrom s c) pOVN fOVN_TUNE_CFG_GAIN ≠ 0 := hgain
  have hfar' : centrePpt (tuneFrom s c) < (signed 32 (rdN (tuneFrom s c) pDSC rDSC_FREQ)).natAbs := hfar
  refine ⟨c, ?_⟩
  simp only [exec, execTuneStep, hmode, if_true, hadv]
  rw [show updOven { s with clk := c } (fun o => { o with minute := mono { s with clk := c } }) = tuneFrom s c from rfl,
    if_pos (by simp [hsrc', hback', hlocked', hgain', hfar'])]
  rfl

/-! ### The rows -/

/-- Settles O24: a switch and the backup oscillator are read back through the frames of what follows them, and the
code, which stands at neither rail, stays in its range over a step of one. -/
theorem frequencySource : Obligations.FrequencySource := by
  refine ⟨fun r v s hw hretry hother havail => ?retry, fun osc valid s hreq hother => ?switch, fun s hlost => ?backup,
    fun s hmode hsrc hback hlocked hgain hfar hlo hhi => ?tune⟩
  case retry =>
    rw [exec_ovnRetry hw hretry, requestSwitch_available hother havail, answers_next]
    exact ⟨rfl, rfl, rfl⟩
  case switch =>
    obtain ⟨⟨hsrc, hnone, hback, hfref, hint, hcount, hmodel, hready⟩, huncal⟩ := switchTo_shows hother valid
    rw [exec_srcSwitch hreq, answers_next]
    exact ⟨hsrc, hnone, hback, hfref, hint, hcount, hmodel, hready, huncal⟩
  case backup =>
    rw [exec_backupEnter_lost hlost, answers_next]
    exact enterBackup_shows s
  case tune =>
    obtain ⟨c, hexec⟩ := exec_tuneStep hmode hsrc hback hlocked hgain hfar
    obtain ⟨hdlo, hdhi⟩ := abs_le.mp
      (abs_signOf_mul_le (signed 32 (rdN s pDSC rDSC_FREQ)) (getS s pOVN fOVN_TUNE_CFG_GAIN))
    have hcode : get (tuneFrom s c) pOVN fOVN_TUNE_CODE = get s pOVN fOVN_TUNE_CODE := rfl
    obtain ⟨hint, hclk, hoven, hstep⟩ := stepTune_shows (s := tuneFrom s c)
      (d := signOf (signed 32 (rdN s pDSC rDSC_FREQ)) * signOf (getS s pOVN fOVN_TUNE_CFG_GAIN))
      (by omega) (by omega) (getS s pOVN fOVN_TUNE_CFG_GAIN)
    rw [hexec, answers_next]
    exact ⟨hint, by rw [hoven, mono, hclk]; rfl, hstep⟩

end Sys2Proof.Machine
end

section
/-! The front end, its gain and the antenna bias (R120–R125): what the rows show. -/

namespace Sys2Proof.Machine

/-! ### The clock and a register of several fields -/

/-- The clock has reached an instant that it can show (R44). -/
theorem le_mono_advMono {ns : Nat} (h : ns < 2 ^ 64) (s : State) : ns ≤ mono (advMono s ns) := by
  rw [advMono, advP]
  split
  · rw [mono, BitVec.toNat_ofNat, Nat.mod_eq_of_lt (by omega)]
    omega
  · rw [mono]
    omega

theorem get_wrN_same (s : State) (p : Pg) (f : Fld) (v : Nat) (h : f.lo + f.w ≤ 32) :
    get (wrN s p f.off v) p f = f.of v := by
  rw [get, rdN_wrN_same, Fld.of_mod f h]

theorem get_put_lt (s : State) (p : Pg) (f : Fld) {v : Nat} (h : f.lo + f.w ≤ 32) (hv : v < 2 ^ f.w) :
    get (put s p f v) p f = v := by
  rw [get_put_same s p f v h, Nat.mod_eq_of_lt hv]

/-- What the Radio die holds beside its registers moves none of them. -/
theorem otherRegs_updRad (s : State) (f : Radio → Radio) (l : List Nat) : OtherRegs s (updRad s f) l := .of_regs rfl l

/-- An interrupt bit of the GRX page stands after its event. -/
theorem intRaw_raise_grx (s : State) {bit : Nat} (hb : bit < 32) : intRaw (raise s pGRX bit) pGRX bit = true :=
  intRaw_raise_same (.inr rfl) s hb

/-! ### Warm-up and lock (R120) -/

/-- The warm-up is over, and the synthesizers are locked. -/
def gfWarm (s : State) : State := putB (putB s pGRX fGRX_STAT_WARMUP false) pGRX fGRX_STAT_PLL_LOCK true

theorem exec_gfWarmupEnd {s : State} (hon : gfOn s = true) (hwarm : flag s pGRX fGRX_STAT_WARMUP = true) :
    ∃ c, exec .gfWarmupEnd s = .next (gfWarm { s with clk := c }) := by
  obtain ⟨c, hadv⟩ := advMono_eq s (s.rad.gfFrom + 2000000)
  refine ⟨c, ?_⟩
  simp only [exec, execGfWarmupEnd, hon, hwarm, Bool.and_self, if_true, hadv, gfWarm]

theorem gfWarm_shows (s : State) :
    flag (gfWarm s) pGRX fGRX_STAT_WARMUP = false ∧ flag (gfWarm s) pGRX fGRX_STAT_PLL_LOCK = true ∧
      gfOn (gfWarm s) = gfOn s ∧ OtherRegs s (gfWarm s) [pGRX.adr rGRX_STAT] := by
  have hlocked : ∀ f : Fld, f.off = rGRX_STAT → f.lo + f.w ≤ 1 ∨ 2 ≤ f.lo ∧ f.lo + f.w ≤ 32 →
      flag (gfWarm s) pGRX f = flag (putB s pGRX fGRX_STAT_WARMUP false) pGRX f := fun f hoff hlo =>
    flag_putB_apart _ _ fGRX_STAT_PLL_LOCK f _ hoff (by omega) (hlo.imp id And.left)
  refine ⟨?_, flag_putB_same _ _ _ _ (by decide) rfl, ?_, ?_⟩
  · rw [hlocked _ rfl (.inr (by decide)), flag_putB_same _ _ _ _ (by decide) rfl]
  · exact (hlocked _ rfl (.inl (by decide))).trans
      (flag_putB_apart _ _ fGRX_STAT_WARMUP fGRX_STAT_GF_ON _ rfl (by decide) (.inl (by decide)))
  · exact (otherRegs_putB s pGRX fGRX_STAT_WARMUP false).trans (otherRegs_putB _ pGRX fGRX_STAT_PLL_LOCK true)

theorem gfWarmupEnd_shows {s : State} (hon : gfOn s = true) (hwarm : flag s pGRX fGRX_STAT_WARMUP = true) :
    Answers (exec .gfWarmupEnd s) fun t => flag t pGRX fGRX_STAT_WARMUP = false ∧
      flag t pGRX fGRX_STAT_PLL_LOCK = true ∧ samplesFlow t = true ∧ OtherRegs s t [pGRX.adr rGRX_STAT] := by
  obtain ⟨c, hexec⟩ := exec_gfWarmupEnd hon hwarm
  obtain ⟨hover, hlock, hstays, hregs⟩ := gfWarm_shows { s with clk := c }
  have hon' : gfOn (gfWarm { s with clk := c }) = true := hstays.trans hon
  rw [hexec, answers_next]
  exact ⟨hover, hlock, by simp only [samplesFlow, hon', hover, hlock, Bool.not_false, Bool.and_self], hregs⟩

theorem exec_pllLockReturn {s : State} (hon : gfOn s = true) (hlost : flag s pGRX fGRX_STAT_PLL_LOCK = false) :
    exec .pllLockReturn s = .next (doubt (putB s pGRX fGRX_STAT_PLL_LOCK true) pGRX 2 false) := by
  simp only [exec, execPllLockReturn, hon, hlost, Bool.not_false, Bool.and_self, if_true]

theorem pllLockReturn_shows {s : State} (hon : gfOn s = true) (hlost : flag s pGRX fGRX_STAT_PLL_LOCK = false) :
    Answers (exec .pllLockReturn s) fun t => flag t pGRX fGRX_STAT_PLL_LOCK = true ∧ doubts t pGRX 2 = false ∧
      OtherRegs s t [pGRX.adr rGRX_STAT, pGRX.adr rDOUBT_RAW] := by
  have hlock := otherRegs_putB s pGRX fGRX_STAT_PLL_LOCK true
  have hdoubt := otherRegs_doubt (putB s pGRX fGRX_STAT_PLL_LOCK true) pGRX 2 false
  rw [exec_pllLockReturn hon hlost, answers_next]
  refine ⟨?_, doubts_doubt_same _ _ _ (by decide), (hlock.mono (by simp)).andThen hdoubt (by simp)⟩
  rw [hdoubt.flag (by decide) (by decide), flag_putB_same _ _ _ _ (by decide) rfl]

/-! ### The gain (R121) -/

/-- The antenna readings are shown, and the end of a ramp. -/
def antShown (s : State) (ma mv : Nat) : State :=
  let s0 := wrN s pGRX rGRX_ANT_MEAS (satU 8 ma + satU 16 mv * 0x100)
  if s.rad.biasFrom + 200000 ≤ mono s then putB s0 pGRX fGRX_ANT_STAT_RAMP false else s0

/-- AGC.GAIN, OUTER and CLIP of an update. -/
def agcWord (gain outer clip : Nat) : Nat := gain + satU 8 outer * 0x100 + satU 8 clip * 0x10000

/-- The gain joins the sums; one at a rail has stood there since `now` at the latest. -/
def gainTaken (s : State) (now gain : Nat) : State :=
  updRad (drawn s) fun r =>
    { r with gainSum := r.gainSum + gain, gainN := r.gainN + 1
             rail := if gain == 0 || gain == 127 then some (r.rail.getD now) else none }

/-- AGC_RAIL falls where the gain stands at no rail. -/
def railJudged (s : State) (gain : Nat) : State :=
  if gain == 0 || gain == 127 then s else doubt s pGRX 3 false

theorem antShown_shows (s : State) (ma mv : Nat) :
    get (antShown s ma mv) pGRX fGRX_ANT_MEAS_MA = min ma 255 ∧
      get (antShown s ma mv) pGRX fGRX_ANT_MEAS_MV = min mv 0xFFFF ∧
      OtherRegs s (antShown s ma mv) [pGRX.adr rGRX_ANT_MEAS, pGRX.adr rGRX_ANT_STAT] := by
  have hmeas := otherRegs_wrN s pGRX rGRX_ANT_MEAS (satU 8 ma + satU 16 mv * 0x100)
  have hramp : OtherRegs (wrN s pGRX rGRX_ANT_MEAS (satU 8 ma + satU 16 mv * 0x100)) (antShown s ma mv)
      [pGRX.adr rGRX_ANT_STAT] := by
    simp only [antShown]
    split
    · exact otherRegs_putB _ _ _ _
    · exact .refl _ _
  refine ⟨?_, ?_, (hmeas.mono (by simp)).andThen hramp (by simp)⟩
  · rw [hramp.get (by decide) (by decide), get_wrN_same _ _ fGRX_ANT_MEAS_MA _ (by decide)]
    simp only [Fld.of, satU]
    omega
  · rw [hramp.get (by decide) (by decide), get_wrN_same _ _ fGRX_ANT_MEAS_MV _ (by decide)]
    simp only [Fld.of, satU]
    omega

theorem agcWord_fields {gain : Nat} (h : gain < 128) (outer clip : Nat) :
    fGRX_AGC_GAIN.of (agcWord gain outer clip) = gain ∧ fGRX_AGC_OUTER.of (agcWord gain outer clip) = min outer 255 ∧
      fGRX_AGC_CLIP.of (agcWord gain outer clip) = min clip 255 := by
  simp only [Fld.of, agcWord, satU]
  omega

theorem otherRegs_gainTaken (s : State) (now gain : Nat) (l : List Nat) : OtherRegs s (gainTaken s now gain) l :=
  (OtherRegs.of_regs (drawn_regs s) l).trans (otherRegs_updRad _ _ l)

theorem otherRegs_railJudged (s : State) (gain : Nat) : OtherRegs s (railJudged s gain) [pGRX.adr rDOUBT_RAW] := by
  simp only [railJudged]
  split
  · exact .refl s _
  · exact otherRegs_doubt _ _ _ _

/-- R121: a gain between the rails stands at none. -/
theorem railJudged_between {gain : Nat} (hlo : 0 < gain) (hhi : gain < 127) (s : State) (now : Nat) :
    doubts (railJudged (gainTaken s now gain) gain) pGRX 3 = false ∧
      (railJudged (gainTaken s now gain) gain).rad.rail = none := by
  have hrail : (gain == 0 || gain == 127) = false := by
    rw [beq_eq_false_iff_ne.mpr (by omega), beq_eq_false_iff_ne.mpr (by omega), Bool.or_self]
  rw [railJudged, hrail, if_neg Bool.false_ne_true, doubt_rad]
  refine ⟨doubts_doubt_same _ _ _ (by decide), ?_⟩
  simp only [gainTaken, updRad, hrail, Bool.false_eq_true, if_false]

theorem exec_agcUpdate_frozen {s : State} (hon : gfOn s = true) (hpage : pageEn s pGRX = true)
    (hfreeze : flag s pGRX fGRX_AGC_CFG_FREEZE = true) (outer clip : Fin 257) (ma mv : Nat) :
    exec (.agcUpdate outer clip ma mv) s =
      .next (railJudged (gainTaken (wrN (antShown s ma mv) pGRX rGRX_AGC
        (agcWord (get s pGRX fGRX_AGC_CFG_GAIN_SET) outer clip)) (mono s) (get s pGRX fGRX_AGC_CFG_GAIN_SET))
        (get s pGRX fGRX_AGC_CFG_GAIN_SET)) := by
  obtain ⟨_, _, hregs⟩ := antShown_shows s ma mv
  have hgain : agcGain (antShown s ma mv) outer = get s pGRX fGRX_AGC_CFG_GAIN_SET := by
    rw [agcGain, hregs.flag (by decide) (by decide), hfreeze, if_pos rfl, hregs.get (by decide) (by decide)]
  simp only [antShown] at hgain
  simp only [exec, execAgcUpdate, hon, hpage, Bool.and_self, if_true, hgain, antShown, railJudged, gainTaken, agcWord]

theorem agcUpdate_frozen_shows {s : State} (hon : gfOn s = true) (hpage : pageEn s pGRX = true)
    (hfreeze : flag s pGRX fGRX_AGC_CFG_FREEZE = true) (outer clip : Fin 257) (ma mv : Nat) :
    Answers (exec (.agcUpdate outer clip ma mv) s) fun t =>
      get t pGRX fGRX_AGC_GAIN = get s pGRX fGRX_AGC_CFG_GAIN_SET ∧
      get t pGRX fGRX_AGC_OUTER = min outer.val 255 ∧ get t pGRX fGRX_AGC_CLIP = min clip.val 255 ∧
      get t pGRX fGRX_ANT_MEAS_MA = min ma 255 ∧ get t pGRX fGRX_ANT_MEAS_MV = min mv 0xFFFF ∧
      (0 < get s pGRX fGRX_AGC_CFG_GAIN_SET → get s pGRX fGRX_AGC_CFG_GAIN_SET < 127 →
        doubts t pGRX 3 = false ∧ t.rad.rail = none) := by
  rw [exec_agcUpdate_frozen hon hpage hfreeze, answers_next]
  obtain ⟨hma, hmv, _⟩ := antShown_shows s ma mv
  have hlt : get s pGRX fGRX_AGC_CFG_GAIN_SET < 128 := Fld.of_lt fGRX_AGC_CFG_GAIN_SET _
  generalize get s pGRX fGRX_AGC_CFG_GAIN_SET = gain at hlt ⊢
  obtain ⟨hgain, houter, hclip⟩ := agcWord_fields hlt outer clip
  have hword := otherRegs_wrN (antShown s ma mv) pGRX rGRX_AGC (agcWord gain outer clip)
  generalize hs1 : wrN (antShown s ma mv) pGRX rGRX_AGC (agcWord gain outer clip) = s1 at hword ⊢
  have hends := (otherRegs_gainTaken s1 (mono s) gain _).trans
    (otherRegs_railJudged (gainTaken s1 (mono s) gain) gain)
  have hfield : ∀ f : Fld, f.off = rGRX_AGC → f.lo + f.w ≤ 32 →
      get (railJudged (gainTaken s1 (mono s) gain) gain) pGRX f = f.of (agcWord gain outer clip) := fun f hoff hw => by
    rw [hends.get (by rw [hoff]; decide) (by rw [hoff]; decide), ← hs1, ← hoff, get_wrN_same _ _ _ _ hw]
  refine ⟨(hfield _ rfl (by decide)).trans hgain, (hfield _ rfl (by decide)).trans houter,
    (hfield _ rfl (by decide)).trans hclip, ?_, ?_, fun hlo hhi => railJudged_between hlo hhi s1 _⟩
  · rw [hends.get (by decide) (by decide), hword.get (by decide) (by decide), hma]
  · rw [hends.get (by decide) (by decide), hword.get (by decide) (by decide), hmv]

theorem exec_agcRail {s : State} {t0 : Nat} (hrail : s.rad.rail = some t0) (hon : gfOn s = true)
    (hnew : doubts s pGRX 3 = false) :
    exec .agcRail s = .next (doubt (raise (advMono s (t0 + 100000000)) pGRX 4) pGRX 3 true) := by
  simp only [exec, execAgcRail, hrail, hon, hnew, Bool.not_false, Bool.and_self, if_true]

theorem agcRail_shows {s : State} {t0 : Nat} (hrail : s.rad.rail = some t0) (hon : gfOn s = true)
    (hnew : doubts s pGRX 3 = false) :
    Answers (exec .agcRail s) fun t => doubts t pGRX 3 = true ∧ intRaw t pGRX 4 = true ∧
      OtherRegs s t [pGRX.adr rINT_RAW, pGRX.adr rDOUBT_RAW] ∧ (t0 + 100000000 < 2 ^ 64 → t0 + 100000000 ≤ mono t) := by
  rw [exec_agcRail hrail hon hnew, answers_next]
  have hraise := otherRegs_raise (advMono s (t0 + 100000000)) pGRX 4
  have hdoubt := otherRegs_doubt (raise (advMono s (t0 + 100000000)) pGRX 4) pGRX 3 true
  obtain ⟨c, hadv⟩ := advMono_eq s (t0 + 100000000)
  have hclock : OtherRegs s (advMono s (t0 + 100000000)) [] := .of_regs (by rw [hadv]) _
  refine ⟨doubts_doubt_same _ _ _ (by decide), ?_, ?_, fun hlt => ?_⟩
  · rw [hdoubt.intRaw 4 (by decide) (by decide), intRaw_raise_grx _ (by decide)]
  · exact ((hclock.mono (by simp)).andThen hraise (by simp)).andThen hdoubt (by simp)
  · rw [mono, doubt_clk, raise_clk, ← mono]
    exact le_mono_advMono hlt s

/-! ### The antenna bias (R123–R125) -/

/-- The bias is shown in one of its states, ramping or not. -/
def biasShown (s : State) (state : Nat) (ramp : Bool) : State :=
  putB (put s pGRX fGRX_ANT_STAT_STATE state) pGRX fGRX_ANT_STAT_RAMP ramp

theorem otherRegs_biasShown (s : State) (state : Nat) (ramp : Bool) :
    OtherRegs s (biasShown s state ramp) [pGRX.adr rGRX_ANT_STAT] :=
  (otherRegs_put s pGRX fGRX_ANT_STAT_STATE state).trans (otherRegs_putB _ pGRX fGRX_ANT_STAT_RAMP ramp)

theorem otherRegs_biasUp (s : State) : OtherRegs s (biasUp s) [pGRX.adr rGRX_ANT_STAT] :=
  (otherRegs_updRad s _ _).trans <| otherRegs_biasShown (updRad s fun r => { r with biasOn := true, biasFrom := mono s }) 1 true

theorem biasUp_shows (s : State) :
    (biasUp s).rad = { s.rad with biasOn := true, biasFrom := mono s } ∧ (biasUp s).clk = s.clk ∧
      get (biasUp s) pGRX fGRX_ANT_STAT_STATE = 1 ∧ flag (biasUp s) pGRX fGRX_ANT_STAT_RAMP = true := by
  refine ⟨by rw [biasUp, putB_rad, put_rad, updRad], by rw [biasUp, putB_clk, put_clk, updRad], ?_,
    flag_putB_same _ _ _ _ (by decide) rfl⟩
  rw [biasUp, putB, get_put_apart _ _ fGRX_ANT_STAT_RAMP fGRX_ANT_STAT_STATE _ rfl (by decide) (.inl (by decide)),
    get_put_lt _ _ _ (by decide) (by decide)]

theorem biasDown_rad (s : State) : (biasDown s).rad = { s.rad with biasOn := false } := by
  rw [biasDown, putB_rad, put_rad, updRad]

theorem otherRegs_biasDown (s : State) : OtherRegs s (biasDown s) [pGRX.adr rGRX_ANT_STAT] :=
  (otherRegs_updRad s _ _).trans <| otherRegs_biasShown (updRad s fun r => { r with biasOn := false }) 0 false

/-- The bias is off after a short, at the instant it tripped, and the state says so. -/
def biasTripped (s : State) : State :=
  put (updRad (biasDown s) fun r => { r with shortAt := mono s }) pGRX fGRX_ANT_STAT_STATE 2

/-- A short raises its interrupt and is counted; it ends ANT_OPEN, and ANT_SHORT stands. -/
def shortShown (s : State) : State :=
  doubt (doubt (bump (raise s pGRX 0) pGRX rGRX_SHORT_CNT) pGRX 1 false) pGRX 0 true

theorem exec_antShort {s : State} (hon : s.rad.biasOn = true) :
    exec .antShort s = .next (shortShown (biasTripped s)) := by
  simp only [exec, execAntShort, hon, if_true, shortShown, biasTripped]

theorem biasTripped_shows (s : State) :
    (biasTripped s).rad = { s.rad with biasOn := false, shortAt := mono s } ∧
      get (biasTripped s) pGRX fGRX_ANT_STAT_STATE = 2 ∧ OtherRegs s (biasTripped s) [pGRX.adr rGRX_ANT_STAT] := by
  have hat := otherRegs_updRad (biasDown s) (fun r => { r with shortAt := mono s }) [pGRX.adr rGRX_ANT_STAT]
  refine ⟨by rw [biasTripped, put_rad, updRad, biasDown_rad], get_put_lt _ _ _ (by decide) (by decide), ?_⟩
  exact ((otherRegs_biasDown s).trans hat).trans (otherRegs_put _ _ fGRX_ANT_STAT_STATE 2)

theorem shortShown_shows (s : State) :
    (shortShown s).rad = s.rad ∧ intRaw (shortShown s) pGRX 0 = true ∧ doubts (shortShown s) pGRX 0 = true ∧
      doubts (shortShown s) pGRX 1 = false ∧
      rdN (shortShown s) pGRX rGRX_SHORT_CNT = min (rdN s pGRX rGRX_SHORT_CNT + 1) 0xFFFFFFFF ∧
      OtherRegs s (shortShown s) [pGRX.adr rINT_RAW, pGRX.adr rGRX_SHORT_CNT, pGRX.adr rDOUBT_RAW] := by
  have hraise := otherRegs_raise s pGRX 0
  have hcount := otherRegs_bump (raise s pGRX 0) pGRX rGRX_SHORT_CNT
  have hdoubts := (otherRegs_doubt (bump (raise s pGRX 0) pGRX rGRX_SHORT_CNT) pGRX 1 false).trans
    (otherRegs_doubt _ pGRX 0 true)
  refine ⟨by rw [shortShown, doubt_rad, doubt_rad, bump_rad, raise_rad], ?_, doubts_doubt_same _ _ _ (by decide), ?_,
    ?_, ((hraise.mono (by simp)).andThen hcount (by simp)).andThen hdoubts (by simp)⟩
  · exact (hdoubts.intRaw 0 (by decide) (by decide)).trans
      ((hcount.intRaw 0 (by decide) (by decide)).trans (intRaw_raise_grx s (by decide)))
  · rw [shortShown, doubts_doubt_ne _ _ _ (by decide) (by decide), doubts_doubt_same _ _ _ (by decide)]
  · exact (hdoubts.rdN (by decide) (by decide)).trans
      (by rw [rdN_bump_same, hraise.rdN (by decide) (by decide)])

/-- R124: a short turns the bias off, and is counted. -/
theorem antShort_shows {s : State} (hon : s.rad.biasOn = true) :
    Answers (exec .antShort s) fun t => t.rad.biasOn = false ∧ t.rad.shortAt = mono s ∧
      get t pGRX fGRX_ANT_STAT_STATE = 2 ∧ intRaw t pGRX 0 = true ∧ doubts t pGRX 0 = true ∧
      doubts t pGRX 1 = false ∧ rdN t pGRX rGRX_SHORT_CNT = min (rdN s pGRX rGRX_SHORT_CNT + 1) 0xFFFFFFFF := by
  obtain ⟨hrad, hstate, hother⟩ := biasTripped_shows s
  obtain ⟨hkept, hint, hshort, hopen, hcount, hregs⟩ := shortShown_shows (biasTripped s)
  rw [exec_antShort hon, answers_next]
  refine ⟨by rw [hkept, hrad], by rw [hkept, hrad], ?_, hint, hshort, hopen, ?_⟩
  · rw [hregs.get (by decide) (by decide), hstate]
  · rw [hcount, hother.rdN (by decide) (by decide)]

theorem exec_antRetry {s : State} (htripped : get s pGRX fGRX_ANT_STAT_STATE = 2)
    (hretry : get s pGRX fGRX_ANT_CFG_RETRY ≠ 0) (hwanted : biasWanted s = true) :
    ∃ c, exec .antRetry s = .next (biasUp { s with clk := c }) := by
  obtain ⟨c, hadv⟩ := advMono_eq s (s.rad.shortAt + get s pGRX fGRX_ANT_CFG_RETRY * 1000000000)
  refine ⟨c, ?_⟩
  simp only [exec, execAntRetry, htripped, hretry, hwanted, ne_eq, not_false_eq_true, and_self, if_true, hadv]

/-- R124: the bias ramps again from the instant of the retry. -/
theorem antRetry_shows {s : State} (htripped : get s pGRX fGRX_ANT_STAT_STATE = 2)
    (hretry : get s pGRX fGRX_ANT_CFG_RETRY ≠ 0) (hwanted : biasWanted s = true) :
    Answers (exec .antRetry s) fun t => t.rad.biasOn = true ∧ t.rad.biasFrom = mono t ∧
      get t pGRX fGRX_ANT_STAT_STATE = 1 ∧ flag t pGRX fGRX_ANT_STAT_RAMP = true ∧
      OtherRegs s t [pGRX.adr rGRX_ANT_STAT] := by
  obtain ⟨c, hexec⟩ := exec_antRetry htripped hretry hwanted
  obtain ⟨hrad, hclk, hstate, hramp⟩ := biasUp_shows { s with clk := c }
  rw [hexec, answers_next]
  exact ⟨by rw [hrad], by rw [hrad, mono, mono, hclk], hstate, hramp, otherRegs_biasUp { s with clk := c }⟩

theorem exec_antOk {s : State} (hon : s.rad.biasOn = true) (hshort : doubts s pGRX 0 = true) :
    ∃ c, exec .antOk s = .next (raise (doubt { s with clk := c } pGRX 0 false) pGRX 2) := by
  obtain ⟨c, hadv⟩ := advMono_eq s (s.rad.biasFrom + 1000000000)
  refine ⟨c, ?_⟩
  simp only [exec, execAntOk, hon, hshort, Bool.and_self, if_true, hadv]

theorem antOk_shows {s : State} (hon : s.rad.biasOn = true) (hshort : doubts s pGRX 0 = true) :
    Answers (exec .antOk s) fun t => doubts t pGRX 0 = false ∧ intRaw t pGRX 2 = true ∧
      OtherRegs s t [pGRX.adr rINT_RAW, pGRX.adr rDOUBT_RAW] := by
  obtain ⟨c, hexec⟩ := exec_antOk hon hshort
  have hdoubt : OtherRegs s (doubt { s with clk := c } pGRX 0 false) [pGRX.adr rDOUBT_RAW] :=
    otherRegs_doubt { s with clk := c } pGRX 0 false
  have hraise := otherRegs_raise (doubt { s with clk := c } pGRX 0 false) pGRX 2
  rw [hexec, answers_next]
  refine ⟨?_, intRaw_raise_grx _ (by decide), (hdoubt.mono (by simp)).andThen hraise (by simp)⟩
  rw [hraise.doubts 0 (by decide) (by decide), doubts_doubt_same _ _ _ (by decide)]

theorem exec_antOpen {s : State} {ma : Nat} (hon : s.rad.biasOn = true) (hlow : ma < get s pGRX fGRX_ANT_CFG_OPEN_MA) :
    exec (.antOpen ma) s = .next (doubt (raise (put s pGRX fGRX_ANT_STAT_STATE 3) pGRX 1) pGRX 1 true) := by
  simp only [exec, execAntOpen, hon, decide_eq_true hlow, Bool.and_self, if_true]

theorem antOpen_shows {s : State} {ma : Nat} (hon : s.rad.biasOn = true)
    (hlow : ma < get s pGRX fGRX_ANT_CFG_OPEN_MA) :
    Answers (exec (.antOpen ma) s) fun t => doubts t pGRX 1 = true ∧ intRaw t pGRX 1 = true ∧
      get t pGRX fGRX_ANT_STAT_STATE = 3 ∧ t.rad.biasOn = true := by
  have hraise := otherRegs_raise (put s pGRX fGRX_ANT_STAT_STATE 3) pGRX 1
  have hdoubt := otherRegs_doubt (raise (put s pGRX fGRX_ANT_STAT_STATE 3) pGRX 1) pGRX 1 true
  rw [exec_antOpen hon hlow, answers_next]
  refine ⟨doubts_doubt_same _ _ _ (by decide), ?_, ?_, by rw [doubt_rad, raise_rad, put_rad, hon]⟩
  · rw [hdoubt.intRaw 1 (by decide) (by decide), intRaw_raise_grx _ (by decide)]
  · rw [hdoubt.get (by decide) (by decide), hraise.get (by decide) (by decide),
      get_put_lt _ _ _ (by decide) (by decide)]

theorem exec_antOpenClear {s : State} {ma : Nat} (hon : s.rad.biasOn = true)
    (hback : get s pGRX fGRX_ANT_CFG_OPEN_MA ≤ ma) (hopen : doubts s pGRX 1 = true) :
    exec (.antOpenClear ma) s = .next (doubt (put s pGRX fGRX_ANT_STAT_STATE 1) pGRX 1 false) := by
  simp only [exec, execAntOpenClear, hon, decide_eq_true hback, hopen, Bool.and_self, if_true]

theorem antOpenClear_shows {s : State} {ma : Nat} (hon : s.rad.biasOn = true)
    (hback : get s pGRX fGRX_ANT_CFG_OPEN_MA ≤ ma) (hopen : doubts s pGRX 1 = true) :
    Answers (exec (.antOpenClear ma) s) fun t => doubts t pGRX 1 = false ∧ get t pGRX fGRX_ANT_STAT_STATE = 1 ∧
      OtherRegs s t [pGRX.adr rGRX_ANT_STAT, pGRX.adr rDOUBT_RAW] := by
  have hstate := otherRegs_put s pGRX fGRX_ANT_STAT_STATE 1
  have hdoubt := otherRegs_doubt (put s pGRX fGRX_ANT_STAT_STATE 1) pGRX 1 false
  rw [exec_antOpenClear hon hback hopen, answers_next]
  refine ⟨doubts_doubt_same _ _ _ (by decide), ?_, (hstate.mono (by simp)).andThen hdoubt (by simp)⟩
  rw [hdoubt.get (by decide) (by decide), get_put_lt _ _ _ (by decide) (by decide)]

/-- Settles O25: each row is a few stores of the GRX page beside the bias and the gain, read back through the frames of
what follows them. -/
theorem radioFrontEnd : Obligations.RadioFrontEnd :=
  ⟨fun _ hon hwarm => gfWarmupEnd_shows hon hwarm, fun _ hon hlost => pllLockReturn_shows hon hlost,
    fun outer clip ma mv _ hon hpage hfreeze => agcUpdate_frozen_shows hon hpage hfreeze outer clip ma mv,
    fun _ _ hrail hon hnew => agcRail_shows hrail hon hnew, fun _ hon => antShort_shows hon,
    fun _ htripped hretry hwanted => antRetry_shows htripped hretry hwanted,
    fun _ hon hshort => antOk_shows hon hshort, fun _ _ hon hlow => antOpen_shows hon hlow,
    fun _ _ hon hback hopen => antOpenClear_shows hon hback hopen⟩

end Sys2Proof.Machine
end

section
/-! Acquisition jobs (R126–R133): the queue, the start or the refusal of a job, its passes, and its results. -/

namespace Sys2Proof.Machine

/-! ### The queue (R126, R133) -/

/-- An interrupt bit of the ACQ page stands after its event. -/
theorem intRaw_raise_acq (s : State) {bit : Nat} (hb : bit < 32) : intRaw (raise s pACQ bit) pACQ bit = true :=
  intRaw_raise_same (.inr rfl) s hb

theorem otherRegs_showJobq (s : State) : OtherRegs s (showJobq s) [pACQ.adr rACQ_STAT] :=
  otherRegs_put s pACQ fACQ_STAT_JOBQ _

@[simp] theorem showJobq_rad (s : State) : (showJobq s).rad = s.rad := put_rad _ _ _ _

theorem get_jobq_showJobq {s : State} (h : s.rad.jobs.length < 32) :
    get (showJobq s) pACQ fACQ_STAT_JOBQ = s.rad.jobs.length :=
  get_put_lt _ _ _ (by decide) h

theorem exec_acqPush {r : Requester} {v : Word} {s : State} (hw : writable s r pACQ = true)
    (hflush : fACQ_CTRL_FLUSH.of v.toNat = 0) (hpush : fACQ_CTRL_PUSH.of v.toNat = 1) :
    exec (.acqPush r v) s = .next (pushJob s) := by
  simp only [exec, execAcqPush, onWrite_writable hw, acqCtrl, hflush, hpush, zero_ne_one, if_false, if_true]

theorem exec_acqFlush {r : Requester} {v : Word} {s : State} (hw : writable s r pACQ = true)
    (hflush : fACQ_CTRL_FLUSH.of v.toNat = 1) (hpush : fACQ_CTRL_PUSH.of v.toNat = 0) :
    exec (.acqFlush r v) s = .next (flushJobs s) := by
  simp only [exec, execAcqFlush, onWrite_writable hw, acqCtrl, hflush, hpush, zero_ne_one, if_false, if_true]

theorem pushJob_room {s : State} (h : s.rad.jobs.length < 16) :
    (pushJob s).rad.jobs = s.rad.jobs ++ [⟨rdN s pACQ (rACQ_JOB 0), rdN s pACQ (rACQ_JOB 1),
        rdN s pACQ (rACQ_JOB 2), rdN s pACQ (rACQ_JOB 3), false⟩] ∧
      get (pushJob s) pACQ fACQ_STAT_JOBQ = s.rad.jobs.length + 1 ∧ OtherRegs s (pushJob s) [pACQ.adr rACQ_STAT] := by
  rw [pushJob, if_pos h]
  have hlen : ∀ j : AcqJob, (s.rad.jobs ++ [j]).length = s.rad.jobs.length + 1 := fun _ => List.length_append
  refine ⟨by rw [showJobq_rad, updRad], ?_, ?_⟩
  · rw [get_jobq_showJobq (by simp only [updRad, hlen]; omega), updRad, hlen]
  · exact (otherRegs_updRad s _ _).trans (otherRegs_showJobq _)

theorem pushJob_full {s : State} (h : 16 ≤ s.rad.jobs.length) :
    (pushJob s).rad = s.rad ∧ intRaw (pushJob s) pACQ 4 = true ∧ OtherRegs s (pushJob s) [pACQ.adr rINT_RAW] := by
  rw [pushJob, if_neg (by omega)]
  exact ⟨raise_rad s pACQ 4, intRaw_raise_acq s (by decide), otherRegs_raise s pACQ 4⟩

theorem flushJobs_shows (s : State) :
    (flushJobs s).rad.jobs = [] ∧ get (flushJobs s) pACQ fACQ_STAT_JOBQ = 0 ∧
      (flushJobs s).rad.run = (s.rad.run.map fun x => { x with abort := true }) ∧
      OtherRegs s (flushJobs s) [pACQ.adr rACQ_STAT] := by
  have hrad : (flushJobs s).rad =
      { s.rad with jobs := [], run := s.rad.run.map fun x => { x with abort := true } } := by
    rw [flushJobs, showJobq_rad, updRad]
  refine ⟨by rw [hrad], ?_, by rw [hrad], ?_⟩
  · exact get_jobq_showJobq (s := updRad s _) (Nat.zero_lt_succ 31)
  · exact (otherRegs_updRad s _ _).trans (otherRegs_showJobq _)

/-! ### Results (R131) -/

/-- A job that ends while the results have room joins them, is counted, and raises INT_RAW[1]. -/
theorem endJob_room {s : State} (h : s.rad.results.length < 64) (w : List Nat) :
    (endJob s w).rad = { s.rad with results := s.rad.results ++ [w] } ∧ intRaw (endJob s w) pACQ 1 = true ∧
      intRaw (endJob s w) pACQ 0 = intRaw s pACQ 0 ∧
      rdN (endJob s w) pACQ rACQ_JOB_CNT = min (rdN s pACQ rACQ_JOB_CNT + 1) 0xFFFFFFFF := by
  have hpush : OtherRegs s (pushResult s w) [pACQ.adr rACQ_STAT] := by
    rw [pushResult, if_pos h]
    exact (otherRegs_updRad s _ _).trans (otherRegs_put _ pACQ fACQ_STAT_RES_LVL _)
  have hrad : (pushResult s w).rad = { s.rad with results := s.rad.results ++ [w] } := by
    rw [pushResult, if_pos h, put_rad, updRad]
  have hcount := otherRegs_bump (pushResult s w) pACQ rACQ_JOB_CNT
  have hraise := otherRegs_raise (bump (pushResult s w) pACQ rACQ_JOB_CNT) pACQ 1
  refine ⟨by rw [endJob, raise_rad, bump_rad, hrad], intRaw_raise_acq _ (by decide), ?_, ?_⟩
  · exact (raise_other _ pACQ 1 0 (by decide) (by decide) rfl).trans
      ((hcount.intRaw 0 (by decide) (by decide)).trans (hpush.intRaw 0 (by decide) (by decide)))
  · exact (hraise.rdN (by decide) (by decide)).trans
      (by rw [rdN_bump_same, hpush.rdN (by decide) (by decide)])

theorem wrWords_rad (s : State) (p : Pg) (off : Nat) (l : List Nat) : (wrWords s p off l).rad = s.rad := by
  induction l generalizing s off with
  | nil => rfl
  | cons w t ih => rw [wrWords, ih, wrN_rad]

/-- The words leave the registers below them. -/
theorem rdN_wrWords_below (s : State) (p : Pg) {o off : Nat} (h : o < off) (l : List Nat) :
    rdN (wrWords s p off l) p o = rdN s p o := by
  induction l generalizing s off with
  | nil => rfl
  | cons w t ih => rw [wrWords, ih _ (by omega), rdN_wrN_ne _ _ _ _ _ _ (p.adr_ne (by omega))]

/-- Each word stands in its register. -/
theorem rdN_wrWords (s : State) (p : Pg) (off : Nat) {l : List Nat} {k : Nat} (h : k < l.length) :
    rdN (wrWords s p off l) p (off + 4 * k) = ix l k 0 % 2 ^ 32 := by
  induction l generalizing s off k with
  | nil => exact absurd h (Nat.not_lt_zero k)
  | cons w t ih =>
    cases k with
    | zero =>
      rw [wrWords, rdN_wrWords_below _ _ (by omega)]
      exact rdN_wrN_same s p off w
    | succ k =>
      rw [wrWords, show off + 4 * (k + 1) = off + 4 + 4 * k by omega, ih _ _ (Nat.lt_of_succ_lt_succ h)]
      rfl

/-- The oldest result, taken out of those that wait. -/
def resultTaken (s : State) (w : List Nat) (rest : List (List Nat)) : State :=
  wrWords (put (updRad s fun r => { r with results := rest }) pACQ fACQ_STAT_RES_LVL rest.length) pACQ (rACQ_RES 0) w

theorem exec_acqResRead {s : State} {w : List Nat} {rest : List (List Nat)} (hr : readable s pACQ = true)
    (hres : s.rad.results = w :: rest) (r : Requester) :
    exec (.acqResRead r) s = .next (reply (resultTaken s w rest) (ix w 0 0)) := by
  simp only [exec, execAcqResRead, onRead_readable hr, hres, resultTaken]

theorem acqResRead_shows {s : State} {w : List Nat} {rest : List (List Nat)} (hr : readable s pACQ = true)
    (hres : s.rad.results = w :: rest) (hlen : w.length = 5) (r : Requester) :
    Answers (exec (.acqResRead r) s) fun t => t.rad.results = rest ∧ t.lastRead = BitVec.ofNat 64 (ix w 0 0) ∧
      (∀ k : Fin 5, rdN t pACQ (rACQ_RES k) = ix w k 0 % 2 ^ 32) := by
  rw [exec_acqResRead hr hres, answers_next]
  refine ⟨by rw [reply_rad, resultTaken, wrWords_rad, put_rad, updRad], lastRead_reply _ _, fun k => ?_⟩
  rw [rdN_reply, resultTaken]
  exact rdN_wrWords _ pACQ (rACQ_RES 0) (hlen.symm ▸ k.isLt)

/-! ### The snapshot slot that an offline job reads (R169) -/

/-- The slot is in use, or no longer, where the job is offline. -/
def markInUse (s : State) (j : AcqJob) (k : Nat) (b : Bool) : State :=
  if jobOffline j then putB s pSNP (fSNP_SLOT_STAT_IN_USE k) b else s

theorem offSlot_lt (s : State) : offSlot s < 2 := Fld.of_lt fSNP_OFF_SEL_SLOT _

theorem markInUse_rad (s : State) (j : AcqJob) (k : Nat) (b : Bool) : (markInUse s j k b).rad = s.rad := by
  rw [markInUse]
  split
  · exact putB_rad _ _ _ _
  · rfl

theorem otherRegs_markInUse (s : State) (j : AcqJob) (k : Nat) (b : Bool) :
    OtherRegs s (markInUse s j k b) [pSNP.adr (rSNP_SLOT_STAT k)] := by
  rw [markInUse]
  split
  · exact otherRegs_putB s pSNP (fSNP_SLOT_STAT_IN_USE k) b
  · exact .refl s _

/-- No register of the ACQ page is a slot's. -/
theorem acq_ne_slot {k o : Nat} (hk : k < 2) (ho : o < 0x1000) : pACQ.adr o ≠ pSNP.adr (rSNP_SLOT_STAT k) := by
  simp only [Pg.adr, rSNP_SLOT_STAT]
  omega

/-! ### The start and the refusal of a job (R126, R132) -/

/-- A job has left the queue. -/
def jobTaken (s : State) (rest : List AcqJob) : State := showJobq (updRad s fun r => { r with jobs := rest })

theorem otherRegs_jobTaken (s : State) (rest : List AcqJob) : OtherRegs s (jobTaken s rest) [pACQ.adr rACQ_STAT] :=
  (otherRegs_updRad s _ _).trans (otherRegs_showJobq _)

@[simp] theorem jobTaken_rad (s : State) (rest : List AcqJob) :
    (jobTaken s rest).rad = { s.rad with jobs := rest } := by
  rw [jobTaken, showJobq_rad, updRad]

/-- R132 does not look at the ACQ page. -/
theorem jobRefused_congr {s t : State} (h : OtherRegs s t [pACQ.adr rACQ_STAT]) (j : AcqJob) :
    jobRefused t j = jobRefused s j := by
  have hslot : offSlot t = offSlot s := h.get (by decide) (by decide)
  have hstat : ∀ f : Fld, f.off = rSNP_SLOT_STAT (offSlot s) → get t pSNP f = get s pSNP f := fun f hoff => by
    have hk := offSlot_lt s
    exact h.get (by rw [hoff, List.mem_singleton]; exact (acq_ne_slot hk (by decide)).symm)
      (by rw [hoff]; simp only [Pg.adr, rSNP_SLOT_STAT]; omega)
  have hbad : flag t pSNP (fSNP_SLOT_STAT_BAD (offSlot s)) = flag s pSNP (fSNP_SLOT_STAT_BAD (offSlot s)) := by
    rw [flag, hstat _ rfl, flag]
  have hfeat : ∀ n, feat t n = feat s n := fun n => by
    rw [feat, h.flag (by decide) (by decide), h.rdN (by decide) (by decide), feat]
  have hgf : gfOn t = gfOn s := h.flag (by decide) (by decide)
  have hbackup : flag t pOVN fOVN_STAT_BACKUP = flag s pOVN fOVN_STAT_BACKUP := h.flag (by decide) (by decide)
  simp only [jobRefused, sysServed, hslot, hstat (fSNP_SLOT_STAT_STATE _) rfl, hbad,
    hstat (fSNP_SLOT_STAT_LEN_MS _) rfl, hfeat, hgf, hbackup]

/-- The bank is busy with a run. -/
def bankRuns (s : State) (x : AcqRun) : State :=
  putB (putB (updRad s fun r => { r with run := some x }) pACQ fACQ_STAT_BUSY true) pACQ fACQ_STAT_AUTO_ACTIVE
    x.job.auto

theorem startJob_eq (s : State) (j : AcqJob) :
    ∃ x : AcqRun, x.job = j ∧ startJob s j = markInUse (bankRuns s x) j (offSlot s) true := ⟨_, rfl, rfl⟩

theorem bankRuns_shows (s : State) (x : AcqRun) :
    (bankRuns s x).rad = { s.rad with run := some x } ∧ flag (bankRuns s x) pACQ fACQ_STAT_BUSY = true ∧
      flag (bankRuns s x) pACQ fACQ_STAT_AUTO_ACTIVE = x.job.auto := by
  refine ⟨by rw [bankRuns, putB_rad, putB_rad, updRad], ?_, flag_putB_same _ _ _ _ (by decide) rfl⟩
  rw [bankRuns, flag_putB_apart _ _ fACQ_STAT_AUTO_ACTIVE fACQ_STAT_BUSY _ rfl (by decide) (.inl (by decide)),
    flag_putB_same _ _ _ _ (by decide) rfl]

theorem startJob_shows (s : State) (j : AcqJob) :
    (∃ x : AcqRun, x.job = j ∧ (startJob s j).rad = { s.rad with run := some x }) ∧
      flag (startJob s j) pACQ fACQ_STAT_BUSY = true ∧ flag (startJob s j) pACQ fACQ_STAT_AUTO_ACTIVE = j.auto := by
  obtain ⟨x, rfl, heq⟩ := startJob_eq s j
  obtain ⟨hrad, hbusy, hauto⟩ := bankRuns_shows s x
  have hslot := otherRegs_markInUse (bankRuns s x) x.job (offSlot s) true
  have hstat : pACQ.adr rACQ_STAT ∉ [pSNP.adr (rSNP_SLOT_STAT (offSlot s))] := by
    rw [List.mem_singleton]
    exact acq_ne_slot (offSlot_lt s) (by decide)
  rw [heq]
  exact ⟨⟨x, rfl, by rw [markInUse_rad, hrad]⟩, (hslot.flag hstat (by decide)).trans hbusy,
    (hslot.flag hstat (by decide)).trans hauto⟩

theorem exec_acqJobStart {s : State} {j : AcqJob} {rest : List AcqJob} (hpage : pageEn s pACQ = true)
    (hidle : s.rad.run = none) (hjobs : s.rad.jobs = j :: rest) (hdue : jobWaits s j = false) :
    exec .acqJobStart s = .next
      (if jobRefused s j then refuseJob (jobTaken s rest) j else startJob (jobTaken s rest) j) := by
  have hrefused : jobRefused (showJobq (updRad s fun r => { r with jobs := rest })) j = jobRefused s j :=
    jobRefused_congr (otherRegs_jobTaken s rest) j
  simp only [exec, execAcqJobStart, hpage, hidle, hjobs, Option.isSome_none, Bool.not_true, Bool.or_self,
    Bool.false_eq_true, if_false, takeJob, hdue, hrefused, jobTaken]

/-- The oldest job starts. -/
theorem acqJobStart_starts {s : State} {j : AcqJob} {rest : List AcqJob} (hpage : pageEn s pACQ = true)
    (hidle : s.rad.run = none) (hjobs : s.rad.jobs = j :: rest) (hdue : jobWaits s j = false)
    (hserved : jobRefused s j = false) :
    Answers (exec .acqJobStart s) fun t => t.rad.jobs = rest ∧ (t.rad.run.map fun x => x.job) = some j ∧
      flag t pACQ fACQ_STAT_BUSY = true ∧ flag t pACQ fACQ_STAT_AUTO_ACTIVE = j.auto ∧
      t.rad.results = s.rad.results := by
  obtain ⟨⟨x, hjob, hrad⟩, hbusy, hauto⟩ := startJob_shows (jobTaken s rest) j
  rw [exec_acqJobStart hpage hidle hjobs hdue, hserved, if_neg Bool.false_ne_true, answers_next, hrad, jobTaken_rad]
  exact ⟨rfl, congrArg some hjob, hbusy, hauto, rfl⟩

/-- R132: a job that cannot be served ends with a result that says so. -/
theorem acqJobStart_refuses {s : State} {j : AcqJob} {rest : List AcqJob} (hpage : pageEn s pACQ = true)
    (hidle : s.rad.run = none) (hjobs : s.rad.jobs = j :: rest) (hdue : jobWaits s j = false)
    (hrefused : jobRefused s j = true) (hroom : s.rad.results.length < 64) :
    Answers (exec .acqJobStart s) fun t => t.rad.jobs = rest ∧ t.rad.run = none ∧
      t.rad.results = s.rad.results ++ [[resHead j + 0x100000, 0, 0, 0, 0]] ∧
      rdN t pACQ rACQ_JOB_CNT = min (rdN s pACQ rACQ_JOB_CNT + 1) 0xFFFFFFFF ∧ intRaw t pACQ 1 = true := by
  obtain ⟨hrad, hint, _, hcount⟩ := endJob_room (s := jobTaken s rest) (by rw [jobTaken_rad]; exact hroom)
    [resHead j + 0x100000, 0, 0, 0, 0]
  rw [exec_acqJobStart hpage hidle hjobs hdue, hrefused, if_pos rfl, answers_next, refuseJob, hrad, jobTaken_rad]
  exact ⟨rfl, hidle, rfl, by rw [hcount, (otherRegs_jobTaken s rest).rdN (by decide) (by decide)], hint⟩

/-! ### Captures and passes (R127, R129, R130, R133) -/

theorem advP_eq (s : State) (t : Nat) : ∃ c, advP s t = { s with clk := c } := by
  rw [advP]
  split
  · exact ⟨_, rfl⟩
  · exact ⟨s.clk, rfl⟩

theorem exec_acqCaptureDone {s : State} {x : AcqRun} (hrun : s.rad.run = some x) (hnew : x.captured = false) :
    ∃ c, exec .acqCaptureDone s = .next (updRun { s with clk := c } { x with captured := true }) := by
  simp only [exec, execAcqCaptureDone, hrun, hnew, Bool.false_eq_true, if_false]
  cases jobOffline x.job with
  | true => exact ⟨s.clk, rfl⟩
  | false =>
    obtain ⟨p, hadv⟩ := advPc_eq s (x.pc + BitVec.ofNat 64 (x.t * x.n * 1000000 * 65536))
    simp only [Bool.false_eq_true, if_false, hadv]
    exact ⟨_, rfl⟩

theorem exec_acqPassDone {s : State} {x : AcqRun} (hrun : s.rad.run = some x) (hcap : x.captured = true) (stat : Nat)
    (dopp : Int) (code cn0 : Nat) :
    ∃ c, exec (.acqPassDone stat dopp code cn0) s = .next
      (if x.abort then clearRun { s with clk := c }
       else if x.done + 1 < x.passes then updRun { s with clk := c } { x with done := x.done + 1 }
       else judgeJob { s with clk := c } x stat dopp code cn0) := by
  obtain ⟨c, hadv⟩ := advP_eq s (s.clk.p.toNat + (8184 * x.t * x.n + 2000) * 65536)
  refine ⟨c, ?_⟩
  simp only [exec, execAcqPassDone, hrun, hcap, hadv, Bool.not_true, Bool.false_eq_true, if_false]
  split
  · rfl
  · split
    · rfl
    · rfl

/-- Nothing runs, and the bank is not busy. -/
def bankIdle (s : State) : State :=
  putB (putB (updRad s fun r => { r with run := none }) pACQ fACQ_STAT_BUSY false) pACQ fACQ_STAT_AUTO_ACTIVE false

theorem bankIdle_shows (s : State) :
    (bankIdle s).rad = { s.rad with run := none } ∧ flag (bankIdle s) pACQ fACQ_STAT_BUSY = false ∧
      OtherRegs s (bankIdle s) [pACQ.adr rACQ_STAT] := by
  refine ⟨by rw [bankIdle, putB_rad, putB_rad, updRad], ?_, ?_⟩
  · rw [bankIdle, flag_putB_apart _ _ fACQ_STAT_AUTO_ACTIVE fACQ_STAT_BUSY _ rfl (by decide) (.inl (by decide)),
      flag_putB_same _ _ _ _ (by decide) rfl]
  · exact ((otherRegs_updRad s _ _).trans (otherRegs_putB _ pACQ fACQ_STAT_BUSY false)).trans
      (otherRegs_putB _ pACQ fACQ_STAT_AUTO_ACTIVE false)

/-- The run that ends leaves nothing running, and the results and the other registers of its page as they were. -/
theorem clearRun_shows {s : State} {x : AcqRun} (hrun : s.rad.run = some x) :
    (clearRun s).rad = { s.rad with run := none } ∧ flag (clearRun s) pACQ fACQ_STAT_BUSY = false ∧
      OtherRegs s (clearRun s) [pACQ.adr rACQ_STAT, pSNP.adr (rSNP_SLOT_STAT (offSlot s))] := by
  have heq : clearRun s = bankIdle (markInUse s x.job (offSlot s) false) := by
    simp only [clearRun, hrun, bankIdle, markInUse]
  obtain ⟨hrad, hbusy, hregs⟩ := bankIdle_shows (markInUse s x.job (offSlot s) false)
  rw [heq]
  refine ⟨by rw [hrad, markInUse_rad], hbusy, ?_⟩
  exact ((otherRegs_markInUse s x.job (offSlot s) false).mono (by simp)).andThen hregs (by simp)

/-- A search that finds nothing ends with a result that is no detection. -/
theorem acqResult_undetected (s : State) (x : AcqRun) (dopp : Int) (code cn0 : Nat) :
    ∃ w, acqResult s x false false dopp code cn0 = endJob (clearRun s) w := ⟨_, rfl⟩

theorem judgeJob_below {s : State} {x : AcqRun} {stat : Nat} (hsearch : x.verify = false)
    (hbelow : stat < get s pACQ fACQ_THRESH_DET) (dopp : Int) (code cn0 : Nat) :
    judgeJob s x stat dopp code cn0 = acqResult s x false false dopp code cn0 := by
  simp only [judgeJob, hsearch, decide_eq_false (Nat.not_le.mpr hbelow), Bool.false_and, Bool.false_eq_true, if_false]

/-- R130, R131: the search ends, counted and without INT_RAW[0]. -/
theorem judgeJob_below_shows {s : State} {x : AcqRun} {stat : Nat} (hrun : s.rad.run = some x)
    (hsearch : x.verify = false) (hbelow : stat < get s pACQ fACQ_THRESH_DET) (hroom : s.rad.results.length < 64)
    (dopp : Int) (code cn0 : Nat) :
    let t := judgeJob s x stat dopp code cn0
    t.rad.run = none ∧ t.rad.results.length = s.rad.results.length + 1 ∧ intRaw t pACQ 1 = true ∧
      intRaw t pACQ 0 = intRaw s pACQ 0 ∧ rdN t pACQ rACQ_JOB_CNT = min (rdN s pACQ rACQ_JOB_CNT + 1) 0xFFFFFFFF := by
  obtain ⟨w, hend⟩ := acqResult_undetected s x dopp code cn0
  obtain ⟨hcleared, _, hregs⟩ := clearRun_shows hrun
  obtain ⟨hrad, hint, hdet, hcount⟩ := endJob_room (s := clearRun s) (by rw [hcleared]; exact hroom) w
  have hapart : ∀ o, o < 0x1000 → o ≠ rACQ_STAT →
      pACQ.adr o ∉ [pACQ.adr rACQ_STAT, pSNP.adr (rSNP_SLOT_STAT (offSlot s))] := fun o ho hne => by
    simpa using ⟨pACQ.adr_ne hne, acq_ne_slot (offSlot_lt s) ho⟩
  intro t
  rw [show t = endJob (clearRun s) w from (judgeJob_below hsearch hbelow dopp code cn0).trans hend]
  refine ⟨by rw [hrad, hcleared], by rw [hrad, hcleared]; exact List.length_append, hint, ?_, ?_⟩
  · rw [hdet, hregs.intRaw 0 (hapart _ (by decide) (by decide)) (by decide)]
  · rw [hcount, hregs.rdN (hapart _ (by decide) (by decide)) (by decide)]

theorem acqPassDone_shows {s : State} {x : AcqRun} (hrun : s.rad.run = some x) (hcap : x.captured = true) (stat : Nat)
    (dopp : Int) (code cn0 : Nat) :
    Answers (exec (.acqPassDone stat dopp code cn0) s) fun t =>
      (x.abort = true → t.rad.run = none ∧ flag t pACQ fACQ_STAT_BUSY = false ∧ t.rad.results = s.rad.results) ∧
      (x.abort = false → x.done + 1 < x.passes → t.rad.run = some { x with done := x.done + 1 }) ∧
      (x.abort = false → x.passes ≤ x.done + 1 → x.verify = false → stat < get s pACQ fACQ_THRESH_DET →
        s.rad.results.length < 64 → t.rad.run = none ∧ t.rad.results.length = s.rad.results.length + 1 ∧
          intRaw t pACQ 1 = true ∧ intRaw t pACQ 0 = intRaw s pACQ 0 ∧
          rdN t pACQ rACQ_JOB_CNT = min (rdN s pACQ rACQ_JOB_CNT + 1) 0xFFFFFFFF) := by
  obtain ⟨c, hexec⟩ := exec_acqPassDone hrun hcap stat dopp code cn0
  have hrun' : ({ s with clk := c } : State).rad.run = some x := hrun
  rw [hexec, answers_next]
  refine ⟨fun hflushed => ?flushed, fun hkept hmore => ?more, fun hkept hlast hsearch hbelow hroom => ?last⟩
  case flushed =>
    obtain ⟨hrad, hbusy, _⟩ := clearRun_shows hrun'
    rw [hflushed, if_pos rfl]
    exact ⟨by rw [hrad], hbusy, by rw [hrad]⟩
  case more =>
    rw [hkept, if_neg Bool.false_ne_true, if_pos hmore]
    rfl
  case last =>
    rw [hkept, if_neg Bool.false_ne_true, if_neg (by omega)]
    exact judgeJob_below_shows hrun' hsearch hbelow hroom dopp code cn0

/-! ### The rows -/

/-- Settles O26: the queue and the results are lists beside the page's registers; a job that ends is read back through
the frames of what ends it, which for an offline job is the register of its snapshot slot too. -/
theorem acquisitionJobs : Obligations.AcquisitionJobs := by
  refine ⟨fun r v s hw hflush hpush => ?push, fun r v s hw hflush hpush => ?flush,
    fun _ _ _ hpage hidle hjobs hdue hserved => acqJobStart_starts hpage hidle hjobs hdue hserved,
    fun _ _ _ hpage hidle hjobs hdue hrefused hroom => acqJobStart_refuses hpage hidle hjobs hdue hrefused hroom,
    fun x s hrun hnew => ?capture,
    fun _ stat dopp code cn0 _ hrun hcap => acqPassDone_shows hrun hcap stat dopp code cn0,
    fun r _ _ _ hr hres hlen => acqResRead_shows hr hres hlen r⟩
  case push =>
    rw [exec_acqPush hw hflush hpush, answers_next]
    exact ⟨pushJob_room, pushJob_full⟩
  case flush =>
    rw [exec_acqFlush hw hflush hpush, answers_next]
    exact flushJobs_shows s
  case capture =>
    obtain ⟨c, hexec⟩ := exec_acqCaptureDone hrun hnew
    rw [hexec, answers_next]
    exact ⟨rfl, rfl⟩

end Sys2Proof.Machine
end

section
/-! The channels of the Radio (R136): the list of those that hold a signal, and the registers that an operation on one
of them moves. -/

namespace Sys2Proof.Machine

/-! ### The list of channels -/

theorem chan?_of_rad {s t : State} (h : t.rad = s.rad) (c : Nat) : chan? t c = chan? s c := by rw [chan?, h, chan?]

theorem chanSt_of_chan? {s : State} {c : Nat} {x : Chan} (h : chan? s c = some x) : chanSt s c = x.st := by
  rw [chanSt, h]

/-- A channel with a state other than IDLE holds a signal. -/
theorem exists_chan?_of_chanSt {s : State} {c : Nat} (h : chanSt s c ≠ 0) : ∃ x, chan? s c = some x := by
  cases hx : chan? s c with
  | none => simp [chanSt, hx] at h
  | some x => exact ⟨x, rfl⟩

theorem chan?_updChan (s : State) (c d : Nat) (f : Chan → Chan) :
    chan? (updChan s c f) d = if d = c then (chan? s c).map f else chan? s d := by
  cases hx : chan? s c with
  | none =>
    have hsame : updChan s c f = s := by simp only [updChan, hx]
    rw [hsame]
    split
    · next h => rw [h, hx]; rfl
    · rfl
  | some x =>
    have hset : updChan s c f = updRad s fun r => { r with chans := amSet c (f x) r.chans } := by
      simp only [updChan, hx]
    rw [hset, chan?, updRad, amGet_set, ← chan?]
    rfl

theorem chan?_updChan_same (s : State) (c : Nat) (f : Chan → Chan) : chan? (updChan s c f) c = (chan? s c).map f := by
  rw [chan?_updChan, if_pos rfl]

@[simp] theorem updChan_regs (s : State) (c : Nat) (f : Chan → Chan) : (updChan s c f).regs = s.regs := by
  rw [updChan]
  split
  · rfl
  · rfl

theorem rdA_updChan (s : State) (c : Nat) (f : Chan → Chan) (a : Nat) : rdA (updChan s c f) a = rdA s a := by
  simp only [rdA, updChan_regs]

theorem otherRegs_updChan (s : State) (c : Nat) (f : Chan → Chan) (l : List Nat) : OtherRegs s (updChan s c f) l :=
  .of_regs (updChan_regs s c f) l

/-! ### The page of a channel -/

/-- The page of a channel lies beside the Recorder's. -/
theorem ch_ne_rec {c o : Nat} (hc : c < 80) (ho : o < 0x1000) : (pCH c).adr o % 0x10000000 / 0x1000 ≠ 0x30 := by
  simp only [Pg.adr, pCH]
  omega

/-- An interrupt bit of a channel stands after its event. -/
theorem intRaw_raise_ch (s : State) {c bit : Nat} (hc : c < 80) (hb : bit < 32) :
    intRaw (raise s (pCH c) bit) (pCH c) bit = true :=
  intRaw_raise_same (.inr (offRec_of_page (ch_ne_rec hc (by decide)))) s hb

/-- The registers that show which channels hold a signal, and which of those an excluded one (R136, R157). -/
def shownRegs : List Nat :=
  [pTRK.adr rTRK_ACTIVE_LO, pTRK.adr rTRK_ACTIVE_HI, pTRK.adr rTRK_ACTIVE_T, pINT.adr rINTM_EXCL_LO,
    pINT.adr rINTM_EXCL_HI, pINT.adr rINTM_EXCL_T, pINT.adr rINTM_STAT]

/-- No register of a channel's page is one of a page before it. -/
theorem ch_ne_below (c o : Nat) {p : Pg} (hd : p.die ≤ 2) (hp : p.page < 0x100) {o' : Nat} (ho' : o' < 0x1000) :
    (pCH c).adr o ≠ p.adr o' := by
  simp only [Pg.adr, pCH]
  omega

theorem ch_notMem_below (c o : Nat) {p : Pg} (hd : p.die ≤ 2) (hp : p.page < 0x100) {o' : Nat} (ho' : o' < 0x1000) :
    (pCH c).adr o ∉ [p.adr o'] := by
  simpa using ch_ne_below c o hd hp ho'

theorem below_notMem_ch (c o : Nat) {p : Pg} (hd : p.die ≤ 2) (hp : p.page < 0x100) {o' : Nat} (ho' : o' < 0x1000) :
    p.adr o' ∉ [(pCH c).adr o] := by
  simpa using (ch_ne_below c o hd hp ho').symm

theorem ch_notMem_shown (c o : Nat) : (pCH c).adr o ∉ shownRegs := by
  simp (disch := decide) [shownRegs, ch_ne_below]

theorem otherRegs_showActive (s : State) (c : Nat) (b : Bool) : OtherRegs s (showActive s c b) shownRegs := by
  rw [showActive]
  split
  · exact (otherRegs_wrN s pTRK _ _).mono (by simp [shownRegs])
  · split
    · exact (otherRegs_wrN s pTRK _ _).mono (by simp [shownRegs])
    · exact (otherRegs_wrN s pTRK _ _).mono (by simp [shownRegs])

theorem showActive_rad (s : State) (c : Nat) (b : Bool) : (showActive s c b).rad = s.rad := by
  rw [showActive]
  split
  · exact wrN_rad _ _ _ _
  · split
    · exact wrN_rad _ _ _ _
    · exact wrN_rad _ _ _ _

theorem otherRegs_showExcl (s : State) : OtherRegs s (showExcl s) shownRegs :=
  ((((otherRegs_wrN s pINT rINTM_EXCL_LO _).mono (by simp [shownRegs])).andThen
    (otherRegs_wrN _ pINT rINTM_EXCL_HI _) (by simp [shownRegs])).andThen
    (otherRegs_wrN _ pINT rINTM_EXCL_T _) (by simp [shownRegs])).andThen
    (otherRegs_put _ pINT fINTM_STAT_N_EXCL _) (by simp [shownRegs])

theorem showExcl_rad (s : State) : (showExcl s).rad = s.rad := by
  rw [showExcl, put_rad, wrN_rad, wrN_rad, wrN_rad]

/-! ### A channel goes to IDLE -/

/-- The registers that a channel's way to IDLE moves. -/
def idleRegs (c : Nat) : List Nat := (pCH c).adr rSCH_STAT :: (pCH c).adr rSCH_ID :: shownRegs

theorem shownRegs_subset_idleRegs (c : Nat) : shownRegs ⊆ idleRegs c := fun _ h => by simp [idleRegs, h]

theorem below_notMem_idle (c : Nat) {p : Pg} (hd : p.die ≤ 2) (hp : p.page < 0x100) {o : Nat} (ho : o < 0x1000)
    (h : p.adr o ∉ shownRegs) : p.adr o ∉ idleRegs c := by
  simp [idleRegs, h, (ch_ne_below c _ hd hp ho).symm]

/-- What the page of a channel shows in IDLE. -/
def idlePage (s : State) (c : Nat) : State := putB (wrN s (pCH c) rSCH_STAT 0) (pCH c) fSCH_ID_HOLDS false

theorem idleChan_eq (s : State) (c : Nat) :
    idleChan s c =
      showExcl (showActive (idlePage (updRad s fun r => { r with chans := amErase c r.chans }) c) c false) := rfl

theorem otherRegs_idlePage (s : State) (c : Nat) : OtherRegs s (idlePage s c) (idleRegs c) :=
  ((otherRegs_wrN s (pCH c) rSCH_STAT 0).mono (by simp [idleRegs])).andThen
    (otherRegs_putB _ (pCH c) fSCH_ID_HOLDS false) (by simp [idleRegs])

theorem otherRegs_shownAgain (s : State) (c : Nat) (b : Bool) : OtherRegs s (showExcl (showActive s c b)) shownRegs :=
  (otherRegs_showActive s c b).trans (otherRegs_showExcl _)

theorem otherRegs_idleChan (s : State) (c : Nat) : OtherRegs s (idleChan s c) (idleRegs c) := by
  rw [idleChan_eq]
  exact ((otherRegs_updRad s _ _).trans (otherRegs_idlePage _ c)).andThen (otherRegs_shownAgain _ c false)
    (shownRegs_subset_idleRegs c)

theorem idleChan_rad (s : State) (c : Nat) : (idleChan s c).rad = { s.rad with chans := amErase c s.rad.chans } := by
  rw [idleChan_eq, showExcl_rad, showActive_rad, idlePage, putB_rad, wrN_rad, updRad]

theorem chan?_idleChan (s : State) (c d : Nat) : chan? (idleChan s c) d = if d = c then none else chan? s d := by
  rw [chan?, idleChan_rad, amGet_erase, chan?]

/-- A channel in IDLE holds no signal, and shows none. -/
theorem idleChan_shows (s : State) {c : Nat} (hc : c < 80) :
    chan? (idleChan s c) c = none ∧ rdN (idleChan s c) (pCH c) rSCH_STAT = 0 ∧
      flag (idleChan s c) (pCH c) fSCH_ID_HOLDS = false := by
  have hshown := otherRegs_shownAgain (idlePage (updRad s fun r => { r with chans := amErase c r.chans }) c) c false
  refine ⟨by rw [chan?_idleChan, if_pos rfl], ?_, ?_⟩
  · rw [idleChan_eq, hshown.rdN (ch_notMem_shown _ _) (ch_ne_rec hc (by decide)), idlePage,
      rdN_congr (rdA_putB_ne _ _ fSCH_ID_HOLDS _ (Pg.adr_ne _ (by decide))), rdN_wrN_same]
    rfl
  · rw [idleChan_eq, hshown.flag (ch_notMem_shown _ _) (ch_ne_rec hc (by decide)), idlePage]
    exact flag_putB_same _ _ _ _ (by decide) rfl

/-! ### A channel enters a state -/

theorem otherRegs_setChanSt (s : State) (c st : Nat) : OtherRegs s (setChanSt s c st) [(pCH c).adr rSCH_STAT] :=
  (otherRegs_updChan s c _ _).trans (otherRegs_put _ (pCH c) fSCH_STAT_STATE st)

theorem chan?_setChanSt (s : State) (c st : Nat) :
    chan? (setChanSt s c st) c = (chan? s c).map fun x => { x with st := st, from' := mono s } := by
  rw [setChanSt, chan?_of_rad (put_rad _ _ _ _), chan?_updChan_same]

theorem get_setChanSt (s : State) (c : Nat) {st : Nat} (hst : st < 8) :
    get (setChanSt s c st) (pCH c) fSCH_STAT_STATE = st :=
  get_put_lt _ _ _ (by decide) hst

/-- The other fields of STAT stay. -/
theorem flag_setChanSt (s : State) (c st : Nat) (f : Fld) (hoff : f.off = rSCH_STAT) (hlo : 3 ≤ f.lo)
    (hhi : f.lo + f.w ≤ 32) : flag (setChanSt s c st) (pCH c) f = flag s (pCH c) f := by
  rw [setChanSt, flag_put_apart _ _ fSCH_STAT_STATE f _ hoff hhi (.inr hlo), flag_congr (rdA_updChan _ _ _ _)]

end Sys2Proof.Machine
end

section
/-! The survey channels (R136–R140): pull-in, sync, loss, slips and release. -/

namespace Sys2Proof.Machine

/-! ### Pull-in (R137) -/

/-- A channel with PLI_OK enters LOCK. -/
def lockEntered (s : State) (c : Nat) : State := setChanSt (putB s (pCH c) fSCH_STAT_PLI_OK true) c 2

theorem lockEntered_shows {s : State} {c : Nat} {x : Chan} (hx : chan? s c = some x) :
    chanSt (lockEntered s c) c = 2 ∧ get (lockEntered s c) (pCH c) fSCH_STAT_STATE = 2 ∧
      flag (lockEntered s c) (pCH c) fSCH_STAT_PLI_OK = true ∧
      OtherRegs s (lockEntered s c) [(pCH c).adr rSCH_STAT] := by
  have hx' : chan? (putB s (pCH c) fSCH_STAT_PLI_OK true) c = some x := (chan?_of_rad (putB_rad _ _ _ _) c).trans hx
  refine ⟨?_, get_setChanSt _ c (by decide), ?_, (otherRegs_putB s (pCH c) fSCH_STAT_PLI_OK true).trans
    (otherRegs_setChanSt _ c 2)⟩
  · exact chanSt_of_chan? (s := lockEntered s c)
      (x := { x with st := 2, from' := mono (putB s (pCH c) fSCH_STAT_PLI_OK true) })
      (by rw [lockEntered, chan?_setChanSt, hx', Option.map_some])
  · rw [lockEntered, flag_setChanSt _ c 2 _ rfl (by decide) (by decide)]
    exact flag_putB_same _ _ _ _ (by decide) rfl

theorem exec_schPullinEnd {s : State} {ch : Fin 64} {x : Chan} (hx : chan? s ch = some x) (hst : x.st = 1) :
    (∃ c, exec (.schPullinEnd ch true) s = .next (lockEntered { s with clk := c } ch)) ∧
      ∃ c, exec (.schPullinEnd ch false) s = .next (idleChan { s with clk := c } ch) := by
  have hexec : ∀ ok, exec (.schPullinEnd ch ok) s = .next (if ok then lockEntered (advMono s (x.from' + pullinNs s)) ch
      else idleChan (advMono s (x.from' + pullinNs s + 1000000000)) ch) := fun ok => by
    simp only [exec, execSchPullinEnd, hx, hst, ne_eq, not_true_eq_false, if_false, lockEntered]
    cases ok
    · rfl
    · rfl
  obtain ⟨c, hc⟩ := advMono_eq s (x.from' + pullinNs s)
  obtain ⟨d, hd⟩ := advMono_eq s (x.from' + pullinNs s + 1000000000)
  exact ⟨⟨c, by rw [hexec, hc, if_pos rfl]⟩, ⟨d, by rw [hexec, hd, if_neg Bool.false_ne_true]⟩⟩

theorem schPullinEnd_locks {s : State} {ch : Fin 64} {x : Chan} (hx : chan? s ch = some x) (hst : x.st = 1) :
    Answers (exec (.schPullinEnd ch true) s) fun t => chanSt t ch = 2 ∧ get t (pCH ch) fSCH_STAT_STATE = 2 ∧
      flag t (pCH ch) fSCH_STAT_PLI_OK = true ∧ OtherRegs s t [(pCH ch).adr rSCH_STAT] := by
  obtain ⟨⟨c, hexec⟩, _⟩ := exec_schPullinEnd hx hst
  rw [hexec, answers_next]
  exact lockEntered_shows (s := { s with clk := c }) hx

theorem schPullinEnd_idles {s : State} {ch : Fin 64} {x : Chan} (hx : chan? s ch = some x) (hst : x.st = 1) :
    Answers (exec (.schPullinEnd ch false) s) fun t => chan? t ch = none ∧ rdN t (pCH ch) rSCH_STAT = 0 ∧
      flag t (pCH ch) fSCH_ID_HOLDS = false := by
  obtain ⟨_, c, hexec⟩ := exec_schPullinEnd hx hst
  rw [hexec, answers_next]
  exact idleChan_shows _ (ch.isLt.trans (by decide))

/-! ### Sync (R140) -/

/-- The SYNC of a channel, with the secondary code's where its signal has one. -/
def syncEntered (s : State) (c sys : Nat) : State :=
  let s1 := updChan (setChanSt s c 3) c fun x => { x with syncFrom := mono s }
  if sys = 1 then putB (putB s1 (pCH c) fSCH_STAT_SC_SYNC true) (pCH c) fSCH_STAT_INV false else s1

theorem exec_schBitSync {s : State} {ch : Fin 64} {x : Chan} (hx : chan? s ch = some x) (hst : x.st = 2) :
    exec (.schBitSync ch) s = .next (raise (syncEntered s ch x.sys) (pCH ch) 0) := by
  simp only [exec, execSchBitSync, hx, hst, ne_eq, not_true_eq_false, if_false, syncEntered]

theorem syncEntered_shows {s : State} {c : Nat} {x : Chan} (hx : chan? s c = some x) (sys : Nat) :
    chanSt (syncEntered s c sys) c = 3 ∧ get (syncEntered s c sys) (pCH c) fSCH_STAT_STATE = 3 ∧
      (sys = 1 → flag (syncEntered s c sys) (pCH c) fSCH_STAT_SC_SYNC = true) ∧
      OtherRegs s (syncEntered s c sys) [(pCH c).adr rSCH_STAT] := by
  have hsync : ∀ n, chanSt (updChan (setChanSt s c 3) c fun x => { x with syncFrom := n }) c = 3 := fun n =>
    chanSt_of_chan? (x := { x with st := 3, from' := mono s, syncFrom := n })
      (by rw [chan?_updChan_same, chan?_setChanSt, hx]; rfl)
  have hget : ∀ f : Chan → Chan, get (updChan (setChanSt s c 3) c f) (pCH c) fSCH_STAT_STATE = 3 := fun f =>
    (get_congr (rdA_updChan _ _ _ _)).trans (get_setChanSt s c (by decide))
  have hregs : ∀ f : Chan → Chan, OtherRegs s (updChan (setChanSt s c 3) c f) [(pCH c).adr rSCH_STAT] := fun f =>
    (otherRegs_setChanSt s c 3).trans (otherRegs_updChan _ c f _)
  by_cases hsys : sys = 1
  · simp only [syncEntered, if_pos hsys]
    refine ⟨?_, ?_, fun _ => ?_, ((hregs _).trans (otherRegs_putB _ (pCH c) fSCH_STAT_SC_SYNC true)).trans
      (otherRegs_putB _ (pCH c) fSCH_STAT_INV false)⟩
    · rw [chanSt, chan?_of_rad (putB_rad _ _ _ _), chan?_of_rad (putB_rad _ _ _ _), ← chanSt, hsync]
    · rw [putB, get_put_apart _ _ fSCH_STAT_INV fSCH_STAT_STATE _ rfl (by decide) (.inl (by decide)), putB,
        get_put_apart _ _ fSCH_STAT_SC_SYNC fSCH_STAT_STATE _ rfl (by decide) (.inl (by decide)), hget]
    · rw [flag_putB_apart _ _ fSCH_STAT_INV fSCH_STAT_SC_SYNC _ rfl (by decide) (.inr (by decide))]
      exact flag_putB_same _ _ _ _ (by decide) rfl
  · simp only [syncEntered, if_neg hsys]
    exact ⟨hsync _, hget _, fun h => absurd h hsys, hregs _⟩

theorem schBitSync_shows {s : State} {ch : Fin 64} {x : Chan} (hx : chan? s ch = some x) (hst : x.st = 2) :
    Answers (exec (.schBitSync ch) s) fun t => chanSt t ch = 3 ∧ get t (pCH ch) fSCH_STAT_STATE = 3 ∧
      intRaw t (pCH ch) 0 = true ∧ (x.sys = 1 → flag t (pCH ch) fSCH_STAT_SC_SYNC = true) ∧
      OtherRegs s t [(pCH ch).adr rSCH_STAT, (pCH ch).adr rINT_RAW] := by
  have hch : ch.val < 80 := ch.isLt.trans (by decide)
  obtain ⟨hstate, hget, hsc, hregs⟩ := syncEntered_shows hx x.sys
  have hraise := otherRegs_raise (syncEntered s ch x.sys) (pCH ch) 0
  have hapart : (pCH ch).adr rSCH_STAT ∉ [(pCH ch).adr rINT_RAW] := by simpa using Pg.adr_ne _ (by decide)
  rw [exec_schBitSync hx hst, answers_next]
  refine ⟨?_, ?_, intRaw_raise_ch _ hch (by decide), fun hsys => ?_,
    (hregs.mono (by simp)).andThen hraise (by simp)⟩
  · rw [chanSt, chan?_of_rad (raise_rad _ _ _), ← chanSt, hstate]
  · rw [hraise.get hapart (ch_ne_rec hch (by decide)), hget]
  · rw [hraise.flag hapart (ch_ne_rec hch (by decide)), hsc hsys]

/-! ### Loss and slips (R139) -/

theorem exec_schLost {s : State} {ch : Fin 64} (hst : chanSt s ch = 2 ∨ chanSt s ch = 3) :
    exec (.schLost ch) s = .next (bump (raise (idleChan s ch) (pCH ch) 1) pTRK rTRK_LOST_CNT) := by
  simp only [exec, execSchLost, if_pos hst]

theorem schLost_shows {s : State} {ch : Fin 64} (hst : chanSt s ch = 2 ∨ chanSt s ch = 3) :
    Answers (exec (.schLost ch) s) fun t => chan? t ch = none ∧ intRaw t (pCH ch) 1 = true ∧
      rdN t pTRK rTRK_LOST_CNT = min (rdN s pTRK rTRK_LOST_CNT + 1) 0xFFFFFFFF ∧
      (∀ c : Fin 80, c.val ≠ ch.val → chan? t c = chan? s c) := by
  have hch : ch.val < 80 := ch.isLt.trans (by decide)
  have hbump := otherRegs_bump (raise (idleChan s ch) (pCH ch) 1) pTRK rTRK_LOST_CNT
  have hlist : ∀ d, chan? (bump (raise (idleChan s ch) (pCH ch) 1) pTRK rTRK_LOST_CNT) d =
      if d = ch.val then none else chan? s d := fun d => by
    rw [chan?_of_rad (bump_rad _ _ _), chan?_of_rad (raise_rad _ _ _), chan?_idleChan]
  have hcount : rdN (raise (idleChan s ch) (pCH ch) 1) pTRK rTRK_LOST_CNT = rdN s pTRK rTRK_LOST_CNT := by
    rw [(otherRegs_raise _ (pCH ch) 1).rdN (below_notMem_ch _ _ (by decide) (by decide) (by decide)) (by decide),
      (otherRegs_idleChan s ch).rdN (below_notMem_idle _ (by decide) (by decide) (by decide) (by decide)) (by decide)]
  rw [exec_schLost hst, answers_next]
  refine ⟨by rw [hlist, if_pos rfl], ?_, by rw [rdN_bump_same, hcount], fun c hc => by rw [hlist, if_neg hc]⟩
  rw [hbump.intRaw 1 (ch_notMem_below _ _ (by decide) (by decide) (by decide)) (ch_ne_rec hch (by decide))]
  exact intRaw_raise_ch _ hch (by decide)

/-- A slip marks the next measurement. -/
def slipMarked (s : State) (c : Nat) : State := updChan s c fun x => { x with slip := true }

theorem exec_schSlip {s : State} {ch : Fin 64} (hst : chanSt s ch = 2 ∨ chanSt s ch = 3) :
    exec (.schSlip ch) s = .next (bump (raise (slipMarked s ch) (pCH ch) 2) (pCH ch) rSCH_SLIP_CNT) := by
  simp only [exec, execSchSlip, if_pos hst, slipMarked]

theorem schSlip_shows {s : State} {ch : Fin 64} (hst : chanSt s ch = 2 ∨ chanSt s ch = 3) :
    Answers (exec (.schSlip ch) s) fun t => (chan? t ch).map (fun x => x.slip) = some true ∧
      intRaw t (pCH ch) 2 = true ∧
      rdN t (pCH ch) rSCH_SLIP_CNT = min (rdN s (pCH ch) rSCH_SLIP_CNT + 1) 0xFFFFFFFF ∧ chanSt t ch = chanSt s ch ∧
      OtherRegs s t [(pCH ch).adr rSCH_SLIP_CNT, (pCH ch).adr rINT_RAW] := by
  have hch : ch.val < 80 := ch.isLt.trans (by decide)
  obtain ⟨x, hx⟩ := exists_chan?_of_chanSt (s := s) (c := ch) (by omega)
  have hraise : OtherRegs s (raise (slipMarked s ch) (pCH ch) 2) [(pCH ch).adr rINT_RAW] :=
    (otherRegs_updChan s ch _ _).trans (otherRegs_raise _ (pCH ch) 2)
  have hbump := otherRegs_bump (raise (slipMarked s ch) (pCH ch) 2) (pCH ch) rSCH_SLIP_CNT
  have hchan : chan? (bump (raise (slipMarked s ch) (pCH ch) 2) (pCH ch) rSCH_SLIP_CNT) ch =
      some { x with slip := true } := by
    rw [chan?_of_rad (bump_rad _ _ _), chan?_of_rad (raise_rad _ _ _), slipMarked, chan?_updChan_same, hx,
      Option.map_some]
  have hapart : (pCH ch).adr rINT_RAW ≠ (pCH ch).adr rSCH_SLIP_CNT := Pg.adr_ne _ (by decide)
  rw [exec_schSlip hst, answers_next]
  refine ⟨by rw [hchan, Option.map_some], ?_, ?_, ?_, (hraise.mono (by simp)).andThen hbump (by simp)⟩
  · rw [hbump.intRaw 2 (by simpa using hapart) (ch_ne_rec hch (by decide))]
    exact intRaw_raise_ch _ hch (by decide)
  · rw [rdN_bump_same, hraise.rdN (by simpa using hapart.symm) (ch_ne_rec hch (by decide))]
  · rw [chanSt_of_chan? hchan, chanSt_of_chan? hx]

/-! ### Release (R136) -/

theorem exec_chRelease {r : Requester} {ch : Fin 80} {v : Word} {s : State} (hw : writable s r (pCH ch) = true)
    (hrelease : fSCH_CTRL_RELEASE.of v.toNat = 1) : exec (.chRelease r ch v) s = .next (idleChan s ch) := by
  simp only [exec, execChRelease, onWrite_writable hw, chanCtrl, if_pos hrelease]

theorem chRelease_shows {r : Requester} {ch : Fin 80} {v : Word} {s : State} (hw : writable s r (pCH ch) = true)
    (hrelease : fSCH_CTRL_RELEASE.of v.toNat = 1) :
    Answers (exec (.chRelease r ch v) s) fun t => chan? t ch = none ∧ rdN t (pCH ch) rSCH_STAT = 0 ∧
      (∀ c : Fin 80, c ≠ ch → chan? t c = chan? s c) := by
  obtain ⟨hnone, hstat, _⟩ := idleChan_shows s ch.isLt
  rw [exec_chRelease hw hrelease, answers_next]
  exact ⟨hnone, hstat, fun c hc => by rw [chan?_idleChan, if_neg (Fin.val_ne_of_ne hc)]⟩

/-! ### The rows -/

/-- Settles O28: a change of state moves the channel's entry and its STAT; the way to IDLE is one operation, which
leaves the other channels. -/
theorem surveyChannels : Obligations.SurveyChannels :=
  ⟨fun _ _ _ hx hst => schPullinEnd_locks hx hst, fun _ _ _ hx hst => schPullinEnd_idles hx hst,
    fun _ _ _ hx hst => schBitSync_shows hx hst, fun _ _ hst => schLost_shows hst, fun _ _ hst => schSlip_shows hst,
    fun _ _ _ _ hw hrelease => chRelease_shows hw hrelease⟩

end Sys2Proof.Machine
end

section
/-! The timing channels (R141–R148): moves between the channel classes, dump intervals with their dumps and updates, the
shape monitor, and the measurement epochs. -/

namespace Sys2Proof.Machine

/-! ### Moves (R141) -/

theorem otherRegs_raiseIf (s : State) (b : Bool) (p : Pg) (bit : Nat) :
    OtherRegs s (raiseIf s b p bit) [p.adr rINT_RAW] := by
  rw [raiseIf]
  split
  · exact otherRegs_raise s p bit
  · exact .refl s _

theorem intRaw_raise_trk (s : State) {bit : Nat} (hb : bit < 32) : intRaw (raise s pTRK bit) pTRK bit = true :=
  intRaw_raise_same (.inr rfl) s hb

theorem rdN_wr_same (s : State) (p : Pg) (o : Nat) (v : Word) : rdN (wr s p o v) p o = v.toNat := by
  rw [rdN, rd, wr, rdA_wrA, if_pos rfl]

theorem otherRegs_wr (s : State) (p : Pg) (o : Nat) (v : Word) : OtherRegs s (wr s p o v) [p.adr o] :=
  fun _ ha _ => rdA_wrA_ne s v (by simpa using ha)

/-- Both branches lie below a bound. -/
theorem ite_lt_of_lt {c : Prop} [Decidable c] {a b n : Nat} (ha : a < n) (hb : b < n) : (if c then a else b) < n := by
  split
  · exact ha
  · exact hb

/-- A reason code fits its field. -/
theorem moveRefusal_lt (s : State) (src dst : Nat) (demote : Bool) : moveRefusal s src dst demote < 8 := by
  rw [moveRefusal]
  exact ite_lt_of_lt (by decide) (ite_lt_of_lt (by decide) (ite_lt_of_lt (by decide)
    (ite_lt_of_lt (by decide) (by decide))))

/-- The request as TRK.PROMOTE shows it, before it is judged. -/
def moveAsked (s : State) (src dst dir : Nat) : State :=
  put (putB (wrN s pTRK rTRK_PROMOTE (src + dst * 0x100 + dir * 0x10000)) pTRK fTRK_PROMOTE_STAT_REJ false) pTRK
    fTRK_PROMOTE_STAT_REASON 0

/-- The move is pending. -/
def moveSet (s : State) (src dst dir : Nat) : State :=
  putB (updRad s fun x => { x with move := some (src, dst, dir == 1) }) pTRK fTRK_PROMOTE_STAT_PEND true

/-- A demotion reserves the survey channel it goes to. -/
def dstReserved (s : State) (dst dir : Nat) : State := if dir = 1 then putB s (pCH dst) fSCH_ID_RESERVED true else s

theorem exec_trkPromoteGo {r : Requester} {v : Word} {s : State} {src dst dir : Nat} (hw : writable s r pTRK = true)
    (hgo : fTRK_PROMOTE_GO.of v.toNat = 1) (hsrc : fTRK_PROMOTE_SRC.of v.toNat = src)
    (hdst : fTRK_PROMOTE_DST.of v.toNat = dst) (hdir : fTRK_PROMOTE_DIR.of v.toNat = dir) :
    exec (.trkPromoteGo r v) s = .next
      (if moveRefusal s src dst (dir == 1) ≠ 0 then
        rejectMove (moveAsked s src dst dir) (moveRefusal s src dst (dir == 1))
       else dstReserved (moveSet (moveAsked s src dst dir) src dst dir) dst dir) := by
  simp only [exec, execTrkPromoteGo, onWrite_writable hw, hgo, hsrc, hdst, hdir, one_ne_zero, if_false, moveAsked,
    moveSet, dstReserved]

theorem moveAsked_shows (s : State) (src dst dir : Nat) :
    (moveAsked s src dst dir).rad = s.rad ∧ flag (moveAsked s src dst dir) pTRK fTRK_PROMOTE_STAT_REJ = false := by
  refine ⟨by rw [moveAsked, put_rad, putB_rad, wrN_rad], ?_⟩
  rw [moveAsked, flag_put_apart _ _ fTRK_PROMOTE_STAT_REASON fTRK_PROMOTE_STAT_REJ _ rfl (by decide)
    (.inl (by decide))]
  exact flag_putB_same _ _ _ _ (by decide) rfl

theorem moveSet_shows (s : State) (src dst dir : Nat) :
    (moveSet s src dst dir).rad.move = some (src, dst, dir == 1) ∧
      flag (moveSet s src dst dir) pTRK fTRK_PROMOTE_STAT_PEND = true ∧
      flag (moveSet s src dst dir) pTRK fTRK_PROMOTE_STAT_REJ = flag s pTRK fTRK_PROMOTE_STAT_REJ := by
  refine ⟨by rw [moveSet, putB_rad, updRad], flag_putB_same _ _ _ _ (by decide) rfl, ?_⟩
  rw [moveSet, flag_putB_apart _ _ fTRK_PROMOTE_STAT_PEND fTRK_PROMOTE_STAT_REJ _ rfl (by decide) (.inr (by decide))]
  rfl

theorem dstReserved_rad (s : State) (dst dir : Nat) : (dstReserved s dst dir).rad = s.rad := by
  rw [dstReserved]
  split
  · exact putB_rad _ _ _ _
  · rfl

theorem otherRegs_dstReserved (s : State) (dst dir : Nat) :
    OtherRegs s (dstReserved s dst dir) [(pCH dst).adr rSCH_ID] := by
  rw [dstReserved]
  split
  · exact otherRegs_putB s (pCH dst) fSCH_ID_RESERVED true
  · exact .refl s _

theorem rejectMove_shows (s : State) {why : Nat} (hwhy : why < 8) :
    (rejectMove s why).rad = s.rad ∧ flag (rejectMove s why) pTRK fTRK_PROMOTE_STAT_REJ = true ∧
      get (rejectMove s why) pTRK fTRK_PROMOTE_STAT_REASON = why ∧ intRaw (rejectMove s why) pTRK 2 = true := by
  have hraise := otherRegs_raise (put (putB s pTRK fTRK_PROMOTE_STAT_REJ true) pTRK fTRK_PROMOTE_STAT_REASON why) pTRK 2
  refine ⟨by rw [rejectMove, raise_rad, put_rad, putB_rad], ?_, ?_, intRaw_raise_trk _ (by decide)⟩
  · rw [rejectMove, hraise.flag (by decide) (by decide),
      flag_put_apart _ _ fTRK_PROMOTE_STAT_REASON fTRK_PROMOTE_STAT_REJ _ rfl (by decide) (.inl (by decide))]
    exact flag_putB_same _ _ _ _ (by decide) rfl
  · rw [rejectMove, hraise.get (by decide) (by decide)]
    exact get_put_lt _ _ _ (by decide) hwhy

theorem trkPromoteGo_shows {r : Requester} {v : Word} {s : State} {src dst dir : Nat} (hw : writable s r pTRK = true)
    (hgo : fTRK_PROMOTE_GO.of v.toNat = 1) (hsrc : fTRK_PROMOTE_SRC.of v.toNat = src)
    (hdst : fTRK_PROMOTE_DST.of v.toNat = dst) (hdir : fTRK_PROMOTE_DIR.of v.toNat = dir) :
    Answers (exec (.trkPromoteGo r v) s) fun t =>
      (moveRefusal s src dst (dir == 1) = 0 → t.rad.move = some (src, dst, dir == 1) ∧
        flag t pTRK fTRK_PROMOTE_STAT_PEND = true ∧ flag t pTRK fTRK_PROMOTE_STAT_REJ = false) ∧
      (moveRefusal s src dst (dir == 1) ≠ 0 → t.rad = s.rad ∧ flag t pTRK fTRK_PROMOTE_STAT_REJ = true ∧
        get t pTRK fTRK_PROMOTE_STAT_REASON = moveRefusal s src dst (dir == 1) ∧ intRaw t pTRK 2 = true) := by
  obtain ⟨hrad, hrej⟩ := moveAsked_shows s src dst dir
  rw [exec_trkPromoteGo hw hgo hsrc hdst hdir, answers_next]
  refine ⟨fun hserved => ?_, fun hrefused => ?_⟩
  · obtain ⟨hmove, hpend, hsame⟩ := moveSet_shows (moveAsked s src dst dir) src dst dir
    have hdest := otherRegs_dstReserved (moveSet (moveAsked s src dst dir) src dst dir) dst dir
    have hapart : pTRK.adr rTRK_PROMOTE_STAT ∉ [(pCH dst).adr rSCH_ID] :=
      below_notMem_ch _ _ (by decide) (by decide) (by decide)
    rw [if_neg (not_not.mpr hserved)]
    exact ⟨by rw [dstReserved_rad, hmove], by rw [hdest.flag hapart (by decide), hpend],
      by rw [hdest.flag hapart (by decide), hsame, hrej]⟩
  · obtain ⟨hkept, hrest⟩ := rejectMove_shows (moveAsked s src dst dir) (moveRefusal_lt s src dst (dir == 1))
    rw [if_pos hrefused]
    exact ⟨hkept.trans hrad, hrest⟩

/-! ### The move itself (R141) -/

/-- What the page of a channel shows of the signal that it takes up. -/
def openPage (s : State) (c : Nat) (x : Chan) : State :=
  put (wrN s (pCH c) rSCH_ID (x.sys + x.prn * 0x100 + 0x10000)) (pCH c) fSCH_STAT_STATE x.st

theorem openChan_eq (s : State) (c : Nat) (x : Chan) :
    openChan s c x = showExcl
      (showActive (openPage (updRad s fun r => { r with chans := amSet c x r.chans }) c x) c true) := rfl

theorem chan?_openChan (s : State) (c d : Nat) (x : Chan) :
    chan? (openChan s c x) d = if d = c then some x else chan? s d := by
  rw [openChan_eq, chan?_of_rad (showExcl_rad _), chan?_of_rad (showActive_rad _ _ _), openPage,
    chan?_of_rad (put_rad _ _ _ _), chan?_of_rad (wrN_rad _ _ _ _), chan?, updRad, amGet_set, chan?]

theorem otherRegs_openChan (s : State) (c : Nat) (x : Chan) : OtherRegs s (openChan s c x) (idleRegs c) := by
  have hpage : ∀ t, OtherRegs t (openPage t c x) (idleRegs c) := fun t =>
    ((otherRegs_wrN t (pCH c) rSCH_ID _).mono (by simp [idleRegs])).andThen
      (otherRegs_put _ (pCH c) fSCH_STAT_STATE _) (by simp [idleRegs])
  rw [openChan_eq]
  exact ((otherRegs_updRad s _ _).trans (hpage _)).andThen (otherRegs_shownAgain _ c true)
    (shownRegs_subset_idleRegs c)

theorem otherRegs_endMove (s : State) (dst : Nat) :
    OtherRegs s (endMove s dst) [pTRK.adr rTRK_PROMOTE_STAT, (pCH dst).adr rSCH_ID] := by
  have hpend : OtherRegs s (putB (updRad s fun r => { r with move := none }) pTRK fTRK_PROMOTE_STAT_PEND false)
      [pTRK.adr rTRK_PROMOTE_STAT, (pCH dst).adr rSCH_ID] :=
    (otherRegs_updRad s _ _).andThen (otherRegs_putB _ pTRK fTRK_PROMOTE_STAT_PEND false) (by simp)
  simp only [endMove]
  split
  · exact hpend.andThen (otherRegs_putB _ (pCH dst) fSCH_ID_RESERVED false) (by simp)
  · exact hpend

theorem endMove_shows (s : State) (dst : Nat) :
    (endMove s dst).rad = { s.rad with move := none } ∧ flag (endMove s dst) pTRK fTRK_PROMOTE_STAT_PEND = false := by
  have hpend : flag (putB (updRad s fun r => { r with move := none }) pTRK fTRK_PROMOTE_STAT_PEND false) pTRK
      fTRK_PROMOTE_STAT_PEND = false := flag_putB_same _ _ _ _ (by decide) rfl
  have hapart : pTRK.adr rTRK_PROMOTE_STAT ∉ [(pCH dst).adr rSCH_ID] :=
    below_notMem_ch _ _ (by decide) (by decide) (by decide)
  simp only [endMove]
  split
  · exact ⟨by rw [putB_rad, putB_rad, updRad],
      ((otherRegs_putB _ (pCH dst) fSCH_ID_RESERVED false).flag hapart (by decide)).trans hpend⟩
  · exact ⟨by rw [putB_rad, updRad], hpend⟩

/-- The status of the source, shown by the destination in SYNC. -/
def statCopied (s : State) (dst keep : Nat) : State :=
  put (wrN s (pCH dst) rSCH_STAT keep) (pCH dst) fSCH_STAT_STATE 3

/-- A timing channel starts with the rates of the loops. -/
def ratesTaken (s : State) (dst : Nat) (car code : Word) : State :=
  if 64 ≤ dst then wr (wr s (pCH dst) rTCH_CAR_NOW car) (pCH dst) rTCH_CODE_NOW code else s

/-- The destination takes up the source's signal in SYNC, and the source goes to IDLE. -/
theorem copyChan_eq (s : State) (src dst : Nat) (x : Chan) (pc : PC64) (car code : Word) :
    ∃ (y : Chan) (keep : Nat), (y.sys, y.prn, y.st) = (x.sys, x.prn, 3) ∧
      copyChan s src dst x pc car code =
        ratesTaken (statCopied (openChan (idleChan s src) dst y) dst keep) dst car code := ⟨_, _, rfl, rfl⟩

/-- The registers that a move of a signal moves beside those of the request. -/
def moveRegs (src dst : Nat) : List Nat :=
  (pCH dst).adr rTCH_CAR_NOW :: (pCH dst).adr rTCH_CODE_NOW :: (idleRegs src ++ idleRegs dst)

theorem below_notMem_move (src dst : Nat) {p : Pg} (hd : p.die ≤ 2) (hp : p.page < 0x100) {o : Nat} (ho : o < 0x1000)
    (h : p.adr o ∉ shownRegs) : p.adr o ∉ moveRegs src dst := by
  simp [moveRegs, below_notMem_idle _ hd hp ho h, (ch_ne_below dst _ hd hp ho).symm]

theorem otherRegs_ratesTaken (s : State) (dst : Nat) (car code : Word) :
    OtherRegs s (ratesTaken s dst car code) [(pCH dst).adr rTCH_CAR_NOW, (pCH dst).adr rTCH_CODE_NOW] := by
  rw [ratesTaken]
  split
  · exact ((otherRegs_wr s (pCH dst) rTCH_CAR_NOW car).mono (by simp)).andThen
      (otherRegs_wr _ (pCH dst) rTCH_CODE_NOW code) (by simp)
  · exact .refl s _

theorem ratesTaken_rad (s : State) (dst : Nat) (car code : Word) : (ratesTaken s dst car code).rad = s.rad := by
  rw [ratesTaken]
  split
  · rw [wr_rad, wr_rad]
  · rfl

theorem ratesTaken_shows (s : State) {dst : Nat} (h : 64 ≤ dst) (car code : Word) :
    rdN (ratesTaken s dst car code) (pCH dst) rTCH_CAR_NOW = car.toNat ∧
      rdN (ratesTaken s dst car code) (pCH dst) rTCH_CODE_NOW = code.toNat := by
  rw [ratesTaken, if_pos h]
  exact ⟨(rdN_congr (rdA_wrA_ne _ _ (Pg.adr_ne _ (by decide)))).trans (rdN_wr_same _ _ _ _), rdN_wr_same _ _ _ _⟩

theorem otherRegs_copyChan (s : State) (src dst : Nat) (x : Chan) (pc : PC64) (car code : Word) :
    OtherRegs s (copyChan s src dst x pc car code) (moveRegs src dst) := by
  obtain ⟨y, keep, _, heq⟩ := copyChan_eq s src dst x pc car code
  have hstat : ∀ t, OtherRegs t (statCopied t dst keep) [(pCH dst).adr rSCH_STAT] := fun t =>
    (otherRegs_wrN t (pCH dst) rSCH_STAT keep).trans (otherRegs_put _ (pCH dst) fSCH_STAT_STATE 3)
  rw [heq]
  exact ((((otherRegs_idleChan s src).mono fun _ h => by simp [moveRegs, h]).andThen (otherRegs_openChan _ dst y)
    fun _ h => by simp [moveRegs, h]).andThen (hstat _) (by simp [moveRegs, idleRegs])).andThen
    (otherRegs_ratesTaken _ dst car code) (by simp [moveRegs])

theorem copyChan_shows (s : State) {src dst : Nat} (hne : src ≠ dst) (x : Chan) (pc : PC64) (car code : Word) :
    chan? (copyChan s src dst x pc car code) src = none ∧
      (chan? (copyChan s src dst x pc car code) dst).map (fun y => (y.sys, y.prn, y.st)) = some (x.sys, x.prn, 3) ∧
      (copyChan s src dst x pc car code).rad.move = s.rad.move ∧
      (64 ≤ dst → rdN (copyChan s src dst x pc car code) (pCH dst) rTCH_CAR_NOW = car.toNat ∧
        rdN (copyChan s src dst x pc car code) (pCH dst) rTCH_CODE_NOW = code.toNat) := by
  obtain ⟨y, keep, hy, heq⟩ := copyChan_eq s src dst x pc car code
  have hlist : ∀ d, chan? (copyChan s src dst x pc car code) d =
      if d = dst then some y else if d = src then none else chan? s d := fun d => by
    rw [heq, chan?_of_rad (ratesTaken_rad _ _ _ _), statCopied, chan?_of_rad (put_rad _ _ _ _),
      chan?_of_rad (wrN_rad _ _ _ _), chan?_openChan, chan?_idleChan]
  refine ⟨by rw [hlist, if_neg hne, if_pos rfl], by rw [hlist, if_pos rfl, Option.map_some, hy], ?_, fun h => ?_⟩
  · rw [heq, ratesTaken_rad, statCopied, put_rad, wrN_rad, openChan_eq, showExcl_rad, showActive_rad, openPage, put_rad,
      wrN_rad, updRad, idleChan_rad]
  · rw [heq]
    exact ratesTaken_shows _ h car code

theorem exec_trkMove {s : State} {src dst : Nat} {b : Bool} {x : Chan} (hmove : s.rad.move = some (src, dst, b))
    (hx : chan? s src = some x) (pc : PC64) (car code : Word) :
    ∃ c, exec (.trkMove pc car code) s = .next
      (bump (raise (copyChan (endMove { s with clk := c } dst) src dst x pc car code) pTRK 1) pTRK
        rTRK_PROMOTE_CNT) := by
  obtain ⟨p, hadv⟩ := advPc_eq s pc
  refine ⟨{ s.clk with p := p }, ?_⟩
  simp only [exec, execTrkMove, hmove, hx, hadv]

theorem trkMove_shows {s : State} {src dst : Fin 80} {b : Bool} {x : Chan}
    (hmove : s.rad.move = some (src.val, dst.val, b)) (hx : chan? s src = some x) (hne : src ≠ dst) (pc : PC64)
    (car code : Word) :
    Answers (exec (.trkMove pc car code) s) fun t => t.rad.move = none ∧ chan? t src = none ∧
      (chan? t dst).map (fun y => (y.sys, y.prn, y.st)) = some (x.sys, x.prn, 3) ∧
      flag t pTRK fTRK_PROMOTE_STAT_PEND = false ∧ intRaw t pTRK 1 = true ∧
      rdN t pTRK rTRK_PROMOTE_CNT = min (rdN s pTRK rTRK_PROMOTE_CNT + 1) 0xFFFFFFFF ∧
      (64 ≤ dst.val → rdN t (pCH dst) rTCH_CAR_NOW = car.toNat ∧ rdN t (pCH dst) rTCH_CODE_NOW = code.toNat) := by
  obtain ⟨c, hexec⟩ := exec_trkMove hmove hx pc car code
  rw [hexec, answers_next]
  obtain ⟨hended, hpend⟩ := endMove_shows { s with clk := c } dst
  have hend := otherRegs_endMove { s with clk := c } dst
  generalize endMove { s with clk := c } dst.val = e at hended hpend hend
  obtain ⟨hsrc, hdst, hsame, hrates⟩ := copyChan_shows e (Fin.val_ne_of_ne hne) x pc car code
  have hcopy := otherRegs_copyChan e src dst x pc car code
  generalize copyChan e src.val dst.val x pc car code = m at hsrc hdst hsame hrates hcopy
  have hrad : (bump (raise m pTRK 1) pTRK rTRK_PROMOTE_CNT).rad = m.rad := by rw [bump_rad, raise_rad]
  have hbump := otherRegs_bump (raise m pTRK 1) pTRK rTRK_PROMOTE_CNT
  have htail : OtherRegs m (bump (raise m pTRK 1) pTRK rTRK_PROMOTE_CNT)
      [pTRK.adr rINT_RAW, pTRK.adr rTRK_PROMOTE_CNT] :=
    ((otherRegs_raise m pTRK 1).mono (by simp)).andThen hbump (by simp)
  have hpage : ∀ o, (pCH dst).adr o ∉ [pTRK.adr rINT_RAW, pTRK.adr rTRK_PROMOTE_CNT] := fun o => by
    simp (disch := decide) [ch_ne_below]
  refine ⟨by rw [hrad, hsame, hended], by rw [chan?_of_rad hrad, hsrc], by rw [chan?_of_rad hrad, hdst], ?_, ?_, ?_,
    fun h => ?_⟩
  · rw [htail.flag (by decide) (by decide), hcopy.flag
      (below_notMem_move _ _ (by decide) (by decide) (by decide) (by decide)) (by decide), hpend]
  · rw [hbump.intRaw 1 (by decide) (by decide)]
    exact intRaw_raise_trk m (by decide)
  · rw [rdN_bump_same, (otherRegs_raise m pTRK 1).rdN (by decide) (by decide), hcopy.rdN
      (below_notMem_move _ _ (by decide) (by decide) (by decide) (by decide)) (by decide), hend.rdN (by
        simpa using ⟨pTRK.adr_ne (by decide), (ch_ne_below dst rSCH_ID (p := pTRK) (by decide) (by decide)
          (by decide)).symm⟩) (by decide)]
    rfl
  · obtain ⟨hcar, hcode⟩ := hrates h
    exact ⟨(htail.rdN (hpage _) (ch_ne_rec dst.isLt (by decide))).trans hcar,
      (htail.rdN (hpage _) (ch_ne_rec dst.isLt (by decide))).trans hcode⟩

/-! ### Intervals and dumps (R142) -/

theorem timing_lt (ch : Fin 16) : 64 + ch.val < 80 := by omega

/-- A channel without a staged update starts its next interval, and the one that ended leaves a dump. -/
def nextInterval (x : Chan) (head : Option DumpHead) (pc : PC64) (edge : Bool) (phase : Word) : Chan :=
  { x with dump := head, seq := if x.b.isSome then (x.seq + 1) % 0x10000 else 0, b := some pc, edge := edge,
           late := false, epoch := false, phase := phase.toNat, quiet := x.quiet + 1 }

theorem exec_tchBoundary {s : State} {ch : Fin 16} {x : Chan} (hx : chan? s (64 + ch) = some x)
    (hcommit : x.commit = none) (pc : PC64) (edge : Bool) (phase : Word) :
    ∃ t, exec (.tchBoundary ch pc edge phase) s = .next t ∧ t.regs = s.regs ∧
      chan? t (64 + ch) = some (nextInterval x (x.b.map fun b => ⟨x.seq, b, x.late, x.epoch, x.edge,
        rdN s (pCH (64 + ch)) rTCH_CAR_NOW, rdN s (pCH (64 + ch)) rTCH_CODE_NOW, x.phase⟩) pc edge phase) := by
  obtain ⟨p, hadv⟩ := advPc_eq s pc
  have hx' : chan? { s with clk := { s.clk with p := p } } (64 + ch) = some x := hx
  simp only [exec, execTchBoundary, hx, hcommit, hadv]
  refine ⟨_, rfl, updChan_regs _ _ _, ?_⟩
  rw [chan?_updChan_same, hx', Option.map_some, nextInterval, hcommit]
  rfl

theorem tchBoundary_shows {s : State} {ch : Fin 16} {x : Chan} (hx : chan? s (64 + ch) = some x)
    (hcommit : x.commit = none) (pc : PC64) (edge : Bool) (phase : Word) :
    Answers (exec (.tchBoundary ch pc edge phase) s) fun t =>
      (chan? t (64 + ch)).map (fun y => (y.seq, y.b, y.edge, y.phase, y.quiet)) =
        some (if x.b.isSome then (x.seq + 1) % 0x10000 else 0, some pc, edge, phase.toNat, x.quiet + 1) ∧
      (x.b.isSome = true → (chan? t (64 + ch)).bind (fun y => y.dump.map fun h => (h.seq, some h.b)) =
        some (x.seq, x.b)) ∧ t.regs = s.regs := by
  obtain ⟨t, hexec, hregs, hchan⟩ := exec_tchBoundary hx hcommit pc edge phase
  rw [hexec, answers_next, hchan]
  refine ⟨rfl, fun hstarted => ?_, hregs⟩
  obtain ⟨b, hb⟩ := Option.isSome_iff_exists.mp hstarted
  simp only [nextInterval, hb, Option.map_some, Option.bind_some]

/-- A dump in its slot, shown and counted for its channel. -/
def dumpStored (s : State) (c : Nat) (h : DumpHead) (words : List Nat) : State :=
  wrN (updChan (wrWords s (pCH c) (dumpSlot h.seq) words) c fun x => { x with dump := none, dumps := x.dumps + 1 })
    (pCH c) rTCH_DUMP_SEQ h.seq

/-- An overwritten dump is counted where nobody read it. -/
def overrunCounted (s : State) (p : Pg) (unread : Bool) : State :=
  if unread then bump (raise s p 4) p rTCH_OVR_CNT else s

theorem exec_tchDump {s : State} {ch : Fin 16} {x : Chan} {h : DumpHead} (hx : chan? s (64 + ch) = some x)
    (hdump : x.dump = some h) (taps : List (Int × Int)) (noise : Int × Int) :
    ∃ c unread, exec (.tchDump ch taps noise) s = .next
      (overrunCounted (raise (dumpStored { s with clk := c } (64 + ch) h (dumpWords h taps noise)) (pCH (64 + ch)) 0)
        (pCH (64 + ch)) unread) := by
  cases hb : x.b with
  | none =>
    refine ⟨s.clk, decide (8 ≤ x.dumps) && !bitOf (rdN s (pCH (64 + ch)) (dumpSlot h.seq)) 16, ?_⟩
    simp only [exec, execTchDump, hx, hdump, hb, overrunCounted, dumpStored]
  | some b =>
    obtain ⟨p, hadv⟩ := advPc_eq s (b + BitVec.ofNat 64 (2000 * 65536))
    refine ⟨{ s.clk with p := p }, decide (8 ≤ x.dumps) && !bitOf (rdN s (pCH (64 + ch)) (dumpSlot h.seq)) 16, ?_⟩
    simp only [exec, execTchDump, hx, hdump, hb, hadv, overrunCounted, dumpStored]

theorem dumpSlot_ge (k : Nat) : 0x400 ≤ dumpSlot k := Nat.le_add_right _ _

theorem dumpSlot_lt (k : Nat) : dumpSlot k < 0x800 := by
  rw [dumpSlot]
  omega

theorem length_dumpWords (h : DumpHead) (taps : List (Int × Int)) (noise : Int × Int) :
    (dumpWords h taps noise).length = 32 := rfl

theorem dumpStored_shows (s : State) (c : Nat) (h : DumpHead) (words : List Nat) :
    chan? (dumpStored s c h words) c = (chan? s c).map (fun x => { x with dump := none, dumps := x.dumps + 1 }) ∧
      rdN (dumpStored s c h words) (pCH c) rTCH_DUMP_SEQ = h.seq % 2 ^ 32 ∧
      ∀ k, k < words.length →
        rdN (dumpStored s c h words) (pCH c) (dumpSlot h.seq + 4 * k) = ix words k 0 % 2 ^ 32 := by
  refine ⟨?_, rdN_wrN_same _ _ _ _, fun k hk => ?_⟩
  · rw [dumpStored, chan?_of_rad (wrN_rad _ _ _ _), chan?_updChan_same, chan?_of_rad (wrWords_rad _ _ _ _)]
  · have hslot := dumpSlot_ge h.seq
    rw [dumpStored, rdN_wrN_ne _ _ _ _ _ _ (Pg.adr_ne _ (by simp only [rTCH_DUMP_SEQ]; omega)),
      rdN_congr (rdA_updChan _ _ _ _), rdN_wrWords _ _ _ hk]

theorem overrunCounted_rad (s : State) (p : Pg) (unread : Bool) : (overrunCounted s p unread).rad = s.rad := by
  rw [overrunCounted]
  split
  · rw [bump_rad, raise_rad]
  · rfl

theorem otherRegs_overrunCounted (s : State) (p : Pg) (unread : Bool) :
    OtherRegs s (overrunCounted s p unread) [p.adr rINT_RAW, p.adr rTCH_OVR_CNT] := by
  rw [overrunCounted]
  split
  · exact ((otherRegs_raise s p 4).mono (by simp)).andThen (otherRegs_bump _ p rTCH_OVR_CNT) (by simp)
  · exact .refl s _

/-- An overrun leaves the interrupt bit of the dump. -/
theorem intRaw_overrunCounted (s : State) {c : Nat} (hc : c < 80) (unread : Bool) :
    intRaw (overrunCounted s (pCH c) unread) (pCH c) 0 = intRaw s (pCH c) 0 := by
  have hrec := ch_ne_rec hc (o := rINT_RAW) (by decide)
  rw [overrunCounted]
  split
  · rw [(otherRegs_bump _ (pCH c) rTCH_OVR_CNT).intRaw 0 (by simpa using Pg.adr_ne _ (by decide)) hrec]
    exact raise_other s (pCH c) 4 0 (by decide) (by decide) (offRec_of_page hrec)
  · rfl

theorem tchDump_shows {s : State} {ch : Fin 16} {x : Chan} {h : DumpHead} (hx : chan? s (64 + ch) = some x)
    (hdump : x.dump = some h) (taps : List (Int × Int)) (noise : Int × Int) :
    Answers (exec (.tchDump ch taps noise) s) fun t =>
      (chan? t (64 + ch)).map (fun y => (y.dump, y.dumps)) = some (none, x.dumps + 1) ∧
      rdN t (pCH (64 + ch)) rTCH_DUMP_SEQ = h.seq % 2 ^ 32 ∧ intRaw t (pCH (64 + ch)) 0 = true ∧
      (∀ k : Fin 32, rdN t (pCH (64 + ch)) (dumpSlot h.seq + 4 * k) = ix (dumpWords h taps noise) k 0 % 2 ^ 32) := by
  obtain ⟨c, unread, hexec⟩ := exec_tchDump hx hdump taps noise
  have hch := timing_lt ch
  have hx' : chan? { s with clk := c } (64 + ch) = some x := hx
  obtain ⟨hchan, hseq, hwords⟩ := dumpStored_shows { s with clk := c } (64 + ch) h (dumpWords h taps noise)
  rw [hexec, answers_next]
  generalize dumpStored { s with clk := c } (64 + ch) h (dumpWords h taps noise) = d at hchan hseq hwords
  have htail : OtherRegs d (overrunCounted (raise d (pCH (64 + ch)) 0) (pCH (64 + ch)) unread)
      [(pCH (64 + ch)).adr rINT_RAW, (pCH (64 + ch)).adr rTCH_OVR_CNT] :=
    ((otherRegs_raise d (pCH (64 + ch)) 0).mono (by simp)).andThen (otherRegs_overrunCounted _ _ unread) (by simp)
  have hkept : ∀ o, o < 0x1000 → o ≠ rINT_RAW → o ≠ rTCH_OVR_CNT →
      rdN (overrunCounted (raise d (pCH (64 + ch)) 0) (pCH (64 + ch)) unread) (pCH (64 + ch)) o =
        rdN d (pCH (64 + ch)) o := fun o ho hraw hovr =>
    htail.rdN (by simpa using ⟨Pg.adr_ne _ hraw, Pg.adr_ne _ hovr⟩) (ch_ne_rec hch ho)
  refine ⟨?_, ?_, ?_, fun k => ?_⟩
  · rw [chan?_of_rad (overrunCounted_rad _ _ _), chan?_of_rad (raise_rad _ _ _), hchan, hx']
    rfl
  · rw [hkept _ (by decide) (by decide) (by decide), hseq]
  · rw [intRaw_overrunCounted _ hch]
    exact intRaw_raise_ch d hch (by decide)
  · have hlo := dumpSlot_ge h.seq
    have hhi := dumpSlot_lt h.seq
    rw [hkept _ (by omega) (by simp only [rINT_RAW]; omega) (by simp only [rTCH_OVR_CNT]; omega),
      hwords k (by rw [length_dumpWords]; exact k.isLt)]

theorem pTCH_eq (c : Nat) : pTCH c = pCH (64 + c) := by
  simp only [pCH, Pg.mk.injEq, true_and]
  omega

theorem exec_tchDumpRead {s : State} {ch : Fin 16} (hr : readable s (pTCH ch) = true) (r : Requester) (k : Fin 8) :
    exec (.tchDumpRead r ch k) s = .next (reply (wrN s (pTCH ch) (dumpSlot k)
      (setBit (rdN s (pTCH ch) (dumpSlot k)) 16 true)) (rdN s (pTCH ch) (dumpSlot k))) := by
  simp only [exec, execTchDumpRead, onRead_readable hr]

theorem setBit_lt {n i w : Nat} (hn : n < 2 ^ w) (hi : i < w) : setBit n i true < 2 ^ w := by
  rw [setBit, if_pos rfl]
  exact Nat.or_lt_two_pow hn (by rw [Nat.one_shiftLeft]; exact Nat.pow_lt_pow_right (by decide) hi)

theorem tchDumpRead_shows {s : State} {ch : Fin 16} (hr : readable s (pTCH ch) = true) (r : Requester) (k : Fin 8) :
    Answers (exec (.tchDumpRead r ch k) s) fun t => t.lastRead = BitVec.ofNat 64 (rdN s (pTCH ch) (dumpSlot k)) ∧
      rdN t (pTCH ch) (dumpSlot k) = setBit (rdN s (pTCH ch) (dumpSlot k)) 16 true ∧
      OtherRegs s t [(pTCH ch).adr (dumpSlot k)] := by
  have hlt : setBit (rdN s (pTCH ch) (dumpSlot k)) 16 true < 2 ^ 32 := setBit_lt (BitVec.isLt _) (by decide)
  rw [exec_tchDumpRead hr, answers_next]
  refine ⟨lastRead_reply _ _, by rw [rdN_reply, rdN_wrN_same, Nat.mod_eq_of_lt hlt], fun a ha hrec => ?_⟩
  rw [rdA_reply]
  exact otherRegs_wrN s (pTCH ch) (dumpSlot k) _ a ha hrec

/-! ### Updates and the shape monitor (R143, R146) -/

/-- An update is staged for a channel, which is not STALE. -/
def updateStaged (s : State) (c : Nat) (m : Nat × Nat × Nat × Nat × Nat) : State :=
  putB (updChan s c fun x => { x with quiet := 0, commit := some m }) (pCH c) fTCH_STAT_STALE false

theorem exec_tchCommit {r : Requester} {ch : Fin 16} {v : Word} {s : State} (hw : writable s r (pTCH ch) = true)
    (hrelease : fSCH_CTRL_RELEASE.of v.toNat = 0) (hcommit : fTCH_CTRL_COMMIT.of v.toNat = 1) :
    exec (.tchCommit r ch v) s = .next (updateStaged s (64 + ch) (rdN s (pCH (64 + ch)) rTCH_CAR_FCW,
      rdN s (pCH (64 + ch)) rTCH_CODE_FCW, get s (pCH (64 + ch)) fTCH_CAR_DPH_STEP,
      rdN s (pCH (64 + ch)) rTCH_CODE_DPH, fTCH_CTRL_FOR_SEQ.of v.toNat)) := by
  simp only [exec, execTchCommit, onWrite_writable hw, chanCtrl, hrelease, hcommit, zero_ne_one, if_false,
    Nat.le_add_right, and_self, if_true, updateStaged]

theorem updateStaged_shows {s : State} {c : Nat} {x : Chan} (hx : chan? s c = some x)
    (m : Nat × Nat × Nat × Nat × Nat) :
    flag (updateStaged s c m) (pCH c) fTCH_STAT_STALE = false ∧
      (chan? (updateStaged s c m) c).map (fun y => (y.quiet, y.commit)) = some (0, some m) ∧
      OtherRegs s (updateStaged s c m) [(pCH c).adr rTCH_STAT] := by
  refine ⟨flag_putB_same _ _ _ _ (by decide) rfl, ?_,
    (otherRegs_updChan s c _ _).trans (otherRegs_putB _ (pCH c) fTCH_STAT_STALE false)⟩
  rw [updateStaged, chan?_of_rad (putB_rad _ _ _ _), chan?_updChan_same, hx]
  rfl

theorem exec_tchStale {s : State} {ch : Fin 16} {x : Chan} (hx : chan? s (64 + ch) = some x)
    (hquiet : orD (get s pTRK fTRK_CFG_STALE_MS) 1 ≤ x.quiet) :
    exec (.tchStale ch) s = .next (putB s (pTCH ch) fTCH_STAT_STALE true) := by
  simp only [exec, execTchStale, hx, if_pos hquiet]

/-- The largest deviation of the last second and its pair. -/
def devShown (s : State) (c dev pair : Nat) : State := wrN s (pCH c) rTCH_SHAPE_DEV (satU 16 dev + pair * 0x10000)

theorem exec_shapeCheck_beyond {s : State} {ch : Fin 16} {x : Chan} (hx : chan? s (64 + ch) = some x)
    (hen : flag s pTRK fTRK_CFG_SHAPE_EN = true) {dev : Nat} (hdev : get s pTRK fTRK_SHAPE_LIMIT < dev) (pair : Fin 5) :
    let s2 := updChan (devShown s (64 + ch) dev pair) (64 + ch) fun y => { y with badSec := x.badSec + 1 }
    exec (.shapeCheck ch dev pair) s = .next
      (if orD (get s pTRK fTRK_SHAPE_SEC) 1 ≤ x.badSec + 1 then
        raiseIf (putB s2 (pCH (64 + ch)) fTCH_STAT_SHAPE true) (!flag s (pCH (64 + ch)) fTCH_STAT_SHAPE)
          (pCH (64 + ch)) 2
       else s2) := by
  simp only [exec, execShapeCheck, hx, hen, Bool.not_true, Bool.false_eq_true, if_false, if_pos hdev, devShown]
  split
  · rfl
  · rfl

theorem exec_shapeCheck_within {s : State} {ch : Fin 16} {x : Chan} (hx : chan? s (64 + ch) = some x)
    (hen : flag s pTRK fTRK_CFG_SHAPE_EN = true) {dev : Nat} (hdev : dev ≤ get s pTRK fTRK_SHAPE_LIMIT) (pair : Fin 5) :
    exec (.shapeCheck ch dev pair) s = .next (putB (updChan (devShown s (64 + ch) dev pair) (64 + ch)
      fun y => { y with badSec := 0 }) (pCH (64 + ch)) fTCH_STAT_SHAPE false) := by
  simp only [exec, execShapeCheck, hx, hen, Bool.not_true, Bool.false_eq_true, if_false, if_neg (Nat.not_lt.mpr hdev),
    devShown]

theorem devShown_shows (s : State) (c dev : Nat) (pair : Fin 5) :
    (devShown s c dev pair).rad = s.rad ∧
      rdN (devShown s c dev pair) (pCH c) rTCH_SHAPE_DEV = min dev 0xFFFF + pair.val * 0x10000 := by
  refine ⟨wrN_rad _ _ _ _, ?_⟩
  have hpair := pair.isLt
  have hdev : satU 16 dev = min dev 0xFFFF := rfl
  rw [devShown, rdN_wrN_same, hdev]
  omega

/-- A store in STAT and an interrupt bit leave the deviation shown. -/
theorem rdN_shapeDev_of {s t : State} {c : Nat} (hc : c < 80)
    (h : OtherRegs s t [(pCH c).adr rTCH_STAT, (pCH c).adr rINT_RAW]) :
    rdN t (pCH c) rTCH_SHAPE_DEV = rdN s (pCH c) rTCH_SHAPE_DEV :=
  h.rdN (by simpa using ⟨Pg.adr_ne _ (by decide), Pg.adr_ne _ (by decide)⟩) (ch_ne_rec hc (by decide))

/-- Beyond the limit: the second counts, and SHAPE stands after enough of them. -/
theorem shapeCheck_beyond {s : State} {ch : Fin 16} {x : Chan} (hx : chan? s (64 + ch) = some x)
    (hen : flag s pTRK fTRK_CFG_SHAPE_EN = true) {dev : Nat} (hdev : get s pTRK fTRK_SHAPE_LIMIT < dev) (pair : Fin 5) :
    Answers (exec (.shapeCheck ch dev pair) s) fun t =>
      rdN t (pCH (64 + ch)) rTCH_SHAPE_DEV = min dev 0xFFFF + pair.val * 0x10000 ∧
      (orD (get s pTRK fTRK_SHAPE_SEC) 1 ≤ x.badSec + 1 → flag t (pCH (64 + ch)) fTCH_STAT_SHAPE = true) ∧
      (chan? t (64 + ch)).map (fun y => y.badSec) = some (x.badSec + 1) := by
  have hch := timing_lt ch
  obtain ⟨hrad, hshown⟩ := devShown_shows s (64 + ch) dev pair
  rw [exec_shapeCheck_beyond hx hen hdev, answers_next]
  have hcount : (chan? (updChan (devShown s (64 + ch) dev pair) (64 + ch)
      fun y => { y with badSec := x.badSec + 1 }) (64 + ch)).map (fun y => y.badSec) = some (x.badSec + 1) := by
    rw [chan?_updChan_same, chan?_of_rad hrad, hx]
    rfl
  have hregs := otherRegs_updChan (devShown s (64 + ch) dev pair) (64 + ch) (fun y => { y with badSec := x.badSec + 1 })
    [(pCH (64 + ch)).adr rTCH_STAT, (pCH (64 + ch)).adr rINT_RAW]
  generalize updChan (devShown s (64 + ch) dev pair) (64 + ch) (fun y => { y with badSec := x.badSec + 1 }) = u
    at hcount hregs
  split
  · have hput := (hregs.andThen (otherRegs_putB u (pCH (64 + ch)) fTCH_STAT_SHAPE true) (by simp)).andThen
      (otherRegs_raiseIf _ (!flag s (pCH (64 + ch)) fTCH_STAT_SHAPE) (pCH (64 + ch)) 2) (by simp)
    refine ⟨by rw [rdN_shapeDev_of hch hput, hshown], fun _ => ?_,
      by rw [chan?_of_rad (raiseIf_rad _ _ _ _), chan?_of_rad (putB_rad _ _ _ _), hcount]⟩
    rw [(otherRegs_raiseIf _ _ (pCH (64 + ch)) 2).flag (by simpa using Pg.adr_ne _ (by decide))
      (ch_ne_rec hch (by decide))]
    exact flag_putB_same _ _ _ _ (by decide) rfl
  · next hfew => exact ⟨by rw [rdN_shapeDev_of hch hregs, hshown], fun h => absurd h hfew, hcount⟩

/-- Within the limit: SHAPE falls, and the count starts again. -/
theorem shapeCheck_within {s : State} {ch : Fin 16} {x : Chan} (hx : chan? s (64 + ch) = some x)
    (hen : flag s pTRK fTRK_CFG_SHAPE_EN = true) {dev : Nat} (hdev : dev ≤ get s pTRK fTRK_SHAPE_LIMIT) (pair : Fin 5) :
    Answers (exec (.shapeCheck ch dev pair) s) fun t =>
      rdN t (pCH (64 + ch)) rTCH_SHAPE_DEV = min dev 0xFFFF + pair.val * 0x10000 ∧
      flag t (pCH (64 + ch)) fTCH_STAT_SHAPE = false ∧
      (chan? t (64 + ch)).map (fun y => y.badSec) = some 0 := by
  obtain ⟨hrad, hshown⟩ := devShown_shows s (64 + ch) dev pair
  rw [exec_shapeCheck_within hx hen hdev, answers_next]
  refine ⟨?_, flag_putB_same _ _ _ _ (by decide) rfl, ?_⟩
  · rw [rdN_shapeDev_of (timing_lt ch) ((otherRegs_updChan (devShown s (64 + ch) dev pair) (64 + ch) _ _).andThen
      (otherRegs_putB _ (pCH (64 + ch)) fTCH_STAT_SHAPE false) (by simp)), hshown]
  · rw [chan?_of_rad (putB_rad _ _ _ _), chan?_updChan_same, chan?_of_rad hrad, hx]
    rfl

/-! ### Measurement epochs (R147, R148) -/

/-- The offsets of the registers that an epoch moves on the page of a channel. -/
def measOffs : List Nat :=
  [rSCH_STAT, rSCH_DOPP, rSCH_NOISE, rINT_RAW, rSCH_MEAS_CODE, rSCH_MEAS_MS, rSCH_MEAS_CAR_LO, rSCH_MEAS_CAR_HI,
    rSCH_MEAS_DOPP, rSCH_MEAS_STAT]

/-- Those registers of one channel. -/
def measRegs (c : Nat) : List Nat := measOffs.map (pCH c).adr

theorem adr_subset_measRegs {c o : Nat} (ho : o ∈ measOffs) : [(pCH c).adr o] ⊆ measRegs c :=
  fun _ ha => List.mem_singleton.mp ha ▸ List.mem_map_of_mem ho

theorem exists_of_mem_measRegs {c a : Nat} (h : a ∈ measRegs c) : ∃ o, o < 0x1000 ∧ (pCH c).adr o = a := by
  obtain ⟨o, ho, heq⟩ := List.mem_map.mp h
  exact ⟨o, (by decide : ∀ o ∈ measOffs, o < 0x1000) o ho, heq⟩

theorem below_notMem_meas (c : Nat) {p : Pg} (hd : p.die ≤ 2) (hp : p.page < 0x100) {o : Nat} (ho : o < 0x1000) :
    p.adr o ∉ measRegs c := fun h => by
  obtain ⟨o', _, heq⟩ := exists_of_mem_measRegs h
  exact ch_ne_below c o' hd hp ho heq

/-- The pages of two channels share no register. -/
theorem ch_notMem_meas {c d : Nat} (h : c ≠ d) {o : Nat} (ho : o < 0x1000) : (pCH c).adr o ∉ measRegs d := by
  intro hmem
  obtain ⟨o', ho', heq⟩ := exists_of_mem_measRegs hmem
  simp only [Pg.adr, pCH] at heq
  omega

theorem otherRegs_showQuality (s : State) (c : Nat) (m : Meas) : OtherRegs s (showQuality s c m) (measRegs c) := by
  have hstat : ∀ f v t, f.off = rSCH_STAT → OtherRegs t (put t (pCH c) f v) (measRegs c) := fun f v t hf =>
    (otherRegs_put t (pCH c) f v).mono (by rw [hf]; exact adr_subset_measRegs (by decide))
  have hfour : ∀ a b d e, OtherRegs s (putB (putB (put (put s (pCH c) fSCH_STAT_CN0 a) (pCH c) fSCH_STAT_PLI b) (pCH c)
      fSCH_STAT_PLI_OK d) (pCH c) fSCH_STAT_CN0_OK e) (measRegs c) := fun a b d e =>
    (((hstat _ _ _ rfl).trans (hstat _ _ _ rfl)).trans (hstat _ _ _ rfl)).trans (hstat _ _ _ rfl)
  simp only [showQuality]
  split
  · exact ((hfour _ _ _ _).andThen (otherRegs_wrN _ (pCH c) rSCH_DOPP _) (adr_subset_measRegs (by decide))).andThen
      (otherRegs_wrN _ (pCH c) rSCH_NOISE _) (adr_subset_measRegs (by decide))
  · exact (hfour _ _ _ _).andThen (otherRegs_raiseIf _ _ (pCH c) 1) (adr_subset_measRegs (by decide))

theorem otherRegs_measure (s : State) (c seq : Nat) (x : Chan) (m : Meas) :
    OtherRegs s (measure s c seq x m) (measRegs c) := by
  have hwr : ∀ o v t, o ∈ measOffs → OtherRegs t (wrN t (pCH c) o v) (measRegs c) :=
    fun o v t ho => (otherRegs_wrN t (pCH c) o v).mono (adr_subset_measRegs ho)
  simp only [measure, wr64]
  exact (((((hwr _ _ _ (by decide)).trans (hwr _ _ _ (by decide))).trans (hwr _ _ _ (by decide))).trans
    (hwr _ _ _ (by decide))).trans (hwr _ _ _ (by decide))).trans (hwr _ _ _ (by decide))

theorem otherRegs_invalid (s : State) (c : Nat) :
    OtherRegs s (putB s (pCH c) fSCH_MEAS_STAT_VALID false) (measRegs c) :=
  (otherRegs_putB s (pCH c) fSCH_MEAS_STAT_VALID false).mono (adr_subset_measRegs (by decide))

theorem otherRegs_epochChan (s : State) (seq : Nat) (meas : List Meas) (c : Nat) :
    OtherRegs s (epochChan s seq meas c) (measRegs c) := by
  simp only [epochChan]
  split
  · exact otherRegs_invalid s c
  · split
    · exact otherRegs_invalid s c
    · refine .trans ?_ (otherRegs_updChan _ c _ _)
      split
      · exact (otherRegs_showQuality s c _).trans (otherRegs_measure _ c seq _ _)
      · exact (otherRegs_showQuality s c _).trans (otherRegs_invalid _ c)

theorem showQuality_rad (s : State) (c : Nat) (m : Meas) : (showQuality s c m).rad = s.rad := by
  simp only [showQuality]
  split
  · rw [wrN_rad, wrN_rad, putB_rad, putB_rad, put_rad, put_rad]
  · rw [raiseIf_rad, putB_rad, putB_rad, put_rad, put_rad]

theorem measure_rad (s : State) (c seq : Nat) (x : Chan) (m : Meas) : (measure s c seq x m).rad = s.rad := by
  rw [measure, wrN_rad, wrN_rad, wr64_rad, wrN_rad, wrN_rad]

/-- An epoch gives no channel a signal. -/
theorem chan?_epochChan_none {s : State} {d : Nat} (h : chan? s d = none) (seq : Nat) (meas : List Meas) (c : Nat) :
    chan? (epochChan s seq meas c) d = none := by
  have hupd : ∀ (t : State) (f : Chan → Chan), t.rad = s.rad → chan? (updChan t c f) d = none := fun t f ht => by
    rw [chan?_updChan]
    split
    · next hd => rw [← hd, chan?_of_rad ht, h]; rfl
    · rw [chan?_of_rad ht, h]
  simp only [epochChan]
  split
  · rw [chan?_of_rad (putB_rad _ _ _ _), h]
  · split
    · rw [chan?_of_rad (putB_rad _ _ _ _), h]
    · refine hupd _ _ ?_
      split
      · rw [measure_rad, showQuality_rad]
      · rw [putB_rad, showQuality_rad]

/-- A channel in IDLE has no valid measurement after the epoch visited it, or where it had none before. -/
theorem epoch_idle_invalid (seq : Nat) (meas : List Meas) {c : Nat} (hc : c < 80) (l : List Nat) {s : State}
    (hidle : chan? s c = none) (h : c ∈ l ∨ flag s (pCH c) fSCH_MEAS_STAT_VALID = false) :
    flag (l.foldl (fun s d => epochChan s seq meas d) s) (pCH c) fSCH_MEAS_STAT_VALID = false := by
  induction l generalizing s with
  | nil => exact h.resolve_left List.not_mem_nil
  | cons d l ih =>
    rw [List.foldl_cons]
    refine ih (chan?_epochChan_none hidle seq meas d) ?_
    rcases eq_or_ne c d with rfl | hne
    · right
      have heq : epochChan s seq meas c = putB s (pCH c) fSCH_MEAS_STAT_VALID false := by
        simp only [epochChan, hidle]
      simp only [heq]
      exact flag_putB_same _ _ _ _ (by decide) rfl
    · have hsame := (otherRegs_epochChan s seq meas d).flag (f := fSCH_MEAS_STAT_VALID)
        (ch_notMem_meas hne (by decide)) (ch_ne_rec hc (by decide))
      simp only [hsame]
      exact h.imp_left fun hmem => (List.mem_cons.mp hmem).resolve_left hne

/-- The channels leave the registers of the TRK page. -/
theorem rdN_trk_epoch (seq : Nat) (meas : List Meas) {o : Nat} (ho : o < 0x1000) (l : List Nat) (s : State) :
    rdN (l.foldl (fun s d => epochChan s seq meas d) s) pTRK o = rdN s pTRK o :=
  kept_foldl (P := fun t => rdN t pTRK o = rdN s pTRK o) l _ s
    (fun t d h => ((otherRegs_epochChan t seq meas d).rdN (below_notMem_meas d (by decide) (by decide) ho)
      (by simp only [Pg.adr]; omega)).trans h) rfl

/-- The epoch's number and instant. -/
def epochShown (s : State) (seq pc : Nat) : State :=
  wr64 (wrN s pTRK rTRK_EPOCH_SEQ seq) pTRK rTRK_EPOCH_PC_LO rTRK_EPOCH_PC_HI pc

theorem epochShown_shows (s : State) (seq pc : Nat) :
    (epochShown s seq pc).rad = s.rad ∧ rdN (epochShown s seq pc) pTRK rTRK_EPOCH_SEQ = seq % 2 ^ 32 := by
  refine ⟨by rw [epochShown, wr64_rad, wrN_rad], ?_⟩
  rw [epochShown, (otherRegs_wr64 _ pTRK rTRK_EPOCH_PC_LO rTRK_EPOCH_PC_HI pc).rdN (by decide) (by decide),
    rdN_wrN_same]

theorem exec_trkEpoch {s : State} (hpage : pageEn s pTRK = true) (meas : List Meas) :
    ∃ (c : Clock) (pc : Nat), let seq := (rdN s pTRK rTRK_EPOCH_SEQ + 1) % 0x100000000
      let s2 := epochShown { s with clk := c } seq pc
      exec (.trkEpoch meas) s =
        .next ((epochChans s2).foldl (fun s d => epochChan s seq meas d) (raise s2 pTRK 0)) := by
  simp only [exec, execTrkEpoch, if_pos hpage]
  generalize hs : advT96 s _ = s0
  obtain ⟨c, hadv⟩ := advT96_eq s _
  rw [← hs, hadv]
  exact ⟨c, _, rfl⟩

theorem trkEpoch_shows {s : State} (hpage : pageEn s pTRK = true) (meas : List Meas) :
    Answers (exec (.trkEpoch meas) s) fun t => intRaw t pTRK 0 = true ∧
      rdN t pTRK rTRK_EPOCH_SEQ = (rdN s pTRK rTRK_EPOCH_SEQ + 1) % 2 ^ 32 ∧
      (∀ c : Fin 80, chan? s c = none → flag t (pCH c) fSCH_MEAS_STAT_VALID = false) := by
  obtain ⟨clk, pc, hexec⟩ := exec_trkEpoch hpage meas
  obtain ⟨hrad, hseq⟩ := epochShown_shows { s with clk := clk } ((rdN s pTRK rTRK_EPOCH_SEQ + 1) % 0x100000000) pc
  rw [hexec, answers_next]
  generalize epochShown { s with clk := clk } ((rdN s pTRK rTRK_EPOCH_SEQ + 1) % 0x100000000) pc = e at hrad hseq
  have hraise := otherRegs_raise e pTRK 0
  refine ⟨?_, ?_, fun c hidle => ?_⟩
  · rw [intRaw, rdN_trk_epoch _ meas (by decide)]
    exact intRaw_raise_trk e (by decide)
  · rw [rdN_trk_epoch _ meas (by decide), hraise.rdN (by decide) (by decide), hseq]
    exact Nat.mod_mod _ _
  · have hidle' : chan? e c = none := (chan?_of_rad hrad c).trans hidle
    refine epoch_idle_invalid _ meas c.isLt _ ((chan?_of_rad (raise_rad _ _ _) c).trans hidle') ?_
    rw [hraise.flag (ch_notMem_below _ _ (by decide) (by decide) (by decide)) (ch_ne_rec c.isLt (by decide))]
    by_cases hvalid : flag e (pCH c) fSCH_MEAS_STAT_VALID = true
    · exact .inl (List.mem_filter.mpr ⟨List.mem_range.mpr c.isLt, by rw [hvalid, Bool.or_true]⟩)
    · exact .inr (Bool.eq_false_iff.mpr hvalid)

/-! ### The rows -/

/-- Settles O29: a move is judged, reserved and made by operations on the list of channels; what a timing channel's
row stores is read back through the frames of what follows it; an epoch visits every channel that holds a signal or
shows a measurement. -/
theorem timingChannels : Obligations.TimingChannels := by
  refine ⟨fun _ _ _ hw hgo => trkPromoteGo_shows hw hgo rfl rfl rfl,
    fun pc car code _ _ _ _ _ hmove hx hne => trkMove_shows hmove hx hne pc car code,
    fun _ pc edge phase _ _ hx hcommit => tchBoundary_shows hx hcommit pc edge phase,
    fun _ taps noise _ _ _ hx hdump => tchDump_shows hx hdump taps noise,
    fun r _ k _ hr => tchDumpRead_shows hr r k, fun r ch v x s hw hrelease hcommit hx => ?commit,
    fun ch x s hx hquiet => ?stale, fun ch dev pair x s hx hen => ?shape, fun meas _ hpage => trkEpoch_shows hpage meas⟩
  case commit =>
    rw [exec_tchCommit hw hrelease hcommit, answers_next, pTCH_eq]
    exact updateStaged_shows hx _
  case stale =>
    rw [exec_tchStale hx hquiet, answers_next]
    exact ⟨flag_putB_same _ _ _ _ (by decide) rfl, otherRegs_putB s (pTCH ch) fTCH_STAT_STALE true, putB_rad _ _ _ _⟩
  case shape =>
    rw [pTCH_eq]
    rcases Nat.lt_or_ge (get s pTRK fTRK_SHAPE_LIMIT) dev with hbeyond | hwithin
    · obtain ⟨t, hexec, hdev, hshape, hcount⟩ := shapeCheck_beyond hx hen hbeyond pair
      exact ⟨t, hexec, hdev, fun _ => hshape, fun h => absurd hbeyond (Nat.not_lt.mpr h),
        by rw [hcount, if_pos hbeyond]⟩
    · obtain ⟨t, hexec, hdev, hshape, hcount⟩ := shapeCheck_within hx hen hwithin pair
      exact ⟨t, hexec, hdev, fun h => absurd h (Nat.not_lt.mpr hwithin), fun _ => hshape,
        by rw [hcount, if_neg (Nat.not_lt.mpr hwithin)]⟩

end Sys2Proof.Machine
end

section
/-! Navigation data (R149–R151): the record ring, subframes and page parts. -/

namespace Sys2Proof.Machine

/-! ### The ring (R151) -/

theorem navLevel_lt (s : State) : navLevel s < 48 := Nat.mod_lt _ (by decide)

theorem intRaw_raise_nav (s : State) {bit : Nat} (hb : bit < 32) : intRaw (raise s pNAV bit) pNAV bit = true :=
  intRaw_raise_same (.inr rfl) s hb

theorem otherRegs_showNavLevel (s : State) : OtherRegs s (showNavLevel s) [pNAV.adr rNAV_STAT] :=
  otherRegs_put s pNAV fNAV_STAT_LVL _

theorem navLevel_showNavLevel (s : State) : navLevel (showNavLevel s) = navLevel s := by
  rw [navLevel, (otherRegs_showNavLevel s).get (by decide) (by decide),
    (otherRegs_showNavLevel s).get (by decide) (by decide), navLevel]

theorem get_level_showNavLevel (s : State) : get (showNavLevel s) pNAV fNAV_STAT_LVL = navLevel (showNavLevel s) := by
  rw [navLevel_showNavLevel]
  exact get_put_lt _ _ _ (by decide) ((navLevel_lt s).trans (by decide))

theorem exec_navRdIdxWrite {r : Requester} {v : Word} {s : State} (hw : writable s r pNAV = true) :
    exec (.navRdIdxWrite r v) s = .next (showNavLevel (wrN s pNAV rNAV_RD_IDX
      (if 47 < fNAV_RD_IDX_IDX.of v.toNat then 0 else fNAV_RD_IDX_IDX.of v.toNat))) := by
  simp only [exec, execNavRdIdxWrite, onWrite_writable hw]

theorem navRdIdxWrite_shows {r : Requester} {v : Word} {s : State} (hw : writable s r pNAV = true) :
    Answers (exec (.navRdIdxWrite r v) s) fun t => get t pNAV fNAV_STAT_LVL = navLevel t ∧
      rdN t pNAV rNAV_RD_IDX = (if 47 < fNAV_RD_IDX_IDX.of v.toNat then 0 else fNAV_RD_IDX_IDX.of v.toNat) ∧
      OtherRegs s t [pNAV.adr rNAV_RD_IDX, pNAV.adr rNAV_STAT] := by
  have hlt : fNAV_RD_IDX_IDX.of v.toNat < 64 := Fld.of_lt fNAV_RD_IDX_IDX _
  rw [exec_navRdIdxWrite hw, answers_next]
  generalize hi : (if 47 < fNAV_RD_IDX_IDX.of v.toNat then 0 else fNAV_RD_IDX_IDX.of v.toNat) = i
  have hshow := otherRegs_showNavLevel (wrN s pNAV rNAV_RD_IDX i)
  refine ⟨get_level_showNavLevel _, ?_, ((otherRegs_wrN s pNAV rNAV_RD_IDX i).mono (by simp)).andThen hshow (by simp)⟩
  rw [hshow.rdN (by decide) (by decide), rdN_wrN_same]
  split at hi <;> omega

/-- The words leave the registers beside theirs. -/
theorem rdA_wrWords_ne (s : State) (p : Pg) (off : Nat) (l : List Nat) {a : Nat}
    (h : a < p.adr off ∨ p.adr (off + 4 * l.length) ≤ a) : rdA (wrWords s p off l) a = rdA s a := by
  induction l generalizing s off with
  | nil => rfl
  | cons w t ih =>
    simp only [List.length_cons, Pg.adr] at h
    rw [wrWords, ih _ _ (by simp only [Pg.adr]; omega), rdA_wrN_ne _ _ _ _ (by simp only [Pg.adr]; omega)]

/-- A record in its slot, with its sequence number taken. -/
def recordPlaced (s : State) (w : List Nat) : State :=
  updRad (wrWords s pNAV (0x400 + 0x40 * get s pNAV fNAV_WR_IDX_IDX) w) fun r =>
    { r with navSeq := (r.navSeq + 1) % 256 }

/-- The ring's next slot. -/
def ringAdvanced (s : State) (i : Nat) : State := showNavLevel (put s pNAV fNAV_WR_IDX_IDX ((i + 1) % 48))

theorem navRecord_room {s : State} (h : navLevel s ≠ 47) (w : List Nat) :
    navRecord s w = raise (ringAdvanced (recordPlaced s w) (get s pNAV fNAV_WR_IDX_IDX)) pNAV 0 := by
  rw [navRecord, if_neg h]
  rfl

theorem navRecord_full {s : State} (h : navLevel s = 47) (w : List Nat) :
    navRecord s w = raise (bump s pNAV rNAV_DROP_CNT) pNAV 1 := by
  rw [navRecord, if_pos h]

theorem otherRegs_ringAdvanced (s : State) (i : Nat) :
    OtherRegs s (ringAdvanced s i) [pNAV.adr rNAV_WR_IDX, pNAV.adr rNAV_STAT] :=
  ((otherRegs_put s pNAV fNAV_WR_IDX_IDX _).mono (by simp)).andThen (otherRegs_showNavLevel _) (by simp)

theorem ringAdvanced_rad (s : State) (i : Nat) : (ringAdvanced s i).rad = s.rad := by
  rw [ringAdvanced, showNavLevel, put_rad, put_rad]

/-- The registers that a record moves beside its words. -/
def ringRegs : List Nat :=
  [pNAV.adr rINT_RAW, pNAV.adr rNAV_WR_IDX, pNAV.adr rNAV_STAT, pNAV.adr rNAV_DROP_CNT]

theorem rdA_recordPlaced_ne (s : State) {w : List Nat} (hlen : w.length ≤ 16) {a : Nat}
    (ha : a < pNAV.adr 0x400 ∨ pNAV.adr 0x1400 ≤ a) : rdA (recordPlaced s w) a = rdA s a := by
  have hi : get s pNAV fNAV_WR_IDX_IDX < 64 := Fld.of_lt fNAV_WR_IDX_IDX _
  rw [recordPlaced, rdA_updRad, rdA_wrWords_ne]
  simp only [Pg.adr] at ha ⊢
  omega

/-- A record moves the ring and no other register, wherever the index stands. -/
theorem rdA_navRecord_ne (s : State) {w : List Nat} (hlen : w.length ≤ 16) {a : Nat}
    (hslot : a < pNAV.adr 0x400 ∨ pNAV.adr 0x1400 ≤ a) (hrec : a % 0x10000000 / 0x1000 ≠ 0x30) (ha : a ∉ ringRegs) :
    rdA (navRecord s w) a = rdA s a := by
  by_cases hfull : navLevel s = 47
  · rw [navRecord_full hfull]
    exact (((otherRegs_bump s pNAV rNAV_DROP_CNT).mono (m := ringRegs) (by simp [ringRegs])).andThen
      (otherRegs_raise _ pNAV 1) (by simp [ringRegs])) a ha hrec
  · rw [navRecord_room hfull, ← rdA_recordPlaced_ne s hlen hslot]
    exact (((otherRegs_ringAdvanced (recordPlaced s w) _).mono (m := ringRegs) (by simp [ringRegs])).andThen
      (otherRegs_raise _ pNAV 0) (by simp [ringRegs])) a ha hrec

theorem navRecord_chans (s : State) (w : List Nat) : (navRecord s w).rad.chans = s.rad.chans := by
  by_cases hfull : navLevel s = 47
  · rw [navRecord_full hfull, raise_rad, bump_rad]
  · rw [navRecord_room hfull, raise_rad, ringAdvanced_rad, recordPlaced, updRad, wrWords_rad]

/-- The interrupt bits other than those of a record stay. -/
theorem intRaw_navRecord (s : State) {w : List Nat} (hlen : w.length ≤ 16) {b : Nat} (hb : b < 32) (h0 : b ≠ 0)
    (h1 : b ≠ 1) : intRaw (navRecord s w) pNAV b = intRaw s pNAV b := by
  by_cases hfull : navLevel s = 47
  · rw [navRecord_full hfull]
    exact (raise_other _ pNAV 1 b hb h1 rfl).trans
      ((otherRegs_bump s pNAV rNAV_DROP_CNT).intRaw b (by decide) (by decide))
  · rw [navRecord_room hfull]
    exact ((raise_other _ pNAV 0 b hb h0 rfl).trans
      ((otherRegs_ringAdvanced _ _).intRaw b (by decide) (by decide))).trans
      (congrArg (bitOf · b) (rdN_congr (rdA_recordPlaced_ne s hlen (.inl (by decide)))))

/-- A record that finds room is written to the slot at WR_IDX, which advances. -/
theorem navRecord_shows {s : State} (hroom : navLevel s ≠ 47) (hi : get s pNAV fNAV_WR_IDX_IDX < 48) {w : List Nat}
    (hlen : w.length ≤ 16) :
    get (navRecord s w) pNAV fNAV_WR_IDX_IDX = (get s pNAV fNAV_WR_IDX_IDX + 1) % 48 ∧
      intRaw (navRecord s w) pNAV 0 = true ∧
      ∀ k, k < w.length →
        rdN (navRecord s w) pNAV (0x400 + 0x40 * get s pNAV fNAV_WR_IDX_IDX + 4 * k) = ix w k 0 % 2 ^ 32 := by
  rw [navRecord_room hroom]
  generalize hn : get s pNAV fNAV_WR_IDX_IDX = i at hi
  have hraise := otherRegs_raise (ringAdvanced (recordPlaced s w) i) pNAV 0
  refine ⟨?_, intRaw_raise_nav _ (by decide), fun k hk => ?_⟩
  · rw [hraise.get (by decide) (by decide), ringAdvanced, (otherRegs_showNavLevel _).get (by decide) (by decide)]
    exact get_put_lt _ _ _ (by decide) ((Nat.mod_lt _ (by decide)).trans (by decide))
  · have hrest : OtherRegs (recordPlaced s w) (raise (ringAdvanced (recordPlaced s w) i) pNAV 0) ringRegs :=
      ((otherRegs_ringAdvanced _ i).mono (by simp [ringRegs])).andThen hraise (by simp [ringRegs])
    rw [hrest.rdN (by simp only [ringRegs, Pg.adr, List.mem_cons, List.not_mem_nil, or_false, rINT_RAW, rNAV_WR_IDX,
      rNAV_STAT, rNAV_DROP_CNT]; omega)
      (by simp only [Pg.adr]; omega), recordPlaced, hn, rdN_congr (rdA_updRad _ _ _), rdN_wrWords _ _ _ hk]

/-! ### Subframes (R149) -/

theorem countNavFail_zero (s : State) (c : Nat) : countNavFail s c 0 = updChan s c fun x => { x with fails := 0 } := rfl

/-- The words of a subframe as its record holds them. -/
def subframeEntries (words : List (Nat × Bool)) : List Nat :=
  (List.range 10).map fun i =>
    (ix words i (0, false)).1 % 0x40000000 + ofBool (ix words i (0, false)).2 * 0x40000000

/-- The record of a subframe without a parity failure. -/
def subframeRecord (s : State) (c : Nat) (x : Chan) (first : PC64) (words : List (Nat × Bool)) : List Nat :=
  navHead s c x false true first ++ subframeEntries words ++ [0, 0, 0]

theorem length_subframeRecord (s : State) (c : Nat) (x : Chan) (first : PC64) (words : List (Nat × Bool)) :
    (subframeRecord s c x first words).length = 16 := by
  simp [subframeRecord, subframeEntries, navHead]

theorem getD_subframeEntries (words : List (Nat × Bool)) (k : Fin 10) :
    (subframeEntries words).getD k 0 =
      (ix words k (0, false)).1 % 0x40000000 + ofBool (ix words k (0, false)).2 * 0x40000000 := by
  rw [subframeEntries, List.getD_eq_getElem _ _ (by simp), List.getElem_map, List.getElem_range]

/-- The ten words follow the three of the head. -/
theorem ix_subframeRecord (s : State) (c : Nat) (x : Chan) (first : PC64) (words : List (Nat × Bool)) (k : Fin 10) :
    ix (subframeRecord s c x first words) (3 + k) 0 =
      (ix words k (0, false)).1 % 0x40000000 + ofBool (ix words k (0, false)).2 * 0x40000000 := by
  have hhead : (navHead s c x false true first).length = 3 := rfl
  have hlen : (subframeEntries words).length = 10 := rfl
  rw [subframeRecord, List.append_assoc, ix, List.getD_append_right _ _ _ _ (hhead.le.trans (Nat.le_add_right 3 k)),
    hhead, Nat.add_sub_cancel_left, List.getD_append _ _ _ _ (hlen.symm ▸ k.isLt), getD_subframeEntries]

theorem parity_of_mem {words : List (Nat × Bool)} (hgood : ∀ w ∈ words, w.2 = true) {k : Nat} (hk : k < words.length) :
    (ix words k (0, false)).2 = true := by
  rw [ix, List.getD_eq_getElem _ _ hk]
  exact hgood _ (List.getElem_mem hk)

theorem takeSubframe_good {words : List (Nat × Bool)} (hlen : words.length = 10) (hgood : ∀ w ∈ words, w.2 = true)
    (s : State) (c : Nat) (x : Chan) (first : PC64) :
    takeSubframe s c x first true words =
      updChan (navRecord s (subframeRecord s c x first words)) c fun x => { x with fails := 0 } := by
  have hbad : words.filter (fun w => !w.2) = [] := List.filter_eq_nil_iff.mpr fun w hw => by simp [hgood w hw]
  have hfirst : (ix words 0 (0, false)).2 = true := parity_of_mem hgood (by omega)
  simp only [takeSubframe, hbad, List.length_nil, if_true, ne_eq, not_true_eq_false, false_and, if_false, hfirst,
    Bool.and_self, countNavFail_zero]
  rfl

theorem navCheck_disabled {s : State} (h : pageEn s pINT = false) (c : Nat) (x : Chan) (first : PC64) (word2 : Nat) :
    navCheck s c x first word2 = s := by
  rw [navCheck]
  split
  · rfl
  · simp only [h, Bool.not_false, Bool.true_or, if_true]

/-- The page is enabled as before where its PAGE_CTRL reads so and the domains are as they were. -/
theorem pageEn_congr {s t : State} {p : Pg} (hctrl : rdA t (p.adr rPAGE_CTRL) = rdA s (p.adr rPAGE_CTRL))
    (hpwr : t.pwr = s.pwr) : pageEn t p = pageEn s p := by
  rw [pageEn, flag_congr hctrl, pageRetained, hpwr]
  rfl

theorem takeSubframe_pwr (s : State) (c : Nat) (x : Chan) (first : PC64) (preamble : Bool)
    (words : List (Nat × Bool)) : (takeSubframe s c x first preamble words).pwr = s.pwr :=
  (kept_takeSubframe (leaves_closed (· = .rad) s) rfl s c x first preamble words (leaves_refl _ s) .pwr).resolve_left
    (by decide)

/-- A good subframe of a synchronized channel is recorded; the monitor, disabled, checks nothing. -/
theorem exec_navSubframe {s : State} {ch : Fin 80} {x : Chan} {words : List (Nat × Bool)} (hx : chan? s ch = some x)
    (hpage : pageEn s pNAV = true) (hen : flag s pNAV fNAV_CFG_LNAV_EN = true) (hst : x.st = 3) (hsys : x.sys ≠ 1)
    (hsync : flag s (pCH ch) fSCH_STAT_NAVSYNC = true) (hlen : words.length = 10) (hgood : ∀ w ∈ words, w.2 = true)
    (hint : pageEn s pINT = false) (first : PC64) (inv : Bool) :
    exec (.navSubframe ch first inv true words) s = .next
      (updChan (navRecord s (subframeRecord s ch x first words)) ch fun x => { x with fails := 0 }) := by
  have htaken := takeSubframe_good hlen hgood s ch x first
  have hint' : pageEn (updChan (navRecord s (subframeRecord s ch x first words)) ch fun x => { x with fails := 0 })
      pINT = false := by
    rw [pageEn_congr ?_ (htaken ▸ takeSubframe_pwr s ch x first true words), hint]
    rw [rdA_updChan]
    exact rdA_navRecord_ne s (length_subframeRecord s ch x first words).le (.inr (by decide)) (by decide) (by decide)
  simp only [exec, execNavSubframe, hx, hpage, hen, hst, bne_self_eq_false, beq_eq_false_iff_ne.mpr hsys, hsync,
    Bool.not_true, Bool.or_self, Bool.false_eq_true, if_false, if_true, htaken, navCheck_disabled hint', ite_self]

theorem navSubframe_shows {s : State} {ch : Fin 80} {x : Chan} {words : List (Nat × Bool)} (hx : chan? s ch = some x)
    (hpage : pageEn s pNAV = true) (hen : flag s pNAV fNAV_CFG_LNAV_EN = true) (hst : x.st = 3) (hsys : x.sys ≠ 1)
    (hsync : flag s (pCH ch) fSCH_STAT_NAVSYNC = true) (hlen : words.length = 10) (hgood : ∀ w ∈ words, w.2 = true)
    (hroom : navLevel s ≠ 47) (hi : get s pNAV fNAV_WR_IDX_IDX < 48) (hint : pageEn s pINT = false) (first : PC64)
    (inv : Bool) :
    Answers (exec (.navSubframe ch first inv true words) s) fun t =>
      get t pNAV fNAV_WR_IDX_IDX = (get s pNAV fNAV_WR_IDX_IDX + 1) % 48 ∧ intRaw t pNAV 0 = true ∧
      rdN t pNAV rNAV_PAR_FAIL_CNT = rdN s pNAV rNAV_PAR_FAIL_CNT ∧
      (∀ k : Fin 10, rdN t pNAV (0x400 + 0x40 * get s pNAV fNAV_WR_IDX_IDX + 12 + 4 * k) =
        (ix words k (0, false)).1 % 0x40000000 + 0x40000000) := by
  have hsize := length_subframeRecord s ch x first words
  obtain ⟨hidx, hraised, hwords⟩ := navRecord_shows hroom hi hsize.le
  have hregs := otherRegs_updChan (navRecord s (subframeRecord s ch x first words)) ch
    (fun x => { x with fails := 0 }) []
  rw [exec_navSubframe hx hpage hen hst hsys hsync hlen hgood hint, answers_next]
  refine ⟨?_, ?_, ?_, fun k => ?_⟩
  · rw [hregs.get List.not_mem_nil (by decide), hidx]
  · rw [hregs.intRaw 0 List.not_mem_nil (by decide), hraised]
  · rw [hregs.rdN List.not_mem_nil (by decide)]
    exact rdN_congr (rdA_navRecord_ne s hsize.le (.inl (by decide)) (by decide) (by decide))
  · have hk := k.isLt
    have hlt : (ix words k (0, false)).1 % 0x40000000 < 0x40000000 := Nat.mod_lt _ (by decide)
    rw [hregs.rdN List.not_mem_nil (by simp only [Pg.adr]; omega),
      show 0x400 + 0x40 * get s pNAV fNAV_WR_IDX_IDX + 12 + 4 * k.val =
        0x400 + 0x40 * get s pNAV fNAV_WR_IDX_IDX + 4 * (3 + k.val) by omega,
      hwords _ (by rw [hsize]; omega), ix_subframeRecord, parity_of_mem hgood (hlen.symm ▸ hk), ofBool, if_pos rfl]
    omega

/-! ### Page parts (R150) -/

/-- Page sync is taken where it did not stand. -/
def pageSynced (s : State) (c : Nat) : State := if flag s (pCH c) fSCH_STAT_NAVSYNC then s else takeNavSync s c

/-- A pair ends in a count of failures, over a state with the channels of the one in sync. -/
theorem takePage_eq (s : State) (c : Nat) (x : Chan) (even odd : List Nat) (first : PC64) (crcOk tailOk : Bool)
    (corrected : Nat) :
    ∃ t n, takePage s c x even odd first crcOk tailOk corrected = countNavFail t c n ∧
      t.rad.chans = (pageSynced s c).rad.chans := by
  refine ⟨_, _, rfl, ?_⟩
  change _ = (if flag s (pCH c) fSCH_STAT_NAVSYNC = true then s else takeNavSync s c).rad.chans
  generalize (if flag s (pCH c) fSCH_STAT_NAVSYNC = true then s else takeNavSync s c) = s1
  have hcrc : (if crcOk then s1 else bump s1 pNAV rNAV_CRC_FAIL_CNT).rad = s1.rad := by
    split
    · rfl
    · exact bump_rad _ _ _
  generalize (if crcOk = true then s1 else bump s1 pNAV rNAV_CRC_FAIL_CNT) = s2 at hcrc
  split
  · rw [hcrc]
  · rw [navRecord_chans, hcrc]

/-- The 114 bits of a page part as the record holds them. -/
def pagePart (l : List Nat) : List Nat := (List.range 4).map fun i => ix l i 0 % 0x100000000

/-- The record of a page whose CRC passes. -/
def pageRecord (s : State) (c : Nat) (x : Chan) (even odd : List Nat) (first : PC64) (tailOk : Bool) (corrected : Nat) :
    List Nat :=
  navHead s c x true true first ++ pagePart even ++ pagePart odd ++
    [ofBool true + ofBool tailOk * 2 + satU 8 corrected * 0x100, 0, 0, 0, 0]

theorem length_pageRecord (s : State) (c : Nat) (x : Chan) (even odd : List Nat) (first : PC64) (tailOk : Bool)
    (corrected : Nat) : (pageRecord s c x even odd first tailOk corrected).length = 16 := by
  simp [pageRecord, pagePart, navHead]

/-- A pair whose CRC passes is recorded and counts no failure. -/
theorem takePage_passed (s : State) (c : Nat) (x : Chan) (even odd : List Nat) (first : PC64) (tailOk : Bool)
    (corrected : Nat) :
    takePage s c x even odd first true tailOk corrected =
      updChan (navRecord (pageSynced s c) (pageRecord (pageSynced s c) c x even odd first tailOk corrected)) c
        fun x => { x with fails := 0 } := by
  simp only [takePage, if_true, Bool.not_true, Bool.false_eq_true, false_and, if_false, countNavFail_zero, pageSynced,
    pageRecord, pagePart]

theorem otherRegs_takeNavSync (s : State) (c : Nat) :
    OtherRegs s (takeNavSync s c) [(pCH c).adr rSCH_STAT, pNAV.adr rINT_RAW] :=
  (((otherRegs_putB s (pCH c) fSCH_STAT_NAVSYNC true).trans (otherRegs_updChan _ c _ _)).mono (by simp)).andThen
    (otherRegs_raise _ pNAV 4) (by simp)

theorem takeNavSync_shows (s : State) {c : Nat} (hc : c < 80) :
    chan? (takeNavSync s c) c = (chan? s c).map (fun x => { x with fails := 0 }) ∧
      flag (takeNavSync s c) (pCH c) fSCH_STAT_NAVSYNC = true ∧ intRaw (takeNavSync s c) pNAV 4 = true := by
  refine ⟨?_, ?_, intRaw_raise_nav _ (by decide)⟩
  · rw [takeNavSync, chan?_of_rad (raise_rad _ _ _), chan?_updChan_same, chan?_of_rad (putB_rad _ _ _ _)]
  · rw [takeNavSync, (otherRegs_raise _ pNAV 4).flag (ch_notMem_below _ _ (by decide) (by decide) (by decide))
      (ch_ne_rec hc (by decide)),
      flag_congr (rdA_updChan _ _ _ _)]
    exact flag_putB_same _ _ _ _ (by decide) rfl

/-- In sync: a pair keeps what the channel holds of an even part. -/
theorem pageSynced_shows (s : State) {c : Nat} (hc : c < 80) :
    (chan? (pageSynced s c) c).map (fun y => y.even) = (chan? s c).map (fun y => y.even) ∧
      flag (pageSynced s c) (pCH c) fSCH_STAT_NAVSYNC = true ∧
      (flag s (pCH c) fSCH_STAT_NAVSYNC = false → intRaw (pageSynced s c) pNAV 4 = true) ∧
      OtherRegs s (pageSynced s c) [(pCH c).adr rSCH_STAT, pNAV.adr rINT_RAW] := by
  rw [pageSynced]
  split
  · next hsync => exact ⟨rfl, hsync, fun h => absurd h (by simp [hsync]), .refl s _⟩
  · obtain ⟨hchan, hsync, hraised⟩ := takeNavSync_shows s hc
    refine ⟨?_, hsync, fun _ => hraised, otherRegs_takeNavSync s c⟩
    rw [hchan, Option.map_map]
    rfl

/-- The count of failures gives a channel no even part. -/
theorem countNavFail_even {s : State} {c : Nat} (h : (chan? s c).map (fun y => y.even) = some none) (n : Nat) :
    (chan? (countNavFail s c n) c).map (fun y => y.even) = some none := by
  obtain ⟨y, hy, heven⟩ := Option.map_eq_some_iff.mp h
  rw [countNavFail]
  split
  · rw [chan?_updChan_same, hy, Option.map_some, Option.map_some, heven]
  · rw [chan?_of_rad (raise_rad _ _ _), chan?_of_rad (putB_rad _ _ _ _), chan?_updChan_same, hy]
    rfl

/-- R150: page sync, and no failure where the CRC passes; the even part is used up. -/
theorem takePage_shows {s : State} {c : Nat} (hc : c < 80)
    (hused : (chan? s c).map (fun y => y.even) = some none) (x : Chan) (even odd : List Nat) (first : PC64)
    (crcOk tailOk : Bool) (corrected : Nat) :
    let t := takePage s c x even odd first crcOk tailOk corrected
    (chan? t c).map (fun y => y.even) = some none ∧
      (crcOk = true → (flag s (pCH c) fSCH_STAT_NAVSYNC = false → intRaw t pNAV 4 = true) ∧
        flag t (pCH c) fSCH_STAT_NAVSYNC = true ∧ rdN t pNAV rNAV_CRC_FAIL_CNT = rdN s pNAV rNAV_CRC_FAIL_CNT) := by
  obtain ⟨hkept, hsync, hraised, hregs⟩ := pageSynced_shows s hc
  refine ⟨?_, fun hcrc => ?_⟩
  · obtain ⟨u, n, heq, hchans⟩ := takePage_eq s c x even odd first crcOk tailOk corrected
    rw [heq]
    refine countNavFail_even ?_ n
    rw [chan?, hchans, ← chan?, hkept, hused]
  · subst hcrc
    have hlen := length_pageRecord (pageSynced s c) c x even odd first tailOk corrected
    rw [takePage_passed]
    generalize pageRecord (pageSynced s c) c x even odd first tailOk corrected = w at hlen
    have hupd := otherRegs_updChan (navRecord (pageSynced s c) w) c (fun x => { x with fails := 0 }) []
    have hch := ch_ne_rec hc (o := rSCH_STAT) (by decide)
    refine ⟨fun hnew => ?_, ?_, ?_⟩
    · rw [hupd.intRaw 4 List.not_mem_nil (by decide), intRaw_navRecord _ hlen.le (by decide) (by decide) (by decide),
        hraised hnew]
    · rw [hupd.flag List.not_mem_nil hch, flag_congr (rdA_navRecord_ne _ hlen.le
        (.inr (by simp only [Pg.adr, pCH]; omega)) hch (by simp (disch := decide) [ringRegs, ch_ne_below])), hsync]
    · rw [hupd.rdN List.not_mem_nil (by decide), rdN_congr (rdA_navRecord_ne _ hlen.le (.inl (by decide)) (by decide)
        (by decide)), hregs.rdN (by simpa using ⟨(ch_ne_below c rSCH_STAT (p := pNAV) (by decide) (by decide)
          (by decide)).symm, pNAV.adr_ne (by decide)⟩) (by decide)]

/-- The even part that waits for an odd one is used up. -/
def evenUsed (s : State) (c : Nat) : State := updChan s c fun y => { y with even := none }

section

variable {s : State} {ch : Fin 80} {x : Chan} (hx : chan? s ch = some x) (hpage : pageEn s pNAV = true)
  (hen : flag s pNAV fNAV_CFG_INAV_EN = true) (hst : x.st = 3) (hsys : x.sys = 1) (first : PC64) (bits : List Nat)
  (crc tail : Bool) (cor : Nat)
include hx hpage hen hst hsys

theorem exec_inavPage_even :
    exec (.inavPage ch first false bits crc tail cor) s =
      .next (updChan s ch fun y => { y with even := some (bits, first) }) := by
  simp only [exec, execInavPage, hx, hpage, hen, hst, hsys, bne_self_eq_false, Bool.not_true, Bool.or_self,
    Bool.false_eq_true, if_false, Bool.not_false, if_true]

theorem exec_inavPage_odd :
    exec (.inavPage ch first true bits crc tail cor) s = .next
      (x.even.elim (evenUsed s ch) fun e => if apartMs e.2 first 1000 then
        takePage (evenUsed s ch) ch x e.1 bits e.2 crc tail cor else evenUsed s ch) := by
  simp only [exec, execInavPage, hx, hpage, hen, hst, hsys, bne_self_eq_false, Bool.not_true, Bool.or_self,
    Bool.false_eq_true, if_false, evenUsed]
  cases x.even with
  | none => rfl
  | some e =>
    simp only [Option.elim_some]
    split
    · rfl
    · rfl

theorem inavPage_shows (odd : Bool) :
    Answers (exec (.inavPage ch first odd bits crc tail cor) s) fun t =>
      (odd = false → t.regs = s.regs ∧ (chan? t ch).map (fun y => y.even) = some (some (bits, first))) ∧
      (odd = true → (chan? t ch).map (fun y => y.even) = some none ∧
        ∀ e ∈ x.even, apartMs e.2 first 1000 = true → crc = true →
          (flag s (pCH ch) fSCH_STAT_NAVSYNC = false → intRaw t pNAV 4 = true) ∧
          flag t (pCH ch) fSCH_STAT_NAVSYNC = true ∧ rdN t pNAV rNAV_CRC_FAIL_CNT = rdN s pNAV rNAV_CRC_FAIL_CNT) := by
  cases odd with
  | false =>
    rw [exec_inavPage_even hx hpage hen hst hsys, answers_next]
    refine ⟨fun _ => ⟨updChan_regs _ _ _, ?_⟩, fun h => absurd h Bool.false_ne_true⟩
    rw [chan?_updChan_same, hx]
    rfl
  | true =>
    have hused : (chan? (evenUsed s ch) ch).map (fun y => y.even) = some none := by
      rw [evenUsed, chan?_updChan_same, hx]
      rfl
    have hregs : OtherRegs s (evenUsed s ch) [] := otherRegs_updChan s ch _ []
    have hsync : flag (evenUsed s ch) (pCH ch) fSCH_STAT_NAVSYNC = flag s (pCH ch) fSCH_STAT_NAVSYNC :=
      hregs.flag List.not_mem_nil (ch_ne_rec ch.isLt (by decide))
    have hcount : rdN (evenUsed s ch) pNAV rNAV_CRC_FAIL_CNT = rdN s pNAV rNAV_CRC_FAIL_CNT :=
      hregs.rdN List.not_mem_nil (by decide)
    rw [exec_inavPage_odd hx hpage hen hst hsys, answers_next]
    refine ⟨fun h => absurd h.symm Bool.false_ne_true, fun _ => ?_⟩
    cases x.even with
    | none => exact ⟨hused, fun e he => absurd he (Option.not_mem_none e)⟩
    | some e =>
      rw [Option.elim_some]
      split
      · obtain ⟨heven, hpassed⟩ := takePage_shows ch.isLt hused x e.1 bits e.2 crc tail cor
        rw [hsync, hcount] at hpassed
        exact ⟨heven, fun _ _ _ hcrc => hpassed hcrc⟩
      · next hfar =>
        refine ⟨hused, fun d hd hnear => absurd ?_ hfar⟩
        rw [← Option.mem_some.mp hd] at hnear
        exact hnear

end

end Sys2Proof.Machine
end

section
/-! Timing solutions and the surveyed position (R152–R154): a submission is refused, or accepted and handed to the
integrity monitor, which leaves the NAV page. -/

namespace Sys2Proof.Machine

/-! ### What the integrity monitor spares (R154–R164) -/

/-- The NAV page and the epoch solved last stay as they were. -/
structure SparesNav (s t : State) : Prop where
  regs : ∀ o, o < 0x1000 → rdA t (pNAV.adr o) = rdA s (pNAV.adr o)
  solved : t.rad.solved = s.rad.solved

namespace SparesNav

theorem refl (s : State) : SparesNav s s := ⟨fun _ _ => rfl, rfl⟩

theorem trans {s t u : State} (h₁ : SparesNav s t) (h₂ : SparesNav t u) : SparesNav s u :=
  ⟨fun o ho => (h₂.regs o ho).trans (h₁.regs o ho), h₂.solved.trans h₁.solved⟩

/-- An operation whose registers lie beside the NAV page. -/
theorem of_otherRegs {s t : State} {l : List Nat} (h : OtherRegs s t l) (hl : ∀ o, o < 0x1000 → pNAV.adr o ∉ l)
    (hrad : t.rad.solved = s.rad.solved) : SparesNav s t :=
  ⟨fun o ho => h _ (hl o ho) (by simp only [Pg.adr]; omega), hrad⟩

/-- An operation on one register of the INT page. -/
theorem of_int {s t : State} {o' : Nat} (h : OtherRegs s t [pINT.adr o']) (hrad : t.rad = s.rad) : SparesNav s t :=
  of_otherRegs h (fun o ho => by simp only [Pg.adr, List.mem_singleton]; omega) (by rw [hrad])

theorem of_foldl {α : Type} {g : State → α → State} (hg : ∀ s x, SparesNav s (g s x)) (l : List α) (s : State) :
    SparesNav s (l.foldl g s) :=
  kept_foldl (P := SparesNav s) l g s (fun t x h => h.trans (hg t x)) (refl s)

end SparesNav

theorem sparesNav_updMon (s : State) (f : Monitor → Monitor) : SparesNav s (updMon s f) := ⟨fun _ _ => rfl, rfl⟩

theorem sparesNav_put (s : State) (f : Fld) (v : Nat) : SparesNav s (put s pINT f v) :=
  .of_int (otherRegs_put s pINT f v) (put_rad _ _ _ _)

theorem sparesNav_wrN (s : State) (o v : Nat) : SparesNav s (wrN s pINT o v) :=
  .of_int (otherRegs_wrN s pINT o v) (wrN_rad _ _ _ _)

theorem sparesNav_raise (s : State) (bit : Nat) : SparesNav s (raise s pINT bit) :=
  .of_int (otherRegs_raise s pINT bit) (raise_rad _ _ _)

theorem sparesNav_raiseIf (s : State) (b : Bool) (bit : Nat) : SparesNav s (raiseIf s b pINT bit) :=
  .of_int (otherRegs_raiseIf s b pINT bit) (raiseIf_rad _ _ _ _)

theorem sparesNav_bump (s : State) (o : Nat) : SparesNav s (bump s pINT o) :=
  .of_int (otherRegs_bump s pINT o) (bump_rad _ _ _)

theorem sparesNav_doubt (s : State) (bit : Nat) (b : Bool) : SparesNav s (doubt s pINT bit b) :=
  .of_int (otherRegs_doubt s pINT bit b) (doubt_rad _ _ _ _)

theorem sparesNav_showInd (s : State) : SparesNav s (showInd s) :=
  (((((sparesNav_raiseIf s _ 4).trans (sparesNav_raiseIf _ _ 5)).trans (sparesNav_put _ fINTM_STAT_JAM_IND _)).trans
    (sparesNav_put _ fINTM_STAT_SPOOF_IND _)).trans (sparesNav_doubt _ 1 _)).trans (sparesNav_doubt _ 2 _)

theorem sparesNav_showClearLeft (s : State) : SparesNav s (showClearLeft s) := sparesNav_put s fINTM_STAT_CLEAR_LEFT _

theorem sparesNav_causeRises (s : State) : SparesNav s (causeRises s) := by
  have hshown := (((sparesNav_put s fINTM_STAT_SUSPECT (ofBool true)).trans
    (sparesNav_bump _ rINTM_SUSPECT_CNT)).trans (sparesNav_raise _ 1)).trans (sparesNav_doubt _ 0 true)
  exact hshown.trans ⟨fun _ _ => rfl, rfl⟩

theorem sparesNav_setCause (s : State) (i : Nat) (b : Bool) : SparesNav s (setCause s i b) := by
  rw [setCause]
  split
  · exact .refl s
  · refine .trans (.trans (.trans ?_ (sparesNav_updMon _ _)) (sparesNav_showInd _)) (sparesNav_showClearLeft _)
    split
    · exact ((sparesNav_wrN s _ _).trans (sparesNav_wrN _ _ _)).trans (sparesNav_causeRises _)
    · exact sparesNav_wrN s _ _

theorem sparesNav_showExcl (s : State) : SparesNav s (showExcl s) :=
  .of_otherRegs (otherRegs_showExcl s)
    (fun o ho => by simp only [shownRegs, Pg.adr, List.mem_cons, List.not_mem_nil, or_false, rTRK_ACTIVE_LO,
      rTRK_ACTIVE_HI, rTRK_ACTIVE_T]; omega) (by rw [showExcl_rad])

theorem sparesNav_exclude (s : State) (sys prn : Nat) : SparesNav s (exclude s sys prn) := by
  rw [exclude]
  split
  · exact sparesNav_updMon s _
  · exact (((sparesNav_updMon s _).trans (sparesNav_raise _ 0)).trans (sparesNav_bump _ _)).trans
      (sparesNav_showExcl _)

theorem sparesNav_checkEntry (s : State) (e : SolEntry) : SparesNav s (checkEntry s e) := by
  rw [checkEntry]
  split
  · exact sparesNav_exclude s _ _
  · exact .refl s

theorem sparesNav_checkFlat (s : State) (l : List SolEntry) : SparesNav s (checkFlat s l) :=
  (sparesNav_updMon s _).trans (sparesNav_setCause _ 0 _)

theorem sparesNav_checkPred (s : State) (x0 : Int) : SparesNav s (checkPred s x0).1 :=
  (sparesNav_updMon s _).trans (sparesNav_setCause _ 3 _)

theorem sparesNav_checkStep (s : State) (x0 : Int) : SparesNav s (checkStep s x0).1 :=
  (sparesNav_updMon s _).trans (sparesNav_setCause _ 4 _)

theorem sparesNav_withhold (s : State) : SparesNav s (withhold s) :=
  (sparesNav_bump s rINTM_WITHHELD_CNT).trans (sparesNav_raise _ 3)

theorem sparesNav_passSolution (s : State) : SparesNav s (passSolution s) := by
  rw [passSolution]
  split
  · exact ⟨fun _ _ => rfl, rfl⟩
  · exact .refl s

theorem sparesNav_checkSolution (s : State) : SparesNav s (checkSolution s) := by
  rw [checkSolution]
  split
  · exact sparesNav_withhold s
  · have hchecked : ∀ l x0 v, SparesNav s (showClearLeft (judgeManyExcl
        (checkStep (checkPred (checkFlat (List.foldl checkEntry (showViewAge (wrN s pINT rINTM_TIME_OFS v)) l) l) x0).1
          x0).1)) := fun l x0 v =>
      (((((((sparesNav_wrN s _ v).trans (sparesNav_put _ fINTM_VIEW_AGE_MS _)).trans
        (.of_foldl sparesNav_checkEntry l _)).trans (sparesNav_checkFlat _ l)).trans (sparesNav_checkPred _ x0)).trans
        (sparesNav_checkStep _ x0)).trans (sparesNav_setCause _ 6 _)).trans (sparesNav_showClearLeft _)
    simp only
    split
    · exact (hchecked _ _ _).trans (sparesNav_withhold _)
    · exact (hchecked _ _ _).trans (sparesNav_passSolution _)

/-! ### Submissions (R152) -/

theorem exec_solSubmit {r : Requester} {v : Word} {s : State} (hw : writable s r pNAV = true)
    (hsubmit : fNAV_SOL_CMD_SUBMIT.of v.toNat = 1) : exec (.solSubmit r v) s = .next (submitSolution s) := by
  simp only [exec, execSolSubmit, onWrite_writable hw, if_pos hsubmit]

theorem solRefusal_lt (s : State) : solRefusal s < 8 := by
  rw [solRefusal]
  exact ite_lt_of_lt (by decide) (ite_lt_of_lt (by decide) (ite_lt_of_lt (by decide) (ite_lt_of_lt (by decide)
    (ite_lt_of_lt (by decide) (ite_lt_of_lt (by decide) (ite_lt_of_lt (by decide) (by decide)))))))

theorem submitSolution_refused {s : State} (h : solRefusal s ≠ 0) :
    submitSolution s =
      raise (bump (wrN s pNAV rNAV_SOL_STAT (2 + solRefusal s * 16)) pNAV rNAV_SOL_REJ_CNT) pNAV 3 := by
  rw [submitSolution, if_pos h]

theorem solSubmit_refused {r : Requester} {v : Word} {s : State} (hw : writable s r pNAV = true)
    (hsubmit : fNAV_SOL_CMD_SUBMIT.of v.toNat = 1) (hwhy : solRefusal s ≠ 0) :
    Answers (exec (.solSubmit r v) s) fun t => rdN t pNAV rNAV_SOL_STAT = 2 + solRefusal s * 16 ∧
      rdN t pNAV rNAV_SOL_REJ_CNT = min (rdN s pNAV rNAV_SOL_REJ_CNT + 1) 0xFFFFFFFF ∧ intRaw t pNAV 3 = true ∧
      t.rad = s.rad ∧
      OtherRegs s t [pNAV.adr rNAV_SOL_STAT, pNAV.adr rNAV_SOL_REJ_CNT, pNAV.adr rINT_RAW] := by
  have hlt := solRefusal_lt s
  rw [exec_solSubmit hw hsubmit, submitSolution_refused hwhy, answers_next]
  have hstat := otherRegs_wrN s pNAV rNAV_SOL_STAT (2 + solRefusal s * 16)
  have hbump := otherRegs_bump (wrN s pNAV rNAV_SOL_STAT (2 + solRefusal s * 16)) pNAV rNAV_SOL_REJ_CNT
  have hraise := otherRegs_raise
    (bump (wrN s pNAV rNAV_SOL_STAT (2 + solRefusal s * 16)) pNAV rNAV_SOL_REJ_CNT) pNAV 3
  refine ⟨?_, ?_, intRaw_raise_nav _ (by decide), by rw [raise_rad, bump_rad, wrN_rad],
    ((hstat.mono (by simp)).andThen hbump (by simp)).andThen hraise (by simp)⟩
  · rw [hraise.rdN (by decide) (by decide), hbump.rdN (by decide) (by decide), rdN_wrN_same]
    omega
  · rw [hraise.rdN (by decide) (by decide), rdN_bump_same, hstat.rdN (by decide) (by decide)]

/-- An accepted submission: its epoch is solved, counted and shown. -/
def solutionTaken (s : State) : State :=
  raise (bump (updRad (wrN s pNAV rNAV_SOL_STAT 1) fun r => { r with solved := some (rdN s pNAV rNAV_SOL_EPOCH) }) pNAV
    rNAV_SOL_ACC_CNT) pNAV 2

theorem submitSolution_accepted {s : State} (h : solRefusal s = 0) :
    submitSolution s = checkSolution (solutionTaken s) := by
  rw [submitSolution, if_neg (not_not.mpr h)]
  rfl

theorem solutionTaken_shows (s : State) :
    rdN (solutionTaken s) pNAV rNAV_SOL_STAT = 1 ∧
      rdN (solutionTaken s) pNAV rNAV_SOL_ACC_CNT = min (rdN s pNAV rNAV_SOL_ACC_CNT + 1) 0xFFFFFFFF ∧
      intRaw (solutionTaken s) pNAV 2 = true ∧
      (solutionTaken s).rad.solved = some (rdN s pNAV rNAV_SOL_EPOCH) ∧
      OtherRegs s (solutionTaken s) [pNAV.adr rNAV_SOL_STAT, pNAV.adr rNAV_SOL_ACC_CNT, pNAV.adr rINT_RAW] := by
  have hstat : OtherRegs s (updRad (wrN s pNAV rNAV_SOL_STAT 1) fun r =>
      { r with solved := some (rdN s pNAV rNAV_SOL_EPOCH) }) [pNAV.adr rNAV_SOL_STAT] :=
    (otherRegs_wrN s pNAV rNAV_SOL_STAT 1).trans (otherRegs_updRad _ _ _)
  have hshown : rdN (updRad (wrN s pNAV rNAV_SOL_STAT 1) fun r =>
      { r with solved := some (rdN s pNAV rNAV_SOL_EPOCH) }) pNAV rNAV_SOL_STAT = 1 := rdN_wrN_same s pNAV _ 1
  have hsolved : (solutionTaken s).rad.solved = some (rdN s pNAV rNAV_SOL_EPOCH) := by
    rw [solutionTaken, raise_rad, bump_rad, updRad]
  refine ⟨?_, ?_, intRaw_raise_nav _ (by decide), hsolved,
    ((hstat.mono (by simp)).andThen (otherRegs_bump _ pNAV rNAV_SOL_ACC_CNT) (by simp)).andThen
      (otherRegs_raise _ pNAV 2) (by simp)⟩
  · rw [solutionTaken, (otherRegs_raise _ pNAV 2).rdN (by decide) (by decide),
      (otherRegs_bump _ pNAV rNAV_SOL_ACC_CNT).rdN (by decide) (by decide), hshown]
  · rw [solutionTaken, (otherRegs_raise _ pNAV 2).rdN (by decide) (by decide), rdN_bump_same,
      hstat.rdN (by decide) (by decide)]

/-- R154: the disabled monitor withholds the solution, and the discipline engine gets nothing. -/
theorem checkSolution_disabled {s : State} (h : pageEn s pINT = false) :
    rdN (checkSolution s) pINT rINTM_WITHHELD_CNT = min (rdN s pINT rINTM_WITHHELD_CNT + 1) 0xFFFFFFFF ∧
      (checkSolution s).dsc = s.dsc := by
  have heq : checkSolution s = withhold s := by simp only [checkSolution, h, Bool.not_false, if_true]
  rw [heq]
  refine ⟨?_, by rw [withhold, raise_dsc, bump_dsc]⟩
  rw [withhold, (otherRegs_raise _ pINT 3).rdN (by decide) (by decide), rdN_bump_same]

theorem solSubmit_accepted {r : Requester} {v : Word} {s : State} (hw : writable s r pNAV = true)
    (hsubmit : fNAV_SOL_CMD_SUBMIT.of v.toNat = 1) (hwhy : solRefusal s = 0) :
    Answers (exec (.solSubmit r v) s) fun t => rdN t pNAV rNAV_SOL_STAT = 1 ∧
      rdN t pNAV rNAV_SOL_ACC_CNT = min (rdN s pNAV rNAV_SOL_ACC_CNT + 1) 0xFFFFFFFF ∧ intRaw t pNAV 2 = true ∧
      t.rad.solved = some (rdN s pNAV rNAV_SOL_EPOCH) ∧
      (pageEn s pINT = false →
        rdN t pINT rINTM_WITHHELD_CNT = min (rdN s pINT rINTM_WITHHELD_CNT + 1) 0xFFFFFFFF ∧ t.dsc = s.dsc) := by
  obtain ⟨hstat, hcount, hraised, hsolved, hregs⟩ := solutionTaken_shows s
  have hspared := sparesNav_checkSolution (solutionTaken s)
  rw [exec_solSubmit hw hsubmit, submitSolution_accepted hwhy, answers_next]
  refine ⟨?_, ?_, ?_, hspared.solved.trans hsolved, fun hoff => ?_⟩
  · rw [rdN_congr (hspared.regs _ (by decide)), hstat]
  · rw [rdN_congr (hspared.regs _ (by decide)), hcount]
  · rw [intRaw, rdN_congr (hspared.regs _ (by decide))]
    exact hraised
  · have hoff' : pageEn (solutionTaken s) pINT = false := by
      rw [pageEn_congr (hregs _ (by decide) (by decide)) (by rw [solutionTaken, raise_pwr, bump_pwr, updRad, wrN_pwr]),
        hoff]
    obtain ⟨hheld, hdsc⟩ := checkSolution_disabled hoff'
    exact ⟨by rw [hheld, hregs.rdN (by decide) (by decide)],
      by rw [hdsc, solutionTaken, raise_dsc, bump_dsc, updRad, wrN_dsc]⟩

/-! ### The surveyed position (R153) -/

/-- POS_SIG as it is stored. -/
def posSigWord (n : Nat) : Nat := fNAV_POS_SIG_CM.of n + (if fNAV_POS_SIG_VALID.of n = 1 then 0x80000000 else 0)

theorem posSigWord_fields (n : Nat) :
    (fNAV_POS_SIG_VALID.of (posSigWord n) != 0) = (fNAV_POS_SIG_VALID.of n == 1) ∧
      fNAV_POS_SIG_CM.of (posSigWord n) = fNAV_POS_SIG_CM.of n := by
  have hcm : fNAV_POS_SIG_CM.of n < 2 ^ 16 := Fld.of_lt fNAV_POS_SIG_CM n
  rw [posSigWord]
  generalize fNAV_POS_SIG_CM.of n = cm at hcm
  by_cases hvalid : fNAV_POS_SIG_VALID.of n = 1
  · rw [if_pos hvalid, hvalid]
    have hset : fNAV_POS_SIG_VALID.of (cm + 0x80000000) = 1 := by simp only [Fld.of]; omega
    exact ⟨by rw [hset]; rfl, by simp only [Fld.of]; omega⟩
  · rw [if_neg hvalid, beq_eq_false_iff_ne.mpr hvalid]
    have hclear : fNAV_POS_SIG_VALID.of (cm + 0) = 0 := by simp only [Fld.of]; omega
    exact ⟨by rw [hclear]; rfl, by simp only [Fld.of]; omega⟩

theorem exec_posSigWrite {r : Requester} {v : Word} {s : State} (hw : writable s r pNAV = true) :
    exec (.posSigWrite r v) s = .next (updRad (wrN s pNAV rNAV_POS_SIG (posSigWord v.toNat)) fun x =>
      { x with pos := if fNAV_POS_SIG_VALID.of v.toNat = 1 then some (rdN s pNAV rNAV_POS_X, rdN s pNAV rNAV_POS_Y,
        rdN s pNAV rNAV_POS_Z, fNAV_POS_SIG_CM.of v.toNat) else none }) := by
  simp only [exec, execPosSigWrite, onWrite_writable hw]
  rfl

theorem posSigWrite_shows {r : Requester} {v : Word} {s : State} (hw : writable s r pNAV = true) :
    Answers (exec (.posSigWrite r v) s) fun t =>
      flag t pNAV fNAV_POS_SIG_VALID = (fNAV_POS_SIG_VALID.of v.toNat == 1) ∧
      get t pNAV fNAV_POS_SIG_CM = fNAV_POS_SIG_CM.of v.toNat ∧
      t.rad.pos = (if fNAV_POS_SIG_VALID.of v.toNat = 1 then some (rdN s pNAV rNAV_POS_X, rdN s pNAV rNAV_POS_Y,
        rdN s pNAV rNAV_POS_Z, fNAV_POS_SIG_CM.of v.toNat) else none) ∧ OtherRegs s t [pNAV.adr rNAV_POS_SIG] := by
  obtain ⟨hvalid, hcm⟩ := posSigWord_fields v.toNat
  have hget : ∀ (f : Fld) (g : Radio → Radio), f.off = rNAV_POS_SIG → f.lo + f.w ≤ 32 →
      get (updRad (wrN s pNAV rNAV_POS_SIG (posSigWord v.toNat)) g) pNAV f = f.of (posSigWord v.toNat) :=
    fun f g hoff hf => by
      rw [get_congr (rdA_updRad _ _ _), ← hoff]
      exact get_wrN_same s pNAV f _ hf
  rw [exec_posSigWrite hw, answers_next]
  refine ⟨?_, by rw [hget _ _ rfl (by decide), hcm], rfl,
    (otherRegs_wrN s pNAV rNAV_POS_SIG _).trans (otherRegs_updRad _ _ _)⟩
  rw [flag, hget _ _ rfl (by decide), hvalid]

/-! ### The rows -/

/-- Settles O30: a record moves the ring alone; a page part moves its channel and the sync; the integrity monitor, which
takes what a submission hands on, spares the NAV page. -/
theorem navigationData : Obligations.NavigationData :=
  ⟨fun _ first inv _ _ _ hx hpage hen hst hsys hsync hlen hgood hroom hi hint =>
      navSubframe_shows hx hpage hen hst hsys hsync hlen hgood hroom hi hint first inv,
    fun _ first odd crc tail bits cor _ _ hx hpage hen hst hsys =>
      inavPage_shows hx hpage hen hst hsys first bits crc tail cor odd,
    fun _ _ _ hw => navRdIdxWrite_shows hw, fun _ _ _ hw hsubmit hwhy => solSubmit_refused hw hsubmit hwhy,
    fun _ _ _ hw hsubmit hwhy => solSubmit_accepted hw hsubmit hwhy, fun _ _ _ hw => posSigWrite_shows hw⟩

end Sys2Proof.Machine
end

section
/-! The causes of the integrity monitor (R161–R163): the registers that a cause moves, what stands when it has risen,
and the parts that the indications and CLEAR_LEFT leave alone. -/

namespace Sys2Proof.Machine

/-! ### What showing the indications leaves (R162, R163) -/

/-- The INT page's registers of indications: INT_RAW, DOUBT_RAW and STAT. -/
def indRegs : List Nat := [pINT.adr rINT_RAW, pINT.adr rDOUBT_RAW, pINT.adr rINTM_STAT]

theorem intRaw_raise_int (s : State) {bit : Nat} (hb : bit < 32) : intRaw (raise s pINT bit) pINT bit = true :=
  intRaw_raise_same (.inr rfl) s hb

/-- Another interrupt bit of a page beside the Recorder's stays when one rises. -/
theorem intRaw_raise_ne {p : Pg} (hp : offRec (p.adr rINT_RAW) = true) (s : State) {bit b : Nat} (hb : b < 32)
    (hne : b ≠ bit) : intRaw (raise s p bit) p b = intRaw s p b :=
  raise_other s p bit b hb hne hp

theorem intRaw_raiseIf_ne {p : Pg} (hp : offRec (p.adr rINT_RAW) = true) (s : State) (c : Bool) {bit b : Nat}
    (hb : b < 32) (hne : b ≠ bit) : intRaw (raiseIf s c p bit) p b = intRaw s p b := by
  rw [raiseIf]
  split
  · exact intRaw_raise_ne hp s hb hne
  · rfl

/-- SUSPECT, its doubt, the interrupt bits below 4 and the Radio's own state stay; the indications and CLEAR_LEFT may
move. -/
structure KeepsSuspect (s t : State) : Prop where
  suspect : suspect t = suspect s
  doubt : doubts t pINT 0 = doubts s pINT 0
  ints : ∀ bit, bit < 4 → intRaw t pINT bit = intRaw s pINT bit
  regs : OtherRegs s t indRegs
  rad : t.rad = s.rad

namespace KeepsSuspect

theorem trans {s t u : State} (h₁ : KeepsSuspect s t) (h₂ : KeepsSuspect t u) : KeepsSuspect s u where
  suspect := h₂.suspect.trans h₁.suspect
  doubt := h₂.doubt.trans h₁.doubt
  ints bit hb := (h₂.ints bit hb).trans (h₁.ints bit hb)
  regs := h₁.regs.trans h₂.regs
  rad := h₂.rad.trans h₁.rad

end KeepsSuspect

theorem keepsSuspect_raiseIf (s : State) (c : Bool) {bit : Nat} (hbit : 4 ≤ bit) :
    KeepsSuspect s (raiseIf s c pINT bit) := by
  have hregs := otherRegs_raiseIf s c pINT bit
  exact ⟨hregs.flag (by decide) (by decide), hregs.doubts 0 (by decide) (by decide),
    fun b hb => intRaw_raiseIf_ne rfl s c (by omega) (by omega), hregs.mono (by simp [indRegs]), raiseIf_rad _ _ _ _⟩

theorem keepsSuspect_put (s : State) (f : Fld) (v : Nat) (hoff : f.off = rINTM_STAT) (hlo : 1 ≤ f.lo) :
    KeepsSuspect s (put s pINT f v) := by
  have hregs : OtherRegs s (put s pINT f v) [pINT.adr rINTM_STAT] := hoff ▸ otherRegs_put s pINT f v
  exact ⟨flag_put_apart s pINT f fINTM_STAT_SUSPECT v hoff.symm (by decide) (.inl hlo),
    hregs.doubts 0 (by decide) (by decide), fun b _ => hregs.intRaw b (by decide) (by decide),
    hregs.mono (by simp [indRegs]), put_rad _ _ _ _⟩

theorem keepsSuspect_doubt (s : State) {bit : Nat} (b : Bool) (hbit : 1 ≤ bit) :
    KeepsSuspect s (doubt s pINT bit b) := by
  have hregs := otherRegs_doubt s pINT bit b
  exact ⟨hregs.flag (by decide) (by decide), doubts_doubt_ne _ _ _ (by decide) (by omega),
    fun b _ => hregs.intRaw b (by decide) (by decide), hregs.mono (by simp [indRegs]), doubt_rad _ _ _ _⟩

theorem keepsSuspect_showInd (s : State) : KeepsSuspect s (showInd s) :=
  (((((keepsSuspect_raiseIf s _ (by decide)).trans (keepsSuspect_raiseIf _ _ (by decide))).trans
    (keepsSuspect_put _ fINTM_STAT_JAM_IND _ rfl (by decide))).trans
    (keepsSuspect_put _ fINTM_STAT_SPOOF_IND _ rfl (by decide))).trans
    (keepsSuspect_doubt _ _ (by decide))).trans (keepsSuspect_doubt _ _ (by decide))

theorem keepsSuspect_showClearLeft (s : State) : KeepsSuspect s (showClearLeft s) :=
  keepsSuspect_put s fINTM_STAT_CLEAR_LEFT _ rfl (by decide)

/-! ### A cause rises or falls (R161) -/

/-- The registers that a cause moves. -/
def causeRegs : List Nat :=
  pINT.adr rINTM_CAUSE :: pINT.adr rINTM_CAUSE_SEEN :: pINT.adr rINTM_SUSPECT_CNT :: indRegs

theorem indRegs_subset_causeRegs : indRegs ⊆ causeRegs := fun _ h => by simp [causeRegs, h]

/-- CAUSE with a cause that stands or not from now on. -/
def causeWritten (s : State) (i : Nat) (b : Bool) : State :=
  wrN s pINT rINTM_CAUSE (setBit (rdN s pINT rINTM_CAUSE) i b)

/-- CAUSE and CAUSE_SEEN with a cause that rises. -/
def causeSeen (s : State) (i : Nat) : State :=
  wrN (causeWritten s i true) pINT rINTM_CAUSE_SEEN (setBit (rdN s pINT rINTM_CAUSE_SEEN) i true)

/-- CAUSE, and with a cause that rises CAUSE_SEEN and SUSPECT. -/
def causeTaken (s : State) (i : Nat) (b : Bool) : State :=
  if b then causeRises (causeSeen s i) else causeWritten s i b

theorem otherRegs_markSlot (s : State) (b : Bool) (l : List Nat) : OtherRegs s (markSlot s b) l :=
  .of_regs (updSlot_regs _ _ _) l

theorem causeRises_shows (s : State) :
    suspect (causeRises s) = true ∧ doubts (causeRises s) pINT 0 = true ∧ intRaw (causeRises s) pINT 1 = true ∧
      rdN (causeRises s) pINT rINTM_SUSPECT_CNT = min (rdN s pINT rINTM_SUSPECT_CNT + 1) 0xFFFFFFFF ∧
      OtherRegs s (causeRises s) (pINT.adr rINTM_SUSPECT_CNT :: indRegs) ∧ (causeRises s).rad = s.rad := by
  have hset := otherRegs_putB s pINT fINTM_STAT_SUSPECT true
  have hcount := otherRegs_bump (putB s pINT fINTM_STAT_SUSPECT true) pINT rINTM_SUSPECT_CNT
  have hraise := otherRegs_raise (bump (putB s pINT fINTM_STAT_SUSPECT true) pINT rINTM_SUSPECT_CNT) pINT 1
  have hdoubt := (otherRegs_doubt (raise (bump (putB s pINT fINTM_STAT_SUSPECT true) pINT rINTM_SUSPECT_CNT) pINT 1)
    pINT 0 true).trans (otherRegs_markSlot _ true _)
  refine ⟨?_, ?_, ?_, ?_, ?_, ?_⟩
  · exact (hdoubt.flag (by decide) (by decide)).trans ((hraise.flag (by decide) (by decide)).trans
      ((hcount.flag (by decide) (by decide)).trans (flag_putB_same _ _ _ _ (by decide) rfl)))
  · exact ((otherRegs_markSlot _ true []).doubts 0 (by decide) (by decide)).trans
      (doubts_doubt_same _ _ _ (by decide))
  · exact (hdoubt.intRaw 1 (by decide) (by decide)).trans (intRaw_raise_int _ (by decide))
  · exact (hdoubt.rdN (by decide) (by decide)).trans ((hraise.rdN (by decide) (by decide)).trans
      (by rw [rdN_bump_same, hset.rdN (by decide) (by decide)]))
  · exact (((hset.mono (by simp [indRegs])).andThen hcount (by simp)).andThen hraise (by simp [indRegs])).andThen
      hdoubt (by simp [indRegs])
  · exact (doubt_rad _ _ _ _).trans (by rw [raise_rad, bump_rad, putB_rad])

theorem causeOn_congr {s t : State} {l : List Nat} (h : OtherRegs s t l) (hl : pINT.adr rINTM_CAUSE ∉ l) (i : Nat) :
    causeOn t i = causeOn s i := by
  rw [causeOn, h.rdN hl (by decide), causeOn]

theorem causeWritten_shows (s : State) {i : Nat} (hi : i < 32) (b : Bool) :
    causeOn (causeWritten s i b) i = b ∧ OtherRegs s (causeWritten s i b) [pINT.adr rINTM_CAUSE] ∧
      (causeWritten s i b).rad = s.rad := by
  refine ⟨?_, otherRegs_wrN _ _ _ _, wrN_rad _ _ _ _⟩
  rw [causeOn, causeWritten, rdN_wrN_same, bitOf_mod _ _ hi, bitOf_setBit, if_pos rfl]

theorem causeSeen_shows (s : State) {i : Nat} (hi : i < 32) :
    causeOn (causeSeen s i) i = true ∧ bitOf (rdN (causeSeen s i) pINT rINTM_CAUSE_SEEN) i = true ∧
      OtherRegs s (causeSeen s i) [pINT.adr rINTM_CAUSE, pINT.adr rINTM_CAUSE_SEEN] ∧ (causeSeen s i).rad = s.rad := by
  obtain ⟨hon, hcause, hrad⟩ := causeWritten_shows s hi true
  have hseen : OtherRegs (causeWritten s i true) (causeSeen s i) [pINT.adr rINTM_CAUSE_SEEN] := otherRegs_wrN _ _ _ _
  refine ⟨(causeOn_congr hseen (by decide) i).trans hon, ?_, (hcause.mono (by simp)).andThen hseen (by simp),
    (wrN_rad _ _ _ _).trans hrad⟩
  rw [causeSeen, rdN_wrN_same, bitOf_mod _ _ hi, bitOf_setBit, if_pos rfl]

theorem causeTaken_shows (s : State) {i : Nat} (hi : i < 32) (b : Bool) :
    causeOn (causeTaken s i b) i = b ∧ OtherRegs s (causeTaken s i b) causeRegs ∧ (causeTaken s i b).rad = s.rad := by
  cases b with
  | false =>
    obtain ⟨hon, hregs, hrad⟩ := causeWritten_shows s hi false
    exact ⟨hon, hregs.mono (by simp [causeRegs]), hrad⟩
  | true =>
    obtain ⟨hon, _, hseen, hkept⟩ := causeSeen_shows s hi
    obtain ⟨_, _, _, _, hregs, hrad⟩ := causeRises_shows (causeSeen s i)
    exact ⟨(causeOn_congr hregs (by decide) i).trans hon,
      (hseen.mono (by simp [causeRegs])).andThen hregs (by simp [causeRegs]), hrad.trans hkept⟩

/-- A cause that changes: it is taken, the seconds of R163 start or stop, and the indications follow. -/
theorem setCause_eq {s : State} {i : Nat} {b : Bool} (h : causeOn s i ≠ b) :
    ∃ q, setCause s i b =
      showClearLeft (showInd (updMon (causeTaken s i b) fun m => { m with quietFrom := q })) := by
  refine ⟨if setBit (rdN s pINT rINTM_CAUSE) i b = 0 then some (mono s) else none, ?_⟩
  rw [setCause, if_neg h]
  cases b with
  | false => simp only [causeTaken, causeWritten, Bool.false_eq_true, if_false]
  | true => simp only [causeTaken, causeSeen, causeWritten, if_true]

/-- Of the Radio's own state a cause moves the instant from which the monitor is quiet. -/
theorem setCause_rad (s : State) {i : Nat} (hi : i < 32) (b : Bool) :
    ∃ q, (setCause s i b).rad = { s.rad with mon := { s.rad.mon with quietFrom := q } } := by
  by_cases h : causeOn s i = b
  · exact ⟨s.rad.mon.quietFrom, by rw [setCause, if_pos h]⟩
  · obtain ⟨q, heq⟩ := setCause_eq h
    obtain ⟨_, _, hrad⟩ := causeTaken_shows s hi b
    refine ⟨q, ?_⟩
    rw [heq, (keepsSuspect_showClearLeft _).rad, (keepsSuspect_showInd _).rad, updMon, updRad, hrad]

theorem setCause_frame (s : State) {i : Nat} (hi : i < 32) (b : Bool) :
    causeOn (setCause s i b) i = b ∧ OtherRegs s (setCause s i b) causeRegs := by
  by_cases h : causeOn s i = b
  · rw [setCause, if_pos h]
    exact ⟨h, .refl s _⟩
  · obtain ⟨q, heq⟩ := setCause_eq h
    obtain ⟨hon, hregs, _⟩ := causeTaken_shows s hi b
    have hshown := (keepsSuspect_showInd (updMon (causeTaken s i b) fun m => { m with quietFrom := q })).trans
      (keepsSuspect_showClearLeft _)
    have hmon := otherRegs_updRad (causeTaken s i b) (fun r => { r with mon := { r.mon with quietFrom := q } })
      causeRegs
    rw [heq]
    exact ⟨(causeOn_congr hshown.regs (by decide) i).trans hon,
      (hregs.trans hmon).andThen hshown.regs indRegs_subset_causeRegs⟩

/-- R161: a cause that rises raises SUSPECT, its doubt and INT_RAW[1], is counted and has been seen. -/
theorem setCause_rises {s : State} {i : Nat} (hi : i < 32) (hnew : causeOn s i = false) :
    suspect (setCause s i true) = true ∧ doubts (setCause s i true) pINT 0 = true ∧
      intRaw (setCause s i true) pINT 1 = true ∧ bitOf (rdN (setCause s i true) pINT rINTM_CAUSE_SEEN) i = true ∧
      rdN (setCause s i true) pINT rINTM_SUSPECT_CNT = min (rdN s pINT rINTM_SUSPECT_CNT + 1) 0xFFFFFFFF := by
  obtain ⟨q, heq⟩ := setCause_eq (b := true) (by rw [hnew]; decide)
  have hshown := (keepsSuspect_showInd (updMon (causeTaken s i true) fun m => { m with quietFrom := q })).trans
    (keepsSuspect_showClearLeft _)
  obtain ⟨_, hbit, hseen, _⟩ := causeSeen_shows s hi
  obtain ⟨hsus, hdoubt, hint, hcount, hregs, _⟩ := causeRises_shows (causeSeen s i)
  rw [heq]
  refine ⟨hshown.suspect.trans hsus, hshown.doubt.trans hdoubt, (hshown.ints 1 (by decide)).trans hint, ?_, ?_⟩
  · rw [hshown.regs.rdN (by decide) (by decide)]
    exact (congrArg (bitOf · i) (hregs.rdN (by decide) (by decide))).trans hbit
  · rw [hshown.regs.rdN (by decide) (by decide)]
    exact hcount.trans (by rw [hseen.rdN (by decide) (by decide)])

/-! ### SUSPECT clears (R163) -/

theorem clearSuspect_shows (s : State) :
    suspect (clearSuspect s) = false ∧ doubts (clearSuspect s) pINT 0 = false ∧
      intRaw (clearSuspect s) pINT 2 = true ∧ get (clearSuspect s) pINT fINTM_STAT_CLEAR_LEFT = 0 ∧
      OtherRegs s (clearSuspect s) indRegs := by
  have hfall := otherRegs_putB s pINT fINTM_STAT_SUSPECT false
  have hraise := otherRegs_raise (putB s pINT fINTM_STAT_SUSPECT false) pINT 2
  have hdoubt := (otherRegs_doubt (raise (putB s pINT fINTM_STAT_SUSPECT false) pINT 2) pINT 0 false).trans
    (otherRegs_markSlot _ false _)
  have hleft := keepsSuspect_showClearLeft
    (markSlot (doubt (raise (putB s pINT fINTM_STAT_SUSPECT false) pINT 2) pINT 0 false) false)
  have hsus : suspect (markSlot (doubt (raise (putB s pINT fINTM_STAT_SUSPECT false) pINT 2) pINT 0 false) false) =
      false :=
    (hdoubt.flag (by decide) (by decide)).trans ((hraise.flag (by decide) (by decide)).trans
      (flag_putB_same _ _ _ _ (by decide) rfl))
  refine ⟨hleft.suspect.trans hsus, ?_, ?_, ?_, ?_⟩
  · exact hleft.doubt.trans (((otherRegs_markSlot _ false []).doubts 0 (by decide) (by decide)).trans
      (doubts_doubt_same _ _ _ (by decide)))
  · exact (hleft.ints 2 (by decide)).trans ((hdoubt.intRaw 2 (by decide) (by decide)).trans
      (intRaw_raise_int _ (by decide)))
  · rw [clearSuspect, showClearLeft, hsus, if_neg Bool.false_ne_true]
    exact get_put_lt _ _ _ (by decide) (by decide)
  · exact (((hfall.mono (by simp [indRegs])).andThen hraise (by simp [indRegs])).andThen hdoubt
      (by simp [indRegs])).trans hleft.regs

end Sys2Proof.Machine
end

section
/-! The rows of the integrity monitor (R155–R164): the view, the checks of a second, exclusions, and SUSPECT forced and
cleared. -/

namespace Sys2Proof.Machine

/-! ### The view (R155) -/

theorem exec_intViewRx {s : State} (hon : pageOn s pINT = true) :
    exec .intViewRx s = .next (putB (put (updMon s fun x => { x with view := some (s.dsc.view, mono s) }) pINT
      fINTM_VIEW_AGE_MS 0) pINT fINTM_STAT_VIEW_STALE false) := by
  simp only [exec, execIntViewRx, hon, if_true]

theorem intViewRx_shows {s : State} (hon : pageOn s pINT = true) :
    Answers (exec .intViewRx s) fun t => t.rad.mon.view = some (s.dsc.view, mono s) ∧
      get t pINT fINTM_VIEW_AGE_MS = 0 ∧ flag t pINT fINTM_STAT_VIEW_STALE = false ∧
      OtherRegs s t [pINT.adr rINTM_VIEW, pINT.adr rINTM_STAT] := by
  rw [exec_intViewRx hon, answers_next]
  have hmon := otherRegs_updRad s (fun r => { r with mon := { r.mon with view := some (s.dsc.view, mono s) } })
    [pINT.adr rINTM_VIEW, pINT.adr rINTM_STAT]
  generalize hs1 : updMon s (fun x => { x with view := some (s.dsc.view, mono s) }) = s1
  have hage := otherRegs_put s1 pINT fINTM_VIEW_AGE_MS 0
  have hstale := otherRegs_putB (put s1 pINT fINTM_VIEW_AGE_MS 0) pINT fINTM_STAT_VIEW_STALE false
  refine ⟨by rw [putB_rad, put_rad, ← hs1]; rfl, ?_, flag_putB_same _ _ _ _ (by decide) rfl, ?_⟩
  · rw [hstale.get (by decide) (by decide), get_put_lt _ _ _ (by decide) (by decide)]
  · exact (OtherRegs.andThen (hs1 ▸ hmon) hage (by simp)).andThen hstale (by simp)

theorem otherRegs_showViewAge (s : State) : OtherRegs s (showViewAge s) [pINT.adr rINTM_VIEW] :=
  otherRegs_put s pINT fINTM_VIEW_AGE_MS _

theorem exec_viewStale {s : State} (hon : pageOn s pINT = true) :
    ∃ c, exec .viewStale s = .next (putB (showViewAge { s with clk := c }) pINT fINTM_STAT_VIEW_STALE true) := by
  cases hview : s.rad.mon.view with
  | none => exact ⟨s.clk, by simp only [exec, execViewStale, hon, if_true, hview]⟩
  | some v =>
    obtain ⟨c, hadv⟩ := advMono_eq s (v.2 + 250000001)
    exact ⟨c, by simp only [exec, execViewStale, hon, if_true, hview, hadv]⟩

theorem viewStale_shows {s : State} (hon : pageOn s pINT = true) :
    Answers (exec .viewStale s) fun t => flag t pINT fINTM_STAT_VIEW_STALE = true ∧
      (s.rad.mon.view = none → get t pINT fINTM_VIEW_AGE_MS = 0xFFFF) ∧
      OtherRegs s t [pINT.adr rINTM_VIEW, pINT.adr rINTM_STAT] := by
  obtain ⟨c, hexec⟩ := exec_viewStale hon
  have hage : OtherRegs s (showViewAge { s with clk := c }) [pINT.adr rINTM_VIEW] :=
    otherRegs_showViewAge { s with clk := c }
  have hstale := otherRegs_putB (showViewAge { s with clk := c }) pINT fINTM_STAT_VIEW_STALE true
  rw [hexec, answers_next]
  refine ⟨flag_putB_same _ _ _ _ (by decide) rfl, fun hnone => ?_, (hage.mono (by simp)).andThen hstale (by simp)⟩
  rw [hstale.get (by decide) (by decide)]
  simp only [showViewAge, hnone]
  exact get_put_lt _ _ _ (by decide) (by decide)

/-! ### The checks of a second (R159) -/

/-- The exclusions stay; of the registers only those of the causes and the age of the view may move. -/
structure KeepsExcl (s t : State) : Prop where
  excl : t.rad.mon.excl = s.rad.mon.excl
  regs : OtherRegs s t (pINT.adr rINTM_VIEW :: causeRegs)

namespace KeepsExcl

theorem refl (s : State) : KeepsExcl s s := ⟨rfl, .refl s _⟩

theorem trans {s t u : State} (h₁ : KeepsExcl s t) (h₂ : KeepsExcl t u) : KeepsExcl s u :=
  ⟨h₂.excl.trans h₁.excl, h₁.regs.trans h₂.regs⟩

end KeepsExcl

theorem keepsExcl_updRad (s : State) (f : Radio → Radio) (h : (f s.rad).mon.excl = s.rad.mon.excl) :
    KeepsExcl s (updRad s f) := ⟨h, otherRegs_updRad s f _⟩

theorem keepsExcl_showViewAge (s : State) : KeepsExcl s (showViewAge s) :=
  ⟨congrArg (·.mon.excl) (put_rad s pINT fINTM_VIEW_AGE_MS _), (otherRegs_showViewAge s).mono (by simp)⟩

theorem keepsExcl_showClearLeft (s : State) : KeepsExcl s (showClearLeft s) :=
  ⟨congrArg (·.mon.excl) (keepsSuspect_showClearLeft s).rad,
    (keepsSuspect_showClearLeft s).regs.mono (List.subset_cons_of_subset _ indRegs_subset_causeRegs)⟩

theorem keepsExcl_setCause (s : State) {i : Nat} (hi : i < 32) (b : Bool) : KeepsExcl s (setCause s i b) := by
  obtain ⟨q, hrad⟩ := setCause_rad s hi b
  obtain ⟨_, hregs⟩ := setCause_frame s hi b
  exact ⟨by rw [hrad], hregs.mono (by simp)⟩

theorem keepsExcl_checkAgc (s : State) : KeepsExcl s (checkAgc s) := by
  rw [checkAgc]
  split
  · exact .refl s
  · exact ((keepsExcl_updRad s _ rfl).trans (keepsExcl_updRad _ _ rfl)).trans (keepsExcl_setCause _ (by decide) _)

theorem keepsExcl_checkNoise (s : State) : KeepsExcl s (checkNoise s) := by
  simp only [checkNoise]
  split
  · exact .refl s
  · exact (keepsExcl_updRad s _ rfl).trans (keepsExcl_setCause _ (by decide) _)

theorem keepsExcl_closeNav (s : State) (upTo : Nat) : KeepsExcl s (closeNav s upTo) := by
  rw [closeNav]
  split
  · exact (keepsExcl_updRad s _ rfl).trans (keepsExcl_setCause _ (by decide) _)
  · exact .refl s

/-- The state in which a second's exclusions are judged. -/
def secondJudged (s : State) : State :=
  closeNav (checkNoise (checkAgc (showViewAge s))) (navInterval (t96 s) - 1)

theorem exec_intSecondCheck {s : State} (hpage : pageEn s pINT = true) (hon : pageOn s pINT = true) :
    exec .intSecondCheck s = .next (showClearLeft (judgeManyExcl (secondJudged s))) := by
  simp only [exec, execIntSecondCheck, hpage, hon, Bool.and_self, if_true, secondJudged]

theorem keepsExcl_secondJudged (s : State) : KeepsExcl s (secondJudged s) :=
  (((keepsExcl_showViewAge s).trans (keepsExcl_checkAgc _)).trans (keepsExcl_checkNoise _)).trans
    (keepsExcl_closeNav _ _)

theorem intSecondCheck_shows {s : State} (hpage : pageEn s pINT = true) (hon : pageOn s pINT = true) :
    Answers (exec .intSecondCheck s) fun t =>
      causeOn t 6 = decide (get s pINT fINTM_EXCL_CFG_EXCL_MAX < s.rad.mon.excl.length) ∧
        t.rad.mon.excl = s.rad.mon.excl := by
  have hjudged := keepsExcl_secondJudged s
  have hmany : KeepsExcl (secondJudged s) (judgeManyExcl (secondJudged s)) := keepsExcl_setCause _ (by decide) _
  rw [exec_intSecondCheck hpage hon, answers_next]
  refine ⟨?_, ((hjudged.trans hmany).trans (keepsExcl_showClearLeft _)).excl⟩
  rw [causeOn_congr (keepsSuspect_showClearLeft _).regs (by decide), judgeManyExcl,
    (setCause_frame _ (by decide) _).1, hjudged.excl, hjudged.regs.get (by decide) (by decide)]

/-! ### Exclusions (R157) -/

theorem isExcluded_congr {s t : State} (h : t.rad.mon.excl = s.rad.mon.excl) (sys prn : Nat) :
    isExcluded t sys prn = isExcluded s sys prn := by
  rw [isExcluded, h, isExcluded]

theorem isExcluded_iff (s : State) (sys prn : Nat) :
    isExcluded s sys prn = true ↔ ∃ e ∈ s.rad.mon.excl, e.1 = sys ∧ e.2.1 = prn := by
  simp only [isExcluded, List.any_eq_true, Bool.and_eq_true, beq_iff_eq]

theorem endExclusion_excl (s : State) (sys prn : Nat) :
    (endExclusion s sys prn).rad.mon.excl = s.rad.mon.excl.filter fun e => !(e.1 == sys && e.2.1 == prn) := by
  rw [endExclusion, showExcl_rad, updMon, updRad]

theorem isExcluded_endExclusion_same (s : State) (sys prn : Nat) :
    isExcluded (endExclusion s sys prn) sys prn = false := by
  rw [isExcluded, endExclusion_excl, List.any_eq_false]
  intro e he
  rw [Bool.not_eq_true, ← Bool.not_eq_true']
  exact (List.mem_filter.mp he).2

theorem isExcluded_endExclusion_ne (s : State) {sys prn y p : Nat} (h : y ≠ sys ∨ p ≠ prn) :
    isExcluded (endExclusion s sys prn) y p = isExcluded s y p := by
  rw [Bool.eq_iff_iff, isExcluded_iff, isExcluded_iff, endExclusion_excl]
  refine ⟨fun ⟨e, he, hsig⟩ => ⟨e, (List.mem_filter.mp he).1, hsig⟩, fun ⟨e, he, hsig⟩ => ⟨e, ?_, hsig⟩⟩
  obtain ⟨rfl, rfl⟩ := hsig
  refine List.mem_filter.mpr ⟨he, ?_⟩
  simp only [Bool.not_eq_true', Bool.and_eq_false_iff, beq_eq_false_iff_ne]
  exact h

theorem exclude_excl (s : State) (sys prn : Nat) :
    (exclude s sys prn).rad.mon.excl =
      (s.rad.mon.excl.filter fun e => !(e.1 == sys && e.2.1 == prn)) ++ [(sys, prn, mono s)] := by
  rw [exclude]
  split
  · rfl
  · rw [showExcl_rad, bump_rad, raise_rad, updMon, updRad]

theorem isExcluded_exclude_same (s : State) (sys prn : Nat) : isExcluded (exclude s sys prn) sys prn = true := by
  rw [isExcluded_iff, exclude_excl]
  exact ⟨_, List.mem_append_right _ (List.mem_singleton_self _), rfl, rfl⟩

/-- A new exclusion raises INT_RAW[0] and is counted. -/
theorem exclude_new {s : State} {sys prn : Nat} (h : isExcluded s sys prn = false) :
    intRaw (exclude s sys prn) pINT 0 = true ∧
      rdN (exclude s sys prn) pINT rINTM_EXCL_CNT = min (rdN s pINT rINTM_EXCL_CNT + 1) 0xFFFFFFFF := by
  rw [exclude]
  simp only [h, Bool.false_eq_true, if_false]
  generalize hs1 : updMon s _ = s1
  have hmon : OtherRegs s s1 [] := hs1 ▸ otherRegs_updRad s _ _
  have hraise := otherRegs_raise s1 pINT 0
  have hcount := otherRegs_bump (raise s1 pINT 0) pINT rINTM_EXCL_CNT
  have hshow := otherRegs_showExcl (bump (raise s1 pINT 0) pINT rINTM_EXCL_CNT)
  refine ⟨?_, ?_⟩
  · rw [hshow.intRaw 0 (by decide) (by decide), hcount.intRaw 0 (by decide) (by decide),
      intRaw_raise_int _ (by decide)]
  · rw [hshow.rdN (by decide) (by decide), rdN_bump_same, hraise.rdN (by decide) (by decide),
      hmon.rdN (by decide) (by decide)]

theorem exec_exclExpire {s : State} {sys : Fin 4} {prn : Nat} (h : isExcluded s sys prn = true) :
    ∃ c, exec (.exclExpire sys prn) s = .next (endExclusion { s with clk := c } sys prn) := by
  obtain ⟨e, hfind⟩ : ∃ e, (s.rad.mon.excl.find? fun e => e.1 == sys.val && e.2.1 == prn) = some e :=
    Option.isSome_iff_exists.mp ((List.find?_isSome).trans (List.any_eq_true.symm) |>.mpr h)
  obtain ⟨c, hadv⟩ := advMono_eq s (e.2.2 + orD (get s pINT fINTM_EXCL_CFG_EXCL_SEC) 1 * 1000000000)
  exact ⟨c, by simp only [exec, execExclExpire, hfind, hadv]⟩

theorem exclExpire_shows {s : State} {sys : Fin 4} {prn : Nat} (h : isExcluded s sys prn = true) :
    Answers (exec (.exclExpire sys prn) s) fun t => isExcluded t sys prn = false ∧
      (∀ y : Fin 4, ∀ p : Fin 64, y ≠ sys ∨ p.val ≠ prn → isExcluded t y p = isExcluded s y p) := by
  obtain ⟨c, hexec⟩ := exec_exclExpire h
  rw [hexec, answers_next]
  exact ⟨isExcluded_endExclusion_same _ _ _, fun y p hne =>
    isExcluded_endExclusion_ne { s with clk := c } (hne.imp_left Fin.val_ne_of_ne)⟩

/-- EXCL_CMD keeps the signal that a command names. -/
def signalNamed (s : State) (n : Nat) : State :=
  wrN s pINT rINTM_EXCL_CMD (fINTM_EXCL_CMD_SYS.of n + fINTM_EXCL_CMD_PRN.of n * 0x100)

theorem exec_exclSet {r : Requester} {v : Word} {s : State} (hw : writable s r pINT = true)
    (hset : fINTM_EXCL_CMD_SET.of v.toNat = 1) :
    exec (.exclSet r v) s = .next (exclude (signalNamed s v.toNat) (fINTM_EXCL_CMD_SYS.of v.toNat)
      (fINTM_EXCL_CMD_PRN.of v.toNat)) := by
  simp only [exec, execExclSet, onWrite_writable hw, exclCmd, hset, if_true, signalNamed]

theorem exec_exclClr {r : Requester} {v : Word} {s : State} (hw : writable s r pINT = true)
    (hset : fINTM_EXCL_CMD_SET.of v.toNat = 0) (hclr : fINTM_EXCL_CMD_CLR.of v.toNat = 1) :
    exec (.exclClr r v) s = .next (endExclusion (signalNamed s v.toNat) (fINTM_EXCL_CMD_SYS.of v.toNat)
      (fINTM_EXCL_CMD_PRN.of v.toNat)) := by
  simp only [exec, execExclClr, onWrite_writable hw, exclCmd, hset, hclr, zero_ne_one, if_false, if_true, signalNamed]

theorem exclSet_shows {r : Requester} {v : Word} {s : State} (hw : writable s r pINT = true)
    (hset : fINTM_EXCL_CMD_SET.of v.toNat = 1) :
    Answers (exec (.exclSet r v) s) fun t =>
      isExcluded t (fINTM_EXCL_CMD_SYS.of v.toNat) (fINTM_EXCL_CMD_PRN.of v.toNat) = true ∧
      (isExcluded s (fINTM_EXCL_CMD_SYS.of v.toNat) (fINTM_EXCL_CMD_PRN.of v.toNat) = false →
        intRaw t pINT 0 = true ∧ rdN t pINT rINTM_EXCL_CNT = min (rdN s pINT rINTM_EXCL_CNT + 1) 0xFFFFFFFF) := by
  rw [exec_exclSet hw hset, answers_next]
  refine ⟨isExcluded_exclude_same _ _ _, fun hnew => ?_⟩
  have hnamed : OtherRegs s (signalNamed s v.toNat) [pINT.adr rINTM_EXCL_CMD] := otherRegs_wrN _ _ _ _
  obtain ⟨hint, hcount⟩ := exclude_new (s := signalNamed s v.toNat)
    ((isExcluded_congr (by rw [signalNamed, wrN_rad]) _ _).trans hnew)
  exact ⟨hint, by rw [hcount, hnamed.rdN (by decide) (by decide)]⟩

theorem exclClr_shows {r : Requester} {v : Word} {s : State} (hw : writable s r pINT = true)
    (hset : fINTM_EXCL_CMD_SET.of v.toNat = 0) (hclr : fINTM_EXCL_CMD_CLR.of v.toNat = 1) :
    Answers (exec (.exclClr r v) s) fun t =>
      isExcluded t (fINTM_EXCL_CMD_SYS.of v.toNat) (fINTM_EXCL_CMD_PRN.of v.toNat) = false := by
  rw [exec_exclClr hw hset hclr, answers_next]
  exact isExcluded_endExclusion_same _ _ _

/-! ### SUSPECT forced and cleared (R161, R163, R164) -/

theorem exec_forceSuspect {r : Requester} {v : Word} {s : State} (hw : writable s r pINT = true)
    (hforce : fINTM_CTRL_FORCE_SUSPECT.of v.toNat = 1) :
    exec (.forceSuspect r v) s = .next (setCause s 7 true) := by
  simp only [exec, execForceSuspect, onWrite_writable hw, intCtrl, hforce, beq_self_eq_true, Bool.true_eq_false,
    and_false, if_false, if_true]

theorem forceSuspect_shows {r : Requester} {v : Word} {s : State} (hw : writable s r pINT = true)
    (hforce : fINTM_CTRL_FORCE_SUSPECT.of v.toNat = 1) :
    Answers (exec (.forceSuspect r v) s) fun t => causeOn t 7 = true ∧ (causeOn s 7 = false → suspect t = true ∧
      doubts t pINT 0 = true ∧ intRaw t pINT 1 = true ∧ bitOf (rdN t pINT rINTM_CAUSE_SEEN) 7 = true ∧
      rdN t pINT rINTM_SUSPECT_CNT = min (rdN s pINT rINTM_SUSPECT_CNT + 1) 0xFFFFFFFF) := by
  rw [exec_forceSuspect hw hforce, answers_next]
  exact ⟨(setCause_frame s (by decide) true).1, fun hnew => setCause_rises (by decide) hnew⟩

/-- A CLEAR without FORCE_SUSPECT ends FORCED, and completes a manual clear that is due. -/
theorem exec_intClear {r : Requester} {v : Word} {s : State} (hw : writable s r pINT = true)
    (hclear : fINTM_CTRL_CLEAR.of v.toNat = 1) (hforce : fINTM_CTRL_FORCE_SUSPECT.of v.toNat = 0) :
    exec (.intClear r v) s =
      .next (if suspect s && flag s pINT fINTM_CFG_CLEAR_MANUAL && clearDue s then clearSuspect (setCause s 7 false)
        else setCause s 7 false) := by
  have hcalm : (0 == 1) = false := rfl
  simp only [exec, execIntClear, onWrite_writable hw, intCtrl, hclear, hforce, hcalm, and_self, if_true,
    Bool.false_eq_true, if_false]

theorem intClear_shows {r : Requester} {v : Word} {s : State} (hw : writable s r pINT = true)
    (hclear : fINTM_CTRL_CLEAR.of v.toNat = 1) (hforce : fINTM_CTRL_FORCE_SUSPECT.of v.toNat = 0) :
    Answers (exec (.intClear r v) s) fun t => causeOn t 7 = false ∧
      (suspect s = true → flag s pINT fINTM_CFG_CLEAR_MANUAL = true → clearDue s = true →
        suspect t = false ∧ doubts t pINT 0 = false ∧ intRaw t pINT 2 = true) := by
  have hended : causeOn (setCause s 7 false) 7 = false := (setCause_frame s (by decide) false).1
  obtain ⟨hsus, hdoubt, hint, _, hregs⟩ := clearSuspect_shows (setCause s 7 false)
  rw [exec_intClear hw hclear hforce, answers_next]
  by_cases hdone : (suspect s && flag s pINT fINTM_CFG_CLEAR_MANUAL && clearDue s) = true
  · rw [if_pos hdone]
    exact ⟨(causeOn_congr hregs (by decide) 7).trans hended, fun _ _ _ => ⟨hsus, hdoubt, hint⟩⟩
  · rw [if_neg hdone]
    exact ⟨hended, fun h hmanual hdue => absurd (by rw [h, hmanual, hdue]; rfl) hdone⟩

theorem exec_suspectCleared {s : State} {t0 : Nat} (hquiet : s.rad.mon.quietFrom = some t0) (hsus : suspect s = true)
    (hpage : pageEn s pINT = true) (hauto : flag s pINT fINTM_CFG_CLEAR_MANUAL = false) :
    ∃ u, exec .suspectCleared s = .next (clearSuspect u) :=
  ⟨showClearLeft (advMono s (t0 + clearSec s * 1000000000)), by
    simp only [exec, execSuspectCleared, hquiet, hsus, hpage, hauto, Bool.not_true, Bool.or_self, Bool.false_eq_true,
      if_false]⟩

theorem suspectCleared_shows {s : State} {t0 : Nat} (hquiet : s.rad.mon.quietFrom = some t0) (hsus : suspect s = true)
    (hpage : pageEn s pINT = true) (hauto : flag s pINT fINTM_CFG_CLEAR_MANUAL = false) :
    Answers (exec .suspectCleared s) fun t => suspect t = false ∧ doubts t pINT 0 = false ∧ intRaw t pINT 2 = true ∧
      get t pINT fINTM_STAT_CLEAR_LEFT = 0 := by
  obtain ⟨u, hexec⟩ := exec_suspectCleared hquiet hsus hpage hauto
  obtain ⟨hgone, hdoubt, hint, hleft, _⟩ := clearSuspect_shows u
  rw [hexec, answers_next]
  exact ⟨hgone, hdoubt, hint, hleft⟩

/-! ### The rows -/

/-- Settles O31: every cause goes through one operation, which shows the cause and, where it rises, SUSPECT; the checks
of a second leave the exclusions, and an exclusion is one entry of the monitor's list. -/
theorem integrityMonitor : Obligations.IntegrityMonitor :=
  ⟨fun _ hon => intViewRx_shows hon, fun _ hon => viewStale_shows hon,
    fun _ hpage hon => intSecondCheck_shows hpage hon, fun _ _ _ h => exclExpire_shows h,
    fun _ _ _ hw hset => exclSet_shows hw hset, fun _ _ _ hw hset hclr => exclClr_shows hw hset hclr,
    fun _ _ _ hw hforce => forceSuspect_shows hw hforce, fun _ _ _ hw hclear hforce => intClear_shows hw hclear hforce,
    fun _ _ hquiet hsus hpage hauto => suspectCleared_shows hquiet hsus hpage hauto⟩

end Sys2Proof.Machine
end

section
/-! Domain GF beside a capture (R120, R166): what GF's turning on or off moves, and that it leaves the capture and its
page alone. -/

namespace Sys2Proof.Machine

/-- The registers that GF moves when it turns on or off: those of the causes, which start afresh, and those of the front
end. -/
def frontRegs : List Nat :=
  pGRX.adr rGRX_STAT :: pGRX.adr rGRX_ANT_STAT :: pGRX.adr rDOUBT_RAW :: causeRegs

theorem causeRegs_subset_frontRegs : causeRegs ⊆ frontRegs := fun _ h => by simp [frontRegs, h]

/-- The capture and its window stay; of the registers only the front end's and the causes' may move. -/
structure KeepsCapture (s t : State) : Prop where
  arm : t.rad.arm = s.rad.arm
  window : t.rad.window = s.rad.window
  regs : OtherRegs s t frontRegs

namespace KeepsCapture

theorem refl (s : State) : KeepsCapture s s := ⟨rfl, rfl, .refl s _⟩

theorem trans {s t u : State} (h₁ : KeepsCapture s t) (h₂ : KeepsCapture t u) : KeepsCapture s u :=
  ⟨h₂.arm.trans h₁.arm, h₂.window.trans h₁.window, h₁.regs.trans h₂.regs⟩

/-- An operation on the registers alone. -/
theorem of_otherRegs {s t : State} {l : List Nat} (h : OtherRegs s t l) (hl : l ⊆ frontRegs) (hrad : t.rad = s.rad) :
    KeepsCapture s t := ⟨by rw [hrad], by rw [hrad], h.mono hl⟩

end KeepsCapture

theorem keepsCapture_setCause (s : State) {i : Nat} (hi : i < 32) (b : Bool) : KeepsCapture s (setCause s i b) := by
  obtain ⟨q, hrad⟩ := setCause_rad s hi b
  obtain ⟨_, hregs⟩ := setCause_frame s hi b
  exact ⟨by rw [hrad], by rw [hrad], hregs.mono causeRegs_subset_frontRegs⟩

theorem keepsCapture_doubt_grx (s : State) (bit : Nat) (b : Bool) : KeepsCapture s (doubt s pGRX bit b) :=
  .of_otherRegs (otherRegs_doubt s pGRX bit b) (by simp [frontRegs]) (doubt_rad _ _ _ _)

theorem keepsCapture_biasDown (s : State) : KeepsCapture s (biasDown s) :=
  ⟨by rw [biasDown_rad], by rw [biasDown_rad], (otherRegs_biasDown s).mono (by simp [frontRegs])⟩

theorem keepsCapture_biasUp (s : State) : KeepsCapture s (biasUp s) := by
  obtain ⟨hrad, _⟩ := biasUp_shows s
  exact ⟨by rw [hrad], by rw [hrad], (otherRegs_biasUp s).mono (by simp [frontRegs])⟩

/-- ANT_OPEN falls where the bias is switched off by its mode (R125). -/
def openJudged (s : State) : State := if antMode s = 0 then doubt s pGRX 1 false else s

theorem keepsCapture_openJudged (s : State) : KeepsCapture s (openJudged s) := by
  rw [openJudged]
  split
  · exact keepsCapture_doubt_grx s 1 false
  · exact .refl s

/-- The bias goes up or down, or stays as it is. -/
theorem biasFollow_cases (s : State) :
    biasFollow s = openJudged s ∨ biasFollow s = biasUp (openJudged s) ∨ biasFollow s = biasDown (openJudged s) := by
  have heq : biasFollow s =
      if biasWanted (openJudged s) then
        (if (openJudged s).rad.biasOn || get (openJudged s) pGRX fGRX_ANT_STAT_STATE == 2 then openJudged s
        else biasUp (openJudged s))
      else if (openJudged s).rad.biasOn || get (openJudged s) pGRX fGRX_ANT_STAT_STATE == 2 then
        biasDown (openJudged s)
      else openJudged s := rfl
  rw [heq]
  split
  · split
    · exact .inl rfl
    · exact .inr (.inl rfl)
  · split
    · exact .inr (.inr rfl)
    · exact .inl rfl

theorem otherRegs_openJudged (s : State) : OtherRegs s (openJudged s) [pGRX.adr rDOUBT_RAW] := by
  rw [openJudged]
  split
  · exact otherRegs_doubt s pGRX 1 false
  · exact .refl s _

theorem otherRegs_biasFollow (s : State) :
    OtherRegs s (biasFollow s) [pGRX.adr rDOUBT_RAW, pGRX.adr rGRX_ANT_STAT] := by
  have hjudged := (otherRegs_openJudged s).mono (m := [pGRX.adr rDOUBT_RAW, pGRX.adr rGRX_ANT_STAT]) (by simp)
  rcases biasFollow_cases s with h | h | h <;> rw [h]
  · exact hjudged
  · exact hjudged.andThen (otherRegs_biasUp _) (by simp)
  · exact hjudged.andThen (otherRegs_biasDown _) (by simp)

theorem keepsCapture_biasFollow (s : State) : KeepsCapture s (biasFollow s) := by
  rcases biasFollow_cases s with h | h | h <;> rw [h]
  · exact keepsCapture_openJudged s
  · exact (keepsCapture_openJudged s).trans (keepsCapture_biasUp _)
  · exact (keepsCapture_openJudged s).trans (keepsCapture_biasDown _)

/-- GF is powered, and the gain's sums and the baselines are empty. -/
def gfAfresh (s : State) : State :=
  updRad (setDom s domGF true) fun r =>
    { r with gfFrom := mono s, gainSum := 0, gainN := 0, rail := none
             mon := { r.mon with agc := [], noise := [], agcBase := none, noiseBase := none } }

/-- GF_ON and WARMUP show. -/
def gfOnShown (s : State) : State := putB (putB s pGRX fGRX_STAT_GF_ON true) pGRX fGRX_STAT_WARMUP true

theorem gfUp_eq (s : State) :
    gfUp s = biasFollow (gfOnShown (setCause (setCause (gfAfresh s) 1 false) 2 false)) := rfl

theorem otherRegs_gfOnShown (s : State) : OtherRegs s (gfOnShown s) [pGRX.adr rGRX_STAT] :=
  (otherRegs_putB s pGRX fGRX_STAT_GF_ON true).trans (otherRegs_putB _ pGRX fGRX_STAT_WARMUP true)

theorem keepsCapture_gfUp (s : State) : KeepsCapture s (gfUp s) := by
  have hafresh : KeepsCapture s (gfAfresh s) := ⟨rfl, rfl, .of_regs rfl _⟩
  have hcauses := (keepsCapture_setCause (gfAfresh s) (i := 1) (by decide) false).trans
    (keepsCapture_setCause _ (i := 2) (by decide) false)
  have hshown := KeepsCapture.of_otherRegs
    (otherRegs_gfOnShown (setCause (setCause (gfAfresh s) 1 false) 2 false)) (by simp [frontRegs])
    ((putB_rad _ _ _ _).trans (putB_rad _ _ _ _))
  exact ((hafresh.trans hcauses).trans hshown).trans (keepsCapture_biasFollow _)

theorem keepsCapture_gfDown (s : State) : KeepsCapture s (gfDown s) := by
  have hoff : KeepsCapture s (put (setDom s domGF false) pGRX ⟨rGRX_STAT, 0, 3⟩ 0) :=
    KeepsCapture.trans (t := setDom s domGF false) ⟨rfl, rfl, .of_regs rfl _⟩
      (.of_otherRegs (otherRegs_put _ pGRX ⟨rGRX_STAT, 0, 3⟩ 0) (by simp [frontRegs]) (put_rad _ _ _ _))
  exact ((hoff.trans (keepsCapture_doubt_grx _ 2 false)).trans (keepsCapture_doubt_grx _ 3 false)).trans
    (keepsCapture_biasFollow _)

theorem keepsCapture_gfFollow (s : State) : KeepsCapture s (gfFollow s) := by
  rw [gfFollow]
  split
  · exact keepsCapture_gfUp s
  · split
    · exact keepsCapture_gfDown s
    · exact .refl s

/-- The parts of the state that the baselines and the bias move. -/
def baselineParts (x : Part) : Prop := x = .dsc ∨ x = .rad

/-- R120: GF is on, and warms up. -/
theorem gfUp_shows (s : State) :
    gfOn (gfUp s) = true ∧ flag (gfUp s) pGRX fGRX_STAT_WARMUP = true ∧ domOn (gfUp s) domGF = true := by
  have hbias := otherRegs_biasFollow (gfOnShown (setCause (setCause (gfAfresh s) 1 false) 2 false))
  have hparts : Leaves baselineParts (gfAfresh s) (gfUp s) := by
    have hclosed := leaves_closed baselineParts (gfAfresh s)
    rw [gfUp_eq, gfOnShown]
    exact kept_biasFollow hclosed (.inr rfl) _ (kept_putB hclosed _ _ _ _ (kept_putB hclosed _ _ _ _
      (kept_setCause hclosed (.inl rfl) (.inr rfl) _ 2 false
        (kept_setCause hclosed (.inl rfl) (.inr rfl) _ 1 false (leaves_refl _ _)))))
  have hpwr : (gfUp s).pwr = (gfAfresh s).pwr := (hparts .pwr).resolve_left (by simp [baselineParts])
  refine ⟨?_, ?_, ?_⟩
  · rw [gfOn, gfUp_eq, hbias.flag (by decide) (by decide), gfOnShown,
      flag_putB_apart _ _ fGRX_STAT_WARMUP fGRX_STAT_GF_ON _ rfl (by decide) (.inl (by decide)),
      flag_putB_same _ _ _ _ (by decide) rfl]
  · rw [gfUp_eq, hbias.flag (by decide) (by decide), gfOnShown, flag_putB_same _ _ _ _ (by decide) rfl]
  · rw [domOn, hpwr]
    exact (bitOf_setBit s.pwr.on domGF domGF true).trans (if_pos rfl)

end Sys2Proof.Machine
end

section
/-! Snapshot captures (R165–R168, R120): arming, holds, the window, the first sample, and the end of a capture. -/

namespace Sys2Proof.Machine

/-! ### The registers of the SNP page -/

theorem intRaw_raise_snp (s : State) {bit : Nat} (hb : bit < 32) : intRaw (raise s pSNP bit) pSNP bit = true :=
  intRaw_raise_same (.inr rfl) s hb

/-- The state of a slot lies beside the Recorder's page. -/
theorem slotStat_ne_rec {k : Nat} (hk : k < 2) : pSNP.adr (rSNP_SLOT_STAT k) % 0x10000000 / 0x1000 ≠ 0x30 := by
  simp only [Pg.adr, rSNP_SLOT_STAT]
  omega

theorem slotStat_ne {k o : Nat} (ho : o < 0x80) : pSNP.adr (rSNP_SLOT_STAT k) ≠ pSNP.adr o := by
  simp only [Pg.adr, rSNP_SLOT_STAT]
  omega

theorem slotStat_notMem {k o : Nat} (ho : o < 0x80) : pSNP.adr (rSNP_SLOT_STAT k) ∉ [pSNP.adr o] := by
  simpa using slotStat_ne ho

theorem notMem_slotStat {k o : Nat} (ho : o < 0x80) : pSNP.adr o ∉ [pSNP.adr (rSNP_SLOT_STAT k)] := by
  simpa using (slotStat_ne ho).symm

theorem slotStat_notMem_other {j k : Nat} (h : j ≠ k) :
    pSNP.adr (rSNP_SLOT_STAT j) ∉ [pSNP.adr (rSNP_SLOT_STAT k)] := by
  simp only [Pg.adr, rSNP_SLOT_STAT, List.mem_singleton]
  omega

/-- No register of the SNP page moves with GF. -/
theorem snp_notMem_front {o : Nat} (ho : o < 0x1000) : pSNP.adr o ∉ frontRegs := by
  simp only [frontRegs, causeRegs, indRegs, Pg.adr, rGRX_STAT, rGRX_ANT_STAT, rDOUBT_RAW, rINT_RAW, rINTM_STAT,
    rINTM_CAUSE, rINTM_CAUSE_SEEN, rINTM_SUSPECT_CNT, List.mem_cons, List.not_mem_nil, or_false, not_or]
  omega

/-- The clock alone moves to an instant. -/
theorem advPc_clk (s : State) (t : PC64) : ∃ c, advPc s t = { s with clk := c } := by
  obtain ⟨p, h⟩ := advPc_eq s t
  exact ⟨_, h⟩

/-! ### Arming (R165) -/

theorem armRefusal_lt (s : State) (slot len : Nat) (target : PC64) (auto : Bool) :
    armRefusal s slot len target auto < 8 := by
  rw [armRefusal]
  repeat' apply ite_lt_of_lt
  all_goals decide

/-- A capture is armed: its slot, STAT and INT_RAW[2] show it. -/
def captureArmed (s : State) (a : SnapArm) : State :=
  raise (put (putB (updRad s fun r => { r with arm := some a }) pSNP fSNP_STAT_ARMED true) pSNP
    (fSNP_SLOT_STAT_STATE a.slot) 1) pSNP 2

theorem armCapture_armed {s : State} {slot len : Nat} {target : PC64} {auto : Bool}
    (h : armRefusal s slot len target auto = 0) :
    armCapture s slot len target auto =
      captureArmed s ⟨slot, len, target, auto, get s pSNP (fSNP_SLOT_STAT_STATE slot), none⟩ := by
  rw [armCapture, h, if_neg (by decide)]
  rfl

theorem armCapture_refused {s : State} {slot len : Nat} {target : PC64}
    (h : armRefusal s slot len target false ≠ 0) :
    armCapture s slot len target false =
      raise (put s pSNP fSNP_STAT_REASON (armRefusal s slot len target false)) pSNP 3 := by
  simp only [armCapture, if_pos h, Bool.false_eq_true, if_false]

theorem captureArmed_shows (s : State) {a : SnapArm} (ha : a.slot < 2) :
    (captureArmed s a).rad.arm = some a ∧ flag (captureArmed s a) pSNP fSNP_STAT_ARMED = true ∧
      get (captureArmed s a) pSNP (fSNP_SLOT_STAT_STATE a.slot) = 1 ∧ intRaw (captureArmed s a) pSNP 2 = true := by
  generalize hs1 : putB (updRad s fun r => { r with arm := some a }) pSNP fSNP_STAT_ARMED true = s1
  have hshown : captureArmed s a = raise (put s1 pSNP (fSNP_SLOT_STAT_STATE a.slot) 1) pSNP 2 := by rw [← hs1]; rfl
  have hslot := otherRegs_put s1 pSNP (fSNP_SLOT_STAT_STATE a.slot) 1
  have hraise := otherRegs_raise (put s1 pSNP (fSNP_SLOT_STAT_STATE a.slot) 1) pSNP 2
  rw [hshown]
  refine ⟨by rw [raise_rad, put_rad, ← hs1, putB_rad, updRad], ?_, ?_, intRaw_raise_snp _ (by decide)⟩
  · rw [hraise.flag (by decide) (by decide), hslot.flag (notMem_slotStat (by decide)) (by decide), ← hs1,
      flag_putB_same _ _ _ _ (by decide) rfl]
  · rw [hraise.get (slotStat_notMem (by decide)) (slotStat_ne_rec ha),
      get_put_lt s1 pSNP (fSNP_SLOT_STAT_STATE a.slot) (by simp) (by simp)]

/-! ### Holds (R167) -/

/-- The hold of a slot after a write of SNP.CTRL: HOLD sets it, and RELEASE ends it. -/
def holdMarked (s : State) (n k : Nat) : State :=
  let s1 := if bitOf (fSNP_CTRL_HOLD.of n) k then putB s pSNP (fSNP_SLOT_STAT_HOLD k) true else s
  if bitOf (fSNP_CTRL_RELEASE.of n) k then putB s1 pSNP (fSNP_SLOT_STAT_HOLD k) false else s1

/-- The holds of both slots. -/
def holdsMarked (s : State) (n : Nat) : State := holdMarked (holdMarked s n 0) n 1

theorem otherRegs_holdMarked (s : State) (n k : Nat) :
    OtherRegs s (holdMarked s n k) [pSNP.adr (rSNP_SLOT_STAT k)] := by
  have hput := fun u b => otherRegs_putB u pSNP (fSNP_SLOT_STAT_HOLD k) b
  rw [holdMarked]
  split <;> split
  · exact (hput s true).trans (hput _ false)
  · exact hput s false
  · exact hput s true
  · exact .refl s _

theorem holdMarked_rad (s : State) (n k : Nat) : (holdMarked s n k).rad = s.rad := by
  rw [holdMarked]
  split <;> split <;> simp only [putB_rad]

theorem flag_holdMarked_same (s : State) (n k : Nat) :
    flag (holdMarked s n k) pSNP (fSNP_SLOT_STAT_HOLD k) =
      (!bitOf (fSNP_CTRL_RELEASE.of n) k &&
        (bitOf (fSNP_CTRL_HOLD.of n) k || flag s pSNP (fSNP_SLOT_STAT_HOLD k))) := by
  have hput := fun u b => flag_putB_same u pSNP (fSNP_SLOT_STAT_HOLD k) b (show 3 + 1 ≤ 32 by decide) rfl
  cases hrel : bitOf (fSNP_CTRL_RELEASE.of n) k with
  | true => simp only [holdMarked, hrel, if_true, hput, Bool.not_true, Bool.false_and]
  | false =>
    cases hhold : bitOf (fSNP_CTRL_HOLD.of n) k with
    | true => simp only [holdMarked, hrel, hhold, Bool.false_eq_true, if_false, if_true, hput, Bool.not_false,
        Bool.true_or, Bool.and_self]
    | false => simp only [holdMarked, hrel, hhold, Bool.false_eq_true, if_false, Bool.not_false, Bool.false_or,
        Bool.true_and]

theorem flag_holdMarked_ne (s : State) (n : Nat) {j k : Nat} (hj : j < 2) (hne : j ≠ k) :
    flag (holdMarked s n k) pSNP (fSNP_SLOT_STAT_HOLD j) = flag s pSNP (fSNP_SLOT_STAT_HOLD j) :=
  (otherRegs_holdMarked s n k).flag (slotStat_notMem_other hne) (slotStat_ne_rec hj)

theorem holdsMarked_rad (s : State) (n : Nat) : (holdsMarked s n).rad = s.rad := by
  rw [holdsMarked, holdMarked_rad, holdMarked_rad]

theorem flag_holdsMarked (s : State) (n : Nat) (k : Fin 2) :
    flag (holdsMarked s n) pSNP (fSNP_SLOT_STAT_HOLD k) =
      (!bitOf (fSNP_CTRL_RELEASE.of n) k &&
        (bitOf (fSNP_CTRL_HOLD.of n) k || flag s pSNP (fSNP_SLOT_STAT_HOLD k))) := by
  obtain rfl | rfl : k = 0 ∨ k = 1 := by omega
  · exact (flag_holdMarked_ne (holdMarked s n 0) n (j := 0) (k := 1) (by decide) (by decide)).trans
      (flag_holdMarked_same s n 0)
  · have hother := flag_holdMarked_ne s n (j := 1) (k := 0) (by decide) (by decide)
    exact (flag_holdMarked_same (holdMarked s n 0) n 1).trans (by rw [hother]; rfl)

theorem bitOf_zero (k : Nat) : bitOf 0 k = false := Nat.zero_testBit k

/-! ### The write of SNP.CTRL (R165, R167) -/

/-- A capture that is cancelled: one that runs ends bad, and one that waits is disarmed. -/
def captureCancelled (s : State) (a : SnapArm) (taken : List Byte) : State :=
  if a.first.isSome then endCapture s a taken true else disarm s a

theorem snpCtrl_holds {n : Nat} (hcancel : fSNP_CTRL_CANCEL.of n = 0) (harm : fSNP_CTRL_ARM.of n = 0) (s : State)
    (taken : List Byte) : snpCtrl s n taken = holdsMarked s n := by
  simp only [snpCtrl, hcancel, harm, zero_ne_one, if_false]
  rfl

theorem snpCtrl_cancels {n : Nat} (hcancel : fSNP_CTRL_CANCEL.of n = 1) (harm : fSNP_CTRL_ARM.of n = 0) {s : State}
    {a : SnapArm} (ha : s.rad.arm = some a) (taken : List Byte) :
    snpCtrl s n taken = captureCancelled (holdsMarked s n) a taken := by
  have hkept : (holdsMarked s n).rad.arm = some a := by rw [holdsMarked_rad, ha]
  simp only [holdsMarked, holdMarked] at hkept
  simp only [snpCtrl, hcancel, harm, zero_ne_one, if_false, if_true, hkept, captureCancelled, holdsMarked, holdMarked]

theorem snpCtrl_arms {n : Nat} (harm : fSNP_CTRL_ARM.of n = 1) (hcancel : fSNP_CTRL_CANCEL.of n = 0)
    (hhold : fSNP_CTRL_HOLD.of n = 0) (hrel : fSNP_CTRL_RELEASE.of n = 0) (s : State) (taken : List Byte) :
    snpCtrl s n taken = armCapture s (get s pSNP fSNP_ARM_CFG_SLOT) (get s pSNP fSNP_ARM_CFG_LEN_MS)
      (BitVec.ofNat 64 (rd64 s pSNP rSNP_AT_LO rSNP_AT_HI)) false := by
  simp only [snpCtrl, harm, hcancel, hhold, hrel, bitOf_zero, Bool.false_eq_true, zero_ne_one, if_false, if_true]

theorem exec_snpArm {r : Requester} {v : Word} {s : State} (hw : writable s r pSNP = true)
    (harm : fSNP_CTRL_ARM.of v.toNat = 1) (hcancel : fSNP_CTRL_CANCEL.of v.toNat = 0)
    (hhold : fSNP_CTRL_HOLD.of v.toNat = 0) (hrel : fSNP_CTRL_RELEASE.of v.toNat = 0) :
    exec (.snpArm r v) s =
      .next (armCapture s (get s pSNP fSNP_ARM_CFG_SLOT) (get s pSNP fSNP_ARM_CFG_LEN_MS)
        (BitVec.ofNat 64 (rd64 s pSNP rSNP_AT_LO rSNP_AT_HI)) false) := by
  simp only [exec, execSnpArm, onWrite_writable hw, snpCtrl_arms harm hcancel hhold hrel]

theorem snpArm_shows {r : Requester} {v : Word} {s : State} (hw : writable s r pSNP = true)
    (harm : fSNP_CTRL_ARM.of v.toNat = 1) (hcancel : fSNP_CTRL_CANCEL.of v.toNat = 0)
    (hhold : fSNP_CTRL_HOLD.of v.toNat = 0) (hrel : fSNP_CTRL_RELEASE.of v.toNat = 0) :
    let slot := get s pSNP fSNP_ARM_CFG_SLOT
    let len := get s pSNP fSNP_ARM_CFG_LEN_MS
    let target : PC64 := BitVec.ofNat 64 (rd64 s pSNP rSNP_AT_LO rSNP_AT_HI)
    Answers (exec (.snpArm r v) s) fun t =>
      (armRefusal s slot len target false = 0 →
        t.rad.arm = some ⟨slot, len, target, false, get s pSNP (fSNP_SLOT_STAT_STATE slot), none⟩ ∧
        flag t pSNP fSNP_STAT_ARMED = true ∧ get t pSNP (fSNP_SLOT_STAT_STATE slot) = 1 ∧ intRaw t pSNP 2 = true) ∧
      (armRefusal s slot len target false ≠ 0 → t.rad = s.rad ∧ intRaw t pSNP 3 = true ∧
        get t pSNP fSNP_STAT_REASON = armRefusal s slot len target false) := by
  intro slot len target
  have hslot : slot < 2 := Fld.of_lt fSNP_ARM_CFG_SLOT _
  rw [exec_snpArm hw harm hcancel hhold hrel, answers_next]
  refine ⟨fun hnone => ?_, fun hwhy => ?_⟩
  · rw [armCapture_armed hnone]
    exact captureArmed_shows s hslot
  · rw [armCapture_refused hwhy]
    have hraise := otherRegs_raise (put s pSNP fSNP_STAT_REASON (armRefusal s slot len target false)) pSNP 3
    refine ⟨by rw [raise_rad, put_rad], intRaw_raise_snp _ (by decide), ?_⟩
    rw [hraise.get (by decide) (by decide), get_put_lt _ _ _ (by decide) (armRefusal_lt _ _ _ _ _)]

theorem snpHold_shows {r : Requester} {v : Word} {s : State} (hw : writable s r pSNP = true)
    (hcancel : fSNP_CTRL_CANCEL.of v.toNat = 0) (harm : fSNP_CTRL_ARM.of v.toNat = 0)
    (hrel : fSNP_CTRL_RELEASE.of v.toNat = 0) :
    Answers (exec (.snpHold r v) s) fun t => t.rad = s.rad ∧ ∀ k : Fin 2,
      flag t pSNP (fSNP_SLOT_STAT_HOLD k) =
        (flag s pSNP (fSNP_SLOT_STAT_HOLD k) || bitOf (fSNP_CTRL_HOLD.of v.toNat) k) := by
  have hexec : exec (.snpHold r v) s = .next (holdsMarked s v.toNat) := by
    simp only [exec, execSnpHold, onWrite_writable hw, snpCtrl_holds hcancel harm]
  rw [hexec, answers_next]
  refine ⟨holdsMarked_rad _ _, fun k => ?_⟩
  rw [flag_holdsMarked, hrel, bitOf_zero, Bool.not_false, Bool.true_and, Bool.or_comm]

theorem snpRelease_shows {r : Requester} {v : Word} {s : State} (hw : writable s r pSNP = true)
    (hcancel : fSNP_CTRL_CANCEL.of v.toNat = 0) (harm : fSNP_CTRL_ARM.of v.toNat = 0)
    (hhold : fSNP_CTRL_HOLD.of v.toNat = 0) :
    Answers (exec (.snpRelease r v) s) fun t => t.rad = s.rad ∧ ∀ k : Fin 2,
      flag t pSNP (fSNP_SLOT_STAT_HOLD k) =
        (flag s pSNP (fSNP_SLOT_STAT_HOLD k) && !bitOf (fSNP_CTRL_RELEASE.of v.toNat) k) := by
  have hexec : exec (.snpRelease r v) s = .next (holdsMarked s v.toNat) := by
    simp only [exec, execSnpRelease, onWrite_writable hw, snpCtrl_holds hcancel harm]
  rw [hexec, answers_next]
  refine ⟨holdsMarked_rad _ _, fun k => ?_⟩
  rw [flag_holdsMarked, hhold, bitOf_zero, Bool.false_or, Bool.and_comm]

/-! ### The end of a capture (R166, R167) -/

/-- STAT shows that no capture is armed or running, and the window is closed. -/
def armCleared (s : State) : State :=
  putB (putB (updRad s fun r => { r with arm := none, window := false, agcHeld := false }) pSNP fSNP_STAT_ARMED false)
    pSNP fSNP_STAT_CAPTURING false

theorem clearArm_eq (s : State) : clearArm s = gfFollow (armCleared s) := rfl

theorem clearArm_shows (s : State) :
    (clearArm s).rad.arm = none ∧ flag (clearArm s) pSNP fSNP_STAT_ARMED = false ∧
      flag (clearArm s) pSNP fSNP_STAT_CAPTURING = false ∧
      OtherRegs s (clearArm s) (pSNP.adr rSNP_STAT :: frontRegs) := by
  have hgf := keepsCapture_gfFollow (armCleared s)
  have hcleared : OtherRegs s (armCleared s) [pSNP.adr rSNP_STAT] :=
    (otherRegs_updRad s _ _).trans ((otherRegs_putB _ pSNP fSNP_STAT_ARMED false).trans
      (otherRegs_putB _ pSNP fSNP_STAT_CAPTURING false))
  rw [clearArm_eq]
  refine ⟨?_, ?_, ?_, (hcleared.mono (by simp)).andThen hgf.regs (by simp)⟩
  · rw [hgf.arm, armCleared, putB_rad, putB_rad, updRad]
  · rw [hgf.regs.flag (snp_notMem_front (by decide)) (by decide), armCleared,
      flag_putB_apart _ _ fSNP_STAT_CAPTURING fSNP_STAT_ARMED _ rfl (by decide) (.inl (by decide)),
      flag_putB_same _ _ _ _ (by decide) rfl]
  · rw [hgf.regs.flag (snp_notMem_front (by decide)) (by decide), armCleared,
      flag_putB_same _ _ _ _ (by decide) rfl]

/-- The slot's own register lies beside those that the end of a capture clears. -/
theorem slotStat_notMem_cleared {k : Nat} (hk : k < 2) :
    pSNP.adr (rSNP_SLOT_STAT k) ∉ pSNP.adr rSNP_STAT :: frontRegs := by
  rw [List.mem_cons, not_or]
  exact ⟨slotStat_ne (by decide), snp_notMem_front (by simp only [rSNP_SLOT_STAT]; omega)⟩

/-- LEN_MS, STATE and BAD of a slot. -/
def slotShown (s : State) (k ms st : Nat) (bad : Bool) : State :=
  putB (put (put s pSNP (fSNP_SLOT_STAT_LEN_MS k) ms) pSNP (fSNP_SLOT_STAT_STATE k) st) pSNP (fSNP_SLOT_STAT_BAD k) bad

theorem slotShown_shows (s : State) (k ms : Nat) {st : Nat} (hst : st < 4) (bad : Bool) :
    get (slotShown s k ms st bad) pSNP (fSNP_SLOT_STAT_STATE k) = st ∧
      flag (slotShown s k ms st bad) pSNP (fSNP_SLOT_STAT_BAD k) = bad ∧
      get (slotShown s k ms st bad) pSNP (fSNP_SLOT_STAT_LEN_MS k) = ms % 128 ∧
      OtherRegs s (slotShown s k ms st bad) [pSNP.adr (rSNP_SLOT_STAT k)] := by
  refine ⟨?_, flag_putB_same _ _ (fSNP_SLOT_STAT_BAD k) _ (by simp) rfl, ?_, ?_⟩
  · rw [slotShown, putB, get_put_apart _ _ (fSNP_SLOT_STAT_BAD k) (fSNP_SLOT_STAT_STATE k) _ rfl (by simp)
      (.inl (by simp)), get_put_lt _ _ (fSNP_SLOT_STAT_STATE k) (by simp) hst]
  · rw [slotShown, putB, get_put_apart _ _ (fSNP_SLOT_STAT_BAD k) (fSNP_SLOT_STAT_LEN_MS k) _ rfl (by simp)
      (.inr (by simp)), get_put_apart _ _ (fSNP_SLOT_STAT_STATE k) (fSNP_SLOT_STAT_LEN_MS k) _ rfl (by simp)
      (.inr (by simp)), get_put_same _ _ (fSNP_SLOT_STAT_LEN_MS k) _ (by simp)]
    rfl
  · exact ((otherRegs_put s pSNP (fSNP_SLOT_STAT_LEN_MS k) ms).trans
      (otherRegs_put _ pSNP (fSNP_SLOT_STAT_STATE k) st)).trans (otherRegs_putB _ pSNP (fSNP_SLOT_STAT_BAD k) bad)

/-- NEXT_SLOT after a periodic capture. -/
def nextSlotShown (s : State) (a : SnapArm) : State :=
  if a.auto then put s pSNP fSNP_STAT_NEXT_SLOT (1 - a.slot) else s

theorem otherRegs_nextSlotShown (s : State) (a : SnapArm) : OtherRegs s (nextSlotShown s a) [pSNP.adr rSNP_STAT] := by
  rw [nextSlotShown]
  split
  · exact otherRegs_put s pSNP fSNP_STAT_NEXT_SLOT _
  · exact .refl s _

/-- A capture is counted, with INT_RAW[0], and with INT_RAW[1] where it is bad. -/
def captureCounted (s : State) (bad : Bool) : State :=
  raiseIf (raise (bump s pSNP rSNP_CAP_CNT) pSNP 0) bad pSNP 1

theorem captureCounted_shows (s : State) (bad : Bool) :
    intRaw (captureCounted s bad) pSNP 0 = true ∧ intRaw (captureCounted s bad) pSNP 1 = (bad || intRaw s pSNP 1) ∧
      rdN (captureCounted s bad) pSNP rSNP_CAP_CNT = min (rdN s pSNP rSNP_CAP_CNT + 1) 0xFFFFFFFF ∧
      OtherRegs s (captureCounted s bad) [pSNP.adr rSNP_CAP_CNT, pSNP.adr rINT_RAW] ∧
      (captureCounted s bad).rad = s.rad := by
  have hcount := otherRegs_bump s pSNP rSNP_CAP_CNT
  have hends := (otherRegs_raise (bump s pSNP rSNP_CAP_CNT) pSNP 0).trans (otherRegs_raiseIf _ bad pSNP 1)
  refine ⟨?_, ?_, ?_, (hcount.mono (by simp)).andThen hends (by simp), ?_⟩
  · rw [captureCounted, intRaw_raiseIf_ne rfl _ _ (by decide) (by decide), intRaw_raise_snp _ (by decide)]
  · cases bad with
    | true => exact intRaw_raise_snp _ (by decide)
    | false => exact (intRaw_raise_ne rfl _ (by decide) (by decide)).trans (hcount.intRaw 1 (by decide) (by decide))
  · exact (hends.rdN (by decide) (by decide)).trans (rdN_bump_same _ _ _)
  · rw [captureCounted, raiseIf_rad, raise_rad, bump_rad]

/-- The milliseconds that a capture's slot holds: what was asked for, or what a bad one has taken (R167). -/
def capturedMs (a : SnapArm) (samples : List Byte) (bad : Bool) : Nat :=
  if bad then (samples.take (a.len * samplesPerMs)).length / samplesPerMs else a.len

/-- The slot with the samples of a capture. -/
def slotStored (s : State) (a : SnapArm) (samples : List Byte) (bad : Bool) : State :=
  nextSlotShown (slotShown (storeSamples s a.slot (samples.take (a.len * samplesPerMs))) a.slot
    (capturedMs a samples bad) 3 bad) a

theorem endCapture_eq (s : State) (a : SnapArm) (samples : List Byte) (bad : Bool) :
    endCapture s a samples bad = captureCounted (clearArm (slotStored s a samples bad)) bad := rfl

theorem slotStored_shows (s : State) {a : SnapArm} (ha : a.slot < 2) (samples : List Byte) (bad : Bool) :
    get (slotStored s a samples bad) pSNP (fSNP_SLOT_STAT_STATE a.slot) = 3 ∧
      flag (slotStored s a samples bad) pSNP (fSNP_SLOT_STAT_BAD a.slot) = bad ∧
      get (slotStored s a samples bad) pSNP (fSNP_SLOT_STAT_LEN_MS a.slot) = capturedMs a samples bad % 128 ∧
      OtherRegs s (slotStored s a samples bad) [pSNP.adr (rSNP_SLOT_STAT a.slot), pSNP.adr rSNP_STAT] := by
  have hstore : OtherRegs s (storeSamples s a.slot (samples.take (a.len * samplesPerMs))) [] := otherRegs_updRad s _ _
  obtain ⟨hstate, hbad, hlen, hshown⟩ := slotShown_shows
    (storeSamples s a.slot (samples.take (a.len * samplesPerMs))) a.slot (capturedMs a samples bad) (st := 3)
    (by decide) bad
  have hnext := otherRegs_nextSlotShown (slotShown (storeSamples s a.slot (samples.take (a.len * samplesPerMs)))
    a.slot (capturedMs a samples bad) 3 bad) a
  have hmem : pSNP.adr (rSNP_SLOT_STAT a.slot) ∉ [pSNP.adr rSNP_STAT] := slotStat_notMem (by decide)
  exact ⟨(hnext.get hmem (slotStat_ne_rec ha)).trans hstate, (hnext.flag hmem (slotStat_ne_rec ha)).trans hbad,
    (hnext.get hmem (slotStat_ne_rec ha)).trans hlen,
    ((hstore.mono (by simp)).andThen hshown (by simp)).andThen hnext (by simp)⟩

/-- What a capture that ends leaves: no capture, its slot FULL and counted, with INT_RAW[0], and with INT_RAW[1] where
it is bad. -/
structure CaptureEnded (s : State) (a : SnapArm) (ms : Nat) (bad : Bool) (t : State) : Prop where
  arm : t.rad.arm = none
  armed : flag t pSNP fSNP_STAT_ARMED = false
  capturing : flag t pSNP fSNP_STAT_CAPTURING = false
  full : get t pSNP (fSNP_SLOT_STAT_STATE a.slot) = 3
  judged : flag t pSNP (fSNP_SLOT_STAT_BAD a.slot) = bad
  len : get t pSNP (fSNP_SLOT_STAT_LEN_MS a.slot) = ms % 128
  ended : intRaw t pSNP 0 = true
  spoilt : intRaw t pSNP 1 = (bad || intRaw s pSNP 1)
  count : rdN t pSNP rSNP_CAP_CNT = min (rdN s pSNP rSNP_CAP_CNT + 1) 0xFFFFFFFF

theorem endCapture_shows (s : State) {a : SnapArm} (ha : a.slot < 2) (samples : List Byte) (bad : Bool) :
    CaptureEnded s a (capturedMs a samples bad) bad (endCapture s a samples bad) := by
  obtain ⟨hstate, hbad, hlen, hstored⟩ := slotStored_shows s ha samples bad
  obtain ⟨harm, harmed, hcapt, hclear⟩ := clearArm_shows (slotStored s a samples bad)
  obtain ⟨hended, hspoilt, hcount, hcounted, hrad⟩ := captureCounted_shows (clearArm (slotStored s a samples bad)) bad
  have hslot : pSNP.adr (rSNP_SLOT_STAT a.slot) ∉ [pSNP.adr rSNP_CAP_CNT, pSNP.adr rINT_RAW] := by
    simp only [Pg.adr, rSNP_SLOT_STAT, rSNP_CAP_CNT, rINT_RAW, List.mem_cons, List.not_mem_nil, or_false, not_or]
    omega
  have hearly : ∀ {o : Nat}, o ∈ [rINT_RAW, rSNP_CAP_CNT] →
      rdN (clearArm (slotStored s a samples bad)) pSNP o = rdN s pSNP o := fun {o} ho => by
    have hrange : o < 0x80 ∧ o ≠ rSNP_STAT := by
      rcases List.mem_pair.mp ho with rfl | rfl
      · decide
      · decide
    rw [hclear.rdN (by simpa using ⟨pSNP.adr_ne hrange.2, snp_notMem_front (by omega)⟩) (by simp only [Pg.adr]; omega),
      hstored.rdN (by simpa using ⟨(slotStat_ne hrange.1).symm, pSNP.adr_ne hrange.2⟩) (by simp only [Pg.adr]; omega)]
  rw [endCapture_eq]
  exact {
    arm := by rw [hrad, harm]
    armed := (hcounted.flag (by decide) (by decide)).trans harmed
    capturing := (hcounted.flag (by decide) (by decide)).trans hcapt
    full := (hcounted.get hslot (slotStat_ne_rec ha)).trans
      ((hclear.get (slotStat_notMem_cleared ha) (slotStat_ne_rec ha)).trans hstate)
    judged := (hcounted.flag hslot (slotStat_ne_rec ha)).trans
      ((hclear.flag (slotStat_notMem_cleared ha) (slotStat_ne_rec ha)).trans hbad)
    len := (hcounted.get hslot (slotStat_ne_rec ha)).trans
      ((hclear.get (slotStat_notMem_cleared ha) (slotStat_ne_rec ha)).trans hlen)
    ended := hended
    spoilt := by rw [hspoilt, intRaw, hearly (by simp), intRaw]
    count := by rw [hcount, hearly (by simp)] }

theorem disarm_shows (s : State) {a : SnapArm} (ha : a.slot < 2) :
    (disarm s a).rad.arm = none ∧ flag (disarm s a) pSNP fSNP_STAT_ARMED = false ∧
      flag (disarm s a) pSNP fSNP_STAT_CAPTURING = false ∧
      get (disarm s a) pSNP (fSNP_SLOT_STAT_STATE a.slot) = a.was % 4 := by
  obtain ⟨harm, harmed, hcapt, hclear⟩ := clearArm_shows (put s pSNP (fSNP_SLOT_STAT_STATE a.slot) a.was)
  refine ⟨harm, harmed, hcapt, ?_⟩
  rw [disarm, hclear.get (slotStat_notMem_cleared ha) (slotStat_ne_rec ha),
    get_put_same _ _ (fSNP_SLOT_STAT_STATE a.slot) _ (by simp)]
  rfl

theorem exec_snpCancel {r : Requester} {v : Word} {s : State} {a : SnapArm} (hw : writable s r pSNP = true)
    (hcancel : fSNP_CTRL_CANCEL.of v.toNat = 1) (harm : fSNP_CTRL_ARM.of v.toNat = 0) (ha : s.rad.arm = some a)
    (taken : List Byte) :
    exec (.snpCancel r v taken) s = .next (captureCancelled (holdsMarked s v.toNat) a taken) := by
  simp only [exec, execSnpCancel, onWrite_writable hw, snpCtrl_cancels hcancel harm ha]

theorem snpCancel_shows {r : Requester} {v : Word} {s : State} {a : SnapArm} (hw : writable s r pSNP = true)
    (hcancel : fSNP_CTRL_CANCEL.of v.toNat = 1) (harm : fSNP_CTRL_ARM.of v.toNat = 0) (ha : s.rad.arm = some a)
    (hslot : a.slot < 2) (taken : List Byte) :
    Answers (exec (.snpCancel r v taken) s) fun t => t.rad.arm = none ∧ flag t pSNP fSNP_STAT_ARMED = false ∧
      flag t pSNP fSNP_STAT_CAPTURING = false ∧
      (a.first = none → a.was < 4 → get t pSNP (fSNP_SLOT_STAT_STATE a.slot) = a.was) ∧
      (a.first ≠ none → get t pSNP (fSNP_SLOT_STAT_STATE a.slot) = 3 ∧
        flag t pSNP (fSNP_SLOT_STAT_BAD a.slot) = true ∧ intRaw t pSNP 1 = true) := by
  rw [exec_snpCancel hw hcancel harm ha, answers_next]
  cases hfirst : a.first with
  | none =>
    obtain ⟨hnone, harmed, hcapt, hstate⟩ := disarm_shows (holdsMarked s v.toNat) hslot
    rw [captureCancelled, hfirst, Option.isSome_none, if_neg Bool.false_ne_true]
    exact ⟨hnone, harmed, hcapt, fun _ hwas => hstate.trans (Nat.mod_eq_of_lt hwas), fun h => absurd rfl h⟩
  | some pc =>
    have hended := endCapture_shows (holdsMarked s v.toNat) hslot taken true
    rw [captureCancelled, hfirst, Option.isSome_some, if_pos rfl]
    exact ⟨hended.arm, hended.armed, hended.capturing, (fun h => nomatch h),
      fun _ => ⟨hended.full, hended.judged, hended.spoilt⟩⟩

theorem exec_snpCaptureEnd {s : State} {a : SnapArm} {pc : PC64} (ha : s.rad.arm = some a) (hfirst : a.first = some pc)
    (samples : List Byte) :
    ∃ c, exec (.snpCaptureEnd samples) s = .next (endCapture { s with clk := c } a samples false) := by
  obtain ⟨c, hadv⟩ := advPc_clk s (pc + BitVec.ofNat 64 (a.len * 65536000000))
  exact ⟨c, by simp only [exec, execSnpCaptureEnd, ha, hfirst, hadv]⟩

theorem snpCaptureEnd_shows {s : State} {a : SnapArm} {pc : PC64} (ha : s.rad.arm = some a)
    (hfirst : a.first = some pc) (hslot : a.slot < 2) (hlen : a.len ≤ 64) (samples : List Byte) :
    Answers (exec (.snpCaptureEnd samples) s) fun t => t.rad.arm = none ∧ flag t pSNP fSNP_STAT_CAPTURING = false ∧
      get t pSNP (fSNP_SLOT_STAT_STATE a.slot) = 3 ∧ flag t pSNP (fSNP_SLOT_STAT_BAD a.slot) = false ∧
      get t pSNP (fSNP_SLOT_STAT_LEN_MS a.slot) = a.len ∧ intRaw t pSNP 0 = true ∧
      rdN t pSNP rSNP_CAP_CNT = min (rdN s pSNP rSNP_CAP_CNT + 1) 0xFFFFFFFF ∧
      intRaw t pSNP 1 = intRaw s pSNP 1 := by
  obtain ⟨c, hexec⟩ := exec_snpCaptureEnd ha hfirst samples
  have hended := endCapture_shows { s with clk := c } hslot samples false
  have hfits : a.len < 128 := by omega
  rw [hexec, answers_next]
  exact ⟨hended.arm, hended.capturing, hended.full, hended.judged, hended.len.trans (Nat.mod_eq_of_lt hfits),
    hended.ended, hended.count, hended.spoilt⟩

/-! ### A periodic capture (R165) -/

theorem armRefusal_periodic {s : State} {slot len : Nat} {target : PC64} (hfeat : feat s 7 = true)
    (hfree : slotBusy s 0 = false) (hpos : 0 < len) (hlen : len ≤ 64) (hnone : s.rad.arm = none)
    (hsource : flag s pOVN fOVN_STAT_BACKUP = false) : armRefusal s slot len target true = 0 := by
  have hfits : ¬(len = 0 ∨ 64 < len) := by omega
  simp only [armRefusal, hfeat, hfree, hfits, hnone, hsource, Bool.not_true, Bool.false_and, Bool.false_eq_true,
    if_false, if_true, Option.isSome_none]

theorem snpSlot_free {s : State} (h0 : slotBusy s 0 = false) (h1 : slotBusy s 1 = false) :
    snpSlot s = get s pSNP fSNP_STAT_NEXT_SLOT := by
  have hlt : get s pSNP fSNP_STAT_NEXT_SLOT < 2 := Fld.of_lt fSNP_STAT_NEXT_SLOT _
  have hfree : slotBusy s (get s pSNP fSNP_STAT_NEXT_SLOT) = false := by
    obtain h | h : get s pSNP fSNP_STAT_NEXT_SLOT = 0 ∨ get s pSNP fSNP_STAT_NEXT_SLOT = 1 := by omega
    · rw [h, h0]
    · rw [h, h1]
  simp only [snpSlot, hfree, Bool.false_eq_true, if_false]

/-- The instant of a periodic arming has come, and the second of the one that follows is kept. -/
def periodTaken (s : State) (c : Clock) (n : Nat) : State :=
  updRad { s with clk := c } fun r => { r with nextSec := n }

theorem exec_snpAutoArm {s : State} (hpage : pageEn s pSNP = true) (hauto : flag s pSNP fSNP_CFG_AUTO = true)
    (hnone : s.rad.arm = none) :
    ∃ c n target, exec .snpAutoArm s = .next (armCapture (periodTaken s c n) (snpSlot (periodTaken s c n))
      (get s pSNP fSNP_CFG_LEN_MS) target true) := by
  obtain ⟨c, hadv⟩ := advT96_eq s (snpTarget s (snpNext s) - secU)
  have hfree : snpAutoBusy s = false := by rw [snpAutoBusy, hnone]; rfl
  refine ⟨c, snpNext s + snpPeriod s, pcOfT96 (periodTaken s c (snpNext s + snpPeriod s)) (snpTarget s (snpNext s)), ?_⟩
  simp only [exec, execSnpAutoArm, hpage, hauto, hfree, Bool.not_true, Bool.or_self, Bool.false_eq_true, if_false, hadv]
  rfl

theorem snpAutoArm_shows {s : State} (hpage : pageEn s pSNP = true) (hauto : flag s pSNP fSNP_CFG_AUTO = true)
    (hnone : s.rad.arm = none) (hfeat : feat s 7 = true) (h0 : slotBusy s 0 = false) (h1 : slotBusy s 1 = false)
    (hpos : 0 < get s pSNP fSNP_CFG_LEN_MS) (hlen : get s pSNP fSNP_CFG_LEN_MS ≤ 64)
    (hsource : flag s pOVN fOVN_STAT_BACKUP = false) :
    Answers (exec .snpAutoArm s) fun t => (t.rad.arm.map fun a => (a.auto, a.len, a.slot)) =
        some (true, get s pSNP fSNP_CFG_LEN_MS, get s pSNP fSNP_STAT_NEXT_SLOT) ∧
      flag t pSNP fSNP_STAT_ARMED = true ∧ intRaw t pSNP 2 = true := by
  obtain ⟨c, n, target, hexec⟩ := exec_snpAutoArm hpage hauto hnone
  have hslot : snpSlot (periodTaken s c n) = get s pSNP fSNP_STAT_NEXT_SLOT := snpSlot_free h0 h1
  have hlt : get s pSNP fSNP_STAT_NEXT_SLOT < 2 := Fld.of_lt fSNP_STAT_NEXT_SLOT _
  rw [hexec, answers_next, hslot,
    armCapture_armed (armRefusal_periodic (s := periodTaken s c n) hfeat h0 hpos hlen hnone hsource)]
  obtain ⟨harm, harmed, _, hint⟩ := captureArmed_shows (periodTaken s c n)
    (a := ⟨get s pSNP fSNP_STAT_NEXT_SLOT, get s pSNP fSNP_CFG_LEN_MS, target, true,
      get (periodTaken s c n) pSNP (fSNP_SLOT_STAT_STATE (get s pSNP fSNP_STAT_NEXT_SLOT)), none⟩) hlt
  exact ⟨by rw [harm]; rfl, harmed, hint⟩

/-! ### The window and the first sample (R166, R168) -/

/-- The window of a capture is open. -/
def windowOpened (s : State) (c : Clock) : State := updRad { s with clk := c } fun r => { r with window := true }

theorem exec_snpWindowOpen {s : State} {a : SnapArm} (ha : s.rad.arm = some a) (hfirst : a.first = none)
    (hoff : gfOn s = false) (hdom : domOn s domGB = true) :
    ∃ c, exec .snpWindowOpen s = .next (gfUp (windowOpened s c)) := by
  obtain ⟨c, hadv⟩ := advPc_clk s (a.target - BitVec.ofNat 64 (2100000 * 65536))
  refine ⟨c, ?_⟩
  have hwanted : gfWanted (windowOpened s c) = true := by
    rw [gfWanted, show domOn (windowOpened s c) domGB = true from hdom,
      show (windowOpened s c).rad.window = true from rfl, Bool.or_true, Bool.and_self]
  have hstill : gfOn (windowOpened s c) = false := hoff
  have hfollow : gfFollow (windowOpened s c) = gfUp (windowOpened s c) := by
    rw [gfFollow, hwanted, hstill]
    rfl
  rw [← hfollow]
  simp only [exec, execSnpWindowOpen, ha, hfirst, hoff, Option.isSome_none, Bool.or_self, Bool.false_eq_true, if_false,
    hadv, windowOpened]

theorem snpWindowOpen_shows {s : State} {a : SnapArm} (ha : s.rad.arm = some a) (hfirst : a.first = none)
    (hoff : gfOn s = false) (hdom : domOn s domGB = true) :
    Answers (exec .snpWindowOpen s) fun t => t.rad.window = true ∧ gfOn t = true ∧
      flag t pGRX fGRX_STAT_WARMUP = true ∧ domOn t domGF = true ∧ t.rad.arm = some a := by
  obtain ⟨c, hexec⟩ := exec_snpWindowOpen ha hfirst hoff hdom
  have hkept := keepsCapture_gfUp (windowOpened s c)
  obtain ⟨hon, hwarm, hpowered⟩ := gfUp_shows (windowOpened s c)
  rw [hexec, answers_next]
  exact ⟨hkept.window.trans rfl, hon, hwarm, hpowered, hkept.arm.trans ha⟩

/-- The registers of a slot's header. -/
def headerRegs (k : Nat) : List Nat :=
  [pSNP.adr (rSNP_SLOT_PC_LO k), pSNP.adr (rSNP_SLOT_PC_HI k), pSNP.adr (rSNP_SLOT_SEC_LO k),
    pSNP.adr (rSNP_SLOT_SEC_HI k), pSNP.adr (rSNP_SLOT_NS k), pSNP.adr (rSNP_SLOT_FREQ k), pSNP.adr (rSNP_SLOT_RF k)]

theorem notMem_headerRegs {k o : Nat} (ho : o ≤ rSNP_SLOT_STAT k) : pSNP.adr o ∉ headerRegs k := by
  simp only [rSNP_SLOT_STAT] at ho
  simp only [headerRegs, Pg.adr, rSNP_SLOT_PC_LO, rSNP_SLOT_PC_HI, rSNP_SLOT_SEC_LO, rSNP_SLOT_SEC_HI, rSNP_SLOT_NS,
    rSNP_SLOT_FREQ, rSNP_SLOT_RF, List.mem_cons, List.not_mem_nil, or_false, not_or]
  omega

theorem otherRegs_snapHeader (s : State) (k : Nat) (pc : PC64) : OtherRegs s (snapHeader s k pc) (headerRegs k) := by
  have hword : ∀ (u : State) {o : Nat} (v : Nat), pSNP.adr o ∈ headerRegs k →
      OtherRegs u (wrN u pSNP o v) (headerRegs k) := fun u o v ho => (otherRegs_wrN u pSNP o v).mono (by simpa using ho)
  have hpc := (otherRegs_wr64 s pSNP (rSNP_SLOT_PC_LO k) (rSNP_SLOT_PC_HI k) pc.toNat).mono (m := headerRegs k)
    (by simp [headerRegs])
  exact ((((hpc.trans (hword _ _ (by simp [headerRegs]))).trans (hword _ _ (by simp [headerRegs]))).trans
    (hword _ _ (by simp [headerRegs]))).trans (hword _ _ (by simp [headerRegs]))).trans
    (hword _ _ (by simp [headerRegs]))

theorem snapHeader_rad (s : State) (k : Nat) (pc : PC64) : (snapHeader s k pc).rad = s.rad := by
  simp only [snapHeader, wrN_rad, wr64_rad]

/-- GEN of a slot counts the captures that it has lost. -/
def genShown (s : State) (a : SnapArm) : State :=
  if a.was = 3 then put s pSNP (fSNP_SLOT_STAT_GEN a.slot) (get s pSNP (fSNP_SLOT_STAT_GEN a.slot) + 1) else s

theorem genShown_rad (s : State) (a : SnapArm) : (genShown s a).rad = s.rad := by
  rw [genShown]
  split
  · exact put_rad _ _ _ _
  · rfl

/-- ARMED falls, and CAPTURING rises. -/
def capturingShown (s : State) : State := putB (putB s pSNP fSNP_STAT_ARMED false) pSNP fSNP_STAT_CAPTURING true

theorem capturingShown_shows (s : State) :
    flag (capturingShown s) pSNP fSNP_STAT_ARMED = false ∧ flag (capturingShown s) pSNP fSNP_STAT_CAPTURING = true ∧
      OtherRegs s (capturingShown s) [pSNP.adr rSNP_STAT] := by
  refine ⟨?_, flag_putB_same _ _ _ _ (by decide) rfl,
    (otherRegs_putB s pSNP fSNP_STAT_ARMED false).trans (otherRegs_putB _ pSNP fSNP_STAT_CAPTURING true)⟩
  rw [capturingShown, flag_putB_apart _ _ fSNP_STAT_CAPTURING fSNP_STAT_ARMED _ rfl (by decide) (.inl (by decide)),
    flag_putB_same _ _ _ _ (by decide) rfl]

/-- The capture runs from its first sample on, and holds the gain where AGC_HOLD says so. -/
def captureRuns (s : State) (a : SnapArm) (pc : PC64) : State :=
  updRad s fun r => { r with arm := some { a with first := some pc }, agcHeld := flag s pSNP fSNP_CFG_AGC_HOLD }

/-- A capture has begun: its slot, STAT and the header show it. -/
def captureBegun (s : State) (a : SnapArm) (pc : PC64) : State :=
  snapHeader (capturingShown (slotShown (genShown (captureRuns s a pc) a) a.slot 0 2 false)) a.slot pc

theorem captureBegun_shows (s : State) {a : SnapArm} (ha : a.slot < 2) (pc : PC64) :
    (captureBegun s a pc).rad.arm = some { a with first := some pc } ∧
      (captureBegun s a pc).rad.agcHeld = flag s pSNP fSNP_CFG_AGC_HOLD ∧
      flag (captureBegun s a pc) pSNP fSNP_STAT_ARMED = false ∧
      flag (captureBegun s a pc) pSNP fSNP_STAT_CAPTURING = true ∧
      get (captureBegun s a pc) pSNP (fSNP_SLOT_STAT_STATE a.slot) = 2 ∧
      flag (captureBegun s a pc) pSNP (fSNP_SLOT_STAT_BAD a.slot) = false := by
  generalize hs1 : genShown (captureRuns s a pc) a = s1
  have hbegun : captureBegun s a pc = snapHeader (capturingShown (slotShown s1 a.slot 0 2 false)) a.slot pc := by
    rw [← hs1, captureBegun]
  have hrad : (captureBegun s a pc).rad = (captureRuns s a pc).rad := by
    rw [hbegun, snapHeader_rad, capturingShown, putB_rad, putB_rad, slotShown, putB_rad, put_rad, put_rad, ← hs1,
      genShown_rad]
  obtain ⟨hstate, hbad, _, _⟩ := slotShown_shows s1 a.slot 0 (st := 2) (by decide) false
  obtain ⟨harmed, hcapt, hstat⟩ := capturingShown_shows (slotShown s1 a.slot 0 2 false)
  have hheader := otherRegs_snapHeader (capturingShown (slotShown s1 a.slot 0 2 false)) a.slot pc
  have hslot : pSNP.adr (rSNP_SLOT_STAT a.slot) ∉ headerRegs a.slot := notMem_headerRegs le_rfl
  have hstatReg : pSNP.adr rSNP_STAT ∉ headerRegs a.slot := notMem_headerRegs
    (by simp only [rSNP_STAT, rSNP_SLOT_STAT]; omega)
  have hmem : pSNP.adr (rSNP_SLOT_STAT a.slot) ∉ [pSNP.adr rSNP_STAT] := slotStat_notMem (by decide)
  refine ⟨by rw [hrad]; rfl, by rw [hrad]; rfl, ?_⟩
  rw [hbegun]
  exact ⟨(hheader.flag hstatReg (by decide)).trans harmed, (hheader.flag hstatReg (by decide)).trans hcapt,
    (hheader.get hslot (slotStat_ne_rec ha)).trans ((hstat.get hmem (slotStat_ne_rec ha)).trans hstate),
    (hheader.flag hslot (slotStat_ne_rec ha)).trans ((hstat.flag hmem (slotStat_ne_rec ha)).trans hbad)⟩

/-- The instant of the first sample: the one that the command gives, or now where that has passed. -/
def firstSample (s : State) (due : PC64) : PC64 := if pcDiff due (pcNow s) < 0 then pcNow s else due

theorem exec_snpCaptureStart {s : State} {a : SnapArm} (ha : s.rad.arm = some a) (hfirst : a.first = none)
    (hflow : samplesFlow s = true) (late : Nat) :
    ∃ c pc, exec (.snpCaptureStart late) s = .next (captureBegun { s with clk := c } a pc) := by
  obtain ⟨c, hadv⟩ := advPc_clk s (a.target + BitVec.ofNat 64 (min late (samplePeriod - 1)))
  refine ⟨c, firstSample { s with clk := c } (a.target + BitVec.ofNat 64 (min late (samplePeriod - 1))), ?_⟩
  simp only [exec, execSnpCaptureStart, ha, hfirst, hflow, Option.isSome_none, Bool.not_true, Bool.or_self,
    Bool.false_eq_true, if_false, hadv]
  rfl

theorem snpCaptureStart_shows {s : State} {a : SnapArm} (ha : s.rad.arm = some a) (hfirst : a.first = none)
    (hslot : a.slot < 2) (hflow : samplesFlow s = true) (late : Nat) :
    Answers (exec (.snpCaptureStart late) s) fun t => (t.rad.arm.map fun x => x.first.isSome) = some true ∧
      flag t pSNP fSNP_STAT_ARMED = false ∧ flag t pSNP fSNP_STAT_CAPTURING = true ∧
      get t pSNP (fSNP_SLOT_STAT_STATE a.slot) = 2 ∧ flag t pSNP (fSNP_SLOT_STAT_BAD a.slot) = false ∧
      t.rad.agcHeld = flag s pSNP fSNP_CFG_AGC_HOLD := by
  obtain ⟨c, pc, hexec⟩ := exec_snpCaptureStart ha hfirst hflow late
  obtain ⟨harm, hheld, harmed, hcapt, hstate, hbad⟩ := captureBegun_shows { s with clk := c } hslot pc
  rw [hexec, answers_next]
  exact ⟨by rw [harm]; rfl, harmed, hcapt, hstate, hbad, hheld⟩

/-! ### Lock lost (R120, R167) -/

/-- The synthesizer has lost lock. -/
def lockLost (s : State) : State := doubt (raise (putB s pGRX fGRX_STAT_PLL_LOCK false) pGRX 3) pGRX 2 true

theorem exec_pllUnlock {s : State} (hon : gfOn s = true) (hlock : flag s pGRX fGRX_STAT_PLL_LOCK = true)
    (taken : List Byte) : exec (.pllUnlock taken) s = .next (spoilCapture (lockLost s) taken) := by
  simp only [exec, execPllUnlock, hon, hlock, Bool.and_self, if_true, lockLost]

theorem lockLost_shows (s : State) :
    flag (lockLost s) pGRX fGRX_STAT_PLL_LOCK = false ∧ doubts (lockLost s) pGRX 2 = true ∧
      intRaw (lockLost s) pGRX 3 = true ∧
      OtherRegs s (lockLost s) [pGRX.adr rGRX_STAT, pGRX.adr rINT_RAW, pGRX.adr rDOUBT_RAW] ∧
      (lockLost s).rad = s.rad := by
  have hlock := otherRegs_putB s pGRX fGRX_STAT_PLL_LOCK false
  have hraise := otherRegs_raise (putB s pGRX fGRX_STAT_PLL_LOCK false) pGRX 3
  have hdoubt := otherRegs_doubt (raise (putB s pGRX fGRX_STAT_PLL_LOCK false) pGRX 3) pGRX 2 true
  refine ⟨?_, doubts_doubt_same _ _ _ (by decide), ?_,
    ((hlock.mono (by simp)).andThen hraise (by simp)).andThen hdoubt (by simp),
    by rw [lockLost, doubt_rad, raise_rad, putB_rad]⟩
  · rw [lockLost, hdoubt.flag (by decide) (by decide), hraise.flag (by decide) (by decide),
      flag_putB_same _ _ _ _ (by decide) rfl]
  · exact (hdoubt.intRaw 3 (by decide) (by decide)).trans (intRaw_raise_grx _ (by decide))

theorem spoilCapture_none {s : State} (h : s.rad.arm = none) (taken : List Byte) : spoilCapture s taken = s := by
  simp only [spoilCapture, h]

theorem spoilCapture_running {s : State} {a : SnapArm} (ha : s.rad.arm = some a) (hfirst : a.first ≠ none)
    (taken : List Byte) : spoilCapture s taken = endCapture s a taken true := by
  simp only [spoilCapture, ha, Option.isSome_iff_ne_none.mpr hfirst, if_true]

theorem pllUnlock_shows {s : State} (hon : gfOn s = true) (hlock : flag s pGRX fGRX_STAT_PLL_LOCK = true)
    (taken : List Byte) :
    Answers (exec (.pllUnlock taken) s) fun t => (s.rad.arm = none → flag t pGRX fGRX_STAT_PLL_LOCK = false ∧
        doubts t pGRX 2 = true ∧ intRaw t pGRX 3 = true ∧
        OtherRegs s t [pGRX.adr rGRX_STAT, pGRX.adr rINT_RAW, pGRX.adr rDOUBT_RAW]) ∧
      (∀ a ∈ s.rad.arm, a.first ≠ none → a.slot < 2 → t.rad.arm = none ∧
        flag t pSNP (fSNP_SLOT_STAT_BAD a.slot) = true) := by
  obtain ⟨hlost, hdoubt, hint, hregs, hrad⟩ := lockLost_shows s
  rw [exec_pllUnlock hon hlock, answers_next]
  refine ⟨fun hnone => ?_, fun a ha hfirst hslot => ?_⟩
  · rw [spoilCapture_none (by rw [hrad, hnone])]
    exact ⟨hlost, hdoubt, hint, hregs⟩
  · have hended := endCapture_shows (lockLost s) hslot taken true
    rw [spoilCapture_running (by rw [hrad]; exact ha) hfirst]
    exact ⟨hended.arm, hended.judged⟩

/-! ### The rows -/

/-- Settles O27: a capture is armed, begun and ended by stores of its slot and of STAT; GF, which follows the window,
moves the front end and the causes alone. -/
theorem snapshots : Obligations.Snapshots :=
  ⟨fun _ _ _ hw harm hcancel hhold hrel => snpArm_shows hw harm hcancel hhold hrel,
    fun _ _ taken _ _ hw hcancel harm ha hslot => snpCancel_shows hw hcancel harm ha hslot taken,
    fun _ _ _ hw hcancel harm hrel => snpHold_shows hw hcancel harm hrel,
    fun _ _ _ hw hcancel harm hhold => snpRelease_shows hw hcancel harm hhold,
    fun _ hpage hauto hnone hfeat h0 h1 hpos hlen hsource =>
      snpAutoArm_shows hpage hauto hnone hfeat h0 h1 hpos hlen hsource,
    fun _ _ ha hfirst hoff hdom => snpWindowOpen_shows ha hfirst hoff hdom,
    fun late _ _ ha hfirst hslot hflow => snpCaptureStart_shows ha hfirst hslot hflow late,
    fun samples _ _ _ ha hfirst hslot hlen => snpCaptureEnd_shows ha hfirst hslot hlen samples,
    fun taken _ hon hlock => pllUnlock_shows hon hlock taken⟩

end Sys2Proof.Machine
end

section
/-! The registers of a Port die (R6, Table 02-1): which of them an operation moves. -/

namespace Sys2Proof.Machine

/-- The pages of a Port die that its ports, their launch unit and their engines write. -/
inductive PortPage where
  | sds (q : Fin 2) | mac (i : Fin 8) | tsu (i : Fin 8) | ans | lch | pte | tbl | age | tst
  deriving DecidableEq, Repr

/-- The page number of such a page. -/
def PortPage.num : PortPage → Nat
  | .sds q => 0x010 + q
  | .mac i => 0x020 + i
  | .tsu i => 0x030 + i
  | .ans => 0x040
  | .lch => 0x050
  | .pte => 0x070
  | .tbl => 0x080
  | .age => 0x0A0
  | .tst => 0x0F0

/-- The page itself on a Port die. -/
abbrev PortPage.pg (x : PortPage) (d : Nat) : Pg :=
  match x with
  | .sds q => pSDS d q
  | .mac i => pMAC d i
  | .tsu i => pTSU d i
  | .ans => pANS d
  | .lch => pLCH d
  | .pte => pPTE d
  | .tbl => pTBL d
  | .age => pAGE (4 + d)
  | .tst => pTST (4 + d)

theorem PortPage.pg_eq (x : PortPage) (d : Nat) : x.pg d = ⟨4 + d, x.num⟩ := by
  cases x
  case age => simp [pg, num, pAGE]; omega
  all_goals rfl

theorem PortPage.num_lt (x : PortPage) : x.num < 0x100 := by
  cases x <;> simp only [num] <;> omega

theorem PortPage.num_inj {x y : PortPage} (h : x.num = y.num) : x = y := by
  cases x <;> cases y <;> simp only [num, sds.injEq, mac.injEq, tsu.injEq, Fin.ext_iff, reduceCtorEq] at h ⊢ <;> omega

/-- The addresses of registers of a Port die, each named by its page and offset. -/
def portRegs (d : Nat) (l : List (PortPage × Nat)) : List Nat := l.map fun x => (x.1.pg d).adr x.2

/-- A register is none of a list, of which each lies in its page. -/
@[simp] def Apart (x : PortPage) (o : Nat) (l : List (PortPage × Nat)) : Prop :=
  o < 0x1000 ∧ ∀ y ∈ l, y.2 < 0x1000 ∧ y ≠ (x, o)

theorem PortPage.notMem_portRegs {x : PortPage} {d o : Nat} {l : List (PortPage × Nat)} (h : Apart x o l) :
    (x.pg d).adr o ∉ portRegs d l := by
  obtain ⟨ho, hl⟩ := h
  intro hmem
  obtain ⟨⟨y, o'⟩, hy, hadr⟩ := List.mem_map.mp hmem
  obtain ⟨ho', hne⟩ := hl _ hy
  rw [pg_eq, pg_eq] at hadr
  simp only [Pg.adr] at hadr ho'
  have hpage : y.num = x.num := by omega
  have hoff : o' = o := by omega
  exact hne (by rw [num_inj hpage, hoff])

/-- No register of a Port die is the Recorder's. -/
theorem PortPage.ne_rec (x : PortPage) {d o : Nat} (hd : d < 4) (ho : o < 0x1000) :
    (x.pg d).adr o % 0x10000000 / 0x1000 ≠ 0x30 := by
  have hx := x.num_lt
  rw [pg_eq]
  simp only [Pg.adr]
  omega

/-- The PDLY register of a port lies in its page. -/
@[simp] theorem pdly_lt (i : Fin 8) : rPTE_PDLY i < 0x1000 := by
  simp only [rPTE_PDLY]
  omega

/-- An interrupt bit of a page of a Port die stands after its event. -/
theorem PortPage.intRaw_raise (x : PortPage) {d bit : Nat} (hd : d < 4) (hb : bit < 32) (s : State) :
    intRaw (raise s (x.pg d) bit) (x.pg d) bit = true :=
  intRaw_raise_same (.inr (offRec_of_page (x.ne_rec hd (by decide)))) s hb

/-- Another interrupt bit of the page stays. -/
theorem PortPage.intRaw_raise_ne (x : PortPage) {d bit b : Nat} (hd : d < 4) (hb : b < 32) (hne : b ≠ bit)
    (s : State) : intRaw (raise s (x.pg d) bit) (x.pg d) b = intRaw s (x.pg d) b :=
  raise_other s (x.pg d) bit b hb hne (offRec_of_page (x.ne_rec hd (by decide)))

/-- From `s` to `t` the registers at `l` of a Port die may move, and no other outside the Recorder's page. -/
def PortMoves (d : Nat) (l : List (PortPage × Nat)) (s t : State) : Prop := OtherRegs s t (portRegs d l)

namespace PortMoves

variable {d : Nat} {l m : List (PortPage × Nat)} {s t u : State}

theorem refl (d : Nat) (l : List (PortPage × Nat)) (s : State) : PortMoves d l s s := OtherRegs.refl s _

theorem of_regs (h : t.regs = s.regs) : PortMoves d l s t := OtherRegs.of_regs h _

theorem mono (h : PortMoves d l s t) (hlm : l ⊆ m) : PortMoves d m s t :=
  OtherRegs.mono h (List.map_subset _ hlm)

/-- One operation after another moves what either moves. -/
theorem andThen (h₁ : PortMoves d l s t) (h₂ : PortMoves d m t u) : PortMoves d (l ++ m) s u :=
  OtherRegs.trans (h₁.mono (List.subset_append_left l m)) (h₂.mono (List.subset_append_right l m))

theorem foldl {α : Type} {g : State → α → State} (hg : ∀ s x, PortMoves d l s (g s x)) (xs : List α) (s : State) :
    PortMoves d l s (xs.foldl g s) :=
  kept_foldl (P := PortMoves d l s) xs g s (fun t x h => OtherRegs.trans h (hg t x)) (refl d l s)

theorem ite {c : Prop} [Decidable c] (ht : PortMoves d l s t) (hu : PortMoves d l s u) :
    PortMoves d l s (if c then t else u) := by
  split
  · exact ht
  · exact hu

section

variable (h : PortMoves d l s t) (hd : d < 4) (x : PortPage)
include h hd

theorem rdA {o : Nat} (ha : Apart x o l) : rdA t ((x.pg d).adr o) = rdA s ((x.pg d).adr o) :=
  h _ (PortPage.notMem_portRegs ha) (x.ne_rec hd ha.1)

theorem rdN {o : Nat} (ha : Apart x o l) : rdN t (x.pg d) o = rdN s (x.pg d) o :=
  rdN_congr (h.rdA hd x ha)

theorem get {f : Fld} (ha : Apart x f.off l) : get t (x.pg d) f = get s (x.pg d) f :=
  get_congr (h.rdA hd x ha)

theorem flag {f : Fld} (ha : Apart x f.off l) : flag t (x.pg d) f = flag s (x.pg d) f :=
  flag_congr (h.rdA hd x ha)

theorem doubts (bit : Nat) (ha : Apart x rDOUBT_RAW l) :
    doubts t (x.pg d) bit = doubts s (x.pg d) bit :=
  doubts_congr (h.rdA hd x ha) bit

theorem intRaw (bit : Nat) (ha : Apart x rINT_RAW l) :
    intRaw t (x.pg d) bit = intRaw s (x.pg d) bit :=
  congrArg (bitOf · bit) (h.rdN hd x ha)

end

end PortMoves

/-! ### Stores, interrupts and doubts of a page -/

section

variable (x : PortPage) (d : Nat) (s : State)

theorem portMoves_put (f : Fld) (v : Nat) : PortMoves d [(x, f.off)] s (put s (x.pg d) f v) := otherRegs_put _ _ _ _

theorem portMoves_putB (f : Fld) (b : Bool) : PortMoves d [(x, f.off)] s (putB s (x.pg d) f b) :=
  otherRegs_putB _ _ _ _

theorem portMoves_wrN (o v : Nat) : PortMoves d [(x, o)] s (wrN s (x.pg d) o v) := otherRegs_wrN _ _ _ _

theorem portMoves_bump (o : Nat) : PortMoves d [(x, o)] s (bump s (x.pg d) o) := otherRegs_bump _ _ _

theorem portMoves_raise (bit : Nat) : PortMoves d [(x, rINT_RAW)] s (raise s (x.pg d) bit) := otherRegs_raise _ _ _

theorem portMoves_raiseIf (c : Bool) (bit : Nat) :
    PortMoves d [(x, rINT_RAW)] s (raiseIf s c (x.pg d) bit) :=
  .ite (portMoves_raise x d s bit) (.refl _ _ _)

theorem portMoves_doubt (bit : Nat) (b : Bool) : PortMoves d [(x, rDOUBT_RAW)] s (doubt s (x.pg d) bit b) :=
  otherRegs_doubt _ _ _ _

end

/-- A field of the same register that shares no bit with the one that is stored. -/
theorem flag_putB_beside {s : State} {p : Pg} {f g : Fld} {b : Bool}
    (h : g.off = f.off ∧ g.lo + g.w ≤ 32 ∧ (g.lo + g.w ≤ f.lo ∨ f.lo + f.w ≤ g.lo)) :
    flag (putB s p f b) p g = flag s p g :=
  flag_putB_apart s p f g b h.1 h.2.1 h.2.2

/-! ### What the ports hold -/

theorem pd_of_ports {s t : State} (h : t.ports = s.ports) (d : Nat) : pd t d = pd s d := by rw [pd, h, pd]

theorem port_of_ports {s t : State} (h : t.ports = s.ports) (d i : Nat) : port t d i = port s d i := by
  rw [port, pd_of_ports h, port]

/-- What a change of an element keeps of every element of a list. -/
theorem ix_upd_keeps {α β : Type} (g : α → β) {f : α → α} (hf : ∀ x, g (f x) = g x) (l : List α) (i j : Nat) (c : α) :
    g (ix (upd l i f) j c) = g (ix l j c) := by
  rcases eq_or_ne i j with rfl | hne
  · by_cases hi : i < l.length
    · rw [ix_upd_same l i f c hi, hf]
    · rw [upd, List.modify_eq_self (by omega)]
  · rw [ix_upd_ne l i j f c hne]

/-- A change of a Port die that keeps a part of it. -/
theorem pd_updPd_keeps {β : Type} (g : PortDie → β) {f : PortDie → PortDie} (hf : ∀ x, g (f x) = g x) (s : State)
    (e d : Nat) : g (pd (updPd s e f) d) = g (pd s d) := ix_upd_keeps g hf s.ports e d _

/-- A change of a Port die beside its ports. -/
theorem port_updPd {f : PortDie → PortDie} (hf : ∀ x, (f x).ports = x.ports) (s : State) (e d i : Nat) :
    port (updPd s e f) d i = port s d i := by
  rw [port, pd_updPd_keeps PortDie.ports hf, port]

/-- A change of a port that keeps a part of it. -/
theorem port_updPort_keeps {β : Type} (g : Port → β) {f : Port → Port} (hf : ∀ p, g (f p) = g p) (s : State)
    (e j d i : Nat) : g (port (updPort s e j f) d i) = g (port s d i) :=
  pd_updPd_keeps (fun x => g (ix x.ports i Port.cold)) (fun x => ix_upd_keeps g hf x.ports j i Port.cold) s e d

theorem port_updPort_ne (s : State) {d e i j : Nat} (h : e ≠ d ∨ j ≠ i) (f : Port → Port) :
    port (updPort s e j f) d i = port s d i := by
  rcases h with h | h
  · rw [port, updPort, pd_updPd_ne s h, port]
  · exact pd_updPd_keeps (fun x => ix x.ports i Port.cold) (fun x => ix_upd_ne _ _ _ _ _ h) s e d

theorem updPort_ports_congr {s t : State} (h : t.ports = s.ports) (d i : Nat) (f : Port → Port) :
    (updPort t d i f).ports = (updPort s d i f).ports := by
  simp only [updPort, updPd, h]

@[simp] theorem updPort_regs (s : State) (d i : Nat) (f : Port → Port) : (updPort s d i f).regs = s.regs := rfl

@[simp] theorem updPort_clk (s : State) (d i : Nat) (f : Port → Port) : (updPort s d i f).clk = s.clk := rfl

@[simp] theorem updPort_rings (s : State) (d i : Nat) (f : Port → Port) : (updPort s d i f).rings = s.rings := rfl

theorem portMoves_updPort (k : Nat) (s : State) (d i : Nat) (f : Port → Port) : PortMoves k [] s (updPort s d i f) :=
  .of_regs rfl

theorem portMoves_updPd (k : Nat) (s : State) (d : Nat) (f : PortDie → PortDie) : PortMoves k [] s (updPd s d f) :=
  .of_regs rfl

theorem Shaped.updPort {s : State} (h : Shaped s) (d i : Nat) (f : Port → Port) : Shaped (updPort s d i f) :=
  kept_updPort shaped_closed trivial s d i f h

/-! ### Descriptors of a ring -/

@[simp] theorem ringDone_regs (s : State) (n tag status l : Nat) : (ringDone s n tag status l).regs = s.regs := rfl

@[simp] theorem ringDone_ports (s : State) (n tag status l : Nat) : (ringDone s n tag status l).ports = s.ports := rfl

@[simp] theorem ringDone_clk (s : State) (n tag status l : Nat) : (ringDone s n tag status l).clk = s.clk := rfl

theorem portMoves_ringDone (k : Nat) (s : State) (n tag status l : Nat) :
    PortMoves k [] s (ringDone s n tag status l) :=
  .of_regs rfl

end Sys2Proof.Machine
end

section
/-! What the operations of a port and of the launch unit leave (R172, R182, R186, R190): the registers that each moves,
and what it keeps of the ports. -/

namespace Sys2Proof.Machine

/-! ### Timed readiness, calibration and the hold level -/

theorem portMoves_showTimed (d : Nat) (s : State) : PortMoves d [(.lch, rLCH_STAT)] s (showTimed s d) :=
  ((portMoves_put .lch d s fLCH_STAT_TIMED_OK _).andThen (portMoves_putB .lch d _ fLCH_STAT_REPLICA_OK _)).mono
    (by simp)

theorem portMoves_showHold (d : Nat) (s : State) :
    PortMoves d [(.lch, rLCH_HOLD_LVL), (.lch, rLCH_HOLD_MAX)] s (showHold s d) :=
  (portMoves_put .lch d s fLCH_HOLD_LVL_CNT _).andThen (portMoves_put .lch d _ fLCH_HOLD_MAX_CNT _)

@[simp] theorem showTimed_ports (s : State) (d : Nat) : (showTimed s d).ports = s.ports := by
  rw [showTimed, putB_ports, put_ports]

@[simp] theorem showHold_ports (s : State) (d : Nat) : (showHold s d).ports = s.ports := by
  rw [showHold, maxF_ports, put_ports]

@[simp] theorem showHold_clk (s : State) (d : Nat) : (showHold s d).clk = s.clk := by
  rw [showHold, maxF_clk, put_clk]

/-- The registers that the watch of a port's calibration moves. -/
theorem portMoves_watchCal (d : Nat) (i : Fin 8) (s : State) :
    PortMoves d [(.tsu i, rDOUBT_RAW)] s (watchCal s d i) :=
  .ite ((portMoves_updPort d s d i _).mono (by simp))
    ((portMoves_updPort d s d i _).andThen (portMoves_doubt (.tsu i) d _ 1 false))

theorem portMoves_dropCal (d : Nat) (i : Fin 8) (s : State) :
    PortMoves d [(.tsu i, rTSU_STAT), (.tsu i, rINT_RAW)] s (dropCal s d i) :=
  (portMoves_putB (.tsu i) d s fTSU_STAT_CAL_OK false).andThen
    (portMoves_raiseIf (.tsu i) d _ _ 2)

/-- The registers that the start of a calibration moves. -/
@[simp] def calRegs (i : Fin 8) : List (PortPage × Nat) :=
  [(.tsu i, rTSU_STAT), (.tsu i, rINT_RAW), (.tsu i, rDOUBT_RAW), (.lch, rLCH_STAT)]

theorem portMoves_startCal (d : Nat) (i : Fin 8) (s : State) : PortMoves d (calRegs i) s (startCal s d i) := by
  have hrun : PortMoves d [(.tsu i, rTSU_STAT), (.tsu i, rINT_RAW)] s
      (updPort (dropCal s d i) d i fun p => { p with cal := true }) :=
    (portMoves_dropCal d i s).andThen (portMoves_updPort _ _ _ _ _)
  exact .ite ((hrun.andThen (portMoves_watchCal d i _)).andThen (portMoves_showTimed d _)) (.refl _ _ _)

/-- The watch of a calibration moves of a port only since when it waits. -/
theorem port_watchCal {β : Type} (g : Port → β) (hg : ∀ p u, g { p with uncalFrom := u } = g p) (s : State)
    (d j e i : Nat) : g (port (watchCal s d j) e i) = g (port s e i) := by
  simp only [watchCal]
  split
  · exact port_updPort_keeps g (fun p => hg p _) s d j e i
  · rw [port_of_ports (doubt_ports _ _ _ _)]
    exact port_updPort_keeps g (fun p => hg p _) s d j e i

@[simp] theorem watchCal_clk (s : State) (d i : Nat) : (watchCal s d i).clk = s.clk := by
  simp only [watchCal]
  split
  · rfl
  · rw [doubt_clk, updPort_clk]

@[simp] theorem dropCal_ports (s : State) (d i : Nat) : (dropCal s d i).ports = s.ports := by
  rw [dropCal, raiseIf_ports, putB_ports]

@[simp] theorem startCal_clk (s : State) (d i : Nat) : (startCal s d i).clk = s.clk := by
  rw [startCal]
  split
  · rw [showTimed_clk, watchCal_clk, updPort_clk, dropCal, raiseIf_clk, putB_clk]
  · rfl

/-! ### Frames that end, and the flush of a port -/

@[simp] theorem complete_ports (s : State) (d i : Nat) (b : Builder) (status l : Nat) :
    (complete s d i b status l).ports = s.ports := by
  cases b
  case soft f =>
    simp only [complete, completeSoft]
    split
    · rfl
    · rfl
  all_goals rfl

@[simp] theorem complete_regs (s : State) (d i : Nat) (b : Builder) (status l : Nat) :
    (complete s d i b status l).regs = s.regs := by
  cases b
  case soft f =>
    simp only [complete, completeSoft]
    split
    · rfl
    · rfl
  all_goals rfl

theorem portMoves_complete (d : Nat) (s : State) (e i : Nat) (b : Builder) (status l : Nat) :
    PortMoves d [] s (complete s e i b status l) :=
  .of_regs (complete_regs s e i b status l)

/-- The registers that a frame discarded for want of LINK moves. -/
@[simp] def dropRegs : List (PortPage × Nat) := [(.lch, rLCH_LINK_DROP_CNT), (.lch, rINT_RAW)]

theorem portMoves_linkDropped (d : Nat) (s : State) :
    PortMoves d dropRegs s (raise (bump s (pLCH d) rLCH_LINK_DROP_CNT) (pLCH d) 3) :=
  (portMoves_bump .lch d s rLCH_LINK_DROP_CNT).andThen (portMoves_raise .lch d _ 3)

theorem portMoves_linkDrop (d i : Nat) (b : Booking) (s : State) : PortMoves d dropRegs s (linkDrop s d i b) :=
  (portMoves_linkDropped d s).andThen (portMoves_complete d _ d i _ 8 _)

theorem portMoves_linkDropUntimed (d : Nat) (u : Untimed) (s : State) :
    PortMoves d dropRegs s (linkDropUntimed s d u) := by
  rw [linkDropUntimed]
  split
  · exact portMoves_linkDropped d s
  · exact (portMoves_linkDropped d s).andThen (portMoves_ringDone _ _ _ _ _ _)

/-- The registers that a flush moves. -/
@[simp] def flushRegs : List (PortPage × Nat) := (.lch, rLCH_HOLD_LVL) :: (.lch, rLCH_HOLD_MAX) :: dropRegs

/-- The queues of a port are empty. -/
def Port.flushed (p : Port) : Port := { p with books := [], asks := [], untimed := [], occ := [], deficit := 0 }

/-- A flush discards the frames one by one, empties the queues and shows the hold level. -/
theorem flushPort_eq (s : State) (d i : Nat) :
    ∃ u, flushPort s d i = showHold (updPort u d i Port.flushed) d ∧ PortMoves d flushRegs s u ∧ u.ports = s.ports := by
  refine ⟨_, rfl, ?_, ?_⟩
  · refine (((PortMoves.foldl (fun s b => portMoves_linkDrop d i b s) _ _).andThen
      (.foldl (l := dropRegs) (fun s a => ?_) _ _)).andThen
      (.foldl (fun s u => portMoves_linkDropUntimed d u s) _ _)).mono (by simp)
    split
    · exact .refl _ _ _
    · exact (portMoves_linkDropped d s).andThen (portMoves_complete d _ d i _ 8 0)
  · refine kept_foldl (P := fun u => u.ports = s.ports) _ _ _ (fun t u h => ?_)
      (kept_foldl (P := fun u => u.ports = s.ports) _ _ _ (fun t a h => ?_)
        (kept_foldl (P := fun u => u.ports = s.ports) _ _ _ (fun t b h => ?_) rfl))
    · rw [← h, linkDropUntimed]
      split
      · rw [raise_ports, bump_ports]
      · rw [ringDone_ports, raise_ports, bump_ports]
    · rw [← h]
      split
      · rfl
      · rw [complete_ports, raise_ports, bump_ports]
    · rw [← h, linkDrop, complete_ports, raise_ports, bump_ports]

theorem portMoves_flushPort (d i : Nat) (s : State) : PortMoves d flushRegs s (flushPort s d i) := by
  obtain ⟨u, heq, hregs, _⟩ := flushPort_eq s d i
  rw [heq]
  exact ((hregs.andThen (portMoves_updPort _ _ _ _ _)).andThen (portMoves_showHold d _)).mono (by simp)

theorem port_flushPort {s : State} (hs : Shaped s) {d i : Nat} (hd : d < 4) (hi : i < 8) :
    port (flushPort s d i) d i = (port s d i).flushed := by
  obtain ⟨u, heq, _, hports⟩ := flushPort_eq s d i
  rw [heq, port_of_ports ((showHold_ports _ _).trans (updPort_ports_congr hports d i _)), port_updPort_same hs hd hi]

/-! ### Peer delay (R256) -/

theorem portMoves_showAscap (d : Nat) (s : State) :
    PortMoves d [(.pte, rPTE_ASCAP), (.pte, rINT_RAW)] s (showAscap s d) :=
  .ite (.refl _ _ _) ((portMoves_put .pte d s fPTE_ASCAP_PORT _).andThen (portMoves_raise .pte d _ 8))

@[simp] theorem showAscap_ports (s : State) (d : Nat) : (showAscap s d).ports = s.ports := by
  simp only [showAscap]
  split
  · rfl
  · rw [raise_ports, put_ports]

/-- The registers that a link delay that is no longer valid moves. -/
@[simp] def pdlyRegs (i : Fin 8) : List (PortPage × Nat) := [(.pte, rPTE_PDLY i), (.pte, rPTE_ASCAP), (.pte, rINT_RAW)]

theorem portMoves_dropPdelay (d : Nat) (i : Fin 8) (s : State) : PortMoves d (pdlyRegs i) s (dropPdelay s d i) :=
  ((portMoves_updPd d s d _).andThen (portMoves_putB .pte d _ (fPTE_PDLY_VALID i) false)).andThen
    (portMoves_showAscap d _)

theorem port_dropPdelay (s : State) (d i e j : Nat) : port (dropPdelay s d i) e j = port s e j := by
  rw [dropPdelay, port_of_ports (showAscap_ports _ _), port_of_ports (putB_ports _ _ _ _), updPdelay]
  exact port_updPd (by exact fun _ => rfl) s d e j

end Sys2Proof.Machine
end

section
/-! A port's link, its SerDes PLLs and its pause (R172, R173, R178, R190): what the rows show. -/

namespace Sys2Proof.Machine

/-! ### What the PCS of a port shows (R172) -/

theorem portMoves_showPcs (d : Nat) (i : Fin 8) (block fec lf an : Bool) (s : State) :
    PortMoves d [(.mac i, rMAC_STAT)] s (showPcs s d i block fec lf an) :=
  ((((portMoves_putB (.mac i) d s fMAC_STAT_BLOCK_LOCK block).andThen
    (portMoves_putB (.mac i) d _ fMAC_STAT_FEC_LOCK fec)).andThen
    (portMoves_putB (.mac i) d _ fMAC_STAT_LOCAL_FAULT lf)).andThen
    (portMoves_putB (.mac i) d _ fMAC_STAT_AN_DONE an)).mono (by simp)

theorem showPcs_shows (s : State) (d i : Nat) (block fec lf an : Bool) :
    let t := showPcs s d i block fec lf an
    flag t (pMAC d i) fMAC_STAT_BLOCK_LOCK = block ∧ flag t (pMAC d i) fMAC_STAT_FEC_LOCK = fec ∧
      flag t (pMAC d i) fMAC_STAT_LOCAL_FAULT = lf := by
  refine ⟨?_, ?_, ?_⟩
  · rw [showPcs, flag_putB_beside (by decide), flag_putB_beside (by decide),
      flag_putB_beside (by decide), flag_putB_same _ _ _ _ (by decide) rfl]
  · rw [showPcs, flag_putB_beside (by decide), flag_putB_beside (by decide),
      flag_putB_same _ _ _ _ (by decide) rfl]
  · rw [showPcs, flag_putB_beside (by decide), flag_putB_same _ _ _ _ (by decide) rfl]

@[simp] theorem showPcs_ports (s : State) (d i : Nat) (block fec lf an : Bool) :
    (showPcs s d i block fec lf an).ports = s.ports := by
  rw [showPcs, putB_ports, putB_ports, putB_ports, putB_ports]

@[simp] theorem showPcs_clk (s : State) (d i : Nat) (block fec lf an : Bool) :
    (showPcs s d i block fec lf an).clk = s.clk := by
  rw [showPcs, putB_clk, putB_clk, putB_clk, putB_clk]

/-! ### LINK rises (R172) -/

/-- The PCS has lock, and LINK stands. -/
def linkRisen (s : State) (d i : Nat) (an : Bool) : State :=
  raise (putB (showPcs s d i true (fecOn s d i) false an) (pMAC d i) fMAC_STAT_LINK true) (pMAC d i) 0

/-- The grid of a port with LINK is known, and its calibration begins. -/
def gridRisen (s : State) (d i : Nat) : State :=
  startCal (showTimed (watchCal (putB s (pTSU d i) fTSU_STAT_GRID_OK true) d i) d) d i

theorem exec_linkUp {d : Fin 4} {i : Fin 8} {s : State} (hpage : pageOn s (pMAC d i) = true)
    (hmode : portMode s d i ≠ 0) (hdown : flag s (pMAC d i) fMAC_STAT_LINK = false)
    (hpll : pllDown s d i = false) :
    ∃ an, exec (.linkUp d i) s = .next (gridRisen (linkRisen s d i an) d i) := by
  refine ⟨portMode s d i == 1 && flag s (pMAC d i) fMAC_CFG_AN37, ?_⟩
  simp only [exec, execLinkUp, hpage, decide_eq_true hmode, hdown, hpll, Bool.not_false, Bool.and_self, if_true]
  rfl

theorem linkRisen_shows (s : State) {d : Nat} (hd : d < 4) (i : Fin 8) (an : Bool) :
    let t := linkRisen s d i an
    flag t (pMAC d i) fMAC_STAT_LINK = true ∧ flag t (pMAC d i) fMAC_STAT_BLOCK_LOCK = true ∧
      flag t (pMAC d i) fMAC_STAT_FEC_LOCK = fecOn s d i ∧ flag t (pMAC d i) fMAC_STAT_LOCAL_FAULT = false ∧
      intRaw t (pMAC d i) 0 = true ∧ t.clk = s.clk := by
  obtain ⟨hblock, hfec, hfault⟩ := showPcs_shows s d i true (fecOn s d i) false an
  have hraise := portMoves_raise (.mac i) d
    (putB (showPcs s d i true (fecOn s d i) false an) (pMAC d i) fMAC_STAT_LINK true) 0
  have hstat : ∀ f : Fld, f.off = rMAC_STAT → flag (linkRisen s d i an) (pMAC d i) f =
      flag (putB (showPcs s d i true (fecOn s d i) false an) (pMAC d i) fMAC_STAT_LINK true) (pMAC d i) f :=
    fun f hf => hraise.flag hd (.mac i) (by rw [hf]; simp +decide)
  have hbeside : ∀ f : Fld, f.off = rMAC_STAT → f.lo + f.w ≤ 32 → 1 ≤ f.lo →
      flag (linkRisen s d i an) (pMAC d i) f =
      flag (showPcs s d i true (fecOn s d i) false an) (pMAC d i) f := fun f hf hw hlo =>
    (hstat f hf).trans (flag_putB_apart _ _ fMAC_STAT_LINK f _ hf hw (.inr hlo))
  refine ⟨?_, ?_, ?_, ?_, PortPage.intRaw_raise (.mac i) hd (by decide) _, ?_⟩
  · rw [hstat _ rfl, flag_putB_same _ _ _ _ (by decide) rfl]
  · rw [hbeside _ rfl (by decide) (by decide), hblock]
  · rw [hbeside _ rfl (by decide) (by decide), hfec]
  · rw [hbeside _ rfl (by decide) (by decide), hfault]
  · rw [linkRisen, raise_clk, putB_clk, showPcs_clk]

/-- A calibration that begins leaves GRID_OK. -/
theorem gridOk_startCal (s : State) {d : Nat} (hd : d < 4) (i : Fin 8) :
    flag (startCal s d i) (pTSU d i) fTSU_STAT_GRID_OK = flag s (pTSU d i) fTSU_STAT_GRID_OK := by
  rw [startCal]
  split
  · rw [(portMoves_showTimed d _).flag hd (.tsu i) (by simp +decide),
      (portMoves_watchCal d i _).flag hd (.tsu i) (by simp +decide),
      (portMoves_updPort d _ d i _).flag hd (.tsu i) (by simp +decide), dropCal,
      (portMoves_raiseIf (.tsu i) d _ _ 2).flag hd (.tsu i) (by simp +decide)]
    exact flag_putB_beside (by decide)
  · rfl

theorem gridRisen_shows (s : State) {d : Nat} (hd : d < 4) (i : Fin 8) :
    flag (gridRisen s d i) (pTSU d i) fTSU_STAT_GRID_OK = true ∧ PortMoves d (calRegs i) s (gridRisen s d i) ∧
      (gridRisen s d i).clk = s.clk := by
  have hgrid := portMoves_putB (.tsu i) d s fTSU_STAT_GRID_OK true
  refine ⟨?_, (((hgrid.andThen (portMoves_watchCal d i _)).andThen (portMoves_showTimed d _)).andThen
    (portMoves_startCal d i _)).mono (by simp), ?_⟩
  · rw [gridRisen, gridOk_startCal _ hd, (portMoves_showTimed d _).flag hd (.tsu i) (by simp +decide),
      (portMoves_watchCal d i _).flag hd (.tsu i) (by simp +decide)]
    exact flag_putB_same _ _ _ _ (by decide) rfl
  · rw [gridRisen, startCal_clk, showTimed_clk, watchCal_clk, putB_clk]

theorem linkUp_shows {d : Fin 4} {i : Fin 8} {s : State} (hpage : pageOn s (pMAC d i) = true)
    (hmode : portMode s d i ≠ 0) (hdown : flag s (pMAC d i) fMAC_STAT_LINK = false)
    (hpll : pllDown s d i = false) :
    Answers (exec (.linkUp d i) s) fun t =>
      flag t (pMAC d i) fMAC_STAT_LINK = true ∧ flag t (pMAC d i) fMAC_STAT_BLOCK_LOCK = true ∧
      flag t (pMAC d i) fMAC_STAT_FEC_LOCK = fecOn s d i ∧ flag t (pMAC d i) fMAC_STAT_LOCAL_FAULT = false ∧
      flag t (pTSU d i) fTSU_STAT_GRID_OK = true ∧ intRaw t (pMAC d i) 0 = true ∧ t.clk = s.clk := by
  obtain ⟨an, hexec⟩ := exec_linkUp hpage hmode hdown hpll
  obtain ⟨hlink, hblock, hfec, hfault, hint, hclk⟩ := linkRisen_shows s d.2 i an
  obtain ⟨hgrid, hregs, hclk'⟩ := gridRisen_shows (linkRisen s d i an) d.2 i
  have hstat : ∀ f : Fld, f.off = rMAC_STAT → flag (gridRisen (linkRisen s d i an) d i) (pMAC d i) f =
      flag (linkRisen s d i an) (pMAC d i) f := fun f hf =>
    hregs.flag d.2 (.mac i) (by rw [hf]; simp +decide)
  rw [hexec, answers_next]
  exact ⟨(hstat _ rfl).trans hlink, (hstat _ rfl).trans hblock, (hstat _ rfl).trans hfec, (hstat _ rfl).trans hfault,
    hgrid, (hregs.intRaw d.2 (.mac i) 0 (by simp +decide)).trans hint, hclk'.trans hclk⟩

/-! ### LINK falls (R172, R190, R256) -/

/-- LINK is gone with what depends on it in the MAC. -/
def linkGone (s : State) (d i : Nat) : State :=
  putB (putB (raise (bump (putB s (pMAC d i) fMAC_STAT_LINK false) (pMAC d i) rMAC_LINK_DOWN_CNT) (pMAC d i) 1)
    (pMAC d i) fMAC_STAT_REMOTE_FAULT false) (pMAC d i) fMAC_STAT_PAUSED false

/-- The pause and the grid of a port without LINK are gone. -/
def gridGone (s : State) (d i : Nat) : State :=
  putB (updPort s d i fun p => { p with pause := none }) (pTSU d i) fTSU_STAT_GRID_OK false

/-- What follows in the launch unit and in the PTP engine. -/
def portIdle (s : State) (d i : Nat) : State := showTimed (watchCal (dropPdelay (flushPort s d i) d i) d i) d

theorem linkFall_eq (s : State) (d i : Nat) : linkFall s d i = portIdle (gridGone (linkGone s d i) d i) d i := rfl

/-- The registers that the fall of LINK moves in the MAC. -/
@[simp] def goneRegs (i : Fin 8) : List (PortPage × Nat) :=
  [(.mac i, rMAC_STAT), (.mac i, rMAC_LINK_DOWN_CNT), (.mac i, rINT_RAW)]

theorem linkGone_shows (s : State) {d : Nat} (hd : d < 4) (i : Fin 8) :
    let t := linkGone s d i
    flag t (pMAC d i) fMAC_STAT_LINK = false ∧ flag t (pMAC d i) fMAC_STAT_REMOTE_FAULT = false ∧
      flag t (pMAC d i) fMAC_STAT_LOCAL_FAULT = flag s (pMAC d i) fMAC_STAT_LOCAL_FAULT ∧
      rdN t (pMAC d i) rMAC_LINK_DOWN_CNT = min (rdN s (pMAC d i) rMAC_LINK_DOWN_CNT + 1) 0xFFFFFFFF ∧
      intRaw t (pMAC d i) 1 = true ∧ PortMoves d (goneRegs i) s t := by
  have hlink := (portMoves_putB (.mac i) d s fMAC_STAT_LINK false)
  have hcount := portMoves_bump (.mac i) d (putB s (pMAC d i) fMAC_STAT_LINK false) rMAC_LINK_DOWN_CNT
  have hraise := portMoves_raise (.mac i) d
    (bump (putB s (pMAC d i) fMAC_STAT_LINK false) (pMAC d i) rMAC_LINK_DOWN_CNT) 1
  have hfault := portMoves_putB (.mac i) d
    (raise (bump (putB s (pMAC d i) fMAC_STAT_LINK false) (pMAC d i) rMAC_LINK_DOWN_CNT) (pMAC d i) 1)
    fMAC_STAT_REMOTE_FAULT false
  have hrest := hfault.andThen (portMoves_putB (.mac i) d _ fMAC_STAT_PAUSED false)
  have hbefore : ∀ f : Fld, f.off = rMAC_STAT →
      flag (raise (bump (putB s (pMAC d i) fMAC_STAT_LINK false) (pMAC d i) rMAC_LINK_DOWN_CNT) (pMAC d i) 1)
        (pMAC d i) f = flag (putB s (pMAC d i) fMAC_STAT_LINK false) (pMAC d i) f := fun f hf =>
    (hraise.flag hd (.mac i) (by rw [hf]; simp +decide)).trans
      (hcount.flag hd (.mac i) (by rw [hf]; simp +decide))
  have hlow : ∀ f : Fld, f.off = rMAC_STAT → f.lo + f.w ≤ 4 → flag (linkGone s d i) (pMAC d i) f =
      flag (putB s (pMAC d i) fMAC_STAT_LINK false) (pMAC d i) f := fun f hf hlo => by
    rw [linkGone, flag_putB_apart _ _ fMAC_STAT_PAUSED f _ hf (by omega) (.inl (by simp only; omega)),
      flag_putB_apart _ _ fMAC_STAT_REMOTE_FAULT f _ hf (by omega) (.inl hlo), hbefore f hf]
  refine ⟨?_, ?_, ?_, ?_, ?_, ?_⟩
  · rw [hlow _ rfl (by decide), flag_putB_same _ _ _ _ (by decide) rfl]
  · rw [linkGone, flag_putB_beside (by decide), flag_putB_same _ _ _ _ (by decide) rfl]
  · rw [hlow _ rfl (by decide), flag_putB_beside (by decide)]
  · rw [linkGone, hrest.rdN hd (.mac i) (by simp +decide), hraise.rdN hd (.mac i) (by simp +decide),
      rdN_bump_same, hlink.rdN hd (.mac i) (by simp +decide)]
  · rw [linkGone, hrest.intRaw hd (.mac i) 1 (by simp +decide)]
    exact PortPage.intRaw_raise (.mac i) hd (by decide) _
  · exact (((hlink.andThen hcount).andThen hraise).andThen hrest).mono (by simp)

theorem portMoves_gridGone (d : Nat) (i : Fin 8) (s : State) : PortMoves d [(.tsu i, rTSU_STAT)] s (gridGone s d i) :=
  (portMoves_updPort d s d i _).andThen (portMoves_putB (.tsu i) d _ fTSU_STAT_GRID_OK false)

/-- The registers that a port without LINK moves beside its MAC. -/
@[simp] def quietRegs (i : Fin 8) : List (PortPage × Nat) :=
  (.tsu i, rDOUBT_RAW) :: (.lch, rLCH_STAT) :: (flushRegs ++ pdlyRegs i)

theorem portMoves_portIdle (d : Nat) (i : Fin 8) (s : State) : PortMoves d (quietRegs i) s (portIdle s d i) :=
  ((((portMoves_flushPort d i s).andThen (portMoves_dropPdelay d i _)).andThen (portMoves_watchCal d i _)).andThen
    (portMoves_showTimed d _)).mono (by simp)

/-- The registers that the fall of LINK moves. -/
@[simp] def linkFallRegs (i : Fin 8) : List (PortPage × Nat) := (.tsu i, rTSU_STAT) :: (goneRegs i ++ quietRegs i)

theorem portMoves_linkFall {d : Nat} (hd : d < 4) (i : Fin 8) (s : State) :
    PortMoves d (linkFallRegs i) s (linkFall s d i) := by
  obtain ⟨-, -, -, -, -, hgone⟩ := linkGone_shows s hd i
  rw [linkFall_eq]
  exact ((hgone.andThen (portMoves_gridGone d i _)).andThen
    (portMoves_portIdle d i _)).mono (by simp)

theorem linkFall_leaves (s : State) (d i : Nat) : Leaves dropParts s (linkFall s d i) :=
  kept_linkFall (leaves_closed dropParts s) (.inl rfl) (.inr (.inl rfl)) (.inr (.inr rfl)) s d i (leaves_refl _ s)

@[simp] theorem linkFall_clk (s : State) (d i : Nat) : (linkFall s d i).clk = s.clk :=
  (linkFall_leaves s d i .clk).resolve_left (by simp [dropParts])

@[simp] theorem linkFall_pwr (s : State) (d i : Nat) : (linkFall s d i).pwr = s.pwr :=
  (linkFall_leaves s d i .pwr).resolve_left (by simp [dropParts])

/-- LINK of a port has fallen. -/
theorem flag_link_linkFall (s : State) {d : Nat} (hd : d < 4) (i : Fin 8) :
    flag (linkFall s d i) (pMAC d i) fMAC_STAT_LINK = false := by
  obtain ⟨hlink, -⟩ := linkGone_shows s hd i
  rw [linkFall_eq, (portMoves_portIdle d i _).flag hd (.mac i) (by simp +decide),
    (portMoves_gridGone d i _).flag hd (.mac i) (by simp +decide), hlink]

/-- The MAC, the time-stamp unit and the queues of a port whose LINK has fallen. -/
theorem linkFall_shows {s : State} (hs : Shaped s) {d : Nat} (hd : d < 4) (i : Fin 8) :
    let t := linkFall s d i
    flag t (pMAC d i) fMAC_STAT_LINK = false ∧ flag t (pMAC d i) fMAC_STAT_REMOTE_FAULT = false ∧
      flag t (pMAC d i) fMAC_STAT_LOCAL_FAULT = flag s (pMAC d i) fMAC_STAT_LOCAL_FAULT ∧
      flag t (pTSU d i) fTSU_STAT_GRID_OK = false ∧
      rdN t (pMAC d i) rMAC_LINK_DOWN_CNT = min (rdN s (pMAC d i) rMAC_LINK_DOWN_CNT + 1) 0xFFFFFFFF ∧
      intRaw t (pMAC d i) 1 = true ∧ (port t d i).books = [] ∧ (port t d i).untimed = [] := by
  obtain ⟨hlink, hremote, hlocal, hcount, hint, -⟩ := linkGone_shows s hd i
  have hidle := portMoves_portIdle d i (gridGone (linkGone s d i) d i)
  have hends := (portMoves_gridGone d i (linkGone s d i)).andThen hidle
  have hstat : ∀ f : Fld, f.off = rMAC_STAT →
      flag (linkFall s d i) (pMAC d i) f = flag (linkGone s d i) (pMAC d i) f :=
    fun f hf => hends.flag hd (.mac i) (by rw [hf]; simp +decide)
  have hshape : Shaped (gridGone (linkGone s d i) d i) :=
    kept_putB shaped_closed _ _ _ _ (Shaped.updPort (kept_putB shaped_closed _ _ _ _ (kept_putB shaped_closed _ _ _ _
      (kept_raise shaped_closed _ _ _ (kept_bump shaped_closed _ _ _ (kept_putB shaped_closed _ _ _ _ hs))))) d i _)
  have hqueues : ∀ g : Port → List Booking ⊕ List Untimed, (∀ p u, g { p with uncalFrom := u } = g p) →
      g (port (linkFall s d i) d i) = g (port (gridGone (linkGone s d i) d i) d i).flushed := fun g hg => by
    rw [linkFall_eq, portIdle, port_of_ports (showTimed_ports _ _), port_watchCal g hg, port_dropPdelay,
      port_flushPort hshape hd i.2]
  refine ⟨(hstat _ rfl).trans hlink, (hstat _ rfl).trans hremote, (hstat _ rfl).trans hlocal, ?_, ?_, ?_, ?_, ?_⟩
  · rw [linkFall_eq, hidle.flag hd (.tsu i) (by simp +decide)]
    exact flag_putB_same _ _ _ _ (by decide) rfl
  · exact (hends.rdN hd (.mac i) (by simp +decide)).trans hcount
  · exact (hends.intRaw hd (.mac i) 1 (by simp +decide)).trans hint
  · exact Sum.inl.inj (hqueues (fun p => .inl p.books) fun _ _ => rfl)
  · exact Sum.inr.inj (hqueues (fun p => .inr p.untimed) fun _ _ => rfl)

theorem exec_linkDown {d : Fin 4} {i : Fin 8} {s : State} (hup : linkUp s d i = true) (block fec localFault : Bool) :
    ∃ f an, exec (.linkDown d i block fec localFault) s =
      .next (linkFall (showPcs s d i block f localFault an) d i) := by
  refine ⟨fec && fecOn s d i, flag s (pMAC d i) fMAC_STAT_AN_DONE && block, ?_⟩
  simp only [exec, execLinkDown, hup, if_true]

theorem linkDown_shows {d : Fin 4} {i : Fin 8} {s : State} (hs : Shaped s) (hup : linkUp s d i = true)
    (block fec localFault : Bool) :
    Answers (exec (.linkDown d i block fec localFault) s) fun t =>
      flag t (pMAC d i) fMAC_STAT_LINK = false ∧ flag t (pMAC d i) fMAC_STAT_LOCAL_FAULT = localFault ∧
      flag t (pMAC d i) fMAC_STAT_REMOTE_FAULT = false ∧ flag t (pTSU d i) fTSU_STAT_GRID_OK = false ∧
      rdN t (pMAC d i) rMAC_LINK_DOWN_CNT = min (rdN s (pMAC d i) rMAC_LINK_DOWN_CNT + 1) 0xFFFFFFFF ∧
      intRaw t (pMAC d i) 1 = true ∧ (port t d i).books = [] ∧ (port t d i).untimed = [] ∧ t.clk = s.clk := by
  obtain ⟨f, an, hexec⟩ := exec_linkDown hup block fec localFault
  obtain ⟨-, -, hfault⟩ := showPcs_shows s d i block f localFault an
  have hshape : Shaped (showPcs s d i block f localFault an) := kept_showPcs shaped_closed s d i _ _ _ _ hs
  obtain ⟨hlink, hremote, hlocal, hgrid, hcount, hint, hbooks, huntimed⟩ := linkFall_shows hshape d.2 i
  have hpcs := portMoves_showPcs d i block f localFault an s
  rw [hexec, answers_next]
  refine ⟨hlink, hlocal.trans hfault, hremote, hgrid, ?_, hint, hbooks, huntimed, ?_⟩
  · rw [hcount, hpcs.rdN d.2 (.mac i) (by simp +decide)]
  · rw [linkFall_clk, showPcs_clk]

/-! ### Remote fault (R172) -/

theorem remoteFault_shows {d : Fin 4} {i : Fin 8} {s : State} (hpage : pageOn s (pMAC d i) = true)
    (hmode : portMode s d i ≠ 0) (on : Bool) :
    Answers (exec (.remoteFault d i on) s) fun t => flag t (pMAC d i) fMAC_STAT_REMOTE_FAULT = on ∧
      flag t (pMAC d i) fMAC_STAT_LINK = flag s (pMAC d i) fMAC_STAT_LINK ∧
      OtherRegs s t [(pMAC d i).adr rMAC_STAT, (pLCH d).adr rLCH_STAT] := by
  have hexec : exec (.remoteFault d i on) s =
      .next (showTimed (putB s (pMAC d i) fMAC_STAT_REMOTE_FAULT on) d) := by
    simp only [exec, execRemoteFault, hpage, decide_eq_true hmode, Bool.and_self, if_true]
  have hstat := portMoves_putB (.mac i) d s fMAC_STAT_REMOTE_FAULT on
  have htimed := portMoves_showTimed d (putB s (pMAC d i) fMAC_STAT_REMOTE_FAULT on)
  rw [hexec, answers_next]
  refine ⟨?_, ?_, hstat.andThen htimed⟩
  · exact (htimed.flag d.2 (.mac i) (by simp +decide)).trans (flag_putB_same _ _ _ _ (by decide) rfl)
  · exact (htimed.flag d.2 (.mac i) (by simp +decide)).trans (flag_putB_beside (by decide))

/-! ### Signal detect (R173) -/

/-- The clock of a lane is recovered, and its adaptation has run unless it is frozen. -/
def laneAdapted (s : State) (p : Pg) (k : Nat) : State :=
  if flag s p (fSDS_LANE_CFG_ADAPT_FREEZE k) then
    putB (putB s p (fSDS_LANE_STAT_SIG_DET k) true) p (fSDS_LANE_STAT_CDR_LOCK k) true
  else putB (putB (putB s p (fSDS_LANE_STAT_SIG_DET k) true) p (fSDS_LANE_STAT_CDR_LOCK k) true) p
    (fSDS_LANE_STAT_ADAPT_DONE k) true

theorem otherRegs_laneAdapted (s : State) (p : Pg) (k : Nat) :
    OtherRegs s (laneAdapted s p k) [p.adr (rSDS_LANE_STAT k)] := by
  have hregs : OtherRegs s (putB (putB s p (fSDS_LANE_STAT_SIG_DET k) true) p (fSDS_LANE_STAT_CDR_LOCK k) true)
      [p.adr (rSDS_LANE_STAT k)] := 
    (otherRegs_putB s p (fSDS_LANE_STAT_SIG_DET k) true).trans (otherRegs_putB _ p (fSDS_LANE_STAT_CDR_LOCK k) true)
  rw [laneAdapted]
  split
  · exact hregs
  · exact hregs.trans (otherRegs_putB _ p (fSDS_LANE_STAT_ADAPT_DONE k) true)

/-- A field of one bit is beside the one above it in the register. -/
theorem flag_putB_below (s : State) (p : Pg) (o : Nat) {lo lo' : Nat} (b : Bool) (h : lo' < lo) (hlo : lo' < 32) :
    flag (putB s p ⟨o, lo, 1⟩ b) p ⟨o, lo', 1⟩ = flag s p ⟨o, lo', 1⟩ :=
  flag_putB_apart s p _ _ b rfl (by simpa) (.inl h)

theorem laneAdapted_shows (s : State) (p : Pg) (k : Nat) :
    flag (laneAdapted s p k) p (fSDS_LANE_STAT_SIG_DET k) = true ∧
      flag (laneAdapted s p k) p (fSDS_LANE_STAT_CDR_LOCK k) = true := by
  have hdet : flag (putB (putB s p (fSDS_LANE_STAT_SIG_DET k) true) p (fSDS_LANE_STAT_CDR_LOCK k) true) p
      (fSDS_LANE_STAT_SIG_DET k) = true := by
    rw [flag_putB_below _ _ _ _ (by decide) (by decide), flag_putB_same _ _ _ _ (by simp) rfl]
  have hlock : flag (putB (putB s p (fSDS_LANE_STAT_SIG_DET k) true) p (fSDS_LANE_STAT_CDR_LOCK k) true) p
      (fSDS_LANE_STAT_CDR_LOCK k) = true := flag_putB_same _ _ _ _ (by simp) rfl
  rw [laneAdapted]
  split
  · exact ⟨hdet, hlock⟩
  · exact ⟨(flag_putB_below _ p _ (lo := 2) (lo' := 0) true (by decide) (by decide)).trans hdet,
      (flag_putB_below _ p _ (lo := 2) (lo' := 1) true (by decide) (by decide)).trans hlock⟩

theorem signalDetect_shows {d : Fin 4} {i : Fin 8} {s : State} (hpage : pageOn s (pSDS d (i.val / 4)) = true)
    (eye : Fin 256) :
    Answers (exec (.signalDetect d i eye) s) fun t =>
      flag t (pSDS d (i.val / 4)) (fSDS_LANE_STAT_SIG_DET (i.val % 4)) = true ∧
      flag t (pSDS d (i.val / 4)) (fSDS_LANE_STAT_CDR_LOCK (i.val % 4)) = true ∧
      get t (pSDS d (i.val / 4)) (fSDS_LANE_STAT_EYE (i.val % 4)) = eye ∧
      OtherRegs s t [(pSDS d (i.val / 4)).adr (rSDS_LANE_STAT (i.val % 4))] := by
  have hexec : exec (.signalDetect d i eye) s = .next (put (laneAdapted s (pSDS d (i.val / 4)) (i.val % 4))
      (pSDS d (i.val / 4)) (fSDS_LANE_STAT_EYE (i.val % 4)) eye) := by
    simp only [exec, execSignalDetect, hpage, if_true]
    rfl
  obtain ⟨hdet, hlock⟩ := laneAdapted_shows s (pSDS d (i.val / 4)) (i.val % 4)
  rw [hexec, answers_next]
  exact ⟨(flag_put_apart _ _ (fSDS_LANE_STAT_EYE (i.val % 4)) (fSDS_LANE_STAT_SIG_DET (i.val % 4)) _ rfl (by simp)
      (by simp)).trans hdet,
    (flag_put_apart _ _ (fSDS_LANE_STAT_EYE (i.val % 4)) (fSDS_LANE_STAT_CDR_LOCK (i.val % 4)) _ rfl (by simp)
      (by simp)).trans hlock,
    get_put_lt _ _ _ (by simp) eye.2,
    (otherRegs_laneAdapted _ _ _).trans (otherRegs_put _ _ _ _)⟩

/-! ### The SerDes PLLs (R173) -/

/-- The LOCK bit of PLL H or L. -/
theorem pllLock_fld (h : Bool) :
    let f := if h then fSDS_PLL_STAT_H_LOCK else fSDS_PLL_STAT_L_LOCK
    f.off = rSDS_PLL_STAT ∧ f.lo + f.w ≤ 32 ∧ f.w = 1 := by
  cases h <;> decide

theorem pageOn_of_pwr {s t : State} (h : t.pwr = s.pwr) (p : Pg) : pageOn t p = pageOn s p := by
  simp only [pageOn, domOn, h]

theorem pageRetained_of_pwr {s t : State} (h : t.pwr = s.pwr) (p : Pg) : pageRetained t p = pageRetained s p := by
  simp only [pageRetained, h]

/-- LINK of a port goes on as it was. -/
theorem linkUp_congr {s t : State} {d i : Nat} (hpwr : t.pwr = s.pwr)
    (hlink : flag t (pMAC d i) fMAC_STAT_LINK = flag s (pMAC d i) fMAC_STAT_LINK) : linkUp t d i = linkUp s d i := by
  rw [linkUp, pageOn_of_pwr hpwr, pageRetained_of_pwr hpwr, hlink, linkUp]

/-- A port that a lost PLL serves loses its link. -/
def pllServes (s : State) (d : Nat) (h : Bool) (i : Nat) : State :=
  if linkUp s d i && (portMode s d i == 3) == h then linkFall (showPcs s d i false false true false) d i else s

/-- The lanes of a port that has lost its PLL move what the fall of LINK moves. -/
theorem portMoves_pllServes {d : Nat} (hd : d < 4) (h : Bool) (i : Fin 8) (s : State) :
    PortMoves d (linkFallRegs i) s (pllServes s d h i) := by
  have hpcs := portMoves_showPcs d i false false true false s
  exact .ite ((hpcs.andThen (portMoves_linkFall hd i _)).mono (by simp)) (.refl _ _ _)

@[simp] theorem pllServes_pwr (s : State) (d : Nat) (h : Bool) (i : Nat) : (pllServes s d h i).pwr = s.pwr := by
  rw [pllServes]
  split
  · rw [linkFall_pwr, showPcs, putB_pwr, putB_pwr, putB_pwr, putB_pwr]
  · rfl

theorem portMode_pllServes {d : Nat} (hd : d < 4) (h : Bool) (i j : Fin 8) (s : State) :
    portMode (pllServes s d h i) d j = portMode s d j :=
  (portMoves_pllServes hd h i s).get hd (.mac j) (by simp +decide)

/-- The port that is served loses LINK. -/
theorem linkUp_pllServes_same {d : Nat} (hd : d < 4) {h : Bool} (i : Fin 8) {s : State}
    (hmode : (portMode s d i == 3) = h) : linkUp (pllServes s d h i) d i = false := by
  rw [pllServes, hmode, beq_self_eq_true, Bool.and_true]
  split
  · rw [linkUp, flag_link_linkFall _ hd, Bool.and_false]
  · next hdown => exact Bool.eq_false_iff.mpr hdown

/-- No port gains LINK. -/
theorem linkUp_pllServes_stays {d : Nat} (hd : d < 4) (h : Bool) (i j : Fin 8) {s : State}
    (hdown : linkUp s d j = false) : linkUp (pllServes s d h i) d j = false := by
  rcases eq_or_ne i j with rfl | hne
  · rw [pllServes, hdown]
    exact hdown
  · exact (linkUp_congr (pllServes_pwr s d h i)
      ((portMoves_pllServes hd h i s).flag hd (.mac j) (by simp +decide [hne]))).trans hdown

end Sys2Proof.Machine
end

section
/-! The SerDes PLLs and the pause of a port (R173, R178), and O16. -/

namespace Sys2Proof.Machine

/-! ### The doubt SDS_PLL -/

/-- A quad has lost a PLL exactly where one of its two bits stands. -/
theorem quadLost_eq (n : Nat) (q : Fin 2) :
    (n / 4 ^ q.val % 4 != 0) = (bitOf n (2 * q) || bitOf n (2 * q + 1)) := by
  rw [Bool.eq_iff_iff]
  simp only [bitOf, Nat.testBit_eq_decide_div_mod_eq, bne_iff_ne, Bool.or_eq_true, decide_eq_true_eq]
  fin_cases q
  · simp only [pow_zero, mul_zero, Nat.zero_add]
    omega
  · simp only [pow_one, mul_one]
    omega

/-- The bit of PLL H or L of a quad is set or cleared, and the doubt follows (R173). -/
def pllMarked (s : State) (d q : Nat) (h lost : Bool) : State :=
  pllDoubt (updPd s d fun x => { x with pllLost := setBit x.pllLost (2 * q + ofBool h) lost }) d q

theorem portMoves_pllMarked (d : Nat) (q : Fin 2) (h lost : Bool) (s : State) :
    PortMoves d [(.sds q, rDOUBT_RAW)] s (pllMarked s d q h lost) :=
  (portMoves_updPd d s d _).andThen (portMoves_doubt (.sds q) d _ 0 _)

theorem doubts_pllMarked {s : State} (hs : Shaped s) {d : Nat} (hd : d < 4) (q : Fin 2) (h lost : Bool) :
    doubts (pllMarked s d q h lost) (pSDS d q) 0 = (lost || bitOf (pd s d).pllLost (2 * q + ofBool !h)) := by
  rw [pllMarked, pllDoubt, doubts_doubt_same _ _ _ (by decide), pd_updPd_same hs hd, quadLost_eq, bitOf_setBit,
    bitOf_setBit]
  cases h
  · simp [ofBool]
  · simp [ofBool, Bool.or_comm]

/-! ### The ports that a lost PLL serves (R173) -/

/-- The ports of a quad. -/
def quadPorts (q : Fin 2) : List (Fin 8) := List.ofFn fun k : Fin 4 => ⟨4 * q + k, by omega⟩

/-- Each port of a list that a lost PLL serves loses its link. -/
def pllServesAll (s : State) (d : Nat) (h : Bool) (l : List (Fin 8)) : State :=
  l.foldl (fun s (i : Fin 8) => pllServes s d h i) s

theorem pllServesAll_leaves {d : Nat} (hd : d < 4) (h : Bool) (q : Fin 2) {o : Nat} (ho : o < 0x1000)
    (l : List (Fin 8)) (s : State) :
    rdA (pllServesAll s d h l) ((pSDS d q).adr o) = rdA s ((pSDS d q).adr o) :=
  kept_foldl (P := fun t => rdA t ((pSDS d q).adr o) = rdA s ((pSDS d q).adr o)) l _ s
    (fun t i ht => ((portMoves_pllServes hd h i t).rdA hd (.sds q) (by simp +decide [ho])).trans ht) rfl

theorem linkUp_pllServesAll_stays {d : Nat} (hd : d < 4) (h : Bool) {j : Fin 8} (l : List (Fin 8)) {s : State}
    (hdown : linkUp s d j = false) : linkUp (pllServesAll s d h l) d j = false :=
  kept_foldl (P := fun t => linkUp t d j = false) l _ s (fun _ i ht => linkUp_pllServes_stays hd h i j ht) hdown

theorem linkUp_pllServesAll {d : Nat} (hd : d < 4) (h : Bool) {j : Fin 8} {l : List (Fin 8)} (hj : j ∈ l) (s : State)
    (hmode : (portMode s d j == 3) = h) : linkUp (pllServesAll s d h l) d j = false := by
  induction l generalizing s with
  | nil => cases hj
  | cons i l ih =>
    rcases List.mem_cons.mp hj with rfl | hj
    · exact linkUp_pllServesAll_stays hd h l (linkUp_pllServes_same hd j hmode)
    · exact ih hj _ (by rw [portMode_pllServes hd, hmode])

theorem exec_sdsPllUnlock {d : Fin 4} {q : Fin 2} {s : State} (hpage : pageOn s (pSDS d q) = true) (h : Bool) :
    exec (.sdsPllUnlock d q h) s = .next (pllServesAll (pllMarked (raise (putB s (pSDS d q)
      (if h then fSDS_PLL_STAT_H_LOCK else fSDS_PLL_STAT_L_LOCK) false) (pSDS d q) 5) d q h true) d h
        (quadPorts q)) := by
  simp only [exec, execSdsPllUnlock, hpage, if_true]
  rfl

theorem sdsPllUnlock_shows {d : Fin 4} {q : Fin 2} {s : State} (hs : Shaped s) (hpage : pageOn s (pSDS d q) = true)
    (h : Bool) :
    Answers (exec (.sdsPllUnlock d q h) s) fun t =>
      flag t (pSDS d q) (if h then fSDS_PLL_STAT_H_LOCK else fSDS_PLL_STAT_L_LOCK) = false ∧
      intRaw t (pSDS d q) 5 = true ∧ doubts t (pSDS d q) 0 = true ∧
      (∀ k : Fin 4, (portMode s d (4 * q.val + k) == 3) = h → linkUp t d (4 * q.val + k) = false) := by
  obtain ⟨hoff, hw, hone⟩ := pllLock_fld h
  have hlock := portMoves_putB (.sds q) d s (if h then fSDS_PLL_STAT_H_LOCK else fSDS_PLL_STAT_L_LOCK) false
  have hraise := portMoves_raise (.sds q) d (putB s (pSDS d q)
    (if h then fSDS_PLL_STAT_H_LOCK else fSDS_PLL_STAT_L_LOCK) false) 5
  have hmark := portMoves_pllMarked d q h true (raise (putB s (pSDS d q)
    (if h then fSDS_PLL_STAT_H_LOCK else fSDS_PLL_STAT_L_LOCK) false) (pSDS d q) 5)
  have hshape : Shaped (raise (putB s (pSDS d q) (if h then fSDS_PLL_STAT_H_LOCK else fSDS_PLL_STAT_L_LOCK) false)
      (pSDS d q) 5) := kept_raise shaped_closed _ _ _ (kept_putB shaped_closed _ _ _ _ hs)
  rw [exec_sdsPllUnlock hpage, answers_next]
  refine ⟨?_, ?_, ?_, fun k hmode => linkUp_pllServesAll d.2 h (j := ⟨4 * q + k, by omega⟩)
    (List.mem_ofFn.mpr ⟨k, rfl⟩) _ ?_⟩
  · rw [flag_congr (pllServesAll_leaves d.2 h q (by rw [hoff]; decide) _ _),
      hmark.flag d.2 (.sds q) (by rw [hoff]; simp +decide),
      hraise.flag d.2 (.sds q) (by rw [hoff]; simp +decide), flag_putB_same _ _ _ _ hw hone]
  · exact (congrArg (bitOf · 5) (rdN_congr (pllServesAll_leaves d.2 h q (by decide) _ _))).trans
      ((hmark.intRaw d.2 (.sds q) 5 (by simp +decide)).trans (PortPage.intRaw_raise (.sds q) d.2 (by decide) _))
  · rw [doubts_congr (pllServesAll_leaves d.2 h q (by decide) _ _), doubts_pllMarked hshape d.2, Bool.true_or]
  · rw [portMode, hmark.get d.2 (.mac _) (by simp +decide), hraise.get d.2 (.mac _) (by simp +decide),
      hlock.get d.2 (.mac _) (by rw [hoff]; simp +decide)]
    exact hmode

theorem sdsPllLock_shows {d : Fin 4} {q : Fin 2} {s : State} (hs : Shaped s) (hpage : pageOn s (pSDS d q) = true)
    (h : Bool) (hother : bitOf (pd s d).pllLost (2 * q + ofBool (!h)) = false) :
    Answers (exec (.sdsPllLock d q h) s) fun t =>
      flag t (pSDS d q) (if h then fSDS_PLL_STAT_H_LOCK else fSDS_PLL_STAT_L_LOCK) = true ∧
      doubts t (pSDS d q) 0 = false ∧
      OtherRegs s t [(pSDS d q).adr rSDS_PLL_STAT, (pSDS d q).adr rDOUBT_RAW] := by
  have hexec : exec (.sdsPllLock d q h) s = .next (pllMarked (putB s (pSDS d q)
      (if h then fSDS_PLL_STAT_H_LOCK else fSDS_PLL_STAT_L_LOCK) true) d q h false) := by
    simp only [exec, execSdsPllLock, hpage, if_true]
    rfl
  obtain ⟨hoff, hw, hone⟩ := pllLock_fld h
  have hlock := portMoves_putB (.sds q) d s (if h then fSDS_PLL_STAT_H_LOCK else fSDS_PLL_STAT_L_LOCK) true
  have hmark := portMoves_pllMarked d q h false (putB s (pSDS d q)
    (if h then fSDS_PLL_STAT_H_LOCK else fSDS_PLL_STAT_L_LOCK) true)
  rw [hoff] at hlock
  rw [hexec, answers_next]
  refine ⟨?_, ?_, hlock.andThen hmark⟩
  · rw [hmark.flag d.2 (.sds q) (by rw [hoff]; simp +decide), flag_putB_same _ _ _ _ hw hone]
  · rw [doubts_pllMarked (kept_putB shaped_closed _ _ _ _ hs) d.2, pd_of_ports (putB_ports _ _ _ _), hother,
      Bool.or_false]

/-! ### The end of a pause (R178) -/

/-- The clock goes on to an instant of the monotonic scale unless it has passed it. -/
theorem le_clk_advMono {e : Nat} (he : e * 65536 < 2 ^ 80) (s : State) : e * 65536 ≤ (advMono s e).clk.p.toNat := by
  rw [advMono, advP]
  split
  · rw [BitVec.toNat_ofNat, Nat.mod_eq_of_lt (by omega)]
  · omega

theorem pauseEnd_shows {d : Fin 4} {i : Fin 8} {e : Nat} {s : State} (hs : Shaped s)
    (hpause : (port s d i).pause = some e) :
    Answers (exec (.pauseEnd d i) s) fun t =>
      (port t d i).pause = none ∧ flag t (pMAC d i) fMAC_STAT_PAUSED = false ∧
      OtherRegs s t [(pMAC d i).adr rMAC_STAT] ∧ (e * 65536 < 2 ^ 80 → e * 65536 ≤ t.clk.p.toNat) := by
  have hexec : exec (.pauseEnd d i) s = .next (putB (updPort (advMono s e) d i fun p => { p with pause := none })
      (pMAC d i) fMAC_STAT_PAUSED false) := by
    simp only [exec, execPauseEnd, hpause]
  obtain ⟨c, hc⟩ := advMono_eq s e
  have hadv : PortMoves d [] s (advMono s e) := .of_regs (by rw [hc])
  have hshape : Shaped (advMono s e) := kept_advMono shaped_closed trivial s e hs
  rw [hexec, answers_next]
  refine ⟨?_, flag_putB_same _ _ _ _ (by decide) rfl, (hadv.andThen (portMoves_updPort _ _ _ _ _)).andThen
    (portMoves_putB (.mac i) d _ fMAC_STAT_PAUSED false), fun he => ?_⟩
  · rw [port_of_ports (putB_ports _ _ _ _), port_updPort_same hshape d.2 i.2]
  · rw [putB_clk, updPort_clk]
    exact le_clk_advMono he s

/-- Settles O16: each row in one theorem. -/
theorem portLinks : Obligations.PortLinks :=
  ⟨fun _ _ _ hpage hmode hdown hpll => linkUp_shows hpage hmode hdown hpll,
    fun _ _ block fec localFault _ hs hup => linkDown_shows hs hup block fec localFault,
    fun _ _ on _ hpage hmode => remoteFault_shows hpage hmode on,
    fun _ _ eye _ hpage => signalDetect_shows hpage eye,
    fun _ _ h _ hs hpage => sdsPllUnlock_shows hs hpage h,
    fun _ _ h _ hs hpage hother => sdsPllLock_shows hs hpage h hother,
    fun _ _ _ _ hs hpause => pauseEnd_shows hs hpause⟩

end Sys2Proof.Machine
end

section
/-! Module management of a quad (R175, R176): O17. -/

namespace Sys2Proof.Machine

/-! ### A transaction begins (R175) -/

/-- The fields of MM_CMD that a write of it stores. -/
def mmCommand (s : State) (p : Pg) (v : Nat) : State :=
  put (put (put (put s p fSDS_MM_CMD_SEL (fSDS_MM_CMD_SEL.of v)) p fSDS_MM_CMD_RW (fSDS_MM_CMD_RW.of v))
    p fSDS_MM_CMD_OFS (fSDS_MM_CMD_OFS.of v)) p fSDS_MM_CMD_LEN (fSDS_MM_CMD_LEN.of v)

/-- What a granted MM_CMD write leaves. -/
def mmIssued (s : State) (p : Pg) (v : Nat) : State :=
  putB (putB (putB (mmCommand s p v) p fSDS_MM_STAT_NACK false) p fSDS_MM_STAT_TIMEOUT false) p fSDS_MM_STAT_BUSY true

theorem exec_mmTransaction {r : Requester} {d : Fin 4} {q : Fin 2} {s : State}
    (hw : writable s r (pSDS d q) = true) (v : Word) :
    exec (.mmTransaction r d q v) s = .next (if flag s (pSDS d q) fSDS_MM_STAT_BUSY then raise s (pSDS d q) 1
      else mmIssued s (pSDS d q) v.toNat) := by
  simp only [exec, execMmTransaction, onWrite_writable hw]
  rfl

theorem mmIssued_shows (s : State) {d : Nat} (hd : d < 4) (q : Fin 2) (v : Nat) :
    let t := mmIssued s (pSDS d q) v
    flag t (pSDS d q) fSDS_MM_STAT_BUSY = true ∧ flag t (pSDS d q) fSDS_MM_STAT_NACK = false ∧
      flag t (pSDS d q) fSDS_MM_STAT_TIMEOUT = false ∧
      get t (pSDS d q) fSDS_MM_CMD_OFS = fSDS_MM_CMD_OFS.of v ∧
      get t (pSDS d q) fSDS_MM_CMD_LEN = fSDS_MM_CMD_LEN.of v ∧
      PortMoves d [(.sds q, rSDS_MM_CMD), (.sds q, rSDS_MM_STAT)] s t := by
  have hcmd : PortMoves d [(.sds q, rSDS_MM_CMD)] s (mmCommand s (pSDS d q) v) :=
    ((((portMoves_put (.sds q) d s fSDS_MM_CMD_SEL _).andThen (portMoves_put (.sds q) d _ fSDS_MM_CMD_RW _)).andThen
      (portMoves_put (.sds q) d _ fSDS_MM_CMD_OFS _)).andThen (portMoves_put (.sds q) d _ fSDS_MM_CMD_LEN _)).mono
      (by simp)
  have hstat : PortMoves d [(.sds q, rSDS_MM_STAT)] (mmCommand s (pSDS d q) v) (mmIssued s (pSDS d q) v) :=
    (((portMoves_putB (.sds q) d _ fSDS_MM_STAT_NACK false).andThen
      (portMoves_putB (.sds q) d _ fSDS_MM_STAT_TIMEOUT false)).andThen
      (portMoves_putB (.sds q) d _ fSDS_MM_STAT_BUSY true)).mono (by simp)
  refine ⟨flag_putB_same _ _ _ _ (by decide) rfl, ?_, ?_, ?_, ?_, hcmd.andThen hstat⟩
  · rw [mmIssued, flag_putB_beside (by decide), flag_putB_beside (by decide), flag_putB_same _ _ _ _ (by decide) rfl]
  · rw [mmIssued, flag_putB_beside (by decide), flag_putB_same _ _ _ _ (by decide) rfl]
  · exact (hstat.get hd (.sds q) (by simp +decide)).trans
      ((get_put_apart _ _ fSDS_MM_CMD_LEN fSDS_MM_CMD_OFS _ rfl (by decide)
      (by decide)).trans (get_put_lt _ _ fSDS_MM_CMD_OFS (by decide) (Nat.mod_lt _ (by decide))))
  · exact (hstat.get hd (.sds q) (by simp +decide)).trans (get_put_lt _ _ fSDS_MM_CMD_LEN (by decide)
      (Nat.mod_lt _ (by decide)))

theorem mmTransaction_starts {r : Requester} {d : Fin 4} {q : Fin 2} {s : State}
    (hw : writable s r (pSDS d q) = true) (hidle : flag s (pSDS d q) fSDS_MM_STAT_BUSY = false) (v : Word) :
    Answers (exec (.mmTransaction r d q v) s) fun t =>
      flag t (pSDS d q) fSDS_MM_STAT_BUSY = true ∧ flag t (pSDS d q) fSDS_MM_STAT_NACK = false ∧
      flag t (pSDS d q) fSDS_MM_STAT_TIMEOUT = false ∧
      get t (pSDS d q) fSDS_MM_CMD_OFS = fSDS_MM_CMD_OFS.of v.toNat ∧
      get t (pSDS d q) fSDS_MM_CMD_LEN = fSDS_MM_CMD_LEN.of v.toNat ∧
      OtherRegs s t [(pSDS d q).adr rSDS_MM_CMD, (pSDS d q).adr rSDS_MM_STAT] := by
  rw [exec_mmTransaction hw, hidle, if_neg Bool.false_ne_true, answers_next]
  exact mmIssued_shows s d.2 q v.toNat

theorem mmTransaction_busy {r : Requester} {d : Fin 4} {q : Fin 2} {s : State}
    (hw : writable s r (pSDS d q) = true) (hbusy : flag s (pSDS d q) fSDS_MM_STAT_BUSY = true) (v : Word) :
    Answers (exec (.mmTransaction r d q v) s) fun t =>
      intRaw t (pSDS d q) 1 = true ∧ OtherRegs s t [(pSDS d q).adr rINT_RAW] := by
  rw [exec_mmTransaction hw, hbusy, if_pos rfl, answers_next]
  exact ⟨PortPage.intRaw_raise (.sds q) d.2 (by decide) s, otherRegs_raise _ _ _⟩

/-! ### A transaction ends (R175) -/

/-- The registers that hold what a read transaction brought. -/
theorem rdN_mmData (s : State) (p : Pg) (old data : Nat) (h : data < 2 ^ 64) :
    let t := wr64 s p rSDS_MM_DATA0 rSDS_MM_DATA1 (old / 256 ^ 8 * 256 ^ 8 + data % 256 ^ 8)
    rdN t p rSDS_MM_DATA0 = data % 2 ^ 32 ∧ rdN t p rSDS_MM_DATA1 = data / 2 ^ 32 := by
  constructor
  · rw [wr64, rdN_wrN_ne _ _ _ _ _ _ (p.adr_ne (by decide)), rdN_wrN_same]
    omega
  · rw [wr64, rdN_wrN_same]
    omega

/-- The end of a transaction without a fault. -/
theorem mmEnded_shows (s : State) {d : Nat} (hd : d < 4) (q : Fin 2) :
    let t := raise (putB s (pSDS d q) fSDS_MM_STAT_BUSY false) (pSDS d q) 0
    flag t (pSDS d q) fSDS_MM_STAT_BUSY = false ∧ intRaw t (pSDS d q) 0 = true ∧
      PortMoves d [(.sds q, rSDS_MM_STAT), (.sds q, rINT_RAW)] s t := by
  have hstat := portMoves_putB (.sds q) d s fSDS_MM_STAT_BUSY false
  have hraise := portMoves_raise (.sds q) d (putB s (pSDS d q) fSDS_MM_STAT_BUSY false) 0
  refine ⟨?_, PortPage.intRaw_raise (.sds q) hd (by decide) _, hstat.andThen hraise⟩
  rw [hraise.flag hd (.sds q) (by simp +decide), flag_putB_same _ _ _ _ (by decide) rfl]

theorem mmDone_good {d : Fin 4} {q : Fin 2} {s : State} (hbusy : flag s (pSDS d q) fSDS_MM_STAT_BUSY = true)
    (data : BitVec 64) :
    Answers (exec (.mmDone d q 0 data) s) fun t =>
      flag t (pSDS d q) fSDS_MM_STAT_BUSY = false ∧ intRaw t (pSDS d q) 0 = true ∧
      (flag s (pSDS d q) fSDS_MM_CMD_RW = false → mmLen s d q = 8 →
        rdN t (pSDS d q) rSDS_MM_DATA0 = data.toNat % 2 ^ 32 ∧
        rdN t (pSDS d q) rSDS_MM_DATA1 = data.toNat / 2 ^ 32) := by
  simp only [exec, execMmDone, hbusy, Bool.not_true, Bool.false_eq_true, if_false, Fin.val_zero, ne_eq,
    not_true_eq_false, answers_next]
  obtain ⟨hidle, hint, hends⟩ := mmEnded_shows (if flag s (pSDS d q) fSDS_MM_CMD_RW then s else
    wr64 s (pSDS d q) rSDS_MM_DATA0 rSDS_MM_DATA1 (rd64 s (pSDS d q) rSDS_MM_DATA0 rSDS_MM_DATA1 / 256 ^ mmLen s d q *
      256 ^ mmLen s d q + data.toNat % 256 ^ mmLen s d q)) d.2 q
  refine ⟨hidle, hint, fun hread hlen => ?_⟩
  rw [hends.rdN d.2 (.sds q) (by simp +decide), hends.rdN d.2 (.sds q) (by simp +decide), hread, hlen,
    if_neg Bool.false_ne_true]
  exact rdN_mmData s _ _ _ data.isLt

/-- The flag that shows how a transaction failed. -/
theorem mmFault_fld (timeout : Bool) :
    let f := if timeout then fSDS_MM_STAT_TIMEOUT else fSDS_MM_STAT_NACK
    f.off = rSDS_MM_STAT ∧ f.lo + f.w ≤ 32 ∧ f.w = 1 ∧ 1 ≤ f.lo := by
  cases timeout <;> decide

theorem mmFail_shows (s : State) {d : Nat} (hd : d < 4) (q : Fin 2) (timeout : Bool) :
    let t := mmFail s d q timeout
    flag t (pSDS d q) fSDS_MM_STAT_BUSY = false ∧ intRaw t (pSDS d q) 1 = true ∧
      flag t (pSDS d q) (if timeout then fSDS_MM_STAT_TIMEOUT else fSDS_MM_STAT_NACK) = true ∧
      rdN t (pSDS d q) rSDS_MM_NACK_CNT = min (rdN s (pSDS d q) rSDS_MM_NACK_CNT + 1) 0xFFFFFFFF ∧
      PortMoves d [(.sds q, rSDS_MM_STAT), (.sds q, rSDS_MM_NACK_CNT), (.sds q, rINT_RAW)] s t := by
  obtain ⟨hoff, hw, hone, hlo⟩ := mmFault_fld timeout
  have hidle := portMoves_putB (.sds q) d s fSDS_MM_STAT_BUSY false
  have hfault := portMoves_putB (.sds q) d (putB s (pSDS d q) fSDS_MM_STAT_BUSY false)
    (if timeout then fSDS_MM_STAT_TIMEOUT else fSDS_MM_STAT_NACK) true
  rw [hoff] at hfault
  have hcount := portMoves_bump (.sds q) d (putB (putB s (pSDS d q) fSDS_MM_STAT_BUSY false) (pSDS d q)
    (if timeout then fSDS_MM_STAT_TIMEOUT else fSDS_MM_STAT_NACK) true) rSDS_MM_NACK_CNT
  have hraise := portMoves_raise (.sds q) d (bump (putB (putB s (pSDS d q) fSDS_MM_STAT_BUSY false) (pSDS d q)
    (if timeout then fSDS_MM_STAT_TIMEOUT else fSDS_MM_STAT_NACK) true) (pSDS d q) rSDS_MM_NACK_CNT) 1
  have hstat := hidle.andThen hfault
  refine ⟨?_, PortPage.intRaw_raise (.sds q) hd (by decide) _, ?_, ?_,
    ((hstat.andThen hcount).andThen hraise).mono (by simp)⟩
  · rw [mmFail, hraise.flag hd (.sds q) (by simp +decide), hcount.flag hd (.sds q) (by simp +decide),
      flag_putB_apart _ _
      (if timeout then fSDS_MM_STAT_TIMEOUT else fSDS_MM_STAT_NACK) fSDS_MM_STAT_BUSY _ hoff.symm (by decide)
      (.inl hlo), flag_putB_same _ _ _ _ (by decide) rfl]
  · rw [mmFail, hraise.flag hd (.sds q) (by rw [hoff]; simp +decide),
      hcount.flag hd (.sds q) (by rw [hoff]; simp +decide), flag_putB_same _ _ _ _ hw hone]
  · rw [mmFail, hraise.rdN hd (.sds q) (by simp +decide), rdN_bump_same, hstat.rdN hd (.sds q) (by simp +decide)]

theorem mmDone_fails {d : Fin 4} {q : Fin 2} {s : State} (hbusy : flag s (pSDS d q) fSDS_MM_STAT_BUSY = true)
    {how : Fin 3} (hhow : how.val ≠ 0) (data : BitVec 64) :
    Answers (exec (.mmDone d q how data) s) fun t =>
      flag t (pSDS d q) fSDS_MM_STAT_BUSY = false ∧ intRaw t (pSDS d q) 1 = true ∧
      flag t (pSDS d q) (if how = 2 then fSDS_MM_STAT_TIMEOUT else fSDS_MM_STAT_NACK) = true ∧
      rdN t (pSDS d q) rSDS_MM_NACK_CNT = min (rdN s (pSDS d q) rSDS_MM_NACK_CNT + 1) 0xFFFFFFFF ∧
      OtherRegs s t [(pSDS d q).adr rSDS_MM_STAT, (pSDS d q).adr rSDS_MM_NACK_CNT, (pSDS d q).adr rINT_RAW] := by
  have hexec : exec (.mmDone d q how data) s = .next (mmFail s d q (how == 2)) := by
    simp only [exec, execMmDone, hbusy, Bool.not_true, Bool.false_eq_true, if_false, hhow, ne_eq, not_false_eq_true,
      if_true]
  obtain ⟨hidle, hint, hfault, hcount, hregs⟩ := mmFail_shows s d.2 q (how == 2)
  rw [hexec, answers_next]
  refine ⟨hidle, hint, ?_, hcount, hregs⟩
  simpa only [beq_iff_eq] using hfault

/-! ### The module's pins (R176) -/

/-- A module comes or goes. -/
def modTurned (s : State) (p : Pg) (present : Bool) (bit : Nat) : State :=
  raise (putB s p fSDS_MM_STAT_PRES present) p bit

theorem modTurned_shows (s : State) {d : Nat} (hd : d < 4) (q : Fin 2) (present : Bool) {bit : Nat} (hbit : bit < 32) :
    let t := modTurned s (pSDS d q) present bit
    flag t (pSDS d q) fSDS_MM_STAT_PRES = present ∧
      flag t (pSDS d q) fSDS_MM_STAT_BUSY = flag s (pSDS d q) fSDS_MM_STAT_BUSY ∧ intRaw t (pSDS d q) bit = true ∧
      PortMoves d [(.sds q, rSDS_MM_STAT), (.sds q, rINT_RAW)] s t := by
  refine ⟨?_, ?_, PortPage.intRaw_raise (.sds q) hd hbit _,
    (portMoves_putB (.sds q) d s fSDS_MM_STAT_PRES present).andThen (portMoves_raise (.sds q) d _ bit)⟩
  · rw [modTurned, (portMoves_raise (.sds q) d _ bit).flag hd (.sds q) (by simp +decide),
      flag_putB_same _ _ _ _ (by decide) rfl]
  · rw [modTurned, (portMoves_raise (.sds q) d _ bit).flag hd (.sds q) (by simp +decide), flag_putB_beside (by decide)]

theorem modIn_shows {d : Fin 4} {q : Fin 2} {s : State} (hpage : pageOn s (pSDS d q) = true)
    (hout : flag s (pSDS d q) fSDS_MM_STAT_PRES = false) :
    Answers (exec (.modIn d q) s) fun t => flag t (pSDS d q) fSDS_MM_STAT_PRES = true ∧
      intRaw t (pSDS d q) 2 = true ∧ OtherRegs s t [(pSDS d q).adr rSDS_MM_STAT, (pSDS d q).adr rINT_RAW] := by
  have hexec : exec (.modIn d q) s = .next (modTurned s (pSDS d q) true 2) := by
    simp only [exec, execModIn, hpage, hout, Bool.not_false, Bool.and_self, if_true]
    rfl
  obtain ⟨hpres, -, hint, hregs⟩ := modTurned_shows s d.2 q true (bit := 2) (by decide)
  rw [hexec, answers_next]
  exact ⟨hpres, hint, hregs⟩

/-- A transaction that fails leaves the presence of the module and its interrupt. -/
theorem mmFail_leaves (s : State) {d : Nat} (hd : d < 4) (q : Fin 2) :
    flag (mmFail s d q false) (pSDS d q) fSDS_MM_STAT_PRES = flag s (pSDS d q) fSDS_MM_STAT_PRES ∧
      intRaw (mmFail s d q false) (pSDS d q) 3 = intRaw s (pSDS d q) 3 := by
  constructor
  · rw [mmFail, (portMoves_raise (.sds q) d _ 1).flag hd (.sds q) (by simp +decide),
      (portMoves_bump (.sds q) d _ rSDS_MM_NACK_CNT).flag hd (.sds q) (by simp +decide), if_neg Bool.false_ne_true,
      flag_putB_beside (by decide), flag_putB_beside (by decide)]
  · rw [mmFail, PortPage.intRaw_raise_ne (.sds q) hd (by decide) (by decide),
      (portMoves_bump (.sds q) d _ rSDS_MM_NACK_CNT).intRaw hd (.sds q) _ (by simp +decide), if_neg Bool.false_ne_true,
      (portMoves_putB (.sds q) d _ fSDS_MM_STAT_NACK true).intRaw hd (.sds q) _ (by simp +decide),
      (portMoves_putB (.sds q) d _ fSDS_MM_STAT_BUSY false).intRaw hd (.sds q) _ (by simp +decide)]

theorem modOut_shows {d : Fin 4} {q : Fin 2} {s : State} (hpage : pageOn s (pSDS d q) = true)
    (hin : flag s (pSDS d q) fSDS_MM_STAT_PRES = true) :
    Answers (exec (.modOut d q) s) fun t => flag t (pSDS d q) fSDS_MM_STAT_PRES = false ∧
      flag t (pSDS d q) fSDS_MM_STAT_BUSY = false ∧ intRaw t (pSDS d q) 3 = true ∧
      (flag s (pSDS d q) fSDS_MM_STAT_BUSY = true → flag t (pSDS d q) fSDS_MM_STAT_NACK = true) := by
  have hexec : exec (.modOut d q) s = .next (if flag (modTurned s (pSDS d q) false 3) (pSDS d q) fSDS_MM_STAT_BUSY then
      mmFail (modTurned s (pSDS d q) false 3) d q false else modTurned s (pSDS d q) false 3) := by
    simp only [exec, execModOut, hpage, hin, Bool.and_self, if_true]
    rfl
  obtain ⟨hpres, hbusy, hint, -⟩ := modTurned_shows s d.2 q false (bit := 3) (by decide)
  obtain ⟨hidle, -, hnack, -⟩ := mmFail_shows (modTurned s (pSDS d q) false 3) d.2 q false
  obtain ⟨hpres', hint'⟩ := mmFail_leaves (modTurned s (pSDS d q) false 3) d.2 q
  rw [hexec, answers_next, hbusy]
  split
  case isTrue => exact ⟨hpres'.trans hpres, hidle, hint'.trans hint, fun _ => hnack⟩
  case isFalse hno => exact ⟨hpres, hbusy.trans (Bool.eq_false_iff.mpr hno), hint, fun h => absurd h hno⟩

theorem modInt_shows {d : Fin 4} {q : Fin 2} {s : State} (hpage : pageOn s (pSDS d q) = true) (low : Bool) :
    Answers (exec (.modInt d q low) s) fun t => flag t (pSDS d q) fSDS_MM_STAT_MINT = low ∧
      (low = true → flag s (pSDS d q) fSDS_MM_STAT_MINT = false → intRaw t (pSDS d q) 4 = true) ∧
      OtherRegs s t [(pSDS d q).adr rSDS_MM_STAT, (pSDS d q).adr rINT_RAW] := by
  have hexec : exec (.modInt d q low) s = .next (raiseIf (putB s (pSDS d q) fSDS_MM_STAT_MINT low)
      (low && !flag s (pSDS d q) fSDS_MM_STAT_MINT) (pSDS d q) 4) := by
    simp only [exec, execModInt, hpage, if_true]
  have hmint := portMoves_putB (.sds q) d s fSDS_MM_STAT_MINT low
  have hraise := portMoves_raiseIf (.sds q) d (putB s (pSDS d q) fSDS_MM_STAT_MINT low)
    (low && !flag s (pSDS d q) fSDS_MM_STAT_MINT) 4
  rw [hexec, answers_next]
  refine ⟨?_, fun hlow hhigh => ?_, hmint.andThen hraise⟩
  · rw [hraise.flag d.2 (.sds q) (by simp +decide), flag_putB_same _ _ _ _ (by decide) rfl]
  · rw [hlow, hhigh, Bool.not_false, Bool.and_self, raiseIf, if_pos rfl]
    exact PortPage.intRaw_raise (.sds q) d.2 (by decide) _

/-- Settles O17: each row in one theorem. -/
theorem moduleManagement : Obligations.ModuleManagement :=
  ⟨fun _ _ _ v _ hw hidle => mmTransaction_starts hw hidle v,
    fun _ _ _ v _ hw hbusy => mmTransaction_busy hw hbusy v,
    fun _ _ data _ hbusy => mmDone_good hbusy data,
    fun _ _ _ data _ hbusy hhow => mmDone_fails hbusy hhow data,
    fun _ _ _ hpage hout => modIn_shows hpage hout,
    fun _ _ _ hpage hin => modOut_shows hpage hin,
    fun _ _ low _ hpage => modInt_shows hpage low⟩

end Sys2Proof.Machine
end

section
/-! The end of a port's calibration while a review waits for it (R182, R391): O18. -/

namespace Sys2Proof.Machine

theorem portMoves_putS (x : PortPage) (d : Nat) (s : State) (f : Fld) (v : Int) :
    PortMoves d [(x, f.off)] s (putS s (x.pg d) f v) := portMoves_put x d s f _

theorem portMoves_formDelays (d : Nat) (i : Fin 8) (s : State) :
    PortMoves d [(.tsu i, rTSU_TX_DLY), (.tsu i, rTSU_RX_DLY)] s (formDelays s d i) :=
  .ite (.refl _ _ _) ((portMoves_put (.tsu i) d s fTSU_TX_DLY_PS _).andThen
    (portMoves_put (.tsu i) d _ fTSU_RX_DLY_PS _))

/-- The registers that the end of a calibration moves. -/
@[simp] def calDoneRegs (i : Fin 8) : List (PortPage × Nat) :=
  [(.tsu i, rTSU_CAL_SER), (.tsu i, rTSU_TX_DLY), (.tsu i, rTSU_RX_DLY), (.tsu i, rTSU_STAT), (.tsu i, rINT_RAW),
    (.tsu i, rDOUBT_RAW), (.lch, rLCH_STAT)]

theorem portMoves_calDone (d : Nat) (i : Fin 8) (ser : Nat) (s : State) :
    PortMoves d (calDoneRegs i) s (calDone s d i ser) :=
  .ite ((((((((portMoves_updPort d s d i _).andThen (portMoves_put (.tsu i) d _ fTSU_CAL_SER_PS _)).andThen
    (portMoves_formDelays d i _)).andThen (portMoves_putB (.tsu i) d _ fTSU_STAT_CAL_OK true)).andThen
    (portMoves_raise (.tsu i) d _ 1)).andThen (portMoves_watchCal d i _)).andThen (portMoves_showTimed d _)).mono
    (by simp)) (.refl _ _ _)

theorem portMoves_updReview (d : Nat) (s : State) (f : Review → Review) : PortMoves d [] s (updReview s f) :=
  .of_regs rfl

theorem portMoves_reviewTrim (d : Nat) (i : Fin 8) (s : State) :
    PortMoves d [(.tsu i, rTSU_AGE_TRIM)] s (reviewTrim s d i) :=
  ((((portMoves_putS (.tsu i) d s fTSU_AGE_TRIM_TX _).andThen
    (portMoves_putS (.tsu i) d _ fTSU_AGE_TRIM_RX _)).andThen (portMoves_updPd d _ d _)).andThen
    (portMoves_updReview d _ _)).mono (by simp)

theorem calDone_leaves (s : State) (d i ser : Nat) : Leaves (· = Part.ports) s (calDone s d i ser) :=
  kept_calDone (leaves_closed (· = Part.ports) s) rfl s d i ser (leaves_refl _ s)

theorem reviewTrim_leaves (s : State) (d i : Nat) :
    Leaves (fun x => x = Part.ports ∨ x = Part.age) s (reviewTrim s d i) :=
  kept_reviewTrim (leaves_closed (fun x => x = Part.ports ∨ x = Part.age) s) (.inl rfl) (.inr rfl) s d i
    (leaves_refl _ s)

theorem exec_tsuCalDone (d : Fin 4) (i : Fin 8) (ser : Nat) (s : State) :
    exec (.tsuCalDone d i ser) s = .next (portCalDone s d i ser) := rfl

/-- A calibration that begins runs. -/
theorem cal_startCal {s : State} (hs : Shaped s) {d : Nat} (hd : d < 4) (i : Fin 8) (hon : pageOn s (pTSU d i) = true)
    (hen : pageEn s (pTSU d i) = true) : (port (startCal s d i) d i).cal = true := by
  have hshape : Shaped (dropCal s d i) := kept_dropCal shaped_closed s d i hs
  rw [startCal, hon, hen, Bool.and_self, if_pos rfl, port_of_ports (showTimed_ports _ _),
    port_watchCal Port.cal (fun _ _ => rfl), port_updPort_same hshape hd i.2]

/-- The first port that can calibrate does. -/
theorem cal_reviewCal {s : State} (hs : Shaped s) {d : Nat} (hd : d < 4) (i : Fin 8) (hon : pageOn s (pTSU d i) = true)
    (hen : pageEn s (pTSU d i) = true) (l : List Nat) : (port (reviewCal s ((8 * d + i) :: l)) d i).cal = true := by
  have hcal : (port (updReview (startCal s d i) fun r => { r with ports := (8 * d + i) :: l }) d i).cal = true :=
    cal_startCal hs hd i hon hen
  have hdie : (8 * d + i.val) / 8 = d := by omega
  have hport : (8 * d + i.val) % 8 = i := by omega
  rw [reviewCal, hdie, hport]
  simp only [hcal, if_true]

/-- A review whose list names a port twice in a row has it calibrate again as soon as its calibration is done. -/
theorem cal_portCalDone {s : State} (hs : Shaped s) {d : Nat} (hd : d < 4) (i : Fin 8) (ser : Nat) {r : Review}
    (hrun : s.age.run = some r) (hports : r.ports = [8 * d + i, 8 * d + i]) (hon : pageOn s (pTSU d i) = true)
    (hen : pageEn s (pTSU d i) = true) : (port (portCalDone s d i ser) d i).cal = true := by
  have hage : (calDone s d i ser).age = s.age := (calDone_leaves s d i ser .age).resolve_left (by decide)
  have hpwr : (calDone s d i ser).pwr = s.pwr := (calDone_leaves s d i ser .pwr).resolve_left (by decide)
  have hmoves := (portMoves_calDone d i ser s).andThen (portMoves_reviewTrim d i _)
  have hshape : Shaped (reviewTrim (calDone s d i ser) d i) :=
    kept_reviewTrim shaped_closed trivial trivial _ d i (kept_calDone shaped_closed trivial s d i ser hs)
  have hpwr' : (reviewTrim (calDone s d i ser) d i).pwr = s.pwr :=
    ((reviewTrim_leaves _ d i .pwr).resolve_left (by decide)).trans hpwr
  have htrim : portCalDone s d i ser = reviewCal (reviewTrim (calDone s d i ser) d i) [8 * d + i.val] := by
    simp only [portCalDone, reviewCalDone, hage, hrun, hports, List.head?_cons, beq_self_eq_true, if_true,
      List.drop_succ_cons, List.drop_zero]
  rw [htrim]
  refine cal_reviewCal hshape hd i ((pageOn_of_pwr hpwr' _).trans hon) ?_ []
  rw [pageEn, pageRetained_of_pwr hpwr', hmoves.flag hd (.tsu i) (by simp +decide)]
  exact hen

/-- A state in which a review waits twice for port 0 of Port die 0. -/
def twiceWaited : State :=
  { Tests.fl [(pTSU 0 0, fPAGE_CTRL_EN, 1)] State.reset with
    ports := upd State.reset.ports 0 fun x => { x with ports := upd x.ports 0 fun y => { y with cal := true } }
    age := { State.reset.age with run := some ⟨0, [], [], true, [0, 0], 0, 0, []⟩ } }

/-- Refutes O18: in `twiceWaited` the review that waits for the port names it twice, so that its calibration runs again
when TSU_CAL_DONE has been taken. -/
theorem not_timestampUnit : ¬ Obligations.TimestampUnit := by
  intro h
  obtain ⟨-, -, hdone, -⟩ := h
  have hs : Shaped twiceWaited := Tests.shaped_of (by decide +kernel)
  have hcal : (port (portCalDone twiceWaited 0 0 0) 0 0).cal = true :=
    cal_portCalDone hs (by decide) 0 0 rfl rfl (by decide +kernel) (by decide +kernel)
  have hdone := hdone 0 0 0 twiceWaited hs (by decide +kernel) (by decide +kernel) (by decide +kernel)
  rw [exec_tsuCalDone, answers_next] at hdone
  obtain ⟨hno, -⟩ := hdone
  exact Bool.false_ne_true (hno.symm.trans hcal)

end Sys2Proof.Machine
end

section
/-! The booking of a launch instant (R183, R185): what BOOKING grants and refuses. -/

namespace Sys2Proof.Machine

/-! ### The request that is judged -/

/-- A builder has one of five places in the round robin. -/
theorem Builder.source_lt (b : Builder) : b.source < 5 := by
  cases b
  case soft f =>
    simp only [source]
    split <;> decide
  all_goals simp [source]

/-- The source of the only request that waits is the next. -/
theorem nextSource_one {p : Port} {a : Ask} (h : p.asks = [a]) : nextSource p = some a.by'.source := by
  have hlt := a.by'.source_lt
  have hfound : (nextSource p).isSome := by
    rw [nextSource, List.find?_isSome]
    refine ⟨a.by'.source, List.mem_map.mpr ⟨(a.by'.source + 5 - (p.lastAsk + 1) % 5) % 5, ?_, by omega⟩, by simp [h]⟩
    exact List.mem_range.mpr (Nat.mod_lt _ (by decide))
  obtain ⟨n, hn⟩ := Option.isSome_iff_exists.mp hfound
  have hsource := List.find?_some hn
  rw [h, List.any_cons, List.any_nil, Bool.or_false, beq_iff_eq] at hsource
  rw [hn, hsource]

/-- The request of a source leaves those that wait. -/
def askTaken (s : State) (d i n : Nat) : State :=
  updPort s d i fun p => { p with asks := p.asks.eraseP fun x => Builder.source x.by' == n, lastAsk := n }

theorem exec_booking {d : Fin 4} {i : Fin 8} {a : Ask} {s : State} (h : (port s d i).asks = [a]) (grid : Nat) :
    exec (.booking d i grid) s = .next (grantAsk (askTaken s d i a.by'.source) d i grid a) := by
  simp only [exec, execBooking, nextSource_one h, h, List.find?_cons, beq_self_eq_true]
  rfl

theorem asks_askTaken {s : State} (hs : Shaped s) {d i : Nat} (hd : d < 4) (hi : i < 8) {a : Ask}
    (h : (port s d i).asks = [a]) : (port (askTaken s d i a.by'.source) d i).asks = [] := by
  rw [askTaken, port_updPort_same hs hd hi]
  simp [h]

/-! ### The judgement -/

section

variable {f : Port → Port} (hbooks : ∀ p, (f p).books = p.books) (hocc : ∀ p, (f p).occ = p.occ)
  (hdeficit : ∀ p, (f p).deficit = p.deficit)
include hbooks hocc

theorem busyEnd_updPort (s : State) (d i : Nat) : busyEnd (updPort s d i f) d i = busyEnd s d i := by
  simp only [busyEnd, port_updPort_keeps Port.books hbooks, port_updPort_keeps Port.occ hocc]

include hdeficit

theorem bookWhy_updPort (s : State) (d i now e grid : Nat) (at' : Bool) (len : Nat) :
    bookWhy (updPort s d i f) d i now e grid at' len = bookWhy s d i now e grid at' len := by
  simp only [bookWhy, busyIn, occupancy, busyEnd_updPort hbooks hocc, port_updPort_keeps Port.books hbooks,
    port_updPort_keeps Port.occ hocc, port_updPort_keeps Port.deficit hdeficit]
  rfl

end

theorem bookWhy_askTaken (s : State) (d i n now e grid : Nat) (at' : Bool) (len : Nat) :
    bookWhy (askTaken s d i n) d i now e grid at' len = bookWhy s d i now e grid at' len :=
  bookWhy_updPort (by exact fun _ => rfl) (by exact fun _ => rfl) (by exact fun _ => rfl) s d i now e grid at' len

/-- A port that is not timed-ready is granted nothing (R185). -/
theorem bookWhy_unready {s : State} {d i : Nat} (h : timedReady s d i = false) (now e grid : Nat) (at' : Bool)
    (len : Nat) : bookWhy s d i now e grid at' len = 6 := by
  simp only [bookWhy, h, Bool.not_false, Bool.true_or, if_true]

/-! ### A granted booking is filled -/

theorem length_insertBook (b : Booking) (l : List Booking) : (insertBook b l).length = l.length + 1 := by
  induction l with
  | nil => rfl
  | cons x t ih =>
    rw [insertBook]
    split
    · rfl
    · rw [List.length_cons, ih, List.length_cons]

theorem mem_insertBook (b : Booking) (l : List Booking) : b ∈ insertBook b l := by
  induction l with
  | nil => exact List.mem_singleton_self b
  | cons x t ih =>
    rw [insertBook]
    split
    · exact List.mem_cons_self
    · exact List.mem_cons_of_mem x ih

/-- The tiles of a frame touch no port. -/
theorem port_writeTiles (s : State) (d kind n e j : Nat) : port (writeTiles s d kind n).1 e j = port s e j := by
  rw [writeTiles]
  split
  · rfl
  · split
    · rfl
    · simp only
      split
      · rw [port_of_ports (putB_ports _ _ _ _), port_updPd (by exact fun _ => rfl),
          port_of_ports (bumpBy_ports _ _ _ _)]
      · rw [port_updPd (by exact fun _ => rfl), port_of_ports (bumpBy_ports _ _ _ _)]

/-- A booking with its finished frame, where it has the number. -/
def Booking.filled (no : Nat) (frame : List Byte) (ready : Nat) (bad : Bool) (b : Booking) : Booking :=
  if b.no = no then { b with frame := some frame, ready := ready, bad := b.bad || bad } else b

/-- What a booking was asked for stays when its frame comes. -/
def SameAsk (x y : Booking) : Prop := y.by' = x.by' ∧ y.len = x.len ∧ y.l = x.l

theorem sameAsk_filled (no : Nat) (frame : List Byte) (ready : Nat) (bad : Bool) (b : Booking) :
    SameAsk b (b.filled no frame ready bad) := by
  rw [Booking.filled]
  split
  · exact ⟨rfl, rfl, rfl⟩
  · exact ⟨rfl, rfl, rfl⟩

theorem finishBook_books {s : State} (hs : Shaped s) {d i : Nat} (hd : d < 4) (hi : i < 8) (no : Nat)
    (frame : List Byte) (post : Nat) :
    ∃ g : Booking → Booking, (∀ x, SameAsk x (g x)) ∧
      port (finishBook s d i no frame post) d i = { port s d i with books := (port s d i).books.map g } := by
  have hshape : Shaped (writeTiles s d 0 (packetTiles frame)).1 := kept_writeTiles shaped_closed trivial s _ _ _ hs
  refine ⟨Booking.filled no frame (nowP s d + post * 65536) (writeTiles s d 0 (packetTiles frame)).2,
    sameAsk_filled _ _ _ _, ?_⟩
  rw [finishBook, updBook, port_updPort_same hshape hd hi, port_writeTiles]
  rfl

theorem fillBook_books {s : State} (hs : Shaped s) {d i : Nat} (hd : d < 4) (hi : i < 8) (b : Booking) :
    ∃ g : Booking → Booking, (∀ x, SameAsk x (g x)) ∧
      port (fillBook s d i b) d i = { port s d i with books := (port s d i).books.map g } := by
  rw [fillBook]
  split
  · exact ⟨id, fun _ => ⟨rfl, rfl, rfl⟩, by simp⟩
  · exact finishBook_books hs hd hi _ _ _

/-! ### BOOKING (R183, R185) -/

/-- The launch instant of a request: the first grid position not before its earliest instant and the occupancies. -/
def grantedAt (s : State) (d i grid : Nat) (a : Ask) : Nat :=
  (if a.at' then a.e else max a.e (busyEnd s d i)) + gridWait s d i grid

/-- The booking that a request is granted. -/
def grantedBook (s : State) (d i grid : Nat) (a : Ask) : State × Booking :=
  grantBook s d i a.e grid a.at' a.by' a.len (askLead s d a.by') false

theorem grantAsk_granted {s : State} {d i grid : Nat} {a : Ask}
    (h : bookWhy s d i (nowP s d) a.e grid a.at' a.len = 0) :
    grantAsk s d i grid a = fillBook (grantedBook s d i grid a).1 d i (grantedBook s d i grid a).2 := by
  simp only [grantAsk, book, h, if_true, grantedBook]

theorem grantedBook_shows {s : State} (hs : Shaped s) {d i : Nat} (hd : d < 4) (hi : i < 8) (grid : Nat) (a : Ask) :
    let r := grantedBook s d i grid a
    (port r.1 d i).asks = (port s d i).asks ∧ (port r.1 d i).books = insertBook r.2 (port s d i).books ∧
      r.2.by' = a.by' ∧ r.2.len = a.len ∧ r.2.l = grantedAt s d i grid a := by
  have hshape : Shaped (updPd s d fun x => { x with bookNo := x.bookNo + 1 }) :=
    kept_updPd shaped_closed trivial s d _ (fun _ => fits_same _ _) hs
  have hport : port (grantedBook s d i grid a).1 d i = { port s d i with
      books := insertBook (grantedBook s d i grid a).2 (port s d i).books
      deficit := (occupancy s d i (grantedAt s d i grid a) a.len).2 } := by
    rw [grantedBook, grantBook, port_updPort_same hshape hd hi, port_updPd (by exact fun _ => rfl)]
    rfl
  exact ⟨(congrArg Port.asks hport).trans rfl, (congrArg Port.books hport).trans rfl, rfl, rfl, rfl⟩

theorem grantAsk_leaves (s : State) (d i grid : Nat) (a : Ask) : Leaves dropParts s (grantAsk s d i grid a) :=
  kept_grantAsk (leaves_closed dropParts s) (.inl rfl) (.inr (.inl rfl)) (.inr (.inr rfl)) s d i grid a
    (leaves_refl _ s)

theorem booking_granted {d : Fin 4} {i : Fin 8} {grid : Nat} {a : Ask} {s : State} (hs : Shaped s)
    (hasks : (port s d i).asks = [a]) (hwhy : bookWhy s d i (nowP s d) a.e grid a.at' a.len = 0) :
    Answers (exec (.booking d i grid) s) fun t =>
      (port t d i).asks = [] ∧ (port t d i).books.length = (port s d i).books.length + 1 ∧
      (∃ b ∈ (port t d i).books, b.by' = a.by' ∧ b.len = a.len ∧
        b.l = (if a.at' then a.e else max a.e (busyEnd s d i)) + gridWait s d i grid) ∧ t.clk = s.clk := by
  have htaken : Shaped (askTaken s d i a.by'.source) := hs.updPort d i _
  have hbooks : (port (askTaken s d i a.by'.source) d i).books = (port s d i).books :=
    port_updPort_keeps Port.books (by exact fun _ => rfl) s d i d i
  have hat : grantedAt (askTaken s d i a.by'.source) d i grid a = grantedAt s d i grid a := by
    rw [grantedAt, askTaken, busyEnd_updPort (by exact fun _ => rfl) (by exact fun _ => rfl)]
    rfl
  obtain ⟨hgasks, hgbooks, hby, hlen, hl⟩ := grantedBook_shows htaken d.2 i.2 grid a
  have hshape : Shaped (grantedBook (askTaken s d i a.by'.source) d i grid a).1 :=
    kept_grantBook shaped_closed trivial _ d i _ _ _ _ _ _ _ htaken
  obtain ⟨g, hg, hfill⟩ := fillBook_books hshape d.2 i.2 (grantedBook (askTaken s d i a.by'.source) d i grid a).2
  have hclk := (grantAsk_leaves (askTaken s d i a.by'.source) d i grid a .clk).resolve_left (by simp [dropParts])
  rw [exec_booking hasks, answers_next]
  refine ⟨?_, ?_, ?_, hclk⟩
  all_goals rw [grantAsk_granted ((bookWhy_askTaken _ _ _ _ _ _ _ _ _).trans hwhy), hfill]
  · exact hgasks.trans (asks_askTaken hs d.2 i.2 hasks)
  · rw [List.length_map, hgbooks, length_insertBook, hbooks]
  · obtain ⟨hgby, hglen, hgl⟩ := hg (grantedBook (askTaken s d i a.by'.source) d i grid a).2
    exact ⟨_, List.mem_map_of_mem (hgbooks ▸ mem_insertBook _ _), hgby.trans hby, hglen.trans hlen,
      hgl.trans (hl.trans hat)⟩

/-- A refusal under R185 is counted with INT_RAW[2]. -/
def rejected (s : State) (d : Nat) : State := raise (bump s (pLCH d) rLCH_BOOK_REJ_CNT) (pLCH d) 2

/-- What the refusal of a request for want of readiness shows: the port's queues, INT_RAW[2] and the count. -/
def ShowsRejected (s t : State) (d i : Nat) : Prop :=
  (port t d i).asks = (port s d i).asks ∧ (port t d i).books = (port s d i).books ∧ intRaw t (pLCH d) 2 = true ∧
    rdN t (pLCH d) rLCH_BOOK_REJ_CNT = min (rdN s (pLCH d) rLCH_BOOK_REJ_CNT + 1) 0xFFFFFFFF

theorem showsRejected_rejected (s : State) {d : Nat} (hd : d < 4) (i : Nat) : ShowsRejected s (rejected s d) d i := by
  have hport : port (rejected s d) d i = port s d i := by
    rw [rejected, port_of_ports (raise_ports _ _ _), port_of_ports (bump_ports _ _ _)]
  refine ⟨by rw [hport], by rw [hport], PortPage.intRaw_raise .lch hd (by decide) _, ?_⟩
  rw [rejected, (portMoves_raise .lch d _ 2).rdN hd .lch (by simp +decide), rdN_bump_same]

/-- What follows the refusal in other registers keeps it. -/
theorem ShowsRejected.after {s t u : State} {d i : Nat} (h : ShowsRejected s t d i) (hd : d < 4)
    {l : List (PortPage × Nat)} (hregs : PortMoves d l t u) (hasks : (port u d i).asks = (port t d i).asks)
    (hbooks : (port u d i).books = (port t d i).books) (hoff : Apart .lch rINT_RAW l ∧ Apart .lch rLCH_BOOK_REJ_CNT l) :
    ShowsRejected s u d i := by
  obtain ⟨hasks', hbooks', hint', hcnt'⟩ := h
  obtain ⟨hint, hcnt⟩ := hoff
  exact ⟨hasks.trans hasks', hbooks.trans hbooks', (hregs.intRaw hd .lch 2 hint).trans hint',
    (hregs.rdN hd .lch hcnt).trans hcnt'⟩

theorem ShowsRejected.afterRegs {s t u : State} {d i : Nat} (h : ShowsRejected s t d i) (hd : d < 4)
    {l : List (PortPage × Nat)} (hregs : PortMoves d l t u) (hports : u.ports = t.ports)
    (hoff : Apart .lch rINT_RAW l ∧ Apart .lch rLCH_BOOK_REJ_CNT l) : ShowsRejected s u d i :=
  h.after hd hregs (congrArg Port.asks (port_of_ports hports d i)) (congrArg Port.books (port_of_ports hports d i))
    hoff

theorem refuseBook_rejects {s : State} {d : Nat} (hd : d < 4) (i : Nat) (b : Builder) :
    ShowsRejected s (refuseBook s d i b 6) d i := by
  have hrej := showsRejected_rejected s hd i
  have hcode : refusedR185 s d i 6 = true := rfl
  cases b
  all_goals simp only [refuseBook, hcode, if_true]
  case bridge =>
    exact hrej.afterRegs hd (portMoves_bump .lch d _ rLCH_BR_DROP_CNT) (bump_ports _ _ _) (by simp +decide)
  case soft f =>
    obtain ⟨hasks, hbooks, hint, hcnt⟩ := hrej.afterRegs hd (portMoves_bump .lch d _ rLCH_SW_REJ_CNT)
      (bump_ports _ _ _) (by simp +decide)
    have hraise : ShowsRejected s (raise (bump (rejected s d) (pLCH d) rLCH_SW_REJ_CNT) (pLCH d) 5) d i := by
      rw [ShowsRejected, port_of_ports (raise_ports _ _ _), PortPage.intRaw_raise_ne .lch hd (by decide) (by decide),
        (portMoves_raise .lch d _ 5).rdN hd .lch (by simp +decide)]
      exact ⟨hasks, hbooks, hint, hcnt⟩
    exact hraise.afterRegs hd (portMoves_complete d _ d i (.soft f) 6 0) (complete_ports _ d i (.soft f) 6 0)
      (by simp +decide)
  all_goals exact hrej

/-- A starved frame that asks again keeps the bookings and the requests. -/
theorem port_unstarve {β : Type} (g : Port → β) (hg : ∀ p l, g { p with untimed := l } = g p) (s : State)
    (e j d i : Nat) : g (port (unstarve s e j) d i) = g (port s d i) := by
  rw [unstarve]
  refine port_updPort_keeps g (fun p => ?_) s e j d i
  split
  · exact hg p _
  · rfl

theorem grantAsk_rejects {s : State} {d i : Nat} (hd : d < 4) (h : timedReady s d i = false) (grid : Nat) (a : Ask) :
    ShowsRejected s (grantAsk s d i grid a) d i := by
  have hrej := refuseBook_rejects (s := s) hd i a.by'
  simp only [grantAsk, book, bookWhy_unready h, (by decide : (6 : Nat) ≠ 0), if_false]
  split
  · exact hrej.after hd (portMoves_updPort d _ d i _) (port_unstarve Port.asks (fun _ _ => rfl) _ d i d i)
      (port_unstarve Port.books (fun _ _ => rfl) _ d i d i) (by simp +decide)
  · exact hrej.afterRegs hd (portMoves_bump .pte d _ rPTE_BOOK_REJ_CNT) (bump_ports _ _ _) (by simp +decide)
  · exact hrej

theorem booking_refused {d : Fin 4} {i : Fin 8} {a : Ask} {s : State} (hs : Shaped s)
    (hasks : (port s d i).asks = [a]) (hready : timedReady s d i = false) (grid : Nat) :
    Answers (exec (.booking d i grid) s) fun t =>
      (port t d i).asks = [] ∧ (port t d i).books = (port s d i).books ∧ intRaw t (pLCH d) 2 = true ∧
      rdN t (pLCH d) rLCH_BOOK_REJ_CNT = min (rdN s (pLCH d) rLCH_BOOK_REJ_CNT + 1) 0xFFFFFFFF := by
  obtain ⟨hrasks, hrbooks, hint, hcnt⟩ :=
    grantAsk_rejects (s := askTaken s d i a.by'.source) d.2 (i := i) hready grid a
  rw [exec_booking hasks, answers_next]
  exact ⟨hrasks.trans (asks_askTaken hs d.2 i.2 hasks),
    hrbooks.trans (port_updPort_keeps Port.books (by exact fun _ => rfl) s d i d i), hint, hcnt⟩

end Sys2Proof.Machine
end

section
/-! The hold queue, release and late frames (R187–R191), and O19. -/

namespace Sys2Proof.Machine

/-! ### The clock of a die -/

theorem advDie_eq (s : State) (d n : Nat) : ∃ c, advDie s d n = { s with clk := c } := advP_eq s _

@[simp] theorem advDie_ports (s : State) (d n : Nat) : (advDie s d n).ports = s.ports := by
  obtain ⟨c, h⟩ := advDie_eq s d n
  rw [h]

@[simp] theorem advDie_regs (s : State) (d n : Nat) : (advDie s d n).regs = s.regs := by
  obtain ⟨c, h⟩ := advDie_eq s d n
  rw [h]

theorem replicaOk_advDie (s : State) (d n e : Nat) : replicaOk (advDie s d n) e = replicaOk s e := by
  obtain ⟨c, h⟩ := advDie_eq s d n
  rw [h]
  rfl

theorem Shaped.advDie {s : State} (h : Shaped s) (d n : Nat) : Shaped (advDie s d n) :=
  kept_advDie shaped_closed trivial s d n h

theorem portMoves_advDie (k : Nat) (s : State) (d n : Nat) : PortMoves k [] s (advDie s d n) :=
  .of_regs (advDie_regs s d n)

/-! ### The hold queue (R187) -/

theorem holdEnqueue_shows {d : Fin 4} {i : Fin 8} {b : Booking} {s : State} (hs : Shaped s)
    (hfirst : ((port s d i).books.find? fun b => b.frame.isSome && !b.held && !b.late) = some b)
    (htime : nowP (advDie s d b.ready) d + 50 * 65536 ≤ releaseAt s d i b.l) :
    Answers (exec (.holdEnqueue d i) s) fun t =>
      (∃ x ∈ (port t d i).books, x = { b with held := true }) ∧
      (port t d i).books.length = (port s d i).books.length ∧
      OtherRegs s t [(pLCH d).adr rLCH_HOLD_LVL, (pLCH d).adr rLCH_HOLD_MAX] := by
  have hexec : exec (.holdEnqueue d i) s =
      .next (showHold (updBook (advDie s d b.ready) d i b.no fun x => { x with held := true }) d) := by
    simp only [exec, execHoldEnqueue, hfirst, if_neg (Nat.not_lt.mpr htime)]
  have hport : (port (showHold (updBook (advDie s d b.ready) d i b.no fun x => { x with held := true }) d) d i).books =
      (port s d i).books.map fun x => if x.no = b.no then { x with held := true } else x := by
    rw [port_of_ports (showHold_ports _ _), updBook, port_updPort_same (hs.advDie d _) d.2 i.2,
      port_of_ports (advDie_ports _ _ _)]
  rw [hexec, answers_next, hport]
  refine ⟨⟨_, List.mem_map_of_mem (List.mem_of_find?_eq_some hfirst), if_pos rfl⟩, List.length_map _, ?_⟩
  exact ((portMoves_advDie d s d b.ready).andThen
    (portMoves_updPort d _ d i _)).andThen (portMoves_showHold d _)

/-! ### LCH_LATE (R191) -/

/-- The late frames of the last second. -/
def latesNow (s : State) (d : Nat) : State :=
  updPd s d fun x => { x with lates := (pd s d).lates.filter fun t => decide (mono s < t + 1000000000) }

theorem lchLate_shows (d : Fin 4) {s : State} (hs : Shaped s) :
    Answers (exec (.lchLate d) s) fun t =>
      (pd t d).lates = (pd s d).lates.filter (fun x => decide (mono s < x + 1000000000)) ∧
      doubts t (pLCH d) 0 = decide (get s (pLCH d) fLCH_LATE_LIMIT_CNT < (pd t d).lates.length) ∧
      OtherRegs s t [(pLCH d).adr rDOUBT_RAW] := by
  have hexec : exec (.lchLate d) s = .next (doubt (latesNow s d) (pLCH d) 0
      (decide (get s (pLCH d) fLCH_LATE_LIMIT_CNT < ((pd s d).lates.filter fun x =>
        decide (mono s < x + 1000000000)).length))) := rfl
  rw [hexec, answers_next, pd_of_ports (doubt_ports _ _ _ _), latesNow, pd_updPd_same hs d.2]
  exact ⟨rfl, doubts_doubt_same _ _ _ (by decide),
    (portMoves_updPd d s d _).andThen (portMoves_doubt .lch d _ 0 _)⟩

/-! ### A booking that leaves its queue -/

theorem portMoves_keepWire (k : Nat) (s : State) (d i l stop : Nat) : PortMoves k [] s (keepWire s d i l stop) :=
  portMoves_updPort k s d i _

theorem portMoves_dropBook (k : Nat) (s : State) (d i no : Nat) : PortMoves k [] s (dropBook s d i no) :=
  portMoves_updPort k s d i _

/-- What occupies the wire is kept apart from the rest of a port. -/
theorem port_keepWire {β : Type} (g : Port → β) (hg : ∀ p o, g { p with occ := o } = g p) (s : State)
    (d i l stop e j : Nat) : g (port (keepWire s d i l stop) e j) = g (port s e j) :=
  port_updPort_keeps g (fun p => hg p _) s d i e j

/-- A booking has left its queue, and its place on the wire stays occupied. -/
def bookGone (s : State) (d i : Nat) (b : Booking) : State := keepWire (dropBook s d i b.no) d i b.l b.stop

theorem portMoves_bookGone (k : Nat) (s : State) (d i : Nat) (b : Booking) : PortMoves k [] s (bookGone s d i b) :=
  (portMoves_dropBook k s d i b.no).andThen (portMoves_keepWire k _ d i b.l b.stop)

theorem Shaped.bookGone {s : State} (h : Shaped s) (d i : Nat) (b : Booking) : Shaped (bookGone s d i b) :=
  (h.updPort d i _).updPort d i _

theorem books_bookGone {s : State} (hs : Shaped s) {d i : Nat} (hd : d < 4) (hi : i < 8) (b : Booking) :
    ∀ x ∈ (port (bookGone s d i b) d i).books, x.no ≠ b.no := by
  intro x hx
  rw [bookGone, port_keepWire Port.books (fun _ _ => rfl), dropBook, port_updPort_same hs hd hi, List.mem_filter] at hx
  simpa using hx.2

theorem abandon_eq (s : State) (d i : Nat) (b : Booking) (status : Nat) :
    abandon s d i b status = showHold (complete (bookGone s d i b) d i b.by' status b.l) d := rfl

theorem books_abandon {s : State} (hs : Shaped s) {d i : Nat} (hd : d < 4) (hi : i < 8) (b : Booking) (status : Nat) :
    ∀ x ∈ (port (abandon s d i b status) d i).books, x.no ≠ b.no := by
  rw [abandon_eq, port_of_ports (showHold_ports _ _), port_of_ports (complete_ports _ _ _ _ _ _)]
  exact books_bookGone hs hd hi b

theorem portMoves_abandon (d : Nat) (s : State) (i : Nat) (b : Booking) (status : Nat) :
    PortMoves d [(.lch, rLCH_HOLD_LVL), (.lch, rLCH_HOLD_MAX)] s (abandon s d i b status) :=
  ((portMoves_bookGone d s d i b).andThen (portMoves_complete d _ d i b.by' status b.l)).andThen
    (portMoves_showHold d _)

/-! ### Late frames (R188, R189) -/

/-- A late frame is counted with INT_RAW[0]. -/
def lateCounted (s : State) (d : Nat) : State :=
  updPd (raise (bump s (pLCH d) rLCH_LATE_CNT) (pLCH d) 0) d fun x =>
    { x with lates := mono s :: x.lates.filter fun t => decide (mono s < t + 1000000000) }

/-- A late frame is dropped with INT_RAW[1]. -/
def lateDropped (s : State) (d : Nat) : State := raise (bump s (pLCH d) rLCH_LATE_DROP_CNT) (pLCH d) 1

theorem portMoves_lateCounted (d : Nat) (s : State) :
    PortMoves d [(.lch, rLCH_LATE_CNT), (.lch, rINT_RAW)] s (lateCounted s d) :=
  ((portMoves_bump .lch d s rLCH_LATE_CNT).andThen (portMoves_raise .lch d _ 0)).andThen
    (portMoves_updPd d _ d _)

theorem portMoves_lateDropped (d : Nat) (s : State) :
    PortMoves d [(.lch, rLCH_LATE_DROP_CNT), (.lch, rINT_RAW)] s (lateDropped s d) :=
  (portMoves_bump .lch d s rLCH_LATE_DROP_CNT).andThen (portMoves_raise .lch d _ 1)

theorem mayRestamp_congr {s t : State} {d : Nat} (h : rdN t (pLCH d) rLCH_LATE_POLICY = rdN s (pLCH d) rLCH_LATE_POLICY)
    (b : Booking) : mayRestamp t d b = mayRestamp s d b := by
  simp only [mayRestamp, h]

theorem lateFrame_dropped {s : State} {d : Nat} (hd : d < 4) {b : Booking} (hstamp : mayRestamp s d b = false)
    (i grid : Nat) : lateFrame s d i grid b = abandon (lateDropped (lateCounted s d) d) d i b 2 := by
  have hkeep : mayRestamp (lateCounted s d) d b = false :=
    (mayRestamp_congr ((portMoves_lateCounted d s).rdN hd .lch (by simp +decide)) b).trans hstamp
  rw [lateFrame, ← lateCounted, hkeep, Bool.not_false, if_pos rfl, lateDrop, lateDropped]

theorem late_shows {d : Fin 4} {i : Fin 8} {b : Booking} {s : State} (hs : Shaped s)
    (hfirst : (port s d i).books.find? (lateSoon (port s d i)) = some b) (hheld : b.held = false)
    (hstamp : mayRestamp s d b = false) (grid : Nat) :
    Answers (exec (.late d i grid) s) fun t =>
      (∀ x ∈ (port t d i).books, x.no ≠ b.no) ∧ intRaw t (pLCH d) 0 = true ∧ intRaw t (pLCH d) 1 = true ∧
      rdN t (pLCH d) rLCH_LATE_CNT = min (rdN s (pLCH d) rLCH_LATE_CNT + 1) 0xFFFFFFFF ∧
      rdN t (pLCH d) rLCH_LATE_DROP_CNT = min (rdN s (pLCH d) rLCH_LATE_DROP_CNT + 1) 0xFFFFFFFF := by
  have hexec : exec (.late d i grid) s = .next (abandon (lateDropped (lateCounted (advDie s d
      (releaseAt s d i b.l - 50 * 65536)) d) d) d i b 2) := by
    have hstamp : mayRestamp (advDie s d (releaseAt s d i b.l - 50 * 65536)) d b = false :=
      (mayRestamp_congr ((portMoves_advDie d s d _).rdN d.2 .lch (by simp +decide)) b).trans hstamp
    simp only [exec, execLate, hfirst, hheld, Bool.false_and, Bool.false_eq_true, if_false,
      lateFrame_dropped d.2 hstamp]
  have hadv := portMoves_advDie d s d (releaseAt s d i b.l - 50 * 65536)
  have hcount := portMoves_lateCounted d (advDie s d (releaseAt s d i b.l - 50 * 65536))
  have hdrop := portMoves_lateDropped d (lateCounted (advDie s d (releaseAt s d i b.l - 50 * 65536)) d)
  have hgone := portMoves_abandon d
    (lateDropped (lateCounted (advDie s d (releaseAt s d i b.l - 50 * 65536)) d) d) i b 2
  have hshape : Shaped (lateDropped (lateCounted (advDie s d (releaseAt s d i b.l - 50 * 65536)) d) d) :=
    kept_raise shaped_closed _ _ _ (kept_bump shaped_closed _ _ _ (kept_updPd shaped_closed trivial _ _ _
      (fun _ => fits_same _ _) (kept_raise shaped_closed _ _ _ (kept_bump shaped_closed _ _ _ (hs.advDie d _)))))
  rw [hexec, answers_next]
  refine ⟨books_abandon hshape d.2 i.2 b 2, ?_, ?_, ?_, ?_⟩
  · rw [hgone.intRaw d.2 .lch _ (by simp +decide), lateDropped,
      PortPage.intRaw_raise_ne .lch d.2 (by decide) (by decide),
      (portMoves_bump .lch d _ _).intRaw d.2 .lch _ (by simp +decide), lateCounted,
      (portMoves_updPd d _ d _).intRaw d.2 .lch _ (by simp +decide)]
    exact PortPage.intRaw_raise .lch d.2 (by decide) _
  · rw [hgone.intRaw d.2 .lch _ (by simp +decide)]
    exact PortPage.intRaw_raise .lch d.2 (by decide) _
  · rw [hgone.rdN d.2 .lch (by simp +decide), hdrop.rdN d.2 .lch (by simp +decide), lateCounted,
      (portMoves_updPd d _ d _).rdN d.2 .lch (by simp +decide),
      (portMoves_raise .lch d _ 0).rdN d.2 .lch (by simp +decide), rdN_bump_same, hadv.rdN d.2 .lch (by simp +decide)]
  · rw [hgone.rdN d.2 .lch (by simp +decide), lateDropped,
      (portMoves_raise .lch d _ 1).rdN d.2 .lch (by simp +decide), rdN_bump_same,
      hcount.rdN d.2 .lch (by simp +decide), hadv.rdN d.2 .lch (by simp +decide)]

/-! ### Release (R187) -/

/-- The counters of a released frame are on the pages of the engines. -/
@[simp] def launchRegs : List (PortPage × Nat) :=
  [(.ans, rANS_PLAIN_LO), (.ans, rANS_PLAIN_HI), (.ans, rANS_NTSA_LO), (.ans, rANS_NTSA_HI), (.pte, rPTE_EV_TX_CNT),
    (.pte, rPTE_PRESP_CNT), (.lch, rLCH_BR_FWD_CNT), (.pte, rPTE_TC_FWD_CNT)]

theorem portMoves_add64 (x : PortPage) (d : Nat) (s : State) (lo hi k : Nat) :
    PortMoves d [(x, lo), (x, hi)] s (add64 s (x.pg d) lo hi k) := otherRegs_wr64 s (x.pg d) lo hi _

@[simp] theorem add64_ports (s : State) (p : Pg) (lo hi k : Nat) : (add64 s p lo hi k).ports = s.ports :=
  wr64_ports s p lo hi _

theorem portMoves_countLaunch (d : Nat) (s : State) (b : Booking) :
    PortMoves d launchRegs s (countLaunch s d b) := by
  rw [countLaunch]
  split
  · exact (portMoves_add64 .ans d s rANS_PLAIN_LO rANS_PLAIN_HI 1).mono (by simp)
  · exact (portMoves_add64 .ans d s rANS_NTSA_LO rANS_NTSA_HI 1).mono (by simp)
  · have hcount := (portMoves_bump .pte d s rPTE_EV_TX_CNT).mono (m := launchRegs) (by simp)
    exact .ite ((hcount.andThen (portMoves_bump .pte d _ rPTE_PRESP_CNT)).mono (by simp)) hcount
  · have hcount := (portMoves_bump .lch d s rLCH_BR_FWD_CNT).mono (m := launchRegs) (by simp)
    exact .ite ((hcount.andThen (portMoves_bump .pte d _ rPTE_TC_FWD_CNT)).mono (by simp)) hcount
  · exact .refl _ _ _
  · exact .refl _ _ _

@[simp] theorem countLaunch_ports (s : State) (d : Nat) (b : Booking) : (countLaunch s d b).ports = s.ports := by
  rw [countLaunch]
  split
  · rw [add64_ports]
  · rw [add64_ports]
  · simp only
    split
    · rw [bump_ports, bump_ports]
    · rw [bump_ports]
  · simp only
    split
    · rw [bump_ports, bump_ports]
    · rw [bump_ports]
  · rfl
  · rfl

theorem portMoves_untimedDone (k : Nat) (s : State) (soft : Option (Nat × Nat)) (status l : Nat) :
    PortMoves k [] s (untimedDone s soft status l) := by
  rcases soft with _ | ⟨n, tag⟩
  · exact .refl _ _ _
  · exact portMoves_ringDone _ _ _ _ _ _

@[simp] theorem untimedDone_ports (s : State) (soft : Option (Nat × Nat)) (status l : Nat) :
    (untimedDone s soft status l).ports = s.ports := by
  rcases soft with _ | ⟨n, tag⟩
  · rfl
  · rfl

/-- The frame of a booking goes to the wire: a starved frame leaves the untimed queue, and another waits for its
departure stamp. -/
def wired (s : State) (d i : Nat) (b : Booking) : State :=
  match b.by' with
  | .plain _ => untimedDone (popUntimed s d i) ((port s d i).untimed.head?.bind Untimed.soft) 0 b.l
  | _ => updPort s d i fun p => { p with out := p.out ++ [b] }

theorem launch_eq (s : State) (d i : Nat) (b : Booking) (frame : List Byte) :
    launch s d i b frame = showHold (complete (emit (countLaunch (wired (bookGone s d i b) d i b) d b) d i frame
      (some b.l)) d i b.by' (ofBool b.again) b.l) d := rfl

theorem portMoves_wired (k : Nat) (s : State) (d i : Nat) (b : Booking) : PortMoves k [] s (wired s d i b) := by
  rw [wired]
  split
  · exact (portMoves_updPort k s d i _).andThen (portMoves_untimedDone k _ _ _ _)
  · exact portMoves_updPort k s d i _

theorem books_wired (s : State) (d i : Nat) (b : Booking) :
    (port (wired s d i b) d i).books = (port s d i).books := by
  rw [wired]
  split
  · rw [port_of_ports (untimedDone_ports _ _ _ _)]
    exact port_updPort_keeps Port.books (by exact fun _ => rfl) s d i d i
  · exact port_updPort_keeps Port.books (by exact fun _ => rfl) s d i d i

theorem Shaped.wired {s : State} (h : Shaped s) (d i : Nat) (b : Booking) : Shaped (wired s d i b) := by
  rw [Machine.wired]
  split
  · exact kept_untimedDone shaped_closed trivial _ _ _ _ (h.updPort d i _)
  · exact h.updPort d i _

theorem port_emit {s : State} (hs : Shaped s) {d i : Nat} (hd : d < 4) (hi : i < 8) (frame : List Byte)
    (l : Option Nat) : port (emit s d i frame l) d i = { port s d i with sent := some ⟨frame, l⟩ } := by
  rw [emit, port_of_ports (add64_ports _ _ _ _ _), port_updPort_same hs hd hi]

theorem rd64_congr {s t : State} {p : Pg} {lo hi : Nat} (hlo : rdN t p lo = rdN s p lo)
    (hhi : rdN t p hi = rdN s p hi) : rd64 t p lo hi = rd64 s p lo hi := by
  rw [rd64, hlo, hhi, rd64]

/-- A frame that leaves is counted in TX_FRAMES. -/
theorem txFrames_emit (s : State) (d i : Nat) (frame : List Byte) (l : Option Nat) :
    rd64 (emit s d i frame l) (pMAC d i) rMAC_TX_FRAMES_LO rMAC_TX_FRAMES_HI =
      (rd64 s (pMAC d i) rMAC_TX_FRAMES_LO rMAC_TX_FRAMES_HI + 1) % 2 ^ 64 :=
  rd64_wr64_same _ _ _ (by decide)

theorem launch_shows {s : State} (hs : Shaped s) {d : Nat} (hd : d < 4) (i : Fin 8) (b : Booking) (frame : List Byte) :
    let t := launch s d i b frame
    (port t d i).sent = some ⟨frame, some b.l⟩ ∧ (∀ x ∈ (port t d i).books, x.no ≠ b.no) ∧
      rd64 t (pMAC d i) rMAC_TX_FRAMES_LO rMAC_TX_FRAMES_HI =
        (rd64 s (pMAC d i) rMAC_TX_FRAMES_LO rMAC_TX_FRAMES_HI + 1) % 2 ^ 64 := by
  have hshape : Shaped (countLaunch (wired (bookGone s d i b) d i b) d b) :=
    kept_countLaunch shaped_closed _ _ _ ((hs.bookGone d i b).wired d i b)
  have hport : port (launch s d i b frame) d i =
      { port (wired (bookGone s d i b) d i b) d i with sent := some ⟨frame, some b.l⟩ } := by
    rw [launch_eq, port_of_ports (showHold_ports _ _), port_of_ports (complete_ports _ _ _ _ _ _),
      port_emit hshape hd i.2, port_of_ports (countLaunch_ports _ _ _)]
  have hbefore : PortMoves d launchRegs s (countLaunch (wired (bookGone s d i b) d i b) d b) :=
    ((portMoves_bookGone d s d i b).andThen (portMoves_wired d _ d i b)).andThen (portMoves_countLaunch d _ b)
  have hafter : PortMoves d [(.lch, rLCH_HOLD_LVL), (.lch, rLCH_HOLD_MAX)]
      (emit (countLaunch (wired (bookGone s d i b) d i b) d b) d i frame (some b.l)) (launch s d i b frame) :=
    (portMoves_complete d _ d i b.by' (ofBool b.again) b.l).andThen (portMoves_showHold d _)
  refine ⟨(congrArg Port.sent hport).trans rfl, ?_, ?_⟩
  · intro x hx
    refine books_bookGone hs hd i.2 b x ?_
    rw [← books_wired]
    exact (congrArg Port.books hport).trans rfl ▸ hx
  · rw [rd64_congr (hafter.rdN hd (.mac i) (by simp +decide)) (hafter.rdN hd (.mac i) (by simp +decide)), txFrames_emit,
      rd64_congr (hbefore.rdN hd (.mac i) (by simp +decide)) (hbefore.rdN hd (.mac i) (by simp +decide))]

theorem lchRelease_shows {d : Fin 4} {i : Fin 8} {b : Booking} {f : List Byte} {s : State} (hs : Shaped s)
    (hfirst : ((port s d i).books.find? fun b => b.held && !b.late) = some b) (hframe : b.frame = some f)
    (hcue : b.by'.isCue = false) (hready : replicaOk s d = true ∨ b.by'.isPlain = true)
    (hpause : (port s d i).pause = none) (hbad : b.bad = false) :
    Answers (exec (.lchRelease d i true) s) fun t =>
      (port t d i).sent = some ⟨f, some b.l⟩ ∧ (∀ x ∈ (port t d i).books, x.no ≠ b.no) ∧
      rd64 t (pMAC d i) rMAC_TX_FRAMES_LO rMAC_TX_FRAMES_HI =
        (rd64 s (pMAC d i) rMAC_TX_FRAMES_LO rMAC_TX_FRAMES_HI + 1) % 2 ^ 64 := by
  have hlocked : (!replicaOk s d && !b.by'.isPlain) = false := by
    rcases hready with h | h
    · rw [h, Bool.not_true, Bool.false_and]
    · rw [h, Bool.not_true, Bool.and_false]
  have hexec : exec (.lchRelease d i true) s = .next (launch (advDie s d (releaseAt s d i b.l)) d i b f) := by
    simp only [exec, execLchRelease, hfirst, hframe, release, hcue, Bool.false_and, replicaOk_advDie, hlocked,
      port_of_ports (advDie_ports _ _ _), hpause, Option.isSome_none, hbad, Bool.not_true, Bool.or_self,
      Bool.false_eq_true, if_false]
  have hadv := portMoves_advDie d s d (releaseAt s d i b.l)
  obtain ⟨hsent, hgone, hcount⟩ := launch_shows (hs.advDie d (releaseAt s d i b.l)) d.2 i b f
  rw [hexec, answers_next]
  refine ⟨hsent, hgone, hcount.trans ?_⟩
  rw [rd64_congr (hadv.rdN d.2 (.mac i) (by simp +decide)) (hadv.rdN d.2 (.mac i) (by simp +decide))]

/-- Settles O19: each row in one theorem. -/
theorem bookedLaunch : Obligations.BookedLaunch :=
  ⟨fun _ _ _ _ _ hs hasks hwhy => booking_granted hs hasks hwhy,
    fun _ _ grid _ _ hs hasks hready => booking_refused hs hasks hready grid,
    fun _ _ _ _ hs hfirst htime => holdEnqueue_shows hs hfirst htime,
    fun _ _ _ _ _ hs hfirst hframe hcue hready hpause hbad => lchRelease_shows hs hfirst hframe hcue hready hpause hbad,
    fun _ _ grid _ _ hs hfirst hheld hstamp => late_shows hs hfirst hheld hstamp grid,
    fun d _ hs => lchLate_shows d hs⟩

end Sys2Proof.Machine
end

section
/-! The counters of a MAC beside what an accepted frame starts (R177, R201): no block that a received frame reaches
writes a register of a MAC. -/

namespace Sys2Proof.Machine

/-- A register of a MAC. -/
structure MacReg where
  d : Nat
  i : Fin 8
  o : Nat
  lt : o < 0x1000

/-- Its address. -/
def MacReg.adr (m : MacReg) : Nat := (pMAC m.d m.i).adr m.o

/-- A register of a page lies in the page, which is no MAC's. -/
@[simp] def offMac (p : Pg) (o : Nat) : Bool := 
  decide (p.page < 0x100) && (decide (p.page < 0x20) || decide (0x28 ≤ p.page)) && decide (o < 0x1000)

theorem offMac_iff {p : Pg} {o : Nat} :
    offMac p o = true ↔ p.page < 0x100 ∧ (p.page < 0x20 ∨ 0x28 ≤ p.page) ∧ o < 0x1000 := by
  simp only [offMac, Bool.and_eq_true, Bool.or_eq_true, decide_eq_true_eq, and_assoc]

theorem MacReg.adr_ne (m : MacReg) {p : Pg} {o : Nat} (h : offMac p o = true) : m.adr ≠ p.adr o := by
  obtain ⟨hpage, hmac, ho⟩ := offMac_iff.mp h
  have hlt := m.lt
  simp only [MacReg.adr, Pg.adr]
  omega

theorem MacReg.offRec_adr (m : MacReg) : offRec m.adr = true := by
  refine offRec_of_page ?_
  have hlt := m.lt
  simp only [MacReg.adr, Pg.adr]
  omega

section

variable (m : MacReg)

/-! ### Registers, records, interrupt bits and doubts -/

@[simp] theorem mac_wrN (s : State) {p : Pg} {o : Nat} (v : Nat) (h : offMac p o = true) :
    rdA (wrN s p o v) m.adr = rdA s m.adr := rdA_wrN_ne s p o v (m.adr_ne h)

@[simp] theorem mac_put (s : State) {p : Pg} {f : Fld} (v : Nat) (h : offMac p f.off = true) :
    rdA (put s p f v) m.adr = rdA s m.adr := mac_wrN m s _ h

@[simp] theorem mac_putB (s : State) {p : Pg} {f : Fld} (b : Bool) (h : offMac p f.off = true) :
    rdA (putB s p f b) m.adr = rdA s m.adr := mac_wrN m s _ h

@[simp] theorem mac_bumpBy (s : State) {p : Pg} {o : Nat} (k : Nat) (h : offMac p o = true) :
    rdA (bumpBy s p o k) m.adr = rdA s m.adr := mac_wrN m s _ h

@[simp] theorem mac_bump (s : State) {p : Pg} {o : Nat} (h : offMac p o = true) :
    rdA (bump s p o) m.adr = rdA s m.adr :=
  mac_wrN m s _ h

@[simp] theorem mac_raise (s : State) {p : Pg} (bit : Nat) (h : offMac p rINT_RAW = true) :
    rdA (raise s p bit) m.adr = rdA s m.adr := rdA_raise_ne s p bit m.offRec_adr (m.adr_ne h)

@[simp] theorem mac_raiseIf (s : State) (b : Bool) {p : Pg} (bit : Nat) (h : offMac p rINT_RAW = true) :
    rdA (raiseIf s b p bit) m.adr = rdA s m.adr := rdA_raiseIf_ne s b p bit m.offRec_adr (m.adr_ne h)

@[simp] theorem mac_doubt (s : State) {p : Pg} (bit : Nat) (b : Bool) (h : offMac p rDOUBT_RAW = true) :
    rdA (doubt s p bit b) m.adr = rdA s m.adr := rdA_doubt_ne s p bit b m.offRec_adr (m.adr_ne h)

/-! ### Tiles, frames that are sent, and the slow path -/

/-- The AGE page of a die is no MAC's. -/
theorem offMac_age (die : Nat) : offMac (pAGE die) rAGE_TILE_CNT = true := by
  rw [pAGE]
  split
  · rfl
  · split
    · rfl
    · rfl

@[simp] theorem mac_tileFail (s : State) (d : Nat) : rdA (tileFail s d) m.adr = rdA s m.adr := by
  rw [tileFail, rdA_updPd, mac_bump m s (offMac_age _)]

@[simp] theorem mac_tileDrop (s : State) (d : Nat) {p : Pg} (h : offMac p rINT_RAW = true) :
    rdA (tileDrop s d p) m.adr = rdA s m.adr := by
  rw [tileDrop, mac_tileFail, mac_raise m s 30 h]

@[simp] theorem mac_writeTiles (s : State) (d kind n : Nat) : rdA (writeTiles s d kind n).1 m.adr = rdA s m.adr := by
  rw [writeTiles]
  split
  · rfl
  · split
    · rfl
    · simp +decide [rdA_ite]

@[simp] theorem mac_untimed (s : State) (d i : Nat) (frame : List Byte) (soft : Option (Nat × Nat)) :
    rdA (untimed s d i frame soft) m.adr = rdA s m.adr := by
  rcases soft with _ | ⟨n, tag⟩
  · simp +decide [untimed, rdA_ite]
  · simp +decide [untimed, ringDone, rdA_ite]

@[simp] theorem mac_addAsk (s : State) (d i : Nat) (a : Ask) : rdA (addAsk s d i a) m.adr = rdA s m.adr :=
  rdA_updPort s d i _ _

@[simp] theorem mac_takeDesc (s : State) (n : Nat) (w : RingWork) : rdA (takeDesc s n w) m.adr = rdA s m.adr :=
  rdA_updRing s n _ _

/-- A slow-path frame goes to one of the sixteen rings. -/
theorem slowRing_lt {s : State} {d cls n : Nat} (h : slowRing s d cls = some n) : n < 16 :=
  List.mem_range.mp (List.mem_of_find?_eq_some h)

@[simp] theorem mac_routeSlow (s : State) (d : Nat) (f : SlowFrame) : rdA (routeSlow s d f) m.adr = rdA s m.adr := by
  rw [routeSlow]
  split
  · simp +decide
  · next n hn =>
    have hlt := slowRing_lt hn
    have hoff : offMac pHIF (rHIF_RING_DROP n) = true := offMac_iff.mpr ⟨by decide, by decide, by
      simp only [rHIF_RING_DROP]; omega⟩
    split
    · exact mac_bump m s hoff
    · simp [mac_bump m s hoff, rdA_ite]

@[simp] theorem mac_slowPath (s : State) (d i : Nat) (frame : List Byte) (stamp : PC64) (uncal bad : Bool) :
    rdA (slowPath s d i frame stamp uncal bad) m.adr = rdA s m.adr := by
  simp +decide [slowPath, rdA_ite]

@[simp] theorem mac_toSlow (s : State) (d i : Nat) (x : Classed) : rdA (toSlow s d i x) m.adr = rdA s m.adr :=
  mac_slowPath m s d i _ _ _ _

/-! ### Classification (R201) -/

@[simp] theorem mac_arpFrame (s : State) (d i : Nat) (x : Classed) :
    rdA (arpFrame s d i x) m.adr = rdA s m.adr := by
  simp +decide [arpFrame, rdA_ite]

@[simp] theorem mac_solicitFrame (s : State) (d i : Nat) (x : Classed) (h : IpHead) :
    rdA (solicitFrame s d i x h) m.adr = rdA s m.adr := by
  simp +decide [solicitFrame, rdA_ite]

@[simp] theorem mac_echoFrame (s : State) (d i : Nat) (x : Classed) (h : IpHead) :
    rdA (echoFrame s d i x h) m.adr = rdA s m.adr := by
  simp +decide [echoFrame, rdA_ite]

@[simp] theorem mac_queueReq (s : State) (d i : Nat) (q : NtpReq) : rdA (queueReq s d i q) m.adr = rdA s m.adr := by
  simp +decide [queueReq, showQueue, rdA_ite]

@[simp] theorem mac_ntpFrameRx (s : State) (d i : Nat) (x : Classed) (h : IpHead) :
    rdA (ntpFrameRx s d i x h) m.adr = rdA s m.adr := by
  simp +decide [ntpFrameRx, rdA_ite]

@[simp] theorem mac_otherFrame (s : State) (d i : Nat) (x : Classed) (served : Bool) :
    rdA (otherFrame s d i x served) m.adr = rdA s m.adr := by
  simp [otherFrame, rdA_ite]

@[simp] theorem mac_ipFrame (s : State) (d i : Nat) (x : Classed) (h : IpHead) :
    rdA (ipFrame s d i x h) m.adr = rdA s m.adr := by
  simp +decide [ipFrame, rdA_ite]

@[simp] theorem mac_classify (s : State) (d i : Nat) (x : Classed) : rdA (classify s d i x) m.adr = rdA s m.adr := by
  rw [classify, rdA_ite, mac_arpFrame]
  split
  · rfl
  · split
    · exact mac_otherFrame m s d i x false
    · exact mac_ipFrame m s d i x _

/-! ### The bridge (R193) -/

@[simp] theorem mac_bridgeFrame (s : State) (d i : Nat) (pair : Nat × Nat) (frame : List Byte) (tin eof : PC64)
    (link : Nat) (event : Bool) (sa : Option Nat) :
    rdA (bridgeFrame s d i pair frame tin eof link event sa) m.adr = rdA s m.adr := by
  simp +decide [bridgeFrame, rdA_ite]

@[simp] theorem mac_forward (s : State) (d i : Nat) (pair : Nat × Nat) (x : Classed) (eof : PC64) :
    rdA (forward s d i pair x eof) m.adr = rdA s m.adr := by
  simp +decide [forward, rdA_ite]

/-! ### Peer delay (R256) -/

@[simp] theorem mac_answerPdelay (s : State) (d i : Nat) (as two : Bool) (domain : Nat) (dest : PtpTo)
    (sa : Option Nat) (x : PtpIn) : rdA (answerPdelay s d i as two domain dest sa x) m.adr = rdA s m.adr :=
  mac_addAsk m s d i _

@[simp] theorem mac_showAscap (s : State) (d : Nat) : rdA (showAscap s d) m.adr = rdA s m.adr := by
  simp +decide [showAscap, rdA_ite]

@[simp] theorem mac_updReq (s : State) (d i seq : Nat) (f : PdelayReq → PdelayReq) :
    rdA (updReq s d i seq f) m.adr = rdA s m.adr := rdA_updPd s d _ _

/-- The register of a port's link delay is no MAC's. -/
theorem offMac_pdly (d : Nat) (i : Fin 8) : offMac (pPTE d) (rPTE_PDLY i) = true :=
  offMac_iff.mpr ⟨by simp, by simp, pdly_lt i⟩

@[simp] theorem mac_loadPdelay (s : State) (d : Nat) (i : Fin 8) (delay : Int) :
    rdA (loadPdelay s d i delay) m.adr = rdA s m.adr := by
  have hstored : ∀ s : State, rdA (showPdly s d i) m.adr = rdA s m.adr := fun s => by
    rw [showPdly]
    split
    · rfl
    · rw [mac_showAscap, mac_putB m _ _ (offMac_pdly d i), mac_put m _ _ (offMac_pdly d i)]
  rw [loadPdelay, hstored, updPdelay, rdA_updPd]

@[simp] theorem mac_takePdelayResp (s : State) (d : Nat) (i : Fin 8) (x : PtpIn) :
    rdA (takePdelayResp s d i x) m.adr = rdA s m.adr := by
  rw [takePdelayResp]
  split
  · rfl
  · simp [rdA_ite]

@[simp] theorem mac_takePdelayFollow (s : State) (d : Nat) (i : Fin 8) (x : PtpIn) :
    rdA (takePdelayFollow s d i x) m.adr = rdA s m.adr := by
  rw [takePdelayFollow]
  split
  · rfl
  · split
    · rfl
    · simp [rdA_ite]

@[simp] theorem mac_authFail (s : State) (d : Nat) : rdA (authFail s d) m.adr = rdA s m.adr := by
  simp +decide [authFail]

@[simp] theorem mac_bridgePtp (s : State) (d : Nat) (i : Fin 8) (pair : Nat × Nat) (x : PtpIn) (eof : PC64) :
    rdA (bridgePtp s d i pair x eof) m.adr = rdA s m.adr := by
  simp +decide only [bridgePtp, rdA_ite, mac_authFail, mac_bridgeFrame, mac_answerPdelay, mac_takePdelayResp,
    mac_takePdelayFollow, ite_self]
  split
  · rfl
  · simp only [ite_eq_left_iff]
    intro _ _ _ _ _
    split
    · exact mac_bridgeFrame m s d i pair _ _ _ _ _ _
    · simp +decide

/-! ### Sessions (R264) -/

@[simp] theorem mac_newSesKey (s : State) (d : Nat) : rdA (newSesKey s d) m.adr = rdA s m.adr := by
  have hdrawn : rdA (drawSecret s d).1 m.adr = rdA s m.adr := by
    rw [drawSecret]
    split
    · exact rdA_drawn s _
    · split
      · rw [rdA_drawn, rdA_updPd]
      · rfl
  simp +decide [newSesKey, showReady, hdrawn]

@[simp] theorem mac_showSessions (s : State) (d : Nat) : rdA (showSessions s d) m.adr = rdA s m.adr := by
  simp +decide [showSessions]

@[simp] theorem mac_freeSes (s : State) (d k : Nat) : rdA (freeSes s d k) m.adr = rdA s m.adr := by
  simp [freeSes, rdA_ite]

@[simp] theorem mac_sesTileFail (s : State) (d k : Nat) : rdA (sesTileFail s d k) m.adr = rdA s m.adr := by
  simp +decide [sesTileFail]

@[simp] theorem mac_useSes (s : State) (d k : Nat) : rdA (useSes s d k).1 m.adr = rdA s m.adr := by
  rw [useSes]
  split
  · exact mac_sesTileFail m s d k
  · rfl

@[simp] theorem mac_partnerSes (s : State) (d n : Nat) (x : PtpIn) :
    rdA (partnerSes s d n x).1 m.adr = rdA s m.adr := by
  rw [partnerSes]
  split
  · rfl
  · split
    · rfl
    · exact mac_useSes m s d _

@[simp] theorem mac_putSes (s : State) (d k : Nat) (e : Session) : rdA (putSes s d k e) m.adr = rdA s m.adr := by
  simp [putSes]

@[simp] theorem mac_keepSes (s : State) (d k : Nat) (e : Session) : rdA (keepSes s d k e) m.adr = rdA s m.adr := by
  simp [keepSes, rdA_ite]

/-! ### What the PTP engine takes (R263, R264, R273) -/

@[simp] theorem mac_ptpBad (s : State) (d : Nat) : rdA (ptpBad s d) m.adr = rdA s m.adr := by
  simp +decide [ptpBad]

@[simp] theorem mac_authJudge (s : State) (d auth : Nat) (l : List Byte) :
    rdA (authJudge s d auth l).1 m.adr = rdA s m.adr := by
  have hdrop : ∀ s : State, rdA (authDrop s d auth) m.adr = rdA s m.adr := fun s => by
    simp +decide [authDrop, rdA_ite]
  rw [authJudge]
  split
  · rfl
  · split
    · split
      · rfl
      · rw [hdrop, mac_authFail]
    · split
      · rfl
      · simp +decide [hdrop]

@[simp] theorem mac_answerDelayReq (s : State) (d i n : Nat) (x : PtpIn) :
    rdA (answerDelayReq s d i n x) m.adr = rdA s m.adr := by
  rw [answerDelayReq]
  split
  · rfl
  · split
    · simp +decide
    · dsimp only
      split
      · simp +decide
      · simp +decide [rdA_ite]

@[simp] theorem mac_instPdelay (s : State) (d i n : Nat) (x : PtpIn) :
    rdA (instPdelay s d i n x) m.adr = rdA s m.adr := by
  simp [instPdelay, rdA_ite]

@[simp] theorem mac_showForm (s : State) {p : Pg} {f : Fld} (form bit : Nat) (h : offMac p f.off = true)
    (hint : offMac p rINT_RAW = true) : rdA (showForm s p f form bit) m.adr = rdA s m.adr := by
  rw [showForm, rdA_ite, mac_raise m _ bit hint, mac_put m s form h, ite_self]

@[simp] theorem mac_showForms (s : State) (d : Nat) : rdA (showForms s d) m.adr = rdA s m.adr := by
  simp +decide [showForms, rdA_ite]

@[simp] theorem mac_updInst (s : State) (d n : Nat) (f : Inst → Inst) : rdA (updInst s d n f) m.adr = rdA s m.adr :=
  rdA_updPd s d _ _

@[simp] theorem mac_judgeForeign (s : State) (d n : Nat) : rdA (judgeForeign s d n) m.adr = rdA s m.adr := by
  simp +decide [judgeForeign, foreignDoubt, rdA_ite]

@[simp] theorem mac_instAnnounce (s : State) (d n : Nat) (x : PtpIn) :
    rdA (instAnnounce s d n x) m.adr = rdA s m.adr := by
  simp [instAnnounce, rdA_ite]

@[simp] theorem mac_denyGrant (s : State) (d : Nat) : rdA (denyGrant s d) m.adr = rdA s m.adr := by
  simp +decide [denyGrant]

@[simp] theorem mac_grantType (s : State) (d k : Nat) (e : Session) (x : PtpIn) (type log dur : Nat) :
    rdA (grantType s d k e x type log dur) m.adr = rdA s m.adr := by
  simp +decide [grantType]

@[simp] theorem mac_sesPlace (s : State) (d n : Nat) (x : PtpIn) : rdA (sesPlace s d n x).1 m.adr = rdA s m.adr := by
  rw [sesPlace]
  split
  · exact mac_partnerSes m s d n x
  · split
    · exact mac_partnerSes m s d n x
    · exact mac_partnerSes m s d n x

@[simp] theorem mac_judgeRequest (s : State) (d n : Nat) (x : PtpIn) (o : Nat) :
    rdA (judgeRequest s d n x o).1 m.adr = rdA s m.adr := by
  rw [judgeRequest]
  split
  · exact mac_denyGrant m s d
  · dsimp only
    split
    · simp +decide
    · simp

@[simp] theorem mac_judgeCancel (s : State) (d n : Nat) (x : PtpIn) (o : Nat) :
    rdA (judgeCancel s d n x o).1 m.adr = rdA s m.adr := by
  rw [judgeCancel]
  split
  · exact mac_partnerSes m s d n x
  · split
    · exact mac_partnerSes m s d n x
    · simp +decide

@[simp] theorem mac_judgeTlvs (d n : Nat) (x : PtpIn) (l : List (Nat × Nat × Nat)) (s : State) :
    rdA (judgeTlvs d n x l s).1 m.adr = rdA s m.adr := by
  induction l generalizing s with
  | nil => rfl
  | cons t l ih =>
    rw [judgeTlvs, ih]
    split
    · exact mac_judgeRequest m s d n x _
    · split
      · exact mac_judgeCancel m s d n x _
      · rfl

@[simp] theorem mac_sendSignal (s : State) (d n : Nat) (dest : PtpTo) (seq target : Nat) (tlvs : List Byte) :
    rdA (sendSignal s d n dest seq target tlvs) m.adr = rdA s m.adr := mac_untimed m s d _ _ _

@[simp] theorem mac_signalSeq (s : State) (d n : Nat) (x : PtpIn) : rdA (signalSeq s d n x).1 m.adr = rdA s m.adr := by
  rw [signalSeq]
  split
  · simp
  · simp

@[simp] theorem mac_instSignal (s : State) (d i n : Nat) (x : PtpIn) :
    rdA (instSignal s d i n x).1 m.adr = rdA s m.adr := by
  rw [instSignal]
  split
  · rfl
  · split
    · rfl
    · split
      · rfl
      · simp only
        split
        · exact mac_judgeTlvs m d n x _ s
        · simp

/-- A message that one of two makes. -/
theorem rdA_fst_ite {α : Type} (c : Prop) [Decidable c] (s t : State × α) (a : Nat) :
    rdA (if c then s else t).1 a = if c then rdA s.1 a else rdA t.1 a := by
  split <;> rfl

@[simp] theorem mac_instTake (s : State) (d : Nat) (i : Fin 8) (n : Nat) (x : PtpIn) :
    rdA (instTake s d i n x).1 m.adr = rdA s m.adr := by
  simp [instTake, rdA_fst_ite, rdA_ite]

end

end Sys2Proof.Machine
end

section
/-! The counters of a MAC beside what a received frame starts (R201): the reference ports of the PTP engine, and the
frame as a whole. -/

namespace Sys2Proof.Machine

section

variable (m : MacReg)

/-! ### The reference ports (R267–R269) -/

/-- A register of one of the two reference ports is no MAC's. -/
theorem offMac_rx (d : Nat) {r b : Nat} (hr : r < 2) (hb : b < 0x200) : offMac (pPTE d) (b + 0x40 * r) = true :=
  offMac_iff.mpr ⟨by simp, by simp, by omega⟩

@[simp] theorem mac_updRef (s : State) (d r : Nat) (f : RefPort → RefPort) :
    rdA (updRef s d r f) m.adr = rdA s m.adr := rdA_updPd s d _ _

@[simp] theorem mac_lossMark (s : State) (r : Nat) : rdA (lossMark s r) m.adr = rdA s m.adr := by
  rw [lossMark, updSlot, rdA_mk]

variable {r : Nat} (hr : r < 2)
include hr

theorem mac_refState (s : State) (d st : Nat) : rdA (refState s d r st) m.adr = rdA s m.adr := by
  have hput := mac_put m s (f := fPTE_RX_STAT_STATE r) st (offMac_rx d hr (by decide))
  simp +decide [refState, rdA_ite, hput]

theorem mac_showMaster (s : State) (d : Nat) (f : Foreign) : rdA (showMaster s d r f) m.adr = rdA s m.adr := by
  rw [showMaster, mac_wrN m _ _ (offMac_rx d hr (by decide)), mac_put m _ _ (offMac_rx d hr (by decide)),
    mac_put m _ _ (offMac_rx d hr (by decide)), mac_put m _ _ (offMac_rx d hr (by decide)),
    mac_wrN m _ _ (offMac_rx d hr (by decide)), mac_wrN m _ _ (offMac_rx d hr (by decide))]

theorem mac_refFollow (s : State) (d : Nat) : rdA (refFollow s d r) m.adr = rdA s m.adr := by
  rw [refFollow]
  split
  · simp +decide [rdA_ite, mac_showMaster m hr, mac_refState m hr]
  · simp [rdA_ite, mac_refState m hr]

theorem mac_refAnnounce (s : State) (d : Nat) (x : PtpIn) : rdA (refAnnounce s d r x) m.adr = rdA s m.adr := by
  simp [refAnnounce, rdA_ite, mac_refFollow m hr]

theorem mac_showSample (s : State) (d : Nat) (ms sm : Int) : rdA (showSample s d r ms sm) m.adr = rdA s m.adr := by
  rw [showSample, mac_bump m _ (offMac_rx d hr (by decide)), mac_wrN m _ _ (offMac_rx d hr (by decide)),
    mac_wrN m _ _ (offMac_rx d hr (by decide)), mac_wrN m _ _ (offMac_rx d hr (by decide))]

theorem mac_refDelayResp (s : State) (d i : Nat) (x : PtpIn) : rdA (refDelayResp s d i r x) m.adr = rdA s m.adr := by
  rw [refDelayResp]
  split
  · rfl
  · simp [rdA_ite, mac_showSample m hr]

theorem mac_syncDone (s : State) (d i : Nat) (t1 : Int) (t2 : Nat) :
    rdA (syncDone s d i r t1 t2) m.adr = rdA s m.adr := by
  rw [syncDone]
  split
  · split
    · rw [mac_showSample m hr, mac_updRef]
    · exact mac_updRef m s d r _
  · exact mac_updRef m s d r _

theorem mac_refFollowUp (s : State) (d i : Nat) (x : PtpIn) : rdA (refFollowUp s d i r x) m.adr = rdA s m.adr := by
  rw [refFollowUp]
  split
  · rfl
  · simp [rdA_ite, mac_syncDone m hr]

theorem mac_refSync (s : State) (d i : Nat) (x : PtpIn) : rdA (refSync s d i r x) m.adr = rdA s m.adr := by
  simp [refSync, rdA_ite, mac_syncDone m hr]

theorem mac_refGrants (s : State) (d : Nat) (x : PtpIn) : rdA (refGrants s d r x) m.adr = rdA s m.adr := by
  rw [refGrants]
  split
  · rfl
  · dsimp only
    rw [showGranted, mac_put m _ _ (offMac_rx d hr (by decide))]
    exact rdA_foldl (fun t _ s => rdA_foldl (fun k _ s => by simp [rdA_ite]) s) s

theorem mac_refTake (s : State) (d : Nat) (i : Fin 8) (x : PtpIn) : rdA (refTake s d i r x).1 m.adr = rdA s m.adr := by
  simp [refTake, rdA_fst_ite, rdA_ite, mac_refSync m hr, mac_refFollowUp m hr, mac_refDelayResp m hr,
    mac_refAnnounce m hr, mac_refGrants m hr]

end

section

variable (m : MacReg)

/-! ### The frame (R177, R201) -/

/-- The reference that a message is for is one of two. -/
theorem refFor_lt {s : State} {d i sdo domain r : Nat} (h : refFor s d i sdo domain = some r) : r < 2 := by
  have hmem := List.mem_of_find?_eq_some h
  simp only [List.mem_cons, List.not_mem_nil, or_false] at hmem
  omega

@[simp] theorem mac_ptpReceive (s : State) (d : Nat) (i : Fin 8) (x : PtpIn) (eof : PC64) (tileOk : Bool) :
    rdA (ptpReceive s d i x eof tileOk).1 m.adr = rdA s m.adr := by
  simp only [ptpReceive]
  generalize (if pteOn s d && x.good && ptpDest s d i x then ptpInst s d i x else none) = inst
  generalize href : (if pteOn s d && x.good && ptpDest s d i x && inst.isNone then
    refFor s d i x.sdo x.domain else none) = ref
  have hlt : ∀ {r : Nat}, ref = some r → r < 2 := by
    intro r h
    rw [h] at href
    split at href
    · exact refFor_lt href
    · cases href
  split
  · simp +decide
  · split
    · simp +decide
    · split
      · exact mac_instTake m s d i _ x
      · exact mac_refTake m (hlt rfl) s d i x
      · rw [mac_bridgePtp, mac_refTake m (hlt rfl)]
      · exact mac_bridgePtp m s d i _ x eof
      · simp [rdA_ite]

@[simp] theorem mac_ptpFrameRx (s : State) (d : Nat) (i : Fin 8) (x : Classed) (off : Nat) (eof : PC64) :
    rdA (ptpFrameRx s d i x off eof) m.adr = rdA s m.adr := by
  rw [ptpFrameRx]
  split
  · exact mac_ptpReceive m s d i _ eof _
  · simp

theorem mac_takeFrame (s : State) (d : Nat) (i : Fin 8) (x : Classed) (eof : PC64) :
    rdA (takeFrame s d i x eof) m.adr = rdA s m.adr := by
  rw [takeFrame]
  dsimp only
  split
  · split
    · simp +decide
    · simp +decide [rdA_ite]
  · split
    · simp [rdA_ite]
    · simp
    · simp [rdA_ite]
    · simp [rdA_ite]

end

end Sys2Proof.Machine
end

section
/-! Untimed frames, frames from software, and reception (R177, R178, R186, R197, R198, R201): O20. -/

namespace Sys2Proof.Machine

/-! ### Untimed frames (R186) -/

theorem untimedSubmit_joins {d : Fin 4} {i : Fin 8} {s : State} (hs : Shaped s) (hmode : portMode s d i ≠ 0)
    (hup : linkUp s d i = true) (hon : lchOn s d = true) (f : List Byte) :
    Answers (exec (.untimedSubmit d i f) s) fun t =>
      (port t d i).untimed = (port s d i).untimed ++ [⟨f, mono s, none, false⟩] ∧ t.regs = s.regs ∧ t.clk = s.clk := by
  have hexec : exec (.untimedSubmit d i f) s =
      .next (updPort s d i fun p => { p with untimed := p.untimed ++ [⟨f, mono s, none, false⟩] }) := by
    simp only [exec, execUntimedSubmit, untimed, hmode, hup, hon, Bool.true_eq_false, or_self, if_false]
  rw [hexec, answers_next, port_updPort_same hs d.2 i.2]
  exact ⟨rfl, rfl, rfl⟩

theorem untimedSubmit_drops {d : Fin 4} {i : Fin 8} {s : State}
    (hdown : portMode s d i = 0 ∨ linkUp s d i = false ∨ lchOn s d = false) (f : List Byte) :
    Answers (exec (.untimedSubmit d i f) s) fun t =>
      rdN t (pLCH d) rLCH_LINK_DROP_CNT = min (rdN s (pLCH d) rLCH_LINK_DROP_CNT + 1) 0xFFFFFFFF ∧
      OtherRegs s t [(pLCH d).adr rLCH_LINK_DROP_CNT] ∧ t.ports = s.ports := by
  have hexec : exec (.untimedSubmit d i f) s = .next (bump s (pLCH d) rLCH_LINK_DROP_CNT) := by
    simp only [exec, execUntimedSubmit, untimed, if_pos hdown]
  rw [hexec, answers_next]
  exact ⟨rdN_bump_same _ _ _, otherRegs_bump _ _ _, bump_ports _ _ _⟩

/-- An untimed frame goes to the wire at `x`: it leaves the queue, and its occupancy and deficit are kept. -/
def untimedWired (s : State) (d i x : Nat) (o : Nat × Nat) : State :=
  updPort (keepWire (popUntimed (advDie s d x) d i) d i x o.1) d i fun p => { p with deficit := o.2 }

theorem Shaped.untimedWired {s : State} (h : Shaped s) (d i x : Nat) (o : Nat × Nat) :
    Shaped (untimedWired s d i x o) :=
  (((h.advDie d x).updPort d i _).updPort d i _).updPort d i _

theorem portMoves_untimedWired (k : Nat) (s : State) (d i x : Nat) (o : Nat × Nat) :
    PortMoves k [] s (untimedWired s d i x o) :=
  (((portMoves_advDie k s d x).andThen (portMoves_updPort k _ d i _)).andThen (portMoves_keepWire k _ d i _ _)).andThen
    (portMoves_updPort k _ d i _)

theorem port_untimedWired {s : State} (hs : Shaped s) {d i : Nat} (hd : d < 4) (hi : i < 8) (x : Nat) (o : Nat × Nat) :
    (port (untimedWired s d i x o) d i).untimed = (port s d i).untimed.drop 1 ∧
      (port (untimedWired s d i x o) d i).books = (port s d i).books := by
  have hpop : port (popUntimed (advDie s d x) d i) d i =
      { port s d i with untimed := (port s d i).untimed.drop 1 } := by
    rw [popUntimed, port_updPort_same (hs.advDie d x) hd hi, port_of_ports (advDie_ports _ _ _)]
  constructor
  · rw [untimedWired, port_updPort_keeps Port.untimed (by exact fun _ => rfl),
      port_keepWire Port.untimed (fun _ _ => rfl), hpop]
  · rw [untimedWired, port_updPort_keeps Port.books (by exact fun _ => rfl),
      port_keepWire Port.books (fun _ _ => rfl), hpop]

theorem portMoves_emit (d : Nat) (i : Fin 8) (s : State) (frame : List Byte) (l : Option Nat) :
    PortMoves d [(.mac i, rMAC_TX_FRAMES_LO), (.mac i, rMAC_TX_FRAMES_HI)] s (emit s d i frame l) :=
  (portMoves_updPort d s d i _).andThen (portMoves_add64 (.mac i) d _ rMAC_TX_FRAMES_LO rMAC_TX_FRAMES_HI 1)

theorem untimedLaunch_shows {d : Fin 4} {i : Fin 8} {u : Untimed} {l : List Untimed} {x : Nat} {s : State}
    (hs : Shaped s) (hqueue : (port s d i).untimed = u :: l) (hbook : u.booked = false)
    (hpause : (port s d i).pause = none) (hup : linkUp s d i = true)
    (hstart : untimedStart s d i (u.frame.length + 4) = some x) :
    Answers (exec (.untimedLaunch d i) s) fun t =>
      (port t d i).untimed = l ∧ (port t d i).sent = some ⟨u.frame, none⟩ ∧
      (port t d i).books = (port s d i).books ∧
      OtherRegs s t [(pMAC d i).adr rMAC_TX_FRAMES_LO, (pMAC d i).adr rMAC_TX_FRAMES_HI] := by
  have hexec : exec (.untimedLaunch d i) s = .next (untimedDone (emit (untimedWired s d i x
      (occupancy s d i x (u.frame.length + 4))) d i u.frame none) u.soft 0 x) := by
    simp only [exec, execUntimedLaunch, hqueue, hbook, hpause, hup, hstart, Option.isSome_none, Bool.not_true,
      Bool.or_self, Bool.false_eq_true, if_false]
    rfl
  obtain ⟨huntimed, hbooks⟩ := port_untimedWired hs d.2 i.2 x (occupancy s d i x (u.frame.length + 4))
  rw [hexec, answers_next, port_of_ports (untimedDone_ports _ _ _ _), port_emit (hs.untimedWired d i x _) d.2 i.2]
  refine ⟨huntimed.trans ?_, rfl, hbooks, ?_⟩
  · rw [hqueue, List.drop_one, List.tail_cons]
  · exact ((portMoves_untimedWired d s d i x _).andThen (portMoves_emit d i _ u.frame none)).andThen
      (portMoves_untimedDone d _ u.soft 0 x)

/-- The frame at the head of a queue has starved. -/
def starved (s : State) (d i : Nat) (u : Untimed) (l : List Untimed) : State :=
  updPort s d i fun p => { p with untimed := { u with booked := true } :: l }

theorem starve_shows {d : Fin 4} {i : Fin 8} {u : Untimed} {l : List Untimed} {s : State} (hs : Shaped s)
    (hqueue : (port s d i).untimed = u :: l) (hbook : u.booked = false) :
    Answers (exec (.starve d i) s) fun t =>
      (port t d i).untimed = { u with booked := true } :: l ∧ t.regs = s.regs ∧
      (port t d i).asks = (port s d i).asks ++ [⟨.plain u.frame, u.frame.length + 4, nowP t d, false⟩] := by
  obtain ⟨c, hc⟩ := advMono_eq s (u.since + get s (pLCH d) fLCH_STARVE_NS)
  have hexec : exec (.starve d i) s = .next (addAsk (starved { s with clk := c } d i u l) d i
      ⟨.plain u.frame, u.frame.length + 4, nowP (starved { s with clk := c } d i u l) d, false⟩) := by
    simp only [exec, execStarve, hqueue, hbook, Bool.false_eq_true, if_false, hc]
    rfl
  have hadv : Shaped { s with clk := c } := hc ▸ kept_advMono shaped_closed trivial s _ hs
  have hshape : Shaped (starved { s with clk := c } d i u l) := hadv.updPort d i _
  rw [hexec, answers_next, addAsk, port_updPort_same hshape d.2 i.2, starved, port_updPort_same hadv d.2 i.2]
  exact ⟨rfl, rfl, rfl⟩


/-! ### Frames from software (R197, R198) -/

/-- The descriptor at the head of a ring is taken. -/
theorem ring_takeDesc {s : State} (hs : Shaped s) (n : Fin 16) {de : Desc} {l : List Desc}
    (h : (ix s.rings n Ring.cold).given = de :: l) (w : RingWork) :
    ix (takeDesc s n w).rings n Ring.cold =
      { ix s.rings n Ring.cold with given := l, work := (ix s.rings n Ring.cold).work ++ [(de, w)] } := by
  have hlt : n.val < s.rings.length := by
    rw [hs.rings]
    exact n.2
  rw [takeDesc, updRing, ix_upd_same _ _ _ _ hlt, h]

/-- A ring with a descriptor takes a frame. -/
theorem exec_swFrameSubmit {ring : Fin 16} {w0 : Word} {de : Desc} {l : List Desc} {s : State}
    (htakes : ringTakes s ring 1 = true) (hgiven : (ix s.rings ring Ring.cold).given = de :: l) (w1 w2 w3 : Word)
    (f : List Byte) :
    exec (.swFrameSubmit ring w0 w1 w2 w3 f) s = .next (if w0.toNat &&& 0xF0E0 ≠ 0 then takeDesc s ring .bad
      else if (softOf ring w0 w1 w2 w3 f).mode = 0 then
        untimed (takeDesc s ring (.tx w3.toNat none)) (w0.toNat % 32 / 8) (w0.toNat % 8) f (some (ring.val, w3.toNat))
      else submitSoft (takeDesc s ring (.tx w3.toNat none)) (w0.toNat % 32 / 8) (w0.toNat % 8)
        (softOf ring w0 w1 w2 w3 f)) := by
  have hsome : ¬ (ix s.rings ring ⟨[], [], 0, 0⟩).given = [] := by
    rw [show (⟨[], [], 0, 0⟩ : Ring) = Ring.cold from rfl, hgiven]
    exact List.cons_ne_nil _ _
  simp only [exec, execSwFrameSubmit, htakes, hsome, Bool.not_true, decide_false, Bool.or_self, Bool.false_eq_true,
    if_false]
  split
  · rfl
  · rfl

/-- The request of a frame in mode AT. -/
theorem submitSoft_at {f : SoftFrame} (hmode : f.mode = 1) (s : State) (d i : Nat) :
    submitSoft s d i f = addAsk s d i ⟨.soft f, f.frame.length + 4, pOf s d f.t, true⟩ := by
  simp [submitSoft, hmode]

theorem swFrameSubmit_asks {ring : Fin 16} {w0 : Word} {de : Desc} {l : List Desc} {s : State} (hs : Shaped s)
    (htakes : ringTakes s ring 1 = true) (hgiven : (ix s.rings ring Ring.cold).given = de :: l)
    (hword : w0.toNat &&& 0xF0E0 = 0) (hmode : w0.toNat / 0x100 % 4 = 1) (w1 w2 w3 : Word) (f : List Byte) :
    Answers (exec (.swFrameSubmit ring w0 w1 w2 w3 f) s) fun t =>
      (ix t.rings ring Ring.cold).given = l ∧ t.regs = s.regs ∧
      (ix t.rings ring Ring.cold).work = (ix s.rings ring Ring.cold).work ++ [(de, .tx w3.toNat none)] ∧
      (port t (w0.toNat % 32 / 8) (w0.toNat % 8)).asks = (port s (w0.toNat % 32 / 8) (w0.toNat % 8)).asks ++
        [⟨.soft (softOf ring w0 w1 w2 w3 f), f.length + 4,
          pOf s (w0.toNat % 32 / 8) (BitVec.ofNat 64 (w1.toNat + w2.toNat * 0x100000000)), true⟩] := by
  have hm : (softOf ring w0 w1 w2 w3 f).mode = 1 := hmode
  have hring := ring_takeDesc hs ring hgiven (.tx w3.toNat none)
  have hshape : Shaped (takeDesc s ring (.tx w3.toNat none)) := kept_takeDesc shaped_closed trivial s ring _ hs
  rw [exec_swFrameSubmit htakes hgiven, answers_next, if_neg (not_not.mpr hword), hm, if_neg Nat.one_ne_zero,
    submitSoft_at hm, addAsk, port_updPort_same hshape (by omega) (by omega), updPort_rings, hring]
  exact ⟨rfl, rfl, rfl, rfl⟩

theorem swFrameSubmit_bad {ring : Fin 16} {w0 : Word} {de : Desc} {l : List Desc} {s : State} (hs : Shaped s)
    (htakes : ringTakes s ring 1 = true) (hgiven : (ix s.rings ring Ring.cold).given = de :: l)
    (hword : w0.toNat &&& 0xF0E0 ≠ 0) (w1 w2 w3 : Word) (f : List Byte) :
    Answers (exec (.swFrameSubmit ring w0 w1 w2 w3 f) s) fun t =>
      (ix t.rings ring Ring.cold).given = l ∧ t.regs = s.regs ∧ t.ports = s.ports ∧
      (ix t.rings ring Ring.cold).work = (ix s.rings ring Ring.cold).work ++ [(de, .bad)] := by
  rw [exec_swFrameSubmit htakes hgiven, answers_next, if_pos hword, ring_takeDesc hs ring hgiven]
  exact ⟨rfl, rfl, rfl, rfl⟩

/-! ### Reception (R177, R178, R201) -/

/-- A frame on a link without FEC is judged by its FCS and its length. -/
theorem exec_frameRx {d : Fin 4} {i : Fin 8} {s : State} (hup : linkUp s d i = true)
    (hen : pageEn s (pMAC d i) = true) (hloop : loopMode s d i ≠ 3) (hfec : fecOn s d i = false) (x : RxFrame) :
    exec (.frameRx d i x) s = .next (if !x.fcsOk then bump s (pMAC d i) rMAC_RX_FCS_ERR
      else if x.bytes.length + 4 < 64 ∨ get s (pMAC d i) fMAC_CFG_MAX_LEN < x.bytes.length + 4 then
        bump s (pMAC d i) rMAC_RX_LEN_ERR
      else goodFrame s d i x) := by
  have hcount : countFec s d i x = s := by rw [countFec, hfec, if_neg Bool.false_ne_true]
  have hnone : (loopMode s d i == 3) = false := beq_false_of_ne hloop
  simp only [exec, execFrameRx, hcount, ite_self, hup, hen, hnone, Bool.not_true, Bool.or_self, Bool.false_eq_true,
    if_false]
  split
  · rfl
  · split
    · rfl
    · rfl

theorem frameRx_faulty {d : Fin 4} {i : Fin 8} {s : State} (hup : linkUp s d i = true)
    (hen : pageEn s (pMAC d i) = true) (hloop : loopMode s d i ≠ 3) (hfec : fecOn s d i = false) {x : RxFrame}
    (hfault : x.fcsOk = false ∨ x.bytes.length < 60) :
    Answers (exec (.frameRx d i x) s) fun t =>
      rdN t (pMAC d i) (if x.fcsOk then rMAC_RX_LEN_ERR else rMAC_RX_FCS_ERR) =
        min (rdN s (pMAC d i) (if x.fcsOk then rMAC_RX_LEN_ERR else rMAC_RX_FCS_ERR) + 1) 0xFFFFFFFF ∧
      OtherRegs s t [(pMAC d i).adr (if x.fcsOk then rMAC_RX_LEN_ERR else rMAC_RX_FCS_ERR)] ∧ t.ports = s.ports := by
  rw [exec_frameRx hup hen hloop hfec, answers_next]
  cases hok : x.fcsOk
  case false => exact ⟨rdN_bump_same _ _ _, otherRegs_bump _ _ _, bump_ports _ _ _⟩
  case true =>
    have hshort : x.bytes.length + 4 < 64 := by
      rcases hfault with h | h
      · exact absurd (hok.symm.trans h) (by decide)
      · omega
    rw [Bool.not_true, if_neg Bool.false_ne_true, if_pos (.inl hshort), if_pos rfl]
    exact ⟨rdN_bump_same _ _ _, otherRegs_bump _ _ _, bump_ports _ _ _⟩

/-- A good frame is counted. -/
def rxCounted (s : State) (d i : Nat) : State := add64 s (pMAC d i) rMAC_RX_FRAMES_LO rMAC_RX_FRAMES_HI 1

theorem portMoves_pauseFrame (d : Nat) (i : Fin 8) (s : State) (l : List Byte) (off : Nat) :
    PortMoves d [(.mac i, rMAC_RX_PAUSE), (.mac i, rMAC_STAT)] s (pauseFrame s d i l off) :=
  .ite (((portMoves_bump (.mac i) d s rMAC_RX_PAUSE).andThen (portMoves_updPort d _ d i _)).andThen
    (portMoves_putB (.mac i) d _ fMAC_STAT_PAUSED _)) ((portMoves_bump (.mac i) d s rMAC_RX_PAUSE).mono (by simp))

/-- A MAC Control frame is counted. -/
theorem rdN_pauseFrame (s : State) {d : Nat} (hd : d < 4) (i : Fin 8) (l : List Byte) (off : Nat) :
    rdN (pauseFrame s d i l off) (pMAC d i) rMAC_RX_PAUSE = min (rdN s (pMAC d i) rMAC_RX_PAUSE + 1) 0xFFFFFFFF := by
  rw [pauseFrame]
  dsimp only
  split
  · rw [(portMoves_putB (.mac i) d _ fMAC_STAT_PAUSED _).rdN hd (.mac i) (by simp +decide),
      (portMoves_updPort d _ d i _).rdN hd (.mac i) (by simp +decide),
      rdN_bump_same]
  · exact rdN_bump_same _ _ _

/-- After its count, a good frame moves no register of the MAC but those of a PAUSE frame. -/
theorem rdN_goodFrame (s : State) {d : Nat} (hd : d < 4) (i : Fin 8) (x : RxFrame) {o : Nat} (ho : o < 0x1000)
    (hpause : o ≠ rMAC_RX_PAUSE) (hstat : o ≠ rMAC_STAT) :
    rdN (goodFrame s d i x) (pMAC d i) o = rdN (rxCounted s d i) (pMAC d i) o := by
  rw [goodFrame]
  dsimp only
  split
  · exact (portMoves_pauseFrame d i _ _ _).rdN hd (.mac i) (by simp +decide [ho, hpause.symm, hstat.symm])
  · split
    · rfl
    · exact rdN_congr ((mac_takeFrame ⟨d, i, o, ho⟩ _ d i _ _).trans (mac_writeTiles ⟨d, i, o, ho⟩ _ d _ _))

theorem frameRx_good {d : Fin 4} {i : Fin 8} {s : State} (hup : linkUp s d i = true)
    (hen : pageEn s (pMAC d i) = true) (hloop : loopMode s d i ≠ 3) (hfec : fecOn s d i = false) {x : RxFrame}
    (hok : x.fcsOk = true) (hmin : 60 ≤ x.bytes.length)
    (hmax : x.bytes.length + 4 ≤ get s (pMAC d i) fMAC_CFG_MAX_LEN) :
    Answers (exec (.frameRx d i x) s) fun t =>
      rd64 t (pMAC d i) rMAC_RX_FRAMES_LO rMAC_RX_FRAMES_HI =
        (rd64 s (pMAC d i) rMAC_RX_FRAMES_LO rMAC_RX_FRAMES_HI + 1) % 2 ^ 64 ∧
      rdN t (pMAC d i) rMAC_RX_FCS_ERR = rdN s (pMAC d i) rMAC_RX_FCS_ERR ∧
      rdN t (pMAC d i) rMAC_RX_LEN_ERR = rdN s (pMAC d i) rMAC_RX_LEN_ERR ∧
      ((ethOf x.bytes).ty = 0x8808 →
        rdN t (pMAC d i) rMAC_RX_PAUSE = min (rdN s (pMAC d i) rMAC_RX_PAUSE + 1) 0xFFFFFFFF) := by
  have hexec : exec (.frameRx d i x) s = .next (goodFrame s d i x) := by
    rw [exec_frameRx hup hen hloop hfec, hok, Bool.not_true, if_neg Bool.false_ne_true, if_neg (by omega)]
  have hcount : PortMoves d [(.mac i, rMAC_RX_FRAMES_LO), (.mac i, rMAC_RX_FRAMES_HI)] s (rxCounted s d i) :=
    portMoves_add64 (.mac i) d s rMAC_RX_FRAMES_LO rMAC_RX_FRAMES_HI 1
  rw [hexec, answers_next]
  refine ⟨?_, ?_, ?_, fun hpause => ?_⟩
  · rw [rd64_congr (rdN_goodFrame s d.2 i x (by decide) (by decide) (by decide))
      (rdN_goodFrame s d.2 i x (by decide) (by decide) (by decide))]
    exact rd64_wr64_same _ _ _ (by decide)
  · rw [rdN_goodFrame s d.2 i x (by decide) (by decide) (by decide), hcount.rdN d.2 (.mac i) (by simp +decide)]
  · rw [rdN_goodFrame s d.2 i x (by decide) (by decide) (by decide), hcount.rdN d.2 (.mac i) (by simp +decide)]
  · have hframe : goodFrame s d i x = pauseFrame (rxCounted s d i) d i x.bytes (ethOf x.bytes).off := by
      simp only [goodFrame, hpause, if_true]
      rfl
    rw [hframe, rdN_pauseFrame _ d.2, hcount.rdN d.2 (.mac i) (by simp +decide)]

/-- Settles O20: each row in one theorem. -/
theorem framesInAndOut : Obligations.FramesInAndOut :=
  ⟨fun _ _ f _ hs hmode hup hon => untimedSubmit_joins hs hmode hup hon f,
    fun _ _ f _ hdown => untimedSubmit_drops hdown f,
    fun _ _ _ _ _ _ hs hqueue hbook hpause hup hstart => untimedLaunch_shows hs hqueue hbook hpause hup hstart,
    fun _ _ _ _ _ hs hqueue hbook => starve_shows hs hqueue hbook,
    fun _ _ w1 w2 w3 f _ _ _ hs htakes hgiven hword hmode =>
      swFrameSubmit_asks hs htakes hgiven hword hmode w1 w2 w3 f,
    fun _ _ w1 w2 w3 f _ _ _ hs htakes hgiven hword => swFrameSubmit_bad hs htakes hgiven hword w1 w2 w3 f,
    fun _ _ _ _ hup hen hloop hfec hok hmin hmax => frameRx_good hup hen hloop hfec hok hmin hmax,
    fun _ _ _ _ hup hen hloop hfec hfault => frameRx_faulty hup hen hloop hfec hfault⟩

end Sys2Proof.Machine
end

section
/-! The engines of a Port die (R199–R237, R264): words stored in a run of registers, and what the shared operations
leave of a die beside its ports. -/

namespace Sys2Proof.Machine

theorem Answers.imp {o : Host.Outcome State Fault Refusal} {P Q : State → Prop} (h : Answers o P)
    (hPQ : ∀ t, P t → Q t) : Answers o Q := by
  obtain ⟨t, ho, hp⟩ := h
  exact ⟨t, ho, hPQ t hp⟩

/-! ### Words stored in a run of registers -/

/-- The first `n` registers of a run hold the words that `v` names. -/
def wordsStored (s : State) (p : Pg) (r v : Nat → Nat) (n : Nat) : State :=
  (List.range n).foldl (fun s k => wrN s p (r k) (v k)) s

theorem rdN_wordsStored (s : State) (p : Pg) {r : Nat → Nat} (hr : r.Injective) (v : Nat → Nat) {n k : Nat}
    (hk : k < n) : rdN (wordsStored s p r v n) p (r k) = v k % 2 ^ 32 := by
  induction n with
  | zero => exact absurd hk (Nat.not_lt_zero k)
  | succ n ih =>
    rw [wordsStored, List.range_succ, List.foldl_append, List.foldl_cons, List.foldl_nil]
    rcases Nat.lt_succ_iff_lt_or_eq.mp hk with hlt | rfl
    · rw [rdN_wrN_ne _ _ _ _ _ _ (p.adr_ne (hr.ne hlt.ne))]
      exact ih hlt
    · exact rdN_wrN_same _ _ _ _

theorem rdA_wordsStored_ne (s : State) (p : Pg) (r v : Nat → Nat) {n o : Nat} (h : ∀ k, k < n → o ≠ r k) :
    rdA (wordsStored s p r v n) (p.adr o) = rdA s (p.adr o) :=
  rdA_foldl (fun k hk s => rdA_wrN_ne s p _ _ (p.adr_ne (h k (List.mem_range.mp hk)))) s

theorem natLE_lt (l : List Byte) : natLE l < 256 ^ l.length := by
  induction l with
  | nil => exact Nat.one_pos
  | cons b t ih =>
    have hb : b.toNat < 256 := b.isLt
    rw [natLE, List.length_cons, Nat.pow_succ]
    omega

/-- A field of `k` bytes is a number of `k` bytes. -/
theorem be_lt (l : List Byte) (off k : Nat) : be l off k < 256 ^ k := by
  have hlen : (slice l off k).reverse.length ≤ k := by
    rw [List.length_reverse, slice, List.length_take]
    exact Nat.min_le_left _ _
  exact (natLE_lt _).trans_le (Nat.pow_le_pow_right (by decide) hlen)

/-! ### A die beside its ports -/

theorem Shaped.updPd {s : State} (h : Shaped s) (d : Nat) {f : PortDie → PortDie} (hf : ∀ x, (f x).ports = x.ports) :
    Shaped (updPd s d f) :=
  kept_updPd shaped_closed trivial s d f (fun x => (congrArg List.length (hf x)).symm ▸ fits_same _ _) h

theorem pd_updPort_keeps {β : Type} (g : PortDie → β) (hg : ∀ x l, g { x with ports := l } = g x) (s : State)
    (d i : Nat) (f : Port → Port) (e : Nat) : g (pd (updPort s d i f) e) = g (pd s e) :=
  pd_updPd_keeps g (fun x => hg x _) s d e

/-- The tiles of a frame or of a table move of a die only the injection that is armed. -/
theorem pd_writeTiles {β : Type} (g : PortDie → β) (hg : ∀ x j, g { x with inj := j } = g x) (s : State)
    (d kind n e : Nat) : g (pd (writeTiles s d kind n).1 e) = g (pd s e) := by
  rw [writeTiles]
  split
  · rfl
  · split
    · rfl
    · simp only
      split
      · rw [pd_of_ports (putB_ports _ _ _ _), pd_updPd_keeps g (fun x => hg x _), pd_of_ports (bumpBy_ports _ _ _ _)]
      · rw [pd_updPd_keeps g (fun x => hg x _), pd_of_ports (bumpBy_ports _ _ _ _)]

/-- The Hub's key page and a die's SIV page keep their registers while a die's other pages move. -/
theorem rdN_of_portMoves_beside {d : Nat} {l : List (PortPage × Nat)} {s t : State} (h : PortMoves d l s t)
    (hl : ∀ y ∈ l, y.2 < 0x1000) {p : Pg} {o : Nat} (ho : o < 0x1000)
    (hpage : p.die = 0 ∧ p.page = 0x080 ∨ p.die = 4 + d ∧ p.page = 0x060 ∧ d < 4) : rdN t p o = rdN s p o := by
  refine rdN_congr (h _ (fun hmem => ?_) ?_)
  · obtain ⟨⟨y, o'⟩, hy, hadr⟩ := List.mem_map.mp hmem
    have ho' := hl _ hy
    have hy := y.num_lt
    have hne : y.num ≠ 0x060 := by cases y <;> simp only [PortPage.num] <;> omega
    rw [PortPage.pg_eq] at hadr
    simp only [Pg.adr] at hadr ho'
    omega
  · simp only [Pg.adr]
    omega

end Sys2Proof.Machine
end

section
/-! The address and VLAN tables, the service view and the safe-state line of a Port die (R199, R200, R211, R212): O32. -/

namespace Sys2Proof.Machine

/-! ### The commands of the tables (R200) -/

theorem rANS_TAB_DATA_injective : Function.Injective rANS_TAB_DATA := fun j k h => by
  simp only [rANS_TAB_DATA] at h
  omega

theorem portMoves_tabFields (d : Nat) (s : State) (idx : Nat) (addr rw : Bool) :
    PortMoves d [(.ans, rANS_TAB_CMD)] s (tabFields s d idx addr rw) :=
  (((portMoves_put .ans d s fANS_TAB_CMD_IDX idx).andThen (portMoves_putB .ans d _ fANS_TAB_CMD_TABLE addr)).andThen
    (portMoves_putB .ans d _ fANS_TAB_CMD_RW rw)).mono (by simp)

/-- The command fields are stored and ERR says whether the GO is refused. -/
def tabJudged (s : State) (d idx : Nat) (addr rw : Bool) : State :=
  putB (tabFields s d idx addr rw) (pANS d) fANS_TAB_CMD_ERR (tabRefused idx addr)

theorem portMoves_tabJudged (d : Nat) (s : State) (idx : Nat) (addr rw : Bool) :
    PortMoves d [(.ans, rANS_TAB_CMD)] s (tabJudged s d idx addr rw) :=
  ((portMoves_tabFields d s idx addr rw).andThen (portMoves_putB .ans d _ fANS_TAB_CMD_ERR _)).mono (by simp)

theorem tabJudged_err (s : State) (d idx : Nat) (addr rw : Bool) :
    flag (tabJudged s d idx addr rw) (pANS d) fANS_TAB_CMD_ERR = tabRefused idx addr :=
  flag_putB_same _ _ _ _ (by decide) rfl

@[simp] theorem tabJudged_ports (s : State) (d idx : Nat) (addr rw : Bool) :
    (tabJudged s d idx addr rw).ports = s.ports := by
  rw [tabJudged, tabFields, putB_ports, putB_ports, putB_ports, put_ports]

section

variable {r : Requester} {d idx : Nat} {addr : Bool} {s : State} (hw : writable s r (pANS d) = true)
  (hbusy : flag s (pANS d) fANS_TAB_CMD_BUSY = false)
include hw hbusy

/-- A GO that is not refused runs its command. -/
theorem tabGo_acts (hok : tabRefused idx addr = false) (rw : Bool) (f : State → State) :
    tabGo r d idx addr rw f s = f (tabJudged s d idx addr rw) := by
  simp only [tabGo, onWrite_writable hw, hbusy, hok, tabJudged, Bool.false_eq_true, if_false]

/-- A refused GO only sets ERR. -/
theorem tabGo_refused (hno : tabRefused idx addr = true) (rw : Bool) (f : State → State) :
    tabGo r d idx addr rw f s = tabJudged s d idx addr rw := by
  simp only [tabGo, onWrite_writable hw, hbusy, hno, tabJudged, Bool.false_eq_true, if_false, if_true]

end

/-- The words that a read of an entry brings. -/
def tabEntry (s : State) (d idx : Nat) (addr : Bool) : List Nat :=
  if addr then addrEntry s d idx else [vlanEntry s d idx, 0, 0, 0, 0]

theorem tabEntry_of_ports {s t : State} (h : t.ports = s.ports) (d idx : Nat) (addr : Bool) :
    tabEntry t d idx addr = tabEntry s d idx addr := by
  rw [tabEntry, addrEntry, vlanEntry, pd_of_ports h, tabEntry, addrEntry, vlanEntry]

theorem ansTabRead_shows {r : Requester} {d : Fin 4} {idx : Fin 128} {addr : Bool} {s : State}
    (hw : writable s r (pANS d) = true) (hbusy : flag s (pANS d) fANS_TAB_CMD_BUSY = false)
    (hok : tabRefused idx addr = false) :
    Answers (exec (.ansTabRead r d idx addr) s) fun t => flag t (pANS d) fANS_TAB_CMD_ERR = false ∧
      (∀ k : Fin 5, rdN t (pANS d) (rANS_TAB_DATA k) = ix (tabEntry s d idx addr) k 0 % 2 ^ 32) ∧ t.ports = s.ports := by
  have hexec : exec (.ansTabRead r d idx addr) s = .next (wordsStored (tabJudged s d idx addr false) (pANS d)
      rANS_TAB_DATA (ix (tabEntry (tabJudged s d idx addr false) d idx addr) · 0) 5) :=
    congrArg Host.Outcome.next (tabGo_acts hw hbusy hok false _)
  refine ⟨_, hexec, ?_, fun k => ?_, commandFrames _ _ _ hexec .ports (by simp [mayChange])⟩
  · have hbeside : ∀ k < 5, fANS_TAB_CMD_ERR.off ≠ rANS_TAB_DATA k := fun k _ => by
      simp only [rANS_TAB_CMD, rANS_TAB_DATA]
      omega
    rw [flag_congr (rdA_wordsStored_ne _ _ _ _ hbeside), tabJudged_err, hok]
  · rw [rdN_wordsStored _ _ rANS_TAB_DATA_injective _ k.2, tabEntry_of_ports (tabJudged_ports _ _ _ _ _)]

theorem ansTabRead_refused {r : Requester} {d : Fin 4} {idx : Fin 128} {s : State}
    (hw : writable s r (pANS d) = true) (hbusy : flag s (pANS d) fANS_TAB_CMD_BUSY = false) (hidx : 63 < idx.val) :
    Answers (exec (.ansTabRead r d idx false) s) fun t => flag t (pANS d) fANS_TAB_CMD_ERR = true ∧
      OtherRegs s t [(pANS d).adr rANS_TAB_CMD] ∧ t.ports = s.ports := by
  have hno : tabRefused idx false = true := by simp [tabRefused, hidx]
  have hexec : exec (.ansTabRead r d idx false) s = .next (tabJudged s d idx false false) :=
    congrArg Host.Outcome.next (tabGo_refused hw hbusy hno false _)
  rw [hexec, answers_next, tabJudged_err]
  exact ⟨hno, portMoves_tabJudged d s idx false false, tabJudged_ports _ _ _ _ _⟩

/-- The words in TAB_DATA that a write takes. -/
def tabWords (s : State) (d : Nat) (addr : Bool) : List Nat :=
  (List.range (if addr then 5 else 1)).map fun k => rdN s (pANS d) (rANS_TAB_DATA k)

theorem tabWords_congr {s t : State} {d : Nat} (h : PortMoves d [(.ans, rANS_TAB_CMD)] s t) (hd : d < 4) (addr : Bool) :
    tabWords t d addr = tabWords s d addr := by
  refine List.map_congr_left fun k hk => h.rdN hd .ans ?_
  have hlt : k < 5 := (List.mem_range.mp hk).trans_le (by split <;> decide)
  have hadr : rANS_TAB_DATA k < 0x1000 ∧ rANS_TAB_CMD ≠ rANS_TAB_DATA k := by
    simp only [rANS_TAB_CMD, rANS_TAB_DATA]
    omega
  simpa +decide using hadr

theorem ansTabWrite_shows {r : Requester} {d : Fin 4} {idx : Fin 128} {addr : Bool} {s : State} (hs : Shaped s)
    (hw : writable s r (pANS d) = true) (hbusy : flag s (pANS d) fANS_TAB_CMD_BUSY = false)
    (hok : tabRefused idx addr = false) :
    Answers (exec (.ansTabWrite r d idx addr) s) fun t => flag t (pANS d) fANS_TAB_CMD_BUSY = true ∧
      flag t (pANS d) fANS_TAB_CMD_ERR = false ∧ (pd t d).tabWait = some (addr, idx.val, tabWords s d addr) ∧
      OtherRegs s t [(pANS d).adr rANS_TAB_CMD] := by
  have hjudged := portMoves_tabJudged d s idx addr true
  have hbusied : PortMoves d [(.ans, rANS_TAB_CMD)] s (putB (tabJudged s d idx addr true) (pANS d)
      fANS_TAB_CMD_BUSY true) :=
    (hjudged.andThen (portMoves_putB .ans d _ fANS_TAB_CMD_BUSY true)).mono (by simp)
  have hwaits := hbusied.andThen (portMoves_updPd d _ d fun x =>
    { x with tabWait := some (addr, idx.val, tabWords s d addr) })
  have hexec : exec (.ansTabWrite r d idx addr) s = .next (updPd (putB (tabJudged s d idx addr true) (pANS d)
      fANS_TAB_CMD_BUSY true) d fun x =>
        { x with tabWait := some (addr, idx.val, tabWords (tabJudged s d idx addr true) d addr) }) :=
    congrArg Host.Outcome.next (tabGo_acts hw hbusy hok true _)
  have hshape : Shaped (putB (tabJudged s d idx addr true) (pANS d) fANS_TAB_CMD_BUSY true) :=
    kept_putB shaped_closed _ _ _ _ (kept_putB shaped_closed _ _ _ _ (kept_tabFields shaped_closed s d idx addr true hs))
  rw [hexec, answers_next, pd_updPd_same hshape d.2, tabWords_congr hjudged d.2,
    (portMoves_updPd d _ d _).flag d.2 .ans (by simp +decide), (portMoves_updPd d _ d _).flag d.2 .ans (by simp +decide)]
  refine ⟨flag_putB_same _ _ _ _ (by decide) rfl, ?_, rfl, hwaits⟩
  rw [flag_putB_beside (by decide), tabJudged_err, hok]

/-- The table write that runs is done. -/
def PortDie.tabDone (x : PortDie) (addr : Bool) (idx : Nat) (e : List Nat) : PortDie :=
  if addr then { x with tabWait := none, addr := amSet idx e x.addr }
  else { x with tabWait := none, vlan := amSet idx (ix e 0 0) x.vlan }

theorem ansTabDone_shows {d : Fin 4} {addr : Bool} {idx : Nat} {e : List Nat} {s : State} (hs : Shaped s)
    (hwait : (pd s d).tabWait = some (addr, idx, e)) :
    Answers (exec (.ansTabDone d) s) fun t => (pd t d).tabWait = none ∧ flag t (pANS d) fANS_TAB_CMD_BUSY = false ∧
      (addr = true → addrEntry t d idx = e) ∧ (addr = false → vlanEntry t d idx = ix e 0 0) ∧
      OtherRegs s t [(pANS d).adr rANS_TAB_CMD] := by
  have hexec : exec (.ansTabDone d) s = .next (updPd (putB s (pANS d) fANS_TAB_CMD_BUSY false) d fun x =>
      x.tabDone addr idx e) := by
    simp only [exec, execAnsTabDone, hwait]
    rfl
  have hregs := (portMoves_putB .ans d s fANS_TAB_CMD_BUSY false).andThen
    (portMoves_updPd d _ d fun x => x.tabDone addr idx e)
  rw [hexec, answers_next, addrEntry, vlanEntry, pd_updPd_same (kept_putB shaped_closed _ _ _ _ hs) d.2,
    (portMoves_updPd d _ d _).flag d.2 .ans (by simp +decide)]
  have hidle : flag (putB s (pANS d) fANS_TAB_CMD_BUSY false) (pANS d) fANS_TAB_CMD_BUSY = false :=
    flag_putB_same _ _ _ _ (by decide) rfl
  cases addr with
  | false =>
    refine ⟨rfl, hidle, by simp, ?_, hregs⟩
    simp [PortDie.tabDone, amGet_set]
  | true =>
    refine ⟨rfl, hidle, ?_, by simp, hregs⟩
    simp [PortDie.tabDone, amGet_set]

/-! ### Forms and views (R211, R212, R258) -/

theorem portMoves_showForm (x : PortPage) (d : Nat) (s : State) (f : Fld) (form bit : Nat) :
    PortMoves d [(x, f.off), (x, rINT_RAW)] s (showForm s (x.pg d) f form bit) :=
  .ite (.refl _ _ _) ((portMoves_put x d s f form).andThen (portMoves_raise x d _ bit))

/-- A form that changes sets its interrupt bit and lets none fall. -/
theorem PortPage.intRaw_showForm (x : PortPage) {d b : Nat} (hd : d < 4) (hb : b < 32) {s : State} {f : Fld}
    (hf : f.off < 0x1000 ∧ f.off ≠ rINT_RAW) (h : intRaw s (x.pg d) b = true) (form bit : Nat) :
    intRaw (showForm s (x.pg d) f form bit) (x.pg d) b = true := by
  obtain ⟨hlt, hne⟩ := hf
  rw [showForm]
  split
  · exact h
  · have hput : intRaw (put s (x.pg d) f form) (x.pg d) b = true := by
      rw [(portMoves_put x d s f form).intRaw hd x b (by simp +decide [hlt, hne])]
      exact h
    rcases eq_or_ne b bit with rfl | hbit
    · exact x.intRaw_raise hd hb _
    · rw [x.intRaw_raise_ne hd hb hbit]
      exact hput

/-- The ANS page shows the line and its form. -/
def ansShown (s : State) (d : Nat) : State :=
  showForm (putB s (pANS d) fANS_STAT_SAFE_LINE (pd s d).safe) (pANS d) fANS_STAT_FORM (ansForm s d) 4

/-- The registers of the PTE page that the forms move. -/
@[simp] def pteFormRegs : List (PortPage × Nat) :=
  [(.pte, rPTE_STAT), (.pte, rINT_RAW), (.pte, rPTE_INST_ACT), (.pte, rPTE_INST_PASSIVE)]

/-- What a powered die shows: the ANS page, then the PTE page, then the primary. -/
theorem showForms_eq {s : State} {d : Nat} (hon : pageOn s (pANS d) = true) :
    ∃ u n, showForms s d = put u (pANS d) fANS_STAT_PRIMARY n ∧ PortMoves d pteFormRegs (ansShown s d) u := by
  refine ⟨_, _, by rw [showForms, hon]; rfl, ?_⟩
  exact ((((portMoves_putB .pte d _ fPTE_STAT_SAFE_LINE _).andThen
    (portMoves_showForm .pte d _ fPTE_STAT_FORM _ 7)).andThen (portMoves_wrN .pte d _ rPTE_INST_ACT _)).andThen
    (portMoves_wrN .pte d _ rPTE_INST_PASSIVE _)).mono (by simp)

theorem showForms_off {s : State} {d : Nat} (hoff : pageOn s (pANS d) = false) : showForms s d = s := by
  rw [showForms, hoff, Bool.not_false, if_pos rfl]

@[simp] theorem showForms_ports (s : State) (d : Nat) : (showForms s d).ports = s.ports :=
  (kept_showForms (leaves_closed (fun _ => False) s) s d (leaves_refl _ s) .ports).resolve_left id

@[simp] theorem showStale_ports (s : State) (d : Nat) (b : Bool) : (showStale s d b).ports = s.ports := by
  rw [showStale, doubt_ports, putB_ports, putB_ports]

theorem flag_ansShown (s : State) (d : Nat) :
    flag (ansShown s d) (pANS d) fANS_STAT_VIEW_STALE = flag s (pANS d) fANS_STAT_VIEW_STALE := by
  rw [ansShown, showForm]
  split
  · exact flag_putB_beside (by decide)
  · rw [flag_congr (rdA_raise_ne _ _ _ (offRec_of_off _ (by decide) (by decide)) (Pg.adr_ne _ (by decide))),
      flag_put_apart _ _ fANS_STAT_FORM fANS_STAT_VIEW_STALE _ rfl (by decide) (by decide), flag_putB_beside (by decide)]

/-- Showing the forms leaves VIEW_STALE. -/
theorem flag_showForms (s : State) {d : Nat} (hd : d < 4) :
    flag (showForms s d) (pANS d) fANS_STAT_VIEW_STALE = flag s (pANS d) fANS_STAT_VIEW_STALE := by
  cases hon : pageOn s (pANS d)
  · rw [showForms_off hon]
  · obtain ⟨u, n, heq, hmoves⟩ := showForms_eq hon
    rw [heq, flag_put_apart _ _ fANS_STAT_PRIMARY fANS_STAT_VIEW_STALE _ rfl (by decide) (by decide),
      hmoves.flag hd .ans (by simp +decide), flag_ansShown]

/-- Showing the forms lets no interrupt bit of the ANS page fall. -/
theorem intRaw_showForms {s : State} {d b : Nat} (hd : d < 4) (hb : b < 32) (h : intRaw s (pANS d) b = true) :
    intRaw (showForms s d) (pANS d) b = true := by
  cases hon : pageOn s (pANS d)
  · rw [showForms_off hon]
    exact h
  · obtain ⟨u, n, heq, hmoves⟩ := showForms_eq hon
    rw [heq, (portMoves_put .ans d u fANS_STAT_PRIMARY n).intRaw hd .ans b (by simp +decide),
      hmoves.intRaw hd .ans b (by simp +decide)]
    refine PortPage.intRaw_showForm .ans hd hb (by decide) ?_ _ _
    rw [(portMoves_putB .ans d s fANS_STAT_SAFE_LINE _).intRaw hd .ans b (by simp +decide)]
    exact h

theorem flag_showStale (s : State) {d : Nat} (hd : d < 4) (b : Bool) :
    flag (showStale s d b) (pANS d) fANS_STAT_VIEW_STALE = b := by
  rw [showStale, (portMoves_doubt .ans d _ 0 _).flag hd .ans (by simp +decide),
    (portMoves_putB .pte d _ fPTE_STAT_VIEW_STALE b).flag hd .ans (by simp +decide)]
  exact flag_putB_same _ _ _ _ (by decide) rfl

theorem portMoves_showStale (d : Nat) (s : State) (b : Bool) :
    PortMoves d [(.ans, rANS_STAT), (.pte, rPTE_STAT), (.ans, rDOUBT_RAW)] s (showStale s d b) :=
  ((portMoves_putB .ans d s fANS_STAT_VIEW_STALE b).andThen
    (portMoves_putB .pte d _ fPTE_STAT_VIEW_STALE b)).andThen (portMoves_doubt .ans d _ 0 _)

/-- The die has taken the view of the latest servo update. -/
def viewTaken (s : State) (d : Nat) : State :=
  updPd s d fun x => { x with view := some (s.dsc.view, mono s), leapDone := leapNow s d s.dsc.view }

theorem serviceViewRx_shows {d : Fin 4} {s : State} (hs : Shaped s) (hon : pageOn s (pANS d) = true) :
    Answers (exec (.serviceViewRx d) s) fun t => (pd t d).view = some (s.dsc.view, mono s) ∧
      flag t (pANS d) fANS_STAT_VIEW_STALE = false ∧ t.clk = s.clk := by
  have hexec : exec (.serviceViewRx d) s = .next (showForms (showStale (viewTaken s d) d false) d) := by
    simp only [exec, execServiceViewRx, hon, if_true, viewTaken]
  refine ⟨_, hexec, ?_, ?_, commandFrames _ _ _ hexec .clk (by simp [mayChange])⟩
  · rw [pd_of_ports (showForms_ports _ _), pd_of_ports (showStale_ports _ _ _), viewTaken, pd_updPd_same hs d.2]
  · rw [flag_showForms _ d.2, flag_showStale _ d.2]

theorem ansView_shows {d : Fin 4} {v : View × Nat} {s : State} (hview : (pd s d).view = some v)
    (hfresh : flag s (pANS d) fANS_STAT_VIEW_STALE = false) (hon : pageOn s (pANS d) = true) :
    Answers (exec (.ansView d) s) fun t =>
      flag t (pANS d) fANS_STAT_VIEW_STALE = true ∧ intRaw t (pANS d) 5 = true := by
  have hexec : exec (.ansView d) s = .next (showForms (showStale (raise (advMono s (v.2 + 250000001)) (pANS d) 5) d
      true) d) := by
    simp only [exec, execAnsView, hview, hfresh, hon, Bool.not_true, Bool.or_self, Bool.false_eq_true, if_false]
  rw [hexec, answers_next, flag_showForms _ d.2, flag_showStale _ d.2]
  refine ⟨rfl, intRaw_showForms d.2 (by decide) ?_⟩
  rw [(portMoves_showStale d _ true).intRaw d.2 .ans 5 (by simp +decide)]
  exact PortPage.intRaw_raise .ans d.2 (by decide) _

theorem safeLineChange_shows {d : Fin 4} {s : State} (hs : Shaped s) (hon : pageOn s (pANS d) = true) (driven : Bool) :
    Answers (exec (.safeLineChange d driven) s) fun t =>
      (pd t d).safe = (!driven || flag s pSAF fSAF_STAT_SAFE) ∧ t.clk = s.clk := by
  have hexec : exec (.safeLineChange d driven) s = .next (showForms (updPd s d fun x =>
      { x with safe := !driven || flag s pSAF fSAF_STAT_SAFE }) d) := by
    simp only [exec, execSafeLineChange, hon, if_true]
  refine ⟨_, hexec, ?_, commandFrames _ _ _ hexec .clk (by simp [mayChange])⟩
  rw [pd_of_ports (showForms_ports _ _), pd_updPd_same hs d.2]

/-- Settles O32: each row in one theorem; a read of either table in one. -/
theorem answerTablesAndView : Obligations.AnswerTablesAndView := by
  refine ⟨fun _ _ _ _ hw hbusy => ansTabRead_shows hw hbusy rfl, fun _ d idx s hw hbusy hidx => ?vlan,
    fun _ _ _ _ hw hbusy hidx => ansTabRead_refused hw hbusy hidx,
    fun _ _ _ _ _ hs hw hbusy hok => ansTabWrite_shows hs hw hbusy hok,
    fun _ _ _ _ _ hs hwait => ansTabDone_shows hs hwait, fun _ _ hs hon => serviceViewRx_shows hs hon,
    fun _ _ _ hview hfresh hon => ansView_shows hview hfresh hon,
    fun _ driven _ hs hon => safeLineChange_shows hs hon driven⟩
  case vlan =>
    have hok : tabRefused idx false = false := by simp [tabRefused, hidx]
    exact (ansTabRead_shows hw hbusy hok).imp fun t ⟨herr, hdata, hports⟩ => ⟨herr, hdata 0, hports⟩

end Sys2Proof.Machine
end

section
/-! The secrets and the entries of the table engine of a Port die (R219, R220, R227, R264): drawing a secret, and the
entries of prefixes and sessions through the registers. -/

namespace Sys2Proof.Machine

/-! ### Secrets (R219, R227) -/

/-- Drawing a secret moves of a die only the count of its nonces. -/
theorem pd_drawSecret {β : Type} (g : PortDie → β) (hg : ∀ x n, g { x with nonces := n } = g x) (s : State)
    (d e : Nat) : g (pd (drawSecret s d).1 e) = g (pd s e) := by
  simp only [drawSecret]
  split
  · rw [pd_of_ports (drawn_ports _)]
  · split
    · rw [pd_of_ports (drawn_ports _), pd_updPd_keeps g (fun x => hg x _)]
    · rfl

@[simp] theorem drawSecret_regs (s : State) (d : Nat) : (drawSecret s d).1.regs = s.regs := by
  simp only [drawSecret]
  split
  · rfl
  · split
    · rfl
    · rfl

/-- The key island supplies a secret. -/
theorem drawSecret_island {s : State} (h : islandSecret s = true) (d : Nat) : (drawSecret s d).2.isSome = true := by
  simp only [drawSecret, h, if_true, Option.isSome_some]

theorem Shaped.drawSecret {s : State} (h : Shaped s) (d : Nat) : Shaped (drawSecret s d).1 :=
  kept_drawSecret shaped_closed trivial s d h

theorem portMoves_showReady (d : Nat) (s : State) : PortMoves d [(.tbl, rTBL_STAT)] s (showReady s d) :=
  portMoves_putB .tbl d s fTBL_STAT_KEY_READY _

theorem flag_showReady (s : State) (d : Nat) : flag (showReady s d) (pTBL d) fTBL_STAT_KEY_READY =
    ((pd s d).rateKey.isSome && (pd s d).sesKey.isSome) :=
  flag_putB_same _ _ _ _ (by decide) rfl

@[simp] theorem showReady_ports (s : State) (d : Nat) : (showReady s d).ports = s.ports := putB_ports _ _ _ _

/-- A secret is drawn for the rate table, and KEY_READY does not show it yet. -/
def rateKeyDrawn (s : State) (d : Nat) : State :=
  updPd (drawSecret s d).1 d fun x =>
    { x with rateKey := if (drawSecret s d).2.isSome then (drawSecret s d).2 else x.rateKey }

/-- A secret is drawn for the session table, and KEY_READY does not show it yet. -/
def sesKeyDrawn (s : State) (d : Nat) : State :=
  updPd (drawSecret s d).1 d fun x =>
    { x with sesKey := if (drawSecret s d).2.isSome then (drawSecret s d).2 else x.sesKey }

theorem newRateKey_eq (s : State) (d : Nat) : newRateKey s d = showReady (rateKeyDrawn s d) d := rfl

theorem newSesKey_eq (s : State) (d : Nat) : newSesKey s d = showReady (sesKeyDrawn s d) d := rfl

theorem portMoves_newRateKey (d : Nat) (s : State) : PortMoves d [(.tbl, rTBL_STAT)] s (newRateKey s d) :=
  (PortMoves.of_regs (l := []) (drawSecret_regs s d)).andThen (portMoves_showReady d _)

theorem portMoves_newSesKey (d : Nat) (s : State) : PortMoves d [(.tbl, rTBL_STAT)] s (newSesKey s d) :=
  (PortMoves.of_regs (l := []) (drawSecret_regs s d)).andThen (portMoves_showReady d _)

/-- A new secret of the rate table moves nothing else of a die but the count of its nonces. -/
theorem pd_newRateKey {β : Type} (g : PortDie → β) (hg : ∀ x n, g { x with nonces := n } = g x)
    (hkey : ∀ x k, g { x with rateKey := k } = g x) (s : State) (d e : Nat) :
    g (pd (newRateKey s d) e) = g (pd s e) := by
  rw [newRateKey_eq, pd_of_ports (showReady_ports _ _), rateKeyDrawn, pd_updPd_keeps g (fun x => hkey x _),
    pd_drawSecret g hg]

theorem pd_newSesKey {β : Type} (g : PortDie → β) (hg : ∀ x n, g { x with nonces := n } = g x)
    (hkey : ∀ x k, g { x with sesKey := k } = g x) (s : State) (d e : Nat) :
    g (pd (newSesKey s d) e) = g (pd s e) := by
  rw [newSesKey_eq, pd_of_ports (showReady_ports _ _), sesKeyDrawn, pd_updPd_keeps g (fun x => hkey x _),
    pd_drawSecret g hg]

/-! ### SECRET_RETRY (R227) -/

/-- A rate table without a secret has asked for one again. -/
def rateKeyRetried (s : State) (d : Nat) : State := if (pd s d).rateKey.isNone then newRateKey s d else s

/-- A session table without a secret has asked for one again. -/
def sesKeyRetried (s : State) (d : Nat) : State := if (pd s d).sesKey.isNone then newSesKey s d else s

theorem portMoves_rateKeyRetried (d : Nat) (s : State) : PortMoves d [(.tbl, rTBL_STAT)] s (rateKeyRetried s d) :=
  .ite (portMoves_newRateKey d s) (.refl _ _ _)

theorem portMoves_sesKeyRetried (d : Nat) (s : State) : PortMoves d [(.tbl, rTBL_STAT)] s (sesKeyRetried s d) :=
  .ite (portMoves_newSesKey d s) (.refl _ _ _)

theorem Shaped.rateKeyRetried {s : State} (h : Shaped s) (d : Nat) : Shaped (rateKeyRetried s d) := by
  rw [Machine.rateKeyRetried]
  split
  · exact kept_newRateKey shaped_closed trivial s d h
  · exact h

theorem sesKey_rateKeyRetried (s : State) (d : Nat) : (pd (rateKeyRetried s d) d).sesKey = (pd s d).sesKey := by
  rw [rateKeyRetried]
  split
  · exact pd_newRateKey PortDie.sesKey (fun _ _ => rfl) (fun _ _ => rfl) s d d
  · rfl

theorem rateKey_sesKeyRetried (s : State) (d : Nat) : (pd (sesKeyRetried s d) d).rateKey = (pd s d).rateKey := by
  rw [sesKeyRetried]
  split
  · exact pd_newSesKey PortDie.rateKey (fun _ _ => rfl) (fun _ _ => rfl) s d d
  · rfl

/-- The secret of one table takes nothing from the island. -/
theorem islandSecret_rateKeyRetried (s : State) (d : Nat) :
    islandSecret (rateKeyRetried s d) = islandSecret s := by
  have hpwr : (rateKeyRetried s d).pwr = s.pwr := by
    rw [rateKeyRetried]
    split
    · exact (kept_newRateKey (leaves_closed (· = Part.ports) s) rfl s d (leaves_refl _ s) .pwr).resolve_left (by simp)
    · rfl
  have hok := rdN_of_portMoves_beside (portMoves_rateKeyRetried d s) (p := pKEY) (o := rKEY_STAT) (by simp +decide)
    (by decide) (.inl ⟨rfl, rfl⟩)
  simp only [islandSecret, pageOn, domOn, flag, get, hpwr, hok]

section

variable {s : State} (hs : Shaped s) {d : Nat} (hd : d < 4) (hisland : islandSecret s = true)
include hs hd hisland

theorem rateKey_rateKeyRetried : (pd (rateKeyRetried s d) d).rateKey.isSome = true := by
  rw [rateKeyRetried]
  split
  · rw [newRateKey_eq, pd_of_ports (showReady_ports _ _), rateKeyDrawn, pd_updPd_same (hs.drawSecret d) hd]
    simp only [drawSecret_island hisland, if_true]
  · next h => exact Option.isSome_iff_ne_none.mpr (by simpa using h)

theorem sesKey_sesKeyDrawn : (pd (sesKeyDrawn s d) d).sesKey.isSome = true := by
  rw [sesKeyDrawn, pd_updPd_same (hs.drawSecret d) hd]
  simp only [drawSecret_island hisland, if_true]

theorem sesKey_sesKeyRetried : (pd (sesKeyRetried s d) d).sesKey.isSome = true := by
  rw [sesKeyRetried]
  split
  · rw [newSesKey_eq, pd_of_ports (showReady_ports _ _)]
    exact sesKey_sesKeyDrawn hs hd hisland
  · next h => exact Option.isSome_iff_ne_none.mpr (by simpa using h)

/-- KEY_READY shows the secret that the session table took last. -/
theorem ready_sesKeyRetried (hnone : (pd s d).sesKey = none) (hrate : (pd s d).rateKey.isSome = true) :
    flag (sesKeyRetried s d) (pTBL d) fTBL_STAT_KEY_READY = true := by
  have hkept : (pd (sesKeyDrawn s d) d).rateKey = (pd s d).rateKey := by
    rw [sesKeyDrawn, pd_updPd_keeps PortDie.rateKey (by exact fun _ => rfl),
      pd_drawSecret PortDie.rateKey (fun _ _ => rfl)]
  rw [sesKeyRetried, hnone, Option.isNone_none, if_pos rfl, newSesKey_eq, flag_showReady, hkept, hrate,
    sesKey_sesKeyDrawn hs hd hisland]
  rfl

end

theorem secretRetry_shows {d : Fin 4} {s : State} (hs : Shaped s) (hon : pageOn s (pTBL d) = true)
    (hen : pageEn s (pTBL d) = true) (hisland : islandSecret s = true) :
    Answers (exec (.secretRetry d) s) fun t => (pd t d).rateKey.isSome = true ∧ (pd t d).sesKey.isSome = true ∧
      ((pd s d).sesKey = none → flag t (pTBL d) fTBL_STAT_KEY_READY = true) ∧
      OtherRegs s t [(pTBL d).adr rTBL_STAT] := by
  have hexec : exec (.secretRetry d) s = .next (sesKeyRetried (rateKeyRetried s d) d) := by
    simp only [exec, execSecretRetry, hon, hen, Bool.and_self, if_true]
    rfl
  have hmoves : PortMoves d [(.tbl, rTBL_STAT)] s (sesKeyRetried (rateKeyRetried s d) d) :=
    ((portMoves_rateKeyRetried d s).andThen (portMoves_sesKeyRetried d _)).mono (by simp)
  have hrate := rateKey_rateKeyRetried hs d.2 hisland
  have hisland' : islandSecret (rateKeyRetried s d) = true := (islandSecret_rateKeyRetried s d).trans hisland
  rw [hexec, answers_next, rateKey_sesKeyRetried]
  exact ⟨hrate, sesKey_sesKeyRetried (hs.rateKeyRetried d) d.2 hisland',
    fun hnone => ready_sesKeyRetried (hs.rateKeyRetried d) d.2 hisland' ((sesKey_rateKeyRetried s d).trans hnone) hrate,
    hmoves⟩

/-! ### Prefix entries (R220) -/

theorem rTBL_PFX_ADDR_injective : Function.Injective rTBL_PFX_ADDR := fun j k h => by
  simp only [rTBL_PFX_ADDR] at h
  omega

theorem portMoves_pfxFields (d : Nat) (s : State) (idx : Nat) (rw : Bool) :
    PortMoves d [(.tbl, rTBL_PFX_CMD)] s (pfxFields s d idx rw) :=
  ((portMoves_put .tbl d s fTBL_PFX_CMD_IDX idx).andThen (portMoves_putB .tbl d _ fTBL_PFX_CMD_RW rw)).mono (by simp)

theorem pfxRead_shows {r : Requester} {d : Fin 4} {s : State} (hw : writable s r (pTBL d) = true) (idx : Fin 8) :
    Answers (exec (.pfxRead r d idx) s) fun t => rdN t (pTBL d) rTBL_PFX_CFG = ix (pfxEntry s d idx) 4 0 % 2 ^ 32 ∧
      (∀ k : Fin 4, rdN t (pTBL d) (rTBL_PFX_ADDR k) = ix (pfxEntry s d idx) k 0 % 2 ^ 32) ∧ t.ports = s.ports := by
  have hexec : exec (.pfxRead r d idx) s = .next (wrN (wordsStored (pfxFields s d idx false) (pTBL d) rTBL_PFX_ADDR
      (ix (pfxEntry s d idx) · 0) 4) (pTBL d) rTBL_PFX_CFG (ix (pfxEntry s d idx) 4 0)) :=
    congrArg Host.Outcome.next (onWrite_writable hw _)
  refine ⟨_, hexec, rdN_wrN_same _ _ _ _, fun k => ?_, commandFrames _ _ _ hexec .ports (by simp [mayChange])⟩
  have hne : rTBL_PFX_ADDR k ≠ rTBL_PFX_CFG := by simp only [rTBL_PFX_ADDR, rTBL_PFX_CFG]; omega
  rw [rdN_wrN_ne _ _ _ _ _ _ (Pg.adr_ne _ hne), rdN_wordsStored _ _ rTBL_PFX_ADDR_injective _ k.2]

theorem pfxWrite_shows {r : Requester} {d : Fin 4} {s : State} (hs : Shaped s) (hw : writable s r (pTBL d) = true)
    (idx : Fin 8) :
    Answers (exec (.pfxWrite r d idx) s) fun t => pfxEntry t d idx =
        (List.range 4).map (fun k => rdN s (pTBL d) (rTBL_PFX_ADDR k)) ++ [rdN s (pTBL d) rTBL_PFX_CFG] ∧
      OtherRegs s t [(pTBL d).adr rTBL_PFX_CMD] := by
  have hexec : exec (.pfxWrite r d idx) s = .next (updPd (pfxFields s d idx true) d fun x =>
      { x with pfx := amSet idx.val ((List.range 4).map (fun k => rdN s (pTBL d) (rTBL_PFX_ADDR k)) ++
        [rdN s (pTBL d) rTBL_PFX_CFG]) x.pfx }) :=
    congrArg Host.Outcome.next (onWrite_writable hw _)
  rw [hexec, answers_next, pfxEntry, pd_updPd_same (kept_pfxFields shaped_closed s d idx true hs) d.2]
  refine ⟨by rw [amGet_set, if_pos rfl, Option.getD_some], ?_⟩
  exact (portMoves_pfxFields d s idx true).andThen (portMoves_updPd d _ d _)

/-! ### Session entries (R264) -/

theorem rTBL_SES_DATA_injective : Function.Injective rTBL_SES_DATA := fun j k h => by
  simp only [rTBL_SES_DATA] at h
  omega

theorem sesRead_shows {r : Requester} {d : Fin 4} {idx : Fin 4096} {e : Session} {s : State}
    (hw : writable s r (pTBL d) = true) (he : amGet? idx.val (pd s d).ses = some e) :
    Answers (exec (.sesRead r d idx) s) fun t =>
      (∀ k : Fin 32, rdN t (pTBL d) (rTBL_SES_DATA k) = be e.bytes (4 * k) 4) ∧ t.ports = s.ports := by
  have hexec : exec (.sesRead r d idx) s = .next (wordsStored (sesFields s d idx false) (pTBL d) rTBL_SES_DATA
      (fun k => be e.bytes (4 * k) 4) 32) := by
    simp only [exec, execSesRead, onWrite_writable hw, he]
    rfl
  refine ⟨_, hexec, fun k => ?_, commandFrames _ _ _ hexec .ports (by simp [mayChange])⟩
  rw [rdN_wordsStored _ _ rTBL_SES_DATA_injective _ k.2]
  exact Nat.mod_eq_of_lt (be_lt _ _ 4)

@[simp] theorem showSessions_ports (s : State) (d : Nat) : (showSessions s d).ports = s.ports := put_ports _ _ _ _

theorem sesWrite_shows {r : Requester} {d : Fin 4} {e : Session} {s : State} (hs : Shaped s)
    (hw : writable s r (pTBL d) = true)
    (he : sessionOf ((List.range 32).flatMap fun k => put8 4 (rdN s (pTBL d) (rTBL_SES_DATA k))) = some e)
    (idx : Fin 4096) :
    Answers (exec (.sesWrite r d idx) s) fun t => amGet? idx.val (pd t d).ses = some e ∧ t.clk = s.clk := by
  have hexec : exec (.sesWrite r d idx) s = .next (putSes (sesFields s d idx true) d idx e) := by
    simp only [exec, execSesWrite, onWrite_writable hw, he]
  have hshape : Shaped (writeTiles (sesFields s d idx true) d 2 2).1 :=
    kept_writeTiles shaped_closed trivial _ _ _ _ (kept_sesFields shaped_closed s d idx true hs)
  refine ⟨_, hexec, ?_, commandFrames _ _ _ hexec .clk (by simp [mayChange])⟩
  rw [putSes, pd_of_ports (showSessions_ports _ _), pd_updPd_same hshape d.2]
  exact (amGet_set ..).trans (if_pos rfl)

end Sys2Proof.Machine
end

section
/-! The flush and the scrubbers of the table engine (R225, R226, R264): O34. -/

namespace Sys2Proof.Machine

/-! ### A flush (R226) -/

/-- The rate table is empty, and its page shows the flush before a secret is drawn. -/
def flushShown (s : State) (d : Nat) : State :=
  showUsed (putB (updPd s d fun x => { x with rate := [], rateBad := [], flushing := true }) (pTBL d)
    fTBL_STAT_FLUSHING true) d

theorem rateFlush_eq (s : State) (d : Nat) : rateFlush s d = newRateKey (flushShown s d) d := rfl

theorem portMoves_showUsed (d : Nat) (s : State) : PortMoves d [(.tbl, rTBL_USED)] s (showUsed s d) :=
  portMoves_put .tbl d s fTBL_USED_CNT _

@[simp] theorem showUsed_ports (s : State) (d : Nat) : (showUsed s d).ports = s.ports := put_ports _ _ _ _

theorem pd_flushShown {s : State} (hs : Shaped s) {d : Nat} (hd : d < 4) :
    pd (flushShown s d) d = { pd s d with rate := [], rateBad := [], flushing := true } := by
  rw [flushShown, pd_of_ports (showUsed_ports _ _), pd_of_ports (putB_ports _ _ _ _), pd_updPd_same hs hd]

theorem flag_flushing_newRateKey (s : State) {d : Nat} (hd : d < 4) :
    flag (newRateKey s d) (pTBL d) fTBL_STAT_FLUSHING = flag s (pTBL d) fTBL_STAT_FLUSHING := by
  rw [newRateKey_eq, showReady, flag_putB_beside (by decide)]
  exact (PortMoves.of_regs (d := d) (l := []) (drawSecret_regs s d)).flag hd .tbl (by simp +decide)

theorem flushShown_flag (s : State) {d : Nat} (hd : d < 4) :
    flag (flushShown s d) (pTBL d) fTBL_STAT_FLUSHING = true := by
  rw [flushShown, (portMoves_showUsed d _).flag hd .tbl (by simp +decide)]
  exact flag_putB_same _ _ _ _ (by decide) rfl

theorem flushShown_used {s : State} (hs : Shaped s) {d : Nat} (hd : d < 4) :
    get (flushShown s d) (pTBL d) fTBL_USED_CNT = 0 := by
  rw [flushShown, showUsed, get_put_same _ _ _ _ (by decide), pd_of_ports (putB_ports _ _ _ _), pd_updPd_same hs hd]
  rfl

theorem tblFlush_shows {r : Requester} {d : Fin 4} {s : State} (hs : Shaped s) (hw : writable s r (pTBL d) = true) :
    Answers (exec (.tblFlush r d) s) fun t => (pd t d).rate = [] ∧ (pd t d).flushing = true ∧
      flag t (pTBL d) fTBL_STAT_FLUSHING = true ∧ get t (pTBL d) fTBL_USED_CNT = 0 ∧
      OtherRegs s t [(pTBL d).adr rTBL_STAT, (pTBL d).adr rTBL_USED] := by
  have hexec : exec (.tblFlush r d) s = .next (newRateKey (flushShown s d) d) :=
    congrArg Host.Outcome.next (onWrite_writable hw _)
  have hshown : PortMoves d [(.tbl, rTBL_STAT), (.tbl, rTBL_USED)] s (flushShown s d) :=
    ((portMoves_updPd d s d _).andThen (portMoves_putB .tbl d _ fTBL_STAT_FLUSHING true)).andThen
      (portMoves_showUsed d _)
  have hmoves : PortMoves d [(.tbl, rTBL_STAT), (.tbl, rTBL_USED)] s (newRateKey (flushShown s d) d) :=
    (hshown.andThen (portMoves_newRateKey d _)).mono (by simp)
  rw [hexec, answers_next, flag_flushing_newRateKey _ d.2, flushShown_flag s d.2,
    (portMoves_newRateKey d _).get d.2 .tbl (by simp +decide), flushShown_used hs d.2,
    pd_newRateKey PortDie.rate (fun _ _ => rfl) (fun _ _ => rfl),
    pd_newRateKey PortDie.flushing (fun _ _ => rfl) (fun _ _ => rfl), pd_flushShown hs d.2]
  exact ⟨rfl, rfl, rfl, rfl, hmoves⟩

theorem flushDone_shows {d : Fin 4} {s : State} (hs : Shaped s) (hflush : (pd s d).flushing = true) :
    Answers (exec (.flushDone d) s) fun t => (pd t d).flushing = false ∧ flag t (pTBL d) fTBL_STAT_FLUSHING = false ∧
      intRaw t (pTBL d) 1 = true ∧ OtherRegs s t [(pTBL d).adr rTBL_STAT, (pTBL d).adr rINT_RAW] := by
  have hexec : exec (.flushDone d) s = .next (raise (putB (updPd s d fun x => { x with flushing := false }) (pTBL d)
      fTBL_STAT_FLUSHING false) (pTBL d) 1) := by
    simp only [exec, execFlushDone, hflush, if_true]
  have hmoves := ((portMoves_updPd d s d fun x => { x with flushing := false }).andThen
    (portMoves_putB .tbl d _ fTBL_STAT_FLUSHING false)).andThen (portMoves_raise .tbl d _ 1)
  rw [hexec, answers_next]
  refine ⟨?_, ?_, PortPage.intRaw_raise .tbl d.2 (by decide) _, hmoves⟩
  · rw [pd_of_ports (raise_ports _ _ _), pd_of_ports (putB_ports _ _ _ _), pd_updPd_same hs d.2]
  · rw [(portMoves_raise .tbl d _ 1).flag d.2 .tbl (by simp +decide)]
    exact flag_putB_same _ _ _ _ (by decide) rfl

/-! ### A tile that fails (R225, R264, R386) -/

theorem portMoves_tileFail (d : Nat) (s : State) : PortMoves d [(.age, rAGE_TILE_CNT)] s (tileFail s d) :=
  (portMoves_bump .age d s rAGE_TILE_CNT).andThen (portMoves_updPd d _ d _)

theorem rdN_tileFail (s : State) {d : Nat} (hd : d < 4) : rdN (tileFail s d) (pAGE (4 + d)) rAGE_TILE_CNT =
    min (rdN s (pAGE (4 + d)) rAGE_TILE_CNT + 1) 0xFFFFFFFF := by
  rw [tileFail, (portMoves_updPd d _ d _).rdN hd .age (by simp +decide), rdN_bump_same]

theorem pd_tileFail {β : Type} (g : PortDie → β) (hg : ∀ x l, g { x with tiles := l } = g x) (s : State)
    (d e : Nat) : g (pd (tileFail s d) e) = g (pd s e) := by
  rw [tileFail, pd_updPd_keeps g (fun x => hg x _), pd_of_ports (bump_ports _ _ _)]

/-- A failed tile of a table is counted in `cnt`, raises an interrupt bit and stands as a doubt. -/
def tableTileFailed (s : State) (d cnt int bit : Nat) : State :=
  tileFail (doubt (raise (bump s (pTBL d) cnt) (pTBL d) int) (pTBL d) bit true) d

theorem portMoves_tableTileFailed (d : Nat) (s : State) (cnt int bit : Nat) :
    PortMoves d [(.tbl, cnt), (.tbl, rINT_RAW), (.tbl, rDOUBT_RAW), (.age, rAGE_TILE_CNT)] s
      (tableTileFailed s d cnt int bit) :=
  (((portMoves_bump .tbl d s cnt).andThen (portMoves_raise .tbl d _ int)).andThen
    (portMoves_doubt .tbl d _ bit true)).andThen (portMoves_tileFail d _)

theorem pd_tableTileFailed {β : Type} (g : PortDie → β) (hg : ∀ x l, g { x with tiles := l } = g x) (s : State)
    (d cnt int bit : Nat) : g (pd (tableTileFailed s d cnt int bit) d) = g (pd s d) := by
  rw [tableTileFailed, pd_tileFail g hg, pd_of_ports (doubt_ports _ _ _ _), pd_of_ports (raise_ports _ _ _),
    pd_of_ports (bump_ports _ _ _)]

section

variable (s : State) {d : Nat} (hd : d < 4) (cnt : Nat) {int bit : Nat}
include hd

theorem doubts_tableTileFailed (hbit : bit < 32) : doubts (tableTileFailed s d cnt int bit) (pTBL d) bit = true := by
  rw [tableTileFailed, (portMoves_tileFail d _).doubts hd .tbl bit (by simp +decide)]
  exact doubts_doubt_same _ _ _ hbit

theorem intRaw_tableTileFailed (hint : int < 32) : intRaw (tableTileFailed s d cnt int bit) (pTBL d) int = true := by
  rw [tableTileFailed, (portMoves_tileFail d _).intRaw hd .tbl int (by simp +decide),
    (portMoves_doubt .tbl d _ bit true).intRaw hd .tbl int (by simp +decide)]
  exact PortPage.intRaw_raise .tbl hd hint _

theorem rdN_tableTileFailed (hcnt : cnt < 0x1000 ∧ cnt ≠ rINT_RAW ∧ cnt ≠ rDOUBT_RAW) :
    rdN (tableTileFailed s d cnt int bit) (pTBL d) cnt = min (rdN s (pTBL d) cnt + 1) 0xFFFFFFFF := by
  obtain ⟨hlt, hint, hdoubt⟩ := hcnt
  rw [tableTileFailed, (portMoves_tileFail d _).rdN hd .tbl (by simp +decide [hlt]),
    (portMoves_doubt .tbl d _ bit true).rdN hd .tbl (by simp +decide [hlt, hdoubt.symm]),
    (portMoves_raise .tbl d _ int).rdN hd .tbl (by simp +decide [hlt, hint.symm])]
  exact rdN_bump_same _ _ _

theorem age_tableTileFailed (hcnt : cnt < 0x1000) : rdN (tableTileFailed s d cnt int bit) (pAGE (4 + d)) rAGE_TILE_CNT =
    min (rdN s (pAGE (4 + d)) rAGE_TILE_CNT + 1) 0xFFFFFFFF := by
  rw [tableTileFailed, rdN_tileFail _ hd, (portMoves_doubt .tbl d _ bit true).rdN hd .age (by simp +decide),
    (portMoves_raise .tbl d _ int).rdN hd .age (by simp +decide),
    (portMoves_bump .tbl d s cnt).rdN hd .age (by simp +decide [hcnt])]

end

/-! ### The rate scrubber (R225) -/

/-- The rate scrubber goes on from tile `x`, and ends a pass at the last. -/
def rateWalked (s : State) (d x : Nat) : State :=
  if x + 1 < 32768 then updPd s d fun y => { y with scrub := x + 1 }
  else raise (bump (updPd s d fun y => { y with scrub := 0 }) (pTBL d) rTBL_SCRUB_PASS_CNT) (pTBL d) 0

theorem portMoves_rateWalked (d : Nat) (s : State) (x : Nat) :
    PortMoves d [(.tbl, rTBL_SCRUB_PASS_CNT), (.tbl, rINT_RAW)] s (rateWalked s d x) :=
  .ite ((portMoves_updPd d s d _).mono (by simp))
    (((portMoves_updPd d s d _).andThen (portMoves_bump .tbl d _ rTBL_SCRUB_PASS_CNT)).andThen
      (portMoves_raise .tbl d _ 0))

theorem pd_rateWalked {β : Type} (g : PortDie → β) (hg : ∀ y n, g { y with scrub := n } = g y) (s : State)
    (d x : Nat) : g (pd (rateWalked s d x) d) = g (pd s d) := by
  rw [rateWalked]
  split
  · exact pd_updPd_keeps g (fun y => hg y _) s d d
  · rw [pd_of_ports (raise_ports _ _ _), pd_of_ports (bump_ports _ _ _), pd_updPd_keeps g (fun y => hg y _)]

theorem intRaw_rateWalked {s : State} {d b : Nat} (hd : d < 4) (hb : b < 32) (hne : b ≠ 0) (x : Nat) :
    intRaw (rateWalked s d x) (pTBL d) b = intRaw s (pTBL d) b := by
  rw [rateWalked]
  split
  · exact (portMoves_updPd d s d _).intRaw hd .tbl b (by simp +decide)
  · rw [PortPage.intRaw_raise_ne .tbl hd hb hne, (portMoves_bump .tbl d _ _).intRaw hd .tbl b (by simp +decide)]
    exact (portMoves_updPd d s d _).intRaw hd .tbl b (by simp +decide)

/-- Between two tiles of a pass the scrubber moves only its place. -/
theorem rateWalked_goesOn {s : State} (hs : Shaped s) {d : Nat} (hd : d < 4) {x : Nat} (hx : x + 1 < 32768) :
    (pd (rateWalked s d x) d).scrub = x + 1 ∧ (rateWalked s d x).regs = s.regs := by
  rw [rateWalked, if_pos hx, pd_updPd_same hs hd]
  exact ⟨rfl, rfl⟩

/-- A pass that ends is counted with INT_RAW[0], and the walk begins again. -/
theorem rateWalked_ends {s : State} (hs : Shaped s) {d : Nat} (hd : d < 4) {x : Nat} (hx : 32768 ≤ x + 1) :
    (pd (rateWalked s d x) d).scrub = 0 ∧ intRaw (rateWalked s d x) (pTBL d) 0 = true ∧
      rdN (rateWalked s d x) (pTBL d) rTBL_SCRUB_PASS_CNT =
        min (rdN s (pTBL d) rTBL_SCRUB_PASS_CNT + 1) 0xFFFFFFFF := by
  rw [rateWalked, if_neg (Nat.not_lt.mpr hx), pd_of_ports (raise_ports _ _ _), pd_of_ports (bump_ports _ _ _),
    pd_updPd_same hs hd, (portMoves_raise .tbl d _ 0).rdN hd .tbl (by simp +decide), rdN_bump_same,
    (portMoves_updPd d s d _).rdN hd .tbl (by simp +decide)]
  exact ⟨rfl, PortPage.intRaw_raise .tbl hd (by decide) _, rfl⟩

/-- Both entries of a rate tile are gone. -/
def rateTileLost (s : State) (d x : Nat) : State :=
  updPd s d fun y => { y with
    rate := amErase (2 * x) (amErase (2 * x + 1) y.rate)
    rateBad := y.rateBad.filter (· != x)
    tileAt := mono s }

theorem rateTileFail_eq (s : State) (d x : Nat) :
    rateTileFail s d x = showUsed (tableTileFailed (rateTileLost s d x) d rTBL_TILE_INV_CNT 30 0) d := rfl

theorem rate_rateTileFail {s : State} (hs : Shaped s) {d : Nat} (hd : d < 4) (x : Nat) :
    (pd (rateTileFail s d x) d).rate = amErase (2 * x) (amErase (2 * x + 1) (pd s d).rate) := by
  rw [rateTileFail_eq, pd_of_ports (showUsed_ports _ _), pd_tableTileFailed PortDie.rate (fun _ _ => rfl), rateTileLost,
    pd_updPd_same hs hd]

/-! ### A session that is lost (R264) -/

/-- A freed entry is gone, whether or not a new secret is drawn. -/
theorem ses_freeSes {s : State} (hs : Shaped s) {d : Nat} (hd : d < 4) (k : Nat) :
    (pd (freeSes s d k) d).ses = amErase k (pd s d).ses := by
  simp only [freeSes]
  split
  · rw [pd_newSesKey PortDie.ses (fun _ _ => rfl) (fun _ _ => rfl), pd_of_ports (showSessions_ports _ _),
      pd_updPd_same hs hd]
  · rw [pd_of_ports (showSessions_ports _ _), pd_updPd_same hs hd]

theorem sesTileFail_eq (s : State) (d k : Nat) : sesTileFail s d k = tableTileFailed
    (freeSes (updPd s d fun y => { y with sesTileAt := mono s }) d k) d rTBL_SES_TILE_CNT 17 8 := rfl

theorem ses_sesTileFail {s : State} (hs : Shaped s) {d : Nat} (hd : d < 4) (k : Nat) :
    (pd (sesTileFail s d k) d).ses = amErase k (pd s d).ses := by
  rw [sesTileFail_eq, pd_tableTileFailed PortDie.ses (fun _ _ => rfl),
    ses_freeSes (hs.updPd d (by exact fun _ => rfl)) hd, pd_updPd_same hs hd]

/-! ### SCRUB (R225, R264) -/

section

variable {d : Fin 4} {s : State} (hs : Shaped s) (hon : pageOn s (pTBL d) = true) (hen : pageEn s (pTBL d) = true)
  (hwalk : get s (pTBL d) fTBL_SCRUB_INTERVAL ≠ 0)
include hon hen hwalk

theorem exec_scrub_rate (ok : Bool) : exec (.scrub d false ok) s = .next (scrubRate s d ok) := by
  simp only [exec, execScrub, hon, hen, hwalk, Bool.not_true, decide_false, Bool.or_self, Bool.false_eq_true, if_false]

theorem exec_scrub_ses (hses : flag s (pTBL d) fTBL_SES_CFG_SCRUB_EN = true) (ok : Bool) :
    exec (.scrub d true ok) s = .next (scrubSes s d ok) := by
  simp only [exec, execScrub, hon, hen, hwalk, hses, Bool.not_true, decide_false, Bool.or_self, Bool.false_eq_true,
    if_false, if_true]

include hs

theorem scrub_rate_good (hgood : (pd s d).rateBad.contains (pd s d).scrub = false) :
    Answers (exec (.scrub d false true) s) fun t => (pd t d).rate = (pd s d).rate ∧
      ((pd s d).scrub + 1 < 32768 → (pd t d).scrub = (pd s d).scrub + 1 ∧ t.regs = s.regs) ∧
      (32768 ≤ (pd s d).scrub + 1 → (pd t d).scrub = 0 ∧ intRaw t (pTBL d) 0 = true ∧
        rdN t (pTBL d) rTBL_SCRUB_PASS_CNT = min (rdN s (pTBL d) rTBL_SCRUB_PASS_CNT + 1) 0xFFFFFFFF) := by
  have hstep : scrubRate s d true = rateWalked s d (pd s d).scrub := by
    simp only [scrubRate, hgood, Bool.not_true, Bool.or_self, Bool.false_eq_true, if_false]
    rfl
  rw [exec_scrub_rate hon hen hwalk, answers_next, hstep]
  exact ⟨pd_rateWalked PortDie.rate (fun _ _ => rfl) s d _, rateWalked_goesOn hs d.2, rateWalked_ends hs d.2⟩

theorem scrub_rate_bad :
    Answers (exec (.scrub d false false) s) fun t => doubts t (pTBL d) 0 = true ∧ intRaw t (pTBL d) 30 = true ∧
      rdN t (pTBL d) rTBL_TILE_INV_CNT = min (rdN s (pTBL d) rTBL_TILE_INV_CNT + 1) 0xFFFFFFFF ∧
      rdN t (pAGE (4 + d)) rAGE_TILE_CNT = min (rdN s (pAGE (4 + d)) rAGE_TILE_CNT + 1) 0xFFFFFFFF ∧
      amGet? (2 * (pd s d).scrub) (pd t d).rate = none ∧ amGet? (2 * (pd s d).scrub + 1) (pd t d).rate = none := by
  have hstep : scrubRate s d false = rateWalked (rateTileFail s d (pd s d).scrub) d (pd s d).scrub := by
    simp only [scrubRate, Bool.not_false, Bool.true_or, if_true]
    rfl
  have hlost := portMoves_updPd d s d fun y => { y with
    rate := amErase (2 * (pd s d).scrub) (amErase (2 * (pd s d).scrub + 1) y.rate)
    rateBad := y.rateBad.filter (· != (pd s d).scrub)
    tileAt := mono s }
  have hafter : ∀ u : State, PortMoves d [(.tbl, rTBL_USED), (.tbl, rTBL_SCRUB_PASS_CNT), (.tbl, rINT_RAW)] u
      (rateWalked (showUsed u d) d (pd s d).scrub) := fun u =>
    (portMoves_showUsed d u).andThen (portMoves_rateWalked d _ _)
  rw [exec_scrub_rate hon hen hwalk, answers_next, hstep, pd_rateWalked PortDie.rate (fun _ _ => rfl),
    rate_rateTileFail hs d.2, intRaw_rateWalked d.2 (by decide) (by decide), rateTileFail_eq,
    (portMoves_showUsed d _).intRaw d.2 .tbl 30 (by simp +decide), (hafter _).doubts d.2 .tbl 0 (by simp +decide),
    (hafter _).rdN d.2 .tbl (by simp +decide), (hafter _).rdN d.2 .age (by simp +decide)]
  refine ⟨doubts_tableTileFailed _ d.2 _ (by decide), intRaw_tableTileFailed _ d.2 _ (by decide), ?_, ?_, ?_, ?_⟩
  · rw [rdN_tableTileFailed _ d.2 _ (by decide), rateTileLost, hlost.rdN d.2 .tbl (by simp +decide)]
  · rw [age_tableTileFailed _ d.2 _ (by decide), rateTileLost, hlost.rdN d.2 .age (by simp +decide)]
  · rw [amGet_erase, if_pos rfl]
  · rw [amGet_erase, if_neg (by omega), amGet_erase, if_pos rfl]

theorem scrub_ses_bad (hses : flag s (pTBL d) fTBL_SES_CFG_SCRUB_EN = true) :
    Answers (exec (.scrub d true false) s) fun t => doubts t (pTBL d) 8 = true ∧ intRaw t (pTBL d) 17 = true ∧
      amGet? ((pd s d).sesScrub / 2) (pd t d).ses = none ∧ (pd t d).sesScrub = ((pd s d).sesScrub + 1) % 8192 := by
  have hstep : scrubSes s d false = updPd (sesTileFail s d ((pd s d).sesScrub / 2)) d fun y =>
      { y with sesScrub := ((pd s d).sesScrub + 1) % 8192 } := by
    simp only [scrubSes, Bool.not_false, Bool.true_or, if_true]
  have hwalked := portMoves_updPd d (sesTileFail s d ((pd s d).sesScrub / 2)) d fun y =>
    { y with sesScrub := ((pd s d).sesScrub + 1) % 8192 }
  rw [exec_scrub_ses hon hen hwalk hses, answers_next, hstep, hwalked.doubts d.2 .tbl 8 (by simp +decide),
    hwalked.intRaw d.2 .tbl 17 (by simp +decide), pd_updPd_same (kept_sesTileFail shaped_closed trivial s _ _ hs) d.2,
    ses_sesTileFail hs d.2]
  exact ⟨doubts_tableTileFailed _ d.2 _ (by decide), intRaw_tableTileFailed _ d.2 _ (by decide),
    (amGet_erase ..).trans (if_pos rfl), rfl⟩

end

theorem tblTileEnd_shows {d : Fin 4} {ses : Bool} {s : State}
    (hdoubt : doubts s (pTBL d) (if ses then 8 else 0) = true) :
    Answers (exec (.tblTileEnd d ses) s) fun t => doubts t (pTBL d) (if ses then 8 else 0) = false ∧
      OtherRegs s t [(pTBL d).adr rDOUBT_RAW] := by
  obtain ⟨c, hc⟩ := advMono_eq s ((if ses then (pd s d).sesTileAt else (pd s d).tileAt) + 1000000000)
  have hexec : exec (.tblTileEnd d ses) s =
      .next (doubt { s with clk := c } (pTBL d) (if ses then 8 else 0) false) := by
    simp only [exec, execTblTileEnd, hdoubt, if_true, hc]
  rw [hexec, answers_next]
  exact ⟨doubts_doubt_same _ _ _ (by split <;> decide),
    (PortMoves.of_regs (l := []) rfl).andThen (portMoves_doubt .tbl d _ _ false)⟩

/-- Settles O34: each row in one theorem, and a scrubber's in one for each tile it may read. -/
theorem dieTables : Obligations.DieTables :=
  ⟨fun _ _ _ hs hw => tblFlush_shows hs hw, fun _ _ hs hflush => flushDone_shows hs hflush,
    fun _ _ hs hon hen hwalk hgood => scrub_rate_good hs hon hen hwalk hgood,
    fun _ _ hs hon hen hwalk => scrub_rate_bad hs hon hen hwalk,
    fun _ _ hs hon hen hwalk hses => scrub_ses_bad hs hon hen hwalk hses,
    fun _ _ _ hdoubt => tblTileEnd_shows hdoubt, fun _ _ hs hon hen hisland => secretRetry_shows hs hon hen hisland,
    fun _ _ idx _ hw => pfxRead_shows hw idx, fun _ _ idx _ hs hw => pfxWrite_shows hs hw idx,
    fun _ _ _ _ _ hw he => sesRead_shows hw he, fun _ _ idx _ _ hs hw he => sesWrite_shows hs hw he idx⟩

end Sys2Proof.Machine
end

section
/-! The answer lanes and the SIV engine of a Port die (R207–R209, R212, R235, R236): O33. -/

namespace Sys2Proof.Machine

/-! ### A request that a lane takes (R209) -/

/-- A lane has taken the oldest request of a port. -/
def requestTaken (s : State) (d i : Nat) (l : List NtpReq) : State :=
  updPd (updPort s d i fun p => { p with queue := l }) d fun x => { x with rr := i }

theorem exec_ansLaneTake {d : Fin 4} {i : Nat} {q : NtpReq} {l : List NtpReq} {s : State}
    (hnext : nextQueue s d = some i) (hqueue : (port s d i).queue = q :: l) (grid : Nat) (tileOk tbl : Bool) :
    exec (.ansLaneTake d grid tileOk tbl) s = .next (serve (requestTaken s d i l) d i grid q tileOk tbl) := by
  simp only [exec, execAnsLaneTake, hnext, hqueue]
  rfl

theorem Shaped.requestTaken {s : State} (h : Shaped s) (d i : Nat) (l : List NtpReq) : Shaped (requestTaken s d i l) :=
  (h.updPort d i _).updPd d (by exact fun _ => rfl)

theorem portMoves_requestTaken (k : Nat) (s : State) (d i : Nat) (l : List NtpReq) :
    PortMoves k [] s (requestTaken s d i l) := .of_regs rfl

/-- The round robin and the queues move nothing else of a die. -/
theorem pd_requestTaken {β : Type} (g : PortDie → β) (hports : ∀ x p, g { x with ports := p } = g x)
    (hrr : ∀ x n, g { x with rr := n } = g x) (s : State) (d i : Nat) (l : List NtpReq) (e : Nat) :
    g (pd (requestTaken s d i l) e) = g (pd s e) := by
  rw [requestTaken, pd_updPd_keeps g (fun x => hrr x _), pd_updPort_keeps g hports]

section

variable {s : State} (hs : Shaped s) {d i : Nat} (hd : d < 4) (l : List NtpReq)
include hs hd

theorem port_requestTaken (hi : i < 8) : port (requestTaken s d i l) d i = { port s d i with queue := l } := by
  rw [requestTaken, port_updPd (by exact fun _ => rfl), port_updPort_same hs hd hi]

theorem rr_requestTaken : (pd (requestTaken s d i l) d).rr = i := by
  rw [requestTaken, pd_updPd_same (hs.updPort d i _) hd]

end

section

variable (s : State) (d i : Nat) (l : List NtpReq)

theorem tooOld_requestTaken (q : NtpReq) : tooOld (requestTaken s d i l) d q = tooOld s d q := rfl

theorem ansForm_requestTaken : ansForm (requestTaken s d i l) d = ansForm s d := by
  simp only [ansForm, dieServo, dieStale, dieView, pd_requestTaken PortDie.view (fun _ _ => rfl) (fun _ _ => rfl),
    pd_requestTaken PortDie.safe (fun _ _ => rfl) (fun _ _ => rfl)]
  rfl

theorem rateClass_requestTaken (v6 : Bool) (src : Nat) :
    rateClass (requestTaken s d i l) d v6 src = rateClass s d v6 src := by
  have hpfx : pfxEntry (requestTaken s d i l) d = pfxEntry s d := by
    funext k
    rw [pfxEntry, pd_requestTaken PortDie.pfx (fun _ _ => rfl) (fun _ _ => rfl), pfxEntry]
  rw [rateClass, hpfx, rateClass]

theorem rateFree_requestTaken (c : Nat) : rateFree (requestTaken s d i l) d c = rateFree s d c := by
  simp only [rateFree, pd_requestTaken PortDie.flushing (fun _ _ => rfl) (fun _ _ => rfl),
    pd_requestTaken PortDie.rateKey (fun _ _ => rfl) (fun _ _ => rfl)]
  rfl

/-- The judgement of a booking takes nothing of a die but its ports. -/
theorem bookWhy_updPd {f : PortDie → PortDie} (hf : ∀ x, (f x).ports = x.ports) (now e grid : Nat) (at' : Bool)
    (len : Nat) : bookWhy (updPd s d f) d i now e grid at' len = bookWhy s d i now e grid at' len := by
  simp only [bookWhy, busyIn, occupancy, busyEnd, port_updPd hf]
  rfl

theorem bookWhy_requestTaken (now e grid : Nat) (at' : Bool) (len : Nat) :
    bookWhy (requestTaken s d i l) d i now e grid at' len = bookWhy s d i now e grid at' len := by
  rw [requestTaken, bookWhy_updPd _ _ _ (by exact fun _ => rfl),
    bookWhy_updPort (by exact fun _ => rfl) (by exact fun _ => rfl) (by exact fun _ => rfl)]

end

section

variable {d : Fin 4} {i : Fin 8} {q : NtpReq} {l : List NtpReq} {s : State} (hs : Shaped s)
  (hnext : nextQueue s d = some i.val) (hqueue : (port s d i).queue = q :: l)
include hs hnext hqueue

/-- A request that a lane takes and only counts. -/
theorem ansLaneTake_counts {o grid : Nat} {tbl : Bool}
    (hserve : serve (requestTaken s d i l) d i grid q true tbl = bump (requestTaken s d i l) (pANS d) o) :
    Answers (exec (.ansLaneTake d grid true tbl) s) fun t => (port t d i).queue = l ∧ (pd t d).rr = i ∧
      rdN t (pANS d) o = min (rdN s (pANS d) o + 1) 0xFFFFFFFF ∧ OtherRegs s t [(pANS d).adr o] := by
  rw [exec_ansLaneTake hnext hqueue, answers_next, hserve, port_of_ports (bump_ports _ _ _),
    pd_of_ports (bump_ports _ _ _), port_requestTaken hs d.2 l i.2, rr_requestTaken hs d.2, rdN_bump_same]
  exact ⟨rfl, rfl, rfl, (portMoves_requestTaken d s d i l).andThen (portMoves_bump .ans d _ o)⟩

theorem ansLaneTake_tooOld (hbad : q.bad = false) (hold : tooOld s d q = true) (grid : Nat) (tbl : Bool) :
    Answers (exec (.ansLaneTake d grid true tbl) s) fun t => (port t d i).queue = l ∧ (pd t d).rr = i ∧
      rdN t (pANS d) rANS_AGE_DROP_CNT = min (rdN s (pANS d) rANS_AGE_DROP_CNT + 1) 0xFFFFFFFF ∧
      OtherRegs s t [(pANS d).adr rANS_AGE_DROP_CNT] := by
  refine ansLaneTake_counts hs hnext hqueue ?_
  simp only [serve, hbad, tooOld_requestTaken, hold, Bool.not_true, Bool.or_self, Bool.false_eq_true, if_false, if_true]

theorem ansLaneTake_silent (hbad : q.bad = false) (hfresh : tooOld s d q = false) (hform : ansForm s d = 3)
    (grid : Nat) (tbl : Bool) :
    Answers (exec (.ansLaneTake d grid true tbl) s) fun t => (port t d i).queue = l ∧ (pd t d).rr = i ∧
      rdN t (pANS d) rANS_SILENT_CNT = min (rdN s (pANS d) rANS_SILENT_CNT + 1) 0xFFFFFFFF ∧
      OtherRegs s t [(pANS d).adr rANS_SILENT_CNT] := by
  refine ansLaneTake_counts hs hnext hqueue ?_
  simp only [serve, hbad, tooOld_requestTaken, hfresh, ansForm_requestTaken, hform, Bool.not_true, Bool.or_self,
    Bool.false_eq_true, if_false, if_true]

end

/-! ### What bookings and nonces leave of a die -/

/-- The place of the round robin and the work of the SIV engine. -/
def laneWork (s : State) (d : Nat) : Nat × List SivJob := ((pd s d).rr, (pd s d).siv)

theorem laneWork_of_ports {s t : State} (h : t.ports = s.ports) (d : Nat) : laneWork t d = laneWork s d := by
  rw [laneWork, pd_of_ports h, laneWork]

theorem rr_of_laneWork {s t : State} {d : Nat} (h : laneWork t d = laneWork s d) : (pd t d).rr = (pd s d).rr :=
  congrArg Prod.fst h

theorem siv_of_laneWork {s t : State} {d : Nat} (h : laneWork t d = laneWork s d) : (pd t d).siv = (pd s d).siv :=
  congrArg Prod.snd h

/-- A change of a die beside its lanes. -/
theorem laneWork_updPd {f : PortDie → PortDie} (hf : ∀ x, ((f x).rr, (f x).siv) = (x.rr, x.siv)) (s : State)
    (d e : Nat) : laneWork (updPd s d f) e = laneWork s e :=
  pd_updPd_keeps (fun x => (x.rr, x.siv)) hf s d e

theorem laneWork_updPort (s : State) (d i : Nat) (f : Port → Port) (e : Nat) :
    laneWork (updPort s d i f) e = laneWork s e := laneWork_updPd (by exact fun _ => rfl) s d e

theorem laneWork_finishBook (s : State) (d i no : Nat) (frame : List Byte) (post e : Nat) :
    laneWork (finishBook s d i no frame post) e = laneWork s e := by
  rw [finishBook, updBook, laneWork_updPort]
  exact pd_writeTiles (fun x => (x.rr, x.siv)) (fun _ _ => rfl) s d 0 _ e

theorem laneWork_grantBook (s : State) (d i e grid : Nat) (at' : Bool) (b : Builder) (len lead : Nat) (again : Bool)
    (k : Nat) : laneWork (grantBook s d i e grid at' b len lead again).1 k = laneWork s k := by
  rw [grantBook, laneWork_updPort, laneWork_updPd (by exact fun _ => rfl)]

theorem laneWork_untimed (s : State) (d i : Nat) (frame : List Byte) (e : Nat) :
    laneWork (untimed s d i frame none) e = laneWork s e := by
  rw [untimed]
  split
  · exact laneWork_of_ports (bump_ports _ _ _) e
  · exact laneWork_updPort s d i _ e

/-- Minting draws nonces, and touches nothing else of the ports and the lanes. -/
theorem laneWork_mintFields (d : Nat) (mk : MasterKey) (w : NtsWork) (k : Nat) (s : State) (e : Nat) :
    laneWork (mintFields d mk w k s).1 e = laneWork s e := by
  induction k generalizing s with
  | zero => rfl
  | succ k ih =>
    rw [mintFields, ih, drawNonce, laneWork_of_ports (drawn_ports _)]
    exact laneWork_updPd (by exact fun _ => rfl) s d e

theorem port_drawNonce (s : State) (d e j : Nat) : port (drawNonce s d).1 e j = port s e j := by
  rw [drawNonce, port_of_ports (drawn_ports _), port_updPd (by exact fun _ => rfl)]

theorem port_mintFields (d : Nat) (mk : MasterKey) (w : NtsWork) (k : Nat) (s : State) (e j : Nat) :
    port (mintFields d mk w k s).1 e j = port s e j := by
  induction k generalizing s with
  | zero => rfl
  | succ k ih => exact (ih _).trans (port_drawNonce s d e j)

/-! ### Bookings by number -/

theorem Shaped.finishBook {s : State} (h : Shaped s) (d i no : Nat) (frame : List Byte) (post : Nat) :
    Shaped (finishBook s d i no frame post) := kept_finishBook shaped_closed trivial s d i no frame post h

section

variable {s : State} (hs : Shaped s) {d i : Nat} (hd : d < 4) (hi : i < 8)
include hs hd hi

theorem books_updBook (no : Nat) (f : Booking → Booking) : (port (updBook s d i no f) d i).books =
    (port s d i).books.map fun b => if b.no = no then f b else b := by
  rw [updBook, port_updPort_same hs hd hi]

theorem mem_updBook {b : Booking} (hb : b ∈ (port s d i).books) (f : Booking → Booking) :
    f b ∈ (port (updBook s d i b.no f) d i).books := by
  rw [books_updBook hs hd hi]
  exact List.mem_map.mpr ⟨b, hb, if_pos rfl⟩

/-- A booking whose frame is finished holds the frame, and stays what it was asked for. -/
theorem finishBook_shows {b : Booking} (hb : b ∈ (port s d i).books) (frame : List Byte) (post : Nat) :
    ∃ x ∈ (port (finishBook s d i b.no frame post) d i).books,
      x.no = b.no ∧ x.l = b.l ∧ x.by' = b.by' ∧ x.frame.isSome = true := by
  have hshape : Shaped (writeTiles s d 0 (packetTiles frame)).1 := kept_writeTiles shaped_closed trivial s _ _ _ hs
  rw [← port_writeTiles s d 0 (packetTiles frame)] at hb
  exact ⟨_, mem_updBook hshape hd hi hb _, rfl, rfl, rfl, rfl⟩

theorem length_books_updBook (no : Nat) (f : Booking → Booking) :
    (port (updBook s d i no f) d i).books.length = (port s d i).books.length := by
  rw [books_updBook hs hd hi, List.length_map]

theorem length_books_finishBook (no : Nat) (frame : List Byte) (post : Nat) :
    (port (finishBook s d i no frame post) d i).books.length = (port s d i).books.length := by
  rw [finishBook, length_books_updBook (kept_writeTiles shaped_closed trivial s _ _ _ hs) hd hi, port_writeTiles]

theorem books_grantBook (e grid : Nat) (at' : Bool) (b : Builder) (len lead : Nat) (again : Bool) :
    (port (grantBook s d i e grid at' b len lead again).1 d i).books =
      insertBook (grantBook s d i e grid at' b len lead again).2 (port s d i).books := by
  rw [grantBook, port_updPort_same (hs.updPd d (by exact fun _ => rfl)) hd hi, port_updPd (by exact fun _ => rfl)]

end

theorem queue_finishBook (s : State) (d i no : Nat) (frame : List Byte) (post : Nat) :
    (port (finishBook s d i no frame post) d i).queue = (port s d i).queue := by
  rw [finishBook, updBook, port_updPort_keeps Port.queue (by exact fun _ => rfl), port_writeTiles]

theorem queue_grantBook (s : State) (d i e grid : Nat) (at' : Bool) (b : Builder) (len lead : Nat) (again : Bool) :
    (port (grantBook s d i e grid at' b len lead again).1 d i).queue = (port s d i).queue := by
  rw [grantBook, port_updPort_keeps Port.queue (by exact fun _ => rfl), port_updPd (by exact fun _ => rfl)]

/-- A booking that is not AT starts no earlier than it asks for. -/
theorem le_grantBook_l (s : State) (d i e grid : Nat) (b : Builder) (len lead : Nat) (again : Bool) :
    e ≤ (grantBook s d i e grid false b len lead again).2.l := by
  simp only [grantBook, Bool.false_eq_true, if_false]
  omega

/-! ### A plain answer (R209) -/

/-- The lead of a plain answer in 2⁻¹⁶ ns. -/
def plainLead (s : State) (d : Nat) : Nat := get s (pANS d) fANS_LAUNCH_LEAD_PLAIN * 65536

/-- The builder of a plain answer that leaves at an instant. -/
def plainAnswer (s : State) (d form : Nat) (q : NtpReq) (l : Nat) : Builder :=
  .answer q (ntpHead s d q form (t96At s l))

/-- What a plain answer is granted before its builder knows L. -/
def plainGrant (s : State) (d i grid form : Nat) (q : NtpReq) : State × Booking :=
  grantBook s d i (nowP s d + plainLead s d) grid false (plainAnswer s d form q 0) (ntpLen q 48) (plainLead s d) false

/-- The booking of a plain answer once its builder knows L. -/
def plainBooked (s : State) (d i grid form : Nat) (q : NtpReq) : Booking :=
  let b := (plainGrant s d i grid form q).2
  { b with by' := plainAnswer s d form q b.l }

/-- A plain answer is booked and counted where it is in ALARM form; its frame is not built yet. -/
def plainHeld (s : State) (d i grid form : Nat) (q : NtpReq) : State :=
  countForm (updBook (plainGrant s d i grid form q).1 d i (plainBooked s d i grid form q).no fun _ =>
    plainBooked s d i grid form q) d form

@[simp] theorem countForm_ports (s : State) (d form : Nat) : (countForm s d form).ports = s.ports := by
  rw [countForm]
  split
  · exact bump_ports _ _ _
  · rfl

theorem answerPlain_granted {s : State} {d i grid : Nat} {q : NtpReq}
    (hwhy : bookWhy s d i (nowP s d) (nowP s d + plainLead s d) grid false (ntpLen q 48) = 0) (form : Nat) :
    ∃ frame post, answerPlain s d i grid form q =
      finishBook (plainHeld s d i grid form q) d i (plainBooked s d i grid form q).no frame post := by
  rw [plainLead] at hwhy
  simp only [answerPlain, bookAnswer, book, hwhy, if_true]
  exact ⟨_, _, rfl⟩

theorem answerPlain_shows {s : State} (hs : Shaped s) {d i grid : Nat} (hd : d < 4) (hi : i < 8) {q : NtpReq}
    (hwhy : bookWhy s d i (nowP s d) (nowP s d + plainLead s d) grid false (ntpLen q 48) = 0) (form : Nat) :
    let t := answerPlain s d i grid form q
    (port t d i).queue = (port s d i).queue ∧ laneWork t d = laneWork s d ∧
      (port t d i).books.length = (port s d i).books.length + 1 ∧
      ∃ b ∈ (port t d i).books, b.by'.policy = some 0 ∧ b.frame.isSome = true ∧ nowP s d + plainLead s d ≤ b.l := by
  obtain ⟨frame, post, heq⟩ := answerPlain_granted hwhy form
  have hgrant : Shaped (plainGrant s d i grid form q).1 := kept_grantBook shaped_closed trivial _ _ _ _ _ _ _ _ _ _ hs
  have hheld : Shaped (plainHeld s d i grid form q) :=
    kept_countForm shaped_closed _ _ _ (hgrant.updPort d i _)
  have hbooks := books_grantBook hs hd hi (nowP s d + plainLead s d) grid false (plainAnswer s d form q 0) (ntpLen q 48)
    (plainLead s d) false
  have hmem : plainBooked s d i grid form q ∈ (port (plainHeld s d i grid form q) d i).books := by
    rw [plainHeld, port_of_ports (countForm_ports _ _ _)]
    exact mem_updBook hgrant hd hi (b := (plainGrant s d i grid form q).2) (hbooks ▸ mem_insertBook _ _) fun _ => _
  simp only [heq, queue_finishBook, laneWork_finishBook, length_books_finishBook hheld hd hi]
  refine ⟨?_, ?_, ?_, ?_⟩
  · rw [plainHeld, port_of_ports (countForm_ports _ _ _), updBook, port_updPort_keeps Port.queue (by exact fun _ => rfl)]
    exact queue_grantBook ..
  · rw [plainHeld, laneWork_of_ports (countForm_ports _ _ _), updBook, laneWork_updPort]
    exact laneWork_grantBook ..
  · rw [plainHeld, port_of_ports (countForm_ports _ _ _), length_books_updBook hgrant hd hi]
    exact (congrArg List.length hbooks).trans (length_insertBook _ _)
  · obtain ⟨x, hx, -, hl, hby, hframe⟩ := finishBook_shows hheld hd hi hmem frame post
    exact ⟨x, hx, by rw [hby]; rfl, hframe, hl ▸ le_grantBook_l ..⟩

/-- A source that the rate limit does not reach passes, and is charged nothing. -/
theorem rateLookup_free {s : State} {d : Nat} {v6 : Bool} {src : Nat}
    (h : rateFree s d (rateClass s d v6 src) = true) (nts ok : Bool) : rateLookup s d v6 src nts ok = (s, .pass) := by
  simp only [rateLookup, h, if_true]

/-- A die in step with the master clock stands at its own present. -/
theorem advDie_nowP {s : State} {d : Nat} (h : (replica s (2 + d)).ofs = 0) : advDie s d (nowP s d) = s := by
  simp [advDie, advP, nowP, h]

theorem preDelay_unperturbed {s : State} {d : Nat} (h : perturbed s (4 + d) = false) : preDelay s d = 0 := by
  simp only [preDelay, h, Bool.false_eq_true, if_false]

/-- A plain request that is neither old nor silent nor limited is answered. -/
theorem serve_plain {s : State} {d i grid : Nat} {q : NtpReq} {tbl : Bool} (hbad : q.bad = false)
    (hplain : q.nts = false) (hfresh : tooOld s d q = false) (hform : ansForm s d ≠ 3)
    (hcalm : perturbed s (4 + d) = false) (hstep : (replica s (2 + d)).ofs = 0)
    (hfree : rateFree s d (rateClass s d q.v6 q.src) = true) :
    serve s d i grid q true tbl = answerPlain s d i grid (ansForm s d) q := by
  simp only [serve, hbad, hfresh, hform, hplain, preDelay_unperturbed hcalm, Nat.zero_mul, Nat.add_zero,
    advDie_nowP hstep, servePlain, rateLookup_free hfree, Bool.not_true, Bool.or_self, Bool.false_eq_true, if_false]

theorem ansLaneTake_answers {d : Fin 4} {i : Fin 8} {grid : Nat} {q : NtpReq} {l : List NtpReq} {s : State}
    (hs : Shaped s) (hnext : nextQueue s d = some i.val) (hqueue : (port s d i).queue = q :: l) (hbad : q.bad = false)
    (hplain : q.nts = false) (hfresh : tooOld s d q = false) (hform : ansForm s d ≠ 3)
    (hcalm : perturbed s (4 + d) = false) (hstep : (replica s (2 + d)).ofs = 0)
    (hfree : rateFree s d (rateClass s d q.v6 q.src) = true)
    (hwhy : bookWhy s d i (nowP s d) (nowP s d + get s (pANS d) fANS_LAUNCH_LEAD_PLAIN * 65536) grid false
      (ntpLen q 48) = 0) (tbl : Bool) :
    Answers (exec (.ansLaneTake d grid true tbl) s) fun t => (port t d i).queue = l ∧ (pd t d).rr = i ∧
      (port t d i).books.length = (port s d i).books.length + 1 ∧
      (∃ b ∈ (port t d i).books, b.by'.policy = some 0 ∧ b.frame.isSome = true ∧
        nowP s d + get s (pANS d) fANS_LAUNCH_LEAD_PLAIN * 65536 ≤ b.l) := by
  have hserve : serve (requestTaken s d i l) d i grid q true tbl =
      answerPlain (requestTaken s d i l) d i grid (ansForm s d) q := by
    rw [← ansForm_requestTaken s d i l]
    exact serve_plain hbad hplain hfresh ((ansForm_requestTaken s d i l).symm ▸ hform) hcalm hstep
      (by rw [rateFree_requestTaken, rateClass_requestTaken, hfree])
  obtain ⟨hq, hlanes, hlen, hbook⟩ := answerPlain_shows (hs.requestTaken d i l) d.2 i.2
    ((bookWhy_requestTaken s d i l _ _ grid false (ntpLen q 48)).trans hwhy) (ansForm s d)
  rw [port_requestTaken hs d.2 l i.2] at hq hlen
  rw [exec_ansLaneTake hnext hqueue, answers_next, hserve]
  exact ⟨hq, (rr_of_laneWork hlanes).trans (rr_requestTaken hs d.2 l), hlen, hbook⟩

/-! ### The SIV engine (R235, R236) -/

/-- The SIV engine has taken its oldest work. -/
def sivTaken (s : State) (d : Nat) (l : List SivJob) : State := updPd s d fun x => { x with siv := l }

theorem Shaped.sivTaken {s : State} (h : Shaped s) (d : Nat) (l : List SivJob) : Shaped (sivTaken s d l) :=
  h.updPd d (by exact fun _ => rfl)

theorem siv_sivTaken {s : State} (hs : Shaped s) {d : Nat} (hd : d < 4) (l : List SivJob) :
    (pd (sivTaken s d l) d).siv = l := by
  rw [sivTaken, pd_updPd_same hs hd]

theorem portMoves_untimed (d : Nat) (s : State) (i : Nat) (frame : List Byte) :
    PortMoves d [(.lch, rLCH_LINK_DROP_CNT)] s (untimed s d i frame none) :=
  .ite (portMoves_bump .lch d s rLCH_LINK_DROP_CNT) ((portMoves_updPort d s d i _).mono (by simp))

/-- A NAK is counted with INT_RAW[5]. -/
def nakCounted (s : State) (d : Nat) : State := raise (bump s (pSIV d) rSIV_NAK_CNT) (pSIV d) 5

/-- The SIV page of a Port die is not the Recorder's. -/
theorem offRec_siv (d : Nat) {o : Nat} (ho : o < 0x1000) : offRec ((pSIV d).adr o) = true :=
  offRec_of_page (by simp only [Pg.adr]; omega)

theorem rdN_nakCounted (s : State) (d : Nat) :
    rdN (nakCounted s d) (pSIV d) rSIV_NAK_CNT = min (rdN s (pSIV d) rSIV_NAK_CNT + 1) 0xFFFFFFFF := by
  rw [nakCounted, rdN_congr (rdA_raise_ne _ _ _ (offRec_siv d (by decide)) (Pg.adr_ne _ (by decide))), rdN_bump_same]

theorem intRaw_nakCounted (s : State) (d : Nat) : intRaw (nakCounted s d) (pSIV d) 5 = true :=
  intRaw_raise_same (.inr (offRec_siv d (by decide))) _ (by decide)

/-- A NAK goes out untimed once it is counted. -/
theorem sendNak_eq (s : State) (d i : Nat) (q : NtpReq) :
    ∃ frame, sendNak s d i q = untimed (nakCounted s d) d i frame none := ⟨_, rfl⟩

theorem ntsSivDone_nak {d : Fin 4} {i : Nat} {q : NtpReq} {l : List SivJob} {s : State} (hs : Shaped s)
    (hsiv : (pd s d).siv = .nak i q :: l) (grid : Nat) :
    Answers (exec (.ntsSivDone d grid true) s) fun t => (pd t d).siv = l ∧ intRaw t (pSIV d) 5 = true ∧
      rdN t (pSIV d) rSIV_NAK_CNT = min (rdN s (pSIV d) rSIV_NAK_CNT + 1) 0xFFFFFFFF := by
  have hexec : exec (.ntsSivDone d grid true) s = .next (sendNak (sivTaken s d l) d i q) := by
    simp only [exec, execNtsSivDone, hsiv, if_true, sivTaken]
  obtain ⟨frame, hsend⟩ := sendNak_eq (sivTaken s d l) d i q
  have hsent := portMoves_untimed d (nakCounted (sivTaken s d l) d) i frame
  have hcounted : (nakCounted (sivTaken s d l) d).ports = (sivTaken s d l).ports := by
    rw [nakCounted, raise_ports, bump_ports]
  have hlanes : laneWork (untimed (nakCounted (sivTaken s d l) d) d i frame none) d = laneWork (sivTaken s d l) d := by
    rw [laneWork_untimed, laneWork_of_ports hcounted]
  have hbeside : ∀ o < 0x1000, rdN (untimed (nakCounted (sivTaken s d l) d) d i frame none) (pSIV d) o =
      rdN (nakCounted (sivTaken s d l) d) (pSIV d) o := fun o ho =>
    rdN_of_portMoves_beside hsent (by simp +decide) ho (.inr ⟨rfl, rfl, d.2⟩)
  rw [hexec, answers_next, hsend]
  refine ⟨(siv_of_laneWork hlanes).trans (siv_sivTaken hs d.2 l), ?_, ?_⟩
  · rw [intRaw, hbeside rINT_RAW (by decide)]
    exact intRaw_nakCounted _ d
  · rw [hbeside rSIV_NAK_CNT (by decide), rdN_nakCounted, sivTaken, rdN_congr (rdA_updPd ..)]

/-- The booking of an NTS answer with its minted cookies. -/
theorem mintFor_books {s : State} (hs : Shaped s) {d i : Nat} (hd : d < 4) (hi : i < 8) {b : Booking}
    (hb : b ∈ (port s d i).books) (q : NtpReq) (h : NtpHead) (w : NtsWork) (mk : MasterKey) :
    (mintFor s d i b q h w mk).2 ∈ (port (mintFor s d i b q h w mk).1 d i).books := by
  have hshape : Shaped (add64 (mintFields d mk w w.k s).1 (pSIV d) rSIV_COOKIES_LO rSIV_COOKIES_HI w.k) :=
    kept_add64 shaped_closed _ _ _ _ _ (kept_mintFields shaped_closed trivial d mk w w.k s hs)
  rw [← port_mintFields d mk w w.k s,
    ← port_of_ports (add64_ports _ (pSIV d) rSIV_COOKIES_LO rSIV_COOKIES_HI w.k)] at hb
  exact mem_updBook hshape hd hi hb fun _ => _

theorem laneWork_mintFor (s : State) (d i : Nat) (b : Booking) (q : NtpReq) (h : NtpHead) (w : NtsWork)
    (mk : MasterKey) (e : Nat) : laneWork (mintFor s d i b q h w mk).1 e = laneWork s e := by
  simp only [mintFor]
  rw [updBook, laneWork_updPort, laneWork_of_ports (add64_ports _ _ _ _ _), laneWork_mintFields]

/-- The frame of an NTS answer is finished with a fresh nonce. -/
theorem fillNts_eq (s : State) (d i : Nat) (b : Booking) (q : NtpReq) (h : NtpHead) (w : NtsWork) :
    ∃ frame post, fillNts s d i b q h w = finishBook (drawNonce s d).1 d i b.no frame post := ⟨_, _, rfl⟩

theorem laneWork_drawNonce (s : State) (d e : Nat) : laneWork (drawNonce s d).1 e = laneWork s e := by
  rw [drawNonce, laneWork_of_ports (drawn_ports _)]
  exact laneWork_updPd (by exact fun _ => rfl) s d e

theorem finishNts_shows {s : State} (hs : Shaped s) {d i : Nat} (hd : d < 4) (hi : i < 8) {b : Booking} {q : NtpReq}
    {h : NtpHead} {w : NtsWork} {mk : MasterKey} (hb : b ∈ (port s d i).books) (hby : b.by' = .nts q h w)
    (hlate : b.late = false) (hkey : mintKey s d = some mk) (grid : Nat) :
    let t := finishNts s d i grid b
    laneWork t d = laneWork s d ∧ ∃ x ∈ (port t d i).books,
      x.no = b.no ∧ x.l = b.l ∧ x.frame.isSome = true ∧ x.by'.policy = some 1 := by
  have hstep : ∃ w', finishNts s d i grid b =
      fillNts (mintFor s d i b q h w mk).1 d i (mintFor s d i b q h w mk).2 q h w' := by
    simp only [finishNts, hby, hkey, hlate, Bool.false_eq_true, if_false]
    exact ⟨_, rfl⟩
  obtain ⟨w', hstep⟩ := hstep
  obtain ⟨frame, post, hfill⟩ := fillNts_eq (mintFor s d i b q h w mk).1 d i (mintFor s d i b q h w mk).2 q h w'
  have hshape : Shaped (drawNonce (mintFor s d i b q h w mk).1 d).1 :=
    kept_drawNonce shaped_closed trivial _ _ (kept_mintFor shaped_closed trivial s d i b q h w mk hs)
  have hmem := mintFor_books hs hd hi hb q h w mk
  rw [← port_drawNonce] at hmem
  obtain ⟨x, hx, hno, hl, hxby, hframe⟩ := finishBook_shows hshape hd hi hmem frame post
  simp only [hstep, hfill]
  exact ⟨by rw [laneWork_finishBook, laneWork_drawNonce, laneWork_mintFor], x, hx, hno, hl, hframe, by rw [hxby]; rfl⟩

theorem ntsSivDone_answer {d : Fin 4} {i : Fin 8} {l : List SivJob} {b : Booking} {q : NtpReq} {h : NtpHead}
    {w : NtsWork} {mk : MasterKey} {s : State} (hs : Shaped s) (hsiv : (pd s d).siv = .answer i b.no :: l)
    (hfind : ((port s d i).books.find? fun x => x.no == b.no) = some b) (hby : b.by' = .nts q h w)
    (hlate : b.late = false) (hkey : mintKey s d = some mk) (grid : Nat) :
    Answers (exec (.ntsSivDone d grid true) s) fun t => (pd t d).siv = l ∧
      (∃ x ∈ (port t d i).books, x.no = b.no ∧ x.l = b.l ∧ x.frame.isSome = true ∧ x.by'.policy = some 1) := by
  have hport : port (sivTaken s d l) d i = port s d i := port_updPd (by exact fun _ => rfl) s d d i
  have hexec : exec (.ntsSivDone d grid true) s = .next (finishNts (sivTaken s d l) d i grid b) := by
    rw [← hport] at hfind
    rw [sivTaken] at hfind ⊢
    simp only [exec, execNtsSivDone, hsiv, hfind, if_true]
  have hkey' : mintKey (sivTaken s d l) d = some mk := by
    rw [mintKey, sivTaken, pd_updPd_keeps PortDie.keys (by exact fun _ => rfl)]
    exact hkey
  obtain ⟨hlanes, hbook⟩ := finishNts_shows (hs.sivTaken d l) d.2 i.2
    (hport ▸ List.mem_of_find?_eq_some hfind) hby hlate hkey' grid
  rw [hexec, answers_next]
  exact ⟨(siv_of_laneWork hlanes).trans (siv_sivTaken hs d.2 l), hbook⟩

/-- Settles O33: each row in one theorem for each way that its request or work ends. -/
theorem ntpAnswers : Obligations.NtpAnswers :=
  ⟨fun _ _ grid tbl _ _ _ hs hnext hqueue hbad hold => ansLaneTake_tooOld hs hnext hqueue hbad hold grid tbl,
    fun _ _ grid tbl _ _ _ hs hnext hqueue hbad hfresh hform =>
      ansLaneTake_silent hs hnext hqueue hbad hfresh hform grid tbl,
    fun _ _ _ tbl _ _ _ hs hnext hqueue hbad hplain hfresh hform hcalm hstep hfree hwhy =>
      ansLaneTake_answers hs hnext hqueue hbad hplain hfresh hform hcalm hstep hfree hwhy tbl,
    fun _ _ grid _ _ _ hs hsiv => ntsSivDone_nak hs hsiv grid,
    fun _ _ grid _ _ _ _ _ _ _ hs hsiv hfind hby hlate hkey => ntsSivDone_answer hs hsiv hfind hby hlate hkey grid⟩

end Sys2Proof.Machine
end

section
/-! The KEY page while the keystore changes (R239–R244): the registers that a change moves, the interrupts that stand,
and what the page shows of the keys. -/

namespace Sys2Proof.Machine

/-! ### The registers of the KEY page -/

/-- No register of the KEY page is the Recorder's. -/
theorem offRec_key {o : Nat} (ho : o < 0x1000) : offRec (pKEY.adr o) = true :=
  offRec_of_page (by simp only [Pg.adr]; omega)

/-- An interrupt bit of the KEY page stands after its event. -/
theorem intRaw_raise_key (s : State) {bit : Nat} (hb : bit < 32) : intRaw (raise s pKEY bit) pKEY bit = true :=
  intRaw_raise_same (.inr (offRec_key (by decide))) s hb

/-- From `s` to `t` the KEY page moves only the registers at the offsets `l` and none of its interrupts falls; the
instant of the last generation stays. -/
structure KeyMoves (l : List Nat) (s t : State) : Prop where
  regs : ∀ o, o < 0x1000 → o ∉ l → rdA t (pKEY.adr o) = rdA s (pKEY.adr o)
  ints : ∀ b, b < 32 → intRaw s pKEY b = true → intRaw t pKEY b = true
  genAt : t.kisl.genAt = s.kisl.genAt

namespace KeyMoves

variable {l m : List Nat} {s t u : State}

theorem refl (l : List Nat) (s : State) : KeyMoves l s s := ⟨fun _ _ _ => rfl, fun _ _ h => h, rfl⟩

theorem trans (h₁ : KeyMoves l s t) (h₂ : KeyMoves l t u) : KeyMoves l s u :=
  ⟨fun o ho hl => (h₂.regs o ho hl).trans (h₁.regs o ho hl), fun b hb h => h₂.ints b hb (h₁.ints b hb h),
    h₂.genAt.trans h₁.genAt⟩

theorem mono (h : KeyMoves l s t) (hlm : l ⊆ m) : KeyMoves m s t :=
  ⟨fun o ho hm => h.regs o ho fun hl => hm (hlm hl), h.ints, h.genAt⟩

/-- One operation after another moves what either moves. -/
theorem andThen (h₁ : KeyMoves l s t) (h₂ : KeyMoves m t u) : KeyMoves (l ++ m) s u :=
  (h₁.mono (List.subset_append_left l m)).trans (h₂.mono (List.subset_append_right l m))

theorem foldl {α : Type} {g : State → α → State} (hg : ∀ s x, KeyMoves l s (g s x)) (xs : List α) (s : State) :
    KeyMoves l s (xs.foldl g s) :=
  kept_foldl (P := KeyMoves l s) xs g s (fun t x h => h.trans (hg t x)) (refl l s)

theorem ite {c : Prop} [Decidable c] (ht : KeyMoves l s t) (hu : KeyMoves l s u) :
    KeyMoves l s (if c then t else u) := by
  split
  · exact ht
  · exact hu

/-- An operation that leaves INT_RAW of the page. -/
theorem of_regs (hl : rINT_RAW ∉ l) (hregs : ∀ o, o < 0x1000 → o ∉ l → rdA t (pKEY.adr o) = rdA s (pKEY.adr o))
    (hgen : t.kisl.genAt = s.kisl.genAt) : KeyMoves l s t := by
  refine ⟨hregs, fun b _ h => ?_, hgen⟩
  rw [intRaw, rdN_congr (hregs _ (by decide) hl)]
  exact h

/-- An operation beside the registers. -/
theorem beside (hregs : t.regs = s.regs) (hgen : t.kisl.genAt = s.kisl.genAt) : KeyMoves l s t :=
  (of_regs (l := []) (by simp) (fun o _ _ => by rw [rdA, hregs, rdA]) hgen).mono (List.nil_subset l)

/-- An operation that moves one register of the page beside INT_RAW. -/
theorem one {o : Nat} (h : OtherRegs s t [pKEY.adr o]) (ho : o ≠ rINT_RAW) (hkisl : t.kisl = s.kisl) :
    KeyMoves [o] s t := by
  refine of_regs (by simpa using ho.symm) (fun o' ho' hne => h _ ?_ ?_) (by rw [hkisl])
  · simpa using Pg.adr_ne pKEY (List.ne_of_not_mem_cons hne)
  · simp only [Pg.adr]
    omega

/-- An operation that moves one register of the SIV page of a die. -/
theorem siv {d o : Nat} (h : OtherRegs s t [(pSIV d).adr o]) (hkisl : t.kisl = s.kisl) : KeyMoves l s t := by
  refine (of_regs (l := []) (by simp) (fun o' ho' _ => h _ ?_ ?_) (by rw [hkisl])).mono (List.nil_subset l)
  · simp only [List.mem_singleton, Pg.adr]
    omega
  · simp only [Pg.adr]
    omega

theorem raise (s : State) (bit : Nat) : KeyMoves [rINT_RAW] s (raise s pKEY bit) := by
  refine ⟨fun o ho hne => rdA_raise_ne _ _ _ (offRec_key ho) (Pg.adr_ne _ (by simpa using hne)), fun b hb h => ?_,
    by rw [raise_kisl]⟩
  rcases intRaw_raiseBy (p := pKEY) (.inr (offRec_key (by decide))) s bit false hb with hrisen | ⟨_, _, hrisen⟩
  · rw [Machine.raise, hrisen, h, Bool.or_true]
  · exact hrisen

theorem rdN (h : KeyMoves l s t) {o : Nat} (hl : o ∉ l) (ho : o < 0x1000) : rdN t pKEY o = rdN s pKEY o :=
  rdN_congr (h.regs o ho hl)

theorem get (h : KeyMoves l s t) {f : Fld} (hl : f.off ∉ l) (ho : f.off < 0x1000) : get t pKEY f = get s pKEY f :=
  get_congr (h.regs _ ho hl)

theorem flag (h : KeyMoves l s t) {f : Fld} (hl : f.off ∉ l) (ho : f.off < 0x1000) : flag t pKEY f = flag s pKEY f :=
  flag_congr (h.regs _ ho hl)

end KeyMoves

/-! ### The stores of the dies (R244) -/

theorem keyMoves_updKisl {l : List Nat} (s : State) {f : KeyIsland → KeyIsland} (hf : ∀ x, (f x).genAt = x.genAt) :
    KeyMoves l s (updKisl s f) :=
  .beside rfl (hf _)

theorem keyMoves_updPd {l : List Nat} (s : State) (d : Nat) (f : PortDie → PortDie) : KeyMoves l s (updPd s d f) :=
  .beside rfl rfl

theorem keyMoves_easeNtsKeys {l : List Nat} (s : State) (d : Nat) : KeyMoves l s (easeNtsKeys s d) :=
  .ite (.siv (otherRegs_doubt _ _ _ _) (doubt_kisl _ _ _ _)) (.refl l s)

theorem keyMoves_showSiv {l : List Nat} (s : State) (d : Nat) : KeyMoves l s (showSiv s d) :=
  (((KeyMoves.siv (otherRegs_put s (pSIV d) fSIV_STAT_N_KEYS _) (put_kisl _ _ _ _)).trans
    (.siv (otherRegs_put _ (pSIV d) fSIV_STAT_KSTATE _) (put_kisl _ _ _ _))).trans
    (.siv (otherRegs_wrN _ (pSIV d) rSIV_CUR_ID _) (wrN_kisl _ _ _ _))).trans
    (.foldl (fun _ _ => .siv (otherRegs_wrN _ _ _ _) (wrN_kisl _ _ _ _)) _ _)

theorem keyMoves_keysReady {l : List Nat} (s : State) (d : Nat) (b : Bool) : KeyMoves l s (keysReady s d b) :=
  (((KeyMoves.siv (otherRegs_putB s (pSIV d) fSIV_STAT_KEYS_READY b) (putB_kisl _ _ _ _)).trans
    (keyMoves_updPd _ d _)).trans
    (.ite (.siv (otherRegs_raise _ (pSIV d) 4) (raise_kisl _ _ _)) (.refl l _))).trans (keyMoves_easeNtsKeys _ d)

theorem keyMoves_dieStates {l : List Nat} (s : State) (d : Nat) : KeyMoves l s (dieStates s d) :=
  (keyMoves_updPd s d _).trans (keyMoves_showSiv _ d)

theorem keyMoves_dieErase {l : List Nat} (s : State) (d id : Nat) : KeyMoves l s (dieErase s d id) := by
  have herased := ((keyMoves_updPd (l := l) s d fun x => { x with keys := x.keys.filter fun k => k.id != id }).trans
    (keyMoves_showSiv _ d)).trans (.siv (otherRegs_raise _ (pSIV d) 2) (raise_kisl _ _ _))
  exact .ite (.ite (herased.trans (keyMoves_keysReady _ d false)) herased) (.refl l s)

theorem keyMoves_dieActivate {l : List Nat} (s : State) (d id : Nat) : KeyMoves l s (dieActivate s d id) :=
  .ite ((keyMoves_dieStates s d).trans (.siv (otherRegs_raise _ (pSIV d) 1) (raise_kisl _ _ _)))
    (keyMoves_dieStates s d)

/-- A key that is erased from a die stays on the island as it was. -/
@[simp] theorem dieErase_kisl (s : State) (d id : Nat) : (dieErase s d id).kisl = s.kisl :=
  (kept_dieErase (leaves_closed (· = .ports) s) rfl s d id (leaves_refl _ s) .kisl).resolve_left (by simp)

@[simp] theorem dieActivate_kisl (s : State) (d id : Nat) : (dieActivate s d id).kisl = s.kisl :=
  (kept_dieActivate (leaves_closed (· = .ports) s) rfl s d id (leaves_refl _ s) .kisl).resolve_left (by simp)

@[simp] theorem showKeys_kisl (s : State) : (showKeys s).kisl = s.kisl :=
  (kept_showKeys (leaves_closed (fun _ => False) s) s (leaves_refl _ s) .kisl).resolve_left id

@[simp] theorem sendKeyDown_kisl (s : State) (mk : MasterKey) : (sendKeyDown s mk).kisl = s.kisl :=
  (kept_sendKeyDown (leaves_closed (· = .links) s) rfl s mk (leaves_refl _ s) .kisl).resolve_left (by simp)

@[simp] theorem sendPurgeDown_kisl (s : State) : (sendPurgeDown s).kisl = s.kisl :=
  (kept_sendPurgeDown (leaves_closed (· = .links) s) rfl s (leaves_refl _ s) .kisl).resolve_left (by simp)

theorem foldl_kisl {α : Type} {g : State → α → State} (hg : ∀ s x, (g s x).kisl = s.kisl) (xs : List α) (s : State) :
    (xs.foldl g s).kisl = s.kisl :=
  kept_foldl (P := fun t => t.kisl = s.kisl) xs g s (fun t x h => (hg t x).trans h) rfl

/-! ### What the page shows of the keys -/

/-- The number of keys, whether one is staged or active, and their IDs are stored in the KEY page. -/
def keysMarked (s : State) : State :=
  wrN (wrN (putB (putB (put s pKEY fKEY_STAT_N_KEYS s.kisl.keys.length) pKEY fKEY_STAT_STAGED (stagedKey s).isSome)
    pKEY fKEY_STAT_ACTIVE (activeKey s).isSome) pKEY rKEY_CUR_ID (((activeKey s).map MasterKey.id).getD 0))
    pKEY rKEY_STAGED_ID (((stagedKey s).map MasterKey.id).getD 0)

/-- The registers of the KEY page that show the keys themselves. -/
@[simp] def markRegs : List Nat := [rKEY_STAT, rKEY_CUR_ID, rKEY_STAGED_ID]

/-- The registers of the KEY page that show when the next key is active, who holds it, and the doubts. -/
@[simp] def distRegs : List Nat := [rKEY_ACT_AT_LO, rKEY_ACT_AT_HI, rKEY_DIST_STAT, rDOUBT_RAW]

/-- The registers of the KEY page that follow the keystore, with its interrupts. -/
@[simp] def keystoreRegs : List Nat := rINT_RAW :: markRegs ++ distRegs

theorem keyMoves_keysMarked (s : State) : KeyMoves markRegs s (keysMarked s) :=
  (((((KeyMoves.one (otherRegs_put s pKEY fKEY_STAT_N_KEYS _) (by decide) (put_kisl _ _ _ _)).andThen
    (.one (otherRegs_putB _ pKEY fKEY_STAT_STAGED _) (by decide) (putB_kisl _ _ _ _))).andThen
    (.one (otherRegs_putB _ pKEY fKEY_STAT_ACTIVE _) (by decide) (putB_kisl _ _ _ _))).andThen
    (.one (otherRegs_wrN _ pKEY rKEY_CUR_ID _) (by decide) (wrN_kisl _ _ _ _))).andThen
    (.one (otherRegs_wrN _ pKEY rKEY_STAGED_ID _) (by decide) (wrN_kisl _ _ _ _))).mono (by simp)

theorem keyMoves_key_doubt (s : State) (bit : Nat) (b : Bool) : KeyMoves [rDOUBT_RAW] s (doubt s pKEY bit b) :=
  .one (otherRegs_doubt s pKEY bit b) (by decide) (doubt_kisl _ _ _ _)

/-- What follows the marks of the keys. -/
theorem keyMoves_showKeys_marked (s : State) : KeyMoves distRegs (keysMarked s) (showKeys s) := by
  refine KeyMoves.trans ?_ (.foldl keyMoves_easeNtsKeys _ _)
  refine KeyMoves.trans (t := doubt (put (put (wr64 (keysMarked s) pKEY rKEY_ACT_AT_LO rKEY_ACT_AT_HI _) pKEY
    fKEY_DIST_STAT_DIE _) pKEY fKEY_DIST_STAT_LINK _) pKEY 1 _) ?_
    (.ite ((keyMoves_key_doubt _ 2 false).mono (by simp)) (.refl _ _))
  exact (((((KeyMoves.one (otherRegs_wrN _ pKEY rKEY_ACT_AT_LO _) (by decide) (wrN_kisl _ _ _ _)).andThen
    (.one (otherRegs_wrN _ pKEY rKEY_ACT_AT_HI _) (by decide) (wrN_kisl _ _ _ _))).andThen
    (.one (otherRegs_put _ pKEY fKEY_DIST_STAT_DIE _) (by decide) (put_kisl _ _ _ _))).andThen
    (.one (otherRegs_put _ pKEY fKEY_DIST_STAT_LINK _) (by decide) (put_kisl _ _ _ _))).andThen
    (keyMoves_key_doubt _ 1 _)).mono (by simp)

theorem keyMoves_showKeys (s : State) : KeyMoves keystoreRegs s (showKeys s) :=
  ((keyMoves_keysMarked s).andThen (keyMoves_showKeys_marked s)).mono (by simp)

/-- The KEY page shows the active key and the staged key of the island. -/
structure KeysShown (s : State) : Prop where
  active : flag s pKEY fKEY_STAT_ACTIVE = (activeKey s).isSome
  staged : flag s pKEY fKEY_STAT_STAGED = (stagedKey s).isSome
  curId : rdN s pKEY rKEY_CUR_ID = ((activeKey s).map MasterKey.id).getD 0 % 2 ^ 32

theorem activeKey_of_kisl {s t : State} (h : t.kisl = s.kisl) : activeKey t = activeKey s := by
  rw [activeKey, h, activeKey]

theorem stagedKey_of_kisl {s t : State} (h : t.kisl = s.kisl) : stagedKey t = stagedKey s := by
  rw [stagedKey, h, stagedKey]

theorem keysShown_showKeys (s : State) : KeysShown (showKeys s) := by
  have hbeside := keyMoves_showKeys_marked s
  refine ⟨?_, ?_, ?_⟩
  · rw [hbeside.flag (by decide) (by decide), activeKey_of_kisl (showKeys_kisl s), keysMarked,
      flag_congr (rdA_wrN_ne _ _ _ _ (Pg.adr_ne _ (by decide))),
      flag_congr (rdA_wrN_ne _ _ _ _ (Pg.adr_ne _ (by decide))), flag_putB_same _ _ _ _ (by decide) rfl]
  · rw [hbeside.flag (by decide) (by decide), stagedKey_of_kisl (showKeys_kisl s), keysMarked,
      flag_congr (rdA_wrN_ne _ _ _ _ (Pg.adr_ne _ (by decide))),
      flag_congr (rdA_wrN_ne _ _ _ _ (Pg.adr_ne _ (by decide))),
      flag_putB_beside (by decide), flag_putB_same _ _ _ _ (by decide) rfl]
  · rw [hbeside.rdN (by decide) (by decide), activeKey_of_kisl (showKeys_kisl s), keysMarked,
      rdN_wrN_ne _ _ _ _ _ _ (Pg.adr_ne _ (by decide)), rdN_wrN_same]

/-- An empty keystore has no active key. -/
theorem activeKey_empty {s : State} (h : s.kisl.keys = []) : (activeKey s).isNone = true := by
  rw [activeKey, h]
  rfl

/-- The newest key is the active one where it is in state 2. -/
theorem activeKey_newest {s : State} {l : List MasterKey} {k : MasterKey} (h : s.kisl.keys = l ++ [k]) (hk : k.st = 2) :
    activeKey s = some k := by
  simp [activeKey, h, hk]

/-- The newest key is the staged one where it is in state 1. -/
theorem stagedKey_newest {s : State} {l : List MasterKey} {k : MasterKey} (h : s.kisl.keys = l ++ [k]) (hk : k.st = 1) :
    stagedKey s = some k := by
  simp [stagedKey, h, hk]

end Sys2Proof.Machine
end

section
/-! Master keys (R239–R242, R246): erasure, activation and generation of keys, and what the rows show. -/

namespace Sys2Proof.Machine

/-! ### Erasure (R241, R242) -/

theorem keys_eraseOldest (s : State) : (eraseOldest s).kisl.keys = s.kisl.keys.tail := by
  rw [eraseOldest]
  split
  · next h => rw [h, List.tail_nil]
  · next h =>
    rw [foldl_kisl (fun s d => dieErase_kisl s d _), raise_kisl, h]
    rfl

theorem keyMoves_eraseOldest (s : State) : KeyMoves [rINT_RAW] s (eraseOldest s) := by
  rw [eraseOldest]
  split
  · exact .refl _ s
  · exact ((keyMoves_updKisl s (by exact fun _ => rfl)).trans (.raise _ 2)).trans
      (.foldl (fun s d => keyMoves_dieErase s d _) _ _)

theorem intRaw_eraseOldest {s : State} (h : s.kisl.keys ≠ []) : intRaw (eraseOldest s) pKEY 2 = true := by
  obtain ⟨k, l, hk⟩ := List.exists_cons_of_ne_nil h
  rw [eraseOldest, hk]
  exact (KeyMoves.foldl (l := []) (fun s d => keyMoves_dieErase s d k.id) _ _).ints 2 (by decide)
    (intRaw_raise_key _ (by decide))

/-- The oldest keys, as many as `n`, are erased one after the other. -/
def oldestErased (s : State) (n : Nat) : State := (List.range n).foldl (fun s _ => eraseOldest s) s

theorem oldestErased_succ (s : State) (n : Nat) : oldestErased s (n + 1) = eraseOldest (oldestErased s n) := by
  rw [oldestErased, List.range_succ, List.foldl_append]
  rfl

theorem keys_oldestErased (s : State) (n : Nat) : (oldestErased s n).kisl.keys = s.kisl.keys.drop n := by
  induction n with
  | zero => rfl
  | succ n ih => rw [oldestErased_succ, keys_eraseOldest, ih, List.tail_drop]

theorem keyMoves_oldestErased (s : State) (n : Nat) : KeyMoves [rINT_RAW] s (oldestErased s n) :=
  .foldl (fun s _ => keyMoves_eraseOldest s) _ s

/-- Nothing is left of the keystore. -/
theorem keys_eraseAll (s : State) : (eraseAll s).kisl.keys = [] :=
  (keys_oldestErased _ _).trans (List.drop_length ..)

theorem keyMoves_eraseAll (s : State) : KeyMoves [rINT_RAW] s (eraseAll s) :=
  (keyMoves_updKisl s (by exact fun _ => rfl)).trans (keyMoves_oldestErased _ _)

/-- The erasure of the last key sets INT_RAW[2]. -/
theorem intRaw_eraseAll {s : State} (h : s.kisl.keys ≠ []) : intRaw (eraseAll s) pKEY 2 = true := by
  obtain ⟨n, hn⟩ := Nat.exists_eq_succ_of_ne_zero (List.length_pos_iff.mpr h).ne'
  have hlast : ∀ u : State, u.kisl.keys = s.kisl.keys → intRaw (oldestErased u s.kisl.keys.length) pKEY 2 = true := by
    intro u hu
    rw [hn, oldestErased_succ]
    refine intRaw_eraseOldest ?_
    rw [keys_oldestErased, hu, ne_eq, List.drop_eq_nil_iff]
    omega
  exact hlast _ rfl

/-! ### Activation (R241) -/

/-- A key after the activation of the one with an ID. -/
def MasterKey.after (id : Nat) (k : MasterKey) : MasterKey :=
  if k.id = id then { k with st := 2 } else if k.st = 2 then { k with st := 3 } else k

/-- The keys take the states of an activation, on the island and on the dies. -/
def keysActivated (s : State) (id : Nat) : State :=
  (List.range 4).foldl (fun s d => dieActivate s d id)
    (raise (updKisl s fun x => { x with keys := x.keys.map (MasterKey.after id) }) pKEY 1)

theorem activate_eq (s : State) (id : Nat) : activate s id = showKeys (trimKeys (keysActivated s id)) := rfl

theorem keys_keysActivated (s : State) (id : Nat) :
    (keysActivated s id).kisl.keys = s.kisl.keys.map (MasterKey.after id) := by
  rw [keysActivated, foldl_kisl fun s d => dieActivate_kisl s d id, raise_kisl]
  rfl

theorem keyMoves_keysActivated (s : State) (id : Nat) : KeyMoves [rINT_RAW] s (keysActivated s id) :=
  ((keyMoves_updKisl s (by exact fun _ => rfl)).trans (.raise _ 1)).trans
    (.foldl (fun s d => keyMoves_dieActivate s d id) _ _)

theorem intRaw_keysActivated (s : State) (id : Nat) : intRaw (keysActivated s id) pKEY 1 = true :=
  (KeyMoves.foldl (l := []) (fun s d => keyMoves_dieActivate s d id) _ _).ints 1 (by decide)
    (intRaw_raise_key _ (by decide))

theorem keyMoves_trimKeys (s : State) : KeyMoves [rINT_RAW] s (trimKeys s) := keyMoves_oldestErased s _

theorem keyMoves_activate (s : State) (id : Nat) : KeyMoves keystoreRegs s (activate s id) := by
  rw [activate_eq]
  exact (((keyMoves_keysActivated s id).trans (keyMoves_trimKeys _)).andThen (keyMoves_showKeys _)).mono (by simp)

/-- An activation sets INT_RAW[1]. -/
theorem intRaw_activate (s : State) (id : Nat) : intRaw (activate s id) pKEY 1 = true := by
  rw [activate_eq]
  exact (keyMoves_showKeys _).ints 1 (by decide) ((keyMoves_trimKeys _).ints 1 (by decide) (intRaw_keysActivated s id))

theorem keysShown_activate (s : State) (id : Nat) : KeysShown (activate s id) := by
  rw [activate_eq]
  exact keysShown_showKeys _

/-- The newest key becomes active; of those before it the newest stay that RETAIN.COUNT leaves room for. -/
theorem keys_activate {s : State} {l : List MasterKey} {k : MasterKey} (h : s.kisl.keys = l ++ [k])
    (hcount : 0 < get s pKEY fKEY_RETAIN_COUNT) :
    (activate s k.id).kisl.keys =
      (l.map (MasterKey.after k.id)).drop (l.length + 1 - get s pKEY fKEY_RETAIN_COUNT) ++ [{ k with st := 2 }] := by
  have hkeys : (keysActivated s k.id).kisl.keys = l.map (MasterKey.after k.id) ++ [{ k with st := 2 }] := by
    rw [keys_keysActivated, h, List.map_append, List.map_singleton, MasterKey.after, if_pos rfl]
  have hretain : get (keysActivated s k.id) pKEY fKEY_RETAIN_COUNT = get s pKEY fKEY_RETAIN_COUNT :=
    (keyMoves_keysActivated s k.id).get (by decide) (by decide)
  have htrim : trimKeys (keysActivated s k.id) = oldestErased (keysActivated s k.id)
      ((keysActivated s k.id).kisl.keys.length - get (keysActivated s k.id) pKEY fKEY_RETAIN_COUNT) := rfl
  rw [activate_eq, showKeys_kisl, htrim, keys_oldestErased, hretain, hkeys, List.length_append, List.length_map,
    List.length_singleton, List.drop_append_of_le_length (by rw [List.length_map]; omega)]

theorem activeKey_activate {s : State} {l : List MasterKey} {k : MasterKey} (h : s.kisl.keys = l ++ [k])
    (hcount : 0 < get s pKEY fKEY_RETAIN_COUNT) : activeKey (activate s k.id) = some { k with st := 2 } :=
  activeKey_newest (keys_activate h hcount) rfl

theorem keyMoves_advPc {l : List Nat} (s : State) (t : PC64) : KeyMoves l s (advPc s t) := by
  obtain ⟨p, hadv⟩ := advPc_eq s t
  rw [hadv]
  exact .beside rfl rfl

@[simp] theorem advPc_kisl (s : State) (t : PC64) : (advPc s t).kisl = s.kisl := by
  obtain ⟨p, hadv⟩ := advPc_eq s t
  rw [hadv]

theorem keyActivate_shows {k : MasterKey} {l : List MasterKey} {s : State} (hkeys : s.kisl.keys = l ++ [k])
    (hst : k.st = 1) (hon : keyOn s = true) (hcount : 0 < get s pKEY fKEY_RETAIN_COUNT) :
    Answers (exec .keyActivate s) fun t => (activeKey t).map (fun x => x.id) = some k.id ∧ intRaw t pKEY 1 = true ∧
      rdN t pKEY rKEY_CUR_ID = k.id % 2 ^ 32 ∧
      t.kisl.keys.length = min (l.length + 1) (get s pKEY fKEY_RETAIN_COUNT) := by
  have hexec : exec .keyActivate s = .next (activate (advPc s k.at') k.id) := by
    simp only [exec, execKeyActivate, stagedKey_newest hkeys hst, hon, if_true]
  have hretain : get (advPc s k.at') pKEY fKEY_RETAIN_COUNT = get s pKEY fKEY_RETAIN_COUNT :=
    (keyMoves_advPc (l := []) s k.at').get (by decide) (by decide)
  have hkeys' : (advPc s k.at').kisl.keys = l ++ [k] := by rw [advPc_kisl, hkeys]
  have hactive := activeKey_activate hkeys' (hretain.symm ▸ hcount)
  rw [hexec, answers_next, (keysShown_activate _ _).curId, hactive, keys_activate hkeys' (hretain.symm ▸ hcount),
    hretain, List.length_append, List.length_drop, List.length_map, List.length_singleton]
  exact ⟨rfl, intRaw_activate _ _, rfl, by omega⟩

/-! ### A key joins the keystore (R239, R240) -/

theorem keyMoves_crossSend {l : List Nat} (s : State) (d : Nat) (ks : List MasterKey) :
    KeyMoves l s (crossSend s d ks) :=
  .beside rfl rfl

theorem foldl_regs {α : Type} {g : State → α → State} (hg : ∀ s x, (g s x).regs = s.regs) (xs : List α) (s : State) :
    (xs.foldl g s).regs = s.regs :=
  kept_foldl (P := fun t => t.regs = s.regs) xs g s (fun t x h => (hg t x).trans h) rfl

/-- Keys go down the links in frames, beside the registers. -/
@[simp] theorem sendKeyDown_regs (s : State) (mk : MasterKey) : (sendKeyDown s mk).regs = s.regs := by
  refine foldl_regs (fun s k => foldl_regs (fun s c => ?_) _ s) _ s
  rw [sendKeyTo]
  split
  · rfl
  · rfl

@[simp] theorem sendPurgeDown_regs (s : State) : (sendPurgeDown s).regs = s.regs := by
  refine foldl_regs (fun s k => foldl_regs (fun s c => ?_) _ s) _ s
  split
  · rfl
  · rfl

/-- A key has joined the keystore, staged. -/
def keyStaged (s : State) (k : MasterKey) : State :=
  updKisl s fun x => { x with keys := x.keys ++ [{ k with st := 1 }] }

/-- The keystore after a key has joined it, and has become active at once or not. -/
def keyJoined (s : State) (k : MasterKey) (now : Bool) : State :=
  if now then activate (keyStaged s k) k.id else showKeys (keyStaged s k)

theorem keyMoves_keyJoined (s : State) (k : MasterKey) (now : Bool) : KeyMoves keystoreRegs s (keyJoined s k now) := by
  have hjoin : KeyMoves keystoreRegs s (keyStaged s k) := .beside rfl rfl
  exact .ite (hjoin.trans (keyMoves_activate _ _)) (hjoin.trans (keyMoves_showKeys _))

theorem keysShown_keyJoined (s : State) (k : MasterKey) (now : Bool) : KeysShown (keyJoined s k now) := by
  rw [keyJoined]
  split
  · exact keysShown_activate _ _
  · exact keysShown_showKeys _

theorem intRaw_keyJoined_now (s : State) (k : MasterKey) : intRaw (keyJoined s k true) pKEY 1 = true := by
  rw [keyJoined, if_pos rfl]
  exact intRaw_activate _ _

/-- The first key of an empty keystore becomes active as it joins. -/
theorem keys_keyJoined_first {s : State} (h : s.kisl.keys = []) (k : MasterKey)
    (hcount : 0 < get s pKEY fKEY_RETAIN_COUNT) : (keyJoined s k true).kisl.keys = [{ k with st := 2 }] := by
  have hstaged : (keyStaged s k).kisl.keys = [] ++ [{ k with st := 1 }] := by
    simp only [keyStaged, updKisl, h]
  rw [keyJoined, if_pos rfl, keys_activate hstaged hcount, List.map_nil, List.drop_nil, List.nil_append]

/-- What carries a key that has joined moves no register of the KEY page and no key of the island. -/
theorem addKey_sends (s : State) (k : MasterKey) (now : Bool) : addKey s k now = keyJoined s k now ∨
    ∃ u, KeyMoves [] (keyJoined s k now) u ∧ u.kisl.keys = (keyJoined s k now).kisl.keys ∧
      addKey s k now = showKeys u := by
  have haddKey : addKey s k now = match (keyJoined s k now).kisl.keys.find? (fun x => x.id == k.id) with
      | none => keyJoined s k now
      | some j => showKeys (sendKeyDown ((List.range 4).foldl (fun s d =>
          if pdeIsOn s d then crossSend s d [j] else s) (keyJoined s k now)) j) := rfl
  rw [haddKey]
  split
  · exact .inl rfl
  · next j _ =>
    have hcross : KeyMoves [] (keyJoined s k now) ((List.range 4).foldl (fun s d =>
        if pdeIsOn s d then crossSend s d [j] else s) (keyJoined s k now)) :=
      .foldl (fun s d => .ite (keyMoves_crossSend s d [j]) (.refl [] s)) _ _
    refine .inr ⟨_, hcross.trans (.beside (sendKeyDown_regs _ j) (by rw [sendKeyDown_kisl])), ?_, rfl⟩
    rw [sendKeyDown_kisl]
    refine kept_foldl (P := fun u => u.kisl.keys = (keyJoined s k now).kisl.keys) _ _ _ (fun u d h => ?_) rfl
    split
    · exact h
    · exact h

theorem keyMoves_addKey (s : State) (k : MasterKey) (now : Bool) : KeyMoves keystoreRegs s (addKey s k now) := by
  obtain hsame | ⟨u, hmoves, _, hshow⟩ := addKey_sends s k now
  · rw [hsame]
    exact keyMoves_keyJoined s k now
  · rw [hshow]
    exact ((keyMoves_keyJoined s k now).trans (hmoves.mono (List.nil_subset _))).trans (keyMoves_showKeys u)

theorem keys_addKey (s : State) (k : MasterKey) (now : Bool) :
    (addKey s k now).kisl.keys = (keyJoined s k now).kisl.keys := by
  obtain hsame | ⟨u, _, hkeys, hshow⟩ := addKey_sends s k now
  · rw [hsame]
  · rw [hshow, showKeys_kisl, hkeys]

theorem keysShown_addKey (s : State) (k : MasterKey) (now : Bool) : KeysShown (addKey s k now) := by
  obtain hsame | ⟨u, _, _, hshow⟩ := addKey_sends s k now
  · rw [hsame]
    exact keysShown_keyJoined s k now
  · rw [hshow]
    exact keysShown_showKeys u

/-- An interrupt that stands when the key has joined stays. -/
theorem intRaw_addKey {s : State} {k : MasterKey} {now : Bool} {b : Nat} (hb : b < 32)
    (h : intRaw (keyJoined s k now) pKEY b = true) : intRaw (addKey s k now) pKEY b = true := by
  obtain hsame | ⟨u, hmoves, _, hshow⟩ := addKey_sends s k now
  · rw [hsame]
    exact h
  · rw [hshow]
    exact (keyMoves_showKeys u).ints b hb (hmoves.ints b hb h)

/-! ### Generation (R239, R240) -/

/-- The key that is generated: its ID follows that of the newest key, or is drawn. -/
def keyDrawn (s : State) : MasterKey :=
  { id := match s.kisl.keys.getLast? with
      | none => freeVal s 37 % 2 ^ 32
      | some k => (k.id + 1) % 2 ^ 32
    key := bytesBE 32 (freeVal s 33)
    st := 1
    at' := if (activeKey s).isNone then pcNow s
      else pcNow s + BitVec.ofNat 64 (orD (get s pKEY fKEY_ROT_CFG_ACT_DELAY) 1 * secU) }

/-- The instant of a generation is kept. -/
def genStarted (s : State) : State := updKisl (drawn s) fun x => { x with genAt := mono s, postponed := false }

/-- A generation is counted, with INT_RAW[0]. -/
def genCounted (s : State) : State := raise (bump (genStarted s) pKEY rKEY_GEN_CNT) pKEY 0

theorem generate_eq (s : State) : generate s = addKey (genCounted s) (keyDrawn s) (activeKey s).isNone := rfl

theorem keyMoves_genCounted (s : State) : KeyMoves [rKEY_GEN_CNT, rINT_RAW] (genStarted s) (genCounted s) :=
  (KeyMoves.one (otherRegs_bump _ pKEY rKEY_GEN_CNT) (by decide) (bump_kisl _ _ _)).andThen (.raise _ 0)

theorem keyMoves_generate (s : State) : KeyMoves (rKEY_GEN_CNT :: keystoreRegs) (genStarted s) (generate s) := by
  rw [generate_eq]
  exact ((keyMoves_genCounted s).andThen (keyMoves_addKey _ _ _)).mono (by simp)

theorem keys_genCounted (s : State) : (genCounted s).kisl.keys = s.kisl.keys := by
  rw [genCounted, raise_kisl, bump_kisl]
  rfl

/-- An interrupt that stands stays when a key is generated. -/
theorem intRaw_generate {s : State} {b : Nat} (hb : b < 32) (h : intRaw s pKEY b = true) :
    intRaw (generate s) pKEY b = true :=
  (keyMoves_generate s).ints b hb h

theorem get_genCounted (s : State) {f : Fld} (hf : f.off ∉ [rKEY_GEN_CNT, rINT_RAW]) (ho : f.off < 0x1000) :
    get (genCounted s) pKEY f = get s pKEY f :=
  (keyMoves_genCounted s).get hf ho

/-- A generation is counted and sets INT_RAW[0]; the page shows the keys. -/
theorem generate_counts (s : State) : intRaw (generate s) pKEY 0 = true ∧
    rdN (generate s) pKEY rKEY_GEN_CNT = min (rdN s pKEY rKEY_GEN_CNT + 1) 0xFFFFFFFF ∧
    (generate s).kisl.genAt = mono s ∧ KeysShown (generate s) := by
  have hmoves := keyMoves_addKey (genCounted s) (keyDrawn s) (activeKey s).isNone
  rw [(keyMoves_generate s).genAt, generate_eq, hmoves.rdN (by decide) (by decide)]
  refine ⟨hmoves.ints 0 (by decide) (intRaw_raise_key _ (by decide)), ?_, rfl, keysShown_addKey _ _ _⟩
  rw [genCounted, (KeyMoves.raise _ 0).rdN (by decide) (by decide)]
  exact rdN_bump_same (genStarted s) pKEY rKEY_GEN_CNT

/-- A key that is generated for an empty keystore is the only one, and active at once. -/
theorem generate_first {s : State} (hkeys : s.kisl.keys = []) (hcount : 0 < get s pKEY fKEY_RETAIN_COUNT) :
    (generate s).kisl.keys.length = 1 ∧ (activeKey (generate s)).isSome = true ∧ intRaw (generate s) pKEY 1 = true := by
  have hnone := activeKey_empty hkeys
  have hretain : 0 < get (genCounted s) pKEY fKEY_RETAIN_COUNT := by rwa [get_genCounted s (by decide) (by decide)]
  have hsole : (generate s).kisl.keys = [] ++ [{ keyDrawn s with st := 2 }] := by
    rw [generate_eq, hnone, keys_addKey, keys_keyJoined_first ((keys_genCounted s).trans hkeys) _ hretain,
      List.nil_append]
  refine ⟨by rw [hsole]; rfl, by rw [activeKey_newest hsole rfl, Option.isSome_some], ?_⟩
  rw [generate_eq, hnone]
  exact intRaw_addKey (by decide) (intRaw_keyJoined_now _ _)

/-- A key that is generated while another is active is staged behind the keys there are. -/
theorem generate_next {s : State} (hactive : (activeKey s).isSome = true) :
    (generate s).kisl.keys = s.kisl.keys ++ [keyDrawn s] := by
  have hsome : (activeKey s).isNone = false := by rw [Option.isNone_eq_false_iff, hactive]
  rw [generate_eq, hsome, keys_addKey, keyJoined, if_neg Bool.false_ne_true, showKeys_kisl]
  exact congrArg (· ++ [keyDrawn s]) (keys_genCounted s)

theorem keyGen_shows {s : State} (hmay : mayGenerate s = true) (hok : drbgOk s = true) (hkeys : s.kisl.keys = [])
    (hcount : 0 < get s pKEY fKEY_RETAIN_COUNT) :
    Answers (exec .keyGen s) fun t => t.kisl.keys.length = 1 ∧ (activeKey t).isSome = true ∧ intRaw t pKEY 0 = true ∧
      intRaw t pKEY 1 = true ∧ rdN t pKEY rKEY_GEN_CNT = min (rdN s pKEY rKEY_GEN_CNT + 1) 0xFFFFFFFF ∧
      flag t pKEY fKEY_STAT_ACTIVE = true ∧ t.kisl.genAt = mono s := by
  have hnone := activeKey_empty hkeys
  have hexec : exec .keyGen s = .next (generate s) := by
    simp only [exec, execKeyGen, generateIfNone, hmay, hnone, hok, Bool.not_true, Bool.false_eq_true, Bool.and_self,
      if_false, if_true]
  obtain ⟨hint, hcnt, hgen, hshown⟩ := generate_counts s
  obtain ⟨hlen, hactive, hact⟩ := generate_first hkeys hcount
  rw [hexec, answers_next, hshown.active]
  exact ⟨hlen, hactive, hint, hact, hcnt, hactive, hgen⟩

theorem rotate_shows {r : Requester} {k : MasterKey} {l : List MasterKey} {s : State} (hw : writable s r pKEY = true)
    (hown : keyUpstream s = false) (hok : drbgOk s = true) (hfeat : feat s 0 = true) (hstaged : stagedKey s = none)
    (hactive : (activeKey s).isSome = true) (hkeys : s.kisl.keys = l ++ [k]) :
    Answers (exec (.rotate r) s) fun t => (stagedKey t).map (fun x => x.id) = some ((k.id + 1) % 2 ^ 32) ∧
      t.kisl.keys.take (l.length + 1) = l ++ [k] ∧ t.kisl.keys.length = l.length + 2 ∧ intRaw t pKEY 0 = true ∧
      flag t pKEY fKEY_STAT_STAGED = true ∧
      rdN t pKEY rKEY_GEN_CNT = min (rdN s pKEY rKEY_GEN_CNT + 1) 0xFFFFFFFF := by
  have hexec : exec (.rotate r) s = .next (generate s) := by
    simp only [exec, execRotate, onWrite_writable hw, rotate, hown, hok, hfeat, hstaged, Option.isSome_none,
      Bool.not_true, Bool.or_self, Bool.false_eq_true, if_false]
  have hid : (keyDrawn s).id = (k.id + 1) % 2 ^ 32 := by
    simp only [keyDrawn, hkeys, List.getLast?_concat]
  have hnext := generate_next hactive
  rw [hkeys] at hnext
  obtain ⟨hint, hcnt, _, hshown⟩ := generate_counts s
  rw [hexec, answers_next, hshown.staged, stagedKey_newest hnext rfl, hnext, Option.map_some, hid]
  exact ⟨rfl, List.take_left' (by simp), by simp, hint, rfl, hcnt⟩

/-! ### PURGE (R242) -/

theorem purge_shows {r : Requester} {s : State} (hw : writable s r pKEY = true) (hown : keyUpstream s = false)
    (hok : drbgOk s = true) (hfeat : feat s 0 = true) (hcount : 0 < get s pKEY fKEY_RETAIN_COUNT) :
    Answers (exec (.purge r) s) fun t => t.kisl.keys.length = 1 ∧ (activeKey t).isSome = true ∧
      rdN t pKEY rKEY_GEN_CNT = min (rdN s pKEY rKEY_GEN_CNT + 1) 0xFFFFFFFF ∧ intRaw t pKEY 0 = true ∧
      (s.kisl.keys ≠ [] → intRaw t pKEY 2 = true) := by
  have hexec : exec (.purge r) s = .next (showKeys (generate (sendPurgeDown (eraseAll s)))) := by
    simp only [exec, execPurge, onWrite_writable hw, purge, hown, hok, hfeat, Bool.not_true, Bool.or_self,
      Bool.false_eq_true, if_false, if_true]
  have hsent : KeyMoves [rINT_RAW] (eraseAll s) (sendPurgeDown (eraseAll s)) :=
    .beside (sendPurgeDown_regs _) (by rw [sendPurgeDown_kisl])
  have herased := (keyMoves_eraseAll s).trans hsent
  have hretain : 0 < get (sendPurgeDown (eraseAll s)) pKEY fKEY_RETAIN_COUNT := by
    rwa [herased.get (by decide) (by decide)]
  obtain ⟨hint, hcnt, _, _⟩ := generate_counts (sendPurgeDown (eraseAll s))
  obtain ⟨hlen, hactive, _⟩ := generate_first (by rw [sendPurgeDown_kisl, keys_eraseAll]) hretain
  have hshow := keyMoves_showKeys (generate (sendPurgeDown (eraseAll s)))
  rw [hexec, answers_next, activeKey_of_kisl (showKeys_kisl _), showKeys_kisl, hshow.rdN (by decide) (by decide), hcnt,
    herased.rdN (by decide) (by decide)]
  exact ⟨hlen, hactive, rfl, hshow.ints 0 (by decide) hint, fun hsome => hshow.ints 2 (by decide)
    (intRaw_generate (by decide) (hsent.ints 2 (by decide) (intRaw_eraseAll hsome)))⟩

/-! ### The random bit generator (R246) -/

theorem drbgFail_shows {s : State} (hon : keyOn s = true) :
    Answers (exec .drbgFail s) fun t => drbgOk t = false ∧ doubts t pKEY 0 = true ∧ intRaw t pKEY 6 = true ∧
      rdN t pKEY rKEY_DRBG_FAIL_CNT = min (rdN s pKEY rKEY_DRBG_FAIL_CNT + 1) 0xFFFFFFFF ∧
      OtherRegs s t [pKEY.adr rKEY_STAT, pKEY.adr rDOUBT_RAW, pKEY.adr rKEY_DRBG_FAIL_CNT, pKEY.adr rINT_RAW] := by
  have hexec : exec .drbgFail s = .next (raise (bump (doubt (putB s pKEY fKEY_STAT_DRBG_OK false) pKEY 0 true) pKEY
      rKEY_DRBG_FAIL_CNT) pKEY 6) := by
    simp only [exec, execDrbgFail, hon, if_true]
  have hstop := otherRegs_putB s pKEY fKEY_STAT_DRBG_OK false
  have hdoubt := otherRegs_doubt (putB s pKEY fKEY_STAT_DRBG_OK false) pKEY 0 true
  have hcount := otherRegs_bump (doubt (putB s pKEY fKEY_STAT_DRBG_OK false) pKEY 0 true) pKEY rKEY_DRBG_FAIL_CNT
  have hraise := otherRegs_raise (bump (doubt (putB s pKEY fKEY_STAT_DRBG_OK false) pKEY 0 true) pKEY
    rKEY_DRBG_FAIL_CNT) pKEY 6
  rw [hexec, answers_next, drbgOk, hraise.flag (by decide) (by decide), hcount.flag (by decide) (by decide),
    hdoubt.flag (by decide) (by decide), hraise.doubts 0 (by decide) (by decide),
    hcount.doubts 0 (by decide) (by decide), doubts_doubt_same _ _ _ (by decide), hraise.rdN (by decide) (by decide),
    rdN_bump_same, hdoubt.rdN (by decide) (by decide), hstop.rdN (by decide) (by decide)]
  exact ⟨flag_putB_same _ _ _ _ (by decide) rfl, rfl, intRaw_raise_key _ (by decide), rfl,
    (((hstop.mono (by simp)).andThen hdoubt (by simp)).andThen hcount (by simp)).andThen hraise (by simp)⟩

@[simp] theorem reseed_regs (s : State) (d : Nat) : (reseed s d).regs = s.regs := by
  rw [reseed]
  split
  · rfl
  · rfl

@[simp] theorem reseed_kisl (s : State) (d : Nat) : (reseed s d).kisl = s.kisl := by
  rw [reseed]
  split
  · rfl
  · rfl

theorem drbgRecover_shows {s : State} (hon : keyOn s = true) (hstop : drbgOk s = false)
    (hnone : s.kisl.postponed = false) :
    Answers (exec .drbgRecover s) fun t => drbgOk t = true ∧ doubts t pKEY 0 = false ∧ t.kisl = s.kisl ∧
      OtherRegs s t [pKEY.adr rKEY_STAT, pKEY.adr rDOUBT_RAW] := by
  have hexec : exec .drbgRecover s = .next ((List.range 4).foldl reseed
      (doubt (putB s pKEY fKEY_STAT_DRBG_OK true) pKEY 0 false)) := by
    simp only [exec, execDrbgRecover, hon, hstop, hnone, Bool.not_false, Bool.and_self, Bool.false_and,
      Bool.false_eq_true, if_false, if_true]
  have hstart := otherRegs_putB s pKEY fKEY_STAT_DRBG_OK true
  have hdoubt := otherRegs_doubt (putB s pKEY fKEY_STAT_DRBG_OK true) pKEY 0 false
  have hseeds : OtherRegs (doubt (putB s pKEY fKEY_STAT_DRBG_OK true) pKEY 0 false) _ [] :=
    .of_regs (foldl_regs reseed_regs (List.range 4) _) _
  rw [hexec, answers_next, drbgOk, hseeds.flag (by decide) (by decide), hdoubt.flag (by decide) (by decide),
    hseeds.doubts 0 (by decide) (by decide), doubts_doubt_same _ _ _ (by decide), foldl_kisl reseed_kisl, doubt_kisl,
    putB_kisl]
  exact ⟨flag_putB_same _ _ _ _ (by decide) rfl, rfl, rfl,
    ((hstart.mono (by simp)).andThen hdoubt (by simp)).andThen hseeds (by simp)⟩

/-- Settles O35: a change of the keystore moves of the KEY page what shows the keys and lets no interrupt fall; each
row in one theorem. -/
theorem masterKeys : Obligations.MasterKeys :=
  ⟨fun _ hmay hok hkeys hcount => keyGen_shows hmay hok hkeys hcount,
    fun _ _ _ _ hw hown hok hfeat hstaged hactive hkeys => rotate_shows hw hown hok hfeat hstaged hactive hkeys,
    fun _ _ _ hkeys hst hon hcount => keyActivate_shows hkeys hst hon hcount,
    fun _ _ hw hown hok hfeat hcount => purge_shows hw hown hok hfeat hcount,
    fun _ hon => drbgFail_shows hon, fun _ hon hstop hnone => drbgRecover_shows hon hstop hnone⟩

end Sys2Proof.Machine
end

section
/-! Keys on their way to the dies and down the links (R243–R245, R409), and the doubts about them. -/

namespace Sys2Proof.Machine

/-! ### The SIV page -/

/-- An interrupt bit of the SIV page of a die stands after its event. -/
theorem intRaw_raise_siv (s : State) (d : Nat) {bit : Nat} (hb : bit < 32) :
    intRaw (raise s (pSIV d) bit) (pSIV d) bit = true :=
  intRaw_raise_same (.inr (offRec_siv d (by decide))) s hb

/-! ### A transfer arrives (R243, R244) -/

@[simp] theorem showKeys_ports (s : State) : (showKeys s).ports = s.ports :=
  (kept_showKeys (leaves_closed (fun _ => False) s) s (leaves_refl _ s) .ports).resolve_left id

@[simp] theorem showSiv_ports (s : State) (d : Nat) : (showSiv s d).ports = s.ports :=
  (kept_showSiv (leaves_closed (fun _ => False) s) s d (leaves_refl _ s) .ports).resolve_left id

@[simp] theorem easeNtsKeys_ports (s : State) (d : Nat) : (easeNtsKeys s d).ports = s.ports :=
  (kept_easeNtsKeys (leaves_closed (fun _ => False) s) s d (leaves_refl _ s) .ports).resolve_left id

/-- KEYS_READY moves of a die only the time since when it lacks keys. -/
theorem pd_keysReady {β : Type} (g : PortDie → β) (hg : ∀ x f, g { x with lackFrom := f } = g x) (s : State)
    (d : Nat) (b : Bool) (e : Nat) : g (pd (keysReady s d b) e) = g (pd s e) := by
  rw [keysReady, pd_of_ports (easeNtsKeys_ports _ _), pd_of_ports (raiseIf_ports _ _ _ _),
    pd_updPd_keeps g (fun x => hg x _), pd_of_ports (putB_ports _ _ _ _)]

/-- A key that is stored moves of a die only its store. -/
theorem pd_storeKey {β : Type} (g : PortDie → β) (hg : ∀ x l, g { x with keys := l } = g x) (s : State) (d : Nat)
    (k : MasterKey) (e : Nat) : g (pd (storeKey s d k) e) = g (pd s e) := by
  rw [storeKey]
  split
  · rfl
  · rw [pd_of_ports (raise_ports _ _ _), pd_updPd_keeps g (fun x => hg x _)]

theorem pd_dieStates {β : Type} (g : PortDie → β) (hg : ∀ x l, g { x with keys := l } = g x) (s : State)
    (d e : Nat) : g (pd (dieStates s d) e) = g (pd s e) := by
  rw [dieStates, pd_of_ports (showSiv_ports _ _), pd_updPd_keeps g (fun x => hg x _)]

theorem Shaped.storeKey {s : State} (h : Shaped s) (d : Nat) (k : MasterKey) : Shaped (storeKey s d k) :=
  kept_storeKey shaped_closed trivial s d k h

theorem dieHas_of_keys {s t : State} {d : Nat} (h : (pd t d).keys = (pd s d).keys) (id : Nat) :
    dieHas t d id = dieHas s d id := by
  rw [dieHas, h, dieHas]

/-- A key that is stored joins those that the die has. -/
theorem dieHas_storeKey {s : State} (hs : Shaped s) {d : Nat} (hd : d < 4) (k : MasterKey) (id : Nat) :
    dieHas (storeKey s d k) d id = (dieHas s d id || k.id == id) := by
  rw [storeKey]
  split
  · next hhas =>
    rcases eq_or_ne k.id id with rfl | hne
    · rw [hhas, Bool.true_or]
    · rw [beq_false_of_ne hne, Bool.or_false]
  · rw [dieHas, pd_of_ports (raise_ports _ _ _), pd_updPd_same hs hd, List.any_append, dieHas]
    simp

/-- Every key of a transfer is stored. -/
theorem dieHas_storeKeys {s : State} (hs : Shaped s) {d : Nat} (hd : d < 4) (l : List MasterKey) (id : Nat) :
    dieHas (l.foldl (fun s k => storeKey s d k) s) d id = (dieHas s d id || l.any fun k => k.id == id) := by
  induction l generalizing s with
  | nil => rw [List.foldl_nil, List.any_nil, Bool.or_false]
  | cons k l ih => rw [List.foldl_cons, ih (hs.storeKey d k), dieHas_storeKey hs hd, List.any_cons, Bool.or_assoc]

theorem id_stateAs (ks : List MasterKey) (k : MasterKey) : (stateAs ks k).id = k.id := by
  rw [stateAs]
  split
  · rfl
  · rfl

/-- The states that a die's keys take leave their IDs. -/
theorem dieHas_dieStates {s : State} (hs : Shaped s) {d : Nat} (hd : d < 4) (id : Nat) :
    dieHas (dieStates s d) d id = dieHas s d id := by
  rw [dieHas, dieStates, pd_of_ports (showSiv_ports _ _), pd_updPd_same hs hd, List.any_map, dieHas]
  simp only [Function.comp_def, id_stateAs]

/-- The transfer at the front has left the Crossing and the die counts it. -/
def crossTaken (s : State) (d : Nat) : State :=
  updPd (updKisl s fun x => { x with cross := x.cross.eraseP fun y => y.die == d }) d fun x =>
    { x with crossSeq := x.crossSeq + 1 }

/-- The die holds the keys of the transfer in the states that the island gives them. -/
def crossStored (s : State) (d : Nat) (l : List MasterKey) : State :=
  dieStates (l.foldl (fun s k => storeKey s d k) (crossTaken s d)) d

theorem Shaped.crossTaken {s : State} (h : Shaped s) (d : Nat) : Shaped (crossTaken s d) :=
  Shaped.updPd (kept_updKisl shaped_closed trivial s _ h) d fun _ => rfl

theorem Shaped.storeKeys {s : State} (h : Shaped s) (d : Nat) (l : List MasterKey) :
    Shaped (l.foldl (fun s k => Machine.storeKey s d k) s) :=
  kept_foldl l _ s (fun _ k hs => hs.storeKey d k) h

@[simp] theorem crossStored_kisl (s : State) (d : Nat) (l : List MasterKey) :
    (crossStored s d l).kisl = (crossTaken s d).kisl := by
  have hstored := kept_foldl l (fun s k => storeKey s d k) (crossTaken s d)
    (fun t k ht => kept_storeKey (leaves_closed (· = .ports) (crossTaken s d)) rfl t d k ht) (leaves_refl _ _)
  exact (kept_dieStates (leaves_closed (· = .ports) (crossTaken s d)) rfl _ d hstored .kisl).resolve_left (by simp)

theorem crossSeq_crossStored {s : State} (hs : Shaped s) {d : Nat} (hd : d < 4) (l : List MasterKey) :
    (pd (crossStored s d l) d).crossSeq = (pd s d).crossSeq + 1 := by
  have hstored : (pd (l.foldl (fun s k => storeKey s d k) (crossTaken s d)) d).crossSeq =
      (pd (crossTaken s d) d).crossSeq :=
    kept_foldl (P := fun t => (pd t d).crossSeq = (pd (crossTaken s d) d).crossSeq) l _ _
      (fun t k ht => (pd_storeKey PortDie.crossSeq (fun _ _ => rfl) t d k d).trans ht) rfl
  rw [crossStored, pd_dieStates PortDie.crossSeq (fun _ _ => rfl), hstored, crossTaken,
    pd_updPd_same (kept_updKisl shaped_closed trivial s _ hs) hd]
  rfl

theorem crossingRx_takes {d : Fin 4} {m : CrossMsg} {s : State} (hs : Shaped s)
    (hfind : s.kisl.cross.find? (fun m => m.die == d.val) = some m) (hon : pdeIsOn s d = true)
    (hseq : m.seq = (pd s d).crossSeq) :
    Answers (exec (.crossingRx d true) s) fun t => (pd t d).crossSeq = (pd s d).crossSeq + 1 ∧
      (∀ k ∈ m.keys, dieHas t d k.id = true) ∧ t.kisl.cross.length + 1 = s.kisl.cross.length ∧ t.clk = s.clk := by
  obtain ⟨u, hexec, hseqs, hkeys, hkisl⟩ : ∃ u, exec (.crossingRx d true) s = .next (showKeys u) ∧
      (pd u d).crossSeq = (pd (crossStored s d m.keys) d).crossSeq ∧
      (pd u d).keys = (pd (crossStored s d m.keys) d).keys ∧ u.kisl = (crossStored s d m.keys).kisl := by
    have htake : exec (.crossingRx d true) s = .next (showKeys
        (if ((crossStored s d m.keys).kisl.keys.all fun k => dieHas (crossStored s d m.keys) d k.id) &&
            (pd (crossStored s d m.keys) d).keys ≠ [] then keysReady (crossStored s d m.keys) d true
          else crossStored s d m.keys)) := by
      simp only [exec, execCrossingRx, hfind, hon, hseq, Bool.not_true, bne_self_eq_false, Bool.or_self,
        Bool.false_eq_true, if_false]
      rfl
    refine ⟨_, htake, ?_⟩
    split
    · exact ⟨pd_keysReady PortDie.crossSeq (fun _ _ => rfl) _ _ _ _, pd_keysReady PortDie.keys (fun _ _ => rfl) _ _ _ _,
        (kept_keysReady (leaves_closed (· = .ports) _) rfl _ d true (leaves_refl _ _) .kisl).resolve_left (by simp)⟩
    · exact ⟨rfl, rfl, rfl⟩
  have hports := pd_of_ports (showKeys_ports u) d
  refine ⟨_, hexec, ?_, fun k hk => ?_, ?_, commandFrames _ _ _ hexec .clk (by simp [mayChange])⟩
  · rw [hports, hseqs, crossSeq_crossStored hs d.2]
  · have htaken := hs.crossTaken d
    rw [dieHas_of_keys (congrArg PortDie.keys hports |>.trans hkeys), crossStored,
      dieHas_dieStates (htaken.storeKeys d m.keys) d.2, dieHas_storeKeys htaken d.2, Bool.or_eq_true]
    exact .inr (List.any_eq_true.mpr ⟨k, hk, beq_self_eq_true _⟩)
  · have hmem := List.mem_of_find?_eq_some hfind
    have hlen := List.length_eraseP_of_mem hmem (List.find?_some hfind)
    rw [showKeys_kisl, hkisl, crossStored_kisl, show (crossTaken s d).kisl.cross = s.kisl.cross.eraseP
      (fun y => y.die == d.val) from rfl, hlen]
    exact Nat.sub_add_cancel (List.length_pos_of_mem hmem)

/-- A transfer that fails its check is counted with INT_RAW[3]. -/
def crossErrCounted (s : State) (d : Nat) : State := raise (bump s (pSIV d) rSIV_CROSS_ERR_CNT) (pSIV d) 3

theorem rdN_crossErrCounted (s : State) (d : Nat) : rdN (crossErrCounted s d) (pSIV d) rSIV_CROSS_ERR_CNT =
    min (rdN s (pSIV d) rSIV_CROSS_ERR_CNT + 1) 0xFFFFFFFF := by
  rw [crossErrCounted, rdN_congr (rdA_raise_ne _ _ _ (offRec_siv d (by decide)) (Pg.adr_ne _ (by decide))),
    rdN_bump_same]

theorem intRaw_crossErrCounted (s : State) (d : Nat) : intRaw (crossErrCounted s d) (pSIV d) 3 = true :=
  intRaw_raise_siv _ d (by decide)

theorem otherRegs_crossErrCounted (s : State) (d : Nat) :
    OtherRegs s (crossErrCounted s d) [(pSIV d).adr rSIV_CROSS_ERR_CNT, (pSIV d).adr rINT_RAW] :=
  ((otherRegs_bump s (pSIV d) rSIV_CROSS_ERR_CNT).mono (by simp)).andThen (otherRegs_raise _ (pSIV d) 3) (by simp)

/-- The instant of a failed transfer is kept and SIV_CROSS stands. -/
def crossDoubted (s : State) (d at' : Nat) : State :=
  doubt (updPd s d fun x => { x with crossAt := at' }) (pSIV d) 1 true

theorem rdN_crossDoubted (s : State) (d at' : Nat) {o : Nat} (ho : o < 0x1000) (hne : o ≠ rDOUBT_RAW) :
    rdN (crossDoubted s d at') (pSIV d) o = rdN s (pSIV d) o :=
  rdN_congr ((rdA_doubt_ne _ _ _ _ (offRec_siv d ho) (Pg.adr_ne _ hne)).trans (rdA_updPd _ _ _ _))

theorem doubts_crossDoubted (s : State) (d at' : Nat) : doubts (crossDoubted s d at') (pSIV d) 1 = true :=
  doubts_doubt_same _ _ _ (by decide)

@[simp] theorem crossDoubted_kisl (s : State) (d at' : Nat) : (crossDoubted s d at').kisl = s.kisl :=
  doubt_kisl (updPd s d _) _ _ _

theorem otherRegs_crossDoubted (s : State) (d at' : Nat) :
    OtherRegs s (crossDoubted s d at') [(pSIV d).adr rDOUBT_RAW] :=
  .trans (.of_regs rfl _) (otherRegs_doubt (updPd s d _) (pSIV d) 1 true)

theorem crossingRx_refuses {d : Fin 4} {m : CrossMsg} {ok : Bool} {s : State}
    (hfind : s.kisl.cross.find? (fun m => m.die == d.val) = some m) (hon : pdeIsOn s d = true)
    (hbad : ok = false ∨ m.seq ≠ (pd s d).crossSeq) :
    Answers (exec (.crossingRx d ok) s) fun t => doubts t (pSIV d) 1 = true ∧ intRaw t (pSIV d) 3 = true ∧
      rdN t (pSIV d) rSIV_CROSS_ERR_CNT = min (rdN s (pSIV d) rSIV_CROSS_ERR_CNT + 1) 0xFFFFFFFF ∧ t.kisl = s.kisl ∧
      OtherRegs s t [(pSIV d).adr rSIV_CROSS_ERR_CNT, (pSIV d).adr rINT_RAW, (pSIV d).adr rDOUBT_RAW] := by
  have hfails : (!ok || m.seq != (pd s d).crossSeq) = true := by simpa using hbad
  have hexec : exec (.crossingRx d ok) s = .next (crossDoubted (crossErrCounted s d) d (mono s)) := by
    simp only [exec, execCrossingRx, hfind, hon, hfails, Bool.not_true, Bool.false_eq_true, if_false, if_true,
      crossDoubted, crossErrCounted]
  rw [hexec, answers_next, intRaw, rdN_crossDoubted _ _ _ (by decide) (by decide),
    rdN_crossDoubted _ _ _ (by decide) (by decide), rdN_crossErrCounted]
  refine ⟨doubts_crossDoubted _ _ _, intRaw_crossErrCounted s d, rfl, ?_, ?_⟩
  · rw [crossDoubted_kisl, crossErrCounted, raise_kisl, bump_kisl]
  · exact ((otherRegs_crossErrCounted s d).mono (by simp)).andThen (otherRegs_crossDoubted _ d _) (by simp)

/-! ### A transfer is sent again (R243, R409) -/

theorem crossingResend_die {i : Fin 20} {m : CrossMsg} {s : State} (hi : i.val < 4)
    (hfind : s.kisl.cross.find? (fun m => m.die == i.val) = some m) :
    Answers (exec (.crossingResend i) s) fun t =>
      (m.tries < 3 → t.regs = s.regs ∧ t.kisl.cross.length = s.kisl.cross.length ∧
        (∃ y ∈ t.kisl.cross, y = { m with tries := m.tries + 1 })) ∧
      (3 ≤ m.tries → intRaw t pKEY 3 = true ∧ t.kisl.cross.length + 1 = s.kisl.cross.length ∧
        rdN t pKEY rKEY_DIST_FAIL_CNT = min (rdN s pKEY rKEY_DIST_FAIL_CNT + 1) 0xFFFFFFFF) := by
  have hmem := List.mem_of_find?_eq_some hfind
  have hdie : m.die = i.val := by simpa using List.find?_some hfind
  rcases Nat.lt_or_ge m.tries 3 with htry | hgive
  · have hexec : exec (.crossingResend i) s = .next (updKisl s fun x => { x with cross := x.cross.map fun y =>
        if y.die = i.val ∧ y.seq = m.seq then { y with tries := y.tries + 1 } else y }) := by
      simp only [exec, execCrossingResend, hi, hfind, htry, if_true]
    rw [hexec, answers_next]
    refine ⟨fun _ => ⟨rfl, List.length_map _, _, List.mem_map_of_mem hmem, ?_⟩, fun h => absurd htry (by omega)⟩
    rw [if_pos ⟨hdie, rfl⟩]
  · have hexec : exec (.crossingResend i) s = .next (crossGiveUp s i) := by
      simp only [exec, execCrossingResend, hi, hfind, Nat.not_lt.mpr hgive, if_true, if_false]
    have hlen := List.length_eraseP_of_mem hmem (p := fun y => y.die == i.val) (by simpa using hdie)
    rw [hexec, answers_next]
    refine ⟨fun h => absurd hgive (by omega), fun _ => ⟨intRaw_raise_key _ (by decide), ?_, ?_⟩⟩
    · rw [crossGiveUp, raise_kisl, bump_kisl]
      simp only [updKisl, List.length_map, hlen]
      exact Nat.sub_add_cancel (List.length_pos_of_mem hmem)
    · rw [crossGiveUp, (KeyMoves.raise _ 3).rdN (by decide) (by decide), rdN_bump_same,
        rdN_congr (rdA_updKisl _ _ _)]

theorem link_updLink_same {s : State} (h : Shaped s) {k : Nat} (hk : k < 4) (f : AskLink → AskLink) :
    link (updLink s k f) k = f (link s k) :=
  ix_upd_same _ _ _ _ (by rw [h.links_length]; exact hk)

theorem Shaped.updLink {s : State} (h : Shaped s) (k : Nat) {f : AskLink → AskLink}
    (hf : ∀ x, (f x).peers = x.peers) : Shaped (updLink s k f) :=
  kept_updLink shaped_closed trivial s k f (fun x => (congrArg List.length (hf x)).symm ▸ fits_same _ _) h

theorem peer_updPeer_same {s : State} (h : Shaped s) {k c : Nat} (hk : k < 4) (hc : c < 4) (f : AskPeer → AskPeer) :
    peer (updPeer s k c f) k c = f (peer s k c) := by
  have hlen : c < (link s k).peers.length := by
    rw [link, h.link_peers hk]
    exact hc
  rw [peer, updPeer, link_updLink_same h hk]
  exact ix_upd_same _ _ _ _ hlen

/-- A KEY frame of a link has gone out again. -/
def keyFrameResent (s : State) (k c n id : Nat) (b : List Byte) : State :=
  updPeer (updLink s k fun x =>
      { x with sent := x.sent ++ [⟨7, c, askSrc s k, ((peer s k c).keyTx - 1) % 65536, b⟩] }) k c fun p =>
    { p with again := some (n + 1, id, b) }

theorem again_keyFrameResent {s : State} (hs : Shaped s) {k c : Nat} (hk : k < 4) (hc : c < 4) (n id : Nat)
    (b : List Byte) : (peer (keyFrameResent s k c n id b) k c).again = some (n + 1, id, b) := by
  rw [keyFrameResent, peer_updPeer_same (hs.updLink k (by exact fun _ => rfl)) hk hc]

theorem sent_keyFrameResent {s : State} (hs : Shaped s) {k : Nat} (hk : k < 4) (c n id : Nat) (b : List Byte) :
    (link (keyFrameResent s k c n id b) k).sent.length = (link s k).sent.length + 1 := by
  rw [keyFrameResent, updPeer, link_updLink_same (hs.updLink k (by exact fun _ => rfl)) hk, link_updLink_same hs hk]
  exact List.length_append

theorem crossingResend_link {i : Fin 20} {n id : Nat} {b : List Byte} {s : State} (hs : Shaped s) (hi : 4 ≤ i.val)
    (hagain : (peer s ((i.val - 4) / 4) ((i.val - 4) % 4)).again = some (n, id, b)) (hn : n < 3) :
    Answers (exec (.crossingResend i) s) fun t =>
      (peer t ((i.val - 4) / 4) ((i.val - 4) % 4)).again = some (n + 1, id, b) ∧
      (link t ((i.val - 4) / 4)).sent.length = (link s ((i.val - 4) / 4)).sent.length + 1 ∧ t.regs = s.regs := by
  have hexec : exec (.crossingResend i) s =
      .next (keyFrameResent s ((i.val - 4) / 4) ((i.val - 4) % 4) n id b) := by
    simp only [exec, execCrossingResend, Nat.not_lt.mpr hi, resendKeyFrame, hagain, hn, if_true, if_false,
      keyFrameResent]
  have hk : (i.val - 4) / 4 < 4 := by omega
  rw [hexec, answers_next]
  exact ⟨again_keyFrameResent hs hk (Nat.mod_lt _ (by decide)) n id b, sent_keyFrameResent hs hk _ n id b, rfl⟩

/-! ### The doubts about keys (R243–R245) -/

@[simp] theorem advMono_regs (s : State) (ns : Nat) : (advMono s ns).regs = s.regs := by
  obtain ⟨c, h⟩ := advMono_eq s ns
  rw [h]

theorem sivCrossEnd_shows {d : Fin 4} {s : State} (hdoubt : doubts s (pSIV d) 1 = true) :
    Answers (exec (.sivCrossEnd d) s) fun t =>
      doubts t (pSIV d) 1 = false ∧ OtherRegs s t [(pSIV d).adr rDOUBT_RAW] := by
  have hexec : exec (.sivCrossEnd d) s =
      .next (doubt (advMono s ((pd s d).crossAt + 1000000000)) (pSIV d) 1 false) := by
    simp only [exec, execSivCrossEnd, hdoubt, if_true]
  rw [hexec, answers_next, doubts_doubt_same _ _ _ (by decide)]
  exact ⟨rfl, .trans (.of_regs (advMono_regs _ _) _) (otherRegs_doubt _ _ _ _)⟩

/-- The clock does not go back to a PC64 instant that it has passed. -/
theorem advPc_past {s : State} {t : PC64} (h : pcDiff t (pcNow s) ≤ 0) : advPc s t = s := by
  rw [advPc, if_neg (not_lt.mpr h)]

/-- An instant a second back is one whose second has passed. -/
theorem advPc_second {s : State} {a : PC64} (h : secondPast s a = true) : advPc s (a + BitVec.ofNat 64 secU) = s := by
  refine advPc_past ?_
  have hback : (a - pcNow s).toInt ≤ -secU := of_decide_eq_true h
  have hlow := BitVec.le_toInt (a - pcNow s)
  have hsec : (BitVec.ofNat 64 secU).toInt = secU := by decide
  have hsum : a + BitVec.ofNat 64 secU - pcNow s = a - pcNow s + BitVec.ofNat 64 secU := by ring
  rw [pcDiff, hsum, BitVec.toInt_add, hsec, Int.bmod_eq_of_le (by omega) (by omega)]
  omega

theorem keyDist_shows {s : State} (hstands : distStands s = true) :
    Answers (exec .keyDist s) fun t =>
      doubts t pKEY 2 = true ∧ OtherRegs s t [pKEY.adr rDOUBT_RAW] ∧ t.clk = s.clk := by
  obtain ⟨k, hk, hpast⟩ : ∃ k, activeKey s = some k ∧ secondPast s k.at' = true := by
    rw [distStands] at hstands
    split at hstands
    · exact absurd hstands Bool.false_ne_true
    · next k hk => exact ⟨k, hk, (Bool.and_eq_true _ _ ▸ hstands).1⟩
  have hexec : exec .keyDist s = .next (doubt s pKEY 2 true) := by
    simp only [exec, execKeyDist, hk, distDoubt, advPc_second hpast, hstands, if_true]
  rw [hexec, answers_next, doubts_doubt_same _ _ _ (by decide)]
  exact ⟨rfl, otherRegs_doubt _ _ _ _, doubt_clk _ _ _ _⟩

theorem ntsKeys_shows {d : Fin 4} {t0 : Nat} {s : State} (hon : pdeIsOn s d = true)
    (hlack : (pd s d).lackFrom = some t0) (hpast : t0 + 10000000 ≤ mono s) :
    Answers (exec (.ntsKeys d) s) fun t => doubts t (pSIV d) 0 = true ∧ OtherRegs s t [(pSIV d).adr rDOUBT_RAW] ∧
      t.clk = s.clk := by
  have hstands : ntsKeysStands s d = true := by
    simp only [ntsKeysStands, hon, hlack, hpast, decide_true, Bool.true_or, Bool.and_self]
  have hexec : exec (.ntsKeys d) s = .next (doubt s (pSIV d) 0 true) := by
    simp only [exec, execNtsKeys, hlack, advMono_past hpast, hstands, if_true]
  rw [hexec, answers_next, doubts_doubt_same _ _ _ (by decide)]
  exact ⟨rfl, otherRegs_doubt _ _ _ _, doubt_clk _ _ _ _⟩

theorem keyUpstream_shows {due : Nat} {s : State} (hdue : upDue s = some due) (hup : keyUpstream s = true)
    (hon : keyOn s = true) :
    Answers (exec .keyUpstream s) fun t => doubts t pKEY 3 = true ∧ OtherRegs s t [pKEY.adr rDOUBT_RAW] ∧
      (due < 2 ^ 64 → due ≤ mono t) := by
  have hexec : exec .keyUpstream s = .next (doubt (advMono s due) pKEY 3 true) := by
    simp only [exec, execKeyUpstream, hdue, hup, hon, Bool.and_self, if_true]
  rw [hexec, answers_next, doubts_doubt_same _ _ _ (by decide), mono, doubt_clk]
  exact ⟨rfl, .trans (.of_regs (advMono_regs _ _) _) (otherRegs_doubt _ _ _ _), fun h => le_mono_advMono h s⟩

end Sys2Proof.Machine
end

section
/-! Minting for NTS-KE (R231): the block that a hart gives, its start, its refusal and its end. -/

namespace Sys2Proof.Machine

/-! ### Core memory -/

theorem coreByte_putCore (s : State) (a : Nat) (b : Byte) (c : Nat) :
    coreByte (putCore s a b) c = if c = a then b else coreByte s c := by
  have hcell : (amGet? c (cellSet a b s.core)).getD coreFill = if c = a then b else coreByte s c := by
    rw [cellSet]
    split
    · next hb =>
      rw [amGet_erase, hb]
      split
      · rfl
      · rfl
    · rw [amGet_set]
      split
      · rfl
      · rfl
  exact hcell

theorem coreByte_writeCore_below (l : List Byte) (s : State) {a c : Nat} (h : c < a) :
    coreByte (writeCore s a l) c = coreByte s c := by
  induction l generalizing s a with
  | nil => rfl
  | cons b t ih => rw [writeCore, ih _ (by omega), coreByte_putCore, if_neg (by omega)]

theorem coreByte_writeCore (l : List Byte) (s : State) (a : Nat) {i : Nat} (h : i < l.length) :
    coreByte (writeCore s a l) (a + i) = l[i] := by
  induction l generalizing s a i with
  | nil => exact absurd h (Nat.not_lt_zero i)
  | cons b t ih =>
    cases i with
    | zero => rw [writeCore, coreByte_writeCore_below t _ (by omega), coreByte_putCore, if_pos (Nat.add_zero a),
        List.getElem_cons_zero]
    | succ i => rw [writeCore, show a + (i + 1) = a + 1 + i by omega, ih _ _ (Nat.lt_of_succ_lt_succ h),
        List.getElem_cons_succ]

@[simp] theorem writeCore_kisl (l : List Byte) (s : State) (a : Nat) : (writeCore s a l).kisl = s.kisl := by
  induction l generalizing s a with
  | nil => rfl
  | cons b t ih => exact ih _ _

@[simp] theorem writeCore_regs (l : List Byte) (s : State) (a : Nat) : (writeCore s a l).regs = s.regs := by
  induction l generalizing s a with
  | nil => rfl
  | cons b t ih => exact ih _ _

/-- An AEAD's key has 32 bytes at least. -/
theorem keyLen_ge (id : Nat) : 32 ≤ keyLen id := by
  rw [keyLen]
  split
  · decide
  · split
    · decide
    · decide

/-- The first 32 of the bytes that keys take are 0 after the wipe. -/
theorem coreByte_wipeKeys (s : State) (a : Nat) {i : Nat} (hi : i < 32) : coreByte (wipeKeys s a) (a + 16 + i) = 0 := by
  have hlen := keyLen_ge (natLE (readCore s a 2))
  rw [wipeKeys, coreByte_writeCore _ _ _ (by rw [List.length_replicate]; split <;> omega), List.getElem_replicate]

/-! ### Why a mint is refused (R231) -/

/-- No code above 5. -/
theorem mintWhy_le (s : State) (h a : Nat) : mintWhy s h a ≤ 5 := by
  simp only [mintWhy]
  repeat' split
  all_goals decide

/-- A command of the mint that starts shows no DONE. -/
def mintOpened (s : State) : State := putB s pKEY fKEY_MINT_CMD_DONE false

theorem rdN_mintOpened_cpu (s : State) {o : Nat} (ho : o < 0x1000) : rdN (mintOpened s) pCPU o = rdN s pCPU o :=
  rdN_congr (rdA_putB_ne _ _ _ _ (by simp only [Pg.adr]; omega))

theorem hartSram_mintOpened (s : State) {h : Nat} (hh : h < 6) (a n : Nat) :
    hartSram (mintOpened s) h a n = hartSram s h a n := by
  have hreg : rCPU_REG h < 0x1000 := by simp only [rCPU_REG]; omega
  simp only [hartSram, unitIn, rdN_mintOpened_cpu s hreg, rdN_mintOpened_cpu s (o := rCPU_SHARED) (by decide)]

theorem mintWhy_mintOpened (s : State) {h : Nat} (hh : h < 6) (a : Nat) :
    mintWhy (mintOpened s) h a = mintWhy s h a := by
  have haead : aeadOffered (mintOpened s) = aeadOffered s := by
    funext id
    rw [aeadOffered, mintOpened, get_congr (rdA_putB_ne _ _ _ _ (Pg.adr_ne _ (by decide))), aeadOffered]
  have hbyte : coreByte (mintOpened s) = coreByte s := by
    funext c
    rw [coreByte, mintOpened, putB_core, coreByte]
  have hbusy : flag (mintOpened s) pKEY fKEY_MINT_CMD_BUSY = flag s pKEY fKEY_MINT_CMD_BUSY :=
    flag_putB_beside (by decide)
  have hactive : activeKey (mintOpened s) = activeKey s := activeKey_of_kisl (putB_kisl _ _ _ _)
  have hread : readCore (mintOpened s) a 2 = readCore s a 2 := by rw [readCore, hbyte, readCore]
  rw [mintWhy, hartSram_mintOpened s hh, haead, hread, hbyte, hactive, hbusy, mintWhy]

/-! ### MINT (R231) -/

@[simp] theorem wipeKeys_kisl (s : State) (a : Nat) : (wipeKeys s a).kisl = s.kisl := writeCore_kisl _ _ _

theorem rdA_wipeKeys (s : State) (a adr : Nat) : rdA (wipeKeys s a) adr = rdA s adr := rdA_writeCore _ _ _ _

@[simp] theorem updKisl_core (s : State) (f : KeyIsland → KeyIsland) : (updKisl s f).core = s.core := rfl

/-- A mint that starts shows in MINT_CMD. -/
def mintBegun (s : State) : State :=
  putB (putB (put s pKEY fKEY_MINT_CMD_CODE 0) pKEY fKEY_MINT_CMD_ERR false) pKEY fKEY_MINT_CMD_BUSY true

theorem flag_mintBegun_done (s : State) :
    flag (mintBegun s) pKEY fKEY_MINT_CMD_DONE = flag s pKEY fKEY_MINT_CMD_DONE := by
  rw [mintBegun, flag_putB_beside (by decide), flag_putB_beside (by decide),
    flag_put_apart _ _ fKEY_MINT_CMD_CODE fKEY_MINT_CMD_DONE _ rfl (by decide) (by decide)]

theorem flag_mintBegun_busy (s : State) : flag (mintBegun s) pKEY fKEY_MINT_CMD_BUSY = true :=
  flag_putB_same _ _ _ _ (by decide) rfl

theorem flag_mintBegun_err (s : State) : flag (mintBegun s) pKEY fKEY_MINT_CMD_ERR = false := by
  rw [mintBegun, flag_putB_beside (by decide), flag_putB_same _ _ _ _ (by decide) rfl]

theorem mintBegun_core (s : State) : (mintBegun s).core = s.core := by
  rw [mintBegun, putB_core, putB_core, put_core]

theorem startMint_eq (s : State) (a : Nat) :
    ∃ j, startMint s a = updKisl (mintBegun (wipeKeys s a)) fun x => { x with mint := some j } := ⟨_, rfl⟩

/-- A mint that starts is BUSY without an error, and the keys in its block are overwritten. -/
theorem startMint_shows (s : State) (a : Nat) :
    flag (startMint s a) pKEY fKEY_MINT_CMD_DONE = flag s pKEY fKEY_MINT_CMD_DONE ∧
    flag (startMint s a) pKEY fKEY_MINT_CMD_BUSY = true ∧ flag (startMint s a) pKEY fKEY_MINT_CMD_ERR = false ∧
    (startMint s a).kisl.mint.isSome = true ∧ ∀ i : Fin 32, coreByte (startMint s a) (a + 16 + i) = 0 := by
  obtain ⟨j, hstart⟩ := startMint_eq s a
  have hregs : ∀ f : Fld, flag (startMint s a) pKEY f = flag (mintBegun (wipeKeys s a)) pKEY f := fun f => by
    rw [hstart, flag_congr (rdA_updKisl _ _ _)]
  have hcore : (startMint s a).core = (wipeKeys s a).core := by
    rw [hstart, updKisl_core, mintBegun_core]
  have hwiped : flag (wipeKeys s a) pKEY fKEY_MINT_CMD_DONE = flag s pKEY fKEY_MINT_CMD_DONE :=
    flag_congr (rdA_wipeKeys s a _)
  refine ⟨(hregs _).trans ((flag_mintBegun_done _).trans hwiped), (hregs _).trans (flag_mintBegun_busy _),
    (hregs _).trans (flag_mintBegun_err _), ?_, fun i => ?_⟩
  · rw [hstart]
    rfl
  · rw [coreByte, hcore]
    exact coreByte_wipeKeys s a i.2

/-- A refused mint sets ERR with its code and INT_RAW[5], and leaves the key island. -/
theorem refuseMint_shows (s : State) (a : Nat) {why : Nat} (hwhy : why ≤ 5) :
    flag (refuseMint s a why) pKEY fKEY_MINT_CMD_DONE = flag s pKEY fKEY_MINT_CMD_DONE ∧
    flag (refuseMint s a why) pKEY fKEY_MINT_CMD_ERR = true ∧ get (refuseMint s a why) pKEY fKEY_MINT_CMD_CODE = why ∧
    intRaw (refuseMint s a why) pKEY 5 = true ∧ (refuseMint s a why).kisl = s.kisl := by
  obtain ⟨u, hregs, hkisl, hrefuse⟩ : ∃ u, (∀ adr, rdA u adr = rdA s adr) ∧ u.kisl = s.kisl ∧ refuseMint s a why =
      raise (put (putB u pKEY fKEY_MINT_CMD_ERR true) pKEY fKEY_MINT_CMD_CODE why) pKEY 5 := by
    refine ⟨if why = 4 then s else wipeKeys s a, fun adr => ?_, ?_, rfl⟩
    · rw [rdA_ite, rdA_wipeKeys, ite_self]
    · split
      · rfl
      · exact wipeKeys_kisl s a
  have hraise := KeyMoves.raise (put (putB u pKEY fKEY_MINT_CMD_ERR true) pKEY fKEY_MINT_CMD_CODE why) 5
  rw [hrefuse, hraise.flag (by decide) (by decide), hraise.flag (by decide) (by decide),
    hraise.get (by decide) (by decide), raise_kisl, put_kisl, putB_kisl, get_put_same _ _ _ _ (by decide),
    flag_put_apart _ _ fKEY_MINT_CMD_CODE fKEY_MINT_CMD_DONE _ rfl (by decide) (by decide),
    flag_put_apart _ _ fKEY_MINT_CMD_CODE fKEY_MINT_CMD_ERR _ rfl (by decide) (by decide),
    flag_putB_same _ _ _ _ (by decide) rfl, flag_putB_beside (by decide), flag_congr (hregs _)]
  exact ⟨rfl, rfl, Nat.mod_eq_of_lt (hwhy.trans_lt (by decide)), intRaw_raise_key _ (by decide), hkisl⟩

theorem mint_shows {h : Fin 6} {a why : Nat} {s : State} (hw : writable s (.hart h) pKEY = true)
    (ha : get s pKEY fKEY_MINT_PTR_ADDR * 64 = a) (hjudge : mintWhy s h a = why) :
    Answers (exec (.mint (.hart h)) s) fun t => flag t pKEY fKEY_MINT_CMD_DONE = false ∧
      (why = 0 → flag t pKEY fKEY_MINT_CMD_BUSY = true ∧ flag t pKEY fKEY_MINT_CMD_ERR = false ∧
        t.kisl.mint.isSome = true ∧
        (∀ i : Fin 32, coreByte t (a + 16 + i) = 0)) ∧
      (why ≠ 0 → flag t pKEY fKEY_MINT_CMD_ERR = true ∧ get t pKEY fKEY_MINT_CMD_CODE = why ∧
        intRaw t pKEY 5 = true ∧ t.kisl = s.kisl) := by
  have hexec : exec (.mint (.hart h)) s =
      .next (if why = 0 then startMint (mintOpened s) a else refuseMint (mintOpened s) a why) := by
    rw [← hjudge, ← mintWhy_mintOpened s h.2 a, ← ha]
    exact congrArg Host.Outcome.next (onWrite_writable hw _)
  have hopened : flag (mintOpened s) pKEY fKEY_MINT_CMD_DONE = false := flag_putB_same _ _ _ _ (by decide) rfl
  rw [hexec, answers_next]
  by_cases hwhy : why = 0
  · obtain ⟨hdone, hbusy, herr, hmint, hwiped⟩ := startMint_shows (mintOpened s) a
    rw [if_pos hwhy]
    exact ⟨hdone.trans hopened, fun _ => ⟨hbusy, herr, hmint, hwiped⟩, fun hne => absurd hwhy hne⟩
  · obtain ⟨hdone, herr, hcode, hint, hkisl⟩ := refuseMint_shows (mintOpened s) a (hjudge ▸ mintWhy_le s h a)
    rw [if_neg hwhy]
    exact ⟨hdone.trans hopened, fun h0 => absurd h0 hwhy,
      fun _ => ⟨herr, hcode, hint, hkisl.trans (putB_kisl _ _ _ _)⟩⟩

/-! ### MINT_DONE (R231) -/

/-- Cookies take free values alone. -/
theorem mintCookies_regs (j : MintJob) (mk : MasterKey) (n : Nat) (s : State) :
    (mintCookies j mk n s).1.regs = s.regs := by
  induction n generalizing s with
  | zero => rfl
  | succ n ih => exact ih (drawn s)

/-- The cookies of a mint are in its block, and no mint runs. -/
def cookiesWritten (s : State) (j : MintJob) (mk : MasterKey) : State :=
  let r := mintCookies j mk j.count s
  updKisl (writeCore r.1 (j.addr + 256) r.2) fun x => { x with mint := none }

theorem cookiesWritten_regs (s : State) (j : MintJob) (mk : MasterKey) : (cookiesWritten s j mk).regs = s.regs :=
  (writeCore_regs _ _ _).trans (mintCookies_regs j mk j.count s)

/-- The end of a mint shows in MINT_CMD. -/
def mintClosed (s : State) : State := putB (putB s pKEY fKEY_MINT_CMD_BUSY false) pKEY fKEY_MINT_CMD_DONE true

theorem otherRegs_mintClosed (s : State) : OtherRegs s (mintClosed s) [pKEY.adr rKEY_MINT_CMD] :=
  (otherRegs_putB s pKEY fKEY_MINT_CMD_BUSY false).trans (otherRegs_putB _ pKEY fKEY_MINT_CMD_DONE true)

theorem rdN_bumpBy_same (s : State) (p : Pg) (o k : Nat) :
    rdN (bumpBy s p o k) p o = min (rdN s p o + k) 0xFFFFFFFF := by
  rw [bumpBy, rdN_wrN_same]
  omega

theorem mintDone_shows {j : MintJob} {mk : MasterKey} {s : State} (hmint : s.kisl.mint = some j)
    (hactive : activeKey s = some mk) (hret : pageRetained s pKEY = false) :
    Answers (exec .mintDone s) fun t => t.kisl.mint = none ∧ flag t pKEY fKEY_MINT_CMD_BUSY = false ∧
      flag t pKEY fKEY_MINT_CMD_DONE = true ∧ intRaw t pKEY 4 = true ∧
      rdN t pKEY rKEY_MINT_CNT = min (rdN s pKEY rKEY_MINT_CNT + j.count) 0xFFFFFFFF ∧
      OtherRegs s t [pKEY.adr rKEY_MINT_CMD, pKEY.adr rKEY_MINT_CNT, pKEY.adr rINT_RAW] := by
  have hexec : exec .mintDone s = .next (raise (bumpBy (mintClosed (cookiesWritten s j mk)) pKEY rKEY_MINT_CNT j.count)
      pKEY 4) := by
    simp only [exec, execMintDone, hmint, hactive, hret, Bool.false_eq_true, if_false, mintClosed, cookiesWritten]
  have hcookies : OtherRegs s (cookiesWritten s j mk) [] := .of_regs (cookiesWritten_regs s j mk) _
  have hclosed := otherRegs_mintClosed (cookiesWritten s j mk)
  have hcount : OtherRegs (mintClosed (cookiesWritten s j mk)) (bumpBy (mintClosed (cookiesWritten s j mk)) pKEY
      rKEY_MINT_CNT j.count) [pKEY.adr rKEY_MINT_CNT] := otherRegs_wrN _ _ _ _
  have hraise := otherRegs_raise (bumpBy (mintClosed (cookiesWritten s j mk)) pKEY rKEY_MINT_CNT j.count) pKEY 4
  rw [hexec, answers_next, raise_kisl, bumpBy_kisl, hraise.flag (by decide) (by decide),
    hraise.flag (by decide) (by decide), hcount.flag (by decide) (by decide), hcount.flag (by decide) (by decide),
    hraise.rdN (by decide) (by decide), rdN_bumpBy_same, hclosed.rdN (by decide) (by decide),
    hcookies.rdN (by decide) (by decide)]
  refine ⟨?_, ?_, flag_putB_same _ _ _ _ (by decide) rfl, intRaw_raise_key _ (by decide), rfl,
    (((hcookies.mono (by simp)).andThen hclosed (by simp)).andThen hcount (by simp)).andThen hraise (by simp)⟩
  · rw [mintClosed, putB_kisl, putB_kisl]
    rfl
  · rw [mintClosed, flag_putB_beside (by decide), flag_putB_same _ _ _ _ (by decide) rfl]

/-- Settles O36: each row in one theorem for each way that it ends. -/
theorem keyTransfersAndMinting : Obligations.KeyTransfersAndMinting :=
  ⟨fun _ _ _ hs hfind hon hseq => crossingRx_takes hs hfind hon hseq,
    fun _ _ _ _ hfind hon hbad => crossingRx_refuses hfind hon hbad,
    fun _ _ _ hi hfind => crossingResend_die hi hfind,
    fun _ _ _ _ _ hs hi hagain hn => crossingResend_link hs hi hagain hn,
    fun _ _ hdoubt => sivCrossEnd_shows hdoubt, fun _ hstands => keyDist_shows hstands,
    fun _ _ _ hon hlack hpast => ntsKeys_shows hon hlack hpast,
    fun _ _ hdue hup hon => keyUpstream_shows hdue hup hon, fun _ => rfl, fun _ _ hw => mint_shows hw rfl rfl,
    fun _ _ _ hmint hactive hret => mintDone_shows hmint hactive hret⟩

end Sys2Proof.Machine
end
